-- ==== Sys2Proof/Word.lean ====
section
/-! DEFINITION. The word types of the module: registers are 32 bits wide (R11), memories and payloads are bytes. -/

namespace Sys2Proof

/-- One register (R11). -/
abbrev Word := BitVec 32

/-- One byte of a memory, a payload or a frame. -/
abbrev Byte := BitVec 8

end Sys2Proof
end

