-- ==== Sys2Proof/Shapes.lean ====
section
/-! DEFINITION. The operand shapes of the commands: indices, headers, records, frames and readings. -/

namespace Sys2Proof

/-- Lane A to D (R34: 0 for A). -/
abbrev Lane := Fin 4
/-- Task number (R93). -/
abbrev Task := Fin 16
/-- Pair of a lane (R74). -/
abbrev Pair := Fin 4
/-- Core of a lane. -/
abbrev Core := Fin 8
/-- Ring: 0 for ring 1, 1 for ring 2 (R35). -/
abbrev Ring := Fin 2
/-- Mailbox channel (R438). -/
abbrev Chan := Fin 7
/-- Source input of the fault collector (R404). -/
abbrev Src := Fin 48
/-- Drive 1 or 2 (R299). -/
abbrev Drive := Fin 2
/-- Ethernet port: 0 to 3 for `ETH1` to `ETH4`, 4 for `SVC` (R277). -/
abbrev EPort := Fin 5

/-- What a client writes into a command header beside its code (R442). -/
structure Hdr where
  tag : Byte
  flags : Byte
  len : BitVec 16
  chspec : BitVec 16
  rsvd : BitVec 64
  deriving DecidableEq, Repr

/-- Which voted stream of a task a closing window belongs to: commands (R69), retained stores (R156) or rack-bus
accesses (R362). -/
inductive StreamKind where
  | command | retained | rack
  deriving DecidableEq, Repr

/-- The stream of a retained store: a task's, or the runtime's own (R155). -/
inductive RetStream where
  | task (t : Task)
  | runtime
  deriving DecidableEq, Repr

/-- The way a service session comes in (R275, R454): at `SVC`, or at one of `ETH1` to `ETH4`. -/
inductive SvcVia where
  | svc
  | eth (n : Fin 4)
  deriving DecidableEq, Repr

/-- A record of a client of the service channel (R454). -/
structure SvcRecord where
  kind : Byte
  rsvd : BitVec 24
  ctr : Nat
  body : List Byte
  atag : List Byte
  deriving DecidableEq, Repr

/-- What a lane's core does while a task runs: the application code is outside the spec, its accesses and its exceptions are
not. `sup` is supervisor privilege (R150); `odd` names the trailing core of a split pair (R79). A trap is a synchronous exception that is
no memory fault, an illegal instruction or an arithmetic trap (R132); a submit is the runtime's write of `VX_SUBMIT` for the task (R46, R71). -/
inductive CoreOp where
  | load (sup odd : Bool) (a n : Nat)
  | store (sup odd : Bool) (a : Nat) (bs : List Byte)
  | fetch (sup odd : Bool) (a n : Nat)
  | trap (sup odd : Bool)
  | submit (abandon : Bool)
  deriving DecidableEq, Repr

/-- The apply queues of R40. -/
inductive ApplyQ where
  | field | keeper
  | netNode (r : Ring) (n : Fin 16)
  | netOther
  deriving DecidableEq, Repr

/-- The kind of a core access (R176). -/
inductive AccessKind where
  | load | store | fetch
  deriving DecidableEq, Repr

/-- The memory an error lies in (R153, R404). -/
inductive MemKind where
  | dram | tcm | l2 | parity
  deriving DecidableEq, Repr

/-- The side of a DMA fault (R177). -/
inductive DmaSide where
  | source | dest | descriptor
  deriving DecidableEq, Repr

/-- The die links (R21). -/
inductive DieLink where
  | lane (l : Lane)
  | network | field | keeperCompare
  deriving DecidableEq, Repr

/-- Why a die link failed (R22). -/
inductive LinkCause where
  | replays | training | comparator
  deriving DecidableEq, Repr

/-- A die with a shadow counter (R26): each Keeper die has one, and the ZM60-E4 has no second Keeper die. -/
inductive DieId where
  | lane (l : Lane)
  | keeper | keeper2 | field
  deriving DecidableEq, Repr

/-- A port of a ring controller. -/
inductive RPort where
  | a | b
  deriving DecidableEq, Repr

/-- Channel A or B of a drive (R299). -/
inductive DrvCh where
  | a | b
  deriving DecidableEq, Repr

/-- A protected output channel (R328, R330). -/
inductive OutCh where
  | hso (n : Fin 12)
  | fpp (n : Fin 4)
  deriving DecidableEq, Repr

/-- A line of the legacy serial bus (R371). -/
inductive SerialLine where
  | a | b
  deriving DecidableEq, Repr

/-- The pair links between the two modules of a unit (R383). -/
inductive PairLink where
  | plk1 | plk2
  deriving DecidableEq, Repr

/-- A supply input (R544). -/
inductive SupplyIn where
  | pwa | pwb
  deriving DecidableEq, Repr

/-- Who makes a register access. -/
inductive Initiator where
  | keeper
  | core (l : Lane) (c : Core) (sup : Bool)
  | dma (l : Lane) (n : Fin 16)
  deriving DecidableEq, Repr

/-- The state of an Ethernet link (R277). -/
inductive LinkSpeed where
  | down | m100 | g1
  deriving DecidableEq, Repr

/-- What wakes a parked module besides a command (R429). -/
inductive WakeSrc where
  | di | rtc
  deriving DecidableEq, Repr

/-- An Ethernet frame as a switch port receives it (R265): addresses, tag, type and the bytes that follow. -/
structure EthFrame where
  dst : Nat
  src : Nat
  tag : Option (Nat × Nat)
  etype : Nat
  body : List Byte
  fcsOk : Bool
  deriving DecidableEq, Repr

/-- A PTP message with the transport it came over (0 Ethernet, 1 UDP over IPv4, 2 UDP over IPv6) and its stamp (R267 to R269). -/
structure PtpMsg where
  transport : Nat
  body : List Byte
  stamp : Nat
  deriving DecidableEq, Repr

/-- A PTP message the module sends. -/
inductive PtpKind where
  | sync | delayReq | pdelayReq | announce
  deriving DecidableEq, Repr

/-- One reading of the seal switches by both readers (R313). -/
structure SealReading where
  keeper : Byte
  field : Byte
  loopClosed : Bool
  complementary : Bool
  deriving DecidableEq, Repr

/-- The measurements a loop diagnostic judges (R349). -/
structure LoopMeas where
  current : Int
  voltage : Int
  deriving DecidableEq, Repr

/-- A card header read at enumeration (R358). -/
structure CardHeader where
  slot : Fin 16
  words : List Word
  deriving DecidableEq, Repr

/-- A rack-bus access of a lane (R357, R362). -/
structure RackReq where
  a : Nat
  wr : Option (List Word)
  len : Nat
  deriving DecidableEq, Repr

/-- A forwarded image of the partner (R381). -/
structure FwdImage where
  task : Task
  cycle : Nat
  body : List Byte
  deriving DecidableEq, Repr

/-- A report word of a fault source (R406). -/
structure RepWord where
  cls : Fin 5
  code : BitVec 16
  data : List Byte
  deriving DecidableEq, Repr

/-- What Self-Test found (R414, R426, R531): the collector's injections, the check of retained memory, the loopbacks at depths 0 and
1, the field outputs. -/
structure SelfTest where
  injectionOk : Bool
  retainedOk : Bool
  loop0Ok : Bool
  loop1Ok : Bool
  fieldOk : Bool
  deriving DecidableEq, Repr

/-- A die of the boundary-scan chain (R534). -/
inductive DieTap where
  | field | network | keeper | keeper2
  | lane (l : Lane)
  deriving DecidableEq, Repr

end Sys2Proof
end

