-- ==== Sys2Proof/Syntax.lean ====
section
/-! DEFINITION. The commands of the block: one constructor per row of the table of operations and events. The first 60
are commands a client posts on a mailbox channel: the channel, the header fields beside the code, the payload bytes. -/

namespace Sys2Proof

/-- A command of the block. -/
inductive Instr where
  /-- `MOD_RESET` (R469): Command 0x0101 answers OK and resets the module 1 ms later with cause 0x1. -/
  | modReset (ch : Chan) (h : Hdr) (p : List Byte)
  /-- `MOD_IDENTIFY` (R470): Command 0x0102 returns the factory area, interface level, active bank, mode and life-cycle state. -/
  | modIdentify (ch : Chan) (h : Hdr) (p : List Byte)
  /-- `MOD_STATUS` (R470): Command 0x0103 returns mode, level, application state, lane states, synchronisation state and fault flags. -/
  | modStatus (ch : Chan) (h : Hdr) (p : List Byte)
  /-- `MOD_SETMODE` (R471): Command 0x0104 requests a target mode through the rows of R420. -/
  | modSetmode (ch : Chan) (h : Hdr) (p : List Byte)
  /-- `MOD_TAG_READ` (R469): Command 0x0105 returns a run of bytes from the tag area. -/
  | modTagRead (ch : Chan) (h : Hdr) (p : List Byte)
  /-- `MOD_TAG_WRITE` (R436): Command 0x0106 writes a run of tag-area bytes as one journalled transaction. -/
  | modTagWrite (ch : Chan) (h : Hdr) (p : List Byte)
  /-- `MOD_WAKECFG` (R469): Command 0x0107 writes the wake input, edge, RTC enable and wake time to LC_WAKE and LC_WAKET. -/
  | modWakecfg (ch : Chan) (h : Hdr) (p : List Byte)
  /-- `APP_STAGE` (R473): Command 0x0201 writes data into a staging area of user flash. -/
  | appStage (ch : Chan) (h : Hdr) (p : List Byte)
  /-- `APP_LOAD` (R474): Command 0x0202 verifies and checks a staged application package and stores it as the application. -/
  | appLoad (ch : Chan) (h : Hdr) (p : List Byte)
  /-- `APP_START` (R475): Command 0x0203 starts a stopped application and answers when it is Running. -/
  | appStart (ch : Chan) (h : Hdr) (p : List Byte)
  /-- `APP_STOP` (R475): Command 0x0204 stops a running application, removes forces and commits the stop image. -/
  | appStop (ch : Chan) (h : Hdr) (p : List Byte)
  /-- `APP_RESTART` (R475): Command 0x0205 stops and restarts the application with the given kind. -/
  | appRestart (ch : Chan) (h : Hdr) (p : List Byte)
  /-- `APP_NEXTSTART` (R472): Command 0x0206 sets or clears the start kind for the next power-up in MRAM. -/
  | appNextstart (ch : Chan) (h : Hdr) (p : List Byte)
  /-- `APP_OLC_LOAD` (R476): Command 0x0207 verifies an on-line change package and stages it in every Voting and Spare lane. -/
  | appOlcLoad (ch : Chan) (h : Hdr) (p : List Byte)
  /-- `APP_OLC_APPLY` (R476): Command 0x0208 waits for the change point of the staged on-line change package, or times out after 1 s. -/
  | appOlcApply (ch : Chan) (h : Hdr) (p : List Byte)
  /-- `PAIR_SPLIT` (R81): Command 0x0209, voted, splits a pair at its execution point. -/
  | pairSplit (ch : Chan) (h : Hdr) (p : List Byte)
  /-- `PAIR_JOIN` (R81): Command 0x020A, voted, joins a pair at its execution point. -/
  | pairJoin (ch : Chan) (h : Hdr) (p : List Byte)
  /-- `APP_STATUS` (R477): Command 0x020B returns application state, start kind, on-line change count, anchor and image hash. -/
  | appStatus (ch : Chan) (h : Hdr) (p : List Byte)
  /-- `FORCE_SET` (R118): Command 0x0301 forces a symbol to a value in Maintenance mode. -/
  | forceSet (ch : Chan) (h : Hdr) (p : List Byte)
  /-- `FORCE_CLEAR` (R478): Command 0x0302 removes the force on one symbol. -/
  | forceClear (ch : Chan) (h : Hdr) (p : List Byte)
  /-- `FORCE_CLEARALL` (R478): Command 0x0303 removes every force. -/
  | forceClearall (ch : Chan) (h : Hdr) (p : List Byte)
  /-- `FORCE_LIST` (R478): Command 0x0304 returns a page of the active forces. -/
  | forceList (ch : Chan) (h : Hdr) (p : List Byte)
  /-- `TIME_CONFIG` (R480): Command 0x0401 sets PTP configuration, priorities, TIO directions and asymmetries. -/
  | timeConfig (ch : Chan) (h : Hdr) (p : List Byte)
  /-- `TIME_TRIGGER` (R480): Command 0x0402 configures and arms a Keeper trigger channel. -/
  | timeTrigger (ch : Chan) (h : Hdr) (p : List Byte)
  /-- `TIME_CAPTURE` (R479): Command 0x0403 configures a capture channel. -/
  | timeCapture (ch : Chan) (h : Hdr) (p : List Byte)
  /-- `TIME_STATUS` (R480): Command 0x0404 returns a time snapshot, synchronisation state and offsets. -/
  | timeStatus (ch : Chan) (h : Hdr) (p : List Byte)
  /-- `RING_SCHED` (R481): Command 0x0501 writes schedule entries into a ring's staged table. -/
  | ringSched (ch : Chan) (h : Hdr) (p : List Byte)
  /-- `RING_COMMIT` (R482): Command 0x0502 checks and stores a ring configuration and returns its schedule identifier. -/
  | ringCommit (ch : Chan) (h : Hdr) (p : List Byte)
  /-- `RING_STATUS` (R482): Command 0x0503 returns a ring's state, join, synchronisation, fold and check registers. -/
  | ringStatus (ch : Chan) (h : Hdr) (p : List Byte)
  /-- `ETH_CONFIG` (R483): Command 0x0601 applies Ethernet control, port settings and the service address. -/
  | ethConfig (ch : Chan) (h : Hdr) (p : List Byte)
  /-- `ETH_STATUS` (R483): Command 0x0602 returns PTP status, port registers and process-data counters. -/
  | ethStatus (ch : Chan) (h : Hdr) (p : List Byte)
  /-- `SAFE_LOAD` (R484): Command 0x0701 verifies, checks and stores a safety configuration and writes the SC_ and SF_ blocks. -/
  | safeLoad (ch : Chan) (h : Hdr) (p : List Byte)
  /-- `SEAL_ACCEPT` (R317): Command 0x0702 accepts the present seal switch reading as the seal setting and clears the tamper latch. -/
  | sealAccept (ch : Chan) (h : Hdr) (p : List Byte)
  /-- `SC_ACK` (R292): Command 0x0703, voted, acknowledges receive connections awaiting acknowledgement. -/
  | scAck (ch : Chan) (h : Hdr) (p : List Byte)
  /-- `SAFE_STATUS` (R484): Command 0x0704 returns the safety configuration hash, seal register and tamper time. -/
  | safeStatus (ch : Chan) (h : Hdr) (p : List Byte)
  /-- `FIO_CONFIG` (R486): Command 0x0801 applies and stores the field I/O configuration. -/
  | fioConfig (ch : Chan) (h : Hdr) (p : List Byte)
  /-- `FIO_RELEASE` (R336): Command 0x0802 releases latched field channels or the latched output bank through FD_RELEASE. -/
  | fioRelease (ch : Chan) (h : Hdr) (p : List Byte)
  /-- `FIO_STATUS` (R485): Command 0x0803 returns the output status record and input states. -/
  | fioStatus (ch : Chan) (h : Hdr) (p : List Byte)
  /-- `UNIT_CONFIG` (R377): Command 0x0901 stores the unit identifier, partner, witnesses and Light rings. -/
  | unitConfig (ch : Chan) (h : Hdr) (p : List Byte)
  /-- `UNIT_HANDOVER` (R397): Command 0x0902 makes the holder stop renewing and enter Hot-Standby at its lease end. -/
  | unitHandover (ch : Chan) (h : Hdr) (p : List Byte)
  /-- `UNIT_WITNESS` (R487): Command 0x0903 configures one witnessed-unit entry of this module. -/
  | unitWitness (ch : Chan) (h : Hdr) (p : List Byte)
  /-- `UNIT_STATUS` (R487): Command 0x0904 returns the unit status registers. -/
  | unitStatus (ch : Chan) (h : Hdr) (p : List Byte)
  /-- `FAULT_ACK` (R410): Command 0x0A01 clears PEND of the classes in its mask. -/
  | faultAck (ch : Chan) (h : Hdr) (p : List Byte)
  /-- `FAULT_HISTORY` (R489): Command 0x0A02 returns half of the fault history and can lift the freeze. -/
  | faultHistory (ch : Chan) (h : Hdr) (p : List Byte)
  /-- `FAULT_INJECT` (R488): Command 0x0A03 forces a report or path failure at a collector source and returns the outcome. -/
  | faultInject (ch : Chan) (h : Hdr) (p : List Byte)
  /-- `FAULT_STATUS` (R488): Command 0x0A04 returns the fault collector status registers. -/
  | faultStatus (ch : Chan) (h : Hdr) (p : List Byte)
  /-- `EV_READ` (R490): Command 0x0B01 returns up to 15 event records from a sequence number as one snapshot. -/
  | evRead (ch : Chan) (h : Hdr) (p : List Byte)
  /-- `EV_STATUS` (R490): Command 0x0B02 returns the first and last sequence numbers, full flag and suppressed count. -/
  | evStatus (ch : Chan) (h : Hdr) (p : List Byte)
  /-- `EV_CLEAR` (R503): Command 0x0B03 clears the event recorder in Maintenance mode. -/
  | evClear (ch : Chan) (h : Hdr) (p : List Byte)
  /-- `UP_MANIFEST` (R510): Command 0x0C01 checks an update manifest and resumes or starts a new chunk bitmap. -/
  | upManifest (ch : Chan) (h : Hdr) (p : List Byte)
  /-- `UP_CHUNK` (R513): Command 0x0C02 appends a piece to a chunk of the update package. -/
  | upChunk (ch : Chan) (h : Hdr) (p : List Byte)
  /-- `UP_STATUS` (R491): Command 0x0C03 returns update phase, chunk counts and bank state. -/
  | upStatus (ch : Chan) (h : Hdr) (p : List Byte)
  /-- `UP_ACTIVATE` (R520): Command 0x0C04 switches the active bank to the built bank on trial and resets the module. -/
  | upActivate (ch : Chan) (h : Hdr) (p : List Byte)
  /-- `UP_ABANDON` (R518): Command 0x0C05 discards the manifest, bitmap and chunks and stops any build. -/
  | upAbandon (ch : Chan) (h : Hdr) (p : List Byte)
  /-- `TEST_REGREAD` (R492): Command 0x0D01 reads a range of module-space registers. -/
  | testRegread (ch : Chan) (h : Hdr) (p : List Byte)
  /-- `TEST_LOOP` (R527): Command 0x0D02 runs a loopback test on a port at a given depth. -/
  | testLoop (ch : Chan) (h : Hdr) (p : List Byte)
  /-- `TEST_PROD` (R536): Command 0x0D03 enters production test in life cycle Blank. -/
  | testProd (ch : Chan) (h : Hdr) (p : List Byte)
  /-- `LC_CHANGE` (R433): Command 0x0E01 moves the module to another life-cycle state with its wipes and reset. -/
  | lcChange (ch : Chan) (h : Hdr) (p : List Byte)
  /-- `LC_DEBUGTOKEN` (R493): Command 0x0E02 installs a signed debug token. -/
  | lcDebugtoken (ch : Chan) (h : Hdr) (p : List Byte)
  /-- `UNKNOWN_COMMAND` (R7): A doorbell with a command code the firmware does not implement is answered BAD_CODE with no side effect. -/
  | unknownCommand (ch : Chan) (code : BitVec 16) (h : Hdr) (p : List Byte)
  /-- `COMMAND_WINDOW_CLOSE` (R69): The command window of a lane command closes, excluding late lanes and deciding the command vote. -/
  | commandWindowClose (k : StreamKind) (t : Task)
  /-- `CHANNEL_RESET` (R459): A write of CHRST or a CHRST record resets a mailbox conversation on channels 4 to 6. -/
  | channelReset (ch : Chan)
  /-- `EVENT_RELEASE` (R453): A client write of MB_EVTAIL releases event-queue entries. -/
  | eventRelease (ch : Chan) (tail : Fin 32)
  /-- `SESSION_CONNECT` (R454): A TCP connection to the service port is taken as the session or closed if one is held. -/
  | sessionConnect (via : SvcVia)
  /-- `HELLO` (R455): A client HELLO record is answered with CHALLENGE or closes the session. -/
  | hello (ctr : Nat) (nc : List Byte) (cred : Byte)
  /-- `PROOF` (R457): A client PROOF record authenticates the session and is answered with ACCEPT, or closes the session. -/
  | proof (ctr : Nat) (mac : List Byte)
  /-- `COMMAND_RECORD` (R455): A COMMAND record writes the service channel command buffer and rings its doorbell. -/
  | commandRecord (rec : SvcRecord)
  /-- `CLOSE_RECORD` (R455): A CLOSE record ends the session and resets channel 4. -/
  | closeRecord (ctr : Nat) (atag : List Byte)
  /-- `AUTHENTICATION_TIMEOUT` (R454): A connection that has not authenticated within 5 s is closed. -/
  | authenticationTimeout
  /-- `SESSION_IDLE_TIMEOUT` (R457): An authenticated session that carries no record for 60 s is closed. -/
  | sessionIdleTimeout
  /-- `HELLO_REFUSAL_END` (R457): The HELLO refusal period after failed proofs ends. -/
  | helloRefusalEnd
  /-- `SUBMIT` (R46): A VX_SUBMIT write sends the task's delta and digest to the fabric, which compares it and may decide the vote. -/
  | submit (l : Lane) (t : Task) (work : List CoreOp)
  /-- `ABANDON` (R100): A VX_SUBMIT write with ABANDON ends the task's cycle on the lane without a submission. -/
  | abandon (l : Lane) (t : Task) (work : List CoreOp)
  /-- `VOTE_WINDOW_CLOSE` (R55): The vote window of a cycle closes, making lanes without a submission late and deciding the vote if open. -/
  | voteWindowClose (t : Task)
  /-- `SAMPLE` (R100): At a task's sample time the owning dies sample inputs and the Keeper checks for an overrun and sends the image. -/
  | sample (t : Task)
  /-- `COLLECTION_CLOSE` (R97): Collection closes for a cycle; stations without valid inputs are absent and Safe Channel connections are checked. -/
  | collectionClose (t : Task)
  /-- `SAFE_WATCHDOG_EXPIRY` (R290): A receive connection's watchdog expires and it fails with CAUSE 0x6 and fail-safe values. -/
  | safeWatchdogExpiry (c : Fin 128)
  /-- `IMAGE_COMPLETE` (R97): The last source of a cycle arrives and the consolidated image completes. -/
  | imageComplete (t : Task)
  /-- `IMAGE_DELIVERY` (R45): The fabric delivers a task's next image to a lane once that lane has submitted or abandoned the previous cycle. -/
  | imageDelivery (l : Lane) (t : Task) (work : List CoreOp)
  /-- `CYCLE_START` (R98): A lane's shadow compare reaches a task's cycle start and Execute begins if the image is complete. -/
  | cycleStart (l : Lane) (t : Task)
  /-- `VOTE_OUTCOME` (R137): A lane receives the outcome of a vote, which may pass, commit or roll back its open context. -/
  | voteOutcome (l : Lane) (t : Task) (work : List CoreOp)
  /-- `SPECULATIVE_COMMIT_DONE` (R139): The write log of a committing context has been written to memory and the context continues non-speculatively. -/
  | speculativeCommitDone (l : Lane) (t : Task)
  /-- `ROLLBACK_DONE` (R140): A rolling-back context has been discarded and the rollback interrupt raised. -/
  | rollbackDone (l : Lane) (t : Task)
  /-- `RA_DISABLE` (R147): A write of RA_CTRL.EN 0 discards every open speculation context. -/
  | raDisable (l : Lane)
  /-- `RA_INHIBIT` (R145): A write of RA_CTRL.INHIBIT stops new speculation contexts from opening. -/
  | raInhibit (l : Lane)
  /-- `PAIR_CONTEXT_WRITE` (R132): A runtime write of RA_PAIRCTXp names the task running on a pair. -/
  | pairContextWrite (l : Lane) (p : Pair) (v : Word) (work : List CoreOp)
  /-- `OUTPUT_APPLY` (R40): An owning die's shadow counter reaches a pending commit time and the die applies that part. -/
  | outputApply (q : ApplyQ)
  /-- `QUEUED_COMMIT_RELEASE` (R40): The Keeper sends a held ninth commit time once the die reports its earliest pending time applied. -/
  | queuedCommitRelease (q : ApplyQ)
  /-- `STOP_IMAGE_COMMIT` (R117): At each grid point of a stopped or held application the Keeper commits the stop image. -/
  | stopImageCommit (t : Task)
  /-- `LANE_INIT_COMPLETE` (R95): A lane reports its application initialisation complete. -/
  | laneInitComplete (l : Lane)
  /-- `ANCHOR` (R114): The anchor is reached and the application goes from Starting to Running. -/
  | anchor
  /-- `INIT_TIMEOUT` (R421): Lanes fail to report initialisation within 10 s of a start in Synchronising, raising class 3. -/
  | initTimeout
  /-- `QUIET_GAP` (R65): A quiet gap begins, suspending the background task and serving a waiting final round, change point or park. -/
  | quietGap (len : Nat)
  /-- `PAIR_EXECUTION_POINT` (R82): At the execution point cycle boundary the Keeper triggers PX_CMD in every Voting and Spare lane. -/
  | pairExecutionPoint
  /-- `PX_SPLIT` (R83): A PX_CMD GO write with OP 0 starts the split sequence of a pair. -/
  | pxSplit (l : Lane) (v : Word)
  /-- `PX_JOIN` (R84): A PX_CMD GO write with OP 1 starts the join sequence of a pair. -/
  | pxJoin (l : Lane) (v : Word)
  /-- `SPLIT_COMPLETE` (R83): The split sequence finishes and the pair is Split. -/
  | splitComplete (l : Lane)
  /-- `JOIN_COMPLETE` (R84): The join sequence finishes with the trip test and the pair is Joined. -/
  | joinComplete (l : Lane) (trip synOk railOk : Bool)
  /-- `TASK_DISPATCH` (R85): A PX_DISPn write dispatches a task to a pair, refusing a safety task on a pair not Joined. -/
  | taskDispatch (l : Lane) (p : Pair) (v : Word)
  /-- `COMPARATOR_TEST_DUE` (R87): The Keeper's 1 ms comparator test interval comes due and it forces a bit of an armed pair. -/
  | comparatorTestDue (l : Lane) (p : Pair)
  /-- `FORCED_TEST` (R87): A PX_FORCE GO write inverts one bit on the trailing side at the next compared clock. -/
  | forcedTest (l : Lane) (v : Word)
  /-- `FORCED_TEST_RESULT` (R88): The forced comparator test completes and passes or is a pair fault. -/
  | forcedTestResult (l : Lane) (trip synOk railOk : Bool) (group : Fin 4) (bit : Fin 256)
  /-- `COMPARATOR_MISMATCH` (R78): An armed comparator finds a bit unequal, suppresses requests, halts the pair and reports a pair fault. -/
  | comparatorMismatch (l : Lane) (p : Pair) (group : Fin 4) (bit : Fin 256)
  /-- `RAIL_MISMATCH` (R90): The comparator rails are equal at a clock edge, a pair fault. -/
  | railMismatch (l : Lane) (p : Pair)
  /-- `DELAY_PARITY_ERROR` (R90): A parity error in a delay register or delay line stage is a pair fault. -/
  | delayParityError (l : Lane) (p : Pair) (fromOutputs : Bool) (group : Fin 4) (bit : Fin 256)
  /-- `MMU_FAULT` (R151): A core access not permitted by the MMU raises a synchronous exception and is recorded. -/
  | mmuFault (l : Lane) (c : Core) (a : Nat) (acc : AccessKind) (sup : Bool) (size : Nat)
  /-- `UNCORRECTABLE_MEMORY_ERROR` (R153): A detected uncorrectable memory error excludes the lane with cause 0xB. -/
  | uncorrectableMemoryError (l : Lane) (m : MemKind)
  /-- `SCRUB_PASS` (R154): The lane scrubs its memories, correcting errors and noting a high correction rate. -/
  | scrubPass (l : Lane) (dram l2 tcm : Nat) (bad : Option MemKind)
  /-- `RETAINED_STORE` (R156): A lane posts a retained store to the Keeper for voting. -/
  | retainedStore (l : Lane) (st : RetStream) (a : Nat) (mask : BitVec 8) (v : BitVec 64)
  /-- `RETAINED_APPLY` (R156): The Keeper writes a cycle's voted retained stores to MRAM as one journalled transaction once every lane has submitted. -/
  | retainedApply (st : RetStream)
  /-- `TCM_STARVATION` (R160): A DMA request waits beyond the bank's threshold, counting a starvation event. -/
  | tcmStarvation (l : Lane) (b : Fin 8) (clks : Nat)
  /-- `DMA_START` (R163): A DM_CMDn START write checks the first bytes and starts or refuses the channel. -/
  | dmaStart (l : Lane) (n : Fin 16)
  /-- `DMA_RESUME` (R165): A DM_CMDn RESUME write continues a suspended channel at the faulting byte. -/
  | dmaResume (l : Lane) (n : Fin 16)
  /-- `DMA_ABORT` (R165): A DM_CMDn ABORT write aborts a running or suspended channel. -/
  | dmaAbort (l : Lane) (n : Fin 16)
  /-- `DMA_FAULT` (R164): A byte faults during a transfer and the channel suspends and interrupts its pair. -/
  | dmaFault (l : Lane) (n : Fin 16) (moved : Nat) (side : DmaSide) (target : Bool)
  /-- `DMA_DESCRIPTOR_DONE` (R165): A channel writes the last byte of a descriptor and goes Idle or loads the next descriptor. -/
  | dmaDescriptorDone (l : Lane) (n : Fin 16)
  /-- `WINDOW_PORT_B_ACCESS` (R171): An access to port B of the exchange window, with automatic retries on BUSY. -/
  | windowPortBAccess (off : Nat) (wr : Option Word) (clk : Nat)
  /-- `RETENTION_LOST` (R173): A lane's retention rail dips below 0.55 V for 1 µs in Parked, marking its contents lost. -/
  | retentionLost (l : Lane)
  /-- `LOGICAL_WIPE_DONE` (R174): The logical wipe of a lane completes and the lane can be used. -/
  | logicalWipeDone (l : Lane)
  /-- `PHYSICAL_WIPE_DONE` (R174): The background physical wipe of lane DRAM completes. -/
  | physicalWipeDone (l : Lane)
  /-- `SD_ENABLE` (R51): A write of SD_CTRL.EN 1 checks the digest windows and starts the scan. -/
  | sdEnable (l : Lane) (v : Word)
  /-- `DIGEST_SCAN_DONE` (R52): The digest scan of every window completes and stalled stores resume. -/
  | digestScanDone (l : Lane)
  /-- `SPARE_ENABLE` (R68): A write of VX_CTRL.SPAREEN 1 brings the Absent lane D through resynchronisation to Spare. -/
  | spareEnable
  /-- `SPARE_DISABLE` (R68): A write of VX_CTRL.SPAREEN 0 takes the spare lane to Absent. -/
  | spareDisable
  /-- `SPARE_PROMOTION` (R67): At the cycle boundary after a Voting lane's exclusion the spare becomes Voting. -/
  | sparePromotion
  /-- `LANE_RESET_COMPLETE` (R63): A Resetting lane's reset and wipe complete and it enters Preparing. -/
  | laneResetComplete (l : Lane)
  /-- `LANE_SELF_TEST_END` (R63): A Preparing lane's self-test ends, taking it to Copying, Voting or Out. -/
  | laneSelfTestEnd (l : Lane) (pass : Bool)
  /-- `COPY_ROUND_COMPLETE` (R64): A resynchronisation copy round completes and the next round starts. -/
  | copyRoundComplete (dirtied : Nat)
  /-- `RESYNC_COMPLETE` (R63): At a cycle boundary after a successful final round the lane becomes Voting or Spare. -/
  | resyncComplete (l : Lane)
  /-- `RESYNC_TIMEOUT` (R63): A resynchronisation attempt exceeds 2 s and the lane returns to Resetting. -/
  | resyncTimeout (l : Lane)
  /-- `LINK_PACKET_RECEIVE` (R21): A die link packet arrives and is accepted or discarded with a replay request. -/
  | linkPacketReceive (k : DieLink) (seq : Nat) (body : List Byte) (crc : Word)
  /-- `LINK_FAILURE` (R22): A die link fails by replays, lost training or comparator mismatch and raises its fault. -/
  | linkFailure (k : DieLink) (c : LinkCause)
  /-- `SHADOW_PULSE` (R27): A time-distribution pulse with its time word loads and trims a die's shadow counter. -/
  | shadowPulse (d : DieId) (word : BitVec 64)
  /-- `SHADOW_PULSE_MISSING` (R29): A missing pulse puts the shadow counter in holdover and eight missing fail it. -/
  | shadowPulseMissing (d : DieId)
  /-- `TIME_TICK_WRAP` (R182): TU_NS carries out of bit 31 and a new era begins. -/
  | timeTickWrap
  /-- `INCREMENT_WRITE` (R180): A write of TU_INC_I takes the staged increment into use from the next tick. -/
  | incrementWrite (v : Word)
  /-- `ERANEXT_WRITE` (R182): A write of TU_ERANEXT arms the era for the next wrap. -/
  | eranextWrite (v : Word)
  /-- `TIME_STEP` (R187): A write of TU_STEP steps TU_NS at the next tick and flags the next two time words. -/
  | timeStep (v : Word)
  /-- `TIME_SNAPSHOT` (R183): A TU_SNAP GO write latches TU_NS, era and fraction together. -/
  | timeSnapshot
  /-- `INCREMENT_STALE` (R186): TU_INC_I unwritten for 2 ms sets INCSTALE with a notice. -/
  | incrementStale
  /-- `SERVO_RUN` (R186): Once per macrocycle the Keeper computes offset and rate and writes the increment or a step. -/
  | servoRun
  /-- `RTC_UPDATE` (R33): The Keeper writes the RTC from global time on first synchronisation and every 600 s. -/
  | rtcUpdate
  /-- `CAPTURE_EVENT` (R193): A capture source event overwrites the channel's time and counts. -/
  | captureEvent (n : Fin 16) (stamp : Nat)
  /-- `CAPTURE_ENABLE` (R193): A 0-to-1 write of TU_CAPCFGn.EN clears the capture record. -/
  | captureEnable (n : Fin 16) (v : Word)
  /-- `TRIGGER_ARM` (R198): A Keeper write of TU_TRGn arms a trigger channel. -/
  | triggerArm (n : Fin 16) (v : Word)
  /-- `APP_TRIGGER_ARRIVAL` (R198): An application trigger-time word reaches the network die and arms, fires late or is rejected. -/
  | appTriggerArrival (n : Fin 16) (word : BitVec 64)
  /-- `TRIGGER_FIRE` (R197): TU_NS reaches a channel's armed time and the channel acts on its target. -/
  | triggerFire (n : Fin 16)
  /-- `BASIC_CYCLE_START` (R210): A basic cycle begins: nodes sample and the rank-0 master sends its Mark. -/
  | basicCycleStart (r : Ring)
  /-- `STAND_IN_MARK` (R216): At t0 + 2,400 ns without an accepted Mark a master-capable node sends a stand-in Mark. -/
  | standInMark (r : Ring)
  /-- `MACROCYCLE_BOUNDARY` (R237): At the macrocycle end nodes average deviations, masters update closure and joins and unfolds take effect. -/
  | macrocycleBoundary (r : Ring)
  /-- `MARK_RECEIVE` (R214): A Mark arrives on the ring and is accepted or rejected, setting the node's reference and closure. -/
  | markReceive (r : Ring) (port : RPort) (frame : List Byte) (stamp : Nat)
  /-- `POLL_RECEIVE` (R221): A responder accepts a poll and applies or holds its output records. -/
  | pollReceive (r : Ring) (port : RPort) (frame : List Byte) (stamp : Nat)
  /-- `REPLY_RECEIVE` (R223): A reply frame arrives, delivering station inputs, sync deviations and any Light, Watch or health record. -/
  | replyReceive (r : Ring) (port : RPort) (frame : List Byte) (stamp : Nat)
  /-- `REFERENCE_MESSAGE_RECEIVE` (R243): A compatibility-mode reference message is received, forwarded with PATH updated and used for time. -/
  | referenceMessageReceive (r : Ring) (port : RPort) (frame : List Byte) (stamp : Nat)
  /-- `SLOT_TRANSMIT` (R219): At a schedule entry's slot the node sends its poll, reply or reference frame through the guardian. -/
  | slotTransmit (r : Ring) (e : Fin 4096) (dev : Int)
  /-- `WATCH_VERDICT` (R385): At its WATCH slot the witness decides and sends the unit's verdict. -/
  | watchVerdict (w : Fin 4)
  /-- `DELAY_PROBE` (R231): A ring port measures its segment delay with an idle probe. -/
  | delayProbe (r : Ring) (port : RPort) (result : Option Nat)
  /-- `POSITION_WORD_RECEIVE` (R232): A node receives a position word and forwards its own. -/
  | positionWordReceive (r : Ring) (port : RPort) (word : Option Nat)
  /-- `RING_ENABLE` (R227): A write of BZ_CTRL.EN 1 checks the schedule and starts joining in Listening. -/
  | ringEnable (r : Ring)
  /-- `RING_DISABLE` (R229): A write of BZ_CTRL.EN 0 stops transmission while forwarding continues. -/
  | ringDisable (r : Ring)
  /-- `LISTEN_SILENCE_EXPIRY` (R247): A master-capable listener's silence ends and it cold-starts. -/
  | listenSilenceExpiry (r : Ring)
  /-- `MARKS_LOST` (R251): Eight basic cycles without an accepted Mark return the node to Listening. -/
  | marksLost (r : Ring)
  /-- `RING_BREAK` (R256): A port detects loss of signal or idle and the node folds and sends fold notices. -/
  | ringBreak (r : Ring) (port : RPort)
  /-- `FOLD_NOTICE_RECEIVE` (R257): A node receiving a fold or unfold notice takes d from the next Mark and holds its averaging. -/
  | foldNoticeReceive (r : Ring) (port : RPort) (unfold : Bool)
  /-- `UNFOLD_READY` (R262): A broken segment carrying valid idle and probes for 10 ms becomes ready to unfold. -/
  | unfoldReady (r : Ring) (port : RPort)
  /-- `SWITCH_FRAME_RECEIVE` (R265): An Ethernet frame arrives at a switch port and is forwarded, queued or dropped; `rx` is its stamp, `tx` the time from
  which it can leave. -/
  | switchFrameReceive (port : EPort) (f : EthFrame) (rx : Nat) (tx : Nat)
  /-- `ADDRESS_AGEING` (R265): An address table entry ages out after 300 s. -/
  | addressAgeing (vlan : Nat) (mac : Nat)
  /-- `PTP_MESSAGE_RECEIVE` (R268): A PTP message with its time-stamp reaches the Keeper's PTP engine. -/
  | ptpMessageReceive (port : Fin 4) (m : PtpMsg)
  /-- `PTP_TRANSMIT` (R267): The PTP engine sends its periodic Sync, Announce or delay messages; `stamp` is the time from
  which one can leave. -/
  | ptpTransmit (port : Fin 4) (k : PtpKind) (stamp : Nat)
  /-- `PTP_REFERENCE_LOST` (R269): No Sync in three intervals makes the PTP reference lost. -/
  | ptpReferenceLost
  /-- `DATAGRAM_RECEIVE` (R273): A process-data datagram is accepted for a subscription or discarded. -/
  | datagramReceive (datagram : List Byte) (stamp : Nat)
  /-- `PUBLICATION_SEND` (R272): At its commit time the network die queues a publication datagram on its ports. -/
  | publicationSend (p : Fin 64)
  /-- `STO_TEST_PULSE` (R301): An energised STO channel is switched off for its test pulse and its readback checked. -/
  | stoTestPulse (d : Drive) (ch : DrvCh)
  /-- `STO_READBACK_FAULT` (R301): An STO readback disagreeing for 1 ms puts the drive in Torque-off with class 3. -/
  | stoReadbackFault (d : Drive) (ch : DrvCh)
  /-- `CHANNEL_A_REPORT` (R302): The field die reports channel A every 100 µs and the Keeper compares it with channel B. -/
  | channelAReport (d : Drive) (cmdA rbA : Bool)
  /-- `CHANNEL_B_WATCHDOG_EXPIRY` (R299): The 500 µs channel B watchdog expires, de-energising channel B and raising class 4. -/
  | channelBWatchdogExpiry
  /-- `DRIVE_EVALUATION` (R308): Every 100 µs the field die measures speed and checks the SS1 end conditions. -/
  | driveEvaluation (d : Drive) (count : Int)
  /-- `ENCODER_FAULT` (R309): An encoder edge or line fault sets ENCFLT. -/
  | encoderFault (d : Drive)
  /-- `ENCODER_FAULT_CLEAR` (R309): ENCFLT clears after 100 ms of valid lines with the drive off. -/
  | encoderFaultClear (d : Drive)
  /-- `SAFETY_PAIR_EVALUATION` (R311): Every 25 µs a dual-channel pair changes state on its filtered channels. -/
  | safetyPairEvaluation (k : Fin 8)
  /-- `SEAL_READ` (R313): Every 10 ms both readers read the seal switches and the seal state is evaluated. -/
  | sealRead (rd : SealReading)
  /-- `TAMPER_CHECK` (R314): The standby domain checks the tamper loop and latches TAMPER on two open checks. -/
  | tamperCheck (opened : Bool)
  /-- `FILTER_SAMPLE` (R320): Every 25 µs the field die samples every input into its filter counter and measures FLD+. -/
  | filterSample (raw : BitVec 16) (fld : Nat)
  /-- `RAW_EDGE` (R322): The edge detector stamps a raw input edge. -/
  | rawEdge (n : Fin 16) (level : Bool) (stamp : Nat)
  /-- `SUPPLY_NORMAL` (R335): FLD+ at 19.2 V for 100 ms or 10 ms takes the output bank to Normal. -/
  | supplyNormal
  /-- `SUPPLY_LATCH` (R335): FLD+ below 16.8 V at 401 samples latches the bank off and removes torque. -/
  | supplyLatch
  /-- `DI_TOP_WRITE` (R324): A write of a filter TOP sets the counter to its filtered limit. -/
  | diTopWrite (n : Fin 16) (v : Word)
  /-- `COMMIT_MESSAGE` (R332): A commit message reaches the field die, restarting its silence timer and ending the silence state. -/
  | commitMessage
  /-- `SILENCE_EXPIRY` (R333): The field silence timer expires and every output goes to its safe state. -/
  | silenceExpiry
  /-- `THERMAL_SHUTDOWN` (R328): An HSO junction above 170 °C switches the channel off, latching after the tenth retry. -/
  | thermalShutdown (n : Fin 12)
  /-- `THERMAL_RETRY` (R328): After 100 ms off a still-commanded channel switches on again. -/
  | thermalRetry (c : OutCh)
  /-- `RETRY_COUNT_RESET` (R328): A channel running 1 s without shutdown resets its retry count. -/
  | retryCountReset (c : OutCh)
  /-- `HSO_OVERLOAD` (R329): An HSO in current limit for 50 µs sets OVL. -/
  | hsoOverload (n : Fin 12)
  /-- `HSO_OPEN_LOAD` (R329): An open load persisting 10 ms sets or clears OPEN. -/
  | hsoOpenLoad (n : Fin 12) (present : Bool)
  /-- `HSO_SHORT_TO_SUPPLY` (R329): An off HSO reading above 18 V for 10 ms sets or clears SHORTP. -/
  | hsoShortToSupply (n : Fin 12) (present : Bool)
  /-- `FPP_OVERLOAD` (R330): An FPP in current limit for 1 ms goes to high impedance and sets OVL. -/
  | fppOverload (n : Fin 4)
  /-- `FPP_EDGE_CHECK` (R330): 1 µs after each FPP edge the level is compared and a difference sets MISM. -/
  | fppEdgeCheck (n : Fin 4) (level : Bool)
  /-- `ANALOGUE_CONVERSION` (R351): A channel converts continuously every 25 µs or at a trigger firing. -/
  | analogueConversion (n : Fin 6) (value : Int) (stamp : Nat)
  /-- `LOOP_DIAGNOSTIC_MEASUREMENT` (R349): Every 100 µs the field die measures each current output and updates loop flags. -/
  | loopDiagnosticMeasurement (n : Fin 6) (m : LoopMeas)
  /-- `JUMPER_READ` (R348): Every 100 ms the field die reads the alarm jumpers and sets the effective alarm. -/
  | jumperRead (lo hi : BitVec 6)
  /-- `FOLD_BACK` (R347): An output stage above 150 °C reduces its current and sets THERM. -/
  | foldBack (n : Fin 6) (on : Bool)
  /-- `SHUNT_OVERCURRENT` (R352): A current input above 30 mA for 1 ms disconnects its shunt. -/
  | shuntOvercurrent (n : Fin 6)
  /-- `SHUNT_RECONNECT` (R352): After 100 ms the shunt reconnects. -/
  | shuntReconnect (n : Fin 6)
  /-- `MODE_SETTLE_END` (R341): A channel's 5 ms of settling after a MODE change ends. -/
  | modeSettleEnd (n : Fin 6)
  /-- `ENUMERATION` (R358): In Boot the bridge reads each slot's header and the Keeper enables matching windows. -/
  | enumeration (cards : List CardHeader)
  /-- `RACK_ACCESS` (R362): A lane posts a rack-bus access, which the Keeper votes and the bridge performs once. -/
  | rackAccess (l : Lane) (t : Task) (acc : RackReq)
  /-- `READ_COMPLETION` (R361): A card's read completion arrives and is delivered, held or discarded. -/
  | readCompletion (tag : Fin 32) (code : Nat) (data : List Word)
  /-- `READ_TIMEOUT` (R361): A read's completion has not begun within RDTMO and its tag is quarantined. -/
  | readTimeout (tag : Fin 32)
  /-- `DISCARD_TIMER_EXPIRY` (R361): A quarantine or an uncollected completion reaches DISCARD and the tag is freed. -/
  | discardTimerExpiry (tag : Fin 32)
  /-- `ERROR_MESSAGE` (R368): A card's error message is matched against the posted-write history and reported. -/
  | errorMessage (slot : Fin 16) (tag : Fin 32) (code : Fin 8) (a : Nat)
  /-- `PREFETCH_EXPIRY` (R366): A prefetch buffer reaches 20 µs of age and is invalidated. -/
  | prefetchExpiry (b : Fin 8)
  /-- `WINDOW_READ` (R370): A card's window read on port A completes with ACK# or BUSY#. -/
  | windowRead (a : Nat) (clk : Nat)
  /-- `WINDOW_WRITE` (R370): A card's window write on port A completes with ACK# or BUSY#. -/
  | windowWrite (a : Nat) (v : Word) (be : BitVec 4) (clk : Nat)
  /-- `LSB_CYCLE` (R373): An LSB cycle begins and the module polls each valid station in address order. -/
  | lsbCycle
  /-- `LSB_RESPONSE` (R372): A station response on a line is checked and accepted or counted in error. -/
  | lsbResponse (line : SerialLine) (body : List Byte) (parityOk : Bool)
  /-- `FORWARDED_IMAGE_RECEIVE` (R381): A partner receives a forwarded image over a pair link. -/
  | forwardedImageReceive (k : PairLink) (img : FwdImage)
  /-- `FORWARD_DEADLINE` (R381): A forwarded image missing at XOFF + Tfwd makes the partner deliver its own image. -/
  | forwardDeadline (t : Task)
  /-- `PAIR_LINK_LOST` (R383): A pair link without an intact frame for 100 µs is lost. -/
  | pairLinkLost (k : PairLink)
  /-- `PAIR_LINK_REGAINED` (R383): A pair link with 10 ms of intact frames is regained. -/
  | pairLinkRegained (k : PairLink)
  /-- `LEASE_END` (R386): The holder reaches its lease end without backing, gates and leaves Active. -/
  | leaseEnd
  /-- `ACT_TIME` (R387): A module granted the Light reaches its act time, ungates and takes rank 0. -/
  | actTime
  /-- `WATCH_LOSS` (R393): A Hot-Standby module without a Watch record for 50 basic cycles enters Isolated. -/
  | watchLoss
  /-- `UNIT_RESYNC_COMPLETE` (R396): A returning module's digests equal the holder's and it sets CHECKS[6]. -/
  | unitResyncComplete
  /-- `FAULT_REPORT` (R409): The collector latches a source's report, classifies or escalates it and starts the reaction. -/
  | faultReport (src : Src) (cls : Fin 5) (code : BitVec 16) (data : List Byte)
  /-- `REPORT_FETCH_TIMEOUT` (R406): A report word not fetched within 2 µs is taken at the source's highest class with code 0xFFFF. -/
  | reportFetchTimeout (src : Src)
  /-- `PATH_FAILURE` (R407): A report pair equal for more than 2 clocks is a path failure and raises class 2. -/
  | pathFailure (src : Src)
  /-- `PATH_POLL` (R407): Every 100 µs the Keeper reads the report word of a source with a failed path. -/
  | pathPoll (src : Src) (word : Option RepWord)
  /-- `FORCE_REPORT` (R413): A FC_FORCEs GO write with PATH 0 raises a forced report through the real path. -/
  | forceReport (src : Src) (v : Word)
  /-- `FORCE_PATH_FAILURE` (R413): A FC_FORCEs GO write with PATH 1 drives the pair equal for 4 clocks. -/
  | forcePathFailure (src : Src) (v : Word)
  /-- `POWER_ON` (R424): A supply input at 0.7 Un for 10 ms resets the module into Boot. -/
  | powerOn
  /-- `POWER_FAIL_WARNING` (R425): With both inputs low and the store at its reserve the module gates, stores and goes Dormant. -/
  | powerFailWarning
  /-- `RST_ASSERTED` (R542): RST# low at 10 consecutive samples resets the module. -/
  | rstAsserted
  /-- `BOOT_VERIFIED` (R521): The boot ROM chooses and verifies a bank and the module enters Self-Test or Safe-Halt. -/
  | bootVerified (okA okB rtcOk : Bool)
  /-- `SELF_TEST_END` (R420): Self-Test ends and the module goes to Isolated, Synchronising or Commissioning. -/
  | selfTestEnd (res : SelfTest)
  /-- `READY` (R421): A Synchronising module becomes ready and starts the application toward Active, Hot-Standby or Isolated. -/
  | ready
  /-- `SYNCHRONISING_LONG` (R421): A module 60 s in Synchronising records a notice. -/
  | synchronisingLong
  /-- `WAKE_TRIGGER` (R429): A wake input transition or RTC alarm starts the wake from Parked. -/
  | wakeTrigger (w : WakeSrc)
  /-- `LANE_WAKE_COMPLETE` (R172): A lane is running again after retention and the next lane starts to wake. -/
  | laneWakeComplete (l : Lane)
  /-- `RESUME_POINT` (R429): At the resume point the held application becomes Running. -/
  | resumePoint
  /-- `HALT_LATCH_CLEAR` (R416): Both supplies absent for 1 s clears the Halt latch. -/
  | haltLatchClear
  /-- `SUPPLY_BELOW_RANGE` (R544): A fitted input below range for 1 ms raises its notice. -/
  | supplyBelowRange (inp : SupplyIn)
  /-- `SUPPLY_OVERVOLTAGE` (R544): An input above 1.25 Un for 1 s, or above 1.4 Un, is disconnected. -/
  | supplyOvervoltage (inp : SupplyIn)
  /-- `SUPPLY_RECONNECT` (R544): A disconnected input is reconnected after 100 ms at or below 1.2 Un. -/
  | supplyReconnect (inp : SupplyIn)
  /-- `OPERATING_TIME_STORE` (R496): Every 10 s the Keeper stores the operating time in MRAM. -/
  | operatingTimeStore
  /-- `STAGING_DRAIN` (R499): Staged records move to flash in sequence order. -/
  | stagingDrain (n : Nat)
  /-- `BUILD_COMPLETE` (R517): The inactive bank build ends and is verified as Ready or Failed. -/
  | buildComplete
  /-- `TRIAL_TIMEOUT` (R522): No commit within 600 s of a trial boot leads to fallback. -/
  | trialTimeout
  /-- `TAP_MISMATCH` (R530): A background loopback tap finds the transmitted stream differs from what was sent. -/
  | tapMismatch (port : Fin 256) (depth1 : Bool)
  /-- `REGISTER_WRITE` (R12): A write to a register without a row of its own sets fields by their access codes, rejecting RWM and illegal writes. -/
  | registerWrite (by_ : Initiator) (a : BitVec 40) (v : Word) (size : Nat)
  /-- `LSB_RESPONSE_TIMEOUT` (R374): A polled LSB station has not begun its response on a line within 60 bit times after the request, so the response counts as missing on that line and may fail the line or count in RB_LSNORESP. -/
  | lsbResponseTimeout (line : SerialLine)
  /-- `STANDBY_DOMAIN_POWER_LOSS` (R554): With both supply inputs absent, the backup cell is removed or runs flat and the standby domain loses all power, stopping the RTC and losing the Halt latch and setting the tamper state for the next power-up. -/
  | standbyDomainPowerLoss
  /-- `ETH_LINK_CHANGE` (R277): An ETH or SVC port's PHY gains or loses its link, changing EN_PORTn.LINK and SPEED, time-stamping and whether the port is in service for loopback tests. -/
  | ethLinkChange (port : EPort) (speed : LinkSpeed)
  /-- `TAP_INSTRUCTION_LOAD` (R534): An instruction is shifted into a die's IEEE 1149.1 instruction register over DBG and takes effect, or is replaced by BYPASS when it is not available. -/
  | tapInstructionLoad (d : DieTap) (code : Nat)
  /-- `DEBUG_HALT_REQUEST` (R535): A debug halt request through the debug access port halts a lane core's pair, so the lane submits late and is excluded with cause 0x4. -/
  | debugHaltRequest (l : Lane) (c : Core)
  /-- `PROBE_PRESENT_CHANGE` (R538): A debug probe is fitted or removed, so PRB# changes and the module releases or high-impedances TDO and the trace lines and holds TCK, TMS, TDI and TRST# low. -/
  | probePresentChange (present : Bool)
  /-- `PAIR_LINK_HEALTH_RECORD` (R394): A partner's health record arrives over PLK1 or PLK2 and updates UN_PHEALTH and the partner's eligibility as this module sees it. -/
  | pairLinkHealthRecord (k : PairLink) (body : List Byte)
  deriving DecidableEq, Repr

end Sys2Proof
end

