-- ==== Sys2Proof/Decode.lean ====
section
/-! DEFINITION. The decoder of the table's words. The table gives no row a bit (its rows are operations and events with
no encoding of their own), so no word spells a command. -/

namespace Sys2Proof

/-- The command that a word spells: none, the table gives no row bits. [DESIGN CHOICE: log 103] -/
def decodeTableWord (_nbits _w : Nat) : Option Instr := none

end Sys2Proof
end

