-- ==== Sys2Proof/Machine/Tab.lean ====
section
/-! DEFINITION. Sparse tables: a list of (key, value) pairs in one canonical form. The keys rise strictly, and no
listed value equals what an unlisted key reads as. Equal tables are therefore equal lists. -/

namespace Sys2Proof.Machine

/-- A sparse table keyed by a natural number. -/
abbrev Tab (α : Type) := List (Nat × α)

/-- What key `k` holds, `d k` when it is not listed. -/
def tabGet {α : Type} (d : Nat → α) : Tab α → Nat → α
  | [], k => d k
  | (j, x) :: t, k => if j = k then x else tabGet d t k

/-- The table with key `k` removed. -/
def tabDel {α : Type} : Tab α → Nat → Tab α
  | [], _ => []
  | (j, x) :: t, k => if j = k then tabDel t k else (j, x) :: tabDel t k

/-- The table with `v` listed at key `k`, in its place by rising key. -/
def tabIns {α : Type} : Tab α → Nat → α → Tab α
  | [], k, v => [(k, v)]
  | (j, x) :: t, k, v =>
    if k < j then (k, v) :: (j, x) :: t
    else if j = k then (k, v) :: t
    else (j, x) :: tabIns t k v

/-- The table after key `k` takes the value `v`. Writing what an unlisted key reads as removes the entry. -/
def tabSet {α : Type} [DecidableEq α] (d : Nat → α) (t : Tab α) (k : Nat) (v : α) : Tab α :=
  if v = d k then tabDel t k else tabIns t k v

/-- The keys rise strictly, from above `lo`. -/
def tabSorted {α : Type} : Nat → Tab α → Bool
  | _, [] => true
  | lo, (j, _) :: t => decide (lo ≤ j) && tabSorted (j + 1) t

/-- The canonical form: rising keys, no entry equal to what an unlisted key reads as. -/
def tabWf {α : Type} [DecidableEq α] (d : Nat → α) (t : Tab α) : Bool :=
  tabSorted 0 t && t.all (fun e => decide (e.2 ≠ d e.1))

/-- An element put in its place before the first that follows it. -/
def insBy {α : Type} (le : α → α → Bool) (x : α) : List α → List α
  | [] => [x]
  | y :: ys => if le x y then x :: y :: ys else y :: insBy le x ys

/-- A list in rising order; equal elements keep their order. -/
def sortBy {α : Type} (le : α → α → Bool) : List α → List α
  | [] => []
  | x :: xs => insBy le x (sortBy le xs)

/-- What a byte that nothing has written reads as: a wiped memory reads 0 (R174, R175). [DESIGN CHOICE: log 7] -/
def byte0 (_ : Nat) : Byte := 0

/-- A byte memory: `Host.Cell`s in the canonical form. -/
abbrev Mem := Tab Byte

/-- The canonical form of a byte memory. -/
def Memory.wf (m : Mem) : Bool := tabWf byte0 m

/-- One byte of a memory. [DESIGN CHOICE: log 7] -/
def Mem.rd (m : Mem) (a : Nat) : Byte := tabGet byte0 m a

/-- One byte written. -/
def Mem.wr (m : Mem) (a : Nat) (b : Byte) : Mem := tabSet byte0 m a b

/-- `n` bytes from address `a`, lowest address first. -/
def Mem.rdN (m : Mem) (a : Nat) : Nat → List Byte
  | 0 => []
  | n + 1 => Mem.rd m a :: Mem.rdN m (a + 1) n

/-- Bytes written from address `a` upwards. -/
def Mem.wrL (m : Mem) (a : Nat) : List Byte → Mem
  | [] => m
  | b :: bs => Mem.wrL (Mem.wr m a b) (a + 1) bs

/-- Every byte of `[lo, hi)` reads 0 after it: the wipe of a range. -/
def Mem.wipe (m : Mem) (lo hi : Nat) : Mem := m.filter (fun e => decide (e.1 < lo) || decide (hi ≤ e.1))

/-- A little-endian number (registers, mailboxes and event records: R10). -/
def leNat : List Byte → Nat
  | [] => 0
  | b :: bs => b.toNat + 256 * leNat bs

/-- A big-endian number (ring frames and Safe Channel PDUs: R10). -/
def beNat (bs : List Byte) : Nat := leNat bs.reverse

/-- `n` little-endian bytes of a number. -/
def leBytes : Nat → Nat → List Byte
  | 0, _ => []
  | n + 1, v => BitVec.ofNat 8 v :: leBytes n (v / 256)

/-- `n` big-endian bytes of a number. -/
def beBytes (n v : Nat) : List Byte := (leBytes n v).reverse

end Sys2Proof.Machine
end

