-- ==== Sys2Proof/Machine/RegMap.lean ====
section
/-! DEFINITION. The register map: every register family of every block, its place in the block, and each field's bits,
access code (R12) and reset value (R13). Bits that no field covers are reserved: they read as 0 (R14). A field whose
reset value the hardware loads (`HW` in the spec's tables) is listed with 0 here and loaded at reset by `hwLoad`. -/

namespace Sys2Proof.Machine

/-- The access codes of R12. -/
inductive Acc where
  | ro | rw | wo | w1c | w1s | rwm
  deriving DecidableEq, Repr

/-- One field of a register: its lowest bit, its width, its access code and its reset value. -/
structure RegFld where
  lo : Nat
  w : Nat
  acc : Acc
  reset : Nat
  deriving DecidableEq, Repr

/-- A family of like registers of one block: the first one's offset, the distance between two, how many, their fields. -/
structure RegFam where
  off : Nat
  stride : Nat
  count : Nat
  flds : List RegFld
  deriving DecidableEq, Repr

/-- The `VX_` block: R72 of 02_lanes_and_vote.md. -/
def famsVX : List RegFam := [
  ⟨0x0, 0x0, 1, [⟨0, 8, .rwm, 0xF⟩, ⟨8, 8, .rwm, 0xF⟩, ⟨16, 1, .rwm, 0⟩]⟩, -- VX_CTRL
  ⟨0x4, 0x0, 1, [⟨0, 4, .ro, 0⟩, ⟨4, 4, .ro, 0⟩, ⟨8, 4, .ro, 0⟩, ⟨12, 4, .ro, 0⟩, ⟨16, 3, .ro, 0⟩]⟩, -- VX_LANES
  ⟨0x8, 0x0, 1, [⟨0, 2, .ro, 0⟩, ⟨2, 4, .ro, 0⟩, ⟨6, 4, .ro, 0⟩, ⟨10, 1, .ro, 0⟩, ⟨11, 1, .ro, 0⟩, ⟨16, 15, .ro, 0⟩, ⟨31, 1, .w1c, 0⟩]⟩, -- VX_MINORITY
  ⟨0xC, 0x0, 1, [⟨0, 32, .ro, 0⟩]⟩, -- VX_MINCYC
  ⟨0x10, 0x4, 4, [⟨0, 8, .ro, 0⟩, ⟨8, 8, .ro, 0⟩, ⟨16, 2, .ro, 0⟩]⟩, -- VX_EXCL
  ⟨0x20, 0x0, 1, [⟨0, 32, .ro, 0⟩]⟩, -- VX_VOTES
  ⟨0x24, 0x0, 1, [⟨0, 32, .ro, 0⟩]⟩, -- VX_NOMAJ
  ⟨0x28, 0x0, 1, [⟨0, 2, .ro, 0⟩, ⟨2, 2, .ro, 0⟩, ⟨4, 1, .ro, 0⟩, ⟨8, 8, .ro, 0⟩]⟩, -- VX_RSYNC
  ⟨0x2C, 0x0, 1, [⟨0, 32, .ro, 0⟩]⟩] -- VX_RSYNCLEFT

/-- The `SC_` block: R298 of 11_safe_channel.md. -/
def famsSC : List RegFam := [
  ⟨0x0, 0x0, 1, [⟨0, 1, .rwm, 0⟩]⟩, -- SC_CTRL
  ⟨0x4, 0x0, 1, [⟨0, 8, .ro, 0⟩, ⟨8, 1, .ro, 0⟩]⟩, -- SC_STAT
  ⟨0x100, 0x10, 64, [⟨0, 32, .rwm, 0⟩]⟩, -- SC_TXID
  ⟨0x104, 0x10, 64, [⟨0, 7, .rwm, 0⟩, ⟨7, 1, .rwm, 0⟩, ⟨8, 4, .rwm, 0⟩]⟩, -- SC_TXCFG
  ⟨0x108, 0x10, 64, [⟨0, 32, .ro, 0⟩]⟩, -- SC_TXSEQ
  ⟨0x10C, 0x10, 64, [⟨0, 32, .ro, 0⟩]⟩, -- SC_TXCNT
  ⟨0x1000, 0x20, 128, [⟨0, 32, .rwm, 0⟩]⟩, -- SC_RXID
  ⟨0x1004, 0x20, 128, [⟨0, 7, .rwm, 0⟩, ⟨7, 1, .rwm, 0⟩, ⟨8, 4, .rwm, 0⟩, ⟨12, 1, .rwm, 0⟩, ⟨16, 8, .rwm, 1⟩]⟩, -- SC_RXCFG
  ⟨0x1008, 0x20, 128, [⟨0, 16, .rwm, 1⟩]⟩, -- SC_RXWIN
  ⟨0x100C, 0x20, 128, [⟨0, 20, .rwm, 0⟩]⟩, -- SC_RXAGE
  ⟨0x1010, 0x20, 128, [⟨0, 20, .rwm, 0⟩]⟩, -- SC_RXWDT
  ⟨0x1014, 0x20, 128, [⟨0, 3, .ro, 0⟩, ⟨4, 4, .ro, 0⟩, ⟨8, 8, .ro, 0⟩]⟩, -- SC_RXSTAT
  ⟨0x1018, 0x20, 128, [⟨0, 32, .ro, 0⟩]⟩, -- SC_RXSEQ
  ⟨0x101C, 0x20, 128, [⟨0, 32, .ro, 0⟩]⟩, -- SC_RXFAIL
  ⟨0x3000, 0x4, 128, [⟨0, 32, .ro, 0⟩]⟩] -- SC_RXDUP

/-- The `SF_` block: R319 of 12_safety_functions.md. -/
def famsSF : List RegFam := [
  ⟨0x0, 0x0, 1, [⟨0, 1, .rwm, 0⟩]⟩, -- SF_CTRL
  ⟨0x4, 0x0, 1, [⟨0, 8, .ro, 0⟩, ⟨8, 8, .ro, 0⟩, ⟨16, 8, .ro, 0⟩, ⟨24, 2, .ro, 0⟩, ⟨26, 1, .ro, 0⟩, ⟨27, 1, .ro, 0⟩, ⟨28, 1, .ro, 0⟩]⟩, -- SF_SEAL
  ⟨0x8, 0x0, 1, [⟨0, 32, .ro, 0⟩]⟩, -- SF_TAMPERT
  ⟨0x40, 0x40, 2, [⟨0, 1, .ro, 0⟩]⟩, -- SF_DRVCFG
  ⟨0x44, 0x40, 2, [⟨0, 3, .ro, 0⟩, ⟨4, 4, .ro, 0⟩, ⟨8, 1, .ro, 0⟩, ⟨9, 1, .ro, 0⟩, ⟨10, 1, .ro, 1⟩, ⟨11, 1, .ro, 0⟩]⟩, -- SF_DRVSTAT
  ⟨0x48, 0x40, 2, [⟨0, 32, .ro, 0⟩]⟩, -- SF_SPEED
  ⟨0x4C, 0x40, 2, [⟨0, 32, .rwm, 0⟩]⟩, -- SF_SS1DEC
  ⟨0x50, 0x40, 2, [⟨0, 24, .rwm, 0⟩]⟩, -- SF_SS1VTOL
  ⟨0x54, 0x40, 2, [⟨0, 24, .rwm, 0⟩]⟩, -- SF_SS1VSTILL
  ⟨0x58, 0x40, 2, [⟨0, 14, .rwm, 0⟩, ⟨14, 10, .rwm, 0⟩, ⟨24, 8, .rwm, 0⟩]⟩, -- SF_SS1TIM
  ⟨0x5C, 0x40, 2, [⟨0, 5, .rwm, 0⟩, ⟨5, 1, .rwm, 0⟩]⟩, -- SF_SS1OUT
  ⟨0x60, 0x40, 2, [⟨0, 10, .rwm, 0x12C⟩, ⟨10, 16, .rwm, 0x3E8⟩]⟩, -- SF_TEST
  ⟨0x64, 0x40, 2, [⟨0, 32, .ro, 0⟩]⟩, -- SF_STOPS
  ⟨0x100, 0x10, 8, [⟨0, 1, .rwm, 0⟩, ⟨1, 1, .rwm, 0⟩, ⟨2, 9, .rwm, 5⟩]⟩, -- SF_PAIRCFG
  ⟨0x104, 0x10, 8, [⟨0, 1, .ro, 0⟩, ⟨1, 3, .ro, 0⟩, ⟨4, 1, .ro, 0⟩, ⟨5, 1, .ro, 0⟩, ⟨6, 2, .ro, 0⟩]⟩, -- SF_PAIRSTAT
  ⟨0x108, 0x10, 8, [⟨0, 32, .ro, 0⟩]⟩, -- SF_PAIRTS
  ⟨0x10C, 0x10, 8, [⟨0, 32, .ro, 0⟩]⟩] -- SF_DISC

/-- The `RB_` block: R375 of 15_rack_bus_bridge.md. -/
def famsRB : List RegFam := [
  ⟨0x0, 0x0, 1, [⟨0, 1, .rwm, 0⟩]⟩, -- RB_CTRL
  ⟨0x4, 0x0, 1, [⟨0, 1, .ro, 0⟩, ⟨1, 1, .w1c, 0⟩, ⟨2, 1, .w1c, 0⟩, ⟨3, 1, .w1c, 0⟩, ⟨4, 1, .w1c, 0⟩, ⟨5, 1, .w1c, 0⟩, ⟨8, 6, .ro, 0x20⟩]⟩, -- RB_STAT
  ⟨0x8, 0x0, 1, [⟨0, 14, .rwm, 0x3E8⟩, ⟨16, 10, .rwm, 0x32⟩]⟩, -- RB_TIMER
  ⟨0xC, 0x0, 1, [⟨0, 32, .ro, 0⟩]⟩, -- RB_WSEQ
  ⟨0x10, 0x0, 1, [⟨0, 32, .ro, 0⟩]⟩, -- RB_DISCNT
  ⟨0x14, 0x0, 1, [⟨0, 32, .ro, 0⟩]⟩, -- RB_UNEXP
  ⟨0x18, 0x0, 1, [⟨0, 32, .ro, 0⟩]⟩, -- RB_WERRCNT
  ⟨0x1C, 0x0, 1, [⟨0, 32, .ro, 0⟩]⟩, -- RB_RDERRCNT
  ⟨0x20, 0x0, 1, [⟨0, 32, .ro, 0⟩]⟩, -- RB_BUSYCNT
  ⟨0x24, 0x0, 1, [⟨0, 32, .ro, 0⟩]⟩, -- RB_PFDISC
  ⟨0x40, 0x0, 1, [⟨0, 32, .ro, 0⟩]⟩, -- RB_EADDR
  ⟨0x44, 0x0, 1, [⟨0, 4, .ro, 0⟩, ⟨4, 5, .ro, 0⟩, ⟨9, 3, .ro, 0⟩, ⟨12, 1, .ro, 0⟩, ⟨13, 4, .ro, 0⟩, ⟨17, 2, .ro, 0⟩, ⟨19, 1, .ro, 0⟩]⟩, -- RB_EINFO
  ⟨0x48, 0x0, 1, [⟨0, 32, .ro, 0⟩]⟩, -- RB_ESEQ
  ⟨0x4C, 0x0, 1, [⟨0, 32, .ro, 0⟩]⟩, -- RB_ECYC
  ⟨0x120, 0x20, 15, [⟨0, 1, .ro, 0⟩, ⟨1, 1, .ro, 0⟩, ⟨2, 2, .ro, 0⟩, ⟨8, 8, .ro, 0⟩, ⟨16, 16, .ro, 0⟩]⟩, -- RB_CARD
  ⟨0x124, 0x20, 15, [⟨0, 16, .ro, 0⟩]⟩, -- RB_CLASS
  ⟨0x128, 0x20, 15, [⟨0, 1, .ro, 0⟩, ⟨12, 20, .ro, 0⟩]⟩, -- RB_WBASE
  ⟨0x130, 0x20, 15, [⟨0, 1, .ro, 0⟩, ⟨12, 20, .ro, 0⟩]⟩, -- RB_WBASE
  ⟨0x12C, 0x20, 15, [⟨0, 20, .ro, 0⟩, ⟨20, 1, .ro, 0⟩, ⟨21, 1, .rwm, 0⟩, ⟨22, 1, .ro, 0⟩, ⟨23, 1, .ro, 0⟩]⟩, -- RB_WCFG
  ⟨0x134, 0x20, 15, [⟨0, 20, .ro, 0⟩, ⟨20, 1, .ro, 0⟩, ⟨21, 1, .rwm, 0⟩, ⟨22, 1, .ro, 0⟩, ⟨23, 1, .ro, 0⟩]⟩, -- RB_WCFG
  ⟨0x4000, 0x10, 1024, [⟨0, 32, .ro, 0⟩]⟩, -- RB_WHIST
  ⟨0x4004, 0x10, 1024, [⟨0, 32, .ro, 0⟩]⟩, -- RB_WHADDR
  ⟨0x4008, 0x10, 1024, [⟨0, 4, .ro, 0⟩, ⟨4, 4, .ro, 0⟩, ⟨8, 4, .ro, 0⟩, ⟨12, 2, .ro, 0⟩]⟩, -- RB_WHINFO
  ⟨0x400C, 0x10, 1024, [⟨0, 32, .ro, 0⟩]⟩] -- RB_WHCYC

/-- The `UN_` block: R401 of 16_redundant_unit.md. -/
def famsUN : List RegFam := [
  ⟨0x0, 0x0, 1, [⟨0, 16, .rwm, 0⟩, ⟨16, 4, .rwm, 0⟩, ⟨20, 4, .rwm, 0⟩, ⟨24, 4, .rwm, 0⟩, ⟨28, 1, .rwm, 0⟩, ⟨29, 1, .rwm, 0⟩, ⟨30, 1, .rwm, 0⟩, ⟨31, 1, .rwm, 0⟩]⟩, -- UN_CFG
  ⟨0x4, 0x0, 1, [⟨0, 1, .ro, 0⟩, ⟨1, 1, .ro, 0⟩, ⟨2, 1, .ro, 0⟩, ⟨3, 1, .ro, 0⟩, ⟨4, 1, .ro, 0⟩, ⟨5, 1, .ro, 0⟩, ⟨6, 1, .ro, 0⟩, ⟨7, 1, .ro, 0⟩]⟩, -- UN_STAT
  ⟨0x8, 0x0, 1, [⟨0, 32, .ro, 0⟩]⟩, -- UN_LEASE
  ⟨0xC, 0x0, 1, [⟨0, 32, .ro, 0⟩]⟩, -- UN_LSEQ
  ⟨0x10, 0x0, 1, [⟨0, 2, .ro, 0⟩, ⟨2, 1, .ro, 0⟩, ⟨4, 4, .ro, 0⟩]⟩, -- UN_VERDICT
  ⟨0x14, 0x0, 1, [⟨0, 16, .ro, 0⟩, ⟨16, 2, .ro, 0⟩]⟩, -- UN_HEALTH
  ⟨0x18, 0x0, 1, [⟨0, 16, .ro, 0⟩, ⟨16, 2, .ro, 0⟩]⟩, -- UN_PHEALTH
  ⟨0x20, 0x0, 1, [⟨0, 32, .ro, 0⟩]⟩, -- UN_TAKEOVER
  ⟨0x24, 0x0, 1, [⟨0, 32, .ro, 0⟩]⟩, -- UN_NOWATCH
  ⟨0x28, 0x0, 1, [⟨0, 32, .ro, 0⟩]⟩, -- UN_FWDLOST
  ⟨0x2C, 0x0, 1, [⟨0, 32, .ro, 0⟩]⟩, -- UN_GATEDROP
  ⟨0x100, 0x10, 4, [⟨0, 16, .rwm, 0⟩, ⟨16, 4, .rwm, 0⟩, ⟨20, 4, .rwm, 0⟩, ⟨24, 1, .rwm, 0⟩, ⟨25, 1, .rwm, 0⟩]⟩, -- UN_WUNIT
  ⟨0x104, 0x10, 4, [⟨0, 4, .ro, 0⟩, ⟨4, 1, .ro, 0⟩, ⟨5, 2, .ro, 0⟩, ⟨7, 1, .ro, 1⟩]⟩, -- UN_WSTAT
  ⟨0x108, 0x10, 4, [⟨0, 32, .ro, 0⟩]⟩, -- UN_WLSEQ
  ⟨0x10C, 0x10, 4, [⟨0, 32, .ro, 0⟩]⟩] -- UN_WGRANT

/-- The `FC_` block: R418 of 17_fault_collection.md. -/
def famsFC : List RegFam := [
  ⟨0x0, 0x0, 1, [⟨0, 1, .w1c, 0⟩, ⟨1, 1, .w1c, 0⟩, ⟨2, 1, .w1c, 0⟩, ⟨3, 1, .ro, 0⟩, ⟨4, 1, .ro, 0⟩, ⟨5, 1, .ro, 0⟩]⟩, -- FC_STAT
  ⟨0x4, 0x4, 3, [⟨0, 6, .ro, 0⟩, ⟨6, 2, .ro, 0⟩, ⟨8, 1, .ro, 0⟩, ⟨16, 16, .ro, 0⟩]⟩, -- FC_FIRST
  ⟨0x10, 0x0, 1, [⟨0, 6, .ro, 0⟩, ⟨6, 2, .ro, 0⟩, ⟨8, 1, .ro, 0⟩, ⟨16, 16, .ro, 0⟩]⟩, -- FC_HALTSRC
  ⟨0x20, 0x4, 5, [⟨0, 32, .ro, 0⟩]⟩, -- FC_CNT
  ⟨0x34, 0x0, 1, [⟨0, 32, .ro, 0⟩]⟩, -- FC_ESCCNT
  ⟨0x38, 0x0, 1, [⟨0, 32, .ro, 0⟩]⟩, -- FC_HLOST
  ⟨0x3C, 0x0, 1, [⟨0, 5, .ro, 0⟩, ⟨8, 5, .ro, 0⟩]⟩, -- FC_HPTR
  ⟨0x100, 0x10, 48, [⟨0, 1, .ro, 1⟩, ⟨1, 1, .ro, 0⟩, ⟨2, 1, .ro, 0⟩, ⟨3, 1, .ro, 0⟩, ⟨4, 3, .ro, 0⟩, ⟨7, 1, .w1c, 0⟩, ⟨16, 16, .ro, 0⟩]⟩, -- FC_SSTAT
  ⟨0x104, 0x10, 48, [⟨0, 1, .wo, 0⟩, ⟨1, 3, .rwm, 0⟩, ⟨4, 1, .rwm, 0⟩, ⟨16, 16, .rwm, 0⟩]⟩, -- FC_FORCE
  ⟨0x108, 0x10, 48, [⟨0, 32, .ro, 0⟩]⟩, -- FC_SCNT
  ⟨0x1000, 0x4, 512, [⟨0, 32, .ro, 0⟩]⟩] -- FC_HIST

/-- The `EV_` block: R505 of 21_event_recorder.md. -/
def famsEV : List RegFam := [
  ⟨0x0, 0x0, 1, [⟨0, 1, .ro, 0⟩, ⟨1, 1, .w1c, 0⟩, ⟨2, 1, .ro, 0⟩, ⟨3, 1, .ro, 0⟩]⟩, -- EV_STAT
  ⟨0x4, 0x0, 1, [⟨0, 32, .ro, 0⟩]⟩, -- EV_FIRST
  ⟨0x8, 0x0, 1, [⟨0, 32, .ro, 0⟩]⟩, -- EV_LAST
  ⟨0xC, 0x0, 1, [⟨0, 23, .ro, 0⟩]⟩, -- EV_COUNT
  ⟨0x10, 0x0, 1, [⟨0, 32, .ro, 0⟩]⟩, -- EV_SUPPR
  ⟨0x14, 0x0, 1, [⟨0, 13, .ro, 0⟩]⟩, -- EV_STAGE
  ⟨0x18, 0x0, 1, [⟨0, 32, .rw, 0⟩]⟩, -- EV_CURSOR
  ⟨0x1000, 0x4, 1024, [⟨0, 32, .ro, 0⟩]⟩] -- EV_WIN

/-- The `UP_` block: R524 of 22_field_update.md. -/
def famsUP : List RegFam := [
  ⟨0x0, 0x0, 1, [⟨0, 3, .ro, 0⟩, ⟨3, 1, .ro, 0⟩, ⟨4, 1, .ro, 0⟩, ⟨5, 1, .ro, 0⟩, ⟨6, 2, .ro, 0⟩]⟩, -- UP_STAT
  ⟨0x4, 0x0, 1, [⟨0, 13, .ro, 0⟩, ⟨16, 13, .ro, 0⟩]⟩, -- UP_CHUNKS
  ⟨0x8, 0x0, 1, [⟨0, 32, .ro, 0⟩]⟩, -- UP_VERSION
  ⟨0xC, 0x0, 1, [⟨0, 32, .ro, 0⟩]⟩, -- UP_TGTVER
  ⟨0x10, 0x0, 1, [⟨0, 16, .ro, 0⟩, ⟨16, 16, .ro, 0⟩]⟩, -- UP_SETVER
  ⟨0x14, 0x0, 1, [⟨0, 32, .ro, 0⟩]⟩, -- UP_FLOOR
  ⟨0x18, 0x0, 1, [⟨0, 32, .ro, 0⟩]⟩, -- UP_BUILD
  ⟨0x1C, 0x0, 1, [⟨0, 32, .ro, 0⟩]⟩, -- UP_CHFAIL
  ⟨0x20, 0x0, 1, [⟨0, 4, .ro, 0⟩, ⟨16, 16, .ro, 0⟩]⟩, -- UP_FALLBACK
  ⟨0x100, 0x4, 130, [⟨0, 32, .ro, 0⟩]⟩] -- UP_BITMAP

/-- The `MB_` block: R461 of 19_keeper_mailboxes.md. -/
def famsMB : List RegFam := [
  ⟨0xC00, 0x0, 1, [⟨0, 1, .wo, 0⟩]⟩, -- MB_DOOR
  ⟨0xC04, 0x0, 1, [⟨0, 2, .ro, 0⟩, ⟨2, 1, .w1c, 0⟩, ⟨8, 8, .ro, 0⟩, ⟨16, 1, .w1s, 0⟩, ⟨17, 1, .ro, 0⟩, ⟨18, 1, .ro, 0⟩, ⟨19, 1, .ro, 0⟩]⟩, -- MB_STAT
  ⟨0xC08, 0x0, 1, [⟨0, 1, .rw, 0⟩, ⟨1, 1, .rw, 0⟩]⟩, -- MB_CTRL
  ⟨0xC0C, 0x0, 1, [⟨0, 8, .rw, 1⟩]⟩, -- MB_EVMASK
  ⟨0xC10, 0x0, 1, [⟨0, 5, .ro, 0⟩]⟩, -- MB_EVHEAD
  ⟨0xC14, 0x0, 1, [⟨0, 5, .rw, 0⟩]⟩, -- MB_EVTAIL
  ⟨0xC18, 0x0, 1, [⟨0, 6, .ro, 0⟩, ⟨6, 1, .w1c, 0⟩]⟩, -- MB_EVSTAT
  ⟨0xC1C, 0x0, 1, [⟨0, 32, .ro, 0⟩]⟩, -- MB_EVLOST
  ⟨0xC20, 0x0, 1, [⟨0, 32, .ro, 0⟩]⟩, -- MB_CMDCNT
  ⟨0xC24, 0x0, 1, [⟨0, 32, .ro, 0⟩]⟩, -- MB_SREJCNT
  ⟨0xC28, 0x0, 1, [⟨0, 32, .ro, 0⟩]⟩, -- MB_BUSYCNT
  ⟨0xC2C, 0x0, 1, [⟨0, 16, .ro, 0⟩, ⟨16, 8, .ro, 0⟩, ⟨24, 8, .ro, 0⟩]⟩] -- MB_LAST

/-- The `LC_` block: R437 of 18_modes_and_lifecycle.md. -/
def famsLC : List RegFam := [
  ⟨0x0, 0x0, 1, [⟨0, 4, .ro, 1⟩, ⟨4, 4, .ro, 0⟩, ⟨8, 3, .ro, 0⟩, ⟨11, 1, .ro, 0⟩, ⟨16, 5, .ro, 0⟩]⟩, -- LC_MODE
  ⟨0x4, 0x0, 1, [⟨0, 3, .ro, 0⟩, ⟨3, 1, .ro, 0⟩, ⟨4, 1, .ro, 0⟩]⟩, -- LC_STATE
  ⟨0x8, 0x0, 1, [⟨0, 3, .ro, 0⟩, ⟨3, 3, .ro, 0⟩]⟩, -- LC_RSTCAUSE
  ⟨0xC, 0x0, 1, [⟨0, 32, .ro, 0⟩]⟩, -- LC_PWRCYC
  ⟨0x10, 0x0, 1, [⟨0, 32, .ro, 0⟩]⟩, -- LC_OPMSLO
  ⟨0x14, 0x0, 1, [⟨0, 32, .ro, 0⟩]⟩, -- LC_OPMSHI
  ⟨0x18, 0x0, 1, [⟨0, 16, .ro, 0⟩]⟩, -- LC_BOOTMS
  ⟨0x1C, 0x0, 1, [⟨0, 2, .ro, 0⟩]⟩, -- LC_NEXT
  ⟨0x20, 0x0, 1, [⟨0, 5, .rwm, 0⟩, ⟨5, 1, .rwm, 0⟩, ⟨6, 1, .rwm, 0⟩]⟩, -- LC_WAKE
  ⟨0x24, 0x0, 1, [⟨0, 32, .rwm, 0⟩]⟩, -- LC_WAKET
  ⟨0x28, 0x0, 1, [⟨0, 1, .ro, 0⟩, ⟨1, 1, .ro, 0⟩, ⟨2, 2, .ro, 0⟩]⟩, -- LC_PARKSTAT
  ⟨0x100, 0x4, 16, [⟨0, 32, .ro, 0⟩]⟩, -- LC_FACT
  ⟨0x200, 0x4, 64, [⟨0, 32, .ro, 0⟩]⟩] -- LC_TAG

/-- The `TU_` block: R202 of 07_time_unit.md. -/
def famsTU : List RegFam := [
  ⟨0x0, 0x0, 1, [⟨0, 32, .ro, 0⟩]⟩, -- TU_NS
  ⟨0x4, 0x0, 1, [⟨0, 32, .rwm, 0⟩]⟩, -- TU_ERA
  ⟨0x8, 0x0, 1, [⟨0, 32, .rw, 0⟩]⟩, -- TU_ERANEXT
  ⟨0xC, 0x0, 1, [⟨0, 32, .rw, 0⟩]⟩, -- TU_INC_F
  ⟨0x10, 0x0, 1, [⟨0, 4, .rw, 8⟩]⟩, -- TU_INC_I
  ⟨0x14, 0x0, 1, [⟨0, 32, .rwm, 0⟩]⟩, -- TU_STEP
  ⟨0x18, 0x0, 1, [⟨0, 1, .wo, 0⟩]⟩, -- TU_SNAP
  ⟨0x1C, 0x0, 1, [⟨0, 32, .ro, 0⟩]⟩, -- TU_SNAPNS
  ⟨0x20, 0x0, 1, [⟨0, 32, .ro, 0⟩]⟩, -- TU_SNAPERA
  ⟨0x24, 0x0, 1, [⟨0, 32, .ro, 0⟩]⟩, -- TU_SNAPFR
  ⟨0x28, 0x0, 1, [⟨0, 3, .rw, 0⟩, ⟨3, 1, .ro, 0⟩, ⟨4, 1, .ro, 0⟩, ⟨5, 1, .w1c, 0⟩, ⟨6, 1, .w1c, 0⟩, ⟨7, 1, .w1c, 0⟩]⟩, -- TU_STAT
  ⟨0x2C, 0x0, 1, [⟨0, 32, .rw, 0⟩]⟩, -- TU_OFFSET
  ⟨0x30, 0x0, 1, [⟨0, 2, .rw, 0⟩, ⟨2, 2, .rw, 0⟩, ⟨4, 2, .rw, 0⟩, ⟨6, 2, .rw, 0⟩]⟩, -- TU_TIOCFG
  ⟨0x40, 0x4, 10, [⟨0, 16, .ro, 0⟩, ⟨16, 16, .ro, 0⟩]⟩, -- TU_PCAL
  ⟨0x100, 0x10, 16, [⟨0, 6, .rw, 0⟩, ⟨6, 2, .rw, 0⟩, ⟨8, 8, .rw, 0⟩, ⟨16, 1, .rw, 0⟩]⟩, -- TU_CAPCFG
  ⟨0x104, 0x10, 16, [⟨0, 32, .ro, 0⟩]⟩, -- TU_CAP
  ⟨0x108, 0x10, 16, [⟨0, 16, .ro, 0⟩, ⟨16, 1, .ro, 0⟩, ⟨17, 1, .ro, 0⟩]⟩, -- TU_CAPSTAT
  ⟨0x10C, 0x10, 16, [⟨0, 32, .ro, 0⟩]⟩, -- TU_CAPERA
  ⟨0x200, 0x10, 16, [⟨0, 6, .rw, 0⟩, ⟨6, 2, .rw, 0⟩, ⟨8, 16, .rw, 0⟩, ⟨24, 1, .rw, 0⟩, ⟨25, 1, .rw, 0⟩]⟩, -- TU_TRGCFG
  ⟨0x204, 0x10, 16, [⟨0, 32, .rw, 0⟩]⟩, -- TU_TRG
  ⟨0x208, 0x10, 16, [⟨0, 32, .rw, 0⟩]⟩, -- TU_TRGPER
  ⟨0x20C, 0x10, 16, [⟨0, 1, .ro, 0⟩, ⟨1, 1, .w1c, 0⟩, ⟨2, 1, .w1c, 0⟩, ⟨3, 1, .w1c, 0⟩, ⟨16, 16, .ro, 0⟩]⟩] -- TU_TRGSTAT

/-- The `BZ_` block: R229 of 08_ring_frames_schedule.md, R263 of 09_ring_time_startup_healing.md. -/
def famsBZ : List RegFam := [
  ⟨0x0, 0x0, 1, [⟨0, 1, .rw, 0⟩, ⟨1, 1, .rw, 0⟩, ⟨2, 2, .rw, 0⟩, ⟨4, 1, .rw, 0⟩, ⟨5, 1, .rw, 0⟩, ⟨8, 4, .rw, 0⟩, ⟨12, 5, .rw, 0⟩]⟩, -- BZ_CTRL
  ⟨0x4, 0x0, 1, [⟨0, 3, .ro, 0⟩, ⟨3, 1, .ro, 0⟩, ⟨4, 1, .w1c, 0⟩, ⟨5, 1, .w1c, 0⟩, ⟨6, 1, .w1c, 0⟩]⟩, -- BZ_STAT
  ⟨0x8, 0x0, 1, [⟨0, 13, .rw, 0⟩]⟩, -- BZ_NENT
  ⟨0xC, 0x0, 1, [⟨0, 16, .ro, 0⟩]⟩, -- BZ_SCHEDID
  ⟨0x10, 0x0, 1, [⟨0, 12, .ro, 0⟩, ⟨16, 4, .ro, 0⟩]⟩, -- BZ_SCHERR
  ⟨0x14, 0x0, 1, [⟨0, 32, .ro, 0⟩]⟩, -- BZ_MDELAY
  ⟨0x18, 0x0, 1, [⟨0, 32, .ro, 0⟩]⟩, -- BZ_CLOSE
  ⟨0x1C, 0x0, 1, [⟨0, 4, .ro, 0⟩, ⟨4, 2, .ro, 0⟩, ⟨6, 1, .ro, 0⟩, ⟨7, 1, .ro, 0⟩]⟩, -- BZ_MARK
  ⟨0x20, 0x0, 1, [⟨0, 32, .ro, 0⟩]⟩, -- BZ_MARKTS
  ⟨0x40, 0x0, 1, [⟨0, 32, .ro, 0⟩]⟩, -- BZ_RXOK
  ⟨0x44, 0x0, 1, [⟨0, 32, .ro, 0⟩]⟩, -- BZ_RXREJ
  ⟨0x48, 0x0, 1, [⟨0, 32, .ro, 0⟩]⟩, -- BZ_CRCERR
  ⟨0x4C, 0x0, 1, [⟨0, 32, .ro, 0⟩]⟩, -- BZ_NOMARK
  ⟨0x50, 0x0, 1, [⟨0, 32, .ro, 0⟩]⟩, -- BZ_STANDIN
  ⟨0x54, 0x0, 1, [⟨0, 32, .ro, 0⟩]⟩, -- BZ_NOREPLY
  ⟨0x58, 0x0, 1, [⟨0, 32, .ro, 0⟩]⟩, -- BZ_LATEREC
  ⟨0x5C, 0x0, 1, [⟨0, 32, .ro, 0⟩]⟩, -- BZ_WRAPDROP
  ⟨0x8000, 0x8, 4096, [⟨0, 16, .rw, 0⟩, ⟨16, 6, .rw, 0⟩, ⟨22, 2, .rw, 0⟩, ⟨24, 4, .rw, 0⟩, ⟨28, 1, .rw, 0⟩, ⟨29, 1, .rw, 0⟩, ⟨30, 1, .rw, 0⟩]⟩, -- BZ_SENTA
  ⟨0x8004, 0x8, 4096, [⟨0, 11, .rw, 0⟩]⟩, -- BZ_SENTB
  ⟨0x100, 0x0, 1, [⟨0, 3, .rw, 7⟩, ⟨3, 1, .rw, 0⟩, ⟨4, 4, .rw, 0⟩]⟩, -- BZ_SYNCCFG
  ⟨0x104, 0x0, 1, [⟨0, 3, .ro, 0⟩, ⟨3, 6, .ro, 0⟩]⟩, -- BZ_JOIN
  ⟨0x108, 0x0, 1, [⟨0, 32, .ro, 0⟩]⟩, -- BZ_OFFSET
  ⟨0x10C, 0x0, 1, [⟨0, 32, .ro, 0⟩]⟩, -- BZ_RATE
  ⟨0x110, 0x0, 1, [⟨0, 4, .ro, 0⟩, ⟨4, 4, .ro, 0⟩, ⟨8, 1, .ro, 0⟩, ⟨9, 1, .ro, 0⟩, ⟨10, 1, .ro, 0⟩, ⟨11, 1, .ro, 0⟩]⟩, -- BZ_SYNCSTAT
  ⟨0x114, 0x0, 1, [⟨0, 16, .ro, 0⟩]⟩, -- BZ_SYNCEXCL
  ⟨0x118, 0x0, 1, [⟨0, 31, .ro, 0⟩, ⟨31, 1, .ro, 0⟩]⟩, -- BZ_POS
  ⟨0x11C, 0x0, 1, [⟨0, 32, .ro, 0⟩]⟩, -- BZ_MOFF
  ⟨0x120, 0x0, 1, [⟨0, 16, .ro, 0⟩, ⟨16, 1, .ro, 0⟩, ⟨17, 1, .ro, 0⟩]⟩, -- BZ_SEGA
  ⟨0x124, 0x0, 1, [⟨0, 16, .ro, 0⟩, ⟨16, 1, .ro, 0⟩, ⟨17, 1, .ro, 0⟩]⟩, -- BZ_SEGB
  ⟨0x128, 0x0, 1, [⟨0, 2, .ro, 0⟩, ⟨2, 1, .ro, 0⟩, ⟨3, 1, .ro, 0⟩]⟩, -- BZ_FOLD
  ⟨0x12C, 0x0, 1, [⟨0, 1, .w1c, 0⟩, ⟨1, 1, .ro, 0⟩, ⟨2, 1, .ro, 0⟩]⟩, -- BZ_GSTAT
  ⟨0x130, 0x0, 1, [⟨0, 32, .ro, 0⟩]⟩, -- BZ_GVIOL
  ⟨0x134, 0x0, 1, [⟨0, 8, .ro, 0⟩]⟩, -- BZ_GVHOUR
  ⟨0x138, 0x0, 1, [⟨0, 32, .ro, 0⟩]⟩, -- BZ_COLDSENT
  ⟨0x13C, 0x0, 1, [⟨0, 32, .ro, 0⟩]⟩, -- BZ_COLLIDE
  ⟨0x140, 0x0, 1, [⟨0, 32, .ro, 0⟩]⟩, -- BZ_FOLDS
  ⟨0x144, 0x0, 1, [⟨0, 32, .ro, 0⟩]⟩, -- BZ_MARKLOST
  ⟨0x148, 0x0, 1, [⟨0, 32, .ro, 0⟩]⟩, -- BZ_SYNCREJ
  ⟨0x14C, 0x0, 1, [⟨0, 4, .ro, 0⟩, ⟨4, 2, .ro, 0⟩, ⟨6, 1, .ro, 0⟩]⟩, -- BZ_REF
  ⟨0x180, 0x4, 16, [⟨0, 32, .ro, 0⟩]⟩] -- BZ_DEV

/-- The `EN_` block: R277 of 10_consist_ethernet.md. -/
def famsEN : List RegFam := [
  ⟨0x0, 0x0, 1, [⟨0, 1, .rwm, 0⟩, ⟨1, 1, .rwm, 0⟩, ⟨16, 12, .rwm, 1⟩]⟩, -- EN_CTRL
  ⟨0x4, 0x0, 1, [⟨0, 2, .rwm, 0⟩, ⟨2, 2, .rwm, 1⟩, ⟨4, 2, .rwm, 0⟩, ⟨6, 2, .rwm, 0⟩, ⟨8, 8, .rwm, 0⟩, ⟨16, 4, .rwm, 0⟩, ⟨20, 4, .rwm, 0⟩]⟩, -- EN_PTPCFG
  ⟨0x8, 0x0, 1, [⟨0, 8, .rwm, 0x80⟩, ⟨8, 8, .rwm, 0x80⟩]⟩, -- EN_PTPPRIO
  ⟨0xC, 0x0, 1, [⟨0, 3, .ro, 0⟩, ⟨3, 1, .ro, 0⟩, ⟨4, 1, .ro, 0⟩, ⟨5, 1, .w1c, 0⟩]⟩, -- EN_PTPSTAT
  ⟨0x10, 0x0, 1, [⟨0, 32, .ro, 0⟩]⟩, -- EN_PTPOFF
  ⟨0x14, 0x0, 1, [⟨0, 32, .ro, 0⟩]⟩, -- EN_PTPRATE
  ⟨0x18, 0x0, 1, [⟨0, 32, .ro, 0⟩]⟩, -- EN_GMID0
  ⟨0x1C, 0x0, 1, [⟨0, 32, .ro, 0⟩]⟩, -- EN_GMID1
  ⟨0x40, 0x10, 5, [⟨0, 1, .ro, 0⟩, ⟨1, 2, .ro, 0⟩, ⟨3, 1, .rwm, 1⟩, ⟨4, 12, .rwm, 1⟩, ⟨16, 3, .rwm, 0⟩]⟩, -- EN_PORT
  ⟨0x44, 0x10, 4, [⟨0, 32, .ro, 0⟩]⟩, -- EN_MPD
  ⟨0x48, 0x10, 4, [⟨0, 32, .rwm, 0⟩]⟩, -- EN_ASYM
  ⟨0x4C, 0x10, 5, [⟨0, 32, .ro, 0⟩]⟩, -- EN_DROP
  ⟨0x100, 0x0, 1, [⟨0, 32, .ro, 0⟩]⟩, -- EN_PDLATE
  ⟨0x104, 0x0, 1, [⟨0, 32, .ro, 0⟩]⟩, -- EN_PDDUP
  ⟨0x108, 0x0, 1, [⟨0, 32, .ro, 0⟩]⟩, -- EN_PDERR
  ⟨0x10C, 0x0, 1, [⟨0, 32, .ro, 0⟩]⟩, -- EN_TCUNCORR
  ⟨0x1000, 0x8, 64, [⟨0, 32, .rwm, 0⟩]⟩, -- EN_PUBID
  ⟨0x1004, 0x8, 64, [⟨0, 11, .rwm, 0⟩, ⟨11, 3, .rwm, 5⟩, ⟨15, 1, .rwm, 0⟩, ⟨16, 8, .rwm, 1⟩, ⟨24, 4, .rwm, 0⟩]⟩, -- EN_PUBCFG
  ⟨0x2000, 0x10, 128, [⟨0, 32, .rwm, 0⟩]⟩, -- EN_SUBID
  ⟨0x2004, 0x10, 128, [⟨0, 11, .rwm, 0⟩, ⟨15, 1, .rwm, 0⟩, ⟨16, 16, .rwm, 0⟩]⟩, -- EN_SUBCFG
  ⟨0x2008, 0x10, 128, [⟨0, 32, .ro, 0⟩]⟩, -- EN_SUBTS
  ⟨0x200C, 0x10, 128, [⟨0, 32, .ro, 0⟩]⟩] -- EN_SUBCNT

/-- The `RB (legacy serial page)_` block: R376 of 15_rack_bus_bridge.md. -/
def famsRBLS : List RegFam := [
  ⟨0x0, 0x0, 1, [⟨0, 1, .rwm, 0⟩, ⟨1, 2, .rwm, 0⟩, ⟨8, 8, .rwm, 0xA⟩]⟩, -- RB_LSCTRL
  ⟨0x4, 0x0, 1, [⟨0, 1, .ro, 0⟩, ⟨1, 1, .ro, 0⟩]⟩, -- RB_LSSTAT
  ⟨0x8, 0x0, 1, [⟨0, 32, .ro, 0⟩]⟩, -- RB_LSERRA
  ⟨0xC, 0x0, 1, [⟨0, 32, .ro, 0⟩]⟩, -- RB_LSERRB
  ⟨0x10, 0x0, 1, [⟨0, 32, .ro, 0⟩]⟩, -- RB_LSNORESP
  ⟨0x104, 0x4, 31, [⟨0, 8, .rwm, 0⟩, ⟨8, 8, .rwm, 0⟩, ⟨16, 1, .rwm, 0⟩]⟩] -- RB_LSSTN

/-- The `FD_` block: R339 of 13_digital_io.md. -/
def famsFD : List RegFam := [
  ⟨0x0, 0x0, 1, [⟨0, 2, .ro, 0⟩, ⟨2, 1, .ro, 1⟩, ⟨3, 1, .ro, 0⟩]⟩, -- FD_STAT
  ⟨0x4, 0x0, 1, [⟨0, 12, .ro, 0⟩]⟩, -- FD_FLD
  ⟨0x8, 0x0, 1, [⟨0, 8, .rwm, 3⟩, ⟨8, 20, .rwm, 0x1F4⟩]⟩, -- FD_SILCFG
  ⟨0xC, 0x0, 1, [⟨0, 1, .wo, 0⟩, ⟨16, 12, .wo, 0⟩, ⟨28, 4, .wo, 0⟩]⟩, -- FD_RELEASE
  ⟨0x10, 0x0, 1, [⟨0, 32, .ro, 0⟩]⟩, -- FD_SILCNT
  ⟨0x14, 0x0, 1, [⟨0, 32, .ro, 0⟩]⟩, -- FD_BADVAL
  ⟨0x18, 0x0, 1, [⟨0, 16, .ro, 0⟩, ⟨16, 16, .ro, 0⟩]⟩, -- FD_DISTAT
  ⟨0x40, 0x4, 16, [⟨0, 8, .rwm, 4⟩]⟩, -- FD_DICFG
  ⟨0x80, 0x8, 16, [⟨0, 32, .ro, 0⟩]⟩, -- FD_DITS
  ⟨0x84, 0x8, 16, [⟨0, 16, .ro, 0⟩, ⟨16, 1, .ro, 0⟩, ⟨17, 1, .ro, 0⟩]⟩, -- FD_DICNT
  ⟨0x100, 0x8, 12, [⟨0, 2, .rwm, 0⟩, ⟨2, 1, .rwm, 1⟩]⟩, -- FD_HSOCFG
  ⟨0x104, 0x8, 12, [⟨0, 1, .ro, 0⟩, ⟨1, 1, .ro, 0⟩, ⟨2, 1, .w1c, 0⟩, ⟨3, 1, .ro, 0⟩, ⟨4, 1, .w1c, 0⟩, ⟨5, 1, .ro, 0⟩, ⟨6, 1, .ro, 0⟩, ⟨8, 4, .ro, 0⟩, ⟨16, 12, .ro, 0⟩]⟩, -- FD_HSOSTAT
  ⟨0x180, 0x8, 4, [⟨0, 2, .rwm, 0⟩]⟩, -- FD_FPPCFG
  ⟨0x184, 0x8, 4, [⟨0, 1, .ro, 0⟩, ⟨1, 1, .ro, 0⟩, ⟨2, 1, .w1c, 0⟩, ⟨3, 1, .w1c, 0⟩, ⟨6, 1, .ro, 0⟩, ⟨8, 4, .ro, 0⟩, ⟨16, 1, .ro, 0⟩]⟩] -- FD_FPPSTAT

/-- The `AN_` block: R355 of 14_current_loops.md. -/
def famsAN : List RegFam := [
  ⟨0x0, 0x0, 1, [⟨0, 32, .ro, 0⟩]⟩, -- AN_BADVAL
  ⟨0x4, 0x0, 1, [⟨0, 32, .ro, 0⟩]⟩, -- AN_TRGMISS
  ⟨0x40, 0x20, 6, [⟨0, 2, .rwm, 0⟩, ⟨2, 2, .rwm, 0⟩, ⟨4, 1, .rwm, 0⟩, ⟨5, 1, .rwm, 0⟩, ⟨6, 3, .rwm, 0⟩]⟩, -- AN_CFG
  ⟨0x44, 0x20, 6, [⟨0, 1, .ro, 0⟩, ⟨1, 1, .ro, 0⟩, ⟨2, 1, .ro, 0⟩, ⟨3, 1, .ro, 0⟩, ⟨4, 1, .ro, 0⟩, ⟨5, 1, .ro, 0⟩, ⟨6, 1, .ro, 0⟩, ⟨7, 1, .ro, 0⟩, ⟨8, 1, .ro, 0⟩, ⟨9, 1, .ro, 0⟩, ⟨12, 4, .ro, 5⟩]⟩, -- AN_STAT
  ⟨0x48, 0x20, 6, [⟨0, 24, .ro, 0⟩]⟩, -- AN_MEAS
  ⟨0x4C, 0x20, 6, [⟨0, 18, .ro, 0⟩, ⟨31, 1, .ro, 0⟩]⟩, -- AN_CMD
  ⟨0x50, 0x20, 6, [⟨0, 32, .ro, 0⟩]⟩, -- AN_TS
  ⟨0x54, 0x20, 6, [⟨0, 32, .ro, 0⟩]⟩] -- AN_TSERA

/-- The `PX_` block: R92 of 03_pairs.md. -/
def famsPX : List RegFam := [
  ⟨0x0, 0x0, 1, [⟨0, 2, .ro, 0⟩, ⟨2, 2, .ro, 0⟩, ⟨4, 2, .ro, 0⟩, ⟨6, 2, .ro, 0⟩, ⟨8, 4, .ro, 0xF⟩]⟩, -- PX_MODE
  ⟨0x4, 0x0, 1, [⟨0, 2, .rw, 0⟩, ⟨2, 1, .rw, 0⟩, ⟨4, 1, .wo, 0⟩]⟩, -- PX_CMD
  ⟨0x8, 0x0, 1, [⟨0, 1, .ro, 0⟩, ⟨1, 1, .w1c, 0⟩, ⟨2, 2, .ro, 0⟩, ⟨4, 1, .ro, 0⟩]⟩, -- PX_STAT
  ⟨0x10, 0x0, 1, []⟩, -- PX_RSV010
  ⟨0x14, 0x4, 3, [⟨0, 32, .rw, 0⟩]⟩, -- PX_ENTRY
  ⟨0x20, 0x0, 1, [⟨0, 2, .rw, 0⟩, ⟨2, 2, .rw, 0⟩, ⟨4, 8, .rw, 0⟩, ⟨16, 1, .wo, 0⟩]⟩, -- PX_FORCE
  ⟨0x24, 0x0, 1, [⟨0, 1, .w1c, 0⟩, ⟨1, 1, .ro, 0⟩, ⟨2, 1, .ro, 0⟩, ⟨3, 1, .ro, 0⟩, ⟨4, 2, .ro, 0⟩]⟩, -- PX_TEST
  ⟨0x30, 0x4, 4, [⟨0, 1, .ro, 0⟩, ⟨1, 3, .ro, 0⟩, ⟨4, 2, .ro, 0⟩, ⟨6, 2, .ro, 0⟩, ⟨8, 8, .ro, 0⟩, ⟨16, 1, .ro, 0⟩]⟩, -- PX_DIAG
  ⟨0x40, 0x4, 4, [⟨0, 32, .ro, 0⟩]⟩, -- PX_TESTCNT
  ⟨0x50, 0x4, 4, [⟨0, 4, .wo, 0⟩, ⟨4, 1, .wo, 0⟩]⟩] -- PX_DISP

/-- The `RA_` block: R147 of 05_run_ahead.md. -/
def famsRA : List RegFam := [
  ⟨0x0, 0x0, 1, [⟨0, 1, .rw, 0⟩, ⟨1, 1, .rw, 0⟩]⟩, -- RA_CTRL
  ⟨0x4, 0x0, 1, [⟨0, 16, .rw, 0⟩]⟩, -- RA_TASKEN
  ⟨0x8, 0x0, 1, [⟨0, 9, .ro, 0⟩]⟩, -- RA_DQ
  ⟨0x10, 0x4, 4, [⟨0, 4, .rw, 0⟩, ⟨4, 1, .rw, 0⟩]⟩, -- RA_PAIRCTX
  ⟨0x40, 0x4, 16, [⟨0, 7, .rw, 0⟩, ⟨8, 7, .rw, 0⟩]⟩, -- RA_LOG
  ⟨0x80, 0x4, 16, [⟨0, 3, .ro, 0⟩, ⟨3, 1, .ro, 0⟩, ⟨4, 1, .ro, 0⟩, ⟨5, 1, .ro, 0⟩, ⟨6, 1, .ro, 0⟩, ⟨8, 3, .ro, 0⟩, ⟨16, 16, .ro, 0⟩]⟩, -- RA_CTX
  ⟨0xC0, 0x8, 16, [⟨0, 28, .rw, 0⟩]⟩, -- RA_SCRBASE
  ⟨0xC4, 0x8, 16, [⟨0, 17, .rw, 0⟩]⟩, -- RA_SCRSIZE
  ⟨0x140, 0x4, 16, [⟨0, 32, .ro, 0⟩]⟩, -- RA_COMMIT
  ⟨0x180, 0x4, 16, [⟨0, 32, .ro, 0⟩]⟩, -- RA_ROLL
  ⟨0x1C0, 0x4, 16, [⟨0, 32, .ro, 0⟩]⟩, -- RA_OVF
  ⟨0x200, 0x4, 16, [⟨0, 24, .ro, 0⟩]⟩, -- RA_GAIN
  ⟨0x800, 0x8, 256, [⟨0, 15, .rw, 0⟩, ⟨15, 2, .rw, 0⟩, ⟨17, 2, .rw, 0⟩, ⟨31, 1, .rw, 0⟩]⟩, -- RA_PTAB
  ⟨0x804, 0x8, 256, [⟨0, 32, .rw, 0⟩]⟩] -- RA_PK

/-- The `SD_` block: R73 of 02_lanes_and_vote.md. -/
def famsSD : List RegFam := [
  ⟨0x0, 0x0, 1, [⟨0, 1, .rw, 0⟩, ⟨4, 4, .rw, 0⟩]⟩, -- SD_CTRL
  ⟨0x4, 0x0, 1, [⟨0, 1, .w1c, 0⟩, ⟨1, 1, .w1c, 0⟩, ⟨2, 1, .ro, 0⟩]⟩, -- SD_STAT
  ⟨0x10, 0x4, 4, [⟨0, 32, .ro, 0⟩]⟩, -- SD_DIGEST
  ⟨0x20, 0x4, 4, [⟨0, 32, .ro, 0⟩]⟩, -- SD_SNAP
  ⟨0x100, 0x8, 16, [⟨0, 28, .rw, 0⟩]⟩, -- SD_WINBASE
  ⟨0x104, 0x8, 16, [⟨0, 17, .rw, 0⟩, ⟨24, 4, .rw, 0⟩]⟩] -- SD_WINSIZE

/-- The `MM_` block: R176 of 06_memory_and_dma.md. -/
def famsMM : List RegFam := [
  ⟨0x0, 0x0, 1, [⟨0, 1, .rw, 0⟩, ⟨1, 1, .rw, 0⟩]⟩, -- MM_CTRL
  ⟨0x4, 0x0, 1, [⟨0, 32, .ro, 0⟩]⟩, -- MM_ECCDRAM
  ⟨0x8, 0x0, 1, [⟨0, 32, .ro, 0⟩]⟩, -- MM_ECCL2
  ⟨0xC, 0x0, 1, [⟨0, 14, .ro, 0⟩]⟩, -- MM_RETAIN
  ⟨0x40, 0x8, 8, [⟨0, 1, .w1c, 0⟩, ⟨1, 3, .ro, 0⟩, ⟨4, 2, .ro, 0⟩, ⟨6, 1, .ro, 0⟩, ⟨8, 8, .ro, 0⟩, ⟨16, 6, .ro, 0⟩, ⟨22, 1, .ro, 0⟩]⟩, -- MM_FSTAT
  ⟨0x44, 0x8, 8, [⟨0, 32, .ro, 0⟩]⟩, -- MM_FADDR
  ⟨0x100, 0x8, 64, [⟨0, 28, .rw, 0⟩]⟩, -- MM_RBASE
  ⟨0x104, 0x8, 64, [⟨0, 20, .rw, 0⟩, ⟨20, 1, .rw, 0⟩, ⟨21, 1, .rw, 0⟩, ⟨22, 1, .rw, 0⟩, ⟨23, 1, .rw, 0⟩, ⟨24, 1, .rw, 0⟩, ⟨25, 1, .rw, 0⟩, ⟨26, 4, .rw, 0⟩, ⟨31, 1, .rw, 0⟩]⟩, -- MM_RCFG
  ⟨0x400, 0x10, 64, [⟨0, 28, .rw, 0⟩]⟩, -- MM_IOVA
  ⟨0x404, 0x10, 64, [⟨0, 28, .rw, 0⟩]⟩, -- MM_IOTGT
  ⟨0x408, 0x10, 64, [⟨0, 20, .rw, 0⟩, ⟨20, 1, .rw, 0⟩, ⟨21, 1, .rw, 0⟩, ⟨22, 1, .rw, 0⟩, ⟨31, 1, .rw, 0⟩]⟩, -- MM_IOCFG
  ⟨0x40C, 0x10, 64, [⟨0, 16, .rw, 0⟩]⟩] -- MM_IOCH

/-- The `DM_` block: R177 of 06_memory_and_dma.md. -/
def famsDM : List RegFam := [
  ⟨0x0, 0x40, 16, [⟨0, 4, .rw, 0⟩, ⟨4, 2, .rw, 0⟩, ⟨6, 1, .rw, 0⟩, ⟨7, 1, .rw, 0⟩, ⟨8, 1, .rw, 0⟩, ⟨9, 1, .rw, 0⟩]⟩, -- DM_CTRL
  ⟨0x4, 0x40, 16, [⟨0, 32, .rw, 0⟩]⟩, -- DM_SRCLO
  ⟨0x8, 0x40, 16, [⟨0, 8, .rw, 0⟩]⟩, -- DM_SRCHI
  ⟨0xC, 0x40, 16, [⟨0, 32, .rw, 0⟩]⟩, -- DM_DSTLO
  ⟨0x10, 0x40, 16, [⟨0, 8, .rw, 0⟩]⟩, -- DM_DSTHI
  ⟨0x14, 0x40, 16, [⟨0, 32, .rw, 0⟩]⟩, -- DM_LEN
  ⟨0x18, 0x40, 16, [⟨0, 32, .ro, 0⟩]⟩, -- DM_DONE
  ⟨0x1C, 0x40, 16, [⟨5, 27, .rw, 0⟩]⟩, -- DM_NEXTLO
  ⟨0x20, 0x40, 16, [⟨0, 8, .rw, 0⟩]⟩, -- DM_NEXTHI
  ⟨0x24, 0x40, 16, [⟨0, 1, .wo, 0⟩, ⟨1, 1, .wo, 0⟩, ⟨2, 1, .wo, 0⟩]⟩, -- DM_CMD
  ⟨0x28, 0x40, 16, [⟨0, 3, .ro, 0⟩, ⟨3, 1, .w1c, 0⟩, ⟨4, 1, .w1c, 0⟩, ⟨5, 3, .ro, 0⟩, ⟨8, 2, .ro, 0⟩, ⟨10, 1, .w1c, 0⟩]⟩, -- DM_STAT
  ⟨0x2C, 0x40, 16, [⟨0, 32, .ro, 0⟩]⟩, -- DM_FADDRLO
  ⟨0x30, 0x40, 16, [⟨0, 8, .ro, 0⟩]⟩, -- DM_FADDRHI
  ⟨0x800, 0x0, 1, [⟨0, 16, .ro, 0⟩, ⟨16, 16, .ro, 0⟩]⟩] -- DM_PEND

/-- The `TC_` block: R178 of 06_memory_and_dma.md. -/
def famsTC : List RegFam := [
  ⟨0x0, 0x0, 1, [⟨0, 1, .rw, 1⟩]⟩, -- TC_CTRL
  ⟨0x4, 0x0, 1, [⟨0, 8, .w1c, 0⟩]⟩, -- TC_STAT
  ⟨0x8, 0x0, 1, [⟨0, 32, .ro, 0⟩]⟩, -- TC_ECC
  ⟨0x10, 0x4, 8, [⟨0, 32, .ro, 0⟩]⟩, -- TC_WAIT
  ⟨0x30, 0x4, 8, [⟨0, 32, .ro, 0⟩]⟩, -- TC_STARV
  ⟨0x50, 0x4, 8, [⟨0, 16, .rw, 0x64⟩]⟩] -- TC_STARVTHR

/-- The `VX (lane page)_` block: R71 of 02_lanes_and_vote.md. -/
def famsVXL : List RegFam := [
  ⟨0x0, 0x0, 1, [⟨0, 4, .ro, 0⟩, ⟨4, 2, .ro, 0⟩, ⟨8, 3, .ro, 0⟩]⟩, -- VX_LSTAT
  ⟨0x4, 0x0, 1, [⟨0, 4, .wo, 0⟩, ⟨4, 1, .wo, 0⟩]⟩, -- VX_SUBMIT
  ⟨0x8, 0x0, 1, [⟨0, 1, .ro, 0⟩, ⟨1, 1, .ro, 0⟩, ⟨2, 1, .w1c, 0⟩, ⟨4, 4, .ro, 0⟩, ⟨16, 15, .ro, 0⟩]⟩, -- VX_SUBSTAT
  ⟨0xC, 0x0, 1, [⟨0, 4, .ro, 0⟩, ⟨16, 16, .ro, 0⟩]⟩, -- VX_IMGSTAT
  ⟨0x40, 0x4, 16, [⟨0, 15, .ro, 0⟩, ⟨15, 16, .ro, 0⟩]⟩] -- VX_ORANGE

/-- The block that starts at 64 KiB page `p` of the module register space (R34, R35). Every lane's blocks repeat at the
lane's base, and each mailbox channel is a page of 4 KiB of the `MB_` block. -/
def pageFams (p : Nat) : Option (List RegFam) :=
  if p == 0x4000 then some famsVX
  else if p == 0x4001 then some famsSC
  else if p == 0x4002 then some famsSF
  else if p == 0x4003 then some famsRB
  else if p == 0x4004 then some famsUN
  else if p == 0x4005 then some famsFC
  else if p == 0x4006 then some famsEV
  else if p == 0x4007 then some famsUP
  else if p == 0x4008 then some famsMB
  else if p == 0x4009 then some famsLC
  else if p == 0x5000 then some famsTU
  else if p == 0x5001 then some famsBZ
  else if p == 0x5002 then some famsBZ
  else if p == 0x5003 then some famsEN
  else if p == 0x5004 then some famsRBLS
  else if p == 0x6000 then some famsFD
  else if p == 0x6001 then some famsAN
  else if decide (0x7000 ≤ p) && decide (p < 0x7400) then
    let q := p % 0x100
    if q == 0 then some famsPX
    else if q == 1 then some famsRA
    else if q == 2 then some famsSD
    else if q == 3 then some famsMM
    else if q == 4 then some famsDM
    else if q == 5 then some famsTC
    else if q == 6 then some famsVXL
    else none
  else none

/-- Does the family hold the register at this offset of its block? -/
def RegFam.has (f : RegFam) (off : Nat) : Bool :=
  decide (f.off ≤ off) && (if f.stride == 0 then off == f.off else
    decide (off < f.off + f.stride * f.count) && ((off - f.off) % f.stride == 0))

/-- The fields of the register at an offset: none where the block's table lists no register. -/
def famsFind : List RegFam → Nat → Option (List RegFld)
  | [], _ => none
  | f :: fs, off => if f.has off then some f.flds else famsFind fs off

/-- The offset within a block: the `MB_` block holds its channels at a stride of 0x1000 (R35). -/
def regOff (a : Nat) : Nat :=
  if a / 0x10000 == 0x4008 then (if a % 0x10000 < 0x7000 then a % 0x1000 else a % 0x10000) else a % 0x10000

/-- The fields of the register at a module-space address. -/
def regFlds (a : Nat) : Option (List RegFld) :=
  match pageFams (a / 0x10000) with
  | none => none
  | some fs => famsFind fs (regOff a)

/-- A register's reset value, from its fields (R13). -/
def fldsReset : List RegFld → Nat
  | [] => 0
  | f :: fs => f.reset * 2 ^ f.lo + fldsReset fs

/-- What a register reads as after reset, and what an address that nothing has written reads as. -/
def regReset (a : Nat) : Word :=
  match regFlds a with
  | none => 0
  | some fs => BitVec.ofNat 32 (fldsReset fs)

end Sys2Proof.Machine
end

