-- ==== Sys2Proof/Machine/Fields.lean ====
section
/-! DEFINITION. Every field of every register by the spec's own name: `VX_CTRL_WINDOW` is field `WINDOW` of `VX_CTRL`.
An indexed register takes its index as the spec numbers it. A lane-local block takes the lane (0 to 3 for A to D) first,
the `BZ_` block the ring (0 for ring 1, 1 for ring 2), the `MB_` block the channel. -/

namespace Sys2Proof.Machine

/-- A field: the module-space address of its register, its lowest bit, its width. -/
structure Fld where
  reg : Nat
  lo : Nat
  w : Nat
  deriving DecidableEq, Repr

/-- Lane n's base in the module register space (R34). -/
def laneBase (l : Nat) : Nat := 0x70000000 + l * 0x1000000

/-! ### `VX_` -/

def VX_CTRL_WINDOW : Fld := ⟨0x40000000, 0, 8⟩
def VX_CTRL_CMDWIN : Fld := ⟨0x40000000, 8, 8⟩
def VX_CTRL_SPAREEN : Fld := ⟨0x40000000, 16, 1⟩
def VX_LANES_STA : Fld := ⟨0x40000004, 0, 4⟩
def VX_LANES_STB : Fld := ⟨0x40000004, 4, 4⟩
def VX_LANES_STC : Fld := ⟨0x40000004, 8, 4⟩
def VX_LANES_STD : Fld := ⟨0x40000004, 12, 4⟩
def VX_LANES_LEVEL : Fld := ⟨0x40000004, 16, 3⟩
def VX_MINORITY_LANE : Fld := ⟨0x40000008, 0, 2⟩
def VX_MINORITY_TASK : Fld := ⟨0x40000008, 2, 4⟩
def VX_MINORITY_CAUSE : Fld := ⟨0x40000008, 6, 4⟩
def VX_MINORITY_DIGEST : Fld := ⟨0x40000008, 10, 1⟩
def VX_MINORITY_DELTA : Fld := ⟨0x40000008, 11, 1⟩
def VX_MINORITY_WORD : Fld := ⟨0x40000008, 16, 15⟩
def VX_MINORITY_VALID : Fld := ⟨0x40000008, 31, 1⟩
def VX_MINCYC_CYCLE : Fld := ⟨0x4000000C, 0, 32⟩
def VX_EXCL_HOUR (n : Nat) : Fld := ⟨0x40000010 + 4 * n, 0, 8⟩
def VX_EXCL_TOTAL (n : Nat) : Fld := ⟨0x40000010 + 4 * n, 8, 8⟩
def VX_EXCL_FAILS (n : Nat) : Fld := ⟨0x40000010 + 4 * n, 16, 2⟩
def VX_VOTES_COUNT : Fld := ⟨0x40000020, 0, 32⟩
def VX_NOMAJ_COUNT : Fld := ⟨0x40000024, 0, 32⟩
def VX_RSYNC_JOINER : Fld := ⟨0x40000028, 0, 2⟩
def VX_RSYNC_SOURCE : Fld := ⟨0x40000028, 2, 2⟩
def VX_RSYNC_ACTIVE : Fld := ⟨0x40000028, 4, 1⟩
def VX_RSYNC_ROUND : Fld := ⟨0x40000028, 8, 8⟩
def VX_RSYNCLEFT_KIB : Fld := ⟨0x4000002C, 0, 32⟩

/-! ### `SC_` -/

def SC_CTRL_EN : Fld := ⟨0x40010000, 0, 1⟩
def SC_STAT_NOTVALID : Fld := ⟨0x40010004, 0, 8⟩
def SC_STAT_TIMEOK : Fld := ⟨0x40010004, 8, 1⟩
def SC_TXID_CONNID (t : Nat) : Fld := ⟨0x40010100 + 16 * t, 0, 32⟩
def SC_TXCFG_LEN (t : Nat) : Fld := ⟨0x40010104 + 16 * t, 0, 7⟩
def SC_TXCFG_VALID (t : Nat) : Fld := ⟨0x40010104 + 16 * t, 7, 1⟩
def SC_TXCFG_TASK (t : Nat) : Fld := ⟨0x40010104 + 16 * t, 8, 4⟩
def SC_TXSEQ_SEQ (t : Nat) : Fld := ⟨0x40010108 + 16 * t, 0, 32⟩
def SC_TXCNT_COUNT (t : Nat) : Fld := ⟨0x4001010C + 16 * t, 0, 32⟩
def SC_RXID_CONNID (r : Nat) : Fld := ⟨0x40011000 + 32 * r, 0, 32⟩
def SC_RXCFG_LEN (r : Nat) : Fld := ⟨0x40011004 + 32 * r, 0, 7⟩
def SC_RXCFG_VALID (r : Nat) : Fld := ⟨0x40011004 + 32 * r, 7, 1⟩
def SC_RXCFG_TASK (r : Nat) : Fld := ⟨0x40011004 + 32 * r, 8, 4⟩
def SC_RXCFG_ACKREQ (r : Nat) : Fld := ⟨0x40011004 + 32 * r, 12, 1⟩
def SC_RXCFG_RECOV (r : Nat) : Fld := ⟨0x40011004 + 32 * r, 16, 8⟩
def SC_RXWIN_SEQWIN (r : Nat) : Fld := ⟨0x40011008 + 32 * r, 0, 16⟩
def SC_RXAGE_MAXAGE (r : Nat) : Fld := ⟨0x4001100C + 32 * r, 0, 20⟩
def SC_RXWDT_WDT (r : Nat) : Fld := ⟨0x40011010 + 32 * r, 0, 20⟩
def SC_RXSTAT_STATE (r : Nat) : Fld := ⟨0x40011014 + 32 * r, 0, 3⟩
def SC_RXSTAT_CAUSE (r : Nat) : Fld := ⟨0x40011014 + 32 * r, 4, 4⟩
def SC_RXSTAT_GOOD (r : Nat) : Fld := ⟨0x40011014 + 32 * r, 8, 8⟩
def SC_RXSEQ_SEQ (r : Nat) : Fld := ⟨0x40011018 + 32 * r, 0, 32⟩
def SC_RXFAIL_COUNT (r : Nat) : Fld := ⟨0x4001101C + 32 * r, 0, 32⟩
def SC_RXDUP_COUNT (r : Nat) : Fld := ⟨0x40013000 + 4 * r, 0, 32⟩

/-! ### `SF_` -/

def SF_CTRL_EN : Fld := ⟨0x40020000, 0, 1⟩
def SF_SEAL_RDK : Fld := ⟨0x40020004, 0, 8⟩
def SF_SEAL_RDF : Fld := ⟨0x40020004, 8, 8⟩
def SF_SEAL_ACC : Fld := ⟨0x40020004, 16, 8⟩
def SF_SEAL_STATE : Fld := ⟨0x40020004, 24, 2⟩
def SF_SEAL_TAMPER : Fld := ⟨0x40020004, 26, 1⟩
def SF_SEAL_LOOP : Fld := ⟨0x40020004, 27, 1⟩
def SF_SEAL_CMPL : Fld := ⟨0x40020004, 28, 1⟩
def SF_TAMPERT_SEC : Fld := ⟨0x40020008, 0, 32⟩
def SF_DRVCFG_FUNC (n : Nat) : Fld := ⟨0x40020040 + 64 * (n - 1), 0, 1⟩
def SF_DRVSTAT_STATE (n : Nat) : Fld := ⟨0x40020044 + 64 * (n - 1), 0, 3⟩
def SF_DRVSTAT_CAUSE (n : Nat) : Fld := ⟨0x40020044 + 64 * (n - 1), 4, 4⟩
def SF_DRVSTAT_CHA (n : Nat) : Fld := ⟨0x40020044 + 64 * (n - 1), 8, 1⟩
def SF_DRVSTAT_CHB (n : Nat) : Fld := ⟨0x40020044 + 64 * (n - 1), 9, 1⟩
def SF_DRVSTAT_INTERLOCK (n : Nat) : Fld := ⟨0x40020044 + 64 * (n - 1), 10, 1⟩
def SF_DRVSTAT_ENCFLT (n : Nat) : Fld := ⟨0x40020044 + 64 * (n - 1), 11, 1⟩
def SF_SPEED_V (n : Nat) : Fld := ⟨0x40020048 + 64 * (n - 1), 0, 32⟩
def SF_SS1DEC_DECEL (n : Nat) : Fld := ⟨0x4002004C + 64 * (n - 1), 0, 32⟩
def SF_SS1VTOL_VTOL (n : Nat) : Fld := ⟨0x40020050 + 64 * (n - 1), 0, 24⟩
def SF_SS1VSTILL_VSTILL (n : Nat) : Fld := ⟨0x40020054 + 64 * (n - 1), 0, 24⟩
def SF_SS1TIM_TMAX (n : Nat) : Fld := ⟨0x40020058 + 64 * (n - 1), 0, 14⟩
def SF_SS1TIM_DELAY (n : Nat) : Fld := ⟨0x40020058 + 64 * (n - 1), 14, 10⟩
def SF_SS1TIM_STILLT (n : Nat) : Fld := ⟨0x40020058 + 64 * (n - 1), 24, 8⟩
def SF_SS1OUT_REQOUT (n : Nat) : Fld := ⟨0x4002005C + 64 * (n - 1), 0, 5⟩
def SF_SS1OUT_REQPOL (n : Nat) : Fld := ⟨0x4002005C + 64 * (n - 1), 5, 1⟩
def SF_TEST_PULSE (n : Nat) : Fld := ⟨0x40020060 + 64 * (n - 1), 0, 10⟩
def SF_TEST_PERIOD (n : Nat) : Fld := ⟨0x40020060 + 64 * (n - 1), 10, 16⟩
def SF_STOPS_COUNT (n : Nat) : Fld := ⟨0x40020064 + 64 * (n - 1), 0, 32⟩
def SF_PAIRCFG_EN (k : Nat) : Fld := ⟨0x40020100 + 16 * k, 0, 1⟩
def SF_PAIRCFG_ANTI (k : Nat) : Fld := ⟨0x40020100 + 16 * k, 1, 1⟩
def SF_PAIRCFG_DT (k : Nat) : Fld := ⟨0x40020100 + 16 * k, 2, 9⟩
def SF_PAIRSTAT_VALUE (k : Nat) : Fld := ⟨0x40020104 + 16 * k, 0, 1⟩
def SF_PAIRSTAT_STATE (k : Nat) : Fld := ⟨0x40020104 + 16 * k, 1, 3⟩
def SF_PAIRSTAT_CHA (k : Nat) : Fld := ⟨0x40020104 + 16 * k, 4, 1⟩
def SF_PAIRSTAT_CHB (k : Nat) : Fld := ⟨0x40020104 + 16 * k, 5, 1⟩
def SF_PAIRSTAT_CAUSE (k : Nat) : Fld := ⟨0x40020104 + 16 * k, 6, 2⟩
def SF_PAIRTS_NS (k : Nat) : Fld := ⟨0x40020108 + 16 * k, 0, 32⟩
def SF_DISC_COUNT (k : Nat) : Fld := ⟨0x4002010C + 16 * k, 0, 32⟩

/-! ### `RB_` -/

def RB_CTRL_EN : Fld := ⟨0x40030000, 0, 1⟩
def RB_STAT_ENUMDONE : Fld := ⟨0x40030004, 0, 1⟩
def RB_STAT_WERR : Fld := ⟨0x40030004, 1, 1⟩
def RB_STAT_DISC : Fld := ⟨0x40030004, 2, 1⟩
def RB_STAT_PFCONF : Fld := ⟨0x40030004, 3, 1⟩
def RB_STAT_UNEXP : Fld := ⟨0x40030004, 4, 1⟩
def RB_STAT_RDERR : Fld := ⟨0x40030004, 5, 1⟩
def RB_STAT_TAGSFREE : Fld := ⟨0x40030004, 8, 6⟩
def RB_TIMER_DISCARD : Fld := ⟨0x40030008, 0, 14⟩
def RB_TIMER_RDTMO : Fld := ⟨0x40030008, 16, 10⟩
def RB_WSEQ_SEQ : Fld := ⟨0x4003000C, 0, 32⟩
def RB_DISCNT_COUNT : Fld := ⟨0x40030010, 0, 32⟩
def RB_UNEXP_COUNT : Fld := ⟨0x40030014, 0, 32⟩
def RB_WERRCNT_COUNT : Fld := ⟨0x40030018, 0, 32⟩
def RB_RDERRCNT_COUNT : Fld := ⟨0x4003001C, 0, 32⟩
def RB_BUSYCNT_COUNT : Fld := ⟨0x40030020, 0, 32⟩
def RB_PFDISC_COUNT : Fld := ⟨0x40030024, 0, 32⟩
def RB_EADDR_ADDR : Fld := ⟨0x40030040, 0, 32⟩
def RB_EINFO_SLOT : Fld := ⟨0x40030044, 0, 4⟩
def RB_EINFO_TAG : Fld := ⟨0x40030044, 4, 5⟩
def RB_EINFO_CODE : Fld := ⟨0x40030044, 9, 3⟩
def RB_EINFO_MATCH : Fld := ⟨0x40030044, 12, 1⟩
def RB_EINFO_TASK : Fld := ⟨0x40030044, 13, 4⟩
def RB_EINFO_SRC : Fld := ⟨0x40030044, 17, 2⟩
def RB_EINFO_AMBIG : Fld := ⟨0x40030044, 19, 1⟩
def RB_ESEQ_SEQ : Fld := ⟨0x40030048, 0, 32⟩
def RB_ECYC_CYCLE : Fld := ⟨0x4003004C, 0, 32⟩
def RB_CARD_PRESENT (s : Nat) : Fld := ⟨0x40030100 + 32 * s, 0, 1⟩
def RB_CARD_CFGOK (s : Nat) : Fld := ⟨0x40030100 + 32 * s, 1, 1⟩
def RB_CARD_NWIN (s : Nat) : Fld := ⟨0x40030100 + 32 * s, 2, 2⟩
def RB_CARD_REV (s : Nat) : Fld := ⟨0x40030100 + 32 * s, 8, 8⟩
def RB_CARD_MODEL (s : Nat) : Fld := ⟨0x40030100 + 32 * s, 16, 16⟩
def RB_CLASS_CLASS (s : Nat) : Fld := ⟨0x40030104 + 32 * s, 0, 16⟩
def RB_WBASE_VALID (s w : Nat) : Fld := ⟨0x40030108 + 32 * s + 8 * w, 0, 1⟩
def RB_WBASE_BASE (s w : Nat) : Fld := ⟨0x40030108 + 32 * s + 8 * w, 12, 20⟩
def RB_WCFG_PAGES (s w : Nat) : Fld := ⟨0x4003010C + 32 * s + 8 * w, 0, 20⟩
def RB_WCFG_RS (s w : Nat) : Fld := ⟨0x4003010C + 32 * s + 8 * w, 20, 1⟩
def RB_WCFG_PF (s w : Nat) : Fld := ⟨0x4003010C + 32 * s + 8 * w, 21, 1⟩
def RB_WCFG_PFEFF (s w : Nat) : Fld := ⟨0x4003010C + 32 * s + 8 * w, 22, 1⟩
def RB_WCFG_CONFLICT (s w : Nat) : Fld := ⟨0x4003010C + 32 * s + 8 * w, 23, 1⟩
def RB_WHIST_SEQ (i : Nat) : Fld := ⟨0x40034000 + 16 * i, 0, 32⟩
def RB_WHADDR_ADDR (i : Nat) : Fld := ⟨0x40034004 + 16 * i, 0, 32⟩
def RB_WHINFO_SLOT (i : Nat) : Fld := ⟨0x40034008 + 16 * i, 0, 4⟩
def RB_WHINFO_LEN (i : Nat) : Fld := ⟨0x40034008 + 16 * i, 4, 4⟩
def RB_WHINFO_TASK (i : Nat) : Fld := ⟨0x40034008 + 16 * i, 8, 4⟩
def RB_WHINFO_SRC (i : Nat) : Fld := ⟨0x40034008 + 16 * i, 12, 2⟩
def RB_WHCYC_CYCLE (i : Nat) : Fld := ⟨0x4003400C + 16 * i, 0, 32⟩

/-! ### `UN_` -/

def UN_CFG_UNIT : Fld := ⟨0x40040000, 0, 16⟩
def UN_CFG_PARTNER : Fld := ⟨0x40040000, 16, 4⟩
def UN_CFG_WITNESS : Fld := ⟨0x40040000, 20, 4⟩
def UN_CFG_BWITNESS : Fld := ⟨0x40040000, 24, 4⟩
def UN_CFG_BWEN : Fld := ⟨0x40040000, 28, 1⟩
def UN_CFG_R1 : Fld := ⟨0x40040000, 29, 1⟩
def UN_CFG_R2 : Fld := ⟨0x40040000, 30, 1⟩
def UN_CFG_EN : Fld := ⟨0x40040000, 31, 1⟩
def UN_STAT_HOLD : Fld := ⟨0x40040004, 0, 1⟩
def UN_STAT_OWNIMG : Fld := ⟨0x40040004, 1, 1⟩
def UN_STAT_PLK1 : Fld := ⟨0x40040004, 2, 1⟩
def UN_STAT_PLK2 : Fld := ⟨0x40040004, 3, 1⟩
def UN_STAT_GPATH1 : Fld := ⟨0x40040004, 4, 1⟩
def UN_STAT_GPATH2 : Fld := ⟨0x40040004, 5, 1⟩
def UN_STAT_PELIG : Fld := ⟨0x40040004, 6, 1⟩
def UN_STAT_RSYNC : Fld := ⟨0x40040004, 7, 1⟩
def UN_LEASE_NS : Fld := ⟨0x40040008, 0, 32⟩
def UN_LSEQ_LSEQ : Fld := ⟨0x4004000C, 0, 32⟩
def UN_VERDICT_VERDICT : Fld := ⟨0x40040010, 0, 2⟩
def UN_VERDICT_BACKUP : Fld := ⟨0x40040010, 2, 1⟩
def UN_VERDICT_NODE : Fld := ⟨0x40040010, 4, 4⟩
def UN_HEALTH_CHECKS : Fld := ⟨0x40040014, 0, 16⟩
def UN_HEALTH_ELIG : Fld := ⟨0x40040014, 16, 2⟩
def UN_PHEALTH_CHECKS : Fld := ⟨0x40040018, 0, 16⟩
def UN_PHEALTH_ELIG : Fld := ⟨0x40040018, 16, 2⟩
def UN_TAKEOVER_COUNT : Fld := ⟨0x40040020, 0, 32⟩
def UN_NOWATCH_COUNT : Fld := ⟨0x40040024, 0, 32⟩
def UN_FWDLOST_COUNT : Fld := ⟨0x40040028, 0, 32⟩
def UN_GATEDROP_COUNT : Fld := ⟨0x4004002C, 0, 32⟩
def UN_WUNIT_UNIT (w : Nat) : Fld := ⟨0x40040100 + 16 * w, 0, 16⟩
def UN_WUNIT_NODEA (w : Nat) : Fld := ⟨0x40040100 + 16 * w, 16, 4⟩
def UN_WUNIT_NODEB (w : Nat) : Fld := ⟨0x40040100 + 16 * w, 20, 4⟩
def UN_WUNIT_BACKUP (w : Nat) : Fld := ⟨0x40040100 + 16 * w, 24, 1⟩
def UN_WUNIT_VALID (w : Nat) : Fld := ⟨0x40040100 + 16 * w, 25, 1⟩
def UN_WSTAT_HOLDER (w : Nat) : Fld := ⟨0x40040104 + 16 * w, 0, 4⟩
def UN_WSTAT_HELD (w : Nat) : Fld := ⟨0x40040104 + 16 * w, 4, 1⟩
def UN_WSTAT_VERDICT (w : Nat) : Fld := ⟨0x40040104 + 16 * w, 5, 2⟩
def UN_WSTAT_LEARN (w : Nat) : Fld := ⟨0x40040104 + 16 * w, 7, 1⟩
def UN_WLSEQ_LSEQ (w : Nat) : Fld := ⟨0x40040108 + 16 * w, 0, 32⟩
def UN_WGRANT_COUNT (w : Nat) : Fld := ⟨0x4004010C + 16 * w, 0, 32⟩

/-! ### `FC_` -/

def FC_STAT_PEND1 : Fld := ⟨0x40050000, 0, 1⟩
def FC_STAT_PEND2 : Fld := ⟨0x40050000, 1, 1⟩
def FC_STAT_PEND3 : Fld := ⟨0x40050000, 2, 1⟩
def FC_STAT_HALT : Fld := ⟨0x40050000, 3, 1⟩
def FC_STAT_FROZEN : Fld := ⟨0x40050000, 4, 1⟩
def FC_STAT_PATHFAIL : Fld := ⟨0x40050000, 5, 1⟩
def FC_FIRST_SRC (c : Nat) : Fld := ⟨0x40050004 + 4 * (c - 1), 0, 6⟩
def FC_FIRST_LANE (c : Nat) : Fld := ⟨0x40050004 + 4 * (c - 1), 6, 2⟩
def FC_FIRST_ESC (c : Nat) : Fld := ⟨0x40050004 + 4 * (c - 1), 8, 1⟩
def FC_FIRST_CODE (c : Nat) : Fld := ⟨0x40050004 + 4 * (c - 1), 16, 16⟩
def FC_HALTSRC_SRC : Fld := ⟨0x40050010, 0, 6⟩
def FC_HALTSRC_LANE : Fld := ⟨0x40050010, 6, 2⟩
def FC_HALTSRC_ESC : Fld := ⟨0x40050010, 8, 1⟩
def FC_HALTSRC_CODE : Fld := ⟨0x40050010, 16, 16⟩
def FC_CNT_COUNT (c : Nat) : Fld := ⟨0x40050020 + 4 * c, 0, 32⟩
def FC_ESCCNT_COUNT : Fld := ⟨0x40050034, 0, 32⟩
def FC_HLOST_COUNT : Fld := ⟨0x40050038, 0, 32⟩
def FC_HPTR_HEAD : Fld := ⟨0x4005003C, 0, 5⟩
def FC_HPTR_FREEZE : Fld := ⟨0x4005003C, 8, 5⟩
def FC_SSTAT_PATHOK (s : Nat) : Fld := ⟨0x40050100 + 16 * s, 0, 1⟩
def FC_SSTAT_PATHFAIL (s : Nat) : Fld := ⟨0x40050100 + 16 * s, 1, 1⟩
def FC_SSTAT_BUSY (s : Nat) : Fld := ⟨0x40050100 + 16 * s, 2, 1⟩
def FC_SSTAT_OUT (s : Nat) : Fld := ⟨0x40050100 + 16 * s, 3, 1⟩
def FC_SSTAT_LASTCLS (s : Nat) : Fld := ⟨0x40050100 + 16 * s, 4, 3⟩
def FC_SSTAT_REACTOK (s : Nat) : Fld := ⟨0x40050100 + 16 * s, 7, 1⟩
def FC_SSTAT_LASTCODE (s : Nat) : Fld := ⟨0x40050100 + 16 * s, 16, 16⟩
def FC_FORCE_GO (s : Nat) : Fld := ⟨0x40050104 + 16 * s, 0, 1⟩
def FC_FORCE_CLASS (s : Nat) : Fld := ⟨0x40050104 + 16 * s, 1, 3⟩
def FC_FORCE_PATH (s : Nat) : Fld := ⟨0x40050104 + 16 * s, 4, 1⟩
def FC_FORCE_CODE (s : Nat) : Fld := ⟨0x40050104 + 16 * s, 16, 16⟩
def FC_SCNT_COUNT (s : Nat) : Fld := ⟨0x40050108 + 16 * s, 0, 32⟩
def FC_HIST_WORD (h k : Nat) : Fld := ⟨0x40051000 + 64 * h + 4 * k, 0, 32⟩

/-! ### `EV_` -/

def EV_STAT_FULL : Fld := ⟨0x40060000, 0, 1⟩
def EV_STAT_QOVF : Fld := ⟨0x40060000, 1, 1⟩
def EV_STAT_CLRBUSY : Fld := ⟨0x40060000, 2, 1⟩
def EV_STAT_CLRPEND : Fld := ⟨0x40060000, 3, 1⟩
def EV_FIRST_SEQ : Fld := ⟨0x40060004, 0, 32⟩
def EV_LAST_SEQ : Fld := ⟨0x40060008, 0, 32⟩
def EV_COUNT_COUNT : Fld := ⟨0x4006000C, 0, 23⟩
def EV_SUPPR_COUNT : Fld := ⟨0x40060010, 0, 32⟩
def EV_STAGE_COUNT : Fld := ⟨0x40060014, 0, 13⟩
def EV_CURSOR_SEQ : Fld := ⟨0x40060018, 0, 32⟩
def EV_WIN_WORD (k : Nat) : Fld := ⟨0x40061000 + 4 * k, 0, 32⟩

/-! ### `UP_` -/

def UP_STAT_PHASE : Fld := ⟨0x40070000, 0, 3⟩
def UP_STAT_ACTBANK : Fld := ⟨0x40070000, 3, 1⟩
def UP_STAT_BUILT : Fld := ⟨0x40070000, 4, 1⟩
def UP_STAT_TRIAL : Fld := ⟨0x40070000, 5, 1⟩
def UP_STAT_TRIES : Fld := ⟨0x40070000, 6, 2⟩
def UP_CHUNKS_DONE : Fld := ⟨0x40070004, 0, 13⟩
def UP_CHUNKS_TOTAL : Fld := ⟨0x40070004, 16, 13⟩
def UP_VERSION_VERSION : Fld := ⟨0x40070008, 0, 32⟩
def UP_TGTVER_VERSION : Fld := ⟨0x4007000C, 0, 32⟩
def UP_SETVER_SETCUR : Fld := ⟨0x40070010, 0, 16⟩
def UP_SETVER_SETMIN : Fld := ⟨0x40070010, 16, 16⟩
def UP_FLOOR_VERSION : Fld := ⟨0x40070014, 0, 32⟩
def UP_BUILD_BYTES : Fld := ⟨0x40070018, 0, 32⟩
def UP_CHFAIL_COUNT : Fld := ⟨0x4007001C, 0, 32⟩
def UP_FALLBACK_REASON : Fld := ⟨0x40070020, 0, 4⟩
def UP_FALLBACK_COUNT : Fld := ⟨0x40070020, 16, 16⟩
def UP_BITMAP_BITS (k : Nat) : Fld := ⟨0x40070100 + 4 * k, 0, 32⟩

/-! ### `MB_` -/

def MB_DOOR_GO (c : Nat) : Fld := ⟨0x40080000 + 0x1000 * c + 0xC00, 0, 1⟩
def MB_STAT_STATE (c : Nat) : Fld := ⟨0x40080000 + 0x1000 * c + 0xC04, 0, 2⟩
def MB_STAT_REJ (c : Nat) : Fld := ⟨0x40080000 + 0x1000 * c + 0xC04, 2, 1⟩
def MB_STAT_REJST (c : Nat) : Fld := ⟨0x40080000 + 0x1000 * c + 0xC04, 8, 8⟩
def MB_STAT_CHRST (c : Nat) : Fld := ⟨0x40080000 + 0x1000 * c + 0xC04, 16, 1⟩
def MB_STAT_EN (c : Nat) : Fld := ⟨0x40080000 + 0x1000 * c + 0xC04, 17, 1⟩
def MB_STAT_VOTED (c : Nat) : Fld := ⟨0x40080000 + 0x1000 * c + 0xC04, 18, 1⟩
def MB_STAT_AUTH (c : Nat) : Fld := ⟨0x40080000 + 0x1000 * c + 0xC04, 19, 1⟩
def MB_CTRL_IRQDONE (c : Nat) : Fld := ⟨0x40080000 + 0x1000 * c + 0xC08, 0, 1⟩
def MB_CTRL_IRQEVT (c : Nat) : Fld := ⟨0x40080000 + 0x1000 * c + 0xC08, 1, 1⟩
def MB_EVMASK_CAT (c : Nat) : Fld := ⟨0x40080000 + 0x1000 * c + 0xC0C, 0, 8⟩
def MB_EVHEAD_HEAD (c : Nat) : Fld := ⟨0x40080000 + 0x1000 * c + 0xC10, 0, 5⟩
def MB_EVTAIL_TAIL (c : Nat) : Fld := ⟨0x40080000 + 0x1000 * c + 0xC14, 0, 5⟩
def MB_EVSTAT_COUNT (c : Nat) : Fld := ⟨0x40080000 + 0x1000 * c + 0xC18, 0, 6⟩
def MB_EVSTAT_OVF (c : Nat) : Fld := ⟨0x40080000 + 0x1000 * c + 0xC18, 6, 1⟩
def MB_EVLOST_COUNT (c : Nat) : Fld := ⟨0x40080000 + 0x1000 * c + 0xC1C, 0, 32⟩
def MB_CMDCNT_COUNT (c : Nat) : Fld := ⟨0x40080000 + 0x1000 * c + 0xC20, 0, 32⟩
def MB_SREJCNT_COUNT (c : Nat) : Fld := ⟨0x40080000 + 0x1000 * c + 0xC24, 0, 32⟩
def MB_BUSYCNT_COUNT (c : Nat) : Fld := ⟨0x40080000 + 0x1000 * c + 0xC28, 0, 32⟩
def MB_LAST_CODE (c : Nat) : Fld := ⟨0x40080000 + 0x1000 * c + 0xC2C, 0, 16⟩
def MB_LAST_TAG (c : Nat) : Fld := ⟨0x40080000 + 0x1000 * c + 0xC2C, 16, 8⟩
def MB_LAST_STATUS (c : Nat) : Fld := ⟨0x40080000 + 0x1000 * c + 0xC2C, 24, 8⟩

/-! ### `LC_` -/

def LC_MODE_MODE : Fld := ⟨0x40090000, 0, 4⟩
def LC_MODE_PREV : Fld := ⟨0x40090000, 4, 4⟩
def LC_MODE_LEVEL : Fld := ⟨0x40090000, 8, 3⟩
def LC_MODE_FISO : Fld := ⟨0x40090000, 11, 1⟩
def LC_MODE_ROW : Fld := ⟨0x40090000, 16, 5⟩
def LC_STATE_LCS : Fld := ⟨0x40090004, 0, 3⟩
def LC_STATE_WIPEPEND : Fld := ⟨0x40090004, 3, 1⟩
def LC_STATE_DBGPERM : Fld := ⟨0x40090004, 4, 1⟩
def LC_RSTCAUSE_CAUSE : Fld := ⟨0x40090008, 0, 3⟩
def LC_RSTCAUSE_CHAN : Fld := ⟨0x40090008, 3, 3⟩
def LC_PWRCYC_COUNT : Fld := ⟨0x4009000C, 0, 32⟩
def LC_OPMSLO_MS : Fld := ⟨0x40090010, 0, 32⟩
def LC_OPMSHI_MS : Fld := ⟨0x40090014, 0, 32⟩
def LC_BOOTMS_MS : Fld := ⟨0x40090018, 0, 16⟩
def LC_NEXT_KIND : Fld := ⟨0x4009001C, 0, 2⟩
def LC_WAKE_WAKEDI : Fld := ⟨0x40090020, 0, 5⟩
def LC_WAKE_EDGE : Fld := ⟨0x40090020, 5, 1⟩
def LC_WAKE_RTCEN : Fld := ⟨0x40090020, 6, 1⟩
def LC_WAKET_SEC : Fld := ⟨0x40090024, 0, 32⟩
def LC_PARKSTAT_PARKED : Fld := ⟨0x40090028, 0, 1⟩
def LC_PARKSTAT_LOST : Fld := ⟨0x40090028, 1, 1⟩
def LC_PARKSTAT_WAKESRC : Fld := ⟨0x40090028, 2, 2⟩
def LC_FACT_WORD (k : Nat) : Fld := ⟨0x40090100 + 4 * k, 0, 32⟩
def LC_TAG_WORD (k : Nat) : Fld := ⟨0x40090200 + 4 * k, 0, 32⟩

/-! ### `TU_` -/

def TU_NS_NS : Fld := ⟨0x50000000, 0, 32⟩
def TU_ERA_ERA : Fld := ⟨0x50000004, 0, 32⟩
def TU_ERANEXT_ERA : Fld := ⟨0x50000008, 0, 32⟩
def TU_INC_F_F : Fld := ⟨0x5000000C, 0, 32⟩
def TU_INC_I_I : Fld := ⟨0x50000010, 0, 4⟩
def TU_STEP_STEP : Fld := ⟨0x50000014, 0, 32⟩
def TU_SNAP_GO : Fld := ⟨0x50000018, 0, 1⟩
def TU_SNAPNS_NS : Fld := ⟨0x5000001C, 0, 32⟩
def TU_SNAPERA_ERA : Fld := ⟨0x50000020, 0, 32⟩
def TU_SNAPFR_FRAC : Fld := ⟨0x50000024, 0, 32⟩
def TU_STAT_SSTATE : Fld := ⟨0x50000028, 0, 3⟩
def TU_STAT_SYNC : Fld := ⟨0x50000028, 3, 1⟩
def TU_STAT_ARMED : Fld := ⟨0x50000028, 4, 1⟩
def TU_STAT_ERAMISS : Fld := ⟨0x50000028, 5, 1⟩
def TU_STAT_STEPPED : Fld := ⟨0x50000028, 6, 1⟩
def TU_STAT_INCSTALE : Fld := ⟨0x50000028, 7, 1⟩
def TU_OFFSET_NS : Fld := ⟨0x5000002C, 0, 32⟩
def TU_TIOCFG_DIR1 : Fld := ⟨0x50000030, 0, 2⟩
def TU_TIOCFG_DIR2 : Fld := ⟨0x50000030, 2, 2⟩
def TU_TIOCFG_DIR3 : Fld := ⟨0x50000030, 4, 2⟩
def TU_TIOCFG_DIR4 : Fld := ⟨0x50000030, 6, 2⟩
def TU_PCAL_TXLAT (n : Nat) : Fld := ⟨0x50000040 + 4 * n, 0, 16⟩
def TU_PCAL_RXLAT (n : Nat) : Fld := ⟨0x50000040 + 4 * n, 16, 16⟩
def TU_CAPCFG_SRC (n : Nat) : Fld := ⟨0x50000100 + 16 * n, 0, 6⟩
def TU_CAPCFG_EDGE (n : Nat) : Fld := ⟨0x50000100 + 16 * n, 6, 2⟩
def TU_CAPCFG_NODE (n : Nat) : Fld := ⟨0x50000100 + 16 * n, 8, 8⟩
def TU_CAPCFG_EN (n : Nat) : Fld := ⟨0x50000100 + 16 * n, 16, 1⟩
def TU_CAP_NS (n : Nat) : Fld := ⟨0x50000104 + 16 * n, 0, 32⟩
def TU_CAPSTAT_COUNT (n : Nat) : Fld := ⟨0x50000108 + 16 * n, 0, 16⟩
def TU_CAPSTAT_VALID (n : Nat) : Fld := ⟨0x50000108 + 16 * n, 16, 1⟩
def TU_CAPSTAT_STEPPED (n : Nat) : Fld := ⟨0x50000108 + 16 * n, 17, 1⟩
def TU_CAPERA_ERA (n : Nat) : Fld := ⟨0x5000010C + 16 * n, 0, 32⟩
def TU_TRGCFG_TGT (n : Nat) : Fld := ⟨0x50000200 + 16 * n, 0, 6⟩
def TU_TRGCFG_ACTION (n : Nat) : Fld := ⟨0x50000200 + 16 * n, 6, 2⟩
def TU_TRGCFG_WIDTH (n : Nat) : Fld := ⟨0x50000200 + 16 * n, 8, 16⟩
def TU_TRGCFG_EN (n : Nat) : Fld := ⟨0x50000200 + 16 * n, 24, 1⟩
def TU_TRGCFG_APP (n : Nat) : Fld := ⟨0x50000200 + 16 * n, 25, 1⟩
def TU_TRG_NS (n : Nat) : Fld := ⟨0x50000204 + 16 * n, 0, 32⟩
def TU_TRGPER_NS (n : Nat) : Fld := ⟨0x50000208 + 16 * n, 0, 32⟩
def TU_TRGSTAT_ARMED (n : Nat) : Fld := ⟨0x5000020C + 16 * n, 0, 1⟩
def TU_TRGSTAT_LATE (n : Nat) : Fld := ⟨0x5000020C + 16 * n, 1, 1⟩
def TU_TRGSTAT_SKIP (n : Nat) : Fld := ⟨0x5000020C + 16 * n, 2, 1⟩
def TU_TRGSTAT_REJ (n : Nat) : Fld := ⟨0x5000020C + 16 * n, 3, 1⟩
def TU_TRGSTAT_FIRED (n : Nat) : Fld := ⟨0x5000020C + 16 * n, 16, 16⟩

/-! ### `BZ_` -/

def BZ_CTRL_EN (r : Nat) : Fld := ⟨0x50010000 + 0x10000 * r + 0x0, 0, 1⟩
def BZ_CTRL_MCAP (r : Nat) : Fld := ⟨0x50010000 + 0x10000 * r + 0x0, 1, 1⟩
def BZ_CTRL_RANK (r : Nat) : Fld := ⟨0x50010000 + 0x10000 * r + 0x0, 2, 2⟩
def BZ_CTRL_LRANK (r : Nat) : Fld := ⟨0x50010000 + 0x10000 * r + 0x0, 4, 1⟩
def BZ_CTRL_MODE (r : Nat) : Fld := ⟨0x50010000 + 0x10000 * r + 0x0, 5, 1⟩
def BZ_CTRL_NODE (r : Nat) : Fld := ⟨0x50010000 + 0x10000 * r + 0x0, 8, 4⟩
def BZ_CTRL_NODES (r : Nat) : Fld := ⟨0x50010000 + 0x10000 * r + 0x0, 12, 5⟩
def BZ_STAT_STATE (r : Nat) : Fld := ⟨0x50010000 + 0x10000 * r + 0x4, 0, 3⟩
def BZ_STAT_CLOSING (r : Nat) : Fld := ⟨0x50010000 + 0x10000 * r + 0x4, 3, 1⟩
def BZ_STAT_SCHERR (r : Nat) : Fld := ⟨0x50010000 + 0x10000 * r + 0x4, 4, 1⟩
def BZ_STAT_LATE (r : Nat) : Fld := ⟨0x50010000 + 0x10000 * r + 0x4, 5, 1⟩
def BZ_STAT_WRAP (r : Nat) : Fld := ⟨0x50010000 + 0x10000 * r + 0x4, 6, 1⟩
def BZ_NENT_COUNT (r : Nat) : Fld := ⟨0x50010000 + 0x10000 * r + 0x8, 0, 13⟩
def BZ_SCHEDID_ID (r : Nat) : Fld := ⟨0x50010000 + 0x10000 * r + 0xC, 0, 16⟩
def BZ_SCHERR_ENTRY (r : Nat) : Fld := ⟨0x50010000 + 0x10000 * r + 0x10, 0, 12⟩
def BZ_SCHERR_RULE (r : Nat) : Fld := ⟨0x50010000 + 0x10000 * r + 0x10, 16, 4⟩
def BZ_MDELAY_NS (r : Nat) : Fld := ⟨0x50010000 + 0x10000 * r + 0x14, 0, 32⟩
def BZ_CLOSE_NS (r : Nat) : Fld := ⟨0x50010000 + 0x10000 * r + 0x18, 0, 32⟩
def BZ_MARK_NODE (r : Nat) : Fld := ⟨0x50010000 + 0x10000 * r + 0x1C, 0, 4⟩
def BZ_MARK_RANK (r : Nat) : Fld := ⟨0x50010000 + 0x10000 * r + 0x1C, 4, 2⟩
def BZ_MARK_STANDIN (r : Nat) : Fld := ⟨0x50010000 + 0x10000 * r + 0x1C, 6, 1⟩
def BZ_MARK_VALID (r : Nat) : Fld := ⟨0x50010000 + 0x10000 * r + 0x1C, 7, 1⟩
def BZ_MARKTS_NS (r : Nat) : Fld := ⟨0x50010000 + 0x10000 * r + 0x20, 0, 32⟩
def BZ_RXOK_COUNT (r : Nat) : Fld := ⟨0x50010000 + 0x10000 * r + 0x40, 0, 32⟩
def BZ_RXREJ_COUNT (r : Nat) : Fld := ⟨0x50010000 + 0x10000 * r + 0x44, 0, 32⟩
def BZ_CRCERR_COUNT (r : Nat) : Fld := ⟨0x50010000 + 0x10000 * r + 0x48, 0, 32⟩
def BZ_NOMARK_COUNT (r : Nat) : Fld := ⟨0x50010000 + 0x10000 * r + 0x4C, 0, 32⟩
def BZ_STANDIN_COUNT (r : Nat) : Fld := ⟨0x50010000 + 0x10000 * r + 0x50, 0, 32⟩
def BZ_NOREPLY_COUNT (r : Nat) : Fld := ⟨0x50010000 + 0x10000 * r + 0x54, 0, 32⟩
def BZ_LATEREC_COUNT (r : Nat) : Fld := ⟨0x50010000 + 0x10000 * r + 0x58, 0, 32⟩
def BZ_WRAPDROP_COUNT (r : Nat) : Fld := ⟨0x50010000 + 0x10000 * r + 0x5C, 0, 32⟩
def BZ_SENTA_OFFSET (r e : Nat) : Fld := ⟨0x50010000 + 0x10000 * r + 0x8000 + 8 * e, 0, 16⟩
def BZ_SENTA_BCYC (r e : Nat) : Fld := ⟨0x50010000 + 0x10000 * r + 0x8000 + 8 * e, 16, 6⟩
def BZ_SENTA_KIND (r e : Nat) : Fld := ⟨0x50010000 + 0x10000 * r + 0x8000 + 8 * e, 22, 2⟩
def BZ_SENTA_NODE (r e : Nat) : Fld := ⟨0x50010000 + 0x10000 * r + 0x8000 + 8 * e, 24, 4⟩
def BZ_SENTA_SYNC (r e : Nat) : Fld := ⟨0x50010000 + 0x10000 * r + 0x8000 + 8 * e, 28, 1⟩
def BZ_SENTA_LIGHT (r e : Nat) : Fld := ⟨0x50010000 + 0x10000 * r + 0x8000 + 8 * e, 29, 1⟩
def BZ_SENTA_WATCH (r e : Nat) : Fld := ⟨0x50010000 + 0x10000 * r + 0x8000 + 8 * e, 30, 1⟩
def BZ_SENTB_LEN (r e : Nat) : Fld := ⟨0x50010000 + 0x10000 * r + 0x8004 + 8 * e, 0, 11⟩
def BZ_SYNCCFG_TMRANK (r : Nat) : Fld := ⟨0x50010000 + 0x10000 * r + 0x100, 0, 3⟩
def BZ_SYNCCFG_R0VALID (r : Nat) : Fld := ⟨0x50010000 + 0x10000 * r + 0x100, 3, 1⟩
def BZ_SYNCCFG_R0NODE (r : Nat) : Fld := ⟨0x50010000 + 0x10000 * r + 0x100, 4, 4⟩
def BZ_JOIN_PHASE (r : Nat) : Fld := ⟨0x50010000 + 0x10000 * r + 0x104, 0, 3⟩
def BZ_JOIN_MARKS (r : Nat) : Fld := ⟨0x50010000 + 0x10000 * r + 0x104, 3, 6⟩
def BZ_OFFSET_O (r : Nat) : Fld := ⟨0x50010000 + 0x10000 * r + 0x108, 0, 32⟩
def BZ_RATE_R (r : Nat) : Fld := ⟨0x50010000 + 0x10000 * r + 0x10C, 0, 32⟩
def BZ_SYNCSTAT_USED (r : Nat) : Fld := ⟨0x50010000 + 0x10000 * r + 0x110, 0, 4⟩
def BZ_SYNCSTAT_SEEN (r : Nat) : Fld := ⟨0x50010000 + 0x10000 * r + 0x110, 4, 4⟩
def BZ_SYNCSTAT_PRESENT (r : Nat) : Fld := ⟨0x50010000 + 0x10000 * r + 0x110, 8, 1⟩
def BZ_SYNCSTAT_SETTLED (r : Nat) : Fld := ⟨0x50010000 + 0x10000 * r + 0x110, 9, 1⟩
def BZ_SYNCSTAT_HOLD (r : Nat) : Fld := ⟨0x50010000 + 0x10000 * r + 0x110, 10, 1⟩
def BZ_SYNCSTAT_SYNCTX (r : Nat) : Fld := ⟨0x50010000 + 0x10000 * r + 0x110, 11, 1⟩
def BZ_SYNCEXCL_NODES (r : Nat) : Fld := ⟨0x50010000 + 0x10000 * r + 0x114, 0, 16⟩
def BZ_POS_NS (r : Nat) : Fld := ⟨0x50010000 + 0x10000 * r + 0x118, 0, 31⟩
def BZ_POS_VALID (r : Nat) : Fld := ⟨0x50010000 + 0x10000 * r + 0x118, 31, 1⟩
def BZ_MOFF_NS (r : Nat) : Fld := ⟨0x50010000 + 0x10000 * r + 0x11C, 0, 32⟩
def BZ_SEGA_DELAY (r : Nat) : Fld := ⟨0x50010000 + 0x10000 * r + 0x120, 0, 16⟩
def BZ_SEGA_VALID (r : Nat) : Fld := ⟨0x50010000 + 0x10000 * r + 0x120, 16, 1⟩
def BZ_SEGA_LOS (r : Nat) : Fld := ⟨0x50010000 + 0x10000 * r + 0x120, 17, 1⟩
def BZ_SEGB_DELAY (r : Nat) : Fld := ⟨0x50010000 + 0x10000 * r + 0x124, 0, 16⟩
def BZ_SEGB_VALID (r : Nat) : Fld := ⟨0x50010000 + 0x10000 * r + 0x124, 16, 1⟩
def BZ_SEGB_LOS (r : Nat) : Fld := ⟨0x50010000 + 0x10000 * r + 0x124, 17, 1⟩
def BZ_FOLD_STATE (r : Nat) : Fld := ⟨0x50010000 + 0x10000 * r + 0x128, 0, 2⟩
def BZ_FOLD_NOTICE (r : Nat) : Fld := ⟨0x50010000 + 0x10000 * r + 0x128, 2, 1⟩
def BZ_FOLD_READY (r : Nat) : Fld := ⟨0x50010000 + 0x10000 * r + 0x128, 3, 1⟩
def BZ_GSTAT_VIOL (r : Nat) : Fld := ⟨0x50010000 + 0x10000 * r + 0x12C, 0, 1⟩
def BZ_GSTAT_ALIGNED (r : Nat) : Fld := ⟨0x50010000 + 0x10000 * r + 0x12C, 1, 1⟩
def BZ_GSTAT_TABERR (r : Nat) : Fld := ⟨0x50010000 + 0x10000 * r + 0x12C, 2, 1⟩
def BZ_GVIOL_COUNT (r : Nat) : Fld := ⟨0x50010000 + 0x10000 * r + 0x130, 0, 32⟩
def BZ_GVHOUR_COUNT (r : Nat) : Fld := ⟨0x50010000 + 0x10000 * r + 0x134, 0, 8⟩
def BZ_COLDSENT_COUNT (r : Nat) : Fld := ⟨0x50010000 + 0x10000 * r + 0x138, 0, 32⟩
def BZ_COLLIDE_COUNT (r : Nat) : Fld := ⟨0x50010000 + 0x10000 * r + 0x13C, 0, 32⟩
def BZ_FOLDS_COUNT (r : Nat) : Fld := ⟨0x50010000 + 0x10000 * r + 0x140, 0, 32⟩
def BZ_MARKLOST_COUNT (r : Nat) : Fld := ⟨0x50010000 + 0x10000 * r + 0x144, 0, 32⟩
def BZ_SYNCREJ_COUNT (r : Nat) : Fld := ⟨0x50010000 + 0x10000 * r + 0x148, 0, 32⟩
def BZ_REF_NODE (r : Nat) : Fld := ⟨0x50010000 + 0x10000 * r + 0x14C, 0, 4⟩
def BZ_REF_RANK (r : Nat) : Fld := ⟨0x50010000 + 0x10000 * r + 0x14C, 4, 2⟩
def BZ_REF_VALID (r : Nat) : Fld := ⟨0x50010000 + 0x10000 * r + 0x14C, 6, 1⟩
def BZ_DEV_M (r s : Nat) : Fld := ⟨0x50010000 + 0x10000 * r + 0x180 + 4 * s, 0, 32⟩

/-! ### `EN_` -/

def EN_CTRL_PDEN : Fld := ⟨0x50030000, 0, 1⟩
def EN_CTRL_ETHSVC : Fld := ⟨0x50030000, 1, 1⟩
def EN_CTRL_SVCVID : Fld := ⟨0x50030000, 16, 12⟩
def EN_PTPCFG_CLOCK : Fld := ⟨0x50030004, 0, 2⟩
def EN_PTPCFG_TCMODE : Fld := ⟨0x50030004, 2, 2⟩
def EN_PTPCFG_PROFILE : Fld := ⟨0x50030004, 4, 2⟩
def EN_PTPCFG_TRANSPORT : Fld := ⟨0x50030004, 6, 2⟩
def EN_PTPCFG_DOMAIN : Fld := ⟨0x50030004, 8, 8⟩
def EN_PTPCFG_PORTS : Fld := ⟨0x50030004, 16, 4⟩
def EN_PTPCFG_LOGSYNC : Fld := ⟨0x50030004, 20, 4⟩
def EN_PTPPRIO_PRIORITY1 : Fld := ⟨0x50030008, 0, 8⟩
def EN_PTPPRIO_PRIORITY2 : Fld := ⟨0x50030008, 8, 8⟩
def EN_PTPSTAT_SLAVE : Fld := ⟨0x5003000C, 0, 3⟩
def EN_PTPSTAT_PRESENT : Fld := ⟨0x5003000C, 3, 1⟩
def EN_PTPSTAT_SETTLED : Fld := ⟨0x5003000C, 4, 1⟩
def EN_PTPSTAT_GMCHG : Fld := ⟨0x5003000C, 5, 1⟩
def EN_PTPOFF_O : Fld := ⟨0x50030010, 0, 32⟩
def EN_PTPRATE_R : Fld := ⟨0x50030014, 0, 32⟩
def EN_GMID0_ID : Fld := ⟨0x50030018, 0, 32⟩
def EN_GMID1_ID : Fld := ⟨0x5003001C, 0, 32⟩
def EN_PORT_LINK (n : Nat) : Fld := ⟨0x50030040 + 16 * n, 0, 1⟩
def EN_PORT_SPEED (n : Nat) : Fld := ⟨0x50030040 + 16 * n, 1, 2⟩
def EN_PORT_EN (n : Nat) : Fld := ⟨0x50030040 + 16 * n, 3, 1⟩
def EN_PORT_PVID (n : Nat) : Fld := ⟨0x50030040 + 16 * n, 4, 12⟩
def EN_PORT_PCP (n : Nat) : Fld := ⟨0x50030040 + 16 * n, 16, 3⟩
def EN_MPD_NS (n : Nat) : Fld := ⟨0x50030044 + 16 * n, 0, 32⟩
def EN_ASYM_NS (n : Nat) : Fld := ⟨0x50030048 + 16 * n, 0, 32⟩
def EN_DROP_COUNT (n : Nat) : Fld := ⟨0x5003004C + 16 * n, 0, 32⟩
def EN_PDLATE_COUNT : Fld := ⟨0x50030100, 0, 32⟩
def EN_PDDUP_COUNT : Fld := ⟨0x50030104, 0, 32⟩
def EN_PDERR_COUNT : Fld := ⟨0x50030108, 0, 32⟩
def EN_TCUNCORR_COUNT : Fld := ⟨0x5003010C, 0, 32⟩
def EN_PUBID_PUBID (p : Nat) : Fld := ⟨0x50031000 + 8 * p, 0, 32⟩
def EN_PUBCFG_LEN (p : Nat) : Fld := ⟨0x50031004 + 8 * p, 0, 11⟩
def EN_PUBCFG_PCP (p : Nat) : Fld := ⟨0x50031004 + 8 * p, 11, 3⟩
def EN_PUBCFG_VALID (p : Nat) : Fld := ⟨0x50031004 + 8 * p, 15, 1⟩
def EN_PUBCFG_EVERY (p : Nat) : Fld := ⟨0x50031004 + 8 * p, 16, 8⟩
def EN_PUBCFG_TASK (p : Nat) : Fld := ⟨0x50031004 + 8 * p, 24, 4⟩
def EN_SUBID_PUBID (s : Nat) : Fld := ⟨0x50032000 + 16 * s, 0, 32⟩
def EN_SUBCFG_LEN (s : Nat) : Fld := ⟨0x50032004 + 16 * s, 0, 11⟩
def EN_SUBCFG_VALID (s : Nat) : Fld := ⟨0x50032004 + 16 * s, 15, 1⟩
def EN_SUBCFG_TMO (s : Nat) : Fld := ⟨0x50032004 + 16 * s, 16, 16⟩
def EN_SUBTS_NS (s : Nat) : Fld := ⟨0x50032008 + 16 * s, 0, 32⟩
def EN_SUBCNT_COUNT (s : Nat) : Fld := ⟨0x5003200C + 16 * s, 0, 32⟩

/-! ### `RB_` -/

def RB_LSCTRL_EN : Fld := ⟨0x50040000, 0, 1⟩
def RB_LSCTRL_RATE : Fld := ⟨0x50040000, 1, 2⟩
def RB_LSCTRL_CYCLE : Fld := ⟨0x50040000, 8, 8⟩
def RB_LSSTAT_AFAIL : Fld := ⟨0x50040004, 0, 1⟩
def RB_LSSTAT_BFAIL : Fld := ⟨0x50040004, 1, 1⟩
def RB_LSERRA_COUNT : Fld := ⟨0x50040008, 0, 32⟩
def RB_LSERRB_COUNT : Fld := ⟨0x5004000C, 0, 32⟩
def RB_LSNORESP_COUNT : Fld := ⟨0x50040010, 0, 32⟩
def RB_LSSTN_OUTLEN (k : Nat) : Fld := ⟨0x50040100 + 4 * k, 0, 8⟩
def RB_LSSTN_INLEN (k : Nat) : Fld := ⟨0x50040100 + 4 * k, 8, 8⟩
def RB_LSSTN_VALID (k : Nat) : Fld := ⟨0x50040100 + 4 * k, 16, 1⟩

/-! ### `FD_` -/

def FD_STAT_SUPPLY : Fld := ⟨0x60000000, 0, 2⟩
def FD_STAT_SILENT : Fld := ⟨0x60000000, 2, 1⟩
def FD_STAT_DIAGSUSP : Fld := ⟨0x60000000, 3, 1⟩
def FD_FLD_V : Fld := ⟨0x60000004, 0, 12⟩
def FD_SILCFG_N : Fld := ⟨0x60000008, 0, 8⟩
def FD_SILCFG_PERIOD : Fld := ⟨0x60000008, 8, 20⟩
def FD_RELEASE_BANK : Fld := ⟨0x6000000C, 0, 1⟩
def FD_RELEASE_HSO : Fld := ⟨0x6000000C, 16, 12⟩
def FD_RELEASE_FPP : Fld := ⟨0x6000000C, 28, 4⟩
def FD_SILCNT_COUNT : Fld := ⟨0x60000010, 0, 32⟩
def FD_BADVAL_COUNT : Fld := ⟨0x60000014, 0, 32⟩
def FD_DISTAT_FILT : Fld := ⟨0x60000018, 0, 16⟩
def FD_DISTAT_RAW : Fld := ⟨0x60000018, 16, 16⟩
def FD_DICFG_TOP (n : Nat) : Fld := ⟨0x60000040 + 4 * (n - 1), 0, 8⟩
def FD_DITS_NS (n : Nat) : Fld := ⟨0x60000080 + 8 * (n - 1), 0, 32⟩
def FD_DICNT_COUNT (n : Nat) : Fld := ⟨0x60000084 + 8 * (n - 1), 0, 16⟩
def FD_DICNT_LEVEL (n : Nat) : Fld := ⟨0x60000084 + 8 * (n - 1), 16, 1⟩
def FD_DICNT_NOEDGE (n : Nat) : Fld := ⟨0x60000084 + 8 * (n - 1), 17, 1⟩
def FD_HSOCFG_SAFE (n : Nat) : Fld := ⟨0x60000100 + 8 * (n - 1), 0, 2⟩
def FD_HSOCFG_OWOFF (n : Nat) : Fld := ⟨0x60000100 + 8 * (n - 1), 2, 1⟩
def FD_HSOSTAT_CMD (n : Nat) : Fld := ⟨0x60000104 + 8 * (n - 1), 0, 1⟩
def FD_HSOSTAT_RB (n : Nat) : Fld := ⟨0x60000104 + 8 * (n - 1), 1, 1⟩
def FD_HSOSTAT_OVL (n : Nat) : Fld := ⟨0x60000104 + 8 * (n - 1), 2, 1⟩
def FD_HSOSTAT_OPEN (n : Nat) : Fld := ⟨0x60000104 + 8 * (n - 1), 3, 1⟩
def FD_HSOSTAT_OTEMP (n : Nat) : Fld := ⟨0x60000104 + 8 * (n - 1), 4, 1⟩
def FD_HSOSTAT_SHORTP (n : Nat) : Fld := ⟨0x60000104 + 8 * (n - 1), 5, 1⟩
def FD_HSOSTAT_LATCHED (n : Nat) : Fld := ⟨0x60000104 + 8 * (n - 1), 6, 1⟩
def FD_HSOSTAT_RETRIES (n : Nat) : Fld := ⟨0x60000104 + 8 * (n - 1), 8, 4⟩
def FD_HSOSTAT_MA (n : Nat) : Fld := ⟨0x60000104 + 8 * (n - 1), 16, 12⟩
def FD_FPPCFG_SAFE (n : Nat) : Fld := ⟨0x60000180 + 8 * (n - 1), 0, 2⟩
def FD_FPPSTAT_CMD (n : Nat) : Fld := ⟨0x60000184 + 8 * (n - 1), 0, 1⟩
def FD_FPPSTAT_RB (n : Nat) : Fld := ⟨0x60000184 + 8 * (n - 1), 1, 1⟩
def FD_FPPSTAT_OVL (n : Nat) : Fld := ⟨0x60000184 + 8 * (n - 1), 2, 1⟩
def FD_FPPSTAT_MISM (n : Nat) : Fld := ⟨0x60000184 + 8 * (n - 1), 3, 1⟩
def FD_FPPSTAT_LATCHED (n : Nat) : Fld := ⟨0x60000184 + 8 * (n - 1), 6, 1⟩
def FD_FPPSTAT_RETRIES (n : Nat) : Fld := ⟨0x60000184 + 8 * (n - 1), 8, 4⟩
def FD_FPPSTAT_TRIG (n : Nat) : Fld := ⟨0x60000184 + 8 * (n - 1), 16, 1⟩

/-! ### `AN_` -/

def AN_BADVAL_COUNT : Fld := ⟨0x60010000, 0, 32⟩
def AN_TRGMISS_COUNT : Fld := ⟨0x60010004, 0, 32⟩
def AN_CFG_MODE (n : Nat) : Fld := ⟨0x60010040 + 32 * (n - 1), 0, 2⟩
def AN_CFG_SAFE (n : Nat) : Fld := ⟨0x60010040 + 32 * (n - 1), 2, 2⟩
def AN_CFG_ALHIGH (n : Nat) : Fld := ⟨0x60010040 + 32 * (n - 1), 4, 1⟩
def AN_CFG_CONV (n : Nat) : Fld := ⟨0x60010040 + 32 * (n - 1), 5, 1⟩
def AN_CFG_AVG (n : Nat) : Fld := ⟨0x60010040 + 32 * (n - 1), 6, 3⟩
def AN_STAT_OPEN (n : Nat) : Fld := ⟨0x60010044 + 32 * (n - 1), 0, 1⟩
def AN_STAT_COMPL (n : Nat) : Fld := ⟨0x60010044 + 32 * (n - 1), 1, 1⟩
def AN_STAT_FAULT (n : Nat) : Fld := ⟨0x60010044 + 32 * (n - 1), 2, 1⟩
def AN_STAT_ALNDEL (n : Nat) : Fld := ⟨0x60010044 + 32 * (n - 1), 3, 1⟩
def AN_STAT_THERM (n : Nat) : Fld := ⟨0x60010044 + 32 * (n - 1), 4, 1⟩
def AN_STAT_OVR (n : Nat) : Fld := ⟨0x60010044 + 32 * (n - 1), 5, 1⟩
def AN_STAT_JLO (n : Nat) : Fld := ⟨0x60010044 + 32 * (n - 1), 6, 1⟩
def AN_STAT_JHI (n : Nat) : Fld := ⟨0x60010044 + 32 * (n - 1), 7, 1⟩
def AN_STAT_ALEFF (n : Nat) : Fld := ⟨0x60010044 + 32 * (n - 1), 8, 1⟩
def AN_STAT_JMPERR (n : Nat) : Fld := ⟨0x60010044 + 32 * (n - 1), 9, 1⟩
def AN_STAT_NSTAT (n : Nat) : Fld := ⟨0x60010044 + 32 * (n - 1), 12, 4⟩
def AN_MEAS_VALUE (n : Nat) : Fld := ⟨0x60010048 + 32 * (n - 1), 0, 24⟩
def AN_CMD_UA10 (n : Nat) : Fld := ⟨0x6001004C + 32 * (n - 1), 0, 18⟩
def AN_CMD_ALARM (n : Nat) : Fld := ⟨0x6001004C + 32 * (n - 1), 31, 1⟩
def AN_TS_NS (n : Nat) : Fld := ⟨0x60010050 + 32 * (n - 1), 0, 32⟩
def AN_TSERA_ERA (n : Nat) : Fld := ⟨0x60010054 + 32 * (n - 1), 0, 32⟩

/-! ### `PX_` -/

def PX_MODE_MODE0 (l : Nat) : Fld := ⟨laneBase l + 0x0 + 0x0, 0, 2⟩
def PX_MODE_MODE1 (l : Nat) : Fld := ⟨laneBase l + 0x0 + 0x0, 2, 2⟩
def PX_MODE_MODE2 (l : Nat) : Fld := ⟨laneBase l + 0x0 + 0x0, 4, 2⟩
def PX_MODE_MODE3 (l : Nat) : Fld := ⟨laneBase l + 0x0 + 0x0, 6, 2⟩
def PX_MODE_ARMED (l : Nat) : Fld := ⟨laneBase l + 0x0 + 0x0, 8, 4⟩
def PX_CMD_PAIR (l : Nat) : Fld := ⟨laneBase l + 0x0 + 0x4, 0, 2⟩
def PX_CMD_OP (l : Nat) : Fld := ⟨laneBase l + 0x0 + 0x4, 2, 1⟩
def PX_CMD_GO (l : Nat) : Fld := ⟨laneBase l + 0x0 + 0x4, 4, 1⟩
def PX_STAT_BUSY (l : Nat) : Fld := ⟨laneBase l + 0x0 + 0x8, 0, 1⟩
def PX_STAT_DONE (l : Nat) : Fld := ⟨laneBase l + 0x0 + 0x8, 1, 1⟩
def PX_STAT_PAIR (l : Nat) : Fld := ⟨laneBase l + 0x0 + 0x8, 2, 2⟩
def PX_STAT_TRIPOK (l : Nat) : Fld := ⟨laneBase l + 0x0 + 0x8, 4, 1⟩
def PX_ENTRY_ADDR (l n : Nat) : Fld := ⟨laneBase l + 0x0 + 0x10 + 4 * n, 0, 32⟩
def PX_FORCE_PAIR (l : Nat) : Fld := ⟨laneBase l + 0x0 + 0x20, 0, 2⟩
def PX_FORCE_GROUP (l : Nat) : Fld := ⟨laneBase l + 0x0 + 0x20, 2, 2⟩
def PX_FORCE_BIT (l : Nat) : Fld := ⟨laneBase l + 0x0 + 0x20, 4, 8⟩
def PX_FORCE_GO (l : Nat) : Fld := ⟨laneBase l + 0x0 + 0x20, 16, 1⟩
def PX_TEST_DONE (l : Nat) : Fld := ⟨laneBase l + 0x0 + 0x24, 0, 1⟩
def PX_TEST_TRIP (l : Nat) : Fld := ⟨laneBase l + 0x0 + 0x24, 1, 1⟩
def PX_TEST_SYNOK (l : Nat) : Fld := ⟨laneBase l + 0x0 + 0x24, 2, 1⟩
def PX_TEST_RAILOK (l : Nat) : Fld := ⟨laneBase l + 0x0 + 0x24, 3, 1⟩
def PX_TEST_PAIR (l : Nat) : Fld := ⟨laneBase l + 0x0 + 0x24, 4, 2⟩
def PX_DIAG_VALID (l n : Nat) : Fld := ⟨laneBase l + 0x0 + 0x30 + 4 * n, 0, 1⟩
def PX_DIAG_KIND (l n : Nat) : Fld := ⟨laneBase l + 0x0 + 0x30 + 4 * n, 1, 3⟩
def PX_DIAG_SUSPECT (l n : Nat) : Fld := ⟨laneBase l + 0x0 + 0x30 + 4 * n, 4, 2⟩
def PX_DIAG_GROUP (l n : Nat) : Fld := ⟨laneBase l + 0x0 + 0x30 + 4 * n, 6, 2⟩
def PX_DIAG_BIT (l n : Nat) : Fld := ⟨laneBase l + 0x0 + 0x30 + 4 * n, 8, 8⟩
def PX_DIAG_MORE (l n : Nat) : Fld := ⟨laneBase l + 0x0 + 0x30 + 4 * n, 16, 1⟩
def PX_TESTCNT_COUNT (l n : Nat) : Fld := ⟨laneBase l + 0x0 + 0x40 + 4 * n, 0, 32⟩
def PX_DISP_TASK (l n : Nat) : Fld := ⟨laneBase l + 0x0 + 0x50 + 4 * n, 0, 4⟩
def PX_DISP_SAFETY (l n : Nat) : Fld := ⟨laneBase l + 0x0 + 0x50 + 4 * n, 4, 1⟩

/-! ### `RA_` -/

def RA_CTRL_EN (l : Nat) : Fld := ⟨laneBase l + 0x10000 + 0x0, 0, 1⟩
def RA_CTRL_INHIBIT (l : Nat) : Fld := ⟨laneBase l + 0x10000 + 0x0, 1, 1⟩
def RA_TASKEN_EN (l : Nat) : Fld := ⟨laneBase l + 0x10000 + 0x4, 0, 16⟩
def RA_DQ_USED (l : Nat) : Fld := ⟨laneBase l + 0x10000 + 0x8, 0, 9⟩
def RA_PAIRCTX_TASK (l p : Nat) : Fld := ⟨laneBase l + 0x10000 + 0x10 + 4 * p, 0, 4⟩
def RA_PAIRCTX_VALID (l p : Nat) : Fld := ⟨laneBase l + 0x10000 + 0x10 + 4 * p, 4, 1⟩
def RA_LOG_BASE (l n : Nat) : Fld := ⟨laneBase l + 0x10000 + 0x40 + 4 * n, 0, 7⟩
def RA_LOG_SIZE (l n : Nat) : Fld := ⟨laneBase l + 0x10000 + 0x40 + 4 * n, 8, 7⟩
def RA_CTX_STATE (l n : Nat) : Fld := ⟨laneBase l + 0x10000 + 0x80 + 4 * n, 0, 3⟩
def RA_CTX_CONF (l n : Nat) : Fld := ⟨laneBase l + 0x10000 + 0x80 + 4 * n, 3, 1⟩
def RA_CTX_VOTED (l n : Nat) : Fld := ⟨laneBase l + 0x10000 + 0x80 + 4 * n, 4, 1⟩
def RA_CTX_HELD (l n : Nat) : Fld := ⟨laneBase l + 0x10000 + 0x80 + 4 * n, 5, 1⟩
def RA_CTX_OVF (l n : Nat) : Fld := ⟨laneBase l + 0x10000 + 0x80 + 4 * n, 6, 1⟩
def RA_CTX_CAUSE (l n : Nat) : Fld := ⟨laneBase l + 0x10000 + 0x80 + 4 * n, 8, 3⟩
def RA_CTX_USED (l n : Nat) : Fld := ⟨laneBase l + 0x10000 + 0x80 + 4 * n, 16, 16⟩
def RA_SCRBASE_BASE (l n : Nat) : Fld := ⟨laneBase l + 0x10000 + 0xC0 + 8 * n, 0, 28⟩
def RA_SCRSIZE_PAGES (l n : Nat) : Fld := ⟨laneBase l + 0x10000 + 0xC4 + 8 * n, 0, 17⟩
def RA_COMMIT_COUNT (l n : Nat) : Fld := ⟨laneBase l + 0x10000 + 0x140 + 4 * n, 0, 32⟩
def RA_ROLL_COUNT (l n : Nat) : Fld := ⟨laneBase l + 0x10000 + 0x180 + 4 * n, 0, 32⟩
def RA_OVF_COUNT (l n : Nat) : Fld := ⟨laneBase l + 0x10000 + 0x1C0 + 4 * n, 0, 32⟩
def RA_GAIN_NS (l n : Nat) : Fld := ⟨laneBase l + 0x10000 + 0x200 + 4 * n, 0, 24⟩
def RA_PTAB_WORD (l e : Nat) : Fld := ⟨laneBase l + 0x10000 + 0x800 + 8 * e, 0, 15⟩
def RA_PTAB_RULE (l e : Nat) : Fld := ⟨laneBase l + 0x10000 + 0x800 + 8 * e, 15, 2⟩
def RA_PTAB_WIDTH (l e : Nat) : Fld := ⟨laneBase l + 0x10000 + 0x800 + 8 * e, 17, 2⟩
def RA_PTAB_VALID (l e : Nat) : Fld := ⟨laneBase l + 0x10000 + 0x800 + 8 * e, 31, 1⟩
def RA_PK_K (l e : Nat) : Fld := ⟨laneBase l + 0x10000 + 0x804 + 8 * e, 0, 32⟩

/-! ### `SD_` -/

def SD_CTRL_EN (l : Nat) : Fld := ⟨laneBase l + 0x20000 + 0x0, 0, 1⟩
def SD_CTRL_SEL (l : Nat) : Fld := ⟨laneBase l + 0x20000 + 0x0, 4, 4⟩
def SD_STAT_WINERR (l : Nat) : Fld := ⟨laneBase l + 0x20000 + 0x4, 0, 1⟩
def SD_STAT_RUNERR (l : Nat) : Fld := ⟨laneBase l + 0x20000 + 0x4, 1, 1⟩
def SD_STAT_SCANBUSY (l : Nat) : Fld := ⟨laneBase l + 0x20000 + 0x4, 2, 1⟩
def SD_DIGEST_D (l n : Nat) : Fld := ⟨laneBase l + 0x20000 + 0x10 + 4 * n, 0, 32⟩
def SD_SNAP_S (l n : Nat) : Fld := ⟨laneBase l + 0x20000 + 0x20 + 4 * n, 0, 32⟩
def SD_WINBASE_BASE (l n : Nat) : Fld := ⟨laneBase l + 0x20000 + 0x100 + 8 * n, 0, 28⟩
def SD_WINSIZE_PAGES (l n : Nat) : Fld := ⟨laneBase l + 0x20000 + 0x104 + 8 * n, 0, 17⟩
def SD_WINSIZE_OWNER (l n : Nat) : Fld := ⟨laneBase l + 0x20000 + 0x104 + 8 * n, 24, 4⟩

/-! ### `MM_` -/

def MM_CTRL_EN (l : Nat) : Fld := ⟨laneBase l + 0x30000 + 0x0, 0, 1⟩
def MM_CTRL_IOEN (l : Nat) : Fld := ⟨laneBase l + 0x30000 + 0x0, 1, 1⟩
def MM_ECCDRAM_CORR (l : Nat) : Fld := ⟨laneBase l + 0x30000 + 0x4, 0, 32⟩
def MM_ECCL2_CORR (l : Nat) : Fld := ⟨laneBase l + 0x30000 + 0x8, 0, 32⟩
def MM_RETAIN_PEND (l : Nat) : Fld := ⟨laneBase l + 0x30000 + 0xC, 0, 14⟩
def MM_FSTAT_VALID (l c : Nat) : Fld := ⟨laneBase l + 0x30000 + 0x40 + 8 * c, 0, 1⟩
def MM_FSTAT_CAUSE (l c : Nat) : Fld := ⟨laneBase l + 0x30000 + 0x40 + 8 * c, 1, 3⟩
def MM_FSTAT_ACCESS (l c : Nat) : Fld := ⟨laneBase l + 0x30000 + 0x40 + 8 * c, 4, 2⟩
def MM_FSTAT_PRIV (l c : Nat) : Fld := ⟨laneBase l + 0x30000 + 0x40 + 8 * c, 6, 1⟩
def MM_FSTAT_AHI (l c : Nat) : Fld := ⟨laneBase l + 0x30000 + 0x40 + 8 * c, 8, 8⟩
def MM_FSTAT_ENTRY (l c : Nat) : Fld := ⟨laneBase l + 0x30000 + 0x40 + 8 * c, 16, 6⟩
def MM_FSTAT_MORE (l c : Nat) : Fld := ⟨laneBase l + 0x30000 + 0x40 + 8 * c, 22, 1⟩
def MM_FADDR_ALO (l c : Nat) : Fld := ⟨laneBase l + 0x30000 + 0x44 + 8 * c, 0, 32⟩
def MM_RBASE_BASE (l e : Nat) : Fld := ⟨laneBase l + 0x30000 + 0x100 + 8 * e, 0, 28⟩
def MM_RCFG_PAGES (l e : Nat) : Fld := ⟨laneBase l + 0x30000 + 0x104 + 8 * e, 0, 20⟩
def MM_RCFG_UR (l e : Nat) : Fld := ⟨laneBase l + 0x30000 + 0x104 + 8 * e, 20, 1⟩
def MM_RCFG_UW (l e : Nat) : Fld := ⟨laneBase l + 0x30000 + 0x104 + 8 * e, 21, 1⟩
def MM_RCFG_UX (l e : Nat) : Fld := ⟨laneBase l + 0x30000 + 0x104 + 8 * e, 22, 1⟩
def MM_RCFG_SR (l e : Nat) : Fld := ⟨laneBase l + 0x30000 + 0x104 + 8 * e, 23, 1⟩
def MM_RCFG_SW (l e : Nat) : Fld := ⟨laneBase l + 0x30000 + 0x104 + 8 * e, 24, 1⟩
def MM_RCFG_SX (l e : Nat) : Fld := ⟨laneBase l + 0x30000 + 0x104 + 8 * e, 25, 1⟩
def MM_RCFG_PAIRS (l e : Nat) : Fld := ⟨laneBase l + 0x30000 + 0x104 + 8 * e, 26, 4⟩
def MM_RCFG_VALID (l e : Nat) : Fld := ⟨laneBase l + 0x30000 + 0x104 + 8 * e, 31, 1⟩
def MM_IOVA_IOVA (l i : Nat) : Fld := ⟨laneBase l + 0x30000 + 0x400 + 16 * i, 0, 28⟩
def MM_IOTGT_TGT (l i : Nat) : Fld := ⟨laneBase l + 0x30000 + 0x404 + 16 * i, 0, 28⟩
def MM_IOCFG_PAGES (l i : Nat) : Fld := ⟨laneBase l + 0x30000 + 0x408 + 16 * i, 0, 20⟩
def MM_IOCFG_R (l i : Nat) : Fld := ⟨laneBase l + 0x30000 + 0x408 + 16 * i, 20, 1⟩
def MM_IOCFG_W (l i : Nat) : Fld := ⟨laneBase l + 0x30000 + 0x408 + 16 * i, 21, 1⟩
def MM_IOCFG_DEV (l i : Nat) : Fld := ⟨laneBase l + 0x30000 + 0x408 + 16 * i, 22, 1⟩
def MM_IOCFG_VALID (l i : Nat) : Fld := ⟨laneBase l + 0x30000 + 0x408 + 16 * i, 31, 1⟩
def MM_IOCH_CH (l i : Nat) : Fld := ⟨laneBase l + 0x30000 + 0x40C + 16 * i, 0, 16⟩

/-! ### `DM_` -/

def DM_CTRL_OWNER (l n : Nat) : Fld := ⟨laneBase l + 0x40000 + 0x0 + 64 * n, 0, 4⟩
def DM_CTRL_PAIR (l n : Nat) : Fld := ⟨laneBase l + 0x40000 + 0x0 + 64 * n, 4, 2⟩
def DM_CTRL_SRCFIX (l n : Nat) : Fld := ⟨laneBase l + 0x40000 + 0x0 + 64 * n, 6, 1⟩
def DM_CTRL_DSTFIX (l n : Nat) : Fld := ⟨laneBase l + 0x40000 + 0x0 + 64 * n, 7, 1⟩
def DM_CTRL_CHAIN (l n : Nat) : Fld := ⟨laneBase l + 0x40000 + 0x0 + 64 * n, 8, 1⟩
def DM_CTRL_IRQDONE (l n : Nat) : Fld := ⟨laneBase l + 0x40000 + 0x0 + 64 * n, 9, 1⟩
def DM_SRCLO_ADDR (l n : Nat) : Fld := ⟨laneBase l + 0x40000 + 0x4 + 64 * n, 0, 32⟩
def DM_SRCHI_ADDR (l n : Nat) : Fld := ⟨laneBase l + 0x40000 + 0x8 + 64 * n, 0, 8⟩
def DM_DSTLO_ADDR (l n : Nat) : Fld := ⟨laneBase l + 0x40000 + 0xC + 64 * n, 0, 32⟩
def DM_DSTHI_ADDR (l n : Nat) : Fld := ⟨laneBase l + 0x40000 + 0x10 + 64 * n, 0, 8⟩
def DM_LEN_LEN (l n : Nat) : Fld := ⟨laneBase l + 0x40000 + 0x14 + 64 * n, 0, 32⟩
def DM_DONE_BYTES (l n : Nat) : Fld := ⟨laneBase l + 0x40000 + 0x18 + 64 * n, 0, 32⟩
def DM_NEXTLO_ADDR (l n : Nat) : Fld := ⟨laneBase l + 0x40000 + 0x1C + 64 * n, 5, 27⟩
def DM_NEXTHI_ADDR (l n : Nat) : Fld := ⟨laneBase l + 0x40000 + 0x20 + 64 * n, 0, 8⟩
def DM_CMD_START (l n : Nat) : Fld := ⟨laneBase l + 0x40000 + 0x24 + 64 * n, 0, 1⟩
def DM_CMD_RESUME (l n : Nat) : Fld := ⟨laneBase l + 0x40000 + 0x24 + 64 * n, 1, 1⟩
def DM_CMD_ABORT (l n : Nat) : Fld := ⟨laneBase l + 0x40000 + 0x24 + 64 * n, 2, 1⟩
def DM_STAT_STATE (l n : Nat) : Fld := ⟨laneBase l + 0x40000 + 0x28 + 64 * n, 0, 3⟩
def DM_STAT_DONE (l n : Nat) : Fld := ⟨laneBase l + 0x40000 + 0x28 + 64 * n, 3, 1⟩
def DM_STAT_FAULT (l n : Nat) : Fld := ⟨laneBase l + 0x40000 + 0x28 + 64 * n, 4, 1⟩
def DM_STAT_FCAUSE (l n : Nat) : Fld := ⟨laneBase l + 0x40000 + 0x28 + 64 * n, 5, 3⟩
def DM_STAT_FSIDE (l n : Nat) : Fld := ⟨laneBase l + 0x40000 + 0x28 + 64 * n, 8, 2⟩
def DM_STAT_REFUSED (l n : Nat) : Fld := ⟨laneBase l + 0x40000 + 0x28 + 64 * n, 10, 1⟩
def DM_FADDRLO_ADDR (l n : Nat) : Fld := ⟨laneBase l + 0x40000 + 0x2C + 64 * n, 0, 32⟩
def DM_FADDRHI_ADDR (l n : Nat) : Fld := ⟨laneBase l + 0x40000 + 0x30 + 64 * n, 0, 8⟩
def DM_PEND_DONE (l : Nat) : Fld := ⟨laneBase l + 0x40000 + 0x800, 0, 16⟩
def DM_PEND_FAULT (l : Nat) : Fld := ⟨laneBase l + 0x40000 + 0x800, 16, 16⟩

/-! ### `TC_` -/

def TC_CTRL_SCRUB (l : Nat) : Fld := ⟨laneBase l + 0x50000 + 0x0, 0, 1⟩
def TC_STAT_STARV (l : Nat) : Fld := ⟨laneBase l + 0x50000 + 0x4, 0, 8⟩
def TC_ECC_CORR (l : Nat) : Fld := ⟨laneBase l + 0x50000 + 0x8, 0, 32⟩
def TC_WAIT_CLKS (l b : Nat) : Fld := ⟨laneBase l + 0x50000 + 0x10 + 4 * b, 0, 32⟩
def TC_STARV_COUNT (l b : Nat) : Fld := ⟨laneBase l + 0x50000 + 0x30 + 4 * b, 0, 32⟩
def TC_STARVTHR_US (l b : Nat) : Fld := ⟨laneBase l + 0x50000 + 0x50 + 4 * b, 0, 16⟩

/-! ### `VX_` -/

def VX_LSTAT_STATE (l : Nat) : Fld := ⟨laneBase l + 0x60000 + 0x0, 0, 4⟩
def VX_LSTAT_LANE (l : Nat) : Fld := ⟨laneBase l + 0x60000 + 0x0, 4, 2⟩
def VX_LSTAT_LEVEL (l : Nat) : Fld := ⟨laneBase l + 0x60000 + 0x0, 8, 3⟩
def VX_SUBMIT_TASK (l : Nat) : Fld := ⟨laneBase l + 0x60000 + 0x4, 0, 4⟩
def VX_SUBMIT_ABANDON (l : Nat) : Fld := ⟨laneBase l + 0x60000 + 0x4, 4, 1⟩
def VX_SUBSTAT_BUSY (l : Nat) : Fld := ⟨laneBase l + 0x60000 + 0x8, 0, 1⟩
def VX_SUBSTAT_OVERSIZE (l : Nat) : Fld := ⟨laneBase l + 0x60000 + 0x8, 1, 1⟩
def VX_SUBSTAT_REJECT (l : Nat) : Fld := ⟨laneBase l + 0x60000 + 0x8, 2, 1⟩
def VX_SUBSTAT_TASK (l : Nat) : Fld := ⟨laneBase l + 0x60000 + 0x8, 4, 4⟩
def VX_SUBSTAT_LEN (l : Nat) : Fld := ⟨laneBase l + 0x60000 + 0x8, 16, 15⟩
def VX_IMGSTAT_TASK (l : Nat) : Fld := ⟨laneBase l + 0x60000 + 0xC, 0, 4⟩
def VX_IMGSTAT_CYCLE (l : Nat) : Fld := ⟨laneBase l + 0x60000 + 0xC, 16, 16⟩
def VX_ORANGE_FIRST (l n : Nat) : Fld := ⟨laneBase l + 0x60000 + 0x40 + 4 * n, 0, 15⟩
def VX_ORANGE_COUNT (l n : Nat) : Fld := ⟨laneBase l + 0x60000 + 0x40 + 4 * n, 15, 16⟩

end Sys2Proof.Machine
end

