-- ==== Sys2Proof/Machine/Regs.lean ====
section
/-! DEFINITION. The register file: every register of every block, keyed by its module-space address, and the access to
one field of one register. A register that nothing has written holds its reset value. -/

namespace Sys2Proof.Machine

/-- Bits `[lo + w - 1 : lo]` of a word, as a number (R9). -/
def getBits (x : Word) (lo w : Nat) : Nat := (x.toNat >>> lo) % 2 ^ w

/-- A word with bits `[lo + w - 1 : lo]` replaced by the low `w` bits of `v`. -/
def putBits (x : Word) (lo w v : Nat) : Word :=
  (x &&& ~~~((BitVec.ofNat 32 (2 ^ w - 1)) <<< lo)) ||| (BitVec.ofNat 32 (v % 2 ^ w) <<< lo)

/-- The register file. -/
abbrev Regs := Tab Word

/-- The word of the register at an address. -/
def Regs.rd (r : Regs) (a : Nat) : Word := tabGet regReset r a

/-- The register at an address written as one word. -/
def Regs.wr (r : Regs) (a : Nat) (v : Word) : Regs := tabSet regReset r a v

/-- The value of a field. -/
def Regs.g (r : Regs) (f : Fld) : Nat := getBits (r.rd f.reg) f.lo f.w

/-- A field set, the register's other bits kept. -/
def Regs.p (r : Regs) (f : Fld) (v : Nat) : Regs := r.wr f.reg (putBits (r.rd f.reg) f.lo f.w v)

end Sys2Proof.Machine
end

