-- ==== Sys2Proof/Machine/TypesCore.lean ====
section
/-! DEFINITION. The parts of the state that no register shows: event recorder, fault collector, mailboxes, service
session, lanes, votes, run-ahead, application. Plain data throughout. -/

namespace Sys2Proof.Machine

/-- The two variants (R1). -/
inductive Variant where
  | zm60 | zm80
  deriving DecidableEq, Repr

/-- An event record (R495). `SEQEND` equals `seq` and `CHECK` is computed from the other fields. -/
structure EvRec where
  seq : Nat
  opms : Nat
  pwrcyc : Nat
  ns : Nat
  era : Nat
  source : Nat
  code : Nat
  cls : Nat
  flags : Nat
  rep : Nat
  data : List Byte
  lastdms : Nat
  deriving DecidableEq, Repr

/-- The event recorder: records in flash and in staging, oldest first (R499); the next sequence number (R496); the events
suppressed since staging filled (R499). -/
structure EvSt where
  flash : List EvRec := []
  staged : List EvRec := []
  nextSeq : Nat := 1
  ovf : Option Nat := none
  deriving DecidableEq, Repr

/-- A history entry (R411). -/
structure HistEnt where
  opms : Nat := 0
  ns : Nat := 0
  era : Nat := 0
  pwrcyc : Nat := 0
  source : Nat := 0
  code : Nat := 0
  cls : Nat := 0
  flags : Nat := 0
  orig : Nat := 0
  rep : Nat := 0
  evseq : Nat := 0
  data : List Byte := []
  deriving DecidableEq, Repr

/-- The fault collector beside its registers: the history in MRAM (R411), the history entry and element of the first
unacknowledged fault of classes 1 to 3 (R409), whether a class 3 was raised since the reset and while Parked (R420), whether a half of the
history was delivered to the present session (R489). -/
structure FcSt where
  hist : Tab HistEnt := []
  firstEnt : Tab (Option Nat) := []
  class3 : Bool := false
  parkedClass3 : Bool := false
  part0 : Bool := false
  deriving DecidableEq, Repr

/-- Where the service session stands (R455). -/
inductive SessPhase where
  | none | connected | challenged | authenticated
  deriving DecidableEq, Repr

/-- The service session (R454 to R457): its phase and way in, the two nonces and the credential kind, the record counters
of both directions; in MRAM, the failed proofs in a row and whether `HELLO` is refused and for how long. -/
structure SessSt where
  phase : SessPhase := .none
  via : SvcVia := .svc
  nc : List Byte := []
  nk : List Byte := []
  cred : Nat := 0
  rxCtr : Nat := 0
  txCtr : Nat := 0
  fails : Nat := 0
  refusing : Bool := false
  refuseSec : Nat := 0
  deriving DecidableEq, Repr

/-- One open vote of a voted stream (R69, R156, R362): the stream, the place in it, what each lane posted, the value the
majority agreed on, whether the window has closed, when the first post opened it. -/
structure StreamVote where
  kind : StreamKind
  st : RetStream
  place : Nat
  posts : List (Lane × List Byte)
  won : Option (List Byte) := none
  closed : Bool := false
  since : Nat := 0
  deriving DecidableEq, Repr

/-- The command that waits aside for its execution point (R467): its code, the channels to answer, header bytes and
payload, when it began to wait, whether it has begun to act. -/
structure Waiting where
  code : Nat
  chans : List Chan
  hdr : List Byte
  payload : List Byte
  since : Nat
  begun : Bool := false
  deriving DecidableEq, Repr

/-- A command that has passed its checks and waits while another waits for Running or for a wake (R467, R475). -/
structure Queued where
  code : Nat
  chans : List Chan
  hdr : List Byte
  payload : List Byte
  deriving DecidableEq, Repr

/-- One lane's submission (R46). -/
structure Sub where
  oversize : Bool
  runs : List (Nat × List (BitVec 64))
  digest : BitVec 128
  deriving DecidableEq, Repr

/-- How a vote of a cycle ended (R56). -/
inductive VoteEnd where
  | majority (s : Sub)
  | none
  deriving DecidableEq, Repr

/-- The vote of one cycle of one task (R55): what each lane submitted, how it was decided, whether its window is open
and closed, when it opened. -/
structure CycVote where
  t : Task
  cycle : Nat
  subs : List (Lane × Sub)
  result : Option VoteEnd := .none
  opened : Bool := false
  closed : Bool := false
  since : Nat := 0
  deriving DecidableEq, Repr

/-- Where a lane stands in the cycle of a task (R45, R96). -/
inductive LanePhase where
  | idle | ready | executing | submitted | abandoned
  deriving DecidableEq, Repr

/-- A lane's place in one task: the cycle of its last image, its phase, the words of its output range written since the
last submission are in `LaneSt.dirty`; the place of its next command, retained store and rack access in their streams; of each rack access
posted, whether at supervisor privilege and whether by the trailing core of a split pair. -/
structure LaneTask where
  cycle : Nat := 0
  phase : LanePhase := .idle
  cmdPos : Nat := 0
  retPos : Nat := 0
  rackPos : Nat := 0
  retWords : List Nat := []
  posted : Tab (Bool × Bool) := []
  deriving DecidableEq, Repr

/-- A store a lane has posted to retained memory and that is not yet applied (R157). -/
structure RetEnt where
  st : RetStream
  cycle : Nat
  place : Nat
  a : Nat
  v : BitVec 64
  deriving DecidableEq, Repr

/-- A task's speculation context (R127 to R141): its write log, its read set, the predicted words, the writes it has deferred
(word, byte mask, value), the access that stalled it with what follows it, how long it has run speculatively and since when it runs now
(R147). -/
structure SpecCtx where
  cycle : Nat := 0
  log : Tab (BitVec 64) := []
  reads : List Nat := []
  predicted : Tab (BitVec 64) := []
  dq : List (Nat × Nat × BitVec 64) := []
  stalled : List CoreOp := []
  ran : Nat := 0
  runSince : Option Nat := none
  deriving DecidableEq, Repr

/-- A shadow counter (R26 to R30): its value, its 16-bit fraction and its trim in units of 2^−23 ns, the pulses taken in a
row, the pulses missed in a row, the loads in a row that differed by more than 100 ns, whether it is disciplined or in
holdover, whether it has taken a load since the reset, the status latched by the last read of its value (R185). -/
structure Shadow where
  ns : Nat := 0
  frac : Nat := 0
  trim : Int := 0
  good : Nat := 0
  missed : Nat := 0
  bad : Nat := 0
  disc : Bool := false
  hold : Bool := false
  loaded : Bool := false
  shstat : Nat := 0
  deriving DecidableEq, Repr

/-- One lane beside its registers: memory, image region before and after the last delivery, dirty output words, pages dirtied since the
last copy round, the written-page bitmap (R174), digests, places in the tasks, speculation contexts, retained stores, what its reset, its
preparation and its resynchronisation have reached, exclusions, the shadow counter, the comparator tests, dispatches that wait or were refused
(R85), accesses that wait while their core stalls (R52, R83, R85, R362): task, core and access; of a core that waits for the data of a rack-bus load
the core, task and place, and of such a DMA channel the task and place (R363); the DMA channel whose turn is next; when its last submission has been sent (R71), the time from which its cycles count
and when it entered Voting or Spare (R31), the instant of each pair's fault (R91). -/
structure LaneSt where
  mem : Mem := []
  img : Mem := []
  imgPrev : Mem := []
  dirty : List Nat := []
  pages : List Nat := []
  digest : Tab (BitVec 128) := []
  snap : Tab (BitVec 128) := []
  task : Tab LaneTask := []
  spec : Tab SpecCtx := []
  rbuf : List RetEnt := []
  runtimePos : Nat := 0
  runtimeWords : List Nat := []
  inited : Bool := false
  prepared : Bool := false
  finalOk : Bool := false
  held : Bool := false
  lwiping : Bool := false
  pwiping : Bool := false
  afterExcl : Bool := false
  exclTimes : List Nat := []
  retentionLost : Bool := false
  asleep : Bool := false
  halted : List Nat := []
  shadow : Shadow := {}
  forceTest : Option Word := none
  pairTest : Tab Nat := []
  disp : Tab Nat := []
  dispWait : List (Nat × Word) := []
  refused : List Nat := []
  stalledPairs : List Nat := []
  written : List Nat := []
  sendUntil : Nat := 0
  waitOps : List (Option Nat × Nat × CoreOp) := []
  rackWait : List (Nat × Nat × Nat) := []
  dmaWait : Tab (Nat × Nat) := []
  dmaNext : Nat := 0
  joinAt : Nat := 0
  joinedUp : Nat := 0
  diagAt : Tab Nat := []
  diagSeq : Nat := 0
  correctedHour : List (Nat × Nat) := []
  lastAgreed : Bool := false
  countsNow : Bool := false
  waitPulses : Bool := false
  deriving DecidableEq, Repr

/-- A die link (R21): the next sequence number each way, counted from 0 without end, failed packets in a row, whether it is down, the
time of the last packet sent. [DESIGN CHOICE: log 105] -/
structure LinkSt where
  rxSeq : Nat := 0
  txSeq : Nat := 0
  replays : Nat := 0
  down : Bool := false
  lastTx : Nat := 0
  deriving DecidableEq, Repr

end Sys2Proof.Machine
end

