-- ==== Sys2Proof/Machine/TypesApp.lean ====
section
/-! DEFINITION. The application as the Keeper holds it. The spec gives a package's contents and the checks on them and
leaves its file format to the engineering tool; `Config.parseApp` stands for that format, and these are the contents. -/

namespace Sys2Proof.Machine

/-- A task descriptor (R93); times in µs. -/
structure TaskDesc where
  kind : Nat := 0
  period : Nat := 0
  offset : Nat := 0
  xoff : Nat := 0
  lead : Nat := 0
  pair : Nat := 0
  safety : Bool := false
  directio : Bool := false
  runahead : Bool := false
  ovrlim : Nat := 3
  groups : Nat := 0
  stations : Nat := 0
  deriving DecidableEq, Repr

/-- Where a run of bytes of an input range comes from. -/
inductive InSrc where
  | digital            -- the digital input record (R325)
  | outStatus          -- the output status record (R337)
  | encoder (d : Nat)  -- an encoder's count and time
  | analogue (n : Nat) -- an analogue record (R354)
  | capture (n : Nat)  -- a capture record (R195)
  | ringNode (r n : Nat)
  | ringMaster (r : Nat) -- the records that this node takes as a responder (R221)
  | subscription (s : Nat)
  | card (slot idx : Nat)
  | serial (k : Nat)
  | safeRx (r : Nat)   -- a receive record (R293)
  | drive (d : Nat)    -- a drive record (R318)
  | pair (k : Nat)     -- a pair record (R318)
  | bridge             -- the bridge status record (R369)
  | unit               -- the unit record (R400)
  deriving DecidableEq, Repr

/-- Is the source a station (R103)? -/
def InSrc.isStation : InSrc → Bool
  | .ringNode _ _ | .ringMaster _ | .subscription _ | .card _ _ | .serial _ => true
  | _ => false

/-- A run of bytes of a task's input range: its byte offset in the input image region and its source. -/
structure InBind where
  t : Task
  off : Nat
  len : Nat
  src : InSrc
  srcOff : Nat := 0
  deriving DecidableEq, Repr

/-- What an output drives. -/
inductive OutTgt where
  | hso (n : Nat) | fpp (n : Nat)
  | loop (n : Nat)
  | permit (d : Nat)
  | ringNode (r n off : Nat)
  | publication (p off : Nat)
  | trigger (n : Nat)
  | card (slot a : Nat)
  | serial (k off : Nat)
  deriving DecidableEq, Repr

/-- A run of bytes within one word of the output image and what it drives. -/
structure OutBind where
  t : Task
  word : Nat
  byte : Nat := 0
  len : Nat := 1
  tgt : OutTgt
  deriving DecidableEq, Repr

/-- A timed group (R107): its first word holds its commit time. -/
structure GroupDesc where
  t : Task
  g : Nat
  first : Nat
  count : Nat
  deriving DecidableEq, Repr

/-- A station of a task (R103), with the bytes that read as given until its first valid input (R104). -/
structure StationDesc where
  t : Task
  s : Nat
  src : InSrc
  deriving DecidableEq, Repr

/-- A symbol (R118): an input or an output of a task, or neither; safety symbols cannot be forced. `off` is a byte offset
in the input image region or in the output image. -/
structure Symbol where
  id : Nat
  t : Task
  input : Bool
  output : Bool
  safety : Bool
  off : Nat
  len : Nat
  ty : Nat
  deriving DecidableEq, Repr

/-- A digested window (R51). -/
structure WinDesc where
  base : Nat
  pages : Nat
  owner : Task
  deriving DecidableEq, Repr

/-- A prediction entry (R130). -/
structure PredDesc where
  word : Nat
  rule : Nat
  width : Nat
  k : Nat
  deriving DecidableEq, Repr

/-- A configured card access (R365): reads are issued at the task's sample time. -/
structure CardRead where
  t : Task
  slot : Nat
  idx : Nat
  a : Nat
  words : Nat
  deriving DecidableEq, Repr

/-- A publication (R271). -/
structure PubDesc where
  p : Nat
  id : Nat
  len : Nat
  pcp : Nat
  every : Nat
  t : Task
  safety : Bool := false
  deriving DecidableEq, Repr

/-- A subscription (R271). -/
structure SubDesc where
  s : Nat
  id : Nat
  len : Nat
  tmo : Nat
  deriving DecidableEq, Repr

/-- A card the configuration expects (R359), with its windows. -/
structure CardDesc where
  slot : Nat
  cls : Nat
  model : Nat
  wins : List (Nat × Nat × Bool)
  deriving DecidableEq, Repr

/-- A station of the legacy serial bus (R371). -/
structure SerialDesc where
  k : Nat
  out : Nat
  inp : Nat
  deriving DecidableEq, Repr

/-- An application package, or an on-line change package (R122, R125, R474). `rxPdus` gives each Safe Channel receive
connection its task, station entry, source and offset (R287), `txPdus` each transmit connection its task and the byte of the
output image where its PDU begins (R284). `trigMap` and `capMap` give the application's trigger and capture channels with the
words of `TU_TRGCFGn` and `TU_CAPCFGn`. `inInit` holds the initial values of the input ranges by their offset in the input image
region; `retVars` the retained variables as identifier, position and type; by lane address `code` holds the code and constants (R64), of a
change package those that result from it (R125), and `winInit` the windows' initial values. -/
structure AppPkg where
  tasks : Tab TaskDesc := []
  orange : Tab (Nat × Nat) := []
  windows : List WinDesc := []
  scratch : Tab (Nat × Nat) := []
  logs : Tab (Nat × Nat) := []
  preds : List PredDesc := []
  inRange : Tab (Nat × Nat) := []
  ins : List InBind := []
  outs : List OutBind := []
  groups : List GroupDesc := []
  stations : List StationDesc := []
  symbols : List Symbol := []
  entries : Tab Nat := []
  cardReads : List CardRead := []
  cards : List CardDesc := []
  serials : List SerialDesc := []
  serialRate : Nat := 0
  serialCycle : Nat := 10
  pubs : List PubDesc := []
  subs : List SubDesc := []
  rxPdus : List (Nat × Task × Nat × InSrc × Nat) := []
  txPdus : List (Nat × Task × Nat) := []
  fppTrig : List Nat := []
  trigMap : List (Nat × Word) := []
  capMap : List (Nat × Word) := []
  code : Mem := []
  winInit : Mem := []
  inInit : Mem := []
  retInit : Mem := []
  stopImg : Mem := []
  window : Nat := 15
  cmdWindow : Nat := 15
  spareEn : Bool := true
  layoutSig : Nat := 0
  retVars : List (Nat × Nat × Nat) := []
  warm : Bool := false
  convNs : Nat := 0
  hash : List Byte := []
  deriving DecidableEq, Repr

/-- The application state (R114). -/
inductive AppState where
  | notLoaded | stopped | starting | running | changing | held
  deriving DecidableEq, Repr

/-- A force (R118). -/
structure Force where
  id : Nat
  value : List Byte
  deriving DecidableEq, Repr

/-- A station entry (R103). -/
structure StnSt where
  last : Nat := 0
  abscyc : Nat := 0
  absent : Bool := false
  never : Bool := true
  failsafe : Bool := false
  deriving DecidableEq, Repr

/-- A cyclic task as the Keeper runs it (R95 to R103): the next grid point, the last cycle sampled and the last one whose image went out,
the overruns in a row, the counters of the system area, the image under construction (`img`, the real values), the one last delivered with its forced values (`prevImg`), whether collection
has closed, the words that the next image marks for a force set or removed, what the
subscriptions and serial stations held at the sample time, whether the own image of a standby waits for the forwarded one
(R381), output bytes whose force was removed since the last commit, what was counted up to the previous image (R560). -/
structure TaskSt where
  next : Nat := 0
  cycle : Nat := 0
  imaged : Bool := false
  outCycle : Nat := 0
  started : Bool := false
  overruns : Nat := 0
  skipped : Nat := 0
  skipFlag : Bool := false
  olcFlag : Bool := false
  grprej : Nat := 0
  grprejNext : Nat := 0
  lateImages : Nat := 0
  sampled : Bool := false
  closed : Bool := false
  complete : Bool := false
  img : Mem := []
  prevImg : Mem := []
  mask : List Nat := []
  sampleAt : Nat := 0
  stn : Tab StnSt := []
  respCode : Nat := 0
  respTag : Nat := 0
  respStatus : Nat := 0
  resp : Option (List Byte) := none
  forceMark : List Nat := []
  own : Bool := false
  snap : Tab (Nat × List Byte) := []
  unforced : List (Nat × Nat) := []
  edges0 : Tab Nat := []
  sil0 : Nat := 0
  take0 : Nat := 0
  deriving DecidableEq, Repr

/-- The application as a whole: its state, the stored package and the changes applied to it, whether one failed its check at boot (R125), when a change point under way is complete,
a package staged for an on-line change, the kind of the last start, the anchor, the outputs last committed, the forces (R114 to R125); the command that
waits for Running and the one that waits for a wake, whether the lanes are waking, a wake that the entry into Parked still delays, the resume point, the time T of R421. -/
structure AppSt where
  state : AppState := .notLoaded
  stored : Option AppPkg := none
  changes : List AppPkg := []
  pkg : AppPkg := {}
  hash : List Byte := []
  badImage : Bool := false
  changeEnd : Option Nat := none
  olcPkg : Option AppPkg := none
  olcHash : List Byte := []
  startKind : Nat := 0
  olcCount : Nat := 0
  anchor : Option Nat := none
  startByReady : Bool := false
  startChans : List Chan := []
  startHdr : List Byte := []
  startPay : List Byte := []
  wakeChans : List Chan := []
  wakeHdr : List Byte := []
  waking : Bool := false
  wakeNext : Option Nat := none
  resumeAt : Option Nat := none
  modeAt : Option Nat := none
  outImg : Mem := []
  tasks : Tab TaskSt := []
  forces : List Force := []
  stagedA : Mem := []
  stagedLenA : Nat := 0
  stagedB : Mem := []
  stagedLenB : Nat := 0
  stagedC : Mem := []
  stagedLenC : Nat := 0
  retMem : Mem := []
  retSig : Option Nat := none
  retCrc : Tab Nat := []
  deriving DecidableEq, Repr

/-- What a returning unit module has copied from the holder at the end of the last round (R396): retained memory and the declared state
windows as cells, the anchor and each task's next grid point, the Safe Channel receive connections (the acceptance time, the payload delivered
and its time), the consolidated images as cells of the image region, and the holder's digest of each task. -/
structure UnitCopy where
  retained : List (Nat × Byte)
  windows : List (Nat × Byte)
  anchor : Nat
  next : List (Task × Nat)
  rx : List (Nat × Nat × List Byte × Nat)
  images : List (Task × List (Nat × Byte))
  digests : List (Task × BitVec 128)
  deriving DecidableEq, Repr, Inhabited

end Sys2Proof.Machine
end

