-- ==== Sys2Proof/Machine/TypesUnits.lean ====
section
/-! DEFINITION. The parts of the state that belong to one unit of the module and that no register shows. -/

namespace Sys2Proof.Machine

/-- An event that a capture channel keeps until no sample can still come before it (R194): its time, the count with it, whether a step
has followed. -/
structure CapEnt where
  t : Nat
  count : Nat
  stepped : Bool := false
  deriving DecidableEq, Repr

/-- The last action on a trigger target (R199): the armed time, the channel, the level before it. -/
structure TrgSlot where
  t : Nat
  n : Nat
  old : Bool
  deriving DecidableEq, Repr

/-- The time unit (R179 to R199): the fraction accumulator and the increment in use, both in 2^−32 ns; the pulses that
still carry the step flag (R187); the servo's run counters (R189); the armed times of the trigger channels as 64-bit
times and a time that follows one already within its margin (R199); the times that Keeper channels are still to be armed for (R480); the ticks left of each trigger pulse; the rate of the
last servo run in 2^−40; the levels of `TIO1` to `TIO4`; nanoseconds of the current operating millisecond and since the reset; the shadow counters of the Keeper
dies, of which the ZM60-E4 has one, and of the field die (R26); a step that waits for the next tick (R187); the latest events of each capture
channel, newest first (R194); the last action on each trigger target (R199); the late
applies of the field, network and Keeper dies, keyed 1, 2, 3 (R40). -/
structure TuSt where
  frac : Nat := 0
  inc : Nat := 8 * 2 ^ 32
  stepPulses : Nat := 0
  stepPend : Option Int := none
  caps : Tab (List CapEnt) := []
  slots : Tab (Option TrgSlot) := []
  lateApplied : Tab Nat := []
  settledRuns : Nat := 0
  ptpRuns : Nat := 0
  bigRuns : Nat := 0
  servoRuns : Nat := 0
  trigAt : Tab Nat := []
  trigNext : Tab (Option Nat) := []
  trigLater : List (Nat × Nat) := []
  pulses : Tab Nat := []
  rate : Int := 0
  tio : Tab Bool := []
  opNs : Nat := 0
  upNs : Nat := 0
  keeperShadow : Shadow := {}
  keeperShadow2 : Shadow := {}
  fieldShadow : Shadow := {}
  deriving DecidableEq, Repr

/-- A stored ring configuration (R482): entries in use, the `BZ_CTRL` fields, `BZ_SYNCCFG`, the table words. -/
structure RingCfg where
  nent : Nat
  ctrl : Word
  sync : Word
  entries : List (Word × Word)
  deriving DecidableEq, Repr

/-- What is known of one basic cycle of a ring (R216, R248): whether a Mark of another node was accepted, whether it was a
stand-in, whether this node held rank 0 at its start and sent a Mark in it, whether its own Mark came back, whether it came back corrupted,
what else a cold starter met, whether a rank-0 Mark of a lower node was accepted (R561), whether a fold notice forbids a stand-in (R257). -/
structure BCyc where
  mark : Bool := false
  standin : Bool := false
  rank0 : Bool := false
  sent : Bool := false
  returned : Bool := false
  higher : Bool := false
  corrupted : Bool := false
  rank0Lower : Bool := false
  noStandin : Bool := false
  deriving DecidableEq, Repr

/-- One use of a deviation or of a reference message (R235, R243): its node, the half of the macrocycle, its value. -/
structure Dev where
  node : Nat
  late : Bool
  v : Int
  deriving DecidableEq, Repr

/-- An output record this node holds as a responder (R221). -/
structure HeldRec where
  commit : Nat
  off : Nat
  data : List Byte
  deriving DecidableEq, Repr

/-- A ring controller and its node beside the registers. Staged table and its check (R481). The basic cycles: the next, which a Mark can
reach before its nominal start, the present one and the three before it (R211, R216), those without an accepted Mark in a row. The Mark delay
`d` and the ring delay `dd` of its own Marks in force, those measured in this macrocycle, consecutive too long ones, whether a fold keeps
them from the mean (R207, R208, R258), when the last fold notice came. Counting, cold start, rank (R247 to R250, R561). Since when it is
joined. Deviations, excluded nodes, held macrocycles, the external correction: the last accepted, that of the last macrocycle, that to be
sent (R235 to R238, R257). Reference messages (R242 to R244). The last activity in ns since the reset (R246). Off, violations (R254). The
time of the last accepted Mark's basic cycle (R215). The accepted replies, the reply entries answered (R103, R223). What its replies carry,
by basic cycle (R210). As a responder: its output area, the records held, the last poll (R221). The last position word in the secondary
direction (R232). Broken segments that are ready (R262). -/
structure RingSt where
  staged : Tab (Word × Word) := []
  chkRule : Nat := 0
  chkEntry : Nat := 0
  ahead : BCyc := {}
  cur : BCyc := {}
  prev : BCyc := {}
  prev2 : BCyc := {}
  prev3 : BCyc := {}
  missed : Nat := 0
  d : Nat := 0
  dd : Option Nat := none
  ds : List Nat := []
  ownDs : List Nat := []
  longD : Nat := 0
  skipMean : Bool := false
  noticeAt : Nat := 0
  lastCorrect : Nat := 0
  cold : Bool := false
  coldCount : Nat := 0
  coldFails : Nat := 0
  coldYield : Bool := false
  rank0Act : Bool := false
  r0Seen : Bool := false
  r0Wait : Nat := 0
  yield : Bool := false
  transmitting : Bool := false
  since : Nat := 0
  devs : List Dev := []
  exclNow : List Nat := []
  exclNext : List Nat := []
  held : Nat := 0
  measured : Bool := false
  corrNow : Int := 0
  corr : Int := 0
  corrOut : Int := 0
  refSeq : Nat := 0
  refSeen : Option Nat := none
  refQuiet : Tab Nat := []
  lastActivity : Nat := 0
  off : Bool := false
  violTimes : List Nat := []
  markBase : Nat := 0
  replies : Tab (List (Nat × List Byte)) := []
  got : List (Nat × Nat) := []
  snaps : List (Nat × Mem) := []
  outArea : Mem := []
  recs : List HeldRec := []
  polled : Option Nat := none
  posSec : Nat := 0
  readyA : Bool := false
  readyB : Bool := false
  deriving DecidableEq, Repr

/-- A committed part on its way to the die that owns its port (R39, R40): its apply queue, its commit time, its target and
bytes, the time it reached the die, whether a poll has carried it and whether the last one had no room for it (R219). -/
structure Part where
  q : ApplyQ
  commit : Nat
  tgt : OutTgt
  data : List Byte
  t : Option Task := none
  cycle : Nat := 0
  reached : Nat := 0
  sent : Bool := false
  left : Bool := false
  deriving DecidableEq, Repr

end Sys2Proof.Machine
end

