-- ==== Sys2Proof/Machine/TypesIo.lean ====
section
/-! DEFINITION. What the field die and the safety functions hold beside their registers: input filters, output drive,
current loops, drives, the seal (chapters 12 to 14). -/

namespace Sys2Proof.Machine

/-- One 24 V input (R320 to R325): the filter counter, the raw level, the last raw edges, the edge chosen when the counter
last left each limit (with `NOEDGE`), the stamp of the last filtered transition as a 64-bit time, transitions since the
reset. -/
structure DiSt where
  cnt : Nat := 0
  raw : Bool := false
  rise : Option Nat := none
  fall : Option Nat := none
  up : Nat × Bool := (0, true)
  down : Nat × Bool := (0, true)
  ts : Nat := 0
  edges : Nat := 0
  deriving DecidableEq, Repr

/-- One `HSO` or `FPP` output (R326 to R334), keyed by the codes of `REQOUT`: 1 to 12 and 0x11 to 0x14. It is off after a
shutdown or overload until its retry; the level its last trigger left; the level held at the silence expiry; when its last shutdown or
retry was, in the time since the reset. -/
structure OutSt where
  shut : Bool := false
  trig : Bool := false
  hold : Bool := false
  since : Nat := 0
  deriving DecidableEq, Repr

/-- The field die's digital side: inputs, outputs, whether the Keeper has written the configuration (R334), consecutive
filter samples with `FLD+` at 19.2 V or more and below 16.8 V, whether `FLD+` below 16.8 V persists (R304, R335), silence entries
(R337), when the last commit message arrived, in the time since the reset (R332). -/
structure FdSt where
  di : Tab DiSt := []
  out : Tab OutSt := []
  configured : Bool := false
  good : Nat := 0
  low : Nat := 0
  supplyLow : Bool := false
  silEntries : Nat := 0
  msgAt : Nat := 0
  deriving DecidableEq, Repr

/-- What a channel's image record shows from a time on (R354): value, status, and the stamp of the result. -/
structure AioRes where
  start : Nat
  value : Nat
  status : Nat
  stamp : Nat
  deriving DecidableEq, Repr

/-- One analogue channel (R340 to R354): consecutive measurements that found and that missed each condition of R349, the
measurements since `COMPL` changed, the last conversions newest first, whether the switches settle and since when, whether the shunt is
disconnected and when it was (both in the time since the reset), when a triggered conversion ends, the current held at the silence
expiry, what its record shows newest first. -/
structure AioSt where
  openN : Nat := 0
  openOff : Nat := 0
  complN : Nat := 0
  complOff : Nat := 0
  faultN : Nat := 0
  faultOff : Nat := 0
  delN : Nat := 0
  delOff : Nat := 0
  foldN : Nat := 0
  convs : List Int := []
  settling : Bool := false
  settleAt : Nat := 0
  shuntOff : Bool := false
  shuntAt : Nat := 0
  busyUntil : Nat := 0
  hold : Nat := 0
  shows : List AioRes := []
  deriving DecidableEq, Repr

/-- One drive (R299 to R309): the encoder counts of the last evaluations newest first, the times and speeds of SS1, the
request held, when the last encoder fault was or the drive last became Torque-off or Off from another state (R309, in the time since
the reset), the state last reported by channel A and the time since the two channels differ. -/
structure DrvSt where
  counts : List Int := []
  t0 : Nat := 0
  v0 : Option Nat := none
  still : Option Nat := none
  req : Bool := false
  encFrom : Nat := 0
  differ : Option Nat := none
  rbA : Bool := false
  deriving DecidableEq, Repr

/-- One input pair (R311): the stamp of the first change of Closing or Opening and whether it was the second channel's, the
stamp of the last change of its value as a 64-bit time. -/
structure PairSt where
  first : Nat := 0
  second : Bool := false
  ts : Nat := 0
  deriving DecidableEq, Repr

/-- The safety functions (R299 to R319): drives, pairs, whether the channel B watchdog has expired; the last readings of the
seal switches and how many in a row agree, the valid reading, when the last valid read was; in MRAM the accepted setting,
the hash it was accepted against, whether there is one; the standby domain's consecutive open checks and its latch. -/
structure SfSt where
  drv : Tab DrvSt := []
  pair : Tab PairSt := []
  wdExpired : Bool := false
  lastRead : Option Byte := none
  same : Nat := 0
  valid : Option Byte := none
  validAt : Nat := 0
  accepted : Option Byte := none
  accHash : List Byte := []
  openChecks : Nat := 0
  tamper : Bool := false
  tamperSec : Nat := 0
  deriving DecidableEq, Repr

/-- One Safe Channel receive connection (R281, R288 to R293): whether a PDU was accepted since the application started, its
acceptance time, the payload delivered and the time-stamp it carries, the latest valid payload, an acknowledgement given. -/
structure RxSt where
  accepted : Bool := false
  sLast : Nat := 0
  out : List Byte := []
  outT : Nat := 0
  latest : List Byte := []
  latestT : Nat := 0
  ack : Bool := false
  failedNow : Bool := false
  deriving DecidableEq, Repr

/-- The Safe Channel engine's key store, fail-safe values and connection states (R281, R282, R298). -/
structure ScSt where
  txKey : Tab (List Byte) := []
  rxKey : Tab (List Byte) := []
  safeVal : Tab (List Byte) := []
  rx : Tab RxSt := []
  deriving DecidableEq, Repr

end Sys2Proof.Machine
end

