-- ==== Sys2Proof/Machine/TypesKeep.lean ====
section
/-! DEFINITION. What the Keeper keeps beside its registers: stored settings, the update, the unit, the standby domain and
the power inputs (chapters 16, 18, 22, 24). -/

namespace Sys2Proof.Machine

/-- A stored unit configuration (R377, R487). -/
structure UnitCfg where
  unit : Nat
  partner : Nat
  witness : Nat
  backup : Option Nat
  r1 : Bool
  r2 : Bool
  deriving DecidableEq, Repr

/-- The stored settings records in user flash (R519): what each command last stored, and the settings version each record
was written with, keyed 1, 2 for the rings, 3 for the unit, 4 to 7 for the witness entries, 8 for `TIME_CONFIG`, 9 for
`ETH_CONFIG`, 10 for `FIO_CONFIG`, 11 for `MOD_WAKECFG`, 16 + n for triggers, 32 + n for captures. -/
structure Settings where
  ring1 : Option RingCfg := none
  ring2 : Option RingCfg := none
  unit : Option UnitCfg := none
  wit : Tab Word := []
  time : Option (List Byte) := none
  trig : Tab (List Byte) := []
  cap : Tab Word := []
  eth : Option (List Byte) := none
  fio : Option (List Byte) := none
  wake : Option (List Byte) := none
  vers : Tab Nat := []
  deriving DecidableEq, Repr

/-- The update (chapter 22): the manifest in MRAM, the chunk store in user flash, the partial chunk in the Keeper's memory,
whether the chunk table is verified, the two banks, the settings as they were before a trial. -/
structure UpSt where
  manifest : List Byte := []
  store : Mem := []
  part : Option (Nat × List Byte) := none
  tableOk : Bool := false
  bankA : List Byte := []
  bankB : List Byte := []
  orig : Option Settings := none
  deriving DecidableEq, Repr

/-- A health record (R394), with the macrocycle in which it was accepted. -/
structure Health where
  node : Nat := 0
  mode : Nat := 0
  mcycl : Nat := 0
  checks : Nat := 0
  level : Nat := 0
  elig : Nat := 0
  at_ : Nat := 0
  deriving DecidableEq, Repr

/-- A witnessed unit (R385, R391): the recorded holder, the former holder, the last valid `LSEQ` and the one expected, the
basic cycles since joining, the renewal met in this basic cycle, the last fresh grant with its grantee, `LSEQ` and basic
cycle, the record to send, what the witness proper said in this basic cycle, the two modules' health records. -/
structure WitSt where
  holder : Option Nat := none
  former : Option Nat := none
  lseq : Nat := 0
  expect : Nat := 0
  cycles : Nat := 0
  met : Option Nat := none
  grant : Option (Nat × Nat × Nat) := none
  verdict : Option (List Byte) := none
  heard : Option (List Byte) := none
  healthA : Option Health := none
  healthB : Option Health := none
  deriving DecidableEq, Repr

/-- The unit (chapter 16): whether Isolated was entered under R386 or R393, what bars eligibility until the next reset (both
bits, or only the one for an unheld unit), the lease end L, an accepted grant's act time and lease end, the last act time and
the takeovers seen with the time of the last, a handover or a park that ends the lease, the response that waits for the next
basic cycle, the holder last heard with its time and level, the partner's health record, the renewal number, the renewals
built in this basic cycle and the two before it, whether the witness was heard in this basic cycle and the cycles without any Watch
record, deadlines missed on each ring in this macrocycle, by each witness the basic cycle of its last record in time, whether a record has
missed its deadline on every ring, checks failed in this macrocycle, checks that the Self-Test holds failed (R531), whether the state is synchronised with the
holder, the pages that the copy still has to send, forwarded images, frames with Light records in the closure delay, the
witnessed units. -/
structure UnSt where
  isoUnit : Bool := false
  barred : Bool := false
  barred1 : Bool := false
  lease : Option Nat := none
  actAt : Option (Nat × Nat) := none
  lastAct : Nat := 0
  takeovers : Nat := 0
  tookOverAt : Option Nat := none
  noRenewal : Bool := false
  leaveTo : Option Nat := none
  answer : Option (List Chan × List Byte × List Byte) := none
  holder : Option (Nat × Nat) := none
  holderLevel : Nat := 0
  partner : Option Health := none
  lseq : Nat := 0
  curRen : Option Nat := none
  prevRen : Option Nat := none
  prevRen2 : Option Nat := none
  watchW : Bool := false
  watched : Bool := false
  noWatch : Nat := 0
  late1 : Bool := false
  late2 : Bool := false
  onTime : Tab Nat := []
  missed : Bool := false
  failNow : Nat := 0
  failHold : Nat := 0
  synced : Bool := true
  resyncing : Bool := false
  fwd : Tab (Nat × List Byte) := []
  light1 : Option (List Byte) := none
  light2 : Option (List Byte) := none
  wit : Tab WitSt := []
  deriving DecidableEq, Repr

/-- The contents of a signed safety configuration (R281, R298, R312, R319): the words of the `SC_` and `SF_` registers, the
keys and fail-safe values by connection, the seal setting. The spec gives no file format; `Config.parseSafety` stands for
it. -/
structure SafePkg where
  words : List (Nat × Word) := []
  txKey : Tab (List Byte) := []
  rxKey : Tab (List Byte) := []
  safeVal : Tab (List Byte) := []
  sealSet : Byte := 0
  deriving DecidableEq, Repr

/-- The keys in MRAM (R282, R433, R456, R494): the service credential, the package verification key, the stored safety
configuration with its hash. -/
structure KeySt where
  cred : Option (List Byte) := none
  pkgKey : Option (List Byte) := none
  safe : Option SafePkg := none
  safeHash : List Byte := []
  deriving DecidableEq, Repr

/-- The standby domain (R32, R33, R416, R554): RTC seconds and 1/32,768 s fractions, the part of a fraction that has passed in 10^9ths, whether the Keeper has written it since it lost power, the
provisional time read at boot, when the Keeper last wrote it, whether the cell is low, whether all power was lost; the operating
time that MRAM holds (R496). -/
structure SbSt where
  rtc : Nat := 0
  rtcFrac : Nat := 0
  rtcAcc : Nat := 0
  rtcWritten : Bool := false
  provisional : Option Nat := none
  rtcAt : Option Nat := none
  cellLow : Bool := false
  lost : Bool := false
  opStored : Nat := 0
  deriving DecidableEq, Repr

/-- The rear pins: the slot's geographic address (R541, R542); the supply inputs (R543, R544): the codes that the harness gives them, which
are below range and which are disconnected. -/
structure PwSt where
  geo : Nat := 0
  codeA : Nat := 1
  codeB : Nat := 1
  belowA : Bool := false
  belowB : Bool := false
  discA : Bool := false
  discB : Bool := false
  deriving DecidableEq, Repr

/-- A commanded test that holds its port (R527): where its answer goes, when it ends by the operating time, the units it will have sent and
those that return intact, the result code. -/
structure LoopRun where
  port : Nat
  depth : Nat
  chans : List Chan
  hdr : List Byte
  payload : List Byte
  endNs : Nat
  sent : Nat
  intact : Nat
  result : Nat
  deriving DecidableEq, Repr

/-- Debug and production test (R432, R527, R534 to R538): the instruction each die's register holds, the dies whose pins boundary scan
has taken, production test, an external probe plugged in, the commanded test that runs. -/
structure DbgSt where
  tap : Tab Nat := []
  scanned : List Nat := []
  prod : Bool := false
  probe : Bool := false
  loop : Option LoopRun := none
  deriving DecidableEq, Repr

end Sys2Proof.Machine
end

