-- ==== Sys2Proof/Config.lean ====
section
/-! DEFINITION. What the spec leaves to an implementation or names without defining: opaque constants, so that no proof
rests on a value. Each has its entry in the assumption log. -/

namespace Sys2Proof.Config
open Sys2Proof.Machine

/-- The value the spec leaves open, fresh for each use of the counter `State.free`: the undefined data of a colliding
exchange-window access (R15, R170). [DESIGN CHOICE: log 8] -/
opaque freeWord : Nat → Word

/-- The load current of an `HSO` that is on, in mA (R339), by its number and the time: the spec gives no load. [DESIGN CHOICE: log 116] -/
opaque loadMa : Nat → Nat → Nat

/-- How far a Mark's start lies from its time by the guardian's counter (R253, R254), in ns, fresh for each use of the counter.
[DESIGN CHOICE: log 117] -/
opaque markDev : Nat → Int

/-- What a returning unit module has copied from the holder at the end of a last round (R396), fresh for each use of the counter.
[DESIGN CHOICE: log 53] -/
opaque unitCopy : Nat → UnitCopy

/-- Random bytes the Keeper draws for a challenge (R455), fresh for each use of the counter. [DESIGN CHOICE: log 15] -/
opaque nonce : Nat → List Byte

/-- A mixing of the values of one word (R49): 0 for value 0, and different for different values. -/
structure Mixing where
  mix : BitVec 64 → BitVec 128
  zero : mix 0 = 0
  oneToOne : ∀ v w, mix v = mix w → v = w

/-- The least of the mixings that R49 allows, for the words to which `Config.mixing` gives none. -/
def plainMixing : Mixing where
  mix v := v.zeroExtend 128
  zero := rfl
  oneToOne v w h := by simpa using congrArg (BitVec.setWidth 64) h

/-- The mixing function of the state digest (R49), by the word's address: any that is 0 at value 0 and one-to-one. [DESIGN CHOICE: log 13] -/
opaque mixing : BitVec 64 → Option Mixing

/-- SHA-256, as the spec names it (R474, R64). [DESIGN CHOICE: log 11] -/
opaque sha256 : List Byte → List Byte

/-- Does a signature of a package verify against the installed verification key (R474, R494)? [DESIGN CHOICE: log 11] -/
opaque signed : List Byte → List Byte → Bool

/-- Fomathal's public key for manifests, images, tokens and records (R493, R494, R507, R509). [DESIGN CHOICE: log 11] -/
opaque makerKey : List Byte

/-- The factory unit key, with which the service channel authenticates outside In-Service (R432, R456). [DESIGN CHOICE: log 11] -/
opaque unitKey : List Byte

/-- What a `TEST_LOOP` on a port at a depth for a number of units meets (R527): whether the plug is present, two numbers that fix how
many units are sent before the time is up and how many return intact, and how long it takes in ns. The spec gives no device on the other
side; fresh for each use of the counter. [DESIGN CHOICE: log 16] -/
opaque loopTest : Nat → Nat → Nat → Nat → Bool × Nat × Nat × Nat

/-- The step of its run that a commanded test of a field port is at, at an instant of the operating time (R532): odd for on, even for off; for a
current loop 4, 12 or 20 mA by the rest of 3. The spec gives the steps, not their instants. [DESIGN CHOICE: log 16] -/
opaque testStep : Nat → Nat → Nat

/-- HMAC-SHA-256 under a key (R455). [DESIGN CHOICE: log 11] -/
opaque hmac : List Byte → List Byte → List Byte

/-- The 64 bytes of HKDF-SHA-256 (R456): credential, salt, info. [DESIGN CHOICE: log 11] -/
opaque hkdf : List Byte → List Byte → List Byte → List Byte

/-- AES-256-GCM opening of a record (R455, R456): key, nonce, additional data, body, tag. [DESIGN CHOICE: log 11] -/
opaque gcmOpen : List Byte → List Byte → List Byte → List Byte → List Byte → Option (List Byte)

/-- AES-256-GCM sealing: key, nonce, additional data, body. The answer is body and tag. [DESIGN CHOICE: log 11] -/
opaque gcmSeal : List Byte → List Byte → List Byte → List Byte → List Byte × List Byte

/-- The contents of an application package or an on-line change package (R93, R122): the spec gives no file format.
[DESIGN CHOICE: log 12] -/
opaque parseApp : List Byte → Option AppPkg

/-- What the conversion of an on-line change package stores in a lane, by address, from the lane's own memory (R123). The spec gives no form
of a conversion. [DESIGN CHOICE: log 12] -/
opaque conversion : AppPkg → Mem → Mem

/-- The contents of a signed safety configuration (R281, R319): the spec gives no file format. [DESIGN CHOICE: log 12] -/
opaque parseSafety : List Byte → Option SafePkg

/-- The report data of a class 1 to 4 fault of the module's own units (R404, R411), fresh for each use of the counter.
[DESIGN CHOICE: log 14] -/
opaque reportData : Nat → List Byte

end Sys2Proof.Config
end

