-- ==== Sys2Proof/Machine/TypesNet.lean ====
section
/-! DEFINITION. What the consist network and the rack bus hold beside their registers (chapters 10 and 15). -/

namespace Sys2Proof.Machine

/-- A subscription (R273, R274): the `SEQ` and receive stamp of the last accepted datagram, its commit time, its data. -/
structure SubSt where
  seq : Option Nat := none
  stamp : Nat := 0
  commit : Nat := 0
  data : List Byte := []
  deriving DecidableEq, Repr

/-- A master that a port hears (R267): its announced data set, best first by comparison, its identity, its last Announce. -/
structure PtpMaster where
  rank : List Nat := []
  gm : Nat := 0
  at_ : Nat := 0
  deriving DecidableEq, Repr

/-- PTP on one port (R267 to R269): the master heard, the times of the last three Syncs, a two-step Sync that waits for its
Follow_Up (sequence, receive stamp, correction), the stamps of a delay request under way, the mean delay in 1/16 ns. -/
structure PtpPort where
  master : Option PtpMaster := none
  syncs : List Nat := []
  twoStep : Option (Nat × Nat × Int) := none
  reqAt : Option (Nat × Nat) := none
  respT2 : Option (Nat × Int) := none
  syncT : Option (Nat × Int) := none
  delay : Option Int := none
  seq : Nat := 0
  deriving DecidableEq, Repr

/-- What a frame still takes on as it leaves a port (R192, R268): nothing; the transparent clock's correction of a forwarded frame (where its
message begins, its transport, the receive stamp, what is added to the residence time in 2^−16 ns, the tag); the time of its leaving as its
origin; the time it took to answer; the start of a delay request of a sequence number. -/
inductive OutFix where
  | none
  | residence (f : EthFrame) (at_ tr rx : Nat) (add : Int) (tagged : Bool) (pcp vid : Nat)
  | origin
  | answer (rx : Nat)
  | request (seq : Nat)
  deriving DecidableEq, Repr

/-- A frame in an egress queue. -/
structure OutFrame where
  bytes : List Byte
  fix : OutFix := .none
  due : Nat := 0
  deriving DecidableEq, Repr

/-- The Ethernet switch, the PTP engine and process data (R264 to R275): the address table (VLAN, address, port, when it was learned in ns of
operating time), the frames waiting in each egress
queue (keyed 4 × port + queue), the tenths of a byte still to leave on each port, the subscriptions, the PTP ports, the offsets of this macrocycle (second half or not,
1/256 ns), whether a slave port has existed since the reset, the publications that hold committed words since the application
started (R272). -/
structure EthSt where
  table : List (Nat × Nat × Nat × Nat) := []
  queues : Tab (List OutFrame) := []
  wire : Tab Nat := []
  subs : Tab SubSt := []
  ptp : Tab PtpPort := []
  offs : List (Bool × Int) := []
  hadSlave : Bool := false
  pubUsed : List Nat := []
  deriving DecidableEq, Repr

/-- Who waits for the data of a card read (R361, R363, R365, R366): a configured read of an image, a voted load of a task. -/
inductive RdFor where
  | image (t : Nat) (idx : Nat)
  | lane (t : Nat) (place : Nat)
  deriving DecidableEq, Repr

/-- A read as it is asked for: who asks, slot, address, words, the task's cycle. -/
structure RdReq where
  who : RdFor
  slot : Nat
  a : Nat
  words : Nat
  cycle : Nat
  deriving DecidableEq, Repr

/-- A read tag (R361): free 0, outstanding 1, quarantined 2, a completion held 3; the reads it serves; whether it fills prefetch
buffer `buf`. -/
structure RdTag where
  st : Nat := 0
  reqs : List RdReq := []
  slot : Nat := 0
  a : Nat := 0
  words : Nat := 0
  buf : Option Nat := none
  deriving DecidableEq, Repr

/-- A prefetch buffer (R366): its block and slot, the read tag that fills it, data once they have arrived, the words used, when it was filled and last
used. -/
structure PfBuf where
  valid : Bool := false
  slot : Nat := 0
  block : Nat := 0
  data : Option (List Word) := none
  used : List Nat := []
  lastUse : Nat := 0
  tag : Nat := 0
  deriving DecidableEq, Repr

/-- What a task's bridge status record reports (R369). -/
structure RbTask where
  rderr : Nat := 0
  werr : Nat := 0
  code : Nat := 0
  slot : Nat := 0
  a : Nat := 0
  cycle : Nat := 0
  ambig : Bool := false
  deriving DecidableEq, Repr

/-- A configured card read's answer in a cycle (R365). -/
structure CardIn where
  cycle : Nat := 0
  ok : Bool := false
  data : List Word := []
  deriving DecidableEq, Repr

/-- An access to the exchange window that occupies the array (R169, R170): its clock, word and direction; of a read, whether its
data are still to be delivered and whether they are undefined. -/
structure WinAcc where
  clk : Nat
  word : Nat
  wr : Bool
  due : Bool := false
  undef : Bool := false
  busy : Bool := false
  old : Word := 0
  val : Word := 0
  be : Nat := 0
  deriving DecidableEq, Repr

/-- A port B access that is being retried (R171): its word, what it writes, the clock of the next retry, the `BUSY`s so far. -/
structure WinRetry where
  word : Nat
  wr : Option Word
  clk : Nat
  tries : Nat
  deriving DecidableEq, Repr

/-- A voted access to the exchange window that awaits its performance at port B, word by word (R169, R362): task and place, the next word,
what is left to write or to read, what was read. -/
structure PortB where
  t : Nat
  place : Nat
  word : Nat
  wr : Bool
  left : List Word
  got : List Word := []
  deriving DecidableEq, Repr

/-- A station of the serial bus (R371 to R374): the next `SEQ`, the last accepted data and when they ended. -/
structure LsStn where
  seq : Nat := 0
  data : List Byte := []
  endAt : Option Nat := none
  deriving DecidableEq, Repr

/-- The rack bridge and the serial bus beside their registers: tags, reads that wait for one, prefetch buffers, posted writes so
far, the tasks' status, card inputs, the data of voted loads; the exchange window with the last access on each port, the
retry under way, collisions; the serial station polled with what each line has answered, the stations still to poll, the
lines' consecutive failures and successes. -/
structure RbSt where
  tags : Tab RdTag := []
  waitRd : List RdReq := []
  pf : Tab PfBuf := []
  posted : Nat := 0
  tasks : Tab RbTask := []
  cardIn : Tab CardIn := []
  loads : List (Nat × Nat × List Word) := []
  win : Mem := []
  winA : Option WinAcc := none
  winB : Option WinAcc := none
  retry : Option WinRetry := none
  portB : List PortB := []
  collisions : Nat := 0
  lsNow : Option Nat := none
  lsLeft : List Nat := []
  lsA : Option Bool := none
  lsB : Option Bool := none
  lsMissA : Nat := 0
  lsMissB : Nat := 0
  lsOkA : Nat := 0
  lsOkB : Nat := 0
  ls : Tab LsStn := []
  deriving DecidableEq, Repr

end Sys2Proof.Machine
end

