-- ==== Sys2Proof/Machine/State.lean ====
section
/-! DEFINITION. The state of the module, its reset value, and the reasons a step can stop. -/

namespace Sys2Proof.Machine

/-- Why a step stops. The model raises no fault: every command of the spec's table has an effect, and what the manual calls
a fault is that effect (R402). -/
inductive Fault where
  /-- Raised by no meaning: it stands so that the type is not empty. Safe. -/
  | unreachable
  deriving DecidableEq, Repr

/-- Why a command is turned away by the model: none is. -/
inductive Refusal where
  /-- Raised by a dispatch arm whose command has no meaning: every arm has one, so by none. Safe. -/
  | notModelled (mnemonic : String)
  deriving DecidableEq, Repr

/-- Something the module sends or signals: the model's own trace of what leaves it, newest first. A ring idle word is a position word
(0, R232), a fold notice (1), an unfold notice (2) or a ready word (3). -/
inductive TxItem where
  | ringFrame (r : Nat) (port : Nat) (body : List Byte)
  | ethFrame (port : Nat) (body : List Byte)
  | ringIdle (r port kind value : Nat)
  | pairFrame (body : List Byte)
  | serialFrame (body : List Byte)
  | record (kind : Nat) (ctr : Nat) (body : List Byte)
  | closed (via : SvcVia)
  | irq (lane pair : Nat) (what : Nat)
  | rackRead (tag : Nat) (slot a len : Nat)
  | rackWrite (seq slot a : Nat) (data : List Word)
  | rackData (lanes : List Nat) (task place : Nat) (data : List Word)
  | rackBusErr (lane task : Nat)
  | winA (a : Nat) (data : Option Word) (busy : Bool)
  | winB (off : Nat) (data : Option Word)
  | winBusErr (off : Nat)
  | laneFrame (lane : Nat) (body : List Byte)
  | rackConfig (slot off v : Nat)
  | stoPulse (drive : Nat) (channelB : Bool) (us : Nat)
  | linkPacket (link seq : Nat) (body : List Byte) (crc : Nat)
  | linkReplay (link seq : Nat)
  | timePulse (word : Nat)
  | loaded (lane core a : Nat) (data : List Byte)
  | exception (lane core code : Nat)
  deriving DecidableEq, Repr

/-- The state of the module. -/
structure State where
  /-- The commands that wait, first in, first out. -/
  pending : List Instr
  /-- The variant (R1). -/
  variant : Variant
  /-- Every register of every block (R34, R35). -/
  regs : Regs
  /-- The model's own counter of free values used. -/
  free : Nat
  /-- The initiator's bus error of the last register access, if it had one (R11, R36). -/
  busErr : Bool
  /-- What has left the module, newest first: the model's own. -/
  tx : List TxItem
  ev : EvSt
  fc : FcSt
  sess : SessSt
  /-- Mailbox buffers: channel c at offset 0x1000 × c (R439). -/
  mb : Mem
  waiting : Option Waiting
  queued : List Queued
  streams : List StreamVote
  votes : List CycVote
  laneA : LaneSt
  laneB : LaneSt
  laneC : LaneSt
  laneD : LaneSt
  links : Tab LinkSt
  app : AppSt
  tu : TuSt
  ring1 : RingSt
  ring2 : RingSt
  /-- Committed parts held at the dies (R40), oldest commit first; parts the Keeper holds back because a limit of eight
  commit times is reached; parts on their way to the field die. -/
  parts : List Part
  backlog : List Part
  transit : List Part
  /-- What `NOW` records carry: the committed output areas of the ring nodes (R219). -/
  netOut : Mem
  /-- The ring nodes, 16 × ring + node, that hold committed outputs since the application started (R220). -/
  netUsed : List Nat
  eth : EthSt
  rb : RbSt
  fd : FdSt
  an : Tab AioSt
  sf : SfSt
  sc : ScSt
  cfg : Settings
  up : UpSt
  un : UnSt
  keys : KeySt
  sb : SbSt
  pw : PwSt
  dbg : DbgSt
  deriving DecidableEq, Repr

/-- A lane as a reset leaves it: wiping (R174). -/
def resetLaneSt : LaneSt := { lwiping := true, pwiping := true }

/-- The module right after its power-on reset, in Boot (R420 row 3), as it leaves the factory: Blank, nothing stored. The
registers that differ from the reset values of their tables are those the hardware loads: `VX_CTRL.SPAREEN` and the lanes'
states of the variant (R63, R72), the seal (R315), `LC_STATE.DBGPERM` of a Blank module (R432), the lanes' own numbers and
states (R71). [DESIGN CHOICE: log 1, 3, 4, 5, 6, 7: variant, stores, standby domain, harness] -/
def State.reset : State where
  pending := []
  variant := .zm80
  regs := [(0x40000000, 0x10F0F), (0x40000004, 0x3333), (0x40020004, 0x01000000), (0x40090004, 0x10),
    (0x70060000, 0x3), (0x71060000, 0x13), (0x72060000, 0x23), (0x73060000, 0x33)]
  free := 0
  busErr := false
  tx := []
  ev := {}
  fc := {}
  sess := {}
  mb := []
  waiting := none
  queued := []
  streams := []
  votes := []
  laneA := resetLaneSt
  laneB := resetLaneSt
  laneC := resetLaneSt
  laneD := resetLaneSt
  links := []
  app := {}
  tu := {}
  ring1 := {}
  ring2 := {}
  parts := []
  backlog := []
  transit := []
  netOut := []
  netUsed := []
  eth := {}
  rb := {}
  fd := {}
  an := []
  sf := {}
  sc := {}
  cfg := {}
  up := {}
  un := {}
  keys := {}
  sb := {}
  pw := {}
  dbg := {}

end Sys2Proof.Machine
end

