-- ==== Sys2Proof/Machine/Ops.lean ====
section
/-! DEFINITION. The named operations over the state: registers and their fields, time, the event recorder, the event
queues of the mailboxes, class 0 notices. -/

namespace Sys2Proof.Machine

/-- The value of a register field. -/
def State.g (s : State) (f : Fld) : Nat := s.regs.g f

/-- A register field set. -/
def State.p (s : State) (f : Fld) (v : Nat) : State := { s with regs := s.regs.p f v }

/-- Is a one-bit field 1? -/
def State.on (s : State) (f : Fld) : Bool := s.g f == 1

/-- A one-bit field set from a Bool. -/
def State.pb (s : State) (f : Fld) (b : Bool) : State := s.p f (if b then 1 else 0)

/-- A counter that wraps at its width, one more. -/
def State.inc (s : State) (f : Fld) : State := s.p f (s.g f + 1)

/-- A counter that saturates at its width, `n` more. -/
def State.satAdd (s : State) (f : Fld) (n : Nat) : State := s.p f (min (s.g f + n) (2 ^ f.w - 1))

/-- The word of a register. -/
def State.word (s : State) (f : Fld) : Word := s.regs.rd f.reg

/-- The state of a lane. -/
def State.lane (s : State) : Nat → LaneSt
  | 0 => s.laneA
  | 1 => s.laneB
  | 2 => s.laneC
  | _ => s.laneD

/-- A lane's state replaced. -/
def State.setLane (s : State) : Nat → LaneSt → State
  | 0, x => { s with laneA := x }
  | 1, x => { s with laneB := x }
  | 2, x => { s with laneC := x }
  | _, x => { s with laneD := x }

/-- A change made to one lane's state. -/
def State.modLane (s : State) (l : Nat) (f : LaneSt → LaneSt) : State := s.setLane l (f (s.lane l))

/-- Something leaves the module. An unpowered module sends nothing (R419). [DESIGN CHOICE: log 1, 34] -/
def State.emit (s : State) (x : TxItem) : State := if s.g LC_MODE_MODE == 0 then s else { s with tx := x :: s.tx }

/-- Global time as the 64-bit value of R181. -/
def State.now (s : State) : Nat := s.g TU_ERA_ERA * 2 ^ 32 + s.g TU_NS_NS

/-- A signed 32-bit value (two's complement). -/
def sint32 (v : Nat) : Int := if v % 2 ^ 32 < 2 ^ 31 then (v % 2 ^ 32 : Int) else (v % 2 ^ 32 : Int) - 2 ^ 32

/-- The low 32 bits of an integer. -/
def u32 (v : Int) : Nat := (v % 2 ^ 32).toNat

/-- Extension of a 32-bit time against a reference by compare-and-add (R184). -/
def extend (ref v : Nat) : Nat := ((ref : Int) + sint32 (u32 ((v : Int) - (ref : Int)))).toNat

/-- Operating time in ms (R496). -/
def State.opms (s : State) : Nat := s.g LC_OPMSHI_MS * 2 ^ 32 + s.g LC_OPMSLO_MS

/-- Is the module synchronised (R188)? -/
def State.sync (s : State) : Bool := s.on TU_STAT_SYNC

/-- The mode code (R419). -/
def State.mode (s : State) : Nat := s.g LC_MODE_MODE

/-- Mode codes of R419. -/
abbrev mDormant : Nat := 0
abbrev mBoot : Nat := 1
abbrev mSelfTest : Nat := 2
abbrev mCommissioning : Nat := 3
abbrev mSynchronising : Nat := 4
abbrev mActive : Nat := 5
abbrev mHotStandby : Nat := 6
abbrev mIsolated : Nat := 7
abbrev mMaintenance : Nat := 8
abbrev mUpdate : Nat := 9
abbrev mParked : Nat := 10
abbrev mSafeHalt : Nat := 11

/-- A list of bytes cut or filled with zeros to length `n`. -/
def padTo (n : Nat) (bs : List Byte) : List Byte := (bs ++ List.replicate n 0).take n

/-- One step of a bitwise CRC with the least significant bit first. -/
def crcStepR (poly c : Nat) : Nat → Nat
  | 0 => c
  | n + 1 => crcStepR poly (if c % 2 = 1 then (c / 2) ^^^ poly else c / 2) n

/-- CRC-32 with the IEEE 802.3 polynomial (R495), over bytes from a running value. -/
def crc32Run : Nat → List Byte → Nat
  | c, [] => c
  | c, b :: bs => crc32Run (crcStepR 0xEDB88320 (c ^^^ b.toNat) 8) bs

/-- CRC-32 with the IEEE 802.3 polynomial. -/
def crc32 (bs : List Byte) : Nat := crc32Run 0xFFFFFFFF bs ^^^ 0xFFFFFFFF

/-- One step of a bitwise CRC of width `w` with the most significant bit first. -/
def crcStepL (w poly c : Nat) : Nat → Nat
  | 0 => c
  | n + 1 => crcStepL w poly (if c / 2 ^ (w - 1) % 2 = 1 then (c * 2 % 2 ^ w) ^^^ poly else c * 2 % 2 ^ w) n

/-- A CRC of width `w` with the most significant bit first, over bytes from a running value. -/
def crcRunL (w poly : Nat) : Nat → List Byte → Nat
  | c, [] => c
  | c, b :: bs => crcRunL w poly (crcStepL w poly (c ^^^ (b.toNat * 2 ^ (w - 8))) 8) bs

/-! ### Event recorder (R495 to R502) -/

/-- The 60 bytes of a record before its check word (R495). -/
def EvRec.body (r : EvRec) : List Byte :=
  leBytes 4 r.seq ++ leBytes 8 r.opms ++ leBytes 4 r.pwrcyc ++ leBytes 4 r.ns ++ leBytes 4 r.era ++
  leBytes 2 r.source ++ leBytes 2 r.code ++ leBytes 1 r.cls ++ leBytes 1 r.flags ++ leBytes 2 r.rep ++
  padTo 16 r.data ++ leBytes 4 r.lastdms ++ leBytes 4 r.seq ++ leBytes 4 0

/-- The 64 bytes of a record (R495). -/
def EvRec.bytes (r : EvRec) : List Byte := r.body ++ leBytes 4 (crc32 r.body)

/-- What is to be recorded: source, code, class, the forced and escalated flags, data. -/
structure EvIn where
  source : Nat
  code : Nat
  cls : Nat
  forced : Bool := false
  esc : Bool := false
  data : List Byte := []
  deriving DecidableEq, Repr

/-- Every record held, oldest first. -/
def State.records (s : State) : List EvRec := s.ev.flash ++ s.ev.staged

/-- The sequence number after `n` (R496): 0 never names a record. -/
def seqNext (n : Nat) : Nat := if n ≥ 0xFFFFFFFF then 1 else n + 1

/-- The event registers that show what the recorder holds (R505). -/
def State.evRegs (s : State) : State :=
  let rs := s.records
  let s := s.p EV_COUNT_COUNT rs.length
  let s := s.p EV_STAGE_COUNT s.ev.staged.length
  let s := s.p EV_FIRST_SEQ ((rs.head?.map (·.seq)).getD 0)
  let s := s.p EV_LAST_SEQ ((rs.getLast?.map (·.seq)).getD 0)
  if rs.length ≥ 4194304 then s.p EV_STAT_FULL 1 else s

/-- A record staged: it takes the next sequence number (R496) and the time of the event (R495). -/
def State.stageRec (s : State) (e : EvIn) : State :=
  let r : EvRec := {
    seq := s.ev.nextSeq, opms := s.opms, pwrcyc := s.g LC_PWRCYC_COUNT
    ns := if s.sync then s.g TU_NS_NS else 0, era := if s.sync then s.g TU_ERA_ERA else 0
    source := e.source, code := e.code, cls := e.cls
    flags := (if s.sync then 1 else 0) + (if e.forced then 2 else 0) + (if e.esc then 4 else 0)
    rep := 0, data := padTo 16 e.data, lastdms := 0 }
  ({ s with ev := { s.ev with staged := s.ev.staged ++ [r], nextSeq := seqNext s.ev.nextSeq } }).evRegs

/-- Does an event repeat a record (R500)? -/
def EvIn.repeats (e : EvIn) (r : EvRec) : Bool :=
  r.source == e.source && r.code == e.code && r.cls == e.cls &&
  r.flags / 2 % 4 == (if e.forced then 1 else 0) + (if e.esc then 2 else 0) && r.data == padTo 16 e.data

/-- A record with one more repeat folded in (R500), at operating time `now`. -/
def EvRec.fold (r : EvRec) (now : Nat) : EvRec :=
  { r with rep := min (r.rep + 1) 65535, flags := if r.rep ≥ 65535 ∧ r.flags / 8 % 2 = 0 then r.flags + 8 else r.flags,
           lastdms := min (now - r.opms) 0xFFFFFFFF }

/-- The newest record replaced. -/
def EvSt.mapLast (e : EvSt) (f : EvRec → EvRec) : EvSt :=
  match e.staged.reverse with
  | r :: rs => { e with staged := (f r :: rs).reverse }
  | [] => match e.flash.reverse with
    | r :: rs => { e with flash := (f r :: rs).reverse }
    | [] => e

/-- An event is suppressed (R499, R501). [DEDUCED: log 85] -/
def State.suppress (s : State) : State := s.satAdd EV_SUPPR_COUNT 1

/-- An event reaches the recorder (R499 to R501). In Dormant nothing records. [DESIGN CHOICE: log 34] -/
def State.recordEv (s : State) (e : EvIn) : State :=
  if s.mode == mDormant then s
  else if s.on EV_STAT_FULL then s.suppress
  else match s.records.getLast? with
  | some r =>
    if e.repeats r then { s with ev := s.ev.mapLast (·.fold s.opms) }
    else go s
  | none => go s
where
  /-- A new record, or its suppression while staging is full; the first record after an overflow is record 0x2. -/
  go (s : State) : State :=
    if s.ev.staged.length ≥ 4096 then
      let s := (s.suppress).p EV_STAT_QOVF 1
      { s with ev := { s.ev with ovf := some ((s.ev.ovf.getD 0) + 1) } }
    else match s.ev.ovf with
    | none => s.stageRec e
    | some n =>
      let s := { s with ev := { s.ev with ovf := none } }
      let s := s.stageRec { source := 0x0207, code := 2, cls := 0xFF, data := leBytes 4 n }
      if s.on EV_STAT_FULL then s.suppress
      else if s.ev.staged.length ≥ 4096 then
        let s := (s.suppress).p EV_STAT_QOVF 1
        { s with ev := { s.ev with ovf := some 1 } }
      else s.stageRec e

/-- The sequence number of the record that the last event wrote or joined, 0 if it was suppressed. [DEDUCED: log 85] -/
def State.seqOf (s : State) (e : EvIn) : Nat :=
  match s.records.getLast? with
  | some r => if e.repeats r && !s.on EV_STAT_FULL then r.seq else 0
  | none => 0

/-! ### Event queues (R451 to R453) -/

/-- An event-queue entry (R451). -/
structure QEnt where
  evseq : Nat
  source : Nat
  code : Nat
  cat : Nat
  cls : Nat
  data : List Byte
  deriving DecidableEq, Repr

/-- The 32 bytes of an entry posted now (R451). -/
def State.qBytes (s : State) (e : QEnt) : List Byte :=
  leBytes 4 e.evseq ++ leBytes 2 e.source ++ leBytes 2 e.code ++ leBytes 1 e.cat ++ leBytes 1 e.cls ++ leBytes 2 0 ++
  leBytes 4 (if s.sync then s.g TU_NS_NS else 0) ++ leBytes 4 (if s.sync then s.g TU_ERA_ERA else 0) ++ padTo 12 e.data

/-- The credential that the life-cycle state gives a service session (R456). -/
def State.credential (s : State) : Option (List Byte) := if s.g LC_STATE_LCS == 2 then s.keys.cred else some Config.unitKey

/-- ASCII of a string. -/
def ascii (x : String) : List Byte := x.toList.map (fun c => BitVec.ofNat 8 c.toNat)

/-- The 64 bytes of key material of a session (R456): the client's key, then the Keeper's. -/
def State.sessKeys (s : State) : List Byte :=
  Config.hkdf ((s.credential).getD []) (s.sess.nc ++ s.sess.nk) (ascii "ZM-SVC-1")

/-- Bytes 0 to 15 of a record (R454). -/
def recHead (kind : Nat) (rsvd : List Byte) (ctr len : Nat) : List Byte :=
  leBytes 4 (28 + len) ++ leBytes 1 kind ++ rsvd ++ leBytes 8 ctr

/-- The nonce of a record (R456). [DESIGN CHOICE: log 15] -/
def recNonce (ctr : Nat) : List Byte := leBytes 4 0 ++ leBytes 8 ctr

/-- The body and the tag of a record as it is sent (R454, R456): in clear with a zero tag before `ACCEPT`. -/
def State.sealRecord (s : State) (kind : Nat) (body : List Byte) : List Byte :=
  if s.sess.phase == .authenticated then
    let x := Config.gcmSeal (s.sessKeys.drop 32) (recNonce s.sess.txCtr) (recHead kind (leBytes 3 0) s.sess.txCtr body.length) body
    x.1 ++ x.2
  else body ++ leBytes 16 0

/-- The service session sends one record (R455). -/
def State.sendRecord (s : State) (kind : Nat) (body : List Byte) : State :=
  let s' := s.emit (.record kind s.sess.txCtr (s.sealRecord kind body))
  { s' with sess := { s.sess with txCtr := s.sess.txCtr + 1 } }

/-- An entry is released from a channel's queue (R453). -/
def State.releaseEv (s : State) (c : Nat) (n : Nat) : State :=
  let s := s.p (MB_EVTAIL_TAIL c) ((s.g (MB_EVTAIL_TAIL c) + n) % 32)
  s.p (MB_EVSTAT_COUNT c) (s.g (MB_EVSTAT_COUNT c) - n)

/-- An entry is posted on one channel (R453). With 32 entries held it is lost and counted. On channel 4 with an
authenticated session it is sent as an `EVENT` record and released at once (R455). -/
def State.postTo (s : State) (c : Nat) (e : QEnt) : State :=
  if s.g (MB_EVSTAT_COUNT c) ≥ 32 then (s.p (MB_EVSTAT_OVF c) 1).inc (MB_EVLOST_COUNT c)
  else
    let h := s.g (MB_EVHEAD_HEAD c)
    let bs := s.qBytes e
    let s := { s with mb := s.mb.wrL (0x1000 * c + 0x800 + 32 * h) bs }
    let s := s.p (MB_EVHEAD_HEAD c) ((h + 1) % 32)
    let s := s.p (MB_EVSTAT_COUNT c) (s.g (MB_EVSTAT_COUNT c) + 1)
    let s := if s.on (MB_CTRL_IRQEVT c) && c < 4 then s.emit (.irq c 0 0x453) else s
    if c == 4 && s.sess.phase == .authenticated then (s.sendRecord 0x12 bs).releaseEv 4 1 else s

/-- Bit `n` of a number. -/
def bit (v n : Nat) : Bool := v / 2 ^ n % 2 == 1

/-- An event is posted on every open channel whose mask selects its category (R452). [DEDUCED: log 86] -/
def State.post (s : State) (e : QEnt) : State :=
  [0, 1, 2, 3, 4, 5, 6].foldl (fun s c =>
    if s.on (MB_STAT_EN c) && bit (s.g (MB_EVMASK_CAT c)) e.cat then s.postTo c e else s) s

/-- An event is recorded and posted under a category (R452, R499). [DEDUCED: log 86] -/
def State.event (s : State) (cat : Nat) (e : EvIn) : State :=
  let s := s.recordEv e
  s.post { evseq := s.seqOf e, source := e.source, code := e.code, cat := cat, cls := e.cls, data := e.data }

/-- A class 0 notice of collector source `src` (R402, R409 row 1, R498): counted, recorded and posted; nothing else
changes. `elem` is the element index and `st` the status register that shows the condition (R497). -/
def State.noticeD (s : State) (src code : Nat) (data : List Byte) : State :=
  let s := s.inc (FC_CNT_COUNT 0)
  let s := s.inc (FC_SCNT_COUNT src)
  let s := s.p (FC_SSTAT_LASTCLS src) 0
  let s := s.p (FC_SSTAT_LASTCODE src) code
  s.event 3 { source := 0x0100 + src, code := code, cls := 0, data := data }

/-- A class 0 notice with the data of R497: the element, and the status register that shows the condition, as it is after the event.
[DEDUCED: log 123] -/
def State.notice (s : State) (src code : Nat) (elem : Nat := 0) (st : Word := 0) : State :=
  s.noticeD src code (leBytes 1 elem ++ leBytes 3 0 ++ leBytes 4 st.toNat)

/-- Every constructor's meaning answers a next state with this. -/
abbrev Res := Host.Outcome State Fault Refusal

/-- Does a commanded test hold the port of a code (R527)? -/
def State.heldPort (s : State) (port : Nat) : Bool :=
  match s.dbg.loop with
  | some x => x.port == port
  | none => false

end Sys2Proof.Machine
end

