-- ==== Sys2Proof/Machine/Time.lean ====
section
/-! DEFINITION. The time unit: the counter, its wraps, increment and steps (R179 to R187), snapshots, captures (R193 to
R196) and the arming of triggers (R197 to R199). -/

namespace Sys2Proof.Machine

/-- Is an increment, in 2^−32 ns, legal (R180: 7.999_2 ns to 8.000_8 ns)? -/
def incLegal (inc : Nat) : Bool := decide (79992 * 2 ^ 32 ≤ inc * 10000) && decide (inc * 10000 ≤ 80008 * 2 ^ 32)

/-- What a wrap of `TU_NS` does to the era (R182). [DEDUCED: log 83] -/
def State.eraWrap (s : State) : State :=
  if s.on TU_STAT_ARMED then
    (s.p TU_ERA_ERA (s.g TU_ERANEXT_ERA)).p TU_STAT_ARMED 0
  else
    let s := (s.inc TU_ERA_ERA).p TU_STAT_ERAMISS 1
    s.notice 0x1A 0x0001 0 (s.word TU_STAT_SSTATE)

/-- `TU_NS` advanced by a number of nanoseconds, with the wrap if it carries (R181, R182). -/
def State.advanceNs (s : State) (n : Nat) : State :=
  let v := s.g TU_NS_NS + n
  let s := s.p TU_NS_NS v
  if v ≥ 2 ^ 32 then s.eraWrap else s

/-- A shadow counter advanced by one nominal tick of 8 ns at its trimmed rate (R26). [DEDUCED: log 64] -/
def Shadow.tick (c : Shadow) : Shadow :=
  let v := (c.ns * 2 ^ 16 + c.frac + 8 * 2 ^ 16 : Int) + c.trim / 2 ^ 7
  { c with ns := (v / 2 ^ 16 % 2 ^ 32).toNat, frac := (v % 2 ^ 16).toNat }

/-- `TIME_TICK_WRAP`: the tick in which `TU_NS` carries out of bit 31 (R182). The counter takes the value its increment
gives where that carries, and 0 where the command stands for the ticks up to the wrap. [DEDUCED: log 83] -/
def execTimeTickWrap (s : State) : Res :=
  let f := s.tu.frac + s.tu.inc
  let v := s.g TU_NS_NS + f / 2 ^ 32
  if v ≥ 2 ^ 32 then
    .next (({ s with tu := { s.tu with frac := f % 2 ^ 32 } }).p TU_NS_NS v).eraWrap
  else .next (s.p TU_NS_NS 0).eraWrap

/-- A write of `TU_INC_I` takes both parts into use (R180). A result outside the legal range is discarded with a class 0
notice (R14). -/
def State.incWrite (s : State) (v : Word) : State :=
  let inc := v.toNat % 16 * 2 ^ 32 + s.g TU_INC_F_F
  if incLegal inc then { s.p TU_INC_I_I v.toNat with tu := { s.tu with inc := inc } }
  else s.notice 0x22 0x0002 0 (s.word TU_INC_I_I)

/-- `INCREMENT_WRITE`: the Keeper writes `TU_INC_I` (R180). -/
def execIncrementWrite (v : Word) (s : State) : Res := .next (s.incWrite v)

/-- A write of `TU_ERANEXT`, the era of the next wrap, arms it (R182). -/
def State.eranextWrite (s : State) (v : Word) : State := (s.p TU_ERANEXT_ERA v.toNat).p TU_STAT_ARMED 1

/-- `ERANEXT_WRITE` (R182). -/
def execEranextWrite (v : Word) (s : State) : Res := .next (s.eranextWrite v)

/-- `TIME_SNAPSHOT`: time, era and fraction latched in one tick (R183). -/
def State.snapshot (s : State) : State :=
  ((s.p TU_SNAPNS_NS (s.g TU_NS_NS)).p TU_SNAPERA_ERA (s.g TU_ERA_ERA)).p TU_SNAPFR_FRAC s.tu.frac

/-- `TIME_SNAPSHOT` (R183). -/
def execTimeSnapshot (s : State) : Res := .next s.snapshot

/-- `INCREMENT_STALE`: `TU_INC_I` was not written for 2 ms (R186). -/
def execIncrementStale (s : State) : Res :=
  let s := s.p TU_STAT_INCSTALE 1
  .next (s.notice 0x1A 0x0002 0 (s.word TU_STAT_SSTATE))

/-! ### Captures (R193 to R196) -/

/-- Is a capture source one that R194 lists? -/
def capSrcLegal (v : Nat) : Bool := (1 ≤ v && v ≤ 4) || (0x10 ≤ v && v ≤ 0x1F) || (0x20 ≤ v && v ≤ 0x23)

/-- A capture channel's latest events with a new one: those of the last 3 µs, and one before them (R194: 2.5 µs is the largest
distance of the table). -/
def State.capKeep (s : State) (n : Nat) (e : CapEnt) : State :=
  let old : List CapEnt := tabGet (fun _ => []) s.tu.caps n
  let near := old.takeWhile (fun x => decide (s.now < x.t + 3000))
  let kept := e :: near ++ (old.drop near.length).take 1
  { s with tu := { s.tu with caps := tabSet (fun _ => []) s.tu.caps n kept } }

/-- The distance from a sample time from which an event of a source is in that sample's image (R194). -/
def capMargin (src : Nat) : Nat := if src ≤ 4 then 100 else if src < 0x20 then 2500 else 200

/-- The event that a sample at `at_` shows of a capture channel: the latest that lies far enough before it (R194). -/
def State.capAt (s : State) (n at_ : Nat) : Option CapEnt :=
  (tabGet (fun _ => []) s.tu.caps n : List CapEnt).find? (fun e => decide (e.t + capMargin (s.g (TU_CAPCFG_SRC n)) ≤ at_))

/-- Does a commanded test hold the `TIO` that a capture channel's source is (R527)? -/
def State.heldTio (s : State) (src : Nat) : Bool := decide (1 ≤ src) && decide (src ≤ 4) && s.heldPort (0x4F + src)

/-- An event on capture channel `n` (R193): its time is extended against global time (R184). [DESIGN CHOICE: log 90] -/
def State.capture (s : State) (n stamp : Nat) : State :=
  if s.on (TU_CAPCFG_EN n) && !s.heldTio (s.g (TU_CAPCFG_SRC n)) then
    let t := extend s.now stamp
    let s := (s.p (TU_CAP_NS n) t).p (TU_CAPERA_ERA n) (t / 2 ^ 32)
    let s := s.inc (TU_CAPSTAT_COUNT n)
    let s := (s.p (TU_CAPSTAT_VALID n) 1).p (TU_CAPSTAT_STEPPED n) 0
    s.capKeep n { t := t, count := s.g (TU_CAPSTAT_COUNT n) }
  else s

/-- `CAPTURE_EVENT`: an event of channel `n`'s source (R193, R194). [DESIGN CHOICE: log 90] -/
def execCaptureEvent (n : Fin 16) (stamp : Nat) (s : State) : Res := .next (s.capture n stamp)

/-- An event of a capture source with an edge: every channel that selects it records it. [DESIGN CHOICE: log 90] -/
def State.captureSrc (s : State) (src node : Nat) (rising : Bool) (stamp : Nat) : State :=
  (List.range 16).foldl (fun s n =>
    let e := s.g (TU_CAPCFG_EDGE n)
    let edgeOk := 0x20 ≤ src || e == 2 || (rising && e == 0) || (!rising && e == 1)
    let nodeOk := src < 0x22 || s.g (TU_CAPCFG_NODE n) == node
    if s.g (TU_CAPCFG_SRC n) == src && edgeOk && nodeOk then s.capture n stamp else s) s

/-- Is a word legal in `TU_CAPCFGn` (R202)? -/
def capCfgLegal (v : Word) : Bool :=
  capSrcLegal (getBits v 0 6) && getBits v 6 2 != 3 && getBits v 8 8 < 16

/-- `TU_CAPCFGn` written: `EN` from 0 to 1 clears the record (R193). -/
def State.capConfig (s : State) (n : Nat) (v : Word) : State :=
  if capCfgLegal v then
    let rise := getBits v 16 1 == 1 && !s.on (TU_CAPCFG_EN n)
    let s := (((s.p (TU_CAPCFG_SRC n) (getBits v 0 6)).p (TU_CAPCFG_EDGE n) (getBits v 6 2)).p
      (TU_CAPCFG_NODE n) (getBits v 8 8)).p (TU_CAPCFG_EN n) (getBits v 16 1)
    if rise then
      { ((s.p (TU_CAPSTAT_COUNT n) 0).p (TU_CAPSTAT_VALID n) 0).p (TU_CAPSTAT_STEPPED n) 0 with
        tu := { s.tu with caps := tabSet (fun _ => []) s.tu.caps n [] } }
    else s
  else s.notice 0x22 0x0002 n (s.word (TU_CAPCFG_SRC n))

/-- `CAPTURE_ENABLE`: a write of `TU_CAPCFGn` (R193). -/
def execCaptureEnable (n : Fin 16) (v : Word) (s : State) : Res := .next (s.capConfig n v)

/-! ### Triggers (R197 to R199) -/

/-- Is a trigger target one that R197 lists? -/
def trgLegal (v : Nat) : Bool := (1 ≤ v && v ≤ 4) || (8 ≤ v && v ≤ 0xB) || (0x10 ≤ v && v ≤ 0x15)

/-- The apply margin of a target in ns (R197). -/
def trgMargin (tgt : Nat) : Nat := if tgt ≤ 4 then 100 else 200

/-- The armed time of a channel as a 64-bit time. -/
def State.trigAt (s : State) (n : Nat) : Nat := tabGet (fun _ => 0) s.tu.trigAt n

/-- Channel `n` armed for the 64-bit time `t`. -/
def State.armNow (s : State) (n t : Nat) : State :=
  let s := (s.p (TU_TRG_NS n) t).p (TU_TRGSTAT_ARMED n) 1
  { s with tu := { s.tu with trigAt := tabSet (fun _ => 0) s.tu.trigAt n t
                             trigNext := tabSet (fun _ => none) s.tu.trigNext n none } }

/-- A new time for channel `n` (R199): it replaces an armed one, but one already within its margin fires first. -/
def State.arm (s : State) (n t : Nat) : State :=
  if s.on (TU_TRGSTAT_ARMED n) && s.trigAt n < s.now + trgMargin (s.g (TU_TRGCFG_TGT n)) then
    { s with tu := { s.tu with trigNext := tabSet (fun _ => none) s.tu.trigNext n (some t) } }
  else s.armNow n t

/-- A Keeper write of `TU_TRGn` arms a Keeper channel; an application channel ignores it (R198, R202). The time is extended against
global time, so one already past is armed and fires at once; a channel whose `EN` is 0 is armed and fires once it is in use.
[DESIGN CHOICE: log 106] -/
def State.trgWrite (s : State) (n : Nat) (v : Word) : State :=
  if s.on (TU_TRGCFG_APP n) then s else s.arm n (extend s.now v.toNat)

/-- `TRIGGER_ARM` (R198). -/
def execTriggerArm (n : Fin 16) (v : Word) (s : State) : Res := .next (s.trgWrite n v)

end Sys2Proof.Machine
end

