-- ==== Sys2Proof/Machine/FieldOps.lean ====
section
/-! DEFINITION. Shared operations of the field die and the safety functions: what drives an output (R331, R345), drive
states (R303, R304), gating (R379), the Safe Channel states that other units change (R291). -/

namespace Sys2Proof.Machine

/-- Are the module's outputs gated (R379)? They are ungated while the Light is held (R401). -/
def State.gated (s : State) : Bool := !s.on UN_STAT_HOLD

/-- Is the application Running (R114)? A change point is part of running. -/
def State.running (s : State) : Bool := s.app.state == .running || s.app.state == .changing

/-- The field die's time, as its shadow counter shows it (R26). -/
def State.fieldNow (s : State) : Nat := extend s.now s.tu.fieldShadow.ns

/-- The Keeper die's time, as its shadow counter shows it (R26). -/
def State.keeperNow (s : State) : Nat := extend s.now s.tu.keeperShadow.ns

/-! ### Digital outputs -/

/-- The outputs by the codes of `REQOUT` (R319): 1 to 12 for `HSO`, 0x11 to 0x14 for `FPP`. -/
def outCodes : List Nat := [1, 2, 3, 4, 5, 6, 7, 8, 9, 10, 11, 12, 0x11, 0x12, 0x13, 0x14]

/-- The output state of a code. -/
def State.out (s : State) (k : Nat) : OutSt := tabGet (fun _ => {}) s.fd.out k

/-- The output state of a code changed. -/
def State.modOut (s : State) (k : Nat) (f : OutSt → OutSt) : State :=
  { s with fd := { s.fd with out := tabSet (fun _ => {}) s.fd.out k (f (s.out k)) } }

/-- The committed value's field of an output. -/
def cmdFld (k : Nat) : Fld := if k ≤ 12 then FD_HSOSTAT_CMD k else FD_FPPSTAT_CMD (k - 0x10)
/-- The readback field of an output. -/
def rbFld (k : Nat) : Fld := if k ≤ 12 then FD_HSOSTAT_RB k else FD_FPPSTAT_RB (k - 0x10)
/-- The safe state's field of an output. -/
def safeFld (k : Nat) : Fld := if k ≤ 12 then FD_HSOCFG_SAFE k else FD_FPPCFG_SAFE (k - 0x10)
/-- The latch of an output. -/
def latchFld (k : Nat) : Fld := if k ≤ 12 then FD_HSOSTAT_LATCHED k else FD_FPPSTAT_LATCHED (k - 0x10)
/-- The retry count of an output. -/
def retryFld (k : Nat) : Fld := if k ≤ 12 then FD_HSOSTAT_RETRIES k else FD_FPPSTAT_RETRIES (k - 0x10)

/-- The drive state beside its registers. -/
def State.drv (s : State) (d : Nat) : DrvSt := tabGet (fun _ => {}) s.sf.drv d

/-- The drive state beside its registers changed. -/
def State.modDrv (s : State) (d : Nat) (f : DrvSt → DrvSt) : State :=
  { s with sf := { s.sf with drv := tabSet (fun _ => {}) s.sf.drv d (f (s.drv d)) } }

/-- Is an output held as the SS1 request output of a drive (R306)? Its level, if it is. -/
def State.reqLevel (s : State) (k : Nat) : Option Bool :=
  if (s.drv 1).req && s.g (SF_SS1OUT_REQOUT 1) == k then some (!s.on (SF_SS1OUT_REQPOL 1))
  else if (s.drv 2).req && s.g (SF_SS1OUT_REQOUT 2) == k then some (!s.on (SF_SS1OUT_REQPOL 2))
  else none

/-- The code of an output's port (R526). -/
def outPort (k : Nat) : Nat := 0x7F + k

/-- The code of the input whose test at depth 3 drives an output (R532). -/
def outDi (k : Nat) : Nat := if k ≤ 12 then 0x6F + k else 0x6B + k

/-- Row 3 of R331, if a loopback test holds the output: an `HSO` is held off at depth 2, an output whose plug is absent is not switched on,
else it stands as the test drives it, a free value. [DESIGN CHOICE: log 16] -/
def State.testDrive (s : State) (k : Nat) : Option (Option Bool) :=
  match s.dbg.loop with
  | some x =>
    if x.port == outPort k || x.port == outDi k && x.depth == 3 then
      some (if x.depth == 2 && k ≤ 12 || x.depth == 3 && x.result == 2 then none else some (Config.testStep x.port s.tu.upNs % 2 == 1))
    else none
  | none => none

/-- Rows 2 to 8 of R331: the level of an output, `none` for off or high impedance. -/
def State.outRow (s : State) (k : Nat) : Option Bool :=
  if s.g FD_STAT_SUPPLY == 0 || s.g FD_STAT_SUPPLY == 3 then none
  else match s.testDrive k with
  | some v => v
  | none =>
  if s.gated then none
  else match s.reqLevel k with
  | some v => some v
  | none =>
    if s.on FD_STAT_SILENT then
      if !s.fd.configured then some false
      else match s.g (safeFld k) with
      | 0 => some false
      | 1 => some true
      | _ => some (s.out k).hold
    else if k > 0x10 && s.on (FD_FPPSTAT_TRIG (k - 0x10)) then some (s.out k).trig
    else some (s.on (cmdFld k))

/-- R331 in full: row 1 is the channel's own protection. -/
def State.outLevel (s : State) (k : Nat) : Option Bool :=
  if (s.out k).shut || s.on (latchFld k) then none else s.outRow k

/-- Every output takes the row of R331 that now holds; its readback follows, and an output commanded off loses its retry
count (R328). [DESIGN CHOICE: log 56] -/
def State.driveOutputs (s : State) : State :=
  outCodes.foldl (fun s k =>
    let s := s.pb (rbFld k) (s.outLevel k == some true)
    if s.outRow k == some true then s else s.p (retryFld k) 0) s

/-- A commanded test that takes or gives back a field port drives the outputs anew (R331). -/
def State.redrive (s : State) (port : Nat) : State := if 0x70 ≤ port && port ≤ 0x93 then s.driveOutputs else s

/-! ### Current loops -/

/-- A channel's state. -/
def State.aio (s : State) (n : Nat) : AioSt := tabGet (fun _ => {}) s.an n

/-- A channel's state changed. -/
def State.modAio (s : State) (n : Nat) (f : AioSt → AioSt) : State := { s with an := tabSet (fun _ => {}) s.an n (f (s.aio n)) }

/-- The effective alarm current of a channel in 0.1 µA (R348). -/
def State.alarmUa (s : State) (n : Nat) : Nat := if s.on (AN_STAT_ALEFF n) then 215000 else 35000

/-- The current that the committed word commands. -/
def State.cmdUa (s : State) (n : Nat) : Nat := if s.on (AN_CMD_ALARM n) then s.alarmUa n else s.g (AN_CMD_UA10 n)

/-- Row 2 of R345, if a loopback test holds the channel: 4, 12 or 20 mA as its run stands, none without its plug. [DESIGN CHOICE: log 16] -/
def State.testUa (s : State) (n : Nat) : Option Nat :=
  match s.dbg.loop with
  | some x =>
    if x.port == 0x9F + n then
      some (if x.depth == 3 && x.result == 2 then 0 else 40000 + 80000 * (Config.testStep x.port s.tu.upNs % 3))
    else none
  | none => none

/-- The current that drives a channel, in 0.1 µA (R345); the test of a held channel sets the mode it needs (R532). -/
def State.loopUa (s : State) (n : Nat) : Nat :=
  if s.g FD_STAT_SUPPLY == 0 || s.g FD_STAT_SUPPLY == 3 then 0
  else match s.testUa n with
  | some v => v
  | none =>
  if s.g (AN_CFG_MODE n) != 1 || (s.aio n).settling then 0
  else if s.gated then 0
  else if s.on FD_STAT_SILENT then
    match s.g (AN_CFG_SAFE n) with
    | 0 => 0
    | 1 => s.alarmUa n
    | _ => (s.aio n).hold
  else s.cmdUa n

/-! ### Drives -/

/-- The end of SS1 is recorded with v0 and the elapsed time (R308, R498). [DEDUCED: log 57] -/
def State.ss1End (s : State) (d cause : Nat) : State :=
  let x := s.drv d
  s.noticeD 0x17 (0x0010 + cause) (leBytes 1 d ++ leBytes 3 0 ++ leBytes 4 (s.word (SF_DRVSTAT_STATE d)).toNat ++
    leBytes 4 (x.v0.getD 0) ++ leBytes 4 ((s.now - x.t0) / 1000000))

/-- A drive that was Enabled or Stopping no longer is: the 100 ms of R309 can start. -/
def State.encRest (s : State) (d : Nat) : State :=
  if 2 ≤ s.g (SF_DRVSTAT_STATE d) then s.modDrv d (fun x => { x with encFrom := s.tu.upNs }) else s

/-- An entry of a drive into Torque-off (R304): both channels off, `CAUSE`, the interlock, the count. A drive that is Off
stays Off. [DEDUCED: log 57] -/
def State.torqueOff (s : State) (d cause : Nat) : State :=
  if s.g (SF_DRVSTAT_STATE d) == 0 then s
  else
    let stopping := s.g (SF_DRVSTAT_STATE d) == 3
    let s := s.encRest d
    let s := (((s.p (SF_DRVSTAT_STATE d) 1).p (SF_DRVSTAT_CAUSE d) cause).p (SF_DRVSTAT_CHA d) 0).p (SF_DRVSTAT_CHB d) 0
    let s := (s.p (SF_DRVSTAT_INTERLOCK d) 1).inc (SF_STOPS_COUNT d)
    if stopping then s.ss1End d cause else s

/-- Both drives enter Torque-off. -/
def State.drivesOff (s : State) (cause : Nat) : State := (s.torqueOff 1 cause).torqueOff 2 cause

/-- A drive goes Off (R304): that too ends an SS1 in progress. -/
def State.driveOff (s : State) (d : Nat) : State :=
  let stopping := s.g (SF_DRVSTAT_STATE d) == 3
  let s := s.encRest d
  let s := ((s.p (SF_DRVSTAT_STATE d) 0).p (SF_DRVSTAT_CHA d) 0).p (SF_DRVSTAT_CHB d) 0
  if stopping then s.ss1End d 0 else s

/-- Both drives go Off: the application stopped or `SF_CTRL.EN` is 0 (R304). -/
def State.drivesDisable (s : State) : State := (s.driveOff 1).driveOff 2

/-- An Off drive enters Torque-off once the application runs and `SF_CTRL.EN` is 1 (R304). -/
def State.drivesEnable (s : State) : State :=
  if s.on SF_CTRL_EN && s.running then
    [1, 2].foldl (fun s d =>
      if s.g (SF_DRVSTAT_STATE d) == 0 then
        (((s.p (SF_DRVSTAT_STATE d) 1).p (SF_DRVSTAT_CAUSE d) 0).p (SF_DRVSTAT_INTERLOCK d) 1).inc (SF_STOPS_COUNT d)
      else s) s
  else s

/-- Does a condition of the first six rows of R304 persist? [DEDUCED: log 58] -/
def State.torqueBarred (s : State) : Bool :=
  s.gated || s.on FD_STAT_SILENT || s.sf.wdExpired || s.fd.supplyLow || s.g SF_SEAL_STATE != 0

/-- A committed permit word of a drive takes effect at its commit time (R300, R304). [DEDUCED: log 58] -/
def State.permit (s : State) (d : Nat) (v : Nat) : State :=
  match s.g (SF_DRVSTAT_STATE d) with
  | 1 =>
    if s.torqueBarred then s
    else if v != 1 then s.p (SF_DRVSTAT_INTERLOCK d) 0
    else if s.on (SF_DRVSTAT_INTERLOCK d) then s
    else
      let s := ((s.p (SF_DRVSTAT_STATE d) 2).p (SF_DRVSTAT_CHA d) 1).p (SF_DRVSTAT_CHB d) 1
      (s.modDrv d (fun x => { x with req := false })).driveOutputs
  | 2 =>
    if v == 1 then s
    else if s.on (SF_DRVCFG_FUNC d) then
      let s := s.p (SF_DRVSTAT_STATE d) 3
      (s.modDrv d (fun x => { x with t0 := s.now, v0 := none, still := none, req := true })).driveOutputs
    else s.torqueOff d 1
  | _ => s

/-! ### Gating (R379, R380) -/

/-- A class 3 or 4 fault, or the onset of gating: the drives enter Torque-off and every external effect stops (R304). -/
def State.gateFault (s : State) : State := ((s.p UN_STAT_HOLD 0).drivesOff 6).driveOutputs

/-- The outputs are gated, if they were not. [DEDUCED: log 58] -/
def State.gate (s : State) : State := if s.gated then s else s.gateFault

/-- The outputs are ungated: each takes its value from the committed image. [DEDUCED: log 58] -/
def State.ungate (s : State) : State := (s.p UN_STAT_HOLD 1).driveOutputs

/-! ### Safe Channel states that an application start, a stop or a load changes (R291) -/

/-- A receive connection's state. -/
def State.rx (s : State) (r : Nat) : RxSt := tabGet (fun _ => {}) s.sc.rx r

/-- A receive connection's state changed. -/
def State.modRx (s : State) (r : Nat) (f : RxSt → RxSt) : State :=
  { s with sc := { s.sc with rx := tabSet (fun _ => {}) s.sc.rx r (f (s.rx r)) } }

/-- The receive connections in use. -/
def State.rxUsed (s : State) : List Nat := (List.range 128).filter (fun r => s.on (SC_RXCFG_VALID r))

/-- `SC_STAT` shows the connections in use that are not Valid (R298). -/
def State.scStat (s : State) : State :=
  s.p SC_STAT_NOTVALID ((s.rxUsed.filter (fun r => s.g (SC_RXSTAT_STATE r) != 2)).length)

/-- A receive connection changes state; an event names the record that the change wrote, or 0 (R291, R562). -/
def State.rxState (s : State) (r new : Nat) (seq : Nat) : State :=
  let old := s.g (SC_RXSTAT_STATE r)
  if old == new then s
  else
    let s := (s.p (SC_RXSTAT_STATE r) new).scStat
    s.post { evseq := seq, source := 0x0120, code := 0x0100 + new, cat := 7, cls := 0xFF
             data := leBytes 1 r ++ leBytes 1 (s.g (SC_RXSTAT_CAUSE r)) ++ leBytes 1 old ++ leBytes 1 new }

/-- Every receive connection goes Off (R291). -/
def State.scOff (s : State) : State := (s.rxUsed.foldl (fun s r => s.rxState r 0 0) s).scStat

/-- Every receive connection goes to Waiting at an application start, its history cleared (R291), if the engine is on. -/
def State.scStart (s : State) : State :=
  if s.on SC_CTRL_EN then
    (s.rxUsed.foldl (fun s r =>
      let s := ((s.p (SC_RXSEQ_SEQ r) 0).p (SC_RXSTAT_GOOD r) 0).p (SC_RXSTAT_CAUSE r) 0
      (s.modRx r (fun _ => {})).rxState r 1 0) s).scStat
  else s

end Sys2Proof.Machine
end

