-- ==== Sys2Proof/Machine/FieldIo.lean ====
section
/-! DEFINITION. Digital inputs and outputs of the field die (chapter 13): filters, edges, supply states, protection and
diagnostics. -/

namespace Sys2Proof.Machine

/-! ### Inputs (R320 to R325) -/

/-- An input's state. -/
def State.di (s : State) (n : Nat) : DiSt := tabGet (fun _ => {}) s.fd.di n

/-- An input's state changed. -/
def State.modDi (s : State) (n : Nat) (f : DiSt → DiSt) : State :=
  { s with fd := { s.fd with di := tabSet (fun _ => {}) s.fd.di n (f (s.di n)) } }

/-- Bit `n - 1` of a 16-bit field set or cleared. -/
def setBit (v n : Nat) (b : Bool) : Nat := v - (if bit v (n - 1) then 2 ^ (n - 1) else 0) + (if b then 2 ^ (n - 1) else 0)

/-- A filtered transition of an input (R322, R325): its stamp, the count, the captures that select it (R194). -/
def State.diTransition (s : State) (n : Nat) (level : Bool) (start : Nat × Bool) : State :=
  let s := s.p FD_DISTAT_FILT (setBit (s.g FD_DISTAT_FILT) n level)
  let s := (s.p (FD_DITS_NS n) start.1).inc (FD_DICNT_COUNT n)
  let s := (s.pb (FD_DICNT_LEVEL n) level).pb (FD_DICNT_NOEDGE n) start.2
  let s := s.modDi n (fun x => { x with ts := start.1, edges := x.edges + 1 })
  s.captureSrc (0x0F + n) 0 level start.1

/-- The start of a run (R322): the last raw edge of the right direction, or the sample's own time with `NOEDGE`. -/
def runStart (edge : Option Nat) (now : Nat) : Nat × Bool :=
  match edge with
  | some t => (t, false)
  | none => (now, true)

/-- One input's filter counter at a sample (R320). -/
def State.diSample (s : State) (n : Nat) (high : Bool) : State :=
  let x := s.di n
  let top := s.g (FD_DICFG_TOP n)
  let c := if high then min top (x.cnt + 1) else x.cnt - 1
  let x := { x with raw := high, cnt := c
                    up := if x.cnt == 0 && c > 0 then runStart x.rise (s.fieldNow) else x.up
                    down := if x.cnt == top && c < top then runStart x.fall (s.fieldNow) else x.down }
  let s := (s.modDi n (fun _ => x)).p FD_DISTAT_RAW (setBit (s.g FD_DISTAT_RAW) n high)
  let filt := bit (s.g FD_DISTAT_FILT) (n - 1)
  if c == top && !filt then s.diTransition n true x.up
  else if c == 0 && filt then s.diTransition n false x.down
  else s

/-- `FLD+` measured at a sample, in 10 mV (R335): a fall below 19.2 V takes the bank from Normal to Sag. -/
def State.supplySample (s : State) (v : Nat) : State :=
  let s := s.p FD_FLD_V (min v 4095)
  let s := { s with fd := { s.fd with good := if v ≥ 1920 then s.fd.good + 1 else 0
                                      low := if v < 1680 then s.fd.low + 1 else 0
                                      supplyLow := s.fd.supplyLow && v < 1680 } }
  if s.g FD_STAT_SUPPLY == 1 && v < 1920 then
    let s := (s.p FD_STAT_SUPPLY 2).p FD_STAT_DIAGSUSP 1
    { s with an := s.an.map (fun e => (e.1, { e.2 with openN := 0, openOff := 0, complN := 0, complOff := 0, delN := 0, delOff := 0 })) }
  else s

/-- `FILTER_SAMPLE`: every 25 µs each input is sampled into its filter counter and `FLD+` is measured (R320, R321, R335). An input
that a commanded test holds delivers nothing (R527). -/
def execFilterSample (raw : BitVec 16) (fld : Nat) (s : State) : Res :=
  let s := (List.range 16).foldl (fun s i => if s.heldPort (0x70 + i) then s else s.diSample (i + 1) (bit raw.toNat i)) s
  .next (s.supplySample fld)

/-- `RAW_EDGE`: the edge detector stamps a raw edge (R322), but for an input that a commanded test holds (R527). -/
def execRawEdge (n : Fin 16) (level : Bool) (stamp : Nat) (s : State) : Res :=
  let t := extend s.now stamp
  if s.heldPort (0x70 + n.val) then .next s else
  .next (s.modDi (n.val + 1) (fun x => if level then { x with rise := some t } else { x with fall := some t }))

/-- A write of `TOP` (R324): the counter moves to the limit of its filtered state; 0 is illegal (R14). -/
def State.setTop (s : State) (n top : Nat) : State :=
  if top == 0 then s.notice 0x22 0x0002 n (s.word (FD_DICFG_TOP n))
  else
    let s := s.p (FD_DICFG_TOP n) top
    s.modDi n (fun x => { x with cnt := if bit (s.g FD_DISTAT_FILT) (n - 1) then top else 0 })

/-! ### Field supply (R335, R336) -/

/-- Has `FLD+` been at 19.2 V or more at every sample for a number of milliseconds (R335, R336)? -/
def State.goodFor (s : State) (ms : Nat) : Bool := s.fd.good ≥ 40 * ms + 1

/-- `SUPPLY_NORMAL`: `FLD+` has been at 19.2 V or more at every sample for 100 ms from Waiting, or 10 ms from Sag (R335). -/
def execSupplyNormal (s : State) : Res :=
  let st := s.g FD_STAT_SUPPLY
  if st == 0 && s.goodFor 100 || st == 2 && s.goodFor 10 then .next ((s.p FD_STAT_SUPPLY 1).p FD_STAT_DIAGSUSP 0).driveOutputs
  else .next s

/-- `SUPPLY_LATCH`: `FLD+` has been below 16.8 V at 401 consecutive samples: the bank latches off with a notice, and both drives lose
torque with `CAUSE` 0x8 (R304, R335). -/
def execSupplyLatch (s : State) : Res :=
  if s.fd.low < 401 then .next s else
  let s := if s.fd.supplyLow then s else s.drivesOff 8
  let s := { s with fd := { s.fd with supplyLow := true } }
  if s.g FD_STAT_SUPPLY == 2 then
    let s := (s.p FD_STAT_SUPPLY 3).p FD_STAT_DIAGSUSP 0
    .next ((s.notice 0x1C 0x0009 0 (s.word FD_STAT_SUPPLY)).driveOutputs)
  else .next s

/-- May a latched bank be released: has `FLD+` been at 19.2 V or more at every sample for 100 ms (R336)? -/
def State.bankReleasable (s : State) : Bool := s.goodFor 100

/-- A write of `FD_RELEASE` (R336): channel bits act in every case, `BANK` only when it is accepted. -/
def State.release (s : State) (v : Word) : State :=
  let chans := (List.range 12).map (fun i => (i + 1, bit v.toNat (16 + i))) ++
    (List.range 4).map (fun i => (0x11 + i, bit v.toNat (28 + i)))
  let s := chans.foldl (fun s e =>
    if e.2 then
      let s := (s.p (latchFld e.1) 0).p (retryFld e.1) 0
      s.modOut e.1 (fun x => { x with shut := false })
    else s) s
  let s := if bit v.toNat 0 && s.bankReleasable && s.g FD_STAT_SUPPLY == 3 then s.p FD_STAT_SUPPLY 1 else s
  s.driveOutputs

/-! ### Protection and diagnostics (R328 to R330) -/

/-- The code of an output channel. -/
def outChCode : OutCh → Nat
  | .hso n => n.val + 1
  | .fpp n => 0x11 + n.val

/-- A shutdown of a channel: off for 100 ms, latched off after the tenth retry (R328). -/
def State.shutdown (s : State) (k : Nat) : State :=
  let s :=
    if s.g (retryFld k) ≥ 10 then
      let s := s.p (latchFld k) 1
      s.notice 0x1C 0x0005 (k % 16) (s.word (latchFld k))
    else s.modOut k (fun x => { x with shut := true, since := s.tu.upNs })
  s.p (rbFld k) 0

/-- Is a channel driven on, so that its protection can act? An `FPP` drives both levels. -/
def State.driven (s : State) (k : Nat) : Bool := if k ≤ 12 then s.outLevel k == some true else (s.outLevel k).isSome

/-- `THERMAL_SHUTDOWN`: an `HSO` that is on passes 170 °C (R328, R329). -/
def execThermalShutdown (n : Fin 12) (s : State) : Res :=
  let k := n.val + 1
  if s.driven k then
    let s :=
      if s.on FD_STAT_DIAGSUSP || s.on (FD_HSOSTAT_OTEMP k) then s
      else
        let s := s.p (FD_HSOSTAT_OTEMP k) 1
        s.notice 0x1C 0x0002 k (s.word (FD_HSOSTAT_OTEMP k))
    .next (s.shutdown k)
  else .next s

/-- `THERMAL_RETRY`: 100 ms after a shutdown a channel that is still commanded on switches on again (R328, R330). -/
def execThermalRetry (c : OutCh) (s : State) : Res :=
  let k := outChCode c
  if (s.out k).shut && decide ((s.out k).since + 100000000 ≤ s.tu.upNs) then
    let s := s.modOut k (fun x => { x with shut := false, since := s.tu.upNs })
    if s.driven k then .next ((s.inc (retryFld k)).pb (rbFld k) (s.outLevel k == some true))
    else .next ((s.p (retryFld k) 0).pb (rbFld k) (s.outLevel k == some true))
  else .next s

/-- `RETRY_COUNT_RESET`: a channel has run for 1 s without a shutdown (R328). -/
def execRetryCountReset (c : OutCh) (s : State) : Res :=
  let k := outChCode c
  if s.driven k && decide ((s.out k).since + 1000000000 ≤ s.tu.upNs) then .next (s.p (retryFld k) 0) else .next s

/-- `HSO_OVERLOAD`: an `HSO` that is on is in current limit for more than 50 µs (R329). -/
def execHsoOverload (n : Fin 12) (s : State) : Res :=
  let k := n.val + 1
  if s.driven k && !s.on FD_STAT_DIAGSUSP && !s.on (FD_HSOSTAT_OVL k) then
    let s := s.p (FD_HSOSTAT_OVL k) 1
    .next (s.notice 0x1C 0x0001 k (s.word (FD_HSOSTAT_OVL k)))
  else .next s

/-- `HSO_OPEN_LOAD`: an open load has been present, or absent, for 10 ms (R329). An off output is tested only with `OWOFF`. -/
def execHsoOpenLoad (n : Fin 12) (present : Bool) (s : State) : Res :=
  let k := n.val + 1
  if s.on FD_STAT_DIAGSUSP then .next s
  else if present then
    if s.on (FD_HSOSTAT_OPEN k) || !(s.driven k || s.on (FD_HSOCFG_OWOFF k)) then .next s
    else
      let s := s.p (FD_HSOSTAT_OPEN k) 1
      .next (s.notice 0x1C 0x0003 k (s.word (FD_HSOSTAT_OPEN k)))
  else .next (s.p (FD_HSOSTAT_OPEN k) 0)

/-- `HSO_SHORT_TO_SUPPLY`: an off output has read above 18 V, or not, for 10 ms (R329). -/
def execHsoShortToSupply (n : Fin 12) (present : Bool) (s : State) : Res :=
  let k := n.val + 1
  if s.on FD_STAT_DIAGSUSP then .next s
  else if present then
    if s.on (FD_HSOSTAT_SHORTP k) || s.driven k then .next s
    else
      let s := s.p (FD_HSOSTAT_SHORTP k) 1
      .next (s.notice 0x1C 0x0004 k (s.word (FD_HSOSTAT_SHORTP k)))
  else .next (s.p (FD_HSOSTAT_SHORTP k) 0)

/-- `FPP_OVERLOAD`: an `FPP` is in current limit for more than 1 ms: high impedance, then as an `HSO`'s shutdown (R330). -/
def execFppOverload (n : Fin 4) (s : State) : Res :=
  let k := 0x11 + n.val
  if s.driven k then
    let s :=
      if s.on (FD_FPPSTAT_OVL (n.val + 1)) then s
      else
        let s := s.p (FD_FPPSTAT_OVL (n.val + 1)) 1
        s.notice 0x1C 0x0006 (n.val + 1) (s.word (FD_FPPSTAT_OVL (n.val + 1)))
    .next (s.shutdown k)
  else .next s

/-- `FPP_EDGE_CHECK`: 1 µs after an edge the level read is compared with the level driven (R330). -/
def execFppEdgeCheck (n : Fin 4) (level : Bool) (s : State) : Res :=
  match s.outLevel (0x11 + n.val) with
  | none => .next s
  | some v =>
    let s := s.pb (FD_FPPSTAT_RB (n.val + 1)) level
    if v == level then .next s
    else
      let s := s.p (FD_FPPSTAT_MISM (n.val + 1)) 1
      .next (s.notice 0x1C 0x0007 (n.val + 1) (s.word (FD_FPPSTAT_MISM (n.val + 1))))

/-! ### Silence (R332 to R334) -/

/-- The levels and currents held from the silence expiry (R333, R345). -/
def State.holdOutputs (s : State) : State :=
  let s := outCodes.foldl (fun s k => let v := s.outLevel k == some true; s.modOut k (fun x => { x with hold := v })) s
  [1, 2, 3, 4, 5, 6].foldl (fun s n => let v := s.loopUa n; s.modAio n (fun x => { x with hold := v })) s

/-- The silence timeout in ns (R332). -/
def State.silenceNs (s : State) : Nat := max (s.g FD_SILCFG_N * s.g FD_SILCFG_PERIOD) 500 * 1000

/-- `SILENCE_EXPIRY`: the silence timer expires (R333): safe states, channel A off, the field die's pending parts discarded,
a count and a notice; both drives lose torque with `CAUSE` 0x7 (R304). -/
def execSilenceExpiry (s : State) : Res :=
  if s.on FD_STAT_SILENT || decide (s.tu.upNs < s.fd.msgAt + s.silenceNs) then .next s
  else
    let s := s.holdOutputs
    let s := { s with parts := s.parts.filter (fun p => p.q != ApplyQ.field)
                      fd := { s.fd with silEntries := s.fd.silEntries + 1 } }
    let s := (s.p FD_STAT_SILENT 1).inc FD_SILCNT_COUNT
    let s := (s.notice 0x1C 0x0008 0 (s.word FD_STAT_SILENT)).drivesOff 7
    .next s.driveOutputs

end Sys2Proof.Machine
end

