-- ==== Sys2Proof/Machine/Analogue.lean ====
section
/-! DEFINITION. Analogue channels and current loops (chapter 14): conversions, diagnostics, jumpers, fold-back, shunts. -/

namespace Sys2Proof.Machine

/-- The compliance limit in mV (R346): `FLD+` less 3 V, at most 27 V. -/
def State.vtMax (s : State) : Int := min ((s.g FD_FLD_V : Int) * 10 - 3000) 27000

/-- The status of a conversion result (R353). -/
def convStatus (mode : Nat) (v : Int) : Nat :=
  match mode with
  | 2 => if v > 210000 then 4 else if v > 205000 then 2 else if v ≥ 38000 then 0 else if v ≥ 36000 then 1 else 3
  | 3 => if v < -5000 || v > 110000 then 6 else if v < 0 then 1 else if v > 100000 then 2 else 0
  | _ => 0

/-- A mean rounded towards minus infinity. -/
def intMean (xs : List Int) : Int := if xs.isEmpty then 0 else xs.foldl (· + ·) 0 / (xs.length : Int)

/-- A channel's record shows its registers as they stand, from a time on (R354). What a sample of the last 3 µs can still show is kept. -/
def State.showAio (s : State) (n start : Nat) : State :=
  let e : AioRes := { start := start, value := s.g (AN_MEAS_VALUE n), status := s.g (AN_STAT_NSTAT n)
                      stamp := s.g (AN_TS_NS n) + 2 ^ 32 * s.g (AN_TSERA_ERA n) }
  s.modAio n (fun x =>
    let near := x.shows.takeWhile (fun y => decide (s.now < y.start + 3000))
    { x with shows := e :: near ++ (x.shows.drop near.length).take 1 })

/-- A conversion result shown (R351, R353): value, status, stamp. A triggered one is in the images of samples from 3 µs after its armed time
(R354). -/
def State.convResult (s : State) (n : Nat) (v : Int) (stamp : Nat) : State :=
  let s := s.p (AN_MEAS_VALUE n) (u32 v)
  let s := (s.p (AN_TS_NS n) stamp).p (AN_TSERA_ERA n) (stamp / 2 ^ 32)
  (s.p (AN_STAT_NSTAT n) (convStatus (s.g (AN_CFG_MODE n)) v)).showAio n (if s.on (AN_CFG_CONV n) then stamp + 3000 else stamp)

/-- `OVR` clears after 100 ms without a disconnection of the shunt (R352). -/
def State.ovrClear (s : State) (n : Nat) : State :=
  let x := s.aio n
  if s.on (AN_STAT_OVR n) && !x.shuntOff && x.shuntAt + 200000000 ≤ s.tu.upNs then s.p (AN_STAT_OVR n) 0 else s

/-- `ANALOGUE_CONVERSION`: a conversion of a channel completes with a value in 0.1 µA or 0.1 mV (R351 to R353). A continuous
channel shows the mean of its last 2^`AVG` conversions; a triggered one the conversion alone, with the armed time. A
channel that is Off, settling, without its shunt or held by a commanded test (R527) keeps its last value. -/
def execAnalogueConversion (n : Fin 6) (value : Int) (stamp : Nat) (s : State) : Res :=
  let n := n.val + 1
  let s := s.ovrClear n
  let x := s.aio n
  if s.g (AN_CFG_MODE n) == 0 || x.settling || s.heldPort (0x9F + n) then .next s
  else if x.shuntOff then .next ((s.p (AN_STAT_NSTAT n) 4).showAio n s.fieldNow)
  else
    let t := extend s.now stamp
    if s.on (AN_CFG_CONV n) then .next ((s.modAio n (fun x => { x with convs := [value] })).convResult n value t)
    else
      let convs := (value :: x.convs).take (2 ^ s.g (AN_CFG_AVG n))
      .next ((s.modAio n (fun x => { x with convs := convs })).convResult n (intMean convs) t)

/-- A trigger starts a conversion (R351): 2 µs; one that cannot start is counted. The result comes as its own command. -/
def State.trigConvert (s : State) (n : Nat) : State :=
  let x := s.aio n
  if !s.on (AN_CFG_CONV n) || s.g (AN_CFG_MODE n) == 0 || x.busyUntil > s.now then s.inc AN_TRGMISS_COUNT
  else s.modAio n (fun x => { x with busyUntil := s.now + 2000 })

/-! ### Loop diagnostics (R349) -/

/-- A flag raised: set, with its notice if it has one. -/
def State.raiseAn (s : State) (n : Nat) (f : Fld) (code : Nat) : State :=
  if s.on f then s
  else
    let s := s.p f 1
    if code == 0 then s else s.notice 0x1D code n (s.word (AN_STAT_OPEN n))

/-- Does the supply state stop the timers and hold back new flags (R349)? -/
def State.inSag (s : State) : Bool := s.g FD_STAT_SUPPLY == 2

/-- The conditions of `OPEN`, `COMPL` and `ALNDEL` at one measurement (R349). -/
def State.loopConds (s : State) (n : Nat) (m : LoopMeas) : Bool × Bool × Bool :=
  let cmd : Int := s.loopUa n
  let top := m.voltage ≥ s.vtMax
  (cmd ≥ 10000 && top && m.current < 5000,
   !s.on (AN_STAT_OPEN n) && top && cmd - m.current > 160,
   s.on (AN_STAT_ALEFF n) && m.current ≥ 10000 && 215000 * m.voltage > s.vtMax * m.current)

/-- The counts of consecutive measurements with and without a condition. -/
def countPair (c : Bool) (on off : Nat) : Nat × Nat := if c then (on + 1, 0) else (0, off + 1)

/-- `LOOP_DIAGNOSTIC_MEASUREMENT`: every 100 µs a current output's delivered current (0.1 µA) and terminal voltage (mV)
are judged (R347, R349, R350). A condition held for a time holds at the first and at the last measurement of it. -/
def execLoopDiagnosticMeasurement (n : Fin 6) (m : LoopMeas) (s : State) : Res :=
  let n := n.val + 1
  if s.g (AN_CFG_MODE n) != 1 then .next s
  else
    let s := s.ovrClear n
    let (co, cc, cd) := s.loopConds n m
    let sag := s.inSag
    let x := s.aio n
    let (openN, openOff) := if sag then (0, 0) else countPair co x.openN x.openOff
    let (complN, complOff) := if sag then (0, 0) else countPair cc x.complN x.complOff
    let (delN, delOff) := if sag then (0, 0) else countPair cd x.delN x.delOff
    let s := if openN ≥ 101 then s.raiseAn n (AN_STAT_OPEN n) 1 else if openOff ≥ 101 then s.p (AN_STAT_OPEN n) 0 else s
    let was := s.on (AN_STAT_COMPL n)
    let s := if complN ≥ 41 then s.raiseAn n (AN_STAT_COMPL n) 0 else if complOff ≥ 101 then s.p (AN_STAT_COMPL n) 0 else s
    let s := if delN ≥ 1001 then s.raiseAn n (AN_STAT_ALNDEL n) 3 else if delOff ≥ 1001 then s.p (AN_STAT_ALNDEL n) 0 else s
    let (faultN, faultOff) := if s.on (AN_STAT_COMPL n) then (if was then x.faultN + 1 else 0, 0)
      else (0, if was then 0 else x.faultOff + 1)
    let s := if faultN ≥ 1000 && !sag then s.raiseAn n (AN_STAT_FAULT n) 2
      else if faultOff ≥ 1000 then s.p (AN_STAT_FAULT n) 0 else s
    let foldN := if s.on (AN_STAT_THERM n) && m.current ≥ s.loopUa n then x.foldN + 1 else 0
    let s := if foldN ≥ 10000 then s.p (AN_STAT_THERM n) 0 else s
    .next (s.modAio n (fun x => { x with openN := openN, openOff := openOff, complN := complN, complOff := complOff
                                         delN := delN, delOff := delOff, faultN := faultN, faultOff := faultOff, foldN := foldN }))

/-- `FOLD_BACK`: an output stage passes 150 °C, or has delivered its current for 1 s without fold-back (R347). -/
def execFoldBack (n : Fin 6) (on : Bool) (s : State) : Res :=
  let n := n.val + 1
  if on then .next ((s.raiseAn n (AN_STAT_THERM n) 4).modAio n (fun x => { x with foldN := 0 }))
  else .next (s.p (AN_STAT_THERM n) 0)

/-! ### Jumpers (R348) -/

/-- The effective alarm by the first matching row of R348, of the jumpers as last read. -/
def State.effAlarm (s : State) (n : Nat) : State :=
  s.pb (AN_STAT_ALEFF n) (!s.on (AN_STAT_JLO n) && (s.on (AN_STAT_JHI n) || s.on (AN_CFG_ALHIGH n)))

/-- One channel's jumpers read, with a notice of a change and of both fitted (R348). -/
def State.jumpers (s : State) (n : Nat) (lo hi : Bool) : State :=
  let changed := s.on (AN_STAT_JLO n) != lo || s.on (AN_STAT_JHI n) != hi
  let err := lo && hi && !s.on (AN_STAT_JMPERR n)
  let s := ((s.pb (AN_STAT_JLO n) lo).pb (AN_STAT_JHI n) hi).pb (AN_STAT_JMPERR n) (lo && hi)
  let s := s.effAlarm n
  if (changed || err) then s.notice 0x1D 0x0006 n (s.word (AN_STAT_OPEN n)) else s

/-- `JUMPER_READ`: the field die reads the LO and HI positions of every channel, every 100 ms (R348). -/
def execJumperRead (lo hi : BitVec 6) (s : State) : Res :=
  .next ((List.range 6).foldl (fun s i => s.jumpers (i + 1) (bit lo.toNat i) (bit hi.toNat i)) s)

/-! ### Shunts and modes (R341, R352) -/

/-- `SHUNT_OVERCURRENT`: a current input has carried more than 30 mA for 1 ms (R352). -/
def execShuntOvercurrent (n : Fin 6) (s : State) : Res :=
  let n := n.val + 1
  if s.g (AN_CFG_MODE n) == 2 && !(s.aio n).shuntOff then
    let s := s.modAio n (fun x => { x with shuntOff := true, shuntAt := s.tu.upNs })
    let s := ((s.p (AN_STAT_OVR n) 1).p (AN_STAT_NSTAT n) 4).showAio n s.fieldNow
    .next (s.notice 0x1D 0x0005 n (s.word (AN_STAT_OPEN n)))
  else .next s

/-- `SHUNT_RECONNECT`: 100 ms later the shunt is connected again (R352). -/
def execShuntReconnect (n : Fin 6) (s : State) : Res :=
  .next (s.modAio (n.val + 1) (fun x => if x.shuntAt + 100000000 ≤ s.tu.upNs then { x with shuntOff := false } else x))

/-- A change of a channel's `MODE` (R341, R353): it settles for 5 ms and has no conversion. -/
def State.aioMode (s : State) (n mode : Nat) : State :=
  if s.g (AN_CFG_MODE n) == mode then s
  else
    let s := (s.p (AN_CFG_MODE n) mode).p (AN_STAT_NSTAT n) 5
    (s.modAio n (fun x => { x with settling := true, settleAt := s.tu.upNs, convs := [], shuntOff := false })).showAio n s.fieldNow

/-- `MODE_SETTLE_END`: a channel's 5 ms of settling end (R341). -/
def execModeSettleEnd (n : Fin 6) (s : State) : Res := .next 
  (s.modAio (n.val + 1) (fun x => if x.settleAt + 5000000 ≤ s.tu.upNs then { x with settling := false } else x))

/-- A committed word of a current output (R343): clamped to the nearest legal current, a bad word counted. -/
def State.commitLoop (s : State) (n : Nat) (v : Nat) : State :=
  if bit v 31 then
    let s := if v / 2 ^ 18 % 2 ^ 13 != 0 then s.inc AN_BADVAL_COUNT else s
    (s.p (AN_CMD_UA10 n) (v % 2 ^ 18)).p (AN_CMD_ALARM n) 1
  else
    let ua := v % 2 ^ 31
    let c := if ua ≤ 18999 then 0 else if ua < 38000 then 38000 else if ua > 205000 then 205000 else ua
    let s := if c != ua then s.inc AN_BADVAL_COUNT else s
    (s.p (AN_CMD_UA10 n) c).p (AN_CMD_ALARM n) 0

end Sys2Proof.Machine
end

