-- ==== Sys2Proof/Machine/RingOps.lean ====
section
/-! DEFINITION. Bunuza Ring frames and schedule: the frame layout (R212, R213), the schedule table (R226, R227), local
references (R208), forwarding (R206, R209). -/

namespace Sys2Proof.Machine

/-- A ring controller's state. -/
def State.ring (s : State) : Nat → RingSt
  | 0 => s.ring1
  | _ => s.ring2

/-- A ring controller's state changed. -/
def State.modRing (s : State) : Nat → (RingSt → RingSt) → State
  | 0, f => { s with ring1 := f s.ring1 }
  | _, f => { s with ring2 := f s.ring2 }

/-- The fields of a ring frame (R212). -/
structure RFrame where
  ver : Nat
  ty : Nat
  flags : Nat
  src : Nat
  dst : Nat
  len : Nat
  bcyc : Nat
  ttl : Nat
  mcyc : Nat
  sched : Nat
  body : List Byte
  crcOk : Bool
  deriving DecidableEq, Repr

/-- Byte `i` of a list as a number, 0 beyond its end. -/
def byteAt (bs : List Byte) (i : Nat) : Nat := ((bs[i]?).getD 0).toNat

/-- A big-endian number of `n` bytes at offset `i`. -/
def beAt (bs : List Byte) (i n : Nat) : Nat := beNat (padTo n (bs.drop i))

/-- A little-endian number of `n` bytes at offset `i`. -/
def leAt (bs : List Byte) (i n : Nat) : Nat := leNat (padTo n (bs.drop i))

/-- A frame read from its bytes (R212); none without its start delimiter and its whole length. -/
def parseFrame (bs : List Byte) : Option RFrame :=
  let len := beAt bs 6 2
  if beAt bs 0 2 == 0xD55D && bs.length == 18 + len && len ≤ 2047 then
    some {
      ver := byteAt bs 2 / 16, ty := byteAt bs 2 % 16, flags := byteAt bs 3, src := byteAt bs 4, dst := byteAt bs 5
      len := len, bcyc := byteAt bs 8, ttl := byteAt bs 9, mcyc := beAt bs 10 2, sched := beAt bs 12 2
      body := (bs.drop 14).take len
      crcOk := crc32 ((bs.drop 2).take (12 + len)) == beAt bs (14 + len) 4 }
  else none

/-- The bytes of a frame with a correct check word (R212). -/
def RFrame.bytes (f : RFrame) : List Byte :=
  let inner := beBytes 1 (f.ver * 16 + f.ty) ++ beBytes 1 f.flags ++ beBytes 1 f.src ++ beBytes 1 f.dst ++
    beBytes 2 f.body.length ++ beBytes 1 f.bcyc ++ beBytes 1 f.ttl ++ beBytes 2 f.mcyc ++ beBytes 2 f.sched ++ f.body
  beBytes 2 0xD55D ++ inner ++ beBytes 4 (crc32 inner)

/-- A schedule entry (R226). -/
structure SchedEnt where
  e : Nat
  off : Nat
  bcyc : Nat
  kind : Nat
  node : Nat
  sync : Bool
  light : Bool
  watch : Bool
  len : Nat
  deriving DecidableEq, Repr

/-- An entry read from its two table words (R229). -/
def entOf (e : Nat) (a b : Word) : SchedEnt :=
  { e := e, off := getBits a 0 16, bcyc := getBits a 16 6, kind := getBits a 22 2, node := getBits a 24 4
    sync := getBits a 28 1 == 1, light := getBits a 29 1 == 1, watch := getBits a 30 1 == 1, len := getBits b 0 11 }

/-- The entries in use of a ring's table. -/
def State.sched (s : State) (r : Nat) : List SchedEnt :=
  (List.range (s.g (BZ_NENT_COUNT r))).map fun e => entOf e (s.word (BZ_SENTA_OFFSET r e)) (s.word (BZ_SENTB_LEN r e))

/-- The length of an entry's slot in ns (R227). -/
def SchedEnt.dur (x : SchedEnt) : Nat := (18 + x.len) * 8

/-- Does an entry fall in a basic cycle? -/
def SchedEnt.inCycle (x : SchedEnt) (b : Nat) : Bool := x.bcyc == 63 || x.bcyc == b

/-- The sender of an entry's frame for rules 0x4 and 0x5: 16 stands for the master (R227). -/
def SchedEnt.source (x : SchedEnt) : Nat := if x.kind == 0 then 16 else x.node

/-- The first element of a list that satisfies a test, as an entry index. [DEDUCED: log 44] -/
def firstBad (p : SchedEnt → Bool) (xs : List SchedEnt) : Option Nat := (xs.find? p).map (·.e)

/-- The elements that fail against their predecessor, as entry indices. [DEDUCED: log 44] -/
def badPairs (p : SchedEnt → SchedEnt → Bool) : List SchedEnt → List Nat
  | x :: y :: t => (if p x y then [y.e] else []) ++ badPairs p (y :: t)
  | _ => []

/-- The elements that fail against an earlier one, as entry indices. [DEDUCED: log 44] -/
def laterBad (p : SchedEnt → SchedEnt → Bool) : List SchedEnt → List Nat
  | [] => []
  | x :: t => (t.filter (p x)).map (·.e) ++ laterBad p t

/-- Rule 0x4 within one basic cycle: slots of one source at least 64 ns apart, of different sources at least 200 ns. -/
def gapBad (x y : SchedEnt) : Bool := y.off < x.off + x.dur + (if x.source == y.source then 64 else 200)

/-- Rule 0x5: do a slot of one basic cycle and a slot of another source of the next lie at least 200 ns apart? Offsets are
each cycle's own, since a wrapped frame passes at its own offset (R209). -/
def wrapBad (x y : SchedEnt) : Bool :=
  x.source != y.source && x.off < y.off + y.dur + 200 && y.off < x.off + x.dur + 200

/-- The nodes of the `SYNC` replies of a basic cycle, in table order. -/
def syncNodes (xs : List SchedEnt) : List SchedEnt := xs.filter (fun x => x.kind == 1 && x.sync)

/-- The first repeated node or ninth reply of a list of `SYNC` replies. -/
def syncRepeat : List Nat → Nat → List SchedEnt → Option Nat
  | _, _, [] => none
  | seen, n, x :: t => if seen.contains x.node || n ≥ 8 then some x.e else syncRepeat (x.node :: seen) (n + 1) t

/-- Rule 0x6 in one basic cycle against the set of basic cycle 0. -/
def syncBad (base xs : List SchedEnt) : Option Nat :=
  let ys := syncNodes xs
  match syncRepeat [] 0 ys with
  | some e => some e
  | none =>
    match ys.find? (fun y => !(base.any (fun z => z.node == y.node))) with
    | some y => some y.e
    | none =>
      if ys.length < 2 || ys.length != base.length then some ((ys.head?.map (·.e)).getD 0) else none

/-- The first basic cycle for which a check fails. -/
def firstCycle (p : Nat → Option Nat) : List Nat → Option Nat
  | [] => none
  | b :: bs => match p b with
    | some e => some e
    | none => firstCycle p bs

/-- The check of a schedule (R227): the first failing rule and its first failing entry, the first in table order but for rule 0x6. Of two
slots that break rule 0x5 the later in the table fails, as under rules 0x2 and 0x4. [DEDUCED: log 44] -/
def schedCheck (nodes : Nat) (compat : Bool) (nent : Nat) (xs : List SchedEnt) : Option (Nat × Nat) :=
  let cyc b := xs.filter (·.inCycle b)
  let r1 := firstBad (fun x => x.node ≥ nodes || (x.kind == 0 && (x.sync || x.light || x.watch)) || (x.light && x.watch)) xs
  let all (f : Nat → List Nat) : List Nat := (List.range 50).flatMap f
  let r2 := (badPairs (fun x y => y.off < x.off) xs ++ all (fun b => laterBad (fun x y => y.off == x.off) (cyc b))).min?
  let r3 := firstBad (fun x => x.off < 3000 || x.off + x.dur > 19800) xs
  let r4 := (all (fun b => badPairs gapBad (cyc b))).min?
  let r5 := (all (fun b => (cyc b).flatMap (fun x => ((cyc ((b + 1) % 50)).filter (wrapBad x)).map (fun y => max x.e y.e)))).min?
  let r6 := if compat then none else
    let base := syncNodes (cyc 0)
    firstCycle (fun b => syncBad base (cyc b)) (List.range 50)
  let r7 := match firstBad (fun x => (x.light || x.watch) && (x.bcyc != 63 || x.len < 16)) xs with
    | some e => some e
    | none => firstBad (fun x => x.light && !(xs.any (fun w => w.watch && w.off ≥ x.off + x.dur + 1000))) xs
  let r8 := if nent == 0 || nent > 4096 then some 0 else (all (fun b => (((cyc b)[128]?).map (·.e)).toList)).min?
  let r9 := firstBad (fun x => x.kind == 0 && x.len < 16) xs
  [(1, r1), (2, r2), (3, r3), (4, r4), (5, r5), (6, r6), (7, r7), (8, r8), (9, r9)].findSome?
    (fun e => e.2.map (fun n => (e.1, n)))

/-- The schedule identifier (R226). -/
def schedId (nent nodes mode : Nat) (words : List (Word × Word)) : Nat :=
  crc32 (leBytes 4 nent ++ leBytes 4 (nodes % 32) ++ leBytes 4 (mode % 2) ++
    (words.flatMap (fun w => leBytes 4 (w.1.toNat % 2 ^ 31) ++ leBytes 4 (w.2.toNat % 2 ^ 11)))) % 2 ^ 16

/-- The table words in use of a ring. -/
def State.schedWords (s : State) (r : Nat) : List (Word × Word) :=
  (List.range (s.g (BZ_NENT_COUNT r))).map fun e => (s.word (BZ_SENTA_OFFSET r e), s.word (BZ_SENTB_LEN r e))

/-- The start of the basic cycle that holds the 64-bit time `t` (R210). -/
def bcStart (t : Nat) : Nat := t / 20000 * 20000
/-- The number of the basic cycle at `t` within its macrocycle (R210). -/
def bcNum (t : Nat) : Nat := t / 20000 % 50
/-- The macrocycle number at `t` (R215). -/
def mcNum (t : Nat) : Nat := t / 1000000

/-- A receive stamp of port `k` of `TU_PCALn`: the unit subtracts the receive latency (R190). -/
def State.rxStamp (s : State) (k stamp : Nat) : Nat := u32 ((stamp : Int) - s.g (TU_PCAL_RXLAT k) / 16)

/-- This node's ID on a ring. -/
def State.nodeId (s : State) (r : Nat) : Nat := s.g (BZ_CTRL_NODE r)

/-- Does the module hold the Light (R401)? -/
def State.holdsLight (s : State) : Bool := s.on UN_STAT_HOLD

/-! ### Rank (R216, R217, R247, R561) -/

/-- The rank the node holds by its configuration, the Light and its cold start (R217, R247). -/
def State.baseRank (s : State) (r : Nat) : Nat :=
  if (s.ring r).rank0Act || (s.on (BZ_CTRL_LRANK r) && s.holdsLight) then 0 else s.g (BZ_CTRL_RANK r)

/-- The rank the node acts with: one that yields to another rank-0 node acts as rank 1 (R561). -/
def State.actRank (s : State) (r : Nat) : Nat := if s.baseRank r == 0 && (s.ring r).yield then 1 else s.baseRank r

/-- Is the node the ring's master now: does it act with rank 0? -/
def State.isMaster (s : State) (r : Nat) : Bool := s.g (BZ_STAT_STATE r) == 3

/-- Is the node the master or a stand-in master? -/
def State.isSender (s : State) (r : Nat) : Bool := s.g (BZ_STAT_STATE r) == 3 || s.g (BZ_STAT_STATE r) == 4

/-! ### Basic cycles and references (R208 to R211) -/

/-- The basic cycle that starts at `c`, seen while the one that starts at `b` runs. -/
def RingSt.cyc (x : RingSt) (b c : Nat) : BCyc :=
  if b < c then x.ahead else if c == b then x.cur else if c + 20000 == b then x.prev else if c + 40000 == b then x.prev2 else x.prev3

/-- A change to what is known of the basic cycle that starts at `c`. -/
def RingSt.modCyc (x : RingSt) (b c : Nat) (f : BCyc → BCyc) : RingSt :=
  if b < c then { x with ahead := f x.ahead } else if c == b then { x with cur := f x.cur }
  else if c + 20000 == b then { x with prev := f x.prev } else if c + 40000 == b then { x with prev2 := f x.prev2 }
  else { x with prev3 := f x.prev3 }

/-- What is known of the basic cycle that starts at `c`. -/
def State.cyc (s : State) (r c : Nat) : BCyc := (s.ring r).cyc (bcStart s.now) c

/-- A change to what is known of the basic cycle that starts at `c`. -/
def State.modCyc (s : State) (r c : Nat) (f : BCyc → BCyc) : State := s.modRing r (fun x => x.modCyc (bcStart s.now) c f)

/-- How far this node's sending reference lies after the nominal start of a basic cycle (R208): 0 on the master, d on any other node. -/
def State.txD (s : State) (r : Nat) : Nat := if s.isMaster r then 0 else (s.ring r).d

/-- How far this node's receiving reference lies after the nominal start of a basic cycle (R208): D on the master, d on any other node. What
a stand-in master sends at its reference d comes back to it D later. [DEDUCED: log 118] -/
def State.rxD (s : State) (r : Nat) : Nat :=
  let x := s.ring r
  if s.isMaster r then x.dd.getD x.d else if s.isSender r then x.d + x.dd.getD 0 else x.d

/-- The local reference for a frame that this node receives, for the basic cycle that starts at `b` (R208). -/
def State.rxRef (s : State) (r b : Nat) : Nat := b + s.rxD r

/-- The local reference for a frame that this node sends (R208). -/
def State.txRef (s : State) (r b : Nat) : Nat := b + s.txD r

/-- The basic cycle whose sending reference lies nearest to `off` before the 64-bit time `t`. -/
def State.txCycle (s : State) (r off t : Nat) : Nat := bcStart (t + 10000 - (s.txD r + off))

/-- The basic cycles in which a frame with a reference `d` after their starts can begin at `t`, up to 400 ns early (R209, R214). -/
def nearCycles (d t : Nat) : List Nat := let c := bcStart (t + 400 - d); [c, c - 20000]

/-- The basic cycles that can be the node's current one for a frame at `t`: those of its reference; of global time while it has none
(R246, R248). -/
def State.cyclesAt (s : State) (r t : Nat) : List Nat :=
  if s.g (BZ_JOIN_PHASE r) == 1 || (s.ring r).cold then [bcStart t] else nearCycles (s.rxD r) t

/-- The Mark delay that the registers show (R229, R233, R207): d, or D on a master and on a stand-in master that knows it; the offset
d − P; the master's position D. [DEDUCED: log 118] -/
def State.showDelay (s : State) (r : Nat) : State :=
  let x := s.ring r
  let s := s.p (BZ_MDELAY_NS r) (if s.isSender r then x.dd.getD x.d else x.d)
  let s := if s.isMaster r then
      match x.dd with
      | some d => (s.p (BZ_POS_NS r) d).p (BZ_POS_VALID r) 1
      | none => s
    else s
  s.p (BZ_MOFF_NS r) (if s.isMaster r then 0 else u32 ((x.d : Int) - s.g (BZ_POS_NS r)))

/-- The number of sync nodes of a ring's schedule; 0 in compatibility mode (R215). -/
def State.syncN (s : State) (r : Nat) : Nat :=
  if s.on (BZ_CTRL_MODE r) then 0 else (syncNodes ((s.sched r).filter (·.inCycle 0))).length

/-- Is a node a sync node of the ring (R234)? -/
def State.isSync (s : State) (r n : Nat) : Bool :=
  !s.on (BZ_CTRL_MODE r) && (syncNodes ((s.sched r).filter (·.inCycle 0))).any (·.node == n)

/-- Is at least one force active (R120)? -/
def State.forceActive (s : State) : Bool := !s.app.forces.isEmpty

/-! ### Sending -/

/-- A frame of this node for the basic cycle that starts at `c` (R212), its `TTL` the number of nodes. -/
def State.mkFrame (s : State) (r c ty flags dst : Nat) (body : List Byte) : RFrame :=
  { ver := 2, ty := ty, flags := flags + (if s.forceActive then 1 else 0), src := s.nodeId r, dst := dst, len := body.length
    bcyc := bcNum c, ttl := s.g (BZ_CTRL_NODES r), mcyc := mcNum c % 2 ^ 16, sched := s.g (BZ_SCHEDID_ID r)
    body := body, crcOk := true }

/-- The port on which this node's frames leave: port A, or port B while folded at port A (R256). -/
def State.outPort (s : State) (r : Nat) : Nat := if s.g (BZ_FOLD_STATE r) % 2 == 1 then 1 else 0

/-- The port on which the node takes frames for processing: port B, or port A while folded at port B (R230, R256). -/
def State.rxPort (s : State) (r : Nat) : RPort := if s.g (BZ_FOLD_STATE r) / 2 % 2 == 1 then .a else .b

/-- The segment delay λ at a port, in 1/16 ns (R231). -/
def State.segDelay (s : State) (r port : Nat) : Nat := if port == 0 then s.g (BZ_SEGA_DELAY r) else s.g (BZ_SEGB_DELAY r)

/-- The node sends a frame of its own. -/
def State.sendRing (s : State) (r : Nat) (f : RFrame) : State :=
  if s.mode == mSafeHalt then s else s.emit (.ringFrame r (s.outPort r) f.bytes)

/-- A position word leaves port `port` (R232): the position `p` of the sender, its forwarding latency `f` and the delay of the segment. -/
def State.sendPos (s : State) (r port p f : Nat) : State := s.emit (.ringIdle r port 0 (p + (f * 16 + s.segDelay r port) / 16))

/-! ### Forwarding (R206, R209, R256) -/

/-- Does this node send in a slot of its own, or a Mark, at the 64-bit time `t` (R209)? -/
def State.inOwnSlot (s : State) (r t : Nat) : Bool :=
  let x := s.ring r
  let c := bcStart (t - s.txD r)
  let y := s.cyc r c
  let within o d := decide (o ≤ t) && decide (t < o + d)
  x.transmitting && !y.corrupted &&
  ((y.sent && (within (s.txRef r c) 336 && s.isMaster r || within (s.txRef r c + 2400) 336)) ||
   (!x.cold && (s.sched r).any (fun e =>
      ((e.kind != 0 && e.node == s.nodeId r) || (e.kind == 0 && s.isSender r && y.sent)) && e.inCycle (bcNum c) &&
      within (s.txRef r c + e.off) e.dur)))

/-- The bytes of a frame with its `TTL` one less; the check word changes as it must, so that an error in the frame stays one (R209). -/
def lessTtl (raw : List Byte) : List Byte :=
  let n := raw.length - 4
  let out := raw.take 9 ++ beBytes 1 (byteAt raw 9 - 1) ++ (raw.take n).drop 10
  out ++ beBytes 4 (beAt raw n 4 ^^^ crc32 ((raw.take n).drop 2) ^^^ crc32 (out.drop 2))

/-- A frame received on the receive plane goes on (R209, R214): the originating node removes its own, one that meets an own slot is
discarded and counted, one whose `TTL` has reached 0 goes no further. What cannot be read as a frame goes on as it is.
A test that holds a port of the ring lets nothing through (R527). -/
def State.forward (s : State) (r : Nat) (f : Option RFrame) (raw : List Byte) (t : Nat) : State :=
  if s.heldPort (0x10 + 2 * r) || s.heldPort (0x11 + 2 * r) then s
  else if s.inOwnSlot r t then
    match f with
    | some f => if f.src == s.nodeId r then s else (s.p (BZ_STAT_WRAP r) 1).inc (BZ_WRAPDROP_COUNT r)
    | none => (s.p (BZ_STAT_WRAP r) 1).inc (BZ_WRAPDROP_COUNT r)
  else match f with
  | some f =>
    if (f.src == s.nodeId r && s.on (BZ_CTRL_EN r)) || f.ttl ≤ 1 then s else s.emit (.ringFrame r (s.outPort r) (lessTtl raw))
  | none => s.emit (.ringFrame r (s.outPort r) raw)

/-- A frame that arrives on a port that is not the receive plane (R256): a node between the folds repeats the secondary direction from port
A to port B without processing; nothing comes through a port at which the node is folded. -/
def State.repeatSec (s : State) (r : Nat) (port : RPort) (raw : List Byte) : State :=
  if port == .a && s.g (BZ_FOLD_STATE r) == 0 then s.emit (.ringFrame r 1 raw) else s

/-! ### Acceptance (R214) -/

/-- Does a frame's `BCYC` and `MCYC` name the basic cycle that starts at `c`? -/
def RFrame.names (f : RFrame) (c : Nat) : Bool := f.bcyc == bcNum c && f.mcyc == mcNum c % 2 ^ 16

/-- The start of the basic cycle that a frame names, if it is the one that starts at `c` or the one before (R214). -/
def RFrame.cycleAt (f : RFrame) (c : Nat) : Option Nat :=
  if f.names c then some c else if 20000 ≤ c && f.names (c - 20000) then some (c - 20000) else none

/-- Does a frame at `t` name the node's current basic cycle or the one before (R214)? -/
def State.inTime (s : State) (r : Nat) (f : RFrame) (t : Nat) : Bool := (s.cyclesAt r t).any (fun c => (f.cycleAt c).isSome)

/-- The first three items of R214. -/
def State.headOk (s : State) (r : Nat) (f : RFrame) : Bool :=
  f.ver == 2 && decide (1 ≤ f.ty) && decide (f.ty ≤ 4) && f.flags / 128 == 0 && f.crcOk && f.sched == s.g (BZ_SCHEDID_ID r)

/-- The distance of two times. -/
def dist (a b : Nat) : Nat := if a ≤ b then b - a else a - b

/-- What a frame answers to (R214): the local basic cycle it arrives in, the one it names, and the schedule entry, whose kind, node and,
for a poll, addressed node agree, which falls in the basic cycle named and from whose expected time the frame begins within 400 ns. A frame
of the basic cycle before arrives at the same offset of the next (R209). -/
def State.frameEntry (s : State) (r : Nat) (f : RFrame) (t : Nat) : Option (Nat × Nat × SchedEnt) :=
  (nearCycles (s.rxD r) t).findSome? (fun c =>
    match f.cycleAt c with
    | none => none
    | some b => ((s.sched r).find? (fun x =>
        x.inCycle f.bcyc && f.ty == x.kind + 2 &&
        (if x.kind == 0 then f.dst == x.node else f.src == x.node && f.dst == 0xFF) &&
        decide (dist t (s.rxRef r c + x.off) ≤ 400) && f.len == x.len)).map (fun x => (c, b, x)))

/-- The entry of an accepted poll, reply or reference message (R214). -/
def State.accepted (s : State) (r : Nat) (f : RFrame) (t : Nat) : Option (Nat × Nat × SchedEnt) :=
  if s.headOk r f then s.frameEntry r f t else none

/-- The node in whose slot a frame at `t` begins. -/
def State.slotNode (s : State) (r t : Nat) : Option Nat :=
  (nearCycles (s.rxD r) t).findSome? (fun c =>
    ((s.sched r).find? (fun x => x.kind != 0 && x.inCycle (bcNum c) && decide (dist t (s.rxRef r c + x.off) ≤ 400))).map (·.node))

/-- A sync node excluded from averaging for the rest of the macrocycle and the next (R236). -/
def State.exclSync (s : State) (r n : Nat) : State :=
  if s.isSync r n then
    let s := s.modRing r (fun x => { x with exclNow := n :: x.exclNow, exclNext := n :: x.exclNext })
    s.p (BZ_SYNCEXCL_NODES r) (s.g (BZ_SYNCEXCL_NODES r) ||| 2 ^ (n % 16))
  else s

/-- A frame rejected (R214): counted, with its check word if that failed or the frame could not be read, and its source, if it is a sync
node, excluded from averaging (R236). The source of a frame whose check word fails is the node of its slot (R255). [DEDUCED: log 113, 118] -/
def State.rejectFrame (s : State) (r : Nat) (f : Option RFrame) (t : Nat) : State :=
  let s := s.inc (BZ_RXREJ_COUNT r)
  let bad (s : State) := match s.slotNode r t with
    | some n => (s.inc (BZ_CRCERR_COUNT r)).exclSync r n
    | none => s.inc (BZ_CRCERR_COUNT r)
  match f with
  | none => bad s
  | some f => if f.crcOk then s.exclSync r f.src else bad s

/-- Is a frame inconsistent with the node's schedule or cycle (R214)? -/
def State.inconsistent (s : State) (r : Nat) (f : RFrame) (t : Nat) : Bool :=
  f.crcOk && f.ver == 2 && (f.sched != s.g (BZ_SCHEDID_ID r) || !s.inTime r f t)

/-- A frame rejected, and the count of Marks begun anew while it shows an inconsistency (R214, R249). -/
def State.refuse (s : State) (r : Nat) (f : Option RFrame) (t : Nat) : State :=
  let s' := s.rejectFrame r f t
  match f with
  | some g => if s.inconsistent r g t && s.g (BZ_JOIN_PHASE r) == 2 then s'.p (BZ_JOIN_MARKS r) 0 else s'
  | none => s'

/-! ### RingArr -/

/-- A frame as it reaches the module: as it is read, its receive stamp and the 64-bit time of it; none where the port's PHY has no settled
link (R190, R191). Does the controller take it? -/
structure RingArr where
  f : Option RFrame
  stamp : Nat
  t : Nat
  stamped : Bool
  takes : Bool
  deriving DecidableEq, Repr

/-- A frame at a port (R190, R191, R206, R230): its stamp, and whether the controller, which is not Off, takes it from its receive plane. -/
def State.arrival (s : State) (r : Nat) (port : RPort) (raw : List Byte) (stamp : Nat) : RingArr :=
  let k := 4 + 2 * r + (if port == .a then 0 else 1)
  let los := if port == .a then s.on (BZ_SEGA_LOS r) else s.on (BZ_SEGB_LOS r)
  let v := s.rxStamp k stamp
  { f := parseFrame raw, stamp := v, t := extend s.now v, stamped := !los, takes := s.g (BZ_STAT_STATE r) != 0 && port == s.rxPort r }

/-- What every frame brings at a port, whatever it holds: the port logic sends it on (R206), and it is activity (R246). -/
def State.passFrame (s : State) (r : Nat) (port : RPort) (raw : List Byte) (a : RingArr) : State :=
  let s := if port == s.rxPort r then s.forward r a.f raw a.t else s.repeatSec r port raw
  s.modRing r (fun x => { x with lastActivity := s.tu.upNs })

end Sys2Proof.Machine
end

