-- ==== Sys2Proof/Machine/MailOps.lean ====
section
/-! DEFINITION. The mailbox channels (chapter 19) and the command table (chapter 20): which channels, modes and life-cycle
states accept a command, the response to one, and what opens and closes a channel. -/

namespace Sys2Proof.Machine

/-! ### Status codes (R445) -/

abbrev stOk : Nat := 0x00
abbrev stBadCode : Nat := 0x01
abbrev stBadLength : Nat := 0x02
abbrev stBadParam : Nat := 0x03
abbrev stAuth : Nat := 0x04
abbrev stStateReject : Nat := 0x05
abbrev stBusy : Nat := 0x06
abbrev stVoteDisagree : Nat := 0x07
abbrev stNotPresent : Nat := 0x08
abbrev stResource : Nat := 0x09
abbrev stVerifyFail : Nat := 0x0A
abbrev stTimeout : Nat := 0x0B
abbrev stInternal : Nat := 0x0C

/-! ### The command table (R462 to R493) -/

/-- A row of the command tables: the payload lengths it defines as inclusive ranges, the letters of its Ch. column (lanes,
service and debug, service only, partner), its modes as a bit mask. -/
structure CmdRow where
  code : Nat
  lens : List (Nat × Nat)
  lane : Bool
  svc : Bool
  dbg : Bool
  partner : Bool
  modes : Nat
  deriving DecidableEq, Repr

/-- Mode masks (R463). -/
abbrev mkAll : Nat := 0xFFC
abbrev mkNoSH : Nat := 0x7FC
abbrev mkRun : Nat := 0x1E0
abbrev mkCm : Nat := 0x008
abbrev mkSy : Nat := 0x010
abbrev mkMt : Nat := 0x100
abbrev mkUp : Nat := 0x200
abbrev mkST : Nat := 0x004

/-- Channels L, S. -/
def rowLS (code : Nat) (lens : List (Nat × Nat)) (modes : Nat) : CmdRow := ⟨code, lens, true, true, true, false, modes⟩
/-- Channels L, S, P. -/
def rowLSP (code : Nat) (lens : List (Nat × Nat)) (modes : Nat) : CmdRow := ⟨code, lens, true, true, true, true, modes⟩
/-- Channels S. -/
def rowS (code : Nat) (lens : List (Nat × Nat)) (modes : Nat) : CmdRow := ⟨code, lens, false, true, true, false, modes⟩
/-- Channel 4. -/
def row4 (code : Nat) (lens : List (Nat × Nat)) (modes : Nat) : CmdRow := ⟨code, lens, false, true, false, false, modes⟩
/-- Channels L. -/
def rowL (code : Nat) (lens : List (Nat × Nat)) (modes : Nat) : CmdRow := ⟨code, lens, true, false, false, false, modes⟩

/-- Module, Application and Force groups (R469, R472, R478). -/
def cmdRowsA : List CmdRow := [
  rowLS 0x0101 [(0, 0)] mkNoSH, rowLSP 0x0102 [(0, 0)] mkAll, rowLSP 0x0103 [(0, 0)] mkAll, rowLSP 0x0104 [(4, 4)] mkAll,
  rowLS 0x0105 [(4, 4)] mkAll, row4 0x0106 [(5, 260)] (mkCm + mkMt), rowS 0x0107 [(8, 8)] (mkCm + mkMt),
  rowS 0x0201 [(9, 1008)] (mkCm + mkSy + mkRun), rowS 0x0202 [(4, 4)] mkCm, rowS 0x0203 [(4, 4)] 0x1C0,
  rowLS 0x0204 [(0, 0)] 0x1C0, rowLS 0x0205 [(4, 4)] 0x1C0, rowLS 0x0206 [(4, 4)] (mkCm + mkSy + mkRun + mkUp),
  rowS 0x0207 [(4, 4)] mkRun, rowLS 0x0208 [(32, 32)] mkRun, rowL 0x0209 [(4, 4)] mkRun, rowL 0x020A [(4, 4)] mkRun,
  rowLS 0x020B [(0, 0)] mkAll,
  rowS 0x0301 [(9, 264)] mkMt, rowS 0x0302 [(4, 4)] mkMt, rowS 0x0303 [(0, 0)] mkMt, rowS 0x0304 [(4, 4)] mkAll]

/-- Time, Ring, Ethernet, Safety configuration, Field I/O and Unit groups (R479 to R487). -/
def cmdRowsB : List CmdRow := [
  rowS 0x0401 [(24, 24)] (mkCm + mkMt), rowS 0x0402 [(20, 20)] (mkCm + mkRun), rowS 0x0403 [(4, 4)] (mkCm + mkMt),
  rowLSP 0x0404 [(0, 0)] mkAll, rowS 0x0501 [(16, 1008)] mkCm, rowS 0x0502 [(12, 12)] mkCm, rowLSP 0x0503 [(4, 4)] mkAll,
  rowS 0x0601 [(32, 32)] (mkCm + mkMt), rowLS 0x0602 [(0, 0)] mkAll, row4 0x0701 [(4, 4)] mkCm, row4 0x0702 [(0, 0)] mkCm,
  rowL 0x0703 [(16, 16)] mkRun, rowLS 0x0704 [(0, 0)] mkAll, rowS 0x0801 [(48, 48)] (mkCm + mkMt),
  rowLS 0x0802 [(4, 4)] (mkCm + mkRun), rowLS 0x0803 [(0, 0)] mkAll, rowS 0x0901 [(8, 8)] mkCm, rowLS 0x0902 [(0, 0)] 0x020,
  rowS 0x0903 [(8, 8)] mkCm, rowLSP 0x0904 [(0, 0)] mkAll]

/-- Faults, Event recorder, Update, Test and Life cycle groups (R488 to R493). -/
def cmdRowsC : List CmdRow := [
  rowLS 0x0A01 [(4, 4)] mkRun, rowLSP 0x0A02 [(4, 4)] mkAll, rowS 0x0A03 [(8, 8)] mkMt, rowLSP 0x0A04 [(0, 0)] mkAll,
  rowLS 0x0B01 [(8, 8)] mkAll, rowLS 0x0B02 [(0, 0)] mkAll, row4 0x0B03 [(0, 0)] mkMt,
  row4 0x0C01 [(200, 200)] (mkCm + mkSy + mkRun + mkUp), row4 0x0C02 [(9, 1008)] (mkCm + mkSy + mkRun + mkUp),
  rowLS 0x0C03 [(0, 0)] mkAll, row4 0x0C04 [(32, 32)] mkUp, row4 0x0C05 [(0, 0)] (mkCm + mkSy + mkRun + mkUp),
  rowS 0x0D01 [(8, 8)] (mkST + mkMt), rowS 0x0D02 [(8, 8)] (mkCm + mkMt), rowS 0x0D03 [(0, 0)] mkCm,
  rowS 0x0E01 [(4, 4), (76, 76), (100, 100), (132, 132)] (mkCm + mkMt), row4 0x0E02 [(80, 80)] mkNoSH]

/-- The row of a code. -/
def cmdRow (code : Nat) : Option CmdRow := (cmdRowsA ++ cmdRowsB ++ cmdRowsC).find? (fun r => r.code == code)

/-- Does the life-cycle state accept a code (R464; R436 for `MOD_TAG_WRITE`, R536 for `TEST_PROD`)? -/
def lcsAccepts (lcs code : Nat) : Bool :=
  let g := code / 256
  if code == 0x0106 then lcs == 2
  else if code == 0x0D03 then lcs == 0
  else match lcs with
  | 0 => g == 1 || g == 0x0D || g == 0x0E
  | 1 | 3 => g == 1 || g == 0x0B || g == 0x0D || g == 0x0E
  | 2 => true
  | _ => code == 0x0102 || code == 0x0105 || code == 0x0B01 || code == 0x0B02

/-- The modes in which a command is accepted on a channel, as `ACCEPT` shows them (R446, R471; R433 for `LC_CHANGE`). -/
def acceptMask (lcs code chan : Nat) (payload : List Byte) : Nat :=
  if !lcsAccepts lcs code then 0
  else if code == 0x0104 then
    if chan == 5 then 0x400
    else match byteAt payload 0 with
      | 3 => 0x100
      | 4 => 0x708
      | 8 | 9 => 0x0C0
      | 10 => 0x0E0
      | _ => mkAll
  else if code == 0x0E01 && ((lcs == 1 && byteAt payload 0 == 2) || (lcs == 3 && byteAt payload 0 == 1)) then mkCm
  else match cmdRow code with
    | some r => r.modes
    | none => 0

/-- Does a channel accept a command (R463, R471; R433 for `LC_CHANGE` on the debug channel)? [DEDUCED: log 27] -/
def chanAccepts (lcs chan : Nat) (r : CmdRow) (payload : List Byte) : Bool :=
  if chan < 4 then r.lane
  else if chan == 4 then r.svc && !(r.code == 0x0E01 && lcs == 0)
  else if chan == 5 then r.partner && (r.code != 0x0104 || byteAt payload 0 == 4)
  else if r.code == 0x0E01 then lcs == 0
  else r.dbg

/-! ### Buffers and channels -/

/-- The command buffer of a channel written: header and payload (R442). -/
def State.writeCmd (s : State) (c : Nat) (hdr payload : List Byte) : State :=
  { s with mb := s.mb.wrL (0x1000 * c) (padTo 16 hdr ++ payload.take 1008) }

/-- The header of a channel's command buffer. -/
def State.cmdHdr (s : State) (c : Nat) : List Byte := s.mb.rdN (0x1000 * c) 16

/-- The payload of a channel's command buffer, as long as its header says and at most 1,008 bytes. -/
def State.cmdPayload (s : State) (c : Nat) : List Byte := s.mb.rdN (0x1000 * c + 16) (min 1008 (leAt (s.cmdHdr c) 4 2))

/-- A response header (R443). -/
def respHdr (hdr : List Byte) (status len : Nat) : List Byte :=
  padTo 4 hdr ++ leBytes 2 len ++ leBytes 2 status ++ leBytes 8 0

/-- A response written to a channel (R440, R443, R453, R455): to one that is executing, which is then Done, and on the lane
channels also to one that has not posted the command yet (R70). -/
def State.respondOn (s : State) (c : Nat) (hdr : List Byte) (status : Nat) (payload : List Byte) : State :=
  let waits := s.g (MB_STAT_STATE c) == 1
  if s.on (MB_STAT_EN c) && (waits || c < 4) then
    let payload := if status == stOk || status == stStateReject then payload else []
    let h := respHdr hdr status payload.length
    let s := { s with mb := s.mb.wrL (0x1000 * c + 0x400) (padTo 1024 (h ++ payload)) }
    let s := if waits then s.p (MB_STAT_STATE c) 2 else s
    let s := ((s.p (MB_LAST_CODE c) (leAt hdr 0 2)).p (MB_LAST_TAG c) (byteAt hdr 2)).p (MB_LAST_STATUS c) status
    let s := if status == stStateReject then s.inc (MB_SREJCNT_COUNT c) else s
    let s := if s.on (MB_CTRL_IRQDONE c) && c < 4 then s.emit (.irq c 0 0x440) else s
    let s := if c == 4 && s.sess.phase == .authenticated then s.sendRecord 0x11 (h ++ payload) else s
    if bit (byteAt hdr 3) 0 && bit (s.g (MB_EVMASK_CAT c)) 0 then
      s.postTo c { evseq := 0, source := 0, code := leAt hdr 0 2, cat := 0, cls := 0xFF
                   data := leBytes 1 (byteAt hdr 2) ++ leBytes 2 status }
    else s
  else s

/-- The event record of a command's outcome (R445, R468, R497). [DEDUCED: log 40] -/
def State.cmdRecord (s : State) (c : Nat) (hdr payload : List Byte) (status : Nat) : State :=
  s.recordEv { source := 0x0200, code := leAt hdr 0 2, cls := 0xFF
               data := leBytes 1 c ++ leBytes 1 (byteAt hdr 2) ++ leBytes 2 status ++ padTo 12 payload }

/-- The payload of a `STATE_REJECT` response (R446). -/
def State.rejectPayload (s : State) (code chan : Nat) (payload : List Byte) : List Byte :=
  leBytes 1 s.mode ++ leBytes 1 (s.g LC_STATE_LCS) ++ leBytes 2 (acceptMask (s.g LC_STATE_LCS) code chan payload)

/-- A response placed for the issuing task's next image (R70). -/
def State.imageResponse (s : State) (hdr : List Byte) (status : Nat) (payload : List Byte) : State :=
  let t := leAt hdr 6 2 % 16
  let x := tabGet (fun _ => {}) s.app.tasks t
  let payload := if status == stOk || status == stStateReject then payload else []
  let x := { x with resp := some (respHdr hdr status payload.length ++ payload), respCode := leAt hdr 0 2
                    respTag := byteAt hdr 2, respStatus := status }
  { s with app := { s.app with tasks := tabSet (fun _ => {}) s.app.tasks t x } }

/-- The end of a command (R443, R445, R70): the response to every channel that waits for it, the response block of a lane
command, the event record that a failed one writes, `INTERNAL`'s notice. A command whose channel was reset answers nobody (R459). -/
def State.respond (s : State) (chans : List Nat) (hdr cmd : List Byte) (status : Nat) (payload : List Byte) : State :=
  if chans.isEmpty then s else
  let payload := if status == stStateReject then s.rejectPayload (leAt hdr 0 2) (chans.headD 0) cmd else payload
  let s := chans.foldl (fun s c => s.respondOn c hdr status payload) s
  let s := if chans.headD 4 < 4 then s.imageResponse hdr status payload else s
  let s := if status != stOk && status != stStateReject then s.cmdRecord (chans.headD 0) hdr cmd status else s
  if status == stInternal then s.notice 0x22 0x0007 (chans.headD 0) (s.word (MB_LAST_CODE (chans.headD 0))) else s

/-- Does the Keeper look for a quiet gap or an execution point (R145): for a command that waits for one, or for a resynchronisation's
final round, from the end of its first round on? -/
def State.gapSought (s : State) : Bool :=
  (match s.waiting with
    | some w => (w.code == 0x0208 || w.code == 0x0104 || w.code == 0x0209 || w.code == 0x020A) && !w.begun
    | none => false) ||
  (s.on VX_RSYNC_ACTIVE && decide (2 ≤ s.g VX_RSYNC_ROUND) && !(s.lane (s.g VX_RSYNC_JOINER)).finalOk)

/-- The Keeper clears `RA_CTRL.INHIBIT` in every lane once it looks for no gap any more (R145). -/
def State.uninhibit (s : State) : State :=
  if s.gapSought then s else [0, 1, 2, 3].foldl (fun (s : State) l => s.p (RA_CTRL_INHIBIT l) 0) s

/-- A waiting command given up before it has begun to act: a holder that was to park renews its lease again. [DESIGN CHOICE: log 30] -/
def State.giveUp (s : State) (w : Waiting) : State :=
  let s := ({ s with waiting := none } : State).uninhibit
  if w.code == 0x0104 && s.un.leaveTo == some mParked then { s with un := { s.un with noRenewal := false, leaveTo := none } } else s

/-- The commands under way on channel 4, 5 or 6 when it is reset or closed (R459): one that waits is abandoned with no effect, one
that has begun to act runs to its end and answers nobody. [DESIGN CHOICE: log 30] -/
def State.dropChan (s : State) (c : Nat) : State :=
  if c < 4 then s
  else
    let rest (cs : List Chan) : List Chan := cs.filter (fun (x : Chan) => x.val != c)
    let s := match s.waiting with
      | some w =>
        if rest w.chans == w.chans then s
        else if w.begun then { s with waiting := some { w with chans := rest w.chans } }
        else s.giveUp w
      | none => s
    let answer := match s.un.answer with
      | some (cs, h, p) => if (rest cs).isEmpty then none else some (cs, h, p)
      | none => none
    { s with
      queued := s.queued.filter (fun (q : Queued) => rest q.chans == q.chans)
      app := { s.app with startChans := rest s.app.startChans, wakeChans := rest s.app.wakeChans }
      dbg := { s.dbg with loop := s.dbg.loop.map (fun x => { x with chans := rest x.chans }) }
      un := { s.un with answer := answer } }

/-- A channel's conversation zeroed (R459): buffers, queue, refusal bits. -/
def State.zeroChan (s : State) (c : Nat) : State :=
  let s := s.dropChan c
  let s := { s with mb := s.mb.wipe (0x1000 * c) (0x1000 * c + 0x1000) }
  let s := ((s.p (MB_EVHEAD_HEAD c) 0).p (MB_EVTAIL_TAIL c) 0).p (MB_EVSTAT_COUNT c) 0
  (((s.p (MB_STAT_REJ c) 0).p (MB_STAT_REJST c) 0).p (MB_EVSTAT_OVF c) 0).p (MB_STAT_STATE c) 0

/-- A channel closes (R60, R438): a command in it is discarded unanswered, its buffers read 0. -/
def State.closeChan (s : State) (c : Nat) : State := ((s.zeroChan c).p (MB_STAT_EN c) 0).p (MB_STAT_VOTED c) 0

/-- A channel opens (R438). -/
def State.openChan (s : State) (c : Nat) (voted : Bool) : State := (s.p (MB_STAT_EN c) 1).pb (MB_STAT_VOTED c) voted

/-- Is a channel of the partner or the debugger to be open (R438, R465)? Safe-Halt closes the partner's (R415). -/
def State.chanWanted (s : State) (c : Nat) : Bool :=
  let live := s.mode != mDormant && s.mode != mBoot
  if c == 5 then live && s.mode != mSafeHalt && s.on UN_CFG_EN && (s.on UN_STAT_PLK1 || s.on UN_STAT_PLK2)
  else live && s.on LC_STATE_DBGPERM

/-- The partner's and the debug channel open and close with their conditions (R438). -/
def State.chanGates (s : State) : State :=
  [5, 6].foldl (fun (s : State) c =>
    if s.chanWanted c == s.on (MB_STAT_EN c) then s else if s.chanWanted c then s.openChan c false else s.closeChan c) s

/-- A mode change, a stop or a restart ends a waiting command that has not begun to act with `STATE_REJECT` (R450, R467). -/
def State.abortWaiting (s : State) : State :=
  match s.waiting with
  | none => s
  | some w =>
    if w.begun then s
    else
    (s.giveUp w).respond (w.chans.map (·.val)) w.hdr w.payload stStateReject []

/-- The 16 bytes of a loopback's result (R527). [DESIGN CHOICE: log 16] -/
def loopOut (sent intact result : Nat) : List Byte :=
  leBytes 4 sent ++ leBytes 4 intact ++ leBytes 4 (sent - intact) ++ leBytes 1 result ++ leBytes 3 0

/-- A mode change ends the commanded test that runs (R529): `OK` with the counts so far, a free value up to what the test would have sent,
and result 0x1. [DESIGN CHOICE: log 16] -/
def State.endLoop (s : State) : State :=
  match s.dbg.loop with
  | none => s
  | some x =>
    let c := Config.loopTest s.free x.port x.depth x.sent
    let sent := c.2.1 % (x.sent + 1)
    let s : State := { s with free := s.free + 1, dbg := { s.dbg with loop := none } }
    (s.redrive x.port).respond (x.chans.map (·.val)) x.hdr x.payload stOk (loopOut sent (c.2.2.1 % (sent + 1)) 1)

/-- A commanded test comes to its end: the port is restored, the answer given (R527). -/
def State.loopTick (s : State) : State :=
  match s.dbg.loop with
  | none => s
  | some x =>
    if s.tu.upNs < x.endNs then s
    else (({ s with dbg := { s.dbg with loop := none } } : State).redrive x.port).respond (x.chans.map (·.val)) x.hdr x.payload stOk (loopOut x.sent x.intact x.result)

/-- The service session ends (R455, R457): channel 4 is reset and closed. -/
def State.endSession (s : State) : State :=
  let s := if s.sess.phase == .none then s else s.emit (.closed s.sess.via)
  let s := { s with sess := { s.sess with phase := .none, nc := [], nk := [], rxCtr := 0, txCtr := 0 }
                    fc := { s.fc with part0 := false } }
  (s.closeChan 4).p (MB_STAT_AUTH 4) 0

end Sys2Proof.Machine
end

