-- ==== Sys2Proof/Machine/Lanes.lean ====
section
/-! DEFINITION. Lane states and levels (R62, R68), the wipe of a lane (R60, R175), exclusion without its report (R60, R61),
failed resynchronisation attempts (R63), forces and the stop of the application (R117, R121). -/

namespace Sys2Proof.Machine

/-! ### Lane states (R62) -/

abbrev laAbsent : Nat := 0
abbrev laVoting : Nat := 1
abbrev laSpare : Nat := 2
abbrev laResetting : Nat := 3
abbrev laPreparing : Nat := 4
abbrev laCopying : Nat := 5
abbrev laOut : Nat := 6

/-- The field of a lane's state. -/
def laneFld : Nat → Fld
  | 0 => VX_LANES_STA
  | 1 => VX_LANES_STB
  | 2 => VX_LANES_STC
  | _ => VX_LANES_STD

/-- A lane's state. -/
def State.laneSt (s : State) (l : Nat) : Nat := s.g (laneFld l)

/-- The lanes in Voting, lowest letter first. -/
def State.votingLanes (s : State) : List Nat := [0, 1, 2, 3].filter (fun l => s.laneSt l == laVoting)

/-- The lanes in Voting or Spare. -/
def State.liveLanes (s : State) : List Nat := [0, 1, 2, 3].filter (fun l => s.laneSt l == laVoting || s.laneSt l == laSpare)

/-- The redundancy level (R68). -/
def State.level (s : State) : Nat := s.liveLanes.length

/-- The registers that show the redundancy level (R71, R72, R419). -/
def State.levels (s : State) : State :=
  let v := s.level
  let s := s.p VX_LANES_LEVEL v
  let s := [0, 1, 2, 3].foldl (fun s l => s.p (VX_LSTAT_LEVEL l) v) s
  s.p LC_MODE_LEVEL (if s.mode == mActive || s.mode == mHotStandby || s.mode == mIsolated then v else 0)

/-- A lane takes a state. -/
def State.setLaneSt (s : State) (l st : Nat) : State := ((s.p (laneFld l) st).p (VX_LSTAT_STATE l) st).levels

/-- A lane is reset and wiped (R60, R174, R175): memory, registers, logs, queues and buffers. -/
def State.wipeLane (s : State) (l : Nat) (afterExcl : Bool) : State :=
  let x := s.lane l
  let s := { s with regs := s.regs.filter (fun e => e.1 / 0x1000000 != 0x70 + l) }
  let s := s.setLane l { exclTimes := x.exclTimes, lwiping := true, pwiping := true, afterExcl := afterExcl, waitPulses := x.waitPulses
                         diagAt := x.diagAt, diagSeq := x.diagSeq }
  ((s.p (VX_LSTAT_LANE l) l).p (VX_LSTAT_STATE l) (s.laneSt l)).p (VX_LSTAT_LEVEL l) s.level

/-! ### Exclusion (R59 to R61) -/

/-- Why and where a lane is excluded (R59, R72). -/
structure Excl where
  lane : Nat
  cause : Nat
  task : Nat := 0
  cycle : Nat := 0
  digest : Bool := false
  delta : Bool := false
  word : Nat := 0
  deriving DecidableEq, Repr

/-- A report that follows from a reaction: class, source, code. -/
structure Follow where
  cls : Nat
  src : Nat
  code : Nat
  deriving DecidableEq, Repr

/-- A failed resynchronisation attempt (R63): the third takes the lane Out with class 2, else it is reset again. -/
def State.failAttempt (s : State) (l : Nat) : State × List Follow :=
  let n := s.g (VX_EXCL_FAILS l) + 1
  let s := s.p (VX_EXCL_FAILS l) (min 3 n)
  let s := if s.g VX_RSYNC_JOINER == l then (s.p VX_RSYNC_ACTIVE 0).p VX_RSYNCLEFT_KIB 0 else s
  let s := s.uninhibit
  if n ≥ 3 then ((s.setLaneSt l laOut).wipeLane l true, [⟨2, 0x10, 0x600 + 16 * l⟩])
  else ((s.setLaneSt l laResetting).wipeLane l true, [])

/-- The pages of a lane's windows and of its output image. -/
def State.copyPages (s : State) (l : Nat) : Nat :=
  (List.range 16).foldl (fun n k => n + s.g (SD_WINSIZE_PAGES l k)) 64

/-- The source of a resynchronisation (R64): the lowest Voting lane whose last submission was in the majority, or the only Voting
lane. [DEDUCED: log 49] -/
def State.copySource (s : State) : Option Nat :=
  (s.votingLanes.find? (fun v => (s.lane v).lastAgreed)).orElse (fun _ => if s.votingLanes.length == 1 then s.votingLanes.head? else none)

/-- The source of a resynchronisation has gone (R63, R64): another Voting lane takes its place and the copy starts again,
or the attempt has failed. -/
def State.sourceGone (s : State) (l : Nat) : State × List Follow :=
  if s.on VX_RSYNC_ACTIVE && s.g VX_RSYNC_SOURCE == l then
    match s.copySource.orElse (fun _ => s.votingLanes.head?) with
    | some v =>
      let s := (s.p VX_RSYNC_SOURCE v).p VX_RSYNC_ROUND 1
      let s := s.p VX_RSYNCLEFT_KIB (4 * s.copyPages v)
      (s.modLane v (fun x => { x with pages := [] }), [])
    | none => s.failAttempt (s.g VX_RSYNC_JOINER)
  else (s, [])

/-- The spare counts from here in the votes of an excluded lane if its last submission agreed (R67). -/
def State.spareCounts (s : State) : State :=
  match [0, 1, 2, 3].find? (fun l => s.laneSt l == laSpare && (s.lane l).lastAgreed) with
  | some d => s.modLane d (fun x => { x with countsNow := true })
  | none => s

/-- A lane leaves Voting or Spare (R60): its channel closes, its submissions and commands are dropped, it is reset; `dest` is
Resetting or Out. -/
def State.dropLane (s : State) (l dest : Nat) : State × List Follow :=
  let wasVoting := s.laneSt l == laVoting
  let s := s.closeChan l
  let s := { s with votes := s.votes.map (fun (v : CycVote) => { v with subs := v.subs.filter (fun e => e.1.val != l) })
                    streams := s.streams.map (fun (v : StreamVote) => { v with posts := v.posts.filter (fun e => e.1.val != l) }) }
  let s := (s.setLaneSt l dest).wipeLane l true
  let s := if wasVoting then s.spareCounts else s
  let (s, fs) := s.sourceGone l
  let few := wasVoting && s.votingLanes.length < 2
  (s, fs ++ (if few then [Follow.mk 3 0x10 0x300] else []))

/-- The exclusion of a lane without its class 1 report: registers, counts, then R60. `third` is the third exclusion within
3,600 s of operating time, or an exclusion escalated to class 2: the lane goes Out (R61, R409). -/
def State.exclude (s : State) (e : Excl) (out : Bool) : State × List Follow :=
  let l := e.lane
  if s.laneSt l != laVoting && s.laneSt l != laSpare then (s, [])
  else
    let times := ((s.lane l).exclTimes.filter (fun t => s.opms < t + 3600000)) ++ [s.opms]
    let s := s.modLane l (fun x => { x with exclTimes := times })
    let s := s.p (VX_EXCL_HOUR l) times.length
    let s := s.satAdd (VX_EXCL_TOTAL l) 1
    let s := ((s.p VX_MINORITY_LANE l).p VX_MINORITY_TASK e.task).p VX_MINORITY_CAUSE e.cause
    let s := ((s.pb VX_MINORITY_DIGEST e.digest).pb VX_MINORITY_DELTA e.delta).p VX_MINORITY_WORD e.word
    let s := (s.p VX_MINORITY_VALID 1).p VX_MINCYC_CYCLE e.cycle
    let third := times.length ≥ 3
    let (s, fs) := s.dropLane l (if third || out then laOut else laResetting)
    (s, (if third && 8 ≤ e.cause then [⟨2, 0x10, 0x200 + 16 * l + e.cause⟩] else []) ++ fs)

/-- `HOUR` counts the exclusions of the last 3,600 s (R72). -/
def State.exclHour (s : State) (l : Nat) : State :=
  let times := (s.lane l).exclTimes.filter (fun t => s.opms < t + 3600000)
  if times.length == (s.lane l).exclTimes.length then s else (s.modLane l (fun x => { x with exclTimes := times })).p (VX_EXCL_HOUR l) times.length

/-- Would this exclusion be the lane's third within 3,600 s (R61)? -/
def State.thirdExclusion (s : State) (l : Nat) : Bool :=
  ((s.lane l).exclTimes.filter (fun t => s.opms < t + 3600000)).length ≥ 2

/-! ### Forces and the stop of the application -/

/-- A task's state. -/
def State.task (s : State) (t : Nat) : TaskSt := tabGet (fun _ => {}) s.app.tasks t

/-- A task's state changed. -/
def State.modTask (s : State) (t : Nat) (f : TaskSt → TaskSt) : State :=
  { s with app := { s.app with tasks := tabSet (fun _ => {}) s.app.tasks t (f (s.task t)) } }

/-- The words of the input image region that hold a symbol, if it is an input. -/
def State.inputWords (s : State) (id : Nat) : List Nat :=
  match s.app.pkg.symbols.find? (fun y => y.id == id && y.input) with
  | some y => (List.range ((y.off + y.len + 7) / 8 - y.off / 8)).map (fun i => y.off / 8 + i)
  | none => []

/-- Every task marks the words of a symbol changed in its next image, since a force on it is set or removed (R119). -/
def State.markForce (s : State) (id : Nat) : State :=
  (List.range 16).foldl (fun s t => s.modTask t (fun x => { x with forceMark := s.inputWords id ++ x.forceMark })) s

/-- The words of the input image region that hold a forced input. -/
def State.forcedWords (s : State) : List Nat := s.app.forces.flatMap (fun f => s.inputWords f.id)

/-- `VALID` of the prediction entries in every lane: 0 while a symbol of the word is forced (R130). -/
def State.predValid (s : State) : State :=
  let ws := s.forcedWords
  (s.app.pkg.preds.zipIdx).foldl (fun s e =>
    [0, 1, 2, 3].foldl (fun (s : State) l => s.pb (RA_PTAB_VALID l e.2) (!ws.contains e.1.word)) s) s

/-- The output bytes of a force that ends return to their real value at the owner's next commit (R121). [DEDUCED: log 81] -/
def State.unforce (s : State) (f : Force) : State :=
  match s.app.pkg.symbols.find? (fun y => y.id == f.id && y.output) with
  | some y => s.modTask y.t.val (fun x => { x with unforced := (y.off, y.len) :: x.unforced })
  | none => s

/-- Forces removed for a cause, each with its event record (R120, R121, R497). -/
def State.removeForces (s : State) (fs : List Force) (cause : Nat) : State :=
  let s := fs.foldl (fun (s : State) f => (s.markForce f.id).unforce f) s
  let s := fs.foldl (fun s f => s.recordEv { source := 0x0203, code := 3, cls := 0xFF, data := leBytes 4 f.id ++ leBytes 1 cause }) s
  ({ s with app := { s.app with forces := s.app.forces.filter (fun f => !(fs.contains f)) } } : State).predValid

/-- A start that waits for Running is answered `STATE_REJECT` when the application is ended before it (R475). -/
def State.endStart (s : State) : State :=
  if s.app.startChans.isEmpty then s
  else
    let s' := s.respond (s.app.startChans.map (·.val)) s.app.startHdr [] stStateReject []
    { s' with app := { s'.app with startChans := [], startHdr := [] } }

/-! ### Retained memory (R155 to R158) -/

/-- The cycle, the byte offset and the value that the voted bytes of a retained store say. -/
def retOf (bs : List Byte) : Nat × Nat × Nat := (leAt bs 0 8, leAt bs 8 4, leAt bs 12 8)

/-- Are two votes the same one? -/
def StreamVote.same (v w : StreamVote) : Bool := v.kind == w.kind && v.st == w.st && v.place == w.place

/-- A vote ended. [DESIGN CHOICE: log 32] -/
def State.endStream (s : State) (v : StreamVote) : State := { s with streams := s.streams.filter (fun w => !w.same v) }

/-- The vote of a cycle. -/
def State.cycVote (s : State) (t : Task) (cycle : Nat) : Option CycVote := s.votes.find? (fun v => v.t == t && v.cycle == cycle)

/-- The votes of a retained stream. -/
def State.retVotes (s : State) (st : RetStream) : List StreamVote := s.streams.filter (fun v => v.kind == .retained && v.st == st)

/-- The cycle a vote belongs to. -/
def StreamVote.cycle (v : StreamVote) : Nat := ((v.posts.head?.map (fun e => (retOf e.2).1)).getD 0)

/-- Has every Voting and Spare lane ended a cycle of a retained stream: submitted it or a later one, or reported its initialisation complete?
[DEDUCED: log 63] -/
def State.retEnded (s : State) (st : RetStream) (cycle : Nat) : Bool :=
  match st with
  | .runtime => s.liveLanes.all (fun l => (s.lane l).inited)
  | .task t => s.votes.any (fun v => v.t == t && decide (cycle ≤ v.cycle) && s.liveLanes.all (fun l => (v.subs.map (·.1.val)).contains l))

/-- The votes to apply next: those of the least cycle that has ended with a majority on each (R156). [DEDUCED: log 63] -/
def State.retDue (s : State) (st : RetStream) : List StreamVote :=
  let vs := s.retVotes st
  let cycles := sortBy (fun a b => decide (a ≤ b)) (vs.map StreamVote.cycle)
  match cycles.find? (fun k => (vs.filter (fun v => v.cycle == k)).all (fun v => v.won.isSome) && s.retEnded st k) with
  | some k => sortBy (fun (v w : StreamVote) => decide (v.place ≤ w.place)) (vs.filter (fun v => v.cycle == k))
  | none => []

/-- The CRC-32 of 4,096 zero bytes. -/
def zeroPageCrc : Nat := 0xC71C0011

/-- The check value of a page of retained memory as it is now (R158). -/
def pageCrc (m : Mem) (p : Nat) : Nat := if m.any (fun e => e.1 / 4096 == p) then crc32 (m.rdN (4096 * p) 4096) else zeroPageCrc

/-- The pages that some memory lists. -/
def pagesOf (m : Mem) : List Nat := (m.map (fun e => e.1 / 4096)).eraseDups

/-- The check values of a whole memory. -/
def crcTable (m : Mem) : Tab Nat := (pagesOf m).foldl (fun (c : Tab Nat) p => tabSet (fun _ => zeroPageCrc) c p (pageCrc m p)) []

/-- The check of retained memory (R158): every page matches its check value. -/
def AppSt.retOk (x : AppSt) : Bool :=
  (pagesOf x.retMem ++ x.retCrc.map (·.1)).all (fun p => tabGet (fun _ => zeroPageCrc) x.retCrc p == pageCrc x.retMem p)

/-- Voted stores written to MRAM as one transaction; the check values of their pages follow it (R156, R158). [DEDUCED: log 63] -/
def State.retWrite (s : State) (vs : List StreamVote) : State :=
  let xs := vs.filterMap (fun v => v.won.map retOf)
  let m := xs.foldl (fun (m : Mem) x => m.wrL x.2.1 (leBytes 8 x.2.2)) s.app.retMem
  let c := ((xs.map (fun x => x.2.1 / 4096)).eraseDups).foldl (fun (c : Tab Nat) p => tabSet (fun _ => zeroPageCrc) c p (pageCrc m p)) s.app.retCrc
  { s with app := { s.app with retMem := m, retCrc := c } }

/-- `MM_RETAIN.PEND` follows the buffer (R157). -/
def State.retPend (s : State) (l : Nat) : State := s.p (MM_RETAIN_PEND l) (s.lane l).rbuf.length

/-- The entries of applied stores leave the lanes' buffers (R157). -/
def State.retRetire (s : State) (st : RetStream) (cycle : Nat) : State :=
  [0, 1, 2, 3].foldl (fun (s : State) (l : Nat) =>
    (s.modLane l (fun x => { x with rbuf := x.rbuf.filter (fun e => !(e.st == st && e.cycle == cycle)) })).retPend l) s

/-- The stores of one cycle of a stream written as one transaction, if one is due (R156). [DEDUCED: log 63] -/
def State.retApply (s : State) (st : RetStream) : State :=
  match s.retDue st with
  | [] => s
  | v :: vs => (v :: vs).foldl State.endStream ((s.retWrite (v :: vs)).retRetire st v.cycle)

/-- Every transaction of a stream that is due. -/
def State.retApplyN (st : RetStream) : Nat → State → State
  | 0, s => s
  | n + 1, s => State.retApplyN st n (s.retApply st)

/-- Every store that is due reaches MRAM. -/
def State.retFlush (s : State) : State :=
  ((List.range 16).map (fun t => RetStream.task (Fin.ofNat 16 t)) ++ [RetStream.runtime]).foldl (fun (s : State) st => State.retApplyN st s.streams.length s) s

/-- A speculation context closes: its log, read set, predicted words, queued writes and held exception are gone. -/
def State.closeCtx (s : State) (l t : Nat) : State :=
  let s := s.modLane l (fun x => { x with spec := tabSet (fun _ => {}) x.spec t {} })
  let s := (((s.p (RA_CTX_STATE l t) 0).p (RA_CTX_CONF l t) 0).p (RA_CTX_VOTED l t) 0).p (RA_CTX_HELD l t) 0
  let s := (s.p (RA_CTX_OVF l t) 0).p (RA_CTX_USED l t) 0
  s.p (RA_DQ_USED l) ((s.lane l).spec.foldl (fun n e => n + e.2.dq.length) 0)

/-- An open context discarded (R138, R141). -/
def State.discardCtx (s : State) (l t : Nat) : State :=
  if s.g (RA_CTX_STATE l t) == 0 then s else ((s.closeCtx l t).p (RA_CTX_CAUSE l t) 6).inc (RA_ROLL_COUNT l t)

/-- The run-ahead contexts of a lane discarded. -/
def State.dropLaneCtx (s : State) (l : Nat) : State := (List.range 16).foldl (fun (s : State) t => s.discardCtx l t) s

/-- The run-ahead contexts of every lane discarded (R138). -/
def State.dropContexts (s : State) : State := [0, 1, 2, 3].foldl State.dropLaneCtx s

/-- Votes, streams and lane phases end with the application; what is due of the retained stores is applied first (R156). -/
def State.clearRun (s : State) : State :=
  let s := s.retFlush
  let s := { s with votes := [], streams := [] }
  [0, 1, 2, 3].foldl (fun s l => s.modLane l (fun x => { x with task := [], rbuf := [], refused := [], waitOps := [], rackWait := [], dmaWait := [], runtimePos := 0, runtimeWords := [], inited := false })) s

end Sys2Proof.Machine
end

