-- ==== Sys2Proof/Machine/Reset.lean ====
section
/-! DEFINITION. Resets of the whole module (R424): what a reset clears and what MRAM, flash and the standby domain keep;
changes of mode and their records (R419, R420); rings taken out. -/

namespace Sys2Proof.Machine

/-! ### Modes -/

/-- A mode change (R420, R497): forces are removed before Maintenance is left (R121), a waiting command that has not begun
to act ends (R450), as a commanded test does (R529), the change is recorded and posted. `row` is the row of R420, 0x1F for R398. -/
def State.setMode (s : State) (m row : Nat) : State :=
  let old := s.mode
  let s := if old == mMaintenance then s.removeForces s.app.forces 1 else s
  let s := ((s.p LC_MODE_MODE m).p LC_MODE_PREV old).p LC_MODE_ROW row
  let s := s.levels.chanGates
  let s := s.abortWaiting.endLoop
  s.event 1 { source := 0x0201, code := m * 256 + old, cls := 0xFF, data := leBytes 1 row ++ leBytes 1 (s.g LC_MODE_LEVEL) }

/-! ### Rings taken out -/

/-- A ring controller goes Off (R405): it sends nothing, closes nothing, and stays so until the next reset. [DEDUCED: log 66] -/
def State.ringOff (s : State) (r : Nat) : State :=
  let s := s.modRing r (fun x => { x with off := true, transmitting := false, cold := false, rank0Act := false, dd := none, ownDs := [] })
  let s := ((s.p (BZ_STAT_STATE r) 0).p (BZ_STAT_CLOSING r) 0).p (BZ_CLOSE_NS r) 0
  ((s.p (BZ_JOIN_PHASE r) 0).p (BZ_JOIN_MARKS r) 0).p (BZ_SYNCSTAT_PRESENT r) 0

/-- `BZ_CTRL.EN` written to 0 (R229, R206): transmission stops at once; forwarding goes on. -/
def State.disableRing (s : State) (r : Nat) : State :=
  let s := s.p (BZ_CTRL_EN r) 0
  let s := s.modRing r (fun x => { x with transmitting := false, cold := false, rank0Act := false, dd := none, ownDs := [] })
  let s := ((s.p (BZ_STAT_STATE r) 0).p (BZ_STAT_CLOSING r) 0).p (BZ_CLOSE_NS r) 0
  let s := ((s.p (BZ_JOIN_PHASE r) 0).p (BZ_JOIN_MARKS r) 0).p (BZ_SYNCSTAT_PRESENT r) 0
  (s.p (BZ_SYNCSTAT_SETTLED r) 0).p (BZ_SYNCSTAT_SYNCTX r) 0

/-! ### Reset -/

/-- The registers that a reset keeps whole: update state, factory and tag areas, power cycles, operating time, the next
start's kind, the cause of the last Halt, the history pointer, what the recorder holds, port calibration, the seal.
[DESIGN CHOICE: log 6] -/
def keepAddr (a : Nat) : Bool :=
  (a / 0x10000 == 0x4007 && a != 0x40070018) || (0x40090100 ≤ a && a < 0x40090300) || a == 0x4009000C || a == 0x40090010 || a == 0x40090014 ||
  a == 0x4009001C || a == 0x40050010 || a == 0x4005003C || (0x40060004 ≤ a && a ≤ 0x40060014) ||
  (0x50000040 ≤ a && a < 0x50000068) || a == 0x40020004 || a == 0x40020008

/-- The single fields that a reset keeps in registers it otherwise resets. [DESIGN CHOICE: log 6] -/
def keepFlds : List Fld :=
  [FC_STAT_HALT, FC_STAT_FROZEN, EV_STAT_FULL, EV_STAT_CLRPEND, LC_STATE_LCS, LC_STATE_WIPEPEND] ++
  [1, 2, 3, 4, 5, 6].flatMap (fun n => [AN_STAT_JLO n, AN_STAT_JHI n, AN_STAT_ALEFF n, AN_STAT_JMPERR n])

/-- The fields that hardware loads at reset for the variant (R63, R68, R71, R72, R432). [DESIGN CHOICE: log 3, 6] -/
def hwLoad (v : Variant) (r : Regs) : Regs :=
  let d := match v with
    | .zm60 => laAbsent
    | .zm80 => laResetting
  let r := ((r.p VX_LANES_STA laResetting).p VX_LANES_STB laResetting).p VX_LANES_STC laResetting
  let r := (r.p VX_LANES_STD d).p VX_CTRL_SPAREEN (match v with | .zm60 => 0 | .zm80 => 1)
  let r := [0, 1, 2, 3].foldl (fun (r : Regs) l => (r.p (VX_LSTAT_LANE l) l).p (VX_LSTAT_STATE l) (if l == 3 then d else laResetting)) r
  r.p LC_STATE_DBGPERM (if r.g LC_STATE_LCS == 0 then 1 else 0)

/-- The register file after a reset. [DESIGN CHOICE: log 6] -/
def resetRegs (v : Variant) (old : Regs) : Regs :=
  let r : Regs := old.filter (fun e => keepAddr e.1)
  let r := keepFlds.foldl (fun (r : Regs) f => r.p f (old.g f)) r
  hwLoad v r

/-- The seal state while no read has been valid (R315): Tampered or Unaccepted. [DESIGN CHOICE: log 45] -/
def State.sealAtReset (s : State) : State :=
  let s := { s with sf := { s.sf with validAt := s.tu.upNs } }
  s.p SF_SEAL_STATE (if s.sf.tamper then 2 else 1)

/-- A ring controller that its guardian stopped for the third time stays Off until a power cycle (R254); class 2 of any other
kind ends at the reset (R402). [DEDUCED: log 66] -/
def offStays (x : RingSt) (cause : Nat) : Bool := x.off && cause != 0 && decide (3 ≤ x.violTimes.length)

/-- Every die but the standby domain as a reset leaves it (R424): MRAM, flash and the standby domain are kept; Boot is the mode. -/
def State.clearDies (s : State) (cause : Nat) : State :=
  let app : AppSt := { stored := s.app.stored, changes := s.app.changes, stagedA := s.app.stagedA, stagedLenA := s.app.stagedLenA
                       stagedB := s.app.stagedB, stagedLenB := s.app.stagedLenB, stagedC := s.app.stagedC
                       stagedLenC := s.app.stagedLenC, retMem := s.app.retMem, retSig := s.app.retSig, retCrc := s.app.retCrc }
  { s with
    regs := resetRegs s.variant s.regs, busErr := false, fc := { hist := s.fc.hist }
    sess := { fails := s.sess.fails, refusing := s.sess.refusing, refuseSec := s.sess.refuseSec }
    mb := [], waiting := none, queued := [], streams := [], votes := [], laneA := resetLaneSt, laneB := resetLaneSt, laneC := resetLaneSt
    laneD := resetLaneSt, links := [], app := app, tu := {}, ring1 := { off := offStays s.ring1 cause }, ring2 := { off := offStays s.ring2 cause }
    parts := [], backlog := [], transit := [], netOut := [], netUsed := [], eth := {}, rb := {}, fd := {}, an := []
    sf := { accepted := s.sf.accepted, accHash := s.sf.accHash, openChecks := s.sf.openChecks, tamper := s.sf.tamper
            tamperSec := s.sf.tamperSec }
    sc := {}, up := { s.up with part := none }, un := {}, dbg := { probe := s.dbg.probe }
    sb := { s.sb with provisional := if s.sb.rtcWritten then some s.sb.rtc else none, rtcAt := if cause == 0 then none else s.sb.rtcAt } }

/-- A reset of the module (R424) with its cause; a build that it cuts short begins again (R516). -/
def State.resetDies (s : State) (cause chan : Nat) : State :=
  let s := s.clearDies cause
  let s := if s.g UP_STAT_PHASE == 3 then s.p UP_STAT_PHASE 2 else s
  ((s.p LC_RSTCAUSE_CAUSE cause).p LC_RSTCAUSE_CHAN chan).sealAtReset

/-- A module reset (R424, R425): the forces are removed (R121), the change to Boot and the reset are recorded. `cause` and
`chan` are the fields of `LC_RSTCAUSE`, `row` the row of R420. [DEDUCED: log 37] -/
def State.moduleReset (s : State) (cause chan row : Nat) : State :=
  let s := s.removeForces s.app.forces 3
  let s := s.event 1 { source := 0x0201, code := mBoot * 256 + s.mode, cls := 0xFF, data := leBytes 1 row }
  let s := s.resetDies cause chan
  s.recordEv { source := 0x0205, code := 2, cls := 0xFF, data := leBytes 1 cause }

/-! ### The update's bank state, as the faults change it (R518, R521, R522) -/

/-- An update event (R523): recorded and posted under category 6. -/
def State.upEvent (s : State) (code : Nat) (data : List Byte) : State :=
  s.event 6 { source := 0x0206, code := code, cls := 0xFF, data := data }

/-- The chunk store, the bitmap and the manifest discarded. -/
def State.upDiscard (s : State) : State :=
  let s := { s with up := { s.up with manifest := [], store := [], part := none, tableOk := false } }
  let s := (List.range 130).foldl (fun s k => s.p (UP_BITMAP_BITS k) 0) s
  (s.p UP_CHUNKS_DONE 0).p UP_CHUNKS_TOTAL 0

/-- The bank state after a fallback (R521, R522): the other bank with its own settings, the failed one unbuilt. -/
def State.bankBack (s : State) (reason : Nat) : State :=
  let s := ((s.p UP_STAT_ACTBANK (1 - s.g UP_STAT_ACTBANK)).p UP_STAT_TRIAL 0).p UP_STAT_TRIES 0
  let s := (s.p UP_STAT_BUILT 0).p UP_STAT_PHASE 6
  let s := (s.p UP_FALLBACK_REASON reason).satAdd UP_FALLBACK_COUNT 1
  let s := { s with up := { s.up with store := [], part := none, tableOk := false, orig := none }
                    cfg := s.up.orig.getD s.cfg }
  let s := (List.range 130).foldl (fun s k => s.p (UP_BITMAP_BITS k) 0) s
  s.p UP_CHUNKS_DONE 0

/-- A trial ends in fallback, which is recorded (R521 to R523). [DEDUCED: log 37] -/
def State.upFallback (s : State) (reason : Nat) : State :=
  (s.bankBack reason).upEvent 9 (leBytes 1 reason ++ leBytes 4 (s.g UP_VERSION_VERSION))

end Sys2Proof.Machine
end

