-- ==== Sys2Proof/Machine/React.lean ====
section
/-! DEFINITION. The fault collector: how a report is classified, folded or escalated (R409), what it leaves in the history
(R411, R412), the reactions of the classes (R402, R405, R408, R415), acknowledgement (R410). -/

namespace Sys2Proof.Machine

/-! ### Sources (R404) -/

/-- The classes a source can raise. -/
def srcClasses (src : Nat) : List Nat :=
  if src ≤ 0x03 then [1]
  else if src ≤ 0x0B then [0, 1]
  else if src ≤ 0x0F then [1]
  else if src == 0x10 then [0, 1, 2, 3]
  else if src ≤ 0x13 then [3]
  else if src ≤ 0x17 then [0, 3]
  else if src ≤ 0x19 then [0, 2]
  else if src == 0x1A then [0]
  else if src == 0x1B then [3]
  else if src ≤ 0x22 then [0]
  else if src == 0x23 then [0, 3]
  else if src ≤ 0x27 then [0]
  else if src == 0x28 then [0, 3]
  else if src == 0x29 then [4]
  else if src == 0x2A then [3, 4]
  else []

/-- The highest class a source can raise. -/
def srcHighest (src : Nat) : Nat := (srcClasses src).foldl max 0

/-- The element a report names (R404, R409). -/
inductive Elem where
  | lane (l : Nat)
  | ring (r : Nat)
  | module
  deriving DecidableEq, Repr

/-- The element of a report of class `c`. A report of source 0x10 whose code names no lane names the module. [DEDUCED: log 87, 88] -/
def elemOf (src code c : Nat) : Elem :=
  if src ≤ 0x0F then .lane (src % 4)
  else if src == 0x10 && (c == 1 || c == 2) && code < 0xFFFE then .lane (code / 16 % 4)
  else if src == 0x18 || src == 0x19 then .ring (src - 0x18)
  else if 0x24 ≤ src && src ≤ 0x27 then .lane (src - 0x24)
  else .module

/-- A report as the collector takes it: class, source, code, data (none where the spec does not give them); why a lane of source 0x10 is excluded; forced (R413);
for a path failure. -/
structure Rep where
  cls : Nat
  src : Nat
  code : Nat
  data : Option (List Byte) := none
  ex : Option Excl := none
  forced : Bool := false
  path : Bool := false
  deriving DecidableEq, Repr

/-- A report that a reaction gives rise to. -/
def Follow.rep (f : Follow) : Rep := { cls := f.cls, src := f.src, code := f.code }

/-- A report whose judgement is made: the class assigned, whether it was escalated into it. -/
structure Taken where
  p : Rep
  c : Nat
  esc : Bool
  elem : Elem
  deriving DecidableEq, Repr

/-! ### What a report leaves behind -/

/-- The source's counters and status (R418). -/
def State.srcStatus (s : State) (p : Rep) (c : Nat) : State :=
  ((s.inc (FC_SCNT_COUNT p.src)).p (FC_SSTAT_LASTCLS p.src) c).p (FC_SSTAT_LASTCODE p.src) p.code

/-- A fault's event record (R498). -/
def Rep.ev (p : Rep) (c : Nat) (esc : Bool) : EvIn :=
  { source := 0x0100 + p.src, code := p.code, cls := c, forced := p.forced, esc := esc, data := p.data.getD [] }

/-- The history entry of a fault (R411, R412), `seq` its event record's number. [DEDUCED: log 85] -/
def State.history (s : State) (k : Taken) (seq : Nat) : State :=
  if s.on FC_STAT_FROZEN then
    { s.satAdd FC_HLOST_COUNT 1 with fc := { s.fc with
      firstEnt := if k.p.forced then s.fc.firstEnt else tabSet (fun _ => none) s.fc.firstEnt k.c none } }
  else
    let h := s.g FC_HPTR_HEAD
    let freeze := !k.p.forced && 3 ≤ k.c
    let flags := (if k.esc then 1 else 0) + (if k.p.forced then 2 else 0) + (if k.p.path then 4 else 0) +
      (if s.sync then 8 else 0) + (if freeze then 16 else 0) +
      (if k.p.src == 0x10 && (match k.elem with | .lane _ => true | _ => false) then 32 else 0)
    let e : HistEnt := {
      opms := s.opms, ns := if s.sync then s.g TU_NS_NS else 0, era := if s.sync then s.g TU_ERA_ERA else 0
      pwrcyc := s.g LC_PWRCYC_COUNT, source := 0x0100 + k.p.src, code := k.p.code, cls := k.c, flags := flags
      orig := k.p.cls, rep := 0, evseq := seq, data := padTo 16 (k.p.data.getD []) }
    let s := { s with fc := { s.fc with
      hist := tabSet (fun _ => {}) s.fc.hist h e
      firstEnt := if k.p.forced then s.fc.firstEnt else tabSet (fun _ => none) s.fc.firstEnt k.c (some h) } }
    let s := s.p FC_HPTR_HEAD ((h + 1) % 32)
    if freeze then (s.p FC_STAT_FROZEN 1).p FC_HPTR_FREEZE h else s

/-- The 48 bytes of a history entry (R411). -/
def HistEnt.bytes (e : HistEnt) : List Byte :=
  leBytes 8 e.opms ++ leBytes 4 e.ns ++ leBytes 4 e.era ++ leBytes 4 e.pwrcyc ++ leBytes 2 e.source ++ leBytes 2 e.code ++
  leBytes 1 e.cls ++ leBytes 1 e.flags ++ leBytes 1 e.orig ++ leBytes 1 e.rep ++ leBytes 4 e.evseq ++ padTo 16 e.data

/-- The `FC_FIRSTc` register of the first fault of a class. -/
def State.setFirst (s : State) (k : Taken) : State :=
  let s := (s.p (FC_FIRST_SRC k.c) k.p.src).p (FC_FIRST_CODE k.c) k.p.code
  (s.pb (FC_FIRST_ESC k.c) k.esc).p (FC_FIRST_LANE k.c) (match k.elem with
    | .lane l => if k.p.src == 0x10 then l else 0
    | _ => 0)

/-- `PENDc`. -/
def pendFld : Nat → Fld
  | 1 => FC_STAT_PEND1
  | 2 => FC_STAT_PEND2
  | _ => FC_STAT_PEND3

/-- The element that `FC_FIRSTc` names. -/
def State.firstElem (s : State) (c : Nat) : Elem :=
  let orig := if s.on (FC_FIRST_ESC c) then c - 1 else c
  elemOf (s.g (FC_FIRST_SRC c)) (s.g (FC_FIRST_CODE c)) orig

/-- A fold into the first fault of its class (R409 row 4): counted in its history entry. [DEDUCED: log 59] -/
def State.foldFirst (s : State) (c : Nat) : State :=
  match tabGet (fun _ => none) s.fc.firstEnt c with
  | none => s
  | some h =>
    let e := tabGet (fun _ => {}) s.fc.hist h
    { s with fc := { s.fc with hist := tabSet (fun _ => {}) s.fc.hist h { e with rep := min 255 (e.rep + 1) } } }

/-! ### Reactions -/

/-- The exclusion cause of a lane's own sources (R59). [DEDUCED: log 87] -/
def laneCause (src : Nat) : Nat :=
  if src ≤ 0x03 then 0x8 else if src ≤ 0x07 then 0xB else if src ≤ 0x0B then 0xA else 0x9

/-- A lane that is not in service is reset again (R402): it keeps its place in the start of the module or the resynchronisation
it was in. A lane that is Out or Absent stays. [DEDUCED: log 69] -/
def State.resetLane (s : State) (l dest : Nat) : State :=
  if s.laneSt l == laOut || s.laneSt l == laAbsent then s
  else
    let s := if s.on VX_RSYNC_ACTIVE && s.g VX_RSYNC_JOINER == l then (s.p VX_RSYNC_ACTIVE 0).p VX_RSYNCLEFT_KIB 0 else s
    (s.setLaneSt l dest).wipeLane l (s.lane l).afterExcl

/-- Class 1 (R402): the lane is excluded (R60). [DEDUCED: log 69] -/
def State.react1 (s : State) (k : Taken) : State × List Follow :=
  match k.elem with
  | .lane l =>
    if s.laneSt l == laVoting || s.laneSt l == laSpare then
      s.exclude (k.p.ex.getD { lane := l, cause := laneCause k.p.src }) false
    else (s.resetLane l laResetting, [])
  | _ => (s, [])

/-- The Light records in the closure delay are zeroed, their flag cleared and the check word recomputed (R384). -/
def zeroLightFrame (raw : List Byte) : List Byte :=
  match parseFrame raw with
  | some f => if bit f.flags 2 then { f with flags := f.flags - 4, body := padTo (f.len - 16) f.body ++ padTo 16 [] }.bytes else raw
  | none => raw

/-- What leaving Active does beside the mode (R384, R401): no lease, no act time ahead, no renewal, no Light record left in the closure
delay. -/
def State.leaveLight (s : State) : State :=
  { s.p UN_LEASE_NS 0 with un := { s.un with
    lease := none, actAt := none, noRenewal := false, leaveTo := none
    light1 := s.un.light1.map zeroLightFrame, light2 := s.un.light2.map zeroLightFrame } }

/-- A class 3 during a trial, in any mode, ends it in fallback (R522). -/
def State.trialFault (s : State) : State :=
  if s.on UP_STAT_TRIAL then (s.upFallback 4).moduleReset 4 0 4 else s

/-- The module isolates itself by row 11 of R420 (R402, R403): an update in progress is abandoned. -/
def State.isolate (s : State) : State :=
  let s := (s.gateFault).leaveLight
  let m := s.mode
  let s := { s with fc := { s.fc with class3 := true, parkedClass3 := s.fc.parkedClass3 || m == mParked }, un := { s.un with barred1 := true, isoUnit := s.un.isoUnit && m == mIsolated } }
  if m == mSynchronising || m == mActive || m == mHotStandby || m == mMaintenance || m == mUpdate then
    let s := if s.g UP_STAT_PHASE == 3 then (s.p UP_STAT_PHASE 2).upEvent 0x000C (leBytes 1 3) else s
    ((s.setMode mIsolated 11).p LC_MODE_FISO 1).trialFault
  else s.trialFault

/-- Has the application a station on a ring (R405)? -/
def State.ringInUse (s : State) (r : Nat) : Bool :=
  s.app.pkg.stations.any (fun x => match x.src with
    | .ringNode r' _ => r' == r
    | .ringMaster r' => r' == r
    | _ => false)

/-- Class 2 (R405): the element is taken out. [DEDUCED: log 69] -/
def State.react2 (s : State) (k : Taken) : State × List Follow :=
  let s := s.p (FC_SSTAT_OUT k.p.src) 1
  match k.elem with
  | .lane l =>
    if s.laneSt l == laVoting || s.laneSt l == laSpare then
      s.exclude (k.p.ex.getD { lane := l, cause := if k.p.src ≤ 0x0F then laneCause k.p.src else k.p.code % 16 }) true
    else (s.resetLane l laOut, [])
  | .ring r =>
    let s := s.ringOff r
    (s, if s.holdsLight && s.ringInUse r then [⟨3, 0x16, 3 + r⟩] else [])
  | .module =>
    if srcHighest k.p.src ≥ 3 then
      if s.mode == mActive then (({ s with un := { s.un with barred := true } } : State).isolate, [])
      else ({ s with un := { s.un with barred := true } }, [])
    else (s, [])

/-- The application is gone until the next reset: what flash and MRAM hold is kept. [DEDUCED: log 52] -/
def State.appUnload (s : State) : State :=
  let s := (s.removeForces s.app.forces 2).endStart
  let s := (s.dropContexts.clearRun.scOff.drivesDisable)
  { s with app := { stored := s.app.stored, changes := s.app.changes, stagedA := s.app.stagedA, stagedLenA := s.app.stagedLenA
                    stagedB := s.app.stagedB, stagedLenB := s.app.stagedLenB, stagedC := s.app.stagedC
                    stagedLenC := s.app.stagedLenC, retMem := s.app.retMem, retSig := s.app.retSig, retCrc := s.app.retCrc } }

/-- A lane is held in reset (R408, R415). [DEDUCED: log 52] -/
def State.holdLane (s : State) (l : Nat) : State :=
  if s.laneSt l == laAbsent then s
  else ((s.setLaneSt l laResetting).wipeLane l (s.lane l).afterExcl).modLane l (fun x => { x with held := true })

/-- Safe-Halt (R408, R415): every lane held in reset, the lane and partner channels closed. [DEDUCED: log 52] -/
def State.enterSafeHalt (s : State) (row : Nat) : State :=
  let s := (s.p FC_STAT_HALT 1).leaveLight
  let s := (s.setMode mSafeHalt row).appUnload
  let s := [0, 1, 2, 3].foldl State.holdLane s
  [0, 1, 2, 3, 5].foldl State.closeChan s

/-- Class 4 (R408, R415). -/
def State.react4 (s : State) : State := s.gateFault.enterSafeHalt 1

/-- Class 3. A report that names a lane and is escalated into class 3 takes the lane Out first: the exclusion and its count do not
depend on the class assigned (R60, R61, R409). -/
def State.react3 (s : State) (k : Taken) : State × List Follow :=
  match k.esc, k.elem with
  | true, .lane _ =>
    let x := s.react2 k
    (x.1.isolate, x.2)
  | _, _ => (s.isolate, [])

/-- The reaction of an assigned class. -/
def State.react (s : State) (k : Taken) : State × List Follow :=
  match k.c with
  | 1 => s.react1 k
  | 2 => s.react2 k
  | 3 => s.react3 k
  | _ => (s.react4, [])

/-! ### Taking a report -/

/-- A class 4 fault is always written to `FC_HALTSRC` (R412). -/
def State.haltSrc (s : State) (k : Taken) : State :=
  let s := (s.p FC_HALTSRC_SRC k.p.src).p FC_HALTSRC_CODE k.p.code
  (s.pb FC_HALTSRC_ESC k.esc).p FC_HALTSRC_LANE (match k.elem with
    | .lane l => if k.p.src == 0x10 then l else 0
    | _ => 0)

/-- A report taken with its class assigned: counters, event, history, `FC_FIRSTc`. [DEDUCED: log 59] -/
def State.book (s : State) (k : Taken) : State :=
  let s := (s.srcStatus k.p k.c).inc (FC_CNT_COUNT k.c)
  let s := if k.esc then s.inc FC_ESCCNT_COUNT else s
  let e := k.p.ev k.c k.esc
  let s := s.event 2 e
  let first := k.c < 4 && !s.on (pendFld k.c)
  let old := s.fc.firstEnt
  let s := s.history k (s.seqOf e)
  let s := if first then (s.p (pendFld k.c) 1).setFirst k else { s with fc := { s.fc with firstEnt := old } }
  if k.c == 4 then s.haltSrc k else s

/-- A forced report (R413): counters, status, history and event; no reaction but the gate lines' confirmation.
[DEDUCED: log 59; DESIGN CHOICE: log 28] -/
def State.forcedReport (s : State) (p : Rep) : State :=
  let s := s.srcStatus p p.cls
  let e := p.ev p.cls false
  let s := s.event (if p.cls == 0 then 3 else 2) e
  let s := if p.cls == 0 then s else s.history { p := p, c := p.cls, esc := false, elem := elemOf p.src p.code p.cls } (s.seqOf e)
  if 3 ≤ p.cls then s.p (FC_SSTAT_REACTOK p.src) 1 else s

/-- How R409 judges a report: `none` for a fold. -/
def State.judge (s : State) (p : Rep) : Option Taken :=
  let el := elemOf p.src p.code p.cls
  if p.cls ≥ 4 then some { p := p, c := 4, esc := false, elem := el }
  else if !s.on (pendFld p.cls) then some { p := p, c := p.cls, esc := false, elem := el }
  else if s.firstElem p.cls == el then none
  else some { p := p, c := p.cls + 1, esc := true, elem := el }

/-- The data of a report: a source's data of a class 1 to 4 fault are what the source sends, which the spec does not give, so
they are a free value (R404, R411). [DESIGN CHOICE: log 14] -/
def State.withData (s : State) (p : Rep) : State × Rep :=
  match p.data with
  | some _ => (s, p)
  | none => ({ s with free := s.free + 1 }, { p with data := some (padTo 16 (Config.reportData s.free)) })

/-- A report taken by the collector (R409), and one by one the reports its reaction gives rise to. The fuel bounds the chain:
each report can lead only to one of a higher class. -/
def State.reportN : Nat → State → Rep → State
  | 0, s, _ => s
  | n + 1, s, p =>
    let p' := s.withData p
    let s := p'.1
    let p := p'.2
    if p.forced then s.forcedReport p
    else if p.cls == 0 then s.noticeD p.src p.code (p.data.getD [])
    else match s.judge p with
    | none => ((s.srcStatus p p.cls).event 2 (p.ev p.cls false)).foldFirst p.cls
    | some k =>
      let x := (s.book k).react k
      x.2.foldl (fun s f => State.reportN n s f.rep) x.1

/-- A report of a source (R409). An unpowered module has none. -/
def State.take (s : State) (p : Rep) : State := if s.mode == mDormant then s else State.reportN 8 s p

/-- A report of a unit of the module itself. -/
def State.report (s : State) (src cls code : Nat) : State := s.take { cls := cls, src := src, code := code }

/-- Reports taken in order. -/
def State.reports (s : State) (fs : List Follow) : State := fs.foldl (fun s f => s.take f.rep) s

/-- A minority of a vote (R60, R61): class 1 of source 0x10, or class 2 in its place at the lane's third exclusion. -/
def State.minority (s : State) (e : Excl) : State :=
  if s.laneSt e.lane != laVoting && s.laneSt e.lane != laSpare then s
  else
    let third := s.thirdExclusion e.lane
    s.take { cls := if third then 2 else 1, src := 0x10, code := (if third then 0x200 else 0x100) + 16 * e.lane + e.cause
             ex := some e }

/-! ### Acknowledgement (R410) -/

/-- A lane is back in service: `PEND1` clears if it is the element of `FC_FIRST1`. -/
def State.backInService (s : State) (l : Nat) : State :=
  if s.on FC_STAT_PEND1 && s.firstElem 1 == .lane l then s.p FC_STAT_PEND1 0 else s

/-- `FAULT_ACK` (R410, R488): the classes of a mask. -/
def State.ackFaults (s : State) (mask : Nat) : State :=
  [1, 2, 3].foldl (fun s c => if bit mask c then s.p (pendFld c) 0 else s) s

end Sys2Proof.Machine
end

