-- ==== Sys2Proof/Machine/Links.lean ====
section
/-! DEFINITION. The die links (R21, R22) and the shadow time counters (R26 to R30). -/

namespace Sys2Proof.Machine

/-! ### Die links -/

/-- The number of a link: lanes A to D, network, field, Keeper compare. -/
def linkNo : DieLink → Nat
  | .lane l => l.val
  | .network => 4
  | .field => 5
  | .keeperCompare => 6

/-- A link's state. -/
def State.link (s : State) (k : Nat) : LinkSt := tabGet (fun _ => {}) s.links k

/-- A link's state set. -/
def State.setLink (s : State) (k : Nat) (x : LinkSt) : State := { s with links := tabSet (fun _ => {}) s.links k x }

/-- The report of a failed link (R22, R404). -/
def linkReport : DieLink → LinkCause → Option (Nat × Nat × Nat)
  | .lane l, .replays => some (0x0C + l.val, 1, 1)
  | .lane l, .training => some (0x0C + l.val, 1, 2)
  | .lane _, .comparator => none
  | .network, .comparator => none
  | .network, _ => some (0x11, 3, 1)
  | .field, .comparator => none
  | .field, _ => some (0x12, 3, 1)
  | .keeperCompare, .comparator => some (0x13, 3, 2)
  | .keeperCompare, _ => some (0x13, 3, 3)

/-- Is a die link down (R22)? -/
def State.linkDown (s : State) (k : Nat) : Bool := (s.link k).down

/-- The network link and the field link by their numbers. -/
abbrev lkNetwork : Nat := 4
abbrev lkField : Nat := 5

/-- Bytes cut into packets of at most 256 (R21); the fuel bounds their number. -/
def packets : Nat → List Byte → List (List Byte)
  | 0, _ => []
  | n + 1, bs => if bs.length ≤ 256 then [bs] else bs.take 256 :: packets n (bs.drop 256)

/-- One numbered packet with its check leaves on a link (R21). The check covers the body. [DESIGN CHOICE: log 105] -/
def State.sendPacket (s : State) (k : Nat) (body : List Byte) : State :=
  let x := s.link k
  (s.emit (.linkPacket k x.txSeq body (crc32 body))).setLink k { x with txSeq := x.txSeq + 1, lastTx := s.tu.upNs }

/-- A transfer over a link, unless the link is down (R20 to R22). -/
def State.linkSend (s : State) (k : Nat) (bs : List Byte) : State :=
  if s.linkDown k then s else (packets (bs.length + 1) bs).foldl (fun s p => s.sendPacket k p) s

/-- Does the module have a link (R20, R37)? -/
def State.hasLink (s : State) : DieLink → Bool
  | .lane l => s.laneSt l.val != laAbsent
  | .keeperCompare => s.variant == .zm80
  | _ => true

/-- A link fails (R21, R22). [DEDUCED: log 65] -/
def State.linkFails (s : State) (k : DieLink) (c : LinkCause) : State :=
  match linkReport k c with
  | some (src, cls, code) =>
    if s.hasLink k then (s.setLink (linkNo k) { s.link (linkNo k) with down := true }).report src cls code else s
  | none => s

/-- A link without traffic sends an idle packet, one for each microsecond of silence (R21). [DESIGN CHOICE: log 105] -/
def State.linkIdle (s : State) (k : DieLink) : State :=
  let n := linkNo k
  if s.hasLink k && !s.linkDown n && decide ((s.link n).lastTx + 1000 ≤ s.tu.upNs) then s.sendPacket n [] else s

/-- `LINK_FAILURE` (R22). -/
def execLinkFailure (k : DieLink) (c : LinkCause) (s : State) : Res := .next (s.linkFails k c)

/-- `LINK_PACKET_RECEIVE`: a packet of at most 256 bytes with its check and sequence number is accepted, any other discarded and
asked for again; the third replay that fails fails the link (R21). The check and the limit of 256 bytes are taken of the body alone.
[DEDUCED: log 65; DESIGN CHOICE: log 105] -/
def execLinkPacketReceive (k : DieLink) (seq : Nat) (body : List Byte) (crc : Word) (s : State) : Res :=
  let n := linkNo k
  let x := s.link n
  if x.down || !s.hasLink k then .next s
  else if seq == x.rxSeq && body.length ≤ 256 && crc32 body == crc.toNat then
    .next (s.setLink n { x with rxSeq := x.rxSeq + 1, replays := 0 })
  else
    let s := s.setLink n { x with replays := x.replays + 1 }
    if x.replays ≥ 3 then .next (s.linkFails k .replays) else .next (s.emit (.linkReplay n x.rxSeq))

/-! ### Shadow counters -/

/-- A time word (R27): ns, fraction, rate, step flag. -/
structure TimeWord where
  ns : Nat
  frac : Nat
  incdev : Int
  step : Bool
  deriving DecidableEq, Repr

/-- The parity of the low `n` bits of a number. -/
def parity (v : Nat) : Nat → Bool
  | 0 => false
  | n + 1 => (bit v n) ^^ parity v n

/-- The time word of 64 bits, none with a parity error or an `INCDEV` out of range (R27). -/
def timeWord (w : BitVec 64) : Option TimeWord :=
  let v : Nat := w.toNat
  let d : Nat := v / 2 ^ 48 % 2 ^ 14
  let dev : Int := if d < 8192 then (d : Int) else (d : Int) - 16384
  if parity v 64 || dev < -6711 || 6711 < dev then none
  else some { ns := v % 2 ^ 32, frac := v / 2 ^ 32 % 2 ^ 16, incdev := dev, step := bit v 62 }

/-- How far a loaded value lies ahead of the free-running one, in units of 2^−16 ns. -/
def shadowErr (c : Shadow) (w : TimeWord) : Int :=
  sint32 (u32 ((w.ns : Int) - (c.ns : Int))) * 2 ^ 16 + ((w.frac : Int) - (c.frac : Int))

/-- The trim that reaches the next pulse's value on time (R27): `INCDEV` is the starting rate; a disciplined counter corrects its own by
the error found over the ticks since the last good pulse, 125 to a microsecond. [DEDUCED: log 64] -/
def Shadow.retrim (c : Shadow) (w : TimeWord) : Int :=
  if c.disc && !w.step then c.trim + shadowErr c w * 128 / (125 * ((c.missed : Int) + 1)) else w.incdev

/-- A good pulse taken (R27, R29); whether it brings a notice, whether the counter has failed. The first load after a reset is
judged against nothing. [DEDUCED: log 64] -/
def Shadow.load (c : Shadow) (w : TimeWord) : Shadow × Bool × Bool :=
  let d := if c.loaded && !w.step then (shadowErr c w).natAbs else 0
  let bad := if d > 100 * 2 ^ 16 then c.bad + 1 else 0
  ({ c with ns := w.ns, frac := w.frac, trim := c.retrim w, good := c.good + 1, missed := 0, bad := bad, disc := true, hold := false, loaded := true },
   decide (d > 16 * 2 ^ 16), decide (2 ≤ bad))

/-- A missing pulse (R29): the counter runs on in holdover; the eighth in a row fails it. -/
def Shadow.miss (c : Shadow) : Shadow × Bool :=
  ({ c with good := 0, bad := 0, missed := c.missed + 1, hold := true }, decide (c.missed + 1 = 8))

/-- The counter of a die. -/
def State.shadow (s : State) : DieId → Shadow
  | .lane l => (s.lane l.val).shadow
  | .keeper => s.tu.keeperShadow
  | .keeper2 => s.tu.keeperShadow2
  | .field => s.tu.fieldShadow

/-- The counter of a die set. -/
def State.setShadow (s : State) (d : DieId) (c : Shadow) : State :=
  match d with
  | .lane l => s.modLane l.val (fun x => { x with shadow := c })
  | .keeper => { s with tu := { s.tu with keeperShadow := c } }
  | .keeper2 => { s with tu := { s.tu with keeperShadow2 := c } }
  | .field => { s with tu := { s.tu with fieldShadow := c } }

/-- The collector source of a counter (R404). -/
def shadowSrc : DieId → Nat
  | .lane l => 0x08 + l.val
  | .keeper | .keeper2 => 0x14
  | .field => 0x15

/-- Does a die's counter run: not in a lane that is absent, out or asleep, nor in a Keeper die the variant lacks? -/
def State.shadowRuns (s : State) : DieId → Bool
  | .lane l => s.laneSt l.val != laAbsent && s.laneSt l.val != laOut && !(s.lane l.val).asleep
  | .keeper2 => s.variant == .zm80
  | _ => true

/-- A counter has failed (R30): class 1 of a lane, which waits for 1,000 good pulses, class 3 of another die. -/
def State.shadowFails (s : State) (d : DieId) (code : Nat) : State :=
  let s := s.setShadow d { s.shadow d with disc := false, bad := 0, good := 0 }
  match d with
  | .lane l => (s.modLane l.val (fun x => { x with waitPulses := true })).report (shadowSrc d) 1 code
  | _ => s.report (shadowSrc d) 3 code

/-- A pulse is missing or its word is in error (R29). -/
def State.shadowMiss (s : State) (d : DieId) : State :=
  let x := (s.shadow d).miss
  let s := s.setShadow d x.1
  if x.2 then s.shadowFails d 1 else s

/-- The 62 bits of a time word below its parity, of the time unit as it stands (R27). -/
def State.timeWordNow (s : State) : Nat :=
  let dev : Int := ((s.tu.inc : Int) - 8 * 2 ^ 32 + 2 ^ 8) / 2 ^ 9
  s.g TU_NS_NS + s.tu.frac / 2 ^ 16 * 2 ^ 32 + (dev % 2 ^ 14).toNat * 2 ^ 48 + (if 0 < s.tu.stepPulses then 2 ^ 62 else 0)

/-- The network die's pulse with its time word, even parity in the last bit, to every die that keeps a shadow counter, when `TU_NS` has
passed a multiple of 1,000 ns (R27); a pulse uses up one of the step flags (R29, R187). -/
def State.timePulse (s : State) (before : Nat) : State :=
  if s.now / 1000 == before / 1000 then s
  else
    let w := s.timeWordNow
    let s := s.emit (.timePulse (w + (if parity w 63 then 2 ^ 63 else 0)))
    { s with tu := { s.tu with stepPulses := s.tu.stepPulses - 1 } }

/-- `SHADOW_PULSE`: a time-distribution pulse with its time word (R27, R29, R30). -/
def execShadowPulse (d : DieId) (word : BitVec 64) (s : State) : Res :=
  if !s.shadowRuns d then .next s
  else match timeWord word with
    | none => .next (s.shadowMiss d)
    | some w =>
      let x := (s.shadow d).load w
      let s := s.setShadow d x.1
      let s := if x.2.1 then s.notice (shadowSrc d) 0x0001 0 0 else s
      .next (if x.2.2 then s.shadowFails d 2 else s)

/-- `SHADOW_PULSE_MISSING` (R29, R30). -/
def execShadowPulseMissing (d : DieId) (s : State) : Res :=
  if s.shadowRuns d then .next (s.shadowMiss d) else .next s

end Sys2Proof.Machine
end

