-- ==== Sys2Proof/Machine/RackOps.lean ====
section
/-! DEFINITION. Shared operations of the rack bridge: posted writes and their history (R365, R367), read tags (R361),
prefetch (R366), the data of reads. -/

namespace Sys2Proof.Machine

/-! ### Posted writes -/

/-- A prefetch buffer. -/
def State.pfBuf (s : State) (b : Nat) : PfBuf := tabGet (fun _ => {}) s.rb.pf b

/-- A prefetch buffer changed. -/
def State.modPf (s : State) (b : Nat) (f : PfBuf → PfBuf) : State :=
  { s with rb := { s.rb with pf := tabSet (fun _ => {}) s.rb.pf b (f (s.pfBuf b)) } }

/-- A buffer is invalidated (R366): with words unused it is a discarded prefetch. -/
def State.dropPf (s : State) (b : Nat) : State :=
  let x := s.pfBuf b
  if x.valid then
    let s := if x.used.length < 16 then s.inc RB_PFDISC_COUNT else s
    s.modPf b (fun _ => {})
  else s

/-- A posted write enters its queue (R365, R367): sequence number, history, the slot's prefetch buffers. `src` is 0 for a lane
access, 1 for an image commit, 2 for the Keeper. While the outputs are gated it is discarded and counted (R379); while the bridge is
off it does not use the bus (R375), nor in any slot but slot 0 (R542). [DEDUCED: log 75] -/
def State.postWrite (s : State) (slot a : Nat) (data : List Word) (src task cycle : Nat) : State :=
  if s.gated then s.inc UN_GATEDROP_COUNT
  else if !s.on RB_CTRL_EN || s.pw.geo != 0 then s
  else
    let n := s.g RB_WSEQ_SEQ
    let i := n % 1024
    let s := (s.p (RB_WHIST_SEQ i) n).p (RB_WHADDR_ADDR i) a
    let s := (((s.p (RB_WHINFO_SLOT i) slot).p (RB_WHINFO_LEN i) (data.length - 1)).p (RB_WHINFO_TASK i) task).p (RB_WHINFO_SRC i) src
    let s := (s.p (RB_WHCYC_CYCLE i) cycle).p RB_WSEQ_SEQ (n + 1)
    let s := { s with rb := { s.rb with posted := s.rb.posted + 1 } }
    let s := (List.range 8).foldl (fun s b => if (s.pfBuf b).valid && (s.pfBuf b).slot == slot then s.dropPf b else s) s
    s.emit (.rackWrite n slot a data)

/-! ### Windows -/

/-- The slot and window of an enabled card window that holds a rack-bus address (R359). -/
def State.window (s : State) (a : Nat) : Option (Nat × Nat) :=
  ((List.range 15).flatMap (fun k => [(k + 1, 0), (k + 1, 1)])).find? (fun e =>
    s.on (RB_WBASE_VALID e.1 e.2) && decide (s.g (RB_WBASE_BASE e.1 e.2) * 4096 ≤ a) &&
    decide (a < s.g (RB_WBASE_BASE e.1 e.2) * 4096 + (s.g (RB_WCFG_PAGES e.1 e.2) + 1) * 4096))

/-! ### Read tags -/

/-- A read tag. -/
def State.tag (s : State) (k : Nat) : RdTag := tabGet (fun _ => {}) s.rb.tags k

/-- A read tag replaced; `TAGSFREE` follows. -/
def State.setTag (s : State) (k : Nat) (x : RdTag) : State :=
  let s := { s with rb := { s.rb with tags := tabSet (fun _ => {}) s.rb.tags k x } }
  s.p RB_STAT_TAGSFREE ((List.range 32).filter (fun j => (s.tag j).st == 0)).length

/-- The lowest free tag. -/
def State.freeTag (s : State) : Option Nat := (List.range 32).find? (fun j => (s.tag j).st == 0)

/-- Room for one block in the prefetch buffers: a free one, else the least recently used. -/
def State.pfVictim (s : State) : Nat :=
  match (List.range 8).find? (fun b => !(s.pfBuf b).valid) with
  | some b => b
  | none => (List.range 8).foldl (fun v b => if (s.pfBuf b).lastUse < (s.pfBuf v).lastUse then b else v) 0

/-- The key of a card input: task and configured read. -/
def cardKey (t idx : Nat) : Nat := t * 0x10000 + idx

/-- A task's bridge status changed (R369). -/
def State.modRbTask (s : State) (t : Nat) (f : RbTask → RbTask) : State :=
  { s with rb := { s.rb with tasks := tabSet (fun _ => {}) s.rb.tasks t (f (tabGet (fun _ => {}) s.rb.tasks t)) } }

/-- The task of a read. -/
def RdFor.task : RdFor → Nat
  | .image t _ => t
  | .lane t _ => t

/-- The lanes that are to have a load's data: every Voting and Spare lane that has posted it (R363). -/
def State.loadLanes (s : State) (t place : Nat) : List Nat :=
  match s.streams.find? (fun v => v.kind == .rack && v.st == RetStream.task (Fin.ofNat 16 t) && v.place == place) with
  | some v => (v.posts.map (·.1.val)).filter (fun l => s.liveLanes.contains l)
  | none => []

/-- A core's load has ended: it stalls no longer (R362). -/
def State.endWait (s : State) (l t place : Nat) : State :=
  s.modLane l (fun x => { x with rackWait := x.rackWait.filter (fun e => e.2 != (t, place)) })

/-- A read ends for one of those that asked (R363, R365): its data go to the image or to the lanes. A nonzero code gives
0xFFFF_FFFF in every word and is reported. -/
def State.endRead (s : State) (r : RdReq) (code : Nat) (data : List Word) : State :=
  let data := if code == 0 then data else List.replicate r.words 0xFFFFFFFF
  let s := if code == 0 then s else
    let s := (s.p RB_STAT_RDERR 1).inc RB_RDERRCNT_COUNT
    s.modRbTask r.who.task (fun x => { x with rderr := min 255 (x.rderr + 1), code := code, slot := r.slot, a := r.a, cycle := r.cycle })
  match r.who with
  | .image t idx =>
    { s with rb := { s.rb with cardIn := tabSet (fun _ => {}) s.rb.cardIn (cardKey t idx) { cycle := r.cycle, ok := code == 0, data := data } } }
  | .lane t place =>
    let s := { s with rb := { s.rb with loads := (t, place, data) :: s.rb.loads } }
    let s := (s.loadLanes t place).foldl (fun (s : State) l => s.endWait l t place) s
    s.emit (.rackData (s.loadLanes t place) t place data)

/-- A read issued on the bus under a tag. -/
def State.issue (s : State) (k : Nat) (x : RdTag) : State :=
  (s.setTag k { x with st := 1 }).emit (.rackRead k x.slot x.a x.words)

/-- A read asked for (R361, R366): a prefetched block serves it, or it waits for the block that is on its way; else it takes the
lowest free tag, or waits for one. -/
def State.askRead (s : State) (r : RdReq) : State :=
  match s.window r.a with
  | none => s.endRead r 1 []
  | some (slot, w) =>
    let r := { r with slot := slot }
    if s.on (RB_WCFG_PFEFF slot w) && r.a % 64 + 4 * r.words ≤ 64 then
      let block := r.a / 64
      let i := r.a % 64 / 4
      match (List.range 8).find? (fun b => (s.pfBuf b).valid && (s.pfBuf b).block == block) with
      | some b =>
        let s := s.modPf b (fun x => { x with lastUse := s.now, used := x.used ++ (List.range r.words).map (i + ·) |>.eraseDups })
        match (s.pfBuf b).data with
        | some d => s.endRead r 0 ((d.drop i).take r.words)
        | none =>
          let k := (s.pfBuf b).tag
          s.setTag k { s.tag k with reqs := (s.tag k).reqs ++ [r] }
      | none =>
        match s.freeTag with
        | none => { s with rb := { s.rb with waitRd := s.rb.waitRd ++ [r] } }
        | some k =>
          let b := s.pfVictim
          let s := (s.dropPf b).modPf b (fun _ => { valid := true, slot := slot, block := block, lastUse := s.now, tag := k
                                                    used := (List.range r.words).map (i + ·) })
          s.issue k { reqs := [r], slot := slot, a := block * 64, words := 16, buf := some b }
    else match s.freeTag with
      | none => { s with rb := { s.rb with waitRd := s.rb.waitRd ++ [r] } }
      | some k => s.issue k { reqs := [r], slot := slot, a := r.a, words := r.words }

/-- A tag is freed (R361) and the first read that waits takes its turn. -/
def State.freeTagNow (s : State) (k : Nat) : State :=
  let s := s.setTag k {}
  match s.rb.waitRd with
  | [] => s
  | r :: rs => ({ s with rb := { s.rb with waitRd := rs } } : State).askRead r

/-- The Keeper issues a task's configured card reads for a cycle (R365). -/
def State.cardReads (s : State) (t cycle : Nat) : State :=
  if !s.on RB_CTRL_EN then s
  else
    let rs := s.app.pkg.cardReads.filter (fun c => c.t.val == t)
    rs.foldl (fun s c => s.askRead { who := .image t c.idx, slot := c.slot, a := c.a, words := c.words, cycle := cycle }) s

end Sys2Proof.Machine
end

