-- ==== Sys2Proof/Machine/SafetyFns.lean ====
section
/-! DEFINITION. Safe torque off, safe stop 1, encoders, safety input pairs, the seal (chapter 12). -/

namespace Sys2Proof.Machine

/-- The number of a drive, 1 or 2. -/
def drvNo (d : Drive) : Nat := d.val + 1

/-! ### The two channels (R299 to R302) -/

/-- Does a channel's test pulse fall in this tick of 8 ns (R301): A at the multiples of `PERIOD`, B at those plus `PERIOD` / 2, each by its
own die's counter? -/
def State.pulseDue (s : State) (d : Nat) : DrvCh → Bool
  | .a => decide (s.fieldNow % (s.g (SF_TEST_PERIOD d) * 1000000) < 8)
  | .b => decide ((s.keeperNow + s.g (SF_TEST_PERIOD d) * 500000) % (s.g (SF_TEST_PERIOD d) * 1000000) < 8)

/-- `STO_TEST_PULSE`: an energised channel is switched off for `PULSE` and back on at its time; the drive keeps its state (R301). -/
def execStoTestPulse (d : Drive) (ch : DrvCh) (s : State) : Res :=
  let on := match ch with
    | .a => s.on (SF_DRVSTAT_CHA (drvNo d))
    | .b => s.on (SF_DRVSTAT_CHB (drvNo d))
  .next (if on && s.pulseDue (drvNo d) ch then s.emit (.stoPulse (drvNo d) (ch == DrvCh.b) (s.g (SF_TEST_PULSE (drvNo d)))) else s)

/-- A loss of both channels with class 3 of source 0x17 (R302, R304). [DESIGN CHOICE: log 56] -/
def State.stoFault (s : State) (d cause : Nat) : State := (s.torqueOff d cause).report 0x17 3 cause

/-- `STO_READBACK_FAULT`: a channel's own readback disagrees (R301, R302). [DESIGN CHOICE: log 56] -/
def execStoReadbackFault (d : Drive) (_ch : DrvCh) (s : State) : Res := .next (s.stoFault (drvNo d) 0x9)

/-- `CHANNEL_A_REPORT`: channel A's commanded and read-back states reach the Keeper and are compared with channel B's; a
difference of more than 1 ms is a disagreement (R302). No report comes over a field link that is down (R22). [DESIGN CHOICE: log 56] -/
def execChannelAReport (d : Drive) (cmdA rbA : Bool) (s : State) : Res :=
  if s.linkDown lkField then .next s else
  let s := s.modDrv (drvNo d) (fun x => { x with rbA := rbA })
  if cmdA == s.on (SF_DRVSTAT_CHB (drvNo d)) then .next (s.modDrv (drvNo d) (fun x => { x with differ := none }))
  else match (s.drv (drvNo d)).differ with
  | none => .next (s.modDrv (drvNo d) (fun x => { x with differ := some s.now }))
  | some t =>
    if t + 1000000 < s.now then .next ((s.modDrv (drvNo d) (fun x => { x with differ := none })).stoFault (drvNo d) 0xA)
    else .next s

/-- `CHANNEL_B_WATCHDOG_EXPIRY`: the 500 µs watchdog of channel B expires (R299): class 4 of source 0x29. -/
def execChannelBWatchdogExpiry (s : State) : Res :=
  let s := { s with sf := { s.sf with wdExpired := true } }
  .next ((s.drivesOff 7).report 0x29 4 0x1)

/-! ### Speed and SS1 (R306 to R309) -/

/-- The speed over the last 1 ms in counts/s, saturated (R307), from the counts of the evaluations, newest first. [DEDUCED: log 70] -/
def speedOf (counts : List Int) : Int :=
  let v := ((counts.head?.getD 0) - (counts.getLast?.getD 0)) * 1000
  if v > 8388607 then 8388607 else if v < -8388607 then -8388607 else v

/-- Does |v| exceed the envelope of R308 at a time `dt` ns after the start? -/
def State.overEnvelope (s : State) (d v v0 dt : Nat) : Bool :=
  let run := dt - s.g (SF_SS1TIM_DELAY d) * 1000000
  decide (v > s.g (SF_SS1VSTILL_VSTILL d)) &&
  decide ((v * 1000000000 : Int) > (v0 + s.g (SF_SS1VTOL_VTOL d)) * 1000000000 - (s.g (SF_SS1DEC_DECEL d) : Int) * run)

/-- The first condition of R308 that holds at an evaluation of a Stopping drive, with speed magnitude `v`. -/
def State.ss1Cond (s : State) (d v : Nat) : Option Nat :=
  let x := s.drv d
  let dt := s.now - x.t0
  if s.on (SF_DRVSTAT_ENCFLT d) then some 5
  else if s.overEnvelope d v (x.v0.getD v) dt then some 4
  else if (match x.still with
    | some t => decide (t + s.g (SF_SS1TIM_STILLT d) * 1000000 ≤ s.now)
    | none => false) then some 2
  else if dt ≥ s.g (SF_SS1TIM_TMAX d) * 1000000 then some 3
  else none

/-- `DRIVE_EVALUATION`: every 100 µs the field die takes the encoder count, the speed and, while Stopping, the end conditions
of SS1 (R307, R308). -/
def execDriveEvaluation (d : Drive) (count : Int) (s : State) : Res :=
  let d := (drvNo d)
  let s := s.modDrv d (fun x => { x with counts := (count :: x.counts).take 11 })
  let v := speedOf (s.drv d).counts
  let s := s.p (SF_SPEED_V d) (u32 v)
  if s.g (SF_DRVSTAT_STATE d) == 3 then
    let a := v.natAbs
    let s := s.modDrv d (fun x => { x with
      v0 := some (x.v0.getD a)
      still := if a ≤ s.g (SF_SS1VSTILL_VSTILL d) then some (x.still.getD s.now) else none })
    match s.ss1Cond d a with
    | some c => .next (s.torqueOff d c)
    | none => .next s
  else .next s

/-- `ENCODER_FAULT`: edges too close or an invalid line set `ENCFLT` in every drive state, with a notice (R309). -/
def execEncoderFault (d : Drive) (s : State) : Res :=
  let s := (s.p (SF_DRVSTAT_ENCFLT (drvNo d)) 1).modDrv (drvNo d) (fun x => { x with encFrom := s.tu.upNs })
  .next (s.notice 0x17 0x0002 (drvNo d) (s.word (SF_DRVSTAT_STATE (drvNo d))))

/-- `ENCODER_FAULT_CLEAR`: the lines have been valid for 100 ms; the fault clears if the drive has been Torque-off or Off throughout, with no
new fault (R309). -/
def execEncoderFaultClear (d : Drive) (s : State) : Res :=
  if decide (s.g (SF_DRVSTAT_STATE (drvNo d)) ≤ 1) && decide ((s.drv (drvNo d)).encFrom + 100000000 ≤ s.tu.upNs) then .next (s.p (SF_DRVSTAT_ENCFLT (drvNo d)) 0) else .next s

/-! ### Input pairs (R310, R311) -/

/-- A pair's state beside its registers. -/
def State.pairSt (s : State) (k : Nat) : PairSt := tabGet (fun _ => {}) s.sf.pair k

/-- A pair's state beside its registers changed. -/
def State.modPair (s : State) (k : Nat) (f : PairSt → PairSt) : State :=
  { s with sf := { s.sf with pair := tabSet (fun _ => {}) s.sf.pair k (f (s.pairSt k)) } }

/-- A pair takes a state; a change of its value takes a stamp (R311). -/
def State.setPair (s : State) (k st stamp : Nat) : State :=
  let v := st == 2
  let s := if s.on (SF_PAIRSTAT_VALUE k) == v then s
    else (s.p (SF_PAIRTS_NS k) stamp).modPair k (fun x => { x with ts := stamp })
  (s.p (SF_PAIRSTAT_STATE k) st).pb (SF_PAIRSTAT_VALUE k) v

/-- A pair starts its timer from the first changing channel's stamp. -/
def State.pairTimer (s : State) (k stamp : Nat) (second : Bool) : State :=
  s.modPair k (fun x => { x with first := stamp, second := second })

/-- A discrepancy latches (R311). -/
def State.discrepancy (s : State) (k cause : Nat) : State :=
  let s := ((s.setPair k 4 s.now).p (SF_PAIRSTAT_CAUSE k) cause).inc (SF_DISC_COUNT k)
  s.notice 0x17 0x0001 k (s.word (SF_PAIRSTAT_STATE k))

/-- One evaluation of an enabled pair: its channels' active states and stamps (R311). From Closing and from Opening it moves to Active or
Safe only where both channels read alike; while one has returned to its earlier state the timer runs on. -/
def State.evalPair (s : State) (k : Nat) (a b : Bool) (ta tb : Nat) : State :=
  let x := s.pairSt k
  let dt := s.g (SF_PAIRCFG_DT k) * 1000000
  let other := if x.second then ta else tb
  let inTime := decide (other ≤ x.first + dt)
  let expired := decide (x.first + dt ≤ s.now)
  match s.g (SF_PAIRSTAT_STATE k) with
  | 0 =>
    if a && b then s.setPair k 2 (max ta tb)
    else if a then (s.setPair k 1 ta).pairTimer k ta false
    else if b then (s.setPair k 1 tb).pairTimer k tb true
    else s
  | 1 =>
    if a && b && inTime then s.setPair k 2 other
    else if !a && !b then s.setPair k 0 s.now
    else if expired then s.discrepancy k 1
    else s
  | 2 =>
    if !a && !b then s.setPair k 0 (min ta tb)
    else if !a then (s.setPair k 3 ta).pairTimer k ta false
    else if !b then (s.setPair k 3 tb).pairTimer k tb true
    else s
  | 3 =>
    if !a && !b && inTime then s.setPair k 0 s.now
    else if expired then s.discrepancy k 2
    else s
  | _ => if !a && !b then s.setPair k 0 s.now else s

/-- The stamp of a channel of a pair (R311): its last filtered transition's. A channel that has had none since the reset has no stamp, and the
evaluation's own time stands in for it, as the sample's does for a run without a raw edge (R322). [DESIGN CHOICE: log 41] -/
def State.chStamp (s : State) (n : Nat) : Nat := if (s.di n).edges == 0 then s.fieldNow else (s.di n).ts

/-- `SAFETY_PAIR_EVALUATION`: every 25 µs the field die evaluates a pair on its filtered channels (R310, R311, R319).
[DESIGN CHOICE: log 41] -/
def execSafetyPairEvaluation (k : Fin 8) (s : State) : Res :=
  let k := k.val
  let f1 := bit (s.g FD_DISTAT_FILT) (2 * k)
  let f2 := bit (s.g FD_DISTAT_FILT) (2 * k + 1)
  let s := (s.pb (SF_PAIRSTAT_CHA k) f1).pb (SF_PAIRSTAT_CHB k) f2
  if s.on SF_CTRL_EN && s.on (SF_PAIRCFG_EN k) then
    .next (s.evalPair k f1 (f2 != s.on (SF_PAIRCFG_ANTI k)) (s.chStamp (2 * k + 1)) (s.chStamp (2 * k + 2)))
  else .next (s.setPair k 0 s.now)

/-- The safety functions after a write of `SF_CTRL.EN`, which was `was` (R304, R319): switched off, drives are Off and pairs read 0. -/
def State.sfSwitched (s : State) (was : Bool) : State :=
  if was && !s.on SF_CTRL_EN then
    ((List.range 8).foldl (fun (s : State) k => s.setPair k 0 s.now) s.drivesDisable).driveOutputs
  else if s.on SF_CTRL_EN then s.drivesEnable else s

/-! ### The seal (R313 to R316) -/

/-- The seal state by the first matching row of R315. [DESIGN CHOICE: log 45] -/
def State.sealState (s : State) : Nat :=
  if s.sf.validAt + 100000000 ≤ s.tu.upNs then 3
  else if s.sf.tamper then 2
  else match s.sf.valid with
  | none => 1
  | some v =>
    if s.sf.accepted == some v && s.keys.safe.isSome && s.sf.accHash == s.keys.safeHash then 0 else 1

/-- The seal evaluated: a change out of Sealed takes torque away, and in the modes of R316 is class 3. -/
def State.evalSeal (s : State) : State :=
  let old := s.g SF_SEAL_STATE
  let s := if s.sf.validAt + 100000000 ≤ s.tu.upNs then { s with sf := { s.sf with valid := none } } else s
  let new := s.sealState
  let s := s.p SF_SEAL_STATE new
  if old == 0 && new != 0 then
    let s := s.drivesOff 0xB
    if s.mode == mActive || s.mode == mHotStandby || s.mode == mIsolated || s.mode == mMaintenance then s.report 0x17 3 0xB
    else s
  else s

/-- The seal as time passes: 100 ms without a valid read are a fault (R315). -/
def State.sealTick (s : State) : State :=
  if s.sf.validAt + 100000000 ≤ s.tu.upNs && s.g SF_SEAL_STATE != 3 then s.evalSeal else s

/-- `SEAL_READ`: every 10 ms both readers read the contacts (R313, R315). [DESIGN CHOICE: log 45] -/
def execSealRead (rd : SealReading) (s : State) : Res :=
  let s := (s.p SF_SEAL_RDK rd.keeper.toNat).p SF_SEAL_RDF rd.field.toNat
  let s := (s.pb SF_SEAL_LOOP rd.loopClosed).pb SF_SEAL_CMPL rd.complementary
  let x := s.sf
  let ok := rd.complementary && rd.keeper == rd.field
  let same := if !ok then 0 else if x.lastRead == some rd.keeper then x.same + 1 else 1
  let x := { x with lastRead := if ok then some rd.keeper else none, same := same }
  let x := if same ≥ 3 then { x with valid := some rd.keeper, validAt := s.tu.upNs } else x
  .next ({ s with sf := x } : State).evalSeal

/-- `TAMPER_CHECK`: the standby domain checks the loop; two open checks in a row latch `TAMPER` with the RTC seconds (R314). -/
def execTamperCheck (opened : Bool) (s : State) : Res :=
  let n := if opened then s.sf.openChecks + 1 else 0
  let s := { s with sf := { s.sf with openChecks := n } }
  let s := if n ≥ 2 && !s.sf.tamper then
      let s := { s with sf := { s.sf with tamper := true, tamperSec := s.sb.rtc } }
      (s.p SF_SEAL_TAMPER 1).p SF_TAMPERT_SEC s.sb.rtc
    else s
  if s.mode == mDormant then .next s else .next (s.pb SF_SEAL_LOOP (!opened)).evalSeal

end Sys2Proof.Machine
end

