-- ==== Sys2Proof/Machine/EthOps.lean ====
section
/-! DEFINITION. Ethernet frames and the transparent clock's correction (R192), time-stamps (R190), the egress of the switch (R266), the sending
of publications (R271, R272). -/

namespace Sys2Proof.Machine

/-- A frame of the module's own leaves only outside Safe-Halt (R415): ring, pair-link, Ethernet and serial frames. -/
def State.originate (s : State) (x : TxItem) : State := if s.mode == mSafeHalt then s else s.emit x

/-! ### Frames (R265, R192) -/

/-- A byte of the factory area (R435). -/
def State.factByte (s : State) (i : Nat) : Nat := getBits (s.regs.rd (LC_FACT_WORD (i / 4)).reg) (8 * (i % 4)) 8

/-- The factory MAC base M (R264, R435). -/
def State.macBase (s : State) : Nat := beNat ((List.range 6).map (fun i => BitVec.ofNat 8 (s.factByte (20 + i))))

/-- The bytes of a frame as it leaves on VLAN `vid` with priority `pcp` (R265). -/
def frameBytes (f : EthFrame) (tagged : Bool) (pcp vid : Nat) : List Byte :=
  let m := beBytes 6 f.dst ++ beBytes 6 f.src ++ (if tagged then beBytes 2 0x8100 ++ beBytes 2 (pcp * 8192 + vid) else []) ++
    beBytes 2 f.etype ++ f.body
  m ++ leBytes 4 (crc32 m)

/-- The length of a received frame with its check sequence. -/
def frameLen (f : EthFrame) : Nat := 18 + (if f.tag.isSome then 4 else 0) + f.body.length

/-- Where the PTP message of a frame begins in its body, and its transport: 0 Ethernet, 1 UDP over IPv4, 2 UDP over IPv6.
[PRESUMED: log 72] -/
def ptpAt (f : EthFrame) : Option (Nat × Nat) :=
  if f.etype == 0x88F7 then some (0, 0)
  else if f.etype == 0x0800 && byteAt f.body 9 == 17 then
    let h := 4 * (byteAt f.body 0 % 16)
    let p := beAt f.body (h + 2) 2
    if p == 319 || p == 320 then some (h + 8, 1) else none
  else if f.etype == 0x86DD && byteAt f.body 6 == 17 then
    let p := beAt f.body 42 2
    if p == 319 || p == 320 then some (48, 2) else none
  else none

/-- Is a PTP message type an event message: Sync, Delay_Req, Pdelay_Req, Pdelay_Resp? -/
def isEvent (ty : Nat) : Bool := ty ≤ 3

/-- Sixteen-bit words of a run of bytes added up. -/
def sum16 : List Byte → Nat
  | a :: b :: t => a.toNat * 256 + b.toNat + sum16 t
  | [a] => a.toNat * 256
  | [] => 0

/-- Bytes of a list replaced from an index on. -/
def splice (bs : List Byte) (i : Nat) (xs : List Byte) : List Byte := bs.take i ++ xs ++ bs.drop (i + xs.length)

/-- A signed 64-bit field (two's complement). -/
def sint64 (v : Nat) : Int := if v % 2 ^ 64 < 2 ^ 63 then (v % 2 ^ 64 : Int) else (v % 2 ^ 64 : Int) - 2 ^ 64

/-- A 64-bit field of an integer. -/
def u64 (v : Int) : Nat := (v % 2 ^ 64).toNat

/-- The correction of the transparent clock on a frame that leaves (R192): `add` in 2^−16 ns. `none` where a UDP/IPv6 frame has no
octets for the checksum compensation. -/
def tcCorrect (f : EthFrame) (at_ tr : Nat) (add : Int) : Option EthFrame :=
  let c := u64 (sint64 (beAt f.body (at_ + 8) 8) + add)
  let b := splice f.body (at_ + 8) (beBytes 8 c)
  match tr with
  | 0 => some { f with body := b }
  | 1 => some { f with body := splice b (at_ - 2) (beBytes 2 0) }
  | _ =>
    let mlen := beAt f.body (at_ + 2) 2
    let ulen := beAt f.body (at_ - 4) 2
    if ulen < 8 + mlen + 2 then none
    else
      let k := at_ + mlen
      let diff : Int := (sum16 ((f.body.drop at_).take mlen) : Int) - sum16 ((b.drop at_).take mlen) + beAt f.body k 2
      some { f with body := splice b k (beBytes 2 (diff % 65535).toNat) }

/-! ### Time-stamps (R190, R191) -/

/-- The time at which a frame that leaves port `k` now crosses the medium boundary: the unit adds the transmit latency (R190). -/
def State.txTime (s : State) (k : Nat) : Nat := s.now + s.g (TU_PCAL_TXLAT k) / 16

/-! ### PTP as a port holds it -/

/-- PTP on a port. -/
def State.ptp (s : State) (p : Nat) : PtpPort := tabGet (fun _ => {}) s.eth.ptp p

/-- PTP on a port changed. -/
def State.modPtp (s : State) (p : Nat) (f : PtpPort → PtpPort) : State :=
  { s with eth := { s.eth with ptp := tabSet (fun _ => {}) s.eth.ptp p (f (s.ptp p)) } }

/-- A PTP timestamp field of a time. -/
def ptpTimeBytes (t : Nat) : List Byte := beBytes 6 (t / 1000000000) ++ beBytes 4 (t % 1000000000)

/-! ### Egress (R266) -/

/-- Does a switch port carry frames: enabled with its link up, not held by a test (R527)? [DESIGN CHOICE: log 73] -/
def State.portUp (s : State) (p : Nat) : Bool := s.on (EN_PORT_EN p) && s.on (EN_PORT_LINK p) && !s.heldPort (p + 1)

/-- The frames that wait in queue `q` of port `p`. [DESIGN CHOICE: log 73] -/
def State.ethQueue (s : State) (p q : Nat) : List OutFrame := tabGet (fun _ => []) s.eth.queues (4 * p + q)

/-- The first queue with a frame that can leave by now, Q3 first. -/
def State.nextQueue (s : State) (p : Nat) : Option (Nat × OutFrame × List OutFrame) :=
  [3, 2, 1, 0].findSome? (fun q => match s.ethQueue p q with
    | f :: fs => if f.due ≤ s.now then some (q, f, fs) else none
    | [] => none)

/-- A frame leaves a port: it takes on what depends on the instant of its leaving (R192, R268). -/
def State.leaves (s : State) (p : Nat) (o : OutFrame) : State × List Byte :=
  let t := s.txTime p
  match o.fix with
  | .none => (s, o.bytes)
  | .residence f at_ tr rx add tagged pcp vid =>
    match tcCorrect f at_ tr (sint32 (u32 ((t : Int) - rx)) * 65536 + add) with
    | some g => (s, frameBytes g tagged pcp vid)
    | none => (s.inc EN_TCUNCORR_COUNT, o.bytes)
  | .origin => (s, splice o.bytes 34 (ptpTimeBytes t))
  | .answer rx => (s, splice o.bytes 8 (beBytes 8 (u64 (sint64 (beAt o.bytes 8 8) + ((t : Int) - rx) * 65536))))
  | .request seq => (s.modPtp p (fun x => { x with reqAt := some (seq, t) }), o.bytes)

/-- An idle port takes its next frame: it leaves with preamble and gap, 20 bytes more on the wire. -/
def State.ethKick (s : State) (p : Nat) : State :=
  if tabGet (fun _ => 0) s.eth.wire p != 0 then s
  else match s.nextQueue p with
  | none => s
  | some (q, o, fs) =>
    let x := s.leaves p o
    let s := x.1.emit (.ethFrame p x.2)
    { s with eth := { s.eth with queues := tabSet (fun _ => []) s.eth.queues (4 * p + q) fs
                                 wire := tabSet (fun _ => 0) s.eth.wire p (10 * (x.2.length + 20)) } }

/-- The bytes that a list of frames takes. -/
def heldBytes (fs : List OutFrame) : Nat := fs.foldl (fun n o => n + o.bytes.length) 0

/-- The bytes that the queues of all ports hold. -/
def State.ethHeld (s : State) : Nat := s.eth.queues.foldl (fun n e => n + heldBytes e.2) 0

/-- A frame placed in an egress queue (R266): 64 KiB for each queue, 256 KiB for all; a full one drops it. -/
def State.enqueue (s : State) (p q : Nat) (o : OutFrame) : State :=
  if !s.portUp p then s
  else if heldBytes (s.ethQueue p q) + o.bytes.length > 65536 || s.ethHeld + o.bytes.length > 262144 then s.inc (EN_DROP_COUNT p)
  else
    let s := { s with eth := { s.eth with queues := tabSet (fun _ => []) s.eth.queues (4 * p + q) (s.ethQueue p q ++ [o]) } }
    s.ethKick p

/-- One 8 ns tick of a port's wire: one byte at 1 Gb/s, a tenth of one at 100 Mb/s; an idle one takes the next frame. -/
def State.ethTick (s : State) (p : Nat) : State :=
  let w := tabGet (fun _ => 0) s.eth.wire p
  if w == 0 then s.ethKick p
  else
    let w := w - (if s.g (EN_PORT_SPEED p) == 2 then 10 else 1)
    let s := { s with eth := { s.eth with wire := tabSet (fun _ => 0) s.eth.wire p w } }
    if w == 0 then s.ethKick p else s

/-- The queue of a priority (R266). -/
def pcpQueue (pcp : Nat) : Nat := pcp / 2 % 4

/-- The base of a publication's committed words in `State.netOut`. -/
def pubBase (p : Nat) : Nat := 0x1000000 + 0x1000 * p

/-- The configured publication `p`. -/
def State.pubDesc (s : State) (p : Nat) : Option PubDesc := s.app.pkg.pubs.find? (fun d => d.p == p)

/-- The datagram of a publication (R271): header and committed words. -/
def State.pubBytes (s : State) (p commit period : Nat) : List Byte :=
  let len := s.g (EN_PUBCFG_LEN p)
  let every := s.g (EN_PUBCFG_EVERY p)
  beBytes 2 0x5A50 ++ beBytes 1 1 ++ beBytes 1 ((if s.forceActive then 1 else 0) + (if s.sync then 2 else 0)) ++
  beBytes 4 (s.g (EN_PUBID_PUBID p)) ++ beBytes 4 (if period * every == 0 then 0 else commit / (period * every) % 2 ^ 32) ++
  beBytes 4 (commit % 2 ^ 32) ++ beBytes 4 (commit / 2 ^ 32) ++ beBytes 2 len ++ beBytes 2 0 ++ s.netOut.rdN (pubBase p) len

/-- A publication queued on every `ETH` port (R272): at every `EVERY`-th cycle, ungated, with process data on and words
committed since the application started. [DESIGN CHOICE: log 73] -/
def State.sendPub (s : State) (p commit cycle : Nat) : State :=
  if !(s.on EN_CTRL_PDEN && s.on (EN_PUBCFG_VALID p)) || s.gated || s.mode == mSafeHalt then s
  else if !s.eth.pubUsed.contains p then s
  else
    let every := s.g (EN_PUBCFG_EVERY p)
    if every == 0 || cycle % every != 0 then s
    else
      let t := tabGet (fun _ => {}) s.app.pkg.tasks (s.g (EN_PUBCFG_TASK p))
      let bs := s.pubBytes p commit (t.period * 1000)
      [0, 1, 2, 3].foldl (fun s q => s.enqueue q (pcpQueue (s.g (EN_PUBCFG_PCP p))) { bytes := bs }) s

end Sys2Proof.Machine
end

