-- ==== Sys2Proof/Machine/TimeStep.lean ====
section
/-! DEFINITION. Trigger firing (R197 to R199), steps of time (R187), the servo and the synchronisation states (R186 to
R189), the RTC (R33). -/

namespace Sys2Proof.Machine

/-! ### Triggers firing -/

/-- A `TIO` output takes a level; its edge is an event of the captures that select it (R194). -/
def State.setTio (s : State) (k : Nat) (level : Bool) : State :=
  let old := tabGet (fun _ => false) s.tu.tio k
  let s := { s with tu := { s.tu with tio := tabSet (fun _ => false) s.tu.tio k level } }
  if old == level then s else s.captureSrc k 0 level (s.g TU_NS_NS)

/-- An `FPP` takes a trigger's level. -/
def State.setFppTrig (s : State) (k : Nat) (level : Bool) : State :=
  ((s.p (FD_FPPSTAT_TRIG k) 1).modOut (0x10 + k) (fun x => { x with trig := level })).driveOutputs

/-- The direction of a `TIO`: 1 for an output. -/
def State.tioDir (s : State) (k : Nat) : Nat := s.g ⟨TU_TIOCFG_DIR1.reg, 2 * (k - 1), 2⟩

/-- The level an action gives (R197). -/
def actLevel (act : Nat) (old : Bool) : Bool :=
  match act with
  | 0 | 1 => true
  | 2 => false
  | _ => !old

/-- A pulse of `WIDTH` ticks begins on a target. [DEDUCED: log 70] -/
def State.startPulse (s : State) (tgt act width : Nat) : State :=
  { s with tu := { s.tu with pulses := tabSet (fun _ => 0) s.tu.pulses tgt (if act == 0 then width else 0) } }

/-- The level of a `TIO` or `FPP` target. -/
def State.tgtLevel (s : State) (tgt : Nat) : Bool :=
  if tgt ≤ 4 then tabGet (fun _ => false) s.tu.tio tgt else (s.out (0x10 + (tgt - 7))).trig

/-- A `TIO` or `FPP` target takes a level. -/
def State.setTgt (s : State) (tgt : Nat) (level : Bool) : State :=
  if tgt ≤ 4 then s.setTio tgt level else s.setFppTrig (tgt - 7) level

/-- Channel `n`, armed for `t`, drives its target. Of two channels that act on it at the same time the higher-numbered one is applied
last, in whatever order they come (R199). -/
def State.trigDrive (s : State) (n t tgt act width : Nat) : State :=
  match tabGet (fun _ => none) s.tu.slots tgt with
  | some x =>
    if x.t == t && n < x.n then s.setTgt tgt (actLevel (s.g (TU_TRGCFG_ACTION x.n)) (actLevel act x.old))
    else go s
  | none => go s
where
  /-- The channel acts, and its action is kept. -/
  go (s : State) : State :=
    let old := s.tgtLevel tgt
    let s := (s.setTgt tgt (actLevel act old)).startPulse tgt act width
    { s with tu := { s.tu with slots := tabSet (fun _ => none) s.tu.slots tgt (some { t := t, n := n, old := old }) } }

/-- Channel `n`, armed for `t`, acts on its target (R197, R333). -/
def State.trigAct (s : State) (n t : Nat) : State :=
  let tgt := s.g (TU_TRGCFG_TGT n)
  let act := s.g (TU_TRGCFG_ACTION n)
  let width := s.g (TU_TRGCFG_WIDTH n)
  if 1 ≤ tgt && tgt ≤ 4 then
    if s.tioDir tgt == 1 then s.trigDrive n t tgt act width
    else s.notice 0x1A 0x0005 n (s.word TU_STAT_SSTATE)
  else if 8 ≤ tgt && tgt ≤ 0xB then
    if s.on FD_STAT_SILENT then s else s.trigDrive n t tgt act width
  else if 0x10 ≤ tgt && tgt ≤ 0x15 then s.trigConvert (tgt - 0xF)
  else s

/-- A pulse ends: its target goes low. -/
def State.endPulse (s : State) (tgt : Nat) : State :=
  if tgt ≤ 4 then s.setTio tgt false else if s.on FD_STAT_SILENT then s else s.setFppTrig (tgt - 7) false

/-- What follows a firing (R199): the time that waited is armed, else a periodic channel takes its next time. [DEDUCED: log 82] -/
def State.rearm (s : State) (n next : Nat) : State :=
  match tabGet (fun _ => none) s.tu.trigNext n with
  | some t => s.armNow n t
  | none => if s.g (TU_TRGPER_NS n) == 0 then s.p (TU_TRGSTAT_ARMED n) 0 else s.armNow n next

/-- `TRIGGER_FIRE`: `TU_NS` reaches the armed time of a channel in use (R197, R199). [DESIGN CHOICE: log 106] -/
def execTriggerFire (n : Fin 16) (s : State) : Res :=
  let n := n.val
  if s.on (TU_TRGSTAT_ARMED n) && s.on (TU_TRGCFG_EN n) && s.trigAt n ≤ s.now then
    let s := (s.trigAct n (s.trigAt n)).inc (TU_TRGSTAT_FIRED n)
    .next (s.rearm n (s.trigAt n + s.g (TU_TRGPER_NS n)))
  else .next s

/-- A trigger time less than the margin ahead, or past (R198): it is late with a notice and fires at once; where the channel is armed
for a time within its margin, that one fires first and the new one after it (R199). -/
def State.trigLate (s : State) (n t : Nat) : State :=
  let s := s.p (TU_TRGSTAT_LATE n) 1
  let s := s.notice 0x1A 0x0004 n (s.word (TU_TRGSTAT_LATE n))
  if s.on (TU_TRGSTAT_ARMED n) && decide (s.trigAt n < s.now + trgMargin (s.g (TU_TRGCFG_TGT n))) then s.arm n t
  else
    let s := (s.trigAct n t).inc (TU_TRGSTAT_FIRED n)
    s.rearm n (t + s.g (TU_TRGPER_NS n))

/-- An application's trigger-time word at the network die (R198, R379). [DEDUCED: log 82] -/
def State.trigWord (s : State) (n t : Nat) : State :=
  if !s.on (TU_TRGCFG_APP n) || !s.on (TU_TRGCFG_EN n) || s.gated then s
  else if t > s.now + 1000000000 then
    let s := s.p (TU_TRGSTAT_REJ n) 1
    s.notice 0x1A 0x0004 n (s.word (TU_TRGSTAT_REJ n))
  else if t < s.now + trgMargin (s.g (TU_TRGCFG_TGT n)) then s.trigLate n t
  else s.arm n t

/-- Is a part the trigger word of a channel? -/
def Part.isTrigger (p : Part) (n : Nat) : Bool := p.tgt == .trigger n

/-- `APP_TRIGGER_ARRIVAL`: the oldest trigger-time word of a channel that a commit has sent reaches the network die (R198, R379). The
command's word is that one's; a word that no commit has sent arrives nowhere. [DEDUCED: log 82] -/
def execAppTriggerArrival (n : Fin 16) (word : BitVec 64) (s : State) : Res :=
  match s.transit.find? (·.isTrigger n.val) with
  | some p =>
    if leNat (p.data.take 8) == word.toNat then
      .next (({ s with transit := s.transit.erase p } : State).trigWord n.val word.toNat)
    else .next s
  | none => .next s

/-! ### Steps of time (R187) -/

/-- A forward step passes over armed times (R199): each such channel fires at the step, late. -/
def State.stepTriggers (s : State) : State :=
  (List.range 16).foldl (fun s n =>
    if s.on (TU_TRGSTAT_ARMED n) && s.on (TU_TRGCFG_EN n) && s.trigAt n ≤ s.now then
      let t := s.trigAt n
      let per := s.g (TU_TRGPER_NS n)
      let s := ((s.trigAct n t).inc (TU_TRGSTAT_FIRED n)).p (TU_TRGSTAT_LATE n) 1
      let k := if per == 0 then 1 else (s.now - t) / per + 1
      let s := if k > 1 then s.p (TU_TRGSTAT_SKIP n) 1 else s
      s.rearm n (t + k * per)
    else s) s

/-- Time stepped at a tick (R187): `TU_NS` advances by the increment and the step together, which sum to `d`; the carry or borrow goes to
the era and, while armed, to the next era; captures show the step (R193); the next two pulses carry the step flag. `fwd` says that
the step itself is forward. -/
def State.stepTime (s : State) (d : Int) (fwd : Bool) : State :=
  let ns : Int := s.g TU_NS_NS + d
  let carry : Int := ns / 2 ^ 32
  let s := (s.p TU_NS_NS (ns % 2 ^ 32).toNat).p TU_ERA_ERA (u32 (s.g TU_ERA_ERA + carry))
  let s := if s.on TU_STAT_ARMED then s.p TU_ERANEXT_ERA (u32 (s.g TU_ERANEXT_ERA + carry)) else s
  let s := (s.p TU_STAT_STEPPED 1).p TU_STEP_STEP 0
  let s := { s with tu := { s.tu with
    stepPulses := 2, stepPend := none
    caps := s.tu.caps.map (fun e => (e.1, e.2.map (fun (x : CapEnt) => { x with stepped := true }))) } }
  let s := (List.range 16).foldl (fun s n =>
    if s.on (TU_CAPSTAT_VALID n) then s.p (TU_CAPSTAT_STEPPED n) 1 else s) s
  if fwd then s.stepTriggers else s

/-- A step that the Keeper asks for: `TU_STEP` holds it until the next tick applies it (R187). -/
def State.askStep (s : State) (d : Int) : State :=
  { s.p TU_STEP_STEP (u32 d) with tu := { s.tu with stepPend := some d } }

/-- The tick of `TU_NS`: the increment with the fraction's carry (R179), with a step that waits (R187). -/
def State.timeTick (s : State) : State :=
  let f := s.tu.frac + s.tu.inc
  let n : Nat := f / 2 ^ 32
  let s := { s with tu := { s.tu with frac := f % 2 ^ 32 } }
  match s.tu.stepPend with
  | some d => s.stepTime (n + d) (decide (0 < d))
  | none => s.advanceNs n

/-- A write of `TU_STEP`, in Synchronising only; elsewhere it is discarded with a notice (R12, R187). [DEDUCED: log 83] -/
def State.stepWrite (s : State) (v : Word) : State :=
  if s.mode == mSynchronising then s.askStep (sint32 v.toNat) else s.notice 0x22 0x0001 0 (s.word TU_STEP_STEP)

/-- `TIME_STEP`: the Keeper writes `TU_STEP` (R187). -/
def execTimeStep (v : Word) (s : State) : Res := .next (s.stepWrite v)

/-! ### The servo (R186, R189, R238, R240) -/

/-- Is a ring configured (R421)? -/
def State.ringConf (s : State) (r : Nat) : Bool :=
  s.on (BZ_CTRL_EN r) || (if r == 0 then s.cfg.ring1.isSome else s.cfg.ring2.isSome)

/-- The ring that the servo takes (R240): ring 1 while its reference is present, else ring 2 while its is. -/
def State.servoRing (s : State) : Option Nat :=
  [0, 1].find? (fun r => s.ringConf r && s.on (BZ_SYNCSTAT_PRESENT r))

/-- Is a PTP reference configured: a slave-only clock, or a clock that has had a slave port since the reset? -/
def State.ptpConf (s : State) : Bool :=
  s.g EN_PTPCFG_CLOCK == 1 || (s.g EN_PTPCFG_CLOCK != 0 && s.eth.hadSlave)

/-- A mean rounded towards minus infinity, in 1/256 ns. [DEDUCED: log 71] -/
def meanOf (xs : List Int) : Int := if xs.isEmpty then 0 else xs.foldl (· + ·) 0 / (xs.length : Int)

/-- What the PTP engine gives the servo run (R269). -/
def State.ptpTake (s : State) : State :=
  let xs := s.eth.offs
  let s := { s with eth := { s.eth with offs := [] } }
  if xs.isEmpty || !s.on EN_PTPSTAT_PRESENT then s
  else
    let o := meanOf (xs.map (·.2))
    let a := (xs.filter (fun e => !e.1)).map (·.2)
    let b := (xs.filter (·.1)).map (·.2)
    let r : Int := if a.isEmpty || b.isEmpty then 0 else (meanOf b - meanOf a) * 2 ^ 40 / (256 * 500000)
    let s := (s.p EN_PTPOFF_O (u32 o)).p EN_PTPRATE_R (u32 r)
    s.pb EN_PTPSTAT_SETTLED (o ≤ 20 * 256 && o ≥ -20 * 256)

/-- The offset (1/256 ns) and rate (2^−40) of a run, if a reference is present: the ring's with the external correction, else
PTP's. A held macrocycle gives no offset. [DEDUCED: log 71] -/
def State.servoIn (s : State) : Option (Int × Int) :=
  match s.servoRing with
  | some r =>
    if s.on (BZ_SYNCSTAT_HOLD r) then some (0, s.tu.rate)
    else
      let o := sint32 (s.g (BZ_OFFSET_O r))
      let o := if s.on (BZ_CTRL_MODE r) then o
        else if s.isMaster r || s.g (BZ_STAT_STATE r) == 4 then
          (if s.on EN_PTPSTAT_SETTLED then sint32 (s.g EN_PTPOFF_O) else o)
        else o + (s.ring r).corr
      some (o, sint32 (s.g (BZ_RATE_R r)))
  | none =>
    if s.ptpConf && s.on EN_PTPSTAT_PRESENT then some (sint32 (s.g EN_PTPOFF_O), sint32 (s.g EN_PTPRATE_R)) else none

/-- The increment of R186 in 2^−32 ns, held within the legal range of R180. [DEDUCED: log 71] -/
def servoInc (o r : Int) : Nat :=
  let n : Int := ((2 ^ 75 - r * 2 ^ 35) * 32000000 - o * 2 ^ 72) / (2 ^ 40 * 32000000)
  let lo : Int := (79992 * 2 ^ 32 + 9999) / 10000
  let hi : Int := 80008 * 2 ^ 32 / 10000
  (if n < lo then lo else if n > hi then hi else n).toNat

/-- An increment taken into use (R180). -/
def State.useInc (s : State) (inc : Nat) : State :=
  { (s.p TU_INC_F_F (inc % 2 ^ 32)).p TU_INC_I_I (inc / 2 ^ 32) with tu := { s.tu with inc := inc } }

/-- A check of the health record has failed in this macrocycle (R394). -/
def State.failCheck (s : State) (n : Nat) : State :=
  { s with un := { s.un with failNow := if bit s.un.failNow n then s.un.failNow else s.un.failNow + 2 ^ n } }

/-- The synchronisation state written with its consequences (R188, R189): leaving Synchronised, or losing every reference,
records a notice with the new state. -/
def State.setSync (s : State) (st : Nat) : State :=
  let old := s.g TU_STAT_SSTATE
  if old == st then s
  else
    let s := (s.p TU_STAT_SSTATE st).pb TU_STAT_SYNC (st == 2)
    let s := if old == 2 then s.failCheck 5 else s
    if old == 2 || st == 4 then
      s.noticeD 0x1A 0x0003 (leBytes 1 0 ++ leBytes 1 st ++ leBytes 2 0 ++ leBytes 4 (s.word TU_STAT_SSTATE).toNat)
    else s

/-- What is known of the references at a run. -/
structure Refs where
  conf : Bool
  ringConf : Bool
  ringPresent : Bool
  ringSettled : Bool
  ptpConf : Bool
  ptpPresent : Bool
  ptpSettled : Bool
  big : Bool
  deriving DecidableEq, Repr

/-- The references as R189, R240 and R421 define them. -/
def State.refs (s : State) : Refs :=
  let rc := s.ringConf 0 || s.ringConf 1
  let rp := s.servoRing.isSome
  let rs := match s.servoRing with
    | some r => s.on (BZ_SYNCSTAT_SETTLED r)
    | none => false
  let pc := s.ptpConf
  let pp := pc && s.on EN_PTPSTAT_PRESENT
  let far o := o > 100 * 256 || o < (-100 * 256 : Int)
  let bigRing := match s.servoRing with
    | some _ => (match s.servoIn with
      | some (o, _) => far o
      | none => false)
    | none => false
  { conf := rc || pc, ringConf := rc, ringPresent := rp, ringSettled := rs, ptpConf := pc, ptpPresent := pp
    ptpSettled := pp && s.on EN_PTPSTAT_SETTLED, big := bigRing || (pp && far (sint32 (s.g EN_PTPOFF_O))) }

/-- Is every configured reference settled? With none configured every one is. -/
def Refs.allSettled (x : Refs) : Bool := (!x.ringConf || x.ringSettled) && (!x.ptpConf || x.ptpSettled)
/-- Is a reference present? With none configured one counts as present (R421). -/
def Refs.present (x : Refs) : Bool := !x.conf || x.ringPresent || x.ptpPresent

/-- The changes of R189 at a servo run or at the loss of a reference; `run` counts the consecutive runs. -/
def State.syncStep (s : State) (x : Refs) (run : Bool) : State :=
  let settled := if !run then s.tu.settledRuns else if x.allSettled then s.tu.settledRuns + 1 else 0
  let ptp := if !run then s.tu.ptpRuns else if x.ptpSettled then s.tu.ptpRuns + 1 else 0
  let big := if !run then s.tu.bigRuns else if x.big then s.tu.bigRuns + 1 else 0
  let s := { s with tu := { s.tu with settledRuns := settled, ptpRuns := ptp, bigRuns := big } }
  match s.g TU_STAT_SSTATE with
  | 0 | 4 => if x.present && run then s.setSync 1 else s
  | 1 => if !x.present then s.setSync 4 else if settled ≥ 16 then s.setSync 2 else s
  | 2 =>
    if !x.present then s.setSync 4
    else if big ≥ 2 then s.setSync 1
    else if x.ptpConf && !x.ptpPresent && x.ringPresent && x.ringSettled then s.setSync 3
    else if x.ringConf && !x.ringPresent then s.setSync 1
    else s
  | 3 => if !x.present then s.setSync 4 else if ptp ≥ 16 then s.setSync 2 else s
  | _ => s

/-- The external correction of a ring that its master writes until the next servo run (R238): o_ptp − o_ring in 1/256 ns, saturated. -/
def State.setCorr (s : State) (r : Nat) : State :=
  let v := sint32 (s.g EN_PTPOFF_O) - sint32 (s.g (BZ_OFFSET_O r))
  s.modRing r (fun x => { x with corrOut := if v > 2 ^ 31 - 1 then 2 ^ 31 - 1 else if v < -(2 ^ 31 - 1) then -(2 ^ 31 - 1) else v })

/-- `SERVO_RUN`: once in a macrocycle the Keeper computes o and r and writes the increment, or in Synchronising a step in
place of the offset term (R186 to R189). In Free the increment stays as last written (R188). A module without its network
link has no time unit to run (R22). -/
def execServoRun (s : State) : Res :=
  if s.linkDown lkNetwork then .next s else
  let s := s.ptpTake
  let s := match s.servoIn with
    | some (o, r) =>
      let s := s.p TU_OFFSET_NS (u32 ((o + 128) / 256))
      let s := { s with tu := { s.tu with rate := r, servoRuns := s.tu.servoRuns + 1 } }
      if s.mode == mSynchronising && (o > 1000 * 256 || o < -1000 * 256) then
        (s.useInc (servoInc 0 r)).askStep (-((o + 128) / 256))
      else s.useInc (servoInc o r)
    | none =>
      if s.refs.conf && s.g TU_STAT_SSTATE != 0 then s.useInc (servoInc 0 s.tu.rate)
      else { s with tu := { s.tu with servoRuns := s.tu.servoRuns + 1 } }
  .next (([0, 1].foldl State.setCorr s).syncStep s.refs true)

/-! ### RTC (R33) -/

/-- `RTC_UPDATE`: the Keeper writes the RTC from global time, when first synchronised and every 600 s. -/
def execRtcUpdate (s : State) : Res :=
  if s.sync && (match s.sb.rtcAt with
    | none => true
    | some t => decide (t + 600000000000 ≤ s.now)) then
    .next { s with sb := { s.sb with rtc := s.now / 1000000000, rtcFrac := s.now % 1000000000 * 32768 / 1000000000, rtcAcc := 0
                                     rtcWritten := true, rtcAt := some s.now } }
  else .next s

end Sys2Proof.Machine
end

