-- ==== Sys2Proof/Machine/Apply.lean ====
section
/-! DEFINITION. The apply queues of the dies (R39, R40): how a committed part arrives, waits, is late, and acts on its
target (R219, R272, R300, R326, R343, R365). -/

namespace Sys2Proof.Machine

/-- The code of an apply queue's die in a late-apply notice (R498). -/
def queueDie : ApplyQ → Nat
  | .field => 1
  | .netNode _ _ => 2
  | .netOther => 2
  | .keeper => 3

/-- The apply margin of a queue's die in ns (R40). -/
def queueMargin : ApplyQ → Nat
  | .field => 200
  | .netNode _ _ => 100
  | .netOther => 100
  | .keeper => 100

/-- The queue of a target. [DEDUCED: log 70] -/
def OutTgt.queue : OutTgt → ApplyQ
  | .hso _ => .field
  | .fpp _ => .field
  | .loop _ => .field
  | .permit _ => .keeper
  | .ringNode r n _ => .netNode (Fin.ofNat 2 r) (Fin.ofNat 16 n)
  | .publication _ _ => .netOther
  | .trigger _ => .netOther
  | .card _ _ => .keeper
  | .serial _ _ => .netOther

/-- The base of a serial station's output data in `State.netOut`. -/
def serialBase (k : Nat) : Nat := 0x2000000 + 0x100 * k

/-- A bad output byte of an `HSO` or `FPP` counts (R326). -/
def State.commitOut (s : State) (k : Nat) (b : Byte) : State :=
  let s := if b.toNat > 1 then s.inc FD_BADVAL_COUNT else s
  (s.pb (cmdFld k) (b == 1)).driveOutputs

/-- Words of four bytes, least significant first. -/
def wordsOf (bs : List Byte) : List Word :=
  (List.range ((bs.length + 3) / 4)).map (fun i => BitVec.ofNat 32 (leAt bs (4 * i) 4))

/-- The time of the die that owns a queue, as its own counter shows it (R26, R39): the network die counts global time itself. -/
def State.dieNow (s : State) : ApplyQ → Nat
  | .field => s.fieldNow
  | .keeper => s.keeperNow
  | _ => s.now

/-- A ring node's committed bytes (R219), with what the module's own replies carry of basic cycles that began at or after the commit time
(R210). -/
def State.commitNode (s : State) (r n off : Nat) (p : Part) : State :=
  let a := 0x10000 * (16 * r + n) + off
  let s := { s with netOut := s.netOut.wrL a p.data
                    netUsed := if s.netUsed.contains (16 * r + n) then s.netUsed else (16 * r + n) :: s.netUsed }
  if n == s.nodeId r then
    s.modRing r (fun x => { x with snaps := x.snaps.map (fun e => if p.commit ≤ e.1 then (e.1, e.2.wrL a p.data) else e) })
  else s

/-- A part acts on its target at its commit time. A part of a publication without bytes is the datagram of its cycle (R272); a trigger
word acts when it arrives, not here (R198). -/
def State.applyPart (s : State) (p : Part) : State :=
  match p.tgt with
  | .hso n => s.commitOut n (p.data.headD 0)
  | .fpp n => s.commitOut (0x10 + n) (p.data.headD 0)
  | .loop n => s.commitLoop n (leNat (p.data.take 4))
  | .permit d => s.permit d (leNat (p.data.take 8))
  | .ringNode r n off => (s.commitNode r n off p)
  | .publication k off =>
    if p.data.isEmpty then s.sendPub k p.commit p.cycle
    else { s with netOut := s.netOut.wrL (pubBase k + off) p.data
                  eth := { s.eth with pubUsed := if s.eth.pubUsed.contains k then s.eth.pubUsed else k :: s.eth.pubUsed } }
  | .trigger _ => s
  | .card slot a => s.postWrite slot a (wordsOf p.data) 1 (p.t.map (·.val) |>.getD 0) p.cycle
  | .serial k off => { s with netOut := s.netOut.wrL (serialBase k + off) p.data }

/-- The distinct pending commit times of a queue. -/
def State.pendingTimes (s : State) (q : ApplyQ) : List Nat := ((s.parts.filter (fun p => p.q == q)).map (·.commit)).eraseDups

/-- A late apply of a die is counted, with a notice (R40). -/
def State.lateAt (s : State) (d : Nat) : State :=
  let s := { s with tu := { s.tu with lateApplied := tabSet (fun _ => 0) s.tu.lateApplied d (tabGet (fun _ => 0) s.tu.lateApplied d + 1) } }
  s.notice 0x16 0x0005 d

/-- A late part acts at once, counted in its die's block, with a notice (R40). The blocks' tables show the count of publications only
(R272); that of every die is kept beside the registers. -/
def State.applyLate (s : State) (p : Part) : State :=
  let s := s.applyPart p
  let s := match p.tgt with
    | .publication _ _ => if p.data.isEmpty then s.inc EN_PDLATE_COUNT else s
    | _ => s
  s.lateAt (queueDie p.q)

/-- A ring node's part makes its node one that holds committed outputs (R220). -/
def State.useNode (s : State) (p : Part) : State :=
  match p.tgt with
  | .ringNode r n _ => { s with netUsed := if s.netUsed.contains (16 * r + n) then s.netUsed else (16 * r + n) :: s.netUsed }
  | _ => s

/-- Does the Keeper already hold back a part's commit time (R40)? What is committed later for that time follows it (R108). -/
def State.heldBack (s : State) (p : Part) : Bool := s.backlog.any (fun x => x.q == p.q && x.commit == p.commit)

/-- A part reaches its die (R40): late, held, or held back by the Keeper while eight other commit times are pending. -/
def State.arrive (s : State) (p : Part) : State :=
  let p := { p with reached := s.now }
  let s := s.useNode p
  if s.heldBack p then { s with backlog := s.backlog ++ [p] }
  else if p.commit < s.dieNow p.q + queueMargin p.q then s.applyLate p
  else
    let ts := s.pendingTimes p.q
    if ts.length ≥ 8 && !ts.contains p.commit then { s with backlog := s.backlog ++ [p] }
    else { s with parts := s.parts ++ [p] }

/-- The link over which a queue's parts travel (R20); the Keeper's own need none. -/
def queueLink : ApplyQ → Option Nat
  | .field => some lkField
  | .netNode _ _ => some lkNetwork
  | .netOther => some lkNetwork
  | .keeper => none

/-- A committed part leaves the fabric (R39) over the link of its die, and is lost where that is down (R20, R22): to the field die it
travels in the commit message; a trigger word travels until it arrives (R198). -/
def State.dispatchPart (s : State) (p : Part) : State :=
  match queueLink p.q with
  | none => s.arrive p
  | some k =>
    if s.linkDown k then s
    else
      let s := s.linkSend k p.data
      match p.tgt with
      | .trigger _ => { s with transit := s.transit ++ [p] }
      | _ => if p.q == .field then { s with transit := s.transit ++ [p] } else s.arrive p

/-- The earliest pending commit time of a queue. -/
def State.earliest (s : State) (q : ApplyQ) : Option Nat := (s.pendingTimes q).min?

/-- A part put behind those of its place or a lower one. -/
def putPart (key : Part → Nat) (p : Part) : List Part → List Part
  | [] => [p]
  | q :: qs => if key p < key q then p :: q :: qs else q :: putPart key p qs

/-- Where a card's part lies in the output image (R365). -/
def State.partPlace (s : State) (p : Part) : Nat := ((s.app.pkg.outs.find? (fun b => b.tgt == p.tgt)).map (fun b => 8 * b.word + b.byte)).getD 0

/-- The parts of a queue with a commit time act, in the order of their commits; the Keeper's in that of the output image (R365). -/
def State.applyAt (s : State) (q : ApplyQ) (t : Nat) : State :=
  let due := s.parts.filter (fun p => p.q == q && p.commit == t)
  let due := if q == .keeper then due.foldl (fun ps p => putPart s.partPlace p ps) [] else due
  let s := { s with parts := s.parts.filter (fun p => !(p.q == q && p.commit == t)) }
  due.foldl State.applyPart s

/-- `OUTPUT_APPLY`: the die's counter has reached the earliest pending commit time of a queue (R40). The field die in silence
holds no part. -/
def execOutputApply (q : ApplyQ) (s : State) : Res :=
  match s.earliest q with
  | some t => if t ≤ s.dieNow q then .next (s.applyAt q t) else .next s
  | none => .next s

/-- `QUEUED_COMMIT_RELEASE`: the Keeper sends the first commit time it held back once the die has room (R40). -/
def execQueuedCommitRelease (q : ApplyQ) (s : State) : Res :=
  match s.backlog.find? (fun p => p.q == q) with
  | some p =>
    if (s.pendingTimes q).length < 8 then
      let go := s.backlog.filter (fun x => x.q == q && x.commit == p.commit)
      let s := { s with backlog := s.backlog.filter (fun x => !(x.q == q && x.commit == p.commit)) }
      .next (go.foldl State.arrive s)
    else .next s
  | none => .next s

/-- `COMMIT_MESSAGE`: a commit message reaches the field die (R332, R334): the silence ends, every output not set by the commit
returns to its committed value, and the parts it brings are held or applied. None comes over a link that is down (R22). -/
def execCommitMessage (s : State) : Res :=
  if s.linkDown lkField then .next s
  else
    let ps := s.transit.filter (fun p => p.q == .field)
    let s := ({ s with transit := s.transit.filter (fun p => p.q != .field), fd := { s.fd with msgAt := s.tu.upNs } } : State).p FD_STAT_SILENT 0
    .next (ps.foldl State.arrive s.driveOutputs)

/-- `PUBLICATION_SEND`: at its commit time the network die takes a publication's words and queues its datagram (R272). -/
def execPublicationSend (p : Fin 64) (s : State) : Res :=
  let mine (x : Part) : Bool := match x.tgt with
    | .publication k _ => k == p.val && x.commit ≤ s.now
    | _ => false
  let due := s.parts.filter mine
  if due.isEmpty then .next s
  else
    let s := { s with parts := s.parts.filter (fun x => !mine x) }
    .next (due.foldl State.applyPart s)

end Sys2Proof.Machine
end

