-- ==== Sys2Proof/Machine/Streams.lean ====
section
/-! DEFINITION. The voted streams: commands, retained stores and rack-bus accesses, each met at its place in its task's stream
(R69, R156, R362). -/

namespace Sys2Proof.Machine

/-- The lanes whose posts count: the Voting lanes, and the spare from an exclusion on if its last submission agreed (R67). -/
def State.voters (s : State) : List Nat :=
  [0, 1, 2, 3].filter (fun l => s.laneSt l == laVoting || (s.laneSt l == laSpare && (s.lane l).countsNow))

/-- A value that two of a list agree on. [DEDUCED: log 78] -/
def agreed {α : Type} [BEq α] (xs : List α) : Option α := xs.find? (fun x => 2 ≤ (xs.filter (· == x)).length)

/-- Can no two of `n` voters agree any more, `xs` being what has arrived? [DEDUCED: log 78] -/
def hopeless {α : Type} [BEq α] (n : Nat) (xs : List α) : Bool :=
  (agreed xs).isNone && decide (xs.length ≥ n || (xs.isEmpty && n < 2))

/-- The vote of a stream at a place. -/
def State.stream (s : State) (k : StreamKind) (st : RetStream) (place : Nat) : Option StreamVote :=
  s.streams.find? (fun v => v.kind == k && v.st == st && v.place == place)

/-- A vote replaced, or added as the newest. -/
def State.putStream (s : State) (v : StreamVote) : State :=
  if s.streams.any (·.same v) then { s with streams := s.streams.map (fun w => if w.same v then v else w) }
  else { s with streams := s.streams ++ [v] }

/-- The task number of a stream; the runtime's own counts as task 0 in reports. -/
def streamTask : RetStream → Nat
  | .task t => t.val
  | .runtime => 0

/-- What an arrival brings about. -/
inductive Arrival where
  | waits
  | formed (v : List Byte)
  | joined (v : List Byte)
  | failed (lanes : List Nat)
  | turned
  deriving DecidableEq, Repr

/-- The minority of a stream: cause 0x6 for a difference, 0x7 for a late lane. -/
def State.streamMinority (s : State) (l cause : Nat) (st : RetStream) : State :=
  let t := streamTask st
  s.minority { lane := l, cause := cause, task := t, cycle := (tabGet (fun _ => {}) (s.lane l).task t).cycle }

/-- No majority can form (R56, R69): class 3 with more than one voter. -/
def State.streamFails (s : State) (v : StreamVote) : State × Arrival :=
  let n := s.voters.length
  let s := ((s.endStream v).inc VX_VOTES_COUNT).inc VX_NOMAJ_COUNT
  let s := if n ≥ 2 then s.report 0x10 3 0x400 else s
  (s, .failed (v.posts.map (·.1.val)))

/-- A majority forms in a stream (R56, R69): counted, and the posts that differ are in the minority. -/
def State.streamForms (s : State) (v : StreamVote) (w : List Byte) : State :=
  let s := (s.putStream { v with won := some w }).inc VX_VOTES_COUNT
  (v.posts.filter (fun e => e.2 != w)).foldl (fun s e => s.streamMinority e.1.val 6 v.st) s

/-- The posts of a vote that count. -/
def State.counted (s : State) (v : StreamVote) : List (List Byte) :=
  (v.posts.filter (fun e => s.voters.contains e.1.val)).map (·.2)

/-- A lane's post at a place of a stream (R55, R56, R67, R69). -/
def State.postStream (s : State) (k : StreamKind) (st : RetStream) (place : Nat) (l : Lane) (bs : List Byte) : State × Arrival :=
  let v := (s.stream k st place).getD { kind := k, st := st, place := place, posts := [], since := s.tu.upNs }
  if v.posts.any (fun e => e.1 == l) || v.closed then (s, .waits)
  else
    let v := { v with posts := v.posts ++ [(l, bs)] }
    match v.won with
    | some w =>
      let s := s.putStream v
      if w == bs then (s, .joined w) else (s.streamMinority l.val 6 st, .turned)
    | none =>
      let votes := s.counted v
      match agreed votes with
      | some w => (s.streamForms v w, .formed w)
      | none =>
        let s := s.putStream v
        if hopeless s.voters.length votes || (s.voters.length == 1 && !votes.isEmpty) then s.streamFails v else (s, .waits)

/-- Was a lane in Voting or Spare already when a vote opened (R31)? -/
def State.sinceJoin (s : State) (l since : Nat) : Bool := (s.lane l).joinedUp == 0 || decide ((s.lane l).joinedUp < since)

/-- The lanes in Voting or Spare that have not posted when the window closes are late, but for one that entered its state after the vote
opened (R31, R55, R69). -/
def State.streamLate (s : State) (v : StreamVote) : State :=
  let late := s.liveLanes.filter (fun l => !(v.posts.map (·.1.val)).contains l && s.sinceJoin l v.since)
  late.foldl (fun s l => s.streamMinority l 7 v.st) (s.putStream { v with closed := true })

/-- The window of a vote closes (R55, R69). An undecided vote is judged once more by the lanes that count now: an exclusion since the last
post may have made the spare count (R67). [DESIGN CHOICE: log 32] -/
def State.closeStream (s : State) (v : StreamVote) : State × Arrival :=
  match v.won with
  | some w => (s.streamLate v, .joined w)
  | none => match agreed (s.counted v) with
    | some w =>
      let s := s.streamForms v w
      (s.streamLate { v with won := some w }, .formed w)
    | none => s.streamFails v

/-- Is it time for a vote window that opened at `since` to close (R55, R69, R143)? `us` is the window in µs; a window of a task with
`RUNAHEAD` = 1 stays open to the task's next sample time if that is later. -/
def State.windowOver (s : State) (t : Nat) (since us : Nat) : Bool :=
  decide (since + us * 1000 ≤ s.tu.upNs) &&
  (!(tabGet (fun _ => ({} : TaskDesc)) s.app.pkg.tasks t).runahead || decide ((s.task t).next ≤ s.now))

/-- The vote whose window closes: the oldest of the task that is open, of a retained store then the runtime's own. -/
def State.closing (s : State) (k : StreamKind) (t : Task) : Option StreamVote :=
  match s.streams.find? (fun v => v.kind == k && v.st == .task t && !v.closed) with
  | some v => some v
  | none => if k == .retained then s.streams.find? (fun v => v.kind == k && v.st == .runtime && !v.closed) else none

end Sys2Proof.Machine
end

