-- ==== Sys2Proof/Machine/CoreOps.lean ====
section
/-! DEFINITION. A lane's memory as its cores and its tasks use it: the lane address map (R148), the state digest (R49 to R52),
dirty output words (R47), MMU fault records (R151), retained stores (R155 to R157), submissions (R46 to R48). -/

namespace Sys2Proof.Machine

/-! ### The lane address map (R148) -/

/-- The regions of R148. -/
inductive Region where
  | dram | tcm | inImg | outImg | ctrl | mbox | shadowTime | retained | rack | none
  deriving DecidableEq, Repr

/-- The region of a lane address. -/
def regionOf (a : Nat) : Region :=
  if a < 0x100000000 then .dram
  else if a < 0x100100000 then .tcm
  else if 0x140000000 ≤ a && a < 0x140040000 then .inImg
  else if 0x140040000 ≤ a && a < 0x140080000 then .outImg
  else if 0x180000000 ≤ a && a < 0x181000000 then .ctrl
  else if 0x190000000 ≤ a && a < 0x190010000 then .mbox
  else if 0x1A0000000 ≤ a && a < 0x1A0001000 then .shadowTime
  else if 0x1C0000000 ≤ a && a < 0x1C1000000 then .retained
  else if 0x200000000 ≤ a && a < 0x300000000 then .rack
  else .none

/-- The base of the output image (R148). -/
def outBase : Nat := 0x140040000

/-- An 8-byte word of a lane's memory. -/
def LaneSt.word (x : LaneSt) (w : Nat) : BitVec 64 := BitVec.ofNat 64 (leNat (x.mem.rdN (8 * w) 8))

/-- The little-endian bytes of an 8-byte word with some replaced from an index on. -/
def mergeBytes (v : BitVec 64) (i : Nat) (bs : List Byte) : BitVec 64 :=
  let old := leBytes 8 v.toNat
  BitVec.ofNat 64 (leNat (padTo 8 (old.take i ++ bs ++ old.drop (i + bs.length))))

/-! ### The digest -/

/-- The mixing function H (R49): 0 for value 0, else the opaque mixing, one-to-one for each word. [DESIGN CHOICE: log 13] -/
def mixH (a : Nat) (v : BitVec 64) : BitVec 128 :=
  if v = 0 then 0 else ((Config.mixing (BitVec.ofNat 64 a)).getD Config.plainMixing).mix v

/-- The pages of lane DRAM that some bytes lie in, added to a list (R174). -/
def pagesUnion (ps : List Nat) (m : Mem) : List Nat :=
  (m.filter (fun e => regionOf e.1 == .dram)).foldl (fun ps e => if ps.contains (e.1 / 4096) then ps else (e.1 / 4096) :: ps) ps

/-- The window of lane `l` that holds a lane address, if digests are on (R50, R51). -/
def State.winOf (s : State) (l a : Nat) : Option Nat :=
  if s.on (SD_CTRL_EN l) then
    (List.range 16).find? (fun n =>
      decide (s.g (SD_WINBASE_BASE l n) ≤ a / 4096) && decide (a / 4096 < s.g (SD_WINBASE_BASE l n) + s.g (SD_WINSIZE_PAGES l n)))
  else none

/-- A task's digest in a lane. -/
def LaneSt.dig (x : LaneSt) (t : Nat) : BitVec 128 := tabGet (fun _ => 0) x.digest t

/-- One 8-byte word stored in a lane's memory (R47, R50, R174): the owner's digest, the pages dirtied and written, the dirty output words. -/
def State.storeWord (s : State) (l w : Nat) (v : BitVec 64) : State :=
  let x := s.lane l
  let old := x.word w
  let x' := { x with
    mem := x.mem.wrL (8 * w) (leBytes 8 v.toNat)
    written := if regionOf (8 * w) == .dram && !x.written.contains (w / 512) then (w / 512) :: x.written else x.written }
  let x' := match s.winOf l (8 * w) with
    | some n =>
      let t := s.g (SD_WINSIZE_OWNER l n)
      { x' with digest := tabSet (fun _ => 0) x.digest t (x.dig t - mixH (8 * w) old + mixH (8 * w) v)
                pages := if x.pages.contains (w / 512) then x.pages else (w / 512) :: x.pages }
    | none => if regionOf (8 * w) == .outImg then
        { x' with pages := if x.pages.contains (w / 512) then x.pages else (w / 512) :: x.pages
                  dirty := if x.dirty.contains (w - outBase / 8) then x.dirty else (w - outBase / 8) :: x.dirty }
      else x'
  s.setLane l x'

/-- A store of bytes within one word (R50: a narrower store folds the whole word). -/
def State.storeBytes (s : State) (l a : Nat) (bs : List Byte) : State :=
  s.storeWord l (a / 8) (mergeBytes ((s.lane l).word (a / 8)) (a % 8) bs)

/-- The digest of a task over its windows, computed afresh from memory; pages of DRAM not written since the reset are skipped (R49, R52,
R174). -/
def State.scanDigest (s : State) (l t : Nat) : BitVec 128 :=
  let ws := (List.range 16).filter (fun n => s.g (SD_WINSIZE_OWNER l n) == t && s.g (SD_WINSIZE_PAGES l n) != 0)
  let x := s.lane l
  let keys := ((x.mem.map (fun e => e.1 / 8)).eraseDups).filter (fun w => (regionOf (8 * w) != .dram || x.written.contains (w / 512)) && ws.any (fun n =>
    decide (s.g (SD_WINBASE_BASE l n) ≤ w / 512) && decide (w / 512 < s.g (SD_WINBASE_BASE l n) + s.g (SD_WINSIZE_PAGES l n))))
  keys.foldl (fun d w => d + mixH (8 * w) (x.word w)) 0

/-! ### MMU faults (R151, R176) -/

/-- What an MMU fault records (R176). -/
structure MmuRec where
  cause : Nat
  access : Nat
  sup : Bool
  a : Nat
  entry : Nat := 0
  deriving DecidableEq, Repr

/-- A fault recorded for a core (R151). [DEDUCED: log 19] -/
def State.mmuRecord (s : State) (l c : Nat) (m : MmuRec) : State :=
  if s.on (MM_FSTAT_VALID l c) then s.p (MM_FSTAT_MORE l c) 1
  else
    let s := ((s.p (MM_FSTAT_VALID l c) 1).p (MM_FSTAT_CAUSE l c) m.cause).p (MM_FSTAT_ACCESS l c) m.access
    let s := (((s.pb (MM_FSTAT_PRIV l c) m.sup).p (MM_FSTAT_AHI l c) (m.a / 2 ^ 32)).p (MM_FSTAT_ENTRY l c) m.entry).p (MM_FSTAT_MORE l c) 0
    s.p (MM_FADDR_ALO l c) m.a

/-! ### A lane's place in its tasks -/

/-- A lane's place in a task. -/
def State.lt (s : State) (l t : Nat) : LaneTask := tabGet (fun _ => {}) (s.lane l).task t

/-- A lane's place in a task changed. -/
def State.modLt (s : State) (l t : Nat) (f : LaneTask → LaneTask) : State :=
  s.modLane l (fun x => { x with task := tabSet (fun _ => {}) x.task t (f (tabGet (fun _ => {}) x.task t)) })

/-- The descriptor of a task. -/
def State.desc (s : State) (t : Nat) : TaskDesc := tabGet (fun _ => {}) s.app.pkg.tasks t

/-! ### Retained memory (R155 to R157) -/

/-- The value a lane reads of a retained word: its own latest store, else MRAM (R157). -/
def State.retRead (s : State) (l a : Nat) : BitVec 64 :=
  match (s.lane l).rbuf.reverse.find? (fun e => e.a == a) with
  | some e => e.v
  | none => BitVec.ofNat 64 (leNat (s.app.retMem.rdN a 8))

/-- A word with the bytes of a mask replaced. -/
def maskMerge (old v : BitVec 64) (mask : Nat) : BitVec 64 :=
  (List.range 8).foldl (fun w i => if bit mask i then mergeBytes w i ((leBytes 8 v.toNat).drop i |>.take 1) else w) old

/-- The bytes the vote of a retained store compares: cycle, word, value. -/
def retBytes (cycle a : Nat) (v : BitVec 64) : List Byte := leBytes 8 cycle ++ leBytes 4 a ++ leBytes 8 v.toNat

/-- Is a store to a retained word an MMU fault with cause 0x6 (R155): over the limit of 256 distinct words, those of `more` counted too, or
of the runtime outside Starting? -/
def State.retOver (s : State) (l : Nat) (st : RetStream) (a : Nat) (more : List Nat) : Bool :=
  let words := match st with
    | .task t => (s.lt l t.val).retWords
    | .runtime => (s.lane l).runtimeWords
  let all := (words ++ more).eraseDups
  (!all.contains (a % 0x1000000 / 8 * 8) && decide (256 ≤ all.length)) || (st == .runtime && s.app.state != .starting)

/-- A lane's retained store (R155, R156): its word counted, held in the lane's buffer with the other stores of its cycle to that word
(R157), posted at its place in its stream. What follows a submission belongs to the next cycle (R99). -/
def State.retStore (s : State) (l : Lane) (st : RetStream) (a mask : Nat) (v : BitVec 64) : State :=
  let i := l.val
  let a := a % 0x1000000 / 8 * 8
  let x := s.lane i
  let v := maskMerge (s.retRead i a) v mask
  let add (ws : List Nat) : List Nat := if ws.contains a then ws else a :: ws
  let cycle := match st with
    | .task t => (s.lt i t.val).cycle + (if (s.lt i t.val).phase == .submitted then 1 else 0)
    | .runtime => 0
  let place := match st with
    | .task t => (s.lt i t.val).retPos
    | .runtime => x.runtimePos
  let s := match st with
    | .task t => s.modLt i t.val (fun y => { y with retWords := add y.retWords, retPos := place + 1 })
    | .runtime => s.modLane i (fun y => { y with runtimeWords := add y.runtimeWords, runtimePos := place + 1 })
  let s := s.modLane i (fun y => { y with
    rbuf := y.rbuf.filter (fun e => !(e.st == st && e.cycle == cycle && e.a == a)) ++ [{ st := st, cycle := cycle, place := place, a := a, v := v }] })
  let s := s.retPend i
  (s.postStream .retained st place l (retBytes cycle a v)).1

/-! ### Submissions (R46 to R48) -/

/-- A submission has been sent (R71). -/
def State.sendTick (s : State) (l : Nat) : State :=
  if s.on (VX_SUBSTAT_BUSY l) && decide ((s.lane l).sendUntil ≤ s.tu.upNs) then s.p (VX_SUBSTAT_BUSY l) 0 else s

/-- Does an output-image word belong to a task's output range in a lane (R46)? -/
def State.ownsWord (s : State) (l t w : Nat) : Bool :=
  decide (s.g (VX_ORANGE_FIRST l t) ≤ w) && decide (w < s.g (VX_ORANGE_FIRST l t) + s.g (VX_ORANGE_COUNT l t))

/-- Rising word indices grouped into runs of at most 2,048 words (R47). -/
def runsOf (word : Nat → BitVec 64) : List Nat → List (Nat × List (BitVec 64))
  | [] => []
  | w :: ws => match runsOf word ws with
    | (o, vs) :: rs => if o == w + 1 && vs.length < 2048 then (w, word w :: vs) :: rs else (w, [word w]) :: (o, vs) :: rs
    | [] => [(w, [word w])]

/-- The size of a delta in bytes (R47, R48). -/
def deltaBytes (rs : List (Nat × List (BitVec 64))) : Nat := rs.foldl (fun n r => n + 4 + 8 * r.2.length) 0

/-- What a lane submits for a task now (R46 to R48). -/
def State.submission (s : State) (l t : Nat) : Sub :=
  let x := s.lane l
  let ws := sortBy (fun a b => decide (a ≤ b)) (x.dirty.filter (s.ownsWord l t))
  let rs := runsOf (fun w => x.word (outBase / 8 + w)) ws
  let excess := deltaBytes rs > 16384
  { oversize := excess, runs := if excess then [] else rs, digest := x.dig t }

/-- A change of a submission that its own lane makes (R46, R48, R71): the digest latched, the dirty words taken, the status. It is being sent
for the worst-case latency of R41. [DESIGN CHOICE: log 102] -/
def State.submitted (s : State) (l t : Nat) (u : Sub) : State :=
  let x := s.lane l
  let s := s.setLane l { x with dirty := x.dirty.filter (fun w => !s.ownsWord l t w), snap := tabSet (fun _ => 0) x.snap t u.digest }
  let s := (s.pb (VX_SUBSTAT_OVERSIZE l) u.oversize).p (VX_SUBSTAT_TASK l) t
  let s := (s.p (VX_SUBSTAT_LEN l) (deltaBytes u.runs)).p (VX_SUBSTAT_BUSY l) 1
  let s := s.modLane l (fun x => { x with sendUntil := s.tu.upNs + 400 + deltaBytes u.runs / 8 })
  s.modLt l t (fun y => { y with phase := .submitted, retWords := [] })

end Sys2Proof.Machine
end

