-- ==== Sys2Proof/Machine/CoreFault.lean ====
section
/-! DEFINITION. A lane's cores at work: which of them run (R63, R79, R172), speculation contexts (R126 to R136) and their deferral queue
(R134), the synchronous exceptions, held or taken (R135, R151, R152). -/

namespace Sys2Proof.Machine

/-! ### Which cores run -/

/-- The field of a pair's mode. -/
def pairModeFld (l : Nat) : Nat → Fld
  | 0 => PX_MODE_MODE0 l
  | 1 => PX_MODE_MODE1 l
  | 2 => PX_MODE_MODE2 l
  | _ => PX_MODE_MODE3 l

/-- The mode of a pair (R79). -/
def State.pairMode (s : State) (l p : Nat) : Nat := s.g (pairModeFld l p)

/-- Do a lane's cores run? Those of a lane in reset, out or absent do not (R63), nor those of a lane that is parked (R172). -/
def State.coresRun (s : State) (l : Nat) : Bool :=
  let st := s.laneSt l
  (st == laVoting || st == laSpare || st == laPreparing || st == laCopying) && !(s.lane l).asleep

/-- Does a pair run: its lane does, no fault has halted it (R78, R152), no dispatch stalls it (R85), no split or join sequence runs on it
(R79)? -/
def State.pairRuns (s : State) (l p : Nat) : Bool :=
  let x := s.lane l
  s.coresRun l && !x.halted.contains p && !x.stalledPairs.contains p && s.pairMode l p != 1 && s.pairMode l p != 3

/-! ### Speculation contexts -/

/-- A task's context in a lane. -/
def State.ctx (s : State) (l t : Nat) : SpecCtx := tabGet (fun _ => {}) (s.lane l).spec t

/-- A context changed. -/
def State.modCtx (s : State) (l t : Nat) (f : SpecCtx → SpecCtx) : State :=
  s.modLane l (fun x => { x with spec := tabSet (fun _ => {}) x.spec t (f (tabGet (fun _ => {}) x.spec t)) })

/-- The states of a context (R147). -/
abbrev csIdle : Nat := 0
abbrev csRunning : Nat := 1
abbrev csStalled : Nat := 2
abbrev csCommitting : Nat := 3
abbrev csRollback : Nat := 4

/-- The task that `RA_PAIRCTXp` names (R132). -/
def State.pairTask (s : State) (l p : Nat) : Option Nat :=
  if s.on (RA_PAIRCTX_VALID l p) then some (s.g (RA_PAIRCTX_TASK l p)) else none

/-- Are a task's accesses speculative (R132)? Its context is open, not committed and not stalled, and its pair runs it. -/
def State.speculates (s : State) (l t : Nat) : Bool :=
  s.g (RA_CTX_STATE l t) == csRunning && s.pairTask l (s.desc t).pair == some t

/-- The clock of a context's speculative execution (R147): what has run since it was set counts, and it runs on while the context does. -/
def State.ctxClock (s : State) (l t : Nat) : State :=
  let on := s.speculates l t && s.pairRuns l (s.desc t).pair
  let now := s.tu.upNs
  s.modCtx l t (fun c => { c with
    ran := c.ran + (match c.runSince with
      | some a => now - a
      | none => 0)
    runSince := if on then some now else none })

/-- A write of `RA_PAIRCTXp` (R132): the task that runs on a pair. The clocks of the contexts follow (R147). -/
def State.pairCtx (s : State) (l p : Nat) (v : Word) : State :=
  let s := (s.p (RA_PAIRCTX_TASK l p) v.toNat).p (RA_PAIRCTX_VALID l p) (getBits v 4 1)
  ((s.lane l).spec.map (·.1)).foldl (fun (s : State) t => s.ctxClock l t) s

/-- A context stalls until its verdict, before an access and what follows it (R132, R144). -/
def State.stallCtx (s : State) (l t : Nat) (ops : List CoreOp) : State :=
  ((s.p (RA_CTX_STATE l t) csStalled).modCtx l t (fun c => { c with stalled := ops })).ctxClock l t

/-- A synchronous exception of a speculating context is held (R135): the context stops at the access that raised it. -/
def State.holdCtx (s : State) (l t : Nat) (ops : List CoreOp) : State := (s.stallCtx l t ops).p (RA_CTX_HELD l t) 1

/-- The entries of a lane's deferral queue (R134). -/
def LaneSt.dqUsed (x : LaneSt) : Nat := x.spec.foldl (fun n e => n + e.2.dq.length) 0

/-- `RA_DQ.USED` follows the queue. -/
def State.dqShow (s : State) (l : Nat) : State := s.p (RA_DQ_USED l) (s.lane l).dqUsed

/-- A write enters the deferral queue: word address, byte mask, value; a full queue stalls the context before `op` (R134). -/
def State.deferWrite (s : State) (l t w mask : Nat) (v : BitVec 64) (op : CoreOp) : State :=
  if (s.lane l).dqUsed ≥ 256 then s.stallCtx l t [op]
  else (s.modCtx l t (fun c => { c with dq := c.dq ++ [(w, mask, v)] })).dqShow l

/-- The value a context reads of a retained word: its own queued writes over what the lane reads (R132). -/
def State.specRetRead (s : State) (l t a : Nat) : BitVec 64 :=
  (s.ctx l t).dq.foldl (fun (v : BitVec 64) (e : Nat × Nat × BitVec 64) =>
    if e.1 == 0x1C0000000 + a then maskMerge v e.2.2 e.2.1 else v) (s.retRead l a)

/-! ### Exceptions (R132, R135, R151, R152) -/

/-- A task's cycle in a lane is abandoned (R71, R100): nothing is sent and the digest is not latched; the words written and the
retained words counted stay for the next submission. -/
def State.abandonCycle (s : State) (l t : Nat) : State := s.modLt l t (fun y => { y with phase := .abandoned })

/-- The exceptions of a core: an MMU fault, an IOMMU fault, an illegal instruction or arithmetic trap. The codes are the model's own.
[DESIGN CHOICE: log 1] -/
abbrev exMmu : Nat := 0x151
abbrev exIommu : Nat := 0x163
abbrev exTrap : Nat := 0x135

/-- The core that takes an exception: the leading core of a pair that is not split (R151). -/
def State.faultCore (s : State) (l c : Nat) : Nat := if s.pairMode l (c / 2) == 2 then c else c / 2 * 2

/-- A core takes an exception. -/
def State.raise (s : State) (l c code : Nat) : State := s.emit (.exception l (s.faultCore l c) code)

/-- The values that `SOURCE` takes (R497). -/
def evSources : List Nat := (List.range 43).map (0x100 + ·) ++ (List.range 9).map (0x200 + ·)

/-- A lane's runtime records the fault status of a core (R152): source and code are free values. [DESIGN CHOICE: log 121] -/
def State.mmuEvent (s : State) (l c : Nat) : State :=
  let w := Config.freeWord s.free
  let src := evSources.getD (getBits w 0 16 % evSources.length) 0x100
  ({ s with free := s.free + 1 }).recordEv
    { source := src, code := getBits w 16 16, cls := 0xFF, data := leBytes 4 (s.word (MM_FSTAT_VALID l c)).toNat }

/-- What the runtime does about an MMU fault: at user privilege it ends the task's cycle, at supervisor privilege it stops (R152).
[DEDUCED: log 60] -/
def State.afterFault (s : State) (l : Nat) (t : Option Nat) (sup : Bool) : State :=
  if sup then s.modLane l (fun x => { x with halted := [0, 1, 2, 3] })
  else match t with
    | some t => if (s.lt l t).phase == .executing then s.abandonCycle l t else s
    | none => s

/-- An MMU fault taken outside speculation: recorded for its core, then raised; a runtime that still runs records it as an event
before it ends the cycle (R151, R152). -/
def State.mmuFault (s : State) (l c : Nat) (t : Option Nat) (m : MmuRec) : State :=
  let s := (s.mmuRecord l (s.faultCore l c) m).raise l c exMmu
  (if m.sup then s else s.mmuEvent l (s.faultCore l c)).afterFault l t m.sup

/-- The core of a task's access: the trailing core only where the access is the trailing core's. -/
def State.taskCore (s : State) (t : Nat) (odd : Bool) : Nat := 2 * (s.desc t).pair + (if odd then 1 else 0)

end Sys2Proof.Machine
end

