-- ==== Sys2Proof/Machine/Rack.lean ====
section
/-! DEFINITION. The rack bridge: enumeration (R358, R359), voted accesses (R362, R363), completions and timers (R361), error
messages (R368), the exchange window (R169 to R171, R370); the legacy serial bus (R371 to R374). -/

namespace Sys2Proof.Machine

/-! ### Enumeration and configuration -/

/-- One configured window of a card, enabled (R359). -/
def State.openWindow (s : State) (k w : Nat) (base pages : Nat) (pf rs : Bool) : State :=
  let s := ((s.p (RB_WBASE_VALID k w) 1).p (RB_WBASE_BASE k w) base).p (RB_WCFG_PAGES k w) (pages - 1)
  let s := ((s.pb (RB_WCFG_RS k w) rs).pb (RB_WCFG_PF k w) pf).pb (RB_WCFG_PFEFF k w) (pf && !rs)
  let s := s.emit (.rackConfig k (24 + 4 * w) (base * 4096))
  if pf && rs then
    let s := (s.p (RB_WCFG_CONFLICT k w) 1).p RB_STAT_PFCONF 1
    s.notice 0x1E 0x0005 k (s.word (RB_WCFG_PF k w))
  else s

/-- A slot's header against the configuration (R358, R359). -/
def State.enumSlot (s : State) (cards : List CardHeader) (descs : List CardDesc) (k : Nat) : State :=
  let d := descs.find? (fun d => d.slot == k)
  match cards.find? (fun c => c.slot.val == k) with
  | none => if d.isSome then s.notice 0x1E 0x0004 k (s.word (RB_CARD_PRESENT k)) else s
  | some c =>
    let w i := (c.words[i]?).getD (0 : Word)
    let cls := getBits (w 0) 0 16
    let model := getBits (w 0) 16 16
    let nwin := getBits (w 1) 8 8
    let s := ((s.p (RB_CARD_PRESENT k) 1).p (RB_CARD_NWIN k) nwin).p (RB_CARD_REV k) (getBits (w 1) 0 8)
    let s := (s.p (RB_CARD_MODEL k) model).p (RB_CLASS_CLASS k) cls
    let s := (List.range (min nwin 2)).foldl (fun (s : State) i =>
      (s.p (RB_WCFG_PAGES k i) ((w (2 + 2 * i)).toNat - 1)).p (RB_WCFG_RS k i) (getBits (w (3 + 2 * i)) 0 1)) s
    match d with
    | some d =>
      let sizes := (List.range d.wins.length).map (fun i => (w (2 + 2 * i)).toNat)
      if d.cls == cls && d.model == model && d.wins.length == nwin && (d.wins.map (fun x => x.2.1)) == sizes then
        let s := s.p (RB_CARD_CFGOK k) 1
        (d.wins.zipIdx).foldl (fun s x => s.openWindow k x.2 x.1.1 x.1.2.1 x.1.2.2 (getBits (w (3 + 2 * x.2)) 0 1 == 1)) s
      else s.notice 0x1E 0x0004 k (s.word (RB_CARD_PRESENT k))
    | none => s.notice 0x1E 0x0004 k (s.word (RB_CARD_PRESENT k))

/-- The bridge and serial fields that the Keeper writes from the configuration (R375, R376). -/
def State.rackConfig (s : State) (p : AppPkg) : State :=
  let s := s.pb RB_CTRL_EN (!p.cards.isEmpty)
  let s := ((s.pb RB_LSCTRL_EN (!p.serials.isEmpty)).p RB_LSCTRL_RATE p.serialRate).p RB_LSCTRL_CYCLE p.serialCycle
  let s := (List.range 32).foldl (fun (s : State) k => if k == 0 then s else s.p (RB_LSSTN_VALID k) 0) s
  p.serials.foldl (fun s d => ((s.p (RB_LSSTN_OUTLEN d.k) d.out).p (RB_LSSTN_INLEN d.k) d.inp).p (RB_LSSTN_VALID d.k) 1) s

/-- `ENUMERATION`: in Boot the bridge reads the header of every slot and the Keeper enables the windows that match (R358, R359); in
any slot but slot 0 it finds every slot empty (R542). [DEDUCED: log 75] -/
def execEnumeration (cards : List CardHeader) (s : State) : Res :=
  if s.mode != mBoot || s.on RB_STAT_ENUMDONE then .next s
  else
    let p := s.app.stored.getD {}
    let s := (List.range 15).foldl (fun s k => s.enumSlot (if s.pw.geo == 0 then cards else []) p.cards (k + 1)) s
    .next ((s.rackConfig p).p RB_STAT_ENUMDONE 1)

/-! ### The exchange window -/

/-- The base of the exchange window on the rack bus (R169, R370). -/
def winBase : Nat := 0xFFFF0000

/-- Is a rack-bus address in the exchange window? -/
def inWindow (a : Nat) : Bool := decide (winBase ≤ a) && decide (a < 0x100000000)

/-- The bytes that the vote of an access compares (R362): direction, address, size, data. -/
def reqBytes (q : RackReq) : List Byte :=
  leBytes 1 (if q.wr.isSome then 1 else 0) ++ leBytes 4 q.a ++ leBytes 2 q.len ++ ((q.wr.getD []).map (fun w => leBytes 4 w.toNat)).flatten

/-- The access that voted bytes say. -/
def reqOf (bs : List Byte) : RackReq :=
  { a := leAt bs 1 4, len := leAt bs 5 2, wr := if byteAt bs 0 == 1 then some (wordsOf (bs.drop 7)) else none }

/-- The data of a load that have arrived for its place (R363). -/
def State.loadOf (s : State) (t place : Nat) : Option (List Word) :=
  (s.rb.loads.find? (fun x => x.1 == t && x.2.1 == place)).map (·.2.2)

/-- The core that posted an access of its task, and its privilege. -/
def State.poster (s : State) (l t place : Nat) : Nat × Bool :=
  let x := tabGet (fun _ => (false, false)) (s.lt l t).posted place
  (s.taskCore t x.2, x.1)

/-- A bus error of the rack bus window (R149, R362): an MMU fault with cause 0x3 of the core that made the access, or the target error of
the DMA channel that waits for its data (R164). [DESIGN CHOICE: log 23] -/
def State.rackBusError (s : State) (l t place a : Nat) (wr : Bool) : State :=
  let s := (s.emit (.rackBusErr l t)).endWait l t place
  if (s.lane l).dmaWait.any (fun e => e.2 == (t, place)) then
    if (s.loadOf t place).isSome then s else { s with rb := { s.rb with loads := (t, place, []) :: s.rb.loads } }
  else
    let x := s.poster l t place
    s.mmuFault l x.1 (some t) { cause := 3, access := if wr then 1 else 0, sup := x.2, a := 0x200000000 + a }

/-- The rack-bus address a lane posted at a place of its task's stream. -/
def State.postedAt (s : State) (l t place : Nat) : Nat :=
  match s.streams.find? (fun v => v.kind == .rack && streamTask v.st == t && v.place == place) with
  | some v => match v.posts.find? (fun e => e.1.val == l) with
    | some e => (reqOf e.2).a
    | none => 0
  | none => 0

/-- Data delivered to lanes; none is a bus error (R363). -/
def State.giveLoad (s : State) (lanes : List Nat) (t place : Nat) (data : List Word) : State :=
  if data.isEmpty then lanes.foldl (fun s l => s.rackBusError l t place (s.postedAt l t place) false) s
  else
    let s := lanes.foldl (fun (s : State) l => s.endWait l t place) s
    s.emit (.rackData lanes t place data)

/-- The voted access to the exchange window that a port B access performs, if there is one: its next word, direction and value agree.
An access that performs none is the Keeper's own. [DESIGN CHOICE: log 120] -/
def PortB.takes (x : PortB) (word : Nat) (wr : Option Word) : Bool :=
  x.word == word && (match wr with
    | some v => x.wr && x.left.head? == some v
    | none => !x.wr)

/-- A port B access has ended: with data or as a write, or with a bus error after its retries (R169, R171). What it performed of a voted
access is done, and a finished read's data go to the lanes. -/
def State.winDone (s : State) (word : Nat) (wr v : Option Word) : State :=
  let s := match v, wr with
    | some v, _ => s.emit (.winB (4 * word) (some v))
    | none, some _ => s
    | none, none => s.emit (.winBusErr (4 * word))
  match s.rb.portB.find? (fun x => x.takes word wr) with
  | none => s
  | some x =>
    let rest := x.left.drop 1
    let got := x.got ++ v.toList
    let failed := !x.wr && v.isNone
    let done := rest.isEmpty || failed
    let go : PortB := { x with word := x.word + 1, left := rest, got := got }
    let ys := if done then s.rb.portB.erase x else s.rb.portB.map (fun y => if y == x then go else y)
    let s := { s with rb := { s.rb with portB := ys } }
    if done && !x.wr then
      let data := if failed then [] else got
      let lanes := s.loadLanes x.t x.place
      ({ s with rb := { s.rb with loads := (x.t, x.place, data) :: s.rb.loads } } : State).giveLoad lanes x.t x.place data
    else s

/-- The value of a window word as a read gives it: undefined after a collision (R15, R170). -/
def State.winRead (s : State) (word : Nat) (undef : Bool) : State × Word :=
  if undef then ({ s with free := s.free + 1 }, Config.freeWord s.free)
  else (s, BitVec.ofNat 32 (leNat (s.rb.win.rdN (4 * word) 4)))

/-- Accesses whose occupation has ended by clock `clk` deliver what they read (R169). [DEDUCED: log 76] -/
def State.winSettle (s : State) (clk : Nat) : State :=
  let s := match s.rb.winA with
    | some x =>
      if x.clk + 2 ≤ clk then
        let s := { s with rb := { s.rb with winA := none } }
        if x.due then
          let (s, v) := s.winRead x.word x.undef
          s.emit (.winA (winBase + 4 * x.word) (some v) x.busy)
        else s
      else s
    | none => s
  match s.rb.winB with
  | some x =>
    if x.clk + 2 ≤ clk then
      let s := { s with rb := { s.rb with winB := none } }
      if x.due then
        let (s, v) := s.winRead x.word x.undef
        s.winDone x.word none (some v)
      else s
    else s
  | none => s

/-- Does an access at `clk` to a word meet one that still occupies the array? -/
def WinAcc.meets (x : WinAcc) (clk word : Nat) : Bool := x.word == word && decide (clk < x.clk + 2)

/-- A collision counted and noted (R171). [DEDUCED: log 76] -/
def State.winCollide (s : State) (word : Nat) : State :=
  let s := { s with rb := { s.rb with collisions := s.rb.collisions + 1 } }
  s.noticeD 0x1E 0x0006 (leBytes 4 (4 * word))

/-- One word of the window written under byte enables. -/
def State.winWrite (s : State) (word : Nat) (v : Word) (be : Nat) : State :=
  { s with rb := { s.rb with win := (List.range 4).foldl (fun m i => if bit be i then m.wr (4 * word + i) (BitVec.ofNat 8 (v.toNat / 256 ^ i)) else m) s.rb.win } }

/-- The array takes a port's access. -/
def State.winTakeB (s : State) (word : Nat) (wr : Option Word) (clk : Nat) (undef : Bool) : State :=
  match wr with
  | some v =>
    let s := s.winWrite word v 15
    let s := { s with rb := { s.rb with winB := some { clk := clk, word := word, wr := true }, retry := none } }
    (s.emit (.winB (4 * word) none)).winDone word (some v) none
  | none => { s with rb := { s.rb with winB := some { clk := clk, word := word, wr := false, due := true, undef := undef }, retry := none } }

/-- The last write that port A was told is performed is told `BUSY` instead: of an access of port B at its clock it counts as the later
(R169). -/
def reBusy (a : Nat) : List TxItem → List TxItem
  | [] => []
  | x :: xs => if x == .winA a none false then .winA a none true :: xs else x :: reBusy a xs

/-- A port B access sampled at the clock of a port A access to the same word that was taken first: port A counts as the later, so what
it did is taken back and done in that order (R169, R170). -/
def State.winSame (s : State) (x : WinAcc) (word : Nat) (wr : Option Word) (clk : Nat) : State :=
  match x.wr, wr with
  | true, none =>
    let s := s.winWrite word x.old 15
    let s := ({ s with tx := reBusy (winBase + 4 * word) s.tx, rb := { s.rb with winA := some { x with busy := true } } } : State).inc RB_BUSYCNT_COUNT
    s.winTakeB word none clk true
  | true, some v => ((s.winWrite word x.old 15).winTakeB word (some v) clk false).winWrite word x.val x.be
  | false, some v =>
    let s := ({ s with rb := { s.rb with winA := some { x with undef := true, busy := true } } } : State).inc RB_BUSYCNT_COUNT
    s.winTakeB word (some v) clk false
  | false, none => s.winTakeB word none clk false

/-- A port B access at a clock, its `tries` earlier ones having met `BUSY` (R170, R171). -/
def State.winTryB (s : State) (word : Nat) (wr : Option Word) (clk tries : Nat) : State :=
  let s := s.winSettle clk
  let hit := match s.rb.winA with
    | some x => if x.meets clk word then some x else none
    | none => none
  let s := if hit.isSome then s.winCollide word else s
  match hit with
  | none => s.winTakeB word wr clk false
  | some x =>
    if x.clk == clk && !x.busy then s.winSame x word wr clk
    else if x.wr != wr.isSome then
      let s := { s with rb := { s.rb with winA := some { x with undef := !x.wr } } }
      let s := { s with rb := { s.rb with winB := some { clk := clk, word := word, wr := wr.isSome }, retry := none } }
      if tries ≥ 16 then
        let s := s.notice 0x1E 0x0007 0 0
        match wr with
        | none => s.winDone word none none
        | some v => (s.emit (.winBusErr (4 * word))).winDone word (some v) none
      else { s with rb := { s.rb with retry := some { word := word, wr := wr, clk := clk + 2, tries := tries + 1 } } }
    else s.winTakeB word wr clk false

/-- The retries of port B due by clock `clk` (R171): at most seventeen attempts. [DEDUCED: log 76] -/
def State.winRetries (s : State) (clk : Nat) : Nat → State
  | 0 => s
  | n + 1 => match s.rb.retry with
    | some x => if x.clk ≤ clk then (s.winTryB x.word x.wr x.clk x.tries).winRetries clk n else s
    | none => s

/-- Time passes with no further access: the retries end and every read delivers. -/
def State.winIdle (s : State) : State :=
  let far := 2 ^ 64 + (match s.rb.retry with
    | some x => x.clk
    | none => 0)
  (s.winRetries far 17).winSettle (far + (match s.rb.winA, s.rb.winB with
    | some x, some y => x.clk + y.clk
    | some x, none => x.clk
    | none, some y => y.clk
    | none, none => 0) + 64)

/-- A port A access at a clock (R170, R370). [DEDUCED: log 76] -/
def State.winPortA (s : State) (a : Nat) (wr : Option (Word × Nat)) (clk : Nat) : State :=
  if !inWindow a then s
  else
    let word := (a - winBase) / 4
    let s := (s.winRetries clk 17).winSettle clk
    let hit := match s.rb.winB with
      | some x => if x.meets clk word then some x else none
      | none => none
    let s := if hit.isSome then s.winCollide word else s
    let busy := match hit with
      | some x => x.wr != wr.isSome
      | none => false
    if busy then
      let s := match hit with
        | some x => { s with rb := { s.rb with winB := some { x with undef := !x.wr } } }
        | none => s
      let s := ({ s with rb := { s.rb with winA := some { clk := clk, word := word, wr := wr.isSome, busy := true } } } : State).inc RB_BUSYCNT_COUNT
      if wr.isSome then s.emit (.winA a none true)
      else
        let (s, v) := s.winRead word true
        s.emit (.winA a (some v) true)
    else match wr with
    | some (v, be) =>
      let old := BitVec.ofNat 32 (leNat (s.rb.win.rdN (4 * word) 4))
      let s := s.winWrite word v be
      ({ s with rb := { s.rb with winA := some { clk := clk, word := word, wr := true, old := old, val := v, be := be } } } : State).emit (.winA a none false)
    | none => { s with rb := { s.rb with winA := some { clk := clk, word := word, wr := false, due := true } } }

/-- `WINDOW_PORT_B_ACCESS`: an access to port B at window clock `clk`; of a collision port A counts as the later at the same
clock (R169 to R171). -/
def execWindowPortBAccess (off : Nat) (wr : Option Word) (clk : Nat) (s : State) : Res :=
  if off < 0x10000 then .next ((s.winRetries clk 17).winTryB (off / 4) wr clk 0) else .next s

/-- `WINDOW_READ`: a card's window read on port A (R169, R170, R370). -/
def execWindowRead (a clk : Nat) (s : State) : Res := .next (s.winPortA a none clk)

/-- `WINDOW_WRITE`: a card's window write on port A (R169, R170, R370). -/
def execWindowWrite (a : Nat) (v : Word) (be : BitVec 4) (clk : Nat) (s : State) : Res :=
  .next (s.winPortA a (some (v, be.toNat)) clk)

/-! ### Voted accesses -/

/-- The bridge acts once on a voted access (R363); one to the exchange window waits for port B to perform it (R169). -/
def State.rackAct (s : State) (t place : Nat) (q : RackReq) (cycle : Nat) : State :=
  let words := (q.a % 4 + q.len + 3) / 4
  if inWindow q.a then
    let x : PortB := { t := t, place := place, word := (q.a - winBase) / 4, wr := q.wr.isSome, left := q.wr.getD (List.replicate words 0) }
    { s with rb := { s.rb with portB := s.rb.portB ++ [x] } }
  else match q.wr with
  | some data => s.postWrite ((s.window q.a).elim 0 (·.1)) q.a data 0 t cycle
  | none =>
    if (s.window q.a).isNone then
      let lanes := s.loadLanes t place
      ({ s with rb := { s.rb with loads := (t, place, []) :: s.rb.loads } } : State).giveLoad lanes t place []
    else s.askRead { who := .lane t place, slot := 0, a := q.a, words := words, cycle := cycle }

/-- May a lane's task reach the rack bus (R93, R362)? -/
def State.reaches (s : State) (l t : Nat) : Bool := s.liveLanes.contains l && (s.desc t).directio

/-- A lane posts an access of a `DIRECTIO` task (R362, R363). While the bridge is off it returns a bus error (R375).
[DESIGN CHOICE: log 23] -/
def State.rackPost (s : State) (l : Lane) (t : Task) (acc : RackReq) (sup odd : Bool) : State :=
  let place := (s.lt l.val t.val).rackPos
  let s := s.modLt l.val t.val (fun x => { x with rackPos := place + 1, posted := tabSet (fun _ => (false, false)) x.posted place (sup, odd) })
  if !s.on RB_CTRL_EN then s.rackBusError l.val t.val place acc.a acc.wr.isSome
  else
    let x' := s.postStream .rack (.task t) place l (reqBytes acc)
    let before := s
    let s := x'.1
    match x'.2 with
    | .formed w => s.rackAct t.val place (reqOf w) (s.lt l.val t.val).cycle
    | .joined w =>
      if (reqOf w).wr.isSome then s
      else match s.loadOf t.val place with
      | some data => s.giveLoad [l.val] t.val place data
      | none => s
    | .failed lanes =>
      if acc.wr.isNone then lanes.foldl (fun (s' : State) (l' : Nat) =>
        s'.rackBusError l' t.val place (if l' == l.val then acc.a else before.postedAt l' t.val place) false) s
      else s
    | _ => s

/-! ### Completions, timers, errors -/

/-- A completion that nobody waits for: counted, noted (R361). -/
def State.unexpected (s : State) : State :=
  let s := (s.inc RB_UNEXP_COUNT).p RB_STAT_UNEXP 1
  s.notice 0x1E 0x0002 0 (s.word RB_STAT_UNEXP)

/-- A completion discarded (R361). -/
def State.discard (s : State) : State := (s.inc RB_DISCNT_COUNT).p RB_STAT_DISC 1

/-- Does the prefetch buffer of tag `k` still wait for its block (R366)? -/
def State.fills (s : State) (k b : Nat) : Bool := (s.pfBuf b).valid && (s.pfBuf b).tag == k && (s.pfBuf b).data.isNone

/-- Has everyone who asked for the read of tag `k` gone: every lane excluded or stopped, the prefetch buffer invalidated (R361)? -/
def State.abandoned (s : State) (k : Nat) (x : RdTag) : Bool :=
  x.reqs.all (fun r => match r.who with
    | .lane t place => (s.loadLanes t place).isEmpty
    | .image _ _ => !s.running) &&
  (match x.buf with
    | some b => !s.fills k b
    | none => true)

/-- A read under tag `k` has ended for the prefetch buffer that waits for it: with its block, or with none (R366). -/
def State.fillBuf (s : State) (k b : Nat) (d : Option (List Word)) : State :=
  if s.fills k b then
    match d with
    | some w => s.modPf b (fun y => { y with data := some w })
    | none => s.modPf b (fun _ => {})
  else s

/-- `READ_COMPLETION`: a card's completion arrives (R361, R363, R366). -/
def execReadCompletion (tag : Fin 32) (code : Nat) (data : List Word) (s : State) : Res :=
  let k := tag.val
  let x := s.tag k
  let code := if code > 4 then 3 else code
  if x.st == 2 then .next s.discard
  else if x.st != 1 then .next s.unexpected
  else if s.abandoned k x then .next (s.setTag k { x with st := 3 })
  else
    let s := match x.buf with
      | some b => s.fillBuf k b (if code == 0 then some data else none)
      | none => s
    let s := x.reqs.foldl (fun s r => s.endRead r code (if x.buf.isSome then (data.drop (r.a % 64 / 4)).take r.words else data)) s
    .next (s.freeTagNow k)

/-- `READ_TIMEOUT`: a read's completion has not begun within `RDTMO` (R361, R363). -/
def execReadTimeout (tag : Fin 32) (s : State) : Res :=
  let k := tag.val
  let x := s.tag k
  if x.st != 1 then .next s
  else
    let s := match x.buf with
      | some b => s.fillBuf k b none
      | none => s
    let s := x.reqs.foldl (fun s r => s.endRead r 8 []) s
    .next (s.setTag k { x with st := 2, reqs := [], buf := none })

/-- `DISCARD_TIMER_EXPIRY`: a quarantine ends, or a completion that was not collected is discarded; the tag is free (R361). -/
def execDiscardTimerExpiry (tag : Fin 32) (s : State) : Res :=
  let k := tag.val
  match (s.tag k).st with
  | 2 => .next (s.freeTagNow k)
  | 3 => .next (s.discard.freeTagNow k)
  | _ => .next s

/-- The posted writes that an error message can mean, newest first (R368): sequence numbers. -/
def State.errMatches (s : State) (slot tag a : Nat) : List Nat :=
  let n := s.g RB_WSEQ_SEQ
  ((List.range (min 1024 s.rb.posted)).map (fun j => (n + 2 ^ 32 - 1 - j) % 2 ^ 32)).filter (fun q =>
    let i := q % 1024
    q % 32 == tag && s.g (RB_WHINFO_SLOT i) == slot && decide (s.g (RB_WHADDR_ADDR i) / 4 ≤ a / 4) &&
    decide (a / 4 < s.g (RB_WHADDR_ADDR i) / 4 + s.g (RB_WHINFO_LEN i) + 1))

/-- `ERROR_MESSAGE`: a card reports a failed posted write (R368, R369). [DEDUCED: log 75] -/
def execErrorMessage (slot : Fin 16) (tag : Fin 32) (code : Fin 8) (a : Nat) (s : State) : Res :=
  if code.val == 0 then .next s
  else
    let code := if code.val > 4 then 3 else code.val
    let ms := s.errMatches slot.val tag.val a
    let i := ms.headD 0 % 1024
    let hit := !ms.isEmpty
    let f (x : Fld) := if hit then s.g x else 0
    let task := f (RB_WHINFO_TASK i)
    let src := f (RB_WHINFO_SRC i)
    let cyc := if src == 2 then 0 else f (RB_WHCYC_CYCLE i)
    let s := ((s.p RB_EADDR_ADDR a).p RB_EINFO_SLOT slot.val).p RB_EINFO_TAG tag.val
    let s := ((s.p RB_EINFO_CODE code).pb RB_EINFO_MATCH hit).p RB_EINFO_TASK task
    let s := (s.p RB_EINFO_SRC src).pb RB_EINFO_AMBIG (ms.length ≥ 2)
    let s := (s.p RB_ESEQ_SEQ (if hit then ms.headD 0 else 0xFFFFFFFF)).p RB_ECYC_CYCLE cyc
    let s := (s.p RB_STAT_WERR 1).inc RB_WERRCNT_COUNT
    let data := leBytes 1 slot.val ++ leBytes 3 0 ++ leBytes 4 (s.word RB_EINFO_SLOT).toNat ++ leBytes 4 a ++ leBytes 4 cyc
    let s := s.noticeD 0x1E 0x0001 data
    let s := s.post { evseq := s.seqOf { source := 0x011E, code := 1, cls := 0, data := data }
                      source := 0x011E, code := 1, cat := 4, cls := 0, data := data }
    if hit && src != 2 then
      .next (s.modRbTask task (fun x => { x with werr := min 255 (x.werr + 1), code := code, slot := slot.val, a := a, cycle := cyc
                                                 ambig := decide (ms.length ≥ 2) }))
    else .next s

/-- `PREFETCH_EXPIRY`: a prefetch buffer is 20 µs old (R366). -/
def execPrefetchExpiry (b : Fin 8) (s : State) : Res := .next (s.dropPf b.val)

/-! ### The legacy serial bus -/

/-- A station's state. -/
def State.lsStn (s : State) (k : Nat) : LsStn := tabGet (fun _ => {}) s.rb.ls k

/-- A station's state replaced. -/
def State.setLs (s : State) (k : Nat) (x : LsStn) : State :=
  { s with rb := { s.rb with ls := tabSet (fun _ => {}) s.rb.ls k x } }

/-- CRC-16 of R372. -/
def crc16 (bs : List Byte) : Nat := crcRunL 16 0x1021 0xFFFF bs

/-- A serial frame (R372). -/
def serialBytes (k seq : Nat) (resp : Bool) (data : List Byte) : List Byte :=
  let m := beBytes 1 (k + (if resp then 128 else 0)) ++ beBytes 1 seq ++ beBytes 1 data.length ++ data
  beBytes 1 0xB6 ++ m ++ beBytes 2 (crc16 m)

/-- The output words of a station whose commit time is at or before the request's start are in its output area (R373). -/
def State.settleSerial (s : State) (k : Nat) : State :=
  let mine (p : Part) : Bool := (match p.tgt with
    | .serial k' _ => k' == k
    | _ => false) && decide (p.commit ≤ s.now)
  let due := s.parts.filter mine
  due.foldl State.applyPart { s with parts := s.parts.filter (fun p => !mine p) }

/-- The next station of the cycle is polled (R373): its request leaves on both lines. While gated no request is sent (R379).
[DEDUCED: log 77] -/
def State.lsPoll (s : State) : State :=
  match s.rb.lsLeft with
  | [] => { s with rb := { s.rb with lsNow := none } }
  | k :: ks =>
    let x := s.lsStn k
    let seq := (x.seq + 1) % 256
    let s := (s.setLs k { x with seq := seq }).settleSerial k
    let s := { s with rb := { s.rb with lsNow := some k, lsLeft := ks, lsA := none, lsB := none } }
    s.emit (.serialFrame (serialBytes k seq false (s.netOut.rdN (serialBase k) (s.g (RB_LSSTN_OUTLEN k)))))

/-- `LSB_CYCLE`: a serial cycle begins at a multiple of `CYCLE` ms (R373). -/
def execLsbCycle (s : State) : Res :=
  if !s.on RB_LSCTRL_EN || s.gated || s.mode == mSafeHalt || s.heldPort 0x30 || s.heldPort 0x31 then .next s
  else
    let ks := (List.range 32).filter (fun k => k != 0 && s.on (RB_LSSTN_VALID k))
    .next ({ s with rb := { s.rb with lsLeft := ks } } : State).lsPoll

/-- A line's run of failures while the other line delivers, and of successes (R374). -/
def lineCount (ok other : Bool) (miss good : Nat) : Nat × Nat :=
  if ok then (0, good + 1) else if other then (miss + 1, 0) else (0, 0)

/-- A line's failure flag follows its runs (R374). [DEDUCED: log 77] -/
def State.lineFail (s : State) (f : Fld) (line miss good : Nat) : State :=
  if miss ≥ 8 && !s.on f then
    let s := s.p f 1
    s.notice 0x1E 0x0008 line (s.word RB_LSSTAT_AFAIL)
  else if good ≥ 8 then s.p f 0 else s

/-- A line's answer to the present poll is known; with both known the next station is polled (R371, R374). [DEDUCED: log 77] -/
def State.lsAnswer (s : State) (line : SerialLine) (ok : Bool) : State :=
  let s := if ok then s else match line with
    | .a => s.inc RB_LSERRA_COUNT
    | .b => s.inc RB_LSERRB_COUNT
  let s := match line with
    | .a => { s with rb := { s.rb with lsA := some ok } }
    | .b => { s with rb := { s.rb with lsB := some ok } }
  match s.rb.lsA, s.rb.lsB with
  | some a, some b =>
    let (ma, ga) := lineCount a b s.rb.lsMissA s.rb.lsOkA
    let (mb, gb) := lineCount b a s.rb.lsMissB s.rb.lsOkB
    let s := { s with rb := { s.rb with lsMissA := ma, lsOkA := ga, lsMissB := mb, lsOkB := gb } }
    let s := (s.lineFail RB_LSSTAT_AFAIL 1 ma ga).lineFail RB_LSSTAT_BFAIL 2 mb gb
    let s := if a || b then s else s.inc RB_LSNORESP_COUNT
    s.lsPoll
  | _, _ => s

/-- Has a line not answered the present poll yet? [DEDUCED: log 77] -/
def State.lsWaits (s : State) : SerialLine → Bool
  | .a => s.rb.lsNow.isSome && s.rb.lsA.isNone
  | .b => s.rb.lsNow.isSome && s.rb.lsB.isNone

/-- The checks of R372 on a response to the poll of station `k`. -/
def State.lsOk (s : State) (k : Nat) (body : List Byte) (parityOk : Bool) : Bool :=
  let len := byteAt body 3
  parityOk && byteAt body 0 == 0xB6 && byteAt body 1 == 128 + k && byteAt body 2 == (s.lsStn k).seq &&
  len == s.g (RB_LSSTN_INLEN k) && body.length == 6 + len && beAt body (4 + len) 2 == crc16 ((body.drop 1).take (3 + len))

/-- `LSB_RESPONSE`: a response on a line (R371, R372): the first copy that passes every check is taken. -/
def execLsbResponse (line : SerialLine) (body : List Byte) (parityOk : Bool) (s : State) : Res :=
  match s.rb.lsNow with
  | none => .next s
  | some k =>
    if !s.lsWaits line then .next s
    else
      let ok := s.lsOk k body parityOk
      let first := s.rb.lsA != some true && s.rb.lsB != some true
      let s := if ok && first then s.setLs k { s.lsStn k with data := (body.drop 4).take (byteAt body 3), endAt := some s.now } else s
      .next (s.lsAnswer line ok)

/-- `LSB_RESPONSE_TIMEOUT`: a response has not begun within 60 bit times (R371, R374). [DESIGN CHOICE: log 9] -/
def execLsbResponseTimeout (line : SerialLine) (s : State) : Res :=
  if s.lsWaits line then .next (s.lsAnswer line false) else .next s

end Sys2Proof.Machine
end

