-- ==== Sys2Proof/Machine/UnitOps.lean ====
section
/-! DEFINITION. The unit (chapter 16): health records and eligibility, Light and Watch records, the lease and the act time,
the witness's verdicts. -/

namespace Sys2Proof.Machine

/-! ### Health and eligibility (R394, R395) -/

/-- Is a ring a Light ring of this module's unit? -/
def State.lightRing (s : State) (r : Nat) : Bool := s.on UN_CFG_EN && (if r == 0 then s.on UN_CFG_R1 else s.on UN_CFG_R2)

/-- The ring whose basic cycles count for the unit: the first Light ring. -/
def State.unitRing (s : State) : Nat := if s.on UN_CFG_R1 then 0 else 1

/-- The ring whose basic cycles count for the witness: the first ring in use. -/
def State.witRing (s : State) : Nat := if s.on (BZ_CTRL_EN 0) then 0 else 1

/-- Is the ring a Light ring in the stored unit configuration (R377)? -/
def State.unitLight (s : State) (r : Nat) : Bool :=
  match s.cfg.unit with
  | some u => if r == 0 then u.r1 else u.r2
  | none => false

/-- The bits of `ELIG` (R395). -/
def State.elig (s : State) : Nat :=
  let c := s.g UN_HEALTH_CHECKS
  let hs := s.mode == mHotStandby
  let iso := s.mode == mIsolated && s.un.isoUnit
  let e0 := hs && c % 256 == 255 && s.level ≥ 2 && !s.un.barred
  let e1 := (hs || iso) && c % 64 == 63 && bit c 7 && s.level ≥ 2 && !s.un.barred && !s.un.barred1
  (if e0 then 1 else 0) + (if e1 then 2 else 0)

/-- Does the module send health records in its mode (R378)? -/
def State.sendsHealth (s : State) : Bool :=
  s.on UN_CFG_EN && (s.mode == mActive || s.mode == mHotStandby || s.mode == mIsolated)

/-- The module's health record (R394). -/
def State.healthRecord (s : State) (r : Nat) : Option (List Byte) :=
  if s.sendsHealth then
    some (beBytes 2 (s.g UN_CFG_UNIT) ++ beBytes 1 (s.nodeId r) ++ beBytes 1 s.mode ++
      beBytes 4 ((mcNum s.now - 1) % 2 ^ 32) ++ beBytes 2 (s.g UN_HEALTH_CHECKS) ++ beBytes 1 s.level ++ beBytes 1 s.elig ++ beBytes 4 0)
  else none

/-- A health record read from its 16 bytes (R394): none with `UNIT` 0 or a nonzero reserved bit. -/
def parseHealth (b : List Byte) (at_ : Nat) : Option (Nat × Health) :=
  if beAt b 0 2 == 0 || byteAt b 8 != 0 || byteAt b 11 / 4 != 0 || beAt b 12 4 != 0 then none
  else some (beAt b 0 2, { node := byteAt b 2, mode := byteAt b 3, mcycl := beAt b 4 4, checks := beAt b 8 2
                           level := byteAt b 10, elig := byteAt b 11, at_ := at_ })

/-- The partner's health record accepted (R395, R401). -/
def State.partnerHealth (s : State) (h : Health) : State :=
  let s := (s.p UN_PHEALTH_CHECKS h.checks).p UN_PHEALTH_ELIG h.elig
  let s := s.pb UN_STAT_PELIG (bit h.elig 0)
  { s with un := { s.un with partner := some h } }

/-! ### Light records (R224, R384) -/

/-- The Light record the holder builds in the basic cycle that starts at `c`. -/
def State.lightRecord (s : State) (r c : Nat) : Option (List Byte) :=
  match s.un.curRen with
  | some n =>
    if s.lightRing r && s.mode == mActive then
      some (beBytes 2 (s.g UN_CFG_UNIT) ++ beBytes 1 (s.nodeId r) ++ beBytes 1 (s.g UN_CFG_PARTNER) ++ beBytes 4 n ++
        beBytes 4 ((c + 40000) % 2 ^ 32) ++ beBytes 1 s.level ++ beBytes 3 0)
    else none
  | none => none

/-- A frame with a Light record passes the holder's closure delay and leaves in the next basic cycle (R207, R384). -/
def State.holdLight (s : State) (r : Nat) (frame : List Byte) : State :=
  if s.mode == mSafeHalt then s
  else if r == 0 then { s with un := { s.un with light1 := some frame } }
  else { s with un := { s.un with light2 := some frame } }

/-- What the closure delay held leaves the module. -/
def State.flushLight (s : State) (r : Nat) : State :=
  match if r == 0 then s.un.light1 else s.un.light2 with
  | some f =>
    let s := s.emit (.ringFrame r (s.outPort r) f)
    if r == 0 then { s with un := { s.un with light1 := none } } else { s with un := { s.un with light2 := none } }
  | none => s

/-- The Hot-Standby mode of a module that returns to a holder (R396, R398). -/
def State.returnStandby (s : State) (row : Nat) : State :=
  let s := (s.setMode mHotStandby row).p UN_STAT_RSYNC 1
  let s := s.p UN_HEALTH_CHECKS (s.g UN_HEALTH_CHECKS - (if bit (s.g UN_HEALTH_CHECKS) 6 then 64 else 0))
  { s with un := { s.un with synced := false, resyncing := true, isoUnit := false } }

/-- Is at least one pair link up? -/
def State.pairUp (s : State) : Bool := s.on UN_STAT_PLK1 || s.on UN_STAT_PLK2

/-- The partner's Light record accepted (R398). -/
def State.holderHeard (s : State) (src level : Nat) : State :=
  let s := { s with un := { s.un with holder := some (src, s.now), holderLevel := level } }
  if s.mode == mIsolated && s.un.isoUnit && s.pairUp then s.returnStandby 0x1F else s

/-- Has the holder's Light record been accepted in this basic cycle or the two before it? [DEDUCED: log 84] -/
def State.holderThere (s : State) : Bool :=
  match s.un.holder with
  | some (_, t) => decide (bcStart s.now ≤ bcStart t + 40000)
  | none => false

/-! ### The witness (R385, R391) -/

/-- A witnessed unit's state. -/
def State.wit (s : State) (w : Nat) : WitSt := tabGet (fun _ => {}) s.un.wit w

/-- A witnessed unit's state changed. -/
def State.modWit (s : State) (w : Nat) (f : WitSt → WitSt) : State :=
  { s with un := { s.un with wit := tabSet (fun _ => {}) s.un.wit w (f (s.wit w)) } }

/-- The partner of a unit node. -/
def State.witPartner (s : State) (w h : Nat) : Nat :=
  if h == s.g (UN_WUNIT_NODEA w) then s.g (UN_WUNIT_NODEB w) else s.g (UN_WUNIT_NODEA w)

/-- Does a unit node's last health record, of this macrocycle or the one before, show a bit of `ELIG`? -/
def State.witElig (s : State) (w node b : Nat) : Bool :=
  let h := if node == s.g (UN_WUNIT_NODEA w) then (s.wit w).healthA else (s.wit w).healthB
  match h with
  | some h => bit h.elig b && decide (mcNum s.now ≤ h.at_ + 1)
  | none => false

/-- A renewal that the witness accepts (R385): learned in its first basic cycles, else valid when it is the expected one of the
recorded holder. -/
def State.witLight (s : State) (w src partner lseq : Nat) : State :=
  let x := s.wit w
  if x.cycles < 2 then s.modWit w (fun x => { x with holder := some src, former := some src, lseq := lseq, expect := (lseq + 1) % 2 ^ 32 })
  else if x.holder == some src && partner == s.witPartner w src && lseq == x.expect then
    s.modWit w (fun x => { x with met := some lseq })
  else s

/-- A Watch record (R225). -/
def watchBytes (unit verdict node lseq expns : Nat) : List Byte :=
  beBytes 2 unit ++ beBytes 1 verdict ++ beBytes 1 node ++ beBytes 4 lseq ++ beBytes 4 (expns % 2 ^ 32) ++ beBytes 4 0

/-- The basic cycle of the witness's slot at hand, by its own reference (R208, R385). -/
def State.witCycle (s : State) : Nat := bcStart (s.now - s.txD s.witRing)

/-- Rows 4 to 7 of R385: no renewal met and no grant of the last basic cycle. -/
def State.noRenewalRow (s : State) (w : Nat) (last : Nat × Nat × Nat × Nat × WitSt) : Nat × Nat × Nat × Nat × WitSt :=
  let x := s.wit w
  let b := s.witCycle
  let fresh (n : Nat) := (2, n, x.lseq, b + 40000,
    { x with holder := some n, former := some n, expect := (x.lseq + 1) % 2 ^ 32, grant := some (n, x.lseq, b) })
  match x.holder with
  | some h => if s.witElig w (s.witPartner w h) 0 then fresh (s.witPartner w h) else (3, h, x.lseq, b + 20000, { x with holder := none, former := some h })
  | none =>
    let a := s.g (UN_WUNIT_NODEA w)
    let c := s.g (UN_WUNIT_NODEB w)
    let cand := ((match x.former with
      | some f => [f]
      | none => []) ++ [min a c, max a c]).find? (fun n => s.witElig w n 1)
    match cand with
    | some n => fresh n
    | none => last

/-- What row of R385 holds: verdict, node, `LSEQ`, `EXPNS` and the witness's state after it. -/
def State.verdict (s : State) (w : Nat) : Nat × Nat × Nat × Nat × WitSt :=
  let x := s.wit w
  let b := s.witCycle
  let none_ := (3, x.former.getD 0xFF, x.lseq, b + 20000, { x with holder := none })
  match x.met, x.grant with
  | some n, _ => (1, x.holder.getD 0xFF, n, b + 20000, { x with lseq := n, expect := (n + 1) % 2 ^ 32 })
  | none, some (g, n, t) =>
    if t + 20000 == b then (2, g, n, b + 20000, x) else s.noRenewalRow w none_
  | none, none => s.noRenewalRow w none_

/-- The registers that show a verdict (R401). -/
def State.showVerdict (s : State) (w v : Nat) : State :=
  let x := s.wit w
  let s := (s.p (UN_WSTAT_VERDICT w) v).p (UN_WLSEQ_LSEQ w) x.expect
  (s.p (UN_WSTAT_HOLDER w) (x.holder.getD 0)).pb (UN_WSTAT_HELD w) x.holder.isSome

/-- `WATCH_VERDICT`: at its `WATCH` slot the witness decides the verdict by R385; a backup that has heard the witness repeats
it (R391). -/
def execWatchVerdict (w : Fin 4) (s : State) : Res :=
  let w := w.val
  if !s.on (UN_WUNIT_VALID w) then .next s
  else
    let x := s.wit w
    if x.cycles < 2 then .next ((s.modWit w (fun x => { x with verdict := none })).showVerdict w 0)
    else match (if s.on (UN_WUNIT_BACKUP w) then x.heard else none) with
    | some rec =>
      let v := byteAt rec 2
      let node := byteAt rec 3
      let lseq := beAt rec 4 4
      let s := s.modWit w (fun x => { x with
        verdict := some rec, lseq := lseq, expect := (lseq + 1) % 2 ^ 32
        grant := if v == 2 && beAt rec 8 4 == (s.witCycle + 40000) % 2 ^ 32 then some (node, lseq, s.witCycle) else x.grant
        holder := if v == 3 then none else some node, former := if node == 0xFF then x.former else some node })
      .next (s.showVerdict w v)
    | none =>
      let (v, node, lseq, expns, x') := s.verdict w
      let fresh := v == 2 && expns == s.witCycle + 40000
      let s := s.modWit w (fun _ => { x' with verdict := some (watchBytes (s.g (UN_WUNIT_UNIT w)) v node lseq expns) })
      let s := s.showVerdict w v
      if fresh then
        let s := s.inc (UN_WGRANT_COUNT w)
        .next (s.event 5 { source := 0x0204, code := 3, cls := 0xFF
                           data := leBytes 4 lseq ++ leBytes 4 ((s.witCycle + 21000) % 2 ^ 32) })
      else .next s

/-- The Watch record that this node sends in one of its `WATCH` entries: the k-th such entry of the ring carries the k-th
witnessed unit (R225). -/
def State.watchRecord (s : State) (r : Nat) (x : SchedEnt) : Option (List Byte) :=
  let own := (s.sched r).filter (fun e => e.watch && e.node == s.nodeId r)
  let ws := (List.range 4).filter (fun w => s.on (UN_WUNIT_VALID w))
  match (own.map (·.e)).idxOf? x.e with
  | some k => match ws[k]? with
    | some w => (s.wit w).verdict
    | none => none
  | none => none

/-! ### Watch records at the unit's modules (R386, R387, R388, R393) -/

/-- Hot-Standby ends for want of a witness, or by verdict 0x3 (R393). -/
def State.watchIsolate (s : State) : State :=
  let s := s.setMode mIsolated 0x1F
  let s := { s with un := { s.un with isoUnit := true } }
  s.notice 0x21 0x0002 0 (s.word UN_VERDICT_VERDICT)

/-- The renewal that travels in the basic cycle that starts at `b`, this one or the last: the one built in the basic cycle before it (R384). -/
def State.travels (s : State) (b : Nat) : Option Nat := if b == bcStart s.now then s.un.prevRen else s.un.prevRen2

/-- Was a renewal built in the basic cycle that starts at `b`, this one or the last? -/
def State.built (s : State) (b : Nat) : Bool := (if b == bcStart s.now then s.un.curRen else s.un.prevRen).isSome

/-- A Watch record of the basic cycle that starts at `b`, which the module uses: one that backs the renewal built in it moves the lease end
(R386). [DEDUCED: log 84] -/
def State.useWatch (s : State) (r src : Nat) (rec : List Byte) (b : Nat) : State :=
  let v := byteAt rec 2
  let node := byteAt rec 3
  let lseq := beAt rec 4 4
  let me := s.nodeId r
  let fresh := v == 2 && beAt rec 8 4 == (b + 40000) % 2 ^ 32
  let s := ((s.p UN_VERDICT_VERDICT v).pb UN_VERDICT_BACKUP (src != s.g UN_CFG_WITNESS)).p UN_VERDICT_NODE node
  let s := s.p UN_LSEQ_LSEQ lseq
  let s := if fresh && s.un.lastAct != b + 21000 then
      { s with un := { s.un with takeovers := s.un.takeovers + 1, tookOverAt := some (b + 21000), lastAct := b + 21000 } } else s
  if s.mode == mActive then
    if s.built b && node == me && ((v == 1 && some lseq == s.travels b) || v == 2) then
      { s.p UN_LEASE_NS (b + 40000) with un := { s.un with lease := some (b + 40000) } }
    else s
  else if fresh && node == me && ((s.mode == mHotStandby && bit s.elig 0) || (s.mode == mIsolated && bit s.elig 1)) then
    { s with un := { s.un with actAt := some (b + 21000, b + 40000), lseq := lseq } }
  else if v == 3 && s.mode == mHotStandby then s.watchIsolate
  else s

/-- A Watch record of the basic cycle that starts at `b` arrives at a unit module, its last byte at time `last` (R388, R391). -/
def State.takeWatch (s : State) (r src : Nat) (rec : List Byte) (b last : Nat) : State :=
  let wit := src == s.g UN_CFG_WITNESS
  let bak := s.on UN_CFG_BWEN && src == s.g UN_CFG_BWITNESS
  if !s.lightRing r || beAt rec 0 2 != s.g UN_CFG_UNIT || !(wit || bak) then s
  else
    let late := decide (b + 18000 < last)
    let s := if late then
        let s := s.notice 0x21 0x0003 (r + 1) (s.word UN_STAT_HOLD)
        let s := { s with un := { s.un with missed := s.un.missed || tabGet (fun _ => 0) s.un.onTime src != b } }
        if r == 0 then { s with un := { s.un with late1 := true } } else { s with un := { s.un with late2 := true } }
      else { s with un := { s.un with onTime := tabSet (fun _ => 0) s.un.onTime src b } }
    let use := wit || !s.un.watchW
    let s := { s with un := { s.un with watchW := s.un.watchW || wit, watched := true } }
    if use then s.useWatch r src rec b else s

/-- A Light record as R224 and R225 let it count: its flag, a unit, its source as holder, no reserved bit. -/
def lightOk (src flags : Nat) (rec_ : List Byte) : Bool :=
  bit flags 2 && beAt rec_ 0 2 != 0 && byteAt rec_ 2 == src && byteAt rec_ 12 / 8 == 0 && beAt rec_ 13 3 == 0

/-- A Watch record as R225 lets it count: its flag, a unit, a verdict of the table, no reserved byte. -/
def watchOk (flags : Nat) (rec_ : List Byte) : Bool :=
  bit flags 3 && beAt rec_ 0 2 != 0 && decide (1 ≤ byteAt rec_ 2) && decide (byteAt rec_ 2 ≤ 3) && beAt rec_ 12 4 == 0

/-- Does a reply show that another node of this module's unit holds the Light (R250): a Light record of its own, a Watch record that names
it? -/
def State.claimsLight (s : State) (r src : Nat) (light watch : Bool) (flags : Nat) (body : List Byte) : Bool :=
  let rec_ := body.drop (body.length - 16)
  s.lightRing r && beAt rec_ 0 2 == s.g UN_CFG_UNIT &&
  ((light && lightOk src flags rec_ && src == s.g UN_CFG_PARTNER) ||
   (watch && watchOk flags rec_ && byteAt rec_ 3 == s.g UN_CFG_PARTNER))

/-- The Light, Watch and health records of an accepted reply of the basic cycle that starts at `b` (R224, R225, R394). -/
def State.unitReply (s : State) (r src : Nat) (light watch : Bool) (flags : Nat) (body : List Byte) (b last : Nat) : State :=
  let n := body.length
  let rec_ := body.drop (n - 16)
  if light then
    let s := match (if n ≥ 48 then parseHealth ((body.drop (n - 32)).take 16) (mcNum s.now) else none) with
      | some (u, h) =>
        if h.node != src then s
        else
          let s := if s.on UN_CFG_EN && s.lightRing r && u == s.g UN_CFG_UNIT && src == s.g UN_CFG_PARTNER then s.partnerHealth h else s
          (List.range 4).foldl (fun s w =>
            if s.on (UN_WUNIT_VALID w) && u == s.g (UN_WUNIT_UNIT w) then
              if src == s.g (UN_WUNIT_NODEA w) then s.modWit w (fun x => { x with healthA := some h })
              else if src == s.g (UN_WUNIT_NODEB w) then s.modWit w (fun x => { x with healthB := some h })
              else s
            else s) s
      | none => s
    if !lightOk src flags rec_ then s
    else
      let u := beAt rec_ 0 2
      let s := if s.lightRing r && u == s.g UN_CFG_UNIT && src == s.g UN_CFG_PARTNER && byteAt rec_ 3 == s.nodeId r then
        s.holderHeard src (byteAt rec_ 12) else s
      (List.range 4).foldl (fun s w =>
        if s.on (UN_WUNIT_VALID w) && u == s.g (UN_WUNIT_UNIT w) && (src == s.g (UN_WUNIT_NODEA w) || src == s.g (UN_WUNIT_NODEB w)) then
          s.witLight w src (byteAt rec_ 3) (beAt rec_ 4 4)
        else s) s
  else if watch && watchOk flags rec_ then
    let s := (List.range 4).foldl (fun s w =>
      if s.on (UN_WUNIT_VALID w) && s.on (UN_WUNIT_BACKUP w) && beAt rec_ 0 2 == s.g (UN_WUNIT_UNIT w) then
        s.modWit w (fun x => { x with heard := some rec_ })
      else s) s
    s.takeWatch r src rec_ b last
  else s

/-! ### Basic cycles and macrocycles of the unit -/

/-- The basic cycle begins for the unit (R384, R397, R401): the record in the closure delay leaves; the renewal of this basic
cycle; the cycles without a Watch record; the health record over the pair links (R394); the witness forgets what it met. -/
def State.unitBasicCycle (s : State) (r : Nat) : State :=
  let s := s.flushLight r
  let s := if r == s.witRing then
      (List.range 4).foldl (fun s w => if s.on (UN_WUNIT_VALID w) then
        let s := s.modWit w (fun x => { x with cycles := if (s.g (BZ_JOIN_PHASE r)) == 4 then x.cycles + 1 else 0, met := none, heard := none })
        s.pb (UN_WSTAT_LEARN w) ((s.wit w).cycles < 2)
      else s) s
    else s
  if s.on UN_CFG_EN && r == s.unitRing then
    let s := if s.un.watched then { s with un := { s.un with noWatch := 0 } }
      else (({ s with un := { s.un with noWatch := s.un.noWatch + 1 } } : State).inc UN_NOWATCH_COUNT)
    let build := s.mode == mActive && s.holdsLight && !s.un.noRenewal
    let n := if build then (s.un.lseq + 1) % 2 ^ 32 else s.un.lseq
    let s := { s with un := { s.un with lseq := n, prevRen2 := s.un.prevRen, prevRen := s.un.curRen, curRen := if build then some n else none
                                        watchW := false, watched := false } }
    let s := if build then s.p UN_LSEQ_LSEQ n else s
    let s := s.p UN_HEALTH_ELIG s.elig
    let s := match s.healthRecord r with
      | some b => s.originate (.pairFrame b)
      | none => s
    match s.un.answer with
    | some (chans, hdr, cmd) =>
      let s := { s with un := { s.un with answer := none } }
      let s := s.respond (chans.map (·.val)) hdr cmd stOk []
      s.cmdRecord ((chans.map (·.val)).headD 0) hdr cmd stOk
    | none => s
  else s

/-- A macrocycle ends for the unit (R388, R394): the checks of the macrocycle just ended, the grant paths. -/
def State.unitMacro (s : State) (r : Nat) : State :=
  if s.on UN_CFG_EN && r == s.unitRing then
    let f := s.un.failNow ||| s.un.failHold
    let ok n := if bit f n then 0 else 2 ^ n
    let ok5 := if bit f 5 || !s.sync then 0 else 32
    let ok6 := if s.un.synced || (s.mode != mActive && !s.holderThere) then 64 else 0
    let ok7 := if s.un.missed then 0 else 128
    let s := s.p UN_HEALTH_CHECKS (ok 0 + ok 1 + ok 2 + ok 3 + ok 4 + ok5 + ok6 + ok7)
    let s := (s.pb UN_STAT_GPATH1 (s.on UN_CFG_R1 && !s.un.late1)).pb UN_STAT_GPATH2 (s.on UN_CFG_R2 && !s.un.late2)
    let s := { s with un := { s.un with failNow := 0, late1 := false, late2 := false, missed := false } }
    s.p UN_HEALTH_ELIG s.elig
  else s

/-! ### The lease, the act time, the pair links -/

/-- `ACT_TIME`: a module with an accepted grant reaches its act time (R387, R398): Active, ungated, rank 0; its first renewal is the one it
builds in this basic cycle (R384, R385). -/
def execActTime (s : State) : Res :=
  match s.un.actAt with
  | none => .next s
  | some (t, l) =>
    if s.now < t then .next s else
    let s := { s with un := { s.un with actAt := none } }
    if !(s.mode == mHotStandby || s.mode == mIsolated) then .next s
    else
      let g := s.un.lseq
      let n := (g + 1) % 2 ^ 32
      let s := ((s.setMode mActive 0x1F).inc UN_TAKEOVER_COUNT).p UN_LSEQ_LSEQ n
      let s := { s.p UN_LEASE_NS l with un := { s.un with lease := some l, lastAct := t, isoUnit := false, lseq := n, curRen := some n, prevRen := none, prevRen2 := none
                                                          synced := true, resyncing := false } }
      let s := (s.p UN_STAT_RSYNC 0).ungate
      .next (s.event 5 { source := 0x0204, code := 1, cls := 0xFF, data := leBytes 4 g ++ leBytes 4 (t % 2 ^ 32) })

/-- `WATCH_LOSS`: no Watch record in 50 consecutive basic cycles takes a Hot-Standby module to Isolated (R393). -/
def execWatchLoss (s : State) : Res :=
  if s.mode == mHotStandby && s.un.noWatch ≥ 50 then .next s.watchIsolate else .next s

/-- The register field of a pair link. -/
def plkFld : PairLink → Fld
  | .plk1 => UN_STAT_PLK1
  | .plk2 => UN_STAT_PLK2

/-- `PAIR_LINK_LOST`: 100 µs without an intact frame (R383). -/
def execPairLinkLost (k : PairLink) (s : State) : Res := .next (s.p (plkFld k) 0).chanGates

/-- `PAIR_LINK_REGAINED`: 10 ms of intact frames (R383). -/
def execPairLinkRegained (k : PairLink) (s : State) : Res := .next (s.p (plkFld k) 1).chanGates

/-- The test code of a pair link's port (R526). -/
def plkPort : PairLink → Nat
  | .plk1 => 0x20
  | .plk2 => 0x21

/-- `PAIR_LINK_HEALTH_RECORD`: the partner's health record over a pair link (R394, R395). -/
def execPairLinkHealthRecord (k : PairLink) (body : List Byte) (s : State) : Res :=
  if s.heldPort (plkPort k) then .next s else
  match parseHealth body (mcNum s.now) with
  | some (u, h) =>
    if s.on UN_CFG_EN && u == s.g UN_CFG_UNIT && h.node == s.g UN_CFG_PARTNER then .next (s.partnerHealth h) else .next s
  | none => .next s

end Sys2Proof.Machine
end

