-- ==== Sys2Proof/Machine/Ring.lean ====
section
/-! DEFINITION. The ring controllers: Marks, polls, replies and reference messages, fault-tolerant averaging, start-up,
guardian, folds (R206 to R262, R561). -/

namespace Sys2Proof.Machine

/-! ### Marks sent -/

/-- The external correction the master writes (R238), in 1/256 ns: that of its last servo run while its PTP reference is settled. -/
def State.markCorr (s : State) (r : Nat) : Int :=
  if s.on EN_PTPSTAT_SETTLED && !s.on (BZ_CTRL_MODE r) then (s.ring r).corrOut else 0

/-- A Mark of this node for the basic cycle that starts at `c` (R215). -/
def State.markFrame (s : State) (r c : Nat) (standin : Bool) : RFrame :=
  let cold := (s.ring r).cold
  let body := beBytes 1 (s.actRank r) ++ beBytes 1 (s.g (BZ_CTRL_NODES r)) ++ beBytes 1 (s.syncN r) ++
    beBytes 1 (s.g (BZ_CTRL_MODE r)) ++ beBytes 4 (c % 2 ^ 32) ++ beBytes 4 (c / 2 ^ 32) ++
    beBytes 4 (u32 (s.markCorr r)) ++ beBytes 4 (s.g (BZ_CLOSE_NS r)) ++ beBytes 4 (mcNum c % 2 ^ 32)
  s.mkFrame r c 1 ((if standin then 16 else 0) + (if cold then 64 else 0)) 0xFF body

/-- The node sends a Mark and its position word (R232): the delay of its segment as the master, its position and latency more as a
stand-in. A node that was no master before has measured no D yet. -/
def State.sendMark (s : State) (r c : Nat) (standin : Bool) : State :=
  let s := if s.isSender r then s else s.modRing r (fun x => { x with dd := none, ownDs := [] })
  let s := s.sendRing r (s.markFrame r c standin)
  let s := if s.actRank r == 0 then s.sendPos r (s.outPort r) 0 0 else s.sendPos r (s.outPort r) (s.g (BZ_POS_NS r)) 320
  s.modCyc r c (fun y => { y with sent := true })

/-- The controller leaves the ring: it sends nothing more, closes nothing, and listens (R246, R251, R254 go on from here). -/
def State.ringSilent (s : State) (r phase : Nat) : State :=
  let s := s.modRing r (fun x => { x with transmitting := false, cold := false, rank0Act := false, coldYield := false, dd := none, ownDs := [] })
  let s := (s.p (BZ_STAT_CLOSING r) 0).p (BZ_CLOSE_NS r) 0
  let s := (s.p (BZ_STAT_STATE r) 1).p (BZ_JOIN_PHASE r) phase
  ((s.p (BZ_JOIN_MARKS r) 0).p (BZ_SYNCSTAT_PRESENT r) 0).p (BZ_SYNCSTAT_SETTLED r) 0

/-- What the loss of a ring reference brings for the synchronisation state (R189, R239, R240). -/
def State.afterLoss (s before : State) : State :=
  if [0, 1].any (fun r => before.on (BZ_SYNCSTAT_PRESENT r) && !s.on (BZ_SYNCSTAT_PRESENT r)) then s.syncStep s.refs false else s

/-- A cold starter's collision (R248 rows 2 and 4): back to Listening; sixteen in a row record a notice. -/
def State.coldCollide (s : State) (r : Nat) : State :=
  let s := (s.inc (BZ_COLLIDE_COUNT r)).ringSilent r 1
  let n := (s.ring r).coldFails + 1
  let s := s.modRing r (fun x => { x with coldFails := if n ≥ 16 then 0 else n, lastActivity := s.tu.upNs })
  if n ≥ 16 then s.notice (0x18 + r) 0x0001 (r + 1) (s.word (BZ_JOIN_PHASE r)) else s

/-- The closure a node applies (R207): 20,000 ns − D. -/
def State.applyClosure (s : State) (r d : Nat) : State :=
  (s.p (BZ_STAT_CLOSING r) 1).p (BZ_CLOSE_NS r) (20000 - d)

/-- A cold starter's last basic cycle judged by rows 3 to 5 of R248: its own Mark must have come back; a basic cycle with
nothing else counts, and the fiftieth makes the node Joined (R247). [DEDUCED: log 96] -/
def State.coldJudge (s : State) (r : Nat) : State :=
  let x := s.ring r
  if !x.cold || !x.prev.sent || x.prev.higher then s
  else if !x.prev.returned then s.coldCollide r
  else
    let n := x.coldCount + 1
    let s := s.modRing r (fun x => { x with coldCount := n, coldFails := 0 })
    if n ≥ 50 then
      let s := s.modRing r (fun x => { x with cold := false, since := bcStart s.now })
      (s.p (BZ_JOIN_PHASE r) 4).p (BZ_SYNCSTAT_HOLD r) 0
    else s

/-- The guardian blocks or cuts a frame (R254): the controller stops and counts Marks again; the third time in an hour it
stays Off until a power cycle, with class 2. [DEDUCED: log 66] -/
def State.guardianViolation (s : State) (r : Nat) : State :=
  let s := (s.p (BZ_GSTAT_VIOL r) 1).inc (BZ_GVIOL_COUNT r)
  let times := ((s.ring r).violTimes.filter (fun t => s.opms < t + 3600000)) ++ [s.opms]
  let s := s.modRing r (fun x => { x with violTimes := times })
  let s := s.p (BZ_GVHOUR_COUNT r) (min 255 times.length)
  let s := s.notice (0x18 + r) 0x0003 (r + 1) (s.word (BZ_GSTAT_VIOL r))
  let s := s.ringSilent r 2
  if times.length ≥ 3 then (s.ringOff r).report (0x18 + r) 2 0x3 else s

/-- The basic cycle that ends, judged as the next begins: no Mark in it is counted (R229), and costs a counting node its Marks (R249). A
Mark of this node's own may still be on its way back for one basic cycle. -/
def State.judgeMarks (s : State) (r : Nat) : State :=
  let x := s.ring r
  if s.g (BZ_STAT_STATE r) == 0 then s
  else if (!x.cur.mark && !x.cur.sent) || (x.prev.sent && !x.prev.mark && !x.prev.returned) then
    let s := (s.inc (BZ_NOMARK_COUNT r)).modRing r (fun x => { x with missed := x.missed + 1 })
    if s.g (BZ_JOIN_PHASE r) == 2 then s.p (BZ_JOIN_MARKS r) 0 else s
  else if x.cur.mark || x.cur.returned then s.modRing r (fun x => { x with missed := 0 })
  else s

/-- The reply entries of a basic cycle that no accepted reply has answered (R223). -/
def State.unanswered (s : State) (r c : Nat) : Nat :=
  ((s.sched r).filter (fun x => x.kind == 1 && x.node != s.nodeId r && x.inCycle (bcNum c) && !(s.ring r).got.contains (c, x.e))).length

/-- A joined node counts the reply entries without a valid reply once the basic cycle after theirs, in which the last of them can arrive,
has ended (R209, R223). -/
def State.judgeReplies (s : State) (r : Nat) : State :=
  let c := bcStart s.now - 40000
  let n := s.unanswered r c
  let s := s.modRing r (fun x => { x with got := x.got.filter (fun e => decide (c < e.1)) })
  if s.g (BZ_JOIN_PHASE r) == 4 && decide ((s.ring r).since ≤ c) && decide (40000 ≤ bcStart s.now) then
    s.p (BZ_NOREPLY_COUNT r) (s.g (BZ_NOREPLY_COUNT r) + n)
  else s

/-- Closure as the next basic cycle begins (R207, R216, R250, R561): a node that accepted another node's Mark, or that yields rank 0, stops
closing; one that sent a Mark and accepted none closes, with its D once that is known. -/
def State.closeCycle (s : State) (r : Nat) (x : RingSt) : State :=
  if x.cur.mark || x.cur.rank0Lower || (x.rank0Act && x.coldYield) then (s.p (BZ_STAT_CLOSING r) 0).p (BZ_CLOSE_NS r) 0
  else if x.cur.sent && !s.on (BZ_STAT_CLOSING r) then
    match x.dd with
    | some d => if d ≤ 19000 then s.applyClosure r d else s
    | none => s.p (BZ_STAT_CLOSING r) 1
  else s

/-- The output areas as replies of this basic cycle carry them: the values whose commit time is no later than its start (R210). -/
def State.snapReply (s : State) (r : Nat) : State :=
  let b := bcStart s.now
  let base := 0x10000 * (16 * r + s.nodeId r)
  let m : Mem := s.netOut.filter (fun e => decide (base ≤ e.1) && decide (e.1 < base + 0x10000))
  s.modRing r (fun x => { x with snaps := (b, m) :: x.snaps.take 1 })

/-- The records whose commit time has come move into the node's output area (R221). -/
def RingSt.settle (x : RingSt) (now : Nat) : RingSt :=
  let due := sortBy (fun a b => decide (a.commit ≤ b.commit)) (x.recs.filter (fun y => y.commit ≤ now))
  { x with outArea := due.foldl (fun m y => m.wrL y.off y.data) x.outArea, recs := x.recs.filter (fun y => !(y.commit ≤ now)) }

/-- The outputs whose commit time has passed become what `NOW` records carry (R219). [DEDUCED: log 97] -/
def State.settleNet (s : State) (r n : Nat) : State :=
  let mine p := decide (Part.q p = .netNode (if r == 0 then 0 else 1) (Fin.ofNat 16 n))
  let due := sortBy (fun a b => decide (a.commit ≤ b.commit)) (s.parts.filter (fun p => mine p && decide (p.commit ≤ s.now)))
  let s := { s with parts := s.parts.filter (fun p => !(mine p && decide (p.commit ≤ s.now))) }
  due.foldl State.applyPart s

/-- A rank-0 node sends the Mark of the basic cycle (R216, R247); where the guardian's counter is more than 200 ns from t0 it blocks the
Mark (R253, R254); how far it lies is a free value [DESIGN CHOICE: log 117]. A node that no longer has rank 0 is a responder, and keeps D as its reference until it accepts a Mark (R208). -/
def State.startMark (s : State) (r : Nat) : State :=
  let x := s.ring r
  let r0 := s.on (BZ_CTRL_EN r) && s.on (BZ_CTRL_MCAP r) && x.transmitting && s.actRank r == 0 && x.r0Wait == 0
  let s := s.modRing r (fun x => { x with cur := { x.cur with rank0 := r0 } })
  if r0 then
    let dev := Config.markDev s.free
    let s : State := { s with free := s.free + 1 }
    if dev > 200 || dev < -200 then s.guardianViolation r
    else
      let s := (s.sendMark r (bcStart s.now) false).p (BZ_STAT_STATE r) 3
      if x.cold then s.inc (BZ_COLDSENT_COUNT r) else s
  else if x.transmitting && s.isMaster r then
    (s.modRing r (fun x => { x with d := x.dd.getD x.d })).p (BZ_STAT_STATE r) 2
  else s

/-- `BASIC_CYCLE_START`: basic cycle b begins (R210). What was seen in the last one decides the yields of R250 and R561, the
closure of R216 and a cold start's count (R248); the rank-0 node sends its Mark; the holder of the
Light renews (R384). -/
def execBasicCycleStart (r : Ring) (s : State) : Res :=
  let r := r.val
  let s := (s.judgeMarks r).judgeReplies r
  let x := s.ring r
  let firstYield := x.cur.rank0Lower && !x.yield
  let s := s.closeCycle r x
  let s := s.modRing r (fun x => { x with
    prev3 := x.prev2, prev2 := x.prev, prev := x.cur, cur := x.ahead, ahead := {}, yield := x.cur.rank0Lower
    rank0Act := x.rank0Act && !x.coldYield, coldYield := false })
  let s := if firstYield then s.notice (0x18 + r) 0x0006 (r + 1) (s.word (BZ_STAT_STATE r)) else s
  let s := (s.pb (BZ_MARK_VALID r) (s.ring r).cur.mark).p (BZ_GSTAT_ALIGNED r) 0
  let s := s.coldJudge r
  let s := ((s.settleNet r (s.nodeId r)).snapReply r).modRing r (fun x => x.settle s.now)
  let s := (s.startMark r).showDelay r
  .next (s.unitBasicCycle r)

/-- Do the conditions of R216 for a stand-in Mark in the basic cycle that starts at `c` hold? A node that sent its Mark at t0 sends no
second one. [DESIGN CHOICE: log 112] -/
def State.standInOk (s : State) (r c : Nat) : Bool :=
  let x := s.ring r
  let k := s.actRank r
  let y := s.cyc r c
  let y1 := s.cyc r (c - 20000)
  let y2 := s.cyc r (c - 40000)
  s.on (BZ_CTRL_EN r) && s.on (BZ_CTRL_MCAP r) && x.transmitting && !x.cold && !y.mark && !y.noStandin && !y.sent && !y.corrupted &&
  (k == 0 ||
    ((k ≤ 1 || !y1.mark) && (k ≤ 2 || !y2.mark) && !y1.standin && !y1.rank0 && !y.rank0))

/-- `STAND_IN_MARK`: at t0 + 2,400 ns a node sends a stand-in Mark when the conditions of its rank hold (R216); its distance from there by
the guardian's counter (R253, R254) is a free value. [DEDUCED: log 96; DESIGN CHOICE: log 117] -/
def execStandInMark (r : Ring) (s : State) : Res :=
  let r := r.val
  let c := s.txCycle r 2400 s.now
  if !s.standInOk r c then .next s else
  let dev := Config.markDev s.free
  let s : State := { s with free := s.free + 1 }
  if dev > 200 || dev < -200 then .next ((s.guardianViolation r).afterLoss s)
  else
    let s := (s.sendMark r c true).inc (BZ_STANDIN_COUNT r)
    .next ((s.p (BZ_STAT_STATE r) (if s.actRank r == 0 then 3 else 4)).showDelay r)

/-! ### Marks received -/

/-- The time that a Mark names (R215). -/
def RFrame.markTime (f : RFrame) : Nat := beAt f.body 8 4 * 2 ^ 32 + beAt f.body 4 4

/-- How long after t0 a Mark is sent: 2,400 ns for a stand-in (R216). -/
def RFrame.markOff (f : RFrame) : Nat := if bit f.flags 4 then 2400 else 0

/-- The Keeper sets the era from a Mark and steps time so that the node's Mark delay equals its position (R249). -/
def State.alignTo (s : State) (r : Nat) (f : RFrame) (t : Nat) : State :=
  let o : Int := (t : Int) - ((f.markTime + s.g (BZ_POS_NS r) + f.markOff : Nat) : Int)
  if o > 10 || o < -10 then
    let step := sint32 (u32 (-o))
    (s.p TU_ERA_ERA (u32 (((s.now : Int) - o - step) / 2 ^ 32))).askStep step
  else s

/-- The Mark delay of a Mark that arrives at `t` (R208): its stamp minus the time it names, and minus 2,400 ns for a stand-in; a Mark that
arrives in the basic cycle `c` after the one it names counts from there. -/
def markDelay (f : RFrame) (c t : Nat) : Nat := t - (f.markTime + (c - (f.cycleAt c).getD c)) - f.markOff

/-- The delays at which a node expects another node's Mark after the basic cycle's start (R211): its reference; on a master also that of
the Marks it has accepted. [DEDUCED: log 118] -/
def State.markRefs (s : State) (r : Nat) : List Nat :=
  let x := s.ring r
  if s.isSender r then [x.d, s.rxD r] else [x.d]

/-- The local basic cycle in whose window a Mark begins (R211, R214); after a fold notice any time up to 19,400 ns after its start will do
(R257). -/
def State.markCycle (s : State) (r : Nat) (f : RFrame) (t : Nat) : Option Nat :=
  if s.on (BZ_FOLD_NOTICE r) then
    let c := bcStart t
    if t ≤ c + 19400 && (f.cycleAt c).isSome then some c else none
  else (s.markRefs r).findSome? (fun d =>
    (nearCycles (d + f.markOff) t).find? (fun c => (f.cycleAt c).isSome && decide (dist t (c + d + f.markOff) ≤ 400)))

/-- The Mark fields of R229 loaded from an accepted Mark. -/
def State.loadMark (s : State) (r : Nat) (f : RFrame) (stamp : Nat) : State :=
  let s := (s.p (BZ_MARK_NODE r) f.src).p (BZ_MARK_RANK r) (byteAt f.body 0)
  let s := (s.pb (BZ_MARK_STANDIN r) (bit f.flags 4)).p (BZ_MARK_VALID r) 1
  let s := (s.p (BZ_MARKTS_NS r) stamp).p (BZ_GSTAT_ALIGNED r) 1
  let s := s.inc (BZ_RXOK_COUNT r)
  let s := s.modRing r (fun x => { x with markBase := f.markTime, corrNow := sint32 (beAt f.body 12 4), missed := 0 })
  s.captureSrc (0x20 + r) 0 true stamp

/-- The node's Mark delay after a Mark with delay `d`: the last one alone while it has not joined or after a fold, which it ends, else kept
until the macrocycle's mean (R208, R249, R257). -/
def State.takeDelay (s : State) (r d : Nat) (alone : Bool) : State :=
  let s := s.modRing r (fun x => { x with ds := if alone then [d] else d :: x.ds, d := if alone then d else x.d })
  (s.p (BZ_FOLD_NOTICE r) 0).showDelay r

/-- Does a Mark match the node's configuration (R249)? -/
def State.markMatches (s : State) (r : Nat) (f : RFrame) : Bool :=
  byteAt f.body 1 == s.g (BZ_CTRL_NODES r) && byteAt f.body 3 == s.g (BZ_CTRL_MODE r) && byteAt f.body 2 == s.syncN r

/-- The first Mark of a node that counts (R249): in Synchronising the Keeper steps time to it, and d is then the node's position. -/
def State.enterCounting (s : State) (r : Nat) (f : RFrame) (t stamp : Nat) : State :=
  let d := markDelay f (bcStart t) t
  let s := if s.mode == mSynchronising then s.alignTo r f t else s
  let d := if s.tu.stepPend.isSome then s.g (BZ_POS_NS r) else d
  let s := (s.p (BZ_JOIN_PHASE r) 2).p (BZ_JOIN_MARKS r) (if s.markMatches r f then 1 else 0)
  let s := ((s.takeDelay r d true).loadMark r f stamp).p (BZ_STAT_STATE r) 1
  s.modRing r (fun x => { x with lastCorrect := f.markTime / 20000
                                 cur := { x.cur with mark := true, standin := bit f.flags 4 } })

/-- The node's own Mark came back (R207, R258): D. A D above 19,000 ns at two Marks in a row, or at one sent after a fold notice, takes the
controller off with class 2. The first D, and the first after a notice, applies at once to a closing node and to a cold starter (R247). The
own frames of a node folded at both ports count for nothing (R256). -/
def State.ownMarkBack (s : State) (r : Nat) (f : RFrame) (t stamp : Nat) : State :=
  if s.g (BZ_FOLD_STATE r) == 3 then s
  else
    let x := s.ring r
    let ref := f.markTime + f.markOff + (if bit f.flags 4 && !s.isMaster r then x.d else 0)
    let d := t - ref
    let pending := s.on (BZ_FOLD_NOTICE r)
    let s := (s.loadMark r f stamp).modCyc r f.markTime (fun y => { y with returned := y.returned || !x.cold || d ≤ 19000 })
    if pending && decide (ref < x.noticeAt) then s
    else if d > 19000 && (pending || x.longD ≥ 1) then
      ((s.ringOff r).report (0x18 + r) 2 0x1).afterLoss s
    else
      let s := s.modRing r (fun y => { y with longD := if d > 19000 then 1 else 0 })
      if d ≤ 19000 && (pending || x.dd.isNone) then
        let s := s.modRing r (fun y => { y with dd := some d, ownDs := [d] })
        let s := (s.p (BZ_FOLD_NOTICE r) 0).showDelay r
        if s.on (BZ_STAT_CLOSING r) || x.cold then s.applyClosure r d else s
      else s.modRing r (fun y => { y with ownDs := d :: y.ownDs })

/-- What a cold starter does about a frame that is not its own (R248 rows 1 to 3). -/
def State.coldMeets (s : State) (r : Nat) (f : Option RFrame) (t stamp : Nat) : State :=
  match f with
  | none => s.coldCollide r
  | some f =>
    if !(s.headOk r f && s.inTime r f t) || f.ty != 1 || !bit f.flags 6 || byteAt f.body 3 > 1 then s.coldCollide r
    else if f.src < s.nodeId r then ((s.inc (BZ_COLLIDE_COUNT r)).ringSilent r 2).enterCounting r f t stamp
    else s.modRing r (fun x => { x with cur := { x.cur with higher := true } })

/-- Does a Mark take this node's rank 0 (R561)? -/
def State.losesRank (s : State) (r : Nat) (f : RFrame) : Bool :=
  s.on (BZ_CTRL_MCAP r) && s.baseRank r == 0 && (s.ring r).r0Wait == 0 && byteAt f.body 0 == 0 && !bit f.flags 4 && f.src < s.nodeId r

/-- A Mark that a counting node accepts: a correct one in the basic cycle after the last correct one counts (R249). -/
def State.countMark (s : State) (r : Nat) (f : RFrame) (t last : Nat) : State :=
  let s := if s.mode == mSynchronising then s.alignTo r f t else s
  let ok := s.markMatches r f
  let s := s.modRing r (fun x => { x with lastCorrect := f.markTime / 20000 })
  if ok && f.markTime / 20000 == last + 1 then s.p (BZ_JOIN_MARKS r) (min 50 (s.g (BZ_JOIN_MARKS r) + 1))
  else s.p (BZ_JOIN_MARKS r) (if ok then 1 else 0)

/-- A Mark of another node, judged in full (R214, R215, R216, R249, R561). -/
def State.otherMark (s : State) (r : Nat) (f : RFrame) (a : RingArr) : State :=
  match (if s.headOk r f && f.ty == 1 && f.len == 24 && byteAt f.body 3 ≤ 1 && a.stamped then s.markCycle r f a.t else none) with
  | none => s.refuse r (some f) a.t
  | some c =>
    let counting := s.g (BZ_JOIN_PHASE r) == 2
    let last := (s.ring r).lastCorrect
    let lower := s.losesRank r f
    let s := (s.takeDelay r (markDelay f c a.t) (counting || s.on (BZ_FOLD_NOTICE r))).loadMark r f a.stamp
    let s := s.modCyc r c (fun y => { y with mark := true, standin := y.standin || bit f.flags 4, rank0Lower := y.rank0Lower || lower })
    if counting then s.countMark r f a.t last
    else if s.isSender r && s.actRank r != 0 then (s.p (BZ_STAT_STATE r) 2).showDelay r
    else s

/-- The first Mark of a listening node (R246, R249): it passes the first four items of R214; in Synchronising the Keeper sets time from it
when its basic cycle is judged. [DEDUCED: log 96] -/
def State.firstMark (s : State) (r : Nat) (f : RFrame) (a : RingArr) : State :=
  if s.headOk r f && f.ty == 1 && byteAt f.body 3 ≤ 1 && a.stamped && (s.mode == mSynchronising || s.inTime r f a.t) then
    s.enterCounting r f a.t a.stamp
  else s.refuse r (some f) a.t

/-- `MARK_RECEIVE`: a frame of type Mark arrives on a port (R206 to R209, R214, R246 to R250, R257). The port logic forwards
it; an Off controller, or a port that is not the receive plane, takes nothing for processing. -/
def execMarkReceive (r : Ring) (port : RPort) (frame : List Byte) (stamp : Nat) (s : State) : Res :=
  let r := r.val
  let a := s.arrival r port frame stamp
  let s := s.passFrame r port frame a
  if !a.takes then .next s
  else
    let cold := (s.ring r).cold
    match a.f with
    | none => .next (if cold then (s.rejectFrame r none a.t).coldMeets r none a.t a.stamp else s.rejectFrame r none a.t)
    | some f =>
      if f.src == s.nodeId r then
        if f.crcOk then .next (if s.headOk r f && f.ty == 1 && a.stamped then s.ownMarkBack r f a.t a.stamp else s)
        else
          let s := s.rejectFrame r (some f) a.t
          .next (if cold then s.coldCollide r
            else if bit f.flags 4 then s.modCyc r (bcStart (a.t - (s.ring r).d)) (fun y => { y with corrupted := true })
            else s)
      else if cold then
        .next ((if s.headOk r f && s.inTime r f a.t then s else s.rejectFrame r (some f) a.t).coldMeets r (some f) a.t a.stamp)
      else if s.g (BZ_JOIN_PHASE r) == 1 then .next (s.firstMark r f a)
      else .next (s.otherMark r f a)

/-! ### Polls, replies, reference messages -/

/-- A node's reply of a basic cycle held for the images of that cycle (R103): older ones stay while a collection that wants them is open. -/
def State.keepReply (s : State) (r n b : Nat) (body : List Byte) : State :=
  let open_ (c : Nat) : Bool := (List.range 16).any (fun t => (s.task t).sampled && !(s.task t).closed && bcStart (s.task t).sampleAt == c)
  s.modRing r (fun y =>
    let old := (tabGet (fun _ => []) y.replies n : List (Nat × List Byte)).filter (fun e => e.1 != b && open_ e.1)
    { y with replies := tabSet (fun _ => []) y.replies n ((b, body) :: old) })

/-- The output records of a poll's body (R218). -/
def pollRecs : Nat → List Byte → List (Bool × Nat × Nat × List Byte)
  | 0, _ => []
  | n + 1, bs =>
    let w := beAt bs 6 2
    let len := w % 2 ^ 11
    if len == 0 || bs.length < 8 then []
    else (w / 2 ^ 15 == 1, beAt bs 0 4, beAt bs 4 2, (bs.drop 8).take len) ::
      pollRecs n (bs.drop (8 + (len + 3) / 4 * 4))

/-- A repeated pending record with the same commit time and place replaces the held one (R221). -/
def putRec (rs : List HeldRec) (x : HeldRec) : List HeldRec :=
  rs.filter (fun y => !(y.commit == x.commit && y.off == x.off && y.data.length == x.data.length)) ++ [x]

/-- One output record taken by a responder (R221): a `NOW` record at once; a pending one, its time extended against the last accepted Mark
(R215), is held until its commit time, and applied at once, as late (R40), when that is less than 100 ns ahead. -/
def State.takeRec (s : State) (r : Nat) (y : Bool × Nat × Nat × List Byte) : State :=
  let write (s : State) := s.modRing r (fun x => { x with outArea := x.outArea.wrL y.2.2.1 y.2.2.2 })
  if y.1 then write s
  else
    let c := extend (s.ring r).markBase y.2.1
    if c < s.now + 100 then (write s).lateAt 2
    else s.modRing r (fun x => { x with recs := putRec x.recs { commit := c, off := y.2.2.1, data := y.2.2.2 } })

/-- The records of a poll taken in order. -/
def State.takeRecs (s : State) (r : Nat) (ys : List (Bool × Nat × Nat × List Byte)) : State := ys.foldl (fun s y => s.takeRec r y) s

/-- What a frame that is no Mark brings while the controller cold-starts (R248 row 2): a collision; one that fails R214 is counted as
rejected. -/
def State.coldFrame (s : State) (r : Nat) (a : RingArr) : State :=
  let ok := match a.f with
    | some f => a.stamped && (s.accepted r f a.t).isSome
    | none => false
  (if ok then s else s.rejectFrame r a.f a.t).coldCollide r

/-- The entry that a received frame of type `ty` answers to, if it is accepted (R214): one without a stamp never is (R191). -/
def State.answers (s : State) (r ty : Nat) (a : RingArr) : Option (RFrame × Nat × Nat × SchedEnt) :=
  match a.f with
  | some f => if f.ty == ty && a.stamped then (s.accepted r f a.t).map (fun e => (f, e)) else none
  | none => none

/-- Is a received frame one of this node's own, come back? -/
def State.isOwn (s : State) (r : Nat) (a : RingArr) : Bool :=
  match a.f with
  | some f => f.crcOk && f.src == s.nodeId r
  | none => false

/-- `POLL_RECEIVE`: a poll arrives (R214, R218, R221). As a responder the node applies `NOW` records at once and holds
pending ones until their commit time. -/
def execPollReceive (r : Ring) (port : RPort) (frame : List Byte) (stamp : Nat) (s : State) : Res :=
  let r := r.val
  let a := s.arrival r port frame stamp
  let s := s.passFrame r port frame a
  if !a.takes || s.isOwn r a then .next s
  else if (s.ring r).cold then .next (s.coldFrame r a)
  else match s.answers r 2 a with
  | none => .next (s.refuse r a.f a.t)
  | some (f, _, _, _) =>
    let s := s.inc (BZ_RXOK_COUNT r)
    if f.dst != s.nodeId r then .next s
    else
      let s := s.modRing r (fun x => { x with polled := some a.t })
      if bit f.flags 5 then .next s
      else .next ((s.takeRecs r (pollRecs 512 f.body)).modRing r (fun x => x.settle s.now))

/-- The deviation of an accepted sync reply (R235), in ns: `c` is the node's basic cycle in which it arrives. The receive position is D on
the master, and lies D behind its own on a stand-in master. [DEDUCED: log 118] -/
def State.deviation (s : State) (r c off t : Nat) : Int :=
  let x := s.ring r
  let p := if s.isMaster r then s.rxD r else if s.isSender r then s.g (BZ_POS_NS r) + x.dd.getD 0 else s.g (BZ_POS_NS r)
  (t : Int) - ((c + p + off : Nat) : Int)

/-- A deviation taken or refused (R236): none is used in a held macrocycle or without a position (R257). It counts in the half of the macrocycle in which its
basic cycle `c` lies. [DESIGN CHOICE: log 111] -/
def State.takeDev (s : State) (r node c : Nat) (d : Int) : State :=
  if (s.ring r).held ≥ 2 || !s.on (BZ_POS_VALID r) then s
  else if d > 100 || d < -100 then (s.inc (BZ_SYNCREJ_COUNT r)).exclSync r node
  else s.modRing r (fun x => { x with devs := { node := node, late := bcNum c ≥ 25, v := d } :: x.devs })

/-- A reply that comes after the close of a collection that wants it counts as none (R103, R223). -/
def State.lateReply (s : State) (r n b : Nat) : State :=
  if (List.range 16).any (fun t => (s.task t).closed && bcStart (s.task t).sampleAt == b &&
      s.app.pkg.stations.any (fun d => d.t.val == t && d.src == .ringNode r n)) then s.inc (BZ_NOREPLY_COUNT r) else s

/-- An accepted reply (R222, R223, R235, R250): its data are kept for the images of its basic cycle, its arrival is a capture event of its
node [DESIGN CHOICE: log 90], a sync reply gives a deviation, and one of `R0NODE` or with a record of the unit can make a cold starter
yield. -/
def State.takeReply (s : State) (r : Nat) (f : RFrame) (c b : Nat) (x : SchedEnt) (a : RingArr) : State :=
  let s := s.inc (BZ_RXOK_COUNT r)
  let s := (s.keepReply r f.src b f.body).lateReply r f.src b
  let s := s.modRing r (fun y => { y with got := (b, x.e) :: y.got })
  let s := s.captureSrc (0x22 + r) f.src true a.stamp
  let s := if bit f.flags 1 && x.sync && !s.on (BZ_CTRL_MODE r) then s.takeDev r f.src c (s.deviation r c x.off a.t) else s
  let s := s.modRing r (fun y => { y with
    r0Seen := y.r0Seen || (s.on (BZ_SYNCCFG_R0VALID r) && f.src == s.g (BZ_SYNCCFG_R0NODE r))
    coldYield := y.coldYield || (y.rank0Act && s.on (BZ_CTRL_LRANK r) && s.g (BZ_CTRL_RANK r) != 0 && s.claimsLight r f.src x.light x.watch f.flags f.body) })
  s.unitReply r f.src x.light x.watch f.flags f.body b (a.t + (18 + f.len) * 8)

/-- `REPLY_RECEIVE`: a reply arrives (R214, R223, R235, R250); its Light, Watch and health records go to the unit. -/
def execReplyReceive (r : Ring) (port : RPort) (frame : List Byte) (stamp : Nat) (s : State) : Res :=
  let r := r.val
  let a := s.arrival r port frame stamp
  let s := s.passFrame r port frame a
  if !a.takes || s.isOwn r a then .next s
  else if (s.ring r).cold then .next (s.coldFrame r a)
  else match s.answers r 3 a with
  | none => .next (s.refuse r a.f a.t)
  | some (f, c, b, x) => .next (s.takeReply r f c b x a)

/-- What a node adds to `PATH` as a reference message leaves it, in 1/256 ns (R243): its forwarding latency of 320 ns (R205), the closure
delay on the node that closes, the delay of the segment it sends on. [DEDUCED: log 98] -/
def State.pathAdd (s : State) (r port : Nat) : Nat := 320 * 256 + s.g (BZ_CLOSE_NS r) * 256 + s.segDelay r port * 16

/-- A reference message as it leaves the node: `PATH` grows, and the check word follows (R243). -/
def State.addPath (s : State) (r port : Nat) (raw : List Byte) : List Byte :=
  match parseFrame raw with
  | some f => if f.crcOk && f.len == 24 then
      ({ f with body := f.body.take 12 ++ beBytes 4 (beAt f.body 12 4 + s.pathAdd r port) ++ f.body.drop 16 } : RFrame).bytes else raw
  | none => raw

/-- An accepted reference message of the time master followed gives an offset; every one counts for the choice of the master. Of two
senders of one rank the node with the lower ID comes first. [DESIGN CHOICE: log 114] -/
def State.takeRef (s : State) (r : Nat) (f : RFrame) (c : Nat) (a : RingArr) : State :=
  let rank := byteAt f.body 0
  let s := s.modRing r (fun x => { x with
    refSeen := some (match x.refSeen with
      | some k => min k (rank * 16 + f.src)
      | none => rank * 16 + f.src)
    refQuiet := tabSet (fun _ => 0) x.refQuiet rank s.now })
  if s.on (BZ_REF_VALID r) && s.g (BZ_REF_NODE r) == f.src then
    let org : Int := beAt f.body 8 4 * 2 ^ 32 + beAt f.body 4 4
    let o : Int := ((a.t : Int) - org) * 256 - beAt f.body 12 4
    s.modRing r (fun x => { x with devs := { node := f.src, late := bcNum c ≥ 25, v := o } :: x.devs })
  else s

/-- `REFERENCE_MESSAGE_RECEIVE`: a reference message of a compatibility-mode ring (R241 to R244). -/
def execReferenceMessageReceive (r : Ring) (port : RPort) (frame : List Byte) (stamp : Nat) (s : State) : Res :=
  let r := r.val
  let a := s.arrival r port frame stamp
  let s := s.passFrame r port (s.addPath r (if port == s.rxPort r then s.outPort r else 1) frame) a
  if !a.takes || s.isOwn r a then .next s
  else if (s.ring r).cold then .next (s.coldFrame r a)
  else match s.answers r 4 a with
  | none => .next (s.refuse r a.f a.t)
  | some (f, c, _, _) =>
    let s := s.inc (BZ_RXOK_COUNT r)
    .next (if f.len == 24 && s.on (BZ_CTRL_MODE r) then s.takeRef r f c a else s)

/-! ### The schedule's slots -/

/-- The offset of a part's data in its node's output area. -/
def Part.nodeOff (p : Part) : Nat := match p.tgt with
  | .ringNode _ _ off => off
  | _ => 0

/-- One output record (R218). -/
def outRec (now : Bool) (commit off : Nat) (data : List Byte) : List Byte :=
  beBytes 4 (if now then 0 else commit % 2 ^ 32) ++ beBytes 2 off ++
  beBytes 2 ((if now then 2 ^ 15 else 0) + data.length % 2 ^ 11) ++ padTo ((data.length + 3) / 4 * 4) data

/-- The pending record of a part (R219). -/
def Part.record (p : Part) : List Byte := outRec false p.commit p.nodeOff p.data

/-- The pending parts that a poll to node `n` may carry (R219), in rising order of commit time: they reached the die 1.0 µs before, and are
not due within 10 µs unless no poll has carried them. -/
def State.pollParts (s : State) (r n : Nat) : List Part :=
  sortBy (fun a b => decide (a.commit ≤ b.commit)) (s.parts.filter (fun p => decide (p.q = .netNode (if r == 0 then 0 else 1) (Fin.ofNat 16 n)) &&
    decide (p.reached + 1000 ≤ s.now) && (decide (s.now + 10000 ≤ p.commit) || !p.sent)))

/-- The bytes of a node's output area that the application has ever committed to it (R219, R220). -/
def State.nodeArea (s : State) (r n : Nat) : List (Nat × List Byte) :=
  (s.app.pkg.outs.filterMap (fun b => match b.tgt with
    | .ringNode r' n' off => if r' == r && n' == n then some (off, s.netOut.rdN (0x10000 * (16 * r + n) + off) b.len) else none
    | _ => none))

/-- The parts whose records fit into a body of a given length, in order. [DEDUCED: log 97] -/
def fitParts (room : Nat) : List Part → List Part
  | [] => []
  | p :: ps => if p.record.length ≤ room then p :: fitParts (room - p.record.length) ps else []

/-- A poll of this master (R218 to R220): gated, its body, the parts it could carry and those it carries. Those for which the last poll had
no room come first. [DEDUCED: log 97] -/
def State.pollBody (s : State) (r : Nat) (x : SchedEnt) : Bool × List Byte × List Part × List Part :=
  let area := s.nodeArea r x.node
  let used := s.netUsed.contains (16 * r + x.node)
  if s.gated || !used then (true, padTo x.len [], [], [])
  else
    let nows := (area.map (fun a => outRec true 0 a.1 a.2)).flatten
    let ps := s.pollParts r x.node
    let go := fitParts (x.len - nows.length) (ps.filter (·.left) ++ ps.filter (fun p => !p.left))
    let sorted := sortBy (fun a b => decide (a.commit ≤ b.commit)) go
    (false, padTo x.len (nows ++ (sorted.map Part.record).flatten), ps, go)

/-- The module sends a poll (R219): what it carries has been sent, what had no room comes first in the next; a part first sent less than 10 µs
before its commit time is counted. -/
def State.sendPoll (s : State) (r c : Nat) (x : SchedEnt) : State :=
  let s := s.settleNet r x.node
  let (gated, body, ps, go) := s.pollBody r x
  let late := go.filter (fun p => !p.sent && decide (p.commit < s.now + 10000))
  let s := s.sendRing r (s.mkFrame r c 2 (if gated then 32 else 0) x.node body)
  let s := { s with parts := s.parts.map (fun p =>
    if go.contains p then { p with sent := true, left := false } else if ps.contains p then { p with left := true } else p) }
  if late.isEmpty then s
  else (s.p (BZ_STAT_LATE r) 1).p (BZ_LATEREC_COUNT r) (s.g (BZ_LATEREC_COUNT r) + late.length)

/-- The output-image words that replies of the basic cycle `c` carry (R210, R222): zeros while the outputs are gated (R379). -/
def State.replyWords (s : State) (r c len : Nat) : List Byte :=
  let m := match (s.ring r).snaps.find? (fun e => e.1 == c) with
    | some e => e.2
    | none => s.netOut
  if s.gated then padTo len [] else padTo len (m.rdN (0x10000 * (16 * r + s.nodeId r)) len)

/-- The body of the module's reply in an entry (R222): its own output words of the entry, with its Light, Watch or health
record in the last bytes (R224, R225, R394). -/
def State.replyBody (s : State) (r c : Nat) (x : SchedEnt) : List Byte × Nat :=
  let data := s.replyWords r c x.len
  if x.light then
    let data := data.take (x.len - 16)
    let data := if x.len ≥ 48 then padTo (x.len - 32) data ++ padTo 16 ((s.healthRecord r).getD []) else data
    match s.lightRecord r c with
    | some b => (padTo (x.len - 16) data ++ padTo 16 b, 4)
    | none => (padTo (x.len - 16) data ++ padTo 16 [], 0)
  else if x.watch then
    match s.watchRecord r x with
    | some b => (data.take (x.len - 16) ++ padTo 16 b, 8)
    | none => (data.take (x.len - 16) ++ padTo 16 [], 0)
  else (data, 0)

/-- Does the node send a sync reply with `SYNC` set (R234)? -/
def State.syncTx (s : State) (r : Nat) : Bool :=
  let off := ((s.ring r).d : Int) - s.g (BZ_POS_NS r)
  !s.on (BZ_CTRL_MODE r) && (s.isMaster r || (s.on (BZ_POS_VALID r) && off ≤ 100 && off ≥ -100))

/-- The module sends its reply of an entry (R222, R234); one with a Light record passes the holder's closure delay (R384). -/
def State.sendReply (s : State) (r c : Nat) (x : SchedEnt) : State :=
  let sync := x.sync && s.syncTx r
  let s := if x.sync then s.pb (BZ_SYNCSTAT_SYNCTX r) sync else s
  let (body, fl) := s.replyBody r c x
  let f := s.mkFrame r c 3 (fl + (if sync then 2 else 0)) 0xFF body
  if x.light && fl == 4 then s.holdLight r f.bytes else s.sendRing r f

/-- A reference message of this node (R242, R243), if its time-master rank sends now (R244). -/
def State.refBody (s : State) (r : Nat) (x : SchedEnt) : Option (List Byte) :=
  let k := s.g (BZ_SYNCCFG_TMRANK r)
  let quiet := (List.range k).all (fun j => tabGet (fun _ => 0) (s.ring r).refQuiet j + k * 1000000 ≤ s.now)
  if k ≤ 3 && quiet && x.len == 24 && s.on (BZ_CTRL_MODE r) then
    some (beBytes 1 k ++ beBytes 1 0 ++ beBytes 2 (s.ring r).refSeq ++ beBytes 4 (s.now % 2 ^ 32) ++
      beBytes 4 (s.now / 2 ^ 32) ++ beBytes 4 (s.pathAdd r (s.outPort r)) ++ beBytes 8 0)
  else none

/-- Is an entry's frame this node's to send in the basic cycle `c`? A poll is the master's, in a basic cycle in which its Mark has left
(R219, R253); a joined node sends its replies and references (R222, R249), unless its own stand-in Mark came back corrupted (R216). -/
def State.ownEntry (s : State) (r c : Nat) (x : SchedEnt) : Bool :=
  let y := s.ring r
  (if x.kind == 0 then s.isSender r && (s.cyc r c).sent else x.node == s.nodeId r) &&
  y.transmitting && !y.cold && s.on (BZ_CTRL_EN r) && x.inCycle (bcNum c) && !(s.cyc r c).corrupted

/-- `SLOT_TRANSMIT`: the slot of schedule entry `e` begins; `dev` is how far the frame's start lies from it by the
guardian's counter (R219, R222, R234, R253, R254). An entry that is not this node's to send does nothing. -/
def execSlotTransmit (r : Ring) (e : Fin 4096) (dev : Int) (s : State) : Res :=
  let r := r.val
  match (s.sched r).find? (fun x => x.e == e.val) with
  | none => .next s
  | some x =>
    let c := s.txCycle r x.off s.now
    if !s.ownEntry r c x then .next s
    else if dev > 200 || dev < -200 then .next ((s.guardianViolation r).afterLoss s)
    else if x.kind == 0 then .next (s.sendPoll r c x)
    else if x.kind == 1 then .next (s.sendReply r c x)
    else
      match s.refBody r x with
      | none => .next s
      | some b => .next ((s.sendRing r (s.mkFrame r c 4 0 0xFF b)).modRing r (fun y => { y with refSeq := (y.refSeq + 1) % 2 ^ 16 }))

/-! ### Probes and positions -/

/-- `DELAY_PROBE`: a port's probe of its segment ends, with λ in 1/16 ns or without an answer (R231). -/
def execDelayProbe (r : Ring) (port : RPort) (result : Option Nat) (s : State) : Res :=
  match port, result with
  | .a, some v => .next ((s.p (BZ_SEGA_DELAY r) v).p (BZ_SEGA_VALID r) 1)
  | .a, none => .next (s.p (BZ_SEGA_VALID r) 0)
  | .b, some v => .next ((s.p (BZ_SEGB_DELAY r) v).p (BZ_SEGB_VALID r) 1)
  | .b, none => .next (s.p (BZ_SEGB_VALID r) 0)

/-- A position word at the receive plane (R232): it is the node's position, not valid while a fold notice waits for its Mark (R257); one that
is missing or fails its parity check leaves the last. A node that sent no Mark sends its own word on. -/
def State.takePos (s : State) (r : Nat) (word : Option Nat) : State :=
  let s := match word with
    | some v => if s.isMaster r then s else (s.p (BZ_POS_NS r) v).pb (BZ_POS_VALID r) (!s.on (BZ_FOLD_NOTICE r))
    | none => s
  if s.isSender r then s.showDelay r else (s.showDelay r).sendPos r (s.outPort r) (s.g (BZ_POS_NS r)) 320

/-- `POSITION_WORD_RECEIVE`: the position word of the current basic cycle reaches a port (R232, R233). A node between the folds sends the
word of the secondary direction on from port A to port B. -/
def execPositionWordReceive (r : Ring) (port : RPort) (word : Option Nat) (s : State) : Res :=
  let r := r.val
  if port == s.rxPort r then .next (s.takePos r word)
  else if port == .a && s.g (BZ_FOLD_STATE r) == 0 then
    let s := s.modRing r (fun x => { x with posSec := word.getD x.posSec })
    .next (s.sendPos r 1 (s.ring r).posSec 320)
  else .next s

/-! ### Averaging at the macrocycle boundary -/

/-- The mean of a list, rounded towards minus infinity; 0 for an empty list. [DEDUCED: log 71] -/
def meanInt (xs : List Int) : Int := if xs.isEmpty then 0 else xs.foldl (· + ·) 0 / xs.length

/-- The fault-tolerant mean of R237: with four values or more the largest and the smallest are discarded. [DEDUCED: log 71] -/
def ftMean (xs : List Int) : Int :=
  if xs.length ≥ 4 then
    let ys := sortBy (fun a b => decide (a ≤ b)) xs
    meanInt ((ys.drop 1).take (ys.length - 2))
  else meanInt xs

/-- The values of one sync node over the macrocycle (R237): m in 1/256 ns and g in 2^−40, if it has at least ten used
deviations in each half. -/
def nodeTerms (devs : List Dev) (node : Nat) : Option (Int × Int) :=
  let a := (devs.filter (fun d => d.node == node && !d.late)).map (·.v * 256)
  let b := (devs.filter (fun d => d.node == node && d.late)).map (·.v * 256)
  if a.length ≥ 10 && b.length ≥ 10 then
    some (meanInt (a ++ b), (meanInt b - meanInt a) * 2 ^ 40 / (256 * 500000))
  else none

/-- The sync nodes that are not excluded (R236, R237). -/
def State.averaged (s : State) (r : Nat) : List Nat :=
  ((syncNodes ((s.sched r).filter (·.inCycle 0))).map (·.node)).filter (fun n => !(s.ring r).exclNow.contains n)

/-- The measurement of the macrocycle that ends (R237 in native mode, R243 in compatibility mode), in 1/256 ns and 2^−40. -/
def State.ringMeasure (s : State) (r : Nat) : Option (Int × Int × Nat × Nat) :=
  let x := s.ring r
  if s.on (BZ_CTRL_MODE r) then
    let a := (x.devs.filter (fun d => !d.late)).map (·.v)
    let b := (x.devs.filter (·.late)).map (·.v)
    if a.isEmpty || b.isEmpty then none
    else some (meanInt (a ++ b), (meanInt b - meanInt a) * 2 ^ 40 / (256 * 500000), 1, 1)
  else
    let nodes := s.averaged r
    let own := if nodes.contains (s.nodeId r) then [((0 : Int), (0 : Int))] else []
    let vs := own ++ (nodes.filter (· != s.nodeId r)).filterMap (nodeTerms x.devs)
    if vs.length ≤ 1 then none
    else some (ftMean (vs.map (·.1)), ftMean (vs.map (·.2)), if vs.length ≥ 4 then vs.length - 2 else vs.length, vs.length)

/-- The registers that show a macrocycle's measurement (R263): a node that is no sync node or is excluded shows 0. -/
def State.showMeasure (s : State) (r : Nat) : State :=
  let x := s.ring r
  let nodes := if s.on (BZ_CTRL_MODE r) then [] else s.averaged r
  let s := (List.range 16).foldl (fun s n => s.p (BZ_DEV_M r n)
    (match (if nodes.contains n then nodeTerms x.devs n else none) with
      | some (m, _) => u32 (m / 16)
      | none => 0)) s
  if x.held > 0 then s.modRing r (fun x => { x with measured := true })
  else match s.ringMeasure r with
  | none =>
    let s := ((s.p (BZ_SYNCSTAT_USED r) 0).p (BZ_SYNCSTAT_SEEN r) 0)
    s.modRing r (fun x => { x with measured := false })
  | some (o, rate, used, seen) =>
    let s := (s.p (BZ_OFFSET_O r) (u32 o)).p (BZ_RATE_R r) (u32 rate)
    let s := (s.p (BZ_SYNCSTAT_USED r) used).p (BZ_SYNCSTAT_SEEN r) seen
    s.modRing r (fun x => { x with measured := true })

/-- The node begins to transmit: it is joined (R249). A configured rank-0 node that joins another's Marks waits one
macrocycle more before it sends its own (R250). -/
def State.joinRing (s : State) (r : Nat) : State :=
  let s := (s.p (BZ_JOIN_PHASE r) 4).p (BZ_STAT_STATE r) 2
  s.modRing r (fun x => { x with transmitting := true, since := bcStart s.now
                                 r0Wait := if s.on (BZ_CTRL_MCAP r) && s.g (BZ_CTRL_RANK r) == 0 && !s.on (BZ_CTRL_LRANK r) then 2 else 0 })

/-- The time master that a compatibility-mode node follows from this boundary (R244). -/
def State.chooseRef (s : State) (r : Nat) : State :=
  if !s.on (BZ_CTRL_MODE r) then s
  else match (s.ring r).refSeen with
  | some k => ((s.p (BZ_REF_NODE r) (k % 16)).p (BZ_REF_RANK r) (k / 16)).p (BZ_REF_VALID r) 1
  | none => s.p (BZ_REF_VALID r) 0

/-- The mean of a list of delays, to 1 ns. [DEDUCED: log 71] -/
def meanNat (xs : List Nat) : Nat := xs.foldl (· + ·) 0 / xs.length

/-- The means of the Mark delays taken in the macrocycle (R207, R208): a closing node applies its closure from here. The macrocycle of a fold
gives no mean of D (R258). -/
def State.meanDelay (s : State) (r : Nat) : State :=
  let x := s.ring r
  let s := if x.ds.isEmpty then s else s.modRing r (fun y => { y with d := meanNat x.ds, ds := [] })
  let s := if x.ownDs.isEmpty || x.skipMean then s else s.modRing r (fun y => { y with dd := some (meanNat x.ownDs) })
  let s := s.modRing r (fun y => { y with ownDs := [], skipMean := false })
  let s := match (s.ring r).dd with
    | some d => if s.on (BZ_STAT_CLOSING r) && !x.ownDs.isEmpty && d ≤ 20000 then s.p (BZ_CLOSE_NS r) (20000 - d) else s
    | none => s
  s.showDelay r

/-- What a fold or unfold notice does at a node (R257, R258). -/
def State.foldNotice (s : State) (r : Nat) : State :=
  let s := (s.p (BZ_FOLD_NOTICE r) 1).p (BZ_POS_VALID r) 0
  let s := s.p (BZ_SYNCSTAT_HOLD r) 1
  let s := s.modCyc r (bcStart (s.now - s.txD r)) (fun y => { y with noStandin := true })
  s.modRing r (fun x => { x with held := 2, devs := [], skipMean := true, noticeAt := s.now })

/-- The node sends a notice in both directions (R257, R262): 1 of a fold, 2 of an unfold. -/
def State.sendNotice (s : State) (r kind : Nat) : State := (s.emit (.ringIdle r 0 kind 0)).emit (.ringIdle r 1 kind 0)

/-- An unfold of the segments that are ready (R262): both ends unfold and send notices. -/
def State.unfold (s : State) (r : Nat) : State :=
  if s.on (BZ_FOLD_READY r) then
    let x := s.ring r
    let st := s.g (BZ_FOLD_STATE r)
    let st := if x.readyA && st % 2 == 1 then st - 1 else st
    let st := if x.readyB && st / 2 % 2 == 1 then st - 2 else st
    let s := ((s.p (BZ_FOLD_STATE r) st).p (BZ_FOLD_READY r) 0).inc (BZ_FOLDS_COUNT r)
    let s := s.modRing r (fun x => { x with readyA := false, readyB := false })
    (s.sendNotice r 2).foldNotice r
  else s

/-- `MACROCYCLE_BOUNDARY`: a macrocycle ends and the next begins (R207, R208, R236 to R239, R244, R249, R250, R262). -/
def execMacrocycleBoundary (r : Ring) (s : State) : Res :=
  let r := r.val
  let before := s
  let s := s.showMeasure r
  let s := s.meanDelay r
  let s := s.chooseRef r
  let x := s.ring r
  let joined := s.g (BZ_JOIN_PHASE r) == 4
  let present := joined && (x.measured || x.held > 0)
  let o := if s.on (BZ_CTRL_MODE r) then sint32 (s.g (BZ_OFFSET_O r)) else sint32 (s.g (BZ_OFFSET_O r)) + x.corrNow
  let s := (s.pb (BZ_SYNCSTAT_PRESENT r) present).pb (BZ_SYNCSTAT_SETTLED r) (present && o ≤ 20 * 256 && o ≥ -20 * 256)
  let s := s.pb (BZ_SYNCSTAT_HOLD r) (x.held > 1)
  let s := s.p (BZ_SYNCEXCL_NODES r) ((List.range 16).foldl (fun v n => if x.exclNext.contains n then v + 2 ^ n else v) 0)
  let s := s.modRing r (fun x => { x with devs := [], exclNow := x.exclNext, exclNext := [], held := x.held - 1, refSeen := none
                                          r0Wait := x.r0Wait - 1, corr := x.corrNow, corrNow := 0
                                          coldYield := x.coldYield || (x.rank0Act && x.r0Seen && s.g (BZ_CTRL_RANK r) != 0)
                                          r0Seen := false })
  let s := if s.g (BZ_JOIN_PHASE r) == 2 && s.g (BZ_JOIN_MARKS r) ≥ 50 then s.joinRing r else s
  .next (((s.unfold r).unitMacro r).afterLoss before)

/-! ### Enabling, silence, loss -/

/-- The configured fields loaded into a ring's block (R482), with the unit's `LRANK` and `RANK` (R377). -/
def State.loadRingCfg (s : State) (r : Nat) : State :=
  match (if r == 0 then s.cfg.ring1 else s.cfg.ring2) with
  | none => s
  | some c =>
    let s := s.p (BZ_NENT_COUNT r) c.nent
    let s := ((c.entries.zipIdx).foldl (fun s e =>
      { s with regs := (s.regs.wr (BZ_SENTA_OFFSET r e.2).reg e.1.1).wr (BZ_SENTB_LEN r e.2).reg e.1.2 }) s)
    let s := (((s.p (BZ_CTRL_MCAP r) (getBits c.ctrl 1 1)).p (BZ_CTRL_RANK r) (getBits c.ctrl 2 2)).p
      (BZ_CTRL_MODE r) (getBits c.ctrl 5 1)).p (BZ_CTRL_NODE r) (getBits c.ctrl 8 4)
    let s := s.p (BZ_CTRL_NODES r) (getBits c.ctrl 12 5)
    let s := ((s.p (BZ_SYNCCFG_TMRANK r) (getBits c.sync 0 3)).p (BZ_SYNCCFG_R0VALID r) (getBits c.sync 3 1)).p
      (BZ_SYNCCFG_R0NODE r) (getBits c.sync 4 4)
    if s.unitLight r then (s.p (BZ_CTRL_LRANK r) 1).p (BZ_CTRL_RANK r) 1 else s.p (BZ_CTRL_LRANK r) 0

/-- The node folds at a port that shows a break (R256), unless it already is; it sends fold notices. -/
def State.foldAt (s : State) (r : Nat) (port : RPort) : State :=
  let st := s.g (BZ_FOLD_STATE r)
  let new := match port with
    | .a => if st % 2 == 1 then st else st + 1
    | .b => if st / 2 % 2 == 1 then st else st + 2
  if new == st then s else ((((s.p (BZ_FOLD_STATE r) new).inc (BZ_FOLDS_COUNT r)).sendNotice r 1).foldNotice r)

/-- A write of 1 to `BZ_CTRL.EN` (R226, R227, R245, R252): the table is checked; a failing one is refused with a notice. A port whose
segment has no link folds at once. -/
def State.enableRing (s : State) (r : Nat) : State :=
  if s.on (BZ_CTRL_EN r) || (s.ring r).off then s
  else
    let nent := s.g (BZ_NENT_COUNT r)
    match schedCheck (s.g (BZ_CTRL_NODES r)) (s.on (BZ_CTRL_MODE r)) nent (s.sched r) with
    | some (rule, e) =>
      let s := ((s.p (BZ_STAT_SCHERR r) 1).p (BZ_SCHERR_RULE r) rule).p (BZ_SCHERR_ENTRY r) e
      s.notice (0x18 + r) 0x0004 (r + 1) (s.word (BZ_SCHERR_RULE r))
    | none =>
      let id := schedId nent (s.g (BZ_CTRL_NODES r)) (s.g (BZ_CTRL_MODE r)) (s.schedWords r)
      let s := (s.p (BZ_CTRL_EN r) 1).p (BZ_SCHEDID_ID r) id
      let s := (s.p (BZ_STAT_STATE r) 1).p (BZ_JOIN_PHASE r) 1
      let s := s.modRing r (fun x => {
        staged := x.staged, chkRule := x.chkRule, chkEntry := x.chkEntry, violTimes := x.violTimes, outArea := x.outArea
        recs := x.recs, posSec := x.posSec, readyA := x.readyA, readyB := x.readyB, lastActivity := s.tu.upNs })
      let s := if s.on (BZ_SEGA_LOS r) then s.foldAt r .a else s
      if s.on (BZ_SEGB_LOS r) then s.foldAt r .b else s

/-- `RING_ENABLE`: the Keeper writes the stored configuration into the block and sets `EN` (R227, R245, R482). -/
def execRingEnable (r : Ring) (s : State) : Res :=
  .next (if s.on (BZ_CTRL_EN r) then s else (s.loadRingCfg r).enableRing r)

/-- `RING_DISABLE`: `EN` written to 0: transmission stops at once, forwarding goes on (R206, R229). -/
def execRingDisable (r : Ring) (s : State) : Res := .next ((s.disableRing r).afterLoss s)

/-- The silence of R246 in ns: 1,000 µs and 23 µs for each node ID. -/
def State.silence (s : State) (r : Nat) : Nat := 1000000 + s.nodeId r * 23000

/-- `LISTEN_SILENCE_EXPIRY`: the silence of R246 ends and a master-capable node of a Synchronising module cold-starts (R247, R253): it
steps its time so that the instant 1 µs later is a macrocycle start, and sends its Marks from there. It steps back.
[DESIGN CHOICE: log 115] -/
def execListenSilenceExpiry (r : Ring) (s : State) : Res :=
  let r := r.val
  if s.g (BZ_JOIN_PHASE r) == 1 && s.on (BZ_CTRL_MCAP r) && s.mode == mSynchronising && s.on (BZ_CTRL_EN r) &&
      decide ((s.ring r).lastActivity + s.silence r ≤ s.tu.upNs) then
    let target := (s.now + 1000) % 1000000
    let s := s.askStep (-(target : Int))
    let s := (s.p (BZ_JOIN_PHASE r) 3).p (BZ_STAT_STATE r) 3
    .next (s.modRing r (fun x => { x with cold := true, coldCount := 0, rank0Act := true, coldYield := false, transmitting := true
                                          ahead := {}, cur := {}, prev := {}, dd := none, ownDs := [], longD := 0, r0Seen := false }))
  else .next s

/-- The violations of the last 3,600 s (R254, R263). -/
def State.violHour (s : State) (r : Nat) : State :=
  s.p (BZ_GVHOUR_COUNT r) (min 255 ((s.ring r).violTimes.filter (fun t => s.opms < t + 3600000)).length)

/-- `MARKS_LOST`: eight basic cycles without an accepted Mark: a joined node stops and listens, with a notice (R251); a
counting node returns to Listening (R249). -/
def execMarksLost (r : Ring) (s : State) : Res :=
  let r := r.val
  let again (s : State) := s.modRing r (fun x => { x with lastActivity := s.tu.upNs, missed := 0 })
  if (s.ring r).missed < 8 then .next s
  else if s.g (BZ_JOIN_PHASE r) == 4 then
    let s' := again ((s.ringSilent r 1).inc (BZ_MARKLOST_COUNT r))
    .next ((s'.notice (0x18 + r) 0x0002 (r + 1) (s'.word (BZ_JOIN_PHASE r))).afterLoss s)
  else if s.g (BZ_JOIN_PHASE r) == 2 then .next (again (s.ringSilent r 1))
  else .next s

/-! ### Folds -/

/-- `RING_BREAK`: a port detects a break and the node folds there (R256). -/
def execRingBreak (r : Ring) (port : RPort) (s : State) : Res :=
  match port with
  | .a =>
    let s := (s.p (BZ_SEGA_LOS r) 1).modRing r (fun x => { x with readyA := false })
    .next ((s.pb (BZ_FOLD_READY r) (s.ring r).readyB).foldAt r .a)
  | .b =>
    let s := (s.p (BZ_SEGB_LOS r) 1).modRing r (fun x => { x with readyB := false })
    .next ((s.pb (BZ_FOLD_READY r) (s.ring r).readyA).foldAt r .b)

/-- `FOLD_NOTICE_RECEIVE`: a fold or unfold notice arrives (R257, R258); the node sends it on along the path of the Mark, once. -/
def execFoldNoticeReceive (r : Ring) (port : RPort) (unfold : Bool) (s : State) : Res :=
  let r := r.val
  let kind := if unfold then 2 else 1
  let s := if s.on (BZ_FOLD_NOTICE r) then s
    else if port == s.rxPort r then s.emit (.ringIdle r (s.outPort r) kind 0)
    else if port == .a && s.g (BZ_FOLD_STATE r) == 0 then s.emit (.ringIdle r 1 kind 0) else s
  .next (s.foldNotice r)

/-- `UNFOLD_READY`: a broken segment has carried valid idle and probes for 10 ms (R262): no break is detected there any more, and the end
confirms it by a ready word. -/
def execUnfoldReady (r : Ring) (port : RPort) (s : State) : Res :=
  let st := s.g (BZ_FOLD_STATE r)
  match port with
  | .a => if st % 2 == 1 then
      .next ((((s.p (BZ_FOLD_READY r) 1).p (BZ_SEGA_LOS r) 0).modRing r (fun x => { x with readyA := true })).emit (.ringIdle r 0 3 0))
    else .next s
  | .b => if st / 2 % 2 == 1 then
      .next ((((s.p (BZ_FOLD_READY r) 1).p (BZ_SEGB_LOS r) 0).modRing r (fun x => { x with readyB := true })).emit (.ringIdle r 1 3 0))
    else .next s

end Sys2Proof.Machine
end

