-- ==== Sys2Proof/Machine/RegAccess.lean ====
section
/-! DEFINITION. A write to a register as its access codes give it (R12), the encodings that R14 and the register tables call
illegal, the values that registers show of other state (R73, R411, R502), and a read of any register. -/

namespace Sys2Proof.Machine

/-! ### Modes in which RWM fields are written (R12) -/

/-- The modes in which a block's RWM fields are writable. -/
def rwmModes (a : Nat) : List Nat :=
  let p := a / 0x10000
  if p == 0x4000 || p == 0x4003 || p == 0x5004 || p == 0x6000 || p == 0x6001 then [mBoot, mCommissioning, mMaintenance]
  else if p == 0x4001 || p == 0x4002 then [mBoot, mCommissioning]
  else if p == 0x4004 then [mCommissioning, mSynchronising]
  else if p == 0x4005 then [mMaintenance, mSelfTest]
  else if p == 0x4009 then [mCommissioning, mMaintenance]
  else if p == 0x5000 then (if a % 0x10000 == 0x14 then [mSynchronising] else [mBoot, mSynchronising])
  else if p == 0x5003 then [mBoot, mCommissioning, mSynchronising, mMaintenance]
  else []

/-- A word after a write of `v`, field by field (R12); `rwm` says whether RWM fields take it. -/
def mergeFlds (rwm : Bool) (old v : Word) : List RegFld → Word
  | [] => old
  | f :: fs =>
    let x := getBits v f.lo f.w
    let o := getBits old f.lo f.w
    let new := match f.acc with
      | .rw => x
      | .rwm => if rwm then x else o
      | .w1c => o - (o &&& x)
      | .w1s => o ||| x
      | .ro | .wo => o
    mergeFlds rwm (putBits old f.lo f.w new) v fs

/-! ### Illegal encodings (R14) -/

/-- Is a number within bounds? -/
def within (lo hi v : Nat) : Bool := decide (lo ≤ v) && decide (v ≤ hi)

/-- Does a mode of an analogue channel fit the loaded application (R341)? -/
def State.modeFits (s : State) (n mode : Nat) : Bool :=
  !(s.app.pkg.outs.any (fun (b : OutBind) => b.tgt == .loop n) && mode != 1) &&
  !(s.app.pkg.ins.any (fun (b : InBind) => b.src == .analogue n) && mode == 0)

/-- Is the address range of pages a part of one region of R148? -/
def oneRegion (page pages : Nat) : Bool :=
  let r := regionOf (page * 4096)
  r != .none && regionOf ((page + pages) * 4096 - 1) == r

/-- The regions that R148 opens to DMA. -/
def Region.dma : Region → Bool
  | .dram | .tcm | .inImg | .outImg | .rack => true
  | _ => false

/-- Is every page of a range in a region open to DMA (R176)? Lane DRAM and TCM touch, and so do the two images. -/
def dmaRange (page pages : Nat) : Bool :=
  let lo := page * 4096
  let hi := (page + pages) * 4096
  decide (hi ≤ 0x100100000) || (decide (0x140000000 ≤ lo) && decide (hi ≤ 0x140080000)) || (decide (0x200000000 ≤ lo) && decide (hi ≤ 0x300000000))

/-- The Keeper's blocks: does the register file with a new word hold a legal encoding at `off` of page `p`? -/
def State.legalKeeper (s : State) (r : Regs) (p off : Nat) : Bool :=
  if p == 0x4000 then
    within 5 200 (r.g VX_CTRL_WINDOW) && within 5 200 (r.g VX_CTRL_CMDWIN) && !(s.variant == .zm60 && r.g VX_CTRL_SPAREEN == 1)
  else if p == 0x4001 then
    if within 0x100 0x4FF off then
      let t := (off - 0x100) / 0x10
      r.g (SC_TXCFG_VALID t) == 0 || (r.g (SC_TXID_CONNID t) != 0 && within 1 64 (r.g (SC_TXCFG_LEN t)))
    else if within 0x1000 0x1FFF off then
      let c := (off - 0x1000) / 0x20
      r.g (SC_RXCFG_RECOV c) != 0 && r.g (SC_RXWIN_SEQWIN c) != 0 &&
      (r.g (SC_RXCFG_VALID c) == 0 || (r.g (SC_RXID_CONNID c) != 0 && within 1 64 (r.g (SC_RXCFG_LEN c)) &&
        within 1 1000000 (r.g (SC_RXAGE_MAXAGE c)) && within 1 1000000 (r.g (SC_RXWDT_WDT c))))
    else true
  else if p == 0x4002 then
    if within 0x40 0xBF off then
      let n := (off - 0x40) / 0x40 + 1
      match (off - 0x40) % 0x40 with
      | 0x0C => r.g (SF_SS1DEC_DECEL n) != 0
      | 0x10 => r.g (SF_SS1VTOL_VTOL n) ≤ 8388607
      | 0x14 => within 1 8388607 (r.g (SF_SS1VSTILL_VSTILL n))
      | 0x18 => within 1 10000 (r.g (SF_SS1TIM_TMAX n)) && r.g (SF_SS1TIM_DELAY n) ≤ 1000 && r.g (SF_SS1TIM_STILLT n) != 0
      | 0x1C => outCodes.contains (r.g (SF_SS1OUT_REQOUT n))
      | 0x20 => within 200 1000 (r.g (SF_TEST_PULSE n)) && within 100 60000 (r.g (SF_TEST_PERIOD n))
      | _ => true
    else if within 0x100 0x17F off then within 5 500 (r.g (SF_PAIRCFG_DT ((off - 0x100) / 0x10)))
    else true
  else if p == 0x4003 then within 100 10000 (r.g RB_TIMER_DISCARD) && within 2 1000 (r.g RB_TIMER_RDTMO)
  else if p == 0x4004 then
    if off == 0 then r.g UN_CFG_EN == 0 || (r.g UN_CFG_UNIT != 0 && (r.g UN_CFG_R1 == 1 || r.g UN_CFG_R2 == 1))
    else if within 0x100 0x13F off then
      let w := (off - 0x100) / 0x10
      r.g (UN_WUNIT_VALID w) == 0 || r.g (UN_WUNIT_UNIT w) != 0
    else true
  else if p == 0x4005 then
    if within 0x100 0x3FF off && off % 0x10 == 4 then
      let k := (off - 0x100) / 0x10
      (srcClasses k).contains (r.g (FC_FORCE_CLASS k))
    else if within 0x100 0x3FF off then !(srcClasses ((off - 0x100) / 0x10)).isEmpty
    else true
  else if p == 0x4009 then
    r.g LC_WAKE_WAKEDI ≤ 16 && (r.g LC_WAKE_RTCEN == 0 || r.g LC_WAKET_SEC != 0)
  else true

/-- The network die's blocks. -/
def legalNetwork (r : Regs) (p off : Nat) : Bool :=
  if p == 0x5000 then
    if off == 0x10 then incLegal (r.g TU_INC_I_I * 2 ^ 32 + r.g TU_INC_F_F)
    else if off == 0x28 then r.g TU_STAT_SSTATE ≤ 4
    else if off == 0x30 then r.g TU_TIOCFG_DIR1 ≤ 1 && r.g TU_TIOCFG_DIR2 ≤ 1 && r.g TU_TIOCFG_DIR3 ≤ 1 && r.g TU_TIOCFG_DIR4 ≤ 1
    else if within 0x100 0x1FF off && off % 16 == 0 then capCfgLegal (r.rd (0x50000000 + off))
    else if within 0x200 0x2FF off then
      let n := (off - 0x200) / 16
      if off % 16 == 0 then trgLegal (r.g (TU_TRGCFG_TGT n)) && !(r.g (TU_TRGCFG_ACTION n) == 0 && r.g (TU_TRGCFG_WIDTH n) == 0)
      else if off % 16 == 8 then r.g (TU_TRGPER_NS n) == 0 || within 1000 2000000000 (r.g (TU_TRGPER_NS n))
      else true
    else true
  else if p == 0x5001 || p == 0x5002 then
    let k := p - 0x5001
    if off == 0 then within 2 16 (r.g (BZ_CTRL_NODES k))
    else if off == 8 then r.g (BZ_NENT_COUNT k) ≤ 4096
    else if off == 0x100 then r.g (BZ_SYNCCFG_TMRANK k) ≤ 3 || r.g (BZ_SYNCCFG_TMRANK k) == 7
    else if 0x8000 ≤ off && off % 8 == 0 then
      let e := (off - 0x8000) / 8
      (r.g (BZ_SENTA_BCYC k e) ≤ 49 || r.g (BZ_SENTA_BCYC k e) == 63) && r.g (BZ_SENTA_KIND k e) != 3
    else true
  else if p == 0x5003 then
    if off == 0 then within 1 4094 (r.g EN_CTRL_SVCVID)
    else if off == 4 then
      r.g EN_PTPCFG_TCMODE != 3 && r.g EN_PTPCFG_PROFILE != 3 && r.g EN_PTPCFG_TRANSPORT != 3 && r.g EN_PTPCFG_DOMAIN ≤ 127 &&
      (r.g EN_PTPCFG_LOGSYNC ≤ 1 || 9 ≤ r.g EN_PTPCFG_LOGSYNC)
    else if within 0x40 0x8F off && off % 16 == 0 then within 1 4094 (r.g (EN_PORT_PVID ((off - 0x40) / 16)))
    else if within 0x1000 0x11FF off then
      let n := (off - 0x1000) / 8
      r.g (EN_PUBCFG_EVERY n) != 0 && (r.g (EN_PUBCFG_VALID n) == 0 || (r.g (EN_PUBID_PUBID n) != 0 && within 1 1400 (r.g (EN_PUBCFG_LEN n))))
    else if within 0x2000 0x27FF off then
      let n := (off - 0x2000) / 16
      r.g (EN_SUBCFG_VALID n) == 0 || (r.g (EN_SUBID_PUBID n) != 0 && r.g (EN_SUBCFG_TMO n) != 0 && within 1 1400 (r.g (EN_SUBCFG_LEN n)))
    else true
  else if p == 0x5004 then
    if off == 0 then r.g RB_LSCTRL_RATE != 3 && r.g RB_LSCTRL_CYCLE != 0
    else if within 0x104 0x17F off then r.g (RB_LSSTN_OUTLEN ((off - 0x100) / 4)) ≤ 240 && r.g (RB_LSSTN_INLEN ((off - 0x100) / 4)) ≤ 240
    else true
  else true

/-- The field die's blocks. -/
def State.legalField (s : State) (r : Regs) (p off : Nat) : Bool :=
  if p == 0x6000 then
    if off == 8 then 3 ≤ r.g FD_SILCFG_N && within 100 1000000 (r.g FD_SILCFG_PERIOD)
    else if within 0x40 0x7F off then r.g (FD_DICFG_TOP ((off - 0x40) / 4 + 1)) != 0
    else if within 0x100 0x15F off && off % 8 == 0 then r.g (FD_HSOCFG_SAFE ((off - 0x100) / 8 + 1)) != 3
    else if within 0x180 0x19F off && off % 8 == 0 then r.g (FD_FPPCFG_SAFE ((off - 0x180) / 8 + 1)) != 3
    else true
  else if p == 0x6001 then
    if within 0x40 0xFF off && off % 0x20 == 0 then
      let n := (off - 0x40) / 0x20 + 1
      r.g (AN_CFG_SAFE n) != 3 && s.modeFits n (r.g (AN_CFG_MODE n))
    else true
  else true

/-- The bits that each group of a comparator has (R77). -/
def groupBits : Nat → Nat
  | 0 => 180
  | 1 => 112
  | 2 => 64
  | _ => 32

/-- Do two log partitions overlap (R147)? -/
def partsMeet (b n b' n' : Nat) : Bool := n != 0 && n' != 0 && decide (b < b' + n') && decide (b' < b + n)

/-- A lane's blocks. -/
def legalLane (r : Regs) (l q off : Nat) : Bool :=
  if q == 0 then
    if off == 4 then !(r.g (PX_CMD_PAIR l) == 0 && r.g (PX_CMD_OP l) == 0)
    else if within 0x14 0x1F off then
      let a := (r.rd (laneBase l + off)).toNat * 4
      regionOf a == .dram || regionOf a == .tcm
    else if off == 0x20 then r.g (PX_FORCE_BIT l) < groupBits (r.g (PX_FORCE_GROUP l))
    else true
  else if q == 1 then
    if within 0x40 0x7F off then
      let n := (off - 0x40) / 4
      r.g (RA_LOG_BASE l n) + r.g (RA_LOG_SIZE l n) ≤ 64 &&
      (List.range 16).all (fun m => m == n || !partsMeet (r.g (RA_LOG_BASE l n)) (r.g (RA_LOG_SIZE l n)) (r.g (RA_LOG_BASE l m)) (r.g (RA_LOG_SIZE l m)))
    else if within 0x800 0xFFF off && off % 8 == 0 then
      let e := (off - 0x800) / 8
      4096 ≤ r.g (RA_PTAB_WORD l e) && r.g (RA_PTAB_RULE l e) ≤ 1 && r.g (RA_PTAB_WIDTH l e) ≤ 2
    else true
  else if q == 3 then
    if within 0x100 0x2FF off then
      let e := (off - 0x100) / 8
      r.g (MM_RCFG_VALID l e) == 0 || oneRegion (r.g (MM_RBASE_BASE l e)) (r.g (MM_RCFG_PAGES l e) + 1)
    else if within 0x400 0x7FF off then
      let i := (off - 0x400) / 16
      r.g (MM_IOCFG_VALID l i) == 0 ||
      dmaRange (r.g (MM_IOTGT_TGT l i)) (r.g (MM_IOCFG_PAGES l i) + 1)
    else true
  else if q == 5 then (if within 0x50 0x6F off then r.g (TC_STARVTHR_US l ((off - 0x50) / 4)) != 0 else true)
  else true

/-- Does the register file with a new word at `a` hold a legal encoding there? -/
def State.legal (s : State) (r : Regs) (a : Nat) : Bool :=
  let p := a / 0x10000
  let off := regOff a
  if p < 0x5000 then s.legalKeeper r p off
  else if p < 0x6000 then legalNetwork r p off
  else if p < 0x7000 then s.legalField r p off
  else legalLane r (p / 0x100 - 0x70) (p % 0x100) off

/-! ### The notices of refused writes (R498) -/

/-- The element index that a notice of a register write names: the register's number within a block is not given, so 0; a lane's
block reports under the lane's own source. -/
def State.illegalWrite (s : State) (a : Nat) : State :=
  if a / 0x10000 == 0x4000 || a / 0x10000 % 0x100 == 6 && 0x7000 ≤ a / 0x10000 then s.notice 0x10 0x0003 0 (s.regs.rd a)
  else if 0x7000 ≤ a / 0x10000 then s.notice (0x24 + (a / 0x1000000 - 0x70)) 0x0002 0 (s.regs.rd a)
  else s.notice 0x22 0x0002 0 (s.regs.rd a)

/-! ### A write (R12, R14) -/

/-- Does a field list hold RWM fields? -/
def hasRwm (fs : List RegFld) : Bool := fs.any (fun f => f.acc == .rwm)

/-- Is an address of the module register space in a mapped block (R34 to R36)? The whole lane D window of a ZM60-E4 answers (R37). -/
def State.modMapped (s : State) (a : Nat) : Bool :=
  (pageFams (a / 0x10000)).isSome || (s.variant == .zm60 && a / 0x1000000 == 0x73)

/-- A write of a whole word to the register at `a` by its access codes: RWM fields outside their modes stay, with a notice (R12);
an illegal encoding that the write would place discards it, with a notice (R14). What a field's change brings about beside its value follows in
`State.afterWrite`. -/
def State.plainWrite (s : State) (a : Nat) (v : Word) (fs : List RegFld) : State × Bool :=
  let rwm := (rwmModes a).contains s.mode
  let new := mergeFlds rwm (s.regs.rd a) v fs
  let s' : State := { s with regs := s.regs.wr a new }
  if hasRwm fs && !rwm then
    let ok := s.legal (s.regs.wr a new) a
    let s := if ok then s' else s
    (s.notice 0x22 0x0001 0 (s.regs.rd a), ok)
  else if !s.legal (s.regs.wr a new) a then (s.illegalWrite a, false)
  else (s', true)

/-! ### What registers show (R71, R73, R188, R411, R418, R437, R502) -/

/-- The 32-bit word at byte offset `i` of some bytes, little-endian. -/
def wordAt (bs : List Byte) (i : Nat) : Word := BitVec.ofNat 32 (leAt bs i 4)

/-- The sequence number `k` after another (R496): 0 is passed over. -/
def seqPlus (n k : Nat) : Nat :=
  let v := n + k
  if n == 0 then v else (v - 1) % 0xFFFFFFFF + 1

/-- A word of the event window (R502). -/
def State.evWin (s : State) (k : Nat) : Word :=
  let q := seqPlus (s.g EV_CURSOR_SEQ) (k / 16)
  match s.records.find? (fun r => r.seq == q) with
  | some r => wordAt r.bytes (4 * (k % 16))
  | none => 0

/-- The load current that `FD_HSOSTATn.MA` shows, saturating (R339): an output that is off has none. -/
def State.loadNow (s : State) (n : Nat) : Nat := if s.outLevel n == some true then min (Config.loadMa n s.now) 4095 else 0

/-- The word that a read of the register at `a` returns. WO fields read 0 (R12); `SC_STAT.TIMEOK` shows `TU_STAT.SSTATE` (R298). -/
def State.regView (s : State) (a : Nat) : Word :=
  let p := a / 0x10000
  let off := a % 0x10000
  if p == 0x4006 && 0x1000 ≤ off && off < 0x2000 then s.evWin ((off - 0x1000) / 4)
  else if p == 0x4005 && 0x1000 ≤ off && off < 0x1800 then
    let h := (off - 0x1000) / 0x40
    if off % 0x40 < 48 then wordAt (tabGet (fun _ => {}) s.fc.hist h : HistEnt).bytes (off % 0x40) else 0
  else if 0x7000 ≤ p && p % 0x100 == 2 && 0x10 ≤ off && off < 0x30 then
    let l := p / 0x100 - 0x70
    let t := s.g (SD_CTRL_SEL l)
    let x := s.lane l
    let d := if off < 0x20 then x.dig t else tabGet (fun _ => 0) x.snap t
    BitVec.ofNat 32 (d.toNat / 2 ^ (8 * (off % 0x10)))
  else if 0x7000 ≤ p && p % 0x100 == 4 && off == 0x800 then
    let l := p / 0x100 - 0x70
    BitVec.ofNat 32 ((List.range 16).foldl (fun v n => v + s.g (DM_STAT_DONE l n) * 2 ^ n +
      (if s.on (DM_STAT_FAULT l n) || s.on (DM_STAT_REFUSED l n) then 2 ^ (16 + n) else 0)) 0)
  else if p == 0x4008 && off < 0x7000 && off % 0x1000 < 0xC00 then wordAt (s.mb.rdN off 4) 0
  else if a == 0x40010004 then (s.regs.rd a) ||| (if s.g TU_STAT_SSTATE == 0 then 0 else 0x100)
  else if p == 0x6000 && 0x100 ≤ off && off < 0x160 && off % 8 == 4 then
    putBits (s.regs.rd a) 16 12 (s.loadNow ((off - 0x104) / 8 + 1))
  else match regFlds a with
    | none => 0
    | some fs => mergeFlds false (s.regs.rd a) 0 (fs.map (fun f => if f.acc == .wo then { f with acc := .rw } else { f with acc := .ro }))

end Sys2Proof.Machine
end

