-- ==== Sys2Proof/Machine/Pairs.lean ====
section
/-! DEFINITION. Delayed-lockstep pairs (R74 to R92): split and join sequences, dispatch, comparator tests, pair faults. -/

namespace Sys2Proof.Machine

/-- Is a pair in a split or join sequence (R85)? -/
def State.pairBusy (s : State) (l p : Nat) : Bool := s.on (PX_STAT_BUSY l) && s.g (PX_STAT_PAIR l) == p

/-- The comparator of a pair armed or disarmed. -/
def State.arming (s : State) (l p : Nat) (on : Bool) : State :=
  let v := s.g (PX_MODE_ARMED l)
  s.p (PX_MODE_ARMED l) (v - (if bit v p then 2 ^ p else 0) + (if on then 2 ^ p else 0))

/-- The notice of a lane's own block (R498). -/
def State.laneNotice (s : State) (l code elem : Nat) (st : Word) : State := s.notice (0x24 + l) code elem st

/-! ### Pair faults (R78, R89 to R91) -/

/-- The element that a kind of fault suspects (R90). -/
def suspectOf (kind : Nat) : Nat := if kind == 1 then 0 else if kind ≤ 4 then 1 else if kind == 5 then 2 else 3

/-- The fields of a pair's record. -/
def State.setDiag (s : State) (l p kind group b : Nat) : State :=
  let s := ((s.p (PX_DIAG_VALID l p) 1).p (PX_DIAG_KIND l p) kind).p (PX_DIAG_SUSPECT l p) (suspectOf kind)
  (s.p (PX_DIAG_GROUP l p) group).p (PX_DIAG_BIT l p) b

/-- The pair records its first fault only, of several that arise at one instant the one of the highest kind (R91). [DEDUCED: log 68] -/
def State.pairDiag (s : State) (l p kind group b : Nat) : State :=
  if !s.on (PX_DIAG_VALID l p) then
    (s.setDiag l p kind group b).modLane l (fun x => { x with diagAt := tabSet (fun _ => 0) x.diagAt p (s.tu.upNs + 1) })
  else if tabGet (fun _ => 0) (s.lane l).diagAt p == s.tu.upNs + 1 then
    if s.g (PX_DIAG_KIND l p) < kind then s.setDiag l p kind group b else s
  else s.p (PX_DIAG_MORE l p) 1

/-- The four records of a lane as the data of an exclusion's event record (R91). -/
def State.diagData (s : State) (l : Nat) : List Byte :=
  ([0, 1, 2, 3].map (fun n => leBytes 4 (s.word (PX_DIAG_VALID l n)).toNat)).flatten

/-- A pair fault: both cores halt, the fault is recorded, class 1 of the lane's pairs is raised with the four records as its data
(R78, R91). -/
def State.pairFault (s : State) (l p kind group b : Nat) : State :=
  let s := s.pairDiag l p kind group b
  let s := s.modLane l (fun x => { x with halted := if x.halted.contains p then x.halted else p :: x.halted, diagSeq := s.ev.nextSeq })
  s.take { cls := 1, src := l, code := kind, data := some (s.diagData l) }

/-- A pair's record as one word: valid, kind, suspect, group and bit. -/
def diagWord (kind group b : Nat) : Nat := 1 + 2 * kind + 16 * suspectOf kind + 64 * group + 256 * b

/-- Four bytes of some data replaced. -/
def putWord (bs : List Byte) (i v : Nat) : List Byte := bs.take (4 * i) ++ leBytes 4 v ++ bs.drop (4 * i + 4)

/-- A fault of a pair whose fault of the same instant has just excluded the lane: the record written for the exclusion keeps the higher kind
(R91). The lane's own copies are gone. [DEDUCED: log 68] -/
def State.sameClock (s : State) (l p kind group b : Nat) : State :=
  let x := s.lane l
  if tabGet (fun _ => 0) x.diagAt p != s.tu.upNs + 1 then s
  else
    let fix (bs : List Byte) : List Byte := if leAt bs (4 * p) 4 / 2 % 8 < kind then putWord bs p (diagWord kind group b) else bs
    let recs (e : EvRec) : EvRec := if e.seq == x.diagSeq && e.source == 0x0100 + l then { e with data := fix e.data } else e
    let ents (e : HistEnt) : HistEnt := if e.evseq == x.diagSeq && e.source == 0x0100 + l then { e with data := fix e.data } else e
    { s with ev := { s.ev with flash := s.ev.flash.map recs, staged := s.ev.staged.map recs }
             fc := { s.fc with hist := s.fc.hist.map (fun (e : Nat × HistEnt) => (e.1, ents e.2)) } }

/-- A fault that a pair detects, if its lane is at work; one of the instant of the lane's exclusion still counts for its record. -/
def State.pairEvent (s : State) (l p kind group b : Nat) (armed : Bool) : State :=
  if s.coresRun l then (if armed then s.pairFault l p kind group b else s) else s.sameClock l p kind group b

/-- `COMPARATOR_MISMATCH`: an armed comparator finds a bit unequal (R78). -/
def execComparatorMismatch (l : Lane) (p : Pair) (group : Fin 4) (b : Fin 256) (s : State) : Res :=
  .next (s.pairEvent l.val p.val 1 group.val b.val (bit (s.g (PX_MODE_ARMED l.val)) p.val))

/-- `RAIL_MISMATCH`: `MATCH` and `MATCH_N` equal at a clock edge (R77, R90). -/
def execRailMismatch (l : Lane) (p : Pair) (s : State) : Res :=
  .next (s.pairEvent l.val p.val 4 0 0 (bit (s.g (PX_MODE_ARMED l.val)) p.val))

/-- `DELAY_PARITY_ERROR`: a parity error of a delay register stage; a split pair has no delay line in use (R79, R90). [DEDUCED: log 68] -/
def execDelayParityError (l : Lane) (p : Pair) (fromOutputs : Bool) (group : Fin 4) (b : Fin 256) (s : State) : Res :=
  .next (s.pairEvent l.val p.val (if fromOutputs then 5 else 6) group.val (b.val / 32 * 32) (s.pairMode l.val p.val != 2))

/-! ### Forced tests (R87 to R89) -/

/-- A write of `PX_FORCE` (R87, R92). -/
def State.pxForce (s : State) (l : Nat) (v : Word) : State :=
  let p := getBits v 0 2
  let g := getBits v 2 2
  let b := getBits v 4 8
  if groupBits g ≤ b then s.laneNotice l 0x0002 p (s.word (PX_FORCE_PAIR l))
  else
    let go := getBits v 16 1 == 1
    if go && (s.pairMode l p != 0 || s.pairBusy l p) then s.laneNotice l 0x0006 p (s.word (PX_FORCE_PAIR l))
    else
      let s := ((s.p (PX_FORCE_PAIR l) p).p (PX_FORCE_GROUP l) g).p (PX_FORCE_BIT l) b
      if go then s.modLane l (fun x => { x with forceTest := some v }) else s

/-- `FORCED_TEST`: a `PX_FORCE` write with `GO` (R87). -/
def execForcedTest (l : Lane) (v : Word) (s : State) : Res := .next (s.pxForce l.val v)

/-- The group and bit of the n-th test of a rotation through the 388 bits of R77. -/
def testBit (n : Nat) : Nat × Nat :=
  let n := n % 388
  if n < 180 then (0, n) else if n < 292 then (1, n - 180) else if n < 356 then (2, n - 292) else (3, n - 356)

/-- `COMPARATOR_TEST_DUE`: the Keeper forces the next bit of an armed pair of a Voting or Spare lane (R87, R89). -/
def execComparatorTestDue (l : Lane) (p : Pair) (s : State) : Res :=
  let i := l.val
  let k := p.val
  if (s.laneSt i == laVoting || s.laneSt i == laSpare) && s.pairMode i k == 0 && !s.pairBusy i k then
    let n := tabGet (fun _ => 0) (s.lane i).pairTest k
    let (g, b) := testBit n
    let s := s.modLane i (fun x => { x with pairTest := tabSet (fun _ => 0) x.pairTest k ((n + 1) % 388) })
    .next (s.pxForce i (BitVec.ofNat 32 (k + 4 * g + 16 * b + 0x10000)))
  else .next s

/-- The kind of a test that does not pass (R88, R90; R91: the highest that applies); `none` for one that passes. A syndrome with another bit
set than the forced one is a real mismatch; a wrong one without is kind 3. [DEDUCED: log 68] -/
def testKind (trip synOk railOk other : Bool) : Option Nat :=
  if !railOk then some 4 else if !trip then some 2 else if synOk then none else if other then some 1 else some 3

/-- `FORCED_TEST_RESULT`: the forced test completes and passes, or is a pair fault (R88, R89). [DEDUCED: log 68] -/
def execForcedTestResult (l : Lane) (trip synOk railOk : Bool) (group : Fin 4) (b : Fin 256) (s : State) : Res :=
  let i := l.val
  match (s.lane i).forceTest with
  | none => .next s
  | some v =>
    let p := getBits v 0 2
    let s := s.modLane i (fun x => { x with forceTest := none })
    let s := (((s.p (PX_TEST_DONE i) 1).pb (PX_TEST_TRIP i) trip).pb (PX_TEST_SYNOK i) synOk).pb (PX_TEST_RAILOK i) railOk
    let s := s.p (PX_TEST_PAIR i) p
    match testKind trip synOk railOk (group.val != getBits v 2 2 || b.val != getBits v 4 8) with
    | none => .next (s.inc (PX_TESTCNT_COUNT i p))
    | some k => .next ((s.failCheck 1).pairFault i p k group.val b.val)

/-- The forced tests of a lane's self-test in Preparing, every bit of every group of every pair once, 388 for each pair (R89); the registers
show the last of them. -/
def State.allTests (s : State) (l : Nat) : State :=
  let s := [0, 1, 2, 3].foldl (fun (s : State) p => s.p (PX_TESTCNT_COUNT l p) (s.g (PX_TESTCNT_COUNT l p) + 388)) s
  let s := ((s.p (PX_FORCE_PAIR l) 3).p (PX_FORCE_GROUP l) 3).p (PX_FORCE_BIT l) 31
  let s := (((s.p (PX_TEST_DONE l) 1).p (PX_TEST_TRIP l) 1).p (PX_TEST_SYNOK l) 1).p (PX_TEST_RAILOK l) 1
  s.p (PX_TEST_PAIR l) 3

/-! ### Dispatch (R85) -/

/-- A dispatch acts: a safety task on a pair that is not Joined is refused with class 3 and does not start (R85). -/
def State.dispatch (s : State) (l p : Nat) (v : Word) : State :=
  let t := getBits v 0 4
  if getBits v 4 1 == 1 && s.pairMode l p != 0 then
    (s.modLane l (fun x => { x with refused := if x.refused.contains t then x.refused else t :: x.refused })).report 0x16 3 1
  else s.modLane l (fun x => { x with disp := tabSet (fun _ => 16) x.disp p t, refused := x.refused.filter (· != t) })

/-- A `PX_DISPn` write by a core of pair `q`; while the pair's `BUSY` is 1 it stalls that core until the sequence ends (R85). -/
def State.dispWrite (s : State) (l q p : Nat) (v : Word) : State :=
  if s.pairBusy l p then
    s.modLane l (fun x => { x with dispWait := x.dispWait ++ [(p, v)]
                                   stalledPairs := if x.stalledPairs.contains q then x.stalledPairs else q :: x.stalledPairs })
  else s.dispatch l p v

/-- Is a task kept from starting: its dispatch was refused, or waits (R85)? -/
def State.notDispatched (s : State) (l t : Nat) : Bool :=
  (s.lane l).refused.contains t || (s.lane l).dispWait.any (fun w => getBits w.2 0 4 == t)

/-- `TASK_DISPATCH`: a `PX_DISPn` write of the runtime, which runs on pair 0 (R80, R85). -/
def execTaskDispatch (l : Lane) (p : Pair) (v : Word) (s : State) : Res :=
  if s.pairRuns l.val 0 then .next (s.dispWrite l.val 0 p.val v) else .next s

/-- The dispatches that a sequence stalled. [DESIGN CHOICE: log 67] -/
def State.dispatchWaiting (s : State) (l : Nat) : State :=
  let ws := (s.lane l).dispWait
  let s := s.modLane l (fun x => { x with dispWait := [], stalledPairs := [] })
  ws.foldl (fun (s : State) (w : Nat × Word) => s.dispatch l w.1 w.2) s

/-! ### Split and join (R81 to R84) -/

/-- The start of a split or join sequence in a lane (R83, R84): both cores stop; the comparator is disarmed when the pair has drained.
[DEDUCED: log 68] -/
def State.pairStart (s : State) (l p : Nat) (join : Bool) : State :=
  let s := (s.p (PX_STAT_BUSY l) 1).p (PX_STAT_PAIR l) p
  (s.arming l p false).p (pairModeFld l p) (if join then 3 else 1)

/-- A write of `PX_CMD` (R92). A join of a Joined pair and a split of a Split pair start no sequence, as R81 gives those commands no effect;
so pair 0 is always Joined (R80). [DESIGN CHOICE: log 107] -/
def State.pxCmd (s : State) (l : Nat) (v : Word) : State :=
  let p := getBits v 0 2
  let join := getBits v 2 1 == 1
  if p == 0 && !join then s.laneNotice l 0x0002 p (s.word (PX_CMD_PAIR l))
  else
    let go := getBits v 4 1 == 1
    if go && s.on (PX_STAT_BUSY l) then s.laneNotice l 0x0006 p (s.word (PX_CMD_PAIR l))
    else
      let s := (s.p (PX_CMD_PAIR l) p).pb (PX_CMD_OP l) join
      if go && s.pairMode l p != (if join then 0 else 2) then s.pairStart l p join else s

/-- `PX_SPLIT`: a `PX_CMD` write with `GO` and `OP` 0 starts the split sequence (R83). -/
def execPxSplit (l : Lane) (v : Word) (s : State) : Res := .next (s.pxCmd l.val v)

/-- `PX_JOIN`: a `PX_CMD` write with `GO` and `OP` 1 starts the join sequence (R84). -/
def execPxJoin (l : Lane) (v : Word) (s : State) : Res := .next (s.pxCmd l.val v)

/-- The lanes whose pairs a command changes (R82). -/
def State.pairLanes (s : State) : List Nat :=
  [0, 1, 2, 3].filter (fun l => s.laneSt l == laVoting || s.laneSt l == laSpare || s.laneSt l == laCopying)

/-- A waiting `PAIR_SPLIT` or `PAIR_JOIN` that has begun is answered once the sequence has completed in every lane (R81, R82). -/
def State.pairDone (s : State) : State :=
  match s.waiting with
  | some w =>
    if w.begun && (w.code == 0x0209 || w.code == 0x020A) && !(s.pairLanes.any (fun l => s.on (PX_STAT_BUSY l))) then
      let s := { s with waiting := none }
      let s := s.respond (w.chans.map (·.val)) w.hdr w.payload stOk []
      s.cmdRecord ((w.chans.map (·.val)).headD 0) w.hdr w.payload stOk
    else s
  | none => s

/-- `SPLIT_COMPLETE`: the pair is Split, its comparator disarmed (R83): the trailing core has started at `PX_ENTRYn`, and from here on makes
accesses of its own. [DEDUCED: log 68] -/
def execSplitComplete (l : Lane) (s : State) : Res :=
  let i := l.val
  let p := s.g (PX_STAT_PAIR i)
  if s.on (PX_STAT_BUSY i) && s.pairMode i p == 1 then
    let s := ((s.arming i p false).p (pairModeFld i p) 2).p (PX_STAT_BUSY i) 0
    .next ((s.p (PX_STAT_DONE i) 1).dispatchWaiting i).pairDone
  else .next s

/-- `JOIN_COMPLETE`: the pair is Joined and its comparator armed after the trip test, which fails as a pair fault (R84, R89): the dirty lines
are in memory and the trailing core holds the leading core's state, which the model, where every store is in memory at once, has no more to
show of. [DEDUCED: log 68] -/
def execJoinComplete (l : Lane) (trip synOk railOk : Bool) (s : State) : Res :=
  let i := l.val
  let p := s.g (PX_STAT_PAIR i)
  if s.on (PX_STAT_BUSY i) && s.pairMode i p == 3 then
    let s := ((s.arming i p true).p (pairModeFld i p) 0).p (PX_STAT_BUSY i) 0
    let s := (s.p (PX_STAT_DONE i) 1).pb (PX_STAT_TRIPOK i) (trip && synOk && railOk)
    match testKind trip synOk railOk false with
    | none => .next ((s.inc (PX_TESTCNT_COUNT i p)).dispatchWaiting i).pairDone
    | some k => .next (s.pairFault i p k 0 0).pairDone
  else .next s

/-- Has a task no Execute, no speculation and no vote awaited in any Voting or Spare lane (R65, R82)? -/
def State.taskQuiet (s : State) (t : Nat) : Bool :=
  s.liveLanes.all (fun l => (s.lt l t).phase != .executing && s.g (RA_CTX_STATE l t) == 0) &&
  !(s.votes.any (fun v => v.t.val == t && v.result.isNone && v.opened))

/-- The tasks that the application places on a pair. -/
def State.pairTasks (s : State) (p : Nat) : List Nat :=
  (List.range 16).filter (fun t => (s.desc t).kind != 0 && (s.desc t).pair == p)

/-- Does a resynchronisation's final round run: made, and its boundary still to come (R63, R82)? -/
def State.finalRuns (s : State) : Bool := s.on VX_RSYNC_ACTIVE && (s.lane (s.g VX_RSYNC_JOINER)).finalOk

/-- `PAIR_EXECUTION_POINT`: a cycle boundary at which the pair of a waiting `PAIR_SPLIT` or `PAIR_JOIN` has no task at work and no final round
runs: the Keeper triggers `PX_CMD` in every Voting, Spare and Copying lane (R82). A quiet gap that the command sought has been used (R145). -/
def execPairExecutionPoint (s : State) : Res :=
  match s.waiting with
  | some w =>
    let p := byteAt w.payload 0
    if (w.code == 0x0209 || w.code == 0x020A) && !w.begun && (s.pairTasks p).all s.taskQuiet && !s.finalRuns then
      let join := w.code == 0x020A
      let v := BitVec.ofNat 32 (p + (if join then 4 else 0) + 16)
      let s := { s with waiting := some { w with begun := true } }
      .next (s.pairLanes.foldl (fun s l => s.pxCmd l v) s).uninhibit.pairDone
    else .next s
  | none => .next s

end Sys2Proof.Machine
end

