-- ==== Sys2Proof/Machine/Ethernet.lean ====
section
/-! DEFINITION. The consist network: the switch (R264 to R266) with its transparent clock (R192), the PTP engine (R267 to R269),
process data received (R273), links (R191, R277). PTP message layouts are those of IEEE 1588. -/

namespace Sys2Proof.Machine

/-! ### The switch -/

/-- A frame forwarded from port `p` to port `q` (R192, R265, R266), which can leave from `tx` on; one that no unit has stamped takes no correction (R191). -/
def State.egress (s : State) (p q : Nat) (f : EthFrame) (vid pcp : Nat) (rx : Option Nat) (tx : Nat) : State :=
  let tagged := vid != s.g (EN_PORT_PVID q)
  let bs := frameBytes f tagged pcp vid
  match ptpAt f with
  | some (k, tr) =>
    let ty := byteAt f.body k % 16
    let add : Int := if s.g EN_PTPCFG_TCMODE == 2 && ty == 0 then (s.g (EN_MPD_NS p) : Int) * 4096 else 0
    let fix := match rx with
      | some r => if isEvent ty && s.g EN_PTPCFG_TCMODE != 0 then .residence f k tr r add tagged pcp vid else .none
      | none => .none
    s.enqueue q 3 { bytes := bs, fix := fix, due := tx }
  | none => s.enqueue q (pcpQueue pcp) { bytes := bs, due := tx }

/-- A source address learned on a port: at most 2,048 entries (R265). -/
def State.learnMac (s : State) (vid mac p : Nat) : State :=
  let t := s.eth.table.filter (fun e => !(e.1 == vid && e.2.1 == mac))
  if t.length ≥ 2048 then s else { s with eth := { s.eth with table := (vid, mac, p, s.tu.upNs) :: t } }

/-- A frame goes to the Keeper through the internal port (R264), over the network link (R20). [DESIGN CHOICE: log 73] -/
def State.toKeeper (s : State) (f : EthFrame) (pcp vid : Nat) : State :=
  if s.linkDown lkNetwork then s else s.emit (.ethFrame 5 (frameBytes f true pcp vid))

/-- `SWITCH_FRAME_RECEIVE`: a frame arrives at a switch port; `rx` is the time its start-of-frame delimiter ends at the unit, which stamps
nothing while the link is not settled, `tx` the time from which the switch has it ready to leave (R190 to R192, R264 to R266).
[PRESUMED: log 72; DESIGN CHOICE: log 73] -/
def execSwitchFrameReceive (port : EPort) (f : EthFrame) (rx tx : Nat) (s : State) : Res :=
  let p := port.val
  if !s.on (EN_PORT_EN p) || s.heldPort (p + 1) then .next s
  else if !f.fcsOk || frameLen f < 64 || frameLen f > 1522 then .next (s.inc (EN_DROP_COUNT p))
  else if p == 4 then .next (s.toKeeper f (s.g (EN_PORT_PCP 4)) (s.g (EN_PORT_PVID 4)))
  else
    let stamp := if s.on (EN_PORT_LINK p) then some (s.rxStamp p rx) else none
    let (pcp, vid) := match f.tag with
      | some (c, v) => if v == 0 then (c, s.g (EN_PORT_PVID p)) else (c, v)
      | none => (s.g (EN_PORT_PCP p), s.g (EN_PORT_PVID p))
    if 0x0180C2000000 ≤ f.dst && f.dst ≤ 0x0180C200000F then
      .next (if (ptpAt f).isSome then s else s.inc (EN_DROP_COUNT p))
    else
      let s := s.learnMac vid f.src p
      if f.dst == s.macBase then .next (s.toKeeper f pcp vid)
      else
        let group := f.dst / 2 ^ 40 % 2 == 1
        match (if group then none else s.eth.table.find? (fun e => e.1 == vid && e.2.1 == f.dst)) with
          | some e => .next (if e.2.2.1 == p then s else s.egress p e.2.2.1 f vid pcp stamp tx)
          | none => .next ((([0, 1, 2, 3].filter (fun q => q != p)).foldl (fun s q => s.egress p q f vid pcp stamp tx) s).toKeeper f pcp vid)

/-- `ADDRESS_AGEING`: an entry of the address table that is 300 s old goes (R265). -/
def execAddressAgeing (vid mac : Nat) (s : State) : Res :=
  .next { s with eth := { s.eth with table := s.eth.table.filter (fun e => !(e.1 == vid && e.2.1 == mac && decide (e.2.2.2 + 300000000000 ≤ s.tu.upNs))) } }

/-- `ETH_LINK_CHANGE`: a port's link comes up or goes down (R191, R277). -/
def execEthLinkChange (port : EPort) (speed : LinkSpeed) (s : State) : Res :=
  let p := port.val
  match speed with
  | .down => .next ((s.p (EN_PORT_LINK p) 0).p (EN_PORT_SPEED p) 0)
  | .m100 => .next (((s.p (EN_PORT_LINK p) 1).p (EN_PORT_SPEED p) 1).ethKick p)
  | .g1 => .next (((s.p (EN_PORT_LINK p) 1).p (EN_PORT_SPEED p) (if p == 4 then 1 else 2)).ethKick p)

/-! ### Process data received -/

/-- A subscription's state. -/
def State.sub (s : State) (k : Nat) : SubSt := tabGet (fun _ => {}) s.eth.subs k

/-- A datagram at one subscription that its `PUBID` names (R273). -/
def State.takeDatagram (s : State) (k : Nat) (d : List Byte) (stamp : Nat) : State :=
  let len := beAt d 20 2
  if beAt d 0 2 != 0x5A50 || byteAt d 2 != 1 || byteAt d 3 / 4 != 0 || beAt d 22 2 != 0 ||
      len != s.g (EN_SUBCFG_LEN k) || d.length != 24 + len then s.inc EN_PDERR_COUNT
  else
    let seq := beAt d 8 4
    let later := match (s.sub k).seq with
      | some q => 1 ≤ (seq + 2 ^ 32 - q) % 2 ^ 32 && (seq + 2 ^ 32 - q) % 2 ^ 32 < 2 ^ 31
      | none => true
    if !later then s.inc EN_PDDUP_COUNT
    else
      let x : SubSt := { seq := some seq, stamp := extend s.now stamp, commit := beAt d 16 4 * 2 ^ 32 + beAt d 12 4, data := d.drop 24 }
      let s := { s with eth := { s.eth with subs := tabSet (fun _ => {}) s.eth.subs k x } }
      (s.p (EN_SUBTS_NS k) stamp).inc (EN_SUBCNT_COUNT k)

/-- `DATAGRAM_RECEIVE`: a process-data datagram reaches the network die at an `ETH` port that is up (R190, R273), which of them is a free value; with
none up it has no stamp, cannot be judged and is not taken (R191). [DESIGN CHOICE: log 73] -/
def execDatagramReceive (datagram : List Byte) (stamp : Nat) (s : State) : Res :=
  let up := [0, 1, 2, 3].filter s.portUp
  match up[(Config.freeWord s.free).toNat % up.length]? with
  | none => .next s
  | some p =>
  if !s.on EN_CTRL_PDEN then .next s
  else
    let stamp := s.rxStamp p stamp
    let s : State := { s with free := s.free + 1 }
    let ks := (List.range 128).filter (fun k => s.on (EN_SUBCFG_VALID k) && s.g (EN_SUBID_PUBID k) == beAt datagram 4 4)
    if ks.isEmpty then .next (s.inc EN_PDERR_COUNT)
    else .next (ks.foldl (fun s k => s.takeDatagram k datagram stamp) s)

/-! ### The PTP engine -/

/-- The module's clock identity: its MAC address widened to eight bytes. [PRESUMED: log 72] -/
def State.clockId (s : State) : Nat := s.macBase / 2 ^ 24 * 2 ^ 40 + 0xFFFE * 2 ^ 24 + s.macBase % 2 ^ 24

/-- Does the delay mechanism work between peers (R267)? -/
def State.peerDelay (s : State) : Bool := s.g EN_PTPCFG_PROFILE != 0

/-- The clock class the Keeper announces (R267). [PRESUMED: log 72] -/
def State.clockClass (s : State) : Nat := if s.sync && s.refs.conf then 6 else 248

/-- The module's own data set, best first by comparison. -/
def State.ownRank (s : State) : List Nat :=
  [s.g EN_PTPPRIO_PRIORITY1, s.clockClass, 0xFE, 0xFFFF, s.g EN_PTPPRIO_PRIORITY2, s.clockId, 0, 0]

/-- Does one data set come before another? -/
def ranksBefore : List Nat → List Nat → Bool
  | x :: xs, y :: ys => if x < y then true else if y < x then false else ranksBefore xs ys
  | _, _ => false

/-- The best master of the PTP ports, with its port. -/
def State.bestMaster (s : State) : Option (Nat × PtpMaster) :=
  [0, 1, 2, 3].foldl (fun best p =>
    if !bit (s.g EN_PTPCFG_PORTS) p then best
    else match (s.ptp p).master, best with
      | some m, some (_, b) => if ranksBefore m.rank b.rank then some (p, m) else best
      | some m, none => some (p, m)
      | none, _ => best) none

/-- The PTP reference is lost (R269): the state machine of R189 sees it at once. [DEDUCED: log 74] -/
def State.ptpLost (s : State) : State :=
  if s.on EN_PTPSTAT_PRESENT then
    let s := (s.p EN_PTPSTAT_PRESENT 0).p EN_PTPSTAT_SETTLED 0
    let s := { s with eth := { s.eth with offs := [] } }
    s.syncStep s.refs false
  else s

/-- The best master clock algorithm chooses the slave port (R267). -/
def State.ptpChoose (s : State) : State :=
  let c := s.g EN_PTPCFG_CLOCK
  let pick := match s.bestMaster with
    | some (p, m) => if c == 1 || ((c == 2 || c == 3) && ranksBefore m.rank s.ownRank) then some (p, m) else none
    | none => none
  match pick with
  | none => if s.g EN_PTPSTAT_SLAVE == 0 then s else (s.p EN_PTPSTAT_SLAVE 0).ptpLost
  | some (p, m) =>
    let changed := s.g EN_PTPSTAT_SLAVE != 0 && (s.g EN_GMID1_ID * 2 ^ 32 + s.g EN_GMID0_ID != m.gm)
    let moved := s.g EN_PTPSTAT_SLAVE != p + 1
    let s := if changed || (moved && s.g EN_PTPSTAT_SLAVE != 0) then s.ptpLost else s
    let s := if moved || changed then s.modPtp p (fun x => { x with syncs := [], twoStep := none, syncT := none }) else s
    let s := ((s.p EN_PTPSTAT_SLAVE (p + 1)).p EN_GMID0_ID m.gm).p EN_GMID1_ID (m.gm / 2 ^ 32)
    let s := { s with eth := { s.eth with hadSlave := true } }
    if changed then
      let s := s.p EN_PTPSTAT_GMCHG 1
      s.notice 0x1F 0x0001 (p + 1) (s.word EN_PTPSTAT_SLAVE)
    else s

/-- The nominal Sync interval in ns. -/
def State.syncInterval (s : State) : Nat :=
  let k := s.g EN_PTPCFG_LOGSYNC
  if k < 8 then 1000000000 * 2 ^ k else 1000000000 / 2 ^ (16 - k)

/-- A PTP timestamp field in ns. -/
def ptpTime (b : List Byte) (i : Nat) : Nat := beAt b i 6 * 1000000000 + beAt b (i + 6) 4

/-- A Sync is complete: origin `t1`, reception `t2`, correction `c` in 2^−16 ns (R269). -/
def State.ptpSync (s : State) (p t1 t2 : Nat) (c : Int) : State :=
  let asym := sint32 (s.g (EN_ASYM_NS p))
  let s := s.modPtp p (fun x => { x with syncs := (s.now :: x.syncs).take 3, syncT := some (t2, (t1 : Int) * 65536 + c), twoStep := none })
  let x := s.ptp p
  let here := match x.syncs with
    | [_, _, c] => decide (s.now - c ≤ 3 * s.syncInterval)
    | _ => false
  match x.delay with
  | none => s
  | some d =>
    let o : Int := (((t2 : Int) - t1) * 65536 - c) / 256 - (d + asym) * 16
    let s := { s with eth := { s.eth with offs := (decide (s.now % 1000000 ≥ 500000), o) :: s.eth.offs } }
    if here && !s.on EN_PTPSTAT_PRESENT then s.p EN_PTPSTAT_PRESENT 1 else s

/-- A measured delay in 2^−16 ns shown in 1/16 ns (R268). -/
def State.setDelay (s : State) (p : Nat) (d : Int) : State :=
  let v := d / 4096
  (s.modPtp p (fun x => { x with delay := some v, reqAt := none, respT2 := none })).p (EN_MPD_NS p) (u32 v)

/-- A PTP message of this module: type, sequence, correction, log interval, flags, what follows the header. [PRESUMED: log 72] -/
def State.ptpMsg (s : State) (p ty seq : Nat) (corr : Int) (log : Nat) (body : List Byte) : List Byte :=
  beBytes 1 ty ++ beBytes 1 2 ++ beBytes 2 (34 + body.length) ++ beBytes 1 (s.g EN_PTPCFG_DOMAIN) ++ beBytes 1 0 ++ beBytes 2 0 ++
  beBytes 8 (u64 corr) ++ beBytes 4 0 ++ beBytes 8 s.clockId ++ beBytes 2 (p + 1) ++ beBytes 2 seq ++ beBytes 1 0 ++ beBytes 1 log ++ body

/-- A PTP message queued on a port (R266); none leaves in Safe-Halt (R415). [DESIGN CHOICE: log 73] -/
def State.ptpSend (s : State) (p : Nat) (m : List Byte) (fix : OutFix) (due : Nat) : State :=
  if s.mode == mSafeHalt then s else s.enqueue p 3 { bytes := m, fix := fix, due := due }

/-- Is a port in the MASTER state? -/
def State.ptpMaster (s : State) (p : Nat) : Bool :=
  bit (s.g EN_PTPCFG_PORTS) p && s.g EN_PTPSTAT_SLAVE != p + 1 &&
  (s.g EN_PTPCFG_CLOCK == 3 || (s.g EN_PTPCFG_CLOCK == 2 && s.g EN_PTPSTAT_SLAVE == 0))

/-- `PTP_MESSAGE_RECEIVE`: a PTP message with its receive stamp reaches the engine (R267 to R269). Messages that R267 does not
support are ignored. -/
def execPtpMessageReceive (port : Fin 4) (m : PtpMsg) (s : State) : Res :=
  let p := port.val
  let b := m.body
  let ty := byteAt b 0 % 16
  let peerTc := s.g EN_PTPCFG_TCMODE == 2 && (ty == 2 || ty == 3 || ty == 0xA)
  if !s.portUp p || m.transport != s.g EN_PTPCFG_TRANSPORT || byteAt b 4 != s.g EN_PTPCFG_DOMAIN || !((bit (s.g EN_PTPCFG_PORTS) p && s.g EN_PTPCFG_CLOCK != 0) || peerTc) then .next s
  else
    let seq := beAt b 30 2
    let corr := sint64 (beAt b 8 8)
    let t := extend s.now (s.rxStamp p m.stamp)
    let slave := s.g EN_PTPSTAT_SLAVE == p + 1
    let x := s.ptp p
    let mine := beAt b 44 8 == s.clockId && beAt b 52 2 == p + 1
    match ty with
    | 0 =>
      if !slave then .next s
      else if bit (byteAt b 6) 1 then .next (s.modPtp p (fun x => { x with twoStep := some (seq, t, corr) }))
      else .next (s.ptpSync p (ptpTime b 34) t corr)
    | 8 =>
      match x.twoStep with
      | some (q, t2, c) => if slave && q == seq then .next (s.ptpSync p (ptpTime b 34) t2 (c + corr)) else .next s
      | none => .next s
    | 1 =>
      if s.ptpMaster p && !s.peerDelay then
        .next (s.ptpSend p (s.ptpMsg p 9 seq corr 0 (ptpTimeBytes t ++ (b.drop 20).take 10)) .none 0)
      else .next s
    | 9 =>
      match x.reqAt, x.syncT with
      | some (q, t3), some (t2, t1c) =>
        if slave && q == seq && mine && !s.peerDelay then
          let asym := sint32 (s.g (EN_ASYM_NS p)) * 4096
          let ms : Int := (t2 : Int) * 65536 - t1c - asym
          let sm : Int := ((ptpTime b 34 : Int) - t3) * 65536 - corr
          .next (s.setDelay p ((ms + sm) / 2))
        else .next s
      | _, _ => .next s
    | 2 =>
      if s.peerDelay || peerTc then
        .next (s.ptpSend p (s.ptpMsg p 3 seq corr 0x7F (beBytes 10 0 ++ (b.drop 20).take 10)) (.answer t) 0)
      else .next s
    | 3 =>
      match x.reqAt with
      | some (q, t1) =>
        if q == seq && mine then
          if bit (byteAt b 6) 1 then
            .next (s.modPtp p (fun x => { x with respT2 := some (t, (ptpTime b 34 : Int) * 65536 - corr) }))
          else .next (s.setDelay p ((((t : Int) - t1) * 65536 - corr) / 2))
        else .next s
      | none => .next s
    | 0xA =>
      match x.reqAt, x.respT2 with
      | some (q, t1), some (t4, y) =>
        if q == seq && mine then
          .next (s.setDelay p ((((t4 : Int) - t1) * 65536 - (ptpTime b 34 : Int) * 65536 - corr + y) / 2))
        else .next s
      | _, _ => .next s
    | 0xB =>
      let src := beAt b 20 10
      if beAt b 20 8 == s.clockId then .next s
      else
        let gm := beAt b 53 8
        let rank := [byteAt b 47, byteAt b 48, byteAt b 49, beAt b 50 2, byteAt b 52, gm, beAt b 61 2, src]
        let better := match x.master with
          | some o => o.rank.getLast? == some src || ranksBefore rank o.rank
          | none => true
        if better then
          .next (s.modPtp p (fun x => { x with master := some { rank := rank, gm := gm, at_ := s.now } })).ptpChoose
        else .next s
    | _ => .next s

/-- `PTP_TRANSMIT`: the engine sends one of its periodic messages on a port (R267), which can leave from `stamp` on; the stamps of its
leaving are taken as it leaves (R268). -/
def execPtpTransmit (port : Fin 4) (k : PtpKind) (stamp : Nat) (s : State) : Res :=
  let p := port.val
  let t := s.now
  let seq := (s.ptp p).seq
  let asym := sint32 (s.g (EN_ASYM_NS p)) * 4096
  if !s.portUp p || s.mode == mSafeHalt then .next s
  else match k with
  | .sync =>
    if s.ptpMaster p then
      .next ((s.ptpSend p (s.ptpMsg p 0 seq 0 (s.g EN_PTPCFG_LOGSYNC) (ptpTimeBytes t)) .origin stamp).modPtp p (fun x => { x with seq := (seq + 1) % 65536 }))
    else .next s
  | .announce =>
    if s.ptpMaster p then
      let r := match s.g EN_PTPSTAT_SLAVE == 0, s.bestMaster with
        | false, some (_, m) => m.rank
        | _, _ => s.ownRank
      let g i := (r[i]?).getD 0
      let steps := if s.g EN_PTPSTAT_SLAVE == 0 then 0 else g 6 + 1
      let body := ptpTimeBytes t ++ beBytes 3 0 ++ beBytes 1 (g 0) ++ beBytes 1 (g 1) ++ beBytes 1 (g 2) ++ beBytes 2 (g 3) ++
        beBytes 1 (g 4) ++ beBytes 8 (g 5) ++ beBytes 2 steps ++ beBytes 1 0
      .next ((s.ptpSend p (s.ptpMsg p 0xB seq 0 1 body) .none stamp).modPtp p (fun x => { x with seq := (seq + 1) % 65536 }))
    else .next s
  | .delayReq =>
    if s.g EN_PTPSTAT_SLAVE == p + 1 && !s.peerDelay then
      .next ((s.modPtp p (fun x => { x with seq := (seq + 1) % 65536, reqAt := none })).ptpSend p (s.ptpMsg p 1 seq (-asym) 0x7F (beBytes 10 0)) (.request seq) stamp)
    else .next s
  | .pdelayReq =>
    if (bit (s.g EN_PTPCFG_PORTS) p && s.g EN_PTPCFG_CLOCK != 0 && s.peerDelay) || s.g EN_PTPCFG_TCMODE == 2 then
      .next ((s.modPtp p (fun x => { x with seq := (seq + 1) % 65536, reqAt := none, respT2 := none })).ptpSend p (s.ptpMsg p 2 seq 0 0x7F (beBytes 20 0)) (.request seq) stamp)
    else .next s

/-- `PTP_REFERENCE_LOST`: no Sync in three intervals (R269): the reference is lost and the port's master is forgotten. [DEDUCED: log 74] -/
def execPtpReferenceLost (s : State) : Res :=
  let p := s.g EN_PTPSTAT_SLAVE
  if p == 0 then .next s.ptpLost
  else
    let s := s.ptpLost
    .next ((s.modPtp (p - 1) (fun x => { x with master := none, syncs := [], twoStep := none })).p EN_PTPSTAT_SLAVE 0)

end Sys2Proof.Machine
end

