-- ==== Sys2Proof/Machine/SafeChan.lean ====
section
/-! DEFINITION. The Safe Channel engine (chapter 11): completion of PDUs (R285), checks of PDUs and watchdog (R288 to R290), the
states of receive connections (R291, R292), receive records (R293). -/

namespace Sys2Proof.Machine

/-- The PDU's check: CRC-32 with polynomial 0xF4AC_FB13 over the key and the bytes before it (R280). -/
def pduCrc (key pdu : List Byte) : Nat := crcRunL 32 0xF4ACFB13 0xFFFFFFFF (padTo 8 key ++ pdu) ^^^ 0xFFFFFFFF

/-- A PDU built (R278, R279): the payload's sample time is `t` and the production period `tp`, both in ns. -/
def buildPdu (key : List Byte) (connid t tp : Nat) (payload : List Byte) : List Byte :=
  let h := beBytes 4 connid ++ beBytes 4 (if tp == 0 then 0 else t / tp) ++ beBytes 4 t ++ payload
  h ++ beBytes 4 (pduCrc key h)

/-! ### Sending -/

/-- The PDUs that a commit of task `t` completes (R285): connection, byte offset in the output image, PDU. `out` reads the
committed output image, `sample` is the cycle's sample time. While the outputs are gated the words are zeros (R286). -/
def State.txPdusOf (s : State) (t sample period : Nat) (out : Nat → Byte) : List (Nat × Nat × List Byte) :=
  ((s.app.pkg.txPdus.filter (fun x => x.2.1.val == t && s.on (SC_TXCFG_VALID x.1) && s.on SC_CTRL_EN)).map (fun x =>
    let len := s.g (SC_TXCFG_LEN x.1)
    let payload := (List.range len).map (fun i => out (x.2.2 + 12 + i))
    (x.1, x.2.2, if s.gated then List.replicate (16 + len) 0
      else buildPdu (tabGet (fun _ => []) s.sc.txKey x.1) (s.g (SC_TXID_CONNID x.1)) sample period payload)))

/-- The registers that show a completed PDU (R298). -/
def State.showTx (s : State) (x : Nat × Nat × List Byte) : State :=
  if s.gated then s else (s.p (SC_TXSEQ_SEQ x.1) (beNat (padTo 4 (x.2.2.drop 4)))).inc (SC_TXCNT_COUNT x.1)

/-! ### Receiving -/

/-- The data of the notice of a failure (R497, R498): connection, cause, the state left, and the status register after it. -/
def State.rxNotice (s : State) (r cause left : Nat) : List Byte :=
  leBytes 1 r ++ leBytes 1 cause ++ leBytes 1 left ++ leBytes 1 0 ++ leBytes 4 (s.word (SC_RXSTAT_STATE r)).toNat

/-- A failure of a receive connection (R291, R296). The valid PDUs counted so far count no more. [DEDUCED: log 122] -/
def State.rxFail (s : State) (r cause : Nat) : State :=
  let st := s.g (SC_RXSTAT_STATE r)
  let s := (s.inc (SC_RXFAIL_COUNT r)).p (SC_RXSTAT_CAUSE r) cause
  let s := s.modRx r (fun x => { x with failedNow := true })
  if st == 2 || st == 4 || st == 5 then
    let s := s.p (SC_RXSTAT_GOOD r) 0
    let d := (s.p (SC_RXSTAT_STATE r) 3).rxNotice r cause st
    let s := s.noticeD 0x20 0x0001 d
    s.rxState r 3 (s.seqOf { source := 0x0120, code := 1, cls := 0, data := d })
  else if st == 1 then s.noticeD 0x20 0x0002 (s.rxNotice r cause st)
  else s

/-- The payload of the latest valid PDU is delivered (R291). -/
def State.rxDeliver (s : State) (r : Nat) : State := s.modRx r (fun x => { x with out := x.latest, outT := x.latestT })

/-- The connection has its `RECOV` valid PDUs (R291). -/
def State.rxRecovered (s : State) (r : Nat) : State :=
  if s.on (SC_RXCFG_ACKREQ r) then s.rxState r 5 0 else (s.rxDeliver r).rxState r 2 0

/-- A valid PDU accepted at sample time `S` (R288, R291). -/
def State.rxValid (s : State) (r sample t : Nat) (pdu : List Byte) : State :=
  let len := s.g (SC_RXCFG_LEN r)
  let s := s.p (SC_RXSEQ_SEQ r) (beNat ((pdu.drop 4).take 4))
  let s := s.modRx r (fun x => { x with accepted := true, sLast := sample, latest := (pdu.drop 12).take len, latestT := t })
  match s.g (SC_RXSTAT_STATE r) with
  | 1 => (s.rxDeliver r).rxState r 2 0
  | 2 => s.rxDeliver r
  | 3 =>
    let s := s.p (SC_RXSTAT_GOOD r) 1
    if s.g (SC_RXCFG_RECOV r) ≤ 1 then s.rxRecovered r else s.rxState r 4 0
  | 4 =>
    let s := s.p (SC_RXSTAT_GOOD r) (s.g (SC_RXSTAT_GOOD r) + 1)
    if s.g (SC_RXSTAT_GOOD r) ≥ s.g (SC_RXCFG_RECOV r) then s.rxRecovered r else s
  | _ => s

/-- The upper bound of R289 in a connection's state. -/
def State.seqLimit (s : State) (r : Nat) : Nat :=
  let st := s.g (SC_RXSTAT_STATE r)
  if st == 2 || st == 4 || st == 5 then s.g (SC_RXWIN_SEQWIN r) else 2 ^ 31 - 1

/-- The verdict of R288 on a PDU: a duplicate or empty one, a failure with its cause, or valid with its sample time. -/
inductive PduRes where
  | ignored
  | fails (cause : Nat)
  | valid (t : Nat)
  deriving DecidableEq, Repr

/-- The rows of R288 in order. -/
def State.judgePdu (s : State) (r sample : Nat) (pdu : List Byte) : PduRes :=
  let len := s.g (SC_RXCFG_LEN r)
  let pdu := padTo (16 + len) pdu
  let d := (beNat ((pdu.drop 4).take 4) + 2 ^ 32 - s.g (SC_RXSEQ_SEQ r)) % 2 ^ 32
  let acc := (s.rx r).accepted
  let t := extend sample (beNat ((pdu.drop 8).take 4))
  let age : Int := (sample : Int) - t
  if pdu.all (· == 0) then .ignored
  else if s.g TU_STAT_SSTATE == 0 then .fails 7
  else if beNat ((pdu.drop (12 + len)).take 4) != pduCrc (tabGet (fun _ => []) s.sc.rxKey r) (pdu.take (12 + len)) then .fails 1
  else if beNat (pdu.take 4) != s.g (SC_RXID_CONNID r) then .fails 2
  else if acc && d == 0 then .ignored
  else if acc && d > s.seqLimit r then .fails 3
  else if age > (s.g (SC_RXAGE_MAXAGE r) : Int) * 1000 then .fails 4
  else if age < -1000 then .fails 5
  else .valid t

/-- The PDU of a collection, if there is one (R288). -/
def State.rxPdu (s : State) (r sample : Nat) : Option (List Byte) → State
  | none => s
  | some pdu => match s.judgePdu r sample pdu with
    | .ignored => s.inc (SC_RXDUP_COUNT r)
    | .fails c => s.rxFail r c
    | .valid t => s.rxValid r sample t pdu

/-- Has a connection's watchdog expired at sample time `S` (R290)? -/
def State.rxExpired (s : State) (r sample : Nat) : Bool :=
  let st := s.g (SC_RXSTAT_STATE r)
  (st == 2 || st == 4 || st == 5) && decide ((s.rx r).sLast + s.g (SC_RXWDT_WDT r) * 1000 ≤ sample)

/-- The check of one connection at the close of a collection (R290, R291): the PDU, the watchdog, an acknowledgement. -/
def State.rxCheck (s : State) (r sample : Nat) (pdu : Option (List Byte)) : State :=
  if !s.on SC_CTRL_EN || s.g (SC_RXSTAT_STATE r) == 0 then s.modRx r (fun x => { x with ack := false })
  else
    let s := s.modRx r (fun x => { x with failedNow := false })
    let s := s.rxPdu r sample pdu
    let s := if !(s.rx r).failedNow && s.rxExpired r sample then s.rxFail r 6 else s
    let x := s.rx r
    let s := s.modRx r (fun x => { x with ack := false })
    if x.ack && !x.failedNow && s.g (SC_RXSTAT_STATE r) == 5 then (s.rxDeliver r).rxState r 2 0 else s

/-- The receive record of a connection for sample time `S` (R293). -/
def State.rxRecord (s : State) (r sample : Nat) : List Byte :=
  let st := s.g (SC_RXSTAT_STATE r)
  let x := s.rx r
  let len := s.g (SC_RXCFG_LEN r)
  let age := if st == 2 then min ((sample - x.outT) / 1000) 0xFFFFFFFE else 0xFFFFFFFF
  leBytes 1 st ++ leBytes 1 (s.g (SC_RXSTAT_CAUSE r)) ++ leBytes 1 (s.g (SC_RXSTAT_GOOD r)) ++ leBytes 1 0 ++ leBytes 4 age ++
  padTo len (if st == 2 then x.out else tabGet (fun _ => []) s.sc.safeVal r)

/-- `SAFE_WATCHDOG_EXPIRY`: a connection's watchdog expires at the sample time of its owner task's collection (R290). -/
def execSafeWatchdogExpiry (c : Fin 128) (s : State) : Res :=
  let r := c.val
  let sample := (tabGet (fun _ => {}) s.app.tasks (s.g (SC_RXCFG_TASK r))).sampleAt
  if s.on SC_CTRL_EN && s.rxExpired r sample then .next (s.rxFail r 6) else .next s

end Sys2Proof.Machine
end

