-- ==== Sys2Proof/Machine/Image.lean ====
section
/-! DEFINITION. Sampling and consolidation (R38, R42 to R44, R95 to R104): the records of the module's own ports, the stations, the
system area, the image of a cycle. -/

namespace Sys2Proof.Machine

/-! ### Grid (R95) -/

/-- The task's period in ns. -/
def TaskDesc.periodNs (d : TaskDesc) : Nat := d.period * 1000

/-- The sample time of cycle k (R95). -/
def State.sampleTime (s : State) (t k : Nat) : Nat :=
  (s.app.anchor.getD 0) + (s.desc t).offset * 1000 + k * (s.desc t).periodNs

/-- The cycle whose sample time is a grid point (R95). -/
def State.cycleAt (s : State) (t at_ : Nat) : Nat :=
  if (s.desc t).periodNs == 0 then 0 else (at_ - s.sampleTime t 0) / (s.desc t).periodNs

/-- A task's input range: offset in the input image region and length. -/
def State.inRangeOf (s : State) (t : Nat) : Nat × Nat := tabGet (fun _ => (0x8000, 0)) s.app.pkg.inRange t

/-! ### Records of the module's own ports -/

/-- The digital input word and the sixteen edge records (R325, R560). [DEDUCED: log 79] -/
def State.digitalRecord (s : State) (x : TaskSt) : List Byte :=
  let before n := tabGet (fun _ => 0) x.edges0 n
  let chg := (List.range 16).foldl (fun v i => if (s.di (i + 1)).edges != before (i + 1) then v + 2 ^ i else v) 0
  leBytes 2 (s.g FD_DISTAT_FILT) ++ leBytes 2 (s.g FD_DISTAT_RAW) ++ leBytes 2 chg ++ leBytes 2 0 ++
  ((List.range 16).map (fun i =>
    let n := i + 1
    let d := s.di n
    leBytes 4 (d.ts % 2 ^ 32) ++ leBytes 4 (d.ts / 2 ^ 32) ++ leBytes 2 d.edges ++
    leBytes 1 (s.g (FD_DICNT_LEVEL n) + 2 * s.g (FD_DICNT_NOEDGE n) + (if d.edges > before n + 1 then 4 else 0)) ++ leBytes 5 0)).flatten

/-- The output status record (R337). -/
def State.outStatus (s : State) (x : TaskSt) : List Byte :=
  ((List.range 12).map (fun i =>
    let n := i + 1
    let wait := (s.out n).shut && !s.on (FD_HSOSTAT_LATCHED n)
    leBytes 1 (s.g (FD_HSOSTAT_RB n) + 2 * s.g (FD_HSOSTAT_OVL n) + 4 * s.g (FD_HSOSTAT_OPEN n) + 8 * s.g (FD_HSOSTAT_OTEMP n) +
      16 * s.g (FD_HSOSTAT_SHORTP n) + 32 * s.g (FD_HSOSTAT_LATCHED n) + (if wait then 64 else 0)))).flatten ++
  ((List.range 4).map (fun i =>
    let n := i + 1
    let wait := (s.out (0x10 + n)).shut && !s.on (FD_FPPSTAT_LATCHED n)
    leBytes 1 (s.g (FD_FPPSTAT_RB n) + 2 * s.g (FD_FPPSTAT_OVL n) + 4 * s.g (FD_FPPSTAT_MISM n) + 32 * s.g (FD_FPPSTAT_LATCHED n) +
      (if wait then 64 else 0)))).flatten ++
  leBytes 1 (s.g FD_STAT_SUPPLY) ++
  leBytes 1 (s.g FD_STAT_SILENT + (if s.fd.silEntries != x.sil0 then 2 else 0) + 4 * s.g FD_STAT_DIAGSUSP) ++
  leBytes 2 (s.g FD_FLD_V) ++ leBytes 4 (s.g FD_SILCNT_COUNT) ++ leBytes 8 0

/-- The analogue record of channel `n` at a sample time (R354): its value in 24 bits with their sign. -/
def State.analogueRecord (s : State) (n at_ : Nat) : List Byte :=
  let e : AioRes := ((s.aio n).shows.find? (fun e => decide (e.start ≤ at_))).getD ⟨0, 0, 5, 0⟩
  leBytes 4 (u32 (if 2 ^ 23 ≤ e.value then (e.value : Int) - 2 ^ 24 else e.value)) ++ leBytes 1 e.status ++
  leBytes 1 (s.g (AN_STAT_OPEN n) + 2 * s.g (AN_STAT_COMPL n) + 4 * s.g (AN_STAT_FAULT n) + 8 * s.g (AN_STAT_ALNDEL n) +
    16 * s.g (AN_STAT_THERM n) + 32 * s.g (AN_STAT_OVR n) + 64 * s.g (AN_STAT_ALEFF n)) ++ leBytes 2 0 ++
  leBytes 4 (e.stamp % 2 ^ 32) ++ leBytes 4 (e.stamp / 2 ^ 32)

/-- The capture record of channel `n` at a sample time (R194, R195): all 0 while no event is far enough before it. -/
def State.captureRecord (s : State) (n at_ : Nat) : List Byte :=
  match s.capAt n at_ with
  | some e => leBytes 4 (e.t % 2 ^ 32) ++ leBytes 4 (e.t / 2 ^ 32) ++ leBytes 2 e.count ++ leBytes 1 (1 + if e.stepped then 2 else 0) ++ leBytes 5 0
  | none => leBytes 16 0

/-- The drive record at a sample time (R318). -/
def State.driveRecord (s : State) (d at_ : Nat) : List Byte :=
  let elapsed := if s.g (SF_DRVSTAT_STATE d) == 3 then (at_ - (s.drv d).t0) / 1000000 else 0
  leBytes 1 (s.g (SF_DRVSTAT_STATE d)) ++ leBytes 1 (s.g (SF_DRVSTAT_CAUSE d)) ++
  leBytes 1 (s.g (SF_DRVSTAT_CHA d) + 2 * s.g (SF_DRVSTAT_CHB d) + 4 * s.g (SF_DRVSTAT_INTERLOCK d) + 8 * s.g (SF_DRVSTAT_ENCFLT d) +
    16 * s.g (SF_DRVCFG_FUNC d)) ++ leBytes 1 0 ++ leBytes 4 (s.g (SF_SPEED_V d)) ++ leBytes 4 elapsed ++ leBytes 4 0

/-- The pair record (R318). -/
def State.pairRecord (s : State) (k : Nat) : List Byte :=
  let ts := (s.pairSt k).ts
  leBytes 1 (s.g (SF_PAIRSTAT_VALUE k)) ++ leBytes 1 (s.g (SF_PAIRSTAT_STATE k)) ++
  leBytes 1 (s.g (SF_PAIRSTAT_CHA k) + 2 * s.g (SF_PAIRSTAT_CHB k)) ++ leBytes 1 (s.g (SF_PAIRSTAT_CAUSE k)) ++
  leBytes 4 (ts % 2 ^ 32) ++ leBytes 4 (ts / 2 ^ 32) ++ leBytes 4 0

/-- The bridge status record of a task (R369). -/
def State.bridgeRecord (s : State) (t : Nat) : List Byte :=
  let x := tabGet (fun _ => {}) s.rb.tasks t
  leBytes 1 x.rderr ++ leBytes 1 x.werr ++ leBytes 1 x.code ++ leBytes 1 x.slot ++ leBytes 4 x.a ++ leBytes 4 x.cycle ++
  leBytes 1 (if x.ambig then 1 else 0) ++ leBytes 3 0

/-- The unit record (R400). -/
def State.unitRecord (s : State) (x : TaskSt) : List Byte :=
  let held := s.mode == mActive
  let holder := if held then s.nodeId s.unitRing else if s.holderThere then (s.un.holder.map (·.1)).getD 0xFF else 0xFF
  let level := if held then s.level else if s.holderThere then s.un.holderLevel else 0
  let pelig := s.on UN_STAT_PELIG
  let plevel := if pelig then (s.un.partner.map (·.level)).getD 0 else 0
  leBytes 1 holder ++ leBytes 1 level ++ leBytes 1 plevel ++
  leBytes 1 ((if pelig then 1 else 0) + (if s.pairUp then 2 else 0) + (if s.un.takeovers != x.take0 then 4 else 0)) ++
  leBytes 4 s.un.takeovers ++ leBytes 4 (s.un.lastAct % 2 ^ 32) ++ leBytes 4 (s.un.lastAct / 2 ^ 32)

/-- What a source of the module's own gives at the sample time `x.sampleAt` (R38), with what the task last saw in `x`. [DEDUCED: log 79] -/
def State.ownSource (s : State) (t : Nat) (x : TaskSt) : InSrc → List Byte
  | .digital => s.digitalRecord x
  | .outStatus => s.outStatus x
  | .encoder d => leBytes 4 (u32 ((s.drv d).counts.headD 0))
  | .analogue n => s.analogueRecord n x.sampleAt
  | .capture n => s.captureRecord n x.sampleAt
  | .drive d => s.driveRecord d x.sampleAt
  | .pair k => s.pairRecord k
  | .bridge => s.bridgeRecord t
  | .unit => s.unitRecord x
  | _ => []

/-! ### Stations (R103, R223, R274, R365, R373) -/

/-- What a station's source holds for a cycle whose sample time is `at_`, with the time of its data; `none` when invalid. Serial
stations and subscriptions are judged at the sample time, ring replies and cards at the close of collection. What the network die holds
does not reach the Keeper while its link is down (R22). The master of a ring is a station while the node is joined and has taken a poll within
a macrocycle. [DESIGN CHOICE: log 110] -/
def State.stationData (s : State) (t cycle at_ : Nat) : InSrc → Option (Nat × List Byte)
  | .ringNode r n =>
    if s.linkDown lkNetwork then none
    else ((tabGet (fun _ => []) (s.ring r).replies n : List (Nat × List Byte)).find? (fun e => e.1 == bcStart at_)).map (fun e => (at_, e.2))
  | .ringMaster r =>
    match (s.ring r).polled with
    | some t =>
      if !s.linkDown lkNetwork && s.g (BZ_JOIN_PHASE r) == 4 && decide (t ≤ at_) && decide (at_ ≤ t + 1020000) then
        let m := ((s.ring r).settle at_).outArea
        some (at_, m.rdN 0 (m.foldl (fun n e => max n (e.1 + 1)) 0))
      else none
    | none => none
  | .subscription k =>
    let x := s.sub k
    if !s.linkDown lkNetwork && x.seq.isSome && decide (x.stamp ≤ at_) && decide (at_ ≤ x.stamp + s.g (EN_SUBCFG_TMO k) * 100000) then some (x.commit, x.data) else none
  | .serial k =>
    match (s.lsStn k).endAt with
    | some e => if !s.linkDown lkNetwork && e ≤ at_ && at_ < e + s.g RB_LSCTRL_CYCLE * 1000000 then some (at_, (s.lsStn k).data) else none
    | none => none
  | .card slot _ =>
    let rs := s.app.pkg.cardReads.filter (fun c => c.t.val == t && c.slot == slot)
    let got := rs.map (fun c => tabGet (fun _ => {}) s.rb.cardIn (cardKey t c.idx))
    if !rs.isEmpty && got.all (fun x => x.ok && x.cycle == cycle) then some (at_, []) else none
  | _ => none

/-- The bytes of one configured card read. -/
def State.cardBytes (s : State) (t idx : Nat) : List Byte :=
  ((tabGet (fun _ => {}) s.rb.cardIn (cardKey t idx)).data.map (fun w => leBytes 4 w.toNat)).flatten

/-- Is a source judged at the sample time? -/
def InSrc.atSample : InSrc → Bool
  | .subscription _ | .serial _ | .ringMaster _ => true
  | _ => false

/-- Do two sources name the same station? -/
def InSrc.sameStation : InSrc → InSrc → Bool
  | .card a _, .card b _ => a == b
  | a, b => a == b

/-- Bytes put into an image. -/
def State.putImg (s : State) (t off : Nat) (bs : List Byte) : State := s.modTask t (fun x => { x with img := x.img.wrL off bs })

/-- The bytes of a binding within its source's data, put into the image. -/
def State.bindIn (s : State) (b : InBind) (data : List Byte) : State :=
  s.putImg b.t.val b.off (padTo b.len (data.drop b.srcOff))

/-! ### The sample (R97 to R101) -/

/-- The header of a task's image (R44) and its response block. -/
def State.imageHeader (s : State) (t cycle at_ : Nat) : State :=
  let x := s.task t
  let c := at_ + (s.desc t).lead * 1000
  let new := x.resp.isSome
  let h := leBytes 8 cycle ++ leBytes 4 (at_ % 2 ^ 32) ++ leBytes 4 (at_ / 2 ^ 32) ++ leBytes 4 (c % 2 ^ 32) ++ leBytes 4 (c / 2 ^ 32) ++
    leBytes 1 s.level ++ leBytes 1 ((if s.sync then 1 else 0) + (if new then 2 else 0)) ++
    leBytes 2 (if new then x.respCode else 0) ++ leBytes 1 (if new then x.respTag else 0) ++ leBytes 1 (if new then x.respStatus else 0) ++ leBytes 34 0
  let s := s.putImg t (64 * t) h
  match x.resp with
  | some b => (s.putImg t (0x1000 + 0x400 * t) (padTo 0x400 b)).modTask t (fun x => { x with resp := none })
  | none => s

/-- A task's sample at its grid point: the cycle begins, the module's own ports are read, the configured card reads go out.
[DEDUCED: log 80] -/
def State.takeSample (s : State) (t : Nat) : State :=
  let x := s.task t
  let at_ := x.next
  let k := s.cycleAt t at_
  let s := s.modTask t (fun x => { x with
    cycle := k, imaged := true, sampled := true, closed := false, complete := false, own := false, sampleAt := at_, snap := []
    next := at_ + (s.desc t).periodNs })
  let s := s.imageHeader t k at_
  let s := s.app.pkg.ins.foldl (fun s b =>
    if b.t.val == t && !b.src.isStation && (match b.src with
      | .safeRx _ => false
      | _ => true) then s.bindIn b (s.ownSource t { x with sampleAt := at_ } b.src) else s) s
  let s := s.modTask t (fun x => { x with
    edges0 := (List.range 16).foldl (fun m i => tabSet (fun _ => 0) m (i + 1) (s.di (i + 1)).edges) x.edges0
    sil0 := s.fd.silEntries, take0 := s.un.takeovers })
  let s := s.modRbTask t (fun y => { y with rderr := 0, werr := 0 })
  let s := s.app.pkg.stations.foldl (fun s d =>
    if d.t.val == t && d.src.atSample then
      match s.stationData t k at_ d.src with
      | some v => s.modTask t (fun x => { x with snap := tabIns x.snap d.s v })
      | none => s
    else s) s
  s.cardReads t k

/-- An overrun of a task (R100): counted in a row, a notice, class 3 at `OVRLIM`. -/
def State.overrun (s : State) (t : Nat) : State :=
  let n := (s.task t).overruns + 1
  let s := s.modTask t (fun x => { x with overruns := n })
  let s := s.notice 0x16 0x0002 t 0
  if n ≥ (s.desc t).ovrlim then s.report 0x16 3 2 else s

/-- Has a Voting lane submitted a cycle of a task, and has every one abandoned it? -/
def State.lastCycle (s : State) (t c : Nat) : Bool × Bool :=
  let vs := s.votingLanes
  let at_ (p : LanePhase) l := (s.lt l t).cycle == c && (s.lt l t).phase == p
  (vs.any (at_ .submitted), vs.all (at_ .abandoned))

/-- Has the background task's last cycle ended (R101): its vote decided or closed, or abandoned by every Voting lane?
[DESIGN CHOICE: log 67] -/
def State.backgroundFree (s : State) (t : Nat) : Bool :=
  let x := s.task t
  !x.imaged || (s.lastCycle t x.cycle).2 ||
  (match s.votes.find? (fun v => v.t.val == t && v.cycle == x.cycle) with
    | some v => v.result.isSome || v.closed
    | none => false)

/-- A grid point of a task is left out (R100). [DEDUCED: log 80] -/
def State.skipPoint (s : State) (t : Nat) : State :=
  s.modTask t (fun x => { x with next := x.next + (s.desc t).periodNs, skipped := min (x.skipped + 1) 0xFFFFFFFF, skipFlag := true })

/-- `SAMPLE`: a task's sample time is reached (R38, R100, R101); a cyclic task is judged by its last cycle whose image went out.
[DEDUCED: log 80] -/
def execSample (t : Task) (s : State) : Res :=
  let t := t.val
  let x := s.task t
  let d := s.desc t
  if !s.running || d.kind == 0 || s.now + 8 < x.next then .next s
  else if d.kind == 3 then
    if s.backgroundFree t then .next (s.takeSample t)
    else .next (s.modTask t (fun x => { x with next := x.next + d.periodNs }))
  else if !x.started then .next (s.takeSample t)
  else
    let (sub, aban) := s.lastCycle t x.outCycle
    if sub then .next ((s.modTask t (fun x => { x with overruns := 0 })).takeSample t)
    else if aban then
      let s := s.overrun t
      .next (if s.running then s.takeSample t else s)
    else .next ((s.skipPoint t).overrun t)

/-! ### The close of collection (R97, R103, R287, R294) -/

/-- A station's entry after a collection (R103, R104). -/
def StnSt.after (x : StnSt) (v : Option Nat) (failsafe : Bool) : StnSt :=
  match v with
  | some last => { last := last, abscyc := 0, absent := false, never := false, failsafe := failsafe }
  | none => { x with abscyc := min (x.abscyc + 1) 0xFFFFFFFF, absent := true, failsafe := failsafe }

/-- A station's input for the cycle, as its source gives it at the close. -/
def State.stationNow (s : State) (t : Nat) (d : StationDesc) : Option (Nat × List Byte) :=
  let x := s.task t
  if d.src.atSample then (x.snap.find? (fun e => e.1 == d.s)).map (·.2) else s.stationData t x.cycle x.sampleAt d.src

/-- The station's words in the image, if its input is valid (R104). -/
def State.stationWords (s : State) (t : Nat) (d : StationDesc) (data : List Byte) : State :=
  s.app.pkg.ins.foldl (fun s b =>
    if b.t.val == t && b.src.sameStation d.src then
      s.bindIn b (match b.src with
        | .card _ idx => s.cardBytes t idx
        | _ => data)
    else s) s

/-- Where a receive connection's PDU stands in the inputs of a task: its station entry and the offset in the station's input. -/
def State.rxPlace (s : State) (t r : Nat) : Option (Nat × Nat) :=
  (s.app.pkg.rxPdus.find? (fun e => e.1 == r && e.2.1.val == t)).map (fun e => (e.2.2.1, e.2.2.2.2))

/-- The PDU of a receive connection in a collection (R287): none while its station's input is invalid. -/
def State.rxPduOf (s : State) (t r : Nat) : Option (List Byte) :=
  match s.rxPlace t r with
  | some (n, off) => match s.app.pkg.stations.find? (fun d => d.t.val == t && d.s == n) with
    | some d => (s.stationNow t d).map (fun v => padTo (16 + s.g (SC_RXCFG_LEN r)) (v.2.drop off))
    | none => none
  | none => none

/-- The receive connections that a task owns (R281, R298). -/
def State.rxOf (s : State) (t : Nat) : List Nat := s.rxUsed.filter (fun r => s.g (SC_RXCFG_TASK r) == t)

/-- `COLLECTION_CLOSE`: collection closes for the task's cycle (R97): every station is judged, every receive connection that the
task owns is checked. -/
def execCollectionClose (t : Task) (s : State) : Res :=
  let t := t.val
  let x := s.task t
  if !s.running || !x.sampled || x.closed then .next s
  else
    let s := (s.rxOf t).foldl (fun s r => s.rxCheck r x.sampleAt (s.rxPduOf t r)) s
    let s := (s.app.pkg.stations.filter (fun d => d.t.val == t)).foldl (fun s d =>
      let v := s.stationNow t d
      let fs := (s.rxOf t).any (fun r => ((s.rxPlace t r).map (·.1)) == some d.s && s.g (SC_RXSTAT_STATE r) != 2)
      let s := match v with
        | some v => s.stationWords t d v.2
        | none => s
      s.modTask t (fun x => { x with stn := tabSet (fun _ => {}) x.stn d.s ((tabGet (fun _ => {}) x.stn d.s).after (v.map (·.1)) fs) })) s
    let s := s.app.pkg.ins.foldl (fun s b => match b.src with
      | .safeRx r => if b.t.val == t then s.bindIn b (s.rxRecord r x.sampleAt) else s
      | _ => s) s
    .next (s.modTask t (fun x => { x with closed := true }))

/-! ### The complete image (R97, R98, R102, R103, R119, R381) -/

/-- A station entry (R103). -/
def StnSt.bytes (x : StnSt) : List Byte :=
  let last := if x.never then 0 else x.last
  leBytes 4 (last % 2 ^ 32) ++ leBytes 4 (last / 2 ^ 32) ++ leBytes 4 x.abscyc ++
  leBytes 1 ((if x.absent then 1 else 0) + (if x.never then 2 else 0) + (if x.failsafe then 4 else 0)) ++ leBytes 3 0

/-- The forced symbols within a task's input or output range (R102, R119). -/
def State.forcedOf (s : State) (t : Nat) (input : Bool) : List (Symbol × List Byte) :=
  s.app.forces.filterMap (fun f =>
    (s.app.pkg.symbols.find? (fun y => y.id == f.id && (if input then y.input else y.output) &&
      (if input then (let r := s.inRangeOf t; decide (r.1 ≤ y.off) && decide (y.off < r.1 + r.2)) else y.t.val == t))).map (fun y => (y, f.value)))

/-- The system area of a task's image (R102, R103). -/
def State.systemArea (s : State) (t : Nat) : List Byte :=
  let x := s.task t
  let d := s.desc t
  let forced := !(s.forcedOf t true).isEmpty || !(s.forcedOf t false).isEmpty
  leBytes 1 s.app.startKind ++
  leBytes 1 ((if x.started then 0 else 1) + (if x.olcFlag then 2 else 0) + (if x.skipFlag then 4 else 0)) ++
  leBytes 1 ((if s.forceActive then 1 else 0) + (if forced then 2 else 0)) ++ leBytes 1 d.stations ++ leBytes 4 x.skipped ++
  leBytes 1 x.grprejNext ++ leBytes 3 0 ++ leBytes 4 s.app.olcCount ++ leBytes 48 0 ++
  ((List.range d.stations).map (fun k => (tabGet (fun _ => ({} : StnSt)) x.stn k).bytes)).flatten

/-- The words of a task's input range whose content differs between the image `m` and the last one, those of a force set or removed, and all of them in a first image (R38, R114). -/
def State.changedWords (s : State) (t : Nat) (x : TaskSt) (m : Mem) : List Nat :=
  let r := s.inRangeOf t
  (List.range ((r.2 + 7) / 8)).filterMap (fun i =>
    let w := r.1 / 8 + i
    if !x.started || x.forceMark.contains w || m.rdN (8 * w) 8 != x.prevImg.rdN (8 * w) 8 then some w else none)

/-- The image `m` goes out: its flags are used up. -/
def State.imageOut (s : State) (t : Nat) (m : Mem) : State :=
  s.modTask t (fun x => { x with complete := true, sampled := false, own := false, started := true, outCycle := x.cycle, olcFlag := false
                                 skipFlag := false, grprej := x.grprejNext, grprejNext := 0, forceMark := [], prevImg := m })

/-- The consolidated image of a task with the forced values in it (R119); the real values stay in the image under construction. -/
def State.withForces (s : State) (t : Nat) : Mem :=
  (s.forcedOf t true).foldl (fun (m : Mem) e => m.wrL e.1.off (padTo e.1.len e.2)) (s.task t).img

/-- Has every source that is not a station arrived (R97)? The field die's come over its link, the captures over the network link (R22). -/
def State.sourcesIn (s : State) (t : Nat) : Bool :=
  s.app.pkg.ins.all (fun b => b.t.val != t || (match b.src with
    | .digital | .outStatus | .encoder _ | .analogue _ => !s.linkDown lkField
    | .capture _ => !s.linkDown lkNetwork
    | _ => true))

/-- A late image counted (R98). -/
def State.lateImage (s : State) (t : Nat) : State :=
  let x := s.task t
  if x.sampleAt + (s.desc t).xoff * 1000 < s.now then
    (s.modTask t (fun x => { x with lateImages := x.lateImages + 1 })).notice 0x16 0x0001 t 0
  else s

/-- The mask of R38: one bit for each word of the input range. -/
def maskBytes (first n : Nat) (ws : List Nat) : List Byte :=
  (List.range ((n + 7) / 8)).map (fun i => BitVec.ofNat 8 ((List.range 8).foldl (fun v j => if ws.contains (first + 8 * i + j) then v + 2 ^ j else v) 0))

/-- The forwarded image (R381): header, mask, station entries, changed words. [DEDUCED: log 79] -/
def State.fwdBody (s : State) (t : Nat) (m : Mem) : List Byte :=
  let x := s.task t
  let r := s.inRangeOf t
  m.rdN (64 * t) 64 ++ maskBytes (r.1 / 8) ((r.2 + 7) / 8) x.mask ++ m.rdN (r.1 + 64) (16 * (s.desc t).stations) ++
  (x.mask.map (fun w => m.rdN (8 * w) 8)).flatten

/-- Does this module deliver the holder's images (R381)? -/
def State.takesForwarded (s : State) : Bool := s.on UN_CFG_EN && s.mode == mHotStandby

/-- A forwarded image over the last one delivered, with its mask; it goes out as the image of its cycle (R381). -/
def State.applyFwd (s : State) (t : Nat) (body : List Byte) : State :=
  let r := s.inRangeOf t
  let n := (r.2 + 7) / 8
  let mb := (body.drop 64).take ((n + 7) / 8)
  let stns := 16 * (s.desc t).stations
  let entries := (body.drop (64 + (n + 7) / 8)).take stns
  let data := body.drop (64 + (n + 7) / 8 + stns)
  let ws := (List.range n).filterMap (fun i => if bit (byteAt mb (i / 8)) (i % 8) then some (r.1 / 8 + i) else none)
  let m := (s.task t).prevImg.wrL (64 * t) (body.take 64)
  let m := (ws.zipIdx).foldl (fun m e => m.wrL (8 * e.1) (padTo 8 (data.drop (8 * e.2)))) m
  (s.modTask t (fun x => { x with mask := ws })).imageOut t (m.wrL (r.1 + 64) entries)

/-- The forwarded image that has arrived for a task's cycle. -/
def State.fwdOf (s : State) (t cycle : Nat) : Option (List Byte) :=
  (s.un.fwd.find? (fun e => e.1 == t && e.2.1 == cycle)).map (·.2.2)

/-- `IMAGE_COMPLETE`: the last source of the cycle has arrived and the consolidated image completes (R97, R98, R102, R119, R381). -/
def execImageComplete (t : Task) (s : State) : Res :=
  let t := t.val
  let x := s.task t
  if !s.running || !x.sampled || !x.closed || x.complete || x.own || !s.sourcesIn t then .next s
  else
    let s := s.putImg t (s.inRangeOf t).1 (s.systemArea t)
    let m := s.withForces t
    let s := s.modTask t (fun x => { x with mask := s.changedWords t x m })
    if s.takesForwarded then
      match s.fwdOf t x.cycle with
      | some b => .next (s.applyFwd t b)
      | none => .next (s.modTask t (fun x => { x with own := true }))
    else
      let s := s.lateImage t
      let s := if s.on UN_CFG_EN && s.mode == mActive && s.pairUp then s.originate (.pairFrame (leBytes 1 t ++ leBytes 8 x.cycle ++ s.fwdBody t m)) else s
      .next (s.imageOut t m)

/-- `FORWARDED_IMAGE_RECEIVE`: a forwarded image arrives over a pair link; the first intact copy is used (R381). -/
def execForwardedImageReceive (k : PairLink) (img : FwdImage) (s : State) : Res :=
  let t := img.task.val
  let x := s.task t
  if !s.takesForwarded || s.heldPort (plkPort k) || (s.fwdOf t img.cycle).isSome then .next s
  else if x.own && x.cycle == img.cycle then .next (s.applyFwd t img.body)
  else .next { s with un := { s.un with fwd := tabIns s.un.fwd t (img.cycle, img.body) } }

/-- `FORWARD_DEADLINE`: no forwarded image by S + `XOFF` + Tfwd: the standby delivers its own (R381). -/
def execForwardDeadline (t : Task) (s : State) : Res :=
  let t := t.val
  if s.takesForwarded && (s.task t).own then
    .next (((s.p UN_STAT_OWNIMG 1).inc UN_FWDLOST_COUNT).imageOut t (s.withForces t))
  else .next s

end Sys2Proof.Machine
end

