-- ==== Sys2Proof/Machine/Vote.lean ====
section
/-! DEFINITION. The vote of a task's cycles (R55 to R57, R59, R67) and the commit of a majority's delta (R39, R106, R107, R119,
R285). -/

namespace Sys2Proof.Machine

/-! ### Commit -/

/-- The words of a delta. -/
def deltaWords (u : Sub) : List (Nat × BitVec 64) := u.runs.flatMap (fun r => (r.2.zipIdx).map (fun e => (r.1 + e.2, e.1)))

/-- How a timed group of a commit is judged (R107): not at all, with a time, or not committed. -/
inductive GroupFate where
  | none | at_ (t : Nat) | rejected
  deriving DecidableEq, Repr

/-- The judgement of a timed group (R107): `dflt` is the default commit time, `limit` is S(k) + 1 s. -/
def State.groupFate (s : State) (g : GroupDesc) (ws : List (Nat × BitVec 64)) (dflt limit : Nat) : GroupFate :=
  if !ws.any (fun e => decide (g.first < e.1) && decide (e.1 < g.first + g.count)) then .none
  else
    let v := match ws.find? (fun e => e.1 == g.first) with
      | some e => e.2.toNat
      | none => leNat (s.app.outImg.rdN (8 * g.first) 8)
    if v == 0 then .at_ dflt else if dflt ≤ v && v ≤ limit then .at_ v else .rejected

/-- The group of an output word, if it is in one. -/
def groupOf (gs : List (GroupDesc × GroupFate)) (w : Nat) : Option (GroupDesc × GroupFate) :=
  gs.find? (fun e => decide (e.1.first ≤ w) && decide (w < e.1.first + e.1.count))

/-- The forced bytes of a task's outputs: offset and value (R119). [DEDUCED: log 81] -/
def State.forcedBytes (s : State) (t : Nat) : List (Nat × List Byte) :=
  (s.forcedOf t false).map (fun e => (e.1.off, padTo e.1.len e.2))

/-- Does a run of bytes overlap one of a list of runs? -/
def overlaps (off len : Nat) (xs : List (Nat × Nat)) : Bool := xs.any (fun x => decide (x.1 < off + len) && decide (off < x.1 + x.2))

/-- The datagrams of a task's publications for cycle k, whether or not their words changed, at the default commit time (R105, R272). -/
def State.publish (s : State) (t k dflt : Nat) : State :=
  (s.app.pkg.pubs.filter (fun d => d.t.val == t)).foldl (fun (s : State) (d : PubDesc) =>
    s.dispatchPart { q := .netOther, commit := dflt, tgt := .publication d.p 0, data := [], t := some (Fin.ofNat 16 t), cycle := k }) s

/-- The output bindings of a task by their position in the output image (R365). -/
def AppPkg.outsOf (p : AppPkg) (t : Nat) : List OutBind :=
  sortBy (fun a b => decide (8 * a.word + a.byte ≤ 8 * b.word + b.byte)) (p.outs.filter (fun b => b.t.val == t))

/-- The commit of a majority's delta for cycle k of task t (R39, R106, R107, R119, R285). [DEDUCED: log 81] -/
def State.commit (s : State) (t k : Nat) (u : Sub) : State :=
  let d := s.desc t
  let sample := s.sampleTime t k
  let dflt := sample + d.lead * 1000
  let ws := deltaWords u
  let gs := (s.app.pkg.groups.filter (fun g => g.t.val == t)).map (fun g => (g, s.groupFate g ws dflt (sample + 1000000000)))
  let rej := gs.filter (fun e => e.2 == .rejected)
  let s := s.modTask t (fun x => { x with grprejNext := rej.foldl (fun v e => v ||| 2 ^ e.1.g) x.grprejNext })
  let s := rej.foldl (fun s _ => s.notice 0x16 0x0003 t 0) s
  -- a rejected group leaves only its commit-time word
  let kept : List (Nat × BitVec 64) := ws.filter (fun (e : Nat × BitVec 64) => match groupOf gs e.1 with
    | some (g, .rejected) => e.1 == g.first
    | _ => true)
  let s := { s with app := { s.app with outImg := kept.foldl (fun (m : Mem) (e : Nat × BitVec 64) => m.wrL (8 * e.1) (leBytes 8 e.2.toNat)) s.app.outImg } }
  let forced : List (Nat × List Byte) := s.forcedBytes t
  let back := (s.task t).unforced
  let pdus : List (Nat × Nat × List Byte) := s.txPdusOf t sample d.periodNs (fun i => s.app.outImg.rd i)
  let s := pdus.foldl State.showTx s
  let s := s.modTask t (fun x => { x with unforced := [] })
  let m := forced.foldl (fun (m : Mem) (e : Nat × List Byte) => m.wrL e.1 e.2) (pdus.foldl (fun (m : Mem) (e : Nat × Nat × List Byte) => m.wrL e.2.1 e.2.2) s.app.outImg)
  let extra := forced.map (fun e => (e.1, e.2.length)) ++ back ++ pdus.map (fun e => (e.2.1, e.2.2.length))
  let s := (s.app.pkg.outsOf t).foldl (fun (s : State) (b : OutBind) =>
    let off := 8 * b.word + b.byte
    let out := kept.any (fun e => decide (8 * e.1 < off + b.len) && decide (off < 8 * e.1 + 8))
    let inGroup := groupOf gs b.word
    let head := match inGroup with
      | some (g, _) => b.word == g.first
      | none => false
    let isForced := overlaps off b.len extra
    if head || !(out || isForced) then s
    else
      let commit := if isForced then dflt else match inGroup with
        | some (_, .at_ v) => v
        | _ => dflt
      s.dispatchPart { q := b.tgt.queue, commit := commit, tgt := b.tgt, data := m.rdN off b.len, t := some (Fin.ofNat 16 t), cycle := k }) s
  s.publish t k dflt

/-! ### Differences -/

/-- The first output word in which two deltas differ (R72). -/
def firstDiff : List (Nat × BitVec 64) → List (Nat × BitVec 64) → Nat
  | [], [] => 0
  | (w, _) :: _, [] => w
  | [], (w, _) :: _ => w
  | (w, v) :: xs, (w', v') :: ys => if w == w' && v == v' then firstDiff xs ys else min w w'

/-- Why a submission that differs from the majority's excludes its lane (R59). -/
def exclOf (l t cycle : Nat) (u w : Sub) : Excl :=
  let dig := u.digest != w.digest
  let del := u.runs != w.runs || u.oversize != w.oversize
  { lane := l, task := t, cycle := cycle, digest := dig, delta := del
    cause := if u.oversize && !w.oversize then 5 else if dig && del then 3 else if dig then 2 else 1
    word := if del then firstDiff (deltaWords u) (deltaWords w) else 0 }

/-! ### The vote of a cycle -/

/-- A vote put in its place, by rising cycle; of each task's decided votes those of the last two cycles are kept, and an older one
while retained stores of its cycle wait (R156). -/
def State.putVote (s : State) (v : CycVote) : State :=
  let keep (w : CycVote) : Bool := w.t != v.t || (w.cycle != v.cycle &&
    (decide (v.cycle ≤ w.cycle + 2) || s.streams.any (fun x => x.kind == .retained && x.st == .task w.t && decide (x.posts.any (fun e => leAt e.2 0 8 == w.cycle)))))
  { s with votes := insBy (fun a b => decide (a.cycle ≤ b.cycle)) v (s.votes.filter keep) }

/-- A submission compared with the majority's (R55, R67): the spare and every other lane that differs is in the minority.
[DEDUCED: log 78] -/
def State.compareSub (s : State) (l : Nat) (v : CycVote) (u w : Sub) : State :=
  if u == w then s.modLane l (fun x => { x with lastAgreed := true })
  else s.minority (exclOf l v.t.val v.cycle u w)

/-- A vote decided without a majority (R56): class 3 unless only one lane votes. [DEDUCED: log 78] -/
def State.noMajority (s : State) (v : CycVote) (code : Nat) : State :=
  let n := s.voters.length
  let s := (s.inc VX_VOTES_COUNT).inc VX_NOMAJ_COUNT
  let s := s.putVote { v with result := some .none }
  if n ≥ 2 then s.report 0x10 3 code else s

/-- A majority forms (R55, R56): its delta is committed, or nothing when it is oversize; the arrivals that differ are excluded. -/
def State.majority (s : State) (v : CycVote) (w : Sub) : State :=
  let two := s.voters.length == 2
  let s := (s.inc VX_VOTES_COUNT).putVote { v with result := some (.majority w) }
  let s := if w.oversize then
      (if two then s.inc VX_NOMAJ_COUNT else s).report 0x10 3 0x500
    else if s.running then s.commit v.t.val v.cycle w else s
  v.subs.foldl (fun s e => s.compareSub e.1.val v e.2 w) s

/-- Does a lane take part in a cycle of a task: its sample time is not before the boundary at which the lane entered its state (R31)? -/
def State.inCycle (s : State) (l t k : Nat) : Bool := decide ((s.lane l).joinAt ≤ s.sampleTime t k)

/-- The submissions that count in a cycle's vote (R55, R67). -/
def State.countedSubs (s : State) (v : CycVote) : List Sub :=
  (v.subs.filter (fun e => s.voters.contains e.1.val)).map (·.2)

/-- The lanes whose submissions a cycle's vote awaits. -/
def State.cycVoters (s : State) (v : CycVote) : List Nat := s.voters.filter (fun l => s.inCycle l v.t.val v.cycle)

/-- A lane's submission arrives at the fabric (R55, R56, R67). [DEDUCED: log 78] -/
def State.arriveSub (s : State) (l : Lane) (t : Task) (cycle : Nat) (u : Sub) : State :=
  let v := (s.cycVote t cycle).getD { t := t, cycle := cycle, subs := [] }
  let opens := !v.opened && s.laneSt l.val == laVoting
  let v := { v with subs := v.subs ++ [(l, u)], opened := v.opened || opens, since := if opens then s.tu.upNs else v.since }
  let s := s.putVote v
  let s := s.modTask t.val (fun x => if s.laneSt l.val == laVoting then { x with overruns := 0 } else x)
  match v.result with
  | some (.majority w) => s.compareSub l.val v u w
  | some .none => s
  | none =>
    let vs := s.countedSubs v
    if s.voters.length < 2 then (if vs.isEmpty then s else s.noMajority v 0x400)
    else match agreed vs with
      | some w => s.majority v w
      | none => if hopeless (s.cycVoters v).length vs then s.noMajority v 0x400 else s

/-- The vote whose window is open for a task: the oldest. -/
def State.openVote (s : State) (t : Task) : Option CycVote :=
  (sortBy (fun (a b : CycVote) => decide (a.cycle ≤ b.cycle)) (s.votes.filter (fun v => v.t == t && v.opened && !v.closed))).head?

/-- The lanes in Voting or Spare that take part in a cycle and have not submitted it are late (R31, R55). -/
def State.lateLanes (s : State) (v : CycVote) : State :=
  let late := s.liveLanes.filter (fun l => !(v.subs.map (·.1.val)).contains l && s.inCycle l v.t.val v.cycle)
  late.foldl (fun s l => s.minority { lane := l, cause := 4, task := v.t.val, cycle := v.cycle }) s

/-- `VOTE_WINDOW_CLOSE`: the vote window of a task's oldest open cycle closes, not before its time (R55, R56, R67, R143): lanes without a
submission are late. An undecided vote is judged once more by the lanes that count now. [DEDUCED: log 78] -/
def execVoteWindowClose (t : Task) (s : State) : Res :=
  match s.openVote t with
  | none => .next s
  | some v =>
    if !s.windowOver t.val v.since (s.g VX_CTRL_WINDOW) then .next s
    else
      let v := { v with closed := true }
      match v.result with
      | none => match (if s.voters.length < 2 then none else agreed (s.countedSubs v)) with
        | some w => .next ((s.majority v w).lateLanes v)
        | none => .next (s.noMajority v 0x400)
      | some (.majority _) => .next ((s.putVote v).lateLanes v)
      | some .none => .next (s.putVote v)

/-! ### The stop image (R117, R428) -/

/-- The stop image of a task committed with the default commit time of its next grid point, which is then done with (R117); of a Held
application it counts as skipped (R429). -/
def State.commitStop (s : State) (t : Nat) : State :=
  let d := s.desc t
  let x := s.task t
  let k := s.cycleAt t x.next
  let commit := x.next + d.lead * 1000
  if d.kind == 0 then s
  else
    let s := (s.app.pkg.outsOf t).foldl (fun (s : State) (b : OutBind) =>
      s.dispatchPart { q := b.tgt.queue, commit := commit, tgt := b.tgt, data := s.app.pkg.stopImg.rdN (8 * b.word + b.byte) b.len, t := some (Fin.ofNat 16 t), cycle := k }) s
    (s.publish t k commit).modTask t (fun x => { x with
      next := x.next + d.periodNs
      skipped := if s.app.state == .held && d.kind != 3 then min (x.skipped + 1) 0xFFFFFFFF else x.skipped })

/-- `STOP_IMAGE_COMMIT`: a grid point of a stopped or held application (R117, R428). -/
def execStopImageCommit (t : Task) (s : State) : Res :=
  if (s.app.state == .stopped || s.app.state == .held) && s.app.anchor.isSome && decide ((s.task t.val).next ≤ s.now + 8) then .next (s.commitStop t.val)
  else .next s

/-- The grid of a stop (R95, R117): the application's own, or where its anchor is not fixed yet one that begins at the next whole millisecond.
[DESIGN CHOICE: log 109] -/
def State.stopGrid (s : State) : State :=
  if s.app.anchor.isSome then s
  else
    let s := { s with app := { s.app with anchor := some ((s.now / 1000000 + 1) * 1000000) } }
    (List.range 16).foldl (fun (s : State) t => s.modTask t (fun x => { x with next := s.sampleTime t 0 })) s

/-- The application stops (R117): forces removed, no cycle runs, the Safe Channel and the drives go Off; the stop image of every task is
committed for its next grid point. -/
def State.appStop (s : State) : State :=
  if s.app.state == .notLoaded || s.app.state == .stopped then s
  else
    let s := s.removeForces s.app.forces 2
    let s := { s with app := { s.app with state := .stopped, changeEnd := none } }
    let s := s.endStart
    let s := (s.dropContexts.clearRun.scOff.drivesDisable).stopGrid
    ((List.range 16).foldl State.commitStop s).driveOutputs

end Sys2Proof.Machine
end

