-- ==== Sys2Proof/Machine/Memory.lean ====
section
/-! DEFINITION. Lane memory: the check of the MMU (R149 to R151), memory errors and scrubbing (R153, R154), retained memory (R156), TCM
starvation (R160), retention and wipes (R173, R174), the digest windows (R51, R52). -/

namespace Sys2Proof.Machine

/-! ### The MMU (R148 to R151) -/

/-- The address space that a unit answers (R36, R148): the regions but for the unmapped part of the control registers and of the
mailbox window. -/
def mapped (a n : Nat) : Bool :=
  let r := regionOf a
  r != .none && regionOf (a + n - 1) == r &&
  !(r == .ctrl && decide (0x180070000 ≤ a + n - 1)) && !(r == .mbox && decide (0x190001000 ≤ a + n - 1))

/-- The lowest-numbered entry that applies to an access of a pair (R150). -/
def State.mmuEntry (s : State) (l p a : Nat) : Option Nat :=
  (List.range 64).find? (fun e => s.on (MM_RCFG_VALID l e) && bit (s.g (MM_RCFG_PAIRS l e)) p &&
    decide (s.g (MM_RBASE_BASE l e) ≤ a / 4096) && decide (a / 4096 ≤ s.g (MM_RBASE_BASE l e) + s.g (MM_RCFG_PAGES l e)))

/-- The permission that an access needs of an entry. -/
def State.entryGrants (s : State) (l e : Nat) (acc : AccessKind) (sup : Bool) : Bool :=
  match acc, sup with
  | .load, false => s.on (MM_RCFG_UR l e)
  | .store, false => s.on (MM_RCFG_UW l e)
  | .fetch, false => s.on (MM_RCFG_UX l e)
  | .load, true => s.on (MM_RCFG_SR l e)
  | .store, true => s.on (MM_RCFG_SW l e)
  | .fetch, true => s.on (MM_RCFG_SX l e)

/-- The cause and the entry of a fault that the regions of R148 give, none where they permit the access. -/
def regionFault (a n : Nat) (acc : AccessKind) (sup : Bool) : Option Nat :=
  let r := regionOf a
  if (r == .ctrl || r == .mbox) && !sup then some 2
  else if acc == .fetch && r != .dram && r != .tcm then some 2
  else if (r == .ctrl || r == .mbox) && !(n == 4 && a % 4 == 0) then some 4
  else if acc == .store && (r == .inImg || r == .shadowTime) then some 5
  else none

/-- What the check of a core's access finds: none where it proceeds, else cause and deciding entry (R149 to R151, R176).
[DEDUCED: log 60] -/
def State.mmuCheck (s : State) (l p a n : Nat) (acc : AccessKind) (sup : Bool) : Option (Nat × Nat) :=
  if !mapped a n then some (3, 0)
  else
    let entry := if s.on (MM_CTRL_EN l) then s.mmuEntry l p a else none
    let byEntry := if s.on (MM_CTRL_EN l) then
        match entry with
        | none => some (1, 0)
        | some e =>
          let last := (s.g (MM_RBASE_BASE l e) + s.g (MM_RCFG_PAGES l e) + 1) * 4096
          if a + n ≤ last && s.entryGrants l e acc sup then none else some (2, e)
      else none
    match byEntry with
    | some x => some x
    | none => (regionFault a n acc sup).map (fun k => (k, if k == 2 then entry.getD 0 else 0))

/-- The code of an access in `MM_FSTATc`. -/
def accessCode : AccessKind → Nat
  | .load => 0
  | .store => 1
  | .fetch => 2

/-! ### Memory errors and scrubbing (R153, R154) -/

/-- The report code of a memory (R404). -/
def memCode : MemKind → Nat
  | .dram => 1
  | .tcm => 2
  | .l2 => 3
  | .parity => 4

/-- `UNCORRECTABLE_MEMORY_ERROR` (R153). -/
def execUncorrectableMemoryError (l : Lane) (m : MemKind) (s : State) : Res :=
  if s.laneSt l.val == laAbsent then .next s else .next ((s.failCheck 0).report (4 + l.val) 1 (memCode m))

/-- The words a lane corrected within the last hour. -/
def hourSum (xs : List (Nat × Nat)) : Nat := xs.foldl (fun n e => n + e.2) 0

/-- Corrections counted; the thousand-and-first within an hour is a notice (R154). -/
def State.corrections (s : State) (l n : Nat) : State :=
  let old := (s.lane l).correctedHour.filter (fun e => decide (s.opms < e.1 + 3600000))
  let s := s.modLane l (fun x => { x with correctedHour := if n == 0 then old else old ++ [(s.opms, n)] })
  if hourSum old ≤ 1000 && 1000 < hourSum old + n then s.notice (4 + l) 0x0001 0 0 else s

/-- `SCRUB_PASS`: what a scrub corrected in each memory, and a word it could not correct (R153, R154); while `TC_CTRL.SCRUB` is 0 only lane
DRAM is scrubbed. -/
def execScrubPass (l : Lane) (dram l2 tcm : Nat) (bad : Option MemKind) (s : State) : Res :=
  let i := l.val
  if !s.coresRun i then .next s
  else
    let on := s.on (TC_CTRL_SCRUB i)
    let l2 := if on then l2 else 0
    let tcm := if on then tcm else 0
    let s := ((s.satAdd (MM_ECCDRAM_CORR i) dram).satAdd (MM_ECCL2_CORR i) l2).satAdd (TC_ECC_CORR i) tcm
    let s := s.corrections i (dram + l2 + tcm)
    match bad with
    | some m => if on || m == .dram then .next ((s.failCheck 0).report (4 + i) 1 (memCode m)) else .next s
    | none => .next s

/-! ### Retained memory (R156) -/

/-- `RETAINED_APPLY`: the stores of one cycle written as one transaction (R156). [DEDUCED: log 63] -/
def execRetainedApply (st : RetStream) (s : State) : Res := if s.mode == mDormant then .next s else .next (s.retApply st)

/-! ### TCM (R160) -/

/-- `TCM_STARVATION`: a DMA request has waited `clks` TCM clocks, 800 to a µs (R160). [DESIGN CHOICE: log 62] -/
def execTcmStarvation (l : Lane) (b : Fin 8) (clks : Nat) (s : State) : Res :=
  let i := l.val
  if !s.coresRun i then .next s
  else
    let s := s.satAdd (TC_WAIT_CLKS i b.val) clks
    if clks ≤ 800 * s.g (TC_STARVTHR_US i b.val) then .next s
    else
      let s := (s.inc (TC_STARV_COUNT i b.val)).p (TC_STAT_STARV i) (s.g (TC_STAT_STARV i) ||| 2 ^ b.val)
      .next (s.laneNotice i 0x0004 b.val (s.word (TC_STAT_STARV i)))

/-! ### Retention and wipes (R173, R174) -/

/-- `RETENTION_LOST`: the retention rail of a parked lane dips (R173). [DEDUCED: log 49] -/
def execRetentionLost (l : Lane) (s : State) : Res :=
  if s.mode == mParked && s.laneSt l.val != laAbsent then .next (s.modLane l.val (fun x => { x with retentionLost := true }))
  else .next s

/-- `LOGICAL_WIPE_DONE`: the lane can be used (R174). -/
def execLogicalWipeDone (l : Lane) (s : State) : Res := .next (s.modLane l.val (fun x => { x with lwiping := false }))

/-- `PHYSICAL_WIPE_DONE` (R174). -/
def execPhysicalWipeDone (l : Lane) (s : State) : Res := .next (s.modLane l.val (fun x => { x with pwiping := false }))

/-! ### Digest windows (R51, R52) -/

/-- The windows in use. -/
def State.windows (s : State) (l : Nat) : List (Nat × Nat) :=
  ((List.range 16).map (fun n => (s.g (SD_WINBASE_BASE l n), s.g (SD_WINSIZE_PAGES l n)))).filter (fun w => w.2 != 0)

/-- Does a window lie wholly in lane DRAM or wholly in TCM? -/
def windowPlace (w : Nat × Nat) : Bool :=
  oneRegion w.1 w.2 && (regionOf (w.1 * 4096) == .dram || regionOf (w.1 * 4096) == .tcm)

/-- Do two page ranges share a page? -/
def pagesMeet (v w : Nat × Nat) : Bool := decide (v.1 < w.1 + w.2) && decide (w.1 < v.1 + v.2)

/-- No two of a list of page ranges overlap. -/
def disjoint : List (Nat × Nat) → Bool
  | [] => true
  | w :: ws => ws.all (fun v => !pagesMeet v w) && disjoint ws

/-- The rules of R51. -/
def State.windowsOk (s : State) (l : Nat) : Bool :=
  let ws := s.windows l
  ws.all windowPlace && disjoint ws && decide (ws.foldl (fun n w => n + w.2) 0 ≤ 65536)

/-- A write of `SD_CTRL` (R51, R52, R73). [DEDUCED: log 19] -/
def State.sdCtrl (s : State) (l : Nat) (v : Word) : State :=
  let en := getBits v 0 1 == 1
  if en && !s.windowsOk l then
    let s := s.p (SD_STAT_WINERR l) 1
    s.laneNotice l 0x0003 0 (s.word (SD_STAT_WINERR l))
  else
    let rise := en && !s.on (SD_CTRL_EN l)
    let s := (s.pb (SD_CTRL_EN l) en).p (SD_CTRL_SEL l) (getBits v 4 4)
    if rise then
      let d := (List.range 16).foldl (fun (d : Tab (BitVec 128)) t => tabSet (fun _ => 0) d t (s.scanDigest l t)) []
      (s.modLane l (fun x => { x with digest := d })).p (SD_STAT_SCANBUSY l) 1
    else if en then s
    else s.p (SD_STAT_SCANBUSY l) 0

/-- `SD_ENABLE`: a write of `SD_CTRL` (R51, R52). -/
def execSdEnable (l : Lane) (v : Word) (s : State) : Res := .next (s.sdCtrl l.val v)

/-- Is an address in a window of a lane whose digest scan runs (R52)? A core's store there stalls. -/
def State.scanHolds (s : State) (l a : Nat) : Bool := s.on (SD_STAT_SCANBUSY l) && (s.winOf l a).isSome

end Sys2Proof.Machine
end

