-- ==== Sys2Proof/Machine/AppOps.lean ====
section
/-! DEFINITION. The application as a whole (R93 to R125): the checks at a load, what the Keeper writes from a package, starts,
on-line changes, the anchor. -/

namespace Sys2Proof.Machine

/-! ### Checks of a package (R474, R476) -/

/-- Is the execute offset at least the consolidation time of R97 for an input range of `b` bytes? -/
def xoffCovers (xoff b : Nat) : Bool := decide (2900 * 65536 + 10320 * b ≤ xoff * 1000 * 65536)

/-- Are the fields of a task descriptor legal (R93)? Of an unused task those count that no `PERIOD` bounds. [DEDUCED: log 46] -/
def TaskDesc.legal (d : TaskDesc) (t inLen outWords : Nat) : Bool :=
  if d.kind == 0 then
    d.offset % 20 == 0 && decide (d.pair < 4) && !(d.runahead && d.directio) && within 1 255 d.ovrlim && decide (d.groups ≤ 8) && decide (d.stations ≤ 64)
  else
    let grid := d.period % 20 == 0 && d.offset % 20 == 0 && decide (d.offset < d.period)
    let range := match d.kind with
      | 1 => within 100 980 d.period
      | 2 => within 1000 1000000 d.period
      | 3 => within 10000 10000000 d.period && t == 15 && !d.safety && d.groups == 0 && outWords == 0
      | _ => false
    let lead := if d.kind == 3 then d.lead == d.period else d.lead % 20 == 0 && within d.period 1000000 d.lead
    grid && range && lead && xoffCovers d.xoff inLen && decide (d.xoff < d.period) && decide (d.pair < 4) &&
    !(d.runahead && (d.directio || d.kind == 3)) && (d.kind == 3 || within 1 255 d.ovrlim) && decide (d.groups ≤ 8) &&
    decide (d.stations ≤ 64)

/-- A task's descriptor in a package. -/
def AppPkg.desc (p : AppPkg) (t : Nat) : TaskDesc := tabGet (fun _ => {}) p.tasks t

/-- A task's output words: first and count (R71). -/
def AppPkg.outRange (p : AppPkg) (t : Nat) : Nat × Nat := tabGet (fun _ => (0, 0)) p.orange t

/-- A task's input range. -/
def AppPkg.inOf (p : AppPkg) (t : Nat) : Nat × Nat := tabGet (fun _ => (0x8000, 0)) p.inRange t

/-- R93 for every task. [DEDUCED: log 46] -/
def AppPkg.tasksOk (p : AppPkg) : Bool := (List.range 16).all (fun t => (p.desc t).legal t (p.inOf t).2 (p.outRange t).2)

/-- No two of a list of ranges overlap; ranges of length 0 overlap nothing. -/
def rangesApart : List (Nat × Nat) → Bool
  | [] => true
  | r :: rs => rs.all (fun q => r.2 == 0 || q.2 == 0 || !(decide (r.1 < q.1 + q.2) && decide (q.1 < r.1 + r.2))) && rangesApart rs

/-- Output ranges lie in the output image and do not overlap (R71). -/
def AppPkg.outsOk (p : AppPkg) : Bool :=
  let rs := (List.range 16).map p.outRange
  rs.all (fun r => decide (r.1 + r.2 ≤ 32768)) && rangesApart rs

/-- The run-ahead configuration (R128). -/
def AppPkg.runAheadOk (p : AppPkg) : Bool :=
  let ts := (List.range 16).filter (fun t => (p.desc t).runahead)
  let logs := ts.map (fun t => tabGet (fun _ => (0, 0)) p.logs t)
  let wins := p.windows.map (fun w => (w.base, w.pages))
  let scr := (p.scratch.map (·.2)).filter (fun w => w.2 != 0)
  logs.all (fun x => x.2 != 0 && decide (x.1 + x.2 ≤ 64)) && rangesApart logs && decide ((logs.map (·.2)).foldl (· + ·) 0 ≤ 64) &&
  scr.all windowPlace && disjoint scr && scr.all (fun x => wins.all (fun w => !pagesMeet x w)) &&
  decide (p.preds.length ≤ 256) &&
  p.preds.all (fun e => decide (e.rule ≤ 1) && decide (e.width ≤ 2) && ts.any (fun t =>
    decide ((p.inOf t).1 ≤ 8 * e.word) && decide (8 * e.word + 8 ≤ (p.inOf t).1 + (p.inOf t).2)))

/-- The digital output that a trigger target names, by the codes of `REQOUT`. -/
def trgOut (tgt : Nat) : Option Nat := if within 8 0xB tgt then some (0x11 + (tgt - 8)) else none

/-- The digital output that an output word drives, by the codes of `REQOUT`. -/
def OutTgt.outCode : OutTgt → Option Nat
  | .hso n => some n
  | .fpp n => some (0x10 + n)
  | _ => none

/-- The outputs that the package's words drive. -/
def AppPkg.outCodes (p : AppPkg) : List Nat := p.outs.filterMap (fun b => b.tgt.outCode)

/-- The outputs that triggers drive: the package's own channels and the Keeper channels of the loaded configuration. -/
def State.trgOuts (s : State) (p : AppPkg) : List Nat :=
  p.fppTrig.map (0x10 + ·) ++ p.trigMap.filterMap (fun e => trgOut (getBits e.2 0 6)) ++
  (List.range 16).filterMap (fun n => if s.on (TU_TRGCFG_EN n) && !s.on (TU_TRGCFG_APP n) then trgOut (s.g (TU_TRGCFG_TGT n)) else none)

/-- R199, and trigger and capture channels that the loaded configuration uses (R474). -/
def State.triggersOk (s : State) (p : AppPkg) : Bool :=
  (p.outCodes.all (fun k => !(s.trgOuts p).contains k)) &&
  p.trigMap.all (fun e => !(s.on (TU_TRGCFG_EN e.1) && !s.on (TU_TRGCFG_APP e.1)) && trgLegal (getBits e.2 0 6)) &&
  p.capMap.all (fun e => capCfgLegal e.2 && !((tabGet (fun _ => 0) s.cfg.cap e.1 : Word) != 0))

/-- A register word of a stored safety configuration. -/
def SafePkg.reg (k : SafePkg) (a : Nat) : Word := ((k.words.find? (fun e => e.1 == a)).map (·.2)).getD (regReset a)

/-- A field of a stored safety configuration. -/
def SafePkg.g (k : SafePkg) (f : Fld) : Nat := getBits (k.reg f.reg) f.lo f.w

/-- R283: the watchdog of each receive connection is no shorter than its owner task's period. -/
def wdtOk (k : SafePkg) (p : AppPkg) : Bool :=
  (List.range 128).all (fun r => k.g (SC_RXCFG_VALID r) == 0 || decide ((p.desc (k.g (SC_RXCFG_TASK r))).period ≤ k.g (SC_RXWDT_WDT r)))

/-- R300: permit words are the words of safety tasks and in no timed group. -/
def AppPkg.permitsOk (p : AppPkg) : Bool :=
  p.outs.all (fun b => match b.tgt with
    | .permit _ => (p.desc b.t.val).safety && b.byte == 0 && b.len == 8 &&
        !(p.groups.any (fun g => decide (g.first ≤ b.word) && decide (b.word < g.first + g.count)))
    | _ => true)

/-- R306: a drive's request output is no output word and no trigger target. -/
def State.requestsOk (s : State) (p : AppPkg) : Bool :=
  match s.keys.safe with
  | none => true
  | some k => [1, 2].all (fun d =>
      let q := k.g (SF_SS1OUT_REQOUT d)
      q == 0 || !(p.outCodes.contains q || (s.trgOuts p).contains q))

/-- R341: output words on current outputs only, input records on channels that are not Off. -/
def State.loopsOk (s : State) (p : AppPkg) : Bool :=
  p.outs.all (fun b => match b.tgt with
    | .loop n => s.g (AN_CFG_MODE n) == 1
    | _ => true) &&
  p.ins.all (fun b => match b.src with
    | .analogue n => s.g (AN_CFG_MODE n) != 0
    | _ => true)

/-- R359: card windows overlap neither one another nor the exchange window. -/
def AppPkg.cardsOk (p : AppPkg) : Bool :=
  rangesApart ((0xFFFF0, 16) :: p.cards.flatMap (fun c => c.wins.map (fun w => (w.1, w.2.1))))

/-- The bit times of the worst-case exchange of one serial station (R373). -/
def serialBits (out inp : Nat) : Nat := (6 + out) * 11 + 60 + (6 + inp) * 11 + 22

/-- R373, R376: legal serial fields, and the worst-case exchanges fit the cycle. -/
def AppPkg.serialsOk (p : AppPkg) : Bool :=
  p.serials.isEmpty || (decide (p.serialRate < 3) && within 1 255 p.serialCycle &&
    p.serials.all (fun d => within 1 31 d.k && decide (d.out ≤ 240) && decide (d.inp ≤ 240)) &&
    decide ((p.serials.map (fun d => serialBits d.out d.inp)).foldl (· + ·) 0 ≤ p.serialCycle * 375 * 2 ^ p.serialRate))

/-- The checks that `APP_LOAD` and `APP_OLC_LOAD` share, the vote windows (R72), cards and serial stations among them. -/
def State.sharedChecks (s : State) (p : AppPkg) : Bool :=
  p.cardsOk && p.serialsOk && p.runAheadOk && within 5 200 p.window && within 5 200 p.cmdWindow && s.triggersOk p && (match s.keys.safe with
    | some k => wdtOk k p
    | none => true) && p.permitsOk && s.requestsOk p && s.loopsOk p

/-- The checks of `APP_LOAD` (R474). -/
def State.appChecks (s : State) (p : AppPkg) : Bool := p.tasksOk && p.outsOk && s.sharedChecks p

/-- What an on-line change may not alter (R122, R281). -/
def AppPkg.keeps (p q : AppPkg) : Bool :=
  decide (p.tasks = q.tasks) && decide (p.windows = q.windows) && decide (p.orange = q.orange) && decide (p.entries = q.entries) &&
  decide (p.rxPdus = q.rxPdus) && decide (p.txPdus = q.txPdus) &&
  p.retVars.all (fun v => q.retVars.all (fun w => w.1 != v.1 || w == v))

/-! ### What the Keeper writes from a package -/

/-- The configuration registers of one lane: output ranges, windows, run-ahead (R64, R71, R73, R147).
[DEDUCED: log 48; DESIGN CHOICE: log 47] -/
def State.laneConfig (s : State) (l : Nat) : State :=
  let p := s.app.pkg
  let ts := List.range 16
  let s := ts.foldl (fun (s : State) t => (s.p (VX_ORANGE_FIRST l t) (p.outRange t).1).p (VX_ORANGE_COUNT l t) (p.outRange t).2) s
  let s := ts.foldl (fun (s : State) n =>
    let w := (p.windows[n]?).getD { base := 0, pages := 0, owner := 0 }
    ((s.p (SD_WINBASE_BASE l n) w.base).p (SD_WINSIZE_PAGES l n) w.pages).p (SD_WINSIZE_OWNER l n) w.owner.val) s
  let s := ts.foldl (fun (s : State) t =>
    let g := tabGet (fun _ => (0, 0)) p.logs t
    let c := tabGet (fun _ => (0, 0)) p.scratch t
    let s := (s.p (RA_LOG_BASE l t) g.1).p (RA_LOG_SIZE l t) g.2
    (s.p (RA_SCRBASE_BASE l t) c.1).p (RA_SCRSIZE_PAGES l t) c.2) s
  let mask := ts.foldl (fun m t => if (p.desc t).runahead then m + 2 ^ t else m) 0
  let s := (s.p (RA_TASKEN_EN l) mask).pb (RA_CTRL_EN l) (mask != 0)
  let a0 := laneBase l + 0x10800
  let s := { s with regs := s.regs.filter (fun e => !(decide (a0 ≤ e.1) && decide (e.1 < a0 + 0x800))) }
  let s := (p.preds.zipIdx).foldl (fun (s : State) e =>
    let s := ((s.p (RA_PTAB_WORD l e.2) e.1.word).p (RA_PTAB_RULE l e.2) e.1.rule).p (RA_PTAB_WIDTH l e.2) e.1.width
    (s.p (RA_PK_K l e.2) e.1.k).p (RA_PTAB_VALID l e.2) 1) s
  s.predValid

/-- The spare lane out of use (R68): a lane in Spare goes to Absent. -/
def State.spareOff (s : State) : State :=
  let s := s.p VX_CTRL_SPAREEN 0
  match [0, 1, 2, 3].find? (fun l => s.laneSt l == laSpare) with
  | some l =>
    let x := s.dropLane l laAbsent
    x.1.reports x.2
  | none => s

/-- The spare lane in use (R68): the Absent lane goes through Resetting, Preparing and Copying. -/
def State.spareOn (s : State) : State :=
  let s := s.p VX_CTRL_SPAREEN 1
  match [0, 1, 2, 3].find? (fun l => s.laneSt l == laAbsent) with
  | some l => (s.setLaneSt l laResetting).wipeLane l true
  | none => s

/-- `SPAREEN` as a configuration gives it; a ZM60-E4 has no spare (R68). -/
def State.setSpare (s : State) (on : Bool) : State :=
  if s.variant == .zm60 || s.on VX_CTRL_SPAREEN == on then s else if on then s.spareOn else s.spareOff

/-- The publications and subscriptions of a package (R271, R277). A subscription that is set up anew has no `SEQ` yet. [DEDUCED: log 75] -/
def State.netConfig (s : State) : State :=
  let p := s.app.pkg
  let s := (List.range 64).foldl (fun (s : State) k => s.p (EN_PUBCFG_VALID k) 0) s
  let s := (List.range 128).foldl (fun (s : State) k => s.p (EN_SUBCFG_VALID k) 0) s
  let s := { s with eth := { s.eth with subs := [] } }
  let s := p.pubs.foldl (fun (s : State) d =>
    let s := ((s.p (EN_PUBID_PUBID d.p) d.id).p (EN_PUBCFG_LEN d.p) d.len).p (EN_PUBCFG_PCP d.p) d.pcp
    ((s.p (EN_PUBCFG_EVERY d.p) d.every).p (EN_PUBCFG_TASK d.p) d.t.val).p (EN_PUBCFG_VALID d.p) 1) s
  p.subs.foldl (fun (s : State) d =>
    ((((s.p (EN_SUBID_PUBID d.s) d.id).p (EN_SUBCFG_LEN d.s) d.len).p (EN_SUBCFG_TMO d.s) d.tmo).p (EN_SUBCFG_VALID d.s) 1)) s

/-- The trigger and capture channels of a package (R195, R198): its own channels take its words, a channel that the application
before it used is free again. -/
def State.timeMap (s : State) : State :=
  let p := s.app.pkg
  let s := (List.range 16).foldl (fun (s : State) n =>
    if s.on (TU_TRGCFG_APP n) then ((s.p (TU_TRGCFG_APP n) 0).p (TU_TRGCFG_EN n) 0).p (TU_TRGSTAT_ARMED n) 0 else s) s
  let s := p.trigMap.foldl (fun (s : State) e =>
    ({ s with regs := s.regs.wr (TU_TRGCFG_TGT e.1).reg (e.2 &&& 0x1FFFFFF) } : State).p (TU_TRGCFG_APP e.1) 1) s
  p.capMap.foldl (fun s e => s.capConfig e.1 e.2) s

/-- The package in effect placed: registers and lanes (R64, R71, R72, R271). -/
def State.placePkg (s : State) : State :=
  let p := s.app.pkg
  let s := (s.p VX_CTRL_WINDOW p.window).p VX_CTRL_CMDWIN p.cmdWindow
  let s := (s.setSpare p.spareEn).netConfig.timeMap.rackConfig p
  [0, 1, 2, 3].foldl (fun (s : State) l => if s.laneSt l == laOut || s.laneSt l == laAbsent || s.laneSt l == laResetting then s else s.laneConfig l) s

/-- The SHA-256 of a package's code and constants. -/
def AppPkg.codeHash (p : AppPkg) : List Byte := padTo 32 (Config.sha256 (p.code.map (·.2)))

/-- The application Stopped with the package of the last change applied, or the stored one (R114, R125). The result hash of each change is
checked; where one differs the application's verification has failed. -/
def State.placeStored (s : State) : State :=
  match s.app.stored with
  | none => s
  | some p =>
    let q := s.app.changes.getLast?.getD p
    let hash := (s.app.changes.getLast?.map AppPkg.hash).getD p.codeHash
    let bad := s.app.changes.any (fun c => padTo 32 c.hash != c.codeHash)
    ({ s with app := { s.app with state := .stopped, pkg := q, hash := hash, badImage := bad, olcPkg := none, olcHash := [] } } : State).placePkg

/-! ### Starts (R114 to R116) -/

/-- The windows and scratch of the package as page ranges. -/
def AppPkg.ranges (p : AppPkg) : List (Nat × Nat) := p.windows.map (fun w => (w.base, w.pages)) ++ p.scratch.map (·.2)

/-- The code and constants of the package in effect placed in a lane (R64, R114, R123). -/
def State.placeCode (s : State) (l : Nat) : State :=
  s.modLane l (fun x => { x with mem := s.app.pkg.code.foldl (fun (m : Mem) e => m.wr e.1 e.2) x.mem, written := pagesUnion x.written s.app.pkg.code })

/-- The pages of some page ranges added to a list (R174). -/
def addPages (ps : List Nat) (rs : List (Nat × Nat)) : List Nat :=
  (rs.flatMap (fun r => (List.range r.2).map (r.1 + ·))).foldl (fun (ps : List Nat) p => if ps.contains p then ps else p :: ps) ps

/-- A lane's memory at a start (R115): the code, windows at their initial values, scratch zero, logs and buffers empty; its digests are
scanned. [DESIGN CHOICE: log 47] -/
def State.initLane (s : State) (l : Nat) : State :=
  let p := s.app.pkg
  let s := ((s.p (SD_CTRL_EN l) 0).laneConfig l).placeCode l
  let x := s.lane l
  let m := p.ranges.foldl (fun (m : Mem) w => m.wipe (w.1 * 4096) ((w.1 + w.2) * 4096)) x.mem
  let m := p.winInit.foldl (fun (m : Mem) e => m.wr e.1 e.2) m
  let s := s.setLane l { x with mem := m, written := addPages x.written p.ranges, task := [], spec := [], rbuf := [], runtimePos := 0, runtimeWords := [], inited := false, lastAgreed := false }
  (s.retPend l).sdCtrl l (BitVec.ofNat 32 (1 + 16 * s.g (SD_CTRL_SEL l)))

/-- A task at a start (R560): what its first image counts from here, its inputs at their initial values (R104). [DESIGN CHOICE: log 47] -/
def State.freshTask (s : State) (t : Nat) : TaskSt :=
  let r := s.app.pkg.inOf t
  { img := s.app.pkg.inInit.filter (fun e => decide (r.1 ≤ e.1) && decide (e.1 < r.1 + r.2))
    edges0 := (List.range 16).foldl (fun m i => tabSet (fun _ => 0) m (i + 1) (s.di (i + 1)).edges) []
    sil0 := s.fd.silEntries
    take0 := s.un.takeovers }

/-- The lanes take up their votes once every lane of a starting module is prepared (R63): A to C vote, D is the spare or is held in
reset. -/
def State.laneRise (s : State) : State :=
  let fresh := [0, 1, 2, 3].filter (fun l => (s.laneSt l == laResetting || s.laneSt l == laPreparing) && !(s.lane l).afterExcl && !(s.lane l).held)
  if s.app.state == .starting && !fresh.isEmpty && fresh.all (fun l => (s.lane l).prepared) then
    fresh.foldl (fun (s : State) l =>
      if l < 3 then (((s.setLaneSt l laVoting).openChan l true).initLane l).backInService l
      else if s.on VX_CTRL_SPAREEN then (((s.setLaneSt l laSpare).openChan l false).initLane l).backInService l
      else (s.setLaneSt l laAbsent).wipeLane l false) s
  else s

/-- A start of a stopped application with a kind of R116: 1 cold, 2 warm, 0 the configuration's restart kind (R115).
[DESIGN CHOICE: log 47] -/
def State.startApp (s : State) (kind : Nat) : State :=
  let p := s.app.pkg
  let want := if kind == 0 then (if p.warm then 2 else 1) else kind
  let keeps := s.app.retSig == some p.layoutSig && s.app.retOk
  let s := if want == 2 && !keeps then s.notice 0x16 0x0004 0 0 else s
  let k := if want == 2 && keeps then 2 else 1
  let s := if k == 1 then { s with app := { s.app with retMem := p.retInit, retSig := some p.layoutSig, retCrc := crcTable p.retInit } } else s
  let s := s.dropContexts.clearRun
  let s := { s with netUsed := [], eth := { s.eth with pubUsed := [] }, rb := { s.rb with tasks := [] } }
  let tasks : Tab TaskSt := (List.range 16).foldl (fun m t => tabSet (fun _ => {}) m t (s.freshTask t)) []
  let s := { s with app := { s.app with state := .starting, startKind := k, olcCount := 0, anchor := none, tasks := tasks, changeEnd := none } }
  let s := s.scStart
  let s := s.liveLanes.foldl State.initLane s
  let s := if s.on VX_RSYNC_ACTIVE then (s.p VX_RSYNC_ROUND 1).p VX_RSYNCLEFT_KIB (4 * s.copyPages (s.g VX_RSYNC_SOURCE)) else s
  s.laneRise

/-- The anchor follows the reports of every Voting and Spare lane (R95): with a ring configured, the first macrocycle boundary at
least one macrocycle later, else the next whole millisecond. [DEDUCED: log 50] -/
def State.fixAnchor (s : State) : State :=
  if s.app.state == .starting && s.app.anchor.isNone && !s.liveLanes.isEmpty && s.liveLanes.all (fun l => (s.lane l).inited) then
    let ring := s.ringConf 0 || s.ringConf 1
    let a := if ring then (s.now + 1999999) / 1000000 * 1000000 else (s.now / 1000000 + 1) * 1000000
    let s := { s with app := { s.app with anchor := some a } }
    (List.range 16).foldl (fun (s : State) t => s.modTask t (fun x => { x with next := s.sampleTime t 0 })) s
  else s

/-! ### On-line change (R123 to R125) -/

/-- The forces that a new package does not keep (R124). -/
def State.lostForces (s : State) (q : AppPkg) : List Force :=
  s.app.forces.filter (fun f =>
    let old := s.app.pkg.symbols.find? (fun y => y.id == f.id)
    match q.symbols.find? (fun y => y.id == f.id) with
    | some y => (old.map (·.ty)) != some y.ty
    | none => true)

/-- The change point (R123 to R125): Changing for the conversion's time; each lane's conversion over its own state, the new code and tables, the
forces, the stored package, its result hash. [DEDUCED: log 48] -/
def State.olcApply (s : State) (q : AppPkg) : State :=
  let s := s.removeForces (s.lostForces q) 4
  let news := q.ins.filter (fun b => !(s.app.pkg.ins.any (fun c => c == b)))
  let s := { s with app := { s.app with
    state := .changing, changeEnd := some (s.now + q.convNs), pkg := q, hash := padTo 32 q.hash, changes := s.app.changes ++ [q], olcPkg := none, olcHash := [], olcCount := s.app.olcCount + 1
    retSig := some q.layoutSig } }
  let s := s.placePkg
  let s := s.liveLanes.foldl (fun (s : State) l =>
    (Config.conversion q (s.lane l).mem).foldl (fun (s : State) e => s.storeBytes l e.1 [e.2]) (s.placeCode l)) s
  let s := news.foldl (fun (s : State) b => s.putImg b.t.val b.off (q.inInit.rdN b.off b.len)) s
  (List.range 16).foldl (fun (s : State) t => s.modTask t (fun x => { x with olcFlag := true })) s

end Sys2Proof.Machine
end

