-- ==== Sys2Proof/Machine/ModeOps.lean ====
section
/-! DEFINITION. Shared operations of the modes (R420, R421, R428, R429): what an entry into a mode brings with it, the ready module's
next mode, Parked and the wake, the ends of a trial and the start of a build. -/

namespace Sys2Proof.Machine

/-! ### Updates, as the modes drive them (R516, R522) -/

/-- A build starts when every chunk is complete in a mode that builds, unless a fault isolated the module (R516). -/
def State.buildStart (s : State) (resume : Bool) : State :=
  if s.g UP_STAT_PHASE == 2 && within mCommissioning mUpdate s.mode && (resume || !s.on LC_MODE_FISO) then
    ((s.p UP_STAT_PHASE 3).p UP_STAT_BUILT 0).p UP_BUILD_BYTES 0
  else s

/-- The trial is committed (R522). -/
def State.trialCommit (s : State) : State :=
  if s.on UP_STAT_TRIAL && !s.fc.class3 then
    let tries := s.g UP_STAT_TRIES
    let s := ((s.p UP_STAT_TRIAL 0).p UP_STAT_TRIES 0).upDiscard
    let s := (s.p UP_STAT_PHASE 0).p UP_TGTVER_VERSION 0
    ({ s with up := { s.up with orig := none } } : State).upEvent 8 (leBytes 4 (s.g UP_VERSION_VERSION) ++ leBytes 1 tries)
  else s

/-! ### Stored ring and unit configurations (R217, R377, R482, R487) -/

/-- The `UN_` block from the stored unit configuration and witness entries (R487). -/
def State.writeUnit (s : State) : State :=
  let s := match s.cfg.unit with
    | some u =>
      let s := ((s.p UN_CFG_UNIT u.unit).p UN_CFG_PARTNER u.partner).p UN_CFG_WITNESS u.witness
      let s := (s.pb UN_CFG_R1 u.r1).pb UN_CFG_R2 u.r2
      let s := (s.p UN_CFG_BWITNESS (u.backup.getD 0)).pb UN_CFG_BWEN u.backup.isSome
      s.p UN_CFG_EN 1
    | none => s.p UN_CFG_EN 0
  ((List.range 4).foldl (fun (s : State) w => { s with regs := s.regs.wr (UN_WUNIT_UNIT w).reg (tabGet (fun _ => 0) s.cfg.wit w) }) s).chanGates

/-- The entry into Synchronising by row 8 or row 10 of R420: stored configurations written, rings enabled (R482). -/
def State.syncEntry (s : State) : State :=
  let s := s.writeUnit
  let s := if s.cfg.ring1.isSome then (s.loadRingCfg 0).enableRing 0 else s
  if s.cfg.ring2.isSome then (s.loadRingCfg 1).enableRing 1 else s

/-! ### Entries into modes -/

/-- The conditions of row 8 of R420. -/
def State.mayOperate (s : State) : Bool :=
  s.g LC_STATE_LCS == 2 && s.app.state != .notLoaded && s.keys.safe.isSome && s.g SF_SEAL_STATE == 0

/-- A mode entered with what belongs to its entry: rings off in Commissioning (R471), the application stopped in Commissioning and
Update (R113), a build that can start (R516). -/
def State.enterMode (s : State) (m row : Nat) : State :=
  let s := s.setMode m row
  let s := if m == mCommissioning || m == mUpdate then s.appStop else s
  let s := if m == mCommissioning then (s.disableRing 0).disableRing 1 else s
  s.buildStart false

/-- The mode of a ready module at T (R420 rows 12 to 14, R421): after a start `LC_BOOTMS` takes the time since Boot; a trial is committed. -/
def State.readyMode (s : State) : State :=
  let s := if s.app.startByReady then s.p LC_BOOTMS_MS (min 65535 (s.tu.upNs / 1000000)) else s
  let s := { s with app := { s.app with modeAt := none, startByReady := false } }
  let s := if !s.on UN_CFG_EN then (s.enterMode mActive 12).ungate
    else if s.holderThere && s.pairUp then s.returnStandby 13
    else
      let s := s.enterMode mIsolated 14
      { s with un := { s.un with isoUnit := true } }
  s.trialCommit

/-- The first macrocycle boundary after now, or whole millisecond: the same instants of global time (R421). -/
def State.nextMs (s : State) : Nat := (s.now / 1000000 + 1) * 1000000

/-- At T the module leaves Synchronising, once its application runs (R421). [DEDUCED: log 50] -/
def State.modeTick (s : State) : State :=
  match s.app.modeAt with
  | some t => if t ≤ s.now && s.running && s.mode == mSynchronising then s.readyMode else s
  | none => s

/-! ### Parked (R428 to R430) -/

/-- The response of a command that ended well, with its record (R468). -/
def State.answerOk (s : State) (chans : List Chan) (hdr payload : List Byte) : State :=
  let s := s.respond (chans.map (·.val)) hdr payload stOk []
  s.cmdRecord ((chans.map (·.val)).headD 0) hdr payload stOk

/-- A wake trigger in Parked (R429, R420 rows 15 and 16): `src` goes to `WAKESRC`. -/
def State.wake (s : State) (src : Nat) : State :=
  if s.app.waking then s
  else
    let s := s.p LC_PARKSTAT_WAKESRC src
    let kept := s.liveLanes.filter (fun l => !(s.lane l).retentionLost)
    let s := s.pb LC_PARKSTAT_LOST (kept.length != s.liveLanes.length)
    if kept.length < 2 then s.moduleReset 3 0 15
    else { s with app := { s.app with waking := true } }

/-- Parked: the application Held, the lanes in retention, drives Off (R303, R428). A command that waits for it is answered;
a wake that came meanwhile begins (R430). [DEDUCED: log 38, 52] -/
def State.parkNow (s : State) (row : Nat) : State :=
  let s := match s.waiting with
    | some w => { s with waiting := some { w with begun := true } }
    | none => s
  let s := if s.app.state == .running then { s with app := { s.app with state := .held } } else s
  let s := (s.drivesDisable.setMode mParked row).driveOutputs
  let s := ([0, 1, 2, 3].filter s.coresRun).foldl (fun (s : State) l => s.modLane l (fun x => { x with asleep := true, retentionLost := false })) s
  let s := ((s.p LC_PARKSTAT_PARKED 1).p LC_PARKSTAT_LOST 0)
  let s := { s with fc := { s.fc with parkedClass3 := false } }
  let s := match s.waiting with
    | some w => ({ s with waiting := none } : State).answerOk w.chans w.hdr w.payload
    | none => s
  match s.app.wakeNext with
  | some src => ({ s with app := { s.app with wakeNext := none } } : State).wake src
  | none => s

/-- The mode that follows a wake once every lane runs (R420 row 16, R429): lanes whose contents were lost are excluded with cause 0xB, a
module reset where fewer than two are left (R173). [DEDUCED: log 51] -/
def State.wakeDone (s : State) : State :=
  let lost := s.liveLanes.filter (fun l => (s.lane l).retentionLost)
  let s := s.pb LC_PARKSTAT_LOST (!lost.isEmpty)
  if s.liveLanes.length < lost.length + 2 then s.moduleReset 3 0 15 else
  let iso := s.fc.parkedClass3 || s.on LC_MODE_FISO
  let s := { s with app := { s.app with waking := false } }
  let s := s.p LC_PARKSTAT_PARKED 0
  let s := s.enterMode (if iso then mIsolated else mSynchronising) 16
  let s := lost.foldl (fun (s : State) l => s.take { cls := 1, src := 0x04 + l, code := 5, ex := some { lane := l, cause := 0xB } }) s
  let chans := s.app.wakeChans
  let hdr := s.app.wakeHdr
  let s := { s with app := { s.app with wakeChans := [], wakeHdr := [] } }
  if chans.isEmpty then s else s.answerOk chans hdr (leBytes 4 mSynchronising)

/-- A lane runs again (R172); after the last one the resume point is known (R429). [DEDUCED: log 49, 51] -/
def State.laneWoken (s : State) (l : Nat) : State :=
  let s := s.modLane l (fun x => { x with asleep := false, shadow := {} })
  if [0, 1, 2, 3].any (fun k => (s.lane k).asleep) then s
  else { s with app := { s.app with resumeAt := some ((s.now + 1999999) / 1000000 * 1000000) } }

/-- The wake ends once every lane runs and its counter has been disciplined for 16 pulses (R429). [DEDUCED: log 51] -/
def State.wakeTick (s : State) : State :=
  if s.app.waking && [0, 1, 2, 3].all (fun k => !(s.lane k).asleep) && s.liveLanes.all (fun l => decide (16 ≤ (s.lane l).shadow.good)) then s.wakeDone
  else s

/-- A change point under way is complete (R114, R123): the application runs again, and the command is answered. -/
def State.changeTick (s : State) : State :=
  match s.app.changeEnd with
  | some e =>
    if s.now < e then s
    else
      let s : State := { s with app := { s.app with changeEnd := none, state := if s.app.state == AppState.changing then AppState.running else s.app.state } }
      match s.waiting with
      | some w => if w.begun && w.code == 0x0208 then ({ s with waiting := none } : State).answerOk w.chans w.hdr w.payload else s
      | none => s
  | none => s

/-- A start of the Keeper's own in Synchronising has failed (R421): the application stops, class 3. -/
def State.startFailed (s : State) : State :=
  let s := s.appStop
  let s := { s.p LC_NEXT_KIND 0 with app := { s.app with startByReady := false } }
  s.report 0x16 3 5

/-- The held application resumes (R429): each task at its first grid point at or after the resume point, the points passed counted as
skipped (R100). [DEDUCED: log 52] -/
def State.resume (s : State) (t : Nat) : State :=
  let s := { s with app := { s.app with state := .running, resumeAt := none } }
  let s := (List.range 16).foldl (fun (s : State) k =>
    let p := (s.desc k).periodNs
    if p == 0 then s
    else s.modTask k (fun x =>
      let n := if x.next < t then (t - x.next + p - 1) / p else 0
      { x with next := x.next + n * p, skipped := if (s.desc k).kind == 3 then x.skipped else min (x.skipped + n) 0xFFFFFFFF, skipFlag := true })) s
  s.drivesEnable

end Sys2Proof.Machine
end

