-- ==== Sys2Proof/Machine/LaneLife.lean ====
section
/-! DEFINITION. The life of a lane (R62 to R68): the spare, resets, self-tests, resynchronisation; quiet gaps (R65, R123, R428); the
start of the application up to its anchor (R95, R114, R421). -/

namespace Sys2Proof.Machine

/-! ### Entering Voting or Spare (R31, R63, R145) -/

/-- The first cycle boundary at or after an instant (R31). -/
def nextBoundary (t : Nat) : Nat := (t + 19999) / 20000 * 20000

/-- A lane enters Voting or Spare at a cycle boundary (R31): its cycles count from there on; while a gap is sought it opens no context
(R145). -/
def State.joins (s : State) (l : Nat) : State :=
  let s := s.modLane l (fun x => { x with countsNow := false, joinAt := nextBoundary s.now, joinedUp := s.tu.upNs })
  if s.gapSought then s.p (RA_CTRL_INHIBIT l) 1 else s

/-! ### The spare (R67, R68) -/

/-- A write of `VX_CTRL.SPAREEN` (R12, R68, R72). -/
def State.writeSpare (s : State) (on : Bool) : State :=
  if s.variant == .zm60 && on then s.notice 0x10 0x0003 0 (s.word VX_CTRL_SPAREEN)
  else if !(rwmModes 0x40000000).contains s.mode then s.notice 0x22 0x0001 0 (s.word VX_CTRL_SPAREEN)
  else s.setSpare on

/-- `SPARE_ENABLE`: `SPAREEN` written to 1 (R68). -/
def execSpareEnable (s : State) : Res := .next (s.writeSpare true)

/-- `SPARE_DISABLE`: `SPAREEN` written to 0 (R68). -/
def execSpareDisable (s : State) : Res := .next (s.writeSpare false)

/-- `SPARE_PROMOTION`: at the cycle boundary after a Voting lane's exclusion the spare becomes Voting (R67). -/
def execSparePromotion (s : State) : Res :=
  match [0, 1, 2, 3].find? (fun l => s.laneSt l == laSpare) with
  | some l =>
    if s.votingLanes.length < 3 then
      .next (((s.setLaneSt l laVoting).joins l).openChan l true)
    else .next s
  | none => .next s

/-! ### Reset and self-test (R63) -/

/-- `LANE_RESET_COMPLETE`: a lane's reset and wipe are complete (R63): Preparing. [DESIGN CHOICE: log 9] -/
def execLaneResetComplete (l : Lane) (s : State) : Res :=
  let x := s.lane l.val
  if s.laneSt l.val == laResetting && !x.lwiping && !x.held then .next ((s.setLaneSt l.val laPreparing).setLink l.val {}) else .next s

/-- The application image copied from the source and hashed; where the hash is not the one in effect the image is built from flash, with a
notice (R64). -/
def State.copyImage (s : State) (j v : Nat) : State :=
  let code := s.app.pkg.code
  let got : Mem := code.map (fun e => (e.1, (s.lane v).mem.rd e.1))
  let ok := Config.sha256 (got.map (·.2)) == Config.sha256 (code.map (·.2))
  let s := s.modLane j (fun x => { x with mem := (if ok then got else code).foldl (fun (m : Mem) e => m.wr e.1 e.2) x.mem, written := pagesUnion x.written code })
  if ok then s else s.notice 0x10 0x0002 j 0

/-- A resynchronisation begins with its source (R64). [DEDUCED: log 49] -/
def State.beginCopy (s : State) (l : Nat) : State × List Follow :=
  match s.copySource.orElse (fun _ => s.votingLanes.head?) with
  | none =>
    s.failAttempt l
  | some v =>
    let s := s.copyImage l v
    let s := (s.p VX_RSYNC_JOINER l).p VX_RSYNC_SOURCE v
    let s := (s.p VX_RSYNC_ACTIVE 1).p VX_RSYNC_ROUND 1
    let s := s.p VX_RSYNCLEFT_KIB (4 * s.copyPages v)
    (s.modLane v (fun x => { x with pages := [] }), [])

/-- A lane enters Copying: its windows and output ranges are written and its digests are on (R64). -/
def State.startCopy (s : State) (l : Nat) : State × List Follow :=
  let s := ((s.setLaneSt l laCopying).laneConfig l).sdCtrl l 1
  if s.on VX_RSYNC_ACTIVE then (s, []) else s.beginCopy l

/-- The next lane in Copying takes its turn when a resynchronisation ends. [DEDUCED: log 49] -/
def State.nextJoiner (s : State) : State :=
  if s.on VX_RSYNC_ACTIVE then s
  else match [0, 1, 2, 3].find? (fun l => s.laneSt l == laCopying) with
  | some l =>
    let x := s.beginCopy l
    x.1.reports x.2
  | none => s

/-- `LANE_SELF_TEST_END`: a Preparing lane's self-test ends (R63). A lane whose counter failed waits for 1,000 good pulses (R30).
[DESIGN CHOICE: log 67] -/
def execLaneSelfTestEnd (l : Lane) (pass : Bool) (s : State) : Res :=
  let i := l.val
  let x := s.lane i
  if s.laneSt i != laPreparing then .next s
  else if !pass then .next (((s.setLaneSt i laOut).wipeLane i true).report 0x10 2 (0x700 + 16 * i))
  else if x.waitPulses && decide (x.shadow.good < 1000) then .next s
  else
    let s := (s.modLane i (fun x => { x with waitPulses := false, prepared := true })).allTests i
    if x.afterExcl || !s.votingLanes.isEmpty then
      let y := s.startCopy i
      .next (y.1.reports y.2)
    else .next s.laneRise

/-! ### Resynchronisation (R63 to R66) -/

/-- The byte ranges that a copy carries: every window and the output image. -/
def State.copyRanges (s : State) (l : Nat) : List (Nat × Nat) :=
  (outBase, outBase + 0x40000) :: (s.windows l).map (fun w => (w.1 * 4096, (w.1 + w.2) * 4096))

/-- The copied ranges of the joining lane as its source holds them; the stores fold into its digests (R64). [DESIGN CHOICE: log 22] -/
def State.copyMem (s : State) (j v : Nat) : State :=
  let rs := s.copyRanges v
  let inR (a : Nat) : Bool := rs.any (fun r => decide (r.1 ≤ a) && decide (a < r.2))
  let m := ((s.lane v).mem.filter (fun e => inR e.1)).foldl (fun (m : Mem) e => m.wr e.1 e.2) ((s.lane j).mem.filter (fun e => !inR e.1))
  let s := s.modLane j (fun x => { x with mem := m, written := pagesUnion x.written m })
  let d := (List.range 16).foldl (fun (d : Tab (BitVec 128)) t => tabSet (fun _ => 0) d t (s.scanDigest j t)) []
  s.modLane j (fun x => { x with digest := d })

/-- `COPY_ROUND_COMPLETE`: a copy round ends and the next one carries the pages dirtied in it, those that the source has tracked or more where
the command says so (R64). The Keeper looks for a quiet gap from here on (R145). [DESIGN CHOICE: log 22] -/
def execCopyRoundComplete (dirtied : Nat) (s : State) : Res :=
  if !s.on VX_RSYNC_ACTIVE then .next s
  else
    let v := s.g VX_RSYNC_SOURCE
    let s := s.copyMem (s.g VX_RSYNC_JOINER) v
    let s := (s.satAdd VX_RSYNC_ROUND 1).p VX_RSYNCLEFT_KIB (4 * max dirtied (s.lane v).pages.length)
    let s := s.modLane v (fun x => { x with pages := [] })
    .next (s.liveLanes.foldl (fun (s : State) l => s.p (RA_CTRL_INHIBIT l) 1) s)

/-- The joining lane holds the pair modes and entry points of its source (R82). -/
def State.samePairs (s : State) (j v : Nat) : State :=
  let s := [0, 1, 2, 3].foldl (fun (s : State) p => s.p (pairModeFld j p) (s.pairMode v p)) s
  let s := [1, 2, 3].foldl (fun (s : State) p => s.p (PX_ENTRY_ADDR j p) (s.g (PX_ENTRY_ADDR v p))) s
  s.p (PX_MODE_ARMED j) (s.g (PX_MODE_ARMED v))

/-- The final round (R65): the rest is copied, the places in the streams are taken over, and each task's digest must equal the
source's. [DESIGN CHOICE: log 53] -/
def State.finalRound (s : State) : State :=
  let j := s.g VX_RSYNC_JOINER
  let v := s.g VX_RSYNC_SOURCE
  let s := (s.copyMem j v).p VX_RSYNCLEFT_KIB 0
  let s := s.samePairs j v
  let x := s.lane v
  let s := s.modLane j (fun y => { y with
    dirty := [], runtimePos := x.runtimePos, runtimeWords := x.runtimeWords, inited := x.inited, snap := x.snap
    task := x.task.map (fun (e : Nat × LaneTask) => (e.1, { e.2 with phase := .submitted })) })
  if (List.range 16).all (fun t => (s.lane j).dig t == x.dig t) then s.modLane j (fun y => { y with finalOk := true, lastAgreed := true })
  else
    let y := s.failAttempt j
    (y.1.reports y.2).nextJoiner

/-- May a change point fall now: no lane in Copying or resetting for resynchronisation (R123)? [DEDUCED: log 49] -/
def State.noJoiner (s : State) : Bool :=
  [0, 1, 2, 3].all (fun l => s.laneSt l != laCopying && !((s.laneSt l == laResetting || s.laneSt l == laPreparing) && (s.lane l).afterExcl))

/-- What a waiting command finds in a quiet gap of `len` ns (R123, R428). A unit's holder parks at its lease end instead; without a
unit there is no lease. -/
def State.gapCommand (s : State) (len : Nat) : State :=
  match s.waiting with
  | none => s
  | some w =>
    if w.code == 0x0208 then
      match s.app.olcPkg with
      | some q =>
        if !w.begun && s.noJoiner && decide (q.convNs + 10000 ≤ len) && decide (w.since + 1000000 ≤ s.now) && s.app.state == .running then
          ({ s with waiting := some { w with begun := true } } : State).olcApply q
        else s
      | none => s
    else if w.code == 0x0104 then
      if s.mode != mActive then s.parkNow 18
      else if s.on UN_CFG_EN then s
      else s.gate.parkNow 17
    else s

/-- `QUIET_GAP`: no task on any Voting lane is in Execute, in speculation or awaiting a vote for `len` ns (R65): a final round, a
change point or an entry into Parked that waits for it takes it. The background task does not count and is held meanwhile. -/
def execQuietGap (len : Nat) (s : State) : Res :=
  if (List.range 16).all (fun t => (s.desc t).kind == 0 || (s.desc t).kind == 3 || s.taskQuiet t) then
    let fits := s.on VX_RSYNC_ACTIVE && !(s.lane (s.g VX_RSYNC_JOINER)).finalOk && s.laneSt (s.g VX_RSYNC_JOINER) == laCopying &&
      decide (s.g VX_RSYNCLEFT_KIB * 128 + 10000 ≤ len)
    let s := if fits then s.finalRound else s
    let s := s.gapCommand len
    .next s.uninhibit
  else .next s

/-- `RESYNC_COMPLETE`: the cycle boundary after a successful final round (R63): Voting, Spare or Absent. -/
def execResyncComplete (l : Lane) (s : State) : Res :=
  let i := l.val
  if s.laneSt i == laCopying && (s.lane i).finalOk then
    let s := ((s.p (VX_EXCL_FAILS i) 0).p VX_RSYNC_ACTIVE 0).modLane i (fun x => { x with finalOk := false, afterExcl := false, countsNow := false })
    let s := if s.votingLanes.length < 3 then (((s.setLaneSt i laVoting).joins i).openChan i true).backInService i
      else if s.on VX_CTRL_SPAREEN then (((s.setLaneSt i laSpare).joins i).openChan i false).backInService i
      else (s.setLaneSt i laAbsent).wipeLane i true
    .next s.uninhibit.nextJoiner
  else .next s

/-- `RESYNC_TIMEOUT`: an attempt has lasted 2 s (R63). -/
def execResyncTimeout (l : Lane) (s : State) : Res :=
  if s.laneSt l.val == laCopying then
    let x := s.failAttempt l.val
    .next (x.1.reports x.2).nextJoiner
  else .next s

/-! ### The start of the application (R95, R114, R421) -/

/-- `LANE_INIT_COMPLETE`: a lane reports its initialisation complete; the anchor follows the last report (R95). -/
def execLaneInitComplete (l : Lane) (s : State) : Res :=
  if s.app.state == .starting && s.liveLanes.contains l.val then
    .next (s.modLane l.val (fun x => { x with inited := true })).fixAnchor
  else .next s

/-- `ANCHOR`: the anchor is reached and the application runs (R114); a command that waits for it is answered (R475), and a module that
leaves Synchronising does so now (R421). The kind set for a power-up's start is used up (R116). The runtime's
retained stores are applied before it (R156). [DEDUCED: log 50] -/
def execAnchor (s : State) : Res :=
  match s.app.anchor with
  | none => .next s
  | some a =>
    let s := State.retApplyN .runtime s.streams.length s
    if s.app.state == .starting && decide (a ≤ s.now) then
      let byReady := s.app.startByReady
      let chans := s.app.startChans
      let hdr := s.app.startHdr
      let s := { s with app := { s.app with state := .running, startChans := [], startHdr := [] } }
      let s := s.drivesEnable
      let s := if chans.isEmpty then s else s.answerOk chans hdr s.app.startPay
      if byReady then
        let s := if s.g LC_MODE_PREV == mUpdate then s else s.p LC_NEXT_KIND 0
        .next (if s.mode == mSynchronising then s.readyMode else s)
      else .next s
    else .next s

/-- `INIT_TIMEOUT`: a start in Synchronising has not been reported complete by every lane within 10 s: the application stops with
class 3 (R421). -/
def execInitTimeout (s : State) : Res :=
  if s.app.state == .starting && s.app.startByReady && s.app.anchor.isNone then .next s.startFailed else .next s

end Sys2Proof.Machine
end

