-- ==== Sys2Proof/Machine/Settings.lean ====
section
/-! DEFINITION. The stored settings (R519): the checks of each record's payload and what the Keeper writes from it, at its command and
again at boot (R436, R469, R480, R483, R486); the contents of flash and MRAM that a life-cycle change wipes (R433); the clear of the
event recorder (R503). -/

namespace Sys2Proof.Machine

/-- A register file with the writable fields of one register written, whatever the mode. -/
def Regs.put (r : Regs) (e : Nat × Word) : Regs :=
  match regFlds e.1 with
  | some fs => r.wr e.1 (mergeFlds true (r.rd e.1) e.2 fs)
  | none => r

/-- Registers written together if every one of them is then legal; else nothing. -/
def State.putAll (s : State) (ws : List (Nat × Word)) : Option State :=
  let r := ws.foldl Regs.put s.regs
  if ws.all (fun e => s.legal r e.1) then some { s with regs := r } else none

/-- Four little-endian bytes of a payload as a word. -/
def wordOf (p : List Byte) (i : Nat) : Word := BitVec.ofNat 32 (leAt p i 4)

/-- `TIME_CONFIG` (R480); the clock's role may change with it (R267). -/
def State.applyTime (s : State) (p : List Byte) : Option State :=
  if byteAt p 3 != 0 || byteAt p 7 != 0 then none
  else Option.map State.ptpChoose <| s.putAll ((0x50030004, wordOf p 0) :: (0x50030008, BitVec.ofNat 32 (leAt p 4 2)) :: (0x50000030, BitVec.ofNat 32 (byteAt p 6)) ::
    [0, 1, 2, 3].map (fun n => (0x50030048 + 16 * n, wordOf p (8 + 4 * n))))

/-- `ETH_CONFIG` (R483). -/
def State.applyEth (s : State) (p : List Byte) : Option State :=
  if byteAt p 29 != 0 || byteAt p 30 != 0 || byteAt p 31 != 0 || !within 8 30 (byteAt p 28) then none
  else s.putAll ((0x50030000, wordOf p 0) :: [0, 1, 2, 3, 4].map (fun n => (0x50030040 + 16 * n, wordOf p (4 + 4 * n))))

/-- `MOD_WAKECFG` (R469). -/
def State.applyWake (s : State) (p : List Byte) : Option State :=
  if byteAt p 2 != 0 || byteAt p 3 != 0 || byteAt p 0 > 16 || byteAt p 1 ≥ 4 then none
  else s.putAll [(0x40090024, wordOf p 4), (0x40090020, BitVec.ofNat 32 (byteAt p 0 + 32 * byteAt p 1))]

/-- `FIO_CONFIG` (R486): everything is checked before anything changes. [DEDUCED: log 54] -/
def State.applyFio (s : State) (p : List Byte) : Option State :=
  let fits := (List.range 16).all (fun i => byteAt p i != 0) && (List.range 12).all (fun i => byteAt p (16 + i) < 8 && byteAt p (16 + i) % 4 != 3) &&
    (List.range 4).all (fun i => byteAt p (28 + i) < 3) && decide (3 ≤ byteAt p 32) && leAt p 33 3 == 0 &&
    (List.range 6).all (fun i => leAt p (36 + 2 * i) 2 < 512 && leAt p (36 + 2 * i) 2 / 4 % 4 != 3 && s.modeFits (i + 1) (leAt p (36 + 2 * i) 2 % 4))
  if !fits then none
  else
    let s := (List.range 16).foldl (fun (s : State) i => s.setTop (i + 1) (byteAt p i)) s
    let s := (List.range 12).foldl (fun (s : State) i => (s.p (FD_HSOCFG_SAFE (i + 1)) (byteAt p (16 + i))).p (FD_HSOCFG_OWOFF (i + 1)) (byteAt p (16 + i) / 4)) s
    let s := (List.range 4).foldl (fun (s : State) i => s.p (FD_FPPCFG_SAFE (i + 1)) (byteAt p (28 + i))) s
    let s := s.p FD_SILCFG_N (byteAt p 32)
    let s := (List.range 6).foldl (fun (s : State) i =>
      let v := leAt p (36 + 2 * i) 2
      let n := i + 1
      let s := s.aioMode n (v % 4)
      let s := (s.p (AN_CFG_SAFE n) (v / 4)).p (AN_CFG_ALHIGH n) (v / 16)
      ((s.p (AN_CFG_CONV n) (v / 32)).p (AN_CFG_AVG n) (v / 64)).effAlarm n) s
    some ({ s with fd := { s.fd with configured := true } } : State).driveOutputs

/-- `TIME_CAPTURE` (R479): channel, source, edge and `EN`, node. -/
def capWord (p : List Byte) : Word :=
  BitVec.ofNat 32 (byteAt p 1 + 64 * (byteAt p 2 % 4) + 256 * byteAt p 3 + 0x10000 * (byteAt p 2 / 128))

/-- `TIME_CAPTURE` (R479, R480): a channel that the application maps, or an illegal value, is refused. -/
def State.applyCap (s : State) (p : List Byte) : Option State :=
  let n := byteAt p 0
  if n ≥ 16 || byteAt p 1 ≥ 64 || byteAt p 2 / 4 % 32 != 0 || !capCfgLegal (capWord p) || s.app.pkg.capMap.any (fun e => e.1 == n) then none
  else some (s.capConfig n (capWord p))

/-- The registers of a Keeper trigger channel from a `TIME_TRIGGER` payload (R480). [DEDUCED: log 54] -/
def State.applyTrig (s : State) (p : List Byte) : Option State :=
  let n := byteAt p 0
  if n ≥ 16 || s.on (TU_TRGCFG_APP n) || byteAt p 2 > 3 || byteAt p 3 > 1 || leAt p 6 2 != 0 || byteAt p 1 ≥ 64 then none
  else
    let w := byteAt p 1 + 64 * byteAt p 2 + 256 * leAt p 4 2 + 0x1000000 * byteAt p 3
    match s.putAll [((TU_TRGCFG_TGT n).reg, BitVec.ofNat 32 w), ((TU_TRGPER_NS n).reg, wordOf p 16)] with
    | none => none
    | some s' =>
      let later := s'.tu.trigLater.filter (fun e => e.1 != n)
      let t := leAt p 12 4 * 2 ^ 32 + leAt p 8 4
      if byteAt p 3 == 1 then some { s' with tu := { s'.tu with trigLater := (n, t) :: later } }
      else some (({ s' with tu := { s'.tu with trigLater := later, trigNext := tabSet (fun _ => none) s'.tu.trigNext n none } } : State).p (TU_TRGSTAT_ARMED n) 0)

/-- The Keeper arms a channel once its time is less than 1 s ahead (R480). -/
def State.trigTick (s : State) : State :=
  s.tu.trigLater.foldl (fun (s : State) e =>
    if e.2 < s.now + 1000000000 then
      let s : State := { s with tu := { s.tu with trigLater := s.tu.trigLater.filter (fun x => x != e) } }
      if s.now ≤ e.2 && s.on (TU_TRGCFG_EN e.1) then s.arm e.1 e.2 else s
    else s) s

/-- A settings record written (R519): its settings version is that of the running firmware. -/
def State.stamp (s : State) (key : Nat) : State :=
  { s with cfg := { s.cfg with vers := tabSet (fun _ => 0) s.cfg.vers key (s.g UP_SETVER_SETCUR) } }

/-- A record that is removed has no version. -/
def State.unstamp (s : State) (key : Nat) : State := { s with cfg := { s.cfg with vers := tabDel s.cfg.vers key } }

/-- The function of each drive (R306): SS1 when the accepted seal setting has S1 and the drive's own position set.
[DESIGN CHOICE: log 45] -/
def State.driveFuncs (s : State) : State :=
  let v := match s.sf.accepted with
    | some v => v.toNat
    | none => 0
  [1, 2].foldl (fun (s : State) d => s.pb (SF_DRVCFG_FUNC d) (bit v 0 && bit v d)) s

/-- Does `SF_CTRL.EN` refuse a 1 (R319): a field of an enabled pair, or of a drive whose `FUNC` is SS1, is illegal? -/
def State.sfIllegal (s : State) : Bool :=
  (List.range 8).any (fun k => s.on (SF_PAIRCFG_EN k) && !within 5 500 (s.g (SF_PAIRCFG_DT k))) ||
  [1, 2].any (fun n => s.on (SF_DRVCFG_FUNC n) &&
    [0x0C, 0x10, 0x14, 0x18, 0x1C, 0x20].any (fun o => !s.legalKeeper s.regs 0x4002 (0x40 * n + o)))

/-- Is a register, other than `SF_CTRL`, one that the safety configuration writes: has it RWM fields (R298, R319)? -/
def safeReg (a : Nat) : Bool :=
  (a / 0x10000 == 0x4001 || a / 0x10000 == 0x4002 && a % 0x10000 != 0) &&
  (match regFlds a with
    | some fs => fs.any (fun f => f.acc == .rwm)
    | none => false)

/-- The safety configuration's registers, keys and fail-safe values in the engine and the safety functions (R281, R298, R319): every
connection goes Off, the drives take their functions, and a 1 of `SF_CTRL.EN` is discarded while a field is illegal. -/
def State.loadSafe (s : State) : State :=
  match s.keys.safe with
  | none => s.driveFuncs
  | some k =>
    let s := s.scOff
    let s := { s with regs := k.words.foldl (fun (r : Regs) (e : Nat × Word) => if safeReg e.1 then Regs.put r e else r)
                        (s.regs.filter (fun (e : Nat × Word) => !safeReg e.1))
                      sc := { txKey := k.txKey, rxKey := k.rxKey, safeVal := k.safeVal, rx := [] } }
    let s := s.scStat.driveFuncs
    let en := k.g SF_CTRL_EN
    if en == 1 && s.sfIllegal then s.notice 0x17 0x0003 0 (s.word SF_CTRL_EN)
    else (s.p SF_CTRL_EN en).sfSwitched (s.on SF_CTRL_EN)

/-- A stored setting written into its block, where one is stored and is legal. -/
def State.restore (s : State) (f : State → List Byte → Option State) (o : Option (List Byte)) : State :=
  match o with
  | some p => (f s p).getD s
  | none => s

/-- The stored settings written into their blocks, at boot. [DEDUCED: log 54] -/
def State.loadSettings (s : State) : State :=
  let s := s.restore State.applyFio s.cfg.fio
  let s := s.restore State.applyTime s.cfg.time
  let s := s.restore State.applyEth s.cfg.eth
  let s := s.restore State.applyWake s.cfg.wake
  let s := s.cfg.cap.foldl (fun (s : State) e => s.capConfig e.1 e.2) s
  let s := s.cfg.trig.foldl (fun (s : State) e => (s.applyTrig e.2).getD s) s
  ({ s with fd := { s.fd with configured := true } } : State).driveOutputs

/-! ### Wipes (R433, R434, R504) -/

/-- Retained memory, user flash and user keys wiped; an update is abandoned (R433, R518). -/
def State.lcWipe (s : State) : State :=
  let s := (s.upDiscard.p UP_STAT_PHASE 0).p UP_TGTVER_VERSION 0
  { s with
    app := { s.app with stored := none, changes := [], olcPkg := none, olcHash := [], pkg := {}, hash := [], state := .notLoaded
                        stagedA := [], stagedLenA := 0, stagedB := [], stagedLenB := 0, stagedC := [], stagedLenC := 0
                        retMem := [], retSig := none, retCrc := [] }
    cfg := {}, keys := {}, sc := {}, up := { s.up with orig := none } }

/-- The tag area wiped. -/
def State.tagWipe (s : State) : State := { s with regs := s.regs.filter (fun e => !(decide (0x40090200 ≤ e.1) && decide (e.1 < 0x40090300))) }

/-- Event recorder and fault history wiped (R504). -/
def State.recordsWipe (s : State) : State :=
  let s := { s with ev := {}, fc := { s.fc with hist := [], firstEnt := [] } }
  let s := ((s.p EV_SUPPR_COUNT 0).p EV_STAT_FULL 0).p EV_STAT_QOVF 0
  let s := ((s.p FC_STAT_FROZEN 0).p FC_HPTR_HEAD 0).p FC_HPTR_FREEZE 0
  s.evRegs

/-- The recorder cleared (R503): record 0x1 takes the next sequence number. -/
def State.evClear (s : State) : State :=
  let old := leBytes 4 (s.g EV_FIRST_SEQ) ++ leBytes 4 (s.g EV_LAST_SEQ) ++ leBytes 4 (s.g EV_SUPPR_COUNT)
  let s := { s with ev := { s.ev with flash := [], staged := [], ovf := none } }
  let s := ((s.p EV_SUPPR_COUNT 0).p EV_STAT_FULL 0).p EV_STAT_CLRPEND 0
  s.stageRec { source := 0x0207, code := 1, cls := 0xFF, data := old }

end Sys2Proof.Machine
end

