-- ==== Sys2Proof/Machine/Boot.lean ====
section
/-! DEFINITION. Power and boot: power-on and the power-fail sequence (R424, R425), the choice of a firmware bank (R521), firmware images
(R507, R508), the settings of a bank on trial (R519), the build of a bank (R515, R517), Self-Test's end (R420). -/

namespace Sys2Proof.Machine

/-! ### Firmware images (R507, R508) -/

/-- A firmware bank. -/
def State.bank (s : State) (b : Nat) : List Byte := if b == 0 then s.up.bankA else s.up.bankB

/-- A firmware bank written. -/
def State.setBank (s : State) (b : Nat) (x : List Byte) : State :=
  if b == 0 then { s with up := { s.up with bankA := x } } else { s with up := { s.up with bankB := x } }

/-- The image that a bank begins with. -/
def imageOf (bank : List Byte) : List Byte := bank.take (leAt bank 4 4)

/-- The image hash (R507). -/
def imageHash (bank : List Byte) : List Byte := Config.sha256 (imageOf bank)

/-- The bytes of the factory area (R435). -/
def State.factory (s : State) : List Byte := (List.range 16).flatMap (fun k => leBytes 4 (s.g (LC_FACT_WORD k)))

/-- Does what an image or a manifest is bound to fit this module (R508)? The variant bits, the hardware revisions, the unit key. -/
def State.bindsTo (s : State) (varmask lo hi ukey : Nat) : Bool :=
  let f := s.factory
  bit varmask (match s.variant with
    | .zm60 => 0
    | .zm80 => 1) && within lo hi (byteAt f 17) && (ukey == 0 || ukey == leAt f 28 8)

/-- Does an image verify on this module (R508)? -/
def State.imageOk (s : State) (bank : List Byte) : Bool :=
  leAt bank 0 4 == 0x5A4D4657 && within 192 67108864 (leAt bank 4 4) && decide (leAt bank 4 4 ≤ bank.length) &&
  Config.signed Config.makerKey (imageOf bank) && s.bindsTo (byteAt bank 8) (byteAt bank 9) (byteAt bank 10) (leAt bank 28 8)

/-! ### The build of a bank (R515, R517) -/

/-- The operations of a delta package, run over the active image: the output, or nothing where the package is illegal (R515).
[DESIGN CHOICE: log 25] -/
def deltaRun (full : Bool) (img : List Byte) : Nat → List Byte → List Byte → Option (List Byte)
  | 0, _, _ => none
  | n + 1, out, pkg =>
    if pkg.length < 4 || leAt pkg 1 3 != 0 || out.length > 67108864 then none
    else match byteAt pkg 0 with
    | 0 => if (pkg.drop 4).all (fun b => b == 0) then some out else none
    | 1 =>
      let src := leAt pkg 4 4
      let len := leAt pkg 8 4
      if full || pkg.length < 12 || img.length < src + len then none
      else deltaRun full img n (out ++ (img.drop src).take len) (pkg.drop 12)
    | 2 =>
      let len := leAt pkg 4 4
      let pad := (len + 3) / 4 * 4
      if pkg.length < 8 + pad then none
      else deltaRun full img n (out ++ (pkg.drop 8).take len) (pkg.drop (8 + pad))
    | _ => none

/-- The number of table chunks (R512). -/
def tableChunks (chunks : Nat) : Nat := (chunks + 511) / 512

/-- The package bytes after the table chunks. [DESIGN CHOICE: log 25] -/
def State.deltaBytes (s : State) : List Byte :=
  (s.up.store.rdN 0 (leAt s.up.manifest 120 4)).drop (16384 * tableChunks (leAt s.up.manifest 124 2))

/-- A build that failed (R517). [DESIGN CHOICE: log 25] -/
def State.buildFailed (s : State) (why : Nat) : State :=
  let s := { s with up := { s.up with store := [], part := none, tableOk := false } }
  let s := (List.range 130).foldl (fun (s : State) k => s.p (UP_BITMAP_BITS k) 0) s
  ((s.p UP_CHUNKS_DONE 0).p UP_STAT_PHASE 6).upEvent 0x0006 (leBytes 1 why)

/-- `BUILD_COMPLETE`: the build of the inactive bank ends, in a mode that builds (R515 to R517). [DESIGN CHOICE: log 25] -/
def execBuildComplete (s : State) : Res :=
  if s.g UP_STAT_PHASE != 3 || !within mCommissioning mUpdate s.mode then .next s
  else
    let act := s.g UP_STAT_ACTBANK
    let m := s.up.manifest
    let pkg := s.deltaBytes
    match deltaRun (bit (byteAt m 6) 0) (imageOf (s.bank act)) (pkg.length + 1) [] pkg with
    | none => .next ((s.setBank (1 - act) []).buildFailed 1)
    | some out =>
      let s := (s.setBank (1 - act) out).p UP_BUILD_BYTES out.length
      if out.length ≤ 67108864 && imageHash out == (m.drop 56).take 32 && s.imageOk out then
        .next (((s.p UP_STAT_BUILT 1).p UP_STAT_PHASE 4).upEvent 0x0005 (leBytes 1 (1 - act)))
      else .next (s.buildFailed 2)

/-! ### Boot (R426, R427, R503, R519, R521) -/

/-- What the registers show of the image that boots (R524). -/
def State.runImage (s : State) : State :=
  let b := s.bank (s.g UP_STAT_ACTBANK)
  ((s.p UP_VERSION_VERSION (leAt b 16 4)).p UP_FLOOR_VERSION (leAt b 20 4)).p UP_SETVER_SETCUR (leAt b 24 2) |>.p UP_SETVER_SETMIN (leAt b 26 2)

/-- Both banks fail (R427): the boot ROM's class 4. A trial has fallen back before (R521), which no firmware runs to record. -/
def State.noBank (s : State) : State :=
  (if s.on UP_STAT_TRIAL then s.bankBack (if s.g UP_STAT_TRIES == 3 then 1 else 2) else s).report 0x29 4 2

/-- The bank that boots by the rows of R521; none when neither verifies. [DEDUCED: log 26] -/
def State.chooseBank (s : State) (okA okB : Bool) : Option State :=
  let ok (b : Nat) : Bool := if b == 0 then okA else okB
  let act := s.g UP_STAT_ACTBANK
  let fall (s : State) (why : Nat) : Option State :=
    let s := (s.p UP_VERSION_VERSION (leAt (s.bank act) 16 4)).upFallback why
    if ok (1 - act) then some s.runImage else none
  if s.on UP_STAT_TRIAL && s.g UP_STAT_TRIES == 3 then fall s 1
  else
    let s := if s.on UP_STAT_TRIAL then s.p UP_STAT_TRIES (s.g UP_STAT_TRIES + 1) else s
    if ok act then some s.runImage
    else if s.on UP_STAT_TRIAL then fall s 2
    else if ok (1 - act) then some ((s.p UP_STAT_ACTBANK (1 - act)).runImage.upEvent 0x000D (leBytes 1 act))
    else none

/-- The command group of a settings record by its key. [DEDUCED: log 54] -/
def setGroup (key : Nat) : Nat :=
  if key ≤ 2 then 5 else if key ≤ 7 then 9 else if key == 8 || 16 ≤ key then 4 else if key == 9 then 6 else if key == 10 then 8 else 1

/-- The data of a settings event (R523). -/
def setData (key old new : Nat) : List Byte := leBytes 1 (setGroup key) ++ leBytes 1 0 ++ leBytes 2 old ++ leBytes 2 new

/-- The records of a bank on trial (R519): migrated each with its event; none where one is rejected, which ends the trial.
[DEDUCED: log 54] -/
def State.migrate (s : State) : State × Bool :=
  let cur := s.g UP_SETVER_SETCUR
  let min := s.g UP_SETVER_SETMIN
  match s.cfg.vers.find? (fun e => e.2 < min || cur < e.2) with
  | some e => (s.upEvent 0x000B (setData e.1 e.2 cur), false)
  | none =>
    let old := s.cfg.vers.filter (fun e => e.2 != cur)
    let s : State := { s with up := { s.up with orig := some (s.up.orig.getD s.cfg) } }
    (old.foldl (fun (s : State) (e : Nat × Nat) => (s.stamp e.1).upEvent 0x000A (setData e.1 e.2 cur)) s, true)

/-- A life-cycle wipe that a power loss interrupted (R433, R434): what it wipes follows from the new state. [DEDUCED: log 37] -/
def State.finishWipe (s : State) : State :=
  if s.on LC_STATE_WIPEPEND then
    let lcs := s.g LC_STATE_LCS
    let s := s.lcWipe
    let s := if lcs == 3 then s else s.tagWipe
    let s := if lcs == 1 || lcs == 4 then s.recordsWipe else s
    s.p LC_STATE_WIPEPEND 0
  else s

/-- What the Keeper reads at boot (R33, R416). -/
def State.readStandby (s : State) (rtcOk : Bool) : State :=
  let s := if rtcOk then s else ({ s with sb := { s.sb with provisional := none } } : State).notice 0x1A 0x0006
  if s.sb.cellLow && s.g LC_RSTCAUSE_CAUSE == 0 then s.notice 0x23 0x0003 else s

/-- Boot with a verified bank, up to Self-Test (R420 row 6, R426). -/
def State.bootOn (s : State) (rtcOk : Bool) : State :=
  let s := s.finishWipe
  let s := if s.on EV_STAT_CLRPEND then s.evClear else s
  let m := if s.on UP_STAT_TRIAL then s.migrate else (s, true)
  let s := m.1
  if !m.2 then (s.upFallback 3).moduleReset 4 0 4
  else
    let s := s.readStandby rtcOk
    let s := s.loadSettings.loadSafe.placeStored
    s.evalSeal.setMode mSelfTest 6

/-- `BOOT_VERIFIED`: the boot ROM has checked both banks (R420 rows 5 and 6, R521). A Halt latch leads back to Safe-Halt. -/
def execBootVerified (okA okB rtcOk : Bool) (s : State) : Res :=
  if s.mode != mBoot then .next s
  else if s.on FC_STAT_HALT then .next (s.driveFuncs.enterSafeHalt 5)
  else match s.chooseBank okA okB with
    | some s => .next (s.bootOn rtcOk)
    | none => .next s.noBank

/-! ### Self-Test (R414, R420, R531) -/

/-- What the loopbacks of Self-Test hold at 0 in the health record (R531). [DEDUCED: log 99] -/
def holdBits (res : SelfTest) : Nat := (if res.loop0Ok then 0 else 4) + (if res.loop1Ok then 0 else 8) + (if res.fieldOk then 0 else 16)

/-- A page of retained memory, left open, no longer matches its check value (R158). [DESIGN CHOICE: log 119] -/
def State.retSpoil (s : State) : State :=
  let p := (Config.freeWord s.free).toNat % 4096
  { s with free := s.free + 1, app := { s.app with retCrc := tabSet (fun _ => zeroPageCrc) s.app.retCrc p ((pageCrc s.app.retMem p + 1) % 2 ^ 32) } }

/-- `SELF_TEST_END`: Self-Test ends (R420 rows 7 to 9). [DEDUCED: log 99] -/
def execSelfTestEnd (res : SelfTest) (s : State) : Res :=
  if s.mode != mSelfTest then .next s
  else
    let s : State := { s with un := { s.un with failHold := holdBits res } }
    let s := if res.retainedOk then s else s.retSpoil
    let s := if res.injectionOk then s else s.report 0x2A 3 2
    if s.mode != mSelfTest then .next s
    else if s.fc.class3 then .next ((s.p LC_MODE_FISO 1).enterMode mIsolated 7)
    else if s.mayOperate then .next ((s.enterMode mSynchronising 8).syncEntry)
    else .next (s.enterMode mCommissioning 9)

/-! ### Power (R424, R425, R496, R542 to R544, R554) -/

/-- What the loss of all power has done to the standby domain (R416, R554). -/
def State.standbyLoss (s : State) : State :=
  if s.sb.lost then
    let s : State := { s with sb := { s.sb with rtc := 0, rtcFrac := 0, rtcAcc := 0, rtcWritten := false, lost := false }
                              sf := { s.sf with tamper := true, tamperSec := 0xFFFFFFFF } }
    ((s.p FC_STAT_HALT 0).p SF_SEAL_TAMPER 1).p SF_TAMPERT_SEC 0xFFFFFFFF
  else s

/-- Is a supply input fitted (R543)? [DESIGN CHOICE: log 5, 93] -/
def State.fitted (s : State) : SupplyIn → Bool
  | .pwa => s.pw.codeA != 0 && s.pw.codeA != 7
  | .pwb => s.pw.codeB != 0 && s.pw.codeB != 7

/-- `POWER_ON`: a supply input at 0.7 Un for 10 ms starts the module (R420 row 3, R424); with neither input fitted it does not start (R543). -/
def execPowerOn (s : State) : Res :=
  if s.mode != mDormant || !(s.fitted .pwa || s.fitted .pwb) then .next s
  else
    let s := s.standbyLoss.resetDies 0 0
    let s := if s.g LC_STATE_LCS == 0 then s else s.satAdd LC_PWRCYC_COUNT 1
    let s := (s.p LC_OPMSLO_MS s.sb.opStored).p LC_OPMSHI_MS (s.sb.opStored / 2 ^ 32)
    let s := s.event 1 { source := 0x0201, code := mBoot * 256 + mDormant, cls := 0xFF, data := leBytes 1 3 }
    .next (s.recordEv { source := 0x0205, code := 1, cls := 0xFF, data := leBytes 1 0 })

/-- The operating time stored in MRAM (R496). [DESIGN CHOICE: log 55] -/
def State.storeOpTime (s : State) : State := { s with sb := { s.sb with opStored := s.opms } }

/-- `POWER_FAIL_WARNING`: the power-fail sequence (R420 row 2, R425): gated, recorded ahead of the change, Dormant; everything but
MRAM, flash and the standby domain is lost. [DESIGN CHOICE: log 34, 89] -/
def execPowerFailWarning (s : State) : Res :=
  if s.mode == mDormant then .next s
  else
    let s := s.gateFault.leaveLight
    let s := s.removeForces s.app.forces 1
    let s := s.recordEv { source := 0x0205, code := 3, cls := 0xFF, data := leBytes 1 (s.g LC_RSTCAUSE_CAUSE) }
    let s := s.event 1 { source := 0x0201, code := mDormant * 256 + s.mode, cls := 0xFF, data := leBytes 1 2 ++ leBytes 1 (s.g LC_MODE_LEVEL) }
    .next ((s.storeOpTime.resetDies 0 0).p LC_MODE_MODE mDormant)

/-- `RST_ASSERTED`: `RST#` low at 10 samples in a row (R542); ignored in Safe-Halt (R415). [DEDUCED: log 37] -/
def execRstAsserted (s : State) : Res :=
  if s.mode == mDormant || s.mode == mSafeHalt then .next s else .next (s.moduleReset 2 0 4)

/-- `HALT_LATCH_CLEAR`: both inputs absent for 1 s (R416). -/
def execHaltLatchClear (s : State) : Res :=
  if s.mode == mDormant then .next (s.p FC_STAT_HALT 0) else .next s

/-- `SUPPLY_BELOW_RANGE`: a fitted input has been below range for 1 ms (R544): one notice for each entry. [DESIGN CHOICE: log 35] -/
def execSupplyBelowRange (i : SupplyIn) (s : State) : Res :=
  if !s.fitted i || s.mode == mDormant then .next s
  else match i with
    | .pwa => .next (({ s with pw := { s.pw with belowA := true } } : State).notice 0x23 0x0001)
    | .pwb => .next (({ s with pw := { s.pw with belowB := true } } : State).notice 0x23 0x0002)

/-- `SUPPLY_OVERVOLTAGE`: an input is disconnected by its protection (R544). [DESIGN CHOICE: log 35] -/
def execSupplyOvervoltage (i : SupplyIn) (s : State) : Res :=
  if !s.fitted i then .next s
  else match i with
    | .pwa => .next { s with pw := { s.pw with discA := true } }
    | .pwb => .next { s with pw := { s.pw with discB := true } }

/-- `SUPPLY_RECONNECT`: 100 ms at or below 1.2 Un (R544). -/
def execSupplyReconnect (i : SupplyIn) (s : State) : Res :=
  match i with
  | .pwa => if s.pw.discA then .next { s with pw := { s.pw with discA := false, belowA := false } } else .next s
  | .pwb => if s.pw.discB then .next { s with pw := { s.pw with discB := false, belowB := false } } else .next s

/-- `OPERATING_TIME_STORE`: every 10 s (R496). [DESIGN CHOICE: log 55] -/
def execOperatingTimeStore (s : State) : Res := if s.mode == mDormant then .next s else .next s.storeOpTime

/-- `STAGING_DRAIN`: staged records move to flash in order; the newest stays (R499). [DESIGN CHOICE: log 89] -/
def execStagingDrain (n : Nat) (s : State) : Res :=
  if s.mode == mDormant then .next s
  else
    let k := min n (s.ev.staged.length - 1)
    let s : State := { s with ev := { s.ev with flash := s.ev.flash ++ s.ev.staged.take k, staged := s.ev.staged.drop k } }
    .next s.evRegs

/-- `STANDBY_DOMAIN_POWER_LOSS`: an unpowered module's backup cell is gone (R554): the RTC stops until the next power-up. -/
def execStandbyDomainPowerLoss (s : State) : Res :=
  if s.mode == mDormant then .next { s with sb := { s.sb with lost := true, cellLow := true } } else .next s

/-- `TRIAL_TIMEOUT`: no commit within 600 s of the reset (R522). -/
def execTrialTimeout (s : State) : Res :=
  if s.on UP_STAT_TRIAL && s.mode != mDormant && s.mode != mSafeHalt then .next ((s.upFallback 5).moduleReset 4 0 4) else .next s

end Sys2Proof.Machine
end

