-- ==== Sys2Proof/Machine/Modes.lean ====
section
/-! DEFINITION. The rows of the modes (R386, R396, R421, R428 to R430), the background loopback taps (R530), debug (R534, R535, R538),
the front lamps (R539). -/

namespace Sys2Proof.Machine

/-! ### Synchronising and Parked -/

/-- Is a Synchronising module ready (R421)? -/
def State.isReady (s : State) : Bool :=
  s.sync && [0, 1].all (fun r => !s.ringConf r || (s.ring r).off || s.g (BZ_JOIN_PHASE r) == 4)

/-- `READY`: a Synchronising module becomes ready (R421): the application starts, or the time T of its mode is set. From Update the
start takes the configuration's restart kind (R420 row 24); an application whose check at boot failed does not start (R125, R421).
[DESIGN CHOICE: log 9] -/
def execReady (s : State) : Res :=
  if s.mode != mSynchronising || !s.isReady then .next s
  else match s.app.state with
    | .stopped =>
      let t := ({ s with app := { s.app with startByReady := true } } : State).startApp (if s.g LC_MODE_PREV == mUpdate then 0 else s.g LC_NEXT_KIND)
      .next (if s.app.badImage then t.startFailed else t)
    | .running | .changing => .next { s with app := { s.app with modeAt := some s.nextMs } }
    | .held => .next { s with app := { s.app with modeAt := some (max s.nextMs (s.app.resumeAt.getD 0)) } }
    | .notLoaded | .starting => .next s

/-- `SYNCHRONISING_LONG`: 60 s in Synchronising (R421). -/
def execSynchronisingLong (s : State) : Res :=
  if s.mode == mSynchronising then .next (s.notice 0x16 0x0006 0 (s.word LC_MODE_MODE)) else .next s

/-- Is a wake source enabled (R429)? -/
def State.wakeArmed (s : State) : WakeSrc → Bool
  | .di => s.g LC_WAKE_WAKEDI != 0
  | .rtc => s.on LC_WAKE_RTCEN

/-- The code of a wake source in `LC_PARKSTAT`. -/
def wakeCode : WakeSrc → Nat
  | .di => 1
  | .rtc => 2

/-- Is the module on its way into Parked (R430)? -/
def State.parking (s : State) : Bool :=
  match s.waiting with
  | some w => w.code == 0x0104
  | none => false

/-- `WAKE_TRIGGER`: the wake input's transition or the RTC alarm (R429). One that meets an entry into Parked acts after it (R430). -/
def execWakeTrigger (w : WakeSrc) (s : State) : Res :=
  if !s.wakeArmed w then .next s
  else if s.mode == mParked then .next (s.wake (wakeCode w))
  else if s.parking then .next { s with app := { s.app with wakeNext := some (wakeCode w) } }
  else .next s

/-- `LANE_WAKE_COMPLETE`: the lane whose turn it is runs again (R172). -/
def execLaneWakeComplete (l : Lane) (s : State) : Res :=
  if s.app.waking && [0, 1, 2, 3].find? (fun k => (s.lane k).asleep) == some l.val then .next (s.laneWoken l.val) else .next s

/-- `RESUME_POINT`: the Held application resumes (R429). -/
def execResumePoint (s : State) : Res :=
  match s.app.resumeAt with
  | some t => if s.app.state == .held && !s.app.waking && decide (t ≤ s.now) then .next (s.resume t) else .next s
  | none => .next s

/-- `LEASE_END`: the holder reaches its lease end L (R380, R386, R397, R420 row 17): from 0.5 µs before it the outputs are gated; at L it goes
to Isolated, or where a handover or a park ends the lease, there, with its own last act time. [DEDUCED: log 84] -/
def execLeaseEnd (s : State) : Res :=
  match s.un.lease with
  | none => .next s
  | some l =>
    if s.mode != mActive || s.now + 500 < l then .next s
    else if s.now < l then .next s.gate
    else
      let dest := s.un.leaveTo
      let s := s.gate.leaveLight
      match dest with
      | some 6 =>
        let s := s.setMode mHotStandby 0x1F
        .next (s.event 5 { source := 0x0204, code := 2, cls := 0xFF, data := leBytes 4 s.un.lseq ++ leBytes 4 (s.un.lastAct % 2 ^ 32) })
      | some 10 => .next (s.parkNow 17)
      | _ =>
        let s := s.setMode mIsolated 0x1F
        let s := { s with un := { s.un with isoUnit := true } }
        .next (s.notice 0x21 0x0001 0 (s.word UN_STAT_HOLD))

/-- A lane's memory with the holder's windows, and the digests that it gives (R396). -/
def State.laneCopy (s : State) (cells : List (Nat × Byte)) (l : Nat) : State :=
  let m := cells.foldl (fun (m : Mem) e => m.wr e.1 e.2) (s.lane l).mem
  let s := s.modLane l (fun x => { x with mem := m, written := pagesUnion x.written m })
  let d := (List.range 16).foldl (fun (d : Tab (BitVec 128)) t => tabSet (fun _ => 0) d t (s.scanDigest l t)) []
  s.modLane l (fun x => { x with digest := d })

/-- What the holder's copy replaces (R396): the windows in every lane, retained memory, the anchor and the grid, the receive connections, the
images of the current cycles. -/
def State.takeCopy (s : State) (u : UnitCopy) : State :=
  let s := s.liveLanes.foldl (fun (s : State) l => s.laneCopy u.windows l) s
  let ret := u.retained.foldl (fun (m : Mem) e => m.wr e.1 e.2) s.app.retMem
  let s : State := { s with app := { s.app with retMem := ret, retCrc := crcTable ret, anchor := some u.anchor }
                            sc := { s.sc with rx := u.rx.foldl (fun r e => tabSet (fun _ => {}) r e.1 { (tabGet (fun _ => {}) r e.1 : RxSt) with
                              accepted := true, sLast := e.2.1, out := e.2.2.1, outT := e.2.2.2 }) s.sc.rx } }
  let s := u.next.foldl (fun (s : State) e => s.modTask e.1.val (fun x => { x with next := e.2 })) s
  u.images.foldl (fun (s : State) e => s.modTask e.1.val (fun x => { x with img := e.2.foldl (fun (m : Mem) c => m.wr c.1 c.2) x.img })) s

/-- Does every lane in service hold the holder's digests (R396)? -/
def State.sameDigests (s : State) (u : UnitCopy) : Bool := s.liveLanes.all (fun l => u.digests.all (fun e => (s.lane l).dig e.1.val == e.2))

/-- `UNIT_RESYNC_COMPLETE`: the last round of a returning module's copy ends (R396): where every digest equals the holder's at the cycle
boundary, `CHECKS`[6] is set; else the copy goes on. What the holder's memories hold is a free value. [DESIGN CHOICE: log 53] -/
def execUnitResyncComplete (s : State) : Res :=
  if s.mode == mHotStandby && s.un.resyncing then
    let copy := Config.unitCopy s.free
    let s := ({ s with free := s.free + 1 } : State).takeCopy copy
    if !s.sameDigests copy then .next s else
    let s := { s with un := { s.un with synced := true, resyncing := false } }
    let s := (s.p UN_STAT_RSYNC 0).p UN_HEALTH_CHECKS (s.g UN_HEALTH_CHECKS ||| 64)
    .next (s.p UN_HEALTH_ELIG s.elig)
  else .next s

/-! ### Loopback taps (R526, R530) -/

/-- The ports of R530 by their `PORT` codes; the serial lines have no depth 1. -/
def tapPorts (depth1 : Bool) : List Nat :=
  [0x01, 0x02, 0x03, 0x04, 0x05, 0x10, 0x11, 0x12, 0x13, 0x20, 0x21] ++ (if depth1 then [] else [0x30, 0x31])

/-- `TAP_MISMATCH`: a background tap finds a mismatch (R530): the health record's check of this macrocycle fails. -/
def execTapMismatch (port : Fin 256) (depth1 : Bool) (s : State) : Res :=
  if (s.mode == mSynchronising || s.mode == mActive || s.mode == mHotStandby || s.mode == mIsolated) && (tapPorts depth1).contains port.val then
    .next (s.failCheck (if depth1 then 3 else 2))
  else .next s

/-! ### Boundary scan and debug (R432, R534, R535, R538) -/

/-- A die's place in the chain. -/
def tapIdx : DieTap → Nat
  | .field => 0
  | .network => 1
  | .keeper => 2
  | .keeper2 => 3
  | .lane l => 4 + l.val

/-- Is the die fitted: the second Keeper die and lane D are the ZM80-E4's (R1, R534). -/
def State.dieFitted (s : State) (i : Nat) : Bool := s.variant == .zm80 || !(i == 3 || i == 7)

/-- The instruction in a die's register: IDCODE in Test-Logic-Reset (IEEE 1149.1). [PRESUMED: log 36] -/
def State.tapIns (s : State) (i : Nat) : Nat := tabGet (fun _ => 0x01) s.dbg.tap i

/-- The instruction that a loaded code selects (R432, R534). -/
def State.tapSelect (s : State) (code : Nat) : Nat :=
  if code == 0x01 then 0x01
  else if s.g LC_STATE_LCS == 4 then 0xFF
  else if code == 0x02 || code == 0x10 || code == 0x11 then (if s.on LC_STATE_DBGPERM then code else 0xFF)
  else if code == 0x00 || code == 0x04 || code == 0x05 then (if s.dbg.prod then code else 0xFF)
  else 0xFF

/-- `TAP_INSTRUCTION_LOAD`: an instruction is shifted into a die's register (R534). Without a probe the TAPs stay in reset (R538). -/
def execTapInstructionLoad (d : DieTap) (code : Nat) (s : State) : Res :=
  let i := tapIdx d
  if !s.dbg.probe || s.mode == mDormant || !s.dieFitted i then .next s
  else
    let c := s.tapSelect (code % 256)
    let held := c == 0x00 || c == 0x04 || c == 0x05
    .next { s with dbg := { s.dbg with tap := tabSet (fun _ => 0x01) s.dbg.tap i c
                                       scanned := if held && !s.dbg.scanned.contains i then i :: s.dbg.scanned else s.dbg.scanned } }

/-- `DEBUG_HALT_REQUEST`: a halt request through the lane die's debug access port halts the core's pair (R534, R535). -/
def execDebugHaltRequest (l : Lane) (c : Core) (s : State) : Res :=
  if s.tapIns (4 + l.val) == 0x10 && s.on LC_STATE_DBGPERM && s.coresRun l.val then
    .next (s.modLane l.val (fun x => { x with halted := if x.halted.contains (c.val / 2) then x.halted else (c.val / 2) :: x.halted }))
  else .next s

/-- `PROBE_PRESENT_CHANGE`: `PRB#` changes (R538). Without a probe TRST# is low, so every TAP is in Test-Logic-Reset. -/
def execProbePresentChange (present : Bool) (s : State) : Res :=
  .next { s with dbg := { s.dbg with probe := present, tap := if present then s.dbg.tap else [] } }

/-! ### Front lamps (R539) -/

/-- What a lamp shows. -/
inductive Lamp where
  | dark | red | amber | green
  | red1Hz | amber1Hz | amber4Hz | green1Hz | greenFlash
  deriving DecidableEq, Repr

/-- The `PWR` lamp. An input coded 0b111 is taken as carrying voltage while it is not disconnected.
[DEDUCED: log 100; DESIGN CHOICE: log 93] -/
def State.lampPwr (s : State) : Lamp :=
  if s.mode == mDormant then .dark
  else if s.pw.codeA == 7 || s.pw.codeB == 7 then .red1Hz
  else if (s.fitted .pwa && (s.pw.belowA || s.pw.discA)) || (s.fitted .pwb && (s.pw.belowB || s.pw.discB)) then .amber
  else .green

/-- The `RUN` lamp. [DEDUCED: log 100] -/
def State.lampRun (s : State) : Lamp :=
  match s.mode with
  | 11 => .red
  | 5 => .green
  | 6 => .green1Hz
  | 7 => .amber
  | 1 | 2 | 4 => .amber1Hz
  | 3 | 8 | 9 => .amber4Hz
  | 10 => .greenFlash
  | _ => .dark

/-- The `FAULT` lamp. [DEDUCED: log 100] -/
def State.lampFault (s : State) : Lamp :=
  if s.mode == mDormant then .dark
  else if s.mode == mSafeHalt then .red
  else if s.on FC_STAT_PEND1 || s.on FC_STAT_PEND2 || s.on FC_STAT_PEND3 || s.on FC_STAT_FROZEN then .red1Hz
  else .dark

/-- The `FORCE` lamp (R120). [DEDUCED: log 100] -/
def State.lampForce (s : State) : Lamp := if s.forceActive && s.mode != mDormant then .amber else .dark

/-- The `SEAL` lamp. [DEDUCED: log 100] -/
def State.lampSeal (s : State) : Lamp := if s.mode != mDormant && s.g SF_SEAL_STATE != 0 then .red else .dark

/-- A front port's lamp, but for its flicker with traffic: link up, or the ring's controller joined. [DEDUCED: log 100] -/
def State.lampPort (s : State) (port : Nat) : Lamp :=
  let lit := s.mode != mDormant && (
    if within 1 5 port then s.on (EN_PORT_LINK (port - 1))
    else if within 0x10 0x13 port then s.g (BZ_JOIN_PHASE ((port - 0x10) / 2)) == 4
    else if port == 0x20 then s.on UN_STAT_PLK1
    else if port == 0x21 then s.on UN_STAT_PLK2
    else false)
  if lit then .green else .dark

end Sys2Proof.Machine
end

