-- ==== Sys2Proof/Machine/CmdA.lean ====
section
/-! DEFINITION. What the commands of the Module, Application, Force and Time groups do once they have passed checks 1 to 6 of R444
(R469 to R480): check 7 and the effect. -/

namespace Sys2Proof.Machine

/-- How a command's body ends: with `OK` and a response payload (`wrote`: something that R468 names has changed), with `OK` and a
module reset after the response, with another status, or later. -/
inductive CmdRes where
  | ok (s : State) (out : List Byte) (wrote : Bool)
  | okReset (s : State) (cause chan row : Nat)
  | no (s : State) (status : Nat)
  | later (s : State)

/-- A reading command's answer. -/
def CmdRes.read (s : State) (out : List Byte) : CmdRes := .ok s out false

/-- A command that is done with an empty response and has changed something. -/
def CmdRes.done (s : State) : CmdRes := .ok s [] true

/-- A command without effect. -/
def CmdRes.idle (s : State) : CmdRes := .ok s [] false

/-- What a body needs to know of its command: the channels to answer, the header, the payload. -/
structure CmdIn where
  chans : List Chan
  hdr : List Byte
  p : List Byte
  deriving DecidableEq, Repr

/-- The channel a command counts as coming from: the lowest that posted it. -/
def CmdIn.chan (i : CmdIn) : Nat := (i.chans.map (·.val)).headD 0

/-- Are bytes `[lo, hi)` of a payload all 0 (R466)? -/
def zeros (p : List Byte) (lo hi : Nat) : Bool := ((p.drop lo).take (hi - lo)).all (fun b => b == 0)

/-- The code of an application state (R470). -/
def AppState.code : AppState → Nat
  | .notLoaded => 0
  | .stopped => 1
  | .starting => 2
  | .running => 3
  | .changing => 4
  | .held => 5

/-- Does a command wait aside (R467)? -/
def State.busyWaiting (s : State) : Bool := s.waiting.isSome

/-- A command waits aside for its execution point. [DESIGN CHOICE: log 92] -/
def State.setAside (s : State) (code : Nat) (i : CmdIn) : State :=
  { s with waiting := some { code := code, chans := i.chans, hdr := i.hdr, payload := i.p, since := s.now } }

/-- The Keeper looks for a quiet gap (R145). [DEDUCED: log 48] -/
def State.inhibit (s : State) : State := s.liveLanes.foldl (fun (s : State) l => s.p (RA_CTRL_INHIBIT l) 1) s

/-! ### Module group (R469 to R471) -/

/-- `MOD_RESET` (0x0101): the response, then the reset (R424, R460). [DESIGN CHOICE: log 92] -/
def State.cmdModReset (s : State) (i : CmdIn) : CmdRes := .okReset s 1 i.chan 4

/-- `MOD_IDENTIFY` (0x0102). -/
def State.cmdModIdentify (s : State) (_i : CmdIn) : CmdRes :=
  .read s (s.factory ++ leBytes 2 2 ++ leBytes 1 (s.g UP_STAT_ACTBANK) ++ leBytes 1 s.mode ++ leBytes 1 (s.g LC_STATE_LCS) ++ leBytes 3 0)

/-- Is a `PEND` bit set? -/
def State.pending123 (s : State) : Bool := s.on FC_STAT_PEND1 || s.on FC_STAT_PEND2 || s.on FC_STAT_PEND3

/-- `MOD_STATUS` (0x0103). -/
def State.cmdModStatus (s : State) (_i : CmdIn) : CmdRes :=
  let flags := (if s.holdsLight then 1 else 0) + 2 * s.g FC_STAT_FROZEN + (if s.pending123 then 4 else 0) + (if s.forceActive then 8 else 0)
  .read s (leBytes 1 s.mode ++ leBytes 1 (s.g LC_MODE_LEVEL) ++ leBytes 1 (s.g LC_STATE_LCS) ++ leBytes 1 s.app.state.code ++
    leBytes 2 (s.word VX_LANES_STA).toNat ++ leBytes 1 (s.g TU_STAT_SSTATE) ++ leBytes 1 flags ++ leBytes 1 (s.g LC_RSTCAUSE_CAUSE) ++
    leBytes 3 0 ++ leBytes 4 (s.g LC_PWRCYC_COUNT))

/-- `MOD_SETMODE` to Synchronising by rows 10, 16, 21 and 24 of R420. -/
def State.toSync (s : State) (i : CmdIn) : CmdRes :=
  if s.mode == mCommissioning then
    if s.mayOperate && !s.fc.class3 then .done ((s.enterMode mSynchronising 10).syncEntry) else .no s stVerifyFail
  else if s.mode == mMaintenance then
    if s.on LC_MODE_FISO then .no s stVerifyFail else .done (s.enterMode mSynchronising 21)
  else if s.mode == mUpdate then
    if s.on LC_MODE_FISO then .no s stVerifyFail else .done (s.enterMode mSynchronising 24)
  else .later (({ s with app := { s.app with wakeChans := i.chans, wakeHdr := i.hdr } } : State).wake 0)

/-- `MOD_SETMODE` to Parked by rows 17 and 18: a waiting command. A holder of a unit builds no further renewal. [DEDUCED: log 38] -/
def State.toParked (s : State) (i : CmdIn) : CmdRes :=
  if s.busyWaiting then .no s stResource
  else
    let s := s.setAside 0x0104 i
    .later (if s.mode == mActive && s.on UN_CFG_EN then
        { s with un := { s.un with noRenewal := true, leaveTo := some (s.un.leaveTo.getD mParked) } }
      else s)

/-- `MOD_SETMODE` (0x0104). [DEDUCED: log 43] -/
def State.cmdModSetmode (s : State) (i : CmdIn) : CmdRes :=
  let t := byteAt i.p 0
  if !(t == mCommissioning || t == mSynchronising || t == mMaintenance || t == mUpdate || t == mParked) || !zeros i.p 1 4 then .no s stBadParam
  else if t == s.mode then .idle s
  else if t == mCommissioning then .done (s.enterMode mCommissioning 22)
  else if t == mMaintenance then .done (s.enterMode mMaintenance 19)
  else if t == mUpdate then .done (s.enterMode mUpdate 20)
  else if t == mSynchronising then s.toSync i
  else s.toParked i

/-- The 256 bytes of the tag area (R436). -/
def State.tags (s : State) : List Byte := (List.range 64).flatMap (fun k => leBytes 4 (s.g (LC_TAG_WORD k)))

/-- One byte of the tag area written. -/
def State.putTag (s : State) (o : Nat) (b : Byte) : State :=
  { s with regs := s.regs.wr (LC_TAG_WORD (o / 4)).reg (putBits (s.word (LC_TAG_WORD (o / 4))) (8 * (o % 4)) 8 b.toNat) }

/-- `MOD_TAG_READ` (0x0105). -/
def State.cmdModTagRead (s : State) (i : CmdIn) : CmdRes :=
  let o := leAt i.p 0 2
  let n := leAt i.p 2 2
  if n == 0 || o + n > 256 then .no s stBadParam else .read s ((s.tags.drop o).take n)

/-- `MOD_TAG_WRITE` (0x0106). -/
def State.cmdModTagWrite (s : State) (i : CmdIn) : CmdRes :=
  let o := leAt i.p 0 2
  let d := i.p.drop 4
  if !zeros i.p 2 4 || o + d.length > 256 then .no s stBadParam
  else .done (d.zipIdx.foldl (fun (s : State) e => s.putTag (o + e.2) e.1) s)

/-- `MOD_WAKECFG` (0x0107): a setting of R519. -/
def State.cmdModWakecfg (s : State) (i : CmdIn) : CmdRes :=
  match s.applyWake i.p with
  | some s => .done (({ s with cfg := { s.cfg with wake := some i.p } } : State).stamp 11)
  | none => .no s stBadParam

/-! ### Application group (R472 to R477) -/

/-- The capacity of a staging area (R473). -/
def stageCap : Nat → Nat
  | 0 => 134217728
  | 1 => 33554432
  | _ => 1048576

/-- A staging area: content and length. -/
def State.staged (s : State) : Nat → Mem × Nat
  | 0 => (s.app.stagedA, s.app.stagedLenA)
  | 1 => (s.app.stagedB, s.app.stagedLenB)
  | _ => (s.app.stagedC, s.app.stagedLenC)

/-- A staging area written. -/
def State.setStaged (s : State) (a : Nat) (m : Mem) (n : Nat) : State :=
  match a with
  | 0 => { s with app := { s.app with stagedA := m, stagedLenA := n } }
  | 1 => { s with app := { s.app with stagedB := m, stagedLenB := n } }
  | _ => { s with app := { s.app with stagedC := m, stagedLenC := n } }

/-- `APP_STAGE` (0x0201). Staging changes nothing else in the module, so it writes no record. -/
def State.cmdAppStage (s : State) (i : CmdIn) : CmdRes :=
  let a := byteAt i.p 0
  let o := leAt i.p 4 4
  let d := i.p.drop 8
  if a > 2 || !zeros i.p 1 4 || o + d.length > stageCap a then .no s stBadParam
  else
    let x : Mem × Nat := if o == 0 then ([], 0) else s.staged a
    .idle (s.setStaged a (Mem.wrL x.1 o d) (max x.2 (o + d.length)))

/-- The bytes of a staged package of the size that a command gives; none for a size of 0 or beyond what is staged (R474). -/
def State.stagedPkg (s : State) (a size : Nat) : Option (List Byte) :=
  let x := s.staged a
  if size == 0 || size > x.2 then none else some (Mem.rdN x.1 0 size)

/-- Does a package verify against the installed key (R474)? -/
def State.pkgSigned (s : State) (b : List Byte) : Bool :=
  match s.keys.pkgKey with
  | some k => Config.signed k b
  | none => false

/-- `APP_LOAD` (0x0202). [DESIGN CHOICE: log 12] -/
def State.cmdAppLoad (s : State) (i : CmdIn) : CmdRes :=
  match s.stagedPkg 0 (leAt i.p 0 4) with
  | none => .no s stBadParam
  | some b =>
    if !s.pkgSigned b then .no s stVerifyFail
    else match Config.parseApp b with
      | none => .no s stBadParam
      | some p =>
        if s.appChecks p then
          .ok (({ s with app := { s.app with stored := some p, changes := [] } } : State).placeStored) (padTo 32 (Config.sha256 b)) true
        else .no s stBadParam

/-- Is a `KIND` payload legal (R472)? -/
def kindOk (p : List Byte) : Bool := byteAt p 0 ≤ 2 && zeros p 1 4

/-- A start that a command asked for: it is answered once the application runs (R475). [DEDUCED: log 39] -/
def State.startFor (s : State) (i : CmdIn) : State :=
  ({ s with app := { s.app with startChans := i.chans, startHdr := i.hdr, startPay := i.p, startByReady := false } } : State).startApp (byteAt i.p 0)

/-- `APP_START` (0x0203). A start that is already under way answers when it runs. [DEDUCED: log 39] -/
def State.cmdAppStart (s : State) (i : CmdIn) : CmdRes :=
  if !kindOk i.p then .no s stBadParam
  else match s.app.state with
    | .notLoaded => .no s stNotPresent
    | .stopped => .later (s.startFor i)
    | .starting => .later { s with app := { s.app with startChans := i.chans, startHdr := i.hdr, startPay := i.p } }
    | .running | .changing | .held => .idle s

/-- `APP_STOP` (0x0204). [DEDUCED: log 39] -/
def State.cmdAppStop (s : State) (_i : CmdIn) : CmdRes :=
  match s.app.state with
  | .notLoaded | .stopped => .idle s
  | .starting | .running | .changing | .held => .done s.abortWaiting.appStop

/-- `APP_RESTART` (0x0205). [DEDUCED: log 39] -/
def State.cmdAppRestart (s : State) (i : CmdIn) : CmdRes :=
  if !kindOk i.p then .no s stBadParam
  else match s.app.state with
    | .notLoaded => .no s stNotPresent
    | .stopped | .starting | .running | .changing | .held => .later (s.abortWaiting.appStop.startFor i)

/-- `APP_NEXTSTART` (0x0206). -/
def State.cmdAppNextstart (s : State) (i : CmdIn) : CmdRes :=
  if !kindOk i.p then .no s stBadParam
  else .ok (s.p LC_NEXT_KIND (byteAt i.p 0)) [] (s.g LC_NEXT_KIND != byteAt i.p 0)

/-- `APP_OLC_LOAD` (0x0207). -/
def State.cmdAppOlcLoad (s : State) (i : CmdIn) : CmdRes :=
  match s.stagedPkg 1 (leAt i.p 0 4) with
  | none => .no s stBadParam
  | some b =>
    if !s.pkgSigned b then .no s stVerifyFail
    else if s.app.state == .notLoaded then .no s stNotPresent
    else match Config.parseApp b with
      | none => .no s stBadParam
      | some q =>
        if s.app.pkg.keeps q && q.tasksOk && s.sharedChecks q then
          .ok { s with app := { s.app with olcPkg := some q, olcHash := padTo 32 (Config.sha256 b) } } (padTo 32 (Config.sha256 b)) true
        else .no s stBadParam

/-- `APP_OLC_APPLY` (0x0208): a waiting command. -/
def State.cmdAppOlcApply (s : State) (i : CmdIn) : CmdRes :=
  if s.app.olcPkg.isNone then .no s stNotPresent
  else if s.app.olcHash != i.p then .no s stVerifyFail
  else if s.busyWaiting then .no s stResource
  else .later (s.setAside 0x0208 i).inhibit

/-- Is a pair Split, or Joined, in the lowest Voting lane? -/
def State.pairNow (s : State) (p : Nat) : Nat := s.pairMode (s.votingLanes.headD 0) p

/-- `PAIR_SPLIT` (0x0209): a waiting command (R81). -/
def State.cmdPairSplit (s : State) (i : CmdIn) : CmdRes :=
  let p := byteAt i.p 0
  if p == 0 || p > 3 || !zeros i.p 1 4 then .no s stBadParam
  else if (List.range 16).any (fun t => (s.desc t).kind != 0 && (s.desc t).pair == p && (s.desc t).safety) then .no s stBadParam
  else if tabGet (fun _ => 0) s.app.pkg.entries p == 0 then .no s stBadParam
  else if s.pairNow p == 2 then .idle s
  else if s.busyWaiting then .no s stResource
  else .later (s.setAside 0x0209 i).inhibit

/-- `PAIR_JOIN` (0x020A): a waiting command (R81). -/
def State.cmdPairJoin (s : State) (i : CmdIn) : CmdRes :=
  let p := byteAt i.p 0
  if p == 0 || p > 3 || !zeros i.p 1 4 then .no s stBadParam
  else if s.pairNow p == 0 then .idle s
  else if s.busyWaiting then .no s stResource
  else .later (s.setAside 0x020A i).inhibit

/-- `APP_STATUS` (0x020B). -/
def State.cmdAppStatus (s : State) (_i : CmdIn) : CmdRes :=
  let a := if s.app.state == .running then s.app.anchor.getD 0 else 0
  .read s (leBytes 1 s.app.state.code ++ leBytes 1 s.app.startKind ++ leBytes 2 0 ++ leBytes 4 s.app.olcCount ++ leBytes 4 a ++
    leBytes 4 (a / 2 ^ 32) ++ padTo 32 s.app.hash)

/-! ### Force group (R118 to R121, R478) -/

/-- A symbol of the loaded application. -/
def State.symbol (s : State) (id : Nat) : Option Symbol := s.app.pkg.symbols.find? (fun y => y.id == id)

/-- The force on a symbol. -/
def State.forceOn (s : State) (id : Nat) : Option Force := s.app.forces.find? (fun f => f.id == id)

/-- `FORCE_SET` (0x0301): forces are held by rising identifier. [DEDUCED: log 40] -/
def State.cmdForceSet (s : State) (i : CmdIn) : CmdRes :=
  let id := leAt i.p 0 4
  let v := i.p.drop 8
  match s.symbol id with
  | none => .no s stBadParam
  | some y =>
    if y.safety || !(y.input || y.output) || !zeros i.p 4 8 || v.length != y.len then .no s stBadParam
    else match s.forceOn id with
      | some f =>
        if f.value == v then .idle s
        else
          let s := { s with app := { s.app with forces := s.app.forces.map (fun (g : Force) => if g.id == id then { g with value := v } else g) } }
          .done (s.recordEv { source := 0x0203, code := 2, cls := 0xFF, data := leBytes 4 id })
      | none =>
        if s.app.forces.length ≥ 256 then .no s stResource
        else
          let s := { s with app := { s.app with forces := insBy (fun (a b : Force) => decide (a.id ≤ b.id)) { id := id, value := v } s.app.forces } }
          let s := (s.markForce id).predValid
          .done (s.recordEv { source := 0x0203, code := 1, cls := 0xFF, data := leBytes 4 id })

/-- `FORCE_CLEAR` (0x0302). -/
def State.cmdForceClear (s : State) (i : CmdIn) : CmdRes :=
  let id := leAt i.p 0 4
  if (s.symbol id).isNone then .no s stBadParam
  else match s.forceOn id with
    | some f => .done (s.removeForces [f] 0)
    | none => .idle s

/-- `FORCE_CLEARALL` (0x0303). -/
def State.cmdForceClearall (s : State) (_i : CmdIn) : CmdRes :=
  if s.app.forces.isEmpty then .idle s else .done (s.removeForces s.app.forces 0)

/-- One entry of a force list. -/
def State.forceEntry (s : State) (f : Force) : List Byte :=
  let y := (s.symbol f.id).getD { id := 0, t := 0, input := false, output := false, safety := false, off := 0, len := 0, ty := 0 }
  leBytes 4 f.id ++ leBytes 2 f.value.length ++ leBytes 2 ((if y.input then 1 else 0) + (if y.output then 2 else 0))

/-- `FORCE_LIST` (0x0304). -/
def State.cmdForceList (s : State) (i : CmdIn) : CmdRes :=
  if !zeros i.p 2 4 then .no s stBadParam
  else
    let fs := (s.app.forces.drop (leAt i.p 0 2)).take 125
    .read s (leBytes 2 s.app.forces.length ++ leBytes 2 fs.length ++ fs.flatMap s.forceEntry)

/-! ### Time group (R479, R480) -/

/-- `TIME_CONFIG` (0x0401): a setting of R519. -/
def State.cmdTimeConfig (s : State) (i : CmdIn) : CmdRes :=
  match s.applyTime i.p with
  | some s => .done (({ s with cfg := { s.cfg with time := some i.p } } : State).stamp 8)
  | none => .no s stBadParam

/-- `TIME_TRIGGER` (0x0402): a setting of R519. A channel that is enabled needs a time still ahead. [DEDUCED: log 82] -/
def State.cmdTimeTrigger (s : State) (i : CmdIn) : CmdRes :=
  let n := byteAt i.p 0
  if byteAt i.p 3 == 1 && leAt i.p 12 4 * 2 ^ 32 + leAt i.p 8 4 < s.now then .no s stBadParam
  else match s.applyTrig i.p with
    | some s => .done ((({ s with cfg := { s.cfg with trig := tabIns s.cfg.trig n i.p } } : State).stamp (16 + n)).trigTick)
    | none => .no s stBadParam

/-- `TIME_CAPTURE` (0x0403): a setting of R519. -/
def State.cmdTimeCapture (s : State) (i : CmdIn) : CmdRes :=
  let n := byteAt i.p 0
  match s.applyCap i.p with
  | some s => .done (({ s with cfg := { s.cfg with cap := tabIns s.cfg.cap n (capWord i.p) } } : State).stamp (32 + n))
  | none => .no s stBadParam

/-- `TIME_STATUS` (0x0404): the Keeper takes one snapshot (R183). -/
def State.cmdTimeStatus (s : State) (_i : CmdIn) : CmdRes :=
  let s := s.snapshot
  let flags := s.g TU_STAT_SYNC + 2 * s.g EN_PTPSTAT_PRESENT + 4 * s.g EN_PTPSTAT_SETTLED + 8 * s.g (BZ_SYNCSTAT_PRESENT 0) + 16 * s.g (BZ_SYNCSTAT_PRESENT 1)
  .read s (leBytes 4 (s.g TU_SNAPNS_NS) ++ leBytes 4 (s.g TU_SNAPERA_ERA) ++ leBytes 1 (s.g TU_STAT_SSTATE) ++ leBytes 1 flags ++ leBytes 2 0 ++
    leBytes 4 (s.word TU_OFFSET_NS).toNat ++ leBytes 4 (s.word EN_PTPOFF_O).toNat ++ leBytes 4 (s.word EN_GMID0_ID).toNat ++
    leBytes 4 (s.word EN_GMID1_ID).toNat ++ leBytes 4 0)

end Sys2Proof.Machine
end

