-- ==== Sys2Proof/Machine/CmdB.lean ====
section
/-! DEFINITION. What the commands of the Ring, Ethernet, Safety configuration, Field I/O and Unit groups do (R481 to R487): check 7 and
the effect. -/

namespace Sys2Proof.Machine

/-- Four bytes of a register as a read shows it. -/
def State.regBytes (s : State) (f : Fld) : List Byte := leBytes 4 (s.regView f.reg).toNat

/-! ### Ring group (R481, R482) -/

/-- A ring number of a payload, 1 or 2, as an index. -/
def ringIdx (p : List Byte) : Option Nat := if byteAt p 0 == 1 then some 0 else if byteAt p 0 == 2 then some 1 else none

/-- A ring's stored configuration. -/
def State.ringCfg (s : State) (r : Nat) : Option RingCfg := if r == 0 then s.cfg.ring1 else s.cfg.ring2

/-- A ring's stored configuration replaced. -/
def State.setRingCfg (s : State) (r : Nat) (c : Option RingCfg) : State :=
  if r == 0 then { s with cfg := { s.cfg with ring1 := c } } else { s with cfg := { s.cfg with ring2 := c } }

/-- A staged entry. -/
def State.stagedEnt (s : State) (r e : Nat) : Word × Word := tabGet (fun _ => (0, 0)) (s.ring r).staged e

/-- `RING_SCHED` (0x0501): entries enter the staged table. Staging is no change of the configuration. [DEDUCED: log 40] -/
def State.cmdRingSched (s : State) (i : CmdIn) : CmdRes :=
  let first := leAt i.p 2 2
  let n := leAt i.p 4 2
  match ringIdx i.p with
  | none => .no s stBadParam
  | some r =>
    if !zeros i.p 1 2 || !within 1 125 n || !zeros i.p 6 8 || first + n > 4096 || i.p.length != 8 + 8 * n then .no s stBadParam
    else .idle (s.modRing r (fun x => { x with
      staged := (List.range n).foldl (fun (m : Tab (Word × Word)) k =>
        tabSet (fun _ => (0, 0)) m (first + k) (wordOf i.p (8 + 8 * k), wordOf i.p (12 + 8 * k))) x.staged }))

/-- Are a staged entry's fields legal (R229)? -/
def entLegal (w : Word × Word) : Bool := (getBits w.1 16 6 ≤ 49 || getBits w.1 16 6 == 63) && getBits w.1 22 2 != 3

/-- The outcome of the check of a ring's new configuration: `none` when it passes, else the rule of R227, 0 for an illegal field
value, and its entry. [DEDUCED: log 44] -/
def ringCheck (nent : Nat) (ctrl sync : Word) (ws : List (Word × Word)) : Option (Nat × Nat) :=
  let nodes := getBits ctrl 12 5
  let tm := getBits sync 0 3
  if ctrl &&& 0xFFFE00D1 != 0 || !within 2 16 nodes || sync &&& 0xFFFFFF00 != 0 || !(tm ≤ 3 || tm == 7) || !ws.all entLegal then
    some (0, 0)
  else schedCheck nodes (getBits ctrl 5 1 == 1) nent (ws.zipIdx.map (fun e => entOf e.2 e.1.1 e.1.2))

/-- `RING_COMMIT` (0x0502): a setting of R519. `NENT` 0 removes the ring. -/
def State.cmdRingCommit (s : State) (i : CmdIn) : CmdRes :=
  match ringIdx i.p with
  | none => .no s stBadParam
  | some r =>
    let nent := leAt i.p 2 2
    let ctrl := wordOf i.p 4
    let sync := wordOf i.p 8
    if !zeros i.p 1 2 then .no s stBadParam
    else if nent == 0 then
      if (s.ringCfg r).isNone then .ok s (leBytes 4 0) false
      else .ok ((s.setRingCfg r none).unstamp (r + 1)) (leBytes 4 0) true
    else
      let ws := (List.range (min nent 4097)).map (s.stagedEnt r)
      match ringCheck nent ctrl sync ws with
      | some (rule, e) => .no (s.modRing r (fun x => { x with chkRule := rule, chkEntry := e })) stBadParam
      | none =>
        let s := s.modRing r (fun x => { x with chkRule := 0, chkEntry := 0 })
        let id := schedId nent (getBits ctrl 12 5) (getBits ctrl 5 1) ws
        .ok ((s.setRingCfg r (some { nent := nent, ctrl := ctrl, sync := sync, entries := ws })).stamp (r + 1)) (leBytes 2 id ++ leBytes 2 0) true

/-- The schedule identifier of a ring's stored configuration; 0 without one. -/
def State.cfgSchedId (s : State) (r : Nat) : Nat :=
  match s.ringCfg r with
  | some c => schedId c.nent (getBits c.ctrl 12 5) (getBits c.ctrl 5 1) c.entries
  | none => 0

/-- `RING_STATUS` (0x0503). -/
def State.cmdRingStatus (s : State) (i : CmdIn) : CmdRes :=
  match ringIdx i.p with
  | none => .no s stBadParam
  | some r =>
    if !zeros i.p 1 4 then .no s stBadParam
    else .read s (s.regBytes (BZ_STAT_STATE r) ++ s.regBytes (BZ_JOIN_PHASE r) ++ s.regBytes (BZ_SYNCSTAT_PRESENT r) ++
      s.regBytes (BZ_FOLD_STATE r) ++ s.regBytes (BZ_MDELAY_NS r) ++ leBytes 2 (s.cfgSchedId r) ++ leBytes 1 (s.ring r).chkRule ++
      leBytes 1 0 ++ leBytes 2 (s.ring r).chkEntry ++ leBytes 6 0)

/-! ### Ethernet group (R483) -/

/-- `ETH_CONFIG` (0x0601): a setting of R519. -/
def State.cmdEthConfig (s : State) (i : CmdIn) : CmdRes :=
  match s.applyEth i.p with
  | some s => .done (({ s with cfg := { s.cfg with eth := some i.p } } : State).stamp 9)
  | none => .no s stBadParam

/-- `ETH_STATUS` (0x0602). -/
def State.cmdEthStatus (s : State) (_i : CmdIn) : CmdRes :=
  .read s (s.regBytes EN_PTPSTAT_PRESENT ++ [0, 1, 2, 3, 4].flatMap (fun n => s.regBytes (EN_PORT_LINK n)) ++
    s.regBytes EN_PDLATE_COUNT ++ s.regBytes EN_PDERR_COUNT)

/-! ### Safety configuration group (R281 to R283, R317, R484) -/

/-- The identifiers of a safety configuration's valid connections. -/
def SafePkg.connIds (k : SafePkg) : List Nat :=
  ((List.range 64).filter (fun t => k.g (SC_TXCFG_VALID t) == 1)).map (fun t => k.g (SC_TXID_CONNID t)) ++
  ((List.range 128).filter (fun r => k.g (SC_RXCFG_VALID r) == 1)).map (fun r => k.g (SC_RXID_CONNID r))

/-- No number twice. -/
def noRepeat : List Nat → Bool
  | [] => true
  | x :: xs => !xs.contains x && noRepeat xs

/-- R283 and the legal values of the `SC_` and `SF_` blocks. -/
def State.safeOk (s : State) (k : SafePkg) : Bool :=
  let r := k.words.foldl (fun (r : Regs) e => r.wr e.1 e.2) []
  k.words.all (fun e => (e.1 / 0x10000 == 0x4001 || e.1 / 0x10000 == 0x4002) && s.legal r e.1) && noRepeat k.connIds &&
  (s.app.state == .notLoaded || wdtOk k s.app.pkg)

/-- `SAFE_LOAD` (0x0701). [DESIGN CHOICE: log 12] -/
def State.cmdSafeLoad (s : State) (i : CmdIn) : CmdRes :=
  match s.stagedPkg 2 (leAt i.p 0 4) with
  | none => .no s stBadParam
  | some b =>
    if !s.pkgSigned b then .no s stVerifyFail
    else match Config.parseSafety b with
      | none => .no s stBadParam
      | some k =>
        if s.safeOk k then
          let h := padTo 32 (Config.sha256 b)
          .ok ({ s with keys := { s.keys with safe := some k, safeHash := h } } : State).loadSafe.evalSeal h true
        else .no s stBadParam

/-- The conditions of `SEAL_ACCEPT` (R313, R317): the reading that may be accepted, not older than 100 ms. -/
def State.sealReading (s : State) : Option Byte :=
  match s.sf.valid, s.keys.safe with
  | some v, some k => if s.tu.upNs < s.sf.validAt + 100000000 && s.on SF_SEAL_LOOP && v.toNat / 8 != 0 && v == k.sealSet then some v else none
  | _, _ => none

/-- `SEAL_ACCEPT` (0x0702). -/
def State.cmdSealAccept (s : State) (_i : CmdIn) : CmdRes :=
  match s.sealReading with
  | none => .no s stVerifyFail
  | some v =>
    let old := s.sf.accepted.getD 0
    let data := leBytes 1 old.toNat ++ leBytes 1 v.toNat ++ leBytes 1 (s.g SF_SEAL_STATE) ++ leBytes 1 (if s.sf.tamper then 1 else 0)
    let s := { s with sf := { s.sf with accepted := some v, accHash := s.keys.safeHash, tamper := false, tamperSec := 0 } }
    let s := ((s.p SF_SEAL_ACC v.toNat).p SF_SEAL_TAMPER 0).p SF_TAMPERT_SEC 0
    let s := s.driveFuncs.evalSeal.recordEv { source := 0x0208, code := 1, cls := 0xFF, data := data }
    .ok s (leBytes 1 old.toNat ++ leBytes 1 v.toNat ++ leBytes 2 0) true

/-- `SC_ACK` (0x0703): the acknowledgement acts at the next close of collection (R292). -/
def State.cmdScAck (s : State) (i : CmdIn) : CmdRes :=
  let rs := (List.range 128).filter (fun r => bit (byteAt i.p (r / 8)) (r % 8))
  if rs.any (fun r => !s.on (SC_RXCFG_VALID r)) then .no s stBadParam
  else .ok (rs.foldl (fun (s : State) r => s.modRx r (fun x => { x with ack := true })) s) [] (!rs.isEmpty)

/-- `SAFE_STATUS` (0x0704). -/
def State.cmdSafeStatus (s : State) (_i : CmdIn) : CmdRes :=
  .read s (padTo 32 s.keys.safeHash ++ s.regBytes SF_SEAL_STATE ++ s.regBytes SF_TAMPERT_SEC)

/-! ### Field I/O group (R336, R485, R486) -/

/-- `FIO_CONFIG` (0x0801): a setting of R519. -/
def State.cmdFioConfig (s : State) (i : CmdIn) : CmdRes :=
  match s.applyFio i.p with
  | some s => .done (({ s with cfg := { s.cfg with fio := some i.p } } : State).stamp 10)
  | none => .no s stBadParam

/-- Is any latch set that a release names? -/
def State.latchNamed (s : State) (v : Nat) : Bool :=
  (List.range 12).any (fun k => bit v (16 + k) && s.on (FD_HSOSTAT_LATCHED (k + 1))) ||
  (List.range 4).any (fun k => bit v (28 + k) && s.on (FD_FPPSTAT_LATCHED (k + 1))) || (bit v 0 && s.g FD_STAT_SUPPLY == 3)

/-- `FIO_RELEASE` (0x0802). Channel bits act even where `BANK` is refused (R336). [DEDUCED: log 40] -/
def State.cmdFioRelease (s : State) (i : CmdIn) : CmdRes :=
  let v := leAt i.p 0 4
  if v / 2 % 0x8000 != 0 then .no s stBadParam
  else
    let wrote := s.latchNamed v
    let refused := bit v 0 && !s.bankReleasable
    let s' := s.release (wordOf i.p 0)
    if refused then .no s' stVerifyFail else .ok s' [] wrote

/-- `FIO_STATUS` (0x0803). -/
def State.cmdFioStatus (s : State) (_i : CmdIn) : CmdRes :=
  .read s (s.outStatus { sil0 := s.fd.silEntries } ++ s.regBytes FD_DISTAT_FILT ++ leBytes 4 0)

/-! ### Unit group (R377, R397, R487) -/

/-- The entries of a stored ring configuration. -/
def RingCfg.ents (c : RingCfg) : List SchedEnt := c.entries.zipIdx.map (fun e => entOf e.2 e.1.1 e.1.2)

/-- What R377 asks of one Light ring: an own node that is none of the others', a long `LIGHT` entry for both modules, a `WATCH` entry
for each witness. -/
def lightRingOk (c : Option RingCfg) (partner : Nat) (wits : List Nat) : Bool :=
  match c with
  | none => false
  | some c =>
    let own := getBits c.ctrl 8 4
    partner != own && wits.all (fun w => w != own) &&
    [own, partner].all (fun n => c.ents.any (fun e => e.light && e.node == n)) &&
    c.ents.all (fun e => !e.light || 48 ≤ e.len) && wits.all (fun w => c.ents.any (fun e => e.watch && e.node == w))

/-- `UNIT_CONFIG` (0x0901): a setting of R519. `UNIT` 0 removes the unit. -/
def State.cmdUnitConfig (s : State) (i : CmdIn) : CmdRes :=
  let unit := leAt i.p 0 2
  let partner := byteAt i.p 2
  let witness := byteAt i.p 3
  let bw := byteAt i.p 4
  let rings := byteAt i.p 5
  if !zeros i.p 6 8 then .no s stBadParam
  else if unit == 0 then
    if s.cfg.unit.isNone then .idle s else .done (({ s with cfg := { s.cfg with unit := none } } : State).unstamp 3)
  else
    let wits := witness :: (if bw == 0xFF then [] else [bw])
    let ok := partner < 16 && wits.all (fun w => decide (w < 16)) && within 1 3 rings &&
      (!bit rings 0 || lightRingOk s.cfg.ring1 partner wits) && (!bit rings 1 || lightRingOk s.cfg.ring2 partner wits)
    if !ok then .no s stBadParam
    else .done (({ s with cfg := { s.cfg with unit := some {
        unit := unit, partner := partner, witness := witness, backup := if bw == 0xFF then none else some bw
        r1 := bit rings 0, r2 := bit rings 1 } } } : State).stamp 3)

/-- `UNIT_HANDOVER` (0x0902): no renewal from the next basic cycle, at whose start it is answered (R397). [DEDUCED: log 38] -/
def State.cmdUnitHandover (s : State) (i : CmdIn) : CmdRes :=
  match s.un.partner with
  | some h =>
    if bit h.elig 0 && s.on UN_CFG_EN then
      .later { s with un := { s.un with noRenewal := true, leaveTo := some (s.un.leaveTo.getD mHotStandby), answer := some (i.chans, i.hdr, i.p) } }
    else .no s stVerifyFail
  | none => .no s stVerifyFail

/-- The `UN_WUNITw` word of a witness entry. -/
def witWord (p : List Byte) : Word :=
  let w := putBits 0 (UN_WUNIT_UNIT 0).lo 16 (leAt p 2 2)
  let w := putBits w (UN_WUNIT_NODEA 0).lo 4 (byteAt p 4)
  let w := putBits w (UN_WUNIT_NODEB 0).lo 4 (byteAt p 5)
  let w := putBits w (UN_WUNIT_BACKUP 0).lo 1 (byteAt p 1 % 2)
  putBits w (UN_WUNIT_VALID 0).lo 1 (byteAt p 1 / 2)

/-- `UNIT_WITNESS` (0x0903): a setting of R519. -/
def State.cmdUnitWitness (s : State) (i : CmdIn) : CmdRes :=
  let w := byteAt i.p 0
  let ok := w < 4 && byteAt i.p 1 < 4 && !(bit (byteAt i.p 1) 1 && leAt i.p 2 2 == 0) && byteAt i.p 4 < 16 && byteAt i.p 5 < 16 && zeros i.p 6 8
  if !ok then .no s stBadParam
  else .done (({ s with cfg := { s.cfg with wit := tabSet (fun _ => 0) s.cfg.wit w (witWord i.p) } } : State).stamp (4 + w))

/-- `UNIT_STATUS` (0x0904). -/
def State.cmdUnitStatus (s : State) (_i : CmdIn) : CmdRes :=
  .read s (s.regBytes UN_STAT_HOLD ++ s.regBytes UN_LEASE_NS ++ s.regBytes UN_LSEQ_LSEQ ++ s.regBytes UN_VERDICT_VERDICT ++
    s.regBytes UN_HEALTH_CHECKS ++ s.regBytes UN_PHEALTH_CHECKS ++ s.regBytes UN_TAKEOVER_COUNT ++ s.regBytes UN_FWDLOST_COUNT)

end Sys2Proof.Machine
end

