-- ==== Sys2Proof/Machine/FaultRows.lean ====
section
/-! DEFINITION. Reports as they reach the fault collector (R404 to R407, R409) and forced reports (R413, R414). -/

namespace Sys2Proof.Machine

/-- A source's report as the collector takes it. A report of source 0x10 names its lane and cause in its code (R404). -/
def srcRep (src cls code : Nat) (data : List Byte) : Rep :=
  { cls := cls, src := src, code := code, data := some (padTo 16 data)
    ex := if src == 0x10 then some { lane := code / 16 % 4, cause := code % 16 } else none }

/-- May a source raise a class: reserved sources never report (R404)? -/
def srcRaises (src cls : Nat) : Bool := (srcClasses src).contains cls

/-- `FAULT_REPORT`: a pending report is latched and taken (R406, R409). A source whose path has failed is ignored (R407). -/
def execFaultReport (src : Src) (cls : Fin 5) (code : BitVec 16) (data : List Byte) (s : State) : Res :=
  if s.mode == mDormant || s.on (FC_SSTAT_PATHFAIL src.val) || !srcRaises src.val cls.val then .next s
  else .next (s.take (srcRep src.val cls.val code.toNat data))

/-- `REPORT_FETCH_TIMEOUT`: the report word cannot be fetched within 2 µs (R406). -/
def execReportFetchTimeout (src : Src) (s : State) : Res :=
  if s.mode == mDormant || s.on (FC_SSTAT_PATHFAIL src.val) || (srcClasses src.val).isEmpty then .next s
  else .next (s.report src.val (srcHighest src.val) 0xFFFF)

/-- `PATH_FAILURE`: a pair equal for more than 2 clocks (R407): class 2 with code 0xFFFE, `PATHFAIL`. -/
def execPathFailure (src : Src) (s : State) : Res :=
  if s.mode == mDormant || s.on (FC_SSTAT_PATHFAIL src.val) || (srcClasses src.val).isEmpty then .next s
  else .next ((((s.p (FC_SSTAT_PATHFAIL src.val) 1).p (FC_SSTAT_PATHOK src.val) 0).p FC_STAT_PATHFAIL 1).take
    { cls := 2, src := src.val, code := 0xFFFE, path := true })

/-- `PATH_POLL`: every 100 µs the Keeper reads the report word of a source whose path has failed (R407). -/
def execPathPoll (src : Src) (word : Option RepWord) (s : State) : Res :=
  match word with
  | none => .next s
  | some w =>
    if s.on (FC_SSTAT_PATHFAIL src.val) && srcRaises src.val w.cls.val then
      .next (s.take (srcRep src.val w.cls.val w.code.toNat w.data))
    else .next s

/-- A write of `FC_FORCEs` (R413, R418): ignored whole outside Maintenance and Self-Test; a reserved source and a class that the
source cannot raise are illegal. A pair whose path has failed is ignored. -/
def State.fcForce (s : State) (src : Nat) (v : Word) : State :=
  let a := 0x40050104 + 16 * src
  if !(rwmModes a).contains s.mode then s.notice 0x22 0x0001 0 (s.regs.rd a)
  else
    let cls := getBits v 1 3
    let code := getBits v 16 16
    if !srcRaises src cls then s.notice 0x22 0x0002 0 (s.regs.rd a)
    else
      let s := ((s.p (FC_FORCE_CLASS src) cls).p (FC_FORCE_PATH src) (getBits v 4 1)).p (FC_FORCE_CODE src) code
      if getBits v 0 1 == 0 || s.on (FC_SSTAT_PATHFAIL src) then s
      else if getBits v 4 1 == 1 then s.take { cls := 2, src := src, code := 0xFFFE, forced := true, path := true }
      else s.take { cls := cls, src := src, code := code, forced := true }

/-- `FORCE_REPORT`: a write of `FC_FORCEs` whose `GO` drives a report through the real path (R413). -/
def execForceReport (src : Src) (v : Word) (s : State) : Res := .next (s.fcForce src.val v)

/-- `FORCE_PATH_FAILURE`: a write of `FC_FORCEs` whose `GO` drives both wires equal (R413). -/
def execForcePathFailure (src : Src) (v : Word) (s : State) : Res := .next (s.fcForce src.val v)

end Sys2Proof.Machine
end

