-- ==== Sys2Proof/Machine/CmdC.lean ====
section
/-! DEFINITION. What the commands of the Faults, Event recorder, Update, Test and Life cycle groups do (R488 to R494): check 7 and the
effect. -/

namespace Sys2Proof.Machine

/-! ### Faults group (R410, R488, R489) -/

/-- `FAULT_ACK` (0x0A01). -/
def State.cmdFaultAck (s : State) (i : CmdIn) : CmdRes :=
  let v := leAt i.p 0 4
  if v / 8 != 0 then .no s stBadParam
  else .ok (s.ackFaults (2 * v)) [] ([1, 2, 3].any (fun c => bit (2 * v) c && s.on (pendFld c)))

/-- The 776 bytes of half of the fault history. -/
def State.historyPart (s : State) (part : Nat) : List Byte :=
  leBytes 1 (s.g FC_HPTR_HEAD) ++ leBytes 1 (s.g FC_HPTR_FREEZE) ++ leBytes 1 (s.g FC_STAT_FROZEN) ++ leBytes 1 0 ++
  leBytes 4 (s.g FC_HLOST_COUNT) ++ (List.range 16).flatMap (fun k => (tabGet (fun _ => {}) s.fc.hist (16 * part + k) : HistEnt).bytes)

/-- `FAULT_HISTORY` (0x0A02): a reading command that on channel 4 can lift the freeze, once both halves are delivered (R412).
[DESIGN CHOICE: log 29] -/
def State.cmdFaultHistory (s : State) (i : CmdIn) : CmdRes :=
  let v := leAt i.p 0 4
  let part := v % 2
  let s4 := i.chan == 4
  if v / 4 != 0 then .no s stBadParam
  else if !bit v 1 then
    let s := if part == 0 && s4 && s.on FC_STAT_FROZEN then { s with fc := { s.fc with part0 := true } } else s
    .read s (s.historyPart part)
  else if !s4 then .no s stAuth
  else if part == 0 then .no s stBadParam
  else if !s.on FC_STAT_FROZEN then .read s (s.historyPart part)
  else if !s.fc.part0 then .no s stVerifyFail
  else
    let s := ({ s with fc := { s.fc with part0 := false } } : State).p FC_STAT_FROZEN 0
    .read s (s.historyPart part)

/-- `FAULT_INJECT` (0x0A03): through `FC_FORCEs` (R413). [DESIGN CHOICE: log 28] -/
def State.cmdFaultInject (s : State) (i : CmdIn) : CmdRes :=
  let src := byteAt i.p 0
  let cls := byteAt i.p 1
  let path := byteAt i.p 2
  let code := leAt i.p 4 2
  if !srcRaises src cls || path > 1 || byteAt i.p 3 != 0 || !zeros i.p 6 8 then .no s stBadParam
  else
    let seen := !s.on (FC_SSTAT_PATHFAIL src)
    let s := s.fcForce src (BitVec.ofNat 32 (1 + 2 * cls + 16 * path + 65536 * code))
    let flags := if !seen then 0 else if path == 1 then 4 else if 3 ≤ cls then 3 else 1
    let lcls := if !seen then 0 else if path == 1 then 2 else cls
    let lcode := if !seen then 0 else if path == 1 then 0xFFFE else code
    .ok s (leBytes 1 flags ++ leBytes 1 lcls ++ leBytes 2 lcode) true

/-- `FAULT_STATUS` (0x0A04). -/
def State.cmdFaultStatus (s : State) (_i : CmdIn) : CmdRes :=
  .read s (s.regBytes FC_STAT_FROZEN ++ s.regBytes (FC_FIRST_SRC 1) ++ s.regBytes (FC_FIRST_SRC 2) ++ s.regBytes (FC_FIRST_SRC 3) ++
    s.regBytes FC_HALTSRC_SRC ++ s.regBytes FC_ESCCNT_COUNT ++ s.regBytes FC_HLOST_COUNT ++ s.regBytes FC_HPTR_HEAD)

/-! ### Event recorder group (R490, R502, R503) -/

/-- `EV_READ` (0x0B01): the cursor stays at the last record read (R502). [DESIGN CHOICE: log 29] -/
def State.cmdEvRead (s : State) (i : CmdIn) : CmdRes :=
  let start := leAt i.p 0 4
  let n := leAt i.p 4 2
  if !within 1 15 n || !zeros i.p 6 8 then .no s stBadParam
  else
    let rs := s.records.dropWhile (fun r => r.seq < start)
    let out := rs.take n
    let s := s.p EV_CURSOR_SEQ ((out.getLast?.map (·.seq)).getD start)
    .read s (leBytes 4 ((out.head?.map (·.seq)).getD 0) ++ leBytes 2 out.length ++ leBytes 2 (if rs.length ≤ n then 1 else 0) ++
      out.flatMap EvRec.bytes)

/-- `EV_STATUS` (0x0B02). -/
def State.cmdEvStatus (s : State) (_i : CmdIn) : CmdRes :=
  .read s (leBytes 4 (s.g EV_FIRST_SEQ) ++ leBytes 4 (s.g EV_LAST_SEQ) ++ leBytes 4 (s.g EV_STAT_FULL) ++ leBytes 4 (s.g EV_SUPPR_COUNT))

/-- `EV_CLEAR` (0x0B03). -/
def State.cmdEvClear (s : State) (_i : CmdIn) : CmdRes := .done s.evClear

/-! ### Update group (R491, R509 to R520) -/

/-- The first check of R510 that a manifest fails, with its status. -/
def State.manifestCheck (s : State) (m : List Byte) : Option (Nat × Nat) :=
  let full := bit (byteAt m 6) 0
  let size := leAt m 120 4
  let act := s.bank (s.g UP_STAT_ACTBANK)
  let legal := leAt m 0 4 == 0x5A4D4D46 && leAt m 4 2 == 1 && byteAt m 6 < 2 && zeros m 130 136 && within 1 68157440 size &&
    leAt m 124 2 == (size + 16383) / 16384 && zeros m 24 56 == full
  if !legal then some (1, stBadParam)
  else if !Config.signed Config.makerKey m then some (2, stVerifyFail)
  else if !s.bindsTo (byteAt m 7) (byteAt m 8) (byteAt m 9) (leAt m 16 8) then some (3, stVerifyFail)
  else if !full && (m.drop 24).take 32 != imageHash act then some (4, stVerifyFail)
  else if (m.drop 56).take 32 == imageHash act then some (5, stVerifyFail)
  else if leAt m 12 4 < leAt act 20 4 then some (6, stVerifyFail)
  else if s.on UP_STAT_TRIAL then some (7, stVerifyFail)
  else none

/-- `UP_MANIFEST` (0x0C01). [DEDUCED: log 26] -/
def State.cmdUpManifest (s : State) (i : CmdIn) : CmdRes :=
  let m := i.p
  match s.manifestCheck m with
  | some (order, st) => .no (s.upEvent 2 (leBytes 1 order)) st
  | none =>
    let data := leBytes 4 (leAt m 12 4) ++ leBytes 2 (leAt m 124 2)
    if !s.up.manifest.isEmpty && (s.up.manifest.drop 56).take 32 == (m.drop 56).take 32 then
      let s' := (s.upEvent 1 (data ++ leBytes 1 1)).buildStart true
      .ok s' [] (s'.g UP_STAT_PHASE != s.g UP_STAT_PHASE)
    else
      let s := s.upDiscard
      let s := ({ s with up := { s.up with manifest := m } } : State).p UP_STAT_BUILT 0
      let s := ((s.p UP_STAT_PHASE 1).p UP_CHFAIL_COUNT 0).p UP_CHUNKS_TOTAL (leAt m 124 2)
      .done ((s.p UP_TGTVER_VERSION (leAt m 12 4)).upEvent 1 (data ++ leBytes 1 0))

/-- Is a chunk complete? -/
def State.chunkDone (s : State) (k : Nat) : Bool := bit (s.g (UP_BITMAP_BITS (k / 32))) (k % 32)

/-- A chunk's bit set or cleared, with the count of complete chunks. -/
def State.setChunk (s : State) (k : Nat) (b : Bool) : State :=
  if s.chunkDone k == b then s
  else
    let w := s.g (UP_BITMAP_BITS (k / 32))
    let n := s.g UP_CHUNKS_DONE
    if b then (s.p (UP_BITMAP_BITS (k / 32)) (w + 2 ^ (k % 32))).p UP_CHUNKS_DONE (n + 1)
    else (s.p (UP_BITMAP_BITS (k / 32)) (w - 2 ^ (k % 32))).p UP_CHUNKS_DONE (n - 1)

/-- The bytes of a chunk (R512). -/
def State.chunkLen (s : State) (k : Nat) : Nat := min 16384 (leAt s.up.manifest 120 4 - 16384 * k)

/-- A chunk failed its check (R514). -/
def State.chunkFailed (s : State) (k : Nat) : CmdRes := .no ((s.inc UP_CHFAIL_COUNT).upEvent 3 (leBytes 4 k)) stVerifyFail

/-- The last bit set makes the phase Complete, and the build starts (R514, R516). -/
def State.allChunks (s : State) : State :=
  let n := leAt s.up.manifest 124 2
  if s.g UP_CHUNKS_DONE == n then ((s.p UP_STAT_PHASE 2).upEvent 4 (leBytes 2 n)).buildStart false else s

/-- A chunk whose fill has reached its length (R514). -/
def State.chunkComplete (s : State) (k : Nat) (data : List Byte) : CmdRes :=
  let t := tableChunks (leAt s.up.manifest 124 2)
  let s := { s with up := { s.up with part := none } }
  let store := Mem.wrL s.up.store (16384 * k) data
  if k < t then
    let last := (List.range t).all (fun j => j == k || s.chunkDone j)
    let table := Mem.rdN store 0 (min (16384 * t) (leAt s.up.manifest 120 4))
    if !last then .done (({ s with up := { s.up with store := store } } : State).setChunk k true)
    else if padTo 32 (Config.sha256 table) == (s.up.manifest.drop 88).take 32 then
      .done ((({ s with up := { s.up with store := store, tableOk := true } } : State).setChunk k true).allChunks)
    else
      let s := (List.range t).foldl (fun (s : State) j => s.setChunk j false) s
      ({ s with up := { s.up with store := s.up.store.wipe 0 (16384 * t) } } : State).chunkFailed k
  else if padTo 32 (Config.sha256 data) == Mem.rdN s.up.store (32 * k) 32 then
    .done ((({ s with up := { s.up with store := store } } : State).setChunk k true).allChunks)
  else s.chunkFailed k

/-- What a piece adds to (R513): the fill it starts or continues; none for any other offset. [DEDUCED: log 24] -/
def State.fillFor (s : State) (k off : Nat) : Option (List Byte) :=
  if off == 0 then some []
  else match s.up.part with
    | some (j, b) => if j == k && b.length == off then some b else none
    | none => none

/-- `UP_CHUNK` (0x0C02). [DEDUCED: log 24] -/
def State.cmdUpChunk (s : State) (i : CmdIn) : CmdRes :=
  let k := leAt i.p 0 4
  let off := leAt i.p 4 2
  let d := i.p.drop 8
  if s.on UP_STAT_TRIAL then .no s stVerifyFail
  else if s.up.manifest.isEmpty then .no s stNotPresent
  else if leAt s.up.manifest 124 2 ≤ k || off + d.length > 16384 || !zeros i.p 6 8 then .no s stBadParam
  else if s.chunkDone k then .idle s
  else match s.fillFor k off with
    | none => .no s stBadParam
    | some b =>
      if b.length + d.length > s.chunkLen k then .no s stBadParam
      else if tableChunks (leAt s.up.manifest 124 2) ≤ k && !s.up.tableOk then .no s stVerifyFail
      else if b.length + d.length == s.chunkLen k then s.chunkComplete k (b ++ d)
      else .idle { s with up := { s.up with part := some (k, b ++ d) } }

/-- `UP_STATUS` (0x0C03). -/
def State.cmdUpStatus (s : State) (_i : CmdIn) : CmdRes :=
  .read s (leBytes 1 (s.g UP_STAT_PHASE) ++ leBytes 3 0 ++ leBytes 4 (s.g UP_CHUNKS_DONE) ++ leBytes 4 (s.g UP_CHUNKS_TOTAL) ++
    leBytes 1 (s.g UP_STAT_ACTBANK) ++ leBytes 1 (s.g UP_STAT_BUILT) ++ leBytes 2 0)

/-- The partner's last health record, of this macrocycle or the one before, shows it Active (R520). -/
def State.partnerActive (s : State) : Bool :=
  match s.un.partner with
  | some h => h.mode == mActive && decide (mcNum s.now ≤ h.at_ + 1)
  | none => false

/-- `UP_ACTIVATE` (0x0C04). -/
def State.cmdUpActivate (s : State) (i : CmdIn) : CmdRes :=
  let m := s.up.manifest
  let ok := !m.isEmpty && i.p == (m.drop 56).take 32 && s.g UP_STAT_PHASE == 4 && (!s.on UN_CFG_EN || s.partnerActive) &&
    s.cfg.vers.all (fun e => within (leAt m 128 2) (leAt m 126 2) e.2)
  if !ok then .no s stVerifyFail
  else
    let b := 1 - s.g UP_STAT_ACTBANK
    let s := (((s.p UP_STAT_ACTBANK b).p UP_STAT_TRIAL 1).p UP_STAT_TRIES 0).p UP_STAT_PHASE 5
    let s := { s with up := { s.up with orig := some s.cfg } }
    .okReset (s.upEvent 7 (leBytes 4 (leAt m 12 4) ++ leBytes 1 b)) 4 0 23

/-- `UP_ABANDON` (0x0C05): a trial goes on. [DEDUCED: log 26] -/
def State.cmdUpAbandon (s : State) (_i : CmdIn) : CmdRes :=
  if s.up.manifest.isEmpty then .idle s
  else
    let s := (s.upDiscard.p UP_STAT_BUILT 0).p UP_TGTVER_VERSION 0
    let s := if s.on UP_STAT_TRIAL then s else s.p UP_STAT_PHASE 0
    .done (s.upEvent 0xC (leBytes 1 1))

/-! ### Test and loopback group (R492, R526 to R528, R532, R536) -/

/-- `TEST_REGREAD` (0x0D01). Lane D's blocks of a ZM60-E4 read 0 (R37). -/
def State.cmdTestRegread (s : State) (i : CmdIn) : CmdRes :=
  let a := leAt i.p 0 4
  let n := leAt i.p 4 2
  if a % 4 != 0 || !s.modMapped a || !within 1 250 n || !zeros i.p 6 8 || a % 0x10000 + 4 * n > 0x10000 then .no s stBadParam
  else
    let absent := s.variant == .zm60 && a / 0x1000000 == 0x73
    .read s ((List.range n).flatMap (fun k => leBytes 4 (if absent then 0 else (s.regView (a + 4 * k)).toNat)))

/-- The depths at which a port can be tested (R526, R532); none for a code that names no port. -/
def portDepths (port : Nat) : List Nat :=
  if within 0x01 0x05 port || within 0x10 0x13 port then [0, 1, 2, 3]
  else if within 0x20 0x21 port then [0, 1, 3]
  else if within 0x30 0x31 port || within 0x50 0x53 port then [0, 2, 3]
  else if port == 0x40 then [0, 2]
  else if within 0x60 0x61 port || within 0x98 0x9B port then [2]
  else if within 0x70 0x7F port || within 0x80 0x8B port || within 0x90 0x93 port then [2, 3]
  else if within 0xA0 0xA5 port then (if port % 2 == 0 then [2, 3] else [2])
  else []

/-- Is a port in service (R526)? -/
def State.portInService (s : State) (port : Nat) : Bool :=
  if within 0x01 0x05 port then s.on (EN_PORT_LINK (port - 1))
  else if within 0x10 0x13 port then s.on (BZ_CTRL_EN ((port - 0x10) / 2))
  else if port == 0x20 then s.on UN_STAT_PLK1
  else if port == 0x21 then s.on UN_STAT_PLK2
  else if within 0x30 0x31 port then s.on RB_LSCTRL_EN
  else if port == 0x40 then s.on RB_CTRL_EN
  else if within 0x50 0x53 port then
    (List.range 16).any (fun n => (s.on (TU_CAPCFG_EN n) && s.g (TU_CAPCFG_SRC n) == port - 0x4F) ||
      (s.on (TU_TRGCFG_EN n) && s.g (TU_TRGCFG_TGT n) == port - 0x4F))
  else true

/-- The port that carries the service session. -/
def State.sessPort (s : State) : Nat :=
  match s.sess.via with
  | .svc => 0x05
  | .eth n => n.val + 1

/-- `TEST_LOOP` (0x0D02). What returns to the port's receiver is a free value: up to `FRAMES` units sent, some of them intact; at depth 3
the plug may be absent. The port is held until the answer (R527). [DESIGN CHOICE: log 16] -/
def State.cmdTestLoop (s : State) (i : CmdIn) : CmdRes :=
  let port := byteAt i.p 0
  let depth := byteAt i.p 1
  let frames := leAt i.p 4 4
  let held := (i.chan == 4 && port == s.sessPort) || (s.mode == mMaintenance && s.portInService port)
  if !(portDepths port).contains depth || held || !zeros i.p 2 4 || !within 1 1000000 frames then .no s stBadParam
  else
    let x := Config.loopTest s.free port depth frames
    let absent := depth == 3 && !x.1
    let sent := if absent then 0 else x.2.1 % (frames + 1)
    let intact := x.2.2.1 % (sent + 1)
    .later (({ s with
      free := s.free + 1
      dbg := { s.dbg with loop := some {
        port := port, depth := depth, chans := i.chans, hdr := i.hdr, payload := i.p
        endNs := s.tu.upNs + (if absent then 100000000 else x.2.2.2 % 2000000001), sent := sent, intact := intact
        result := if absent then 2 else if intact == sent then 0 else 1 } } } : State).redrive port)

/-- `TEST_PROD` (0x0D03). -/
def State.cmdTestProd (s : State) (_i : CmdIn) : CmdRes :=
  if s.dbg.prod then .idle s else .done { s with dbg := { s.dbg with prod := true } }

/-! ### Life cycle group (R432 to R435, R493, R494) -/

/-- The life-cycle change with its wipes (R433, R434), up to the response; `now` are the user keys that are then installed.
[DEDUCED: log 27] -/
def State.changeLcs (s : State) (to_ : Nat) (tag recs : Bool) (new : KeySt) (chan : Nat) : CmdRes :=
  let old := s.g LC_STATE_LCS
  let s := s.gateFault.leaveLight
  let s := s.removeForces s.app.forces 2
  let s := s.appStop
  let s := if s.up.manifest.isEmpty then s else s.upEvent 0xC (leBytes 1 2)
  let s := (s.p LC_STATE_LCS to_).p LC_STATE_WIPEPEND 1
  let s := s.lcWipe
  let s := if tag then s.tagWipe else s
  let s := if recs then s.recordsWipe else s
  let s := ({ s with keys := new } : State).p LC_STATE_WIPEPEND 0
  .okReset (s.recordEv { source := 0x0202, code := to_ * 256 + old, cls := 0xFF }) 5 chan 4

/-- The factory area written from a provisioning record (R435). -/
def State.setFactory (s : State) (b : List Byte) : State :=
  (List.range 16).foldl (fun (s : State) k => s.p (LC_FACT_WORD k) (leAt b (4 * k) 4)) s

/-- `LC_CHANGE` (0x0E01). [DEDUCED: log 27] -/
def State.cmdLcChange (s : State) (i : CmdIn) : CmdRes :=
  let to_ := byteAt i.p 0
  let b := i.p.drop 4
  if !zeros i.p 1 4 then .no s stBadParam
  else match s.g LC_STATE_LCS, to_ with
    | 0, 1 =>
      if b.length != 128 then .no s stBadParam
      else if !s.dbg.prod then .no s stStateReject
      else if !Config.signed Config.makerKey b then .no s stVerifyFail
      else (s.setFactory b).changeLcs 1 true true {} i.chan
    | 1, 2 =>
      if b.length != 96 then .no s stBadParam
      else s.changeLcs 2 true false { cred := some (b.take 32), pkgKey := some (b.drop 32) } i.chan
    | 2, 3 => if b.length != 0 then .no s stBadParam else s.changeLcs 3 false false {} i.chan
    | 3, 1 =>
      if b.length != 72 then .no s stBadParam
      else if leAt b 0 8 != leAt s.factory 28 8 || !Config.signed Config.makerKey b then .no s stVerifyFail
      else s.changeLcs 1 true true {} i.chan
    | 1, 4 | 2, 4 | 3, 4 => if b.length != 0 then .no s stBadParam else s.changeLcs 4 true true {} i.chan
    | _, _ => .no s stBadParam

/-- `LC_DEBUGTOKEN` (0x0E02). [DESIGN CHOICE: log 28] -/
def State.cmdLcDebugtoken (s : State) (i : CmdIn) : CmdRes :=
  if leAt i.p 0 8 != leAt s.factory 28 8 || leAt i.p 8 4 < s.sb.rtc then .no s stVerifyFail
  else if !zeros i.p 12 16 then .no s stBadParam
  else if !Config.signed Config.makerKey i.p then .no s stVerifyFail
  else .done ((s.p LC_STATE_DBGPERM 1).chanGates)

end Sys2Proof.Machine
end

