-- ==== Sys2Proof/Machine/CmdRun.lean ====
section
/-! DEFINITION. How a command comes to run: the doorbell (R440, R441), the checks of R444, the vote of lane commands (R69, R70, R447), the
order of execution (R467), the response and the record (R445, R468), the channel reset (R459). -/

namespace Sys2Proof.Machine

/-! ### The bodies by code -/

/-- The bodies of the Module, Application, Force and Time groups. -/
def bodiesA : List (Nat × (State → CmdIn → CmdRes)) := [
  (0x0101, State.cmdModReset), (0x0102, State.cmdModIdentify), (0x0103, State.cmdModStatus), (0x0104, State.cmdModSetmode),
  (0x0105, State.cmdModTagRead), (0x0106, State.cmdModTagWrite), (0x0107, State.cmdModWakecfg),
  (0x0201, State.cmdAppStage), (0x0202, State.cmdAppLoad), (0x0203, State.cmdAppStart), (0x0204, State.cmdAppStop),
  (0x0205, State.cmdAppRestart), (0x0206, State.cmdAppNextstart), (0x0207, State.cmdAppOlcLoad), (0x0208, State.cmdAppOlcApply),
  (0x0209, State.cmdPairSplit), (0x020A, State.cmdPairJoin), (0x020B, State.cmdAppStatus),
  (0x0301, State.cmdForceSet), (0x0302, State.cmdForceClear), (0x0303, State.cmdForceClearall), (0x0304, State.cmdForceList),
  (0x0401, State.cmdTimeConfig), (0x0402, State.cmdTimeTrigger), (0x0403, State.cmdTimeCapture), (0x0404, State.cmdTimeStatus)]

/-- The bodies of the Ring, Ethernet, Safety configuration, Field I/O and Unit groups. -/
def bodiesB : List (Nat × (State → CmdIn → CmdRes)) := [
  (0x0501, State.cmdRingSched), (0x0502, State.cmdRingCommit), (0x0503, State.cmdRingStatus),
  (0x0601, State.cmdEthConfig), (0x0602, State.cmdEthStatus),
  (0x0701, State.cmdSafeLoad), (0x0702, State.cmdSealAccept), (0x0703, State.cmdScAck), (0x0704, State.cmdSafeStatus),
  (0x0801, State.cmdFioConfig), (0x0802, State.cmdFioRelease), (0x0803, State.cmdFioStatus),
  (0x0901, State.cmdUnitConfig), (0x0902, State.cmdUnitHandover), (0x0903, State.cmdUnitWitness), (0x0904, State.cmdUnitStatus)]

/-- The bodies of the Faults, Event recorder, Update, Test and Life cycle groups. -/
def bodiesC : List (Nat × (State → CmdIn → CmdRes)) := [
  (0x0A01, State.cmdFaultAck), (0x0A02, State.cmdFaultHistory), (0x0A03, State.cmdFaultInject), (0x0A04, State.cmdFaultStatus),
  (0x0B01, State.cmdEvRead), (0x0B02, State.cmdEvStatus), (0x0B03, State.cmdEvClear),
  (0x0C01, State.cmdUpManifest), (0x0C02, State.cmdUpChunk), (0x0C03, State.cmdUpStatus), (0x0C04, State.cmdUpActivate),
  (0x0C05, State.cmdUpAbandon),
  (0x0D01, State.cmdTestRegread), (0x0D02, State.cmdTestLoop), (0x0D03, State.cmdTestProd),
  (0x0E01, State.cmdLcChange), (0x0E02, State.cmdLcDebugtoken)]

/-- What a command of a code does; an unknown code is answered `BAD_CODE` (R7). -/
def cmdBody (code : Nat) (s : State) (i : CmdIn) : CmdRes :=
  match (bodiesA ++ bodiesB ++ bodiesC).find? (fun e => e.1 == code) with
  | some e => e.2 s i
  | none => .no s stBadCode

/-! ### Checks 1 to 6 (R444) -/

/-- Is a command accepted in the present mode and life-cycle state (R446, R464, R471)? `MOD_SETMODE` to the present mode is.
[DEDUCED: log 43] -/
def State.modeAccepts (s : State) (code chan : Nat) (payload : List Byte) : Bool :=
  bit (acceptMask (s.g LC_STATE_LCS) code chan payload) s.mode ||
  (code == 0x0104 && lcsAccepts (s.g LC_STATE_LCS) code && chan != 5 && byteAt payload 0 == s.mode &&
    [mCommissioning, mSynchronising, mMaintenance, mUpdate, mParked].contains s.mode)

/-- The status of the first of checks 1 to 6 that a command on a channel fails. -/
def State.checkCmd (s : State) (c : Nat) (hdr payload : List Byte) : Option Nat :=
  let code := leAt hdr 0 2
  let len := leAt hdr 4 2
  let spec := leAt hdr 6 2
  if len > 1008 then some stBadLength
  else if byteAt hdr 3 > 1 || leAt hdr 8 8 != 0 || (if c < 4 then spec > 15 else spec != 0) then some stBadParam
  else match cmdRow code with
  | none => some stBadCode
  | some r =>
    if !r.lens.any (fun e => within e.1 e.2 len) then some stBadLength
    else if !chanAccepts (s.g LC_STATE_LCS) c r payload then some stAuth
    else if !s.modeAccepts code c payload then some stStateReject
    else none

/-! ### Execution (R467, R468) -/

/-- A command answered `OK` with a payload, and recorded where it has changed something that R468 names. -/
def State.answered (s : State) (i : CmdIn) (out : List Byte) (wrote : Bool) : State :=
  let s := s.respond (i.chans.map (·.val)) i.hdr i.p stOk out
  if wrote then s.cmdRecord i.chan i.hdr i.p stOk else s

/-- How a command ends: its response, its record, the reset that follows some. [DESIGN CHOICE: log 30] -/
def CmdRes.finish (i : CmdIn) : CmdRes → State
  | .ok s out wrote => s.answered i out wrote
  | .okReset s cause chan row => (s.answered i [] true).moduleReset cause chan row
  | .no s status => s.respond (i.chans.map (·.val)) i.hdr i.p status []
  | .later s => s

/-- A command that has passed checks 1 to 6 runs. -/
def State.perform (s : State) (i : CmdIn) : State := (cmdBody (leAt i.hdr 0 2) s i).finish i

/-- Does a command that is under way hold up every other (R467, R475): a start that waits for Running, a wake, a handover, a
commanded test? [DESIGN CHOICE: log 42] -/
def State.cmdBusy (s : State) : Bool := !s.app.startChans.isEmpty || !s.app.wakeChans.isEmpty || s.un.answer.isSome || s.dbg.loop.isSome

/-- A command with its checks 1 to 6: it is answered at once, waits its turn, or runs. [DESIGN CHOICE: log 92] -/
def State.runCmd (s : State) (i : CmdIn) : State :=
  match s.checkCmd i.chan i.hdr i.p with
  | some st => s.respond (i.chans.map (·.val)) i.hdr i.p st []
  | none =>
    if s.cmdBusy then { s with queued := s.queued ++ [{ code := leAt i.hdr 0 2, chans := i.chans, hdr := i.hdr, payload := i.p }] }
    else s.perform i

/-- The first command that waits its turn runs once nothing holds it up. [DESIGN CHOICE: log 42] -/
def State.drainCmd (s : State) : State :=
  if s.cmdBusy then s
  else match s.queued with
    | q :: qs => ({ s with queued := qs } : State).perform { chans := q.chans, hdr := q.hdr, p := q.payload }
    | [] => s

/-! ### Lane commands (R69, R70, R447) -/

/-- Is a command of this header still under way? -/
def State.underWay (s : State) (hdr : List Byte) : Bool :=
  (match s.waiting with
    | some w => w.hdr == hdr
    | none => false) || s.queued.any (fun q => q.hdr == hdr) || (!s.app.startChans.isEmpty && s.app.startHdr == hdr) ||
  (!s.app.wakeChans.isEmpty && s.app.wakeHdr == hdr) ||
  (match s.un.answer with
    | some (_, h, _) => h == hdr
    | none => false)

/-- A lane posts a command that the others have agreed on: its response is there already, or comes with theirs. -/
def State.joinCmd (s : State) (l : Nat) (bs : List Byte) : State :=
  if s.underWay (bs.take 16) then s
  else
    let s := s.p (MB_STAT_STATE l) 2
    if s.on (MB_CTRL_IRQDONE l) then s.emit (.irq l 0 0x440) else s

/-- No majority (R69, R70): each posting channel is answered, the image of the lowest Voting lane's task too. -/
def State.cmdFails (s : State) (posts : List (Lane × List Byte)) : State :=
  let s := posts.foldl (fun (s : State) e => s.respondOn e.1.val (e.2.take 16) stVoteDisagree []) s
  let first := [0, 1, 2, 3].findSome? (fun (l : Nat) => if s.laneSt l == laVoting then posts.find? (fun e => e.1.val == l) else none)
  match first with
  | some e => (s.imageResponse (e.2.take 16) stVoteDisagree []).cmdRecord e.1.val (e.2.take 16) (e.2.drop 16) stVoteDisagree
  | none => s

/-- The channels of the Voting and Spare lanes. -/
def State.laneChans (s : State) : List Chan := s.liveLanes.map (fun l => (Fin.ofNat 7 l : Chan))

/-- A lane's doorbell: the command meets those of the other lanes at its place in the task's stream. -/
def State.laneCmd (s : State) (l : Lane) : State :=
  let c := l.val
  let bs := s.cmdHdr c ++ s.cmdPayload c
  let t : Task := Fin.ofNat 16 (leAt bs 6 2)
  let place := (s.lt c t.val).cmdPos
  let posts := ((s.stream .command (.task t) place).map (·.posts)).getD [] ++ [(l, bs)]
  let s := s.modLt c t.val (fun x => { x with cmdPos := place + 1 })
  let x := s.postStream .command (.task t) place l bs
  match x.2 with
  | .formed w => x.1.runCmd { chans := x.1.laneChans, hdr := w.take 16, p := w.drop 16 }
  | .joined w => x.1.joinCmd c w
  | .failed _ => x.1.cmdFails posts
  | .waits | .turned => x.1

/-! ### The doorbell and the channel reset (R440, R441, R459) -/

/-- A refused doorbell (R441). -/
def State.refuseBell (s : State) (c status : Nat) : State :=
  let s := (s.p (MB_STAT_REJ c) 1).p (MB_STAT_REJST c) status
  if c == 4 && s.sess.phase == .authenticated then s.sendRecord 0x14 (leBytes 2 status) else s

/-- `GO` written to a channel's `MB_DOOR`. The ZM60-E4's channel 3 ignores it (R438). -/
def State.doorbell (s : State) (ch : Chan) : State :=
  let c := ch.val
  if s.variant == .zm60 && c == 3 then s
  else if !s.on (MB_STAT_EN c) then
    let s := s.refuseBell c stNotPresent
    s.notice 0x22 0x0003 c (s.word (MB_STAT_STATE c))
  else if s.g (MB_STAT_STATE c) == 1 then (s.refuseBell c stBusy).inc (MB_BUSYCNT_COUNT c)
  else
    let s := (s.inc (MB_CMDCNT_COUNT c)).p (MB_STAT_STATE c) 1
    if c < 4 then s.laneCmd (Fin.ofNat 4 c) else s.runCmd { chans := [ch], hdr := s.cmdHdr c, p := s.cmdPayload c }

/-- The 16 bytes of a command header. -/
def hdrBytes (code : Nat) (h : Hdr) : List Byte :=
  leBytes 2 code ++ leBytes 1 h.tag.toNat ++ leBytes 1 h.flags.toNat ++ leBytes 2 h.len.toNat ++ leBytes 2 h.chspec.toNat ++ leBytes 8 h.rsvd.toNat

/-- The word writes by which a lane's runtime puts a command into its buffer and rings (R11, R439, R440). -/
def bellOps (bs : List Byte) : List CoreOp :=
  (List.range ((bs.length + 3) / 4)).map (fun k => CoreOp.store true false (0x190000000 + 4 * k) (padTo 4 (bs.drop (4 * k)))) ++
  [.store true false 0x190000C00 (leBytes 4 1)]

/-- A command of a lane whose pair 0 runs a speculating task: the writes enter the deferral queue, or the context stalls before them when
they do not fit (R80, R132, R134). -/
def State.deferCmd (s : State) (l t : Nat) (bs : List Byte) : State :=
  let ops := bellOps bs
  if 256 < (s.lane l).dqUsed + ops.length then s.stallCtx l t ops
  else ops.foldl (fun (s : State) op => match op with
    | .store _ _ a w => s.deferWrite l t (a / 8 * 8) (15 * 2 ^ (a % 8)) (BitVec.ofNat 64 (leNat w * 256 ^ (a % 8))) op
    | _ => s) s

/-- The speculating task on pair 0 of the lane that posts at a channel; none at a channel of no lane (R80, R132). -/
def State.specPoster (s : State) (c : Nat) : Option Nat :=
  if c < 4 then
    match s.pairTask c 0 with
    | some t => if s.speculates c t then some t else none
    | none => none
  else none

/-- A client writes a command into its buffer and rings (R440). The buffers of a closed channel take nothing; a lane whose task on pair 0
speculates defers the writes (R132). -/
def State.postCmd (s : State) (ch : Chan) (code : Nat) (h : Hdr) (p : List Byte) : State :=
  if s.mode == mDormant then s
  else match s.specPoster ch.val with
  | some t => s.deferCmd ch.val t (hdrBytes code h ++ p)
  | none => (if s.on (MB_STAT_EN ch.val) then s.writeCmd ch.val (hdrBytes code h) p else s).doorbell ch

/-- `MB_STAT.CHRST` (R447, R459). -/
def State.chanReset (s : State) (c : Nat) : State := if c < 4 then s.notice 0x22 0x0006 c (s.word (MB_STAT_STATE c)) else s.zeroChan c

end Sys2Proof.Machine
end

