-- ==== Sys2Proof/Machine/CmdRows.lean ====
section
/-! DEFINITION. The rows of the mailbox commands: a client writes the command into its channel's buffer and rings the doorbell (R440);
what the command does is its body in `CmdA`, `CmdB`, `CmdC`, under the checks and the vote of `CmdRun`. -/

namespace Sys2Proof.Machine

/-- `MOD_RESET` (R469). -/
def execModReset (ch : Chan) (h : Hdr) (p : List Byte) (s : State) : Res := .next (s.postCmd ch 0x0101 h p)

/-- `MOD_IDENTIFY` (R470). -/
def execModIdentify (ch : Chan) (h : Hdr) (p : List Byte) (s : State) : Res := .next (s.postCmd ch 0x0102 h p)

/-- `MOD_STATUS` (R470). -/
def execModStatus (ch : Chan) (h : Hdr) (p : List Byte) (s : State) : Res := .next (s.postCmd ch 0x0103 h p)

/-- `MOD_SETMODE` (R471). -/
def execModSetmode (ch : Chan) (h : Hdr) (p : List Byte) (s : State) : Res := .next (s.postCmd ch 0x0104 h p)

/-- `MOD_TAG_READ` (R469). -/
def execModTagRead (ch : Chan) (h : Hdr) (p : List Byte) (s : State) : Res := .next (s.postCmd ch 0x0105 h p)

/-- `MOD_TAG_WRITE` (R436). -/
def execModTagWrite (ch : Chan) (h : Hdr) (p : List Byte) (s : State) : Res := .next (s.postCmd ch 0x0106 h p)

/-- `MOD_WAKECFG` (R469). -/
def execModWakecfg (ch : Chan) (h : Hdr) (p : List Byte) (s : State) : Res := .next (s.postCmd ch 0x0107 h p)

/-- `APP_STAGE` (R473). -/
def execAppStage (ch : Chan) (h : Hdr) (p : List Byte) (s : State) : Res := .next (s.postCmd ch 0x0201 h p)

/-- `APP_LOAD` (R474). -/
def execAppLoad (ch : Chan) (h : Hdr) (p : List Byte) (s : State) : Res := .next (s.postCmd ch 0x0202 h p)

/-- `APP_START` (R475). -/
def execAppStart (ch : Chan) (h : Hdr) (p : List Byte) (s : State) : Res := .next (s.postCmd ch 0x0203 h p)

/-- `APP_STOP` (R475). -/
def execAppStop (ch : Chan) (h : Hdr) (p : List Byte) (s : State) : Res := .next (s.postCmd ch 0x0204 h p)

/-- `APP_RESTART` (R475). -/
def execAppRestart (ch : Chan) (h : Hdr) (p : List Byte) (s : State) : Res := .next (s.postCmd ch 0x0205 h p)

/-- `APP_NEXTSTART` (R472). -/
def execAppNextstart (ch : Chan) (h : Hdr) (p : List Byte) (s : State) : Res := .next (s.postCmd ch 0x0206 h p)

/-- `APP_OLC_LOAD` (R476). -/
def execAppOlcLoad (ch : Chan) (h : Hdr) (p : List Byte) (s : State) : Res := .next (s.postCmd ch 0x0207 h p)

/-- `APP_OLC_APPLY` (R476). -/
def execAppOlcApply (ch : Chan) (h : Hdr) (p : List Byte) (s : State) : Res := .next (s.postCmd ch 0x0208 h p)

/-- `PAIR_SPLIT` (R81). -/
def execPairSplit (ch : Chan) (h : Hdr) (p : List Byte) (s : State) : Res := .next (s.postCmd ch 0x0209 h p)

/-- `PAIR_JOIN` (R81). -/
def execPairJoin (ch : Chan) (h : Hdr) (p : List Byte) (s : State) : Res := .next (s.postCmd ch 0x020A h p)

/-- `APP_STATUS` (R477). -/
def execAppStatus (ch : Chan) (h : Hdr) (p : List Byte) (s : State) : Res := .next (s.postCmd ch 0x020B h p)

/-- `FORCE_SET` (R118). -/
def execForceSet (ch : Chan) (h : Hdr) (p : List Byte) (s : State) : Res := .next (s.postCmd ch 0x0301 h p)

/-- `FORCE_CLEAR` (R478). -/
def execForceClear (ch : Chan) (h : Hdr) (p : List Byte) (s : State) : Res := .next (s.postCmd ch 0x0302 h p)

/-- `FORCE_CLEARALL` (R478). -/
def execForceClearall (ch : Chan) (h : Hdr) (p : List Byte) (s : State) : Res := .next (s.postCmd ch 0x0303 h p)

/-- `FORCE_LIST` (R478). -/
def execForceList (ch : Chan) (h : Hdr) (p : List Byte) (s : State) : Res := .next (s.postCmd ch 0x0304 h p)

/-- `TIME_CONFIG` (R480). -/
def execTimeConfig (ch : Chan) (h : Hdr) (p : List Byte) (s : State) : Res := .next (s.postCmd ch 0x0401 h p)

/-- `TIME_TRIGGER` (R480). -/
def execTimeTrigger (ch : Chan) (h : Hdr) (p : List Byte) (s : State) : Res := .next (s.postCmd ch 0x0402 h p)

/-- `TIME_CAPTURE` (R479). -/
def execTimeCapture (ch : Chan) (h : Hdr) (p : List Byte) (s : State) : Res := .next (s.postCmd ch 0x0403 h p)

/-- `TIME_STATUS` (R480). -/
def execTimeStatus (ch : Chan) (h : Hdr) (p : List Byte) (s : State) : Res := .next (s.postCmd ch 0x0404 h p)

/-- `RING_SCHED` (R481). -/
def execRingSched (ch : Chan) (h : Hdr) (p : List Byte) (s : State) : Res := .next (s.postCmd ch 0x0501 h p)

/-- `RING_COMMIT` (R482). -/
def execRingCommit (ch : Chan) (h : Hdr) (p : List Byte) (s : State) : Res := .next (s.postCmd ch 0x0502 h p)

/-- `RING_STATUS` (R482). -/
def execRingStatus (ch : Chan) (h : Hdr) (p : List Byte) (s : State) : Res := .next (s.postCmd ch 0x0503 h p)

/-- `ETH_CONFIG` (R483). -/
def execEthConfig (ch : Chan) (h : Hdr) (p : List Byte) (s : State) : Res := .next (s.postCmd ch 0x0601 h p)

/-- `ETH_STATUS` (R483). -/
def execEthStatus (ch : Chan) (h : Hdr) (p : List Byte) (s : State) : Res := .next (s.postCmd ch 0x0602 h p)

/-- `SAFE_LOAD` (R484). -/
def execSafeLoad (ch : Chan) (h : Hdr) (p : List Byte) (s : State) : Res := .next (s.postCmd ch 0x0701 h p)

/-- `SEAL_ACCEPT` (R317). -/
def execSealAccept (ch : Chan) (h : Hdr) (p : List Byte) (s : State) : Res := .next (s.postCmd ch 0x0702 h p)

/-- `SC_ACK` (R292). -/
def execScAck (ch : Chan) (h : Hdr) (p : List Byte) (s : State) : Res := .next (s.postCmd ch 0x0703 h p)

/-- `SAFE_STATUS` (R484). -/
def execSafeStatus (ch : Chan) (h : Hdr) (p : List Byte) (s : State) : Res := .next (s.postCmd ch 0x0704 h p)

/-- `FIO_CONFIG` (R486). -/
def execFioConfig (ch : Chan) (h : Hdr) (p : List Byte) (s : State) : Res := .next (s.postCmd ch 0x0801 h p)

/-- `FIO_RELEASE` (R336). -/
def execFioRelease (ch : Chan) (h : Hdr) (p : List Byte) (s : State) : Res := .next (s.postCmd ch 0x0802 h p)

/-- `FIO_STATUS` (R485). -/
def execFioStatus (ch : Chan) (h : Hdr) (p : List Byte) (s : State) : Res := .next (s.postCmd ch 0x0803 h p)

/-- `UNIT_CONFIG` (R377). -/
def execUnitConfig (ch : Chan) (h : Hdr) (p : List Byte) (s : State) : Res := .next (s.postCmd ch 0x0901 h p)

/-- `UNIT_HANDOVER` (R397). -/
def execUnitHandover (ch : Chan) (h : Hdr) (p : List Byte) (s : State) : Res := .next (s.postCmd ch 0x0902 h p)

/-- `UNIT_WITNESS` (R487). -/
def execUnitWitness (ch : Chan) (h : Hdr) (p : List Byte) (s : State) : Res := .next (s.postCmd ch 0x0903 h p)

/-- `UNIT_STATUS` (R487). -/
def execUnitStatus (ch : Chan) (h : Hdr) (p : List Byte) (s : State) : Res := .next (s.postCmd ch 0x0904 h p)

/-- `FAULT_ACK` (R410). -/
def execFaultAck (ch : Chan) (h : Hdr) (p : List Byte) (s : State) : Res := .next (s.postCmd ch 0x0A01 h p)

/-- `FAULT_HISTORY` (R489). -/
def execFaultHistory (ch : Chan) (h : Hdr) (p : List Byte) (s : State) : Res := .next (s.postCmd ch 0x0A02 h p)

/-- `FAULT_INJECT` (R488). -/
def execFaultInject (ch : Chan) (h : Hdr) (p : List Byte) (s : State) : Res := .next (s.postCmd ch 0x0A03 h p)

/-- `FAULT_STATUS` (R488). -/
def execFaultStatus (ch : Chan) (h : Hdr) (p : List Byte) (s : State) : Res := .next (s.postCmd ch 0x0A04 h p)

/-- `EV_READ` (R490). -/
def execEvRead (ch : Chan) (h : Hdr) (p : List Byte) (s : State) : Res := .next (s.postCmd ch 0x0B01 h p)

/-- `EV_STATUS` (R490). -/
def execEvStatus (ch : Chan) (h : Hdr) (p : List Byte) (s : State) : Res := .next (s.postCmd ch 0x0B02 h p)

/-- `EV_CLEAR` (R503). -/
def execEvClear (ch : Chan) (h : Hdr) (p : List Byte) (s : State) : Res := .next (s.postCmd ch 0x0B03 h p)

/-- `UP_MANIFEST` (R510). -/
def execUpManifest (ch : Chan) (h : Hdr) (p : List Byte) (s : State) : Res := .next (s.postCmd ch 0x0C01 h p)

/-- `UP_CHUNK` (R513). -/
def execUpChunk (ch : Chan) (h : Hdr) (p : List Byte) (s : State) : Res := .next (s.postCmd ch 0x0C02 h p)

/-- `UP_STATUS` (R491). -/
def execUpStatus (ch : Chan) (h : Hdr) (p : List Byte) (s : State) : Res := .next (s.postCmd ch 0x0C03 h p)

/-- `UP_ACTIVATE` (R520). -/
def execUpActivate (ch : Chan) (h : Hdr) (p : List Byte) (s : State) : Res := .next (s.postCmd ch 0x0C04 h p)

/-- `UP_ABANDON` (R518). -/
def execUpAbandon (ch : Chan) (h : Hdr) (p : List Byte) (s : State) : Res := .next (s.postCmd ch 0x0C05 h p)

/-- `TEST_REGREAD` (R492). -/
def execTestRegread (ch : Chan) (h : Hdr) (p : List Byte) (s : State) : Res := .next (s.postCmd ch 0x0D01 h p)

/-- `TEST_LOOP` (R527). -/
def execTestLoop (ch : Chan) (h : Hdr) (p : List Byte) (s : State) : Res := .next (s.postCmd ch 0x0D02 h p)

/-- `TEST_PROD` (R536). -/
def execTestProd (ch : Chan) (h : Hdr) (p : List Byte) (s : State) : Res := .next (s.postCmd ch 0x0D03 h p)

/-- `LC_CHANGE` (R433). -/
def execLcChange (ch : Chan) (h : Hdr) (p : List Byte) (s : State) : Res := .next (s.postCmd ch 0x0E01 h p)

/-- `LC_DEBUGTOKEN` (R493). -/
def execLcDebugtoken (ch : Chan) (h : Hdr) (p : List Byte) (s : State) : Res := .next (s.postCmd ch 0x0E02 h p)

/-- `UNKNOWN_COMMAND` (R7): a doorbell with any other code is answered `BAD_CODE` at check 3. -/
def execUnknownCommand (ch : Chan) (code : BitVec 16) (h : Hdr) (p : List Byte) (s : State) : Res := .next (s.postCmd ch code.toNat h p)

end Sys2Proof.Machine
end

