-- ==== Sys2Proof/Machine/Dma.lean ====
section
/-! DEFINITION. The DMA channels and the IOMMU (R161 to R168, R177). A channel moves a burst at a tick, and what is left of its descriptor at
the command that ends or suspends it. -/

namespace Sys2Proof.Machine

/-! ### The IOMMU (R161, R162) -/

/-- Why a byte cannot be translated. -/
abbrev Cause := Nat

/-- A translated byte: its target and whether its range reads without read-ahead. -/
structure Trans where
  a : Nat
  dev : Bool := false
  deriving DecidableEq, Repr

/-- The lowest-numbered entry that applies to a byte of a channel (R162). -/
def State.ioEntry (s : State) (l n a : Nat) : Option Nat :=
  (List.range 64).find? (fun i => s.on (MM_IOCFG_VALID l i) && bit (s.g (MM_IOCH_CH l i)) n &&
    decide (s.g (MM_IOVA_IOVA l i) ≤ a / 4096) && decide (a / 4096 ≤ s.g (MM_IOVA_IOVA l i) + s.g (MM_IOCFG_PAGES l i)))

/-- Is a target open to DMA in a direction (R148, R161)? The input image can only be read. -/
def dmaTarget (a : Nat) (wr : Bool) : Option Cause :=
  if !(regionOf a).dma then some 4 else if wr && regionOf a == .inImg then some 2 else none

/-- One byte of a channel translated (R161, R162). -/
def State.translate (s : State) (l n a : Nat) (wr : Bool) : Except Cause Trans :=
  if !s.on (MM_CTRL_IOEN l) then
    match dmaTarget a wr with
    | some c => .error c
    | none => .ok { a := a }
  else match s.ioEntry l n a with
    | none => .error 1
    | some i =>
      if !(if wr then s.on (MM_IOCFG_W l i) else s.on (MM_IOCFG_R l i)) then .error 2
      else
        let a' := s.g (MM_IOTGT_TGT l i) * 4096 + (a - s.g (MM_IOVA_IOVA l i) * 4096)
        match dmaTarget a' wr with
        | some c => .error c
        | none => .ok { a := a', dev := s.on (MM_IOCFG_DEV l i) }

/-! ### A channel's registers -/

/-- Its current source. -/
def State.dmSrc (s : State) (l n : Nat) : Nat := s.g (DM_SRCHI_ADDR l n) * 2 ^ 32 + s.g (DM_SRCLO_ADDR l n)

/-- Its current destination. -/
def State.dmDst (s : State) (l n : Nat) : Nat := s.g (DM_DSTHI_ADDR l n) * 2 ^ 32 + s.g (DM_DSTLO_ADDR l n)

/-- The address of the next descriptor. -/
def State.dmNext (s : State) (l n : Nat) : Nat := s.g (DM_NEXTHI_ADDR l n) * 2 ^ 32 + s.g (DM_NEXTLO_ADDR l n) * 32

/-- Source and destination set. -/
def State.setDmSrc (s : State) (l n a : Nat) : State := (s.p (DM_SRCLO_ADDR l n) a).p (DM_SRCHI_ADDR l n) (a / 2 ^ 32)
/-- Destination set. -/
def State.setDmDst (s : State) (l n a : Nat) : State := (s.p (DM_DSTLO_ADDR l n) a).p (DM_DSTHI_ADDR l n) (a / 2 ^ 32)

/-- Are the descriptor fields legal (R161, R168)? -/
def fieldsLegal (src dst len : Nat) (srcFix dstFix : Bool) : Bool :=
  len != 0 && (!(srcFix || dstFix) || (src % 4 == 0 && dst % 4 == 0 && len % 4 == 0))

/-- The fault fields of a channel: cause, side, IOVA (R164, R177). [DEDUCED: log 61] -/
def State.dmFault (s : State) (l n cause side a : Nat) : State :=
  let s := (s.p (DM_STAT_FCAUSE l n) cause).p (DM_STAT_FSIDE l n) side
  (s.p (DM_FADDRLO_ADDR l n) a).p (DM_FADDRHI_ADDR l n) (a / 2 ^ 32)

/-- A channel suspends at a fault and interrupts its pair (R164). -/
def State.dmSuspend (s : State) (l n cause side a : Nat) : State :=
  let s := ((s.dmFault l n cause side a).p (DM_STAT_FAULT l n) 1).p (DM_STAT_STATE l n) 2
  s.emit (.irq l (s.g (DM_CTRL_PAIR l n)) 0x164)

/-! ### Moving bytes -/

/-- How the next burst of a channel ends: some bytes moved, it waits for the data of a rack-bus load, or a byte faults with cause, side and
IOVA. -/
inductive Burst where
  | moved | waits
  | fault (cause side a : Nat)
  deriving DecidableEq, Repr

/-- The longest run from a target that is one access: 16 words on the rack bus (R357, R363). -/
def oneAccess (a : Nat) : Nat := if regionOf a == .rack then 64 - a % 4 else 256

/-- The length of the next burst: within a page of either side, one word where an address is fixed or the range is a device, one access of
the rack bus (R161, R162, R164, R363). -/
def burstLen (rem src dst srcA dstA : Nat) (srcFix dstFix dev : Bool) : Nat :=
  let k := if srcFix || dstFix then 4 else if dev then 4 - src % 4 else 256
  min (min (min rem k) (min (oneAccess srcA) (oneAccess dstA))) (min (4096 - src % 4096) (4096 - dst % 4096))

/-- The destination bytes of a burst: to the rack bus one access (R363), to memory byte by byte (R47, R50). -/
def State.dmaWrite (s : State) (l : Lane) (t a : Nat) (bs : List Byte) : State :=
  match regionOf a with
  | .rack => s.rackPost l (Fin.ofNat 16 t) { a := a - 0x200000000, len := bs.length, wr := some (wordsOf (padTo ((bs.length + 3) / 4 * 4) bs)) } true false
  | _ => (bs.zipIdx).foldl (fun (s : State) (e : Byte × Nat) => s.storeBytes l.val (a + e.2) [e.1]) s

/-- The place whose data a channel waits for. -/
def LaneSt.waitsFor (x : LaneSt) (n : Nat) : Option (Nat × Nat) := (x.dmaWait.find? (fun e => e.1 == n)).map (·.2)

/-- A channel waits no longer. -/
def State.dmaGot (s : State) (l n : Nat) : State := s.modLane l (fun x => { x with dmaWait := x.dmaWait.filter (fun e => e.1 != n) })

/-- The bytes of a delivered load from its first byte on. -/
def loadBytes (a n : Nat) (ws : List Word) : List Byte := (((ws.map (fun w => leBytes 4 w.toNat)).flatten).drop (a % 4)).take n

/-- May a channel's burst use the rack bus: its owner may, and the bridge is on (R161, R362, R375)? -/
def State.dmaReaches (s : State) (l t : Nat) : Bool := s.reaches l t && s.on RB_CTRL_EN

/-- The source bytes of a burst, from the rack bus by the vote of one access (R161, R362, R363): none while its data are awaited. -/
def State.dmaRead (s : State) (l : Lane) (n t a k : Nat) : State × Except Cause (Option (List Byte)) :=
  let i := l.val
  match regionOf a with
  | .inImg => (s, .ok (some ((s.lane i).img.rdN (a - 0x140000000) k)))
  | .rack =>
    if !s.dmaReaches i t then (s.dmaGot i n, .error 3)
    else
      let x := match (s.lane i).waitsFor n with
        | some w => (s, w)
        | none =>
          let place := (s.lt i t).rackPos
          let s := s.modLane i (fun x => { x with dmaWait := (n, t, place) :: x.dmaWait })
          (s.rackPost l (Fin.ofNat 16 t) { a := a - 0x200000000, len := k, wr := none } true false, (t, place))
      match x.1.loadOf x.2.1 x.2.2 with
      | none => (x.1, .ok none)
      | some [] => (x.1.dmaGot i n, .error 3)
      | some ws => (x.1.dmaGot i n, .ok (some (loadBytes a k ws)))
  | _ => (s, .ok (some ((s.lane i).mem.rdN a k)))

/-- The next burst of a channel, of at most `lim` bytes (R161, R162, R164). -/
def State.dmaBurst (s : State) (l : Lane) (n lim : Nat) : State × Burst :=
  let i := l.val
  let src := s.dmSrc i n
  let dst := s.dmDst i n
  match s.translate i n src false with
  | .error c => (s, .fault c 0 src)
  | .ok x =>
    match s.translate i n dst true with
    | .error c => (s, .fault c 1 dst)
    | .ok y =>
      let sf := s.on (DM_CTRL_SRCFIX i n)
      let df := s.on (DM_CTRL_DSTFIX i n)
      let k := burstLen (min lim (s.g (DM_LEN_LEN i n))) src dst x.a y.a sf df x.dev
      let t := s.g (DM_CTRL_OWNER i n)
      match s.dmaRead l n t x.a k with
      | (s, .error c) => (s, .fault c 0 src)
      | (s, .ok none) => (s, .waits)
      | (s, .ok (some bs)) =>
        if regionOf y.a == .rack && !s.dmaReaches i t then (s, .fault 3 1 dst)
        else
          let s := s.dmaWrite l t y.a bs
          let s := if sf then s else s.setDmSrc i n (src + k)
          let s := if df then s else s.setDmDst i n (dst + k)
          ((s.p (DM_LEN_LEN i n) (s.g (DM_LEN_LEN i n) - k)).p (DM_DONE_BYTES i n) (s.g (DM_DONE_BYTES i n) + k), .moved)

/-- A channel moves bytes until its length has fallen to `left`, one faults or it waits. -/
def State.dmaRun (l : Lane) (n left : Nat) : Nat → State → State × Burst
  | 0, s => (s, .moved)
  | fuel + 1, s =>
    let rem := s.g (DM_LEN_LEN l.val n) - left
    if rem == 0 then (s, .moved)
    else match s.dmaBurst l n rem with
      | (s, .moved) => State.dmaRun l n left fuel s
      | x => x

/-- `lim` bytes of the running descriptor moved, or as many as there are. [DEDUCED: log 61] -/
def State.dmaMove (s : State) (l : Lane) (n lim : Nat) : State × Burst :=
  let len := s.g (DM_LEN_LEN l.val n)
  State.dmaRun l n (len - lim) (min lim len) s

/-! ### Commands (R163, R165) -/

/-- A chained descriptor as its 32 bytes say (R168): source, destination, length, control, next. -/
def descOf (d : List Byte) : Nat × Nat × Nat × Nat × Nat := (leAt d 0 8, leAt d 8 8, leAt d 16 4, leAt d 20 4, leAt d 24 8)

/-- Are the fields of a chained descriptor legal (R168)? -/
def descLegal (d : List Byte) : Bool :=
  let (src, dst, len, ctrl, next) := descOf d
  decide (src < 2 ^ 40) && decide (dst < 2 ^ 40) && decide (ctrl < 16) && (!bit ctrl 2 || (decide (next < 2 ^ 40) && next % 32 == 0)) &&
  fieldsLegal src dst len (bit ctrl 0) (bit ctrl 1)

/-- The bytes of a descriptor in memory; one in the rack bus window is not read beforehand. -/
def State.descAt (s : State) (l a : Nat) : Option (List Byte) :=
  match regionOf a with
  | .inImg => some ((s.lane l).img.rdN (a - 0x140000000) 32)
  | .rack => none
  | _ => some ((s.lane l).mem.rdN a 32)

/-- What the check of a `START` finds: cause, side, IOVA (R163). Illegal fields of the channel's own registers, for which the spec gives no
side and no IOVA, are reported as of the descriptor at the source. [DEDUCED: log 61; DESIGN CHOICE: log 108] -/
def State.startCheck (s : State) (l n : Nat) : Option (Nat × Nat × Nat) :=
  let src := s.dmSrc l n
  let dst := s.dmDst l n
  if !fieldsLegal src dst (s.g (DM_LEN_LEN l n)) (s.on (DM_CTRL_SRCFIX l n)) (s.on (DM_CTRL_DSTFIX l n)) then some (5, 2, src)
  else match s.translate l n src false with
    | .error c => some (c, 0, src)
    | .ok _ => match s.translate l n dst true with
      | .error c => some (c, 1, dst)
      | .ok _ =>
        if s.on (DM_CTRL_CHAIN l n) then
          match s.translate l n (s.dmNext l n) false with
          | .error c => some (c, 2, s.dmNext l n)
          | .ok x => match s.descAt l x.a with
            | some d => if descLegal d then none else some (5, 2, s.dmNext l n)
            | none => none
        else none

/-- A write of `DM_CMDn` (R163, R165), by a core or by the Keeper: a refused `START` is an IOMMU-fault exception of the core that writes.
[DEDUCED: log 61] -/
def State.dmCmd (s : State) (l n : Nat) (v : Word) (core : Option Nat) : State :=
  let st := s.g (DM_STAT_STATE l n)
  let discard := s.laneNotice l 0x0005 n (s.word (DM_STAT_STATE l n))
  match getBits v 0 3 with
  | 0 => s
  | 1 =>
    if st == 0 || st == 3 then
      match s.startCheck l n with
      | some (c, side, a) =>
        let s := (s.dmFault l n c side a).p (DM_STAT_REFUSED l n) 1
        match core with
        | some c => s.raise l c exIommu
        | none => s
      | none => ((s.dmaGot l n).p (DM_DONE_BYTES l n) 0).p (DM_STAT_STATE l n) 1
    else discard
  | 2 => if st == 2 then (s.p (DM_STAT_FAULT l n) 0).p (DM_STAT_STATE l n) 1 else discard
  | 4 => if st == 1 || st == 2 then (s.dmaGot l n).p (DM_STAT_STATE l n) 3 else discard
  | _ => discard

/-! ### The end of a descriptor -/

/-- The next descriptor taken into the registers (R165, R168): illegal fields suspend the channel. -/
def State.loadDesc (s : State) (l n : Nat) (a : Nat) (d : List Byte) : State :=
  let (src, dst, len, ctrl, next) := descOf d
  if !descLegal d then s.dmSuspend l n 5 2 a
  else
    let irq := s.on (DM_CTRL_IRQDONE l n)
    let s := ((s.setDmSrc l n src).setDmDst l n dst).p (DM_LEN_LEN l n) len
    let s := (s.pb (DM_CTRL_SRCFIX l n) (bit ctrl 0)).pb (DM_CTRL_DSTFIX l n) (bit ctrl 1)
    let s := (s.pb (DM_CTRL_CHAIN l n) (bit ctrl 2)).pb (DM_CTRL_IRQDONE l n) (bit ctrl 3)
    let s := (s.p (DM_NEXTLO_ADDR l n) (next / 32)).p (DM_NEXTHI_ADDR l n) (next / 2 ^ 32)
    let s := s.p (DM_DONE_BYTES l n) 0
    if irq then (s.p (DM_STAT_DONE l n) 1).emit (.irq l (s.g (DM_CTRL_PAIR l n)) 0x165) else s

/-- The last byte of a descriptor is written (R165): the channel is Idle, or the next descriptor is fetched as a burst is read (R164).
[DEDUCED: log 61] -/
def State.descEnd (s : State) (l : Lane) (n : Nat) : State :=
  let i := l.val
  if s.on (DM_CTRL_CHAIN i n) then
    let a := s.dmNext i n
    match s.translate i n a false with
    | .error c => s.dmSuspend i n c 2 a
    | .ok x => match s.dmaRead l n (s.g (DM_CTRL_OWNER i n)) x.a 32 with
      | (s, .error c) => s.dmSuspend i n c 2 a
      | (s, .ok none) => s
      | (s, .ok (some d)) => s.loadDesc i n a d
  else
    let s := (s.p (DM_STAT_STATE i n) 0).p (DM_STAT_DONE i n) 1
    if s.on (DM_CTRL_IRQDONE i n) then s.emit (.irq i (s.g (DM_CTRL_PAIR i n)) 0x165) else s

/-- What a channel does with the end of a run of bursts: a fault suspends it, the last byte ends the descriptor. -/
def State.dmaAfter (l : Lane) (n : Nat) : State × Burst → State
  | (s, .fault c side a) => s.dmSuspend l.val n c side a
  | (s, .waits) => s
  | (s, .moved) => if s.g (DM_LEN_LEN l.val n) == 0 then s.descEnd l n else s

/-- `DMA_DESCRIPTOR_DONE`: a running channel writes the last byte of its descriptor (R165), unless one faults or it waits for the rack bus.
[DEDUCED: log 61] -/
def execDmaDescriptorDone (l : Lane) (n : Fin 16) (s : State) : Res :=
  let i := l.val
  let k := n.val
  if s.coresRun i && s.g (DM_STAT_STATE i k) == 1 then .next (State.dmaAfter l k (s.dmaMove l k (s.g (DM_LEN_LEN i k)))) else .next s

/-- `DMA_FAULT`: after `moved` more bytes one faults, by its translation or by an error of the target (R164). -/
def execDmaFault (l : Lane) (n : Fin 16) (moved : Nat) (side : DmaSide) (target : Bool) (s : State) : Res :=
  let i := l.val
  let k := n.val
  if s.coresRun i && s.g (DM_STAT_STATE i k) == 1 then
    match s.dmaMove l k moved with
    | (s', .fault c sd a) => .next (s'.dmSuspend i k c sd a)
    | (s', .waits) => .next s'
    | (s', .moved) =>
      let left := s'.g (DM_LEN_LEN i k)
      match side with
      | .source =>
        if left == 0 then .next s
        else if target then .next (s'.dmSuspend i k 3 0 (s'.dmSrc i k))
        else match s'.translate i k (s'.dmSrc i k) false with
          | .error c => .next (s'.dmSuspend i k c 0 (s'.dmSrc i k))
          | .ok _ => .next s
      | .dest =>
        if left == 0 then .next s
        else if target then .next (s'.dmSuspend i k 3 1 (s'.dmDst i k))
        else match s'.translate i k (s'.dmDst i k) true with
          | .error c => .next (s'.dmSuspend i k c 1 (s'.dmDst i k))
          | .ok _ => .next s
      | .descriptor =>
        if left != 0 || !s'.on (DM_CTRL_CHAIN i k) then .next s
        else if target then .next (s'.dmSuspend i k 3 2 (s'.dmNext i k))
        else match s'.translate i k (s'.dmNext i k) false with
          | .error c => .next (s'.dmSuspend i k c 2 (s'.dmNext i k))
          | .ok _ => .next s
  else .next s

/-! ### A tick (R161) -/

/-- The channels of a lane from one on, all sixteen. -/
def chansFrom (k : Nat) : List Nat := (List.range 16).map (fun n => (k + n) % 16)

/-- The first of some running channels that does not wait moves a burst. -/
def State.dmaTurn (l : Lane) : List Nat → State → State
  | [], s => s
  | n :: ns, s =>
    if s.g (DM_STAT_STATE l.val n) != 1 then State.dmaTurn l ns s
    else
      let x := if s.g (DM_LEN_LEN l.val n) == 0 then (s, .moved) else s.dmaBurst l n 128
      match x.2 with
      | .waits => State.dmaTurn l ns x.1
      | _ => (State.dmaAfter l n x).modLane l.val (fun y => { y with dmaNext := (n + 1) % 16 })

/-- Eight nanoseconds of a lane's DMA engine: the channels take turns, at most 16 GB/s in total (R161). [DESIGN CHOICE: log 2] -/
def State.dmaTick (s : State) (l : Lane) : State :=
  if s.coresRun l.val && (List.range 16).any (fun n => s.g (DM_STAT_STATE l.val n) == 1) then State.dmaTurn l (chansFrom (s.lane l.val).dmaNext) s else s

end Sys2Proof.Machine
end

