-- ==== Sys2Proof/Machine/Session.lean ====
section
/-! DEFINITION. The other rows of the mailboxes: a voting window closes (R69, R156, R362), a channel reset (R447, R459), released event
entries (R453), and the service session (R454 to R457). -/

namespace Sys2Proof.Machine

/-- `COMMAND_WINDOW_CLOSE`: the window of the oldest open vote of a task's stream closes, not before its time (R69, R143, R156, R362): late
lanes are excluded; without a majority nothing is executed. -/
def execCommandWindowClose (k : StreamKind) (t : Task) (s : State) : Res :=
  match s.closing k t with
  | none => .next s
  | some v =>
    if !s.windowOver (match v.st with
        | .task t => t.val
        | .runtime => 16) v.since (s.g VX_CTRL_CMDWIN) then .next s else
    let x := s.closeStream v
    match k, x.2 with
    | .command, .failed _ => .next (x.1.cmdFails v.posts)
    | .command, .formed w => .next ((x.1.runCmd { chans := x.1.laneChans, hdr := w.take 16, p := w.drop 16 }).endStream v)
    | .command, _ => .next (x.1.endStream v)
    | .rack, .formed w => .next (x.1.rackAct t.val v.place (reqOf w) (x.1.task t.val).cycle)
    | .rack, .failed lanes =>
      .next (lanes.foldl (fun (s' : State) (l : Nat) =>
        match v.posts.find? (fun e => e.1.val == l) with
        | some e => if (reqOf e.2).wr.isNone then s'.rackBusError l t.val v.place (reqOf e.2).a false else s'
        | none => s') x.1)
    | _, _ => .next x.1

/-- `CHANNEL_RESET`: `MB_STAT.CHRST` is written 1 (R447, R459). -/
def execChannelReset (ch : Chan) (s : State) : Res := .next (s.chanReset ch.val)

/-- A write of `MB_EVTAIL` (R453): more entries than are held are not released. -/
def State.evTail (s : State) (c tail : Nat) : State :=
  let n := (tail + 32 - s.g (MB_EVTAIL_TAIL c)) % 32
  if n ≤ s.g (MB_EVSTAT_COUNT c) then s.releaseEv c n else s.notice 0x22 0x0002 c (s.word (MB_EVSTAT_COUNT c))

/-- `EVENT_RELEASE`: a client writes `MB_EVTAIL` (R453). -/
def execEventRelease (ch : Chan) (tail : Fin 32) (s : State) : Res := .next (s.evTail ch.val tail.val)

/-! ### The service session (R454 to R457) -/

/-- Can a connection of a way in reach the Keeper: not in Dormant and Boot (R465), at an `ETH` port only with `ETHSVC` and while the
network die sends (R275, R415)? -/
def State.serves (s : State) : SvcVia → Bool
  | .svc => s.mode != mDormant && s.mode != mBoot
  | .eth _ => s.mode != mDormant && s.mode != mBoot && s.mode != mSafeHalt && s.on EN_CTRL_ETHSVC

/-- `SESSION_CONNECT`: a connection is taken, or closed at once where one is held (R454). -/
def execSessionConnect (via : SvcVia) (s : State) : Res :=
  if !s.serves via then .next s
  else if s.sess.phase != .none then .next (s.emit (.closed via))
  else .next { s with sess := { s.sess with phase := .connected, via := via, nc := [], nk := [], rxCtr := 0, txCtr := 0 } }

/-- A record that R455 does not allow closes the session with a notice. -/
def State.badRecord (s : State) : State :=
  let s := s.endSession
  s.notice 0x22 0x0004 4 (s.word (MB_STAT_STATE 4))

/-- A failed proof (R457): from the third in a row on `HELLO` is refused, each time twice as long, up to 320 s. -/
def State.failedProof (s : State) : State :=
  let s := s.endSession
  let n := s.sess.fails + 1
  let s := { s with sess := { s.sess with
    fails := n, refusing := s.sess.refusing || decide (3 ≤ n), refuseSec := if 3 ≤ n then min 320 (10 * 2 ^ (min n 9 - 3)) else 0 } }
  s.notice 0x22 0x0005 4 (s.word (MB_STAT_STATE 4))

/-- The unit key identifier of the factory area (R435). -/
def State.ukeyId (s : State) : List Byte := (s.factory.drop 28).take 8

/-- `HELLO`: answered with `CHALLENGE`, or the session closes (R455 to R457). The nonce is a free value. [DESIGN CHOICE: log 15, 31] -/
def execHello (ctr : Nat) (nc : List Byte) (cred : Byte) (s : State) : Res :=
  if s.sess.phase == .none then .next s
  else if s.sess.phase != .connected || ctr != s.sess.rxCtr then .next s.badRecord
  else if s.sess.refusing then .next s.endSession
  else if cred.toNat != (if s.g LC_STATE_LCS == 2 then 0 else 1) then .next s.failedProof
  else
    let nk := padTo 32 (Config.nonce s.free)
    let s := { s with free := s.free + 1
                      sess := { s.sess with phase := .challenged, nc := padTo 32 nc, nk := nk, cred := cred.toNat, rxCtr := ctr + 1 } }
    .next (s.sendRecord 0x02 (nk ++ s.ukeyId))

/-- What a correct `PROOF` carries (R455). -/
def State.proofMac (s : State) : List Byte :=
  padTo 32 (Config.hmac ((s.credential).getD []) (ascii "ZM-PROOF-1" ++ s.sess.nc ++ s.sess.nk ++ s.ukeyId))

/-- `PROOF`: a correct one authenticates the session, opens channel 4 and is answered with `ACCEPT` (R438, R455 to R457). -/
def execProof (ctr : Nat) (mac : List Byte) (s : State) : Res :=
  if s.sess.phase == .none then .next s
  else if s.sess.phase != .challenged || ctr != s.sess.rxCtr then .next s.badRecord
  else if (s.credential).isNone || mac != s.proofMac then .next s.failedProof
  else
    let s := { s with sess := { s.sess with phase := .authenticated, fails := 0, refuseSec := 0, rxCtr := ctr + 1 } }
    let s := (s.openChan 4 false).p (MB_STAT_AUTH 4) 1
    .next (s.sendRecord 0x04 (leBytes 2 2 ++ leBytes 1 (s.g LC_STATE_LCS) ++ leBytes 1 0))

/-- The body of a client's record of an authenticated session; none when its tag fails (R455, R456). -/
def State.openRecord (s : State) (r : SvcRecord) : Option (List Byte) :=
  Config.gcmOpen (s.sessKeys.take 32) (recNonce r.ctr)
    (recHead r.kind.toNat (leBytes 3 r.rsvd.toNat) r.ctr r.body.length) r.body r.atag

/-- A record of an authenticated client acts (R455). -/
def State.clientRecord (s : State) (kind : Nat) (body : List Byte) : State :=
  match kind with
  | 0x10 => (s.writeCmd 4 (padTo 16 body) (body.drop 16)).doorbell 4
  | 0x13 => s.chanReset 4
  | 0x15 => s.endSession
  | _ => s.badRecord

/-- `COMMAND_RECORD`: a client's record after `ACCEPT`: a `COMMAND`, a `CHRST` or a `CLOSE` (R455, R459). -/
def execCommandRecord (rec : SvcRecord) (s : State) : Res :=
  if s.sess.phase == .none then .next s
  else if s.sess.phase != .authenticated || rec.ctr != s.sess.rxCtr then .next s.badRecord
  else match s.openRecord rec with
    | none => .next s.badRecord
    | some b => .next (({ s with sess := { s.sess with rxCtr := rec.ctr + 1 } } : State).clientRecord rec.kind.toNat b)

/-- `CLOSE_RECORD`: the client closes the session, which resets channel 4 (R455, R457). [DESIGN CHOICE: log 31] -/
def execCloseRecord (ctr : Nat) (atag : List Byte) (s : State) : Res :=
  if s.sess.phase == .none then .next s
  else if ctr != s.sess.rxCtr then .next s.badRecord
  else if s.sess.phase == .authenticated then
    match s.openRecord { kind := 0x15, rsvd := 0, ctr := ctr, body := [], atag := atag } with
    | some _ => .next s.endSession
    | none => .next s.badRecord
  else .next s.endSession

/-- `AUTHENTICATION_TIMEOUT`: 5 s without authentication (R454). [DESIGN CHOICE: log 9] -/
def execAuthenticationTimeout (s : State) : Res :=
  if s.sess.phase == .connected || s.sess.phase == .challenged then .next s.endSession else .next s

/-- `SESSION_IDLE_TIMEOUT`: 60 s without a record (R457). -/
def execSessionIdleTimeout (s : State) : Res := if s.sess.phase == .authenticated then .next s.endSession else .next s

/-- `HELLO_REFUSAL_END`: the refusal period is over (R457); the count of failures stays. -/
def execHelloRefusalEnd (s : State) : Res := .next { s with sess := { s.sess with refusing := false, refuseSec := 0 } }

end Sys2Proof.Machine
end

