-- ==== Sys2Proof/Machine/RegWrite.lean ====
section
/-! DEFINITION. A write of a register in the module register space (R12, R14, R34 to R37): the registers whose write does more than set
fields, each by its block's rules, and the rest by their access codes. `VX_SUBMIT` acts in RunAhead.lean. -/

namespace Sys2Proof.Machine

/-- The index of a register in its family. -/
def regIdx (off base stride : Nat) : Nat := (off - base) / stride

/-! ### Keeper die -/

/-- A write of `SF_CTRL` (R304, R319). [DEDUCED: log 19] -/
def State.sfCtrl (s : State) (a : Nat) (v : Word) (fs : List RegFld) : State :=
  if (rwmModes a).contains s.mode && bit v.toNat 0 && s.sfIllegal then s.notice 0x17 0x0003 0 (s.word SF_CTRL_EN)
  else
    (s.plainWrite a v fs).1.sfSwitched (s.on SF_CTRL_EN)

/-- A write of `RB_WCFGsw` (R359, R366, R375). [DEDUCED: log 19] -/
def State.wcfgWrite (s : State) (a : Nat) (v : Word) (fs : List RegFld) : State :=
  let off := a % 0x10000
  let k := (off - 0x100) / 0x20
  let w := (off % 0x20 - 0x0C) / 8
  let s := (s.plainWrite a v fs).1
  let pf := s.on (RB_WCFG_PF k w)
  let rs := s.on (RB_WCFG_RS k w)
  let s := (s.pb (RB_WCFG_PFEFF k w) (pf && !rs)).pb (RB_WCFG_CONFLICT k w) (pf && rs)
  if pf && rs && (rwmModes a).contains s.mode then (s.p RB_STAT_PFCONF 1).notice 0x1E 0x0005 k (s.word (RB_WCFG_PF k w)) else s

/-- A write in a mailbox channel's page (R438 to R441, R453, R459): a client writes its command buffer, the Keeper each buffer.
[DEDUCED: log 19, 101] -/
def State.mbWrite (s : State) (a : Nat) (v : Word) (keeper : Bool) (fs : List RegFld) : State :=
  let o := a % 0x10000
  let c := o / 0x1000
  let off := o % 0x1000
  if s.variant == .zm60 && c == 3 then s
  else if off < 0xC00 then
    if keeper || (off < 0x400 && s.on (MB_STAT_EN c)) then { s with mb := s.mb.wrL o (leBytes 4 v.toNat) } else s
  else if off == 0xC00 then (if bit v.toNat 0 then s.doorbell (Fin.ofNat 7 c) else s)
  else if off == 0xC04 then
    let s := if bit v.toNat 2 then (s.p (MB_STAT_REJ c) 0).p (MB_STAT_REJST c) 0 else s
    if bit v.toNat 16 then s.chanReset c else s
  else if off == 0xC14 then s.evTail c (v.toNat % 32)
  else (s.plainWrite a v fs).1

/-- A write in one of the Keeper die's blocks. -/
def State.keeperWrite (s : State) (a : Nat) (v : Word) (fs : List RegFld) : State :=
  let p := a / 0x10000
  let off := a % 0x10000
  if p == 0x4000 && off == 0 then
    let was := s.on VX_CTRL_SPAREEN
    let x := s.plainWrite a v fs
    let on := x.1.on VX_CTRL_SPAREEN
    if x.2 && was != on then (x.1.pb VX_CTRL_SPAREEN was).writeSpare on else x.1
  else if p == 0x4001 && off == 0 then
    let was := s.on SC_CTRL_EN
    let s := (s.plainWrite a v fs).1
    if was && !s.on SC_CTRL_EN then s.scOff else s
  else if p == 0x4002 && off == 0 then s.sfCtrl a v fs
  else if p == 0x4003 && 0x100 ≤ off && off < 0x300 && (off % 0x20 == 0x0C || off % 0x20 == 0x14) then s.wcfgWrite a v fs
  else if p == 0x4004 && off == 0 then (s.plainWrite a v fs).1.chanGates
  else if p == 0x4005 && 0x100 ≤ off && off < 0x400 && off % 0x10 == 4 then s.fcForce (regIdx off 0x100 0x10) v
  else (s.plainWrite a v fs).1

/-! ### Network die -/

/-- A write in the time unit (R180, R182, R183, R187, R188, R193, R198). [DEDUCED: log 19] -/
def State.tuWrite (s : State) (a : Nat) (v : Word) (fs : List RegFld) : State :=
  let off := a % 0x10000
  if off == 0x08 then s.eranextWrite v
  else if off == 0x10 then s.incWrite v
  else if off == 0x14 then s.stepWrite v
  else if off == 0x18 then (if bit v.toNat 0 then s.snapshot else s)
  else if off == 0x28 then
    let was := s.g TU_STAT_SSTATE
    let x := s.plainWrite a v fs
    let new := x.1.g TU_STAT_SSTATE
    if x.2 then (x.1.p TU_STAT_SSTATE was).setSync new else x.1
  else if 0x100 ≤ off && off < 0x200 && off % 0x10 == 0 then s.capConfig (regIdx off 0x100 0x10) v
  else if 0x200 ≤ off && off < 0x300 && off % 0x10 == 0 then
    let n := regIdx off 0x200 0x10
    let s := (s.plainWrite a v fs).1
    if s.on (TU_TRGCFG_EN n) then s
    else { s.p (TU_TRGSTAT_ARMED n) 0 with tu := { s.tu with trigNext := tabSet (fun _ => none) s.tu.trigNext n none } }
  else if 0x200 ≤ off && off < 0x300 && off % 0x10 == 4 then s.trgWrite (regIdx off 0x200 0x10) v
  else (s.plainWrite a v fs).1

/-- A write in a ring controller's block (R227, R229, R263): while `EN` is 1 only `EN` and the W1C bits take a write. [DEDUCED: log 18] -/
def State.bzWrite (s : State) (r a : Nat) (v : Word) (fs : List RegFld) : State :=
  let off := a % 0x10000
  let held := s.on (BZ_CTRL_EN r)
  if held && off == 0 then
    let s := if mergeFlds true (s.regs.rd a) v fs ||| 1 == s.regs.rd a ||| 1 then s else s.notice (0x18 + r) 0x0005 (r + 1) (s.regs.rd a)
    if bit v.toNat 0 then s else (s.disableRing r).afterLoss s
  else if held && fs.any (fun f => f.acc == .rw) then s.notice (0x18 + r) 0x0005 (r + 1) (s.regs.rd a)
  else if off == 0 then
    let x := s.plainWrite a (putBits v 0 1 0) fs
    if x.2 && bit v.toNat 0 then x.1.enableRing r else x.1
  else (s.plainWrite a v fs).1

/-- A write in the switch's block: `VALID` written to 1 clears a subscription's history of `SEQ` (R273, R277), and the clock's role follows its
configuration (R267). -/
def State.enWrite (s : State) (a : Nat) (v : Word) (fs : List RegFld) : State :=
  let off := a % 0x10000
  let x := s.plainWrite a v fs
  if 0x2000 ≤ off && off < 0x2800 && off % 0x10 == 4 && x.2 && (rwmModes a).contains s.mode && bit v.toNat 15 then
    let k := regIdx off 0x2000 0x10
    let sub : SubSt := tabGet (fun _ => {}) x.1.eth.subs k
    let subs := tabSet (fun _ => {}) x.1.eth.subs k { sub with seq := none }
    { x.1 with eth := { x.1.eth with subs := subs } }
  else if off == 4 || off == 8 then x.1.ptpChoose
  else x.1

/-- A write in one of the network die's blocks. -/
def State.networkWrite (s : State) (a : Nat) (v : Word) (fs : List RegFld) : State :=
  let p := a / 0x10000
  if p == 0x5000 then s.tuWrite a v fs
  else if p == 0x5001 then s.bzWrite 0 a v fs
  else if p == 0x5002 then s.bzWrite 1 a v fs
  else if p == 0x5003 then s.enWrite a v fs
  else (s.plainWrite a v fs).1

/-! ### Field die -/

/-- A write in one of the field die's blocks (R324, R336, R341). -/
def State.fieldWrite (s : State) (a : Nat) (v : Word) (fs : List RegFld) : State :=
  let p := a / 0x10000
  let off := a % 0x10000
  if p == 0x6000 && off == 0x0C then s.release v
  else if p == 0x6000 && 0x40 ≤ off && off < 0x80 then
    let x := s.plainWrite a v fs
    if x.2 && (rwmModes a).contains s.mode then x.1.setTop (regIdx off 0x40 4 + 1) (v.toNat % 256) else x.1
  else if p == 0x6000 then (s.plainWrite a v fs).1.driveOutputs
  else if 0x40 ≤ off && off < 0x100 && off % 0x20 == 0 then
    let n := regIdx off 0x40 0x20 + 1
    let was := s.g (AN_CFG_MODE n)
    let s := (s.plainWrite a v fs).1
    let new := s.g (AN_CFG_MODE n)
    ((s.p (AN_CFG_MODE n) was).aioMode n new).effAlarm n
  else (s.plainWrite a v fs).1

/-! ### Lane dies -/

/-- A write in a lane's run-ahead block through the module space (R147). -/
def State.raWrite (s : State) (l a : Nat) (v : Word) (fs : List RegFld) : State :=
  let off := a % 0x10000
  let task : Option Nat :=
    if 0x40 ≤ off && off < 0x80 then some (regIdx off 0x40 4)
    else if 0xC0 ≤ off && off < 0x140 then some (regIdx off 0xC0 8)
    else none
  match task with
  | some n =>
    if s.g (RA_CTX_STATE l n) != 0 then s.laneNotice l 0x0007 n (s.word (RA_CTX_STATE l n)) else (s.plainWrite a v fs).1
  | none =>
    let was := s.on (RA_CTRL_EN l)
    let s := (s.plainWrite a v fs).1
    if was && !s.on (RA_CTRL_EN l) then s.dropLaneCtx l else s

/-- A write in one of a lane's blocks. `core` says that it comes through the lane view, where only `PX_DISPp` and `RA_PAIRCTXp` of their
blocks are writable (R92, R147). -/
def State.laneWrite (s : State) (l a : Nat) (v : Word) (core : Bool) (fs : List RegFld) : State :=
  let q := a / 0x10000 % 0x100
  let off := a % 0x10000
  if q == 0 then
    if 0x50 ≤ off && off < 0x60 then s.dispWrite l 4 (regIdx off 0x50 4) v
    else if core then s.laneNotice l 0x0002 0 (s.regs.rd a)
    else if off == 0x04 then s.pxCmd l v
    else if off == 0x20 then s.pxForce l v
    else (s.plainWrite a v fs).1
  else if q == 1 then
    if 0x10 ≤ off && off < 0x20 then s.pairCtx l (regIdx off 0x10 4) v
    else if core then s.laneNotice l 0x0002 0 (s.regs.rd a)
    else s.raWrite l a v fs
  else if q == 2 then
    if off == 0 then s.sdCtrl l v
    else if 0x100 ≤ off && s.on (SD_CTRL_EN l) then
      let s := s.p (SD_STAT_RUNERR l) 1
      s.laneNotice l 0x0003 0 (s.word (SD_STAT_RUNERR l))
    else (s.plainWrite a v fs).1
  else if q == 4 && off < 0x400 then
    let n := off / 0x40
    if off % 0x40 == 0x24 then s.dmCmd l n v none
    else if (s.g (DM_STAT_STATE l n) == 1 || s.g (DM_STAT_STATE l n) == 2) then
      s.laneNotice l 0x0005 n (s.word (DM_STAT_STATE l n))
    else (s.plainWrite a v fs).1
  else (s.plainWrite a v fs).1

/-! ### The whole space -/

/-- A word written to a mapped register address. An offset that its block's table does not list ignores the write; so does the lane D
window of the ZM60-E4 (R37). -/
def State.regWrite (s : State) (a : Nat) (v : Word) (core : Bool) : State :=
  let p := a / 0x10000
  if s.variant == .zm60 && p / 0x100 == 0x73 then s
  else if p == 0x4008 then
    if 0x7000 ≤ a % 0x10000 then s
    else if a % 0x1000 < 0xC00 then s.mbWrite a v (!core) []
    else match regFlds a with
      | none => s
      | some fs => s.mbWrite a v (!core) fs
  else match regFlds a with
    | none => s
    | some fs =>
      if p < 0x5000 then s.keeperWrite a v fs
      else if p < 0x6000 then s.networkWrite a v fs
      else if p < 0x7000 then s.fieldWrite a v fs
      else s.laneWrite (p / 0x100 - 0x70) a v core fs

/-- `DI_TOP_WRITE`: a write of `FD_DICFGn` (R324), a register of RWM fields (R12, R339). -/
def execDiTopWrite (n : Fin 16) (v : Word) (s : State) : Res := .next (s.regWrite (0x60000040 + 4 * n.val) v false)

end Sys2Proof.Machine
end

