-- ==== Sys2Proof/Machine/RunAhead.lean ====
section
/-! DEFINITION. A lane at work on its tasks: what each access of a core does, outside and inside speculation (R131 to R134, R148 to R151),
and when it waits or ends the work (R52, R85, R135, R152); submission and the opening of a context (R46, R126, R127, R129, R130), image
delivery (R45), the verdict, commit and rollback (R137 to R141), and the register writes of every initiator (R11, R12, R36). -/

namespace Sys2Proof.Machine

/-! ### Where an access goes -/

/-- The module-space address of a lane-view register address: the lane's own blocks, its own mailbox channel (R34, R35). -/
def viewAddr (l a : Nat) : Nat :=
  if regionOf a == .ctrl then laneBase l + (a - 0x180000000) else 0x40080000 + 0x1000 * l + (a - 0x190000000)

/-- The lane-view address of `VX_SUBMIT` (R71). -/
def submitAddr : Nat := 0x180060004

/-- Is a lane-view address in the run-ahead block, and is it `RA_PAIRCTXp` (R147)? -/
def inRa (a : Nat) : Bool := decide (0x180010000 ≤ a) && decide (a < 0x180020000)
/-- `RA_PAIRCTXp` (R147). -/
def isPairCtx (a : Nat) : Bool := decide (0x180010010 ≤ a) && decide (a < 0x180010020)
/-- `PX_DISPp` (R92). -/
def isDisp (a : Nat) : Bool := decide (0x180000050 ≤ a) && decide (a < 0x180000060)
/-- The channel whose `DM_CMDn` an address is (R177). -/
def dmCmdOf (a : Nat) : Option Nat :=
  if 0x180040000 ≤ a && a < 0x180040400 && a % 0x40 == 0x24 then some ((a - 0x180040000) / 0x40) else none

/-- Is an address in a task's scratch window (R132)? -/
def State.inScratch (s : State) (l t a : Nat) : Bool :=
  decide (s.g (RA_SCRBASE_BASE l t) ≤ a / 4096) && decide (a / 4096 < s.g (RA_SCRBASE_BASE l t) + s.g (RA_SCRSIZE_PAGES l t))

/-- A store done word by word: one that crosses an 8-byte boundary is two. -/
def State.byWords (s : State) (f : State → Nat → List Byte → State) (a : Nat) (bs : List Byte) : State :=
  let n := 8 - a % 8
  if bs.length ≤ n then f s a bs else f (f s a (bs.take n)) (a + n) (bs.drop n)

/-- The byte mask and the value of a store within its word. -/
def inWord (a : Nat) (bs : List Byte) : Nat × BitVec 64 :=
  ((2 ^ bs.length - 1) * 2 ^ (a % 8), BitVec.ofNat 64 (leNat bs * 256 ^ (a % 8)))

/-- The bytes at an address of a memory seen as 8-byte words. -/
def wordBytes (word : Nat → BitVec 64) (a n : Nat) : List Byte :=
  (List.range n).map (fun i => BitVec.ofNat 8 ((word ((a + i) / 8)).toNat / 256 ^ ((a + i) % 8)))

/-- An 8-byte word of an image. -/
def imgWord (m : Mem) (w : Nat) : BitVec 64 := BitVec.ofNat 64 (leNat (m.rdN (8 * w) 8))

/-- A load gives its bytes to the core. -/
def State.give (s : State) (l c a : Nat) (bs : List Byte) : State := s.emit (.loaded l c a bs)

/-- The retained stream of a core's store: its task's, or the runtime's own (R155). -/
def retStream : Option Nat → RetStream
  | some t => .task (Fin.ofNat 16 t)
  | none => .runtime

/-- How an access ends: done; before it the context stalls; a fault that ends the work. -/
inductive OpEnd where
  | done | stalls | ends
  deriving DecidableEq, Repr

/-- A fault of the MMU that an access of a core meets (R135, R151, R152): held while its task speculates, else taken. -/
def State.meetFault (s : State) (l c : Nat) (t : Option Nat) (spec : Bool) (op : CoreOp) (m : MmuRec) : State × OpEnd :=
  match t, spec with
  | some t, true => (s.holdCtx l t [op], .stalls)
  | _, _ => (s.mmuFault l c t m, .ends)

/-! ### The end of a cycle (R46, R71, R99, R100, R127) -/

/-- Is a lane at work on a task: it is Voting or Spare, its cores run, no fault has halted the pair? [DEDUCED: log 104] -/
def State.worksOn (s : State) (l t : Nat) : Bool :=
  s.liveLanes.contains l && s.coresRun l && !(s.lane l).halted.contains (s.desc t).pair

/-! ### Prediction (R129, R130) -/

/-- A word as lanes of `n` bits, lowest first. -/
def splitLanes (n : Nat) (v : Nat) : Nat → List Nat
  | 0 => []
  | k + 1 => v % 2 ^ n :: splitLanes n (v / 2 ^ n) k

/-- Lanes of `n` bits joined into a word. -/
def joinLanes (n : Nat) : List Nat → Nat
  | [] => 0
  | x :: xs => x % 2 ^ n + 2 ^ n * joinLanes n xs

/-- The bits of a lane of a prediction entry. -/
def laneBits (width : Nat) : Nat := if width == 0 then 64 else if width == 1 then 32 else 16

/-- The value that an entry predicts from v(n) and v(n − 1) (R130). -/
def predict (rule width : Nat) (k : Word) (v old : BitVec 64) : BitVec 64 :=
  let b := laneBits width
  let m := 64 / b
  let add : Nat := if width == 0 then u64 (sint32 k.toNat) else k.toNat % 2 ^ b
  let xs := splitLanes b v.toNat m
  let ys := splitLanes b old.toNat m
  let zs := (xs.zip ys).map (fun e => if rule == 0 then (e.1 + add) % 2 ^ b else (2 * e.1 + 2 ^ b - e.2) % 2 ^ b)
  BitVec.ofNat 64 (joinLanes b zs)
where
  /-- A signed number modulo 2^64. -/
  u64 (v : Int) : Nat := (v % 2 ^ 64).toNat

/-- The predicted header words of a task (R129). -/
def headPredict (m : Mem) (t period : Nat) : List (Nat × BitVec 64) :=
  let h i := imgWord m (8 * t + i)
  [(8 * t, h 0 + 1), (8 * t + 1, h 1 + BitVec.ofNat 64 period), (8 * t + 2, h 2 + BitVec.ofNat 64 period),
   (8 * t + 3, h 3 &&& 0xFFFF00000000FDFF)]

/-- Every word whose predicted value may differ from image n (R129). Of two entries for one word the lower decides.
[DEDUCED: log 20; DESIGN CHOICE: log 22] -/
def State.predicted (s : State) (l t : Nat) : Tab (BitVec 64) :=
  let x := s.lane l
  let r := s.inRangeOf t
  let entries := (List.range 256).reverse.filter (fun e => s.on (RA_PTAB_VALID l e) &&
    decide (r.1 ≤ 8 * s.g (RA_PTAB_WORD l e)) && decide (8 * s.g (RA_PTAB_WORD l e) < r.1 + r.2))
  let p := entries.foldl (fun (p : Tab (BitVec 64)) e =>
    let w := s.g (RA_PTAB_WORD l e)
    tabIns p w (predict (s.g (RA_PTAB_RULE l e)) (s.g (RA_PTAB_WIDTH l e)) (BitVec.ofNat 32 (s.g (RA_PK_K l e))) (imgWord x.img w) (imgWord x.imgPrev w))) []
  (headPredict x.img t (s.desc t).periodNs).foldl (fun (p : Tab (BitVec 64)) (e : Nat × BitVec 64) => tabIns p e.1 e.2) p

/-- Does a lane speculate on a task (R126)? -/
def State.maySpeculate (s : State) (l t : Nat) : Bool :=
  (s.desc t).runahead && bit (s.g (RA_TASKEN_EN l)) t && s.g (RA_LOG_SIZE l t) != 0 && s.on (RA_CTRL_EN l) && !s.on (RA_CTRL_INHIBIT l) &&
  (s.laneSt l == laVoting || s.laneSt l == laSpare)

/-- The context of a task's next cycle opens (R127). [DESIGN CHOICE: log 33] -/
def State.openCtx (s : State) (l t : Nat) : State :=
  let p := s.predicted l t
  ((s.modCtx l t (fun _ => { cycle := (s.lt l t).cycle + 1, predicted := p })).p (RA_CTX_STATE l t) csRunning).ctxClock l t

/-- A `VX_SUBMIT` write that is performed: the submission goes to the vote and the next context opens. [DESIGN CHOICE: log 21] -/
def State.submitNow (s : State) (l : Lane) (t : Nat) : State :=
  let i := l.val
  let cycle := (s.lt i t).cycle
  let u := s.submission i t
  let s := (s.submitted i t u).arriveSub l (Fin.ofNat 16 t) cycle u
  if s.maySpeculate i t && s.running then s.openCtx i t else s

/-- A write of `VX_SUBMIT` while a submission is being sent is discarded (R71). -/
def State.rejectSubmit (s : State) (l : Nat) : State :=
  let s := s.p (VX_SUBSTAT_REJECT l) 1
  s.notice 0x10 0x0001 l (s.word (VX_SUBSTAT_BUSY l))

/-- The write of `VX_SUBMIT` for a task outside speculation: a submission, or with `abandon` none (R46, R71, R100). -/
def State.endTask (s : State) (l : Lane) (t : Nat) (abandon : Bool) : State :=
  let i := l.val
  if s.on (VX_SUBSTAT_BUSY i) then s.rejectSubmit i
  else if s.g (RA_CTX_STATE i t) == csIdle && (s.lt i t).phase == .executing then
    if abandon then s.abandonCycle i t else s.submitNow l t
  else s

/-! ### Accesses outside speculation -/

/-- The word of `TU_SHSTAT` that a read of `TU_SHNS` latches (R185). -/
def Shadow.stat (x : Shadow) : Nat := x.frac + (if x.disc then 0x10000 else 0) + (if x.hold then 0x20000 else 0)

/-- A load of the shadow time page (R185). -/
def State.shadowLoad (s : State) (l c a n : Nat) : State :=
  let s := if a / 4 * 4 == 0x1A0000000 then s.modLane l (fun x => { x with shadow := { x.shadow with shstat := x.shadow.stat } }) else s
  let x := (s.lane l).shadow
  s.give l c a (wordBytes (fun w => if w == 0x34000000 then BitVec.ofNat 64 (x.ns % 2 ^ 32 + x.shstat * 2 ^ 32) else 0) a n)

/-- A load outside speculation (R148, R157, R362): one from the rack bus window is posted to the vote, and the core stalls until its data are
there. -/
def State.directLoad (s : State) (l : Lane) (t : Option Nat) (c : Nat) (sup odd : Bool) (a n : Nat) : State :=
  let i := l.val
  let x := s.lane i
  match regionOf a with
  | .dram | .tcm | .outImg => s.give i c a (x.mem.rdN a n)
  | .inImg => s.give i c a (x.img.rdN (a - 0x140000000) n)
  | .ctrl | .mbox => s.give i c a (leBytes n (s.regView (viewAddr i a)).toNat)
  | .shadowTime => s.shadowLoad i c a n
  | .retained => s.give i c a (wordBytes (fun w => s.retRead i (8 * w % 0x1000000)) a n)
  | .rack => match t with
    | some t =>
      if s.reaches i t then
        let place := (s.lt i t).rackPos
        let s := s.modLane i (fun x => { x with rackWait := (c, t, place) :: x.rackWait })
        let s := s.rackPost l (Fin.ofNat 16 t) { a := a - 0x200000000, len := n, wr := none } sup odd
        if (s.loadOf t place).isSome then s.endWait i t place else s
      else s
    | none => s
  | .none => s

/-- A store in the control registers or the mailbox window (R34, R35): `PX_DISPp`, `DM_CMDn` and `VX_SUBMIT` act for the core that writes. -/
def State.regStore (s : State) (l : Lane) (c a : Nat) (v : Word) : State :=
  let i := l.val
  if isPairCtx a then s.pairCtx i ((a - 0x180010010) / 4) v
  else if isDisp a then s.dispWrite i (c / 2) ((a - 0x180000050) / 4) v
  else if a == submitAddr then s.endTask l (getBits v 0 4) (bit v.toNat 4)
  else match dmCmdOf a with
    | some n => s.dmCmd i n v (some c)
    | none => s.regWrite (viewAddr i a) v true

/-- A store outside speculation, into whatever region holds its address. -/
def State.directStore (s : State) (l : Lane) (t : Option Nat) (c : Nat) (sup odd : Bool) (a : Nat) (bs : List Byte) : State :=
  match regionOf a with
  | .dram | .tcm | .outImg => s.byWords (fun s a bs => s.storeBytes l.val a bs) a bs
  | .ctrl | .mbox => s.regStore l c a (BitVec.ofNat 32 (leNat bs))
  | .retained => s.byWords (fun s a bs => s.retStore l (retStream t) (a - 0x1C0000000) (inWord a bs).1 (inWord a bs).2) a bs
  | .rack => match t with
    | some t =>
      if s.reaches l.val t then
        s.rackPost l (Fin.ofNat 16 t) { a := a - 0x200000000, len := bs.length, wr := some (wordsOf (padTo ((bs.length + 3) / 4 * 4) bs)) } sup odd
      else s
    | none => s
  | _ => s

/-! ### Accesses inside speculation (R131 to R134) -/

/-- A store enters the write log (R133), or stalls before it on a full partition (R144). -/
def State.logStore (s : State) (l t : Nat) (op : CoreOp) (a : Nat) (bs : List Byte) : State :=
  let c := s.ctx l t
  let w := a / 8
  let new := mergeBytes (tabGet (fun k => (s.lane l).word k) c.log w) (a % 8) bs
  if !c.log.any (fun e => e.1 == w) && decide (s.g (RA_LOG_SIZE l t) * 512 ≤ c.log.length) then
    ((s.stallCtx l t [op]).p (RA_CTX_OVF l t) 1).inc (RA_OVF_COUNT l t)
  else
    let log := tabIns c.log w new
    (s.modCtx l t (fun c => { c with log := log })).p (RA_CTX_USED l t) log.length

/-- A write deferred to the commit: its word, byte mask and value (R134). -/
def State.deferStore (s : State) (l t : Nat) (op : CoreOp) (a : Nat) (bs : List Byte) : State :=
  s.deferWrite l t (a / 8 * 8) (inWord a bs).1 (inWord a bs).2 op

/-- The predicted image as a context's loads see it (R129). -/
def State.specImg (s : State) (l t w : Nat) : BitVec 64 := tabGet (fun k => imgWord (s.lane l).img k) (s.ctx l t).predicted w

/-- The 8-byte words that some bytes lie in. -/
def wordsAt (a n : Nat) : List Nat := (List.range n).map (fun i => (a + i) / 8) |>.eraseDups

/-- A load of a speculating context (R129, R131, R132). -/
def State.specLoad (s : State) (l t c : Nat) (op : CoreOp) (a n : Nat) : State × OpEnd :=
  let stall : State × OpEnd := (s.stallCtx l t [op], .stalls)
  match regionOf a with
  | .inImg =>
    let ws := wordsAt (a - 0x140000000) n
    let s := s.modCtx l t (fun c => { c with reads := (ws.filter (fun w => !c.reads.contains w)) ++ c.reads })
    (s.give l c a (wordBytes (s.specImg l t) (a - 0x140000000) n), .done)
  | .ctrl => if inRa a then (s.give l c a (leBytes n (s.regView (viewAddr l a)).toNat), .done) else stall
  | .mbox | .rack => stall
  | .dram | .tcm | .outImg => (s.give l c a (wordBytes (fun w => tabGet (fun k => (s.lane l).word k) (s.ctx l t).log w) a n), .done)
  | .retained => (s.give l c a (wordBytes (fun w => s.specRetRead l t (8 * w % 0x1000000)) a n), .done)
  | .shadowTime => (s.shadowLoad l c a n, .done)
  | .none => (s, .done)

/-- The retained words that a context has queued writes for. -/
def SpecCtx.retWords (c : SpecCtx) : List Nat :=
  c.dq.filterMap (fun e => if regionOf e.1 == .retained then some (e.1 - 0x1C0000000) else none)

/-- The first byte that a deferral entry writes and the number of its bytes. -/
def maskSpan (mask : Nat) : Nat × Nat :=
  (((List.range 8).find? (bit mask)).getD 0, ((List.range 8).filter (bit mask)).length)

/-- What a `DM_` register will hold when the queue has drained: the check of a deferred `START` sees the writes queued before it (R132,
R134). -/
def State.dmQueued (s : State) (l t : Nat) : State :=
  (s.ctx l t).dq.foldl (fun (s : State) (e : Nat × Nat × BitVec 64) =>
    let a := e.1 + (maskSpan e.2.1).1
    if 0x180040000 ≤ a && a < 0x180040400 && (dmCmdOf a).isNone then
      s.regWrite (viewAddr l a) (BitVec.ofNat 32 (e.2.2.toNat / 256 ^ (maskSpan e.2.1).1)) true else s) s

/-- A store of a speculating context (R132 to R135). -/
def State.specStore (s : State) (l t c : Nat) (sup : Bool) (op : CoreOp) (a : Nat) (bs : List Byte) : State × OpEnd :=
  let stopped (s : State) : State × OpEnd := (s, if s.g (RA_CTX_STATE l t) == csStalled then .stalls else .done)
  match regionOf a with
  | .dram | .tcm =>
    if s.inScratch l t a then (s.byWords (fun s a bs => s.storeBytes l a bs) a bs, .done)
    else stopped (s.byWords (fun s a bs => s.logStore l t op a bs) a bs)
  | .outImg => stopped (s.byWords (fun s a bs => s.logStore l t op a bs) a bs)
  | .ctrl =>
    if isPairCtx a then (s.pairCtx l ((a - 0x180010010) / 4) (BitVec.ofNat 32 (leNat bs)), .done)
    else if a == submitAddr then (s.stallCtx l t [op], .stalls)
    else match dmCmdOf a with
      | some n =>
        let q := s.dmQueued l t
        let st := q.g (DM_STAT_STATE l n)
        if leNat bs % 8 == 1 && (st == 0 || st == 3) && (q.startCheck l n).isSome then (s.holdCtx l t [op], .stalls)
        else stopped (s.deferStore l t op a bs)
      | none => stopped (s.deferStore l t op a bs)
  | .retained =>
    if s.retOver l (.task (Fin.ofNat 16 t)) (a - 0x1C0000000) (s.ctx l t).retWords then
      s.meetFault l c (some t) true op { cause := 6, access := 1, sup := sup, a := a }
    else stopped (s.byWords (fun s a bs => s.deferStore l t op a bs) a bs)
  | .mbox | .rack => stopped (s.byWords (fun s a bs => s.deferStore l t op a bs) a bs)
  | _ => (s, .done)

/-! ### One access -/

/-- An access of a core on behalf of a task, or of the runtime outside any task: checked by the MMU, then speculative or not (R132, R148 to
R151, R155). A context that stalls, commits or rolls back makes none. [DESIGN CHOICE: log 10] -/
def State.access (s : State) (l : Lane) (t : Option Nat) (c : Nat) (op : CoreOp) : State × OpEnd :=
  let i := l.val
  let spec := match t with
    | some t => s.speculates i t
    | none => false
  let idle := match t with
    | some t => s.g (RA_CTX_STATE i t) == csIdle
    | none => true
  if !spec && !idle then (s, .done)
  else match op with
  | .submit ab => match t with
    | some t => if spec then (s.stallCtx i t [op], .stalls) else (s.endTask l t ab, .done)
    | none => (s, .done)
  | .trap _ _ => match t, spec with
    | some t, true => (s.holdCtx i t [op], .stalls)
    | _, _ => (s.raise i c exTrap, .done)
  | .fetch sup _ a n => match s.mmuCheck i (c / 2) a n .fetch sup with
    | some (k, e) => s.meetFault i c t spec op { cause := k, access := 2, sup := sup, a := a, entry := e }
    | none => (s, .done)
  | .load sup odd a n => match s.mmuCheck i (c / 2) a n .load sup with
    | some (k, e) => s.meetFault i c t spec op { cause := k, access := 0, sup := sup, a := a, entry := e }
    | none => if spec then s.specLoad i (t.getD 0) c op a n else (s.directLoad l t c sup odd a n, .done)
  | .store sup odd a bs => match s.mmuCheck i (c / 2) a bs.length .store sup with
    | some (k, e) => s.meetFault i c t spec op { cause := k, access := 1, sup := sup, a := a, entry := e }
    | none =>
      if spec then s.specStore i (t.getD 0) c sup op a bs
      else if regionOf a == .retained && s.retOver i (retStream t) (a - 0x1C0000000) [] then
        s.meetFault i c t false op { cause := 6, access := 1, sup := sup, a := a }
      else (s.directStore l t c sup odd a bs, .done)

/-! ### The accesses of a task in order -/

/-- Does a core stall before an access (R52, R83 to R85, R362): a sequence runs on its pair, a dispatch or a load of its own is not done, an
earlier access of it waits, or a store meets a window whose digest scan runs? -/
def State.mustWait (s : State) (l c : Nat) (spec : Bool) (op : CoreOp) : Bool :=
  let x := s.lane l
  x.stalledPairs.contains (c / 2) || s.pairMode l (c / 2) == 1 || s.pairMode l (c / 2) == 3 || x.rackWait.any (fun e => e.1 == c) ||
  (match op with
    | .store _ _ a _ => !spec && s.scanHolds l a
    | _ => false)

/-- The core of a task's access. -/
def State.opCore (s : State) (t : Nat) : CoreOp → Nat
  | .load _ odd _ _ | .store _ odd _ _ | .fetch _ odd _ _ | .trap _ odd => s.taskCore t odd
  | .submit _ => s.taskCore t false

/-- The accesses of a task's code in order: what meets a stalled core waits with all that follows, what stalls the context waits for the
verdict with all that follows, and a fault ends the work. [DEDUCED: log 104; DESIGN CHOICE: log 10] -/
def State.work (s : State) (l : Lane) (t : Nat) : List CoreOp → State
  | [] => s
  | op :: ops =>
    let c := s.opCore t op
    if !s.worksOn l.val t then s
    else if (s.lane l.val).waitOps.any (fun e => e.2.1 == c) || s.mustWait l.val c (s.speculates l.val t) op then
      s.modLane l.val (fun x => { x with waitOps := x.waitOps ++ (op :: ops).map (fun o => (some t, c, o)) })
    else match s.access l (some t) c op with
      | (s, .done) => State.work s l t ops
      | (s, .stalls) => s.modCtx l.val t (fun k => { k with stalled := k.stalled ++ ops })
      | (s, .ends) => s

/-- The accesses of stalled cores that can go on; `drop` names the cores whose work a fault has ended, `held` those that still stall. -/
def State.resumeOps (l : Lane) : List (Option Nat × Nat × CoreOp) → List Nat → List Nat → State → State
  | [], _, _, s => s
  | (t, c, op) :: ws, drop, held, s =>
    let i := l.val
    let spec := match t with
      | some t => s.speculates i t
      | none => false
    if drop.contains c || !s.coresRun i || (s.lane i).halted.contains (c / 2) then State.resumeOps l ws drop held s
    else if held.contains c || s.mustWait i c spec op then
      State.resumeOps l ws drop (c :: held) (s.modLane i (fun x => { x with waitOps := x.waitOps ++ [(t, c, op)] }))
    else match s.access l t c op with
      | (s, .done) => State.resumeOps l ws drop held s
      | (s, .stalls) => State.resumeOps l ws drop held s
      | (s, .ends) => State.resumeOps l ws (c :: drop) held s

/-- The accesses that wait in a lane are tried again. -/
def State.retryOps (s : State) (l : Lane) : State :=
  match (s.lane l.val).waitOps with
  | [] => s
  | ws => State.resumeOps l ws [] [] (s.modLane l.val (fun x => { x with waitOps := [] }))

/-- The accesses that wait in every lane are tried again. -/
def State.retryAll (s : State) : State := ([0, 1, 2, 3] : List Lane).foldl State.retryOps s

/-- `SUBMIT`: after the work of its cycle the runtime writes a task's number to `VX_SUBMIT` (R46). [DESIGN CHOICE: log 102] -/
def execSubmit (l : Lane) (t : Task) (work : List CoreOp) (s : State) : Res := .next (s.work l t.val (work ++ [.submit false]))

/-- `ABANDON`: the write has `ABANDON` set (R71, R100). -/
def execAbandon (l : Lane) (t : Task) (work : List CoreOp) (s : State) : Res := .next (s.work l t.val (work ++ [.submit true]))

/-- `MMU_FAULT`: an access of a core that the MMU does not permit, on behalf of the task that its pair runs (R135, R150 to R152). [DEDUCED: log
60] -/
def execMmuFault (l : Lane) (c : Core) (a : Nat) (acc : AccessKind) (sup : Bool) (size : Nat) (s : State) : Res :=
  let i := l.val
  let odd := c.val % 2 == 1
  let op : CoreOp := match acc with
    | .load => .load sup odd a size
    | .store => .store sup odd a (List.replicate size 0)
    | .fetch => .fetch sup odd a size
  if s.pairRuns i (c.val / 2) && (s.mmuCheck i (c.val / 2) a size acc sup).isSome then .next (s.access l (s.pairTask i (c.val / 2)) c.val op).1
  else .next s

/-- `RETAINED_STORE`: a lane's store to retained memory (R132, R155, R156). -/
def execRetainedStore (l : Lane) (st : RetStream) (a : Nat) (mask : BitVec 8) (v : BitVec 64) (s : State) : Res :=
  let i := l.val
  let w := a % 0x1000000 / 8 * 8
  match st with
  | .runtime =>
    if !s.liveLanes.contains i || !s.pairRuns i 0 then .next s
    else if s.retOver i st w [] then .next (s.mmuFault i 0 none { cause := 6, access := 1, sup := true, a := 0x1C0000000 + w })
    else .next (s.retStore l st w mask.toNat v)
  | .task t =>
    let c := s.taskCore t.val false
    if !s.worksOn i t.val || !s.pairRuns i (c / 2) then .next s
    else if s.speculates i t.val then
      let whole := maskMerge (s.specRetRead i t.val w) v mask.toNat
      let op : CoreOp := .store false false (0x1C0000000 + w) (leBytes 8 whole.toNat)
      if s.retOver i st w (s.ctx i t.val).retWords then .next (s.holdCtx i t.val [op])
      else .next (s.deferWrite i t.val (0x1C0000000 + w) mask.toNat v op)
    else if s.g (RA_CTX_STATE i t.val) != csIdle then .next s
    else if s.retOver i st w [] then .next (s.mmuFault i c (some t.val) { cause := 6, access := 1, sup := false, a := 0x1C0000000 + w })
    else .next (s.retStore l st w mask.toNat v)

/-- The bytes of a rack access's first byte on. -/
def RackReq.bytes (q : RackReq) : List Byte := ((q.wr.getD []).flatMap (fun w => leBytes 4 w.toNat)).take q.len

/-- An access split into pieces of up to 8 bytes within a word, as the deferral queue takes them (R134). -/
def piecesOf : Nat → Nat → List Byte → List (Nat × List Byte)
  | 0, _, _ => []
  | f + 1, a, bs =>
    if bs.isEmpty then []
    else
      let n := 8 - a % 8
      (a, bs.take n) :: piecesOf f (a + n) (bs.drop n)

/-- `RACK_ACCESS`: a lane posts an access to the rack bus (R362); of a speculating task a store is deferred and a load stalls (R132).
[DESIGN CHOICE: log 23] -/
def execRackAccess (l : Lane) (t : Task) (acc : RackReq) (s : State) : Res :=
  let i := l.val
  if !s.worksOn i t.val || !s.pairRuns i (s.desc t.val).pair || !s.reaches i t.val then .next s
  else if s.speculates i t.val then
    match acc.wr with
    | some ws =>
      .next ((piecesOf (ws.length + 1) (0x200000000 + acc.a) ((ws.map (fun w => leBytes 4 w.toNat)).flatten.take acc.len)).foldl (fun (s : State) e =>
        if s.speculates i t.val then s.deferStore i t.val (.store false false e.1 e.2) e.1 e.2
        else s.modCtx i t.val (fun k => { k with stalled := k.stalled ++ [.store false false e.1 e.2] })) s)
    | none => .next (s.stallCtx i t.val [.load false false (0x200000000 + acc.a) acc.len])
  else if s.g (RA_CTX_STATE i t.val) != csIdle then .next s
  else .next (s.rackPost l t acc false false)

/-! ### The commands of the DMA channels (R132, R134, R163, R165) -/

/-- A `DM_CMDn` write of the runtime on the channel's pair, for the channel's owner: as a store of that core (R161). -/
def State.dmaRow (s : State) (l : Lane) (n v : Nat) : State :=
  let i := l.val
  let a := 0x180040024 + 0x40 * n
  let c := 2 * s.g (DM_CTRL_PAIR i n)
  let t := s.g (DM_CTRL_OWNER i n)
  let bs := leBytes 4 v
  if !s.pairRuns i (c / 2) then s
  else if s.speculates i t then (s.specStore i t c true (.store true false a bs) a bs).1
  else s.dmCmd i n (BitVec.ofNat 32 v) (some c)

/-- `DMA_START` (R163). -/
def execDmaStart (l : Lane) (n : Fin 16) (s : State) : Res := .next (s.dmaRow l n.val 1)

/-- `DMA_RESUME` (R165). -/
def execDmaResume (l : Lane) (n : Fin 16) (s : State) : Res := .next (s.dmaRow l n.val 2)

/-- `DMA_ABORT` (R165): the bytes already written stay. -/
def execDmaAbort (l : Lane) (n : Fin 16) (s : State) : Res := .next (s.dmaRow l n.val 4)

/-- `DIGEST_SCAN_DONE` (R52): stores to the windows go on. -/
def execDigestScanDone (l : Lane) (s : State) : Res := .next ((s.p (SD_STAT_SCANBUSY l.val) 0).retryOps l)

/-! ### The verdict (R137, R138) -/

/-- A rollback begins (R140). -/
def State.rollback (s : State) (l t cause : Nat) : State :=
  ((s.p (RA_CTX_STATE l t) csRollback).p (RA_CTX_CAUSE l t) cause).inc (RA_ROLL_COUNT l t)

/-- Is a context open and without a verdict? -/
def State.undecided (s : State) (l t : Nat) : Bool := s.g (RA_CTX_STATE l t) == csRunning || s.g (RA_CTX_STATE l t) == csStalled

/-- Inputs confirmed and the vote passed: the context commits (R138, R139). [DESIGN CHOICE: log 21] -/
def State.tryCommit (s : State) (l t : Nat) : State :=
  if s.undecided l t && s.on (RA_CTX_CONF l t) && s.on (RA_CTX_VOTED l t) then (s.p (RA_CTX_STATE l t) csCommitting).ctxClock l t else s

/-- Does a lane's submission agree with the majority of a decided vote (R137)? None while it is undecided. -/
def voteFor (v : CycVote) (l : Nat) : Option Bool :=
  match v.result with
  | none => none
  | some .none => some false
  | some (.majority w) => some (v.subs.any (fun e => e.1.val == l && e.2 == w))

/-- `VOTE_OUTCOME`: a lane learns how the vote of the cycle before its open context ended (R137, R138). [DESIGN CHOICE: log 22] -/
def execVoteOutcome (l : Lane) (t : Task) (work : List CoreOp) (s : State) : Res :=
  let s := s.work l t.val work
  let i := l.val
  let k := t.val
  if !s.undecided i k then .next s
  else match s.cycVote t ((s.ctx i k).cycle - 1) with
    | none => .next s
    | some v => match voteFor v i with
      | none => .next s
      | some true => .next ((s.p (RA_CTX_VOTED i k) 1).tryCommit i k)
      | some false => .next (s.rollback i k 5)

/-- A deferred write reaches its target (R134, R139). -/
def State.drainEntry (l : Lane) (t : Nat) (s : State) (e : Nat × Nat × BitVec 64) : State :=
  if regionOf e.1 == .retained then s.retStore l (.task (Fin.ofNat 16 t)) (e.1 - 0x1C0000000) e.2.1 e.2.2
  else
    let x := maskSpan e.2.1
    s.directStore l (some t) (s.taskCore t false) true false (e.1 + x.1) (((leBytes 8 e.2.2.toNat).drop x.1).take x.2)

/-- `SPECULATIVE_COMMIT_DONE` (R139): the log is in memory, the context ends, the deferred writes follow, then what stalled: a held fault is
met again (R135). [DESIGN CHOICE: log 21, 33] -/
def execSpeculativeCommitDone (l : Lane) (t : Task) (s : State) : Res :=
  let i := l.val
  let k := t.val
  if s.g (RA_CTX_STATE i k) != csCommitting then .next s
  else
    let c := s.ctx i k
    let s := c.log.foldl (fun (s : State) (e : Nat × BitVec 64) => s.storeWord i e.1 e.2) s
    let s := (s.closeCtx i k).inc (RA_COMMIT_COUNT i k)
    let s := s.p (RA_GAIN_NS i k) (min c.ran 0xFFFFFF)
    let s := s.modLt i k (fun y => { y with phase := .executing })
    let s := c.dq.foldl (State.drainEntry l k) s
    .next (s.work l k c.stalled)

/-- Is it time to execute a task's cycle (R98)? -/
def State.startDue (s : State) (t cycle : Nat) : Bool := decide (s.sampleTime t cycle + (s.desc t).xoff * 1000 ≤ s.now)

/-- A lane whose image is complete executes it if its cycle start has passed, no context of the task is open and no dispatch keeps it (R85,
R98, R140). [DESIGN CHOICE: log 21] -/
def State.startIfDue (s : State) (l t : Nat) : State :=
  let y := s.lt l t
  if y.phase == .ready && s.g (RA_CTX_STATE l t) == csIdle && s.startDue t y.cycle && !s.notDispatched l t then
    s.modLt l t (fun y => { y with phase := .executing }) else s

/-- `ROLLBACK_DONE` (R140): the context is gone and its pair is interrupted; the cycle starts again on the real image, no earlier than its
cycle start. -/
def execRollbackDone (l : Lane) (t : Task) (s : State) : Res :=
  let i := l.val
  let k := t.val
  if s.g (RA_CTX_STATE i k) != csRollback then .next s
  else
    let runs := s.pairTask i (s.desc k).pair == some k
    let s := s.closeCtx i k
    let s := if runs then s.emit (.irq i (s.desc k).pair 0x140) else s
    .next (s.startIfDue i k)

/-! ### Images (R45, R98, R137) -/

/-- The byte ranges of a task's part of the input image region (R43). -/
def State.imgParts (s : State) (t : Nat) : List (Nat × Nat) :=
  [(64 * t, 64), (0x1000 + 0x400 * t, 0x400), ((s.inRangeOf t).1, (s.inRangeOf t).2)]

/-- Is a byte in one of a list of ranges? -/
def inParts (ps : List (Nat × Nat)) (a : Nat) : Bool := ps.any (fun p => decide (p.1 ≤ a) && decide (a < p.1 + p.2))

/-- The bytes of some ranges taken from another memory. -/
def takeParts (ps : List (Nat × Nat)) (dst src : Mem) : Mem :=
  (src.filter (fun e => inParts ps e.1)).foldl (fun (m : Mem) e => m.wr e.1 e.2) (dst.filter (fun e => !inParts ps e.1))

/-- The causes for which the reads of a context are invalidated by a delivered image (R137, R141). -/
def State.badReads (s : State) (l t : Nat) (new : Mem) (mask : List Nat) : List Nat :=
  let c := s.ctx l t
  let img := (s.lane l).img
  let pred (w : Nat) : BitVec 64 := tabGet (fun k => imgWord img k) c.predicted w
  let head (w : Nat) : Bool := (decide (8 * t ≤ w) && decide (w < 8 * t + 8)) || (decide (0x200 + 0x80 * t ≤ w) && decide (w < 0x280 + 0x80 * t))
  let listed (w : Nat) : Bool := c.predicted.any (fun e => e.1 == w)
  let differs (w : Nat) : Bool := imgWord new w != pred w
  (if c.reads.any (fun w => !head w && !listed w && mask.contains w) then [1] else []) ++
  (if c.reads.any (fun w => !head w && listed w && differs w) then [2] else []) ++
  (if c.reads.any (fun w => head w && differs w) then [3] else [])

/-- The verdict that an image gives an open context (R137, R138). Of several causes of invalid reads the spec does not say which is
reported: one of them, left free. [DEDUCED: log 20; DESIGN CHOICE: log 8] -/
def State.imgVerdict (s : State) (l t cycle : Nat) (bad : List Nat) : State :=
  if !s.undecided l t then s
  else if cycle != (s.ctx l t).cycle then s.rollback l t 4
  else match bad with
    | [] => (s.p (RA_CTX_CONF l t) 1).tryCommit l t
    | b :: bs =>
      let n := (Config.freeWord s.free).toNat % (bs.length + 1)
      let s := if bs.isEmpty then s else { s with free := s.free + 1 }
      s.rollback l t ((b :: bs).getD n b)

/-- The cycle of the last complete image of a task: its header says it (R44). -/
def TaskSt.imageCycle (x : TaskSt) (t : Nat) : Nat := leNat (x.prevImg.rdN (64 * t) 8)

/-- May the next image of a task go to a lane (R42, R45)? -/
def State.mayDeliver (s : State) (l t : Nat) : Bool :=
  let x := s.task t
  let y := s.lt l t
  s.running && s.liveLanes.contains l && x.started &&
  (y.phase == .idle || ((y.phase == .submitted || y.phase == .abandoned) && decide (y.cycle < x.imageCycle t)))

/-- `IMAGE_DELIVERY`: the fabric delivers a task's next image to a lane (R45); the verdict of an open context takes it in (R137), and a
late image starts Execute (R98). -/
def execImageDelivery (l : Lane) (t : Task) (work : List CoreOp) (s : State) : Res :=
  let s := s.work l t.val work
  let i := l.val
  let k := t.val
  if !s.mayDeliver i k then .next s
  else
    let x := s.task k
    let first := (s.lt i k).phase == .idle
    let cycle := x.imageCycle k
    let bad := s.badReads i k x.prevImg x.mask
    let ps := s.imgParts k
    let s := s.modLane i (fun y => { y with
      imgPrev := takeParts ps y.imgPrev (if first then x.prevImg else y.img)
      img := takeParts ps y.img x.prevImg })
    let s := s.modLt i k (fun y => { y with phase := .ready, cycle := cycle })
    let s := (s.p (VX_IMGSTAT_TASK i) k).p (VX_IMGSTAT_CYCLE i) cycle
    .next ((s.imgVerdict i k cycle bad).startIfDue i k)

/-- `CYCLE_START`: the lane's shadow compare reaches the task's cycle start; Execute begins if the image is complete (R98) and no dispatch keeps
it (R85). -/
def execCycleStart (l : Lane) (t : Task) (s : State) : Res :=
  let i := l.val
  let k := t.val
  if s.worksOn i k && (s.lt i k).phase == .ready && s.g (RA_CTX_STATE i k) == csIdle && !s.notDispatched i k then
    .next (s.modLt i k (fun y => { y with phase := .executing }))
  else .next s

/-! ### The run-ahead registers (R132, R145, R147) -/

/-- `RA_DISABLE`: `RA_CTRL.EN` written to 0 discards every open context (R147). -/
def execRaDisable (l : Lane) (s : State) : Res := .next ((s.p (RA_CTRL_EN l.val) 0).dropLaneCtx l.val)

/-- `RA_INHIBIT`: `RA_CTRL.INHIBIT` written to 1 (R145). -/
def execRaInhibit (l : Lane) (s : State) : Res := .next (s.p (RA_CTRL_INHIBIT l.val) 1)

/-- `PAIR_CONTEXT_WRITE`: the runtime names the task that runs on a pair, after the work of the task that ran (R132). -/
def execPairContextWrite (l : Lane) (p : Pair) (v : Word) (work : List CoreOp) (s : State) : Res :=
  let i := l.val
  let s := match s.pairTask i p.val with
    | some t => s.work l t work
    | none => s
  if s.pairRuns i p.val then .next (s.pairCtx i p.val v) else .next s

/-! ### A register write (R11, R12, R36) -/

/-- Is an address a lane's `VX_SUBMIT` in the module space? -/
def submitOf (a : Nat) : Option Nat :=
  if 0x7000 ≤ a / 0x10000 && a / 0x10000 < 0x7400 && a / 0x10000 % 0x100 == 6 && a % 0x10000 == 4 then some (a / 0x1000000 - 0x70) else none

/-- A word written to a mapped address of the module register space, `VX_SUBMIT` included. [DESIGN CHOICE: log 17] -/
def State.regWriteAll (s : State) (a : Nat) (v : Word) : State :=
  match submitOf a with
  | some l => if s.variant == .zm60 && l == 3 then s else s.work (Fin.ofNat 4 l) (getBits v 0 4) [.submit (bit v.toNat 4)]
  | none => s.regWrite a v false

/-- The bus error of an access answered to its initiator (R11, R36). -/
def State.setBusErr (s : State) (b : Bool) : State := { s with busErr := b }

/-- A core's write (R11, R36, R132, R148 to R151), for the task that its pair runs. [DESIGN CHOICE: log 17] -/
def State.coreWrite (s : State) (l : Lane) (c a : Nat) (v : Word) (size : Nat) (sup : Bool) : State :=
  let i := l.val
  let t := s.pairTask i (c / 2)
  let op : CoreOp := .store sup (c % 2 == 1) a (leBytes size v.toNat)
  let err := match s.mmuCheck i (c / 2) a size .store sup with
    | some (k, _) => k == 3 || k == 4
    | none => false
  let s := s.setBusErr err
  let spec := match t with
    | some t => s.speculates i t
    | none => false
  if (s.lane i).waitOps.any (fun e => e.2.1 == c) || s.mustWait i c spec op then
    s.modLane i (fun x => { x with waitOps := x.waitOps ++ [(t, c, op)] })
  else (s.access l t c op).1

/-- `REGISTER_WRITE`: a write to a register without a row of its own (R12), by the Keeper in the module register space, by a core in the
lane view, by a DMA channel, which reaches no register (R11, R148). [DESIGN CHOICE: log 17] -/
def execRegisterWrite (by_ : Initiator) (a : BitVec 40) (v : Word) (size : Nat) (s : State) : Res :=
  let a := a.toNat
  match by_ with
  | .keeper =>
    if size != 4 || a % 4 != 0 || !s.modMapped a then .next (s.setBusErr true)
    else .next ((s.regWriteAll a v).setBusErr false)
  | .core l c sup => if s.coresRun l.val && !(s.lane l.val).halted.contains (c.val / 2) then .next (s.coreWrite l c.val a v size sup) else .next s
  | .dma l n =>
    let s := s.setBusErr true
    if s.coresRun l.val && s.g (DM_STAT_STATE l.val n.val) == 1 then .next (s.dmSuspend l.val n.val 4 1 a) else .next s

end Sys2Proof.Machine
end

