-- ==== Sys2Proof/Machine/Dispatch.lean ====
section
/-! DEFINITION. The effect of each command on everything but the queue: one arm per command, one call of its meaning. -/

namespace Sys2Proof.Machine

/-- The effect of a command. -/
def exec (i : Instr) (s : State) : Host.Outcome State Fault Refusal :=
  match i with
  | .modReset ch h p => Sys2Proof.Machine.execModReset ch h p s
  | .modIdentify ch h p => Sys2Proof.Machine.execModIdentify ch h p s
  | .modStatus ch h p => Sys2Proof.Machine.execModStatus ch h p s
  | .modSetmode ch h p => Sys2Proof.Machine.execModSetmode ch h p s
  | .modTagRead ch h p => Sys2Proof.Machine.execModTagRead ch h p s
  | .modTagWrite ch h p => Sys2Proof.Machine.execModTagWrite ch h p s
  | .modWakecfg ch h p => Sys2Proof.Machine.execModWakecfg ch h p s
  | .appStage ch h p => Sys2Proof.Machine.execAppStage ch h p s
  | .appLoad ch h p => Sys2Proof.Machine.execAppLoad ch h p s
  | .appStart ch h p => Sys2Proof.Machine.execAppStart ch h p s
  | .appStop ch h p => Sys2Proof.Machine.execAppStop ch h p s
  | .appRestart ch h p => Sys2Proof.Machine.execAppRestart ch h p s
  | .appNextstart ch h p => Sys2Proof.Machine.execAppNextstart ch h p s
  | .appOlcLoad ch h p => Sys2Proof.Machine.execAppOlcLoad ch h p s
  | .appOlcApply ch h p => Sys2Proof.Machine.execAppOlcApply ch h p s
  | .pairSplit ch h p => Sys2Proof.Machine.execPairSplit ch h p s
  | .pairJoin ch h p => Sys2Proof.Machine.execPairJoin ch h p s
  | .appStatus ch h p => Sys2Proof.Machine.execAppStatus ch h p s
  | .forceSet ch h p => Sys2Proof.Machine.execForceSet ch h p s
  | .forceClear ch h p => Sys2Proof.Machine.execForceClear ch h p s
  | .forceClearall ch h p => Sys2Proof.Machine.execForceClearall ch h p s
  | .forceList ch h p => Sys2Proof.Machine.execForceList ch h p s
  | .timeConfig ch h p => Sys2Proof.Machine.execTimeConfig ch h p s
  | .timeTrigger ch h p => Sys2Proof.Machine.execTimeTrigger ch h p s
  | .timeCapture ch h p => Sys2Proof.Machine.execTimeCapture ch h p s
  | .timeStatus ch h p => Sys2Proof.Machine.execTimeStatus ch h p s
  | .ringSched ch h p => Sys2Proof.Machine.execRingSched ch h p s
  | .ringCommit ch h p => Sys2Proof.Machine.execRingCommit ch h p s
  | .ringStatus ch h p => Sys2Proof.Machine.execRingStatus ch h p s
  | .ethConfig ch h p => Sys2Proof.Machine.execEthConfig ch h p s
  | .ethStatus ch h p => Sys2Proof.Machine.execEthStatus ch h p s
  | .safeLoad ch h p => Sys2Proof.Machine.execSafeLoad ch h p s
  | .sealAccept ch h p => Sys2Proof.Machine.execSealAccept ch h p s
  | .scAck ch h p => Sys2Proof.Machine.execScAck ch h p s
  | .safeStatus ch h p => Sys2Proof.Machine.execSafeStatus ch h p s
  | .fioConfig ch h p => Sys2Proof.Machine.execFioConfig ch h p s
  | .fioRelease ch h p => Sys2Proof.Machine.execFioRelease ch h p s
  | .fioStatus ch h p => Sys2Proof.Machine.execFioStatus ch h p s
  | .unitConfig ch h p => Sys2Proof.Machine.execUnitConfig ch h p s
  | .unitHandover ch h p => Sys2Proof.Machine.execUnitHandover ch h p s
  | .unitWitness ch h p => Sys2Proof.Machine.execUnitWitness ch h p s
  | .unitStatus ch h p => Sys2Proof.Machine.execUnitStatus ch h p s
  | .faultAck ch h p => Sys2Proof.Machine.execFaultAck ch h p s
  | .faultHistory ch h p => Sys2Proof.Machine.execFaultHistory ch h p s
  | .faultInject ch h p => Sys2Proof.Machine.execFaultInject ch h p s
  | .faultStatus ch h p => Sys2Proof.Machine.execFaultStatus ch h p s
  | .evRead ch h p => Sys2Proof.Machine.execEvRead ch h p s
  | .evStatus ch h p => Sys2Proof.Machine.execEvStatus ch h p s
  | .evClear ch h p => Sys2Proof.Machine.execEvClear ch h p s
  | .upManifest ch h p => Sys2Proof.Machine.execUpManifest ch h p s
  | .upChunk ch h p => Sys2Proof.Machine.execUpChunk ch h p s
  | .upStatus ch h p => Sys2Proof.Machine.execUpStatus ch h p s
  | .upActivate ch h p => Sys2Proof.Machine.execUpActivate ch h p s
  | .upAbandon ch h p => Sys2Proof.Machine.execUpAbandon ch h p s
  | .testRegread ch h p => Sys2Proof.Machine.execTestRegread ch h p s
  | .testLoop ch h p => Sys2Proof.Machine.execTestLoop ch h p s
  | .testProd ch h p => Sys2Proof.Machine.execTestProd ch h p s
  | .lcChange ch h p => Sys2Proof.Machine.execLcChange ch h p s
  | .lcDebugtoken ch h p => Sys2Proof.Machine.execLcDebugtoken ch h p s
  | .unknownCommand ch code h p => Sys2Proof.Machine.execUnknownCommand ch code h p s
  | .commandWindowClose k t => Sys2Proof.Machine.execCommandWindowClose k t s
  | .channelReset ch => Sys2Proof.Machine.execChannelReset ch s
  | .eventRelease ch tail => Sys2Proof.Machine.execEventRelease ch tail s
  | .sessionConnect via => Sys2Proof.Machine.execSessionConnect via s
  | .hello ctr nc cred => Sys2Proof.Machine.execHello ctr nc cred s
  | .proof ctr mac => Sys2Proof.Machine.execProof ctr mac s
  | .commandRecord rec => Sys2Proof.Machine.execCommandRecord rec s
  | .closeRecord ctr atag => Sys2Proof.Machine.execCloseRecord ctr atag s
  | .authenticationTimeout => Sys2Proof.Machine.execAuthenticationTimeout s
  | .sessionIdleTimeout => Sys2Proof.Machine.execSessionIdleTimeout s
  | .helloRefusalEnd => Sys2Proof.Machine.execHelloRefusalEnd s
  | .submit l t work => Sys2Proof.Machine.execSubmit l t work s
  | .abandon l t work => Sys2Proof.Machine.execAbandon l t work s
  | .voteWindowClose t => Sys2Proof.Machine.execVoteWindowClose t s
  | .sample t => Sys2Proof.Machine.execSample t s
  | .collectionClose t => Sys2Proof.Machine.execCollectionClose t s
  | .safeWatchdogExpiry c => Sys2Proof.Machine.execSafeWatchdogExpiry c s
  | .imageComplete t => Sys2Proof.Machine.execImageComplete t s
  | .imageDelivery l t work => Sys2Proof.Machine.execImageDelivery l t work s
  | .cycleStart l t => Sys2Proof.Machine.execCycleStart l t s
  | .voteOutcome l t work => Sys2Proof.Machine.execVoteOutcome l t work s
  | .speculativeCommitDone l t => Sys2Proof.Machine.execSpeculativeCommitDone l t s
  | .rollbackDone l t => Sys2Proof.Machine.execRollbackDone l t s
  | .raDisable l => Sys2Proof.Machine.execRaDisable l s
  | .raInhibit l => Sys2Proof.Machine.execRaInhibit l s
  | .pairContextWrite l p v work => Sys2Proof.Machine.execPairContextWrite l p v work s
  | .outputApply q => Sys2Proof.Machine.execOutputApply q s
  | .queuedCommitRelease q => Sys2Proof.Machine.execQueuedCommitRelease q s
  | .stopImageCommit t => Sys2Proof.Machine.execStopImageCommit t s
  | .laneInitComplete l => Sys2Proof.Machine.execLaneInitComplete l s
  | .anchor => Sys2Proof.Machine.execAnchor s
  | .initTimeout => Sys2Proof.Machine.execInitTimeout s
  | .quietGap len => Sys2Proof.Machine.execQuietGap len s
  | .pairExecutionPoint => Sys2Proof.Machine.execPairExecutionPoint s
  | .pxSplit l v => Sys2Proof.Machine.execPxSplit l v s
  | .pxJoin l v => Sys2Proof.Machine.execPxJoin l v s
  | .splitComplete l => Sys2Proof.Machine.execSplitComplete l s
  | .joinComplete l trip synOk railOk => Sys2Proof.Machine.execJoinComplete l trip synOk railOk s
  | .taskDispatch l p v => Sys2Proof.Machine.execTaskDispatch l p v s
  | .comparatorTestDue l p => Sys2Proof.Machine.execComparatorTestDue l p s
  | .forcedTest l v => Sys2Proof.Machine.execForcedTest l v s
  | .forcedTestResult l trip synOk railOk group bit => Sys2Proof.Machine.execForcedTestResult l trip synOk railOk group bit s
  | .comparatorMismatch l p group bit => Sys2Proof.Machine.execComparatorMismatch l p group bit s
  | .railMismatch l p => Sys2Proof.Machine.execRailMismatch l p s
  | .delayParityError l p fromOutputs group bit => Sys2Proof.Machine.execDelayParityError l p fromOutputs group bit s
  | .mmuFault l c a acc sup size => Sys2Proof.Machine.execMmuFault l c a acc sup size s
  | .uncorrectableMemoryError l m => Sys2Proof.Machine.execUncorrectableMemoryError l m s
  | .scrubPass l dram l2 tcm bad => Sys2Proof.Machine.execScrubPass l dram l2 tcm bad s
  | .retainedStore l st a mask v => Sys2Proof.Machine.execRetainedStore l st a mask v s
  | .retainedApply st => Sys2Proof.Machine.execRetainedApply st s
  | .tcmStarvation l b clks => Sys2Proof.Machine.execTcmStarvation l b clks s
  | .dmaStart l n => Sys2Proof.Machine.execDmaStart l n s
  | .dmaResume l n => Sys2Proof.Machine.execDmaResume l n s
  | .dmaAbort l n => Sys2Proof.Machine.execDmaAbort l n s
  | .dmaFault l n moved side target => Sys2Proof.Machine.execDmaFault l n moved side target s
  | .dmaDescriptorDone l n => Sys2Proof.Machine.execDmaDescriptorDone l n s
  | .windowPortBAccess off wr clk => Sys2Proof.Machine.execWindowPortBAccess off wr clk s
  | .retentionLost l => Sys2Proof.Machine.execRetentionLost l s
  | .logicalWipeDone l => Sys2Proof.Machine.execLogicalWipeDone l s
  | .physicalWipeDone l => Sys2Proof.Machine.execPhysicalWipeDone l s
  | .sdEnable l v => Sys2Proof.Machine.execSdEnable l v s
  | .digestScanDone l => Sys2Proof.Machine.execDigestScanDone l s
  | .spareEnable => Sys2Proof.Machine.execSpareEnable s
  | .spareDisable => Sys2Proof.Machine.execSpareDisable s
  | .sparePromotion => Sys2Proof.Machine.execSparePromotion s
  | .laneResetComplete l => Sys2Proof.Machine.execLaneResetComplete l s
  | .laneSelfTestEnd l pass => Sys2Proof.Machine.execLaneSelfTestEnd l pass s
  | .copyRoundComplete dirtied => Sys2Proof.Machine.execCopyRoundComplete dirtied s
  | .resyncComplete l => Sys2Proof.Machine.execResyncComplete l s
  | .resyncTimeout l => Sys2Proof.Machine.execResyncTimeout l s
  | .linkPacketReceive k seq body crc => Sys2Proof.Machine.execLinkPacketReceive k seq body crc s
  | .linkFailure k c => Sys2Proof.Machine.execLinkFailure k c s
  | .shadowPulse d word => Sys2Proof.Machine.execShadowPulse d word s
  | .shadowPulseMissing d => Sys2Proof.Machine.execShadowPulseMissing d s
  | .timeTickWrap => Sys2Proof.Machine.execTimeTickWrap s
  | .incrementWrite v => Sys2Proof.Machine.execIncrementWrite v s
  | .eranextWrite v => Sys2Proof.Machine.execEranextWrite v s
  | .timeStep v => Sys2Proof.Machine.execTimeStep v s
  | .timeSnapshot => Sys2Proof.Machine.execTimeSnapshot s
  | .incrementStale => Sys2Proof.Machine.execIncrementStale s
  | .servoRun => Sys2Proof.Machine.execServoRun s
  | .rtcUpdate => Sys2Proof.Machine.execRtcUpdate s
  | .captureEvent n stamp => Sys2Proof.Machine.execCaptureEvent n stamp s
  | .captureEnable n v => Sys2Proof.Machine.execCaptureEnable n v s
  | .triggerArm n v => Sys2Proof.Machine.execTriggerArm n v s
  | .appTriggerArrival n word => Sys2Proof.Machine.execAppTriggerArrival n word s
  | .triggerFire n => Sys2Proof.Machine.execTriggerFire n s
  | .basicCycleStart r => Sys2Proof.Machine.execBasicCycleStart r s
  | .standInMark r => Sys2Proof.Machine.execStandInMark r s
  | .macrocycleBoundary r => Sys2Proof.Machine.execMacrocycleBoundary r s
  | .markReceive r port frame stamp => Sys2Proof.Machine.execMarkReceive r port frame stamp s
  | .pollReceive r port frame stamp => Sys2Proof.Machine.execPollReceive r port frame stamp s
  | .replyReceive r port frame stamp => Sys2Proof.Machine.execReplyReceive r port frame stamp s
  | .referenceMessageReceive r port frame stamp => Sys2Proof.Machine.execReferenceMessageReceive r port frame stamp s
  | .slotTransmit r e dev => Sys2Proof.Machine.execSlotTransmit r e dev s
  | .watchVerdict w => Sys2Proof.Machine.execWatchVerdict w s
  | .delayProbe r port result => Sys2Proof.Machine.execDelayProbe r port result s
  | .positionWordReceive r port word => Sys2Proof.Machine.execPositionWordReceive r port word s
  | .ringEnable r => Sys2Proof.Machine.execRingEnable r s
  | .ringDisable r => Sys2Proof.Machine.execRingDisable r s
  | .listenSilenceExpiry r => Sys2Proof.Machine.execListenSilenceExpiry r s
  | .marksLost r => Sys2Proof.Machine.execMarksLost r s
  | .ringBreak r port => Sys2Proof.Machine.execRingBreak r port s
  | .foldNoticeReceive r port unfold => Sys2Proof.Machine.execFoldNoticeReceive r port unfold s
  | .unfoldReady r port => Sys2Proof.Machine.execUnfoldReady r port s
  | .switchFrameReceive port f rx tx => Sys2Proof.Machine.execSwitchFrameReceive port f rx tx s
  | .addressAgeing vlan mac => Sys2Proof.Machine.execAddressAgeing vlan mac s
  | .ptpMessageReceive port m => Sys2Proof.Machine.execPtpMessageReceive port m s
  | .ptpTransmit port k stamp => Sys2Proof.Machine.execPtpTransmit port k stamp s
  | .ptpReferenceLost => Sys2Proof.Machine.execPtpReferenceLost s
  | .datagramReceive datagram stamp => Sys2Proof.Machine.execDatagramReceive datagram stamp s
  | .publicationSend p => Sys2Proof.Machine.execPublicationSend p s
  | .stoTestPulse d ch => Sys2Proof.Machine.execStoTestPulse d ch s
  | .stoReadbackFault d ch => Sys2Proof.Machine.execStoReadbackFault d ch s
  | .channelAReport d cmdA rbA => Sys2Proof.Machine.execChannelAReport d cmdA rbA s
  | .channelBWatchdogExpiry => Sys2Proof.Machine.execChannelBWatchdogExpiry s
  | .driveEvaluation d count => Sys2Proof.Machine.execDriveEvaluation d count s
  | .encoderFault d => Sys2Proof.Machine.execEncoderFault d s
  | .encoderFaultClear d => Sys2Proof.Machine.execEncoderFaultClear d s
  | .safetyPairEvaluation k => Sys2Proof.Machine.execSafetyPairEvaluation k s
  | .sealRead rd => Sys2Proof.Machine.execSealRead rd s
  | .tamperCheck opened => Sys2Proof.Machine.execTamperCheck opened s
  | .filterSample raw fld => Sys2Proof.Machine.execFilterSample raw fld s
  | .rawEdge n level stamp => Sys2Proof.Machine.execRawEdge n level stamp s
  | .supplyNormal => Sys2Proof.Machine.execSupplyNormal s
  | .supplyLatch => Sys2Proof.Machine.execSupplyLatch s
  | .diTopWrite n v => Sys2Proof.Machine.execDiTopWrite n v s
  | .commitMessage => Sys2Proof.Machine.execCommitMessage s
  | .silenceExpiry => Sys2Proof.Machine.execSilenceExpiry s
  | .thermalShutdown n => Sys2Proof.Machine.execThermalShutdown n s
  | .thermalRetry c => Sys2Proof.Machine.execThermalRetry c s
  | .retryCountReset c => Sys2Proof.Machine.execRetryCountReset c s
  | .hsoOverload n => Sys2Proof.Machine.execHsoOverload n s
  | .hsoOpenLoad n present => Sys2Proof.Machine.execHsoOpenLoad n present s
  | .hsoShortToSupply n present => Sys2Proof.Machine.execHsoShortToSupply n present s
  | .fppOverload n => Sys2Proof.Machine.execFppOverload n s
  | .fppEdgeCheck n level => Sys2Proof.Machine.execFppEdgeCheck n level s
  | .analogueConversion n value stamp => Sys2Proof.Machine.execAnalogueConversion n value stamp s
  | .loopDiagnosticMeasurement n m => Sys2Proof.Machine.execLoopDiagnosticMeasurement n m s
  | .jumperRead lo hi => Sys2Proof.Machine.execJumperRead lo hi s
  | .foldBack n on => Sys2Proof.Machine.execFoldBack n on s
  | .shuntOvercurrent n => Sys2Proof.Machine.execShuntOvercurrent n s
  | .shuntReconnect n => Sys2Proof.Machine.execShuntReconnect n s
  | .modeSettleEnd n => Sys2Proof.Machine.execModeSettleEnd n s
  | .enumeration cards => Sys2Proof.Machine.execEnumeration cards s
  | .rackAccess l t acc => Sys2Proof.Machine.execRackAccess l t acc s
  | .readCompletion tag code data => Sys2Proof.Machine.execReadCompletion tag code data s
  | .readTimeout tag => Sys2Proof.Machine.execReadTimeout tag s
  | .discardTimerExpiry tag => Sys2Proof.Machine.execDiscardTimerExpiry tag s
  | .errorMessage slot tag code a => Sys2Proof.Machine.execErrorMessage slot tag code a s
  | .prefetchExpiry b => Sys2Proof.Machine.execPrefetchExpiry b s
  | .windowRead a clk => Sys2Proof.Machine.execWindowRead a clk s
  | .windowWrite a v be clk => Sys2Proof.Machine.execWindowWrite a v be clk s
  | .lsbCycle => Sys2Proof.Machine.execLsbCycle s
  | .lsbResponse line body parityOk => Sys2Proof.Machine.execLsbResponse line body parityOk s
  | .forwardedImageReceive k img => Sys2Proof.Machine.execForwardedImageReceive k img s
  | .forwardDeadline t => Sys2Proof.Machine.execForwardDeadline t s
  | .pairLinkLost k => Sys2Proof.Machine.execPairLinkLost k s
  | .pairLinkRegained k => Sys2Proof.Machine.execPairLinkRegained k s
  | .leaseEnd => Sys2Proof.Machine.execLeaseEnd s
  | .actTime => Sys2Proof.Machine.execActTime s
  | .watchLoss => Sys2Proof.Machine.execWatchLoss s
  | .unitResyncComplete => Sys2Proof.Machine.execUnitResyncComplete s
  | .faultReport src cls code data => Sys2Proof.Machine.execFaultReport src cls code data s
  | .reportFetchTimeout src => Sys2Proof.Machine.execReportFetchTimeout src s
  | .pathFailure src => Sys2Proof.Machine.execPathFailure src s
  | .pathPoll src word => Sys2Proof.Machine.execPathPoll src word s
  | .forceReport src v => Sys2Proof.Machine.execForceReport src v s
  | .forcePathFailure src v => Sys2Proof.Machine.execForcePathFailure src v s
  | .powerOn => Sys2Proof.Machine.execPowerOn s
  | .powerFailWarning => Sys2Proof.Machine.execPowerFailWarning s
  | .rstAsserted => Sys2Proof.Machine.execRstAsserted s
  | .bootVerified okA okB rtcOk => Sys2Proof.Machine.execBootVerified okA okB rtcOk s
  | .selfTestEnd res => Sys2Proof.Machine.execSelfTestEnd res s
  | .ready => Sys2Proof.Machine.execReady s
  | .synchronisingLong => Sys2Proof.Machine.execSynchronisingLong s
  | .wakeTrigger w => Sys2Proof.Machine.execWakeTrigger w s
  | .laneWakeComplete l => Sys2Proof.Machine.execLaneWakeComplete l s
  | .resumePoint => Sys2Proof.Machine.execResumePoint s
  | .haltLatchClear => Sys2Proof.Machine.execHaltLatchClear s
  | .supplyBelowRange inp => Sys2Proof.Machine.execSupplyBelowRange inp s
  | .supplyOvervoltage inp => Sys2Proof.Machine.execSupplyOvervoltage inp s
  | .supplyReconnect inp => Sys2Proof.Machine.execSupplyReconnect inp s
  | .operatingTimeStore => Sys2Proof.Machine.execOperatingTimeStore s
  | .stagingDrain n => Sys2Proof.Machine.execStagingDrain n s
  | .buildComplete => Sys2Proof.Machine.execBuildComplete s
  | .trialTimeout => Sys2Proof.Machine.execTrialTimeout s
  | .tapMismatch port depth1 => Sys2Proof.Machine.execTapMismatch port depth1 s
  | .registerWrite by_ a v size => Sys2Proof.Machine.execRegisterWrite by_ a v size s
  | .lsbResponseTimeout line => Sys2Proof.Machine.execLsbResponseTimeout line s
  | .standbyDomainPowerLoss => Sys2Proof.Machine.execStandbyDomainPowerLoss s
  | .ethLinkChange port speed => Sys2Proof.Machine.execEthLinkChange port speed s
  | .tapInstructionLoad d code => Sys2Proof.Machine.execTapInstructionLoad d code s
  | .debugHaltRequest l c => Sys2Proof.Machine.execDebugHaltRequest l c s
  | .probePresentChange present => Sys2Proof.Machine.execProbePresentChange present s
  | .pairLinkHealthRecord k body => Sys2Proof.Machine.execPairLinkHealthRecord k body s

end Sys2Proof.Machine
end

