-- ==== Sys2Proof/Machine/Tick.lean ====
section
/-! DEFINITION. What 8 ns without a command bring: the step of the block on an empty queue. -/

namespace Sys2Proof.Machine

/-- Eight nanoseconds of operating time: every millisecond counts once the module has left Blank (R496), and exclusions and
violations of more than 3,600 s ago no longer count (R72, R254). -/
def State.opTick (s : State) : State :=
  let s : State := { s with tu := { s.tu with upNs := s.tu.upNs + 8 } }
  if s.g LC_STATE_LCS == 0 then s
  else if s.tu.opNs + 8 ≥ 1000000 then
    let s := { s with tu := { s.tu with opNs := s.tu.opNs + 8 - 1000000 } }
    let v := s.opms + 1
    let s := [0, 1, 2, 3].foldl State.exclHour ((s.p LC_OPMSLO_MS v).p LC_OPMSHI_MS (v / 2 ^ 32))
    [0, 1].foldl State.violHour s
  else { s with tu := { s.tu with opNs := s.tu.opNs + 8 } }

/-- Eight nanoseconds of the standby domain: the RTC counts its fractions of 1/32,768 s and its seconds (R33), while it has power
(R554). -/
def State.rtcTick (s : State) : State :=
  if s.sb.lost then s else
  let n := s.sb.rtcAcc + 8 * 32768
  if n < 1000000000 then { s with sb := { s.sb with rtcAcc := n } }
  else if s.sb.rtcFrac + 1 < 32768 then { s with sb := { s.sb with rtcAcc := n - 1000000000, rtcFrac := s.sb.rtcFrac + 1 } }
  else { s with sb := { s.sb with rtcAcc := n - 1000000000, rtcFrac := 0, rtc := s.sb.rtc + 1 } }

/-- One tick of a trigger pulse (R197): at its last one the target goes low. -/
def State.pulseTick (s : State) (e : Nat × Nat) : State :=
  let s' : State := { s with tu := { s.tu with pulses := tabSet (fun _ => 0) s.tu.pulses e.1 (e.2 - 1) } }
  if e.2 ≤ 1 then s'.endPulse e.1 else s'

/-- How long a waiting command may wait, in ns (R82, R123, R428). [DESIGN CHOICE: log 42] -/
def waitLimit (code : Nat) : Nat := if code == 0x0209 || code == 0x020A then 10000000 else 1000000000

/-- A waiting command that has not begun within its limit is answered `TIMEOUT` and has no effect (R82, R123, R428).
[DESIGN CHOICE: log 42] -/
def State.waitTick (s : State) : State :=
  match s.waiting with
  | some w =>
    if !w.begun && decide (w.since + waitLimit w.code < s.now) then
      (s.giveUp w).respond (w.chans.map (·.val)) w.hdr w.payload stTimeout []
    else s
  | none => s

/-- One tick of a powered module: `TU_NS` and its fraction take the increment (R179) and a step that waits (R187), the pulses go out at
each multiple of 1,000 ns (R27), the shadow counters run on, idle links send idle packets (R21), operating time counts, pulses end, frames leave the
ports, port B retries, DMA channels move bytes (R161), submissions have been sent (R71), stalled cores go on; then what waits for an instant
or for others: a change point (R123), the anchor (R95), the mode at T (R421), the end of a wake (R429), a lane that waits for the
resynchronisation (R63), triggers to arm (R480), the end of a commanded test (R527), a command, 100 ms without a valid reading of the seal (R315). -/
def State.runTick (s : State) : State :=
  let before := s.now
  let s := (s.timeTick).timePulse before
  let s := ([.lane 0, .lane 1, .lane 2, .lane 3, .keeper, .keeper2, .field] : List DieId).foldl (fun (s : State) d => s.setShadow d (s.shadow d).tick) s
  let s := ([.lane 0, .lane 1, .lane 2, .lane 3, .network, .field, .keeperCompare] : List DieLink).foldl State.linkIdle s
  let s := s.tu.pulses.foldl State.pulseTick s
  let s := [0, 1, 2, 3, 4].foldl State.ethTick s
  let s := s.winIdle
  let s := s.opTick.waitTick
  let s := ([0, 1, 2, 3] : List Lane).foldl (fun (s : State) l => (s.dmaTick l).sendTick l.val) s
  let s := s.retryAll.pairDone
  let s := s.changeTick.fixAnchor.modeTick.wakeTick
  (s.sealTick.nextJoiner.trigTick.loopTick).drainCmd

/-- One time tick of 8 ns. In Dormant only the standby domain is alive (R32, R419). [DESIGN CHOICE: log 2, 94] -/
def State.tick (s : State) : State :=
  let s := s.rtcTick
  if s.mode == mDormant then s else s.runTick

end Sys2Proof.Machine
end

