-- ==== Sys2Proof/Safety.lean ====
section
/-! DEFINITION. What the statements speak in: runs that complete, what a command leaves alone, what a client's command meets at its
mailbox channel. -/

namespace Sys2Proof.Safety
open Sys2Proof.Machine

/-- A step completes: no fault and no refusal. -/
def Completes (s : State) : Prop := ∃ s', step s = .next s'

/-- The canonical form of the tables that hold registers and memories: keys rise strictly and no entry equals what an
unlisted key reads as. -/
structure Canonical (s : State) : Prop where
  regs : tabWf regReset s.regs = true
  mb : Memory.wf s.mb = true
  memA : Memory.wf s.laneA.mem = true
  memB : Memory.wf s.laneB.mem = true
  memC : Memory.wf s.laneC.mem = true
  memD : Memory.wf s.laneD.mem = true

/-- A command completes in a state that has a property. -/
def Gives (c : Instr) (s : State) (P : State → Prop) : Prop := ∃ t, exec c s = .next t ∧ P t

/-- The registers at the addresses that `as` does not name read as before. -/
def RegsKeep (s t : State) (as : Nat → Prop) : Prop := ∀ a, ¬ as a → t.regs.rd a = s.regs.rd a

/-- Nothing but the registers that `as` names is changed. -/
def OnlyRegs (s t : State) (as : Nat → Prop) : Prop := t = { s with regs := t.regs } ∧ RegsKeep s t as

/-- The registers of a list were written together, each with its writable fields, and nothing else is changed (R11, R12). -/
def Wrote (s t : State) (ws : List (Nat × Word)) : Prop :=
  t = { s with regs := t.regs } ∧ (∀ x, (∀ e ∈ ws, e.1 ≠ x) → t.regs.rd x = s.regs.rd x) ∧
  ∀ e ∈ ws, ∀ fs, regFlds e.1 = some fs → t.regs.rd e.1 = mergeFlds true (s.regs.rd e.1) e.2 fs

/-- The addresses that recording and posting an event write: the collector's, the recorder's and the mailboxes' blocks. -/
def recPage (a : Nat) : Prop := a / 0x10000 = 0x4005 ∨ a / 0x10000 = 0x4006 ∨ a / 0x10000 = 0x4008

/-- Nothing is changed but the registers that `as` names and what recording and posting an event touches: the recorder, the event
queues, the session that carries one of them, the counters and registers of the three blocks. -/
def OnlyRecords (s t : State) (as : Nat → Prop) : Prop :=
  t = { s with regs := t.regs, ev := t.ev, mb := t.mb, sess := t.sess, tx := t.tx } ∧ ∀ a, ¬ recPage a → ¬ as a → t.regs.rd a = s.regs.rd a

/-- The address of a register of a field list. -/
def regIn (fs : List Fld) (a : Nat) : Prop := ∃ f ∈ fs, a = f.reg

/-- Nothing is changed but one lane and the registers that `as` names. -/
def OnlyLane (s t : State) (l : Nat) (as : Nat → Prop) : Prop :=
  { t with regs := s.regs } = s.modLane l (fun _ => t.lane l) ∧ RegsKeep s t as

/-- The state after a task's accesses where each of them is done: no core of them stalls, no fault ends them. -/
def doneWork (l : Lane) (t : Nat) : List CoreOp → State → Option State
  | [], s => some s
  | op :: ops, s =>
    let c := s.opCore t op
    if !s.worksOn l.val t || (s.lane l.val).waitOps.any (fun e => e.2.1 == c) || s.mustWait l.val c (s.speculates l.val t) op then none
    else match s.access l (some t) c op with
      | (s, .done) => doneWork l t ops s
      | _ => none

/-- A task's leading core can make its next access, which is no store: its pair works on the task and nothing of it waits. -/
def MayAccess (s : State) (l t : Nat) : Prop :=
  s.worksOn l t = true ∧ (∀ e ∈ (s.lane l).waitOps, e.2.1 ≠ s.taskCore t false) ∧ s.mustWait l (s.taskCore t false) false (.submit false) = false

/-! ### A client's command at a channel of its own (R440 to R444) -/

/-- The command as its body takes it. -/
def cmdOf (ch : Chan) (code : Nat) (h : Hdr) (p : List Byte) : CmdIn := { chans := [ch], hdr := hdrBytes code h, p := p }

/-- The state in which an accepted command runs: its bytes are in the channel's buffer, the channel executes. -/
def taken (s : State) (ch : Chan) (code : Nat) (h : Hdr) (p : List Byte) : State :=
  ((s.writeCmd ch.val (hdrBytes code h) p).inc (MB_CMDCNT_COUNT ch.val)).p (MB_STAT_STATE ch.val) 1

/-- A command is taken at a channel of its own and passes checks 1 to 6 of R444, with nothing ahead of it. -/
def Accepts (s : State) (ch : Chan) (code : Nat) (h : Hdr) (p : List Byte) : Bool :=
  decide (4 ≤ ch.val) && s.mode != mDormant && s.on (MB_STAT_EN ch.val) && s.g (MB_STAT_STATE ch.val) != 1 &&
  h.len.toNat == p.length && decide (p.length ≤ 1008) &&
  (taken s ch code h p).checkCmd ch.val (hdrBytes code h) p == none && !(taken s ch code h p).cmdBusy

/-- A lane's post of a command at its channel (R55, R69): its bytes are in the buffer, the channel executes, and they meet the other
lanes' bytes at the next place of the task's stream. -/
def lanePost (s : State) (ch : Chan) (code : Nat) (h : Hdr) (p : List Byte) : State × Arrival :=
  let l : Lane := Fin.ofNat 4 ch.val
  let s := taken s ch code h p
  let t : Task := Fin.ofNat 16 (leAt (hdrBytes code h ++ p) 6 2)
  let place := (s.lt ch.val t.val).cmdPos
  (s.modLt ch.val t.val (fun x => { x with cmdPos := place + 1 })).postStream .command (.task t) place l (hdrBytes code h ++ p)

/-- The command as the majority's body takes it: it is answered on the channels of all Voting and Spare lanes. -/
def laneCmdOf (s : State) (code : Nat) (h : Hdr) (p : List Byte) : CmdIn := { chans := s.laneChans, hdr := hdrBytes code h, p := p }

/-- A lane's post, of a task that does not speculate, that forms the majority and passes checks 1 to 6, with nothing ahead of it. -/
def Forms (s : State) (ch : Chan) (code : Nat) (h : Hdr) (p : List Byte) : Bool :=
  let x := lanePost s ch code h p
  decide (ch.val < 4) && !(s.variant == .zm60 && ch.val == 3) && s.specPoster ch.val == none && s.mode != mDormant && s.on (MB_STAT_EN ch.val) &&
  s.g (MB_STAT_STATE ch.val) != 1 &&
  h.len.toNat == p.length && decide (p.length ≤ 1008) && x.2 == .formed (hdrBytes code h ++ p) &&
  x.1.checkCmd (laneCmdOf x.1 code h p).chan (hdrBytes code h) p == none && !x.1.cmdBusy

/-- The state and the command with which a posted command's body runs at once: at a channel of its own, or as the post that forms the
lanes' majority. -/
def runs (s : State) (ch : Chan) (code : Nat) (h : Hdr) (p : List Byte) : Option (State × CmdIn) :=
  if Accepts s ch code h p then some (taken s ch code h p, cmdOf ch code h p)
  else if Forms s ch code h p then some ((lanePost s ch code h p).1, laneCmdOf (lanePost s ch code h p).1 code h p)
  else none

/-- The end of a command that check 7 turns away: the status, no effect (R444, R445). -/
def refusedWith (a : State) (c : CmdIn) (status : Nat) : State := a.respond (c.chans.map (·.val)) c.hdr c.p status []

end Sys2Proof.Safety
end

