-- ==== Sys2Proof/Certificates/Slice0/Obligations.lean ====
section
/-! DEFINITION. The statements for the provers. -/

open Sys2Proof Sys2Proof.Machine Sys2Proof.Safety


/-- One step of the block: the command at the front of the queue is taken from it and runs with the rest; with no command waiting, 8 ns
of time pass. That the clock ticks on an empty queue is the model's choice, log entry 2. -/
def Obligations.StepRunsTheFrontCommand : Prop :=
  ∀ (s : State) (c : Instr) (cs : List Instr),
    step { s with pending := c :: cs } = exec c { s with pending := cs } ∧
    step { s with pending := [] } = .next ({ s with pending := [] } : State).tick

/-- What reset leaves: every register at the reset value of its table but the eight that the hardware loads or the model chooses (the identity's
fitted parts, the seal, the lanes' own numbers and states, debug access of a Blank module), mode Boot after a power-on, no lane Voting, every
output and drive gated, nothing held in a buffer, no command waiting. That the module is a blank ZM80 with empty stores is the model's choice, log
entry 3. -/
def Obligations.ResetLeavesTheStatedValues : Prop :=
  let s := State.reset
  (∀ a, a ∉ [0x40000000, 0x40000004, 0x40020004, 0x40090004, 0x70060000, 0x71060000, 0x72060000, 0x73060000] → s.regs.rd a = regReset a) ∧
  s.mode = mBoot ∧ s.g LC_RSTCAUSE_CAUSE = 0 ∧ s.g LC_STATE_LCS = 0 ∧ s.on LC_STATE_DBGPERM = true ∧ s.on FC_STAT_HALT = false ∧ s.gated = true ∧
  (∀ l : Lane, s.laneSt l.val = laResetting ∧ s.lane l.val = resetLaneSt) ∧ s.g TU_STAT_SSTATE = 0 ∧ s.g FD_STAT_SUPPLY = 0 ∧
  s.pending = [] ∧ s.mb = [] ∧ s.tx = [] ∧ s.parts = [] ∧ s.waiting = none ∧ s.queued = [] ∧ s.app.state = .notLoaded ∧ s.records = []

/-- The canonical form holds at reset. -/
def Obligations.ResetMemoryIsCanonical : Prop :=
  Canonical State.reset

/-- Every step keeps the canonical form: the registers, the mailbox buffers and the four lanes' memories keep rising keys and no entry that equals
what an unlisted key reads as, whatever command runs and in whatever state, and also when time passes. -/
def Obligations.EveryStepKeepsMemoryCanonical : Prop :=
  ∀ s t : State, Canonical s → step s = .next t → Canonical t

/-- Every command completes: a step answers a next state in every state, without a fault and without a refusal; the queue has lost its front
command and nothing else, and the module stays the variant it is. -/
def Obligations.EveryStepCompletesAndPopsOneCommand : Prop :=
  ∀ s : State, ∃ t : State, step s = .next t ∧ t.pending = s.pending.tail ∧ t.variant = s.variant

/-- A command's doorbell and the checks before it runs (R440, R441, R444): each row of the command groups posts its own code; a closed channel and an
executing one refuse the doorbell; on a channel of its own the first of checks 1 to 6 that fails gives the status, and the command has no
other effect. `STATE_REJECT` is counted in `MB_SREJCNT` (R445). The post of a task that speculates enters its lane's deferral queue (R132).

A command with a code that no row of R463 to R494 has is answered `BAD_CODE` (R7, R444): at a channel of its own, and on the lanes' channels once
the lanes agree on it.

Its completion is stated of unknownCommand, whose effect is that answer. -/
def Obligations.CommandsPassTheChecksInOrder : Prop :=
  (∀ (s : State) (ch : Chan) (code : BitVec 16) (h : Hdr) (p : List Byte) (st : Nat),
     exec (.modReset ch h p) s = .next (s.postCmd ch 0x0101 h p) ∧
     exec (.modIdentify ch h p) s = .next (s.postCmd ch 0x0102 h p) ∧
     exec (.modStatus ch h p) s = .next (s.postCmd ch 0x0103 h p) ∧
     exec (.modSetmode ch h p) s = .next (s.postCmd ch 0x0104 h p) ∧
     exec (.modTagRead ch h p) s = .next (s.postCmd ch 0x0105 h p) ∧
     exec (.modTagWrite ch h p) s = .next (s.postCmd ch 0x0106 h p) ∧
     exec (.modWakecfg ch h p) s = .next (s.postCmd ch 0x0107 h p) ∧
     exec (.appStage ch h p) s = .next (s.postCmd ch 0x0201 h p) ∧
     exec (.appLoad ch h p) s = .next (s.postCmd ch 0x0202 h p) ∧
     exec (.appStart ch h p) s = .next (s.postCmd ch 0x0203 h p) ∧
     exec (.appStop ch h p) s = .next (s.postCmd ch 0x0204 h p) ∧
     exec (.appRestart ch h p) s = .next (s.postCmd ch 0x0205 h p) ∧
     exec (.appNextstart ch h p) s = .next (s.postCmd ch 0x0206 h p) ∧
     exec (.appOlcLoad ch h p) s = .next (s.postCmd ch 0x0207 h p) ∧
     exec (.appOlcApply ch h p) s = .next (s.postCmd ch 0x0208 h p) ∧
     exec (.pairSplit ch h p) s = .next (s.postCmd ch 0x0209 h p) ∧
     exec (.pairJoin ch h p) s = .next (s.postCmd ch 0x020A h p) ∧
     exec (.appStatus ch h p) s = .next (s.postCmd ch 0x020B h p) ∧
     exec (.forceSet ch h p) s = .next (s.postCmd ch 0x0301 h p) ∧
     exec (.forceClear ch h p) s = .next (s.postCmd ch 0x0302 h p) ∧
     exec (.forceClearall ch h p) s = .next (s.postCmd ch 0x0303 h p) ∧
     exec (.forceList ch h p) s = .next (s.postCmd ch 0x0304 h p) ∧
     exec (.timeConfig ch h p) s = .next (s.postCmd ch 0x0401 h p) ∧
     exec (.timeTrigger ch h p) s = .next (s.postCmd ch 0x0402 h p) ∧
     exec (.timeCapture ch h p) s = .next (s.postCmd ch 0x0403 h p) ∧
     exec (.timeStatus ch h p) s = .next (s.postCmd ch 0x0404 h p) ∧
     exec (.ringSched ch h p) s = .next (s.postCmd ch 0x0501 h p) ∧
     exec (.ringCommit ch h p) s = .next (s.postCmd ch 0x0502 h p) ∧
     exec (.ringStatus ch h p) s = .next (s.postCmd ch 0x0503 h p) ∧
     exec (.ethConfig ch h p) s = .next (s.postCmd ch 0x0601 h p) ∧
     exec (.ethStatus ch h p) s = .next (s.postCmd ch 0x0602 h p) ∧
     exec (.safeLoad ch h p) s = .next (s.postCmd ch 0x0701 h p) ∧
     exec (.sealAccept ch h p) s = .next (s.postCmd ch 0x0702 h p) ∧
     exec (.scAck ch h p) s = .next (s.postCmd ch 0x0703 h p) ∧
     exec (.safeStatus ch h p) s = .next (s.postCmd ch 0x0704 h p) ∧
     exec (.fioConfig ch h p) s = .next (s.postCmd ch 0x0801 h p) ∧
     exec (.fioRelease ch h p) s = .next (s.postCmd ch 0x0802 h p) ∧
     exec (.fioStatus ch h p) s = .next (s.postCmd ch 0x0803 h p) ∧
     exec (.unitConfig ch h p) s = .next (s.postCmd ch 0x0901 h p) ∧
     exec (.unitHandover ch h p) s = .next (s.postCmd ch 0x0902 h p) ∧
     exec (.unitWitness ch h p) s = .next (s.postCmd ch 0x0903 h p) ∧
     exec (.unitStatus ch h p) s = .next (s.postCmd ch 0x0904 h p) ∧
     exec (.faultAck ch h p) s = .next (s.postCmd ch 0x0A01 h p) ∧
     exec (.faultHistory ch h p) s = .next (s.postCmd ch 0x0A02 h p) ∧
     exec (.faultInject ch h p) s = .next (s.postCmd ch 0x0A03 h p) ∧
     exec (.faultStatus ch h p) s = .next (s.postCmd ch 0x0A04 h p) ∧
     exec (.evRead ch h p) s = .next (s.postCmd ch 0x0B01 h p) ∧
     exec (.evStatus ch h p) s = .next (s.postCmd ch 0x0B02 h p) ∧
     exec (.evClear ch h p) s = .next (s.postCmd ch 0x0B03 h p) ∧
     exec (.upManifest ch h p) s = .next (s.postCmd ch 0x0C01 h p) ∧
     exec (.upChunk ch h p) s = .next (s.postCmd ch 0x0C02 h p) ∧
     exec (.upStatus ch h p) s = .next (s.postCmd ch 0x0C03 h p) ∧
     exec (.upActivate ch h p) s = .next (s.postCmd ch 0x0C04 h p) ∧
     exec (.upAbandon ch h p) s = .next (s.postCmd ch 0x0C05 h p) ∧
     exec (.testRegread ch h p) s = .next (s.postCmd ch 0x0D01 h p) ∧
     exec (.testLoop ch h p) s = .next (s.postCmd ch 0x0D02 h p) ∧
     exec (.testProd ch h p) s = .next (s.postCmd ch 0x0D03 h p) ∧
     exec (.lcChange ch h p) s = .next (s.postCmd ch 0x0E01 h p) ∧
     exec (.lcDebugtoken ch h p) s = .next (s.postCmd ch 0x0E02 h p) ∧
     exec (.unknownCommand ch code h p) s = .next (s.postCmd ch code.toNat h p) ∧
     (s.mode = mDormant → s.postCmd ch code.toNat h p = s) ∧
     (∀ t, s.mode ≠ mDormant → s.specPoster ch.val = some t → s.postCmd ch code.toNat h p = s.deferCmd ch.val t (hdrBytes code.toNat h ++ p)) ∧
     (s.mode ≠ mDormant → ¬ (s.variant = .zm60 ∧ ch.val = 3) → s.specPoster ch.val = none →
       (s.on (MB_STAT_EN ch.val) = false → ∃ a : State, s.postCmd ch code.toNat h p = a.notice 0x22 3 ch.val (a.word (MB_STAT_STATE ch.val)) ∧
         a.g (MB_STAT_REJ ch.val) = 1 ∧ a.g (MB_STAT_REJST ch.val) = stNotPresent) ∧
       (s.on (MB_STAT_EN ch.val) = true → s.g (MB_STAT_STATE ch.val) = 1 → ∃ t : State, s.postCmd ch code.toNat h p = t ∧
         t.g (MB_STAT_REJ ch.val) = 1 ∧ t.g (MB_STAT_REJST ch.val) = stBusy ∧ t.g (MB_STAT_STATE ch.val) = 1 ∧
         t.g (MB_BUSYCNT_COUNT ch.val) = (s.g (MB_BUSYCNT_COUNT ch.val) + 1) % 2 ^ (MB_BUSYCNT_COUNT ch.val).w)) ∧
     (4 ≤ ch.val → s.mode ≠ mDormant → s.on (MB_STAT_EN ch.val) = true → s.g (MB_STAT_STATE ch.val) ≠ 1 → h.len.toNat = p.length →
       let a := taken s ch code.toNat h p
       let hd := hdrBytes code.toNat h
       (a.checkCmd ch.val hd p = some st → p.length ≤ 1008 → s.postCmd ch code.toNat h p = refusedWith a (cmdOf ch code.toNat h p) st) ∧
       (1008 < p.length → s.postCmd ch code.toNat h p = refusedWith a (cmdOf ch code.toNat h (p.take 1008)) stBadLength) ∧
       (p.length ≤ 1008 → 1 < h.flags.toNat ∨ h.rsvd ≠ 0 ∨ h.chspec ≠ 0 → a.checkCmd ch.val hd p = some stBadParam) ∧
       (p.length ≤ 1008 → h.flags.toNat ≤ 1 → h.rsvd = 0 → h.chspec = 0 →
         (cmdRow code.toNat = none → a.checkCmd ch.val hd p = some stBadCode) ∧
         (∀ r, cmdRow code.toNat = some r →
           ((∀ e ∈ r.lens, ¬ (e.1 ≤ p.length ∧ p.length ≤ e.2)) → a.checkCmd ch.val hd p = some stBadLength) ∧
           ((∃ e ∈ r.lens, e.1 ≤ p.length ∧ p.length ≤ e.2) →
             (chanAccepts (a.g LC_STATE_LCS) ch.val r p = false → a.checkCmd ch.val hd p = some stAuth) ∧
             (chanAccepts (a.g LC_STATE_LCS) ch.val r p = true → a.modeAccepts code.toNat ch.val p = false → a.checkCmd ch.val hd p = some stStateReject) ∧
             (chanAccepts (a.g LC_STATE_LCS) ch.val r p = true → a.modeAccepts code.toNat ch.val p = true → a.checkCmd ch.val hd p = none))))) ∧
     (4 ≤ ch.val → s.on (MB_STAT_EN ch.val) = true → s.g (MB_STAT_STATE ch.val) = 1 → h.flags.toNat = 0 →
       (refusedWith s (cmdOf ch code.toNat h p) stStateReject).g (MB_SREJCNT_COUNT ch.val) =
         (s.g (MB_SREJCNT_COUNT ch.val) + 1) % 2 ^ (MB_SREJCNT_COUNT ch.val).w ∧
       (refusedWith s (cmdOf ch code.toNat h p) stStateReject).records = s.records)) ∧
  (∀ (s : State) (ch : Chan) (code : BitVec 16) (h : Hdr) (p : List Byte), s.mode ≠ mDormant → s.on (MB_STAT_EN ch.val) = true →
     s.g (MB_STAT_STATE ch.val) ≠ 1 → h.len.toNat = p.length → p.length ≤ 1008 → h.flags.toNat ≤ 1 → h.rsvd = 0 → cmdRow code.toNat = none →
     (4 ≤ ch.val → h.chspec = 0 →
       exec (.unknownCommand ch code h p) s = .next (refusedWith (taken s ch code.toNat h p) (cmdOf ch code.toNat h p) stBadCode)) ∧
     (ch.val < 4 → ¬ (s.variant = .zm60 ∧ ch.val = 3) → s.specPoster ch.val = none → h.chspec.toNat ≤ 15 →
       (lanePost s ch code.toNat h p).2 = .formed (hdrBytes code.toNat h ++ p) →
       exec (.unknownCommand ch code h p) s = .next (refusedWith (lanePost s ch code.toNat h p).1
         (laneCmdOf (lanePost s ch code.toNat h p).1 code.toNat h p) stBadCode)))

/-- A response has the layout of R443: the command's code, tag and flags, the length, the status, eight reserved bytes of 0, then the payload, which is
empty with any other status than `OK` and `STATE_REJECT`; the channel is then Done. The payload of a `STATE_REJECT` response is that of R446: the
mode, the life-cycle state and the mask of the modes that accept the command (`MOD_SETMODE` is accepted without effect in the mode that it names,
which its mask does not show, R471). -/
def Obligations.ResponsesHaveTheirLayout : Prop :=
  ∀ (s : State) (ch : Chan) (code : BitVec 16) (h : Hdr) (p payload : List Byte) (status m : Nat), status < 0x10000 →
    s.on (MB_STAT_EN ch.val) = true → s.g (MB_STAT_STATE ch.val) = 1 → payload.length ≤ 1008 → m < 12 →
    let out := if status = stOk ∨ status = stStateReject then payload else []
    let t := s.respondOn ch.val (hdrBytes code.toNat h) status payload
    let base := 0x1000 * ch.val + 0x400
    let r := s.rejectPayload code.toNat ch.val p
    let lcs := s.g LC_STATE_LCS
    leAt (t.mb.rdN base 16) 0 2 = code.toNat ∧ byteAt (t.mb.rdN base 16) 2 = h.tag.toNat ∧ byteAt (t.mb.rdN base 16) 3 = h.flags.toNat ∧
    leAt (t.mb.rdN base 16) 4 2 = out.length ∧ leAt (t.mb.rdN base 16) 6 2 = status ∧ leAt (t.mb.rdN base 16) 8 8 = 0 ∧
    t.mb.rdN (base + 16) out.length = out ∧ t.g (MB_STAT_STATE ch.val) = 2 ∧
    (4 ≤ ch.val → status = stStateReject → s.respond [ch.val] (hdrBytes code.toNat h) p status payload =
      s.respondOn ch.val (hdrBytes code.toNat h) status r) ∧
    r.length = 4 ∧ byteAt r 0 = s.mode ∧ byteAt r 1 = lcs ∧
    (lcsAccepts lcs code.toNat = false → leAt r 2 2 = 0) ∧
    (code.toNat ≠ 0x0104 → (bit (leAt r 2 2) m = true ↔ (s.p LC_MODE_MODE m).modeAccepts code.toNat ch.val p = true))

/-- Module group, the reading commands (R470, R469): each is answered `OK` with the bytes of the rule; `MOD_TAG_READ` of no bytes or
beyond byte 255 of the area is answered `BAD_PARAM`. Nothing but the response changes.

`MOD_TAG_WRITE` (R436, R469) writes exactly the bytes it names, in the tag area and nowhere else; a run beyond byte 255 or a
reserved field that is not 0 is answered `BAD_PARAM`.

`MOD_SETMODE` (R471): the payload is a mode code of the five and zeros, else `BAD_PARAM`; the present mode is answered `OK` without
effect; each other target takes its row of R420, where that row's conditions hold, else `VERIFY_FAIL`; Synchronising from Parked is a wake,
answered when the lanes run; Parked waits aside, one such command at a time.

`MOD_RESET` (R469) answers `OK` and resets the module with cause 1; what a reset leaves (R424): Boot, an empty mailbox, no command
under way, no application running, no force, no committed part, every lane wiped, the cause in `LC_RSTCAUSE`.

Completion is stated of modIdentify, modStatus, modTagRead, modTagWrite, modSetmode, modReset. -/
def Obligations.ModuleCommandsReadTagModeReset : Prop :=
  (∀ (s a : State) (ch : Chan) (h : Hdr) (p : List Byte) (c : CmdIn),
     (runs s ch 0x0102 h p = some (a, c) → exec (.modIdentify ch h p) s = .next (a.answered c
       (a.factory ++ leBytes 2 2 ++ leBytes 1 (a.g UP_STAT_ACTBANK) ++ leBytes 1 a.mode ++ leBytes 1 (a.g LC_STATE_LCS) ++ leBytes 3 0) false)) ∧
     (runs s ch 0x0103 h p = some (a, c) → exec (.modStatus ch h p) s = .next (a.answered c
       (leBytes 1 a.mode ++ leBytes 1 (a.g LC_MODE_LEVEL) ++ leBytes 1 (a.g LC_STATE_LCS) ++ leBytes 1 a.app.state.code ++
         leBytes 2 (a.word VX_LANES_STA).toNat ++ leBytes 1 (a.g TU_STAT_SSTATE) ++
         leBytes 1 ((if a.holdsLight then 1 else 0) + 2 * a.g FC_STAT_FROZEN + (if a.pending123 then 4 else 0) + (if a.forceActive then 8 else 0)) ++
         leBytes 1 (a.g LC_RSTCAUSE_CAUSE) ++ leBytes 3 0 ++ leBytes 4 (a.g LC_PWRCYC_COUNT)) false)) ∧
     (runs s ch 0x0105 h p = some (a, c) → exec (.modTagRead ch h p) s = .next (
       if leAt p 2 2 = 0 ∨ 256 < leAt p 0 2 + leAt p 2 2 then refusedWith a c stBadParam
       else a.answered c ((a.tags.drop (leAt p 0 2)).take (leAt p 2 2)) false))) ∧
  (∀ (s a : State) (ch : Chan) (h : Hdr) (p : List Byte) (c : CmdIn), runs s ch 0x0106 h p = some (a, c) →
     (leAt p 2 2 ≠ 0 ∨ 256 < leAt p 0 2 + (p.length - 4) → exec (.modTagWrite ch h p) s = .next (refusedWith a c stBadParam)) ∧
     (leAt p 2 2 = 0 ∧ leAt p 0 2 + (p.length - 4) ≤ 256 → ∃ t : State, exec (.modTagWrite ch h p) s = .next (t.answered c [] true) ∧
       (∀ k, k < 256 → t.tags[k]? = if leAt p 0 2 ≤ k ∧ k < leAt p 0 2 + (p.length - 4) then p[4 + (k - leAt p 0 2)]? else a.tags[k]?) ∧
       OnlyRegs a t (fun x => 0x40090200 ≤ x ∧ x < 0x40090300))) ∧
  (∀ (s a : State) (ch : Chan) (h : Hdr) (p : List Byte) (c : CmdIn), runs s ch 0x0104 h p = some (a, c) →
     let m := byteAt p 0
     (¬ (m ∈ [3, 4, 8, 9, 10] ∧ zeros p 1 4 = true) → exec (.modSetmode ch h p) s = .next (refusedWith a c stBadParam)) ∧
     (zeros p 1 4 = true → m ∈ [3, 4, 8, 9, 10] →
       (m = a.mode → exec (.modSetmode ch h p) s = .next (a.answered c [] false)) ∧
       (m ≠ a.mode →
         (m = 3 → exec (.modSetmode ch h p) s = .next ((a.enterMode mCommissioning 22).answered c [] true)) ∧
         (m = 8 → exec (.modSetmode ch h p) s = .next ((a.enterMode mMaintenance 19).answered c [] true)) ∧
         (m = 9 → exec (.modSetmode ch h p) s = .next ((a.enterMode mUpdate 20).answered c [] true)) ∧
         (m = 4 → a.mode = 3 → exec (.modSetmode ch h p) s = .next (
           if a.mayOperate ∧ ¬ a.fc.class3 then (a.enterMode mSynchronising 10).syncEntry.answered c [] true else refusedWith a c stVerifyFail)) ∧
         (m = 4 → a.mode = 8 → exec (.modSetmode ch h p) s = .next (
           if a.on LC_MODE_FISO then refusedWith a c stVerifyFail else (a.enterMode mSynchronising 21).answered c [] true)) ∧
         (m = 4 → a.mode = 9 → exec (.modSetmode ch h p) s = .next (
           if a.on LC_MODE_FISO then refusedWith a c stVerifyFail else (a.enterMode mSynchronising 24).answered c [] true)) ∧
         (m = 4 → a.mode ∉ [3, 8, 9] → exec (.modSetmode ch h p) s = .next (
           ({ a with app := { a.app with wakeChans := c.chans, wakeHdr := c.hdr } } : State).wake 0)) ∧
         (m = 10 → a.waiting.isSome → exec (.modSetmode ch h p) s = .next (refusedWith a c stResource)) ∧
         (m = 10 → a.waiting = none → ∃ t, exec (.modSetmode ch h p) s = .next t ∧
           t.waiting = some { code := 0x0104, chans := c.chans, hdr := c.hdr, payload := p, since := a.now } ∧
           t = { a with waiting := t.waiting, un := t.un } ∧
           (a.mode = 5 ∧ a.on UN_CFG_EN = true → t.un.noRenewal = true ∧ t.un.leaveTo = some (a.un.leaveTo.getD mParked)) ∧
           (¬ (a.mode = 5 ∧ a.on UN_CFG_EN = true) → t.un = a.un))))) ∧
  (∀ (s a : State) (ch : Chan) (h : Hdr) (p : List Byte) (c : CmdIn), runs s ch 0x0101 h p = some (a, c) →
     Gives (.modReset ch h p) s (fun t => t = (a.answered c [] true).moduleReset 1 c.chan 4 ∧
       t.mode = mBoot ∧ t.g LC_RSTCAUSE_CAUSE = 1 ∧ t.g LC_RSTCAUSE_CHAN = c.chan % 8 ∧ t.mb = [] ∧ t.queued = [] ∧ t.waiting = none ∧
       t.app.state = .notLoaded ∧ t.app.forces = [] ∧ t.parts = [] ∧ t.laneA = resetLaneSt ∧ t.laneB = resetLaneSt ∧ t.laneC = resetLaneSt ∧
       t.laneD = resetLaneSt))

/-- The settings commands (R469, R480, R483, R486, R519). A payload that breaks a rule of its command is answered `BAD_PARAM` and has no
effect; a legal one is written into its block, stored as the setting's record, stamped with the running settings version and answered `OK`.

What a legal payload is and what it writes. `MOD_WAKECFG` writes the wake input, the edge and `RTCEN` into `LC_WAKE` and the wake time into
`LC_WAKET` (R469) and nothing else; an input above 16, a flag byte above 3, a reserved byte that is not 0 or `RTCEN` with wake time 0 is
refused. `TIME_CONFIG` and `ETH_CONFIG` (R480, R483) write the registers they name, each with its writable fields, where every one of them
is legal after it; the clock's role follows `TIME_CONFIG`. `TIME_CAPTURE` (R480) writes its channel's `TU_CAPCFGn` and nothing else,
`EN` rising empties the channel. `TIME_TRIGGER` (R480) writes its channel's `TU_TRGCFGn` and `TU_TRGPERn` and holds the time to arm
at, or with `EN` 0 disarms the channel; a time already past with `EN` 1 is refused. `FIO_CONFIG` (R486) writes every field channel's
configuration, then the outputs follow.

Completion is stated of modWakecfg, timeConfig, timeCapture, timeTrigger, ethConfig, fioConfig. -/
def Obligations.SettingsCommandsApplyAndStore : Prop :=
  (∀ (s a : State) (ch : Chan) (h : Hdr) (p : List Byte) (c : CmdIn),
     (runs s ch 0x0107 h p = some (a, c) →
       (∀ t, a.applyWake p = some t → exec (.modWakecfg ch h p) s = .next
         ((({ t with cfg := { t.cfg with wake := some p } } : State).stamp 11).answered c [] true)) ∧
       (a.applyWake p = none → exec (.modWakecfg ch h p) s = .next (refusedWith a c stBadParam))) ∧
     (runs s ch 0x0401 h p = some (a, c) →
       (∀ t, a.applyTime p = some t → exec (.timeConfig ch h p) s = .next
         ((({ t with cfg := { t.cfg with time := some p } } : State).stamp 8).answered c [] true)) ∧
       (a.applyTime p = none → exec (.timeConfig ch h p) s = .next (refusedWith a c stBadParam))) ∧
     (runs s ch 0x0403 h p = some (a, c) →
       (∀ t, a.applyCap p = some t → exec (.timeCapture ch h p) s = .next
         ((({ t with cfg := { t.cfg with cap := tabIns t.cfg.cap (byteAt p 0) (capWord p) } } : State).stamp (32 + byteAt p 0)).answered c [] true)) ∧
       (a.applyCap p = none → exec (.timeCapture ch h p) s = .next (refusedWith a c stBadParam))) ∧
     (runs s ch 0x0402 h p = some (a, c) →
       (∀ t, a.applyTrig p = some t → byteAt p 3 ≠ 1 ∨ a.now ≤ leAt p 12 4 * 2 ^ 32 + leAt p 8 4 → exec (.timeTrigger ch h p) s = .next
         (((({ t with cfg := { t.cfg with trig := tabIns t.cfg.trig (byteAt p 0) p } } : State).stamp (16 + byteAt p 0)).trigTick).answered c [] true)) ∧
       (a.applyTrig p = none ∨ (byteAt p 3 = 1 ∧ leAt p 12 4 * 2 ^ 32 + leAt p 8 4 < a.now) →
         exec (.timeTrigger ch h p) s = .next (refusedWith a c stBadParam))) ∧
     (runs s ch 0x0601 h p = some (a, c) →
       (∀ t, a.applyEth p = some t → exec (.ethConfig ch h p) s = .next
         ((({ t with cfg := { t.cfg with eth := some p } } : State).stamp 9).answered c [] true)) ∧
       (a.applyEth p = none → exec (.ethConfig ch h p) s = .next (refusedWith a c stBadParam))) ∧
     (runs s ch 0x0801 h p = some (a, c) →
       (∀ t, a.applyFio p = some t → exec (.fioConfig ch h p) s = .next
         ((({ t with cfg := { t.cfg with fio := some p } } : State).stamp 10).answered c [] true)) ∧
       (a.applyFio p = none → exec (.fioConfig ch h p) s = .next (refusedWith a c stBadParam)))) ∧
  (∀ (a : State) (p : List Byte),
     let legal := byteAt p 2 = 0 ∧ byteAt p 3 = 0 ∧ byteAt p 0 ≤ 16 ∧ byteAt p 1 < 4 ∧ (byteAt p 1 < 2 ∨ leAt p 4 4 ≠ 0)
     (legal → ∃ t, a.applyWake p = some t ∧
       t.g LC_WAKE_WAKEDI = byteAt p 0 ∧ t.g LC_WAKE_EDGE = byteAt p 1 % 2 ∧ t.g LC_WAKE_RTCEN = byteAt p 1 / 2 ∧ t.g LC_WAKET_SEC = leAt p 4 4 ∧
       OnlyRegs a t (regIn [LC_WAKE_WAKEDI, LC_WAKET_SEC])) ∧
     (¬ legal → a.applyWake p = none)) ∧
  (∀ (a : State) (p : List Byte),
     let ptp := (0x50030004, wordOf p 0) :: (0x50030008, BitVec.ofNat 32 (leAt p 4 2)) :: (0x50000030, BitVec.ofNat 32 (byteAt p 6)) ::
       [0, 1, 2, 3].map (fun n => (0x50030048 + 16 * n, wordOf p (8 + 4 * n)))
     let eth := (0x50030000, wordOf p 0) :: [0, 1, 2, 3, 4].map (fun n => (0x50030040 + 16 * n, wordOf p (4 + 4 * n)))
     (∃ u, Wrote a u ptp ∧
       let ok := byteAt p 3 = 0 ∧ byteAt p 7 = 0 ∧ ∀ e ∈ ptp, a.legal u.regs e.1 = true
       (ok → a.applyTime p = some u.ptpChoose) ∧ (¬ ok → a.applyTime p = none)) ∧
     (∃ u, Wrote a u eth ∧
       let ok := byteAt p 29 = 0 ∧ byteAt p 30 = 0 ∧ byteAt p 31 = 0 ∧ 8 ≤ byteAt p 28 ∧ byteAt p 28 ≤ 30 ∧ ∀ e ∈ eth, a.legal u.regs e.1 = true
       (ok → a.applyEth p = some u) ∧ (¬ ok → a.applyEth p = none))) ∧
  (∀ (a : State) (p : List Byte),
     let n := byteAt p 0
     let legal := n < 16 ∧ byteAt p 1 < 64 ∧ byteAt p 2 / 4 % 32 = 0 ∧ capCfgLegal (capWord p) = true ∧ ∀ e ∈ a.app.pkg.capMap, e.1 ≠ n
     (legal → ∃ t, a.applyCap p = some t ∧
       t.g (TU_CAPCFG_SRC n) = byteAt p 1 ∧ t.g (TU_CAPCFG_EDGE n) = byteAt p 2 % 4 ∧ t.g (TU_CAPCFG_NODE n) = byteAt p 3 ∧ t.g (TU_CAPCFG_EN n) = byteAt p 2 / 128 ∧
       t = { a with regs := t.regs, tu := t.tu } ∧ RegsKeep a t (regIn [TU_CAPCFG_SRC n, TU_CAPSTAT_COUNT n]) ∧
       (byteAt p 2 / 128 = 1 ∧ a.on (TU_CAPCFG_EN n) = false →
         t.g (TU_CAPSTAT_COUNT n) = 0 ∧ t.on (TU_CAPSTAT_VALID n) = false ∧ t.on (TU_CAPSTAT_STEPPED n) = false ∧ tabGet (fun _ => []) t.tu.caps n = []) ∧
       (¬ (byteAt p 2 / 128 = 1 ∧ a.on (TU_CAPCFG_EN n) = false) → t.tu = a.tu ∧ t.word (TU_CAPSTAT_COUNT n) = a.word (TU_CAPSTAT_COUNT n))) ∧
     (¬ legal → a.applyCap p = none)) ∧
  (∀ (a : State) (p : List Byte),
     let n := byteAt p 0
     let fields := n < 16 ∧ a.on (TU_TRGCFG_APP n) = false ∧ byteAt p 1 < 64 ∧ byteAt p 2 ≤ 3 ∧ byteAt p 3 ≤ 1 ∧ leAt p 6 2 = 0
     let regs := [((TU_TRGCFG_TGT n).reg, BitVec.ofNat 32 (byteAt p 1 + 64 * byteAt p 2 + 256 * leAt p 4 2 + 0x1000000 * byteAt p 3)),
       ((TU_TRGPER_NS n).reg, wordOf p 16)]
     ∃ u, Wrote a u regs ∧
       let ok := fields ∧ ∀ e ∈ regs, a.legal u.regs e.1 = true
       (ok → ∃ t, a.applyTrig p = some t ∧
         (byteAt p 3 = 1 → t = { u with tu := { u.tu with
           trigLater := (n, leAt p 12 4 * 2 ^ 32 + leAt p 8 4) :: u.tu.trigLater.filter (fun e => e.1 != n) } }) ∧
         (byteAt p 3 = 0 → t.on (TU_TRGSTAT_ARMED n) = false ∧ (∀ e ∈ t.tu.trigLater, e.1 ≠ n) ∧ tabGet (fun _ => none) t.tu.trigNext n = none ∧
           t = { u with regs := t.regs, tu := t.tu } ∧ RegsKeep u t (regIn [TU_TRGSTAT_ARMED n]))) ∧
       (¬ ok → a.applyTrig p = none)) ∧
  (∀ (a : State) (p : List Byte),
     let aio := fun i => leAt p (36 + 2 * i) 2
     let ok := (∀ i, i < 16 → byteAt p i ≠ 0) ∧ (∀ i, i < 12 → byteAt p (16 + i) < 8 ∧ byteAt p (16 + i) % 4 ≠ 3) ∧ (∀ i, i < 4 → byteAt p (28 + i) < 3) ∧
       3 ≤ byteAt p 32 ∧ leAt p 33 3 = 0 ∧ ∀ i, i < 6 → aio i < 512 ∧ aio i / 4 % 4 ≠ 3 ∧ a.modeFits (i + 1) (aio i % 4) = true
     (ok → ∃ u : State, a.applyFio p = some u.driveOutputs ∧ u.fd.configured = true ∧ (∀ i, i < 16 → u.g (FD_DICFG_TOP (i + 1)) = byteAt p i) ∧
       (∀ i, i < 12 → u.g (FD_HSOCFG_SAFE (i + 1)) = byteAt p (16 + i) % 4 ∧ u.g (FD_HSOCFG_OWOFF (i + 1)) = byteAt p (16 + i) / 4) ∧
       (∀ i, i < 4 → u.g (FD_FPPCFG_SAFE (i + 1)) = byteAt p (28 + i)) ∧ u.g FD_SILCFG_N = byteAt p 32 ∧
       (∀ i, i < 6 → u.g (AN_CFG_MODE (i + 1)) = aio i % 4 ∧ u.g (AN_CFG_SAFE (i + 1)) = aio i / 4 % 4 ∧ u.g (AN_CFG_ALHIGH (i + 1)) = aio i / 16 % 2 ∧
         u.g (AN_CFG_CONV (i + 1)) = aio i / 32 % 2 ∧ u.g (AN_CFG_AVG (i + 1)) = aio i / 64)) ∧
     (¬ ok → a.applyFio p = none))

/-- `APP_STAGE` (R473): data enter a staging area at their offset, an offset of 0 begins the area anew; an area above 2, a reserved field
that is not 0 or data beyond the area's capacity is answered `BAD_PARAM`. Nothing else changes and no record is written.

`APP_LOAD`, `APP_OLC_LOAD` and `SAFE_LOAD` (R474, R476, R484): the staged package is read, a size of 0 or beyond what is staged being
`BAD_PARAM`; its signature is verified, else `VERIFY_FAIL`; its contents are checked, else `BAD_PARAM`; a package that passes is stored and its
hash returned. A loaded application is Stopped with it, the changes applied before forgotten. Whether a signature verifies and what a
package holds are the model's opaque constants (log entry 12): the statement holds for every value of them.

Completion is stated of appStage, appLoad, appOlcLoad, safeLoad. -/
def Obligations.StagedPackagesAreVerifiedThenStored : Prop :=
  (∀ (s a : State) (ch : Chan) (h : Hdr) (p : List Byte) (c : CmdIn), runs s ch 0x0201 h p = some (a, c) →
     let area := byteAt p 0
     let off := leAt p 4 4
     let d := p.drop 8
     (2 < area ∨ zeros p 1 4 = false ∨ stageCap area < off + d.length → exec (.appStage ch h p) s = .next (refusedWith a c stBadParam)) ∧
     (area ≤ 2 → zeros p 1 4 = true → off + d.length ≤ stageCap area → ∃ t : State, exec (.appStage ch h p) s = .next (t.answered c [] false) ∧
       t = { a with app := t.app } ∧
       (t.staged area).2 = max (if off = 0 then 0 else (a.staged area).2) (off + d.length) ∧
       (∀ k, (t.staged area).1.rd k = if off ≤ k ∧ k < off + d.length then (d[k - off]?).getD 0 else if off = 0 then 0 else (a.staged area).1.rd k) ∧
       (∀ other, other ≤ 2 → other ≠ area → t.staged other = a.staged other))) ∧
  (∀ (a : State) (area size : Nat), (size = 0 ∨ (a.staged area).2 < size → a.stagedPkg area size = none) ∧
     (size ≠ 0 → size ≤ (a.staged area).2 → a.stagedPkg area size = some ((a.staged area).1.rdN 0 size))) ∧
  (∀ (s a : State) (ch : Chan) (h : Hdr) (p : List Byte) (c : CmdIn),
     (runs s ch 0x0202 h p = some (a, c) → exec (.appLoad ch h p) s = .next (match a.stagedPkg 0 (leAt p 0 4) with
       | none => refusedWith a c stBadParam
       | some b =>
         if a.pkgSigned b = false then refusedWith a c stVerifyFail
         else match Config.parseApp b with
         | none => refusedWith a c stBadParam
         | some q =>
           if a.appChecks q = false then refusedWith a c stBadParam
           else ({ a with app := { a.app with stored := some q, changes := [], state := .stopped, pkg := q, hash := q.codeHash, badImage := false
                                              olcPkg := none, olcHash := [] } } : State).placePkg.answered c (padTo 32 (Config.sha256 b)) true)) ∧
     (runs s ch 0x0207 h p = some (a, c) → exec (.appOlcLoad ch h p) s = .next (match a.stagedPkg 1 (leAt p 0 4) with
       | none => refusedWith a c stBadParam
       | some b =>
         if a.pkgSigned b = false then refusedWith a c stVerifyFail
         else if a.app.state = .notLoaded then refusedWith a c stNotPresent
         else match Config.parseApp b with
         | none => refusedWith a c stBadParam
         | some q =>
           if a.app.pkg.keeps q = true ∧ q.tasksOk = true ∧ a.sharedChecks q = true then
             ({ a with app := { a.app with olcPkg := some q, olcHash := padTo 32 (Config.sha256 b) } } : State).answered c (padTo 32 (Config.sha256 b)) true
           else refusedWith a c stBadParam)) ∧
     (runs s ch 0x0701 h p = some (a, c) → exec (.safeLoad ch h p) s = .next (match a.stagedPkg 2 (leAt p 0 4) with
       | none => refusedWith a c stBadParam
       | some b =>
         if a.pkgSigned b = false then refusedWith a c stVerifyFail
         else match Config.parseSafety b with
         | none => refusedWith a c stBadParam
         | some k =>
           if a.safeOk k = false then refusedWith a c stBadParam
           else (({ a with keys := { a.keys with safe := some k, safeHash := padTo 32 (Config.sha256 b) } } : State).loadSafe.evalSeal).answered c
             (padTo 32 (Config.sha256 b)) true)))

/-- `APP_START`, `APP_STOP` and `APP_RESTART` (R475): an illegal start kind is `BAD_PARAM`, no application `NOT_PRESENT`. A start of a stopped
application leaves it Starting with the start kind of R115, no anchor and no on-line change counted, and the command open until it runs; a start that
meets one under way takes its place as the command to answer; with an application that runs it is answered `OK` without effect. A stop of
an application that starts or runs leaves it Stopped, its forces removed, an open start answered; else it is answered `OK` without effect. A restart
stops, then starts.

`APP_NEXTSTART` writes `LC_NEXT.KIND` and nothing else (R472); `APP_STATUS` returns the bytes of R477, the anchor only while the
application runs.

The waiting commands of the application (R81, R476, R467): `APP_OLC_APPLY`, `PAIR_SPLIT` and `PAIR_JOIN` check their payload and what they
name, are answered at once where nothing is left to do, and else wait aside for their execution point, one at a time; while one waits, new
speculation is inhibited in every lane that runs (R145).

Completion is stated of appStart, appStop, appRestart, appNextstart, appStatus, appOlcApply, pairSplit, pairJoin. -/
def Obligations.ApplicationCommandsFollowItsState : Prop :=
  (∀ (s a : State) (ch : Chan) (h : Hdr) (p : List Byte) (c : CmdIn),
     (runs s ch 0x0203 h p = some (a, c) →
       (kindOk p = false → exec (.appStart ch h p) s = .next (refusedWith a c stBadParam)) ∧
       (kindOk p = true →
         (a.app.state = .notLoaded → exec (.appStart ch h p) s = .next (refusedWith a c stNotPresent)) ∧
         (a.app.state = .stopped → ∃ t, exec (.appStart ch h p) s = .next t ∧ t = a.startFor c ∧ t.app.state = .starting ∧
           t.app.startChans = c.chans ∧ t.app.startHdr = c.hdr ∧ t.app.startPay = p ∧ t.app.startByReady = false ∧ t.app.anchor = none ∧ t.app.olcCount = 0 ∧
           t.app.startKind =
             (if (byteAt p 0 = 2 ∨ (byteAt p 0 = 0 ∧ a.app.pkg.warm = true)) ∧ a.app.retSig = some a.app.pkg.layoutSig ∧ a.app.retOk = true then 2 else 1)) ∧
         (a.app.state = .starting → exec (.appStart ch h p) s = .next
           { a with app := { a.app with startChans := c.chans, startHdr := c.hdr, startPay := p } }) ∧
         (a.app.state ∈ [.running, .changing, .held] → exec (.appStart ch h p) s = .next (a.answered c [] false)))) ∧
     (runs s ch 0x0204 h p = some (a, c) →
       (a.app.state ∈ [.notLoaded, .stopped] → exec (.appStop ch h p) s = .next (a.answered c [] false)) ∧
       (a.app.state ∈ [.starting, .running, .changing, .held] → ∃ t, exec (.appStop ch h p) s = .next (State.answered t c [] true) ∧
         t = a.abortWaiting.appStop ∧ t.app.state = .stopped ∧ t.app.forces = [] ∧ t.app.startChans = [])) ∧
     (runs s ch 0x0205 h p = some (a, c) →
       (kindOk p = false → exec (.appRestart ch h p) s = .next (refusedWith a c stBadParam)) ∧
       (kindOk p = true →
         (a.app.state = .notLoaded → exec (.appRestart ch h p) s = .next (refusedWith a c stNotPresent)) ∧
         (a.app.state ≠ .notLoaded → ∃ t, exec (.appRestart ch h p) s = .next t ∧ t = a.abortWaiting.appStop.startFor c ∧ t.app.state = .starting ∧
           t.app.startChans = c.chans ∧ t.app.startHdr = c.hdr ∧ t.app.startPay = p ∧ t.app.anchor = none ∧ t.app.olcCount = 0)))) ∧
  (∀ (s a : State) (ch : Chan) (h : Hdr) (p : List Byte) (c : CmdIn),
     (runs s ch 0x0206 h p = some (a, c) →
       (kindOk p = false → exec (.appNextstart ch h p) s = .next (refusedWith a c stBadParam)) ∧
       (kindOk p = true → ∃ t : State, exec (.appNextstart ch h p) s = .next (t.answered c [] (a.g LC_NEXT_KIND != byteAt p 0)) ∧
         t.g LC_NEXT_KIND = byteAt p 0 ∧ OnlyRegs a t (regIn [LC_NEXT_KIND]))) ∧
     (runs s ch 0x020B h p = some (a, c) → exec (.appStatus ch h p) s = .next (a.answered c
       (leBytes 1 a.app.state.code ++ leBytes 1 a.app.startKind ++ leBytes 2 0 ++ leBytes 4 a.app.olcCount ++
         leBytes 4 (if a.app.state = .running then a.app.anchor.getD 0 else 0) ++
         leBytes 4 ((if a.app.state = .running then a.app.anchor.getD 0 else 0) / 2 ^ 32) ++ padTo 32 a.app.hash) false))) ∧
  (∀ (s a : State) (ch : Chan) (h : Hdr) (p : List Byte) (c : CmdIn),
     let aside := fun (code : Nat) => ({ a with waiting := some { code := code, chans := c.chans, hdr := c.hdr, payload := p, since := a.now } } : State).inhibit
     let n := byteAt p 0
     (runs s ch 0x0208 h p = some (a, c) →
       (a.app.olcPkg = none → exec (.appOlcApply ch h p) s = .next (refusedWith a c stNotPresent)) ∧
       (a.app.olcPkg ≠ none → a.app.olcHash ≠ p → exec (.appOlcApply ch h p) s = .next (refusedWith a c stVerifyFail)) ∧
       (a.app.olcPkg ≠ none → a.app.olcHash = p → a.waiting ≠ none → exec (.appOlcApply ch h p) s = .next (refusedWith a c stResource)) ∧
       (a.app.olcPkg ≠ none → a.app.olcHash = p → a.waiting = none → exec (.appOlcApply ch h p) s = .next (aside 0x0208))) ∧
     (runs s ch 0x0209 h p = some (a, c) →
       let bad := n = 0 ∨ 3 < n ∨ zeros p 1 4 = false ∨
         (∃ t ∈ List.range 16, (a.desc t).kind ≠ 0 ∧ (a.desc t).pair = n ∧ (a.desc t).safety = true) ∨ tabGet (fun _ => 0) a.app.pkg.entries n = 0
       (bad → exec (.pairSplit ch h p) s = .next (refusedWith a c stBadParam)) ∧
       (¬ bad → a.pairNow n = 2 → exec (.pairSplit ch h p) s = .next (a.answered c [] false)) ∧
       (¬ bad → a.pairNow n ≠ 2 → a.waiting ≠ none → exec (.pairSplit ch h p) s = .next (refusedWith a c stResource)) ∧
       (¬ bad → a.pairNow n ≠ 2 → a.waiting = none → exec (.pairSplit ch h p) s = .next (aside 0x0209))) ∧
     (runs s ch 0x020A h p = some (a, c) →
       let bad := n = 0 ∨ 3 < n ∨ zeros p 1 4 = false
       (bad → exec (.pairJoin ch h p) s = .next (refusedWith a c stBadParam)) ∧
       (¬ bad → a.pairNow n = 0 → exec (.pairJoin ch h p) s = .next (a.answered c [] false)) ∧
       (¬ bad → a.pairNow n ≠ 0 → a.waiting ≠ none → exec (.pairJoin ch h p) s = .next (refusedWith a c stResource)) ∧
       (¬ bad → a.pairNow n ≠ 0 → a.waiting = none → exec (.pairJoin ch h p) s = .next (aside 0x020A)))) ∧
  (∀ (a : State), (∀ l, l ∈ a.liveLanes → a.inhibit.on (RA_CTRL_INHIBIT l) = true) ∧ OnlyRegs a a.inhibit (fun x => ∃ l, l < 4 ∧ x = (RA_CTRL_INHIBIT l).reg))

/-- `FORCE_SET` (R118, R478): a symbol that is unknown, a safety symbol, neither input nor output, a reserved field or a value of another length is
`BAD_PARAM`; a forced symbol takes the new value with a record, the same value again is no change; a 257th force is `RESOURCE`; else the symbol
is forced, the list staying in rising order, with its record; the words of its image are marked.

`FORCE_CLEAR`, `FORCE_CLEARALL` and `FORCE_LIST` (R478): an unknown symbol is `BAD_PARAM`; removing what is not forced is no change; the
list gives up to 125 entries from the index.

Completion is stated of forceSet, forceClear, forceClearall, forceList. -/
def Obligations.ForcesAreSetClearedAndListed : Prop :=
  (∀ (s a : State) (ch : Chan) (h : Hdr) (p : List Byte) (c : CmdIn), runs s ch 0x0301 h p = some (a, c) →
     let id := leAt p 0 4
     let v := p.drop 8
     let free := fun (y : Symbol) => y.safety = false ∧ (y.input = true ∨ y.output = true) ∧ zeros p 4 8 = true ∧ v.length = y.len
     (a.symbol id = none → exec (.forceSet ch h p) s = .next (refusedWith a c stBadParam)) ∧
     (∀ y, a.symbol id = some y → ¬ free y → exec (.forceSet ch h p) s = .next (refusedWith a c stBadParam)) ∧
     (∀ y, a.symbol id = some y → free y →
       (∀ f, a.forceOn id = some f → f.value = v → exec (.forceSet ch h p) s = .next (a.answered c [] false)) ∧
       (∀ f, a.forceOn id = some f → f.value ≠ v → exec (.forceSet ch h p) s = .next
         ((({ a with app := { a.app with forces := a.app.forces.map (fun (g : Force) => if g.id == id then { g with value := v } else g) } } : State).recordEv
           { source := 0x0203, code := 2, cls := 0xFF, data := leBytes 4 id }).answered c [] true)) ∧
       (a.forceOn id = none → 256 ≤ a.app.forces.length → exec (.forceSet ch h p) s = .next (refusedWith a c stResource)) ∧
       (a.forceOn id = none → a.app.forces.length < 256 → exec (.forceSet ch h p) s = .next
         (((({ a with app := { a.app with forces := insBy (fun (x y : Force) => decide (x.id ≤ y.id)) { id := id, value := v } a.app.forces } } : State
           ).markForce id).predValid.recordEv { source := 0x0203, code := 1, cls := 0xFF, data := leBytes 4 id }).answered c [] true)))) ∧
  (∀ (s a : State) (ch : Chan) (h : Hdr) (p : List Byte) (c : CmdIn),
     (runs s ch 0x0302 h p = some (a, c) →
       (a.symbol (leAt p 0 4) = none → exec (.forceClear ch h p) s = .next (refusedWith a c stBadParam)) ∧
       ((a.symbol (leAt p 0 4)).isSome →
         (a.forceOn (leAt p 0 4) = none → exec (.forceClear ch h p) s = .next (a.answered c [] false)) ∧
         (∀ f, a.forceOn (leAt p 0 4) = some f → exec (.forceClear ch h p) s = .next ((a.removeForces [f] 0).answered c [] true)))) ∧
     (runs s ch 0x0303 h p = some (a, c) →
       (a.app.forces = [] → exec (.forceClearall ch h p) s = .next (a.answered c [] false)) ∧
       (a.app.forces ≠ [] → exec (.forceClearall ch h p) s = .next ((a.removeForces a.app.forces 0).answered c [] true))) ∧
     (runs s ch 0x0304 h p = some (a, c) → exec (.forceList ch h p) s = .next (
       if zeros p 2 4 = false then refusedWith a c stBadParam
       else
         let fs := (a.app.forces.drop (leAt p 0 2)).take 125
         a.answered c (leBytes 2 a.app.forces.length ++ leBytes 2 fs.length ++ fs.flatMap a.forceEntry) false)))

/-- `TIME_STATUS` (R480, R183): the Keeper takes one snapshot of `TU_NS`, its fraction and `TU_ERA` and answers with it.

`RING_SCHED` (R481): the entries enter the staged table at their numbers; a ring other than 1 and 2, no entry, more than 125, a reserved field
or entries beyond 4,095 are `BAD_PARAM`.

`RING_COMMIT` (R482): `NENT` 0 removes the ring's configuration; else the staged table is checked (R227, R229): a failing one leaves rule and
entry for `RING_STATUS` and is `BAD_PARAM`, a passing one is stored and stamped and its schedule identifier returned. `RING_STATUS` returns the
registers of R482.

The reading commands of Ethernet, safety, field I/O and unit (R483, R484, R485, R487): each is answered with the registers its rule lists and
changes nothing.

Completion is stated of timeStatus, ringSched, ringCommit, ringStatus, ethStatus, safeStatus, fioStatus, unitStatus. -/
def Obligations.TimeRingAndStatusCommands : Prop :=
  (∀ (s a : State) (ch : Chan) (h : Hdr) (p : List Byte) (c : CmdIn), runs s ch 0x0404 h p = some (a, c) →
     ∃ t out, exec (.timeStatus ch h p) s = .next (State.answered t c out false) ∧
       out.take 8 = leBytes 4 (a.g TU_NS_NS) ++ leBytes 4 (a.g TU_ERA_ERA) ∧ out.length = 32 ∧
       t.g TU_SNAPNS_NS = a.g TU_NS_NS ∧ t.g TU_SNAPERA_ERA = a.g TU_ERA_ERA ∧ t.g TU_SNAPFR_FRAC = a.tu.frac % 2 ^ 32 ∧
       OnlyRegs a t (regIn [TU_SNAPNS_NS, TU_SNAPERA_ERA, TU_SNAPFR_FRAC])) ∧
  (∀ (s a : State) (ch : Chan) (h : Hdr) (p : List Byte) (c : CmdIn), runs s ch 0x0501 h p = some (a, c) →
     let first := leAt p 2 2
     let n := leAt p 4 2
     let ok := zeros p 1 2 = true ∧ 1 ≤ n ∧ n ≤ 125 ∧ zeros p 6 8 = true ∧ first + n ≤ 4096 ∧ p.length = 8 + 8 * n
     (ringIdx p = none → exec (.ringSched ch h p) s = .next (refusedWith a c stBadParam)) ∧
     (∀ r, ringIdx p = some r → ¬ ok → exec (.ringSched ch h p) s = .next (refusedWith a c stBadParam)) ∧
     (∀ r, ringIdx p = some r → ok → ∃ t, exec (.ringSched ch h p) s = .next (State.answered t c [] false) ∧
       t = { a with ring1 := t.ring1, ring2 := t.ring2 } ∧
       (∀ e, t.stagedEnt r e = if first ≤ e ∧ e < first + n then (wordOf p (8 + 8 * (e - first)), wordOf p (12 + 8 * (e - first))) else a.stagedEnt r e) ∧
       t.ring (1 - r) = a.ring (1 - r))) ∧
  (∀ (s a : State) (ch : Chan) (h : Hdr) (p : List Byte) (c : CmdIn),
     (runs s ch 0x0502 h p = some (a, c) → exec (.ringCommit ch h p) s = .next (match ringIdx p with
       | none => refusedWith a c stBadParam
       | some r =>
         if zeros p 1 2 = false then refusedWith a c stBadParam
         else if leAt p 2 2 = 0 then
           (if a.ringCfg r = none then a.answered c (leBytes 4 0) false
            else ((a.setRingCfg r none).unstamp (r + 1)).answered c (leBytes 4 0) true)
         else
           let ws := (List.range (min (leAt p 2 2) 4097)).map (a.stagedEnt r)
           match ringCheck (leAt p 2 2) (wordOf p 4) (wordOf p 8) ws with
           | some (rule, e) => refusedWith (a.modRing r (fun x => { x with chkRule := rule, chkEntry := e })) c stBadParam
           | none => (((a.modRing r (fun x => { x with chkRule := 0, chkEntry := 0 })).setRingCfg r (some { nent := leAt p 2 2, ctrl := wordOf p 4, sync := wordOf p 8, entries := ws })).stamp (r + 1)).answered
               c (leBytes 2 (schedId (leAt p 2 2) (getBits (wordOf p 4) 12 5) (getBits (wordOf p 4) 5 1) ws) ++ leBytes 2 0) true)) ∧
     (runs s ch 0x0503 h p = some (a, c) → exec (.ringStatus ch h p) s = .next (match ringIdx p with
       | none => refusedWith a c stBadParam
       | some r =>
         if zeros p 1 4 = false then refusedWith a c stBadParam
         else a.answered c (a.regBytes (BZ_STAT_STATE r) ++ a.regBytes (BZ_JOIN_PHASE r) ++ a.regBytes (BZ_SYNCSTAT_PRESENT r) ++
           a.regBytes (BZ_FOLD_STATE r) ++ a.regBytes (BZ_MDELAY_NS r) ++ leBytes 2 (a.cfgSchedId r) ++ leBytes 1 (a.ring r).chkRule ++
           leBytes 1 0 ++ leBytes 2 (a.ring r).chkEntry ++ leBytes 6 0) false))) ∧
  (∀ (s a : State) (ch : Chan) (h : Hdr) (p : List Byte) (c : CmdIn),
     (runs s ch 0x0602 h p = some (a, c) → exec (.ethStatus ch h p) s = .next (a.answered c
       (a.regBytes EN_PTPSTAT_PRESENT ++ (a.regBytes (EN_PORT_LINK 0) ++ a.regBytes (EN_PORT_LINK 1) ++ a.regBytes (EN_PORT_LINK 2) ++
         a.regBytes (EN_PORT_LINK 3) ++ a.regBytes (EN_PORT_LINK 4)) ++ a.regBytes EN_PDLATE_COUNT ++ a.regBytes EN_PDERR_COUNT) false)) ∧
     (runs s ch 0x0704 h p = some (a, c) → exec (.safeStatus ch h p) s = .next (a.answered c
       (padTo 32 a.keys.safeHash ++ a.regBytes SF_SEAL_STATE ++ a.regBytes SF_TAMPERT_SEC) false)) ∧
     (runs s ch 0x0803 h p = some (a, c) → exec (.fioStatus ch h p) s = .next (a.answered c
       (a.outStatus { sil0 := a.fd.silEntries } ++ a.regBytes FD_DISTAT_FILT ++ leBytes 4 0) false)) ∧
     (runs s ch 0x0904 h p = some (a, c) → exec (.unitStatus ch h p) s = .next (a.answered c
       (a.regBytes UN_STAT_HOLD ++ a.regBytes UN_LEASE_NS ++ a.regBytes UN_LSEQ_LSEQ ++ a.regBytes UN_VERDICT_VERDICT ++
         a.regBytes UN_HEALTH_CHECKS ++ a.regBytes UN_PHEALTH_CHECKS ++ a.regBytes UN_TAKEOVER_COUNT ++ a.regBytes UN_FWDLOST_COUNT) false)))

/-- `SEAL_ACCEPT` (R313, R317): accepted is a valid reading, not older than 100 ms, whose loop is closed, whose seal positions are not all open and which
is the one the safety configuration names; the setting, the configuration's hash and `ACC` take it, the tamper latch and its time clear, the acceptance is recorded
with the old and the new setting; anything else is `VERIFY_FAIL`.

`SC_ACK` (R292, R484): a bit of a connection that is not valid is `BAD_PARAM`; else every named connection holds an acknowledgement that acts at
the next close of collection, and no other connection changes.

`FIO_RELEASE` (R336): a reserved bit is `BAD_PARAM`; the latches of the named channels are released even where the bank's is refused; a bank
whose latch may not be released is `VERIFY_FAIL`.

Completion is stated of sealAccept, scAck, fioRelease. -/
def Obligations.SafetyAndFieldCommands : Prop :=
  (∀ (a : State) (v : Byte), a.sealReading = some v ↔ (a.sf.valid = some v ∧ a.tu.upNs < a.sf.validAt + 100000000 ∧ a.on SF_SEAL_LOOP = true ∧
     v.toNat / 8 ≠ 0 ∧ ∃ k, a.keys.safe = some k ∧ v = k.sealSet)) ∧
  (∀ (s a : State) (ch : Chan) (h : Hdr) (p : List Byte) (c : CmdIn), runs s ch 0x0702 h p = some (a, c) →
     (a.sealReading = none → exec (.sealAccept ch h p) s = .next (refusedWith a c stVerifyFail)) ∧
     (∀ v, a.sealReading = some v →
       let old := (a.sf.accepted.getD 0).toNat
       let b := (({ a with sf := { a.sf with accepted := some v, accHash := a.keys.safeHash, tamper := false, tamperSec := 0 } } : State).p
         SF_SEAL_ACC v.toNat).p SF_SEAL_TAMPER 0
       exec (.sealAccept ch h p) s = .next (((b.p SF_TAMPERT_SEC 0).driveFuncs.evalSeal.recordEv
         { source := 0x0208, code := 1, cls := 0xFF,
           data := leBytes 1 old ++ leBytes 1 v.toNat ++ leBytes 1 (a.g SF_SEAL_STATE) ++ leBytes 1 (if a.sf.tamper then 1 else 0) }).answered c
         (leBytes 1 old ++ leBytes 1 v.toNat ++ leBytes 2 0) true))) ∧
  (∀ (s a : State) (ch : Chan) (h : Hdr) (p : List Byte) (c : CmdIn), runs s ch 0x0703 h p = some (a, c) →
     let named := fun r => bit (byteAt p (r / 8)) (r % 8)
     ((∃ r, r < 128 ∧ named r = true ∧ a.on (SC_RXCFG_VALID r) = false) → exec (.scAck ch h p) s = .next (refusedWith a c stBadParam)) ∧
     ((∀ r, r < 128 → named r = true → a.on (SC_RXCFG_VALID r) = true) → ∃ t w, exec (.scAck ch h p) s = .next (State.answered t c [] w) ∧
       (w = true ↔ ∃ r, r < 128 ∧ named r = true) ∧ t = { a with sc := t.sc } ∧
       (∀ r, r < 128 → t.rx r = if named r = true then { a.rx r with ack := true } else a.rx r))) ∧
  (∀ (s a : State) (ch : Chan) (h : Hdr) (p : List Byte) (c : CmdIn), runs s ch 0x0802 h p = some (a, c) →
     exec (.fioRelease ch h p) s = .next (
       if leAt p 0 4 / 2 % 0x8000 ≠ 0 then refusedWith a c stBadParam
       else if bit (leAt p 0 4) 0 = true ∧ a.bankReleasable = false then refusedWith (a.release (wordOf p 0)) c stVerifyFail
       else (a.release (wordOf p 0)).answered c [] (a.latchNamed (leAt p 0 4))))

/-- The unit's settings (R377, R487, R519): `UNIT` 0 removes the unit; a unit whose partner, witnesses or rings do not fit the stored ring
configurations is `BAD_PARAM`; else it is stored and stamped. A witness entry is checked, stored and stamped.

`UNIT_HANDOVER` (R397): with a configured unit whose partner is eligible the holder builds no renewal and is to leave the lease, to Hot Standby
unless an earlier command says where; the command is answered then. Else it is `VERIFY_FAIL`.

Completion is stated of unitConfig, unitWitness, unitHandover. -/
def Obligations.UnitCommandsStoreAndHandOver : Prop :=
  (∀ (s a : State) (ch : Chan) (h : Hdr) (p : List Byte) (c : CmdIn),
     (runs s ch 0x0901 h p = some (a, c) →
       let unit := leAt p 0 2
       let bw := byteAt p 4
       let rings := byteAt p 5
       let wits := byteAt p 3 :: (if bw = 0xFF then [] else [bw])
       let fits := byteAt p 2 < 16 ∧ (∀ w ∈ wits, w < 16) ∧ 1 ≤ rings ∧ rings ≤ 3 ∧
         (bit rings 0 = true → lightRingOk a.cfg.ring1 (byteAt p 2) wits = true) ∧ (bit rings 1 = true → lightRingOk a.cfg.ring2 (byteAt p 2) wits = true)
       (zeros p 6 8 = false → exec (.unitConfig ch h p) s = .next (refusedWith a c stBadParam)) ∧
       (zeros p 6 8 = true → unit = 0 → exec (.unitConfig ch h p) s = .next (if a.cfg.unit = none then a.answered c [] false
         else (({ a with cfg := { a.cfg with unit := none } } : State).unstamp 3).answered c [] true)) ∧
       (zeros p 6 8 = true → unit ≠ 0 → ¬ fits → exec (.unitConfig ch h p) s = .next (refusedWith a c stBadParam)) ∧
       (zeros p 6 8 = true → unit ≠ 0 → fits → exec (.unitConfig ch h p) s = .next
         ((({ a with cfg := { a.cfg with unit := some { unit := unit, partner := byteAt p 2, witness := byteAt p 3
                                                        backup := if bw = 0xFF then none else some bw
                                                        r1 := bit rings 0, r2 := bit rings 1 } } } : State).stamp 3).answered c [] true))) ∧
     (runs s ch 0x0903 h p = some (a, c) →
       let fits := byteAt p 0 < 4 ∧ byteAt p 1 < 4 ∧ ¬ (bit (byteAt p 1) 1 = true ∧ leAt p 2 2 = 0) ∧ byteAt p 4 < 16 ∧ byteAt p 5 < 16 ∧ zeros p 6 8 = true
       (¬ fits → exec (.unitWitness ch h p) s = .next (refusedWith a c stBadParam)) ∧
       (fits → exec (.unitWitness ch h p) s = .next
         ((({ a with cfg := { a.cfg with wit := tabSet (fun _ => 0) a.cfg.wit (byteAt p 0) (witWord p) } } : State).stamp (4 + byteAt p 0)).answered c [] true)))) ∧
  (∀ (s a : State) (ch : Chan) (h : Hdr) (p : List Byte) (c : CmdIn), runs s ch 0x0902 h p = some (a, c) →
     ((∃ q, a.un.partner = some q ∧ bit q.elig 0 = true ∧ a.on UN_CFG_EN = true) → exec (.unitHandover ch h p) s = .next
       { a with un := { a.un with noRenewal := true, leaveTo := some (a.un.leaveTo.getD mHotStandby), answer := some (c.chans, c.hdr, p) } }) ∧
     (¬ (∃ q, a.un.partner = some q ∧ bit q.elig 0 = true ∧ a.on UN_CFG_EN = true) →
       exec (.unitHandover ch h p) s = .next (refusedWith a c stVerifyFail)))

/-- Fault commands (R410, R488, R489): `FAULT_ACK` clears the `PEND` bits of its mask and nothing else; `FAULT_STATUS` reads the eight registers;
`FAULT_HISTORY` without unfreeze answers one half of the history.

`FAULT_HISTORY` (R412, R489): each half is answered; the freeze is lifted only on channel 4, with the second half, after the first was delivered
there; without the freeze `UNFREEZE` has no effect.

`FAULT_INJECT` (R413, R488): a class the source does not raise, a path above 1 or a reserved field is `BAD_PARAM`; else `FC_FORCEs` takes the
fault, and the answer says what the collector has seen: nothing on a failed path, the path failure for `PATH` 1, else the class and the code.

Completion is stated of faultAck, faultStatus, faultHistory, faultInject. -/
def Obligations.FaultCommandsAcknowledgeReadInject : Prop :=
  (∀ (s a : State) (ch : Chan) (h : Hdr) (p : List Byte) (c : CmdIn),
     (runs s ch 0x0A01 h p = some (a, c) →
       (8 ≤ leAt p 0 4 → exec (.faultAck ch h p) s = .next (refusedWith a c stBadParam)) ∧
       (leAt p 0 4 < 8 → ∃ t w, exec (.faultAck ch h p) s = .next (State.answered t c [] w) ∧
         t.on FC_STAT_PEND1 = (a.on FC_STAT_PEND1 && !bit (leAt p 0 4) 0) ∧ t.on FC_STAT_PEND2 = (a.on FC_STAT_PEND2 && !bit (leAt p 0 4) 1) ∧
         t.on FC_STAT_PEND3 = (a.on FC_STAT_PEND3 && !bit (leAt p 0 4) 2) ∧ t.g FC_STAT_HALT = a.g FC_STAT_HALT ∧
         t.g FC_STAT_FROZEN = a.g FC_STAT_FROZEN ∧ OnlyRegs a t (regIn [FC_STAT_PEND1]))) ∧
     (runs s ch 0x0A04 h p = some (a, c) → exec (.faultStatus ch h p) s = .next (a.answered c
       (a.regBytes FC_STAT_FROZEN ++ a.regBytes (FC_FIRST_SRC 1) ++ a.regBytes (FC_FIRST_SRC 2) ++ a.regBytes (FC_FIRST_SRC 3) ++
         a.regBytes FC_HALTSRC_SRC ++ a.regBytes FC_ESCCNT_COUNT ++ a.regBytes FC_HLOST_COUNT ++ a.regBytes FC_HPTR_HEAD) false))) ∧
  (∀ (s a : State) (ch : Chan) (h : Hdr) (p : List Byte) (c : CmdIn), runs s ch 0x0A02 h p = some (a, c) →
     let v := leAt p 0 4
     let out := a.historyPart (v % 2)
     (4 ≤ v → exec (.faultHistory ch h p) s = .next (refusedWith a c stBadParam)) ∧
     (v < 2 → exec (.faultHistory ch h p) s = .next (
       (if v = 0 ∧ c.chan = 4 ∧ a.on FC_STAT_FROZEN = true then { a with fc := { a.fc with part0 := true } } else a).answered c out false)) ∧
     (v = 2 ∨ v = 3 → c.chan ≠ 4 → exec (.faultHistory ch h p) s = .next (refusedWith a c stAuth)) ∧
     (v = 2 → c.chan = 4 → exec (.faultHistory ch h p) s = .next (refusedWith a c stBadParam)) ∧
     (v = 3 → c.chan = 4 → a.on FC_STAT_FROZEN = false → exec (.faultHistory ch h p) s = .next (a.answered c out false)) ∧
     (v = 3 → c.chan = 4 → a.on FC_STAT_FROZEN = true → a.fc.part0 = false → exec (.faultHistory ch h p) s = .next (refusedWith a c stVerifyFail)) ∧
     (v = 3 → c.chan = 4 → a.on FC_STAT_FROZEN = true → a.fc.part0 = true → ∃ t, exec (.faultHistory ch h p) s = .next (State.answered t c (t.historyPart 1) false) ∧
       t.on FC_STAT_FROZEN = false ∧ t.fc = { a.fc with part0 := false } ∧ t = { a with regs := t.regs, fc := t.fc } ∧
       RegsKeep a t (regIn [FC_STAT_FROZEN]) ∧
       (∀ f, f.reg ≠ FC_STAT_FROZEN.reg ∨ f.lo + f.w ≤ FC_STAT_FROZEN.lo ∨ FC_STAT_FROZEN.lo + FC_STAT_FROZEN.w ≤ f.lo → t.g f = a.g f))) ∧
  (∀ (s a : State) (ch : Chan) (h : Hdr) (p : List Byte) (c : CmdIn), runs s ch 0x0A03 h p = some (a, c) →
     let src := byteAt p 0
     let cls := byteAt p 1
     let path := byteAt p 2
     let code := leAt p 4 2
     let ok := srcRaises src cls = true ∧ path ≤ 1 ∧ byteAt p 3 = 0 ∧ zeros p 6 8 = true
     (¬ ok → exec (.faultInject ch h p) s = .next (refusedWith a c stBadParam)) ∧
     (ok → exec (.faultInject ch h p) s = .next ((a.fcForce src (BitVec.ofNat 32 (1 + 2 * cls + 16 * path + 65536 * code))).answered c
       (if a.on (FC_SSTAT_PATHFAIL src) = true then leBytes 1 0 ++ leBytes 1 0 ++ leBytes 2 0
        else if path = 1 then leBytes 1 4 ++ leBytes 1 2 ++ leBytes 2 0xFFFE
        else leBytes 1 (if 3 ≤ cls then 3 else 1) ++ leBytes 1 cls ++ leBytes 2 code) true)))

/-- Event recorder commands (R490, R502, R503): `EV_READ` answers up to 15 records from the first at or after its number and leaves the cursor at
the last one read; `EV_STATUS` reads the four registers; `EV_CLEAR` empties the recorder, whose first record is then the clear's own.

Completion is stated of evRead, evStatus, evClear. -/
def Obligations.EventCommandsReadAndClear : Prop :=
  ∀ (s a : State) (ch : Chan) (h : Hdr) (p : List Byte) (c : CmdIn),
    (runs s ch 0x0B01 h p = some (a, c) →
      let start := leAt p 0 4
      let n := leAt p 4 2
      let rs := a.records.dropWhile (fun r => r.seq < start)
      (¬ (1 ≤ n ∧ n ≤ 15 ∧ zeros p 6 8 = true) → exec (.evRead ch h p) s = .next (refusedWith a c stBadParam)) ∧
      (1 ≤ n ∧ n ≤ 15 ∧ zeros p 6 8 = true → ∃ t, exec (.evRead ch h p) s = .next (State.answered t c
          (leBytes 4 (((rs.take n).head?.map (·.seq)).getD 0) ++ leBytes 2 (rs.take n).length ++ leBytes 2 (if rs.length ≤ n then 1 else 0) ++
            (rs.take n).flatMap EvRec.bytes) false) ∧
        t.g EV_CURSOR_SEQ = (((rs.take n).getLast?.map (·.seq)).getD start) % 2 ^ 32 ∧ OnlyRegs a t (regIn [EV_CURSOR_SEQ]))) ∧
    (runs s ch 0x0B02 h p = some (a, c) → exec (.evStatus ch h p) s = .next (a.answered c
      (leBytes 4 (a.g EV_FIRST_SEQ) ++ leBytes 4 (a.g EV_LAST_SEQ) ++ leBytes 4 (a.g EV_STAT_FULL) ++ leBytes 4 (a.g EV_SUPPR_COUNT)) false)) ∧
    (runs s ch 0x0B03 h p = some (a, c) → exec (.evClear ch h p) s = .next (a.evClear.answered c [] true) ∧
      a.evClear.ev.flash = [] ∧ (∃ r, a.evClear.ev.staged = [r] ∧ r.seq = a.ev.nextSeq ∧ r.source = 0x0207 ∧ r.code = 1) ∧
      a.evClear.on EV_STAT_FULL = false ∧ a.evClear.g EV_SUPPR_COUNT = 0 ∧ a.evClear.on EV_STAT_CLRPEND = false)

/-- `UP_MANIFEST` (R510, R511): the first failing check of R510 is the answer and its number goes into the event; a manifest for the image under way
resumes it; any other begins a new update with the phase Receiving, no chunk complete and the manifest's totals.

`UP_CHUNK` (R512 to R514): a trial is `VERIFY_FAIL`, no manifest `NOT_PRESENT`, a number, length or reserved field out of range `BAD_PARAM`, a complete
chunk is answered `OK` without effect; a piece that neither begins nor continues the fill or overruns the chunk is `BAD_PARAM`, a data chunk before the
hash table is verified `VERIFY_FAIL`; a piece that does not end the chunk is added to the fill and nothing else changes; the last one completes it.

`UP_STATUS`, `UP_ACTIVATE` and `UP_ABANDON` (R491, R518, R520): the status reads its registers; an activation whose conditions hold selects the other
bank, starts the trial with no try used and phase Trial, keeps the settings as they were and resets the module, else it is `VERIFY_FAIL`; an
abandonment without an update is no change and else discards manifest, chunks and target version.

Completion is stated of upManifest, upChunk, upStatus, upActivate, upAbandon. -/
def Obligations.UpdateCommandsCarryThePackage : Prop :=
  (∀ (s a : State) (ch : Chan) (h : Hdr) (p : List Byte) (c : CmdIn), runs s ch 0x0C01 h p = some (a, c) →
     let resumes := a.up.manifest ≠ [] ∧ (a.up.manifest.drop 56).take 32 = (p.drop 56).take 32
     let data := leBytes 4 (leAt p 12 4) ++ leBytes 2 (leAt p 124 2)
     Gives (.upManifest ch h p) s (fun u => match a.manifestCheck p with
       | some (order, st) => u = refusedWith (a.upEvent 2 (leBytes 1 order)) c st
       | none =>
         (resumes → ∃ w, u = ((a.upEvent 1 (data ++ leBytes 1 1)).buildStart true).answered c [] w) ∧
         (¬ resumes → ∃ t, u = (State.upEvent t 1 (data ++ leBytes 1 0)).answered c [] true ∧
           t.up.manifest = p ∧ t.up.store = [] ∧ t.up.part = none ∧ t.up.tableOk = false ∧ t.g UP_STAT_PHASE = 1 ∧ t.g UP_CHUNKS_DONE = 0 ∧
           t.g UP_STAT_BUILT = 0 ∧ t.g UP_CHFAIL_COUNT = 0 ∧ t.g UP_CHUNKS_TOTAL = leAt p 124 2 % 2 ^ UP_CHUNKS_TOTAL.w ∧ t.g UP_TGTVER_VERSION = leAt p 12 4))) ∧
  (∀ (s a : State) (ch : Chan) (h : Hdr) (p : List Byte) (c : CmdIn), runs s ch 0x0C02 h p = some (a, c) →
     let k := leAt p 0 4
     let off := leAt p 4 2
     let d := p.drop 8
     let n := leAt a.up.manifest 124 2
     (a.on UP_STAT_TRIAL = true → exec (.upChunk ch h p) s = .next (refusedWith a c stVerifyFail)) ∧
     (a.on UP_STAT_TRIAL = false → a.up.manifest = [] → exec (.upChunk ch h p) s = .next (refusedWith a c stNotPresent)) ∧
     (a.on UP_STAT_TRIAL = false → a.up.manifest ≠ [] →
       (n ≤ k ∨ 16384 < off + d.length ∨ zeros p 6 8 = false → exec (.upChunk ch h p) s = .next (refusedWith a c stBadParam)) ∧
       (k < n → off + d.length ≤ 16384 → zeros p 6 8 = true →
         (a.chunkDone k = true → exec (.upChunk ch h p) s = .next (a.answered c [] false)) ∧
         (a.chunkDone k = false →
           (a.fillFor k off = none → exec (.upChunk ch h p) s = .next (refusedWith a c stBadParam)) ∧
           (∀ b, a.fillFor k off = some b →
             (a.chunkLen k < b.length + d.length → exec (.upChunk ch h p) s = .next (refusedWith a c stBadParam)) ∧
             (b.length + d.length ≤ a.chunkLen k → tableChunks n ≤ k → a.up.tableOk = false →
               exec (.upChunk ch h p) s = .next (refusedWith a c stVerifyFail)) ∧
             (b.length + d.length < a.chunkLen k → (k < tableChunks n ∨ a.up.tableOk = true) → exec (.upChunk ch h p) s = .next
               (({ a with up := { a.up with part := some (k, b ++ d) } } : State).answered c [] false)) ∧
             (b.length + d.length = a.chunkLen k → (k < tableChunks n ∨ a.up.tableOk = true) → exec (.upChunk ch h p) s = .next
               ((a.chunkComplete k (b ++ d)).finish c))))))) ∧
  (∀ (s a : State) (ch : Chan) (h : Hdr) (p : List Byte) (c : CmdIn),
     (runs s ch 0x0C03 h p = some (a, c) → exec (.upStatus ch h p) s = .next (a.answered c
       (leBytes 1 (a.g UP_STAT_PHASE) ++ leBytes 3 0 ++ leBytes 4 (a.g UP_CHUNKS_DONE) ++ leBytes 4 (a.g UP_CHUNKS_TOTAL) ++
         leBytes 1 (a.g UP_STAT_ACTBANK) ++ leBytes 1 (a.g UP_STAT_BUILT) ++ leBytes 2 0) false)) ∧
     (runs s ch 0x0C04 h p = some (a, c) →
       let m := a.up.manifest
       let ok := m ≠ [] ∧ p = (m.drop 56).take 32 ∧ a.g UP_STAT_PHASE = 4 ∧ (a.on UN_CFG_EN = true → a.partnerActive = true) ∧
         (∀ e ∈ a.cfg.vers, leAt m 128 2 ≤ e.2 ∧ e.2 ≤ leAt m 126 2)
       (¬ ok → exec (.upActivate ch h p) s = .next (refusedWith a c stVerifyFail)) ∧
       (ok → ∃ t, exec (.upActivate ch h p) s = .next
           (((State.upEvent t 7 (leBytes 4 (leAt m 12 4) ++ leBytes 1 (1 - a.g UP_STAT_ACTBANK))).answered c [] true).moduleReset 4 0 23) ∧
         t.g UP_STAT_ACTBANK = 1 - a.g UP_STAT_ACTBANK ∧ t.on UP_STAT_TRIAL = true ∧ t.g UP_STAT_TRIES = 0 ∧ t.g UP_STAT_PHASE = 5 ∧
         t.up = { a.up with orig := some a.cfg } ∧ t = { a with regs := t.regs, up := t.up } ∧ RegsKeep a t (regIn [UP_STAT_PHASE]))) ∧
     (runs s ch 0x0C05 h p = some (a, c) →
       (a.up.manifest = [] → exec (.upAbandon ch h p) s = .next (a.answered c [] false)) ∧
       (a.up.manifest ≠ [] → ∃ t, exec (.upAbandon ch h p) s = .next ((State.upEvent t 0xC (leBytes 1 1)).answered c [] true) ∧
         t.up.manifest = [] ∧ t.up.store = [] ∧ t.g UP_STAT_BUILT = 0 ∧ t.g UP_TGTVER_VERSION = 0 ∧
         (a.on UP_STAT_TRIAL = true → t.g UP_STAT_PHASE = a.g UP_STAT_PHASE) ∧ (a.on UP_STAT_TRIAL = false → t.g UP_STAT_PHASE = 0))))

/-- Test commands (R492, R526 to R528, R536): `TEST_REGREAD` reads 1 to 250 registers of one mapped block as they show themselves, lane D's of a ZM60 as 0;
`TEST_PROD` sets production test once.

`TEST_LOOP` (R526, R527, R532): a depth the port does not have, the port of the session, a port in service in Maintenance, a reserved field or a number of
frames out of 1 to 1,000,000 is `BAD_PARAM`; else the test begins and holds its port, and nothing else but the counter of free values changes, but that the outputs follow where the port is
a field port. At its end,
100 ms later where no plug is seen at depth 3, the port is free and the answer is units sent, units intact, their difference and the result. What returns
and how long it takes, up to 2 s, are free values (log entry 16): the statement holds for every value.

Completion is stated of testRegread, testProd, testLoop. -/
def Obligations.TestCommandsReadAndLoop : Prop :=
  (∀ (s a : State) (ch : Chan) (h : Hdr) (p : List Byte) (c : CmdIn),
     (runs s ch 0x0D01 h p = some (a, c) →
       let x := leAt p 0 4
       let n := leAt p 4 2
       let ok := x % 4 = 0 ∧ a.modMapped x = true ∧ 1 ≤ n ∧ n ≤ 250 ∧ zeros p 6 8 = true ∧ x % 0x10000 + 4 * n ≤ 0x10000
       (¬ ok → exec (.testRegread ch h p) s = .next (refusedWith a c stBadParam)) ∧
       (ok → exec (.testRegread ch h p) s = .next (a.answered c ((List.range n).flatMap (fun k => leBytes 4
         (if a.variant = .zm60 ∧ x / 0x1000000 = 0x73 then 0 else (a.regView (x + 4 * k)).toNat))) false))) ∧
     (runs s ch 0x0D03 h p = some (a, c) →
       (a.dbg.prod = true → exec (.testProd ch h p) s = .next (a.answered c [] false)) ∧
       (a.dbg.prod = false → exec (.testProd ch h p) s = .next (({ a with dbg := { a.dbg with prod := true } } : State).answered c [] true)))) ∧
  (∀ (s a : State) (ch : Chan) (h : Hdr) (p : List Byte) (c : CmdIn), runs s ch 0x0D02 h p = some (a, c) →
     let port := byteAt p 0
     let n := leAt p 4 4
     let held := (c.chan = 4 ∧ port = a.sessPort) ∨ (a.mode = mMaintenance ∧ a.portInService port = true)
     let ok := byteAt p 1 ∈ portDepths port ∧ ¬ held ∧ zeros p 2 4 = true ∧ 1 ≤ n ∧ n ≤ 1000000
     (¬ ok → exec (.testLoop ch h p) s = .next (refusedWith a c stBadParam)) ∧
     (ok → ∃ x : LoopRun, exec (.testLoop ch h p) s = .next (({ a with free := a.free + 1, dbg := { a.dbg with loop := some x } } : State).redrive port) ∧
       x.port = port ∧ x.depth = byteAt p 1 ∧ x.chans = c.chans ∧ x.hdr = c.hdr ∧ x.payload = p ∧ x.intact ≤ x.sent ∧ x.sent ≤ n ∧
       (x.result = 2 → byteAt p 1 = 3 ∧ x.sent = 0 ∧ x.endNs = a.tu.upNs + 100000000) ∧ (x.result ≠ 2 → (x.result = 0 ↔ x.intact = x.sent)) ∧ x.result ≤ 2 ∧
       a.tu.upNs ≤ x.endNs ∧ x.endNs ≤ a.tu.upNs + 2000000000)) ∧
  (∀ (s : State) (x : LoopRun), s.dbg.loop = some x → (∀ port, s.heldPort port = true ↔ port = x.port) ∧ (s.tu.upNs < x.endNs → s.loopTick = s) ∧
     (x.endNs ≤ s.tu.upNs → s.loopTick = (({ s with dbg := { s.dbg with loop := none } } : State).redrive x.port).respond (x.chans.map (·.val)) x.hdr x.payload stOk
       (leBytes 4 x.sent ++ leBytes 4 x.intact ++ leBytes 4 (x.sent - x.intact) ++ leBytes 1 x.result ++ leBytes 3 0)))

/-- `LC_CHANGE` (R432 to R435, R493): the changes Blank to Provisioned, to Commissioned, to Decommissioned, back to Provisioned and to Scrapped, each with its
payload length, its state and its signature (its mode is checked before, R444); every other is `BAD_PARAM`. What a change wipes is `State.changeLcs`.

A life-cycle change ends in a reset of cause 5 whose record names the new and the old state; the new state is in `LC_STATE`, no wipe is pending, the user
keys are the ones installed (R433, R434).

`LC_DEBUGTOKEN` (R432, R494): a token for another module or out of date, a reserved field, a token whose signature fails is turned away; else debug
access is permitted until the next reset and the channels that it opens open.

Completion is stated of lcChange, lcDebugtoken. -/
def Obligations.LifeCycleCommandsGuardWipeAndPermit : Prop :=
  (∀ (s a : State) (ch : Chan) (h : Hdr) (p : List Byte) (c : CmdIn), runs s ch 0x0E01 h p = some (a, c) →
     let new := byteAt p 0
     let b := p.drop 4
     let lcs := a.g LC_STATE_LCS
     (zeros p 1 4 = false → exec (.lcChange ch h p) s = .next (refusedWith a c stBadParam)) ∧
     (zeros p 1 4 = true →
       (lcs = 0 → new = 1 → exec (.lcChange ch h p) s = .next (
         if b.length ≠ 128 then refusedWith a c stBadParam else if a.dbg.prod = false then refusedWith a c stStateReject
         else if Config.signed Config.makerKey b = false then refusedWith a c stVerifyFail
         else ((a.setFactory b).changeLcs 1 true true {} c.chan).finish c)) ∧
       (lcs = 1 → new = 2 → exec (.lcChange ch h p) s = .next (
         if b.length ≠ 96 then refusedWith a c stBadParam
         else (a.changeLcs 2 true false { cred := some (b.take 32), pkgKey := some (b.drop 32) } c.chan).finish c)) ∧
       (lcs = 2 → new = 3 → exec (.lcChange ch h p) s = .next (
         if b.length ≠ 0 then refusedWith a c stBadParam else (a.changeLcs 3 false false {} c.chan).finish c)) ∧
       (lcs = 3 → new = 1 → exec (.lcChange ch h p) s = .next (
         if b.length ≠ 72 then refusedWith a c stBadParam
         else if leAt b 0 8 ≠ leAt a.factory 28 8 ∨ Config.signed Config.makerKey b = false then refusedWith a c stVerifyFail
         else (a.changeLcs 1 true true {} c.chan).finish c)) ∧
       (lcs ∈ [1, 2, 3] → new = 4 → exec (.lcChange ch h p) s = .next (
         if b.length ≠ 0 then refusedWith a c stBadParam else (a.changeLcs 4 true true {} c.chan).finish c)) ∧
       ((lcs, new) ∉ [(0, 1), (1, 2), (2, 3), (3, 1), (1, 4), (2, 4), (3, 4)] → exec (.lcChange ch h p) s = .next (refusedWith a c stBadParam)))) ∧
  (∀ (a : State) (new : Nat) (tag recs : Bool) (k : KeySt) (chan : Nat), new < 8 → ∃ t,
     a.changeLcs new tag recs k chan = .okReset t 5 chan 4 ∧ t.g LC_STATE_LCS = new ∧ t.g LC_STATE_WIPEPEND = 0 ∧ t.keys = k ∧ t.cfg = {} ∧
       t.app.stored = none ∧ t.app.retMem = [] ∧ t.up.manifest = [] ∧ t.up.store = []) ∧
  (∀ (s a : State) (ch : Chan) (h : Hdr) (p : List Byte) (c : CmdIn), runs s ch 0x0E02 h p = some (a, c) →
     exec (.lcDebugtoken ch h p) s = .next (
       if leAt p 0 8 ≠ leAt a.factory 28 8 ∨ leAt p 8 4 < a.sb.rtc then refusedWith a c stVerifyFail
       else if zeros p 12 16 = false then refusedWith a c stBadParam
       else if Config.signed Config.makerKey p = false then refusedWith a c stVerifyFail
       else (a.p LC_STATE_DBGPERM 1).chanGates.answered c [] true))

/-- The service session opens in order (R454 to R457): a connection, `HELLO` answered with a challenge that carries a nonce of the Keeper's
and the unit key identifier, a correct `PROOF` that authenticates the session and opens channel 4. A second connection is closed at once.

Completion is stated of sessionConnect, hello, proof, commandRecord, closeRecord, authenticationTimeout, sessionIdleTimeout, helloRefusalEnd.

What ends a session (R454 to R457): a record out of order or of an unknown kind, a wrong credential or proof, a record whose tag fails,
`CLOSE`, the two time-outs. Its end closes channel 4 and empties its buffers; a failed proof is counted, the third in a row refuses `HELLO`
for 10 s, each further one twice as long up to 320 s; the refusal ends with its period and keeps the count. A `COMMAND` record rings
channel 4's doorbell with its header and payload; a `CHRST` record resets the channel. -/
def Obligations.ServiceSessionsOpenCarryAndEnd : Prop :=
  (∀ (s : State) (via : SvcVia) (ctr : Nat) (nc mac : List Byte) (cred : Byte), s.mode ≠ mDormant →
     (s.serves via = true → s.sess.phase = .none → exec (.sessionConnect via) s =
       .next { s with sess := { s.sess with phase := .connected, via := via, nc := [], nk := [], rxCtr := 0, txCtr := 0 } }) ∧
     (s.serves via = true → s.sess.phase ≠ .none → exec (.sessionConnect via) s = .next { s with tx := .closed via :: s.tx }) ∧
     (s.sess.phase = .connected → ctr = s.sess.rxCtr → s.sess.refusing = false →
       cred.toNat = (if s.g LC_STATE_LCS = 2 then 0 else 1) →
       exec (.hello ctr nc cred) s = .next { s with
         free := s.free + 1
         sess := { s.sess with
           phase := .challenged, nc := padTo 32 nc, nk := padTo 32 (Config.nonce s.free), cred := cred.toNat, rxCtr := ctr + 1
           txCtr := s.sess.txCtr + 1 }
         tx := .record 2 s.sess.txCtr (padTo 32 (Config.nonce s.free) ++ s.ukeyId ++ leBytes 16 0) :: s.tx }) ∧
     (s.sess.phase = .challenged → ctr = s.sess.rxCtr → s.credential.isSome = true →
       Gives (.proof ctr mac) s (fun t => if mac = s.proofMac then
           t.sess = { s.sess with phase := .authenticated, fails := 0, refuseSec := 0, rxCtr := ctr + 1, txCtr := s.sess.txCtr + 1 } ∧
           t.on (MB_STAT_EN 4) = true ∧ t.on (MB_STAT_VOTED 4) = false ∧ t.on (MB_STAT_AUTH 4) = true ∧
           t = { s with regs := t.regs, sess := t.sess, tx := t.tx } ∧ RegsKeep s t (· = (MB_STAT_EN 4).reg) ∧
           ∃ body, t.tx = .record 4 s.sess.txCtr body :: s.tx
         else t = s.failedProof))) ∧
  (∀ (s : State) (ctr : Nat) (nc mac atag : List Byte) (cred : Byte) (r : SvcRecord),
     (s.endSession.sess.phase = .none ∧ s.endSession.on (MB_STAT_EN 4) = false ∧ s.endSession.on (MB_STAT_AUTH 4) = false ∧
       ∀ a, s.endSession.mb.rd a = if 0x4000 ≤ a ∧ a < 0x5000 then 0 else s.mb.rd a) ∧
     (s.badRecord.sess.phase = .none ∧ s.badRecord.on (MB_STAT_EN 4) = false) ∧
     (s.failedProof.sess.phase = .none ∧ s.failedProof.sess.fails = s.sess.fails + 1 ∧
       (s.failedProof.sess.refusing = true ↔ s.sess.refusing = true ∨ 3 ≤ s.sess.fails + 1) ∧
       (s.sess.fails + 1 = 3 → s.failedProof.sess.refuseSec = 10) ∧ (8 ≤ s.sess.fails + 1 → s.failedProof.sess.refuseSec = 320)) ∧
     (s.sess.phase ≠ .none →
       ((s.sess.phase ≠ .connected ∨ ctr ≠ s.sess.rxCtr) → exec (.hello ctr nc cred) s = .next s.badRecord) ∧
       ((s.sess.phase ≠ .challenged ∨ ctr ≠ s.sess.rxCtr) → exec (.proof ctr mac) s = .next s.badRecord) ∧
       ((s.sess.phase ≠ .authenticated ∨ r.ctr ≠ s.sess.rxCtr) → exec (.commandRecord r) s = .next s.badRecord) ∧
       (ctr ≠ s.sess.rxCtr → exec (.closeRecord ctr atag) s = .next s.badRecord)) ∧
     (s.sess.phase = .connected → s.sess.refusing = true → exec (.hello s.sess.rxCtr nc cred) s = .next s.endSession) ∧
     (s.sess.phase = .connected → s.sess.refusing = false → cred.toNat ≠ (if s.g LC_STATE_LCS = 2 then 0 else 1) →
       exec (.hello s.sess.rxCtr nc cred) s = .next s.failedProof) ∧
     (s.sess.phase = .challenged → s.credential = none → exec (.proof s.sess.rxCtr mac) s = .next s.failedProof) ∧
     (s.sess.phase = .authenticated → r.ctr = s.sess.rxCtr → exec (.commandRecord r) s = .next (match s.openRecord r with
       | none => s.badRecord
       | some b =>
         let a : State := { s with sess := { s.sess with rxCtr := r.ctr + 1 } }
         if r.kind = 0x10 then (a.writeCmd 4 (padTo 16 b) (b.drop 16)).doorbell 4
         else if r.kind = 0x13 then a.chanReset 4
         else if r.kind = 0x15 then a.endSession
         else a.badRecord)) ∧
     (s.sess.phase = .authenticated →
       exec (.closeRecord s.sess.rxCtr atag) s = .next (
         if (s.openRecord { kind := 0x15, rsvd := 0, ctr := s.sess.rxCtr, body := [], atag := atag }).isSome then s.endSession else s.badRecord) ∧
       exec .sessionIdleTimeout s = .next s.endSession) ∧
     (s.sess.phase = .connected ∨ s.sess.phase = .challenged →
       exec (.closeRecord s.sess.rxCtr atag) s = .next s.endSession ∧ exec .authenticationTimeout s = .next s.endSession) ∧
     exec .helloRefusalEnd s = .next { s with sess := { s.sess with refusing := false, refuseSec := 0 } })

/-- A channel reset (R459) of the channels 4 to 6 empties the channel's conversation: its buffers read 0, no command is in it, no event is
held, the refusal and overflow bits are 0; what opens it stays. On a lane's channel it is ignored with notice 6 (R447). A write of
`MB_EVTAIL` releases the entries it passes over; one that names more than are held releases none and is a notice (R453).

Completion is stated of channelReset, eventRelease. -/
def Obligations.ChannelResetAndEventRelease : Prop :=
  ∀ (s : State) (ch : Chan) (tail : Fin 32),
    (4 ≤ ch.val → Gives (.channelReset ch) s (fun t =>
      (∀ a, t.mb.rd a = if 0x1000 * ch.val ≤ a ∧ a < 0x1000 * ch.val + 0x1000 then 0 else s.mb.rd a) ∧
      t.g (MB_STAT_STATE ch.val) = 0 ∧ t.g (MB_EVHEAD_HEAD ch.val) = 0 ∧ t.g (MB_EVTAIL_TAIL ch.val) = 0 ∧
      t.g (MB_EVSTAT_COUNT ch.val) = 0 ∧ t.g (MB_STAT_REJ ch.val) = 0 ∧ t.g (MB_STAT_REJST ch.val) = 0 ∧ t.g (MB_EVSTAT_OVF ch.val) = 0 ∧
      t.g (MB_STAT_EN ch.val) = s.g (MB_STAT_EN ch.val) ∧ t.g (MB_STAT_AUTH ch.val) = s.g (MB_STAT_AUTH ch.val) ∧
      t = { s with regs := t.regs, mb := t.mb, waiting := t.waiting, queued := t.queued, app := t.app, un := t.un, dbg := t.dbg })) ∧
    (ch.val < 4 → exec (.channelReset ch) s = .next (s.notice 0x22 6 ch.val (s.word (MB_STAT_STATE ch.val)))) ∧
    (let n := (tail.val + 32 - s.g (MB_EVTAIL_TAIL ch.val)) % 32
     (n ≤ s.g (MB_EVSTAT_COUNT ch.val) → Gives (.eventRelease ch tail) s (fun t =>
       t.g (MB_EVTAIL_TAIL ch.val) = (s.g (MB_EVTAIL_TAIL ch.val) + n) % 32 ∧ t.g (MB_EVSTAT_COUNT ch.val) = s.g (MB_EVSTAT_COUNT ch.val) - n ∧
       OnlyRegs s t (regIn [MB_EVTAIL_TAIL ch.val, MB_EVSTAT_COUNT ch.val]))) ∧
     (s.g (MB_EVSTAT_COUNT ch.val) < n → Gives (.eventRelease ch tail) s (fun t =>
       t = s.notice 0x22 2 ch.val (s.word (MB_EVSTAT_COUNT ch.val)) ∧ OnlyRecords s t (fun _ => False))))

/-- The end of a task's work in a lane (R46 to R48, R71, R99, R100, R132), after accesses that all are done: outside speculation a `VX_SUBMIT` write
sends the submission to the vote and may open the context of the next cycle; with `ABANDON` nothing is sent; while a submission is being sent
either is discarded with `REJECT` and a notice; in a speculating context either stalls it until its verdict. What is submitted: the digest, and
the dirty words of the task's range in runs, or nothing but `OVERSIZE` beyond 16,384 bytes.

Completion is stated of submit, abandon. -/
def Obligations.SubmissionEndsACycle : Prop :=
  (∀ (s a : State) (l : Lane) (t : Task) (work : List CoreOp),
    let i := l.val
    let k := t.val
    doneWork l k work s = some a → MayAccess a i k →
      (a.speculates i k = false → a.g (RA_CTX_STATE i k) = 0 → a.on (VX_SUBSTAT_BUSY i) = false → (a.lt i k).phase = .executing →
        (let u := a.submission i k
         let b := (a.submitted i k u).arriveSub l t (a.lt i k).cycle u
         exec (.submit l t work) s = .next (if b.maySpeculate i k = true ∧ b.running = true then b.openCtx i k else b)) ∧
        Gives (.abandon l t work) s (fun b => (b.lt i k).phase = .abandoned ∧ (b.lt i k).cycle = (a.lt i k).cycle ∧
          b = a.modLane i (fun _ => b.lane i) ∧ (b.lane i).dirty = (a.lane i).dirty ∧ (b.lane i).mem = (a.lane i).mem)) ∧
      (a.speculates i k = false → a.g (RA_CTX_STATE i k) = 0 → a.on (VX_SUBSTAT_BUSY i) = true → ∃ b : State,
        b.on (VX_SUBSTAT_REJECT i) = true ∧ OnlyRegs a b (regIn [VX_SUBSTAT_REJECT i]) ∧
        exec (.submit l t work) s = .next (b.notice 0x10 1 i (b.word (VX_SUBSTAT_BUSY i))) ∧
        exec (.abandon l t work) s = .next (b.notice 0x10 1 i (b.word (VX_SUBSTAT_BUSY i)))) ∧
      (a.speculates i k = true →
        Gives (.submit l t work) s (fun b => b.g (RA_CTX_STATE i k) = 2 ∧ (b.ctx i k).stalled = [.submit false] ∧
          (b.ctx i k).log = (a.ctx i k).log ∧ (b.lane i).mem = (a.lane i).mem) ∧
        Gives (.abandon l t work) s (fun b => b.g (RA_CTX_STATE i k) = 2 ∧ (b.ctx i k).stalled = [.submit true] ∧
          (b.ctx i k).log = (a.ctx i k).log ∧ (b.lane i).mem = (a.lane i).mem))) ∧
  (∀ (s : State) (l : Lane) (t : Task),
    let i := l.val
    let k := t.val
    ((s.openCtx i k).g (RA_CTX_STATE i k) = 1 ∧ ((s.openCtx i k).ctx i k).cycle = (s.lt i k).cycle + 1 ∧
      ((s.openCtx i k).ctx i k).predicted = s.predicted i k ∧ ((s.openCtx i k).ctx i k).log = [] ∧ ((s.openCtx i k).lane i).mem = (s.lane i).mem) ∧
    ((s.submission i k).digest = (s.lane i).dig k ∧ deltaBytes (s.submission i k).runs ≤ 16384 ∧
      ((s.submission i k).oversize = true → (s.submission i k).runs = [])) ∧
    (∀ u, let b := s.submitted i k u
      (b.lt i k).phase = .submitted ∧ tabGet (fun _ => 0) (b.lane i).snap k = u.digest ∧
      (∀ w, w ∈ (b.lane i).dirty ↔ w ∈ (s.lane i).dirty ∧ s.ownsWord i k w = false) ∧ (b.lane i).mem = (s.lane i).mem ∧
      b.g (VX_SUBSTAT_TASK i) = k ∧ b.on (VX_SUBSTAT_OVERSIZE i) = u.oversize ∧ b.on (VX_SUBSTAT_BUSY i) = true ∧
      RegsKeep s b (regIn [VX_SUBSTAT_TASK i])))

/-- An image's delivery (R42, R45, R98, R137): the task's part of the input image region becomes the last complete image, the part before
it is kept for prediction, `VX_IMGSTAT` names it; the verdict of an open context takes it in; Execute begins at once if the cycle start
has passed. At the cycle start Execute begins if the image is complete, no context is open and no dispatch keeps the task (R85), and nothing else
changes.

Completion is stated of imageDelivery, cycleStart. -/
def Obligations.ImagesAreDeliveredAndExecuted : Prop :=
  ∀ (s : State) (l : Lane) (t : Task) (work : List CoreOp),
    (let a := s.work l t.val work
     let x := a.task t.val
     let k := x.imageCycle t.val
     a.mayDeliver l.val t.val = true → ∃ b : State,
       exec (.imageDelivery l t work) s = .next ((b.imgVerdict l.val t.val k (a.badReads l.val t.val x.prevImg x.mask)).startIfDue l.val t.val) ∧
       (b.lane l.val).img = takeParts (a.imgParts t.val) (a.lane l.val).img x.prevImg ∧
       ((a.lt l.val t.val).phase ≠ .idle → (b.lane l.val).imgPrev = takeParts (a.imgParts t.val) (a.lane l.val).imgPrev (a.lane l.val).img) ∧
       (b.lt l.val t.val).phase = .ready ∧ (b.lt l.val t.val).cycle = k ∧ (b.lane l.val).mem = (a.lane l.val).mem ∧
       b.g (VX_IMGSTAT_TASK l.val) = t.val ∧ b.g (VX_IMGSTAT_CYCLE l.val) = k % 2 ^ (VX_IMGSTAT_CYCLE l.val).w ∧
       RegsKeep a b (regIn [VX_IMGSTAT_TASK l.val, VX_IMGSTAT_CYCLE l.val])) ∧
    (∀ (ps : List (Nat × Nat)) (dst src : Mem) (n : Nat), Memory.wf src = true →
      (takeParts ps dst src).rd n = if inParts ps n = true then src.rd n else dst.rd n) ∧
    (let due := (s.lt l.val t.val).phase = .ready ∧ s.g (RA_CTX_STATE l.val t.val) = 0 ∧ s.startDue t.val (s.lt l.val t.val).cycle = true ∧
       s.notDispatched l.val t.val = false
     (due → ((s.startIfDue l.val t.val).lt l.val t.val).phase = .executing) ∧ (¬ due → s.startIfDue l.val t.val = s)) ∧
    (s.worksOn l.val t.val = true → (s.lt l.val t.val).phase = .ready → s.g (RA_CTX_STATE l.val t.val) = 0 → s.notDispatched l.val t.val = false →
      Gives (.cycleStart l t) s (fun b => (b.lt l.val t.val).phase = .executing ∧ (b.lt l.val t.val).cycle = (s.lt l.val t.val).cycle ∧
        b = s.modLane l.val (fun _ => b.lane l.val) ∧ (b.lane l.val).mem = (s.lane l.val).mem ∧ (b.lane l.val).img = (s.lane l.val).img))

/-- The verdict of a speculation context (R137 to R141, R145, R147): an agreeing majority marks the vote passed, and with confirmed inputs
the context commits; a submission the majority does not confirm rolls it back with cause 5. The commit writes the log to the lane's
memory, closes the context, counts it and how long it has run, performs the deferred writes, then what stalled and what follows it. The end of a
rollback closes the context without a store. `RA_CTRL.EN` 0 discards every context; `INHIBIT` is a bit; `RA_PAIRCTX` names a pair's task.

Completion is stated of voteOutcome, speculativeCommitDone, rollbackDone, raDisable, raInhibit, pairContextWrite. -/
def Obligations.VerdictsCommitOrRollBack : Prop :=
  ∀ (s : State) (l : Lane) (t : Task) (p : Pair) (w : Word) (work : List CoreOp),
    let i := l.val
    let k := t.val
    (let a := s.work l k work
     ∀ v, a.undecided i k = true → a.cycVote t ((a.ctx i k).cycle - 1) = some v →
      (voteFor v i = some true → Gives (.voteOutcome l t work) s (fun b => b.g (RA_CTX_VOTED i k) = 1 ∧
        b.g (RA_CTX_STATE i k) = (if a.on (RA_CTX_CONF i k) then 3 else a.g (RA_CTX_STATE i k)) ∧ OnlyLane a b i (regIn [RA_CTX_STATE i k]) ∧
        (b.ctx i k).log = (a.ctx i k).log ∧ (b.lane i).mem = (a.lane i).mem)) ∧
      (voteFor v i = some false → Gives (.voteOutcome l t work) s (fun b => b.g (RA_CTX_STATE i k) = 4 ∧ b.g (RA_CTX_CAUSE i k) = 5 ∧
        b.g (RA_ROLL_COUNT i k) = (a.g (RA_ROLL_COUNT i k) + 1) % 2 ^ (RA_ROLL_COUNT i k).w ∧
        OnlyRegs a b (regIn [RA_CTX_STATE i k, RA_ROLL_COUNT i k])))) ∧
    (s.g (RA_CTX_STATE i k) = 3 →
      let c := s.ctx i k
      let a := c.log.foldl (fun (s : State) (e : Nat × BitVec 64) => s.storeWord i e.1 e.2) s
      ∃ b : State, exec (.speculativeCommitDone l t) s = .next ((c.dq.foldl (State.drainEntry l k) b).work l k c.stalled) ∧
        b.g (RA_CTX_STATE i k) = 0 ∧ b.ctx i k = {} ∧ (b.lane i).mem = (a.lane i).mem ∧ (b.lt i k).phase = .executing ∧
        b.g (RA_COMMIT_COUNT i k) = (a.g (RA_COMMIT_COUNT i k) + 1) % 2 ^ (RA_COMMIT_COUNT i k).w ∧ b.g (RA_GAIN_NS i k) = min c.ran 0xFFFFFF % 2 ^ (RA_GAIN_NS i k).w ∧
        OnlyLane a b i (regIn [RA_CTX_STATE i k, RA_DQ_USED i, RA_COMMIT_COUNT i k, RA_GAIN_NS i k])) ∧
    (s.g (RA_CTX_STATE i k) = 4 → Gives (.rollbackDone l t) s (fun b => b.g (RA_CTX_STATE i k) = 0 ∧ b.ctx i k = {} ∧
      (b.lane i).mem = (s.lane i).mem ∧ (b.lane i).img = (s.lane i).img ∧
      (b.lt i k).phase = (if (s.lt i k).phase = .ready ∧ s.startDue k (s.lt i k).cycle = true ∧ s.notDispatched i k = false then .executing
        else (s.lt i k).phase))) ∧
    (exec (.raDisable l) s = .next ((s.p (RA_CTRL_EN i) 0).dropLaneCtx i) ∧
      Gives (.raDisable l) s (fun b => b.g (RA_CTRL_EN i) = 0 ∧ b.g (RA_CTX_STATE i k) = 0)) ∧
    Gives (.raInhibit l) s (fun b => b.g (RA_CTRL_INHIBIT i) = 1 ∧ b.g (RA_CTRL_EN i) = s.g (RA_CTRL_EN i) ∧ OnlyRegs s b (regIn [RA_CTRL_INHIBIT i])) ∧
    (let a := match s.pairTask i p.val with
       | some u => s.work l u work
       | none => s
     a.pairRuns i p.val = true → Gives (.pairContextWrite l p w work) s (fun b => b.g (RA_PAIRCTX_TASK i p.val) = getBits w 0 4 ∧
       b.g (RA_PAIRCTX_VALID i p.val) = getBits w 4 1 ∧ OnlyLane a b i (regIn [RA_PAIRCTX_TASK i p.val]) ∧ (b.lane i).mem = (a.lane i).mem))

/-- Split and join (R81 to R85, R92): a `PX_CMD` write with `GO` starts the sequence (mode 1 or 3, `BUSY`, the comparator disarmed), one while
`BUSY` is 1 or a split of pair 0 is a notice and starts nothing; the end of a split leaves mode 2, the end of a join arms the comparator and leaves
mode 0; a join whose trip test fails is a pair fault. At its execution point a waiting pair command begins in every Voting, Spare and Copying lane. That a
join of a Joined pair and a split of a Split pair start no sequence is the model's choice, log entry 107.

Completion is stated of pxSplit, pxJoin, splitComplete, joinComplete, pairExecutionPoint. -/
def Obligations.PairsSplitAndJoin : Prop :=
  ∀ (s : State) (l : Lane) (w : Word) (trip synOk railOk : Bool),
    let i := l.val
    let p := getBits w 0 2
    let join := getBits w 2 1 == 1
    (∀ out, (exec (.pxSplit l w) s = out ∨ exec (.pxJoin l w) s = out) →
      (p = 0 → join = false → ∃ t, out = .next t ∧ t = s.laneNotice i 2 0 (s.word (PX_CMD_PAIR i)) ∧ OnlyRecords s t (fun _ => False)) ∧
      (¬ (p = 0 ∧ join = false) → getBits w 4 1 = 1 → s.on (PX_STAT_BUSY i) = true →
        ∃ t, out = .next t ∧ t = s.laneNotice i 6 p (s.word (PX_CMD_PAIR i)) ∧ OnlyRecords s t (fun _ => False)) ∧
      (¬ (p = 0 ∧ join = false) → getBits w 4 1 = 1 → s.on (PX_STAT_BUSY i) = false → s.pairMode i p ≠ (if join then 0 else 2) →
        ∃ t, out = .next t ∧ t.g (PX_STAT_BUSY i) = 1 ∧ t.g (PX_STAT_PAIR i) = p ∧ t.pairMode i p = (if join then 3 else 1) ∧
          bit (t.g (PX_MODE_ARMED i)) p = false ∧ t.g (PX_CMD_PAIR i) = p ∧ t.on (PX_CMD_OP i) = join ∧
          OnlyRegs s t (regIn [PX_CMD_PAIR i, PX_STAT_BUSY i, PX_MODE_MODE0 i])) ∧
      (¬ (p = 0 ∧ join = false) → getBits w 4 1 = 0 ∨ (s.on (PX_STAT_BUSY i) = false ∧ s.pairMode i p = (if join then 0 else 2)) →
        ∃ t, out = .next t ∧ t.g (PX_CMD_PAIR i) = p ∧ t.on (PX_CMD_OP i) = join ∧ OnlyRegs s t (regIn [PX_CMD_PAIR i]))) ∧
    (let q := s.g (PX_STAT_PAIR i)
     (s.on (PX_STAT_BUSY i) = true → s.pairMode i q = 1 → ∃ a : State,
       exec (.splitComplete l) s = .next (a.dispatchWaiting i).pairDone ∧ a.pairMode i q = 2 ∧ a.g (PX_STAT_BUSY i) = 0 ∧ a.g (PX_STAT_DONE i) = 1 ∧
       bit (a.g (PX_MODE_ARMED i)) q = false ∧ OnlyRegs s a (regIn [PX_STAT_BUSY i, PX_MODE_MODE0 i])) ∧
     (s.on (PX_STAT_BUSY i) = true → s.pairMode i q = 3 → ∃ a : State,
       a.pairMode i q = 0 ∧ a.g (PX_STAT_BUSY i) = 0 ∧ a.g (PX_STAT_DONE i) = 1 ∧ a.on (PX_STAT_TRIPOK i) = (trip && synOk && railOk) ∧
       bit (a.g (PX_MODE_ARMED i)) q = true ∧ OnlyRegs s a (regIn [PX_STAT_BUSY i, PX_MODE_MODE0 i]) ∧
       exec (.joinComplete l trip synOk railOk) s = .next (if trip = true ∧ synOk = true ∧ railOk = true then
           ((a.inc (PX_TESTCNT_COUNT i q)).dispatchWaiting i).pairDone
         else (a.pairFault i q (if railOk = false then 4 else if trip = false then 2 else 3) 0 0).pairDone))) ∧
    (∀ x, s.waiting = some x → x.code = 0x0209 ∨ x.code = 0x020A → x.begun = false →
      (s.pairTasks (byteAt x.payload 0)).all s.taskQuiet = true → s.finalRuns = false →
      let a : State := { s with waiting := some { x with begun := true } }
      exec .pairExecutionPoint s = .next ((([0, 1, 2, 3].filter (fun n => s.laneSt n ∈ [laVoting, laSpare, laCopying])).foldl
        (fun (a : State) n => a.pxCmd n (BitVec.ofNat 32 (byteAt x.payload 0 + (if x.code = 0x020A then 4 else 0) + 16))) a).uninhibit.pairDone))

/-- Dispatch and tests of a pair (R77 to R79, R85, R87 to R91): a dispatch on a pair in a sequence waits and stalls the runtime, one of a safety task on
a pair that is not Joined is class 3 and keeps the task from starting, any other names the pair's task; a forced test is refused on an illegal bit, a
pair not Joined or in a sequence; its result is counted or a pair fault of its kind, kind 1 where a bit other than the forced one is set; an
armed comparator's mismatch, a rail mismatch and a parity error are pair faults. A pair fault halts the pair, records its first fault only, of one
instant the highest kind, and raises class 1 of the lane with the four fault records as its data.

Completion is stated of taskDispatch, forcedTest, comparatorTestDue, forcedTestResult, comparatorMismatch, railMismatch, delayParityError. -/
def Obligations.PairTestsAndFaults : Prop :=
  ∀ (s : State) (l : Lane) (p : Pair) (w : Word) (group : Fin 4) (b : Fin 256) (trip synOk railOk outputs : Bool),
    let i := l.val
    (s.pairRuns i 0 = true →
      (s.pairBusy i p.val = true → Gives (.taskDispatch l p w) s (fun t => (t.lane i).dispWait = (s.lane i).dispWait ++ [(p.val, w)] ∧
        0 ∈ (t.lane i).stalledPairs ∧ t.notDispatched i (getBits w 0 4) = true ∧ t = s.modLane i (fun _ => t.lane i) ∧ (t.lane i).disp = (s.lane i).disp)) ∧
      (s.pairBusy i p.val = false → getBits w 4 1 = 1 → s.pairMode i p.val ≠ 0 → ∃ a : State, exec (.taskDispatch l p w) s = .next (a.report 0x16 3 1) ∧
        a.notDispatched i (getBits w 0 4) = true ∧ a = s.modLane i (fun _ => a.lane i) ∧ (a.lane i).disp = (s.lane i).disp) ∧
      (s.pairBusy i p.val = false → ¬ (getBits w 4 1 = 1 ∧ s.pairMode i p.val ≠ 0) → Gives (.taskDispatch l p w) s (fun t =>
        tabGet (fun _ => 16) (t.lane i).disp p.val = getBits w 0 4 ∧ getBits w 0 4 ∉ (t.lane i).refused ∧ t = s.modLane i (fun _ => t.lane i) ∧
        (t.lane i).mem = (s.lane i).mem))) ∧
    (let q := getBits w 0 2
     let g := getBits w 2 2
     let k := getBits w 4 8
     (groupBits g ≤ k → exec (.forcedTest l w) s = .next (s.laneNotice i 2 q (s.word (PX_FORCE_PAIR i)))) ∧
     (k < groupBits g → getBits w 16 1 = 1 → (s.pairMode i q ≠ 0 ∨ s.pairBusy i q = true) →
       exec (.forcedTest l w) s = .next (s.laneNotice i 6 q (s.word (PX_FORCE_PAIR i)))) ∧
     (k < groupBits g → getBits w 16 1 = 1 → s.pairMode i q = 0 → s.pairBusy i q = false → Gives (.forcedTest l w) s (fun t =>
       t.g (PX_FORCE_PAIR i) = q ∧ t.g (PX_FORCE_GROUP i) = g ∧ t.g (PX_FORCE_BIT i) = k ∧ (t.lane i).forceTest = some w ∧
       RegsKeep s t (regIn [PX_FORCE_PAIR i])))) ∧
    (s.laneSt i ∈ [laVoting, laSpare] → s.pairMode i p.val = 0 → s.pairBusy i p.val = false →
      let n := tabGet (fun _ => 0) (s.lane i).pairTest p.val
      Gives (.comparatorTestDue l p) s (fun t =>
        t.g (PX_FORCE_PAIR i) = p.val ∧ t.g (PX_FORCE_GROUP i) = (testBit n).1 ∧ t.g (PX_FORCE_BIT i) = (testBit n).2 ∧
        (t.lane i).forceTest.isSome = true ∧ tabGet (fun _ => 0) (t.lane i).pairTest p.val = (n + 1) % 388)) ∧
    (∀ v, (s.lane i).forceTest = some v → ∃ a : State,
      (a.lane i).forceTest = none ∧ a.g (PX_TEST_DONE i) = 1 ∧ a.on (PX_TEST_TRIP i) = trip ∧ a.on (PX_TEST_SYNOK i) = synOk ∧
      a.on (PX_TEST_RAILOK i) = railOk ∧ a.g (PX_TEST_PAIR i) = getBits v 0 2 ∧ RegsKeep s a (regIn [PX_TEST_DONE i]) ∧
      exec (.forcedTestResult l trip synOk railOk group b) s = .next (
        if trip = true ∧ synOk = true ∧ railOk = true then a.inc (PX_TESTCNT_COUNT i (getBits v 0 2))
        else (a.failCheck 1).pairFault i (getBits v 0 2) (if railOk = false then 4 else if trip = false then 2
          else if group.val = getBits v 2 2 ∧ b.val = getBits v 4 8 then 3 else 1) group.val b.val)) ∧
    (s.coresRun i = true → bit (s.g (PX_MODE_ARMED i)) p.val = true →
      exec (.comparatorMismatch l p group b) s = .next (s.pairFault i p.val 1 group.val b.val) ∧
      exec (.railMismatch l p) s = .next (s.pairFault i p.val 4 0 0)) ∧
    (s.coresRun i = true → s.pairMode i p.val ≠ 2 →
      exec (.delayParityError l p outputs group b) s = .next (s.pairFault i p.val (if outputs then 5 else 6) group.val (b.val / 32 * 32))) ∧
    (∀ kind, kind ∈ [1, 2, 3, 4, 5, 6] → ∃ a : State,
      let data := ([0, 1, 2, 3].map (fun n => leBytes 4 (a.word (PX_DIAG_VALID i n)).toNat)).flatten
      let same := tabGet (fun _ => 0) (s.lane i).diagAt p.val = s.tu.upNs + 1
      s.pairFault i p.val kind group.val b.val = a.take { cls := 1, src := i, code := kind, data := some data } ∧
      p.val ∈ (a.lane i).halted ∧
      (s.on (PX_DIAG_VALID i p.val) = true → ¬ same → a.g (PX_DIAG_MORE i p.val) = 1 ∧ a.g (PX_DIAG_KIND i p.val) = s.g (PX_DIAG_KIND i p.val)) ∧
      (s.on (PX_DIAG_VALID i p.val) = true → same → a.g (PX_DIAG_KIND i p.val) = max kind (s.g (PX_DIAG_KIND i p.val))) ∧
      (s.on (PX_DIAG_VALID i p.val) = false → a.g (PX_DIAG_VALID i p.val) = 1 ∧ a.g (PX_DIAG_KIND i p.val) = kind ∧
        a.g (PX_DIAG_SUSPECT i p.val) = suspectOf kind ∧ a.g (PX_DIAG_GROUP i p.val) = group.val ∧ a.g (PX_DIAG_BIT i p.val) = b.val) ∧
      RegsKeep s a (regIn [PX_DIAG_VALID i p.val]))

/-- Lane memory and its check (R149 to R154, R160): an access that the MMU refuses is an exception with its cause and entry, held while its task
speculates; an uncorrectable error is class 1 of the lane's memory; a scrub adds what it corrected, of lane DRAM alone while `TC_CTRL.SCRUB` is
0; a DMA request that waits beyond the threshold is counted as starvation with a notice. A fault's record keeps the first until it is
cleared; a runtime's fault stops the lane's pairs, a task's is an event record with the fault status and abandons its cycle.

Completion is stated of mmuFault, uncorrectableMemoryError, scrubPass, tcmStarvation. -/
def Obligations.LaneMemoryFaultsAndScrubs : Prop :=
  ∀ (s : State) (l : Lane) (c : Core) (a size : Nat) (acc : AccessKind) (sup : Bool) (m : MemKind) (d l2 tcm clks : Nat) (b : Fin 8),
    let i := l.val
    (∀ cause e, s.pairRuns i (c.val / 2) = true → s.mmuCheck i (c.val / 2) a size acc sup = some (cause, e) →
      let r : MmuRec := { cause := cause, access := accessCode acc, sup := sup, a := a, entry := e }
      (s.pairTask i (c.val / 2) = none → exec (.mmuFault l c a acc sup size) s = .next (s.mmuFault i c.val none r)) ∧
      (∀ t, s.pairTask i (c.val / 2) = some t → s.speculates i t = false → s.g (RA_CTX_STATE i t) = 0 →
        exec (.mmuFault l c a acc sup size) s = .next (s.mmuFault i c.val (some t) r)) ∧
      (∀ t, s.pairTask i (c.val / 2) = some t → s.speculates i t = true → Gives (.mmuFault l c a acc sup size) s (fun b =>
        b.g (RA_CTX_STATE i t) = 2 ∧ b.on (RA_CTX_HELD i t) = true ∧ (b.ctx i t).stalled.length = 1 ∧ OnlyLane s b i (regIn [RA_CTX_STATE i t]) ∧
        (b.lane i).mem = (s.lane i).mem))) ∧
    (∀ (r : MmuRec) (t : Option Nat),
      let k := if s.pairMode i (c.val / 2) = 2 then c.val else 2 * (c.val / 2)
      let u := s.mmuFault i c.val t r
      u.g (MM_FSTAT_VALID i k) = 1 ∧
      (s.on (MM_FSTAT_VALID i k) = true → u.g (MM_FSTAT_MORE i k) = 1 ∧ u.g (MM_FSTAT_CAUSE i k) = s.g (MM_FSTAT_CAUSE i k) ∧
        u.g (MM_FADDR_ALO i k) = s.g (MM_FADDR_ALO i k)) ∧
      (s.on (MM_FSTAT_VALID i k) = false → u.g (MM_FSTAT_CAUSE i k) = r.cause % 8 ∧ u.g (MM_FADDR_ALO i k) = r.a % 2 ^ 32 ∧ u.on (MM_FSTAT_PRIV i k) = r.sup ∧
        u.g (MM_FSTAT_MORE i k) = 0) ∧
      RegsKeep s u (fun j => regIn [MM_FSTAT_VALID i k, MM_FADDR_ALO i k] j ∨ r.sup = false ∧ recPage j) ∧ (u.lane i).mem = (s.lane i).mem ∧
      (r.sup = false → (s.mode == mDormant) = false → s.on EV_STAT_FULL = false → s.ev.flash = [] → s.ev.staged = [] → s.ev.ovf = none →
        ∃ e, u.ev.staged = [e] ∧ e.source ∈ evSources ∧ e.cls = 0xFF ∧ e.seq = s.ev.nextSeq ∧
          e.data.take 4 = leBytes 4 (u.word (MM_FSTAT_VALID i k)).toNat) ∧
      (r.sup = true → (u.lane i).halted = [0, 1, 2, 3]) ∧
      (∀ n, t = some n → r.sup = false → (s.lt i n).phase = .executing → (u.lt i n).phase = .abandoned)) ∧
    (s.laneSt i ≠ laAbsent → exec (.uncorrectableMemoryError l m) s = .next ((s.failCheck 0).report (4 + i) 1 (memCode m))) ∧
    (s.coresRun i = true →
      let on := s.on (TC_CTRL_SCRUB i)
      ∃ t : State,
        t.g (MM_ECCDRAM_CORR i) = min (s.g (MM_ECCDRAM_CORR i) + d) (2 ^ (MM_ECCDRAM_CORR i).w - 1) ∧
        t.g (MM_ECCL2_CORR i) = min (s.g (MM_ECCL2_CORR i) + (if on then l2 else 0)) (2 ^ (MM_ECCL2_CORR i).w - 1) ∧
        t.g (TC_ECC_CORR i) = min (s.g (TC_ECC_CORR i) + (if on then tcm else 0)) (2 ^ (TC_ECC_CORR i).w - 1) ∧
        OnlyRegs s t (regIn [MM_ECCDRAM_CORR i, MM_ECCL2_CORR i, TC_ECC_CORR i]) ∧
        (let u := t.corrections i (d + (if on then l2 else 0) + (if on then tcm else 0))
         exec (.scrubPass l d l2 tcm none) s = .next u ∧
         exec (.scrubPass l d l2 tcm (some m)) s = .next (if on = true ∨ m = .dram then (u.failCheck 0).report (4 + i) 1 (memCode m) else u))) ∧
    (s.coresRun i = true →
      (clks ≤ 800 * s.g (TC_STARVTHR_US i b.val) → Gives (.tcmStarvation l b clks) s (fun t =>
        t.g (TC_WAIT_CLKS i b.val) = min (s.g (TC_WAIT_CLKS i b.val) + clks) (2 ^ (TC_WAIT_CLKS i b.val).w - 1) ∧
        OnlyRegs s t (regIn [TC_WAIT_CLKS i b.val]))) ∧
      (800 * s.g (TC_STARVTHR_US i b.val) < clks → Gives (.tcmStarvation l b clks) s (fun t =>
        t.g (TC_WAIT_CLKS i b.val) = min (s.g (TC_WAIT_CLKS i b.val) + clks) (2 ^ (TC_WAIT_CLKS i b.val).w - 1) ∧
        t.g (TC_STARV_COUNT i b.val) = (s.g (TC_STARV_COUNT i b.val) + 1) % 2 ^ (TC_STARV_COUNT i b.val).w ∧
        bit (t.g (TC_STAT_STARV i)) b.val = true ∧
        OnlyRecords s t (regIn [TC_WAIT_CLKS i b.val, TC_STARV_COUNT i b.val, TC_STAT_STARV i]))))

/-- Retained memory and wipes (R155 to R157, R173 to R175): a task's store outside speculation and the runtime's during a start are held in the
lane's buffer, one entry for each word of a cycle, and posted to their stream; a 257th distinct word and a store of the runtime outside Starting
are MMU faults of cause 6; a speculating context defers its store, or holds its fault. The voted stores of the least ended cycle are written
in order and leave the buffers. A dip of the retention rail while Parked and the ends of the two wipes are remembered.

Digest windows (R51, R52, R73): `SD_CTRL.EN` set over windows that break a rule sets `WINERR` with a notice and stays 0; a rise takes the digests
afresh from memory and shows the scan until it ends, when the stores that waited for it go on; `EN` 0 ends it.

Completion is stated of retainedStore, retainedApply, retentionLost, logicalWipeDone, physicalWipeDone, sdEnable, digestScanDone. -/
def Obligations.RetainedMemoryWipesAndDigests : Prop :=
  (∀ (s : State) (l : Lane) (t : Task) (st : RetStream) (a : Nat) (mask : BitVec 8) (v : BitVec 64),
     let i := l.val
     let k := t.val
     let w := a % 0x1000000 / 8 * 8
     let c := 2 * (s.desc k).pair
     (i ∈ s.liveLanes → s.pairRuns i 0 = true →
       (s.retOver i .runtime w [] = false → exec (.retainedStore l .runtime a mask v) s = .next (s.retStore l .runtime w mask.toNat v)) ∧
       (s.retOver i .runtime w [] = true → exec (.retainedStore l .runtime a mask v) s = .next
         (s.mmuFault i 0 none { cause := 6, access := 1, sup := true, a := 0x1C0000000 + w }))) ∧
     (s.worksOn i k = true → s.pairRuns i (s.desc k).pair = true →
       (s.speculates i k = false → s.g (RA_CTX_STATE i k) = 0 →
         (s.retOver i (.task t) w [] = false → exec (.retainedStore l (.task t) a mask v) s = .next (s.retStore l (.task t) w mask.toNat v)) ∧
         (s.retOver i (.task t) w [] = true → exec (.retainedStore l (.task t) a mask v) s = .next
           (s.mmuFault i c (some k) { cause := 6, access := 1, sup := false, a := 0x1C0000000 + w }))) ∧
       (s.speculates i k = true →
         let op : CoreOp := .store false false (0x1C0000000 + w) (leBytes 8 (maskMerge (s.specRetRead i k w) v mask.toNat).toNat)
         (s.retOver i (.task t) w (s.ctx i k).retWords = false →
           exec (.retainedStore l (.task t) a mask v) s = .next (s.deferWrite i k (0x1C0000000 + w) mask.toNat v op)) ∧
         (s.retOver i (.task t) w (s.ctx i k).retWords = true → exec (.retainedStore l (.task t) a mask v) s = .next (s.holdCtx i k [op])))) ∧
     (let ws := (s.lt i k).retWords.eraseDups
      (s.retOver i (.task t) w [] = true ↔ w ∉ ws ∧ 256 ≤ ws.length) ∧
      (s.app.state ≠ .starting → s.retOver i .runtime w [] = true) ∧
      ∃ b : State,
        let new := maskMerge (s.retRead i w) v mask.toNat
        let y := s.lt i k
        let cycle := y.cycle + (if y.phase = .submitted then 1 else 0)
        s.retStore l (.task t) w mask.toNat v = (b.postStream .retained (.task t) y.retPos l (retBytes cycle w new)).1 ∧
        (b.lane i).rbuf = (s.lane i).rbuf.filter (fun e => !(e.st == .task t && e.cycle == cycle && e.a == w)) ++
          [{ st := .task t, cycle := cycle, place := y.retPos, a := w, v := new }] ∧
        (b.lt i k).retPos = y.retPos + 1 ∧ (∀ n, n ∈ (b.lt i k).retWords ↔ n = w ∨ n ∈ y.retWords) ∧
        (b.lane i).mem = (s.lane i).mem ∧ RegsKeep s b (regIn [MM_RETAIN_PEND i])) ∧
     (s.mode ≠ mDormant → ∀ u us, s.retDue st = u :: us →
       exec (.retainedApply st) s = .next ((u :: us).foldl State.endStream ((s.retWrite (u :: us)).retRetire st u.cycle)) ∧
       (s.retWrite (u :: us)).app.retMem = ((s.retWrite [u]).retWrite us).app.retMem ∧
       (∀ x, u.won = some x → ∀ n, (s.retWrite [u]).app.retMem.rd n =
         if leAt x 8 4 ≤ n ∧ n < leAt x 8 4 + 8 then (leBytes 8 (leAt x 12 8)).getD (n - leAt x 8 4) 0 else s.app.retMem.rd n) ∧
       (∀ n < 4, ∀ e, e ∈ ((s.retRetire st u.cycle).lane n).rbuf ↔ e ∈ (s.lane n).rbuf ∧ ¬ (e.st = st ∧ e.cycle = u.cycle))) ∧
     (s.mode = mParked → s.laneSt i ≠ laAbsent → Gives (.retentionLost l) s (fun t => (t.lane i).retentionLost = true ∧
       t = s.modLane i (fun _ => t.lane i) ∧ (t.lane i).mem = (s.lane i).mem)) ∧
     Gives (.logicalWipeDone l) s (fun t => (t.lane i).lwiping = false ∧ (t.lane i).pwiping = (s.lane i).pwiping ∧ t = s.modLane i (fun _ => t.lane i) ∧
       (t.lane i).mem = (s.lane i).mem) ∧
     Gives (.physicalWipeDone l) s (fun t => (t.lane i).pwiping = false ∧ (t.lane i).lwiping = (s.lane i).lwiping ∧ t = s.modLane i (fun _ => t.lane i) ∧
       (t.lane i).mem = (s.lane i).mem)) ∧
  (∀ (s : State) (l : Lane) (w : Word),
     let i := l.val
     let en := getBits w 0 1 == 1
     (en = true → s.windowsOk i = false → Gives (.sdEnable l w) s (fun t => t.g (SD_STAT_WINERR i) = 1 ∧ t.g (SD_CTRL_EN i) = s.g (SD_CTRL_EN i) ∧
       OnlyRecords s t (regIn [SD_STAT_WINERR i]))) ∧
     (en = true → s.windowsOk i = true → s.on (SD_CTRL_EN i) = false → Gives (.sdEnable l w) s (fun t => t.g (SD_CTRL_EN i) = 1 ∧
       t.g (SD_CTRL_SEL i) = getBits w 4 4 ∧ t.g (SD_STAT_SCANBUSY i) = 1 ∧ (∀ n < 16, (t.lane i).dig n = s.scanDigest i n) ∧
       (t.lane i).mem = (s.lane i).mem ∧ RegsKeep s t (regIn [SD_CTRL_EN i, SD_STAT_SCANBUSY i]))) ∧
     (en = true → s.windowsOk i = true → s.on (SD_CTRL_EN i) = true → Gives (.sdEnable l w) s (fun t => t.g (SD_CTRL_EN i) = 1 ∧
       t.g (SD_CTRL_SEL i) = getBits w 4 4 ∧ OnlyRegs s t (regIn [SD_CTRL_EN i]))) ∧
     (en = false → Gives (.sdEnable l w) s (fun t => t.g (SD_CTRL_EN i) = 0 ∧ t.g (SD_CTRL_SEL i) = getBits w 4 4 ∧ t.g (SD_STAT_SCANBUSY i) = 0 ∧
       OnlyRegs s t (regIn [SD_CTRL_EN i, SD_STAT_SCANBUSY i]))) ∧
     (∃ b : State, exec (.digestScanDone l) s = .next (b.retryOps l) ∧ b.g (SD_STAT_SCANBUSY i) = 0 ∧ OnlyRegs s b (regIn [SD_STAT_SCANBUSY i]) ∧
       ((s.lane i).waitOps = [] → b.retryOps l = b)))

/-- DMA (R163 to R165, R168, R177): `START` of a channel at rest checks its fields and translations: refused with its fault and an exception of the
core that writes, or running from byte 0; `RESUME` of a suspended channel, `ABORT` of a running or suspended one; a command in another state is
discarded with a notice; while the owner speculates the command enters its deferral queue, or a `START` that would be refused holds its fault. A
descriptor that ends unchained ends the channel; a fault suspends it and interrupts its pair; one whose rack-bus load is not there waits.

Completion is stated of dmaStart, dmaResume, dmaAbort, dmaDescriptorDone, dmaFault. -/
def Obligations.DmaChannelsRun : Prop :=
  ∀ (s : State) (l : Lane) (n : Fin 16) (moved : Nat),
    let i := l.val
    let k := n.val
    let st := s.g (DM_STAT_STATE i k)
    let t := s.g (DM_CTRL_OWNER i k)
    let lost := s.laneNotice i 5 k (s.word (DM_STAT_STATE i k))
    let cmd := 0x180040024 + 0x40 * k
    let op := fun (v : Nat) => CoreOp.store true true cmd (leBytes 4 v)
    (s.pairRuns i (s.g (DM_CTRL_PAIR i k)) = true → s.speculates i t = false →
      (st = 0 ∨ st = 3 → s.startCheck i k = none → Gives (.dmaStart l n) s (fun t => t.g (DM_STAT_STATE i k) = 1 ∧ t.g (DM_DONE_BYTES i k) = 0 ∧
        OnlyLane s t i (regIn [DM_STAT_STATE i k, DM_DONE_BYTES i k]) ∧ (t.lane i).mem = (s.lane i).mem)) ∧
      (∀ cause side a, st = 0 ∨ st = 3 → s.startCheck i k = some (cause, side, a) → Gives (.dmaStart l n) s (fun t =>
        t.g (DM_STAT_STATE i k) = st ∧ t.g (DM_STAT_REFUSED i k) = 1 ∧ t.g (DM_STAT_FCAUSE i k) = cause % 2 ^ (DM_STAT_FCAUSE i k).w ∧
        t.g (DM_STAT_FSIDE i k) = side % 2 ^ (DM_STAT_FSIDE i k).w ∧ t.g (DM_FADDRLO_ADDR i k) = a % 2 ^ 32 ∧
        (s.mode ≠ mDormant → t.tx = .exception i (s.faultCore i (2 * s.g (DM_CTRL_PAIR i k))) exIommu :: s.tx) ∧
        t = { s with regs := t.regs, tx := t.tx } ∧ RegsKeep s t (regIn [DM_STAT_STATE i k, DM_FADDRLO_ADDR i k, DM_FADDRHI_ADDR i k]))) ∧
      (st = 1 ∨ st = 2 → exec (.dmaStart l n) s = .next lost) ∧
      (st = 2 → Gives (.dmaResume l n) s (fun t => t.g (DM_STAT_STATE i k) = 1 ∧ t.g (DM_STAT_FAULT i k) = 0 ∧ OnlyRegs s t (regIn [DM_STAT_STATE i k]))) ∧
      (st ≠ 2 → exec (.dmaResume l n) s = .next lost) ∧
      (st = 1 ∨ st = 2 → Gives (.dmaAbort l n) s (fun t => t.g (DM_STAT_STATE i k) = 3 ∧ OnlyLane s t i (regIn [DM_STAT_STATE i k]) ∧
        (t.lane i).mem = (s.lane i).mem)) ∧
      (st = 0 ∨ st = 3 → exec (.dmaAbort l n) s = .next lost)) ∧
    (s.pairRuns i (s.g (DM_CTRL_PAIR i k)) = true → s.speculates i t = true →
      exec (.dmaResume l n) s = .next (s.deferStore i t (op 2) cmd (leBytes 4 2)) ∧
      exec (.dmaAbort l n) s = .next (s.deferStore i t (op 4) cmd (leBytes 4 4)) ∧
      (let q := s.dmQueued i t
       let refused := (q.g (DM_STAT_STATE i k) = 0 ∨ q.g (DM_STAT_STATE i k) = 3) ∧ (q.startCheck i k).isSome = true
       (refused → exec (.dmaStart l n) s = .next (s.holdCtx i t [op 1])) ∧
       (¬ refused → exec (.dmaStart l n) s = .next (s.deferStore i t (op 1) cmd (leBytes 4 1))))) ∧
    (s.coresRun i = true → st = 1 →
      let r := s.dmaMove l k (s.g (DM_LEN_LEN i k))
      (r.2 = .moved → r.1.g (DM_LEN_LEN i k) = 0 → exec (.dmaDescriptorDone l n) s = .next (r.1.descEnd l k)) ∧
      (r.2 = .moved → r.1.g (DM_LEN_LEN i k) ≠ 0 → exec (.dmaDescriptorDone l n) s = .next r.1) ∧
      (r.2 = .waits → exec (.dmaDescriptorDone l n) s = .next r.1) ∧
      (∀ cause side a, r.2 = .fault cause side a → exec (.dmaDescriptorDone l n) s = .next (r.1.dmSuspend i k cause side a))) ∧
    (s.on (DM_CTRL_CHAIN i k) = false → (s.descEnd l k).g (DM_STAT_STATE i k) = 0 ∧ (s.descEnd l k).g (DM_STAT_DONE i k) = 1) ∧
    (∀ cause side a, let t := s.dmSuspend i k cause side a
      t.g (DM_STAT_STATE i k) = 2 ∧ t.g (DM_STAT_FAULT i k) = 1 ∧ t.g (DM_STAT_FCAUSE i k) = cause % 2 ^ (DM_STAT_FCAUSE i k).w ∧
      (s.mode ≠ mDormant → t.tx = .irq i (s.g (DM_CTRL_PAIR i k)) 0x164 :: s.tx) ∧
      RegsKeep s t (regIn [DM_STAT_STATE i k, DM_FADDRLO_ADDR i k, DM_FADDRHI_ADDR i k])) ∧
    (s.coresRun i = true → st = 1 →
      let r := s.dmaMove l k moved
      (∀ side target cause sd a, r.2 = .fault cause sd a → exec (.dmaFault l n moved side target) s = .next (r.1.dmSuspend i k cause sd a)) ∧
      (∀ side target, r.2 = .waits → exec (.dmaFault l n moved side target) s = .next r.1) ∧
      (r.2 = .moved → r.1.g (DM_LEN_LEN i k) ≠ 0 →
        exec (.dmaFault l n moved .source true) s = .next (r.1.dmSuspend i k 3 0 (r.1.dmSrc i k)) ∧
        exec (.dmaFault l n moved .dest true) s = .next (r.1.dmSuspend i k 3 1 (r.1.dmDst i k))) ∧
      (r.2 = .moved → r.1.g (DM_LEN_LEN i k) = 0 → r.1.on (DM_CTRL_CHAIN i k) = true →
        exec (.dmaFault l n moved .descriptor true) s = .next (r.1.dmSuspend i k 3 2 (r.1.dmNext i k))))

/-- A task's sample and its collection (R97 to R104): a first image, one whose last cycle every lane ended and the background task's when it is
free are sampled; a cycle no lane ended makes the grid point an overrun and skips it; one that all abandoned counts an overrun and is sampled
while the application runs; the last cycle is the one whose image went out last. A sample begins the cycle of its grid point. The close judges every
receive connection and station once; a station's valid input clears its absence, a missing one counts it.

Completion is stated of `SAMPLE` and `COLLECTION_CLOSE`. -/
def Obligations.SamplesAndCollections : Prop :=
  ∀ (s : State) (t : Task),
    let k := t.val
    let x := s.task k
    let d := s.desc k
    (s.running = true → d.kind ≠ 0 → x.next ≤ s.now + 8 →
      (d.kind = 3 → s.backgroundFree k = true → exec (.sample t) s = .next (s.takeSample k)) ∧
      (d.kind = 3 → s.backgroundFree k = false → exec (.sample t) s = .next (s.modTask k (fun x => { x with next := x.next + d.periodNs }))) ∧
      (d.kind ≠ 3 → x.started = false → exec (.sample t) s = .next (s.takeSample k)) ∧
      (d.kind ≠ 3 → x.started = true →
        ((s.lastCycle k x.outCycle).1 = true → exec (.sample t) s = .next ((s.modTask k (fun x => { x with overruns := 0 })).takeSample k)) ∧
        (s.lastCycle k x.outCycle = (false, true) → exec (.sample t) s = .next (
          if (s.overrun k).running = true then (s.overrun k).takeSample k else s.overrun k)) ∧
        (s.lastCycle k x.outCycle = (false, false) → exec (.sample t) s = .next ((s.skipPoint k).overrun k)))) ∧
    (let y := (s.skipPoint k).task k
     y.next = x.next + d.periodNs ∧ y.skipped = min (x.skipped + 1) 0xFFFFFFFF ∧ y.skipFlag = true) ∧
    (let y := (s.takeSample k).task k
     y.cycle = s.cycleAt k x.next ∧ y.sampleAt = x.next ∧ y.next = x.next + d.periodNs ∧ y.sampled = true ∧ y.closed = false ∧ y.complete = false ∧
     y.prevImg = x.prevImg ∧ y.outCycle = x.outCycle) ∧
    (s.running = true → x.sampled = true → x.closed = false →
      Gives (.collectionClose t) s (fun u => (u.task k).closed = true)) ∧
    (∀ (y : StnSt) (v : Nat) (fs : Bool),
      y.after (some v) fs = { last := v, abscyc := 0, absent := false, never := false, failsafe := fs } ∧
      y.after none fs = { y with abscyc := min (y.abscyc + 1) 0xFFFFFFFF, absent := true, failsafe := fs })

/-- The consolidated image (R97, R98, R102, R103, R119, R381): it completes once every source has arrived; the system area is put in, the forced
values stand in what goes out and not in the image under construction, the mask names the changed words, and the image goes out with its flags used
up. A Hot Standby delivers the holder's forwarded image in place of its own, the first copy only, and its own with `OWNIMG` at the forwarding
deadline.

Completion is stated of `IMAGE_COMPLETE`, `FORWARDED_IMAGE_RECEIVE` and `FORWARD_DEADLINE`. -/
def Obligations.ImagesCompleteOnce : Prop :=
  ∀ (s : State) (t : Task) (p : PairLink) (img : FwdImage),
    let k := t.val
    let x := s.task k
    (∀ m, let y := (s.imageOut k m).task k
     y.complete = true ∧ y.started = true ∧ y.sampled = false ∧ y.prevImg = m ∧ y.outCycle = x.cycle ∧ y.skipFlag = false ∧ y.olcFlag = false ∧
     y.forceMark = [] ∧ y.img = x.img ∧
     y.grprej = x.grprejNext ∧ y.grprejNext = 0 ∧ y.next = x.next ∧ s.imageOut k m = { s with app := (s.imageOut k m).app }) ∧
    (s.running = true → x.sampled = true → x.closed = true → x.complete = false → x.own = false → s.sourcesIn k = true →
      let b := s.putImg k (s.inRangeOf k).1 (s.systemArea k)
      let m := b.withForces k
      let a := b.modTask k (fun y => { y with mask := b.changedWords k y m })
      m = (s.forcedOf k true).foldl (fun (m : Mem) e => m.wrL e.1.off (padTo e.1.len e.2)) (b.task k).img ∧
      (s.takesForwarded = false →
        let u := a.lateImage k
        exec (.imageComplete t) s = .next ((if u.on UN_CFG_EN = true ∧ u.mode = mActive ∧ u.pairUp = true then
            u.originate (.pairFrame (leBytes 1 k ++ leBytes 8 x.cycle ++ u.fwdBody k m))
          else u).imageOut k m)) ∧
      (s.takesForwarded = true → s.fwdOf k x.cycle = none → exec (.imageComplete t) s = .next (a.modTask k (fun y => { y with own := true }))) ∧
      (∀ body, s.takesForwarded = true → s.fwdOf k x.cycle = some body → exec (.imageComplete t) s = .next (a.applyFwd k body))) ∧
    (s.takesForwarded = true →
      (s.heldPort (plkPort p) = false → s.fwdOf img.task.val img.cycle = none →
        (¬ ((s.task img.task.val).own = true ∧ (s.task img.task.val).cycle = img.cycle) →
          Gives (.forwardedImageReceive p img) s (fun u => u.fwdOf img.task.val img.cycle = some img.body ∧ u = { s with un := { s.un with fwd := u.un.fwd } })) ∧
        ((s.task img.task.val).own = true → (s.task img.task.val).cycle = img.cycle →
          exec (.forwardedImageReceive p img) s = .next (s.applyFwd img.task.val img.body))) ∧
      (x.own = true → Gives (.forwardDeadline t) s (fun u => u.g UN_STAT_OWNIMG = 1 ∧
        u.g UN_FWDLOST_COUNT = (s.g UN_FWDLOST_COUNT + 1) % 2 ^ UN_FWDLOST_COUNT.w ∧ (u.task k).complete = true ∧ (u.task k).prevImg = s.withForces k ∧
        RegsKeep s u (regIn [UN_STAT_OWNIMG, UN_FWDLOST_COUNT]))))

/-- The votes of a task's cycle, of its commands, retained stores and rack accesses (R55, R56, R59, R67, R69, R143, R156, R362): a majority is two
equal posts; a window closes when its time is over, that of a run-ahead task not before its next sample time, and before that nothing happens; at the
close an undecided vote is judged once more by the lanes that count; without a majority nothing is committed, with class 3 where more than one lane
votes; lanes that have not posted to a formed majority are late and in the minority; commands that found none are answered `VOTE_DISAGREE`; rack
reads that found none are bus errors. That the close judges the counting lanes again is the model's choice, log entry 32.

Completion is stated of `VOTE_WINDOW_CLOSE` and `COMMAND_WINDOW_CLOSE`. -/
def Obligations.VoteWindowsClose : Prop :=
  ∀ (s : State) (k : StreamKind) (t : Task),
    (∀ (xs : List (List Byte)) w, agreed xs = some w → 2 ≤ (xs.filter (· == w)).length) ∧
    (∀ (xs : List (List Byte)), agreed xs = none → ∀ w, (xs.filter (· == w)).length < 2) ∧
    (∀ n since us, s.windowOver n since us = true ↔ since + us * 1000 ≤ s.tu.upNs ∧
      ((tabGet (fun _ => ({} : TaskDesc)) s.app.pkg.tasks n).runahead = true → (s.task n).next ≤ s.now)) ∧
    (∀ v, s.lateLanes v = (s.liveLanes.filter (fun l => !(v.subs.map (·.1.val)).contains l && decide ((s.lane l).joinAt ≤ s.sampleTime v.t.val v.cycle))).foldl
      (fun (a : State) l => a.minority { lane := l, cause := 4, task := v.t.val, cycle := v.cycle }) s) ∧
    (∀ v, s.openVote t = some v →
      let c := { v with closed := true }
      (s.windowOver t.val v.since (s.g VX_CTRL_WINDOW) = false → exec (.voteWindowClose t) s = .next s) ∧
      (s.windowOver t.val v.since (s.g VX_CTRL_WINDOW) = true →
        (v.result = none → (s.voters.length < 2 ∨ agreed (s.countedSubs v) = none) → exec (.voteWindowClose t) s = .next (s.noMajority c 0x400)) ∧
        (∀ w, v.result = none → 2 ≤ s.voters.length → agreed (s.countedSubs v) = some w →
          exec (.voteWindowClose t) s = .next ((s.majority c w).lateLanes c)) ∧
        (∀ w, v.result = some (.majority w) → exec (.voteWindowClose t) s = .next ((s.putVote c).lateLanes c)) ∧
        (v.result = some .none → exec (.voteWindowClose t) s = .next (s.putVote c)))) ∧
    (∀ v : CycVote, ∃ a : State, s.noMajority v 0x400 = (if 2 ≤ s.voters.length then a.report 0x10 3 0x400 else a) ∧
      a.g VX_NOMAJ_COUNT = (s.g VX_NOMAJ_COUNT + 1) % 2 ^ VX_NOMAJ_COUNT.w ∧ a.parts = s.parts ∧ a.transit = s.transit ∧ a.app = s.app ∧
      RegsKeep s a (regIn [VX_VOTES_COUNT, VX_NOMAJ_COUNT])) ∧
    (∀ v, s.closing k t = some v →
      let n := match v.st with
        | .task t => t.val
        | .runtime => 16
      (s.windowOver n v.since (s.g VX_CTRL_CMDWIN) = false → exec (.commandWindowClose k t) s = .next s) ∧
      (s.windowOver n v.since (s.g VX_CTRL_CMDWIN) = true →
        (v.won = none → agreed (s.counted v) = none →
          let e := ((s.endStream v).inc VX_VOTES_COUNT).inc VX_NOMAJ_COUNT
          let b := if 2 ≤ s.voters.length then e.report 0x10 3 0x400 else e
          (k = .command → exec (.commandWindowClose k t) s = .next (b.cmdFails v.posts)) ∧
          (k = .retained → exec (.commandWindowClose k t) s = .next b) ∧
          (k = .rack → exec (.commandWindowClose k t) s = .next ((v.posts.map (·.1.val)).foldl (fun (a : State) (l : Nat) =>
            match v.posts.find? (fun e => e.1.val == l) with
            | some e => if (reqOf e.2).wr.isNone then a.rackBusError l t.val v.place (reqOf e.2).a false else a
            | none => a) b))) ∧
        (∀ w, v.won = none → agreed (s.counted v) = some w →
          let b := (s.streamForms v w).streamLate { v with won := some w }
          (k = .command → exec (.commandWindowClose k t) s =
            .next ((b.runCmd { chans := b.laneChans, hdr := w.take 16, p := w.drop 16 }).endStream v)) ∧
          (k = .rack → exec (.commandWindowClose k t) s = .next (b.rackAct t.val v.place (reqOf w) (b.task t.val).cycle)) ∧
          (k = .retained → exec (.commandWindowClose k t) s = .next b)) ∧
        (∀ w, v.won = some w →
          let c := (s.liveLanes.filter (fun l => !(v.posts.map (·.1.val)).contains l && s.sinceJoin l v.since)).foldl
            (fun (a : State) l => a.streamMinority l 7 v.st) (s.putStream { v with closed := true })
          exec (.commandWindowClose k t) s = .next (if k = .command then c.endStream v else c))))

/-- Committed outputs reach their targets (R39, R40, R108, R117, R219, R272, R332, R334, R365): a part that arrives within its die's margin of its
commit time, as the die's own counter shows it, acts at once and is counted late; a ninth commit time is held back by the Keeper, and what is committed
later for a time held back follows it; any other is held by the die. At the earliest commit time all parts of that time act, in the order of their
commits, the Keeper's by their places in the output image, and no other. Room at the die releases the first time held back; a commit message ends
the field die's silence and brings its parts, none over a link that is down; a publication due is sent; a stopped or held application commits the stop
image at each grid point.

Completion is stated of `OUTPUT_APPLY`, `QUEUED_COMMIT_RELEASE`, `COMMIT_MESSAGE`, `PUBLICATION_SEND` and `STOP_IMAGE_COMMIT`. -/
def Obligations.OutputsActAtTheirCommitTime : Prop :=
  ∀ (s : State) (q : ApplyQ) (p : Part) (n : Fin 64) (t : Task),
    (let a := s.useNode p
     let r := { p with reached := s.now }
     (s.heldBack p = true → s.arrive p = { a with backlog := a.backlog ++ [r] }) ∧
     (s.heldBack p = false → p.commit < s.dieNow p.q + queueMargin p.q → s.arrive p = a.applyLate r) ∧
     (s.heldBack p = false → s.dieNow p.q + queueMargin p.q ≤ p.commit →
       (8 ≤ (s.pendingTimes p.q).length → p.commit ∉ s.pendingTimes p.q → s.arrive p = { a with backlog := a.backlog ++ [r] }) ∧
       ((s.pendingTimes p.q).length < 8 ∨ p.commit ∈ s.pendingTimes p.q → s.arrive p = { a with parts := a.parts ++ [r] }))) ∧
    (∀ d, tabGet (fun _ => 0) (s.lateAt d).tu.lateApplied d = tabGet (fun _ => 0) s.tu.lateApplied d + 1) ∧
    (∀ c, s.earliest q = some c →
      (∀ x ∈ s.parts, x.q = q → c ≤ x.commit) ∧
      (c ≤ s.dieNow q →
        let u := { s with parts := s.parts.filter (fun x => !(x.q == q && x.commit == c)) }
        (q ≠ .keeper → exec (.outputApply q) s = .next ((s.parts.filter (fun x => x.q == q && x.commit == c)).foldl State.applyPart u)) ∧
        (q = .keeper → ∃ due : List Part, due.Perm (s.parts.filter (fun x => x.q == q && x.commit == c)) ∧
          due.Pairwise (fun x y => s.partPlace x ≤ s.partPlace y) ∧ exec (.outputApply q) s = .next (due.foldl State.applyPart u)))) ∧
    (∀ x, s.backlog.find? (fun p => p.q == q) = some x → (s.pendingTimes q).length < 8 →
      exec (.queuedCommitRelease q) s = .next ((s.backlog.filter (fun y => y.q == q && y.commit == x.commit)).foldl State.arrive
        { s with backlog := s.backlog.filter (fun y => !(y.q == q && y.commit == x.commit)) })) ∧
    (s.linkDown lkField = true → exec .commitMessage s = .next s) ∧
    (s.linkDown lkField = false → ∃ a : State,
      exec .commitMessage s = .next ((s.transit.filter (fun p => p.q == .field)).foldl State.arrive a.driveOutputs) ∧
      a.transit = s.transit.filter (fun p => p.q != .field) ∧ a.g FD_STAT_SILENT = 0 ∧ a.fd.msgAt = s.tu.upNs ∧
      a = { s with transit := a.transit, fd := { s.fd with msgAt := s.tu.upNs }, regs := a.regs } ∧ RegsKeep s a (regIn [FD_STAT_SILENT])) ∧
    (let mine (x : Part) : Bool := match x.tgt with
       | .publication k _ => k == n.val && decide (x.commit ≤ s.now)
       | _ => false
     s.parts.filter mine ≠ [] → exec (.publicationSend n) s = .next ((s.parts.filter mine).foldl State.applyPart
       { s with parts := s.parts.filter (fun x => !mine x) })) ∧
    (∀ k, p.tgt = .publication k 0 → p.data = [] → s.applyPart p = s.sendPub k p.commit p.cycle) ∧
    (s.app.state = .stopped ∨ s.app.state = .held → s.app.anchor.isSome = true → (s.task t.val).next ≤ s.now + 8 →
      exec (.stopImageCommit t) s = .next (s.commitStop t.val)) ∧
    ((s.desc t.val).kind ≠ 0 →
      let d := s.desc t.val
      let k := s.cycleAt t.val (s.task t.val).next
      let c := (s.task t.val).next + d.lead * 1000
      let sent (a : State) (b : OutBind) : State := a.dispatchPart
        { q := b.tgt.queue, commit := c, tgt := b.tgt, data := a.app.pkg.stopImg.rdN (8 * b.word + b.byte) b.len, t := some (Fin.ofNat 16 t.val), cycle := k }
      let u := (s.app.pkg.outsOf t.val).foldl sent s
      s.commitStop t.val = (u.publish t.val k c).modTask t.val (fun x => { x with
        next := x.next + d.periodNs
        skipped := if u.app.state = .held ∧ d.kind ≠ 3 then min (x.skipped + 1) 0xFFFFFFFF else x.skipped }))

/-- Global time (R180 to R183, R186 to R189, R33): at the wrap the counter carries its remainder and the era takes the armed next era, or without one counts on with
`ERAMISS` and a notice; an increment outside its range is refused with a notice; the servo's increment is always legal; a snapshot latches
time, era and fraction together; a step asked for in Synchronising waits for the next tick, which applies it with the increment: it carries into the
era and the armed next era, marks every valid capture and the next two pulses; a stale increment sets its bit; a servo run without a reference keeps
the rate, and in Free the increment as it was; the RTC is written once synchronised and every 600 s.

Captures and triggers (R193 to R199): an event of an enabled channel records its extended time and counts; a legal configuration is taken, its `EN` rise
clears the record, an illegal one is a notice; a Keeper's trigger time arms its channel unless the armed one is within its margin,
which fires first; an application's time that a commit has sent and that lies beyond 1 s is rejected with a notice, one within the margin acts at
once and late unless an armed time fires first, any other arms; at its time a channel acts, counts and takes its next time. That a channel
armed while its `EN` is 0 fires once it is in use is the model's choice, log entry 106.

Completion is stated of `TIME_TICK_WRAP`, `INCREMENT_WRITE`, `ERANEXT_WRITE`, `TIME_SNAPSHOT`, `TIME_STEP`, `INCREMENT_STALE`, `RTC_UPDATE`, `SERVO_RUN`,
`CAPTURE_EVENT`, `CAPTURE_ENABLE`, `TRIGGER_ARM`, `APP_TRIGGER_ARRIVAL` and `TRIGGER_FIRE`. -/
def Obligations.TimeCapturesAndTriggers : Prop :=
  (∀ (s : State) (w : Word),
     (let f := s.tu.frac + s.tu.inc
      let v := s.g TU_NS_NS + f / 2 ^ 32
      ∃ a : State, exec .timeTickWrap s = .next a.eraWrap ∧ OnlyRegs { s with tu := a.tu } a (regIn [TU_NS_NS]) ∧
        (2 ^ 32 ≤ v → a.g TU_NS_NS = v % 2 ^ 32 ∧ a.tu = { s.tu with frac := f % 2 ^ 32 }) ∧ (v < 2 ^ 32 → a.g TU_NS_NS = 0 ∧ a.tu = s.tu)) ∧
     (s.on TU_STAT_ARMED = true → s.eraWrap.g TU_ERA_ERA = s.g TU_ERANEXT_ERA ∧ s.eraWrap.g TU_STAT_ARMED = 0 ∧
       OnlyRegs s s.eraWrap (regIn [TU_ERA_ERA, TU_STAT_ARMED])) ∧
     (s.on TU_STAT_ARMED = false → s.eraWrap.g TU_ERA_ERA = (s.g TU_ERA_ERA + 1) % 2 ^ 32 ∧ s.eraWrap.g TU_STAT_ERAMISS = 1 ∧
       OnlyRecords s s.eraWrap (regIn [TU_ERA_ERA, TU_STAT_ERAMISS])) ∧
     (let inc := w.toNat % 16 * 2 ^ 32 + s.g TU_INC_F_F
      (incLegal inc = true → Gives (.incrementWrite w) s (fun t => t.tu = { s.tu with inc := inc } ∧ t.g TU_INC_I_I = w.toNat % 16 ∧
        OnlyRegs { s with tu := t.tu } t (regIn [TU_INC_I_I]))) ∧
      (incLegal inc = false → Gives (.incrementWrite w) s (fun t => t.tu = s.tu ∧ OnlyRecords s t (fun _ => False)))) ∧
     (∀ o r : Int, incLegal (servoInc o r) = true) ∧
     Gives (.eranextWrite w) s (fun t => t.g TU_ERANEXT_ERA = w.toNat ∧ t.g TU_STAT_ARMED = 1 ∧ OnlyRegs s t (regIn [TU_ERANEXT_ERA, TU_STAT_ARMED])) ∧
     Gives .timeSnapshot s (fun t => t.g TU_SNAPNS_NS = s.g TU_NS_NS ∧ t.g TU_SNAPERA_ERA = s.g TU_ERA_ERA ∧ t.g TU_SNAPFR_FRAC = s.tu.frac % 2 ^ 32 ∧
       OnlyRegs s t (regIn [TU_SNAPNS_NS, TU_SNAPERA_ERA, TU_SNAPFR_FRAC])) ∧
     (s.mode ≠ mSynchronising → Gives (.timeStep w) s (fun t => t.now = s.now ∧ OnlyRecords s t (fun _ => False))) ∧
     (s.mode = mSynchronising → Gives (.timeStep w) s (fun t => t.tu = { s.tu with stepPend := some (sint32 w.toNat) } ∧ t.g TU_STEP_STEP = w.toNat ∧
       OnlyRegs { s with tu := t.tu } t (regIn [TU_STEP_STEP]))) ∧
     (∀ d, s.tu.stepPend = some d →
       let f := s.tu.frac + s.tu.inc
       let v : Int := s.g TU_NS_NS + ((f / 2 ^ 32 : Nat) + d)
       ∃ a : State, s.timeTick = (if 0 < d then a.stepTriggers else a) ∧
         a.g TU_NS_NS = (v % 2 ^ 32).toNat ∧ a.g TU_ERA_ERA = u32 (s.g TU_ERA_ERA + v / 2 ^ 32) ∧ a.g TU_STAT_STEPPED = 1 ∧ a.g TU_STEP_STEP = 0 ∧
         a.g TU_ERANEXT_ERA = (if s.on TU_STAT_ARMED then u32 (s.g TU_ERANEXT_ERA + v / 2 ^ 32) else s.g TU_ERANEXT_ERA) ∧
         a.tu = { s.tu with frac := f % 2 ^ 32, stepPulses := 2, stepPend := none, caps := a.tu.caps } ∧
         (∀ n < 16, s.on (TU_CAPSTAT_VALID n) = true → a.g (TU_CAPSTAT_STEPPED n) = 1)) ∧
     Gives .incrementStale s (fun t => t.g TU_STAT_INCSTALE = 1 ∧ OnlyRecords s t (regIn [TU_STAT_INCSTALE])) ∧
     (s.sync = true → (s.sb.rtcAt = none ∨ ∃ n, s.sb.rtcAt = some n ∧ n + 600000000000 ≤ s.now) →
       exec .rtcUpdate s = .next { s with
         sb := { s.sb with rtc := s.now / 1000000000, rtcFrac := s.now % 1000000000 * 32768 / 1000000000, rtcAcc := 0, rtcWritten := true
                           rtcAt := some s.now } }) ∧
     (s.linkDown lkNetwork = true → exec .servoRun s = .next s) ∧
     (s.linkDown lkNetwork = false →
      let a := s.ptpTake
      let run (b : State) : State := (State.setCorr (State.setCorr b 0) 1).syncStep b.refs true
      (∀ o r, a.servoIn = some (o, r) → ¬ (a.mode = mSynchronising ∧ (256000 < o ∨ o < -256000)) → ∃ b : State,
        exec .servoRun s = .next (run b) ∧ b.tu.inc = servoInc o r ∧ b.g TU_INC_F_F = servoInc o r % 2 ^ 32 ∧
        b.g TU_OFFSET_NS = u32 ((o + 128) / 256) ∧ b.tu.rate = r) ∧
      (∀ o r, a.servoIn = some (o, r) → a.mode = mSynchronising → (256000 < o ∨ o < -256000) → ∃ b : State,
        exec .servoRun s = .next (run b) ∧ b.tu.stepPend = some (-((o + 128) / 256)) ∧
        b.tu.inc = servoInc 0 r ∧ b.g TU_OFFSET_NS = u32 ((o + 128) / 256)) ∧
      (a.servoIn = none → a.refs.conf = true → s.g TU_STAT_SSTATE ≠ 0 → ∃ b : State, exec .servoRun s = .next (run b) ∧ b.tu.inc = servoInc 0 s.tu.rate) ∧
      (a.servoIn = none → ¬ (a.refs.conf = true ∧ s.g TU_STAT_SSTATE ≠ 0) → ∃ b : State, exec .servoRun s = .next (run b) ∧ b.tu.inc = s.tu.inc))) ∧
  (∀ (s : State) (n : Fin 16) (w : Word) (stamp : Nat) (word : BitVec 64),
     let k := n.val
     let m := trgMargin (s.g (TU_TRGCFG_TGT k))
     (s.on (TU_CAPCFG_EN k) = true → s.heldTio (s.g (TU_CAPCFG_SRC k)) = false →
       let t := extend s.now stamp
       Gives (.captureEvent n stamp) s (fun u => u.g (TU_CAP_NS k) = t % 2 ^ 32 ∧ u.g (TU_CAPERA_ERA k) = t / 2 ^ 32 % 2 ^ 32 ∧
         u.g (TU_CAPSTAT_COUNT k) = (s.g (TU_CAPSTAT_COUNT k) + 1) % 2 ^ (TU_CAPSTAT_COUNT k).w ∧ u.g (TU_CAPSTAT_VALID k) = 1 ∧
         u.g (TU_CAPSTAT_STEPPED k) = 0 ∧ (∃ xs, tabGet (fun _ => []) u.tu.caps k = ({ t := t, count := u.g (TU_CAPSTAT_COUNT k) } : CapEnt) :: xs) ∧
         OnlyRegs { s with tu := { s.tu with caps := u.tu.caps } } u (regIn [TU_CAP_NS k, TU_CAPERA_ERA k, TU_CAPSTAT_COUNT k]))) ∧
     (s.on (TU_CAPCFG_EN k) = false ∨ s.heldTio (s.g (TU_CAPCFG_SRC k)) = true → exec (.captureEvent n stamp) s = .next s) ∧
     (capCfgLegal w = true → Gives (.captureEnable n w) s (fun u => u.g (TU_CAPCFG_SRC k) = getBits w 0 6 ∧ u.g (TU_CAPCFG_EDGE k) = getBits w 6 2 ∧
       u.g (TU_CAPCFG_NODE k) = getBits w 8 8 % 2 ^ (TU_CAPCFG_NODE k).w ∧ u.g (TU_CAPCFG_EN k) = getBits w 16 1 ∧
       (getBits w 16 1 = 1 → s.on (TU_CAPCFG_EN k) = false → u.g (TU_CAPSTAT_COUNT k) = 0 ∧ u.g (TU_CAPSTAT_VALID k) = 0 ∧
         tabGet (fun _ => []) u.tu.caps k = []) ∧
       (¬ (getBits w 16 1 = 1 ∧ s.on (TU_CAPCFG_EN k) = false) → u.g (TU_CAPSTAT_COUNT k) = s.g (TU_CAPSTAT_COUNT k) ∧ u.tu = s.tu) ∧
       OnlyRegs { s with tu := { s.tu with caps := u.tu.caps } } u (regIn [TU_CAPCFG_SRC k, TU_CAPSTAT_COUNT k]))) ∧
     (capCfgLegal w = false → Gives (.captureEnable n w) s (fun u => OnlyRecords s u (fun _ => False))) ∧
     (∀ t, s.on (TU_TRGSTAT_ARMED k) = true → s.trigAt k < s.now + m →
       s.arm k t = { s with tu := { s.tu with trigNext := tabSet (fun _ => none) s.tu.trigNext k (some t) } }) ∧
     (∀ t, ¬ (s.on (TU_TRGSTAT_ARMED k) = true ∧ s.trigAt k < s.now + m) →
       (s.arm k t).trigAt k = t ∧ (s.arm k t).g (TU_TRG_NS k) = t % 2 ^ 32 ∧ (s.arm k t).g (TU_TRGSTAT_ARMED k) = 1 ∧
       OnlyRegs { s with tu := (s.arm k t).tu } (s.arm k t) (regIn [TU_TRG_NS k, TU_TRGSTAT_ARMED k])) ∧
     (s.on (TU_TRGCFG_APP k) = false → exec (.triggerArm n w) s = .next (s.arm k (extend s.now w.toNat))) ∧
     (s.on (TU_TRGCFG_APP k) = true → exec (.triggerArm n w) s = .next s) ∧
     (∀ p, s.transit.find? (·.isTrigger k) = some p → leNat (p.data.take 8) = word.toNat →
       exec (.appTriggerArrival n word) s = .next (({ s with transit := s.transit.erase p } : State).trigWord k word.toNat)) ∧
     (s.on (TU_TRGCFG_APP k) = true → s.on (TU_TRGCFG_EN k) = true → s.gated = false → ∀ t,
       (s.now + 1000000000 < t → (s.trigWord k t).g (TU_TRGSTAT_REJ k) = 1 ∧ OnlyRecords s (s.trigWord k t) (regIn [TU_TRGSTAT_REJ k])) ∧
       (t ≤ s.now + 1000000000 → s.now + m ≤ t → s.trigWord k t = s.arm k t) ∧
       (t ≤ s.now + 1000000000 → t < s.now + m →
         let l := s.p (TU_TRGSTAT_LATE k) 1
         let b := l.notice 0x1A 4 k (l.word (TU_TRGSTAT_LATE k))
         let c := (b.trigAct k t).inc (TU_TRGSTAT_FIRED k)
         (s.on (TU_TRGSTAT_ARMED k) = true → s.trigAt k < s.now + m → s.trigWord k t = b.arm k t) ∧
         (¬ (s.on (TU_TRGSTAT_ARMED k) = true ∧ s.trigAt k < s.now + m) → s.trigWord k t = c.rearm k (t + c.g (TU_TRGPER_NS k))))) ∧
     (∀ t, ¬ (s.on (TU_TRGCFG_APP k) = true ∧ s.on (TU_TRGCFG_EN k) = true ∧ s.gated = false) → s.trigWord k t = s) ∧
     (s.on (TU_TRGSTAT_ARMED k) = true → s.on (TU_TRGCFG_EN k) = true → s.trigAt k ≤ s.now →
       let a := (s.trigAct k (s.trigAt k)).inc (TU_TRGSTAT_FIRED k)
       exec (.triggerFire n) s = .next (a.rearm k (a.trigAt k + a.g (TU_TRGPER_NS k)))))

/-- Ring control (R206, R227, R231 to R233, R245 to R251, R256, R257, R262): enabling checks the schedule, a failing one is refused with its rule and
entry; disabling is `EN` 0; silence makes a master-capable Synchronising node a cold starter whose time will start a macrocycle 1 µs later; lost Marks
send a joined node back to Listening with a notice; probes and positions reach their registers, and a node that sent no Mark sends its position on; a
break folds its port once with notices in both directions, a notice makes the node take single Marks again and goes on, a healed segment is ready for
the unfold.

Completion is stated of `RING_ENABLE`, `RING_DISABLE`, `LISTEN_SILENCE_EXPIRY`, `MARKS_LOST`, `DELAY_PROBE`, `POSITION_WORD_RECEIVE`, `RING_BREAK`,
`UNFOLD_READY` and `FOLD_NOTICE_RECEIVE`. -/
def Obligations.RingControlRows : Prop :=
  ∀ (s : State) (r : Ring) (port : RPort) (unfold : Bool) (v : Nat),
    let i := r.val
    (s.on (BZ_CTRL_EN i) = false → exec (.ringEnable r) s = .next ((s.loadRingCfg i).enableRing i)) ∧
    (s.on (BZ_CTRL_EN i) = true → exec (.ringEnable r) s = .next s) ∧
    (s.on (BZ_CTRL_EN i) = false → (s.ring i).off = false →
      let check := schedCheck (s.g (BZ_CTRL_NODES i)) (s.on (BZ_CTRL_MODE i)) (s.g (BZ_NENT_COUNT i)) (s.sched i)
      (check = none → (s.enableRing i).on (BZ_CTRL_EN i) = true ∧ (s.enableRing i).g (BZ_STAT_STATE i) = 1 ∧ (s.enableRing i).g (BZ_JOIN_PHASE i) = 1 ∧
        (s.enableRing i).g (BZ_SCHEDID_ID i) = schedId (s.g (BZ_NENT_COUNT i)) (s.g (BZ_CTRL_NODES i)) (s.g (BZ_CTRL_MODE i)) (s.schedWords i) ∧
        ((s.enableRing i).ring i).transmitting = false) ∧
      (∀ rule e, check = some (rule, e) → (s.enableRing i).on (BZ_CTRL_EN i) = false ∧ (s.enableRing i).g (BZ_STAT_SCHERR i) = 1 ∧
        (s.enableRing i).g (BZ_SCHERR_RULE i) = rule % 16 ∧ (s.enableRing i).g (BZ_SCHERR_ENTRY i) = e % 4096 ∧
        OnlyRecords s (s.enableRing i) (regIn [BZ_STAT_SCHERR i, BZ_SCHERR_RULE i]))) ∧
    (exec (.ringDisable r) s = .next ((s.disableRing i).afterLoss s) ∧ (s.disableRing i).g (BZ_CTRL_EN i) = 0 ∧ ((s.disableRing i).ring i).transmitting = false) ∧
    (s.g (BZ_JOIN_PHASE i) = 1 → s.on (BZ_CTRL_MCAP i) = true → s.mode = mSynchronising → s.on (BZ_CTRL_EN i) = true →
      (s.ring i).lastActivity + (1000000 + s.nodeId i * 23000) ≤ s.tu.upNs →
      Gives (.listenSilenceExpiry r) s (fun t => t.g (BZ_JOIN_PHASE i) = 3 ∧ t.g (BZ_STAT_STATE i) = 3 ∧ (t.ring i).cold = true ∧ (t.ring i).rank0Act = true ∧
        (t.ring i).transmitting = true ∧ t.tu.stepPend = some (-(((s.now + 1000) % 1000000 : Nat) : Int)) ∧
        RegsKeep s t (regIn [BZ_JOIN_PHASE i, BZ_STAT_STATE i, TU_STEP_STEP]))) ∧
    (8 ≤ (s.ring i).missed →
      (s.g (BZ_JOIN_PHASE i) = 4 → Gives (.marksLost r) s (fun t => t.g (BZ_JOIN_PHASE i) = 1 ∧ t.g (BZ_STAT_STATE i) = 1 ∧ t.g (BZ_STAT_CLOSING i) = 0 ∧
        t.g (BZ_MARKLOST_COUNT i) = (s.g (BZ_MARKLOST_COUNT i) + 1) % 2 ^ 32 ∧ (t.ring i).transmitting = false ∧ (t.ring i).missed = 0)) ∧
      (s.g (BZ_JOIN_PHASE i) = 2 → Gives (.marksLost r) s (fun t => t.g (BZ_JOIN_PHASE i) = 1 ∧ t.g (BZ_MARKLOST_COUNT i) = s.g (BZ_MARKLOST_COUNT i) ∧
        (t.ring i).transmitting = false ∧ (t.ring i).missed = 0))) ∧
    (Gives (.delayProbe r .a (some v)) s (fun t => t.g (BZ_SEGA_DELAY i) = v % 2 ^ 16 ∧ t.g (BZ_SEGA_VALID i) = 1 ∧ OnlyRegs s t (regIn [BZ_SEGA_DELAY i])) ∧
     Gives (.delayProbe r .a none) s (fun t => t.g (BZ_SEGA_DELAY i) = s.g (BZ_SEGA_DELAY i) ∧ t.g (BZ_SEGA_VALID i) = 0 ∧ OnlyRegs s t (regIn [BZ_SEGA_DELAY i])) ∧
     Gives (.delayProbe r .b (some v)) s (fun t => t.g (BZ_SEGB_DELAY i) = v % 2 ^ 16 ∧ t.g (BZ_SEGB_VALID i) = 1 ∧ OnlyRegs s t (regIn [BZ_SEGB_DELAY i])) ∧
     Gives (.delayProbe r .b none) s (fun t => t.g (BZ_SEGB_DELAY i) = s.g (BZ_SEGB_DELAY i) ∧ t.g (BZ_SEGB_VALID i) = 0 ∧ OnlyRegs s t (regIn [BZ_SEGB_DELAY i]))) ∧
    (port = s.rxPort i → s.isMaster i = false →
      Gives (.positionWordReceive r port (some v)) s (fun t => t.g (BZ_POS_NS i) = v % 2 ^ 31 ∧
        t.g (BZ_POS_VALID i) = (if s.on (BZ_FOLD_NOTICE i) = true then 0 else 1) ∧
        t.g (BZ_MOFF_NS i) = u32 (((s.ring i).d : Int) - (v % 2 ^ 31 : Nat)) ∧
        (s.isSender i = false → s.mode ≠ mDormant →
          t.tx = .ringIdle i (s.outPort i) 0 (v % 2 ^ 31 + (320 * 16 + s.segDelay i (s.outPort i)) / 16) :: s.tx) ∧
        RegsKeep s t (regIn [BZ_POS_NS i, BZ_MOFF_NS i, BZ_MDELAY_NS i])) ∧
      Gives (.positionWordReceive r port none) s (fun t => t.g (BZ_POS_NS i) = s.g (BZ_POS_NS i) ∧ t.g (BZ_POS_VALID i) = s.g (BZ_POS_VALID i) ∧
        RegsKeep s t (regIn [BZ_MOFF_NS i, BZ_MDELAY_NS i]))) ∧
    (port ≠ s.rxPort i → port = .a → s.g (BZ_FOLD_STATE i) = 0 → s.mode ≠ mDormant →
      Gives (.positionWordReceive r port (some v)) s (fun t => t.tx = .ringIdle i 1 0 (v + (320 * 16 + s.segDelay i 1) / 16) :: s.tx ∧ t.regs = s.regs)) ∧
    (port ≠ s.rxPort i → ¬ (port = .a ∧ s.g (BZ_FOLD_STATE i) = 0) → exec (.positionWordReceive r port (some v)) s = .next s) ∧
    (let st := s.g (BZ_FOLD_STATE i)
     let closed := match port with
       | .a => st % 2 = 1
       | .b => st / 2 % 2 = 1
     let ready := match port with
       | .a => (s.ring i).readyB
       | .b => (s.ring i).readyA
     (¬ closed → Gives (.ringBreak r port) s (fun t => t.g (BZ_FOLD_STATE i) = st + (if port = .a then 1 else 2) ∧ t.g (BZ_FOLD_NOTICE i) = 1 ∧
       t.g (BZ_FOLDS_COUNT i) = (s.g (BZ_FOLDS_COUNT i) + 1) % 2 ^ 32 ∧ t.g (if port = .a then BZ_SEGA_LOS i else BZ_SEGB_LOS i) = 1 ∧
       t.g (BZ_POS_VALID i) = 0 ∧ (t.ring i).skipMean = true ∧ (t.ring i).held = 2 ∧
       (s.mode ≠ mDormant → t.tx = .ringIdle i 1 1 0 :: .ringIdle i 0 1 0 :: s.tx))) ∧
     (closed → Gives (.ringBreak r port) s (fun t => t.g (if port = .a then BZ_SEGA_LOS i else BZ_SEGB_LOS i) = 1 ∧
       t.g (BZ_FOLD_STATE i) = st ∧ t.g (BZ_FOLD_READY i) = (if ready = true then 1 else 0) ∧ t.tx = s.tx ∧
       RegsKeep s t (regIn [BZ_SEGA_LOS i, BZ_SEGB_LOS i, BZ_FOLD_READY i]))) ∧
     (closed → Gives (.unfoldReady r port) s (fun t => t.g (BZ_FOLD_READY i) = 1 ∧ t.g (if port = .a then BZ_SEGA_LOS i else BZ_SEGB_LOS i) = 0 ∧
       (if port = .a then (t.ring i).readyA else (t.ring i).readyB) = true ∧
       (s.mode ≠ mDormant → t.tx = .ringIdle i (if port = .a then 0 else 1) 3 0 :: s.tx) ∧
       RegsKeep s t (regIn [BZ_FOLD_READY i, BZ_SEGA_LOS i, BZ_SEGB_LOS i]))) ∧
     (¬ closed → exec (.unfoldReady r port) s = .next s) ∧
     Gives (.foldNoticeReceive r port unfold) s (fun t => t.g (BZ_FOLD_NOTICE i) = 1 ∧ t.g (BZ_POS_VALID i) = 0 ∧ t.g (BZ_SYNCSTAT_HOLD i) = 1 ∧
       (t.ring i).skipMean = true ∧ (t.ring i).held = 2 ∧ (t.ring i).devs = [] ∧
       (s.on (BZ_FOLD_NOTICE i) = true → t.tx = s.tx) ∧
       (s.on (BZ_FOLD_NOTICE i) = false → port = s.rxPort i → s.mode ≠ mDormant →
         t.tx = .ringIdle i (s.outPort i) (if unfold then 2 else 1) 0 :: s.tx) ∧
       RegsKeep s t (regIn [BZ_FOLD_NOTICE i, BZ_POS_VALID i, BZ_SYNCSTAT_HOLD i])))

/-- The ring's slots and cycles (R207, R208, R210, R216, R219, R222, R225, R234 to R239, R249, R250, R253, R254, R385, R391): the start of a basic cycle
shifts what was seen, counts a missing Mark and ends the closure after another node's Mark; a rank-0 node sends its Mark there, another its
stand-in Mark when its conditions hold, each unless it lies more than 200 ns off by the guardian's counter, which is a free value of the model, log
entry 117; a slot of the node's own off its time by more than 200 ns is a guardian violation, else a poll, a reply or a reference message goes
out; the macrocycle boundary takes the means, exchanges the exclusion lists and joins a node that has counted 50 Marks; a witness decides its
verdict, a backup repeats the witness's.

Ring reception (R206, R209, R214, R216, R218, R221, R223, R235, R243, R248, R249, R527): nothing passes a held port; a node discards what meets its own slot,
removes its own frame, ends one whose `TTL` runs out and forwards any other with its `TTL` one less, and what is no frame as it is; an Off
controller or the other port takes nothing for processing. A poll for this node is applied by its records, an accepted reply is kept for its
node, a node's first good Mark starts its count, a bad frame is rejected and counted, a cold starter collides.

Completion is stated of `BASIC_CYCLE_START`, `STAND_IN_MARK`, `SLOT_TRANSMIT`, `MACROCYCLE_BOUNDARY`, `WATCH_VERDICT`, `MARK_RECEIVE`, `POLL_RECEIVE`,
`REPLY_RECEIVE` and `REFERENCE_MESSAGE_RECEIVE`. -/
def Obligations.RingCyclesSlotsAndReception : Prop :=
  (∀ (s : State) (r : Ring) (e : Fin 4096) (dev : Int) (w : Fin 4),
     let i := r.val
     let k := w.val
     let x := s.ring i
     let off := Config.markDev s.free
     let u : State := { s with free := s.free + 1 }
     (∃ d : State, exec (.basicCycleStart r) s = .next
         ((((((d.settleNet i (d.nodeId i)).snapReply i).modRing i (fun y => y.settle d.now)).startMark i).showDelay i).unitBasicCycle i) ∧
       (d.ring i).prev = x.cur ∧ (d.ring i).prev2 = x.prev ∧ (d.ring i).prev3 = x.prev2 ∧ (d.ring i).cur = x.ahead ∧ (d.ring i).ahead = {} ∧
       (d.ring i).yield = x.cur.rank0Lower ∧ d.g (BZ_MARK_VALID i) = (if x.ahead.mark = true then 1 else 0) ∧ d.g (BZ_GSTAT_ALIGNED i) = 0 ∧
       d.g (BZ_NOMARK_COUNT i) = (if s.g (BZ_STAT_STATE i) ≠ 0 ∧ ((x.cur.mark = false ∧ x.cur.sent = false) ∨
           (x.prev.sent = true ∧ x.prev.mark = false ∧ x.prev.returned = false)) then (s.g (BZ_NOMARK_COUNT i) + 1) % 2 ^ 32
         else s.g (BZ_NOMARK_COUNT i)) ∧
       (x.cur.mark = true → d.g (BZ_STAT_CLOSING i) = 0 ∧ d.g (BZ_CLOSE_NS i) = 0) ∧
       (x.cur.mark = false → x.cur.rank0Lower = false → x.cur.sent = true → x.cold = false → s.on (BZ_STAT_CLOSING i) = false →
         (x.rank0Act = true → x.coldYield = false) → ∀ n, x.dd = some n → n ≤ 19000 → d.g (BZ_STAT_CLOSING i) = 1 ∧ d.g (BZ_CLOSE_NS i) = 20000 - n)) ∧
     (s.on (BZ_CTRL_EN i) = true → s.on (BZ_CTRL_MCAP i) = true → x.transmitting = true → s.actRank i = 0 → x.r0Wait = 0 →
       let t := s.startMark i
       if 200 < off ∨ off < -200 then t = (u.modRing i (fun x => { x with cur := { x.cur with rank0 := true } })).guardianViolation i
       else t.g (BZ_STAT_STATE i) = 3 ∧ (t.ring i).cur.sent = true ∧ (t.ring i).cur.rank0 = true ∧
         (s.mode ≠ mDormant → s.mode ≠ mSafeHalt → t.tx = .ringIdle i (s.outPort i) 0 (s.segDelay i (s.outPort i) / 16) ::
           .ringFrame i (s.outPort i) (s.markFrame i (bcStart s.now) false).bytes :: s.tx)) ∧
     (let c := s.txCycle i 2400 s.now
      (s.standInOk i c = true →
        if 200 < off ∨ off < -200 then exec (.standInMark r) s = .next ((u.guardianViolation i).afterLoss u)
        else Gives (.standInMark r) s (fun t => t.g (BZ_STANDIN_COUNT i) = (s.g (BZ_STANDIN_COUNT i) + 1) % 2 ^ 32 ∧
          t.g (BZ_STAT_STATE i) = (if s.actRank i = 0 then 3 else 4) ∧ (t.cyc i c).sent = true ∧
          (s.mode ≠ mDormant → s.mode ≠ mSafeHalt → ∃ p, t.tx = .ringIdle i (s.outPort i) 0 p ::
            .ringFrame i (s.outPort i) (s.markFrame i c true).bytes :: s.tx) ∧
          RegsKeep s t (regIn [BZ_STANDIN_COUNT i, BZ_STAT_STATE i, BZ_MDELAY_NS i, BZ_POS_NS i, BZ_MOFF_NS i]))) ∧
      (s.standInOk i c = false → exec (.standInMark r) s = .next s)) ∧
     (∀ x, (s.sched i).find? (fun x => x.e == e.val) = some x →
       let c := s.txCycle i x.off s.now
       (s.ownEntry i c x = true ↔ (if x.kind = 0 then s.isSender i = true ∧ (s.cyc i c).sent = true else x.node = s.nodeId i) ∧
         (s.ring i).transmitting = true ∧ (s.ring i).cold = false ∧ s.on (BZ_CTRL_EN i) = true ∧ x.inCycle (bcNum c) = true ∧ (s.cyc i c).corrupted = false) ∧
       (s.ownEntry i c x = false → exec (.slotTransmit r e dev) s = .next s) ∧
       (s.ownEntry i c x = true → (200 < dev ∨ dev < -200) → exec (.slotTransmit r e dev) s = .next ((s.guardianViolation i).afterLoss s)) ∧
       (s.ownEntry i c x = true → -200 ≤ dev → dev ≤ 200 →
         (x.kind = 0 →
           let a := s.settleNet i x.node
           let b := a.pollBody i x
           let v := a.sendRing i (a.mkFrame i c 2 (if b.1 then 32 else 0) x.node b.2.1)
           let d : State := { v with parts := v.parts.map (fun p => if b.2.2.2.contains p then { p with sent := true, left := false }
             else if b.2.2.1.contains p then { p with left := true } else p) }
           let late := b.2.2.2.filter (fun p => !p.sent && decide (p.commit < a.now + 10000))
           exec (.slotTransmit r e dev) s = .next (if late = [] then d
             else (d.p (BZ_STAT_LATE i) 1).p (BZ_LATEREC_COUNT i) (d.g (BZ_LATEREC_COUNT i) + late.length))) ∧
         (x.kind = 1 → ∃ (b : State) (sync : Nat),
           let y := b.replyBody i c x
           let f := b.mkFrame i c 3 (y.2 + sync) 0xFF y.1
           OnlyRegs s b (regIn [BZ_SYNCSTAT_SYNCTX i]) ∧ (x.sync = false → b = s ∧ sync = 0) ∧ (sync = 2 → s.on (BZ_CTRL_MODE i) = false) ∧
           exec (.slotTransmit r e dev) s = .next (if x.light = true ∧ y.2 = 4 then b.holdLight i f.bytes else b.sendRing i f)) ∧
         (x.kind ≠ 0 → x.kind ≠ 1 → (s.refBody i x = none → exec (.slotTransmit r e dev) s = .next s) ∧ ∀ body, s.refBody i x = some body →
           exec (.slotTransmit r e dev) s = .next ((s.sendRing i (s.mkFrame i c 4 0 0xFF body)).modRing i (fun y => { y with refSeq := (y.refSeq + 1) % 2 ^ 16 }))))) ∧
     (∃ b : State, exec (.macrocycleBoundary r) s = .next (((b.unfold i).unitMacro i).afterLoss s) ∧ (b.ring i).devs = [] ∧ (b.ring i).exclNow = x.exclNext ∧
       (b.ring i).exclNext = [] ∧ (b.ring i).ds = [] ∧ (b.ring i).ownDs = [] ∧
       b.g (BZ_JOIN_PHASE i) = (if s.g (BZ_JOIN_PHASE i) = 2 ∧ 50 ≤ s.g (BZ_JOIN_MARKS i) then 4 else s.g (BZ_JOIN_PHASE i)) ∧
       (s.g (BZ_JOIN_PHASE i) = 2 → 50 ≤ s.g (BZ_JOIN_MARKS i) → b.g (BZ_STAT_STATE i) = 2 ∧ (b.ring i).transmitting = true) ∧
       (x.ds ≠ [] → (b.ring i).d = x.ds.foldl (· + ·) 0 / x.ds.length) ∧ (x.ds = [] → (b.ring i).d = x.d)) ∧
     (s.on (UN_WUNIT_VALID k) = true →
       let x := s.wit k
       (x.cycles < 2 → exec (.watchVerdict w) s = .next ((s.modWit k (fun x => { x with verdict := none })).showVerdict k 0)) ∧
       (∀ rec, 2 ≤ x.cycles → s.on (UN_WUNIT_BACKUP k) = true → x.heard = some rec → Gives (.watchVerdict w) s (fun t =>
         (t.wit k).verdict = some rec ∧ (t.wit k).lseq = beAt rec 4 4 ∧ (t.wit k).expect = (beAt rec 4 4 + 1) % 2 ^ 32 ∧
         (t.wit k).holder = (if byteAt rec 2 = 3 then none else some (byteAt rec 3)) ∧ t.g (UN_WSTAT_VERDICT k) = byteAt rec 2 % 2 ^ (UN_WSTAT_VERDICT k).w)) ∧
       (2 ≤ x.cycles → s.on (UN_WUNIT_BACKUP k) = false ∨ x.heard = none →
         let v := s.verdict k
         let a := (s.modWit k (fun _ => { v.2.2.2.2 with verdict := some (watchBytes (s.g (UN_WUNIT_UNIT k)) v.1 v.2.1 v.2.2.1 v.2.2.2.1) })).showVerdict k v.1
         (¬ (v.1 = 2 ∧ v.2.2.2.1 = s.witCycle + 40000) → exec (.watchVerdict w) s = .next a) ∧
         (v.1 = 2 ∧ v.2.2.2.1 = s.witCycle + 40000 → ∃ b : State, exec (.watchVerdict w) s = .next (b.event 5 {
           source := 0x0204, code := 3, cls := 0xFF, data := leBytes 4 v.2.2.1 ++ leBytes 4 ((s.witCycle + 21000) % 2 ^ 32) }) ∧
           b = a.inc (UN_WGRANT_COUNT k))) ∧
       (∀ n, x.met = some n → (s.verdict k).1 = 1 ∧ (s.verdict k).2.2.1 = n ∧ (s.verdict k).2.2.2.2.expect = (n + 1) % 2 ^ 32))) ∧
  (∀ (s : State) (r : Ring) (port : RPort) (frame : List Byte) (stamp t : Nat) (f : RFrame),
     let i := r.val
     (s.heldPort (0x10 + 2 * i) = true ∨ s.heldPort (0x11 + 2 * i) = true → s.forward i (some f) frame t = s) ∧
     (s.heldPort (0x10 + 2 * i) = false → s.heldPort (0x11 + 2 * i) = false →
       (s.inOwnSlot i t = true → f.src ≠ s.nodeId i → let v := s.forward i (some f) frame t
         v.g (BZ_WRAPDROP_COUNT i) = (s.g (BZ_WRAPDROP_COUNT i) + 1) % 2 ^ 32 ∧ v.g (BZ_STAT_WRAP i) = 1 ∧
         OnlyRegs s v (regIn [BZ_STAT_WRAP i, BZ_WRAPDROP_COUNT i])) ∧
       (s.inOwnSlot i t = true → f.src = s.nodeId i → s.forward i (some f) frame t = s) ∧
       (s.inOwnSlot i t = false → s.mode ≠ mDormant →
         ((f.src = s.nodeId i ∧ s.on (BZ_CTRL_EN i) = true) ∨ f.ttl ≤ 1 → s.forward i (some f) frame t = s) ∧
         (¬ (f.src = s.nodeId i ∧ s.on (BZ_CTRL_EN i) = true) → 1 < f.ttl →
           s.forward i (some f) frame t = { s with tx := .ringFrame i (s.outPort i) (lessTtl frame) :: s.tx }) ∧
         s.forward i none frame t = { s with tx := .ringFrame i (s.outPort i) frame :: s.tx })) ∧
     (let a := s.arrival i port frame stamp
      let b := s.passFrame i port frame a
      let q := s.passFrame i port (s.addPath i (if port = s.rxPort i then s.outPort i else 1) frame) a
      (a.takes = true ↔ s.g (BZ_STAT_STATE i) ≠ 0 ∧ port = s.rxPort i) ∧
      (a.takes = false →
        exec (.markReceive r port frame stamp) s = .next b ∧ exec (.pollReceive r port frame stamp) s = .next b ∧
        exec (.replyReceive r port frame stamp) s = .next b ∧ exec (.referenceMessageReceive r port frame stamp) s = .next q) ∧
      (a.takes = true →
        (parseFrame frame = none → (b.ring i).cold = false →
          exec (.markReceive r port frame stamp) s = .next (b.rejectFrame i none a.t) ∧ exec (.pollReceive r port frame stamp) s = .next (b.rejectFrame i none a.t) ∧
          exec (.replyReceive r port frame stamp) s = .next (b.rejectFrame i none a.t)) ∧
        (parseFrame frame = some f →
          (f.crcOk = true → f.src = b.nodeId i →
            exec (.pollReceive r port frame stamp) s = .next b ∧ exec (.replyReceive r port frame stamp) s = .next b ∧
            exec (.markReceive r port frame stamp) s = .next (if b.headOk i f = true ∧ f.ty = 1 ∧ a.stamped = true then b.ownMarkBack i f a.t a.stamp else b)) ∧
          (f.src ≠ b.nodeId i → (b.ring i).cold = true →
            exec (.markReceive r port frame stamp) s = .next
              ((if b.headOk i f = true ∧ b.inTime i f a.t = true then b else b.rejectFrame i (some f) a.t).coldMeets i (some f) a.t a.stamp) ∧
            exec (.pollReceive r port frame stamp) s = .next (b.coldFrame i a) ∧ exec (.replyReceive r port frame stamp) s = .next (b.coldFrame i a)) ∧
          (f.src ≠ b.nodeId i → (b.ring i).cold = false →
            (b.g (BZ_JOIN_PHASE i) = 1 →
              (b.headOk i f = true → f.ty = 1 → byteAt f.body 3 ≤ 1 → a.stamped = true → b.mode = mSynchronising ∨ b.inTime i f a.t = true →
                exec (.markReceive r port frame stamp) s = .next (b.enterCounting i f a.t a.stamp)) ∧
              (¬ (b.headOk i f = true ∧ f.ty = 1 ∧ byteAt f.body 3 ≤ 1 ∧ a.stamped = true ∧ (b.mode = mSynchronising ∨ b.inTime i f a.t = true)) →
                exec (.markReceive r port frame stamp) s = .next (b.refuse i (some f) a.t))) ∧
            (b.g (BZ_JOIN_PHASE i) ≠ 1 → exec (.markReceive r port frame stamp) s = .next (b.otherMark i f a)) ∧
            (∀ e, f.ty = 2 → a.stamped = true → b.accepted i f a.t = some e →
              let c := b.inc (BZ_RXOK_COUNT i)
              let d := c.modRing i (fun x => { x with polled := some a.t })
              exec (.pollReceive r port frame stamp) s = .next (if f.dst ≠ c.nodeId i then c else if bit f.flags 5 = true then d
                else (d.takeRecs i (pollRecs 512 f.body)).modRing i (fun x => x.settle (d.takeRecs i (pollRecs 512 f.body)).now))) ∧
            (¬ (f.ty = 2 ∧ a.stamped = true ∧ (b.accepted i f a.t).isSome = true) → exec (.pollReceive r port frame stamp) s = .next (b.refuse i (some f) a.t)) ∧
            (¬ (f.ty = 3 ∧ a.stamped = true ∧ (b.accepted i f a.t).isSome = true) → exec (.replyReceive r port frame stamp) s = .next (b.refuse i (some f) a.t)) ∧
            (∀ c n x, f.ty = 3 → a.stamped = true → b.accepted i f a.t = some (c, n, x) → ∃ d : State,
              exec (.replyReceive r port frame stamp) s = .next (d.unitReply i f.src x.light x.watch f.flags f.body n (a.t + (18 + f.len) * 8)) ∧
              (tabGet (fun _ => []) (d.ring i).replies f.src : List (Nat × List Byte)).head? = some (n, f.body) ∧
              d.g (BZ_RXOK_COUNT i) = (b.g (BZ_RXOK_COUNT i) + 1) % 2 ^ 32))) ∧
        (parseFrame frame = some f → f.src ≠ q.nodeId i → (q.ring i).cold = false → f.ty = 4 → a.stamped = true → ∀ e, q.accepted i f a.t = some e →
          Gives (.referenceMessageReceive r port frame stamp) s (fun v =>
            v.g (BZ_RXOK_COUNT i) = (q.g (BZ_RXOK_COUNT i) + 1) % 2 ^ 32 ∧
            (f.len = 24 → q.on (BZ_CTRL_MODE i) = true → tabGet (fun _ => 0) (v.ring i).refQuiet (byteAt f.body 0) = q.now ∧ (v.ring i).refSeen.isSome = true) ∧
            RegsKeep q v (regIn [BZ_RXOK_COUNT i]))))))

/-- The life of a lane (R60, R63 to R65, R67, R68): the spare in and out of use, the promotion of the spare at a cycle boundary while fewer than three
lanes vote, a reset lane Preparing, a failed self-test Out with class 2, a passed one after an exclusion Copying; copy rounds; the
final round and a waiting command in a quiet gap; the return of a copied lane as Voting, Spare or Absent, which counts from the next cycle
boundary on (R31); a time-out as a failed attempt, the third of which is Out with class 2.

The start of the application (R95, R114, R421): every Voting and Spare lane reports its initialisation, the last report fixes the anchor, at which the runtime's retained stores are applied, the application runs and a command that waited for it is answered; a start in Synchronising that is
not reported complete within 10 s stops with class 3.

Completion is stated of `SPARE_ENABLE`, `SPARE_DISABLE`, `SPARE_PROMOTION`, `LANE_RESET_COMPLETE`, `LANE_SELF_TEST_END`, `COPY_ROUND_COMPLETE`, `QUIET_GAP`,
`RESYNC_COMPLETE`, `RESYNC_TIMEOUT`, `LANE_INIT_COMPLETE`, `ANCHOR` and `INIT_TIMEOUT`. -/
def Obligations.LanesStartAndFollowTheirStates : Prop :=
  (∀ (s : State) (l : Lane) (n : Nat),
     let i := l.val
     let x := s.lane i
     (∀ st < 7, ∀ k < 4, (s.setLaneSt i st).laneSt k = if k = i then st else s.laneSt k) ∧
     (s.variant = .zm60 → exec .spareEnable s = .next (s.notice 0x10 3 0 (s.word VX_CTRL_SPAREEN)) ∧
       (s.mode ∈ [mBoot, mCommissioning, mMaintenance] → exec .spareDisable s = .next s)) ∧
     (s.mode ∈ [mBoot, mCommissioning, mMaintenance] → s.variant = .zm80 →
       (s.on VX_CTRL_SPAREEN = true → exec .spareEnable s = .next s) ∧
       (s.on VX_CTRL_SPAREEN = false → exec .spareDisable s = .next s) ∧
       (s.on VX_CTRL_SPAREEN = false → (∀ k < 4, s.laneSt k = laAbsent ↔ k = i) →
         exec .spareEnable s = .next (((s.p VX_CTRL_SPAREEN 1).setLaneSt i laResetting).wipeLane i true)) ∧
       (s.on VX_CTRL_SPAREEN = true → (∀ k < 4, s.laneSt k = laSpare ↔ k = i) →
         let y := (s.p VX_CTRL_SPAREEN 0).dropLane i laAbsent
         exec .spareDisable s = .next (y.1.reports y.2))) ∧
     (s.mode ∉ [mBoot, mCommissioning, mMaintenance] → s.variant = .zm80 →
       exec .spareEnable s = .next (s.notice 0x22 1 0 (s.word VX_CTRL_SPAREEN)) ∧
       exec .spareDisable s = .next (s.notice 0x22 1 0 (s.word VX_CTRL_SPAREEN))) ∧
     ((∀ k < 4, s.laneSt k = laSpare ↔ k = i) → s.votingLanes.length < 3 → Gives .sparePromotion s (fun t =>
       t.laneSt i = laVoting ∧ (∀ k < 4, k ≠ i → t.laneSt k = s.laneSt k) ∧ t.on (MB_STAT_EN i) = true ∧ t.on (MB_STAT_VOTED i) = true ∧
       (t.lane i).joinAt % 20000 = 0 ∧ s.now ≤ (t.lane i).joinAt ∧ (t.lane i).joinAt < s.now + 20000 ∧ (t.lane i).mem = x.mem ∧ t.mb = s.mb)) ∧
     (s.laneSt i = laResetting → x.lwiping = false → x.held = false → Gives (.laneResetComplete l) s (fun t =>
       t.laneSt i = laPreparing ∧ (∀ k < 4, k ≠ i → t.laneSt k = s.laneSt k) ∧ t.link i = {} ∧ t.lane i = x)) ∧
     (s.laneSt i = laPreparing →
       exec (.laneSelfTestEnd l false) s = .next (((s.setLaneSt i laOut).wipeLane i true).report 0x10 2 (0x700 + 16 * i)) ∧
       (x.waitPulses = true → x.shadow.good < 1000 → exec (.laneSelfTestEnd l true) s = .next s) ∧
       (x.waitPulses = false ∨ 1000 ≤ x.shadow.good →
         let a := (s.modLane i (fun y => { y with waitPulses := false, prepared := true })).allTests i
         (x.afterExcl = true ∨ s.votingLanes ≠ [] →
           exec (.laneSelfTestEnd l true) s = .next ((a.startCopy i).1.reports (a.startCopy i).2)) ∧
         (x.afterExcl = false → s.votingLanes = [] → exec (.laneSelfTestEnd l true) s = .next a.laneRise))) ∧
     (∀ v, s.copySource = some v →
       let y := s.beginCopy i
       y.2 = [] ∧ y.1.g VX_RSYNC_JOINER = i ∧ y.1.g VX_RSYNC_SOURCE = v ∧ y.1.on VX_RSYNC_ACTIVE = true ∧ y.1.g VX_RSYNC_ROUND = 1 ∧
       (y.1.lane v).pages = []) ∧
     (s.on VX_RSYNC_ACTIVE = true → Gives (.copyRoundComplete n) s (fun t =>
       t.g VX_RSYNCLEFT_KIB = 4 * max n (s.lane (s.g VX_RSYNC_SOURCE)).pages.length % 2 ^ 32 ∧ t.g VX_RSYNC_ROUND = min (s.g VX_RSYNC_ROUND + 1) (2 ^ VX_RSYNC_ROUND.w - 1) ∧
       (t.lane (s.g VX_RSYNC_SOURCE)).pages = [] ∧ ∀ k ∈ s.liveLanes, t.g (RA_CTRL_INHIBIT k) = 1)) ∧
     (s.on VX_RSYNC_ACTIVE = false → exec (.copyRoundComplete n) s = .next s) ∧
     ((∀ k : Task, (s.desc k.val).kind = 0 ∨ (s.desc k.val).kind = 3 ∨ s.taskQuiet k.val = true) →
       let fits : Prop := s.on VX_RSYNC_ACTIVE = true ∧ (s.lane (s.g VX_RSYNC_JOINER)).finalOk = false ∧
         s.laneSt (s.g VX_RSYNC_JOINER) = laCopying ∧ s.g VX_RSYNCLEFT_KIB * 128 + 10000 ≤ n
       ∃ a : State, (fits → a = s.finalRound.gapCommand n) ∧ (¬ fits → a = s.gapCommand n) ∧ exec (.quietGap n) s = .next a.uninhibit) ∧
     (s.gapSought = true → s.uninhibit = s) ∧ (s.gapSought = false → ∀ k : Lane, s.uninhibit.g (RA_CTRL_INHIBIT k.val) = 0) ∧
     ((∃ k : Task, (s.desc k.val).kind ≠ 0 ∧ (s.desc k.val).kind ≠ 3 ∧ s.taskQuiet k.val = false) → exec (.quietGap n) s = .next s) ∧
     (s.laneSt i = laCopying → x.finalOk = true →
       let a := ((s.p (VX_EXCL_FAILS i) 0).p VX_RSYNC_ACTIVE 0).modLane i (fun y => { y with finalOk := false, afterExcl := false, countsNow := false })
       (s.votingLanes.length < 3 → exec (.resyncComplete l) s =
         .next ((((a.setLaneSt i laVoting).joins i).openChan i true).backInService i).uninhibit.nextJoiner) ∧
       (3 ≤ s.votingLanes.length → s.on VX_CTRL_SPAREEN = true →
         exec (.resyncComplete l) s = .next ((((a.setLaneSt i laSpare).joins i).openChan i false).backInService i).uninhibit.nextJoiner) ∧
       (3 ≤ s.votingLanes.length → s.on VX_CTRL_SPAREEN = false →
         exec (.resyncComplete l) s = .next ((a.setLaneSt i laAbsent).wipeLane i true).uninhibit.nextJoiner)) ∧
     (s.laneSt i = laCopying → exec (.resyncTimeout l) s = .next ((s.failAttempt i).1.reports (s.failAttempt i).2).nextJoiner) ∧
     (let y := s.failAttempt i
      (s.g (VX_EXCL_FAILS i) < 2 → y.2 = [] ∧ y.1.laneSt i = laResetting) ∧
      (2 ≤ s.g (VX_EXCL_FAILS i) → y.2 = [⟨2, 0x10, 0x600 + 16 * i⟩] ∧ y.1.laneSt i = laOut) ∧
      y.1.g (VX_EXCL_FAILS i) = min 3 (s.g (VX_EXCL_FAILS i) + 1))) ∧
  (∀ (s : State) (l : Lane) (a : Nat),
     (s.app.state = .starting → l.val ∈ s.liveLanes →
       let u := s.modLane l.val (fun x => { x with inited := true })
       (s.app.anchor = none → (∀ k ∈ s.liveLanes, k ≠ l.val → (s.lane k).inited = true) → Gives (.laneInitComplete l) s (fun t =>
         (t.app.anchor = some (if s.ringConf 0 = true ∨ s.ringConf 1 = true then (s.now + 1999999) / 1000000 * 1000000 else (s.now / 1000000 + 1) * 1000000)) ∧
         (∀ k : Task, (t.task k.val).next = t.sampleTime k.val 0) ∧ t = { u with app := t.app })) ∧
       ((∃ k ∈ s.liveLanes, k ≠ l.val ∧ (s.lane k).inited = false) → exec (.laneInitComplete l) s = .next u)) ∧
     (let z := State.retApplyN .runtime s.streams.length s
      z.app.state = .starting → s.app.anchor = some a → a ≤ z.now →
       let u := ({ z with app := { z.app with state := .running, startChans := [], startHdr := [] } } : State).drivesEnable
       let v := if z.app.startChans = [] then u else u.answerOk z.app.startChans z.app.startHdr u.app.startPay
       (z.app.startByReady = false → exec .anchor s = .next v) ∧
       (z.app.startByReady = true →
         let w := if v.g LC_MODE_PREV = mUpdate then v else v.p LC_NEXT_KIND 0
         (w.mode = mSynchronising → exec .anchor s = .next w.readyMode) ∧ (w.mode ≠ mSynchronising → exec .anchor s = .next w))) ∧
     (s.app.anchor = none → exec .anchor s = .next s) ∧
     (s.app.state = .starting → s.app.startByReady = true → s.app.anchor = none →
       ∃ t : State, exec .initTimeout s = .next (t.report 0x16 3 5) ∧ t.g LC_NEXT_KIND = 0 ∧
         t = { s.appStop with regs := t.regs, app := { s.appStop.app with startByReady := false } } ∧ RegsKeep s.appStop t (regIn [LC_NEXT_KIND])) ∧
     (¬ (s.app.state = .starting ∧ s.app.startByReady = true ∧ s.app.anchor = none) → exec .initTimeout s = .next s))

/-- Die links and shadow counters (R21, R22, R27, R29, R30): a packet leaves with its number and its check; one in sequence with a good check is
accepted, any other asked for again, the fourth bad one in a row fails the link; each link's failure is reported under its source. A good pulse
loads a running counter and trims it, with a notice where it was more than 16 ns off; the second load in a row more than 100 ns off and the eighth
missing pulse fail it: class 1 of a lane, class 3 elsewhere. A word with a parity error is a missing pulse. That the check covers the body alone and the
numbers do not wrap is the model's choice, log entry 105.

Completion is stated of `LINK_PACKET_RECEIVE`, `LINK_FAILURE`, `SHADOW_PULSE` and `SHADOW_PULSE_MISSING`. -/
def Obligations.LinksAndShadowCounters : Prop :=
  ∀ (s : State) (k : DieLink) (c : LinkCause) (seq : Nat) (body : List Byte) (crc : Word) (d : DieId) (word : BitVec 64) (l : Lane),
    let n := linkNo k
    let x := s.link n
    (s.hasLink k = true → x.down = false →
      (seq = x.rxSeq → body.length ≤ 256 → crc32 body = crc.toNat →
        Gives (.linkPacketReceive k seq body crc) s (fun t => t.link n = { x with rxSeq := x.rxSeq + 1, replays := 0 } ∧ t = { s with links := t.links })) ∧
      (seq ≠ x.rxSeq ∨ 256 < body.length ∨ crc32 body ≠ crc.toNat →
        let a := s.setLink n { x with replays := x.replays + 1 }
        (x.replays < 3 → exec (.linkPacketReceive k seq body crc) s = .next (a.emit (.linkReplay n x.rxSeq))) ∧
        (3 ≤ x.replays → exec (.linkPacketReceive k seq body crc) s = .next (a.linkFails k .replays)))) ∧
    (s.mode ≠ mDormant → (s.sendPacket n body).tx = .linkPacket n x.txSeq body (crc32 body) :: s.tx ∧
      (s.sendPacket n body).link n = { x with txSeq := x.txSeq + 1, lastTx := s.tu.upNs }) ∧
    (let down (k : DieLink) : State := s.setLink (linkNo k) { s.link (linkNo k) with down := true }
     (s.hasLink (.lane l) = true →
       exec (.linkFailure (.lane l) .replays) s = .next ((down (.lane l)).report (0x0C + l.val) 1 1) ∧
       exec (.linkFailure (.lane l) .training) s = .next ((down (.lane l)).report (0x0C + l.val) 1 2)) ∧
     exec (.linkFailure (.lane l) .comparator) s = .next s ∧ exec (.linkFailure .network .comparator) s = .next s ∧
     exec (.linkFailure .field .comparator) s = .next s ∧
     (c ≠ .comparator →
       exec (.linkFailure .network c) s = .next ((down .network).report 0x11 3 1) ∧
       exec (.linkFailure .field c) s = .next ((down .field).report 0x12 3 1)) ∧
     (s.variant = .zm80 →
       exec (.linkFailure .keeperCompare c) s = .next ((down .keeperCompare).report 0x13 3 (if c = .comparator then 2 else 3)))) ∧
    (let a := s.setShadow d (s.shadow d).miss.1
     let fails := (s.shadow d).miss.2
     (fails = true ↔ (s.shadow d).missed = 7) ∧ (s.shadow d).miss.1.missed = (s.shadow d).missed + 1 ∧ (s.shadow d).miss.1.good = 0 ∧
     (s.shadowRuns d = true →
       exec (.shadowPulseMissing d) s = .next (if fails = true then a.shadowFails d 1 else a) ∧
       (timeWord word = none → exec (.shadowPulse d word) s = .next (if fails = true then a.shadowFails d 1 else a)) ∧
       (∀ w, timeWord word = some w →
         let y := (s.shadow d).load w
         let x := s.shadow d
         let err := shadowErr x w
         y.1.ns = w.ns ∧ y.1.frac = w.frac ∧ y.1.missed = 0 ∧ y.1.good = x.good + 1 ∧ y.1.hold = false ∧ y.1.disc = true ∧
         y.1.trim = (if x.disc = true ∧ w.step = false then x.trim + err * 128 / (125 * ((x.missed : Int) + 1)) else w.incdev) ∧
         (y.2.1 = true ↔ x.loaded = true ∧ w.step = false ∧ 16 * 2 ^ 16 < err.natAbs) ∧
         (y.2.2 = true ↔ 1 ≤ x.bad ∧ x.loaded = true ∧ w.step = false ∧ 100 * 2 ^ 16 < err.natAbs) ∧
         (let b := s.setShadow d y.1
          let b := if y.2.1 = true then b.notice (shadowSrc d) 1 0 0 else b
          exec (.shadowPulse d word) s = .next (if y.2.2 = true then b.shadowFails d 2 else b)))) ∧
     (s.shadowRuns d = false → exec (.shadowPulse d word) s = .next s ∧ exec (.shadowPulseMissing d) s = .next s)) ∧
    (∀ code, ∃ a : State,
      (d = .lane l → s.shadowFails d code = a.report (0x08 + l.val) 1 code ∧ (a.lane l.val).waitPulses = true ∧ (a.lane l.val).shadow.disc = false) ∧
      (d = .keeper → s.shadowFails d code = a.report 0x14 3 code ∧ a.tu.keeperShadow.disc = false) ∧
      (d = .keeper2 → s.shadowFails d code = a.report 0x14 3 code ∧ a.tu.keeperShadow2.disc = false) ∧
      (d = .field → s.shadowFails d code = a.report 0x15 3 code ∧ a.tu.fieldShadow.disc = false) ∧ a.regs = s.regs ∧ a.tx = s.tx)

/-- Receive connections of the Safe Channel (R288 to R293): the verdict on a PDU in the order of its checks, what a valid one and a failure do
to each state, the watchdog at the sample time, and the substitute values of the record outside Valid.

Completion is stated of `SAFE_WATCHDOG_EXPIRY`. -/
def Obligations.SafeChannelConnections : Prop :=
  ∀ (s : State) (c : Fin 128) (sample : Nat) (pdu : List Byte) (cause : Nat),
    let r := c.val
    let st := s.g (SC_RXSTAT_STATE r)
    let own := (s.task (s.g (SC_RXCFG_TASK r))).sampleAt
    (s.on SC_CTRL_EN = true → s.rxExpired r own = true → exec (.safeWatchdogExpiry c) s = .next (s.rxFail r 6)) ∧
    (s.on SC_CTRL_EN = false ∨ s.rxExpired r own = false → exec (.safeWatchdogExpiry c) s = .next s) ∧
    (s.rxExpired r sample = true ↔ st ∈ [2, 4, 5] ∧ (s.rx r).sLast + s.g (SC_RXWDT_WDT r) * 1000 ≤ sample) ∧
    (cause < 16 → (st = 2 ∨ st = 4 ∨ st = 5 → (s.rxFail r cause).g (SC_RXSTAT_STATE r) = 3) ∧
      (st = 1 → (s.rxFail r cause).g (SC_RXSTAT_STATE r) = 1) ∧
      (s.rxFail r cause).g (SC_RXSTAT_CAUSE r) = cause ∧
      (s.rxFail r cause).g (SC_RXFAIL_COUNT r) = (s.g (SC_RXFAIL_COUNT r) + 1) % 2 ^ (SC_RXFAIL_COUNT r).w) ∧
    (∀ t, (st = 1 ∨ st = 2 → (s.rxValid r sample t pdu).g (SC_RXSTAT_STATE r) = 2 ∧
        ((s.rxValid r sample t pdu).rx r).out = (pdu.drop 12).take (s.g (SC_RXCFG_LEN r))) ∧
      (st = 3 → 2 ≤ s.g (SC_RXCFG_RECOV r) → (s.rxValid r sample t pdu).g (SC_RXSTAT_STATE r) = 4 ∧ (s.rxValid r sample t pdu).g (SC_RXSTAT_GOOD r) = 1) ∧
      (st = 4 → s.g (SC_RXCFG_RECOV r) ≤ s.g (SC_RXSTAT_GOOD r) + 1 → s.g (SC_RXSTAT_GOOD r) < 255 →
        (s.rxValid r sample t pdu).g (SC_RXSTAT_STATE r) = if s.on (SC_RXCFG_ACKREQ r) = true then 5 else 2)) ∧
    (let p := padTo (16 + s.g (SC_RXCFG_LEN r)) pdu
     (p.all (· == 0) = true → s.judgePdu r sample pdu = .ignored) ∧
     (p.all (· == 0) = false → s.g TU_STAT_SSTATE = 0 → s.judgePdu r sample pdu = .fails 7) ∧
     (∀ t, s.judgePdu r sample pdu = .valid t →
       beNat (p.take 4) = s.g (SC_RXID_CONNID r) ∧
       beNat ((p.drop (12 + s.g (SC_RXCFG_LEN r))).take 4) = pduCrc (tabGet (fun _ => []) s.sc.rxKey r) (p.take (12 + s.g (SC_RXCFG_LEN r))) ∧
       (sample : Int) - t ≤ s.g (SC_RXAGE_MAXAGE r) * 1000 ∧ -1000 ≤ (sample : Int) - t)) ∧
    (st ≠ 2 → (s.rxRecord r sample).drop 8 = padTo (s.g (SC_RXCFG_LEN r)) (tabGet (fun _ => []) s.sc.safeVal r))

/-- The switch and process data (R190 to R192, R264 to R266, R273, R277): frames in error or of a wrong length are dropped and counted; a good frame's
source is learned, a frame for the module and one from the service port go to the Keeper, another leaves on the port its destination was
learned on, else on every other port and to the Keeper, in the queue of its priority; an event message takes on its residence time as it leaves; a full
queue drops; an address of 300 s is forgotten; a link change shows link and speed. A datagram that reaches a port which is up, which one is a free value,
is taken by the subscriptions that name its publication, once, in order; others are counted. That the switch has a frame ready at the time the command
says, and that the datagram's port is free, is the model's choice, log entry 73.

Completion is stated of `SWITCH_FRAME_RECEIVE`, `ADDRESS_AGEING`, `ETH_LINK_CHANGE` and `DATAGRAM_RECEIVE`. -/
def Obligations.SwitchAndProcessData : Prop :=
  ∀ (s : State) (port : EPort) (f : EthFrame) (rx tx vid mac q pcp : Nat) (b : List Byte) (o : OutFrame) (k : Fin 128),
    let p := port.val
    let takes : Prop := s.on (EN_PORT_EN p) = true ∧ s.heldPort (p + 1) = false
    let sent : Prop := takes ∧ f.fcsOk = true ∧ 64 ≤ frameLen f ∧ frameLen f ≤ 1522
    (¬ takes → exec (.switchFrameReceive port f rx tx) s = .next s) ∧
    (takes → (f.fcsOk = false ∨ frameLen f < 64 ∨ 1522 < frameLen f) → Gives (.switchFrameReceive port f rx tx) s (fun t =>
      t.g (EN_DROP_COUNT p) = (s.g (EN_DROP_COUNT p) + 1) % 2 ^ (EN_DROP_COUNT p).w ∧ OnlyRegs s t (regIn [EN_DROP_COUNT p]))) ∧
    (sent → p = 4 → exec (.switchFrameReceive port f rx tx) s = .next (s.toKeeper f (s.g (EN_PORT_PCP 4)) (s.g (EN_PORT_PVID 4)))) ∧
    (sent → p < 4 → 0x0180C2000000 ≤ f.dst → f.dst ≤ 0x0180C200000F →
      exec (.switchFrameReceive port f rx tx) s = .next (if (ptpAt f).isSome = true then s else s.inc (EN_DROP_COUNT p))) ∧
    (sent → p < 4 → ¬ (0x0180C2000000 ≤ f.dst ∧ f.dst ≤ 0x0180C200000F) →
      let stamp := if s.on (EN_PORT_LINK p) = true then some (s.rxStamp p rx) else none
      let c : Nat × Nat := match f.tag with
        | some (c, v) => if v = 0 then (c, s.g (EN_PORT_PVID p)) else (c, v)
        | none => (s.g (EN_PORT_PCP p), s.g (EN_PORT_PVID p))
      let a := s.learnMac c.2 f.src p
      (f.dst = s.macBase → exec (.switchFrameReceive port f rx tx) s = .next (a.toKeeper f c.1 c.2)) ∧
      (f.dst ≠ s.macBase →
        (∀ e, f.dst / 2 ^ 40 % 2 = 0 → a.eth.table.find? (fun e => e.1 == c.2 && e.2.1 == f.dst) = some e →
          exec (.switchFrameReceive port f rx tx) s = .next (if e.2.2.1 = p then a else a.egress p e.2.2.1 f c.2 c.1 stamp tx)) ∧
        (f.dst / 2 ^ 40 % 2 = 1 ∨ a.eth.table.find? (fun e => e.1 == c.2 && e.2.1 == f.dst) = none →
          exec (.switchFrameReceive port f rx tx) s =
            .next ((([0, 1, 2, 3].filter (fun q => q != p)).foldl (fun s q => s.egress p q f c.2 c.1 stamp tx) a).toKeeper f c.1 c.2)))) ∧
    (s.linkDown lkNetwork = false → s.mode ≠ mDormant → s.toKeeper f pcp vid = { s with tx := .ethFrame 5 (frameBytes f true pcp vid) :: s.tx }) ∧
    (ptpAt f = none → ∀ st, s.egress p q f vid pcp st tx =
      s.enqueue q (pcp / 2 % 4) { bytes := frameBytes f (vid != s.g (EN_PORT_PVID q)) pcp vid, due := tx }) ∧
    (∀ i tr r, ptpAt f = some (i, tr) → byteAt f.body i % 16 ≤ 3 → s.g EN_PTPCFG_TCMODE = 1 → s.egress p q f vid pcp (some r) tx =
      s.enqueue q 3 { bytes := frameBytes f (vid != s.g (EN_PORT_PVID q)) pcp vid, due := tx
                      fix := .residence f i tr r 0 (vid != s.g (EN_PORT_PVID q)) pcp vid }) ∧
    (∀ i tr r add tagged g, o.fix = .residence f i tr r add tagged pcp vid →
      tcCorrect f i tr (sint32 (u32 ((s.txTime q : Int) - r)) * 65536 + add) = some g → s.leaves q o = (s, frameBytes g tagged pcp vid)) ∧
    (let t := (s.learnMac vid mac p).eth.table
     ((s.eth.table.filter (fun e => !(e.1 == vid && e.2.1 == mac))).length < 2048 → (vid, mac, p, s.tu.upNs) ∈ t ∧ t.length ≤ 2048) ∧
     (∀ e ∈ s.eth.table, (e.1 ≠ vid ∨ e.2.1 ≠ mac) → e ∈ t)) ∧
    (s.portUp q = true →
      (65536 < heldBytes (s.ethQueue q pcp) + o.bytes.length ∨ 262144 < s.ethHeld + o.bytes.length → s.enqueue q pcp o = s.inc (EN_DROP_COUNT q)) ∧
      (heldBytes (s.ethQueue q pcp) + o.bytes.length ≤ 65536 → s.ethHeld + o.bytes.length ≤ 262144 →
        s.enqueue q pcp o = ({ s with eth := { s.eth with
          queues := tabSet (fun _ => []) s.eth.queues (4 * q + pcp) (s.ethQueue q pcp ++ [o]) } } : State).ethKick q)) ∧
    Gives (.addressAgeing vid mac) s (fun t => t = { s with eth := { s.eth with table := t.eth.table } } ∧
      (∀ e, e ∈ t.eth.table ↔ e ∈ s.eth.table ∧ ¬ (e.1 = vid ∧ e.2.1 = mac ∧ e.2.2.2 + 300000000000 ≤ s.tu.upNs))) ∧
    Gives (.ethLinkChange port .down) s (fun t => t.on (EN_PORT_LINK p) = false ∧ t.g (EN_PORT_SPEED p) = 0 ∧ OnlyRegs s t (regIn [EN_PORT_LINK p])) ∧
    Gives (.ethLinkChange port .m100) s (fun t => t.on (EN_PORT_LINK p) = true ∧ t.g (EN_PORT_SPEED p) = 1 ∧ t.g (EN_PORT_EN p) = s.g (EN_PORT_EN p) ∧
      RegsKeep s t (regIn [EN_PORT_LINK p, EN_TCUNCORR_COUNT]) ∧ t = { s with regs := t.regs, eth := t.eth, tx := t.tx }) ∧
    (p < 4 → Gives (.ethLinkChange port .g1) s (fun t => t.on (EN_PORT_LINK p) = true ∧ t.g (EN_PORT_SPEED p) = 2)) ∧
    ((∀ j : Fin 4, s.portUp j.val = false) → exec (.datagramReceive b rx) s = .next s) ∧
    (s.on EN_CTRL_PDEN = false → exec (.datagramReceive b rx) s = .next s) ∧
    (s.on EN_CTRL_PDEN = true → (∃ j : Fin 4, s.portUp j.val = true) → ∃ j : Fin 4, s.portUp j.val = true ∧
      let u : State := { s with free := s.free + 1 }
      ((∀ i : Fin 128, s.on (EN_SUBCFG_VALID i.val) = true → s.g (EN_SUBID_PUBID i.val) ≠ beAt b 4 4) →
        exec (.datagramReceive b rx) s = .next (u.inc EN_PDERR_COUNT)) ∧
      ((∀ i : Fin 128, s.on (EN_SUBCFG_VALID i.val) = true ∧ s.g (EN_SUBID_PUBID i.val) = beAt b 4 4 ↔ i = k) →
        exec (.datagramReceive b rx) s = .next (u.takeDatagram k.val b (s.rxStamp j.val rx)))) ∧
    (let good : Prop := beAt b 0 2 = 0x5A50 ∧ byteAt b 2 = 1 ∧ byteAt b 3 < 4 ∧ beAt b 22 2 = 0 ∧ beAt b 20 2 = s.g (EN_SUBCFG_LEN k.val) ∧
       b.length = 24 + beAt b 20 2
     let later : Prop := ∀ q, (s.sub k.val).seq = some q → 1 ≤ (beAt b 8 4 + 2 ^ 32 - q) % 2 ^ 32 ∧ (beAt b 8 4 + 2 ^ 32 - q) % 2 ^ 32 < 2 ^ 31
     (¬ good → s.takeDatagram k.val b rx = s.inc EN_PDERR_COUNT) ∧
     (good → ¬ later → s.takeDatagram k.val b rx = s.inc EN_PDDUP_COUNT) ∧
     (good → later →
       let t := s.takeDatagram k.val b rx
       t.sub k.val = { seq := some (beAt b 8 4), stamp := extend s.now rx, commit := beAt b 16 4 * 2 ^ 32 + beAt b 12 4, data := b.drop 24 } ∧
       t.g (EN_SUBTS_NS k.val) = rx % 2 ^ 32 ∧ t.g (EN_SUBCNT_COUNT k.val) = (s.g (EN_SUBCNT_COUNT k.val) + 1) % 2 ^ (EN_SUBCNT_COUNT k.val).w ∧
       RegsKeep s t (regIn [EN_SUBTS_NS k.val, EN_SUBCNT_COUNT k.val])))

/-- The PTP engine (R267 to R269): a one-step `Sync` from the slave port's master is completed, a two-step one waits for its `Follow_Up`; a
master port answers `Delay_Req`; a `Delay_Resp` of the module's own gives the mean path delay; an `Announce` better than the port's
master replaces it and the slave port is chosen again; masters send `Sync` and `Announce` with rising sequence numbers, nothing in
Safe-Halt; the loss of the reference clears `PRESENT`.

Completion is stated of `PTP_MESSAGE_RECEIVE`, `PTP_TRANSMIT` and `PTP_REFERENCE_LOST`. -/
def Obligations.PtpEngineMessages : Prop :=
  ∀ (s : State) (port : Fin 4) (m : PtpMsg) (stamp : Nat) (k : PtpKind),
    let p := port.val
    let b := m.body
    let ty := byteAt b 0 % 16
    let t := extend s.now (s.rxStamp p m.stamp)
    let corr := sint64 (beAt b 8 8)
    let x := s.ptp p
    let run : Prop := s.portUp p = true ∧ m.transport = s.g EN_PTPCFG_TRANSPORT ∧ byteAt b 4 = s.g EN_PTPCFG_DOMAIN ∧ bit (s.g EN_PTPCFG_PORTS) p = true ∧ s.g EN_PTPCFG_CLOCK ≠ 0
    let slave : Prop := s.g EN_PTPSTAT_SLAVE = p + 1
    (s.portUp p = false ∨ m.transport ≠ s.g EN_PTPCFG_TRANSPORT ∨ byteAt b 4 ≠ s.g EN_PTPCFG_DOMAIN → exec (.ptpMessageReceive port m) s = .next s) ∧
    (run → slave → ty = 0 → bit (byteAt b 6) 1 = false → exec (.ptpMessageReceive port m) s = .next (s.ptpSync p (ptpTime b 34) t corr)) ∧
    (run → slave → ty = 0 → bit (byteAt b 6) 1 = true →
      exec (.ptpMessageReceive port m) s = .next (s.modPtp p (fun x => { x with twoStep := some (beAt b 30 2, t, corr) }))) ∧
    (run → slave → ty = 8 → ∀ t2 c, x.twoStep = some (beAt b 30 2, t2, c) →
      exec (.ptpMessageReceive port m) s = .next (s.ptpSync p (ptpTime b 34) t2 (c + corr))) ∧
    (run → ty = 1 → s.ptpMaster p = true → s.peerDelay = false →
      exec (.ptpMessageReceive port m) s = .next (s.ptpSend p (s.ptpMsg p 9 (beAt b 30 2) corr 0 (ptpTimeBytes t ++ (b.drop 20).take 10)) .none 0)) ∧
    (run → ty = 2 → s.peerDelay = true → exec (.ptpMessageReceive port m) s =
      .next (s.ptpSend p (s.ptpMsg p 3 (beAt b 30 2) corr 0x7F (beBytes 10 0 ++ (b.drop 20).take 10)) (.answer t) 0)) ∧
    (run → slave → ty = 9 → s.peerDelay = false → beAt b 44 8 = s.clockId → beAt b 52 2 = p + 1 →
      ∀ t3 t2 t1c, x.reqAt = some (beAt b 30 2, t3) → x.syncT = some (t2, t1c) →
        exec (.ptpMessageReceive port m) s = .next (s.setDelay p
          (((t2 : Int) * 65536 - t1c - sint32 (s.g (EN_ASYM_NS p)) * 4096 + (((ptpTime b 34 : Int) - t3) * 65536 - corr)) / 2))) ∧
    (∀ d : Int, ((s.setDelay p d).ptp p).delay = some (d / 4096) ∧ (s.setDelay p d).g (EN_MPD_NS p) = u32 (d / 4096) ∧
      RegsKeep s (s.setDelay p d) (regIn [EN_MPD_NS p])) ∧
    (run → ty = 0xB → beAt b 20 8 ≠ s.clockId → x.master = none →
      let o : PtpMaster := { rank := [byteAt b 47, byteAt b 48, byteAt b 49, beAt b 50 2, byteAt b 52, beAt b 53 8, beAt b 61 2, beAt b 20 10]
                             gm := beAt b 53 8, at_ := s.now }
      exec (.ptpMessageReceive port m) s = .next (s.modPtp p (fun x => { x with master := some o })).ptpChoose) ∧
    (s.portUp p = true → s.mode ≠ mSafeHalt →
      (s.ptpMaster p = true → ∃ body,
        exec (.ptpTransmit port .sync stamp) s = .next ((s.ptpSend p (s.ptpMsg p 0 x.seq 0 (s.g EN_PTPCFG_LOGSYNC)
          (ptpTimeBytes s.now)) .origin stamp).modPtp p (fun x' => { x' with seq := (x.seq + 1) % 65536 })) ∧
        exec (.ptpTransmit port .announce stamp) s = .next ((s.ptpSend p (s.ptpMsg p 0xB x.seq 0 1
          body) .none stamp).modPtp p (fun x' => { x' with seq := (x.seq + 1) % 65536 }))) ∧
      (s.ptpMaster p = false → exec (.ptpTransmit port .sync stamp) s = .next s ∧ exec (.ptpTransmit port .announce stamp) s = .next s) ∧
      (slave → s.peerDelay = false →
        exec (.ptpTransmit port .delayReq stamp) s = .next ((s.modPtp p (fun x' => { x' with seq := (x.seq + 1) % 65536, reqAt := none })).ptpSend p
          (s.ptpMsg p 1 x.seq (-(sint32 (s.g (EN_ASYM_NS p)) * 4096)) 0x7F (beBytes 10 0)) (.request x.seq) stamp)) ∧
      (s.g EN_PTPCFG_TCMODE = 2 →
        exec (.ptpTransmit port .pdelayReq stamp) s = .next ((s.modPtp p (fun x' => { x' with seq := (x.seq + 1) % 65536, reqAt := none, respT2 := none })).ptpSend p
          (s.ptpMsg p 2 x.seq 0 0x7F (beBytes 20 0)) (.request x.seq) stamp))) ∧
    (∀ (q : Nat) (o : OutFrame) n, o.fix = .request n → ((s.leaves q o).1.ptp q).reqAt = some (n, s.txTime q)) ∧
    (s.mode = mSafeHalt ∨ s.portUp p = false → exec (.ptpTransmit port k stamp) s = .next s) ∧
    (s.g EN_PTPSTAT_SLAVE = 0 → exec .ptpReferenceLost s = .next s.ptpLost) ∧
    (slave → Gives .ptpReferenceLost s (fun u => u.g EN_PTPSTAT_SLAVE = 0 ∧ u.on EN_PTPSTAT_PRESENT = false ∧ (u.ptp p).master = none ∧
      (u.ptp p).syncs = [] ∧ (u.ptp p).twoStep = none)) ∧
    (s.on EN_PTPSTAT_PRESENT = false → s.ptpLost = s)

/-- Safe torque off and safe stop 1 (R299 to R302, R304, R306 to R309): an entry into Torque-off takes both channels away, with its cause, the interlock
and the count; an Off drive stays Off. A permit acts after the interlock was released and no condition persists; its fall stops the
drive by its function. A readback fault and a disagreement of more than 1 ms are class 3, channel B's watchdog class 4; a Stopping drive
ends on its encoder fault, envelope, standstill or time limit, in that order.

A test pulse falls in the tick at which it is due; a report of channel A comes only over a field link that is up.
Completion is stated of `STO_TEST_PULSE`, `STO_READBACK_FAULT`, `CHANNEL_A_REPORT`, `CHANNEL_B_WATCHDOG_EXPIRY`, `DRIVE_EVALUATION`, `ENCODER_FAULT` and
`ENCODER_FAULT_CLEAR`. -/
def Obligations.DrivesLoseTorque : Prop :=
  ∀ (s : State) (d : Drive) (ch : DrvCh) (a b : Bool) (count : Int) (cause v : Nat),
    let n := drvNo d
    let st := s.g (SF_DRVSTAT_STATE n)
    let f := regIn [SF_DRVSTAT_STATE n, SF_STOPS_COUNT n]
    (cause < 16 → st ≠ 0 →
      let t := s.torqueOff n cause
      t.g (SF_DRVSTAT_STATE n) = 1 ∧ t.on (SF_DRVSTAT_CHA n) = false ∧ t.on (SF_DRVSTAT_CHB n) = false ∧ t.g (SF_DRVSTAT_CAUSE n) = cause ∧
      t.on (SF_DRVSTAT_INTERLOCK n) = true ∧ t.g (SF_STOPS_COUNT n) = (s.g (SF_STOPS_COUNT n) + 1) % 2 ^ (SF_STOPS_COUNT n).w ∧
      t.drv n = (if 2 ≤ st then { s.drv n with encFrom := s.tu.upNs } else s.drv n) ∧ OnlyRecords { s with sf := { s.sf with drv := t.sf.drv } } t f) ∧
    (st = 0 → s.torqueOff n cause = s) ∧
    (st = 1 → s.torqueBarred = true → s.permit n v = s) ∧
    (st = 1 → s.torqueBarred = false →
      (v ≠ 1 → (s.permit n v).on (SF_DRVSTAT_INTERLOCK n) = false ∧ OnlyRegs s (s.permit n v) (regIn [SF_DRVSTAT_STATE n])) ∧
      (v = 1 → s.on (SF_DRVSTAT_INTERLOCK n) = true → s.permit n v = s) ∧
      (v = 1 → s.on (SF_DRVSTAT_INTERLOCK n) = false → (s.permit n v).g (SF_DRVSTAT_STATE n) = 2 ∧ (s.permit n v).on (SF_DRVSTAT_CHA n) = true ∧
        (s.permit n v).on (SF_DRVSTAT_CHB n) = true)) ∧
    (st = 2 → v ≠ 1 →
      (s.on (SF_DRVCFG_FUNC n) = false → s.permit n v = s.torqueOff n 1) ∧
      (s.on (SF_DRVCFG_FUNC n) = true → (s.permit n v).g (SF_DRVSTAT_STATE n) = 3 ∧ ((s.permit n v).drv n).t0 = s.now ∧
        (s.permit n v).on (SF_DRVSTAT_CHA n) = s.on (SF_DRVSTAT_CHA n) ∧ (s.permit n v).on (SF_DRVSTAT_CHB n) = s.on (SF_DRVSTAT_CHB n))) ∧
    (let on := if ch = .a then s.on (SF_DRVSTAT_CHA n) else s.on (SF_DRVSTAT_CHB n)
     exec (.stoTestPulse d ch) s = .next (if on = true ∧ s.pulseDue n ch = true then s.emit (.stoPulse n (ch == .b) (s.g (SF_TEST_PULSE n))) else s)) ∧
    exec (.stoReadbackFault d ch) s = .next ((s.torqueOff n 9).report 0x17 3 9) ∧
    (let u := s.modDrv n (fun x => { x with rbA := b })
     let same := u.modDrv n (fun x => { x with differ := none })
     (s.linkDown lkField = true → exec (.channelAReport d a b) s = .next s) ∧
     (s.linkDown lkField = false → a = s.on (SF_DRVSTAT_CHB n) → exec (.channelAReport d a b) s = .next same) ∧
     (s.linkDown lkField = false → a ≠ s.on (SF_DRVSTAT_CHB n) →
       ((s.drv n).differ = none → exec (.channelAReport d a b) s = .next (u.modDrv n (fun x => { x with differ := some s.now }))) ∧
       (∀ t, (s.drv n).differ = some t → s.now ≤ t + 1000000 → exec (.channelAReport d a b) s = .next u) ∧
       (∀ t, (s.drv n).differ = some t → t + 1000000 < s.now →
         exec (.channelAReport d a b) s = .next ((same.torqueOff n 10).report 0x17 3 10)))) ∧
    exec .channelBWatchdogExpiry s = .next ((({ s with sf := { s.sf with wdExpired := true } } : State).drivesOff 7).report 0x29 4 1) ∧
    (let cs := (count :: (s.drv n).counts).take 11
     let u := (s.modDrv n (fun x => { x with counts := cs })).p (SF_SPEED_V n) (u32 (speedOf cs))
     let w := u.modDrv n (fun x => { x with
       v0 := some (x.v0.getD (speedOf cs).natAbs)
       still := if (speedOf cs).natAbs ≤ s.g (SF_SS1VSTILL_VSTILL n) then some (x.still.getD s.now) else none })
     (st ≠ 3 → exec (.driveEvaluation d count) s = .next u) ∧
     (st = 3 → ∀ c, w.ss1Cond n (speedOf cs).natAbs = some c → exec (.driveEvaluation d count) s = .next (w.torqueOff n c)) ∧
     (st = 3 → w.ss1Cond n (speedOf cs).natAbs = none → exec (.driveEvaluation d count) s = .next w)) ∧
    (let x := s.drv n
     let dt := s.now - x.t0
     let flt := s.on (SF_DRVSTAT_ENCFLT n)
     let out := s.overEnvelope n v (x.v0.getD v) dt
     let still : Prop := ∃ t, x.still = some t ∧ t + s.g (SF_SS1TIM_STILLT n) * 1000000 ≤ s.now
     (s.ss1Cond n v = some 5 ↔ flt = true) ∧ (s.ss1Cond n v = some 4 ↔ flt = false ∧ out = true) ∧
     (s.ss1Cond n v = some 2 ↔ flt = false ∧ out = false ∧ still) ∧
     (s.ss1Cond n v = some 3 ↔ flt = false ∧ out = false ∧ ¬ still ∧ s.g (SF_SS1TIM_TMAX n) * 1000000 ≤ dt)) ∧
    Gives (.encoderFault d) s (fun t => t.on (SF_DRVSTAT_ENCFLT n) = true ∧ t.g (SF_DRVSTAT_STATE n) = st ∧
      t.drv n = { s.drv n with encFrom := s.tu.upNs } ∧ OnlyRecords { s with sf := { s.sf with drv := t.sf.drv } } t (regIn [SF_DRVSTAT_STATE n])) ∧
    (st ≤ 1 → (s.drv n).encFrom + 100000000 ≤ s.tu.upNs → Gives (.encoderFaultClear d) s (fun t =>
      t.on (SF_DRVSTAT_ENCFLT n) = false ∧ t.g (SF_DRVSTAT_STATE n) = st ∧ OnlyRegs s t (regIn [SF_DRVSTAT_STATE n]))) ∧
    (1 < st ∨ s.tu.upNs < (s.drv n).encFrom + 100000000 → exec (.encoderFaultClear d) s = .next s)

/-- Safety input pairs (R310, R311): the state machine of a pair on its two filtered channels, each row of its table (from Closing and from Opening only where
both channels read alike), and a pair that is not enabled at rest. That a channel without a stamp takes the evaluation's time is the model's choice, log entry 41.

The seal (R313 to R316): three equal complementary readings of both readers make a value valid, 100 ms without one is state 3; tampering is
state 2 and is latched by two open checks in a row; only the accepted value with the accepted parameter set is sealed. Leaving Sealed
takes torque away and is class 3 while the module operates.

Completion is stated of `SAFETY_PAIR_EVALUATION`, `SEAL_READ` and `TAMPER_CHECK`. -/
def Obligations.SafetyPairsAndSeal : Prop :=
  (∀ (s : State) (j : Fin 8) (a b : Bool) (ta tb : Nat),
     let k := j.val
     let st := s.g (SF_PAIRSTAT_STATE k)
     let x := s.pairSt k
     let dt := s.g (SF_PAIRCFG_DT k) * 1000000
     let oth := if x.second then ta else tb
     let t := s.evalPair k a b ta tb
     (∀ m stamp, m < 8 → let u := s.setPair k m stamp
       u.g (SF_PAIRSTAT_STATE k) = m ∧ (u.on (SF_PAIRSTAT_VALUE k) = true ↔ m = 2) ∧
       ((u.on (SF_PAIRSTAT_VALUE k) ≠ s.on (SF_PAIRSTAT_VALUE k)) → u.g (SF_PAIRTS_NS k) = stamp % 2 ^ 32) ∧
       RegsKeep s u (regIn [SF_PAIRSTAT_STATE k, SF_PAIRTS_NS k])) ∧
     (st = 0 →
       (a = true → b = true → t = s.setPair k 2 (max ta tb)) ∧ (a = false → b = false → t = s) ∧
       (a = true → b = false → t = (s.setPair k 1 ta).pairTimer k ta false) ∧ (a = false → b = true → t = (s.setPair k 1 tb).pairTimer k tb true)) ∧
     (st = 1 →
       (a = true → b = true → oth ≤ x.first + dt → t = s.setPair k 2 oth) ∧
       (a = false → b = false → t = s.setPair k 0 s.now) ∧
       (a = true ∨ b = true → (a = false ∨ b = false ∨ x.first + dt < oth) → s.now < x.first + dt → t = s) ∧
       (a = true ∨ b = true → (a = false ∨ b = false ∨ x.first + dt < oth) → x.first + dt ≤ s.now → t = s.discrepancy k 1)) ∧
     (st = 2 →
       (a = true → b = true → t = s) ∧ (a = false → b = false → t = s.setPair k 0 (min ta tb)) ∧
       (a = false → b = true → t = (s.setPair k 3 ta).pairTimer k ta false) ∧ (a = true → b = false → t = (s.setPair k 3 tb).pairTimer k tb true)) ∧
     (st = 3 →
       (a = false → b = false → oth ≤ x.first + dt → t = s.setPair k 0 s.now) ∧
       ((a = true ∨ b = true ∨ x.first + dt < oth) → s.now < x.first + dt → t = s) ∧
       ((a = true ∨ b = true ∨ x.first + dt < oth) → x.first + dt ≤ s.now → t = s.discrepancy k 2)) ∧
     (st = 4 → (a = false → b = false → t = s.setPair k 0 s.now) ∧ (a = true ∨ b = true → t = s)) ∧
     (let f1 := bit (s.g FD_DISTAT_FILT) (2 * k)
      let f2 := bit (s.g FD_DISTAT_FILT) (2 * k + 1)
      let u := (s.pb (SF_PAIRSTAT_CHA k) f1).pb (SF_PAIRSTAT_CHB k) f2
      (s.on SF_CTRL_EN = true → s.on (SF_PAIRCFG_EN k) = true → exec (.safetyPairEvaluation j) s =
        .next (u.evalPair k f1 (f2 != s.on (SF_PAIRCFG_ANTI k)) (u.chStamp (2 * k + 1)) (u.chStamp (2 * k + 2)))) ∧
      ((s.di (2 * k + 1)).edges ≠ 0 → u.chStamp (2 * k + 1) = (s.di (2 * k + 1)).ts) ∧
      ((s.di (2 * k + 1)).edges = 0 → u.chStamp (2 * k + 1) = s.fieldNow) ∧
      (s.on SF_CTRL_EN = false ∨ s.on (SF_PAIRCFG_EN k) = false → exec (.safetyPairEvaluation j) s = .next (u.setPair k 0 s.now)))) ∧
  (∀ (s : State) (rd : SealReading) (opened : Bool),
     (s.sealState = 3 ↔ s.sf.validAt + 100000000 ≤ s.tu.upNs) ∧
     (s.sealState = 2 ↔ ¬ s.sf.validAt + 100000000 ≤ s.tu.upNs ∧ s.sf.tamper = true) ∧
     (s.sealState = 0 ↔ ¬ s.sf.validAt + 100000000 ≤ s.tu.upNs ∧ s.sf.tamper = false ∧ s.sf.valid.isSome = true ∧ s.sf.accepted = s.sf.valid ∧
       s.keys.safe.isSome = true ∧ s.sf.accHash = s.keys.safeHash) ∧
     (s.evalSeal.g SF_SEAL_STATE = s.sealState ∨ s.g SF_SEAL_STATE = 0) ∧
     (s.g SF_SEAL_STATE = 0 → s.sealState ≠ 0 → s.mode ∈ [mActive, mHotStandby, mIsolated, mMaintenance] →
       ∃ a : State, s.evalSeal = (a.drivesOff 11).report 0x17 3 11 ∧ a.g SF_SEAL_STATE = s.sealState ∧ RegsKeep s a (regIn [SF_SEAL_STATE])) ∧
     (s.g SF_SEAL_STATE = 0 → s.sealState ≠ 0 → s.mode ∉ [mActive, mHotStandby, mIsolated, mMaintenance] →
       ∃ a : State, s.evalSeal = a.drivesOff 11 ∧ a.g SF_SEAL_STATE = s.sealState ∧ RegsKeep s a (regIn [SF_SEAL_STATE])) ∧
     (∃ a : State, exec (.sealRead rd) s = .next a.evalSeal ∧
       a.g SF_SEAL_RDK = rd.keeper.toNat % 2 ^ SF_SEAL_RDK.w ∧ a.g SF_SEAL_RDF = rd.field.toNat % 2 ^ SF_SEAL_RDF.w ∧
       a.on SF_SEAL_LOOP = rd.loopClosed ∧ a.on SF_SEAL_CMPL = rd.complementary ∧ RegsKeep s a (regIn [SF_SEAL_STATE]) ∧
       (let ok : Prop := rd.complementary = true ∧ rd.keeper = rd.field
        (¬ ok → a.sf.same = 0 ∧ a.sf.lastRead = none ∧ a.sf.valid = s.sf.valid ∧ a.sf.validAt = s.sf.validAt) ∧
        (ok → s.sf.lastRead = some rd.keeper → a.sf.same = s.sf.same + 1) ∧ (ok → s.sf.lastRead ≠ some rd.keeper → a.sf.same = 1) ∧
        (ok → s.sf.lastRead = some rd.keeper → 2 ≤ s.sf.same → a.sf.valid = some rd.keeper ∧ a.sf.validAt = s.tu.upNs) ∧
        (ok → (s.sf.lastRead ≠ some rd.keeper ∨ s.sf.same < 2) → a.sf.valid = s.sf.valid ∧ a.sf.validAt = s.sf.validAt))) ∧
     (∃ a : State, a.sf.openChecks = (if opened then s.sf.openChecks + 1 else 0) ∧
       (a.sf.tamper = true ↔ s.sf.tamper = true ∨ (opened = true ∧ 1 ≤ s.sf.openChecks)) ∧
       (s.sf.tamper = false → opened = true → 1 ≤ s.sf.openChecks → a.g SF_TAMPERT_SEC = s.sb.rtc % 2 ^ SF_TAMPERT_SEC.w ∧ a.on SF_SEAL_TAMPER = true) ∧
       (s.mode = mDormant → exec (.tamperCheck opened) s = .next a) ∧
       (s.mode ≠ mDormant → exec (.tamperCheck opened) s = .next (a.pb SF_SEAL_LOOP (!opened)).evalSeal)))

/-- Digital inputs and the field supply (R320 to R325, R335): each sample moves every filter counter by one towards its level, between 0 and
`TOP`; at `TOP` the filtered state becomes high, at 0 low, with stamp and count; a raw edge is stamped. `FLD+` below 19.2 V takes Normal to Sag, its return to Normal
needs 100 ms (from Waiting) or 10 ms (from Sag) of samples at 19.2 V or more; the latch, at 401 samples below 16.8 V, takes torque away and
from Sag latches the bank off.

An input that a commanded test holds delivers nothing (R527).
Completion is stated of `FILTER_SAMPLE`, `RAW_EDGE`, `SUPPLY_NORMAL` and `SUPPLY_LATCH`. -/
def Obligations.DigitalInputsAndSupply : Prop :=
  ∀ (s : State) (raw : BitVec 16) (fld stamp : Nat) (i : Fin 16) (level : Bool),
    let n := i.val + 1
    let x := s.di n
    let top := s.g (FD_DICFG_TOP n)
    let high := raw.getLsbD i.val
    let c := if high then min top (x.cnt + 1) else x.cnt - 1
    let old := bit (s.g FD_DISTAT_FILT) i.val
    (1 ≤ top → s.heldPort (0x70 + i.val) = false → Gives (.filterSample raw fld) s (fun t =>
      (t.di n).cnt = c ∧ (t.di n).raw = high ∧ bit (t.g FD_DISTAT_RAW) i.val = high ∧
      bit (t.g FD_DISTAT_FILT) i.val = (if c = top then true else if c = 0 then false else old) ∧
      (bit (t.g FD_DISTAT_FILT) i.val = old → (t.di n).edges = x.edges ∧ t.g (FD_DITS_NS n) = s.g (FD_DITS_NS n)) ∧
      (bit (t.g FD_DISTAT_FILT) i.val ≠ old → (t.di n).edges = x.edges + 1 ∧ t.on (FD_DICNT_LEVEL n) = !old ∧
        t.g (FD_DICNT_COUNT n) = (s.g (FD_DICNT_COUNT n) + 1) % 2 ^ 16) ∧
      t.g FD_FLD_V = min fld 4095 ∧
      t.g FD_STAT_SUPPLY = (if s.g FD_STAT_SUPPLY = 1 ∧ fld < 1920 then 2 else s.g FD_STAT_SUPPLY) ∧
      t.fd.good = (if 1920 ≤ fld then s.fd.good + 1 else 0) ∧ t.fd.low = (if fld < 1680 then s.fd.low + 1 else 0) ∧
      (fld ≥ 1680 → t.fd.supplyLow = false))) ∧
    (s.heldPort (0x70 + i.val) = true → Gives (.filterSample raw fld) s (fun t => t.di n = x ∧ bit (t.g FD_DISTAT_FILT) i.val = old) ∧
      exec (.rawEdge i level stamp) s = .next s) ∧
    (s.heldPort (0x70 + i.val) = false → Gives (.rawEdge i level stamp) s (fun t => t = { s with fd := { s.fd with di := t.fd.di } } ∧
      t.di n = (if level then { x with rise := some (extend s.now stamp) } else { x with fall := some (extend s.now stamp) }) ∧
      ∀ j : Fin 16, j ≠ i → t.di (j.val + 1) = s.di (j.val + 1))) ∧
    (let good : Prop := s.g FD_STAT_SUPPLY = 0 ∧ 4001 ≤ s.fd.good ∨ s.g FD_STAT_SUPPLY = 2 ∧ 401 ≤ s.fd.good
     (good → ∃ a : State, exec .supplyNormal s = .next a.driveOutputs ∧ a.g FD_STAT_SUPPLY = 1 ∧ a.on FD_STAT_DIAGSUSP = false ∧
       OnlyRegs s a (regIn [FD_STAT_SUPPLY])) ∧
     (¬ good → exec .supplyNormal s = .next s)) ∧
    (s.fd.low < 401 → exec .supplyLatch s = .next s) ∧
    (401 ≤ s.fd.low → let a := if s.fd.supplyLow then s else s.drivesOff 8
     let b : State := { a with fd := { a.fd with supplyLow := true } }
     (s.g FD_STAT_SUPPLY ≠ 2 → exec .supplyLatch s = .next b) ∧
     (s.g FD_STAT_SUPPLY = 2 → ∃ u : State, u.g FD_STAT_SUPPLY = 3 ∧ u.on FD_STAT_DIAGSUSP = false ∧ OnlyRegs b u (regIn [FD_STAT_SUPPLY]) ∧
       exec .supplyLatch s = .next (u.notice 0x1C 9 0 (u.word FD_STAT_SUPPLY)).driveOutputs))

/-- A write of `TOP` (R324) moves the channel's counter to 0 if its filtered state is 0 and to the new `TOP` if it is 1; it causes no filtered
transition: the filtered state, the edge count, the stamp stay, and so does the filtered state at the next sample of an unchanged
level. A write of 0 is illegal (R14): it changes nothing but a notice.

Outside Boot, Commissioning and Maintenance the write changes nothing but an access violation's notice (R12).
Completion is stated of `DI_TOP_WRITE`. -/
def Obligations.WriteOfTopMovesTheCounter : Prop :=
  ∀ (s : State) (i : Fin 16) (v : Word),
    let n := i.val + 1
    let old := bit (s.g FD_DISTAT_FILT) i.val
    let may : Prop := s.mode ∈ [mBoot, mCommissioning, mMaintenance]
    (may → v.toNat % 256 = 0 → exec (.diTopWrite i v) s = .next (s.notice 0x22 2 0 (s.word (FD_DICFG_TOP n)))) ∧
    (¬ may → ∃ a : State, OnlyRegs s a (fun _ => False) ∧ exec (.diTopWrite i v) s = .next (a.notice 0x22 1 0 (s.word (FD_DICFG_TOP n)))) ∧
    (may → v.toNat % 256 ≠ 0 → Gives (.diTopWrite i v) s (fun t => t.g (FD_DICFG_TOP n) = v.toNat % 256 ∧
      (t.di n).cnt = (if old then v.toNat % 256 else 0) ∧ (t.di n).edges = (s.di n).edges ∧ t.g FD_DISTAT_FILT = s.g FD_DISTAT_FILT ∧
      t.g (FD_DITS_NS n) = s.g (FD_DITS_NS n) ∧ (∀ j : Fin 16, j ≠ i → t.di (j.val + 1) = s.di (j.val + 1)) ∧
      RegsKeep s t (regIn [FD_DICFG_TOP n]) ∧ t = { s with regs := t.regs, fd := { s.fd with di := t.fd.di } } ∧
      ∀ (raw : BitVec 16) (fld : Nat), raw.getLsbD i.val = old → Gives (.filterSample raw fld) t (fun u => bit (u.g FD_DISTAT_FILT) i.val = old)))

/-- What drives an output (R331, R333) in order: supply, a loopback test that holds it (R532), gating, SS1 request, silence, trigger, committed
value; a channel that is shut down or latched is off. Shutdowns and retries (R328), overload, open load, short to supply, the `FPP` and its edge check (R329, R330), each with
its flag and notice once; a silent field die holds its safe states.

A retry comes 100 ms after its shutdown, the count goes after 1 s of running, silence begins where no message has come for the timeout (R332).
Completion is stated of `THERMAL_SHUTDOWN`, `THERMAL_RETRY`, `RETRY_COUNT_RESET`, `HSO_OVERLOAD`, `HSO_OPEN_LOAD`, `HSO_SHORT_TO_SUPPLY`, `FPP_OVERLOAD`,
`FPP_EDGE_CHECK` and `SILENCE_EXPIRY`. -/
def Obligations.OutputsAreDrivenAndProtected : Prop :=
  ∀ (s : State) (h : Fin 12) (f : Fin 4) (c : OutCh) (present level : Bool),
    let k := h.val + 1
    let m := 0x11 + f.val
    let o := outChCode c
    (∀ j ∈ outCodes,
      ((s.out j).shut = true ∨ s.on (latchFld j) = true → s.outLevel j = none) ∧
      ((s.out j).shut = false → s.on (latchFld j) = false → s.outLevel j = s.outRow j) ∧
      (s.g FD_STAT_SUPPLY = 0 ∨ s.g FD_STAT_SUPPLY = 3 → s.outRow j = none) ∧
      (s.g FD_STAT_SUPPLY ≠ 0 → s.g FD_STAT_SUPPLY ≠ 3 → ∀ y, s.dbg.loop = some y →
        (y.port = 0x7F + j → y.depth = 2 → j ≤ 12 → s.outRow j = none) ∧ (y.port = 0x7F + j → y.depth = 3 → y.result = 2 → s.outRow j = none) ∧
        (y.port = 0x7F + j → y.depth = 3 → y.result ≠ 2 → ∃ b : Bool, s.outRow j = some b)) ∧
      (s.testDrive j = none → s.gated = true → s.outRow j = none) ∧ (s.dbg.loop = none → s.testDrive j = none) ∧
      (s.g FD_STAT_SUPPLY ≠ 0 → s.g FD_STAT_SUPPLY ≠ 3 → s.testDrive j = none → s.gated = false →
        (∀ v, s.reqLevel j = some v → s.outRow j = some v) ∧
        (s.reqLevel j = none →
          (s.on FD_STAT_SILENT = true → s.fd.configured = true → s.g (safeFld j) = 0 → s.outRow j = some false) ∧
          (s.on FD_STAT_SILENT = true → s.fd.configured = true → s.g (safeFld j) = 1 → s.outRow j = some true) ∧
          (s.on FD_STAT_SILENT = true → s.fd.configured = true → 2 ≤ s.g (safeFld j) → s.outRow j = some (s.out j).hold) ∧
          (s.on FD_STAT_SILENT = true → s.fd.configured = false → s.outRow j = some false) ∧
          (s.on FD_STAT_SILENT = false → j ≤ 12 → s.outRow j = some (s.on (cmdFld j))) ∧
          (s.on FD_STAT_SILENT = false → 12 < j → s.outRow j = some (if s.on (FD_FPPSTAT_TRIG (j - 0x10)) then (s.out j).trig else s.on (cmdFld j))))) ∧
      s.driveOutputs.on (rbFld j) = (s.outLevel j == some true) ∧
      (s.g (retryFld j) < 10 → (s.shutdown j).out j = { s.out j with shut := true, since := s.tu.upNs } ∧ (s.shutdown j).on (rbFld j) = false ∧ (s.shutdown j).tx = s.tx) ∧
      (10 ≤ s.g (retryFld j) → (s.shutdown j).on (latchFld j) = true ∧ (s.shutdown j).on (rbFld j) = false)) ∧
    (s.driven k = true →
      (s.on FD_STAT_DIAGSUSP = true ∨ s.on (FD_HSOSTAT_OTEMP k) = true → exec (.thermalShutdown h) s = .next (s.shutdown k)) ∧
      (s.on FD_STAT_DIAGSUSP = false → s.on (FD_HSOSTAT_OTEMP k) = false →
        let a := s.p (FD_HSOSTAT_OTEMP k) 1
        exec (.thermalShutdown h) s = .next ((a.notice 0x1C 2 k (a.word (FD_HSOSTAT_OTEMP k))).shutdown k)) ∧
      (s.on FD_STAT_DIAGSUSP = false → s.on (FD_HSOSTAT_OVL k) = false →
        let a := s.p (FD_HSOSTAT_OVL k) 1
        exec (.hsoOverload h) s = .next (a.notice 0x1C 1 k (a.word (FD_HSOSTAT_OVL k)))) ∧
      (s.on FD_STAT_DIAGSUSP = true ∨ s.on (FD_HSOSTAT_OVL k) = true → exec (.hsoOverload h) s = .next s)) ∧
    (s.driven k = false → exec (.thermalShutdown h) s = .next s ∧ exec (.hsoOverload h) s = .next s) ∧
    ((s.out o).shut = true → (s.out o).since + 100000000 ≤ s.tu.upNs →
      let u := s.modOut o (fun x => { x with shut := false, since := s.tu.upNs })
      Gives (.thermalRetry c) s (fun t => OnlyRegs u t (regIn [rbFld o]) ∧ t.on (rbFld o) = (u.outLevel o == some true) ∧
        (u.driven o = true → t.g (retryFld o) = (s.g (retryFld o) + 1) % 16) ∧ (u.driven o = false → t.g (retryFld o) = 0))) ∧
    ((s.out o).shut = false ∨ s.tu.upNs < (s.out o).since + 100000000 → exec (.thermalRetry c) s = .next s) ∧
    (s.driven o = false ∨ s.tu.upNs < (s.out o).since + 1000000000 → exec (.retryCountReset c) s = .next s) ∧
    (s.driven o = true → (s.out o).since + 1000000000 ≤ s.tu.upNs → Gives (.retryCountReset c) s (fun t => t.g (retryFld o) = 0 ∧ OnlyRegs s t (regIn [retryFld o]))) ∧
    (s.on FD_STAT_DIAGSUSP = true → exec (.hsoOpenLoad h present) s = .next s ∧ exec (.hsoShortToSupply h present) s = .next s) ∧
    (s.on FD_STAT_DIAGSUSP = false →
      Gives (.hsoOpenLoad h false) s (fun t => t.on (FD_HSOSTAT_OPEN k) = false ∧ OnlyRegs s t (regIn [FD_HSOSTAT_OPEN k])) ∧
      Gives (.hsoShortToSupply h false) s (fun t => t.on (FD_HSOSTAT_SHORTP k) = false ∧ OnlyRegs s t (regIn [FD_HSOSTAT_SHORTP k])) ∧
      (s.on (FD_HSOSTAT_OPEN k) = false → (s.driven k = true ∨ s.on (FD_HSOCFG_OWOFF k) = true) →
        let a := s.p (FD_HSOSTAT_OPEN k) 1
        exec (.hsoOpenLoad h true) s = .next (a.notice 0x1C 3 k (a.word (FD_HSOSTAT_OPEN k)))) ∧
      (s.on (FD_HSOSTAT_SHORTP k) = false → s.driven k = false →
        let a := s.p (FD_HSOSTAT_SHORTP k) 1
        exec (.hsoShortToSupply h true) s = .next (a.notice 0x1C 4 k (a.word (FD_HSOSTAT_SHORTP k))))) ∧
    (s.driven m = true →
      (s.on (FD_FPPSTAT_OVL (f.val + 1)) = true → exec (.fppOverload f) s = .next (s.shutdown m)) ∧
      (s.on (FD_FPPSTAT_OVL (f.val + 1)) = false →
        let a := s.p (FD_FPPSTAT_OVL (f.val + 1)) 1
        exec (.fppOverload f) s = .next ((a.notice 0x1C 6 (f.val + 1) (a.word (FD_FPPSTAT_OVL (f.val + 1)))).shutdown m))) ∧
    (s.driven m = false → exec (.fppOverload f) s = .next s) ∧
    (s.outLevel m = none → exec (.fppEdgeCheck f level) s = .next s) ∧
    (s.outLevel m = some level → Gives (.fppEdgeCheck f level) s (fun t => t.on (FD_FPPSTAT_RB (f.val + 1)) = level ∧
      OnlyRegs s t (regIn [FD_FPPSTAT_RB (f.val + 1)]))) ∧
    (s.outLevel m = some (!level) →
      let a := (s.pb (FD_FPPSTAT_RB (f.val + 1)) level).p (FD_FPPSTAT_MISM (f.val + 1)) 1
      exec (.fppEdgeCheck f level) s = .next (a.notice 0x1C 7 (f.val + 1) (a.word (FD_FPPSTAT_MISM (f.val + 1))))) ∧
    (s.silenceNs = max (s.g FD_SILCFG_N * s.g FD_SILCFG_PERIOD) 500 * 1000) ∧
    (s.on FD_STAT_SILENT = true ∨ s.tu.upNs < s.fd.msgAt + s.silenceNs → exec .silenceExpiry s = .next s) ∧
    (s.on FD_STAT_SILENT = false → s.fd.msgAt + s.silenceNs ≤ s.tu.upNs → ∃ a : State, a.on FD_STAT_SILENT = true ∧ a.g FD_SILCNT_COUNT = (s.g FD_SILCNT_COUNT + 1) % 2 ^ 32 ∧
      a.parts = s.parts.filter (fun p => p.q != .field) ∧ (∀ j ∈ outCodes, (a.out j).hold = (s.outLevel j == some true)) ∧
      (∀ j ∈ [1, 2, 3, 4, 5, 6], (a.aio j).hold = s.loopUa j) ∧ a.fd.silEntries = s.fd.silEntries + 1 ∧ RegsKeep s a (regIn [FD_STAT_SILENT, FD_SILCNT_COUNT]) ∧
      exec .silenceExpiry s = .next ((a.notice 0x1C 8 0 (a.word FD_STAT_SILENT)).drivesOff 7).driveOutputs)

/-- Analogue channels and current loops (R341, R347 to R349, R351 to R353): a conversion shows its value, status and stamp, the mean of the last
2^`AVG` in continuous mode; a channel that is Off or settling keeps its last value, one without its shunt reads over range; the open-load,
compliance, alarm and fault flags follow measurements in a row; fold-back, jumpers, the shunt's disconnection and return, the end of
settling.

What an image shows of a conversion is recorded with the time from which it does (R354). A channel that a commanded test holds keeps its last value (R527).
Completion is stated of `ANALOGUE_CONVERSION`, `LOOP_DIAGNOSTIC_MEASUREMENT`, `FOLD_BACK`, `JUMPER_READ`, `SHUNT_OVERCURRENT`, `SHUNT_RECONNECT` and
`MODE_SETTLE_END`. -/
def Obligations.AnalogueChannels : Prop :=
  ∀ (s : State) (c : Fin 6) (value : Int) (stamp : Nat) (m : LoopMeas) (lo hi : BitVec 6),
    let n := c.val + 1
    let x := s.aio n
    let u := s.ovrClear n
    (s.g (AN_CFG_MODE n) = 0 ∨ x.settling = true ∨ s.heldPort (0x9F + n) = true → exec (.analogueConversion c value stamp) s = .next u) ∧
    (s.g (AN_CFG_MODE n) ≠ 0 → x.settling = false → s.heldPort (0x9F + n) = false →
      (x.shuntOff = true → exec (.analogueConversion c value stamp) s = .next ((u.p (AN_STAT_NSTAT n) 4).showAio n u.fieldNow)) ∧
      (x.shuntOff = false → Gives (.analogueConversion c value stamp) s (fun t =>
        let vs := if s.on (AN_CFG_CONV n) then [value] else (value :: x.convs).take (2 ^ s.g (AN_CFG_AVG n))
        let v := if s.on (AN_CFG_CONV n) then value else intMean vs
        (t.aio n).convs = vs ∧ t.g (AN_MEAS_VALUE n) = u32 v % 2 ^ 24 ∧ t.g (AN_TS_NS n) = extend s.now stamp % 2 ^ 32 ∧
        t.g (AN_STAT_NSTAT n) = convStatus (s.g (AN_CFG_MODE n)) v ∧
        (t.aio n).shows.head? = some { start := if s.on (AN_CFG_CONV n) then extend s.now stamp + 3000 else extend s.now stamp
                                       value := t.g (AN_MEAS_VALUE n), status := t.g (AN_STAT_NSTAT n)
                                       stamp := t.g (AN_TS_NS n) + 2 ^ 32 * t.g (AN_TSERA_ERA n) } ∧
        t = { s with regs := t.regs, an := t.an } ∧ (∀ j : Fin 6, j ≠ c → t.aio (j.val + 1) = s.aio (j.val + 1)) ∧
        RegsKeep s t (regIn [AN_MEAS_VALUE n, AN_TS_NS n, AN_TSERA_ERA n, AN_STAT_NSTAT n])))) ∧
    ((convStatus 2 value = 0 ↔ 38000 ≤ value ∧ value ≤ 205000) ∧ (convStatus 2 value = 4 ↔ 210000 < value) ∧ (convStatus 2 value = 3 ↔ value < 36000) ∧
      (convStatus 3 value = 0 ↔ 0 ≤ value ∧ value ≤ 100000) ∧ (convStatus 3 value = 6 ↔ value < -5000 ∨ 110000 < value)) ∧
    (s.g (AN_CFG_MODE n) ≠ 1 → exec (.loopDiagnosticMeasurement c m) s = .next s) ∧
    (s.g (AN_CFG_MODE n) = 1 → s.inSag = false → Gives (.loopDiagnosticMeasurement c m) s (fun t =>
      let k := u.loopConds n m
      (t.aio n).openN = (if k.1 then x.openN + 1 else 0) ∧ (t.aio n).complN = (if k.2.1 then x.complN + 1 else 0) ∧
      (t.aio n).delN = (if k.2.2 then x.delN + 1 else 0) ∧
      t.on (AN_STAT_OPEN n) = (if k.1 = true ∧ 100 ≤ x.openN then true else if k.1 = false ∧ 100 ≤ x.openOff then false else s.on (AN_STAT_OPEN n)) ∧
      t.on (AN_STAT_COMPL n) = (if k.2.1 = true ∧ 40 ≤ x.complN then true else if k.2.1 = false ∧ 100 ≤ x.complOff then false else s.on (AN_STAT_COMPL n)) ∧
      t.on (AN_STAT_ALNDEL n) = (if k.2.2 = true ∧ 1000 ≤ x.delN then true else if k.2.2 = false ∧ 1000 ≤ x.delOff then false else s.on (AN_STAT_ALNDEL n)) ∧
      t = { s with regs := t.regs, an := t.an, ev := t.ev, mb := t.mb, sess := t.sess, tx := t.tx } ∧
      ∀ a, ¬ recPage a → a ≠ (AN_STAT_OPEN n).reg → t.regs.rd a = s.regs.rd a)) ∧
    (s.g (AN_CFG_MODE n) = 1 → s.inSag = true → Gives (.loopDiagnosticMeasurement c m) s (fun t =>
      (t.aio n).openN = 0 ∧ (t.aio n).complN = 0 ∧ (t.aio n).delN = 0 ∧ t.on (AN_STAT_OPEN n) = s.on (AN_STAT_OPEN n) ∧
      t.on (AN_STAT_COMPL n) = s.on (AN_STAT_COMPL n) ∧ t.on (AN_STAT_ALNDEL n) = s.on (AN_STAT_ALNDEL n))) ∧
    Gives (.foldBack c true) s (fun t => t.on (AN_STAT_THERM n) = true ∧ (t.aio n).foldN = 0 ∧
      (∀ a, ¬ recPage a → a ≠ (AN_STAT_THERM n).reg → t.regs.rd a = s.regs.rd a)) ∧
    Gives (.foldBack c false) s (fun t => t.on (AN_STAT_THERM n) = false ∧ OnlyRegs s t (regIn [AN_STAT_THERM n])) ∧
    Gives (.jumperRead lo hi) s (fun t =>
      let l := lo.getLsbD c.val
      let h := hi.getLsbD c.val
      t.on (AN_STAT_JLO n) = l ∧ t.on (AN_STAT_JHI n) = h ∧ t.on (AN_STAT_JMPERR n) = (l && h) ∧
      t.on (AN_STAT_ALEFF n) = (if l then false else if h then true else s.on (AN_CFG_ALHIGH n)) ∧
      OnlyRecords s t (regIn ((List.range 6).map (fun i => AN_STAT_JLO (i + 1))))) ∧
    (s.g (AN_CFG_MODE n) = 2 → x.shuntOff = false → Gives (.shuntOvercurrent c) s (fun t =>
      (t.aio n).shuntOff = true ∧ (t.aio n).shuntAt = s.tu.upNs ∧ t.on (AN_STAT_OVR n) = true ∧ t.g (AN_STAT_NSTAT n) = 4 ∧
      (∀ a, ¬ recPage a → a ≠ (AN_STAT_OVR n).reg → t.regs.rd a = s.regs.rd a))) ∧
    (s.g (AN_CFG_MODE n) ≠ 2 ∨ x.shuntOff = true → exec (.shuntOvercurrent c) s = .next s) ∧
    Gives (.shuntReconnect c) s (fun t => t.aio n = (if x.shuntAt + 100000000 ≤ s.tu.upNs then { x with shuntOff := false } else x) ∧ t = { s with an := t.an } ∧
      ∀ j : Fin 6, j ≠ c → t.aio (j.val + 1) = s.aio (j.val + 1)) ∧
    Gives (.modeSettleEnd c) s (fun t => t.aio n = (if x.settleAt + 5000000 ≤ s.tu.upNs then { x with settling := false } else x) ∧ t = { s with an := t.an } ∧
      ∀ j : Fin 6, j ≠ c → t.aio (j.val + 1) = s.aio (j.val + 1))

/-- The rack bridge (R358 to R363, R365 to R369, R379): enumeration once, in Boot; a posted write of a
gated module is dropped and counted; a voted read takes the lowest free tag; a completion ends its reads and frees the tag, one that nobody
waits for is counted, a time-out answers with code 8 and quarantines the tag until its timer; an error message is matched to the history.

A voted access to the exchange window waits for port B to perform it; a speculating task's store is deferred and its load stalls (R132); one
made while the bridge is off is a bus error of the core that made it.
Completion is stated of `ENUMERATION`, `RACK_ACCESS`, `READ_COMPLETION`, `READ_TIMEOUT`, `DISCARD_TIMER_EXPIRY`, `PREFETCH_EXPIRY` and `ERROR_MESSAGE`. -/
def Obligations.RackBridgeTransactions : Prop :=
  ∀ (s : State) (cards : List CardHeader) (l : Lane) (t : Task) (acc : RackReq) (tag : Fin 32) (code : Nat) (data : List Word) (slot : Fin 16)
    (ec : Fin 8) (a n : Nat) (b : Fin 8),
    let k := tag.val
    let x := s.tag k
    (s.mode ≠ mBoot ∨ s.on RB_STAT_ENUMDONE = true → exec (.enumeration cards) s = .next s) ∧
    (s.mode = mBoot → s.on RB_STAT_ENUMDONE = false → ∃ e : State,
      exec (.enumeration cards) s = .next (((e.rackConfig (s.app.stored.getD {})).p RB_STAT_ENUMDONE 1)) ∧
      e = (List.range 15).foldl (fun e j => e.enumSlot (if e.pw.geo == 0 then cards else []) (s.app.stored.getD {}).cards (j + 1)) s ∧ (e.p RB_STAT_ENUMDONE 1).on RB_STAT_ENUMDONE = true) ∧
    (s.gated = true → s.postWrite slot.val a data n t.val code = s.inc UN_GATEDROP_COUNT) ∧
    (let may : Prop := s.worksOn l.val t.val = true ∧ s.pairRuns l.val (s.desc t.val).pair = true ∧ s.reaches l.val t.val = true
     (s.reaches l.val t.val = true ↔ l.val ∈ s.liveLanes ∧ (s.desc t.val).directio = true) ∧
     (¬ may → exec (.rackAccess l t acc) s = .next s) ∧
     (may → s.speculates l.val t.val = true →
       (acc.wr = none → exec (.rackAccess l t acc) s = .next (s.stallCtx l.val t.val [.load false false (0x200000000 + acc.a) acc.len])) ∧
       (acc.wr.isSome = true → Gives (.rackAccess l t acc) s (fun u => u.rb = s.rb ∧ u.streams = s.streams ∧ u.tx = s.tx))) ∧
     (may → s.speculates l.val t.val = false → s.g (RA_CTX_STATE l.val t.val) ≠ csIdle → exec (.rackAccess l t acc) s = .next s) ∧
     (may → s.speculates l.val t.val = false → s.g (RA_CTX_STATE l.val t.val) = csIdle →
       let place := (s.lt l.val t.val).rackPos
       let b := s.modLt l.val t.val (fun y => { y with rackPos := place + 1, posted := tabSet (fun _ => (false, false)) y.posted place (false, false) })
       (s.on RB_CTRL_EN = false → exec (.rackAccess l t acc) s = .next (b.rackBusError l.val t.val place acc.a acc.wr.isSome)) ∧
       (s.on RB_CTRL_EN = true →
         let z := b.postStream .rack (.task t) place l (reqBytes acc)
         (∀ w, z.2 = .formed w → exec (.rackAccess l t acc) s = .next (z.1.rackAct t.val place (reqOf w) (z.1.lt l.val t.val).cycle)) ∧
         (∀ w, z.2 = .joined w → (reqOf w).wr.isSome = true → exec (.rackAccess l t acc) s = .next z.1) ∧
         (∀ w d, z.2 = .joined w → (reqOf w).wr = none → z.1.loadOf t.val place = some d →
           exec (.rackAccess l t acc) s = .next (z.1.giveLoad [l.val] t.val place d)) ∧
         (∀ w, z.2 = .joined w → (reqOf w).wr = none → z.1.loadOf t.val place = none → exec (.rackAccess l t acc) s = .next z.1) ∧
         (∀ lanes, z.2 = .failed lanes → acc.wr = none → exec (.rackAccess l t acc) s = .next (lanes.foldl (fun (u : State) j =>
           u.rackBusError j t.val place (if j = l.val then acc.a else b.postedAt j t.val place) false) z.1)) ∧
         (∀ lanes, z.2 = .failed lanes → acc.wr.isSome = true → exec (.rackAccess l t acc) s = .next z.1) ∧
         (z.2 = .waits ∨ z.2 = .turned → exec (.rackAccess l t acc) s = .next z.1)))) ∧
    (inWindow acc.a = true → ∀ p c, 
      let e : PortB := { t := t.val, place := p, word := (acc.a - winBase) / 4, wr := acc.wr.isSome,
                         left := acc.wr.getD (List.replicate ((acc.a % 4 + acc.len + 3) / 4) 0) }
      s.rackAct t.val p acc c = { s with rb := { s.rb with portB := s.rb.portB ++ [e] } }) ∧
    (inWindow acc.a = false → ∀ p c, (∀ d, acc.wr = some d → s.rackAct t.val p acc c = s.postWrite ((s.window acc.a).elim 0 (·.1)) acc.a d 0 t.val c) ∧
      (acc.wr = none → (s.window acc.a).isSome = true → s.rackAct t.val p acc c = s.askRead
        { who := .lane t.val p, slot := 0, a := acc.a, words := (acc.a % 4 + acc.len + 3) / 4, cycle := c })) ∧
    (∀ r : RdReq, ∀ sl w, s.window r.a = some (sl, w) → s.on (RB_WCFG_PFEFF sl w) = false →
      (∀ j, s.freeTag = some j → (∀ i < j, (s.tag i).st ≠ 0) ∧ (s.tag j).st = 0 ∧
        s.askRead r = s.issue j { reqs := [{ r with slot := sl }], slot := sl, a := r.a, words := r.words }) ∧
      (s.freeTag = none → s.askRead r = { s with rb := { s.rb with waitRd := s.rb.waitRd ++ [{ r with slot := sl }] } })) ∧
    (x.st = 2 → exec (.readCompletion tag code data) s = .next s.discard) ∧
    (x.st = 0 ∨ x.st = 3 → exec (.readCompletion tag code data) s = .next s.unexpected) ∧
    (x.st = 1 → s.abandoned k x = true → exec (.readCompletion tag code data) s = .next (s.setTag k { x with st := 3 })) ∧
    (x.st = 1 → s.abandoned k x = false → x.buf = none →
      exec (.readCompletion tag code data) s = .next ((x.reqs.foldl (fun s r => s.endRead r (if 4 < code then 3 else code) data) s).freeTagNow k)) ∧
    (x.st = 1 → s.abandoned k x = false → ∀ i, x.buf = some i →
      let d := s.fillBuf k i (if code = 0 then some data else none)
      exec (.readCompletion tag code data) s = .next ((x.reqs.foldl (fun s r =>
        s.endRead r (if 4 < code then 3 else code) ((data.drop (r.a % 64 / 4)).take r.words)) d).freeTagNow k)) ∧
    (x.st = 1 → ∃ u : State, u = x.reqs.foldl (fun s r => s.endRead r 8 []) (match x.buf with
        | some b => s.fillBuf k b none
        | none => s) ∧ exec (.readTimeout tag) s = .next (u.setTag k { x with st := 2, reqs := [], buf := none })) ∧
    (x.st ≠ 1 → exec (.readTimeout tag) s = .next s) ∧
    (x.st = 2 → exec (.discardTimerExpiry tag) s = .next (s.freeTagNow k)) ∧
    (x.st = 3 → exec (.discardTimerExpiry tag) s = .next (s.discard.freeTagNow k)) ∧
    (x.st = 0 ∨ x.st = 1 → exec (.discardTimerExpiry tag) s = .next s) ∧
    exec (.prefetchExpiry b) s = .next (s.dropPf b.val) ∧
    (s.dropPf b.val).pfBuf b.val = (if (s.pfBuf b.val).valid then {} else s.pfBuf b.val) ∧
    (s.fills k b.val = true → ∀ w, (s.fillBuf k b.val (some w)).pfBuf b.val = { s.pfBuf b.val with data := some w } ∧ (s.fillBuf k b.val none).pfBuf b.val = {}) ∧
    (s.fills k b.val = false → ∀ d, s.fillBuf k b.val d = s) ∧
    (ec.val = 0 → exec (.errorMessage slot tag ec a) s = .next s) ∧
    (0 < ec.val → Gives (.errorMessage slot tag ec a) s (fun u =>
      let ms := s.errMatches slot.val k a
      u.g RB_EADDR_ADDR = a % 2 ^ 32 ∧ u.g RB_EINFO_SLOT = slot.val ∧ u.g RB_EINFO_TAG = k ∧ u.g RB_EINFO_CODE = (if 4 < ec.val then 3 else ec.val) ∧
      (u.on RB_EINFO_MATCH = true ↔ ms ≠ []) ∧ (u.on RB_EINFO_AMBIG = true ↔ 2 ≤ ms.length) ∧
      u.g RB_ESEQ_SEQ = (if ms = [] then 0xFFFFFFFF else ms.headD 0) ∧
      u.on RB_STAT_WERR = true ∧ u.g RB_WERRCNT_COUNT = (s.g RB_WERRCNT_COUNT + 1) % 2 ^ 32 ∧
      (∀ j, ¬ recPage j → j / 0x10000 ≠ RB_STAT_WERR.reg / 0x10000 → u.regs.rd j = s.regs.rd j)))

/-- The history of posted writes (R367): a write that the bridge posts, from a lane's access, an image commit or the Keeper, takes entry `RB_WSEQ` mod
1,024, which holds its sequence number, address, slot, length, source, task and cycle; the other 1,023 entries stay. A gated module
posts none (R379), and none is posted while the bridge is off (R375) or in any slot but slot 0 (R542). -/
def Obligations.PostedWritesEnterTheHistory : Prop :=
  ∀ (s : State) (slot task : Fin 16) (src : Fin 3) (a cycle : Nat) (data : List Word), s.gated = false → s.on RB_CTRL_EN = true → s.pw.geo = 0 → a < 2 ^ 32 → cycle < 2 ^ 32 →
    1 ≤ data.length → data.length ≤ 16 →
    let q := s.g RB_WSEQ_SEQ
    let i := q % 1024
    let u := s.postWrite slot.val a data src.val task.val cycle
    u.g (RB_WHIST_SEQ i) = q ∧ u.g (RB_WHADDR_ADDR i) = a ∧ u.g (RB_WHINFO_SLOT i) = slot.val ∧ u.g (RB_WHINFO_LEN i) = data.length - 1 ∧
    u.g (RB_WHINFO_SRC i) = src.val ∧ u.g (RB_WHINFO_TASK i) = task.val ∧ u.g (RB_WHCYC_CYCLE i) = cycle ∧
    u.g RB_WSEQ_SEQ = (q + 1) % 2 ^ 32 ∧
    (∀ j, j < 1024 → j ≠ i → u.g (RB_WHIST_SEQ j) = s.g (RB_WHIST_SEQ j) ∧ u.g (RB_WHADDR_ADDR j) = s.g (RB_WHADDR_ADDR j) ∧
      u.word (RB_WHINFO_SLOT j) = s.word (RB_WHINFO_SLOT j) ∧ u.g (RB_WHCYC_CYCLE j) = s.g (RB_WHCYC_CYCLE j)) ∧
    (s.mode ≠ mDormant → u.tx = .rackWrite q slot.val a data :: s.tx)

/-- The exchange window (R169 to R171, R370): a write on either port stores its enabled bytes; an access of the other kind to a word that the other
port still occupies is a collision: counted, noted, busy; a read beside a read counts too but is served; port B tries again and gives up
with a bus error after its last try.

The legacy serial bus (R371 to R374, R379): a cycle polls the configured stations in order, none while the outputs are gated; the first answer
that passes every check is a station's new data; an answer or a time-out on both lines ends the poll, a poll without an answer is
counted, and the next station's request carries the next sequence number.

At the same clock port A counts as the later, whichever command is taken first; a port B access performs the next word of the voted access that
waits for it. A poll carries the output words whose commit time has come (R373).
Completion is stated of `WINDOW_READ`, `WINDOW_WRITE`, `WINDOW_PORT_B_ACCESS`, `LSB_CYCLE`, `LSB_RESPONSE` and `LSB_RESPONSE_TIMEOUT`. -/
def Obligations.ExchangeWindowAndSerialBus : Prop :=
  (∀ (s : State) (a clk off be tries : Nat) (v : Word) (b : BitVec 4) (wr : Option Word),
     exec (.windowRead a clk) s = .next (s.winPortA a none clk) ∧
     exec (.windowWrite a v b clk) s = .next (s.winPortA a (some (v, b.toNat)) clk) ∧
     (off < 0x10000 → exec (.windowPortBAccess off wr clk) s = .next ((s.winRetries clk 17).winTryB (off / 4) wr clk 0)) ∧
     (0x10000 ≤ off → exec (.windowPortBAccess off wr clk) s = .next s) ∧
     (inWindow a = false → s.winPortA a none clk = s ∧ s.winPortA a (some (v, be)) clk = s) ∧
     (∀ i < 4, (s.winWrite off v be).rb.win.rd (4 * off + i) = if bit be i then BitVec.ofNat 8 (v.toNat / 256 ^ i) else s.rb.win.rd (4 * off + i)) ∧
     (∀ j, (j < 4 * off ∨ 4 * off + 4 ≤ j) → (s.winWrite off v be).rb.win.rd j = s.rb.win.rd j) ∧
     (inWindow a = true → s.rb.winA = none → s.rb.winB = none → s.rb.retry = none → s.mode ≠ mDormant →
       let word := (a - winBase) / 4
       Gives (.windowWrite a v b clk) s (fun t => t.rb.win = (s.winWrite word v b.toNat).rb.win ∧ t.tx = .winA a none false :: s.tx ∧ t.regs = s.regs ∧
         t.rb.winA = some { clk := clk, word := word, wr := true, val := v, be := b.toNat
                            old := BitVec.ofNat 32 (leNat (s.rb.win.rdN (4 * word) 4)) }) ∧
       Gives (.windowRead a clk) s (fun t => t.rb.win = s.rb.win ∧ t.regs = s.regs ∧
         t.rb.winA = some { clk := clk, word := word, wr := false, due := true })) ∧
     (inWindow a = true → s.rb.winA = none → s.rb.retry = none → s.mode ≠ mDormant → ∀ x, s.rb.winB = some x → x.word = (a - winBase) / 4 → clk < x.clk + 2 →
       (x.wr = false → Gives (.windowWrite a v b clk) s (fun t => t.rb.win = s.rb.win ∧ t.rb.collisions = s.rb.collisions + 1 ∧
         t.g RB_BUSYCNT_COUNT = (s.g RB_BUSYCNT_COUNT + 1) % 2 ^ 32)) ∧
       (x.wr = true → Gives (.windowRead a clk) s (fun t => t.rb.win = s.rb.win ∧ t.rb.collisions = s.rb.collisions + 1 ∧ t.free = s.free + 1 ∧
         t.g RB_BUSYCNT_COUNT = (s.g RB_BUSYCNT_COUNT + 1) % 2 ^ 32))) ∧
     (s.rb.winB = none → ∀ x, s.rb.winA = some x → x.word = off → clk < x.clk + 2 → x.wr ≠ wr.isSome →
       let t := s.winTryB off wr clk tries
       (x.clk ≠ clk ∨ x.busy = true →
         (tries < 16 → t.rb.win = s.rb.win ∧ t.rb.collisions = s.rb.collisions + 1 ∧
           t.rb.retry = some { word := off, wr := wr, clk := clk + 2, tries := tries + 1 }) ∧
         (16 ≤ tries → ∃ u : State, u.rb.win = s.rb.win ∧ u.rb.collisions = s.rb.collisions + 1 ∧ u.rb.retry = none ∧ u.rb.portB = s.rb.portB ∧
           (wr = none → t = u.winDone off none none) ∧ (∀ d, wr = some d → t = (u.emit (.winBusErr (4 * off))).winDone off (some d) none))) ∧
       (x.clk = clk → x.busy = false →
         (wr = none → t.rb.win = (s.winWrite off x.old 15).rb.win ∧ t.rb.collisions = s.rb.collisions + 1 ∧
           t.rb.winA = some { x with busy := true } ∧ t.rb.winB = some { clk := clk, word := off, wr := false, due := true, undef := true } ∧
           t.g RB_BUSYCNT_COUNT = (s.g RB_BUSYCNT_COUNT + 1) % 2 ^ 32) ∧
         (∀ d, wr = some d → ∃ u : State, u.rb.win = (s.winWrite off d 15).rb.win ∧ u.rb.collisions = s.rb.collisions + 1 ∧
           u.rb.winA = some { x with undef := true, busy := true } ∧ u.rb.winB = some { clk := clk, word := off, wr := true } ∧ u.rb.retry = none ∧
           u.rb.portB = s.rb.portB ∧ u.g RB_BUSYCNT_COUNT = (s.g RB_BUSYCNT_COUNT + 1) % 2 ^ 32 ∧ t = u.winDone off (some d) none))) ∧
     (∀ y ys, s.rb.portB = y :: ys → y.left.length = 1 →
       (∀ d, y.takes off (some d) = true → s.winDone off (some d) none = { s with rb := { s.rb with portB := ys } }) ∧
       (∀ d, y.takes off none = true →
         let u := s.emit (.winB (4 * off) (some d))
         s.winDone off none (some d) = ({ u with rb := { u.rb with portB := ys, loads := (y.t, y.place, y.got ++ [d]) :: u.rb.loads } } : State).giveLoad
           (s.loadLanes y.t y.place) y.t y.place (y.got ++ [d]))) ∧
     (s.rb.portB = [] → ∀ d, s.winDone off (some d) none = s ∧ s.winDone off none (some d) = s.emit (.winB (4 * off) (some d)) ∧
       s.winDone off none none = s.emit (.winBusErr (4 * off)))) ∧
  (∀ (s : State) (line : SerialLine) (body : List Byte) (par : Bool) (k : Nat) (ks : List Nat),
     (s.on RB_LSCTRL_EN = false ∨ s.gated = true ∨ s.mode = mSafeHalt ∨ s.heldPort 0x30 = true ∨ s.heldPort 0x31 = true → exec .lsbCycle s = .next s) ∧
     (s.on RB_LSCTRL_EN = true → s.gated = false → s.mode ≠ mSafeHalt → s.heldPort 0x30 = false → s.heldPort 0x31 = false →
       exec .lsbCycle s = .next ({ s with rb := { s.rb with
         lsLeft := (List.range 32).filter (fun k => k != 0 && s.on (RB_LSSTN_VALID k)) } } : State).lsPoll) ∧
     (s.rb.lsLeft = k :: ks → s.mode ≠ mDormant →
       let t := s.lsPoll
       t.rb.lsNow = some k ∧ t.rb.lsLeft = ks ∧ t.rb.lsA = none ∧ t.rb.lsB = none ∧ (t.lsStn k).seq = ((s.lsStn k).seq + 1) % 256 ∧
       (t.lsStn k).data = (s.lsStn k).data ∧ t.regs = s.regs ∧
       (∀ p, p ∈ t.parts ↔ p ∈ s.parts ∧ ¬ ((∃ off, p.tgt = .serial k off) ∧ p.commit ≤ s.now)) ∧
       ((∀ p ∈ s.parts, ¬ ((∃ off, p.tgt = .serial k off) ∧ p.commit ≤ s.now)) → t.netOut = s.netOut) ∧
       (∀ p off, s.parts = [p] → p.tgt = .serial k off → p.commit ≤ s.now → t.netOut = s.netOut.wrL (serialBase k + off) p.data) ∧
       t.tx = .serialFrame (serialBytes k (((s.lsStn k).seq + 1) % 256) false (t.netOut.rdN (serialBase k) (s.g (RB_LSSTN_OUTLEN k)))) :: s.tx) ∧
     (s.rb.lsLeft = [] → s.lsPoll = { s with rb := { s.rb with lsNow := none } }) ∧
     (s.lsWaits line = false → exec (.lsbResponse line body par) s = .next s ∧ exec (.lsbResponseTimeout line) s = .next s) ∧
     (s.lsWaits line = true → exec (.lsbResponseTimeout line) s = .next (s.lsAnswer line false)) ∧
     (s.rb.lsNow = some k → s.lsWaits line = true →
       (s.lsOk k body par = false → exec (.lsbResponse line body par) s = .next (s.lsAnswer line false)) ∧
       (s.lsOk k body par = true → s.rb.lsA ≠ some true → s.rb.lsB ≠ some true →
         exec (.lsbResponse line body par) s = .next ((s.setLs k { s.lsStn k with
           data := (body.drop 4).take (byteAt body 3), endAt := some s.now }).lsAnswer line true)) ∧
       (s.lsOk k body par = true → (s.rb.lsA = some true ∨ s.rb.lsB = some true) →
         exec (.lsbResponse line body par) s = .next (s.lsAnswer line true))) ∧
     (s.lsOk k body par = true → byteAt body 0 = 0xB6 ∧ byteAt body 1 = 128 + k ∧ byteAt body 2 = (s.lsStn k).seq ∧
       byteAt body 3 = s.g (RB_LSSTN_INLEN k) ∧ body.length = 6 + s.g (RB_LSSTN_INLEN k) ∧ par = true) ∧
     (s.rb.lsA = none → s.rb.lsB = none →
       (s.lsAnswer .a true).rb.lsA = some true ∧ (s.lsAnswer .a true).regs = s.regs ∧
       (s.lsAnswer .a false).g RB_LSERRA_COUNT = (s.g RB_LSERRA_COUNT + 1) % 2 ^ RB_LSERRA_COUNT.w ∧
       (s.lsAnswer .b false).g RB_LSERRB_COUNT = (s.g RB_LSERRB_COUNT + 1) % 2 ^ RB_LSERRB_COUNT.w))

/-- The unit's lease and verdicts (R380, R383, R386 to R388, R393 to R398, R401): pair links, the partner's health record, the act time (Active,
ungated, one takeover more), the end of the lease (gated, to Isolated or where a handover or a park leads), the loss of the witness,
the end of the resynchronisation with the holder.

From 0.5 µs before the lease's end the outputs are gated. A returning module takes the holder's windows, retained memory, anchor and grid; where
a digest still differs its copy goes on. What the holder holds is a free value, log entry 53.
Completion is stated of `PAIR_LINK_LOST`, `PAIR_LINK_REGAINED`, `PAIR_LINK_HEALTH_RECORD`, `ACT_TIME`, `LEASE_END`, `WATCH_LOSS` and
`UNIT_RESYNC_COMPLETE`. -/
def Obligations.UnitRolesAndLease : Prop :=
  ∀ (s : State) (k : PairLink) (body : List Byte) (t l : Nat),
    (∃ a : State, exec (.pairLinkLost k) s = .next a.chanGates ∧ a.on (plkFld k) = false ∧ OnlyRegs s a (regIn [UN_STAT_PLK1])) ∧
    (∃ a : State, exec (.pairLinkRegained k) s = .next a.chanGates ∧ a.on (plkFld k) = true ∧ OnlyRegs s a (regIn [UN_STAT_PLK1])) ∧
    (s.heldPort (plkPort k) = true → exec (.pairLinkHealthRecord k body) s = .next s) ∧
    (∀ h, s.heldPort (plkPort k) = false → parseHealth body (mcNum s.now) = some (s.g UN_CFG_UNIT, h) → s.on UN_CFG_EN = true → h.node = s.g UN_CFG_PARTNER →
      Gives (.pairLinkHealthRecord k body) s (fun u => u.g UN_PHEALTH_CHECKS = h.checks % 2 ^ UN_PHEALTH_CHECKS.w ∧
        u.on UN_STAT_PELIG = bit h.elig 0 ∧ u.un.partner = some h ∧ RegsKeep s u (regIn [UN_PHEALTH_CHECKS, UN_STAT_PELIG]) ∧
        u = { s with regs := u.regs, un := { s.un with partner := some h } })) ∧
    (parseHealth body (mcNum s.now) = none → exec (.pairLinkHealthRecord k body) s = .next s) ∧
    (s.un.actAt = none → exec .actTime s = .next s) ∧
    (s.un.actAt = some (t, l) → s.now < t → exec .actTime s = .next s) ∧
    (s.un.actAt = some (t, l) → t ≤ s.now → s.mode ≠ mHotStandby → s.mode ≠ mIsolated → exec .actTime s = .next { s with un := { s.un with actAt := none } }) ∧
    (s.un.actAt = some (t, l) → t ≤ s.now → s.mode = mHotStandby ∨ s.mode = mIsolated → Gives .actTime s (fun u =>
      u.mode = mActive ∧ u.on UN_STAT_HOLD = true ∧ u.gated = false ∧ u.un.lease = some l ∧ u.un.lastAct = t ∧ u.un.isoUnit = false ∧ u.un.actAt = none ∧
      u.un.curRen = some ((s.un.lseq + 1) % 2 ^ 32) ∧ u.g UN_LSEQ_LSEQ = (s.un.lseq + 1) % 2 ^ 32 ∧
      u.g UN_LEASE_NS = l % 2 ^ 32 ∧ u.g UN_TAKEOVER_COUNT = (s.g UN_TAKEOVER_COUNT + 1) % 2 ^ UN_TAKEOVER_COUNT.w ∧ u.on UN_STAT_RSYNC = false)) ∧
    (s.un.lease = none ∨ s.mode ≠ mActive → exec .leaseEnd s = .next s) ∧
    (∀ e, s.un.lease = some e → s.now + 500 < e → exec .leaseEnd s = .next s) ∧
    (∀ e, s.un.lease = some e → s.mode = mActive → e ≤ s.now + 500 → s.now < e → exec .leaseEnd s = .next s.gate) ∧
    (∀ e, s.un.lease = some e → s.mode = mActive → e ≤ s.now →
      (s.un.leaveTo = none → Gives .leaseEnd s (fun u => u.mode = mIsolated ∧ u.gated = true ∧ u.un.lease = none ∧ u.un.isoUnit = true)) ∧
      (s.un.leaveTo = some 6 → Gives .leaseEnd s (fun u => u.mode = mHotStandby ∧ u.gated = true ∧ u.un.lease = none)) ∧
      (s.un.leaveTo = some 10 → exec .leaseEnd s = .next (s.gate.leaveLight.parkNow 17))) ∧
    (s.mode = mHotStandby → 50 ≤ s.un.noWatch → Gives .watchLoss s (fun u => u.mode = mIsolated ∧ u.un.isoUnit = true)) ∧
    (s.mode ≠ mHotStandby ∨ s.un.noWatch < 50 → exec .watchLoss s = .next s) ∧
    (∀ c : UnitCopy, let a := s.takeCopy c
      a.app.anchor = some c.anchor ∧ a.app.retMem = c.retained.foldl (fun (m : Mem) e => m.wr e.1 e.2) s.app.retMem ∧
      (∀ j ∈ s.liveLanes, (a.lane j).mem = c.windows.foldl (fun (m : Mem) e => m.wr e.1 e.2) (s.lane j).mem) ∧
      (∀ j < 4, j ∉ s.liveLanes → a.lane j = s.lane j) ∧ a.regs = s.regs ∧
      (a.sameDigests c = true ↔ ∀ j ∈ s.liveLanes, ∀ e ∈ c.digests, (a.lane j).dig e.1.val = e.2)) ∧
    (s.mode = mHotStandby → s.un.resyncing = true → Gives .unitResyncComplete s (fun u =>
      let c := Config.unitCopy s.free
      let a := ({ s with free := s.free + 1 } : State).takeCopy c
      if a.sameDigests c = true then
        u.un.synced = true ∧ u.un.resyncing = false ∧
        u.on UN_STAT_RSYNC = false ∧ bit (u.g UN_HEALTH_CHECKS) 6 = true ∧ (∀ n < 6, bit (u.g UN_HEALTH_CHECKS) n = bit (s.g UN_HEALTH_CHECKS) n) ∧
        RegsKeep s u (regIn [UN_STAT_RSYNC, UN_HEALTH_CHECKS, UN_HEALTH_ELIG]) ∧ u = { a with regs := u.regs, un := u.un }
      else u = a)) ∧
    (s.mode ≠ mHotStandby ∨ s.un.resyncing = false → exec .unitResyncComplete s = .next s)

/-- Reports reach the collector (R404, R406, R407, R409, R413): a report of a class its source can raise is taken while its path is good; a fetch
that times out reports the source's highest class; a failed path is class 2, once, and its source is then polled; a forced report runs
the same path. The first fault of a class is shown; one of another element escalates, one of the same folds.

A report that names a lane and is escalated into class 3 takes the lane Out before the module isolates itself.
Completion is stated of `FAULT_REPORT`, `REPORT_FETCH_TIMEOUT`, `PATH_FAILURE`, `PATH_POLL`, `FORCE_REPORT` and `FORCE_PATH_FAILURE`. -/
def Obligations.FaultReportsAreTaken : Prop :=
  ∀ (s : State) (src : Src) (cls : Fin 5) (code : BitVec 16) (data : List Byte) (w : RepWord) (v : Word) (p : Rep),
    let n := src.val
    (s.mode = mDormant ∨ s.on (FC_SSTAT_PATHFAIL n) = true ∨ srcRaises n cls.val = false → exec (.faultReport src cls code data) s = .next s) ∧
    (s.mode ≠ mDormant → s.on (FC_SSTAT_PATHFAIL n) = false →
      (srcRaises n cls.val = true → exec (.faultReport src cls code data) s = .next (s.take (srcRep n cls.val code.toNat data))) ∧
      (srcClasses n ≠ [] →
        exec (.reportFetchTimeout src) s = .next (s.report n (srcHighest n) 0xFFFF) ∧
        ∃ a : State, exec (.pathFailure src) s = .next (a.take { cls := 2, src := n, code := 0xFFFE, path := true }) ∧
          a.on (FC_SSTAT_PATHFAIL n) = true ∧ a.on (FC_SSTAT_PATHOK n) = false ∧ a.on FC_STAT_PATHFAIL = true ∧
          OnlyRegs s a (regIn [FC_SSTAT_PATHFAIL n, FC_STAT_PATHFAIL]))) ∧
    (s.on (FC_SSTAT_PATHFAIL n) = true →
      exec (.reportFetchTimeout src) s = .next s ∧ exec (.pathFailure src) s = .next s ∧
      (srcRaises n w.cls.val = true → exec (.pathPoll src (some w)) s = .next (s.take (srcRep n w.cls.val w.code.toNat w.data)))) ∧
    (s.on (FC_SSTAT_PATHFAIL n) = false → exec (.pathPoll src (some w)) s = .next s) ∧
    exec (.pathPoll src none) s = .next s ∧
    exec (.forceReport src v) s = .next (s.fcForce n v) ∧ exec (.forcePathFailure src v) s = .next (s.fcForce n v) ∧
    (s.mode ∉ [mMaintenance, mSelfTest] → n < 48 → s.fcForce n v = s.notice 0x22 1 0 (s.regs.rd (0x40050104 + 16 * n))) ∧
    (s.mode ∈ [mMaintenance, mSelfTest] → n < 48 →
      (srcRaises n (getBits v 1 3) = false → s.fcForce n v = s.notice 0x22 2 0 (s.regs.rd (0x40050104 + 16 * n))) ∧
      (srcRaises n (getBits v 1 3) = true → ∃ a : State, OnlyRegs s a (regIn [FC_FORCE_CODE n]) ∧ a.g (FC_FORCE_CODE n) = getBits v 16 16 ∧
        (getBits v 0 1 = 0 → s.fcForce n v = a) ∧
        (getBits v 0 1 = 1 → s.on (FC_SSTAT_PATHFAIL n) = false → getBits v 4 1 = 0 →
          s.fcForce n v = a.take { cls := getBits v 1 3, src := n, code := getBits v 16 16, forced := true }) ∧
        (getBits v 0 1 = 1 → s.on (FC_SSTAT_PATHFAIL n) = false → getBits v 4 1 = 1 →
          s.fcForce n v = a.take { cls := 2, src := n, code := 0xFFFE, forced := true, path := true }))) ∧
    (s.mode = mDormant → s.take p = s) ∧
    (s.mode ≠ mDormant → p.forced = false → p.cls = 0 → ∀ d, p.data = some d → s.take p = s.noticeD p.src p.code d) ∧
    (1 ≤ p.cls → p.cls ≤ 3 →
      (s.on (pendFld p.cls) = false → s.judge p = some { p := p, c := p.cls, esc := false, elem := elemOf p.src p.code p.cls }) ∧
      (s.on (pendFld p.cls) = true → s.firstElem p.cls = elemOf p.src p.code p.cls → s.judge p = none) ∧
      (s.on (pendFld p.cls) = true → s.firstElem p.cls ≠ elemOf p.src p.code p.cls →
        s.judge p = some { p := p, c := p.cls + 1, esc := true, elem := elemOf p.src p.code p.cls })) ∧
    (∀ t : Taken, t.c = 3 → (∀ j, t.elem = .lane j → t.esc = true → s.react t = ((s.react2 t).1.isolate, (s.react2 t).2)) ∧
      (t.esc = false → s.react t = (s.isolate, []))) ∧
    (∀ t : Taken, t.c ≤ 3 → 1 ≤ t.c → t.p.src < 48 → s.on (pendFld t.c) = false →
      let b := s.book t
      b.on (pendFld t.c) = true ∧ b.g (FC_FIRST_SRC t.c) = t.p.src % 2 ^ (FC_FIRST_SRC t.c).w ∧ b.g (FC_FIRST_CODE t.c) = t.p.code % 2 ^ 16 ∧
      b.on (FC_FIRST_ESC t.c) = t.esc ∧ b.g (FC_CNT_COUNT t.c) = (s.g (FC_CNT_COUNT t.c) + 1) % 2 ^ 32)

/-- Power and resets (R415, R416, R424, R425, R496, R542 to R544, R554): a reset leads to Boot with its cause and keeps what MRAM, flash and the
standby domain hold; power-on counts a power cycle outside Blank and takes the stored operating time; the power-fail sequence stores it and
ends Dormant; `RST#` is ignored in Safe-Halt; supply inputs, the Halt latch and the standby domain.

Completion is stated of `POWER_ON`, `POWER_FAIL_WARNING`, `RST_ASSERTED`, `HALT_LATCH_CLEAR`, `SUPPLY_BELOW_RANGE`, `SUPPLY_OVERVOLTAGE`,
`SUPPLY_RECONNECT`, `OPERATING_TIME_STORE` and `STANDBY_DOMAIN_POWER_LOSS`. -/
def Obligations.PowerAndResets : Prop :=
  ∀ (s : State) (i : SupplyIn) (cause chan row : Nat),
    (cause < 8 → chan < 8 →
      let t := s.moduleReset cause chan row
      t.mode = mBoot ∧ t.g LC_RSTCAUSE_CAUSE = cause ∧ t.g LC_RSTCAUSE_CHAN = chan ∧ t.g LC_STATE_LCS = s.g LC_STATE_LCS ∧ t.opms = s.opms ∧
      t.app.stored = s.app.stored ∧ t.app.retMem = s.app.retMem ∧ t.app.retCrc = s.app.retCrc ∧ t.sb.rtc = s.sb.rtc ∧
      (cause ≠ 0 → t.sb.rtcAt = s.sb.rtcAt) ∧ t.app.state = .notLoaded ∧ t.app.forces = [] ∧ t.cfg = s.cfg ∧ t.keys = s.keys ∧
      t.on FC_STAT_HALT = s.on FC_STAT_HALT ∧ t.on FC_STAT_FROZEN = s.on FC_STAT_FROZEN ∧ t.mb = [] ∧ t.waiting = none ∧ t.gated = true ∧
      t.laneA = resetLaneSt ∧ t.laneB = resetLaneSt ∧ t.laneC = resetLaneSt ∧ t.laneD = resetLaneSt ∧ t.parts = [] ∧ t.pending = s.pending) ∧
    (s.mode ≠ mDormant → exec .powerOn s = .next s) ∧
    (s.mode = mDormant → s.fitted .pwa = false → s.fitted .pwb = false → exec .powerOn s = .next s) ∧
    (s.mode = mDormant → s.fitted .pwa = true ∨ s.fitted .pwb = true → Gives .powerOn s (fun t => t.mode = mBoot ∧ t.g LC_RSTCAUSE_CAUSE = 0 ∧
      t.g LC_PWRCYC_COUNT = (if s.g LC_STATE_LCS = 0 then s.g LC_PWRCYC_COUNT else min (s.g LC_PWRCYC_COUNT + 1) (2 ^ 32 - 1)) ∧
      t.g LC_OPMSLO_MS = s.sb.opStored % 2 ^ 32 ∧ t.g LC_OPMSHI_MS = s.sb.opStored / 2 ^ 32 % 2 ^ 32 ∧
      t.app.stored = s.app.stored ∧ t.gated = true ∧ t.sb.rtcAt = none ∧ (s.sb.lost = true → t.sf.tamper = true ∧ t.sb.lost = false ∧ t.on FC_STAT_HALT = false))) ∧
    (s.mode = mDormant → exec .powerFailWarning s = .next s ∧ exec .rstAsserted s = .next s ∧ exec .operatingTimeStore s = .next s) ∧
    (s.mode ≠ mDormant → Gives .powerFailWarning s (fun t => t.mode = mDormant ∧ t.sb.opStored = s.opms ∧ t.app.stored = s.app.stored ∧
      t.cfg = s.cfg ∧ t.keys = s.keys ∧ t.app.state = .notLoaded ∧ t.gated = true ∧ t.mb = [])) ∧
    (s.mode = mSafeHalt → exec .rstAsserted s = .next s) ∧
    (s.mode ≠ mDormant → s.mode ≠ mSafeHalt → exec .rstAsserted s = .next (s.moduleReset 2 0 4)) ∧
    (s.mode = mDormant → Gives .haltLatchClear s (fun t => t.on FC_STAT_HALT = false ∧ OnlyRegs s t (regIn [FC_STAT_HALT]))) ∧
    (s.mode ≠ mDormant → exec .haltLatchClear s = .next s) ∧
    (s.fitted i = false → exec (.supplyBelowRange i) s = .next s ∧ exec (.supplyOvervoltage i) s = .next s) ∧
    (s.fitted i = true → s.mode ≠ mDormant → exec (.supplyBelowRange i) s = .next
      (if i = .pwa then ({ s with pw := { s.pw with belowA := true } } : State).notice 0x23 1
       else ({ s with pw := { s.pw with belowB := true } } : State).notice 0x23 2)) ∧
    (s.fitted i = true → exec (.supplyOvervoltage i) s = .next
      (if i = .pwa then { s with pw := { s.pw with discA := true } } else { s with pw := { s.pw with discB := true } })) ∧
    (s.pw.discA = true → exec (.supplyReconnect .pwa) s = .next { s with pw := { s.pw with discA := false, belowA := false } }) ∧
    (s.pw.discB = true → exec (.supplyReconnect .pwb) s = .next { s with pw := { s.pw with discB := false, belowB := false } }) ∧
    (s.pw.discA = false → exec (.supplyReconnect .pwa) s = .next s) ∧ (s.pw.discB = false → exec (.supplyReconnect .pwb) s = .next s) ∧
    (s.mode = mDormant → exec (.supplyBelowRange i) s = .next s) ∧
    ((s.fitted .pwa = true ↔ s.pw.codeA ≠ 0 ∧ s.pw.codeA ≠ 7) ∧ (s.fitted .pwb = true ↔ s.pw.codeB ≠ 0 ∧ s.pw.codeB ≠ 7)) ∧
    (s.mode ≠ mDormant → exec .operatingTimeStore s = .next { s with sb := { s.sb with opStored := s.opms } }) ∧
    (s.mode = mDormant → exec .standbyDomainPowerLoss s = .next { s with sb := { s.sb with lost := true, cellLow := true } }) ∧
    (s.mode ≠ mDormant → exec .standbyDomainPowerLoss s = .next s)

/-- Boot, Self-Test and the ways out of Synchronising and Parked (R415, R420, R421, R426 to R430, R521): the Halt latch leads back to Safe-Halt, no
bank is class 4, a verified one goes on to Self-Test; Self-Test ends in Isolated, Synchronising or Commissioning; a ready module starts
its application or takes its mode at the next millisecond; wakes.

Which page of retained memory a failed check finds is a free value, log entry 119.
Completion is stated of `BOOT_VERIFIED`, `SELF_TEST_END`, `READY`, `SYNCHRONISING_LONG`, `WAKE_TRIGGER`, `LANE_WAKE_COMPLETE` and `RESUME_POINT`. -/
def Obligations.BootAndModeChanges : Prop :=
  ∀ (s : State) (okA okB rtcOk : Bool) (res : SelfTest) (w : WakeSrc) (l : Lane) (m row t : Nat),
    (m < 16 → (s.setMode m row).mode = m ∧ (s.setMode m row).g LC_MODE_PREV = s.mode ∧ (s.setMode m row).g LC_MODE_ROW = row % 32) ∧
    (s.mode ≠ mBoot → exec (.bootVerified okA okB rtcOk) s = .next s) ∧
    (s.mode = mBoot → s.on FC_STAT_HALT = true → exec (.bootVerified okA okB rtcOk) s = .next (s.driveFuncs.enterSafeHalt 5)) ∧
    (s.mode = mBoot → s.on FC_STAT_HALT = false →
      (∀ a, s.chooseBank okA okB = some a → exec (.bootVerified okA okB rtcOk) s = .next (a.bootOn rtcOk)) ∧
      (s.chooseBank okA okB = none → ∃ a : State, exec (.bootVerified okA okB rtcOk) s = .next (a.report 0x29 4 2))) ∧
    (let act := s.g UP_STAT_ACTBANK
     let ok (b : Nat) : Bool := if b = 0 then okA else okB
     (s.on UP_STAT_TRIAL = false → ok act = true → s.chooseBank okA okB = some s.runImage) ∧
     (s.on UP_STAT_TRIAL = false → ok act = false → ok (1 - act) = true → ∃ a : State, s.chooseBank okA okB = some a ∧ a.g UP_STAT_ACTBANK = 1 - act) ∧
     (ok 0 = false → ok 1 = false → s.chooseBank okA okB = none) ∧
     (s.on UP_STAT_TRIAL = true → s.g UP_STAT_TRIES = 3 → ok (1 - act) = true → ∃ a : State, s.chooseBank okA okB = some a ∧
       a.g UP_STAT_ACTBANK = 1 - act ∧ a.on UP_STAT_TRIAL = false ∧ a.g UP_FALLBACK_REASON = 1) ∧
     (s.on UP_STAT_TRIAL = true → s.g UP_STAT_TRIES < 3 → ok act = true → ∃ a : State, s.chooseBank okA okB = some a ∧
       a.g UP_STAT_TRIES = s.g UP_STAT_TRIES + 1 ∧ a.on UP_STAT_TRIAL = true ∧ a.g UP_STAT_ACTBANK = act)) ∧
    (s.mode ≠ mSelfTest → exec (.selfTestEnd res) s = .next s) ∧
    (let p := (Config.freeWord s.free).toNat % 4096
     let u := s.retSpoil
     u.free = s.free + 1 ∧ u.app.retMem = s.app.retMem ∧ tabGet (fun _ => zeroPageCrc) u.app.retCrc p ≠ pageCrc u.app.retMem p ∧
     u = { s with free := s.free + 1, app := { s.app with retCrc := u.app.retCrc } }) ∧
    (s.mode = mSelfTest → res.injectionOk = false →
      let h : State := { s with un := { s.un with failHold := holdBits res } }
      let a := (if res.retainedOk then h else h.retSpoil).report 0x2A 3 2
      exec (.selfTestEnd res) s = .next (
        if a.mode ≠ mSelfTest then a
        else if a.fc.class3 = true then (a.p LC_MODE_FISO 1).enterMode mIsolated 7
        else if a.mayOperate = true then (a.enterMode mSynchronising 8).syncEntry
        else a.enterMode mCommissioning 9)) ∧
    (s.mode = mSelfTest → res.injectionOk = true →
      let h : State := { s with un := { s.un with failHold := holdBits res } }
      let a := if res.retainedOk then h else h.retSpoil
      (s.fc.class3 = true → exec (.selfTestEnd res) s = .next ((a.p LC_MODE_FISO 1).enterMode mIsolated 7)) ∧
      (s.fc.class3 = false → s.mayOperate = true → exec (.selfTestEnd res) s = .next (a.enterMode mSynchronising 8).syncEntry) ∧
      (s.fc.class3 = false → s.mayOperate = false → exec (.selfTestEnd res) s = .next (a.enterMode mCommissioning 9))) ∧
    (s.mode ≠ mSynchronising ∨ s.isReady = false → exec .ready s = .next s) ∧
    (s.mode = mSynchronising → s.isReady = true →
      (s.app.state = .stopped →
        let a : State := { s with app := { s.app with startByReady := true } }
        let t := a.startApp (if s.g LC_MODE_PREV = mUpdate then 0 else s.g LC_NEXT_KIND)
        (s.app.badImage = false → exec .ready s = .next t) ∧ (s.app.badImage = true → exec .ready s = .next t.startFailed)) ∧
      (s.app.state = .running ∨ s.app.state = .changing → exec .ready s = .next { s with app := { s.app with modeAt := some s.nextMs } }) ∧
      (s.app.state = .held → Gives .ready s (fun u => ∃ v, u.app.modeAt = some v ∧ s.nextMs ≤ v ∧ (∀ r, s.app.resumeAt = some r → r ≤ v) ∧
        u = { s with app := { s.app with modeAt := some v } }))) ∧
    (s.now < s.nextMs ∧ s.nextMs ≤ s.now + 1000000 ∧ s.nextMs % 1000000 = 0) ∧
    (s.mode = mSynchronising → exec .synchronisingLong s = .next (s.notice 0x16 6 0 (s.word LC_MODE_MODE))) ∧
    (s.mode ≠ mSynchronising → exec .synchronisingLong s = .next s) ∧
    (s.wakeArmed w = false → exec (.wakeTrigger w) s = .next s) ∧
    (s.wakeArmed w = true →
      (s.mode = mParked → exec (.wakeTrigger w) s = .next (s.wake (wakeCode w))) ∧
      (s.mode ≠ mParked → s.parking = true → exec (.wakeTrigger w) s = .next { s with app := { s.app with wakeNext := some (wakeCode w) } }) ∧
      (s.mode ≠ mParked → s.parking = false → exec (.wakeTrigger w) s = .next s)) ∧
    (s.app.waking = false → m < 4 →
      (2 ≤ (s.liveLanes.filter (fun k => !(s.lane k).retentionLost)).length → (s.wake m).app.waking = true ∧ (s.wake m).g LC_PARKSTAT_WAKESRC = m ∧
        (s.wake m).mode = s.mode) ∧
      ((s.liveLanes.filter (fun k => !(s.lane k).retentionLost)).length < 2 → (s.wake m).mode = mBoot ∧ (s.wake m).g LC_RSTCAUSE_CAUSE = 3)) ∧
    (s.app.waking = true → s.wake m = s) ∧
    (s.app.waking = true → (s.lane l.val).asleep = true → (∀ k < l.val, (s.lane k).asleep = false) →
      exec (.laneWakeComplete l) s = .next (s.laneWoken l.val) ∧ ((s.laneWoken l.val).lane l.val).asleep = false ∧
      ((∀ k : Lane, k ≠ l → (s.lane k.val).asleep = false) → (s.laneWoken l.val).app.resumeAt = some ((s.now + 1999999) / 1000000 * 1000000))) ∧
    (s.app.resumeAt = some t → s.app.state = .held → s.app.waking = false →
      (t ≤ s.now → exec .resumePoint s = .next (s.resume t) ∧ (s.resume t).app.state = .running ∧ (s.resume t).app.resumeAt = none) ∧
      (s.now < t → exec .resumePoint s = .next s))

/-- Boot with a failing bank (R427): where the active bank fails verification and the other does not, the Keeper boots the other; where both fail,
source 0x29 raises class 4 with code 0x2 and the module goes to Safe-Halt. -/
def Obligations.BootTakesTheOtherBankOrHalts : Prop :=
  ∀ (s : State) (okA okB rtcOk : Bool), s.mode = mBoot → s.on FC_STAT_HALT = false →
    let act := s.g UP_STAT_ACTBANK
    let ok (b : Nat) : Bool := if b = 0 then okA else okB
    (ok act = false → ok (1 - act) = true → ∃ a : State, exec (.bootVerified okA okB rtcOk) s = .next (a.bootOn rtcOk) ∧
      a.g UP_STAT_ACTBANK = 1 - act ∧ a.mode = mBoot) ∧
    (okA = false → okB = false → ∃ b : State, exec (.bootVerified okA okB rtcOk) s = .next (b.report 0x29 4 2) ∧ (b.report 0x29 4 2).mode = mSafeHalt ∧
      (s.on UP_STAT_TRIAL = false → b = s) ∧ (s.on UP_STAT_TRIAL = true → b.g UP_STAT_ACTBANK = 1 - act ∧ b.on UP_STAT_TRIAL = false))

/-- The end of a build (R517): the Keeper checks the built image's hash and that the image verifies; on success the bank is Built and the phase
Ready; on failure the bank stays unbuilt, the chunk store is discarded, the bitmap cleared and the phase Failed; in either case an event is
recorded. An update package that cannot be run is a failure too, and leaves the bank erased, which is the model's choice, log entry 25.

Completion is stated of `BUILD_COMPLETE`. -/
def Obligations.BuildEndsBuiltOrFailed : Prop :=
  ∀ s : State,
    let m := s.up.manifest
    let act := s.g UP_STAT_ACTBANK
    let run := deltaRun (bit (byteAt m 6) 0) (imageOf (s.bank act)) (s.deltaBytes.length + 1) [] s.deltaBytes
    let fails := fun (b : State) (t : State) => t.g UP_STAT_PHASE = 6 ∧ t.on UP_STAT_BUILT = s.on UP_STAT_BUILT ∧ t.up.store = [] ∧
      (∀ k, k < 130 → t.g (UP_BITMAP_BITS k) = 0) ∧ t.g UP_CHUNKS_DONE = 0 ∧ t.g UP_STAT_ACTBANK = act ∧ ∃ w, t = b.upEvent 6 (leBytes 1 w)
    (s.g UP_STAT_PHASE ≠ 3 ∨ within mCommissioning mUpdate s.mode = false → exec .buildComplete s = .next s) ∧
    (s.g UP_STAT_PHASE = 3 → within mCommissioning mUpdate s.mode = true → run = none → ∃ b, Gives .buildComplete s (fails b)) ∧
    (s.g UP_STAT_PHASE = 3 → within mCommissioning mUpdate s.mode = true → ∀ out, run = some out →
      let a := (s.setBank (1 - act) out).p UP_BUILD_BYTES out.length
      Gives .buildComplete s (fun t =>
        if out.length ≤ 67108864 ∧ imageHash out = (m.drop 56).take 32 ∧ a.imageOk out = true then
          t.g UP_STAT_PHASE = 4 ∧ t.on UP_STAT_BUILT = true ∧ t.g UP_STAT_ACTBANK = act ∧ t.bank (1 - act) = out ∧
          t.bank act = s.bank act ∧ t.up.store = s.up.store ∧ ∃ b : State, t = b.upEvent 5 (leBytes 1 (1 - act))
        else ∃ b, fails b t))

/-- The update's ends, staged records, debug (R499, R522, R530, R534, R535, R538): a trial that is not committed in time falls back; staged records move to
flash but the newest; a tap mismatch fails its check; a debug instruction is selected only where it is permitted; a halt needs it.

Completion is stated of `TRIAL_TIMEOUT`, `STAGING_DRAIN`, `TAP_MISMATCH`, `TAP_INSTRUCTION_LOAD`, `DEBUG_HALT_REQUEST` and
`PROBE_PRESENT_CHANGE`. -/
def Obligations.UpdateEndsAndDebug : Prop :=
  ∀ (s : State) (n : Nat) (port : Fin 256) (depth1 : Bool) (d : DieTap) (code : Nat) (l : Lane) (c : Core) (present : Bool),
    let act := s.g UP_STAT_ACTBANK
    (s.on UP_STAT_TRIAL = true → s.mode ≠ mDormant → s.mode ≠ mSafeHalt → exec .trialTimeout s = .next ((s.upFallback 5).moduleReset 4 0 4)) ∧
    (s.on UP_STAT_TRIAL = false ∨ s.mode = mDormant ∨ s.mode = mSafeHalt → exec .trialTimeout s = .next s) ∧
    (let t := s.upFallback 5
     t.g UP_STAT_ACTBANK = 1 - act ∧ t.on UP_STAT_TRIAL = false ∧ t.g UP_STAT_TRIES = 0 ∧ t.g UP_STAT_PHASE = 6 ∧ t.g UP_FALLBACK_REASON = 5 ∧
     t.cfg = s.up.orig.getD s.cfg) ∧
    (s.mode = mDormant → exec (.stagingDrain n) s = .next s) ∧
    (s.mode ≠ mDormant → Gives (.stagingDrain n) s (fun t =>
      t.ev.flash ++ t.ev.staged = s.ev.flash ++ s.ev.staged ∧ t.ev.staged.length = s.ev.staged.length - min n (s.ev.staged.length - 1) ∧
      (s.ev.staged ≠ [] → t.ev.staged ≠ []) ∧ ∀ a, a / 0x10000 ≠ 0x4006 → t.regs.rd a = s.regs.rd a)) ∧
    (let on : Prop := s.mode ∈ [mSynchronising, mActive, mHotStandby, mIsolated] ∧ port.val ∈ tapPorts depth1
     (on → exec (.tapMismatch port depth1) s = .next (s.failCheck (if depth1 then 3 else 2))) ∧ (¬ on → exec (.tapMismatch port depth1) s = .next s)) ∧
    (let k := tapIdx d
     (s.dbg.probe = false ∨ s.mode = mDormant ∨ s.dieFitted k = false → exec (.tapInstructionLoad d code) s = .next s) ∧
     (s.dbg.probe = true → s.mode ≠ mDormant → s.dieFitted k = true → Gives (.tapInstructionLoad d code) s (fun t =>
       t.tapIns k = s.tapSelect (code % 256) ∧ t = { s with dbg := { s.dbg with tap := t.dbg.tap, scanned := t.dbg.scanned } } ∧
       ∀ j, j ≠ k → t.tapIns j = s.tapIns j))) ∧
    (code ∈ [2, 0x10, 0x11] → s.g LC_STATE_LCS ≠ 4 → s.tapSelect code = if s.on LC_STATE_DBGPERM then code else 0xFF) ∧
    (code ∈ [0, 4, 5] → s.g LC_STATE_LCS ≠ 4 → s.tapSelect code = if s.dbg.prod then code else 0xFF) ∧
    (s.tapSelect 1 = 1 ∧ (s.g LC_STATE_LCS = 4 → code ≠ 1 → s.tapSelect code = 0xFF)) ∧
    (s.tapIns (4 + l.val) = 0x10 → s.on LC_STATE_DBGPERM = true → s.coresRun l.val = true → Gives (.debugHaltRequest l c) s (fun t =>
      c.val / 2 ∈ (t.lane l.val).halted ∧ t = s.modLane l.val (fun _ => t.lane l.val) ∧ (t.lane l.val).mem = (s.lane l.val).mem)) ∧
    (s.tapIns (4 + l.val) ≠ 0x10 ∨ s.on LC_STATE_DBGPERM = false ∨ s.coresRun l.val = false → exec (.debugHaltRequest l c) s = .next s) ∧
    Gives (.probePresentChange present) s (fun t => t.dbg.probe = present ∧ (present = false → ∀ j, t.tapIns j = 1) ∧
      t = { s with dbg := { s.dbg with probe := present, tap := t.dbg.tap } })

/-- A write of a register (R11, R12, R14, R36, R37): an access that is no word, misaligned or outside the blocks is a bus error; a listed register's
fields take the value by their access codes, an unlisted offset ignores it, RWM fields outside their modes stay with a notice, an illegal
encoding leaves the register as it was; while it runs a lane's core writes under its MMU, a DMA write to a register suspends its channel.

The whole lane D window of a ZM60-E4 answers; an access violation's notice does not depend on what the word says; a core's fault is taken.
Completion is stated of `REGISTER_WRITE`. -/
def Obligations.RegisterWritesFollowAccessCodes : Prop :=
  ∀ (s : State) (a : BitVec 40) (v : Word) (size : Nat) (l : Lane) (c : Core) (n : Fin 16) (sup : Bool) (fs : List RegFld) (old : Word) (rwm : Bool),
    let x := a.toNat
    let p := x / 0x10000
    (size ≠ 4 ∨ x % 4 ≠ 0 ∨ s.modMapped x = false → exec (.registerWrite .keeper a v size) s = .next { s with busErr := true }) ∧
    (size = 4 → x % 4 = 0 → s.modMapped x = true →
      (submitOf x = none → exec (.registerWrite .keeper a v size) s = .next { s.regWrite x v false with busErr := false }) ∧
      (∀ k, submitOf x = some k → (s.variant = .zm60 ∧ k = 3 → exec (.registerWrite .keeper a v size) s = .next { s with busErr := false }) ∧
        (¬ (s.variant = .zm60 ∧ k = 3) → exec (.registerWrite .keeper a v size) s = .next
          { s.work (Fin.ofNat 4 k) (getBits v 0 4) [.submit (bit v.toNat 4)] with busErr := false }))) ∧
    (s.modMapped x = true ↔ (pageFams p).isSome = true ∨ (s.variant = .zm60 ∧ p / 0x100 = 0x73)) ∧
    (regFlds x = none → p ≠ 0x4008 → s.regWrite x v false = s) ∧
    (s.variant = .zm60 → p / 0x100 = 0x73 → s.regWrite x v false = s) ∧
    (p ∈ [0x4006, 0x4007, 0x4009, 0x5004] → regFlds x = some fs → s.regWrite x v false = (s.plainWrite x v fs).1) ∧
    (let new := mergeFlds ((rwmModes x).contains s.mode) (s.regs.rd x) v fs
     let w : State := { s with regs := s.regs.wr x new }
     let may : Prop := hasRwm fs = false ∨ s.mode ∈ rwmModes x
     (s.legal (s.regs.wr x new) x = false → may → s.plainWrite x v fs = (s.illegalWrite x, false)) ∧
     (s.legal (s.regs.wr x new) x = true → may → s.plainWrite x v fs = (w, true)) ∧
     (s.legal (s.regs.wr x new) x = true → ¬ may → s.plainWrite x v fs = (w.notice 0x22 1 0 (w.regs.rd x), true)) ∧
     (s.legal (s.regs.wr x new) x = false → ¬ may → s.plainWrite x v fs = (s.notice 0x22 1 0 (s.regs.rd x), false))) ∧
    (regFlds x = some fs → (∀ f ∈ fs, f.lo + f.w ≤ 32) ∧ fs.Pairwise (fun f g => f.lo + f.w ≤ g.lo ∨ g.lo + g.w ≤ f.lo)) ∧
    ((∀ f ∈ fs, f.lo + f.w ≤ 32) → fs.Pairwise (fun f g => f.lo + f.w ≤ g.lo ∨ g.lo + g.w ≤ f.lo) → ∀ f ∈ fs,
      let r := getBits (mergeFlds rwm old v fs) f.lo f.w
      (f.acc = .rw → r = getBits v f.lo f.w) ∧ (f.acc = .rwm → r = if rwm then getBits v f.lo f.w else getBits old f.lo f.w) ∧
      (f.acc = .ro ∨ f.acc = .wo → r = getBits old f.lo f.w) ∧
      (∀ i, f.acc = .w1c → bit r i = (bit (getBits old f.lo f.w) i && !bit (getBits v f.lo f.w) i)) ∧
      (∀ i, f.acc = .w1s → bit r i = (bit (getBits old f.lo f.w) i || bit (getBits v f.lo f.w) i))) ∧
    (let q := c.val / 2
     let k := s.pairTask l.val q
     let op : CoreOp := .store sup (c.val % 2 == 1) x (leBytes size v.toNat)
     let idle : Prop := (∀ e ∈ (s.lane l.val).waitOps, e.2.1 ≠ c.val) ∧ s.mustWait l.val c.val false op = false ∧
       ∀ j, k = some j → s.g (RA_CTX_STATE l.val j) = csIdle
     let write := exec (.registerWrite (.core l c sup) a v size) s
     (s.coresRun l.val = false ∨ q ∈ (s.lane l.val).halted → write = .next s) ∧
     (s.coresRun l.val = true → q ∉ (s.lane l.val).halted →
       (∀ e ∈ (s.lane l.val).waitOps, e.2.1 = c.val → ∃ b : Bool, write = .next
         (({ s with busErr := b } : State).modLane l.val (fun y => { y with waitOps := y.waitOps ++ [(k, c.val, op)] }))) ∧
       (idle → ∀ cause e, s.mmuCheck l.val q x size .store sup = some (cause, e) → write = .next
         (({ s with busErr := cause == 3 || cause == 4 } : State).mmuFault l.val c.val k { cause := cause, access := 1, sup := sup, a := x, entry := e })) ∧
       (idle → s.mmuCheck l.val q x size .store sup = none → regionOf x ≠ .retained → write = .next
         (({ s with busErr := false } : State).directStore l k c.val sup (c.val % 2 == 1) x (leBytes size v.toNat))))) ∧
    (s.coresRun l.val = true → s.g (DM_STAT_STATE l.val n.val) = 1 →
      exec (.registerWrite (.dma l n) a v size) s = .next (({ s with busErr := true } : State).dmSuspend l.val n.val 4 1 x)) ∧
    (s.coresRun l.val = false ∨ s.g (DM_STAT_STATE l.val n.val) ≠ 1 → exec (.registerWrite (.dma l n) a v size) s = .next { s with busErr := true })

/-- The layout of an event record (R495): the fields of the 64 bytes by their offsets, the check word a CRC over the first 60; what a new record
holds: the next sequence number, operating time, power cycles, the synchronised time or 0, its source's fields and flags, no repeat;
what a repeat makes of it. -/
def Obligations.RecordsHaveTheirLayout : Prop :=
  ∀ (s : State) (r : EvRec) (e : EvIn) (now : Nat), r.data.length = 16 →
    (let b := r.bytes
     b.length = 64 ∧ leAt b 0 4 = r.seq % 2 ^ 32 ∧ leAt b 4 8 = r.opms % 2 ^ 64 ∧ leAt b 12 4 = r.pwrcyc % 2 ^ 32 ∧ leAt b 16 4 = r.ns % 2 ^ 32 ∧
     leAt b 20 4 = r.era % 2 ^ 32 ∧ leAt b 24 2 = r.source % 2 ^ 16 ∧ leAt b 26 2 = r.code % 2 ^ 16 ∧ byteAt b 28 = r.cls % 256 ∧
     byteAt b 29 = r.flags % 256 ∧ leAt b 30 2 = r.rep % 2 ^ 16 ∧ (b.drop 32).take 16 = r.data ∧ leAt b 48 4 = r.lastdms % 2 ^ 32 ∧
     leAt b 52 4 = r.seq % 2 ^ 32 ∧ leAt b 56 4 = 0 ∧ leAt b 60 4 = crc32 (b.take 60) % 2 ^ 32) ∧
    crc32 [0x31, 0x32, 0x33, 0x34, 0x35, 0x36, 0x37, 0x38, 0x39] = 0xCBF43926 ∧
    (∃ x : EvRec, (s.stageRec e).ev = { s.ev with staged := s.ev.staged ++ [x], nextSeq := seqNext s.ev.nextSeq } ∧
      x.seq = s.ev.nextSeq ∧ x.opms = s.opms ∧ x.pwrcyc = s.g LC_PWRCYC_COUNT ∧ x.ns = (if s.sync then s.g TU_NS_NS else 0) ∧
      x.era = (if s.sync then s.g TU_ERA_ERA else 0) ∧ x.source = e.source ∧ x.code = e.code ∧ x.cls = e.cls ∧
      bit x.flags 0 = s.sync ∧ bit x.flags 1 = e.forced ∧ bit x.flags 2 = e.esc ∧ x.flags < 8 ∧ x.rep = 0 ∧ x.lastdms = 0 ∧
      x.data = padTo 16 e.data) ∧
    (let f := r.fold now
     (r.rep < 65535 → f.rep = r.rep + 1 ∧ f.flags = r.flags) ∧ (r.rep = 65535 → f.rep = 65535 ∧ bit f.flags 3 = true) ∧
     f.lastdms = min (now - r.opms) 0xFFFFFFFF ∧ f.seq = r.seq ∧ f.opms = r.opms ∧ f.data = r.data ∧ f.source = r.source ∧ f.code = r.code ∧ f.cls = r.cls)
end

