-- ==== Sys2Proof/Laws/Tab.lean ====
section
/-! SUPPORT. Sparse tables and byte memories: what a read after a write gives, and that every operation keeps the canonical form. -/

namespace Sys2Proof.Machine

variable {α : Type}

@[simp] theorem tabGet_tabIns_same (d : Nat → α) (t : Tab α) (k : Nat) (v : α) : tabGet d (tabIns t k v) k = v := by
  induction t with
  | nil => simp [tabIns, tabGet]
  | cons e t ih =>
    obtain ⟨j, x⟩ := e
    simp only [tabIns]
    split
    · simp [tabGet]
    · split
      · simp [tabGet]
      · rename_i h; simp [tabGet, h, ih]

theorem tabGet_tabIns_ne (d : Nat → α) (t : Tab α) {k a : Nat} (v : α) (h : a ≠ k) :
    tabGet d (tabIns t k v) a = tabGet d t a := by
  have hk : ¬ k = a := fun e => h e.symm
  induction t with
  | nil => simp [tabIns, tabGet, hk]
  | cons e t ih =>
    obtain ⟨j, x⟩ := e
    simp only [tabIns]
    split
    · simp [tabGet, hk]
    · split
      · rename_i e; subst e; simp [tabGet, hk]
      · simp [tabGet, ih]

@[simp] theorem tabGet_tabDel_same (d : Nat → α) (t : Tab α) (k : Nat) : tabGet d (tabDel t k) k = d k := by
  induction t with
  | nil => rfl
  | cons e t ih =>
    obtain ⟨j, x⟩ := e
    simp only [tabDel]
    split
    · exact ih
    · rename_i h; simp [tabGet, h, ih]

theorem tabGet_tabDel_ne (d : Nat → α) (t : Tab α) {k a : Nat} (h : a ≠ k) : tabGet d (tabDel t k) a = tabGet d t a := by
  have hk : ¬ k = a := fun e => h e.symm
  induction t with
  | nil => rfl
  | cons e t ih =>
    obtain ⟨j, x⟩ := e
    simp only [tabDel]
    split
    · rename_i e; subst e; simp [tabGet, hk, ih]
    · simp [tabGet, ih]

/-- A read of the key just written. -/
@[simp] theorem tabGet_tabSet_same [DecidableEq α] (d : Nat → α) (t : Tab α) (k : Nat) (v : α) : tabGet d (tabSet d t k v) k = v := by
  simp only [tabSet]
  split
  · rename_i h; simp [h]
  · simp

/-- A write leaves every other key. -/
theorem tabGet_tabSet_ne [DecidableEq α] (d : Nat → α) (t : Tab α) {k a : Nat} (v : α) (h : a ≠ k) :
    tabGet d (tabSet d t k v) a = tabGet d t a := by
  simp only [tabSet]
  split
  · exact tabGet_tabDel_ne d t h
  · exact tabGet_tabIns_ne d t v h

/-! ### Canonical form -/

theorem tabSorted_weaken {t : Tab α} {lo hi : Nat} (hle : lo ≤ hi) (h : tabSorted hi t = true) : tabSorted lo t = true := by
  cases t with
  | nil => rfl
  | cons e t => obtain ⟨j, x⟩ := e; simp only [tabSorted, Bool.and_eq_true, decide_eq_true_eq] at h ⊢; exact ⟨by omega, h.2⟩

theorem tabSorted_del {t : Tab α} {lo k : Nat} (h : tabSorted lo t = true) : tabSorted lo (tabDel t k) = true := by
  induction t generalizing lo with
  | nil => rfl
  | cons e t ih =>
    obtain ⟨j, x⟩ := e
    simp only [tabSorted, Bool.and_eq_true, decide_eq_true_eq] at h
    simp only [tabDel]
    split
    · exact ih (tabSorted_weaken (by omega) h.2)
    · simp only [tabSorted, Bool.and_eq_true, decide_eq_true_eq]; exact ⟨h.1, ih h.2⟩

theorem tabSorted_ins {t : Tab α} {lo k : Nat} {v : α} (hk : lo ≤ k) (h : tabSorted lo t = true) : tabSorted lo (tabIns t k v) = true := by
  induction t generalizing lo with
  | nil => simp [tabIns, tabSorted, hk]
  | cons e t ih =>
    obtain ⟨j, x⟩ := e
    simp only [tabSorted, Bool.and_eq_true, decide_eq_true_eq] at h
    simp only [tabIns]
    split
    · simp only [tabSorted, Bool.and_eq_true, decide_eq_true_eq]; exact ⟨hk, by omega, h.2⟩
    · split
      · rename_i e; subst e; simp only [tabSorted, Bool.and_eq_true, decide_eq_true_eq]; exact ⟨hk, h.2⟩
      · simp only [tabSorted, Bool.and_eq_true, decide_eq_true_eq]; exact ⟨h.1, ih (by omega) h.2⟩

theorem mem_tabDel {t : Tab α} {k : Nat} {e : Nat × α} (h : e ∈ tabDel t k) : e ∈ t := by
  induction t with
  | nil => exact h
  | cons f t ih =>
    obtain ⟨j, x⟩ := f
    simp only [tabDel] at h
    split at h
    · exact List.mem_cons_of_mem _ (ih h)
    · rcases List.mem_cons.1 h with h | h
      · exact h ▸ List.mem_cons_self
      · exact List.mem_cons_of_mem _ (ih h)

theorem mem_tabIns {t : Tab α} {k : Nat} {v : α} {e : Nat × α} (h : e ∈ tabIns t k v) : e = (k, v) ∨ e ∈ t := by
  induction t with
  | nil => simpa [tabIns] using h
  | cons f t ih =>
    obtain ⟨j, x⟩ := f
    simp only [tabIns] at h
    split at h
    · simpa using h
    · split at h
      · rcases List.mem_cons.1 h with h | h
        · exact .inl h
        · exact .inr (List.mem_cons_of_mem _ h)
      · rcases List.mem_cons.1 h with h | h
        · exact .inr (h ▸ List.mem_cons_self)
        · rcases ih h with h | h
          · exact .inl h
          · exact .inr (List.mem_cons_of_mem _ h)

/-- A write keeps the canonical form. -/
theorem tabWf_tabSet [DecidableEq α] {d : Nat → α} {t : Tab α} (k : Nat) (v : α) (h : tabWf d t = true) : tabWf d (tabSet d t k v) = true := by
  simp only [tabWf, Bool.and_eq_true, List.all_eq_true, decide_eq_true_eq] at h ⊢
  simp only [tabSet]
  split
  · exact ⟨tabSorted_del h.1, fun e he => h.2 e (mem_tabDel he)⟩
  · rename_i hv
    refine ⟨tabSorted_ins (Nat.zero_le _) h.1, fun e he => ?_⟩
    rcases mem_tabIns he with he | he
    · subst he; exact hv
    · exact h.2 e he

theorem tabSorted_filter {t : Tab α} {lo : Nat} (p : Nat × α → Bool) (h : tabSorted lo t = true) : tabSorted lo (t.filter p) = true := by
  induction t generalizing lo with
  | nil => rfl
  | cons e t ih =>
    obtain ⟨j, x⟩ := e
    simp only [tabSorted, Bool.and_eq_true, decide_eq_true_eq] at h
    simp only [List.filter]
    split
    · simp only [tabSorted, Bool.and_eq_true, decide_eq_true_eq]; exact ⟨h.1, ih h.2⟩
    · exact ih (tabSorted_weaken (by omega) h.2)

/-- Entries removed keep the canonical form. -/
theorem tabWf_filter [DecidableEq α] {d : Nat → α} {t : Tab α} (p : Nat × α → Bool) (h : tabWf d t = true) : tabWf d (t.filter p) = true := by
  simp only [tabWf, Bool.and_eq_true, List.all_eq_true, decide_eq_true_eq] at h ⊢
  exact ⟨tabSorted_filter p h.1, fun e he => h.2 e (List.mem_filter.1 he).1⟩

/-! ### Byte memories -/

@[simp] theorem Mem.rd_wr_same (m : Mem) (a : Nat) (b : Byte) : (m.wr a b).rd a = b := tabGet_tabSet_same _ _ _ _

theorem Mem.rd_wr_ne (m : Mem) {k a : Nat} (b : Byte) (h : a ≠ k) : (m.wr k b).rd a = m.rd a := tabGet_tabSet_ne _ _ _ h

/-- A write of bytes leaves every byte outside them. -/
theorem Mem.rd_wrL_out (m : Mem) (a : Nat) (bs : List Byte) (k : Nat) (h : k < a ∨ a + bs.length ≤ k) : (m.wrL a bs).rd k = m.rd k := by
  induction bs generalizing m a with
  | nil => rfl
  | cons b bs ih =>
    simp only [Mem.wrL]
    simp only [List.length_cons] at h
    rw [ih _ _ (by omega), Mem.rd_wr_ne _ _ (by omega)]

/-- The bytes just written read back. -/
theorem Mem.rd_wrL_in (m : Mem) (a : Nat) (bs : List Byte) (i : Nat) (h : i < bs.length) : (m.wrL a bs).rd (a + i) = bs[i] := by
  induction bs generalizing m a i with
  | nil => simp at h
  | cons b bs ih =>
    simp only [Mem.wrL]
    cases i with
    | zero => rw [Nat.add_zero, Mem.rd_wrL_out _ _ _ _ (.inl (by omega))]; simp
    | succ i =>
      have := ih (m.wr a b) (a + 1) i (by simpa using h)
      rw [show a + (i + 1) = a + 1 + i by omega, this]; simp

theorem Memory.wf_wr {m : Mem} (h : Memory.wf m = true) (a : Nat) (b : Byte) : Memory.wf (m.wr a b) = true := tabWf_tabSet a b h

theorem Memory.wf_wrL {m : Mem} (h : Memory.wf m = true) (a : Nat) (bs : List Byte) : Memory.wf (m.wrL a bs) = true := by
  induction bs generalizing m a with
  | nil => exact h
  | cons b bs ih => exact ih (Memory.wf_wr h a b) (a + 1)

theorem Memory.wf_filter {m : Mem} (h : Memory.wf m = true) (p : Nat × Byte → Bool) : Memory.wf (m.filter p) = true := tabWf_filter p h

theorem Memory.wf_wipe {m : Mem} (h : Memory.wf m = true) (lo hi : Nat) : Memory.wf (m.wipe lo hi) = true := Memory.wf_filter h _

theorem Memory.wf_nil : Memory.wf [] = true := rfl

end Sys2Proof.Machine
end

