-- ==== Sys2Proof/Laws/Regs.lean ====
section
/-! SUPPORT. Register fields: what a field reads after a field is set. -/

namespace Sys2Proof.Machine

/-- A field lies within one word. -/
def Fld.fits (f : Fld) : Prop := f.lo + f.w ≤ 32

theorem toNat_putBits (x : Word) (lo w v : Nat) (h : lo + w ≤ 32) (i : Nat) :
    (putBits x lo w v).getLsbD i = (if lo ≤ i ∧ i < lo + w then v.testBit (i - lo) else x.getLsbD i) := by
  simp only [putBits, BitVec.getLsbD_or, BitVec.getLsbD_and, BitVec.getLsbD_not, BitVec.getLsbD_shiftLeft, BitVec.getLsbD_ofNat]
  by_cases hi : i < 32
  · by_cases hlo : lo ≤ i
    · have h1 : ¬ i < lo := by omega
      by_cases hw : i < lo + w
      · have h2 : i - lo < w := by omega
        have h3 : i - lo < 32 := by omega
        simp [hi, h1, hlo, hw, h2, h3, Nat.testBit_two_pow_sub_one, Nat.testBit_mod_two_pow]
      · have h2 : ¬ i - lo < w := by omega
        simp [hi, h1, hw, h2, Nat.testBit_two_pow_sub_one, Nat.testBit_mod_two_pow]
    · have h1 : i < lo := by omega
      have h2 : ¬ (lo ≤ i ∧ i < lo + w) := by omega
      simp [hi, h1, h2]
  · have h2 : ¬ (lo ≤ i ∧ i < lo + w) := by omega
    have h3 : x.getLsbD i = false := BitVec.getLsbD_of_ge x i (by omega)
    simp [hi, h2, h3]

theorem testBit_getBits (x : Word) (lo w i : Nat) : (getBits x lo w).testBit i = (decide (i < w) && x.getLsbD (lo + i)) := by
  simp [getBits, Nat.testBit_mod_two_pow, Nat.testBit_shiftRight, BitVec.getLsbD]

theorem getBits_putBits_same (x : Word) (lo w v : Nat) (h : lo + w ≤ 32) : getBits (putBits x lo w v) lo w = v % 2 ^ w := by
  apply Nat.eq_of_testBit_eq
  intro i
  rw [testBit_getBits, toNat_putBits _ _ _ _ h, Nat.testBit_mod_two_pow]
  by_cases hi : i < w
  · have : lo ≤ lo + i ∧ lo + i < lo + w := by omega
    simp [hi, this]
  · simp [hi]

theorem getBits_putBits_apart (x : Word) (lo w v lo' w' : Nat) (h : lo + w ≤ 32) (d : lo + w ≤ lo' ∨ lo' + w' ≤ lo) :
    getBits (putBits x lo w v) lo' w' = getBits x lo' w' := by
  apply Nat.eq_of_testBit_eq
  intro i
  rw [testBit_getBits, testBit_getBits, toNat_putBits _ _ _ _ h]
  by_cases hi : i < w'
  · have : ¬ (lo ≤ lo' + i ∧ lo' + i < lo + w) := by omega
    simp [hi, this]
  · simp [hi]

@[simp] theorem Regs.rd_wr_same (r : Regs) (a : Nat) (v : Word) : (r.wr a v).rd a = v := tabGet_tabSet_same _ _ _ _

theorem Regs.rd_wr_ne (r : Regs) {k a : Nat} (v : Word) (h : a ≠ k) : (r.wr k v).rd a = r.rd a := tabGet_tabSet_ne _ _ _ h

/-- A field just set. -/
theorem Regs.g_p_same (r : Regs) (f : Fld) (v : Nat) (h : f.lo + f.w ≤ 32) : (r.p f v).g f = v % 2 ^ f.w := by
  simp [Regs.g, Regs.p, getBits_putBits_same _ _ _ _ h]

/-- A register other than the one set. -/
theorem Regs.rd_p_ne (r : Regs) {f : Fld} {a : Nat} (v : Nat) (h : a ≠ f.reg) : (r.p f v).rd a = r.rd a := Regs.rd_wr_ne _ _ h

/-- A field of another register. -/
theorem Regs.g_p_reg (r : Regs) {f f' : Fld} (v : Nat) (h : f'.reg ≠ f.reg) : (r.p f v).g f' = r.g f' := by
  simp [Regs.g, Regs.rd_p_ne r v h]

/-- Another field of the same register. -/
theorem Regs.g_p_apart (r : Regs) {f f' : Fld} (v : Nat) (h : f.lo + f.w ≤ 32) (d : f.lo + f.w ≤ f'.lo ∨ f'.lo + f'.w ≤ f.lo) :
    (r.p f v).g f' = r.g f' := by
  by_cases e : f'.reg = f.reg
  · simp [Regs.g, Regs.p, e, getBits_putBits_apart _ _ _ _ _ _ h d]
  · exact Regs.g_p_reg r v e

theorem State.g_p_same (s : State) (f : Fld) (v : Nat) (h : f.lo + f.w ≤ 32) : (s.p f v).g f = v % 2 ^ f.w := Regs.g_p_same _ _ _ h

theorem State.g_p_reg (s : State) {f f' : Fld} (v : Nat) (h : f'.reg ≠ f.reg) : (s.p f v).g f' = s.g f' := Regs.g_p_reg _ _ h

theorem State.g_p_apart (s : State) {f f' : Fld} (v : Nat) (h : f.lo + f.w ≤ 32) (d : f.lo + f.w ≤ f'.lo ∨ f'.lo + f'.w ≤ f.lo) :
    (s.p f v).g f' = s.g f' := Regs.g_p_apart _ _ h d

theorem State.rd_p_ne (s : State) {f : Fld} {a : Nat} (v : Nat) (h : a ≠ f.reg) : (s.p f v).regs.rd a = s.regs.rd a := Regs.rd_p_ne _ _ h

/-- A one-bit field just set from a Bool. -/
theorem State.on_pb_same (s : State) (f : Fld) (b : Bool) (h : f.lo + f.w ≤ 32) (w : f.w = 1) : (s.pb f b).on f = b := by
  unfold State.on State.pb
  rw [State.g_p_same _ _ _ h, w]
  cases b <;> rfl

theorem getBits_lt (x : Word) (lo w : Nat) : getBits x lo w < 2 ^ w := Nat.mod_lt _ (Nat.two_pow_pos w)

theorem State.g_lt (s : State) (f : Fld) : s.g f < 2 ^ f.w := getBits_lt _ _ _

end Sys2Proof.Machine
end

