-- ==== Sys2Proof/Laws/State.lean ====
section
/-! SUPPORT. The fields of the state after each elementary update. -/

namespace Sys2Proof.Machine

@[simp] theorem State.p_pending (s : State) (f : Fld) (v : Nat) : (s.p f v).pending = s.pending := rfl
@[simp] theorem State.p_variant (s : State) (f : Fld) (v : Nat) : (s.p f v).variant = s.variant := rfl
@[simp] theorem State.p_free (s : State) (f : Fld) (v : Nat) : (s.p f v).free = s.free := rfl
@[simp] theorem State.p_busErr (s : State) (f : Fld) (v : Nat) : (s.p f v).busErr = s.busErr := rfl
@[simp] theorem State.p_tx (s : State) (f : Fld) (v : Nat) : (s.p f v).tx = s.tx := rfl
@[simp] theorem State.p_ev (s : State) (f : Fld) (v : Nat) : (s.p f v).ev = s.ev := rfl
@[simp] theorem State.p_fc (s : State) (f : Fld) (v : Nat) : (s.p f v).fc = s.fc := rfl
@[simp] theorem State.p_sess (s : State) (f : Fld) (v : Nat) : (s.p f v).sess = s.sess := rfl
@[simp] theorem State.p_mb (s : State) (f : Fld) (v : Nat) : (s.p f v).mb = s.mb := rfl
@[simp] theorem State.p_waiting (s : State) (f : Fld) (v : Nat) : (s.p f v).waiting = s.waiting := rfl
@[simp] theorem State.p_queued (s : State) (f : Fld) (v : Nat) : (s.p f v).queued = s.queued := rfl
@[simp] theorem State.p_streams (s : State) (f : Fld) (v : Nat) : (s.p f v).streams = s.streams := rfl
@[simp] theorem State.p_votes (s : State) (f : Fld) (v : Nat) : (s.p f v).votes = s.votes := rfl
@[simp] theorem State.p_laneA (s : State) (f : Fld) (v : Nat) : (s.p f v).laneA = s.laneA := rfl
@[simp] theorem State.p_laneB (s : State) (f : Fld) (v : Nat) : (s.p f v).laneB = s.laneB := rfl
@[simp] theorem State.p_laneC (s : State) (f : Fld) (v : Nat) : (s.p f v).laneC = s.laneC := rfl
@[simp] theorem State.p_laneD (s : State) (f : Fld) (v : Nat) : (s.p f v).laneD = s.laneD := rfl
@[simp] theorem State.p_links (s : State) (f : Fld) (v : Nat) : (s.p f v).links = s.links := rfl
@[simp] theorem State.p_app (s : State) (f : Fld) (v : Nat) : (s.p f v).app = s.app := rfl
@[simp] theorem State.p_tu (s : State) (f : Fld) (v : Nat) : (s.p f v).tu = s.tu := rfl
@[simp] theorem State.p_ring1 (s : State) (f : Fld) (v : Nat) : (s.p f v).ring1 = s.ring1 := rfl
@[simp] theorem State.p_ring2 (s : State) (f : Fld) (v : Nat) : (s.p f v).ring2 = s.ring2 := rfl
@[simp] theorem State.p_parts (s : State) (f : Fld) (v : Nat) : (s.p f v).parts = s.parts := rfl
@[simp] theorem State.p_backlog (s : State) (f : Fld) (v : Nat) : (s.p f v).backlog = s.backlog := rfl
@[simp] theorem State.p_transit (s : State) (f : Fld) (v : Nat) : (s.p f v).transit = s.transit := rfl
@[simp] theorem State.p_netOut (s : State) (f : Fld) (v : Nat) : (s.p f v).netOut = s.netOut := rfl
@[simp] theorem State.p_netUsed (s : State) (f : Fld) (v : Nat) : (s.p f v).netUsed = s.netUsed := rfl
@[simp] theorem State.p_eth (s : State) (f : Fld) (v : Nat) : (s.p f v).eth = s.eth := rfl
@[simp] theorem State.p_rb (s : State) (f : Fld) (v : Nat) : (s.p f v).rb = s.rb := rfl
@[simp] theorem State.p_fd (s : State) (f : Fld) (v : Nat) : (s.p f v).fd = s.fd := rfl
@[simp] theorem State.p_an (s : State) (f : Fld) (v : Nat) : (s.p f v).an = s.an := rfl
@[simp] theorem State.p_sf (s : State) (f : Fld) (v : Nat) : (s.p f v).sf = s.sf := rfl
@[simp] theorem State.p_sc (s : State) (f : Fld) (v : Nat) : (s.p f v).sc = s.sc := rfl
@[simp] theorem State.p_cfg (s : State) (f : Fld) (v : Nat) : (s.p f v).cfg = s.cfg := rfl
@[simp] theorem State.p_up (s : State) (f : Fld) (v : Nat) : (s.p f v).up = s.up := rfl
@[simp] theorem State.p_un (s : State) (f : Fld) (v : Nat) : (s.p f v).un = s.un := rfl
@[simp] theorem State.p_keys (s : State) (f : Fld) (v : Nat) : (s.p f v).keys = s.keys := rfl
@[simp] theorem State.p_sb (s : State) (f : Fld) (v : Nat) : (s.p f v).sb = s.sb := rfl
@[simp] theorem State.p_pw (s : State) (f : Fld) (v : Nat) : (s.p f v).pw = s.pw := rfl
@[simp] theorem State.p_dbg (s : State) (f : Fld) (v : Nat) : (s.p f v).dbg = s.dbg := rfl
@[simp] theorem State.pb_pending (s : State) (f : Fld) (b : Bool) : (s.pb f b).pending = s.pending := rfl
@[simp] theorem State.pb_variant (s : State) (f : Fld) (b : Bool) : (s.pb f b).variant = s.variant := rfl
@[simp] theorem State.pb_free (s : State) (f : Fld) (b : Bool) : (s.pb f b).free = s.free := rfl
@[simp] theorem State.pb_busErr (s : State) (f : Fld) (b : Bool) : (s.pb f b).busErr = s.busErr := rfl
@[simp] theorem State.pb_tx (s : State) (f : Fld) (b : Bool) : (s.pb f b).tx = s.tx := rfl
@[simp] theorem State.pb_ev (s : State) (f : Fld) (b : Bool) : (s.pb f b).ev = s.ev := rfl
@[simp] theorem State.pb_fc (s : State) (f : Fld) (b : Bool) : (s.pb f b).fc = s.fc := rfl
@[simp] theorem State.pb_sess (s : State) (f : Fld) (b : Bool) : (s.pb f b).sess = s.sess := rfl
@[simp] theorem State.pb_mb (s : State) (f : Fld) (b : Bool) : (s.pb f b).mb = s.mb := rfl
@[simp] theorem State.pb_waiting (s : State) (f : Fld) (b : Bool) : (s.pb f b).waiting = s.waiting := rfl
@[simp] theorem State.pb_queued (s : State) (f : Fld) (b : Bool) : (s.pb f b).queued = s.queued := rfl
@[simp] theorem State.pb_streams (s : State) (f : Fld) (b : Bool) : (s.pb f b).streams = s.streams := rfl
@[simp] theorem State.pb_votes (s : State) (f : Fld) (b : Bool) : (s.pb f b).votes = s.votes := rfl
@[simp] theorem State.pb_laneA (s : State) (f : Fld) (b : Bool) : (s.pb f b).laneA = s.laneA := rfl
@[simp] theorem State.pb_laneB (s : State) (f : Fld) (b : Bool) : (s.pb f b).laneB = s.laneB := rfl
@[simp] theorem State.pb_laneC (s : State) (f : Fld) (b : Bool) : (s.pb f b).laneC = s.laneC := rfl
@[simp] theorem State.pb_laneD (s : State) (f : Fld) (b : Bool) : (s.pb f b).laneD = s.laneD := rfl
@[simp] theorem State.pb_links (s : State) (f : Fld) (b : Bool) : (s.pb f b).links = s.links := rfl
@[simp] theorem State.pb_app (s : State) (f : Fld) (b : Bool) : (s.pb f b).app = s.app := rfl
@[simp] theorem State.pb_tu (s : State) (f : Fld) (b : Bool) : (s.pb f b).tu = s.tu := rfl
@[simp] theorem State.pb_ring1 (s : State) (f : Fld) (b : Bool) : (s.pb f b).ring1 = s.ring1 := rfl
@[simp] theorem State.pb_ring2 (s : State) (f : Fld) (b : Bool) : (s.pb f b).ring2 = s.ring2 := rfl
@[simp] theorem State.pb_parts (s : State) (f : Fld) (b : Bool) : (s.pb f b).parts = s.parts := rfl
@[simp] theorem State.pb_backlog (s : State) (f : Fld) (b : Bool) : (s.pb f b).backlog = s.backlog := rfl
@[simp] theorem State.pb_transit (s : State) (f : Fld) (b : Bool) : (s.pb f b).transit = s.transit := rfl
@[simp] theorem State.pb_netOut (s : State) (f : Fld) (b : Bool) : (s.pb f b).netOut = s.netOut := rfl
@[simp] theorem State.pb_netUsed (s : State) (f : Fld) (b : Bool) : (s.pb f b).netUsed = s.netUsed := rfl
@[simp] theorem State.pb_eth (s : State) (f : Fld) (b : Bool) : (s.pb f b).eth = s.eth := rfl
@[simp] theorem State.pb_rb (s : State) (f : Fld) (b : Bool) : (s.pb f b).rb = s.rb := rfl
@[simp] theorem State.pb_fd (s : State) (f : Fld) (b : Bool) : (s.pb f b).fd = s.fd := rfl
@[simp] theorem State.pb_an (s : State) (f : Fld) (b : Bool) : (s.pb f b).an = s.an := rfl
@[simp] theorem State.pb_sf (s : State) (f : Fld) (b : Bool) : (s.pb f b).sf = s.sf := rfl
@[simp] theorem State.pb_sc (s : State) (f : Fld) (b : Bool) : (s.pb f b).sc = s.sc := rfl
@[simp] theorem State.pb_cfg (s : State) (f : Fld) (b : Bool) : (s.pb f b).cfg = s.cfg := rfl
@[simp] theorem State.pb_up (s : State) (f : Fld) (b : Bool) : (s.pb f b).up = s.up := rfl
@[simp] theorem State.pb_un (s : State) (f : Fld) (b : Bool) : (s.pb f b).un = s.un := rfl
@[simp] theorem State.pb_keys (s : State) (f : Fld) (b : Bool) : (s.pb f b).keys = s.keys := rfl
@[simp] theorem State.pb_sb (s : State) (f : Fld) (b : Bool) : (s.pb f b).sb = s.sb := rfl
@[simp] theorem State.pb_pw (s : State) (f : Fld) (b : Bool) : (s.pb f b).pw = s.pw := rfl
@[simp] theorem State.pb_dbg (s : State) (f : Fld) (b : Bool) : (s.pb f b).dbg = s.dbg := rfl
@[simp] theorem State.inc_pending (s : State) (f : Fld) : (s.inc f).pending = s.pending := rfl
@[simp] theorem State.inc_variant (s : State) (f : Fld) : (s.inc f).variant = s.variant := rfl
@[simp] theorem State.inc_free (s : State) (f : Fld) : (s.inc f).free = s.free := rfl
@[simp] theorem State.inc_busErr (s : State) (f : Fld) : (s.inc f).busErr = s.busErr := rfl
@[simp] theorem State.inc_tx (s : State) (f : Fld) : (s.inc f).tx = s.tx := rfl
@[simp] theorem State.inc_ev (s : State) (f : Fld) : (s.inc f).ev = s.ev := rfl
@[simp] theorem State.inc_fc (s : State) (f : Fld) : (s.inc f).fc = s.fc := rfl
@[simp] theorem State.inc_sess (s : State) (f : Fld) : (s.inc f).sess = s.sess := rfl
@[simp] theorem State.inc_mb (s : State) (f : Fld) : (s.inc f).mb = s.mb := rfl
@[simp] theorem State.inc_waiting (s : State) (f : Fld) : (s.inc f).waiting = s.waiting := rfl
@[simp] theorem State.inc_queued (s : State) (f : Fld) : (s.inc f).queued = s.queued := rfl
@[simp] theorem State.inc_streams (s : State) (f : Fld) : (s.inc f).streams = s.streams := rfl
@[simp] theorem State.inc_votes (s : State) (f : Fld) : (s.inc f).votes = s.votes := rfl
@[simp] theorem State.inc_laneA (s : State) (f : Fld) : (s.inc f).laneA = s.laneA := rfl
@[simp] theorem State.inc_laneB (s : State) (f : Fld) : (s.inc f).laneB = s.laneB := rfl
@[simp] theorem State.inc_laneC (s : State) (f : Fld) : (s.inc f).laneC = s.laneC := rfl
@[simp] theorem State.inc_laneD (s : State) (f : Fld) : (s.inc f).laneD = s.laneD := rfl
@[simp] theorem State.inc_links (s : State) (f : Fld) : (s.inc f).links = s.links := rfl
@[simp] theorem State.inc_app (s : State) (f : Fld) : (s.inc f).app = s.app := rfl
@[simp] theorem State.inc_tu (s : State) (f : Fld) : (s.inc f).tu = s.tu := rfl
@[simp] theorem State.inc_ring1 (s : State) (f : Fld) : (s.inc f).ring1 = s.ring1 := rfl
@[simp] theorem State.inc_ring2 (s : State) (f : Fld) : (s.inc f).ring2 = s.ring2 := rfl
@[simp] theorem State.inc_parts (s : State) (f : Fld) : (s.inc f).parts = s.parts := rfl
@[simp] theorem State.inc_backlog (s : State) (f : Fld) : (s.inc f).backlog = s.backlog := rfl
@[simp] theorem State.inc_transit (s : State) (f : Fld) : (s.inc f).transit = s.transit := rfl
@[simp] theorem State.inc_netOut (s : State) (f : Fld) : (s.inc f).netOut = s.netOut := rfl
@[simp] theorem State.inc_netUsed (s : State) (f : Fld) : (s.inc f).netUsed = s.netUsed := rfl
@[simp] theorem State.inc_eth (s : State) (f : Fld) : (s.inc f).eth = s.eth := rfl
@[simp] theorem State.inc_rb (s : State) (f : Fld) : (s.inc f).rb = s.rb := rfl
@[simp] theorem State.inc_fd (s : State) (f : Fld) : (s.inc f).fd = s.fd := rfl
@[simp] theorem State.inc_an (s : State) (f : Fld) : (s.inc f).an = s.an := rfl
@[simp] theorem State.inc_sf (s : State) (f : Fld) : (s.inc f).sf = s.sf := rfl
@[simp] theorem State.inc_sc (s : State) (f : Fld) : (s.inc f).sc = s.sc := rfl
@[simp] theorem State.inc_cfg (s : State) (f : Fld) : (s.inc f).cfg = s.cfg := rfl
@[simp] theorem State.inc_up (s : State) (f : Fld) : (s.inc f).up = s.up := rfl
@[simp] theorem State.inc_un (s : State) (f : Fld) : (s.inc f).un = s.un := rfl
@[simp] theorem State.inc_keys (s : State) (f : Fld) : (s.inc f).keys = s.keys := rfl
@[simp] theorem State.inc_sb (s : State) (f : Fld) : (s.inc f).sb = s.sb := rfl
@[simp] theorem State.inc_pw (s : State) (f : Fld) : (s.inc f).pw = s.pw := rfl
@[simp] theorem State.inc_dbg (s : State) (f : Fld) : (s.inc f).dbg = s.dbg := rfl

theorem State.setLane_cases (s : State) (l : Nat) (x : LaneSt) :
    s.setLane l x = { s with laneA := x } ∨ s.setLane l x = { s with laneB := x } ∨ s.setLane l x = { s with laneC := x } ∨
    s.setLane l x = { s with laneD := x } := by
  unfold State.setLane; split <;> simp

@[simp] theorem State.setLane_regs (s : State) (l : Nat) (x : LaneSt) : (s.setLane l x).regs = s.regs := by unfold State.setLane; split <;> rfl
@[simp] theorem State.setLane_pending (s : State) (l : Nat) (x : LaneSt) : (s.setLane l x).pending = s.pending := by unfold State.setLane; split <;> rfl
@[simp] theorem State.setLane_variant (s : State) (l : Nat) (x : LaneSt) : (s.setLane l x).variant = s.variant := by unfold State.setLane; split <;> rfl
@[simp] theorem State.setLane_free (s : State) (l : Nat) (x : LaneSt) : (s.setLane l x).free = s.free := by unfold State.setLane; split <;> rfl
@[simp] theorem State.setLane_busErr (s : State) (l : Nat) (x : LaneSt) : (s.setLane l x).busErr = s.busErr := by unfold State.setLane; split <;> rfl
@[simp] theorem State.setLane_tx (s : State) (l : Nat) (x : LaneSt) : (s.setLane l x).tx = s.tx := by unfold State.setLane; split <;> rfl
@[simp] theorem State.setLane_ev (s : State) (l : Nat) (x : LaneSt) : (s.setLane l x).ev = s.ev := by unfold State.setLane; split <;> rfl
@[simp] theorem State.setLane_fc (s : State) (l : Nat) (x : LaneSt) : (s.setLane l x).fc = s.fc := by unfold State.setLane; split <;> rfl
@[simp] theorem State.setLane_sess (s : State) (l : Nat) (x : LaneSt) : (s.setLane l x).sess = s.sess := by unfold State.setLane; split <;> rfl
@[simp] theorem State.setLane_mb (s : State) (l : Nat) (x : LaneSt) : (s.setLane l x).mb = s.mb := by unfold State.setLane; split <;> rfl
@[simp] theorem State.setLane_waiting (s : State) (l : Nat) (x : LaneSt) : (s.setLane l x).waiting = s.waiting := by unfold State.setLane; split <;> rfl
@[simp] theorem State.setLane_queued (s : State) (l : Nat) (x : LaneSt) : (s.setLane l x).queued = s.queued := by unfold State.setLane; split <;> rfl
@[simp] theorem State.setLane_streams (s : State) (l : Nat) (x : LaneSt) : (s.setLane l x).streams = s.streams := by unfold State.setLane; split <;> rfl
@[simp] theorem State.setLane_votes (s : State) (l : Nat) (x : LaneSt) : (s.setLane l x).votes = s.votes := by unfold State.setLane; split <;> rfl
@[simp] theorem State.setLane_links (s : State) (l : Nat) (x : LaneSt) : (s.setLane l x).links = s.links := by unfold State.setLane; split <;> rfl
@[simp] theorem State.setLane_app (s : State) (l : Nat) (x : LaneSt) : (s.setLane l x).app = s.app := by unfold State.setLane; split <;> rfl
@[simp] theorem State.setLane_tu (s : State) (l : Nat) (x : LaneSt) : (s.setLane l x).tu = s.tu := by unfold State.setLane; split <;> rfl
@[simp] theorem State.setLane_ring1 (s : State) (l : Nat) (x : LaneSt) : (s.setLane l x).ring1 = s.ring1 := by unfold State.setLane; split <;> rfl
@[simp] theorem State.setLane_ring2 (s : State) (l : Nat) (x : LaneSt) : (s.setLane l x).ring2 = s.ring2 := by unfold State.setLane; split <;> rfl
@[simp] theorem State.setLane_parts (s : State) (l : Nat) (x : LaneSt) : (s.setLane l x).parts = s.parts := by unfold State.setLane; split <;> rfl
@[simp] theorem State.setLane_backlog (s : State) (l : Nat) (x : LaneSt) : (s.setLane l x).backlog = s.backlog := by unfold State.setLane; split <;> rfl
@[simp] theorem State.setLane_transit (s : State) (l : Nat) (x : LaneSt) : (s.setLane l x).transit = s.transit := by unfold State.setLane; split <;> rfl
@[simp] theorem State.setLane_netOut (s : State) (l : Nat) (x : LaneSt) : (s.setLane l x).netOut = s.netOut := by unfold State.setLane; split <;> rfl
@[simp] theorem State.setLane_netUsed (s : State) (l : Nat) (x : LaneSt) : (s.setLane l x).netUsed = s.netUsed := by unfold State.setLane; split <;> rfl
@[simp] theorem State.setLane_eth (s : State) (l : Nat) (x : LaneSt) : (s.setLane l x).eth = s.eth := by unfold State.setLane; split <;> rfl
@[simp] theorem State.setLane_rb (s : State) (l : Nat) (x : LaneSt) : (s.setLane l x).rb = s.rb := by unfold State.setLane; split <;> rfl
@[simp] theorem State.setLane_fd (s : State) (l : Nat) (x : LaneSt) : (s.setLane l x).fd = s.fd := by unfold State.setLane; split <;> rfl
@[simp] theorem State.setLane_an (s : State) (l : Nat) (x : LaneSt) : (s.setLane l x).an = s.an := by unfold State.setLane; split <;> rfl
@[simp] theorem State.setLane_sf (s : State) (l : Nat) (x : LaneSt) : (s.setLane l x).sf = s.sf := by unfold State.setLane; split <;> rfl
@[simp] theorem State.setLane_sc (s : State) (l : Nat) (x : LaneSt) : (s.setLane l x).sc = s.sc := by unfold State.setLane; split <;> rfl
@[simp] theorem State.setLane_cfg (s : State) (l : Nat) (x : LaneSt) : (s.setLane l x).cfg = s.cfg := by unfold State.setLane; split <;> rfl
@[simp] theorem State.setLane_up (s : State) (l : Nat) (x : LaneSt) : (s.setLane l x).up = s.up := by unfold State.setLane; split <;> rfl
@[simp] theorem State.setLane_un (s : State) (l : Nat) (x : LaneSt) : (s.setLane l x).un = s.un := by unfold State.setLane; split <;> rfl
@[simp] theorem State.setLane_keys (s : State) (l : Nat) (x : LaneSt) : (s.setLane l x).keys = s.keys := by unfold State.setLane; split <;> rfl
@[simp] theorem State.setLane_sb (s : State) (l : Nat) (x : LaneSt) : (s.setLane l x).sb = s.sb := by unfold State.setLane; split <;> rfl
@[simp] theorem State.setLane_pw (s : State) (l : Nat) (x : LaneSt) : (s.setLane l x).pw = s.pw := by unfold State.setLane; split <;> rfl
@[simp] theorem State.setLane_dbg (s : State) (l : Nat) (x : LaneSt) : (s.setLane l x).dbg = s.dbg := by unfold State.setLane; split <;> rfl
@[simp] theorem State.modLane_regs (s : State) (l : Nat) (f : LaneSt → LaneSt) : (s.modLane l f).regs = s.regs := State.setLane_regs _ _ _
@[simp] theorem State.modLane_pending (s : State) (l : Nat) (f : LaneSt → LaneSt) : (s.modLane l f).pending = s.pending := State.setLane_pending _ _ _
@[simp] theorem State.modLane_variant (s : State) (l : Nat) (f : LaneSt → LaneSt) : (s.modLane l f).variant = s.variant := State.setLane_variant _ _ _
@[simp] theorem State.modLane_free (s : State) (l : Nat) (f : LaneSt → LaneSt) : (s.modLane l f).free = s.free := State.setLane_free _ _ _
@[simp] theorem State.modLane_busErr (s : State) (l : Nat) (f : LaneSt → LaneSt) : (s.modLane l f).busErr = s.busErr := State.setLane_busErr _ _ _
@[simp] theorem State.modLane_tx (s : State) (l : Nat) (f : LaneSt → LaneSt) : (s.modLane l f).tx = s.tx := State.setLane_tx _ _ _
@[simp] theorem State.modLane_ev (s : State) (l : Nat) (f : LaneSt → LaneSt) : (s.modLane l f).ev = s.ev := State.setLane_ev _ _ _
@[simp] theorem State.modLane_fc (s : State) (l : Nat) (f : LaneSt → LaneSt) : (s.modLane l f).fc = s.fc := State.setLane_fc _ _ _
@[simp] theorem State.modLane_sess (s : State) (l : Nat) (f : LaneSt → LaneSt) : (s.modLane l f).sess = s.sess := State.setLane_sess _ _ _
@[simp] theorem State.modLane_mb (s : State) (l : Nat) (f : LaneSt → LaneSt) : (s.modLane l f).mb = s.mb := State.setLane_mb _ _ _
@[simp] theorem State.modLane_waiting (s : State) (l : Nat) (f : LaneSt → LaneSt) : (s.modLane l f).waiting = s.waiting := State.setLane_waiting _ _ _
@[simp] theorem State.modLane_queued (s : State) (l : Nat) (f : LaneSt → LaneSt) : (s.modLane l f).queued = s.queued := State.setLane_queued _ _ _
@[simp] theorem State.modLane_streams (s : State) (l : Nat) (f : LaneSt → LaneSt) : (s.modLane l f).streams = s.streams := State.setLane_streams _ _ _
@[simp] theorem State.modLane_votes (s : State) (l : Nat) (f : LaneSt → LaneSt) : (s.modLane l f).votes = s.votes := State.setLane_votes _ _ _
@[simp] theorem State.modLane_links (s : State) (l : Nat) (f : LaneSt → LaneSt) : (s.modLane l f).links = s.links := State.setLane_links _ _ _
@[simp] theorem State.modLane_app (s : State) (l : Nat) (f : LaneSt → LaneSt) : (s.modLane l f).app = s.app := State.setLane_app _ _ _
@[simp] theorem State.modLane_tu (s : State) (l : Nat) (f : LaneSt → LaneSt) : (s.modLane l f).tu = s.tu := State.setLane_tu _ _ _
@[simp] theorem State.modLane_ring1 (s : State) (l : Nat) (f : LaneSt → LaneSt) : (s.modLane l f).ring1 = s.ring1 := State.setLane_ring1 _ _ _
@[simp] theorem State.modLane_ring2 (s : State) (l : Nat) (f : LaneSt → LaneSt) : (s.modLane l f).ring2 = s.ring2 := State.setLane_ring2 _ _ _
@[simp] theorem State.modLane_parts (s : State) (l : Nat) (f : LaneSt → LaneSt) : (s.modLane l f).parts = s.parts := State.setLane_parts _ _ _
@[simp] theorem State.modLane_backlog (s : State) (l : Nat) (f : LaneSt → LaneSt) : (s.modLane l f).backlog = s.backlog := State.setLane_backlog _ _ _
@[simp] theorem State.modLane_transit (s : State) (l : Nat) (f : LaneSt → LaneSt) : (s.modLane l f).transit = s.transit := State.setLane_transit _ _ _
@[simp] theorem State.modLane_netOut (s : State) (l : Nat) (f : LaneSt → LaneSt) : (s.modLane l f).netOut = s.netOut := State.setLane_netOut _ _ _
@[simp] theorem State.modLane_netUsed (s : State) (l : Nat) (f : LaneSt → LaneSt) : (s.modLane l f).netUsed = s.netUsed := State.setLane_netUsed _ _ _
@[simp] theorem State.modLane_eth (s : State) (l : Nat) (f : LaneSt → LaneSt) : (s.modLane l f).eth = s.eth := State.setLane_eth _ _ _
@[simp] theorem State.modLane_rb (s : State) (l : Nat) (f : LaneSt → LaneSt) : (s.modLane l f).rb = s.rb := State.setLane_rb _ _ _
@[simp] theorem State.modLane_fd (s : State) (l : Nat) (f : LaneSt → LaneSt) : (s.modLane l f).fd = s.fd := State.setLane_fd _ _ _
@[simp] theorem State.modLane_an (s : State) (l : Nat) (f : LaneSt → LaneSt) : (s.modLane l f).an = s.an := State.setLane_an _ _ _
@[simp] theorem State.modLane_sf (s : State) (l : Nat) (f : LaneSt → LaneSt) : (s.modLane l f).sf = s.sf := State.setLane_sf _ _ _
@[simp] theorem State.modLane_sc (s : State) (l : Nat) (f : LaneSt → LaneSt) : (s.modLane l f).sc = s.sc := State.setLane_sc _ _ _
@[simp] theorem State.modLane_cfg (s : State) (l : Nat) (f : LaneSt → LaneSt) : (s.modLane l f).cfg = s.cfg := State.setLane_cfg _ _ _
@[simp] theorem State.modLane_up (s : State) (l : Nat) (f : LaneSt → LaneSt) : (s.modLane l f).up = s.up := State.setLane_up _ _ _
@[simp] theorem State.modLane_un (s : State) (l : Nat) (f : LaneSt → LaneSt) : (s.modLane l f).un = s.un := State.setLane_un _ _ _
@[simp] theorem State.modLane_keys (s : State) (l : Nat) (f : LaneSt → LaneSt) : (s.modLane l f).keys = s.keys := State.setLane_keys _ _ _
@[simp] theorem State.modLane_sb (s : State) (l : Nat) (f : LaneSt → LaneSt) : (s.modLane l f).sb = s.sb := State.setLane_sb _ _ _
@[simp] theorem State.modLane_pw (s : State) (l : Nat) (f : LaneSt → LaneSt) : (s.modLane l f).pw = s.pw := State.setLane_pw _ _ _
@[simp] theorem State.modLane_dbg (s : State) (l : Nat) (f : LaneSt → LaneSt) : (s.modLane l f).dbg = s.dbg := State.setLane_dbg _ _ _

/-- A lane's state just set; every number from 3 on is lane D. -/
@[simp] theorem State.lane_setLane_same (s : State) (l : Nat) (x : LaneSt) : (s.setLane l x).lane l = x := by
  unfold State.setLane; split <;> simp [State.lane]

theorem State.lane_setLane_ne (s : State) {l k : Nat} (x : LaneSt) (hl : l < 4) (hk : k < 4) (h : k ≠ l) :
    (s.setLane l x).lane k = s.lane k := by
  obtain rfl | rfl | rfl | rfl : l = 0 ∨ l = 1 ∨ l = 2 ∨ l = 3 := by omega
  all_goals obtain rfl | rfl | rfl | rfl : k = 0 ∨ k = 1 ∨ k = 2 ∨ k = 3 := by omega
  all_goals first | exact absurd rfl h | rfl

@[simp] theorem State.lane_modLane_same (s : State) (l : Nat) (f : LaneSt → LaneSt) : (s.modLane l f).lane l = f (s.lane l) :=
  State.lane_setLane_same _ _ _

@[simp] theorem State.lane_p (s : State) (f : Fld) (v l : Nat) : (s.p f v).lane l = s.lane l := by
  unfold State.lane; split <;> rfl

@[simp] theorem State.g_setLane (s : State) (l : Nat) (x : LaneSt) (f : Fld) : (s.setLane l x).g f = s.g f := by
  simp [State.g]

@[simp] theorem State.g_modLane (s : State) (l : Nat) (h : LaneSt → LaneSt) (f : Fld) : (s.modLane l h).g f = s.g f := by
  simp [State.g]

@[simp] theorem State.emit_regs (s : State) (x : TxItem) : (s.emit x).regs = s.regs := by unfold State.emit; split <;> rfl
@[simp] theorem State.emit_pending (s : State) (x : TxItem) : (s.emit x).pending = s.pending := by unfold State.emit; split <;> rfl
@[simp] theorem State.emit_variant (s : State) (x : TxItem) : (s.emit x).variant = s.variant := by unfold State.emit; split <;> rfl
@[simp] theorem State.emit_free (s : State) (x : TxItem) : (s.emit x).free = s.free := by unfold State.emit; split <;> rfl
@[simp] theorem State.emit_busErr (s : State) (x : TxItem) : (s.emit x).busErr = s.busErr := by unfold State.emit; split <;> rfl
@[simp] theorem State.emit_ev (s : State) (x : TxItem) : (s.emit x).ev = s.ev := by unfold State.emit; split <;> rfl
@[simp] theorem State.emit_fc (s : State) (x : TxItem) : (s.emit x).fc = s.fc := by unfold State.emit; split <;> rfl
@[simp] theorem State.emit_sess (s : State) (x : TxItem) : (s.emit x).sess = s.sess := by unfold State.emit; split <;> rfl
@[simp] theorem State.emit_mb (s : State) (x : TxItem) : (s.emit x).mb = s.mb := by unfold State.emit; split <;> rfl
@[simp] theorem State.emit_waiting (s : State) (x : TxItem) : (s.emit x).waiting = s.waiting := by unfold State.emit; split <;> rfl
@[simp] theorem State.emit_queued (s : State) (x : TxItem) : (s.emit x).queued = s.queued := by unfold State.emit; split <;> rfl
@[simp] theorem State.emit_streams (s : State) (x : TxItem) : (s.emit x).streams = s.streams := by unfold State.emit; split <;> rfl
@[simp] theorem State.emit_votes (s : State) (x : TxItem) : (s.emit x).votes = s.votes := by unfold State.emit; split <;> rfl
@[simp] theorem State.emit_laneA (s : State) (x : TxItem) : (s.emit x).laneA = s.laneA := by unfold State.emit; split <;> rfl
@[simp] theorem State.emit_laneB (s : State) (x : TxItem) : (s.emit x).laneB = s.laneB := by unfold State.emit; split <;> rfl
@[simp] theorem State.emit_laneC (s : State) (x : TxItem) : (s.emit x).laneC = s.laneC := by unfold State.emit; split <;> rfl
@[simp] theorem State.emit_laneD (s : State) (x : TxItem) : (s.emit x).laneD = s.laneD := by unfold State.emit; split <;> rfl
@[simp] theorem State.emit_links (s : State) (x : TxItem) : (s.emit x).links = s.links := by unfold State.emit; split <;> rfl
@[simp] theorem State.emit_app (s : State) (x : TxItem) : (s.emit x).app = s.app := by unfold State.emit; split <;> rfl
@[simp] theorem State.emit_tu (s : State) (x : TxItem) : (s.emit x).tu = s.tu := by unfold State.emit; split <;> rfl
@[simp] theorem State.emit_ring1 (s : State) (x : TxItem) : (s.emit x).ring1 = s.ring1 := by unfold State.emit; split <;> rfl
@[simp] theorem State.emit_ring2 (s : State) (x : TxItem) : (s.emit x).ring2 = s.ring2 := by unfold State.emit; split <;> rfl
@[simp] theorem State.emit_parts (s : State) (x : TxItem) : (s.emit x).parts = s.parts := by unfold State.emit; split <;> rfl
@[simp] theorem State.emit_backlog (s : State) (x : TxItem) : (s.emit x).backlog = s.backlog := by unfold State.emit; split <;> rfl
@[simp] theorem State.emit_transit (s : State) (x : TxItem) : (s.emit x).transit = s.transit := by unfold State.emit; split <;> rfl
@[simp] theorem State.emit_netOut (s : State) (x : TxItem) : (s.emit x).netOut = s.netOut := by unfold State.emit; split <;> rfl
@[simp] theorem State.emit_netUsed (s : State) (x : TxItem) : (s.emit x).netUsed = s.netUsed := by unfold State.emit; split <;> rfl
@[simp] theorem State.emit_eth (s : State) (x : TxItem) : (s.emit x).eth = s.eth := by unfold State.emit; split <;> rfl
@[simp] theorem State.emit_rb (s : State) (x : TxItem) : (s.emit x).rb = s.rb := by unfold State.emit; split <;> rfl
@[simp] theorem State.emit_fd (s : State) (x : TxItem) : (s.emit x).fd = s.fd := by unfold State.emit; split <;> rfl
@[simp] theorem State.emit_an (s : State) (x : TxItem) : (s.emit x).an = s.an := by unfold State.emit; split <;> rfl
@[simp] theorem State.emit_sf (s : State) (x : TxItem) : (s.emit x).sf = s.sf := by unfold State.emit; split <;> rfl
@[simp] theorem State.emit_sc (s : State) (x : TxItem) : (s.emit x).sc = s.sc := by unfold State.emit; split <;> rfl
@[simp] theorem State.emit_cfg (s : State) (x : TxItem) : (s.emit x).cfg = s.cfg := by unfold State.emit; split <;> rfl
@[simp] theorem State.emit_up (s : State) (x : TxItem) : (s.emit x).up = s.up := by unfold State.emit; split <;> rfl
@[simp] theorem State.emit_un (s : State) (x : TxItem) : (s.emit x).un = s.un := by unfold State.emit; split <;> rfl
@[simp] theorem State.emit_keys (s : State) (x : TxItem) : (s.emit x).keys = s.keys := by unfold State.emit; split <;> rfl
@[simp] theorem State.emit_sb (s : State) (x : TxItem) : (s.emit x).sb = s.sb := by unfold State.emit; split <;> rfl
@[simp] theorem State.emit_pw (s : State) (x : TxItem) : (s.emit x).pw = s.pw := by unfold State.emit; split <;> rfl
@[simp] theorem State.emit_dbg (s : State) (x : TxItem) : (s.emit x).dbg = s.dbg := by unfold State.emit; split <;> rfl

@[simp] theorem State.g_emit (s : State) (x : TxItem) (f : Fld) : (s.emit x).g f = s.g f := by simp [State.g]

end Sys2Proof.Machine
end

