-- ==== Sys2Proof/Laws/Command.lean ====
section
/-! SUPPORT. Mailbox commands: what is read back of a command's bytes, and what an accepted command runs. -/

namespace Sys2Proof.Machine
open Sys2Proof.Safety

theorem Mem.rdN_append_out (m : Mem) (a n : Nat) (k : Nat) (bs : List Byte) (h : a + n ≤ k ∨ k + bs.length ≤ a) :
    (m.wrL k bs).rdN a n = m.rdN a n := by
  induction n generalizing a with
  | zero => rfl
  | succ n ih =>
    simp only [Mem.rdN]
    rw [Mem.rd_wrL_out _ _ _ _ (by omega), ih _ (by omega)]

/-- Bytes just written read back, from any offset within them. -/
theorem Mem.rdN_wrL (m : Mem) (a : Nat) (bs : List Byte) (i n : Nat) (h : i + n ≤ bs.length) :
    (m.wrL a bs).rdN (a + i) n = (bs.drop i).take n := by
  induction n generalizing i with
  | zero => simp [Mem.rdN]
  | succ n ih =>
    simp only [Mem.rdN]
    have hi : i < bs.length := by omega
    rw [Mem.rd_wrL_in _ _ _ _ hi, Nat.add_assoc, ih (i + 1) (by omega), List.drop_eq_getElem_cons hi, List.take_succ_cons]

theorem length_leBytes (n v : Nat) : (leBytes n v).length = n := by
  induction n generalizing v with
  | zero => rfl
  | succ n ih => simp [leBytes, ih]

@[simp] theorem length_hdrBytes (code : Nat) (h : Hdr) : (hdrBytes code h).length = 16 := by
  simp [hdrBytes, length_leBytes]

theorem leNat_leBytes (n v : Nat) : leNat (leBytes n v) = v % 256 ^ n := by
  induction n generalizing v with
  | zero => simp [leBytes, leNat, Nat.mod_one]
  | succ n ih =>
    simp only [leBytes, leNat, ih, BitVec.toNat_ofNat]
    show v % 256 + 256 * (v / 256 % 256 ^ n) = v % 256 ^ (n + 1)
    rw [Nat.pow_succ', Nat.mod_mul]

theorem padTo_of_length {n : Nat} {bs : List Byte} (h : bs.length = n) : padTo n bs = bs := by
  simp [padTo, ← h]

theorem padTo_append (bs cs : List Byte) (n : Nat) (h : bs.length = n) : padTo n (bs ++ cs) = bs := by
  subst h; simp [padTo]

theorem leAt_len (code : Nat) (h : Hdr) : leAt (hdrBytes code h) 4 2 = h.len.toNat := by
  have e : (hdrBytes code h).drop 4 = leBytes 2 h.len.toNat ++ (leBytes 2 h.chspec.toNat ++ leBytes 8 h.rsvd.toNat) := by
    simp [hdrBytes, leBytes]
  rw [leAt, e, padTo_append _ _ _ (length_leBytes _ _), leNat_leBytes]
  exact Nat.mod_eq_of_lt h.len.isLt

theorem leAt_code (code : Nat) (h : Hdr) : leAt (hdrBytes code h) 0 2 = code % 65536 := by
  have e : (hdrBytes code h).drop 0 = leBytes 2 code ++ (leBytes 1 h.tag.toNat ++ leBytes 1 h.flags.toNat ++ leBytes 2 h.len.toNat ++
      leBytes 2 h.chspec.toNat ++ leBytes 8 h.rsvd.toNat) := by simp [hdrBytes]
  rw [leAt, e, padTo_append _ _ _ (length_leBytes _ _), leNat_leBytes]
  rfl

/-- The header that a channel's buffer holds of a command just taken. -/
theorem cmdHdr_taken (s : State) (ch : Chan) (code : Nat) (h : Hdr) (p : List Byte) : (taken s ch code h p).cmdHdr ch.val = hdrBytes code h := by
  have hp : padTo 16 (hdrBytes code h) = hdrBytes code h := padTo_of_length (length_hdrBytes _ _)
  have := Mem.rdN_wrL s.mb (0x1000 * ch.val) (hdrBytes code h ++ p.take 1008) 0 16 (by simp)
  simp only [Nat.add_zero, List.drop_zero] at this
  simp only [State.cmdHdr, taken, State.p_mb, State.inc_mb, State.writeCmd, hp, this]
  rw [List.take_append_of_le_length (by simp)]
  exact List.take_of_length_le (by simp)

/-- The payload of a command just taken. -/
theorem cmdPayload_taken (s : State) (ch : Chan) (code : Nat) (h : Hdr) (p : List Byte) (hl : h.len.toNat = p.length) (hp : p.length ≤ 1008) :
    (taken s ch code h p).cmdPayload ch.val = p := by
  have h16 : padTo 16 (hdrBytes code h) = hdrBytes code h := padTo_of_length (length_hdrBytes _ _)
  have ht : p.take 1008 = p := List.take_of_length_le hp
  have := Mem.rdN_wrL s.mb (0x1000 * ch.val) (hdrBytes code h ++ p) 16 p.length (by simp)
  simp only [State.cmdPayload, cmdHdr_taken, leAt_len, hl, Nat.min_eq_right hp]
  simp only [taken, State.p_mb, State.inc_mb, State.writeCmd, h16, ht, this]
  simp

/-- What a client's accepted command runs. -/
theorem postCmd_accepts (s : State) (ch : Chan) (code : Nat) (h : Hdr) (p : List Byte) (ha : Accepts s ch code h p = true) :
    s.postCmd ch code h p = (taken s ch code h p).perform (cmdOf ch code h p) := by
  simp only [Accepts, Bool.and_eq_true, decide_eq_true_eq, bne_iff_ne, ne_eq, beq_iff_eq, Bool.not_eq_true'] at ha
  obtain ⟨⟨⟨⟨⟨⟨⟨hc, hm⟩, hen⟩, hst⟩, hl⟩, hp⟩, hk⟩, hb⟩ := ha
  have h3 : ¬ (s.variant = .zm60 ∧ ch.val = 3) := by omega
  have hlt : ¬ ch.val < 4 := by omega
  have hw : ∀ f, (s.writeCmd ch.val (hdrBytes code h) p).g f = s.g f := fun f => rfl
  have hv : (s.writeCmd ch.val (hdrBytes code h) p).variant = s.variant := rfl
  have hd : (s.writeCmd ch.val (hdrBytes code h) p).doorbell ch = (taken s ch code h p).runCmd (cmdOf ch code h p) := by
    unfold State.doorbell
    simp only [hv, State.on] at *
    simp only [hw, hen, hst, h3, hlt, Bool.and_eq_true, beq_iff_eq, Bool.not_true, Bool.false_eq_true, if_false]
    have e1 := cmdHdr_taken s ch code h p
    have e2 := cmdPayload_taken s ch code h p hl hp
    simp only [taken] at e1 e2
    simp only [e1, e2]
    rfl
  have hm' : (s.mode == mDormant) = false := by simpa using hm
  have hs : s.specPoster ch.val = none := if_neg hlt
  unfold State.postCmd
  simp only [hm', hen, hd, hs, if_true, Bool.false_eq_true, if_false]
  unfold State.runCmd
  have hch : (cmdOf ch code h p).chan = ch.val := rfl
  simp only [hch]
  show (match (taken s ch code h p).checkCmd ch.val (hdrBytes code h) p with
    | some st => _
    | none => if (taken s ch code h p).cmdBusy = true then _ else _) = _
  simp only [hk, hb, Bool.false_eq_true, if_false]

/-- What a lane's post runs that forms the majority. -/
theorem postCmd_forms (s : State) (ch : Chan) (code : Nat) (h : Hdr) (p : List Byte) (ha : Forms s ch code h p = true) :
    s.postCmd ch code h p = (lanePost s ch code h p).1.perform (laneCmdOf (lanePost s ch code h p).1 code h p) := by
  simp only [Forms, Bool.and_eq_true, decide_eq_true_eq, bne_iff_ne, ne_eq, beq_iff_eq, Bool.not_eq_true', Bool.and_eq_false_iff,
    beq_eq_false_iff_ne] at ha
  obtain ⟨⟨⟨⟨⟨⟨⟨⟨⟨⟨hc, hz⟩, hs⟩, hm⟩, hen⟩, hst⟩, hl⟩, hp⟩, hf⟩, hk⟩, hb⟩ := ha
  have hz' : ¬ (s.variant = .zm60 ∧ ch.val = 3) := by tauto
  have hw : ∀ f, (s.writeCmd ch.val (hdrBytes code h) p).g f = s.g f := fun f => rfl
  have hv : (s.writeCmd ch.val (hdrBytes code h) p).variant = s.variant := rfl
  have hcl : (Fin.ofNat 4 ch.val : Lane).val = ch.val := Nat.mod_eq_of_lt hc
  have hd : (s.writeCmd ch.val (hdrBytes code h) p).doorbell ch =
      (taken s ch code h p).laneCmd (Fin.ofNat 4 ch.val) := by
    unfold State.doorbell
    simp only [hv, State.on] at *
    simp only [hw, hen, hst, hz', hc, Bool.and_eq_true, beq_iff_eq, Bool.not_true, Bool.false_eq_true, if_false, if_true]
    rfl
  have hm' : (s.mode == mDormant) = false := by simpa using hm
  unfold State.postCmd
  simp only [hm', hen, hd, hs, if_true, Bool.false_eq_true, if_false]
  unfold State.laneCmd
  simp only [hcl, cmdHdr_taken, cmdPayload_taken s ch code h p hl hp]
  have hx : (((taken s ch code h p).modLt ch.val ((Fin.ofNat 16 (leAt (hdrBytes code h ++ p) 6 2) : Task)).val
      (fun x => { x with cmdPos := ((taken s ch code h p).lt ch.val ((Fin.ofNat 16 (leAt (hdrBytes code h ++ p) 6 2) : Task)).val).cmdPos + 1 })).postStream
        .command (.task (Fin.ofNat 16 (leAt (hdrBytes code h ++ p) 6 2)))
        ((taken s ch code h p).lt ch.val ((Fin.ofNat 16 (leAt (hdrBytes code h ++ p) 6 2) : Task)).val).cmdPos
        (Fin.ofNat 4 ch.val) (hdrBytes code h ++ p)) = lanePost s ch code h p := rfl
  simp only [hx, hf]
  have t1 : (hdrBytes code h ++ p).take 16 = hdrBytes code h := by simp
  have t2 : (hdrBytes code h ++ p).drop 16 = p := by simp
  simp only [t1, t2]
  unfold State.runCmd
  rw [laneCmdOf] at hk ⊢
  simp only [hk, hb, Bool.false_eq_true, if_false]

/-- What a posted command runs at once. -/
theorem postCmd_runs {s : State} {ch : Chan} {code : Nat} {h : Hdr} {p : List Byte} {a : State} {c : CmdIn}
    (hr : runs s ch code h p = some (a, c)) : s.postCmd ch code h p = a.perform c := by
  unfold runs at hr
  split at hr
  · cases hr; exact postCmd_accepts _ _ _ _ _ ‹_›
  · split at hr
    · cases hr; exact postCmd_forms _ _ _ _ _ ‹_›
    · cases hr

theorem runs_hdr {s : State} {ch : Chan} {code : Nat} {h : Hdr} {p : List Byte} {a : State} {c : CmdIn}
    (hr : runs s ch code h p = some (a, c)) : c.hdr = hdrBytes code h ∧ c.p = p := by
  unfold runs at hr
  split at hr
  · cases hr; exact ⟨rfl, rfl⟩
  · split at hr
    · cases hr; exact ⟨rfl, rfl⟩
    · cases hr

/-- A command runs by its body, which its code names. -/
theorem postCmd_body {s : State} {ch : Chan} {code : Nat} {h : Hdr} {p : List Byte} {a : State} {c : CmdIn}
    (hr : runs s ch code h p = some (a, c)) (hc : code < 65536) : s.postCmd ch code h p = (cmdBody code a c).finish c := by
  rw [postCmd_runs hr, State.perform, (runs_hdr hr).1, leAt_code, Nat.mod_eq_of_lt hc]

theorem finish_read (i : CmdIn) (s : State) (out : List Byte) : (CmdRes.read s out).finish i = s.answered i out false := rfl
theorem finish_done (i : CmdIn) (s : State) : (CmdRes.done s).finish i = s.answered i [] true := rfl
theorem finish_idle (i : CmdIn) (s : State) : (CmdRes.idle s).finish i = s.answered i [] false := rfl
theorem finish_ok (i : CmdIn) (s : State) (out : List Byte) (w : Bool) : (CmdRes.ok s out w).finish i = s.answered i out w := rfl
theorem finish_okReset (i : CmdIn) (s : State) (k ch row : Nat) :
    (CmdRes.okReset s k ch row).finish i = (s.answered i [] true).moduleReset k ch row := rfl
theorem finish_no (i : CmdIn) (s : State) (st : Nat) : (CmdRes.no s st).finish i = refusedWith s i st := rfl
theorem finish_later (i : CmdIn) (s : State) : (CmdRes.later s).finish i = s := rfl
theorem finish_ite (i : CmdIn) (q : Prop) [Decidable q] (x y : CmdRes) : (if q then x else y).finish i = if q then x.finish i else y.finish i := by
  split <;> rfl

end Sys2Proof.Machine
end

