-- ==== Sys2Proof/Laws/CommandRows.lean ====
section
/-! SUPPORT. One lemma per mailbox command: what a posted command that runs at once does, by its body. -/

namespace Sys2Proof.Machine
open Sys2Proof.Safety

variable {s a : State} {ch : Chan} {h : Hdr} {p : List Byte} {c : CmdIn}

theorem execModReset_runs (r : runs s ch 0x0101 h p = some (a, c)) : exec (.modReset ch h p) s = .next ((a.cmdModReset c).finish c) :=
  congrArg _ (postCmd_body r (by decide))

theorem execModIdentify_runs (r : runs s ch 0x0102 h p = some (a, c)) : exec (.modIdentify ch h p) s = .next ((a.cmdModIdentify c).finish c) :=
  congrArg _ (postCmd_body r (by decide))

theorem execModStatus_runs (r : runs s ch 0x0103 h p = some (a, c)) : exec (.modStatus ch h p) s = .next ((a.cmdModStatus c).finish c) :=
  congrArg _ (postCmd_body r (by decide))

theorem execModSetmode_runs (r : runs s ch 0x0104 h p = some (a, c)) : exec (.modSetmode ch h p) s = .next ((a.cmdModSetmode c).finish c) :=
  congrArg _ (postCmd_body r (by decide))

theorem execModTagRead_runs (r : runs s ch 0x0105 h p = some (a, c)) : exec (.modTagRead ch h p) s = .next ((a.cmdModTagRead c).finish c) :=
  congrArg _ (postCmd_body r (by decide))

theorem execModTagWrite_runs (r : runs s ch 0x0106 h p = some (a, c)) : exec (.modTagWrite ch h p) s = .next ((a.cmdModTagWrite c).finish c) :=
  congrArg _ (postCmd_body r (by decide))

theorem execModWakecfg_runs (r : runs s ch 0x0107 h p = some (a, c)) : exec (.modWakecfg ch h p) s = .next ((a.cmdModWakecfg c).finish c) :=
  congrArg _ (postCmd_body r (by decide))

theorem execAppStage_runs (r : runs s ch 0x0201 h p = some (a, c)) : exec (.appStage ch h p) s = .next ((a.cmdAppStage c).finish c) :=
  congrArg _ (postCmd_body r (by decide))

theorem execAppLoad_runs (r : runs s ch 0x0202 h p = some (a, c)) : exec (.appLoad ch h p) s = .next ((a.cmdAppLoad c).finish c) :=
  congrArg _ (postCmd_body r (by decide))

theorem execAppStart_runs (r : runs s ch 0x0203 h p = some (a, c)) : exec (.appStart ch h p) s = .next ((a.cmdAppStart c).finish c) :=
  congrArg _ (postCmd_body r (by decide))

theorem execAppStop_runs (r : runs s ch 0x0204 h p = some (a, c)) : exec (.appStop ch h p) s = .next ((a.cmdAppStop c).finish c) :=
  congrArg _ (postCmd_body r (by decide))

theorem execAppRestart_runs (r : runs s ch 0x0205 h p = some (a, c)) : exec (.appRestart ch h p) s = .next ((a.cmdAppRestart c).finish c) :=
  congrArg _ (postCmd_body r (by decide))

theorem execAppNextstart_runs (r : runs s ch 0x0206 h p = some (a, c)) : exec (.appNextstart ch h p) s = .next ((a.cmdAppNextstart c).finish c) :=
  congrArg _ (postCmd_body r (by decide))

theorem execAppOlcLoad_runs (r : runs s ch 0x0207 h p = some (a, c)) : exec (.appOlcLoad ch h p) s = .next ((a.cmdAppOlcLoad c).finish c) :=
  congrArg _ (postCmd_body r (by decide))

theorem execAppOlcApply_runs (r : runs s ch 0x0208 h p = some (a, c)) : exec (.appOlcApply ch h p) s = .next ((a.cmdAppOlcApply c).finish c) :=
  congrArg _ (postCmd_body r (by decide))

theorem execPairSplit_runs (r : runs s ch 0x0209 h p = some (a, c)) : exec (.pairSplit ch h p) s = .next ((a.cmdPairSplit c).finish c) :=
  congrArg _ (postCmd_body r (by decide))

theorem execPairJoin_runs (r : runs s ch 0x020A h p = some (a, c)) : exec (.pairJoin ch h p) s = .next ((a.cmdPairJoin c).finish c) :=
  congrArg _ (postCmd_body r (by decide))

theorem execAppStatus_runs (r : runs s ch 0x020B h p = some (a, c)) : exec (.appStatus ch h p) s = .next ((a.cmdAppStatus c).finish c) :=
  congrArg _ (postCmd_body r (by decide))

theorem execForceSet_runs (r : runs s ch 0x0301 h p = some (a, c)) : exec (.forceSet ch h p) s = .next ((a.cmdForceSet c).finish c) :=
  congrArg _ (postCmd_body r (by decide))

theorem execForceClear_runs (r : runs s ch 0x0302 h p = some (a, c)) : exec (.forceClear ch h p) s = .next ((a.cmdForceClear c).finish c) :=
  congrArg _ (postCmd_body r (by decide))

theorem execForceClearall_runs (r : runs s ch 0x0303 h p = some (a, c)) : exec (.forceClearall ch h p) s = .next ((a.cmdForceClearall c).finish c) :=
  congrArg _ (postCmd_body r (by decide))

theorem execForceList_runs (r : runs s ch 0x0304 h p = some (a, c)) : exec (.forceList ch h p) s = .next ((a.cmdForceList c).finish c) :=
  congrArg _ (postCmd_body r (by decide))

theorem execTimeConfig_runs (r : runs s ch 0x0401 h p = some (a, c)) : exec (.timeConfig ch h p) s = .next ((a.cmdTimeConfig c).finish c) :=
  congrArg _ (postCmd_body r (by decide))

theorem execTimeTrigger_runs (r : runs s ch 0x0402 h p = some (a, c)) : exec (.timeTrigger ch h p) s = .next ((a.cmdTimeTrigger c).finish c) :=
  congrArg _ (postCmd_body r (by decide))

theorem execTimeCapture_runs (r : runs s ch 0x0403 h p = some (a, c)) : exec (.timeCapture ch h p) s = .next ((a.cmdTimeCapture c).finish c) :=
  congrArg _ (postCmd_body r (by decide))

theorem execTimeStatus_runs (r : runs s ch 0x0404 h p = some (a, c)) : exec (.timeStatus ch h p) s = .next ((a.cmdTimeStatus c).finish c) :=
  congrArg _ (postCmd_body r (by decide))

theorem execRingSched_runs (r : runs s ch 0x0501 h p = some (a, c)) : exec (.ringSched ch h p) s = .next ((a.cmdRingSched c).finish c) :=
  congrArg _ (postCmd_body r (by decide))

theorem execRingCommit_runs (r : runs s ch 0x0502 h p = some (a, c)) : exec (.ringCommit ch h p) s = .next ((a.cmdRingCommit c).finish c) :=
  congrArg _ (postCmd_body r (by decide))

theorem execRingStatus_runs (r : runs s ch 0x0503 h p = some (a, c)) : exec (.ringStatus ch h p) s = .next ((a.cmdRingStatus c).finish c) :=
  congrArg _ (postCmd_body r (by decide))

theorem execEthConfig_runs (r : runs s ch 0x0601 h p = some (a, c)) : exec (.ethConfig ch h p) s = .next ((a.cmdEthConfig c).finish c) :=
  congrArg _ (postCmd_body r (by decide))

theorem execEthStatus_runs (r : runs s ch 0x0602 h p = some (a, c)) : exec (.ethStatus ch h p) s = .next ((a.cmdEthStatus c).finish c) :=
  congrArg _ (postCmd_body r (by decide))

theorem execSafeLoad_runs (r : runs s ch 0x0701 h p = some (a, c)) : exec (.safeLoad ch h p) s = .next ((a.cmdSafeLoad c).finish c) :=
  congrArg _ (postCmd_body r (by decide))

theorem execSealAccept_runs (r : runs s ch 0x0702 h p = some (a, c)) : exec (.sealAccept ch h p) s = .next ((a.cmdSealAccept c).finish c) :=
  congrArg _ (postCmd_body r (by decide))

theorem execScAck_runs (r : runs s ch 0x0703 h p = some (a, c)) : exec (.scAck ch h p) s = .next ((a.cmdScAck c).finish c) :=
  congrArg _ (postCmd_body r (by decide))

theorem execSafeStatus_runs (r : runs s ch 0x0704 h p = some (a, c)) : exec (.safeStatus ch h p) s = .next ((a.cmdSafeStatus c).finish c) :=
  congrArg _ (postCmd_body r (by decide))

theorem execFioConfig_runs (r : runs s ch 0x0801 h p = some (a, c)) : exec (.fioConfig ch h p) s = .next ((a.cmdFioConfig c).finish c) :=
  congrArg _ (postCmd_body r (by decide))

theorem execFioRelease_runs (r : runs s ch 0x0802 h p = some (a, c)) : exec (.fioRelease ch h p) s = .next ((a.cmdFioRelease c).finish c) :=
  congrArg _ (postCmd_body r (by decide))

theorem execFioStatus_runs (r : runs s ch 0x0803 h p = some (a, c)) : exec (.fioStatus ch h p) s = .next ((a.cmdFioStatus c).finish c) :=
  congrArg _ (postCmd_body r (by decide))

theorem execUnitConfig_runs (r : runs s ch 0x0901 h p = some (a, c)) : exec (.unitConfig ch h p) s = .next ((a.cmdUnitConfig c).finish c) :=
  congrArg _ (postCmd_body r (by decide))

theorem execUnitHandover_runs (r : runs s ch 0x0902 h p = some (a, c)) : exec (.unitHandover ch h p) s = .next ((a.cmdUnitHandover c).finish c) :=
  congrArg _ (postCmd_body r (by decide))

theorem execUnitWitness_runs (r : runs s ch 0x0903 h p = some (a, c)) : exec (.unitWitness ch h p) s = .next ((a.cmdUnitWitness c).finish c) :=
  congrArg _ (postCmd_body r (by decide))

theorem execUnitStatus_runs (r : runs s ch 0x0904 h p = some (a, c)) : exec (.unitStatus ch h p) s = .next ((a.cmdUnitStatus c).finish c) :=
  congrArg _ (postCmd_body r (by decide))

theorem execFaultAck_runs (r : runs s ch 0x0A01 h p = some (a, c)) : exec (.faultAck ch h p) s = .next ((a.cmdFaultAck c).finish c) :=
  congrArg _ (postCmd_body r (by decide))

theorem execFaultHistory_runs (r : runs s ch 0x0A02 h p = some (a, c)) : exec (.faultHistory ch h p) s = .next ((a.cmdFaultHistory c).finish c) :=
  congrArg _ (postCmd_body r (by decide))

theorem execFaultInject_runs (r : runs s ch 0x0A03 h p = some (a, c)) : exec (.faultInject ch h p) s = .next ((a.cmdFaultInject c).finish c) :=
  congrArg _ (postCmd_body r (by decide))

theorem execFaultStatus_runs (r : runs s ch 0x0A04 h p = some (a, c)) : exec (.faultStatus ch h p) s = .next ((a.cmdFaultStatus c).finish c) :=
  congrArg _ (postCmd_body r (by decide))

theorem execEvRead_runs (r : runs s ch 0x0B01 h p = some (a, c)) : exec (.evRead ch h p) s = .next ((a.cmdEvRead c).finish c) :=
  congrArg _ (postCmd_body r (by decide))

theorem execEvStatus_runs (r : runs s ch 0x0B02 h p = some (a, c)) : exec (.evStatus ch h p) s = .next ((a.cmdEvStatus c).finish c) :=
  congrArg _ (postCmd_body r (by decide))

theorem execEvClear_runs (r : runs s ch 0x0B03 h p = some (a, c)) : exec (.evClear ch h p) s = .next ((a.cmdEvClear c).finish c) :=
  congrArg _ (postCmd_body r (by decide))

theorem execUpManifest_runs (r : runs s ch 0x0C01 h p = some (a, c)) : exec (.upManifest ch h p) s = .next ((a.cmdUpManifest c).finish c) :=
  congrArg _ (postCmd_body r (by decide))

theorem execUpChunk_runs (r : runs s ch 0x0C02 h p = some (a, c)) : exec (.upChunk ch h p) s = .next ((a.cmdUpChunk c).finish c) :=
  congrArg _ (postCmd_body r (by decide))

theorem execUpStatus_runs (r : runs s ch 0x0C03 h p = some (a, c)) : exec (.upStatus ch h p) s = .next ((a.cmdUpStatus c).finish c) :=
  congrArg _ (postCmd_body r (by decide))

theorem execUpActivate_runs (r : runs s ch 0x0C04 h p = some (a, c)) : exec (.upActivate ch h p) s = .next ((a.cmdUpActivate c).finish c) :=
  congrArg _ (postCmd_body r (by decide))

theorem execUpAbandon_runs (r : runs s ch 0x0C05 h p = some (a, c)) : exec (.upAbandon ch h p) s = .next ((a.cmdUpAbandon c).finish c) :=
  congrArg _ (postCmd_body r (by decide))

theorem execTestRegread_runs (r : runs s ch 0x0D01 h p = some (a, c)) : exec (.testRegread ch h p) s = .next ((a.cmdTestRegread c).finish c) :=
  congrArg _ (postCmd_body r (by decide))

theorem execTestLoop_runs (r : runs s ch 0x0D02 h p = some (a, c)) : exec (.testLoop ch h p) s = .next ((a.cmdTestLoop c).finish c) :=
  congrArg _ (postCmd_body r (by decide))

theorem execTestProd_runs (r : runs s ch 0x0D03 h p = some (a, c)) : exec (.testProd ch h p) s = .next ((a.cmdTestProd c).finish c) :=
  congrArg _ (postCmd_body r (by decide))

theorem execLcChange_runs (r : runs s ch 0x0E01 h p = some (a, c)) : exec (.lcChange ch h p) s = .next ((a.cmdLcChange c).finish c) :=
  congrArg _ (postCmd_body r (by decide))

theorem execLcDebugtoken_runs (r : runs s ch 0x0E02 h p = some (a, c)) : exec (.lcDebugtoken ch h p) s = .next ((a.cmdLcDebugtoken c).finish c) :=
  congrArg _ (postCmd_body r (by decide))

end Sys2Proof.Machine
end

