-- ==== Sys2Proof/Laws/Keep.lean ====
section
/-! SUPPORT. What every operation keeps: the queue, the variant, the canonical form of the tables. -/

namespace Sys2Proof.Machine
open Sys2Proof.Safety

/-- A state has the queue and the variant of another, and is in canonical form where the other is. -/
def Keeps (s0 t : State) : Prop := t.pending = s0.pending ∧ t.variant = s0.variant ∧ (Canonical s0 → Canonical t)

theorem Keeps.refl (s : State) : Keeps s s := ⟨rfl, rfl, id⟩

theorem Keeps.trans {a b c : State} (h : Keeps a b) (k : Keeps b c) : Keeps a c :=
  ⟨k.1.trans h.1, k.2.1.trans h.2.1, fun x => k.2.2 (h.2.2 x)⟩

theorem Keeps.ite {s0 a b : State} {p : Prop} [Decidable p] (ha : Keeps s0 a) (hb : Keeps s0 b) : Keeps s0 (if p then a else b) := by
  split <;> assumption

theorem Keeps.foldl {α : Type} {s0 : State} {f : State → α → State} {l : List α} {s : State}
    (hf : ∀ s a, Keeps s0 s → Keeps s0 (f s a)) (h : Keeps s0 s) : Keeps s0 (l.foldl f s) := by
  induction l generalizing s with
  | nil => exact h
  | cons a l ih => exact ih (hf s a h)

/-- A change of anything but registers, buffers and memories. -/
theorem Keeps.upd_iff {s0 s : State} {free : Nat} {busErr : Bool} {tx : List TxItem} {ev : EvSt} {fc : FcSt} {sess : SessSt}
    {waiting : Option Waiting} {queued : List Queued} {streams : List StreamVote} {votes : List CycVote} {links : Tab LinkSt} {app : AppSt}
    {tu : TuSt} {ring1 ring2 : RingSt} {parts backlog transit : List Part} {netOut : Mem} {netUsed : List Nat} {eth : EthSt} {rb : RbSt}
    {fd : FdSt} {an : Tab AioSt} {sf : SfSt} {sc : ScSt} {cfg : Settings} {up : UpSt} {un : UnSt} {keys : KeySt} {sb : SbSt} {pw : PwSt}
    {dbg : DbgSt} : Keeps s0
      { pending := s.pending, variant := s.variant, regs := s.regs, free, busErr, tx, ev, fc, sess, mb := s.mb, waiting, queued, streams, votes,
        laneA := s.laneA, laneB := s.laneB, laneC := s.laneC, laneD := s.laneD, links, app, tu, ring1, ring2, parts, backlog, transit,
        netOut, netUsed, eth, rb, fd, an, sf, sc, cfg, up, un, keys, sb, pw, dbg } ↔ Keeps s0 s :=
  ⟨fun h => ⟨h.1, h.2.1, fun c => let k := h.2.2 c; ⟨k.regs, k.mb, k.memA, k.memB, k.memC, k.memD⟩⟩,
   fun h => ⟨h.1, h.2.1, fun c => let k := h.2.2 c; ⟨k.regs, k.mb, k.memA, k.memB, k.memC, k.memD⟩⟩⟩

/-- New registers in canonical form. -/
theorem Keeps.regs {s0 s t : State} (h : Keeps s0 s) (e : t = { s with regs := t.regs })
    (hr : tabWf regReset s.regs = true → tabWf regReset t.regs = true) : Keeps s0 t := by
  rw [e]
  exact ⟨h.1, h.2.1, fun c => let k := h.2.2 c; ⟨hr k.regs, k.mb, k.memA, k.memB, k.memC, k.memD⟩⟩

theorem Regs.wf_wr {r : Regs} (h : tabWf regReset r = true) (a : Nat) (v : Word) : tabWf regReset (r.wr a v) = true := tabWf_tabSet _ _ h

theorem Regs.wf_p {r : Regs} (h : tabWf regReset r = true) (f : Fld) (v : Nat) : tabWf regReset (r.p f v) = true := Regs.wf_wr h _ _

/-- New mailbox buffers in canonical form. -/
theorem Keeps.mb {s0 s t : State} (h : Keeps s0 s) (e : t = { s with mb := t.mb })
    (hr : Memory.wf s.mb = true → Memory.wf t.mb = true) : Keeps s0 t := by
  rw [e]
  exact ⟨h.1, h.2.1, fun c => let k := h.2.2 c; ⟨k.regs, hr k.mb, k.memA, k.memB, k.memC, k.memD⟩⟩

/-- New registers, nothing else. -/
@[irreducible] def State.setRegs (s : State) (r : Regs) : State := { s with regs := r }

/-- New mailbox buffers, nothing else. -/
@[irreducible] def State.setMb (s : State) (m : Mem) : State := { s with mb := m }

theorem Keeps.setRegs {s0 s : State} {r : Regs} (h : Keeps s0 s) (hr : tabWf regReset s.regs = true → tabWf regReset r = true) :
    Keeps s0 (s.setRegs r) := by
  unfold State.setRegs; exact Keeps.regs h rfl hr

theorem Keeps.regs_iff {s0 s : State} {r : Regs} {free : Nat} {busErr : Bool} {tx : List TxItem} {ev : EvSt} {fc : FcSt} {sess : SessSt}
    {waiting : Option Waiting} {queued : List Queued} {streams : List StreamVote} {votes : List CycVote} {links : Tab LinkSt} {app : AppSt}
    {tu : TuSt} {ring1 ring2 : RingSt} {parts backlog transit : List Part} {netOut : Mem} {netUsed : List Nat} {eth : EthSt} {rb : RbSt}
    {fd : FdSt} {an : Tab AioSt} {sf : SfSt} {sc : ScSt} {cfg : Settings} {up : UpSt} {un : UnSt} {keys : KeySt} {sb : SbSt} {pw : PwSt}
    {dbg : DbgSt} : Keeps s0
      { pending := s.pending, variant := s.variant, regs := r, free, busErr, tx, ev, fc, sess, mb := s.mb, waiting, queued, streams, votes,
        laneA := s.laneA, laneB := s.laneB, laneC := s.laneC, laneD := s.laneD, links, app, tu, ring1, ring2, parts, backlog, transit,
        netOut, netUsed, eth, rb, fd, an, sf, sc, cfg, up, un, keys, sb, pw, dbg } ↔ Keeps s0 (s.setRegs r) := by
  unfold State.setRegs
  exact ⟨fun h => ⟨h.1, h.2.1, fun c => let k := h.2.2 c; ⟨k.regs, k.mb, k.memA, k.memB, k.memC, k.memD⟩⟩,
    fun h => ⟨h.1, h.2.1, fun c => let k := h.2.2 c; ⟨k.regs, k.mb, k.memA, k.memB, k.memC, k.memD⟩⟩⟩

theorem Keeps.setMb {s0 s : State} {m : Mem} (h : Keeps s0 s) (hr : Memory.wf s.mb = true → Memory.wf m = true) : Keeps s0 (s.setMb m) := by
  unfold State.setMb; exact Keeps.mb h rfl hr

theorem Keeps.mb_iff {s0 s : State} {m : Mem} {free : Nat} {busErr : Bool} {tx : List TxItem} {ev : EvSt} {fc : FcSt} {sess : SessSt}
    {waiting : Option Waiting} {queued : List Queued} {streams : List StreamVote} {votes : List CycVote} {links : Tab LinkSt} {app : AppSt}
    {tu : TuSt} {ring1 ring2 : RingSt} {parts backlog transit : List Part} {netOut : Mem} {netUsed : List Nat} {eth : EthSt} {rb : RbSt}
    {fd : FdSt} {an : Tab AioSt} {sf : SfSt} {sc : ScSt} {cfg : Settings} {up : UpSt} {un : UnSt} {keys : KeySt} {sb : SbSt} {pw : PwSt}
    {dbg : DbgSt} : Keeps s0
      { pending := s.pending, variant := s.variant, regs := s.regs, free, busErr, tx, ev, fc, sess, mb := m, waiting, queued, streams, votes,
        laneA := s.laneA, laneB := s.laneB, laneC := s.laneC, laneD := s.laneD, links, app, tu, ring1, ring2, parts, backlog, transit,
        netOut, netUsed, eth, rb, fd, an, sf, sc, cfg, up, un, keys, sb, pw, dbg } ↔ Keeps s0 (s.setMb m) := by
  unfold State.setMb
  exact ⟨fun h => ⟨h.1, h.2.1, fun c => let k := h.2.2 c; ⟨k.regs, k.mb, k.memA, k.memB, k.memC, k.memD⟩⟩,
    fun h => ⟨h.1, h.2.1, fun c => let k := h.2.2 c; ⟨k.regs, k.mb, k.memA, k.memB, k.memC, k.memD⟩⟩⟩

theorem State.lane_wf {s : State} (c : Canonical s) (l : Nat) : Memory.wf (s.lane l).mem = true := by
  unfold State.lane; split
  · exact c.memA
  · exact c.memB
  · exact c.memC
  · exact c.memD

theorem Memory.wf_foldl_wr (es : List (Nat × Byte)) {m : Mem} (h : Memory.wf m = true) :
    Memory.wf (es.foldl (fun (m : Mem) e => m.wr e.1 e.2) m) = true := by
  induction es generalizing m with
  | nil => exact h
  | cons e es ih => exact ih (Memory.wf_wr h _ _)

theorem Keeps.setLane {s0 s : State} (l : Nat) (x : LaneSt) (h : Keeps s0 s) (hx : Canonical s → Memory.wf x.mem = true) :
    Keeps s0 (s.setLane l x) := by
  unfold State.setLane
  split <;> exact ⟨h.1, h.2.1, fun c => let k := h.2.2 c; ⟨k.regs, k.mb,
    by first | exact hx k | exact k.memA, by first | exact hx k | exact k.memB, by first | exact hx k | exact k.memC, by first | exact hx k | exact k.memD⟩⟩

theorem Keeps.modLane {s0 s : State} (l : Nat) (f : LaneSt → LaneSt) (h : Keeps s0 s)
    (hf : ∀ x, Memory.wf x.mem = true → Memory.wf (f x).mem = true) : Keeps s0 (s.modLane l f) :=
  Keeps.setLane l _ h (fun c => hf _ (State.lane_wf c l))

/-- What a command's body keeps. -/
def KeepsR (s0 : State) : CmdRes → Prop
  | .ok s _ _ => Keeps s0 s
  | .okReset s _ _ _ => Keeps s0 s
  | .no s _ => Keeps s0 s
  | .later s => Keeps s0 s

theorem KeepsR.ite {s0 : State} {a b : CmdRes} {p : Prop} [Decidable p] (ha : KeepsR s0 a) (hb : KeepsR s0 b) : KeepsR s0 (if p then a else b) := by
  split <;> assumption

theorem KeepsR.ok {s0 s : State} {o : List Byte} {w : Bool} (h : Keeps s0 s) : KeepsR s0 (.ok s o w) := h
theorem KeepsR.okReset {s0 s : State} {a b c : Nat} (h : Keeps s0 s) : KeepsR s0 (.okReset s a b c) := h
theorem KeepsR.no {s0 s : State} {st : Nat} (h : Keeps s0 s) : KeepsR s0 (.no s st) := h
theorem KeepsR.later {s0 s : State} (h : Keeps s0 s) : KeepsR s0 (.later s) := h

/-- What a meaning keeps. -/
def KeepsO (s0 : State) (o : Host.Outcome State Fault Refusal) : Prop := ∀ t, o = .next t → Keeps s0 t

theorem KeepsO.ite {s0 : State} {a b : Host.Outcome State Fault Refusal} {p : Prop} [Decidable p] (ha : KeepsO s0 a) (hb : KeepsO s0 b) :
    KeepsO s0 (if p then a else b) := by split <;> assumption

theorem KeepsO.next {s0 s : State} (h : Keeps s0 s) : KeepsO s0 (.next s) := fun _ e => by cases e; exact h

/-- What an operation that may not apply keeps. -/
def KeepsOpt (s0 : State) (o : Option State) : Prop := ∀ t, o = some t → Keeps s0 t

theorem KeepsOpt.ite {s0 : State} {a b : Option State} {p : Prop} [Decidable p] (ha : KeepsOpt s0 a) (hb : KeepsOpt s0 b) :
    KeepsOpt s0 (if p then a else b) := by split <;> assumption

theorem KeepsOpt.some {s0 s : State} (h : Keeps s0 s) : KeepsOpt s0 (some s) := fun _ e => by cases e; exact h
theorem KeepsOpt.none {s0 : State} : KeepsOpt s0 none := fun _ e => by cases e

theorem KeepsOpt.of {s0 s : State} {o : Option State} (h : KeepsOpt s0 o) (e : o = Option.some s) : Keeps s0 s := h s e

theorem KeepsOpt.getD {s0 s : State} {o : Option State} (h : KeepsOpt s0 o) (hs : Keeps s0 s) : Keeps s0 (o.getD s) := by
  cases o with
  | none => exact hs
  | some t => exact h t rfl

theorem Keeps.fst {α : Type} {s0 s : State} {p : State × α} {x : α} (h : Keeps s0 p.1) (e : p = (s, x)) : Keeps s0 s := by
  rw [e] at h; exact h

theorem Keeps.foldl_fst {α β : Type} {s0 : State} {f : State × β → α → State × β} {l : List α} {s : State × β}
    (hf : ∀ s a, Keeps s0 s.1 → Keeps s0 (f s a).1) (h : Keeps s0 s.1) : Keeps s0 (l.foldl f s).1 := by
  induction l generalizing s with
  | nil => exact h
  | cons a l ih => exact ih (hf s a h)

end Sys2Proof.Machine
end

