-- ==== Sys2Proof/Laws/Keep1.lean ====
section
/-! SUPPORT. What every operation keeps of a state (`Keeps`): those of Machine/Ops.lean, Time.lean, FieldOps.lean, FieldIo.lean. -/

set_option linter.all false

namespace Sys2Proof.Machine
open Sys2Proof.Safety

/-! ### Ops -/

theorem State.p_keeps {s0 : State} (s : State) (f : Fld) (v : Nat) (hk : Keeps s0 s) : Keeps s0 (State.p s f v) := by
  unfold State.p
  repeat' first
    | (with_reducible first | exact hk | assumption | apply Keeps.ite)
    | simp only [Keeps.upd_iff]
    | simp only [Keeps.regs_iff]
    | (with_reducible apply Keeps.setRegs <;> [skip; exact fun hw => by simp [hw, Regs.wf_wr, Regs.wf_p, tabWf_filter]])
    | split
    | dsimp only

theorem State.pb_keeps {s0 : State} (s : State) (f : Fld) (b : Bool) (hk : Keeps s0 s) : Keeps s0 (State.pb s f b) := by
  unfold State.pb
  repeat' first
    | (with_reducible first | exact hk | assumption | apply State.p_keeps | apply Keeps.ite)
    | split
    | dsimp only

theorem State.inc_keeps {s0 : State} (s : State) (f : Fld) (hk : Keeps s0 s) : Keeps s0 (State.inc s f) := by
  unfold State.inc
  repeat' first
    | (with_reducible first | exact hk | assumption | apply State.p_keeps | apply Keeps.ite)
    | split
    | dsimp only

theorem State.satAdd_keeps {s0 : State} (s : State) (f : Fld) (n : Nat) (hk : Keeps s0 s) : Keeps s0 (State.satAdd s f n) := by
  unfold State.satAdd
  repeat' first
    | (with_reducible first | exact hk | assumption | apply State.p_keeps | apply Keeps.ite)
    | split
    | dsimp only

theorem State.emit_keeps {s0 : State} (s : State) (x : TxItem) (hk : Keeps s0 s) : Keeps s0 (State.emit s x) := by
  unfold State.emit
  repeat' first
    | (with_reducible first | exact hk | assumption | apply Keeps.ite)
    | simp only [Keeps.upd_iff]
    | split
    | dsimp only

theorem State.evRegs_keeps {s0 : State} (s : State) (hk : Keeps s0 s) : Keeps s0 (State.evRegs s) := by
  unfold State.evRegs
  repeat' first
    | (with_reducible first | exact hk | assumption | apply State.p_keeps | apply Keeps.ite)
    | split
    | dsimp only

theorem State.stageRec_keeps {s0 : State} (s : State) (e : EvIn) (hk : Keeps s0 s) : Keeps s0 (State.stageRec s e) := by
  unfold State.stageRec
  repeat' first
    | (with_reducible first | exact hk | assumption | apply State.evRegs_keeps | apply Keeps.ite)
    | simp only [Keeps.upd_iff]
    | split
    | dsimp only

theorem State.suppress_keeps {s0 : State} (s : State) (hk : Keeps s0 s) : Keeps s0 (State.suppress s) := by
  unfold State.suppress
  repeat' first
    | (with_reducible first | exact hk | assumption | apply State.satAdd_keeps | apply Keeps.ite)
    | split
    | dsimp only

theorem State.recordEv_go_keeps {s0 : State} (e : EvIn) (s : State) (hk : Keeps s0 s) : Keeps s0 (State.recordEv.go e s) := by
  unfold State.recordEv.go
  repeat' first
    | with_reducible exact hk
    | with_reducible assumption
    | simp only [Keeps.upd_iff]
    | with_reducible apply State.p_keeps
    | with_reducible apply State.stageRec_keeps
    | with_reducible apply State.suppress_keeps
    | with_reducible apply Keeps.ite
    | split

theorem State.recordEv_keeps {s0 : State} (s : State) (e : EvIn) (hk : Keeps s0 s) : Keeps s0 (State.recordEv s e) := by
  unfold State.recordEv
  repeat' first
    | with_reducible exact hk
    | with_reducible assumption
    | with_reducible apply State.recordEv_go_keeps
    | with_reducible apply State.suppress_keeps
    | with_reducible apply Keeps.ite
    | simp only [Keeps.upd_iff]
    | split

theorem State.sendRecord_keeps {s0 : State} (s : State) (kind : Nat) (body : List Byte) (hk : Keeps s0 s) : Keeps s0 (State.sendRecord s kind body) := by
  unfold State.sendRecord
  repeat' first
    | (with_reducible first | exact hk | assumption | apply State.emit_keeps | apply Keeps.ite)
    | simp only [Keeps.upd_iff]
    | split
    | dsimp only

theorem State.releaseEv_keeps {s0 : State} (s : State) (c : Nat) (n : Nat) (hk : Keeps s0 s) : Keeps s0 (State.releaseEv s c n) := by
  unfold State.releaseEv
  repeat' first
    | (with_reducible first | exact hk | assumption | apply State.p_keeps | apply Keeps.ite)
    | split
    | dsimp only

theorem State.postTo_keeps {s0 : State} (s : State) (c : Nat) (e : QEnt) (hk : Keeps s0 s) : Keeps s0 (State.postTo s c e) := by
  unfold State.postTo
  repeat' first
    | (with_reducible first | exact hk | assumption | apply State.p_keeps | apply State.inc_keeps | apply State.emit_keeps | apply State.sendRecord_keeps | apply State.releaseEv_keeps | apply Keeps.ite)
    | simp only [Keeps.upd_iff]
    | simp only [Keeps.mb_iff]
    | (with_reducible apply Keeps.setMb <;> [skip; exact fun hw => by simp [hw, Memory.wf_wrL, Memory.wf_wipe]])
    | split
    | dsimp only

theorem State.post_keeps {s0 : State} (s : State) (e : QEnt) (hk : Keeps s0 s) : Keeps s0 (State.post s e) := by
  unfold State.post
  repeat' first
    | (with_reducible first | exact hk | assumption | apply State.postTo_keeps | apply Keeps.ite)
    | (with_reducible apply Keeps.foldl; intro _ _ _)
    | split
    | dsimp only

theorem State.event_keeps {s0 : State} (s : State) (cat : Nat) (e : EvIn) (hk : Keeps s0 s) : Keeps s0 (State.event s cat e) := by
  unfold State.event
  repeat' first
    | (with_reducible first | exact hk | assumption | apply State.recordEv_keeps | apply State.post_keeps | apply Keeps.ite)
    | simp only [Keeps.upd_iff]
    | split
    | dsimp only

theorem State.noticeD_keeps {s0 : State} (s : State) (src code : Nat) (data : List Byte) (hk : Keeps s0 s) : Keeps s0 (State.noticeD s src code data) := by
  unfold State.noticeD
  repeat' first
    | (with_reducible first | exact hk | assumption | apply State.p_keeps | apply State.inc_keeps | apply State.event_keeps | apply Keeps.ite)
    | simp only [Keeps.upd_iff]
    | split
    | dsimp only

theorem State.notice_keeps {s0 : State} (s : State) (src code : Nat) (elem : Nat := 0) (st : Word := 0) (hk : Keeps s0 s) : Keeps s0 (State.notice s src code elem st) := by
  unfold State.notice
  repeat' first
    | (with_reducible first | exact hk | assumption | apply State.noticeD_keeps | apply Keeps.ite)
    | split
    | dsimp only

/-! ### Time -/

theorem State.eraWrap_keeps {s0 : State} (s : State) (hk : Keeps s0 s) : Keeps s0 (State.eraWrap s) := by
  unfold State.eraWrap
  repeat' first
    | (with_reducible first | exact hk | assumption | apply State.p_keeps | apply State.inc_keeps | apply State.notice_keeps | apply Keeps.ite)
    | split
    | dsimp only

theorem State.advanceNs_keeps {s0 : State} (s : State) (n : Nat) (hk : Keeps s0 s) : Keeps s0 (State.advanceNs s n) := by
  unfold State.advanceNs
  repeat' first
    | (with_reducible first | exact hk | assumption | apply State.p_keeps | apply State.eraWrap_keeps | apply Keeps.ite)
    | split
    | dsimp only

theorem execTimeTickWrap_keeps {s0 : State} (s : State) (hk : Keeps s0 s) : KeepsO s0 (execTimeTickWrap s) := by
  unfold execTimeTickWrap
  repeat' first
    | (with_reducible first | exact hk | assumption | apply State.p_keeps | apply State.inc_keeps | apply State.eraWrap_keeps | apply Keeps.ite | apply KeepsO.ite | apply KeepsO.next)
    | simp only [Keeps.upd_iff]
    | split
    | dsimp only

theorem State.incWrite_keeps {s0 : State} (s : State) (v : Word) (hk : Keeps s0 s) : Keeps s0 (State.incWrite s v) := by
  unfold State.incWrite
  repeat' first
    | (with_reducible first | exact hk | assumption | apply State.p_keeps | apply State.inc_keeps | apply State.notice_keeps | apply Keeps.ite)
    | simp only [Keeps.upd_iff]
    | split
    | dsimp only

theorem execIncrementWrite_keeps {s0 : State} (v : Word) (s : State) (hk : Keeps s0 s) : KeepsO s0 (execIncrementWrite v s) := by
  unfold execIncrementWrite
  repeat' first
    | (with_reducible first | exact hk | assumption | apply State.incWrite_keeps | apply Keeps.ite | apply KeepsO.ite | apply KeepsO.next)
    | split
    | dsimp only

theorem State.eranextWrite_keeps {s0 : State} (s : State) (v : Word) (hk : Keeps s0 s) : Keeps s0 (State.eranextWrite s v) := by
  unfold State.eranextWrite
  repeat' first
    | (with_reducible first | exact hk | assumption | apply State.p_keeps | apply Keeps.ite)
    | split
    | dsimp only

theorem execEranextWrite_keeps {s0 : State} (v : Word) (s : State) (hk : Keeps s0 s) : KeepsO s0 (execEranextWrite v s) := by
  unfold execEranextWrite
  repeat' first
    | (with_reducible first | exact hk | assumption | apply State.eranextWrite_keeps | apply Keeps.ite | apply KeepsO.ite | apply KeepsO.next)
    | split
    | dsimp only

theorem State.snapshot_keeps {s0 : State} (s : State) (hk : Keeps s0 s) : Keeps s0 (State.snapshot s) := by
  unfold State.snapshot
  repeat' first
    | (with_reducible first | exact hk | assumption | apply State.p_keeps | apply Keeps.ite)
    | split
    | dsimp only

theorem execTimeSnapshot_keeps {s0 : State} (s : State) (hk : Keeps s0 s) : KeepsO s0 (execTimeSnapshot s) := by
  unfold execTimeSnapshot
  repeat' first
    | (with_reducible first | exact hk | assumption | apply State.snapshot_keeps | apply Keeps.ite | apply KeepsO.ite | apply KeepsO.next)
    | split
    | dsimp only

theorem execIncrementStale_keeps {s0 : State} (s : State) (hk : Keeps s0 s) : KeepsO s0 (execIncrementStale s) := by
  unfold execIncrementStale
  repeat' first
    | (with_reducible first | exact hk | assumption | apply State.p_keeps | apply State.notice_keeps | apply Keeps.ite | apply KeepsO.ite | apply KeepsO.next)
    | split
    | dsimp only

theorem State.capKeep_keeps {s0 : State} (s : State) (n : Nat) (e : CapEnt) (hk : Keeps s0 s) : Keeps s0 (State.capKeep s n e) := by
  unfold State.capKeep
  repeat' first
    | (with_reducible first | exact hk | assumption | apply Keeps.ite)
    | simp only [Keeps.upd_iff]
    | split
    | dsimp only

theorem State.capture_keeps {s0 : State} (s : State) (n stamp : Nat) (hk : Keeps s0 s) : Keeps s0 (State.capture s n stamp) := by
  unfold State.capture
  repeat' first
    | (with_reducible first | exact hk | assumption | apply State.p_keeps | apply State.inc_keeps | apply State.capKeep_keeps | apply Keeps.ite)
    | simp only [Keeps.upd_iff]
    | split
    | dsimp only

theorem execCaptureEvent_keeps {s0 : State} (n : Fin 16) (stamp : Nat) (s : State) (hk : Keeps s0 s) : KeepsO s0 (execCaptureEvent n stamp s) := by
  unfold execCaptureEvent
  repeat' first
    | (with_reducible first | exact hk | assumption | apply State.capture_keeps | apply Keeps.ite | apply KeepsO.ite | apply KeepsO.next)
    | split
    | dsimp only

theorem State.captureSrc_keeps {s0 : State} (s : State) (src node : Nat) (rising : Bool) (stamp : Nat) (hk : Keeps s0 s) : Keeps s0 (State.captureSrc s src node rising stamp) := by
  unfold State.captureSrc
  repeat' first
    | (with_reducible first | exact hk | assumption | apply State.capture_keeps | apply Keeps.ite)
    | (with_reducible apply Keeps.foldl; intro _ _ _)
    | split
    | dsimp only

theorem State.capConfig_keeps {s0 : State} (s : State) (n : Nat) (v : Word) (hk : Keeps s0 s) : Keeps s0 (State.capConfig s n v) := by
  unfold State.capConfig
  repeat' first
    | (with_reducible first | exact hk | assumption | apply State.p_keeps | apply State.notice_keeps | apply Keeps.ite)
    | simp only [Keeps.upd_iff]
    | split
    | dsimp only

theorem execCaptureEnable_keeps {s0 : State} (n : Fin 16) (v : Word) (s : State) (hk : Keeps s0 s) : KeepsO s0 (execCaptureEnable n v s) := by
  unfold execCaptureEnable
  repeat' first
    | (with_reducible first | exact hk | assumption | apply State.capConfig_keeps | apply Keeps.ite | apply KeepsO.ite | apply KeepsO.next)
    | split
    | dsimp only

theorem State.armNow_keeps {s0 : State} (s : State) (n t : Nat) (hk : Keeps s0 s) : Keeps s0 (State.armNow s n t) := by
  unfold State.armNow
  repeat' first
    | (with_reducible first | exact hk | assumption | apply State.p_keeps | apply Keeps.ite)
    | simp only [Keeps.upd_iff]
    | split
    | dsimp only

theorem State.arm_keeps {s0 : State} (s : State) (n t : Nat) (hk : Keeps s0 s) : Keeps s0 (State.arm s n t) := by
  unfold State.arm
  repeat' first
    | (with_reducible first | exact hk | assumption | apply State.armNow_keeps | apply Keeps.ite)
    | simp only [Keeps.upd_iff]
    | split
    | dsimp only

theorem State.trgWrite_keeps {s0 : State} (s : State) (n : Nat) (v : Word) (hk : Keeps s0 s) : Keeps s0 (State.trgWrite s n v) := by
  unfold State.trgWrite
  repeat' first
    | (with_reducible first | exact hk | assumption | apply State.arm_keeps | apply Keeps.ite)
    | split
    | dsimp only

theorem execTriggerArm_keeps {s0 : State} (n : Fin 16) (v : Word) (s : State) (hk : Keeps s0 s) : KeepsO s0 (execTriggerArm n v s) := by
  unfold execTriggerArm
  repeat' first
    | (with_reducible first | exact hk | assumption | apply State.trgWrite_keeps | apply Keeps.ite | apply KeepsO.ite | apply KeepsO.next)
    | split
    | dsimp only

/-! ### FieldOps -/

theorem State.modOut_keeps {s0 : State} (s : State) (k : Nat) (f : OutSt → OutSt) (hk : Keeps s0 s) : Keeps s0 (State.modOut s k f) := by
  unfold State.modOut
  repeat' first
    | (with_reducible first | exact hk | assumption | apply Keeps.ite)
    | simp only [Keeps.upd_iff]
    | split
    | dsimp only

theorem State.modDrv_keeps {s0 : State} (s : State) (d : Nat) (f : DrvSt → DrvSt) (hk : Keeps s0 s) : Keeps s0 (State.modDrv s d f) := by
  unfold State.modDrv
  repeat' first
    | (with_reducible first | exact hk | assumption | apply Keeps.ite)
    | simp only [Keeps.upd_iff]
    | split
    | dsimp only

theorem State.driveOutputs_keeps {s0 : State} (s : State) (hk : Keeps s0 s) : Keeps s0 (State.driveOutputs s) := by
  unfold State.driveOutputs
  repeat' first
    | (with_reducible first | exact hk | assumption | apply State.p_keeps | apply State.pb_keeps | apply Keeps.ite)
    | (with_reducible apply Keeps.foldl; intro _ _ _)
    | split
    | dsimp only

theorem State.redrive_keeps {s0 : State} (s : State) (port : Nat) (hk : Keeps s0 s) : Keeps s0 (State.redrive s port) := by
  unfold State.redrive
  repeat' first
    | (with_reducible first | exact hk | assumption | apply State.driveOutputs_keeps | apply Keeps.ite)
    | split
    | dsimp only

theorem State.modAio_keeps {s0 : State} (s : State) (n : Nat) (f : AioSt → AioSt) (hk : Keeps s0 s) : Keeps s0 (State.modAio s n f) := by
  unfold State.modAio
  repeat' first
    | (with_reducible first | exact hk | assumption | apply Keeps.ite)
    | simp only [Keeps.upd_iff]
    | split
    | dsimp only

theorem State.ss1End_keeps {s0 : State} (s : State) (d cause : Nat) (hk : Keeps s0 s) : Keeps s0 (State.ss1End s d cause) := by
  unfold State.ss1End
  repeat' first
    | (with_reducible first | exact hk | assumption | apply State.noticeD_keeps | apply Keeps.ite)
    | split
    | dsimp only

theorem State.encRest_keeps {s0 : State} (s : State) (d : Nat) (hk : Keeps s0 s) : Keeps s0 (State.encRest s d) := by
  unfold State.encRest
  repeat' first
    | (with_reducible first | exact hk | assumption | apply State.modDrv_keeps | apply Keeps.ite)
    | simp only [Keeps.upd_iff]
    | split
    | dsimp only

theorem State.torqueOff_keeps {s0 : State} (s : State) (d cause : Nat) (hk : Keeps s0 s) : Keeps s0 (State.torqueOff s d cause) := by
  unfold State.torqueOff
  repeat' first
    | (with_reducible first | exact hk | assumption | apply State.p_keeps | apply State.inc_keeps | apply State.ss1End_keeps | apply State.encRest_keeps | apply Keeps.ite)
    | split
    | dsimp only

theorem State.drivesOff_keeps {s0 : State} (s : State) (cause : Nat) (hk : Keeps s0 s) : Keeps s0 (State.drivesOff s cause) := by
  unfold State.drivesOff
  repeat' first
    | (with_reducible first | exact hk | assumption | apply State.torqueOff_keeps | apply Keeps.ite)
    | split
    | dsimp only

theorem State.driveOff_keeps {s0 : State} (s : State) (d : Nat) (hk : Keeps s0 s) : Keeps s0 (State.driveOff s d) := by
  unfold State.driveOff
  repeat' first
    | (with_reducible first | exact hk | assumption | apply State.p_keeps | apply State.ss1End_keeps | apply State.encRest_keeps | apply Keeps.ite)
    | split
    | dsimp only

theorem State.drivesDisable_keeps {s0 : State} (s : State) (hk : Keeps s0 s) : Keeps s0 (State.drivesDisable s) := by
  unfold State.drivesDisable
  repeat' first
    | (with_reducible first | exact hk | assumption | apply State.driveOff_keeps | apply Keeps.ite)
    | split
    | dsimp only

theorem State.drivesEnable_keeps {s0 : State} (s : State) (hk : Keeps s0 s) : Keeps s0 (State.drivesEnable s) := by
  unfold State.drivesEnable
  repeat' first
    | (with_reducible first | exact hk | assumption | apply State.p_keeps | apply State.inc_keeps | apply Keeps.ite)
    | (with_reducible apply Keeps.foldl; intro _ _ _)
    | split
    | dsimp only

theorem State.permit_keeps {s0 : State} (s : State) (d : Nat) (v : Nat) (hk : Keeps s0 s) : Keeps s0 (State.permit s d v) := by
  unfold State.permit
  repeat' first
    | (with_reducible first | exact hk | assumption | apply State.p_keeps | apply State.modDrv_keeps | apply State.driveOutputs_keeps | apply State.torqueOff_keeps | apply Keeps.ite)
    | simp only [Keeps.upd_iff]
    | split
    | dsimp only

theorem State.gateFault_keeps {s0 : State} (s : State) (hk : Keeps s0 s) : Keeps s0 (State.gateFault s) := by
  unfold State.gateFault
  repeat' first
    | (with_reducible first | exact hk | assumption | apply State.p_keeps | apply State.driveOutputs_keeps | apply State.drivesOff_keeps | apply Keeps.ite)
    | split
    | dsimp only

theorem State.gate_keeps {s0 : State} (s : State) (hk : Keeps s0 s) : Keeps s0 (State.gate s) := by
  unfold State.gate
  repeat' first
    | (with_reducible first | exact hk | assumption | apply State.gateFault_keeps | apply Keeps.ite)
    | split
    | dsimp only

theorem State.ungate_keeps {s0 : State} (s : State) (hk : Keeps s0 s) : Keeps s0 (State.ungate s) := by
  unfold State.ungate
  repeat' first
    | (with_reducible first | exact hk | assumption | apply State.p_keeps | apply State.driveOutputs_keeps | apply Keeps.ite)
    | split
    | dsimp only

theorem State.modRx_keeps {s0 : State} (s : State) (r : Nat) (f : RxSt → RxSt) (hk : Keeps s0 s) : Keeps s0 (State.modRx s r f) := by
  unfold State.modRx
  repeat' first
    | (with_reducible first | exact hk | assumption | apply Keeps.ite)
    | simp only [Keeps.upd_iff]
    | split
    | dsimp only

theorem State.scStat_keeps {s0 : State} (s : State) (hk : Keeps s0 s) : Keeps s0 (State.scStat s) := by
  unfold State.scStat
  repeat' first
    | (with_reducible first | exact hk | assumption | apply State.p_keeps | apply Keeps.ite)
    | split
    | dsimp only

theorem State.rxState_keeps {s0 : State} (s : State) (r new : Nat) (seq : Nat) (hk : Keeps s0 s) : Keeps s0 (State.rxState s r new seq) := by
  unfold State.rxState
  repeat' first
    | (with_reducible first | exact hk | assumption | apply State.p_keeps | apply State.post_keeps | apply State.scStat_keeps | apply Keeps.ite)
    | simp only [Keeps.upd_iff]
    | split
    | dsimp only

theorem State.scOff_keeps {s0 : State} (s : State) (hk : Keeps s0 s) : Keeps s0 (State.scOff s) := by
  unfold State.scOff
  repeat' first
    | (with_reducible first | exact hk | assumption | apply State.scStat_keeps | apply State.rxState_keeps | apply Keeps.ite)
    | (with_reducible apply Keeps.foldl; intro _ _ _)
    | split
    | dsimp only

theorem State.scStart_keeps {s0 : State} (s : State) (hk : Keeps s0 s) : Keeps s0 (State.scStart s) := by
  unfold State.scStart
  repeat' first
    | (with_reducible first | exact hk | assumption | apply State.p_keeps | apply State.modRx_keeps | apply State.scStat_keeps | apply State.rxState_keeps | apply Keeps.ite)
    | (with_reducible apply Keeps.foldl; intro _ _ _)
    | split
    | dsimp only

/-! ### FieldIo -/

theorem State.modDi_keeps {s0 : State} (s : State) (n : Nat) (f : DiSt → DiSt) (hk : Keeps s0 s) : Keeps s0 (State.modDi s n f) := by
  unfold State.modDi
  repeat' first
    | (with_reducible first | exact hk | assumption | apply Keeps.ite)
    | simp only [Keeps.upd_iff]
    | split
    | dsimp only

theorem State.diTransition_keeps {s0 : State} (s : State) (n : Nat) (level : Bool) (start : Nat × Bool) (hk : Keeps s0 s) : Keeps s0 (State.diTransition s n level start) := by
  unfold State.diTransition
  repeat' first
    | (with_reducible first | exact hk | assumption | apply State.p_keeps | apply State.pb_keeps | apply State.inc_keeps | apply State.captureSrc_keeps | apply State.modDi_keeps | apply Keeps.ite)
    | simp only [Keeps.upd_iff]
    | split
    | dsimp only

theorem State.diSample_keeps {s0 : State} (s : State) (n : Nat) (high : Bool) (hk : Keeps s0 s) : Keeps s0 (State.diSample s n high) := by
  unfold State.diSample
  repeat' first
    | (with_reducible first | exact hk | assumption | apply State.p_keeps | apply State.modDi_keeps | apply State.diTransition_keeps | apply Keeps.ite)
    | simp only [Keeps.upd_iff]
    | split
    | dsimp only

theorem State.supplySample_keeps {s0 : State} (s : State) (v : Nat) (hk : Keeps s0 s) : Keeps s0 (State.supplySample s v) := by
  unfold State.supplySample
  repeat' first
    | (with_reducible first | exact hk | assumption | apply State.p_keeps | apply Keeps.ite)
    | simp only [Keeps.upd_iff]
    | split
    | dsimp only

theorem execFilterSample_keeps {s0 : State} (raw : BitVec 16) (fld : Nat) (s : State) (hk : Keeps s0 s) : KeepsO s0 (execFilterSample raw fld s) := by
  unfold execFilterSample
  repeat' first
    | (with_reducible first | exact hk | assumption | apply State.diSample_keeps | apply State.supplySample_keeps | apply Keeps.ite | apply KeepsO.ite | apply KeepsO.next)
    | (with_reducible apply Keeps.foldl; intro _ _ _)
    | split
    | dsimp only

theorem execRawEdge_keeps {s0 : State} (n : Fin 16) (level : Bool) (stamp : Nat) (s : State) (hk : Keeps s0 s) : KeepsO s0 (execRawEdge n level stamp s) := by
  unfold execRawEdge
  repeat' first
    | (with_reducible first | exact hk | assumption | apply State.modDi_keeps | apply Keeps.ite | apply KeepsO.ite | apply KeepsO.next)
    | simp only [Keeps.upd_iff]
    | split
    | dsimp only

theorem State.setTop_keeps {s0 : State} (s : State) (n top : Nat) (hk : Keeps s0 s) : Keeps s0 (State.setTop s n top) := by
  unfold State.setTop
  repeat' first
    | (with_reducible first | exact hk | assumption | apply State.p_keeps | apply State.notice_keeps | apply State.modDi_keeps | apply Keeps.ite)
    | simp only [Keeps.upd_iff]
    | split
    | dsimp only

theorem execSupplyNormal_keeps {s0 : State} (s : State) (hk : Keeps s0 s) : KeepsO s0 (execSupplyNormal s) := by
  unfold execSupplyNormal
  repeat' first
    | (with_reducible first | exact hk | assumption | apply State.p_keeps | apply State.driveOutputs_keeps | apply Keeps.ite | apply KeepsO.ite | apply KeepsO.next)
    | split
    | dsimp only

theorem execSupplyLatch_keeps {s0 : State} (s : State) (hk : Keeps s0 s) : KeepsO s0 (execSupplyLatch s) := by
  unfold execSupplyLatch
  repeat' first
    | (with_reducible first | exact hk | assumption | apply State.p_keeps | apply State.notice_keeps | apply State.driveOutputs_keeps | apply State.drivesOff_keeps | apply Keeps.ite | apply KeepsO.ite | apply KeepsO.next)
    | simp only [Keeps.upd_iff]
    | split
    | dsimp only

theorem State.release_keeps {s0 : State} (s : State) (v : Word) (hk : Keeps s0 s) : Keeps s0 (State.release s v) := by
  unfold State.release
  repeat' first
    | (with_reducible first | exact hk | assumption | apply State.p_keeps | apply State.modOut_keeps | apply State.driveOutputs_keeps | apply Keeps.ite)
    | (with_reducible apply Keeps.foldl; intro _ _ _)
    | simp only [Keeps.upd_iff]
    | split
    | dsimp only

theorem State.shutdown_keeps {s0 : State} (s : State) (k : Nat) (hk : Keeps s0 s) : Keeps s0 (State.shutdown s k) := by
  unfold State.shutdown
  repeat' first
    | (with_reducible first | exact hk | assumption | apply State.p_keeps | apply State.notice_keeps | apply State.modOut_keeps | apply Keeps.ite)
    | simp only [Keeps.upd_iff]
    | split
    | dsimp only

theorem execThermalShutdown_keeps {s0 : State} (n : Fin 12) (s : State) (hk : Keeps s0 s) : KeepsO s0 (execThermalShutdown n s) := by
  unfold execThermalShutdown
  repeat' first
    | (with_reducible first | exact hk | assumption | apply State.p_keeps | apply State.notice_keeps | apply State.shutdown_keeps | apply Keeps.ite | apply KeepsO.ite | apply KeepsO.next)
    | split
    | dsimp only

theorem execThermalRetry_keeps {s0 : State} (c : OutCh) (s : State) (hk : Keeps s0 s) : KeepsO s0 (execThermalRetry c s) := by
  unfold execThermalRetry
  repeat' first
    | (with_reducible first | exact hk | assumption | apply State.p_keeps | apply State.pb_keeps | apply State.inc_keeps | apply State.modOut_keeps | apply Keeps.ite | apply KeepsO.ite | apply KeepsO.next)
    | simp only [Keeps.upd_iff]
    | split
    | dsimp only

theorem execRetryCountReset_keeps {s0 : State} (c : OutCh) (s : State) (hk : Keeps s0 s) : KeepsO s0 (execRetryCountReset c s) := by
  unfold execRetryCountReset
  repeat' first
    | (with_reducible first | exact hk | assumption | apply State.p_keeps | apply Keeps.ite | apply KeepsO.ite | apply KeepsO.next)
    | split
    | dsimp only

theorem execHsoOverload_keeps {s0 : State} (n : Fin 12) (s : State) (hk : Keeps s0 s) : KeepsO s0 (execHsoOverload n s) := by
  unfold execHsoOverload
  repeat' first
    | (with_reducible first | exact hk | assumption | apply State.p_keeps | apply State.notice_keeps | apply Keeps.ite | apply KeepsO.ite | apply KeepsO.next)
    | split
    | dsimp only

theorem execHsoOpenLoad_keeps {s0 : State} (n : Fin 12) (present : Bool) (s : State) (hk : Keeps s0 s) : KeepsO s0 (execHsoOpenLoad n present s) := by
  unfold execHsoOpenLoad
  repeat' first
    | (with_reducible first | exact hk | assumption | apply State.p_keeps | apply State.notice_keeps | apply Keeps.ite | apply KeepsO.ite | apply KeepsO.next)
    | split
    | dsimp only

theorem execHsoShortToSupply_keeps {s0 : State} (n : Fin 12) (present : Bool) (s : State) (hk : Keeps s0 s) : KeepsO s0 (execHsoShortToSupply n present s) := by
  unfold execHsoShortToSupply
  repeat' first
    | (with_reducible first | exact hk | assumption | apply State.p_keeps | apply State.notice_keeps | apply Keeps.ite | apply KeepsO.ite | apply KeepsO.next)
    | split
    | dsimp only

theorem execFppOverload_keeps {s0 : State} (n : Fin 4) (s : State) (hk : Keeps s0 s) : KeepsO s0 (execFppOverload n s) := by
  unfold execFppOverload
  repeat' first
    | (with_reducible first | exact hk | assumption | apply State.p_keeps | apply State.notice_keeps | apply State.shutdown_keeps | apply Keeps.ite | apply KeepsO.ite | apply KeepsO.next)
    | split
    | dsimp only

theorem execFppEdgeCheck_keeps {s0 : State} (n : Fin 4) (level : Bool) (s : State) (hk : Keeps s0 s) : KeepsO s0 (execFppEdgeCheck n level s) := by
  unfold execFppEdgeCheck
  repeat' first
    | (with_reducible first | exact hk | assumption | apply State.p_keeps | apply State.pb_keeps | apply State.notice_keeps | apply Keeps.ite | apply KeepsO.ite | apply KeepsO.next)
    | split
    | dsimp only

theorem State.holdOutputs_keeps {s0 : State} (s : State) (hk : Keeps s0 s) : Keeps s0 (State.holdOutputs s) := by
  unfold State.holdOutputs
  repeat' first
    | (with_reducible first | exact hk | assumption | apply State.modOut_keeps | apply State.modAio_keeps | apply Keeps.ite)
    | (with_reducible apply Keeps.foldl; intro _ _ _)
    | simp only [Keeps.upd_iff]
    | split
    | dsimp only

theorem execSilenceExpiry_keeps {s0 : State} (s : State) (hk : Keeps s0 s) : KeepsO s0 (execSilenceExpiry s) := by
  unfold execSilenceExpiry
  repeat' first
    | (with_reducible first | exact hk | assumption | apply State.p_keeps | apply State.inc_keeps | apply State.notice_keeps | apply State.driveOutputs_keeps | apply State.drivesOff_keeps | apply State.holdOutputs_keeps | apply Keeps.ite | apply KeepsO.ite | apply KeepsO.next)
    | simp only [Keeps.upd_iff]
    | split
    | dsimp only

end Sys2Proof.Machine
end

