-- ==== Sys2Proof/Laws/Keep2.lean ====
section
/-! SUPPORT. What every operation keeps of a state (`Keeps`): those of Machine/Analogue.lean, RingOps.lean, MailOps.lean, Lanes.lean, Reset.lean. -/

set_option linter.all false

namespace Sys2Proof.Machine
open Sys2Proof.Safety

/-! ### Analogue -/

theorem State.showAio_keeps {s0 : State} (s : State) (n start : Nat) (hk : Keeps s0 s) : Keeps s0 (State.showAio s n start) := by
  unfold State.showAio
  repeat' first
    | (with_reducible first | exact hk | assumption | apply State.modAio_keeps | apply Keeps.ite)
    | simp only [Keeps.upd_iff]
    | split
    | dsimp only

theorem State.convResult_keeps {s0 : State} (s : State) (n : Nat) (v : Int) (stamp : Nat) (hk : Keeps s0 s) : Keeps s0 (State.convResult s n v stamp) := by
  unfold State.convResult
  repeat' first
    | (with_reducible first | exact hk | assumption | apply State.p_keeps | apply State.showAio_keeps | apply Keeps.ite)
    | split
    | dsimp only

theorem State.ovrClear_keeps {s0 : State} (s : State) (n : Nat) (hk : Keeps s0 s) : Keeps s0 (State.ovrClear s n) := by
  unfold State.ovrClear
  repeat' first
    | (with_reducible first | exact hk | assumption | apply State.p_keeps | apply Keeps.ite)
    | split
    | dsimp only

theorem execAnalogueConversion_keeps {s0 : State} (n : Fin 6) (value : Int) (stamp : Nat) (s : State) (hk : Keeps s0 s) : KeepsO s0 (execAnalogueConversion n value stamp s) := by
  unfold execAnalogueConversion
  repeat' first
    | (with_reducible first | exact hk | assumption | apply State.p_keeps | apply State.modAio_keeps | apply State.showAio_keeps | apply State.convResult_keeps | apply State.ovrClear_keeps | apply Keeps.ite | apply KeepsO.ite | apply KeepsO.next)
    | simp only [Keeps.upd_iff]
    | split
    | dsimp only

theorem State.trigConvert_keeps {s0 : State} (s : State) (n : Nat) (hk : Keeps s0 s) : Keeps s0 (State.trigConvert s n) := by
  unfold State.trigConvert
  repeat' first
    | (with_reducible first | exact hk | assumption | apply State.inc_keeps | apply State.modAio_keeps | apply Keeps.ite)
    | simp only [Keeps.upd_iff]
    | split
    | dsimp only

theorem State.raiseAn_keeps {s0 : State} (s : State) (n : Nat) (f : Fld) (code : Nat) (hk : Keeps s0 s) : Keeps s0 (State.raiseAn s n f code) := by
  unfold State.raiseAn
  repeat' first
    | (with_reducible first | exact hk | assumption | apply State.p_keeps | apply State.notice_keeps | apply Keeps.ite)
    | split
    | dsimp only

theorem execLoopDiagnosticMeasurement_keeps {s0 : State} (n : Fin 6) (m : LoopMeas) (s : State) (hk : Keeps s0 s) : KeepsO s0 (execLoopDiagnosticMeasurement n m s) := by
  unfold execLoopDiagnosticMeasurement
  repeat' first
    | (with_reducible first | exact hk | assumption | apply State.p_keeps | apply State.modAio_keeps | apply State.ovrClear_keeps | apply State.raiseAn_keeps | apply Keeps.ite | apply KeepsO.ite | apply KeepsO.next)
    | simp only [Keeps.upd_iff]
    | split
    | dsimp only

theorem execFoldBack_keeps {s0 : State} (n : Fin 6) (on : Bool) (s : State) (hk : Keeps s0 s) : KeepsO s0 (execFoldBack n on s) := by
  unfold execFoldBack
  repeat' first
    | (with_reducible first | exact hk | assumption | apply State.p_keeps | apply State.modAio_keeps | apply State.raiseAn_keeps | apply Keeps.ite | apply KeepsO.ite | apply KeepsO.next)
    | simp only [Keeps.upd_iff]
    | split
    | dsimp only

theorem State.effAlarm_keeps {s0 : State} (s : State) (n : Nat) (hk : Keeps s0 s) : Keeps s0 (State.effAlarm s n) := by
  unfold State.effAlarm
  repeat' first
    | (with_reducible first | exact hk | assumption | apply State.pb_keeps | apply Keeps.ite)
    | split
    | dsimp only

theorem State.jumpers_keeps {s0 : State} (s : State) (n : Nat) (lo hi : Bool) (hk : Keeps s0 s) : Keeps s0 (State.jumpers s n lo hi) := by
  unfold State.jumpers
  repeat' first
    | (with_reducible first | exact hk | assumption | apply State.pb_keeps | apply State.notice_keeps | apply State.effAlarm_keeps | apply Keeps.ite)
    | split
    | dsimp only

theorem execJumperRead_keeps {s0 : State} (lo hi : BitVec 6) (s : State) (hk : Keeps s0 s) : KeepsO s0 (execJumperRead lo hi s) := by
  unfold execJumperRead
  repeat' first
    | (with_reducible first | exact hk | assumption | apply State.jumpers_keeps | apply Keeps.ite | apply KeepsO.ite | apply KeepsO.next)
    | (with_reducible apply Keeps.foldl; intro _ _ _)
    | split
    | dsimp only

theorem execShuntOvercurrent_keeps {s0 : State} (n : Fin 6) (s : State) (hk : Keeps s0 s) : KeepsO s0 (execShuntOvercurrent n s) := by
  unfold execShuntOvercurrent
  repeat' first
    | (with_reducible first | exact hk | assumption | apply State.p_keeps | apply State.notice_keeps | apply State.modAio_keeps | apply State.showAio_keeps | apply Keeps.ite | apply KeepsO.ite | apply KeepsO.next)
    | simp only [Keeps.upd_iff]
    | split
    | dsimp only

theorem execShuntReconnect_keeps {s0 : State} (n : Fin 6) (s : State) (hk : Keeps s0 s) : KeepsO s0 (execShuntReconnect n s) := by
  unfold execShuntReconnect
  repeat' first
    | (with_reducible first | exact hk | assumption | apply State.modAio_keeps | apply Keeps.ite | apply KeepsO.ite | apply KeepsO.next)
    | simp only [Keeps.upd_iff]
    | split
    | dsimp only

theorem State.aioMode_keeps {s0 : State} (s : State) (n mode : Nat) (hk : Keeps s0 s) : Keeps s0 (State.aioMode s n mode) := by
  unfold State.aioMode
  repeat' first
    | (with_reducible first | exact hk | assumption | apply State.p_keeps | apply State.modAio_keeps | apply State.showAio_keeps | apply Keeps.ite)
    | simp only [Keeps.upd_iff]
    | split
    | dsimp only

theorem execModeSettleEnd_keeps {s0 : State} (n : Fin 6) (s : State) (hk : Keeps s0 s) : KeepsO s0 (execModeSettleEnd n s) := by
  unfold execModeSettleEnd
  repeat' first
    | (with_reducible first | exact hk | assumption | apply State.modAio_keeps | apply Keeps.ite | apply KeepsO.ite | apply KeepsO.next)
    | simp only [Keeps.upd_iff]
    | split
    | dsimp only

theorem State.commitLoop_keeps {s0 : State} (s : State) (n : Nat) (v : Nat) (hk : Keeps s0 s) : Keeps s0 (State.commitLoop s n v) := by
  unfold State.commitLoop
  repeat' first
    | (with_reducible first | exact hk | assumption | apply State.p_keeps | apply State.inc_keeps | apply Keeps.ite)
    | split
    | dsimp only

/-! ### RingOps -/

theorem State.modRing_keeps {s0 : State} (s : State) (r : Nat) (f : RingSt → RingSt) (hk : Keeps s0 s) : Keeps s0 (s.modRing r f) := by
  unfold State.modRing
  split <;> simp only [Keeps.upd_iff] <;> exact hk

theorem State.modCyc_keeps {s0 : State} (s : State) (r c : Nat) (f : BCyc → BCyc) (hk : Keeps s0 s) : Keeps s0 (State.modCyc s r c f) := by
  unfold State.modCyc
  repeat' first
    | (with_reducible first | exact hk | assumption | apply State.modRing_keeps | apply Keeps.ite)
    | split
    | dsimp only

theorem State.showDelay_keeps {s0 : State} (s : State) (r : Nat) (hk : Keeps s0 s) : Keeps s0 (State.showDelay s r) := by
  unfold State.showDelay
  repeat' first
    | (with_reducible first | exact hk | assumption | apply State.p_keeps | apply Keeps.ite)
    | split
    | dsimp only

theorem State.sendRing_keeps {s0 : State} (s : State) (r : Nat) (f : RFrame) (hk : Keeps s0 s) : Keeps s0 (State.sendRing s r f) := by
  unfold State.sendRing
  repeat' first
    | (with_reducible first | exact hk | assumption | apply State.emit_keeps | apply Keeps.ite)
    | split
    | dsimp only

theorem State.sendPos_keeps {s0 : State} (s : State) (r port p f : Nat) (hk : Keeps s0 s) : Keeps s0 (State.sendPos s r port p f) := by
  unfold State.sendPos
  repeat' first
    | (with_reducible first | exact hk | assumption | apply State.p_keeps | apply State.emit_keeps | apply Keeps.ite)
    | split
    | dsimp only

theorem State.forward_keeps {s0 : State} (s : State) (r : Nat) (f : Option RFrame) (raw : List Byte) (t : Nat) (hk : Keeps s0 s) : Keeps s0 (State.forward s r f raw t) := by
  unfold State.forward
  repeat' first
    | (with_reducible first | exact hk | assumption | apply State.p_keeps | apply State.inc_keeps | apply State.emit_keeps | apply Keeps.ite)
    | split
    | dsimp only

theorem State.repeatSec_keeps {s0 : State} (s : State) (r : Nat) (port : RPort) (raw : List Byte) (hk : Keeps s0 s) : Keeps s0 (State.repeatSec s r port raw) := by
  unfold State.repeatSec
  repeat' first
    | (with_reducible first | exact hk | assumption | apply State.emit_keeps | apply Keeps.ite)
    | split
    | dsimp only

theorem State.exclSync_keeps {s0 : State} (s : State) (r n : Nat) (hk : Keeps s0 s) : Keeps s0 (State.exclSync s r n) := by
  unfold State.exclSync
  repeat' first
    | (with_reducible first | exact hk | assumption | apply State.p_keeps | apply State.modRing_keeps | apply Keeps.ite)
    | simp only [Keeps.upd_iff]
    | split
    | dsimp only

theorem State.rejectFrame_keeps {s0 : State} (s : State) (r : Nat) (f : Option RFrame) (t : Nat) (hk : Keeps s0 s) : Keeps s0 (State.rejectFrame s r f t) := by
  unfold State.rejectFrame
  repeat' first
    | (with_reducible first | exact hk | assumption | apply State.inc_keeps | apply State.exclSync_keeps | apply Keeps.ite)
    | split
    | dsimp only

theorem State.refuse_keeps {s0 : State} (s : State) (r : Nat) (f : Option RFrame) (t : Nat) (hk : Keeps s0 s) : Keeps s0 (State.refuse s r f t) := by
  unfold State.refuse
  repeat' first
    | (with_reducible first | exact hk | assumption | apply State.p_keeps | apply State.rejectFrame_keeps | apply Keeps.ite)
    | split
    | dsimp only

theorem State.passFrame_keeps {s0 : State} (s : State) (r : Nat) (port : RPort) (raw : List Byte) (a : RingArr) (hk : Keeps s0 s) : Keeps s0 (State.passFrame s r port raw a) := by
  unfold State.passFrame
  repeat' first
    | (with_reducible first | exact hk | assumption | apply State.modRing_keeps | apply State.forward_keeps | apply State.repeatSec_keeps | apply Keeps.ite)
    | simp only [Keeps.upd_iff]
    | split
    | dsimp only

/-! ### MailOps -/

theorem State.writeCmd_keeps {s0 : State} (s : State) (c : Nat) (hdr payload : List Byte) (hk : Keeps s0 s) : Keeps s0 (State.writeCmd s c hdr payload) := by
  unfold State.writeCmd
  repeat' first
    | (with_reducible first | exact hk | assumption | apply Keeps.ite)
    | simp only [Keeps.upd_iff]
    | simp only [Keeps.mb_iff]
    | (with_reducible apply Keeps.setMb <;> [skip; exact fun hw => by simp [hw, Memory.wf_wrL, Memory.wf_wipe]])
    | split
    | dsimp only

theorem State.respondOn_keeps {s0 : State} (s : State) (c : Nat) (hdr : List Byte) (status : Nat) (payload : List Byte) (hk : Keeps s0 s) : Keeps s0 (State.respondOn s c hdr status payload) := by
  unfold State.respondOn
  repeat' first
    | (with_reducible first | exact hk | assumption | apply State.p_keeps | apply State.inc_keeps | apply State.emit_keeps | apply State.sendRecord_keeps | apply State.postTo_keeps | apply Keeps.ite)
    | simp only [Keeps.upd_iff]
    | simp only [Keeps.mb_iff]
    | (with_reducible apply Keeps.setMb <;> [skip; exact fun hw => by simp [hw, Memory.wf_wrL, Memory.wf_wipe]])
    | split
    | dsimp only

theorem State.cmdRecord_keeps {s0 : State} (s : State) (c : Nat) (hdr payload : List Byte) (status : Nat) (hk : Keeps s0 s) : Keeps s0 (State.cmdRecord s c hdr payload status) := by
  unfold State.cmdRecord
  repeat' first
    | (with_reducible first | exact hk | assumption | apply State.recordEv_keeps | apply Keeps.ite)
    | simp only [Keeps.upd_iff]
    | split
    | dsimp only

theorem State.imageResponse_keeps {s0 : State} (s : State) (hdr : List Byte) (status : Nat) (payload : List Byte) (hk : Keeps s0 s) : Keeps s0 (State.imageResponse s hdr status payload) := by
  unfold State.imageResponse
  repeat' first
    | (with_reducible first | exact hk | assumption | apply Keeps.ite)
    | simp only [Keeps.upd_iff]
    | split
    | dsimp only

theorem State.respond_keeps {s0 : State} (s : State) (chans : List Nat) (hdr cmd : List Byte) (status : Nat) (payload : List Byte) (hk : Keeps s0 s) : Keeps s0 (State.respond s chans hdr cmd status payload) := by
  unfold State.respond
  repeat' first
    | (with_reducible first | exact hk | assumption | apply State.notice_keeps | apply State.respondOn_keeps | apply State.cmdRecord_keeps | apply State.imageResponse_keeps | apply Keeps.ite)
    | (with_reducible apply Keeps.foldl; intro _ _ _)
    | split
    | dsimp only

theorem State.uninhibit_keeps {s0 : State} (s : State) (hk : Keeps s0 s) : Keeps s0 (State.uninhibit s) := by
  unfold State.uninhibit
  repeat' first
    | (with_reducible first | exact hk | assumption | apply State.p_keeps | apply Keeps.ite)
    | (with_reducible apply Keeps.foldl; intro _ _ _)
    | split
    | dsimp only

theorem State.giveUp_keeps {s0 : State} (s : State) (w : Waiting) (hk : Keeps s0 s) : Keeps s0 (State.giveUp s w) := by
  unfold State.giveUp
  repeat' first
    | (with_reducible first | exact hk | assumption | apply State.uninhibit_keeps | apply Keeps.ite)
    | simp only [Keeps.upd_iff]
    | split
    | dsimp only

theorem State.dropChan_keeps {s0 : State} (s : State) (c : Nat) (hk : Keeps s0 s) : Keeps s0 (State.dropChan s c) := by
  unfold State.dropChan
  repeat' first
    | (with_reducible first | exact hk | assumption | apply State.p_keeps | apply State.giveUp_keeps | apply Keeps.ite)
    | simp only [Keeps.upd_iff]
    | split
    | dsimp only

theorem State.zeroChan_keeps {s0 : State} (s : State) (c : Nat) (hk : Keeps s0 s) : Keeps s0 (State.zeroChan s c) := by
  unfold State.zeroChan
  repeat' first
    | (with_reducible first | exact hk | assumption | apply State.p_keeps | apply State.dropChan_keeps | apply Keeps.ite)
    | simp only [Keeps.upd_iff]
    | simp only [Keeps.mb_iff]
    | (with_reducible apply Keeps.setMb <;> [skip; exact fun hw => by simp [hw, Memory.wf_wrL, Memory.wf_wipe]])
    | split
    | dsimp only

theorem State.closeChan_keeps {s0 : State} (s : State) (c : Nat) (hk : Keeps s0 s) : Keeps s0 (State.closeChan s c) := by
  unfold State.closeChan
  repeat' first
    | (with_reducible first | exact hk | assumption | apply State.p_keeps | apply State.zeroChan_keeps | apply Keeps.ite)
    | split
    | dsimp only

theorem State.openChan_keeps {s0 : State} (s : State) (c : Nat) (voted : Bool) (hk : Keeps s0 s) : Keeps s0 (State.openChan s c voted) := by
  unfold State.openChan
  repeat' first
    | (with_reducible first | exact hk | assumption | apply State.p_keeps | apply State.pb_keeps | apply Keeps.ite)
    | split
    | dsimp only

theorem State.chanGates_keeps {s0 : State} (s : State) (hk : Keeps s0 s) : Keeps s0 (State.chanGates s) := by
  unfold State.chanGates
  repeat' first
    | (with_reducible first | exact hk | assumption | apply State.closeChan_keeps | apply State.openChan_keeps | apply Keeps.ite)
    | (with_reducible apply Keeps.foldl; intro _ _ _)
    | split
    | dsimp only

theorem State.abortWaiting_keeps {s0 : State} (s : State) (hk : Keeps s0 s) : Keeps s0 (State.abortWaiting s) := by
  unfold State.abortWaiting
  repeat' first
    | (with_reducible first | exact hk | assumption | apply State.respond_keeps | apply State.giveUp_keeps | apply Keeps.ite)
    | split
    | dsimp only

theorem State.endLoop_keeps {s0 : State} (s : State) (hk : Keeps s0 s) : Keeps s0 (State.endLoop s) := by
  unfold State.endLoop
  repeat' first
    | (with_reducible first | exact hk | assumption | apply State.redrive_keeps | apply State.respond_keeps | apply Keeps.ite)
    | simp only [Keeps.upd_iff]
    | split
    | dsimp only

theorem State.loopTick_keeps {s0 : State} (s : State) (hk : Keeps s0 s) : Keeps s0 (State.loopTick s) := by
  unfold State.loopTick
  repeat' first
    | (with_reducible first | exact hk | assumption | apply State.redrive_keeps | apply State.respond_keeps | apply Keeps.ite)
    | simp only [Keeps.upd_iff]
    | split
    | dsimp only

theorem State.endSession_keeps {s0 : State} (s : State) (hk : Keeps s0 s) : Keeps s0 (State.endSession s) := by
  unfold State.endSession
  repeat' first
    | (with_reducible first | exact hk | assumption | apply State.p_keeps | apply State.emit_keeps | apply State.closeChan_keeps | apply Keeps.ite)
    | simp only [Keeps.upd_iff]
    | split
    | dsimp only

/-! ### Lanes -/

theorem State.levels_keeps {s0 : State} (s : State) (hk : Keeps s0 s) : Keeps s0 (State.levels s) := by
  unfold State.levels
  repeat' first
    | (with_reducible first | exact hk | assumption | apply State.p_keeps | apply Keeps.ite)
    | (with_reducible apply Keeps.foldl; intro _ _ _)
    | split
    | dsimp only

theorem State.setLaneSt_keeps {s0 : State} (s : State) (l st : Nat) (hk : Keeps s0 s) : Keeps s0 (State.setLaneSt s l st) := by
  unfold State.setLaneSt
  repeat' first
    | (with_reducible first | exact hk | assumption | apply State.p_keeps | apply State.levels_keeps | apply Keeps.ite)
    | split
    | dsimp only

theorem State.wipeLane_keeps {s0 : State} (s : State) (l : Nat) (afterExcl : Bool) (hk : Keeps s0 s) : Keeps s0 (State.wipeLane s l afterExcl) := by
  unfold State.wipeLane
  with_reducible apply State.p_keeps
  with_reducible apply State.p_keeps
  with_reducible apply State.p_keeps
  with_reducible refine Keeps.setLane _ _ ?_ (fun _ => rfl)
  simp only [Keeps.regs_iff]
  exact Keeps.setRegs hk (fun hw => tabWf_filter _ hw)

theorem State.failAttempt_keeps {s0 : State} (s : State) (l : Nat) (hk : Keeps s0 s) : Keeps s0 (State.failAttempt s l).1 := by
  unfold State.failAttempt
  repeat' first
    | (with_reducible first | exact hk | assumption | apply State.p_keeps | apply State.uninhibit_keeps | apply State.setLaneSt_keeps | apply State.wipeLane_keeps | apply Keeps.ite)
    | (with_reducible apply Keeps.setLane <;> [skip; exact fun hw => by simp [State.lane_wf hw, Memory.wf_wrL]])
    | split
    | dsimp only

theorem State.sourceGone_keeps {s0 : State} (s : State) (l : Nat) (hk : Keeps s0 s) : Keeps s0 (State.sourceGone s l).1 := by
  unfold State.sourceGone
  repeat' first
    | (with_reducible first | exact hk | assumption | apply State.p_keeps | apply State.failAttempt_keeps | apply Keeps.ite)
    | (with_reducible apply Keeps.modLane <;> [skip; exact fun _ hw => hw])
    | simp only [Keeps.upd_iff]
    | split
    | (with_reducible refine Keeps.fst ?_ (by assumption))
    | dsimp only

theorem State.spareCounts_keeps {s0 : State} (s : State) (hk : Keeps s0 s) : Keeps s0 (State.spareCounts s) := by
  unfold State.spareCounts
  repeat' first
    | (with_reducible first | exact hk | assumption | apply Keeps.ite)
    | (with_reducible apply Keeps.modLane <;> [skip; exact fun _ hw => hw])
    | simp only [Keeps.upd_iff]
    | split
    | dsimp only

theorem State.dropLane_keeps {s0 : State} (s : State) (l dest : Nat) (hk : Keeps s0 s) : Keeps s0 (State.dropLane s l dest).1 := by
  unfold State.dropLane
  repeat' first
    | (with_reducible first | exact hk | assumption | apply State.closeChan_keeps | apply State.setLaneSt_keeps | apply State.wipeLane_keeps | apply State.sourceGone_keeps | apply State.spareCounts_keeps | apply Keeps.ite)
    | (with_reducible apply Keeps.setLane <;> [skip; exact fun hw => by simp [State.lane_wf hw, Memory.wf_wrL]])
    | simp only [Keeps.upd_iff]
    | split
    | (with_reducible refine Keeps.fst ?_ (by assumption))
    | dsimp only

theorem State.exclude_keeps {s0 : State} (s : State) (e : Excl) (out : Bool) (hk : Keeps s0 s) : Keeps s0 (State.exclude s e out).1 := by
  unfold State.exclude
  repeat' first
    | (with_reducible first | exact hk | assumption | apply State.p_keeps | apply State.pb_keeps | apply State.satAdd_keeps | apply State.dropLane_keeps | apply Keeps.ite)
    | (with_reducible apply Keeps.modLane <;> [skip; exact fun _ hw => hw])
    | simp only [Keeps.upd_iff]
    | split
    | (with_reducible refine Keeps.fst ?_ (by assumption))
    | dsimp only

theorem State.exclHour_keeps {s0 : State} (s : State) (l : Nat) (hk : Keeps s0 s) : Keeps s0 (State.exclHour s l) := by
  unfold State.exclHour
  repeat' first
    | (with_reducible first | exact hk | assumption | apply State.p_keeps | apply Keeps.ite)
    | (with_reducible apply Keeps.modLane <;> [skip; exact fun _ hw => hw])
    | simp only [Keeps.upd_iff]
    | split
    | dsimp only

theorem State.modTask_keeps {s0 : State} (s : State) (t : Nat) (f : TaskSt → TaskSt) (hk : Keeps s0 s) : Keeps s0 (State.modTask s t f) := by
  unfold State.modTask
  repeat' first
    | (with_reducible first | exact hk | assumption | apply Keeps.ite)
    | simp only [Keeps.upd_iff]
    | split
    | dsimp only

theorem State.markForce_keeps {s0 : State} (s : State) (id : Nat) (hk : Keeps s0 s) : Keeps s0 (State.markForce s id) := by
  unfold State.markForce
  repeat' first
    | (with_reducible first | exact hk | assumption | apply State.modTask_keeps | apply Keeps.ite)
    | (with_reducible apply Keeps.foldl; intro _ _ _)
    | simp only [Keeps.upd_iff]
    | split
    | dsimp only

theorem State.predValid_keeps {s0 : State} (s : State) (hk : Keeps s0 s) : Keeps s0 (State.predValid s) := by
  unfold State.predValid
  repeat' first
    | (with_reducible first | exact hk | assumption | apply State.pb_keeps | apply Keeps.ite)
    | (with_reducible apply Keeps.foldl; intro _ _ _)
    | split
    | dsimp only

theorem State.unforce_keeps {s0 : State} (s : State) (f : Force) (hk : Keeps s0 s) : Keeps s0 (State.unforce s f) := by
  unfold State.unforce
  repeat' first
    | (with_reducible first | exact hk | assumption | apply State.modTask_keeps | apply Keeps.ite)
    | simp only [Keeps.upd_iff]
    | split
    | dsimp only

theorem State.removeForces_keeps {s0 : State} (s : State) (fs : List Force) (cause : Nat) (hk : Keeps s0 s) : Keeps s0 (State.removeForces s fs cause) := by
  unfold State.removeForces
  repeat' first
    | (with_reducible first | exact hk | assumption | apply State.recordEv_keeps | apply State.markForce_keeps | apply State.predValid_keeps | apply State.unforce_keeps | apply Keeps.ite)
    | (with_reducible apply Keeps.foldl; intro _ _ _)
    | simp only [Keeps.upd_iff]
    | split
    | dsimp only

theorem State.endStart_keeps {s0 : State} (s : State) (hk : Keeps s0 s) : Keeps s0 (State.endStart s) := by
  unfold State.endStart
  repeat' first
    | (with_reducible first | exact hk | assumption | apply State.respond_keeps | apply Keeps.ite)
    | simp only [Keeps.upd_iff]
    | split
    | dsimp only

theorem State.endStream_keeps {s0 : State} (s : State) (v : StreamVote) (hk : Keeps s0 s) : Keeps s0 (State.endStream s v) := by
  unfold State.endStream
  repeat' first
    | (with_reducible first | exact hk | assumption | apply Keeps.ite)
    | simp only [Keeps.upd_iff]
    | split
    | dsimp only

theorem State.retWrite_keeps {s0 : State} (s : State) (vs : List StreamVote) (hk : Keeps s0 s) : Keeps s0 (State.retWrite s vs) := by
  unfold State.retWrite
  repeat' first
    | (with_reducible first | exact hk | assumption | apply State.p_keeps | apply Keeps.ite)
    | (with_reducible apply Keeps.foldl; intro _ _ _)
    | simp only [Keeps.upd_iff]
    | split
    | dsimp only

theorem State.retPend_keeps {s0 : State} (s : State) (l : Nat) (hk : Keeps s0 s) : Keeps s0 (State.retPend s l) := by
  unfold State.retPend
  repeat' first
    | (with_reducible first | exact hk | assumption | apply State.p_keeps | apply Keeps.ite)
    | split
    | dsimp only

theorem State.retRetire_keeps {s0 : State} (s : State) (st : RetStream) (cycle : Nat) (hk : Keeps s0 s) : Keeps s0 (State.retRetire s st cycle) := by
  unfold State.retRetire
  repeat' first
    | (with_reducible first | exact hk | assumption | apply State.retPend_keeps | apply Keeps.ite)
    | (with_reducible apply Keeps.modLane <;> [skip; exact fun _ hw => hw])
    | (with_reducible apply Keeps.foldl; intro _ _ _)
    | simp only [Keeps.upd_iff]
    | split
    | dsimp only

theorem State.retApply_keeps {s0 : State} (s : State) (st : RetStream) (hk : Keeps s0 s) : Keeps s0 (State.retApply s st) := by
  unfold State.retApply
  repeat' first
    | (with_reducible first | exact hk | assumption | apply State.endStream_keeps | apply State.retWrite_keeps | apply State.retRetire_keeps | apply Keeps.ite)
    | (with_reducible apply Keeps.foldl; intro _ _ _)
    | split
    | dsimp only

theorem State.retApplyN_keeps {s0 : State} (st : RetStream) (n : Nat) (s : State) (hk : Keeps s0 s) : Keeps s0 (State.retApplyN st n s) := by
  induction n generalizing s with
  | zero => exact hk
  | succ n ih => exact ih _ (State.retApply_keeps s st hk)

theorem State.retFlush_keeps {s0 : State} (s : State) (hk : Keeps s0 s) : Keeps s0 (State.retFlush s) := by
  unfold State.retFlush
  repeat' first
    | (with_reducible first | exact hk | assumption | apply State.retApplyN_keeps | apply Keeps.ite)
    | (with_reducible apply Keeps.foldl; intro _ _ _)
    | split
    | dsimp only

theorem State.closeCtx_keeps {s0 : State} (s : State) (l t : Nat) (hk : Keeps s0 s) : Keeps s0 (State.closeCtx s l t) := by
  unfold State.closeCtx
  repeat' first
    | (with_reducible first | exact hk | assumption | apply State.p_keeps | apply Keeps.ite)
    | (with_reducible apply Keeps.modLane <;> [skip; exact fun _ hw => hw])
    | (with_reducible apply Keeps.foldl; intro _ _ _)
    | simp only [Keeps.upd_iff]
    | split
    | dsimp only

theorem State.discardCtx_keeps {s0 : State} (s : State) (l t : Nat) (hk : Keeps s0 s) : Keeps s0 (State.discardCtx s l t) := by
  unfold State.discardCtx
  repeat' first
    | (with_reducible first | exact hk | assumption | apply State.p_keeps | apply State.inc_keeps | apply State.closeCtx_keeps | apply Keeps.ite)
    | split
    | dsimp only

theorem State.dropLaneCtx_keeps {s0 : State} (s : State) (l : Nat) (hk : Keeps s0 s) : Keeps s0 (State.dropLaneCtx s l) := by
  unfold State.dropLaneCtx
  repeat' first
    | (with_reducible first | exact hk | assumption | apply State.discardCtx_keeps | apply Keeps.ite)
    | (with_reducible apply Keeps.foldl; intro _ _ _)
    | split
    | dsimp only

theorem State.dropContexts_keeps {s0 : State} (s : State) (hk : Keeps s0 s) : Keeps s0 (State.dropContexts s) := by
  unfold State.dropContexts
  repeat' first
    | (with_reducible first | exact hk | assumption | apply State.dropLaneCtx_keeps | apply Keeps.ite)
    | (with_reducible apply Keeps.foldl; intro _ _ _)
    | split
    | dsimp only

theorem State.clearRun_keeps {s0 : State} (s : State) (hk : Keeps s0 s) : Keeps s0 (State.clearRun s) := by
  unfold State.clearRun
  repeat' first
    | (with_reducible first | exact hk | assumption | apply State.retFlush_keeps | apply Keeps.ite)
    | (with_reducible apply Keeps.modLane <;> [skip; exact fun _ hw => hw])
    | (with_reducible apply Keeps.foldl; intro _ _ _)
    | simp only [Keeps.upd_iff]
    | split
    | dsimp only

/-! ### Reset -/

theorem State.setMode_keeps {s0 : State} (s : State) (m row : Nat) (hk : Keeps s0 s) : Keeps s0 (State.setMode s m row) := by
  unfold State.setMode
  repeat' first
    | (with_reducible first | exact hk | assumption | apply State.p_keeps | apply State.event_keeps | apply State.chanGates_keeps | apply State.abortWaiting_keeps | apply State.endLoop_keeps | apply State.levels_keeps | apply State.removeForces_keeps | apply Keeps.ite)
    | simp only [Keeps.upd_iff]
    | split
    | dsimp only

theorem State.ringOff_keeps {s0 : State} (s : State) (r : Nat) (hk : Keeps s0 s) : Keeps s0 (State.ringOff s r) := by
  unfold State.ringOff
  repeat' first
    | (with_reducible first | exact hk | assumption | apply State.p_keeps | apply State.modRing_keeps | apply Keeps.ite)
    | simp only [Keeps.upd_iff]
    | split
    | dsimp only

theorem State.disableRing_keeps {s0 : State} (s : State) (r : Nat) (hk : Keeps s0 s) : Keeps s0 (State.disableRing s r) := by
  unfold State.disableRing
  repeat' first
    | (with_reducible first | exact hk | assumption | apply State.p_keeps | apply State.modRing_keeps | apply Keeps.ite)
    | simp only [Keeps.upd_iff]
    | split
    | dsimp only

theorem State.sealAtReset_keeps {s0 : State} (s : State) (hk : Keeps s0 s) : Keeps s0 (State.sealAtReset s) := by
  unfold State.sealAtReset
  repeat' first
    | (with_reducible first | exact hk | assumption | apply State.p_keeps | apply Keeps.ite)
    | simp only [Keeps.upd_iff]
    | split
    | dsimp only

theorem Regs.wf_foldl_p {r : Regs} (fs : List Fld) (v : Fld → Nat) (h : tabWf regReset r = true) :
    tabWf regReset (fs.foldl (fun (r : Regs) f => r.p f (v f)) r) = true := by
  induction fs generalizing r with
  | nil => exact h
  | cons f fs ih => exact ih (Regs.wf_p h _ _)

theorem resetRegs_wf (v : Variant) {r : Regs} (h : tabWf regReset r = true) : tabWf regReset (resetRegs v r) = true := by
  have h1 := Regs.wf_foldl_p keepFlds (fun f => r.g f) (tabWf_filter (fun e => keepAddr e.1) h)
  unfold resetRegs hwLoad
  simp only [List.foldl_cons, List.foldl_nil]
  repeat' first
    | exact h1
    | with_reducible apply Regs.wf_p

theorem State.clearDies_keeps {s0 : State} (s : State) (cause : Nat) (hk : Keeps s0 s) : Keeps s0 (State.clearDies s cause) :=
  ⟨hk.1, hk.2.1, fun c => ⟨resetRegs_wf _ (hk.2.2 c).regs, rfl, rfl, rfl, rfl, rfl⟩⟩

theorem State.resetDies_keeps {s0 : State} (s : State) (cause chan : Nat) (hk : Keeps s0 s) : Keeps s0 (State.resetDies s cause chan) := by
  unfold State.resetDies
  repeat' first
    | (with_reducible first | exact hk | assumption | apply State.p_keeps | apply State.sealAtReset_keeps | apply State.clearDies_keeps | apply Keeps.ite)
    | split
    | dsimp only

theorem State.moduleReset_keeps {s0 : State} (s : State) (cause chan row : Nat) (hk : Keeps s0 s) : Keeps s0 (State.moduleReset s cause chan row) := by
  unfold State.moduleReset
  repeat' first
    | (with_reducible first | exact hk | assumption | apply State.recordEv_keeps | apply State.event_keeps | apply State.removeForces_keeps | apply State.resetDies_keeps | apply Keeps.ite)
    | simp only [Keeps.upd_iff]
    | split
    | dsimp only

theorem State.upEvent_keeps {s0 : State} (s : State) (code : Nat) (data : List Byte) (hk : Keeps s0 s) : Keeps s0 (State.upEvent s code data) := by
  unfold State.upEvent
  repeat' first
    | (with_reducible first | exact hk | assumption | apply State.event_keeps | apply Keeps.ite)
    | simp only [Keeps.upd_iff]
    | split
    | dsimp only

theorem State.upDiscard_keeps {s0 : State} (s : State) (hk : Keeps s0 s) : Keeps s0 (State.upDiscard s) := by
  unfold State.upDiscard
  repeat' first
    | (with_reducible first | exact hk | assumption | apply State.p_keeps | apply Keeps.ite)
    | (with_reducible apply Keeps.foldl; intro _ _ _)
    | simp only [Keeps.upd_iff]
    | split
    | dsimp only

theorem State.bankBack_keeps {s0 : State} (s : State) (reason : Nat) (hk : Keeps s0 s) : Keeps s0 (State.bankBack s reason) := by
  unfold State.bankBack
  repeat' first
    | (with_reducible first | exact hk | assumption | apply State.p_keeps | apply State.satAdd_keeps | apply Keeps.ite)
    | (with_reducible apply Keeps.foldl; intro _ _ _)
    | simp only [Keeps.upd_iff]
    | split
    | dsimp only

theorem State.upFallback_keeps {s0 : State} (s : State) (reason : Nat) (hk : Keeps s0 s) : Keeps s0 (State.upFallback s reason) := by
  unfold State.upFallback
  repeat' first
    | (with_reducible first | exact hk | assumption | apply State.upEvent_keeps | apply State.bankBack_keeps | apply Keeps.ite)
    | split
    | dsimp only

end Sys2Proof.Machine
end

