-- ==== Sys2Proof/Laws/Keep3.lean ====
section
/-! SUPPORT. What every operation keeps of a state (`Keeps`): those of Machine/React.lean, Links.lean, EthOps.lean, TimeStep.lean. -/

set_option linter.all false

namespace Sys2Proof.Machine
open Sys2Proof.Safety

/-! ### React -/

theorem State.srcStatus_keeps {s0 : State} (s : State) (p : Rep) (c : Nat) (hk : Keeps s0 s) : Keeps s0 (State.srcStatus s p c) := by
  unfold State.srcStatus
  repeat' first
    | (with_reducible first | exact hk | assumption | apply State.p_keeps | apply State.inc_keeps | apply Keeps.ite)
    | split
    | dsimp only

theorem State.history_keeps {s0 : State} (s : State) (k : Taken) (seq : Nat) (hk : Keeps s0 s) : Keeps s0 (State.history s k seq) := by
  unfold State.history
  repeat' first
    | (with_reducible first | exact hk | assumption | apply State.p_keeps | apply State.satAdd_keeps | apply Keeps.ite)
    | simp only [Keeps.upd_iff]
    | split
    | dsimp only

theorem State.setFirst_keeps {s0 : State} (s : State) (k : Taken) (hk : Keeps s0 s) : Keeps s0 (State.setFirst s k) := by
  unfold State.setFirst
  repeat' first
    | (with_reducible first | exact hk | assumption | apply State.p_keeps | apply State.pb_keeps | apply Keeps.ite)
    | split
    | dsimp only

theorem State.foldFirst_keeps {s0 : State} (s : State) (c : Nat) (hk : Keeps s0 s) : Keeps s0 (State.foldFirst s c) := by
  unfold State.foldFirst
  repeat' first
    | (with_reducible first | exact hk | assumption | apply Keeps.ite)
    | simp only [Keeps.upd_iff]
    | split
    | dsimp only

theorem State.resetLane_keeps {s0 : State} (s : State) (l dest : Nat) (hk : Keeps s0 s) : Keeps s0 (State.resetLane s l dest) := by
  unfold State.resetLane
  repeat' first
    | (with_reducible first | exact hk | assumption | apply State.p_keeps | apply State.setLaneSt_keeps | apply State.wipeLane_keeps | apply Keeps.ite)
    | (with_reducible apply Keeps.setLane <;> [skip; exact fun hw => by simp [State.lane_wf hw, Memory.wf_wrL]])
    | split
    | dsimp only

theorem State.react1_keeps {s0 : State} (s : State) (k : Taken) (hk : Keeps s0 s) : Keeps s0 (State.react1 s k).1 := by
  unfold State.react1
  repeat' first
    | (with_reducible first | exact hk | assumption | apply State.p_keeps | apply State.exclude_keeps | apply State.resetLane_keeps | apply Keeps.ite)
    | (with_reducible apply Keeps.setLane <;> [skip; exact fun hw => by simp [State.lane_wf hw, Memory.wf_wrL]])
    | simp only [Keeps.upd_iff]
    | split
    | (with_reducible refine Keeps.fst ?_ (by assumption))
    | dsimp only

theorem State.leaveLight_keeps {s0 : State} (s : State) (hk : Keeps s0 s) : Keeps s0 (State.leaveLight s) := by
  unfold State.leaveLight
  repeat' first
    | (with_reducible first | exact hk | assumption | apply State.p_keeps | apply Keeps.ite)
    | simp only [Keeps.upd_iff]
    | split
    | dsimp only

theorem State.trialFault_keeps {s0 : State} (s : State) (hk : Keeps s0 s) : Keeps s0 (State.trialFault s) := by
  unfold State.trialFault
  repeat' first
    | (with_reducible first | exact hk | assumption | apply State.moduleReset_keeps | apply State.upFallback_keeps | apply Keeps.ite)
    | split
    | dsimp only

theorem State.isolate_keeps {s0 : State} (s : State) (hk : Keeps s0 s) : Keeps s0 (State.isolate s) := by
  unfold State.isolate
  repeat' first
    | (with_reducible first | exact hk | assumption | apply State.p_keeps | apply State.gateFault_keeps | apply State.setMode_keeps | apply State.upEvent_keeps | apply State.leaveLight_keeps | apply State.trialFault_keeps | apply Keeps.ite)
    | simp only [Keeps.upd_iff]
    | split
    | dsimp only

theorem State.react2_keeps {s0 : State} (s : State) (k : Taken) (hk : Keeps s0 s) : Keeps s0 (State.react2 s k).1 := by
  unfold State.react2
  repeat' first
    | (with_reducible first | exact hk | assumption | apply State.p_keeps | apply State.exclude_keeps | apply State.ringOff_keeps | apply State.resetLane_keeps | apply State.isolate_keeps | apply Keeps.ite)
    | (with_reducible apply Keeps.setLane <;> [skip; exact fun hw => by simp [State.lane_wf hw, Memory.wf_wrL]])
    | simp only [Keeps.upd_iff]
    | split
    | (with_reducible refine Keeps.fst ?_ (by assumption))
    | dsimp only

theorem State.appUnload_keeps {s0 : State} (s : State) (hk : Keeps s0 s) : Keeps s0 (State.appUnload s) := by
  unfold State.appUnload
  repeat' first
    | (with_reducible first | exact hk | assumption | apply State.drivesDisable_keeps | apply State.scOff_keeps | apply State.removeForces_keeps | apply State.endStart_keeps | apply State.dropContexts_keeps | apply State.clearRun_keeps | apply Keeps.ite)
    | simp only [Keeps.upd_iff]
    | split
    | dsimp only

theorem State.holdLane_keeps {s0 : State} (s : State) (l : Nat) (hk : Keeps s0 s) : Keeps s0 (State.holdLane s l) := by
  unfold State.holdLane
  repeat' first
    | (with_reducible first | exact hk | assumption | apply State.setLaneSt_keeps | apply State.wipeLane_keeps | apply Keeps.ite)
    | (with_reducible apply Keeps.modLane <;> [skip; exact fun _ hw => hw])
    | (with_reducible apply Keeps.setLane <;> [skip; exact fun hw => by simp [State.lane_wf hw, Memory.wf_wrL]])
    | simp only [Keeps.upd_iff]
    | split
    | dsimp only

theorem State.enterSafeHalt_keeps {s0 : State} (s : State) (row : Nat) (hk : Keeps s0 s) : Keeps s0 (State.enterSafeHalt s row) := by
  unfold State.enterSafeHalt
  repeat' first
    | (with_reducible first | exact hk | assumption | apply State.p_keeps | apply State.closeChan_keeps | apply State.setMode_keeps | apply State.leaveLight_keeps | apply State.appUnload_keeps | apply State.holdLane_keeps | apply Keeps.ite)
    | (with_reducible apply Keeps.foldl; intro _ _ _)
    | split
    | dsimp only

theorem State.react4_keeps {s0 : State} (s : State) (hk : Keeps s0 s) : Keeps s0 (State.react4 s) := by
  unfold State.react4
  repeat' first
    | (with_reducible first | exact hk | assumption | apply State.gateFault_keeps | apply State.enterSafeHalt_keeps | apply Keeps.ite)
    | split
    | dsimp only

theorem State.react3_keeps {s0 : State} (s : State) (k : Taken) (hk : Keeps s0 s) : Keeps s0 (State.react3 s k).1 := by
  unfold State.react3
  repeat' first
    | (with_reducible first | exact hk | assumption | apply State.isolate_keeps | apply State.react2_keeps | apply Keeps.ite)
    | split
    | (with_reducible refine Keeps.fst ?_ (by assumption))
    | dsimp only

theorem State.react_keeps {s0 : State} (s : State) (k : Taken) (hk : Keeps s0 s) : Keeps s0 (State.react s k).1 := by
  unfold State.react
  repeat' first
    | (with_reducible first | exact hk | assumption | apply State.react1_keeps | apply State.react2_keeps | apply State.react4_keeps | apply State.react3_keeps | apply Keeps.ite)
    | split
    | (with_reducible refine Keeps.fst ?_ (by assumption))
    | dsimp only

theorem State.haltSrc_keeps {s0 : State} (s : State) (k : Taken) (hk : Keeps s0 s) : Keeps s0 (State.haltSrc s k) := by
  unfold State.haltSrc
  repeat' first
    | (with_reducible first | exact hk | assumption | apply State.p_keeps | apply State.pb_keeps | apply Keeps.ite)
    | split
    | dsimp only

theorem State.book_keeps {s0 : State} (s : State) (k : Taken) (hk : Keeps s0 s) : Keeps s0 (State.book s k) := by
  unfold State.book
  repeat' first
    | (with_reducible first | exact hk | assumption | apply State.p_keeps | apply State.inc_keeps | apply State.event_keeps | apply State.srcStatus_keeps | apply State.history_keeps | apply State.setFirst_keeps | apply State.haltSrc_keeps | apply Keeps.ite)
    | simp only [Keeps.upd_iff]
    | split
    | dsimp only

theorem State.forcedReport_keeps {s0 : State} (s : State) (p : Rep) (hk : Keeps s0 s) : Keeps s0 (State.forcedReport s p) := by
  unfold State.forcedReport
  repeat' first
    | (with_reducible first | exact hk | assumption | apply State.p_keeps | apply State.event_keeps | apply State.srcStatus_keeps | apply State.history_keeps | apply Keeps.ite)
    | simp only [Keeps.upd_iff]
    | split
    | dsimp only

theorem State.withData_keeps {s0 : State} (s : State) (p : Rep) (hk : Keeps s0 s) : Keeps s0 (State.withData s p).1 := by
  unfold State.withData
  repeat' first
    | (with_reducible first | exact hk | assumption | apply State.p_keeps | apply Keeps.ite)
    | simp only [Keeps.upd_iff]
    | split
    | dsimp only

theorem State.reportN_keeps {s0 : State} (n : Nat) (s : State) (p : Rep) (hk : Keeps s0 s) : Keeps s0 (State.reportN n s p) := by
  induction n generalizing s p with
  | zero => exact hk
  | succ n ih =>
    have h1 := State.withData_keeps s p hk
    simp only [State.reportN]
    generalize s.withData p = x at h1 ⊢
    repeat' first
      | with_reducible exact h1
      | with_reducible assumption
      | with_reducible apply State.forcedReport_keeps
      | with_reducible apply State.noticeD_keeps
      | with_reducible apply State.foldFirst_keeps
      | with_reducible apply State.event_keeps
      | with_reducible apply State.srcStatus_keeps
      | with_reducible apply State.react_keeps
      | with_reducible apply State.book_keeps
      | with_reducible apply Keeps.ite
      | with_reducible apply ih
      | (with_reducible apply Keeps.foldl; intro _ _ _)
      | split

theorem State.take_keeps {s0 : State} (s : State) (p : Rep) (hk : Keeps s0 s) : Keeps s0 (State.take s p) := by
  unfold State.take
  repeat' first
    | (with_reducible first | exact hk | assumption | apply State.p_keeps | apply State.reportN_keeps | apply Keeps.ite)
    | split
    | dsimp only

theorem State.report_keeps {s0 : State} (s : State) (src cls code : Nat) (hk : Keeps s0 s) : Keeps s0 (State.report s src cls code) := by
  unfold State.report
  repeat' first
    | (with_reducible first | exact hk | assumption | apply State.take_keeps | apply Keeps.ite)
    | simp only [Keeps.upd_iff]
    | split
    | dsimp only

theorem State.reports_keeps {s0 : State} (s : State) (fs : List Follow) (hk : Keeps s0 s) : Keeps s0 (State.reports s fs) := by
  unfold State.reports
  repeat' first
    | (with_reducible first | exact hk | assumption | apply State.take_keeps | apply Keeps.ite)
    | (with_reducible apply Keeps.foldl; intro _ _ _)
    | split
    | dsimp only

theorem State.minority_keeps {s0 : State} (s : State) (e : Excl) (hk : Keeps s0 s) : Keeps s0 (State.minority s e) := by
  unfold State.minority
  repeat' first
    | (with_reducible first | exact hk | assumption | apply State.take_keeps | apply Keeps.ite)
    | simp only [Keeps.upd_iff]
    | split
    | dsimp only

theorem State.backInService_keeps {s0 : State} (s : State) (l : Nat) (hk : Keeps s0 s) : Keeps s0 (State.backInService s l) := by
  unfold State.backInService
  repeat' first
    | (with_reducible first | exact hk | assumption | apply State.p_keeps | apply Keeps.ite)
    | split
    | dsimp only

theorem State.ackFaults_keeps {s0 : State} (s : State) (mask : Nat) (hk : Keeps s0 s) : Keeps s0 (State.ackFaults s mask) := by
  unfold State.ackFaults
  repeat' first
    | (with_reducible first | exact hk | assumption | apply State.p_keeps | apply Keeps.ite)
    | (with_reducible apply Keeps.foldl; intro _ _ _)
    | split
    | dsimp only

/-! ### Links -/

theorem State.setLink_keeps {s0 : State} (s : State) (k : Nat) (x : LinkSt) (hk : Keeps s0 s) : Keeps s0 (State.setLink s k x) := by
  unfold State.setLink
  repeat' first
    | (with_reducible first | exact hk | assumption | apply Keeps.ite)
    | simp only [Keeps.upd_iff]
    | split
    | dsimp only

theorem State.sendPacket_keeps {s0 : State} (s : State) (k : Nat) (body : List Byte) (hk : Keeps s0 s) : Keeps s0 (State.sendPacket s k body) := by
  unfold State.sendPacket
  repeat' first
    | (with_reducible first | exact hk | assumption | apply State.emit_keeps | apply State.setLink_keeps | apply Keeps.ite)
    | simp only [Keeps.upd_iff]
    | split
    | dsimp only

theorem State.linkSend_keeps {s0 : State} (s : State) (k : Nat) (bs : List Byte) (hk : Keeps s0 s) : Keeps s0 (State.linkSend s k bs) := by
  unfold State.linkSend
  repeat' first
    | (with_reducible first | exact hk | assumption | apply State.p_keeps | apply State.sendPacket_keeps | apply Keeps.ite)
    | (with_reducible apply Keeps.foldl; intro _ _ _)
    | split
    | dsimp only

theorem State.linkFails_keeps {s0 : State} (s : State) (k : DieLink) (c : LinkCause) (hk : Keeps s0 s) : Keeps s0 (State.linkFails s k c) := by
  unfold State.linkFails
  repeat' first
    | (with_reducible first | exact hk | assumption | apply State.report_keeps | apply State.setLink_keeps | apply Keeps.ite)
    | simp only [Keeps.upd_iff]
    | split
    | dsimp only

theorem State.linkIdle_keeps {s0 : State} (s : State) (k : DieLink) (hk : Keeps s0 s) : Keeps s0 (State.linkIdle s k) := by
  unfold State.linkIdle
  repeat' first
    | (with_reducible first | exact hk | assumption | apply State.sendPacket_keeps | apply Keeps.ite)
    | split
    | dsimp only

theorem execLinkFailure_keeps {s0 : State} (k : DieLink) (c : LinkCause) (s : State) (hk : Keeps s0 s) : KeepsO s0 (execLinkFailure k c s) := by
  unfold execLinkFailure
  repeat' first
    | (with_reducible first | exact hk | assumption | apply State.linkFails_keeps | apply Keeps.ite | apply KeepsO.ite | apply KeepsO.next)
    | split
    | dsimp only

theorem execLinkPacketReceive_keeps {s0 : State} (k : DieLink) (seq : Nat) (body : List Byte) (crc : Word) (s : State) (hk : Keeps s0 s) : KeepsO s0 (execLinkPacketReceive k seq body crc s) := by
  unfold execLinkPacketReceive
  repeat' first
    | (with_reducible first | exact hk | assumption | apply State.emit_keeps | apply State.setLink_keeps | apply State.linkFails_keeps | apply Keeps.ite | apply KeepsO.ite | apply KeepsO.next)
    | simp only [Keeps.upd_iff]
    | split
    | dsimp only

theorem State.setShadow_keeps {s0 : State} (s : State) (d : DieId) (c : Shadow) (hk : Keeps s0 s) : Keeps s0 (State.setShadow s d c) := by
  unfold State.setShadow
  repeat' first
    | (with_reducible first | exact hk | assumption | apply Keeps.ite)
    | (with_reducible apply Keeps.modLane <;> [skip; exact fun _ hw => hw])
    | simp only [Keeps.upd_iff]
    | split
    | dsimp only

theorem State.shadowFails_keeps {s0 : State} (s : State) (d : DieId) (code : Nat) (hk : Keeps s0 s) : Keeps s0 (State.shadowFails s d code) := by
  unfold State.shadowFails
  repeat' first
    | (with_reducible first | exact hk | assumption | apply State.report_keeps | apply State.setShadow_keeps | apply Keeps.ite)
    | (with_reducible apply Keeps.modLane <;> [skip; exact fun _ hw => hw])
    | simp only [Keeps.upd_iff]
    | split
    | dsimp only

theorem State.shadowMiss_keeps {s0 : State} (s : State) (d : DieId) (hk : Keeps s0 s) : Keeps s0 (State.shadowMiss s d) := by
  unfold State.shadowMiss
  repeat' first
    | (with_reducible first | exact hk | assumption | apply State.setShadow_keeps | apply State.shadowFails_keeps | apply Keeps.ite)
    | split
    | dsimp only

theorem State.timePulse_keeps {s0 : State} (s : State) (before : Nat) (hk : Keeps s0 s) : Keeps s0 (State.timePulse s before) := by
  unfold State.timePulse
  repeat' first
    | (with_reducible first | exact hk | assumption | apply State.emit_keeps | apply Keeps.ite)
    | simp only [Keeps.upd_iff]
    | split
    | dsimp only

theorem execShadowPulse_keeps {s0 : State} (d : DieId) (word : BitVec 64) (s : State) (hk : Keeps s0 s) : KeepsO s0 (execShadowPulse d word s) := by
  unfold execShadowPulse
  repeat' first
    | (with_reducible first | exact hk | assumption | apply State.notice_keeps | apply State.setShadow_keeps | apply State.shadowFails_keeps | apply State.shadowMiss_keeps | apply Keeps.ite | apply KeepsO.ite | apply KeepsO.next)
    | split
    | dsimp only

theorem execShadowPulseMissing_keeps {s0 : State} (d : DieId) (s : State) (hk : Keeps s0 s) : KeepsO s0 (execShadowPulseMissing d s) := by
  unfold execShadowPulseMissing
  repeat' first
    | (with_reducible first | exact hk | assumption | apply State.shadowMiss_keeps | apply Keeps.ite | apply KeepsO.ite | apply KeepsO.next)
    | split
    | dsimp only

/-! ### EthOps -/

theorem State.originate_keeps {s0 : State} (s : State) (x : TxItem) (hk : Keeps s0 s) : Keeps s0 (State.originate s x) := by
  unfold State.originate
  repeat' first
    | (with_reducible first | exact hk | assumption | apply State.emit_keeps | apply Keeps.ite)
    | split
    | dsimp only

theorem State.modPtp_keeps {s0 : State} (s : State) (p : Nat) (f : PtpPort → PtpPort) (hk : Keeps s0 s) : Keeps s0 (State.modPtp s p f) := by
  unfold State.modPtp
  repeat' first
    | (with_reducible first | exact hk | assumption | apply State.p_keeps | apply Keeps.ite)
    | simp only [Keeps.upd_iff]
    | split
    | dsimp only

theorem State.leaves_keeps {s0 : State} (s : State) (p : Nat) (o : OutFrame) (hk : Keeps s0 s) : Keeps s0 (State.leaves s p o).1 := by
  unfold State.leaves
  repeat' first
    | (with_reducible first | exact hk | assumption | apply State.p_keeps | apply State.inc_keeps | apply State.modPtp_keeps | apply Keeps.ite)
    | simp only [Keeps.upd_iff]
    | split
    | dsimp only

theorem State.ethKick_keeps {s0 : State} (s : State) (p : Nat) (hk : Keeps s0 s) : Keeps s0 (State.ethKick s p) := by
  unfold State.ethKick
  repeat' first
    | (with_reducible first | exact hk | assumption | apply State.p_keeps | apply State.emit_keeps | apply State.leaves_keeps | apply Keeps.ite)
    | simp only [Keeps.upd_iff]
    | split
    | (with_reducible refine Keeps.fst ?_ (by assumption))
    | dsimp only

theorem State.enqueue_keeps {s0 : State} (s : State) (p q : Nat) (o : OutFrame) (hk : Keeps s0 s) : Keeps s0 (State.enqueue s p q o) := by
  unfold State.enqueue
  repeat' first
    | (with_reducible first | exact hk | assumption | apply State.p_keeps | apply State.inc_keeps | apply State.ethKick_keeps | apply Keeps.ite)
    | simp only [Keeps.upd_iff]
    | split
    | dsimp only

theorem State.ethTick_keeps {s0 : State} (s : State) (p : Nat) (hk : Keeps s0 s) : Keeps s0 (State.ethTick s p) := by
  unfold State.ethTick
  repeat' first
    | (with_reducible first | exact hk | assumption | apply State.p_keeps | apply State.ethKick_keeps | apply Keeps.ite)
    | simp only [Keeps.upd_iff]
    | split
    | dsimp only

theorem State.sendPub_keeps {s0 : State} (s : State) (p commit cycle : Nat) (hk : Keeps s0 s) : Keeps s0 (State.sendPub s p commit cycle) := by
  unfold State.sendPub
  repeat' first
    | (with_reducible first | exact hk | assumption | apply State.p_keeps | apply State.enqueue_keeps | apply Keeps.ite)
    | (with_reducible apply Keeps.foldl; intro _ _ _)
    | simp only [Keeps.upd_iff]
    | split
    | dsimp only

/-! ### TimeStep -/

theorem State.setTio_keeps {s0 : State} (s : State) (k : Nat) (level : Bool) (hk : Keeps s0 s) : Keeps s0 (State.setTio s k level) := by
  unfold State.setTio
  repeat' first
    | (with_reducible first | exact hk | assumption | apply State.captureSrc_keeps | apply Keeps.ite)
    | simp only [Keeps.upd_iff]
    | split
    | dsimp only

theorem State.setFppTrig_keeps {s0 : State} (s : State) (k : Nat) (level : Bool) (hk : Keeps s0 s) : Keeps s0 (State.setFppTrig s k level) := by
  unfold State.setFppTrig
  repeat' first
    | (with_reducible first | exact hk | assumption | apply State.p_keeps | apply State.modOut_keeps | apply State.driveOutputs_keeps | apply Keeps.ite)
    | simp only [Keeps.upd_iff]
    | split
    | dsimp only

theorem State.startPulse_keeps {s0 : State} (s : State) (tgt act width : Nat) (hk : Keeps s0 s) : Keeps s0 (State.startPulse s tgt act width) := by
  unfold State.startPulse
  repeat' first
    | (with_reducible first | exact hk | assumption | apply Keeps.ite)
    | simp only [Keeps.upd_iff]
    | split
    | dsimp only

theorem State.setTgt_keeps {s0 : State} (s : State) (tgt : Nat) (level : Bool) (hk : Keeps s0 s) : Keeps s0 (State.setTgt s tgt level) := by
  unfold State.setTgt
  repeat' first
    | (with_reducible first | exact hk | assumption | apply State.setTio_keeps | apply State.setFppTrig_keeps | apply Keeps.ite)
    | split
    | dsimp only

theorem State.trigDrive_go_keeps {s0 : State} (n t tgt act width : Nat) (s : State) (hk : Keeps s0 s) :
    Keeps s0 (State.trigDrive.go n t tgt act width s) := by
  unfold State.trigDrive.go
  simp only [Keeps.upd_iff]
  exact State.startPulse_keeps _ _ _ _ (State.setTgt_keeps _ _ _ hk)

theorem State.trigDrive_keeps {s0 : State} (s : State) (n t tgt act width : Nat) (hk : Keeps s0 s) :
    Keeps s0 (State.trigDrive s n t tgt act width) := by
  unfold State.trigDrive
  split
  · exact Keeps.ite (State.setTgt_keeps _ _ _ hk) (State.trigDrive_go_keeps _ _ _ _ _ _ hk)
  · exact State.trigDrive_go_keeps _ _ _ _ _ _ hk

theorem State.trigAct_keeps {s0 : State} (s : State) (n t : Nat) (hk : Keeps s0 s) : Keeps s0 (State.trigAct s n t) := by
  unfold State.trigAct
  repeat' first
    | (with_reducible first | exact hk | assumption | apply State.notice_keeps | apply State.trigConvert_keeps | apply State.trigDrive_keeps | apply Keeps.ite)
    | split
    | dsimp only

theorem State.endPulse_keeps {s0 : State} (s : State) (tgt : Nat) (hk : Keeps s0 s) : Keeps s0 (State.endPulse s tgt) := by
  unfold State.endPulse
  repeat' first
    | (with_reducible first | exact hk | assumption | apply State.setTio_keeps | apply State.setFppTrig_keeps | apply Keeps.ite)
    | split
    | dsimp only

theorem State.rearm_keeps {s0 : State} (s : State) (n next : Nat) (hk : Keeps s0 s) : Keeps s0 (State.rearm s n next) := by
  unfold State.rearm
  repeat' first
    | (with_reducible first | exact hk | assumption | apply State.p_keeps | apply State.armNow_keeps | apply Keeps.ite)
    | split
    | dsimp only

theorem execTriggerFire_keeps {s0 : State} (n : Fin 16) (s : State) (hk : Keeps s0 s) : KeepsO s0 (execTriggerFire n s) := by
  unfold execTriggerFire
  repeat' first
    | (with_reducible first | exact hk | assumption | apply State.inc_keeps | apply State.trigAct_keeps | apply State.rearm_keeps | apply Keeps.ite | apply KeepsO.ite | apply KeepsO.next)
    | split
    | dsimp only

theorem State.trigLate_keeps {s0 : State} (s : State) (n t : Nat) (hk : Keeps s0 s) : Keeps s0 (State.trigLate s n t) := by
  unfold State.trigLate
  repeat' first
    | (with_reducible first | exact hk | assumption | apply State.p_keeps | apply State.inc_keeps | apply State.notice_keeps | apply State.arm_keeps | apply State.trigAct_keeps | apply State.rearm_keeps | apply Keeps.ite)
    | split
    | dsimp only

theorem State.trigWord_keeps {s0 : State} (s : State) (n t : Nat) (hk : Keeps s0 s) : Keeps s0 (State.trigWord s n t) := by
  unfold State.trigWord
  repeat' first
    | (with_reducible first | exact hk | assumption | apply State.p_keeps | apply State.notice_keeps | apply State.arm_keeps | apply State.trigLate_keeps | apply Keeps.ite)
    | split
    | dsimp only

theorem execAppTriggerArrival_keeps {s0 : State} (n : Fin 16) (word : BitVec 64) (s : State) (hk : Keeps s0 s) : KeepsO s0 (execAppTriggerArrival n word s) := by
  unfold execAppTriggerArrival
  repeat' first
    | (with_reducible first | exact hk | assumption | apply State.p_keeps | apply State.take_keeps | apply State.trigWord_keeps | apply Keeps.ite | apply KeepsO.ite | apply KeepsO.next)
    | simp only [Keeps.upd_iff]
    | split
    | dsimp only

theorem State.stepTriggers_keeps {s0 : State} (s : State) (hk : Keeps s0 s) : Keeps s0 (State.stepTriggers s) := by
  unfold State.stepTriggers
  repeat' first
    | (with_reducible first | exact hk | assumption | apply State.p_keeps | apply State.inc_keeps | apply State.trigAct_keeps | apply State.rearm_keeps | apply Keeps.ite)
    | (with_reducible apply Keeps.foldl; intro _ _ _)
    | split
    | dsimp only

theorem State.stepTime_keeps {s0 : State} (s : State) (d : Int) (fwd : Bool) (hk : Keeps s0 s) : Keeps s0 (State.stepTime s d fwd) := by
  unfold State.stepTime
  repeat' first
    | (with_reducible first | exact hk | assumption | apply State.p_keeps | apply State.stepTriggers_keeps | apply Keeps.ite)
    | (with_reducible apply Keeps.foldl; intro _ _ _)
    | simp only [Keeps.upd_iff]
    | split
    | dsimp only

theorem State.askStep_keeps {s0 : State} (s : State) (d : Int) (hk : Keeps s0 s) : Keeps s0 (State.askStep s d) := by
  unfold State.askStep
  repeat' first
    | (with_reducible first | exact hk | assumption | apply State.p_keeps | apply Keeps.ite)
    | simp only [Keeps.upd_iff]
    | split
    | dsimp only

theorem State.timeTick_keeps {s0 : State} (s : State) (hk : Keeps s0 s) : Keeps s0 (State.timeTick s) := by
  unfold State.timeTick
  repeat' first
    | (with_reducible first | exact hk | assumption | apply State.inc_keeps | apply State.advanceNs_keeps | apply State.stepTime_keeps | apply Keeps.ite)
    | simp only [Keeps.upd_iff]
    | split
    | dsimp only

theorem State.stepWrite_keeps {s0 : State} (s : State) (v : Word) (hk : Keeps s0 s) : Keeps s0 (State.stepWrite s v) := by
  unfold State.stepWrite
  repeat' first
    | (with_reducible first | exact hk | assumption | apply State.notice_keeps | apply State.askStep_keeps | apply Keeps.ite)
    | split
    | dsimp only

theorem execTimeStep_keeps {s0 : State} (v : Word) (s : State) (hk : Keeps s0 s) : KeepsO s0 (execTimeStep v s) := by
  unfold execTimeStep
  repeat' first
    | (with_reducible first | exact hk | assumption | apply State.stepWrite_keeps | apply Keeps.ite | apply KeepsO.ite | apply KeepsO.next)
    | split
    | dsimp only

theorem State.ptpTake_keeps {s0 : State} (s : State) (hk : Keeps s0 s) : Keeps s0 (State.ptpTake s) := by
  unfold State.ptpTake
  repeat' first
    | (with_reducible first | exact hk | assumption | apply State.p_keeps | apply State.pb_keeps | apply Keeps.ite)
    | simp only [Keeps.upd_iff]
    | split
    | dsimp only

theorem State.useInc_keeps {s0 : State} (s : State) (inc : Nat) (hk : Keeps s0 s) : Keeps s0 (State.useInc s inc) := by
  unfold State.useInc
  repeat' first
    | (with_reducible first | exact hk | assumption | apply State.p_keeps | apply State.inc_keeps | apply Keeps.ite)
    | simp only [Keeps.upd_iff]
    | split
    | dsimp only

theorem State.failCheck_keeps {s0 : State} (s : State) (n : Nat) (hk : Keeps s0 s) : Keeps s0 (State.failCheck s n) := by
  unfold State.failCheck
  repeat' first
    | (with_reducible first | exact hk | assumption | apply Keeps.ite)
    | simp only [Keeps.upd_iff]
    | split
    | dsimp only

theorem State.setSync_keeps {s0 : State} (s : State) (st : Nat) (hk : Keeps s0 s) : Keeps s0 (State.setSync s st) := by
  unfold State.setSync
  repeat' first
    | (with_reducible first | exact hk | assumption | apply State.p_keeps | apply State.pb_keeps | apply State.noticeD_keeps | apply State.failCheck_keeps | apply Keeps.ite)
    | split
    | dsimp only

theorem State.syncStep_keeps {s0 : State} (s : State) (x : Refs) (run : Bool) (hk : Keeps s0 s) : Keeps s0 (State.syncStep s x run) := by
  unfold State.syncStep
  repeat' first
    | (with_reducible first | exact hk | assumption | apply State.setSync_keeps | apply Keeps.ite)
    | simp only [Keeps.upd_iff]
    | split
    | dsimp only

theorem State.setCorr_keeps {s0 : State} (s : State) (r : Nat) (hk : Keeps s0 s) : Keeps s0 (State.setCorr s r) := by
  unfold State.setCorr
  repeat' first
    | (with_reducible first | exact hk | assumption | apply State.modRing_keeps | apply Keeps.ite)
    | simp only [Keeps.upd_iff]
    | split
    | dsimp only

theorem execServoRun_keeps {s0 : State} (s : State) (hk : Keeps s0 s) : KeepsO s0 (execServoRun s) := by
  unfold execServoRun
  repeat' first
    | (with_reducible first | exact hk | assumption | apply State.p_keeps | apply State.askStep_keeps | apply State.ptpTake_keeps | apply State.useInc_keeps | apply State.syncStep_keeps | apply State.setCorr_keeps | apply Keeps.ite | apply KeepsO.ite | apply KeepsO.next)
    | (with_reducible apply Keeps.foldl; intro _ _ _)
    | simp only [Keeps.upd_iff]
    | split
    | dsimp only

theorem execRtcUpdate_keeps {s0 : State} (s : State) (hk : Keeps s0 s) : KeepsO s0 (execRtcUpdate s) := by
  unfold execRtcUpdate
  repeat' first
    | (with_reducible first | exact hk | assumption | apply Keeps.ite | apply KeepsO.ite | apply KeepsO.next)
    | simp only [Keeps.upd_iff]
    | split
    | dsimp only

end Sys2Proof.Machine
end

