-- ==== Sys2Proof/Laws/Keep4.lean ====
section
/-! SUPPORT. What every operation keeps of a state (`Keeps`): those of Machine/SafetyFns.lean, RackOps.lean, Apply.lean, Streams.lean, CoreOps.lean, CoreFault.lean. -/

set_option linter.all false

namespace Sys2Proof.Machine
open Sys2Proof.Safety

/-! ### SafetyFns -/

theorem execStoTestPulse_keeps {s0 : State} (d : Drive) (ch : DrvCh) (s : State) (hk : Keeps s0 s) : KeepsO s0 (execStoTestPulse d ch s) := by
  unfold execStoTestPulse
  repeat' first
    | (with_reducible first | exact hk | assumption | apply State.emit_keeps | apply Keeps.ite | apply KeepsO.ite | apply KeepsO.next)
    | split
    | dsimp only

theorem State.stoFault_keeps {s0 : State} (s : State) (d cause : Nat) (hk : Keeps s0 s) : Keeps s0 (State.stoFault s d cause) := by
  unfold State.stoFault
  repeat' first
    | (with_reducible first | exact hk | assumption | apply State.torqueOff_keeps | apply State.report_keeps | apply Keeps.ite)
    | split
    | dsimp only

theorem execStoReadbackFault_keeps {s0 : State} (d : Drive) (_ch : DrvCh) (s : State) (hk : Keeps s0 s) : KeepsO s0 (execStoReadbackFault d _ch s) := by
  unfold execStoReadbackFault
  repeat' first
    | (with_reducible first | exact hk | assumption | apply State.stoFault_keeps | apply Keeps.ite | apply KeepsO.ite | apply KeepsO.next)
    | split
    | dsimp only

theorem execChannelAReport_keeps {s0 : State} (d : Drive) (cmdA rbA : Bool) (s : State) (hk : Keeps s0 s) : KeepsO s0 (execChannelAReport d cmdA rbA s) := by
  unfold execChannelAReport
  repeat' first
    | (with_reducible first | exact hk | assumption | apply State.modDrv_keeps | apply State.stoFault_keeps | apply Keeps.ite | apply KeepsO.ite | apply KeepsO.next)
    | simp only [Keeps.upd_iff]
    | split
    | dsimp only

theorem execChannelBWatchdogExpiry_keeps {s0 : State} (s : State) (hk : Keeps s0 s) : KeepsO s0 (execChannelBWatchdogExpiry s) := by
  unfold execChannelBWatchdogExpiry
  repeat' first
    | (with_reducible first | exact hk | assumption | apply State.drivesOff_keeps | apply State.report_keeps | apply Keeps.ite | apply KeepsO.ite | apply KeepsO.next)
    | simp only [Keeps.upd_iff]
    | split
    | dsimp only

theorem execDriveEvaluation_keeps {s0 : State} (d : Drive) (count : Int) (s : State) (hk : Keeps s0 s) : KeepsO s0 (execDriveEvaluation d count s) := by
  unfold execDriveEvaluation
  repeat' first
    | (with_reducible first | exact hk | assumption | apply State.p_keeps | apply State.modDrv_keeps | apply State.torqueOff_keeps | apply State.take_keeps | apply Keeps.ite | apply KeepsO.ite | apply KeepsO.next)
    | simp only [Keeps.upd_iff]
    | split
    | dsimp only

theorem execEncoderFault_keeps {s0 : State} (d : Drive) (s : State) (hk : Keeps s0 s) : KeepsO s0 (execEncoderFault d s) := by
  unfold execEncoderFault
  repeat' first
    | (with_reducible first | exact hk | assumption | apply State.p_keeps | apply State.notice_keeps | apply State.modDrv_keeps | apply Keeps.ite | apply KeepsO.ite | apply KeepsO.next)
    | simp only [Keeps.upd_iff]
    | split
    | dsimp only

theorem execEncoderFaultClear_keeps {s0 : State} (d : Drive) (s : State) (hk : Keeps s0 s) : KeepsO s0 (execEncoderFaultClear d s) := by
  unfold execEncoderFaultClear
  repeat' first
    | (with_reducible first | exact hk | assumption | apply State.p_keeps | apply Keeps.ite | apply KeepsO.ite | apply KeepsO.next)
    | split
    | dsimp only

theorem State.modPair_keeps {s0 : State} (s : State) (k : Nat) (f : PairSt → PairSt) (hk : Keeps s0 s) : Keeps s0 (State.modPair s k f) := by
  unfold State.modPair
  repeat' first
    | (with_reducible first | exact hk | assumption | apply Keeps.ite)
    | simp only [Keeps.upd_iff]
    | split
    | dsimp only

theorem State.setPair_keeps {s0 : State} (s : State) (k st stamp : Nat) (hk : Keeps s0 s) : Keeps s0 (State.setPair s k st stamp) := by
  unfold State.setPair
  repeat' first
    | (with_reducible first | exact hk | assumption | apply State.p_keeps | apply State.pb_keeps | apply State.modPair_keeps | apply Keeps.ite)
    | simp only [Keeps.upd_iff]
    | split
    | dsimp only

theorem State.pairTimer_keeps {s0 : State} (s : State) (k stamp : Nat) (second : Bool) (hk : Keeps s0 s) : Keeps s0 (State.pairTimer s k stamp second) := by
  unfold State.pairTimer
  repeat' first
    | (with_reducible first | exact hk | assumption | apply State.modPair_keeps | apply Keeps.ite)
    | simp only [Keeps.upd_iff]
    | split
    | dsimp only

theorem State.discrepancy_keeps {s0 : State} (s : State) (k cause : Nat) (hk : Keeps s0 s) : Keeps s0 (State.discrepancy s k cause) := by
  unfold State.discrepancy
  repeat' first
    | (with_reducible first | exact hk | assumption | apply State.p_keeps | apply State.inc_keeps | apply State.notice_keeps | apply State.setPair_keeps | apply Keeps.ite)
    | split
    | dsimp only

theorem State.evalPair_keeps {s0 : State} (s : State) (k : Nat) (a b : Bool) (ta tb : Nat) (hk : Keeps s0 s) : Keeps s0 (State.evalPair s k a b ta tb) := by
  unfold State.evalPair
  repeat' first
    | (with_reducible first | exact hk | assumption | apply State.setPair_keeps | apply State.pairTimer_keeps | apply State.discrepancy_keeps | apply Keeps.ite)
    | split
    | dsimp only

theorem execSafetyPairEvaluation_keeps {s0 : State} (k : Fin 8) (s : State) (hk : Keeps s0 s) : KeepsO s0 (execSafetyPairEvaluation k s) := by
  unfold execSafetyPairEvaluation
  repeat' first
    | (with_reducible first | exact hk | assumption | apply State.pb_keeps | apply State.setPair_keeps | apply State.evalPair_keeps | apply Keeps.ite | apply KeepsO.ite | apply KeepsO.next)
    | split
    | dsimp only

theorem State.sfSwitched_keeps {s0 : State} (s : State) (was : Bool) (hk : Keeps s0 s) : Keeps s0 (State.sfSwitched s was) := by
  unfold State.sfSwitched
  repeat' first
    | (with_reducible first | exact hk | assumption | apply State.driveOutputs_keeps | apply State.drivesDisable_keeps | apply State.drivesEnable_keeps | apply State.setPair_keeps | apply Keeps.ite)
    | (with_reducible apply Keeps.foldl; intro _ _ _)
    | split
    | dsimp only

theorem State.evalSeal_keeps {s0 : State} (s : State) (hk : Keeps s0 s) : Keeps s0 (State.evalSeal s) := by
  unfold State.evalSeal
  repeat' first
    | (with_reducible first | exact hk | assumption | apply State.p_keeps | apply State.drivesOff_keeps | apply State.report_keeps | apply Keeps.ite)
    | simp only [Keeps.upd_iff]
    | split
    | dsimp only

theorem State.sealTick_keeps {s0 : State} (s : State) (hk : Keeps s0 s) : Keeps s0 (State.sealTick s) := by
  unfold State.sealTick
  repeat' first
    | (with_reducible first | exact hk | assumption | apply State.evalSeal_keeps | apply Keeps.ite)
    | split
    | dsimp only

theorem execSealRead_keeps {s0 : State} (rd : SealReading) (s : State) (hk : Keeps s0 s) : KeepsO s0 (execSealRead rd s) := by
  unfold execSealRead
  repeat' first
    | (with_reducible first | exact hk | assumption | apply State.p_keeps | apply State.pb_keeps | apply State.evalSeal_keeps | apply Keeps.ite | apply KeepsO.ite | apply KeepsO.next)
    | simp only [Keeps.upd_iff]
    | split
    | dsimp only

theorem execTamperCheck_keeps {s0 : State} (opened : Bool) (s : State) (hk : Keeps s0 s) : KeepsO s0 (execTamperCheck opened s) := by
  unfold execTamperCheck
  repeat' first
    | (with_reducible first | exact hk | assumption | apply State.p_keeps | apply State.pb_keeps | apply State.evalSeal_keeps | apply Keeps.ite | apply KeepsO.ite | apply KeepsO.next)
    | simp only [Keeps.upd_iff]
    | split
    | dsimp only

/-! ### RackOps -/

theorem State.modPf_keeps {s0 : State} (s : State) (b : Nat) (f : PfBuf → PfBuf) (hk : Keeps s0 s) : Keeps s0 (State.modPf s b f) := by
  unfold State.modPf
  repeat' first
    | (with_reducible first | exact hk | assumption | apply Keeps.ite)
    | simp only [Keeps.upd_iff]
    | split
    | dsimp only

theorem State.dropPf_keeps {s0 : State} (s : State) (b : Nat) (hk : Keeps s0 s) : Keeps s0 (State.dropPf s b) := by
  unfold State.dropPf
  repeat' first
    | (with_reducible first | exact hk | assumption | apply State.inc_keeps | apply State.modPf_keeps | apply Keeps.ite)
    | split
    | dsimp only

theorem State.postWrite_keeps {s0 : State} (s : State) (slot a : Nat) (data : List Word) (src task cycle : Nat) (hk : Keeps s0 s) : Keeps s0 (State.postWrite s slot a data src task cycle) := by
  unfold State.postWrite
  repeat' first
    | (with_reducible first | exact hk | assumption | apply State.p_keeps | apply State.inc_keeps | apply State.emit_keeps | apply State.dropPf_keeps | apply Keeps.ite)
    | (with_reducible apply Keeps.foldl; intro _ _ _)
    | simp only [Keeps.upd_iff]
    | split
    | dsimp only

theorem State.setTag_keeps {s0 : State} (s : State) (k : Nat) (x : RdTag) (hk : Keeps s0 s) : Keeps s0 (State.setTag s k x) := by
  unfold State.setTag
  repeat' first
    | (with_reducible first | exact hk | assumption | apply State.p_keeps | apply Keeps.ite)
    | simp only [Keeps.upd_iff]
    | split
    | dsimp only

theorem State.modRbTask_keeps {s0 : State} (s : State) (t : Nat) (f : RbTask → RbTask) (hk : Keeps s0 s) : Keeps s0 (State.modRbTask s t f) := by
  unfold State.modRbTask
  repeat' first
    | (with_reducible first | exact hk | assumption | apply Keeps.ite)
    | simp only [Keeps.upd_iff]
    | split
    | dsimp only

theorem State.endWait_keeps {s0 : State} (s : State) (l t place : Nat) (hk : Keeps s0 s) : Keeps s0 (State.endWait s l t place) := by
  unfold State.endWait
  repeat' first
    | (with_reducible first | exact hk | assumption | apply Keeps.ite)
    | (with_reducible apply Keeps.modLane <;> [skip; exact fun _ hw => hw])
    | simp only [Keeps.upd_iff]
    | split
    | dsimp only

theorem State.endRead_keeps {s0 : State} (s : State) (r : RdReq) (code : Nat) (data : List Word) (hk : Keeps s0 s) : Keeps s0 (State.endRead s r code data) := by
  unfold State.endRead
  repeat' first
    | (with_reducible first | exact hk | assumption | apply State.p_keeps | apply State.inc_keeps | apply State.emit_keeps | apply State.modRbTask_keeps | apply State.endWait_keeps | apply Keeps.ite)
    | (with_reducible apply Keeps.foldl; intro _ _ _)
    | simp only [Keeps.upd_iff]
    | split
    | dsimp only

theorem State.issue_keeps {s0 : State} (s : State) (k : Nat) (x : RdTag) (hk : Keeps s0 s) : Keeps s0 (State.issue s k x) := by
  unfold State.issue
  repeat' first
    | (with_reducible first | exact hk | assumption | apply State.emit_keeps | apply State.setTag_keeps | apply Keeps.ite)
    | simp only [Keeps.upd_iff]
    | split
    | dsimp only

theorem State.askRead_keeps {s0 : State} (s : State) (r : RdReq) (hk : Keeps s0 s) : Keeps s0 (State.askRead s r) := by
  unfold State.askRead
  repeat' first
    | (with_reducible first | exact hk | assumption | apply State.take_keeps | apply State.modPf_keeps | apply State.dropPf_keeps | apply State.setTag_keeps | apply State.endRead_keeps | apply State.issue_keeps | apply Keeps.ite)
    | simp only [Keeps.upd_iff]
    | split
    | dsimp only

theorem State.freeTagNow_keeps {s0 : State} (s : State) (k : Nat) (hk : Keeps s0 s) : Keeps s0 (State.freeTagNow s k) := by
  unfold State.freeTagNow
  repeat' first
    | (with_reducible first | exact hk | assumption | apply State.setTag_keeps | apply State.askRead_keeps | apply Keeps.ite)
    | simp only [Keeps.upd_iff]
    | split
    | dsimp only

theorem State.cardReads_keeps {s0 : State} (s : State) (t cycle : Nat) (hk : Keeps s0 s) : Keeps s0 (State.cardReads s t cycle) := by
  unfold State.cardReads
  repeat' first
    | (with_reducible first | exact hk | assumption | apply State.askRead_keeps | apply Keeps.ite)
    | (with_reducible apply Keeps.foldl; intro _ _ _)
    | simp only [Keeps.upd_iff]
    | split
    | dsimp only

/-! ### Apply -/

theorem State.commitOut_keeps {s0 : State} (s : State) (k : Nat) (b : Byte) (hk : Keeps s0 s) : Keeps s0 (State.commitOut s k b) := by
  unfold State.commitOut
  repeat' first
    | (with_reducible first | exact hk | assumption | apply State.pb_keeps | apply State.inc_keeps | apply State.driveOutputs_keeps | apply Keeps.ite)
    | split
    | dsimp only

theorem State.commitNode_keeps {s0 : State} (s : State) (r n off : Nat) (p : Part) (hk : Keeps s0 s) : Keeps s0 (State.commitNode s r n off p) := by
  unfold State.commitNode
  repeat' first
    | (with_reducible first | exact hk | assumption | apply State.p_keeps | apply State.modRing_keeps | apply Keeps.ite)
    | simp only [Keeps.upd_iff]
    | split
    | dsimp only

theorem State.applyPart_keeps {s0 : State} (s : State) (p : Part) (hk : Keeps s0 s) : Keeps s0 (State.applyPart s p) := by
  unfold State.applyPart
  repeat' first
    | (with_reducible first | exact hk | assumption | apply State.p_keeps | apply State.permit_keeps | apply State.commitLoop_keeps | apply State.take_keeps | apply State.sendPub_keeps | apply State.postWrite_keeps | apply State.commitOut_keeps | apply State.commitNode_keeps | apply Keeps.ite)
    | simp only [Keeps.upd_iff]
    | split
    | dsimp only

theorem State.lateAt_keeps {s0 : State} (s : State) (d : Nat) (hk : Keeps s0 s) : Keeps s0 (State.lateAt s d) := by
  unfold State.lateAt
  repeat' first
    | (with_reducible first | exact hk | assumption | apply State.notice_keeps | apply Keeps.ite)
    | simp only [Keeps.upd_iff]
    | split
    | dsimp only

theorem State.applyLate_keeps {s0 : State} (s : State) (p : Part) (hk : Keeps s0 s) : Keeps s0 (State.applyLate s p) := by
  unfold State.applyLate
  repeat' first
    | (with_reducible first | exact hk | assumption | apply State.p_keeps | apply State.inc_keeps | apply State.applyPart_keeps | apply State.lateAt_keeps | apply Keeps.ite)
    | split
    | dsimp only

theorem State.useNode_keeps {s0 : State} (s : State) (p : Part) (hk : Keeps s0 s) : Keeps s0 (State.useNode s p) := by
  unfold State.useNode
  repeat' first
    | (with_reducible first | exact hk | assumption | apply State.p_keeps | apply Keeps.ite)
    | simp only [Keeps.upd_iff]
    | split
    | dsimp only

theorem State.arrive_keeps {s0 : State} (s : State) (p : Part) (hk : Keeps s0 s) : Keeps s0 (State.arrive s p) := by
  unfold State.arrive
  repeat' first
    | (with_reducible first | exact hk | assumption | apply State.p_keeps | apply State.applyLate_keeps | apply State.useNode_keeps | apply Keeps.ite)
    | simp only [Keeps.upd_iff]
    | split
    | dsimp only

theorem State.dispatchPart_keeps {s0 : State} (s : State) (p : Part) (hk : Keeps s0 s) : Keeps s0 (State.dispatchPart s p) := by
  unfold State.dispatchPart
  repeat' first
    | (with_reducible first | exact hk | assumption | apply State.p_keeps | apply State.linkSend_keeps | apply State.arrive_keeps | apply Keeps.ite)
    | simp only [Keeps.upd_iff]
    | split
    | dsimp only

theorem State.applyAt_keeps {s0 : State} (s : State) (q : ApplyQ) (t : Nat) (hk : Keeps s0 s) : Keeps s0 (State.applyAt s q t) := by
  unfold State.applyAt
  repeat' first
    | (with_reducible first | exact hk | assumption | apply State.p_keeps | apply State.applyPart_keeps | apply Keeps.ite)
    | (with_reducible apply Keeps.foldl; intro _ _ _)
    | simp only [Keeps.upd_iff]
    | split
    | dsimp only

theorem execOutputApply_keeps {s0 : State} (q : ApplyQ) (s : State) (hk : Keeps s0 s) : KeepsO s0 (execOutputApply q s) := by
  unfold execOutputApply
  repeat' first
    | (with_reducible first | exact hk | assumption | apply State.applyAt_keeps | apply Keeps.ite | apply KeepsO.ite | apply KeepsO.next)
    | split
    | dsimp only

theorem execQueuedCommitRelease_keeps {s0 : State} (q : ApplyQ) (s : State) (hk : Keeps s0 s) : KeepsO s0 (execQueuedCommitRelease q s) := by
  unfold execQueuedCommitRelease
  repeat' first
    | (with_reducible first | exact hk | assumption | apply State.p_keeps | apply State.arrive_keeps | apply Keeps.ite | apply KeepsO.ite | apply KeepsO.next)
    | (with_reducible apply Keeps.foldl; intro _ _ _)
    | simp only [Keeps.upd_iff]
    | split
    | dsimp only

theorem execCommitMessage_keeps {s0 : State} (s : State) (hk : Keeps s0 s) : KeepsO s0 (execCommitMessage s) := by
  unfold execCommitMessage
  repeat' first
    | (with_reducible first | exact hk | assumption | apply State.p_keeps | apply State.driveOutputs_keeps | apply State.arrive_keeps | apply Keeps.ite | apply KeepsO.ite | apply KeepsO.next)
    | (with_reducible apply Keeps.foldl; intro _ _ _)
    | simp only [Keeps.upd_iff]
    | split
    | dsimp only

theorem execPublicationSend_keeps {s0 : State} (p : Fin 64) (s : State) (hk : Keeps s0 s) : KeepsO s0 (execPublicationSend p s) := by
  unfold execPublicationSend
  repeat' first
    | (with_reducible first | exact hk | assumption | apply State.p_keeps | apply State.applyPart_keeps | apply Keeps.ite | apply KeepsO.ite | apply KeepsO.next)
    | (with_reducible apply Keeps.foldl; intro _ _ _)
    | simp only [Keeps.upd_iff]
    | split
    | dsimp only

/-! ### Streams -/

theorem State.putStream_keeps {s0 : State} (s : State) (v : StreamVote) (hk : Keeps s0 s) : Keeps s0 (State.putStream s v) := by
  unfold State.putStream
  repeat' first
    | (with_reducible first | exact hk | assumption | apply Keeps.ite)
    | simp only [Keeps.upd_iff]
    | split
    | dsimp only

theorem State.streamMinority_keeps {s0 : State} (s : State) (l cause : Nat) (st : RetStream) (hk : Keeps s0 s) : Keeps s0 (State.streamMinority s l cause st) := by
  unfold State.streamMinority
  repeat' first
    | (with_reducible first | exact hk | assumption | apply State.minority_keeps | apply Keeps.ite)
    | simp only [Keeps.upd_iff]
    | split
    | dsimp only

theorem State.streamFails_keeps {s0 : State} (s : State) (v : StreamVote) (hk : Keeps s0 s) : Keeps s0 (State.streamFails s v).1 := by
  unfold State.streamFails
  repeat' first
    | (with_reducible first | exact hk | assumption | apply State.inc_keeps | apply State.endStream_keeps | apply State.report_keeps | apply Keeps.ite)
    | split
    | dsimp only

theorem State.streamForms_keeps {s0 : State} (s : State) (v : StreamVote) (w : List Byte) (hk : Keeps s0 s) : Keeps s0 (State.streamForms s v w) := by
  unfold State.streamForms
  repeat' first
    | (with_reducible first | exact hk | assumption | apply State.inc_keeps | apply State.putStream_keeps | apply State.streamMinority_keeps | apply Keeps.ite)
    | (with_reducible apply Keeps.foldl; intro _ _ _)
    | simp only [Keeps.upd_iff]
    | split
    | dsimp only

theorem State.postStream_keeps {s0 : State} (s : State) (k : StreamKind) (st : RetStream) (place : Nat) (l : Lane) (bs : List Byte) (hk : Keeps s0 s) : Keeps s0 (State.postStream s k st place l bs).1 := by
  unfold State.postStream
  repeat' first
    | (with_reducible first | exact hk | assumption | apply State.putStream_keeps | apply State.streamMinority_keeps | apply State.streamFails_keeps | apply State.streamForms_keeps | apply Keeps.ite)
    | simp only [Keeps.upd_iff]
    | split
    | (with_reducible refine Keeps.fst ?_ (by assumption))
    | dsimp only

theorem State.streamLate_keeps {s0 : State} (s : State) (v : StreamVote) (hk : Keeps s0 s) : Keeps s0 (State.streamLate s v) := by
  unfold State.streamLate
  repeat' first
    | (with_reducible first | exact hk | assumption | apply State.putStream_keeps | apply State.streamMinority_keeps | apply Keeps.ite)
    | (with_reducible apply Keeps.foldl; intro _ _ _)
    | simp only [Keeps.upd_iff]
    | split
    | dsimp only

theorem State.closeStream_keeps {s0 : State} (s : State) (v : StreamVote) (hk : Keeps s0 s) : Keeps s0 (State.closeStream s v).1 := by
  unfold State.closeStream
  repeat' first
    | (with_reducible first | exact hk | assumption | apply State.streamFails_keeps | apply State.streamForms_keeps | apply State.streamLate_keeps | apply Keeps.ite)
    | simp only [Keeps.upd_iff]
    | split
    | (with_reducible refine Keeps.fst ?_ (by assumption))
    | dsimp only

/-! ### CoreOps -/

theorem State.storeWord_keeps {s0 : State} (s : State) (l w : Nat) (v : BitVec 64) (hk : Keeps s0 s) : Keeps s0 (State.storeWord s l w v) := by
  unfold State.storeWord
  refine Keeps.setLane _ _ hk (fun hw => ?_)
  have h := Memory.wf_wrL (State.lane_wf hw l) (8 * w) (leBytes 8 v.toNat)
  dsimp only
  repeat' first
    | exact h
    | split

theorem State.storeBytes_keeps {s0 : State} (s : State) (l a : Nat) (bs : List Byte) (hk : Keeps s0 s) : Keeps s0 (State.storeBytes s l a bs) := by
  unfold State.storeBytes
  repeat' first
    | (with_reducible first | exact hk | assumption | apply State.storeWord_keeps | apply Keeps.ite)
    | split
    | dsimp only

theorem State.mmuRecord_keeps {s0 : State} (s : State) (l c : Nat) (m : MmuRec) (hk : Keeps s0 s) : Keeps s0 (State.mmuRecord s l c m) := by
  unfold State.mmuRecord
  repeat' first
    | (with_reducible first | exact hk | assumption | apply State.p_keeps | apply State.pb_keeps | apply Keeps.ite)
    | split
    | dsimp only

theorem State.modLt_keeps {s0 : State} (s : State) (l t : Nat) (f : LaneTask → LaneTask) (hk : Keeps s0 s) : Keeps s0 (State.modLt s l t f) := by
  unfold State.modLt
  repeat' first
    | (with_reducible first | exact hk | assumption | apply Keeps.ite)
    | (with_reducible apply Keeps.modLane <;> [skip; exact fun _ hw => hw])
    | simp only [Keeps.upd_iff]
    | split
    | dsimp only

theorem State.retStore_keeps {s0 : State} (s : State) (l : Lane) (st : RetStream) (a mask : Nat) (v : BitVec 64) (hk : Keeps s0 s) : Keeps s0 (State.retStore s l st a mask v) := by
  unfold State.retStore
  repeat' first
    | (with_reducible first | exact hk | assumption | apply State.retPend_keeps | apply State.postStream_keeps | apply State.modLt_keeps | apply Keeps.ite)
    | (with_reducible apply Keeps.modLane <;> [skip; exact fun _ hw => hw])
    | simp only [Keeps.upd_iff]
    | split
    | (with_reducible refine Keeps.fst ?_ (by assumption))
    | dsimp only

theorem State.sendTick_keeps {s0 : State} (s : State) (l : Nat) (hk : Keeps s0 s) : Keeps s0 (State.sendTick s l) := by
  unfold State.sendTick
  repeat' first
    | (with_reducible first | exact hk | assumption | apply State.p_keeps | apply Keeps.ite)
    | split
    | dsimp only

theorem State.submitted_keeps {s0 : State} (s : State) (l t : Nat) (u : Sub) (hk : Keeps s0 s) : Keeps s0 (State.submitted s l t u) := by
  unfold State.submitted
  repeat' first
    | (with_reducible first | exact hk | assumption | apply State.p_keeps | apply State.pb_keeps | apply State.modLt_keeps | apply Keeps.ite)
    | (with_reducible apply Keeps.modLane <;> [skip; exact fun _ hw => hw])
    | (with_reducible apply Keeps.setLane <;> [skip; exact fun hw => by simp [State.lane_wf hw, Memory.wf_wrL]])
    | simp only [Keeps.upd_iff]
    | split
    | dsimp only

/-! ### CoreFault -/

theorem State.modCtx_keeps {s0 : State} (s : State) (l t : Nat) (f : SpecCtx → SpecCtx) (hk : Keeps s0 s) : Keeps s0 (State.modCtx s l t f) := by
  unfold State.modCtx
  repeat' first
    | (with_reducible first | exact hk | assumption | apply Keeps.ite)
    | (with_reducible apply Keeps.modLane <;> [skip; exact fun _ hw => hw])
    | simp only [Keeps.upd_iff]
    | split
    | dsimp only

theorem State.ctxClock_keeps {s0 : State} (s : State) (l t : Nat) (hk : Keeps s0 s) : Keeps s0 (State.ctxClock s l t) := by
  unfold State.ctxClock
  repeat' first
    | (with_reducible first | exact hk | assumption | apply State.modCtx_keeps | apply Keeps.ite)
    | simp only [Keeps.upd_iff]
    | split
    | dsimp only

theorem State.pairCtx_keeps {s0 : State} (s : State) (l p : Nat) (v : Word) (hk : Keeps s0 s) : Keeps s0 (State.pairCtx s l p v) := by
  unfold State.pairCtx
  repeat' first
    | (with_reducible first | exact hk | assumption | apply State.p_keeps | apply State.ctxClock_keeps | apply Keeps.ite)
    | (with_reducible apply Keeps.foldl; intro _ _ _)
    | split
    | dsimp only

theorem State.stallCtx_keeps {s0 : State} (s : State) (l t : Nat) (ops : List CoreOp) (hk : Keeps s0 s) : Keeps s0 (State.stallCtx s l t ops) := by
  unfold State.stallCtx
  repeat' first
    | (with_reducible first | exact hk | assumption | apply State.p_keeps | apply State.modCtx_keeps | apply State.ctxClock_keeps | apply Keeps.ite)
    | simp only [Keeps.upd_iff]
    | split
    | dsimp only

theorem State.holdCtx_keeps {s0 : State} (s : State) (l t : Nat) (ops : List CoreOp) (hk : Keeps s0 s) : Keeps s0 (State.holdCtx s l t ops) := by
  unfold State.holdCtx
  repeat' first
    | (with_reducible first | exact hk | assumption | apply State.p_keeps | apply State.stallCtx_keeps | apply Keeps.ite)
    | split
    | dsimp only

theorem State.dqShow_keeps {s0 : State} (s : State) (l : Nat) (hk : Keeps s0 s) : Keeps s0 (State.dqShow s l) := by
  unfold State.dqShow
  repeat' first
    | (with_reducible first | exact hk | assumption | apply State.p_keeps | apply Keeps.ite)
    | split
    | dsimp only

theorem State.deferWrite_keeps {s0 : State} (s : State) (l t w mask : Nat) (v : BitVec 64) (op : CoreOp) (hk : Keeps s0 s) : Keeps s0 (State.deferWrite s l t w mask v op) := by
  unfold State.deferWrite
  repeat' first
    | (with_reducible first | exact hk | assumption | apply State.modCtx_keeps | apply State.stallCtx_keeps | apply State.dqShow_keeps | apply Keeps.ite)
    | simp only [Keeps.upd_iff]
    | split
    | dsimp only

theorem State.abandonCycle_keeps {s0 : State} (s : State) (l t : Nat) (hk : Keeps s0 s) : Keeps s0 (State.abandonCycle s l t) := by
  unfold State.abandonCycle
  repeat' first
    | (with_reducible first | exact hk | assumption | apply State.modLt_keeps | apply Keeps.ite)
    | simp only [Keeps.upd_iff]
    | split
    | dsimp only

theorem State.raise_keeps {s0 : State} (s : State) (l c code : Nat) (hk : Keeps s0 s) : Keeps s0 (State.raise s l c code) := by
  unfold State.raise
  repeat' first
    | (with_reducible first | exact hk | assumption | apply State.emit_keeps | apply Keeps.ite)
    | split
    | dsimp only

theorem State.mmuEvent_keeps {s0 : State} (s : State) (l c : Nat) (hk : Keeps s0 s) : Keeps s0 (State.mmuEvent s l c) := by
  unfold State.mmuEvent
  repeat' first
    | (with_reducible first | exact hk | assumption | apply State.recordEv_keeps | apply Keeps.ite)
    | simp only [Keeps.upd_iff]
    | split
    | dsimp only

theorem State.afterFault_keeps {s0 : State} (s : State) (l : Nat) (t : Option Nat) (sup : Bool) (hk : Keeps s0 s) : Keeps s0 (State.afterFault s l t sup) := by
  unfold State.afterFault
  repeat' first
    | (with_reducible first | exact hk | assumption | apply State.abandonCycle_keeps | apply Keeps.ite)
    | (with_reducible apply Keeps.modLane <;> [skip; exact fun _ hw => hw])
    | simp only [Keeps.upd_iff]
    | split
    | dsimp only

theorem State.mmuFault_keeps {s0 : State} (s : State) (l c : Nat) (t : Option Nat) (m : MmuRec) (hk : Keeps s0 s) : Keeps s0 (State.mmuFault s l c t m) := by
  unfold State.mmuFault
  repeat' first
    | (with_reducible first | exact hk | assumption | apply State.mmuRecord_keeps | apply State.raise_keeps | apply State.mmuEvent_keeps | apply State.afterFault_keeps | apply Keeps.ite)
    | split
    | dsimp only

end Sys2Proof.Machine
end

