-- ==== Sys2Proof/Laws/Keep5.lean ====
section
/-! SUPPORT. What every operation keeps of a state (`Keeps`): those of Machine/Rack.lean, UnitOps.lean. -/

set_option linter.all false

namespace Sys2Proof.Machine
open Sys2Proof.Safety

/-! ### Rack -/

theorem State.openWindow_keeps {s0 : State} (s : State) (k w : Nat) (base pages : Nat) (pf rs : Bool) (hk : Keeps s0 s) : Keeps s0 (State.openWindow s k w base pages pf rs) := by
  unfold State.openWindow
  repeat' first
    | (with_reducible first | exact hk | assumption | apply State.p_keeps | apply State.pb_keeps | apply State.emit_keeps | apply State.notice_keeps | apply Keeps.ite)
    | split
    | dsimp only

theorem State.enumSlot_keeps {s0 : State} (s : State) (cards : List CardHeader) (descs : List CardDesc) (k : Nat) (hk : Keeps s0 s) : Keeps s0 (State.enumSlot s cards descs k) := by
  unfold State.enumSlot
  repeat' first
    | (with_reducible first | exact hk | assumption | apply State.p_keeps | apply State.notice_keeps | apply State.openWindow_keeps | apply Keeps.ite)
    | (with_reducible apply Keeps.foldl; intro _ _ _)
    | split
    | dsimp only

theorem State.rackConfig_keeps {s0 : State} (s : State) (p : AppPkg) (hk : Keeps s0 s) : Keeps s0 (State.rackConfig s p) := by
  unfold State.rackConfig
  repeat' first
    | (with_reducible first | exact hk | assumption | apply State.p_keeps | apply State.pb_keeps | apply Keeps.ite)
    | (with_reducible apply Keeps.foldl; intro _ _ _)
    | split
    | dsimp only

theorem execEnumeration_keeps {s0 : State} (cards : List CardHeader) (s : State) (hk : Keeps s0 s) : KeepsO s0 (execEnumeration cards s) := by
  unfold execEnumeration
  repeat' first
    | (with_reducible first | exact hk | assumption | apply State.p_keeps | apply State.enumSlot_keeps | apply State.rackConfig_keeps | apply Keeps.ite | apply KeepsO.ite | apply KeepsO.next)
    | (with_reducible apply Keeps.foldl; intro _ _ _)
    | split
    | dsimp only

theorem State.rackBusError_keeps {s0 : State} (s : State) (l t place a : Nat) (wr : Bool) (hk : Keeps s0 s) : Keeps s0 (State.rackBusError s l t place a wr) := by
  unfold State.rackBusError
  repeat' first
    | (with_reducible first | exact hk | assumption | apply State.emit_keeps | apply State.endWait_keeps | apply State.mmuFault_keeps | apply Keeps.ite)
    | simp only [Keeps.upd_iff]
    | split
    | dsimp only

theorem State.giveLoad_keeps {s0 : State} (s : State) (lanes : List Nat) (t place : Nat) (data : List Word) (hk : Keeps s0 s) : Keeps s0 (State.giveLoad s lanes t place data) := by
  unfold State.giveLoad
  repeat' first
    | (with_reducible first | exact hk | assumption | apply State.emit_keeps | apply State.endWait_keeps | apply State.rackBusError_keeps | apply Keeps.ite)
    | (with_reducible apply Keeps.foldl; intro _ _ _)
    | split
    | dsimp only

theorem State.winDone_keeps {s0 : State} (s : State) (word : Nat) (wr v : Option Word) (hk : Keeps s0 s) : Keeps s0 (State.winDone s word wr v) := by
  unfold State.winDone
  repeat' first
    | (with_reducible first | exact hk | assumption | apply State.emit_keeps | apply State.giveLoad_keeps | apply Keeps.ite)
    | simp only [Keeps.upd_iff]
    | split
    | dsimp only

theorem State.winRead_keeps {s0 : State} (s : State) (word : Nat) (undef : Bool) (hk : Keeps s0 s) : Keeps s0 (State.winRead s word undef).1 := by
  unfold State.winRead
  repeat' first
    | (with_reducible first | exact hk | assumption | apply Keeps.ite)
    | simp only [Keeps.upd_iff]
    | split
    | dsimp only

theorem State.winSettle_keeps {s0 : State} (s : State) (clk : Nat) (hk : Keeps s0 s) : Keeps s0 (State.winSettle s clk) := by
  unfold State.winSettle
  repeat' first
    | (with_reducible first | exact hk | assumption | apply State.emit_keeps | apply State.winDone_keeps | apply State.winRead_keeps | apply Keeps.ite)
    | simp only [Keeps.upd_iff]
    | split
    | (with_reducible refine Keeps.fst ?_ (by assumption))
    | dsimp only

theorem State.winCollide_keeps {s0 : State} (s : State) (word : Nat) (hk : Keeps s0 s) : Keeps s0 (State.winCollide s word) := by
  unfold State.winCollide
  repeat' first
    | (with_reducible first | exact hk | assumption | apply State.noticeD_keeps | apply Keeps.ite)
    | simp only [Keeps.upd_iff]
    | split
    | dsimp only

theorem State.winWrite_keeps {s0 : State} (s : State) (word : Nat) (v : Word) (be : Nat) (hk : Keeps s0 s) : Keeps s0 (State.winWrite s word v be) := by
  unfold State.winWrite
  repeat' first
    | (with_reducible first | exact hk | assumption | apply Keeps.ite)
    | (with_reducible apply Keeps.foldl; intro _ _ _)
    | simp only [Keeps.upd_iff]
    | split
    | dsimp only

theorem State.winTakeB_keeps {s0 : State} (s : State) (word : Nat) (wr : Option Word) (clk : Nat) (undef : Bool) (hk : Keeps s0 s) : Keeps s0 (State.winTakeB s word wr clk undef) := by
  unfold State.winTakeB
  repeat' first
    | (with_reducible first | exact hk | assumption | apply State.emit_keeps | apply State.winDone_keeps | apply State.winWrite_keeps | apply Keeps.ite)
    | simp only [Keeps.upd_iff]
    | split
    | dsimp only

theorem State.winSame_keeps {s0 : State} (s : State) (x : WinAcc) (word : Nat) (wr : Option Word) (clk : Nat) (hk : Keeps s0 s) : Keeps s0 (State.winSame s x word wr clk) := by
  unfold State.winSame
  repeat' first
    | (with_reducible first | exact hk | assumption | apply State.inc_keeps | apply State.winWrite_keeps | apply State.winTakeB_keeps | apply Keeps.ite)
    | simp only [Keeps.upd_iff]
    | split
    | dsimp only

theorem State.winTryB_keeps {s0 : State} (s : State) (word : Nat) (wr : Option Word) (clk tries : Nat) (hk : Keeps s0 s) : Keeps s0 (State.winTryB s word wr clk tries) := by
  unfold State.winTryB
  repeat' first
    | (with_reducible first | exact hk | assumption | apply State.emit_keeps | apply State.notice_keeps | apply State.winDone_keeps | apply State.winSettle_keeps | apply State.winCollide_keeps | apply State.winTakeB_keeps | apply State.winSame_keeps | apply Keeps.ite)
    | simp only [Keeps.upd_iff]
    | split
    | dsimp only

theorem State.winRetries_keeps {s0 : State} (s : State) (clk n : Nat) (hk : Keeps s0 s) : Keeps s0 (State.winRetries s clk n) := by
  induction n generalizing s with
  | zero => exact hk
  | succ n ih =>
    simp only [State.winRetries]
    split
    · with_reducible apply Keeps.ite
      · exact ih _ (State.winTryB_keeps _ _ _ _ _ hk)
      · exact hk
    · exact hk

theorem State.winIdle_keeps {s0 : State} (s : State) (hk : Keeps s0 s) : Keeps s0 (State.winIdle s) := by
  unfold State.winIdle
  repeat' first
    | (with_reducible first | exact hk | assumption | apply State.winSettle_keeps | apply State.winRetries_keeps | apply Keeps.ite)
    | split
    | dsimp only

theorem State.winPortA_keeps {s0 : State} (s : State) (a : Nat) (wr : Option (Word × Nat)) (clk : Nat) (hk : Keeps s0 s) : Keeps s0 (State.winPortA s a wr clk) := by
  unfold State.winPortA
  repeat' first
    | (with_reducible first | exact hk | assumption | apply State.inc_keeps | apply State.emit_keeps | apply State.winRead_keeps | apply State.winSettle_keeps | apply State.winCollide_keeps | apply State.winWrite_keeps | apply State.winRetries_keeps | apply Keeps.ite)
    | simp only [Keeps.upd_iff]
    | split
    | (with_reducible refine Keeps.fst ?_ (by assumption))
    | dsimp only

theorem execWindowPortBAccess_keeps {s0 : State} (off : Nat) (wr : Option Word) (clk : Nat) (s : State) (hk : Keeps s0 s) : KeepsO s0 (execWindowPortBAccess off wr clk s) := by
  unfold execWindowPortBAccess
  repeat' first
    | (with_reducible first | exact hk | assumption | apply State.winTryB_keeps | apply State.winRetries_keeps | apply Keeps.ite | apply KeepsO.ite | apply KeepsO.next)
    | split
    | dsimp only

theorem execWindowRead_keeps {s0 : State} (a clk : Nat) (s : State) (hk : Keeps s0 s) : KeepsO s0 (execWindowRead a clk s) := by
  unfold execWindowRead
  repeat' first
    | (with_reducible first | exact hk | assumption | apply State.winPortA_keeps | apply Keeps.ite | apply KeepsO.ite | apply KeepsO.next)
    | split
    | dsimp only

theorem execWindowWrite_keeps {s0 : State} (a : Nat) (v : Word) (be : BitVec 4) (clk : Nat) (s : State) (hk : Keeps s0 s) : KeepsO s0 (execWindowWrite a v be clk s) := by
  unfold execWindowWrite
  repeat' first
    | (with_reducible first | exact hk | assumption | apply State.winPortA_keeps | apply Keeps.ite | apply KeepsO.ite | apply KeepsO.next)
    | split
    | dsimp only

theorem State.rackAct_keeps {s0 : State} (s : State) (t place : Nat) (q : RackReq) (cycle : Nat) (hk : Keeps s0 s) : Keeps s0 (State.rackAct s t place q cycle) := by
  unfold State.rackAct
  repeat' first
    | (with_reducible first | exact hk | assumption | apply State.postWrite_keeps | apply State.askRead_keeps | apply State.giveLoad_keeps | apply Keeps.ite)
    | simp only [Keeps.upd_iff]
    | split
    | dsimp only

theorem State.rackPost_keeps {s0 : State} (s : State) (l : Lane) (t : Task) (acc : RackReq) (sup odd : Bool) (hk : Keeps s0 s) : Keeps s0 (State.rackPost s l t acc sup odd) := by
  unfold State.rackPost
  repeat' first
    | (with_reducible first | exact hk | assumption | apply State.postStream_keeps | apply State.modLt_keeps | apply State.rackBusError_keeps | apply State.giveLoad_keeps | apply State.rackAct_keeps | apply Keeps.ite)
    | (with_reducible apply Keeps.foldl; intro _ _ _)
    | simp only [Keeps.upd_iff]
    | split
    | (with_reducible refine Keeps.fst ?_ (by assumption))
    | dsimp only

theorem State.unexpected_keeps {s0 : State} (s : State) (hk : Keeps s0 s) : Keeps s0 (State.unexpected s) := by
  unfold State.unexpected
  repeat' first
    | (with_reducible first | exact hk | assumption | apply State.p_keeps | apply State.inc_keeps | apply State.notice_keeps | apply Keeps.ite)
    | split
    | dsimp only

theorem State.discard_keeps {s0 : State} (s : State) (hk : Keeps s0 s) : Keeps s0 (State.discard s) := by
  unfold State.discard
  repeat' first
    | (with_reducible first | exact hk | assumption | apply State.p_keeps | apply State.inc_keeps | apply Keeps.ite)
    | split
    | dsimp only

theorem State.fillBuf_keeps {s0 : State} (s : State) (k b : Nat) (d : Option (List Word)) (hk : Keeps s0 s) : Keeps s0 (State.fillBuf s k b d) := by
  unfold State.fillBuf
  repeat' first
    | (with_reducible first | exact hk | assumption | apply State.modPf_keeps | apply Keeps.ite)
    | simp only [Keeps.upd_iff]
    | split
    | dsimp only

theorem execReadCompletion_keeps {s0 : State} (tag : Fin 32) (code : Nat) (data : List Word) (s : State) (hk : Keeps s0 s) : KeepsO s0 (execReadCompletion tag code data s) := by
  unfold execReadCompletion
  repeat' first
    | (with_reducible first | exact hk | assumption | apply State.take_keeps | apply State.setTag_keeps | apply State.endRead_keeps | apply State.freeTagNow_keeps | apply State.unexpected_keeps | apply State.discard_keeps | apply State.fillBuf_keeps | apply Keeps.ite | apply KeepsO.ite | apply KeepsO.next)
    | (with_reducible apply Keeps.foldl; intro _ _ _)
    | simp only [Keeps.upd_iff]
    | split
    | dsimp only

theorem execReadTimeout_keeps {s0 : State} (tag : Fin 32) (s : State) (hk : Keeps s0 s) : KeepsO s0 (execReadTimeout tag s) := by
  unfold execReadTimeout
  repeat' first
    | (with_reducible first | exact hk | assumption | apply State.setTag_keeps | apply State.endRead_keeps | apply State.fillBuf_keeps | apply Keeps.ite | apply KeepsO.ite | apply KeepsO.next)
    | (with_reducible apply Keeps.foldl; intro _ _ _)
    | simp only [Keeps.upd_iff]
    | split
    | dsimp only

theorem execDiscardTimerExpiry_keeps {s0 : State} (tag : Fin 32) (s : State) (hk : Keeps s0 s) : KeepsO s0 (execDiscardTimerExpiry tag s) := by
  unfold execDiscardTimerExpiry
  repeat' first
    | (with_reducible first | exact hk | assumption | apply State.freeTagNow_keeps | apply State.discard_keeps | apply Keeps.ite | apply KeepsO.ite | apply KeepsO.next)
    | split
    | dsimp only

theorem execErrorMessage_keeps {s0 : State} (slot : Fin 16) (tag : Fin 32) (code : Fin 8) (a : Nat) (s : State) (hk : Keeps s0 s) : KeepsO s0 (execErrorMessage slot tag code a s) := by
  unfold execErrorMessage
  repeat' first
    | (with_reducible first | exact hk | assumption | apply State.p_keeps | apply State.pb_keeps | apply State.inc_keeps | apply State.post_keeps | apply State.noticeD_keeps | apply State.modRbTask_keeps | apply Keeps.ite | apply KeepsO.ite | apply KeepsO.next)
    | simp only [Keeps.upd_iff]
    | split
    | dsimp only

theorem execPrefetchExpiry_keeps {s0 : State} (b : Fin 8) (s : State) (hk : Keeps s0 s) : KeepsO s0 (execPrefetchExpiry b s) := by
  unfold execPrefetchExpiry
  repeat' first
    | (with_reducible first | exact hk | assumption | apply State.dropPf_keeps | apply Keeps.ite | apply KeepsO.ite | apply KeepsO.next)
    | split
    | dsimp only

theorem State.setLs_keeps {s0 : State} (s : State) (k : Nat) (x : LsStn) (hk : Keeps s0 s) : Keeps s0 (State.setLs s k x) := by
  unfold State.setLs
  repeat' first
    | (with_reducible first | exact hk | assumption | apply Keeps.ite)
    | simp only [Keeps.upd_iff]
    | split
    | dsimp only

theorem State.settleSerial_keeps {s0 : State} (s : State) (k : Nat) (hk : Keeps s0 s) : Keeps s0 (State.settleSerial s k) := by
  unfold State.settleSerial
  repeat' first
    | (with_reducible first | exact hk | assumption | apply State.p_keeps | apply State.applyPart_keeps | apply Keeps.ite)
    | (with_reducible apply Keeps.foldl; intro _ _ _)
    | simp only [Keeps.upd_iff]
    | split
    | dsimp only

theorem State.lsPoll_keeps {s0 : State} (s : State) (hk : Keeps s0 s) : Keeps s0 (State.lsPoll s) := by
  unfold State.lsPoll
  repeat' first
    | (with_reducible first | exact hk | assumption | apply State.emit_keeps | apply State.setLs_keeps | apply State.settleSerial_keeps | apply Keeps.ite)
    | simp only [Keeps.upd_iff]
    | split
    | dsimp only

theorem execLsbCycle_keeps {s0 : State} (s : State) (hk : Keeps s0 s) : KeepsO s0 (execLsbCycle s) := by
  unfold execLsbCycle
  repeat' first
    | (with_reducible first | exact hk | assumption | apply State.lsPoll_keeps | apply Keeps.ite | apply KeepsO.ite | apply KeepsO.next)
    | simp only [Keeps.upd_iff]
    | split
    | dsimp only

theorem State.lineFail_keeps {s0 : State} (s : State) (f : Fld) (line miss good : Nat) (hk : Keeps s0 s) : Keeps s0 (State.lineFail s f line miss good) := by
  unfold State.lineFail
  repeat' first
    | (with_reducible first | exact hk | assumption | apply State.p_keeps | apply State.notice_keeps | apply Keeps.ite)
    | split
    | dsimp only

theorem State.lsAnswer_keeps {s0 : State} (s : State) (line : SerialLine) (ok : Bool) (hk : Keeps s0 s) : Keeps s0 (State.lsAnswer s line ok) := by
  unfold State.lsAnswer
  repeat' first
    | (with_reducible first | exact hk | assumption | apply State.inc_keeps | apply State.lsPoll_keeps | apply State.lineFail_keeps | apply Keeps.ite)
    | simp only [Keeps.upd_iff]
    | split
    | dsimp only

theorem execLsbResponse_keeps {s0 : State} (line : SerialLine) (body : List Byte) (parityOk : Bool) (s : State) (hk : Keeps s0 s) : KeepsO s0 (execLsbResponse line body parityOk s) := by
  unfold execLsbResponse
  repeat' first
    | (with_reducible first | exact hk | assumption | apply State.take_keeps | apply State.setLs_keeps | apply State.lsAnswer_keeps | apply Keeps.ite | apply KeepsO.ite | apply KeepsO.next)
    | simp only [Keeps.upd_iff]
    | split
    | dsimp only

theorem execLsbResponseTimeout_keeps {s0 : State} (line : SerialLine) (s : State) (hk : Keeps s0 s) : KeepsO s0 (execLsbResponseTimeout line s) := by
  unfold execLsbResponseTimeout
  repeat' first
    | (with_reducible first | exact hk | assumption | apply State.lsAnswer_keeps | apply Keeps.ite | apply KeepsO.ite | apply KeepsO.next)
    | split
    | dsimp only

/-! ### UnitOps -/

theorem State.partnerHealth_keeps {s0 : State} (s : State) (h : Health) (hk : Keeps s0 s) : Keeps s0 (State.partnerHealth s h) := by
  unfold State.partnerHealth
  repeat' first
    | (with_reducible first | exact hk | assumption | apply State.p_keeps | apply State.pb_keeps | apply Keeps.ite)
    | simp only [Keeps.upd_iff]
    | split
    | dsimp only

theorem State.holdLight_keeps {s0 : State} (s : State) (r : Nat) (frame : List Byte) (hk : Keeps s0 s) : Keeps s0 (State.holdLight s r frame) := by
  unfold State.holdLight
  repeat' first
    | (with_reducible first | exact hk | assumption | apply Keeps.ite)
    | simp only [Keeps.upd_iff]
    | split
    | dsimp only

theorem State.flushLight_keeps {s0 : State} (s : State) (r : Nat) (hk : Keeps s0 s) : Keeps s0 (State.flushLight s r) := by
  unfold State.flushLight
  repeat' first
    | (with_reducible first | exact hk | assumption | apply State.emit_keeps | apply Keeps.ite)
    | simp only [Keeps.upd_iff]
    | split
    | dsimp only

theorem State.returnStandby_keeps {s0 : State} (s : State) (row : Nat) (hk : Keeps s0 s) : Keeps s0 (State.returnStandby s row) := by
  unfold State.returnStandby
  repeat' first
    | (with_reducible first | exact hk | assumption | apply State.p_keeps | apply State.setMode_keeps | apply Keeps.ite)
    | simp only [Keeps.upd_iff]
    | split
    | dsimp only

theorem State.holderHeard_keeps {s0 : State} (s : State) (src level : Nat) (hk : Keeps s0 s) : Keeps s0 (State.holderHeard s src level) := by
  unfold State.holderHeard
  repeat' first
    | (with_reducible first | exact hk | assumption | apply State.returnStandby_keeps | apply Keeps.ite)
    | simp only [Keeps.upd_iff]
    | split
    | dsimp only

theorem State.modWit_keeps {s0 : State} (s : State) (w : Nat) (f : WitSt → WitSt) (hk : Keeps s0 s) : Keeps s0 (State.modWit s w f) := by
  unfold State.modWit
  repeat' first
    | (with_reducible first | exact hk | assumption | apply Keeps.ite)
    | simp only [Keeps.upd_iff]
    | split
    | dsimp only

theorem State.witLight_keeps {s0 : State} (s : State) (w src partner lseq : Nat) (hk : Keeps s0 s) : Keeps s0 (State.witLight s w src partner lseq) := by
  unfold State.witLight
  repeat' first
    | (with_reducible first | exact hk | assumption | apply State.modWit_keeps | apply Keeps.ite)
    | simp only [Keeps.upd_iff]
    | split
    | dsimp only

theorem State.showVerdict_keeps {s0 : State} (s : State) (w v : Nat) (hk : Keeps s0 s) : Keeps s0 (State.showVerdict s w v) := by
  unfold State.showVerdict
  repeat' first
    | (with_reducible first | exact hk | assumption | apply State.p_keeps | apply State.pb_keeps | apply Keeps.ite)
    | split
    | dsimp only

theorem execWatchVerdict_keeps {s0 : State} (w : Fin 4) (s : State) (hk : Keeps s0 s) : KeepsO s0 (execWatchVerdict w s) := by
  unfold execWatchVerdict
  repeat' first
    | (with_reducible first | exact hk | assumption | apply State.inc_keeps | apply State.event_keeps | apply State.modWit_keeps | apply State.showVerdict_keeps | apply Keeps.ite | apply KeepsO.ite | apply KeepsO.next)
    | simp only [Keeps.upd_iff]
    | split
    | dsimp only

theorem State.watchIsolate_keeps {s0 : State} (s : State) (hk : Keeps s0 s) : Keeps s0 (State.watchIsolate s) := by
  unfold State.watchIsolate
  repeat' first
    | (with_reducible first | exact hk | assumption | apply State.notice_keeps | apply State.setMode_keeps | apply Keeps.ite)
    | simp only [Keeps.upd_iff]
    | split
    | dsimp only

theorem State.useWatch_keeps {s0 : State} (s : State) (r src : Nat) (rec : List Byte) (b : Nat) (hk : Keeps s0 s) : Keeps s0 (State.useWatch s r src rec b) := by
  unfold State.useWatch
  repeat' first
    | (with_reducible first | exact hk | assumption | apply State.p_keeps | apply State.pb_keeps | apply State.watchIsolate_keeps | apply Keeps.ite)
    | simp only [Keeps.upd_iff]
    | split
    | dsimp only

theorem State.takeWatch_keeps {s0 : State} (s : State) (r src : Nat) (rec : List Byte) (b last : Nat) (hk : Keeps s0 s) : Keeps s0 (State.takeWatch s r src rec b last) := by
  unfold State.takeWatch
  repeat' first
    | (with_reducible first | exact hk | assumption | apply State.notice_keeps | apply State.useWatch_keeps | apply Keeps.ite)
    | simp only [Keeps.upd_iff]
    | split
    | dsimp only

theorem State.unitReply_keeps {s0 : State} (s : State) (r src : Nat) (light watch : Bool) (flags : Nat) (body : List Byte) (b last : Nat) (hk : Keeps s0 s) : Keeps s0 (State.unitReply s r src light watch flags body b last) := by
  unfold State.unitReply
  repeat' first
    | (with_reducible first | exact hk | assumption | apply State.take_keeps | apply State.partnerHealth_keeps | apply State.holderHeard_keeps | apply State.modWit_keeps | apply State.witLight_keeps | apply State.takeWatch_keeps | apply Keeps.ite)
    | (with_reducible apply Keeps.foldl; intro _ _ _)
    | simp only [Keeps.upd_iff]
    | split
    | dsimp only

theorem State.unitBasicCycle_keeps {s0 : State} (s : State) (r : Nat) (hk : Keeps s0 s) : Keeps s0 (State.unitBasicCycle s r) := by
  unfold State.unitBasicCycle
  repeat' first
    | (with_reducible first | exact hk | assumption | apply State.p_keeps | apply State.pb_keeps | apply State.inc_keeps | apply State.cmdRecord_keeps | apply State.respond_keeps | apply State.originate_keeps | apply State.flushLight_keeps | apply State.modWit_keeps | apply Keeps.ite)
    | (with_reducible apply Keeps.foldl; intro _ _ _)
    | simp only [Keeps.upd_iff]
    | split
    | dsimp only

theorem State.unitMacro_keeps {s0 : State} (s : State) (r : Nat) (hk : Keeps s0 s) : Keeps s0 (State.unitMacro s r) := by
  unfold State.unitMacro
  repeat' first
    | (with_reducible first | exact hk | assumption | apply State.p_keeps | apply State.pb_keeps | apply Keeps.ite)
    | simp only [Keeps.upd_iff]
    | split
    | dsimp only

theorem execActTime_keeps {s0 : State} (s : State) (hk : Keeps s0 s) : KeepsO s0 (execActTime s) := by
  unfold execActTime
  repeat' first
    | (with_reducible first | exact hk | assumption | apply State.p_keeps | apply State.inc_keeps | apply State.event_keeps | apply State.ungate_keeps | apply State.setMode_keeps | apply Keeps.ite | apply KeepsO.ite | apply KeepsO.next)
    | simp only [Keeps.upd_iff]
    | split
    | dsimp only

theorem execWatchLoss_keeps {s0 : State} (s : State) (hk : Keeps s0 s) : KeepsO s0 (execWatchLoss s) := by
  unfold execWatchLoss
  repeat' first
    | (with_reducible first | exact hk | assumption | apply State.watchIsolate_keeps | apply Keeps.ite | apply KeepsO.ite | apply KeepsO.next)
    | split
    | dsimp only

theorem execPairLinkLost_keeps {s0 : State} (k : PairLink) (s : State) (hk : Keeps s0 s) : KeepsO s0 (execPairLinkLost k s) := by
  unfold execPairLinkLost
  repeat' first
    | (with_reducible first | exact hk | assumption | apply State.p_keeps | apply State.chanGates_keeps | apply Keeps.ite | apply KeepsO.ite | apply KeepsO.next)
    | split
    | dsimp only

theorem execPairLinkRegained_keeps {s0 : State} (k : PairLink) (s : State) (hk : Keeps s0 s) : KeepsO s0 (execPairLinkRegained k s) := by
  unfold execPairLinkRegained
  repeat' first
    | (with_reducible first | exact hk | assumption | apply State.p_keeps | apply State.chanGates_keeps | apply Keeps.ite | apply KeepsO.ite | apply KeepsO.next)
    | split
    | dsimp only

theorem execPairLinkHealthRecord_keeps {s0 : State} (k : PairLink) (body : List Byte) (s : State) (hk : Keeps s0 s) : KeepsO s0 (execPairLinkHealthRecord k body s) := by
  unfold execPairLinkHealthRecord
  repeat' first
    | (with_reducible first | exact hk | assumption | apply State.partnerHealth_keeps | apply Keeps.ite | apply KeepsO.ite | apply KeepsO.next)
    | split
    | dsimp only

end Sys2Proof.Machine
end

