-- ==== Sys2Proof/Laws/Keep6.lean ====
section
/-! SUPPORT. What every operation keeps of a state (`Keeps`): those of Machine/Ring.lean, RegAccess.lean. -/

set_option linter.all false

namespace Sys2Proof.Machine
open Sys2Proof.Safety

/-! ### Ring -/

theorem State.sendMark_keeps {s0 : State} (s : State) (r c : Nat) (standin : Bool) (hk : Keeps s0 s) : Keeps s0 (State.sendMark s r c standin) := by
  unfold State.sendMark
  repeat' first
    | (with_reducible first | exact hk | assumption | apply State.modRing_keeps | apply State.modCyc_keeps | apply State.sendRing_keeps | apply State.sendPos_keeps | apply Keeps.ite)
    | simp only [Keeps.upd_iff]
    | split
    | dsimp only

theorem State.ringSilent_keeps {s0 : State} (s : State) (r phase : Nat) (hk : Keeps s0 s) : Keeps s0 (State.ringSilent s r phase) := by
  unfold State.ringSilent
  repeat' first
    | (with_reducible first | exact hk | assumption | apply State.p_keeps | apply State.modRing_keeps | apply Keeps.ite)
    | simp only [Keeps.upd_iff]
    | split
    | dsimp only

theorem State.afterLoss_keeps {s0 : State} (s before : State) (hk : Keeps s0 s) : Keeps s0 (State.afterLoss s before) := by
  unfold State.afterLoss
  repeat' first
    | (with_reducible first | exact hk | assumption | apply State.syncStep_keeps | apply Keeps.ite)
    | split
    | dsimp only

theorem State.coldCollide_keeps {s0 : State} (s : State) (r : Nat) (hk : Keeps s0 s) : Keeps s0 (State.coldCollide s r) := by
  unfold State.coldCollide
  repeat' first
    | (with_reducible first | exact hk | assumption | apply State.inc_keeps | apply State.notice_keeps | apply State.modRing_keeps | apply State.ringSilent_keeps | apply Keeps.ite)
    | simp only [Keeps.upd_iff]
    | split
    | dsimp only

theorem State.applyClosure_keeps {s0 : State} (s : State) (r d : Nat) (hk : Keeps s0 s) : Keeps s0 (State.applyClosure s r d) := by
  unfold State.applyClosure
  repeat' first
    | (with_reducible first | exact hk | assumption | apply State.p_keeps | apply Keeps.ite)
    | split
    | dsimp only

theorem State.coldJudge_keeps {s0 : State} (s : State) (r : Nat) (hk : Keeps s0 s) : Keeps s0 (State.coldJudge s r) := by
  unfold State.coldJudge
  repeat' first
    | (with_reducible first | exact hk | assumption | apply State.p_keeps | apply State.modRing_keeps | apply State.coldCollide_keeps | apply Keeps.ite)
    | simp only [Keeps.upd_iff]
    | split
    | dsimp only

theorem State.guardianViolation_keeps {s0 : State} (s : State) (r : Nat) (hk : Keeps s0 s) : Keeps s0 (State.guardianViolation s r) := by
  unfold State.guardianViolation
  repeat' first
    | (with_reducible first | exact hk | assumption | apply State.p_keeps | apply State.inc_keeps | apply State.notice_keeps | apply State.modRing_keeps | apply State.ringOff_keeps | apply State.report_keeps | apply State.ringSilent_keeps | apply Keeps.ite)
    | simp only [Keeps.upd_iff]
    | split
    | dsimp only

theorem State.judgeMarks_keeps {s0 : State} (s : State) (r : Nat) (hk : Keeps s0 s) : Keeps s0 (State.judgeMarks s r) := by
  unfold State.judgeMarks
  repeat' first
    | (with_reducible first | exact hk | assumption | apply State.p_keeps | apply State.inc_keeps | apply State.modRing_keeps | apply Keeps.ite)
    | simp only [Keeps.upd_iff]
    | split
    | dsimp only

theorem State.judgeReplies_keeps {s0 : State} (s : State) (r : Nat) (hk : Keeps s0 s) : Keeps s0 (State.judgeReplies s r) := by
  unfold State.judgeReplies
  repeat' first
    | (with_reducible first | exact hk | assumption | apply State.p_keeps | apply State.modRing_keeps | apply Keeps.ite)
    | simp only [Keeps.upd_iff]
    | split
    | dsimp only

theorem State.closeCycle_keeps {s0 : State} (s : State) (r : Nat) (x : RingSt) (hk : Keeps s0 s) : Keeps s0 (State.closeCycle s r x) := by
  unfold State.closeCycle
  repeat' first
    | (with_reducible first | exact hk | assumption | apply State.p_keeps | apply State.applyClosure_keeps | apply Keeps.ite)
    | split
    | dsimp only

theorem State.snapReply_keeps {s0 : State} (s : State) (r : Nat) (hk : Keeps s0 s) : Keeps s0 (State.snapReply s r) := by
  unfold State.snapReply
  repeat' first
    | (with_reducible first | exact hk | assumption | apply State.modRing_keeps | apply State.take_keeps | apply Keeps.ite)
    | simp only [Keeps.upd_iff]
    | split
    | dsimp only

theorem State.settleNet_keeps {s0 : State} (s : State) (r n : Nat) (hk : Keeps s0 s) : Keeps s0 (State.settleNet s r n) := by
  unfold State.settleNet
  repeat' first
    | (with_reducible first | exact hk | assumption | apply State.p_keeps | apply State.applyPart_keeps | apply Keeps.ite)
    | (with_reducible apply Keeps.foldl; intro _ _ _)
    | simp only [Keeps.upd_iff]
    | split
    | dsimp only

theorem State.startMark_keeps {s0 : State} (s : State) (r : Nat) (hk : Keeps s0 s) : Keeps s0 (State.startMark s r) := by
  unfold State.startMark
  repeat' first
    | (with_reducible first | exact hk | assumption | apply State.p_keeps | apply State.inc_keeps | apply State.modRing_keeps | apply State.sendMark_keeps | apply State.guardianViolation_keeps | apply Keeps.ite)
    | simp only [Keeps.upd_iff]
    | split
    | dsimp only

theorem execBasicCycleStart_keeps {s0 : State} (r : Ring) (s : State) (hk : Keeps s0 s) : KeepsO s0 (execBasicCycleStart r s) := by
  unfold execBasicCycleStart
  repeat' first
    | (with_reducible first | exact hk | assumption | apply State.p_keeps | apply State.pb_keeps | apply State.notice_keeps | apply State.modRing_keeps | apply State.showDelay_keeps | apply State.unitBasicCycle_keeps | apply State.coldJudge_keeps | apply State.judgeMarks_keeps | apply State.judgeReplies_keeps | apply State.closeCycle_keeps | apply State.snapReply_keeps | apply State.settleNet_keeps | apply State.startMark_keeps | apply Keeps.ite | apply KeepsO.ite | apply KeepsO.next)
    | simp only [Keeps.upd_iff]
    | split
    | dsimp only

theorem execStandInMark_keeps {s0 : State} (r : Ring) (s : State) (hk : Keeps s0 s) : KeepsO s0 (execStandInMark r s) := by
  unfold execStandInMark
  repeat' first
    | (with_reducible first | exact hk | assumption | apply State.p_keeps | apply State.inc_keeps | apply State.showDelay_keeps | apply State.sendMark_keeps | apply State.afterLoss_keeps | apply State.guardianViolation_keeps | apply Keeps.ite | apply KeepsO.ite | apply KeepsO.next)
    | simp only [Keeps.upd_iff]
    | split
    | dsimp only

theorem State.alignTo_keeps {s0 : State} (s : State) (r : Nat) (f : RFrame) (t : Nat) (hk : Keeps s0 s) : Keeps s0 (State.alignTo s r f t) := by
  unfold State.alignTo
  repeat' first
    | (with_reducible first | exact hk | assumption | apply State.p_keeps | apply State.askStep_keeps | apply Keeps.ite)
    | split
    | dsimp only

theorem State.loadMark_keeps {s0 : State} (s : State) (r : Nat) (f : RFrame) (stamp : Nat) (hk : Keeps s0 s) : Keeps s0 (State.loadMark s r f stamp) := by
  unfold State.loadMark
  repeat' first
    | (with_reducible first | exact hk | assumption | apply State.p_keeps | apply State.pb_keeps | apply State.inc_keeps | apply State.captureSrc_keeps | apply State.modRing_keeps | apply Keeps.ite)
    | simp only [Keeps.upd_iff]
    | split
    | dsimp only

theorem State.takeDelay_keeps {s0 : State} (s : State) (r d : Nat) (alone : Bool) (hk : Keeps s0 s) : Keeps s0 (State.takeDelay s r d alone) := by
  unfold State.takeDelay
  repeat' first
    | (with_reducible first | exact hk | assumption | apply State.p_keeps | apply State.modRing_keeps | apply State.showDelay_keeps | apply Keeps.ite)
    | simp only [Keeps.upd_iff]
    | split
    | dsimp only

theorem State.enterCounting_keeps {s0 : State} (s : State) (r : Nat) (f : RFrame) (t stamp : Nat) (hk : Keeps s0 s) : Keeps s0 (State.enterCounting s r f t stamp) := by
  unfold State.enterCounting
  repeat' first
    | (with_reducible first | exact hk | assumption | apply State.p_keeps | apply State.modRing_keeps | apply State.alignTo_keeps | apply State.loadMark_keeps | apply State.takeDelay_keeps | apply Keeps.ite)
    | simp only [Keeps.upd_iff]
    | split
    | dsimp only

theorem State.ownMarkBack_keeps {s0 : State} (s : State) (r : Nat) (f : RFrame) (t stamp : Nat) (hk : Keeps s0 s) : Keeps s0 (State.ownMarkBack s r f t stamp) := by
  unfold State.ownMarkBack
  repeat' first
    | (with_reducible first | exact hk | assumption | apply State.p_keeps | apply State.modRing_keeps | apply State.modCyc_keeps | apply State.showDelay_keeps | apply State.ringOff_keeps | apply State.report_keeps | apply State.afterLoss_keeps | apply State.applyClosure_keeps | apply State.loadMark_keeps | apply Keeps.ite)
    | simp only [Keeps.upd_iff]
    | split
    | dsimp only

theorem State.coldMeets_keeps {s0 : State} (s : State) (r : Nat) (f : Option RFrame) (t stamp : Nat) (hk : Keeps s0 s) : Keeps s0 (State.coldMeets s r f t stamp) := by
  unfold State.coldMeets
  repeat' first
    | (with_reducible first | exact hk | assumption | apply State.inc_keeps | apply State.modRing_keeps | apply State.ringSilent_keeps | apply State.coldCollide_keeps | apply State.enterCounting_keeps | apply Keeps.ite)
    | simp only [Keeps.upd_iff]
    | split
    | dsimp only

theorem State.countMark_keeps {s0 : State} (s : State) (r : Nat) (f : RFrame) (t last : Nat) (hk : Keeps s0 s) : Keeps s0 (State.countMark s r f t last) := by
  unfold State.countMark
  repeat' first
    | (with_reducible first | exact hk | assumption | apply State.p_keeps | apply State.modRing_keeps | apply State.alignTo_keeps | apply Keeps.ite)
    | simp only [Keeps.upd_iff]
    | split
    | dsimp only

theorem State.otherMark_keeps {s0 : State} (s : State) (r : Nat) (f : RFrame) (a : RingArr) (hk : Keeps s0 s) : Keeps s0 (State.otherMark s r f a) := by
  unfold State.otherMark
  repeat' first
    | (with_reducible first | exact hk | assumption | apply State.p_keeps | apply State.modCyc_keeps | apply State.showDelay_keeps | apply State.refuse_keeps | apply State.loadMark_keeps | apply State.takeDelay_keeps | apply State.countMark_keeps | apply Keeps.ite)
    | simp only [Keeps.upd_iff]
    | split
    | dsimp only

theorem State.firstMark_keeps {s0 : State} (s : State) (r : Nat) (f : RFrame) (a : RingArr) (hk : Keeps s0 s) : Keeps s0 (State.firstMark s r f a) := by
  unfold State.firstMark
  repeat' first
    | (with_reducible first | exact hk | assumption | apply State.refuse_keeps | apply State.enterCounting_keeps | apply Keeps.ite)
    | split
    | dsimp only

theorem execMarkReceive_keeps {s0 : State} (r : Ring) (port : RPort) (frame : List Byte) (stamp : Nat) (s : State) (hk : Keeps s0 s) : KeepsO s0 (execMarkReceive r port frame stamp s) := by
  unfold execMarkReceive
  repeat' first
    | (with_reducible first | exact hk | assumption | apply State.modCyc_keeps | apply State.rejectFrame_keeps | apply State.passFrame_keeps | apply State.coldCollide_keeps | apply State.ownMarkBack_keeps | apply State.coldMeets_keeps | apply State.otherMark_keeps | apply State.firstMark_keeps | apply Keeps.ite | apply KeepsO.ite | apply KeepsO.next)
    | simp only [Keeps.upd_iff]
    | split
    | dsimp only

theorem State.keepReply_keeps {s0 : State} (s : State) (r n b : Nat) (body : List Byte) (hk : Keeps s0 s) : Keeps s0 (State.keepReply s r n b body) := by
  unfold State.keepReply
  repeat' first
    | (with_reducible first | exact hk | assumption | apply State.modRing_keeps | apply Keeps.ite)
    | simp only [Keeps.upd_iff]
    | split
    | dsimp only

theorem State.takeRec_keeps {s0 : State} (s : State) (r : Nat) (y : Bool × Nat × Nat × List Byte) (hk : Keeps s0 s) : Keeps s0 (State.takeRec s r y) := by
  unfold State.takeRec
  repeat' first
    | (with_reducible first | exact hk | assumption | apply State.modRing_keeps | apply State.lateAt_keeps | apply Keeps.ite)
    | simp only [Keeps.upd_iff]
    | split
    | dsimp only

theorem State.takeRecs_keeps {s0 : State} (s : State) (r : Nat) (ys : List (Bool × Nat × Nat × List Byte)) (hk : Keeps s0 s) : Keeps s0 (State.takeRecs s r ys) := by
  unfold State.takeRecs
  repeat' first
    | (with_reducible first | exact hk | assumption | apply State.takeRec_keeps | apply Keeps.ite)
    | (with_reducible apply Keeps.foldl; intro _ _ _)
    | split
    | dsimp only

theorem State.coldFrame_keeps {s0 : State} (s : State) (r : Nat) (a : RingArr) (hk : Keeps s0 s) : Keeps s0 (State.coldFrame s r a) := by
  unfold State.coldFrame
  repeat' first
    | (with_reducible first | exact hk | assumption | apply State.rejectFrame_keeps | apply State.coldCollide_keeps | apply Keeps.ite)
    | split
    | dsimp only

theorem execPollReceive_keeps {s0 : State} (r : Ring) (port : RPort) (frame : List Byte) (stamp : Nat) (s : State) (hk : Keeps s0 s) : KeepsO s0 (execPollReceive r port frame stamp s) := by
  unfold execPollReceive
  repeat' first
    | (with_reducible first | exact hk | assumption | apply State.inc_keeps | apply State.modRing_keeps | apply State.refuse_keeps | apply State.passFrame_keeps | apply State.takeRecs_keeps | apply State.coldFrame_keeps | apply Keeps.ite | apply KeepsO.ite | apply KeepsO.next)
    | simp only [Keeps.upd_iff]
    | split
    | dsimp only

theorem State.takeDev_keeps {s0 : State} (s : State) (r node c : Nat) (d : Int) (hk : Keeps s0 s) : Keeps s0 (State.takeDev s r node c d) := by
  unfold State.takeDev
  repeat' first
    | (with_reducible first | exact hk | assumption | apply State.inc_keeps | apply State.modRing_keeps | apply State.exclSync_keeps | apply Keeps.ite)
    | simp only [Keeps.upd_iff]
    | split
    | dsimp only

theorem State.lateReply_keeps {s0 : State} (s : State) (r n b : Nat) (hk : Keeps s0 s) : Keeps s0 (State.lateReply s r n b) := by
  unfold State.lateReply
  repeat' first
    | (with_reducible first | exact hk | assumption | apply State.inc_keeps | apply Keeps.ite)
    | split
    | dsimp only

theorem State.takeReply_keeps {s0 : State} (s : State) (r : Nat) (f : RFrame) (c b : Nat) (x : SchedEnt) (a : RingArr) (hk : Keeps s0 s) : Keeps s0 (State.takeReply s r f c b x a) := by
  unfold State.takeReply
  repeat' first
    | (with_reducible first | exact hk | assumption | apply State.inc_keeps | apply State.captureSrc_keeps | apply State.modRing_keeps | apply State.unitReply_keeps | apply State.keepReply_keeps | apply State.takeDev_keeps | apply State.lateReply_keeps | apply Keeps.ite)
    | simp only [Keeps.upd_iff]
    | split
    | dsimp only

theorem execReplyReceive_keeps {s0 : State} (r : Ring) (port : RPort) (frame : List Byte) (stamp : Nat) (s : State) (hk : Keeps s0 s) : KeepsO s0 (execReplyReceive r port frame stamp s) := by
  unfold execReplyReceive
  repeat' first
    | (with_reducible first | exact hk | assumption | apply State.refuse_keeps | apply State.passFrame_keeps | apply State.coldFrame_keeps | apply State.takeReply_keeps | apply Keeps.ite | apply KeepsO.ite | apply KeepsO.next)
    | split
    | dsimp only

theorem State.takeRef_keeps {s0 : State} (s : State) (r : Nat) (f : RFrame) (c : Nat) (a : RingArr) (hk : Keeps s0 s) : Keeps s0 (State.takeRef s r f c a) := by
  unfold State.takeRef
  repeat' first
    | (with_reducible first | exact hk | assumption | apply State.modRing_keeps | apply Keeps.ite)
    | simp only [Keeps.upd_iff]
    | split
    | dsimp only

theorem execReferenceMessageReceive_keeps {s0 : State} (r : Ring) (port : RPort) (frame : List Byte) (stamp : Nat) (s : State) (hk : Keeps s0 s) : KeepsO s0 (execReferenceMessageReceive r port frame stamp s) := by
  unfold execReferenceMessageReceive
  repeat' first
    | (with_reducible first | exact hk | assumption | apply State.inc_keeps | apply State.refuse_keeps | apply State.passFrame_keeps | apply State.coldFrame_keeps | apply State.takeRef_keeps | apply Keeps.ite | apply KeepsO.ite | apply KeepsO.next)
    | split
    | dsimp only

theorem State.sendPoll_keeps {s0 : State} (s : State) (r c : Nat) (x : SchedEnt) (hk : Keeps s0 s) : Keeps s0 (State.sendPoll s r c x) := by
  unfold State.sendPoll
  repeat' first
    | (with_reducible first | exact hk | assumption | apply State.p_keeps | apply State.sendRing_keeps | apply State.settleNet_keeps | apply Keeps.ite)
    | simp only [Keeps.upd_iff]
    | split
    | dsimp only

theorem State.sendReply_keeps {s0 : State} (s : State) (r c : Nat) (x : SchedEnt) (hk : Keeps s0 s) : Keeps s0 (State.sendReply s r c x) := by
  unfold State.sendReply
  repeat' first
    | (with_reducible first | exact hk | assumption | apply State.pb_keeps | apply State.sendRing_keeps | apply State.holdLight_keeps | apply Keeps.ite)
    | split
    | dsimp only

theorem execSlotTransmit_keeps {s0 : State} (r : Ring) (e : Fin 4096) (dev : Int) (s : State) (hk : Keeps s0 s) : KeepsO s0 (execSlotTransmit r e dev s) := by
  unfold execSlotTransmit
  repeat' first
    | (with_reducible first | exact hk | assumption | apply State.modRing_keeps | apply State.sendRing_keeps | apply State.afterLoss_keeps | apply State.guardianViolation_keeps | apply State.sendPoll_keeps | apply State.sendReply_keeps | apply Keeps.ite | apply KeepsO.ite | apply KeepsO.next)
    | simp only [Keeps.upd_iff]
    | split
    | dsimp only

theorem execDelayProbe_keeps {s0 : State} (r : Ring) (port : RPort) (result : Option Nat) (s : State) (hk : Keeps s0 s) : KeepsO s0 (execDelayProbe r port result s) := by
  unfold execDelayProbe
  repeat' first
    | (with_reducible first | exact hk | assumption | apply State.p_keeps | apply Keeps.ite | apply KeepsO.ite | apply KeepsO.next)
    | split
    | dsimp only

theorem State.takePos_keeps {s0 : State} (s : State) (r : Nat) (word : Option Nat) (hk : Keeps s0 s) : Keeps s0 (State.takePos s r word) := by
  unfold State.takePos
  repeat' first
    | (with_reducible first | exact hk | assumption | apply State.p_keeps | apply State.pb_keeps | apply State.showDelay_keeps | apply State.sendPos_keeps | apply Keeps.ite)
    | split
    | dsimp only

theorem execPositionWordReceive_keeps {s0 : State} (r : Ring) (port : RPort) (word : Option Nat) (s : State) (hk : Keeps s0 s) : KeepsO s0 (execPositionWordReceive r port word s) := by
  unfold execPositionWordReceive
  repeat' first
    | (with_reducible first | exact hk | assumption | apply State.modRing_keeps | apply State.sendPos_keeps | apply State.takePos_keeps | apply Keeps.ite | apply KeepsO.ite | apply KeepsO.next)
    | simp only [Keeps.upd_iff]
    | split
    | dsimp only

theorem State.showMeasure_keeps {s0 : State} (s : State) (r : Nat) (hk : Keeps s0 s) : Keeps s0 (State.showMeasure s r) := by
  unfold State.showMeasure
  repeat' first
    | (with_reducible first | exact hk | assumption | apply State.p_keeps | apply State.modRing_keeps | apply Keeps.ite)
    | (with_reducible apply Keeps.foldl; intro _ _ _)
    | simp only [Keeps.upd_iff]
    | split
    | dsimp only

theorem State.joinRing_keeps {s0 : State} (s : State) (r : Nat) (hk : Keeps s0 s) : Keeps s0 (State.joinRing s r) := by
  unfold State.joinRing
  repeat' first
    | (with_reducible first | exact hk | assumption | apply State.p_keeps | apply State.modRing_keeps | apply Keeps.ite)
    | simp only [Keeps.upd_iff]
    | split
    | dsimp only

theorem State.chooseRef_keeps {s0 : State} (s : State) (r : Nat) (hk : Keeps s0 s) : Keeps s0 (State.chooseRef s r) := by
  unfold State.chooseRef
  repeat' first
    | (with_reducible first | exact hk | assumption | apply State.p_keeps | apply Keeps.ite)
    | split
    | dsimp only

theorem State.meanDelay_keeps {s0 : State} (s : State) (r : Nat) (hk : Keeps s0 s) : Keeps s0 (State.meanDelay s r) := by
  unfold State.meanDelay
  repeat' first
    | (with_reducible first | exact hk | assumption | apply State.p_keeps | apply State.modRing_keeps | apply State.showDelay_keeps | apply Keeps.ite)
    | simp only [Keeps.upd_iff]
    | split
    | dsimp only

theorem State.foldNotice_keeps {s0 : State} (s : State) (r : Nat) (hk : Keeps s0 s) : Keeps s0 (State.foldNotice s r) := by
  unfold State.foldNotice
  repeat' first
    | (with_reducible first | exact hk | assumption | apply State.p_keeps | apply State.modRing_keeps | apply State.modCyc_keeps | apply Keeps.ite)
    | simp only [Keeps.upd_iff]
    | split
    | dsimp only

theorem State.sendNotice_keeps {s0 : State} (s : State) (r kind : Nat) (hk : Keeps s0 s) : Keeps s0 (State.sendNotice s r kind) := by
  unfold State.sendNotice
  repeat' first
    | (with_reducible first | exact hk | assumption | apply State.emit_keeps | apply Keeps.ite)
    | split
    | dsimp only

theorem State.unfold_keeps {s0 : State} (s : State) (r : Nat) (hk : Keeps s0 s) : Keeps s0 (State.unfold s r) := by
  unfold State.unfold
  repeat' first
    | (with_reducible first | exact hk | assumption | apply State.p_keeps | apply State.inc_keeps | apply State.modRing_keeps | apply State.foldNotice_keeps | apply State.sendNotice_keeps | apply Keeps.ite)
    | simp only [Keeps.upd_iff]
    | split
    | dsimp only

theorem execMacrocycleBoundary_keeps {s0 : State} (r : Ring) (s : State) (hk : Keeps s0 s) : KeepsO s0 (execMacrocycleBoundary r s) := by
  unfold execMacrocycleBoundary
  repeat' first
    | (with_reducible first | exact hk | assumption | apply State.p_keeps | apply State.pb_keeps | apply State.modRing_keeps | apply State.unitMacro_keeps | apply State.afterLoss_keeps | apply State.showMeasure_keeps | apply State.joinRing_keeps | apply State.chooseRef_keeps | apply State.meanDelay_keeps | apply State.unfold_keeps | apply Keeps.ite | apply KeepsO.ite | apply KeepsO.next)
    | (with_reducible apply Keeps.foldl; intro _ _ _)
    | simp only [Keeps.upd_iff]
    | split
    | dsimp only

theorem State.loadRingCfg_keeps {s0 : State} (s : State) (r : Nat) (hk : Keeps s0 s) : Keeps s0 (State.loadRingCfg s r) := by
  unfold State.loadRingCfg
  repeat' first
    | (with_reducible first | exact hk | assumption | apply State.p_keeps | apply Keeps.ite)
    | (with_reducible apply Keeps.foldl; intro _ _ _)
    | simp only [Keeps.upd_iff]
    | simp only [Keeps.regs_iff]
    | (with_reducible apply Keeps.setRegs <;> [skip; exact fun hw => by simp [hw, Regs.wf_wr, Regs.wf_p, tabWf_filter]])
    | split
    | dsimp only

theorem State.foldAt_keeps {s0 : State} (s : State) (r : Nat) (port : RPort) (hk : Keeps s0 s) : Keeps s0 (State.foldAt s r port) := by
  unfold State.foldAt
  repeat' first
    | (with_reducible first | exact hk | assumption | apply State.p_keeps | apply State.inc_keeps | apply State.foldNotice_keeps | apply State.sendNotice_keeps | apply Keeps.ite)
    | split
    | dsimp only

theorem State.enableRing_keeps {s0 : State} (s : State) (r : Nat) (hk : Keeps s0 s) : Keeps s0 (State.enableRing s r) := by
  unfold State.enableRing
  repeat' first
    | (with_reducible first | exact hk | assumption | apply State.p_keeps | apply State.notice_keeps | apply State.modRing_keeps | apply State.foldAt_keeps | apply Keeps.ite)
    | split
    | dsimp only

theorem execRingEnable_keeps {s0 : State} (r : Ring) (s : State) (hk : Keeps s0 s) : KeepsO s0 (execRingEnable r s) := by
  unfold execRingEnable
  repeat' first
    | (with_reducible first | exact hk | assumption | apply State.loadRingCfg_keeps | apply State.enableRing_keeps | apply Keeps.ite | apply KeepsO.ite | apply KeepsO.next)
    | split
    | dsimp only

theorem execRingDisable_keeps {s0 : State} (r : Ring) (s : State) (hk : Keeps s0 s) : KeepsO s0 (execRingDisable r s) := by
  unfold execRingDisable
  repeat' first
    | (with_reducible first | exact hk | assumption | apply State.disableRing_keeps | apply State.afterLoss_keeps | apply Keeps.ite | apply KeepsO.ite | apply KeepsO.next)
    | split
    | dsimp only

theorem execListenSilenceExpiry_keeps {s0 : State} (r : Ring) (s : State) (hk : Keeps s0 s) : KeepsO s0 (execListenSilenceExpiry r s) := by
  unfold execListenSilenceExpiry
  repeat' first
    | (with_reducible first | exact hk | assumption | apply State.p_keeps | apply State.modRing_keeps | apply State.askStep_keeps | apply Keeps.ite | apply KeepsO.ite | apply KeepsO.next)
    | simp only [Keeps.upd_iff]
    | split
    | dsimp only

theorem State.violHour_keeps {s0 : State} (s : State) (r : Nat) (hk : Keeps s0 s) : Keeps s0 (State.violHour s r) := by
  unfold State.violHour
  repeat' first
    | (with_reducible first | exact hk | assumption | apply State.p_keeps | apply Keeps.ite)
    | split
    | dsimp only

theorem execMarksLost_keeps {s0 : State} (r : Ring) (s : State) (hk : Keeps s0 s) : KeepsO s0 (execMarksLost r s) := by
  unfold execMarksLost
  repeat' first
    | (with_reducible first | exact hk | assumption | apply State.inc_keeps | apply State.notice_keeps | apply State.modRing_keeps | apply State.ringSilent_keeps | apply State.afterLoss_keeps | apply Keeps.ite | apply KeepsO.ite | apply KeepsO.next)
    | simp only [Keeps.upd_iff]
    | split
    | dsimp only

theorem execRingBreak_keeps {s0 : State} (r : Ring) (port : RPort) (s : State) (hk : Keeps s0 s) : KeepsO s0 (execRingBreak r port s) := by
  unfold execRingBreak
  repeat' first
    | (with_reducible first | exact hk | assumption | apply State.p_keeps | apply State.pb_keeps | apply State.modRing_keeps | apply State.foldAt_keeps | apply Keeps.ite | apply KeepsO.ite | apply KeepsO.next)
    | simp only [Keeps.upd_iff]
    | split
    | dsimp only

theorem execFoldNoticeReceive_keeps {s0 : State} (r : Ring) (port : RPort) (unfold : Bool) (s : State) (hk : Keeps s0 s) : KeepsO s0 (execFoldNoticeReceive r port unfold s) := by
  unfold execFoldNoticeReceive
  repeat' first
    | (with_reducible first | exact hk | assumption | apply State.emit_keeps | apply State.foldNotice_keeps | apply State.unfold_keeps | apply Keeps.ite | apply KeepsO.ite | apply KeepsO.next)
    | split
    | dsimp only

theorem execUnfoldReady_keeps {s0 : State} (r : Ring) (port : RPort) (s : State) (hk : Keeps s0 s) : KeepsO s0 (execUnfoldReady r port s) := by
  unfold execUnfoldReady
  repeat' first
    | (with_reducible first | exact hk | assumption | apply State.p_keeps | apply State.emit_keeps | apply State.modRing_keeps | apply Keeps.ite | apply KeepsO.ite | apply KeepsO.next)
    | simp only [Keeps.upd_iff]
    | split
    | dsimp only

/-! ### RegAccess -/

theorem State.illegalWrite_keeps {s0 : State} (s : State) (a : Nat) (hk : Keeps s0 s) : Keeps s0 (State.illegalWrite s a) := by
  unfold State.illegalWrite
  repeat' first
    | (with_reducible first | exact hk | assumption | apply State.notice_keeps | apply Keeps.ite)
    | split
    | dsimp only

theorem State.plainWrite_keeps {s0 : State} (s : State) (a : Nat) (v : Word) (fs : List RegFld) (hk : Keeps s0 s) : Keeps s0 (State.plainWrite s a v fs).1 := by
  unfold State.plainWrite
  repeat' first
    | (with_reducible first | exact hk | assumption | apply State.notice_keeps | apply State.illegalWrite_keeps | apply Keeps.ite)
    | simp only [Keeps.upd_iff]
    | simp only [Keeps.regs_iff]
    | (with_reducible apply Keeps.setRegs <;> [skip; exact fun hw => by simp [hw, Regs.wf_wr, Regs.wf_p, tabWf_filter]])
    | split
    | dsimp only

end Sys2Proof.Machine
end

