-- ==== Sys2Proof/Laws/Keep7.lean ====
section
/-! SUPPORT. What every operation keeps of a state (`Keeps`): those of Machine/Pairs.lean, SafeChan.lean, Ethernet.lean, Image.lean, Vote.lean. -/

set_option linter.all false

namespace Sys2Proof.Machine
open Sys2Proof.Safety

/-! ### Pairs -/

theorem State.arming_keeps {s0 : State} (s : State) (l p : Nat) (on : Bool) (hk : Keeps s0 s) : Keeps s0 (State.arming s l p on) := by
  unfold State.arming
  repeat' first
    | (with_reducible first | exact hk | assumption | apply State.p_keeps | apply Keeps.ite)
    | split
    | dsimp only

theorem State.laneNotice_keeps {s0 : State} (s : State) (l code elem : Nat) (st : Word) (hk : Keeps s0 s) : Keeps s0 (State.laneNotice s l code elem st) := by
  unfold State.laneNotice
  repeat' first
    | (with_reducible first | exact hk | assumption | apply State.notice_keeps | apply Keeps.ite)
    | split
    | dsimp only

theorem State.setDiag_keeps {s0 : State} (s : State) (l p kind group b : Nat) (hk : Keeps s0 s) : Keeps s0 (State.setDiag s l p kind group b) := by
  unfold State.setDiag
  repeat' first
    | (with_reducible first | exact hk | assumption | apply State.p_keeps | apply Keeps.ite)
    | split
    | dsimp only

theorem State.pairDiag_keeps {s0 : State} (s : State) (l p kind group b : Nat) (hk : Keeps s0 s) : Keeps s0 (State.pairDiag s l p kind group b) := by
  unfold State.pairDiag
  repeat' first
    | (with_reducible first | exact hk | assumption | apply State.p_keeps | apply State.setDiag_keeps | apply Keeps.ite)
    | (with_reducible apply Keeps.modLane <;> [skip; exact fun _ hw => hw])
    | simp only [Keeps.upd_iff]
    | split
    | dsimp only

theorem State.pairFault_keeps {s0 : State} (s : State) (l p kind group b : Nat) (hk : Keeps s0 s) : Keeps s0 (State.pairFault s l p kind group b) := by
  unfold State.pairFault
  repeat' first
    | (with_reducible first | exact hk | assumption | apply State.p_keeps | apply State.take_keeps | apply State.pairDiag_keeps | apply Keeps.ite)
    | (with_reducible apply Keeps.modLane <;> [skip; exact fun _ hw => hw])
    | simp only [Keeps.upd_iff]
    | split
    | dsimp only

theorem State.sameClock_keeps {s0 : State} (s : State) (l p kind group b : Nat) (hk : Keeps s0 s) : Keeps s0 (State.sameClock s l p kind group b) := by
  unfold State.sameClock
  repeat' first
    | (with_reducible first | exact hk | assumption | apply State.p_keeps | apply Keeps.ite)
    | simp only [Keeps.upd_iff]
    | split
    | dsimp only

theorem State.pairEvent_keeps {s0 : State} (s : State) (l p kind group b : Nat) (armed : Bool) (hk : Keeps s0 s) : Keeps s0 (State.pairEvent s l p kind group b armed) := by
  unfold State.pairEvent
  repeat' first
    | (with_reducible first | exact hk | assumption | apply State.p_keeps | apply State.pairFault_keeps | apply State.sameClock_keeps | apply Keeps.ite)
    | split
    | dsimp only

theorem execComparatorMismatch_keeps {s0 : State} (l : Lane) (p : Pair) (group : Fin 4) (b : Fin 256) (s : State) (hk : Keeps s0 s) : KeepsO s0 (execComparatorMismatch l p group b s) := by
  unfold execComparatorMismatch
  repeat' first
    | (with_reducible first | exact hk | assumption | apply State.p_keeps | apply State.pairEvent_keeps | apply Keeps.ite | apply KeepsO.ite | apply KeepsO.next)
    | split
    | dsimp only

theorem execRailMismatch_keeps {s0 : State} (l : Lane) (p : Pair) (s : State) (hk : Keeps s0 s) : KeepsO s0 (execRailMismatch l p s) := by
  unfold execRailMismatch
  repeat' first
    | (with_reducible first | exact hk | assumption | apply State.p_keeps | apply State.pairEvent_keeps | apply Keeps.ite | apply KeepsO.ite | apply KeepsO.next)
    | split
    | dsimp only

theorem execDelayParityError_keeps {s0 : State} (l : Lane) (p : Pair) (fromOutputs : Bool) (group : Fin 4) (b : Fin 256) (s : State) (hk : Keeps s0 s) : KeepsO s0 (execDelayParityError l p fromOutputs group b s) := by
  unfold execDelayParityError
  repeat' first
    | (with_reducible first | exact hk | assumption | apply State.p_keeps | apply State.pairEvent_keeps | apply Keeps.ite | apply KeepsO.ite | apply KeepsO.next)
    | split
    | dsimp only

theorem State.pxForce_keeps {s0 : State} (s : State) (l : Nat) (v : Word) (hk : Keeps s0 s) : Keeps s0 (State.pxForce s l v) := by
  unfold State.pxForce
  repeat' first
    | (with_reducible first | exact hk | assumption | apply State.p_keeps | apply State.laneNotice_keeps | apply Keeps.ite)
    | (with_reducible apply Keeps.modLane <;> [skip; exact fun _ hw => hw])
    | simp only [Keeps.upd_iff]
    | split
    | dsimp only

theorem execForcedTest_keeps {s0 : State} (l : Lane) (v : Word) (s : State) (hk : Keeps s0 s) : KeepsO s0 (execForcedTest l v s) := by
  unfold execForcedTest
  repeat' first
    | (with_reducible first | exact hk | assumption | apply State.pxForce_keeps | apply Keeps.ite | apply KeepsO.ite | apply KeepsO.next)
    | split
    | dsimp only

theorem execComparatorTestDue_keeps {s0 : State} (l : Lane) (p : Pair) (s : State) (hk : Keeps s0 s) : KeepsO s0 (execComparatorTestDue l p s) := by
  unfold execComparatorTestDue
  repeat' first
    | (with_reducible first | exact hk | assumption | apply State.p_keeps | apply State.pxForce_keeps | apply Keeps.ite | apply KeepsO.ite | apply KeepsO.next)
    | (with_reducible apply Keeps.modLane <;> [skip; exact fun _ hw => hw])
    | simp only [Keeps.upd_iff]
    | split
    | dsimp only

theorem execForcedTestResult_keeps {s0 : State} (l : Lane) (trip synOk railOk : Bool) (group : Fin 4) (b : Fin 256) (s : State) (hk : Keeps s0 s) : KeepsO s0 (execForcedTestResult l trip synOk railOk group b s) := by
  unfold execForcedTestResult
  repeat' first
    | (with_reducible first | exact hk | assumption | apply State.p_keeps | apply State.pb_keeps | apply State.inc_keeps | apply State.failCheck_keeps | apply State.pairFault_keeps | apply Keeps.ite | apply KeepsO.ite | apply KeepsO.next)
    | (with_reducible apply Keeps.modLane <;> [skip; exact fun _ hw => hw])
    | simp only [Keeps.upd_iff]
    | split
    | dsimp only

theorem State.allTests_keeps {s0 : State} (s : State) (l : Nat) (hk : Keeps s0 s) : Keeps s0 (State.allTests s l) := by
  unfold State.allTests
  repeat' first
    | (with_reducible first | exact hk | assumption | apply State.p_keeps | apply Keeps.ite)
    | (with_reducible apply Keeps.foldl; intro _ _ _)
    | split
    | dsimp only

theorem State.dispatch_keeps {s0 : State} (s : State) (l p : Nat) (v : Word) (hk : Keeps s0 s) : Keeps s0 (State.dispatch s l p v) := by
  unfold State.dispatch
  repeat' first
    | (with_reducible first | exact hk | assumption | apply State.p_keeps | apply State.report_keeps | apply Keeps.ite)
    | (with_reducible apply Keeps.modLane <;> [skip; exact fun _ hw => hw])
    | simp only [Keeps.upd_iff]
    | split
    | dsimp only

theorem State.dispWrite_keeps {s0 : State} (s : State) (l q p : Nat) (v : Word) (hk : Keeps s0 s) : Keeps s0 (State.dispWrite s l q p v) := by
  unfold State.dispWrite
  repeat' first
    | (with_reducible first | exact hk | assumption | apply State.p_keeps | apply State.dispatch_keeps | apply Keeps.ite)
    | (with_reducible apply Keeps.modLane <;> [skip; exact fun _ hw => hw])
    | simp only [Keeps.upd_iff]
    | split
    | dsimp only

theorem execTaskDispatch_keeps {s0 : State} (l : Lane) (p : Pair) (v : Word) (s : State) (hk : Keeps s0 s) : KeepsO s0 (execTaskDispatch l p v s) := by
  unfold execTaskDispatch
  repeat' first
    | (with_reducible first | exact hk | assumption | apply State.p_keeps | apply State.dispWrite_keeps | apply Keeps.ite | apply KeepsO.ite | apply KeepsO.next)
    | split
    | dsimp only

theorem State.dispatchWaiting_keeps {s0 : State} (s : State) (l : Nat) (hk : Keeps s0 s) : Keeps s0 (State.dispatchWaiting s l) := by
  unfold State.dispatchWaiting
  repeat' first
    | (with_reducible first | exact hk | assumption | apply State.dispatch_keeps | apply Keeps.ite)
    | (with_reducible apply Keeps.modLane <;> [skip; exact fun _ hw => hw])
    | (with_reducible apply Keeps.foldl; intro _ _ _)
    | simp only [Keeps.upd_iff]
    | split
    | dsimp only

theorem State.pairStart_keeps {s0 : State} (s : State) (l p : Nat) (join : Bool) (hk : Keeps s0 s) : Keeps s0 (State.pairStart s l p join) := by
  unfold State.pairStart
  repeat' first
    | (with_reducible first | exact hk | assumption | apply State.p_keeps | apply State.arming_keeps | apply Keeps.ite)
    | split
    | dsimp only

theorem State.pxCmd_keeps {s0 : State} (s : State) (l : Nat) (v : Word) (hk : Keeps s0 s) : Keeps s0 (State.pxCmd s l v) := by
  unfold State.pxCmd
  repeat' first
    | (with_reducible first | exact hk | assumption | apply State.p_keeps | apply State.pb_keeps | apply State.laneNotice_keeps | apply State.pairStart_keeps | apply Keeps.ite)
    | split
    | dsimp only

theorem execPxSplit_keeps {s0 : State} (l : Lane) (v : Word) (s : State) (hk : Keeps s0 s) : KeepsO s0 (execPxSplit l v s) := by
  unfold execPxSplit
  repeat' first
    | (with_reducible first | exact hk | assumption | apply State.pxCmd_keeps | apply Keeps.ite | apply KeepsO.ite | apply KeepsO.next)
    | split
    | dsimp only

theorem execPxJoin_keeps {s0 : State} (l : Lane) (v : Word) (s : State) (hk : Keeps s0 s) : KeepsO s0 (execPxJoin l v s) := by
  unfold execPxJoin
  repeat' first
    | (with_reducible first | exact hk | assumption | apply State.pxCmd_keeps | apply Keeps.ite | apply KeepsO.ite | apply KeepsO.next)
    | split
    | dsimp only

theorem State.pairDone_keeps {s0 : State} (s : State) (hk : Keeps s0 s) : Keeps s0 (State.pairDone s) := by
  unfold State.pairDone
  repeat' first
    | (with_reducible first | exact hk | assumption | apply State.cmdRecord_keeps | apply State.respond_keeps | apply Keeps.ite)
    | simp only [Keeps.upd_iff]
    | split
    | dsimp only

theorem execSplitComplete_keeps {s0 : State} (l : Lane) (s : State) (hk : Keeps s0 s) : KeepsO s0 (execSplitComplete l s) := by
  unfold execSplitComplete
  repeat' first
    | (with_reducible first | exact hk | assumption | apply State.p_keeps | apply State.arming_keeps | apply State.dispatchWaiting_keeps | apply State.pairDone_keeps | apply Keeps.ite | apply KeepsO.ite | apply KeepsO.next)
    | split
    | dsimp only

theorem execJoinComplete_keeps {s0 : State} (l : Lane) (trip synOk railOk : Bool) (s : State) (hk : Keeps s0 s) : KeepsO s0 (execJoinComplete l trip synOk railOk s) := by
  unfold execJoinComplete
  repeat' first
    | (with_reducible first | exact hk | assumption | apply State.p_keeps | apply State.pb_keeps | apply State.inc_keeps | apply State.arming_keeps | apply State.pairFault_keeps | apply State.dispatchWaiting_keeps | apply State.pairDone_keeps | apply Keeps.ite | apply KeepsO.ite | apply KeepsO.next)
    | split
    | dsimp only

theorem execPairExecutionPoint_keeps {s0 : State} (s : State) (hk : Keeps s0 s) : KeepsO s0 (execPairExecutionPoint s) := by
  unfold execPairExecutionPoint
  repeat' first
    | (with_reducible first | exact hk | assumption | apply State.p_keeps | apply State.uninhibit_keeps | apply State.pxCmd_keeps | apply State.pairDone_keeps | apply Keeps.ite | apply KeepsO.ite | apply KeepsO.next)
    | (with_reducible apply Keeps.foldl; intro _ _ _)
    | simp only [Keeps.upd_iff]
    | split
    | dsimp only

/-! ### SafeChan -/

theorem State.showTx_keeps {s0 : State} (s : State) (x : Nat × Nat × List Byte) (hk : Keeps s0 s) : Keeps s0 (State.showTx s x) := by
  unfold State.showTx
  repeat' first
    | (with_reducible first | exact hk | assumption | apply State.p_keeps | apply State.inc_keeps | apply Keeps.ite)
    | split
    | dsimp only

theorem State.rxFail_keeps {s0 : State} (s : State) (r cause : Nat) (hk : Keeps s0 s) : Keeps s0 (State.rxFail s r cause) := by
  unfold State.rxFail
  repeat' first
    | (with_reducible first | exact hk | assumption | apply State.p_keeps | apply State.inc_keeps | apply State.noticeD_keeps | apply State.modRx_keeps | apply State.rxState_keeps | apply Keeps.ite)
    | simp only [Keeps.upd_iff]
    | split
    | dsimp only

theorem State.rxDeliver_keeps {s0 : State} (s : State) (r : Nat) (hk : Keeps s0 s) : Keeps s0 (State.rxDeliver s r) := by
  unfold State.rxDeliver
  repeat' first
    | (with_reducible first | exact hk | assumption | apply State.modRx_keeps | apply Keeps.ite)
    | simp only [Keeps.upd_iff]
    | split
    | dsimp only

theorem State.rxRecovered_keeps {s0 : State} (s : State) (r : Nat) (hk : Keeps s0 s) : Keeps s0 (State.rxRecovered s r) := by
  unfold State.rxRecovered
  repeat' first
    | (with_reducible first | exact hk | assumption | apply State.rxState_keeps | apply State.rxDeliver_keeps | apply Keeps.ite)
    | split
    | dsimp only

theorem State.rxValid_keeps {s0 : State} (s : State) (r sample t : Nat) (pdu : List Byte) (hk : Keeps s0 s) : Keeps s0 (State.rxValid s r sample t pdu) := by
  unfold State.rxValid
  repeat' first
    | (with_reducible first | exact hk | assumption | apply State.p_keeps | apply State.modRx_keeps | apply State.rxState_keeps | apply State.take_keeps | apply State.rxDeliver_keeps | apply State.rxRecovered_keeps | apply Keeps.ite)
    | simp only [Keeps.upd_iff]
    | split
    | dsimp only

theorem State.rxPdu_keeps {s0 : State} (s : State) (r sample : Nat) (p : Option (List Byte)) (hk : Keeps s0 s) : Keeps s0 (State.rxPdu s r sample p) := by
  cases p <;> simp only [State.rxPdu]
  · exact hk
  · split
    · exact State.inc_keeps _ _ hk
    · exact State.rxFail_keeps _ _ _ hk
    · exact State.rxValid_keeps _ _ _ _ _ hk

theorem State.rxCheck_keeps {s0 : State} (s : State) (r sample : Nat) (pdu : Option (List Byte)) (hk : Keeps s0 s) : Keeps s0 (State.rxCheck s r sample pdu) := by
  unfold State.rxCheck
  repeat' first
    | (with_reducible first | exact hk | assumption | apply State.modRx_keeps | apply State.rxState_keeps | apply State.rxFail_keeps | apply State.rxDeliver_keeps | apply State.rxPdu_keeps | apply Keeps.ite)
    | simp only [Keeps.upd_iff]
    | split
    | dsimp only

theorem execSafeWatchdogExpiry_keeps {s0 : State} (c : Fin 128) (s : State) (hk : Keeps s0 s) : KeepsO s0 (execSafeWatchdogExpiry c s) := by
  unfold execSafeWatchdogExpiry
  repeat' first
    | (with_reducible first | exact hk | assumption | apply State.rxFail_keeps | apply Keeps.ite | apply KeepsO.ite | apply KeepsO.next)
    | split
    | dsimp only

/-! ### Ethernet -/

theorem State.egress_keeps {s0 : State} (s : State) (p q : Nat) (f : EthFrame) (vid pcp : Nat) (rx : Option Nat) (tx : Nat) (hk : Keeps s0 s) : Keeps s0 (State.egress s p q f vid pcp rx tx) := by
  unfold State.egress
  repeat' first
    | (with_reducible first | exact hk | assumption | apply State.p_keeps | apply State.enqueue_keeps | apply Keeps.ite)
    | simp only [Keeps.upd_iff]
    | split
    | dsimp only

theorem State.learnMac_keeps {s0 : State} (s : State) (vid mac p : Nat) (hk : Keeps s0 s) : Keeps s0 (State.learnMac s vid mac p) := by
  unfold State.learnMac
  repeat' first
    | (with_reducible first | exact hk | assumption | apply State.p_keeps | apply Keeps.ite)
    | simp only [Keeps.upd_iff]
    | split
    | dsimp only

theorem State.toKeeper_keeps {s0 : State} (s : State) (f : EthFrame) (pcp vid : Nat) (hk : Keeps s0 s) : Keeps s0 (State.toKeeper s f pcp vid) := by
  unfold State.toKeeper
  repeat' first
    | (with_reducible first | exact hk | assumption | apply State.emit_keeps | apply Keeps.ite)
    | split
    | dsimp only

theorem execSwitchFrameReceive_keeps {s0 : State} (port : EPort) (f : EthFrame) (rx tx : Nat) (s : State) (hk : Keeps s0 s) : KeepsO s0 (execSwitchFrameReceive port f rx tx s) := by
  unfold execSwitchFrameReceive
  repeat' first
    | (with_reducible first | exact hk | assumption | apply State.p_keeps | apply State.inc_keeps | apply State.egress_keeps | apply State.learnMac_keeps | apply State.toKeeper_keeps | apply Keeps.ite | apply KeepsO.ite | apply KeepsO.next)
    | (with_reducible apply Keeps.foldl; intro _ _ _)
    | split
    | dsimp only

theorem execAddressAgeing_keeps {s0 : State} (vid mac : Nat) (s : State) (hk : Keeps s0 s) : KeepsO s0 (execAddressAgeing vid mac s) := by
  unfold execAddressAgeing
  repeat' first
    | (with_reducible first | exact hk | assumption | apply Keeps.ite | apply KeepsO.ite | apply KeepsO.next)
    | simp only [Keeps.upd_iff]
    | split
    | dsimp only

theorem execEthLinkChange_keeps {s0 : State} (port : EPort) (speed : LinkSpeed) (s : State) (hk : Keeps s0 s) : KeepsO s0 (execEthLinkChange port speed s) := by
  unfold execEthLinkChange
  repeat' first
    | (with_reducible first | exact hk | assumption | apply State.p_keeps | apply State.ethKick_keeps | apply Keeps.ite | apply KeepsO.ite | apply KeepsO.next)
    | split
    | dsimp only

theorem State.takeDatagram_keeps {s0 : State} (s : State) (k : Nat) (d : List Byte) (stamp : Nat) (hk : Keeps s0 s) : Keeps s0 (State.takeDatagram s k d stamp) := by
  unfold State.takeDatagram
  repeat' first
    | (with_reducible first | exact hk | assumption | apply State.p_keeps | apply State.inc_keeps | apply Keeps.ite)
    | simp only [Keeps.upd_iff]
    | split
    | dsimp only

theorem execDatagramReceive_keeps {s0 : State} (datagram : List Byte) (stamp : Nat) (s : State) (hk : Keeps s0 s) : KeepsO s0 (execDatagramReceive datagram stamp s) := by
  unfold execDatagramReceive
  repeat' first
    | (with_reducible first | exact hk | assumption | apply State.p_keeps | apply State.inc_keeps | apply State.takeDatagram_keeps | apply Keeps.ite | apply KeepsO.ite | apply KeepsO.next)
    | (with_reducible apply Keeps.foldl; intro _ _ _)
    | simp only [Keeps.upd_iff]
    | split
    | dsimp only

theorem State.ptpLost_keeps {s0 : State} (s : State) (hk : Keeps s0 s) : Keeps s0 (State.ptpLost s) := by
  unfold State.ptpLost
  repeat' first
    | (with_reducible first | exact hk | assumption | apply State.p_keeps | apply State.syncStep_keeps | apply Keeps.ite)
    | simp only [Keeps.upd_iff]
    | split
    | dsimp only

theorem State.ptpChoose_keeps {s0 : State} (s : State) (hk : Keeps s0 s) : Keeps s0 (State.ptpChoose s) := by
  unfold State.ptpChoose
  repeat' first
    | (with_reducible first | exact hk | assumption | apply State.p_keeps | apply State.notice_keeps | apply State.modPtp_keeps | apply State.ptpLost_keeps | apply Keeps.ite)
    | simp only [Keeps.upd_iff]
    | split
    | dsimp only

theorem State.ptpSync_keeps {s0 : State} (s : State) (p t1 t2 : Nat) (c : Int) (hk : Keeps s0 s) : Keeps s0 (State.ptpSync s p t1 t2 c) := by
  unfold State.ptpSync
  repeat' first
    | (with_reducible first | exact hk | assumption | apply State.p_keeps | apply State.take_keeps | apply State.modPtp_keeps | apply Keeps.ite)
    | simp only [Keeps.upd_iff]
    | split
    | dsimp only

theorem State.setDelay_keeps {s0 : State} (s : State) (p : Nat) (d : Int) (hk : Keeps s0 s) : Keeps s0 (State.setDelay s p d) := by
  unfold State.setDelay
  repeat' first
    | (with_reducible first | exact hk | assumption | apply State.p_keeps | apply State.modPtp_keeps | apply Keeps.ite)
    | simp only [Keeps.upd_iff]
    | split
    | dsimp only

theorem State.ptpSend_keeps {s0 : State} (s : State) (p : Nat) (m : List Byte) (fix : OutFix) (due : Nat) (hk : Keeps s0 s) : Keeps s0 (State.ptpSend s p m fix due) := by
  unfold State.ptpSend
  repeat' first
    | (with_reducible first | exact hk | assumption | apply State.p_keeps | apply State.enqueue_keeps | apply Keeps.ite)
    | simp only [Keeps.upd_iff]
    | split
    | dsimp only

theorem execPtpMessageReceive_keeps {s0 : State} (port : Fin 4) (m : PtpMsg) (s : State) (hk : Keeps s0 s) : KeepsO s0 (execPtpMessageReceive port m s) := by
  unfold execPtpMessageReceive
  repeat' first
    | (with_reducible first | exact hk | assumption | apply State.p_keeps | apply State.take_keeps | apply State.modPtp_keeps | apply State.ptpChoose_keeps | apply State.ptpSync_keeps | apply State.setDelay_keeps | apply State.ptpSend_keeps | apply Keeps.ite | apply KeepsO.ite | apply KeepsO.next)
    | simp only [Keeps.upd_iff]
    | split
    | dsimp only

theorem execPtpTransmit_keeps {s0 : State} (port : Fin 4) (k : PtpKind) (stamp : Nat) (s : State) (hk : Keeps s0 s) : KeepsO s0 (execPtpTransmit port k stamp s) := by
  unfold execPtpTransmit
  repeat' first
    | (with_reducible first | exact hk | assumption | apply State.p_keeps | apply State.modPtp_keeps | apply State.ptpSend_keeps | apply Keeps.ite | apply KeepsO.ite | apply KeepsO.next)
    | simp only [Keeps.upd_iff]
    | split
    | dsimp only

theorem execPtpReferenceLost_keeps {s0 : State} (s : State) (hk : Keeps s0 s) : KeepsO s0 (execPtpReferenceLost s) := by
  unfold execPtpReferenceLost
  repeat' first
    | (with_reducible first | exact hk | assumption | apply State.p_keeps | apply State.modPtp_keeps | apply State.ptpLost_keeps | apply Keeps.ite | apply KeepsO.ite | apply KeepsO.next)
    | simp only [Keeps.upd_iff]
    | split
    | dsimp only

/-! ### Image -/

theorem State.putImg_keeps {s0 : State} (s : State) (t off : Nat) (bs : List Byte) (hk : Keeps s0 s) : Keeps s0 (State.putImg s t off bs) := by
  unfold State.putImg
  repeat' first
    | (with_reducible first | exact hk | assumption | apply State.modTask_keeps | apply Keeps.ite)
    | simp only [Keeps.upd_iff]
    | split
    | dsimp only

theorem State.bindIn_keeps {s0 : State} (s : State) (b : InBind) (data : List Byte) (hk : Keeps s0 s) : Keeps s0 (State.bindIn s b data) := by
  unfold State.bindIn
  repeat' first
    | (with_reducible first | exact hk | assumption | apply State.putImg_keeps | apply Keeps.ite)
    | split
    | dsimp only

theorem State.imageHeader_keeps {s0 : State} (s : State) (t cycle at_ : Nat) (hk : Keeps s0 s) : Keeps s0 (State.imageHeader s t cycle at_) := by
  unfold State.imageHeader
  repeat' first
    | (with_reducible first | exact hk | assumption | apply State.modTask_keeps | apply State.putImg_keeps | apply Keeps.ite)
    | simp only [Keeps.upd_iff]
    | split
    | dsimp only

theorem State.takeSample_keeps {s0 : State} (s : State) (t : Nat) (hk : Keeps s0 s) : Keeps s0 (State.takeSample s t) := by
  unfold State.takeSample
  repeat' first
    | (with_reducible first | exact hk | assumption | apply State.modTask_keeps | apply State.modRbTask_keeps | apply State.cardReads_keeps | apply State.bindIn_keeps | apply State.imageHeader_keeps | apply Keeps.ite)
    | (with_reducible apply Keeps.foldl; intro _ _ _)
    | simp only [Keeps.upd_iff]
    | split
    | dsimp only

theorem State.overrun_keeps {s0 : State} (s : State) (t : Nat) (hk : Keeps s0 s) : Keeps s0 (State.overrun s t) := by
  unfold State.overrun
  repeat' first
    | (with_reducible first | exact hk | assumption | apply State.notice_keeps | apply State.modTask_keeps | apply State.report_keeps | apply Keeps.ite)
    | simp only [Keeps.upd_iff]
    | split
    | dsimp only

theorem State.skipPoint_keeps {s0 : State} (s : State) (t : Nat) (hk : Keeps s0 s) : Keeps s0 (State.skipPoint s t) := by
  unfold State.skipPoint
  repeat' first
    | (with_reducible first | exact hk | assumption | apply State.modTask_keeps | apply Keeps.ite)
    | simp only [Keeps.upd_iff]
    | split
    | dsimp only

theorem execSample_keeps {s0 : State} (t : Task) (s : State) (hk : Keeps s0 s) : KeepsO s0 (execSample t s) := by
  unfold execSample
  repeat' first
    | (with_reducible first | exact hk | assumption | apply State.modTask_keeps | apply State.takeSample_keeps | apply State.overrun_keeps | apply State.skipPoint_keeps | apply Keeps.ite | apply KeepsO.ite | apply KeepsO.next)
    | simp only [Keeps.upd_iff]
    | split
    | dsimp only

theorem State.stationWords_keeps {s0 : State} (s : State) (t : Nat) (d : StationDesc) (data : List Byte) (hk : Keeps s0 s) : Keeps s0 (State.stationWords s t d data) := by
  unfold State.stationWords
  repeat' first
    | (with_reducible first | exact hk | assumption | apply State.bindIn_keeps | apply Keeps.ite)
    | (with_reducible apply Keeps.foldl; intro _ _ _)
    | split
    | dsimp only

theorem execCollectionClose_keeps {s0 : State} (t : Task) (s : State) (hk : Keeps s0 s) : KeepsO s0 (execCollectionClose t s) := by
  unfold execCollectionClose
  repeat' first
    | (with_reducible first | exact hk | assumption | apply State.modTask_keeps | apply State.rxCheck_keeps | apply State.bindIn_keeps | apply State.stationWords_keeps | apply Keeps.ite | apply KeepsO.ite | apply KeepsO.next)
    | (with_reducible apply Keeps.foldl; intro _ _ _)
    | simp only [Keeps.upd_iff]
    | split
    | dsimp only

theorem State.imageOut_keeps {s0 : State} (s : State) (t : Nat) (m : Mem) (hk : Keeps s0 s) : Keeps s0 (State.imageOut s t m) := by
  unfold State.imageOut
  repeat' first
    | (with_reducible first | exact hk | assumption | apply State.modTask_keeps | apply Keeps.ite)
    | simp only [Keeps.upd_iff]
    | split
    | dsimp only

theorem State.lateImage_keeps {s0 : State} (s : State) (t : Nat) (hk : Keeps s0 s) : Keeps s0 (State.lateImage s t) := by
  unfold State.lateImage
  repeat' first
    | (with_reducible first | exact hk | assumption | apply State.notice_keeps | apply State.modTask_keeps | apply Keeps.ite)
    | simp only [Keeps.upd_iff]
    | split
    | dsimp only

theorem State.applyFwd_keeps {s0 : State} (s : State) (t : Nat) (body : List Byte) (hk : Keeps s0 s) : Keeps s0 (State.applyFwd s t body) := by
  unfold State.applyFwd
  repeat' first
    | (with_reducible first | exact hk | assumption | apply State.modTask_keeps | apply State.take_keeps | apply State.imageOut_keeps | apply Keeps.ite)
    | (with_reducible apply Keeps.foldl; intro _ _ _)
    | simp only [Keeps.upd_iff]
    | simp only [Keeps.mb_iff]
    | (with_reducible apply Keeps.setMb <;> [skip; exact fun hw => by simp [hw, Memory.wf_wrL, Memory.wf_wipe]])
    | split
    | dsimp only

theorem execImageComplete_keeps {s0 : State} (t : Task) (s : State) (hk : Keeps s0 s) : KeepsO s0 (execImageComplete t s) := by
  unfold execImageComplete
  repeat' first
    | (with_reducible first | exact hk | assumption | apply State.modTask_keeps | apply State.originate_keeps | apply State.putImg_keeps | apply State.imageOut_keeps | apply State.lateImage_keeps | apply State.applyFwd_keeps | apply Keeps.ite | apply KeepsO.ite | apply KeepsO.next)
    | simp only [Keeps.upd_iff]
    | split
    | dsimp only

theorem execForwardedImageReceive_keeps {s0 : State} (k : PairLink) (img : FwdImage) (s : State) (hk : Keeps s0 s) : KeepsO s0 (execForwardedImageReceive k img s) := by
  unfold execForwardedImageReceive
  repeat' first
    | (with_reducible first | exact hk | assumption | apply State.applyFwd_keeps | apply Keeps.ite | apply KeepsO.ite | apply KeepsO.next)
    | simp only [Keeps.upd_iff]
    | split
    | dsimp only

theorem execForwardDeadline_keeps {s0 : State} (t : Task) (s : State) (hk : Keeps s0 s) : KeepsO s0 (execForwardDeadline t s) := by
  unfold execForwardDeadline
  repeat' first
    | (with_reducible first | exact hk | assumption | apply State.p_keeps | apply State.inc_keeps | apply State.imageOut_keeps | apply Keeps.ite | apply KeepsO.ite | apply KeepsO.next)
    | split
    | dsimp only

/-! ### Vote -/

theorem State.publish_keeps {s0 : State} (s : State) (t k dflt : Nat) (hk : Keeps s0 s) : Keeps s0 (State.publish s t k dflt) := by
  unfold State.publish
  repeat' first
    | (with_reducible first | exact hk | assumption | apply State.p_keeps | apply State.dispatchPart_keeps | apply Keeps.ite)
    | (with_reducible apply Keeps.foldl; intro _ _ _)
    | simp only [Keeps.upd_iff]
    | split
    | dsimp only

theorem State.commit_keeps {s0 : State} (s : State) (t k : Nat) (u : Sub) (hk : Keeps s0 s) : Keeps s0 (State.commit s t k u) := by
  unfold State.commit
  repeat' first
    | (with_reducible first | exact hk | assumption | apply State.notice_keeps | apply State.modTask_keeps | apply State.dispatchPart_keeps | apply State.showTx_keeps | apply State.publish_keeps | apply Keeps.ite)
    | (with_reducible apply Keeps.foldl; intro _ _ _)
    | simp only [Keeps.upd_iff]
    | split
    | dsimp only

theorem State.putVote_keeps {s0 : State} (s : State) (v : CycVote) (hk : Keeps s0 s) : Keeps s0 (State.putVote s v) := by
  unfold State.putVote
  repeat' first
    | (with_reducible first | exact hk | assumption | apply Keeps.ite)
    | simp only [Keeps.upd_iff]
    | split
    | dsimp only

theorem State.compareSub_keeps {s0 : State} (s : State) (l : Nat) (v : CycVote) (u w : Sub) (hk : Keeps s0 s) : Keeps s0 (State.compareSub s l v u w) := by
  unfold State.compareSub
  repeat' first
    | (with_reducible first | exact hk | assumption | apply State.minority_keeps | apply Keeps.ite)
    | (with_reducible apply Keeps.modLane <;> [skip; exact fun _ hw => hw])
    | simp only [Keeps.upd_iff]
    | split
    | dsimp only

theorem State.noMajority_keeps {s0 : State} (s : State) (v : CycVote) (code : Nat) (hk : Keeps s0 s) : Keeps s0 (State.noMajority s v code) := by
  unfold State.noMajority
  repeat' first
    | (with_reducible first | exact hk | assumption | apply State.inc_keeps | apply State.report_keeps | apply State.putVote_keeps | apply Keeps.ite)
    | simp only [Keeps.upd_iff]
    | split
    | dsimp only

theorem State.majority_keeps {s0 : State} (s : State) (v : CycVote) (w : Sub) (hk : Keeps s0 s) : Keeps s0 (State.majority s v w) := by
  unfold State.majority
  repeat' first
    | (with_reducible first | exact hk | assumption | apply State.inc_keeps | apply State.report_keeps | apply State.commit_keeps | apply State.putVote_keeps | apply State.compareSub_keeps | apply Keeps.ite)
    | (with_reducible apply Keeps.foldl; intro _ _ _)
    | simp only [Keeps.upd_iff]
    | split
    | dsimp only

theorem State.arriveSub_keeps {s0 : State} (s : State) (l : Lane) (t : Task) (cycle : Nat) (u : Sub) (hk : Keeps s0 s) : Keeps s0 (State.arriveSub s l t cycle u) := by
  unfold State.arriveSub
  repeat' first
    | (with_reducible first | exact hk | assumption | apply State.modTask_keeps | apply State.putVote_keeps | apply State.compareSub_keeps | apply State.noMajority_keeps | apply State.majority_keeps | apply Keeps.ite)
    | simp only [Keeps.upd_iff]
    | split
    | dsimp only

theorem State.lateLanes_keeps {s0 : State} (s : State) (v : CycVote) (hk : Keeps s0 s) : Keeps s0 (State.lateLanes s v) := by
  unfold State.lateLanes
  repeat' first
    | (with_reducible first | exact hk | assumption | apply State.minority_keeps | apply Keeps.ite)
    | (with_reducible apply Keeps.foldl; intro _ _ _)
    | simp only [Keeps.upd_iff]
    | split
    | dsimp only

theorem execVoteWindowClose_keeps {s0 : State} (t : Task) (s : State) (hk : Keeps s0 s) : KeepsO s0 (execVoteWindowClose t s) := by
  unfold execVoteWindowClose
  repeat' first
    | (with_reducible first | exact hk | assumption | apply State.putVote_keeps | apply State.noMajority_keeps | apply State.majority_keeps | apply State.lateLanes_keeps | apply Keeps.ite | apply KeepsO.ite | apply KeepsO.next)
    | simp only [Keeps.upd_iff]
    | split
    | dsimp only

theorem State.commitStop_keeps {s0 : State} (s : State) (t : Nat) (hk : Keeps s0 s) : Keeps s0 (State.commitStop s t) := by
  unfold State.commitStop
  repeat' first
    | (with_reducible first | exact hk | assumption | apply State.modTask_keeps | apply State.dispatchPart_keeps | apply State.publish_keeps | apply State.commit_keeps | apply Keeps.ite)
    | (with_reducible apply Keeps.foldl; intro _ _ _)
    | simp only [Keeps.upd_iff]
    | split
    | dsimp only

theorem execStopImageCommit_keeps {s0 : State} (t : Task) (s : State) (hk : Keeps s0 s) : KeepsO s0 (execStopImageCommit t s) := by
  unfold execStopImageCommit
  repeat' first
    | (with_reducible first | exact hk | assumption | apply State.commitStop_keeps | apply Keeps.ite | apply KeepsO.ite | apply KeepsO.next)
    | split
    | dsimp only

theorem State.stopGrid_keeps {s0 : State} (s : State) (hk : Keeps s0 s) : Keeps s0 (State.stopGrid s) := by
  unfold State.stopGrid
  repeat' first
    | (with_reducible first | exact hk | assumption | apply State.modTask_keeps | apply Keeps.ite)
    | (with_reducible apply Keeps.foldl; intro _ _ _)
    | simp only [Keeps.upd_iff]
    | split
    | dsimp only

theorem State.appStop_keeps {s0 : State} (s : State) (hk : Keeps s0 s) : Keeps s0 (State.appStop s) := by
  unfold State.appStop
  repeat' first
    | (with_reducible first | exact hk | assumption | apply State.driveOutputs_keeps | apply State.drivesDisable_keeps | apply State.scOff_keeps | apply State.removeForces_keeps | apply State.endStart_keeps | apply State.dropContexts_keeps | apply State.clearRun_keeps | apply State.commitStop_keeps | apply State.stopGrid_keeps | apply Keeps.ite)
    | (with_reducible apply Keeps.foldl; intro _ _ _)
    | simp only [Keeps.upd_iff]
    | split
    | dsimp only

end Sys2Proof.Machine
end

