-- ==== Sys2Proof/Laws/Keep8.lean ====
section
/-! SUPPORT. What every operation keeps of a state (`Keeps`): those of Machine/Memory.lean, AppOps.lean, ModeOps.lean, LaneLife.lean, Settings.lean. -/

set_option linter.all false

namespace Sys2Proof.Machine
open Sys2Proof.Safety

/-! ### Memory -/

theorem execUncorrectableMemoryError_keeps {s0 : State} (l : Lane) (m : MemKind) (s : State) (hk : Keeps s0 s) : KeepsO s0 (execUncorrectableMemoryError l m s) := by
  unfold execUncorrectableMemoryError
  repeat' first
    | (with_reducible first | exact hk | assumption | apply State.report_keeps | apply State.failCheck_keeps | apply Keeps.ite | apply KeepsO.ite | apply KeepsO.next)
    | split
    | dsimp only

theorem State.corrections_keeps {s0 : State} (s : State) (l n : Nat) (hk : Keeps s0 s) : Keeps s0 (State.corrections s l n) := by
  unfold State.corrections
  repeat' first
    | (with_reducible first | exact hk | assumption | apply State.notice_keeps | apply Keeps.ite)
    | (with_reducible apply Keeps.modLane <;> [skip; exact fun _ hw => hw])
    | simp only [Keeps.upd_iff]
    | split
    | dsimp only

theorem execScrubPass_keeps {s0 : State} (l : Lane) (dram l2 tcm : Nat) (bad : Option MemKind) (s : State) (hk : Keeps s0 s) : KeepsO s0 (execScrubPass l dram l2 tcm bad s) := by
  unfold execScrubPass
  repeat' first
    | (with_reducible first | exact hk | assumption | apply State.satAdd_keeps | apply State.report_keeps | apply State.failCheck_keeps | apply State.corrections_keeps | apply Keeps.ite | apply KeepsO.ite | apply KeepsO.next)
    | split
    | dsimp only

theorem execRetainedApply_keeps {s0 : State} (st : RetStream) (s : State) (hk : Keeps s0 s) : KeepsO s0 (execRetainedApply st s) := by
  unfold execRetainedApply
  repeat' first
    | (with_reducible first | exact hk | assumption | apply State.retApply_keeps | apply Keeps.ite | apply KeepsO.ite | apply KeepsO.next)
    | split
    | dsimp only

theorem execTcmStarvation_keeps {s0 : State} (l : Lane) (b : Fin 8) (clks : Nat) (s : State) (hk : Keeps s0 s) : KeepsO s0 (execTcmStarvation l b clks s) := by
  unfold execTcmStarvation
  repeat' first
    | (with_reducible first | exact hk | assumption | apply State.p_keeps | apply State.inc_keeps | apply State.satAdd_keeps | apply State.laneNotice_keeps | apply Keeps.ite | apply KeepsO.ite | apply KeepsO.next)
    | split
    | dsimp only

theorem execRetentionLost_keeps {s0 : State} (l : Lane) (s : State) (hk : Keeps s0 s) : KeepsO s0 (execRetentionLost l s) := by
  unfold execRetentionLost
  repeat' first
    | (with_reducible first | exact hk | assumption | apply Keeps.ite | apply KeepsO.ite | apply KeepsO.next)
    | (with_reducible apply Keeps.modLane <;> [skip; exact fun _ hw => hw])
    | simp only [Keeps.upd_iff]
    | split
    | dsimp only

theorem execLogicalWipeDone_keeps {s0 : State} (l : Lane) (s : State) (hk : Keeps s0 s) : KeepsO s0 (execLogicalWipeDone l s) := by
  unfold execLogicalWipeDone
  repeat' first
    | (with_reducible first | exact hk | assumption | apply Keeps.ite | apply KeepsO.ite | apply KeepsO.next)
    | (with_reducible apply Keeps.modLane <;> [skip; exact fun _ hw => hw])
    | simp only [Keeps.upd_iff]
    | split
    | dsimp only

theorem execPhysicalWipeDone_keeps {s0 : State} (l : Lane) (s : State) (hk : Keeps s0 s) : KeepsO s0 (execPhysicalWipeDone l s) := by
  unfold execPhysicalWipeDone
  repeat' first
    | (with_reducible first | exact hk | assumption | apply Keeps.ite | apply KeepsO.ite | apply KeepsO.next)
    | (with_reducible apply Keeps.modLane <;> [skip; exact fun _ hw => hw])
    | simp only [Keeps.upd_iff]
    | split
    | dsimp only

theorem State.sdCtrl_keeps {s0 : State} (s : State) (l : Nat) (v : Word) (hk : Keeps s0 s) : Keeps s0 (State.sdCtrl s l v) := by
  unfold State.sdCtrl
  repeat' first
    | (with_reducible first | exact hk | assumption | apply State.p_keeps | apply State.pb_keeps | apply State.laneNotice_keeps | apply Keeps.ite)
    | (with_reducible apply Keeps.modLane <;> [skip; exact fun _ hw => hw])
    | (with_reducible apply Keeps.foldl; intro _ _ _)
    | simp only [Keeps.upd_iff]
    | split
    | dsimp only

theorem execSdEnable_keeps {s0 : State} (l : Lane) (v : Word) (s : State) (hk : Keeps s0 s) : KeepsO s0 (execSdEnable l v s) := by
  unfold execSdEnable
  repeat' first
    | (with_reducible first | exact hk | assumption | apply State.sdCtrl_keeps | apply Keeps.ite | apply KeepsO.ite | apply KeepsO.next)
    | split
    | dsimp only

/-! ### AppOps -/

theorem State.laneConfig_keeps {s0 : State} (s : State) (l : Nat) (hk : Keeps s0 s) : Keeps s0 (State.laneConfig s l) := by
  unfold State.laneConfig
  repeat' first
    | (with_reducible first | exact hk | assumption | apply State.p_keeps | apply State.pb_keeps | apply State.predValid_keeps | apply Keeps.ite)
    | (with_reducible apply Keeps.foldl; intro _ _ _)
    | simp only [Keeps.upd_iff]
    | simp only [Keeps.regs_iff]
    | (with_reducible apply Keeps.setRegs <;> [skip; exact fun hw => by simp [hw, Regs.wf_wr, Regs.wf_p, tabWf_filter]])
    | split
    | dsimp only

theorem State.spareOff_keeps {s0 : State} (s : State) (hk : Keeps s0 s) : Keeps s0 (State.spareOff s) := by
  unfold State.spareOff
  repeat' first
    | (with_reducible first | exact hk | assumption | apply State.p_keeps | apply State.dropLane_keeps | apply State.reports_keeps | apply Keeps.ite)
    | split
    | (with_reducible refine Keeps.fst ?_ (by assumption))
    | dsimp only

theorem State.spareOn_keeps {s0 : State} (s : State) (hk : Keeps s0 s) : Keeps s0 (State.spareOn s) := by
  unfold State.spareOn
  repeat' first
    | (with_reducible first | exact hk | assumption | apply State.p_keeps | apply State.setLaneSt_keeps | apply State.wipeLane_keeps | apply Keeps.ite)
    | (with_reducible apply Keeps.setLane <;> [skip; exact fun hw => by simp [State.lane_wf hw, Memory.wf_wrL]])
    | split
    | dsimp only

theorem State.setSpare_keeps {s0 : State} (s : State) (on : Bool) (hk : Keeps s0 s) : Keeps s0 (State.setSpare s on) := by
  unfold State.setSpare
  repeat' first
    | (with_reducible first | exact hk | assumption | apply State.spareOff_keeps | apply State.spareOn_keeps | apply Keeps.ite)
    | split
    | dsimp only

theorem State.netConfig_keeps {s0 : State} (s : State) (hk : Keeps s0 s) : Keeps s0 (State.netConfig s) := by
  unfold State.netConfig
  repeat' first
    | (with_reducible first | exact hk | assumption | apply State.p_keeps | apply Keeps.ite)
    | (with_reducible apply Keeps.foldl; intro _ _ _)
    | simp only [Keeps.upd_iff]
    | split
    | dsimp only

theorem State.timeMap_keeps {s0 : State} (s : State) (hk : Keeps s0 s) : Keeps s0 (State.timeMap s) := by
  unfold State.timeMap
  repeat' first
    | (with_reducible first | exact hk | assumption | apply State.p_keeps | apply State.capConfig_keeps | apply Keeps.ite)
    | (with_reducible apply Keeps.foldl; intro _ _ _)
    | simp only [Keeps.upd_iff]
    | simp only [Keeps.regs_iff]
    | (with_reducible apply Keeps.setRegs <;> [skip; exact fun hw => by simp [hw, Regs.wf_wr, Regs.wf_p, tabWf_filter]])
    | split
    | dsimp only

theorem State.placePkg_keeps {s0 : State} (s : State) (hk : Keeps s0 s) : Keeps s0 (State.placePkg s) := by
  unfold State.placePkg
  repeat' first
    | (with_reducible first | exact hk | assumption | apply State.p_keeps | apply State.rackConfig_keeps | apply State.laneConfig_keeps | apply State.setSpare_keeps | apply State.netConfig_keeps | apply State.timeMap_keeps | apply Keeps.ite)
    | (with_reducible apply Keeps.foldl; intro _ _ _)
    | split
    | dsimp only

theorem State.placeStored_keeps {s0 : State} (s : State) (hk : Keeps s0 s) : Keeps s0 (State.placeStored s) := by
  unfold State.placeStored
  repeat' first
    | (with_reducible first | exact hk | assumption | apply State.p_keeps | apply State.placePkg_keeps | apply Keeps.ite)
    | simp only [Keeps.upd_iff]
    | split
    | dsimp only

theorem State.placeCode_keeps {s0 : State} (s : State) (l : Nat) (hk : Keeps s0 s) : Keeps s0 (State.placeCode s l) := by
  unfold State.placeCode
  exact Keeps.modLane _ _ hk (fun _ h => Memory.wf_foldl_wr _ h)

theorem State.initLane_keeps {s0 : State} (s : State) (l : Nat) (hk : Keeps s0 s) : Keeps s0 (State.initLane s l) := by
  unfold State.initLane
  with_reducible apply State.sdCtrl_keeps
  with_reducible apply State.retPend_keeps
  refine Keeps.setLane _ _ (State.placeCode_keeps _ _ (State.laneConfig_keeps _ _ (State.p_keeps _ _ _ hk))) (fun c => ?_)
  have h1 : ∀ (rs : List (Nat × Nat)) (m : Mem), Memory.wf m = true →
      Memory.wf (rs.foldl (fun (m : Mem) w => m.wipe (w.1 * 4096) ((w.1 + w.2) * 4096)) m) = true := by
    intro rs
    induction rs with
    | nil => exact fun _ h => h
    | cons r rs ih => exact fun m h => ih _ (Memory.wf_wipe h _ _)
  exact Memory.wf_foldl_wr _ (h1 _ _ (State.lane_wf c l))

theorem State.laneRise_keeps {s0 : State} (s : State) (hk : Keeps s0 s) : Keeps s0 (State.laneRise s) := by
  unfold State.laneRise
  repeat' first
    | (with_reducible first | exact hk | assumption | apply State.openChan_keeps | apply State.setLaneSt_keeps | apply State.wipeLane_keeps | apply State.backInService_keeps | apply State.initLane_keeps | apply Keeps.ite)
    | (with_reducible apply Keeps.setLane <;> [skip; exact fun hw => by simp [State.lane_wf hw, Memory.wf_wrL]])
    | (with_reducible apply Keeps.foldl; intro _ _ _)
    | split
    | dsimp only

theorem State.startApp_keeps {s0 : State} (s : State) (kind : Nat) (hk : Keeps s0 s) : Keeps s0 (State.startApp s kind) := by
  unfold State.startApp
  repeat' first
    | (with_reducible first | exact hk | assumption | apply State.p_keeps | apply State.notice_keeps | apply State.scStart_keeps | apply State.dropContexts_keeps | apply State.clearRun_keeps | apply State.initLane_keeps | apply State.laneRise_keeps | apply Keeps.ite)
    | (with_reducible apply Keeps.foldl; intro _ _ _)
    | simp only [Keeps.upd_iff]
    | split
    | dsimp only

theorem State.fixAnchor_keeps {s0 : State} (s : State) (hk : Keeps s0 s) : Keeps s0 (State.fixAnchor s) := by
  unfold State.fixAnchor
  repeat' first
    | (with_reducible first | exact hk | assumption | apply State.modTask_keeps | apply Keeps.ite)
    | (with_reducible apply Keeps.foldl; intro _ _ _)
    | simp only [Keeps.upd_iff]
    | split
    | dsimp only

theorem State.olcApply_keeps {s0 : State} (s : State) (q : AppPkg) (hk : Keeps s0 s) : Keeps s0 (State.olcApply s q) := by
  unfold State.olcApply
  repeat' first
    | (with_reducible first | exact hk | assumption | apply State.modTask_keeps | apply State.removeForces_keeps | apply State.storeBytes_keeps | apply State.putImg_keeps | apply State.placePkg_keeps | apply State.placeCode_keeps | apply Keeps.ite)
    | (with_reducible apply Keeps.foldl; intro _ _ _)
    | simp only [Keeps.upd_iff]
    | split
    | dsimp only

/-! ### ModeOps -/

theorem State.buildStart_keeps {s0 : State} (s : State) (resume : Bool) (hk : Keeps s0 s) : Keeps s0 (State.buildStart s resume) := by
  unfold State.buildStart
  repeat' first
    | (with_reducible first | exact hk | assumption | apply State.p_keeps | apply Keeps.ite)
    | split
    | dsimp only

theorem State.trialCommit_keeps {s0 : State} (s : State) (hk : Keeps s0 s) : Keeps s0 (State.trialCommit s) := by
  unfold State.trialCommit
  repeat' first
    | (with_reducible first | exact hk | assumption | apply State.p_keeps | apply State.upEvent_keeps | apply State.upDiscard_keeps | apply Keeps.ite)
    | simp only [Keeps.upd_iff]
    | split
    | dsimp only

theorem State.writeUnit_keeps {s0 : State} (s : State) (hk : Keeps s0 s) : Keeps s0 (State.writeUnit s) := by
  unfold State.writeUnit
  repeat' first
    | (with_reducible first | exact hk | assumption | apply State.p_keeps | apply State.pb_keeps | apply State.chanGates_keeps | apply Keeps.ite)
    | (with_reducible apply Keeps.foldl; intro _ _ _)
    | simp only [Keeps.upd_iff]
    | simp only [Keeps.regs_iff]
    | (with_reducible apply Keeps.setRegs <;> [skip; exact fun hw => by simp [hw, Regs.wf_wr, Regs.wf_p, tabWf_filter]])
    | split
    | dsimp only

theorem State.syncEntry_keeps {s0 : State} (s : State) (hk : Keeps s0 s) : Keeps s0 (State.syncEntry s) := by
  unfold State.syncEntry
  repeat' first
    | (with_reducible first | exact hk | assumption | apply State.loadRingCfg_keeps | apply State.enableRing_keeps | apply State.writeUnit_keeps | apply Keeps.ite)
    | split
    | dsimp only

theorem State.enterMode_keeps {s0 : State} (s : State) (m row : Nat) (hk : Keeps s0 s) : Keeps s0 (State.enterMode s m row) := by
  unfold State.enterMode
  repeat' first
    | (with_reducible first | exact hk | assumption | apply State.setMode_keeps | apply State.disableRing_keeps | apply State.appStop_keeps | apply State.buildStart_keeps | apply Keeps.ite)
    | split
    | dsimp only

theorem State.readyMode_keeps {s0 : State} (s : State) (hk : Keeps s0 s) : Keeps s0 (State.readyMode s) := by
  unfold State.readyMode
  repeat' first
    | (with_reducible first | exact hk | assumption | apply State.p_keeps | apply State.ungate_keeps | apply State.returnStandby_keeps | apply State.trialCommit_keeps | apply State.enterMode_keeps | apply Keeps.ite)
    | simp only [Keeps.upd_iff]
    | split
    | dsimp only

theorem State.modeTick_keeps {s0 : State} (s : State) (hk : Keeps s0 s) : Keeps s0 (State.modeTick s) := by
  unfold State.modeTick
  repeat' first
    | (with_reducible first | exact hk | assumption | apply State.readyMode_keeps | apply Keeps.ite)
    | split
    | dsimp only

theorem State.answerOk_keeps {s0 : State} (s : State) (chans : List Chan) (hdr payload : List Byte) (hk : Keeps s0 s) : Keeps s0 (State.answerOk s chans hdr payload) := by
  unfold State.answerOk
  repeat' first
    | (with_reducible first | exact hk | assumption | apply State.cmdRecord_keeps | apply State.respond_keeps | apply Keeps.ite)
    | split
    | dsimp only

theorem State.wake_keeps {s0 : State} (s : State) (src : Nat) (hk : Keeps s0 s) : Keeps s0 (State.wake s src) := by
  unfold State.wake
  repeat' first
    | (with_reducible first | exact hk | assumption | apply State.p_keeps | apply State.pb_keeps | apply State.moduleReset_keeps | apply Keeps.ite)
    | simp only [Keeps.upd_iff]
    | split
    | dsimp only

theorem State.parkNow_keeps {s0 : State} (s : State) (row : Nat) (hk : Keeps s0 s) : Keeps s0 (State.parkNow s row) := by
  unfold State.parkNow
  repeat' first
    | (with_reducible first | exact hk | assumption | apply State.p_keeps | apply State.driveOutputs_keeps | apply State.drivesDisable_keeps | apply State.setMode_keeps | apply State.answerOk_keeps | apply State.wake_keeps | apply Keeps.ite)
    | (with_reducible apply Keeps.modLane <;> [skip; exact fun _ hw => hw])
    | (with_reducible apply Keeps.foldl; intro _ _ _)
    | simp only [Keeps.upd_iff]
    | split
    | dsimp only

theorem State.wakeDone_keeps {s0 : State} (s : State) (hk : Keeps s0 s) : Keeps s0 (State.wakeDone s) := by
  unfold State.wakeDone
  repeat' first
    | (with_reducible first | exact hk | assumption | apply State.p_keeps | apply State.pb_keeps | apply State.moduleReset_keeps | apply State.take_keeps | apply State.enterMode_keeps | apply State.answerOk_keeps | apply Keeps.ite)
    | (with_reducible apply Keeps.foldl; intro _ _ _)
    | simp only [Keeps.upd_iff]
    | split
    | dsimp only

theorem State.laneWoken_keeps {s0 : State} (s : State) (l : Nat) (hk : Keeps s0 s) : Keeps s0 (State.laneWoken s l) := by
  unfold State.laneWoken
  repeat' first
    | (with_reducible first | exact hk | assumption | apply Keeps.ite)
    | (with_reducible apply Keeps.modLane <;> [skip; exact fun _ hw => hw])
    | simp only [Keeps.upd_iff]
    | split
    | dsimp only

theorem State.wakeTick_keeps {s0 : State} (s : State) (hk : Keeps s0 s) : Keeps s0 (State.wakeTick s) := by
  unfold State.wakeTick
  repeat' first
    | (with_reducible first | exact hk | assumption | apply State.wakeDone_keeps | apply Keeps.ite)
    | split
    | dsimp only

theorem State.changeTick_keeps {s0 : State} (s : State) (hk : Keeps s0 s) : Keeps s0 (State.changeTick s) := by
  unfold State.changeTick
  repeat' first
    | (with_reducible first | exact hk | assumption | apply State.answerOk_keeps | apply Keeps.ite)
    | simp only [Keeps.upd_iff]
    | split
    | dsimp only

theorem State.startFailed_keeps {s0 : State} (s : State) (hk : Keeps s0 s) : Keeps s0 (State.startFailed s) := by
  unfold State.startFailed
  repeat' first
    | (with_reducible first | exact hk | assumption | apply State.p_keeps | apply State.report_keeps | apply State.appStop_keeps | apply Keeps.ite)
    | simp only [Keeps.upd_iff]
    | split
    | dsimp only

theorem State.resume_keeps {s0 : State} (s : State) (t : Nat) (hk : Keeps s0 s) : Keeps s0 (State.resume s t) := by
  unfold State.resume
  repeat' first
    | (with_reducible first | exact hk | assumption | apply State.p_keeps | apply State.drivesEnable_keeps | apply State.modTask_keeps | apply Keeps.ite)
    | (with_reducible apply Keeps.foldl; intro _ _ _)
    | simp only [Keeps.upd_iff]
    | split
    | dsimp only

/-! ### LaneLife -/

theorem State.joins_keeps {s0 : State} (s : State) (l : Nat) (hk : Keeps s0 s) : Keeps s0 (State.joins s l) := by
  unfold State.joins
  repeat' first
    | (with_reducible first | exact hk | assumption | apply State.p_keeps | apply Keeps.ite)
    | (with_reducible apply Keeps.modLane <;> [skip; exact fun _ hw => hw])
    | simp only [Keeps.upd_iff]
    | split
    | dsimp only

theorem State.writeSpare_keeps {s0 : State} (s : State) (on : Bool) (hk : Keeps s0 s) : Keeps s0 (State.writeSpare s on) := by
  unfold State.writeSpare
  repeat' first
    | (with_reducible first | exact hk | assumption | apply State.notice_keeps | apply State.setSpare_keeps | apply Keeps.ite)
    | split
    | dsimp only

theorem execSpareEnable_keeps {s0 : State} (s : State) (hk : Keeps s0 s) : KeepsO s0 (execSpareEnable s) := by
  unfold execSpareEnable
  repeat' first
    | (with_reducible first | exact hk | assumption | apply State.writeSpare_keeps | apply Keeps.ite | apply KeepsO.ite | apply KeepsO.next)
    | split
    | dsimp only

theorem execSpareDisable_keeps {s0 : State} (s : State) (hk : Keeps s0 s) : KeepsO s0 (execSpareDisable s) := by
  unfold execSpareDisable
  repeat' first
    | (with_reducible first | exact hk | assumption | apply State.writeSpare_keeps | apply Keeps.ite | apply KeepsO.ite | apply KeepsO.next)
    | split
    | dsimp only

theorem execSparePromotion_keeps {s0 : State} (s : State) (hk : Keeps s0 s) : KeepsO s0 (execSparePromotion s) := by
  unfold execSparePromotion
  repeat' first
    | (with_reducible first | exact hk | assumption | apply State.openChan_keeps | apply State.setLaneSt_keeps | apply State.joins_keeps | apply Keeps.ite | apply KeepsO.ite | apply KeepsO.next)
    | (with_reducible apply Keeps.setLane <;> [skip; exact fun hw => by simp [State.lane_wf hw, Memory.wf_wrL]])
    | split
    | dsimp only

theorem execLaneResetComplete_keeps {s0 : State} (l : Lane) (s : State) (hk : Keeps s0 s) : KeepsO s0 (execLaneResetComplete l s) := by
  unfold execLaneResetComplete
  repeat' first
    | (with_reducible first | exact hk | assumption | apply State.setLaneSt_keeps | apply State.setLink_keeps | apply Keeps.ite | apply KeepsO.ite | apply KeepsO.next)
    | (with_reducible apply Keeps.setLane <;> [skip; exact fun hw => by simp [State.lane_wf hw, Memory.wf_wrL]])
    | split
    | dsimp only

theorem State.copyImage_keeps {s0 : State} (s : State) (j v : Nat) (hk : Keeps s0 s) : Keeps s0 (State.copyImage s j v) := by
  unfold State.copyImage
  have h := Keeps.modLane j (fun x : LaneSt => { x with
    mem := (if Config.sha256 ((s.app.pkg.code.map (fun e => (e.1, (s.lane v).mem.rd e.1))).map (·.2)) == Config.sha256 (s.app.pkg.code.map (·.2)) then
      s.app.pkg.code.map (fun e => (e.1, (s.lane v).mem.rd e.1)) else s.app.pkg.code).foldl (fun (m : Mem) e => m.wr e.1 e.2) x.mem
    written := pagesUnion x.written s.app.pkg.code }) hk (fun _ h => Memory.wf_foldl_wr _ h)
  exact Keeps.ite h (State.notice_keeps _ _ _ _ _ h)

theorem State.beginCopy_keeps {s0 : State} (s : State) (l : Nat) (hk : Keeps s0 s) : Keeps s0 (State.beginCopy s l).1 := by
  unfold State.beginCopy
  repeat' first
    | (with_reducible first | exact hk | assumption | apply State.p_keeps | apply State.failAttempt_keeps | apply State.copyImage_keeps | apply Keeps.ite)
    | (with_reducible apply Keeps.modLane <;> [skip; exact fun _ hw => hw])
    | simp only [Keeps.upd_iff]
    | split
    | (with_reducible refine Keeps.fst ?_ (by assumption))
    | dsimp only

theorem State.startCopy_keeps {s0 : State} (s : State) (l : Nat) (hk : Keeps s0 s) : Keeps s0 (State.startCopy s l).1 := by
  unfold State.startCopy
  repeat' first
    | (with_reducible first | exact hk | assumption | apply State.setLaneSt_keeps | apply State.sdCtrl_keeps | apply State.laneConfig_keeps | apply State.beginCopy_keeps | apply Keeps.ite)
    | (with_reducible apply Keeps.setLane <;> [skip; exact fun hw => by simp [State.lane_wf hw, Memory.wf_wrL]])
    | split
    | (with_reducible refine Keeps.fst ?_ (by assumption))
    | dsimp only

theorem State.nextJoiner_keeps {s0 : State} (s : State) (hk : Keeps s0 s) : Keeps s0 (State.nextJoiner s) := by
  unfold State.nextJoiner
  repeat' first
    | (with_reducible first | exact hk | assumption | apply State.reports_keeps | apply State.beginCopy_keeps | apply Keeps.ite)
    | split
    | (with_reducible refine Keeps.fst ?_ (by assumption))
    | dsimp only

theorem execLaneSelfTestEnd_keeps {s0 : State} (l : Lane) (pass : Bool) (s : State) (hk : Keeps s0 s) : KeepsO s0 (execLaneSelfTestEnd l pass s) := by
  unfold execLaneSelfTestEnd
  repeat' first
    | (with_reducible first | exact hk | assumption | apply State.setLaneSt_keeps | apply State.wipeLane_keeps | apply State.report_keeps | apply State.reports_keeps | apply State.allTests_keeps | apply State.laneRise_keeps | apply State.startCopy_keeps | apply Keeps.ite | apply KeepsO.ite | apply KeepsO.next)
    | (with_reducible apply Keeps.modLane <;> [skip; exact fun _ hw => hw])
    | (with_reducible apply Keeps.setLane <;> [skip; exact fun hw => by simp [State.lane_wf hw, Memory.wf_wrL]])
    | simp only [Keeps.upd_iff]
    | split
    | (with_reducible refine Keeps.fst ?_ (by assumption))
    | dsimp only

theorem State.copyMem_keeps {s0 : State} (s : State) (j v : Nat) (hk : Keeps s0 s) : Keeps s0 (State.copyMem s j v) := by
  unfold State.copyMem
  refine Keeps.modLane _ _ ?_ (fun _ hw => hw)
  unfold State.modLane
  exact Keeps.setLane _ _ hk (fun c => Memory.wf_foldl_wr _ (Memory.wf_filter (State.lane_wf c j) _))

theorem execCopyRoundComplete_keeps {s0 : State} (dirtied : Nat) (s : State) (hk : Keeps s0 s) : KeepsO s0 (execCopyRoundComplete dirtied s) := by
  unfold execCopyRoundComplete
  repeat' first
    | (with_reducible first | exact hk | assumption | apply State.p_keeps | apply State.satAdd_keeps | apply State.copyMem_keeps | apply Keeps.ite | apply KeepsO.ite | apply KeepsO.next)
    | (with_reducible apply Keeps.modLane <;> [skip; exact fun _ hw => hw])
    | (with_reducible apply Keeps.foldl; intro _ _ _)
    | simp only [Keeps.upd_iff]
    | split
    | dsimp only

theorem State.samePairs_keeps {s0 : State} (s : State) (j v : Nat) (hk : Keeps s0 s) : Keeps s0 (State.samePairs s j v) := by
  unfold State.samePairs
  repeat' first
    | (with_reducible first | exact hk | assumption | apply State.p_keeps | apply Keeps.ite)
    | (with_reducible apply Keeps.foldl; intro _ _ _)
    | split
    | dsimp only

theorem State.finalRound_keeps {s0 : State} (s : State) (hk : Keeps s0 s) : Keeps s0 (State.finalRound s) := by
  unfold State.finalRound
  repeat' first
    | (with_reducible first | exact hk | assumption | apply State.p_keeps | apply State.failAttempt_keeps | apply State.reports_keeps | apply State.submitted_keeps | apply State.nextJoiner_keeps | apply State.copyMem_keeps | apply State.samePairs_keeps | apply Keeps.ite)
    | (with_reducible apply Keeps.modLane <;> [skip; exact fun _ hw => hw])
    | simp only [Keeps.upd_iff]
    | split
    | (with_reducible refine Keeps.fst ?_ (by assumption))
    | dsimp only

theorem State.gapCommand_keeps {s0 : State} (s : State) (len : Nat) (hk : Keeps s0 s) : Keeps s0 (State.gapCommand s len) := by
  unfold State.gapCommand
  repeat' first
    | (with_reducible first | exact hk | assumption | apply State.gate_keeps | apply State.olcApply_keeps | apply State.parkNow_keeps | apply Keeps.ite)
    | simp only [Keeps.upd_iff]
    | split
    | dsimp only

theorem execQuietGap_keeps {s0 : State} (len : Nat) (s : State) (hk : Keeps s0 s) : KeepsO s0 (execQuietGap len s) := by
  unfold execQuietGap
  repeat' first
    | (with_reducible first | exact hk | assumption | apply State.uninhibit_keeps | apply State.finalRound_keeps | apply State.gapCommand_keeps | apply Keeps.ite | apply KeepsO.ite | apply KeepsO.next)
    | split
    | dsimp only

theorem execResyncComplete_keeps {s0 : State} (l : Lane) (s : State) (hk : Keeps s0 s) : KeepsO s0 (execResyncComplete l s) := by
  unfold execResyncComplete
  repeat' first
    | (with_reducible first | exact hk | assumption | apply State.p_keeps | apply State.uninhibit_keeps | apply State.openChan_keeps | apply State.setLaneSt_keeps | apply State.wipeLane_keeps | apply State.backInService_keeps | apply State.joins_keeps | apply State.nextJoiner_keeps | apply Keeps.ite | apply KeepsO.ite | apply KeepsO.next)
    | (with_reducible apply Keeps.modLane <;> [skip; exact fun _ hw => hw])
    | (with_reducible apply Keeps.setLane <;> [skip; exact fun hw => by simp [State.lane_wf hw, Memory.wf_wrL]])
    | simp only [Keeps.upd_iff]
    | split
    | dsimp only

theorem execResyncTimeout_keeps {s0 : State} (l : Lane) (s : State) (hk : Keeps s0 s) : KeepsO s0 (execResyncTimeout l s) := by
  unfold execResyncTimeout
  repeat' first
    | (with_reducible first | exact hk | assumption | apply State.failAttempt_keeps | apply State.reports_keeps | apply State.nextJoiner_keeps | apply Keeps.ite | apply KeepsO.ite | apply KeepsO.next)
    | split
    | (with_reducible refine Keeps.fst ?_ (by assumption))
    | dsimp only

theorem execLaneInitComplete_keeps {s0 : State} (l : Lane) (s : State) (hk : Keeps s0 s) : KeepsO s0 (execLaneInitComplete l s) := by
  unfold execLaneInitComplete
  repeat' first
    | (with_reducible first | exact hk | assumption | apply State.fixAnchor_keeps | apply Keeps.ite | apply KeepsO.ite | apply KeepsO.next)
    | (with_reducible apply Keeps.modLane <;> [skip; exact fun _ hw => hw])
    | simp only [Keeps.upd_iff]
    | split
    | dsimp only

theorem execAnchor_keeps {s0 : State} (s : State) (hk : Keeps s0 s) : KeepsO s0 (execAnchor s) := by
  unfold execAnchor
  repeat' first
    | (with_reducible first | exact hk | assumption | apply State.p_keeps | apply State.drivesEnable_keeps | apply State.retApplyN_keeps | apply State.readyMode_keeps | apply State.answerOk_keeps | apply Keeps.ite | apply KeepsO.ite | apply KeepsO.next)
    | simp only [Keeps.upd_iff]
    | split
    | dsimp only

theorem execInitTimeout_keeps {s0 : State} (s : State) (hk : Keeps s0 s) : KeepsO s0 (execInitTimeout s) := by
  unfold execInitTimeout
  repeat' first
    | (with_reducible first | exact hk | assumption | apply State.startFailed_keeps | apply Keeps.ite | apply KeepsO.ite | apply KeepsO.next)
    | split
    | dsimp only

/-! ### Settings -/

theorem Regs.wf_put {r : Regs} (h : tabWf regReset r = true) (e : Nat × Word) : tabWf regReset (r.put e) = true := by
  unfold Regs.put; split
  · exact Regs.wf_wr h _ _
  · exact h

theorem Regs.wf_foldl_put (ws : List (Nat × Word)) {r : Regs} (h : tabWf regReset r = true) : tabWf regReset (ws.foldl Regs.put r) = true := by
  induction ws generalizing r with
  | nil => exact h
  | cons e ws ih => exact ih (Regs.wf_put h e)

theorem State.putAll_keeps {s0 : State} (s : State) (ws : List (Nat × Word)) (hk : Keeps s0 s) : KeepsOpt s0 (State.putAll s ws) := by
  unfold State.putAll
  with_reducible apply KeepsOpt.ite
  · with_reducible apply KeepsOpt.some
    exact Keeps.regs_iff.2 (Keeps.setRegs hk (fun hw => Regs.wf_foldl_put ws hw))
  · exact KeepsOpt.none

theorem KeepsOpt.map {s0 : State} {o : Option State} {f : State → State} (hf : ∀ s, Keeps s0 s → Keeps s0 (f s)) (h : KeepsOpt s0 o) :
    KeepsOpt s0 (o.map f) := by
  intro t e
  cases o with
  | none => cases e
  | some u => cases e; exact hf u (h u rfl)

theorem State.applyTime_keeps {s0 : State} (s : State) (p : List Byte) (hk : Keeps s0 s) : KeepsOpt s0 (State.applyTime s p) := by
  unfold State.applyTime
  exact KeepsOpt.ite KeepsOpt.none (KeepsOpt.map (fun s h => State.ptpChoose_keeps s h) (State.putAll_keeps _ _ hk))

theorem State.applyEth_keeps {s0 : State} (s : State) (p : List Byte) (hk : Keeps s0 s) : KeepsOpt s0 (State.applyEth s p) := by
  unfold State.applyEth
  repeat' first
    | (with_reducible first | exact hk | assumption | apply State.p_keeps | apply State.putAll_keeps | apply Keeps.ite | apply KeepsOpt.ite | apply KeepsOpt.some | apply KeepsOpt.none)
    | split
    | (with_reducible refine KeepsOpt.of ?_ (by assumption))
    | dsimp only

theorem State.applyWake_keeps {s0 : State} (s : State) (p : List Byte) (hk : Keeps s0 s) : KeepsOpt s0 (State.applyWake s p) := by
  unfold State.applyWake
  repeat' first
    | (with_reducible first | exact hk | assumption | apply State.p_keeps | apply State.putAll_keeps | apply Keeps.ite | apply KeepsOpt.ite | apply KeepsOpt.some | apply KeepsOpt.none)
    | split
    | (with_reducible refine KeepsOpt.of ?_ (by assumption))
    | dsimp only

theorem State.applyFio_keeps {s0 : State} (s : State) (p : List Byte) (hk : Keeps s0 s) : KeepsOpt s0 (State.applyFio s p) := by
  unfold State.applyFio
  repeat' first
    | (with_reducible first | exact hk | assumption | apply State.p_keeps | apply State.driveOutputs_keeps | apply State.setTop_keeps | apply State.effAlarm_keeps | apply State.aioMode_keeps | apply Keeps.ite | apply KeepsOpt.ite | apply KeepsOpt.some | apply KeepsOpt.none)
    | (with_reducible apply Keeps.foldl; intro _ _ _)
    | simp only [Keeps.upd_iff]
    | split
    | dsimp only

theorem State.applyCap_keeps {s0 : State} (s : State) (p : List Byte) (hk : Keeps s0 s) : KeepsOpt s0 (State.applyCap s p) := by
  unfold State.applyCap
  repeat' first
    | (with_reducible first | exact hk | assumption | apply State.p_keeps | apply State.capConfig_keeps | apply Keeps.ite | apply KeepsOpt.ite | apply KeepsOpt.some | apply KeepsOpt.none)
    | split
    | dsimp only

theorem State.applyTrig_keeps {s0 : State} (s : State) (p : List Byte) (hk : Keeps s0 s) : KeepsOpt s0 (State.applyTrig s p) := by
  unfold State.applyTrig
  repeat' first
    | (with_reducible first | exact hk | assumption)
    | simp only [Keeps.upd_iff]
    | (with_reducible first | apply State.p_keeps | apply State.putAll_keeps | apply Keeps.ite | apply KeepsOpt.ite | apply KeepsOpt.some | apply KeepsOpt.none)
    | split
    | (with_reducible refine KeepsOpt.of ?_ (by assumption))
    | dsimp only

theorem State.trigTick_keeps {s0 : State} (s : State) (hk : Keeps s0 s) : Keeps s0 (State.trigTick s) := by
  unfold State.trigTick
  repeat' first
    | (with_reducible first | exact hk | assumption | apply State.arm_keeps | apply Keeps.ite)
    | (with_reducible apply Keeps.foldl; intro _ _ _)
    | simp only [Keeps.upd_iff]
    | split
    | dsimp only

theorem State.stamp_keeps {s0 : State} (s : State) (key : Nat) (hk : Keeps s0 s) : Keeps s0 (State.stamp s key) := by
  unfold State.stamp
  repeat' first
    | (with_reducible first | exact hk | assumption | apply Keeps.ite)
    | simp only [Keeps.upd_iff]
    | split
    | dsimp only

theorem State.unstamp_keeps {s0 : State} (s : State) (key : Nat) (hk : Keeps s0 s) : Keeps s0 (State.unstamp s key) := by
  unfold State.unstamp
  repeat' first
    | (with_reducible first | exact hk | assumption | apply Keeps.ite)
    | simp only [Keeps.upd_iff]
    | split
    | dsimp only

theorem State.driveFuncs_keeps {s0 : State} (s : State) (hk : Keeps s0 s) : Keeps s0 (State.driveFuncs s) := by
  unfold State.driveFuncs
  repeat' first
    | (with_reducible first | exact hk | assumption | apply State.pb_keeps | apply Keeps.ite)
    | (with_reducible apply Keeps.foldl; intro _ _ _)
    | split
    | dsimp only

theorem State.loadSafe_keeps {s0 : State} (s : State) (hk : Keeps s0 s) : Keeps s0 (State.loadSafe s) := by
  unfold State.loadSafe
  split
  · exact State.driveFuncs_keeps _ hk
  · rename_i k _
    have h1 : ∀ (p : Nat → Bool) (ws : List (Nat × Word)) (r : Regs), tabWf regReset r = true →
        tabWf regReset (ws.foldl (fun (r : Regs) (e : Nat × Word) => if p e.1 then Regs.put r e else r) r) = true := by
      intro p ws
      induction ws with
      | nil => exact fun _ h => h
      | cons e ws ih => exact fun r h => ih _ (by dsimp only; split <;> [exact Regs.wf_put h e; exact h])
    have h2 : Keeps s0 ({ s.scOff with
        regs := k.words.foldl (fun (r : Regs) (e : Nat × Word) => if safeReg e.1 then Regs.put r e else r)
          (s.scOff.regs.filter (fun (e : Nat × Word) => !safeReg e.1))
        sc := { txKey := k.txKey, rxKey := k.rxKey, safeVal := k.safeVal, rx := [] } } : State) :=
      Keeps.regs_iff.2 (Keeps.setRegs (State.scOff_keeps _ hk) (fun hw => h1 safeReg _ _ (tabWf_filter _ hw)))
    have h3 := State.driveFuncs_keeps _ (State.scStat_keeps _ h2)
    exact Keeps.ite (State.notice_keeps _ _ _ _ _ h3) (State.sfSwitched_keeps _ _ (State.p_keeps _ _ _ h3))

theorem State.restore_keeps {s0 : State} (s : State) (f : State → List Byte → Option State) (o : Option (List Byte))
    (hf : ∀ s p, Keeps s0 s → KeepsOpt s0 (f s p)) (hk : Keeps s0 s) : Keeps s0 (s.restore f o) := by
  unfold State.restore
  split
  · exact KeepsOpt.getD (hf _ _ hk) hk
  · exact hk

theorem State.loadSettings_keeps {s0 : State} (s : State) (hk : Keeps s0 s) : Keeps s0 (State.loadSettings s) := by
  unfold State.loadSettings
  with_reducible apply State.driveOutputs_keeps
  refine Keeps.upd_iff.2 ?_
  refine Keeps.foldl (fun s e h => KeepsOpt.getD (State.applyTrig_keeps _ _ h) h) ?_
  refine Keeps.foldl (fun s e h => State.capConfig_keeps _ _ _ h) ?_
  refine State.restore_keeps _ _ _ (fun s p h => State.applyWake_keeps s p h) ?_
  refine State.restore_keeps _ _ _ (fun s p h => State.applyEth_keeps s p h) ?_
  refine State.restore_keeps _ _ _ (fun s p h => State.applyTime_keeps s p h) ?_
  exact State.restore_keeps _ _ _ (fun s p h => State.applyFio_keeps s p h) hk

theorem State.lcWipe_keeps {s0 : State} (s : State) (hk : Keeps s0 s) : Keeps s0 (State.lcWipe s) := by
  unfold State.lcWipe
  repeat' first
    | (with_reducible first | exact hk | assumption | apply State.p_keeps | apply State.upDiscard_keeps | apply Keeps.ite)
    | simp only [Keeps.upd_iff]
    | split
    | dsimp only

theorem State.tagWipe_keeps {s0 : State} (s : State) (hk : Keeps s0 s) : Keeps s0 (State.tagWipe s) := by
  unfold State.tagWipe
  repeat' first
    | (with_reducible first | exact hk | assumption | apply Keeps.ite)
    | simp only [Keeps.upd_iff]
    | simp only [Keeps.regs_iff]
    | (with_reducible apply Keeps.setRegs <;> [skip; exact fun hw => by simp [hw, Regs.wf_wr, Regs.wf_p, tabWf_filter]])
    | split
    | dsimp only

theorem State.recordsWipe_keeps {s0 : State} (s : State) (hk : Keeps s0 s) : Keeps s0 (State.recordsWipe s) := by
  unfold State.recordsWipe
  repeat' first
    | (with_reducible first | exact hk | assumption | apply State.p_keeps | apply State.evRegs_keeps | apply Keeps.ite)
    | simp only [Keeps.upd_iff]
    | split
    | dsimp only

theorem State.evClear_keeps {s0 : State} (s : State) (hk : Keeps s0 s) : Keeps s0 (State.evClear s) := by
  unfold State.evClear
  repeat' first
    | (with_reducible first | exact hk | assumption | apply State.p_keeps | apply State.stageRec_keeps | apply Keeps.ite)
    | simp only [Keeps.upd_iff]
    | split
    | dsimp only

end Sys2Proof.Machine
end

