-- ==== Sys2Proof/Laws/Keep9.lean ====
section
/-! SUPPORT. What every operation keeps of a state (`Keeps`): those of Machine/Boot.lean, Modes.lean, CmdA.lean. -/

set_option linter.all false

namespace Sys2Proof.Machine
open Sys2Proof.Safety

/-! ### Boot -/

theorem State.setBank_keeps {s0 : State} (s : State) (b : Nat) (x : List Byte) (hk : Keeps s0 s) : Keeps s0 (State.setBank s b x) := by
  unfold State.setBank
  repeat' first
    | (with_reducible first | exact hk | assumption | apply Keeps.ite)
    | simp only [Keeps.upd_iff]
    | split
    | dsimp only

theorem State.buildFailed_keeps {s0 : State} (s : State) (why : Nat) (hk : Keeps s0 s) : Keeps s0 (State.buildFailed s why) := by
  unfold State.buildFailed
  repeat' first
    | (with_reducible first | exact hk | assumption | apply State.p_keeps | apply State.upEvent_keeps | apply Keeps.ite)
    | (with_reducible apply Keeps.foldl; intro _ _ _)
    | simp only [Keeps.upd_iff]
    | split
    | dsimp only

theorem execBuildComplete_keeps {s0 : State} (s : State) (hk : Keeps s0 s) : KeepsO s0 (execBuildComplete s) := by
  unfold execBuildComplete
  repeat' first
    | (with_reducible first | exact hk | assumption | apply State.p_keeps | apply State.upEvent_keeps | apply State.take_keeps | apply State.setBank_keeps | apply State.buildFailed_keeps | apply Keeps.ite | apply KeepsO.ite | apply KeepsO.next)
    | split
    | dsimp only

theorem State.runImage_keeps {s0 : State} (s : State) (hk : Keeps s0 s) : Keeps s0 (State.runImage s) := by
  unfold State.runImage
  repeat' first
    | (with_reducible first | exact hk | assumption | apply State.p_keeps | apply Keeps.ite)
    | split
    | dsimp only

theorem State.noBank_keeps {s0 : State} (s : State) (hk : Keeps s0 s) : Keeps s0 (State.noBank s) := by
  unfold State.noBank
  repeat' first
    | (with_reducible first | exact hk | assumption | apply State.bankBack_keeps | apply State.report_keeps | apply Keeps.ite)
    | split
    | dsimp only

theorem State.chooseBank_keeps {s0 : State} (s : State) (okA okB : Bool) (hk : Keeps s0 s) : KeepsOpt s0 (State.chooseBank s okA okB) := by
  unfold State.chooseBank
  repeat' first
    | (with_reducible first | exact hk | assumption | apply State.p_keeps | apply State.upEvent_keeps | apply State.upFallback_keeps | apply State.runImage_keeps | apply Keeps.ite | apply KeepsOpt.ite | apply KeepsOpt.some | apply KeepsOpt.none)
    | split
    | dsimp only

theorem State.migrate_keeps {s0 : State} (s : State) (hk : Keeps s0 s) : Keeps s0 (State.migrate s).1 := by
  unfold State.migrate
  repeat' first
    | (with_reducible first | exact hk | assumption | apply State.upEvent_keeps | apply State.stamp_keeps | apply Keeps.ite)
    | (with_reducible apply Keeps.foldl; intro _ _ _)
    | simp only [Keeps.upd_iff]
    | split
    | dsimp only

theorem State.finishWipe_keeps {s0 : State} (s : State) (hk : Keeps s0 s) : Keeps s0 (State.finishWipe s) := by
  unfold State.finishWipe
  repeat' first
    | (with_reducible first | exact hk | assumption | apply State.p_keeps | apply State.lcWipe_keeps | apply State.tagWipe_keeps | apply State.recordsWipe_keeps | apply Keeps.ite)
    | split
    | dsimp only

theorem State.readStandby_keeps {s0 : State} (s : State) (rtcOk : Bool) (hk : Keeps s0 s) : Keeps s0 (State.readStandby s rtcOk) := by
  unfold State.readStandby
  repeat' first
    | (with_reducible first | exact hk | assumption | apply State.notice_keeps | apply Keeps.ite)
    | simp only [Keeps.upd_iff]
    | split
    | dsimp only

theorem State.bootOn_keeps {s0 : State} (s : State) (rtcOk : Bool) (hk : Keeps s0 s) : Keeps s0 (State.bootOn s rtcOk) := by
  unfold State.bootOn
  repeat' first
    | (with_reducible first | exact hk | assumption | apply State.setMode_keeps | apply State.moduleReset_keeps | apply State.upFallback_keeps | apply State.evalSeal_keeps | apply State.placeStored_keeps | apply State.loadSafe_keeps | apply State.loadSettings_keeps | apply State.evClear_keeps | apply State.migrate_keeps | apply State.finishWipe_keeps | apply State.readStandby_keeps | apply Keeps.ite)
    | split
    | (with_reducible refine Keeps.fst ?_ (by assumption))
    | dsimp only

theorem execBootVerified_keeps {s0 : State} (okA okB rtcOk : Bool) (s : State) (hk : Keeps s0 s) : KeepsO s0 (execBootVerified okA okB rtcOk s) := by
  unfold execBootVerified
  repeat' first
    | (with_reducible first | exact hk | assumption | apply State.enterSafeHalt_keeps | apply State.driveFuncs_keeps | apply State.noBank_keeps | apply State.chooseBank_keeps | apply State.bootOn_keeps | apply Keeps.ite | apply KeepsO.ite | apply KeepsO.next)
    | split
    | (with_reducible refine KeepsOpt.of ?_ (by assumption))
    | dsimp only

theorem State.retSpoil_keeps {s0 : State} (s : State) (hk : Keeps s0 s) : Keeps s0 (State.retSpoil s) := by
  unfold State.retSpoil
  repeat' first
    | (with_reducible first | exact hk | assumption | apply State.p_keeps | apply Keeps.ite)
    | simp only [Keeps.upd_iff]
    | split
    | dsimp only

theorem execSelfTestEnd_keeps {s0 : State} (res : SelfTest) (s : State) (hk : Keeps s0 s) : KeepsO s0 (execSelfTestEnd res s) := by
  unfold execSelfTestEnd
  repeat' first
    | (with_reducible first | exact hk | assumption | apply State.p_keeps | apply State.report_keeps | apply State.syncEntry_keeps | apply State.enterMode_keeps | apply State.retSpoil_keeps | apply Keeps.ite | apply KeepsO.ite | apply KeepsO.next)
    | simp only [Keeps.upd_iff]
    | split
    | dsimp only

theorem State.standbyLoss_keeps {s0 : State} (s : State) (hk : Keeps s0 s) : Keeps s0 (State.standbyLoss s) := by
  unfold State.standbyLoss
  repeat' first
    | (with_reducible first | exact hk | assumption | apply State.p_keeps | apply Keeps.ite)
    | simp only [Keeps.upd_iff]
    | split
    | dsimp only

theorem execPowerOn_keeps {s0 : State} (s : State) (hk : Keeps s0 s) : KeepsO s0 (execPowerOn s) := by
  unfold execPowerOn
  repeat' first
    | (with_reducible first | exact hk | assumption | apply State.p_keeps | apply State.satAdd_keeps | apply State.recordEv_keeps | apply State.event_keeps | apply State.resetDies_keeps | apply State.standbyLoss_keeps | apply Keeps.ite | apply KeepsO.ite | apply KeepsO.next)
    | simp only [Keeps.upd_iff]
    | split
    | dsimp only

theorem State.storeOpTime_keeps {s0 : State} (s : State) (hk : Keeps s0 s) : Keeps s0 (State.storeOpTime s) := by
  unfold State.storeOpTime
  repeat' first
    | (with_reducible first | exact hk | assumption | apply Keeps.ite)
    | simp only [Keeps.upd_iff]
    | split
    | dsimp only

theorem execPowerFailWarning_keeps {s0 : State} (s : State) (hk : Keeps s0 s) : KeepsO s0 (execPowerFailWarning s) := by
  unfold execPowerFailWarning
  repeat' first
    | (with_reducible first | exact hk | assumption | apply State.p_keeps | apply State.recordEv_keeps | apply State.event_keeps | apply State.gateFault_keeps | apply State.removeForces_keeps | apply State.resetDies_keeps | apply State.leaveLight_keeps | apply State.storeOpTime_keeps | apply Keeps.ite | apply KeepsO.ite | apply KeepsO.next)
    | simp only [Keeps.upd_iff]
    | split
    | dsimp only

theorem execRstAsserted_keeps {s0 : State} (s : State) (hk : Keeps s0 s) : KeepsO s0 (execRstAsserted s) := by
  unfold execRstAsserted
  repeat' first
    | (with_reducible first | exact hk | assumption | apply State.moduleReset_keeps | apply Keeps.ite | apply KeepsO.ite | apply KeepsO.next)
    | split
    | dsimp only

theorem execHaltLatchClear_keeps {s0 : State} (s : State) (hk : Keeps s0 s) : KeepsO s0 (execHaltLatchClear s) := by
  unfold execHaltLatchClear
  repeat' first
    | (with_reducible first | exact hk | assumption | apply State.p_keeps | apply Keeps.ite | apply KeepsO.ite | apply KeepsO.next)
    | split
    | dsimp only

theorem execSupplyBelowRange_keeps {s0 : State} (i : SupplyIn) (s : State) (hk : Keeps s0 s) : KeepsO s0 (execSupplyBelowRange i s) := by
  unfold execSupplyBelowRange
  repeat' first
    | (with_reducible first | exact hk | assumption | apply State.notice_keeps | apply Keeps.ite | apply KeepsO.ite | apply KeepsO.next)
    | simp only [Keeps.upd_iff]
    | split
    | dsimp only

theorem execSupplyOvervoltage_keeps {s0 : State} (i : SupplyIn) (s : State) (hk : Keeps s0 s) : KeepsO s0 (execSupplyOvervoltage i s) := by
  unfold execSupplyOvervoltage
  repeat' first
    | (with_reducible first | exact hk | assumption | apply Keeps.ite | apply KeepsO.ite | apply KeepsO.next)
    | simp only [Keeps.upd_iff]
    | split
    | dsimp only

theorem execSupplyReconnect_keeps {s0 : State} (i : SupplyIn) (s : State) (hk : Keeps s0 s) : KeepsO s0 (execSupplyReconnect i s) := by
  unfold execSupplyReconnect
  repeat' first
    | (with_reducible first | exact hk | assumption | apply Keeps.ite | apply KeepsO.ite | apply KeepsO.next)
    | simp only [Keeps.upd_iff]
    | split
    | dsimp only

theorem execOperatingTimeStore_keeps {s0 : State} (s : State) (hk : Keeps s0 s) : KeepsO s0 (execOperatingTimeStore s) := by
  unfold execOperatingTimeStore
  repeat' first
    | (with_reducible first | exact hk | assumption | apply State.storeOpTime_keeps | apply Keeps.ite | apply KeepsO.ite | apply KeepsO.next)
    | split
    | dsimp only

theorem execStagingDrain_keeps {s0 : State} (n : Nat) (s : State) (hk : Keeps s0 s) : KeepsO s0 (execStagingDrain n s) := by
  unfold execStagingDrain
  repeat' first
    | (with_reducible first | exact hk | assumption | apply State.evRegs_keeps | apply State.take_keeps | apply Keeps.ite | apply KeepsO.ite | apply KeepsO.next)
    | simp only [Keeps.upd_iff]
    | split
    | dsimp only

theorem execStandbyDomainPowerLoss_keeps {s0 : State} (s : State) (hk : Keeps s0 s) : KeepsO s0 (execStandbyDomainPowerLoss s) := by
  unfold execStandbyDomainPowerLoss
  repeat' first
    | (with_reducible first | exact hk | assumption | apply Keeps.ite | apply KeepsO.ite | apply KeepsO.next)
    | simp only [Keeps.upd_iff]
    | split
    | dsimp only

theorem execTrialTimeout_keeps {s0 : State} (s : State) (hk : Keeps s0 s) : KeepsO s0 (execTrialTimeout s) := by
  unfold execTrialTimeout
  repeat' first
    | (with_reducible first | exact hk | assumption | apply State.moduleReset_keeps | apply State.upFallback_keeps | apply Keeps.ite | apply KeepsO.ite | apply KeepsO.next)
    | split
    | dsimp only

/-! ### Modes -/

theorem execReady_keeps {s0 : State} (s : State) (hk : Keeps s0 s) : KeepsO s0 (execReady s) := by
  unfold execReady
  repeat' first
    | (with_reducible first | exact hk | assumption | apply State.startApp_keeps | apply State.startFailed_keeps | apply Keeps.ite | apply KeepsO.ite | apply KeepsO.next)
    | simp only [Keeps.upd_iff]
    | split
    | dsimp only

theorem execSynchronisingLong_keeps {s0 : State} (s : State) (hk : Keeps s0 s) : KeepsO s0 (execSynchronisingLong s) := by
  unfold execSynchronisingLong
  repeat' first
    | (with_reducible first | exact hk | assumption | apply State.notice_keeps | apply Keeps.ite | apply KeepsO.ite | apply KeepsO.next)
    | split
    | dsimp only

theorem execWakeTrigger_keeps {s0 : State} (w : WakeSrc) (s : State) (hk : Keeps s0 s) : KeepsO s0 (execWakeTrigger w s) := by
  unfold execWakeTrigger
  repeat' first
    | (with_reducible first | exact hk | assumption | apply State.wake_keeps | apply Keeps.ite | apply KeepsO.ite | apply KeepsO.next)
    | simp only [Keeps.upd_iff]
    | split
    | dsimp only

theorem execLaneWakeComplete_keeps {s0 : State} (l : Lane) (s : State) (hk : Keeps s0 s) : KeepsO s0 (execLaneWakeComplete l s) := by
  unfold execLaneWakeComplete
  repeat' first
    | (with_reducible first | exact hk | assumption | apply State.laneWoken_keeps | apply Keeps.ite | apply KeepsO.ite | apply KeepsO.next)
    | split
    | dsimp only

theorem execResumePoint_keeps {s0 : State} (s : State) (hk : Keeps s0 s) : KeepsO s0 (execResumePoint s) := by
  unfold execResumePoint
  repeat' first
    | (with_reducible first | exact hk | assumption | apply State.resume_keeps | apply Keeps.ite | apply KeepsO.ite | apply KeepsO.next)
    | split
    | dsimp only

theorem execLeaseEnd_keeps {s0 : State} (s : State) (hk : Keeps s0 s) : KeepsO s0 (execLeaseEnd s) := by
  unfold execLeaseEnd
  repeat' first
    | (with_reducible first | exact hk | assumption | apply State.event_keeps | apply State.notice_keeps | apply State.gate_keeps | apply State.setMode_keeps | apply State.leaveLight_keeps | apply State.parkNow_keeps | apply Keeps.ite | apply KeepsO.ite | apply KeepsO.next)
    | simp only [Keeps.upd_iff]
    | split
    | dsimp only

theorem State.laneCopy_keeps {s0 : State} (s : State) (cells : List (Nat × Byte)) (l : Nat) (hk : Keeps s0 s) : Keeps s0 (State.laneCopy s cells l) := by
  unfold State.laneCopy
  refine Keeps.modLane _ _ ?_ (fun _ hw => hw)
  unfold State.modLane
  exact Keeps.setLane _ _ hk (fun c => Memory.wf_foldl_wr _ (State.lane_wf c l))

theorem State.takeCopy_keeps {s0 : State} (s : State) (u : UnitCopy) (hk : Keeps s0 s) : Keeps s0 (State.takeCopy s u) := by
  unfold State.takeCopy
  repeat' first
    | (with_reducible first | exact hk | assumption | apply State.modTask_keeps | apply State.laneCopy_keeps | apply Keeps.ite)
    | (with_reducible apply Keeps.foldl; intro _ _ _)
    | simp only [Keeps.upd_iff]
    | split
    | dsimp only

theorem execUnitResyncComplete_keeps {s0 : State} (s : State) (hk : Keeps s0 s) : KeepsO s0 (execUnitResyncComplete s) := by
  unfold execUnitResyncComplete
  repeat' first
    | (with_reducible first | exact hk | assumption | apply State.p_keeps | apply State.takeCopy_keeps | apply Keeps.ite | apply KeepsO.ite | apply KeepsO.next)
    | simp only [Keeps.upd_iff]
    | split
    | dsimp only

theorem execTapMismatch_keeps {s0 : State} (port : Fin 256) (depth1 : Bool) (s : State) (hk : Keeps s0 s) : KeepsO s0 (execTapMismatch port depth1 s) := by
  unfold execTapMismatch
  repeat' first
    | (with_reducible first | exact hk | assumption | apply State.failCheck_keeps | apply Keeps.ite | apply KeepsO.ite | apply KeepsO.next)
    | split
    | dsimp only

theorem execTapInstructionLoad_keeps {s0 : State} (d : DieTap) (code : Nat) (s : State) (hk : Keeps s0 s) : KeepsO s0 (execTapInstructionLoad d code s) := by
  unfold execTapInstructionLoad
  repeat' first
    | (with_reducible first | exact hk | assumption | apply Keeps.ite | apply KeepsO.ite | apply KeepsO.next)
    | simp only [Keeps.upd_iff]
    | split
    | dsimp only

theorem execDebugHaltRequest_keeps {s0 : State} (l : Lane) (c : Core) (s : State) (hk : Keeps s0 s) : KeepsO s0 (execDebugHaltRequest l c s) := by
  unfold execDebugHaltRequest
  repeat' first
    | (with_reducible first | exact hk | assumption | apply Keeps.ite | apply KeepsO.ite | apply KeepsO.next)
    | (with_reducible apply Keeps.modLane <;> [skip; exact fun _ hw => hw])
    | simp only [Keeps.upd_iff]
    | split
    | dsimp only

theorem execProbePresentChange_keeps {s0 : State} (present : Bool) (s : State) (hk : Keeps s0 s) : KeepsO s0 (execProbePresentChange present s) := by
  unfold execProbePresentChange
  repeat' first
    | (with_reducible first | exact hk | assumption | apply Keeps.ite | apply KeepsO.ite | apply KeepsO.next)
    | simp only [Keeps.upd_iff]
    | split
    | dsimp only

/-! ### CmdA -/

theorem CmdRes.read_keeps {s0 : State} (s : State) (out : List Byte) (hk : Keeps s0 s) : KeepsR s0 (CmdRes.read s out) := by
  unfold CmdRes.read
  repeat' first
    | (with_reducible first | exact hk | assumption | apply Keeps.ite | apply KeepsR.ite | apply KeepsR.ok | apply KeepsR.okReset | apply KeepsR.no | apply KeepsR.later | apply CmdRes.read_keeps | apply CmdRes.done_keeps | apply CmdRes.idle_keeps)
    | split
    | dsimp only

theorem CmdRes.done_keeps {s0 : State} (s : State) (hk : Keeps s0 s) : KeepsR s0 (CmdRes.done s) := by
  unfold CmdRes.done
  repeat' first
    | (with_reducible first | exact hk | assumption | apply Keeps.ite | apply KeepsR.ite | apply KeepsR.ok | apply KeepsR.okReset | apply KeepsR.no | apply KeepsR.later | apply CmdRes.read_keeps | apply CmdRes.done_keeps | apply CmdRes.idle_keeps)
    | split
    | dsimp only

theorem CmdRes.idle_keeps {s0 : State} (s : State) (hk : Keeps s0 s) : KeepsR s0 (CmdRes.idle s) := by
  unfold CmdRes.idle
  repeat' first
    | (with_reducible first | exact hk | assumption | apply Keeps.ite | apply KeepsR.ite | apply KeepsR.ok | apply KeepsR.okReset | apply KeepsR.no | apply KeepsR.later | apply CmdRes.read_keeps | apply CmdRes.done_keeps | apply CmdRes.idle_keeps)
    | split
    | dsimp only

theorem State.setAside_keeps {s0 : State} (s : State) (code : Nat) (i : CmdIn) (hk : Keeps s0 s) : Keeps s0 (State.setAside s code i) := by
  unfold State.setAside
  repeat' first
    | (with_reducible first | exact hk | assumption | apply State.p_keeps | apply Keeps.ite)
    | simp only [Keeps.upd_iff]
    | split
    | dsimp only

theorem State.inhibit_keeps {s0 : State} (s : State) (hk : Keeps s0 s) : Keeps s0 (State.inhibit s) := by
  unfold State.inhibit
  repeat' first
    | (with_reducible first | exact hk | assumption | apply State.p_keeps | apply Keeps.ite)
    | (with_reducible apply Keeps.foldl; intro _ _ _)
    | split
    | dsimp only

theorem State.cmdModReset_keeps {s0 : State} (s : State) (i : CmdIn) (hk : Keeps s0 s) : KeepsR s0 (State.cmdModReset s i) := by
  unfold State.cmdModReset
  repeat' first
    | (with_reducible first | exact hk | assumption | apply Keeps.ite | apply KeepsR.ite | apply KeepsR.ok | apply KeepsR.okReset | apply KeepsR.no | apply KeepsR.later | apply CmdRes.read_keeps | apply CmdRes.done_keeps | apply CmdRes.idle_keeps)
    | split
    | dsimp only

theorem State.cmdModIdentify_keeps {s0 : State} (s : State) (_i : CmdIn) (hk : Keeps s0 s) : KeepsR s0 (State.cmdModIdentify s _i) := by
  unfold State.cmdModIdentify
  repeat' first
    | (with_reducible first | exact hk | assumption | apply CmdRes.read_keeps | apply Keeps.ite | apply KeepsR.ite | apply KeepsR.ok | apply KeepsR.okReset | apply KeepsR.no | apply KeepsR.later | apply CmdRes.read_keeps | apply CmdRes.done_keeps | apply CmdRes.idle_keeps)
    | split
    | dsimp only

theorem State.cmdModStatus_keeps {s0 : State} (s : State) (_i : CmdIn) (hk : Keeps s0 s) : KeepsR s0 (State.cmdModStatus s _i) := by
  unfold State.cmdModStatus
  repeat' first
    | (with_reducible first | exact hk | assumption | apply CmdRes.read_keeps | apply Keeps.ite | apply KeepsR.ite | apply KeepsR.ok | apply KeepsR.okReset | apply KeepsR.no | apply KeepsR.later | apply CmdRes.read_keeps | apply CmdRes.done_keeps | apply CmdRes.idle_keeps)
    | split
    | dsimp only

theorem State.toSync_keeps {s0 : State} (s : State) (i : CmdIn) (hk : Keeps s0 s) : KeepsR s0 (State.toSync s i) := by
  unfold State.toSync
  repeat' first
    | (with_reducible first | exact hk | assumption | apply State.syncEntry_keeps | apply State.enterMode_keeps | apply State.wake_keeps | apply CmdRes.done_keeps | apply Keeps.ite | apply KeepsR.ite | apply KeepsR.ok | apply KeepsR.okReset | apply KeepsR.no | apply KeepsR.later | apply CmdRes.read_keeps | apply CmdRes.done_keeps | apply CmdRes.idle_keeps)
    | simp only [Keeps.upd_iff]
    | split
    | dsimp only

theorem State.toParked_keeps {s0 : State} (s : State) (i : CmdIn) (hk : Keeps s0 s) : KeepsR s0 (State.toParked s i) := by
  unfold State.toParked
  repeat' first
    | (with_reducible first | exact hk | assumption | apply State.setAside_keeps | apply Keeps.ite | apply KeepsR.ite | apply KeepsR.ok | apply KeepsR.okReset | apply KeepsR.no | apply KeepsR.later | apply CmdRes.read_keeps | apply CmdRes.done_keeps | apply CmdRes.idle_keeps)
    | simp only [Keeps.upd_iff]
    | split
    | dsimp only

theorem State.cmdModSetmode_keeps {s0 : State} (s : State) (i : CmdIn) (hk : Keeps s0 s) : KeepsR s0 (State.cmdModSetmode s i) := by
  unfold State.cmdModSetmode
  repeat' first
    | (with_reducible first | exact hk | assumption | apply State.p_keeps | apply State.enterMode_keeps | apply CmdRes.done_keeps | apply CmdRes.idle_keeps | apply State.toSync_keeps | apply State.toParked_keeps | apply Keeps.ite | apply KeepsR.ite | apply KeepsR.ok | apply KeepsR.okReset | apply KeepsR.no | apply KeepsR.later | apply CmdRes.read_keeps | apply CmdRes.done_keeps | apply CmdRes.idle_keeps)
    | split
    | dsimp only

theorem State.putTag_keeps {s0 : State} (s : State) (o : Nat) (b : Byte) (hk : Keeps s0 s) : Keeps s0 (State.putTag s o b) := by
  unfold State.putTag
  repeat' first
    | (with_reducible first | exact hk | assumption | apply Keeps.ite)
    | simp only [Keeps.upd_iff]
    | simp only [Keeps.regs_iff]
    | (with_reducible apply Keeps.setRegs <;> [skip; exact fun hw => by simp [hw, Regs.wf_wr, Regs.wf_p, tabWf_filter]])
    | split
    | dsimp only

theorem State.cmdModTagRead_keeps {s0 : State} (s : State) (i : CmdIn) (hk : Keeps s0 s) : KeepsR s0 (State.cmdModTagRead s i) := by
  unfold State.cmdModTagRead
  repeat' first
    | (with_reducible first | exact hk | assumption | apply State.p_keeps | apply State.take_keeps | apply CmdRes.read_keeps | apply Keeps.ite | apply KeepsR.ite | apply KeepsR.ok | apply KeepsR.okReset | apply KeepsR.no | apply KeepsR.later | apply CmdRes.read_keeps | apply CmdRes.done_keeps | apply CmdRes.idle_keeps)
    | split
    | dsimp only

theorem State.cmdModTagWrite_keeps {s0 : State} (s : State) (i : CmdIn) (hk : Keeps s0 s) : KeepsR s0 (State.cmdModTagWrite s i) := by
  unfold State.cmdModTagWrite
  repeat' first
    | (with_reducible first | exact hk | assumption | apply State.p_keeps | apply CmdRes.done_keeps | apply State.putTag_keeps | apply Keeps.ite | apply KeepsR.ite | apply KeepsR.ok | apply KeepsR.okReset | apply KeepsR.no | apply KeepsR.later | apply CmdRes.read_keeps | apply CmdRes.done_keeps | apply CmdRes.idle_keeps)
    | (with_reducible apply Keeps.foldl; intro _ _ _)
    | split
    | dsimp only

theorem State.cmdModWakecfg_keeps {s0 : State} (s : State) (i : CmdIn) (hk : Keeps s0 s) : KeepsR s0 (State.cmdModWakecfg s i) := by
  unfold State.cmdModWakecfg
  repeat' first
    | (with_reducible first | exact hk | assumption | apply State.p_keeps | apply State.wake_keeps | apply State.applyWake_keeps | apply State.stamp_keeps | apply CmdRes.done_keeps | apply Keeps.ite | apply KeepsR.ite | apply KeepsR.ok | apply KeepsR.okReset | apply KeepsR.no | apply KeepsR.later | apply CmdRes.read_keeps | apply CmdRes.done_keeps | apply CmdRes.idle_keeps)
    | simp only [Keeps.upd_iff]
    | split
    | (with_reducible refine KeepsOpt.of ?_ (by assumption))
    | dsimp only

theorem State.setStaged_keeps {s0 : State} (s : State) (a : Nat) (m : Mem) (n : Nat) (hk : Keeps s0 s) : Keeps s0 (State.setStaged s a m n) := by
  unfold State.setStaged
  repeat' first
    | (with_reducible first | exact hk | assumption | apply Keeps.ite)
    | simp only [Keeps.upd_iff]
    | split
    | dsimp only

theorem State.cmdAppStage_keeps {s0 : State} (s : State) (i : CmdIn) (hk : Keeps s0 s) : KeepsR s0 (State.cmdAppStage s i) := by
  unfold State.cmdAppStage
  repeat' first
    | (with_reducible first | exact hk | assumption | apply State.p_keeps | apply CmdRes.idle_keeps | apply State.setStaged_keeps | apply Keeps.ite | apply KeepsR.ite | apply KeepsR.ok | apply KeepsR.okReset | apply KeepsR.no | apply KeepsR.later | apply CmdRes.read_keeps | apply CmdRes.done_keeps | apply CmdRes.idle_keeps)
    | split
    | dsimp only

theorem State.cmdAppLoad_keeps {s0 : State} (s : State) (i : CmdIn) (hk : Keeps s0 s) : KeepsR s0 (State.cmdAppLoad s i) := by
  unfold State.cmdAppLoad
  repeat' first
    | (with_reducible first | exact hk | assumption | apply State.p_keeps | apply State.placeStored_keeps | apply Keeps.ite | apply KeepsR.ite | apply KeepsR.ok | apply KeepsR.okReset | apply KeepsR.no | apply KeepsR.later | apply CmdRes.read_keeps | apply CmdRes.done_keeps | apply CmdRes.idle_keeps)
    | simp only [Keeps.upd_iff]
    | split
    | dsimp only

theorem State.startFor_keeps {s0 : State} (s : State) (i : CmdIn) (hk : Keeps s0 s) : Keeps s0 (State.startFor s i) := by
  unfold State.startFor
  repeat' first
    | (with_reducible first | exact hk | assumption | apply State.p_keeps | apply State.startApp_keeps | apply Keeps.ite)
    | simp only [Keeps.upd_iff]
    | split
    | dsimp only

theorem State.cmdAppStart_keeps {s0 : State} (s : State) (i : CmdIn) (hk : Keeps s0 s) : KeepsR s0 (State.cmdAppStart s i) := by
  unfold State.cmdAppStart
  repeat' first
    | (with_reducible first | exact hk | assumption | apply State.p_keeps | apply CmdRes.idle_keeps | apply State.startFor_keeps | apply Keeps.ite | apply KeepsR.ite | apply KeepsR.ok | apply KeepsR.okReset | apply KeepsR.no | apply KeepsR.later | apply CmdRes.read_keeps | apply CmdRes.done_keeps | apply CmdRes.idle_keeps)
    | simp only [Keeps.upd_iff]
    | split
    | dsimp only

theorem State.cmdAppStop_keeps {s0 : State} (s : State) (_i : CmdIn) (hk : Keeps s0 s) : KeepsR s0 (State.cmdAppStop s _i) := by
  unfold State.cmdAppStop
  repeat' first
    | (with_reducible first | exact hk | assumption | apply State.abortWaiting_keeps | apply State.appStop_keeps | apply CmdRes.done_keeps | apply CmdRes.idle_keeps | apply Keeps.ite | apply KeepsR.ite | apply KeepsR.ok | apply KeepsR.okReset | apply KeepsR.no | apply KeepsR.later | apply CmdRes.read_keeps | apply CmdRes.done_keeps | apply CmdRes.idle_keeps)
    | split
    | dsimp only

theorem State.cmdAppRestart_keeps {s0 : State} (s : State) (i : CmdIn) (hk : Keeps s0 s) : KeepsR s0 (State.cmdAppRestart s i) := by
  unfold State.cmdAppRestart
  repeat' first
    | (with_reducible first | exact hk | assumption | apply State.p_keeps | apply State.abortWaiting_keeps | apply State.appStop_keeps | apply State.startFor_keeps | apply Keeps.ite | apply KeepsR.ite | apply KeepsR.ok | apply KeepsR.okReset | apply KeepsR.no | apply KeepsR.later | apply CmdRes.read_keeps | apply CmdRes.done_keeps | apply CmdRes.idle_keeps)
    | split
    | dsimp only

theorem State.cmdAppNextstart_keeps {s0 : State} (s : State) (i : CmdIn) (hk : Keeps s0 s) : KeepsR s0 (State.cmdAppNextstart s i) := by
  unfold State.cmdAppNextstart
  repeat' first
    | (with_reducible first | exact hk | assumption | apply State.p_keeps | apply Keeps.ite | apply KeepsR.ite | apply KeepsR.ok | apply KeepsR.okReset | apply KeepsR.no | apply KeepsR.later | apply CmdRes.read_keeps | apply CmdRes.done_keeps | apply CmdRes.idle_keeps)
    | split
    | dsimp only

theorem State.cmdAppOlcLoad_keeps {s0 : State} (s : State) (i : CmdIn) (hk : Keeps s0 s) : KeepsR s0 (State.cmdAppOlcLoad s i) := by
  unfold State.cmdAppOlcLoad
  repeat' first
    | (with_reducible first | exact hk | assumption | apply State.p_keeps | apply Keeps.ite | apply KeepsR.ite | apply KeepsR.ok | apply KeepsR.okReset | apply KeepsR.no | apply KeepsR.later | apply CmdRes.read_keeps | apply CmdRes.done_keeps | apply CmdRes.idle_keeps)
    | simp only [Keeps.upd_iff]
    | split
    | dsimp only

theorem State.cmdAppOlcApply_keeps {s0 : State} (s : State) (i : CmdIn) (hk : Keeps s0 s) : KeepsR s0 (State.cmdAppOlcApply s i) := by
  unfold State.cmdAppOlcApply
  repeat' first
    | (with_reducible first | exact hk | assumption | apply State.p_keeps | apply State.setAside_keeps | apply State.inhibit_keeps | apply Keeps.ite | apply KeepsR.ite | apply KeepsR.ok | apply KeepsR.okReset | apply KeepsR.no | apply KeepsR.later | apply CmdRes.read_keeps | apply CmdRes.done_keeps | apply CmdRes.idle_keeps)
    | split
    | dsimp only

theorem State.cmdPairSplit_keeps {s0 : State} (s : State) (i : CmdIn) (hk : Keeps s0 s) : KeepsR s0 (State.cmdPairSplit s i) := by
  unfold State.cmdPairSplit
  repeat' first
    | (with_reducible first | exact hk | assumption | apply State.p_keeps | apply CmdRes.idle_keeps | apply State.setAside_keeps | apply State.inhibit_keeps | apply Keeps.ite | apply KeepsR.ite | apply KeepsR.ok | apply KeepsR.okReset | apply KeepsR.no | apply KeepsR.later | apply CmdRes.read_keeps | apply CmdRes.done_keeps | apply CmdRes.idle_keeps)
    | split
    | dsimp only

theorem State.cmdPairJoin_keeps {s0 : State} (s : State) (i : CmdIn) (hk : Keeps s0 s) : KeepsR s0 (State.cmdPairJoin s i) := by
  unfold State.cmdPairJoin
  repeat' first
    | (with_reducible first | exact hk | assumption | apply State.p_keeps | apply CmdRes.idle_keeps | apply State.setAside_keeps | apply State.inhibit_keeps | apply Keeps.ite | apply KeepsR.ite | apply KeepsR.ok | apply KeepsR.okReset | apply KeepsR.no | apply KeepsR.later | apply CmdRes.read_keeps | apply CmdRes.done_keeps | apply CmdRes.idle_keeps)
    | split
    | dsimp only

theorem State.cmdAppStatus_keeps {s0 : State} (s : State) (_i : CmdIn) (hk : Keeps s0 s) : KeepsR s0 (State.cmdAppStatus s _i) := by
  unfold State.cmdAppStatus
  repeat' first
    | (with_reducible first | exact hk | assumption | apply CmdRes.read_keeps | apply Keeps.ite | apply KeepsR.ite | apply KeepsR.ok | apply KeepsR.okReset | apply KeepsR.no | apply KeepsR.later | apply CmdRes.read_keeps | apply CmdRes.done_keeps | apply CmdRes.idle_keeps)
    | split
    | dsimp only

theorem State.cmdForceSet_keeps {s0 : State} (s : State) (i : CmdIn) (hk : Keeps s0 s) : KeepsR s0 (State.cmdForceSet s i) := by
  unfold State.cmdForceSet
  repeat' first
    | (with_reducible first | exact hk | assumption | apply State.p_keeps | apply State.recordEv_keeps | apply State.markForce_keeps | apply State.predValid_keeps | apply CmdRes.done_keeps | apply CmdRes.idle_keeps | apply Keeps.ite | apply KeepsR.ite | apply KeepsR.ok | apply KeepsR.okReset | apply KeepsR.no | apply KeepsR.later | apply CmdRes.read_keeps | apply CmdRes.done_keeps | apply CmdRes.idle_keeps)
    | simp only [Keeps.upd_iff]
    | split
    | dsimp only

theorem State.cmdForceClear_keeps {s0 : State} (s : State) (i : CmdIn) (hk : Keeps s0 s) : KeepsR s0 (State.cmdForceClear s i) := by
  unfold State.cmdForceClear
  repeat' first
    | (with_reducible first | exact hk | assumption | apply State.p_keeps | apply State.removeForces_keeps | apply CmdRes.done_keeps | apply CmdRes.idle_keeps | apply Keeps.ite | apply KeepsR.ite | apply KeepsR.ok | apply KeepsR.okReset | apply KeepsR.no | apply KeepsR.later | apply CmdRes.read_keeps | apply CmdRes.done_keeps | apply CmdRes.idle_keeps)
    | split
    | dsimp only

theorem State.cmdForceClearall_keeps {s0 : State} (s : State) (_i : CmdIn) (hk : Keeps s0 s) : KeepsR s0 (State.cmdForceClearall s _i) := by
  unfold State.cmdForceClearall
  repeat' first
    | (with_reducible first | exact hk | assumption | apply State.removeForces_keeps | apply CmdRes.done_keeps | apply CmdRes.idle_keeps | apply Keeps.ite | apply KeepsR.ite | apply KeepsR.ok | apply KeepsR.okReset | apply KeepsR.no | apply KeepsR.later | apply CmdRes.read_keeps | apply CmdRes.done_keeps | apply CmdRes.idle_keeps)
    | split
    | dsimp only

theorem State.cmdForceList_keeps {s0 : State} (s : State) (i : CmdIn) (hk : Keeps s0 s) : KeepsR s0 (State.cmdForceList s i) := by
  unfold State.cmdForceList
  repeat' first
    | (with_reducible first | exact hk | assumption | apply State.p_keeps | apply State.take_keeps | apply CmdRes.read_keeps | apply Keeps.ite | apply KeepsR.ite | apply KeepsR.ok | apply KeepsR.okReset | apply KeepsR.no | apply KeepsR.later | apply CmdRes.read_keeps | apply CmdRes.done_keeps | apply CmdRes.idle_keeps)
    | split
    | dsimp only

theorem State.cmdTimeConfig_keeps {s0 : State} (s : State) (i : CmdIn) (hk : Keeps s0 s) : KeepsR s0 (State.cmdTimeConfig s i) := by
  unfold State.cmdTimeConfig
  repeat' first
    | (with_reducible first | exact hk | assumption | apply State.p_keeps | apply State.applyTime_keeps | apply State.stamp_keeps | apply CmdRes.done_keeps | apply Keeps.ite | apply KeepsR.ite | apply KeepsR.ok | apply KeepsR.okReset | apply KeepsR.no | apply KeepsR.later | apply CmdRes.read_keeps | apply CmdRes.done_keeps | apply CmdRes.idle_keeps)
    | simp only [Keeps.upd_iff]
    | split
    | (with_reducible refine KeepsOpt.of ?_ (by assumption))
    | dsimp only

theorem State.cmdTimeTrigger_keeps {s0 : State} (s : State) (i : CmdIn) (hk : Keeps s0 s) : KeepsR s0 (State.cmdTimeTrigger s i) := by
  unfold State.cmdTimeTrigger
  repeat' first
    | (with_reducible first | exact hk | assumption | apply State.p_keeps | apply State.applyTrig_keeps | apply State.trigTick_keeps | apply State.stamp_keeps | apply CmdRes.done_keeps | apply Keeps.ite | apply KeepsR.ite | apply KeepsR.ok | apply KeepsR.okReset | apply KeepsR.no | apply KeepsR.later | apply CmdRes.read_keeps | apply CmdRes.done_keeps | apply CmdRes.idle_keeps)
    | simp only [Keeps.upd_iff]
    | split
    | (with_reducible refine KeepsOpt.of ?_ (by assumption))
    | dsimp only

theorem State.cmdTimeCapture_keeps {s0 : State} (s : State) (i : CmdIn) (hk : Keeps s0 s) : KeepsR s0 (State.cmdTimeCapture s i) := by
  unfold State.cmdTimeCapture
  repeat' first
    | (with_reducible first | exact hk | assumption | apply State.p_keeps | apply State.applyCap_keeps | apply State.stamp_keeps | apply CmdRes.done_keeps | apply Keeps.ite | apply KeepsR.ite | apply KeepsR.ok | apply KeepsR.okReset | apply KeepsR.no | apply KeepsR.later | apply CmdRes.read_keeps | apply CmdRes.done_keeps | apply CmdRes.idle_keeps)
    | simp only [Keeps.upd_iff]
    | split
    | (with_reducible refine KeepsOpt.of ?_ (by assumption))
    | dsimp only

theorem State.cmdTimeStatus_keeps {s0 : State} (s : State) (_i : CmdIn) (hk : Keeps s0 s) : KeepsR s0 (State.cmdTimeStatus s _i) := by
  unfold State.cmdTimeStatus
  repeat' first
    | (with_reducible first | exact hk | assumption | apply State.snapshot_keeps | apply CmdRes.read_keeps | apply Keeps.ite | apply KeepsR.ite | apply KeepsR.ok | apply KeepsR.okReset | apply KeepsR.no | apply KeepsR.later | apply CmdRes.read_keeps | apply CmdRes.done_keeps | apply CmdRes.idle_keeps)
    | split
    | dsimp only

end Sys2Proof.Machine
end

