-- ==== Sys2Proof/Laws/Keep10.lean ====
section
/-! SUPPORT. What every operation keeps of a state (`Keeps`): those of Machine/CmdB.lean, FaultRows.lean, CmdC.lean, CmdRun.lean. -/

set_option linter.all false

namespace Sys2Proof.Machine
open Sys2Proof.Safety

/-! ### CmdB -/

theorem State.setRingCfg_keeps {s0 : State} (s : State) (r : Nat) (c : Option RingCfg) (hk : Keeps s0 s) : Keeps s0 (State.setRingCfg s r c) := by
  unfold State.setRingCfg
  repeat' first
    | (with_reducible first | exact hk | assumption | apply Keeps.ite)
    | simp only [Keeps.upd_iff]
    | split
    | dsimp only

theorem State.cmdRingSched_keeps {s0 : State} (s : State) (i : CmdIn) (hk : Keeps s0 s) : KeepsR s0 (State.cmdRingSched s i) := by
  unfold State.cmdRingSched
  repeat' first
    | (with_reducible first | exact hk | assumption | apply State.p_keeps | apply State.modRing_keeps | apply CmdRes.idle_keeps | apply Keeps.ite | apply KeepsR.ite | apply KeepsR.ok | apply KeepsR.okReset | apply KeepsR.no | apply KeepsR.later | apply CmdRes.read_keeps | apply CmdRes.done_keeps | apply CmdRes.idle_keeps)
    | (with_reducible apply Keeps.foldl; intro _ _ _)
    | simp only [Keeps.upd_iff]
    | split
    | dsimp only

theorem State.cmdRingCommit_keeps {s0 : State} (s : State) (i : CmdIn) (hk : Keeps s0 s) : KeepsR s0 (State.cmdRingCommit s i) := by
  unfold State.cmdRingCommit
  repeat' first
    | (with_reducible first | exact hk | assumption | apply State.p_keeps | apply State.modRing_keeps | apply State.stamp_keeps | apply State.unstamp_keeps | apply State.setRingCfg_keeps | apply Keeps.ite | apply KeepsR.ite | apply KeepsR.ok | apply KeepsR.okReset | apply KeepsR.no | apply KeepsR.later | apply CmdRes.read_keeps | apply CmdRes.done_keeps | apply CmdRes.idle_keeps)
    | simp only [Keeps.upd_iff]
    | split
    | dsimp only

theorem State.cmdRingStatus_keeps {s0 : State} (s : State) (i : CmdIn) (hk : Keeps s0 s) : KeepsR s0 (State.cmdRingStatus s i) := by
  unfold State.cmdRingStatus
  repeat' first
    | (with_reducible first | exact hk | assumption | apply State.p_keeps | apply CmdRes.read_keeps | apply Keeps.ite | apply KeepsR.ite | apply KeepsR.ok | apply KeepsR.okReset | apply KeepsR.no | apply KeepsR.later | apply CmdRes.read_keeps | apply CmdRes.done_keeps | apply CmdRes.idle_keeps)
    | split
    | dsimp only

theorem State.cmdEthConfig_keeps {s0 : State} (s : State) (i : CmdIn) (hk : Keeps s0 s) : KeepsR s0 (State.cmdEthConfig s i) := by
  unfold State.cmdEthConfig
  repeat' first
    | (with_reducible first | exact hk | assumption | apply State.p_keeps | apply State.applyEth_keeps | apply State.stamp_keeps | apply CmdRes.done_keeps | apply Keeps.ite | apply KeepsR.ite | apply KeepsR.ok | apply KeepsR.okReset | apply KeepsR.no | apply KeepsR.later | apply CmdRes.read_keeps | apply CmdRes.done_keeps | apply CmdRes.idle_keeps)
    | simp only [Keeps.upd_iff]
    | split
    | (with_reducible refine KeepsOpt.of ?_ (by assumption))
    | dsimp only

theorem State.cmdEthStatus_keeps {s0 : State} (s : State) (_i : CmdIn) (hk : Keeps s0 s) : KeepsR s0 (State.cmdEthStatus s _i) := by
  unfold State.cmdEthStatus
  repeat' first
    | (with_reducible first | exact hk | assumption | apply CmdRes.read_keeps | apply Keeps.ite | apply KeepsR.ite | apply KeepsR.ok | apply KeepsR.okReset | apply KeepsR.no | apply KeepsR.later | apply CmdRes.read_keeps | apply CmdRes.done_keeps | apply CmdRes.idle_keeps)
    | split
    | dsimp only

theorem State.cmdSafeLoad_keeps {s0 : State} (s : State) (i : CmdIn) (hk : Keeps s0 s) : KeepsR s0 (State.cmdSafeLoad s i) := by
  unfold State.cmdSafeLoad
  repeat' first
    | (with_reducible first | exact hk | assumption | apply State.p_keeps | apply State.evalSeal_keeps | apply State.loadSafe_keeps | apply Keeps.ite | apply KeepsR.ite | apply KeepsR.ok | apply KeepsR.okReset | apply KeepsR.no | apply KeepsR.later | apply CmdRes.read_keeps | apply CmdRes.done_keeps | apply CmdRes.idle_keeps)
    | simp only [Keeps.upd_iff]
    | split
    | dsimp only

theorem State.cmdSealAccept_keeps {s0 : State} (s : State) (_i : CmdIn) (hk : Keeps s0 s) : KeepsR s0 (State.cmdSealAccept s _i) := by
  unfold State.cmdSealAccept
  repeat' first
    | (with_reducible first | exact hk | assumption | apply State.p_keeps | apply State.recordEv_keeps | apply State.evalSeal_keeps | apply State.driveFuncs_keeps | apply Keeps.ite | apply KeepsR.ite | apply KeepsR.ok | apply KeepsR.okReset | apply KeepsR.no | apply KeepsR.later | apply CmdRes.read_keeps | apply CmdRes.done_keeps | apply CmdRes.idle_keeps)
    | simp only [Keeps.upd_iff]
    | split
    | dsimp only

theorem State.cmdScAck_keeps {s0 : State} (s : State) (i : CmdIn) (hk : Keeps s0 s) : KeepsR s0 (State.cmdScAck s i) := by
  unfold State.cmdScAck
  repeat' first
    | (with_reducible first | exact hk | assumption | apply State.p_keeps | apply State.modRx_keeps | apply Keeps.ite | apply KeepsR.ite | apply KeepsR.ok | apply KeepsR.okReset | apply KeepsR.no | apply KeepsR.later | apply CmdRes.read_keeps | apply CmdRes.done_keeps | apply CmdRes.idle_keeps)
    | (with_reducible apply Keeps.foldl; intro _ _ _)
    | simp only [Keeps.upd_iff]
    | split
    | dsimp only

theorem State.cmdSafeStatus_keeps {s0 : State} (s : State) (_i : CmdIn) (hk : Keeps s0 s) : KeepsR s0 (State.cmdSafeStatus s _i) := by
  unfold State.cmdSafeStatus
  repeat' first
    | (with_reducible first | exact hk | assumption | apply CmdRes.read_keeps | apply Keeps.ite | apply KeepsR.ite | apply KeepsR.ok | apply KeepsR.okReset | apply KeepsR.no | apply KeepsR.later | apply CmdRes.read_keeps | apply CmdRes.done_keeps | apply CmdRes.idle_keeps)
    | split
    | dsimp only

theorem State.cmdFioConfig_keeps {s0 : State} (s : State) (i : CmdIn) (hk : Keeps s0 s) : KeepsR s0 (State.cmdFioConfig s i) := by
  unfold State.cmdFioConfig
  repeat' first
    | (with_reducible first | exact hk | assumption | apply State.p_keeps | apply State.applyFio_keeps | apply State.stamp_keeps | apply CmdRes.done_keeps | apply Keeps.ite | apply KeepsR.ite | apply KeepsR.ok | apply KeepsR.okReset | apply KeepsR.no | apply KeepsR.later | apply CmdRes.read_keeps | apply CmdRes.done_keeps | apply CmdRes.idle_keeps)
    | simp only [Keeps.upd_iff]
    | split
    | (with_reducible refine KeepsOpt.of ?_ (by assumption))
    | dsimp only

theorem State.cmdFioRelease_keeps {s0 : State} (s : State) (i : CmdIn) (hk : Keeps s0 s) : KeepsR s0 (State.cmdFioRelease s i) := by
  unfold State.cmdFioRelease
  repeat' first
    | (with_reducible first | exact hk | assumption | apply State.p_keeps | apply State.release_keeps | apply Keeps.ite | apply KeepsR.ite | apply KeepsR.ok | apply KeepsR.okReset | apply KeepsR.no | apply KeepsR.later | apply CmdRes.read_keeps | apply CmdRes.done_keeps | apply CmdRes.idle_keeps)
    | split
    | dsimp only

theorem State.cmdFioStatus_keeps {s0 : State} (s : State) (_i : CmdIn) (hk : Keeps s0 s) : KeepsR s0 (State.cmdFioStatus s _i) := by
  unfold State.cmdFioStatus
  repeat' first
    | (with_reducible first | exact hk | assumption | apply CmdRes.read_keeps | apply Keeps.ite | apply KeepsR.ite | apply KeepsR.ok | apply KeepsR.okReset | apply KeepsR.no | apply KeepsR.later | apply CmdRes.read_keeps | apply CmdRes.done_keeps | apply CmdRes.idle_keeps)
    | simp only [Keeps.upd_iff]
    | split
    | dsimp only

theorem State.cmdUnitConfig_keeps {s0 : State} (s : State) (i : CmdIn) (hk : Keeps s0 s) : KeepsR s0 (State.cmdUnitConfig s i) := by
  unfold State.cmdUnitConfig
  repeat' first
    | (with_reducible first | exact hk | assumption | apply State.p_keeps | apply State.stamp_keeps | apply State.unstamp_keeps | apply CmdRes.done_keeps | apply CmdRes.idle_keeps | apply Keeps.ite | apply KeepsR.ite | apply KeepsR.ok | apply KeepsR.okReset | apply KeepsR.no | apply KeepsR.later | apply CmdRes.read_keeps | apply CmdRes.done_keeps | apply CmdRes.idle_keeps)
    | simp only [Keeps.upd_iff]
    | split
    | dsimp only

theorem State.cmdUnitHandover_keeps {s0 : State} (s : State) (i : CmdIn) (hk : Keeps s0 s) : KeepsR s0 (State.cmdUnitHandover s i) := by
  unfold State.cmdUnitHandover
  repeat' first
    | (with_reducible first | exact hk | assumption | apply State.p_keeps | apply Keeps.ite | apply KeepsR.ite | apply KeepsR.ok | apply KeepsR.okReset | apply KeepsR.no | apply KeepsR.later | apply CmdRes.read_keeps | apply CmdRes.done_keeps | apply CmdRes.idle_keeps)
    | simp only [Keeps.upd_iff]
    | split
    | dsimp only

theorem State.cmdUnitWitness_keeps {s0 : State} (s : State) (i : CmdIn) (hk : Keeps s0 s) : KeepsR s0 (State.cmdUnitWitness s i) := by
  unfold State.cmdUnitWitness
  repeat' first
    | (with_reducible first | exact hk | assumption | apply State.p_keeps | apply State.stamp_keeps | apply CmdRes.done_keeps | apply Keeps.ite | apply KeepsR.ite | apply KeepsR.ok | apply KeepsR.okReset | apply KeepsR.no | apply KeepsR.later | apply CmdRes.read_keeps | apply CmdRes.done_keeps | apply CmdRes.idle_keeps)
    | simp only [Keeps.upd_iff]
    | split
    | dsimp only

theorem State.cmdUnitStatus_keeps {s0 : State} (s : State) (_i : CmdIn) (hk : Keeps s0 s) : KeepsR s0 (State.cmdUnitStatus s _i) := by
  unfold State.cmdUnitStatus
  repeat' first
    | (with_reducible first | exact hk | assumption | apply CmdRes.read_keeps | apply Keeps.ite | apply KeepsR.ite | apply KeepsR.ok | apply KeepsR.okReset | apply KeepsR.no | apply KeepsR.later | apply CmdRes.read_keeps | apply CmdRes.done_keeps | apply CmdRes.idle_keeps)
    | split
    | dsimp only

/-! ### FaultRows -/

theorem execFaultReport_keeps {s0 : State} (src : Src) (cls : Fin 5) (code : BitVec 16) (data : List Byte) (s : State) (hk : Keeps s0 s) : KeepsO s0 (execFaultReport src cls code data s) := by
  unfold execFaultReport
  repeat' first
    | (with_reducible first | exact hk | assumption | apply State.take_keeps | apply Keeps.ite | apply KeepsO.ite | apply KeepsO.next)
    | split
    | dsimp only

theorem execReportFetchTimeout_keeps {s0 : State} (src : Src) (s : State) (hk : Keeps s0 s) : KeepsO s0 (execReportFetchTimeout src s) := by
  unfold execReportFetchTimeout
  repeat' first
    | (with_reducible first | exact hk | assumption | apply State.report_keeps | apply Keeps.ite | apply KeepsO.ite | apply KeepsO.next)
    | split
    | dsimp only

theorem execPathFailure_keeps {s0 : State} (src : Src) (s : State) (hk : Keeps s0 s) : KeepsO s0 (execPathFailure src s) := by
  unfold execPathFailure
  repeat' first
    | (with_reducible first | exact hk | assumption | apply State.p_keeps | apply State.take_keeps | apply Keeps.ite | apply KeepsO.ite | apply KeepsO.next)
    | simp only [Keeps.upd_iff]
    | split
    | dsimp only

theorem execPathPoll_keeps {s0 : State} (src : Src) (word : Option RepWord) (s : State) (hk : Keeps s0 s) : KeepsO s0 (execPathPoll src word s) := by
  unfold execPathPoll
  repeat' first
    | (with_reducible first | exact hk | assumption | apply State.take_keeps | apply Keeps.ite | apply KeepsO.ite | apply KeepsO.next)
    | split
    | dsimp only

theorem State.fcForce_keeps {s0 : State} (s : State) (src : Nat) (v : Word) (hk : Keeps s0 s) : Keeps s0 (State.fcForce s src v) := by
  unfold State.fcForce
  repeat' first
    | (with_reducible first | exact hk | assumption | apply State.p_keeps | apply State.notice_keeps | apply State.take_keeps | apply Keeps.ite)
    | simp only [Keeps.upd_iff]
    | split
    | dsimp only

theorem execForceReport_keeps {s0 : State} (src : Src) (v : Word) (s : State) (hk : Keeps s0 s) : KeepsO s0 (execForceReport src v s) := by
  unfold execForceReport
  repeat' first
    | (with_reducible first | exact hk | assumption | apply State.fcForce_keeps | apply Keeps.ite | apply KeepsO.ite | apply KeepsO.next)
    | split
    | dsimp only

theorem execForcePathFailure_keeps {s0 : State} (src : Src) (v : Word) (s : State) (hk : Keeps s0 s) : KeepsO s0 (execForcePathFailure src v s) := by
  unfold execForcePathFailure
  repeat' first
    | (with_reducible first | exact hk | assumption | apply State.fcForce_keeps | apply Keeps.ite | apply KeepsO.ite | apply KeepsO.next)
    | split
    | dsimp only

/-! ### CmdC -/

theorem State.cmdFaultAck_keeps {s0 : State} (s : State) (i : CmdIn) (hk : Keeps s0 s) : KeepsR s0 (State.cmdFaultAck s i) := by
  unfold State.cmdFaultAck
  repeat' first
    | (with_reducible first | exact hk | assumption | apply State.p_keeps | apply State.ackFaults_keeps | apply Keeps.ite | apply KeepsR.ite | apply KeepsR.ok | apply KeepsR.okReset | apply KeepsR.no | apply KeepsR.later | apply CmdRes.read_keeps | apply CmdRes.done_keeps | apply CmdRes.idle_keeps)
    | split
    | dsimp only

theorem State.cmdFaultHistory_keeps {s0 : State} (s : State) (i : CmdIn) (hk : Keeps s0 s) : KeepsR s0 (State.cmdFaultHistory s i) := by
  unfold State.cmdFaultHistory
  repeat' first
    | (with_reducible first | exact hk | assumption | apply State.p_keeps | apply CmdRes.read_keeps | apply Keeps.ite | apply KeepsR.ite | apply KeepsR.ok | apply KeepsR.okReset | apply KeepsR.no | apply KeepsR.later | apply CmdRes.read_keeps | apply CmdRes.done_keeps | apply CmdRes.idle_keeps)
    | simp only [Keeps.upd_iff]
    | split
    | dsimp only

theorem State.cmdFaultInject_keeps {s0 : State} (s : State) (i : CmdIn) (hk : Keeps s0 s) : KeepsR s0 (State.cmdFaultInject s i) := by
  unfold State.cmdFaultInject
  repeat' first
    | (with_reducible first | exact hk | assumption | apply State.p_keeps | apply State.fcForce_keeps | apply Keeps.ite | apply KeepsR.ite | apply KeepsR.ok | apply KeepsR.okReset | apply KeepsR.no | apply KeepsR.later | apply CmdRes.read_keeps | apply CmdRes.done_keeps | apply CmdRes.idle_keeps)
    | split
    | dsimp only

theorem State.cmdFaultStatus_keeps {s0 : State} (s : State) (_i : CmdIn) (hk : Keeps s0 s) : KeepsR s0 (State.cmdFaultStatus s _i) := by
  unfold State.cmdFaultStatus
  repeat' first
    | (with_reducible first | exact hk | assumption | apply CmdRes.read_keeps | apply Keeps.ite | apply KeepsR.ite | apply KeepsR.ok | apply KeepsR.okReset | apply KeepsR.no | apply KeepsR.later | apply CmdRes.read_keeps | apply CmdRes.done_keeps | apply CmdRes.idle_keeps)
    | split
    | dsimp only

theorem State.cmdEvRead_keeps {s0 : State} (s : State) (i : CmdIn) (hk : Keeps s0 s) : KeepsR s0 (State.cmdEvRead s i) := by
  unfold State.cmdEvRead
  repeat' first
    | (with_reducible first | exact hk | assumption | apply State.p_keeps | apply State.take_keeps | apply CmdRes.read_keeps | apply Keeps.ite | apply KeepsR.ite | apply KeepsR.ok | apply KeepsR.okReset | apply KeepsR.no | apply KeepsR.later | apply CmdRes.read_keeps | apply CmdRes.done_keeps | apply CmdRes.idle_keeps)
    | split
    | dsimp only

theorem State.cmdEvStatus_keeps {s0 : State} (s : State) (_i : CmdIn) (hk : Keeps s0 s) : KeepsR s0 (State.cmdEvStatus s _i) := by
  unfold State.cmdEvStatus
  repeat' first
    | (with_reducible first | exact hk | assumption | apply CmdRes.read_keeps | apply Keeps.ite | apply KeepsR.ite | apply KeepsR.ok | apply KeepsR.okReset | apply KeepsR.no | apply KeepsR.later | apply CmdRes.read_keeps | apply CmdRes.done_keeps | apply CmdRes.idle_keeps)
    | split
    | dsimp only

theorem State.cmdEvClear_keeps {s0 : State} (s : State) (_i : CmdIn) (hk : Keeps s0 s) : KeepsR s0 (State.cmdEvClear s _i) := by
  unfold State.cmdEvClear
  repeat' first
    | (with_reducible first | exact hk | assumption | apply State.evClear_keeps | apply CmdRes.done_keeps | apply Keeps.ite | apply KeepsR.ite | apply KeepsR.ok | apply KeepsR.okReset | apply KeepsR.no | apply KeepsR.later | apply CmdRes.read_keeps | apply CmdRes.done_keeps | apply CmdRes.idle_keeps)
    | split
    | dsimp only

theorem State.cmdUpManifest_keeps {s0 : State} (s : State) (i : CmdIn) (hk : Keeps s0 s) : KeepsR s0 (State.cmdUpManifest s i) := by
  unfold State.cmdUpManifest
  repeat' first
    | (with_reducible first | exact hk | assumption | apply State.p_keeps | apply State.upEvent_keeps | apply State.upDiscard_keeps | apply State.take_keeps | apply State.buildStart_keeps | apply CmdRes.done_keeps | apply Keeps.ite | apply KeepsR.ite | apply KeepsR.ok | apply KeepsR.okReset | apply KeepsR.no | apply KeepsR.later | apply CmdRes.read_keeps | apply CmdRes.done_keeps | apply CmdRes.idle_keeps)
    | simp only [Keeps.upd_iff]
    | split
    | dsimp only

theorem State.setChunk_keeps {s0 : State} (s : State) (k : Nat) (b : Bool) (hk : Keeps s0 s) : Keeps s0 (State.setChunk s k b) := by
  unfold State.setChunk
  repeat' first
    | (with_reducible first | exact hk | assumption | apply State.p_keeps | apply Keeps.ite)
    | split
    | dsimp only

theorem State.chunkFailed_keeps {s0 : State} (s : State) (k : Nat) (hk : Keeps s0 s) : KeepsR s0 (State.chunkFailed s k) := by
  unfold State.chunkFailed
  repeat' first
    | (with_reducible first | exact hk | assumption | apply State.inc_keeps | apply State.upEvent_keeps | apply Keeps.ite | apply KeepsR.ite | apply KeepsR.ok | apply KeepsR.okReset | apply KeepsR.no | apply KeepsR.later | apply CmdRes.read_keeps | apply CmdRes.done_keeps | apply CmdRes.idle_keeps)
    | split
    | dsimp only

theorem State.allChunks_keeps {s0 : State} (s : State) (hk : Keeps s0 s) : Keeps s0 (State.allChunks s) := by
  unfold State.allChunks
  repeat' first
    | (with_reducible first | exact hk | assumption | apply State.p_keeps | apply State.upEvent_keeps | apply State.buildStart_keeps | apply Keeps.ite)
    | split
    | dsimp only

theorem State.chunkComplete_keeps {s0 : State} (s : State) (k : Nat) (data : List Byte) (hk : Keeps s0 s) : KeepsR s0 (State.chunkComplete s k data) := by
  unfold State.chunkComplete
  repeat' first
    | (with_reducible first | exact hk | assumption | apply State.take_keeps | apply CmdRes.done_keeps | apply State.setChunk_keeps | apply State.chunkFailed_keeps | apply State.allChunks_keeps | apply Keeps.ite | apply KeepsR.ite | apply KeepsR.ok | apply KeepsR.okReset | apply KeepsR.no | apply KeepsR.later | apply CmdRes.read_keeps | apply CmdRes.done_keeps | apply CmdRes.idle_keeps)
    | (with_reducible apply Keeps.foldl; intro _ _ _)
    | simp only [Keeps.upd_iff]
    | split
    | dsimp only

theorem State.cmdUpChunk_keeps {s0 : State} (s : State) (i : CmdIn) (hk : Keeps s0 s) : KeepsR s0 (State.cmdUpChunk s i) := by
  unfold State.cmdUpChunk
  repeat' first
    | (with_reducible first | exact hk | assumption | apply State.p_keeps | apply CmdRes.idle_keeps | apply State.chunkComplete_keeps | apply Keeps.ite | apply KeepsR.ite | apply KeepsR.ok | apply KeepsR.okReset | apply KeepsR.no | apply KeepsR.later | apply CmdRes.read_keeps | apply CmdRes.done_keeps | apply CmdRes.idle_keeps)
    | simp only [Keeps.upd_iff]
    | split
    | dsimp only

theorem State.cmdUpStatus_keeps {s0 : State} (s : State) (_i : CmdIn) (hk : Keeps s0 s) : KeepsR s0 (State.cmdUpStatus s _i) := by
  unfold State.cmdUpStatus
  repeat' first
    | (with_reducible first | exact hk | assumption | apply CmdRes.read_keeps | apply Keeps.ite | apply KeepsR.ite | apply KeepsR.ok | apply KeepsR.okReset | apply KeepsR.no | apply KeepsR.later | apply CmdRes.read_keeps | apply CmdRes.done_keeps | apply CmdRes.idle_keeps)
    | split
    | dsimp only

theorem State.cmdUpActivate_keeps {s0 : State} (s : State) (i : CmdIn) (hk : Keeps s0 s) : KeepsR s0 (State.cmdUpActivate s i) := by
  unfold State.cmdUpActivate
  repeat' first
    | (with_reducible first | exact hk | assumption | apply State.p_keeps | apply State.upEvent_keeps | apply State.take_keeps | apply Keeps.ite | apply KeepsR.ite | apply KeepsR.ok | apply KeepsR.okReset | apply KeepsR.no | apply KeepsR.later | apply CmdRes.read_keeps | apply CmdRes.done_keeps | apply CmdRes.idle_keeps)
    | simp only [Keeps.upd_iff]
    | split
    | dsimp only

theorem State.cmdUpAbandon_keeps {s0 : State} (s : State) (_i : CmdIn) (hk : Keeps s0 s) : KeepsR s0 (State.cmdUpAbandon s _i) := by
  unfold State.cmdUpAbandon
  repeat' first
    | (with_reducible first | exact hk | assumption | apply State.p_keeps | apply State.upEvent_keeps | apply State.upDiscard_keeps | apply CmdRes.done_keeps | apply CmdRes.idle_keeps | apply Keeps.ite | apply KeepsR.ite | apply KeepsR.ok | apply KeepsR.okReset | apply KeepsR.no | apply KeepsR.later | apply CmdRes.read_keeps | apply CmdRes.done_keeps | apply CmdRes.idle_keeps)
    | split
    | dsimp only

theorem State.cmdTestRegread_keeps {s0 : State} (s : State) (i : CmdIn) (hk : Keeps s0 s) : KeepsR s0 (State.cmdTestRegread s i) := by
  unfold State.cmdTestRegread
  repeat' first
    | (with_reducible first | exact hk | assumption | apply State.p_keeps | apply CmdRes.read_keeps | apply Keeps.ite | apply KeepsR.ite | apply KeepsR.ok | apply KeepsR.okReset | apply KeepsR.no | apply KeepsR.later | apply CmdRes.read_keeps | apply CmdRes.done_keeps | apply CmdRes.idle_keeps)
    | split
    | dsimp only

theorem State.cmdTestLoop_keeps {s0 : State} (s : State) (i : CmdIn) (hk : Keeps s0 s) : KeepsR s0 (State.cmdTestLoop s i) := by
  unfold State.cmdTestLoop
  repeat' first
    | (with_reducible first | exact hk | assumption | apply State.p_keeps | apply State.redrive_keeps | apply Keeps.ite | apply KeepsR.ite | apply KeepsR.ok | apply KeepsR.okReset | apply KeepsR.no | apply KeepsR.later | apply CmdRes.read_keeps | apply CmdRes.done_keeps | apply CmdRes.idle_keeps)
    | simp only [Keeps.upd_iff]
    | split
    | dsimp only

theorem State.cmdTestProd_keeps {s0 : State} (s : State) (_i : CmdIn) (hk : Keeps s0 s) : KeepsR s0 (State.cmdTestProd s _i) := by
  unfold State.cmdTestProd
  repeat' first
    | (with_reducible first | exact hk | assumption | apply CmdRes.done_keeps | apply CmdRes.idle_keeps | apply Keeps.ite | apply KeepsR.ite | apply KeepsR.ok | apply KeepsR.okReset | apply KeepsR.no | apply KeepsR.later | apply CmdRes.read_keeps | apply CmdRes.done_keeps | apply CmdRes.idle_keeps)
    | simp only [Keeps.upd_iff]
    | split
    | dsimp only

theorem State.changeLcs_keeps {s0 : State} (s : State) (to_ : Nat) (tag recs : Bool) (new : KeySt) (chan : Nat) (hk : Keeps s0 s) : KeepsR s0 (State.changeLcs s to_ tag recs new chan) := by
  unfold State.changeLcs
  repeat' first
    | (with_reducible first | exact hk | assumption | apply State.p_keeps | apply State.recordEv_keeps | apply State.gateFault_keeps | apply State.removeForces_keeps | apply State.upEvent_keeps | apply State.leaveLight_keeps | apply State.appStop_keeps | apply State.lcWipe_keeps | apply State.tagWipe_keeps | apply State.recordsWipe_keeps | apply Keeps.ite | apply KeepsR.ite | apply KeepsR.ok | apply KeepsR.okReset | apply KeepsR.no | apply KeepsR.later | apply CmdRes.read_keeps | apply CmdRes.done_keeps | apply CmdRes.idle_keeps)
    | simp only [Keeps.upd_iff]
    | split
    | dsimp only

theorem State.setFactory_keeps {s0 : State} (s : State) (b : List Byte) (hk : Keeps s0 s) : Keeps s0 (State.setFactory s b) := by
  unfold State.setFactory
  repeat' first
    | (with_reducible first | exact hk | assumption | apply State.p_keeps | apply Keeps.ite)
    | (with_reducible apply Keeps.foldl; intro _ _ _)
    | split
    | dsimp only

theorem State.cmdLcChange_keeps {s0 : State} (s : State) (i : CmdIn) (hk : Keeps s0 s) : KeepsR s0 (State.cmdLcChange s i) := by
  unfold State.cmdLcChange
  repeat' first
    | (with_reducible first | exact hk | assumption | apply State.p_keeps | apply State.take_keeps | apply State.changeLcs_keeps | apply State.setFactory_keeps | apply Keeps.ite | apply KeepsR.ite | apply KeepsR.ok | apply KeepsR.okReset | apply KeepsR.no | apply KeepsR.later | apply CmdRes.read_keeps | apply CmdRes.done_keeps | apply CmdRes.idle_keeps)
    | simp only [Keeps.upd_iff]
    | split
    | dsimp only

theorem State.cmdLcDebugtoken_keeps {s0 : State} (s : State) (i : CmdIn) (hk : Keeps s0 s) : KeepsR s0 (State.cmdLcDebugtoken s i) := by
  unfold State.cmdLcDebugtoken
  repeat' first
    | (with_reducible first | exact hk | assumption | apply State.p_keeps | apply State.chanGates_keeps | apply CmdRes.done_keeps | apply Keeps.ite | apply KeepsR.ite | apply KeepsR.ok | apply KeepsR.okReset | apply KeepsR.no | apply KeepsR.later | apply CmdRes.read_keeps | apply CmdRes.done_keeps | apply CmdRes.idle_keeps)
    | split
    | dsimp only

/-! ### CmdRun -/

theorem bodiesA_keeps {s0 : State} : ∀ e ∈ bodiesA, ∀ (s : State) (i : CmdIn), Keeps s0 s → KeepsR s0 (e.2 s i) := by
  unfold bodiesA
  refine List.forall_mem_cons.2 ⟨fun s i h => State.cmdModReset_keeps s i h, ?_⟩
  refine List.forall_mem_cons.2 ⟨fun s i h => State.cmdModIdentify_keeps s i h, ?_⟩
  refine List.forall_mem_cons.2 ⟨fun s i h => State.cmdModStatus_keeps s i h, ?_⟩
  refine List.forall_mem_cons.2 ⟨fun s i h => State.cmdModSetmode_keeps s i h, ?_⟩
  refine List.forall_mem_cons.2 ⟨fun s i h => State.cmdModTagRead_keeps s i h, ?_⟩
  refine List.forall_mem_cons.2 ⟨fun s i h => State.cmdModTagWrite_keeps s i h, ?_⟩
  refine List.forall_mem_cons.2 ⟨fun s i h => State.cmdModWakecfg_keeps s i h, ?_⟩
  refine List.forall_mem_cons.2 ⟨fun s i h => State.cmdAppStage_keeps s i h, ?_⟩
  refine List.forall_mem_cons.2 ⟨fun s i h => State.cmdAppLoad_keeps s i h, ?_⟩
  refine List.forall_mem_cons.2 ⟨fun s i h => State.cmdAppStart_keeps s i h, ?_⟩
  refine List.forall_mem_cons.2 ⟨fun s i h => State.cmdAppStop_keeps s i h, ?_⟩
  refine List.forall_mem_cons.2 ⟨fun s i h => State.cmdAppRestart_keeps s i h, ?_⟩
  refine List.forall_mem_cons.2 ⟨fun s i h => State.cmdAppNextstart_keeps s i h, ?_⟩
  refine List.forall_mem_cons.2 ⟨fun s i h => State.cmdAppOlcLoad_keeps s i h, ?_⟩
  refine List.forall_mem_cons.2 ⟨fun s i h => State.cmdAppOlcApply_keeps s i h, ?_⟩
  refine List.forall_mem_cons.2 ⟨fun s i h => State.cmdPairSplit_keeps s i h, ?_⟩
  refine List.forall_mem_cons.2 ⟨fun s i h => State.cmdPairJoin_keeps s i h, ?_⟩
  refine List.forall_mem_cons.2 ⟨fun s i h => State.cmdAppStatus_keeps s i h, ?_⟩
  refine List.forall_mem_cons.2 ⟨fun s i h => State.cmdForceSet_keeps s i h, ?_⟩
  refine List.forall_mem_cons.2 ⟨fun s i h => State.cmdForceClear_keeps s i h, ?_⟩
  refine List.forall_mem_cons.2 ⟨fun s i h => State.cmdForceClearall_keeps s i h, ?_⟩
  refine List.forall_mem_cons.2 ⟨fun s i h => State.cmdForceList_keeps s i h, ?_⟩
  refine List.forall_mem_cons.2 ⟨fun s i h => State.cmdTimeConfig_keeps s i h, ?_⟩
  refine List.forall_mem_cons.2 ⟨fun s i h => State.cmdTimeTrigger_keeps s i h, ?_⟩
  refine List.forall_mem_cons.2 ⟨fun s i h => State.cmdTimeCapture_keeps s i h, ?_⟩
  refine List.forall_mem_cons.2 ⟨fun s i h => State.cmdTimeStatus_keeps s i h, ?_⟩
  exact fun _ h => nomatch h

theorem bodiesB_keeps {s0 : State} : ∀ e ∈ bodiesB, ∀ (s : State) (i : CmdIn), Keeps s0 s → KeepsR s0 (e.2 s i) := by
  unfold bodiesB
  refine List.forall_mem_cons.2 ⟨fun s i h => State.cmdRingSched_keeps s i h, ?_⟩
  refine List.forall_mem_cons.2 ⟨fun s i h => State.cmdRingCommit_keeps s i h, ?_⟩
  refine List.forall_mem_cons.2 ⟨fun s i h => State.cmdRingStatus_keeps s i h, ?_⟩
  refine List.forall_mem_cons.2 ⟨fun s i h => State.cmdEthConfig_keeps s i h, ?_⟩
  refine List.forall_mem_cons.2 ⟨fun s i h => State.cmdEthStatus_keeps s i h, ?_⟩
  refine List.forall_mem_cons.2 ⟨fun s i h => State.cmdSafeLoad_keeps s i h, ?_⟩
  refine List.forall_mem_cons.2 ⟨fun s i h => State.cmdSealAccept_keeps s i h, ?_⟩
  refine List.forall_mem_cons.2 ⟨fun s i h => State.cmdScAck_keeps s i h, ?_⟩
  refine List.forall_mem_cons.2 ⟨fun s i h => State.cmdSafeStatus_keeps s i h, ?_⟩
  refine List.forall_mem_cons.2 ⟨fun s i h => State.cmdFioConfig_keeps s i h, ?_⟩
  refine List.forall_mem_cons.2 ⟨fun s i h => State.cmdFioRelease_keeps s i h, ?_⟩
  refine List.forall_mem_cons.2 ⟨fun s i h => State.cmdFioStatus_keeps s i h, ?_⟩
  refine List.forall_mem_cons.2 ⟨fun s i h => State.cmdUnitConfig_keeps s i h, ?_⟩
  refine List.forall_mem_cons.2 ⟨fun s i h => State.cmdUnitHandover_keeps s i h, ?_⟩
  refine List.forall_mem_cons.2 ⟨fun s i h => State.cmdUnitWitness_keeps s i h, ?_⟩
  refine List.forall_mem_cons.2 ⟨fun s i h => State.cmdUnitStatus_keeps s i h, ?_⟩
  exact fun _ h => nomatch h

theorem bodiesC_keeps {s0 : State} : ∀ e ∈ bodiesC, ∀ (s : State) (i : CmdIn), Keeps s0 s → KeepsR s0 (e.2 s i) := by
  unfold bodiesC
  refine List.forall_mem_cons.2 ⟨fun s i h => State.cmdFaultAck_keeps s i h, ?_⟩
  refine List.forall_mem_cons.2 ⟨fun s i h => State.cmdFaultHistory_keeps s i h, ?_⟩
  refine List.forall_mem_cons.2 ⟨fun s i h => State.cmdFaultInject_keeps s i h, ?_⟩
  refine List.forall_mem_cons.2 ⟨fun s i h => State.cmdFaultStatus_keeps s i h, ?_⟩
  refine List.forall_mem_cons.2 ⟨fun s i h => State.cmdEvRead_keeps s i h, ?_⟩
  refine List.forall_mem_cons.2 ⟨fun s i h => State.cmdEvStatus_keeps s i h, ?_⟩
  refine List.forall_mem_cons.2 ⟨fun s i h => State.cmdEvClear_keeps s i h, ?_⟩
  refine List.forall_mem_cons.2 ⟨fun s i h => State.cmdUpManifest_keeps s i h, ?_⟩
  refine List.forall_mem_cons.2 ⟨fun s i h => State.cmdUpChunk_keeps s i h, ?_⟩
  refine List.forall_mem_cons.2 ⟨fun s i h => State.cmdUpStatus_keeps s i h, ?_⟩
  refine List.forall_mem_cons.2 ⟨fun s i h => State.cmdUpActivate_keeps s i h, ?_⟩
  refine List.forall_mem_cons.2 ⟨fun s i h => State.cmdUpAbandon_keeps s i h, ?_⟩
  refine List.forall_mem_cons.2 ⟨fun s i h => State.cmdTestRegread_keeps s i h, ?_⟩
  refine List.forall_mem_cons.2 ⟨fun s i h => State.cmdTestLoop_keeps s i h, ?_⟩
  refine List.forall_mem_cons.2 ⟨fun s i h => State.cmdTestProd_keeps s i h, ?_⟩
  refine List.forall_mem_cons.2 ⟨fun s i h => State.cmdLcChange_keeps s i h, ?_⟩
  refine List.forall_mem_cons.2 ⟨fun s i h => State.cmdLcDebugtoken_keeps s i h, ?_⟩
  exact fun _ h => nomatch h

theorem cmdBody_keeps {s0 : State} (code : Nat) (s : State) (i : CmdIn) (hk : Keeps s0 s) : KeepsR s0 (cmdBody code s i) := by
  unfold cmdBody
  split
  · rename_i e he
    have hm := List.mem_of_find?_eq_some he
    rcases List.mem_append.1 hm with hm | hm
    · rcases List.mem_append.1 hm with hm | hm
      · exact bodiesA_keeps e hm s i hk
      · exact bodiesB_keeps e hm s i hk
    · exact bodiesC_keeps e hm s i hk
  · exact hk

theorem State.answered_keeps {s0 : State} (s : State) (i : CmdIn) (out : List Byte) (wrote : Bool) (hk : Keeps s0 s) : Keeps s0 (State.answered s i out wrote) := by
  unfold State.answered
  repeat' first
    | (with_reducible first | exact hk | assumption | apply State.p_keeps | apply State.cmdRecord_keeps | apply State.respond_keeps | apply Keeps.ite)
    | split
    | dsimp only

theorem CmdRes.finish_keeps {s0 : State} (i : CmdIn) (r : CmdRes) (h : KeepsR s0 r) : Keeps s0 (r.finish i) := by
  cases r with
  | ok t out wrote => exact State.answered_keeps _ _ _ _ h
  | okReset t cause chan row => exact State.moduleReset_keeps _ _ _ _ (State.answered_keeps _ _ _ _ h)
  | no t status => exact State.respond_keeps _ _ _ _ _ _ h
  | later t => exact h

theorem State.perform_keeps {s0 : State} (s : State) (i : CmdIn) (hk : Keeps s0 s) : Keeps s0 (State.perform s i) := by
  unfold State.perform
  repeat' first
    | (with_reducible first | exact hk | assumption | apply cmdBody_keeps | apply CmdRes.finish_keeps | apply Keeps.ite)
    | split
    | dsimp only

theorem State.runCmd_keeps {s0 : State} (s : State) (i : CmdIn) (hk : Keeps s0 s) : Keeps s0 (State.runCmd s i) := by
  unfold State.runCmd
  repeat' first
    | (with_reducible first | exact hk | assumption | apply State.p_keeps | apply State.respond_keeps | apply State.perform_keeps | apply Keeps.ite)
    | simp only [Keeps.upd_iff]
    | split
    | dsimp only

theorem State.drainCmd_keeps {s0 : State} (s : State) (hk : Keeps s0 s) : Keeps s0 (State.drainCmd s) := by
  unfold State.drainCmd
  repeat' first
    | (with_reducible first | exact hk | assumption | apply State.p_keeps | apply State.perform_keeps | apply Keeps.ite)
    | simp only [Keeps.upd_iff]
    | split
    | dsimp only

theorem State.joinCmd_keeps {s0 : State} (s : State) (l : Nat) (bs : List Byte) (hk : Keeps s0 s) : Keeps s0 (State.joinCmd s l bs) := by
  unfold State.joinCmd
  repeat' first
    | (with_reducible first | exact hk | assumption | apply State.p_keeps | apply State.emit_keeps | apply State.take_keeps | apply Keeps.ite)
    | split
    | dsimp only

theorem State.cmdFails_keeps {s0 : State} (s : State) (posts : List (Lane × List Byte)) (hk : Keeps s0 s) : Keeps s0 (State.cmdFails s posts) := by
  unfold State.cmdFails
  repeat' first
    | (with_reducible first | exact hk | assumption | apply State.respondOn_keeps | apply State.cmdRecord_keeps | apply State.imageResponse_keeps | apply State.take_keeps | apply Keeps.ite)
    | (with_reducible apply Keeps.foldl; intro _ _ _)
    | split
    | dsimp only

theorem State.laneCmd_keeps {s0 : State} (s : State) (l : Lane) (hk : Keeps s0 s) : Keeps s0 (State.laneCmd s l) := by
  unfold State.laneCmd
  repeat' first
    | (with_reducible first | exact hk | assumption | apply State.p_keeps | apply State.take_keeps | apply State.postStream_keeps | apply State.modLt_keeps | apply State.runCmd_keeps | apply State.joinCmd_keeps | apply State.cmdFails_keeps | apply Keeps.ite)
    | simp only [Keeps.upd_iff]
    | split
    | (with_reducible refine Keeps.fst ?_ (by assumption))
    | dsimp only

theorem State.refuseBell_keeps {s0 : State} (s : State) (c status : Nat) (hk : Keeps s0 s) : Keeps s0 (State.refuseBell s c status) := by
  unfold State.refuseBell
  repeat' first
    | (with_reducible first | exact hk | assumption | apply State.p_keeps | apply State.sendRecord_keeps | apply Keeps.ite)
    | split
    | dsimp only

theorem State.doorbell_keeps {s0 : State} (s : State) (ch : Chan) (hk : Keeps s0 s) : Keeps s0 (State.doorbell s ch) := by
  unfold State.doorbell
  repeat' first
    | (with_reducible first | exact hk | assumption | apply State.p_keeps | apply State.inc_keeps | apply State.notice_keeps | apply State.runCmd_keeps | apply State.laneCmd_keeps | apply State.refuseBell_keeps | apply Keeps.ite)
    | simp only [Keeps.upd_iff]
    | split
    | dsimp only

theorem State.deferCmd_keeps {s0 : State} (s : State) (l t : Nat) (bs : List Byte) (hk : Keeps s0 s) : Keeps s0 (State.deferCmd s l t bs) := by
  unfold State.deferCmd
  repeat' first
    | (with_reducible first | exact hk | assumption | apply State.stallCtx_keeps | apply State.deferWrite_keeps | apply Keeps.ite)
    | (with_reducible apply Keeps.foldl; intro _ _ _)
    | split
    | dsimp only

theorem State.postCmd_keeps {s0 : State} (s : State) (ch : Chan) (code : Nat) (h : Hdr) (p : List Byte) (hk : Keeps s0 s) : Keeps s0 (State.postCmd s ch code h p) := by
  unfold State.postCmd
  repeat' first
    | (with_reducible first | exact hk | assumption | apply State.p_keeps | apply State.writeCmd_keeps | apply State.doorbell_keeps | apply State.deferCmd_keeps | apply Keeps.ite)
    | split
    | dsimp only

theorem State.chanReset_keeps {s0 : State} (s : State) (c : Nat) (hk : Keeps s0 s) : Keeps s0 (State.chanReset s c) := by
  unfold State.chanReset
  repeat' first
    | (with_reducible first | exact hk | assumption | apply State.notice_keeps | apply State.zeroChan_keeps | apply Keeps.ite)
    | split
    | dsimp only

end Sys2Proof.Machine
end

