-- ==== Sys2Proof/Laws/Keep11.lean ====
section
/-! SUPPORT. What every operation keeps of a state (`Keeps`): those of Machine/CmdRows.lean, Dma.lean. -/

set_option linter.all false

namespace Sys2Proof.Machine
open Sys2Proof.Safety

/-! ### CmdRows -/

theorem execModReset_keeps {s0 : State} (ch : Chan) (h : Hdr) (p : List Byte) (s : State) (hk : Keeps s0 s) : KeepsO s0 (execModReset ch h p s) := by
  unfold execModReset
  repeat' first
    | (with_reducible first | exact hk | assumption | apply State.p_keeps | apply State.postCmd_keeps | apply Keeps.ite | apply KeepsO.ite | apply KeepsO.next)
    | split
    | dsimp only

theorem execModIdentify_keeps {s0 : State} (ch : Chan) (h : Hdr) (p : List Byte) (s : State) (hk : Keeps s0 s) : KeepsO s0 (execModIdentify ch h p s) := by
  unfold execModIdentify
  repeat' first
    | (with_reducible first | exact hk | assumption | apply State.p_keeps | apply State.postCmd_keeps | apply Keeps.ite | apply KeepsO.ite | apply KeepsO.next)
    | split
    | dsimp only

theorem execModStatus_keeps {s0 : State} (ch : Chan) (h : Hdr) (p : List Byte) (s : State) (hk : Keeps s0 s) : KeepsO s0 (execModStatus ch h p s) := by
  unfold execModStatus
  repeat' first
    | (with_reducible first | exact hk | assumption | apply State.p_keeps | apply State.postCmd_keeps | apply Keeps.ite | apply KeepsO.ite | apply KeepsO.next)
    | split
    | dsimp only

theorem execModSetmode_keeps {s0 : State} (ch : Chan) (h : Hdr) (p : List Byte) (s : State) (hk : Keeps s0 s) : KeepsO s0 (execModSetmode ch h p s) := by
  unfold execModSetmode
  repeat' first
    | (with_reducible first | exact hk | assumption | apply State.p_keeps | apply State.postCmd_keeps | apply Keeps.ite | apply KeepsO.ite | apply KeepsO.next)
    | split
    | dsimp only

theorem execModTagRead_keeps {s0 : State} (ch : Chan) (h : Hdr) (p : List Byte) (s : State) (hk : Keeps s0 s) : KeepsO s0 (execModTagRead ch h p s) := by
  unfold execModTagRead
  repeat' first
    | (with_reducible first | exact hk | assumption | apply State.p_keeps | apply State.postCmd_keeps | apply Keeps.ite | apply KeepsO.ite | apply KeepsO.next)
    | split
    | dsimp only

theorem execModTagWrite_keeps {s0 : State} (ch : Chan) (h : Hdr) (p : List Byte) (s : State) (hk : Keeps s0 s) : KeepsO s0 (execModTagWrite ch h p s) := by
  unfold execModTagWrite
  repeat' first
    | (with_reducible first | exact hk | assumption | apply State.p_keeps | apply State.postCmd_keeps | apply Keeps.ite | apply KeepsO.ite | apply KeepsO.next)
    | split
    | dsimp only

theorem execModWakecfg_keeps {s0 : State} (ch : Chan) (h : Hdr) (p : List Byte) (s : State) (hk : Keeps s0 s) : KeepsO s0 (execModWakecfg ch h p s) := by
  unfold execModWakecfg
  repeat' first
    | (with_reducible first | exact hk | assumption | apply State.p_keeps | apply State.postCmd_keeps | apply Keeps.ite | apply KeepsO.ite | apply KeepsO.next)
    | split
    | dsimp only

theorem execAppStage_keeps {s0 : State} (ch : Chan) (h : Hdr) (p : List Byte) (s : State) (hk : Keeps s0 s) : KeepsO s0 (execAppStage ch h p s) := by
  unfold execAppStage
  repeat' first
    | (with_reducible first | exact hk | assumption | apply State.p_keeps | apply State.postCmd_keeps | apply Keeps.ite | apply KeepsO.ite | apply KeepsO.next)
    | split
    | dsimp only

theorem execAppLoad_keeps {s0 : State} (ch : Chan) (h : Hdr) (p : List Byte) (s : State) (hk : Keeps s0 s) : KeepsO s0 (execAppLoad ch h p s) := by
  unfold execAppLoad
  repeat' first
    | (with_reducible first | exact hk | assumption | apply State.p_keeps | apply State.postCmd_keeps | apply Keeps.ite | apply KeepsO.ite | apply KeepsO.next)
    | split
    | dsimp only

theorem execAppStart_keeps {s0 : State} (ch : Chan) (h : Hdr) (p : List Byte) (s : State) (hk : Keeps s0 s) : KeepsO s0 (execAppStart ch h p s) := by
  unfold execAppStart
  repeat' first
    | (with_reducible first | exact hk | assumption | apply State.p_keeps | apply State.postCmd_keeps | apply Keeps.ite | apply KeepsO.ite | apply KeepsO.next)
    | split
    | dsimp only

theorem execAppStop_keeps {s0 : State} (ch : Chan) (h : Hdr) (p : List Byte) (s : State) (hk : Keeps s0 s) : KeepsO s0 (execAppStop ch h p s) := by
  unfold execAppStop
  repeat' first
    | (with_reducible first | exact hk | assumption | apply State.p_keeps | apply State.postCmd_keeps | apply Keeps.ite | apply KeepsO.ite | apply KeepsO.next)
    | split
    | dsimp only

theorem execAppRestart_keeps {s0 : State} (ch : Chan) (h : Hdr) (p : List Byte) (s : State) (hk : Keeps s0 s) : KeepsO s0 (execAppRestart ch h p s) := by
  unfold execAppRestart
  repeat' first
    | (with_reducible first | exact hk | assumption | apply State.p_keeps | apply State.postCmd_keeps | apply Keeps.ite | apply KeepsO.ite | apply KeepsO.next)
    | split
    | dsimp only

theorem execAppNextstart_keeps {s0 : State} (ch : Chan) (h : Hdr) (p : List Byte) (s : State) (hk : Keeps s0 s) : KeepsO s0 (execAppNextstart ch h p s) := by
  unfold execAppNextstart
  repeat' first
    | (with_reducible first | exact hk | assumption | apply State.p_keeps | apply State.postCmd_keeps | apply Keeps.ite | apply KeepsO.ite | apply KeepsO.next)
    | split
    | dsimp only

theorem execAppOlcLoad_keeps {s0 : State} (ch : Chan) (h : Hdr) (p : List Byte) (s : State) (hk : Keeps s0 s) : KeepsO s0 (execAppOlcLoad ch h p s) := by
  unfold execAppOlcLoad
  repeat' first
    | (with_reducible first | exact hk | assumption | apply State.p_keeps | apply State.postCmd_keeps | apply Keeps.ite | apply KeepsO.ite | apply KeepsO.next)
    | split
    | dsimp only

theorem execAppOlcApply_keeps {s0 : State} (ch : Chan) (h : Hdr) (p : List Byte) (s : State) (hk : Keeps s0 s) : KeepsO s0 (execAppOlcApply ch h p s) := by
  unfold execAppOlcApply
  repeat' first
    | (with_reducible first | exact hk | assumption | apply State.p_keeps | apply State.postCmd_keeps | apply Keeps.ite | apply KeepsO.ite | apply KeepsO.next)
    | split
    | dsimp only

theorem execPairSplit_keeps {s0 : State} (ch : Chan) (h : Hdr) (p : List Byte) (s : State) (hk : Keeps s0 s) : KeepsO s0 (execPairSplit ch h p s) := by
  unfold execPairSplit
  repeat' first
    | (with_reducible first | exact hk | assumption | apply State.p_keeps | apply State.postCmd_keeps | apply Keeps.ite | apply KeepsO.ite | apply KeepsO.next)
    | split
    | dsimp only

theorem execPairJoin_keeps {s0 : State} (ch : Chan) (h : Hdr) (p : List Byte) (s : State) (hk : Keeps s0 s) : KeepsO s0 (execPairJoin ch h p s) := by
  unfold execPairJoin
  repeat' first
    | (with_reducible first | exact hk | assumption | apply State.p_keeps | apply State.postCmd_keeps | apply Keeps.ite | apply KeepsO.ite | apply KeepsO.next)
    | split
    | dsimp only

theorem execAppStatus_keeps {s0 : State} (ch : Chan) (h : Hdr) (p : List Byte) (s : State) (hk : Keeps s0 s) : KeepsO s0 (execAppStatus ch h p s) := by
  unfold execAppStatus
  repeat' first
    | (with_reducible first | exact hk | assumption | apply State.p_keeps | apply State.postCmd_keeps | apply Keeps.ite | apply KeepsO.ite | apply KeepsO.next)
    | split
    | dsimp only

theorem execForceSet_keeps {s0 : State} (ch : Chan) (h : Hdr) (p : List Byte) (s : State) (hk : Keeps s0 s) : KeepsO s0 (execForceSet ch h p s) := by
  unfold execForceSet
  repeat' first
    | (with_reducible first | exact hk | assumption | apply State.p_keeps | apply State.postCmd_keeps | apply Keeps.ite | apply KeepsO.ite | apply KeepsO.next)
    | split
    | dsimp only

theorem execForceClear_keeps {s0 : State} (ch : Chan) (h : Hdr) (p : List Byte) (s : State) (hk : Keeps s0 s) : KeepsO s0 (execForceClear ch h p s) := by
  unfold execForceClear
  repeat' first
    | (with_reducible first | exact hk | assumption | apply State.p_keeps | apply State.postCmd_keeps | apply Keeps.ite | apply KeepsO.ite | apply KeepsO.next)
    | split
    | dsimp only

theorem execForceClearall_keeps {s0 : State} (ch : Chan) (h : Hdr) (p : List Byte) (s : State) (hk : Keeps s0 s) : KeepsO s0 (execForceClearall ch h p s) := by
  unfold execForceClearall
  repeat' first
    | (with_reducible first | exact hk | assumption | apply State.p_keeps | apply State.postCmd_keeps | apply Keeps.ite | apply KeepsO.ite | apply KeepsO.next)
    | split
    | dsimp only

theorem execForceList_keeps {s0 : State} (ch : Chan) (h : Hdr) (p : List Byte) (s : State) (hk : Keeps s0 s) : KeepsO s0 (execForceList ch h p s) := by
  unfold execForceList
  repeat' first
    | (with_reducible first | exact hk | assumption | apply State.p_keeps | apply State.postCmd_keeps | apply Keeps.ite | apply KeepsO.ite | apply KeepsO.next)
    | split
    | dsimp only

theorem execTimeConfig_keeps {s0 : State} (ch : Chan) (h : Hdr) (p : List Byte) (s : State) (hk : Keeps s0 s) : KeepsO s0 (execTimeConfig ch h p s) := by
  unfold execTimeConfig
  repeat' first
    | (with_reducible first | exact hk | assumption | apply State.p_keeps | apply State.postCmd_keeps | apply Keeps.ite | apply KeepsO.ite | apply KeepsO.next)
    | split
    | dsimp only

theorem execTimeTrigger_keeps {s0 : State} (ch : Chan) (h : Hdr) (p : List Byte) (s : State) (hk : Keeps s0 s) : KeepsO s0 (execTimeTrigger ch h p s) := by
  unfold execTimeTrigger
  repeat' first
    | (with_reducible first | exact hk | assumption | apply State.p_keeps | apply State.postCmd_keeps | apply Keeps.ite | apply KeepsO.ite | apply KeepsO.next)
    | split
    | dsimp only

theorem execTimeCapture_keeps {s0 : State} (ch : Chan) (h : Hdr) (p : List Byte) (s : State) (hk : Keeps s0 s) : KeepsO s0 (execTimeCapture ch h p s) := by
  unfold execTimeCapture
  repeat' first
    | (with_reducible first | exact hk | assumption | apply State.p_keeps | apply State.postCmd_keeps | apply Keeps.ite | apply KeepsO.ite | apply KeepsO.next)
    | split
    | dsimp only

theorem execTimeStatus_keeps {s0 : State} (ch : Chan) (h : Hdr) (p : List Byte) (s : State) (hk : Keeps s0 s) : KeepsO s0 (execTimeStatus ch h p s) := by
  unfold execTimeStatus
  repeat' first
    | (with_reducible first | exact hk | assumption | apply State.p_keeps | apply State.postCmd_keeps | apply Keeps.ite | apply KeepsO.ite | apply KeepsO.next)
    | split
    | dsimp only

theorem execRingSched_keeps {s0 : State} (ch : Chan) (h : Hdr) (p : List Byte) (s : State) (hk : Keeps s0 s) : KeepsO s0 (execRingSched ch h p s) := by
  unfold execRingSched
  repeat' first
    | (with_reducible first | exact hk | assumption | apply State.p_keeps | apply State.postCmd_keeps | apply Keeps.ite | apply KeepsO.ite | apply KeepsO.next)
    | split
    | dsimp only

theorem execRingCommit_keeps {s0 : State} (ch : Chan) (h : Hdr) (p : List Byte) (s : State) (hk : Keeps s0 s) : KeepsO s0 (execRingCommit ch h p s) := by
  unfold execRingCommit
  repeat' first
    | (with_reducible first | exact hk | assumption | apply State.p_keeps | apply State.postCmd_keeps | apply Keeps.ite | apply KeepsO.ite | apply KeepsO.next)
    | split
    | dsimp only

theorem execRingStatus_keeps {s0 : State} (ch : Chan) (h : Hdr) (p : List Byte) (s : State) (hk : Keeps s0 s) : KeepsO s0 (execRingStatus ch h p s) := by
  unfold execRingStatus
  repeat' first
    | (with_reducible first | exact hk | assumption | apply State.p_keeps | apply State.postCmd_keeps | apply Keeps.ite | apply KeepsO.ite | apply KeepsO.next)
    | split
    | dsimp only

theorem execEthConfig_keeps {s0 : State} (ch : Chan) (h : Hdr) (p : List Byte) (s : State) (hk : Keeps s0 s) : KeepsO s0 (execEthConfig ch h p s) := by
  unfold execEthConfig
  repeat' first
    | (with_reducible first | exact hk | assumption | apply State.p_keeps | apply State.postCmd_keeps | apply Keeps.ite | apply KeepsO.ite | apply KeepsO.next)
    | split
    | dsimp only

theorem execEthStatus_keeps {s0 : State} (ch : Chan) (h : Hdr) (p : List Byte) (s : State) (hk : Keeps s0 s) : KeepsO s0 (execEthStatus ch h p s) := by
  unfold execEthStatus
  repeat' first
    | (with_reducible first | exact hk | assumption | apply State.p_keeps | apply State.postCmd_keeps | apply Keeps.ite | apply KeepsO.ite | apply KeepsO.next)
    | split
    | dsimp only

theorem execSafeLoad_keeps {s0 : State} (ch : Chan) (h : Hdr) (p : List Byte) (s : State) (hk : Keeps s0 s) : KeepsO s0 (execSafeLoad ch h p s) := by
  unfold execSafeLoad
  repeat' first
    | (with_reducible first | exact hk | assumption | apply State.p_keeps | apply State.postCmd_keeps | apply Keeps.ite | apply KeepsO.ite | apply KeepsO.next)
    | split
    | dsimp only

theorem execSealAccept_keeps {s0 : State} (ch : Chan) (h : Hdr) (p : List Byte) (s : State) (hk : Keeps s0 s) : KeepsO s0 (execSealAccept ch h p s) := by
  unfold execSealAccept
  repeat' first
    | (with_reducible first | exact hk | assumption | apply State.p_keeps | apply State.postCmd_keeps | apply Keeps.ite | apply KeepsO.ite | apply KeepsO.next)
    | split
    | dsimp only

theorem execScAck_keeps {s0 : State} (ch : Chan) (h : Hdr) (p : List Byte) (s : State) (hk : Keeps s0 s) : KeepsO s0 (execScAck ch h p s) := by
  unfold execScAck
  repeat' first
    | (with_reducible first | exact hk | assumption | apply State.p_keeps | apply State.postCmd_keeps | apply Keeps.ite | apply KeepsO.ite | apply KeepsO.next)
    | split
    | dsimp only

theorem execSafeStatus_keeps {s0 : State} (ch : Chan) (h : Hdr) (p : List Byte) (s : State) (hk : Keeps s0 s) : KeepsO s0 (execSafeStatus ch h p s) := by
  unfold execSafeStatus
  repeat' first
    | (with_reducible first | exact hk | assumption | apply State.p_keeps | apply State.postCmd_keeps | apply Keeps.ite | apply KeepsO.ite | apply KeepsO.next)
    | split
    | dsimp only

theorem execFioConfig_keeps {s0 : State} (ch : Chan) (h : Hdr) (p : List Byte) (s : State) (hk : Keeps s0 s) : KeepsO s0 (execFioConfig ch h p s) := by
  unfold execFioConfig
  repeat' first
    | (with_reducible first | exact hk | assumption | apply State.p_keeps | apply State.postCmd_keeps | apply Keeps.ite | apply KeepsO.ite | apply KeepsO.next)
    | split
    | dsimp only

theorem execFioRelease_keeps {s0 : State} (ch : Chan) (h : Hdr) (p : List Byte) (s : State) (hk : Keeps s0 s) : KeepsO s0 (execFioRelease ch h p s) := by
  unfold execFioRelease
  repeat' first
    | (with_reducible first | exact hk | assumption | apply State.p_keeps | apply State.postCmd_keeps | apply Keeps.ite | apply KeepsO.ite | apply KeepsO.next)
    | split
    | dsimp only

theorem execFioStatus_keeps {s0 : State} (ch : Chan) (h : Hdr) (p : List Byte) (s : State) (hk : Keeps s0 s) : KeepsO s0 (execFioStatus ch h p s) := by
  unfold execFioStatus
  repeat' first
    | (with_reducible first | exact hk | assumption | apply State.p_keeps | apply State.postCmd_keeps | apply Keeps.ite | apply KeepsO.ite | apply KeepsO.next)
    | split
    | dsimp only

theorem execUnitConfig_keeps {s0 : State} (ch : Chan) (h : Hdr) (p : List Byte) (s : State) (hk : Keeps s0 s) : KeepsO s0 (execUnitConfig ch h p s) := by
  unfold execUnitConfig
  repeat' first
    | (with_reducible first | exact hk | assumption | apply State.p_keeps | apply State.postCmd_keeps | apply Keeps.ite | apply KeepsO.ite | apply KeepsO.next)
    | split
    | dsimp only

theorem execUnitHandover_keeps {s0 : State} (ch : Chan) (h : Hdr) (p : List Byte) (s : State) (hk : Keeps s0 s) : KeepsO s0 (execUnitHandover ch h p s) := by
  unfold execUnitHandover
  repeat' first
    | (with_reducible first | exact hk | assumption | apply State.p_keeps | apply State.postCmd_keeps | apply Keeps.ite | apply KeepsO.ite | apply KeepsO.next)
    | split
    | dsimp only

theorem execUnitWitness_keeps {s0 : State} (ch : Chan) (h : Hdr) (p : List Byte) (s : State) (hk : Keeps s0 s) : KeepsO s0 (execUnitWitness ch h p s) := by
  unfold execUnitWitness
  repeat' first
    | (with_reducible first | exact hk | assumption | apply State.p_keeps | apply State.postCmd_keeps | apply Keeps.ite | apply KeepsO.ite | apply KeepsO.next)
    | split
    | dsimp only

theorem execUnitStatus_keeps {s0 : State} (ch : Chan) (h : Hdr) (p : List Byte) (s : State) (hk : Keeps s0 s) : KeepsO s0 (execUnitStatus ch h p s) := by
  unfold execUnitStatus
  repeat' first
    | (with_reducible first | exact hk | assumption | apply State.p_keeps | apply State.postCmd_keeps | apply Keeps.ite | apply KeepsO.ite | apply KeepsO.next)
    | split
    | dsimp only

theorem execFaultAck_keeps {s0 : State} (ch : Chan) (h : Hdr) (p : List Byte) (s : State) (hk : Keeps s0 s) : KeepsO s0 (execFaultAck ch h p s) := by
  unfold execFaultAck
  repeat' first
    | (with_reducible first | exact hk | assumption | apply State.p_keeps | apply State.postCmd_keeps | apply Keeps.ite | apply KeepsO.ite | apply KeepsO.next)
    | split
    | dsimp only

theorem execFaultHistory_keeps {s0 : State} (ch : Chan) (h : Hdr) (p : List Byte) (s : State) (hk : Keeps s0 s) : KeepsO s0 (execFaultHistory ch h p s) := by
  unfold execFaultHistory
  repeat' first
    | (with_reducible first | exact hk | assumption | apply State.p_keeps | apply State.postCmd_keeps | apply Keeps.ite | apply KeepsO.ite | apply KeepsO.next)
    | split
    | dsimp only

theorem execFaultInject_keeps {s0 : State} (ch : Chan) (h : Hdr) (p : List Byte) (s : State) (hk : Keeps s0 s) : KeepsO s0 (execFaultInject ch h p s) := by
  unfold execFaultInject
  repeat' first
    | (with_reducible first | exact hk | assumption | apply State.p_keeps | apply State.postCmd_keeps | apply Keeps.ite | apply KeepsO.ite | apply KeepsO.next)
    | split
    | dsimp only

theorem execFaultStatus_keeps {s0 : State} (ch : Chan) (h : Hdr) (p : List Byte) (s : State) (hk : Keeps s0 s) : KeepsO s0 (execFaultStatus ch h p s) := by
  unfold execFaultStatus
  repeat' first
    | (with_reducible first | exact hk | assumption | apply State.p_keeps | apply State.postCmd_keeps | apply Keeps.ite | apply KeepsO.ite | apply KeepsO.next)
    | split
    | dsimp only

theorem execEvRead_keeps {s0 : State} (ch : Chan) (h : Hdr) (p : List Byte) (s : State) (hk : Keeps s0 s) : KeepsO s0 (execEvRead ch h p s) := by
  unfold execEvRead
  repeat' first
    | (with_reducible first | exact hk | assumption | apply State.p_keeps | apply State.postCmd_keeps | apply Keeps.ite | apply KeepsO.ite | apply KeepsO.next)
    | split
    | dsimp only

theorem execEvStatus_keeps {s0 : State} (ch : Chan) (h : Hdr) (p : List Byte) (s : State) (hk : Keeps s0 s) : KeepsO s0 (execEvStatus ch h p s) := by
  unfold execEvStatus
  repeat' first
    | (with_reducible first | exact hk | assumption | apply State.p_keeps | apply State.postCmd_keeps | apply Keeps.ite | apply KeepsO.ite | apply KeepsO.next)
    | split
    | dsimp only

theorem execEvClear_keeps {s0 : State} (ch : Chan) (h : Hdr) (p : List Byte) (s : State) (hk : Keeps s0 s) : KeepsO s0 (execEvClear ch h p s) := by
  unfold execEvClear
  repeat' first
    | (with_reducible first | exact hk | assumption | apply State.p_keeps | apply State.postCmd_keeps | apply Keeps.ite | apply KeepsO.ite | apply KeepsO.next)
    | split
    | dsimp only

theorem execUpManifest_keeps {s0 : State} (ch : Chan) (h : Hdr) (p : List Byte) (s : State) (hk : Keeps s0 s) : KeepsO s0 (execUpManifest ch h p s) := by
  unfold execUpManifest
  repeat' first
    | (with_reducible first | exact hk | assumption | apply State.p_keeps | apply State.postCmd_keeps | apply Keeps.ite | apply KeepsO.ite | apply KeepsO.next)
    | split
    | dsimp only

theorem execUpChunk_keeps {s0 : State} (ch : Chan) (h : Hdr) (p : List Byte) (s : State) (hk : Keeps s0 s) : KeepsO s0 (execUpChunk ch h p s) := by
  unfold execUpChunk
  repeat' first
    | (with_reducible first | exact hk | assumption | apply State.p_keeps | apply State.postCmd_keeps | apply Keeps.ite | apply KeepsO.ite | apply KeepsO.next)
    | split
    | dsimp only

theorem execUpStatus_keeps {s0 : State} (ch : Chan) (h : Hdr) (p : List Byte) (s : State) (hk : Keeps s0 s) : KeepsO s0 (execUpStatus ch h p s) := by
  unfold execUpStatus
  repeat' first
    | (with_reducible first | exact hk | assumption | apply State.p_keeps | apply State.postCmd_keeps | apply Keeps.ite | apply KeepsO.ite | apply KeepsO.next)
    | split
    | dsimp only

theorem execUpActivate_keeps {s0 : State} (ch : Chan) (h : Hdr) (p : List Byte) (s : State) (hk : Keeps s0 s) : KeepsO s0 (execUpActivate ch h p s) := by
  unfold execUpActivate
  repeat' first
    | (with_reducible first | exact hk | assumption | apply State.p_keeps | apply State.postCmd_keeps | apply Keeps.ite | apply KeepsO.ite | apply KeepsO.next)
    | split
    | dsimp only

theorem execUpAbandon_keeps {s0 : State} (ch : Chan) (h : Hdr) (p : List Byte) (s : State) (hk : Keeps s0 s) : KeepsO s0 (execUpAbandon ch h p s) := by
  unfold execUpAbandon
  repeat' first
    | (with_reducible first | exact hk | assumption | apply State.p_keeps | apply State.postCmd_keeps | apply Keeps.ite | apply KeepsO.ite | apply KeepsO.next)
    | split
    | dsimp only

theorem execTestRegread_keeps {s0 : State} (ch : Chan) (h : Hdr) (p : List Byte) (s : State) (hk : Keeps s0 s) : KeepsO s0 (execTestRegread ch h p s) := by
  unfold execTestRegread
  repeat' first
    | (with_reducible first | exact hk | assumption | apply State.p_keeps | apply State.postCmd_keeps | apply Keeps.ite | apply KeepsO.ite | apply KeepsO.next)
    | split
    | dsimp only

theorem execTestLoop_keeps {s0 : State} (ch : Chan) (h : Hdr) (p : List Byte) (s : State) (hk : Keeps s0 s) : KeepsO s0 (execTestLoop ch h p s) := by
  unfold execTestLoop
  repeat' first
    | (with_reducible first | exact hk | assumption | apply State.p_keeps | apply State.postCmd_keeps | apply Keeps.ite | apply KeepsO.ite | apply KeepsO.next)
    | split
    | dsimp only

theorem execTestProd_keeps {s0 : State} (ch : Chan) (h : Hdr) (p : List Byte) (s : State) (hk : Keeps s0 s) : KeepsO s0 (execTestProd ch h p s) := by
  unfold execTestProd
  repeat' first
    | (with_reducible first | exact hk | assumption | apply State.p_keeps | apply State.postCmd_keeps | apply Keeps.ite | apply KeepsO.ite | apply KeepsO.next)
    | split
    | dsimp only

theorem execLcChange_keeps {s0 : State} (ch : Chan) (h : Hdr) (p : List Byte) (s : State) (hk : Keeps s0 s) : KeepsO s0 (execLcChange ch h p s) := by
  unfold execLcChange
  repeat' first
    | (with_reducible first | exact hk | assumption | apply State.p_keeps | apply State.postCmd_keeps | apply Keeps.ite | apply KeepsO.ite | apply KeepsO.next)
    | split
    | dsimp only

theorem execLcDebugtoken_keeps {s0 : State} (ch : Chan) (h : Hdr) (p : List Byte) (s : State) (hk : Keeps s0 s) : KeepsO s0 (execLcDebugtoken ch h p s) := by
  unfold execLcDebugtoken
  repeat' first
    | (with_reducible first | exact hk | assumption | apply State.p_keeps | apply State.postCmd_keeps | apply Keeps.ite | apply KeepsO.ite | apply KeepsO.next)
    | split
    | dsimp only

theorem execUnknownCommand_keeps {s0 : State} (ch : Chan) (code : BitVec 16) (h : Hdr) (p : List Byte) (s : State) (hk : Keeps s0 s) : KeepsO s0 (execUnknownCommand ch code h p s) := by
  unfold execUnknownCommand
  repeat' first
    | (with_reducible first | exact hk | assumption | apply State.p_keeps | apply State.postCmd_keeps | apply Keeps.ite | apply KeepsO.ite | apply KeepsO.next)
    | split
    | dsimp only

/-! ### Dma -/

theorem State.setDmSrc_keeps {s0 : State} (s : State) (l n a : Nat) (hk : Keeps s0 s) : Keeps s0 (State.setDmSrc s l n a) := by
  unfold State.setDmSrc
  repeat' first
    | (with_reducible first | exact hk | assumption | apply State.p_keeps | apply Keeps.ite)
    | split
    | dsimp only

theorem State.setDmDst_keeps {s0 : State} (s : State) (l n a : Nat) (hk : Keeps s0 s) : Keeps s0 (State.setDmDst s l n a) := by
  unfold State.setDmDst
  repeat' first
    | (with_reducible first | exact hk | assumption | apply State.p_keeps | apply Keeps.ite)
    | split
    | dsimp only

theorem State.dmFault_keeps {s0 : State} (s : State) (l n cause side a : Nat) (hk : Keeps s0 s) : Keeps s0 (State.dmFault s l n cause side a) := by
  unfold State.dmFault
  repeat' first
    | (with_reducible first | exact hk | assumption | apply State.p_keeps | apply Keeps.ite)
    | split
    | dsimp only

theorem State.dmSuspend_keeps {s0 : State} (s : State) (l n cause side a : Nat) (hk : Keeps s0 s) : Keeps s0 (State.dmSuspend s l n cause side a) := by
  unfold State.dmSuspend
  repeat' first
    | (with_reducible first | exact hk | assumption | apply State.p_keeps | apply State.emit_keeps | apply State.dmFault_keeps | apply Keeps.ite)
    | split
    | dsimp only

theorem State.dmaWrite_keeps {s0 : State} (s : State) (l : Lane) (t a : Nat) (bs : List Byte) (hk : Keeps s0 s) : Keeps s0 (State.dmaWrite s l t a bs) := by
  unfold State.dmaWrite
  repeat' first
    | (with_reducible first | exact hk | assumption | apply State.storeBytes_keeps | apply State.rackPost_keeps | apply Keeps.ite)
    | (with_reducible apply Keeps.foldl; intro _ _ _)
    | simp only [Keeps.upd_iff]
    | split
    | dsimp only

theorem State.dmaGot_keeps {s0 : State} (s : State) (l n : Nat) (hk : Keeps s0 s) : Keeps s0 (State.dmaGot s l n) := by
  unfold State.dmaGot
  repeat' first
    | (with_reducible first | exact hk | assumption | apply Keeps.ite)
    | (with_reducible apply Keeps.modLane <;> [skip; exact fun _ hw => hw])
    | simp only [Keeps.upd_iff]
    | split
    | dsimp only

theorem State.dmaRead_keeps {s0 : State} (s : State) (l : Lane) (n t a k : Nat) (hk : Keeps s0 s) : Keeps s0 (State.dmaRead s l n t a k).1 := by
  unfold State.dmaRead
  repeat' first
    | (with_reducible first | exact hk | assumption | apply State.rackPost_keeps | apply State.dmaGot_keeps | apply Keeps.ite)
    | (with_reducible apply Keeps.modLane <;> [skip; exact fun _ hw => hw])
    | simp only [Keeps.upd_iff]
    | split
    | dsimp only

theorem State.dmaBurst_keeps {s0 : State} (s : State) (l : Lane) (n lim : Nat) (hk : Keeps s0 s) : Keeps s0 (State.dmaBurst s l n lim).1 := by
  unfold State.dmaBurst
  repeat' first
    | (with_reducible first | exact hk | assumption | apply State.p_keeps | apply State.setDmSrc_keeps | apply State.setDmDst_keeps | apply State.dmaWrite_keeps | apply State.dmaRead_keeps | apply Keeps.ite)
    | split
    | (with_reducible refine Keeps.fst ?_ (by assumption))
    | dsimp only

theorem State.dmaRun_keeps {s0 : State} (l : Lane) (n left fuel : Nat) (s : State) (hk : Keeps s0 s) : Keeps s0 (State.dmaRun l n left fuel s).1 := by
  induction fuel generalizing s with
  | zero => exact hk
  | succ fuel ih =>
    have h := State.dmaBurst_keeps s l n (s.g (DM_LEN_LEN l.val n) - left) hk
    simp only [State.dmaRun]
    split
    · exact hk
    · split
      · rename_i e; rw [e] at h; exact ih _ h
      · exact h

theorem State.dmaMove_keeps {s0 : State} (s : State) (l : Lane) (n lim : Nat) (hk : Keeps s0 s) : Keeps s0 (State.dmaMove s l n lim).1 := by
  unfold State.dmaMove
  repeat' first
    | (with_reducible first | exact hk | assumption | apply State.dmaRun_keeps | apply Keeps.ite)
    | split
    | dsimp only

theorem State.dmCmd_keeps {s0 : State} (s : State) (l n : Nat) (v : Word) (core : Option Nat) (hk : Keeps s0 s) : Keeps s0 (State.dmCmd s l n v core) := by
  unfold State.dmCmd
  repeat' first
    | (with_reducible first | exact hk | assumption | apply State.p_keeps | apply State.raise_keeps | apply State.discard_keeps | apply State.laneNotice_keeps | apply State.dmFault_keeps | apply State.dmaGot_keeps | apply Keeps.ite)
    | split
    | dsimp only

theorem State.loadDesc_keeps {s0 : State} (s : State) (l n : Nat) (a : Nat) (d : List Byte) (hk : Keeps s0 s) : Keeps s0 (State.loadDesc s l n a d) := by
  unfold State.loadDesc
  repeat' first
    | (with_reducible first | exact hk | assumption | apply State.p_keeps | apply State.pb_keeps | apply State.emit_keeps | apply State.setDmSrc_keeps | apply State.setDmDst_keeps | apply State.dmSuspend_keeps | apply Keeps.ite)
    | split
    | dsimp only

theorem State.descEnd_keeps {s0 : State} (s : State) (l : Lane) (n : Nat) (hk : Keeps s0 s) : Keeps s0 (State.descEnd s l n) := by
  unfold State.descEnd
  repeat' first
    | (with_reducible first | exact hk | assumption | apply State.p_keeps | apply State.emit_keeps | apply State.dmSuspend_keeps | apply State.dmaRead_keeps | apply State.loadDesc_keeps | apply Keeps.ite)
    | split
    | (with_reducible refine Keeps.fst ?_ (by assumption))
    | dsimp only

theorem State.dmaAfter_keeps {s0 : State} (l : Lane) (n : Nat) (x : State × Burst) (hk : Keeps s0 x.1) : Keeps s0 (State.dmaAfter l n x) := by
  obtain ⟨s, b⟩ := x
  cases b <;> simp only [State.dmaAfter]
  · exact Keeps.ite (State.descEnd_keeps _ _ _ hk) hk
  · exact hk
  · exact State.dmSuspend_keeps _ _ _ _ _ _ hk

theorem execDmaDescriptorDone_keeps {s0 : State} (l : Lane) (n : Fin 16) (s : State) (hk : Keeps s0 s) : KeepsO s0 (execDmaDescriptorDone l n s) := by
  unfold execDmaDescriptorDone
  repeat' first
    | (with_reducible first | exact hk | assumption | apply State.dmaMove_keeps | apply State.dmaAfter_keeps | apply Keeps.ite | apply KeepsO.ite | apply KeepsO.next)
    | split
    | (with_reducible refine Keeps.fst ?_ (by assumption))
    | dsimp only

theorem execDmaFault_keeps {s0 : State} (l : Lane) (n : Fin 16) (moved : Nat) (side : DmaSide) (target : Bool) (s : State) (hk : Keeps s0 s) : KeepsO s0 (execDmaFault l n moved side target s) := by
  unfold execDmaFault
  repeat' first
    | (with_reducible first | exact hk | assumption | apply State.dmSuspend_keeps | apply State.dmaMove_keeps | apply Keeps.ite | apply KeepsO.ite | apply KeepsO.next)
    | split
    | (with_reducible refine Keeps.fst ?_ (by assumption))
    | dsimp only

theorem State.dmaTurn_keeps {s0 : State} (l : Lane) (ns : List Nat) (s : State) (hk : Keeps s0 s) : Keeps s0 (State.dmaTurn l ns s) := by
  induction ns generalizing s with
  | nil => exact hk
  | cons n ns ih =>
    simp only [State.dmaTurn]
    refine Keeps.ite (ih _ hk) ?_
    have h : Keeps s0 (if s.g (DM_LEN_LEN l.val n) == 0 then (s, Burst.moved) else s.dmaBurst l n 128).1 := by
      split
      · exact hk
      · exact State.dmaBurst_keeps _ _ _ _ hk
    split
    · exact ih _ h
    · exact Keeps.modLane _ _ (State.dmaAfter_keeps _ _ _ h) (fun _ hw => hw)

theorem State.dmaTick_keeps {s0 : State} (s : State) (l : Lane) (hk : Keeps s0 s) : Keeps s0 (State.dmaTick s l) := by
  unfold State.dmaTick
  repeat' first
    | (with_reducible first | exact hk | assumption | apply State.dmaTurn_keeps | apply Keeps.ite)
    | split
    | dsimp only

end Sys2Proof.Machine
end

