-- ==== Sys2Proof/Laws/Keep12.lean ====
section
/-! SUPPORT. What every operation keeps of a state (`Keeps`): those of Machine/Session.lean, RegWrite.lean, RunAhead.lean, Tick.lean, Step.lean. -/

set_option linter.all false

namespace Sys2Proof.Machine
open Sys2Proof.Safety

/-! ### Session -/

theorem execCommandWindowClose_keeps {s0 : State} (k : StreamKind) (t : Task) (s : State) (hk : Keeps s0 s) : KeepsO s0 (execCommandWindowClose k t s) := by
  unfold execCommandWindowClose
  repeat' first
    | (with_reducible first | exact hk | assumption | apply State.p_keeps | apply State.endStream_keeps | apply State.take_keeps | apply State.closeStream_keeps | apply State.rackBusError_keeps | apply State.rackAct_keeps | apply State.runCmd_keeps | apply State.cmdFails_keeps | apply Keeps.ite | apply KeepsO.ite | apply KeepsO.next)
    | (with_reducible apply Keeps.foldl; intro _ _ _)
    | simp only [Keeps.upd_iff]
    | split
    | (with_reducible refine Keeps.fst ?_ (by assumption))
    | dsimp only

theorem execChannelReset_keeps {s0 : State} (ch : Chan) (s : State) (hk : Keeps s0 s) : KeepsO s0 (execChannelReset ch s) := by
  unfold execChannelReset
  repeat' first
    | (with_reducible first | exact hk | assumption | apply State.chanReset_keeps | apply Keeps.ite | apply KeepsO.ite | apply KeepsO.next)
    | split
    | dsimp only

theorem State.evTail_keeps {s0 : State} (s : State) (c tail : Nat) (hk : Keeps s0 s) : Keeps s0 (State.evTail s c tail) := by
  unfold State.evTail
  repeat' first
    | (with_reducible first | exact hk | assumption | apply State.releaseEv_keeps | apply State.notice_keeps | apply Keeps.ite)
    | split
    | dsimp only

theorem execEventRelease_keeps {s0 : State} (ch : Chan) (tail : Fin 32) (s : State) (hk : Keeps s0 s) : KeepsO s0 (execEventRelease ch tail s) := by
  unfold execEventRelease
  repeat' first
    | (with_reducible first | exact hk | assumption | apply State.evTail_keeps | apply Keeps.ite | apply KeepsO.ite | apply KeepsO.next)
    | split
    | dsimp only

theorem execSessionConnect_keeps {s0 : State} (via : SvcVia) (s : State) (hk : Keeps s0 s) : KeepsO s0 (execSessionConnect via s) := by
  unfold execSessionConnect
  repeat' first
    | (with_reducible first | exact hk | assumption | apply State.emit_keeps | apply Keeps.ite | apply KeepsO.ite | apply KeepsO.next)
    | simp only [Keeps.upd_iff]
    | split
    | dsimp only

theorem State.badRecord_keeps {s0 : State} (s : State) (hk : Keeps s0 s) : Keeps s0 (State.badRecord s) := by
  unfold State.badRecord
  repeat' first
    | (with_reducible first | exact hk | assumption | apply State.notice_keeps | apply State.endSession_keeps | apply Keeps.ite)
    | split
    | dsimp only

theorem State.failedProof_keeps {s0 : State} (s : State) (hk : Keeps s0 s) : Keeps s0 (State.failedProof s) := by
  unfold State.failedProof
  repeat' first
    | (with_reducible first | exact hk | assumption | apply State.notice_keeps | apply State.endSession_keeps | apply Keeps.ite)
    | simp only [Keeps.upd_iff]
    | split
    | dsimp only

theorem execHello_keeps {s0 : State} (ctr : Nat) (nc : List Byte) (cred : Byte) (s : State) (hk : Keeps s0 s) : KeepsO s0 (execHello ctr nc cred s) := by
  unfold execHello
  repeat' first
    | (with_reducible first | exact hk | assumption | apply State.sendRecord_keeps | apply State.endSession_keeps | apply State.badRecord_keeps | apply State.failedProof_keeps | apply Keeps.ite | apply KeepsO.ite | apply KeepsO.next)
    | simp only [Keeps.upd_iff]
    | split
    | dsimp only

theorem execProof_keeps {s0 : State} (ctr : Nat) (mac : List Byte) (s : State) (hk : Keeps s0 s) : KeepsO s0 (execProof ctr mac s) := by
  unfold execProof
  repeat' first
    | (with_reducible first | exact hk | assumption | apply State.p_keeps | apply State.sendRecord_keeps | apply State.openChan_keeps | apply State.badRecord_keeps | apply State.failedProof_keeps | apply Keeps.ite | apply KeepsO.ite | apply KeepsO.next)
    | simp only [Keeps.upd_iff]
    | split
    | dsimp only

theorem State.clientRecord_keeps {s0 : State} (s : State) (kind : Nat) (body : List Byte) (hk : Keeps s0 s) : Keeps s0 (State.clientRecord s kind body) := by
  unfold State.clientRecord
  repeat' first
    | (with_reducible first | exact hk | assumption | apply State.writeCmd_keeps | apply State.endSession_keeps | apply State.doorbell_keeps | apply State.chanReset_keeps | apply State.badRecord_keeps | apply Keeps.ite)
    | split
    | dsimp only

theorem execCommandRecord_keeps {s0 : State} (rec : SvcRecord) (s : State) (hk : Keeps s0 s) : KeepsO s0 (execCommandRecord rec s) := by
  unfold execCommandRecord
  repeat' first
    | (with_reducible first | exact hk | assumption | apply State.badRecord_keeps | apply State.clientRecord_keeps | apply Keeps.ite | apply KeepsO.ite | apply KeepsO.next)
    | simp only [Keeps.upd_iff]
    | split
    | dsimp only

theorem execCloseRecord_keeps {s0 : State} (ctr : Nat) (atag : List Byte) (s : State) (hk : Keeps s0 s) : KeepsO s0 (execCloseRecord ctr atag s) := by
  unfold execCloseRecord
  repeat' first
    | (with_reducible first | exact hk | assumption | apply State.endSession_keeps | apply State.badRecord_keeps | apply Keeps.ite | apply KeepsO.ite | apply KeepsO.next)
    | simp only [Keeps.upd_iff]
    | split
    | dsimp only

theorem execAuthenticationTimeout_keeps {s0 : State} (s : State) (hk : Keeps s0 s) : KeepsO s0 (execAuthenticationTimeout s) := by
  unfold execAuthenticationTimeout
  repeat' first
    | (with_reducible first | exact hk | assumption | apply State.endSession_keeps | apply Keeps.ite | apply KeepsO.ite | apply KeepsO.next)
    | split
    | dsimp only

theorem execSessionIdleTimeout_keeps {s0 : State} (s : State) (hk : Keeps s0 s) : KeepsO s0 (execSessionIdleTimeout s) := by
  unfold execSessionIdleTimeout
  repeat' first
    | (with_reducible first | exact hk | assumption | apply State.endSession_keeps | apply Keeps.ite | apply KeepsO.ite | apply KeepsO.next)
    | split
    | dsimp only

theorem execHelloRefusalEnd_keeps {s0 : State} (s : State) (hk : Keeps s0 s) : KeepsO s0 (execHelloRefusalEnd s) := by
  unfold execHelloRefusalEnd
  repeat' first
    | (with_reducible first | exact hk | assumption | apply Keeps.ite | apply KeepsO.ite | apply KeepsO.next)
    | simp only [Keeps.upd_iff]
    | split
    | dsimp only

/-! ### RegWrite -/

theorem State.sfCtrl_keeps {s0 : State} (s : State) (a : Nat) (v : Word) (fs : List RegFld) (hk : Keeps s0 s) : Keeps s0 (State.sfCtrl s a v fs) := by
  unfold State.sfCtrl
  repeat' first
    | (with_reducible first | exact hk | assumption | apply State.notice_keeps | apply State.sfSwitched_keeps | apply State.plainWrite_keeps | apply Keeps.ite)
    | split
    | (with_reducible refine Keeps.fst ?_ (by assumption))
    | dsimp only

theorem State.wcfgWrite_keeps {s0 : State} (s : State) (a : Nat) (v : Word) (fs : List RegFld) (hk : Keeps s0 s) : Keeps s0 (State.wcfgWrite s a v fs) := by
  unfold State.wcfgWrite
  repeat' first
    | (with_reducible first | exact hk | assumption | apply State.p_keeps | apply State.pb_keeps | apply State.notice_keeps | apply State.plainWrite_keeps | apply Keeps.ite)
    | split
    | (with_reducible refine Keeps.fst ?_ (by assumption))
    | dsimp only

theorem State.mbWrite_keeps {s0 : State} (s : State) (a : Nat) (v : Word) (keeper : Bool) (fs : List RegFld) (hk : Keeps s0 s) : Keeps s0 (State.mbWrite s a v keeper fs) := by
  unfold State.mbWrite
  repeat' first
    | (with_reducible first | exact hk | assumption | apply State.p_keeps | apply State.plainWrite_keeps | apply State.doorbell_keeps | apply State.chanReset_keeps | apply State.evTail_keeps | apply Keeps.ite)
    | simp only [Keeps.upd_iff]
    | simp only [Keeps.mb_iff]
    | (with_reducible apply Keeps.setMb <;> [skip; exact fun hw => by simp [hw, Memory.wf_wrL, Memory.wf_wipe]])
    | split
    | (with_reducible refine Keeps.fst ?_ (by assumption))
    | dsimp only

theorem State.keeperWrite_keeps {s0 : State} (s : State) (a : Nat) (v : Word) (fs : List RegFld) (hk : Keeps s0 s) : Keeps s0 (State.keeperWrite s a v fs) := by
  unfold State.keeperWrite
  repeat' first
    | (with_reducible first | exact hk | assumption | apply State.p_keeps | apply State.pb_keeps | apply State.scOff_keeps | apply State.chanGates_keeps | apply State.plainWrite_keeps | apply State.writeSpare_keeps | apply State.fcForce_keeps | apply State.sfCtrl_keeps | apply State.wcfgWrite_keeps | apply Keeps.ite)
    | split
    | (with_reducible refine Keeps.fst ?_ (by assumption))
    | dsimp only

theorem State.tuWrite_keeps {s0 : State} (s : State) (a : Nat) (v : Word) (fs : List RegFld) (hk : Keeps s0 s) : Keeps s0 (State.tuWrite s a v fs) := by
  unfold State.tuWrite
  repeat' first
    | (with_reducible first | exact hk | assumption | apply State.p_keeps | apply State.incWrite_keeps | apply State.eranextWrite_keeps | apply State.snapshot_keeps | apply State.capConfig_keeps | apply State.trgWrite_keeps | apply State.stepWrite_keeps | apply State.setSync_keeps | apply State.plainWrite_keeps | apply Keeps.ite)
    | simp only [Keeps.upd_iff]
    | split
    | (with_reducible refine Keeps.fst ?_ (by assumption))
    | dsimp only

theorem State.bzWrite_keeps {s0 : State} (s : State) (r a : Nat) (v : Word) (fs : List RegFld) (hk : Keeps s0 s) : Keeps s0 (State.bzWrite s r a v fs) := by
  unfold State.bzWrite
  repeat' first
    | (with_reducible first | exact hk | assumption | apply State.notice_keeps | apply State.disableRing_keeps | apply State.afterLoss_keeps | apply State.enableRing_keeps | apply State.plainWrite_keeps | apply Keeps.ite)
    | split
    | (with_reducible refine Keeps.fst ?_ (by assumption))
    | dsimp only

theorem State.enWrite_keeps {s0 : State} (s : State) (a : Nat) (v : Word) (fs : List RegFld) (hk : Keeps s0 s) : Keeps s0 (State.enWrite s a v fs) := by
  unfold State.enWrite
  repeat' first
    | (with_reducible first | exact hk | assumption | apply State.plainWrite_keeps | apply State.ptpChoose_keeps | apply Keeps.ite)
    | simp only [Keeps.upd_iff]
    | split
    | (with_reducible refine Keeps.fst ?_ (by assumption))
    | dsimp only

theorem State.networkWrite_keeps {s0 : State} (s : State) (a : Nat) (v : Word) (fs : List RegFld) (hk : Keeps s0 s) : Keeps s0 (State.networkWrite s a v fs) := by
  unfold State.networkWrite
  repeat' first
    | (with_reducible first | exact hk | assumption | apply State.p_keeps | apply State.plainWrite_keeps | apply State.tuWrite_keeps | apply State.bzWrite_keeps | apply State.enWrite_keeps | apply Keeps.ite)
    | split
    | (with_reducible refine Keeps.fst ?_ (by assumption))
    | dsimp only

theorem State.fieldWrite_keeps {s0 : State} (s : State) (a : Nat) (v : Word) (fs : List RegFld) (hk : Keeps s0 s) : Keeps s0 (State.fieldWrite s a v fs) := by
  unfold State.fieldWrite
  repeat' first
    | (with_reducible first | exact hk | assumption | apply State.p_keeps | apply State.driveOutputs_keeps | apply State.setTop_keeps | apply State.release_keeps | apply State.effAlarm_keeps | apply State.aioMode_keeps | apply State.plainWrite_keeps | apply Keeps.ite)
    | split
    | (with_reducible refine Keeps.fst ?_ (by assumption))
    | dsimp only

theorem State.raWrite_keeps {s0 : State} (s : State) (l a : Nat) (v : Word) (fs : List RegFld) (hk : Keeps s0 s) : Keeps s0 (State.raWrite s l a v fs) := by
  unfold State.raWrite
  repeat' first
    | (with_reducible first | exact hk | assumption | apply State.dropLaneCtx_keeps | apply State.plainWrite_keeps | apply State.laneNotice_keeps | apply Keeps.ite)
    | split
    | (with_reducible refine Keeps.fst ?_ (by assumption))
    | dsimp only

theorem State.laneWrite_keeps {s0 : State} (s : State) (l a : Nat) (v : Word) (core : Bool) (fs : List RegFld) (hk : Keeps s0 s) : Keeps s0 (State.laneWrite s l a v core fs) := by
  unfold State.laneWrite
  repeat' first
    | (with_reducible first | exact hk | assumption | apply State.p_keeps | apply State.pairCtx_keeps | apply State.plainWrite_keeps | apply State.laneNotice_keeps | apply State.pxForce_keeps | apply State.dispWrite_keeps | apply State.pxCmd_keeps | apply State.sdCtrl_keeps | apply State.dmCmd_keeps | apply State.raWrite_keeps | apply Keeps.ite)
    | split
    | (with_reducible refine Keeps.fst ?_ (by assumption))
    | dsimp only

theorem State.regWrite_keeps {s0 : State} (s : State) (a : Nat) (v : Word) (core : Bool) (hk : Keeps s0 s) : Keeps s0 (State.regWrite s a v core) := by
  unfold State.regWrite
  repeat' first
    | (with_reducible first | exact hk | assumption | apply State.p_keeps | apply State.mbWrite_keeps | apply State.keeperWrite_keeps | apply State.networkWrite_keeps | apply State.fieldWrite_keeps | apply State.laneWrite_keeps | apply Keeps.ite)
    | split
    | dsimp only

theorem execDiTopWrite_keeps {s0 : State} (n : Fin 16) (v : Word) (s : State) (hk : Keeps s0 s) : KeepsO s0 (execDiTopWrite n v s) := by
  unfold execDiTopWrite
  repeat' first
    | (with_reducible first | exact hk | assumption | apply State.regWrite_keeps | apply Keeps.ite | apply KeepsO.ite | apply KeepsO.next)
    | split
    | dsimp only

/-! ### RunAhead -/

theorem State.byWords_keeps {s0 : State} (s : State) (f : State → Nat → List Byte → State) (a : Nat) (bs : List Byte)
    (hf : ∀ s a bs, Keeps s0 s → Keeps s0 (f s a bs)) (hk : Keeps s0 s) : Keeps s0 (State.byWords s f a bs) := by
  unfold State.byWords
  exact Keeps.ite (hf _ _ _ hk) (hf _ _ _ (hf _ _ _ hk))

theorem State.give_keeps {s0 : State} (s : State) (l c a : Nat) (bs : List Byte) (hk : Keeps s0 s) : Keeps s0 (State.give s l c a bs) := by
  unfold State.give
  repeat' first
    | (with_reducible first | exact hk | assumption | apply State.emit_keeps | apply Keeps.ite)
    | split
    | dsimp only

theorem State.meetFault_keeps {s0 : State} (s : State) (l c : Nat) (t : Option Nat) (spec : Bool) (op : CoreOp) (m : MmuRec) (hk : Keeps s0 s) : Keeps s0 (State.meetFault s l c t spec op m).1 := by
  unfold State.meetFault
  repeat' first
    | (with_reducible first | exact hk | assumption | apply State.holdCtx_keeps | apply State.mmuFault_keeps | apply Keeps.ite)
    | split
    | dsimp only

theorem State.openCtx_keeps {s0 : State} (s : State) (l t : Nat) (hk : Keeps s0 s) : Keeps s0 (State.openCtx s l t) := by
  unfold State.openCtx
  repeat' first
    | (with_reducible first | exact hk | assumption | apply State.p_keeps | apply State.modCtx_keeps | apply State.ctxClock_keeps | apply Keeps.ite)
    | simp only [Keeps.upd_iff]
    | split
    | dsimp only

theorem State.submitNow_keeps {s0 : State} (s : State) (l : Lane) (t : Nat) (hk : Keeps s0 s) : Keeps s0 (State.submitNow s l t) := by
  unfold State.submitNow
  repeat' first
    | (with_reducible first | exact hk | assumption | apply State.submitted_keeps | apply State.arriveSub_keeps | apply State.openCtx_keeps | apply Keeps.ite)
    | split
    | dsimp only

theorem State.rejectSubmit_keeps {s0 : State} (s : State) (l : Nat) (hk : Keeps s0 s) : Keeps s0 (State.rejectSubmit s l) := by
  unfold State.rejectSubmit
  repeat' first
    | (with_reducible first | exact hk | assumption | apply State.p_keeps | apply State.notice_keeps | apply Keeps.ite)
    | split
    | dsimp only

theorem State.endTask_keeps {s0 : State} (s : State) (l : Lane) (t : Nat) (abandon : Bool) (hk : Keeps s0 s) : Keeps s0 (State.endTask s l t abandon) := by
  unfold State.endTask
  repeat' first
    | (with_reducible first | exact hk | assumption | apply State.abandonCycle_keeps | apply State.submitNow_keeps | apply State.rejectSubmit_keeps | apply Keeps.ite)
    | split
    | dsimp only

theorem State.shadowLoad_keeps {s0 : State} (s : State) (l c a n : Nat) (hk : Keeps s0 s) : Keeps s0 (State.shadowLoad s l c a n) := by
  unfold State.shadowLoad
  repeat' first
    | (with_reducible first | exact hk | assumption | apply State.give_keeps | apply Keeps.ite)
    | (with_reducible apply Keeps.modLane <;> [skip; exact fun _ hw => hw])
    | simp only [Keeps.upd_iff]
    | split
    | dsimp only

theorem State.directLoad_keeps {s0 : State} (s : State) (l : Lane) (t : Option Nat) (c : Nat) (sup odd : Bool) (a n : Nat) (hk : Keeps s0 s) : Keeps s0 (State.directLoad s l t c sup odd a n) := by
  unfold State.directLoad
  repeat' first
    | (with_reducible first | exact hk | assumption | apply State.endWait_keeps | apply State.rackPost_keeps | apply State.give_keeps | apply State.shadowLoad_keeps | apply Keeps.ite)
    | (with_reducible apply Keeps.modLane <;> [skip; exact fun _ hw => hw])
    | simp only [Keeps.upd_iff]
    | split
    | dsimp only

theorem State.regStore_keeps {s0 : State} (s : State) (l : Lane) (c a : Nat) (v : Word) (hk : Keeps s0 s) : Keeps s0 (State.regStore s l c a v) := by
  unfold State.regStore
  repeat' first
    | (with_reducible first | exact hk | assumption | apply State.pairCtx_keeps | apply State.dispWrite_keeps | apply State.dmCmd_keeps | apply State.regWrite_keeps | apply State.endTask_keeps | apply Keeps.ite)
    | split
    | dsimp only

theorem State.directStore_keeps {s0 : State} (s : State) (l : Lane) (t : Option Nat) (c : Nat) (sup odd : Bool) (a : Nat) (bs : List Byte) (hk : Keeps s0 s) : Keeps s0 (State.directStore s l t c sup odd a bs) := by
  unfold State.directStore
  repeat' first
    | (with_reducible first | exact hk | assumption | apply State.storeBytes_keeps | apply State.retStore_keeps | apply State.rackPost_keeps | apply State.regStore_keeps | apply Keeps.ite)
    | (with_reducible refine State.byWords_keeps _ _ _ _ (fun _ _ _ _ => ?_) ?_)
    | simp only [Keeps.upd_iff]
    | split
    | dsimp only

theorem State.logStore_keeps {s0 : State} (s : State) (l t : Nat) (op : CoreOp) (a : Nat) (bs : List Byte) (hk : Keeps s0 s) : Keeps s0 (State.logStore s l t op a bs) := by
  unfold State.logStore
  repeat' first
    | (with_reducible first | exact hk | assumption | apply State.p_keeps | apply State.inc_keeps | apply State.modCtx_keeps | apply State.stallCtx_keeps | apply Keeps.ite)
    | simp only [Keeps.upd_iff]
    | split
    | dsimp only

theorem State.deferStore_keeps {s0 : State} (s : State) (l t : Nat) (op : CoreOp) (a : Nat) (bs : List Byte) (hk : Keeps s0 s) : Keeps s0 (State.deferStore s l t op a bs) := by
  unfold State.deferStore
  repeat' first
    | (with_reducible first | exact hk | assumption | apply State.deferWrite_keeps | apply Keeps.ite)
    | split
    | dsimp only

theorem State.specLoad_keeps {s0 : State} (s : State) (l t c : Nat) (op : CoreOp) (a n : Nat) (hk : Keeps s0 s) : Keeps s0 (State.specLoad s l t c op a n).1 := by
  unfold State.specLoad
  repeat' first
    | (with_reducible first | exact hk | assumption | apply State.modCtx_keeps | apply State.stallCtx_keeps | apply CmdRes.done_keeps | apply State.give_keeps | apply State.shadowLoad_keeps | apply Keeps.ite)
    | simp only [Keeps.upd_iff]
    | split
    | dsimp only

theorem State.dmQueued_keeps {s0 : State} (s : State) (l t : Nat) (hk : Keeps s0 s) : Keeps s0 (State.dmQueued s l t) := by
  unfold State.dmQueued
  repeat' first
    | (with_reducible first | exact hk | assumption | apply State.regWrite_keeps | apply Keeps.ite)
    | (with_reducible apply Keeps.foldl; intro _ _ _)
    | split
    | dsimp only

theorem State.specStore_keeps {s0 : State} (s : State) (l t c : Nat) (sup : Bool) (op : CoreOp) (a : Nat) (bs : List Byte) (hk : Keeps s0 s) : Keeps s0 (State.specStore s l t c sup op a bs).1 := by
  unfold State.specStore
  repeat' first
    | (with_reducible first | exact hk | assumption | apply State.storeBytes_keeps | apply State.pairCtx_keeps | apply State.stallCtx_keeps | apply State.holdCtx_keeps | apply CmdRes.done_keeps | apply State.meetFault_keeps | apply State.logStore_keeps | apply State.deferStore_keeps | apply State.dmQueued_keeps | apply Keeps.ite)
    | (with_reducible refine State.byWords_keeps _ _ _ _ (fun _ _ _ _ => ?_) ?_)
    | simp only [Keeps.upd_iff]
    | split
    | (with_reducible refine Keeps.fst ?_ (by assumption))
    | dsimp only

theorem State.access_keeps {s0 : State} (s : State) (l : Lane) (t : Option Nat) (c : Nat) (op : CoreOp) (hk : Keeps s0 s) : Keeps s0 (State.access s l t c op).1 := by
  unfold State.access
  repeat' first
    | (with_reducible first | exact hk | assumption | apply State.stallCtx_keeps | apply State.holdCtx_keeps | apply State.raise_keeps | apply CmdRes.done_keeps | apply CmdRes.idle_keeps | apply State.meetFault_keeps | apply State.endTask_keeps | apply State.directLoad_keeps | apply State.directStore_keeps | apply State.specLoad_keeps | apply State.specStore_keeps | apply Keeps.ite)
    | simp only [Keeps.upd_iff]
    | split
    | (with_reducible refine Keeps.fst ?_ (by assumption))
    | dsimp only

theorem State.work_keeps {s0 : State} (l : Lane) (t : Nat) (ops : List CoreOp) (s : State) (hk : Keeps s0 s) : Keeps s0 (State.work s l t ops) := by
  induction ops generalizing s with
  | nil => exact hk
  | cons op ops ih =>
    have h := State.access_keeps s l (some t) (s.opCore t op) op hk
    simp only [State.work]
    refine Keeps.ite hk (Keeps.ite (Keeps.modLane _ _ hk (fun _ hw => hw)) ?_)
    split <;> (rename_i e; rw [e] at h)
    · exact ih _ h
    · exact State.modCtx_keeps _ _ _ _ h
    · exact h

theorem State.resumeOps_keeps {s0 : State} (l : Lane) (ws : List (Option Nat × Nat × CoreOp)) (drop held : List Nat) (s : State)
    (hk : Keeps s0 s) : Keeps s0 (State.resumeOps l ws drop held s) := by
  induction ws generalizing drop held s with
  | nil => exact hk
  | cons w ws ih =>
    obtain ⟨t, c, op⟩ := w
    have h := State.access_keeps s l t c op hk
    simp only [State.resumeOps]
    refine Keeps.ite (ih _ _ _ hk) (Keeps.ite (ih _ _ _ (Keeps.modLane _ _ hk (fun _ hw => hw))) ?_)
    split <;> (rename_i e; rw [e] at h; exact ih _ _ _ h)

theorem State.retryOps_keeps {s0 : State} (s : State) (l : Lane) (hk : Keeps s0 s) : Keeps s0 (State.retryOps s l) := by
  unfold State.retryOps
  repeat' first
    | (with_reducible first | exact hk | assumption | apply State.resumeOps_keeps | apply Keeps.ite)
    | (with_reducible apply Keeps.modLane <;> [skip; exact fun _ hw => hw])
    | simp only [Keeps.upd_iff]
    | split
    | dsimp only

theorem State.retryAll_keeps {s0 : State} (s : State) (hk : Keeps s0 s) : Keeps s0 (State.retryAll s) := by
  unfold State.retryAll
  repeat' first
    | (with_reducible first | exact hk | assumption | apply State.retryOps_keeps | apply Keeps.ite)
    | (with_reducible apply Keeps.foldl; intro _ _ _)
    | split
    | dsimp only

theorem execSubmit_keeps {s0 : State} (l : Lane) (t : Task) (work : List CoreOp) (s : State) (hk : Keeps s0 s) : KeepsO s0 (execSubmit l t work s) := by
  unfold execSubmit
  repeat' first
    | (with_reducible first | exact hk | assumption | apply State.work_keeps | apply Keeps.ite | apply KeepsO.ite | apply KeepsO.next)
    | split
    | dsimp only

theorem execAbandon_keeps {s0 : State} (l : Lane) (t : Task) (work : List CoreOp) (s : State) (hk : Keeps s0 s) : KeepsO s0 (execAbandon l t work s) := by
  unfold execAbandon
  repeat' first
    | (with_reducible first | exact hk | assumption | apply State.work_keeps | apply Keeps.ite | apply KeepsO.ite | apply KeepsO.next)
    | split
    | dsimp only

theorem execMmuFault_keeps {s0 : State} (l : Lane) (c : Core) (a : Nat) (acc : AccessKind) (sup : Bool) (size : Nat) (s : State) (hk : Keeps s0 s) : KeepsO s0 (execMmuFault l c a acc sup size s) := by
  unfold execMmuFault
  repeat' first
    | (with_reducible first | exact hk | assumption | apply State.access_keeps | apply Keeps.ite | apply KeepsO.ite | apply KeepsO.next)
    | split
    | (with_reducible refine Keeps.fst ?_ (by assumption))
    | dsimp only

theorem execRetainedStore_keeps {s0 : State} (l : Lane) (st : RetStream) (a : Nat) (mask : BitVec 8) (v : BitVec 64) (s : State) (hk : Keeps s0 s) : KeepsO s0 (execRetainedStore l st a mask v s) := by
  unfold execRetainedStore
  repeat' first
    | (with_reducible first | exact hk | assumption | apply State.retStore_keeps | apply State.holdCtx_keeps | apply State.deferWrite_keeps | apply State.mmuFault_keeps | apply State.access_keeps | apply Keeps.ite | apply KeepsO.ite | apply KeepsO.next)
    | simp only [Keeps.upd_iff]
    | split
    | (with_reducible refine Keeps.fst ?_ (by assumption))
    | dsimp only

theorem execRackAccess_keeps {s0 : State} (l : Lane) (t : Task) (acc : RackReq) (s : State) (hk : Keeps s0 s) : KeepsO s0 (execRackAccess l t acc s) := by
  unfold execRackAccess
  repeat' first
    | (with_reducible first | exact hk | assumption | apply State.take_keeps | apply State.modCtx_keeps | apply State.stallCtx_keeps | apply State.rackPost_keeps | apply State.deferStore_keeps | apply Keeps.ite | apply KeepsO.ite | apply KeepsO.next)
    | (with_reducible apply Keeps.foldl; intro _ _ _)
    | simp only [Keeps.upd_iff]
    | split
    | dsimp only

theorem State.dmaRow_keeps {s0 : State} (s : State) (l : Lane) (n v : Nat) (hk : Keeps s0 s) : Keeps s0 (State.dmaRow s l n v) := by
  unfold State.dmaRow
  repeat' first
    | (with_reducible first | exact hk | assumption | apply State.dmCmd_keeps | apply State.specStore_keeps | apply Keeps.ite)
    | split
    | (with_reducible refine Keeps.fst ?_ (by assumption))
    | dsimp only

theorem execDmaStart_keeps {s0 : State} (l : Lane) (n : Fin 16) (s : State) (hk : Keeps s0 s) : KeepsO s0 (execDmaStart l n s) := by
  unfold execDmaStart
  repeat' first
    | (with_reducible first | exact hk | assumption | apply State.dmaRow_keeps | apply Keeps.ite | apply KeepsO.ite | apply KeepsO.next)
    | split
    | dsimp only

theorem execDmaResume_keeps {s0 : State} (l : Lane) (n : Fin 16) (s : State) (hk : Keeps s0 s) : KeepsO s0 (execDmaResume l n s) := by
  unfold execDmaResume
  repeat' first
    | (with_reducible first | exact hk | assumption | apply State.dmaRow_keeps | apply Keeps.ite | apply KeepsO.ite | apply KeepsO.next)
    | split
    | dsimp only

theorem execDmaAbort_keeps {s0 : State} (l : Lane) (n : Fin 16) (s : State) (hk : Keeps s0 s) : KeepsO s0 (execDmaAbort l n s) := by
  unfold execDmaAbort
  repeat' first
    | (with_reducible first | exact hk | assumption | apply State.dmaRow_keeps | apply Keeps.ite | apply KeepsO.ite | apply KeepsO.next)
    | split
    | dsimp only

theorem execDigestScanDone_keeps {s0 : State} (l : Lane) (s : State) (hk : Keeps s0 s) : KeepsO s0 (execDigestScanDone l s) := by
  unfold execDigestScanDone
  repeat' first
    | (with_reducible first | exact hk | assumption | apply State.p_keeps | apply State.retryOps_keeps | apply Keeps.ite | apply KeepsO.ite | apply KeepsO.next)
    | split
    | dsimp only

theorem State.rollback_keeps {s0 : State} (s : State) (l t cause : Nat) (hk : Keeps s0 s) : Keeps s0 (State.rollback s l t cause) := by
  unfold State.rollback
  repeat' first
    | (with_reducible first | exact hk | assumption | apply State.p_keeps | apply State.inc_keeps | apply Keeps.ite)
    | split
    | dsimp only

theorem State.tryCommit_keeps {s0 : State} (s : State) (l t : Nat) (hk : Keeps s0 s) : Keeps s0 (State.tryCommit s l t) := by
  unfold State.tryCommit
  repeat' first
    | (with_reducible first | exact hk | assumption | apply State.p_keeps | apply State.ctxClock_keeps | apply Keeps.ite)
    | split
    | dsimp only

theorem execVoteOutcome_keeps {s0 : State} (l : Lane) (t : Task) (work : List CoreOp) (s : State) (hk : Keeps s0 s) : KeepsO s0 (execVoteOutcome l t work s) := by
  unfold execVoteOutcome
  repeat' first
    | (with_reducible first | exact hk | assumption | apply State.p_keeps | apply State.work_keeps | apply State.rollback_keeps | apply State.tryCommit_keeps | apply Keeps.ite | apply KeepsO.ite | apply KeepsO.next)
    | split
    | dsimp only

theorem State.drainEntry_keeps {s0 : State} (l : Lane) (t : Nat) (s : State) (e : Nat × Nat × BitVec 64) (hk : Keeps s0 s) : Keeps s0 (State.drainEntry l t s e) := by
  unfold State.drainEntry
  repeat' first
    | (with_reducible first | exact hk | assumption | apply State.take_keeps | apply State.retStore_keeps | apply State.directStore_keeps | apply Keeps.ite)
    | split
    | dsimp only

theorem execSpeculativeCommitDone_keeps {s0 : State} (l : Lane) (t : Task) (s : State) (hk : Keeps s0 s) : KeepsO s0 (execSpeculativeCommitDone l t s) := by
  unfold execSpeculativeCommitDone
  repeat' first
    | (with_reducible first | exact hk | assumption | apply State.p_keeps | apply State.inc_keeps | apply State.closeCtx_keeps | apply State.storeWord_keeps | apply State.modLt_keeps | apply State.work_keeps | apply State.drainEntry_keeps | apply Keeps.ite | apply KeepsO.ite | apply KeepsO.next)
    | (with_reducible apply Keeps.foldl; intro _ _ _)
    | simp only [Keeps.upd_iff]
    | split
    | dsimp only

theorem State.startIfDue_keeps {s0 : State} (s : State) (l t : Nat) (hk : Keeps s0 s) : Keeps s0 (State.startIfDue s l t) := by
  unfold State.startIfDue
  repeat' first
    | (with_reducible first | exact hk | assumption | apply State.modLt_keeps | apply Keeps.ite)
    | simp only [Keeps.upd_iff]
    | split
    | dsimp only

theorem execRollbackDone_keeps {s0 : State} (l : Lane) (t : Task) (s : State) (hk : Keeps s0 s) : KeepsO s0 (execRollbackDone l t s) := by
  unfold execRollbackDone
  repeat' first
    | (with_reducible first | exact hk | assumption | apply State.emit_keeps | apply State.closeCtx_keeps | apply State.startIfDue_keeps | apply Keeps.ite | apply KeepsO.ite | apply KeepsO.next)
    | split
    | dsimp only

theorem State.imgVerdict_keeps {s0 : State} (s : State) (l t cycle : Nat) (bad : List Nat) (hk : Keeps s0 s) : Keeps s0 (State.imgVerdict s l t cycle bad) := by
  unfold State.imgVerdict
  repeat' first
    | (with_reducible first | exact hk | assumption | apply State.p_keeps | apply State.rollback_keeps | apply State.tryCommit_keeps | apply Keeps.ite)
    | simp only [Keeps.upd_iff]
    | split
    | dsimp only

theorem execImageDelivery_keeps {s0 : State} (l : Lane) (t : Task) (work : List CoreOp) (s : State) (hk : Keeps s0 s) : KeepsO s0 (execImageDelivery l t work s) := by
  unfold execImageDelivery
  repeat' first
    | (with_reducible first | exact hk | assumption | apply State.p_keeps | apply State.modLt_keeps | apply CmdRes.idle_keeps | apply State.work_keeps | apply State.startIfDue_keeps | apply State.imgVerdict_keeps | apply Keeps.ite | apply KeepsO.ite | apply KeepsO.next)
    | (with_reducible apply Keeps.modLane <;> [skip; exact fun _ hw => hw])
    | simp only [Keeps.upd_iff]
    | split
    | dsimp only

theorem execCycleStart_keeps {s0 : State} (l : Lane) (t : Task) (s : State) (hk : Keeps s0 s) : KeepsO s0 (execCycleStart l t s) := by
  unfold execCycleStart
  repeat' first
    | (with_reducible first | exact hk | assumption | apply State.modLt_keeps | apply Keeps.ite | apply KeepsO.ite | apply KeepsO.next)
    | simp only [Keeps.upd_iff]
    | split
    | dsimp only

theorem execRaDisable_keeps {s0 : State} (l : Lane) (s : State) (hk : Keeps s0 s) : KeepsO s0 (execRaDisable l s) := by
  unfold execRaDisable
  repeat' first
    | (with_reducible first | exact hk | assumption | apply State.p_keeps | apply State.dropLaneCtx_keeps | apply Keeps.ite | apply KeepsO.ite | apply KeepsO.next)
    | split
    | dsimp only

theorem execRaInhibit_keeps {s0 : State} (l : Lane) (s : State) (hk : Keeps s0 s) : KeepsO s0 (execRaInhibit l s) := by
  unfold execRaInhibit
  repeat' first
    | (with_reducible first | exact hk | assumption | apply State.p_keeps | apply Keeps.ite | apply KeepsO.ite | apply KeepsO.next)
    | split
    | dsimp only

theorem execPairContextWrite_keeps {s0 : State} (l : Lane) (p : Pair) (v : Word) (work : List CoreOp) (s : State) (hk : Keeps s0 s) : KeepsO s0 (execPairContextWrite l p v work s) := by
  unfold execPairContextWrite
  repeat' first
    | (with_reducible first | exact hk | assumption | apply State.p_keeps | apply State.pairCtx_keeps | apply State.work_keeps | apply Keeps.ite | apply KeepsO.ite | apply KeepsO.next)
    | split
    | dsimp only

theorem State.regWriteAll_keeps {s0 : State} (s : State) (a : Nat) (v : Word) (hk : Keeps s0 s) : Keeps s0 (State.regWriteAll s a v) := by
  unfold State.regWriteAll
  repeat' first
    | (with_reducible first | exact hk | assumption | apply State.regWrite_keeps | apply State.work_keeps | apply Keeps.ite)
    | split
    | dsimp only

theorem State.setBusErr_keeps {s0 : State} (s : State) (b : Bool) (hk : Keeps s0 s) : Keeps s0 (State.setBusErr s b) := by
  unfold State.setBusErr
  repeat' first
    | (with_reducible first | exact hk | assumption | apply Keeps.ite)
    | simp only [Keeps.upd_iff]
    | split
    | dsimp only

theorem State.coreWrite_keeps {s0 : State} (s : State) (l : Lane) (c a : Nat) (v : Word) (size : Nat) (sup : Bool) (hk : Keeps s0 s) : Keeps s0 (State.coreWrite s l c a v size sup) := by
  unfold State.coreWrite
  repeat' first
    | (with_reducible first | exact hk | assumption | apply State.access_keeps | apply State.setBusErr_keeps | apply Keeps.ite)
    | (with_reducible apply Keeps.modLane <;> [skip; exact fun _ hw => hw])
    | simp only [Keeps.upd_iff]
    | split
    | (with_reducible refine Keeps.fst ?_ (by assumption))
    | dsimp only

theorem execRegisterWrite_keeps {s0 : State} (by_ : Initiator) (a : BitVec 40) (v : Word) (size : Nat) (s : State) (hk : Keeps s0 s) : KeepsO s0 (execRegisterWrite by_ a v size s) := by
  unfold execRegisterWrite
  repeat' first
    | (with_reducible first | exact hk | assumption | apply State.dmSuspend_keeps | apply State.regWriteAll_keeps | apply State.setBusErr_keeps | apply State.coreWrite_keeps | apply Keeps.ite | apply KeepsO.ite | apply KeepsO.next)
    | split
    | dsimp only

/-! ### Tick -/

theorem State.opTick_keeps {s0 : State} (s : State) (hk : Keeps s0 s) : Keeps s0 (State.opTick s) := by
  unfold State.opTick
  repeat' first
    | (with_reducible first | exact hk | assumption | apply State.p_keeps | apply State.exclHour_keeps | apply State.violHour_keeps | apply Keeps.ite)
    | (with_reducible apply Keeps.foldl; intro _ _ _)
    | simp only [Keeps.upd_iff]
    | split
    | dsimp only

theorem State.rtcTick_keeps {s0 : State} (s : State) (hk : Keeps s0 s) : Keeps s0 (State.rtcTick s) := by
  unfold State.rtcTick
  repeat' first
    | (with_reducible first | exact hk | assumption | apply Keeps.ite)
    | simp only [Keeps.upd_iff]
    | split
    | dsimp only

theorem State.pulseTick_keeps {s0 : State} (s : State) (e : Nat × Nat) (hk : Keeps s0 s) : Keeps s0 (State.pulseTick s e) := by
  unfold State.pulseTick
  repeat' first
    | (with_reducible first | exact hk | assumption | apply State.endPulse_keeps | apply Keeps.ite)
    | simp only [Keeps.upd_iff]
    | split
    | dsimp only

theorem State.waitTick_keeps {s0 : State} (s : State) (hk : Keeps s0 s) : Keeps s0 (State.waitTick s) := by
  unfold State.waitTick
  repeat' first
    | (with_reducible first | exact hk | assumption | apply State.respond_keeps | apply State.giveUp_keeps | apply Keeps.ite)
    | split
    | dsimp only

theorem State.runTick_keeps {s0 : State} (s : State) (hk : Keeps s0 s) : Keeps s0 (State.runTick s) := by
  unfold State.runTick
  repeat' first
    | (with_reducible first | exact hk | assumption | apply State.loopTick_keeps | apply State.linkIdle_keeps | apply State.setShadow_keeps | apply State.timePulse_keeps | apply State.ethTick_keeps | apply State.timeTick_keeps | apply State.sealTick_keeps | apply State.sendTick_keeps | apply State.winIdle_keeps | apply State.pairDone_keeps | apply State.fixAnchor_keeps | apply State.modeTick_keeps | apply State.wakeTick_keeps | apply State.changeTick_keeps | apply State.nextJoiner_keeps | apply State.trigTick_keeps | apply State.drainCmd_keeps | apply State.dmaTick_keeps | apply State.retryAll_keeps | apply State.opTick_keeps | apply State.pulseTick_keeps | apply State.waitTick_keeps | apply Keeps.ite)
    | (with_reducible apply Keeps.foldl; intro _ _ _)
    | split
    | dsimp only

theorem State.tick_keeps {s0 : State} (s : State) (hk : Keeps s0 s) : Keeps s0 (State.tick s) := by
  unfold State.tick
  repeat' first
    | (with_reducible first | exact hk | assumption | apply State.rtcTick_keeps | apply State.runTick_keeps | apply Keeps.ite)
    | split
    | dsimp only

/-! ### Step -/

end Sys2Proof.Machine
end

