-- ==== Sys2Proof/Laws/Record.lean ====
section
/-! SUPPORT. What recording, posting and noticing an event leaves alone: everything but the recorder, the event queues, the session that
carries one, the trace, and the registers of the three blocks (`Safety.OnlyRecords`). -/

namespace Sys2Proof.Machine
open Sys2Proof.Safety

/-- Two states differ in what recording touches and nowhere else. -/
def SameBut (s t : State) : Prop :=
  t = { s with regs := t.regs, ev := t.ev, mb := t.mb, sess := t.sess, tx := t.tx } ∧ ∀ a, ¬ recPage a → t.regs.rd a = s.regs.rd a

theorem SameBut.refl (s : State) : SameBut s s := ⟨rfl, fun _ _ => rfl⟩

theorem SameBut.trans {a b c : State} (h : SameBut a b) (k : SameBut b c) : SameBut a c := by
  refine ⟨?_, fun x hx => (k.2 x hx).trans (h.2 x hx)⟩
  rw [k.1, h.1]

theorem SameBut.upd {s t : State} (h : SameBut s t) (ev : EvSt) (mb : Mem) (sess : SessSt) (tx : List TxItem) :
    SameBut s { t with ev := ev, mb := mb, sess := sess, tx := tx } := by
  refine ⟨?_, h.2⟩
  conv_lhs => rw [h.1]

theorem SameBut.p {s t : State} (h : SameBut s t) (f : Fld) (v : Nat) (hf : recPage f.reg) : SameBut s (t.p f v) := by
  refine ⟨?_, fun a ha => ?_⟩
  · conv_lhs => rw [h.1]
    rfl
  · rw [State.rd_p_ne t v (fun e => ha (by rw [e]; exact hf)), h.2 a ha]

theorem SameBut.inc {s t : State} (h : SameBut s t) (f : Fld) (hf : recPage f.reg) : SameBut s (t.inc f) := h.p f _ hf

theorem SameBut.satAdd {s t : State} (h : SameBut s t) (f : Fld) (n : Nat) (hf : recPage f.reg) : SameBut s (t.satAdd f n) := h.p f _ hf

theorem SameBut.ite {s a b : State} {p : Prop} [Decidable p] (ha : SameBut s a) (hb : SameBut s b) : SameBut s (if p then a else b) := by
  split <;> assumption

theorem SameBut.emit {s t : State} (h : SameBut s t) (x : TxItem) : SameBut s (t.emit x) := by
  unfold State.emit; exact h.ite (h.upd _ _ _ _)

theorem SameBut.foldl {α : Type} {s t : State} {f : State → α → State} (l : List α) (hf : ∀ t a, SameBut s t → a ∈ l → SameBut s (f t a))
    (h : SameBut s t) : SameBut s (l.foldl f t) := by
  induction l generalizing t with
  | nil => exact h
  | cons a l ih => exact ih (fun t b ht hb => hf t b ht (List.mem_cons_of_mem _ hb)) (hf t a h List.mem_cons_self)

theorem recPage_ev {a : Nat} (h : a / 0x10000 = 0x4006 := by decide) : recPage a := Or.inr (Or.inl h)

/-- The mailboxes' registers: an offset below 0x1000 in the block of channel 0 to 6. -/
theorem recPage_of {a : Nat} (c : Nat) (hc : c ≤ 6) (k : Nat) (hk : k < 0x1000 := by decide) (e : a = 0x40080000 + 0x1000 * c + k := by rfl) :
    recPage a := by
  unfold recPage; omega

theorem State.evRegs_same {s t : State} (h : SameBut s t) : SameBut s t.evRegs := by
  unfold State.evRegs
  have k := (((h.p EV_COUNT_COUNT t.records.length recPage_ev).p EV_STAGE_COUNT t.ev.staged.length recPage_ev).p EV_FIRST_SEQ
    ((t.records.head?.map (·.seq)).getD 0) recPage_ev).p EV_LAST_SEQ ((t.records.getLast?.map (·.seq)).getD 0) recPage_ev
  exact (k.p EV_STAT_FULL 1 recPage_ev).ite k

theorem State.stageRec_same {s t : State} (h : SameBut s t) (e : EvIn) : SameBut s (t.stageRec e) := by
  unfold State.stageRec
  exact State.evRegs_same (h.upd _ t.mb t.sess t.tx)

theorem State.suppress_same {s t : State} (h : SameBut s t) : SameBut s t.suppress := h.satAdd _ _ recPage_ev

theorem State.recordEv_same {s t : State} (h : SameBut s t) (e : EvIn) : SameBut s (t.recordEv e) := by
  have hg : ∀ t, SameBut s t → SameBut s (State.recordEv.go e t) := by
    intro t h
    unfold State.recordEv.go
    refine SameBut.ite ?_ ?_
    · exact ((State.suppress_same h).p EV_STAT_QOVF 1 recPage_ev).upd _ _ _ _
    · split
      · exact State.stageRec_same h e
      · have k := State.stageRec_same (h.upd (({ t.ev with ovf := none } : EvSt)) t.mb t.sess t.tx)
          { source := 0x0207, code := 2, cls := 0xFF, data := leBytes 4 ‹Nat› }
        refine SameBut.ite (State.suppress_same k) (SameBut.ite ?_ (State.stageRec_same k e))
        exact ((State.suppress_same k).p EV_STAT_QOVF 1 recPage_ev).upd _ _ _ _
  unfold State.recordEv
  refine SameBut.ite h (SameBut.ite (State.suppress_same h) ?_)
  split
  · exact SameBut.ite (h.upd _ _ _ _) (hg t h)
  · exact hg t h

theorem State.sendRecord_same {s t : State} (h : SameBut s t) (kind : Nat) (body : List Byte) : SameBut s (t.sendRecord kind body) := by
  unfold State.sendRecord
  exact (h.emit _).upd _ _ _ _

theorem State.postTo_same {s t : State} (h : SameBut s t) (c : Nat) (hc : c ≤ 6) (e : QEnt) : SameBut s (t.postTo c e) := by
  unfold State.postTo
  refine SameBut.ite ?_ ?_
  · exact (h.p (MB_EVSTAT_OVF c) 1 (recPage_of c hc 0xC18)).inc _ (recPage_of c hc 0xC1C)
  · have k := ((h.upd t.ev (t.mb.wrL (0x1000 * c + 0x800 + 32 * t.g (MB_EVHEAD_HEAD c)) (t.qBytes e)) t.sess t.tx).p (MB_EVHEAD_HEAD c)
      ((t.g (MB_EVHEAD_HEAD c) + 1) % 32) (recPage_of c hc 0xC10)).p (MB_EVSTAT_COUNT c)
      ((({ t with mb := t.mb.wrL (0x1000 * c + 0x800 + 32 * t.g (MB_EVHEAD_HEAD c)) (t.qBytes e) } : State).p (MB_EVHEAD_HEAD c)
        ((t.g (MB_EVHEAD_HEAD c) + 1) % 32)).g (MB_EVSTAT_COUNT c) + 1) (recPage_of c hc 0xC18)
    have k2 : ∀ (q : Prop) [Decidable q] (x : TxItem), SameBut s (if q then State.emit _ x else _) := fun q _ x => SameBut.ite (k.emit x) k
    refine SameBut.ite ?_ (k2 _ _)
    unfold State.releaseEv
    exact (((State.sendRecord_same (k2 _ _) 0x12 _)).p _ _ (recPage_of 4 (by omega) 0xC14)).p _ _ (recPage_of 4 (by omega) 0xC18)

theorem State.post_same {s t : State} (h : SameBut s t) (e : QEnt) : SameBut s (t.post e) := by
  unfold State.post
  refine SameBut.foldl _ (fun t c ht hc => ?_) h
  refine SameBut.ite (State.postTo_same ht c ?_ e) ht
  simp only [List.mem_cons, List.not_mem_nil, or_false] at hc
  omega

theorem State.event_same {s t : State} (h : SameBut s t) (cat : Nat) (e : EvIn) : SameBut s (t.event cat e) :=
  State.post_same (State.recordEv_same h e) _

theorem recPage_fc {b k src : Nat} (hb : b / 0x10000 = 0x4005) (hk : b % 0x10000 < 0x200) (h : k ≤ 16) (hs : src < 0x100) : recPage (b + k * src) := by
  left
  have : k * src ≤ 16 * 0x100 := Nat.mul_le_mul h (by omega)
  omega

theorem State.noticeD_same {s t : State} (h : SameBut s t) (src code : Nat) (hs : src < 0x100) (data : List Byte) : SameBut s (t.noticeD src code data) := by
  have f : ∀ b, b / 0x10000 = 0x4005 → b % 0x10000 < 0x200 → recPage (b + 16 * src) := fun b h1 h2 => recPage_fc h1 h2 (by omega) hs
  exact State.event_same ((((h.inc (FC_CNT_COUNT 0) (Or.inl rfl)).inc (FC_SCNT_COUNT src) (f _ rfl (by decide))).p (FC_SSTAT_LASTCLS src) 0
    (f _ rfl (by decide))).p (FC_SSTAT_LASTCODE src) code (f _ rfl (by decide))) 3 _

/-- A notice of a source below 0x100 is no more than a notice (R402, R409). -/
theorem State.notice_same (s : State) (src code elem : Nat) (st : Word) (hs : src < 0x100) : SameBut s (s.notice src code elem st) :=
  State.noticeD_same (SameBut.refl s) src code hs _

theorem SameBut.g {s t : State} (h : SameBut s t) (f : Fld) (hf : ¬ recPage f.reg) : t.g f = s.g f := by
  unfold State.g Regs.g; rw [h.2 _ hf]

theorem State.recordEv_g (s : State) (e : EvIn) (f : Fld) (hf : ¬ recPage f.reg) : (s.recordEv e).g f = s.g f :=
  (State.recordEv_same (SameBut.refl s) e).g f hf

theorem State.event_g (s : State) (cat : Nat) (e : EvIn) (f : Fld) (hf : ¬ recPage f.reg) : (s.event cat e).g f = s.g f :=
  (State.event_same (SameBut.refl s) cat e).g f hf

theorem State.notice_g (s : State) (src code elem : Nat) (st : Word) (hs : src < 0x100) (f : Fld) (hf : ¬ recPage f.reg) :
    (s.notice src code elem st).g f = s.g f := (State.notice_same s src code elem st hs).g f hf

theorem SameBut.pending {s t : State} (h : SameBut s t) : t.pending = s.pending := by rw [h.1]
theorem SameBut.variant {s t : State} (h : SameBut s t) : t.variant = s.variant := by rw [h.1]
theorem SameBut.free {s t : State} (h : SameBut s t) : t.free = s.free := by rw [h.1]
theorem SameBut.busErr {s t : State} (h : SameBut s t) : t.busErr = s.busErr := by rw [h.1]
theorem SameBut.fc {s t : State} (h : SameBut s t) : t.fc = s.fc := by rw [h.1]
theorem SameBut.waiting {s t : State} (h : SameBut s t) : t.waiting = s.waiting := by rw [h.1]
theorem SameBut.queued {s t : State} (h : SameBut s t) : t.queued = s.queued := by rw [h.1]
theorem SameBut.streams {s t : State} (h : SameBut s t) : t.streams = s.streams := by rw [h.1]
theorem SameBut.votes {s t : State} (h : SameBut s t) : t.votes = s.votes := by rw [h.1]
theorem SameBut.laneA {s t : State} (h : SameBut s t) : t.laneA = s.laneA := by rw [h.1]
theorem SameBut.laneB {s t : State} (h : SameBut s t) : t.laneB = s.laneB := by rw [h.1]
theorem SameBut.laneC {s t : State} (h : SameBut s t) : t.laneC = s.laneC := by rw [h.1]
theorem SameBut.laneD {s t : State} (h : SameBut s t) : t.laneD = s.laneD := by rw [h.1]
theorem SameBut.links {s t : State} (h : SameBut s t) : t.links = s.links := by rw [h.1]
theorem SameBut.app {s t : State} (h : SameBut s t) : t.app = s.app := by rw [h.1]
theorem SameBut.tu {s t : State} (h : SameBut s t) : t.tu = s.tu := by rw [h.1]
theorem SameBut.ring1 {s t : State} (h : SameBut s t) : t.ring1 = s.ring1 := by rw [h.1]
theorem SameBut.ring2 {s t : State} (h : SameBut s t) : t.ring2 = s.ring2 := by rw [h.1]
theorem SameBut.parts {s t : State} (h : SameBut s t) : t.parts = s.parts := by rw [h.1]
theorem SameBut.backlog {s t : State} (h : SameBut s t) : t.backlog = s.backlog := by rw [h.1]
theorem SameBut.transit {s t : State} (h : SameBut s t) : t.transit = s.transit := by rw [h.1]
theorem SameBut.netOut {s t : State} (h : SameBut s t) : t.netOut = s.netOut := by rw [h.1]
theorem SameBut.netUsed {s t : State} (h : SameBut s t) : t.netUsed = s.netUsed := by rw [h.1]
theorem SameBut.eth {s t : State} (h : SameBut s t) : t.eth = s.eth := by rw [h.1]
theorem SameBut.rb {s t : State} (h : SameBut s t) : t.rb = s.rb := by rw [h.1]
theorem SameBut.fd {s t : State} (h : SameBut s t) : t.fd = s.fd := by rw [h.1]
theorem SameBut.an {s t : State} (h : SameBut s t) : t.an = s.an := by rw [h.1]
theorem SameBut.sf {s t : State} (h : SameBut s t) : t.sf = s.sf := by rw [h.1]
theorem SameBut.sc {s t : State} (h : SameBut s t) : t.sc = s.sc := by rw [h.1]
theorem SameBut.cfg {s t : State} (h : SameBut s t) : t.cfg = s.cfg := by rw [h.1]
theorem SameBut.up {s t : State} (h : SameBut s t) : t.up = s.up := by rw [h.1]
theorem SameBut.un {s t : State} (h : SameBut s t) : t.un = s.un := by rw [h.1]
theorem SameBut.keys {s t : State} (h : SameBut s t) : t.keys = s.keys := by rw [h.1]
theorem SameBut.sb {s t : State} (h : SameBut s t) : t.sb = s.sb := by rw [h.1]
theorem SameBut.pw {s t : State} (h : SameBut s t) : t.pw = s.pw := by rw [h.1]
theorem SameBut.dbg {s t : State} (h : SameBut s t) : t.dbg = s.dbg := by rw [h.1]
@[simp] theorem State.recordEv_pending (s : State) (e : EvIn) : (s.recordEv e).pending = s.pending := (State.recordEv_same (SameBut.refl s) e).pending
@[simp] theorem State.event_pending (s : State) (cat : Nat) (e : EvIn) : (s.event cat e).pending = s.pending := (State.event_same (SameBut.refl s) cat e).pending
@[simp] theorem State.recordEv_variant (s : State) (e : EvIn) : (s.recordEv e).variant = s.variant := (State.recordEv_same (SameBut.refl s) e).variant
@[simp] theorem State.event_variant (s : State) (cat : Nat) (e : EvIn) : (s.event cat e).variant = s.variant := (State.event_same (SameBut.refl s) cat e).variant
@[simp] theorem State.recordEv_free (s : State) (e : EvIn) : (s.recordEv e).free = s.free := (State.recordEv_same (SameBut.refl s) e).free
@[simp] theorem State.event_free (s : State) (cat : Nat) (e : EvIn) : (s.event cat e).free = s.free := (State.event_same (SameBut.refl s) cat e).free
@[simp] theorem State.recordEv_busErr (s : State) (e : EvIn) : (s.recordEv e).busErr = s.busErr := (State.recordEv_same (SameBut.refl s) e).busErr
@[simp] theorem State.event_busErr (s : State) (cat : Nat) (e : EvIn) : (s.event cat e).busErr = s.busErr := (State.event_same (SameBut.refl s) cat e).busErr
@[simp] theorem State.recordEv_fc (s : State) (e : EvIn) : (s.recordEv e).fc = s.fc := (State.recordEv_same (SameBut.refl s) e).fc
@[simp] theorem State.event_fc (s : State) (cat : Nat) (e : EvIn) : (s.event cat e).fc = s.fc := (State.event_same (SameBut.refl s) cat e).fc
@[simp] theorem State.recordEv_waiting (s : State) (e : EvIn) : (s.recordEv e).waiting = s.waiting := (State.recordEv_same (SameBut.refl s) e).waiting
@[simp] theorem State.event_waiting (s : State) (cat : Nat) (e : EvIn) : (s.event cat e).waiting = s.waiting := (State.event_same (SameBut.refl s) cat e).waiting
@[simp] theorem State.recordEv_queued (s : State) (e : EvIn) : (s.recordEv e).queued = s.queued := (State.recordEv_same (SameBut.refl s) e).queued
@[simp] theorem State.event_queued (s : State) (cat : Nat) (e : EvIn) : (s.event cat e).queued = s.queued := (State.event_same (SameBut.refl s) cat e).queued
@[simp] theorem State.recordEv_streams (s : State) (e : EvIn) : (s.recordEv e).streams = s.streams := (State.recordEv_same (SameBut.refl s) e).streams
@[simp] theorem State.event_streams (s : State) (cat : Nat) (e : EvIn) : (s.event cat e).streams = s.streams := (State.event_same (SameBut.refl s) cat e).streams
@[simp] theorem State.recordEv_votes (s : State) (e : EvIn) : (s.recordEv e).votes = s.votes := (State.recordEv_same (SameBut.refl s) e).votes
@[simp] theorem State.event_votes (s : State) (cat : Nat) (e : EvIn) : (s.event cat e).votes = s.votes := (State.event_same (SameBut.refl s) cat e).votes
@[simp] theorem State.recordEv_laneA (s : State) (e : EvIn) : (s.recordEv e).laneA = s.laneA := (State.recordEv_same (SameBut.refl s) e).laneA
@[simp] theorem State.event_laneA (s : State) (cat : Nat) (e : EvIn) : (s.event cat e).laneA = s.laneA := (State.event_same (SameBut.refl s) cat e).laneA
@[simp] theorem State.recordEv_laneB (s : State) (e : EvIn) : (s.recordEv e).laneB = s.laneB := (State.recordEv_same (SameBut.refl s) e).laneB
@[simp] theorem State.event_laneB (s : State) (cat : Nat) (e : EvIn) : (s.event cat e).laneB = s.laneB := (State.event_same (SameBut.refl s) cat e).laneB
@[simp] theorem State.recordEv_laneC (s : State) (e : EvIn) : (s.recordEv e).laneC = s.laneC := (State.recordEv_same (SameBut.refl s) e).laneC
@[simp] theorem State.event_laneC (s : State) (cat : Nat) (e : EvIn) : (s.event cat e).laneC = s.laneC := (State.event_same (SameBut.refl s) cat e).laneC
@[simp] theorem State.recordEv_laneD (s : State) (e : EvIn) : (s.recordEv e).laneD = s.laneD := (State.recordEv_same (SameBut.refl s) e).laneD
@[simp] theorem State.event_laneD (s : State) (cat : Nat) (e : EvIn) : (s.event cat e).laneD = s.laneD := (State.event_same (SameBut.refl s) cat e).laneD
@[simp] theorem State.recordEv_links (s : State) (e : EvIn) : (s.recordEv e).links = s.links := (State.recordEv_same (SameBut.refl s) e).links
@[simp] theorem State.event_links (s : State) (cat : Nat) (e : EvIn) : (s.event cat e).links = s.links := (State.event_same (SameBut.refl s) cat e).links
@[simp] theorem State.recordEv_app (s : State) (e : EvIn) : (s.recordEv e).app = s.app := (State.recordEv_same (SameBut.refl s) e).app
@[simp] theorem State.event_app (s : State) (cat : Nat) (e : EvIn) : (s.event cat e).app = s.app := (State.event_same (SameBut.refl s) cat e).app
@[simp] theorem State.recordEv_tu (s : State) (e : EvIn) : (s.recordEv e).tu = s.tu := (State.recordEv_same (SameBut.refl s) e).tu
@[simp] theorem State.event_tu (s : State) (cat : Nat) (e : EvIn) : (s.event cat e).tu = s.tu := (State.event_same (SameBut.refl s) cat e).tu
@[simp] theorem State.recordEv_ring1 (s : State) (e : EvIn) : (s.recordEv e).ring1 = s.ring1 := (State.recordEv_same (SameBut.refl s) e).ring1
@[simp] theorem State.event_ring1 (s : State) (cat : Nat) (e : EvIn) : (s.event cat e).ring1 = s.ring1 := (State.event_same (SameBut.refl s) cat e).ring1
@[simp] theorem State.recordEv_ring2 (s : State) (e : EvIn) : (s.recordEv e).ring2 = s.ring2 := (State.recordEv_same (SameBut.refl s) e).ring2
@[simp] theorem State.event_ring2 (s : State) (cat : Nat) (e : EvIn) : (s.event cat e).ring2 = s.ring2 := (State.event_same (SameBut.refl s) cat e).ring2
@[simp] theorem State.recordEv_parts (s : State) (e : EvIn) : (s.recordEv e).parts = s.parts := (State.recordEv_same (SameBut.refl s) e).parts
@[simp] theorem State.event_parts (s : State) (cat : Nat) (e : EvIn) : (s.event cat e).parts = s.parts := (State.event_same (SameBut.refl s) cat e).parts
@[simp] theorem State.recordEv_backlog (s : State) (e : EvIn) : (s.recordEv e).backlog = s.backlog := (State.recordEv_same (SameBut.refl s) e).backlog
@[simp] theorem State.event_backlog (s : State) (cat : Nat) (e : EvIn) : (s.event cat e).backlog = s.backlog := (State.event_same (SameBut.refl s) cat e).backlog
@[simp] theorem State.recordEv_transit (s : State) (e : EvIn) : (s.recordEv e).transit = s.transit := (State.recordEv_same (SameBut.refl s) e).transit
@[simp] theorem State.event_transit (s : State) (cat : Nat) (e : EvIn) : (s.event cat e).transit = s.transit := (State.event_same (SameBut.refl s) cat e).transit
@[simp] theorem State.recordEv_netOut (s : State) (e : EvIn) : (s.recordEv e).netOut = s.netOut := (State.recordEv_same (SameBut.refl s) e).netOut
@[simp] theorem State.event_netOut (s : State) (cat : Nat) (e : EvIn) : (s.event cat e).netOut = s.netOut := (State.event_same (SameBut.refl s) cat e).netOut
@[simp] theorem State.recordEv_netUsed (s : State) (e : EvIn) : (s.recordEv e).netUsed = s.netUsed := (State.recordEv_same (SameBut.refl s) e).netUsed
@[simp] theorem State.event_netUsed (s : State) (cat : Nat) (e : EvIn) : (s.event cat e).netUsed = s.netUsed := (State.event_same (SameBut.refl s) cat e).netUsed
@[simp] theorem State.recordEv_eth (s : State) (e : EvIn) : (s.recordEv e).eth = s.eth := (State.recordEv_same (SameBut.refl s) e).eth
@[simp] theorem State.event_eth (s : State) (cat : Nat) (e : EvIn) : (s.event cat e).eth = s.eth := (State.event_same (SameBut.refl s) cat e).eth
@[simp] theorem State.recordEv_rb (s : State) (e : EvIn) : (s.recordEv e).rb = s.rb := (State.recordEv_same (SameBut.refl s) e).rb
@[simp] theorem State.event_rb (s : State) (cat : Nat) (e : EvIn) : (s.event cat e).rb = s.rb := (State.event_same (SameBut.refl s) cat e).rb
@[simp] theorem State.recordEv_fd (s : State) (e : EvIn) : (s.recordEv e).fd = s.fd := (State.recordEv_same (SameBut.refl s) e).fd
@[simp] theorem State.event_fd (s : State) (cat : Nat) (e : EvIn) : (s.event cat e).fd = s.fd := (State.event_same (SameBut.refl s) cat e).fd
@[simp] theorem State.recordEv_an (s : State) (e : EvIn) : (s.recordEv e).an = s.an := (State.recordEv_same (SameBut.refl s) e).an
@[simp] theorem State.event_an (s : State) (cat : Nat) (e : EvIn) : (s.event cat e).an = s.an := (State.event_same (SameBut.refl s) cat e).an
@[simp] theorem State.recordEv_sf (s : State) (e : EvIn) : (s.recordEv e).sf = s.sf := (State.recordEv_same (SameBut.refl s) e).sf
@[simp] theorem State.event_sf (s : State) (cat : Nat) (e : EvIn) : (s.event cat e).sf = s.sf := (State.event_same (SameBut.refl s) cat e).sf
@[simp] theorem State.recordEv_sc (s : State) (e : EvIn) : (s.recordEv e).sc = s.sc := (State.recordEv_same (SameBut.refl s) e).sc
@[simp] theorem State.event_sc (s : State) (cat : Nat) (e : EvIn) : (s.event cat e).sc = s.sc := (State.event_same (SameBut.refl s) cat e).sc
@[simp] theorem State.recordEv_cfg (s : State) (e : EvIn) : (s.recordEv e).cfg = s.cfg := (State.recordEv_same (SameBut.refl s) e).cfg
@[simp] theorem State.event_cfg (s : State) (cat : Nat) (e : EvIn) : (s.event cat e).cfg = s.cfg := (State.event_same (SameBut.refl s) cat e).cfg
@[simp] theorem State.recordEv_up (s : State) (e : EvIn) : (s.recordEv e).up = s.up := (State.recordEv_same (SameBut.refl s) e).up
@[simp] theorem State.event_up (s : State) (cat : Nat) (e : EvIn) : (s.event cat e).up = s.up := (State.event_same (SameBut.refl s) cat e).up
@[simp] theorem State.recordEv_un (s : State) (e : EvIn) : (s.recordEv e).un = s.un := (State.recordEv_same (SameBut.refl s) e).un
@[simp] theorem State.event_un (s : State) (cat : Nat) (e : EvIn) : (s.event cat e).un = s.un := (State.event_same (SameBut.refl s) cat e).un
@[simp] theorem State.recordEv_keys (s : State) (e : EvIn) : (s.recordEv e).keys = s.keys := (State.recordEv_same (SameBut.refl s) e).keys
@[simp] theorem State.event_keys (s : State) (cat : Nat) (e : EvIn) : (s.event cat e).keys = s.keys := (State.event_same (SameBut.refl s) cat e).keys
@[simp] theorem State.recordEv_sb (s : State) (e : EvIn) : (s.recordEv e).sb = s.sb := (State.recordEv_same (SameBut.refl s) e).sb
@[simp] theorem State.event_sb (s : State) (cat : Nat) (e : EvIn) : (s.event cat e).sb = s.sb := (State.event_same (SameBut.refl s) cat e).sb
@[simp] theorem State.recordEv_pw (s : State) (e : EvIn) : (s.recordEv e).pw = s.pw := (State.recordEv_same (SameBut.refl s) e).pw
@[simp] theorem State.event_pw (s : State) (cat : Nat) (e : EvIn) : (s.event cat e).pw = s.pw := (State.event_same (SameBut.refl s) cat e).pw
@[simp] theorem State.recordEv_dbg (s : State) (e : EvIn) : (s.recordEv e).dbg = s.dbg := (State.recordEv_same (SameBut.refl s) e).dbg
@[simp] theorem State.event_dbg (s : State) (cat : Nat) (e : EvIn) : (s.event cat e).dbg = s.dbg := (State.event_same (SameBut.refl s) cat e).dbg

@[simp] theorem State.evRegs_mb (s : State) : s.evRegs.mb = s.mb := by
  unfold State.evRegs; dsimp only; split <;> rfl

@[simp] theorem State.stageRec_mb (s : State) (e : EvIn) : (s.stageRec e).mb = s.mb := by
  unfold State.stageRec; rw [State.evRegs_mb]

@[simp] theorem State.suppress_mb (s : State) : s.suppress.mb = s.mb := rfl

@[simp] theorem State.recordEv_mb (s : State) (e : EvIn) : (s.recordEv e).mb = s.mb := by
  have hg : ∀ s, (State.recordEv.go e s).mb = s.mb := by
    intro s
    unfold State.recordEv.go
    split
    · rfl
    · split
      · simp
      · dsimp only
        split
        · simp
        · split <;> simp
  unfold State.recordEv
  split
  · rfl
  · split
    · rfl
    · split
      · split
        · rfl
        · exact hg s
      · exact hg s

@[simp] theorem State.evRegs_sess (s : State) : s.evRegs.sess = s.sess := by
  unfold State.evRegs; dsimp only; split <;> rfl

@[simp] theorem State.stageRec_sess (s : State) (e : EvIn) : (s.stageRec e).sess = s.sess := by
  unfold State.stageRec; rw [State.evRegs_sess]

@[simp] theorem State.suppress_sess (s : State) : s.suppress.sess = s.sess := rfl

@[simp] theorem State.recordEv_sess (s : State) (e : EvIn) : (s.recordEv e).sess = s.sess := by
  have hg : ∀ s, (State.recordEv.go e s).sess = s.sess := by
    intro s
    unfold State.recordEv.go
    split
    · rfl
    · split
      · simp
      · dsimp only
        split
        · simp
        · split <;> simp
  unfold State.recordEv
  split
  · rfl
  · split
    · rfl
    · split
      · split
        · rfl
        · exact hg s
      · exact hg s

@[simp] theorem State.evRegs_tx (s : State) : s.evRegs.tx = s.tx := by
  unfold State.evRegs; dsimp only; split <;> rfl

@[simp] theorem State.stageRec_tx (s : State) (e : EvIn) : (s.stageRec e).tx = s.tx := by
  unfold State.stageRec; rw [State.evRegs_tx]

@[simp] theorem State.suppress_tx (s : State) : s.suppress.tx = s.tx := rfl

@[simp] theorem State.recordEv_tx (s : State) (e : EvIn) : (s.recordEv e).tx = s.tx := by
  have hg : ∀ s, (State.recordEv.go e s).tx = s.tx := by
    intro s
    unfold State.recordEv.go
    split
    · rfl
    · split
      · simp
      · dsimp only
        split
        · simp
        · split <;> simp
  unfold State.recordEv
  split
  · rfl
  · split
    · rfl
    · split
      · split
        · rfl
        · exact hg s
      · exact hg s

end Sys2Proof.Machine
end

