-- ==== Sys2Proof/Laws/Reset.lean ====
section
/-! SUPPORT. What a module reset leaves. -/

namespace Sys2Proof.Machine

theorem tabGet_filter_out {α : Type} (d : Nat → α) (t : Tab α) (q : Nat → Bool) {a : Nat} (h : q a = false) :
    tabGet d (t.filter (fun e => q e.1)) a = d a := by
  induction t with
  | nil => rfl
  | cons e t ih =>
    obtain ⟨j, x⟩ := e
    simp only [List.filter]
    split
    · rename_i hj
      simp only [tabGet]
      split
      · rename_i e; subst e; simp [h] at hj
      · exact ih
    · exact ih

theorem tabGet_filter_in {α : Type} (d : Nat → α) (t : Tab α) (q : Nat → Bool) {a : Nat} (h : q a = true) :
    tabGet d (t.filter (fun e => q e.1)) a = tabGet d t a := by
  induction t with
  | nil => rfl
  | cons e t ih =>
    obtain ⟨j, x⟩ := e
    simp only [List.filter, tabGet]
    split
    · simp only [tabGet, ih]
    · rename_i hj
      rw [if_neg (by rintro rfl; simp [h] at hj), ih]

theorem Regs.rd_foldl_p (fs : List Fld) (v : Fld → Nat) (r : Regs) {a : Nat} (h : ∀ f ∈ fs, a ≠ f.reg) :
    (fs.foldl (fun (r : Regs) f => r.p f (v f)) r).rd a = r.rd a := by
  induction fs generalizing r with
  | nil => rfl
  | cons f fs ih =>
    rw [List.foldl_cons, ih _ (fun g hg => h g (List.mem_cons_of_mem _ hg)), Regs.rd_p_ne _ _ (h f List.mem_cons_self)]

/-- The registers that the hardware loads at a reset. -/
def hwFlds : List Fld := [VX_LANES_STA, VX_LANES_STB, VX_LANES_STC, VX_LANES_STD, VX_CTRL_SPAREEN, VX_LSTAT_LANE 0, VX_LSTAT_STATE 0,
  VX_LSTAT_LANE 1, VX_LSTAT_STATE 1, VX_LSTAT_LANE 2, VX_LSTAT_STATE 2, VX_LSTAT_LANE 3, VX_LSTAT_STATE 3, LC_STATE_DBGPERM]

theorem hwLoad_rd (v : Variant) (r : Regs) {a : Nat} (h : ∀ f ∈ hwFlds, a ≠ f.reg) : (hwLoad v r).rd a = r.rd a := by
  simp only [hwFlds, List.mem_cons, List.not_mem_nil, or_false, forall_eq_or_imp, forall_eq] at h
  unfold hwLoad
  simp only [List.foldl_cons, List.foldl_nil]
  rw [Regs.rd_p_ne _ _ h.2.2.2.2.2.2.2.2.2.2.2.2.2]
  repeat rw [Regs.rd_p_ne _ _ (by tauto)]

/-- A register that a reset does not keep and the hardware does not load takes its reset value. -/
theorem resetRegs_rd (v : Variant) (r : Regs) {a : Nat} (hk : keepAddr a = false) (hf : ∀ f ∈ keepFlds ++ hwFlds, a ≠ f.reg) :
    (resetRegs v r).rd a = regReset a := by
  unfold resetRegs
  rw [hwLoad_rd _ _ (fun f h => hf f (List.mem_append_right _ h)), Regs.rd_foldl_p _ _ _ (fun f h => hf f (List.mem_append_left _ h))]
  exact tabGet_filter_out regReset r keepAddr hk

/-- A register that a reset keeps whole. -/
theorem resetRegs_keep (v : Variant) (r : Regs) {a : Nat} (hk : keepAddr a = true) (hf : ∀ f ∈ keepFlds ++ hwFlds, a ≠ f.reg) :
    (resetRegs v r).rd a = r.rd a := by
  unfold resetRegs
  rw [hwLoad_rd _ _ (fun f h => hf f (List.mem_append_right _ h)), Regs.rd_foldl_p _ _ _ (fun f h => hf f (List.mem_append_left _ h))]
  exact tabGet_filter_in regReset r keepAddr hk

/-- The registers after a reset, but for the causes, the seal's state and the phase of a build that was cut short. -/
theorem State.resetDies_rd (s : State) (cause chan : Nat) {a : Nat} (h : ∀ f ∈ [UP_STAT_PHASE, LC_RSTCAUSE_CAUSE, SF_SEAL_STATE], a ≠ f.reg) :
    (s.resetDies cause chan).regs.rd a = (resetRegs s.variant s.regs).rd a := by
  simp only [List.mem_cons, List.not_mem_nil, or_false, forall_eq_or_imp, forall_eq] at h
  unfold State.resetDies State.sealAtReset
  dsimp only
  rw [State.rd_p_ne _ _ h.2.2]
  show (State.p _ _ _).regs.rd a = (s.clearDies cause).regs.rd a
  rw [State.rd_p_ne _ _ (show a ≠ LC_RSTCAUSE_CHAN.reg from h.2.1), State.rd_p_ne _ _ h.2.1]
  split
  · rw [State.rd_p_ne _ _ h.1]
  · rfl

theorem State.sealAtReset_g (s : State) {f : Fld} (h : f.reg ≠ SF_SEAL_STATE.reg) : s.sealAtReset.g f = s.g f :=
  State.g_p_reg ({ s with sf := { s.sf with validAt := s.tu.upNs } } : State) _ h

theorem State.resetDies_cause (s : State) (cause chan : Nat) :
    (s.resetDies cause chan).g LC_RSTCAUSE_CAUSE = cause % 8 ∧ (s.resetDies cause chan).g LC_RSTCAUSE_CHAN = chan % 8 := by
  unfold State.resetDies
  dsimp only
  rw [State.sealAtReset_g _ (by decide), State.sealAtReset_g _ (by decide)]
  generalize (if (s.clearDies cause).g UP_STAT_PHASE == 3 then (s.clearDies cause).p UP_STAT_PHASE 2 else s.clearDies cause) = t
  constructor
  · rw [State.g_p_apart _ _ (by decide) (by decide), State.g_p_same _ _ _ (by decide)]; rfl
  · rw [State.g_p_same _ _ _ (by decide)]; rfl

/-- The rest of the state after a reset: MRAM, flash and the standby domain keep their contents. -/
theorem State.resetDies_rest (s : State) (cause chan : Nat) :
    (s.resetDies cause chan).mb = [] ∧ (s.resetDies cause chan).queued = [] ∧ (s.resetDies cause chan).waiting = none ∧
    (s.resetDies cause chan).app.state = .notLoaded ∧ (s.resetDies cause chan).app.forces = [] ∧ (s.resetDies cause chan).parts = [] ∧
    (s.resetDies cause chan).laneA = resetLaneSt ∧ (s.resetDies cause chan).laneB = resetLaneSt ∧
    (s.resetDies cause chan).laneC = resetLaneSt ∧ (s.resetDies cause chan).laneD = resetLaneSt ∧
    (s.resetDies cause chan).cfg = s.cfg ∧ (s.resetDies cause chan).keys = s.keys ∧ (s.resetDies cause chan).ev = s.ev ∧
    (s.resetDies cause chan).app.stored = s.app.stored ∧ (s.resetDies cause chan).app.retMem = s.app.retMem := by
  unfold State.resetDies State.sealAtReset
  dsimp only
  generalize hc : s.clearDies cause = t
  split <;> subst hc <;> exact ⟨rfl, rfl, rfl, rfl, rfl, rfl, rfl, rfl, rfl, rfl, rfl, rfl, rfl, rfl, rfl⟩

/-- A module reset leaves Boot and the cause (R424). -/
theorem State.moduleReset_regs (s : State) (cause chan row : Nat) :
    (s.moduleReset cause chan row).mode = mBoot ∧ (s.moduleReset cause chan row).g LC_RSTCAUSE_CAUSE = cause % 8 ∧
    (s.moduleReset cause chan row).g LC_RSTCAUSE_CHAN = chan % 8 := by
  unfold State.moduleReset
  dsimp only
  refine ⟨?_, ?_, ?_⟩
  · unfold State.mode
    rw [State.recordEv_g _ _ _ (by unfold Safety.recPage; decide)]
    unfold State.g Regs.g
    rw [State.resetDies_rd _ _ _ (by decide), resetRegs_rd _ _ (by decide) (by decide)]
    decide
  · rw [State.recordEv_g _ _ _ (by unfold Safety.recPage; decide)]; exact (State.resetDies_cause _ _ _).1
  · rw [State.recordEv_g _ _ _ (by unfold Safety.recPage; decide)]; exact (State.resetDies_cause _ _ _).2

end Sys2Proof.Machine
end

