-- ==== Sys2Proof/WellFormed.lean ====
section
/-! DEFINITION. Which commands are well formed: the limits of their byte strings that no operand type says. -/

namespace Sys2Proof

/-- A mailbox payload fits its buffer (R439). -/
def payloadOk (p : List Byte) : Bool := decide (p.length ≤ 1008)

/-- An Ethernet frame's fields are within their widths (R265). -/
def EthFrame.ok (f : EthFrame) : Bool :=
  decide (f.dst < 2 ^ 48) && decide (f.src < 2 ^ 48) && decide (f.etype < 2 ^ 16) &&
  (match f.tag with
   | some (pcp, vid) => decide (pcp < 8) && decide (vid < 4096)
   | none => true)

/-- A core access stays within one 8-byte word (R47). -/
def CoreOp.ok : CoreOp → Bool
  | .load _ _ a n | .fetch _ _ a n => decide (1 ≤ n) && decide (a % 8 + n ≤ 8)
  | .store _ _ a bs => decide (1 ≤ bs.length) && decide (a % 8 + bs.length ≤ 8)
  | .trap _ _ | .submit _ => true

/-- A rack-bus access becomes one transaction of 1 to 16 words, and a write brings the words that its bytes lie in (R357, R362). -/
def RackReq.ok (x : RackReq) : Bool :=
  let words := (x.a % 4 + x.len + 3) / 4
  decide (1 ≤ x.len) && decide (words ≤ 16) &&
  (match x.wr with
   | some ws => decide (ws.length = words)
   | none => true)

/-- Is a command well formed? -/
def Instr.wellFormed : Instr → Bool
  | .submit _ _ w | .abandon _ _ w | .imageDelivery _ _ w | .voteOutcome _ _ w | .pairContextWrite _ _ _ w => w.all CoreOp.ok
  | .switchFrameReceive _ f _ _ => f.ok
  | .rackAccess _ _ acc => acc.ok
  | .registerWrite _ _ _ n => n == 1 || n == 2 || n == 4 || n == 8
  | .mmuFault _ _ _ _ _ n => decide (1 ≤ n) && decide (n ≤ 8)
  | .modReset _ _ p | .modIdentify _ _ p | .modStatus _ _ p | .modSetmode _ _ p | .modTagRead _ _ p
  | .modTagWrite _ _ p | .modWakecfg _ _ p | .appStage _ _ p | .appLoad _ _ p | .appStart _ _ p | .appStop _ _ p
  | .appRestart _ _ p | .appNextstart _ _ p | .appOlcLoad _ _ p | .appOlcApply _ _ p | .pairSplit _ _ p
  | .pairJoin _ _ p | .appStatus _ _ p | .forceSet _ _ p | .forceClear _ _ p | .forceClearall _ _ p
  | .forceList _ _ p | .timeConfig _ _ p | .timeTrigger _ _ p | .timeCapture _ _ p | .timeStatus _ _ p
  | .ringSched _ _ p | .ringCommit _ _ p | .ringStatus _ _ p | .ethConfig _ _ p | .ethStatus _ _ p | .safeLoad _ _ p
  | .sealAccept _ _ p | .scAck _ _ p | .safeStatus _ _ p | .fioConfig _ _ p | .fioRelease _ _ p | .fioStatus _ _ p
  | .unitConfig _ _ p | .unitHandover _ _ p | .unitWitness _ _ p | .unitStatus _ _ p | .faultAck _ _ p
  | .faultHistory _ _ p | .faultInject _ _ p | .faultStatus _ _ p | .evRead _ _ p | .evStatus _ _ p | .evClear _ _ p
  | .upManifest _ _ p | .upChunk _ _ p | .upStatus _ _ p | .upActivate _ _ p | .upAbandon _ _ p | .testRegread _ _ p
  | .testLoop _ _ p | .testProd _ _ p | .lcChange _ _ p | .lcDebugtoken _ _ p | .unknownCommand _ _ _ p => payloadOk p
  | _ => true

end Sys2Proof
end

