-- ==== Sys2Proof/Tests/Slice0.lean ====
section
/-! SUPPORT. Tests: ill-formed commands are refused, the statements' hypotheses are met, a few commands' effects on small states.
Expected values come from the spec's tables and rules, named in each docstring. -/

namespace Sys2Proof.Tests
open Sys2Proof.Machine Sys2Proof.Safety

set_option maxRecDepth 8192
/-! ### States and operands -/

/-- A module in a mode and a life-cycle state, its service channel open. -/
def inMode (m l : Nat) : State := ((State.reset.p LC_MODE_MODE m).p LC_STATE_LCS l).p (MB_STAT_EN 4) 1

/-- The same with lanes A and B voting, lane A's mailbox channel open. -/
def twoLanes (m l : Nat) : State := (((inMode m l).p VX_LANES_STA 1).p VX_LANES_STB 1).p (MB_STAT_EN 0) 1

/-- A header of a payload of `n` bytes. -/
def hd (n : Nat) : Hdr := { tag := 1, flags := 0, len := BitVec.ofNat 16 n, chspec := 0, rsvd := 0 }

/-- Bytes. -/
def by_ (xs : List Nat) : List Byte := xs.map (BitVec.ofNat 8)

/-- A command runs on the service channel, and the state in which it runs has a property. -/
def met (s : State) (code : Nat) (xs : List Nat) (q : State → List Byte → Bool) : Bool :=
  match runs s 4 code (hd xs.length) (by_ xs) with
  | some (a, _) => q a (by_ xs)
  | none => false

/-- The same on lane A's channel, as the post that agrees with lane B's. -/
def metA (s : State) (code : Nat) (xs : List Nat) (q : State → List Byte → Bool) : Bool :=
  let posted : StreamVote := { kind := .command, st := .task 0, place := 0, posts := [(1, hdrBytes code (hd xs.length) ++ by_ xs)] }
  match runs { s with streams := [posted] } 0 code (hd xs.length) (by_ xs) with
  | some (a, _) => q a (by_ xs)
  | none => false

/-- It runs. -/
def ran (s : State) (code : Nat) (xs : List Nat) : Bool := met s code xs (fun _ _ => true)

/-- An application state. -/
def withApp (s : State) (x : AppState) : State := { s with app := { s.app with state := x } }

/-! ### The statements' hypotheses are met -/

theorem met_module_commands : (
    ran (inMode 3 2) 0x0102 [] && ran (inMode 3 2) 0x0103 [] && ran (inMode 3 2) 0x0105 [0, 0, 1, 0] && ran (inMode 3 2) 0x0101 [] &&
    met (inMode 3 2) 0x0106 [255, 0, 0, 0, 7] (fun _ p => leAt p 2 2 == 0 && decide (leAt p 0 2 + (p.length - 4) ≤ 256)) &&
    met (inMode 3 2) 0x0106 [0, 1, 0, 0, 7] (fun _ p => decide (256 < leAt p 0 2 + (p.length - 4))) &&
    met (inMode 3 2) 0x0104 [5, 0, 0, 0] (fun _ p => !([3, 4, 8, 9, 10].contains (byteAt p 0))) &&
    met (inMode 3 2) 0x0104 [3, 0, 0, 0] (fun a p => byteAt p 0 == a.mode) && ran (inMode 8 2) 0x0104 [3, 0, 0, 0] &&
    ran (inMode 7 2) 0x0104 [8, 0, 0, 0] && ran (inMode 6 2) 0x0104 [9, 0, 0, 0] && met (inMode 3 2) 0x0104 [4, 0, 0, 0] (fun a _ => a.mode == 3) &&
    met (inMode 8 2) 0x0104 [4, 0, 0, 0] (fun a _ => a.mode == 8) && met (inMode 9 2) 0x0104 [4, 0, 0, 0] (fun a _ => a.mode == 9) &&
    met (inMode 10 2) 0x0104 [4, 0, 0, 0] (fun a _ => a.mode == 10) &&
    met { inMode 7 2 with waiting := some { code := 0x0104, chans := [4], hdr := [], payload := [], since := 0 } } 0x0104 [10, 0, 0, 0]
      (fun a _ => a.waiting.isSome) &&
    met (inMode 7 2) 0x0104 [10, 0, 0, 0] (fun a _ => a.waiting.isNone && !(a.mode == 5 && a.on UN_CFG_EN)) &&
    met ((inMode 5 2).p UN_CFG_EN 1) 0x0104 [10, 0, 0, 0] (fun a _ => a.waiting.isNone && a.mode == 5 && a.on UN_CFG_EN)) = true := by decide

theorem met_settings_commands : (
    ran (inMode 3 2) 0x0107 [1, 2, 0, 0, 1, 0, 0, 0] && ran (inMode 3 2) 0x0107 [17, 0, 0, 0, 0, 0, 0, 0] && ran (inMode 3 2) 0x0401 (List.replicate 24 0) &&
    ran (inMode 3 2) 0x0402 (List.replicate 20 0) && met (inMode 3 2) 0x0402 (List.replicate 3 0 ++ [1] ++ List.replicate 16 0) (fun _ p => byteAt p 3 == 1) &&
    ran (inMode 3 2) 0x0403 [0, 0, 0, 0] && ran (inMode 3 2) 0x0601 (List.replicate 32 0) && ran (inMode 3 2) 0x0801 (List.replicate 48 1)) = true := by decide

theorem met_staged_packages : (
    met (inMode 3 2) 0x0201 [3, 0, 0, 0, 0, 0, 0, 0, 7] (fun _ p => decide (2 < byteAt p 0)) &&
    met (inMode 3 2) 0x0201 [2, 0, 0, 0, 0, 0, 0, 0, 7] (fun _ p => byteAt p 0 == 2 && zeros p 1 4) &&
    met (inMode 3 2) 0x0201 [0, 0, 0, 0, 1, 0, 0, 0, 7] (fun _ p => decide (leAt p 4 4 + 1 ≤ stageCap 0)) &&
    met (inMode 3 2) 0x0201 [0, 0, 0, 0, 255, 255, 255, 255, 7] (fun _ p => decide (stageCap 0 < leAt p 4 4 + 1)) &&
    ran (inMode 3 2) 0x0202 [0, 0, 0, 0] && ran (inMode 5 2) 0x0207 [0, 0, 0, 0] && ran (inMode 3 2) 0x0701 [0, 0, 0, 0]) = true := by decide

theorem met_application_commands : (
    met (inMode 7 2) 0x0203 [3, 0, 0, 0] (fun _ p => !kindOk p) && met (inMode 7 2) 0x0203 [2, 0, 0, 0] (fun a p => kindOk p && a.app.state == .notLoaded) &&
    ran (withApp (inMode 7 2) .stopped) 0x0203 [0, 0, 0, 0] && ran (withApp (inMode 7 2) .starting) 0x0203 [0, 0, 0, 0] &&
    ran (withApp (inMode 7 2) .running) 0x0203 [0, 0, 0, 0] && ran (withApp (inMode 7 2) .changing) 0x0203 [0, 0, 0, 0] &&
    ran (withApp (inMode 7 2) .held) 0x0203 [0, 0, 0, 0] && ran (inMode 7 2) 0x0204 [] && ran (withApp (inMode 7 2) .stopped) 0x0204 [] &&
    ran (withApp (inMode 7 2) .running) 0x0204 [] && ran (withApp (inMode 7 2) .starting) 0x0204 [] && ran (inMode 7 2) 0x0205 [3, 0, 0, 0] &&
    ran (inMode 7 2) 0x0205 [0, 0, 0, 0] && ran (withApp (inMode 7 2) .running) 0x0205 [1, 0, 0, 0] && ran (inMode 7 2) 0x0206 [3, 0, 0, 0] &&
    ran (inMode 7 2) 0x0206 [2, 0, 0, 0] && ran (inMode 3 2) 0x020B [] && ran (inMode 7 2) 0x0208 (List.replicate 32 0) &&
    metA (twoLanes 7 2) 0x0209 [3, 0, 0, 0] (fun _ _ => true) && metA (twoLanes 7 2) 0x020A [3, 0, 0, 0] (fun _ _ => true)) = true := by decide

/-- A module with one input symbol of two bytes. -/
def forcible (s : State) : State :=
  { s with app := { s.app with pkg := { s.app.pkg with symbols := [{ id := 5, t := 1, input := true, output := false, safety := false, off := 0, len := 2, ty := 0 }] } } }

theorem met_forces : (
    let s := forcible (inMode 8 2)
    let set := [5, 0, 0, 0, 0, 0, 0, 0, 1, 2]
    let full : State := { s with app := { s.app with forces := (List.range 256).map (fun k => { id := 1000 + k, value := [] }) } }
    let one : State := { s with app := { s.app with forces := [{ id := 5, value := [1, 2] }] } }
    met s 0x0301 [6, 0, 0, 0, 0, 0, 0, 0, 1, 2] (fun a _ => (a.symbol 6).isNone) && met s 0x0301 [5, 0, 0, 0, 1, 0, 0, 0, 1, 2] (fun a p => (a.symbol 5).isSome && !zeros p 4 8) &&
    met s 0x0301 set (fun a _ => (a.forceOn 5).isNone && decide (a.app.forces.length < 256)) &&
    met full 0x0301 set (fun a _ => (a.forceOn 5).isNone && decide (256 ≤ a.app.forces.length)) &&
    met one 0x0301 set (fun a p => a.forceOn 5 == some { id := 5, value := p.drop 8 }) &&
    met one 0x0301 [5, 0, 0, 0, 0, 0, 0, 0, 1, 3] (fun a p => (a.forceOn 5).isSome && a.forceOn 5 != some { id := 5, value := p.drop 8 }) &&
    met s 0x0302 [6, 0, 0, 0] (fun a _ => (a.symbol 6).isNone) && met s 0x0302 [5, 0, 0, 0] (fun a _ => (a.symbol 5).isSome && (a.forceOn 5).isNone) &&
    met one 0x0302 [5, 0, 0, 0] (fun a _ => (a.symbol 5).isSome && (a.forceOn 5).isSome) && met s 0x0303 [] (fun a _ => a.app.forces.isEmpty) &&
    met one 0x0303 [] (fun a _ => !a.app.forces.isEmpty) && ran s 0x0304 [0, 0, 0, 0]) = true := by decide

theorem met_time_ring_status : (
    ran (inMode 3 2) 0x0404 [] && met (inMode 3 2) 0x0501 (3 :: List.replicate 15 0) (fun _ p => (ringIdx p).isNone) &&
    met (inMode 3 2) 0x0501 (1 :: List.replicate 15 0) (fun _ p => ringIdx p == some 0 && leAt p 4 2 == 0) &&
    met (inMode 3 2) 0x0501 ([2, 0, 255, 15, 1, 0, 0, 0] ++ List.replicate 8 0)
      (fun _ p => ringIdx p == some 1 && zeros p 1 2 && leAt p 2 2 + leAt p 4 2 == 4096 && zeros p 6 8 && p.length == 16) &&
    ran (inMode 3 2) 0x0502 (1 :: List.replicate 11 0) && ran (inMode 3 2) 0x0503 [1, 0, 0, 0] && ran (inMode 3 2) 0x0602 [] &&
    ran (inMode 3 2) 0x0704 [] && ran (inMode 3 2) 0x0803 [] && ran (inMode 3 2) 0x0904 []) = true := by decide

theorem met_safety_and_field_commands : (
    let s := inMode 3 2
    let sealed : State := ({ s with sf := { s.sf with valid := some 0x0F }
                                    keys := { s.keys with safe := some ({ sealSet := 0x0F } : SafePkg) } } : State).p SF_SEAL_LOOP 1
    met s 0x0702 [] (fun a _ => a.sealReading.isNone) && met sealed 0x0702 [] (fun a _ => a.sealReading == some 0x0F) &&
    metA (twoLanes 7 2) 0x0703 (1 :: List.replicate 15 0) (fun a p => bit (byteAt p 0) 0 && !a.on (SC_RXCFG_VALID 0)) &&
    metA ((twoLanes 7 2).p (SC_RXCFG_VALID 127) 1) 0x0703 (List.replicate 15 0 ++ [128]) (fun a p => bit (byteAt p 15) 7 && a.on (SC_RXCFG_VALID 127)) &&
    ran s 0x0802 [1, 0, 0, 0]) = true := by decide

theorem met_unit_commands : (
    met (inMode 3 2) 0x0901 [1, 0, 0, 0, 255, 1, 1, 0] (fun _ p => !zeros p 6 8) &&
    met (inMode 3 2) 0x0901 [0, 0, 0, 0, 255, 1, 0, 0] (fun _ p => zeros p 6 8 && leAt p 0 2 == 0) &&
    met (inMode 3 2) 0x0901 [1, 0, 16, 0, 255, 1, 0, 0] (fun _ p => zeros p 6 8 && leAt p 0 2 != 0 && decide (16 ≤ byteAt p 2)) &&
    met (inMode 3 2) 0x0903 [4, 0, 0, 0, 0, 0, 0, 0] (fun _ p => decide (4 ≤ byteAt p 0)) &&
    met (inMode 3 2) 0x0903 [3, 3, 1, 0, 15, 15, 0, 0] (fun _ p => byteAt p 0 == 3 && bit (byteAt p 1) 1 && leAt p 2 2 != 0 && byteAt p 5 == 15 && zeros p 6 8) &&
    met (inMode 5 2) 0x0902 [] (fun a _ => a.un.partner.isNone) &&
    met ({ (inMode 5 2).p UN_CFG_EN 1 with un := { State.reset.un with partner := some ({ elig := 1 } : Health) } }) 0x0902 []
      (fun a _ => (match a.un.partner with | some q => bit q.elig 0 | none => false) && a.on UN_CFG_EN)) = true := by decide

theorem met_fault_commands : (
    let frozen := (inMode 8 2).p FC_STAT_FROZEN 1
    let read1 : State := { frozen with fc := { frozen.fc with part0 := true } }
    met (inMode 7 2) 0x0A01 [8, 0, 0, 0] (fun _ p => decide (8 ≤ leAt p 0 4)) && met (inMode 7 2) 0x0A01 [7, 0, 0, 0] (fun _ p => decide (leAt p 0 4 < 8)) &&
    ran (inMode 7 2) 0x0A04 [] && met (inMode 7 2) 0x0A02 [4, 0, 0, 0] (fun _ p => decide (4 ≤ leAt p 0 4)) &&
    met (inMode 7 2) 0x0A02 [1, 0, 0, 0] (fun _ p => decide (leAt p 0 4 < 2)) && met (inMode 7 2) 0x0A02 [0, 0, 0, 0] (fun _ p => decide (leAt p 0 4 < 2)) &&
    metA (twoLanes 7 2) 0x0A02 [2, 0, 0, 0] (fun _ _ => true) && metA (twoLanes 7 2) 0x0A02 [3, 0, 0, 0] (fun _ _ => true) &&
    ran (inMode 7 2) 0x0A02 [2, 0, 0, 0] && met (inMode 7 2) 0x0A02 [3, 0, 0, 0] (fun a _ => !a.on FC_STAT_FROZEN) &&
    met frozen 0x0A02 [3, 0, 0, 0] (fun a _ => a.on FC_STAT_FROZEN && !a.fc.part0) && met read1 0x0A02 [3, 0, 0, 0] (fun a _ => a.on FC_STAT_FROZEN && a.fc.part0) &&
    met (inMode 8 2) 0x0A03 [0x10, 4, 0, 0, 0, 0, 0, 0] (fun _ p => !srcRaises (byteAt p 0) (byteAt p 1)) &&
    met (inMode 8 2) 0x0A03 [0x10, 1, 1, 0, 0, 1, 0, 0] (fun _ p => srcRaises (byteAt p 0) (byteAt p 1) && byteAt p 2 == 1 && byteAt p 3 == 0 && zeros p 6 8)) = true := by
  decide

theorem met_event_commands : (
    met (inMode 7 2) 0x0B01 [0, 0, 0, 0, 0, 0, 0, 0] (fun _ p => leAt p 4 2 == 0) && met (inMode 7 2) 0x0B01 [0, 0, 0, 0, 15, 0, 0, 0] (fun _ p => leAt p 4 2 == 15 && zeros p 6 8) &&
    met (inMode 7 2) 0x0B01 [0, 0, 0, 0, 1, 0, 0, 0] (fun _ p => leAt p 4 2 == 1 && zeros p 6 8) && ran (inMode 7 2) 0x0B02 [] && ran (inMode 8 2) 0x0B03 []) = true := by decide

/-- An update under way: a manifest of one table chunk and one data chunk. -/
def updating (s : State) : State :=
  { s with up := { s.up with manifest := by_ (List.replicate 120 0 ++ [2, 64, 0, 0, 2, 0] ++ List.replicate 74 0) } }

theorem met_update_commands : (
    let s := updating (inMode 3 2)
    let part : State := { s with up := { s.up with part := some (1, [0]), tableOk := true } }
    met (inMode 3 2) 0x0C01 (List.replicate 200 0) (fun a p => a.manifestCheck p == some (1, stBadParam)) &&
    met ((inMode 3 2).p UP_STAT_TRIAL 1) 0x0C02 (List.replicate 9 0) (fun a _ => a.on UP_STAT_TRIAL) &&
    met (inMode 3 2) 0x0C02 (List.replicate 9 0) (fun a _ => !a.on UP_STAT_TRIAL && a.up.manifest.isEmpty) &&
    met s 0x0C02 ([2, 0, 0, 0, 0, 0, 0, 0, 7]) (fun a p => !a.up.manifest.isEmpty && leAt a.up.manifest 124 2 == leAt p 0 4) &&
    met s 0x0C02 ([0, 0, 0, 0, 0, 64, 0, 0, 7]) (fun _ p => decide (16384 < leAt p 4 2 + 1)) &&
    met (s.p (UP_BITMAP_BITS 0) 1) 0x0C02 ([0, 0, 0, 0, 0, 0, 0, 0, 7]) (fun a _ => a.chunkDone 0) &&
    met s 0x0C02 ([0, 0, 0, 0, 1, 0, 0, 0, 7]) (fun a _ => !a.chunkDone 0 && (a.fillFor 0 1).isNone) &&
    met s 0x0C02 ([0, 0, 0, 0, 0, 0, 0, 0, 7]) (fun a _ => a.fillFor 0 0 == some [] && decide (1 < a.chunkLen 0) && decide (0 < tableChunks 2)) &&
    met s 0x0C02 ([1, 0, 0, 0, 0, 0, 0, 0, 7]) (fun a _ => a.fillFor 1 0 == some [] && decide (1 < a.chunkLen 1) && decide (tableChunks 2 ≤ 1) && !a.up.tableOk) &&
    met part 0x0C02 ([1, 0, 0, 0, 1, 0, 0, 0, 7]) (fun a _ => (a.fillFor 1 1).isSome && a.chunkLen 1 == 2 && a.up.tableOk) &&
    ran s 0x0C03 [] && met (inMode 9 2) 0x0C04 (List.replicate 32 0) (fun a _ => a.up.manifest.isEmpty) &&
    met ((updating (inMode 9 2)).p UP_STAT_PHASE 4) 0x0C04 (List.replicate 32 0)
      (fun a p => !a.up.manifest.isEmpty && p == (a.up.manifest.drop 56).take 32 && a.g UP_STAT_PHASE == 4 && !a.on UN_CFG_EN && a.cfg.vers.isEmpty) &&
    met (inMode 3 2) 0x0C05 [] (fun a _ => a.up.manifest.isEmpty) && met s 0x0C05 [] (fun a _ => !a.up.manifest.isEmpty && !a.on UP_STAT_TRIAL) &&
    met (s.p UP_STAT_TRIAL 1) 0x0C05 [] (fun a _ => !a.up.manifest.isEmpty && a.on UP_STAT_TRIAL)) = true := by decide

theorem met_test_and_life_cycle : (
    met (inMode 8 2) 0x0D01 [0, 0, 0, 0x40, 0, 0, 0, 0] (fun _ p => leAt p 4 2 == 0) &&
    met (inMode 8 2) 0x0D01 [0x18, 0xFC, 9, 0x40, 250, 0, 0, 0] (fun _ p => leAt p 0 4 % 4 == 0 && State.reset.modMapped (leAt p 0 4) && leAt p 4 2 == 250 &&
      zeros p 6 8 && decide (leAt p 0 4 % 0x10000 + 4 * leAt p 4 2 ≤ 0x10000)) &&
    met (inMode 3 0) 0x0D03 [] (fun a _ => !a.dbg.prod) && met (inMode 8 2) 0x0D02 [1, 9, 0, 0, 1, 0, 0, 0] (fun _ p => !(portDepths (byteAt p 0)).contains 9) &&
    met (inMode 3 2) 0x0D02 [1, 3, 0, 0, 0x40, 0x42, 0x0F, 0] (fun a p => (portDepths 1).contains (byteAt p 1) &&
      a.mode != mMaintenance && a.sessPort != 1 && leAt p 4 4 == 1000000 && zeros p 2 4) &&
    met (inMode 8 2) 0x0E01 [3, 1, 0, 0] (fun _ p => !zeros p 1 4) && met (inMode 8 2) 0x0E01 [3, 0, 0, 0] (fun a p => zeros p 1 4 && a.g LC_STATE_LCS == 2) &&
    met (inMode 3 1) 0x0E01 (2 :: List.replicate 99 0) (fun a p => zeros p 1 4 && a.g LC_STATE_LCS == 1) &&
    met (inMode 3 3) 0x0E01 (1 :: List.replicate 75 0) (fun a p => zeros p 1 4 && a.g LC_STATE_LCS == 3) &&
    met (inMode 3 1) 0x0E01 [4, 0, 0, 0] (fun _ p => zeros p 1 4) && met (inMode 8 2) 0x0E01 [1, 0, 0, 0] (fun _ p => zeros p 1 4) &&
    ran (inMode 3 2) 0x0E02 (List.replicate 80 0)) = true := by decide

/-- A session in a phase. -/
def inSession (x : SessPhase) : State := let s := inMode 3 2; { s with sess := { s.sess with phase := x } }

theorem met_sessions : (
    let r : SvcRecord := { kind := 0x10, rsvd := 0, ctr := 1, body := [], atag := [] }
    let full := (inMode 3 2).p (MB_EVSTAT_COUNT 4) 31
    (inMode 3 2).mode != mDormant && (inMode 3 2).serves .svc && (inMode 3 2).sess.phase == .none && (inSession .connected).serves .svc &&
    (inSession .connected).sess.rxCtr == 0 && !(inSession .connected).sess.refusing && (inSession .connected).g LC_STATE_LCS == 2 &&
    ({ inSession .challenged with keys := { State.reset.keys with cred := some [] } } : State).credential.isSome && (inSession .challenged).sess.rxCtr == 0 &&
    (inSession .authenticated).sess.phase == .authenticated && r.ctr != (inSession .authenticated).sess.rxCtr && (inSession .authenticated).sess.phase != .connected &&
    ({ (inSession .connected) with sess := { (inSession .connected).sess with refusing := true } } : State).sess.refusing &&
    (full.g (MB_EVSTAT_COUNT 4) == 31 && full.g (MB_EVTAIL_TAIL 4) == 0) && decide ((inMode 3 2).g (MB_EVSTAT_COUNT 4) < 1)) = true := by decide

/-! #### Lanes, images, speculation -/

/-- A running application of task 1 on pair 1 in lanes A and B, its image delivered to lane A. -/
def running (x : LanePhase) : State :=
  let s := withApp (twoLanes 5 2) .running
  let s : State := { s with app := { s.app with pkg := { s.app.pkg with tasks := [(1, { kind := 1, period := 1000, pair := 1 })] },
                                                  tasks := [(1, { started := true, prevImg := [(64, 1)] })] } }
  s.modLt 0 1 (fun y => { y with phase := x })

/-- The same while lane A speculates in the task's context. -/
def speculating (n : Nat) : State :=
  (((running .submitted).p (RA_CTX_STATE 0 1) n).p (RA_PAIRCTX_VALID 0 1) 1).p (RA_PAIRCTX_TASK 0 1) 1

theorem met_speculation : (
    let v (r : VoteEnd) : State := { speculating 1 with votes := [{ t := 1, cycle := 0, subs := [(0, { oversize := false, runs := [], digest := 0 })], result := some r }] }
    let w : Sub := { oversize := false, runs := [], digest := 0 }
    let c (s : State) : State := s.modCtx 0 1 (fun c => { c with cycle := 1 })
    (running .executing).worksOn 0 1 && !(running .executing).speculates 0 1 && (running .executing).g (RA_CTX_STATE 0 1) == 0 &&
    ((running .executing).lt 0 1).phase == .executing && (speculating 1).worksOn 0 1 && (speculating 1).speculates 0 1 &&
    (running .idle).mayDeliver 0 1 && (running .submitted).mayDeliver 0 1 && (running .ready).worksOn 0 1 && ((running .ready).lt 0 1).phase == .ready &&
    (speculating 1).undecided 0 1 && (speculating 2).undecided 0 1 && ((c (v (.majority w))).cycVote 1 0).isSome &&
    (((c (v (.majority w))).cycVote 1 0).map (fun x => voteFor x 0)) == some (some true) && (((c (v .none)).cycVote 1 0).map (fun x => voteFor x 0)) == some (some false) &&
    (speculating 3).g (RA_CTX_STATE 0 1) == 3 && (speculating 4).g (RA_CTX_STATE 0 1) == 4 && (running .idle).coresRun 0) = true := by decide

theorem met_pairs_split_and_join : (
    let busy (m : Nat) : State := (((running .idle).p (PX_STAT_BUSY 0) 1).p (PX_STAT_PAIR 0) 1).p (pairModeFld 0 1) m
    let wait : State := { running .idle with waiting := some { code := 0x0209, chans := [], hdr := [], payload := [1], since := 0 } }
    (busy 1).on (PX_STAT_BUSY 0) && (busy 1).pairMode 0 1 == 1 && (busy 3).pairMode 0 1 == 3 && !(running .idle).on (PX_STAT_BUSY 0) &&
    getBits (0x11 : Word) 0 2 == 1 && getBits (0x11 : Word) 4 1 == 1 && getBits (0x11 : Word) 2 1 == 0 && getBits (0x01 : Word) 4 1 == 0 && getBits (0x10 : Word) 0 2 == 0 &&
    (wait.pairTasks 1).all wait.taskQuiet && wait.pairTasks 1 == [1]) = true := by decide

theorem met_pair_tests : (
    let s := running .idle
    let forced : State := s.modLane 0 (fun x => { x with forceTest := some 0x10001 })
    ((s.p (PX_STAT_BUSY 0) 1).p (PX_STAT_PAIR 0) 2).pairBusy 0 2 && !s.pairBusy 0 1 && getBits (0x11 : Word) 4 1 == 1 && (s.p (pairModeFld 0 1) 2).pairMode 0 1 == 2 &&
    s.pairMode 0 1 == 0 && groupBits 3 == 32 && getBits (0x1020C : Word) 2 2 == 3 && getBits (0x1020C : Word) 4 8 == 32 && getBits (0x101FC : Word) 4 8 == 31 &&
    getBits (0x101FC : Word) 16 1 == 1 && s.laneSt 0 == laVoting && (forced.lane 0).forceTest.isSome && bit ((s.p (PX_MODE_ARMED 0) 8).g (PX_MODE_ARMED 0)) 3 &&
    (s.p (PX_DIAG_VALID 0 3) 1).on (PX_DIAG_VALID 0 3) && !s.on (PX_DIAG_VALID 0 3)) = true := by decide

theorem met_lane_memory : (
    let s := running .executing
    let full := s.modLt 0 1 (fun y => { y with retWords := (List.range 256).map (8 * ·) })
    let bound := (s.p (RA_PAIRCTX_VALID 0 1) 1).p (RA_PAIRCTX_TASK 0 1) 1
    s.coresRun 0 && (s.mmuCheck 0 0 0xFFFFFFFFFF 8 .load false).isSome && (s.mmuCheck 0 1 0x1FFFFFFFFF 1 .fetch true).isSome && (s.pairTask 0 0).isNone &&
    (s.p (MM_FSTAT_VALID 0 0) 1).on (MM_FSTAT_VALID 0 0) && bound.pairTask 0 1 == some 1 && (bound.lt 0 1).phase == .executing && !bound.speculates 0 1 &&
    (speculating 1).pairTask 0 1 == some 1 && (speculating 1).speculates 0 1 && s.laneSt 0 != laAbsent && decide (0 ≤ 800 * s.g (TC_STARVTHR_US 0 7)) &&
    decide (800 * s.g (TC_STARVTHR_US 0 7) < 800 * s.g (TC_STARVTHR_US 0 7) + 1) && s.liveLanes.contains 0 && (full.lt 0 1).retWords.length == 256 &&
    !(full.lt 0 1).retWords.contains 2048 && (s.lt 0 1).retWords.isEmpty && s.app.state != .starting && (inMode 10 2).laneSt 3 != laAbsent) = true := by
  decide

theorem met_windows_and_dma : (
    let s := running .executing
    let at_ (n : Nat) : State := ((s.p (DM_STAT_STATE 0 15) n).setDmSrc 0 15 0x40000000).setDmDst 0 15 0x40001000
    s.windowsOk 0 && !s.on (SD_CTRL_EN 0) && (s.p (SD_CTRL_EN 0) 1).on (SD_CTRL_EN 0) && !((s.p (SD_WINBASE_BASE 0 0) 0xFFFFFFF).p (SD_WINSIZE_PAGES 0 0) 1).windowsOk 0 &&
    (s.g (DM_CTRL_OWNER 0 15) == 0) && !s.speculates 0 0 && (at_ 0).startCheck 0 15 == some (5, 2, 0x40000000) &&
    (((at_ 3).p (DM_LEN_LEN 0 15) 8).startCheck 0 15).isNone && (at_ 1).g (DM_STAT_STATE 0 15) == 1 && (at_ 2).g (DM_STAT_STATE 0 15) == 2 &&
    ((at_ 1).dmaMove 0 15 0).2 == .moved && !(at_ 1).on (DM_CTRL_CHAIN 0 15)) = true := by decide

theorem met_samples_and_images : (
    let s := running .submitted
    let sampled (own : Bool) : State := s.modTask 1 (fun x => { x with sampled := true, closed := true, own := own })
    let hot (s : State) : State := (s.p LC_MODE_MODE mHotStandby).p UN_CFG_EN 1
    let v (r : Option VoteEnd) : CycVote := { t := 1, cycle := 4, subs := [], result := r, opened := true }
    let st (w : Option (List Byte)) : StreamVote := { kind := .command, st := .task 1, place := 0, posts := [(0, [1])], won := w }
    s.running && (s.desc 1).kind == 1 && decide ((s.task 1).next ≤ s.now + 8) && !(s.task 1).imaged && (s.modTask 1 (fun x => { x with sampled := true })).running &&
    ((s.modTask 1 (fun x => { x with sampled := true })).task 1).sampled && (sampled false).running && !((sampled false).task 1).complete && !(sampled false).takesForwarded &&
    (sampled true).task 1 == { (s.task 1) with sampled := true, closed := true, own := true } && (hot (sampled true)).takesForwarded && ((hot s).fwdOf 1 0).isNone && s.backgroundFree 1 && (s.lastCycle 1 0).1 && (running .abandoned).votingLanes.length == 2 &&
    (({ s with votes := [v none] } : State).openVote 1).isSome && (({ s with streams := [st none] } : State).closing .command 1).isSome &&
    ((({ s with streams := [st (some [1])] } : State).closing .command 1).map (·.won)) == some (some [1])) = true := by decide

theorem met_outputs_act : (
    let s := withApp (running .idle) .stopped
    let p (c : Nat) : Part := { q := .field, commit := c, tgt := .hso 1, data := [1], t := some 1 }
    let full : State := { s with parts := (List.range 8).map (fun k => p (1000 + k)) }
    decide (s.now + queueMargin .field ≤ queueMargin .field) && decide ((s.pendingTimes .field).length < 8) && (full.pendingTimes .field).length == 8 &&
    (full.pendingTimes .field).contains 1007 && !(full.pendingTimes .field).contains 1008 && decide (0 < s.now + queueMargin .field) && full.earliest .field == some 1000 &&
    ((({ s with backlog := [p 9] } : State).backlog.find? (fun x => x.q == .field)).isSome) && ({ s with app := { s.app with anchor := some 0 } } : State).app.anchor.isSome) = true := by decide

/-! #### Time, rings, lanes, links -/

theorem met_time : (
    let s := running .submitted
    let on (m n : Nat) : State := (s.p (TU_TRGCFG_APP 15) m).p (TU_TRGCFG_EN 15) n
    s.mode != mSynchronising && (inMode 4 2).mode == mSynchronising && (s.p TU_STAT_ARMED 1).on TU_STAT_ARMED && !s.on TU_STAT_ARMED && incLegal (8 * 2 ^ 32) &&
    !incLegal (7 * 2 ^ 32) && (s.p TU_STAT_SYNC 1).sync && s.sb.rtcAt.isNone && s.ptpTake.servoIn.isNone && !s.ptpTake.refs.conf &&
    (s.p (TU_CAPCFG_EN 15) 1).on (TU_CAPCFG_EN 15) && !s.on (TU_CAPCFG_EN 15) && capCfgLegal 0x10001 && !capCfgLegal 0xFFFFFFFF && (on 0 1).on (TU_TRGCFG_EN 15) &&
    !(on 0 0).on (TU_TRGCFG_APP 15) && (on 1 1).on (TU_TRGCFG_APP 15) && !((on 1 1).p UN_STAT_HOLD 1).gated &&
    ((on 0 1).p (TU_TRGSTAT_ARMED 15) 1).on (TU_TRGSTAT_ARMED 15) && decide ((on 0 1).trigAt 15 ≤ s.now)) = true := by decide

/-- A ring node's state. -/
def ringAt (m join st : Nat) : State := (((inMode m 2).p (BZ_CTRL_EN 0) 1).p (BZ_JOIN_PHASE 0) join).p (BZ_STAT_STATE 0) st

theorem met_rings : (
    let s := inMode 4 2
    let later : State := (ringAt 4 1 1).p TU_NS_NS 1000000
    let f (src : Nat) : RFrame := { ver := 2, ty := 1, flags := 0, src := src, dst := 0xFF, sched := 0, ttl := 3, bcyc := 0, mcyc := 0, len := 0, body := [], crcOk := true }
    !s.on (BZ_CTRL_EN 0) && (ringAt 4 1 1).on (BZ_CTRL_EN 0) && !(s.ring 0).off && (schedCheck 0 false 0 []).isSome && (later.p (BZ_CTRL_MCAP 0) 1).on (BZ_CTRL_MCAP 0) &&
    decide (1000000 ≤ later.now) && (ringAt 4 4 2).g (BZ_JOIN_PHASE 0) == 4 && (ringAt 4 2 1).g (BZ_JOIN_PHASE 0) == 2 &&
    s.g (BZ_FOLD_STATE 0) == 0 && (s.p (BZ_FOLD_STATE 0) 3).g (BZ_FOLD_STATE 0) == 3 && (s.p (UN_WUNIT_VALID 3) 1).on (UN_WUNIT_VALID 3) && decide ((s.wit 3).cycles < 2) &&
    decide (2 ≤ ((s.modWit 3 (fun x => { x with cycles := 2 })).wit 3).cycles) && (ringAt 4 4 2).nodeId 0 == 0 && (f 0).crcOk && (f 0).src == (ringAt 4 4 2).nodeId 0 &&
    (f 1).src != (ringAt 4 4 2).nodeId 0 && decide ((ringAt 4 4 2).inOwnSlot 0 0 = false) && s.mode != mDormant &&
    (s.modRing 0 (fun y => { y with transmitting := true })).mode == 4) = true := by decide

theorem met_lanes : (
    let s := running .idle
    let st (l n : Nat) : State := State.reset.setLaneSt l n
    let spare : State := ((inMode 3 2).p VX_CTRL_SPAREEN 1).setLaneSt 3 laSpare
    let ready : State := (st 2 laResetting).modLane 2 (fun x => { x with lwiping := false })
    let copying : State := ((twoLanes 5 2).setLaneSt 2 laCopying).modLane 2 (fun x => { x with finalOk := true })
    ({ State.reset with variant := .zm60 } : State).variant == .zm60 && (inMode 3 2).variant == .zm80 && spare.on VX_CTRL_SPAREEN &&
    decide (∀ k : Fin 4, spare.laneSt k.val = laSpare ↔ k = 3) && decide (∀ k : Fin 4, ((inMode 3 2).setLaneSt 3 laAbsent).laneSt k.val = laAbsent ↔ k = 3) && !((inMode 3 2).p VX_CTRL_SPAREEN 0).on VX_CTRL_SPAREEN && s.mode == mActive &&
    decide (spare.votingLanes.length < 3) && ready.laneSt 2 == laResetting && !(ready.lane 2).lwiping && !(ready.lane 2).held && (st 2 laPreparing).laneSt 2 == laPreparing &&
    (st 2 laPreparing).votingLanes.isEmpty && !((st 2 laPreparing).lane 2).waitPulses && ((st 2 laPreparing).modLane 2 (fun x => { x with waitPulses := true })).laneSt 2 == laPreparing &&
    !s.votingLanes.isEmpty && (s.modLane 1 (fun x => { x with lastAgreed := true })).votingLanes.find? (fun v => ((s.modLane 1 (fun x => { x with lastAgreed := true })).lane v).lastAgreed) == some 1 &&
    (s.p VX_RSYNC_ACTIVE 1).on VX_RSYNC_ACTIVE && !s.on VX_RSYNC_ACTIVE && s.taskQuiet 1 && !(running .executing).taskQuiet 1 && s.waiting.isNone &&
    copying.laneSt 2 == laCopying && (copying.lane 2).finalOk && decide (copying.votingLanes.length < 3) &&
    ((copying.setLaneSt 0 laVoting).setLaneSt 3 laVoting).votingLanes.length == 3 && s.g (VX_EXCL_FAILS 2) == 0 && (s.p (VX_EXCL_FAILS 2) 2).g (VX_EXCL_FAILS 2) == 2) = true := by
  decide

theorem met_starts_and_links : (
    let s := withApp (running .idle) .starting
    let one : State := s.modLane 1 (fun x => { x with inited := true })
    let at_ : State := { s with app := { s.app with anchor := some 0 } }
    let ready : State := { s with app := { s.app with startByReady := true } }
    s.app.state == .starting && s.liveLanes == [0, 1] && s.app.anchor.isNone && (one.lane 1).inited && !(s.lane 1).inited && at_.app.anchor == some 0 && !at_.app.startByReady &&
    ready.app.startByReady && s.hasLink (.lane 0) && !(s.link (linkNo (.lane 0))).down && (s.link 0).rxSeq == 0 && crc32 [] == 0 && (s.link 0).replays == 0 &&
    ((s.setLink 0 { s.link 0 with replays := 3 }).link 0).replays == 3 && s.variant == .zm80 && s.shadowRuns .keeper && (State.reset.p LC_MODE_MODE 0).mode == mDormant &&
    ((timeWord 0).isSome != (timeWord 1).isSome)) = true := by decide

theorem met_safe_channel : (
    let s := inMode 5 2
    let live (n : Nat) : State := ((s.p SC_CTRL_EN 1).p (SC_RXSTAT_STATE 127) n).p (SC_RXWDT_WDT 127) 0
    (live 2).on SC_CTRL_EN && (live 2).rxExpired 127 0 && !(live 1).rxExpired 127 0 && !s.on SC_CTRL_EN && (live 4).g (SC_RXSTAT_STATE 127) == 4 &&
    ((live 3).p (SC_RXCFG_RECOV 127) 2).g (SC_RXCFG_RECOV 127) == 2 && s.g TU_STAT_SSTATE == 0 && (padTo 16 []).all (· == 0) && !((padTo 16 [1]).all (· == 0))) = true := by decide

/-! #### Ethernet, safety functions, field, rack, unit, keeper -/

theorem met_ethernet : (
    let s := inMode 5 2
    let up := ((s.p (EN_PORT_EN 3) 1).p (EN_PORT_LINK 3) 1).p (EN_PORT_SPEED 3) 2
    let f : EthFrame := { dst := 0x112233445566, src := 0x665544332211, tag := none, etype := 0x9000, body := List.replicate 46 0, fcsOk := true }
    let ptp := ((((up.p EN_PTPCFG_PORTS 15).p EN_PTPCFG_CLOCK 1)).p EN_PTPSTAT_SLAVE 4)
    !s.portUp 3 && up.portUp 3 && f.fcsOk && frameLen f == 64 && frameLen { f with body := List.replicate 45 0 } == 63 && (ptpAt f).isNone && !s.on EN_CTRL_PDEN &&
    (s.p EN_CTRL_PDEN 1).on EN_CTRL_PDEN && decide (∀ j : Fin 128, s.on (EN_SUBCFG_VALID j.val) = false) && ptp.portUp 3 && bit (ptp.g EN_PTPCFG_PORTS) 3 && ptp.g EN_PTPCFG_CLOCK != 0 &&
    ptp.g EN_PTPSTAT_SLAVE == 4 && !ptp.peerDelay && (ptp.ptp 3).master.isNone && s.g EN_PTPSTAT_SLAVE == 0 && !s.on EN_PTPSTAT_PRESENT && ptp.mode != mSafeHalt &&
    !ptp.ptpMaster 3 && (ptp.p EN_PTPSTAT_SLAVE 1).g EN_PTPSTAT_SLAVE == 1) = true := by decide

theorem met_safety_functions : (
    let s := inMode 5 2
    let st (n : Nat) : State := s.p (SF_DRVSTAT_STATE 2) n
    let free : State := st 1
    let pair (n : Nat) : State := s.p (SF_PAIRSTAT_STATE 7) n
    let differ (t : Nat) : State := (s.p TU_NS_NS 2000000).modDrv 2 (fun x => { x with differ := some t })
    (st 3).g (SF_DRVSTAT_STATE 2) == 3 && (st 0).g (SF_DRVSTAT_STATE 2) == 0 && free.torqueBarred && (free.p (SF_DRVSTAT_INTERLOCK 2) 1).on (SF_DRVSTAT_INTERLOCK 2) &&
    (st 2).g (SF_DRVSTAT_STATE 2) == 2 && !s.on (SF_DRVCFG_FUNC 2) && (s.p (SF_DRVCFG_FUNC 2) 1).on (SF_DRVCFG_FUNC 2) && !s.on (SF_DRVSTAT_CHB 2) && (s.drv 2).differ.isNone &&
    decide ((differ 1000000).now ≤ 1000000 + 1000000) && decide (999999 + 1000000 < (differ 999999).now) && (pair 0).g (SF_PAIRSTAT_STATE 7) == 0 && (pair 4).g (SF_PAIRSTAT_STATE 7) == 4 &&
    (((s.p SF_CTRL_EN 1).p (SF_PAIRCFG_EN 7) 1).on (SF_PAIRCFG_EN 7)) && s.g SF_SEAL_STATE == 1 && (s.p SF_SEAL_STATE 0).g SF_SEAL_STATE == 0 && s.sealState != 0 && s.mode == mActive &&
    (inMode 3 2).mode == mCommissioning) = true := by decide

theorem met_field : (
    let s := inMode 5 2
    let driven : State := ((((s.p FD_STAT_SUPPLY 1).p UN_STAT_HOLD 1).p FD_STAT_SILENT 0).p (cmdFld 12) 1)
    let shut : State := s.modOut 12 (fun x => { x with shut := true })
    decide (1 ≤ s.g (FD_DICFG_TOP 16)) && s.g FD_STAT_SUPPLY == 0 && (s.p FD_STAT_SUPPLY 2).g FD_STAT_SUPPLY == 2 && (shut.out 12).shut && driven.driven 12 && !s.driven 12 &&
    !driven.on FD_STAT_DIAGSUSP && !driven.on (FD_HSOSTAT_OTEMP 12) && (driven.p FD_STAT_DIAGSUSP 1).on FD_STAT_DIAGSUSP && !s.on (FD_HSOSTAT_OPEN 12) &&
    (driven.p (cmdFld 0x14) 1).outLevel 0x14 == some true && (s.outLevel 0x14).isNone && s.on FD_STAT_SILENT && !driven.on FD_STAT_SILENT &&
    decide (s.g (retryFld 12) < 10) && decide (10 ≤ (s.p (retryFld 12) 10).g (retryFld 12)) && s.g (AN_CFG_MODE 6) == 0 && (s.p (AN_CFG_MODE 6) 2).g (AN_CFG_MODE 6) == 2 &&
    !(s.aio 6).settling && !(s.aio 6).shuntOff && (s.p (AN_CFG_MODE 6) 1).g (AN_CFG_MODE 6) == 1 && !driven.inSag && (driven.p FD_STAT_SUPPLY 2).inSag) = true := by decide

theorem met_rack : (
    let s := (running .executing).p UN_STAT_HOLD 1
    let io : State := { s with app := { s.app with pkg := { s.app.pkg with tasks := [(1, { kind := 1, directio := true })] } } }
    let tag (n : Nat) : State := s.setTag 31 { s.tag 31 with st := n }
    (inMode 1 2).mode == mBoot && !s.on RB_STAT_ENUMDONE && !s.gated && (s.p UN_STAT_HOLD 0).gated && s.liveLanes.contains 0 && (io.desc 1).directio && !(s.desc 1).directio &&
    (io.p RB_CTRL_EN 1).on RB_CTRL_EN && ((tag 1).tag 31).st == 1 && ((tag 2).tag 31).st == 2 && ((tag 3).tag 31).st == 3 && (s.tag 31).st == 0 && ((tag 1).tag 31).buf.isNone &&
    inWindow winBase && !inWindow 0 && s.rb.winA.isNone && s.rb.winB.isNone && s.rb.retry.isNone && (s.p RB_LSCTRL_EN 1).on RB_LSCTRL_EN && !s.on RB_LSCTRL_EN && s.rb.lsLeft.isEmpty &&
    !s.lsWaits .a && ({ s with rb := { s.rb with lsNow := some 31 } } : State).lsWaits .a && s.freeTag == some 0 && s.g RB_WSEQ_SEQ == 0) = true := by decide

theorem met_unit_and_faults : (
    let s := inMode 6 2
    let un (s : State) (f : UnSt → UnSt) : State := { s with un := f s.un }
    let act := un (inMode 5 2) (fun u => { u with lease := some 500 })
    (parseHealth [] 0).isNone && s.un.actAt.isNone && (un s (fun u => { u with actAt := some (0, 9) })).mode == mHotStandby && act.un.lease == some 500 && act.un.leaveTo.isNone &&
    decide (500 ≤ act.now + 500) && decide (act.now + 500 < 501) && decide (s.un.noWatch < 50) && (un s (fun u => { u with noWatch := 50 })).un.noWatch == 50 &&
    (un s (fun u => { u with resyncing := true })).un.resyncing && srcRaises 0x10 1 && !srcRaises 0x10 4 && !s.on (FC_SSTAT_PATHFAIL 0x10) &&
    (s.p (FC_SSTAT_PATHFAIL 0x10) 1).on (FC_SSTAT_PATHFAIL 0x10) && !(srcClasses 0x10).isEmpty && (inMode 8 2).mode == mMaintenance && (State.reset.p LC_MODE_MODE 0).mode == mDormant &&
    !s.on (pendFld 3) && (s.p (pendFld 3) 1).on (pendFld 3)) = true := by decide

theorem met_power_and_update : (
    let s := inMode 5 2
    let boot := State.reset
    let wakes (x : Bool) : State := { inMode 10 2 with app := { (inMode 10 2).app with waking := x } }
    boot.mode == mBoot && !boot.on FC_STAT_HALT && (boot.p FC_STAT_HALT 1).on FC_STAT_HALT && !boot.on UP_STAT_TRIAL && ((boot.p UP_STAT_TRIAL 1).p UP_STAT_TRIES 3).g UP_STAT_TRIES == 3 &&
    (inMode 2 2).mode == mSelfTest && !(inMode 2 2).mayOperate && (State.reset.p LC_MODE_MODE 0).mode == mDormant && (inMode 11 2).mode == mSafeHalt && boot.fitted .pwa &&
    (wakes true).app.waking && !(wakes false).app.waking && (inMode 10 2).mode == mParked && (s.p UP_STAT_TRIAL 1).on UP_STAT_TRIAL && (s.p UP_STAT_PHASE 3).g UP_STAT_PHASE == 3 &&
    s.g UP_STAT_PHASE == 0 && s.modMapped 0x40000000 && !s.modMapped 0x3FFFFFFF && (submitOf 0x40000000).isNone && (regFlds 0x40070000).isSome &&
    (running .idle).coresRun 0 && !State.reset.coresRun 0 && ((running .idle).p (DM_STAT_STATE 0 15) 1).g (DM_STAT_STATE 0 15) == 1 && s.gated && !(s.p UN_STAT_HOLD 1).gated) = true := by decide

/-! #### The clauses' other cases -/

theorem met_checks : (
    let s := inMode 3 2
    let at_ (code : Nat) (xs : List Nat) : State := taken s 4 code (hd xs.length) (by_ xs)
    let row (code : Nat) (q : CmdRow → Bool) : Bool := match cmdRow code with | some r => q r | none => false
    let posted : State := { twoLanes 5 2 with streams := [{ kind := .command, st := .task 0, place := 0, posts := [(1, hdrBytes 0xFFFF (hd 0))] }] }
    (State.reset.p LC_MODE_MODE 0).mode == mDormant && (((speculating 1).p (RA_PAIRCTX_VALID 0 0) 1).p (RA_PAIRCTX_TASK 0 0) 1).specPoster 0 == some 1 && (speculating 1).mode != mDormant && s.specPoster 4 == none &&
    !(s.p (MB_STAT_EN 4) 0).on (MB_STAT_EN 4) && (s.p (MB_STAT_STATE 4) 1).g (MB_STAT_STATE 4) == 1 && s.on (MB_STAT_EN 4) && s.g (MB_STAT_STATE 4) != 1 && s.variant != .zm60 &&
    (cmdRow 0xFFFF).isNone && row 0x0102 (fun r => decide (∀ e ∈ r.lens, ¬ (e.1 ≤ 1 ∧ 1 ≤ e.2)) && decide (∃ e ∈ r.lens, e.1 ≤ 0 ∧ 0 ≤ e.2)) &&
    row 0x0106 (fun r => chanAccepts 2 5 r [] == false) && row 0x0106 (fun r => chanAccepts 2 4 r (by_ [0, 0, 0, 0]) == true) && !(inMode 5 2).modeAccepts 0x0106 4 (by_ [0, 0, 0, 0]) &&
    (at_ 0x0102 []).checkCmd 4 (hdrBytes 0x0102 (hd 0)) [] == none && !lcsAccepts 2 0x0D03 && (s.p (MB_STAT_STATE 4) 1).on (MB_STAT_EN 4) &&
    (match (lanePost posted 0 0xFFFF (hd 0) []).2 with | .formed b => b == hdrBytes 0xFFFF (hd 0) | _ => false) && posted.specPoster 0 == none) = true := by decide

theorem met_settings : (
    let s := inMode 3 2
    let w (xs : List Nat) : Bool := (s.applyWake (by_ xs)).isSome
    let trig (xs : List Nat) : Option State := s.applyTrig (by_ xs)
    let fio (m : Nat) : List Nat := List.replicate 16 1 ++ List.replicate 16 0 ++ [3, 0, 0, 0, m] ++ List.replicate 11 0
    w [16, 3, 0, 0, 1, 0, 0, 0] && w [0, 1, 0, 0, 0, 0, 0, 0] && !w [17, 3, 0, 0, 1, 0, 0, 0] && !w [16, 4, 0, 0, 1, 0, 0, 0] && !w [16, 2, 0, 0, 0, 0, 0, 0] &&
    (s.applyTime (by_ (List.replicate 24 0))).isSome && (s.applyTime (by_ [0, 0, 0, 1])).isNone && (s.applyEth (by_ ([0, 0, 1, 0] ++ (List.replicate 6 [16, 0, 0, 0]).flatten ++ [8, 0, 0, 0]))).isSome &&
    (s.applyEth (by_ (List.replicate 28 0 ++ [7, 0, 0, 0]))).isNone && (s.applyEth (by_ ([0, 0, 1, 0] ++ (List.replicate 6 [16, 0, 0, 0]).flatten ++ [30, 0, 0, 0]))).isSome &&
    (s.applyEth (by_ (List.replicate 28 0 ++ [31, 0, 0, 0]))).isNone && (s.applyCap (by_ [15, 1, 0x81, 0])).isSome && (s.applyCap (by_ [16, 1, 1, 0])).isNone &&
    (trig ([15, 1, 0, 0, 1] ++ List.replicate 15 0)).isSome && (trig ([16, 1, 0, 0] ++ List.replicate 16 0)).isNone && (trig ([0, 1, 0, 1, 1] ++ List.replicate 15 0)).isSome &&
    decide (¬ s.now < 0) && decide (0 < (s.p TU_NS_NS 8).now) && (s.applyFio (by_ (fio 0))).isSome && (s.applyFio (by_ (fio 4))).isSome && (s.applyFio (by_ (fio 12))).isNone &&
    met s 0x0801 (fio 0) (fun a p => (a.applyFio p).isSome)) = true := by decide

theorem met_application_cases : (
    let s := inMode 7 2
    let q : AppPkg := { s.app.pkg with tasks := [(15, { kind := 1, pair := 3, safety := true })], entries := [(1, 0x1000), (3, 0x1000)] }
    let olc : State := { s with app := { s.app with olcPkg := some {}, olcHash := by_ (List.replicate 32 7) } }
    let wait (s : State) : State := { s with waiting := some { code := 0x0208, chans := [4], hdr := [], payload := [], since := 0 } }
    let t : State := { twoLanes 7 2 with app := { s.app with pkg := q } }
    let split (n m : Nat) : State := t.p (pairModeFld 0 n) m
    let bad (a : State) (n : Nat) : Bool := decide (∃ t ∈ List.range 16, (a.desc t).kind ≠ 0 ∧ (a.desc t).pair = n ∧ (a.desc t).safety = true)
    met s 0x0208 (List.replicate 32 7) (fun a _ => a.app.olcPkg.isNone) && met olc 0x0208 (List.replicate 32 8) (fun a p => a.app.olcPkg.isSome && a.app.olcHash != p) &&
    met (wait olc) 0x0208 (List.replicate 32 7) (fun a p => a.app.olcPkg.isSome && a.app.olcHash == p && a.waiting.isSome) &&
    met olc 0x0208 (List.replicate 32 7) (fun a p => a.app.olcPkg.isSome && a.app.olcHash == p && a.waiting.isNone) &&
    metA t 0x0209 [3, 0, 0, 0] (fun a _ => bad a 3) && metA t 0x0209 [2, 0, 0, 0] (fun a _ => tabGet (fun _ => 0) a.app.pkg.entries 2 == 0) &&
    metA (split 1 2) 0x0209 [1, 0, 0, 0] (fun a _ => !bad a 1 && a.pairNow 1 == 2) && metA (split 1 0) 0x0209 [1, 0, 0, 0] (fun a _ => a.pairNow 1 == 0 && a.waiting.isNone) &&
    metA (wait t) 0x0209 [1, 0, 0, 0] (fun a _ => a.pairNow 1 != 2 && a.waiting.isSome) && metA t 0x020A [4, 0, 0, 0] (fun _ _ => true) &&
    metA t 0x020A [3, 0, 0, 0] (fun a _ => a.pairNow 3 == 0) && metA (split 3 2) 0x020A [3, 0, 0, 0] (fun a _ => a.pairNow 3 != 0 && a.waiting.isNone) &&
    metA (wait (split 3 2)) 0x020A [3, 0, 0, 0] (fun a _ => a.pairNow 3 != 0 && a.waiting.isSome)) = true := by decide

theorem met_unit_and_update_cases : (
    let ring : RingCfg := { nent := 3, ctrl := 0, sync := 0, entries := [(0x20000000, 48), (0x21000000, 48), (0x42000000, 8)] }
    let s := inMode 3 2
    let lit : State := { s with cfg := { s.cfg with ring1 := some ring } }
    let one : State := { s with cfg := { s.cfg with unit := some { unit := 1, partner := 1, witness := 2, backup := none, r1 := true, r2 := false } } }
    let u := updating s
    let part : State := { u with up := { u.up with part := some (1, [0]), tableOk := true } }
    let poor : State := { (inMode 5 2).p UN_CFG_EN 1 with un := { s.un with partner := some ({ elig := 2 } : Health) } }
    met lit 0x0901 [1, 0, 1, 2, 255, 1, 0, 0] (fun a p => lightRingOk a.cfg.ring1 (byteAt p 2) [byteAt p 3] && zeros p 6 8 && leAt p 0 2 != 0) &&
    met one 0x0901 [0, 0, 0, 0, 255, 1, 0, 0] (fun a p => zeros p 6 8 && a.cfg.unit.isSome) && met poor 0x0902 [] (fun a _ => a.un.partner.isSome) &&
    met part 0x0C02 [1, 0, 0, 0, 1, 0, 0, 0, 7, 7] (fun a _ => (a.fillFor 1 1).isSome && decide (a.chunkLen 1 < 3)) &&
    met part 0x0C02 [1, 0, 0, 0, 0, 0, 0, 0, 7] (fun a _ => a.fillFor 1 0 == some [] && decide (1 < a.chunkLen 1) && a.up.tableOk) &&
    met u 0x0C02 [1, 0, 0, 0, 0, 0, 1, 0, 7] (fun _ p => !zeros p 6 8) && met (updating (inMode 9 2)) 0x0C04 (List.replicate 32 0) (fun a _ => a.g UP_STAT_PHASE != 4)) = true := by
  decide

theorem met_loop_tests_and_life_cycle : (
    let s := inMode 8 2
    let x : LoopRun := { port := 1, depth := 1, chans := [4], hdr := [], payload := [], sent := 1, intact := 1, result := 0, endNs := 16 }
    let at_ (n : Nat) : State := { s with dbg := { s.dbg with loop := some x }, tu := { s.tu with upNs := n } }
    let via : State := { s with sess := { s.sess with phase := .authenticated, via := .eth 0 } }
    let blank (xs : List Nat) : Bool := (runs ((inMode 3 0).p (MB_STAT_EN 6) 1) 6 0x0E01 (hd xs.length) (by_ xs)).isSome
    met s 0x0D02 [1, 3, 0, 0, 1, 0, 0, 0] (fun a p => (portDepths 1).contains (byteAt p 1) && !a.portInService 1 && leAt p 4 4 == 1) &&
    met (s.p (EN_PORT_LINK 0) 1) 0x0D02 [1, 3, 0, 0, 1, 0, 0, 0] (fun a _ => a.mode == mMaintenance && a.portInService 1) &&
    met via 0x0D02 [via.sessPort, 3, 0, 0, 1, 0, 0, 0] (fun a p => byteAt p 0 == a.sessPort) &&
    met s 0x0D02 [1, 3, 0, 0, 0x41, 0x42, 0x0F, 0] (fun _ p => decide (1000000 < leAt p 4 4)) && decide ((at_ 15).tu.upNs < 16) && decide (16 ≤ (at_ 16).tu.upNs) &&
    (at_ 15).dbg.loop == some x && blank (1 :: List.replicate 131 0) && !(inMode 3 0).dbg.prod && met (inMode 3 3) 0x0E01 [4, 0, 0, 0] (fun a _ => a.g LC_STATE_LCS == 3) &&
    met s 0x0E01 [4, 0, 0, 0] (fun a _ => a.g LC_STATE_LCS == 2) && met (inMode 3 3) 0x0E01 [2, 0, 0, 0] (fun a _ => a.g LC_STATE_LCS == 3) &&
    ran { inMode 3 0 with dbg := { s.dbg with prod := true } } 0x0D03 [] && ({ inMode 3 0 with dbg := { s.dbg with prod := true } } : State).dbg.prod) = true := by decide

theorem met_session_ends : (
    let s := inSession .connected
    let hold (n m : Nat) : State := ((inMode 3 2).p (MB_EVSTAT_COUNT 4) n).p (MB_EVTAIL_TAIL 4) m
    (s.endSession.sess.phase == .none) && ({ s with sess := { s.sess with fails := 2 } } : State).sess.fails == 2 && ({ s with sess := { s.sess with fails := 7 } } : State).sess.fails == 7 &&
    (inSession .challenged).sess.phase == .challenged && ({ inSession .challenged with keys := {}, sess := { (inSession .challenged).sess with cred := 0 } } : State).credential.isNone &&
    (inMode 3 2).sess.phase == .none && decide ((31 + 32 - (hold 31 0).g (MB_EVTAIL_TAIL 4)) % 32 ≤ (hold 31 0).g (MB_EVSTAT_COUNT 4)) &&
    decide ((hold 30 0).g (MB_EVSTAT_COUNT 4) < (31 + 32 - (hold 30 0).g (MB_EVTAIL_TAIL 4)) % 32)) = true := by decide

/-- A lane's task may make its next access: the decidable form of `MayAccess`. -/
def mayAccess (s : State) (l t : Nat) : Bool :=
  s.worksOn l t && (s.lane l).waitOps.all (fun e => e.2.1 != s.taskCore t false) && !s.mustWait l (s.taskCore t false) false (.submit false)

theorem mayAccess_iff (s : State) (l t : Nat) : mayAccess s l t = true ↔ MayAccess s l t := by
  simp [mayAccess, MayAccess, and_assoc]

theorem met_submissions : (
    let s := running .executing
    let done (x : Option State) (q : State → Bool) : Bool := match x with | some a => mayAccess a 0 1 && q a | none => false
    done (doneWork 0 1 [.load false false 0x1000 8] s) (fun a => !a.speculates 0 1 && a.g (RA_CTX_STATE 0 1) == 0 && !a.on (VX_SUBSTAT_BUSY 0) && (a.lt 0 1).phase == .executing) &&
    done (doneWork 0 1 [] (s.p (VX_SUBSTAT_BUSY 0) 1)) (fun a => !a.speculates 0 1 && a.on (VX_SUBSTAT_BUSY 0)) &&
    done (doneWork 0 1 [] (speculating 1)) (fun a => a.speculates 0 1)) = true := by decide

theorem met_deliveries_and_verdicts : (
    let w : Sub := { oversize := false, runs := [], digest := 0 }
    let v (s : State) (r : VoteEnd) : State := { s with votes := [{ t := 1, cycle := 0, subs := [(0, w)], result := some r }] }
    let at_ (n : Nat) (p : LanePhase) : State := (speculating n).modLt 0 1 (fun y => { y with phase := p })
    let und (s : State) (b : Bool) : Bool := s.undecided 0 1 && (match s.cycVote 1 ((s.ctx 0 1).cycle - 1) with | some x => voteFor x 0 == some b | none => false)
    let c (s : State) : State := s.modCtx 0 1 (fun c => { c with cycle := 1 })
    (running .idle).mayDeliver 0 1 && ((running .submitted).modLt 0 1 (fun y => { y with cycle := 0 })).mayDeliver 0 1 && (running .ready).startDue 1 0 &&
    !(running .ready).notDispatched 0 1 && ((running .ready).modLane 0 (fun x => { x with refused := [1] })).notDispatched 0 1 && (running .ready).worksOn 0 1 &&
    und (c (v (speculating 1) (.majority w))) true && und (c (v (speculating 1) .none)) false && ((speculating 3).p (RA_CTX_CONF 0 1) 1).on (RA_CTX_CONF 0 1) &&
    (at_ 3 .ready).g (RA_CTX_STATE 0 1) == 3 && (at_ 4 .ready).g (RA_CTX_STATE 0 1) == 4 && ((at_ 4 .ready).lt 0 1).phase == .ready && (at_ 4 .ready).startDue 1 0 &&
    !(at_ 4 .ready).notDispatched 0 1 && (running .idle).pairRuns 0 3 && (running .idle).pairTask 0 3 == none) = true := by decide

theorem met_pair_cases : (
    let s := running .idle
    let m (n : Nat) : State := s.p (pairModeFld 0 3) n
    let wait : State := { s with waiting := some { code := 0x020A, chans := [], hdr := [], payload := [3], since := 0 } }
    let at_ (n : Nat) : State := (s.p (PX_DIAG_VALID 0 3) 1).modLane 0 (fun x => { x with diagAt := [(3, n)] })
    getBits (0x13 : Word) 2 1 == 0 && getBits (0x17 : Word) 2 1 == 1 && (m 0).pairMode 0 3 != 2 && (m 2).pairMode 0 3 == 2 && (m 2).pairMode 0 3 != 0 && (m 0).pairMode 0 3 == 0 &&
    !s.on (PX_STAT_BUSY 0) && getBits (0x14 : Word) 0 2 == 0 && getBits (0x14 : Word) 2 1 == 1 && ((s.p (PX_STAT_BUSY 0) 1).p (PX_STAT_PAIR 0) 3).g (PX_STAT_PAIR 0) == 3 &&
    (wait.pairTasks 3).all wait.taskQuiet && !wait.finalRuns && s.pairRuns 0 0 && ((s.p (PX_STAT_BUSY 0) 1).p (PX_STAT_PAIR 0) 3).pairBusy 0 3 && !(m 2).pairBusy 0 3 &&
    tabGet (fun _ => 0) ((at_ 1).lane 0).diagAt 3 == (at_ 1).tu.upNs + 1 && tabGet (fun _ => 0) ((at_ 0).lane 0).diagAt 3 != (at_ 0).tu.upNs + 1 && (at_ 1).on (PX_DIAG_VALID 0 3) &&
    s.coresRun 0 && (m 1).pairMode 0 3 != 2 && bit ((s.p (PX_MODE_ARMED 0) 8).g (PX_MODE_ARMED 0)) 3 && s.laneSt 0 == laVoting && (s.setLaneSt 3 laSpare).laneSt 3 == laSpare) = true := by
  decide

theorem met_lane_memory_cases : (
    let s := (running .executing).p (pairModeFld 0 3) 2
    let bound (s : State) : State := (s.p (RA_PAIRCTX_VALID 0 1) 1).p (RA_PAIRCTX_TASK 0 1) 1
    let bad (s : State) (c : Nat) : Bool := s.pairRuns 0 (c / 2) && (s.mmuCheck 0 (c / 2) 0xFFFFFFFFFF 8 .store false).isSome
    bad s 7 && s.pairTask 0 3 == none && bad (bound s) 3 && (bound s).pairTask 0 1 == some 1 && !(bound s).speculates 0 1 && (bound s).g (RA_CTX_STATE 0 1) == 0 &&
    bad (speculating 1) 2 && (speculating 1).pairTask 0 1 == some 1 && (speculating 1).speculates 0 1 && s.pairMode 0 3 == 2 && s.pairMode 0 2 == 0 &&
    (s.lt 0 1).phase == .executing && s.laneSt 0 != laAbsent && s.coresRun 0 && !(s.p (TC_CTRL_SCRUB 0) 0).on (TC_CTRL_SCRUB 0) && (s.p (TC_CTRL_SCRUB 0) 1).on (TC_CTRL_SCRUB 0)) = true := by
  decide

theorem met_retained_and_dma_cases : (
    let s := running .executing
    let full (s : State) : State := s.modLt 0 1 (fun y => { y with retWords := (List.range 256).map (8 * ·) })
    let start := withApp s .starting
    let b := retBytes 0 8 7
    let due : State := { (s.modLane 0 (fun x => { x with inited := true })).modLane 1 (fun x => { x with inited := true }) with
      streams := [{ kind := .retained, st := .runtime, place := 0, posts := [(0, b), (1, b)], won := some b }] }
    let dma (s : State) : State := ((s.setDmSrc 0 15 0x1000).setDmDst 0 15 0x2000).p (DM_LEN_LEN 0 15) 8
    let at_ (n : Nat) : State := (dma s).p (DM_STAT_STATE 0 15) n
    let chain (s : State) : State := s.p (DM_CTRL_CHAIN 0 15) 1
    let spec := (dma (speculating 1)).p (DM_CTRL_OWNER 0 15) 1
    let io (s : State) : State := ({ s with app := { s.app with pkg := { s.app.pkg with tasks := [(1, { kind := 1, directio := true, pair := 1 })] } } } : State).p RB_CTRL_EN 1
    let out (m : State × Burst) : Bool := match m.2 with | .fault _ _ _ => true | _ => false
    !start.retOver 0 .runtime 0 [] && s.retOver 0 .runtime 0 [] && start.pairRuns 0 0 && start.liveLanes.contains 0 && !s.retOver 0 (.task 1) 2048 [] &&
    (full s).retOver 0 (.task 1) 2048 [] && !(full s).retOver 0 (.task 1) 2040 [] && (full (speculating 1)).retOver 0 (.task 1) 2048 ((full (speculating 1)).ctx 0 1).retWords &&
    !(speculating 1).retOver 0 (.task 1) 2048 ((speculating 1).ctx 0 1).retWords && (speculating 1).pairRuns 0 ((speculating 1).desc 1).pair && (due.retDue .runtime).length == 1 &&
    due.mode != mDormant && s.pairRuns 0 (s.g (DM_CTRL_PAIR 0 15)) && !s.speculates 0 (s.g (DM_CTRL_OWNER 0 15)) && ((at_ 0).startCheck 0 15).isNone && ((at_ 3).startCheck 0 15).isNone &&
    spec.speculates 0 (spec.g (DM_CTRL_OWNER 0 15)) && ((spec.dmQueued 0 1).startCheck 0 15).isNone && (((spec.p (DM_LEN_LEN 0 15) 0).dmQueued 0 1).startCheck 0 15).isSome &&
    ((at_ 1).dmaMove 0 15 8).2 == .moved && ((at_ 1).dmaMove 0 15 8).1.g (DM_LEN_LEN 0 15) == 0 && ((at_ 1).dmaMove 0 15 0).1.g (DM_LEN_LEN 0 15) == 8 &&
    out (((at_ 1).setDmSrc 0 15 0x200000000).dmaMove 0 15 8) &&
    ((io ((((at_ 1).p (DM_CTRL_OWNER 0 15) 1).setDmSrc 0 15 0x200000000))).dmaMove 0 15 8).2 == .waits && (chain (at_ 1)).on (DM_CTRL_CHAIN 0 15) &&
    !((at_ 1).dmaMove 0 15 8).1.on (DM_CTRL_CHAIN 0 15) && ((chain (at_ 1)).dmaMove 0 15 8).1.on (DM_CTRL_CHAIN 0 15)) = true := by decide

theorem met_sample_cases : (
    let s := running .submitted
    let kind (n : Nat) (s : State) : State := { s with app := { s.app with pkg := { s.app.pkg with tasks := [(1, { kind := n, period := 1000, pair := 1 })] } } }
    let x (f : TaskSt → TaskSt) (s : State) : State := s.modTask 1 f
    let closed (s : State) : State := x (fun y => { y with sampled := true, closed := true }) s
    let hot (s : State) : State := (s.p LC_MODE_MODE mHotStandby).p UN_CFG_EN 1
    let fwd (s : State) : State := { s with un := { s.un with fwd := [(1, 0, [])] } }
    let aband := ((running .abandoned).modLt 1 1 (fun y => { y with phase := .abandoned }))
    (kind 3 s).backgroundFree 1 && !((x (fun y => { y with imaged := true }) (kind 3 (running .executing))).backgroundFree 1) && (kind 3 s).running && ((kind 3 s).desc 1).kind == 3 &&
    (kind 1 s).running && !((x (fun y => { y with started := false }) s).task 1).started && (s.task 1).started && (s.lastCycle 1 (s.task 1).outCycle).1 &&
    aband.lastCycle 1 (aband.task 1).outCycle == (false, true) && (running .executing).lastCycle 1 0 == (false, false) && (aband.overrun 1).running &&
    (x (fun y => { y with sampled := true }) s).running && ((x (fun y => { y with sampled := true }) s).task 1).sampled && (closed s).sourcesIn 1 && !((closed s).task 1).complete &&
    !((closed s).task 1).own && !(closed s).takesForwarded && (closed s).running && (hot (closed s)).takesForwarded && (hot (closed s)).running && ((hot (closed s)).fwdOf 1 0).isNone &&
    ((fwd (hot (closed s))).fwdOf 1 0).isSome && !s.heldPort (plkPort .plk1) && ((x (fun y => { y with own := true, cycle := 7 }) s).task 1).own) = true := by decide

theorem met_vote_cases : (
    let s := running .submitted
    let w : Sub := { oversize := false, runs := [], digest := 0 }
    let u : Sub := { oversize := false, runs := [], digest := 1 }
    let v (subs : List (Lane × Sub)) (r : Option VoteEnd) : CycVote := { t := 1, cycle := 0, subs := subs, result := r, opened := true }
    let st (k : StreamKind) (posts : List (Lane × List Byte)) (w : Option (List Byte)) : StreamVote := { kind := k, st := .task 1, place := 0, posts := posts, won := w }
    let at_ (n : Nat) : State := ({ s with tu := { s.tu with upNs := n } } : State)
    let late : State := at_ (1000 * s.g VX_CTRL_WINDOW)
    let cmd : State := at_ (1000 * s.g VX_CTRL_CMDWIN)
    let one : State := (running .submitted).setLaneSt 1 laOut
    let rdReq : List Byte := []
    !(at_ (1000 * s.g VX_CTRL_WINDOW - 1)).windowOver 1 0 (s.g VX_CTRL_WINDOW) && late.windowOver 1 0 (late.g VX_CTRL_WINDOW) && late.voters.length == 2 &&
    (({ late with votes := [v [(0, w), (1, u)] none] } : State).openVote 1).isSome && agreed (late.countedSubs (v [(0, w), (1, u)] none)) == none &&
    agreed (late.countedSubs (v [(0, w), (1, w)] none)) == some w && (v [(0, w), (1, w)] (some (.majority w))).result == some (.majority w) && decide (one.voters.length < 2) &&
    (({ late with votes := [v [(0, w)] (some .none)] } : State).openVote 1).isSome && !(at_ 0).windowOver 1 0 (s.g VX_CTRL_CMDWIN) && cmd.windowOver 1 0 (cmd.g VX_CTRL_CMDWIN) &&
    (({ cmd with streams := [st .command [(0, [1]), (1, [2])] none] } : State).closing .command 1).isSome && agreed (cmd.counted (st .command [(0, [1]), (1, [2])] none)) == none &&
    agreed (cmd.counted (st .rack [(0, [1]), (1, [1])] none)) == some [1] && (({ cmd with streams := [st .rack [(0, [1]), (1, [1])] none] } : State).closing .rack 1).isSome &&
    (({ cmd with streams := [st .retained [(0, [1])] (some [1])] } : State).closing .retained 1).isSome && rdReq.isEmpty) = true := by decide

theorem met_output_cases : (
    let s := withApp (running .idle) .stopped
    let p (c : Nat) : Part := { q := .field, commit := c, tgt := .hso 1, data := [1], t := some 1 }
    let pub : Part := { q := .netOther, commit := 0, tgt := .publication 7 0, data := [1], t := some 1 }
    let full : State := { s with parts := (List.range 8).map (fun k => p (1000 + k)) }
    let keep : State := { s with parts := [{ p 0 with q := .keeper }] }
    let back : State := { s with backlog := [p 9] }
    let held := withApp { s with app := { s.app with anchor := some 0 } } .held
    back.heldBack (p 9) && !back.heldBack (p 10) && !s.heldBack (p 199) && decide ((p 199).commit < s.dieNow .field + queueMargin .field) &&
    decide (s.dieNow .field + queueMargin .field ≤ (p 200).commit) && decide (8 ≤ (full.pendingTimes .field).length) && !(full.pendingTimes .field).contains 1008 &&
    (full.pendingTimes .field).contains 1007 && decide ((s.pendingTimes .field).length < 8) && keep.earliest .keeper == some 0 && decide (0 ≤ keep.dieNow .keeper) &&
    full.earliest .field == some 1000 && decide (1000 ≤ (full.p TU_NS_NS 1000).now) && (back.backlog.find? (fun x => x.q == .field)).isSome &&
    (s.setLink lkField { s.link lkField with down := true }).linkDown lkField && !s.linkDown lkField &&
    ({ s with parts := [pub] } : State).parts.filter (fun x => match x.tgt with | .publication k _ => k == 7 && decide (x.commit ≤ s.now) | _ => false) == [pub] &&
    held.app.state == .held && held.app.anchor.isSome && decide ((held.task 1).next ≤ held.now + 8) && (held.desc 1).kind != 0) = true := by decide

theorem met_time_cases : (
    let s := inMode 5 2
    let at_ (n : Nat) : State := ({ s.p TU_NS_NS n with tu := { s.tu with inc := 8 * 2 ^ 32, stepPend := some 8 } } : State)
    let down := s.setLink lkNetwork { s.link lkNetwork with down := true }
    let ptp (m : Nat) (o : Nat) : State := (((inMode m 2).p EN_PTPCFG_CLOCK 1).p EN_PTPSTAT_PRESENT 1).p EN_PTPOFF_O o
    let ptpS (m o : Nat) : State := { ((ptp m o).p EN_PTPCFG_PORTS 1) with cfg := { s.cfg with time := some [] } }
    let lost : State := ((s.p EN_PTPCFG_CLOCK 1).p EN_PTPCFG_PORTS 1)
    let trg (s : State) : State := ((s.p (TU_TRGCFG_APP 15) 1).p (TU_TRGCFG_EN 15) 1).p UN_STAT_HOLD 1
    let armed (t : Nat) : State := (trg s).armNow 15 t
    let word : Part := { q := .netOther, commit := 0, tgt := .trigger 15, data := leBytes 8 5 }
    decide (2 ^ 32 ≤ (at_ 0xFFFFFFF8).g TU_NS_NS + ((at_ 0).tu.frac + (at_ 0).tu.inc) / 2 ^ 32) &&
    decide ((at_ 0xFFFFFFF7).g TU_NS_NS + ((at_ 0).tu.frac + (at_ 0).tu.inc) / 2 ^ 32 < 2 ^ 32) && (at_ 0).tu.stepPend.isSome && ((at_ 0).p (TU_CAPSTAT_VALID 15) 1).on (TU_CAPSTAT_VALID 15) &&
    (s.p TU_STAT_SYNC 1).sync && ({ s with sb := { s.sb with rtcAt := some 0 } } : State).sb.rtcAt == some 0 && decide (0 + 600000000000 ≤ ((s.p TU_ERA_ERA 140)).now) &&
    down.linkDown lkNetwork && !s.linkDown lkNetwork && ((ptpS 5 0).ptpTake.servoIn).isSome && (((ptpS 4 256001).ptpTake.servoIn).map (fun x => decide (256000 < x.1))) == some true &&
    (((ptpS 4 256000).ptpTake.servoIn).map (fun x => decide (256000 < x.1))) == some false && lost.ptpTake.servoIn.isNone && lost.ptpTake.refs.conf && lost.g TU_STAT_SSTATE == 0 &&
    (lost.p TU_STAT_SSTATE 2).g TU_STAT_SSTATE != 0 && (armed 0).trigAt 15 == 0 && decide ((armed 99).trigAt 15 < (armed 99).now + trgMargin 0) &&
    !decide ((armed 100).trigAt 15 < (armed 100).now + trgMargin 0) && !(trg s).gated && (trg s).on (TU_TRGCFG_APP 15) &&
    (({ s with transit := [word] } : State).transit.find? (·.isTrigger 15)) == some word && leNat (word.data.take 8) == (5 : BitVec 64).toNat && (armed 0).on (TU_TRGSTAT_ARMED 15)) = true := by
  decide

/-- Node 0 of ring 1, joined, at 1,003,000 ns: a poll entry of node 1 at 3,000 ns, its own reply at 6,000, node 1's at 9,000, its reference message at
12,000. -/
def ringNode (m st : Nat) : State :=
  let ent (s : State) (e kind node len : Nat) : State :=
    ((((s.p (BZ_SENTA_OFFSET 0 e) (3000 + 3000 * e)).p (BZ_SENTA_BCYC 0 e) 63).p (BZ_SENTA_KIND 0 e) kind).p (BZ_SENTA_NODE 0 e) node).p (BZ_SENTB_LEN 0 e) len
  let s := (((ringAt m 4 st).p (BZ_NENT_COUNT 0) 4).p (BZ_CTRL_NODES 0) 3).p TU_NS_NS 1003000
  (ent (ent (ent (ent s 0 0 1 8) 1 1 0 8) 2 1 1 8) 3 2 0 24).modRing 0 (fun x => { x with transmitting := true })

/-- An entry of its schedule. -/
def ringEnt (s : State) (e : Nat) : SchedEnt := entOf e (s.word (BZ_SENTA_OFFSET 0 e)) (s.word (BZ_SENTB_LEN 0 e))

theorem met_ring_control : (
    let s := inMode 4 2
    let cold (n : Nat) : State := { ((ringAt 4 1 1).p (BZ_CTRL_MCAP 0) 1) with tu := { s.tu with upNs := n } }
    let lost (j : Nat) : State := (ringAt 4 j 2).modRing 0 (fun x => { x with missed := 8 })
    let fold (n : Nat) : State := (ringAt 4 4 2).p (BZ_FOLD_STATE 0) n
    !s.on (BZ_CTRL_EN 0) && !(s.ring 0).off && (schedCheck 3 true 1 [ringEnt (ringNode 5 2) 1]).isNone && (schedCheck 0 false 0 []).isSome && (ringAt 4 1 1).on (BZ_CTRL_EN 0) &&
    (cold 1000000).g (BZ_JOIN_PHASE 0) == 1 && (cold 1000000).on (BZ_CTRL_MCAP 0) && (cold 1000000).mode == mSynchronising &&
    decide (((cold 1000000).ring 0).lastActivity + (1000000 + (cold 1000000).nodeId 0 * 23000) ≤ (cold 1000000).tu.upNs) && decide (8 ≤ ((lost 4).ring 0).missed) &&
    (lost 4).g (BZ_JOIN_PHASE 0) == 4 && (lost 2).g (BZ_JOIN_PHASE 0) == 2 && (fold 0).rxPort 0 == .b && (fold 2).rxPort 0 == .a && !(fold 0).isMaster 0 && (fold 0).isSender 0 == false &&
    (fold 0).g (BZ_FOLD_STATE 0) == 0 && (fold 1).g (BZ_FOLD_STATE 0) % 2 == 1 && (fold 2).g (BZ_FOLD_STATE 0) / 2 % 2 == 1 && ((fold 1).p (BZ_FOLD_NOTICE 0) 1).on (BZ_FOLD_NOTICE 0) &&
    !(fold 1).on (BZ_FOLD_NOTICE 0)) = true := by decide

theorem met_ring_cycles : (
    let s := ringNode 5 2
    let y (f : BCyc → BCyc) (s : State) : State := s.modRing 0 (fun x => { x with cur := f x.cur })
    let master := y (fun c => { c with sent := true }) (ringNode 5 3)
    let cap := s.p (BZ_CTRL_MCAP 0) 1
    let at_ (n : Nat) (s : State) : State := s.p TU_NS_NS n
    let own (s : State) (e : Nat) : Bool := s.ownEntry 0 (s.txCycle 0 (ringEnt s e).off s.now) (ringEnt s e)
    let x (f : RingSt → RingSt) : RingSt := (s.modRing 0 f).ring 0
    let w (f : WitSt → WitSt) (s : State) : State := (s.p (UN_WUNIT_VALID 3) 1).modWit 3 f
    let two := w (fun x => { x with cycles := 2 }) s
    cap.on (BZ_CTRL_MCAP 0) && cap.on (BZ_CTRL_EN 0) && (cap.ring 0).transmitting && cap.actRank 0 == 0 && (cap.ring 0).r0Wait == 0 && cap.standInOk 0 (cap.txCycle 0 2400 cap.now) &&
    !s.standInOk 0 (s.txCycle 0 2400 s.now) && (x (fun y => { y with dd := some 19000, cur := { y.cur with sent := true } })).dd == some 19000 && !(x id).cur.mark && !(x id).cur.rank0Lower &&
    !(x id).cold && !s.on (BZ_STAT_CLOSING 0) && (x id).rank0Act == false && (s.sched 0).find? (fun x => x.e == 1) == some (ringEnt s 1) && own master 0 && (ringEnt master 0).kind == 0 &&
    own (at_ 1006000 s) 1 && (ringEnt s 1).kind == 1 && own (at_ 1012000 (s.p (BZ_CTRL_MODE 0) 1)) 3 && (ringEnt s 3).kind == 2 && !own s 0 && !own s 2 &&
    (s.refBody 0 (ringEnt s 3)).isNone && ((((s.p (BZ_CTRL_MODE 0) 1).p (BZ_SYNCCFG_TMRANK 0) 0).p TU_NS_NS 4000000).refBody 0 (ringEnt s 3)).isSome &&
    ((s.p (BZ_JOIN_PHASE 0) 2).p (BZ_JOIN_MARKS 0) 50).g (BZ_JOIN_MARKS 0) == 50 && decide ((s.wit 3).cycles < 2) && two.on (UN_WUNIT_VALID 3) && decide (2 ≤ (two.wit 3).cycles) &&
    ((w (fun x => { x with cycles := 2, heard := some [] }) s).wit 3).heard == some [] && (two.p (UN_WUNIT_BACKUP 3) 1).on (UN_WUNIT_BACKUP 3) && !two.on (UN_WUNIT_BACKUP 3) &&
    (two.verdict 3).1 != 2 && ((w (fun x => { x with cycles := 2, grant := some (1, 7, two.witCycle - 20000) }) s).verdict 3).1 == 2 &&
    ((w (fun x => { x with cycles := 2, grant := some (1, 7, two.witCycle - 20000) }) s).verdict 3).2.2.2.1 == two.witCycle + 20000 &&
    ((w (fun x => { x with met := some 3 }) s).wit 3).met == some 3) = true := by decide

theorem met_ring_reception : (
    let s := ringNode 5 2
    let f (ty src dst off : Nat) (body : List Byte) : RFrame :=
      { s.mkFrame 0 1000000 ty 0 dst body with src := src, ttl := 3, len := body.length, flags := 0 * off }
    let reply := f 3 1 0xFF 0 (by_ (List.replicate 8 0))
    let poll := f 2 2 1 0 (by_ (List.replicate 8 0))
    let mark := f 1 1 0xFF 0 (by_ (List.replicate 24 0))
    let ref_ := f 4 0 0xFF 0 (by_ (List.replicate 24 0))
    let at_ (n : Nat) (s : State) : State := s.p TU_NS_NS n
    let acc (s : State) (f : RFrame) (t : Nat) : Bool := (s.accepted 0 f t).isSome
    let loop : State := { s with dbg := { s.dbg with loop := some { port := 0x10, depth := 1, chans := [], hdr := [], payload := [], sent := 1, intact := 1, result := 0, endNs := 16 } } }
    let listen := (ringAt 4 1 1).p TU_NS_NS 1000000
    let cold := s.modRing 0 (fun x => { x with cold := true })
    let mine := s.modRing 0 (fun x => { x with cur := { x.cur with sent := true } })
    loop.heldPort 0x10 && !s.heldPort 0x10 && !s.heldPort 0x11 && s.inOwnSlot 0 1006000 && !s.inOwnSlot 0 1001000 && (s.arrival 0 .b reply.bytes 1009000).takes &&
    !(s.arrival 0 .a reply.bytes 1009000).takes && (s.arrival 0 .b reply.bytes 1009000).stamped && (parseFrame [] : Option RFrame).isNone && parseFrame reply.bytes == some reply &&
    !(s.ring 0).cold && (cold.ring 0).cold && reply.src != s.nodeId 0 && reply.crcOk && acc (at_ 1009000 s) reply 1009000 && acc (at_ 1003000 s) poll 1003000 &&
    (ringEnt s 3).len == 24 && acc (at_ 1012000 (s.p (BZ_CTRL_NODE 0) 5)) { ref_ with src := 0 } 1012000 && listen.headOk 0 mark && mark.ty == 1 && byteAt mark.body 3 ≤ 1 &&
    listen.mode == mSynchronising && (s.inTime 0 mark 1000000) && s.g (BZ_JOIN_PHASE 0) == 4 && (s.p (BZ_JOIN_PHASE 0) 1).g (BZ_JOIN_PHASE 0) == 1 && mine.headOk 0 (f 1 0 0xFF 0 []) &&
    poll.dst != s.nodeId 0 && ({ poll with flags := 32 }).flags == 32 && bit 32 5 && (s.p (BZ_CTRL_NODE 0) 1).nodeId 0 == poll.dst && decide (1 < reply.ttl)) = true := by decide

theorem met_lane_cases : (
    let s := running .idle
    let prep (f : LaneSt → LaneSt) : State := ((twoLanes 5 2).setLaneSt 2 laPreparing).modLane 2 f
    let copy (s : State) : State := (s.p VX_RSYNC_ACTIVE 1).p VX_RSYNC_JOINER 2
    let one : State := (inMode 5 2).p VX_LANES_STB 1
    let copying : State := ((twoLanes 5 2).setLaneSt 2 laCopying).modLane 2 (fun x => { x with finalOk := true })
    let three (s : State) : State := (s.setLaneSt 0 laVoting).setLaneSt 3 laVoting
    let wait : State := { s with waiting := some { code := 0x0208, chans := [], hdr := [], payload := [], since := 0 } }
    let start := withApp s .starting
    let at_ (n : Nat) : State := { start with app := { start.app with anchor := some n } }
    let bootStart : State := { withApp (inMode 4 2) .starting with app := { (withApp (inMode 4 2) .starting).app with startByReady := true } }
    ((prep (fun x => { x with waitPulses := true, shadow := { x.shadow with good := 999 } })).lane 2).waitPulses && (prep id).laneSt 2 == laPreparing &&
    ((prep (fun x => { x with waitPulses := true, shadow := { x.shadow with good := 1000 } })).lane 2).shadow.good == 1000 && !((prep id).lane 2).afterExcl && !(prep id).votingLanes.isEmpty &&
    ((prep (fun x => { x with afterExcl := true })).lane 2).afterExcl && one.copySource == some 1 && (s.modLane 1 (fun x => { x with lastAgreed := true })).copySource == some 1 &&
    (copy s).on VX_RSYNC_ACTIVE && decide (∀ k : Task, (s.desc k.val).kind = 0 ∨ (s.desc k.val).kind = 3 ∨ s.taskQuiet k.val = true) &&
    ((copy (s.setLaneSt 2 laCopying)).laneSt ((copy (s.setLaneSt 2 laCopying)).g VX_RSYNC_JOINER)) == laCopying &&
    decide ((copy s).g VX_RSYNCLEFT_KIB * 128 + 10000 ≤ 10000) && decide (∃ k : Task, ((running .executing).desc k.val).kind ≠ 0 ∧ ((running .executing).desc k.val).kind ≠ 3 ∧
      (running .executing).taskQuiet k.val = false) && wait.gapSought && !s.gapSought && decide (copying.votingLanes.length < 3) && (three copying).votingLanes.length == 3 &&
    (three copying).laneSt 2 == laCopying && !((three copying).p VX_CTRL_SPAREEN 0).on VX_CTRL_SPAREEN && ((three copying).p VX_CTRL_SPAREEN 1).on VX_CTRL_SPAREEN &&
    (State.retApplyN .runtime (at_ 0).streams.length (at_ 0)).app.state == .starting && decide (0 ≤ (State.retApplyN .runtime (at_ 0).streams.length (at_ 0)).now) &&
    (at_ 0).app.anchor == some 0 && bootStart.app.startByReady && bootStart.app.anchor.isNone && bootStart.mode == mSynchronising &&
    !decide (s.mode = mBoot ∨ s.mode = mCommissioning ∨ s.mode = mMaintenance) && ({ s with variant := .zm60 } : State).variant == .zm60) = true := by decide

theorem met_link_and_counter_cases : (
    let s := running .idle
    let sh (f : Shadow → Shadow) : State := s.setShadow .field (f (s.shadow .field))
    let word : BitVec 64 := 0x4000000000000001
    s.hasLink .field && !(s.link (linkNo .field)).down && (s.link 5).rxSeq == 0 && crc32 [] == (0 : Word).toNat && decide (3 ≤ ((s.setLink 5 { s.link 5 with replays := 3 }).link 5).replays) &&
    s.hasLink (.lane 0) && s.variant == .zm80 && s.shadowRuns .field && s.shadowRuns .keeper2 && !(s.setLaneSt 3 laOut).shadowRuns (.lane 3) && (timeWord 0).isSome && (timeWord 1).isNone &&
    (timeWord 0).map (·.step) == some false && (timeWord word).map (·.step) == some true && ((sh (fun x => { x with missed := 7 })).shadow .field).missed == 7 &&
    ((sh (fun x => { x with disc := true })).shadow .field).disc && ((sh (fun x => { x with bad := 1, loaded := true, ns := 101 })).shadow .field).bad == 1) = true := by decide

theorem met_safe_and_switch_cases : (
    let s := inMode 5 2
    let up := ((s.p (EN_PORT_EN 0) 1).p (EN_PORT_LINK 0) 1).p (EN_PORT_SPEED 0) 2
    let f (dst n : Nat) : EthFrame := { dst := dst, src := 0x665544332211, tag := none, etype := 0x9000, body := List.replicate n 0, fcsOk := true }
    let sync : EthFrame := { f 0x011B19000000 46 with etype := 0x88F7 }
    let learned : State := up.learnMac 1 0x112233445566 2
    let full : State := { s with eth := { s.eth with table := [(1, 2, 0, 0)] } }
    let st (n : Nat) : State := s.p (SC_RXSTAT_STATE 127) n
    up.on (EN_PORT_EN 0) && !up.heldPort 1 && !(s.p (EN_PORT_EN 3) 0).on (EN_PORT_EN 3) && frameLen (f 0 46) == 64 && frameLen (f 0 1504) == 1522 && frameLen (f 0 1505) == 1523 && frameLen (f 0 45) == 63 &&
    (ptpAt sync) == some (0, 0) && (ptpAt (f 0 46)).isNone && (learned.eth.table.find? (fun e => e.1 == 1 && e.2.1 == 0x112233445566)).isSome && 0x112233445566 / 2 ^ 40 % 2 == 1 &&
    0x102233445566 / 2 ^ 40 % 2 == 0 && ((up.learnMac 1 0x102233445566 2).eth.table.find? (fun e => e.1 == 1 && e.2.1 == 0x102233445566)).isSome && (s.p EN_PTPCFG_TCMODE 1).g EN_PTPCFG_TCMODE == 1 &&
    byteAt sync.body 0 % 16 ≤ 3 && (tcCorrect sync 0 0 65536).isSome && !s.linkDown lkNetwork && decide (full.eth.table.length < 2048) &&
    heldBytes (up.ethQueue 0 3) + 65536 == 65536 && up.ethHeld == 0 && up.portUp 0 && decide (∀ j : Fin 4, s.portUp j.val = false) && !s.on EN_CTRL_PDEN &&
    (((s.p EN_CTRL_PDEN 1).p (EN_SUBCFG_VALID 127) 1).p (EN_SUBID_PUBID 127) 9).on (EN_SUBCFG_VALID 127) && (st 1).g (SC_RXSTAT_STATE 127) == 1 && (st 5).g (SC_RXSTAT_STATE 127) == 5 &&
    ((((st 4).p (SC_RXSTAT_GOOD 127) 1).p (SC_RXCFG_RECOV 127) 2).g (SC_RXSTAT_GOOD 127)) == 1) = true := by decide

theorem met_ptp_cases : (
    let s := inMode 5 2
    let up := ((s.p (EN_PORT_EN 3) 1).p (EN_PORT_LINK 3) 1).p (EN_PORT_SPEED 3) 2
    let run (c sl : Nat) : State := ((up.p EN_PTPCFG_PORTS 15).p EN_PTPCFG_CLOCK c).p EN_PTPSTAT_SLAVE sl
    let msg (ty fl : Nat) : PtpMsg := { transport := 0, body := by_ ([ty, 2, 0, 44, 0, 0, fl, 0] ++ List.replicate 56 0), stamp := 0 }
    let asked := (run 1 4).modPtp 3 (fun x => { x with reqAt := some (0, 5), syncT := some (7, 0), twoStep := some (0, 9, 0) })
    (run 1 4).portUp 3 && (msg 0 0).transport == (run 1 4).g EN_PTPCFG_TRANSPORT && byteAt (msg 0 0).body 4 == (run 1 4).g EN_PTPCFG_DOMAIN && bit ((run 1 4).g EN_PTPCFG_PORTS) 3 &&
    (run 1 4).g EN_PTPCFG_CLOCK != 0 && (run 1 4).g EN_PTPSTAT_SLAVE == 4 && !bit (byteAt (msg 0 0).body 6) 1 && bit (byteAt (msg 0 2).body 6) 1 && (asked.ptp 3).twoStep.isSome &&
    beAt (msg 8 0).body 30 2 == 0 && (run 3 0).ptpMaster 3 && !(run 3 0).peerDelay && ((run 3 0).p EN_PTPCFG_PROFILE 1).peerDelay && beAt (msg 9 0).body 52 2 == 0 &&
    ((asked.ptp 3).reqAt.map (·.1)) == some 0 && (asked.ptp 3).syncT.isSome && beAt (msg 0xB 0).body 20 8 != (run 1 4).clockId && ((run 1 4).ptp 3).master.isNone && (run 3 0).mode != mSafeHalt &&
    !(run 1 4).ptpMaster 3 && ((run 3 0).p EN_PTPCFG_TCMODE 2).g EN_PTPCFG_TCMODE == 2 && (inMode 11 2).mode == mSafeHalt) = true := by decide

theorem met_drive_pair_and_seal_cases : (
    let s := (inMode 5 2).p TU_NS_NS 2000000
    let pair (n first : Nat) (second : Bool) : State := ((s.p (SF_PAIRSTAT_STATE 7) n).p (SF_PAIRCFG_DT 7) 1).modPair 7 (fun x => { x with first := first, second := second })
    let late (k : State) (oth : Nat) : Bool := decide ((k.pairSt 7).first + 1000000 < oth)
    let drv (f : DrvSt → DrvSt) (n : Nat) : State := (s.p (SF_DRVSTAT_STATE 2) n).modDrv 2 f
    let due := ((s.p (SF_DRVSTAT_CHA 2) 1).p (SF_TEST_PERIOD 2) 1).p TU_NS_NS 0
    let down := s.setLink lkField { s.link lkField with down := true }
    let enc (n : Nat) : State := { s with tu := { s.tu with upNs := n } }
    let sl (k : SfSt → SfSt) : State := { s with sf := k s.sf }
    due.pulseDue 2 .a && due.on (SF_DRVSTAT_CHA 2) && down.linkDown lkField && !s.linkDown lkField && ((drv (fun x => { x with differ := some 1000000 }) 2).drv 2).differ == some 1000000 &&
    decide (s.now ≤ 1000000 + 1000000) && decide (999999 + 1000000 < s.now) && (drv id 3).g (SF_DRVSTAT_STATE 2) == 3 && (drv id 3).ss1Cond 2 0 == some 3 &&
    ((drv id 3).p (SF_SS1TIM_TMAX 2) 100).ss1Cond 2 0 == none && ((drv id 3).p (SF_DRVSTAT_ENCFLT 2) 1).ss1Cond 2 0 == some 5 &&
    (((drv (fun x => { x with still := some 0 }) 3).p (SF_SS1TIM_STILLT 2) 2).p (SF_SS1TIM_TMAX 2) 100).ss1Cond 2 0 == some 2 && decide (((enc 100000000).drv 2).encFrom + 100000000 ≤ (enc 100000000).tu.upNs) &&
    decide ((enc 99999999).tu.upNs < ((enc 99999999).drv 2).encFrom + 100000000) && (pair 1 0 false).g (SF_PAIRSTAT_STATE 7) == 1 && !late (pair 1 0 false) 1000000 && late (pair 1 0 false) 1000001 &&
    decide ((pair 1 1000001 false).now < 1000001 + 1000000) && decide (1000000 + 1000000 ≤ (pair 1 1000000 true).now) && ((pair 3 0 true).pairSt 7).second && (pair 3 0 true).g (SF_PAIRSTAT_STATE 7) == 3 &&
    (pair 4 0 true).g (SF_PAIRSTAT_STATE 7) == 4 && (pair 2 0 true).g (SF_PAIRSTAT_STATE 7) == 2 && ((s.modDi 15 (fun x => { x with edges := 1 })).di 15).edges != 0 && (s.di 15).edges == 0 &&
    (sl (fun x => { x with lastRead := some 15, same := 2 })).sf.lastRead == some 15 && (sl (fun x => { x with lastRead := some 15, same := 1 })).sf.same == 1 &&
    decide (1 ≤ (sl (fun x => { x with openChecks := 1 })).sf.openChecks) && !s.sf.tamper && ((inMode 3 2).p SF_SEAL_STATE 0).g SF_SEAL_STATE == 0 && (inMode 3 2).sealState != 0) = true := by decide

theorem met_field_cases : (
    let s := inMode 5 2
    let fd (n good low : Nat) : State := { s.p FD_STAT_SUPPLY n with fd := { s.fd with good := good, low := low } }
    let on : State := (((s.p FD_STAT_SUPPLY 1).p UN_STAT_HOLD 1).p FD_STAT_SILENT 0)
    let fpp := on.p (cmdFld 0x14) 1
    let up (n : Nat) (s : State) : State := { s with tu := { s.tu with upNs := n } }
    let shut : State := on.modOut 12 (fun x => { x with shut := true })
    let silent (n : Nat) : State := ((on.p FD_STAT_SILENT 1).p (safeFld 12) n)
    let cfg (s : State) : State := { s with fd := { s.fd with configured := true } }
    let held (port depth result : Nat) : State :=
      { on with dbg := { on.dbg with loop := some { port := port, depth := depth, chans := [], hdr := [], payload := [], endNs := 9, sent := 1, intact := 0, result := result } } }
    decide (4001 ≤ (fd 0 4001 0).fd.good) && (fd 0 4001 0).g FD_STAT_SUPPLY == 0 && decide (¬ 4001 ≤ (fd 0 4000 0).fd.good) && (fd 2 401 0).g FD_STAT_SUPPLY == 2 && (fd 2 401 0).fd.good == 401 &&
    decide ((fd 2 0 400).fd.low < 401) && (fd 2 0 401).fd.low == 401 && (fd 1 0 401).g FD_STAT_SUPPLY != 2 && (inMode 3 2).mode == mCommissioning && s.mode == mActive && on.driven 12 == false &&
    (on.p (cmdFld 12) 1).driven 12 && decide ((shut.out 12).since + 100000000 ≤ (up 100000000 shut).tu.upNs) && decide ((up 99999999 shut).tu.upNs < ((up 99999999 shut).out 12).since + 100000000) &&
    decide (((on.p (cmdFld 12) 1).out 12).since + 1000000000 ≤ (up 1000000000 on).tu.upNs) && (cfg (silent 0)).fd.configured && (cfg (silent 2)).g (safeFld 12) == 2 && !(silent 1).fd.configured &&
    (on.p (FD_HSOCFG_OWOFF 12) 1).on (FD_HSOCFG_OWOFF 12) && !on.on (FD_HSOSTAT_SHORTP 12) && fpp.driven 0x14 && !fpp.on (FD_FPPSTAT_OVL 4) && (fpp.p (FD_FPPSTAT_OVL 4) 1).on (FD_FPPSTAT_OVL 4) &&
    fpp.outLevel 0x14 == some true && on.outLevel 0x14 == some false && s.outLevel 0x14 == none && (on.silenceNs == 1500000) && decide (on.fd.msgAt + on.silenceNs ≤ (up 1500000 on).tu.upNs) &&
    decide ((up 1499999 on).tu.upNs < on.fd.msgAt + on.silenceNs) && (on.reqLevel 12).isNone && ((on.p (SF_SS1OUT_REQOUT 2) 12).modDrv 2 (fun x => { x with req := true })).reqLevel 12 != none &&
    (on.p FD_STAT_DIAGSUSP 1).on FD_STAT_DIAGSUSP && (on.p (latchFld 12) 1).on (latchFld 12) &&
    (held 0x7F 2 1).heldPort 0x7F && !on.heldPort 0x7F && (held 0x8B 2 1).outRow 12 == none && (held 0x8B 3 2).outRow 12 == none && ((held 0x93 3 0).outRow 0x14).isSome &&
    (on.testDrive 0x14).isNone && (held 0x53 0 1).heldTio 4 && !(held 0x53 0 1).heldTio 5 && (held 0xA5 2 1).heldPort (0x9F + 6)) = true := by decide

theorem met_loop_cases : (
    let s := ((inMode 5 2).p FD_STAT_SUPPLY 1)
    let m (n : Nat) (f : AioSt → AioSt) : State := (s.p (AN_CFG_MODE 6) n).modAio 6 f
    (m 1 id).g (AN_CFG_MODE 6) == 1 && !(m 1 id).inSag && ((m 1 id).p FD_STAT_SUPPLY 2).inSag && ((m 2 (fun x => { x with settling := true })).aio 6).settling && !((m 2 id).aio 6).settling &&
    ((m 2 (fun x => { x with shuntOff := true })).aio 6).shuntOff && ((m 1 (fun x => { x with openN := 100 })).aio 6).openN == 100 && ((m 1 (fun x => { x with delOff := 1000 })).aio 6).delOff == 1000 &&
    (m 3 id).g (AN_CFG_MODE 6) != 2 && convStatus 2 38000 == 0 && convStatus 2 205000 == 0 && convStatus 2 210001 == 4 && convStatus 2 35999 == 3 && convStatus 3 (-5001) == 6 && convStatus 3 110001 == 6) = true := by
  decide

theorem met_rack_cases : (
    let r := (running .executing).p UN_STAT_HOLD 1
    let io (s : State) : State := { s with app := { s.app with pkg := { s.app.pkg with tasks := [(1, { kind := 1, period := 1000, pair := 1, directio := true })] } } }
    let s := (io r).p RB_CTRL_EN 1
    let may (s : State) : Bool := s.worksOn 0 1 && s.pairRuns 0 (s.desc 1).pair && s.reaches 0 1
    let rd : RackReq := { a := 0x1000, len := 4, wr := none }
    let wr : RackReq := { a := 0x1000, len := 4, wr := some [1] }
    let posted (acc : RackReq) (done : Bool) : State := { s with streams := [{ kind := .rack, st := .task 1, place := 0, posts := [(1, reqBytes acc)], won := if done then some (reqBytes acc) else none }] }
    let res (s : State) (acc : RackReq) : Nat :=
      match (s.postStream .rack (.task 1) 0 0 (reqBytes acc)).2 with | .formed _ => 1 | .joined _ => 2 | .waits => 3 | .failed _ => 4 | .turned => 5
    let win : State := ((s.p (RB_WBASE_VALID 1 0) 1).p (RB_WBASE_BASE 1 0) 1).p (RB_WCFG_PAGES 1 0) 0
    let lane (s : State) (b : Option Nat) : State := s.setTag 31 { s.tag 31 with st := 1, reqs := [{ who := .lane 1 0, slot := 1, a := 0x1000, words := 1, cycle := 0 }], buf := b }
    may s && !may r && may (io (speculating 1)) && (io (speculating 1)).speculates 0 1 && !s.speculates 0 1 && s.g (RA_CTX_STATE 0 1) == csIdle &&
    !(io (speculating 2)).speculates 0 1 && (io (speculating 2)).g (RA_CTX_STATE 0 1) != csIdle && may (io (speculating 2)) && !(io r).on RB_CTRL_EN && s.on RB_CTRL_EN && res s rd == 3 &&
    res (posted rd false) rd == 1 && res (posted wr false) wr == 1 && res (posted rd false) wr == 4 && res (posted wr false) rd == 4 && res (posted wr true) rd == 5 && res (posted rd true) rd == 2 && res (posted wr true) wr == 2 && (win.window 0x1000) == some (1, 0) && (win.window 0x1FFF).isSome && (win.window 0x2000).isNone && !win.on (RB_WCFG_PFEFF 1 0) &&
    inWindow (winBase + 65535) && win.freeTag == some 0 && ((win.setTag 0 { win.tag 0 with st := 1 })).freeTag == some 1 && (lane win none).abandoned 31 ((lane win none).tag 31) &&
    !(lane { win with app := { win.app with tasks := [] } } (some 7)).abandoned 31 { (lane win (some 7)).tag 31 with reqs := [{ who := .image 1 0, slot := 1, a := 0, words := 1, cycle := 0 }], buf := none }) = true := by
  decide

theorem met_rack_answers : (
    let s := (running .executing).p UN_STAT_HOLD 1
    let rq : RdReq := { who := .image 1 0, slot := 1, a := 0x1000, words := 1, cycle := 0 }
    let tag (n : Nat) (b : Option Nat) : State := (s.modPf 7 (fun x => { x with valid := true, tag := 31 })).setTag 31 { s.tag 31 with st := n, reqs := [rq], buf := b }
    let hist : State := { (((s.p RB_WSEQ_SEQ 32).p (RB_WHADDR_ADDR 31) 0x1000).p (RB_WHINFO_SLOT 31) 1) with rb := { s.rb with posted := 32 } }
    ((tag 1 none).tag 31).st == 1 && !(tag 1 none).abandoned 31 ((tag 1 none).tag 31) && ((tag 1 (some 7)).tag 31).buf == some 7 && !(tag 1 (some 7)).abandoned 31 ((tag 1 (some 7)).tag 31) &&
    ((tag 2 none).tag 31).st == 2 && ((tag 3 none).tag 31).st == 3 && (s.tag 31).st == 0 && ((tag 1 none).pfBuf 7).valid && !(s.pfBuf 7).valid && hist.errMatches 1 31 0x1003 == [31] &&
    (tag 1 none).fills 31 7 && !(tag 1 none).fills 30 7 && hist.errMatches 1 31 0x1004 == [] && hist.errMatches 1 30 0x1000 == []) = true := by decide

theorem met_window_cases : (
    let s := inMode 5 2
    let a (x : WinAcc) : State := { s with rb := { s.rb with winA := some x } }
    let b (x : WinAcc) : State := { s with rb := { s.rb with winB := some x } }
    let q (wr : Bool) (xs : List Word) : State := { s with rb := { s.rb with portB := [{ t := 1, place := 0, word := 3, wr := wr, left := xs }] } }
    let takes (s : State) (wr : Option Word) : Bool := match s.rb.portB with | y :: _ => y.left.length == 1 && y.takes 3 wr | [] => false
    inWindow (winBase + 12) && (winBase + 12 - winBase) / 4 == 3 && s.rb.winA.isNone && s.rb.winB.isNone && s.rb.retry.isNone && s.mode != mDormant && s.rb.portB.isEmpty &&
    (b { clk := 9, word := 3, wr := true }).rb.winB == some { clk := 9, word := 3, wr := true } && decide (10 < 9 + 2) && !decide (11 < 9 + 2) &&
    (b { clk := 9, word := 3, wr := false }).rb.winB == some { clk := 9, word := 3, wr := false } && (a { clk := 9, word := 3, wr := true, busy := true }).rb.winB.isNone &&
    (a { clk := 9, word := 3, wr := true }).rb.winA == some { clk := 9, word := 3, wr := true } && (a { clk := 9, word := 3, wr := false }).rb.winA == some { clk := 9, word := 3, wr := false } &&
    decide (15 < 16) && takes (q true [7]) (some 7) && takes (q false [0]) none && !takes (q true [7]) (some 8)) = true := by decide

theorem met_serial_cases : (
    let s := ((inMode 5 2).p UN_STAT_HOLD 1).p RB_LSCTRL_EN 1
    let st (s : State) : State := ((s.p (RB_LSSTN_VALID 31) 1).p (RB_LSSTN_INLEN 31) 2).p (RB_LSSTN_OUTLEN 31) 2
    let left : State := { st s with rb := { s.rb with lsLeft := [31] } }
    let now (x y : Option Bool) : State := { st s with rb := { s.rb with lsNow := some 31, lsA := x, lsB := y } }
    let word : Part := { q := .keeper, commit := 0, tgt := .serial 31 0, data := by_ [1, 2] }
    let crc := crc16 (by_ [159, 0, 2, 5, 6])
    let ok := by_ [0xB6, 159, 0, 2, 5, 6, crc / 256, crc % 256]
    s.on RB_LSCTRL_EN && !s.gated && s.mode != mSafeHalt && !s.heldPort 0x30 && !s.heldPort 0x31 && !(inMode 5 2).on RB_LSCTRL_EN && (s.p UN_STAT_HOLD 0).gated && left.rb.lsLeft == [31] &&
    s.rb.lsLeft.isEmpty && ({ left with parts := [word] } : State).parts == [word] && decide (word.commit ≤ left.now) && (now none none).lsWaits .a && (now none none).lsWaits .b &&
    !(now (some true) none).lsWaits .a && (now (some true) none).lsWaits .b && !(left.lsWaits .b) && (now none none).lsOk 31 ok true && !(now none none).lsOk 31 ok false &&
    !(now none none).lsOk 31 (by_ [0xB6, 159, 0, 2, 5, 6, 0, 0]) true && !(now none none).lsOk 30 ok true && (now (some false) none).rb.lsA != some true && (now (some true) none).rb.lsA == some true) = true := by
  decide

theorem met_unit_cases : (
    let s := inMode 6 2
    let un (s : State) (f : UnSt → UnSt) : State := { s with un := f s.un }
    let on : State := ((s.p UN_CFG_EN 1).p UN_CFG_UNIT 1).p UN_CFG_PARTNER 2
    let body := by_ ([0, 1, 2, 5, 0, 0, 0, 0, 0, 127, 3, 1] ++ List.replicate 4 0)
    let held : State := { s with dbg := { s.dbg with loop := some { port := 0x20, depth := 0, chans := [], hdr := [], payload := [], endNs := 9, sent := 1, intact := 0, result := 0 } } }
    let act (n : Nat) (x : Option Nat) : State := un ((inMode 5 2).p TU_NS_NS n) (fun u => { u with lease := some 1000, leaveTo := x })
    held.heldPort (plkPort .plk1) && !held.heldPort (plkPort .plk2) && (match parseHealth body (mcNum on.now) with
      | some (u, h) => u == on.g UN_CFG_UNIT && h.node == on.g UN_CFG_PARTNER
      | none => false) && on.on UN_CFG_EN && (parseHealth [] 0).isNone && s.un.actAt.isNone && (un s (fun u => { u with actAt := some (1, 9) })).un.actAt == some (1, 9) &&
    decide (s.now < 1) && decide (1 ≤ (s.p TU_NS_NS 1).now) && s.mode == mHotStandby && (inMode 7 2).mode == mIsolated && s.un.lease.isNone && (act 0 none).mode == mActive &&
    decide ((act 499 none).now + 500 < 1000) && decide (1000 ≤ (act 500 none).now + 500) && decide ((act 999 none).now < 1000) && decide (1000 ≤ (act 1000 none).now) &&
    (act 1000 (some 6)).un.leaveTo == some 6 && (act 1000 (some 10)).un.leaveTo == some 10 && (act 0 none).un.leaveTo.isNone && decide (50 ≤ (un s (fun u => { u with noWatch := 50 })).un.noWatch) &&
    decide ((un s (fun u => { u with noWatch := 49 })).un.noWatch < 50) && (un s (fun u => { u with resyncing := true })).un.resyncing && !s.un.resyncing &&
    (running .idle).liveLanes.contains 1 && !(running .idle).liveLanes.contains 3) = true := by decide

theorem met_fault_cases : (
    let s := inMode 5 2
    let bad := s.p (FC_SSTAT_PATHFAIL 47) 1
    let pend (src c : Nat) : State := ((s.p (pendFld c) 1).p (FC_FIRST_SRC c) src)
    let w : RepWord := { cls := 0, code := 0, data := [] }
    s.mode != mDormant && (State.reset.p LC_MODE_MODE 0).mode == mDormant && bad.on (FC_SSTAT_PATHFAIL 47) && !s.on (FC_SSTAT_PATHFAIL 47) && srcRaises 0x10 1 && srcRaises 0x10 2 && !srcRaises 0x10 4 &&
    (srcClasses 0x10) != [] && w.cls == 0 && srcRaises 0x1C 0 && (inMode 8 2).mode == mMaintenance && (inMode 2 2).mode == mSelfTest && getBits (0x00010003 : Word) 0 1 == 1 && getBits (0x00010003 : Word) 1 3 == 1 &&
    getBits (0x00010013 : Word) 4 1 == 1 && !s.on (pendFld 1) && !s.on (pendFld 3) && (pend 0 2).on (pendFld 2) && (pend 0 2).firstElem 2 == elemOf 0 1 2 && (pend 1 2).firstElem 2 != elemOf 0 1 2 &&
    (pend 0x18 1).firstElem 1 == elemOf 0x18 9 1 && elemOf 0x10 0x31 2 == .lane 3 && elemOf 0x10 0x31 3 == .module && elemOf 0x29 0 3 == .module) = true := by decide

theorem met_power_cases : (
    let s := inMode 5 2
    let off := s.p LC_MODE_MODE 0
    let pw (s : State) (f : PwSt → PwSt) : State := { s with pw := f s.pw }
    (off.p LC_STATE_LCS 0).mode == mDormant && off.g LC_STATE_LCS != 0 && ({ off with sb := { off.sb with lost := true } } : State).sb.lost && s.mode != mDormant && (inMode 11 2).mode == mSafeHalt &&
    s.fitted .pwa && s.fitted .pwb && !(pw s (fun p => { p with codeA := 0 })).fitted .pwa && !(pw s (fun p => { p with codeB := 7 })).fitted .pwb && (pw s (fun p => { p with codeB := 6 })).fitted .pwb &&
    (pw s (fun p => { p with discA := true })).pw.discA && (pw s (fun p => { p with discB := true })).pw.discB && !s.pw.discA && !s.pw.discB) = true := by decide

theorem met_boot_cases : (
    let s := State.reset
    let trial (n : Nat) : State := (s.p UP_STAT_TRIAL 1).p UP_STAT_TRIES n
    let st := inMode 2 2
    let ready (x : AppState) : State := withApp ((inMode 4 2).p TU_STAT_SYNC 1) x
    let bad (x : AppState) : State := { ready x with app := { (ready x).app with badImage := true } }
    let live (n : Nat) : State := ((inMode 10 2).p VX_LANES_STA (if n ≥ 1 then 1 else 0)).p VX_LANES_STB (if n ≥ 2 then 1 else 0)
    let wakes (n : Nat) : State := { live n with app := { (live n).app with waking := true } }
    let parkCmd : State := { (inMode 5 2).p LC_WAKE_RTCEN 1 with waiting := some { code := 0x0104, chans := [4], hdr := [], payload := [], since := 0 } }
    s.mode == mBoot && !s.on FC_STAT_HALT && (s.p FC_STAT_HALT 1).on FC_STAT_HALT && s.g UP_STAT_ACTBANK == 0 && (s.chooseBank true false).isSome && (s.chooseBank false true).isSome &&
    (s.chooseBank false false).isNone && (trial 3).g UP_STAT_TRIES == 3 && ((trial 3).chooseBank true true).isSome && decide ((trial 2).g UP_STAT_TRIES < 3) && ((trial 2).chooseBank true false).isSome &&
    st.mode == mSelfTest && !st.fc.class3 && !st.mayOperate && ({ st with fc := { st.fc with class3 := true } } : State).fc.class3 && (ready .stopped).isReady && (ready .stopped).mode == mSynchronising &&
    !(withApp (inMode 4 2) .stopped).isReady && !(ready .stopped).app.badImage && (bad .stopped).app.badImage && (ready .held).isReady && (ready .changing).isReady &&
    !(inMode 5 2).wakeArmed .rtc && ((inMode 10 2).p LC_WAKE_RTCEN 1).wakeArmed .rtc && ((inMode 10 2).p LC_WAKE_WAKEDI 16).wakeArmed .di && parkCmd.parking && !(inMode 5 2).parking &&
    (live 2).liveLanes.length == 2 && (live 1).liveLanes.length == 1 && !(live 2).app.waking && (wakes 2).app.waking && ((wakes 2).modLane 1 (fun x => { x with asleep := true })).lane 1 != (wakes 2).lane 1 &&
    !((wakes 2).lane 0).asleep) = true := by decide

theorem met_build_and_debug : (
    let s := inMode 5 2
    let at_ (pkg : List Nat) : State := { (s.p UP_STAT_PHASE 3) with up := { s.up with store := Mem.wrL [] 0 (by_ pkg), manifest := by_ (List.replicate 120 0 ++ [pkg.length, 0, 0, 0, 0, 0] ++ List.replicate 74 0) } }
    let run (s : State) : Option (List Byte) := deltaRun (bit (byteAt s.up.manifest 6) 0) (imageOf (s.bank (s.g UP_STAT_ACTBANK))) (s.deltaBytes.length + 1) [] s.deltaBytes
    let dbg (s : State) (f : DbgSt → DbgSt) : State := { s with dbg := f s.dbg }
    let halt (perm st : Nat) : State := dbg ((s.p LC_STATE_DBGPERM perm).p VX_LANES_STD st) (fun d => { d with tap := [(7, 0x10)] })
    (run (at_ [2, 0, 0, 0, 1, 0, 0, 0, 9, 0, 0, 0, 0, 0, 0, 0])).isSome && (run (at_ [3, 0, 0, 0])).isNone && (at_ []).g UP_STAT_PHASE == 3 && s.g UP_STAT_PHASE == 0 &&
    (s.p UP_STAT_TRIAL 1).on UP_STAT_TRIAL && s.mode != mDormant && s.mode != mSafeHalt && !s.on UP_STAT_TRIAL && (State.reset.p LC_MODE_MODE 0).mode == mDormant &&
    ({ s with ev := { s.ev with staged := s.ev.staged } } : State).mode == mActive && [mSynchronising, mActive, mHotStandby, mIsolated].contains s.mode && (tapPorts false).contains 0x31 &&
    !(tapPorts true).contains 0x31 && (tapPorts true).contains 0x21 && !s.dbg.probe && (dbg s (fun d => { d with probe := true })).dbg.probe && s.dieFitted 0 && !({ s with variant := .zm60 } : State).dieFitted 7 &&
    s.g LC_STATE_LCS != 4 && (s.p LC_STATE_LCS 4).g LC_STATE_LCS == 4 && (halt 1 1).tapIns (4 + 3) == 0x10 && (halt 1 1).on LC_STATE_DBGPERM && (halt 1 1).coresRun 3 && !(halt 0 1).on LC_STATE_DBGPERM &&
    !(halt 1 0).coresRun 3 && s.tapIns 7 != 0x10) = true := by decide

theorem met_register_cases : (
    let s := running .idle
    let z : State := { s with variant := .zm60 }
    let free (s : State) : Bool := !s.mustWait 0 0 false (.store true false 0x180000000 (leBytes 4 1)) && (s.lane 0).waitOps.isEmpty && (s.pairTask 0 0).isNone
    let held : State := s.modLane 0 (fun x => { x with waitOps := [(none, 0, .submit false)] })
    s.modMapped 0x40000000 && !s.modMapped 0x3FFFFFFC && z.modMapped 0x73FFFFFC && !s.modMapped 0x73FFFFFC && submitOf 0x73060004 == some 3 && submitOf 0x40000000 == none && z.variant == .zm60 && s.variant == .zm80 &&
    (regFlds 0x400700FC).isNone && (regFlds 0x40070000).isSome && hasRwm ((regFlds (FD_DICFG_TOP 1).reg).getD []) && !(rwmModes (FD_DICFG_TOP 1).reg).contains s.mode &&
    (rwmModes (FD_DICFG_TOP 1).reg).contains (inMode 3 2).mode && !State.reset.coresRun 0 && s.coresRun 0 && !(s.lane 0).halted.contains 0 && ((s.modLane 0 (fun x => { x with halted := [0] })).lane 0).halted.contains 0 &&
    free s && (held.lane 0).waitOps == [(none, 0, .submit false)] && (s.mmuCheck 0 0 0x180000000 4 .store true).isNone && (s.mmuCheck 0 0 0x180000000 4 .store false).isSome && regionOf 0x180000000 != .retained &&
    (s.p (DM_STAT_STATE 0 15) 1).g (DM_STAT_STATE 0 15) == 1 && s.g (DM_STAT_STATE 0 15) != 1) = true := by decide

theorem met_register_legality : (
    let s := inMode 5 2
    let x := (FD_DICFG_TOP 16).reg
    let c := inMode 3 2
    let fs := (regFlds x).getD []
    let new (s : State) (v : Word) : Word := mergeFlds ((rwmModes x).contains s.mode) (s.regs.rd x) v fs
    c.legal (c.regs.wr x (new c 9)) x && !c.legal (c.regs.wr x (new c 0)) x && (rwmModes x).contains c.mode && !(rwmModes x).contains s.mode && s.legal (s.regs.wr x (new s 9)) x &&
    (({ s with regs := s.regs.wr x 0 } : State).regs.rd x == 0) && !s.legal ((s.regs.wr x 0).wr x (new { s with regs := s.regs.wr x 0 } 0)) x && hasRwm fs) = true := by decide

theorem met_records : (
    let r : EvRec := { seq := 1, opms := 0, pwrcyc := 0, ns := 0, era := 0, source := 0, code := 0, cls := 0, flags := 0, rep := 0, data := List.replicate 16 0, lastdms := 0 }
    r.data.length == 16 && decide (({ r with rep := 65534 } : EvRec).rep < 65535) && ({ r with rep := 65535 } : EvRec).rep == 65535) = true := by decide
/-! ### Ill-formed commands are refused, well-formed ones are not -/

theorem test_wellFormed_payload : (
    Instr.wellFormed (.modIdentify 4 (hd 1009) (List.replicate 1009 0)) == false &&
    Instr.wellFormed (.modIdentify 4 (hd 1008) (List.replicate 1008 0))) = true := by decide

theorem test_wellFormed_frame : (
    Instr.wellFormed (.switchFrameReceive 0 { dst := 2 ^ 48, src := 0, etype := 0, tag := none, body := [], fcsOk := true } 0 0) == false &&
    Instr.wellFormed (.switchFrameReceive 0 { dst := 0, src := 2 ^ 48, etype := 0, tag := none, body := [], fcsOk := true } 0 0) == false &&
    Instr.wellFormed (.switchFrameReceive 0 { dst := 0, src := 0, etype := 2 ^ 16, tag := none, body := [], fcsOk := true } 0 0) == false &&
    Instr.wellFormed (.switchFrameReceive 0 { dst := 0, src := 0, etype := 0, tag := some (8, 0), body := [], fcsOk := true } 0 0) == false &&
    Instr.wellFormed (.switchFrameReceive 0 { dst := 0, src := 0, etype := 0, tag := some (0, 4096), body := [], fcsOk := true } 0 0) == false &&
    Instr.wellFormed (.switchFrameReceive 0 { dst := 1, src := 2, etype := 3, tag := some (7, 4095), body := [], fcsOk := true } 0 0)) = true := by decide

theorem test_wellFormed_core_access : (
    Instr.wellFormed (.submit 0 0 [.load false false 6 3]) == false && Instr.wellFormed (.submit 0 0 [.fetch false false 0 0]) == false &&
    Instr.wellFormed (.submit 0 0 [.store false false 7 [1, 2]]) == false && Instr.wellFormed (.submit 0 0 [.store false false 7 []]) == false &&
    Instr.wellFormed (.submit 0 0 [.load false false 0 8, .store true false 7 [1], .trap false false, .submit true])) = true := by decide

theorem test_wellFormed_rack_access : (
    Instr.wellFormed (.rackAccess 0 0 { a := 0x44000000, len := 0, wr := none }) == false &&
    Instr.wellFormed (.rackAccess 0 0 { a := 0x44000000, len := 65, wr := none }) == false &&
    Instr.wellFormed (.rackAccess 0 0 { a := 0x44000002, len := 4, wr := some [0] }) == false &&
    Instr.wellFormed (.rackAccess 0 0 { a := 0x44000000, len := 64, wr := none })) = true := by decide

theorem test_wellFormed_sizes : (
    Instr.wellFormed (.registerWrite .keeper 0 0 3) == false && Instr.wellFormed (.registerWrite .keeper 0 0 4) &&
    Instr.wellFormed (.mmuFault 0 0 0 .load false 9) == false && Instr.wellFormed (.mmuFault 0 0 0 .load false 8)) = true := by decide

/-! ### Effects that the spec's examples give -/

/-- R446: a service tool writes the tag of a module that is Active and In-Service: `STATUS` 5, `LEN` 4, payload 05 02 08 01. -/
theorem test_stateReject_names_the_modes :
    (match exec (.modTagWrite 4 (hd 5) (by_ [0, 0, 0, 0, 7])) (inMode 5 2) with
     | .next t => (t.mb.rdN 0x4404 4 ++ t.mb.rdN 0x4410 4).map (·.toNat) == [4, 0, 5, 0, 5, 2, 8, 1]
     | _ => false) = true := by decide

/-- R186: a node that runs fast by 0.3 ppm and leads by 12 ns. -/
theorem test_servo_example : servoInc (12 * 256) 329853 = 0x7FFF98D1F := by decide

/-- R495: the check word's CRC of the ASCII bytes "123456789". -/
theorem test_crc32_check_value : crc32 (by_ [0x31, 0x32, 0x33, 0x34, 0x35, 0x36, 0x37, 0x38, 0x39]) = 0xCBF43926 := by decide

/-- R500: the second raise of a loose wire 1,500 ms later folds into the first. -/
theorem test_repeat_folds :
    (let e : EvIn := { source := 0x011C, code := 3, cls := 0, data := by_ [7] }
     let t := (((inMode 5 2).recordEv e).p LC_OPMSLO_MS 1500).recordEv e
     t.records.map (fun r => (r.rep, r.lastdms)) == [(1, 1500)]) = true := by decide

/-- R368: the tag 0x11 of slot 4 names the posted write 0x32A11, 8 words at 0x4400_0100. -/
theorem test_posted_write_match :
    (let i := 0x32A11 % 1024
     let s := ((((State.reset.p RB_WSEQ_SEQ 0x32A20).p (RB_WHINFO_SLOT i) 4).p (RB_WHINFO_LEN i) 7).p (RB_WHADDR_ADDR i) 0x44000100)
     ({ s with rb := { s.rb with posted := 1024 } } : State).errMatches 4 0x11 0x44000110) = [0x32A11] := by decide

/-- R308: at 112.6 ms, 62.6 ms after `DELAY`, the envelope has fallen to 204,767 counts/s. -/
theorem test_stop_envelope :
    (let s := ((((State.reset.p (SF_SS1DEC_DECEL 1) 327680).p (SF_SS1VTOL_VTOL 1) 20480).p (SF_SS1VSTILL_VSTILL 1) 2048).p (SF_SS1TIM_DELAY 1) 50)
     s.overEnvelope 1 204800 204800 112600000 && !s.overEnvelope 1 204800 204800 112500000) = true := by decide

/-- R290: a watchdog of 3,000 µs expires at 3,000 µs from the last accepted sample. -/
theorem test_watchdog :
    (let s := (State.reset.p (SC_RXSTAT_STATE 0) 2).p (SC_RXWDT_WDT 0) 3000
     s.rxExpired 0 3000000 && !s.rxExpired 0 2000000) = true := by decide

/-- R321: the `TOP`-th high sample changes the filtered state. -/
theorem test_filter_at_top :
    (let s := (inMode 5 2).p (FD_DICFG_TOP 1) 40
     let at_ (n : Nat) := ((s.modDi 1 (fun x => { x with cnt := n })).diSample 1 true)
     ((at_ 38).g FD_DISTAT_FILT, (at_ 39).g FD_DISTAT_FILT) == (0, 1)) = true := by decide

/-- R409: with a class 1 of lane B open, a class 1 of lane C escalates, a further one of lane B folds. -/
theorem test_second_fault_escalates :
    (let s := (((inMode 5 2).p VX_LANES_STA 1).p VX_LANES_STB 1).p VX_LANES_STC 1
     let b := s.take { cls := 1, src := 0x10, code := 0x112, data := some (by_ [7]) }
     let c := b.take { cls := 1, src := 0x0A, code := 1, data := some (by_ [8]) }
     let d := b.take { cls := 1, src := 0x10, code := 0x112, data := some (by_ [7]) }
     b.on FC_STAT_PEND1 && !b.on FC_STAT_PEND2 && c.on FC_STAT_PEND2 && c.on (FC_FIRST_ESC 2) && !d.on FC_STAT_PEND2) = true := by decide

/-- R489: `UNFREEZE` before part 0 has been sent. -/
theorem test_unfreeze_needs_part_0 :
    (let s := (inMode 7 2).p FC_STAT_FROZEN 1
     let r := s.cmdFaultHistory { chans := [4], hdr := [], p := by_ [3, 0, 0, 0] }
     match r with
     | .no a st => a.on FC_STAT_FROZEN && st == stVerifyFail
     | _ => false) = true := by decide

end Sys2Proof.Tests
end

/-! SUPPORT. The reset state and what every step keeps; the statements on reset and on the canonical form. -/

namespace Sys2Proof.Machine
open Sys2Proof.Safety

/-! ### Reset -/

theorem tabGet_of_not_mem {α : Type} (d : Nat → α) {t : Tab α} {k : Nat} (h : k ∉ t.map Prod.fst) : tabGet d t k = d k := by
  induction t with
  | nil => rfl
  | cons e t ih =>
    obtain ⟨j, x⟩ := e
    simp only [List.map_cons, List.mem_cons, not_or] at h
    obtain ⟨hne, hmem⟩ := h
    simp only [tabGet, if_neg (Ne.symm hne), ih hmem]

/-- A register that `State.reset` does not list has its table's value (R12, R13). -/
theorem State.reset_rd {a : Nat} (h : a ∉ State.reset.regs.map Prod.fst) : State.reset.regs.rd a = regReset a :=
  tabGet_of_not_mem regReset h

/-- No lane is Voting: each is Resetting (R63, R71), with its memories still to be wiped (R174, R175). -/
theorem State.reset_lane (l : Lane) : State.reset.laneSt l.val = laResetting ∧ State.reset.lane l.val = resetLaneSt := by
  fin_cases l <;> exact ⟨by decide, rfl⟩

theorem State.reset_gated : State.reset.gated = true := by decide

theorem State.reset_regs_wf : tabWf regReset State.reset.regs = true := by decide

/-! ### Steps -/

/-- Every command keeps the queue that it finds, the variant and the canonical form: one case per arm of `exec`. -/
theorem exec_keeps {s0 : State} (c : Instr) (s : State) (hk : Keeps s0 s) : KeepsO s0 (exec c s) := by
  cases c with
  | modReset ch h p => exact execModReset_keeps ch h p s hk
  | modIdentify ch h p => exact execModIdentify_keeps ch h p s hk
  | modStatus ch h p => exact execModStatus_keeps ch h p s hk
  | modSetmode ch h p => exact execModSetmode_keeps ch h p s hk
  | modTagRead ch h p => exact execModTagRead_keeps ch h p s hk
  | modTagWrite ch h p => exact execModTagWrite_keeps ch h p s hk
  | modWakecfg ch h p => exact execModWakecfg_keeps ch h p s hk
  | appStage ch h p => exact execAppStage_keeps ch h p s hk
  | appLoad ch h p => exact execAppLoad_keeps ch h p s hk
  | appStart ch h p => exact execAppStart_keeps ch h p s hk
  | appStop ch h p => exact execAppStop_keeps ch h p s hk
  | appRestart ch h p => exact execAppRestart_keeps ch h p s hk
  | appNextstart ch h p => exact execAppNextstart_keeps ch h p s hk
  | appOlcLoad ch h p => exact execAppOlcLoad_keeps ch h p s hk
  | appOlcApply ch h p => exact execAppOlcApply_keeps ch h p s hk
  | pairSplit ch h p => exact execPairSplit_keeps ch h p s hk
  | pairJoin ch h p => exact execPairJoin_keeps ch h p s hk
  | appStatus ch h p => exact execAppStatus_keeps ch h p s hk
  | forceSet ch h p => exact execForceSet_keeps ch h p s hk
  | forceClear ch h p => exact execForceClear_keeps ch h p s hk
  | forceClearall ch h p => exact execForceClearall_keeps ch h p s hk
  | forceList ch h p => exact execForceList_keeps ch h p s hk
  | timeConfig ch h p => exact execTimeConfig_keeps ch h p s hk
  | timeTrigger ch h p => exact execTimeTrigger_keeps ch h p s hk
  | timeCapture ch h p => exact execTimeCapture_keeps ch h p s hk
  | timeStatus ch h p => exact execTimeStatus_keeps ch h p s hk
  | ringSched ch h p => exact execRingSched_keeps ch h p s hk
  | ringCommit ch h p => exact execRingCommit_keeps ch h p s hk
  | ringStatus ch h p => exact execRingStatus_keeps ch h p s hk
  | ethConfig ch h p => exact execEthConfig_keeps ch h p s hk
  | ethStatus ch h p => exact execEthStatus_keeps ch h p s hk
  | safeLoad ch h p => exact execSafeLoad_keeps ch h p s hk
  | sealAccept ch h p => exact execSealAccept_keeps ch h p s hk
  | scAck ch h p => exact execScAck_keeps ch h p s hk
  | safeStatus ch h p => exact execSafeStatus_keeps ch h p s hk
  | fioConfig ch h p => exact execFioConfig_keeps ch h p s hk
  | fioRelease ch h p => exact execFioRelease_keeps ch h p s hk
  | fioStatus ch h p => exact execFioStatus_keeps ch h p s hk
  | unitConfig ch h p => exact execUnitConfig_keeps ch h p s hk
  | unitHandover ch h p => exact execUnitHandover_keeps ch h p s hk
  | unitWitness ch h p => exact execUnitWitness_keeps ch h p s hk
  | unitStatus ch h p => exact execUnitStatus_keeps ch h p s hk
  | faultAck ch h p => exact execFaultAck_keeps ch h p s hk
  | faultHistory ch h p => exact execFaultHistory_keeps ch h p s hk
  | faultInject ch h p => exact execFaultInject_keeps ch h p s hk
  | faultStatus ch h p => exact execFaultStatus_keeps ch h p s hk
  | evRead ch h p => exact execEvRead_keeps ch h p s hk
  | evStatus ch h p => exact execEvStatus_keeps ch h p s hk
  | evClear ch h p => exact execEvClear_keeps ch h p s hk
  | upManifest ch h p => exact execUpManifest_keeps ch h p s hk
  | upChunk ch h p => exact execUpChunk_keeps ch h p s hk
  | upStatus ch h p => exact execUpStatus_keeps ch h p s hk
  | upActivate ch h p => exact execUpActivate_keeps ch h p s hk
  | upAbandon ch h p => exact execUpAbandon_keeps ch h p s hk
  | testRegread ch h p => exact execTestRegread_keeps ch h p s hk
  | testLoop ch h p => exact execTestLoop_keeps ch h p s hk
  | testProd ch h p => exact execTestProd_keeps ch h p s hk
  | lcChange ch h p => exact execLcChange_keeps ch h p s hk
  | lcDebugtoken ch h p => exact execLcDebugtoken_keeps ch h p s hk
  | unknownCommand ch code h p => exact execUnknownCommand_keeps ch code h p s hk
  | commandWindowClose k t => exact execCommandWindowClose_keeps k t s hk
  | channelReset ch => exact execChannelReset_keeps ch s hk
  | eventRelease ch tail => exact execEventRelease_keeps ch tail s hk
  | sessionConnect via => exact execSessionConnect_keeps via s hk
  | hello ctr nc cred => exact execHello_keeps ctr nc cred s hk
  | proof ctr mac => exact execProof_keeps ctr mac s hk
  | commandRecord rec => exact execCommandRecord_keeps rec s hk
  | closeRecord ctr atag => exact execCloseRecord_keeps ctr atag s hk
  | authenticationTimeout => exact execAuthenticationTimeout_keeps s hk
  | sessionIdleTimeout => exact execSessionIdleTimeout_keeps s hk
  | helloRefusalEnd => exact execHelloRefusalEnd_keeps s hk
  | submit l t work => exact execSubmit_keeps l t work s hk
  | abandon l t work => exact execAbandon_keeps l t work s hk
  | voteWindowClose t => exact execVoteWindowClose_keeps t s hk
  | sample t => exact execSample_keeps t s hk
  | collectionClose t => exact execCollectionClose_keeps t s hk
  | safeWatchdogExpiry c => exact execSafeWatchdogExpiry_keeps c s hk
  | imageComplete t => exact execImageComplete_keeps t s hk
  | imageDelivery l t work => exact execImageDelivery_keeps l t work s hk
  | cycleStart l t => exact execCycleStart_keeps l t s hk
  | voteOutcome l t work => exact execVoteOutcome_keeps l t work s hk
  | speculativeCommitDone l t => exact execSpeculativeCommitDone_keeps l t s hk
  | rollbackDone l t => exact execRollbackDone_keeps l t s hk
  | raDisable l => exact execRaDisable_keeps l s hk
  | raInhibit l => exact execRaInhibit_keeps l s hk
  | pairContextWrite l p v work => exact execPairContextWrite_keeps l p v work s hk
  | outputApply q => exact execOutputApply_keeps q s hk
  | queuedCommitRelease q => exact execQueuedCommitRelease_keeps q s hk
  | stopImageCommit t => exact execStopImageCommit_keeps t s hk
  | laneInitComplete l => exact execLaneInitComplete_keeps l s hk
  | anchor => exact execAnchor_keeps s hk
  | initTimeout => exact execInitTimeout_keeps s hk
  | quietGap len => exact execQuietGap_keeps len s hk
  | pairExecutionPoint => exact execPairExecutionPoint_keeps s hk
  | pxSplit l v => exact execPxSplit_keeps l v s hk
  | pxJoin l v => exact execPxJoin_keeps l v s hk
  | splitComplete l => exact execSplitComplete_keeps l s hk
  | joinComplete l trip synOk railOk => exact execJoinComplete_keeps l trip synOk railOk s hk
  | taskDispatch l p v => exact execTaskDispatch_keeps l p v s hk
  | comparatorTestDue l p => exact execComparatorTestDue_keeps l p s hk
  | forcedTest l v => exact execForcedTest_keeps l v s hk
  | forcedTestResult l trip synOk railOk group bit => exact execForcedTestResult_keeps l trip synOk railOk group bit s hk
  | comparatorMismatch l p group bit => exact execComparatorMismatch_keeps l p group bit s hk
  | railMismatch l p => exact execRailMismatch_keeps l p s hk
  | delayParityError l p fromOutputs group bit => exact execDelayParityError_keeps l p fromOutputs group bit s hk
  | mmuFault l c a acc sup size => exact execMmuFault_keeps l c a acc sup size s hk
  | uncorrectableMemoryError l m => exact execUncorrectableMemoryError_keeps l m s hk
  | scrubPass l dram l2 tcm bad => exact execScrubPass_keeps l dram l2 tcm bad s hk
  | retainedStore l st a mask v => exact execRetainedStore_keeps l st a mask v s hk
  | retainedApply st => exact execRetainedApply_keeps st s hk
  | tcmStarvation l b clks => exact execTcmStarvation_keeps l b clks s hk
  | dmaStart l n => exact execDmaStart_keeps l n s hk
  | dmaResume l n => exact execDmaResume_keeps l n s hk
  | dmaAbort l n => exact execDmaAbort_keeps l n s hk
  | dmaFault l n moved side target => exact execDmaFault_keeps l n moved side target s hk
  | dmaDescriptorDone l n => exact execDmaDescriptorDone_keeps l n s hk
  | windowPortBAccess off wr clk => exact execWindowPortBAccess_keeps off wr clk s hk
  | retentionLost l => exact execRetentionLost_keeps l s hk
  | logicalWipeDone l => exact execLogicalWipeDone_keeps l s hk
  | physicalWipeDone l => exact execPhysicalWipeDone_keeps l s hk
  | sdEnable l v => exact execSdEnable_keeps l v s hk
  | digestScanDone l => exact execDigestScanDone_keeps l s hk
  | spareEnable => exact execSpareEnable_keeps s hk
  | spareDisable => exact execSpareDisable_keeps s hk
  | sparePromotion => exact execSparePromotion_keeps s hk
  | laneResetComplete l => exact execLaneResetComplete_keeps l s hk
  | laneSelfTestEnd l pass => exact execLaneSelfTestEnd_keeps l pass s hk
  | copyRoundComplete dirtied => exact execCopyRoundComplete_keeps dirtied s hk
  | resyncComplete l => exact execResyncComplete_keeps l s hk
  | resyncTimeout l => exact execResyncTimeout_keeps l s hk
  | linkPacketReceive k seq body crc => exact execLinkPacketReceive_keeps k seq body crc s hk
  | linkFailure k c => exact execLinkFailure_keeps k c s hk
  | shadowPulse d word => exact execShadowPulse_keeps d word s hk
  | shadowPulseMissing d => exact execShadowPulseMissing_keeps d s hk
  | timeTickWrap => exact execTimeTickWrap_keeps s hk
  | incrementWrite v => exact execIncrementWrite_keeps v s hk
  | eranextWrite v => exact execEranextWrite_keeps v s hk
  | timeStep v => exact execTimeStep_keeps v s hk
  | timeSnapshot => exact execTimeSnapshot_keeps s hk
  | incrementStale => exact execIncrementStale_keeps s hk
  | servoRun => exact execServoRun_keeps s hk
  | rtcUpdate => exact execRtcUpdate_keeps s hk
  | captureEvent n stamp => exact execCaptureEvent_keeps n stamp s hk
  | captureEnable n v => exact execCaptureEnable_keeps n v s hk
  | triggerArm n v => exact execTriggerArm_keeps n v s hk
  | appTriggerArrival n word => exact execAppTriggerArrival_keeps n word s hk
  | triggerFire n => exact execTriggerFire_keeps n s hk
  | basicCycleStart r => exact execBasicCycleStart_keeps r s hk
  | standInMark r => exact execStandInMark_keeps r s hk
  | macrocycleBoundary r => exact execMacrocycleBoundary_keeps r s hk
  | markReceive r port frame stamp => exact execMarkReceive_keeps r port frame stamp s hk
  | pollReceive r port frame stamp => exact execPollReceive_keeps r port frame stamp s hk
  | replyReceive r port frame stamp => exact execReplyReceive_keeps r port frame stamp s hk
  | referenceMessageReceive r port frame stamp => exact execReferenceMessageReceive_keeps r port frame stamp s hk
  | slotTransmit r e dev => exact execSlotTransmit_keeps r e dev s hk
  | watchVerdict w => exact execWatchVerdict_keeps w s hk
  | delayProbe r port result => exact execDelayProbe_keeps r port result s hk
  | positionWordReceive r port word => exact execPositionWordReceive_keeps r port word s hk
  | ringEnable r => exact execRingEnable_keeps r s hk
  | ringDisable r => exact execRingDisable_keeps r s hk
  | listenSilenceExpiry r => exact execListenSilenceExpiry_keeps r s hk
  | marksLost r => exact execMarksLost_keeps r s hk
  | ringBreak r port => exact execRingBreak_keeps r port s hk
  | foldNoticeReceive r port unfold => exact execFoldNoticeReceive_keeps r port unfold s hk
  | unfoldReady r port => exact execUnfoldReady_keeps r port s hk
  | switchFrameReceive port f rx tx => exact execSwitchFrameReceive_keeps port f rx tx s hk
  | addressAgeing vlan mac => exact execAddressAgeing_keeps vlan mac s hk
  | ptpMessageReceive port m => exact execPtpMessageReceive_keeps port m s hk
  | ptpTransmit port k stamp => exact execPtpTransmit_keeps port k stamp s hk
  | ptpReferenceLost => exact execPtpReferenceLost_keeps s hk
  | datagramReceive datagram stamp => exact execDatagramReceive_keeps datagram stamp s hk
  | publicationSend p => exact execPublicationSend_keeps p s hk
  | stoTestPulse d ch => exact execStoTestPulse_keeps d ch s hk
  | stoReadbackFault d ch => exact execStoReadbackFault_keeps d ch s hk
  | channelAReport d cmdA rbA => exact execChannelAReport_keeps d cmdA rbA s hk
  | channelBWatchdogExpiry => exact execChannelBWatchdogExpiry_keeps s hk
  | driveEvaluation d count => exact execDriveEvaluation_keeps d count s hk
  | encoderFault d => exact execEncoderFault_keeps d s hk
  | encoderFaultClear d => exact execEncoderFaultClear_keeps d s hk
  | safetyPairEvaluation k => exact execSafetyPairEvaluation_keeps k s hk
  | sealRead rd => exact execSealRead_keeps rd s hk
  | tamperCheck opened => exact execTamperCheck_keeps opened s hk
  | filterSample raw fld => exact execFilterSample_keeps raw fld s hk
  | rawEdge n level stamp => exact execRawEdge_keeps n level stamp s hk
  | supplyNormal => exact execSupplyNormal_keeps s hk
  | supplyLatch => exact execSupplyLatch_keeps s hk
  | diTopWrite n v => exact execDiTopWrite_keeps n v s hk
  | commitMessage => exact execCommitMessage_keeps s hk
  | silenceExpiry => exact execSilenceExpiry_keeps s hk
  | thermalShutdown n => exact execThermalShutdown_keeps n s hk
  | thermalRetry c => exact execThermalRetry_keeps c s hk
  | retryCountReset c => exact execRetryCountReset_keeps c s hk
  | hsoOverload n => exact execHsoOverload_keeps n s hk
  | hsoOpenLoad n present => exact execHsoOpenLoad_keeps n present s hk
  | hsoShortToSupply n present => exact execHsoShortToSupply_keeps n present s hk
  | fppOverload n => exact execFppOverload_keeps n s hk
  | fppEdgeCheck n level => exact execFppEdgeCheck_keeps n level s hk
  | analogueConversion n value stamp => exact execAnalogueConversion_keeps n value stamp s hk
  | loopDiagnosticMeasurement n m => exact execLoopDiagnosticMeasurement_keeps n m s hk
  | jumperRead lo hi => exact execJumperRead_keeps lo hi s hk
  | foldBack n on => exact execFoldBack_keeps n on s hk
  | shuntOvercurrent n => exact execShuntOvercurrent_keeps n s hk
  | shuntReconnect n => exact execShuntReconnect_keeps n s hk
  | modeSettleEnd n => exact execModeSettleEnd_keeps n s hk
  | enumeration cards => exact execEnumeration_keeps cards s hk
  | rackAccess l t acc => exact execRackAccess_keeps l t acc s hk
  | readCompletion tag code data => exact execReadCompletion_keeps tag code data s hk
  | readTimeout tag => exact execReadTimeout_keeps tag s hk
  | discardTimerExpiry tag => exact execDiscardTimerExpiry_keeps tag s hk
  | errorMessage slot tag code a => exact execErrorMessage_keeps slot tag code a s hk
  | prefetchExpiry b => exact execPrefetchExpiry_keeps b s hk
  | windowRead a clk => exact execWindowRead_keeps a clk s hk
  | windowWrite a v be clk => exact execWindowWrite_keeps a v be clk s hk
  | lsbCycle => exact execLsbCycle_keeps s hk
  | lsbResponse line body parityOk => exact execLsbResponse_keeps line body parityOk s hk
  | forwardedImageReceive k img => exact execForwardedImageReceive_keeps k img s hk
  | forwardDeadline t => exact execForwardDeadline_keeps t s hk
  | pairLinkLost k => exact execPairLinkLost_keeps k s hk
  | pairLinkRegained k => exact execPairLinkRegained_keeps k s hk
  | leaseEnd => exact execLeaseEnd_keeps s hk
  | actTime => exact execActTime_keeps s hk
  | watchLoss => exact execWatchLoss_keeps s hk
  | unitResyncComplete => exact execUnitResyncComplete_keeps s hk
  | faultReport src cls code data => exact execFaultReport_keeps src cls code data s hk
  | reportFetchTimeout src => exact execReportFetchTimeout_keeps src s hk
  | pathFailure src => exact execPathFailure_keeps src s hk
  | pathPoll src word => exact execPathPoll_keeps src word s hk
  | forceReport src v => exact execForceReport_keeps src v s hk
  | forcePathFailure src v => exact execForcePathFailure_keeps src v s hk
  | powerOn => exact execPowerOn_keeps s hk
  | powerFailWarning => exact execPowerFailWarning_keeps s hk
  | rstAsserted => exact execRstAsserted_keeps s hk
  | bootVerified okA okB rtcOk => exact execBootVerified_keeps okA okB rtcOk s hk
  | selfTestEnd res => exact execSelfTestEnd_keeps res s hk
  | ready => exact execReady_keeps s hk
  | synchronisingLong => exact execSynchronisingLong_keeps s hk
  | wakeTrigger w => exact execWakeTrigger_keeps w s hk
  | laneWakeComplete l => exact execLaneWakeComplete_keeps l s hk
  | resumePoint => exact execResumePoint_keeps s hk
  | haltLatchClear => exact execHaltLatchClear_keeps s hk
  | supplyBelowRange inp => exact execSupplyBelowRange_keeps inp s hk
  | supplyOvervoltage inp => exact execSupplyOvervoltage_keeps inp s hk
  | supplyReconnect inp => exact execSupplyReconnect_keeps inp s hk
  | operatingTimeStore => exact execOperatingTimeStore_keeps s hk
  | stagingDrain n => exact execStagingDrain_keeps n s hk
  | buildComplete => exact execBuildComplete_keeps s hk
  | trialTimeout => exact execTrialTimeout_keeps s hk
  | tapMismatch port depth1 => exact execTapMismatch_keeps port depth1 s hk
  | registerWrite by_ a v size => exact execRegisterWrite_keeps by_ a v size s hk
  | lsbResponseTimeout line => exact execLsbResponseTimeout_keeps line s hk
  | standbyDomainPowerLoss => exact execStandbyDomainPowerLoss_keeps s hk
  | ethLinkChange port speed => exact execEthLinkChange_keeps port speed s hk
  | tapInstructionLoad d code => exact execTapInstructionLoad_keeps d code s hk
  | debugHaltRequest l c => exact execDebugHaltRequest_keeps l c s hk
  | probePresentChange present => exact execProbePresentChange_keeps present s hk
  | pairLinkHealthRecord k body => exact execPairLinkHealthRecord_keeps k body s hk

/-- The canonical form does not speak of the queue. -/
theorem Canonical.setPending {s : State} (h : Canonical s) (cs : List Instr) : Canonical { s with pending := cs } :=
  ⟨h.regs, h.mb, h.memA, h.memB, h.memC, h.memD⟩

/-- The next state of a step has the rest of the queue, the variant, and the canonical form where the state before it has. -/
theorem step_keeps {s t : State} (h : step s = .next t) :
    t.pending = s.pending.tail ∧ t.variant = s.variant ∧ (Canonical s → Canonical t) := by
  unfold step at h
  split at h
  case h_1 hp =>
    obtain ⟨hpending, hvariant, hcanonical⟩ := KeepsO.next (State.tick_keeps s (Keeps.refl s)) t h
    exact ⟨by rw [hpending, hp, List.tail_nil], hvariant, hcanonical⟩
  case h_2 c cs hp =>
    obtain ⟨hpending, hvariant, hcanonical⟩ := exec_keeps c _ (Keeps.refl _) t h
    exact ⟨by rw [hpending, hp, List.tail_cons], hvariant, fun hs => hcanonical (Canonical.setPending hs cs)⟩

end Sys2Proof.Machine

namespace Sys2Proof.Proofs
open Sys2Proof.Machine Sys2Proof.Safety

/-- Settles O4: a step is a tick or one command on the rest of the queue, and each keeps the canonical form. -/
theorem everyStepKeepsMemoryCanonical : Obligations.EveryStepKeepsMemoryCanonical := by
  intro s t hs ht
  obtain ⟨-, -, hcanonical⟩ := step_keeps ht
  exact hcanonical hs

/-- Settles O2: the registers by their tables, the lanes one by one, the rest as `State.reset` lists it. -/
theorem resetLeavesTheStatedValues : Obligations.ResetLeavesTheStatedValues := by
  exact ⟨fun _ => State.reset_rd, by decide, by decide, by decide, by decide, by decide, State.reset_gated, State.reset_lane,
    by decide, by decide, rfl, rfl, rfl, rfl, rfl, rfl, rfl, rfl⟩

/-- Settles O3: the listed registers rise and differ from their tables' values, and every memory is empty. -/
theorem resetMemoryIsCanonical : Obligations.ResetMemoryIsCanonical :=
  ⟨State.reset_regs_wf, Memory.wf_nil, Memory.wf_nil, Memory.wf_nil, Memory.wf_nil, Memory.wf_nil⟩

end Sys2Proof.Proofs

/-! SUPPORT. Committed parts on their way to their targets: what an arriving part does, which parts of a queue are due and in what order they
act, and what the commands of the output path answer. -/

namespace Sys2Proof.Machine
open Sys2Proof.Safety

/-! ### Arrival -/

@[simp] theorem State.useNode_heldBack (s : State) (p x : Part) : (s.useNode p).heldBack x = s.heldBack x := by
  unfold State.useNode; split <;> rfl

@[simp] theorem State.useNode_dieNow (s : State) (p : Part) (q : ApplyQ) : (s.useNode p).dieNow q = s.dieNow q := by
  unfold State.useNode; split <;> rfl

@[simp] theorem State.useNode_pendingTimes (s : State) (p : Part) (q : ApplyQ) : (s.useNode p).pendingTimes q = s.pendingTimes q := by
  unfold State.useNode; split <;> rfl

/-- A commit time that the Keeper holds back already takes what is committed for it later (R40, R108). -/
theorem State.arrive_of_heldBack {s : State} {p : Part} (h : s.heldBack p = true) :
    s.arrive p = { s.useNode p with backlog := (s.useNode p).backlog ++ [{ p with reached := s.now }] } := by
  have held : (s.useNode p).heldBack { p with reached := s.now } = true := by rw [State.useNode_heldBack]; exact h
  exact if_pos held

theorem State.arrive_of_late {s : State} {p : Part} (h : s.heldBack p = false) (late : p.commit < s.dieNow p.q + queueMargin p.q) :
    s.arrive p = (s.useNode p).applyLate { p with reached := s.now } := by
  have held : ¬ (s.useNode p).heldBack { p with reached := s.now } = true := by rw [State.useNode_heldBack]; exact ne_true_of_eq_false h
  have due : p.commit < (s.useNode p).dieNow p.q + queueMargin p.q := by simpa using late
  exact (if_neg held).trans (if_pos due)

/-- A part in time is held back with a ninth commit time and held by its die otherwise (R40). -/
theorem State.arrive_of_early {s : State} {p : Part} (h : s.heldBack p = false) (early : s.dieNow p.q + queueMargin p.q ≤ p.commit) :
    s.arrive p = if 8 ≤ (s.pendingTimes p.q).length ∧ p.commit ∉ s.pendingTimes p.q
      then { s.useNode p with backlog := (s.useNode p).backlog ++ [{ p with reached := s.now }] }
      else { s.useNode p with parts := (s.useNode p).parts ++ [{ p with reached := s.now }] } := by
  have held : ¬ (s.useNode p).heldBack { p with reached := s.now } = true := by rw [State.useNode_heldBack]; exact ne_true_of_eq_false h
  have due : ¬ p.commit < (s.useNode p).dieNow p.q + queueMargin p.q := by simpa using early
  refine ((if_neg held).trans (if_neg due)).trans (if_congr ?_ rfl rfl)
  simp [State.useNode_pendingTimes s { p with reached := s.now }]

/-- A late apply counts at its die; the notice leaves the count (R40). -/
theorem State.lateAt_counts (s : State) (d : Nat) :
    tabGet (fun _ => 0) (s.lateAt d).tu.lateApplied d = tabGet (fun _ => 0) s.tu.lateApplied d + 1 := by
  unfold State.lateAt
  rw [(State.notice_same _ 0x16 5 d 0 (by decide)).tu]
  simp only [tabGet_tabSet_same]

/-! ### Parts that are due -/

theorem State.mem_pendingTimes {s : State} {q : ApplyQ} {x : Part} (hx : x ∈ s.parts) (hq : x.q = q) : x.commit ∈ s.pendingTimes q := by
  unfold State.pendingTimes
  rw [List.mem_eraseDups]
  exact List.mem_map_of_mem (List.mem_filter.2 ⟨hx, beq_iff_eq.2 hq⟩)

theorem State.earliest_le {s : State} {q : ApplyQ} {c : Nat} (h : s.earliest q = some c) {x : Part} (hx : x ∈ s.parts) (hq : x.q = q) :
    c ≤ x.commit := (List.min?_eq_some_iff.1 h).2 _ (State.mem_pendingTimes hx hq)

/-- A part put in its place is an ordered insertion that goes behind its equals. -/
theorem putPart_eq_orderedInsert (key : Part → Nat) (p : Part) (ps : List Part) :
    putPart key p ps = ps.orderedInsert (fun x y => key x < key y) p := by
  induction ps with
  | nil => rfl
  | cons x xs ih => simp only [putPart, List.orderedInsert, ih]

theorem putPart_perm (key : Part → Nat) (p : Part) (ps : List Part) : (putPart key p ps).Perm (p :: ps) := by
  rw [putPart_eq_orderedInsert]
  exact List.perm_orderedInsert _ _ _

theorem putPart_pairwise {key : Part → Nat} {ps : List Part} (p : Part) (h : ps.Pairwise (fun x y => key x ≤ key y)) :
    (putPart key p ps).Pairwise (fun x y => key x ≤ key y) := by
  induction ps with
  | nil => exact List.pairwise_singleton _ _
  | cons x xs ih =>
    obtain ⟨hx, hxs⟩ := List.pairwise_cons.1 h
    simp only [putPart]
    split
    case isTrue hlt =>
      refine List.pairwise_cons.2 ⟨fun y hy => ?_, h⟩
      rcases List.mem_cons.1 hy with rfl | hy
      · exact hlt.le
      · exact hlt.le.trans (hx y hy)
    case isFalse hge =>
      refine List.pairwise_cons.2 ⟨fun y hy => ?_, ih hxs⟩
      rcases List.mem_cons.1 ((putPart_perm key p xs).mem_iff.1 hy) with rfl | hy
      · exact not_lt.1 hge
      · exact hx y hy

/-- Parts put in their places one after another: all of them, by their places. -/
theorem foldl_putPart (key : Part → Nat) (ps : List Part) {acc : List Part} (h : acc.Pairwise (fun x y => key x ≤ key y)) :
    (ps.foldl (fun a p => putPart key p a) acc).Perm (ps ++ acc) ∧
      (ps.foldl (fun a p => putPart key p a) acc).Pairwise (fun x y => key x ≤ key y) := by
  induction ps generalizing acc with
  | nil => exact ⟨.refl _, h⟩
  | cons p ps ih =>
    obtain ⟨hperm, hsorted⟩ := ih (putPart_pairwise p h)
    exact ⟨hperm.trans (((putPart_perm key p acc).append_left ps).trans List.perm_middle), hsorted⟩

/-! ### The commands of the output path -/

theorem exec_outputApply {s : State} {q : ApplyQ} {c : Nat} (h : s.earliest q = some c) (hc : c ≤ s.dieNow q) :
    exec (.outputApply q) s = .next (s.applyAt q c) := by
  change execOutputApply q s = _
  simp [execOutputApply, h, hc]

/-- The parts of another die act in the order of their commits (R40). -/
theorem State.applyAt_of_ne_keeper (s : State) {q : ApplyQ} (c : Nat) (hq : q ≠ .keeper) :
    s.applyAt q c = (s.parts.filter (fun x => x.q == q && x.commit == c)).foldl State.applyPart
      { s with parts := s.parts.filter (fun x => !(x.q == q && x.commit == c)) } := by
  have hk : ¬ (q == ApplyQ.keeper) = true := by simpa using hq
  simp only [State.applyAt, if_neg hk]

/-- The Keeper's parts act by their places in the output image (R365). -/
theorem State.applyAt_keeper (s : State) (c : Nat) :
    ∃ due : List Part, due.Perm (s.parts.filter (fun x => x.q == .keeper && x.commit == c)) ∧
      due.Pairwise (fun x y => s.partPlace x ≤ s.partPlace y) ∧
      s.applyAt .keeper c = due.foldl State.applyPart { s with parts := s.parts.filter (fun x => !(x.q == .keeper && x.commit == c)) } := by
  obtain ⟨hperm, hsorted⟩ := foldl_putPart s.partPlace (s.parts.filter (fun x => x.q == .keeper && x.commit == c)) List.Pairwise.nil
  exact ⟨_, by simpa using hperm, hsorted, rfl⟩

theorem exec_queuedCommitRelease {s : State} {q : ApplyQ} {x : Part} (h : s.backlog.find? (fun p => p.q == q) = some x)
    (room : (s.pendingTimes q).length < 8) :
    exec (.queuedCommitRelease q) s = .next ((s.backlog.filter (fun y => y.q == q && y.commit == x.commit)).foldl State.arrive
      { s with backlog := s.backlog.filter (fun y => !(y.q == q && y.commit == x.commit)) }) := by
  change execQueuedCommitRelease q s = _
  simp only [execQueuedCommitRelease, h, if_pos room]

theorem exec_commitMessage_of_down {s : State} (h : s.linkDown lkField = true) : exec .commitMessage s = .next s := if_pos h

/-- The field die as a commit message finds it: its silence is over, the message's parts are taken from their way (R332, R334). -/
def State.messageTaken (s : State) : State :=
  ({ s with transit := s.transit.filter (fun p => p.q != .field), fd := { s.fd with msgAt := s.tu.upNs } } : State).p FD_STAT_SILENT 0

theorem exec_commitMessage_of_up {s : State} (h : s.linkDown lkField = false) :
    exec .commitMessage s = .next ((s.transit.filter (fun p => p.q == .field)).foldl State.arrive s.messageTaken.driveOutputs) :=
  if_neg (by simpa using h)

theorem State.messageTaken_silent (s : State) : s.messageTaken.g FD_STAT_SILENT = 0 := State.g_p_same _ _ _ (by decide)

theorem State.messageTaken_regsKeep (s : State) : RegsKeep s s.messageTaken (regIn [FD_STAT_SILENT]) :=
  fun _ ha => State.rd_p_ne _ _ (fun e => ha ⟨FD_STAT_SILENT, List.mem_singleton_self _, e⟩)

/-- Is a part one of a publication whose commit time has come (R272)? -/
def State.pubDue (s : State) (n : Nat) (x : Part) : Bool := match x.tgt with
  | .publication k _ => k == n && decide (x.commit ≤ s.now)
  | _ => false

theorem exec_publicationSend {s : State} {n : Fin 64} (h : s.parts.filter (s.pubDue n.val) ≠ []) :
    exec (.publicationSend n) s = .next ((s.parts.filter (s.pubDue n.val)).foldl State.applyPart
      { s with parts := s.parts.filter (fun x => !s.pubDue n.val x) }) :=
  if_neg (fun e => h (List.isEmpty_iff.1 e))

/-- A publication's part without bytes is its datagram (R272). -/
theorem State.applyPart_datagram (s : State) {p : Part} {k : Nat} (ht : p.tgt = .publication k 0) (hd : p.data = []) :
    s.applyPart p = s.sendPub k p.commit p.cycle := by
  simp [State.applyPart, ht, hd]

theorem exec_stopImageCommit {s : State} {t : Task} (h : s.app.state = .stopped ∨ s.app.state = .held) (ha : s.app.anchor.isSome = true)
    (due : (s.task t.val).next ≤ s.now + 8) : exec (.stopImageCommit t) s = .next (s.commitStop t.val) :=
  if_pos (by simp [h, ha, due])

/-- One binding's bytes of the stop image leave for their target (R117). -/
def State.sendStop (t : Nat) (commit cycle : Nat) (s : State) (b : OutBind) : State :=
  s.dispatchPart { q := b.tgt.queue, commit := commit, tgt := b.tgt, data := s.app.pkg.stopImg.rdN (8 * b.word + b.byte) b.len
                   t := some (Fin.ofNat 16 t), cycle := cycle }

/-- The stop image of a task goes out at the commit time of its grid point, its publications follow, and the grid point is done with (R117, R429). -/
theorem State.commitStop_eq {s : State} {t : Nat} (h : (s.desc t).kind ≠ 0) :
    let k := s.cycleAt t (s.task t).next
    let c := (s.task t).next + (s.desc t).lead * 1000
    let u := (s.app.pkg.outsOf t).foldl (State.sendStop t c k) s
    s.commitStop t = (u.publish t k c).modTask t (fun x => { x with
      next := x.next + (s.desc t).periodNs
      skipped := if u.app.state = .held ∧ (s.desc t).kind ≠ 3 then min (x.skipped + 1) 0xFFFFFFFF else x.skipped }) := by
  intro k c u
  refine (if_neg (by simpa using h)).trans ?_
  simp only [Bool.and_eq_true, beq_iff_eq, bne_iff_ne]
  rfl

end Sys2Proof.Machine

namespace Sys2Proof.Proofs
open Sys2Proof.Machine Sys2Proof.Safety

/-- Settles O34: the rules of arrival, of the parts due at a commit time, and of the commands of the output path, put together. -/
theorem outputsActAtTheirCommitTime : Obligations.OutputsActAtTheirCommitTime := by
  intro s q p n t
  refine ⟨⟨State.arrive_of_heldBack, State.arrive_of_late, fun held early => ?_⟩,
    State.lateAt_counts s,
    fun c hc => ⟨fun x => State.earliest_le hc, fun reached => ?_⟩,
    fun x => exec_queuedCommitRelease,
    exec_commitMessage_of_down,
    fun up => ⟨s.messageTaken, exec_commitMessage_of_up up, rfl, s.messageTaken_silent, rfl, rfl, s.messageTaken_regsKeep⟩,
    exec_publicationSend,
    fun k => State.applyPart_datagram s,
    exec_stopImageCommit,
    State.commitStop_eq⟩
  · rw [State.arrive_of_early held early]
    exact ⟨fun full new => if_pos ⟨full, new⟩, fun room => if_neg (fun ⟨full, new⟩ => room.elim (by omega) new)⟩
  · rw [exec_outputApply hc reached]
    refine ⟨fun hq => by rw [State.applyAt_of_ne_keeper s c hq], ?_⟩
    rintro rfl
    obtain ⟨due, hperm, hsorted, heq⟩ := State.applyAt_keeper s c
    exact ⟨due, hperm, hsorted, by rw [heq]⟩

end Sys2Proof.Proofs

/-! SUPPORT. Die links and shadow counters: what a packet and a failure do to a link, what a pulse and its absence do to a counter. -/

namespace Sys2Proof.Machine
open Sys2Proof.Safety

/-! ### Links -/

@[simp] theorem State.link_setLink_same (s : State) (k : Nat) (x : LinkSt) : (s.setLink k x).link k = x := tabGet_tabSet_same _ _ _ _

theorem State.emit_of_awake {s : State} (h : s.mode ≠ mDormant) (x : TxItem) : s.emit x = { s with tx := x :: s.tx } :=
  if_neg (by simpa [State.mode] using h)

theorem State.sendPacket_tx {s : State} (h : s.mode ≠ mDormant) (k : Nat) (body : List Byte) :
    (s.sendPacket k body).tx = .linkPacket k (s.link k).txSeq body (crc32 body) :: s.tx := by
  simp [State.sendPacket, State.emit_of_awake h, State.setLink]

theorem State.sendPacket_link (s : State) (k : Nat) (body : List Byte) :
    (s.sendPacket k body).link k = { s.link k with txSeq := (s.link k).txSeq + 1, lastTx := s.tu.upNs } := by
  simp [State.sendPacket]

/-- A packet is taken in sequence, with at most 256 bytes and a good check (R21). -/
def State.packetGood (s : State) (k : DieLink) (seq : Nat) (body : List Byte) (crc : Word) : Prop :=
  seq = (s.link (linkNo k)).rxSeq ∧ body.length ≤ 256 ∧ crc32 body = crc.toNat

section
variable {s : State} {k : DieLink} {seq : Nat} {body : List Byte} {crc : Word} (has : s.hasLink k = true) (up : (s.link (linkNo k)).down = false)
include has up

theorem exec_linkPacketReceive_of_good (good : s.packetGood k seq body crc) :
    exec (.linkPacketReceive k seq body crc) s =
      .next (s.setLink (linkNo k) { s.link (linkNo k) with rxSeq := (s.link (linkNo k)).rxSeq + 1, replays := 0 }) := by
  obtain ⟨hseq, hlen, hcrc⟩ := good
  change execLinkPacketReceive k seq body crc s = _
  simp [execLinkPacketReceive, has, up, hseq, hlen, hcrc]

theorem exec_linkPacketReceive_of_bad (bad : ¬ s.packetGood k seq body crc) :
    exec (.linkPacketReceive k seq body crc) s =
      if 3 ≤ (s.link (linkNo k)).replays
      then .next ((s.setLink (linkNo k) { s.link (linkNo k) with replays := (s.link (linkNo k)).replays + 1 }).linkFails k .replays)
      else .next ((s.setLink (linkNo k) { s.link (linkNo k) with replays := (s.link (linkNo k)).replays + 1 }).emit
        (.linkReplay (linkNo k) (s.link (linkNo k)).rxSeq)) := by
  have reached : ¬ ((s.link (linkNo k)).down || !s.hasLink k) = true := by simp [has, up]
  have refused : ¬ (seq == (s.link (linkNo k)).rxSeq && body.length ≤ 256 && crc32 body == crc.toNat) = true := by
    simpa [State.packetGood, and_assoc] using bad
  exact (if_neg reached).trans (if_neg refused)

end

/-- The link is down and its failure reported under its source (R22, R404). -/
theorem exec_linkFailure_reported {s : State} {k : DieLink} {c : LinkCause} {src cls code : Nat} (h : linkReport k c = some (src, cls, code))
    (has : s.hasLink k = true) :
    exec (.linkFailure k c) s = .next ((s.setLink (linkNo k) { s.link (linkNo k) with down := true }).report src cls code) := by
  change execLinkFailure k c s = _
  simp only [execLinkFailure, State.linkFails, h, has, if_true]

/-- A failure that a link does not know, the comparator's of any link but the Keeper's, changes nothing (R22). -/
theorem exec_linkFailure_unreported {s : State} {k : DieLink} {c : LinkCause} (h : linkReport k c = none) : exec (.linkFailure k c) s = .next s := by
  change execLinkFailure k c s = _
  simp only [execLinkFailure, State.linkFails, h]

/-! ### Shadow counters -/

theorem Shadow.miss_fails_iff (c : Shadow) : c.miss.2 = true ↔ c.missed = 7 := by
  simp [Shadow.miss]

/-- A load is judged where the counter has run before and the time word tells of no step (R29). -/
theorem Shadow.lt_judged_iff (c : Shadow) (w : TimeWord) (n : Nat) :
    n < (if (c.loaded && !w.step) = true then (shadowErr c w).natAbs else 0) ↔ c.loaded = true ∧ w.step = false ∧ n < (shadowErr c w).natAbs := by
  simp only [Bool.and_eq_true, Bool.not_eq_true']
  split
  case isTrue judged => simp [judged]
  case isFalse unjudged => simp [← and_assoc, unjudged]

theorem Shadow.load_notice_iff (c : Shadow) (w : TimeWord) :
    (c.load w).2.1 = true ↔ c.loaded = true ∧ w.step = false ∧ 16 * 2 ^ 16 < (shadowErr c w).natAbs := by
  simp only [Shadow.load, decide_eq_true_eq, gt_iff_lt, Shadow.lt_judged_iff]

/-- The second load in a row that is far off fails the counter: one stands counted and this one adds to it (R29). -/
theorem Shadow.load_fails_iff (c : Shadow) (w : TimeWord) :
    (c.load w).2.2 = true ↔ 1 ≤ c.bad ∧ c.loaded = true ∧ w.step = false ∧ 100 * 2 ^ 16 < (shadowErr c w).natAbs := by
  simp only [Shadow.load, decide_eq_true_eq, gt_iff_lt, Shadow.lt_judged_iff]
  split
  case isTrue far => exact ⟨fun second => ⟨by omega, far⟩, fun ⟨one, _⟩ => by omega⟩
  case isFalse near => exact ⟨fun second => absurd second (by omega), fun ⟨_, far⟩ => absurd far near⟩

theorem Shadow.load_trim (c : Shadow) (w : TimeWord) :
    (c.load w).1.trim = if c.disc = true ∧ w.step = false then c.trim + shadowErr c w * 128 / (125 * ((c.missed : Int) + 1)) else w.incdev := by
  simp [Shadow.load, Shadow.retrim]

theorem exec_shadowPulseMissing {s : State} {d : DieId} (h : s.shadowRuns d = true) :
    exec (.shadowPulseMissing d) s = .next (s.shadowMiss d) := if_pos h

theorem exec_shadowPulse_of_bad {s : State} {d : DieId} (h : s.shadowRuns d = true) {word : BitVec 64} (hw : timeWord word = none) :
    exec (.shadowPulse d word) s = .next (s.shadowMiss d) := by
  change execShadowPulse d word s = _
  simp [execShadowPulse, h, hw]

theorem exec_shadowPulse_of_good {s : State} {d : DieId} (h : s.shadowRuns d = true) {word : BitVec 64} {w : TimeWord}
    (hw : timeWord word = some w) :
    exec (.shadowPulse d word) s =
      (let y := (s.shadow d).load w
       let b := s.setShadow d y.1
       let b := if y.2.1 = true then b.notice (shadowSrc d) 1 0 0 else b
       .next (if y.2.2 = true then b.shadowFails d 2 else b)) := by
  change execShadowPulse d word s = _
  simp [execShadowPulse, h, hw]

theorem exec_shadow_of_stopped {s : State} {d : DieId} (h : s.shadowRuns d = false) (word : BitVec 64) :
    exec (.shadowPulse d word) s = .next s ∧ exec (.shadowPulseMissing d) s = .next s :=
  ⟨if_pos (by simp [h]), if_neg (by simp [h])⟩

/-- A failed counter before its report: out of discipline, of a lane waiting for 1,000 good pulses (R30). -/
def State.shadowLost (s : State) (d : DieId) : State :=
  let a := s.setShadow d { s.shadow d with disc := false, bad := 0, good := 0 }
  match d with
  | .lane l => a.modLane l.val (fun x => { x with waitPulses := true })
  | _ => a

/-- A counter's failure has class 1 of a lane and class 3 of another die (R30). -/
theorem State.shadowFails_eq (s : State) (d : DieId) (code : Nat) :
    s.shadowFails d code = (s.shadowLost d).report (shadowSrc d) (match d with | .lane _ => 1 | _ => 3) code := by
  cases d <;> rfl

theorem State.shadowLost_keeps (s : State) (d : DieId) : (s.shadowLost d).regs = s.regs ∧ (s.shadowLost d).tx = s.tx := by
  cases d <;> simp [State.shadowLost, State.setShadow]

theorem State.shadow_shadowLost (s : State) (d : DieId) : ((s.shadowLost d).shadow d).disc = false := by
  cases d <;> simp [State.shadowLost, State.shadow, State.setShadow]

theorem State.shadowLost_waits (s : State) (l : Lane) : ((s.shadowLost (.lane l)).lane l.val).waitPulses = true := by
  simp [State.shadowLost]

end Sys2Proof.Machine

namespace Sys2Proof.Proofs
open Sys2Proof.Machine Sys2Proof.Safety

/-- Settles O39: the links' rules case by case, and the counter's load and miss in front of what its commands answer. -/
theorem linksAndShadowCounters : Obligations.LinksAndShadowCounters := by
  intro s k c seq body crc d word l
  refine ⟨fun has up => ⟨fun hseq hlen hcrc => ?_, fun bad => ?_⟩,
    fun awake => ⟨State.sendPacket_tx awake _ _, State.sendPacket_link _ _ _⟩,
    ⟨fun has => ⟨exec_linkFailure_reported rfl has, exec_linkFailure_reported rfl has⟩,
      exec_linkFailure_unreported rfl, exec_linkFailure_unreported rfl, exec_linkFailure_unreported rfl,
      fun hc => ?_, fun hv => ?_⟩,
    ⟨Shadow.miss_fails_iff _, rfl, rfl,
      fun runs => ⟨exec_shadowPulseMissing runs, exec_shadowPulse_of_bad runs, fun w hw => ⟨rfl, rfl, rfl, rfl, rfl, rfl,
        Shadow.load_trim _ w, Shadow.load_notice_iff _ w, Shadow.load_fails_iff _ w, exec_shadowPulse_of_good runs hw⟩⟩,
      fun stopped => exec_shadow_of_stopped stopped word⟩,
    fun code => ⟨s.shadowLost d, ?_, ?_, ?_, ?_, s.shadowLost_keeps d⟩⟩
  · exact ⟨_, exec_linkPacketReceive_of_good has up ⟨hseq, hlen, hcrc⟩, State.link_setLink_same _ _ _, rfl⟩
  · have refused : ¬ s.packetGood k seq body crc := fun ⟨hseq, hlen, hcrc⟩ =>
      bad.elim (fun h => h hseq) (fun h => h.elim (fun long => absurd hlen (by omega)) (fun h => h hcrc))
    rw [exec_linkPacketReceive_of_bad has up refused]
    exact ⟨fun few => if_neg (by omega), fun fourth => if_pos fourth⟩
  · cases c with
    | comparator => exact absurd rfl hc
    | replays => exact ⟨exec_linkFailure_reported rfl rfl, exec_linkFailure_reported rfl rfl⟩
    | training => exact ⟨exec_linkFailure_reported rfl rfl, exec_linkFailure_reported rfl rfl⟩
  · have has : s.hasLink .keeperCompare = true := by simp [State.hasLink, hv]
    cases c <;> exact exec_linkFailure_reported rfl has
  · rintro rfl
    exact ⟨s.shadowFails_eq _ code, s.shadowLost_waits l, s.shadow_shadowLost (.lane l)⟩
  · rintro rfl
    exact ⟨s.shadowFails_eq .keeper code, s.shadow_shadowLost .keeper⟩
  · rintro rfl
    exact ⟨s.shadowFails_eq .keeper2 code, s.shadow_shadowLost .keeper2⟩
  · rintro rfl
    exact ⟨s.shadowFails_eq .field code, s.shadow_shadowLost .field⟩

end Sys2Proof.Proofs

/-! SUPPORT. The end of a task's work in a lane: what its speculation context, its `VX_SUBMIT` write and its submission leave. -/

namespace Sys2Proof.Machine
open Sys2Proof.Safety

/-! ### A task and a context of a lane -/

@[simp] theorem State.lt_modLt_same (s : State) (l t : Nat) (f : LaneTask → LaneTask) : (s.modLt l t f).lt l t = f (s.lt l t) := by
  simp [State.lt, State.modLt]

@[simp] theorem State.ctx_modCtx_same (s : State) (l t : Nat) (f : SpecCtx → SpecCtx) : (s.modCtx l t f).ctx l t = f (s.ctx l t) := by
  simp [State.ctx, State.modCtx]

@[simp] theorem State.ctx_p (s : State) (f : Fld) (v l t : Nat) : (s.p f v).ctx l t = s.ctx l t := by simp [State.ctx]

@[simp] theorem State.modCtx_mem (s : State) (l t : Nat) (f : SpecCtx → SpecCtx) : ((s.modCtx l t f).lane l).mem = (s.lane l).mem := by
  simp [State.modCtx]

@[simp] theorem State.g_modCtx (s : State) (l t : Nat) (h : SpecCtx → SpecCtx) (f : Fld) : (s.modCtx l t h).g f = s.g f := State.g_modLane _ _ _ _

@[simp] theorem State.modLt_regs (s : State) (l t : Nat) (h : LaneTask → LaneTask) : (s.modLt l t h).regs = s.regs := State.modLane_regs _ _ _

/-! ### Speculation contexts (R127, R132) -/

theorem State.g_ctxClock (s : State) (l t : Nat) (f : Fld) : (s.ctxClock l t).g f = s.g f := State.g_modCtx _ _ _ _ _

/-- The clock of a context counts how long it has run and nothing else. -/
theorem State.ctx_ctxClock (s : State) (l t : Nat) : ∃ ran since, (s.ctxClock l t).ctx l t = { s.ctx l t with ran := ran, runSince := since } :=
  ⟨_, _, State.ctx_modCtx_same _ _ _ _⟩

theorem State.ctxClock_mem (s : State) (l t : Nat) : ((s.ctxClock l t).lane l).mem = (s.lane l).mem := State.modCtx_mem _ _ _ _

theorem State.openCtx_runs (s : State) (l t : Nat) : (s.openCtx l t).g (RA_CTX_STATE l t) = csRunning := by
  rw [State.openCtx, State.g_ctxClock, State.g_p_same _ _ _ (by decide : 0 + 3 ≤ 32)]
  rfl

theorem State.openCtx_ctx (s : State) (l t : Nat) : ∃ ran since, (s.openCtx l t).ctx l t =
    { cycle := (s.lt l t).cycle + 1, predicted := s.predicted l t, ran := ran, runSince := since } := by
  obtain ⟨ran, since, h⟩ := State.ctx_ctxClock
    ((s.modCtx l t (fun _ => { cycle := (s.lt l t).cycle + 1, predicted := s.predicted l t })).p (RA_CTX_STATE l t) csRunning) l t
  exact ⟨ran, since, by simp [State.openCtx, h]⟩

theorem State.openCtx_mem (s : State) (l t : Nat) : ((s.openCtx l t).lane l).mem = (s.lane l).mem := by
  simp [State.openCtx, State.ctxClock_mem]

theorem State.stallCtx_stalls (s : State) (l t : Nat) (ops : List CoreOp) : (s.stallCtx l t ops).g (RA_CTX_STATE l t) = csStalled := by
  rw [State.stallCtx, State.g_ctxClock, State.g_modCtx, State.g_p_same _ _ _ (by decide : 0 + 3 ≤ 32)]
  rfl

theorem State.stallCtx_ctx (s : State) (l t : Nat) (ops : List CoreOp) :
    ((s.stallCtx l t ops).ctx l t).stalled = ops ∧ ((s.stallCtx l t ops).ctx l t).log = (s.ctx l t).log := by
  obtain ⟨ran, since, h⟩ := State.ctx_ctxClock ((s.p (RA_CTX_STATE l t) csStalled).modCtx l t (fun c => { c with stalled := ops })) l t
  simp [State.stallCtx, h]

theorem State.stallCtx_mem (s : State) (l t : Nat) (ops : List CoreOp) : ((s.stallCtx l t ops).lane l).mem = (s.lane l).mem := by
  simp [State.stallCtx, State.ctxClock_mem]

/-! ### The end of a task's work (R46, R71, R100) -/

/-- Accesses that all are done come before the rest of the work. -/
theorem State.work_append_of_done {l : Lane} {t : Nat} {ops : List CoreOp} {s a : State} (h : doneWork l t ops s = some a) (rest : List CoreOp) :
    s.work l t (ops ++ rest) = a.work l t rest := by
  induction ops generalizing s with
  | nil => cases h; rfl
  | cons op ops ih =>
    rw [doneWork] at h
    rw [List.cons_append, State.work]
    simp only [Bool.or_eq_true, Bool.not_eq_true'] at h ⊢
    split at h
    · cases h
    rename_i free
    obtain ⟨⟨works, idle⟩, runs⟩ := not_or.1 free |>.imp_left not_or.1
    rw [if_neg works, if_neg (not_or.2 ⟨idle, runs⟩)]
    split at h
    · next b hb =>
      rw [hb]
      exact ih h
    · cases h

theorem State.work_submit_of_idle {a : State} {l : Lane} {t : Nat} (may : MayAccess a l.val t) (spec : a.speculates l.val t = false)
    (idle : a.g (RA_CTX_STATE l.val t) = 0) (ab : Bool) : a.work l t [.submit ab] = a.endTask l t ab := by
  obtain ⟨works, waits, free⟩ := may
  have waits' : ((a.lane l.val).waitOps.any fun e => e.2.1 == a.taskCore t false) = false := by simpa using waits
  have acc : a.access l (some t) (a.taskCore t false) (.submit ab) = (a.endTask l t ab, .done) := by
    simp [State.access, spec, idle]
  have free' : a.mustWait l.val (a.taskCore t false) false (.submit ab) = false := free
  simp [State.work, State.opCore, works, waits', spec, free', acc]

theorem State.work_submit_of_speculating {a : State} {l : Lane} {t : Nat} (may : MayAccess a l.val t) (spec : a.speculates l.val t = true)
    (ab : Bool) : a.work l t [.submit ab] = (a.stallCtx l.val t [.submit ab]).modCtx l.val t (fun k => { k with stalled := k.stalled ++ [] }) := by
  obtain ⟨works, waits, free⟩ := may
  have waits' : ((a.lane l.val).waitOps.any fun e => e.2.1 == a.taskCore t false) = false := by simpa using waits
  have acc : a.access l (some t) (a.taskCore t false) (.submit ab) = (a.stallCtx l.val t [.submit ab], .stalls) := by
    simp [State.access, spec]
  have free' : a.mustWait l.val (a.taskCore t false) true (.submit ab) = false := free
  simp only [State.work, State.opCore, works, waits', spec, free', acc, Bool.not_true, Bool.or_self, Bool.false_eq_true, if_false]

section
variable {s a : State} {l : Lane} {t : Task} {work : List CoreOp} (done : doneWork l t.val work s = some a)
include done

theorem exec_submit_of_done : exec (.submit l t work) s = .next (a.work l t.val [.submit false]) :=
  congrArg Host.Outcome.next (State.work_append_of_done done _)

theorem exec_abandon_of_done : exec (.abandon l t work) s = .next (a.work l t.val [.submit true]) :=
  congrArg Host.Outcome.next (State.work_append_of_done done _)

end

theorem State.endTask_of_busy {a : State} {l : Lane} (t : Nat) (busy : a.on (VX_SUBSTAT_BUSY l.val) = true) (ab : Bool) :
    a.endTask l t ab = a.rejectSubmit l.val := by
  simp [State.endTask, busy]

theorem State.endTask_of_free {a : State} {l : Lane} {t : Nat} (free : a.on (VX_SUBSTAT_BUSY l.val) = false)
    (idle : a.g (RA_CTX_STATE l.val t) = 0) (runs : (a.lt l.val t).phase = .executing) (ab : Bool) :
    a.endTask l t ab = if ab then a.abandonCycle l.val t else a.submitNow l t := by
  simp [State.endTask, free, idle, runs]

/-- A discarded submission leaves the mark `REJECT` and a notice (R71). -/
theorem State.rejectSubmit_eq (a : State) (i : Nat) : ∃ b : State, b.on (VX_SUBSTAT_REJECT i) = true ∧ OnlyRegs a b (regIn [VX_SUBSTAT_REJECT i]) ∧
    a.rejectSubmit i = b.notice 0x10 1 i (b.word (VX_SUBSTAT_BUSY i)) := by
  refine ⟨a.p (VX_SUBSTAT_REJECT i) 1, ?_, ⟨rfl, fun x hx => State.rd_p_ne _ _ (fun e => hx ⟨_, List.mem_singleton_self _, e⟩)⟩, rfl⟩
  rw [State.on, State.g_p_same a (VX_SUBSTAT_REJECT i) 1 (by decide : 2 + 1 ≤ 32)]
  rfl

/-- An abandoned cycle keeps its number, the dirty words and the memory (R100). -/
theorem State.abandonCycle_spec (a : State) (i k : Nat) : ((a.abandonCycle i k).lt i k).phase = .abandoned ∧
    ((a.abandonCycle i k).lt i k).cycle = (a.lt i k).cycle ∧ a.abandonCycle i k = a.modLane i (fun _ => (a.abandonCycle i k).lane i) ∧
    ((a.abandonCycle i k).lane i).dirty = (a.lane i).dirty ∧ ((a.abandonCycle i k).lane i).mem = (a.lane i).mem := by
  simp [State.abandonCycle, State.modLt, State.lt, State.modLane]

/-! ### What is submitted (R46 to R48) -/

theorem State.submission_spec (s : State) (l t : Nat) : (s.submission l t).digest = (s.lane l).dig t ∧ Machine.deltaBytes (s.submission l t).runs ≤ 16384 ∧
    ((s.submission l t).oversize = true → (s.submission l t).runs = []) := by
  dsimp only [State.submission]
  refine ⟨rfl, ?_, fun h => if_pos (of_decide_eq_true h)⟩
  split
  · exact Nat.zero_le _
  · omega

/-- `VX_SUBSTAT` as it shows a submission that is being sent (R71). -/
def State.showSub (s : State) (l t : Nat) (u : Sub) : State :=
  (((s.pb (VX_SUBSTAT_OVERSIZE l) u.oversize).p (VX_SUBSTAT_TASK l) t).p (VX_SUBSTAT_LEN l) (Machine.deltaBytes u.runs)).p (VX_SUBSTAT_BUSY l) 1

/-- A lane without the dirty words that its submission takes, with the digest that it carries (R46, R48). -/
def LaneSt.handOver (x : LaneSt) (keeps : Nat → Bool) (t : Nat) (d : BitVec 128) : LaneSt :=
  { x with dirty := x.dirty.filter keeps, snap := tabSet (fun _ => 0) x.snap t d }

theorem State.submitted_eq (s : State) (l t : Nat) (u : Sub) : ∃ till, s.submitted l t u =
    (((s.modLane l (·.handOver (fun w => !s.ownsWord l t w) t u.digest)).showSub l t u).modLane l
      (fun x => { x with sendUntil := till })).modLt l t (fun y => { y with phase := .submitted, retWords := [] }) := ⟨_, rfl⟩

@[simp] theorem State.lane_showSub (s : State) (l t k : Nat) (u : Sub) : (s.showSub l t u).lane k = s.lane k := by
  simp [State.showSub, State.pb]

/-- A submission leaves the lane's memory alone (R46, R48). -/
theorem State.submitted_lane (s : State) (l t : Nat) (u : Sub) :
    ((s.submitted l t u).lt l t).phase = .submitted ∧ tabGet (fun _ => 0) ((s.submitted l t u).lane l).snap t = u.digest ∧
    (∀ w, w ∈ ((s.submitted l t u).lane l).dirty ↔ w ∈ (s.lane l).dirty ∧ s.ownsWord l t w = false) ∧
    ((s.submitted l t u).lane l).mem = (s.lane l).mem := by
  obtain ⟨till, h⟩ := s.submitted_eq l t u
  refine ⟨by simp [h], ?_⟩
  simp [h, State.modLt, LaneSt.handOver]

theorem State.submitted_regs (s : State) (l t : Nat) (u : Sub) : (s.submitted l t u).regs = (s.showSub l t u).regs := by
  obtain ⟨till, h⟩ := s.submitted_eq l t u
  simp [h, State.showSub, State.p, State.pb]

/-- What `VX_SUBSTAT` shows of a submission (R71). -/
theorem State.submitted_substat (s : State) (l : Nat) (t : Task) (u : Sub) :
    (s.submitted l t.val u).g (VX_SUBSTAT_TASK l) = t.val ∧ (s.submitted l t.val u).on (VX_SUBSTAT_OVERSIZE l) = u.oversize ∧
    (s.submitted l t.val u).on (VX_SUBSTAT_BUSY l) = true ∧ RegsKeep s (s.submitted l t.val u) (regIn [VX_SUBSTAT_TASK l]) := by
  simp only [State.on, State.g, State.submitted_regs, RegsKeep, State.showSub, State.p, State.pb]
  refine ⟨?_, ?_, ?_, fun a ha => ?_⟩
  · rw [Regs.g_p_apart _ _ (by decide : 0 + 1 ≤ 32) (by decide : 0 + 1 ≤ 4 ∨ 4 + 4 ≤ 0),
      Regs.g_p_apart _ _ (by decide : 16 + 15 ≤ 32) (by decide : 16 + 15 ≤ 4 ∨ 4 + 4 ≤ 16), Regs.g_p_same _ _ _ (by decide : 4 + 4 ≤ 32)]
    exact Nat.mod_eq_of_lt t.isLt
  · rw [Regs.g_p_apart _ _ (by decide : 0 + 1 ≤ 32) (by decide : 0 + 1 ≤ 1 ∨ 1 + 1 ≤ 0),
      Regs.g_p_apart _ _ (by decide : 16 + 15 ≤ 32) (by decide : 16 + 15 ≤ 1 ∨ 1 + 1 ≤ 16),
      Regs.g_p_apart _ _ (by decide : 4 + 4 ≤ 32) (by decide : 4 + 4 ≤ 1 ∨ 1 + 1 ≤ 4), Regs.g_p_same _ _ _ (by decide : 1 + 1 ≤ 32)]
    cases u.oversize <;> rfl
  · rw [Regs.g_p_same _ _ _ (by decide : 0 + 1 ≤ 32)]
    rfl
  · have other : a ≠ laneBase l + 0x60000 + 0x8 := fun e => ha ⟨_, List.mem_singleton_self _, e⟩
    rw [Regs.rd_p_ne _ _ other, Regs.rd_p_ne _ _ other, Regs.rd_p_ne _ _ other, Regs.rd_p_ne _ _ other]

/-- A submission goes to the vote, and the next cycle's context opens where the lane speculates on the task (R46, R127). -/
theorem State.submitNow_eq (a : State) (l : Lane) (t : Task) :
    let b := (a.submitted l.val t.val (a.submission l.val t.val)).arriveSub l t (a.lt l.val t.val).cycle (a.submission l.val t.val)
    a.submitNow l t.val = if b.maySpeculate l.val t.val = true ∧ b.running = true then b.openCtx l.val t.val else b := by
  have number : Fin.ofNat 16 t.val = t := Fin.ofNat_val_eq_self t
  simp only [State.submitNow, number, Bool.and_eq_true]

/-- A `VX_SUBMIT` write in a speculating context waits for the verdict (R132). -/
theorem State.work_submit_stalls {a : State} {l : Lane} {t : Nat} (may : MayAccess a l.val t) (spec : a.speculates l.val t = true) (ab : Bool) :
    let b := a.work l t [.submit ab]
    b.g (RA_CTX_STATE l.val t) = 2 ∧ (b.ctx l.val t).stalled = [.submit ab] ∧ (b.ctx l.val t).log = (a.ctx l.val t).log ∧
      (b.lane l.val).mem = (a.lane l.val).mem := by
  obtain ⟨stalled, log⟩ := a.stallCtx_ctx l.val t [.submit ab]
  rw [State.work_submit_of_speculating may spec]
  simp [stalled, log, State.stallCtx_stalls, State.stallCtx_mem]

end Sys2Proof.Machine

namespace Sys2Proof.Proofs
open Sys2Proof.Machine Sys2Proof.Safety

/-- Settles O23: the work that is done leaves the `VX_SUBMIT` write alone, which ends the task's cycle, is discarded or stalls. -/
theorem submissionEndsACycle : Obligations.SubmissionEndsACycle := by
  refine ⟨fun s a l t work done may => ⟨fun spec idle free runs => ?_, fun spec idle busy => ?_, fun spec => ?_⟩,
    fun s l t => ⟨⟨s.openCtx_runs _ _, ?_⟩, s.submission_spec _ _, fun u => ?_⟩⟩
  · have ends ab := (State.work_submit_of_idle may spec idle ab).trans (State.endTask_of_free free idle runs ab)
    refine ⟨?_, _, exec_abandon_of_done done, ?_⟩
    · exact (exec_submit_of_done done).trans (congrArg _ ((ends false).trans (a.submitNow_eq l t)))
    · rw [ends]
      exact a.abandonCycle_spec _ _
  · obtain ⟨b, reject, only, notice⟩ := a.rejectSubmit_eq l.val
    have ends ab := (State.work_submit_of_idle may spec idle ab).trans ((State.endTask_of_busy _ busy ab).trans notice)
    exact ⟨b, reject, only, (exec_submit_of_done done).trans (congrArg _ (ends false)), (exec_abandon_of_done done).trans (congrArg _ (ends true))⟩
  · exact ⟨⟨_, exec_submit_of_done done, State.work_submit_stalls may spec false⟩, _, exec_abandon_of_done done, State.work_submit_stalls may spec true⟩
  · obtain ⟨ran, since, h⟩ := s.openCtx_ctx l.val t.val
    simp [h, State.openCtx_mem]
  · obtain ⟨phase, snap, dirty, mem⟩ := s.submitted_lane l.val t.val u
    obtain ⟨task, oversize, busy, keep⟩ := s.submitted_substat l.val t u
    exact ⟨phase, snap, dirty, mem, task, oversize, busy, keep⟩

end Sys2Proof.Proofs

/-! SUPPORT. An image's delivery to a lane and the start of its execution: parts of a memory taken from another, `VX_IMGSTAT`, the start of Execute. -/

namespace Sys2Proof.Machine
open Sys2Proof.Safety

/-! ### Parts of an image (R43) -/

theorem tabGet_of_lt {α : Type} (d : Nat → α) {t : Tab α} {lo a : Nat} (sorted : tabSorted lo t = true) (h : a < lo) : tabGet d t a = d a := by
  induction t generalizing lo with
  | nil => rfl
  | cons e t ih =>
    obtain ⟨j, x⟩ := e
    simp only [tabSorted, Bool.and_eq_true, decide_eq_true_eq] at sorted
    rw [tabGet, if_neg (by omega), ih sorted.2 (by omega)]

/-- Cells with rising addresses written one after another: what they list is read back, the rest is as before. -/
theorem Mem.rd_foldl_wr {cells : Mem} {lo : Nat} (sorted : tabSorted lo cells = true) (m : Mem) (a : Nat) :
    (cells.foldl (fun (m : Mem) e => m.wr e.1 e.2) m).rd a = tabGet (fun _ => m.rd a) cells a := by
  induction cells generalizing lo m with
  | nil => rfl
  | cons e cells ih =>
    obtain ⟨j, b⟩ := e
    simp only [tabSorted, Bool.and_eq_true] at sorted
    rw [List.foldl_cons, ih sorted.2, tabGet]
    split
    case isTrue h =>
      subst h
      rw [tabGet_of_lt _ sorted.2 (Nat.lt_succ_self j), Mem.rd_wr_same]
    case isFalse h => rw [Mem.rd_wr_ne _ _ (Ne.symm h)]

theorem takeParts_rd (ps : List (Nat × Nat)) (dst : Mem) {src : Mem} (n : Nat) (wf : Memory.wf src = true) :
    (takeParts ps dst src).rd n = if inParts ps n = true then src.rd n else dst.rd n := by
  obtain ⟨sorted, -⟩ := (Bool.and_eq_true _ _).mp wf
  rw [takeParts, Mem.rd_foldl_wr (tabSorted_filter _ sorted)]
  split
  case isTrue h =>
    rw [tabGet_filter_in _ _ (inParts ps) h]
    exact congrArg (fun b => tabGet (fun _ => b) src n) (tabGet_filter_out byte0 dst (fun a => !inParts ps a) (by simpa using h))
  case isFalse h =>
    rw [tabGet_filter_out _ _ (inParts ps) (by simpa using h)]
    exact tabGet_filter_in byte0 dst (fun a => !inParts ps a) (by simpa using h)

/-! ### Execute (R85, R98) -/

theorem State.startIfDue_of_due {s : State} {l t : Nat} (ready : (s.lt l t).phase = .ready) (idle : s.g (RA_CTX_STATE l t) = 0)
    (due : s.startDue t (s.lt l t).cycle = true) (free : s.notDispatched l t = false) :
    s.startIfDue l t = s.modLt l t (fun y => { y with phase := .executing }) :=
  if_pos (by simp [ready, idle, due, free])

theorem State.startIfDue_of_not_due {s : State} {l t : Nat} (h : ¬ ((s.lt l t).phase = .ready ∧ s.g (RA_CTX_STATE l t) = 0 ∧
    s.startDue t (s.lt l t).cycle = true ∧ s.notDispatched l t = false)) : s.startIfDue l t = s :=
  if_neg (by simpa [and_assoc] using h)

theorem exec_cycleStart {s : State} {l : Lane} {t : Task} (works : s.worksOn l.val t.val = true) (ready : (s.lt l.val t.val).phase = .ready)
    (idle : s.g (RA_CTX_STATE l.val t.val) = 0) (free : s.notDispatched l.val t.val = false) :
    exec (.cycleStart l t) s = .next (s.modLt l.val t.val (fun y => { y with phase := .executing })) :=
  if_pos (by simp [works, ready, idle, free])

/-- A task's change of phase leaves the rest of its lane and everything outside the lane. -/
theorem State.modLt_phase (s : State) (l t : Nat) (p : LanePhase) :
    let b := s.modLt l t (fun y => { y with phase := p })
    (b.lt l t).phase = p ∧ (b.lt l t).cycle = (s.lt l t).cycle ∧ b = s.modLane l (fun _ => b.lane l) ∧
      (b.lane l).mem = (s.lane l).mem ∧ (b.lane l).img = (s.lane l).img := by
  simp [State.modLt, State.lt, State.modLane]

/-! ### Delivery (R42, R45) -/

/-- A lane with a task's part of a new complete image; `prev` is what the part before it is kept from. -/
def LaneSt.delivered (x : LaneSt) (ps : List (Nat × Nat)) (prev new : Mem) : LaneSt :=
  { x with imgPrev := takeParts ps x.imgPrev prev, img := takeParts ps x.img new }

/-- The image of cycle `k` in a lane, before the verdict and the start that it brings. -/
def State.imageDelivered (s : State) (l t k : Nat) : State :=
  let new := (s.task t).prevImg
  (((s.modLane l (fun y => y.delivered (s.imgParts t) (if (s.lt l t).phase == .idle then new else y.img) new)).modLt l t
    (fun y => { y with phase := .ready, cycle := k })).p (VX_IMGSTAT_TASK l) t).p (VX_IMGSTAT_CYCLE l) k

theorem exec_imageDelivery {s : State} {l : Lane} {t : Task} {work : List CoreOp}
    (may : (s.work l t.val work).mayDeliver l.val t.val = true) :
    let a := s.work l t.val work
    let x := a.task t.val
    exec (.imageDelivery l t work) s = .next (((a.imageDelivered l.val t.val (x.imageCycle t.val)).imgVerdict l.val t.val (x.imageCycle t.val)
      (a.badReads l.val t.val x.prevImg x.mask)).startIfDue l.val t.val) :=
  if_neg (by simp [may])

theorem State.imageDelivered_lane (s : State) (l t k : Nat) :
    ((s.imageDelivered l t k).lane l).img = takeParts (s.imgParts t) (s.lane l).img (s.task t).prevImg ∧
    ((s.lt l t).phase ≠ .idle →
      ((s.imageDelivered l t k).lane l).imgPrev = takeParts (s.imgParts t) (s.lane l).imgPrev (s.lane l).img) ∧
    ((s.imageDelivered l t k).lt l t).phase = .ready ∧ ((s.imageDelivered l t k).lt l t).cycle = k ∧
    ((s.imageDelivered l t k).lane l).mem = (s.lane l).mem := by
  simp +contextual [State.imageDelivered, State.modLt, State.lt, LaneSt.delivered]

/-- What `VX_IMGSTAT` shows of a delivered image (R45). -/
theorem State.imageDelivered_imgstat (s : State) (l : Nat) (t : Task) (k : Nat) :
    (s.imageDelivered l t.val k).g (VX_IMGSTAT_TASK l) = t.val ∧
    (s.imageDelivered l t.val k).g (VX_IMGSTAT_CYCLE l) = k % 2 ^ (VX_IMGSTAT_CYCLE l).w ∧
    RegsKeep s (s.imageDelivered l t.val k) (regIn [VX_IMGSTAT_TASK l, VX_IMGSTAT_CYCLE l]) := by
  refine ⟨?_, State.g_p_same _ _ _ (by decide : 16 + 16 ≤ 32), fun a ha => ?_⟩
  · rw [State.imageDelivered, State.g_p_apart _ _ (by decide : 16 + 16 ≤ 32) (by decide : 16 + 16 ≤ 0 ∨ 0 + 4 ≤ 16),
      State.g_p_same _ _ _ (by decide : 0 + 4 ≤ 32)]
    exact Nat.mod_eq_of_lt t.isLt
  · rw [State.imageDelivered, State.rd_p_ne _ _ (fun e => ha ⟨VX_IMGSTAT_CYCLE l, by simp, e⟩),
      State.rd_p_ne _ _ (fun e => ha ⟨VX_IMGSTAT_TASK l, by simp, e⟩), State.modLt_regs, State.modLane_regs]

end Sys2Proof.Machine

namespace Sys2Proof.Proofs
open Sys2Proof.Machine Sys2Proof.Safety

/-- Settles O24: what a delivered image leaves in the lane and in `VX_IMGSTAT`, what its parts read, and when Execute begins. -/
theorem imagesAreDeliveredAndExecuted : Obligations.ImagesAreDeliveredAndExecuted := by
  intro s l t work
  refine ⟨fun may => ?_, fun ps dst src n wf => takeParts_rd ps dst n wf, ⟨fun ⟨ready, idle, due, free⟩ => ?_, State.startIfDue_of_not_due⟩,
    fun works ready idle free => ⟨_, exec_cycleStart works ready idle free, State.modLt_phase _ _ _ _⟩⟩
  · obtain ⟨img, prev, phase, cycle, mem⟩ := (s.work l t.val work).imageDelivered_lane l.val t.val (((s.work l t.val work).task t.val).imageCycle t.val)
    obtain ⟨task, number, keep⟩ := (s.work l t.val work).imageDelivered_imgstat l.val t (((s.work l t.val work).task t.val).imageCycle t.val)
    exact ⟨_, exec_imageDelivery may, img, prev, phase, cycle, mem, task, number, keep⟩
  · rw [State.startIfDue_of_due ready idle due free]
    simp

end Sys2Proof.Proofs

/-! SUPPORT. Votes as their windows close: the majority, the end of a window, the vote of a task's cycle and those of its streams. -/

namespace Sys2Proof.Machine
open Sys2Proof.Safety

/-! ### Majorities and windows (R55, R143) -/

theorem two_le_of_agreed {α : Type} [BEq α] {xs : List α} {w : α} (h : agreed xs = some w) : 2 ≤ (xs.filter (· == w)).length := by
  simpa using List.find?_some h

theorem lt_two_of_not_agreed {α : Type} [BEq α] [LawfulBEq α] {xs : List α} (h : agreed xs = none) (w : α) : (xs.filter (· == w)).length < 2 := by
  by_contra many
  obtain ⟨x, hx⟩ := List.exists_mem_of_length_pos (show 0 < (xs.filter (· == w)).length by omega)
  obtain ⟨posted, same⟩ := List.mem_filter.1 hx
  obtain rfl := eq_of_beq same
  exact List.find?_eq_none.1 h x posted (decide_eq_true (not_lt.1 many))

theorem State.windowOver_iff (s : State) (n since us : Nat) : s.windowOver n since us = true ↔ since + us * 1000 ≤ s.tu.upNs ∧
    ((tabGet (fun _ => ({} : TaskDesc)) s.app.pkg.tasks n).runahead = true → (s.task n).next ≤ s.now) := by
  cases h : (tabGet (fun _ => ({} : TaskDesc)) s.app.pkg.tasks n).runahead <;> simp [State.windowOver, h]

/-! ### The vote of a task's cycle (R55, R56, R67) -/

section
variable {s : State} {t : Task} {v : CycVote} (opened : s.openVote t = some v)
include opened

theorem exec_voteWindowClose_early (early : s.windowOver t.val v.since (s.g VX_CTRL_WINDOW) = false) : exec (.voteWindowClose t) s = .next s := by
  change execVoteWindowClose t s = _
  simp [execVoteWindowClose, opened, early]

variable (ended : s.windowOver t.val v.since (s.g VX_CTRL_WINDOW) = true)
include ended

theorem exec_voteWindowClose_split (undecided : v.result = none) (split : s.voters.length < 2 ∨ agreed (s.countedSubs v) = none) :
    exec (.voteWindowClose t) s = .next (s.noMajority { v with closed := true } 0x400) := by
  have none_agreed : (if s.voters.length < 2 then none else agreed (s.countedSubs v)) = none := by
    rcases split with few | apart
    · exact if_pos few
    · rw [apart, ite_self]
  have counted : s.countedSubs { v with result := none, closed := true } = s.countedSubs v := rfl
  change execVoteWindowClose t s = _
  simp only [execVoteWindowClose, opened, ended, undecided, counted, none_agreed, Bool.not_true, Bool.false_eq_true, if_false]

theorem exec_voteWindowClose_forms {w : Sub} (undecided : v.result = none) (enough : 2 ≤ s.voters.length) (agree : agreed (s.countedSubs v) = some w) :
    exec (.voteWindowClose t) s = .next ((s.majority { v with closed := true } w).lateLanes { v with closed := true }) := by
  have some_agreed : (if s.voters.length < 2 then none else agreed (s.countedSubs v)) = some w := by rw [if_neg (by omega), agree]
  have counted : s.countedSubs { v with result := none, closed := true } = s.countedSubs v := rfl
  change execVoteWindowClose t s = _
  simp only [execVoteWindowClose, opened, ended, undecided, counted, some_agreed, Bool.not_true, Bool.false_eq_true, if_false]

theorem exec_voteWindowClose_formed {w : Sub} (decided : v.result = some (.majority w)) :
    exec (.voteWindowClose t) s = .next ((s.putVote { v with closed := true }).lateLanes { v with closed := true }) := by
  change execVoteWindowClose t s = _
  simp [execVoteWindowClose, opened, ended, decided]

theorem exec_voteWindowClose_failed (decided : v.result = some .none) :
    exec (.voteWindowClose t) s = .next (s.putVote { v with closed := true }) := by
  change execVoteWindowClose t s = _
  simp [execVoteWindowClose, opened, ended, decided]

end

/-- A vote without a majority, counted and kept as decided, before its report (R56). -/
def State.noMajorityCounted (s : State) (v : CycVote) : State :=
  ((s.inc VX_VOTES_COUNT).inc VX_NOMAJ_COUNT).putVote { v with result := some .none }

theorem State.noMajority_eq (s : State) (v : CycVote) (code : Nat) :
    s.noMajority v code = if 2 ≤ s.voters.length then (s.noMajorityCounted v).report 0x10 3 code else s.noMajorityCounted v := rfl

theorem State.noMajorityCounted_count (s : State) (v : CycVote) :
    (s.noMajorityCounted v).g VX_NOMAJ_COUNT = (s.g VX_NOMAJ_COUNT + 1) % 2 ^ VX_NOMAJ_COUNT.w :=
  (State.g_p_same (s.inc VX_VOTES_COUNT) VX_NOMAJ_COUNT _ (by decide)).trans
    (by rw [State.inc, State.g_p_reg s (f := VX_VOTES_COUNT) (f' := VX_NOMAJ_COUNT) _ (by decide)])

theorem State.noMajorityCounted_keep (s : State) (v : CycVote) : RegsKeep s (s.noMajorityCounted v) (regIn [VX_VOTES_COUNT, VX_NOMAJ_COUNT]) :=
  fun a ha => (State.rd_p_ne (s.inc VX_VOTES_COUNT) (f := VX_NOMAJ_COUNT) _ (fun e => ha ⟨_, by simp, e⟩)).trans
    (State.rd_p_ne s (f := VX_VOTES_COUNT) _ (fun e => ha ⟨_, by simp, e⟩))

/-! ### The votes of commands, retained stores and rack accesses (R69, R156, R362) -/

theorem State.closeStream_fails {s : State} {v : StreamVote} (undecided : v.won = none) (apart : agreed (s.counted v) = none) :
    s.closeStream v = s.streamFails v := by
  simp [State.closeStream, undecided, apart]

theorem State.closeStream_forms {s : State} {v : StreamVote} (undecided : v.won = none) {w : List Byte} (agree : agreed (s.counted v) = some w) :
    s.closeStream v = ((s.streamForms v w).streamLate { v with won := some w }, .formed w) := by
  simp [State.closeStream, undecided, agree]

theorem State.closeStream_formed (s : State) {v : StreamVote} {w : List Byte} (decided : v.won = some w) :
    s.closeStream v = (s.streamLate v, .joined w) := by
  simp [State.closeStream, decided]

/-- A lane whose rack read found no majority takes a bus error (R362). -/
def State.rackReadFails (t place : Nat) (posts : List (Lane × List Byte)) (s : State) (l : Nat) : State :=
  match posts.find? (fun e => e.1.val == l) with
  | some e => if (reqOf e.2).wr.isNone then s.rackBusError l t place (reqOf e.2).a false else s
  | none => s

/-- What follows the outcome of a stream's vote as its window closes: a command runs or is answered, a rack access is made or its reads fail. -/
def State.afterClose (k : StreamKind) (t : Task) (v : StreamVote) : State × Arrival → State
  | (s, .formed w) => match k with
    | .command => (s.runCmd { chans := s.laneChans, hdr := w.take 16, p := w.drop 16 }).endStream v
    | .rack => s.rackAct t.val v.place (reqOf w) (s.task t.val).cycle
    | .retained => s
  | (s, .failed lanes) => match k with
    | .command => s.cmdFails v.posts
    | .rack => lanes.foldl (State.rackReadFails t.val v.place v.posts) s
    | .retained => s
  | (s, _) => match k with
    | .command => s.endStream v
    | _ => s

/-- The task whose window it is; the runtime's own stream is of none. -/
def windowTask : RetStream → Nat
  | .task t => t.val
  | .runtime => 16

section
variable {s : State} {k : StreamKind} {t : Task} {v : StreamVote} (closing : s.closing k t = some v)
include closing

theorem exec_commandWindowClose_early (early : s.windowOver (windowTask v.st) v.since (s.g VX_CTRL_CMDWIN) = false) :
    exec (.commandWindowClose k t) s = .next s := by
  change execCommandWindowClose k t s = _
  rw [execCommandWindowClose, closing]
  exact if_pos (by rw [Bool.not_eq_true']; exact early)

theorem exec_commandWindowClose_over (ended : s.windowOver (windowTask v.st) v.since (s.g VX_CTRL_CMDWIN) = true) :
    exec (.commandWindowClose k t) s = .next (State.afterClose k t v (s.closeStream v)) := by
  change execCommandWindowClose k t s = _
  rw [execCommandWindowClose, closing]
  refine (if_neg (fun e => ?_)).trans ?_
  · exact absurd ended (by rw [Bool.not_eq_true]; rwa [Bool.not_eq_true'] at e)
  · obtain ⟨a, outcome⟩ := s.closeStream v
    cases k <;> cases outcome <;> rfl

end

end Sys2Proof.Machine

namespace Sys2Proof.Proofs
open Sys2Proof.Machine Sys2Proof.Safety

/-- Settles O33: the majority, the end of a window, and what the close of a cycle's and of a stream's vote does by the vote's outcome. -/
theorem voteWindowsClose : Obligations.VoteWindowsClose := by
  intro s k t
  refine ⟨fun _ _ => two_le_of_agreed, fun _ => lt_two_of_not_agreed, s.windowOver_iff, fun _ => rfl,
    fun v opened => ⟨exec_voteWindowClose_early opened, fun ended => ⟨exec_voteWindowClose_split opened ended,
      fun _ undecided => exec_voteWindowClose_forms opened ended undecided, fun _ => exec_voteWindowClose_formed opened ended,
      exec_voteWindowClose_failed opened ended⟩⟩,
    fun v => ⟨_, s.noMajority_eq v 0x400, s.noMajorityCounted_count v, rfl, rfl, rfl, s.noMajorityCounted_keep v⟩,
    fun v closing => ⟨exec_commandWindowClose_early closing, fun ended => ?_⟩⟩
  have close := exec_commandWindowClose_over closing ended
  refine ⟨fun undecided apart => ?_, fun w undecided agree => ?_, fun w decided => ?_⟩
  · rw [close, State.closeStream_fails undecided apart]
    refine ⟨?_, ?_, ?_⟩ <;> rintro rfl <;> rfl
  · rw [close, State.closeStream_forms undecided agree]
    refine ⟨?_, ?_, ?_⟩ <;> rintro rfl <;> rfl
  · rw [close, State.closeStream_formed s decided]
    cases k <;> rfl

end Sys2Proof.Proofs

/-! SUPPORT. The life of a lane and the start of the application: which registers a change of a lane's state writes, the spare, self-test, copy and
quiet gap, failed attempts, the anchor. -/

namespace Sys2Proof.Safety
open Sys2Proof.Machine

/-! ### Registers that an operation leaves alone -/

theorem RegsKeep.refl (s : State) (as : Nat → Prop) : RegsKeep s s as := fun _ _ => rfl

theorem RegsKeep.trans {a b c : State} {as : Nat → Prop} (h : RegsKeep a b as) (k : RegsKeep b c as) : RegsKeep a c as :=
  fun x hx => (k x hx).trans (h x hx)

theorem RegsKeep.mono {s t : State} {as bs : Nat → Prop} (h : RegsKeep s t as) (sub : ∀ a, as a → bs a) : RegsKeep s t bs :=
  fun a ha => h a (fun e => ha (sub a e))

theorem RegsKeep.g {s t : State} {as : Nat → Prop} (h : RegsKeep s t as) {f : Fld} (hf : ¬ as f.reg) : t.g f = s.g f := by
  rw [State.g, State.g, Regs.g, Regs.g, h _ hf]

theorem OnlyRegs.refl (s : State) (as : Nat → Prop) : OnlyRegs s s as := ⟨rfl, RegsKeep.refl s as⟩

theorem OnlyRegs.trans {a b c : State} {as : Nat → Prop} (h : OnlyRegs a b as) (k : OnlyRegs b c as) : OnlyRegs a c as := by
  refine ⟨?_, h.2.trans k.2⟩
  conv_lhs => rw [k.1, h.1]

theorem OnlyRegs.mono {s t : State} {as bs : Nat → Prop} (h : OnlyRegs s t as) (sub : ∀ a, as a → bs a) : OnlyRegs s t bs := ⟨h.1, h.2.mono sub⟩

theorem OnlyRegs.of_p (s : State) {f : Fld} (v : Nat) {as : Nat → Prop} (hf : as f.reg) : OnlyRegs s (s.p f v) as :=
  ⟨rfl, fun _ ha => State.rd_p_ne s v (fun e => ha (e ▸ hf))⟩

theorem OnlyRegs.p {s t : State} {as : Nat → Prop} (h : OnlyRegs s t as) (f : Fld) (v : Nat) (hf : as f.reg) : OnlyRegs s (t.p f v) as :=
  h.trans (OnlyRegs.of_p t v hf)

theorem OnlyRegs.foldl {α : Type} {s t : State} {as : Nat → Prop} {f : State → α → State} {l : List α}
    (hf : ∀ t x, OnlyRegs s t as → OnlyRegs s (f t x) as) (h : OnlyRegs s t as) : OnlyRegs s (l.foldl f t) as := by
  induction l generalizing t with
  | nil => exact h
  | cons x l ih => exact ih (hf t x h)

theorem OnlyRegs.ite {s a b : State} {as : Nat → Prop} {p : Prop} [Decidable p] (ha : OnlyRegs s a as) (hb : OnlyRegs s b as) :
    OnlyRegs s (if p then a else b) as := by
  split <;> assumption

theorem OnlyRegs.g {s t : State} {as : Nat → Prop} (h : OnlyRegs s t as) {f : Fld} (hf : ¬ as f.reg) : t.g f = s.g f := h.2.g hf

theorem OnlyRegs.lane {s t : State} {as : Nat → Prop} (h : OnlyRegs s t as) (k : Nat) : t.lane k = s.lane k := by
  rw [h.1]; unfold State.lane; split <;> rfl

theorem OnlyRegs.mb {s t : State} {as : Nat → Prop} (h : OnlyRegs s t as) : t.mb = s.mb := by rw [h.1]

end Sys2Proof.Safety

namespace Sys2Proof.Machine
open Sys2Proof.Safety

/-- The addresses of the lanes' own blocks, which lie above all others (R35). -/
def lanePage (a : Nat) : Prop := 0x70000000 ≤ a

theorem lanePage_base (l k k' : Nat) : lanePage (laneBase l + k + k') := by
  simp only [lanePage, laneBase]; omega

theorem not_lanePage {a : Nat} (h : a < 0x70000000) : ¬ lanePage a := Nat.not_le.2 h

/-! ### Lane states (R62, R68) -/

theorem laneFld_eq : ∀ k, laneFld k = ⟨0x40000004, 4 * min k 3, 4⟩
  | 0 => rfl
  | 1 => rfl
  | 2 => rfl
  | k + 3 => by rw [show min (k + 3) 3 = 3 by omega]; rfl

theorem laneFld_reg (k : Nat) : (laneFld k).reg = 0x40000004 := by rw [laneFld_eq]

/-- The registers that a change of a lane's state writes. -/
def levelPage (a : Nat) : Prop := lanePage a ∨ a = 0x40000004 ∨ a = 0x40090000

theorem not_levelPage {a : Nat} (h : a < 0x70000000) (h1 : a ≠ 0x40000004) (h2 : a ≠ 0x40090000) : ¬ levelPage a :=
  not_or.2 ⟨not_lanePage h, not_or.2 ⟨h1, h2⟩⟩

theorem State.levels_only (s : State) : OnlyRegs s s.levels levelPage :=
  OnlyRegs.p (OnlyRegs.foldl (fun _ _ h => h.p _ _ (.inl (lanePage_base _ _ _))) (OnlyRegs.of_p s _ (.inr (.inl rfl)))) _ _ (.inr (.inr rfl))

theorem State.setLaneSt_only (s : State) (i st : Nat) : OnlyRegs s (s.setLaneSt i st) levelPage :=
  OnlyRegs.trans (OnlyRegs.p (OnlyRegs.of_p s _ (.inr (.inl (laneFld_reg i)))) _ _ (.inl (lanePage_base _ _ _))) (State.levels_only _)

theorem State.laneSt_of_keep {s t : State} {as : Nat → Prop} (h : RegsKeep s t as) (h1 : ¬ as 0x40000004) (k : Nat) : t.laneSt k = s.laneSt k :=
  h.g (by rwa [laneFld_reg])

theorem State.laneSt_levels (s : State) (k : Nat) : s.levels.laneSt k = s.laneSt k := by
  have level : (s.p VX_LANES_LEVEL s.level).laneSt k = s.laneSt k :=
    State.g_p_apart _ _ (by decide) (.inr (by rw [laneFld_eq]; show 4 * min k 3 + 4 ≤ 16; omega))
  have rest : OnlyRegs (s.p VX_LANES_LEVEL s.level) s.levels (fun a => lanePage a ∨ a = 0x40090000) :=
    OnlyRegs.p (OnlyRegs.foldl (fun _ _ h => h.p _ _ (.inl (lanePage_base _ _ _))) (OnlyRegs.refl _ _)) _ _ (.inr rfl)
  exact (State.laneSt_of_keep rest.2 (not_or.2 ⟨not_lanePage (by decide), by decide⟩) k).trans level

theorem State.laneSt_setLaneSt (s : State) {i k st : Nat} (hi : i < 4) (hk : k < 4) (hst : st < 16) :
    (s.setLaneSt i st).laneSt k = if k = i then st else s.laneSt k := by
  have shown : (s.setLaneSt i st).laneSt k = (s.p (laneFld i) st).g (laneFld k) := by
    rw [State.setLaneSt, State.laneSt_levels]
    exact State.laneSt_of_keep (OnlyRegs.of_p _ _ (lanePage_base i 0x60000 0)).2 (not_lanePage (by decide)) k
  rw [shown, laneFld_eq, laneFld_eq]
  split
  case isTrue h =>
    subst h
    rw [State.g_p_same _ _ _ (show 4 * min k 3 + 4 ≤ 32 by omega)]
    exact Nat.mod_eq_of_lt hst
  case isFalse h =>
    rw [State.laneSt, laneFld_eq]
    exact State.g_p_apart _ _ (show 4 * min i 3 + 4 ≤ 32 by omega) (show 4 * min i 3 + 4 ≤ 4 * min k 3 ∨ 4 * min k 3 + 4 ≤ 4 * min i 3 by omega)

/-- The only lane in a state is the first that a search finds. -/
theorem State.find_lane {s : State} {i st : Nat} (hi : i < 4) (h : ∀ k < 4, s.laneSt k = st ↔ k = i) :
    [0, 1, 2, 3].find? (fun l => s.laneSt l == st) = some i := by
  have at_ (k : Nat) (hk : k < 4) : (s.laneSt k == st) = decide (k = i) := by
    rw [Bool.eq_iff_iff, beq_iff_eq, decide_eq_true_iff]
    exact h k hk
  rw [List.find?_congr (fun k hk => at_ k (by simp at hk; omega))]
  obtain rfl | rfl | rfl | rfl : i = 0 ∨ i = 1 ∨ i = 2 ∨ i = 3 := by omega
  all_goals rfl

/-- A wipe leaves the module's own registers alone (R60, R175). -/
theorem State.wipeLane_keep (s : State) {l : Nat} (b : Bool) (hl : l < 4) : RegsKeep s (s.wipeLane l b) lanePage := by
  intro a ha
  have other : a ≠ laneBase l + 0x60000 + 0x0 := fun e => ha (e ▸ lanePage_base _ _ _)
  dsimp only [State.wipeLane]
  rw [State.rd_p_ne _ (f := VX_LSTAT_LEVEL l) _ other, State.rd_p_ne _ (f := VX_LSTAT_STATE l) _ other,
    State.rd_p_ne _ (f := VX_LSTAT_LANE l) _ other, State.setLane_regs]
  refine tabGet_filter_in regReset s.regs (fun x => x / 0x1000000 != 0x70 + l) ?_
  rw [bne_iff_ne]
  simp only [lanePage] at ha
  omega

theorem State.uninhibit_only (s : State) : OnlyRegs s s.uninhibit lanePage :=
  OnlyRegs.ite (OnlyRegs.refl _ _) (OnlyRegs.foldl (fun _ _ h => h.p _ _ (lanePage_base _ _ _)) (OnlyRegs.refl _ _))

theorem State.votingLanes_of_keep {s t : State} {as : Nat → Prop} (h : RegsKeep s t as) (h1 : ¬ as 0x40000004) : t.votingLanes = s.votingLanes := by
  simp only [State.votingLanes, State.laneSt_of_keep h h1]

theorem State.liveLanes_of_keep {s t : State} {as : Nat → Prop} (h : RegsKeep s t as) (h1 : ¬ as 0x40000004) : t.liveLanes = s.liveLanes := by
  simp only [State.liveLanes, State.laneSt_of_keep h h1]

theorem State.now_of_keep {s t : State} {as : Nat → Prop} (h : RegsKeep s t as) (ns : ¬ as 0x50000000) (era : ¬ as 0x50000004) : t.now = s.now := by
  rw [State.now, State.now, h.g (f := TU_NS_NS) ns, h.g (f := TU_ERA_ERA) era]

/-! ### The spare (R67, R68) -/

/-- The modes in which `VX_CTRL` is written (R12). -/
abbrev spareModes : List Nat := [mBoot, mCommissioning, mMaintenance]

theorem State.writeSpare_of_zm60 {s : State} (h : s.variant = .zm60) : s.writeSpare true = s.notice 0x10 3 0 (s.word VX_CTRL_SPAREEN) := by
  simp [State.writeSpare, h]

theorem State.writeSpare_of_mode {s : State} (hm : s.mode ∈ spareModes) {on : Bool} (h : on = true → s.variant = .zm80) :
    s.writeSpare on = s.setSpare on := by
  have modes : (rwmModes 0x40000000).contains s.mode = true := List.contains_iff_mem.2 hm
  cases on <;> simp_all [State.writeSpare]

theorem State.writeSpare_of_other_mode {s : State} (hm : s.mode ∉ spareModes) (h : s.variant = .zm80) (on : Bool) :
    s.writeSpare on = s.notice 0x22 1 0 (s.word VX_CTRL_SPAREEN) := by
  have modes : s.mode ∉ rwmModes 0x40000000 := hm
  simp [State.writeSpare, h, modes]

theorem State.setSpare_of_same {s : State} {on : Bool} (h : s.on VX_CTRL_SPAREEN = on) : s.setSpare on = s :=
  if_pos (by simp [h])

theorem State.setSpare_of_zm60 {s : State} (h : s.variant = .zm60) (on : Bool) : s.setSpare on = s :=
  if_pos (by simp [h])

theorem State.laneSt_spare (s : State) (v k : Nat) : (s.p VX_CTRL_SPAREEN v).laneSt k = s.laneSt k :=
  State.laneSt_of_keep (OnlyRegs.of_p s (as := (· = 0x40000000)) v rfl).2 (by decide) k

theorem State.setSpare_on {s : State} {i : Nat} (hi : i < 4) (zm80 : s.variant = .zm80) (off : s.on VX_CTRL_SPAREEN = false)
    (absent : ∀ k < 4, s.laneSt k = laAbsent ↔ k = i) :
    s.setSpare true = ((s.p VX_CTRL_SPAREEN 1).setLaneSt i laResetting).wipeLane i true := by
  have found : [0, 1, 2, 3].find? (fun l => (s.p VX_CTRL_SPAREEN 1).laneSt l == laAbsent) = some i :=
    State.find_lane hi (fun k hk => by rw [State.laneSt_spare]; exact absent k hk)
  simp [State.setSpare, State.spareOn, zm80, off, found]

theorem State.setSpare_off {s : State} {i : Nat} (hi : i < 4) (zm80 : s.variant = .zm80) (on : s.on VX_CTRL_SPAREEN = true)
    (spare : ∀ k < 4, s.laneSt k = laSpare ↔ k = i) :
    s.setSpare false = ((s.p VX_CTRL_SPAREEN 0).dropLane i laAbsent).1.reports ((s.p VX_CTRL_SPAREEN 0).dropLane i laAbsent).2 := by
  have found : [0, 1, 2, 3].find? (fun l => (s.p VX_CTRL_SPAREEN 0).laneSt l == laSpare) = some i :=
    State.find_lane hi (fun k hk => by rw [State.laneSt_spare]; exact spare k hk)
  simp [State.setSpare, State.spareOff, zm80, on, found]

theorem exec_sparePromotion {s : State} {i : Nat} (hi : i < 4) (spare : ∀ k < 4, s.laneSt k = laSpare ↔ k = i)
    (few : s.votingLanes.length < 3) : exec .sparePromotion s = .next (((s.setLaneSt i laVoting).joins i).openChan i true) := by
  change execSparePromotion s = _
  simp only [execSparePromotion, State.find_lane hi spare, if_pos few]

/-- The first cycle boundary at or after an instant (R31). -/
theorem nextBoundary_spec (n : Nat) : nextBoundary n % 20000 = 0 ∧ n ≤ nextBoundary n ∧ nextBoundary n < n + 20000 := by
  unfold nextBoundary
  omega

theorem State.joins_keep (s : State) (l : Nat) : RegsKeep s (s.joins l) lanePage := by
  unfold State.joins
  dsimp only
  split
  · exact fun a ha => ((OnlyRegs.of_p _ _ (lanePage_base l 0x10000 0)).2 a ha).trans (by rw [State.modLane_regs])
  · exact fun a _ => by rw [State.modLane_regs]

theorem State.joins_lane (s : State) (l : Nat) :
    (s.joins l).lane l = { s.lane l with countsNow := false, joinAt := nextBoundary s.now, joinedUp := s.tu.upNs } := by
  unfold State.joins
  dsimp only
  split <;> simp

theorem State.joins_mb (s : State) (l : Nat) : (s.joins l).mb = s.mb := by
  unfold State.joins
  dsimp only
  split
  · rw [State.p_mb, State.modLane_mb]
  · rw [State.modLane_mb]

theorem State.openChan_only (s : State) (c : Nat) (voted : Bool) :
    OnlyRegs s (s.openChan c voted) (· = (MB_STAT_EN c).reg) :=
  OnlyRegs.p (OnlyRegs.of_p s (f := MB_STAT_EN c) (as := (· = (MB_STAT_EN c).reg)) 1 rfl) (MB_STAT_VOTED c) _ rfl

theorem State.openChan_opens (s : State) (c : Nat) (voted : Bool) :
    (s.openChan c voted).on (MB_STAT_EN c) = true ∧ (s.openChan c voted).on (MB_STAT_VOTED c) = voted := by
  have en : (s.openChan c voted).g (MB_STAT_EN c) = (s.p (MB_STAT_EN c) 1).g (MB_STAT_EN c) :=
    State.g_p_apart _ (f := MB_STAT_VOTED c) _ (by decide : 18 + 1 ≤ 32) (by decide : 18 + 1 ≤ 17 ∨ 17 + 1 ≤ 18)
  rw [State.on, en, State.g_p_same s (MB_STAT_EN c) 1 (by decide : 17 + 1 ≤ 32)]
  exact ⟨rfl, State.on_pb_same _ (MB_STAT_VOTED c) _ (by decide : 18 + 1 ≤ 32) rfl⟩

/-- A promoted lane votes from the next cycle boundary on, with its channel open and its memory as it was (R31, R67). -/
theorem State.promoted_spec (s : State) {i : Nat} (hi : i < 4) :
    let t := ((s.setLaneSt i laVoting).joins i).openChan i true
    t.laneSt i = laVoting ∧ (∀ k < 4, k ≠ i → t.laneSt k = s.laneSt k) ∧ t.on (MB_STAT_EN i) = true ∧ t.on (MB_STAT_VOTED i) = true ∧
      (t.lane i).joinAt % 20000 = 0 ∧ s.now ≤ (t.lane i).joinAt ∧ (t.lane i).joinAt < s.now + 20000 ∧ (t.lane i).mem = (s.lane i).mem ∧
      t.mb = s.mb := by
  intro t
  have opened := State.openChan_only ((s.setLaneSt i laVoting).joins i) i true
  have states (k : Nat) (hk : k < 4) : t.laneSt k = if k = i then laVoting else s.laneSt k := by
    rw [State.laneSt_of_keep opened.2 (by simp only [MB_STAT_EN]; omega), State.laneSt_of_keep (State.joins_keep _ i) (not_lanePage (by decide)),
      State.laneSt_setLaneSt s hi hk (by decide)]
  have now : (s.setLaneSt i laVoting).now = s.now := State.now_of_keep (s.setLaneSt_only i laVoting).2
    (not_levelPage (by decide) (by decide) (by decide)) (not_levelPage (by decide) (by decide) (by decide))
  have lane : t.lane i = { s.lane i with countsNow := false, joinAt := nextBoundary s.now, joinedUp := (s.setLaneSt i laVoting).tu.upNs } := by
    rw [opened.lane, State.joins_lane, (s.setLaneSt_only i laVoting).lane, now]
  obtain ⟨whole, from_, before⟩ := nextBoundary_spec s.now
  obtain ⟨en, voted⟩ := State.openChan_opens ((s.setLaneSt i laVoting).joins i) i true
  refine ⟨by rw [states i hi, if_pos rfl], fun k hk ne => by rw [states k hk, if_neg ne], en, voted, ?_, ?_, ?_, ?_, ?_⟩
  · rw [lane]; exact whole
  · rw [lane]; exact from_
  · rw [lane]; exact before
  · rw [lane]
  · exact opened.mb.trans ((State.joins_mb _ _).trans (s.setLaneSt_only i laVoting).mb)

/-! ### Reset and self-test (R63) -/

theorem exec_laneResetComplete {s : State} {l : Lane} (resetting : s.laneSt l.val = laResetting) (wiped : (s.lane l.val).lwiping = false)
    (free : (s.lane l.val).held = false) : exec (.laneResetComplete l) s = .next ((s.setLaneSt l.val laPreparing).setLink l.val {}) :=
  if_pos (by simp [resetting, wiped, free])

theorem State.laneSt_setLink (s : State) (n k : Nat) (x : LinkSt) : (s.setLink n x).laneSt k = s.laneSt k := rfl

theorem State.lane_setLink (s : State) (n k : Nat) (x : LinkSt) : (s.setLink n x).lane k = s.lane k := by
  unfold State.lane; split <;> rfl

theorem State.prepared_spec (s : State) {i : Nat} (hi : i < 4) :
    let t := (s.setLaneSt i laPreparing).setLink i {}
    t.laneSt i = laPreparing ∧ (∀ k < 4, k ≠ i → t.laneSt k = s.laneSt k) ∧ t.link i = {} ∧ t.lane i = s.lane i := by
  intro t
  have states (k : Nat) (hk : k < 4) : t.laneSt k = if k = i then laPreparing else s.laneSt k :=
    (State.laneSt_setLink _ i k {}).trans (State.laneSt_setLaneSt s hi hk (by decide))
  exact ⟨by rw [states i hi, if_pos rfl], fun k hk ne => by rw [states k hk, if_neg ne], State.link_setLink_same _ _ _,
    (State.lane_setLink _ i i {}).trans ((s.setLaneSt_only i laPreparing).lane i)⟩

theorem exec_laneSelfTestEnd_fail {s : State} {l : Lane} (preparing : s.laneSt l.val = laPreparing) :
    exec (.laneSelfTestEnd l false) s = .next (((s.setLaneSt l.val laOut).wipeLane l.val true).report 0x10 2 (0x700 + 16 * l.val)) :=
  (if_neg (by simp [preparing])).trans (if_pos rfl)

theorem exec_laneSelfTestEnd_waits {s : State} {l : Lane} (preparing : s.laneSt l.val = laPreparing)
    (waits : (s.lane l.val).waitPulses = true) (few : (s.lane l.val).shadow.good < 1000) : exec (.laneSelfTestEnd l true) s = .next s :=
  (if_neg (by simp [preparing])).trans ((if_neg (by decide)).trans (if_pos (by simp [waits, few])))

/-- A lane that has passed its self-test (R63, R83). -/
def State.selfTested (s : State) (i : Nat) : State := (s.modLane i (fun y => { y with waitPulses := false, prepared := true })).allTests i

theorem lanePage_zero (l k k' : Nat) : lanePage (laneBase l + 0x0 + k + k') := by
  simp only [lanePage, laneBase]; omega

theorem State.allTests_only (s : State) (l : Nat) : OnlyRegs s (s.allTests l) lanePage := by
  have counts := OnlyRegs.foldl (l := [0, 1, 2, 3]) (f := fun (s : State) p => s.p (PX_TESTCNT_COUNT l p) (s.g (PX_TESTCNT_COUNT l p) + 388))
    (fun _ p h => h.p (PX_TESTCNT_COUNT l p) _ (lanePage_zero l 0x40 (4 * p))) (OnlyRegs.refl s lanePage)
  have force : lanePage (laneBase l + 0x0 + 0x20) := lanePage_base l 0 0x20
  have test : lanePage (laneBase l + 0x0 + 0x24) := lanePage_base l 0 0x24
  exact ((((((((counts.p (PX_FORCE_PAIR l) _ force).p (PX_FORCE_GROUP l) _ force).p (PX_FORCE_BIT l) _ force).p (PX_TEST_DONE l) _ test).p
    (PX_TEST_TRIP l) _ test).p (PX_TEST_SYNOK l) _ test).p (PX_TEST_RAILOK l) _ test).p (PX_TEST_PAIR l) _ test)

theorem State.votingLanes_selfTested (s : State) (i : Nat) : (s.selfTested i).votingLanes = s.votingLanes := by
  refine State.votingLanes_of_keep (as := lanePage) (fun a ha => ?_) (not_lanePage (by decide))
  rw [State.selfTested, (State.allTests_only _ i).2 a ha, State.modLane_regs]

section
variable {s : State} {l : Lane} (preparing : s.laneSt l.val = laPreparing) (ready : (s.lane l.val).waitPulses = false ∨ 1000 ≤ (s.lane l.val).shadow.good)
include preparing ready

theorem exec_laneSelfTestEnd_pass : exec (.laneSelfTestEnd l true) s =
    if (s.lane l.val).afterExcl || !s.votingLanes.isEmpty
    then .next (((s.selfTested l.val).startCopy l.val).1.reports ((s.selfTested l.val).startCopy l.val).2)
    else .next (s.selfTested l.val).laneRise := by
  have steady : ¬ ((s.lane l.val).waitPulses && decide ((s.lane l.val).shadow.good < 1000)) = true := by
    rcases ready with h | h <;> simp [h]
  rw [← State.votingLanes_selfTested s l.val]
  exact (if_neg (by simp [preparing])).trans ((if_neg (by decide)).trans (if_neg steady))

theorem exec_laneSelfTestEnd_copies (copies : (s.lane l.val).afterExcl = true ∨ s.votingLanes ≠ []) :
    exec (.laneSelfTestEnd l true) s =
      .next (((s.selfTested l.val).startCopy l.val).1.reports ((s.selfTested l.val).startCopy l.val).2) :=
  (exec_laneSelfTestEnd_pass preparing ready).trans (if_pos (by simpa using copies))

theorem exec_laneSelfTestEnd_rises (fresh : (s.lane l.val).afterExcl = false) (alone : s.votingLanes = []) :
    exec (.laneSelfTestEnd l true) s = .next (s.selfTested l.val).laneRise :=
  (exec_laneSelfTestEnd_pass preparing ready).trans (if_neg (by simp [fresh, alone]))

end

/-! ### Copying (R64, R65) -/

theorem State.votingLanes_lt {s : State} {v : Nat} (h : v ∈ s.votingLanes) : v < 4 := by
  have := (List.mem_filter.1 h).1
  simp only [List.mem_cons, List.not_mem_nil, or_false] at this
  omega

theorem State.copySource_lt {s : State} {v : Nat} (h : s.copySource = some v) : v < 4 := by
  rw [State.copySource] at h
  cases found : s.votingLanes.find? (fun v => (s.lane v).lastAgreed) with
  | some k =>
    rw [found] at h
    cases h
    exact State.votingLanes_lt (List.mem_of_find?_eq_some found)
  | none =>
    rw [found, Option.orElse_none] at h
    split at h
    · exact State.votingLanes_lt (List.mem_of_mem_head? h)
    · cases h

theorem State.beginCopy_eq {s : State} {v : Nat} (i : Nat) (h : s.copySource = some v) : ∃ left, s.beginCopy i =
    ((((((s.copyImage i v).p VX_RSYNC_JOINER i).p VX_RSYNC_SOURCE v).p VX_RSYNC_ACTIVE 1).p VX_RSYNC_ROUND 1).p VX_RSYNCLEFT_KIB left
      |>.modLane v (fun x => { x with pages := [] }), []) := by
  simp only [State.beginCopy, h, Option.orElse_some]
  exact ⟨_, rfl⟩

/-- `VX_RSYNC` as a copy begins (R64, R72). -/
theorem State.beginCopy_rsync {s : State} {i v : Nat} (hi : i < 4) (h : s.copySource = some v) :
    (s.beginCopy i).2 = [] ∧ (s.beginCopy i).1.g VX_RSYNC_JOINER = i ∧ (s.beginCopy i).1.g VX_RSYNC_SOURCE = v ∧
    (s.beginCopy i).1.on VX_RSYNC_ACTIVE = true ∧ (s.beginCopy i).1.g VX_RSYNC_ROUND = 1 ∧ ((s.beginCopy i).1.lane v).pages = [] := by
  have hv := State.copySource_lt h
  obtain ⟨left, eq⟩ := State.beginCopy_eq i h
  simp only [eq, State.on, State.g_modLane, State.lane_modLane_same, true_and, and_true]
  refine ⟨?_, ?_, ?_, ?_⟩
  · rw [State.g_p_reg _ _ (by decide), State.g_p_apart _ _ (by decide) (by decide), State.g_p_apart _ _ (by decide) (by decide),
      State.g_p_apart _ _ (by decide) (by decide), State.g_p_same _ _ _ (by decide)]
    exact Nat.mod_eq_of_lt hi
  · rw [State.g_p_reg _ _ (by decide), State.g_p_apart _ _ (by decide) (by decide), State.g_p_apart _ _ (by decide) (by decide),
      State.g_p_same _ _ _ (by decide)]
    exact Nat.mod_eq_of_lt hv
  · rw [State.g_p_reg _ _ (by decide), State.g_p_apart _ _ (by decide) (by decide), State.g_p_same _ _ _ (by decide)]
    rfl
  · rw [State.g_p_reg _ _ (by decide), State.g_p_same _ _ _ (by decide)]
    rfl

theorem State.mem_liveLanes_lt {s : State} {k : Nat} (h : k ∈ s.liveLanes) : k < 4 := by
  have := (List.mem_filter.1 h).1
  simp only [List.mem_cons, List.not_mem_nil, or_false] at this
  omega

/-- `RA_CTRL.INHIBIT` written in several lanes (R145). -/
theorem State.inhibit_each (ls : List Nat) (v : Nat) (s : State) (k : Nat) :
    (ls.foldl (fun (s : State) l => s.p (RA_CTRL_INHIBIT l) v) s).g (RA_CTRL_INHIBIT k) =
      if k ∈ ls then v % 2 else s.g (RA_CTRL_INHIBIT k) := by
  induction ls generalizing s with
  | nil => rfl
  | cons l ls ih =>
    rw [List.foldl_cons, ih]
    by_cases later : k ∈ ls
    · simp [later]
    by_cases same : k = l
    · subst same
      rw [if_neg later, if_pos List.mem_cons_self, State.g_p_same _ _ _ (by decide : 1 + 1 ≤ 32)]
      rfl
    · have apart : (RA_CTRL_INHIBIT k).reg ≠ (RA_CTRL_INHIBIT l).reg := by
        simp only [RA_CTRL_INHIBIT, laneBase]; omega
      rw [if_neg later, if_neg (by simp [later, same]), State.g_p_reg _ _ apart]

theorem State.inhibit_each_only (ls : List Nat) (v : Nat) (s : State) :
    OnlyRegs s (ls.foldl (fun (s : State) l => s.p (RA_CTRL_INHIBIT l) v) s) lanePage :=
  OnlyRegs.foldl (fun _ _ h => h.p _ _ (lanePage_base _ _ _)) (OnlyRegs.refl _ _)

theorem State.copyMem_regs (s : State) (j v : Nat) : (s.copyMem j v).regs = s.regs := by
  simp only [State.copyMem, State.modLane_regs]

/-- A change of a lane that leaves its dirtied pages alone. -/
theorem State.pages_modLane (s : State) {j k : Nat} (hj : j < 4) (hk : k < 4) {f : LaneSt → LaneSt} (hf : ∀ x, (f x).pages = x.pages) :
    ((s.modLane j f).lane k).pages = (s.lane k).pages := by
  by_cases same : k = j
  · subst same
    rw [State.lane_modLane_same, hf]
  · rw [State.modLane, State.lane_setLane_ne s _ hj hk same]

theorem State.copyMem_pages (s : State) {j k : Nat} (v : Nat) (hj : j < 4) (hk : k < 4) : ((s.copyMem j v).lane k).pages = (s.lane k).pages := by
  unfold State.copyMem
  refine (State.pages_modLane _ hj hk ?_).trans (State.pages_modLane s hj hk ?_)
  · exact fun _ => rfl
  · exact fun _ => rfl

/-- The copy as the next round finds it, before the Keeper looks for a quiet gap (R64). -/
def State.nextRound (s : State) (dirtied : Nat) : State :=
  let v := s.g VX_RSYNC_SOURCE
  let a := s.copyMem (s.g VX_RSYNC_JOINER) v
  ((a.satAdd VX_RSYNC_ROUND 1).p VX_RSYNCLEFT_KIB (4 * max dirtied (a.lane v).pages.length)).modLane v (fun x => { x with pages := [] })

theorem exec_copyRoundComplete {s : State} (active : s.on VX_RSYNC_ACTIVE = true) (n : Nat) : exec (.copyRoundComplete n) s =
    .next ((s.nextRound n).liveLanes.foldl (fun (s : State) l => s.p (RA_CTRL_INHIBIT l) 1) (s.nextRound n)) := by
  change execCopyRoundComplete n s = _
  simp only [execCopyRoundComplete, active, Bool.not_true, Bool.false_eq_true, if_false, State.nextRound, State.satAdd]

theorem exec_copyRoundComplete_idle {s : State} (idle : s.on VX_RSYNC_ACTIVE = false) (n : Nat) : exec (.copyRoundComplete n) s = .next s :=
  if_pos (by simp [idle])

theorem State.nextRound_spec (s : State) (n : Nat) :
    (s.nextRound n).g VX_RSYNCLEFT_KIB = 4 * max n (s.lane (s.g VX_RSYNC_SOURCE)).pages.length % 2 ^ 32 ∧
    (s.nextRound n).g VX_RSYNC_ROUND = min (s.g VX_RSYNC_ROUND + 1) (2 ^ VX_RSYNC_ROUND.w - 1) ∧
    ((s.nextRound n).lane (s.g VX_RSYNC_SOURCE)).pages = [] ∧ (s.nextRound n).liveLanes = s.liveLanes := by
  have regs : RegsKeep s (s.copyMem (s.g VX_RSYNC_JOINER) (s.g VX_RSYNC_SOURCE)) (fun _ => False) := fun a _ => by rw [State.copyMem_regs]
  have kept : RegsKeep s (s.nextRound n) (· ∈ [VX_RSYNC_ROUND.reg, VX_RSYNCLEFT_KIB.reg]) := fun a ha => by
    obtain ⟨round, left⟩ := not_or.1 (by simpa using ha)
    rw [State.nextRound, State.modLane_regs, State.rd_p_ne _ _ left, State.satAdd, State.rd_p_ne _ _ round, regs a id]
  refine ⟨?_, ?_, ?_, State.liveLanes_of_keep kept (by decide)⟩
  · rw [State.nextRound, State.g_modLane, State.g_p_same _ _ _ (by decide), State.copyMem_pages s _ (s.g_lt _) (s.g_lt _)]
    rfl
  · rw [State.nextRound, State.g_modLane, State.g_p_reg _ _ (by decide), State.satAdd, State.g_p_same _ _ _ (by decide), regs.g id]
    exact Nat.mod_eq_of_lt (by show min _ (2 ^ 8 - 1) < 2 ^ 8; omega)
  · rw [State.nextRound, State.lane_modLane_same]

/-- A copy round leaves what its next one carries, and every lane in service opens no context (R64, R145). -/
theorem State.roundComplete_spec (s : State) (n : Nat) :
    let t := (s.nextRound n).liveLanes.foldl (fun (s : State) l => s.p (RA_CTRL_INHIBIT l) 1) (s.nextRound n)
    t.g VX_RSYNCLEFT_KIB = 4 * max n (s.lane (s.g VX_RSYNC_SOURCE)).pages.length % 2 ^ 32 ∧
    t.g VX_RSYNC_ROUND = min (s.g VX_RSYNC_ROUND + 1) (2 ^ VX_RSYNC_ROUND.w - 1) ∧
    (t.lane (s.g VX_RSYNC_SOURCE)).pages = [] ∧ ∀ k ∈ s.liveLanes, t.g (RA_CTRL_INHIBIT k) = 1 := by
  obtain ⟨left, round, pages, live⟩ := s.nextRound_spec n
  have only := State.inhibit_each_only (s.nextRound n).liveLanes 1 (s.nextRound n)
  refine ⟨?_, ?_, ?_, fun k hk => ?_⟩
  · rw [only.g (f := VX_RSYNCLEFT_KIB) (not_lanePage (by decide)), left]
  · rw [only.g (f := VX_RSYNC_ROUND) (not_lanePage (by decide)), round]
  · rw [only.lane, pages]
  · rw [State.inhibit_each, live, if_pos hk]

/-! ### Quiet gaps (R65, R123) -/

theorem State.uninhibit_of_sought {s : State} (h : s.gapSought = true) : s.uninhibit = s := if_pos h

theorem State.uninhibit_frees {s : State} (h : s.gapSought = false) {k : Nat} (hk : k < 4) : s.uninhibit.g (RA_CTRL_INHIBIT k) = 0 := by
  rw [State.uninhibit, if_neg (by simp [h]), State.inhibit_each, if_pos (by simp; omega)]

/-- Is a lane's final round to be made in a quiet gap of `n` ns (R65)? -/
def State.finalFits (s : State) (n : Nat) : Prop := s.on VX_RSYNC_ACTIVE = true ∧ (s.lane (s.g VX_RSYNC_JOINER)).finalOk = false ∧
  s.laneSt (s.g VX_RSYNC_JOINER) = laCopying ∧ s.g VX_RSYNCLEFT_KIB * 128 + 10000 ≤ n

/-- No task that counts keeps the lanes from a gap. -/
def State.allQuiet (s : State) : Prop := ∀ k : Task, (s.desc k.val).kind = 0 ∨ (s.desc k.val).kind = 3 ∨ s.taskQuiet k.val = true

theorem State.allQuiet_iff (s : State) :
    (List.range 16).all (fun t => (s.desc t).kind == 0 || (s.desc t).kind == 3 || s.taskQuiet t) = true ↔ s.allQuiet := by
  simp only [List.all_eq_true, List.mem_range, Bool.or_eq_true, beq_iff_eq, or_assoc]
  exact ⟨fun h k => h k.val k.isLt, fun h t ht => h ⟨t, ht⟩⟩

theorem exec_quietGap {s : State} (quiet : s.allQuiet) (n : Nat) : ∃ a : State, (s.finalFits n → a = s.finalRound.gapCommand n) ∧
    (¬ s.finalFits n → a = s.gapCommand n) ∧ exec (.quietGap n) s = .next a.uninhibit := by
  have fits : (s.on VX_RSYNC_ACTIVE && !(s.lane (s.g VX_RSYNC_JOINER)).finalOk && s.laneSt (s.g VX_RSYNC_JOINER) == laCopying &&
      decide (s.g VX_RSYNCLEFT_KIB * 128 + 10000 ≤ n)) = true ↔ s.finalFits n := by
    simp only [State.finalFits, Bool.and_eq_true, Bool.not_eq_true', beq_iff_eq, decide_eq_true_eq, and_assoc]
  refine ⟨_, fun h => ?_, fun h => ?_, if_pos (s.allQuiet_iff.2 quiet)⟩
  · rw [if_pos (fits.2 h)]
  · rw [if_neg (fun e => h (fits.1 e))]

theorem exec_quietGap_busy {s : State} (busy : ¬ s.allQuiet) (n : Nat) : exec (.quietGap n) s = .next s :=
  if_neg (fun e => busy (s.allQuiet_iff.1 e))

/-! ### The end of a resynchronisation (R63, R31) -/

/-- The copied lane as its return finds it: no failed attempt, no resynchronisation, its exclusion over. -/
def State.resynced (s : State) (i : Nat) : State :=
  ((s.p (VX_EXCL_FAILS i) 0).p VX_RSYNC_ACTIVE 0).modLane i (fun y => { y with finalOk := false, afterExcl := false, countsNow := false })

theorem State.resynced_keep (s : State) (i : Nat) :
    (s.resynced i).votingLanes = s.votingLanes ∧ (s.resynced i).on VX_CTRL_SPAREEN = s.on VX_CTRL_SPAREEN := by
  have keep : RegsKeep s (s.resynced i) (fun a => 0x40000010 ≤ a) := fun a ha => by
    rw [State.resynced, State.modLane_regs]
    exact ((OnlyRegs.of_p s (f := VX_EXCL_FAILS i) 0 (Nat.le_add_right _ _)).p VX_RSYNC_ACTIVE 0 (by decide)).2 a ha
  exact ⟨State.votingLanes_of_keep keep (by decide), by rw [State.on, State.on, keep.g (f := VX_CTRL_SPAREEN) (by decide)]⟩

theorem exec_resyncComplete {s : State} {l : Lane} (copying : s.laneSt l.val = laCopying) (final : (s.lane l.val).finalOk = true) :
    let i := l.val
    let a := s.resynced i
    exec (.resyncComplete l) s = .next (if s.votingLanes.length < 3 then (((a.setLaneSt i laVoting).joins i).openChan i true).backInService i
      else if s.on VX_CTRL_SPAREEN then (((a.setLaneSt i laSpare).joins i).openChan i false).backInService i
      else (a.setLaneSt i laAbsent).wipeLane i true).uninhibit.nextJoiner := by
  obtain ⟨voting, spare⟩ := s.resynced_keep l.val
  simp only [← voting, ← spare]
  exact if_pos (by simp [copying, final])

theorem exec_resyncTimeout {s : State} {l : Lane} (copying : s.laneSt l.val = laCopying) :
    exec (.resyncTimeout l) s = .next ((s.failAttempt l.val).1.reports (s.failAttempt l.val).2).nextJoiner :=
  if_pos (by simp [copying])

/-- A failed attempt, counted, with its resynchronisation over (R63). -/
def State.attemptCounted (s : State) (l : Nat) : State :=
  let s := s.p (VX_EXCL_FAILS l) (min 3 (s.g (VX_EXCL_FAILS l) + 1))
  (if s.g VX_RSYNC_JOINER == l then (s.p VX_RSYNC_ACTIVE 0).p VX_RSYNCLEFT_KIB 0 else s).uninhibit

theorem State.failAttempt_eq (s : State) (l : Nat) : s.failAttempt l =
    if 2 ≤ s.g (VX_EXCL_FAILS l) then (((s.attemptCounted l).setLaneSt l laOut).wipeLane l true, [⟨2, 0x10, 0x600 + 16 * l⟩])
    else (((s.attemptCounted l).setLaneSt l laResetting).wipeLane l true, []) :=
  if_congr (by omega) rfl rfl

theorem State.attemptCounted_fails (s : State) {l : Nat} (hl : l < 4) :
    (s.attemptCounted l).g (VX_EXCL_FAILS l) = min 3 (s.g (VX_EXCL_FAILS l) + 1) := by
  have field : (VX_EXCL_FAILS l).reg = 0x40000010 + 4 * l := rfl
  have ended : OnlyRegs (s.p (VX_EXCL_FAILS l) (min 3 (s.g (VX_EXCL_FAILS l) + 1))) (s.attemptCounted l)
      (fun a => lanePage a ∨ a = 0x40000028 ∨ a = 0x4000002C) :=
    (OnlyRegs.ite (((OnlyRegs.refl _ _).p VX_RSYNC_ACTIVE 0 (.inr (.inl rfl))).p VX_RSYNCLEFT_KIB 0 (.inr (.inr rfl))) (OnlyRegs.refl _ _)).trans
      ((State.uninhibit_only _).mono (fun _ => .inl))
  rw [ended.g (by rw [field]; exact not_or.2 ⟨not_lanePage (by omega), by omega⟩), State.g_p_same _ _ _ (by decide : 16 + 2 ≤ 32)]
  exact Nat.mod_eq_of_lt (by show min 3 _ < 2 ^ 2; omega)

/-- A lane as it is reset into a state: the module's registers but for the levels are as before. -/
theorem State.wipeLane_setLaneSt (a : State) {l st : Nat} (hl : l < 4) (hst : st < 16) :
    ((a.setLaneSt l st).wipeLane l true).laneSt l = st ∧
    ((a.setLaneSt l st).wipeLane l true).g (VX_EXCL_FAILS l) = a.g (VX_EXCL_FAILS l) := by
  have wiped := State.wipeLane_keep (a.setLaneSt l st) true hl
  have field : (VX_EXCL_FAILS l).reg = 0x40000010 + 4 * l := rfl
  constructor
  · rw [State.laneSt_of_keep wiped (not_lanePage (by decide)), State.laneSt_setLaneSt a hl hl hst, if_pos rfl]
  · rw [wiped.g (by rw [field]; exact not_lanePage (by omega)),
      (a.setLaneSt_only l st).g (by rw [field]; exact not_levelPage (by omega) (by omega) (by omega))]

/-- The first two failed attempts reset the lane, the third takes it Out with class 2 (R63). -/
theorem State.failAttempt_counts (s : State) {l : Nat} (hl : l < 4) :
    (s.g (VX_EXCL_FAILS l) < 2 → (s.failAttempt l).2 = [] ∧ (s.failAttempt l).1.laneSt l = laResetting) ∧
    (2 ≤ s.g (VX_EXCL_FAILS l) → (s.failAttempt l).2 = [⟨2, 0x10, 0x600 + 16 * l⟩] ∧ (s.failAttempt l).1.laneSt l = laOut) ∧
    (s.failAttempt l).1.g (VX_EXCL_FAILS l) = min 3 (s.g (VX_EXCL_FAILS l) + 1) := by
  obtain ⟨again, fails⟩ := (s.attemptCounted l).wipeLane_setLaneSt hl (show laResetting < 16 by decide)
  obtain ⟨out, fails'⟩ := (s.attemptCounted l).wipeLane_setLaneSt hl (show laOut < 16 by decide)
  rw [State.failAttempt_eq]
  split
  case isTrue third =>
    exact ⟨fun h => absurd third (by omega), fun _ => ⟨rfl, out⟩, fails'.trans (s.attemptCounted_fails hl)⟩
  case isFalse early =>
    exact ⟨fun _ => ⟨rfl, again⟩, fun h => absurd h early, fails.trans (s.attemptCounted_fails hl)⟩

/-! ### The start of the application (R95, R114, R421) -/

/-- A task's grid begins with its first sample time (R95). -/
def State.startGrid (s : State) (t : Nat) : State := s.modTask t (fun x => { x with next := s.sampleTime t 0 })

theorem State.sampleTime_startGrid (s : State) (t n k : Nat) : (s.startGrid t).sampleTime n k = s.sampleTime n k := rfl

theorem State.task_startGrid (s : State) (t n : Nat) :
    ((s.startGrid t).task n).next = if n = t then s.sampleTime t 0 else (s.task n).next := by
  by_cases h : n = t
  · subst h
    simp [State.startGrid, State.modTask, State.task]
  · simp [State.startGrid, State.modTask, State.task, h, tabGet_tabSet_ne _ _ _ h]

/-- The grids of several tasks begin; nothing but their next sample times changes. -/
theorem State.startGrids_spec (ts : List Nat) (s : State) :
    (ts.foldl State.startGrid s).app.anchor = s.app.anchor ∧ (∀ n k, (ts.foldl State.startGrid s).sampleTime n k = s.sampleTime n k) ∧
    (∀ n, ((ts.foldl State.startGrid s).task n).next = if n ∈ ts then s.sampleTime n 0 else (s.task n).next) ∧
    ts.foldl State.startGrid s = { s with app := (ts.foldl State.startGrid s).app } := by
  induction ts generalizing s with
  | nil => simp
  | cons t ts ih =>
    obtain ⟨anchor, sample, next, rest⟩ := ih (s.startGrid t)
    refine ⟨anchor, fun n k => (sample n k).trans (s.sampleTime_startGrid t n k), fun n => ?_, ?_⟩
    · rw [List.foldl_cons, next, State.sampleTime_startGrid, State.task_startGrid]
      by_cases later : n ∈ ts
      · simp [later]
      · by_cases same : n = t <;> simp [later, same]
    · rw [List.foldl_cons]
      conv_lhs => rw [rest]
      rfl

/-- The anchor of a start whose last report comes now (R95). -/
def State.anchorTime (s : State) : Nat :=
  if s.ringConf 0 = true ∨ s.ringConf 1 = true then (s.now + 1999999) / 1000000 * 1000000 else (s.now / 1000000 + 1) * 1000000

theorem State.fixAnchor_of_all {s : State} (starting : s.app.state = .starting) (open_ : s.app.anchor = none) (live : s.liveLanes ≠ [])
    (inited : ∀ k ∈ s.liveLanes, (s.lane k).inited = true) :
    s.fixAnchor = (List.range 16).foldl State.startGrid { s with app := { s.app with anchor := some s.anchorTime } } := by
  have all : s.liveLanes.all (fun l => (s.lane l).inited) = true := List.all_eq_true.2 inited
  have one : s.liveLanes.isEmpty = false := by simpa using live
  have anchor : (if (s.ringConf 0 || s.ringConf 1) = true then (s.now + 1999999) / 1000000 * 1000000 else (s.now / 1000000 + 1) * 1000000) =
      s.anchorTime := if_congr (Bool.or_eq_true _ _ ▸ Iff.rfl) rfl rfl
  rw [← anchor]
  exact if_pos (by simp [starting, open_, one, all])

theorem State.fixAnchor_of_missing {s : State} {k : Nat} (hk : k ∈ s.liveLanes) (missing : (s.lane k).inited = false) : s.fixAnchor = s := by
  have some_missing : s.liveLanes.all (fun l => (s.lane l).inited) = false := List.all_eq_false.2 ⟨k, hk, by simp [missing]⟩
  exact if_neg (by simp [some_missing])

theorem exec_laneInitComplete {s : State} {l : Lane} (starting : s.app.state = .starting) (live : l.val ∈ s.liveLanes) :
    exec (.laneInitComplete l) s = .next (s.modLane l.val (fun x => { x with inited := true })).fixAnchor :=
  if_pos (by simp [starting, live])

/-- A lane that has reported its initialisation (R95). -/
def State.reported (s : State) (i : Nat) : State := s.modLane i (fun x => { x with inited := true })

theorem State.reported_keep (s : State) (i : Nat) : RegsKeep s (s.reported i) (fun _ => False) := fun a _ => by
  rw [State.reported, State.modLane_regs]

theorem State.liveLanes_reported (s : State) (i : Nat) : (s.reported i).liveLanes = s.liveLanes :=
  State.liveLanes_of_keep (s.reported_keep i) id

theorem State.reported_lane (s : State) {i k : Nat} (hi : i < 4) (hk : k < 4) :
    ((s.reported i).lane k).inited = if k = i then true else (s.lane k).inited := by
  split
  case isTrue h =>
    subst h
    rw [State.reported, State.lane_modLane_same]
  case isFalse h => rw [State.reported, State.modLane, State.lane_setLane_ne s _ hi hk h]

theorem State.anchorTime_reported (s : State) (i : Nat) : (s.reported i).anchorTime = s.anchorTime := by
  have ring (r : Nat) : (s.reported i).ringConf r = s.ringConf r := by
    rw [State.ringConf, State.ringConf, State.on, State.on, (s.reported_keep i).g id, State.reported, State.modLane_cfg]
  rw [State.anchorTime, State.anchorTime, ring, ring, State.now_of_keep (s.reported_keep i) id id]

/-- The last report fixes the anchor and with it every task's grid (R95). -/
theorem exec_laneInitComplete_last {s : State} {l : Lane} (starting : s.app.state = .starting) (live : l.val ∈ s.liveLanes)
    (open_ : s.app.anchor = none) (others : ∀ k ∈ s.liveLanes, k ≠ l.val → (s.lane k).inited = true) :
    Gives (.laneInitComplete l) s (fun t => t.app.anchor = some s.anchorTime ∧
      (∀ k : Task, (t.task k.val).next = t.sampleTime k.val 0) ∧ t = { s.reported l.val with app := t.app }) := by
  have app : (s.reported l.val).app = s.app := State.modLane_app _ _ _
  have inited : ∀ k ∈ (s.reported l.val).liveLanes, ((s.reported l.val).lane k).inited = true := by
    intro k hk
    rw [State.liveLanes_reported] at hk
    rw [State.reported_lane s l.isLt (State.mem_liveLanes_lt hk)]
    split
    · rfl
    · exact others k hk ‹_›
  have fixed := State.fixAnchor_of_all (s := s.reported l.val) (by rw [app, starting]) (by rw [app, open_])
    (by rw [State.liveLanes_reported]; exact List.ne_nil_of_mem live) inited
  obtain ⟨anchor, sample, next, rest⟩ := State.startGrids_spec (List.range 16)
    { s.reported l.val with app := { (s.reported l.val).app with anchor := some (s.reported l.val).anchorTime } }
  refine ⟨_, (exec_laneInitComplete starting live).trans (congrArg _ fixed), ?_, fun k => ?_, ?_⟩
  · rw [anchor, State.anchorTime_reported]
  · rw [next, sample, if_pos (List.mem_range.2 k.isLt)]
  · conv_lhs => rw [rest]

theorem exec_laneInitComplete_early {s : State} {l : Lane} (starting : s.app.state = .starting) (live : l.val ∈ s.liveLanes)
    {k : Nat} (hk : k ∈ s.liveLanes) (other : k ≠ l.val) (missing : (s.lane k).inited = false) :
    exec (.laneInitComplete l) s = .next (s.reported l.val) := by
  refine (exec_laneInitComplete starting live).trans (congrArg _ (State.fixAnchor_of_missing (s := s.reported l.val) (k := k) ?_ ?_))
  · rwa [State.liveLanes_reported]
  · rw [State.reported_lane s l.isLt (State.mem_liveLanes_lt hk), if_neg other, missing]

/-- The application as its anchor starts it (R114). -/
def State.anchored (z : State) : State :=
  ({ z with app := { z.app with state := .running, startChans := [], startHdr := [] } } : State).drivesEnable

/-- The application runs and a command that waited for it is answered (R475). -/
def State.anchorAnswered (z : State) : State :=
  if z.app.startChans = [] then z.anchored else z.anchored.answerOk z.app.startChans z.app.startHdr z.anchored.app.startPay

/-- The kind set for a power-up's start is used up (R116). -/
def State.kindUsed (v : State) : State := if v.g LC_MODE_PREV = mUpdate then v else v.p LC_NEXT_KIND 0

theorem exec_anchor {s : State} {a : Nat} (set : s.app.anchor = some a) :
    let z := State.retApplyN .runtime s.streams.length s
    z.app.state = .starting → a ≤ z.now → exec .anchor s = .next (if z.app.startByReady = true then
      (if z.anchorAnswered.kindUsed.mode = mSynchronising then z.anchorAnswered.kindUsed.readyMode else z.anchorAnswered.kindUsed)
      else z.anchorAnswered) := by
  intro z starting reached
  change execAnchor s = _
  have due : (z.app.state == .starting && decide (a ≤ z.now)) = true := by simp [starting, reached]
  rw [execAnchor, set]
  refine (if_pos due).trans ?_
  simp only [State.anchorAnswered, State.kindUsed, List.isEmpty_iff, beq_iff_eq]
  split <;> rfl

theorem exec_anchor_unset {s : State} (h : s.app.anchor = none) : exec .anchor s = .next s := by
  change execAnchor s = _
  rw [execAnchor, h]

theorem exec_initTimeout {s : State} (starting : s.app.state = .starting) (ready : s.app.startByReady = true) (open_ : s.app.anchor = none) :
    exec .initTimeout s = .next s.startFailed :=
  if_pos (by simp [starting, ready, open_])

theorem exec_initTimeout_else {s : State} (h : ¬ (s.app.state = .starting ∧ s.app.startByReady = true ∧ s.app.anchor = none)) :
    exec .initTimeout s = .next s :=
  if_neg (by simpa [and_assoc] using h)

/-- A start that was not reported in time stops the application with class 3 (R421). -/
theorem State.startFailed_eq (s : State) : ∃ t : State, s.startFailed = t.report 0x16 3 5 ∧ t.g LC_NEXT_KIND = 0 ∧
    t = { s.appStop with regs := t.regs, app := { s.appStop.app with startByReady := false } } ∧ RegsKeep s.appStop t (regIn [LC_NEXT_KIND]) :=
  ⟨_, rfl, State.g_p_same s.appStop LC_NEXT_KIND 0 (by decide), rfl,
    fun _ ha => State.rd_p_ne s.appStop _ (fun e => ha ⟨_, List.mem_singleton_self _, e⟩)⟩

end Sys2Proof.Machine

namespace Sys2Proof.Proofs
open Sys2Proof.Machine Sys2Proof.Safety

/-- Settles O38: the spare, the self-test, the copy and its end lane by lane, then the start of the application. -/
theorem lanesStartAndFollowTheirStates : Obligations.LanesStartAndFollowTheirStates := by
  refine ⟨fun s l n => ⟨fun st hst k hk => State.laneSt_setLaneSt s l.isLt hk (by omega), ?spare60, ?spare80, ?spareElsewhere, ?promotion,
      fun resetting wiped free => ⟨_, exec_laneResetComplete resetting wiped free, s.prepared_spec l.isLt⟩,
      fun preparing => ⟨exec_laneSelfTestEnd_fail preparing, exec_laneSelfTestEnd_waits preparing,
        fun ready => ⟨exec_laneSelfTestEnd_copies preparing ready, exec_laneSelfTestEnd_rises preparing ready⟩⟩,
      fun v source => State.beginCopy_rsync l.isLt source,
      fun active => ⟨_, exec_copyRoundComplete active n, s.roundComplete_spec n⟩, fun idle => exec_copyRoundComplete_idle idle n,
      fun quiet => exec_quietGap quiet n, State.uninhibit_of_sought, fun free k => State.uninhibit_frees free k.isLt, ?busy, ?complete,
      exec_resyncTimeout, s.failAttempt_counts l.isLt⟩,
    fun s l a => ⟨fun starting live => ⟨exec_laneInitComplete_last starting live,
        fun ⟨k, hk, other, missing⟩ => exec_laneInitComplete_early starting live hk other missing⟩,
      ?anchor, exec_anchor_unset, ?timeout, exec_initTimeout_else⟩⟩
  case spare60 =>
    exact fun zm60 => ⟨congrArg _ (State.writeSpare_of_zm60 zm60), fun mode =>
      congrArg _ ((State.writeSpare_of_mode (on := false) mode nofun).trans (State.setSpare_of_zm60 zm60 false))⟩
  case spare80 =>
    intro mode zm80
    have writes (on : Bool) : s.writeSpare on = s.setSpare on := State.writeSpare_of_mode mode (fun _ => zm80)
    exact ⟨fun on => congrArg _ ((writes true).trans (State.setSpare_of_same on)),
      fun off => congrArg _ ((writes false).trans (State.setSpare_of_same off)),
      fun off absent => congrArg _ ((writes true).trans (State.setSpare_on l.isLt zm80 off absent)),
      fun on spare => congrArg _ ((writes false).trans (State.setSpare_off l.isLt zm80 on spare))⟩
  case spareElsewhere =>
    exact fun mode zm80 => ⟨congrArg _ (State.writeSpare_of_other_mode mode zm80 true), congrArg _ (State.writeSpare_of_other_mode mode zm80 false)⟩
  case promotion =>
    exact fun spare few => ⟨_, exec_sparePromotion l.isLt spare few, s.promoted_spec l.isLt⟩
  case busy =>
    rintro ⟨k, used, real, runs⟩
    exact exec_quietGap_busy (fun quiet => by simpa [used, real, runs] using quiet k) n
  case complete =>
    intro copying final
    have done := exec_resyncComplete copying final
    exact ⟨fun few => done.trans (by rw [if_pos few]; rfl),
      fun enough on => done.trans (by rw [if_neg (not_lt.2 enough), if_pos on]; rfl),
      fun enough off => done.trans (by rw [if_neg (not_lt.2 enough), if_neg (by simp [off])]; rfl)⟩
  case anchor =>
    intro z starting set reached
    have runs := exec_anchor set starting reached
    exact ⟨fun other => runs.trans (by rw [if_neg (by simp [z, other])]; rfl), fun byReady =>
      ⟨fun sync => runs.trans (by rw [if_pos byReady]; exact congrArg _ (if_pos sync)),
       fun other => runs.trans (by rw [if_pos byReady]; exact congrArg _ (if_neg other))⟩⟩
  case timeout =>
    intro starting ready open_
    obtain ⟨t, failed, kind, rest, keep⟩ := s.startFailed_eq
    exact ⟨t, (exec_initTimeout starting ready open_).trans (congrArg _ failed), kind, rest, keep⟩

end Sys2Proof.Proofs

/-! SUPPORT. Core pairs (R77 to R92): what is written of a pair's mode, of a split or join sequence, of a `PX_CMD` write, and what the commands of
a sequence do with it. -/

namespace Sys2Proof.Safety
open Sys2Proof.Machine

/-! ### Registers of a list -/

theorem regIn_head {f g : Fld} (fs : List Fld) (h : g.reg = f.reg) : regIn (f :: fs) g.reg := ⟨f, List.mem_cons_self, h⟩

theorem regIn_mono {fs gs : List Fld} (sub : fs ⊆ gs) (a : Nat) : regIn fs a → regIn gs a := fun ⟨f, mem, e⟩ => ⟨f, sub mem, e⟩

theorem OnlyRegs.pb {s t : State} {as : Nat → Prop} (h : OnlyRegs s t as) (f : Fld) (b : Bool) (hf : as f.reg) : OnlyRegs s (t.pb f b) as :=
  h.p f _ hf

end Sys2Proof.Safety

namespace Sys2Proof.Machine
open Sys2Proof.Safety

/-! ### Notices of a lane (R498) -/

theorem State.laneNotice_only (s : State) (l : Lane) (code elem : Nat) (st : Word) :
    OnlyRecords s (s.laneNotice l.val code elem st) (fun _ => False) := by
  obtain ⟨rest, regs⟩ := State.notice_same s (0x24 + l.val) code elem st (by omega)
  exact ⟨rest, fun a ha _ => regs a ha⟩

/-! ### A pair's mode and its comparator (R79) -/

theorem pairModeFld_eq (l : Nat) : ∀ p, pairModeFld l p = ⟨laneBase l + 0x0 + 0x0, 2 * min p 3, 2⟩
  | 0 => rfl
  | 1 => rfl
  | 2 => rfl
  | p + 3 => by rw [show min (p + 3) 3 = 3 by omega]; rfl

theorem pairModeFld_reg (l p : Nat) : (pairModeFld l p).reg = (PX_MODE_MODE0 l).reg := by rw [pairModeFld_eq]; rfl

/-- The bit of one pair in `PX_MODE.ARMED`, cleared and set again as wanted. -/
theorem bit_armed {v p : Nat} (hv : v < 16) (hp : p < 4) (on : Bool) :
    bit ((v - (if bit v p then 2 ^ p else 0) + (if on then 2 ^ p else 0)) % 16) p = on :=
  (by decide : ∀ (v : Fin 16) (p : Fin 4) (on : Bool),
    bit ((v.val - (if bit v.val p.val then 2 ^ p.val else 0) + (if on then 2 ^ p.val else 0)) % 16) p.val = on) ⟨v, hv⟩ ⟨p, hp⟩ on

theorem State.arming_bit (s : State) (l : Nat) {p : Nat} (hp : p < 4) (on : Bool) : bit ((s.arming l p on).g (PX_MODE_ARMED l)) p = on := by
  rw [State.arming, State.g_p_same _ _ _ (by decide : 8 + 4 ≤ 32)]
  exact bit_armed (s.g_lt (PX_MODE_ARMED l)) hp on

/-- `PX_MODE` as it shows a pair in a mode, with its comparator armed or not. -/
def State.showPair (s : State) (l p mode : Nat) (armed : Bool) : State := (s.arming l p armed).p (pairModeFld l p) mode

theorem State.showPair_only (s : State) (l p mode : Nat) (armed : Bool) : OnlyRegs s (s.showPair l p mode armed) (regIn [PX_MODE_MODE0 l]) :=
  ((OnlyRegs.refl s (regIn [PX_MODE_MODE0 l])).p (PX_MODE_ARMED l) _ (regIn_head _ rfl)).p (pairModeFld l p) mode (regIn_head _ (pairModeFld_reg l p))

theorem State.showPair_mode (s : State) (l p : Nat) {mode : Nat} (hm : mode < 4) (armed : Bool) : (s.showPair l p mode armed).pairMode l p = mode := by
  rw [State.pairMode, State.showPair, pairModeFld_eq, State.g_p_same _ _ _ (show 2 * min p 3 + 2 ≤ 32 by omega)]
  exact Nat.mod_eq_of_lt hm

theorem State.showPair_armed (s : State) (l : Nat) {p : Nat} (hp : p < 4) (mode : Nat) (armed : Bool) :
    bit ((s.showPair l p mode armed).g (PX_MODE_ARMED l)) p = armed := by
  rw [State.showPair, pairModeFld_eq, State.g_p_apart _ (f' := PX_MODE_ARMED l) _ (show 2 * min p 3 + 2 ≤ 32 by omega)
    (.inl (show 2 * min p 3 + 2 ≤ 8 by omega)), State.arming_bit s l hp]

theorem State.pairMode_of_keep {s t : State} {as : Nat → Prop} (h : RegsKeep s t as) {l : Nat} (hl : ¬ as (PX_MODE_MODE0 l).reg) (p : Nat) :
    t.pairMode l p = s.pairMode l p := h.g (by rwa [pairModeFld_reg])

/-! ### `PX_CMD` (R92) -/

/-- `PX_CMD` as a write leaves it. -/
def State.commanded (s : State) (l p : Nat) (join : Bool) : State := (s.p (PX_CMD_PAIR l) p).pb (PX_CMD_OP l) join

theorem State.commanded_only (s : State) (l p : Nat) (join : Bool) : OnlyRegs s (s.commanded l p join) (regIn [PX_CMD_PAIR l]) :=
  ((OnlyRegs.refl s (regIn [PX_CMD_PAIR l])).p (PX_CMD_PAIR l) p (regIn_head _ rfl)).pb (PX_CMD_OP l) join (regIn_head _ rfl)

theorem State.commanded_shows (s : State) (l : Nat) {p : Nat} (hp : p < 4) (join : Bool) :
    (s.commanded l p join).g (PX_CMD_PAIR l) = p ∧ (s.commanded l p join).on (PX_CMD_OP l) = join := by
  refine ⟨?_, State.on_pb_same _ (PX_CMD_OP l) _ (by decide : 2 + 1 ≤ 32) rfl⟩
  rw [State.commanded, State.pb, State.g_p_apart _ _ (by decide : 2 + 1 ≤ 32) (by decide : 2 + 1 ≤ 0 ∨ 0 + 2 ≤ 2),
    State.g_p_same _ _ _ (by decide : 0 + 2 ≤ 32)]
  exact Nat.mod_eq_of_lt hp

/-- A `PX_CMD` write leaves `PX_MODE` and `PX_STAT` to the sequence that it starts. -/
theorem State.commanded_keep_mode (s : State) (l p : Nat) (join : Bool) (q : Nat) : (s.commanded l p join).pairMode l q = s.pairMode l q :=
  State.pairMode_of_keep (s.commanded_only l p join).2 (by simp [regIn, PX_CMD_PAIR, PX_MODE_MODE0]) q

/-- A sequence as it starts (R83, R84): it shows its pair, and the pair's comparator is disarmed. -/
theorem State.pairStart_eq (s : State) (l p : Nat) (join : Bool) :
    s.pairStart l p join = ((s.p (PX_STAT_BUSY l) 1).p (PX_STAT_PAIR l) p).showPair l p (if join then 3 else 1) false := rfl

theorem State.pairStart_only (s : State) (l p : Nat) (join : Bool) :
    OnlyRegs s (s.pairStart l p join) (regIn [PX_STAT_BUSY l, PX_MODE_MODE0 l]) := by
  have stat := ((OnlyRegs.refl s (regIn [PX_STAT_BUSY l, PX_MODE_MODE0 l])).p (PX_STAT_BUSY l) 1 (regIn_head _ rfl)).p (PX_STAT_PAIR l) p
    (regIn_head _ rfl)
  rw [State.pairStart_eq]
  exact stat.trans ((State.showPair_only _ _ _ _ _).mono (regIn_mono (by simp)))

theorem State.pairStart_shows (s : State) (l : Nat) {p : Nat} (hp : p < 4) (join : Bool) :
    let t := s.pairStart l p join
    t.g (PX_STAT_BUSY l) = 1 ∧ t.g (PX_STAT_PAIR l) = p ∧ t.pairMode l p = (if join then 3 else 1) ∧ bit (t.g (PX_MODE_ARMED l)) p = false := by
  have keep := State.showPair_only ((s.p (PX_STAT_BUSY l) 1).p (PX_STAT_PAIR l) p) l p (if join then 3 else 1) false
  have apart : ¬ regIn [PX_MODE_MODE0 l] (PX_STAT_BUSY l).reg := by simp [regIn, PX_MODE_MODE0, PX_STAT_BUSY]
  refine ⟨?_, ?_, State.showPair_mode _ l p (by split <;> decide) false, State.showPair_armed _ l hp _ false⟩
  · rw [State.pairStart_eq, keep.g (f := PX_STAT_BUSY l) apart, State.g_p_apart _ _ (by decide : 2 + 2 ≤ 32) (by decide : 2 + 2 ≤ 0 ∨ 0 + 1 ≤ 2),
      State.g_p_same _ _ _ (by decide : 0 + 1 ≤ 32)]
    rfl
  · rw [State.pairStart_eq, keep.g (f := PX_STAT_PAIR l) apart, State.g_p_same _ _ _ (by decide : 2 + 2 ≤ 32)]
    exact Nat.mod_eq_of_lt hp

/-- What a `PX_CMD` write that starts a sequence shows. -/
theorem State.commanded_pairStart_shows (s : State) (l : Nat) {p : Nat} (hp : p < 4) (join : Bool) :
    let t := (s.commanded l p join).pairStart l p join
    t.g (PX_STAT_BUSY l) = 1 ∧ t.g (PX_STAT_PAIR l) = p ∧ t.pairMode l p = (if join then 3 else 1) ∧ bit (t.g (PX_MODE_ARMED l)) p = false ∧
      t.g (PX_CMD_PAIR l) = p ∧ t.on (PX_CMD_OP l) = join ∧ OnlyRegs s t (regIn [PX_CMD_PAIR l, PX_STAT_BUSY l, PX_MODE_MODE0 l]) := by
  obtain ⟨busy, stat, mode, armed⟩ := (s.commanded l p join).pairStart_shows l hp join
  obtain ⟨cmd, op⟩ := s.commanded_shows l hp join
  have starts := (s.commanded l p join).pairStart_only l p join
  have apart : ¬ regIn [PX_STAT_BUSY l, PX_MODE_MODE0 l] (PX_CMD_PAIR l).reg := by simp [regIn, PX_STAT_BUSY, PX_MODE_MODE0, PX_CMD_PAIR]
  refine ⟨busy, stat, mode, armed, (starts.g apart).trans cmd, ?_, ?_⟩
  · rwa [State.on, starts.g (f := PX_CMD_OP l) apart]
  · exact ((s.commanded_only l p join).mono (regIn_mono (by simp))).trans (starts.mono (regIn_mono (by simp)))

section
variable {s : State} {l : Lane} {w : Word}

theorem State.pxCmd_of_pair_zero (zero : getBits w 0 2 = 0) (split : (getBits w 2 1 == 1) = false) :
    s.pxCmd l.val w = s.laneNotice l.val 2 0 (s.word (PX_CMD_PAIR l.val)) := by
  simp [State.pxCmd, zero, split]

variable (free : ¬ (getBits w 0 2 = 0 ∧ (getBits w 2 1 == 1) = false))
include free

theorem State.pxCmd_of_allowed : s.pxCmd l.val w =
    if (getBits w 4 1 == 1 && s.on (PX_STAT_BUSY l.val)) = true then s.laneNotice l.val 6 (getBits w 0 2) (s.word (PX_CMD_PAIR l.val))
    else if (getBits w 4 1 == 1 && s.pairMode l.val (getBits w 0 2) != (if (getBits w 2 1 == 1) = true then 0 else 2)) = true
      then (s.commanded l.val (getBits w 0 2) (getBits w 2 1 == 1)).pairStart l.val (getBits w 0 2) (getBits w 2 1 == 1)
      else s.commanded l.val (getBits w 0 2) (getBits w 2 1 == 1) := by
  rw [← State.commanded_keep_mode s l.val (getBits w 0 2) (getBits w 2 1 == 1)]
  exact if_neg (by simpa using free)

theorem State.pxCmd_of_busy (go : getBits w 4 1 = 1) (busy : s.on (PX_STAT_BUSY l.val) = true) :
    s.pxCmd l.val w = s.laneNotice l.val 6 (getBits w 0 2) (s.word (PX_CMD_PAIR l.val)) :=
  (State.pxCmd_of_allowed free).trans (if_pos (by simp [go, busy]))

theorem State.pxCmd_starts (go : getBits w 4 1 = 1) (idle : s.on (PX_STAT_BUSY l.val) = false)
    (other : s.pairMode l.val (getBits w 0 2) ≠ (if (getBits w 2 1 == 1) = true then 0 else 2)) :
    s.pxCmd l.val w = (s.commanded l.val (getBits w 0 2) (getBits w 2 1 == 1)).pairStart l.val (getBits w 0 2) (getBits w 2 1 == 1) :=
  (State.pxCmd_of_allowed free).trans ((if_neg (by simp [idle])).trans (if_pos (by simpa [go] using other)))

theorem State.pxCmd_stays (still : getBits w 4 1 = 0 ∨ (s.on (PX_STAT_BUSY l.val) = false ∧
    s.pairMode l.val (getBits w 0 2) = (if (getBits w 2 1 == 1) = true then 0 else 2))) :
    s.pxCmd l.val w = s.commanded l.val (getBits w 0 2) (getBits w 2 1 == 1) := by
  rcases still with noGo | ⟨idle, there⟩
  · exact (State.pxCmd_of_allowed free).trans ((if_neg (by simp [noGo])).trans (if_neg (by simp [noGo])))
  · exact (State.pxCmd_of_allowed free).trans ((if_neg (by simp [idle])).trans (if_neg (by simp [there])))

end

/-! ### The end of a sequence (R83, R84) -/

/-- `PX_MODE` and `PX_STAT` at the end of a sequence. -/
def State.sequenceEnded (s : State) (l p mode : Nat) (armed : Bool) : State :=
  ((s.showPair l p mode armed).p (PX_STAT_BUSY l) 0).p (PX_STAT_DONE l) 1

theorem State.sequenceEnded_only (s : State) (l p mode : Nat) (armed : Bool) :
    OnlyRegs s (s.sequenceEnded l p mode armed) (regIn [PX_STAT_BUSY l, PX_MODE_MODE0 l]) :=
  ((((s.showPair_only l p mode armed).mono (regIn_mono (by simp))).p (PX_STAT_BUSY l) 0 (regIn_head _ rfl)).p
    (PX_STAT_DONE l) 1 (regIn_head _ rfl))

theorem State.sequenceEnded_shows (s : State) (l : Nat) {p mode : Nat} (hp : p < 4) (hm : mode < 4) (armed : Bool) :
    let t := s.sequenceEnded l p mode armed
    t.pairMode l p = mode ∧ t.g (PX_STAT_BUSY l) = 0 ∧ t.g (PX_STAT_DONE l) = 1 ∧ bit (t.g (PX_MODE_ARMED l)) p = armed := by
  intro t
  have stat : OnlyRegs (s.showPair l p mode armed) t (regIn [PX_STAT_BUSY l]) :=
    ((OnlyRegs.refl _ (regIn [PX_STAT_BUSY l])).p (PX_STAT_BUSY l) 0 (regIn_head _ rfl)).p (PX_STAT_DONE l) 1 (regIn_head _ rfl)
  have apart : ¬ regIn [PX_STAT_BUSY l] (PX_MODE_MODE0 l).reg := by simp [regIn, PX_MODE_MODE0, PX_STAT_BUSY]
  refine ⟨(State.pairMode_of_keep stat.2 apart p).trans (s.showPair_mode l p hm armed), ?_, State.g_p_same _ (PX_STAT_DONE l) 1 (by decide : 1 + 1 ≤ 32), ?_⟩
  · exact (State.g_p_apart _ (f := PX_STAT_DONE l) (f' := PX_STAT_BUSY l) 1 (by decide : 1 + 1 ≤ 32) (by decide : 1 + 1 ≤ 0 ∨ 0 + 1 ≤ 1)).trans
      (State.g_p_same _ (PX_STAT_BUSY l) 0 (by decide : 0 + 1 ≤ 32))
  · rw [stat.g (f := PX_MODE_ARMED l) apart, s.showPair_armed l hp mode armed]

theorem exec_splitComplete {s : State} {l : Lane} (busy : s.on (PX_STAT_BUSY l.val) = true) (splits : s.pairMode l.val (s.g (PX_STAT_PAIR l.val)) = 1) :
    exec (.splitComplete l) s = .next ((s.sequenceEnded l.val (s.g (PX_STAT_PAIR l.val)) 2 false).dispatchWaiting l.val).pairDone :=
  if_pos (by simp [busy, splits])

/-- A test passes, or fails as the highest kind that applies (R88, R90, R91). -/
theorem testKind_eq (trip synOk railOk other : Bool) : testKind trip synOk railOk other =
    if trip = true ∧ synOk = true ∧ railOk = true then none
    else some (if railOk = false then 4 else if trip = false then 2 else if other = true then 1 else 3) := by
  revert trip synOk railOk other
  decide

/-- The end of a join, with the result of the trip test (R84). -/
def State.joinEnded (s : State) (l p : Nat) (ok : Bool) : State := (s.sequenceEnded l p 0 true).pb (PX_STAT_TRIPOK l) ok

theorem State.joinEnded_only (s : State) (l p : Nat) (ok : Bool) : OnlyRegs s (s.joinEnded l p ok) (regIn [PX_STAT_BUSY l, PX_MODE_MODE0 l]) :=
  (s.sequenceEnded_only l p 0 true).pb (PX_STAT_TRIPOK l) ok (regIn_head _ rfl)

theorem State.joinEnded_shows (s : State) (l : Nat) {p : Nat} (hp : p < 4) (ok : Bool) :
    let t := s.joinEnded l p ok
    t.pairMode l p = 0 ∧ t.g (PX_STAT_BUSY l) = 0 ∧ t.g (PX_STAT_DONE l) = 1 ∧ t.on (PX_STAT_TRIPOK l) = ok ∧
      bit (t.g (PX_MODE_ARMED l)) p = true := by
  intro t
  obtain ⟨mode, busy, done, armed⟩ := s.sequenceEnded_shows l hp (by decide : 0 < 4) true
  have trip : OnlyRegs (s.sequenceEnded l p 0 true) t (regIn [PX_STAT_TRIPOK l]) :=
    (OnlyRegs.refl _ (regIn [PX_STAT_TRIPOK l])).pb (PX_STAT_TRIPOK l) ok (regIn_head _ rfl)
  have apart : ¬ regIn [PX_STAT_TRIPOK l] (PX_MODE_MODE0 l).reg := by simp [regIn, PX_MODE_MODE0, PX_STAT_TRIPOK]
  refine ⟨(State.pairMode_of_keep trip.2 apart p).trans mode, ?_, ?_, State.on_pb_same _ (PX_STAT_TRIPOK l) ok (by decide : 4 + 1 ≤ 32) rfl, ?_⟩
  · exact (State.g_p_apart _ (f := PX_STAT_TRIPOK l) (f' := PX_STAT_BUSY l) _ (by decide : 4 + 1 ≤ 32) (by decide : 4 + 1 ≤ 0 ∨ 0 + 1 ≤ 4)).trans busy
  · exact (State.g_p_apart _ (f := PX_STAT_TRIPOK l) (f' := PX_STAT_DONE l) _ (by decide : 4 + 1 ≤ 32) (by decide : 4 + 1 ≤ 1 ∨ 1 + 1 ≤ 4)).trans done
  · rwa [trip.g (f := PX_MODE_ARMED l) apart]

theorem exec_joinComplete {s : State} {l : Lane} (busy : s.on (PX_STAT_BUSY l.val) = true) (joins : s.pairMode l.val (s.g (PX_STAT_PAIR l.val)) = 3)
    (trip synOk railOk : Bool) :
    let q := s.g (PX_STAT_PAIR l.val)
    let a := s.joinEnded l.val q (trip && synOk && railOk)
    exec (.joinComplete l trip synOk railOk) s = .next (if trip = true ∧ synOk = true ∧ railOk = true
      then ((a.inc (PX_TESTCNT_COUNT l.val q)).dispatchWaiting l.val).pairDone
      else (a.pairFault l.val q (if railOk = false then 4 else if trip = false then 2 else 3) 0 0).pairDone) := by
  intro q a
  have runs : exec (.joinComplete l trip synOk railOk) s = match testKind trip synOk railOk false with
      | none => .next ((a.inc (PX_TESTCNT_COUNT l.val q)).dispatchWaiting l.val).pairDone
      | some k => .next (a.pairFault l.val q k 0 0).pairDone := if_pos (by simp [busy, joins])
  rw [runs, testKind_eq]
  by_cases passes : trip = true ∧ synOk = true ∧ railOk = true
  · simp only [if_pos passes]
  · simp only [if_neg passes, Bool.false_eq_true, if_false]

/-! ### The execution point of a pair command (R82) -/

theorem State.pairLanes_eq (s : State) : s.pairLanes = [0, 1, 2, 3].filter (fun n => s.laneSt n ∈ [laVoting, laSpare, laCopying]) :=
  List.filter_congr fun n _ => by
    rw [Bool.eq_iff_iff]
    simp [or_assoc]

theorem exec_pairExecutionPoint {s : State} {x : Waiting} (waits : s.waiting = some x) (pair : x.code = 0x0209 ∨ x.code = 0x020A)
    (fresh : x.begun = false) (quiet : (s.pairTasks (byteAt x.payload 0)).all s.taskQuiet = true) (free : s.finalRuns = false) :
    exec .pairExecutionPoint s = .next (s.pairLanes.foldl
      (fun (a : State) n => a.pxCmd n (BitVec.ofNat 32 (byteAt x.payload 0 + (if x.code = 0x020A then 4 else 0) + 16)))
      { s with waiting := some { x with begun := true } }).uninhibit.pairDone := by
  change execPairExecutionPoint s = _
  have due : ((x.code == 0x0209 || x.code == 0x020A) && !x.begun && (s.pairTasks (byteAt x.payload 0)).all s.taskQuiet && !s.finalRuns) = true := by
    simp only [Bool.and_eq_true, Bool.or_eq_true, beq_iff_eq, Bool.not_eq_true']
    exact ⟨⟨⟨pair, fresh⟩, quiet⟩, free⟩
  rw [execPairExecutionPoint, waits]
  refine (if_pos due).trans ?_
  simp only [beq_iff_eq]
  rfl

end Sys2Proof.Machine

namespace Sys2Proof.Proofs
open Sys2Proof.Machine Sys2Proof.Safety

/-- Settles O26: the cases of a `PX_CMD` write, what the ends of a split and of a join leave, and the lanes that a pair command begins in. -/
theorem pairsSplitAndJoin : Obligations.PairsSplitAndJoin := by
  intro s l w trip synOk railOk
  have pair := getBits_lt w 0 2
  have shown := s.g_lt (PX_STAT_PAIR l.val)
  refine ⟨fun out written => ?command, ⟨fun busy splits => ?split, fun busy joins => ?join⟩, fun x waits code fresh quiet free => ?point⟩
  case command =>
    obtain rfl : Host.Outcome.next (s.pxCmd l.val w) = out := written.elim id id
    refine ⟨fun zero split => ?_, fun free go busy => ?_, fun free go idle other => ?_, fun free still => ?_⟩
    · exact ⟨_, rfl, State.pxCmd_of_pair_zero zero split, by rw [State.pxCmd_of_pair_zero zero split]; exact s.laneNotice_only l _ _ _⟩
    · exact ⟨_, rfl, State.pxCmd_of_busy free go busy, by rw [State.pxCmd_of_busy free go busy]; exact s.laneNotice_only l _ _ _⟩
    · rw [State.pxCmd_starts free go idle other]
      exact ⟨_, rfl, s.commanded_pairStart_shows l.val pair _⟩
    · rw [State.pxCmd_stays free still]
      obtain ⟨cmd, op⟩ := s.commanded_shows l.val pair (getBits w 2 1 == 1)
      exact ⟨_, rfl, cmd, op, s.commanded_only _ _ _⟩
  case split =>
    obtain ⟨mode, idle, done, armed⟩ := s.sequenceEnded_shows l.val shown (by decide : 2 < 4) false
    exact ⟨_, exec_splitComplete busy splits, mode, idle, done, armed, s.sequenceEnded_only _ _ _ _⟩
  case join =>
    obtain ⟨mode, idle, done, result, armed⟩ := s.joinEnded_shows l.val shown (trip && synOk && railOk)
    exact ⟨_, mode, idle, done, result, armed, s.joinEnded_only _ _ _, exec_joinComplete busy joins trip synOk railOk⟩
  case point =>
    rw [← State.pairLanes_eq]
    exact exec_pairExecutionPoint waits code fresh quiet free

end Sys2Proof.Proofs

/-! SUPPORT. Dispatch, forced tests and pair faults (R77 to R91): what a dispatch leaves in its lane, what `PX_FORCE` and `PX_TEST` show, what a
pair fault records. -/

namespace Sys2Proof.Machine
open Sys2Proof.Safety

/-- A lane's change leaves the registers alone. -/
theorem State.regsKeep_modLane {s t : State} {as : Nat → Prop} (h : RegsKeep s t as) (l : Nat) (f : LaneSt → LaneSt) : RegsKeep s (t.modLane l f) as :=
  fun a ha => (congrArg (·.rd a) (State.modLane_regs t l f)).trans (h a ha)

/-- A lane's change is told by the lane that it leaves. -/
theorem State.modLane_eq_lane (s : State) (l : Nat) (f : LaneSt → LaneSt) : s.modLane l f = s.modLane l (fun _ => (s.modLane l f).lane l) := by
  rw [State.lane_modLane_same]
  rfl

/-! ### Dispatch (R85) -/

/-- A lane in which a core of pair `q` waits with its dispatch for pair `p`. -/
def LaneSt.dispatchStalled (x : LaneSt) (q p : Nat) (v : Word) : LaneSt :=
  { x with dispWait := x.dispWait ++ [(p, v)]
           stalledPairs := if x.stalledPairs.contains q then x.stalledPairs else q :: x.stalledPairs }

/-- A lane that refused to dispatch a task. -/
def LaneSt.dispatchRefused (x : LaneSt) (t : Nat) : LaneSt := { x with refused := if x.refused.contains t then x.refused else t :: x.refused }

/-- A lane that has dispatched a task to a pair. -/
def LaneSt.dispatched (x : LaneSt) (p t : Nat) : LaneSt :=
  { x with disp := tabSet (fun _ => 16) x.disp p t, refused := x.refused.filter (· != t) }

theorem State.notDispatched_of_refused {s : State} {l t : Nat} (h : t ∈ (s.lane l).refused) : s.notDispatched l t = true := by
  simp [State.notDispatched, h]

theorem State.notDispatched_of_waiting {s : State} {l p : Nat} {v : Word} (h : (p, v) ∈ (s.lane l).dispWait) :
    s.notDispatched l (getBits v 0 4) = true := by
  rw [State.notDispatched, Bool.or_eq_true]
  exact .inr (List.any_eq_true.2 ⟨(p, v), h, beq_self_eq_true _⟩)

section
variable {s : State} {l : Lane} {p : Pair} {w : Word} (runs : s.pairRuns l.val 0 = true)
include runs

theorem exec_taskDispatch_waits (busy : s.pairBusy l.val p.val = true) :
    exec (.taskDispatch l p w) s = .next (s.modLane l.val (·.dispatchStalled 0 p.val w)) :=
  (if_pos runs).trans (congrArg _ (if_pos busy))

variable (free : s.pairBusy l.val p.val = false)
include free

theorem exec_taskDispatch_acts : exec (.taskDispatch l p w) s = .next (s.dispatch l.val p.val w) :=
  (if_pos runs).trans (congrArg _ (if_neg (by simp [free])))

theorem exec_taskDispatch_refused (safety : getBits w 4 1 = 1) (apart : s.pairMode l.val p.val ≠ 0) :
    exec (.taskDispatch l p w) s = .next ((s.modLane l.val (·.dispatchRefused (getBits w 0 4))).report 0x16 3 1) :=
  (exec_taskDispatch_acts runs free).trans (congrArg _ (if_pos (by simp [safety, apart])))

theorem exec_taskDispatch_taken (may : ¬ (getBits w 4 1 = 1 ∧ s.pairMode l.val p.val ≠ 0)) :
    exec (.taskDispatch l p w) s = .next (s.modLane l.val (·.dispatched p.val (getBits w 0 4))) :=
  (exec_taskDispatch_acts runs free).trans (congrArg _ (if_neg (by simpa using may)))

end

/-! ### Forced tests (R77, R87 to R89) -/

/-- `PX_FORCE` as it shows a forced bit. -/
def State.showForce (s : State) (l p g b : Nat) : State := ((s.p (PX_FORCE_PAIR l) p).p (PX_FORCE_GROUP l) g).p (PX_FORCE_BIT l) b

theorem State.showForce_only (s : State) (l p g b : Nat) : OnlyRegs s (s.showForce l p g b) (regIn [PX_FORCE_PAIR l]) :=
  (((OnlyRegs.refl s (regIn [PX_FORCE_PAIR l])).p (PX_FORCE_PAIR l) p (regIn_head _ rfl)).p (PX_FORCE_GROUP l) g (regIn_head _ rfl)).p
    (PX_FORCE_BIT l) b (regIn_head _ rfl)

theorem State.showForce_shows (s : State) (l : Nat) {p g b : Nat} (hp : p < 4) (hg : g < 4) (hb : b < 256) :
    (s.showForce l p g b).g (PX_FORCE_PAIR l) = p ∧ (s.showForce l p g b).g (PX_FORCE_GROUP l) = g ∧ (s.showForce l p g b).g (PX_FORCE_BIT l) = b := by
  simp only [State.showForce, PX_FORCE_PAIR, PX_FORCE_GROUP, PX_FORCE_BIT]
  refine ⟨?_, ?_, ?_⟩
  · simpa [State.g_p_apart, State.g_p_same] using hp
  · simpa [State.g_p_apart, State.g_p_same] using hg
  · simpa [State.g_p_same] using hb

section
variable {s : State} {l : Nat} {w : Word}

theorem State.pxForce_of_illegal (illegal : groupBits (getBits w 2 2) ≤ getBits w 4 8) :
    s.pxForce l w = s.laneNotice l 2 (getBits w 0 2) (s.word (PX_FORCE_PAIR l)) := if_pos illegal

variable (legal : getBits w 4 8 < groupBits (getBits w 2 2)) (go : getBits w 16 1 = 1)
include legal go

theorem State.pxForce_of_unready (unready : s.pairMode l (getBits w 0 2) ≠ 0 ∨ s.pairBusy l (getBits w 0 2) = true) :
    s.pxForce l w = s.laneNotice l 6 (getBits w 0 2) (s.word (PX_FORCE_PAIR l)) :=
  (if_neg (Nat.not_le.2 legal)).trans (if_pos (by simpa [go] using unready))

theorem State.pxForce_forces (joined : s.pairMode l (getBits w 0 2) = 0) (free : s.pairBusy l (getBits w 0 2) = false) :
    s.pxForce l w = (s.showForce l (getBits w 0 2) (getBits w 2 2) (getBits w 4 8)).modLane l (fun x => { x with forceTest := some w }) :=
  (if_neg (Nat.not_le.2 legal)).trans ((if_neg (by simp [joined, free])).trans (if_pos (by simp [go])))

end

/-- Every test of the rotation forces a bit that its group has (R77). -/
theorem testBit_legal (n : Nat) : (Machine.testBit n).1 < 4 ∧ (Machine.testBit n).2 < groupBits (Machine.testBit n).1 := by
  have small : n % 388 < 388 := Nat.mod_lt _ (by decide)
  unfold Machine.testBit
  dsimp only
  split
  case isTrue h => exact ⟨show 0 < 4 by decide, h⟩
  split
  case isTrue h => exact ⟨show 1 < 4 by decide, show _ < 112 by omega⟩
  split
  case isTrue h => exact ⟨show 2 < 4 by decide, show _ < 64 by omega⟩
  case isFalse => exact ⟨show 3 < 4 by decide, show _ < 32 by omega⟩

theorem groupBits_le (g : Nat) : groupBits g ≤ 256 := by
  unfold groupBits
  split <;> decide

/-- A `PX_FORCE` word with `GO`. -/
def forceWord (p g b : Nat) : Word := BitVec.ofNat 32 (p + 4 * g + 16 * b + 0x10000)

theorem getBits_forceWord {p g b : Nat} (hp : p < 4) (hg : g < 4) (hb : b < 256) :
    getBits (forceWord p g b) 0 2 = p ∧ getBits (forceWord p g b) 2 2 = g ∧ getBits (forceWord p g b) 4 8 = b ∧ getBits (forceWord p g b) 16 1 = 1 := by
  simp only [getBits, forceWord, BitVec.toNat_ofNat, Nat.shiftRight_eq_div_pow]
  omega

/-- A lane whose next test of a pair is the one behind the n-th (R89). -/
def LaneSt.nextTest (x : LaneSt) (p n : Nat) : LaneSt := { x with pairTest := tabSet (fun _ => 0) x.pairTest p ((n + 1) % 388) }

theorem exec_comparatorTestDue {s : State} {l : Lane} {p : Pair} (state : s.laneSt l.val ∈ [laVoting, laSpare])
    (joined : s.pairMode l.val p.val = 0) (free : s.pairBusy l.val p.val = false) :
    let n := tabGet (fun _ => 0) (s.lane l.val).pairTest p.val
    let w := forceWord p.val (Machine.testBit n).1 (Machine.testBit n).2
    exec (.comparatorTestDue l p) s = .next (((s.modLane l.val (·.nextTest p.val n)).showForce l.val p.val (Machine.testBit n).1
      (Machine.testBit n).2).modLane l.val (fun x => { x with forceTest := some w })) := by
  intro n w
  obtain ⟨group, legal⟩ := testBit_legal n
  obtain ⟨pair, grp, bit, go⟩ := getBits_forceWord p.isLt group (legal.trans_le (groupBits_le _))
  have due : exec (.comparatorTestDue l p) s = .next ((s.modLane l.val (·.nextTest p.val n)).pxForce l.val w) :=
    if_pos (by simpa [joined, free] using state)
  have mode : (s.modLane l.val (·.nextTest p.val n)).pairMode l.val p.val = 0 := (State.g_modLane _ _ _ _).trans joined
  have busy : (s.modLane l.val (·.nextTest p.val n)).pairBusy l.val p.val = false := by
    simpa [State.pairBusy, State.on] using free
  rw [due, State.pxForce_forces (by rw [bit, grp]; exact legal) go (by rwa [pair]) (by rwa [pair]), pair, grp, bit]

/-- A lane in which a forced test has ended, and `PX_TEST` as it shows the result (R88). -/
def State.testShown (s : State) (l p : Nat) (trip synOk railOk : Bool) : State :=
  (((((s.modLane l (fun x => { x with forceTest := none })).p (PX_TEST_DONE l) 1).pb (PX_TEST_TRIP l) trip).pb (PX_TEST_SYNOK l) synOk).pb
    (PX_TEST_RAILOK l) railOk).p (PX_TEST_PAIR l) p

theorem State.testShown_shows (s : State) (l : Nat) {p : Nat} (hp : p < 4) (trip synOk railOk : Bool) :
    let a := s.testShown l p trip synOk railOk
    (a.lane l).forceTest = none ∧ a.g (PX_TEST_DONE l) = 1 ∧ a.on (PX_TEST_TRIP l) = trip ∧ a.on (PX_TEST_SYNOK l) = synOk ∧
      a.on (PX_TEST_RAILOK l) = railOk ∧ a.g (PX_TEST_PAIR l) = p ∧ RegsKeep s a (regIn [PX_TEST_DONE l]) := by
  intro a
  have shows : OnlyRegs (s.modLane l (fun x => { x with forceTest := none })) a (regIn [PX_TEST_DONE l]) :=
    (((((OnlyRegs.refl _ (regIn [PX_TEST_DONE l])).p (PX_TEST_DONE l) 1 (regIn_head _ rfl)).pb (PX_TEST_TRIP l) trip (regIn_head _ rfl)).pb
      (PX_TEST_SYNOK l) synOk (regIn_head _ rfl)).pb (PX_TEST_RAILOK l) railOk (regIn_head _ rfl)).p (PX_TEST_PAIR l) p (regIn_head _ rfl)
  have bool (b : Bool) : ((if b = true then 1 else 0) % 2 == 1) = b := by cases b <;> rfl
  refine ⟨by rw [shows.lane, State.lane_modLane_same], ?_, ?_, ?_, ?_, ?_, (State.regsKeep_modLane (RegsKeep.refl s _) l _).trans shows.2⟩
  all_goals simp only [a, State.testShown, State.pb, State.on, PX_TEST_DONE, PX_TEST_TRIP, PX_TEST_SYNOK, PX_TEST_RAILOK, PX_TEST_PAIR]
  · simp [State.g_p_apart, State.g_p_same]
  · simp [State.g_p_apart, State.g_p_same, bool]
  · simp [State.g_p_apart, State.g_p_same, bool]
  · simp [State.g_p_apart, State.g_p_same, bool]
  · simpa [State.g_p_same] using hp

theorem exec_forcedTestResult {s : State} {l : Lane} {v : Word} (forced : (s.lane l.val).forceTest = some v) (trip synOk railOk : Bool)
    (group : Fin 4) (b : Fin 256) :
    let a := s.testShown l.val (getBits v 0 2) trip synOk railOk
    exec (.forcedTestResult l trip synOk railOk group b) s = .next (
      if trip = true ∧ synOk = true ∧ railOk = true then a.inc (PX_TESTCNT_COUNT l.val (getBits v 0 2))
      else (a.failCheck 1).pairFault l.val (getBits v 0 2) (if railOk = false then 4 else if trip = false then 2
        else if group.val = getBits v 2 2 ∧ b.val = getBits v 4 8 then 3 else 1) group.val b.val) := by
  intro a
  have runs : exec (.forcedTestResult l trip synOk railOk group b) s =
      match testKind trip synOk railOk (group.val != getBits v 2 2 || b.val != getBits v 4 8) with
      | none => .next (a.inc (PX_TESTCNT_COUNT l.val (getBits v 0 2)))
      | some k => .next ((a.failCheck 1).pairFault l.val (getBits v 0 2) k group.val b.val) := by
    change execForcedTestResult l trip synOk railOk group b s = _
    rw [execForcedTestResult, forced]
    rfl
  have other : (group.val != getBits v 2 2 || b.val != getBits v 4 8) = true ↔ ¬ (group.val = getBits v 2 2 ∧ b.val = getBits v 4 8) := by
    rw [not_and_or, Bool.or_eq_true, bne_iff_ne, bne_iff_ne]
  rw [runs, testKind_eq, (if_congr other rfl rfl).trans (ite_not _ _ _)]
  by_cases passes : trip = true ∧ synOk = true ∧ railOk = true
  · simp only [if_pos passes]
  · simp only [if_neg passes]

/-! ### Pair faults (R78, R89 to R91) -/

theorem State.pairEvent_faults {s : State} {l : Nat} (cores : s.coresRun l = true) {armed : Bool} (h : armed = true) (p kind g b : Nat) :
    s.pairEvent l p kind g b armed = s.pairFault l p kind g b := (if_pos cores).trans (if_pos h)

theorem State.setDiag_only (s : State) (l p kind g b : Nat) : OnlyRegs s (s.setDiag l p kind g b) (regIn [PX_DIAG_VALID l p]) :=
  (((((OnlyRegs.refl s (regIn [PX_DIAG_VALID l p])).p (PX_DIAG_VALID l p) 1 (regIn_head _ rfl)).p (PX_DIAG_KIND l p) kind (regIn_head _ rfl)).p
    (PX_DIAG_SUSPECT l p) (suspectOf kind) (regIn_head _ rfl)).p (PX_DIAG_GROUP l p) g (regIn_head _ rfl)).p (PX_DIAG_BIT l p) b (regIn_head _ rfl)

theorem suspectOf_lt (kind : Nat) : suspectOf kind < 4 := by
  unfold suspectOf
  repeat' split
  all_goals decide

theorem State.setDiag_shows (s : State) (l p : Nat) {kind g b : Nat} (hk : kind < 8) (hg : g < 4) (hb : b < 256) :
    let t := s.setDiag l p kind g b
    t.g (PX_DIAG_VALID l p) = 1 ∧ t.g (PX_DIAG_KIND l p) = kind ∧ t.g (PX_DIAG_SUSPECT l p) = suspectOf kind ∧ t.g (PX_DIAG_GROUP l p) = g ∧
      t.g (PX_DIAG_BIT l p) = b := by
  simp only [State.setDiag, PX_DIAG_VALID, PX_DIAG_KIND, PX_DIAG_SUSPECT, PX_DIAG_GROUP, PX_DIAG_BIT]
  refine ⟨?_, ?_, ?_, ?_, ?_⟩
  · simp [State.g_p_apart, State.g_p_same]
  · simpa [State.g_p_apart, State.g_p_same] using hk
  · simpa [State.g_p_apart, State.g_p_same] using suspectOf_lt kind
  · simpa [State.g_p_apart, State.g_p_same] using hg
  · simpa [State.g_p_same] using hb

section
variable {s : State} {l p : Nat}

theorem State.pairDiag_first (blank : s.on (PX_DIAG_VALID l p) = false) (kind g b : Nat) : s.pairDiag l p kind g b =
    (s.setDiag l p kind g b).modLane l (fun x => { x with diagAt := tabSet (fun _ => 0) x.diagAt p (s.tu.upNs + 1) }) :=
  if_pos (by simp [blank])

variable (valid : s.on (PX_DIAG_VALID l p) = true)
include valid

theorem State.pairDiag_same (same : tabGet (fun _ => 0) (s.lane l).diagAt p = s.tu.upNs + 1) (kind g b : Nat) : s.pairDiag l p kind g b =
    if s.g (PX_DIAG_KIND l p) < kind then s.setDiag l p kind g b else s :=
  (if_neg (by simp [valid])).trans (if_pos (by simp [same]))

theorem State.pairDiag_later (later : tabGet (fun _ => 0) (s.lane l).diagAt p ≠ s.tu.upNs + 1) (kind g b : Nat) :
    s.pairDiag l p kind g b = s.p (PX_DIAG_MORE l p) 1 :=
  (if_neg (by simp [valid])).trans (if_neg (by simp [later]))

end

theorem State.pairDiag_keep (s : State) (l p kind g b : Nat) : RegsKeep s (s.pairDiag l p kind g b) (regIn [PX_DIAG_VALID l p]) := by
  unfold State.pairDiag
  split
  · exact State.regsKeep_modLane (s.setDiag_only l p kind g b).2 l _
  · split
    · exact (OnlyRegs.ite (s.setDiag_only l p kind g b) (OnlyRegs.refl s _)).2
    · exact ((OnlyRegs.refl s (regIn [PX_DIAG_VALID l p])).p (PX_DIAG_MORE l p) 1 (regIn_head _ rfl)).2

/-- A pair that has faulted, before its report: recorded and halted. -/
def State.pairFaulted (s : State) (l p kind g b : Nat) : State :=
  let d := s.pairDiag l p kind g b
  d.modLane l (fun x => { x with halted := if x.halted.contains p then x.halted else p :: x.halted, diagSeq := d.ev.nextSeq })

theorem State.pairFault_eq (s : State) (l p kind g b : Nat) : s.pairFault l p kind g b =
    (s.pairFaulted l p kind g b).take { cls := 1, src := l, code := kind, data := some ((s.pairFaulted l p kind g b).diagData l) } := rfl

theorem State.g_pairFaulted (s : State) (l p kind g b : Nat) (f : Fld) : (s.pairFaulted l p kind g b).g f = (s.pairDiag l p kind g b).g f :=
  State.g_modLane _ _ _ _

theorem State.pairFaulted_halts (s : State) (l p kind g b : Nat) : p ∈ ((s.pairFaulted l p kind g b).lane l).halted := by
  simp only [State.pairFaulted, State.lane_modLane_same]
  exact List.mem_insert_self

end Sys2Proof.Machine

namespace Sys2Proof.Proofs
open Sys2Proof.Machine Sys2Proof.Safety

/-- Settles O27: a dispatch, a forced test and its result case by case, the faults of an armed pair, and what a pair fault records. -/
theorem pairTestsAndFaults : Obligations.PairTestsAndFaults := by
  intro s l p w group b trip synOk railOk outputs
  have pair := getBits_lt w 0 2
  refine ⟨fun runs => ⟨fun busy => ?waits, fun free safety apart => ?refused, fun free may => ?taken⟩,
    ⟨fun illegal => congrArg _ (State.pxForce_of_illegal illegal), fun legal go unready => congrArg _ (State.pxForce_of_unready legal go unready),
      fun legal go joined free => ?forced⟩,
    fun state joined free => ?due, fun v forced => ?result,
    fun cores armed => ⟨congrArg _ (State.pairEvent_faults cores armed _ _ _ _), congrArg _ (State.pairEvent_faults cores armed _ _ _ _)⟩,
    fun cores delayed => congrArg _ (State.pairEvent_faults cores (by simpa using delayed) _ _ _ _), fun kind kinds => ?fault⟩
  case waits =>
    refine ⟨_, exec_taskDispatch_waits runs busy, ?_, ?_, ?_, State.modLane_eq_lane _ _ _, ?_⟩
    · rw [State.lane_modLane_same]; rfl
    · rw [State.lane_modLane_same]; exact List.mem_insert_self
    · exact State.notDispatched_of_waiting (p := p.val) (by simp [LaneSt.dispatchStalled])
    · rw [State.lane_modLane_same]; rfl
  case refused =>
    refine ⟨_, exec_taskDispatch_refused runs free safety apart, ?_, State.modLane_eq_lane _ _ _, ?_⟩
    · exact State.notDispatched_of_refused (by rw [State.lane_modLane_same]; exact List.mem_insert_self)
    · rw [State.lane_modLane_same]; rfl
  case taken =>
    refine ⟨_, exec_taskDispatch_taken runs free may, ?_, ?_, State.modLane_eq_lane _ _ _, ?_⟩
    all_goals simp [LaneSt.dispatched]
  case forced =>
    obtain ⟨shownPair, shownGroup, shownBit⟩ := s.showForce_shows l.val pair (getBits_lt w 2 2) (getBits_lt w 4 8)
    refine ⟨_, congrArg Host.Outcome.next (State.pxForce_forces legal go joined free), ?_, ?_, ?_, ?_, ?_⟩
    · rwa [State.g_modLane]
    · rwa [State.g_modLane]
    · rwa [State.g_modLane]
    · rw [State.lane_modLane_same]
    · exact State.regsKeep_modLane (s.showForce_only _ _ _ _).2 _ _
  case due =>
    intro n
    obtain ⟨grp, legal⟩ := testBit_legal n
    obtain ⟨shownPair, shownGroup, shownBit⟩ :=
      (s.modLane l.val (·.nextTest p.val n)).showForce_shows l.val p.isLt grp (legal.trans_le (groupBits_le _))
    refine ⟨_, exec_comparatorTestDue state joined free, ?_, ?_, ?_, ?_, ?_⟩
    · rwa [State.g_modLane]
    · rwa [State.g_modLane]
    · rwa [State.g_modLane]
    · rw [State.lane_modLane_same]; rfl
    · rw [State.lane_modLane_same, (State.showForce_only _ _ _ _ _).lane, State.lane_modLane_same]
      exact tabGet_tabSet_same _ _ _ _
  case result =>
    obtain ⟨ended, done, tripped, syn, rail, tested, keep⟩ := s.testShown_shows l.val (getBits_lt v 0 2) trip synOk railOk
    exact ⟨_, ended, done, tripped, syn, rail, tested, keep, exec_forcedTestResult forced trip synOk railOk group b⟩
  case fault =>
    have small : kind < 8 := by simp at kinds; omega
    obtain ⟨shownValid, shownKind, shownSuspect, shownGroup, shownBit⟩ := s.setDiag_shows l.val p.val small group.isLt b.isLt
    refine ⟨_, State.pairFault_eq _ _ _ _ _ _, State.pairFaulted_halts _ _ _ _ _ _, fun valid later => ?_, fun valid same => ?_, fun blank => ?_,
      State.regsKeep_modLane (s.pairDiag_keep _ _ _ _ _) _ _⟩
    · rw [State.g_pairFaulted, State.g_pairFaulted, State.pairDiag_later valid later]
      exact ⟨State.g_p_same _ _ _ (by decide : 16 + 1 ≤ 32), State.g_p_apart _ _ (by decide : 16 + 1 ≤ 32) (by decide : 16 + 1 ≤ 1 ∨ 1 + 3 ≤ 16)⟩
    · rw [State.g_pairFaulted, State.pairDiag_same valid same]
      split
      case isTrue higher => rw [shownKind, max_eq_left higher.le]
      case isFalse lower => rw [max_eq_right (not_lt.1 lower)]
    · simp only [State.g_pairFaulted, State.pairDiag_first blank, State.g_modLane]
      exact ⟨shownValid, shownKind, shownSuspect, shownGroup, shownBit⟩

end Sys2Proof.Proofs

/-! SUPPORT. The commands of the force group: what each answers and leaves by its checks. -/

namespace Sys2Proof.Machine
open Sys2Proof.Safety

/-! ### `FORCE_SET` (R118, R478) -/

/-- A symbol takes the force of a `FORCE_SET` payload (R118): it is no safety symbol, an input or an output, and the value has its length. -/
def Symbol.takesForce (y : Symbol) (p : List Byte) : Prop :=
  y.safety = false ∧ (y.input = true ∨ y.output = true) ∧ zeros p 4 8 = true ∧ (p.drop 8).length = y.len

theorem Symbol.takesForce_iff (y : Symbol) (p : List Byte) :
    y.takesForce p ↔ ¬ (y.safety || !(y.input || y.output) || !zeros p 4 8 || (p.drop 8).length != y.len) = true := by
  simp only [Symbol.takesForce, Bool.or_eq_true, Bool.not_eq_true', bne_iff_ne, not_or, ne_eq, not_not, Bool.not_eq_true, Bool.not_eq_false, and_assoc]

/-- A force with a new value, recorded (R118). -/
def State.changeForce (s : State) (id : Nat) (v : List Byte) : State :=
  ({ s with app := { s.app with forces := s.app.forces.map (fun (g : Force) => if g.id == id then { g with value := v } else g) } } : State).recordEv
    { source := 0x0203, code := 2, cls := 0xFF, data := leBytes 4 id }

/-- A further force in its place, its words marked, recorded (R118, R119, R130). -/
def State.addForce (s : State) (id : Nat) (v : List Byte) : State :=
  (({ s with app := { s.app with forces := insBy (fun (x y : Force) => decide (x.id ≤ y.id)) { id := id, value := v } s.app.forces } } : State
    ).markForce id).predValid.recordEv { source := 0x0203, code := 1, cls := 0xFF, data := leBytes 4 id }

section
variable {s : State} {i : CmdIn}

theorem State.cmdForceSet_of_unknown (unknown : s.symbol (leAt i.p 0 4) = none) : s.cmdForceSet i = .no s stBadParam := by
  simp only [State.cmdForceSet, unknown]

variable {y : Symbol} (known : s.symbol (leAt i.p 0 4) = some y)
include known

theorem State.cmdForceSet_of_barred (barred : ¬ y.takesForce i.p) : s.cmdForceSet i = .no s stBadParam := by
  simp only [State.cmdForceSet, known]
  exact if_pos (not_not.1 (mt (y.takesForce_iff i.p).2 barred))

variable (free : y.takesForce i.p)
include free

theorem State.cmdForceSet_of_same {f : Force} (forced : s.forceOn (leAt i.p 0 4) = some f) (same : f.value = i.p.drop 8) :
    s.cmdForceSet i = .idle s := by
  simp only [State.cmdForceSet, known, if_neg ((y.takesForce_iff i.p).1 free), forced, same, beq_self_eq_true, if_true]

theorem State.cmdForceSet_of_other {f : Force} (forced : s.forceOn (leAt i.p 0 4) = some f) (other : f.value ≠ i.p.drop 8) :
    s.cmdForceSet i = .done (s.changeForce (leAt i.p 0 4) (i.p.drop 8)) := by
  have differs : (f.value == i.p.drop 8) = false := beq_eq_false_iff_ne.2 other
  simp only [State.cmdForceSet, known, if_neg ((y.takesForce_iff i.p).1 free), forced, differs, Bool.false_eq_true, if_false]
  rfl

theorem State.cmdForceSet_of_full (unforced : s.forceOn (leAt i.p 0 4) = none) (full : 256 ≤ s.app.forces.length) :
    s.cmdForceSet i = .no s stResource := by
  simp only [State.cmdForceSet, known, if_neg ((y.takesForce_iff i.p).1 free), unforced, if_pos full]

theorem State.cmdForceSet_of_room (unforced : s.forceOn (leAt i.p 0 4) = none) (room : s.app.forces.length < 256) :
    s.cmdForceSet i = .done (s.addForce (leAt i.p 0 4) (i.p.drop 8)) := by
  simp only [State.cmdForceSet, known, if_neg ((y.takesForce_iff i.p).1 free), unforced, if_neg (Nat.not_le.2 room)]
  rfl

end

/-! ### `FORCE_CLEAR`, `FORCE_CLEARALL`, `FORCE_LIST` (R478) -/

section
variable {s : State} {i : CmdIn}

theorem State.cmdForceClear_of_unknown (unknown : s.symbol (leAt i.p 0 4) = none) : s.cmdForceClear i = .no s stBadParam :=
  if_pos (by rw [unknown]; rfl)

variable (known : (s.symbol (leAt i.p 0 4)).isSome = true)
include known

theorem State.cmdForceClear_of_unforced (unforced : s.forceOn (leAt i.p 0 4) = none) : s.cmdForceClear i = .idle s := by
  simp only [State.cmdForceClear, Option.isNone_eq_false_iff.2 known, unforced, Bool.false_eq_true, if_false]

theorem State.cmdForceClear_of_forced {f : Force} (forced : s.forceOn (leAt i.p 0 4) = some f) :
    s.cmdForceClear i = .done (s.removeForces [f] 0) := by
  simp only [State.cmdForceClear, Option.isNone_eq_false_iff.2 known, forced, Bool.false_eq_true, if_false]

end

theorem State.cmdForceClearall_of_empty {s : State} (empty : s.app.forces = []) (i : CmdIn) : s.cmdForceClearall i = .idle s :=
  if_pos (List.isEmpty_iff.2 empty)

theorem State.cmdForceClearall_of_forces {s : State} (nonempty : s.app.forces ≠ []) (i : CmdIn) :
    s.cmdForceClearall i = .done (s.removeForces s.app.forces 0) :=
  if_neg (mt List.isEmpty_iff.1 nonempty)

/-- The answer to `FORCE_LIST`: how many forces there are, how many follow, up to 125 entries from an index (R478). -/
def State.forcesFrom (s : State) (k : Nat) : List Byte :=
  leBytes 2 s.app.forces.length ++ leBytes 2 ((s.app.forces.drop k).take 125).length ++ ((s.app.forces.drop k).take 125).flatMap s.forceEntry

theorem State.cmdForceList_eq (s : State) (i : CmdIn) :
    s.cmdForceList i = if zeros i.p 2 4 = false then .no s stBadParam else .read s (s.forcesFrom (leAt i.p 0 2)) :=
  if_congr (by rw [Bool.not_eq_true']) rfl rfl

end Sys2Proof.Machine

namespace Sys2Proof.Proofs
open Sys2Proof.Machine Sys2Proof.Safety

/-- Settles O12: the outcome of each command of the force group by its checks, as its command lemma brings it to the mailbox. -/
theorem forcesAreSetClearedAndListed : Obligations.ForcesAreSetClearedAndListed := by
  refine ⟨fun s a ch h p c r => ?set, fun s a ch h p c => ⟨fun r => ?clear, fun r => ?clearall, fun r => ?list⟩⟩
  all_goals obtain ⟨-, rfl⟩ := runs_hdr r
  case set =>
    rw [execForceSet_runs r]
    refine ⟨fun unknown => ?_, fun y known barred => ?_, fun y known free => ⟨fun f forced same => ?_, fun f forced other => ?_,
      fun unforced full => ?_, fun unforced room => ?_⟩⟩
    · rw [State.cmdForceSet_of_unknown unknown, finish_no]
    · rw [State.cmdForceSet_of_barred known barred, finish_no]
    · rw [State.cmdForceSet_of_same known free forced same, finish_idle]
    · rw [State.cmdForceSet_of_other known free forced other, finish_done]; rfl
    · rw [State.cmdForceSet_of_full known free unforced full, finish_no]
    · rw [State.cmdForceSet_of_room known free unforced room, finish_done]; rfl
  case clear =>
    rw [execForceClear_runs r]
    refine ⟨fun unknown => ?_, fun known => ⟨fun unforced => ?_, fun f forced => ?_⟩⟩
    · rw [State.cmdForceClear_of_unknown unknown, finish_no]
    · rw [State.cmdForceClear_of_unforced known unforced, finish_idle]
    · rw [State.cmdForceClear_of_forced known forced, finish_done]
  case clearall =>
    rw [execForceClearall_runs r]
    refine ⟨fun empty => ?_, fun nonempty => ?_⟩
    · rw [State.cmdForceClearall_of_empty empty, finish_idle]
    · rw [State.cmdForceClearall_of_forces nonempty, finish_done]
  case list =>
    rw [execForceList_runs r, State.cmdForceList_eq, finish_ite, finish_no, finish_read]
    rfl

end Sys2Proof.Proofs

/-! SUPPORT. The consolidated image of a task: its completion, the forwarded copy of a Hot Standby, the forwarding deadline. -/

namespace Sys2Proof.Machine
open Sys2Proof.Safety

/-! ### A task's state -/

@[simp] theorem State.task_modTask_same (s : State) (t : Nat) (f : TaskSt → TaskSt) : (s.modTask t f).task t = f (s.task t) :=
  tabGet_tabSet_same _ _ _ _

@[simp] theorem State.takesForwarded_modTask (s : State) (t : Nat) (f : TaskSt → TaskSt) : (s.modTask t f).takesForwarded = s.takesForwarded := rfl

@[simp] theorem State.fwdOf_modTask (s : State) (t : Nat) (f : TaskSt → TaskSt) (n cycle : Nat) : (s.modTask t f).fwdOf n cycle = s.fwdOf n cycle := rfl

/-- A task whose image `m` has gone out (R98, R103). -/
def TaskSt.delivered (x : TaskSt) (m : Mem) : TaskSt :=
  { x with complete := true, sampled := false, own := false, started := true, outCycle := x.cycle, olcFlag := false
           skipFlag := false, grprej := x.grprejNext, grprejNext := 0, forceMark := [], prevImg := m }

@[simp] theorem State.task_imageOut (s : State) (t : Nat) (m : Mem) : (s.imageOut t m).task t = (s.task t).delivered m :=
  State.task_modTask_same _ _ _

/-! ### Completion (R97, R98, R102, R119, R381) -/

/-- The image of a sampled cycle can complete: collection has closed, every source has arrived, and it has not gone out (R97). -/
structure State.ImageDue (s : State) (t : Nat) : Prop where
  running : s.running = true
  sampled : (s.task t).sampled = true
  closed : (s.task t).closed = true
  notComplete : (s.task t).complete = false
  notWaiting : (s.task t).own = false
  arrived : s.sourcesIn t = true

/-- A state with the system area in a task's image (R102, R103). -/
def State.withSystemArea (s : State) (t : Nat) : State := s.putImg t (s.inRangeOf t).1 (s.systemArea t)

/-- A state with a task's image consolidated: the system area in it, the mask of its changed words (R38, R102). -/
def State.consolidated (s : State) (t : Nat) : State :=
  let b := s.withSystemArea t
  b.modTask t (fun y => { y with mask := b.changedWords t y (b.withForces t) })

theorem State.takesForwarded_consolidated (s : State) (t : Nat) : (s.consolidated t).takesForwarded = s.takesForwarded := by
  simp only [State.consolidated, State.withSystemArea, State.putImg, State.takesForwarded_modTask]

theorem State.fwdOf_consolidated (s : State) (t n cycle : Nat) : (s.consolidated t).fwdOf n cycle = s.fwdOf n cycle := by
  simp only [State.consolidated, State.withSystemArea, State.putImg, State.fwdOf_modTask]

/-- The image `m` forwarded to the partner by the holder of the task (R381). -/
def State.forwardImage (s : State) (t cycle : Nat) (m : Mem) : State :=
  if s.on UN_CFG_EN = true ∧ s.mode = mActive ∧ s.pairUp = true
  then s.originate (.pairFrame (leBytes 1 t ++ leBytes 8 cycle ++ s.fwdBody t m)) else s

section
variable {s : State} {t : Task} (due : s.ImageDue t.val)
include due

theorem State.ImageDue.unabsorbed :
    ¬ (!s.running || !(s.task t.val).sampled || !(s.task t.val).closed || (s.task t.val).complete || (s.task t.val).own || !s.sourcesIn t.val) = true := by
  simp [due.running, due.sampled, due.closed, due.notComplete, due.notWaiting, due.arrived]

theorem exec_imageComplete_own (alone : s.takesForwarded = false) :
    exec (.imageComplete t) s = .next ((((s.consolidated t.val).lateImage t.val).forwardImage t.val (s.task t.val).cycle
      ((s.withSystemArea t.val).withForces t.val)).imageOut t.val ((s.withSystemArea t.val).withForces t.val)) := by
  rw [← s.takesForwarded_consolidated t.val] at alone
  refine (if_neg due.unabsorbed).trans ((if_neg (ne_true_of_eq_false alone)).trans ?_)
  simp only [State.forwardImage, Bool.and_eq_true, beq_iff_eq, and_assoc]
  rfl

/-- A Hot Standby delivers the holder's image where it has arrived and keeps its own waiting otherwise (R381). -/
theorem exec_imageComplete_standby (standby : s.takesForwarded = true) :
    exec (.imageComplete t) s = .next ((s.fwdOf t.val (s.task t.val).cycle).elim
      ((s.consolidated t.val).modTask t.val (fun y => { y with own := true })) ((s.consolidated t.val).applyFwd t.val)) := by
  rw [← s.takesForwarded_consolidated t.val] at standby
  rw [← s.fwdOf_consolidated t.val]
  refine (if_neg due.unabsorbed).trans ((if_pos standby).trans ?_)
  split
  next body arrived => rw [show (s.consolidated t.val).fwdOf t.val (s.task t.val).cycle = some body from arrived]; rfl
  next missing => rw [show (s.consolidated t.val).fwdOf t.val (s.task t.val).cycle = none from missing]; rfl

end

/-! ### The forwarded image (R381) -/

/-- An entry just put in its place is the first of its key. -/
theorem find?_tabIns {α : Type} (t : Tab α) (k : Nat) {v : α} {q : α → Bool} (hq : q v = true) :
    (tabIns t k v).find? (fun e => e.1 == k && q e.2) = some (k, v) := by
  induction t with
  | nil => simp [tabIns, hq]
  | cons e t ih =>
    obtain ⟨j, x⟩ := e
    simp only [tabIns]
    split
    case isTrue => simp [hq]
    case isFalse =>
      split
      case isTrue => simp [hq]
      case isFalse other => rw [List.find?_cons_of_neg (by simp [other]), ih]

/-- A state with a forwarded image kept until its cycle's own completes (R381). -/
def State.keepFwd (s : State) (img : FwdImage) : State :=
  { s with un := { s.un with fwd := tabIns s.un.fwd img.task.val (img.cycle, img.body) } }

theorem State.fwdOf_keepFwd (s : State) (img : FwdImage) : (s.keepFwd img).fwdOf img.task.val img.cycle = some img.body := by
  rw [State.fwdOf, State.keepFwd, find?_tabIns (v := (img.cycle, img.body)) (q := fun v => v.1 == img.cycle) _ _ (beq_self_eq_true _)]
  rfl

theorem exec_forwardedImageReceive_first {s : State} {p : PairLink} {img : FwdImage} (standby : s.takesForwarded = true)
    (free : s.heldPort (plkPort p) = false) (first : s.fwdOf img.task.val img.cycle = none) : exec (.forwardedImageReceive p img) s =
    if (s.task img.task.val).own = true ∧ (s.task img.task.val).cycle = img.cycle then .next (s.applyFwd img.task.val img.body)
    else .next (s.keepFwd img) := by
  have taken : ¬ (!s.takesForwarded || s.heldPort (plkPort p) || (s.fwdOf img.task.val img.cycle).isSome) = true := by
    simp [standby, free, first]
  exact (if_neg taken).trans (if_congr (by rw [Bool.and_eq_true, beq_iff_eq]) rfl rfl)

/-! ### The forwarding deadline (R381) -/

/-- A forwarded image missed: the standby goes on with its own (R381). -/
def State.fwdMissed (s : State) : State := (s.p UN_STAT_OWNIMG 1).inc UN_FWDLOST_COUNT

theorem State.fwdMissed_only (s : State) : OnlyRegs s s.fwdMissed (regIn [UN_STAT_OWNIMG, UN_FWDLOST_COUNT]) :=
  ((OnlyRegs.refl s _).p UN_STAT_OWNIMG 1 (regIn_head _ rfl)).p UN_FWDLOST_COUNT _ ⟨UN_FWDLOST_COUNT, by simp, rfl⟩

theorem State.fwdMissed_shows (s : State) : s.fwdMissed.g UN_STAT_OWNIMG = 1 ∧
    s.fwdMissed.g UN_FWDLOST_COUNT = (s.g UN_FWDLOST_COUNT + 1) % 2 ^ UN_FWDLOST_COUNT.w := by
  have apart : UN_FWDLOST_COUNT.reg ≠ UN_STAT_OWNIMG.reg := by decide
  rw [State.fwdMissed, State.inc, State.g_p_reg _ _ apart.symm, State.g_p_same _ _ _ (by decide), State.g_p_same _ _ _ (by decide),
    State.g_p_reg _ _ apart]
  exact ⟨rfl, rfl⟩

theorem exec_forwardDeadline_passed {s : State} {t : Task} (standby : s.takesForwarded = true) (waits : (s.task t.val).own = true) :
    exec (.forwardDeadline t) s = .next (s.fwdMissed.imageOut t.val (s.withForces t.val)) :=
  if_pos (by simp [standby, waits])

end Sys2Proof.Machine

namespace Sys2Proof.Proofs
open Sys2Proof.Machine Sys2Proof.Safety

/-- Settles O32: what an outgoing image leaves of its task, and the outcome of the three commands by the module's part in the pair. -/
theorem imagesCompleteOnce : Obligations.ImagesCompleteOnce := by
  intro s t p img k x
  refine ⟨fun m => ?out, fun running sampled closed notComplete notWaiting arrived => ?complete,
    fun standby => ⟨fun free first => ?received, fun waits => ?deadline⟩⟩
  case out =>
    rw [State.task_imageOut]
    exact ⟨rfl, rfl, rfl, rfl, rfl, rfl, rfl, rfl, rfl, rfl, rfl, rfl, rfl⟩
  case complete =>
    have due : s.ImageDue t.val := ⟨running, sampled, closed, notComplete, notWaiting, arrived⟩
    refine ⟨rfl, exec_imageComplete_own due, fun standby missing => ?_, fun body standby arrived => ?_⟩
    · rw [exec_imageComplete_standby due standby, missing]; rfl
    · rw [exec_imageComplete_standby due standby, arrived]; rfl
  case received =>
    have taken := exec_forwardedImageReceive_first standby free first
    exact ⟨fun other => ⟨_, taken.trans (if_neg other), s.fwdOf_keepFwd img, rfl⟩, fun waits same => taken.trans (if_pos ⟨waits, same⟩)⟩
  case deadline =>
    obtain ⟨own, lost⟩ := s.fwdMissed_shows
    refine ⟨_, exec_forwardDeadline_passed standby waits, own, lost, ?_, ?_, s.fwdMissed_only.2⟩
    all_goals rw [State.task_imageOut]; rfl

end Sys2Proof.Proofs

/-! SUPPORT. The verdict of a speculation context (R137 to R141, R145, R147): changes within one lane, the close of a context, what a vote's outcome,
a commit, the end of a rollback and the run-ahead registers leave. -/

namespace Sys2Proof.Machine
open Sys2Proof.Safety

/-! ### A lane replaced -/

@[simp] theorem State.modLane_self (s : State) : ∀ l, s.modLane l (fun _ => s.lane l) = s
  | 0 => rfl
  | 1 => rfl
  | 2 => rfl
  | _ + 3 => rfl

@[simp] theorem State.modLane_modLane (s : State) (f g : LaneSt → LaneSt) :
    ∀ l, (s.modLane l f).modLane l g = s.modLane l (fun x => g (f x))
  | 0 => rfl
  | 1 => rfl
  | 2 => rfl
  | _ + 3 => rfl

theorem State.modLane_withRegs (s : State) (f : LaneSt → LaneSt) (r : Regs) :
    ∀ l, { s.modLane l f with regs := r } = ({ s with regs := r } : State).modLane l f
  | 0 => rfl
  | 1 => rfl
  | 2 => rfl
  | _ + 3 => rfl

@[simp] theorem State.lane_emit (s : State) (x : TxItem) (k : Nat) : (s.emit x).lane k = s.lane k := by
  unfold State.lane
  split <;> simp

@[simp] theorem State.g_modLt (s : State) (l t : Nat) (h : LaneTask → LaneTask) (f : Fld) : (s.modLt l t h).g f = s.g f := State.g_modLane _ _ _ _

@[simp] theorem State.ctx_modLt (s : State) (l t k : Nat) (h : LaneTask → LaneTask) : (s.modLt l t h).ctx l k = s.ctx l k := by
  simp [State.ctx, State.modLt]

end Sys2Proof.Machine

namespace Sys2Proof.Safety
open Sys2Proof.Machine

/-! ### Changes within one lane -/

theorem regIn_cons {f : Fld} {fs : List Fld} {a : Nat} : regIn (f :: fs) a ↔ a = f.reg ∨ regIn fs a := by simp [regIn]

theorem not_regIn_nil {a : Nat} : ¬ regIn [] a := by simp [regIn]

theorem OnlyLane.refl (s : State) (l : Nat) (as : Nat → Prop) : OnlyLane s s l as := ⟨(s.modLane_self l).symm, RegsKeep.refl s as⟩

section
variable {s t : State} {l : Nat} {as : Nat → Prop} (h : OnlyLane s t l as)
include h

theorem OnlyLane.p (f : Fld) (v : Nat) (hf : as f.reg) : OnlyLane s (t.p f v) l as := by
  refine ⟨?_, h.2.trans (OnlyRegs.of_p t v hf).2⟩
  rw [State.lane_p, ← h.1]
  rfl

theorem OnlyLane.modLane (f : LaneSt → LaneSt) : OnlyLane s (t.modLane l f) l as := by
  refine ⟨?_, State.regsKeep_modLane h.2 l f⟩
  rw [State.modLane_withRegs, h.1, State.modLane_modLane, State.lane_modLane_same]

theorem OnlyLane.mono {bs : Nat → Prop} (sub : ∀ a, as a → bs a) : OnlyLane s t l bs := ⟨h.1, h.2.mono sub⟩

theorem OnlyLane.g {f : Fld} (hf : ¬ as f.reg) : t.g f = s.g f := h.2.g hf

theorem OnlyLane.app : t.app = s.app := (congrArg State.app h.1).trans (State.modLane_app _ _ _)

end

end Sys2Proof.Safety

namespace Sys2Proof.Machine
open Sys2Proof.Safety

/-! ### The registers of the contexts (R147) -/

theorem contextReg_ne (l : Nat) {t k : Nat} (h : t ≠ k) : (RA_CTX_STATE l t).reg ≠ (RA_CTX_STATE l k).reg := by
  simp only [RA_CTX_STATE]
  omega

theorem contextReg_ne_rollCount (l k : Nat) {t : Nat} (ht : t < 16) : (RA_CTX_STATE l t).reg ≠ (RA_ROLL_COUNT l k).reg := by
  simp only [RA_CTX_STATE, RA_ROLL_COUNT]
  omega

theorem contextReg_ne_commitCount (l k : Nat) {t : Nat} (ht : t < 16) : (RA_CTX_STATE l t).reg ≠ (RA_COMMIT_COUNT l k).reg := by
  simp only [RA_CTX_STATE, RA_COMMIT_COUNT]
  omega

theorem contextReg_ne_gain (l k : Nat) {t : Nat} (ht : t < 16) : (RA_CTX_STATE l t).reg ≠ (RA_GAIN_NS l k).reg := by
  simp only [RA_CTX_STATE, RA_GAIN_NS]
  omega

theorem contextReg_ne_queue (l t : Nat) : (RA_CTX_STATE l t).reg ≠ (RA_DQ_USED l).reg := by
  simp only [RA_CTX_STATE, RA_DQ_USED]
  omega

theorem commitCountReg_ne_queue (l t : Nat) : (RA_COMMIT_COUNT l t).reg ≠ (RA_DQ_USED l).reg := by
  simp only [RA_COMMIT_COUNT, RA_DQ_USED]
  omega

theorem commitCountReg_ne_gain (l k : Nat) {t : Nat} (ht : t < 16) : (RA_COMMIT_COUNT l t).reg ≠ (RA_GAIN_NS l k).reg := by
  simp only [RA_COMMIT_COUNT, RA_GAIN_NS]
  omega

/-! ### The close of a context -/

/-- A lane without a task's context. -/
def LaneSt.withoutCtx (x : LaneSt) (t : Nat) : LaneSt := { x with spec := tabSet (fun _ => {}) x.spec t {} }

theorem State.lane_closeCtx (s : State) (l t : Nat) : (s.closeCtx l t).lane l = (s.lane l).withoutCtx t := by
  simp [State.closeCtx, LaneSt.withoutCtx]

theorem State.ctx_closeCtx (s : State) (l t : Nat) : (s.closeCtx l t).ctx l t = {} := by
  simp [State.ctx, State.lane_closeCtx, LaneSt.withoutCtx]

theorem State.lt_closeCtx (s : State) (l t k : Nat) : (s.closeCtx l t).lt l k = s.lt l k := by
  rw [State.lt, State.lane_closeCtx]
  rfl

theorem State.notDispatched_closeCtx (s : State) (l t k : Nat) : (s.closeCtx l t).notDispatched l k = s.notDispatched l k := by
  rw [State.notDispatched, State.lane_closeCtx]
  rfl

theorem State.closeCtx_only (s : State) (l t : Nat) : OnlyLane s (s.closeCtx l t) l (regIn [RA_CTX_STATE l t, RA_DQ_USED l]) := by
  have own : regIn [RA_CTX_STATE l t, RA_DQ_USED l] (RA_CTX_STATE l t).reg := regIn_head _ rfl
  exact (((((((((OnlyLane.refl s l _).modLane _).p (RA_CTX_STATE l t) 0 own).p (RA_CTX_CONF l t) 0 own).p (RA_CTX_VOTED l t) 0 own).p
    (RA_CTX_HELD l t) 0 own).p (RA_CTX_OVF l t) 0 own).p (RA_CTX_USED l t) 0 own).p (RA_DQ_USED l) _ (regIn_cons.2 (.inr (regIn_head _ rfl))))

theorem State.closeCtx_closes (s : State) (l t : Nat) : (s.closeCtx l t).g (RA_CTX_STATE l t) = 0 := by
  rw [State.closeCtx, State.g_p_reg _ _ (contextReg_ne_queue l t)]
  simp [State.g_p_apart, State.g_p_same, RA_CTX_STATE, RA_CTX_CONF, RA_CTX_VOTED, RA_CTX_HELD, RA_CTX_OVF, RA_CTX_USED]

theorem State.closeCtx_keep (s : State) (l t : Nat) : RegsKeep s (s.closeCtx l t) lanePage := by
  refine (s.closeCtx_only l t).2.mono (fun a ha => ?_)
  simp only [regIn_cons, not_regIn_nil, or_false, RA_CTX_STATE, RA_DQ_USED] at ha
  simp only [lanePage, laneBase] at ha ⊢
  omega

/-! ### The verdict (R137, R138) -/

/-- A context whose vote has passed. -/
def State.votePassed (s : State) (l t : Nat) : State := s.p (RA_CTX_VOTED l t) 1

theorem exec_voteOutcome_of_decided {s : State} {l : Lane} {t : Task} {work : List CoreOp} {v : CycVote}
    (opened : (s.work l t.val work).undecided l.val t.val = true)
    (vote : (s.work l t.val work).cycVote t (((s.work l t.val work).ctx l.val t.val).cycle - 1) = some v) {agrees : Bool}
    (outcome : voteFor v l.val = some agrees) : exec (.voteOutcome l t work) s =
    .next (if agrees = true then ((s.work l t.val work).votePassed l.val t.val).tryCommit l.val t.val
      else (s.work l t.val work).rollback l.val t.val 5) := by
  change execVoteOutcome l t work s = _
  cases agrees
  all_goals simp only [execVoteOutcome, opened, vote, outcome, Bool.not_true, Bool.false_eq_true, if_false, if_true, State.votePassed]

theorem State.votePassed_only (s : State) (l t : Nat) : OnlyLane s (s.votePassed l t) l (regIn [RA_CTX_STATE l t]) :=
  (OnlyLane.refl s l _).p (RA_CTX_VOTED l t) 1 (regIn_head _ rfl)

theorem State.votePassed_shows (s : State) (l t : Nat) : (s.votePassed l t).g (RA_CTX_VOTED l t) = 1 ∧
    (s.votePassed l t).g (RA_CTX_STATE l t) = s.g (RA_CTX_STATE l t) ∧ (s.votePassed l t).g (RA_CTX_CONF l t) = s.g (RA_CTX_CONF l t) :=
  ⟨State.g_p_same _ _ _ (by decide : 4 + 1 ≤ 32), State.g_p_apart _ _ (by decide : 4 + 1 ≤ 32) (by decide : 4 + 1 ≤ 0 ∨ 0 + 3 ≤ 4),
    State.g_p_apart _ _ (by decide : 4 + 1 ≤ 32) (by decide : 4 + 1 ≤ 3 ∨ 3 + 1 ≤ 4)⟩

theorem State.votePassed_lane (s : State) (l t : Nat) : (s.votePassed l t).ctx l t = s.ctx l t ∧ (s.votePassed l t).lane l = s.lane l :=
  ⟨State.ctx_p _ _ _ _ _, State.lane_p _ _ _ _⟩

/-- A context that begins to commit: its clock stops (R139, R147). -/
def State.commits (s : State) (l t : Nat) : State := (s.p (RA_CTX_STATE l t) csCommitting).ctxClock l t

/-- With its vote passed a context commits where its inputs are confirmed, and waits for them otherwise (R138). -/
theorem State.tryCommit_votePassed {s : State} {l t : Nat} (opened : s.undecided l t = true) :
    (s.votePassed l t).tryCommit l t = if s.on (RA_CTX_CONF l t) = true then (s.votePassed l t).commits l t else s.votePassed l t := by
  obtain ⟨voted, state, conf⟩ := s.votePassed_shows l t
  rw [State.undecided] at opened
  simp only [State.tryCommit, State.undecided, State.on, voted, state, conf, opened, beq_self_eq_true, Bool.true_and, Bool.and_true]
  rfl

theorem State.commits_only {s t : State} {l k : Nat} (h : OnlyLane s t l (regIn [RA_CTX_STATE l k])) :
    OnlyLane s (t.commits l k) l (regIn [RA_CTX_STATE l k]) := (h.p (RA_CTX_STATE l k) csCommitting (regIn_head _ rfl)).modLane _

theorem State.commits_shows (s : State) (l t : Nat) : (s.commits l t).g (RA_CTX_STATE l t) = 3 ∧
    (s.commits l t).g (RA_CTX_VOTED l t) = s.g (RA_CTX_VOTED l t) := by
  rw [State.commits, State.g_ctxClock, State.g_ctxClock]
  exact ⟨State.g_p_same _ _ _ (by decide : 0 + 3 ≤ 32), State.g_p_apart _ _ (by decide : 0 + 3 ≤ 32) (by decide : 0 + 3 ≤ 4 ∨ 4 + 1 ≤ 0)⟩

theorem State.commits_keeps (s : State) (l t : Nat) :
    ((s.commits l t).ctx l t).log = (s.ctx l t).log ∧ ((s.commits l t).lane l).mem = (s.lane l).mem := by
  obtain ⟨ran, since, h⟩ := (s.p (RA_CTX_STATE l t) csCommitting).ctx_ctxClock l t
  simp [State.commits, h, State.ctxClock_mem]

theorem State.rollback_only (s : State) (l t cause : Nat) : OnlyRegs s (s.rollback l t cause) (regIn [RA_CTX_STATE l t, RA_ROLL_COUNT l t]) :=
  (((OnlyRegs.refl s _).p (RA_CTX_STATE l t) csRollback (regIn_head _ rfl)).p (RA_CTX_CAUSE l t) cause (regIn_head _ rfl)).p
    (RA_ROLL_COUNT l t) _ (regIn_cons.2 (.inr (regIn_head _ rfl)))

theorem State.rollback_shows (s : State) (l : Nat) {t cause : Nat} (ht : t < 16) (hc : cause < 8) :
    (s.rollback l t cause).g (RA_CTX_STATE l t) = 4 ∧ (s.rollback l t cause).g (RA_CTX_CAUSE l t) = cause ∧
    (s.rollback l t cause).g (RA_ROLL_COUNT l t) = (s.g (RA_ROLL_COUNT l t) + 1) % 2 ^ (RA_ROLL_COUNT l t).w := by
  have other := contextReg_ne_rollCount l t ht
  refine ⟨?_, ?_, ?_⟩
  · rw [State.rollback, State.inc, State.g_p_reg _ _ other, State.g_p_apart _ _ (by decide : 8 + 3 ≤ 32) (by decide : 8 + 3 ≤ 0 ∨ 0 + 3 ≤ 8)]
    exact State.g_p_same _ _ _ (by decide : 0 + 3 ≤ 32)
  · rw [State.rollback, State.inc, State.g_p_reg _ (f' := RA_CTX_CAUSE l t) _ other, State.g_p_same _ _ _ (by decide : 8 + 3 ≤ 32)]
    exact Nat.mod_eq_of_lt hc
  · rw [State.rollback, State.inc, State.g_p_same _ _ _ (by decide : 0 + 32 ≤ 32), State.g_p_reg _ (f := RA_CTX_CAUSE l t) _ other.symm,
      State.g_p_reg _ (f := RA_CTX_STATE l t) _ other.symm]

/-! ### The commit (R139) -/

/-- A state with a context's write log in the lane's memory. -/
def State.logStored (s : State) (l t : Nat) : State :=
  (s.ctx l t).log.foldl (fun (s : State) (e : Nat × BitVec 64) => s.storeWord l e.1 e.2) s

/-- A context's end with its commit, counted, with the time that it ran; the task executes its cycle. -/
def State.committed (s : State) (l t ran : Nat) : State :=
  (((s.closeCtx l t).inc (RA_COMMIT_COUNT l t)).p (RA_GAIN_NS l t) (min ran 0xFFFFFF)).modLt l t (fun y => { y with phase := .executing })

theorem exec_speculativeCommitDone {s : State} {l : Lane} {t : Task} (commits : s.g (RA_CTX_STATE l.val t.val) = 3) :
    let c := s.ctx l.val t.val
    exec (.speculativeCommitDone l t) s = .next ((c.dq.foldl (State.drainEntry l t.val)
      ((s.logStored l.val t.val).committed l.val t.val c.ran)).work l t.val c.stalled) :=
  if_neg (by simp [commits])

theorem State.committed_only (s : State) (l t ran : Nat) :
    OnlyLane s (s.committed l t ran) l (regIn [RA_CTX_STATE l t, RA_DQ_USED l, RA_COMMIT_COUNT l t, RA_GAIN_NS l t]) :=
  ((((s.closeCtx_only l t).mono (regIn_mono (by simp))).p (RA_COMMIT_COUNT l t) _ ⟨_, by simp, rfl⟩).p (RA_GAIN_NS l t) _ ⟨_, by simp, rfl⟩).modLane _

theorem State.committed_lane (s : State) (l t ran : Nat) : (s.committed l t ran).ctx l t = {} ∧
    ((s.committed l t ran).lane l).mem = (s.lane l).mem ∧ ((s.committed l t ran).lt l t).phase = .executing := by
  obtain ⟨phase, -, -, mem, -⟩ := State.modLt_phase (((s.closeCtx l t).inc (RA_COMMIT_COUNT l t)).p (RA_GAIN_NS l t) (min ran 0xFFFFFF)) l t .executing
  refine ⟨?_, mem.trans ?_, phase⟩
  · rw [State.committed, State.ctx_modLt, State.ctx_p, State.inc, State.ctx_p, State.ctx_closeCtx]
  · rw [State.lane_p, State.inc, State.lane_p, State.lane_closeCtx]
    rfl

theorem State.committed_shows (s : State) (l ran : Nat) {t : Nat} (ht : t < 16) : (s.committed l t ran).g (RA_CTX_STATE l t) = 0 ∧
    (s.committed l t ran).g (RA_COMMIT_COUNT l t) = (s.g (RA_COMMIT_COUNT l t) + 1) % 2 ^ (RA_COMMIT_COUNT l t).w ∧
    (s.committed l t ran).g (RA_GAIN_NS l t) = min ran 0xFFFFFF % 2 ^ (RA_GAIN_NS l t).w := by
  simp only [State.committed, State.g_modLt]
  refine ⟨?_, ?_, State.g_p_same _ _ _ (by decide : 0 + 24 ≤ 32)⟩
  · rw [State.g_p_reg _ _ (contextReg_ne_gain l t ht), State.inc, State.g_p_reg _ _ (contextReg_ne_commitCount l t ht), State.closeCtx_closes]
  · rw [State.g_p_reg _ _ (commitCountReg_ne_gain l t ht), State.inc, State.g_p_same _ _ _ (by decide : 0 + 32 ≤ 32), (s.closeCtx_only l t).g]
    exact fun e => (regIn_cons.1 e).elim (contextReg_ne_commitCount l t ht).symm
      (fun e => (regIn_cons.1 e).elim (commitCountReg_ne_queue l t) not_regIn_nil)

/-! ### The end of a rollback (R140) -/

/-- A state whose context is gone with its rollback; the pair that runs the task is interrupted. -/
def State.rolledBack (s : State) (l t : Nat) : State :=
  if s.pairTask l (s.desc t).pair = some t then (s.closeCtx l t).emit (.irq l (s.desc t).pair 0x140) else s.closeCtx l t

theorem exec_rollbackDone {s : State} {l : Lane} {t : Task} (rolls : s.g (RA_CTX_STATE l.val t.val) = 4) :
    exec (.rollbackDone l t) s = .next ((s.rolledBack l.val t.val).startIfDue l.val t.val) := by
  refine (if_neg (by simp [rolls])).trans ?_
  have descs : (s.closeCtx l.val t.val).desc t.val = s.desc t.val :=
    congrArg (fun x : AppSt => tabGet (fun _ => ({} : TaskDesc)) x.pkg.tasks t.val) (s.closeCtx_only l.val t.val).app
  simp only [State.rolledBack, beq_iff_eq, descs]

/-- But for the interrupt, the end of a rollback closes the context and does nothing else. -/
theorem State.rolledBack_same (s : State) (l t : Nat) : (s.rolledBack l t).regs = (s.closeCtx l t).regs ∧
    (s.rolledBack l t).lane l = (s.closeCtx l t).lane l ∧ (s.rolledBack l t).app = (s.closeCtx l t).app := by
  unfold State.rolledBack
  split
  · exact ⟨State.emit_regs _ _, State.lane_emit _ _ _, State.emit_app _ _⟩
  · exact ⟨rfl, rfl, rfl⟩

theorem State.startDue_congr {s b : State} (app : b.app = s.app) (now : b.now = s.now) (t cycle : Nat) : b.startDue t cycle = s.startDue t cycle := by
  rw [State.startDue, State.startDue, decide_eq_decide]
  simp only [State.sampleTime, State.desc, app, now]

theorem State.rolledBack_shows (s : State) (l t : Nat) : (s.rolledBack l t).g (RA_CTX_STATE l t) = 0 ∧ (s.rolledBack l t).ctx l t = {} ∧
    ((s.rolledBack l t).lane l).mem = (s.lane l).mem ∧ ((s.rolledBack l t).lane l).img = (s.lane l).img ∧ (s.rolledBack l t).lt l t = s.lt l t := by
  obtain ⟨regs, lane, -⟩ := s.rolledBack_same l t
  simp only [State.g, State.ctx, State.lt, regs, lane]
  refine ⟨s.closeCtx_closes l t, s.ctx_closeCtx l t, ?_, ?_, s.lt_closeCtx l t t⟩
  all_goals rw [State.lane_closeCtx]; rfl

/-- What decides the start of a task's cycle is after a rollback what it was before. -/
theorem State.rolledBack_start (s : State) (l t cycle : Nat) : (s.rolledBack l t).startDue t cycle = s.startDue t cycle ∧
    (s.rolledBack l t).notDispatched l t = s.notDispatched l t := by
  obtain ⟨regs, lane, app⟩ := s.rolledBack_same l t
  have keep : RegsKeep s (s.rolledBack l t) lanePage := by
    rw [RegsKeep, regs]
    exact s.closeCtx_keep l t
  have now : (s.rolledBack l t).now = s.now := State.now_of_keep keep (not_lanePage (by decide)) (not_lanePage (by decide))
  refine ⟨State.startDue_congr (app.trans (s.closeCtx_only l t).app) now t cycle, ?_⟩
  rw [State.notDispatched, lane]
  exact s.notDispatched_closeCtx l t t

/-! ### `RA_CTRL` (R145, R147) -/

theorem State.discardCtx_only (s : State) (l t : Nat) :
    OnlyLane s (s.discardCtx l t) l (regIn [RA_CTX_STATE l t, RA_DQ_USED l, RA_ROLL_COUNT l t]) := by
  unfold State.discardCtx
  split
  · exact OnlyLane.refl _ _ _
  · have closed : OnlyLane s (s.closeCtx l t) l (regIn [RA_CTX_STATE l t, RA_DQ_USED l, RA_ROLL_COUNT l t]) :=
      (s.closeCtx_only l t).mono (regIn_mono (by simp))
    exact (closed.p (RA_CTX_CAUSE l t) 6 (regIn_head _ rfl)).p (RA_ROLL_COUNT l t) _ ⟨_, by simp, rfl⟩

theorem State.discardCtx_closes (s : State) (l : Nat) {t : Nat} (ht : t < 16) : (s.discardCtx l t).g (RA_CTX_STATE l t) = 0 := by
  unfold State.discardCtx
  split
  case isTrue idle => exact eq_of_beq idle
  case isFalse =>
    rw [State.inc, State.g_p_reg _ _ (contextReg_ne_rollCount l t ht), State.g_p_apart _ _ (by decide : 8 + 3 ≤ 32) (by decide : 8 + 3 ≤ 0 ∨ 0 + 3 ≤ 8),
      State.closeCtx_closes]

/-- The discard of any context leaves a closed one closed. -/
theorem State.discardCtx_keeps_closed {s : State} {l k : Nat} (hk : k < 16) (closed : s.g (RA_CTX_STATE l k) = 0) (t : Nat) :
    (s.discardCtx l t).g (RA_CTX_STATE l k) = 0 := by
  by_cases same : k = t
  · exact same ▸ s.discardCtx_closes l hk
  · rw [(s.discardCtx_only l t).g, closed]
    simp [regIn_cons, not_regIn_nil, contextReg_ne l same, contextReg_ne_queue, contextReg_ne_rollCount l t hk]

theorem State.foldl_discardCtx_closes {l k : Nat} (hk : k < 16) (ts : List Nat) (s : State) (h : k ∈ ts ∨ s.g (RA_CTX_STATE l k) = 0) :
    (ts.foldl (fun (s : State) t => s.discardCtx l t) s).g (RA_CTX_STATE l k) = 0 := by
  induction ts generalizing s with
  | nil => exact h.resolve_left List.not_mem_nil
  | cons t ts ih =>
    refine ih _ ?_
    rcases h with listed | closed
    · exact (List.mem_cons.1 listed).symm.imp_right (fun (first : k = t) => first ▸ s.discardCtx_closes l hk)
    · exact .inr (State.discardCtx_keeps_closed hk closed t)

theorem State.dropLaneCtx_closes (s : State) (l : Nat) {k : Nat} (hk : k < 16) : (s.dropLaneCtx l).g (RA_CTX_STATE l k) = 0 :=
  State.foldl_discardCtx_closes hk _ s (.inl (List.mem_range.2 hk))

theorem State.dropLaneCtx_keeps_enable (s : State) (l : Nat) : (s.dropLaneCtx l).g (RA_CTRL_EN l) = s.g (RA_CTRL_EN l) := by
  refine List.foldlRecOn (motive := fun (b : State) => b.g (RA_CTRL_EN l) = s.g (RA_CTRL_EN l)) _ _ rfl (fun b same t _ => ?_)
  refine ((b.discardCtx_only l t).g (fun h => ?_)).trans same
  simp only [regIn_cons, not_regIn_nil, or_false, RA_CTRL_EN, RA_CTX_STATE, RA_DQ_USED, RA_ROLL_COUNT] at h
  omega

theorem State.inhibited_shows (s : State) (l : Nat) : (s.p (RA_CTRL_INHIBIT l) 1).g (RA_CTRL_INHIBIT l) = 1 ∧
    (s.p (RA_CTRL_INHIBIT l) 1).g (RA_CTRL_EN l) = s.g (RA_CTRL_EN l) :=
  ⟨State.g_p_same _ _ _ (by decide : 1 + 1 ≤ 32), State.g_p_apart _ _ (by decide : 1 + 1 ≤ 32) (by decide : 1 + 1 ≤ 0 ∨ 0 + 1 ≤ 1)⟩

/-! ### `RA_PAIRCTX` (R132) -/

/-- `RA_PAIRCTX` as a write leaves it. -/
def State.pairNamed (s : State) (l p : Nat) (w : Word) : State := (s.p (RA_PAIRCTX_TASK l p) w.toNat).p (RA_PAIRCTX_VALID l p) (getBits w 4 1)

theorem State.pairNamed_shows (s : State) (l p : Nat) (w : Word) : (s.pairNamed l p w).g (RA_PAIRCTX_TASK l p) = getBits w 0 4 ∧
    (s.pairNamed l p w).g (RA_PAIRCTX_VALID l p) = getBits w 4 1 := by
  refine ⟨?_, (State.g_p_same _ _ _ (by decide : 4 + 1 ≤ 32)).trans (Nat.mod_eq_of_lt (getBits_lt w 4 1))⟩
  rw [State.pairNamed, State.g_p_apart _ _ (by decide : 4 + 1 ≤ 32) (by decide : 4 + 1 ≤ 0 ∨ 0 + 4 ≤ 4)]
  exact State.g_p_same _ _ _ (by decide : 0 + 4 ≤ 32)

/-- The clocks of a lane's contexts leave the registers and the lane's memory alone. -/
theorem State.foldl_ctxClock_keeps (s : State) (l : Nat) (ts : List Nat) : (ts.foldl (fun (s : State) t => s.ctxClock l t) s).regs = s.regs ∧
    ((ts.foldl (fun (s : State) t => s.ctxClock l t) s).lane l).mem = (s.lane l).mem :=
  List.foldlRecOn (motive := fun (b : State) => b.regs = s.regs ∧ (b.lane l).mem = (s.lane l).mem) _ _ ⟨rfl, rfl⟩
    (fun b ⟨regs, mem⟩ t _ => ⟨(State.modLane_regs _ _ _).trans regs, (b.ctxClock_mem l t).trans mem⟩)

theorem State.pairCtx_eq (s : State) (l p : Nat) (w : Word) :
    s.pairCtx l p w = ((s.lane l).spec.map (·.1)).foldl (fun (s : State) t => s.ctxClock l t) (s.pairNamed l p w) := by
  simp only [State.pairCtx, State.pairNamed, State.lane_p]

theorem State.pairCtx_only (s : State) (l p : Nat) (w : Word) : OnlyLane s (s.pairCtx l p w) l (regIn [RA_PAIRCTX_TASK l p]) := by
  rw [State.pairCtx_eq]
  have named : OnlyLane s (s.pairNamed l p w) l (regIn [RA_PAIRCTX_TASK l p]) :=
    ((OnlyLane.refl s l _).p (RA_PAIRCTX_TASK l p) _ (regIn_head _ rfl)).p (RA_PAIRCTX_VALID l p) _ (regIn_head _ rfl)
  exact List.foldlRecOn (motive := fun (b : State) => OnlyLane s b l (regIn [RA_PAIRCTX_TASK l p])) _ _ named (fun _ h _ _ => h.modLane _)

theorem State.pairCtx_shows (s : State) (l p : Nat) (w : Word) : (s.pairCtx l p w).g (RA_PAIRCTX_TASK l p) = getBits w 0 4 ∧
    (s.pairCtx l p w).g (RA_PAIRCTX_VALID l p) = getBits w 4 1 ∧ ((s.pairCtx l p w).lane l).mem = (s.lane l).mem := by
  obtain ⟨regs, mem⟩ := (s.pairNamed l p w).foldl_ctxClock_keeps l ((s.lane l).spec.map (·.1))
  obtain ⟨task, valid⟩ := s.pairNamed_shows l p w
  rw [State.pairCtx_eq, State.g, State.g, regs]
  exact ⟨task, valid, mem.trans (by simp [State.pairNamed])⟩

end Sys2Proof.Machine

namespace Sys2Proof.Proofs
open Sys2Proof.Machine Sys2Proof.Safety

/-- Settles O25: the two outcomes of a vote, the commit, the end of a rollback, and what the three register writes leave. That the
deferred writes come before what stalled is log 21's choice, what `RA_GAIN` counts is log 33's. -/
theorem verdictsCommitOrRollBack : Obligations.VerdictsCommitOrRollBack := by
  intro s l t p w work i k
  refine ⟨fun v opened vote => ⟨fun agrees => ?passed, fun differs => ?refused⟩, fun commits => ?commit, fun rolls => ?rolled,
    ⟨rfl, ?disable⟩, ?inhibit, fun runs => ?pair⟩
  case passed =>
    refine ⟨_, exec_voteOutcome_of_decided opened vote agrees, ?_⟩
    rw [if_pos rfl, State.tryCommit_votePassed opened]
    obtain ⟨voted, state, -⟩ := (s.work l k work).votePassed_shows i k
    obtain ⟨ctx, lane⟩ := (s.work l k work).votePassed_lane i k
    have only := (s.work l k work).votePassed_only i k
    split
    case isTrue =>
      obtain ⟨commits, keepsVoted⟩ := ((s.work l k work).votePassed i k).commits_shows i k
      obtain ⟨log, mem⟩ := ((s.work l k work).votePassed i k).commits_keeps i k
      exact ⟨keepsVoted.trans voted, commits, State.commits_only only, log.trans (by rw [ctx]), mem.trans (by rw [lane])⟩
    case isFalse => exact ⟨voted, state, only, by rw [ctx], by rw [lane]⟩
  case refused =>
    refine ⟨_, exec_voteOutcome_of_decided opened vote differs, ?_⟩
    obtain ⟨state, cause, count⟩ := (s.work l k work).rollback_shows i t.isLt (show 5 < 8 by decide)
    exact ⟨state, cause, count, State.rollback_only _ _ _ _⟩
  case commit =>
    obtain ⟨closed, mem, phase⟩ := (s.logStored i k).committed_lane i k (s.ctx i k).ran
    obtain ⟨state, count, gain⟩ := (s.logStored i k).committed_shows i (s.ctx i k).ran t.isLt
    exact ⟨_, exec_speculativeCommitDone commits, state, closed, mem, phase, count, gain, State.committed_only _ _ _ _⟩
  case rolled =>
    refine ⟨_, exec_rollbackDone rolls, ?_⟩
    obtain ⟨state, closed, mem, img, place⟩ := s.rolledBack_shows i k
    obtain ⟨due, free⟩ := s.rolledBack_start i k (s.lt i k).cycle
    rw [← place] at due ⊢
    rw [← due, ← free]
    split
    case isTrue start =>
      obtain ⟨ready, passed, dispatched⟩ := start
      obtain ⟨phase, -, -, keepsMem, keepsImg⟩ := (s.rolledBack i k).modLt_phase i k .executing
      rw [State.startIfDue_of_due ready state passed dispatched, State.g_modLt, State.ctx_modLt]
      exact ⟨state, closed, keepsMem.trans mem, keepsImg.trans img, phase⟩
    case isFalse waits =>
      rw [State.startIfDue_of_not_due (fun ⟨ready, _, rest⟩ => waits ⟨ready, rest⟩)]
      exact ⟨state, closed, mem, img, rfl⟩
  case disable =>
    refine ⟨_, rfl, ?_, State.dropLaneCtx_closes _ _ t.isLt⟩
    rw [State.dropLaneCtx_keeps_enable]
    exact State.g_p_same _ _ _ (by decide : 0 + 1 ≤ 32)
  case inhibit =>
    obtain ⟨inhibit, enable⟩ := s.inhibited_shows i
    exact ⟨_, rfl, inhibit, enable, OnlyRegs.of_p s 1 (regIn_head _ rfl)⟩
  case pair =>
    refine ⟨_, if_pos runs, ?_⟩
    obtain ⟨task, valid, mem⟩ := State.pairCtx_shows _ i p.val w
    exact ⟨task, valid, State.pairCtx_only _ _ _ _, mem⟩

end Sys2Proof.Proofs

/-! SUPPORT. Lane memory (R149 to R154, R160): a refused access, the fault record and what the runtime does about it, corrected words and
starvation. -/

namespace Sys2Proof.Safety
open Sys2Proof.Machine

/-- A record after a change of registers touches those registers and what recording does (R498). -/
theorem OnlyRegs.record {s t u : State} {as : Nat → Prop} (h : OnlyRegs s t as) (k : SameBut t u) : OnlyRecords s u as :=
  ⟨by rw [k.1, h.1], fun a page own => (k.2 a page).trans (h.2 a own)⟩

end Sys2Proof.Safety

namespace Sys2Proof.Machine
open Sys2Proof.Safety

/-! ### The recorder (R495, R499) -/

theorem SameBut.lane {s t : State} (h : SameBut s t) (k : Nat) : t.lane k = s.lane k := by
  unfold State.lane
  split
  · exact h.laneA
  · exact h.laneB
  · exact h.laneC
  · exact h.laneD

@[simp] theorem State.evRegs_ev (s : State) : s.evRegs.ev = s.ev := by
  unfold State.evRegs
  dsimp only
  split <;> rfl

/-- An awake recorder that holds nothing stages an event as its only record (R495, R499). -/
theorem State.recordEv_of_empty {s : State} (awake : (s.mode == mDormant) = false) (room : s.on EV_STAT_FULL = false) (flash : s.ev.flash = [])
    (staged : s.ev.staged = []) (flows : s.ev.ovf = none) (e : EvIn) :
    ∃ r, (s.recordEv e).ev.staged = [r] ∧ r.source = e.source ∧ r.cls = e.cls ∧ r.seq = s.ev.nextSeq ∧ r.data = padTo 16 e.data := by
  have stages : s.recordEv e = s.stageRec e := by simp [State.recordEv, State.recordEv.go, State.records, awake, room, flash, staged, flows]
  rw [stages, State.stageRec, State.evRegs_ev]
  exact ⟨_, by rw [staged, List.nil_append], rfl, rfl, rfl, rfl⟩

/-! ### The record of an MMU fault (R151) -/

theorem State.mmuRecord_later {s : State} {l c : Nat} (valid : s.on (MM_FSTAT_VALID l c) = true) (m : MmuRec) :
    s.mmuRecord l c m = s.p (MM_FSTAT_MORE l c) 1 := if_pos valid

/-- `MM_FSTATc` and `MM_FADDRc` as they show a fault. -/
def State.showFault (s : State) (l c : Nat) (m : MmuRec) : State :=
  (((((((s.p (MM_FSTAT_VALID l c) 1).p (MM_FSTAT_CAUSE l c) m.cause).p (MM_FSTAT_ACCESS l c) m.access).pb (MM_FSTAT_PRIV l c) m.sup).p
    (MM_FSTAT_AHI l c) (m.a / 2 ^ 32)).p (MM_FSTAT_ENTRY l c) m.entry).p (MM_FSTAT_MORE l c) 0).p (MM_FADDR_ALO l c) m.a

theorem State.mmuRecord_first {s : State} {l c : Nat} (blank : s.on (MM_FSTAT_VALID l c) = false) (m : MmuRec) :
    s.mmuRecord l c m = s.showFault l c m := if_neg (by simp [blank])

theorem State.mmuRecord_only (s : State) (l c : Nat) (m : MmuRec) :
    OnlyRegs s (s.mmuRecord l c m) (regIn [MM_FSTAT_VALID l c, MM_FADDR_ALO l c]) := by
  have stat : regIn [MM_FSTAT_VALID l c, MM_FADDR_ALO l c] (MM_FSTAT_VALID l c).reg := regIn_head _ rfl
  refine OnlyRegs.ite (OnlyRegs.of_p s 1 stat) ?_
  exact ((((((((OnlyRegs.refl s _).p (MM_FSTAT_VALID l c) 1 stat).p (MM_FSTAT_CAUSE l c) _ stat).p (MM_FSTAT_ACCESS l c) _ stat).pb
    (MM_FSTAT_PRIV l c) _ stat).p (MM_FSTAT_AHI l c) _ stat).p (MM_FSTAT_ENTRY l c) _ stat).p (MM_FSTAT_MORE l c) 0 stat).p (MM_FADDR_ALO l c) _
    ⟨_, by simp, rfl⟩

theorem State.showFault_shows (s : State) (l c : Nat) (m : MmuRec) :
    let t := s.showFault l c m
    t.g (MM_FSTAT_VALID l c) = 1 ∧ t.g (MM_FSTAT_CAUSE l c) = m.cause % 8 ∧ t.on (MM_FSTAT_PRIV l c) = m.sup ∧ t.g (MM_FSTAT_MORE l c) = 0 ∧
      t.g (MM_FADDR_ALO l c) = m.a % 2 ^ 32 := by
  have bool (b : Bool) : ((if b = true then 1 else 0) % 2 == 1) = b := by cases b <;> rfl
  have apart : laneBase l + 0x30000 + 0x40 + 8 * c ≠ laneBase l + 0x30000 + 0x44 + 8 * c := by omega
  simp only [State.showFault, State.pb, State.on, MM_FSTAT_VALID, MM_FSTAT_CAUSE, MM_FSTAT_ACCESS, MM_FSTAT_PRIV, MM_FSTAT_AHI, MM_FSTAT_ENTRY,
    MM_FSTAT_MORE, MM_FADDR_ALO]
  refine ⟨?_, ?_, ?_, ?_, State.g_p_same _ _ _ (by decide : 0 + 32 ≤ 32)⟩
  all_goals rw [State.g_p_reg _ _ apart]
  all_goals simp [State.g_p_apart, State.g_p_same, bool]

/-- The first fault of a core stands until it is cleared (R151, R176). -/
theorem State.mmuRecord_shows (s : State) (l c : Nat) (m : MmuRec) :
    let t := s.mmuRecord l c m
    t.g (MM_FSTAT_VALID l c) = 1 ∧
    (s.on (MM_FSTAT_VALID l c) = true → t.g (MM_FSTAT_MORE l c) = 1 ∧ t.g (MM_FSTAT_CAUSE l c) = s.g (MM_FSTAT_CAUSE l c) ∧
      t.g (MM_FADDR_ALO l c) = s.g (MM_FADDR_ALO l c)) ∧
    (s.on (MM_FSTAT_VALID l c) = false → t.g (MM_FSTAT_CAUSE l c) = m.cause % 8 ∧ t.g (MM_FADDR_ALO l c) = m.a % 2 ^ 32 ∧
      t.on (MM_FSTAT_PRIV l c) = m.sup ∧ t.g (MM_FSTAT_MORE l c) = 0) := by
  obtain ⟨shown, cause, priv, more, addr⟩ := s.showFault_shows l c m
  cases valid : s.on (MM_FSTAT_VALID l c)
  case false =>
    rw [State.mmuRecord_first valid]
    exact ⟨shown, nofun, fun _ => ⟨cause, addr, priv, more⟩⟩
  case true =>
    rw [State.mmuRecord_later valid]
    refine ⟨?_, fun _ => ⟨State.g_p_same _ _ _ (by decide : 22 + 1 ≤ 32), ?_, ?_⟩, nofun⟩
    · rw [State.g_p_apart _ _ (by decide : 22 + 1 ≤ 32) (by decide : 22 + 1 ≤ 0 ∨ 0 + 1 ≤ 22)]
      exact eq_of_beq valid
    · exact State.g_p_apart _ _ (by decide : 22 + 1 ≤ 32) (by decide : 22 + 1 ≤ 1 ∨ 1 + 3 ≤ 22)
    · exact State.g_p_reg _ _ (by simp only [MM_FADDR_ALO, MM_FSTAT_MORE]; omega)

/-! ### An MMU fault taken (R151, R152) -/

/-- What the runtime does about a fault is told by its lane and leaves the memory alone. -/
theorem State.afterFault_lane (s : State) (l : Nat) (t : Option Nat) (sup : Bool) :
    ∃ x, s.afterFault l t sup = s.modLane l (fun _ => x) ∧ x.mem = (s.lane l).mem := by
  have stays : ∃ x, s = s.modLane l (fun _ => x) ∧ x.mem = (s.lane l).mem := ⟨_, (s.modLane_self l).symm, rfl⟩
  cases sup with
  | true =>
    have halts := State.modLane_eq_lane s l (fun x => { x with halted := [0, 1, 2, 3] })
    exact ⟨_, halts, by rw [State.lane_modLane_same]⟩
  | false =>
    cases t with
    | none => exact stays
    | some t =>
      change ∃ x, (if (s.lt l t).phase == .executing then s.abandonCycle l t else s) = _ ∧ _
      split
      · exact ⟨_, (s.abandonCycle_spec l t).2.2.1, (s.abandonCycle_spec l t).2.2.2.2⟩
      · exact stays

/-- An MMU fault recorded and raised, before the runtime sees it (R151). -/
def State.faultTaken (s : State) (l c : Nat) (m : MmuRec) : State := (s.mmuRecord l (s.faultCore l c) m).raise l c exMmu

theorem State.faultTaken_keep (s : State) (l c : Nat) (m : MmuRec) :
    RegsKeep s (s.faultTaken l c m) (regIn [MM_FSTAT_VALID l (s.faultCore l c), MM_FADDR_ALO l (s.faultCore l c)]) := by
  rw [RegsKeep, State.faultTaken, State.raise, State.emit_regs]
  exact (s.mmuRecord_only l _ m).2

theorem State.faultTaken_lane (s : State) (l c : Nat) (m : MmuRec) (k : Nat) : (s.faultTaken l c m).lane k = s.lane k := by
  rw [State.faultTaken, State.raise, State.lane_emit, (s.mmuRecord_only l _ m).lane]

theorem State.faultTaken_ev (s : State) (l c : Nat) (m : MmuRec) : (s.faultTaken l c m).ev = s.ev := by
  rw [State.faultTaken, State.raise, State.emit_ev, (s.mmuRecord_only l _ m).1]

theorem State.faultCore_faultTaken (s : State) (l c : Nat) (m : MmuRec) (k : Nat) : (s.faultTaken l c m).faultCore l k = s.faultCore l k := by
  have mode (p : Nat) : (s.faultTaken l c m).pairMode l p = s.pairMode l p :=
    State.pairMode_of_keep (s.faultTaken_keep l c m) (by simp only [regIn_cons, not_regIn_nil, or_false, MM_FSTAT_VALID, MM_FADDR_ALO, PX_MODE_MODE0]; omega) p
  rw [State.faultCore, State.faultCore, mode]

theorem State.mmuFault_eq (s : State) (l c : Nat) (t : Option Nat) (m : MmuRec) : s.mmuFault l c t m =
    (if m.sup then s.faultTaken l c m else (s.faultTaken l c m).mmuEvent l (s.faultCore l c)).afterFault l t m.sup := by
  rw [← s.faultCore_faultTaken l c m c]
  rfl

/-- The runtime's record of a fault is an event record and uses a free value (R152). -/
theorem State.mmuEvent_same (s : State) (l c : Nat) : SameBut { s with free := s.free + 1 } (s.mmuEvent l c) :=
  State.recordEv_same (SameBut.refl _) _

theorem State.mmuEvent_lane (s : State) (l c k : Nat) : (s.mmuEvent l c).lane k = s.lane k := (s.mmuEvent_same l c).lane k

/-- But for the fault's own registers, those of the recorder change where a task faults (R151, R152). -/
theorem State.mmuFault_keep (s : State) (l c : Nat) (t : Option Nat) (m : MmuRec) :
    RegsKeep (s.mmuRecord l (s.faultCore l c) m) (s.mmuFault l c t m) (fun a => m.sup = false ∧ recPage a) := by
  obtain ⟨x, after, -⟩ := State.afterFault_lane (if m.sup then s.faultTaken l c m else (s.faultTaken l c m).mmuEvent l (s.faultCore l c)) l t m.sup
  have taken : (s.faultTaken l c m).regs = (s.mmuRecord l (s.faultCore l c) m).regs := State.emit_regs _ _
  intro a ha
  rw [State.mmuFault_eq, after, State.modLane_regs, ← taken]
  cases sup : m.sup with
  | true => rfl
  | false => exact ((s.faultTaken l c m).mmuEvent_same l _).2 a (fun page => ha ⟨sup, page⟩)

theorem State.g_mmuFault (s : State) (l c : Nat) (t : Option Nat) (m : MmuRec) {f : Fld} (hf : ¬ recPage f.reg) :
    (s.mmuFault l c t m).g f = (s.mmuRecord l (s.faultCore l c) m).g f := (s.mmuFault_keep l c t m).g (fun ⟨_, page⟩ => hf page)

theorem State.mmuFault_mem (s : State) (l c : Nat) (t : Option Nat) (m : MmuRec) : ((s.mmuFault l c t m).lane l).mem = (s.lane l).mem := by
  obtain ⟨x, after, mem⟩ := State.afterFault_lane (if m.sup then s.faultTaken l c m else (s.faultTaken l c m).mmuEvent l (s.faultCore l c)) l t m.sup
  rw [State.mmuFault_eq, after, State.lane_modLane_same, mem]
  split
  · rw [State.faultTaken_lane]
  · rw [State.mmuEvent_lane, State.faultTaken_lane]

theorem State.mmuFault_halts (s : State) (l c : Nat) (t : Option Nat) {m : MmuRec} (sup : m.sup = true) :
    ((s.mmuFault l c t m).lane l).halted = [0, 1, 2, 3] := by
  rw [State.mmuFault_eq, sup]
  exact congrArg LaneSt.halted (State.lane_modLane_same (s.faultTaken l c m) l (fun x => { x with halted := [0, 1, 2, 3] }))

theorem State.mmuFault_abandons {s : State} (l c n : Nat) {m : MmuRec} (user : m.sup = false) (runs : (s.lt l n).phase = .executing) :
    ((s.mmuFault l c (some n) m).lt l n).phase = .abandoned := by
  have same : ((s.faultTaken l c m).mmuEvent l (s.faultCore l c)).lt l n = s.lt l n := by
    rw [State.lt, State.mmuEvent_lane, State.faultTaken_lane]
    rfl
  have acts : s.mmuFault l c (some n) m = ((s.faultTaken l c m).mmuEvent l (s.faultCore l c)).abandonCycle l n := by
    rw [State.mmuFault_eq, user]
    have phase : (((s.faultTaken l c m).mmuEvent l (s.faultCore l c)).lt l n).phase == .executing := by rw [same, runs]; rfl
    exact if_pos phase
  rw [acts]
  exact (State.abandonCycle_spec _ _ _).1

theorem evSources_getD (n : Nat) : evSources.getD (n % evSources.length) 0x100 ∈ evSources := by
  have inside : n % evSources.length < evSources.length := Nat.mod_lt _ (by decide)
  rw [List.getD_eq_getElem _ _ inside]
  exact List.getElem_mem inside

/-- The event that a task's fault leaves in an empty recorder: its source one of R497's, its data the fault status (R152). Class 0xFF, and the place
of the status word in the data, are the model's choice, log entry 121. -/
theorem State.mmuEvent_of_empty {s : State} (awake : (s.mode == mDormant) = false) (room : s.on EV_STAT_FULL = false) (flash : s.ev.flash = [])
    (staged : s.ev.staged = []) (flows : s.ev.ovf = none) (l c : Nat) :
    ∃ e, (s.mmuEvent l c).ev.staged = [e] ∧ e.source ∈ evSources ∧ e.cls = 0xFF ∧ e.seq = s.ev.nextSeq ∧
      e.data.take 4 = leBytes 4 (s.word (MM_FSTAT_VALID l c)).toNat := by
  obtain ⟨e, only, source, cls, seq, data⟩ := State.recordEv_of_empty (s := { s with free := s.free + 1 }) awake room flash staged flows _
  exact ⟨e, only, source ▸ evSources_getD _, cls, seq, by rw [data]; rfl⟩

theorem State.mmuFault_event {s : State} (l c : Nat) (t : Option Nat) {m : MmuRec} (user : m.sup = false) (awake : (s.mode == mDormant) = false)
    (room : s.on EV_STAT_FULL = false) (flash : s.ev.flash = []) (staged : s.ev.staged = []) (flows : s.ev.ovf = none) :
    let u := s.mmuFault l c t m
    ∃ e, u.ev.staged = [e] ∧ e.source ∈ evSources ∧ e.cls = 0xFF ∧ e.seq = s.ev.nextSeq ∧
      e.data.take 4 = leBytes 4 (u.word (MM_FSTAT_VALID l (s.faultCore l c))).toNat := by
  intro u
  have low {f : Fld} (hf : f.reg < 0x70000000) : (s.faultTaken l c m).g f = s.g f := (s.faultTaken_keep l c m).g (by
    simp only [regIn_cons, not_regIn_nil, or_false, MM_FSTAT_VALID, MM_FADDR_ALO, laneBase]; omega)
  have ev := s.faultTaken_ev l c m
  have event := State.mmuEvent_of_empty (s := s.faultTaken l c m) (by rwa [State.mode, low (by decide)]) (by rwa [State.on, low (by decide)])
    (by rwa [ev]) (by rwa [ev]) (by rwa [ev]) l (s.faultCore l c)
  obtain ⟨x, after, -⟩ := ((s.faultTaken l c m).mmuEvent l (s.faultCore l c)).afterFault_lane l t false
  have stays : u = ((s.faultTaken l c m).mmuEvent l (s.faultCore l c)).modLane l (fun _ => x) := by
    rw [← after, ← user]
    exact (s.mmuFault_eq l c t m).trans (by rw [user]; rfl)
  have status : u.word (MM_FSTAT_VALID l (s.faultCore l c)) = (s.faultTaken l c m).word (MM_FSTAT_VALID l (s.faultCore l c)) := by
    rw [stays, State.word, State.modLane_regs]
    exact ((s.faultTaken l c m).mmuEvent_same l _).2 _ (by simp only [recPage, MM_FSTAT_VALID, laneBase]; omega)
  rw [status, stays, State.modLane_ev, ← ev]
  exact event


/-! ### A refused access (R135, R149 to R151) -/

/-- The access that an `MMU_FAULT` stands for. -/
def faultOp (acc : AccessKind) (sup odd : Bool) (a size : Nat) : CoreOp := match acc with
  | .load => .load sup odd a size
  | .store => .store sup odd a (List.replicate size 0)
  | .fetch => .fetch sup odd a size

section
variable {s : State} {l : Lane} {c a size cause e : Nat} {acc : AccessKind} {sup : Bool}
  (refused : s.mmuCheck l.val (c / 2) a size acc sup = some (cause, e))
include refused

theorem exec_mmuFault {k : Core} (core : k.val = c) (runs : s.pairRuns l.val (c / 2) = true) : exec (.mmuFault l k a acc sup size) s =
    .next (s.access l (s.pairTask l.val (c / 2)) c (faultOp acc sup (c % 2 == 1) a size)).1 := by
  subst core
  refine (if_pos (by simp [runs, refused])).trans ?_
  cases acc <;> rfl

/-- Outside speculation a refused access is an exception (R151). -/
theorem State.access_of_direct {t : Option Nat} (direct : ∀ k, t = some k → s.speculates l.val k = false ∧ s.g (RA_CTX_STATE l.val k) = 0) (odd : Bool) :
    (s.access l t c (faultOp acc sup odd a size)).1 =
      s.mmuFault l.val c t { cause := cause, access := accessCode acc, sup := sup, a := a, entry := e } := by
  cases t with
  | none => cases acc <;> simp [State.access, faultOp, State.meetFault, accessCode, refused]
  | some k =>
    obtain ⟨spec, idle⟩ := direct k rfl
    cases acc <;> simp [State.access, faultOp, State.meetFault, accessCode, refused, spec, idle]

/-- In speculation the context holds it (R135). -/
theorem State.access_of_speculating {t : Nat} (spec : s.speculates l.val t = true) (odd : Bool) :
    (s.access l (some t) c (faultOp acc sup odd a size)).1 = s.holdCtx l.val t [faultOp acc sup odd a size] := by
  cases acc <;> simp [State.access, faultOp, State.meetFault, refused, spec]

end

theorem State.holdCtx_only (s : State) (l t : Nat) (ops : List CoreOp) : OnlyLane s (s.holdCtx l t ops) l (regIn [RA_CTX_STATE l t]) :=
  ((((OnlyLane.refl s l (regIn [RA_CTX_STATE l t])).p (RA_CTX_STATE l t) csStalled (regIn_head _ rfl)).modLane _).modLane _).p (RA_CTX_HELD l t) 1
    (regIn_head _ rfl)

theorem State.holdCtx_shows (s : State) (l t : Nat) (ops : List CoreOp) :
    (s.holdCtx l t ops).g (RA_CTX_STATE l t) = 2 ∧ (s.holdCtx l t ops).on (RA_CTX_HELD l t) = true ∧ ((s.holdCtx l t ops).ctx l t).stalled = ops ∧
      ((s.holdCtx l t ops).lane l).mem = (s.lane l).mem := by
  refine ⟨?_, ?_, ?_, ?_⟩
  · rw [State.holdCtx, State.g_p_apart _ _ (by decide : 5 + 1 ≤ 32) (by decide : 5 + 1 ≤ 0 ∨ 0 + 3 ≤ 5), State.stallCtx_stalls]
  · rw [State.on, State.holdCtx, State.g_p_same _ _ _ (by decide : 5 + 1 ≤ 32)]
    rfl
  · rw [State.holdCtx, State.ctx_p, (s.stallCtx_ctx l t ops).1]
  · rw [State.holdCtx, State.lane_p, State.stallCtx_mem]

/-! ### Corrected words and starvation (R153, R154, R160) -/

theorem State.g_satAdd (s : State) (f : Fld) (n : Nat) (h : f.lo + f.w ≤ 32) : (s.satAdd f n).g f = min (s.g f + n) (2 ^ f.w - 1) := by
  rw [State.satAdd, State.g_p_same _ _ _ h]
  exact Nat.mod_eq_of_lt ((Nat.min_le_right _ _).trans_lt (Nat.sub_one_lt (Nat.two_pow_pos _).ne'))

/-- The counters of corrected words after a scrub (R154). -/
def State.scrubbed (s : State) (l dram l2 tcm : Nat) : State :=
  ((s.satAdd (MM_ECCDRAM_CORR l) dram).satAdd (MM_ECCL2_CORR l) l2).satAdd (TC_ECC_CORR l) tcm

theorem State.scrubbed_only (s : State) (l dram l2 tcm : Nat) :
    OnlyRegs s (s.scrubbed l dram l2 tcm) (regIn [MM_ECCDRAM_CORR l, MM_ECCL2_CORR l, TC_ECC_CORR l]) :=
  (((OnlyRegs.refl s _).p (MM_ECCDRAM_CORR l) _ ⟨_, by simp, rfl⟩).p (MM_ECCL2_CORR l) _ ⟨_, by simp, rfl⟩).p (TC_ECC_CORR l) _ ⟨_, by simp, rfl⟩

theorem State.scrubbed_shows (s : State) (l dram l2 tcm : Nat) :
    let t := s.scrubbed l dram l2 tcm
    t.g (MM_ECCDRAM_CORR l) = min (s.g (MM_ECCDRAM_CORR l) + dram) (2 ^ (MM_ECCDRAM_CORR l).w - 1) ∧
    t.g (MM_ECCL2_CORR l) = min (s.g (MM_ECCL2_CORR l) + l2) (2 ^ (MM_ECCL2_CORR l).w - 1) ∧
    t.g (TC_ECC_CORR l) = min (s.g (TC_ECC_CORR l) + tcm) (2 ^ (TC_ECC_CORR l).w - 1) := by
  have dramL2 : (MM_ECCDRAM_CORR l).reg ≠ (MM_ECCL2_CORR l).reg := by simp [MM_ECCDRAM_CORR, MM_ECCL2_CORR]
  have dramTcm : (MM_ECCDRAM_CORR l).reg ≠ (TC_ECC_CORR l).reg := by simp [MM_ECCDRAM_CORR, TC_ECC_CORR]
  have l2Tcm : (MM_ECCL2_CORR l).reg ≠ (TC_ECC_CORR l).reg := by simp [MM_ECCL2_CORR, TC_ECC_CORR]
  have other {f f' : Fld} (b : State) (n : Nat) (h : f'.reg ≠ f.reg) : (b.satAdd f n).g f' = b.g f' := State.g_p_reg b _ h
  refine ⟨?_, ?_, ?_⟩
  · rw [State.scrubbed, other _ _ dramTcm, other _ _ dramL2, State.g_satAdd _ _ _ (by decide : 0 + 32 ≤ 32)]
  · rw [State.scrubbed, other _ _ l2Tcm, State.g_satAdd _ _ _ (by decide : 0 + 32 ≤ 32), other _ _ dramL2.symm]
  · rw [State.scrubbed, State.g_satAdd _ _ _ (by decide : 0 + 32 ≤ 32), other _ _ l2Tcm.symm, other _ _ dramTcm.symm]

/-- A scrub counts what it corrected, of TCM and L2 only while `TC_CTRL.SCRUB` is 1 (R154). -/
theorem exec_scrubPass {s : State} {l : Lane} (cores : s.coresRun l.val = true) (d l2 tcm : Nat) (m : MemKind) :
    let on := s.on (TC_CTRL_SCRUB l.val)
    let cache := if on then l2 else 0
    let tight := if on then tcm else 0
    let u := (s.scrubbed l.val d cache tight).corrections l.val (d + cache + tight)
    exec (.scrubPass l d l2 tcm none) s = .next u ∧
    exec (.scrubPass l d l2 tcm (some m)) s = .next (if on = true ∨ m = .dram then (u.failCheck 0).report (4 + l.val) 1 (memCode m) else u) := by
  intro on cache tight u
  have runs : ¬ (!s.coresRun l.val) = true := by simp [cores]
  have bad : exec (.scrubPass l d l2 tcm (some m)) s =
      if (on || m == .dram) = true then .next ((u.failCheck 0).report (4 + l.val) 1 (memCode m)) else .next u := if_neg runs
  refine ⟨if_neg runs, bad.trans ?_⟩
  simp only [Bool.or_eq_true, beq_iff_eq]
  exact (apply_ite Host.Outcome.next _ _ _).symm

theorem bit_or_two_pow (v : Nat) {n w : Nat} (h : n < w) : bit ((v ||| 2 ^ n) % 2 ^ w) n = true := by
  have set : ((v ||| 2 ^ n) % 2 ^ w).testBit n = true := by simp [Nat.testBit_mod_two_pow, Nat.testBit_or, h]
  rwa [Nat.testBit_eq_decide_div_mod_eq] at set

/-- The counters of a bank after a DMA request's wait beyond the threshold (R160). -/
def State.starved (s : State) (l b clks : Nat) : State :=
  let t := s.satAdd (TC_WAIT_CLKS l b) clks
  (t.inc (TC_STARV_COUNT l b)).p (TC_STAT_STARV l) (t.g (TC_STAT_STARV l) ||| 2 ^ b)

theorem State.starved_only (s : State) (l b clks : Nat) :
    OnlyRegs s (s.starved l b clks) (regIn [TC_WAIT_CLKS l b, TC_STARV_COUNT l b, TC_STAT_STARV l]) :=
  (((OnlyRegs.refl s _).p (TC_WAIT_CLKS l b) _ ⟨_, by simp, rfl⟩).p (TC_STARV_COUNT l b) _ ⟨_, by simp, rfl⟩).p (TC_STAT_STARV l) _ ⟨_, by simp, rfl⟩

theorem State.starved_shows (s : State) (l clks : Nat) {b : Nat} (hb : b < 8) :
    let t := s.starved l b clks
    t.g (TC_WAIT_CLKS l b) = min (s.g (TC_WAIT_CLKS l b) + clks) (2 ^ (TC_WAIT_CLKS l b).w - 1) ∧
    t.g (TC_STARV_COUNT l b) = (s.g (TC_STARV_COUNT l b) + 1) % 2 ^ (TC_STARV_COUNT l b).w ∧
    bit (t.g (TC_STAT_STARV l)) b = true := by
  have waitCount : (TC_WAIT_CLKS l b).reg ≠ (TC_STARV_COUNT l b).reg := by simp only [TC_WAIT_CLKS, TC_STARV_COUNT]; omega
  have waitStat : (TC_WAIT_CLKS l b).reg ≠ (TC_STAT_STARV l).reg := by simp only [TC_WAIT_CLKS, TC_STAT_STARV]; omega
  have countStat : (TC_STARV_COUNT l b).reg ≠ (TC_STAT_STARV l).reg := by simp only [TC_STARV_COUNT, TC_STAT_STARV]; omega
  refine ⟨?_, ?_, ?_⟩
  · rw [State.starved, State.g_p_reg _ _ waitStat, State.inc, State.g_p_reg _ _ waitCount, State.g_satAdd _ _ _ (by decide : 0 + 32 ≤ 32)]
  · rw [State.starved, State.g_p_reg _ _ countStat, State.inc, State.g_p_same _ _ _ (by decide : 0 + 32 ≤ 32), State.satAdd,
      State.g_p_reg _ _ waitCount.symm]
  · rw [State.starved, State.g_p_same _ _ _ (by decide : 0 + 8 ≤ 32)]
    exact bit_or_two_pow _ hb

section
variable {s : State} {l : Lane} {b : Fin 8} {clks : Nat} (cores : s.coresRun l.val = true)
include cores

/-- The threshold that a wait is held against is not the counter of waits. -/
theorem exec_tcmStarvation : exec (.tcmStarvation l b clks) s =
    if clks ≤ 800 * s.g (TC_STARVTHR_US l.val b.val) then .next (s.satAdd (TC_WAIT_CLKS l.val b.val) clks)
    else .next ((s.starved l.val b.val clks).laneNotice l.val 4 b.val ((s.starved l.val b.val clks).word (TC_STAT_STARV l.val))) := by
  have threshold : (s.satAdd (TC_WAIT_CLKS l.val b.val) clks).g (TC_STARVTHR_US l.val b.val) = s.g (TC_STARVTHR_US l.val b.val) :=
    State.g_p_reg _ _ (by simp only [TC_STARVTHR_US, TC_WAIT_CLKS]; omega)
  rw [← threshold]
  exact if_neg (by simp [cores])

end

theorem State.laneNotice_same (s : State) (l : Lane) (code elem : Nat) (st : Word) : SameBut s (s.laneNotice l.val code elem st) :=
  s.notice_same _ _ _ _ (by omega)

end Sys2Proof.Machine

namespace Sys2Proof.Proofs
open Sys2Proof.Machine Sys2Proof.Safety

/-- Settles O28: a refused access taken or held, what a fault leaves in its registers, the recorder and the lane, the scrub and the starvation. -/
theorem laneMemoryFaultsAndScrubs : Obligations.LaneMemoryFaultsAndScrubs := by
  intro s l c a size acc sup m d l2 tcm clks b i
  refine ⟨fun cause e runs refused => ⟨fun untasked => ?runtime, fun t task spec idle => ?direct, fun t task spec => ?held⟩, fun r t => ?recorded,
    fun present => if_neg (by simpa using present), fun cores => ?scrub, fun cores => ⟨fun within => ?waits, fun beyond => ?starves⟩⟩
  case runtime =>
    rw [exec_mmuFault refused rfl runs, untasked, State.access_of_direct (t := none) refused (by simp)]
  case direct =>
    rw [exec_mmuFault refused rfl runs, task, State.access_of_direct refused (by rintro k ⟨⟩; exact ⟨spec, idle⟩)]
  case held =>
    refine ⟨_, exec_mmuFault refused rfl runs, ?_⟩
    rw [task, State.access_of_speculating refused spec]
    obtain ⟨state, held, stalled, mem⟩ := s.holdCtx_shows i t [faultOp acc sup (c.val % 2 == 1) a size]
    exact ⟨state, held, congrArg List.length stalled, State.holdCtx_only _ _ _ _, mem⟩
  case recorded =>
    intro k u
    have core : s.faultCore i c.val = k := by
      rw [State.faultCore, Nat.mul_comm]
      simp only [beq_iff_eq, k]
    have keep : RegsKeep (s.mmuRecord i k r) u (fun a => r.sup = false ∧ recPage a) := core ▸ s.mmuFault_keep i c.val t r
    obtain ⟨valid, later, first⟩ := s.mmuRecord_shows i k r
    have stat {f : Fld} (h : f.reg = (MM_FSTAT_VALID i k).reg) : u.g f = (s.mmuRecord i k r).g f := core ▸ s.g_mmuFault i c.val t r (by
      simp only [h, recPage, MM_FSTAT_VALID, laneBase]; omega)
    have addr : u.g (MM_FADDR_ALO i k) = (s.mmuRecord i k r).g (MM_FADDR_ALO i k) := core ▸ s.g_mmuFault i c.val t r (by
      simp only [recPage, MM_FADDR_ALO, laneBase]; omega)
    refine ⟨(stat rfl).trans valid, fun on => ?_, fun off => ?_, ?_, s.mmuFault_mem _ _ _ _, ?_, fun sup => s.mmuFault_halts _ _ _ sup, ?_⟩
    · rw [stat (f := MM_FSTAT_MORE i k) rfl, stat (f := MM_FSTAT_CAUSE i k) rfl, addr]
      exact later on
    · rw [State.on, stat (f := MM_FSTAT_MORE i k) rfl, stat (f := MM_FSTAT_CAUSE i k) rfl, stat (f := MM_FSTAT_PRIV i k) rfl, addr]
      exact first off
    · exact ((s.mmuRecord_only i k r).2.mono (fun _ => .inl)).trans (keep.mono (fun _ => .inr))
    · exact core ▸ fun user => State.mmuFault_event i c.val t user
    · rintro n rfl user runs
      exact State.mmuFault_abandons i c.val n user runs
  case scrub =>
    obtain ⟨dram, cache, tight⟩ := s.scrubbed_shows i d (if s.on (TC_CTRL_SCRUB i) then l2 else 0) (if s.on (TC_CTRL_SCRUB i) then tcm else 0)
    exact ⟨_, dram, cache, tight, State.scrubbed_only _ _ _ _ _, exec_scrubPass cores d l2 tcm m⟩
  case waits =>
    refine ⟨_, (exec_tcmStarvation cores).trans (if_pos within), State.g_satAdd _ _ _ (by decide : 0 + 32 ≤ 32), OnlyRegs.of_p s _ (regIn_head _ rfl)⟩
  case starves =>
    obtain ⟨wait, count, stat⟩ := s.starved_shows i clks b.isLt
    have noted := (s.starved i b.val clks).laneNotice_same l 4 b.val ((s.starved i b.val clks).word (TC_STAT_STARV i))
    refine ⟨_, (exec_tcmStarvation cores).trans (if_neg (Nat.not_le.2 beyond)), ?_, ?_, ?_, (s.starved_only i b.val clks).record noted⟩
    all_goals rw [noted.g _ (by simp only [recPage, TC_WAIT_CLKS, TC_STARV_COUNT, TC_STAT_STARV, laneBase]; omega)]
    · exact wait
    · exact count
    · exact stat

end Sys2Proof.Proofs

/-! SUPPORT. Retained memory, wipes and digest windows (R51, R52, R73, R155 to R157, R173 to R175): the limit of a cycle's words, the lanes' buffers,
a transaction on retained memory, a write of `SD_CTRL`. -/

namespace Sys2Proof.Machine
open Sys2Proof.Safety

/-! ### Bytes and tables -/

/-- What a byte reads after a write of bytes. -/
theorem Mem.rd_wrL (m : Mem) (a : Nat) (bs : List Byte) (n : Nat) :
    (m.wrL a bs).rd n = if a ≤ n ∧ n < a + bs.length then bs.getD (n - a) 0 else m.rd n := by
  split
  case isTrue inside =>
    obtain ⟨i, rfl⟩ := Nat.exists_eq_add_of_le inside.1
    have hi : i < bs.length := by omega
    rw [Mem.rd_wrL_in m a bs i hi, Nat.add_sub_cancel_left, List.getD_eq_getElem _ _ hi]
  case isFalse outside => exact Mem.rd_wrL_out m a bs n (by omega)

/-- A table filled key by key holds at each of the keys what was put there. -/
theorem tabGet_foldl_tabSet {α : Type} [DecidableEq α] (d f : Nat → α) {ks : List Nat} {k : Nat} (acc : Tab α) (h : k ∈ ks ∨ tabGet d acc k = f k) :
    tabGet d (ks.foldl (fun t j => tabSet d t j (f j)) acc) k = f k := by
  induction ks generalizing acc with
  | nil => exact h.resolve_left List.not_mem_nil
  | cons j ks ih =>
    refine ih _ (or_iff_not_imp_left.2 fun later => ?_)
    by_cases own : k = j
    · rw [own, tabGet_tabSet_same]
    · rw [tabGet_tabSet_ne _ _ _ own]
      exact h.resolve_left (fun listed => (List.mem_cons.1 listed).elim own later)

theorem State.lane_modLane_ne (s : State) {l k : Nat} (f : LaneSt → LaneSt) (hl : l < 4) (hk : k < 4) (h : k ≠ l) :
    (s.modLane l f).lane k = s.lane k := State.lane_setLane_ne s _ hl hk h

/-! ### Retained stores (R155 to R157) -/

/-- The offset of the retained word that an address lies in. -/
def retWord (a : Nat) : Nat := a % 0x1000000 / 8 * 8

theorem retWord_retWord (a : Nat) : retWord (retWord a) = retWord a := by
  simp only [retWord]
  omega

/-- Over the limit is a word that a cycle which has written 256 has not written (R155). -/
theorem State.retOver_task_iff (s : State) (l : Nat) (t : Task) (a : Nat) :
    let words := (s.lt l t.val).retWords.eraseDups
    s.retOver l (.task t) (retWord a) [] = true ↔ retWord a ∉ words ∧ 256 ≤ words.length := by
  have own : retWord a % 0x1000000 / 8 * 8 = retWord a := retWord_retWord a
  simp [State.retOver, own]

theorem State.retOver_runtime {s : State} (h : s.app.state ≠ .starting) (l a : Nat) (more : List Nat) : s.retOver l .runtime a more = true := by
  simp [State.retOver, h]

section
variable {s : State} {l : Lane} {t : Task} {a : Nat} {mask : BitVec 8} {v : BitVec 64}

theorem exec_retainedStore_runtime (live : l.val ∈ s.liveLanes) (runs : s.pairRuns l.val 0 = true) :
    exec (.retainedStore l .runtime a mask v) s =
      if s.retOver l.val .runtime (retWord a) [] = true then
        .next (s.mmuFault l.val 0 none { cause := 6, access := 1, sup := true, a := 0x1C0000000 + retWord a })
      else .next (s.retStore l .runtime (retWord a) mask.toNat v) := if_neg (by simp [live, runs])

variable (works : s.worksOn l.val t.val = true) (runs : s.pairRuns l.val (s.desc t.val).pair = true)
include works runs

theorem exec_retainedStore_direct (spec : s.speculates l.val t.val = false) (idle : s.g (RA_CTX_STATE l.val t.val) = 0) :
    exec (.retainedStore l (.task t) a mask v) s =
      if s.retOver l.val (.task t) (retWord a) [] = true then
        .next (s.mmuFault l.val (2 * (s.desc t.val).pair) (some t.val) { cause := 6, access := 1, sup := false, a := 0x1C0000000 + retWord a })
      else .next (s.retStore l (.task t) (retWord a) mask.toNat v) :=
  (if_neg (by simp [works, runs, State.taskCore])).trans ((if_neg (by simp [spec])).trans (if_neg (by simp [idle])))

theorem exec_retainedStore_speculating (spec : s.speculates l.val t.val = true) :
    let op : CoreOp := .store false false (0x1C0000000 + retWord a) (leBytes 8 (maskMerge (s.specRetRead l.val t.val (retWord a)) v mask.toNat).toNat)
    exec (.retainedStore l (.task t) a mask v) s =
      if s.retOver l.val (.task t) (retWord a) (s.ctx l.val t.val).retWords = true then .next (s.holdCtx l.val t.val [op])
      else .next (s.deferWrite l.val t.val (0x1C0000000 + retWord a) mask.toNat v op) :=
  (if_neg (by simp [works, runs, State.taskCore])).trans (if_pos (by simp [spec]))

end

/-- The cycle that a task's retained store belongs to: after a submission the next one (R99). -/
def LaneTask.storeCycle (y : LaneTask) : Nat := y.cycle + (if y.phase = .submitted then 1 else 0)

/-- A task's place with one more retained store, its word counted once (R155). -/
def LaneTask.countStore (y : LaneTask) (a : Nat) : LaneTask :=
  { y with retWords := if y.retWords.contains a then y.retWords else a :: y.retWords, retPos := y.retPos + 1 }

/-- A lane with a task's store in its buffer, in the place of one of the same cycle to the same word (R157). -/
def LaneSt.holdStore (x : LaneSt) (t : Task) (cycle place a : Nat) (v : BitVec 64) : LaneSt :=
  { x with rbuf := x.rbuf.filter (fun e => !(e.st == .task t && e.cycle == cycle && e.a == a)) ++
    [{ st := .task t, cycle := cycle, place := place, a := a, v := v }] }

/-- A state whose lane holds a task's store that is still to be posted (R155, R157). -/
def State.retHeld (s : State) (l : Nat) (t : Task) (a : Nat) (v : BitVec 64) : State :=
  let y := s.lt l t.val
  ((s.modLt l t.val (·.countStore a)).modLane l (·.holdStore t y.storeCycle y.retPos a v)).retPend l

theorem State.retStore_task (s : State) (l : Lane) (t : Task) (a mask : Nat) (v : BitVec 64) :
    let new := maskMerge (s.retRead l.val (retWord a)) v mask
    let y := s.lt l.val t.val
    s.retStore l (.task t) a mask v =
      ((s.retHeld l.val t (retWord a) new).postStream .retained (.task t) y.retPos l (retBytes y.storeCycle (retWord a) new)).1 := by
  simp only [State.retHeld, LaneTask.storeCycle, LaneSt.holdStore, ← beq_iff_eq (α := LanePhase)]
  rfl

theorem State.retHeld_spec (s : State) (l : Nat) (t : Task) (a : Nat) (v : BitVec 64) :
    let b := s.retHeld l t a v
    let y := s.lt l t.val
    (b.lane l).rbuf = ((s.lane l).holdStore t y.storeCycle y.retPos a v).rbuf ∧ (b.lt l t.val).retPos = y.retPos + 1 ∧
      (∀ n, n ∈ (b.lt l t.val).retWords ↔ n = a ∨ n ∈ y.retWords) ∧ (b.lane l).mem = (s.lane l).mem ∧ RegsKeep s b (regIn [MM_RETAIN_PEND l]) := by
  have lane : (s.retHeld l t a v).lane l = ((s.modLt l t.val (·.countStore a)).lane l).holdStore t (s.lt l t.val).storeCycle (s.lt l t.val).retPos a v := by
    rw [State.retHeld, State.retPend, State.lane_p, State.lane_modLane_same]
  have task : (s.retHeld l t a v).lt l t.val = (s.lt l t.val).countStore a := by
    rw [State.lt, lane]
    exact State.lt_modLt_same s l t.val _
  rw [State.modLt, State.lane_modLane_same] at lane
  simp only [lane, task]
  refine ⟨rfl, rfl, fun n => List.mem_insert_iff, rfl, ?_⟩
  exact (State.regsKeep_modLane (State.regsKeep_modLane (RegsKeep.refl s _) l _) l _).trans (OnlyRegs.of_p _ _ (regIn_head _ rfl)).2

/-! ### The transaction of a cycle (R156) -/

theorem exec_retainedApply {s : State} (awake : s.mode ≠ mDormant) {st : RetStream} {u : StreamVote} {us : List StreamVote}
    (due : s.retDue st = u :: us) :
    exec (.retainedApply st) s = .next ((u :: us).foldl State.endStream ((s.retWrite (u :: us)).retRetire st u.cycle)) := by
  refine (if_neg (by simpa using awake)).trans (congrArg Host.Outcome.next ?_)
  rw [State.retApply, due]

/-- A transaction writes its stores in the order of their places (R156). -/
theorem State.retWrite_cons (s : State) (u : StreamVote) (us : List StreamVote) :
    (s.retWrite (u :: us)).app.retMem = ((s.retWrite [u]).retWrite us).app.retMem := by
  cases won : u.won <;> simp [State.retWrite, won]

theorem State.retWrite_rd (s : State) {u : StreamVote} {x : List Byte} (won : u.won = some x) (n : Nat) :
    (s.retWrite [u]).app.retMem.rd n = if leAt x 8 4 ≤ n ∧ n < leAt x 8 4 + 8 then (leBytes 8 (leAt x 12 8)).getD (n - leAt x 8 4) 0
      else s.app.retMem.rd n := by
  have writes : (s.retWrite [u]).app.retMem = s.app.retMem.wrL (leAt x 8 4) (leBytes 8 (leAt x 12 8)) := by simp [State.retWrite, won, retOf]
  rw [writes, Mem.rd_wrL, length_leBytes]

/-- The stores of a cycle leave one lane's buffer (R157). -/
def State.retireLane (st : RetStream) (cycle : Nat) (s : State) (l : Nat) : State :=
  (s.modLane l (fun x => { x with rbuf := x.rbuf.filter (fun e => !(e.st == st && e.cycle == cycle)) })).retPend l

theorem State.retRetire_eq (s : State) (st : RetStream) (cycle : Nat) : s.retRetire st cycle = [0, 1, 2, 3].foldl (State.retireLane st cycle) s := rfl

theorem State.mem_rbuf_retireLane {s : State} {st : RetStream} {cycle l n : Nat} (hl : l < 4) (hn : n < 4) (e : RetEnt) :
    e ∈ ((s.retireLane st cycle l).lane n).rbuf ↔ e ∈ (s.lane n).rbuf ∧ (n = l → ¬ (e.st = st ∧ e.cycle = cycle)) := by
  rw [State.retireLane, State.retPend, State.lane_p]
  by_cases own : n = l
  · simp [own, or_iff_not_imp_left]
  · simp [State.lane_modLane_ne s _ hl hn own, own]

theorem State.mem_rbuf_foldl_retireLane {st : RetStream} {cycle n : Nat} (hn : n < 4) (e : RetEnt) {ls : List Nat} (hls : ∀ l ∈ ls, l < 4)
    (s : State) :
    e ∈ ((ls.foldl (State.retireLane st cycle) s).lane n).rbuf ↔ e ∈ (s.lane n).rbuf ∧ (n ∈ ls → ¬ (e.st = st ∧ e.cycle = cycle)) := by
  induction ls generalizing s with
  | nil => simp
  | cons l ls ih =>
    obtain ⟨hl, hls⟩ := List.forall_mem_cons.1 hls
    rw [List.foldl_cons, ih hls, State.mem_rbuf_retireLane hl hn, List.mem_cons, and_assoc, ← or_imp]

theorem State.mem_rbuf_retRetire (s : State) (st : RetStream) (cycle : Nat) {n : Nat} (hn : n < 4) (e : RetEnt) :
    e ∈ ((s.retRetire st cycle).lane n).rbuf ↔ e ∈ (s.lane n).rbuf ∧ ¬ (e.st = st ∧ e.cycle = cycle) := by
  have every : n ∈ [0, 1, 2, 3] := by simp; omega
  rw [State.retRetire_eq, State.mem_rbuf_foldl_retireLane hn e (by decide), imp_iff_right every]

/-! ### The digest windows (R51, R52, R73) -/

/-- `SD_CTRL` as a write that is taken leaves it. -/
def State.sdWritten (s : State) (l : Nat) (w : Word) : State := (s.pb (SD_CTRL_EN l) (getBits w 0 1 == 1)).p (SD_CTRL_SEL l) (getBits w 4 4)

theorem State.sdWritten_only (s : State) (l : Nat) (w : Word) : OnlyRegs s (s.sdWritten l w) (regIn [SD_CTRL_EN l]) :=
  ((OnlyRegs.refl s _).pb (SD_CTRL_EN l) _ (regIn_head _ rfl)).p (SD_CTRL_SEL l) _ (regIn_head _ rfl)

theorem State.sdWritten_shows (s : State) (l : Nat) (w : Word) : (s.sdWritten l w).g (SD_CTRL_EN l) = getBits w 0 1 ∧
    (s.sdWritten l w).g (SD_CTRL_SEL l) = getBits w 4 4 := by
  have en : (if (getBits w 0 1 == 1) = true then 1 else 0) % 2 = getBits w 0 1 := by
    obtain h | h : getBits w 0 1 = 0 ∨ getBits w 0 1 = 1 := by have := getBits_lt w 0 1; omega
    all_goals simp [h]
  refine ⟨?_, (State.g_p_same _ _ _ (by decide : 4 + 4 ≤ 32)).trans (Nat.mod_eq_of_lt (getBits_lt w 4 4))⟩
  rw [State.sdWritten, State.g_p_apart _ _ (by decide : 4 + 4 ≤ 32) (by decide : 4 + 4 ≤ 0 ∨ 0 + 1 ≤ 4), State.pb,
    State.g_p_same _ _ _ (by decide : 0 + 1 ≤ 32)]
  exact en

/-- The digests depend on the windows and the memory, not on `SD_CTRL` (R49). -/
theorem State.scanDigest_sdWritten (s : State) (l : Nat) (w : Word) (t : Nat) : (s.sdWritten l w).scanDigest l t = s.scanDigest l t := by
  have only := s.sdWritten_only l w
  have base (n : Nat) : (s.sdWritten l w).g (SD_WINBASE_BASE l n) = s.g (SD_WINBASE_BASE l n) := only.g (by
    simp only [regIn_cons, not_regIn_nil, or_false, SD_WINBASE_BASE, SD_CTRL_EN]; omega)
  have pages (n : Nat) : (s.sdWritten l w).g (SD_WINSIZE_PAGES l n) = s.g (SD_WINSIZE_PAGES l n) := only.g (by
    simp only [regIn_cons, not_regIn_nil, or_false, SD_WINSIZE_PAGES, SD_CTRL_EN]; omega)
  have owner (n : Nat) : (s.sdWritten l w).g (SD_WINSIZE_OWNER l n) = s.g (SD_WINSIZE_OWNER l n) := only.g (by
    simp only [regIn_cons, not_regIn_nil, or_false, SD_WINSIZE_OWNER, SD_CTRL_EN]; omega)
  simp only [State.scanDigest, base, pages, owner, only.lane]

/-- A lane with every task's digest as given. -/
def LaneSt.withDigests (x : LaneSt) (f : Nat → BitVec 128) : LaneSt :=
  { x with digest := (List.range 16).foldl (fun (d : Tab (BitVec 128)) t => tabSet (fun _ => 0) d t (f t)) [] }

theorem LaneSt.dig_withDigests (x : LaneSt) (f : Nat → BitVec 128) {n : Nat} (hn : n < 16) : (x.withDigests f).dig n = f n :=
  tabGet_foldl_tabSet _ f [] (.inl (List.mem_range.2 hn))

section
variable {s : State} {l : Lane} {w : Word}

theorem exec_sdEnable_refused (en : (getBits w 0 1 == 1) = true) (bad : s.windowsOk l.val = false) : exec (.sdEnable l w) s =
    .next ((s.p (SD_STAT_WINERR l.val) 1).laneNotice l.val 3 0 ((s.p (SD_STAT_WINERR l.val) 1).word (SD_STAT_WINERR l.val))) :=
  congrArg Host.Outcome.next (if_pos (by simpa [bad] using en))

theorem exec_sdEnable_rise (en : (getBits w 0 1 == 1) = true) (good : s.windowsOk l.val = true) (off : s.on (SD_CTRL_EN l.val) = false) :
    exec (.sdEnable l w) s = .next (((s.sdWritten l.val w).modLane l.val (·.withDigests ((s.sdWritten l.val w).scanDigest l.val))).p
      (SD_STAT_SCANBUSY l.val) 1) :=
  congrArg Host.Outcome.next ((if_neg (by simp [good])).trans (if_pos (by simpa [off] using en)))

theorem exec_sdEnable_again (en : (getBits w 0 1 == 1) = true) (good : s.windowsOk l.val = true) (on : s.on (SD_CTRL_EN l.val) = true) :
    exec (.sdEnable l w) s = .next (s.sdWritten l.val w) :=
  congrArg Host.Outcome.next ((if_neg (by simp [good])).trans ((if_neg (by simp [on])).trans (if_pos en)))

theorem exec_sdEnable_off (off : (getBits w 0 1 == 1) = false) : exec (.sdEnable l w) s = .next ((s.sdWritten l.val w).p (SD_STAT_SCANBUSY l.val) 0) :=
  congrArg Host.Outcome.next ((if_neg (by simp [off])).trans ((if_neg (by simp [off])).trans (if_neg (by simp [off]))))

end

theorem State.retryOps_of_none {s : State} {l : Lane} (h : (s.lane l.val).waitOps = []) : s.retryOps l = s := by
  rw [State.retryOps, h]

end Sys2Proof.Machine

namespace Sys2Proof.Proofs
open Sys2Proof.Machine Sys2Proof.Safety

/-- Settles O29: a retained store by who makes it and whether its word is over the limit, the transaction of the least ended cycle, what the
retention rail and the wipes leave, and a write of `SD_CTRL` by its `EN` and the windows. That the least ended cycle comes first is log 63's choice,
that `EN` 0 ends the scan is log 19's. -/
theorem retainedMemoryWipesAndDigests : Obligations.RetainedMemoryWipesAndDigests := by
  refine ⟨fun s l t st a mask v => ?retained, fun s l w => ?windows⟩
  case retained =>
    intro i k w c
    have lane (f : LaneSt → LaneSt) : (s.modLane i f).lane i = f (s.lane i) := State.lane_modLane_same s i f
    refine ⟨fun live runs => ⟨fun within => ?_, fun beyond => ?_⟩,
      fun works runs => ⟨fun spec idle => ⟨fun within => ?_, fun beyond => ?_⟩, fun spec => ⟨fun within => ?_, fun beyond => ?_⟩⟩,
      ⟨s.retOver_task_iff i t a, fun h => State.retOver_runtime h i w [], ?held⟩,
      fun awake u us due => ⟨exec_retainedApply awake due, s.retWrite_cons u us, fun x won => s.retWrite_rd won,
        fun n hn => s.mem_rbuf_retRetire st u.cycle hn⟩,
      fun parked present => ⟨_, if_pos (by simpa [parked] using present), ?_, State.modLane_eq_lane _ _ _, ?_⟩,
      ⟨_, rfl, ?_, ?_, State.modLane_eq_lane _ _ _, ?_⟩, ⟨_, rfl, ?_, ?_, State.modLane_eq_lane _ _ _, ?_⟩⟩
    · exact (exec_retainedStore_runtime live runs).trans (if_neg (Bool.eq_false_iff.1 within))
    · exact (exec_retainedStore_runtime live runs).trans (if_pos beyond)
    · exact (exec_retainedStore_direct works runs spec idle).trans (if_neg (Bool.eq_false_iff.1 within))
    · exact (exec_retainedStore_direct works runs spec idle).trans (if_pos beyond)
    · exact (exec_retainedStore_speculating works runs spec).trans (if_neg (Bool.eq_false_iff.1 within))
    · exact (exec_retainedStore_speculating works runs spec).trans (if_pos beyond)
    case held =>
      have stores := s.retStore_task l t w mask.toNat v
      rw [show retWord w = w from retWord_retWord a] at stores
      obtain ⟨buffer, place, words, mem, keep⟩ := s.retHeld_spec i t w (maskMerge (s.retRead i w) v mask.toNat)
      exact ⟨_, stores, buffer, place, words, mem, keep⟩
    all_goals rw [lane]
  case windows =>
    intro i en
    have busy (b : State) {v : Nat} (hv : v < 2) : (b.p (SD_STAT_SCANBUSY i) v).g (SD_STAT_SCANBUSY i) = v :=
      (State.g_p_same _ _ _ (by decide : 2 + 1 ≤ 32)).trans (Nat.mod_eq_of_lt hv)
    have apart : (SD_CTRL_EN i).reg ≠ (SD_STAT_SCANBUSY i).reg := by simp [SD_CTRL_EN, SD_STAT_SCANBUSY]
    have enable (b : State) (v : Nat) : (b.p (SD_STAT_SCANBUSY i) v).g (SD_CTRL_EN i) = b.g (SD_CTRL_EN i) := State.g_p_reg _ _ apart
    have select (b : State) (v : Nat) : (b.p (SD_STAT_SCANBUSY i) v).g (SD_CTRL_SEL i) = b.g (SD_CTRL_SEL i) := State.g_p_reg _ _ apart
    have both : regIn [SD_CTRL_EN i, SD_STAT_SCANBUSY i] (SD_STAT_SCANBUSY i).reg := ⟨_, by simp, rfl⟩
    have written := s.sdWritten_only i w
    obtain ⟨shownEn, shownSel⟩ := s.sdWritten_shows i w
    refine ⟨fun on bad => ?refused, fun on good rises => ?rise, fun on good again => ?again, fun off => ?off, ?done⟩
    case refused =>
      have noted := (s.p (SD_STAT_WINERR i) 1).laneNotice_same l 3 0 ((s.p (SD_STAT_WINERR i) 1).word (SD_STAT_WINERR i))
      refine ⟨_, exec_sdEnable_refused on bad, ?_, ?_, (OnlyRegs.of_p s 1 (regIn_head _ rfl)).record noted⟩
      all_goals rw [noted.g _ (by simp only [recPage, SD_STAT_WINERR, SD_CTRL_EN, laneBase]; omega)]
      · exact State.g_p_same _ _ _ (by decide : 0 + 1 ≤ 32)
      · exact State.g_p_reg _ _ apart
    case rise =>
      refine ⟨_, exec_sdEnable_rise on good rises, ?_, ?_, busy _ (by decide), fun n hn => ?_, ?_, ?_⟩
      · rw [enable, State.g_modLane, shownEn, eq_of_beq on]
      · rw [select, State.g_modLane, shownSel]
      · rw [State.lane_p, State.lane_modLane_same, LaneSt.dig_withDigests _ _ hn, State.scanDigest_sdWritten]
      · rw [State.lane_p, State.lane_modLane_same, written.lane]
        rfl
      · exact (State.regsKeep_modLane (written.2.mono (regIn_mono (by simp))) i _).trans (OnlyRegs.of_p _ _ both).2
    case again =>
      exact ⟨_, exec_sdEnable_again on good again, shownEn.trans (eq_of_beq on), shownSel, written⟩
    case off =>
      have zero : getBits w 0 1 = 0 := by have bound := getBits_lt w 0 1; have := ne_of_beq_false off; omega
      refine ⟨_, exec_sdEnable_off off, ?_, ?_, busy _ (by decide), (written.mono (regIn_mono (by simp))).p _ _ both⟩
      · rw [enable, shownEn, zero]
      · rw [select, shownSel]
    case done =>
      exact ⟨s.p (SD_STAT_SCANBUSY i) 0, rfl, busy _ (by decide), OnlyRegs.of_p s 0 (regIn_head _ rfl),
        fun none => State.retryOps_of_none (by rwa [State.lane_p])⟩

end Sys2Proof.Proofs

/-! SUPPORT. DMA commands of a speculating owner (R132, R135, R163): the state that tells the statement on DMA channels from the model. -/

namespace Sys2Proof.Machine

/-- The reset state, but that lane A votes and its pair 0 runs task 0 in speculation. Channel 0, task 0's, has length 0, so that its `START` is refused. -/
def speculatingOwner : State := ((State.reset.p (laneFld 0) laVoting).p (RA_PAIRCTX_VALID 0 0) 1).p (RA_CTX_STATE 0 0) csRunning

/-- What the context holds is the `DM_CMD0` write of the pair's leading core: `odd` is false. -/
theorem speculatingOwner_holds : ((speculatingOwner.dmaRow 0 0 1).ctx 0 0).stalled = [.store true false 0x180040024 (leBytes 4 1)] := by decide

end Sys2Proof.Machine

namespace Sys2Proof.Proofs
open Sys2Proof.Machine Sys2Proof.Safety

/-- Refutes O30: where the owner speculates and its `START` would be refused, the statement has the context hold `DM_CMDn`'s write as one of the pair's
trailing core (`.store true true`), while the model holds it as one of the leading core (`.store true false`). -/
theorem not_dmaChannelsRun : ¬ Obligations.DmaChannelsRun := by
  intro h
  obtain ⟨-, speculating, -⟩ := h speculatingOwner 0 0 0
  obtain ⟨-, -, refused, -⟩ := speculating (by decide) (by decide)
  have stated : speculatingOwner.dmaRow 0 0 1 = speculatingOwner.holdCtx 0 0 [.store true true 0x180040024 (leBytes 4 1)] :=
    Host.Outcome.next.inj (refused (by decide))
  have holds := speculatingOwner_holds
  rw [stated, (speculatingOwner.holdCtx_shows 0 0 _).2.2.1] at holds
  exact absurd holds (by decide)

end Sys2Proof.Proofs

/-! SUPPORT. The exchange window (R169 to R171, R370): what an access stores, which accesses collide and what each port is told, what a port B access
does for the voted access that waits for it. -/

namespace Sys2Proof.Machine
open Sys2Proof.Safety

/-! ### The array -/

/-- What a byte reads after a row of bytes is written where it is enabled. -/
theorem Mem.rd_foldl_enabled (p : Nat → Bool) (f : Nat → Byte) (m : Mem) (a n j : Nat) :
    ((List.range n).foldl (fun m i => if p i then m.wr (a + i) (f i) else m) m).rd j =
      if a ≤ j ∧ j < a + n ∧ p (j - a) = true then f (j - a) else m.rd j := by
  induction n with
  | zero => exact (if_neg (by omega)).symm
  | succ n ih =>
    rw [List.range_succ, List.foldl_append]
    simp only [List.foldl_cons, List.foldl_nil]
    by_cases last : j = a + n
    · subst last
      simp only [Nat.add_sub_cancel_left] at ih ⊢
      by_cases enabled : p n = true
      · rw [if_pos enabled, Mem.rd_wr_same, if_pos ⟨by omega, by omega, enabled⟩]
      · rw [if_neg enabled, ih, if_neg (by omega), if_neg (fun h => enabled h.2.2)]
    · have same : (a ≤ j ∧ j < a + (n + 1) ∧ p (j - a) = true) ↔ (a ≤ j ∧ j < a + n ∧ p (j - a) = true) :=
        ⟨fun ⟨low, till, on⟩ => ⟨low, by omega, on⟩, fun ⟨low, till, on⟩ => ⟨low, by omega, on⟩⟩
      rw [if_congr same rfl rfl, ← ih]
      split
      · exact Mem.rd_wr_ne _ _ last
      · rfl

theorem State.winWrite_rd (s : State) (word : Nat) (v : Word) (be j : Nat) : (s.winWrite word v be).rb.win.rd j =
    if 4 * word ≤ j ∧ j < 4 * word + 4 ∧ bit be (j - 4 * word) = true then BitVec.ofNat 8 (v.toNat / 256 ^ (j - 4 * word)) else s.rb.win.rd j :=
  Mem.rd_foldl_enabled (bit be) (fun i => BitVec.ofNat 8 (v.toNat / 256 ^ i)) s.rb.win (4 * word) 4 j

/-- What a write leaves in the array depends on the array alone. -/
theorem State.winWrite_win {s t : State} (h : t.rb.win = s.rb.win) (word : Nat) (v : Word) (be : Nat) :
    (t.winWrite word v be).rb.win = (s.winWrite word v be).rb.win := by
  simp only [State.winWrite, h]

/-! ### Accesses in time -/

theorem State.winSettle_of_busy {s : State} {clk : Nat} (a : ∀ x, s.rb.winA = some x → clk < x.clk + 2)
    (b : ∀ x, s.rb.winB = some x → clk < x.clk + 2) : s.winSettle clk = s := by
  unfold State.winSettle
  cases hA : s.rb.winA with
  | none =>
    cases hB : s.rb.winB with
    | none => simp only [hB]
    | some y => simp only [hB, if_neg (Nat.not_le.2 (b y hB))]
  | some x =>
    simp only [if_neg (Nat.not_le.2 (a x hA))]
    cases hB : s.rb.winB with
    | none => rfl
    | some y => simp only [if_neg (Nat.not_le.2 (b y hB))]

theorem State.winRetries_of_none {s : State} (h : s.rb.retry = none) (clk : Nat) : ∀ n, s.winRetries clk n = s
  | 0 => rfl
  | n + 1 => by rw [State.winRetries, h]

theorem WinAcc.meets_iff (x : WinAcc) (clk word : Nat) : x.meets clk word = true ↔ x.word = word ∧ clk < x.clk + 2 := by
  simp [WinAcc.meets]

theorem WinAcc.not_same_clock (x : WinAcc) {clk : Nat} (busy : x.clk ≠ clk ∨ x.busy = true) : ¬(x.clk = clk ∧ x.busy = false) := by
  rintro ⟨same, calm⟩
  cases busy with
  | inl apart => exact apart same
  | inr told => simp [calm] at told

/-- A collision is counted and noted (R171). -/
theorem State.winCollide_same (s : State) (word : Nat) :
    SameBut { s with rb := { s.rb with collisions := s.rb.collisions + 1 } } (s.winCollide word) :=
  State.noticeD_same (SameBut.refl _) 0x1E 6 (by decide) _

theorem State.winCollide_rb (s : State) (word : Nat) : (s.winCollide word).rb = { s.rb with collisions := s.rb.collisions + 1 } :=
  (s.winCollide_same word).rb

theorem State.winCollide_busyCount (s : State) (word : Nat) : (s.winCollide word).g RB_BUSYCNT_COUNT = s.g RB_BUSYCNT_COUNT :=
  (s.winCollide_same word).g _ (by simp [recPage, RB_BUSYCNT_COUNT])

theorem State.g_of_regs {s t : State} (h : t.regs = s.regs) (f : Fld) : t.g f = s.g f := by simp only [State.g, h]

theorem State.g_inc_same (s : State) {f : Fld} (h : f.lo + f.w ≤ 32) : (s.inc f).g f = (s.g f + 1) % 2 ^ f.w := s.g_p_same f (s.g f + 1) h

/-- `RB_BUSYCNT` counts a collision for port A (R171). -/
theorem State.busyCount_of_regs {s t : State} {word : Nat} (h : t.regs = ((s.winCollide word).inc RB_BUSYCNT_COUNT).regs) :
    t.g RB_BUSYCNT_COUNT = (s.g RB_BUSYCNT_COUNT + 1) % 2 ^ 32 := by
  calc t.g RB_BUSYCNT_COUNT
    _ = ((s.winCollide word).inc RB_BUSYCNT_COUNT).g RB_BUSYCNT_COUNT := State.g_of_regs h _
    _ = ((s.winCollide word).g RB_BUSYCNT_COUNT + 1) % 2 ^ 32 := (s.winCollide word).g_inc_same (by decide)
    _ = (s.g RB_BUSYCNT_COUNT + 1) % 2 ^ 32 := by rw [State.winCollide_busyCount]

/-! ### Port A (R170, R370) -/

theorem State.winPortA_outside {s : State} {a : Nat} (h : inWindow a = false) (wr : Option (Word × Nat)) (clk : Nat) : s.winPortA a wr clk = s :=
  if_pos (by simp [h])

/-- The window word at a rack-bus address. -/
def winWord (a : Nat) : Nat := (a - winBase) / 4

/-- The array with a write of port A that occupies it. -/
def State.winWroteA (s : State) (a clk : Nat) (v : Word) (be : Nat) : State :=
  let t := s.winWrite (winWord a) v be
  { t with rb := { t.rb with winA := some { clk := clk, word := winWord a, wr := true, val := v, be := be
                                            old := BitVec.ofNat 32 (leNat (s.rb.win.rdN (4 * winWord a) 4)) } } }

/-- Port A told `BUSY` by an access of port B: the collision counted, both accesses on the array, of which a read of port B gets undefined data. -/
def State.winBusyA (s : State) (a clk : Nat) (wr : Bool) (x : WinAcc) : State :=
  let t := s.winCollide (winWord a)
  ({ t with rb := { t.rb with winB := some { x with undef := !x.wr }
                              winA := some { clk := clk, word := winWord a, wr := wr, busy := true } } } : State).inc RB_BUSYCNT_COUNT

theorem State.winBusyA_spec (s : State) (a clk : Nat) (wr : Bool) (x : WinAcc) :
    (s.winBusyA a clk wr x).rb.win = s.rb.win ∧ (s.winBusyA a clk wr x).rb.collisions = s.rb.collisions + 1 ∧
    (s.winBusyA a clk wr x).free = s.free ∧ (s.winBusyA a clk wr x).g RB_BUSYCNT_COUNT = (s.g RB_BUSYCNT_COUNT + 1) % 2 ^ 32 := by
  have rb := s.winCollide_rb (winWord a)
  refine ⟨(congrArg RbSt.win rb :), (congrArg RbSt.collisions rb :), (s.winCollide_same _).free, State.busyCount_of_regs (word := winWord a) rfl⟩

section
variable {s : State} {a clk : Nat} (inside : inWindow a = true) (idle : s.rb.winA = none) (still : s.rb.retry = none)
include inside idle still

section
variable (free : s.rb.winB = none)
include free

theorem State.winPortA_write (v : Word) (be : Nat) : s.winPortA a (some (v, be)) clk = (s.winWroteA a clk v be).emit (.winA a none false) := by
  have settled : s.winSettle clk = s := State.winSettle_of_busy (by simp [idle]) (by simp [free])
  simp [State.winPortA, State.winWroteA, winWord, inside, State.winRetries_of_none still, settled, free]

theorem State.winPortA_read : s.winPortA a none clk =
    { s with rb := { s.rb with winA := some { clk := clk, word := winWord a, wr := false, due := true } } } := by
  have settled : s.winSettle clk = s := State.winSettle_of_busy (by simp [idle]) (by simp [free])
  simp [State.winPortA, winWord, inside, State.winRetries_of_none still, settled, free]

end

section
variable {x : WinAcc} (other : s.rb.winB = some x) (word : x.word = winWord a) (near : clk < x.clk + 2)
include other word near

/-- A write beside a read of port B is told `BUSY` and stores nothing (R170). -/
theorem State.winPortA_write_busy (reads : x.wr = false) (v : Word) (be : Nat) :
    s.winPortA a (some (v, be)) clk = (s.winBusyA a clk true x).emit (.winA a none true) := by
  have settled : s.winSettle clk = s := State.winSettle_of_busy (by simp [idle]) (by simpa [other] using near)
  have meets : x.meets clk ((a - winBase) / 4) = true := (x.meets_iff _ _).2 ⟨word, near⟩
  simp [State.winPortA, State.winBusyA, winWord, inside, State.winRetries_of_none still, settled, other, meets, reads]

/-- A read beside a write of port B is told `BUSY`, with undefined data (R15, R170). -/
theorem State.winPortA_read_busy (writes : x.wr = true) : ∃ d, s.winPortA a none clk =
    ({ s.winBusyA a clk false x with free := (s.winBusyA a clk false x).free + 1 } : State).emit (.winA a (some d) true) := by
  have settled : s.winSettle clk = s := State.winSettle_of_busy (by simp [idle]) (by simpa [other] using near)
  have meets : x.meets clk ((a - winBase) / 4) = true := (x.meets_iff _ _).2 ⟨word, near⟩
  refine ⟨Config.freeWord (s.winBusyA a clk false x).free, ?_⟩
  simp [State.winPortA, State.winBusyA, winWord, inside, State.winRetries_of_none still, settled, other, meets, writes, State.winRead]

end

end

/-! ### Port B (R169 to R171) -/

/-- Port B met by an access of port A: the collision counted, both accesses on the array, of which a read of port A gets undefined data. -/
def State.winBusyB (s : State) (word clk : Nat) (wr : Bool) (x : WinAcc) : State :=
  let t := s.winCollide word
  { t with rb := { t.rb with winA := some { x with undef := !x.wr }, winB := some { clk := clk, word := word, wr := wr }, retry := none } }

theorem State.winBusyB_rb (s : State) (word clk : Nat) (wr : Bool) (x : WinAcc) : (s.winBusyB word clk wr x).rb =
    { s.rb with collisions := s.rb.collisions + 1, winA := some { x with undef := !x.wr }
                winB := some { clk := clk, word := word, wr := wr }, retry := none } := by
  simp only [State.winBusyB, State.winCollide_rb]

/-- The last of port B's tries has met `BUSY`: a notice (R171). -/
def State.winGaveUp (s : State) (word clk : Nat) (wr : Bool) (x : WinAcc) : State := (s.winBusyB word clk wr x).notice 0x1E 7 0 0

theorem State.winGaveUp_rb (s : State) (word clk : Nat) (wr : Bool) (x : WinAcc) : (s.winGaveUp word clk wr x).rb = (s.winBusyB word clk wr x).rb :=
  (State.notice_same _ 0x1E 7 0 0 (by decide)).rb

/-- The clash of a read of port B with a write of port A at the same clock: the write is taken back and told `BUSY`, the read's data are
undefined (R169, R170). -/
def State.winSameRead (s : State) (word clk : Nat) (x : WinAcc) : State :=
  let t := (s.winCollide word).winWrite word x.old 15
  let u := ({ t with tx := reBusy (winBase + 4 * word) t.tx, rb := { t.rb with winA := some { x with busy := true } } } : State).inc RB_BUSYCNT_COUNT
  { u with rb := { u.rb with winB := some { clk := clk, word := word, wr := false, due := true, undef := true }, retry := none } }

/-- The clash of a write of port B with a read of port A at the same clock: the read is told `BUSY` with undefined data, the write is stored
(R169, R170). -/
def State.winSameWrite (s : State) (word clk : Nat) (d : Word) (x : WinAcc) : State :=
  let t := s.winCollide word
  let u := (({ t with rb := { t.rb with winA := some { x with undef := true, busy := true } } } : State).inc RB_BUSYCNT_COUNT).winWrite word d 15
  ({ u with rb := { u.rb with winB := some { clk := clk, word := word, wr := true }, retry := none } } : State).emit (.winB (4 * word) none)

theorem State.winSameRead_rb (s : State) (word clk : Nat) (x : WinAcc) : (s.winSameRead word clk x).rb =
    { s.rb with win := (s.winWrite word x.old 15).rb.win, collisions := s.rb.collisions + 1, winA := some { x with busy := true }
                winB := some { clk := clk, word := word, wr := false, due := true, undef := true }, retry := none } := by
  simp [State.winSameRead, State.winWrite, State.inc, State.winCollide_rb]

theorem State.winSameRead_busyCount (s : State) (word clk : Nat) (x : WinAcc) :
    (s.winSameRead word clk x).g RB_BUSYCNT_COUNT = (s.g RB_BUSYCNT_COUNT + 1) % 2 ^ 32 :=
  State.busyCount_of_regs (word := word) rfl

theorem State.winSameWrite_rb (s : State) (word clk : Nat) (d : Word) (x : WinAcc) : (s.winSameWrite word clk d x).rb =
    { s.rb with win := (s.winWrite word d 15).rb.win, collisions := s.rb.collisions + 1, winA := some { x with undef := true, busy := true }
                winB := some { clk := clk, word := word, wr := true }, retry := none } := by
  simp [State.winSameWrite, State.winWrite, State.inc, State.winCollide_rb]

theorem State.winSameWrite_busyCount (s : State) (word clk : Nat) (d : Word) (x : WinAcc) :
    (s.winSameWrite word clk d x).g RB_BUSYCNT_COUNT = (s.g RB_BUSYCNT_COUNT + 1) % 2 ^ 32 :=
  State.busyCount_of_regs (word := word) (State.emit_regs _ _)

section
variable {s : State} {word clk : Nat} {x : WinAcc} (free : s.rb.winB = none) (other : s.rb.winA = some x) (here : x.word = word)
  (near : clk < x.clk + 2)
include free other here near

section
variable {wr : Option Word} (apart : x.wr ≠ wr.isSome) (busy : x.clk ≠ clk ∨ x.busy = true)
include apart busy

theorem State.winTryB_retries {tries : Nat} (few : tries < 16) : s.winTryB word wr clk tries =
    { s.winBusyB word clk wr.isSome x with rb := { (s.winBusyB word clk wr.isSome x).rb with
        retry := some { word := word, wr := wr, clk := clk + 2, tries := tries + 1 } } } := by
  have settled : s.winSettle clk = s := State.winSettle_of_busy (by simpa [other] using near) (by simp [free])
  have meets : x.meets clk word = true := (x.meets_iff _ _).2 ⟨here, near⟩
  have later := x.not_same_clock busy
  simp [State.winTryB, State.winBusyB, settled, other, meets, apart, later, Nat.not_le.2 few]

theorem State.winTryB_read_gives_up {tries : Nat} (last : 16 ≤ tries) (reads : wr = none) :
    s.winTryB word wr clk tries = (s.winGaveUp word clk wr.isSome x).winDone word none none := by
  have settled : s.winSettle clk = s := State.winSettle_of_busy (by simpa [other] using near) (by simp [free])
  have meets : x.meets clk word = true := (x.meets_iff _ _).2 ⟨here, near⟩
  have later := x.not_same_clock busy
  subst reads
  simp only [Option.isSome_none] at apart
  simp [State.winTryB, State.winGaveUp, State.winBusyB, settled, other, meets, apart, later, last]

theorem State.winTryB_write_gives_up {tries : Nat} (last : 16 ≤ tries) {d : Word} (writes : wr = some d) :
    s.winTryB word wr clk tries = ((s.winGaveUp word clk wr.isSome x).emit (.winBusErr (4 * word))).winDone word (some d) none := by
  have settled : s.winSettle clk = s := State.winSettle_of_busy (by simpa [other] using near) (by simp [free])
  have meets : x.meets clk word = true := (x.meets_iff _ _).2 ⟨here, near⟩
  have later := x.not_same_clock busy
  subst writes
  simp only [Option.isSome_some] at apart
  simp [State.winTryB, State.winGaveUp, State.winBusyB, settled, other, meets, apart, later, last]

end

section
variable (same : x.clk = clk) (calm : x.busy = false)
include same calm

theorem State.winTryB_same_read (writes : x.wr = true) (tries : Nat) : s.winTryB word none clk tries = s.winSameRead word clk x := by
  have settled : s.winSettle clk = s := State.winSettle_of_busy (by simpa [other] using near) (by simp [free])
  have meets : x.meets clk word = true := (x.meets_iff _ _).2 ⟨here, near⟩
  simp [State.winTryB, State.winSame, State.winSameRead, State.winTakeB, settled, other, meets, same, calm, writes]

theorem State.winTryB_same_write (reads : x.wr = false) (d : Word) (tries : Nat) :
    s.winTryB word (some d) clk tries = (s.winSameWrite word clk d x).winDone word (some d) none := by
  have settled : s.winSettle clk = s := State.winSettle_of_busy (by simpa [other] using near) (by simp [free])
  have meets : x.meets clk word = true := (x.meets_iff _ _).2 ⟨here, near⟩
  simp [State.winTryB, State.winSame, State.winSameWrite, State.winTakeB, settled, other, meets, same, calm, reads]

end

end

/-! ### The voted accesses that wait for port B -/

theorem PortB.takes_write_iff (y : PortB) (word : Nat) (d : Word) : y.takes word (some d) = true ↔ y.word = word ∧ y.wr = true ∧ y.left.head? = some d := by
  simp [PortB.takes]

theorem PortB.takes_read_iff (y : PortB) (word : Nat) : y.takes word none = true ↔ y.word = word ∧ y.wr = false := by
  simp [PortB.takes]

/-- Nothing waits for port B: an access is the Keeper's own. -/
theorem State.winDone_of_portB_nil {s : State} (h : s.rb.portB = []) (word : Nat) (d : Word) :
    s.winDone word (some d) none = s ∧ s.winDone word none (some d) = s.emit (.winB (4 * word) (some d)) ∧
    s.winDone word none none = s.emit (.winBusErr (4 * word)) := by
  refine ⟨?_, ?_, ?_⟩ <;> simp [State.winDone, h]

section
variable {s : State} {y : PortB} {ys : List PortB} {word : Nat} {d : Word} (waits : s.rb.portB = y :: ys) (last : y.left.length = 1)
include waits last

/-- The last word of a voted write ends it. -/
theorem State.winDone_last_write (takes : y.takes word (some d) = true) : s.winDone word (some d) none = { s with rb := { s.rb with portB := ys } } := by
  have ended : y.left.tail = [] := List.eq_nil_of_length_eq_zero (by simp [last])
  obtain ⟨-, writes, -⟩ := (y.takes_write_iff word d).1 takes
  simp [State.winDone, waits, takes, writes, ended]

/-- The last word of a voted read ends it: what was read goes to the lanes. -/
theorem State.winDone_last_read (takes : y.takes word none = true) :
    let u := s.emit (.winB (4 * word) (some d))
    s.winDone word none (some d) = ({ u with rb := { u.rb with portB := ys, loads := (y.t, y.place, y.got ++ [d]) :: u.rb.loads } } : State).giveLoad
      (s.loadLanes y.t y.place) y.t y.place (y.got ++ [d]) := by
  have ended : y.left.tail = [] := List.eq_nil_of_length_eq_zero (by simp [last])
  obtain ⟨-, reads⟩ := (y.takes_read_iff word).1 takes
  simp [State.winDone, waits, takes, reads, ended]
  rfl

end

/-! SUPPORT. The legacy serial bus (R371 to R374): which words a poll carries, what a poll leaves, what a line's answer counts. -/

/-! ### The words of a poll (R373) -/

/-- Is the part an output word of station `k` whose commit time has come? -/
def Part.serialDue (k now : Nat) (p : Part) : Bool :=
  (match p.tgt with
    | .serial k' _ => k' == k
    | _ => false) && decide (p.commit ≤ now)

theorem Part.serialDue_iff (k now : Nat) (p : Part) : p.serialDue k now = true ↔ (∃ off, p.tgt = .serial k off) ∧ p.commit ≤ now := by
  cases h : p.tgt <;> simp [Part.serialDue, h]

/-- The output memory with a serial output word in it. -/
def Part.serialOut (m : Mem) (p : Part) : Mem :=
  match p.tgt with
  | .serial k off => m.wrL (serialBase k + off) p.data
  | _ => m

theorem Part.serialOut_of_tgt {p : Part} {k off : Nat} (h : p.tgt = .serial k off) (m : Mem) : p.serialOut m = m.wrL (serialBase k + off) p.data := by
  simp [Part.serialOut, h]

theorem State.applyPart_serial (s : State) {p : Part} {k off : Nat} (h : p.tgt = .serial k off) :
    s.applyPart p = { s with netOut := p.serialOut s.netOut } := by
  simp [State.applyPart, Part.serialOut, h]

/-- Serial output words change nothing but the output memory. -/
theorem State.foldl_applyPart_serial (k : Nat) (ps : List Part) (h : ∀ p ∈ ps, ∃ off, p.tgt = .serial k off) (s : State) :
    ps.foldl State.applyPart s = { s with netOut := ps.foldl (fun m p => p.serialOut m) s.netOut } := by
  induction ps generalizing s with
  | nil => rfl
  | cons p ps ih =>
    obtain ⟨off, tgt⟩ := h p (List.mem_cons_self ..)
    rw [List.foldl_cons, s.applyPart_serial tgt, ih (fun q hq => h q (List.mem_cons_of_mem _ hq)), List.foldl_cons]

/-- The words that a poll of station `k` carries. -/
def State.serialNow (s : State) (k : Nat) : List Part := s.parts.filter (Part.serialDue k s.now)

theorem State.mem_serialNow {s : State} {k : Nat} {p : Part} :
    p ∈ s.serialNow k ↔ p ∈ s.parts ∧ (∃ off, p.tgt = .serial k off) ∧ p.commit ≤ s.now := by
  rw [State.serialNow, List.mem_filter, Part.serialDue_iff]

/-- The output memory at a poll of station `k`. -/
def State.serialMem (s : State) (k : Nat) : Mem := (s.serialNow k).foldl (fun m p => p.serialOut m) s.netOut

theorem State.settleSerial_eq (s : State) (k : Nat) : s.settleSerial k =
    { s with parts := s.parts.filter (fun p => !p.serialDue k s.now), netOut := s.serialMem k } := by
  have words : ∀ p ∈ s.serialNow k, ∃ off, p.tgt = .serial k off := fun p hp => (State.mem_serialNow.1 hp).2.1
  exact State.foldl_applyPart_serial k (s.serialNow k) words { s with parts := s.parts.filter (fun p => !p.serialDue k s.now) }

theorem State.serialMem_of_none {s : State} {k : Nat} (h : ∀ p ∈ s.parts, ¬((∃ off, p.tgt = .serial k off) ∧ p.commit ≤ s.now)) :
    s.serialMem k = s.netOut := by
  have none : s.serialNow k = [] := List.eq_nil_iff_forall_not_mem.2 fun p hp => h p (State.mem_serialNow.1 hp).1 (State.mem_serialNow.1 hp).2
  rw [State.serialMem, none, List.foldl_nil]

theorem State.serialMem_of_one {s : State} {k off : Nat} {p : Part} (only : s.parts = [p]) (tgt : p.tgt = .serial k off) (due : p.commit ≤ s.now) :
    s.serialMem k = s.netOut.wrL (serialBase k + off) p.data := by
  have one : s.serialNow k = [p] := by
    rw [State.serialNow, only, List.filter_singleton, (p.serialDue_iff k s.now).2 ⟨⟨off, tgt⟩, due⟩, Bool.cond_true]
  rw [State.serialMem, one, List.foldl_cons, List.foldl_nil, p.serialOut_of_tgt tgt]

/-! ### A poll (R373) -/

/-- The next poll leaves (R373): the station, its next sequence number, the words whose commit time has come. -/
theorem State.lsPoll_eq {s : State} {k : Nat} {ks : List Nat} (left : s.rb.lsLeft = k :: ks) (awake : s.mode ≠ mDormant) :
    s.lsPoll = { s with
      rb := { (s.setLs k { s.lsStn k with seq := ((s.lsStn k).seq + 1) % 256 }).rb with lsNow := some k, lsLeft := ks, lsA := none, lsB := none }
      parts := s.parts.filter (fun p => !p.serialDue k s.now)
      netOut := s.serialMem k
      tx := .serialFrame (serialBytes k (((s.lsStn k).seq + 1) % 256) false ((s.serialMem k).rdN (serialBase k) (s.g (RB_LSSTN_OUTLEN k)))) :: s.tx } := by
  simp only [State.lsPoll, left]
  rw [State.settleSerial_eq]
  refine (State.emit_of_awake ?_ _).trans rfl
  exact awake

theorem State.lsPoll_lsStn {s : State} {k : Nat} {ks : List Nat} (left : s.rb.lsLeft = k :: ks) (awake : s.mode ≠ mDormant) :
    s.lsPoll.lsStn k = { s.lsStn k with seq := ((s.lsStn k).seq + 1) % 256 } := by
  rw [State.lsPoll_eq left awake]
  exact tabGet_tabSet_same _ _ _ _

theorem State.lsPoll_of_left_nil {s : State} (h : s.rb.lsLeft = []) : s.lsPoll = { s with rb := { s.rb with lsNow := none } } := by
  rw [State.lsPoll, h]

theorem exec_lsbCycle_idle {s : State} (h : s.on RB_LSCTRL_EN = false ∨ s.gated = true ∨ s.mode = mSafeHalt ∨ s.heldPort 0x30 = true ∨ s.heldPort 0x31 = true) :
    exec .lsbCycle s = .next s := by
  refine if_pos ?_
  rcases h with h | h | h | h | h <;> simp [h]

theorem exec_lsbCycle_polls {s : State} (enabled : s.on RB_LSCTRL_EN = true) (ungated : s.gated = false) (runs : s.mode ≠ mSafeHalt)
    (a : s.heldPort 0x30 = false) (b : s.heldPort 0x31 = false) :
    exec .lsbCycle s = .next ({ s with rb := { s.rb with lsLeft := (List.range 32).filter (fun k => k != 0 && s.on (RB_LSSTN_VALID k)) } } : State).lsPoll :=
  if_neg (by simp [enabled, ungated, runs, a, b])

/-! ### Answers (R371, R372, R374) -/

theorem exec_lsbResponseTimeout (s : State) (line : SerialLine) :
    exec (.lsbResponseTimeout line) s = if s.lsWaits line then .next (s.lsAnswer line false) else .next s := rfl

theorem exec_lsbResponse_unasked {s : State} {line : SerialLine} (h : s.lsWaits line = false) (body : List Byte) (par : Bool) :
    exec (.lsbResponse line body par) s = .next s := by
  cases now : s.rb.lsNow <;> simp [exec, execLsbResponse, now, h]

section
variable {s : State} {line : SerialLine} {k : Nat} {body : List Byte} {par : Bool} (polled : s.rb.lsNow = some k) (waits : s.lsWaits line = true)
include polled waits

theorem exec_lsbResponse_bad (bad : s.lsOk k body par = false) : exec (.lsbResponse line body par) s = .next (s.lsAnswer line false) := by
  simp [exec, execLsbResponse, polled, waits, bad]

/-- The first answer that passes every check is the station's new data (R371). -/
theorem exec_lsbResponse_first (ok : s.lsOk k body par = true) (a : s.rb.lsA ≠ some true) (b : s.rb.lsB ≠ some true) :
    exec (.lsbResponse line body par) s = .next ((s.setLs k { s.lsStn k with
      data := (body.drop 4).take (byteAt body 3), endAt := some s.now }).lsAnswer line true) := by
  simp [exec, execLsbResponse, polled, waits, ok, a, b]

theorem exec_lsbResponse_second (ok : s.lsOk k body par = true) (taken : s.rb.lsA = some true ∨ s.rb.lsB = some true) :
    exec (.lsbResponse line body par) s = .next (s.lsAnswer line true) := by
  cases taken with
  | inl a => simp [exec, execLsbResponse, polled, waits, ok, a]
  | inr b => simp [exec, execLsbResponse, polled, waits, ok, b]

end

/-- The checks of R372. -/
theorem State.lsOk_checks {s : State} {k : Nat} {body : List Byte} {par : Bool} (h : s.lsOk k body par = true) :
    byteAt body 0 = 0xB6 ∧ byteAt body 1 = 128 + k ∧ byteAt body 2 = (s.lsStn k).seq ∧ byteAt body 3 = s.g (RB_LSSTN_INLEN k) ∧
    body.length = 6 + s.g (RB_LSSTN_INLEN k) ∧ par = true := by
  simp only [State.lsOk, Bool.and_eq_true, beq_iff_eq] at h
  obtain ⟨⟨⟨⟨⟨⟨parity, preamble⟩, station⟩, seq⟩, len⟩, total⟩, -⟩ := h
  exact ⟨preamble, station, seq, len, len ▸ total, parity⟩

/-- The first line's answer leaves the poll waiting for the other line. -/
theorem State.lsAnswer_a {s : State} (other : s.rb.lsB = none) : s.lsAnswer .a true = { s with rb := { s.rb with lsA := some true } } := by
  simp [State.lsAnswer, other]

/-- A line without a good answer counts it (R374). -/
theorem State.lsAnswer_a_failed {s : State} (other : s.rb.lsB = none) :
    (s.lsAnswer .a false).g RB_LSERRA_COUNT = (s.g RB_LSERRA_COUNT + 1) % 2 ^ RB_LSERRA_COUNT.w := by
  have counted : (s.lsAnswer .a false).regs = (s.inc RB_LSERRA_COUNT).regs := by simp [State.lsAnswer, other]
  exact (State.g_of_regs counted _).trans (s.g_inc_same (by decide))

theorem State.lsAnswer_b_failed {s : State} (other : s.rb.lsA = none) :
    (s.lsAnswer .b false).g RB_LSERRB_COUNT = (s.g RB_LSERRB_COUNT + 1) % 2 ^ RB_LSERRB_COUNT.w := by
  have counted : (s.lsAnswer .b false).regs = (s.inc RB_LSERRB_COUNT).regs := by simp [State.lsAnswer, other]
  exact (State.g_of_regs counted _).trans (s.g_inc_same (by decide))

end Sys2Proof.Machine

namespace Sys2Proof.Proofs
open Sys2Proof.Machine Sys2Proof.Safety

/-- Settles O51. Port B performs the next word of the voted access that waits for it as log 120 has it; clocks, collisions, polls and answers are
timed as logs 76 and 77 have them. -/
theorem exchangeWindowAndSerialBus : Obligations.ExchangeWindowAndSerialBus := by
  unfold Obligations.ExchangeWindowAndSerialBus
  refine ⟨fun s a clk off be tries v b wr => ⟨rfl, rfl, fun inside => if_pos inside, fun outside => if_neg (Nat.not_lt.2 outside),
      fun outside => ⟨State.winPortA_outside outside _ clk, State.winPortA_outside outside _ clk⟩, ?enabledBytes, ?otherBytes,
      fun inside idleA idleB still awake => ⟨?portAWrites, ?portAReads⟩,
      fun inside idleA still awake x other here near => ⟨fun reads => ?writeIsBusy, fun writes => ?readIsBusy⟩,
      fun free x other here near apart => ⟨fun busy => ⟨fun few => ?portBTriesAgain, fun last => ?portBGivesUp⟩,
        fun same calm => ⟨fun hw => ?readAtTheSameClock, fun d hw => ?writeAtTheSameClock⟩⟩,
      fun y ys waits last => ⟨fun d takes => State.winDone_last_write waits last takes, fun d takes => State.winDone_last_read waits last takes⟩,
      fun empty d => State.winDone_of_portB_nil empty off d⟩,
    fun s line body par k ks => ⟨exec_lsbCycle_idle, exec_lsbCycle_polls, fun left awake => ?poll, State.lsPoll_of_left_nil,
      fun idle => ⟨exec_lsbResponse_unasked idle body par, if_neg (Bool.eq_false_iff.1 idle)⟩, fun waits => if_pos waits,
      fun polled waits => ⟨exec_lsbResponse_bad polled waits, exec_lsbResponse_first polled waits, exec_lsbResponse_second polled waits⟩,
      State.lsOk_checks, fun idleA idleB => ?answers⟩⟩
  case enabledBytes =>
    intro i hi
    rw [State.winWrite_rd, Nat.add_sub_cancel_left]
    exact if_congr ⟨fun h => h.2.2, fun h => ⟨Nat.le_add_right .., Nat.add_lt_add_left hi _, h⟩⟩ rfl rfl
  case otherBytes =>
    intro j apart
    rw [State.winWrite_rd, if_neg (by omega)]
  case portAWrites =>
    refine ⟨_, congrArg Host.Outcome.next (State.winPortA_write inside idleA still idleB v b.toNat), ?_⟩
    rw [State.emit_of_awake (s := s.winWroteA a clk v b.toNat) awake]
    exact ⟨rfl, rfl, rfl, rfl⟩
  case portAReads => exact ⟨_, congrArg Host.Outcome.next (State.winPortA_read inside idleA still idleB), rfl, rfl, rfl⟩
  case writeIsBusy =>
    obtain ⟨win, collisions, -, count⟩ := s.winBusyA_spec a clk true x
    refine ⟨_, congrArg Host.Outcome.next (State.winPortA_write_busy inside idleA still other here near reads v b.toNat), ?_⟩
    simp only [State.emit_rb, State.g_emit]
    exact ⟨win, collisions, count⟩
  case readIsBusy =>
    obtain ⟨win, collisions, undefined, count⟩ := s.winBusyA_spec a clk false x
    obtain ⟨d, told⟩ := State.winPortA_read_busy (clk := clk) inside idleA still other here near writes
    refine ⟨_, congrArg Host.Outcome.next told, ?_⟩
    simp only [State.emit_rb, State.g_emit, State.emit_free]
    exact ⟨win, collisions, congrArg (· + 1) undefined, count⟩
  case portBTriesAgain =>
    rw [State.winTryB_retries free other here near apart busy few, State.winBusyB_rb]
    exact ⟨rfl, rfl, rfl⟩
  case portBGivesUp =>
    refine ⟨s.winGaveUp off clk wr.isSome x, ?_, ?_, ?_, ?_, State.winTryB_read_gives_up free other here near apart busy last,
      fun d => State.winTryB_write_gives_up free other here near apart busy last⟩ <;>
    rw [State.winGaveUp_rb, State.winBusyB_rb]
  case readAtTheSameClock =>
    subst hw
    have writes : x.wr = true := by simpa using apart
    simp only [State.winTryB_same_read free other here near same calm writes, State.winSameRead_rb]
    exact ⟨trivial, trivial, trivial, trivial, s.winSameRead_busyCount off clk x⟩
  case writeAtTheSameClock =>
    subst hw
    have reads : x.wr = false := by simpa using apart
    have rb := s.winSameWrite_rb off clk d x
    exact ⟨s.winSameWrite off clk d x, (congrArg RbSt.win rb :), (congrArg RbSt.collisions rb :), (congrArg RbSt.winA rb :), (congrArg RbSt.winB rb :),
      (congrArg RbSt.retry rb :), (congrArg RbSt.portB rb :), s.winSameWrite_busyCount off clk d x,
      State.winTryB_same_write free other here near same calm reads d tries⟩
  case poll =>
    have station := State.lsPoll_lsStn left awake
    have polled := State.lsPoll_eq left awake
    refine ⟨congrArg (fun t => t.rb.lsNow) polled, congrArg (fun t => t.rb.lsLeft) polled, congrArg (fun t => t.rb.lsA) polled,
      congrArg (fun t => t.rb.lsB) polled, (congrArg LsStn.seq station :), (congrArg LsStn.data station :), (congrArg State.regs polled :), fun p => ?_, ?_, ?_, ?_⟩
    · simp only [polled, List.mem_filter, Bool.not_eq_true', Bool.eq_false_iff, Ne, Part.serialDue_iff]
    · intro none
      exact (congrArg State.netOut polled).trans (State.serialMem_of_none none)
    · intro p off only tgt due
      exact (congrArg State.netOut polled).trans (State.serialMem_of_one only tgt due)
    · rw [congrArg State.netOut polled]
      exact congrArg State.tx polled
  case answers =>
    rw [State.lsAnswer_a idleB]
    exact ⟨rfl, rfl, State.lsAnswer_a_failed idleB, State.lsAnswer_b_failed idleA⟩

end Sys2Proof.Proofs

/-! SUPPORT. The time unit (R33, R180 to R189, R193 to R199): what its registers and its state hold after a wrap, a step, a servo run, a capture and
a trigger. -/

namespace Sys2Proof.Safety
open Sys2Proof.Machine

/-- The time unit's own state beside its registers. -/
theorem OnlyRegs.withTu {s t : State} {as : Nat → Prop} (h : OnlyRegs s t as) (x : TuSt) : OnlyRegs { s with tu := x } { t with tu := x } as :=
  ⟨by conv_lhs => rw [h.1], h.2⟩

end Sys2Proof.Safety

namespace Sys2Proof.Machine
open Sys2Proof.Safety

/-! ### Fields that a write leaves alone -/

theorem State.g_p_off (s : State) {f f' : Fld} (v : Nat) (h : f'.reg ≠ f.reg ∨ f.lo + f.w ≤ 32 ∧ (f.lo + f.w ≤ f'.lo ∨ f'.lo + f'.w ≤ f.lo)) :
    (s.p f v).g f' = s.g f' :=
  h.elim (State.g_p_reg s v) fun ⟨fits, apart⟩ => State.g_p_apart s v fits apart

theorem not_recPage_tu {a : Nat} (h : a / 0x10000 = 0x5000) : ¬ recPage a := by unfold recPage; omega

/-- The model's 32-bit values fit their registers. -/
theorem u32_lt (v : Int) : u32 v < 2 ^ 32 := by unfold u32; omega

theorem u32_sint32 (v : Nat) : u32 (sint32 v) = v % 2 ^ 32 := by unfold u32 sint32; split <;> omega

/-! ### Wraps and eras (R182) -/

/-- The registers after a wrap that no era was armed for. -/
def State.eraMissed (s : State) : State := (s.inc TU_ERA_ERA).p TU_STAT_ERAMISS 1

theorem State.eraWrap_armed {s : State} (armed : s.on TU_STAT_ARMED = true) : s.eraWrap.g TU_ERA_ERA = s.g TU_ERANEXT_ERA ∧
    s.eraWrap.g TU_STAT_ARMED = 0 ∧ OnlyRegs s s.eraWrap (regIn [TU_ERA_ERA, TU_STAT_ARMED]) := by
  rw [State.eraWrap, if_pos armed]
  refine ⟨?_, State.g_p_same _ _ _ (by decide), ((OnlyRegs.refl s _).p _ _ (regIn_head _ rfl)).p _ _ ⟨_, by simp, rfl⟩⟩
  rw [State.g_p_off _ _ (by decide), State.g_p_same _ _ _ (by decide)]
  exact Nat.mod_eq_of_lt (s.g_lt TU_ERANEXT_ERA)

theorem State.eraMissed_shows (s : State) : s.eraMissed.g TU_ERA_ERA = (s.g TU_ERA_ERA + 1) % 2 ^ 32 ∧ s.eraMissed.g TU_STAT_ERAMISS = 1 ∧
    OnlyRegs s s.eraMissed (regIn [TU_ERA_ERA, TU_STAT_ERAMISS]) := by
  refine ⟨?_, State.g_p_same _ _ _ (by decide), ((OnlyRegs.refl s _).p _ _ (regIn_head _ rfl)).p _ _ ⟨_, by simp, rfl⟩⟩
  rw [State.eraMissed, State.g_p_off _ _ (by decide)]
  exact s.g_inc_same (by decide)

theorem State.eraWrap_unarmed {s : State} (unarmed : s.on TU_STAT_ARMED = false) : s.eraWrap.g TU_ERA_ERA = (s.g TU_ERA_ERA + 1) % 2 ^ 32 ∧
    s.eraWrap.g TU_STAT_ERAMISS = 1 ∧ OnlyRecords s s.eraWrap (regIn [TU_ERA_ERA, TU_STAT_ERAMISS]) := by
  have missed : s.eraWrap = s.eraMissed.notice 0x1A 1 0 (s.eraMissed.word TU_STAT_SSTATE) := if_neg (by simp [unarmed])
  have noted := s.eraMissed.notice_same 0x1A 1 0 (s.eraMissed.word TU_STAT_SSTATE) (by decide)
  obtain ⟨era, miss, only⟩ := s.eraMissed_shows
  rw [missed, noted.g _ (not_recPage_tu (by decide)), noted.g _ (not_recPage_tu (by decide))]
  exact ⟨era, miss, only.record noted⟩

/-- The counter at its wrap: it carries its remainder, or is 0 where the command stands for the ticks up to the wrap. -/
theorem exec_timeTickWrap (s : State) :
    let f := s.tu.frac + s.tu.inc
    let v := s.g TU_NS_NS + f / 2 ^ 32
    exec .timeTickWrap s = .next (if 2 ^ 32 ≤ v then ({ s with tu := { s.tu with frac := f % 2 ^ 32 } } : State).p TU_NS_NS v else s.p TU_NS_NS 0).eraWrap := by
  intro f v
  rw [apply_ite State.eraWrap, apply_ite Host.Outcome.next]
  rfl

/-! ### Snapshots (R183) -/

theorem State.snapshot_only (s : State) : OnlyRegs s s.snapshot (regIn [TU_SNAPNS_NS, TU_SNAPERA_ERA, TU_SNAPFR_FRAC]) :=
  (((OnlyRegs.refl s _).p TU_SNAPNS_NS _ (regIn_head _ rfl)).p TU_SNAPERA_ERA _ ⟨_, by simp, rfl⟩).p TU_SNAPFR_FRAC _ ⟨_, by simp, rfl⟩

theorem State.snapshot_shows (s : State) : s.snapshot.g TU_SNAPNS_NS = s.g TU_NS_NS ∧ s.snapshot.g TU_SNAPERA_ERA = s.g TU_ERA_ERA ∧
    s.snapshot.g TU_SNAPFR_FRAC = s.tu.frac % 2 ^ 32 := by
  have ns : s.g TU_NS_NS % 2 ^ 32 = s.g TU_NS_NS := Nat.mod_eq_of_lt (s.g_lt TU_NS_NS)
  have era : s.g TU_ERA_ERA % 2 ^ 32 = s.g TU_ERA_ERA := Nat.mod_eq_of_lt (s.g_lt TU_ERA_ERA)
  unfold State.snapshot
  refine ⟨?_, ?_, State.g_p_same _ _ _ (by decide)⟩
  all_goals simp (disch := decide) only [State.g_p_same, State.g_p_off]
  · exact ns
  · exact era

/-! ### Increments (R180, R186) -/

/-- What the servo computes is held within the legal range (R180). -/
theorem incLegal_servoInc (o r : Int) : incLegal (servoInc o r) = true := by
  unfold servoInc
  generalize ((2 ^ 75 - r * 2 ^ 35) * 32000000 - o * 2 ^ 72) / (2 ^ 40 * 32000000) = n
  simp only [incLegal, Bool.and_eq_true, decide_eq_true_eq]
  split
  · decide
  · split
    · decide
    · omega

theorem State.useInc_shows (s : State) (inc : Nat) : (s.useInc inc).tu = { s.tu with inc := inc } ∧ (s.useInc inc).g TU_INC_F_F = inc % 2 ^ 32 ∧
    (s.useInc inc).g TU_OFFSET_NS = s.g TU_OFFSET_NS := by
  have regs (f : Fld) : (s.useInc inc).g f = ((s.p TU_INC_F_F (inc % 2 ^ 32)).p TU_INC_I_I (inc / 2 ^ 32)).g f := rfl
  refine ⟨rfl, ?_, ?_⟩
  · rw [regs, State.g_p_off _ _ (by decide), State.g_p_same _ _ _ (by decide)]
    exact Nat.mod_mod _ _
  · rw [regs, State.g_p_off _ _ (by decide), State.g_p_off _ _ (by decide)]

/-! ### Steps of time (R187) -/

/-- A valid capture shows the step (R193). -/
def State.markCapture (s : State) (n : Nat) : State := if s.on (TU_CAPSTAT_VALID n) then s.p (TU_CAPSTAT_STEPPED n) 1 else s

theorem State.markCapture_only (s : State) (n : Nat) : OnlyRegs s (s.markCapture n) (fun a => ∃ n, a = (TU_CAPSTAT_COUNT n).reg) :=
  (OnlyRegs.of_p s 1 ⟨n, rfl⟩).ite (OnlyRegs.refl s _)

theorem State.markCaptures_only (ns : List Nat) (s : State) :
    OnlyRegs s (ns.foldl State.markCapture s) (fun a => ∃ n, a = (TU_CAPSTAT_COUNT n).reg) :=
  (OnlyRegs.refl s _).foldl fun t n h => h.trans (t.markCapture_only n)

theorem State.markCapture_valid (s : State) (n k : Nat) : (s.markCapture n).on (TU_CAPSTAT_VALID k) = s.on (TU_CAPSTAT_VALID k) := by
  unfold State.markCapture
  split
  · exact congrArg (· == 1) (State.g_p_off s 1 (.inr (by simp [TU_CAPSTAT_VALID, TU_CAPSTAT_STEPPED])))
  · rfl

theorem State.markCapture_same {s : State} {k : Nat} (valid : s.on (TU_CAPSTAT_VALID k) = true) : (s.markCapture k).g (TU_CAPSTAT_STEPPED k) = 1 := by
  rw [State.markCapture, if_pos valid]
  exact State.g_p_same _ _ _ (by decide : 17 + 1 ≤ 32)

theorem State.markCapture_keeps {s : State} {k : Nat} (marked : s.g (TU_CAPSTAT_STEPPED k) = 1) (n : Nat) :
    (s.markCapture n).g (TU_CAPSTAT_STEPPED k) = 1 := by
  unfold State.markCapture
  split
  · by_cases same : n = k
    · exact same ▸ State.g_p_same _ _ _ (by decide : 17 + 1 ≤ 32)
    · rw [State.g_p_reg _ _ (by simp only [TU_CAPSTAT_STEPPED]; omega), marked]
  · exact marked

/-- Every valid capture of a list is marked. -/
theorem State.markCaptures_mark {k : Nat} (ns : List Nat) (s : State) (valid : s.on (TU_CAPSTAT_VALID k) = true)
    (h : k ∈ ns ∨ s.g (TU_CAPSTAT_STEPPED k) = 1) : (ns.foldl State.markCapture s).g (TU_CAPSTAT_STEPPED k) = 1 := by
  induction ns generalizing s with
  | nil => exact h.resolve_left (by simp)
  | cons n ns ih =>
    refine ih _ ((s.markCapture_valid n k).trans valid) ?_
    rcases h with mem | marked
    · rcases List.mem_cons.1 mem with rfl | mem
      · exact .inr (State.markCapture_same valid)
      · exact .inl mem
    · exact .inr (State.markCapture_keeps marked n)

/-- The counter set to a value, with its carry or borrow into the eras, and the status of a step. -/
def State.countTo (s : State) (v : Int) : State :=
  let a := (s.p TU_NS_NS (v % 2 ^ 32).toNat).p TU_ERA_ERA (u32 (s.g TU_ERA_ERA + v / 2 ^ 32))
  let b := if a.on TU_STAT_ARMED then a.p TU_ERANEXT_ERA (u32 (a.g TU_ERANEXT_ERA + v / 2 ^ 32)) else a
  (b.p TU_STAT_STEPPED 1).p TU_STEP_STEP 0

theorem State.countTo_tu (s : State) (v : Int) : (s.countTo v).tu = s.tu := by
  simp only [State.countTo, State.p_tu]
  split <;> rfl

/-- The registers that a step counts with. -/
theorem State.countTo_only (s : State) (v : Int) :
    OnlyRegs s (s.countTo v) (regIn [TU_NS_NS, TU_ERA_ERA, TU_ERANEXT_ERA, TU_STAT_STEPPED, TU_STEP_STEP]) := by
  have counted := ((OnlyRegs.refl s (regIn [TU_NS_NS, TU_ERA_ERA, TU_ERANEXT_ERA, TU_STAT_STEPPED, TU_STEP_STEP])).p TU_NS_NS (v % 2 ^ 32).toNat
    ⟨_, by simp, rfl⟩).p TU_ERA_ERA (u32 (s.g TU_ERA_ERA + v / 2 ^ 32)) ⟨_, by simp, rfl⟩
  exact (((counted.p TU_ERANEXT_ERA _ ⟨_, by simp, rfl⟩).ite counted).p TU_STAT_STEPPED 1 ⟨_, by simp, rfl⟩).p TU_STEP_STEP 0 ⟨_, by simp, rfl⟩

theorem State.countTo_shows (s : State) (v : Int) :
    (s.countTo v).g TU_NS_NS = (v % 2 ^ 32).toNat ∧ (s.countTo v).g TU_ERA_ERA = u32 (s.g TU_ERA_ERA + v / 2 ^ 32) ∧
    (s.countTo v).g TU_STAT_STEPPED = 1 ∧ (s.countTo v).g TU_STEP_STEP = 0 ∧
    (s.countTo v).g TU_ERANEXT_ERA = (if s.on TU_STAT_ARMED then u32 (s.g TU_ERANEXT_ERA + v / 2 ^ 32) else s.g TU_ERANEXT_ERA) := by
  have ns : (v % 2 ^ 32).toNat % 2 ^ 32 = (v % 2 ^ 32).toNat := by omega
  have fits (x : Int) : u32 x % 2 ^ 32 = u32 x := Nat.mod_eq_of_lt (u32_lt x)
  have armed (a b : Nat) : ((s.p TU_NS_NS a).p TU_ERA_ERA b).on TU_STAT_ARMED = s.on TU_STAT_ARMED := by
    rw [State.on, State.g_p_off _ _ (by decide), State.g_p_off _ _ (by decide), State.on]
  simp only [State.countTo, armed]
  refine ⟨?_, ?_, ?_, State.g_p_same _ _ _ (by decide), ?_⟩
  all_goals split
  all_goals simp (disch := decide) only [State.g_p_same, State.g_p_off]
  case refine_1.isTrue | refine_1.isFalse => exact ns
  case refine_3.isTrue | refine_3.isFalse => rfl
  all_goals exact fits _

/-- The time unit after a step: the next two pulses and the captures held show it. -/
def TuSt.afterStep (x : TuSt) : TuSt :=
  { x with stepPulses := 2, stepPend := none, caps := x.caps.map (fun e => (e.1, e.2.map (fun (c : CapEnt) => { c with stepped := true }))) }

/-- The state at a step, before the triggers that a forward one passes over. -/
def State.stepped (s : State) (d : Int) : State :=
  let a := s.countTo (s.g TU_NS_NS + d)
  (List.range 16).foldl State.markCapture { a with tu := a.tu.afterStep }

theorem State.stepTime_eq (s : State) (d : Int) (fwd : Bool) : s.stepTime d fwd = if fwd then (s.stepped d).stepTriggers else s.stepped d := rfl

/-- What a step leaves: the counter with its carry, the status, the time unit, every valid capture marked. -/
theorem State.stepped_shows (s : State) (d : Int) :
    (∀ f, f.reg < 0x50000100 → (s.stepped d).g f = (s.countTo (s.g TU_NS_NS + d)).g f) ∧ (s.stepped d).tu = s.tu.afterStep ∧
    ∀ n < 16, s.on (TU_CAPSTAT_VALID n) = true → (s.stepped d).g (TU_CAPSTAT_STEPPED n) = 1 := by
  have marked := State.markCaptures_only (List.range 16)
    { s.countTo (s.g TU_NS_NS + d) with tu := (s.countTo (s.g TU_NS_NS + d)).tu.afterStep }
  refine ⟨fun f low => ?_, ?_, fun n hn valid => ?_⟩
  · refine marked.g ?_
    simp only [TU_CAPSTAT_COUNT, not_exists]
    omega
  · exact (congrArg State.tu marked.1).trans (congrArg TuSt.afterStep (s.countTo_tu _))
  · refine State.markCaptures_mark _ _ ?_ (.inl (List.mem_range.2 hn))
    refine (congrArg (· == 1) ((s.countTo_only _).g ?_)).trans valid
    simp only [regIn_cons, not_regIn_nil, or_false, TU_CAPSTAT_VALID, TU_NS_NS, TU_ERA_ERA, TU_ERANEXT_ERA, TU_STAT_STEPPED, TU_STEP_STEP]
    omega

/-- The tick that applies a step which waits, with its increment. -/
theorem State.timeTick_of_step {s : State} {d : Int} (waits : s.tu.stepPend = some d) :
    s.timeTick = ({ s with tu := { s.tu with frac := (s.tu.frac + s.tu.inc) % 2 ^ 32 } } : State).stepTime
      (((s.tu.frac + s.tu.inc) / 2 ^ 32 : Nat) + d) (decide (0 < d)) := by
  simp only [State.timeTick]
  rw [waits]

theorem State.askStep_shows (s : State) (w : Word) : (s.askStep (sint32 w.toNat)).g TU_STEP_STEP = w.toNat := by
  refine (s.g_p_same TU_STEP_STEP _ (by decide)).trans ?_
  rw [u32_sint32]
  have := w.isLt
  simp only [TU_STEP_STEP]
  omega

theorem State.askStep_tu (s : State) (d : Int) : (s.askStep d).tu = { s.tu with stepPend := some d } := rfl

theorem State.g_askStep (s : State) (d : Int) {f : Fld} (apart : f.reg ≠ TU_STEP_STEP.reg) : (s.askStep d).g f = s.g f := State.g_p_reg s _ apart

theorem exec_timeStep_refused {s : State} (other : s.mode ≠ mSynchronising) (w : Word) :
    exec (.timeStep w) s = .next (s.notice 0x22 1 0 (s.word TU_STEP_STEP)) :=
  congrArg Host.Outcome.next (if_neg (by simpa using other))

theorem exec_timeStep_taken {s : State} (synchronising : s.mode = mSynchronising) (w : Word) :
    exec (.timeStep w) s = .next (s.askStep (sint32 w.toNat)) :=
  congrArg Host.Outcome.next (if_pos (by simpa using synchronising))

/-! ### The servo and the RTC (R33, R186 to R189) -/

/-- A servo run's offset and rate, as they are shown and kept. -/
def State.tracked (s : State) (o r : Int) : State :=
  let a := s.p TU_OFFSET_NS (u32 ((o + 128) / 256))
  { a with tu := { a.tu with rate := r, servoRuns := a.tu.servoRuns + 1 } }

/-- A servo run without a reference in Free (R188). -/
def State.runCounted (s : State) : State := { s with tu := { s.tu with servoRuns := s.tu.servoRuns + 1 } }

/-- What a servo run takes into use, of the references as the run finds them. -/
def State.servoTake (a : State) : State := match a.servoIn with
  | some (o, r) =>
    if (a.tracked o r).mode == mSynchronising && (o > 1000 * 256 || o < -1000 * 256) then
      ((a.tracked o r).useInc (servoInc 0 r)).askStep (-((o + 128) / 256))
    else (a.tracked o r).useInc (servoInc o r)
  | none =>
    if a.refs.conf && a.g TU_STAT_SSTATE != 0 then a.useInc (servoInc 0 a.tu.rate)
    else a.runCounted

/-- The end of a servo run: the external corrections and the states of R189. -/
def State.servoEnd (b : State) : State := (State.setCorr (State.setCorr b 0) 1).syncStep b.refs true

theorem exec_servoRun_down {s : State} (down : s.linkDown lkNetwork = true) : exec .servoRun s = .next s := if_pos down

theorem exec_servoRun_up {s : State} (up : s.linkDown lkNetwork = false) : exec .servoRun s = .next s.ptpTake.servoTake.servoEnd :=
  if_neg (by simp [up])

theorem State.tracked_mode (a : State) (o r : Int) : (a.tracked o r).mode = a.mode :=
  State.g_p_off a (f' := LC_MODE_MODE) _ (by decide)

theorem State.tracked_offset (a : State) (o r : Int) : (a.tracked o r).g TU_OFFSET_NS = u32 ((o + 128) / 256) :=
  (a.g_p_same TU_OFFSET_NS _ (by decide)).trans (Nat.mod_eq_of_lt (u32_lt _))

/-- Does a run step time in place of the offset term (R187)? -/
def State.stepsTime (a : State) (o : Int) : Prop := a.mode = mSynchronising ∧ (256000 < o ∨ o < -256000)

theorem State.stepsTime_iff (a : State) (o r : Int) :
    ((a.tracked o r).mode == mSynchronising && (o > 1000 * 256 || o < -1000 * 256)) = true ↔ a.stepsTime o := by
  rw [State.tracked_mode, State.stepsTime]
  simp only [Bool.and_eq_true, Bool.or_eq_true, beq_iff_eq, decide_eq_true_eq]
  omega

theorem State.servoTake_slews {a : State} {o r : Int} (input : a.servoIn = some (o, r)) (near : ¬ a.stepsTime o) :
    a.servoTake = (a.tracked o r).useInc (servoInc o r) := by
  rw [State.servoTake, input]
  exact if_neg (mt (a.stepsTime_iff o r).1 near)

theorem State.servoTake_steps {a : State} {o r : Int} (input : a.servoIn = some (o, r)) (far : a.stepsTime o) :
    a.servoTake = ((a.tracked o r).useInc (servoInc 0 r)).askStep (-((o + 128) / 256)) := by
  rw [State.servoTake, input]
  exact if_pos ((a.stepsTime_iff o r).2 far)

theorem State.servoTake_holds {a : State} (lost : a.servoIn = none) (conf : a.refs.conf = true) (locked : a.g TU_STAT_SSTATE ≠ 0) :
    a.servoTake = a.useInc (servoInc 0 a.tu.rate) := by
  rw [State.servoTake, lost]
  exact if_pos (by simp [conf, locked])

theorem State.servoTake_free {a : State} (lost : a.servoIn = none) (free : ¬ (a.refs.conf = true ∧ a.g TU_STAT_SSTATE ≠ 0)) :
    a.servoTake = a.runCounted := by
  rw [State.servoTake, lost]
  exact if_neg (by simpa using free)

/-- Taking the PTP engine's offsets leaves the time unit as it is (R269). -/
theorem State.ptpTake_tu (s : State) : s.ptpTake.tu = s.tu ∧ ∀ f, f.reg / 0x10000 = 0x5000 → s.ptpTake.g f = s.g f := by
  simp only [State.ptpTake]
  split
  · exact ⟨rfl, fun _ _ => rfl⟩
  · refine ⟨rfl, fun f tu => ?_⟩
    have apart (e : Fld) (h : e.reg / 0x10000 = 0x5003) : f.reg ≠ e.reg := by omega
    rw [State.pb, State.g_p_reg _ _ (apart EN_PTPSTAT_SETTLED (by decide)), State.g_p_reg _ _ (apart EN_PTPRATE_R (by decide)),
      State.g_p_reg _ _ (apart EN_PTPOFF_O (by decide))]
    rfl

theorem exec_rtcUpdate_due {s : State} (sync : s.sync = true) (due : s.sb.rtcAt = none ∨ ∃ n, s.sb.rtcAt = some n ∧ n + 600000000000 ≤ s.now) :
    exec .rtcUpdate s = .next { s with sb := { s.sb with
      rtc := s.now / 1000000000, rtcFrac := s.now % 1000000000 * 32768 / 1000000000, rtcAcc := 0, rtcWritten := true, rtcAt := some s.now } } := by
  refine if_pos ?_
  rcases due with never | ⟨n, last, old⟩
  · rw [sync, never]; rfl
  · rw [sync, last]; simpa using old

/-! ### Captures (R193 to R196) -/

/-- A capture channel's registers after an event at a time. -/
def State.captureShown (s : State) (n t : Nat) : State :=
  ((((s.p (TU_CAP_NS n) t).p (TU_CAPERA_ERA n) (t / 2 ^ 32)).inc (TU_CAPSTAT_COUNT n)).p (TU_CAPSTAT_VALID n) 1).p (TU_CAPSTAT_STEPPED n) 0

theorem State.captureShown_only (s : State) (n t : Nat) :
    OnlyRegs s (s.captureShown n t) (regIn [TU_CAP_NS n, TU_CAPERA_ERA n, TU_CAPSTAT_COUNT n]) :=
  (((((OnlyRegs.refl s _).p _ _ (regIn_head _ rfl)).p (TU_CAPERA_ERA n) _ ⟨_, by simp, rfl⟩).p (TU_CAPSTAT_COUNT n) _ ⟨_, by simp, rfl⟩).p
    (TU_CAPSTAT_VALID n) _ ⟨TU_CAPSTAT_COUNT n, by simp, rfl⟩).p (TU_CAPSTAT_STEPPED n) _ ⟨TU_CAPSTAT_COUNT n, by simp, rfl⟩

theorem State.captureShown_shows (s : State) (n t : Nat) :
    let u := s.captureShown n t
    u.g (TU_CAP_NS n) = t % 2 ^ 32 ∧ u.g (TU_CAPERA_ERA n) = t / 2 ^ 32 % 2 ^ 32 ∧
    u.g (TU_CAPSTAT_COUNT n) = (s.g (TU_CAPSTAT_COUNT n) + 1) % 2 ^ (TU_CAPSTAT_COUNT n).w ∧ u.g (TU_CAPSTAT_VALID n) = 1 ∧
    u.g (TU_CAPSTAT_STEPPED n) = 0 := by
  simp only [State.captureShown, State.inc, TU_CAP_NS, TU_CAPERA_ERA, TU_CAPSTAT_COUNT, TU_CAPSTAT_VALID, TU_CAPSTAT_STEPPED]
  refine ⟨?_, ?_, ?_, ?_, ?_⟩
  all_goals simp (disch := simp) only [State.g_p_same, State.g_p_off]
  all_goals rfl

theorem State.capKeep_caps (s : State) (n : Nat) (e : CapEnt) : ∃ xs, tabGet (fun _ => []) (s.capKeep n e).tu.caps n = e :: xs :=
  ⟨_, (tabGet_tabSet_same (fun _ => ([] : List CapEnt)) s.tu.caps n _).trans List.cons_append⟩

theorem State.g_capKeep (s : State) (n : Nat) (e : CapEnt) (f : Fld) : (s.capKeep n e).g f = s.g f := rfl

/-- Beside its registers an event changes the latest events that its channel keeps. -/
theorem State.capKeep_only {s a : State} {as : Nat → Prop} (h : OnlyRegs s a as) (n : Nat) (e : CapEnt) :
    OnlyRegs { s with tu := { s.tu with caps := (a.capKeep n e).tu.caps } } (a.capKeep n e) as := by
  have tu : (a.capKeep n e).tu = { s.tu with caps := (a.capKeep n e).tu.caps } :=
    congrArg (fun x : TuSt => { x with caps := (a.capKeep n e).tu.caps }) (congrArg State.tu h.1)
  rw [← tu]
  exact h.withTu _

/-- An event recorded: its registers and the events that the channel keeps. -/
def State.captureTaken (s : State) (n t : Nat) : State :=
  (s.captureShown n t).capKeep n { t := t, count := (s.captureShown n t).g (TU_CAPSTAT_COUNT n) }

theorem State.captureTaken_shows (s : State) (n t : Nat) :
    let u := s.captureTaken n t
    u.g (TU_CAP_NS n) = t % 2 ^ 32 ∧ u.g (TU_CAPERA_ERA n) = t / 2 ^ 32 % 2 ^ 32 ∧
    u.g (TU_CAPSTAT_COUNT n) = (s.g (TU_CAPSTAT_COUNT n) + 1) % 2 ^ (TU_CAPSTAT_COUNT n).w ∧ u.g (TU_CAPSTAT_VALID n) = 1 ∧
    u.g (TU_CAPSTAT_STEPPED n) = 0 ∧ (∃ xs, tabGet (fun _ => []) u.tu.caps n = ({ t := t, count := u.g (TU_CAPSTAT_COUNT n) } : CapEnt) :: xs) ∧
    OnlyRegs { s with tu := { s.tu with caps := u.tu.caps } } u (regIn [TU_CAP_NS n, TU_CAPERA_ERA n, TU_CAPSTAT_COUNT n]) := by
  obtain ⟨ns, era, count, valid, stepped⟩ := s.captureShown_shows n t
  simp only [State.captureTaken, State.g_capKeep]
  exact ⟨ns, era, count, valid, stepped, State.capKeep_caps _ _ _, State.capKeep_only (s.captureShown_only _ _) _ _⟩

theorem exec_captureEvent_taken {s : State} {n : Fin 16} (en : s.on (TU_CAPCFG_EN n.val) = true) (free : s.heldTio (s.g (TU_CAPCFG_SRC n.val)) = false)
    (stamp : Nat) : exec (.captureEvent n stamp) s = .next (s.captureTaken n.val (extend s.now stamp)) :=
  congrArg Host.Outcome.next (if_pos (by simp [en, free]))

theorem exec_captureEvent_absorbed {s : State} {n : Fin 16} (h : s.on (TU_CAPCFG_EN n.val) = false ∨ s.heldTio (s.g (TU_CAPCFG_SRC n.val)) = true)
    (stamp : Nat) : exec (.captureEvent n stamp) s = .next s :=
  congrArg Host.Outcome.next (if_neg (by rcases h with off | held <;> simp [*]))

/-- A legal configuration as it is written. -/
def State.capConfigured (s : State) (n : Nat) (w : Word) : State :=
  (((s.p (TU_CAPCFG_SRC n) (getBits w 0 6)).p (TU_CAPCFG_EDGE n) (getBits w 6 2)).p (TU_CAPCFG_NODE n) (getBits w 8 8)).p (TU_CAPCFG_EN n) (getBits w 16 1)

/-- A capture channel's registers with its record cleared. -/
def State.capCleared (s : State) (n : Nat) : State := ((s.p (TU_CAPSTAT_COUNT n) 0).p (TU_CAPSTAT_VALID n) 0).p (TU_CAPSTAT_STEPPED n) 0

/-- The time unit with a channel's events cleared. -/
def TuSt.capCleared (x : TuSt) (n : Nat) : TuSt := { x with caps := tabSet (fun _ => []) x.caps n [] }

theorem TuSt.capCleared_caps (x : TuSt) (n : Nat) : tabGet (fun _ => []) (x.capCleared n).caps n = [] :=
  tabGet_tabSet_same (fun _ => ([] : List CapEnt)) x.caps n []

theorem State.capConfigured_only (s : State) (n : Nat) (w : Word) : OnlyRegs s (s.capConfigured n w) (regIn [TU_CAPCFG_SRC n]) :=
  ((((OnlyRegs.refl s (regIn [TU_CAPCFG_SRC n])).p (TU_CAPCFG_SRC n) _ (regIn_head _ rfl)).p (TU_CAPCFG_EDGE n) _ (regIn_head _ rfl)).p
    (TU_CAPCFG_NODE n) _ (regIn_head _ rfl)).p (TU_CAPCFG_EN n) _ (regIn_head _ rfl)

theorem State.capConfigured_shows (s : State) (n : Nat) (w : Word) :
    let u := s.capConfigured n w
    u.g (TU_CAPCFG_SRC n) = getBits w 0 6 ∧ u.g (TU_CAPCFG_EDGE n) = getBits w 6 2 ∧
    u.g (TU_CAPCFG_NODE n) = getBits w 8 8 % 2 ^ (TU_CAPCFG_NODE n).w ∧ u.g (TU_CAPCFG_EN n) = getBits w 16 1 := by
  have fits (lo m : Nat) : getBits w lo m % 2 ^ m = getBits w lo m := Nat.mod_eq_of_lt (getBits_lt w lo m)
  simp only [State.capConfigured, TU_CAPCFG_SRC, TU_CAPCFG_EDGE, TU_CAPCFG_NODE, TU_CAPCFG_EN]
  refine ⟨?_, ?_, ?_, ?_⟩
  all_goals simp (disch := simp) only [State.g_p_same, State.g_p_off]
  · exact fits 0 6
  · exact fits 6 2
  · exact fits 16 1

theorem State.capCleared_only (s : State) (n : Nat) : OnlyRegs s (s.capCleared n) (regIn [TU_CAPSTAT_COUNT n]) :=
  (((OnlyRegs.refl s (regIn [TU_CAPSTAT_COUNT n])).p (TU_CAPSTAT_COUNT n) 0 (regIn_head _ rfl)).p (TU_CAPSTAT_VALID n) 0 (regIn_head _ rfl)).p
    (TU_CAPSTAT_STEPPED n) 0 (regIn_head _ rfl)

theorem State.capCleared_shows (s : State) (n : Nat) : (s.capCleared n).g (TU_CAPSTAT_COUNT n) = 0 ∧ (s.capCleared n).g (TU_CAPSTAT_VALID n) = 0 := by
  simp only [State.capCleared, TU_CAPSTAT_COUNT, TU_CAPSTAT_VALID, TU_CAPSTAT_STEPPED]
  refine ⟨?_, ?_⟩
  all_goals simp (disch := simp) only [State.g_p_same, State.g_p_off]
  all_goals rfl

/-- The configuration and the status of a channel are two registers. -/
theorem capConfig_apart (n : Nat) : (TU_CAPCFG_SRC n).reg ≠ (TU_CAPSTAT_COUNT n).reg := by simp only [TU_CAPCFG_SRC, TU_CAPSTAT_COUNT]; omega

/-- A legal configuration whose `EN` rises (R193). -/
def State.capRestarted (s : State) (n : Nat) (w : Word) : State := { (s.capConfigured n w).capCleared n with tu := s.tu.capCleared n }

theorem State.g_capRestarted (s : State) (n : Nat) (w : Word) (f : Fld) : (s.capRestarted n w).g f = ((s.capConfigured n w).capCleared n).g f := rfl

theorem State.capRestarted_tu (s : State) (n : Nat) (w : Word) : (s.capRestarted n w).tu = s.tu.capCleared n := rfl

theorem State.capRestarted_config (s : State) (n : Nat) (w : Word) {f : Fld} (h : f.reg = (TU_CAPCFG_SRC n).reg) :
    (s.capRestarted n w).g f = (s.capConfigured n w).g f :=
  ((s.capConfigured n w).capCleared_only n).g (by simpa only [regIn_cons, not_regIn_nil, or_false, h] using capConfig_apart n)

theorem State.capRestarted_only (s : State) (n : Nat) (w : Word) :
    OnlyRegs { s with tu := s.tu.capCleared n } (s.capRestarted n w) (regIn [TU_CAPCFG_SRC n, TU_CAPSTAT_COUNT n]) :=
  (((s.capConfigured_only n w).mono (regIn_mono (by simp))).trans (((s.capConfigured n w).capCleared_only n).mono (regIn_mono (by simp)))).withTu _

theorem exec_captureEnable_legal {s : State} {w : Word} (legal : capCfgLegal w = true) (n : Fin 16) : exec (.captureEnable n w) s =
    .next (if getBits w 16 1 = 1 ∧ s.on (TU_CAPCFG_EN n.val) = false
      then s.capRestarted n.val w else s.capConfigured n.val w) := by
  refine congrArg Host.Outcome.next ((if_pos legal).trans (if_congr ?_ rfl rfl))
  simp

theorem exec_captureEnable_illegal {s : State} {w : Word} (illegal : capCfgLegal w = false) (n : Fin 16) :
    exec (.captureEnable n w) s = .next (s.notice 0x22 2 n.val (s.word (TU_CAPCFG_SRC n.val))) :=
  congrArg Host.Outcome.next (if_neg (by simp [illegal]))

/-! ### Triggers (R197 to R199) -/

/-- Is a channel armed for a time within its margin? -/
def State.armedNear (s : State) (n : Nat) : Prop := s.on (TU_TRGSTAT_ARMED n) = true ∧ s.trigAt n < s.now + trgMargin (s.g (TU_TRGCFG_TGT n))

theorem State.armedNear_iff (s : State) (n : Nat) :
    (s.on (TU_TRGSTAT_ARMED n) && decide (s.trigAt n < s.now + trgMargin (s.g (TU_TRGCFG_TGT n)))) = true ↔ s.armedNear n := by
  simp [State.armedNear]

theorem State.arm_near {s : State} {n : Nat} (near : s.armedNear n) (t : Nat) :
    s.arm n t = { s with tu := { s.tu with trigNext := tabSet (fun _ => none) s.tu.trigNext n (some t) } } :=
  if_pos ((s.armedNear_iff n).2 near)

theorem State.arm_replaces {s : State} {n : Nat} (far : ¬ s.armedNear n) (t : Nat) : s.arm n t = s.armNow n t :=
  if_neg (mt (s.armedNear_iff n).1 far)

theorem State.armNow_shows (s : State) (n t : Nat) : (s.armNow n t).trigAt n = t ∧ (s.armNow n t).g (TU_TRG_NS n) = t % 2 ^ 32 ∧
    (s.armNow n t).g (TU_TRGSTAT_ARMED n) = 1 ∧
    OnlyRegs { s with tu := (s.armNow n t).tu } (s.armNow n t) (regIn [TU_TRG_NS n, TU_TRGSTAT_ARMED n]) := by
  have regs (f : Fld) : (s.armNow n t).g f = ((s.p (TU_TRG_NS n) t).p (TU_TRGSTAT_ARMED n) 1).g f := rfl
  refine ⟨tabGet_tabSet_same _ _ _ _, ?_, ?_, ?_⟩
  · rw [regs, State.g_p_off _ _ (.inl (by simp only [TU_TRG_NS, TU_TRGSTAT_ARMED]; omega))]
    exact State.g_p_same _ _ _ (by decide : 0 + 32 ≤ 32)
  · exact (regs _).trans (State.g_p_same _ _ _ (by decide : 0 + 1 ≤ 32))
  · exact ((OnlyRegs.refl _ _).p (TU_TRG_NS n) t (regIn_head _ rfl)).p (TU_TRGSTAT_ARMED n) 1 ⟨_, by simp, rfl⟩

theorem exec_appTriggerArrival {s : State} {n : Fin 16} {word : BitVec 64} {p : Part} (first : s.transit.find? (·.isTrigger n.val) = some p)
    (same : leNat (p.data.take 8) = word.toNat) :
    exec (.appTriggerArrival n word) s = .next (({ s with transit := s.transit.erase p } : State).trigWord n.val word.toNat) := by
  change execAppTriggerArrival n word s = _
  rw [execAppTriggerArrival, first]
  exact if_pos (by simpa using same)

/-- Does a channel take an application's trigger times (R198, R379)? -/
def State.takesTimes (s : State) (n : Nat) : Prop := s.on (TU_TRGCFG_APP n) = true ∧ s.on (TU_TRGCFG_EN n) = true ∧ s.gated = false

theorem State.takesTimes_iff (s : State) (n : Nat) :
    (!s.on (TU_TRGCFG_APP n) || !s.on (TU_TRGCFG_EN n) || s.gated) = true ↔ ¬ s.takesTimes n := by
  cases app : s.on (TU_TRGCFG_APP n) <;> cases en : s.on (TU_TRGCFG_EN n) <;> simp [State.takesTimes, app, en]

theorem State.trigWord_ignored {s : State} {n : Nat} (h : ¬ s.takesTimes n) (t : Nat) : s.trigWord n t = s := if_pos ((s.takesTimes_iff n).2 h)

section
variable {s : State} {n t : Nat} (takes : s.takesTimes n)
include takes

theorem State.trigWord_taken : s.trigWord n t =
    if s.now + 1000000000 < t then (s.p (TU_TRGSTAT_REJ n) 1).notice 0x1A 4 n ((s.p (TU_TRGSTAT_REJ n) 1).word (TU_TRGSTAT_REJ n))
    else if t < s.now + trgMargin (s.g (TU_TRGCFG_TGT n)) then s.trigLate n t else s.arm n t :=
  if_neg (fun h => (s.takesTimes_iff n).1 h takes)

theorem State.trigWord_rejected (hn : n < 16) (beyond : s.now + 1000000000 < t) : (s.trigWord n t).g (TU_TRGSTAT_REJ n) = 1 ∧
    OnlyRecords s (s.trigWord n t) (regIn [TU_TRGSTAT_REJ n]) := by
  have noted := (s.p (TU_TRGSTAT_REJ n) 1).notice_same 0x1A 4 n ((s.p (TU_TRGSTAT_REJ n) 1).word (TU_TRGSTAT_REJ n)) (by decide)
  rw [State.trigWord_taken takes, if_pos beyond, noted.g _ (not_recPage_tu (by simp only [TU_TRGSTAT_REJ]; omega))]
  exact ⟨State.g_p_same _ _ _ (by decide : 3 + 1 ≤ 32), (OnlyRegs.of_p s 1 (regIn_head _ rfl)).record noted⟩

theorem State.trigWord_arms (within : t ≤ s.now + 1000000000) (early : s.now + trgMargin (s.g (TU_TRGCFG_TGT n)) ≤ t) : s.trigWord n t = s.arm n t := by
  rw [State.trigWord_taken takes, if_neg (Nat.not_lt.2 within), if_neg (Nat.not_lt.2 early)]

theorem State.trigWord_late (within : t ≤ s.now + 1000000000) (late : t < s.now + trgMargin (s.g (TU_TRGCFG_TGT n))) :
    s.trigWord n t = s.trigLate n t := by
  rw [State.trigWord_taken takes, if_neg (Nat.not_lt.2 within), if_pos late]

end

/-- A channel that shows a late time, noticed (R198). -/
def State.lateNoted (s : State) (n : Nat) : State := (s.p (TU_TRGSTAT_LATE n) 1).notice 0x1A 4 n ((s.p (TU_TRGSTAT_LATE n) 1).word (TU_TRGSTAT_LATE n))

/-- The notice of a late time leaves what the channel is armed for. -/
theorem State.armedNear_lateNoted (s : State) {n : Nat} (hn : n < 16) : (s.lateNoted n).armedNear n ↔ s.armedNear n := by
  have noted : SameBut (s.p (TU_TRGSTAT_LATE n) 1) (s.lateNoted n) := State.notice_same _ _ _ _ _ (by decide)
  have field {f : Fld} (tu : f.reg / 0x10000 = 0x5000) (other : f.reg ≠ 0x5000020C + 16 * n ∨ f.lo + f.w ≤ 1) : (s.lateNoted n).g f = s.g f :=
    (noted.g f (not_recPage_tu tu)).trans (State.g_p_off s 1 (other.imp_right fun low => ⟨(by decide : 1 + 1 ≤ 32), .inr low⟩))
  have armed : (s.lateNoted n).on (TU_TRGSTAT_ARMED n) = s.on (TU_TRGSTAT_ARMED n) :=
    congrArg (· == 1) (field (by simp only [TU_TRGSTAT_ARMED]; omega) (.inr (by decide : 0 + 1 ≤ 1)))
  have target : (s.lateNoted n).g (TU_TRGCFG_TGT n) = s.g (TU_TRGCFG_TGT n) :=
    field (by simp only [TU_TRGCFG_TGT]; omega) (.inl (by simp only [TU_TRGCFG_TGT]; omega))
  have ns : (s.lateNoted n).g TU_NS_NS = s.g TU_NS_NS := field (by decide) (.inl (by simp only [TU_NS_NS]; omega))
  have era : (s.lateNoted n).g TU_ERA_ERA = s.g TU_ERA_ERA := field (by decide) (.inl (by simp only [TU_ERA_ERA]; omega))
  have at_ : (s.lateNoted n).trigAt n = s.trigAt n := congrArg (fun x : TuSt => tabGet (fun _ => 0) x.trigAt n) noted.tu
  simp only [State.armedNear, State.now, armed, target, ns, era, at_]

theorem State.trigLate_near {s : State} {n : Nat} (hn : n < 16) (near : s.armedNear n) (t : Nat) : s.trigLate n t = (s.lateNoted n).arm n t :=
  if_pos ((State.armedNear_iff _ n).2 ((s.armedNear_lateNoted hn).2 near))

theorem State.trigLate_acts {s : State} {n : Nat} (hn : n < 16) (far : ¬ s.armedNear n) (t : Nat) :
    let c := ((s.lateNoted n).trigAct n t).inc (TU_TRGSTAT_FIRED n)
    s.trigLate n t = c.rearm n (t + c.g (TU_TRGPER_NS n)) :=
  if_neg (mt (State.armedNear_iff _ n).1 (mt (s.armedNear_lateNoted hn).1 far))

theorem exec_triggerFire_due {s : State} {n : Fin 16} (armed : s.on (TU_TRGSTAT_ARMED n.val) = true) (en : s.on (TU_TRGCFG_EN n.val) = true)
    (due : s.trigAt n.val ≤ s.now) :
    let a := (s.trigAct n.val (s.trigAt n.val)).inc (TU_TRGSTAT_FIRED n.val)
    exec (.triggerFire n) s = .next (a.rearm n.val (a.trigAt n.val + a.g (TU_TRGPER_NS n.val))) :=
  if_pos (by simp [armed, en, due])

end Sys2Proof.Machine

namespace Sys2Proof.Proofs
open Sys2Proof.Machine Sys2Proof.Safety

/-- Settles O35: what each command of the time unit leaves, by the registers and the state that it writes. That the counter is 0 where the wrap carries
no value, and that a step carries into an armed next era, is log 83's choice; the rounding of the servo is log 71's; what a late time does beside an
armed one is log 82's; that a channel armed while its `EN` is 0 fires once it is in use is log 106's. -/
theorem timeCapturesAndTriggers : Obligations.TimeCapturesAndTriggers := by
  refine ⟨fun s w => ⟨?wrap, State.eraWrap_armed, State.eraWrap_unarmed, ⟨fun legal => ?increment, fun illegal => ?badIncrement⟩, incLegal_servoInc,
      ?eranext, ?snapshot, fun other => ?stepRefused, fun synchronising => ?stepAsked, fun d waits => ?stepApplied, ?stale, exec_rtcUpdate_due,
      exec_servoRun_down, fun up => ⟨fun o r input near => ?slews, fun o r input mode far => ?stepsTime, fun lost conf locked => ?holds,
        fun lost free => ?free⟩⟩,
    fun s n w stamp word => ⟨fun en free => ?captured, fun h => exec_captureEvent_absorbed h stamp, fun legal => ?configured, fun illegal => ?misconfigured,
      fun t armed near => State.arm_near ⟨armed, near⟩ t, fun t far => ?arms, fun keeper => congrArg Host.Outcome.next (if_neg (by simp [keeper])),
      fun app => congrArg Host.Outcome.next (if_pos app), fun p first same => exec_appTriggerArrival first same, fun app en ungated t => ?taken,
      fun t h => State.trigWord_ignored h t, exec_triggerFire_due⟩⟩
  case wrap =>
    intro f v
    refine ⟨_, exec_timeTickWrap s, ?_, fun carries => ?_, fun short => ?_⟩
    · exact ⟨by split <;> rfl, by split <;> exact (OnlyRegs.of_p _ _ (regIn_head _ rfl)).2⟩
    · rw [if_pos carries]
      exact ⟨State.g_p_same _ _ _ (by decide), rfl⟩
    · rw [if_neg (Nat.not_le.2 short)]
      exact ⟨State.g_p_same _ _ _ (by decide), rfl⟩
  case increment =>
    exact ⟨_, congrArg Host.Outcome.next (if_pos legal), rfl, s.g_p_same TU_INC_I_I _ (by decide),
      OnlyRegs.of_p _ _ (regIn_head _ rfl)⟩
  case badIncrement =>
    have noted := s.notice_same 0x22 2 0 (s.word TU_INC_I_I) (by decide)
    exact ⟨_, congrArg Host.Outcome.next (if_neg (Bool.eq_false_iff.1 illegal)), noted.tu, (OnlyRegs.refl s _).record noted⟩
  case eranext =>
    refine ⟨_, rfl, ?_, State.g_p_same _ _ _ (by decide), ((OnlyRegs.refl s _).p _ _ (regIn_head _ rfl)).p _ _ ⟨_, by simp, rfl⟩⟩
    exact (State.g_p_off _ _ (by decide)).trans ((s.g_p_same TU_ERANEXT_ERA _ (by decide)).trans (Nat.mod_eq_of_lt w.isLt))
  case snapshot =>
    obtain ⟨ns, era, frac⟩ := s.snapshot_shows
    exact ⟨_, rfl, ns, era, frac, s.snapshot_only⟩
  case stepRefused =>
    have noted := s.notice_same 0x22 1 0 (s.word TU_STEP_STEP) (by decide)
    exact ⟨_, exec_timeStep_refused other w, State.now_of_keep (as := recPage) noted.2 (not_recPage_tu (by decide)) (not_recPage_tu (by decide)),
      (OnlyRegs.refl s _).record noted⟩
  case stepAsked => exact ⟨_, exec_timeStep_taken synchronising w, rfl, s.askStep_shows w, OnlyRegs.of_p _ _ (regIn_head _ rfl)⟩
  case stepApplied =>
    intro f v
    obtain ⟨fields, tu, marked⟩ := ({ s with tu := { s.tu with frac := f % 2 ^ 32 } } : State).stepped_shows ((f / 2 ^ 32 : Nat) + d)
    obtain ⟨ns, era, stat, step, next⟩ := ({ s with tu := { s.tu with frac := f % 2 ^ 32 } } : State).countTo_shows v
    refine ⟨_, ?_, (fields _ (by decide)).trans ns, (fields _ (by decide)).trans era, (fields _ (by decide)).trans stat, (fields _ (by decide)).trans step,
      (fields _ (by decide)).trans next, ?_, marked⟩
    · rw [State.timeTick_of_step waits, State.stepTime_eq]
      simp only [decide_eq_true_eq]
      rfl
    · rw [tu]; rfl
  case stale =>
    have noted := (s.p TU_STAT_INCSTALE 1).notice_same 0x1A 2 0 ((s.p TU_STAT_INCSTALE 1).word TU_STAT_SSTATE) (by decide)
    exact ⟨_, rfl, (noted.g _ (not_recPage_tu (by decide))).trans (State.g_p_same _ _ _ (by decide)), (OnlyRegs.of_p s 1 (regIn_head _ rfl)).record noted⟩
  case slews =>
    obtain ⟨tu, frac, offset⟩ := (s.ptpTake.tracked o r).useInc_shows (servoInc o r)
    exact ⟨_, (exec_servoRun_up up).trans (by rw [State.servoTake_slews input near]; rfl), congrArg TuSt.inc tu, frac,
      offset.trans (State.tracked_offset _ _ _), congrArg TuSt.rate tu⟩
  case stepsTime =>
    obtain ⟨tu, -, offset⟩ := (s.ptpTake.tracked o r).useInc_shows (servoInc 0 r)
    refine ⟨_, (exec_servoRun_up up).trans (by rw [State.servoTake_steps input ⟨mode, far⟩]; rfl), ?_⟩
    rw [State.askStep_tu, State.g_askStep _ _ (by decide), tu, offset, State.tracked_offset]
    exact ⟨rfl, rfl, rfl⟩
  case holds =>
    obtain ⟨tu, regs⟩ := s.ptpTake_tu
    refine ⟨_, (exec_servoRun_up up).trans (by rw [State.servoTake_holds lost conf (by rwa [regs _ (by decide)])]; rfl), ?_⟩
    rw [← tu]; rfl
  case free =>
    obtain ⟨tu, regs⟩ := s.ptpTake_tu
    exact ⟨s.ptpTake.runCounted, (exec_servoRun_up up).trans (by rw [State.servoTake_free lost (by rwa [regs _ (by decide)])]; rfl),
      (congrArg TuSt.inc tu : s.ptpTake.tu.inc = s.tu.inc)⟩
  case captured => exact ⟨_, exec_captureEvent_taken en free stamp, s.captureTaken_shows n.val (extend s.now stamp)⟩
  case configured =>
    refine ⟨_, exec_captureEnable_legal legal n, ?_⟩
    obtain ⟨src, edge, node, en⟩ := s.capConfigured_shows n.val w
    have config := s.capConfigured_only n.val w
    split
    case isTrue rise =>
      obtain ⟨count, valid⟩ := (s.capConfigured n.val w).capCleared_shows n.val
      rw [State.capRestarted_config (f := TU_CAPCFG_SRC n.val) _ _ _ rfl, State.capRestarted_config (f := TU_CAPCFG_EDGE n.val) _ _ _ rfl,
        State.capRestarted_config (f := TU_CAPCFG_NODE n.val) _ _ _ rfl, State.capRestarted_config (f := TU_CAPCFG_EN n.val) _ _ _ rfl,
        State.g_capRestarted, State.g_capRestarted, State.capRestarted_tu]
      exact ⟨src, edge, node, en, fun _ _ => ⟨count, valid, s.tu.capCleared_caps n.val⟩, fun still => absurd rise still, s.capRestarted_only n.val w⟩
    case isFalse still =>
      refine ⟨src, edge, node, en, fun set off => absurd ⟨set, off⟩ still, fun _ => ⟨config.g ?_, rfl⟩, config.mono (regIn_mono (by simp))⟩
      simpa only [regIn_cons, not_regIn_nil, or_false] using (capConfig_apart n.val).symm
  case misconfigured =>
    exact ⟨_, exec_captureEnable_illegal illegal n, (OnlyRegs.refl s _).record (s.notice_same _ _ _ _ (by decide))⟩
  case arms =>
    rw [State.arm_replaces far]
    exact s.armNow_shows n.val t
  case taken =>
    have takes : s.takesTimes n.val := ⟨app, en, ungated⟩
    refine ⟨State.trigWord_rejected takes n.isLt, State.trigWord_arms takes, fun within late => ⟨fun armed near => ?_, fun far => ?_⟩⟩
    · exact (State.trigWord_late takes within late).trans (State.trigLate_near n.isLt ⟨armed, near⟩ t)
    · exact (State.trigWord_late takes within late).trans (State.trigLate_acts n.isLt far t)

end Sys2Proof.Proofs

/-! SUPPORT. The Ethernet switch and process data (R190 to R192, R264 to R266, R273, R277): where a received frame goes, what a queue takes, what a
port that sends leaves alone, which subscription takes a datagram. -/

namespace Sys2Proof.Machine
open Sys2Proof.Safety

/-! ### Frames received (R264 to R266) -/

/-- Does a switch port take frames: enabled and not held by a test (R527)? -/
def State.takesFrames (s : State) (p : Nat) : Prop := s.on (EN_PORT_EN p) = true ∧ s.heldPort (p + 1) = false

/-- A frame without an error and of a legal length (R265). -/
def goodFrame (f : EthFrame) : Prop := f.fcsOk = true ∧ 64 ≤ frameLen f ∧ frameLen f ≤ 1522

theorem goodFrame_iff (f : EthFrame) : (!f.fcsOk || frameLen f < 64 || frameLen f > 1522) = false ↔ goodFrame f := by
  simp [goodFrame, and_assoc]

/-- The priority and the VLAN of a received frame (R265). -/
def State.frameClass (s : State) (p : Nat) (f : EthFrame) : Nat × Nat := match f.tag with
  | some (c, v) => if v == 0 then (c, s.g (EN_PORT_PVID p)) else (c, v)
  | none => (s.g (EN_PORT_PCP p), s.g (EN_PORT_PVID p))

/-- The outcome of a frame whose source was learned. -/
def State.switched (a : State) (p : Nat) (f : EthFrame) (c : Nat × Nat) (stamp : Option Nat) (tx : Nat) : Res :=
  if f.dst == a.macBase then .next (a.toKeeper f c.1 c.2)
  else match (if f.dst / 2 ^ 40 % 2 == 1 then none else a.eth.table.find? (fun e => e.1 == c.2 && e.2.1 == f.dst)) with
    | some e => .next (if e.2.2.1 == p then a else a.egress p e.2.2.1 f c.2 c.1 stamp tx)
    | none => .next ((([0, 1, 2, 3].filter (fun q => q != p)).foldl (fun s q => s.egress p q f c.2 c.1 stamp tx) a).toKeeper f c.1 c.2)

section
variable {s : State} {port : EPort} {f : EthFrame} {rx tx : Nat}

theorem exec_switchFrameReceive_absorbed (h : ¬ s.takesFrames port.val) : exec (.switchFrameReceive port f rx tx) s = .next s :=
  if_pos (by
    cases en : s.on (EN_PORT_EN port.val)
    · rfl
    · simpa [State.takesFrames, en] using h)

variable (takes : s.takesFrames port.val)
include takes

theorem takesFrames_cond : ¬ (!s.on (EN_PORT_EN port.val) || s.heldPort (port.val + 1)) = true := by
  obtain ⟨en, free⟩ := takes
  simp [en, free]

theorem exec_switchFrameReceive_drops (bad : ¬ goodFrame f) : exec (.switchFrameReceive port f rx tx) s = .next (s.inc (EN_DROP_COUNT port.val)) :=
  (if_neg (takesFrames_cond takes)).trans (if_pos (Bool.eq_true_of_not_eq_false (mt (goodFrame_iff f).1 bad)))

variable (good : goodFrame f)
include good

theorem exec_switchFrameReceive_service (service : port.val = 4) :
    exec (.switchFrameReceive port f rx tx) s = .next (s.toKeeper f (s.g (EN_PORT_PCP 4)) (s.g (EN_PORT_PVID 4))) := by
  refine (if_neg (takesFrames_cond takes)).trans ((if_neg (Bool.eq_false_iff.1 ((goodFrame_iff f).2 good))).trans ((if_pos (by simpa using service)).trans rfl))

variable (consist : port.val < 4)
include consist

theorem exec_switchFrameReceive_consist : exec (.switchFrameReceive port f rx tx) s =
    if (0x0180C2000000 ≤ f.dst && f.dst ≤ 0x0180C200000F) = true then .next (if (ptpAt f).isSome then s else s.inc (EN_DROP_COUNT port.val))
    else (s.learnMac (s.frameClass port.val f).2 f.src port.val).switched port.val f (s.frameClass port.val f)
      (if s.on (EN_PORT_LINK port.val) then some (s.rxStamp port.val rx) else none) tx :=
  (if_neg (takesFrames_cond takes)).trans ((if_neg (Bool.eq_false_iff.1 ((goodFrame_iff f).2 good))).trans (if_neg (by simpa using consist.ne)))

theorem exec_switchFrameReceive_reserved (low : 0x0180C2000000 ≤ f.dst) (high : f.dst ≤ 0x0180C200000F) :
    exec (.switchFrameReceive port f rx tx) s = .next (if (ptpAt f).isSome = true then s else s.inc (EN_DROP_COUNT port.val)) :=
  (exec_switchFrameReceive_consist takes good consist).trans (if_pos (by simp [low, high]))

theorem exec_switchFrameReceive_forwards (other : ¬ (0x0180C2000000 ≤ f.dst ∧ f.dst ≤ 0x0180C200000F)) :
    exec (.switchFrameReceive port f rx tx) s = (s.learnMac (s.frameClass port.val f).2 f.src port.val).switched port.val f (s.frameClass port.val f)
      (if s.on (EN_PORT_LINK port.val) then some (s.rxStamp port.val rx) else none) tx :=
  (exec_switchFrameReceive_consist takes good consist).trans (if_neg (by simpa using other))

end
theorem State.macBase_learnMac (s : State) (vid mac p : Nat) : (s.learnMac vid mac p).macBase = s.macBase := by
  have regs : (s.learnMac vid mac p).regs = s.regs := by
    unfold State.learnMac
    exact (apply_ite State.regs _ _ _).trans (ite_self _)
  simp only [State.macBase, State.factByte, regs]

section
variable {a : State} {f : EthFrame} {c : Nat × Nat} (p : Nat) (stamp : Option Nat) (tx : Nat)

theorem State.switched_own (own : f.dst = a.macBase) : a.switched p f c stamp tx = .next (a.toKeeper f c.1 c.2) := if_pos (by simpa using own)

theorem State.switched_known (other : f.dst ≠ a.macBase) (single : f.dst / 2 ^ 40 % 2 = 0) {e : Nat × Nat × Nat × Nat}
    (known : a.eth.table.find? (fun e => e.1 == c.2 && e.2.1 == f.dst) = some e) :
    a.switched p f c stamp tx = .next (if e.2.2.1 = p then a else a.egress p e.2.2.1 f c.2 c.1 stamp tx) := by
  refine (if_neg (by simpa using other)).trans ?_
  rw [if_neg (by rw [single]; decide), known]
  exact congrArg Host.Outcome.next (if_congr (by simp) rfl rfl)

theorem State.switched_flood (other : f.dst ≠ a.macBase)
    (unknown : f.dst / 2 ^ 40 % 2 = 1 ∨ a.eth.table.find? (fun e => e.1 == c.2 && e.2.1 == f.dst) = none) : a.switched p f c stamp tx =
    .next ((([0, 1, 2, 3].filter (fun q => q != p)).foldl (fun s q => s.egress p q f c.2 c.1 stamp tx) a).toKeeper f c.1 c.2) := by
  have nowhere : (if f.dst / 2 ^ 40 % 2 == 1 then none else a.eth.table.find? (fun e => e.1 == c.2 && e.2.1 == f.dst)) = none := by
    rcases unknown with group | unknown
    · exact if_pos (by simpa using group)
    · rw [unknown, ite_self]
  refine (if_neg (by simpa using other)).trans ?_
  rw [nowhere]

end

theorem State.toKeeper_of_up {s : State} (up : s.linkDown lkNetwork = false) (awake : s.mode ≠ mDormant) (f : EthFrame) (pcp vid : Nat) :
    s.toKeeper f pcp vid = { s with tx := .ethFrame 5 (frameBytes f true pcp vid) :: s.tx } :=
  (if_neg (by simp [up])).trans (State.emit_of_awake awake _)

/-! ### Egress and the transparent clock (R192, R266) -/

theorem State.egress_plain {f : EthFrame} (plain : ptpAt f = none) (s : State) (p q vid pcp : Nat) (st : Option Nat) (tx : Nat) :
    s.egress p q f vid pcp st tx =
      s.enqueue q (pcp / 2 % 4) { bytes := frameBytes f (vid != s.g (EN_PORT_PVID q)) pcp vid, due := tx } := by
  rw [State.egress, plain]
  rfl

/-- An end-to-end transparent clock adds the residence time and nothing else. -/
theorem State.egress_event {s : State} {f : EthFrame} {i tr : Nat} (ptp : ptpAt f = some (i, tr)) (event : byteAt f.body i % 16 ≤ 3)
    (endToEnd : s.g EN_PTPCFG_TCMODE = 1) (p q vid pcp r tx : Nat) : s.egress p q f vid pcp (some r) tx =
      s.enqueue q 3 { bytes := frameBytes f (vid != s.g (EN_PORT_PVID q)) pcp vid, due := tx
                      fix := .residence f i tr r 0 (vid != s.g (EN_PORT_PVID q)) pcp vid } := by
  simp [State.egress, ptp, endToEnd, isEvent, event]

theorem State.leaves_corrected {s : State} {q i tr r pcp vid : Nat} {f g : EthFrame} {add : Int} {tagged : Bool} {o : OutFrame}
    (fix : o.fix = .residence f i tr r add tagged pcp vid)
    (corrected : tcCorrect f i tr (sint32 (u32 ((s.txTime q : Int) - r)) * 65536 + add) = some g) :
    s.leaves q o = (s, frameBytes g tagged pcp vid) := by
  simp only [State.leaves, fix, corrected]

/-! ### The address table (R265) -/

/-- The address table without a source. -/
def State.otherAddrs (s : State) (vid mac : Nat) : List (Nat × Nat × Nat × Nat) := s.eth.table.filter (fun e => !(e.1 == vid && e.2.1 == mac))

theorem State.learnMac_table_full {s : State} {vid mac : Nat} (full : 2048 ≤ (s.otherAddrs vid mac).length) (p : Nat) :
    (s.learnMac vid mac p).eth.table = s.eth.table := congrArg (fun t : State => t.eth.table) (if_pos full)

theorem State.learnMac_table_room {s : State} {vid mac : Nat} (room : (s.otherAddrs vid mac).length < 2048) (p : Nat) :
    (s.learnMac vid mac p).eth.table = (vid, mac, p, s.tu.upNs) :: s.otherAddrs vid mac :=
  congrArg (fun t : State => t.eth.table) (if_neg (Nat.not_le.2 room))

theorem State.mem_learnMac {s : State} {vid mac : Nat} (p : Nat) {e : Nat × Nat × Nat × Nat} (held : e ∈ s.eth.table)
    (other : e.1 ≠ vid ∨ e.2.1 ≠ mac) : e ∈ (s.learnMac vid mac p).eth.table := by
  rcases Nat.lt_or_ge (s.otherAddrs vid mac).length 2048 with room | full
  · rw [State.learnMac_table_room room]
    refine List.mem_cons_of_mem _ (List.mem_filter.2 ⟨held, ?_⟩)
    simp only [Bool.not_eq_true', Bool.and_eq_false_iff, beq_eq_false_iff_ne]
    exact other
  · rwa [State.learnMac_table_full full]

theorem mem_addressAgeing (s : State) (vid mac : Nat) (e : Nat × Nat × Nat × Nat) :
    e ∈ s.eth.table.filter (fun e => !(e.1 == vid && e.2.1 == mac && decide (e.2.2.2 + 300000000000 ≤ s.tu.upNs))) ↔
      e ∈ s.eth.table ∧ ¬ (e.1 = vid ∧ e.2.1 = mac ∧ e.2.2.2 + 300000000000 ≤ s.tu.upNs) := by
  rw [List.mem_filter, Bool.not_eq_true', ← Bool.not_eq_true]
  simp only [Bool.and_eq_true, beq_iff_eq, decide_eq_true_eq, and_assoc]

/-! ### Queues and ports that send (R266) -/

theorem State.enqueue_full {s : State} {p q : Nat} {o : OutFrame} (up : s.portUp p = true)
    (full : 65536 < heldBytes (s.ethQueue p q) + o.bytes.length ∨ 262144 < s.ethHeld + o.bytes.length) : s.enqueue p q o = s.inc (EN_DROP_COUNT p) :=
  (if_neg (by simp [up])).trans (if_pos (by simpa using full))

theorem State.enqueue_room {s : State} {p q : Nat} {o : OutFrame} (up : s.portUp p = true)
    (queue : heldBytes (s.ethQueue p q) + o.bytes.length ≤ 65536) (all : s.ethHeld + o.bytes.length ≤ 262144) : s.enqueue p q o =
      ({ s with eth := { s.eth with queues := tabSet (fun _ => []) s.eth.queues (4 * p + q) (s.ethQueue p q ++ [o]) } } : State).ethKick p :=
  (if_neg (by simp [up])).trans (if_neg (by simp [queue, all]))

/-- What a port changes as it sends: the trace, its own queues and clocks, the count of frames left uncorrected. -/
def OnlySends (s t : State) : Prop := t = { s with regs := t.regs, eth := t.eth, tx := t.tx } ∧ RegsKeep s t (regIn [EN_TCUNCORR_COUNT])

theorem OnlySends.refl (s : State) : OnlySends s s := ⟨rfl, RegsKeep.refl s _⟩

theorem State.leaves_sends (s : State) (p : Nat) (o : OutFrame) : OnlySends s (s.leaves p o).1 := by
  have uncorrected : OnlySends s (s.inc EN_TCUNCORR_COUNT) := ⟨rfl, (OnlyRegs.of_p s _ (regIn_head _ rfl)).2⟩
  unfold State.leaves
  cases o.fix
  case residence f i tr r add tagged pcp vid =>
    dsimp only
    split
    · exact OnlySends.refl s
    · exact uncorrected
  case request => exact ⟨rfl, fun _ _ => rfl⟩
  all_goals exact OnlySends.refl s

theorem OnlySends.emit {s t : State} (h : OnlySends s t) (x : TxItem) : OnlySends s (t.emit x) := by
  refine ⟨?_, fun a ha => (congrArg (fun r : Regs => r.rd a) (State.emit_regs t x)).trans (h.2 a ha)⟩
  unfold State.emit
  split
  · exact h.1
  · conv_lhs => rw [h.1]

theorem OnlySends.withEth {s t : State} (h : OnlySends s t) (x : EthSt) : OnlySends s { t with eth := x } := ⟨by conv_lhs => rw [h.1], h.2⟩

theorem State.ethKick_sends (s : State) (p : Nat) : OnlySends s (s.ethKick p) := by
  unfold State.ethKick
  split
  · exact OnlySends.refl s
  · split
    · exact OnlySends.refl s
    · exact ((s.leaves_sends p _).emit _).withEth _

/-! ### Links (R191, R277) -/

/-- A port that shows a link at a speed. -/
def State.linked (s : State) (p link speed : Nat) : State := (s.p (EN_PORT_LINK p) link).p (EN_PORT_SPEED p) speed

theorem State.linked_only (s : State) (p link speed : Nat) : OnlyRegs s (s.linked p link speed) (regIn [EN_PORT_LINK p]) :=
  ((OnlyRegs.refl s (regIn [EN_PORT_LINK p])).p (EN_PORT_LINK p) link (regIn_head _ rfl)).p (EN_PORT_SPEED p) speed (regIn_head _ rfl)

theorem State.linked_shows (s : State) (p link speed : Nat) : (s.linked p link speed).g (EN_PORT_LINK p) = link % 2 ∧
    (s.linked p link speed).g (EN_PORT_SPEED p) = speed % 4 ∧ (s.linked p link speed).g (EN_PORT_EN p) = s.g (EN_PORT_EN p) := by
  simp only [State.linked, EN_PORT_LINK, EN_PORT_SPEED, EN_PORT_EN]
  refine ⟨?_, ?_, ?_⟩
  all_goals simp (disch := simp) only [State.g_p_same, State.g_p_off]
  all_goals rfl

/-- A port whose link comes up takes its next frame. -/
theorem State.linked_ethKick (s : State) {p : Nat} (hp : p < 5) (speed : Nat) :
    let t := (s.linked p 1 speed).ethKick p
    t.on (EN_PORT_LINK p) = true ∧ t.g (EN_PORT_SPEED p) = speed % 4 ∧ t.g (EN_PORT_EN p) = s.g (EN_PORT_EN p) ∧
    RegsKeep s t (regIn [EN_PORT_LINK p, EN_TCUNCORR_COUNT]) ∧ t = { s with regs := t.regs, eth := t.eth, tx := t.tx } := by
  intro t
  obtain ⟨link, sp, en⟩ := s.linked_shows p 1 speed
  obtain ⟨rest, regs⟩ := (s.linked p 1 speed).ethKick_sends p
  have port {f : Fld} (h : f.reg = (EN_PORT_LINK p).reg) : t.g f = (s.linked p 1 speed).g f :=
    regs.g (by simp only [regIn_cons, not_regIn_nil, or_false, h, EN_PORT_LINK, EN_TCUNCORR_COUNT]; omega)
  refine ⟨?_, (port (f := EN_PORT_SPEED p) rfl).trans sp, (port (f := EN_PORT_EN p) rfl).trans en, ?_, ?_⟩
  · rw [State.on, port (f := EN_PORT_LINK p) rfl, link]
    rfl
  · exact ((s.linked_only p 1 speed).2.mono (regIn_mono (by simp))).trans (regs.mono (regIn_mono (by simp)))
  · rw [(s.linked_only p 1 speed).1] at rest
    exact rest

/-! ### Process data received (R273) -/

/-- The ports that are up. -/
def State.upPorts (s : State) : List Nat := [0, 1, 2, 3].filter s.portUp

/-- The port at which a datagram arrives: a free value among those that are up. -/
def State.datagramPort (s : State) : Option Nat := s.upPorts[(Config.freeWord s.free).toNat % s.upPorts.length]?

theorem State.datagramPort_none {s : State} (down : ∀ j : Fin 4, s.portUp j.val = false) : s.datagramPort = none := by
  have unnamedup : s.upPorts = [] := by
    refine List.filter_eq_nil_iff.2 fun q mem => ?_
    have hq : q < 4 := by simp at mem; omega
    simp [down ⟨q, hq⟩]
  rw [State.datagramPort, unnamedup, List.getElem?_nil]

theorem State.datagramPort_some {s : State} (up : ∃ j : Fin 4, s.portUp j.val = true) :
    ∃ j : Fin 4, s.portUp j.val = true ∧ s.datagramPort = some j.val := by
  obtain ⟨j, hj⟩ := up
  have member : j.val ∈ s.upPorts := List.mem_filter.2 ⟨by simp; omega, hj⟩
  have index := Nat.mod_lt (Config.freeWord s.free).toNat (List.length_pos_of_mem member)
  obtain ⟨mem, isUp⟩ := List.mem_filter.1 (List.getElem_mem index)
  exact ⟨⟨s.upPorts[_]'index, by simp at mem; omega⟩, isUp, List.getElem?_eq_getElem index⟩

/-- The subscriptions that name a publication. -/
def State.subscribers (s : State) (id : Nat) : List Nat := (List.range 128).filter (fun k => s.on (EN_SUBCFG_VALID k) && s.g (EN_SUBID_PUBID k) == id)

theorem State.subscribers_none {s : State} {id : Nat} (h : ∀ i : Fin 128, s.on (EN_SUBCFG_VALID i.val) = true → s.g (EN_SUBID_PUBID i.val) ≠ id) :
    s.subscribers id = [] := by
  refine List.filter_eq_nil_iff.2 fun k mem => ?_
  simpa using h ⟨k, List.mem_range.1 mem⟩

theorem State.subscribers_one {s : State} {id : Nat} {k : Fin 128}
    (h : ∀ i : Fin 128, s.on (EN_SUBCFG_VALID i.val) = true ∧ s.g (EN_SUBID_PUBID i.val) = id ↔ i = k) : s.subscribers id = [k.val] := by
  have only : s.subscribers id = (List.range 128).filter (· == k.val) := List.filter_congr fun i mem => by
    rw [Bool.eq_iff_iff, Bool.and_eq_true, beq_iff_eq, beq_iff_eq, h ⟨i, List.mem_range.1 mem⟩, Fin.ext_iff]
  rw [only, List.filter_beq, List.count_eq_one_of_mem List.nodup_range (List.mem_range.2 k.isLt)]
  rfl

theorem exec_datagramReceive_absorbed {s : State} (h : s.datagramPort = none ∨ s.on EN_CTRL_PDEN = false) (b : List Byte) (rx : Nat) :
    exec (.datagramReceive b rx) s = .next s := by
  change execDatagramReceive b rx s = _
  simp only [execDatagramReceive]
  split
  · rfl
  · next p port =>
    exact if_pos (by simpa using h.resolve_left (by rw [State.datagramPort, State.upPorts, port]; nofun))

theorem exec_datagramReceive_judged {s : State} {p : Nat} (port : s.datagramPort = some p) (on : s.on EN_CTRL_PDEN = true) (b : List Byte) (rx : Nat) :
    let u : State := { s with free := s.free + 1 }
    exec (.datagramReceive b rx) s = if (s.subscribers (beAt b 4 4)).isEmpty then .next (u.inc EN_PDERR_COUNT)
      else .next ((s.subscribers (beAt b 4 4)).foldl (fun t k => t.takeDatagram k b (s.rxStamp p rx)) u) := by
  rw [State.datagramPort, State.upPorts] at port
  change execDatagramReceive b rx s = _
  simp only [execDatagramReceive, port]
  exact if_neg (by simp [on])

/-- The header of a datagram that a subscription can take (R273). -/
def State.goodDatagram (s : State) (k : Nat) (b : List Byte) : Prop := beAt b 0 2 = 0x5A50 ∧ byteAt b 2 = 1 ∧ byteAt b 3 < 4 ∧ beAt b 22 2 = 0 ∧
  beAt b 20 2 = s.g (EN_SUBCFG_LEN k) ∧ b.length = 24 + beAt b 20 2

/-- Does a datagram come after the last one taken (R273)? -/
def State.laterDatagram (s : State) (k : Nat) (b : List Byte) : Prop :=
  ∀ q, (s.sub k).seq = some q → 1 ≤ (beAt b 8 4 + 2 ^ 32 - q) % 2 ^ 32 ∧ (beAt b 8 4 + 2 ^ 32 - q) % 2 ^ 32 < 2 ^ 31

/-- A subscription after a datagram that it takes. -/
def State.subTaken (s : State) (b : List Byte) (rx : Nat) : SubSt :=
  { seq := some (beAt b 8 4), stamp := extend s.now rx, commit := beAt b 16 4 * 2 ^ 32 + beAt b 12 4, data := b.drop 24 }

/-- The state after a datagram that a subscription takes. -/
def State.datagramTaken (s : State) (k : Nat) (b : List Byte) (rx : Nat) : State :=
  (({ s with eth := { s.eth with subs := tabSet (fun _ => {}) s.eth.subs k (s.subTaken b rx) } } : State).p (EN_SUBTS_NS k) rx).inc (EN_SUBCNT_COUNT k)

theorem State.takeDatagram_eq (s : State) (k : Nat) (b : List Byte) (rx : Nat) : (¬ s.goodDatagram k b → s.takeDatagram k b rx = s.inc EN_PDERR_COUNT) ∧
    (s.goodDatagram k b → ¬ s.laterDatagram k b → s.takeDatagram k b rx = s.inc EN_PDDUP_COUNT) ∧
    (s.goodDatagram k b → s.laterDatagram k b → s.takeDatagram k b rx = s.datagramTaken k b rx) := by
  have header : (beAt b 0 2 != 0x5A50 || byteAt b 2 != 1 || byteAt b 3 / 4 != 0 || beAt b 22 2 != 0 ||
      beAt b 20 2 != s.g (EN_SUBCFG_LEN k) || b.length != 24 + beAt b 20 2) = false ↔ s.goodDatagram k b := by
    simp [State.goodDatagram, and_assoc]
  have after : (match (s.sub k).seq with
      | some q => 1 ≤ (beAt b 8 4 + 2 ^ 32 - q) % 2 ^ 32 && (beAt b 8 4 + 2 ^ 32 - q) % 2 ^ 32 < 2 ^ 31
      | none => true) = true ↔ s.laterDatagram k b := by
    unfold State.laterDatagram
    cases (s.sub k).seq <;> simp
  refine ⟨fun bad => if_pos (Bool.eq_true_of_not_eq_false (mt header.1 bad)), fun good old => ?_, fun good new => ?_⟩
  · exact (if_neg (Bool.eq_false_iff.1 (header.2 good))).trans (if_pos (congrArg not (Bool.eq_false_iff.2 (mt after.1 old))))
  · exact (if_neg (Bool.eq_false_iff.1 (header.2 good))).trans (if_neg (Bool.eq_false_iff.1 (congrArg not (after.2 new))))

theorem State.datagramTaken_shows (s : State) (k : Nat) (b : List Byte) (rx : Nat) :
    let t := s.datagramTaken k b rx
    t.sub k = s.subTaken b rx ∧ t.g (EN_SUBTS_NS k) = rx % 2 ^ 32 ∧ t.g (EN_SUBCNT_COUNT k) = (s.g (EN_SUBCNT_COUNT k) + 1) % 2 ^ (EN_SUBCNT_COUNT k).w ∧
    RegsKeep s t (regIn [EN_SUBTS_NS k, EN_SUBCNT_COUNT k]) := by
  have regs (f : Fld) : (s.datagramTaken k b rx).g f = ((s.p (EN_SUBTS_NS k) rx).inc (EN_SUBCNT_COUNT k)).g f := rfl
  refine ⟨tabGet_tabSet_same (fun _ => ({} : SubSt)) s.eth.subs k (s.subTaken b rx), ?_, ?_, ?_⟩
  · rw [regs, State.inc, State.g_p_reg _ _ (by simp only [EN_SUBTS_NS, EN_SUBCNT_COUNT]; omega)]
    exact State.g_p_same _ _ _ (by decide : 0 + 32 ≤ 32)
  · rw [regs, State.g_inc_same _ (by decide : 0 + 32 ≤ 32), State.g_p_reg _ _ (by simp only [EN_SUBTS_NS, EN_SUBCNT_COUNT]; omega)]
  · exact (((OnlyRegs.refl s _).p (EN_SUBTS_NS k) rx (regIn_head _ rfl)).p (EN_SUBCNT_COUNT k) _ ⟨_, by simp, rfl⟩).2

end Sys2Proof.Machine

namespace Sys2Proof.Proofs
open Sys2Proof.Machine Sys2Proof.Safety

/-- Settles O41: where the switch sends a frame by its check, its port and its destination, what the address table, the queues and a port that sends
leave, and the subscription that takes a datagram. That a frame is ready at the time the command says, and at which of the ports that are up a datagram
arrives, is log 73's choice. -/
theorem switchAndProcessData : Obligations.SwitchAndProcessData := by
  intro s port f rx tx vid mac q pcp b o k p takes sent
  refine ⟨exec_switchFrameReceive_absorbed, fun on bad => ?dropped, fun ⟨on, good⟩ service => ?service, fun ⟨on, good⟩ consist low high => ?reserved,
    fun ⟨on, good⟩ consist other => ?forwards, fun up awake => State.toKeeper_of_up up awake f pcp vid, fun plain st => State.egress_plain plain s p q vid pcp st tx,
    fun i tr r ptp event mode => State.egress_event ptp event mode p q vid pcp r tx, fun i tr r add tagged g fix corrected => State.leaves_corrected fix corrected,
    ⟨fun room => ?learned, fun e held other => State.mem_learnMac p held other⟩, fun up => ⟨State.enqueue_full up, State.enqueue_room up⟩,
    ⟨_, rfl, rfl, mem_addressAgeing s vid mac⟩, ?down, ?m100, fun consist => ?g1,
    fun down => exec_datagramReceive_absorbed (.inl (State.datagramPort_none down)) b rx, fun off => exec_datagramReceive_absorbed (.inr off) b rx,
    fun on up => ?judged, ?taken⟩
  case dropped =>
    have unfit : ¬ goodFrame f := by
      rintro ⟨fcs, short, long⟩
      rcases bad with h | h | h
      · simp [fcs] at h
      · omega
      · omega
    exact ⟨_, exec_switchFrameReceive_drops on unfit, s.g_inc_same (by decide : 0 + 32 ≤ 32), OnlyRegs.of_p s _ (regIn_head _ rfl)⟩
  case service => exact exec_switchFrameReceive_service on good service
  case reserved => exact exec_switchFrameReceive_reserved on good consist low high
  case forwards =>
    intro stamp c a
    have class_eq : s.frameClass p f = c := by
      cases tag : f.tag with
      | none => simp only [c, State.frameClass, tag]
      | some x => simp only [c, State.frameClass, tag, beq_iff_eq]
    have base : a.macBase = s.macBase := s.macBase_learnMac _ _ _
    have forwards : exec (.switchFrameReceive port f rx tx) s = a.switched p f c stamp tx := by
      rw [exec_switchFrameReceive_forwards on good consist other, class_eq]
    clear_value a c stamp
    rw [forwards, ← base]
    exact ⟨State.switched_own p stamp tx, fun apart => ⟨fun e single known => State.switched_known p stamp tx apart single known,
      State.switched_flood p stamp tx apart⟩⟩
  case learned =>
    rw [State.learnMac_table_room room]
    exact ⟨List.mem_cons_self, room⟩
  case down =>
    obtain ⟨link, speed, -⟩ := s.linked_shows p 0 0
    refine ⟨_, rfl, ?_, speed, s.linked_only p 0 0⟩
    exact congrArg (· == 1) link
  case m100 => exact ⟨_, rfl, s.linked_ethKick port.isLt 1⟩
  case g1 =>
    obtain ⟨link, speed, -⟩ := s.linked_ethKick port.isLt 2
    refine ⟨(s.linked p 1 2).ethKick p, ?_, link, speed⟩
    have rate : (if p == 4 then 1 else 2) = 2 := if_neg (by simpa using consist.ne)
    exact congrArg (fun v => Host.Outcome.next ((s.linked p 1 v).ethKick p)) rate
  case judged =>
    obtain ⟨j, isUp, port⟩ := State.datagramPort_some up
    refine ⟨j, isUp, fun unnamed => ?_, fun one => ?_⟩
    · rw [exec_datagramReceive_judged port on, State.subscribers_none unnamed]
      rfl
    · rw [exec_datagramReceive_judged port on, State.subscribers_one one]
      rfl
  case taken =>
    obtain ⟨bad, old, new⟩ := s.takeDatagram_eq k.val b rx
    refine ⟨bad, old, fun good later => ?_⟩
    rw [new good later]
    exact s.datagramTaken_shows k.val b rx

end Sys2Proof.Proofs

/-! SUPPORT. The ring controllers (R206 to R262): what a ring's registers and its state read after each shared operation. -/

namespace Sys2Proof.Safety
open Sys2Proof.Machine

/-- A field outside the registers that an operation writes. -/
theorem RegsKeep.g_off {s t : State} {fs : List Fld} (h : RegsKeep s t (regIn fs)) {f : Fld} (off : ∀ x ∈ fs, f.reg ≠ x.reg) : t.g f = s.g f :=
  h.g fun ⟨x, mem, e⟩ => off x mem e

theorem RegsKeep.p {s t : State} {as : Nat → Prop} (h : RegsKeep s t as) (f : Fld) (v : Nat) (hf : as f.reg) : RegsKeep s (t.p f v) as :=
  h.trans (OnlyRegs.of_p t v hf).2

theorem RegsKeep.of_regs {s t u : State} {as : Nat → Prop} (h : RegsKeep s t as) (e : u.regs = t.regs) : RegsKeep s u as := fun a ha => by
  rw [e]; exact h a ha

theorem OnlyRegs.ring {s t : State} {as : Nat → Prop} (h : OnlyRegs s t as) (r : Nat) : t.ring r = s.ring r := by
  rw [h.1]; unfold State.ring; split <;> rfl

end Sys2Proof.Safety

namespace Sys2Proof.Machine
open Sys2Proof.Safety

/-! ### Reads of a field -/

/-- A field just set to a value that fits it. -/
theorem State.g_p_fits (s : State) {f : Fld} {v : Nat} (h : f.lo + f.w ≤ 32 ∧ v < 2 ^ f.w) : (s.p f v).g f = v :=
  (s.g_p_same f v h.1).trans (Nat.mod_eq_of_lt h.2)

/-- A one-bit field just set from a Bool. -/
theorem State.g_pb_same (s : State) {f : Fld} (b : Bool) (h : f.lo + f.w ≤ 32 ∧ f.w = 1) : (s.pb f b).g f = if b then 1 else 0 :=
  s.g_p_fits ⟨h.1, by rw [h.2]; cases b <;> decide⟩

theorem State.g_pb_off (s : State) {f f' : Fld} (b : Bool) (h : f'.reg ≠ f.reg ∨ f.lo + f.w ≤ 32 ∧ (f.lo + f.w ≤ f'.lo ∨ f'.lo + f'.w ≤ f.lo)) :
    (s.pb f b).g f' = s.g f' := s.g_p_off _ h

theorem State.g_inc_off (s : State) {f f' : Fld} (h : f'.reg ≠ f.reg) : (s.inc f).g f' = s.g f' := s.g_p_reg _ h

theorem State.mode_p (s : State) {f : Fld} (v : Nat) (h : LC_MODE_MODE.reg ≠ f.reg) : (s.p f v).mode = s.mode := s.g_p_reg v h

theorem State.tx_emit (s : State) (x : TxItem) : (s.emit x).tx = if s.mode = mDormant then s.tx else x :: s.tx := by
  by_cases h : s.mode = mDormant
  · rw [if_pos h]
    exact congrArg State.tx (if_pos (beq_iff_eq.2 h))
  · rw [if_neg h, State.emit_of_awake h]

@[simp] theorem State.mode_emit (s : State) (x : TxItem) : (s.emit x).mode = s.mode := s.g_emit x _

/-! ### A ring's own state -/

@[simp] theorem State.modRing_regs (s : State) (r : Nat) (f : RingSt → RingSt) : (s.modRing r f).regs = s.regs := by unfold State.modRing; split <;> rfl
@[simp] theorem State.modRing_tx (s : State) (r : Nat) (f : RingSt → RingSt) : (s.modRing r f).tx = s.tx := by unfold State.modRing; split <;> rfl
@[simp] theorem State.modRing_tu (s : State) (r : Nat) (f : RingSt → RingSt) : (s.modRing r f).tu = s.tu := by unfold State.modRing; split <;> rfl
@[simp] theorem State.modRing_free (s : State) (r : Nat) (f : RingSt → RingSt) : (s.modRing r f).free = s.free := by unfold State.modRing; split <;> rfl

@[simp] theorem State.g_modRing (s : State) (r : Nat) (h : RingSt → RingSt) (f : Fld) : (s.modRing r h).g f = s.g f :=
  State.g_of_regs (s.modRing_regs r h) f

@[simp] theorem State.mode_modRing (s : State) (r : Nat) (h : RingSt → RingSt) : (s.modRing r h).mode = s.mode := s.g_modRing r h _

@[simp] theorem State.ring_modRing_same (s : State) (r : Nat) (f : RingSt → RingSt) : (s.modRing r f).ring r = f (s.ring r) := by
  cases r <;> rfl

@[simp] theorem State.ring_p (s : State) (f : Fld) (v r : Nat) : (s.p f v).ring r = s.ring r := by unfold State.ring; split <;> rfl
@[simp] theorem State.ring_pb (s : State) (f : Fld) (b : Bool) (r : Nat) : (s.pb f b).ring r = s.ring r := s.ring_p f _ r
@[simp] theorem State.ring_inc (s : State) (f : Fld) (r : Nat) : (s.inc f).ring r = s.ring r := s.ring_p f _ r

@[simp] theorem State.ring_emit (s : State) (x : TxItem) (r : Nat) : (s.emit x).ring r = s.ring r := by
  unfold State.ring; split <;> simp

theorem SameBut.ring {s t : State} (h : SameBut s t) (r : Nat) : t.ring r = s.ring r := by
  unfold State.ring; split <;> [exact h.ring1; exact h.ring2]

@[simp] theorem RingSt.modCyc_transmitting (x : RingSt) (b c : Nat) (f : BCyc → BCyc) : (x.modCyc b c f).transmitting = x.transmitting := by
  unfold RingSt.modCyc; split_ifs <;> rfl

/-! ### Folds (R256, R257, R262) -/

theorem State.foldNotice_shows (s : State) (r : Ring) : (s.foldNotice r).g (BZ_FOLD_NOTICE r) = 1 ∧ (s.foldNotice r).g (BZ_POS_VALID r) = 0 ∧
    (s.foldNotice r).g (BZ_SYNCSTAT_HOLD r) = 1 := by
  simp (disch := decide +revert) [State.foldNotice, State.modCyc, State.g_p_off, State.g_p_fits]

theorem State.foldNotice_keep (s : State) (r : Nat) :
    RegsKeep s (s.foldNotice r) (regIn [BZ_FOLD_NOTICE r, BZ_POS_VALID r, BZ_SYNCSTAT_HOLD r]) := by
  refine RegsKeep.of_regs (t := ((s.p (BZ_FOLD_NOTICE r) 1).p (BZ_POS_VALID r) 0).p (BZ_SYNCSTAT_HOLD r) 1) ?_ (by simp [State.foldNotice, State.modCyc])
  exact ((((OnlyRegs.refl s _).p _ _ (regIn_head _ rfl)).p _ _ ⟨_, by simp, rfl⟩).p _ _ ⟨_, by simp, rfl⟩).2

theorem State.foldNotice_ring (s : State) (r : Nat) : ((s.foldNotice r).ring r).skipMean = true ∧ ((s.foldNotice r).ring r).held = 2 ∧
    ((s.foldNotice r).ring r).devs = [] ∧ ((s.foldNotice r).ring r).transmitting = (s.ring r).transmitting := by
  simp [State.foldNotice, State.modCyc]

@[simp] theorem State.foldNotice_tx (s : State) (r : Nat) : (s.foldNotice r).tx = s.tx := by simp [State.foldNotice, State.modCyc]

@[simp] theorem State.sendNotice_regs (s : State) (r kind : Nat) : (s.sendNotice r kind).regs = s.regs := by simp [State.sendNotice]

@[simp] theorem State.ring_sendNotice (s : State) (r kind k : Nat) : (s.sendNotice r kind).ring k = s.ring k := by simp [State.sendNotice]

theorem State.sendNotice_tx {s : State} (awake : s.mode ≠ mDormant) (r kind : Nat) :
    (s.sendNotice r kind).tx = .ringIdle r 1 kind 0 :: .ringIdle r 0 kind 0 :: s.tx := by
  simp [State.sendNotice, State.tx_emit, awake]

/-- Is the node folded at a port (R256)? -/
def State.foldedAt (s : State) (r : Nat) : RPort → Prop
  | .a => s.g (BZ_FOLD_STATE r) % 2 = 1
  | .b => s.g (BZ_FOLD_STATE r) / 2 % 2 = 1

/-- The node after a fold at a port, with its notices. -/
def State.fold (s : State) (r : Nat) (port : RPort) : State :=
  (((s.p (BZ_FOLD_STATE r) (s.g (BZ_FOLD_STATE r) + if port = .a then 1 else 2)).inc (BZ_FOLDS_COUNT r)).sendNotice r 1).foldNotice r

/-- A port that is folded already stays so. -/
theorem State.foldAt_folded {s : State} {r : Nat} {port : RPort} (h : s.foldedAt r port) : s.foldAt r port = s := by
  cases port <;> simp_all [State.foldAt, State.foldedAt]

theorem State.foldAt_open {s : State} {r : Nat} {port : RPort} (h : ¬ s.foldedAt r port) : s.foldAt r port = s.fold r port := by
  cases port <;> simp_all [State.foldAt, State.foldedAt, State.fold]

/-- The registers that a fold writes. -/
def foldFlds (r : Nat) : List Fld := [BZ_FOLD_STATE r, BZ_FOLDS_COUNT r, BZ_FOLD_NOTICE r, BZ_POS_VALID r, BZ_SYNCSTAT_HOLD r]

theorem State.fold_keep (s : State) (r : Nat) (port : RPort) : RegsKeep s (s.fold r port) (regIn (foldFlds r)) := by
  refine RegsKeep.trans (RegsKeep.of_regs ?_ (State.sendNotice_regs _ _ _)) ((State.foldNotice_keep _ r).mono (regIn_mono (by simp [foldFlds])))
  exact (((OnlyRegs.refl s _).p _ _ (regIn_head _ rfl)).p _ _ ⟨BZ_FOLDS_COUNT r, by simp, rfl⟩).2

theorem State.fold_ring (s : State) (r : Nat) (port : RPort) : ((s.fold r port).ring r).skipMean = true ∧ ((s.fold r port).ring r).held = 2 ∧
    ((s.fold r port).ring r).transmitting = (s.ring r).transmitting := by
  obtain ⟨skip, held, -, sends⟩ := (((s.p (BZ_FOLD_STATE r) (s.g (BZ_FOLD_STATE r) + if port = .a then 1 else 2)).inc
    (BZ_FOLDS_COUNT r)).sendNotice r 1).foldNotice_ring r
  exact ⟨skip, held, sends.trans (by simp)⟩

theorem State.fold_tx {s : State} (awake : s.mode ≠ mDormant) (r : Ring) (port : RPort) :
    (s.fold r port).tx = .ringIdle r 1 1 0 :: .ringIdle r 0 1 0 :: s.tx := by
  rw [State.fold, State.foldNotice_tx, State.sendNotice_tx]
  · rfl
  · simpa (disch := decide +revert) only [State.inc, State.mode_p] using awake

theorem State.fold_shows (s : State) (r : Ring) (port : RPort) :
    (s.fold r port).g (BZ_FOLD_STATE r) = (s.g (BZ_FOLD_STATE r) + if port = .a then 1 else 2) % 4 ∧ (s.fold r port).g (BZ_FOLD_NOTICE r) = 1 ∧
    (s.fold r port).g (BZ_FOLDS_COUNT r) = (s.g (BZ_FOLDS_COUNT r) + 1) % 2 ^ 32 ∧ (s.fold r port).g (BZ_POS_VALID r) = 0 := by
  simp (disch := decide +revert) only [State.fold, State.foldNotice, State.modCyc, State.sendNotice, State.inc, State.g_modRing, State.g_emit,
    State.g_p_off, State.g_p_fits, State.g_p_same]
  trivial

/-- The ports' fold bits have room for a fold at a port that is not folded. -/
theorem State.fold_fits {s : State} {r : Nat} {port : RPort} (h : ¬ s.foldedAt r port) : s.g (BZ_FOLD_STATE r) + (if port = .a then 1 else 2) < 4 := by
  have : s.g (BZ_FOLD_STATE r) < 4 := s.g_lt _
  cases port <;> simp only [State.foldedAt] at h <;> simp <;> omega

theorem State.foldAt_keep (s : State) (r : Nat) (port : RPort) : RegsKeep s (s.foldAt r port) (regIn (foldFlds r)) := by
  by_cases h : s.foldedAt r port
  · rw [State.foldAt_folded h]
    exact RegsKeep.refl s _
  · rw [State.foldAt_open h]
    exact s.fold_keep r port

theorem State.foldAt_transmitting (s : State) (r : Nat) (port : RPort) : ((s.foldAt r port).ring r).transmitting = (s.ring r).transmitting := by
  by_cases h : s.foldedAt r port
  · rw [State.foldAt_folded h]
  · rw [State.foldAt_open h]
    exact (s.fold_ring r port).2.2

/-! ### Breaks and healed segments (R256, R262) -/

/-- The field that shows a break at a port. -/
def losFld (r : Nat) (port : RPort) : Fld := if port = .a then BZ_SEGA_LOS r else BZ_SEGB_LOS r

/-- Is the segment at the other port ready for the unfold (R262)? -/
def RingSt.otherReady (x : RingSt) : RPort → Bool
  | .a => x.readyB
  | .b => x.readyA

/-- The node after a break shows at a port, before it folds there. -/
def State.broken (s : State) (r : Nat) (port : RPort) : State :=
  ((s.p (losFld r port) 1).modRing r (fun x => if port = .a then { x with readyA := false } else { x with readyB := false })).pb
    (BZ_FOLD_READY r) ((s.ring r).otherReady port)

theorem exec_ringBreak (s : State) (r : Ring) (port : RPort) : exec (.ringBreak r port) s = .next ((s.broken r port).foldAt r port) := by
  cases port
  · show Host.Outcome.next _ = _
    simp [State.broken, losFld, RingSt.otherReady]
  · show Host.Outcome.next _ = _
    simp [State.broken, losFld, RingSt.otherReady]

theorem State.broken_shows (s : State) (r : Ring) (port : RPort) :
    (s.broken r port).g (losFld r port) = 1 ∧ (s.broken r port).g (BZ_FOLD_STATE r) = s.g (BZ_FOLD_STATE r) ∧
    (s.broken r port).g (BZ_FOLD_READY r) = if (s.ring r).otherReady port = true then 1 else 0 := by
  cases port <;> simp (disch := decide +revert) only [State.broken, losFld, State.g_pb_off, State.g_pb_same, State.g_modRing, State.g_p_off, State.g_p_fits] <;>
    trivial

theorem State.broken_keep (s : State) (r : Nat) (port : RPort) :
    RegsKeep s (s.broken r port) (regIn [BZ_SEGA_LOS r, BZ_SEGB_LOS r, BZ_FOLD_READY r]) := by
  refine RegsKeep.p (RegsKeep.of_regs (OnlyRegs.of_p s 1 ?_).2 (State.modRing_regs _ _ _)) _ _ ⟨_, by simp, rfl⟩
  cases port
  · exact regIn_head _ rfl
  · exact ⟨BZ_SEGB_LOS r, by simp, rfl⟩

theorem State.foldedAt_broken (s : State) (r : Ring) (port : RPort) : (s.broken r port).foldedAt r port ↔ s.foldedAt r port := by
  have := (s.broken_shows r port).2.1
  cases port <;> simp only [State.foldedAt, this]

/-- A healed segment is ready for the unfold. -/
def State.healed (s : State) (r : Nat) (port : RPort) : State :=
  (((s.p (BZ_FOLD_READY r) 1).p (losFld r port) 0).modRing r
    (fun x => if port = .a then { x with readyA := true } else { x with readyB := true })).emit (.ringIdle r (if port = .a then 0 else 1) 3 0)

theorem exec_unfoldReady_folded {s : State} {r : Ring} {port : RPort} (h : s.foldedAt r port) : exec (.unfoldReady r port) s = .next (s.healed r port) := by
  cases port
  · exact if_pos (beq_iff_eq.2 h)
  · exact if_pos (beq_iff_eq.2 h)

theorem exec_unfoldReady_open {s : State} {r : Ring} {port : RPort} (h : ¬ s.foldedAt r port) : exec (.unfoldReady r port) s = .next s := by
  cases port
  · exact if_neg (mt beq_iff_eq.1 h)
  · exact if_neg (mt beq_iff_eq.1 h)

theorem State.healed_shows (s : State) (r : Ring) (port : RPort) :
    (s.healed r port).g (BZ_FOLD_READY r) = 1 ∧ (s.healed r port).g (losFld r port) = 0 ∧
    (if port = .a then ((s.healed r port).ring r).readyA else ((s.healed r port).ring r).readyB) = true := by
  cases port <;> simp (disch := decide +revert) only [State.healed, losFld, State.g_emit, State.g_modRing, State.g_p_off, State.g_p_fits, State.ring_emit,
    State.ring_modRing_same] <;> trivial

theorem State.healed_keep (s : State) (r : Nat) (port : RPort) :
    RegsKeep s (s.healed r port) (regIn [BZ_FOLD_READY r, BZ_SEGA_LOS r, BZ_SEGB_LOS r]) := by
  refine RegsKeep.of_regs (t := (s.p (BZ_FOLD_READY r) 1).p (losFld r port) 0) ?_ (by rw [State.healed, State.emit_regs, State.modRing_regs])
  refine ((OnlyRegs.of_p s 1 (regIn_head _ rfl)).p _ _ ?_).2
  cases port
  · exact ⟨BZ_SEGA_LOS r, by simp, rfl⟩
  · exact ⟨BZ_SEGB_LOS r, by simp, rfl⟩

theorem State.healed_tx {s : State} (awake : s.mode ≠ mDormant) (r : Ring) (port : RPort) :
    (s.healed r port).tx = .ringIdle r (if port = .a then 0 else 1) 3 0 :: s.tx := by
  rw [State.healed, State.tx_emit, State.mode_modRing, State.mode_p _ _ (by cases port <;> decide +revert), State.mode_p _ _ (by decide +revert), if_neg awake]
  simp

/-- The node sends a notice on along the path of the Mark, once (R257). -/
def State.passNotice (s : State) (r : Nat) (port : RPort) (kind : Nat) : State :=
  if s.on (BZ_FOLD_NOTICE r) then s
  else if port == s.rxPort r then s.emit (.ringIdle r (s.outPort r) kind 0)
  else if port == .a && s.g (BZ_FOLD_STATE r) == 0 then s.emit (.ringIdle r 1 kind 0) else s

theorem exec_foldNoticeReceive (s : State) (r : Ring) (port : RPort) (unfold : Bool) :
    exec (.foldNoticeReceive r port unfold) s = .next ((s.passNotice r port (if unfold then 2 else 1)).foldNotice r) := rfl

@[simp] theorem State.passNotice_regs (s : State) (r : Nat) (port : RPort) (kind : Nat) : (s.passNotice r port kind).regs = s.regs := by
  unfold State.passNotice; split_ifs <;> simp

theorem ringBreak_folds {s : State} {r : Ring} {port : RPort} (whole : ¬ s.foldedAt r port) :
    Gives (.ringBreak r port) s (fun t => t.g (BZ_FOLD_STATE r) = s.g (BZ_FOLD_STATE r) + (if port = .a then 1 else 2) ∧ t.g (BZ_FOLD_NOTICE r) = 1 ∧
      t.g (BZ_FOLDS_COUNT r) = (s.g (BZ_FOLDS_COUNT r) + 1) % 2 ^ 32 ∧ t.g (losFld r port) = 1 ∧ t.g (BZ_POS_VALID r) = 0 ∧
      (t.ring r).skipMean = true ∧ (t.ring r).held = 2 ∧ (s.mode ≠ mDormant → t.tx = .ringIdle r 1 1 0 :: .ringIdle r 0 1 0 :: s.tx)) := by
  obtain ⟨los, state, -⟩ := s.broken_shows r port
  obtain ⟨folded, notice, count, pos⟩ := (s.broken r port).fold_shows r port
  obtain ⟨skip, held, -⟩ := (s.broken r port).fold_ring r port
  have kept := s.broken_keep r port
  have whole' : ¬ (s.broken r port).foldedAt r port := mt (s.foldedAt_broken r port).1 whole
  refine ⟨_, (exec_ringBreak s r port).trans (by rw [State.foldAt_open whole']), ?_, notice, ?_, ?_, pos, skip, held, fun awake => ?_⟩
  · rw [folded, state, Nat.mod_eq_of_lt (State.fold_fits whole)]
  · rw [count, RegsKeep.g_off kept (by clear * -; decide +revert)]
  · exact (RegsKeep.g_off (State.fold_keep _ r port) (by cases port <;> clear * - <;> decide +revert)).trans los
  · rw [State.fold_tx (by rwa [State.mode, RegsKeep.g_off kept (by clear * -; decide +revert)])]
    simp [State.broken]

theorem ringBreak_again {s : State} {r : Ring} {port : RPort} (folded : s.foldedAt r port) :
    Gives (.ringBreak r port) s (fun t => t.g (losFld r port) = 1 ∧ t.g (BZ_FOLD_STATE r) = s.g (BZ_FOLD_STATE r) ∧
      t.g (BZ_FOLD_READY r) = (if (s.ring r).otherReady port = true then 1 else 0) ∧ t.tx = s.tx ∧
      RegsKeep s t (regIn [BZ_SEGA_LOS r, BZ_SEGB_LOS r, BZ_FOLD_READY r])) := by
  obtain ⟨los, state, ready⟩ := s.broken_shows r port
  have folded' := (s.foldedAt_broken r port).2 folded
  exact ⟨_, (exec_ringBreak s r port).trans (by rw [State.foldAt_folded folded']), los, state, ready, by simp [State.broken], s.broken_keep r port⟩

theorem unfoldReady_healed {s : State} {r : Ring} {port : RPort} (folded : s.foldedAt r port) :
    Gives (.unfoldReady r port) s (fun t => t.g (BZ_FOLD_READY r) = 1 ∧ t.g (losFld r port) = 0 ∧
      (if port = .a then (t.ring r).readyA else (t.ring r).readyB) = true ∧
      (s.mode ≠ mDormant → t.tx = .ringIdle r (if port = .a then 0 else 1) 3 0 :: s.tx) ∧
      RegsKeep s t (regIn [BZ_FOLD_READY r, BZ_SEGA_LOS r, BZ_SEGB_LOS r])) := by
  obtain ⟨shown, los, ready⟩ := s.healed_shows r port
  exact ⟨_, exec_unfoldReady_folded folded, shown, los, ready, fun awake => State.healed_tx awake r port, s.healed_keep r port⟩

theorem foldNoticeReceive_taken (s : State) (r : Ring) (port : RPort) (unfold : Bool) :
    Gives (.foldNoticeReceive r port unfold) s (fun t => t.g (BZ_FOLD_NOTICE r) = 1 ∧ t.g (BZ_POS_VALID r) = 0 ∧ t.g (BZ_SYNCSTAT_HOLD r) = 1 ∧
      (t.ring r).skipMean = true ∧ (t.ring r).held = 2 ∧ (t.ring r).devs = [] ∧ (s.on (BZ_FOLD_NOTICE r) = true → t.tx = s.tx) ∧
      (s.on (BZ_FOLD_NOTICE r) = false → port = s.rxPort r → s.mode ≠ mDormant →
        t.tx = .ringIdle r (s.outPort r) (if unfold then 2 else 1) 0 :: s.tx) ∧
      RegsKeep s t (regIn [BZ_FOLD_NOTICE r, BZ_POS_VALID r, BZ_SYNCSTAT_HOLD r])) := by
  generalize passed : s.passNotice r port (if unfold then 2 else 1) = u
  have regs : u.regs = s.regs := passed ▸ s.passNotice_regs r port _
  obtain ⟨notice, pos, hold⟩ := u.foldNotice_shows r
  obtain ⟨skip, held, devs, -⟩ := u.foldNotice_ring r
  refine ⟨_, (exec_foldNoticeReceive s r port unfold).trans (by rw [passed]), notice, pos, hold, skip, held, devs, fun known => ?_,
    fun new plane awake => ?_, (RegsKeep.of_regs (RegsKeep.refl s _) regs).trans (u.foldNotice_keep r)⟩
  · rw [State.foldNotice_tx, ← passed, State.passNotice, if_pos known]
  · rw [State.foldNotice_tx, ← passed, State.passNotice, if_neg (Bool.eq_false_iff.1 new), if_pos (beq_iff_eq.2 plane), State.tx_emit, if_neg awake]

/-! ### Enabling (R226, R227, R245) -/

/-- The registers that show why a schedule is refused (R227). -/
def State.schedRefused (s : State) (r rule e : Nat) : State := ((s.p (BZ_STAT_SCHERR r) 1).p (BZ_SCHERR_RULE r) rule).p (BZ_SCHERR_ENTRY r) e

theorem State.schedRefused_shows (s : State) (r : Ring) (rule e : Nat) : (s.schedRefused r rule e).g (BZ_CTRL_EN r) = s.g (BZ_CTRL_EN r) ∧
    (s.schedRefused r rule e).g (BZ_STAT_SCHERR r) = 1 ∧ (s.schedRefused r rule e).g (BZ_SCHERR_RULE r) = rule % 16 ∧
    (s.schedRefused r rule e).g (BZ_SCHERR_ENTRY r) = e % 4096 := by
  simp (disch := decide +revert) only [State.schedRefused, State.g_p_off, State.g_p_same]
  exact ⟨trivial, rfl, rfl, rfl⟩

theorem State.schedRefused_only (s : State) (r rule e : Nat) : OnlyRegs s (s.schedRefused r rule e) (regIn [BZ_STAT_SCHERR r, BZ_SCHERR_RULE r]) :=
  ((OnlyRegs.of_p s _ (regIn_head _ rfl)).p _ _ ⟨_, by simp, rfl⟩).p _ _ ⟨BZ_SCHERR_RULE r, by simp, rfl⟩

theorem State.enableRing_refuses {s : State} {r : Ring} (off : s.on (BZ_CTRL_EN r) = false) (inUse : (s.ring r).off = false) {rule e : Nat}
    (fails : schedCheck (s.g (BZ_CTRL_NODES r)) (s.on (BZ_CTRL_MODE r)) (s.g (BZ_NENT_COUNT r)) (s.sched r) = some (rule, e)) :
    (s.enableRing r).on (BZ_CTRL_EN r) = false ∧ (s.enableRing r).g (BZ_STAT_SCHERR r) = 1 ∧ (s.enableRing r).g (BZ_SCHERR_RULE r) = rule % 16 ∧
    (s.enableRing r).g (BZ_SCHERR_ENTRY r) = e % 4096 ∧ OnlyRecords s (s.enableRing r) (regIn [BZ_STAT_SCHERR r, BZ_SCHERR_RULE r]) := by
  have refused : s.enableRing r = (s.schedRefused r rule e).notice (0x18 + r) 0x0004 (r + 1) ((s.schedRefused r rule e).word (BZ_SCHERR_RULE r)) := by
    unfold State.enableRing
    rw [if_neg (by simp [off, inUse])]
    dsimp only
    rw [fails]
    rfl
  have noted := (s.schedRefused r rule e).notice_same (0x18 + r) 0x0004 (r + 1) ((s.schedRefused r rule e).word (BZ_SCHERR_RULE r)) (by omega)
  have kept (f : Fld) (hf : 0x50010000 ≤ f.reg) := noted.g f (by unfold recPage; omega)
  obtain ⟨en, err, inRule, inEntry⟩ := s.schedRefused_shows r rule e
  rw [refused, State.on, kept _ (Nat.le_add_right_of_le (Nat.le_add_right _ _)), kept _ ?_, kept _ ?_, kept _ ?_, en]
  · exact ⟨off, err, inRule, inEntry, (s.schedRefused_only r rule e).record noted⟩
  all_goals simp [BZ_SCHERR_ENTRY, BZ_SCHERR_RULE, BZ_STAT_SCHERR]; omega

/-- A break that a port shows already folds it as the controller starts. -/
def State.foldBroken (s : State) (r : Nat) (port : RPort) : State := if s.on (losFld r port) then s.foldAt r port else s

theorem State.foldBroken_keep (s : State) (r : Nat) (port : RPort) : RegsKeep s (s.foldBroken r port) (regIn (foldFlds r)) := by
  unfold State.foldBroken
  split
  · exact s.foldAt_keep r port
  · exact RegsKeep.refl s _

theorem State.foldBroken_transmitting (s : State) (r : Nat) (port : RPort) :
    ((s.foldBroken r port).ring r).transmitting = (s.ring r).transmitting := by
  unfold State.foldBroken
  split
  · exact s.foldAt_transmitting r port
  · rfl

/-- The registers of a controller that starts to listen. -/
def State.listening (s : State) (r id : Nat) : State := (((s.p (BZ_CTRL_EN r) 1).p (BZ_SCHEDID_ID r) id).p (BZ_STAT_STATE r) 1).p (BZ_JOIN_PHASE r) 1

theorem State.listening_shows (s : State) (r : Ring) {id : Nat} (fits : id < 2 ^ 16) : (s.listening r id).g (BZ_CTRL_EN r) = 1 ∧
    (s.listening r id).g (BZ_STAT_STATE r) = 1 ∧ (s.listening r id).g (BZ_JOIN_PHASE r) = 1 ∧ (s.listening r id).g (BZ_SCHEDID_ID r) = id := by
  simp (disch := decide +revert) only [State.listening, State.g_p_off, State.g_p_same]
  exact ⟨rfl, rfl, rfl, Nat.mod_eq_of_lt fits⟩

theorem State.enableRing_started {s : State} {r : Ring} (off : s.on (BZ_CTRL_EN r) = false) (inUse : (s.ring r).off = false)
    (passes : schedCheck (s.g (BZ_CTRL_NODES r)) (s.on (BZ_CTRL_MODE r)) (s.g (BZ_NENT_COUNT r)) (s.sched r) = none) : ∃ h : RingSt → RingSt, (∀ x, (h x).transmitting = false) ∧
    s.enableRing r = (((s.listening r (schedId (s.g (BZ_NENT_COUNT r)) (s.g (BZ_CTRL_NODES r)) (s.g (BZ_CTRL_MODE r)) (s.schedWords r))).modRing r
      h).foldBroken r .a).foldBroken r .b := by
  unfold State.enableRing
  rw [if_neg (by simp [off, inUse])]
  dsimp only
  rw [passes]
  exact ⟨_, fun _ => rfl, rfl⟩

theorem schedId_lt (nent nodes mode : Nat) (words : List (Word × Word)) : schedId nent nodes mode words < 2 ^ 16 := Nat.mod_lt _ (by decide)

theorem State.enableRing_shows {s : State} {r : Ring} (off : s.on (BZ_CTRL_EN r) = false) (inUse : (s.ring r).off = false)
    (passes : schedCheck (s.g (BZ_CTRL_NODES r)) (s.on (BZ_CTRL_MODE r)) (s.g (BZ_NENT_COUNT r)) (s.sched r) = none) :
    (s.enableRing r).on (BZ_CTRL_EN r) = true ∧ (s.enableRing r).g (BZ_STAT_STATE r) = 1 ∧ (s.enableRing r).g (BZ_JOIN_PHASE r) = 1 ∧
    (s.enableRing r).g (BZ_SCHEDID_ID r) = schedId (s.g (BZ_NENT_COUNT r)) (s.g (BZ_CTRL_NODES r)) (s.g (BZ_CTRL_MODE r)) (s.schedWords r) ∧
    ((s.enableRing r).ring r).transmitting = false := by
  obtain ⟨h, silent, started⟩ := State.enableRing_started off inUse passes
  rw [started]
  generalize same : schedId (s.g (BZ_NENT_COUNT r)) (s.g (BZ_CTRL_NODES r)) (s.g (BZ_CTRL_MODE r)) (s.schedWords r) = id
  have kept (f : Fld) (apart : ∀ x ∈ foldFlds r, f.reg ≠ x.reg) : ((((s.listening r id).modRing r h).foldBroken r .a).foldBroken r .b).g f =
      (s.listening r id).g f :=
    (RegsKeep.g_off (State.foldBroken_keep _ r .b) apart).trans ((RegsKeep.g_off (State.foldBroken_keep _ r .a) apart).trans (State.g_modRing _ _ _ _))
  obtain ⟨en, state, phase, sched⟩ := s.listening_shows r (same ▸ schedId_lt _ _ _ _)
  refine ⟨?_, (kept _ ?_).trans state, (kept _ ?_).trans phase, (kept _ ?_).trans sched, ?_⟩
  · rw [State.on, kept _ (by clear * -; decide +revert), en]
    rfl
  iterate 3 clear * -; decide +revert
  · rw [State.foldBroken_transmitting, State.foldBroken_transmitting, State.ring_modRing_same, silent]

/-! ### Leaving the ring (R206, R229, R246, R251) -/

theorem State.disableRing_shows (s : State) (r : Ring) : (s.disableRing r).g (BZ_CTRL_EN r) = 0 ∧ ((s.disableRing r).ring r).transmitting = false := by
  simp (disch := decide +revert) only [State.disableRing, State.g_p_off, State.g_p_fits, State.g_modRing, State.ring_p, State.ring_modRing_same]
  exact ⟨trivial, trivial⟩

/-- What a controller that leaves the ring shows. -/
theorem State.ringSilent_shows (s : State) (r : Ring) {phase : Nat} (fits : phase < 2 ^ 3) : (s.ringSilent r phase).g (BZ_JOIN_PHASE r) = phase ∧
    (s.ringSilent r phase).g (BZ_STAT_STATE r) = 1 ∧ (s.ringSilent r phase).g (BZ_STAT_CLOSING r) = 0 ∧ (s.ringSilent r phase).g (BZ_CLOSE_NS r) = 0 ∧
    (s.ringSilent r phase).g (BZ_MARKLOST_COUNT r) = s.g (BZ_MARKLOST_COUNT r) := by
  simp (disch := decide +revert) only [State.ringSilent, State.g_p_off, State.g_p_same, State.g_modRing]
  exact ⟨Nat.mod_eq_of_lt fits, rfl, rfl, rfl, trivial⟩

theorem State.ringSilent_ring (s : State) (r phase : Nat) : (s.ringSilent r phase).ring r = { s.ring r with
    transmitting := false, cold := false, rank0Act := false, coldYield := false, dd := none, ownDs := [] } := by
  simp only [State.ringSilent, State.ring_p, State.ring_modRing_same]

/-- Two states agree on the rings: on their state and their registers. -/
def SameRings (s t : State) : Prop := (∀ r, t.ring r = s.ring r) ∧ ∀ f : Fld, 0x50010000 ≤ f.reg → t.g f = s.g f

theorem SameRings.refl (s : State) : SameRings s s := ⟨fun _ => rfl, fun _ _ => rfl⟩

theorem SameRings.trans {a b c : State} (h : SameRings a b) (k : SameRings b c) : SameRings a c :=
  ⟨fun r => (k.1 r).trans (h.1 r), fun f hf => (k.2 f hf).trans (h.2 f hf)⟩

theorem SameRings.p {s t : State} (h : SameRings s t) {f : Fld} (hf : f.reg < 0x50010000) (v : Nat) : SameRings s (t.p f v) :=
  ⟨fun r => (t.ring_p f v r).trans (h.1 r), fun f' hf' => (t.g_p_reg v (by omega)).trans (h.2 f' hf')⟩

theorem SameRings.record {s t u : State} (h : SameRings s t) (k : SameBut t u) : SameRings s u :=
  ⟨fun r => (k.ring r).trans (h.1 r), fun f hf => (k.g f (by unfold recPage; omega)).trans (h.2 f hf)⟩

theorem SameRings.ite {s a b : State} {p : Prop} [Decidable p] (ha : SameRings s a) (hb : SameRings s b) : SameRings s (if p then a else b) := by
  split <;> assumption

/-- A change of the synchronisation state leaves the rings alone. -/
theorem State.setSync_rings (s : State) (st : Nat) : SameRings s (s.setSync st) := by
  have shown : SameRings s ((s.p TU_STAT_SSTATE st).pb TU_STAT_SYNC (st == 2)) := ((SameRings.refl s).p (by decide) st).p (by decide) _
  have checked : SameRings s (if s.g TU_STAT_SSTATE == 2 then ((s.p TU_STAT_SSTATE st).pb TU_STAT_SYNC (st == 2)).failCheck 5
      else (s.p TU_STAT_SSTATE st).pb TU_STAT_SYNC (st == 2)) := by
    split
    · exact ⟨fun r => (show _ = State.ring _ r by unfold State.ring; split <;> rfl).trans (shown.1 r), shown.2⟩
    · exact shown
  unfold State.setSync
  dsimp only
  split
  · exact SameRings.refl s
  · split
    · exact checked.record (State.noticeD_same (SameBut.refl _) _ _ (by decide) _)
    · exact checked

theorem State.syncStep_rings (s : State) (x : Refs) (run : Bool) : SameRings s (s.syncStep x run) := by
  have counted {y : TuSt} : SameRings s { s with tu := y } := ⟨fun r => by unfold State.ring; split <;> rfl, fun _ _ => rfl⟩
  have changed {y : TuSt} (st : Nat) : SameRings s (({ s with tu := y } : State).setSync st) := counted.trans (State.setSync_rings _ st)
  unfold State.syncStep
  dsimp only
  split
  · exact (changed 1).ite counted
  · exact (changed 1).ite counted
  · exact (changed 4).ite ((changed 2).ite counted)
  · exact (changed 4).ite ((changed 1).ite ((changed 3).ite ((changed 1).ite counted)))
  · exact (changed 4).ite ((changed 2).ite counted)
  · exact counted

/-- The loss of a reference leaves the rings alone. -/
theorem State.afterLoss_rings (s before : State) : SameRings s (s.afterLoss before) := by
  unfold State.afterLoss
  split
  · exact State.syncStep_rings _ _ _
  · exact SameRings.refl s

/-- A node that lost the Marks listens from now on. -/
def State.listensAgain (s : State) (r : Nat) : State := s.modRing r (fun x => { x with lastActivity := s.tu.upNs, missed := 0 })

theorem exec_marksLost_joined {s : State} {r : Ring} (lost : 8 ≤ (s.ring r).missed) (joined : s.g (BZ_JOIN_PHASE r) = 4) :
    let t := ((s.ringSilent r 1).inc (BZ_MARKLOST_COUNT r)).listensAgain r
    exec (.marksLost r) s = .next ((t.notice (0x18 + r) 0x0002 (r + 1) (t.word (BZ_JOIN_PHASE r))).afterLoss s) :=
  (if_neg (Nat.not_lt.2 lost)).trans (if_pos (beq_iff_eq.2 joined))

theorem exec_marksLost_counting {s : State} {r : Ring} (lost : 8 ≤ (s.ring r).missed) (counting : s.g (BZ_JOIN_PHASE r) = 2) :
    exec (.marksLost r) s = .next ((s.ringSilent r 1).listensAgain r) :=
  (if_neg (Nat.not_lt.2 lost)).trans ((if_neg (by simp [counting])).trans (if_pos (beq_iff_eq.2 counting)))

theorem State.listensAgain_shows (s : State) (r : Nat) : (s.listensAgain r).regs = s.regs ∧
    ((s.listensAgain r).ring r).transmitting = (s.ring r).transmitting ∧ ((s.listensAgain r).ring r).missed = 0 := by
  simp [State.listensAgain]

theorem marksLost_joined {s : State} {r : Ring} (lost : 8 ≤ (s.ring r).missed) (joined : s.g (BZ_JOIN_PHASE r) = 4) :
    Gives (.marksLost r) s (fun t => t.g (BZ_JOIN_PHASE r) = 1 ∧ t.g (BZ_STAT_STATE r) = 1 ∧ t.g (BZ_STAT_CLOSING r) = 0 ∧
      t.g (BZ_MARKLOST_COUNT r) = (s.g (BZ_MARKLOST_COUNT r) + 1) % 2 ^ 32 ∧ (t.ring r).transmitting = false ∧ (t.ring r).missed = 0) := by
  refine ⟨_, exec_marksLost_joined lost joined, ?_⟩
  generalize same : ((s.ringSilent r 1).inc (BZ_MARKLOST_COUNT r)).listensAgain r = t
  have shown : t.g (BZ_JOIN_PHASE r) = 1 ∧ t.g (BZ_STAT_STATE r) = 1 ∧ t.g (BZ_STAT_CLOSING r) = 0 ∧
      t.g (BZ_MARKLOST_COUNT r) = (s.g (BZ_MARKLOST_COUNT r) + 1) % 2 ^ 32 ∧ (t.ring r).transmitting = false ∧ (t.ring r).missed = 0 := by
    obtain ⟨phase, state, closing, -, count⟩ := s.ringSilent_shows r (phase := 1) (by decide)
    obtain ⟨regs, sends, missed⟩ := ((s.ringSilent r 1).inc (BZ_MARKLOST_COUNT r)).listensAgain_shows r
    simp only [← same, State.g_of_regs regs, sends, missed, State.ring_inc, State.ringSilent_ring]
    refine ⟨(State.g_inc_off _ ?_).trans phase, (State.g_inc_off _ ?_).trans state, (State.g_inc_off _ ?_).trans closing,
      (State.g_inc_same _ ?_).trans (by rw [count]; rfl), trivial, trivial⟩
    all_goals clear * -; decide +revert
  have rings := (SameRings.refl t).record (t.notice_same (0x18 + r) 0x0002 (r + 1) (t.word (BZ_JOIN_PHASE r)) (by omega))
  obtain ⟨ring, regs⟩ := rings.trans (State.afterLoss_rings _ s)
  rw [ring, regs _ ?_, regs _ ?_, regs _ ?_, regs _ ?_]
  · exact shown
  all_goals simp [BZ_JOIN_PHASE, BZ_STAT_STATE, BZ_STAT_CLOSING, BZ_MARKLOST_COUNT]; omega

theorem marksLost_counting {s : State} {r : Ring} (lost : 8 ≤ (s.ring r).missed) (counting : s.g (BZ_JOIN_PHASE r) = 2) :
    Gives (.marksLost r) s (fun t => t.g (BZ_JOIN_PHASE r) = 1 ∧ t.g (BZ_MARKLOST_COUNT r) = s.g (BZ_MARKLOST_COUNT r) ∧
      (t.ring r).transmitting = false ∧ (t.ring r).missed = 0) := by
  obtain ⟨phase, -, -, -, count⟩ := s.ringSilent_shows r (phase := 1) (by decide)
  obtain ⟨regs, sends, missed⟩ := (s.ringSilent r 1).listensAgain_shows r
  refine ⟨_, exec_marksLost_counting lost counting, (State.g_of_regs regs _).trans phase, (State.g_of_regs regs _).trans count, ?_, missed⟩
  rw [sends, State.ringSilent_ring]

/-! ### A cold start (R246, R247) -/

/-- The node starts cold: it will step its time back and send its Marks from there. -/
def State.coldStarted (s : State) (r : Nat) : State :=
  (((s.askStep (-(((s.now + 1000) % 1000000 : Nat) : Int))).p (BZ_JOIN_PHASE r) 3).p (BZ_STAT_STATE r) 3).modRing r (fun x =>
    { x with cold := true, coldCount := 0, rank0Act := true, coldYield := false, transmitting := true
             ahead := {}, cur := {}, prev := {}, dd := none, ownDs := [], longD := 0, r0Seen := false })

theorem exec_listenSilenceExpiry_starts {s : State} {r : Ring} (listening : s.g (BZ_JOIN_PHASE r) = 1) (capable : s.on (BZ_CTRL_MCAP r) = true)
    (mode : s.mode = mSynchronising) (en : s.on (BZ_CTRL_EN r) = true) (silent : (s.ring r).lastActivity + (1000000 + s.nodeId r * 23000) ≤ s.tu.upNs) :
    exec (.listenSilenceExpiry r) s = .next (s.coldStarted r) :=
  if_pos (by simp only [listening, capable, mode, en, State.silence, silent]; rfl)

theorem State.coldStarted_shows (s : State) (r : Ring) : (s.coldStarted r).g (BZ_JOIN_PHASE r) = 3 ∧ (s.coldStarted r).g (BZ_STAT_STATE r) = 3 ∧
    ((s.coldStarted r).ring r).cold = true ∧ ((s.coldStarted r).ring r).rank0Act = true ∧ ((s.coldStarted r).ring r).transmitting = true ∧
    (s.coldStarted r).tu.stepPend = some (-(((s.now + 1000) % 1000000 : Nat) : Int)) := by
  simp (disch := decide +revert) only [State.coldStarted, State.g_modRing, State.g_p_off, State.g_p_fits, State.ring_modRing_same, State.modRing_tu,
    State.p_tu, State.askStep_tu]
  trivial

theorem State.coldStarted_keep (s : State) (r : Nat) :
    RegsKeep s (s.coldStarted r) (regIn [BZ_JOIN_PHASE r, BZ_STAT_STATE r, TU_STEP_STEP]) :=
  RegsKeep.of_regs (((OnlyRegs.of_p s _ ⟨TU_STEP_STEP, by simp, rfl⟩ : OnlyRegs s (s.p TU_STEP_STEP _) _).p _ _ (regIn_head _ rfl)).p _ _
    ⟨_, by simp, rfl⟩).2 (State.modRing_regs _ _ _)

/-! ### Segments (R231) -/

/-- The fields of a port's segment: its delay and whether that is valid. -/
def segDelayFld (r : Nat) : RPort → Fld
  | .a => BZ_SEGA_DELAY r
  | .b => BZ_SEGB_DELAY r

def segValidFld (r : Nat) : RPort → Fld
  | .a => BZ_SEGA_VALID r
  | .b => BZ_SEGB_VALID r

theorem delayProbe_answered (s : State) (r : Ring) (port : RPort) (v : Nat) : Gives (.delayProbe r port (some v)) s (fun t =>
    t.g (segDelayFld r port) = v % 2 ^ 16 ∧ t.g (segValidFld r port) = 1 ∧ OnlyRegs s t (regIn [segDelayFld r port])) := by
  refine ⟨(s.p (segDelayFld r port) v).p (segValidFld r port) 1, by cases port <;> rfl, ?_, ?_, (OnlyRegs.of_p s v (regIn_head _ rfl)).p _ _
    (regIn_head _ (by cases port <;> rfl))⟩
  · cases port <;> simp (disch := decide +revert) only [segDelayFld, segValidFld, State.g_p_off, State.g_p_same] <;> rfl
  · cases port <;> exact State.g_p_fits _ (by decide +revert)

theorem delayProbe_unanswered (s : State) (r : Ring) (port : RPort) : Gives (.delayProbe r port none) s (fun t =>
    t.g (segDelayFld r port) = s.g (segDelayFld r port) ∧ t.g (segValidFld r port) = 0 ∧ OnlyRegs s t (regIn [segDelayFld r port])) := by
  refine ⟨s.p (segValidFld r port) 0, by cases port <;> rfl, ?_, ?_, OnlyRegs.of_p s _ (regIn_head _ (by cases port <;> rfl))⟩
  · cases port <;> exact State.g_p_off _ _ (by decide +revert)
  · cases port <;> exact State.g_p_fits _ (by decide +revert)

/-! ### Positions (R229, R232, R233) -/

/-- The Mark delay that a ring's register shows, d or D (R229). -/
def State.shownDelay (s : State) (r : Nat) : Nat := if s.isSender r then (s.ring r).dd.getD (s.ring r).d else (s.ring r).d

/-- The master's position, its D once that is known (R233). -/
def State.masterPos (s : State) (r : Nat) (dd : Option Nat) : State :=
  if s.isMaster r then match dd with
    | some d => (s.p (BZ_POS_NS r) d).p (BZ_POS_VALID r) 1
    | none => s
  else s

theorem State.showDelay_eq (s : State) (r : Nat) :
    let t := (s.p (BZ_MDELAY_NS r) (s.shownDelay r)).masterPos r (s.ring r).dd
    s.showDelay r = t.p (BZ_MOFF_NS r) (if t.isMaster r then 0 else u32 ((s.ring r).d - t.g (BZ_POS_NS r))) := rfl

theorem State.masterPos_other {s : State} {r : Nat} (other : s.isMaster r = false) (dd : Option Nat) : s.masterPos r dd = s := if_neg (by simp [other])

theorem State.masterPos_keep (s : State) (r : Nat) (dd : Option Nat) : OnlyRegs s (s.masterPos r dd) (regIn [BZ_POS_NS r]) := by
  unfold State.masterPos
  refine OnlyRegs.ite ?_ (OnlyRegs.refl s _)
  cases dd with
  | none => exact OnlyRegs.refl s _
  | some d => exact ((OnlyRegs.refl s _).p _ _ (regIn_head _ rfl)).p _ _ (regIn_head _ rfl)

theorem State.showDelay_only (s : State) (r : Nat) : OnlyRegs s (s.showDelay r) (regIn [BZ_POS_NS r, BZ_MOFF_NS r, BZ_MDELAY_NS r]) := by
  rw [State.showDelay_eq]
  exact ((OnlyRegs.of_p s _ ⟨_, by simp, rfl⟩).trans ((State.masterPos_keep _ r _).mono (regIn_mono (by simp)))).p _ _ ⟨_, by simp, rfl⟩

/-- On a node that is no master only the delay and the offset change. -/
theorem State.showDelay_other {s : State} {r : Ring} (other : s.isMaster r = false) :
    s.showDelay r = (s.p (BZ_MDELAY_NS r) (s.shownDelay r)).p (BZ_MOFF_NS r) (u32 ((s.ring r).d - s.g (BZ_POS_NS r))) := by
  have off : (s.p (BZ_MDELAY_NS r) (s.shownDelay r)).isMaster r = false := by
    rwa [State.isMaster, State.g_p_off _ _ (by clear * -; decide +revert)]
  rw [State.showDelay_eq, State.masterPos_other off, off, State.g_p_off _ _ (by clear * -; decide +revert)]
  rfl

theorem State.showDelay_other_keep {s : State} {r : Ring} (other : s.isMaster r = false) :
    RegsKeep s (s.showDelay r) (regIn [BZ_MOFF_NS r, BZ_MDELAY_NS r]) := by
  rw [State.showDelay_other other]
  exact ((OnlyRegs.of_p s _ ⟨_, by simp, rfl⟩).p _ _ (regIn_head _ rfl)).2

theorem State.showDelay_other_offset {s : State} {r : Ring} (other : s.isMaster r = false) :
    (s.showDelay r).g (BZ_MOFF_NS r) = u32 ((s.ring r).d - s.g (BZ_POS_NS r)) ∧ (s.showDelay r).g (BZ_POS_NS r) = s.g (BZ_POS_NS r) ∧
    (s.showDelay r).g (BZ_POS_VALID r) = s.g (BZ_POS_VALID r) := by
  refine ⟨?_, RegsKeep.g_off (State.showDelay_other_keep other) (by clear * -; decide +revert),
    RegsKeep.g_off (State.showDelay_other_keep other) (by clear * -; decide +revert)⟩
  rw [State.showDelay_other other]
  exact State.g_p_fits _ ⟨by clear * -; decide +revert, u32_lt _⟩

/-- A position word as the node takes it. -/
def State.posTaken (s : State) (r v : Nat) : State := (s.p (BZ_POS_NS r) v).pb (BZ_POS_VALID r) (!s.on (BZ_FOLD_NOTICE r))

theorem State.posTaken_shows (s : State) (r : Ring) (v : Nat) : (s.posTaken r v).g (BZ_POS_NS r) = v % 2 ^ 31 ∧
    (s.posTaken r v).g (BZ_POS_VALID r) = (if s.on (BZ_FOLD_NOTICE r) = true then 0 else 1) ∧ (s.posTaken r v).isMaster r = s.isMaster r ∧
    (s.posTaken r v).isSender r = s.isSender r := by
  simp (disch := decide +revert) only [State.posTaken, State.isMaster, State.isSender, State.g_pb_off, State.g_pb_same, State.g_p_off, State.g_p_same]
  cases s.on (BZ_FOLD_NOTICE r) <;> exact ⟨rfl, rfl, trivial, trivial⟩

theorem State.posTaken_only (s : State) (r v : Nat) : OnlyRegs s (s.posTaken r v) (regIn [BZ_POS_NS r]) :=
  (OnlyRegs.of_p s v (regIn_head _ rfl)).pb _ _ (regIn_head _ rfl)

/-- The node shows its offset, and one that sent no Mark sends its position on (R232). -/
def State.posSent (s : State) (r : Nat) : State :=
  if s.isSender r then s.showDelay r else (s.showDelay r).sendPos r (s.outPort r) (s.g (BZ_POS_NS r)) 320

theorem exec_positionWordReceive_word {s : State} {r : Ring} {port : RPort} (plane : port = s.rxPort r) (other : s.isMaster r = false) (v : Nat) :
    exec (.positionWordReceive r port (some v)) s = .next ((s.posTaken r v).posSent r) :=
  (if_pos (beq_iff_eq.2 plane)).trans (by simp only [State.takePos, other]; rfl)

theorem exec_positionWordReceive_none {s : State} {r : Ring} {port : RPort} (plane : port = s.rxPort r) :
    exec (.positionWordReceive r port none) s = .next (s.posSent r) := if_pos (beq_iff_eq.2 plane)

theorem State.posSent_regs (s : State) (r : Nat) : (s.posSent r).regs = (s.showDelay r).regs := by
  unfold State.posSent
  split
  · rfl
  · exact State.emit_regs _ _

theorem State.posSent_tx {s : State} {r : Ring} (other : s.isSender r = false) (awake : s.mode ≠ mDormant) :
    (s.posSent r).tx = .ringIdle r (s.outPort r) 0 (s.g (BZ_POS_NS r) + (320 * 16 + s.segDelay r (s.outPort r)) / 16) :: s.tx := by
  have only := s.showDelay_only r
  have mode : (s.showDelay r).mode = s.mode := RegsKeep.g_off only.2 (by clear * -; decide +revert)
  have seg (port : Nat) : (s.showDelay r).segDelay r port = s.segDelay r port := by
    unfold State.segDelay
    rw [RegsKeep.g_off only.2 (by clear * -; decide +revert), RegsKeep.g_off only.2 (by clear * -; decide +revert)]
  rw [State.posSent, if_neg (by simp [other]), State.sendPos, State.tx_emit, mode, if_neg awake, seg, only.1]

theorem positionWordReceive_word {s : State} {r : Ring} {port : RPort} (plane : port = s.rxPort r) (other : s.isMaster r = false) (v : Nat) :
    Gives (.positionWordReceive r port (some v)) s (fun t => t.g (BZ_POS_NS r) = v % 2 ^ 31 ∧
      t.g (BZ_POS_VALID r) = (if s.on (BZ_FOLD_NOTICE r) = true then 0 else 1) ∧ t.g (BZ_MOFF_NS r) = u32 (((s.ring r).d : Int) - (v % 2 ^ 31 : Nat)) ∧
      (s.isSender r = false → s.mode ≠ mDormant →
        t.tx = .ringIdle r (s.outPort r) 0 (v % 2 ^ 31 + (320 * 16 + s.segDelay r (s.outPort r)) / 16) :: s.tx) ∧
      RegsKeep s t (regIn [BZ_POS_NS r, BZ_MOFF_NS r, BZ_MDELAY_NS r])) := by
  obtain ⟨pos, valid, master, sender⟩ := s.posTaken_shows r v
  have only := s.posTaken_only r v
  have shown := State.showDelay_other_keep (master.trans other)
  obtain ⟨offset, posKept, validKept⟩ := State.showDelay_other_offset (master.trans other)
  have regs := (s.posTaken r v).posSent_regs r
  refine ⟨_, exec_positionWordReceive_word plane other v, ?_, ?_, ?_, fun unsent awake => ?_, ?_⟩
  · rw [State.g_of_regs regs, posKept, pos]
  · rw [State.g_of_regs regs, validKept, valid]
  · rw [State.g_of_regs regs, offset, pos, only.1]
    rfl
  · have kept (f : Fld) (off : f.reg ≠ (BZ_POS_NS r).reg) : (s.posTaken r v).g f = s.g f := RegsKeep.g_off only.2 (by simpa using off)
    have out : (s.posTaken r v).outPort r = s.outPort r := by rw [State.outPort, kept _ (by clear * -; decide +revert)]; rfl
    have seg (k : Nat) : (s.posTaken r v).segDelay r k = s.segDelay r k := by
      rw [State.segDelay, kept _ (by clear * -; decide +revert), kept _ (by clear * -; decide +revert)]; rfl
    rw [State.posSent_tx (sender.trans unsent) (by rwa [State.mode, kept _ (by clear * -; decide +revert)]), out, seg, pos, only.1]
  · exact RegsKeep.of_regs ((RegsKeep.mono only.2 (regIn_mono (by simp))).trans (RegsKeep.mono shown (regIn_mono (by simp)))) regs

theorem positionWordReceive_none {s : State} {r : Ring} {port : RPort} (plane : port = s.rxPort r) (other : s.isMaster r = false) :
    Gives (.positionWordReceive r port none) s (fun t => t.g (BZ_POS_NS r) = s.g (BZ_POS_NS r) ∧ t.g (BZ_POS_VALID r) = s.g (BZ_POS_VALID r) ∧
      RegsKeep s t (regIn [BZ_MOFF_NS r, BZ_MDELAY_NS r])) := by
  obtain ⟨-, pos, valid⟩ := State.showDelay_other_offset other
  have regs := s.posSent_regs r
  exact ⟨_, exec_positionWordReceive_none plane, (State.g_of_regs regs _).trans pos, (State.g_of_regs regs _).trans valid,
    RegsKeep.of_regs (State.showDelay_other_keep other) regs⟩

/-- Off the receive plane a node between the folds sends the word on (R232). -/
theorem positionWordReceive_secondary {s : State} {r : Ring} (off : RPort.a ≠ s.rxPort r) (whole : s.g (BZ_FOLD_STATE r) = 0) (awake : s.mode ≠ mDormant)
    (v : Nat) : Gives (.positionWordReceive r .a (some v)) s (fun t =>
      t.tx = .ringIdle r 1 0 (v + (320 * 16 + s.segDelay r 1) / 16) :: s.tx ∧ t.regs = s.regs) := by
  have sent : exec (.positionWordReceive r .a (some v)) s = .next ((s.modRing r (fun x => { x with posSec := v })).sendPos r 1 v 320) := by
    refine (if_neg (by simpa using off)).trans ((if_pos (by simp [whole])).trans ?_)
    simp
  exact ⟨_, sent, by simp [State.sendPos, State.tx_emit, awake, State.segDelay], by simp [State.sendPos]⟩

theorem exec_positionWordReceive_ignored {s : State} {r : Ring} {port : RPort} (off : port ≠ s.rxPort r)
    (h : ¬ (port = .a ∧ s.g (BZ_FOLD_STATE r) = 0)) (v : Nat) : exec (.positionWordReceive r port (some v)) s = .next s :=
  (if_neg (by simpa using off)).trans (if_neg (by simpa using h))

end Sys2Proof.Machine

namespace Sys2Proof.Proofs
open Sys2Proof.Machine Sys2Proof.Safety

/-- Settles O36: what each command of a ring's control leaves, by the registers of its block, its own state and what leaves the module. The direction of
the step at a cold start is log 115's choice. -/
theorem ringControlRows : Obligations.RingControlRows := by
  intro s r port unfold v i
  refine ⟨fun off => congrArg Host.Outcome.next (if_neg (Bool.eq_false_iff.1 off)), fun on => congrArg Host.Outcome.next (if_pos on),
    fun off inUse => ⟨State.enableRing_shows off inUse, fun rule e fails => State.enableRing_refuses off inUse fails⟩, ⟨rfl, s.disableRing_shows r⟩,
    fun listening capable mode en silent => ?coldStart, fun lost => ⟨marksLost_joined lost, marksLost_counting lost⟩,
    ⟨delayProbe_answered s r .a v, delayProbe_unanswered s r .a, delayProbe_answered s r .b v, delayProbe_unanswered s r .b⟩,
    fun plane other => ⟨positionWordReceive_word plane other v, positionWordReceive_none plane other⟩, fun off a whole awake => ?secondary,
    fun off other => exec_positionWordReceive_ignored off other v, ringBreak_folds, ringBreak_again, unfoldReady_healed, exec_unfoldReady_open,
    foldNoticeReceive_taken s r port unfold⟩
  case coldStart =>
    obtain ⟨phase, state, cold, rank0, sends, step⟩ := s.coldStarted_shows r
    exact ⟨_, exec_listenSilenceExpiry_starts listening capable mode en silent, phase, state, cold, rank0, sends, step, s.coldStarted_keep r⟩
  case secondary =>
    subst a
    exact positionWordReceive_secondary off whole awake v

end Sys2Proof.Proofs

/-! SUPPORT. The basic cycle (R207, R210, R216, R229, R248 to R250, R561): what its start judges, closes and shifts, what a Mark sent leaves. -/

namespace Sys2Proof.Safety
open Sys2Proof.Machine

/-- The registers of a list, and those that recording writes. -/
def recOrIn (fs : List Fld) (a : Nat) : Prop := recPage a ∨ regIn fs a

theorem RegsKeep.g_high {s t : State} {fs : List Fld} (h : RegsKeep s t (recOrIn fs)) {f : Fld} (off : 0x50010000 ≤ f.reg ∧ ∀ x ∈ fs, f.reg ≠ x.reg) :
    t.g f = s.g f :=
  h.g fun bad => bad.elim (by unfold recPage; omega) fun ⟨x, mem, e⟩ => off.2 x mem e

end Sys2Proof.Safety

namespace Sys2Proof.Machine
open Sys2Proof.Safety

/-! ### Frames of the ring's shared operations -/

@[simp] theorem State.now_modRing (s : State) (r : Nat) (h : RingSt → RingSt) : (s.modRing r h).now = s.now := by simp [State.now]

@[simp] theorem State.modRing_app (s : State) (r : Nat) (f : RingSt → RingSt) : (s.modRing r f).app = s.app := by unfold State.modRing; split <;> rfl

/-- The registers that a controller writes as it leaves the ring. -/
def silentFlds (r : Nat) : List Fld := [BZ_STAT_STATE r, BZ_CLOSE_NS r, BZ_JOIN_PHASE r, BZ_SYNCSTAT_PRESENT r]

theorem State.ringSilent_keep (s : State) (r phase : Nat) : RegsKeep s (s.ringSilent r phase) (regIn (silentFlds r)) := by
  have state : regIn (silentFlds r) (BZ_STAT_STATE r).reg := regIn_head _ rfl
  have close : regIn (silentFlds r) (BZ_CLOSE_NS r).reg := ⟨_, by simp [silentFlds], rfl⟩
  have join : regIn (silentFlds r) (BZ_JOIN_PHASE r).reg := ⟨_, by simp [silentFlds], rfl⟩
  have sync : regIn (silentFlds r) (BZ_SYNCSTAT_PRESENT r).reg := ⟨_, by simp [silentFlds], rfl⟩
  have left : RegsKeep s (s.modRing r (fun x => { x with
      transmitting := false, cold := false, rank0Act := false, coldYield := false, dd := none, ownDs := [] })) (regIn (silentFlds r)) :=
    RegsKeep.of_regs (RegsKeep.refl s _) (State.modRing_regs _ _ _)
  exact ((((((left.p (BZ_STAT_CLOSING r) 0 state).p (BZ_CLOSE_NS r) 0 close).p (BZ_STAT_STATE r) 1 state).p (BZ_JOIN_PHASE r) phase join).p
    (BZ_JOIN_MARKS r) 0 join).p (BZ_SYNCSTAT_PRESENT r) 0 sync).p (BZ_SYNCSTAT_SETTLED r) 0 sync

/-! ### The basic cycle that ends (R229, R249) -/

/-- Has the basic cycle that ends had no Mark (R229)? -/
def RingSt.noMark (x : RingSt) : Prop :=
  (x.cur.mark = false ∧ x.cur.sent = false) ∨ (x.prev.sent = true ∧ x.prev.mark = false ∧ x.prev.returned = false)

theorem RingSt.noMark_iff (x : RingSt) :
    ((!x.cur.mark && !x.cur.sent) || (x.prev.sent && !x.prev.mark && !x.prev.returned)) = true ↔ x.noMark := by
  simp [RingSt.noMark, and_assoc]

/-- What the basic cycles of a ring are after what a judgement changes of its state. -/
theorem State.judgeMarks_ring (s : State) (r : Nat) : ∃ m, (s.judgeMarks r).ring r = { s.ring r with missed := m } := by
  unfold State.judgeMarks
  dsimp only
  split
  · exact ⟨_, rfl⟩
  · split
    · split
      · exact ⟨_, by simp; rfl⟩
      · exact ⟨_, by simp; rfl⟩
    · split
      · exact ⟨_, by simp; rfl⟩
      · exact ⟨_, rfl⟩

theorem State.judgeMarks_keep (s : State) (r : Nat) : RegsKeep s (s.judgeMarks r) (regIn [BZ_NOMARK_COUNT r, BZ_JOIN_MARKS r]) := by
  have counted : RegsKeep s ((s.inc (BZ_NOMARK_COUNT r)).modRing r (fun x => { x with missed := x.missed + 1 })) (regIn [BZ_NOMARK_COUNT r, BZ_JOIN_MARKS r]) :=
    RegsKeep.of_regs (OnlyRegs.of_p s _ (regIn_head _ rfl)).2 (State.modRing_regs _ _ _)
  unfold State.judgeMarks
  dsimp only
  split
  · exact RegsKeep.refl s _
  · split
    · split
      · exact counted.trans (OnlyRegs.of_p _ _ ⟨_, by simp, rfl⟩).2
      · exact counted
    · split
      · exact RegsKeep.of_regs (RegsKeep.refl s _) (State.modRing_regs _ _ _)
      · exact RegsKeep.refl s _

/-- The count of basic cycles without a Mark, as `n` (R229). -/
theorem State.judgeMarks_missed {s : State} {r : Ring} (used : s.g (BZ_STAT_STATE r) ≠ 0) (none : (s.ring r).noMark) :
    (s.judgeMarks r).g (BZ_NOMARK_COUNT r) = (s.g (BZ_NOMARK_COUNT r) + 1) % 2 ^ 32 := by
  have counted : (s.inc (BZ_NOMARK_COUNT r)).g (BZ_NOMARK_COUNT r) = (s.g (BZ_NOMARK_COUNT r) + 1) % 2 ^ 32 := s.g_inc_same (by clear * -; decide +revert)
  unfold State.judgeMarks
  dsimp only
  rw [if_neg (by simpa using used), if_pos ((s.ring r).noMark_iff.2 none)]
  split
  · rw [State.g_p_off _ _ (by clear * -; decide +revert), State.g_modRing, counted]
  · rw [State.g_modRing, counted]

theorem State.judgeMarks_heard {s : State} {r : Nat} (h : ¬ (s.g (BZ_STAT_STATE r) ≠ 0 ∧ (s.ring r).noMark)) : (s.judgeMarks r).regs = s.regs := by
  unfold State.judgeMarks
  dsimp only
  by_cases used : s.g (BZ_STAT_STATE r) = 0
  · rw [if_pos (by simp [used])]
  · rw [if_neg (by simpa using used), if_neg (mt (s.ring r).noMark_iff.1 fun none => h ⟨used, none⟩)]
    split
    · exact State.modRing_regs _ _ _
    · rfl

theorem State.judgeReplies_ring (s : State) (r : Nat) : ∃ g, (s.judgeReplies r).ring r = { s.ring r with got := g } := by
  unfold State.judgeReplies
  dsimp only
  split
  · exact ⟨_, by simp; rfl⟩
  · exact ⟨_, by simp; rfl⟩

theorem State.judgeReplies_keep (s : State) (r : Nat) : RegsKeep s (s.judgeReplies r) (regIn [BZ_NOREPLY_COUNT r]) := by
  have forgot : RegsKeep s (s.modRing r (fun x => { x with got := x.got.filter (fun e => decide (bcStart s.now - 40000 < e.1)) })) (regIn [BZ_NOREPLY_COUNT r]) :=
    RegsKeep.of_regs (RegsKeep.refl s _) (State.modRing_regs _ _ _)
  unfold State.judgeReplies
  dsimp only
  split
  · exact forgot.trans (OnlyRegs.of_p _ _ (regIn_head _ rfl)).2
  · exact forgot

/-- The basic cycle that ends, judged. -/
def State.cycleJudged (s : State) (r : Nat) : State := (s.judgeMarks r).judgeReplies r

theorem State.cycleJudged_ring (s : State) (r : Nat) : ∃ m g, (s.cycleJudged r).ring r = { s.ring r with missed := m, got := g } := by
  obtain ⟨m, marks⟩ := s.judgeMarks_ring r
  obtain ⟨g, replies⟩ := (s.judgeMarks r).judgeReplies_ring r
  exact ⟨m, g, by rw [State.cycleJudged, replies, marks]⟩

theorem State.cycleJudged_keep (s : State) (r : Nat) :
    RegsKeep s (s.cycleJudged r) (regIn [BZ_NOMARK_COUNT r, BZ_JOIN_MARKS r, BZ_NOREPLY_COUNT r]) :=
  RegsKeep.trans ((s.judgeMarks_keep r).mono (regIn_mono (by simp))) (((s.judgeMarks r).judgeReplies_keep r).mono (regIn_mono (by simp)))

/-! ### Closure (R207, R216, R250, R561) -/

theorem State.closeCycle_only (s : State) (r : Nat) (x : RingSt) : OnlyRegs s (s.closeCycle r x) (regIn [BZ_STAT_CLOSING r, BZ_CLOSE_NS r]) := by
  have pair (v n : Nat) : OnlyRegs s ((s.p (BZ_STAT_CLOSING r) v).p (BZ_CLOSE_NS r) n) (regIn [BZ_STAT_CLOSING r, BZ_CLOSE_NS r]) :=
    (OnlyRegs.of_p s v (regIn_head _ rfl)).p _ n ⟨_, by simp, rfl⟩
  unfold State.closeCycle
  refine OnlyRegs.ite (pair 0 0) (OnlyRegs.ite ?_ (OnlyRegs.refl s _))
  cases x.dd with
  | none => exact OnlyRegs.of_p s 1 (regIn_head _ rfl)
  | some d => exact OnlyRegs.ite (pair 1 _) (OnlyRegs.refl s _)

/-- After another node's Mark the closure ends. -/
theorem State.closeCycle_heard (s : State) (r : Ring) {x : RingSt} (heard : x.cur.mark = true) :
    (s.closeCycle r x).g (BZ_STAT_CLOSING r) = 0 ∧ (s.closeCycle r x).g (BZ_CLOSE_NS r) = 0 := by
  rw [State.closeCycle, if_pos (by simp [heard])]
  clear heard
  constructor
  · rw [State.g_p_off _ _ (by clear * -; decide +revert), State.g_p_fits _ (by decide +revert)]
  · exact State.g_p_fits _ (by decide +revert)

/-- A node that alone sent a Mark closes, with its D once that is known. -/
theorem State.closeCycle_alone {s : State} {r : Ring} {x : RingSt} (unheard : x.cur.mark = false) (kept : x.cur.rank0Lower = false) (sent : x.cur.sent = true)
    (open_ : s.on (BZ_STAT_CLOSING r) = false) (stays : x.rank0Act = true → x.coldYield = false) {n : Nat} (known : x.dd = some n) (short : n ≤ 19000) :
    (s.closeCycle r x).g (BZ_STAT_CLOSING r) = 1 ∧ (s.closeCycle r x).g (BZ_CLOSE_NS r) = 20000 - n := by
  have closes : s.closeCycle r x = s.applyClosure r n := by
    rw [State.closeCycle, if_neg (by simpa [unheard, kept] using stays), if_pos (by simp [sent, open_]), known]
    exact if_pos short
  rw [closes, State.applyClosure]
  constructor
  · rw [State.g_p_off _ _ (by clear * -; decide +revert), State.g_p_fits _ (by clear * -; decide +revert)]
  · exact State.g_p_fits _ ⟨by clear * -; decide +revert, by simp only [BZ_CLOSE_NS]; omega⟩

/-! ### The basic cycle that begins -/

/-- What a ring knows of its basic cycles as the next one begins. -/
def RingSt.shift (x : RingSt) : RingSt := { x with
  prev3 := x.prev2, prev2 := x.prev, prev := x.cur, cur := x.ahead, ahead := {}, yield := x.cur.rank0Lower
  rank0Act := x.rank0Act && !x.coldYield, coldYield := false }

/-- The last basic cycle judged, the closure set, the cycles shifted. -/
def State.cycleShifted (s : State) (r : Nat) : State :=
  ((s.cycleJudged r).closeCycle r ((s.cycleJudged r).ring r)).modRing r RingSt.shift

/-- The first yield of rank 0 is noticed (R561). -/
def State.yieldNoted (t : State) (r : Nat) (first : Bool) : State :=
  if first then t.notice (0x18 + r) 0x0006 (r + 1) (t.word (BZ_STAT_STATE r)) else t

/-- What the registers show of the Mark that came ahead of its basic cycle. -/
def State.markShown (t : State) (r : Nat) : State := (t.pb (BZ_MARK_VALID r) (t.ring r).cur.mark).p (BZ_GSTAT_ALIGNED r) 0

/-- The state as the basic cycle begins, before its outputs and its Mark. -/
def State.cycleBegun (s : State) (r : Nat) : State :=
  (((s.cycleShifted r).yieldNoted r (((s.cycleJudged r).ring r).cur.rank0Lower && !((s.cycleJudged r).ring r).yield)).markShown r).coldJudge r

theorem exec_basicCycleStart (s : State) (r : Ring) :
    let d := s.cycleBegun r
    exec (.basicCycleStart r) s = .next
      ((((((d.settleNet r (d.nodeId r)).snapReply r).modRing r (fun y => y.settle d.now)).startMark r).showDelay r).unitBasicCycle r) := rfl

theorem State.cycleShifted_ring (s : State) (r : Nat) : ∃ m g, (s.cycleShifted r).ring r = RingSt.shift { s.ring r with missed := m, got := g } := by
  obtain ⟨m, g, judged⟩ := s.cycleJudged_ring r
  exact ⟨m, g, by rw [State.cycleShifted, State.ring_modRing_same, ((s.cycleJudged r).closeCycle_only r _).ring, judged]⟩

theorem State.yieldNoted_same (t : State) (r : Ring) (first : Bool) : SameBut t (t.yieldNoted r first) :=
  SameBut.ite (t.notice_same _ _ _ _ (by omega)) (SameBut.refl t)

theorem State.markShown_shows (t : State) (r : Ring) : (t.markShown r).g (BZ_MARK_VALID r) = (if (t.ring r).cur.mark = true then 1 else 0) ∧
    (t.markShown r).g (BZ_GSTAT_ALIGNED r) = 0 := by
  simp (disch := decide +revert) only [State.markShown, State.g_p_off, State.g_pb_same, State.g_p_fits]
  trivial

theorem State.markShown_only (t : State) (r : Nat) : OnlyRegs t (t.markShown r) (regIn [BZ_MARK_VALID r, BZ_GSTAT_ALIGNED r]) :=
  ((OnlyRegs.refl t _).pb _ _ (regIn_head _ rfl)).p _ _ ⟨_, by simp, rfl⟩

/-! ### A cold start's count (R247, R248) -/

theorem State.coldJudge_warm {s : State} {r : Nat} (warm : (s.ring r).cold = false) : s.coldJudge r = s := if_pos (by simp [warm])

/-- What a ring knows of its basic cycles, and whether it yields rank 0. -/
def RingSt.SameCycles (x y : RingSt) : Prop :=
  y.prev = x.prev ∧ y.prev2 = x.prev2 ∧ y.prev3 = x.prev3 ∧ y.cur = x.cur ∧ y.ahead = x.ahead ∧ y.yield = x.yield

theorem RingSt.SameCycles.refl (x : RingSt) : x.SameCycles x := ⟨rfl, rfl, rfl, rfl, rfl, rfl⟩

/-- The registers that a cold starter's judgement writes. -/
def coldFlds (r : Nat) : List Fld := BZ_COLLIDE_COUNT r :: silentFlds r

/-- A collision takes the node back to Listening, closes nothing, and leaves what it knows of its basic cycles. -/
theorem State.coldCollide_shows (s : State) (r : Ring) : (s.ring r).SameCycles ((s.coldCollide r).ring r) ∧
    (s.coldCollide r).g (BZ_STAT_CLOSING r) = 0 ∧ (s.coldCollide r).g (BZ_CLOSE_NS r) = 0 ∧
    RegsKeep s (s.coldCollide r) (recOrIn (coldFlds r)) := by
  generalize silent : (s.inc (BZ_COLLIDE_COUNT r)).ringSilent r 1 = t
  have ring : (s.ring r).SameCycles (t.ring r) := by
    rw [← silent, State.ringSilent_ring, State.ring_inc]
    exact ⟨rfl, rfl, rfl, rfl, rfl, rfl⟩
  have closed : t.g (BZ_STAT_CLOSING r) = 0 ∧ t.g (BZ_CLOSE_NS r) = 0 := by
    obtain ⟨-, -, closing, close, -⟩ := (s.inc (BZ_COLLIDE_COUNT r)).ringSilent_shows r (phase := 1) (by decide)
    exact silent ▸ ⟨closing, close⟩
  have keep : RegsKeep s t (recOrIn (coldFlds r)) := by
    have counted : RegsKeep s (s.inc (BZ_COLLIDE_COUNT r)) (recOrIn (coldFlds r)) := (OnlyRegs.of_p s _ (.inr (regIn_head _ rfl))).2
    exact counted.trans (silent ▸ (State.ringSilent_keep _ r 1).mono fun a h => .inr (regIn_mono (List.subset_cons_self _ _) a h))
  have counted (n : Nat) : ∃ u : State, u.regs = t.regs ∧ (s.ring r).SameCycles (u.ring r) ∧
      u = t.modRing r (fun x => { x with coldFails := n, lastActivity := t.tu.upNs }) :=
    ⟨_, State.modRing_regs _ _ _, by rw [State.ring_modRing_same]; exact ring, rfl⟩
  unfold State.coldCollide
  dsimp only
  rw [silent]
  obtain ⟨u, regs, cycles, isU⟩ := counted (if (t.ring r).coldFails + 1 ≥ 16 then 0 else (t.ring r).coldFails + 1)
  rw [← isU]
  have shown : (s.ring r).SameCycles (u.ring r) ∧ u.g (BZ_STAT_CLOSING r) = 0 ∧ u.g (BZ_CLOSE_NS r) = 0 ∧ RegsKeep s u (recOrIn (coldFlds r)) :=
    ⟨cycles, (State.g_of_regs regs _).trans closed.1, (State.g_of_regs regs _).trans closed.2, keep.of_regs regs⟩
  split
  · have noted := u.notice_same (0x18 + r) 0x0001 (r + 1) (u.word (BZ_JOIN_PHASE r)) (by omega)
    obtain ⟨-, closing, close, kept⟩ := shown
    refine ⟨(noted.ring r).symm ▸ cycles, (noted.g _ ?_).trans closing, (noted.g _ ?_).trans close, kept.trans fun a ha => noted.2 a fun rec => ha (.inl rec)⟩
    all_goals simp [recPage, BZ_STAT_CLOSING, BZ_CLOSE_NS]; omega
  · exact shown

/-- A cold starter's count of basic cycles (R247). -/
def State.coldCounted (s : State) (r n : Nat) : State := s.modRing r (fun x => { x with coldCount := n, coldFails := 0 })

/-- A cold starter joins. -/
def State.coldJoined (s : State) (r : Nat) : State :=
  ((s.modRing r (fun x => { x with cold := false, since := bcStart s.now })).p (BZ_JOIN_PHASE r) 4).p (BZ_SYNCSTAT_HOLD r) 0

/-- A cold starter's judgement: nothing, a collision, or one basic cycle more, with which the node may join. -/
theorem State.coldJudge_cases (s : State) (r : Nat) : s.coldJudge r = s ∨ s.coldJudge r = s.coldCollide r ∨
    ∃ n, s.coldJudge r = s.coldCounted r n ∨ s.coldJudge r = (s.coldCounted r n).coldJoined r := by
  unfold State.coldJudge
  dsimp only
  split
  · exact .inl rfl
  · split
    · exact .inr (.inl rfl)
    · split
      · exact .inr (.inr ⟨_, .inr rfl⟩)
      · exact .inr (.inr ⟨_, .inl rfl⟩)

/-- A cold starter's judgement leaves what the node knows of its basic cycles, and begins no closure. -/
theorem State.coldJudge_shows (s : State) (r : Ring) : (s.ring r).SameCycles ((s.coldJudge r).ring r) ∧
    RegsKeep s (s.coldJudge r) (recOrIn (coldFlds r)) ∧
    (s.g (BZ_STAT_CLOSING r) = 0 → s.g (BZ_CLOSE_NS r) = 0 → (s.coldJudge r).g (BZ_STAT_CLOSING r) = 0 ∧ (s.coldJudge r).g (BZ_CLOSE_NS r) = 0) := by
  rcases s.coldJudge_cases r with same | collides | ⟨n, counts | joins⟩
  · rw [same]
    exact ⟨RingSt.SameCycles.refl _, RegsKeep.refl s _, fun closing close => ⟨closing, close⟩⟩
  · rw [collides]
    obtain ⟨cycles, closing, close, keep⟩ := s.coldCollide_shows r
    exact ⟨cycles, keep, fun _ _ => ⟨closing, close⟩⟩
  · rw [counts, State.coldCounted, State.ring_modRing_same, State.g_modRing, State.g_modRing]
    exact ⟨RingSt.SameCycles.refl _, (RegsKeep.refl s _).of_regs (State.modRing_regs _ _ _), fun closing close => ⟨closing, close⟩⟩
  · have regs : RegsKeep s (s.coldJudge r) (regIn [BZ_JOIN_PHASE r, BZ_SYNCSTAT_PRESENT r]) := by
      rw [joins]
      exact (((RegsKeep.refl s _).of_regs (by simp [State.coldCounted])).p (BZ_JOIN_PHASE r) 4 (regIn_head _ rfl)).p (BZ_SYNCSTAT_HOLD r) 0
        ⟨BZ_SYNCSTAT_PRESENT r, by simp, rfl⟩
    refine ⟨?_, regs.mono fun a h => .inr (regIn_mono (by simp [coldFlds, silentFlds]) a h), fun closing close => ⟨?_, ?_⟩⟩
    · rw [joins, State.coldJoined, State.ring_p, State.ring_p, State.ring_modRing_same, State.coldCounted, State.ring_modRing_same]
      exact RingSt.SameCycles.refl _
    · exact (regs.g_off (by clear * -; decide +revert)).trans closing
    · exact (regs.g_off (by clear * -; decide +revert)).trans close

/-! ### What a basic cycle's start leaves (R207, R210, R229) -/

/-- Between the shift and the cold start's judgement only the Mark's registers and a notice are written. -/
theorem State.markShown_keep (t : State) (r : Ring) (first : Bool) :
    RegsKeep t ((t.yieldNoted r first).markShown r) (recOrIn [BZ_MARK_VALID r, BZ_GSTAT_ALIGNED r]) ∧
    ((t.yieldNoted r first).markShown r).ring r = t.ring r := by
  have noted := t.yieldNoted_same r first
  have shown := (t.yieldNoted r first).markShown_only r
  exact ⟨RegsKeep.trans (fun a ha => noted.2 a fun rec => ha (.inl rec)) (shown.2.mono fun a h => .inr h), (shown.ring r).trans (noted.ring r)⟩

theorem State.cycleBegun_shows (s : State) (r : Ring) :
    ((s.cycleBegun r).ring r).prev = (s.ring r).cur ∧ ((s.cycleBegun r).ring r).prev2 = (s.ring r).prev ∧ ((s.cycleBegun r).ring r).prev3 = (s.ring r).prev2 ∧
    ((s.cycleBegun r).ring r).cur = (s.ring r).ahead ∧ ((s.cycleBegun r).ring r).ahead = {} ∧ ((s.cycleBegun r).ring r).yield = (s.ring r).cur.rank0Lower ∧
    (s.cycleBegun r).g (BZ_MARK_VALID r) = (if (s.ring r).ahead.mark = true then 1 else 0) ∧ (s.cycleBegun r).g (BZ_GSTAT_ALIGNED r) = 0 := by
  obtain ⟨m, g, shifted⟩ := s.cycleShifted_ring r
  generalize begun : ((s.cycleShifted r).yieldNoted r (((s.cycleJudged r).ring r).cur.rank0Lower && !((s.cycleJudged r).ring r).yield)) = t
  have ring : t.ring r = (s.cycleShifted r).ring r := begun ▸ (State.yieldNoted_same _ _ _).ring r
  obtain ⟨valid, aligned⟩ := t.markShown_shows r
  obtain ⟨⟨prev, prev2, prev3, cur, ahead, yield⟩, keep, -⟩ := (t.markShown r).coldJudge_shows r
  have same : s.cycleBegun r = (t.markShown r).coldJudge r := by rw [← begun]; rfl
  rw [(t.markShown_only r).ring, ring, shifted] at prev prev2 prev3 cur ahead yield
  rw [ring, shifted] at valid
  rw [same]
  exact ⟨prev, prev2, prev3, cur, ahead, yield, (keep.g_high (by clear * -; decide +revert)).trans valid, (keep.g_high (by clear * -; decide +revert)).trans aligned⟩

/-- A register of the ring that neither the closure nor what follows it writes. -/
theorem State.cycleBegun_g (s : State) (r : Ring) {f : Fld} (off : 0x50010000 ≤ f.reg ∧ ∀ x ∈ [BZ_MARK_VALID r, BZ_GSTAT_ALIGNED r] ++ coldFlds r, f.reg ≠ x.reg) :
    (s.cycleBegun r).g f = (s.cycleJudged r).g f := by
  obtain ⟨high, apart⟩ := off
  simp only [List.mem_append, or_imp, forall_and] at apart
  obtain ⟨marks, cold⟩ := apart
  obtain ⟨shown, -⟩ := (s.cycleShifted r).markShown_keep r (((s.cycleJudged r).ring r).cur.rank0Lower && !((s.cycleJudged r).ring r).yield)
  obtain ⟨-, keep, -⟩ := State.coldJudge_shows (((s.cycleShifted r).yieldNoted r _).markShown r) r
  refine (keep.g_high ⟨high, cold⟩).trans ((shown.g_high ⟨high, marks⟩).trans ((State.g_modRing _ _ _ _).trans ?_))
  refine ((s.cycleJudged r).closeCycle_only r ((s.cycleJudged r).ring r)).2.g_off ?_
  simp only [coldFlds, silentFlds] at cold
  simp only [List.forall_mem_cons]
  exact ⟨cold (BZ_STAT_STATE r) (by simp), cold (BZ_CLOSE_NS r) (by simp), by simp⟩

theorem State.cycleBegun_missed {s : State} {r : Ring} (used : s.g (BZ_STAT_STATE r) ≠ 0) (none : (s.ring r).noMark) :
    (s.cycleBegun r).g (BZ_NOMARK_COUNT r) = (s.g (BZ_NOMARK_COUNT r) + 1) % 2 ^ 32 := by
  rw [State.cycleBegun_g s r (by clear * -; decide +revert), State.cycleJudged, ((s.judgeMarks r).judgeReplies_keep r).g_off (by clear * -; decide +revert),
    State.judgeMarks_missed used none]

theorem State.cycleBegun_heard {s : State} {r : Ring} (h : ¬ (s.g (BZ_STAT_STATE r) ≠ 0 ∧ (s.ring r).noMark)) :
    (s.cycleBegun r).g (BZ_NOMARK_COUNT r) = s.g (BZ_NOMARK_COUNT r) := by
  rw [State.cycleBegun_g s r (by clear * -; decide +revert), State.cycleJudged, ((s.judgeMarks r).judgeReplies_keep r).g_off (by clear * -; decide +revert),
    State.g_of_regs (State.judgeMarks_heard h)]

/-- The count of basic cycles without a Mark, as the next one begins (R229). -/
theorem State.cycleBegun_count (s : State) (r : Ring) : (s.cycleBegun r).g (BZ_NOMARK_COUNT r) =
    if s.g (BZ_STAT_STATE r) ≠ 0 ∧ (((s.ring r).cur.mark = false ∧ (s.ring r).cur.sent = false) ∨
      ((s.ring r).prev.sent = true ∧ (s.ring r).prev.mark = false ∧ (s.ring r).prev.returned = false)) then (s.g (BZ_NOMARK_COUNT r) + 1) % 2 ^ 32
    else s.g (BZ_NOMARK_COUNT r) := by
  split
  next missed => exact State.cycleBegun_missed missed.1 missed.2
  next heard => exact State.cycleBegun_heard heard

/-- The closure as the shift leaves it, before the cold start's judgement. -/
theorem State.markShown_closure (s : State) (r : Ring) (first : Bool) :
    let t := ((s.cycleShifted r).yieldNoted r first).markShown r
    let u := (s.cycleJudged r).closeCycle r ((s.cycleJudged r).ring r)
    t.g (BZ_STAT_CLOSING r) = u.g (BZ_STAT_CLOSING r) ∧ t.g (BZ_CLOSE_NS r) = u.g (BZ_CLOSE_NS r) := by
  obtain ⟨shown, -⟩ := (s.cycleShifted r).markShown_keep r first
  exact ⟨(shown.g_high (by clear * -; decide +revert)).trans (State.g_modRing _ _ _ _),
    (shown.g_high (by clear * -; decide +revert)).trans (State.g_modRing _ _ _ _)⟩

theorem State.cycleBegun_opens {s : State} {r : Ring} (heard : (s.ring r).cur.mark = true) :
    (s.cycleBegun r).g (BZ_STAT_CLOSING r) = 0 ∧ (s.cycleBegun r).g (BZ_CLOSE_NS r) = 0 := by
  obtain ⟨m, g, judged⟩ := s.cycleJudged_ring r
  obtain ⟨closing, close⟩ := (s.cycleJudged r).closeCycle_heard r (x := (s.cycleJudged r).ring r) (by rw [judged]; exact heard)
  obtain ⟨sameClosing, sameClose⟩ := s.markShown_closure r (((s.cycleJudged r).ring r).cur.rank0Lower && !((s.cycleJudged r).ring r).yield)
  exact (State.coldJudge_shows _ r).2.2 (sameClosing.trans closing) (sameClose.trans close)

theorem State.cycleBegun_closes {s : State} {r : Ring} (unheard : (s.ring r).cur.mark = false) (kept : (s.ring r).cur.rank0Lower = false)
    (sent : (s.ring r).cur.sent = true) (warm : (s.ring r).cold = false) (open_ : s.on (BZ_STAT_CLOSING r) = false)
    (stays : (s.ring r).rank0Act = true → (s.ring r).coldYield = false) {n : Nat} (known : (s.ring r).dd = some n) (short : n ≤ 19000) :
    (s.cycleBegun r).g (BZ_STAT_CLOSING r) = 1 ∧ (s.cycleBegun r).g (BZ_CLOSE_NS r) = 20000 - n := by
  obtain ⟨m, g, judged⟩ := s.cycleJudged_ring r
  obtain ⟨m', g', shifted⟩ := s.cycleShifted_ring r
  have stillOpen : (s.cycleJudged r).on (BZ_STAT_CLOSING r) = false := by
    rwa [State.on, (s.cycleJudged_keep r).g_off (by clear * -; decide +revert)]
  obtain ⟨closing, close⟩ := State.closeCycle_alone (x := (s.cycleJudged r).ring r) (by rw [judged]; exact unheard) (by rw [judged]; exact kept)
    (by rw [judged]; exact sent) stillOpen (by rw [judged]; exact stays) (by rw [judged]; exact known) short
  have still (first : Bool) : ((((s.cycleShifted r).yieldNoted r first).markShown r).ring r).cold = false := by
    rw [((s.cycleShifted r).markShown_keep r first).2, shifted]
    exact warm
  obtain ⟨sameClosing, sameClose⟩ := s.markShown_closure r (((s.cycleJudged r).ring r).cur.rank0Lower && !((s.cycleJudged r).ring r).yield)
  rw [State.cycleBegun, State.coldJudge_warm (still _)]
  exact ⟨sameClosing.trans closing, sameClose.trans close⟩

end Sys2Proof.Machine

/-! SUPPORT. Marks sent (R208, R215, R216, R232, R247, R253, R254): what a Mark leaves, at the start of a basic cycle and as a stand-in. -/

namespace Sys2Proof.Machine
open Sys2Proof.Safety

/-! ### A Mark's bytes -/

/-- A free value is taken (log 117). -/
def State.drawn (s : State) : State := { s with free := s.free + 1 }

@[simp] theorem State.ring_drawn (s : State) (r : Nat) : s.drawn.ring r = s.ring r := by unfold State.ring; split <;> rfl

/-- Two states in which a ring sends the same: the same registers and forces, and the ring's rank and correction. -/
def SameSender (r : Nat) (s t : State) : Prop :=
  t.regs = s.regs ∧ t.app = s.app ∧ (t.ring r).cold = (s.ring r).cold ∧ (t.ring r).rank0Act = (s.ring r).rank0Act ∧
  (t.ring r).yield = (s.ring r).yield ∧ (t.ring r).corrOut = (s.ring r).corrOut

section
variable {r : Nat} {s t : State} (h : SameSender r s t)
include h

theorem SameSender.emit (x : TxItem) : SameSender r s (t.emit x) := by
  obtain ⟨regs, app, cold, rank0, yield, corr⟩ := h
  simp only [SameSender, State.emit_regs, State.emit_app, State.ring_emit, regs, app, cold, rank0, yield, corr, and_self]

theorem SameSender.sendRing (f : RFrame) : SameSender r s (t.sendRing r f) := by
  unfold State.sendRing
  split
  · exact h
  · exact h.emit _

theorem SameSender.actRank : t.actRank r = s.actRank r := by
  obtain ⟨regs, -, -, rank0, yield, -⟩ := h
  unfold State.actRank State.baseRank State.holdsLight State.on State.g
  rw [regs, rank0, yield]

theorem SameSender.markFrame (c : Nat) (standin : Bool) : t.markFrame r c standin = s.markFrame r c standin := by
  obtain ⟨regs, app, cold, -, -, corr⟩ := id h
  unfold State.markFrame State.mkFrame State.markCorr State.forceActive State.syncN State.sched State.nodeId State.on State.word State.g
  rw [h.actRank, regs, app, cold, corr]

end

/-! ### A Mark sent -/

/-- A node that was no master before has measured no D yet. -/
def State.newMaster (s : State) (r : Nat) : State := if s.isSender r then s else s.modRing r (fun x => { x with dd := none, ownDs := [] })

theorem State.newMaster_sender (s : State) (r : Nat) : SameSender r s (s.newMaster r) := by
  unfold State.newMaster
  split
  · exact ⟨rfl, rfl, rfl, rfl, rfl, rfl⟩
  · simp [SameSender]

theorem State.newMaster_rest (s : State) (r : Nat) : (s.newMaster r).tx = s.tx ∧ ((s.newMaster r).ring r).cur = (s.ring r).cur := by
  unfold State.newMaster
  split <;> simp

/-- The position word that follows a Mark (R232): the delay of its segment as the master, the node's position and latency more as a stand-in. -/
def State.markPos (s : State) (r : Nat) : Nat :=
  if s.actRank r = 0 then s.segDelay r (s.outPort r) / 16 else s.g (BZ_POS_NS r) + (320 * 16 + s.segDelay r (s.outPort r)) / 16

theorem State.sendMark_eq (s : State) (r c : Nat) (standin : Bool) : s.sendMark r c standin =
    (((s.newMaster r).sendRing r (s.markFrame r c standin)).emit (.ringIdle r (s.outPort r) 0 (s.markPos r))).modCyc r c (fun y => { y with sent := true }) := by
  have same := s.newMaster_sender r
  have pos (t : State) (h : SameSender r s t) :
      (if t.actRank r == 0 then t.sendPos r (t.outPort r) 0 0 else t.sendPos r (t.outPort r) (t.g (BZ_POS_NS r)) 320) =
      t.emit (.ringIdle r (s.outPort r) 0 (s.markPos r)) := by
    unfold State.sendPos State.markPos State.outPort State.segDelay State.g
    rw [h.actRank, h.1]
    split <;> simp_all
  unfold State.sendMark
  dsimp only
  rw [show (if s.isSender r = true then s else s.modRing r fun x => { x with dd := none, ownDs := [] }) = s.newMaster r from rfl, same.markFrame]
  rw [pos _ (same.sendRing _)]

/-- A Mark sent changes no register. -/
@[simp] theorem State.sendMark_regs (s : State) (r c : Nat) (standin : Bool) : (s.sendMark r c standin).regs = s.regs := by
  rw [State.sendMark_eq, State.modCyc, State.modRing_regs, State.emit_regs]
  exact ((s.newMaster_sender r).sendRing _).1

theorem State.sendMark_ring (s : State) (r c : Nat) (standin : Bool) :
    (s.sendMark r c standin).ring r = ((s.newMaster r).ring r).modCyc (bcStart s.now) c (fun y => { y with sent := true }) := by
  have ring (t : State) (f : RFrame) : (t.sendRing r f).ring r = t.ring r := by
    unfold State.sendRing
    split <;> simp
  have now : (((s.newMaster r).sendRing r (s.markFrame r c standin)).emit (.ringIdle r (s.outPort r) 0 (s.markPos r))).now = s.now := by
    unfold State.now State.g
    rw [State.emit_regs, ((s.newMaster_sender r).sendRing _).1]
  rw [State.sendMark_eq, State.modCyc, State.ring_modRing_same, State.ring_emit, ring, now]

theorem RingSt.modCyc_sender (x : RingSt) (b c : Nat) (f : BCyc → BCyc) : (x.modCyc b c f).cold = x.cold ∧ (x.modCyc b c f).rank0Act = x.rank0Act ∧
    (x.modCyc b c f).yield = x.yield ∧ (x.modCyc b c f).corrOut = x.corrOut := by
  unfold RingSt.modCyc
  split_ifs <;> exact ⟨rfl, rfl, rfl, rfl⟩

theorem State.sendMark_sender (s : State) (r c : Nat) (standin : Bool) : SameSender r s (s.sendMark r c standin) := by
  obtain ⟨-, app, cold, rank0, yield, corr⟩ := (s.newMaster_sender r).sendRing (s.markFrame r c standin)
  obtain ⟨-, -, cold', rank0', yield', corr'⟩ := s.newMaster_sender r
  obtain ⟨c1, c2, c3, c4⟩ := ((s.newMaster r).ring r).modCyc_sender (bcStart s.now) c (fun y => { y with sent := true })
  refine ⟨s.sendMark_regs r c standin, ?_, ?_, ?_, ?_, ?_⟩
  · rw [State.sendMark_eq, State.modCyc, State.modRing_app, State.emit_app, app]
  · rw [State.sendMark_ring, c1, cold']
  · rw [State.sendMark_ring, c2, rank0']
  · rw [State.sendMark_ring, c3, yield']
  · rw [State.sendMark_ring, c4, corr']

/-- The Mark and then its position word leave the module. -/
theorem State.sendMark_tx {s : State} (awake : s.mode ≠ mDormant) (running : s.mode ≠ mSafeHalt) (r c : Nat) (standin : Bool) :
    (s.sendMark r c standin).tx =
      .ringIdle r (s.outPort r) 0 (s.markPos r) :: .ringFrame r (s.outPort r) (s.markFrame r c standin).bytes :: s.tx := by
  have regs := (s.newMaster_sender r).1
  have mode : (s.newMaster r).mode = s.mode := State.g_of_regs regs _
  have out : (s.newMaster r).outPort r = s.outPort r := by rw [State.outPort, State.g_of_regs regs]; rfl
  rw [State.sendMark_eq, State.modCyc, State.modRing_tx, State.sendRing, if_neg (by rw [mode]; exact mt beq_iff_eq.1 running), State.tx_emit,
    State.mode_emit, mode, if_neg awake, State.tx_emit, mode, if_neg awake, out, (s.newMaster_rest r).1]

/-! ### The Mark of a rank-0 node (R216, R253, R254) -/

/-- Does the guardian's counter lie more than 200 ns off (R253, R254)? -/
def guardianOff (dev : Int) : Prop := 200 < dev ∨ dev < -200

theorem guardianOff_iff (dev : Int) : (dev > 200 || dev < -200) = true ↔ guardianOff dev := by simp [guardianOff]

/-- A rank-0 node's basic cycle, with the free value of the guardian's counter taken. -/
def State.rank0Drawn (s : State) (r : Nat) : State := s.drawn.modRing r (fun x => { x with cur := { x.cur with rank0 := true } })

section
variable {s : State} {r : Nat} (en : s.on (BZ_CTRL_EN r) = true) (capable : s.on (BZ_CTRL_MCAP r) = true) (sends : (s.ring r).transmitting = true)
  (rank : s.actRank r = 0) (waits : (s.ring r).r0Wait = 0)
include en capable sends rank waits

theorem State.startMark_rank0 : s.startMark r =
    if Config.markDev s.free > 200 || Config.markDev s.free < -200 then (s.rank0Drawn r).guardianViolation r
    else
      let t := ((s.rank0Drawn r).sendMark r (bcStart s.now) false).p (BZ_STAT_STATE r) 3
      if (s.ring r).cold then t.inc (BZ_COLDSENT_COUNT r) else t := by
  have rank0 : (s.on (BZ_CTRL_EN r) && s.on (BZ_CTRL_MCAP r) && (s.ring r).transmitting && s.actRank r == 0 && (s.ring r).r0Wait == 0) = true := by
    simp [en, capable, sends, rank, waits]
  unfold State.startMark
  dsimp only
  rw [rank0, if_pos rfl, State.modRing_free]
  rw [show ({ s.modRing r (fun x => { x with cur := { x.cur with rank0 := true } }) with free := s.free + 1 } : State) = s.rank0Drawn r by cases r <;> rfl]
  rw [show (s.rank0Drawn r).now = s.now by simp [State.rank0Drawn]; rfl]

theorem State.startMark_blocked (off : guardianOff (Config.markDev s.free)) : s.startMark r = (s.rank0Drawn r).guardianViolation r := by
  rw [State.startMark_rank0 en capable sends rank waits, if_pos ((guardianOff_iff _).2 off)]

theorem State.startMark_passed (near : ¬ guardianOff (Config.markDev s.free)) :
    let t := ((s.rank0Drawn r).sendMark r (bcStart s.now) false).p (BZ_STAT_STATE r) 3
    s.startMark r = if (s.ring r).cold then t.inc (BZ_COLDSENT_COUNT r) else t := by
  rw [State.startMark_rank0 en capable sends rank waits, if_neg (mt (guardianOff_iff _).1 near)]

end

theorem State.rank0Drawn_sender (s : State) (r : Nat) : SameSender r s (s.rank0Drawn r) := by
  simp [SameSender, State.rank0Drawn]
  exact ⟨rfl, rfl⟩

theorem RingSt.modCyc_cur (x : RingSt) (b : Nat) (f : BCyc → BCyc) : x.modCyc b b f = { x with cur := f x.cur } := by
  rw [RingSt.modCyc, if_neg (lt_irrefl b), if_pos (beq_self_eq_true b)]

theorem RingSt.cyc_modCyc (x : RingSt) (b c : Nat) (f : BCyc → BCyc) : (x.modCyc b c f).cyc b c = f (x.cyc b c) := by
  unfold RingSt.modCyc RingSt.cyc
  split_ifs <;> rfl

/-- What a rank-0 node that sends its Mark leaves. -/
theorem State.rank0Mark_shows {s : State} {r : Ring} (rank : s.actRank r = 0) :
    let t := ((s.rank0Drawn r).sendMark r (bcStart s.now) false).p (BZ_STAT_STATE r) 3
    t.g (BZ_STAT_STATE r) = 3 ∧ (t.ring r).cur.sent = true ∧ (t.ring r).cur.rank0 = true ∧
    (s.mode ≠ mDormant → s.mode ≠ mSafeHalt → t.tx = .ringIdle r (s.outPort r) 0 (s.segDelay r (s.outPort r) / 16) ::
      .ringFrame r (s.outPort r) (s.markFrame r (bcStart s.now) false).bytes :: s.tx) := by
  intro t
  have same := s.rank0Drawn_sender r
  have regs (f : Fld) : (s.rank0Drawn r).g f = s.g f := State.g_of_regs same.1 f
  have now : (s.rank0Drawn r).now = s.now := by simp only [State.now, regs]
  have cur : (t.ring r).cur = { (s.ring r).cur with rank0 := true, sent := true } := by
    rw [State.ring_p, State.sendMark_ring, now, RingSt.modCyc_cur, ((s.rank0Drawn r).newMaster_rest r).2]
    simp [State.rank0Drawn]
  refine ⟨State.g_p_fits _ (by clear * -; decide +revert), by rw [cur], by rw [cur], fun awake running => ?_⟩
  have out : (s.rank0Drawn r).outPort r = s.outPort r := by rw [State.outPort, regs]; rfl
  have pos : (s.rank0Drawn r).markPos r = s.segDelay r (s.outPort r) / 16 := by
    rw [State.markPos, same.actRank, if_pos rank, out, State.segDelay, regs, regs]
    rfl
  rw [State.p_tx, State.sendMark_tx (by rwa [State.mode, regs]) (by rwa [State.mode, regs]), out, pos, same.markFrame]
  simp [State.rank0Drawn]
  rfl

/-- What a rank-0 node does about its Mark as the basic cycle begins (R216, R253, R254). -/
theorem State.startMark_shows {s : State} {r : Ring} (en : s.on (BZ_CTRL_EN r) = true) (capable : s.on (BZ_CTRL_MCAP r) = true)
    (sends : (s.ring r).transmitting = true) (rank : s.actRank r = 0) (waits : (s.ring r).r0Wait = 0) :
    let t := s.startMark r
    if 200 < Config.markDev s.free ∨ Config.markDev s.free < -200 then t = (s.rank0Drawn r).guardianViolation r
    else t.g (BZ_STAT_STATE r) = 3 ∧ (t.ring r).cur.sent = true ∧ (t.ring r).cur.rank0 = true ∧
      (s.mode ≠ mDormant → s.mode ≠ mSafeHalt → t.tx = .ringIdle r (s.outPort r) 0 (s.segDelay r (s.outPort r) / 16) ::
        .ringFrame r (s.outPort r) (s.markFrame r (bcStart s.now) false).bytes :: s.tx) := by
  dsimp only
  split
  next off => exact State.startMark_blocked en capable sends rank waits off
  next near =>
    obtain ⟨state, sent, rank0, tx⟩ := State.rank0Mark_shows rank
    rw [State.startMark_passed en capable sends rank waits near]
    split
    · exact ⟨(State.g_inc_off _ (by clear * -; decide +revert)).trans state, by rwa [State.ring_inc], by rwa [State.ring_inc], tx⟩
    · exact ⟨state, sent, rank0, tx⟩

/-! ### A stand-in Mark (R216) -/

theorem exec_standInMark_refrains {s : State} {r : Ring} (h : s.standInOk r (s.txCycle r 2400 s.now) = false) : exec (.standInMark r) s = .next s :=
  if_pos (by simp [h])

theorem exec_standInMark_blocked {s : State} {r : Ring} (ok : s.standInOk r (s.txCycle r 2400 s.now) = true) (off : guardianOff (Config.markDev s.free)) :
    exec (.standInMark r) s = .next ((s.drawn.guardianViolation r).afterLoss s.drawn) :=
  (if_neg (by simp [ok])).trans (if_pos ((guardianOff_iff _).2 off))

/-- A stand-in Mark sent, counted and shown. -/
def State.standInSent (s : State) (r c : Nat) : State :=
  let t := (s.drawn.sendMark r c true).inc (BZ_STANDIN_COUNT r)
  t.p (BZ_STAT_STATE r) (if t.actRank r == 0 then 3 else 4)

theorem exec_standInMark_sends {s : State} {r : Ring} (ok : s.standInOk r (s.txCycle r 2400 s.now) = true) (near : ¬ guardianOff (Config.markDev s.free)) :
    exec (.standInMark r) s = .next ((s.standInSent r (s.txCycle r 2400 s.now)).showDelay r) :=
  (if_neg (by simp [ok])).trans (if_neg (mt (guardianOff_iff _).1 near))

theorem State.drawn_sender (s : State) (r : Nat) : SameSender r s s.drawn := by
  simp [SameSender]
  exact ⟨rfl, rfl⟩

theorem State.standInSent_shows (s : State) (r : Ring) (c : Nat) :
    (s.standInSent r c).g (BZ_STANDIN_COUNT r) = (s.g (BZ_STANDIN_COUNT r) + 1) % 2 ^ 32 ∧
    (s.standInSent r c).g (BZ_STAT_STATE r) = (if s.actRank r = 0 then 3 else 4) ∧ ((s.standInSent r c).cyc r c).sent = true ∧
    (s.mode ≠ mDormant → s.mode ≠ mSafeHalt → ∃ p, (s.standInSent r c).tx = .ringIdle r (s.outPort r) 0 p ::
      .ringFrame r (s.outPort r) (s.markFrame r c true).bytes :: s.tx) ∧
    RegsKeep s (s.standInSent r c) (regIn [BZ_STANDIN_COUNT r, BZ_STAT_STATE r]) := by
  have drawn := s.drawn_sender r
  have regs : (s.drawn.sendMark r c true).regs = s.regs := (State.sendMark_regs _ _ _ _).trans drawn.1
  have keep : RegsKeep s (s.standInSent r c) (regIn [BZ_STANDIN_COUNT r, BZ_STAT_STATE r]) :=
    (((RegsKeep.refl s _).of_regs regs).p (BZ_STANDIN_COUNT r) _ (regIn_head _ rfl)).p (BZ_STAT_STATE r) _ ⟨_, by simp, rfl⟩
  have now : (s.standInSent r c).now = s.now := by
    rw [State.now, keep.g_off (by clear * -; decide +revert), keep.g_off (by clear * -; decide +revert)]
    rfl
  have rank : ((s.drawn.sendMark r c true).inc (BZ_STANDIN_COUNT r)).actRank r = s.actRank r := by
    rw [← ((s.drawn.sendMark_sender r c true).actRank.trans drawn.actRank)]
    unfold State.actRank State.baseRank State.holdsLight State.on
    rw [State.g_inc_off _ (by clear * -; decide +revert), State.g_inc_off _ (by clear * -; decide +revert), State.g_inc_off _ (by clear * -; decide +revert),
      State.ring_inc]
  refine ⟨?_, ?_, ?_, fun awake running => ⟨s.drawn.markPos r, ?_⟩, keep⟩
  · refine (State.g_p_off _ _ (by clear * -; decide +revert)).trans ((State.g_inc_same _ (by clear * -; decide +revert)).trans ?_)
    rw [State.g_of_regs regs]
    rfl
  · refine (State.g_p_fits _ ⟨by clear * -; decide +revert, ?_⟩).trans ?_
    · split <;> clear * - <;> decide +revert
    · simp only [rank, beq_iff_eq]
  · rw [State.cyc, now, State.standInSent, State.ring_p, State.ring_inc, State.sendMark_ring]
    exact congrArg BCyc.sent (RingSt.cyc_modCyc _ _ _ _)
  · have out : s.drawn.outPort r = s.outPort r := rfl
    rw [State.standInSent, State.p_tx, State.inc_tx, State.sendMark_tx (s := s.drawn) awake running, out, drawn.markFrame]
    rfl

theorem standInMark_sends {s : State} {r : Ring} (ok : s.standInOk r (s.txCycle r 2400 s.now) = true) (near : ¬ guardianOff (Config.markDev s.free)) :
    Gives (.standInMark r) s (fun t => t.g (BZ_STANDIN_COUNT r) = (s.g (BZ_STANDIN_COUNT r) + 1) % 2 ^ 32 ∧
      t.g (BZ_STAT_STATE r) = (if s.actRank r = 0 then 3 else 4) ∧ (t.cyc r (s.txCycle r 2400 s.now)).sent = true ∧
      (s.mode ≠ mDormant → s.mode ≠ mSafeHalt → ∃ p, t.tx = .ringIdle r (s.outPort r) 0 p ::
        .ringFrame r (s.outPort r) (s.markFrame r (s.txCycle r 2400 s.now) true).bytes :: s.tx) ∧
      RegsKeep s t (regIn [BZ_STANDIN_COUNT r, BZ_STAT_STATE r, BZ_MDELAY_NS r, BZ_POS_NS r, BZ_MOFF_NS r])) := by
  obtain ⟨count, state, sent, tx, keep⟩ := s.standInSent_shows r (s.txCycle r 2400 s.now)
  have shown := (s.standInSent r (s.txCycle r 2400 s.now)).showDelay_only r
  refine ⟨_, exec_standInMark_sends ok near, (shown.2.g_off ?_).trans count, (shown.2.g_off ?_).trans state, ?_, fun awake running => ?_,
    (keep.mono (regIn_mono (by simp))).trans (shown.2.mono (regIn_mono (by simp)))⟩
  · clear * -; decide +revert
  · clear * -; decide +revert
  · have now : ((s.standInSent r (s.txCycle r 2400 s.now)).showDelay r).now = (s.standInSent r (s.txCycle r 2400 s.now)).now := by
      rw [State.now, shown.2.g_off (by clear * -; decide +revert), shown.2.g_off (by clear * -; decide +revert)]
      rfl
    rwa [State.cyc, now, shown.ring]
  · obtain ⟨p, tx⟩ := tx awake running
    exact ⟨p, by rw [shown.1]; exact tx⟩

end Sys2Proof.Machine

/-! SUPPORT. The slots of the schedule (R218 to R222, R234, R242, R243) and the macrocycle's boundary (R207, R208, R236 to R239, R244, R249, R250). -/

namespace Sys2Proof.Machine
open Sys2Proof.Safety

/-! ### Slots -/

/-- When an entry's frame is this node's to send (R219, R222, R249, R253). -/
theorem State.ownEntry_iff (s : State) (r c : Nat) (x : SchedEnt) : s.ownEntry r c x = true ↔
    (if x.kind = 0 then s.isSender r = true ∧ (s.cyc r c).sent = true else x.node = s.nodeId r) ∧ (s.ring r).transmitting = true ∧ (s.ring r).cold = false ∧
      s.on (BZ_CTRL_EN r) = true ∧ x.inCycle (bcNum c) = true ∧ (s.cyc r c).corrupted = false := by
  unfold State.ownEntry
  split_ifs <;> simp_all [and_assoc]

/-- What a node sends in a slot of its own: a poll, a reply, or a reference message while it has one to send. -/
def State.slotSent (s : State) (r c : Nat) (x : SchedEnt) : State :=
  if x.kind = 0 then s.sendPoll r c x else if x.kind = 1 then s.sendReply r c x
  else match s.refBody r x with
    | none => s
    | some b => (s.sendRing r (s.mkFrame r c 4 0 0xFF b)).modRing r (fun y => { y with refSeq := (y.refSeq + 1) % 2 ^ 16 })

section
variable {s : State} {r : Ring} {e : Fin 4096} {x : SchedEnt} (found : (s.sched r).find? (fun x => x.e == e.val) = some x)
include found

theorem exec_slotTransmit_other (other : s.ownEntry r (s.txCycle r x.off s.now) x = false) (dev : Int) : exec (.slotTransmit r e dev) s = .next s := by
  show execSlotTransmit r e dev s = _
  unfold execSlotTransmit
  dsimp only
  rw [found]
  exact if_pos (by simp [other])

variable (own : s.ownEntry r (s.txCycle r x.off s.now) x = true)
include own

theorem exec_slotTransmit_blocked {dev : Int} (off : guardianOff dev) : exec (.slotTransmit r e dev) s = .next ((s.guardianViolation r).afterLoss s) := by
  show execSlotTransmit r e dev s = _
  unfold execSlotTransmit
  dsimp only
  rw [found]
  exact (if_neg (by simp [own])).trans (if_pos ((guardianOff_iff dev).2 off))

theorem exec_slotTransmit_sends {dev : Int} (near : ¬ guardianOff dev) :
    exec (.slotTransmit r e dev) s = .next (s.slotSent r (s.txCycle r x.off s.now) x) := by
  show execSlotTransmit r e dev s = _
  unfold execSlotTransmit
  dsimp only
  rw [found]
  refine (if_neg (by simp [own])).trans ((if_neg (mt (guardianOff_iff dev).1 near)).trans ?_)
  simp only [State.slotSent, beq_iff_eq]
  split_ifs
  · rfl
  · rfl
  · cases s.refBody r x <;> rfl

end

section
variable {s : State} {r c : Nat} {x : SchedEnt}

theorem State.slotSent_reply (reply : x.kind = 1) : s.slotSent r c x = s.sendReply r c x := (if_neg (by simp [reply])).trans (if_pos reply)

variable (notPoll : x.kind ≠ 0) (notReply : x.kind ≠ 1)
include notPoll notReply

theorem State.slotSent_none (none : s.refBody r x = none) : s.slotSent r c x = s := by
  rw [State.slotSent, if_neg notPoll, if_neg notReply, none]

theorem State.slotSent_ref {body : List Byte} (some : s.refBody r x = some body) : s.slotSent r c x =
    (s.sendRing r (s.mkFrame r c 4 0 0xFF body)).modRing r (fun y => { y with refSeq := (y.refSeq + 1) % 2 ^ 16 }) := by
  rw [State.slotSent, if_neg notPoll, if_neg notReply, some]

end

/-- What a poll marks of the pending parts: those it carries as sent, those it has no room for as left (R219). -/
def markSent (ps go : List Part) (p : Part) : Part :=
  if go.contains p then { p with sent := true, left := false } else if ps.contains p then { p with left := true } else p

theorem State.sendPoll_eq (s : State) (r c : Nat) (x : SchedEnt) :
    let a := s.settleNet r x.node
    let b := a.pollBody r x
    let v := a.sendRing r (a.mkFrame r c 2 (if b.1 then 32 else 0) x.node b.2.1)
    let d : State := { v with parts := v.parts.map (markSent b.2.2.1 b.2.2.2) }
    let late := b.2.2.2.filter (fun p => !p.sent && decide (p.commit < a.now + 10000))
    s.sendPoll r c x = if late = [] then d else (d.p (BZ_STAT_LATE r) 1).p (BZ_LATEREC_COUNT r) (d.g (BZ_LATEREC_COUNT r) + late.length) := by
  intro a b v d late
  have unfolded : s.sendPoll r c x = if late.isEmpty then d else (d.p (BZ_STAT_LATE r) 1).p (BZ_LATEREC_COUNT r) (d.g (BZ_LATEREC_COUNT r) + late.length) := rfl
  rw [unfolded]
  simp only [List.isEmpty_iff]

/-- The node shows whether its sync reply carries `SYNC` (R234). -/
def State.syncShown (s : State) (r : Nat) (x : SchedEnt) : State := if x.sync then s.pb (BZ_SYNCSTAT_SYNCTX r) (x.sync && s.syncTx r) else s

theorem State.sendReply_eq (s : State) (r c : Nat) (x : SchedEnt) :
    let b := s.syncShown r x
    let f := b.mkFrame r c 3 ((b.replyBody r c x).2 + if x.sync && s.syncTx r then 2 else 0) 0xFF (b.replyBody r c x).1
    s.sendReply r c x = if x.light && (b.replyBody r c x).2 == 4 then b.holdLight r f.bytes else b.sendRing r f := rfl

theorem State.syncShown_only (s : State) (r : Nat) (x : SchedEnt) : OnlyRegs s (s.syncShown r x) (regIn [BZ_SYNCSTAT_SYNCTX r]) :=
  OnlyRegs.ite ((OnlyRegs.refl s _).pb _ _ (regIn_head _ rfl)) (OnlyRegs.refl s _)

/-- A node sends `SYNC` on a ring in native mode only. -/
theorem State.native_of_syncTx {s : State} {r : Nat} (tx : s.syncTx r = true) : s.on (BZ_CTRL_MODE r) = false := by
  simp only [State.syncTx, Bool.and_eq_true, Bool.not_eq_true'] at tx
  exact tx.1

theorem State.sendReply_shows (s : State) (r c : Nat) (x : SchedEnt) : ∃ (b : State) (sync : Nat),
    let y := b.replyBody r c x
    let f := b.mkFrame r c 3 (y.2 + sync) 0xFF y.1
    OnlyRegs s b (regIn [BZ_SYNCSTAT_SYNCTX r]) ∧ (x.sync = false → b = s ∧ sync = 0) ∧ (sync = 2 → s.on (BZ_CTRL_MODE r) = false) ∧
    s.sendReply r c x = if x.light = true ∧ y.2 = 4 then b.holdLight r f.bytes else b.sendRing r f := by
  refine ⟨s.syncShown r x, if x.sync && s.syncTx r then 2 else 0, s.syncShown_only r x, fun plain => by simp [State.syncShown, plain], fun flagged => ?_, ?_⟩
  · by_contra compat
    have silent : s.syncTx r = false := Bool.eq_false_iff.2 fun tx => compat (State.native_of_syncTx tx)
    simp [silent] at flagged
  · rw [State.sendReply_eq]
    simp only [Bool.and_eq_true, beq_iff_eq]

/-! ### The macrocycle's measurement (R207, R208, R237, R244, R263) -/

/-- Any register but that of the controller's start (R249). -/
def notJoin (r : Nat) (a : Nat) : Prop := a ≠ (BZ_JOIN_PHASE r).reg

theorem devReg_notJoin (r n : Nat) : notJoin r (BZ_DEV_M r n).reg := by simp only [notJoin, BZ_DEV_M, BZ_JOIN_PHASE]; omega

theorem reg_notJoin (r : Ring) : notJoin r (BZ_OFFSET_O r).reg ∧ notJoin r (BZ_RATE_R r).reg ∧ notJoin r (BZ_SYNCSTAT_USED r).reg ∧
    notJoin r (BZ_SYNCEXCL_NODES r).reg ∧ notJoin r (BZ_CLOSE_NS r).reg ∧ notJoin r (BZ_REF_NODE r).reg := by
  simp only [notJoin]
  decide +revert

/-- A macrocycle's measurement leaves its registers, and whether there was one. -/
theorem State.showMeasure_eq (s : State) (r : Ring) : ∃ (u : State) (b : Bool), OnlyRegs s u (notJoin r) ∧
    s.showMeasure r = u.modRing r (fun x => { x with measured := b }) := by
  obtain ⟨offset, rate, sync, -⟩ := reg_notJoin r
  have devs (v : Nat → Nat) : OnlyRegs s ((List.range 16).foldl (fun s n => s.p (BZ_DEV_M r n) (v n)) s) (notJoin r) :=
    OnlyRegs.foldl (fun _ n h => h.p _ _ (devReg_notJoin r n)) (OnlyRegs.refl s _)
  unfold State.showMeasure
  dsimp only
  split
  · exact ⟨_, _, devs _, rfl⟩
  · split
    · exact ⟨_, _, ((devs _).p (BZ_SYNCSTAT_USED r) 0 sync).p (BZ_SYNCSTAT_SEEN r) 0 sync, rfl⟩
    · exact ⟨_, _, ((((devs _).p (BZ_OFFSET_O r) _ offset).p (BZ_RATE_R r) _ rate).p (BZ_SYNCSTAT_USED r) _ sync).p (BZ_SYNCSTAT_SEEN r) _ sync, rfl⟩

/-! ### The means of the Mark delays (R207, R208, R258) -/

/-- The macrocycle's means of d and D taken. -/
def State.meansTaken (s : State) (r : Nat) : State :=
  let x := s.ring r
  let s := if x.ds.isEmpty then s else s.modRing r (fun y => { y with d := meanNat x.ds, ds := [] })
  let s := if x.ownDs.isEmpty || x.skipMean then s else s.modRing r (fun y => { y with dd := some (meanNat x.ownDs) })
  s.modRing r (fun y => { y with ownDs := [], skipMean := false })

/-- A closing node's closure from the mean of D. -/
def State.closureMean (s : State) (r : Nat) (own : List Nat) : State :=
  match (s.ring r).dd with
  | some d => if s.on (BZ_STAT_CLOSING r) && !own.isEmpty && d ≤ 20000 then s.p (BZ_CLOSE_NS r) (20000 - d) else s
  | none => s

theorem State.meanDelay_eq (s : State) (r : Nat) : s.meanDelay r = ((s.meansTaken r).closureMean r (s.ring r).ownDs).showDelay r := rfl

theorem State.meansTaken_ring (s : State) (r : Nat) : ((s.meansTaken r).ring r).ds = [] ∧ ((s.meansTaken r).ring r).ownDs = [] ∧
    ((s.meansTaken r).ring r).exclNext = (s.ring r).exclNext ∧
    ((s.meansTaken r).ring r).d = if (s.ring r).ds = [] then (s.ring r).d else meanNat (s.ring r).ds := by
  unfold State.meansTaken
  dsimp only
  rw [State.ring_modRing_same]
  split_ifs <;> simp_all

theorem State.meansTaken_regs (s : State) (r : Nat) : (s.meansTaken r).regs = s.regs := by
  unfold State.meansTaken
  dsimp only
  split_ifs <;> simp

theorem State.closureMean_only (s : State) (r : Ring) (own : List Nat) : OnlyRegs s (s.closureMean r own) (notJoin r) := by
  obtain ⟨-, -, -, -, close, -⟩ := reg_notJoin r
  unfold State.closureMean
  split
  · exact OnlyRegs.ite (OnlyRegs.of_p s _ close) (OnlyRegs.refl s _)
  · exact OnlyRegs.refl s _

theorem State.showDelay_notJoin (s : State) (r : Ring) : OnlyRegs s (s.showDelay r) (notJoin r) := by
  refine (s.showDelay_only r).mono fun a h join => ?_
  simp only [regIn_cons, not_regIn_nil, or_false, join, BZ_JOIN_PHASE, BZ_POS_NS, BZ_MOFF_NS, BZ_MDELAY_NS] at h
  omega

theorem State.meanDelay_shows (s : State) (r : Ring) : RegsKeep s (s.meanDelay r) (notJoin r) ∧ (s.meanDelay r).ring r = (s.meansTaken r).ring r := by
  have closed := (s.meansTaken r).closureMean_only r (s.ring r).ownDs
  have shown := ((s.meansTaken r).closureMean r (s.ring r).ownDs).showDelay_notJoin r
  rw [State.meanDelay_eq]
  exact ⟨(((RegsKeep.refl s _).of_regs (s.meansTaken_regs r)).trans closed.2).trans shown.2, (shown.ring r).trans (closed.ring r)⟩

theorem State.chooseRef_only (s : State) (r : Ring) : OnlyRegs s (s.chooseRef r) (notJoin r) := by
  obtain ⟨-, -, -, -, -, ref⟩ := reg_notJoin r
  unfold State.chooseRef
  refine OnlyRegs.ite (OnlyRegs.refl s _) ?_
  split
  · exact ((OnlyRegs.of_p s _ ref).p (BZ_REF_RANK r) _ ref).p (BZ_REF_VALID r) _ ref
  · exact OnlyRegs.of_p s _ (f := BZ_REF_VALID r) ref

/-! ### The boundary of the macrocycle (R236 to R239, R249, R250) -/

/-- The macrocycle that ends, measured. -/
def State.macroMeasured (s : State) (r : Nat) : State := ((s.showMeasure r).meanDelay r).chooseRef r

theorem State.macroMeasured_shows (s : State) (r : Ring) : RegsKeep s (s.macroMeasured r) (notJoin r) ∧ ((s.macroMeasured r).ring r).ds = [] ∧
    ((s.macroMeasured r).ring r).ownDs = [] ∧ ((s.macroMeasured r).ring r).exclNext = (s.ring r).exclNext ∧
    ((s.macroMeasured r).ring r).d = if (s.ring r).ds = [] then (s.ring r).d else meanNat (s.ring r).ds := by
  obtain ⟨u, b, only, measured⟩ := s.showMeasure_eq r
  obtain ⟨keep, taken⟩ := (s.showMeasure r).meanDelay_shows r
  have chosen := ((s.showMeasure r).meanDelay r).chooseRef_only r
  have ring : (s.showMeasure r).ring r = { s.ring r with measured := b } := by rw [measured, State.ring_modRing_same, only.ring]
  have means := (s.showMeasure r).meansTaken_ring r
  rw [ring] at means
  rw [State.macroMeasured, chosen.ring, taken]
  exact ⟨((only.2.of_regs (by rw [measured, State.modRing_regs])).trans keep).trans chosen.2, means⟩

/-- The registers of the reference and of the excluded nodes at the boundary. -/
def State.presenceShown (s : State) (r : Nat) : State :=
  let x := s.ring r
  let present := s.g (BZ_JOIN_PHASE r) == 4 && (x.measured || x.held > 0)
  let o := if s.on (BZ_CTRL_MODE r) then sint32 (s.g (BZ_OFFSET_O r)) else sint32 (s.g (BZ_OFFSET_O r)) + x.corrNow
  let s := (s.pb (BZ_SYNCSTAT_PRESENT r) present).pb (BZ_SYNCSTAT_SETTLED r) (present && o ≤ 20 * 256 && o ≥ -20 * 256)
  let s := s.pb (BZ_SYNCSTAT_HOLD r) (x.held > 1)
  s.p (BZ_SYNCEXCL_NODES r) ((List.range 16).foldl (fun v n => if x.exclNext.contains n then v + 2 ^ n else v) 0)

/-- What a ring knows as the next macrocycle begins; `ranked` says that its configured rank is not 0. -/
def RingSt.macroShift (x : RingSt) (ranked : Bool) : RingSt := { x with
  devs := [], exclNow := x.exclNext, exclNext := [], held := x.held - 1, refSeen := none
  r0Wait := x.r0Wait - 1, corr := x.corrNow, corrNow := 0
  coldYield := x.coldYield || (x.rank0Act && x.r0Seen && ranked), r0Seen := false }

/-- The next macrocycle begun, before a node that has counted its Marks joins. -/
def State.macroShifted (s : State) (r : Nat) : State :=
  let a := s.macroMeasured r
  (a.presenceShown r).modRing r (fun x => x.macroShift ((a.presenceShown r).g (BZ_CTRL_RANK r) != 0))

/-- A node that has counted 50 Marks joins (R249). -/
def State.joinCounted (s : State) (r : Nat) : State := if s.g (BZ_JOIN_PHASE r) == 2 && s.g (BZ_JOIN_MARKS r) ≥ 50 then s.joinRing r else s

theorem exec_macrocycleBoundary (s : State) (r : Ring) :
    exec (.macrocycleBoundary r) s = .next (((((s.macroShifted r).joinCounted r).unfold r).unitMacro r).afterLoss s) := rfl

theorem State.macroShifted_keep (s : State) (r : Ring) : RegsKeep s (s.macroShifted r) (notJoin r) := by
  obtain ⟨-, -, sync, excl, -, -⟩ := reg_notJoin r
  have shown : OnlyRegs (s.macroMeasured r) ((s.macroMeasured r).presenceShown r) (notJoin r) :=
    ((((OnlyRegs.refl _ _).pb (BZ_SYNCSTAT_PRESENT r) _ sync).pb (BZ_SYNCSTAT_SETTLED r) _ sync).pb (BZ_SYNCSTAT_HOLD r) _ sync).p
      (BZ_SYNCEXCL_NODES r) _ excl
  exact ((s.macroMeasured_shows r).1.trans shown.2).of_regs (State.modRing_regs _ _ _)

theorem State.macroShifted_ring (s : State) (r : Nat) : ∃ ranked, (s.macroShifted r).ring r = ((s.macroMeasured r).ring r).macroShift ranked := by
  refine ⟨_, (State.ring_modRing_same _ _ _).trans (congrArg (RingSt.macroShift · _) ?_)⟩
  simp [State.presenceShown]

theorem State.joinCounted_counted {s : State} {r : Ring} (counts : s.g (BZ_JOIN_PHASE r) = 2) (marks : 50 ≤ s.g (BZ_JOIN_MARKS r)) :
    (s.joinCounted r).g (BZ_JOIN_PHASE r) = 4 ∧ (s.joinCounted r).g (BZ_STAT_STATE r) = 2 ∧ ((s.joinCounted r).ring r).transmitting = true := by
  rw [State.joinCounted, if_pos (by simp [counts, marks]), State.joinRing]
  clear counts marks
  simp (disch := decide +revert) only [State.g_modRing, State.g_p_off, State.g_p_fits, State.ring_modRing_same]
  trivial

theorem State.joinCounted_uncounted {s : State} {r : Nat} (h : ¬ (s.g (BZ_JOIN_PHASE r) = 2 ∧ 50 ≤ s.g (BZ_JOIN_MARKS r))) : s.joinCounted r = s :=
  if_neg (by simpa using h)

/-- Joining changes when the node sends, and nothing that the macrocycle's boundary sets. -/
theorem State.joinCounted_ring (s : State) (r : Nat) : ∃ transmitting since wait,
    (s.joinCounted r).ring r = { s.ring r with transmitting := transmitting, since := since, r0Wait := wait } := by
  unfold State.joinCounted State.joinRing
  split
  · exact ⟨_, _, _, by rw [State.ring_modRing_same, State.ring_p, State.ring_p]⟩
  · exact ⟨_, _, _, rfl⟩

/-- What the boundary of a macrocycle leaves, before an unfold. -/
theorem State.macroEnded_shows (s : State) (r : Ring) :
    let b := (s.macroShifted r).joinCounted r
    (b.ring r).devs = [] ∧ (b.ring r).exclNow = (s.ring r).exclNext ∧ (b.ring r).exclNext = [] ∧ (b.ring r).ds = [] ∧ (b.ring r).ownDs = [] ∧
    b.g (BZ_JOIN_PHASE r) = (if s.g (BZ_JOIN_PHASE r) = 2 ∧ 50 ≤ s.g (BZ_JOIN_MARKS r) then 4 else s.g (BZ_JOIN_PHASE r)) ∧
    (s.g (BZ_JOIN_PHASE r) = 2 → 50 ≤ s.g (BZ_JOIN_MARKS r) → b.g (BZ_STAT_STATE r) = 2 ∧ (b.ring r).transmitting = true) ∧
    (b.ring r).d = if (s.ring r).ds = [] then (s.ring r).d else meanNat (s.ring r).ds := by
  intro b
  obtain ⟨-, ds, ownDs, excl, d⟩ := s.macroMeasured_shows r
  obtain ⟨ranked, shifted⟩ := s.macroShifted_ring r
  obtain ⟨t, since, wait, ring⟩ := (s.macroShifted r).joinCounted_ring r
  have phase : (s.macroShifted r).g (BZ_JOIN_PHASE r) = s.g (BZ_JOIN_PHASE r) := (s.macroShifted_keep r).g (fun h => h rfl)
  have marks : (s.macroShifted r).g (BZ_JOIN_MARKS r) = s.g (BZ_JOIN_MARKS r) := (s.macroShifted_keep r).g (fun h => h rfl)
  have shown : (b.ring r).devs = [] ∧ (b.ring r).exclNow = (s.ring r).exclNext ∧ (b.ring r).exclNext = [] ∧ (b.ring r).ds = [] ∧ (b.ring r).ownDs = [] ∧
      (b.ring r).d = if (s.ring r).ds = [] then (s.ring r).d else meanNat (s.ring r).ds := by
    rw [show b.ring r = _ from ring, shifted]
    exact ⟨rfl, excl, rfl, ds, ownDs, d⟩
  obtain ⟨devs, exclNow, exclNext, ds', ownDs', d'⟩ := shown
  refine ⟨devs, exclNow, exclNext, ds', ownDs', ?_, fun counts fifty => ?_, d'⟩
  · by_cases joins : s.g (BZ_JOIN_PHASE r) = 2 ∧ 50 ≤ s.g (BZ_JOIN_MARKS r)
    · rw [if_pos joins]
      exact (State.joinCounted_counted (phase.trans joins.1) (marks.symm ▸ joins.2)).1
    · rw [if_neg joins, ← phase]
      exact congrArg (State.g · _) (State.joinCounted_uncounted (by rwa [phase, marks]))
  · exact (State.joinCounted_counted (phase.trans counts) (marks.symm ▸ fifty)).2

/-! ### The witness's verdict (R225, R385, R391, R401) -/

@[simp] theorem State.wit_modWit_same (s : State) (k : Nat) (f : WitSt → WitSt) : (s.modWit k f).wit k = f (s.wit k) := tabGet_tabSet_same _ _ _ _

theorem State.showVerdict_wit (s : State) (w v k : Nat) : (s.showVerdict w v).wit k = s.wit k := rfl

theorem State.showVerdict_verdict (s : State) (w : Fin 4) (v : Nat) : (s.showVerdict w v).g (UN_WSTAT_VERDICT w) = v % 2 ^ (UN_WSTAT_VERDICT w).w := by
  simp (disch := decide +revert) only [State.showVerdict, State.g_pb_off, State.g_p_off, State.g_p_same]

/-- A backup's state after it repeats the witness's record. -/
def State.verdictRepeated (s : State) (w : Nat) (rec : List Byte) : State :=
  s.modWit w (fun x => { x with
    verdict := some rec, lseq := beAt rec 4 4, expect := (beAt rec 4 4 + 1) % 2 ^ 32
    grant := if byteAt rec 2 == 2 && beAt rec 8 4 == (s.witCycle + 40000) % 2 ^ 32 then some (byteAt rec 3, beAt rec 4 4, s.witCycle) else x.grant
    holder := if byteAt rec 2 == 3 then none else some (byteAt rec 3)
    former := if byteAt rec 3 == 0xFF then x.former else some (byteAt rec 3) })

/-- The witness's state after a verdict of its own, shown. -/
def State.verdictGiven (s : State) (w : Nat) : State :=
  let v := s.verdict w
  (s.modWit w (fun _ => { v.2.2.2.2 with verdict := some (watchBytes (s.g (UN_WUNIT_UNIT w)) v.1 v.2.1 v.2.2.1 v.2.2.2.1) })).showVerdict w v.1

theorem State.witCycle_of_rings {s t : State} (rings : SameRings s t) (now : t.now = s.now) : t.witCycle = s.witCycle := by
  obtain ⟨ring, regs⟩ := rings
  have en : t.on (BZ_CTRL_EN 0) = s.on (BZ_CTRL_EN 0) := by rw [State.on, regs _ (by decide)]; rfl
  have state (r : Nat) : t.g (BZ_STAT_STATE r) = s.g (BZ_STAT_STATE r) := regs _ (by simp only [BZ_STAT_STATE]; omega)
  unfold State.witCycle State.witRing State.txD State.isMaster
  rw [en, now, state, ring]

/-- A verdict leaves the witness's reference. -/
theorem State.witCycle_verdictGiven (s : State) (w : Fin 4) : ((s.verdictGiven w).inc (UN_WGRANT_COUNT w)).witCycle = s.witCycle := by
  have low (f : Fld) (h : f.reg < 0x50000000) {t : State} (rings : SameRings s t ∧ t.now = s.now) (v : Nat) : SameRings s (t.p f v) ∧ (t.p f v).now = s.now := by
    refine ⟨rings.1.p (by omega) v, ?_⟩
    rw [State.now, State.g_p_reg _ _ (by simp only [TU_ERA_ERA]; omega), State.g_p_reg _ _ (by simp only [TU_NS_NS]; omega)]
    exact rings.2
  have start (f : WitSt → WitSt) : SameRings s (s.modWit w f) ∧ (s.modWit w f).now = s.now :=
    ⟨⟨fun r => by unfold State.ring; split <;> rfl, fun _ _ => rfl⟩, rfl⟩
  obtain ⟨rings, now⟩ := low (UN_WGRANT_COUNT w) (by clear * -; decide +revert) (low (UN_WSTAT_HELD w) (by clear * -; decide +revert)
    (low (UN_WSTAT_HOLDER w) (by clear * -; decide +revert) (low (UN_WLSEQ_LSEQ w) (by clear * -; decide +revert)
      (low (UN_WSTAT_VERDICT w) (by clear * -; decide +revert) (start _) _) _) _) _) _
  exact State.witCycle_of_rings rings now

section
variable {s : State} {w : Fin 4} (valid : s.on (UN_WUNIT_VALID w) = true)
include valid

/-- A witness of a unit that it has not yet followed for two basic cycles gives no verdict. -/
theorem exec_watchVerdict_learns (learns : (s.wit w).cycles < 2) :
    exec (.watchVerdict w) s = .next ((s.modWit w (fun x => { x with verdict := none })).showVerdict w 0) :=
  (if_neg (by simp [valid])).trans (if_pos learns)

variable (follows : 2 ≤ (s.wit w).cycles)
include follows

/-- A backup that has heard the witness repeats its record (R391). -/
theorem exec_watchVerdict_repeats (backup : s.on (UN_WUNIT_BACKUP w) = true) {rec : List Byte} (heard : (s.wit w).heard = some rec) :
    exec (.watchVerdict w) s = .next ((s.verdictRepeated w rec).showVerdict w (byteAt rec 2)) := by
  show execWatchVerdict w s = _
  unfold execWatchVerdict
  dsimp only
  rw [if_neg (by simp [valid]), if_neg (Nat.not_lt.2 follows), if_pos backup, heard]
  rfl

theorem watchVerdict_repeats (backup : s.on (UN_WUNIT_BACKUP w) = true) {rec : List Byte} (heard : (s.wit w).heard = some rec) :
    Gives (.watchVerdict w) s (fun t => (t.wit w).verdict = some rec ∧ (t.wit w).lseq = beAt rec 4 4 ∧
      (t.wit w).expect = (beAt rec 4 4 + 1) % 2 ^ 32 ∧ (t.wit w).holder = (if byteAt rec 2 = 3 then none else some (byteAt rec 3)) ∧
      t.g (UN_WSTAT_VERDICT w) = byteAt rec 2 % 2 ^ (UN_WSTAT_VERDICT w).w) := by
  have verdict := (s.verdictRepeated w rec).showVerdict_verdict w (byteAt rec 2)
  refine ⟨_, exec_watchVerdict_repeats valid follows backup heard, ?_, ?_, ?_, ?_, verdict⟩
  all_goals rw [State.showVerdict_wit, State.verdictRepeated, State.wit_modWit_same]
  simp only [beq_iff_eq]

/-- Any other witness decides by R385; a fresh grant is counted and recorded. -/
theorem exec_watchVerdict_decides (alone : s.on (UN_WUNIT_BACKUP w) = false ∨ (s.wit w).heard = none) : exec (.watchVerdict w) s =
    if (s.verdict w).1 = 2 ∧ (s.verdict w).2.2.2.1 = s.witCycle + 40000 then
      .next (((s.verdictGiven w).inc (UN_WGRANT_COUNT w)).event 5 {
        source := 0x0204, code := 3, cls := 0xFF, data := leBytes 4 (s.verdict w).2.2.1 ++ leBytes 4 ((s.witCycle + 21000) % 2 ^ 32) })
    else .next (s.verdictGiven w) := by
  have unheard : (if s.on (UN_WUNIT_BACKUP w) = true then (s.wit w).heard else none) = none := by
    rcases alone with witness | silent
    · rw [if_neg (by simp [witness])]
    · rw [silent, ite_self]
  show execWatchVerdict w s = _
  unfold execWatchVerdict
  dsimp only
  rw [if_neg (by simp [valid]), if_neg (Nat.not_lt.2 follows), unheard]
  simp only [Bool.and_eq_true, beq_iff_eq]
  refine if_congr Iff.rfl ?_ rfl
  rw [← s.witCycle_verdictGiven w]
  rfl

end

/-- A renewal that the witness met gives verdict 1 (R385). -/
theorem State.verdict_met {s : State} {w n : Nat} (met : (s.wit w).met = some n) :
    (s.verdict w).1 = 1 ∧ (s.verdict w).2.2.1 = n ∧ (s.verdict w).2.2.2.2.expect = (n + 1) % 2 ^ 32 := by
  unfold State.verdict
  dsimp only
  rw [met]
  exact ⟨rfl, rfl, rfl⟩

end Sys2Proof.Machine

/-! SUPPORT. A ring's reception (R206, R209, R214, R218, R221, R223, R235, R241 to R249, R527): what goes on, what a controller takes of a frame. -/

namespace Sys2Proof.Machine
open Sys2Proof.Safety

/-! ### Forwarding (R206, R209, R527) -/

theorem State.forward_held {s : State} {r : Nat} (held : s.heldPort (0x10 + 2 * r) = true ∨ s.heldPort (0x11 + 2 * r) = true)
    (f : Option RFrame) (raw : List Byte) (t : Nat) : s.forward r f raw t = s := if_pos (by simpa using held)

/-- A frame discarded in a slot of the node's own is counted and shown. -/
def State.wrapDropped (s : State) (r : Nat) : State := (s.p (BZ_STAT_WRAP r) 1).inc (BZ_WRAPDROP_COUNT r)

theorem State.wrapDropped_shows (s : State) (r : Ring) : (s.wrapDropped r).g (BZ_WRAPDROP_COUNT r) = (s.g (BZ_WRAPDROP_COUNT r) + 1) % 2 ^ 32 ∧
    (s.wrapDropped r).g (BZ_STAT_WRAP r) = 1 ∧ OnlyRegs s (s.wrapDropped r) (regIn [BZ_STAT_WRAP r, BZ_WRAPDROP_COUNT r]) := by
  refine ⟨?_, ?_, (OnlyRegs.of_p s 1 (regIn_head _ rfl)).p (BZ_WRAPDROP_COUNT r) _ ⟨BZ_WRAPDROP_COUNT r, by simp, rfl⟩⟩
  · rw [State.wrapDropped, State.g_inc_same _ (by clear * -; decide +revert), State.g_p_off _ _ (by clear * -; decide +revert)]
    rfl
  · rw [State.wrapDropped, State.g_inc_off _ (by clear * -; decide +revert)]
    exact State.g_p_fits _ (by clear * -; decide +revert)

section
variable {s : State} {r t : Nat} (free : s.heldPort (0x10 + 2 * r) = false) (free' : s.heldPort (0x11 + 2 * r) = false)
include free free'

theorem State.forward_slot (own : s.inOwnSlot r t = true) (f : RFrame) (raw : List Byte) :
    s.forward r (some f) raw t = if f.src = s.nodeId r then s else s.wrapDropped r := by
  unfold State.forward
  rw [if_neg (by simp [free, free']), if_pos own]
  simp only [beq_iff_eq]
  rfl

variable (other : s.inOwnSlot r t = false)
include other

theorem State.forward_frame (f : RFrame) (raw : List Byte) : s.forward r (some f) raw t =
    if (f.src = s.nodeId r ∧ s.on (BZ_CTRL_EN r) = true) ∨ f.ttl ≤ 1 then s else s.emit (.ringFrame r (s.outPort r) (lessTtl raw)) := by
  unfold State.forward
  rw [if_neg (by simp [free, free']), if_neg (by simp [other])]
  simp only [Bool.or_eq_true, Bool.and_eq_true, beq_iff_eq, decide_eq_true_eq]

/-- What cannot be read as a frame goes on as it is. -/
theorem State.forward_unread (raw : List Byte) : s.forward r none raw t = s.emit (.ringFrame r (s.outPort r) raw) := by
  unfold State.forward
  rw [if_neg (by simp [free, free']), if_neg (by simp [other])]

end

/-! ### What a controller takes (R206, R230) -/

theorem exec_next_eq {c : Instr} {s t u : State} (h : exec c s = .next t) (e : t = u) : exec c s = .next u := h.trans (congrArg Host.Outcome.next e)

theorem State.arrival_takes (s : State) (r : Nat) (port : RPort) (raw : List Byte) (stamp : Nat) :
    (s.arrival r port raw stamp).takes = true ↔ s.g (BZ_STAT_STATE r) ≠ 0 ∧ port = s.rxPort r := by
  simp [State.arrival]

/-- A controller takes a Mark (R207, R214, R246 to R249). -/
def State.markTaken (s : State) (r : Nat) (a : RingArr) : State :=
  match a.f with
  | none => if (s.ring r).cold then (s.rejectFrame r none a.t).coldMeets r none a.t a.stamp else s.rejectFrame r none a.t
  | some f =>
    if f.src == s.nodeId r then
      if f.crcOk then if s.headOk r f && f.ty == 1 && a.stamped then s.ownMarkBack r f a.t a.stamp else s
      else if (s.ring r).cold then (s.rejectFrame r (some f) a.t).coldCollide r
      else if bit f.flags 4 then
        (s.rejectFrame r (some f) a.t).modCyc r (bcStart (a.t - ((s.rejectFrame r (some f) a.t).ring r).d)) (fun y => { y with corrupted := true })
      else s.rejectFrame r (some f) a.t
    else if (s.ring r).cold then (if s.headOk r f && s.inTime r f a.t then s else s.rejectFrame r (some f) a.t).coldMeets r (some f) a.t a.stamp
    else if s.g (BZ_JOIN_PHASE r) == 1 then s.firstMark r f a
    else s.otherMark r f a

/-- A controller takes a frame of another type (R214, R248): `take` says what an accepted one brings. -/
def State.dataTaken (s : State) (r ty : Nat) (a : RingArr) (take : RFrame → Nat → Nat → SchedEnt → State) : State :=
  if s.isOwn r a then s
  else if (s.ring r).cold then s.coldFrame r a
  else match s.answers r ty a with
  | none => s.refuse r a.f a.t
  | some (f, c, b, x) => take f c b x

/-- An accepted poll (R218, R221). -/
def State.pollTaken (s : State) (r : Nat) (f : RFrame) (a : RingArr) : State :=
  let c := s.inc (BZ_RXOK_COUNT r)
  if f.dst != c.nodeId r then c
  else
    let d := c.modRing r (fun x => { x with polled := some a.t })
    if bit f.flags 5 then d else (d.takeRecs r (pollRecs 512 f.body)).modRing r (fun x => x.settle d.now)

/-- An accepted reference message (R243). -/
def State.refTaken (s : State) (r : Nat) (f : RFrame) (c : Nat) (a : RingArr) : State :=
  if f.len == 24 && (s.inc (BZ_RXOK_COUNT r)).on (BZ_CTRL_MODE r) then (s.inc (BZ_RXOK_COUNT r)).takeRef r f c a else s.inc (BZ_RXOK_COUNT r)

/-- A reference message as the port logic sends it on, and what it brings. -/
def State.passRef (s : State) (r : Nat) (port : RPort) (raw : List Byte) (a : RingArr) : State :=
  s.passFrame r port (s.addPath r (if port = s.rxPort r then s.outPort r else 1) raw) a

section
variable {s : State} {r : Ring} {port : RPort} {frame : List Byte} {stamp : Nat}

/-- An Off controller, or the other port, takes nothing for processing. -/
theorem exec_receive_passed (off : (s.arrival r port frame stamp).takes = false) :
    let a := s.arrival r port frame stamp
    let b := s.passFrame r port frame a
    exec (.markReceive r port frame stamp) s = .next b ∧ exec (.pollReceive r port frame stamp) s = .next b ∧
    exec (.replyReceive r port frame stamp) s = .next b ∧ exec (.referenceMessageReceive r port frame stamp) s = .next (s.passRef r port frame a) := by
  refine ⟨if_pos (by simp [off]), if_pos (by simp [off]), if_pos (by simp [off]), (if_pos (by simp [off])).trans ?_⟩
  simp only [State.passRef, beq_iff_eq]

variable (takes : (s.arrival r port frame stamp).takes = true)
include takes

theorem exec_markReceive_taken : exec (.markReceive r port frame stamp) s =
    .next ((s.passFrame r port frame (s.arrival r port frame stamp)).markTaken r (s.arrival r port frame stamp)) := by
  show execMarkReceive r port frame stamp s = _
  unfold execMarkReceive State.markTaken
  dsimp only
  rw [if_neg (by simp [takes])]
  generalize s.passFrame r port frame (s.arrival r port frame stamp) = b
  generalize s.arrival r port frame stamp = a
  cases a.f with
  | none => rfl
  | some f => dsimp only; split_ifs <;> rfl

theorem exec_pollReceive_taken : exec (.pollReceive r port frame stamp) s =
    let a := s.arrival r port frame stamp
    let b := s.passFrame r port frame a
    .next (b.dataTaken r 2 a (fun f _ _ _ => b.pollTaken r f a)) := by
  show execPollReceive r port frame stamp s = _
  unfold execPollReceive State.dataTaken State.pollTaken
  dsimp only
  rw [takes, Bool.not_true, Bool.false_or]
  generalize s.passFrame r port frame (s.arrival r port frame stamp) = b
  generalize s.arrival r port frame stamp = a
  cases b.answers r 2 a with
  | none => dsimp only; split_ifs <;> rfl
  | some e => dsimp only; split_ifs <;> rfl

theorem exec_replyReceive_taken : exec (.replyReceive r port frame stamp) s =
    let a := s.arrival r port frame stamp
    let b := s.passFrame r port frame a
    .next (b.dataTaken r 3 a (fun f c n x => b.takeReply r f c n x a)) := by
  show execReplyReceive r port frame stamp s = _
  unfold execReplyReceive State.dataTaken
  dsimp only
  rw [takes, Bool.not_true, Bool.false_or]
  generalize s.passFrame r port frame (s.arrival r port frame stamp) = b
  generalize s.arrival r port frame stamp = a
  cases b.answers r 3 a with
  | none => dsimp only; split_ifs <;> rfl
  | some e => dsimp only; split_ifs <;> rfl

theorem exec_referenceMessageReceive_taken : exec (.referenceMessageReceive r port frame stamp) s =
    let a := s.arrival r port frame stamp
    let q := s.passRef r port frame a
    .next (q.dataTaken r 4 a (fun f c _ _ => q.refTaken r f c a)) := by
  have passed (a : RingArr) : s.passFrame r port (s.addPath r (if port == s.rxPort r then s.outPort r else 1) frame) a = s.passRef r port frame a := by
    simp only [State.passRef, beq_iff_eq]
  show execReferenceMessageReceive r port frame stamp s = _
  unfold execReferenceMessageReceive State.dataTaken State.refTaken
  dsimp only
  rw [takes, Bool.not_true, Bool.false_or, passed]
  generalize s.passRef r port frame (s.arrival r port frame stamp) = b
  generalize s.arrival r port frame stamp = a
  cases b.answers r 4 a with
  | none => dsimp only; split_ifs <;> rfl
  | some e => dsimp only; split_ifs <;> rfl

end

/-! ### A Mark taken (R207, R214, R246 to R249) -/

section
variable {s : State} {r : Nat} {a : RingArr} {f : RFrame}

theorem State.markTaken_unread (unread : a.f = none) (warm : (s.ring r).cold = false) : s.markTaken r a = s.rejectFrame r none a.t := by
  rw [State.markTaken, unread]
  exact if_neg (by simp [warm])

variable (read : a.f = some f)
include read

/-- The node's own Mark. -/
theorem State.markTaken_own (crc : f.crcOk = true) (own : f.src = s.nodeId r) :
    s.markTaken r a = if s.headOk r f = true ∧ f.ty = 1 ∧ a.stamped = true then s.ownMarkBack r f a.t a.stamp else s := by
  rw [State.markTaken, read]
  refine (if_pos (by simp [own])).trans ((if_pos crc).trans ?_)
  simp only [Bool.and_eq_true, beq_iff_eq, and_assoc]

variable (other : f.src ≠ s.nodeId r)
include other

theorem State.markTaken_cold (cold : (s.ring r).cold = true) : s.markTaken r a =
    (if s.headOk r f = true ∧ s.inTime r f a.t = true then s else s.rejectFrame r (some f) a.t).coldMeets r (some f) a.t a.stamp := by
  rw [State.markTaken, read]
  refine (if_neg (by simp [other])).trans ((if_pos cold).trans ?_)
  simp only [Bool.and_eq_true]

variable (warm : (s.ring r).cold = false)
include warm

theorem State.markTaken_listening (listens : s.g (BZ_JOIN_PHASE r) = 1) : s.markTaken r a = s.firstMark r f a := by
  rw [State.markTaken, read]
  exact (if_neg (by simp [other])).trans ((if_neg (by simp [warm])).trans (if_pos (by simp [listens])))

theorem State.markTaken_following (follows : s.g (BZ_JOIN_PHASE r) ≠ 1) : s.markTaken r a = s.otherMark r f a := by
  rw [State.markTaken, read]
  exact (if_neg (by simp [other])).trans ((if_neg (by simp [warm])).trans (if_neg (by simpa using follows)))

end

/-- Does a Mark pass the first four items of R214, so that a listening node begins to count (R249)? -/
def State.startsCount (s : State) (r : Nat) (f : RFrame) (a : RingArr) : Prop :=
  s.headOk r f = true ∧ f.ty = 1 ∧ byteAt f.body 3 ≤ 1 ∧ a.stamped = true ∧ (s.mode = mSynchronising ∨ s.inTime r f a.t = true)

theorem State.startsCount_iff (s : State) (r : Nat) (f : RFrame) (a : RingArr) :
    (s.headOk r f && f.ty == 1 && byteAt f.body 3 ≤ 1 && a.stamped && (s.mode == mSynchronising || s.inTime r f a.t)) = true ↔ s.startsCount r f a := by
  simp [State.startsCount, and_assoc]

theorem State.firstMark_counts {s : State} {r : Nat} {f : RFrame} {a : RingArr} (starts : s.startsCount r f a) :
    s.firstMark r f a = s.enterCounting r f a.t a.stamp := if_pos ((s.startsCount_iff r f a).2 starts)

theorem State.firstMark_refused {s : State} {r : Nat} {f : RFrame} {a : RingArr} (fails : ¬ s.startsCount r f a) :
    s.firstMark r f a = s.refuse r (some f) a.t := if_neg (mt (s.startsCount_iff r f a).1 fails)

/-! ### Polls, replies and reference messages taken (R214, R248) -/

section
variable {s : State} {r ty : Nat} {a : RingArr} {f : RFrame} {take : RFrame → Nat → Nat → SchedEnt → State}

theorem State.dataTaken_unread (unread : a.f = none) (warm : (s.ring r).cold = false) : s.dataTaken r ty a take = s.rejectFrame r none a.t := by
  rw [State.dataTaken, if_neg (by simp [State.isOwn, unread]), if_neg (by simp [warm]), State.answers, unread]
  rfl

variable (read : a.f = some f)
include read

/-- A frame of the node's own has only come back. -/
theorem State.dataTaken_own (crc : f.crcOk = true) (own : f.src = s.nodeId r) : s.dataTaken r ty a take = s :=
  if_pos (by simp [State.isOwn, read, crc, own])

variable (other : f.src ≠ s.nodeId r)
include other

theorem State.dataTaken_cold (cold : (s.ring r).cold = true) : s.dataTaken r ty a take = s.coldFrame r a :=
  (if_neg (by simp [State.isOwn, read, other])).trans (if_pos cold)

variable (warm : (s.ring r).cold = false)
include warm

theorem State.dataTaken_refused (fails : ¬ (f.ty = ty ∧ a.stamped = true ∧ (s.accepted r f a.t).isSome = true)) :
    s.dataTaken r ty a take = s.refuse r (some f) a.t := by
  have unanswered : s.answers r ty a = none := by
    simp only [State.answers, read]
    split
    · have : s.accepted r f a.t = none := by simp_all
      rw [this]
      rfl
    · rfl
  rw [State.dataTaken, if_neg (by simp [State.isOwn, read, other]), if_neg (by simp [warm]), unanswered, read]

theorem State.dataTaken_accepted (kind : f.ty = ty) (stamped : a.stamped = true) {c b : Nat} {x : SchedEnt} (ok : s.accepted r f a.t = some (c, b, x)) :
    s.dataTaken r ty a take = take f c b x := by
  have answered : s.answers r ty a = some (f, c, b, x) := by simp [State.answers, read, kind, stamped, ok]
  rw [State.dataTaken, if_neg (by simp [State.isOwn, read, other]), if_neg (by simp [warm]), answered]

end

/-! ### A poll's records (R218, R221) -/

theorem State.now_lateAt (s : State) : (s.lateAt 2).now = s.now := by
  have kept (f : Fld) (off : ¬ recPage f.reg) : (s.lateAt 2).g f = s.g f := State.notice_g _ _ _ _ _ (by decide) f off
  rw [State.now, kept _ (by simp [recPage, TU_ERA_ERA]), kept _ (by simp [recPage, TU_NS_NS])]
  rfl

@[simp] theorem State.now_takeRec (s : State) (r : Nat) (y : Bool × Nat × Nat × List Byte) : (s.takeRec r y).now = s.now := by
  unfold State.takeRec
  dsimp only
  split_ifs
  · exact State.now_modRing _ _ _
  · rw [State.now_lateAt, State.now_modRing]
  · exact State.now_modRing _ _ _

theorem State.now_takeRecs (s : State) (r : Nat) (ys : List (Bool × Nat × Nat × List Byte)) : (s.takeRecs r ys).now = s.now := by
  unfold State.takeRecs
  induction ys generalizing s with
  | nil => rfl
  | cons y ys ih => rw [List.foldl_cons, ih, State.now_takeRec]

theorem State.pollTaken_eq (s : State) (r : Nat) (f : RFrame) (a : RingArr) :
    let c := s.inc (BZ_RXOK_COUNT r)
    let d := c.modRing r (fun x => { x with polled := some a.t })
    s.pollTaken r f a = if f.dst ≠ c.nodeId r then c else if bit f.flags 5 = true then d
      else (d.takeRecs r (pollRecs 512 f.body)).modRing r (fun x => x.settle (d.takeRecs r (pollRecs 512 f.body)).now) := by
  intro c d
  rw [State.now_takeRecs]
  simp only [State.pollTaken, bne_iff_ne]
  rfl

/-! ### An accepted reply (R222, R223, R235, R250) -/

/-- Two states hold the same replies of a ring and have taken as many frames from it. -/
def SameReplies (r : Nat) (s t : State) : Prop := (t.ring r).replies = (s.ring r).replies ∧ t.g (BZ_RXOK_COUNT r) = s.g (BZ_RXOK_COUNT r)

theorem SameReplies.refl (r : Nat) (s : State) : SameReplies r s s := ⟨rfl, rfl⟩

theorem SameReplies.trans {r : Nat} {a b c : State} (h : SameReplies r a b) (k : SameReplies r b c) : SameReplies r a c :=
  ⟨k.1.trans h.1, k.2.trans h.2⟩

theorem SameReplies.p {r : Nat} {s t : State} (h : SameReplies r s t) {f : Fld} (off : (BZ_RXOK_COUNT r).reg ≠ f.reg) (v : Nat) : SameReplies r s (t.p f v) :=
  ⟨(congrArg RingSt.replies (t.ring_p f v r)).trans h.1, (t.g_p_reg v off).trans h.2⟩

theorem SameReplies.modRing {r : Nat} {s t : State} (h : SameReplies r s t) {g : RingSt → RingSt} (kept : ∀ x, (g x).replies = x.replies) :
    SameReplies r s (t.modRing r g) := by
  refine ⟨?_, (t.g_modRing r g _).trans h.2⟩
  rw [State.ring_modRing_same, kept, h.1]

theorem SameReplies.of_rings {r : Nat} {s t u : State} (h : SameReplies r s t) (k : SameRings t u) : SameReplies r s u :=
  h.trans ⟨congrArg RingSt.replies (k.1 r), k.2 _ (by simp only [BZ_RXOK_COUNT]; omega)⟩

/-- A capture writes the time unit's registers. -/
theorem State.capture_rings (s : State) {n : Nat} (chan : n < 16) (stamp : Nat) : SameRings s (s.capture n stamp) := by
  unfold State.capture
  split
  · have low (f : Fld) (h : f.reg < 0x50000000 + 0x10000) {t : State} (k : SameRings s t) (v : Nat) : SameRings s (t.p f v) := k.p h v
    have time (v w : Nat) : SameRings s ((s.p (TU_CAP_NS n) v).p (TU_CAPERA_ERA n) w) :=
      ((SameRings.refl s).p (by simp only [TU_CAP_NS]; omega) v).p (by simp only [TU_CAPERA_ERA]; omega) w
    have status {t : State} (k : SameRings s t) : SameRings s (((t.inc (TU_CAPSTAT_COUNT n)).p (TU_CAPSTAT_VALID n) 1).p (TU_CAPSTAT_STEPPED n) 0) :=
      ((k.p (f := TU_CAPSTAT_COUNT n) (by simp only [TU_CAPSTAT_COUNT]; omega) _).p (by simp only [TU_CAPSTAT_VALID]; omega) 1).p
        (by simp only [TU_CAPSTAT_STEPPED]; omega) 0
    have kept {t : State} (e : CapEnt) : SameRings t (t.capKeep n e) := ⟨fun r => by unfold State.ring State.capKeep; split <;> rfl, fun _ _ => rfl⟩
    exact (status (time _ _)).trans (kept _)
  · exact SameRings.refl s

theorem State.captureSrc_rings (s : State) (src node : Nat) (rising : Bool) (stamp : Nat) : SameRings s (s.captureSrc src node rising stamp) := by
  unfold State.captureSrc
  refine List.foldlRecOn (motive := SameRings s) _ _ (SameRings.refl s) fun t kept n chan => ?_
  dsimp only
  split
  · exact kept.trans (t.capture_rings (List.mem_range.1 chan) stamp)
  · exact kept

theorem State.keepReply_shows (s : State) (r n b : Nat) (body : List Byte) :
    (tabGet (fun _ => []) ((s.keepReply r n b body).ring r).replies n : List (Nat × List Byte)).head? = some (b, body) ∧
    (s.keepReply r n b body).g (BZ_RXOK_COUNT r) = s.g (BZ_RXOK_COUNT r) := by
  refine ⟨?_, State.g_modRing _ _ _ _⟩
  rw [State.keepReply, State.ring_modRing_same, tabGet_tabSet_same]
  rfl

theorem State.lateReply_replies (s : State) (r : Nat) (n b : Nat) : SameReplies r s (s.lateReply r n b) := by
  unfold State.lateReply
  split
  · exact (SameReplies.refl r s).p (by simp only [BZ_RXOK_COUNT, BZ_NOREPLY_COUNT]; omega) _
  · exact SameReplies.refl r s

theorem State.exclSync_replies (s : State) (r n : Nat) : SameReplies r s (s.exclSync r n) := by
  unfold State.exclSync
  split
  · exact ((SameReplies.refl r s).modRing (by intro; rfl)).p (by simp only [BZ_RXOK_COUNT, BZ_SYNCEXCL_NODES]; omega) _
  · exact SameReplies.refl r s

theorem State.takeDev_replies (s : State) (r node c : Nat) (d : Int) : SameReplies r s (s.takeDev r node c d) := by
  unfold State.takeDev
  split_ifs
  · exact SameReplies.refl r s
  · exact ((SameReplies.refl r s).p (by simp only [BZ_RXOK_COUNT, BZ_SYNCREJ_COUNT]; omega) _).trans (State.exclSync_replies _ r node)
  · exact (SameReplies.refl r s).modRing (by intro; rfl)

/-- A reply kept, and its arrival captured. -/
def State.replyCaptured (s : State) (r : Nat) (f : RFrame) (b : Nat) (x : SchedEnt) (a : RingArr) : State :=
  ((((s.inc (BZ_RXOK_COUNT r)).keepReply r f.src b f.body).lateReply r f.src b).modRing r (fun y => { y with got := (b, x.e) :: y.got })).captureSrc
    (0x22 + r) f.src true a.stamp

/-- The deviation that a sync reply gives (R235). -/
def State.replyDev (s : State) (r : Nat) (f : RFrame) (c : Nat) (x : SchedEnt) (a : RingArr) : State :=
  if bit f.flags 1 && x.sync && !s.on (BZ_CTRL_MODE r) then s.takeDev r f.src c (s.deviation r c x.off a.t) else s

/-- What a reply says of rank 0 and of the Light (R250). -/
def State.replyClaims (s : State) (r : Nat) (f : RFrame) (x : SchedEnt) : State :=
  s.modRing r (fun y => { y with
    r0Seen := y.r0Seen || (s.on (BZ_SYNCCFG_R0VALID r) && f.src == s.g (BZ_SYNCCFG_R0NODE r))
    coldYield := y.coldYield || (y.rank0Act && s.on (BZ_CTRL_LRANK r) && s.g (BZ_CTRL_RANK r) != 0 && s.claimsLight r f.src x.light x.watch f.flags f.body) })

theorem State.takeReply_eq (s : State) (r : Nat) (f : RFrame) (c b : Nat) (x : SchedEnt) (a : RingArr) : s.takeReply r f c b x a =
    (((s.replyCaptured r f b x a).replyDev r f c x a).replyClaims r f x).unitReply r f.src x.light x.watch f.flags f.body b (a.t + (18 + f.len) * 8) := rfl

/-- Before the unit's records are read, the reply is held for its node and counted. -/
theorem State.takeReply_shows (s : State) (r : Ring) (f : RFrame) (c b : Nat) (x : SchedEnt) (a : RingArr) : ∃ d : State,
    s.takeReply r f c b x a = d.unitReply r f.src x.light x.watch f.flags f.body b (a.t + (18 + f.len) * 8) ∧
    (tabGet (fun _ => []) (d.ring r).replies f.src : List (Nat × List Byte)).head? = some (b, f.body) ∧
    d.g (BZ_RXOK_COUNT r) = (s.g (BZ_RXOK_COUNT r) + 1) % 2 ^ 32 := by
  obtain ⟨held, counted⟩ := (s.inc (BZ_RXOK_COUNT r)).keepReply_shows r f.src b f.body
  have captured : SameReplies r ((s.inc (BZ_RXOK_COUNT r)).keepReply r f.src b f.body) (s.replyCaptured r f b x a) :=
    ((State.lateReply_replies _ r f.src b).modRing (by intro; rfl)).of_rings (State.captureSrc_rings _ _ _ _ _)
  have deviated : SameReplies r (s.replyCaptured r f b x a) ((s.replyCaptured r f b x a).replyDev r f c x a) := by
    unfold State.replyDev
    split
    · exact State.takeDev_replies _ _ _ _ _
    · exact SameReplies.refl r _
  have claimed (t : State) : SameReplies r t (t.replyClaims r f x) := (SameReplies.refl r t).modRing (by intro; rfl)
  obtain ⟨replies, count⟩ := (captured.trans deviated).trans (claimed _)
  refine ⟨_, s.takeReply_eq r f c b x a, ?_, ?_⟩
  · rw [replies]
    exact held
  · exact count.trans (counted.trans (s.g_inc_same (by clear * -; decide +revert)))

/-! ### An accepted reference message (R241 to R244) -/

@[simp] theorem State.takeRef_regs (s : State) (r : Nat) (f : RFrame) (c : Nat) (a : RingArr) : (s.takeRef r f c a).regs = s.regs := by
  unfold State.takeRef
  dsimp only
  split <;> simp

theorem State.takeRef_ring (s : State) (r : Nat) (f : RFrame) (c : Nat) (a : RingArr) :
    tabGet (fun _ => 0) ((s.takeRef r f c a).ring r).refQuiet (byteAt f.body 0) = s.now ∧ ((s.takeRef r f c a).ring r).refSeen.isSome = true := by
  unfold State.takeRef
  dsimp only
  split <;> simp

theorem State.refTaken_shows (s : State) (r : Ring) (f : RFrame) (c : Nat) (a : RingArr) :
    (s.refTaken r f c a).g (BZ_RXOK_COUNT r) = (s.g (BZ_RXOK_COUNT r) + 1) % 2 ^ 32 ∧
    (f.len = 24 → s.on (BZ_CTRL_MODE r) = true → tabGet (fun _ => 0) ((s.refTaken r f c a).ring r).refQuiet (byteAt f.body 0) = s.now ∧
      ((s.refTaken r f c a).ring r).refSeen.isSome = true) ∧ RegsKeep s (s.refTaken r f c a) (regIn [BZ_RXOK_COUNT r]) := by
  have counted : RegsKeep s (s.inc (BZ_RXOK_COUNT r)) (regIn [BZ_RXOK_COUNT r]) := (OnlyRegs.of_p s _ (regIn_head _ rfl)).2
  have regs : (s.refTaken r f c a).regs = (s.inc (BZ_RXOK_COUNT r)).regs := by
    unfold State.refTaken
    split
    · exact State.takeRef_regs _ _ _ _ _
    · rfl
  refine ⟨(State.g_of_regs regs _).trans (s.g_inc_same (by clear * -; decide +revert)), fun len mode => ?_, counted.of_regs regs⟩
  have mode' : (s.inc (BZ_RXOK_COUNT r)).on (BZ_CTRL_MODE r) = true := by
    rwa [State.on, State.g_inc_off _ (by clear * -; decide +revert)]
  have now : (s.inc (BZ_RXOK_COUNT r)).now = s.now := by
    rw [State.now, State.g_inc_off _ (by clear * -; decide +revert), State.g_inc_off _ (by clear * -; decide +revert)]
    rfl
  rw [State.refTaken, if_pos (by simp [len, mode']), ← now]
  exact State.takeRef_ring _ _ _ _ _

end Sys2Proof.Machine

namespace Sys2Proof.Proofs
open Sys2Proof.Machine Sys2Proof.Safety

/-- Settles O37: what a basic cycle, a slot, a macrocycle's boundary and a watch verdict leave, then what goes on of a frame and what a controller takes
of it. The model's choices behind it: a rank-0 node that sent its own Mark sends no stand-in (log 112), a frame that cannot be read counts as one whose
check word fails (log 113), the guardian's counter is a free value (log 117), the references of a stand-in master (log 118). -/
theorem ringCyclesSlotsAndReception : Obligations.RingCyclesSlotsAndReception := by
  refine ⟨fun s r e dev w => ?cycles, fun s r port frame stamp t f => ?reception⟩
  case cycles =>
    refine ⟨?start, State.startMark_shows, ⟨fun ok => ?standIn, exec_standInMark_refrains⟩, fun x found => ⟨s.ownEntry_iff r _ x,
      fun other => exec_slotTransmit_other found other dev, fun own off => exec_slotTransmit_blocked found own off, fun own low high => ?slot⟩,
      ?boundary, fun valid => ?watch⟩
    case start =>
      obtain ⟨prev, prev2, prev3, cur, ahead, yield, valid, aligned⟩ := s.cycleBegun_shows r
      exact ⟨_, exec_basicCycleStart s r, prev, prev2, prev3, cur, ahead, yield, valid, aligned, s.cycleBegun_count r, State.cycleBegun_opens,
        fun unheard kept sent warm open_ stays n known short => State.cycleBegun_closes unheard kept sent warm open_ stays known short⟩
    case standIn =>
      split
      next far => exact exec_standInMark_blocked ok far
      next near => exact standInMark_sends ok near
    case slot =>
      have sends {u : State} := exec_next_eq (u := u) (exec_slotTransmit_sends found own (dev := dev) (not_or.2 ⟨not_lt.2 high, not_lt.2 low⟩))
      obtain ⟨b, sync, only, plain, flagged, reply⟩ := s.sendReply_shows r (s.txCycle r x.off s.now) x
      exact ⟨fun poll => sends ((if_pos poll).trans (s.sendPoll_eq r _ x)),
        fun isReply => ⟨b, sync, only, plain, flagged, sends ((State.slotSent_reply isReply).trans reply)⟩,
        fun notPoll notReply => ⟨fun none => sends (State.slotSent_none notPoll notReply none),
          fun body some => sends (State.slotSent_ref notPoll notReply some)⟩⟩
    case boundary =>
      obtain ⟨devs, exclNow, exclNext, ds, ownDs, phase, joins, d⟩ := s.macroEnded_shows r
      exact ⟨_, exec_macrocycleBoundary s r, devs, exclNow, exclNext, ds, ownDs, phase, joins, fun measured => d.trans (if_neg measured),
        fun none => d.trans (if_pos none)⟩
    case watch =>
      refine ⟨exec_watchVerdict_learns valid, fun rec follows backup heard => watchVerdict_repeats valid follows backup heard,
        fun follows alone => ?decides, fun n met => State.verdict_met met⟩
      have decides := exec_watchVerdict_decides valid follows alone
      exact ⟨fun stale => decides.trans (if_neg stale), fun fresh => ⟨_, decides.trans (if_pos fresh), rfl⟩⟩
  case reception =>
    refine ⟨fun held => State.forward_held held _ frame t, fun free free' => ⟨fun own src => ?dropped, fun own src => ?removed, fun other awake => ?passed⟩,
      State.arrival_takes s r port frame stamp, exec_receive_passed, fun takes => ?taken⟩
    case dropped =>
      have dropped := (State.forward_slot free free' own f frame).trans (if_neg src)
      exact dropped ▸ s.wrapDropped_shows r
    case removed => exact (State.forward_slot free free' own f frame).trans (if_pos src)
    case passed =>
      have forwarded := State.forward_frame free free' other f frame
      exact ⟨fun ends => forwarded.trans (if_pos ends), fun others lives => (forwarded.trans (if_neg (not_or.2 ⟨others, Nat.not_le.2 lives⟩))).trans
        (State.emit_of_awake awake _), (State.forward_unread free free' other frame).trans (State.emit_of_awake awake _)⟩
    case taken =>
      have mark {u : State} := exec_next_eq (u := u) (exec_markReceive_taken takes)
      have poll {u : State} := exec_next_eq (u := u) (exec_pollReceive_taken takes)
      have reply {u : State} := exec_next_eq (u := u) (exec_replyReceive_taken takes)
      have ref {u : State} := exec_next_eq (u := u) (exec_referenceMessageReceive_taken takes)
      refine ⟨fun unread warm => ⟨mark (State.markTaken_unread unread warm), poll (State.dataTaken_unread unread warm),
          reply (State.dataTaken_unread unread warm)⟩,
        fun read => ⟨fun crc own => ⟨poll (State.dataTaken_own read crc own), reply (State.dataTaken_own read crc own),
            mark (State.markTaken_own read crc own)⟩,
          fun other cold => ⟨mark (State.markTaken_cold read other cold), poll (State.dataTaken_cold read other cold),
            reply (State.dataTaken_cold read other cold)⟩,
          fun other warm => ⟨fun listens => ?listening, fun follows => mark (State.markTaken_following read other warm follows),
            fun e kind stamped ok => poll ((State.dataTaken_accepted read other warm kind stamped ok).trans (State.pollTaken_eq _ r f _)),
            fun fails => poll (State.dataTaken_refused read other warm fails), fun fails => reply (State.dataTaken_refused read other warm fails),
            fun c n x kind stamped ok => ?replied⟩⟩,
        fun read other warm kind stamped e ok => ?referred⟩
      case listening =>
        exact ⟨fun head type mode stamped time => mark ((State.markTaken_listening read other warm listens).trans
            (State.firstMark_counts ⟨head, type, mode, stamped, time⟩)),
          fun fails => mark ((State.markTaken_listening read other warm listens).trans (State.firstMark_refused fails))⟩
      case replied =>
        obtain ⟨d, taken, held, counted⟩ := State.takeReply_shows _ r f c n x (s.arrival r port frame stamp)
        exact ⟨d, reply ((State.dataTaken_accepted read other warm kind stamped ok).trans taken), held, counted⟩
      case referred =>
        obtain ⟨counted, seen, keep⟩ := State.refTaken_shows _ r f e.1 (s.arrival r port frame stamp)
        exact ⟨_, ref (State.dataTaken_accepted read other warm kind stamped ok), counted, seen, keep⟩

end Sys2Proof.Proofs

/-! SUPPORT. Safe torque off and safe stop 1 (R299 to R309): what a drive loses with its torque, what a permit gives and takes, what channel A's
report and an evaluation decide. -/

namespace Sys2Proof.Machine
open Sys2Proof.Safety

/-! ### The outputs anew (R331) -/

/-- The field die's block and those of the lanes, which lie above the safety functions'. -/
def fieldPage (a : Nat) : Prop := 0x60000000 ≤ a

theorem rbFld_fieldPage (k : Nat) : fieldPage (rbFld k).reg := by
  unfold rbFld
  split
  · exact Nat.le_add_right_of_le (by decide : 0x60000000 ≤ 0x60000104)
  · exact Nat.le_add_right_of_le (by decide : 0x60000000 ≤ 0x60000184)

theorem retryFld_fieldPage (k : Nat) : fieldPage (retryFld k).reg := by
  unfold retryFld
  split
  · exact Nat.le_add_right_of_le (by decide : 0x60000000 ≤ 0x60000104)
  · exact Nat.le_add_right_of_le (by decide : 0x60000000 ≤ 0x60000184)

theorem State.driveOutputs_only (s : State) : OnlyRegs s s.driveOutputs fieldPage :=
  OnlyRegs.foldl (fun t k h =>
    have shown := h.pb (rbFld k) (t.outLevel k == some true) (rbFld_fieldPage k)
    shown.ite (shown.p _ 0 (retryFld_fieldPage k))) (OnlyRegs.refl s _)

theorem State.g_driveOutputs (s : State) {f : Fld} (below : f.reg < 0x60000000) : s.driveOutputs.g f = s.g f :=
  s.driveOutputs_only.g (Nat.not_le.2 below)

/-! ### A drive's registers and its state beside them -/

/-- The registers that an entry into Torque-off writes. -/
def torqueFlds (n : Nat) : List Fld := [SF_DRVSTAT_STATE n, SF_STOPS_COUNT n]

theorem not_recPage_sf {a : Nat} (h : a / 0x10000 = 0x4002) : ¬ recPage a := by unfold recPage; omega

@[simp] theorem State.drv_modDrv_same (s : State) (n : Nat) (f : DrvSt → DrvSt) : (s.modDrv n f).drv n = f (s.drv n) := tabGet_tabSet_same _ _ _ _

@[simp] theorem State.g_modDrv (s : State) (n : Nat) (h : DrvSt → DrvSt) (f : Fld) : (s.modDrv n h).g f = s.g f := rfl

/-! ### Torque-off (R304, R309) -/

theorem State.encRest_eq (s : State) (n : Nat) : s.encRest n = { s with sf := { s.sf with drv := (s.encRest n).sf.drv } } := by
  unfold State.encRest
  split <;> rfl

theorem State.encRest_drv (s : State) (n : Nat) :
    (s.encRest n).drv n = if 2 ≤ s.g (SF_DRVSTAT_STATE n) then { s.drv n with encFrom := s.tu.upNs } else s.drv n := by
  unfold State.encRest
  split
  · exact State.drv_modDrv_same _ _ _
  · rfl

theorem State.g_encRest (s : State) (n : Nat) (f : Fld) : (s.encRest n).g f = s.g f := by rw [State.encRest_eq]; rfl

/-- A drive's registers once its torque is lost (R304). -/
def State.torqueLost (s : State) (n cause : Nat) : State :=
  (((((s.p (SF_DRVSTAT_STATE n) 1).p (SF_DRVSTAT_CAUSE n) cause).p (SF_DRVSTAT_CHA n) 0).p (SF_DRVSTAT_CHB n) 0).p (SF_DRVSTAT_INTERLOCK n) 1).inc
    (SF_STOPS_COUNT n)

theorem State.torqueLost_only (s : State) (n cause : Nat) : OnlyRegs s (s.torqueLost n cause) (regIn (torqueFlds n)) := by
  have state {f : Fld} (h : f.reg = (SF_DRVSTAT_STATE n).reg) : regIn (torqueFlds n) f.reg := ⟨_, List.mem_cons_self, h⟩
  have count : regIn (torqueFlds n) (SF_STOPS_COUNT n).reg := ⟨_, List.mem_cons_of_mem _ List.mem_cons_self, rfl⟩
  exact ((((((OnlyRegs.refl s _).p (SF_DRVSTAT_STATE n) 1 (state rfl)).p (SF_DRVSTAT_CAUSE n) cause (state rfl)).p (SF_DRVSTAT_CHA n) 0 (state rfl)).p
    (SF_DRVSTAT_CHB n) 0 (state rfl)).p (SF_DRVSTAT_INTERLOCK n) 1 (state rfl)).p (SF_STOPS_COUNT n) _ count

theorem State.torqueLost_shows (s : State) (d : Drive) {cause : Nat} (fits : cause < 16) :
    let t := s.torqueLost (drvNo d) cause
    t.g (SF_DRVSTAT_STATE (drvNo d)) = 1 ∧ t.on (SF_DRVSTAT_CHA (drvNo d)) = false ∧ t.on (SF_DRVSTAT_CHB (drvNo d)) = false ∧
    t.g (SF_DRVSTAT_CAUSE (drvNo d)) = cause ∧ t.on (SF_DRVSTAT_INTERLOCK (drvNo d)) = true ∧
    t.g (SF_STOPS_COUNT (drvNo d)) = (s.g (SF_STOPS_COUNT (drvNo d)) + 1) % 2 ^ (SF_STOPS_COUNT (drvNo d)).w := by
  have causes : (SF_DRVSTAT_CAUSE (drvNo d)).lo + (SF_DRVSTAT_CAUSE (drvNo d)).w ≤ 32 ∧ cause < 2 ^ (SF_DRVSTAT_CAUSE (drvNo d)).w :=
    ⟨(by decide : 4 + 4 ≤ 32), fits⟩
  simp (disch := (clear * -; decide +revert)) [State.torqueLost, State.on, State.inc, State.g_p_off, State.g_p_fits, State.g_p_same,
    State.g_p_fits _ causes]

/-- A drive that is not Off loses its torque; a Stopping one is recorded as well (R304, R308). -/
theorem State.torqueOff_same {s : State} {n : Nat} (runs : s.g (SF_DRVSTAT_STATE n) ≠ 0) (cause : Nat) :
    SameBut ((s.encRest n).torqueLost n cause) (s.torqueOff n cause) := by
  rw [State.torqueOff, if_neg (by simp [runs])]
  exact SameBut.ite (State.noticeD_same (SameBut.refl _) 0x17 _ (by decide) _) (SameBut.refl _)

theorem State.torqueOff_off {s : State} {n : Nat} (off : s.g (SF_DRVSTAT_STATE n) = 0) (cause : Nat) : s.torqueOff n cause = s :=
  if_pos (by simp [off])

theorem State.torqueOff_sf {s : State} {n : Nat} (runs : s.g (SF_DRVSTAT_STATE n) ≠ 0) (cause : Nat) : (s.torqueOff n cause).sf = (s.encRest n).sf := by
  rw [(State.torqueOff_same runs cause).sf, ((s.encRest n).torqueLost_only n cause).1]

theorem State.torqueOff_shows {s : State} {d : Drive} (runs : s.g (SF_DRVSTAT_STATE (drvNo d)) ≠ 0) {cause : Nat} (fits : cause < 16) :
    let n := drvNo d
    let t := s.torqueOff n cause
    t.g (SF_DRVSTAT_STATE n) = 1 ∧ t.on (SF_DRVSTAT_CHA n) = false ∧ t.on (SF_DRVSTAT_CHB n) = false ∧ t.g (SF_DRVSTAT_CAUSE n) = cause ∧
      t.on (SF_DRVSTAT_INTERLOCK n) = true ∧ t.g (SF_STOPS_COUNT n) = (s.g (SF_STOPS_COUNT n) + 1) % 2 ^ (SF_STOPS_COUNT n).w ∧
      t.drv n = (if 2 ≤ s.g (SF_DRVSTAT_STATE n) then { s.drv n with encFrom := s.tu.upNs } else s.drv n) ∧
      OnlyRecords { s with sf := { s.sf with drv := t.sf.drv } } t (regIn (torqueFlds n)) := by
  intro n t
  have same : SameBut ((s.encRest n).torqueLost n cause) t := State.torqueOff_same runs cause
  have sf : t.sf = (s.encRest n).sf := State.torqueOff_sf runs cause
  have read (f : Fld) (page : f.reg / 0x10000 = 0x4002) : t.g f = ((s.encRest n).torqueLost n cause).g f := same.g f (not_recPage_sf page)
  obtain ⟨state, chA, chB, cause', interlock, count⟩ := (s.encRest n).torqueLost_shows d fits
  refine ⟨?_, ?_, ?_, ?_, ?_, ?_, ?_, ?_⟩
  · exact (read _ (by clear * -; decide +revert)).trans state
  · rwa [State.on, read _ (by clear * -; decide +revert)]
  · rwa [State.on, read _ (by clear * -; decide +revert)]
  · exact (read _ (by clear * -; decide +revert)).trans cause'
  · rwa [State.on, read _ (by clear * -; decide +revert)]
  · rw [read _ (by clear * -; decide +revert), count, State.g_encRest]
  · rw [← s.encRest_drv n, State.drv, State.drv, sf]
  · rw [sf, ← State.encRest_eq]
    exact ((s.encRest n).torqueLost_only n cause).record same

/-! ### Permits (R300, R304, R306) -/

theorem State.permit_barred {s : State} {n : Nat} (rests : s.g (SF_DRVSTAT_STATE n) = 1) (barred : s.torqueBarred = true) (v : Nat) : s.permit n v = s := by
  simp [State.permit, rests, barred]

/-- A word without the permit releases the interlock of a drive that no condition bars. -/
theorem State.permit_releases {s : State} {n v : Nat} (rests : s.g (SF_DRVSTAT_STATE n) = 1) (free : s.torqueBarred = false) (off : v ≠ 1) :
    s.permit n v = s.p (SF_DRVSTAT_INTERLOCK n) 0 := by
  simp [State.permit, rests, free, off]

theorem State.permit_interlocked {s : State} {n : Nat} (rests : s.g (SF_DRVSTAT_STATE n) = 1) (locked : s.on (SF_DRVSTAT_INTERLOCK n) = true) :
    s.permit n 1 = s := by
  simp [State.permit, rests, locked]

/-- A drive's registers once it is enabled (R304). -/
def State.torqueGiven (s : State) (n : Nat) : State := ((s.p (SF_DRVSTAT_STATE n) 2).p (SF_DRVSTAT_CHA n) 1).p (SF_DRVSTAT_CHB n) 1

theorem State.permit_enables {s : State} {n : Nat} (rests : s.g (SF_DRVSTAT_STATE n) = 1) (free : s.torqueBarred = false)
    (unlocked : s.on (SF_DRVSTAT_INTERLOCK n) = false) :
    s.permit n 1 = ((s.torqueGiven n).modDrv n (fun x => { x with req := false })).driveOutputs := by
  simp [State.permit, rests, free, unlocked, State.torqueGiven]

theorem State.torqueGiven_shows (s : State) (d : Drive) : (s.torqueGiven (drvNo d)).g (SF_DRVSTAT_STATE (drvNo d)) = 2 ∧
    (s.torqueGiven (drvNo d)).on (SF_DRVSTAT_CHA (drvNo d)) = true ∧ (s.torqueGiven (drvNo d)).on (SF_DRVSTAT_CHB (drvNo d)) = true := by
  simp (disch := (clear * -; decide +revert)) [State.torqueGiven, State.on, State.g_p_off, State.g_p_fits]

/-- A drive that begins a safe stop 1 (R306). -/
def State.stopBegun (s : State) (n : Nat) : State :=
  (s.p (SF_DRVSTAT_STATE n) 3).modDrv n (fun x => { x with t0 := (s.p (SF_DRVSTAT_STATE n) 3).now, v0 := none, still := none, req := true })

/-- The fall of the permit stops an Enabled drive by its function. -/
theorem State.permit_falls {s : State} {n v : Nat} (enabled : s.g (SF_DRVSTAT_STATE n) = 2) (falls : v ≠ 1) :
    s.permit n v = if s.on (SF_DRVCFG_FUNC n) = true then (s.stopBegun n).driveOutputs else s.torqueOff n 1 := by
  simp [State.permit, enabled, falls, State.stopBegun]

theorem State.drv_driveOutputs (s : State) (n : Nat) : s.driveOutputs.drv n = s.drv n := by rw [s.driveOutputs_only.1]; rfl

theorem State.stopBegun_shows (s : State) (d : Drive) : (s.stopBegun (drvNo d)).g (SF_DRVSTAT_STATE (drvNo d)) = 3 ∧
    ((s.stopBegun (drvNo d)).drv (drvNo d)).t0 = s.now ∧
    (s.stopBegun (drvNo d)).on (SF_DRVSTAT_CHA (drvNo d)) = s.on (SF_DRVSTAT_CHA (drvNo d)) ∧
    (s.stopBegun (drvNo d)).on (SF_DRVSTAT_CHB (drvNo d)) = s.on (SF_DRVSTAT_CHB (drvNo d)) := by
  simp (disch := (clear * -; decide +revert)) [State.stopBegun, State.on, State.now, State.g_p_off, State.g_p_fits]

theorem State.permit_enabled_shows {s : State} {d : Drive} (rests : s.g (SF_DRVSTAT_STATE (drvNo d)) = 1) (free : s.torqueBarred = false)
    (unlocked : s.on (SF_DRVSTAT_INTERLOCK (drvNo d)) = false) :
    (s.permit (drvNo d) 1).g (SF_DRVSTAT_STATE (drvNo d)) = 2 ∧ (s.permit (drvNo d) 1).on (SF_DRVSTAT_CHA (drvNo d)) = true ∧
      (s.permit (drvNo d) 1).on (SF_DRVSTAT_CHB (drvNo d)) = true := by
  have read (t : State) (f : Fld) (below : f.reg < 0x60000000) := t.g_driveOutputs below
  simp only [State.permit_enables rests free unlocked, State.on]
  rw [read _ _ (by clear * -; decide +revert), read _ _ (by clear * -; decide +revert), read _ _ (by clear * -; decide +revert)]
  exact s.torqueGiven_shows d

theorem State.permit_stops_shows {s : State} {d : Drive} {v : Nat} (enabled : s.g (SF_DRVSTAT_STATE (drvNo d)) = 2) (falls : v ≠ 1)
    (ss1 : s.on (SF_DRVCFG_FUNC (drvNo d)) = true) :
    (s.permit (drvNo d) v).g (SF_DRVSTAT_STATE (drvNo d)) = 3 ∧ ((s.permit (drvNo d) v).drv (drvNo d)).t0 = s.now ∧
      (s.permit (drvNo d) v).on (SF_DRVSTAT_CHA (drvNo d)) = s.on (SF_DRVSTAT_CHA (drvNo d)) ∧
      (s.permit (drvNo d) v).on (SF_DRVSTAT_CHB (drvNo d)) = s.on (SF_DRVSTAT_CHB (drvNo d)) := by
  have read (t : State) (f : Fld) (below : f.reg < 0x60000000) := t.g_driveOutputs below
  obtain ⟨state, t0, chA, chB⟩ := s.stopBegun_shows d
  rw [State.permit_falls enabled falls, if_pos ss1]
  exact ⟨(read _ _ (by clear * -; decide +revert)).trans state, (congrArg DrvSt.t0 (State.drv_driveOutputs _ _)).trans t0,
    (congrArg (· == 1) (read _ _ (by clear * -; decide +revert))).trans chA, (congrArg (· == 1) (read _ _ (by clear * -; decide +revert))).trans chB⟩

/-! ### Test pulses and channel A's report (R301, R302) -/

theorem exec_stoTestPulse (s : State) (d : Drive) (ch : DrvCh) : exec (.stoTestPulse d ch) s = .next (
    if (if ch = .a then s.on (SF_DRVSTAT_CHA (drvNo d)) else s.on (SF_DRVSTAT_CHB (drvNo d))) = true ∧ s.pulseDue (drvNo d) ch = true
    then s.emit (.stoPulse (drvNo d) (ch == .b) (s.g (SF_TEST_PULSE (drvNo d)))) else s) := by
  change execStoTestPulse d ch s = _
  cases ch <;> simp [execStoTestPulse]

section
variable {s : State} {d : Drive} {a : Bool} (up : s.linkDown lkField = false) (b : Bool)

theorem exec_channelAReport_of_down (down : s.linkDown lkField = true) (a b : Bool) : exec (.channelAReport d a b) s = .next s := if_pos down

include up

theorem exec_channelAReport_agrees (same : a = s.on (SF_DRVSTAT_CHB (drvNo d))) : exec (.channelAReport d a b) s =
    .next ((s.modDrv (drvNo d) (fun x => { x with rbA := b })).modDrv (drvNo d) (fun x => { x with differ := none })) := by
  change execChannelAReport d a b s = _
  rw [execChannelAReport, if_neg (by simp [up])]
  exact if_pos (by simpa [State.on] using same)

/-- A report that differs is judged by how long the difference has lasted (R302). -/
theorem exec_channelAReport_differs (other : a ≠ s.on (SF_DRVSTAT_CHB (drvNo d))) : exec (.channelAReport d a b) s =
    (let u := s.modDrv (drvNo d) (fun x => { x with rbA := b })
     .next (match (s.drv (drvNo d)).differ with
      | none => u.modDrv (drvNo d) (fun x => { x with differ := some s.now })
      | some t =>
        if t + 1000000 < s.now then ((u.modDrv (drvNo d) (fun x => { x with differ := none })).torqueOff (drvNo d) 10).report 0x17 3 10 else u)) := by
  change execChannelAReport d a b s = _
  have now : (s.modDrv (drvNo d) (fun x => { x with rbA := b })).now = s.now := rfl
  rw [execChannelAReport, if_neg (by simp [up])]
  refine (if_neg (by simpa [State.on] using other)).trans ?_
  rw [State.drv_modDrv_same, now]
  cases (s.drv (drvNo d)).differ with
  | none => rfl
  | some t => exact (apply_ite Host.Outcome.next _ _ _).symm

end

/-! ### The evaluation of a drive (R307, R308) -/

/-- The counts of the last evaluations, newest first (R307). -/
def State.countsWith (s : State) (n : Nat) (count : Int) : List Int := (count :: (s.drv n).counts).take 11

/-- A drive's count and speed taken (R307). -/
def State.speedTaken (s : State) (n : Nat) (count : Int) : State :=
  (s.modDrv n (fun x => { x with counts := s.countsWith n count })).p (SF_SPEED_V n) (u32 (speedOf (s.countsWith n count)))

/-- What a Stopping drive keeps of its speed magnitude `v`: that at the start, and since when it is at standstill (R308). -/
def DrvSt.watched (x : DrvSt) (v vstill now : Nat) : DrvSt :=
  { x with v0 := some (x.v0.getD v), still := if v ≤ vstill then some (x.still.getD now) else none }

/-- A Stopping drive's speed watched. -/
def State.speedWatched (s : State) (n : Nat) (count : Int) : State :=
  (s.speedTaken n count).modDrv n (fun x => x.watched (speedOf (s.countsWith n count)).natAbs (s.g (SF_SS1VSTILL_VSTILL n)) s.now)

theorem exec_driveEvaluation (s : State) (d : Drive) (count : Int) : exec (.driveEvaluation d count) s = .next (
    if s.g (SF_DRVSTAT_STATE (drvNo d)) = 3 then
      match (s.speedWatched (drvNo d) count).ss1Cond (drvNo d) (speedOf (s.countsWith (drvNo d) count)).natAbs with
      | some c => (s.speedWatched (drvNo d) count).torqueOff (drvNo d) c
      | none => s.speedWatched (drvNo d) count
    else s.speedTaken (drvNo d) count) := by
  have counts : ((s.modDrv (drvNo d) (fun x => { x with counts := (count :: x.counts).take 11 })).drv (drvNo d)).counts = s.countsWith (drvNo d) count := by
    rw [State.drv_modDrv_same, State.countsWith]
  have taken : (s.modDrv (drvNo d) (fun x => { x with counts := (count :: x.counts).take 11 })).p (SF_SPEED_V (drvNo d))
      (u32 (speedOf (s.countsWith (drvNo d) count))) = s.speedTaken (drvNo d) count := rfl
  have read (f : Fld) (off : f.reg ≠ (SF_SPEED_V (drvNo d)).reg) : (s.speedTaken (drvNo d) count).g f = s.g f := State.g_p_reg _ _ off
  have state := read (SF_DRVSTAT_STATE (drvNo d)) (by clear * -; decide +revert)
  have vstill := read (SF_SS1VSTILL_VSTILL (drvNo d)) (by clear * -; decide +revert)
  have now : (s.speedTaken (drvNo d) count).now = s.now := by
    rw [State.now, State.now, read _ (by clear * -; decide +revert), read _ (by clear * -; decide +revert)]
  change execDriveEvaluation d count s = _
  rw [execDriveEvaluation]
  dsimp only
  rw [counts, taken, state, vstill, now]
  by_cases stopping : s.g (SF_DRVSTAT_STATE (drvNo d)) = 3
  · rw [if_pos (by simp [stopping]), if_pos stopping]
    change (match (s.speedWatched (drvNo d) count).ss1Cond (drvNo d) (speedOf (s.countsWith (drvNo d) count)).natAbs with
      | some c => Host.Outcome.next ((s.speedWatched (drvNo d) count).torqueOff (drvNo d) c)
      | none => .next (s.speedWatched (drvNo d) count)) = _
    split <;> rfl
  · rw [if_neg (by simp [stopping]), if_neg stopping]

/-- The conditions of R308 in their order. -/
theorem State.ss1Cond_iff (s : State) (n v : Nat) :
    let x := s.drv n
    let flt := s.on (SF_DRVSTAT_ENCFLT n)
    let out := s.overEnvelope n v (x.v0.getD v) (s.now - x.t0)
    let still : Prop := ∃ t, x.still = some t ∧ t + s.g (SF_SS1TIM_STILLT n) * 1000000 ≤ s.now
    (s.ss1Cond n v = some 5 ↔ flt = true) ∧ (s.ss1Cond n v = some 4 ↔ flt = false ∧ out = true) ∧
    (s.ss1Cond n v = some 2 ↔ flt = false ∧ out = false ∧ still) ∧
    (s.ss1Cond n v = some 3 ↔ flt = false ∧ out = false ∧ ¬ still ∧ s.g (SF_SS1TIM_TMAX n) * 1000000 ≤ s.now - x.t0) := by
  intro x flt out still
  have stands : (match x.still with
      | some t => decide (t + s.g (SF_SS1TIM_STILLT n) * 1000000 ≤ s.now)
      | none => false) = true ↔ still := by
    cases h : x.still <;> simp [still, h]
  have cond : s.ss1Cond n v = if flt = true then some 5 else if out = true then some 4 else if still then some 2
      else if s.g (SF_SS1TIM_TMAX n) * 1000000 ≤ s.now - x.t0 then some 3 else none := by
    rw [State.ss1Cond]
    simp only [← stands]
    rfl
  rw [cond]
  cases flt
  case true => simp
  case false =>
    cases out
    case true => simp
    case false => by_cases stands : still <;> simp [stands]

/-! ### Encoder faults (R309) -/

/-- A drive whose encoder is found faulty, before the notice. -/
def State.encoderFaulted (s : State) (n : Nat) : State := (s.p (SF_DRVSTAT_ENCFLT n) 1).modDrv n (fun x => { x with encFrom := s.tu.upNs })

theorem exec_encoderFault (s : State) (d : Drive) : Gives (.encoderFault d) s (fun t => t.on (SF_DRVSTAT_ENCFLT (drvNo d)) = true ∧
    t.g (SF_DRVSTAT_STATE (drvNo d)) = s.g (SF_DRVSTAT_STATE (drvNo d)) ∧ t.drv (drvNo d) = { s.drv (drvNo d) with encFrom := s.tu.upNs } ∧
    OnlyRecords { s with sf := { s.sf with drv := t.sf.drv } } t (regIn [SF_DRVSTAT_STATE (drvNo d)])) := by
  have same := (s.encoderFaulted (drvNo d)).notice_same 0x17 2 (drvNo d) ((s.encoderFaulted (drvNo d)).word (SF_DRVSTAT_STATE (drvNo d))) (by decide)
  have read (f : Fld) (page : f.reg / 0x10000 = 0x4002) := same.g f (not_recPage_sf page)
  refine ⟨(s.encoderFaulted (drvNo d)).notice 0x17 2 (drvNo d) ((s.encoderFaulted (drvNo d)).word (SF_DRVSTAT_STATE (drvNo d))), rfl, ?_, ?_, ?_, ?_⟩
  · rw [State.on, read _ (by clear * -; decide +revert), State.encoderFaulted, State.g_modDrv, s.g_p_fits (by clear * -; decide +revert)]
    rfl
  · rw [read _ (by clear * -; decide +revert), State.encoderFaulted, State.g_modDrv, s.g_p_off _ (by clear * -; decide +revert)]
  · rw [State.drv, same.sf]
    exact State.drv_modDrv_same _ _ _
  · rw [same.sf]
    have only : OnlyRegs { s with sf := (s.encoderFaulted (drvNo d)).sf } (s.encoderFaulted (drvNo d)) (regIn [SF_DRVSTAT_STATE (drvNo d)]) :=
      OnlyRegs.of_p _ 1 (regIn_head (f := SF_DRVSTAT_STATE (drvNo d)) (g := SF_DRVSTAT_ENCFLT (drvNo d)) [] rfl)
    exact only.record same

theorem exec_encoderFaultClear (s : State) (d : Drive) : exec (.encoderFaultClear d) s = .next (
    if s.g (SF_DRVSTAT_STATE (drvNo d)) ≤ 1 ∧ (s.drv (drvNo d)).encFrom + 100000000 ≤ s.tu.upNs then s.p (SF_DRVSTAT_ENCFLT (drvNo d)) 0 else s) := by
  rw [apply_ite Host.Outcome.next]
  exact if_congr (by simp) rfl rfl

theorem State.encoderCleared_shows (s : State) (d : Drive) : let t := s.p (SF_DRVSTAT_ENCFLT (drvNo d)) 0
    t.on (SF_DRVSTAT_ENCFLT (drvNo d)) = false ∧ t.g (SF_DRVSTAT_STATE (drvNo d)) = s.g (SF_DRVSTAT_STATE (drvNo d)) ∧
    OnlyRegs s t (regIn [SF_DRVSTAT_STATE (drvNo d)]) := by
  refine ⟨?_, s.g_p_off _ (by clear * -; decide +revert), OnlyRegs.of_p s 0 (regIn_head _ rfl)⟩
  rw [State.on, s.g_p_fits (by clear * -; decide +revert)]
  rfl

end Sys2Proof.Machine

namespace Sys2Proof.Proofs
open Sys2Proof.Machine Sys2Proof.Safety

/-- Settles O43: what a drive keeps and loses at an entry into Torque-off, what its permit gives and takes (log 58 says which conditions bar it), then
its test pulses, channel A's reports, channel B's watchdog, its evaluations (log 70) and its encoder's faults. -/
theorem drivesLoseTorque : Obligations.DrivesLoseTorque := by
  intro s d ch a b count cause v n st f
  refine ⟨fun fits runs => State.torqueOff_shows runs fits, fun off => State.torqueOff_off off cause,
    fun rests barred => State.permit_barred rests barred v,
    fun rests free => ⟨fun off => ?released, fun on locked => ?locked, fun on unlocked => ?enabled⟩,
    fun enabled falls => ⟨fun sto => ?torqueOff, fun ss1 => State.permit_stops_shows enabled falls ss1⟩, exec_stoTestPulse s d ch, rfl,
    ⟨fun down => exec_channelAReport_of_down down a b, fun up same => exec_channelAReport_agrees up b same, fun up other => ?reported⟩, rfl,
    ?evaluated, s.ss1Cond_iff n v, exec_encoderFault s d, ?cleared, ?kept⟩
  case released =>
    rw [State.permit_releases rests free off, State.on, s.g_p_fits (by clear * -; decide +revert)]
    exact ⟨rfl, OnlyRegs.of_p s 0 (regIn_head (f := SF_DRVSTAT_STATE n) [] rfl)⟩
  case locked => exact on ▸ State.permit_interlocked rests locked
  case enabled => exact on ▸ State.permit_enabled_shows rests free unlocked
  case torqueOff => exact (State.permit_falls enabled falls).trans (if_neg (by simp [sto]))
  case reported =>
    have judged := exec_channelAReport_differs up b other
    refine ⟨fun none => ?_, fun t some short => ?_, fun t some long => ?_⟩
    · rwa [none] at judged
    · rw [some] at judged
      exact judged.trans (congrArg _ (if_neg (Nat.not_lt.2 short)))
    · rw [some] at judged
      exact judged.trans (congrArg _ (if_pos long))
  case evaluated =>
    have run := exec_driveEvaluation s d count
    refine ⟨fun other => run.trans (congrArg _ (if_neg other)), fun stopping c cond => ?_, fun stopping cond => ?_⟩
    all_goals
      rw [if_pos stopping] at run
      have met : (s.speedWatched n count).ss1Cond n (speedOf (s.countsWith n count)).natAbs = _ := cond
      rw [met] at run
      exact run
  case cleared => exact fun rests lines => ⟨_, (exec_encoderFaultClear s d).trans (congrArg _ (if_pos ⟨rests, lines⟩)), s.encoderCleared_shows d⟩
  case kept =>
    exact fun other => (exec_encoderFaultClear s d).trans (congrArg _ (if_neg fun ⟨rests, lines⟩ => other.elim (Nat.not_lt.2 rests) (Nat.not_lt.2 lines)))

end Sys2Proof.Proofs

/-! SUPPORT. Safety input pairs (R310, R311) and the seal (R313 to R316): the rows of a pair's table, what an evaluation takes of the channels, the
states of the seal, what a reading and a tamper check leave. -/

namespace Sys2Proof.Machine
open Sys2Proof.Safety

/-! ### The rows of a pair's table (R311) -/

/-- A pair whose value changes to `v` takes the change's stamp. -/
def State.pairStamped (s : State) (k : Nat) (v : Bool) (stamp : Nat) : State :=
  if s.on (SF_PAIRSTAT_VALUE k) == v then s else (s.p (SF_PAIRTS_NS k) stamp).modPair k (fun x => { x with ts := stamp })

theorem State.pairStamped_keep (s : State) (k : Nat) (v : Bool) (stamp : Nat) : RegsKeep s (s.pairStamped k v stamp) (regIn [SF_PAIRTS_NS k]) := by
  unfold State.pairStamped
  split
  · exact RegsKeep.refl s _
  · exact (OnlyRegs.of_p s stamp (regIn_head [] rfl)).2

theorem State.setPair_shows (s : State) (j : Fin 8) {m : Nat} (fits : m < 8) (stamp : Nat) :
    let u := s.setPair j m stamp
    u.g (SF_PAIRSTAT_STATE j) = m ∧ (u.on (SF_PAIRSTAT_VALUE j) = true ↔ m = 2) ∧
      (u.on (SF_PAIRSTAT_VALUE j) ≠ s.on (SF_PAIRSTAT_VALUE j) → u.g (SF_PAIRTS_NS j) = stamp % 2 ^ 32) ∧
      RegsKeep s u (regIn [SF_PAIRSTAT_STATE j, SF_PAIRTS_NS j]) := by
  intro u
  have value : u.on (SF_PAIRSTAT_VALUE j) = (m == 2) := State.on_pb_same _ _ _ (by clear * -; decide +revert) rfl
  have status {f : Fld} (h : f.reg = (SF_PAIRSTAT_STATE j).reg) : regIn [SF_PAIRSTAT_STATE j, SF_PAIRTS_NS j] f.reg := ⟨_, List.mem_cons_self, h⟩
  refine ⟨?_, by simp [value], fun changed => ?_, ?_⟩
  · exact (State.g_pb_off _ _ (by clear * -; decide +revert)).trans (State.g_p_fits _ ⟨(by decide : 1 + 3 ≤ 32), fits⟩)
  · have stamped : s.pairStamped j (m == 2) stamp = (s.p (SF_PAIRTS_NS j) stamp).modPair j (fun x => { x with ts := stamp }) :=
      if_neg fun same => changed (value.trans (beq_iff_eq.1 same).symm)
    calc u.g (SF_PAIRTS_NS j)
      _ = (s.pairStamped j (m == 2) stamp).g (SF_PAIRTS_NS j) :=
        (State.g_pb_off _ _ (by clear * -; decide +revert)).trans (State.g_p_off _ _ (by clear * -; decide +revert))
      _ = (s.p (SF_PAIRTS_NS j) stamp).g (SF_PAIRTS_NS j) := by rw [stamped]; rfl
      _ = stamp % 2 ^ 32 := s.g_p_same _ _ (by clear * -; decide +revert)
  · exact (((s.pairStamped_keep j _ stamp).mono (regIn_mono (by simp))).p (SF_PAIRSTAT_STATE j) m (status rfl)).p (SF_PAIRSTAT_VALUE j) _ (status rfl)

section
variable {s : State} {k : Nat} (a b : Bool) (ta tb : Nat)

theorem State.evalPair_safe (safe : s.g (SF_PAIRSTAT_STATE k) = 0) : s.evalPair k a b ta tb =
    match a, b with
    | true, true => s.setPair k 2 (max ta tb)
    | true, false => (s.setPair k 1 ta).pairTimer k ta false
    | false, true => (s.setPair k 1 tb).pairTimer k tb true
    | false, false => s := by
  rw [State.evalPair, safe]
  cases a <;> cases b <;> rfl

theorem State.evalPair_active (active : s.g (SF_PAIRSTAT_STATE k) = 2) : s.evalPair k a b ta tb =
    match a, b with
    | true, true => s
    | true, false => (s.setPair k 3 tb).pairTimer k tb true
    | false, true => (s.setPair k 3 ta).pairTimer k ta false
    | false, false => s.setPair k 0 (min ta tb) := by
  rw [State.evalPair, active]
  cases a <;> cases b <;> rfl

/-- The stamp of the channel that did not change first. -/
def State.otherStamp (s : State) (k ta tb : Nat) : Nat := if (s.pairSt k).second then ta else tb

/-- When a pair's discrepancy time is over. -/
def State.pairDue (s : State) (k : Nat) : Nat := (s.pairSt k).first + s.g (SF_PAIRCFG_DT k) * 1000000

theorem State.evalPair_closing (closing : s.g (SF_PAIRSTAT_STATE k) = 1) : s.evalPair k a b ta tb =
    if a = true ∧ b = true ∧ s.otherStamp k ta tb ≤ s.pairDue k then s.setPair k 2 (s.otherStamp k ta tb)
    else if a = false ∧ b = false then s.setPair k 0 s.now
    else if s.pairDue k ≤ s.now then s.discrepancy k 1 else s := by
  rw [State.evalPair, closing]
  exact if_congr (by simp [State.otherStamp, State.pairDue, and_assoc]) rfl (if_congr (by simp) rfl (if_congr decide_eq_true_iff rfl rfl))

theorem State.evalPair_opening (opening : s.g (SF_PAIRSTAT_STATE k) = 3) : s.evalPair k a b ta tb =
    if a = false ∧ b = false ∧ s.otherStamp k ta tb ≤ s.pairDue k then s.setPair k 0 s.now
    else if s.pairDue k ≤ s.now then s.discrepancy k 2 else s := by
  rw [State.evalPair, opening]
  exact if_congr (by simp [State.otherStamp, State.pairDue, and_assoc]) rfl (if_congr decide_eq_true_iff rfl rfl)

theorem State.evalPair_latched (latched : s.g (SF_PAIRSTAT_STATE k) = 4) : s.evalPair k a b ta tb =
    if a = false ∧ b = false then s.setPair k 0 s.now else s := by
  rw [State.evalPair, latched]
  exact if_congr (by simp) rfl rfl

end

/-! ### An evaluation of a pair (R310, R319) -/

/-- The filtered state of a channel of a pair. -/
def State.pairChan (s : State) (n : Nat) : Bool := bit (s.g FD_DISTAT_FILT) n

/-- A pair's channels shown. -/
def State.pairShown (s : State) (k : Nat) : State :=
  (s.pb (SF_PAIRSTAT_CHA k) (s.pairChan (2 * k))).pb (SF_PAIRSTAT_CHB k) (s.pairChan (2 * k + 1))

theorem State.pairShown_only (s : State) (k : Nat) : OnlyRegs s (s.pairShown k) (regIn [SF_PAIRSTAT_STATE k]) :=
  ((OnlyRegs.refl s _).pb (SF_PAIRSTAT_CHA k) _ ⟨_, List.mem_cons_self, rfl⟩).pb (SF_PAIRSTAT_CHB k) _ ⟨_, List.mem_cons_self, rfl⟩

theorem State.g_pairShown (s : State) {j : Nat} {f : Fld} (off : f.reg ≠ (SF_PAIRSTAT_STATE j).reg) : (s.pairShown j).g f = s.g f :=
  (s.pairShown_only j).2.g_off (by simpa using off)

theorem State.now_pairShown (s : State) (j : Fin 8) : (s.pairShown j).now = s.now := by
  rw [State.now, State.now, s.g_pairShown (by clear * -; decide +revert), s.g_pairShown (by clear * -; decide +revert)]

theorem State.fieldNow_pairShown (s : State) (j : Fin 8) : (s.pairShown j).fieldNow = s.fieldNow := by
  rw [State.fieldNow, State.now_pairShown]
  rfl

/-- A channel with a filtered transition gives its stamp, another one the evaluation's time (log 41). -/
theorem State.chStamp_pairShown (s : State) (j : Fin 8) (n : Nat) :
    (s.pairShown j).chStamp n = if (s.di n).edges = 0 then s.fieldNow else (s.di n).ts := by
  rw [State.chStamp, State.fieldNow_pairShown]
  exact if_congr beq_iff_eq rfl rfl

theorem exec_safetyPairEvaluation (s : State) (j : Fin 8) : exec (.safetyPairEvaluation j) s = .next (
    if s.on SF_CTRL_EN = true ∧ s.on (SF_PAIRCFG_EN j) = true then
      (s.pairShown j).evalPair j (s.pairChan (2 * j)) (s.pairChan (2 * j + 1) != s.on (SF_PAIRCFG_ANTI j)) ((s.pairShown j).chStamp (2 * j + 1))
        ((s.pairShown j).chStamp (2 * j + 2))
    else (s.pairShown j).setPair j 0 s.now) := by
  have read (f : Fld) (off : f.reg ≠ (SF_PAIRSTAT_STATE j).reg) : (s.pairShown j).on f = s.on f := congrArg (· == 1) (s.g_pairShown off)
  rw [← read SF_CTRL_EN (by clear * -; decide +revert), ← read (SF_PAIRCFG_EN j) (by clear * -; decide +revert),
    ← read (SF_PAIRCFG_ANTI j) (by clear * -; decide +revert), ← s.now_pairShown j, apply_ite Host.Outcome.next]
  exact if_congr (Bool.and_eq_true _ _ ▸ Iff.rfl) rfl rfl

/-! ### The states of the seal (R315) -/

/-- 100 ms have passed without a valid read. -/
def State.sealStale (s : State) : Prop := s.sf.validAt + 100000000 ≤ s.tu.upNs

/-- The valid value is the accepted one, with the parameter set it was accepted for. -/
def State.sealMatches (s : State) : Prop :=
  s.sf.valid.isSome = true ∧ s.sf.accepted = s.sf.valid ∧ s.keys.safe.isSome = true ∧ s.sf.accHash = s.keys.safeHash

theorem State.sealState_stale {s : State} (stale : s.sealStale) : s.sealState = 3 := if_pos stale

theorem State.sealState_tampered {s : State} (fresh : ¬ s.sealStale) (tampered : s.sf.tamper = true) : s.sealState = 2 :=
  (if_neg fresh).trans (if_pos tampered)

theorem State.sealState_matched {s : State} (fresh : ¬ s.sealStale) (intact : s.sf.tamper = false) (matched : s.sealMatches) : s.sealState = 0 := by
  obtain ⟨valid, accepted, safe, hash⟩ := matched
  obtain ⟨v, some⟩ := Option.isSome_iff_exists.1 valid
  exact (if_neg fresh).trans ((if_neg (by simp [intact])).trans (by simp [some, accepted, safe, hash]))

theorem State.sealState_unmatched {s : State} (fresh : ¬ s.sealStale) (intact : s.sf.tamper = false) (unmatched : ¬ s.sealMatches) : s.sealState = 1 := by
  refine (if_neg fresh).trans ((if_neg (by simp [intact])).trans ?_)
  cases some : s.sf.valid with
  | none => rfl
  | some v => exact if_neg fun met => unmatched (by simpa [State.sealMatches, some, and_assoc] using met)

/-- The first matching row of R315. -/
theorem State.sealState_iff (s : State) : (s.sealState = 3 ↔ s.sealStale) ∧ (s.sealState = 2 ↔ ¬ s.sealStale ∧ s.sf.tamper = true) ∧
    (s.sealState = 0 ↔ ¬ s.sealStale ∧ s.sf.tamper = false ∧ s.sealMatches) := by
  by_cases stale : s.sealStale
  · simp [s.sealState_stale stale, stale]
  by_cases tampered : s.sf.tamper = true
  · simp [State.sealState_tampered stale tampered, stale, tampered]
  have intact : s.sf.tamper = false := Bool.eq_false_of_not_eq_true tampered
  by_cases matched : s.sealMatches
  · simp [State.sealState_matched stale intact matched, stale, intact, matched]
  · simp [State.sealState_unmatched stale intact matched, stale, intact, matched]

theorem State.sealState_lt (s : State) : s.sealState < 4 := by
  unfold State.sealState
  split
  · decide
  · split
    · decide
    · split
      · decide
      · split <;> decide

/-! ### The evaluation of the seal (R315, R316) -/

/-- A reading that is too old is valid no more. -/
def State.sealAged (s : State) : State := if s.sf.validAt + 100000000 ≤ s.tu.upNs then { s with sf := { s.sf with valid := none } } else s

theorem State.sealState_sealAged (s : State) : s.sealAged.sealState = s.sealState := by
  unfold State.sealAged
  split
  next stale => exact (State.sealState_stale (s := { s with sf := { s.sf with valid := none } }) stale).trans (State.sealState_stale stale).symm
  next => rfl

theorem State.sealAged_regs (s : State) : s.sealAged.regs = s.regs := by
  unfold State.sealAged
  split <;> rfl

/-- The seal's state shown. -/
def State.sealShown (s : State) : State := s.sealAged.p SF_SEAL_STATE s.sealState

theorem State.sealShown_state (s : State) : s.sealShown.g SF_SEAL_STATE = s.sealState := State.g_p_fits _ ⟨by decide, s.sealState_lt⟩

theorem State.sealShown_keep (s : State) : RegsKeep s s.sealShown (regIn [SF_SEAL_STATE]) :=
  ((RegsKeep.refl s _).of_regs s.sealAged_regs).p SF_SEAL_STATE _ (regIn_head [] rfl)

theorem State.mode_torqueOff (s : State) (d : Drive) (cause : Nat) : (s.torqueOff (drvNo d) cause).mode = s.mode := by
  by_cases off : s.g (SF_DRVSTAT_STATE (drvNo d)) = 0
  · rw [State.torqueOff_off off]
  · calc (s.torqueOff (drvNo d) cause).g LC_MODE_MODE
      _ = ((s.encRest (drvNo d)).torqueLost (drvNo d) cause).g LC_MODE_MODE := (State.torqueOff_same off cause).g _ (by simp [recPage, LC_MODE_MODE])
      _ = (s.encRest (drvNo d)).g LC_MODE_MODE := (State.torqueLost_only _ _ _).2.g_off (by clear * -; decide +revert)
      _ = s.g LC_MODE_MODE := s.g_encRest _ _

theorem State.mode_drivesOff (s : State) (cause : Nat) : (s.drivesOff cause).mode = s.mode :=
  (State.mode_torqueOff _ 1 cause).trans (s.mode_torqueOff 0 cause)

/-- The seal that leaves Sealed takes torque away, and is class 3 while the module operates. -/
theorem State.evalSeal_eq (s : State) : s.evalSeal =
    if s.g SF_SEAL_STATE = 0 ∧ s.sealState ≠ 0 then
      if s.mode ∈ [mActive, mHotStandby, mIsolated, mMaintenance] then (s.sealShown.drivesOff 11).report 0x17 3 11 else s.sealShown.drivesOff 11
    else s.sealShown := by
  have mode : (s.sealShown.drivesOff 11).mode = s.mode := (State.mode_drivesOff _ _).trans (s.sealShown_keep.g_off (f := LC_MODE_MODE) (by decide))
  have run : s.evalSeal = (let t := s.sealAged.p SF_SEAL_STATE s.sealAged.sealState
      if (s.g SF_SEAL_STATE == 0 && s.sealAged.sealState != 0) = true then
        let u := t.drivesOff 11
        if (u.mode == mActive || u.mode == mHotStandby || u.mode == mIsolated || u.mode == mMaintenance) = true then u.report 0x17 3 11 else u
      else t) := rfl
  rw [run, State.sealState_sealAged]
  exact if_congr (by simp) (if_congr (by simp [show ((s.sealAged.p SF_SEAL_STATE s.sealState).drivesOff 11).mode = s.mode from mode, or_assoc]) rfl rfl) rfl

/-! ### A reading (R313, R315) -/

/-- The registers of a reading. -/
def State.readersShown (s : State) (rd : SealReading) : State :=
  (((s.p SF_SEAL_RDK rd.keeper.toNat).p SF_SEAL_RDF rd.field.toNat).pb SF_SEAL_LOOP rd.loopClosed).pb SF_SEAL_CMPL rd.complementary

theorem State.readersShown_shows (s : State) (rd : SealReading) : let a := s.readersShown rd
    a.g SF_SEAL_RDK = rd.keeper.toNat % 2 ^ SF_SEAL_RDK.w ∧ a.g SF_SEAL_RDF = rd.field.toNat % 2 ^ SF_SEAL_RDF.w ∧
    a.on SF_SEAL_LOOP = rd.loopClosed ∧ a.on SF_SEAL_CMPL = rd.complementary ∧ RegsKeep s a (regIn [SF_SEAL_STATE]) := by
  have inSeal {f : Fld} (h : f.reg = SF_SEAL_STATE.reg) : regIn [SF_SEAL_STATE] f.reg := ⟨_, List.mem_cons_self, h⟩
  refine ⟨?_, ?_, ?_, State.on_pb_same _ _ _ (by decide) rfl, ?_⟩
  · simp (disch := decide) only [State.readersShown, State.g_pb_off, State.g_p_off, State.g_p_same]
  · simp (disch := decide) only [State.readersShown, State.g_pb_off, State.g_p_same]
  · rw [State.readersShown, State.on, State.g_pb_off _ _ (by decide)]
    exact State.on_pb_same _ _ _ (by decide) rfl
  · have codes := ((OnlyRegs.refl s (regIn [SF_SEAL_STATE])).p SF_SEAL_RDK rd.keeper.toNat (inSeal rfl)).p SF_SEAL_RDF rd.field.toNat (inSeal rfl)
    exact ((codes.pb SF_SEAL_LOOP _ (inSeal rfl)).pb SF_SEAL_CMPL _ (inSeal rfl)).2

/-- A reading counts: its codes are complementary and both readers agree. -/
def readingCounts (rd : SealReading) : Bool := rd.complementary && rd.keeper == rd.field

/-- How many readings in a row give the value of this one. -/
def SfSt.inRow (x : SfSt) (rd : SealReading) : Nat := if !readingCounts rd then 0 else if x.lastRead == some rd.keeper then x.same + 1 else 1

/-- What a reading at a time after the reset leaves. -/
def SfSt.sealRead (x : SfSt) (rd : SealReading) (up : Nat) : SfSt :=
  let y := { x with lastRead := if readingCounts rd then some rd.keeper else none, same := x.inRow rd }
  if x.inRow rd ≥ 3 then { y with valid := some rd.keeper, validAt := up } else y

theorem exec_sealRead (s : State) (rd : SealReading) :
    exec (.sealRead rd) s = .next (State.evalSeal { s.readersShown rd with sf := s.sf.sealRead rd s.tu.upNs }) := rfl

/-- A reading that does not count is forgotten; the third equal one in a row makes its value valid (R313). -/
theorem SfSt.sealRead_shows (x : SfSt) (rd : SealReading) (up : Nat) :
    let y := x.sealRead rd up
    let ok : Prop := rd.complementary = true ∧ rd.keeper = rd.field
    (¬ ok → y.same = 0 ∧ y.lastRead = none ∧ y.valid = x.valid ∧ y.validAt = x.validAt) ∧
    (ok → x.lastRead = some rd.keeper → y.same = x.same + 1) ∧ (ok → x.lastRead ≠ some rd.keeper → y.same = 1) ∧
    (ok → x.lastRead = some rd.keeper → 2 ≤ x.same → y.valid = some rd.keeper ∧ y.validAt = up) ∧
    (ok → (x.lastRead ≠ some rd.keeper ∨ x.same < 2) → y.valid = x.valid ∧ y.validAt = x.validAt) := by
  intro y ok
  have counts : readingCounts rd = true ↔ ok := by simp [readingCounts, ok]
  have same : y.same = x.inRow rd := by simp only [y, SfSt.sealRead]; split <;> rfl
  have third (enough : 3 ≤ x.inRow rd) : y.valid = some rd.keeper ∧ y.validAt = up := by simp [y, SfSt.sealRead, enough]
  have before (few : ¬ 3 ≤ x.inRow rd) : y.valid = x.valid ∧ y.validAt = x.validAt := by simp [y, SfSt.sealRead, few]
  have none (bad : ¬ ok) : x.inRow rd = 0 := if_pos (by simpa using mt counts.1 bad)
  have again (good : ok) (repeats : x.lastRead = some rd.keeper) : x.inRow rd = x.same + 1 := by simp [SfSt.inRow, counts.2 good, repeats]
  have first (good : ok) (other : x.lastRead ≠ some rd.keeper) : x.inRow rd = 1 := by simp [SfSt.inRow, counts.2 good, other]
  refine ⟨fun bad => ⟨same.trans (none bad), ?_, before (by rw [none bad]; decide)⟩, fun good repeats => same.trans (again good repeats),
    fun good other => same.trans (first good other), fun good repeats two => third (by rw [again good repeats]; omega), fun good few => before ?_⟩
  · simp [y, SfSt.sealRead, none bad, mt counts.1 bad]
  · by_cases repeats : x.lastRead = some rd.keeper
    · rw [again good repeats]
      have short : x.same < 2 := few.resolve_left (not_not.2 repeats)
      omega
    · rw [first good repeats]
      decide

/-! ### A tamper check (R314) -/

/-- The count of open checks in a row. -/
def State.openCounted (s : State) (opened : Bool) : State := { s with sf := { s.sf with openChecks := if opened then s.sf.openChecks + 1 else 0 } }

/-- The tamper latch set with the RTC's seconds. -/
def State.tamperLatched (s : State) : State :=
  (({ s with sf := { s.sf with tamper := true, tamperSec := s.sb.rtc } } : State).p SF_SEAL_TAMPER 1).p SF_TAMPERT_SEC s.sb.rtc

/-- The loop checked: a second open check in a row latches. -/
def State.tamperChecked (s : State) (opened : Bool) : State :=
  if decide (2 ≤ (s.openCounted opened).sf.openChecks) && !s.sf.tamper then (s.openCounted opened).tamperLatched else s.openCounted opened

theorem State.tamperLatched_shows (s : State) :
    s.tamperLatched.g SF_TAMPERT_SEC = s.sb.rtc % 2 ^ SF_TAMPERT_SEC.w ∧ s.tamperLatched.on SF_SEAL_TAMPER = true := by
  simp (disch := decide) [State.tamperLatched, State.on, State.g_p_off, State.g_p_same]

theorem State.tamperLatched_mode (s : State) : s.tamperLatched.mode = s.mode := (State.mode_p _ _ (by decide)).trans (State.mode_p _ _ (by decide))

theorem State.openCounted_twice (s : State) (opened : Bool) : 2 ≤ (s.openCounted opened).sf.openChecks ↔ opened = true ∧ 1 ≤ s.sf.openChecks := by
  cases opened <;> simp [State.openCounted]

theorem State.tamperChecked_shows (s : State) (opened : Bool) : let a := s.tamperChecked opened
    a.sf.openChecks = (if opened then s.sf.openChecks + 1 else 0) ∧
    (a.sf.tamper = true ↔ s.sf.tamper = true ∨ (opened = true ∧ 1 ≤ s.sf.openChecks)) ∧
    (s.sf.tamper = false → opened = true → 1 ≤ s.sf.openChecks →
      a.g SF_TAMPERT_SEC = s.sb.rtc % 2 ^ SF_TAMPERT_SEC.w ∧ a.on SF_SEAL_TAMPER = true) ∧
    a.mode = s.mode := by
  unfold State.tamperChecked
  split
  next latches =>
    obtain ⟨twice, -⟩ := Bool.and_eq_true_iff.1 latches
    exact ⟨rfl, iff_of_true rfl (.inr ((s.openCounted_twice opened).1 (of_decide_eq_true twice))),
      fun _ _ _ => State.tamperLatched_shows _, State.tamperLatched_mode _⟩
  next stays =>
    have kept (intact : s.sf.tamper = false) : ¬ (opened = true ∧ 1 ≤ s.sf.openChecks) := fun twice =>
      stays (by simp [(s.openCounted_twice opened).2 twice, intact])
    refine ⟨rfl, ⟨.inl, fun h => h.elim id fun twice => ?_⟩, fun intact isOpen before => absurd ⟨isOpen, before⟩ (kept intact), rfl⟩
    exact Bool.of_not_eq_false fun intact => kept intact twice

theorem exec_tamperCheck (s : State) (opened : Bool) : exec (.tamperCheck opened) s =
    .next (if s.mode = mDormant then s.tamperChecked opened else ((s.tamperChecked opened).pb SF_SEAL_LOOP (!opened)).evalSeal) := by
  have run : exec (.tamperCheck opened) s = (if ((s.tamperChecked opened).mode == mDormant) = true then
      .next (s.tamperChecked opened) else .next ((s.tamperChecked opened).pb SF_SEAL_LOOP (!opened)).evalSeal) := rfl
  obtain ⟨-, -, -, mode⟩ := s.tamperChecked_shows opened
  rw [run, apply_ite Host.Outcome.next]
  exact if_congr (by rw [mode, beq_iff_eq]) rfl rfl

end Sys2Proof.Machine

namespace Sys2Proof.Proofs
open Sys2Proof.Machine Sys2Proof.Safety

/-- Settles O44: the table of a safety input pair and its evaluation, where a channel without a stamp takes the evaluation's time (log 41), then the
states of the seal on the clock of the time since the reset (log 45), what its evaluation takes away, its readings and its tamper checks. -/
theorem safetyPairsAndSeal : Obligations.SafetyPairsAndSeal := by
  refine ⟨fun s j a b ta tb => ?pairs, fun s rd opened => ?sealed⟩
  case pairs =>
    refine ⟨fun m stamp fits => s.setPair_shows j fits stamp, fun safe => ?safe, fun closing => ?closing, fun active => ?active, fun opening => ?opening,
      fun latched => ?latched, ?evaluated⟩
    case safe =>
      have row := State.evalPair_safe a b ta tb safe
      refine ⟨?_, ?_, ?_, ?_⟩ <;> (rintro rfl rfl; exact row)
    case active =>
      have row := State.evalPair_active a b ta tb active
      refine ⟨?_, ?_, ?_, ?_⟩ <;> (rintro rfl rfl; exact row)
    case closing =>
      have row := State.evalPair_closing a b ta tb closing
      refine ⟨fun high high' inTime => row.trans (if_pos ⟨high, high', inTime⟩), fun low low' => ?_, fun one waits early => ?_,
        fun one waits late => ?_⟩
      · exact row.trans ((if_neg (by simp [low])).trans (if_pos ⟨low, low'⟩))
      all_goals
        have unlike : ¬ (a = true ∧ b = true ∧ s.otherStamp j ta tb ≤ s.pairDue j) := fun ⟨high, high', inTime⟩ =>
          waits.elim (by simp [high]) fun w => w.elim (by simp [high']) (Nat.not_lt.2 inTime)
        have some : ¬ (a = false ∧ b = false) := fun ⟨low, low'⟩ => one.elim (by simp [low]) (by simp [low'])
      · exact row.trans ((if_neg unlike).trans ((if_neg some).trans (if_neg (Nat.not_le.2 early))))
      · exact row.trans ((if_neg unlike).trans ((if_neg some).trans (if_pos late)))
    case opening =>
      have row := State.evalPair_opening a b ta tb opening
      refine ⟨fun low low' inTime => row.trans (if_pos ⟨low, low', inTime⟩), fun waits early => ?_, fun waits late => ?_⟩
      all_goals
        have unlike : ¬ (a = false ∧ b = false ∧ s.otherStamp j ta tb ≤ s.pairDue j) := fun ⟨low, low', inTime⟩ =>
          waits.elim (by simp [low]) fun w => w.elim (by simp [low']) (Nat.not_lt.2 inTime)
      · exact row.trans ((if_neg unlike).trans (if_neg (Nat.not_le.2 early)))
      · exact row.trans ((if_neg unlike).trans (if_pos late))
    case latched =>
      have row := State.evalPair_latched a b ta tb latched
      exact ⟨fun low low' => row.trans (if_pos ⟨low, low'⟩),
        fun one => row.trans (if_neg fun ⟨low, low'⟩ => one.elim (by simp [low]) (by simp [low']))⟩
    case evaluated =>
      have run := exec_safetyPairEvaluation s j
      have stamp := s.chStamp_pairShown j (2 * j + 1)
      exact ⟨fun on enabled => run.trans (congrArg _ (if_pos ⟨on, enabled⟩)), fun edges => stamp.trans (if_neg edges),
        fun unmoved => stamp.trans (if_pos unmoved),
        fun off => run.trans (congrArg _ (if_neg fun ⟨on, enabled⟩ => off.elim (by simp [on]) (by simp [enabled])))⟩
  case sealed =>
    obtain ⟨stale, tampered, matched⟩ := s.sealState_iff
    refine ⟨stale, tampered, matched, ?kept, fun was left mode => ⟨s.sealShown, ?operates, s.sealShown_state, s.sealShown_keep⟩,
      fun was left mode => ⟨s.sealShown, ?rests, s.sealShown_state, s.sealShown_keep⟩, ?read, ?checked⟩
    case kept =>
      by_cases was : s.g SF_SEAL_STATE = 0
      · exact .inr was
      · rw [s.evalSeal_eq, if_neg (was ·.1)]
        exact .inl s.sealShown_state
    case operates => rw [s.evalSeal_eq, if_pos ⟨was, left⟩, if_pos mode]
    case rests => rw [s.evalSeal_eq, if_pos ⟨was, left⟩, if_neg mode]
    case read =>
      obtain ⟨keeper, field, loop, complementary, keep⟩ := s.readersShown_shows rd
      exact ⟨{ s.readersShown rd with sf := s.sf.sealRead rd s.tu.upNs }, exec_sealRead s rd, keeper, field, loop, complementary, keep,
        s.sf.sealRead_shows rd s.tu.upNs⟩
    case checked =>
      obtain ⟨count, latch, shown, -⟩ := s.tamperChecked_shows opened
      have run := exec_tamperCheck s opened
      exact ⟨s.tamperChecked opened, count, latch, shown, fun asleep => run.trans (congrArg _ (if_pos asleep)),
        fun awake => run.trans (congrArg _ (if_neg awake))⟩

end Sys2Proof.Proofs

/-! SUPPORT. The commands of the safety and field groups that act (R292, R313, R317, R336, R484): the seal's acceptance, the safe acknowledgement, the
release of latches. -/

namespace Sys2Proof.Machine
open Sys2Proof.Safety

/-! ### The seal's acceptance (R313, R317) -/

/-- The reading that may be accepted. -/
theorem State.sealReading_iff (a : State) (v : Byte) : a.sealReading = some v ↔ a.sf.valid = some v ∧ a.tu.upNs < a.sf.validAt + 100000000 ∧
    a.on SF_SEAL_LOOP = true ∧ v.toNat / 8 ≠ 0 ∧ ∃ k, a.keys.safe = some k ∧ v = k.sealSet := by
  rw [State.sealReading]
  cases valid : a.sf.valid with
  | none => simp
  | some w =>
    cases safe : a.keys.safe with
    | none => simp
    | some k =>
      simp only [Option.ite_none_right_eq_some, Option.some.injEq, Bool.and_eq_true, decide_eq_true_eq, bne_iff_ne, beq_iff_eq, exists_eq_left']
      constructor
      · rintro ⟨⟨⟨⟨fresh, closed⟩, positions⟩, named⟩, rfl⟩
        exact ⟨rfl, fresh, closed, positions, named⟩
      · rintro ⟨rfl, fresh, closed, positions, named⟩
        exact ⟨⟨⟨⟨fresh, closed⟩, positions⟩, named⟩, rfl⟩

/-! ### Acknowledgements given to receive connections (R292) -/

theorem State.rx_modRx (s : State) (q : Nat) (f : RxSt → RxSt) (r : Nat) : (s.modRx q f).rx r = if r = q then f (s.rx r) else s.rx r := by
  split
  next same => exact same ▸ tabGet_tabSet_same _ _ _ _
  next other => exact tabGet_tabSet_ne _ _ _ other

/-- The acknowledgements of a list of connections given. -/
def State.acked (s : State) (rs : List Nat) : State := rs.foldl (fun (s : State) r => s.modRx r (fun x => { x with ack := true })) s

theorem State.acked_only (s : State) (rs : List Nat) : s.acked rs = { s with sc := (s.acked rs).sc } := by
  induction rs generalizing s with
  | nil => rfl
  | cons q rs ih => exact ih (s.modRx q (fun x => { x with ack := true }))

theorem State.rx_acked (s : State) (rs : List Nat) (r : Nat) : (s.acked rs).rx r = if r ∈ rs then { s.rx r with ack := true } else s.rx r := by
  induction rs generalizing s with
  | nil => rfl
  | cons q rs ih =>
    refine (ih (s.modRx q (fun x => { x with ack := true }))).trans ?_
    rw [s.rx_modRx]
    by_cases head : r = q <;> by_cases tail : r ∈ rs <;> simp [head, tail]

/-- The connections that a payload names. -/
def namedRx (p : List Byte) : List Nat := (List.range 128).filter (fun r => bit (byteAt p (r / 8)) (r % 8))

theorem mem_namedRx {p : List Byte} {r : Nat} : r ∈ namedRx p ↔ r < 128 ∧ bit (byteAt p (r / 8)) (r % 8) = true := by simp [namedRx]

/-! ### The commands (R317, R484, R336) -/

section
variable {s : State} {i : CmdIn}

theorem State.cmdSealAccept_of_none (unread : s.sealReading = none) : s.cmdSealAccept i = .no s stVerifyFail := by
  rw [State.cmdSealAccept, unread]

/-- The accepted setting with the configuration it was accepted for; the tamper latch and its time clear. -/
def State.sealAccepted (s : State) (v : Byte) : State :=
  ((({ s with sf := { s.sf with accepted := some v, accHash := s.keys.safeHash, tamper := false, tamperSec := 0 } } : State).p
    SF_SEAL_ACC v.toNat).p SF_SEAL_TAMPER 0).p SF_TAMPERT_SEC 0

theorem State.cmdSealAccept_of_some {v : Byte} (read : s.sealReading = some v) : s.cmdSealAccept i =
    .ok ((s.sealAccepted v).driveFuncs.evalSeal.recordEv
      { source := 0x0208, code := 1, cls := 0xFF
        data := leBytes 1 (s.sf.accepted.getD 0).toNat ++ leBytes 1 v.toNat ++ leBytes 1 (s.g SF_SEAL_STATE) ++ leBytes 1 (if s.sf.tamper then 1 else 0) })
      (leBytes 1 (s.sf.accepted.getD 0).toNat ++ leBytes 1 v.toNat ++ leBytes 2 0) true := by
  rw [State.cmdSealAccept, read]
  rfl

end

theorem State.cmdScAck_eq (s : State) (i : CmdIn) : s.cmdScAck i =
    if ∃ r ∈ namedRx i.p, s.on (SC_RXCFG_VALID r) = false then .no s stBadParam else .ok (s.acked (namedRx i.p)) [] (!(namedRx i.p).isEmpty) :=
  if_congr (by simp [namedRx, and_assoc]) rfl rfl

theorem State.cmdFioRelease_eq (s : State) (i : CmdIn) : s.cmdFioRelease i =
    if leAt i.p 0 4 / 2 % 0x8000 ≠ 0 then .no s stBadParam
    else if bit (leAt i.p 0 4) 0 = true ∧ s.bankReleasable = false then .no (s.release (wordOf i.p 0)) stVerifyFail
    else .ok (s.release (wordOf i.p 0)) [] (s.latchNamed (leAt i.p 0 4)) :=
  if_congr (by simp) rfl (if_congr (by simp) rfl rfl)

end Sys2Proof.Machine

namespace Sys2Proof.Proofs
open Sys2Proof.Machine Sys2Proof.Safety

/-- Settles O14: the reading that may be accepted (its age counted from the reset, log 45), then the outcome of each of the three commands by its checks.
That a release is recorded where it names a latch that is set is log 40. -/
theorem safetyAndFieldCommands : Obligations.SafetyAndFieldCommands := by
  refine ⟨State.sealReading_iff, fun s a ch h p c r => ⟨fun unread => ?refused, fun v read => ?accepted⟩, fun s a ch h p c r => ?acknowledge,
    fun s a ch h p c r => ?release⟩
  all_goals obtain ⟨-, rfl⟩ := runs_hdr r
  case refused => rw [execSealAccept_runs r, State.cmdSealAccept_of_none unread, finish_no]
  case accepted =>
    rw [execSealAccept_runs r, State.cmdSealAccept_of_some read, finish_ok]
    rfl
  case acknowledge =>
    rw [execScAck_runs r, State.cmdScAck_eq]
    refine ⟨fun ⟨q, low, named, unused⟩ => ?_,
      fun valid => ⟨a.acked (namedRx c.p), !(namedRx c.p).isEmpty, ?_, ?_, a.acked_only _, fun q low => ?_⟩⟩
    · rw [if_pos ⟨q, mem_namedRx.2 ⟨low, named⟩, unused⟩, finish_no]
    · rw [if_neg, finish_ok]
      rintro ⟨q, mem, unused⟩
      obtain ⟨low, named⟩ := mem_namedRx.1 mem
      exact absurd (valid q low named) (by simp [unused])
    · simp only [Bool.not_eq_true', List.isEmpty_eq_false_iff_exists_mem, mem_namedRx]
    · rw [a.rx_acked]
      exact if_congr (mem_namedRx.trans (and_iff_right low)) rfl rfl
  case release => rw [execFioRelease_runs r, State.cmdFioRelease_eq, finish_ite, finish_ite, finish_no, finish_no, finish_ok]

end Sys2Proof.Proofs

/-! SUPPORT. Digital inputs and the field supply (R320 to R322, R325, R335, R527): what a sample makes of one input among all and of the supply, raw
edges, the supply's states. -/

namespace Sys2Proof.Machine
open Sys2Proof.Safety

/-! ### Bits of the input word (R325) -/

theorem bit_eq_testBit (v n : Nat) : bit v n = v.testBit n := by
  rw [Nat.testBit_eq_decide_div_mod_eq]
  rfl

/-- A bit set goes between the bits above it and those below. -/
theorem setBit_eq (v k : Nat) (b : Bool) : setBit v (k + 1) b = 2 ^ k * (2 * (v / 2 ^ k / 2) + b.toNat) + v % 2 ^ k := by
  have whole : v = 2 ^ k * (2 * (v / 2 ^ k / 2)) + 2 ^ k * (v / 2 ^ k % 2) + v % 2 ^ k := by
    rw [← Nat.mul_add, Nat.div_add_mod, Nat.div_add_mod]
  have bitAt : bit v k = (v / 2 ^ k % 2 == 1) := rfl
  have old : (if bit v k then 2 ^ k else 0) = 2 ^ k * (v / 2 ^ k % 2) := by
    rcases Nat.mod_two_eq_zero_or_one (v / 2 ^ k) with zero | one
    · simp [bitAt, zero]
    · simp [bitAt, one]
  have new : (if b then 2 ^ k else 0) = 2 ^ k * b.toNat := by cases b <;> simp
  rw [setBit, Nat.add_sub_cancel, old, new, Nat.mul_add]
  omega

theorem bit_setBit (v k m : Nat) (b : Bool) : bit (setBit v (k + 1) b) m = if m = k then b else bit v m := by
  rw [setBit_eq, bit_eq_testBit, Nat.testBit_two_pow_mul_add _ (Nat.mod_lt _ (Nat.two_pow_pos k))]
  rcases Nat.lt_trichotomy m k with below | rfl | above
  · rw [if_pos below, if_neg below.ne, Nat.testBit_mod_two_pow, bit_eq_testBit]
    simp [below]
  · cases b <;> simp
  · obtain ⟨d, rfl⟩ : ∃ d, m = k + (d + 1) := ⟨m - k - 1, by omega⟩
    have low : b.toNat < 2 ^ 1 := by cases b <;> decide
    rw [if_neg (by omega), if_neg (by omega), Nat.add_sub_cancel_left, bit_eq_testBit, ← Nat.pow_one 2, Nat.testBit_two_pow_mul_add _ low]
    simp [Nat.testBit_div_two, Nat.testBit_div_two_pow, Nat.add_comm]

theorem bit_mod (v : Nat) {m w : Nat} (low : m < w) : bit (v % 2 ^ w) m = bit v m := by
  rw [bit_eq_testBit, bit_eq_testBit, Nat.testBit_mod_two_pow]
  simp [low]

/-- An input's bit in one of the two 16-bit fields of `FD_DISTAT`, after the bit of an input is set there. -/
theorem State.bit_p_setBit (s : State) (i j : Fin 16) (b : Bool) {f : Fld} (half : f.lo + f.w ≤ 32 ∧ f.w = 16) :
    bit ((s.p f (setBit (s.g f) (i + 1) b)).g f) j = if j = i then b else bit (s.g f) j := by
  rw [State.g_p_same _ _ _ half.1, half.2, bit_mod _ j.isLt, bit_setBit]
  exact if_congr Fin.val_inj rfl rfl

/-! ### A list of steps, one of them apart -/

/-- Steps that keep a relation, but for one of them: the state before that one and the last state have it to their neighbours. -/
theorem foldl_apart {α β : Type} {K : β → β → Prop} (refl : ∀ s, K s s) (trans : ∀ {a b c}, K a b → K b c → K a c) {f : β → α → β}
    {l : List α} {x : α} (nodup : l.Nodup) (mem : x ∈ l) (keep : ∀ s, ∀ y ∈ l, y ≠ x → K s (f s y)) (s : β) :
    ∃ a, K s a ∧ K (f a x) (l.foldl f s) := by
  obtain ⟨before, after, rfl⟩ := List.append_of_mem mem
  obtain ⟨-, tail, apart⟩ := List.nodup_append.1 nodup
  have run {part : List α} (sub : ∀ y ∈ part, y ∈ before ++ x :: after ∧ y ≠ x) (s : β) : K s (part.foldl f s) :=
    List.foldlRecOn part f (motive := K s) (refl s) fun t kept y here => trans kept (keep t y (sub y here).1 (sub y here).2)
  refine ⟨before.foldl f s, run (fun y here => ⟨List.mem_append_left _ here, fun e => ?_⟩) s, ?_⟩
  · exact apart y here x List.mem_cons_self e
  · rw [List.foldl_append]
    refine run (fun y here => ⟨List.mem_append_right _ (List.mem_cons_of_mem _ here), fun e => ?_⟩) _
    exact (List.nodup_cons.1 tail).1 (e ▸ here)

/-! ### What the sampling of one input leaves alone -/

@[simp] theorem State.di_modDi_same (s : State) (n : Nat) (f : DiSt → DiSt) : (s.modDi n f).di n = f (s.di n) := tabGet_tabSet_same _ _ _ _

theorem State.di_modDi_ne (s : State) {n m : Nat} (f : DiSt → DiSt) (other : m ≠ n) : (s.modDi n f).di m = s.di m := tabGet_tabSet_ne _ _ _ other

@[simp] theorem State.g_modDi (s : State) (n : Nat) (h : DiSt → DiSt) (f : Fld) : (s.modDi n h).g f = s.g f := rfl

/-- The field die beside its inputs, the supply's state and a commanded test are as they were. -/
structure BankKept (s t : State) : Prop where
  supply : t.g FD_STAT_SUPPLY = s.g FD_STAT_SUPPLY
  fd : t.fd = { s.fd with di := t.fd.di }
  dbg : t.dbg = s.dbg

/-- The registers of an input alone. -/
def inputFlds (i : Fin 16) : List Fld := [FD_DICFG_TOP (i + 1), FD_DITS_NS (i + 1), FD_DICNT_COUNT (i + 1)]

/-- An input shows in a state what it shows in another. -/
structure InputKept (i : Fin 16) (s t : State) : Prop where
  di : t.di (i + 1) = s.di (i + 1)
  filt : bit (t.g FD_DISTAT_FILT) i = bit (s.g FD_DISTAT_FILT) i
  raw : bit (t.g FD_DISTAT_RAW) i = bit (s.g FD_DISTAT_RAW) i
  own : ∀ f : Fld, f.reg ∈ (inputFlds i).map Fld.reg → t.g f = s.g f

theorem BankKept.refl (s : State) : BankKept s s := ⟨rfl, rfl, rfl⟩

theorem BankKept.trans {a b c : State} (h : BankKept a b) (k : BankKept b c) : BankKept a c :=
  ⟨k.supply.trans h.supply, by rw [k.fd, h.fd], k.dbg.trans h.dbg⟩

theorem InputKept.refl (i : Fin 16) (s : State) : InputKept i s s := ⟨rfl, rfl, rfl, fun _ _ => rfl⟩

theorem InputKept.trans {i : Fin 16} {a b c : State} (h : InputKept i a b) (k : InputKept i b c) : InputKept i a c :=
  ⟨k.di.trans h.di, k.filt.trans h.filt, k.raw.trans h.raw, fun f mem => (k.own f mem).trans (h.own f mem)⟩

theorem BankKept.p {s t : State} (h : BankKept s t) (f : Fld) (v : Nat) (other : FD_STAT_SUPPLY.reg ≠ f.reg) : BankKept s (t.p f v) :=
  h.trans ⟨t.g_p_reg v other, rfl, rfl⟩

theorem BankKept.modDi {s t : State} (h : BankKept s t) (n : Nat) (f : DiSt → DiSt) : BankKept s (t.modDi n f) := h.trans ⟨rfl, rfl, rfl⟩

theorem BankKept.heldPort {s t : State} (h : BankKept s t) (p : Nat) : t.heldPort p = s.heldPort p := by rw [State.heldPort, State.heldPort, h.dbg]

theorem InputKept.p {i : Fin 16} {s t : State} (h : InputKept i s t) (f : Fld) (v : Nat) (word : FD_DISTAT_FILT.reg ≠ f.reg)
    (own : f.reg ∉ (inputFlds i).map Fld.reg) : InputKept i s (t.p f v) :=
  h.trans ⟨rfl, congrArg (bit · i) (t.g_p_reg v word), congrArg (bit · i) (t.g_p_reg v word), fun _ mem => State.g_p_reg _ _ fun e => own (e ▸ mem)⟩

theorem distat_apart {i : Fin 16} : ¬ FD_DISTAT_FILT.reg ∈ (inputFlds i).map Fld.reg := by decide +revert

/-- An input's registers are no other input's. -/
theorem inputFlds_apart {i j : Fin 16} (other : j ≠ i) : (FD_DITS_NS (i + 1)).reg ∉ (inputFlds j).map Fld.reg ∧
    (FD_DICNT_COUNT (i + 1)).reg ∉ (inputFlds j).map Fld.reg := by
  have apart : (j : Nat) ≠ i := Fin.val_ne_of_ne other
  simp only [inputFlds, List.map_cons, List.map_nil, List.mem_cons, List.not_mem_nil, or_false, FD_DICFG_TOP, FD_DITS_NS, FD_DICNT_COUNT]
  omega

theorem InputKept.p_filt {i j : Fin 16} (s : State) (b : Bool) (other : j ≠ i) :
    InputKept j s (s.p FD_DISTAT_FILT (setBit (s.g FD_DISTAT_FILT) (i + 1) b)) :=
  ⟨rfl, (s.bit_p_setBit i j b (by decide)).trans (if_neg other), by rw [State.g_p_off _ _ (by decide)],
    fun f mem => State.g_p_reg _ _ fun e => distat_apart (e ▸ mem)⟩

theorem InputKept.p_raw {i j : Fin 16} (s : State) (b : Bool) (other : j ≠ i) :
    InputKept j s (s.p FD_DISTAT_RAW (setBit (s.g FD_DISTAT_RAW) (i + 1) b)) :=
  ⟨rfl, by rw [State.g_p_off _ _ (by decide)], (s.bit_p_setBit i j b (by decide)).trans (if_neg other),
    fun f mem => State.g_p_reg _ _ fun e => distat_apart (e ▸ mem)⟩

theorem InputKept.modDi {i j : Fin 16} {s t : State} (h : InputKept j s t) (other : j ≠ i) (f : DiSt → DiSt) : InputKept j s (t.modDi (i + 1) f) :=
  h.trans ⟨t.di_modDi_ne f (by simpa [Fin.val_inj] using other), rfl, rfl, fun _ _ => rfl⟩

/-! ### Captures of an input's transition (R194) -/

/-- The time unit's block. -/
def timePage (a : Nat) : Prop := a / 0x10000 = 0x5000

/-- Two states differ in the time unit and nowhere else. -/
def TimeOnly (s t : State) : Prop := OnlyRegs { s with tu := t.tu } t timePage

theorem TimeOnly.trans {a b c : State} (h : TimeOnly a b) (k : TimeOnly b c) : TimeOnly a c := (h.withTu c.tu).trans k

theorem State.capture_timeOnly (s : State) (n : Fin 16) (stamp : Nat) : TimeOnly s (s.capture n stamp) := by
  have taken : TimeOnly s (s.captureTaken n (extend s.now stamp)) := by
    obtain ⟨-, -, -, -, -, -, only⟩ := s.captureTaken_shows n (extend s.now stamp)
    refine OnlyRegs.mono only fun a ⟨f, mem, e⟩ => ?_
    have page : ∀ f ∈ [TU_CAP_NS n, TU_CAPERA_ERA n, TU_CAPSTAT_COUNT n], f.reg / 0x10000 = 0x5000 := by clear * -; decide +revert
    exact e ▸ page f mem
  unfold State.capture
  split
  · exact taken
  · exact OnlyRegs.refl s _

theorem State.captureSrc_timeOnly (s : State) (src node : Nat) (rising : Bool) (stamp : Nat) : TimeOnly s (s.captureSrc src node rising stamp) := by
  refine List.foldlRecOn (motive := TimeOnly s) _ _ (OnlyRegs.refl s _) fun t kept n chan => ?_
  dsimp only
  split
  · exact kept.trans (t.capture_timeOnly ⟨n, List.mem_range.1 chan⟩ stamp)
  · exact kept

theorem TimeOnly.g_field {s t : State} (h : TimeOnly s t) {f : Fld} (field : 0x60000000 ≤ f.reg) : t.g f = s.g f := h.g (by unfold timePage; omega)

theorem TimeOnly.di {s t : State} (h : TimeOnly s t) (n : Nat) : t.di n = s.di n := by rw [h.1]; rfl

theorem TimeOnly.bankKept {s t : State} (h : TimeOnly s t) : BankKept s t := ⟨h.g_field (by decide), by rw [h.1], by rw [h.1]⟩

theorem inputFlds_field {i : Fin 16} {a : Nat} (mem : a ∈ (inputFlds i).map Fld.reg) : 0x60000000 ≤ a := by
  have all : ∀ a ∈ (inputFlds i).map Fld.reg, 0x60000000 ≤ a := by clear * -; decide +revert
  exact all a mem

theorem TimeOnly.inputKept {s t : State} (h : TimeOnly s t) (i : Fin 16) : InputKept i s t :=
  ⟨h.di _, congrArg (bit · i) (h.g_field (by decide)), congrArg (bit · i) (h.g_field (by decide)), fun _ mem => h.g_field (inputFlds_field mem)⟩

/-! ### A filtered transition (R322, R325) -/

/-- A transition's registers and its input's state, before the captures. -/
def State.diFiltered (s : State) (i : Fin 16) (level : Bool) (start : Nat × Bool) : State :=
  ((((((s.p FD_DISTAT_FILT (setBit (s.g FD_DISTAT_FILT) (i + 1) level)).p (FD_DITS_NS (i + 1)) start.1).inc (FD_DICNT_COUNT (i + 1))).pb
    (FD_DICNT_LEVEL (i + 1)) level).pb (FD_DICNT_NOEDGE (i + 1)) start.2).modDi (i + 1) (fun x => { x with ts := start.1, edges := x.edges + 1 }))

theorem State.diTransition_timeOnly (s : State) (i : Fin 16) (level : Bool) (start : Nat × Bool) :
    TimeOnly (s.diFiltered i level start) (s.diTransition (i + 1) level start) :=
  State.captureSrc_timeOnly _ _ _ _ _

theorem State.diFiltered_bankKept (s : State) (i : Fin 16) (level : Bool) (start : Nat × Bool) : BankKept s (s.diFiltered i level start) := by
  have stamp : FD_STAT_SUPPLY.reg ≠ (FD_DITS_NS (i + 1)).reg := by clear * -; decide +revert
  have count : FD_STAT_SUPPLY.reg ≠ (FD_DICNT_COUNT (i + 1)).reg := by clear * -; decide +revert
  exact ((((((BankKept.refl s).p FD_DISTAT_FILT _ (by decide)).p (FD_DITS_NS (i + 1)) _ stamp).p (FD_DICNT_COUNT (i + 1)) _ count).p
    (FD_DICNT_LEVEL (i + 1)) _ count).p (FD_DICNT_NOEDGE (i + 1)) _ count).modDi _ _

theorem State.diFiltered_inputKept (s : State) {i j : Fin 16} (level : Bool) (start : Nat × Bool) (other : j ≠ i) :
    InputKept j s (s.diFiltered i level start) := by
  obtain ⟨stampOff, countOff⟩ := inputFlds_apart other
  have stamp : FD_DISTAT_FILT.reg ≠ (FD_DITS_NS (i + 1)).reg := by clear * -; decide +revert
  have count : FD_DISTAT_FILT.reg ≠ (FD_DICNT_COUNT (i + 1)).reg := by clear * -; decide +revert
  exact (((((InputKept.p_filt s level other).p (FD_DITS_NS (i + 1)) _ stamp stampOff).p (FD_DICNT_COUNT (i + 1)) _ count countOff).p
    (FD_DICNT_LEVEL (i + 1)) _ count countOff).p (FD_DICNT_NOEDGE (i + 1)) _ count countOff).modDi other _

theorem State.diFiltered_shows (s : State) (i : Fin 16) (level : Bool) (start : Nat × Bool) :
    let t := s.diFiltered i level start
    t.di (i + 1) = { s.di (i + 1) with ts := start.1, edges := (s.di (i + 1)).edges + 1 } ∧ bit (t.g FD_DISTAT_FILT) i = level ∧
    t.g FD_DISTAT_RAW = s.g FD_DISTAT_RAW ∧ t.on (FD_DICNT_LEVEL (i + 1)) = level ∧
    t.g (FD_DICNT_COUNT (i + 1)) = (s.g (FD_DICNT_COUNT (i + 1)) + 1) % 2 ^ 16 := by
  have filt : (s.diFiltered i level start).g FD_DISTAT_FILT = (s.p FD_DISTAT_FILT (setBit (s.g FD_DISTAT_FILT) (i + 1) level)).g FD_DISTAT_FILT := by
    simp (disch := (clear * -; decide +revert)) only [State.diFiltered, State.g_modDi, State.g_inc_off, State.g_pb_off, State.g_p_reg]
  refine ⟨State.di_modDi_same _ _ _, ?_, ?_, ?_, ?_⟩
  · rw [filt, s.bit_p_setBit i i level (by decide), if_pos rfl]
  · simp (disch := (clear * -; decide +revert)) only [State.diFiltered, State.g_modDi, State.inc, State.g_pb_off, State.g_p_off]
  · rw [State.on, State.diFiltered, State.g_modDi, State.g_pb_off _ _ (by clear * -; decide +revert)]
    exact State.on_pb_same _ _ _ (by clear * -; decide +revert) rfl
  · simp (disch := (clear * -; decide +revert)) only [State.diFiltered, State.g_modDi, State.g_inc_same, State.g_pb_off, State.g_p_off]
    rfl

/-! ### One input's counter at a sample (R320, R322) -/

/-- The counter moved by one towards its level, between 0 and the top value. -/
def DiSt.counted (x : DiSt) (top : Nat) (high : Bool) : Nat := if high then min top (x.cnt + 1) else x.cnt - 1

/-- What a sample leaves of an input: its level, its counter, the start of a run that leaves a limit. -/
def DiSt.sampled (x : DiSt) (top : Nat) (high : Bool) (now : Nat) : DiSt :=
  { x with raw := high, cnt := x.counted top high
           up := if x.cnt == 0 && x.counted top high > 0 then runStart x.rise now else x.up
           down := if x.cnt == top && x.counted top high < top then runStart x.fall now else x.down }

/-- An input's counter moved at a sample, before the filtered state follows. -/
def State.diCounted (s : State) (i : Fin 16) (high : Bool) : State :=
  (s.modDi (i + 1) (fun x => x.sampled (s.g (FD_DICFG_TOP (i + 1))) high s.fieldNow)).p FD_DISTAT_RAW (setBit (s.g FD_DISTAT_RAW) (i + 1) high)

theorem State.diCounted_bankKept (s : State) (i : Fin 16) (high : Bool) : BankKept s (s.diCounted i high) :=
  ((BankKept.refl s).modDi _ _).p FD_DISTAT_RAW _ (by decide)

theorem State.diCounted_inputKept (s : State) {i j : Fin 16} (high : Bool) (other : j ≠ i) : InputKept j s (s.diCounted i high) :=
  ((InputKept.refl j s).modDi other _).trans (InputKept.p_raw _ high other)

theorem State.g_diCounted (s : State) {i : Fin 16} {high : Bool} {f : Fld} (other : f.reg ≠ FD_DISTAT_RAW.reg) : (s.diCounted i high).g f = s.g f :=
  State.g_p_reg _ _ other

theorem State.diCounted_shows (s : State) (i : Fin 16) (high : Bool) :
    let t := s.diCounted i high
    t.di (i + 1) = (s.di (i + 1)).sampled (s.g (FD_DICFG_TOP (i + 1))) high s.fieldNow ∧ bit (t.g FD_DISTAT_RAW) i = high ∧
    t.g FD_DISTAT_FILT = s.g FD_DISTAT_FILT :=
  ⟨tabGet_tabSet_same _ _ _ _, (State.bit_p_setBit _ i i high (by decide)).trans (if_pos rfl), State.g_p_off _ _ (by decide)⟩

/-- The filtered state follows the counter at its limits. -/
theorem State.diSample_eq (s : State) (i : Fin 16) (high : Bool) :
    let x := (s.di (i + 1)).sampled (s.g (FD_DICFG_TOP (i + 1))) high s.fieldNow
    let old := bit (s.g FD_DISTAT_FILT) i
    s.diSample (i + 1) high =
      if x.cnt = s.g (FD_DICFG_TOP (i + 1)) ∧ old = false then (s.diCounted i high).diTransition (i + 1) true x.up
      else if x.cnt = 0 ∧ old = true then (s.diCounted i high).diTransition (i + 1) false x.down
      else s.diCounted i high := by
  intro x old
  obtain ⟨-, -, filt⟩ := s.diCounted_shows i high
  have run : s.diSample (i + 1) high =
      if (x.cnt == s.g (FD_DICFG_TOP (i + 1)) && !bit ((s.diCounted i high).g FD_DISTAT_FILT) i) = true then
        (s.diCounted i high).diTransition (i + 1) true x.up
      else if (x.cnt == 0 && bit ((s.diCounted i high).g FD_DISTAT_FILT) i) = true then (s.diCounted i high).diTransition (i + 1) false x.down
      else s.diCounted i high := rfl
  rw [run, filt]
  exact if_congr (by simp [old]) rfl (if_congr (by simp [old]) rfl rfl)

theorem State.diSample_bankKept (s : State) (i : Fin 16) (high : Bool) : BankKept s (s.diSample (i + 1) high) := by
  have counted := s.diCounted_bankKept i high
  have moves (level : Bool) (start : Nat × Bool) : BankKept s ((s.diCounted i high).diTransition (i + 1) level start) :=
    (counted.trans (State.diFiltered_bankKept _ i level start)).trans (State.diTransition_timeOnly _ i level start).bankKept
  rw [s.diSample_eq]
  split
  · exact moves _ _
  · split
    · exact moves _ _
    · exact counted

theorem State.diSample_inputKept (s : State) {i j : Fin 16} (high : Bool) (other : j ≠ i) : InputKept j s (s.diSample (i + 1) high) := by
  have counted := s.diCounted_inputKept high other
  have moves (level : Bool) (start : Nat × Bool) : InputKept j s ((s.diCounted i high).diTransition (i + 1) level start) :=
    (counted.trans (State.diFiltered_inputKept _ level start other)).trans ((State.diTransition_timeOnly _ i level start).inputKept j)
  rw [s.diSample_eq]
  split
  · exact moves _ _
  · split
    · exact moves _ _
    · exact counted

/-- What a sample makes of an input: the counter moves, the filtered state follows it at a limit alone, and a transition is counted. -/
structure InputSampled (i : Fin 16) (high : Bool) (s t : State) : Prop where
  cnt : (t.di (i + 1)).cnt = (s.di (i + 1)).counted (s.g (FD_DICFG_TOP (i + 1))) high
  raw : (t.di (i + 1)).raw = high ∧ bit (t.g FD_DISTAT_RAW) i = high
  filt : bit (t.g FD_DISTAT_FILT) i = if (t.di (i + 1)).cnt = s.g (FD_DICFG_TOP (i + 1)) then true
    else if (t.di (i + 1)).cnt = 0 then false else bit (s.g FD_DISTAT_FILT) i
  stays : bit (t.g FD_DISTAT_FILT) i = bit (s.g FD_DISTAT_FILT) i →
    (t.di (i + 1)).edges = (s.di (i + 1)).edges ∧ t.g (FD_DITS_NS (i + 1)) = s.g (FD_DITS_NS (i + 1))
  moves : bit (t.g FD_DISTAT_FILT) i ≠ bit (s.g FD_DISTAT_FILT) i → (t.di (i + 1)).edges = (s.di (i + 1)).edges + 1 ∧
    t.on (FD_DICNT_LEVEL (i + 1)) = !bit (s.g FD_DISTAT_FILT) i ∧
    t.g (FD_DICNT_COUNT (i + 1)) = (s.g (FD_DICNT_COUNT (i + 1)) + 1) % 2 ^ 16

/-- The fields of an input's own registers (R339) that a sample reads or shows. -/
theorem InputKept.shows {i : Fin 16} {s t : State} (h : InputKept i s t) : t.g (FD_DICFG_TOP (i + 1)) = s.g (FD_DICFG_TOP (i + 1)) ∧
    t.g (FD_DITS_NS (i + 1)) = s.g (FD_DITS_NS (i + 1)) ∧ t.g (FD_DICNT_COUNT (i + 1)) = s.g (FD_DICNT_COUNT (i + 1)) ∧
    t.on (FD_DICNT_LEVEL (i + 1)) = s.on (FD_DICNT_LEVEL (i + 1)) := by
  have top : (FD_DICFG_TOP (i + 1)).reg ∈ (inputFlds i).map Fld.reg := by simp [inputFlds]
  have stamp : (FD_DITS_NS (i + 1)).reg ∈ (inputFlds i).map Fld.reg := by simp [inputFlds]
  have count : (FD_DICNT_COUNT (i + 1)).reg ∈ (inputFlds i).map Fld.reg := by simp [inputFlds]
  exact ⟨h.own _ top, h.own _ stamp, h.own _ count, congrArg (· == 1) (h.own (FD_DICNT_LEVEL (i + 1)) count)⟩

theorem InputSampled.of_kept {i : Fin 16} {high : Bool} {s a b t : State} (before : InputKept i s a) (h : InputSampled i high a b)
    (after : InputKept i b t) : InputSampled i high s t := by
  obtain ⟨top, ns, count, -⟩ := before.shows
  obtain ⟨-, ns', count', level'⟩ := after.shows
  obtain ⟨cnt, raw, filt, stays, moves⟩ := h
  rw [before.di, top] at cnt
  rw [before.filt, top] at filt
  rw [before.filt, before.di, ns] at stays
  rw [before.filt, before.di, count] at moves
  rw [← after.di] at cnt raw filt stays moves
  rw [← after.raw] at raw
  rw [← after.filt] at filt stays moves
  rw [← ns'] at stays
  rw [← level', ← count'] at moves
  exact ⟨cnt, raw, filt, stays, moves⟩

/-- An input whose counter moves the filtered state to a level. -/
theorem State.diTransition_sampled (s : State) {i : Fin 16} {high level : Bool} (start : Nat × Bool) :
    let t := (s.diCounted i high).diTransition (i + 1) level start
    (t.di (i + 1)).cnt = (s.di (i + 1)).counted (s.g (FD_DICFG_TOP (i + 1))) high ∧ ((t.di (i + 1)).raw = high ∧ bit (t.g FD_DISTAT_RAW) i = high) ∧
    bit (t.g FD_DISTAT_FILT) i = level ∧ (t.di (i + 1)).edges = (s.di (i + 1)).edges + 1 ∧ t.on (FD_DICNT_LEVEL (i + 1)) = level ∧
    t.g (FD_DICNT_COUNT (i + 1)) = (s.g (FD_DICNT_COUNT (i + 1)) + 1) % 2 ^ 16 := by
  intro t
  obtain ⟨di, raw, filt⟩ := s.diCounted_shows i high
  obtain ⟨di', filt', raw', level', count'⟩ := (s.diCounted i high).diFiltered_shows i level start
  have captured := (State.diTransition_timeOnly (s.diCounted i high) i level start).inputKept i
  obtain ⟨-, -, count'', level''⟩ := captured.shows
  have state : t.di (i + 1) = _ := captured.di.trans di'
  rw [di] at state
  refine ⟨?_, ⟨?_, ?_⟩, captured.filt.trans filt', ?_, level''.trans level', ?_⟩
  · rw [state]; rfl
  · rw [state]; rfl
  · rw [captured.raw, raw', raw]
  · rw [state]; rfl
  · rw [count'', count', s.g_diCounted (by clear * -; decide +revert)]

theorem State.diSample_sampled (s : State) (i : Fin 16) (high : Bool) (used : 1 ≤ s.g (FD_DICFG_TOP (i + 1))) :
    InputSampled i high s (s.diSample (i + 1) high) := by
  obtain ⟨di, raw, filt⟩ := s.diCounted_shows i high
  have moved (level : Bool) (start : Nat × Bool) (old : bit (s.g FD_DISTAT_FILT) i = !level)
      (limit : level = if (s.di (i + 1)).counted (s.g (FD_DICFG_TOP (i + 1))) high = s.g (FD_DICFG_TOP (i + 1)) then true
        else if (s.di (i + 1)).counted (s.g (FD_DICFG_TOP (i + 1))) high = 0 then false else bit (s.g FD_DISTAT_FILT) i) :
      InputSampled i high s ((s.diCounted i high).diTransition (i + 1) level start) := by
    obtain ⟨cnt, raw', filt', edges, shown, count⟩ := s.diTransition_sampled (i := i) (high := high) (level := level) start
    exact ⟨cnt, raw', by rw [cnt, filt', ← limit], fun same => absurd (filt'.symm.trans (same.trans old)) (by simp),
      fun _ => ⟨edges, by rw [shown, old, Bool.not_not], count⟩⟩
  rw [s.diSample_eq]
  split
  next rises =>
    obtain ⟨top, low⟩ := rises
    exact moved true _ low (if_pos top).symm
  next level =>
    split
    next falls =>
      obtain ⟨zero, high'⟩ := falls
      have below : ¬ (s.di (i + 1)).counted (s.g (FD_DICFG_TOP (i + 1))) high = s.g (FD_DICFG_TOP (i + 1)) := fun top => by
        have : (s.di (i + 1)).counted (s.g (FD_DICFG_TOP (i + 1))) high = 0 := zero
        omega
      exact moved false _ high' ((if_neg below).trans (if_pos zero)).symm
    next level' =>
      have cnt : ((s.diCounted i high).di (i + 1)).cnt = (s.di (i + 1)).counted (s.g (FD_DICFG_TOP (i + 1))) high := by rw [di]; rfl
      refine ⟨cnt, ⟨by rw [di]; rfl, raw⟩, ?_, fun _ => ⟨by rw [di]; rfl, s.g_diCounted (by clear * -; decide +revert)⟩,
        fun moves => absurd (by rw [filt]) moves⟩
      rw [filt, cnt]
      split
      next top => exact Bool.of_not_eq_false fun low => level ⟨top, low⟩
      · split
        next zero => exact Bool.eq_false_of_not_eq_true fun high' => level' ⟨zero, high'⟩
        · rfl

/-! ### A sample of all inputs and of the supply (R320, R335) -/

/-- An input at a sample of all, unless a commanded test holds it (R527). -/
def State.inputSampled (raw : BitVec 16) (s : State) (i : Nat) : State := if s.heldPort (0x70 + i) then s else s.diSample (i + 1) (bit raw.toNat i)

/-- All inputs sampled. -/
def State.inputsSampled (s : State) (raw : BitVec 16) : State := (List.range 16).foldl (State.inputSampled raw) s

theorem State.inputSampled_kept (s : State) (raw : BitVec 16) {i j : Fin 16} :
    BankKept s (s.inputSampled raw i) ∧ (j ≠ i → InputKept j s (s.inputSampled raw i)) := by
  unfold State.inputSampled
  split
  · exact ⟨BankKept.refl s, fun _ => InputKept.refl j s⟩
  · exact ⟨s.diSample_bankKept i _, s.diSample_inputKept _⟩

theorem State.inputsSampled_bankKept (s : State) (raw : BitVec 16) : BankKept s (s.inputsSampled raw) :=
  List.foldlRecOn (motive := BankKept s) _ _ (BankKept.refl s) fun t kept i mem =>
    kept.trans (t.inputSampled_kept raw (i := ⟨i, List.mem_range.1 mem⟩) (j := 0)).1

/-- One input among all: the samples of the others leave it alone. -/
theorem State.inputsSampled_apart (s : State) (raw : BitVec 16) (i : Fin 16) :
    ∃ a, (BankKept s a ∧ InputKept i s a) ∧ BankKept (a.inputSampled raw i) (s.inputsSampled raw) ∧
      InputKept i (a.inputSampled raw i) (s.inputsSampled raw) :=
  foldl_apart (K := fun s t => BankKept s t ∧ InputKept i s t) (fun s => ⟨.refl s, .refl i s⟩) (fun h k => ⟨h.1.trans k.1, h.2.trans k.2⟩)
    List.nodup_range (List.mem_range.2 i.isLt)
    (fun t j mem other =>
      have kept := t.inputSampled_kept raw (i := ⟨j, List.mem_range.1 mem⟩) (j := i)
      ⟨kept.1, kept.2 fun e => other (congrArg Fin.val e).symm⟩) s

theorem State.inputsSampled_held {s : State} {i : Fin 16} (held : s.heldPort (0x70 + i) = true) (raw : BitVec 16) :
    InputKept i s (s.inputsSampled raw) := by
  obtain ⟨a, ⟨bank, before⟩, -, after⟩ := s.inputsSampled_apart raw i
  have still : a.inputSampled raw i = a := if_pos ((bank.heldPort _).trans held)
  exact before.trans (still ▸ after)

theorem State.inputsSampled_free {s : State} {i : Fin 16} (free : s.heldPort (0x70 + i) = false) (used : 1 ≤ s.g (FD_DICFG_TOP (i + 1)))
    (raw : BitVec 16) : InputSampled i (raw.getLsbD i) s (s.inputsSampled raw) := by
  obtain ⟨a, ⟨bank, before⟩, -, after⟩ := s.inputsSampled_apart raw i
  have level : bit raw.toNat i = raw.getLsbD i := bit_eq_testBit _ _
  have sampled : a.inputSampled raw i = a.diSample (i + 1) (raw.getLsbD i) := by
    rw [State.inputSampled, if_neg (by simp [bank.heldPort, free]), level]
  obtain ⟨top, -⟩ := before.shows
  exact .of_kept before (a.diSample_sampled i _ (top.symm ▸ used)) (sampled ▸ after)

/-- The counts of samples with `FLD+` at 19.2 V or more and below 16.8 V (R335). -/
def FdSt.metered (x : FdSt) (v : Nat) : FdSt :=
  { x with good := if v ≥ 1920 then x.good + 1 else 0, low := if v < 1680 then x.low + 1 else 0, supplyLow := x.supplyLow && v < 1680 }

/-- `FLD+` as a sample meters it, before the supply's state follows. -/
def State.metered (s : State) (v : Nat) : State := ({ s with fd := s.fd.metered v } : State).p FD_FLD_V (min v 4095)

/-- A bank that goes to Sag: diagnostics are suspended, their timers at 0. -/
def State.sagged (s : State) : State :=
  (({ s with an := s.an.map (fun e => (e.1, { e.2 with openN := 0, openOff := 0, complN := 0, complOff := 0, delN := 0, delOff := 0 })) } : State).p
    FD_STAT_SUPPLY 2).p FD_STAT_DIAGSUSP 1

theorem State.metered_supply (s : State) (v : Nat) : (s.metered v).g FD_STAT_SUPPLY = s.g FD_STAT_SUPPLY := State.g_p_reg _ _ (by decide)

theorem State.supplySample_eq (s : State) (v : Nat) : s.supplySample v =
    if s.g FD_STAT_SUPPLY = 1 ∧ v < 1920 then (s.metered v).sagged else s.metered v := by
  have run : s.supplySample v = if ((s.metered v).g FD_STAT_SUPPLY == 1 && decide (v < 1920)) = true then (s.metered v).sagged else s.metered v := rfl
  rw [run, s.metered_supply]
  exact if_congr (by simp) rfl rfl

/-- The registers of the supply lie below those of the inputs. -/
theorem InputKept.p_low {i : Fin 16} {s t : State} (h : InputKept i s t) (f : Fld) (v : Nat) (low : f.reg < 0x60000018) :
    InputKept i s (t.p f v) := by
  refine h.p f v (Nat.ne_of_gt low) ?_
  simp only [inputFlds, List.map_cons, List.map_nil, List.mem_cons, List.not_mem_nil, or_false, FD_DICFG_TOP, FD_DITS_NS, FD_DICNT_COUNT]
  omega

/-- An input shows what its state and the registers show. -/
theorem InputKept.of_regs {i : Fin 16} {s t u : State} (h : InputKept i s t) (regs : u.regs = t.regs) (di : u.fd.di = t.fd.di) : InputKept i s u :=
  have read (f : Fld) : u.g f = t.g f := by rw [State.g, State.g, regs]
  h.trans ⟨by rw [State.di, State.di, di], by rw [read], by rw [read], fun f _ => read f⟩

theorem State.supplySample_shows (s : State) (v : Nat) : let t := s.supplySample v
    t.g FD_FLD_V = min v 4095 ∧ t.g FD_STAT_SUPPLY = (if s.g FD_STAT_SUPPLY = 1 ∧ v < 1920 then 2 else s.g FD_STAT_SUPPLY) ∧
    t.fd = s.fd.metered v ∧ ∀ i, InputKept i s t := by
  have volts : (s.metered v).g FD_FLD_V = min v 4095 := State.g_p_fits _ ⟨by decide, lt_of_le_of_lt (Nat.min_le_right _ _) (by decide)⟩
  have kept (i : Fin 16) : InputKept i s (s.metered v) :=
    .of_regs ((InputKept.refl i s).p_low FD_FLD_V (min v 4095) (by decide)) rfl rfl
  rw [s.supplySample_eq]
  split
  · have noted (i : Fin 16) : InputKept i s (s.metered v).sagged :=
      .of_regs (((kept i).p_low FD_STAT_SUPPLY 2 (by decide)).p_low FD_STAT_DIAGSUSP 1 (by decide)) rfl rfl
    exact ⟨(State.g_p_reg _ _ (by decide)).trans ((State.g_p_reg _ _ (by decide)).trans volts),
      (State.g_p_off _ _ (by decide)).trans (State.g_p_fits _ (by decide)), rfl, noted⟩
  · exact ⟨volts, s.metered_supply v, rfl, kept⟩

theorem exec_filterSample (s : State) (raw : BitVec 16) (v : Nat) : exec (.filterSample raw v) s = .next ((s.inputsSampled raw).supplySample v) := rfl

/-! ### Raw edges and the supply's states (R322, R335) -/

theorem exec_rawEdge_held {s : State} {i : Fin 16} (held : s.heldPort (0x70 + i.val) = true) (level : Bool) (stamp : Nat) :
    exec (.rawEdge i level stamp) s = .next s := if_pos held

theorem exec_rawEdge_free {s : State} {i : Fin 16} (free : s.heldPort (0x70 + i.val) = false) (level : Bool) (stamp : Nat) :
    exec (.rawEdge i level stamp) s = .next (s.modDi (i + 1) fun x =>
      if level then { x with rise := some (extend s.now stamp) } else { x with fall := some (extend s.now stamp) }) :=
  if_neg (by simp [free])

/-- `FLD+` has been at 19.2 V or more for long enough to leave Waiting, or Sag (R335). -/
def State.supplyGood (s : State) : Prop := s.g FD_STAT_SUPPLY = 0 ∧ 4001 ≤ s.fd.good ∨ s.g FD_STAT_SUPPLY = 2 ∧ 401 ≤ s.fd.good

/-- The supply's state shown, diagnostics not suspended. -/
def State.supplyShown (s : State) (v : Nat) : State := (s.p FD_STAT_SUPPLY v).p FD_STAT_DIAGSUSP 0

theorem State.supplyShown_shows (s : State) {v : Nat} (fits : v < 4) : (s.supplyShown v).g FD_STAT_SUPPLY = v ∧
    (s.supplyShown v).on FD_STAT_DIAGSUSP = false ∧ OnlyRegs s (s.supplyShown v) (regIn [FD_STAT_SUPPLY]) := by
  refine ⟨(State.g_p_off _ _ (by decide)).trans (State.g_p_fits _ ⟨by decide, fits⟩), ?_, ?_⟩
  · rw [State.on, State.supplyShown, State.g_p_fits _ (by decide)]
    rfl
  · exact (OnlyRegs.of_p s v (regIn_head [] rfl)).p FD_STAT_DIAGSUSP 0 (regIn_head [] rfl)

theorem exec_supplyNormal_of_good {s : State} (good : s.supplyGood) : exec .supplyNormal s = .next (s.supplyShown 1).driveOutputs :=
  if_pos (by simpa [State.supplyGood, State.goodFor] using good)

theorem exec_supplyNormal_of_not {s : State} (poor : ¬ s.supplyGood) : exec .supplyNormal s = .next s :=
  if_neg (by simpa [State.supplyGood, State.goodFor] using poor)

theorem exec_supplyLatch_early {s : State} (early : s.fd.low < 401) : exec .supplyLatch s = .next s := if_pos early

/-- A supply that is low for long takes torque away, once (R304). -/
def State.supplyFaulted (s : State) : State :=
  let a := if s.fd.supplyLow then s else s.drivesOff 8
  { a with fd := { a.fd with supplyLow := true } }

theorem State.g_torqueOff_field (s : State) (d : Drive) (cause : Nat) {f : Fld} (field : 0x60000000 ≤ f.reg) :
    (s.torqueOff (drvNo d) cause).g f = s.g f := by
  have other : ∀ x ∈ torqueFlds (drvNo d), x.reg < 0x60000000 := by clear * -; decide +revert
  by_cases off : s.g (SF_DRVSTAT_STATE (drvNo d)) = 0
  · rw [State.torqueOff_off off]
  · calc (s.torqueOff (drvNo d) cause).g f
      _ = ((s.encRest (drvNo d)).torqueLost (drvNo d) cause).g f := (State.torqueOff_same off cause).g f (by unfold recPage; omega)
      _ = (s.encRest (drvNo d)).g f := (State.torqueLost_only _ _ _).2.g_off fun x mem => Nat.ne_of_gt ((other x mem).trans_le field)
      _ = s.g f := s.g_encRest _ f

theorem State.g_drivesOff_field (s : State) (cause : Nat) {f : Fld} (field : 0x60000000 ≤ f.reg) : (s.drivesOff cause).g f = s.g f :=
  (State.g_torqueOff_field _ 1 cause field).trans (s.g_torqueOff_field 0 cause field)

theorem State.supplyFaulted_supply (s : State) : s.supplyFaulted.g FD_STAT_SUPPLY = s.g FD_STAT_SUPPLY := by
  have kept : (if s.fd.supplyLow = true then s else s.drivesOff 8).g FD_STAT_SUPPLY = s.g FD_STAT_SUPPLY := by
    split
    · rfl
    · exact s.g_drivesOff_field 8 (by decide)
  exact kept

theorem exec_supplyLatch_due {s : State} (due : 401 ≤ s.fd.low) : exec .supplyLatch s = .next (
    if s.g FD_STAT_SUPPLY = 2 then
      ((s.supplyFaulted.supplyShown 3).notice 0x1C 9 0 ((s.supplyFaulted.supplyShown 3).word FD_STAT_SUPPLY)).driveOutputs
    else s.supplyFaulted) := by
  have run : exec .supplyLatch s = if (s.supplyFaulted.g FD_STAT_SUPPLY == 2) = true then
      .next ((s.supplyFaulted.supplyShown 3).notice 0x1C 9 0 ((s.supplyFaulted.supplyShown 3).word FD_STAT_SUPPLY)).driveOutputs
    else .next s.supplyFaulted := if_neg (Nat.not_lt.2 due)
  rw [run, s.supplyFaulted_supply, apply_ite Host.Outcome.next]
  exact if_congr beq_iff_eq rfl rfl

end Sys2Proof.Machine

namespace Sys2Proof.Proofs
open Sys2Proof.Machine Sys2Proof.Safety

/-- Settles O45: a sample of all inputs, seen at one of them, then the edges and the supply's states. -/
theorem digitalInputsAndSupply : Obligations.DigitalInputsAndSupply := by
  intro s raw fld stamp i level n x top high c old
  have bank := s.inputsSampled_bankKept raw
  obtain ⟨volts, supply, fd, kept⟩ := (s.inputsSampled raw).supplySample_shows fld
  refine ⟨fun used free => ⟨_, exec_filterSample s raw fld, ?sampled⟩,
    fun held => ⟨⟨_, exec_filterSample s raw fld, ?heldState, ?heldBit⟩, exec_rawEdge_held held level stamp⟩,
    fun free => ⟨_, exec_rawEdge_free free level stamp, rfl, State.di_modDi_same _ _ _, fun j other => ?others⟩,
    ⟨fun good => ⟨s.supplyShown 1, exec_supplyNormal_of_good good, s.supplyShown_shows (by decide)⟩, exec_supplyNormal_of_not⟩,
    exec_supplyLatch_early, fun due => ⟨fun other => ?torque, fun sag => ?latch⟩⟩
  case sampled =>
    obtain ⟨cnt, ⟨rawState, rawBit⟩, filt, stays, moves⟩ := (State.inputsSampled_free free used raw).of_kept (.refl i s) (kept i)
    rw [cnt] at filt
    refine ⟨cnt, rawState, rawBit, filt, stays, moves, volts, ?_, ?_, ?_, fun enough => ?_⟩
    · rw [supply, bank.supply]
    · rw [fd, FdSt.metered, bank.fd]
    · rw [fd, FdSt.metered, bank.fd]
    · rw [fd, FdSt.metered]
      simp [Nat.not_lt.2 enough]
  case heldState => exact (kept i).di.trans (State.inputsSampled_held held raw).di
  case heldBit => exact (kept i).filt.trans (State.inputsSampled_held held raw).filt
  case others => exact s.di_modDi_ne _ (by simpa [n, Fin.val_inj] using other)
  case torque => exact (exec_supplyLatch_due due).trans (congrArg _ (if_neg other))
  case latch =>
    obtain ⟨latched, resumed, only⟩ := s.supplyFaulted.supplyShown_shows (by decide : 3 < 4)
    exact ⟨_, latched, resumed, only, (exec_supplyLatch_due due).trans (congrArg _ (if_pos sag))⟩

end Sys2Proof.Proofs

/-! SUPPORT. A write of `TOP` (R12, R14, R324): what it stores by its value and the mode, and what the next sample finds. -/

namespace Sys2Proof.Machine
open Sys2Proof.Safety

/-! ### A write of `TOP` (R12, R14, R324) -/

theorem putBits_getBits (x : Word) {lo w : Nat} (fits : lo + w ≤ 32) : putBits x lo w (getBits x lo w) = x := by
  refine BitVec.eq_of_getLsbD_eq fun n _ => ?_
  rw [toNat_putBits _ _ _ _ fits, testBit_getBits]
  split
  next inside =>
    have place : n - lo < w ∧ lo + (n - lo) = n := by omega
    simp [place]
  · rfl

/-- A field set to what it holds. -/
theorem State.p_self_regsKeep (s : State) {f : Fld} (fits : f.lo + f.w ≤ 32) (as : Nat → Prop) : RegsKeep s (s.p f (s.g f)) as := by
  intro a _
  by_cases own : a = f.reg
  · subst own
    exact (Regs.rd_wr_same _ _ _).trans (putBits_getBits _ fits)
  · exact s.rd_p_ne _ own

/-- The register of an input's `TOP`. -/
def topAddr (i : Fin 16) : Nat := 0x60000040 + 4 * i.val

/-- Its table lists one RWM field of 8 bits (R339). -/
def topFlds : List RegFld := [⟨0, 8, .rwm, 4⟩]

/-- The modes in which `TOP` may be written (R12). -/
abbrev State.mayConfigure (s : State) : Prop := s.mode ∈ [mBoot, mCommissioning, mMaintenance]

/-- The register file with a value written to `TOP`, which stays in a mode that bars the write. -/
def Regs.topWritten (r : Regs) (i : Fin 16) (may : Bool) (v : Word) : Regs :=
  r.p (FD_DICFG_TOP (i + 1)) (if may then v.toNat % 256 else r.g (FD_DICFG_TOP (i + 1)))

theorem Regs.wr_mergeTop (r : Regs) (i : Fin 16) (may : Bool) (v : Word) :
    r.wr (topAddr i) (mergeFlds may (r.rd (topAddr i)) v topFlds) = r.topWritten i may v := by
  cases may <;> rfl

theorem State.legal_top (s : State) (r : Regs) (i : Fin 16) : s.legal r (topAddr i) = (r.g (FD_DICFG_TOP (i + 1)) != 0) := by
  fin_cases i <;> rfl

theorem State.illegalWrite_top (s : State) (i : Fin 16) : s.illegalWrite (topAddr i) = s.notice 0x22 2 0 (s.word (FD_DICFG_TOP (i + 1))) := by
  fin_cases i <;> rfl

theorem topAddr_maps (i : Fin 16) : topAddr i / 0x10000 = 0x6000 ∧ regFlds (topAddr i) = some topFlds ∧
    regIdx (topAddr i % 0x10000) 0x40 4 = i ∧ 0x40 ≤ topAddr i % 0x10000 ∧ topAddr i % 0x10000 < 0x80 ∧
    rwmModes (topAddr i) = [mBoot, mCommissioning, mMaintenance] := by
  decide +revert

theorem exec_diTopWrite (s : State) (i : Fin 16) (v : Word) : exec (.diTopWrite i v) s = .next (
    let x := s.plainWrite (topAddr i) v topFlds
    if x.2 = true ∧ s.mayConfigure then x.1.setTop (i + 1) (v.toNat % 256) else x.1) := by
  obtain ⟨page, flds, idx, low, high, modes⟩ := topAddr_maps i
  change Host.Outcome.next (s.regWrite (topAddr i) v false) = _
  have write : s.regWrite (topAddr i) v false = s.fieldWrite (topAddr i) v topFlds := by simp [State.regWrite, page, flds]
  have notRelease : topAddr i % 0x10000 ≠ 0x0C := by omega
  rw [write, State.fieldWrite]
  simp only [page, idx, modes, low, high, notRelease, State.mayConfigure, beq_self_eq_true, beq_iff_eq, Bool.true_and, decide_true, Bool.and_true,
    Bool.and_eq_true, List.contains_iff_mem, if_true, if_false]

/-- A write in a mode that allows it. -/
theorem State.plainWrite_top {s : State} {i : Fin 16} (may : s.mayConfigure) (v : Word) : s.plainWrite (topAddr i) v topFlds =
    if v.toNat % 256 = 0 then (s.notice 0x22 2 0 (s.word (FD_DICFG_TOP (i + 1))), false) else (s.p (FD_DICFG_TOP (i + 1)) (v.toNat % 256), true) := by
  obtain ⟨-, -, -, -, -, modes⟩ := topAddr_maps i
  have writable : (rwmModes (topAddr i)).contains s.mode = true := by rw [modes]; exact List.contains_iff_mem.2 may
  have top : (s.regs.topWritten i true v).g (FD_DICFG_TOP (i + 1)) = v.toNat % 256 := s.g_p_fits ⟨(by decide : 0 + 8 ≤ 32), Nat.mod_lt _ (by decide)⟩
  rw [State.plainWrite, writable, Regs.wr_mergeTop, State.legal_top, State.illegalWrite_top, top]
  exact (if_neg (by simp)).trans (if_congr (by simp) rfl rfl)

/-- A write in another mode leaves the register's word as it was, with a notice. -/
theorem State.plainWrite_top_barred {s : State} {i : Fin 16} (barred : ¬ s.mayConfigure) (v : Word) :
    ∃ a : State, OnlyRegs s a (fun _ => False) ∧ (s.plainWrite (topAddr i) v topFlds).1 = a.notice 0x22 1 0 (s.word (FD_DICFG_TOP (i + 1))) := by
  obtain ⟨-, -, -, -, -, modes⟩ := topAddr_maps i
  have fixed : (rwmModes (topAddr i)).contains s.mode = false := by
    rw [modes]
    exact Bool.eq_false_of_not_eq_true fun mem => barred (List.contains_iff_mem.1 mem)
  have kept : RegsKeep s { s with regs := s.regs.topWritten i false v } (fun _ => False) := s.p_self_regsKeep (by decide : 0 + 8 ≤ 32) _
  have only : OnlyRegs s { s with regs := s.regs.topWritten i false v } (fun _ => False) := ⟨rfl, kept⟩
  let a : State := if ((s.regs.topWritten i false v).g (FD_DICFG_TOP (i + 1)) != 0) = true then { s with regs := s.regs.topWritten i false v } else s
  have unchanged : OnlyRegs s a (fun _ => False) := only.ite (.refl s _)
  have word : a.regs.rd (topAddr i) = s.word (FD_DICFG_TOP (i + 1)) := unchanged.2 _ id
  refine ⟨a, unchanged, ?_⟩
  rw [State.plainWrite, fixed, Regs.wr_mergeTop, State.legal_top, ← word]
  rfl

/-- A legal `TOP` written, the counter at the limit of the filtered state. -/
def State.topSet (s : State) (i : Fin 16) (top : Nat) : State :=
  ((s.p (FD_DICFG_TOP (i + 1)) top).p (FD_DICFG_TOP (i + 1)) top).modDi (i + 1) fun x =>
    { x with cnt := if bit (s.g FD_DISTAT_FILT) i then top else 0 }

theorem exec_diTopWrite_illegal {s : State} (may : s.mayConfigure) (i : Fin 16) {v : Word} (zero : v.toNat % 256 = 0) :
    exec (.diTopWrite i v) s = .next (s.notice 0x22 2 0 (s.word (FD_DICFG_TOP (i + 1)))) := by
  simp [exec_diTopWrite, State.plainWrite_top may, zero]

theorem exec_diTopWrite_barred {s : State} (barred : ¬ s.mayConfigure) (i : Fin 16) (v : Word) :
    ∃ a : State, OnlyRegs s a (fun _ => False) ∧ exec (.diTopWrite i v) s = .next (a.notice 0x22 1 0 (s.word (FD_DICFG_TOP (i + 1)))) := by
  obtain ⟨a, only, write⟩ := State.plainWrite_top_barred (i := i) barred v
  exact ⟨a, only, by rw [exec_diTopWrite, ← write]; exact congrArg _ (if_neg fun ⟨_, may⟩ => barred may)⟩

theorem exec_diTopWrite_legal {s : State} (may : s.mayConfigure) (i : Fin 16) {v : Word} (legal : v.toNat % 256 ≠ 0) :
    exec (.diTopWrite i v) s = .next (s.topSet i (v.toNat % 256)) := by
  have filt : ((s.p (FD_DICFG_TOP (i + 1)) (v.toNat % 256)).p (FD_DICFG_TOP (i + 1)) (v.toNat % 256)).g FD_DISTAT_FILT = s.g FD_DISTAT_FILT := by
    have other : FD_DISTAT_FILT.reg ≠ (FD_DICFG_TOP (i + 1)).reg := by clear * -; decide +revert
    rw [State.g_p_reg _ _ other, State.g_p_reg _ _ other]
  have mode : (s.p (FD_DICFG_TOP (i + 1)) (v.toNat % 256)).setTop (i + 1) (v.toNat % 256) = s.topSet i (v.toNat % 256) := by
    rw [State.setTop, if_neg (by simpa using legal)]
    simp only [filt, Nat.add_sub_cancel]
    rfl
  rw [exec_diTopWrite, State.plainWrite_top may, if_neg legal, ← mode]
  exact congrArg _ (if_pos ⟨rfl, may⟩)

theorem State.topSet_shows (s : State) (i : Fin 16) {top : Nat} (fits : top < 256) : let t := s.topSet i top
    t.g (FD_DICFG_TOP (i + 1)) = top ∧ t.di (i + 1) = { s.di (i + 1) with cnt := if bit (s.g FD_DISTAT_FILT) i then top else 0 } ∧
    (∀ j : Fin 16, j ≠ i → t.di (j + 1) = s.di (j + 1)) ∧ RegsKeep s t (regIn [FD_DICFG_TOP (i + 1)]) := by
  refine ⟨(State.g_modDi _ _ _ _).trans (State.g_p_fits _ ⟨(by decide : 0 + 8 ≤ 32), fits⟩), tabGet_tabSet_same _ _ _ _,
    fun j other => tabGet_tabSet_ne _ _ _ (by simpa [Fin.val_inj] using other), ?_⟩
  exact .of_regs (((RegsKeep.refl s _).p (FD_DICFG_TOP (i + 1)) _ (regIn_head [] rfl)).p (FD_DICFG_TOP (i + 1)) _ (regIn_head [] rfl)) rfl

/-- The next sample of an unchanged level finds the counter at its limit and leaves it there. -/
theorem State.topSet_sampled (s : State) (i : Fin 16) {top : Nat} (used : 1 ≤ top) (fits : top < 256) {raw : BitVec 16}
    (same : raw.getLsbD i = bit (s.g FD_DISTAT_FILT) i) (v : Nat) :
    bit ((((s.topSet i top).inputsSampled raw).supplySample v).g FD_DISTAT_FILT) i = bit (s.g FD_DISTAT_FILT) i := by
  obtain ⟨shown, di, -, keep⟩ := s.topSet_shows i fits
  have filt : (s.topSet i top).g FD_DISTAT_FILT = s.g FD_DISTAT_FILT := keep.g_off (by clear * -; decide +revert)
  obtain ⟨-, -, -, kept⟩ := ((s.topSet i top).inputsSampled raw).supplySample_shows v
  rw [(kept i).filt]
  cases held : (s.topSet i top).heldPort (0x70 + i)
  case true => rw [(State.inputsSampled_held held raw).filt, filt]
  case false =>
    have sampled := State.inputsSampled_free held (by rw [shown]; exact used) raw
    have cnt : (((s.topSet i top).inputsSampled raw).di (i + 1)).cnt = if bit (s.g FD_DISTAT_FILT) i then top else 0 := by
      rw [sampled.cnt, di, shown, same, DiSt.counted]
      split <;> simp
    rw [sampled.filt, cnt, shown, filt]
    cases bit (s.g FD_DISTAT_FILT) i
    case true => simp
    case false => simp [Nat.ne_of_lt used]

end Sys2Proof.Machine

namespace Sys2Proof.Proofs
open Sys2Proof.Machine Sys2Proof.Safety

/-- Settles O46: the write by its value and the mode, then the sample that follows it. -/
theorem writeOfTopMovesTheCounter : Obligations.WriteOfTopMovesTheCounter := by
  intro s i v n old may
  refine ⟨fun m zero => exec_diTopWrite_illegal m i zero, fun barred => exec_diTopWrite_barred barred i v,
    fun m legal => ⟨_, exec_diTopWrite_legal m i legal, ?_⟩⟩
  have fits : v.toNat % 256 < 256 := Nat.mod_lt _ (by decide)
  obtain ⟨top, di, others, keep⟩ := s.topSet_shows i fits
  exact ⟨top, by rw [di], by rw [di], keep.g_off (by clear * -; decide +revert), keep.g_off (by clear * -; decide +revert), others, keep, rfl,
    fun raw fld same => ⟨_, exec_filterSample _ raw fld, s.topSet_sampled i (Nat.pos_of_ne_zero legal) fits same fld⟩⟩

end Sys2Proof.Proofs

/-! SUPPORT. Outputs (R328 to R333, R532): what drives each, what their protection and diagnostics leave, the silence of the field die. -/

namespace Sys2Proof.Machine
open Sys2Proof.Safety

/-! ### The rows of R331 (R331 to R333, R532) -/

section
variable {s : State} {k : Nat}

theorem State.outLevel_protected (off : (s.out k).shut = true ∨ s.on (latchFld k) = true) : s.outLevel k = none :=
  if_pos (by simpa using off)

theorem State.outLevel_of_row (runs : (s.out k).shut = false) (released : s.on (latchFld k) = false) : s.outLevel k = s.outRow k :=
  if_neg (by simp [runs, released])

theorem State.testDrive_of_none (untested : s.dbg.loop = none) : s.testDrive k = none := by rw [State.testDrive, untested]

theorem State.testDrive_of_port {y : LoopRun} (tested : s.dbg.loop = some y) (port : y.port = 0x7F + k) : s.testDrive k =
    some (if y.depth = 2 ∧ k ≤ 12 ∨ y.depth = 3 ∧ y.result = 2 then none else some (Config.testStep y.port s.tu.upNs % 2 == 1)) := by
  rw [State.testDrive, tested]
  exact (if_pos (by simp [port, Machine.outPort])).trans (congrArg some (if_congr (by simp) rfl rfl))

theorem State.outRow_unsupplied (off : s.g FD_STAT_SUPPLY = 0 ∨ s.g FD_STAT_SUPPLY = 3) : s.outRow k = none := if_pos (by simpa using off)

theorem State.outRow_gated (untested : s.testDrive k = none) (gated : s.gated = true) : s.outRow k = none := by
  rw [State.outRow, untested, gated]
  split <;> rfl

/-- The supply is neither Waiting nor Latched. -/
def State.supplied (s : State) : Prop := s.g FD_STAT_SUPPLY ≠ 0 ∧ s.g FD_STAT_SUPPLY ≠ 3

theorem State.outRow_tested (on : s.supplied) {v : Option Bool} (tested : s.testDrive k = some v) : s.outRow k = v := by
  rw [State.outRow, if_neg (by simpa [State.supplied] using on), tested]

/-- No row above that of an SS1 request holds. -/
def State.outFree (s : State) (k : Nat) : Prop := s.supplied ∧ s.testDrive k = none ∧ s.gated = false

theorem State.outRow_requested (free : s.outFree k) {v : Bool} (requested : s.reqLevel k = some v) : s.outRow k = some v := by
  obtain ⟨on, untested, ungated⟩ := free
  simp [State.outRow, on.1, on.2, untested, ungated, requested]

theorem State.outRow_silent (free : s.outFree k) (unrequested : s.reqLevel k = none) (silent : s.on FD_STAT_SILENT = true) : s.outRow k =
    if s.fd.configured = false then some false else if s.g (safeFld k) = 0 then some false else if s.g (safeFld k) = 1 then some true
    else some (s.out k).hold := by
  obtain ⟨on, untested, ungated⟩ := free
  simp only [State.outRow, on.1, on.2, untested, ungated, unrequested, silent, beq_iff_eq, Bool.or_eq_true, or_self, if_false, if_true,
    Bool.not_eq_true', Bool.false_eq_true]
  refine if_congr Iff.rfl rfl ?_
  match s.g (safeFld k) with
  | 0 => rfl
  | 1 => rfl
  | _ + 2 => rfl

theorem State.outRow_driven (free : s.outFree k) (unrequested : s.reqLevel k = none) (active : s.on FD_STAT_SILENT = false) : s.outRow k =
    if 0x10 < k ∧ s.on (FD_FPPSTAT_TRIG (k - 0x10)) = true then some (s.out k).trig else some (s.on (cmdFld k)) := by
  obtain ⟨on, untested, ungated⟩ := free
  simp [State.outRow, on.1, on.2, untested, ungated, unrequested, active]

end

/-! ### What the drive of an output depends on -/

/-- The register that shows an output. -/
def outReg (k : Nat) : Nat := (rbFld k).reg

theorem outReg_eq (k : Nat) : latchFld k = ⟨outReg k, 6, 1⟩ ∧ retryFld k = ⟨outReg k, 8, 4⟩ ∧ rbFld k = ⟨outReg k, 1, 1⟩ ∧
    cmdFld k = ⟨outReg k, 0, 1⟩ ∧ safeFld k = ⟨outReg k - 4, 0, 2⟩ := by
  simp only [outReg, latchFld, retryFld, rbFld, cmdFld, safeFld]
  split
  · refine ⟨rfl, rfl, rfl, rfl, ?_⟩
    simp only [FD_HSOCFG_SAFE, FD_HSOSTAT_RB, Fld.mk.injEq, and_true]
    omega
  · refine ⟨rfl, rfl, rfl, rfl, ?_⟩
    simp only [FD_FPPCFG_SAFE, FD_FPPSTAT_RB, Fld.mk.injEq, and_true]
    omega

theorem outReg_place (k : Nat) : 0x60000100 < outReg k ∧ outReg k % 8 = 4 := by
  unfold outReg rbFld
  split
  · simp only [FD_HSOSTAT_RB]
    omega
  · simp only [FD_FPPSTAT_RB]
    omega

/-- The fields that the level of an output follows. -/
def driveFlds (k : Nat) : List Fld :=
  [latchFld k, cmdFld k, safeFld k, FD_FPPSTAT_TRIG (k - 0x10), FD_STAT_SUPPLY, FD_STAT_SILENT, UN_STAT_HOLD, SF_SS1OUT_REQOUT 1, SF_SS1OUT_REQPOL 1,
    SF_SS1OUT_REQOUT 2, SF_SS1OUT_REQPOL 2]

/-- Two states drive an output alike. -/
structure DriveKept (k : Nat) (s t : State) : Prop where
  out : t.out k = s.out k
  configured : t.fd.configured = s.fd.configured
  dbg : t.dbg = s.dbg
  tu : t.tu = s.tu
  sf : t.sf = s.sf
  flds : ∀ f ∈ driveFlds k, t.g f = s.g f

theorem DriveKept.refl (k : Nat) (s : State) : DriveKept k s s := ⟨rfl, rfl, rfl, rfl, rfl, fun _ _ => rfl⟩

theorem DriveKept.trans {k : Nat} {a b c : State} (h : DriveKept k a b) (h' : DriveKept k b c) : DriveKept k a c :=
  ⟨h'.out.trans h.out, h'.configured.trans h.configured, h'.dbg.trans h.dbg, h'.tu.trans h.tu, h'.sf.trans h.sf,
    fun f mem => (h'.flds f mem).trans (h.flds f mem)⟩

theorem DriveKept.on {k : Nat} {s t : State} (h : DriveKept k s t) {f : Fld} (mem : f ∈ driveFlds k) : t.on f = s.on f :=
  congrArg (· == 1) (h.flds f mem)

theorem DriveKept.testDrive {k : Nat} {s t : State} (h : DriveKept k s t) : t.testDrive k = s.testDrive k := by
  rw [State.testDrive, State.testDrive, h.dbg, h.tu]

theorem DriveKept.reqLevel {k : Nat} {s t : State} (h : DriveKept k s t) : t.reqLevel k = s.reqLevel k := by
  rw [State.reqLevel, State.reqLevel, State.drv, State.drv, State.drv, State.drv, h.sf, h.flds (SF_SS1OUT_REQOUT 1) (by simp [driveFlds]),
    h.flds (SF_SS1OUT_REQOUT 2) (by simp [driveFlds]), h.on (f := SF_SS1OUT_REQPOL 1) (by simp [driveFlds]),
    h.on (f := SF_SS1OUT_REQPOL 2) (by simp [driveFlds])]

theorem DriveKept.outRow {k : Nat} {s t : State} (h : DriveKept k s t) : t.outRow k = s.outRow k := by
  have gated : t.gated = s.gated := congrArg (!·) (h.on (f := UN_STAT_HOLD) (by simp [driveFlds]))
  rw [State.outRow, State.outRow, h.flds FD_STAT_SUPPLY (by simp [driveFlds]), h.testDrive, gated, h.reqLevel,
    h.on (f := FD_STAT_SILENT) (by simp [driveFlds]), h.configured, h.flds (safeFld k) (by simp [driveFlds]), h.out,
    h.on (f := FD_FPPSTAT_TRIG (k - 0x10)) (by simp [driveFlds]), h.on (f := cmdFld k) (by simp [driveFlds])]

theorem DriveKept.outLevel {k : Nat} {s t : State} (h : DriveKept k s t) : t.outLevel k = s.outLevel k := by
  rw [State.outLevel, State.outLevel, h.outRow, h.out, h.on (f := latchFld k) (by simp [driveFlds])]

/-- A readback or a retry count shown changes no level. -/
theorem DriveKept.p {k j : Nat} {s t : State} (h : DriveKept k s t) {f : Fld} (v : Nat) (shown : f = rbFld j ∨ f = retryFld j) :
    DriveKept k s (t.p f v) := by
  refine h.trans ⟨rfl, rfl, rfl, rfl, rfl, fun g mem => State.g_p_off _ _ ?_⟩
  obtain ⟨place, word⟩ := outReg_place j
  obtain ⟨place', word'⟩ := outReg_place k
  obtain ⟨latch, -, -, cmd, safe⟩ := outReg_eq k
  obtain ⟨-, retry, rb, -, -⟩ := outReg_eq j
  have at_ : f.reg = outReg j ∧ (f.lo = 1 ∧ f.w = 1 ∨ f.lo = 8 ∧ f.w = 4) := by
    rcases shown with rfl | rfl
    · rw [rb]
      exact ⟨rfl, .inl ⟨rfl, rfl⟩⟩
    · rw [retry]
      exact ⟨rfl, .inr ⟨rfl, rfl⟩⟩
  simp only [driveFlds, latch, cmd, safe, List.mem_cons, List.not_mem_nil, or_false] at mem
  rcases mem with rfl | rfl | rfl | rfl | rfl | rfl | rfl | rfl | rfl | rfl | rfl
  all_goals simp only [FD_FPPSTAT_TRIG, FD_STAT_SUPPLY, FD_STAT_SILENT, UN_STAT_HOLD, SF_SS1OUT_REQOUT, SF_SS1OUT_REQPOL]; omega

/-! ### Every output takes its row (R328, R331) -/

theorem outReg_apart {k j : Nat} (hk : k ∈ outCodes) (hj : j ∈ outCodes) (other : k ≠ j) : outReg k ≠ outReg j := by
  have all : ∀ k ∈ outCodes, ∀ j ∈ outCodes, k ≠ j → outReg k ≠ outReg j := by decide
  exact all k hk j hj other

/-- An output takes its row; one commanded off loses its retry count. -/
def State.driveOutput (s : State) (k : Nat) : State :=
  let t := s.pb (rbFld k) (s.outLevel k == some true)
  if t.outRow k == some true then t else t.p (retryFld k) 0

theorem State.driveOutput_kept (s : State) (k j : Nat) : DriveKept k s (s.driveOutput j) := by
  have shown : DriveKept k s (s.pb (rbFld j) (s.outLevel j == some true)) := (DriveKept.refl k s).p _ (.inl rfl)
  unfold State.driveOutput
  dsimp only
  split
  · exact shown
  · exact shown.p 0 (.inr rfl)

theorem State.g_driveOutput_ne (s : State) {k : Nat} {f : Fld} (other : f.reg ≠ outReg k) : (s.driveOutput k).g f = s.g f := by
  obtain ⟨-, retry, -, -, -⟩ := outReg_eq k
  have shown (b : Bool) : (s.pb (rbFld k) b).g f = s.g f := s.g_p_reg _ other
  unfold State.driveOutput
  dsimp only
  split
  · exact shown _
  · exact (State.g_p_reg _ _ (by rwa [retry])).trans (shown _)

theorem State.driveOutput_rb (s : State) (k : Nat) : (s.driveOutput k).on (rbFld k) = (s.outLevel k == some true) := by
  obtain ⟨-, retry, rb, -, -⟩ := outReg_eq k
  have shown : (s.pb (rbFld k) (s.outLevel k == some true)).on (rbFld k) = (s.outLevel k == some true) :=
    State.on_pb_same _ _ _ (by simp [rb]) (by rw [rb])
  unfold State.driveOutput
  dsimp only
  split
  · exact shown
  · rw [State.on, State.g_p_off _ _ (by simp [retry, rb])]
    exact shown

theorem State.driveOutputs_rb (s : State) {k : Nat} (code : k ∈ outCodes) : s.driveOutputs.on (rbFld k) = (s.outLevel k == some true) := by
  obtain ⟨a, ⟨before, -⟩, -, after⟩ := foldl_apart (K := fun s t : State => DriveKept k s t ∧ t.on (rbFld k) = s.on (rbFld k))
    (f := State.driveOutput) (l := outCodes) (fun s => ⟨.refl k s, rfl⟩) (fun h h' => ⟨h.1.trans h'.1, h'.2.trans h.2⟩) (by decide) code
    (fun t j mem other => ⟨t.driveOutput_kept k j, congrArg (· == 1) (t.g_driveOutput_ne (outReg_apart code mem other.symm))⟩) s
  exact after.trans ((a.driveOutput_rb k).trans (by rw [before.outLevel]))

/-! ### Shutdowns and retries (R328) -/

@[simp] theorem State.out_modOut_same (s : State) (k : Nat) (f : OutSt → OutSt) : (s.modOut k f).out k = f (s.out k) := tabGet_tabSet_same _ _ _ _

theorem State.out_modOut_ne (s : State) {k j : Nat} (f : OutSt → OutSt) (other : j ≠ k) : (s.modOut k f).out j = s.out j :=
  tabGet_tabSet_ne _ _ _ other

theorem State.rb_off (s : State) (k : Nat) : (s.p (rbFld k) 0).on (rbFld k) = false := by
  obtain ⟨-, -, rb, -, -⟩ := outReg_eq k
  rw [State.on, State.g_p_fits _ (by simp [rb])]
  rfl

/-- A channel that has retries left is off until the next. -/
theorem State.shutdown_waits {s : State} {k : Nat} (left : s.g (retryFld k) < 10) :
    s.shutdown k = (s.modOut k fun x => { x with shut := true, since := s.tu.upNs }).p (rbFld k) 0 := by
  rw [State.shutdown, if_neg (Nat.not_le.2 left)]

/-- The shutdown after the tenth retry latches the channel off, with a notice. -/
theorem State.shutdown_latches {s : State} {k : Nat} (spent : 10 ≤ s.g (retryFld k)) :
    s.shutdown k = ((s.p (latchFld k) 1).notice 0x1C 5 (k % 16) ((s.p (latchFld k) 1).word (latchFld k))).p (rbFld k) 0 := by
  rw [State.shutdown, if_pos spent]

theorem not_recPage_field {a : Nat} (h : a / 0x10000 = 0x6000) : ¬ recPage a := by unfold recPage; omega

theorem State.shutdown_latched {s : State} {k : Nat} (code : k ∈ outCodes) (spent : 10 ≤ s.g (retryFld k)) :
    (s.shutdown k).on (latchFld k) = true := by
  obtain ⟨latch, -, rb, -, -⟩ := outReg_eq k
  have page : ∀ k ∈ outCodes, outReg k / 0x10000 = 0x6000 := by decide
  have field : ¬ recPage (latchFld k).reg := by
    rw [latch]
    exact not_recPage_field (page k code)
  rw [State.shutdown_latches spent, State.on, State.g_p_off _ _ (by simp [latch, rb]), State.notice_g _ _ _ _ _ (by decide) _ field,
    State.g_p_fits _ (by simp [latch])]
  rfl

section
variable {s : State} {c : OutCh}

/-- A channel that switches on again after its 100 ms. -/
def State.retried (s : State) (k : Nat) : State := s.modOut k fun x => { x with shut := false, since := s.tu.upNs }

/-- A retry counted where the channel is commanded on, and the output shown. -/
def State.retryShown (s : State) (k : Nat) : State :=
  (s.p (retryFld k) (if s.driven k = true then s.g (retryFld k) + 1 else 0)).pb (rbFld k) (s.outLevel k == some true)

theorem State.retryShown_shows (s : State) (k : Nat) : let t := s.retryShown k
    OnlyRegs s t (regIn [rbFld k]) ∧ t.on (rbFld k) = (s.outLevel k == some true) ∧
    (s.driven k = true → t.g (retryFld k) = (s.g (retryFld k) + 1) % 16) ∧ (s.driven k = false → t.g (retryFld k) = 0) := by
  obtain ⟨-, retry, rb, -, -⟩ := outReg_eq k
  have width : (retryFld k).w = 4 := by rw [retry]
  have count : (s.retryShown k).g (retryFld k) = (if s.driven k = true then s.g (retryFld k) + 1 else 0) % 16 := by
    rw [State.retryShown, State.g_pb_off _ _ (by simp [retry, rb]), State.g_p_same _ _ _ (by simp [retry]), width]
    rfl
  have shown : OnlyRegs s (s.retryShown k) (regIn [rbFld k]) :=
    (OnlyRegs.of_p s _ (regIn_head [] (by rw [retry, rb]))).pb (rbFld k) _ (regIn_head [] rfl)
  exact ⟨shown, State.on_pb_same _ _ _ (by simp [rb]) (by rw [rb]), fun on => by rw [count, if_pos on],
    fun off => by rw [count, if_neg (by simp [off])]⟩

theorem exec_thermalRetry_due (off : (s.out (outChCode c)).shut = true) (due : (s.out (outChCode c)).since + 100000000 ≤ s.tu.upNs) :
    exec (.thermalRetry c) s = .next ((s.retried (outChCode c)).retryShown (outChCode c)) := by
  refine (if_pos (by simp [off, due])).trans ?_
  change (if (s.retried (outChCode c)).driven (outChCode c) = true then _ else _) = _
  rw [State.retryShown]
  split <;> rfl

theorem exec_thermalRetry_idle (idle : (s.out (outChCode c)).shut = false ∨ s.tu.upNs < (s.out (outChCode c)).since + 100000000) :
    exec (.thermalRetry c) s = .next s := by
  refine if_neg ?_
  rcases idle with runs | early
  · simp [runs]
  · simp [Nat.not_le.2 early]

theorem exec_retryCountReset_due (on : s.driven (outChCode c) = true) (due : (s.out (outChCode c)).since + 1000000000 ≤ s.tu.upNs) :
    exec (.retryCountReset c) s = .next (s.p (retryFld (outChCode c)) 0) := if_pos (by simp [on, due])

theorem exec_retryCountReset_idle (idle : s.driven (outChCode c) = false ∨ s.tu.upNs < (s.out (outChCode c)).since + 1000000000) :
    exec (.retryCountReset c) s = .next s := by
  refine if_neg ?_
  rcases idle with off | early
  · simp [off]
  · simp [Nat.not_le.2 early]

end

/-! ### Diagnostics of a high-side switch (R328, R329) -/

section
variable {s : State} {h : Fin 12}

/-- A diagnostic flag raised with its notice (R329). -/
def State.raised (s : State) (f : Fld) (code elem : Nat) : State := (s.p f 1).notice 0x1C code elem ((s.p f 1).word f)

theorem exec_thermalShutdown_off (off : s.driven (h + 1) = false) : exec (.thermalShutdown h) s = .next s := if_neg (by simp [off])

theorem exec_thermalShutdown_quiet (on : s.driven (h + 1) = true) (quiet : s.on FD_STAT_DIAGSUSP = true ∨ s.on (FD_HSOSTAT_OTEMP (h + 1)) = true) :
    exec (.thermalShutdown h) s = .next (s.shutdown (h + 1)) :=
  (if_pos on).trans (congrArg (fun t : State => Host.Outcome.next (t.shutdown (h + 1))) (if_pos (by simpa using quiet)))

theorem exec_thermalShutdown_raised (on : s.driven (h + 1) = true) (active : s.on FD_STAT_DIAGSUSP = false)
    (new : s.on (FD_HSOSTAT_OTEMP (h + 1)) = false) :
    exec (.thermalShutdown h) s = .next ((s.raised (FD_HSOSTAT_OTEMP (h + 1)) 2 (h + 1)).shutdown (h + 1)) :=
  (if_pos on).trans (congrArg (fun t : State => Host.Outcome.next (t.shutdown (h + 1))) (if_neg (by simp [active, new])))

theorem exec_hsoOverload_raised (on : s.driven (h + 1) = true) (active : s.on FD_STAT_DIAGSUSP = false)
    (new : s.on (FD_HSOSTAT_OVL (h + 1)) = false) :
    exec (.hsoOverload h) s = .next (s.raised (FD_HSOSTAT_OVL (h + 1)) 1 (h + 1)) := if_pos (by simp [on, active, new])

theorem exec_hsoOverload_quiet
    (quiet : s.driven (h + 1) = false ∨ s.on FD_STAT_DIAGSUSP = true ∨ s.on (FD_HSOSTAT_OVL (h + 1)) = true) : exec (.hsoOverload h) s = .next s := by
  refine if_neg ?_
  rcases quiet with off | suspended | old
  · simp [off]
  · simp [suspended]
  · simp [old]

theorem exec_hsoOpenLoad_suspended (suspended : s.on FD_STAT_DIAGSUSP = true) (present : Bool) : exec (.hsoOpenLoad h present) s = .next s :=
  if_pos suspended

theorem exec_hsoOpenLoad_absent (active : s.on FD_STAT_DIAGSUSP = false) : exec (.hsoOpenLoad h false) s = .next (s.p (FD_HSOSTAT_OPEN (h + 1)) 0) :=
  if_neg (by simp [active])

theorem exec_hsoOpenLoad_raised (active : s.on FD_STAT_DIAGSUSP = false) (new : s.on (FD_HSOSTAT_OPEN (h + 1)) = false)
    (tested : s.driven (h + 1) = true ∨ s.on (FD_HSOCFG_OWOFF (h + 1)) = true) :
    exec (.hsoOpenLoad h true) s = .next (s.raised (FD_HSOSTAT_OPEN (h + 1)) 3 (h + 1)) := by
  refine (if_neg (by simp [active])).trans ((if_pos rfl).trans (if_neg ?_))
  rcases tested with on | enabled
  · simp [new, on]
  · simp [new, enabled]

theorem exec_hsoShortToSupply_suspended (suspended : s.on FD_STAT_DIAGSUSP = true) (present : Bool) :
    exec (.hsoShortToSupply h present) s = .next s := if_pos suspended

theorem exec_hsoShortToSupply_absent (active : s.on FD_STAT_DIAGSUSP = false) :
    exec (.hsoShortToSupply h false) s = .next (s.p (FD_HSOSTAT_SHORTP (h + 1)) 0) := if_neg (by simp [active])

theorem exec_hsoShortToSupply_raised (active : s.on FD_STAT_DIAGSUSP = false) (new : s.on (FD_HSOSTAT_SHORTP (h + 1)) = false)
    (off : s.driven (h + 1) = false) : exec (.hsoShortToSupply h true) s = .next (s.raised (FD_HSOSTAT_SHORTP (h + 1)) 4 (h + 1)) :=
  (if_neg (by simp [active])).trans ((if_pos rfl).trans (if_neg (by simp [new, off])))

end

/-- A flag that its condition's absence clears. -/
theorem State.cleared_shows (s : State) {f : Fld} (flag : f.lo + f.w ≤ 32) : (s.p f 0).on f = false ∧ OnlyRegs s (s.p f 0) (regIn [f]) := by
  refine ⟨?_, OnlyRegs.of_p s 0 (regIn_head [] rfl)⟩
  rw [State.on, State.g_p_fits _ ⟨flag, Nat.two_pow_pos _⟩]
  rfl

/-! ### Push-pull outputs (R330) -/

section
variable {s : State} {f : Fin 4}

theorem exec_fppOverload_off (off : s.driven (0x11 + f) = false) : exec (.fppOverload f) s = .next s := if_neg (by simp [off])

theorem exec_fppOverload_old (on : s.driven (0x11 + f) = true) (old : s.on (FD_FPPSTAT_OVL (f + 1)) = true) :
    exec (.fppOverload f) s = .next (s.shutdown (0x11 + f)) :=
  (if_pos on).trans (congrArg (fun t : State => Host.Outcome.next (t.shutdown (0x11 + f))) (if_pos old))

theorem exec_fppOverload_raised (on : s.driven (0x11 + f) = true) (new : s.on (FD_FPPSTAT_OVL (f + 1)) = false) :
    exec (.fppOverload f) s = .next ((s.raised (FD_FPPSTAT_OVL (f + 1)) 6 (f + 1)).shutdown (0x11 + f)) :=
  (if_pos on).trans (congrArg (fun t : State => Host.Outcome.next (t.shutdown (0x11 + f))) (if_neg (by simp [new])))

theorem exec_fppEdgeCheck_off (off : s.outLevel (0x11 + f) = none) (level : Bool) : exec (.fppEdgeCheck f level) s = .next s := by
  change execFppEdgeCheck f level s = _
  rw [execFppEdgeCheck, off]

theorem exec_fppEdgeCheck_driven {v : Bool} (driven : s.outLevel (0x11 + f) = some v) (level : Bool) : exec (.fppEdgeCheck f level) s = .next (
    if v = level then s.pb (FD_FPPSTAT_RB (f + 1)) level else (s.pb (FD_FPPSTAT_RB (f + 1)) level).raised (FD_FPPSTAT_MISM (f + 1)) 7 (f + 1)) := by
  change execFppEdgeCheck f level s = _
  rw [execFppEdgeCheck, driven, apply_ite Host.Outcome.next]
  exact if_congr beq_iff_eq rfl rfl

end

/-! ### The silence of the field die (R332, R333, R345) -/

/-- An output's level held from the silence expiry. -/
def State.holdOutput (s : State) (k : Nat) : State := s.modOut k fun x => { x with hold := s.outLevel k == some true }

/-- A current held from the silence expiry. -/
def State.holdLoop (s : State) (n : Nat) : State := s.modAio n fun x => { x with hold := s.loopUa n }

theorem State.holdOutput_kept (s : State) {k j : Nat} (other : k ≠ j) : DriveKept k s (s.holdOutput j) :=
  ⟨s.out_modOut_ne _ other, rfl, rfl, rfl, rfl, fun _ _ => rfl⟩

/-- Two states differ in what the outputs hold and nowhere else. -/
def HoldOnly (s t : State) : Prop := t = { s with fd := { s.fd with out := t.fd.out } }

theorem HoldOnly.trans {a b c : State} (h : HoldOnly a b) (h' : HoldOnly b c) : HoldOnly a c := by
  unfold HoldOnly at *
  rw [h', h]

/-- Two states differ in the analogue channels and nowhere else. -/
def LoopOnly (s t : State) : Prop := t = { s with an := t.an }

theorem LoopOnly.trans {a b c : State} (h : LoopOnly a b) (h' : LoopOnly b c) : LoopOnly a c := by
  unfold LoopOnly at *
  rw [h', h]

theorem State.heldOutputs_shows (s : State) : let t := outCodes.foldl State.holdOutput s
    HoldOnly s t ∧ ∀ k ∈ outCodes, (t.out k).hold = (s.outLevel k == some true) := by
  refine ⟨List.foldlRecOn (motive := HoldOnly s) _ _ rfl fun t kept k _ => kept.trans rfl, fun k code => ?_⟩
  obtain ⟨a, before, after⟩ := foldl_apart (K := DriveKept k) (f := State.holdOutput) (l := outCodes) (.refl k) .trans (by decide) code
    (fun t j _ other => t.holdOutput_kept other.symm) s
  rw [after.out, State.holdOutput, State.out_modOut_same, before.outLevel]

theorem State.loopUa_of_loopOnly {s t : State} (h : LoopOnly s t) {n : Nat} (same : t.aio n = s.aio n) : t.loopUa n = s.loopUa n := by
  rw [State.loopUa, State.loopUa, same, h]
  rfl

theorem State.heldLoops_shows (s : State) : let t := [1, 2, 3, 4, 5, 6].foldl State.holdLoop s
    LoopOnly s t ∧ ∀ n ∈ [1, 2, 3, 4, 5, 6], (t.aio n).hold = s.loopUa n := by
  refine ⟨List.foldlRecOn (motive := LoopOnly s) _ _ rfl fun t kept k _ => kept.trans rfl, fun n code => ?_⟩
  obtain ⟨a, ⟨only, before⟩, -, after⟩ := foldl_apart (K := fun s t : State => LoopOnly s t ∧ t.aio n = s.aio n) (f := State.holdLoop)
    (l := [1, 2, 3, 4, 5, 6]) (fun _ => ⟨rfl, rfl⟩) (fun h h' => ⟨h.1.trans h'.1, h'.2.trans h.2⟩) (by decide) code
    (fun t j _ other => ⟨rfl, tabGet_tabSet_ne _ _ _ other.symm⟩) s
  rw [after, State.holdLoop, State.aio, State.modAio, tabGet_tabSet_same, State.loopUa_of_loopOnly only before]

theorem State.loopUa_of_holdOnly {s t : State} (h : HoldOnly s t) (n : Nat) : t.loopUa n = s.loopUa n := by
  rw [h]
  rfl

theorem LoopOnly.out {s t : State} (h : LoopOnly s t) (k : Nat) : t.out k = s.out k := by
  rw [h]
  rfl

theorem HoldOnly.loops {a b c : State} (h : HoldOnly a b) (h' : LoopOnly b c) : c = { a with fd := { a.fd with out := c.fd.out }, an := c.an } := by
  unfold HoldOnly at h
  unfold LoopOnly at h'
  rw [h', h]

theorem State.holdOutputs_shows (s : State) :
    s.holdOutputs = { s with fd := { s.fd with out := s.holdOutputs.fd.out }, an := s.holdOutputs.an } ∧
    (∀ k ∈ outCodes, (s.holdOutputs.out k).hold = (s.outLevel k == some true)) ∧
    ∀ n ∈ [1, 2, 3, 4, 5, 6], (s.holdOutputs.aio n).hold = s.loopUa n := by
  obtain ⟨held, outs⟩ := s.heldOutputs_shows
  obtain ⟨only, loops⟩ := (outCodes.foldl State.holdOutput s).heldLoops_shows
  have run : s.holdOutputs = [1, 2, 3, 4, 5, 6].foldl State.holdLoop (outCodes.foldl State.holdOutput s) := rfl
  rw [run]
  exact ⟨held.loops only, fun k code => by rw [only.out, outs k code], fun n code => by rw [loops n code, State.loopUa_of_holdOnly held]⟩

/-- The silence state entered: the pending parts of the field die go, the entry is counted (R333). -/
def State.silenceEntered (s : State) : State :=
  (({ s with parts := s.parts.filter (fun p => p.q != ApplyQ.field), fd := { s.fd with silEntries := s.fd.silEntries + 1 } } : State).p
    FD_STAT_SILENT 1).inc FD_SILCNT_COUNT

theorem State.silenceEntered_shows (s : State) : let a := s.silenceEntered
    a.on FD_STAT_SILENT = true ∧ a.g FD_SILCNT_COUNT = (s.g FD_SILCNT_COUNT + 1) % 2 ^ 32 ∧ RegsKeep s a (regIn [FD_STAT_SILENT, FD_SILCNT_COUNT]) ∧
    a.parts = s.parts.filter (fun p => p.q != .field) ∧ a.fd.silEntries = s.fd.silEntries + 1 ∧ (∀ k, a.out k = s.out k) ∧
    ∀ n, a.aio n = s.aio n := by
  refine ⟨?_, ?_, ?_, rfl, rfl, fun _ => rfl, fun _ => rfl⟩
  · rw [State.on, State.silenceEntered, State.g_inc_off _ (by decide), State.g_p_fits _ (by decide)]
    rfl
  · rw [State.silenceEntered, State.g_inc_same _ (by decide), State.g_p_reg _ _ (by decide)]
    rfl
  · exact (OnlyRegs.of_p (f := FD_STAT_SILENT) _ 1 (regIn_head _ rfl)).2.p FD_SILCNT_COUNT _ ⟨_, List.mem_cons_of_mem _ List.mem_cons_self, rfl⟩

/-- The field die as its silence begins, before the notice. -/
def State.silenced (s : State) : State := s.holdOutputs.silenceEntered

theorem State.silenced_shows (s : State) : let a := s.silenced
    a.on FD_STAT_SILENT = true ∧ a.g FD_SILCNT_COUNT = (s.g FD_SILCNT_COUNT + 1) % 2 ^ 32 ∧ a.parts = s.parts.filter (fun p => p.q != .field) ∧
    (∀ k ∈ outCodes, (a.out k).hold = (s.outLevel k == some true)) ∧ (∀ n ∈ [1, 2, 3, 4, 5, 6], (a.aio n).hold = s.loopUa n) ∧
    a.fd.silEntries = s.fd.silEntries + 1 ∧ RegsKeep s a (regIn [FD_STAT_SILENT, FD_SILCNT_COUNT]) := by
  obtain ⟨held, outs, loops⟩ := s.holdOutputs_shows
  obtain ⟨silent, count, keep, parts, entries, out, aio⟩ := s.holdOutputs.silenceEntered_shows
  have regs : s.holdOutputs.regs = s.regs := by rw [held]
  have parts' : s.holdOutputs.parts = s.parts := by rw [held]
  have entries' : s.holdOutputs.fd.silEntries = s.fd.silEntries := by rw [held]
  refine ⟨silent, ?_, parts.trans (by rw [parts']), fun k code => ?_, fun n code => ?_, entries.trans (by rw [entries']),
    ((RegsKeep.refl s _).of_regs regs).trans keep⟩
  · exact count.trans (by rw [State.g, State.g, regs])
  · exact (congrArg OutSt.hold (out k)).trans (outs k code)
  · exact (congrArg AioSt.hold (aio n)).trans (loops n code)

theorem exec_silenceExpiry_idle {s : State} (idle : s.on FD_STAT_SILENT = true ∨ s.tu.upNs < s.fd.msgAt + s.silenceNs) :
    exec .silenceExpiry s = .next s := if_pos (by simpa using idle)

theorem exec_silenceExpiry_due {s : State} (active : s.on FD_STAT_SILENT = false) (due : s.fd.msgAt + s.silenceNs ≤ s.tu.upNs) :
    exec .silenceExpiry s = .next ((s.silenced.notice 0x1C 8 0 (s.silenced.word FD_STAT_SILENT)).drivesOff 7).driveOutputs :=
  if_neg (by simp [active, due])

end Sys2Proof.Machine

namespace Sys2Proof.Proofs
open Sys2Proof.Machine Sys2Proof.Safety

/-- Settles O47: the rows of each output, where what a test-held output shows is a free value (log 16), then the commands of its protection and
diagnostics and the silence. -/
theorem outputsAreDrivenAndProtected : Obligations.OutputsAreDrivenAndProtected := by
  intro s h f c present level k m o
  refine ⟨fun j code => ?rows, fun on => ⟨exec_thermalShutdown_quiet on, exec_thermalShutdown_raised on, exec_hsoOverload_raised on,
      fun quiet => exec_hsoOverload_quiet (.inr quiet)⟩,
    fun off => ⟨exec_thermalShutdown_off off, exec_hsoOverload_quiet (.inl off)⟩,
    fun off due => ⟨_, exec_thermalRetry_due off due, ?retried⟩, exec_thermalRetry_idle, exec_retryCountReset_idle,
    fun on due => ⟨_, exec_retryCountReset_due on due, ?reset⟩,
    fun suspended => ⟨exec_hsoOpenLoad_suspended suspended present, exec_hsoShortToSupply_suspended suspended present⟩,
    fun active => ⟨⟨_, exec_hsoOpenLoad_absent active, s.cleared_shows (by decide : 3 + 1 ≤ 32)⟩,
      ⟨_, exec_hsoShortToSupply_absent active, s.cleared_shows (by decide : 5 + 1 ≤ 32)⟩,
      exec_hsoOpenLoad_raised active, exec_hsoShortToSupply_raised active⟩,
    fun on => ⟨exec_fppOverload_old on, exec_fppOverload_raised on⟩, exec_fppOverload_off, fun off => exec_fppEdgeCheck_off off level,
    fun same => ⟨_, (exec_fppEdgeCheck_driven same level).trans (congrArg _ (if_pos rfl)), ?readback⟩,
    fun other => (exec_fppEdgeCheck_driven other level).trans (congrArg _ (if_neg (by simp))), rfl, exec_silenceExpiry_idle,
    fun active due => ?silence⟩
  case rows =>
    refine ⟨State.outLevel_protected, State.outLevel_of_row, State.outRow_unsupplied, fun on on' y tested => ?tested, State.outRow_gated,
      State.testDrive_of_none, fun on on' untested ungated => ?free, s.driveOutputs_rb code, fun left => ?waits,
      fun spent => ⟨State.shutdown_latched code spent, ?latched⟩⟩
    case tested =>
      have row (port : y.port = 0x7F + j) := State.outRow_tested ⟨on, on'⟩ (State.testDrive_of_port tested port)
      exact ⟨fun port depth low => (row port).trans (if_pos (.inl ⟨depth, low⟩)),
        fun port depth absent => (row port).trans (if_pos (.inr ⟨depth, absent⟩)),
        fun port depth plugged => ⟨_, (row port).trans (if_neg (by simp [depth, plugged]))⟩⟩
    case free =>
      have free : s.outFree j := ⟨⟨on, on'⟩, untested, ungated⟩
      refine ⟨fun v => State.outRow_requested free, fun unrequested => ?_⟩
      have silentRow := State.outRow_silent free unrequested
      have drivenRow := State.outRow_driven free unrequested
      refine ⟨fun silent ready safe => ?_, fun silent ready safe => ?_, fun silent ready safe => ?_, fun silent unready => ?_, fun active low => ?_,
        fun active high => ?_⟩
      · simp [silentRow silent, ready, safe]
      · simp [silentRow silent, ready, safe]
      · have hold : s.g (safeFld j) ≠ 0 ∧ s.g (safeFld j) ≠ 1 := by omega
        simp [silentRow silent, ready, hold]
      · simp [silentRow silent, unready]
      · exact (drivenRow active).trans (if_neg fun ⟨fpp, _⟩ => by omega)
      · have fpp : ∀ j ∈ outCodes, 12 < j → 0x10 < j := by decide
        rw [drivenRow active]
        simp [fpp j code high, apply_ite some]
    case waits =>
      rw [State.shutdown_waits left]
      exact ⟨s.out_modOut_same j fun x => { x with shut := true, since := s.tu.upNs }, State.rb_off _ j, rfl⟩
    case latched =>
      rw [State.shutdown_latches spent]
      exact State.rb_off _ j
  case retried => exact (s.retried o).retryShown_shows o
  case reset =>
    obtain ⟨-, retry, -, -, -⟩ := outReg_eq (outChCode c)
    exact ⟨State.g_p_fits _ (by simp [retry]), OnlyRegs.of_p s 0 (regIn_head [] rfl)⟩
  case readback => exact ⟨State.on_pb_same _ _ _ (by decide : 1 + 1 ≤ 32) rfl, (OnlyRegs.refl s _).pb _ _ (regIn_head [] rfl)⟩
  case silence =>
    obtain ⟨silent, count, parts, outs, loops, entries, keep⟩ := s.silenced_shows
    exact ⟨s.silenced, silent, count, parts, outs, loops, entries, keep, exec_silenceExpiry_due active due⟩

end Sys2Proof.Proofs

/-! SUPPORT. Every command has a meaning that ends in a next state, on every path. -/

namespace Sys2Proof.Machine
open Sys2Proof.Safety

/-- A meaning answers a next state: no fault and no refusal. -/
def Answers (o : Res) : Prop := ∃ t, o = .next t

theorem Answers.next (t : State) : Answers (.next t) := ⟨t, rfl⟩

theorem Answers.ite {q : Prop} [Decidable q] {a b : Res} (ha : Answers a) (hb : Answers b) : Answers (if q then a else b) := by
  split <;> assumption

/-- Each branch of a meaning answers; those named here branch on a reading or an operand's form first. -/
theorem exec_answers (c : Instr) (s : State) : Answers (exec c s) := by
  cases c
  case commandWindowClose | voteWindowClose | outputApply | queuedCommitRelease | anchor | pairExecutionPoint | forcedTestResult | retainedStore |
      sparePromotion | appTriggerArrival | slotTransmit | delayProbe | ringBreak | unfoldReady | switchFrameReceive | datagramReceive |
      fppEdgeCheck | discardTimerExpiry | lsbResponse | leaseEnd | actTime | pathPoll | resumePoint | supplyReconnect | registerWrite |
      ethLinkChange =>
    simp only [exec,
      execCommandWindowClose, execVoteWindowClose, execOutputApply, execQueuedCommitRelease, execAnchor, execPairExecutionPoint,
      execForcedTestResult, execRetainedStore, execSparePromotion, execAppTriggerArrival, execSlotTransmit, execDelayProbe, execRingBreak,
      execUnfoldReady, execSwitchFrameReceive, execDatagramReceive, execFppEdgeCheck, execDiscardTimerExpiry, execLsbResponse, execLeaseEnd,
      execActTime, execPathPoll, execResumePoint, execSupplyReconnect, execRegisterWrite, execEthLinkChange]
    repeat' first
      | exact .next _
      | split
  all_goals
    repeat' first
      | exact .next _
      | refine .ite ?_ ?_
      | split

end Sys2Proof.Machine

namespace Sys2Proof.Proofs
open Sys2Proof.Machine Sys2Proof.Safety

/-- Settles O1: the queue's two forms, each by the definition of a step. -/
theorem stepRunsTheFrontCommand : Obligations.StepRunsTheFrontCommand := fun _ _ _ => ⟨rfl, rfl⟩

/-- Settles O5: a tick answers, a command answers on every path, and what follows keeps the queue's rest and the variant. -/
theorem everyStepCompletesAndPopsOneCommand : Obligations.EveryStepCompletesAndPopsOneCommand := by
  intro s
  obtain ⟨t, ht⟩ : Answers (step s) := by
    unfold step
    split
    · exact .next _
    · exact exec_answers _ _
  obtain ⟨hpending, hvariant, -⟩ := step_keeps ht
  exact ⟨t, ht, hpending, hvariant⟩

end Sys2Proof.Proofs

/-! SUPPORT. The commands of the unit group (R377, R397, R487, R519): what each answers and stores by its checks. -/

namespace Sys2Proof.Machine
open Sys2Proof.Safety

/-- A check that a condition passes does not turn it away. -/
theorem not_of_check {q : Prop} {b : Bool} (check : q ↔ b = true) (h : q) : ¬ (!b) = true := by simp [check.1 h]

/-- A check that a condition fails turns it away. -/
theorem of_check_failed {q : Prop} {b : Bool} (check : q ↔ b = true) (h : ¬ q) : (!b) = true := by simpa using mt check.2 h

theorem within_iff {lo hi n : Nat} : within lo hi n = true ↔ lo ≤ n ∧ n ≤ hi := by simp [within]

/-! ### `UNIT_CONFIG` (R377, R487) -/

/-- The nodes of the witnesses that a `UNIT_CONFIG` payload names: the witness, and a backup where there is one. -/
def unitWitnesses (p : List Byte) : List Nat := byteAt p 3 :: (if byteAt p 4 = 0xFF then [] else [byteAt p 4])

/-- What R377 asks of the partner, the witnesses and the rings of a unit. -/
def State.unitFits (s : State) (p : List Byte) : Prop :=
  byteAt p 2 < 16 ∧ (∀ w ∈ unitWitnesses p, w < 16) ∧ 1 ≤ byteAt p 5 ∧ byteAt p 5 ≤ 3 ∧
  (bit (byteAt p 5) 0 = true → lightRingOk s.cfg.ring1 (byteAt p 2) (unitWitnesses p) = true) ∧
  (bit (byteAt p 5) 1 = true → lightRingOk s.cfg.ring2 (byteAt p 2) (unitWitnesses p) = true)

/-- As `UNIT_CONFIG` checks it. -/
theorem State.unitFits_iff (s : State) (p : List Byte) : s.unitFits p ↔
    (let wits := byteAt p 3 :: (if byteAt p 4 == 0xFF then [] else [byteAt p 4])
     decide (byteAt p 2 < 16) && wits.all (fun w => decide (w < 16)) && within 1 3 (byteAt p 5) &&
       (!bit (byteAt p 5) 0 || lightRingOk s.cfg.ring1 (byteAt p 2) wits) && (!bit (byteAt p 5) 1 || lightRingOk s.cfg.ring2 (byteAt p 2) wits)) = true := by
  simp only [unitFits, unitWitnesses, Bool.not_eq_true', ← Bool.not_eq_true, Bool.and_eq_true, Bool.or_eq_true, decide_eq_true_eq, List.all_eq_true,
    within_iff, beq_iff_eq, and_assoc, imp_iff_not_or]

/-- The settings with the unit of a payload. -/
def State.withUnit (s : State) (p : List Byte) : State :=
  { s with cfg := { s.cfg with unit := some {
      unit := leAt p 0 2, partner := byteAt p 2, witness := byteAt p 3, backup := if byteAt p 4 = 0xFF then none else some (byteAt p 4)
      r1 := bit (byteAt p 5) 0, r2 := bit (byteAt p 5) 1 } } }

section
variable {s : State} {i : CmdIn}

theorem State.cmdUnitConfig_of_reserved (reserved : zeros i.p 6 8 = false) : s.cmdUnitConfig i = .no s stBadParam :=
  if_pos (by simp [reserved])

variable (zeroed : zeros i.p 6 8 = true)
include zeroed

theorem State.cmdUnitConfig_of_removed (removed : leAt i.p 0 2 = 0) : s.cmdUnitConfig i =
    if s.cfg.unit = none then .idle s else .done (({ s with cfg := { s.cfg with unit := none } } : State).unstamp 3) :=
  (if_neg (by simp [zeroed])).trans ((if_pos (by simp [removed])).trans (if_congr Option.isNone_iff_eq_none rfl rfl))

variable (named : leAt i.p 0 2 ≠ 0)
include named

theorem State.cmdUnitConfig_of_unfit (unfit : ¬ s.unitFits i.p) : s.cmdUnitConfig i = .no s stBadParam :=
  (if_neg (by simp [zeroed])).trans ((if_neg (by simp [named])).trans (if_pos (of_check_failed (s.unitFits_iff i.p) unfit)))

theorem State.cmdUnitConfig_of_fits (fits : s.unitFits i.p) : s.cmdUnitConfig i = .done ((s.withUnit i.p).stamp 3) := by
  refine (if_neg (by simp [zeroed])).trans ((if_neg (by simp [named])).trans ((if_neg (not_of_check (s.unitFits_iff i.p) fits)).trans ?_))
  simp only [beq_iff_eq]
  rfl

end

/-! ### `UNIT_WITNESS` (R487) -/

/-- What a witness entry's payload must be: an entry, its flags, a unit where it is valid, nodes, nothing in the reserved bytes. -/
def witnessFits (p : List Byte) : Prop :=
  byteAt p 0 < 4 ∧ byteAt p 1 < 4 ∧ ¬ (bit (byteAt p 1) 1 = true ∧ leAt p 2 2 = 0) ∧ byteAt p 4 < 16 ∧ byteAt p 5 < 16 ∧ zeros p 6 8 = true

theorem witnessFits_iff (p : List Byte) : witnessFits p ↔
    (decide (byteAt p 0 < 4) && decide (byteAt p 1 < 4) && !(bit (byteAt p 1) 1 && leAt p 2 2 == 0) && decide (byteAt p 4 < 16) &&
      decide (byteAt p 5 < 16) && zeros p 6 8) = true := by
  simp only [witnessFits, Bool.and_eq_true, Bool.not_eq_true', ← Bool.not_eq_true, decide_eq_true_eq, beq_iff_eq, and_assoc]

theorem State.cmdUnitWitness_of_unfit {i : CmdIn} (unfit : ¬ witnessFits i.p) (s : State) : s.cmdUnitWitness i = .no s stBadParam :=
  if_pos (of_check_failed (witnessFits_iff i.p) unfit)

theorem State.cmdUnitWitness_of_fits {i : CmdIn} (fits : witnessFits i.p) (s : State) : s.cmdUnitWitness i =
    .done (({ s with cfg := { s.cfg with wit := tabSet (fun _ => 0) s.cfg.wit (byteAt i.p 0) (witWord i.p) } } : State).stamp (4 + byteAt i.p 0)) :=
  if_neg (not_of_check (witnessFits_iff i.p) fits)

/-! ### `UNIT_HANDOVER` (R397) -/

/-- The partner may take the Light over: the unit is configured and the partner's last health record says that it is eligible. -/
def State.mayHandOver (s : State) : Prop := ∃ q, s.un.partner = some q ∧ bit q.elig 0 = true ∧ s.on UN_CFG_EN = true

theorem State.cmdUnitHandover_of_may {s : State} (may : s.mayHandOver) (i : CmdIn) : s.cmdUnitHandover i =
    .later { s with un := { s.un with noRenewal := true, leaveTo := some (s.un.leaveTo.getD mHotStandby), answer := some (i.chans, i.hdr, i.p) } } := by
  obtain ⟨q, partner, eligible, configured⟩ := may
  rw [State.cmdUnitHandover, partner]
  exact if_pos (by simp [eligible, configured])

theorem State.cmdUnitHandover_of_not {s : State} (barred : ¬ s.mayHandOver) (i : CmdIn) : s.cmdUnitHandover i = .no s stVerifyFail := by
  rw [State.cmdUnitHandover]
  split
  next q partner => exact if_neg fun ok => barred ⟨q, partner, Bool.and_eq_true_iff.1 ok⟩
  next => rfl

end Sys2Proof.Machine

namespace Sys2Proof.Proofs
open Sys2Proof.Machine Sys2Proof.Safety

/-- Settles O15: the outcome of each command of the unit group by its checks. That the first mode to leave to stands is log 38. -/
theorem unitCommandsStoreAndHandOver : Obligations.UnitCommandsStoreAndHandOver := by
  refine ⟨fun s a ch h p c => ⟨fun r => ?config, fun r => ?witness⟩, fun s a ch h p c r => ?handover⟩
  all_goals obtain ⟨-, rfl⟩ := runs_hdr r
  case config =>
    rw [execUnitConfig_runs r]
    refine ⟨fun reserved => ?_, fun zeroed removed => ?_, fun zeroed named unfit => ?_, fun zeroed named fits => ?_⟩
    · rw [State.cmdUnitConfig_of_reserved reserved, finish_no]
    · rw [State.cmdUnitConfig_of_removed zeroed removed, finish_ite, finish_idle, finish_done]
    · rw [State.cmdUnitConfig_of_unfit zeroed named unfit, finish_no]
    · rw [State.cmdUnitConfig_of_fits zeroed named fits, finish_done]
      rfl
  case witness =>
    rw [execUnitWitness_runs r]
    refine ⟨fun unfit => ?_, fun fits => ?_⟩
    · rw [State.cmdUnitWitness_of_unfit unfit, finish_no]
    · rw [State.cmdUnitWitness_of_fits fits, finish_done]
  case handover =>
    rw [execUnitHandover_runs r]
    refine ⟨fun may => ?_, fun barred => ?_⟩
    · rw [State.cmdUnitHandover_of_may may, finish_later]
    · rw [State.cmdUnitHandover_of_not barred, finish_no]

end Sys2Proof.Proofs

/-! SUPPORT. The commands of the fault and event groups (R410 to R413, R488 to R490, R502, R503): what each answers and leaves by its checks. -/

namespace Sys2Proof.Machine
open Sys2Proof.Safety

/-! ### `FAULT_ACK` (R410, R488) -/

/-- A bit cleared where a condition says so. -/
def State.clearedIf (s : State) (q : Bool) (f : Fld) : State := if q then s.p f 0 else s

theorem State.on_clearedIf_same (s : State) (q : Bool) {f : Fld} (fits : f.lo + f.w ≤ 32) : (s.clearedIf q f).on f = (s.on f && !q) := by
  cases q with
  | false => exact (Bool.and_true _).symm
  | true => simp [State.clearedIf, State.on, s.g_p_same f 0 fits]

theorem State.g_clearedIf_off (s : State) (q : Bool) {f f' : Fld}
    (h : f'.reg ≠ f.reg ∨ f.lo + f.w ≤ 32 ∧ (f.lo + f.w ≤ f'.lo ∨ f'.lo + f'.w ≤ f.lo)) : (s.clearedIf q f).g f' = s.g f' := by
  cases q with
  | false => rfl
  | true => exact s.g_p_off 0 h

theorem State.on_clearedIf_off (s : State) (q : Bool) {f f' : Fld}
    (h : f'.reg ≠ f.reg ∨ f.lo + f.w ≤ 32 ∧ (f.lo + f.w ≤ f'.lo ∨ f'.lo + f'.w ≤ f.lo)) : (s.clearedIf q f).on f' = s.on f' :=
  congrArg (· == 1) (s.g_clearedIf_off q h)

theorem State.clearedIf_only {s t : State} {as : Nat → Prop} (h : OnlyRegs s t as) (q : Bool) (f : Fld) (hf : as f.reg) : OnlyRegs s (t.clearedIf q f) as :=
  OnlyRegs.ite (h.p f 0 hf) h

theorem bit_double (v k : Nat) : bit (2 * v) (k + 1) = bit v k := by
  simp only [bit, Nat.pow_succ']
  rw [Nat.mul_div_mul_left _ _ two_pos]

theorem State.ackFaults_double (s : State) (v : Nat) : s.ackFaults (2 * v) =
    ((s.clearedIf (bit v 0) FC_STAT_PEND1).clearedIf (bit v 1) FC_STAT_PEND2).clearedIf (bit v 2) FC_STAT_PEND3 := by
  simp only [State.ackFaults, List.foldl_cons, List.foldl_nil, bit_double v 0, bit_double v 1, bit_double v 2]
  rfl

/-- An acknowledgement clears the `PEND` bits of its mask and nothing else (R410). -/
theorem State.ackFaults_shows (s : State) (v : Nat) :
    (s.ackFaults (2 * v)).on FC_STAT_PEND1 = (s.on FC_STAT_PEND1 && !bit v 0) ∧ (s.ackFaults (2 * v)).on FC_STAT_PEND2 = (s.on FC_STAT_PEND2 && !bit v 1) ∧
    (s.ackFaults (2 * v)).on FC_STAT_PEND3 = (s.on FC_STAT_PEND3 && !bit v 2) ∧ (s.ackFaults (2 * v)).g FC_STAT_HALT = s.g FC_STAT_HALT ∧
    (s.ackFaults (2 * v)).g FC_STAT_FROZEN = s.g FC_STAT_FROZEN ∧ OnlyRegs s (s.ackFaults (2 * v)) (regIn [FC_STAT_PEND1]) := by
  rw [State.ackFaults_double]
  refine ⟨?_, ?_, ?_, ?_, ?_, ?_⟩
  · rw [State.on_clearedIf_off _ _ (by decide), State.on_clearedIf_off _ _ (by decide), State.on_clearedIf_same _ _ (by decide)]
  · rw [State.on_clearedIf_off _ _ (by decide), State.on_clearedIf_same _ _ (by decide), State.on_clearedIf_off _ _ (by decide)]
  · rw [State.on_clearedIf_same _ _ (by decide), State.on_clearedIf_off _ _ (by decide), State.on_clearedIf_off _ _ (by decide)]
  · rw [State.g_clearedIf_off _ _ (by decide), State.g_clearedIf_off _ _ (by decide), State.g_clearedIf_off _ _ (by decide)]
  · rw [State.g_clearedIf_off _ _ (by decide), State.g_clearedIf_off _ _ (by decide), State.g_clearedIf_off _ _ (by decide)]
  · refine State.clearedIf_only (State.clearedIf_only (State.clearedIf_only (OnlyRegs.refl s _) _ _ ?_) _ _ ?_) _ _ ?_ <;> exact regIn_head [] rfl

section
variable {s : State} {i : CmdIn}

theorem State.cmdFaultAck_of_reserved (reserved : 8 ≤ leAt i.p 0 4) : s.cmdFaultAck i = .no s stBadParam :=
  if_pos (by simp only [bne_iff_ne]; omega)

theorem State.cmdFaultAck_of_mask (mask : leAt i.p 0 4 < 8) : ∃ w, s.cmdFaultAck i = .ok (s.ackFaults (2 * leAt i.p 0 4)) [] w :=
  ⟨_, if_neg (by simp only [bne_iff_ne]; omega)⟩

/-! ### `FAULT_HISTORY` (R412, R489) -/

theorem State.cmdFaultHistory_of_reserved (reserved : 4 ≤ leAt i.p 0 4) : s.cmdFaultHistory i = .no s stBadParam :=
  if_pos (by simp only [bne_iff_ne]; omega)

/-- Half 0 delivered on channel 4 counts towards lifting the freeze (R412). -/
def State.halfDelivered (s : State) (v chan : Nat) : State :=
  if v = 0 ∧ chan = 4 ∧ s.on FC_STAT_FROZEN = true then { s with fc := { s.fc with part0 := true } } else s

theorem State.historyPart_halfDelivered (s : State) (v chan part : Nat) : (s.halfDelivered v chan).historyPart part = s.historyPart part := by
  unfold State.halfDelivered
  split <;> rfl

theorem State.cmdFaultHistory_of_read (read : leAt i.p 0 4 < 2) :
    s.cmdFaultHistory i = .read (s.halfDelivered (leAt i.p 0 4) i.chan) (s.historyPart (leAt i.p 0 4 % 2)) := by
  have whole : ¬ (leAt i.p 0 4 / 4 != 0) = true := by simp only [bne_iff_ne]; omega
  have keeps : (!bit (leAt i.p 0 4) 1) = true := by simp only [bit, Bool.not_eq_true', beq_eq_false_iff_ne]; omega
  rw [State.cmdFaultHistory, if_neg whole, if_pos keeps, ← s.historyPart_halfDelivered (leAt i.p 0 4) i.chan]
  have same : ((leAt i.p 0 4 % 2 == 0 && i.chan == 4 && s.on FC_STAT_FROZEN) = true) = (leAt i.p 0 4 = 0 ∧ i.chan = 4 ∧ s.on FC_STAT_FROZEN = true) := by
    simp only [Bool.and_eq_true, beq_iff_eq, and_assoc, Nat.mod_eq_of_lt read]
  simp only [same]
  rfl

variable (unfreeze : leAt i.p 0 4 = 2 ∨ leAt i.p 0 4 = 3)
include unfreeze

theorem unfreeze_bits : ¬ (leAt i.p 0 4 / 4 != 0) = true ∧ ¬ (!bit (leAt i.p 0 4) 1) = true := by
  rcases unfreeze with e | e <;> rw [e] <;> decide

theorem State.cmdFaultHistory_of_elsewhere (elsewhere : i.chan ≠ 4) : s.cmdFaultHistory i = .no s stAuth := by
  obtain ⟨whole, unfreezes⟩ := unfreeze_bits unfreeze
  exact (if_neg whole).trans ((if_neg unfreezes).trans (if_pos (by simp [elsewhere])))

omit unfreeze
variable (session : i.chan = 4)
include session

theorem State.cmdFaultHistory_of_first (first : leAt i.p 0 4 = 2) : s.cmdFaultHistory i = .no s stBadParam := by
  simp [State.cmdFaultHistory, first, session, bit]

variable (second : leAt i.p 0 4 = 3)
include second

theorem State.cmdFaultHistory_of_running (running : s.on FC_STAT_FROZEN = false) : s.cmdFaultHistory i = .read s (s.historyPart 1) := by
  simp [State.cmdFaultHistory, second, session, running, bit]

variable (frozen : s.on FC_STAT_FROZEN = true)
include frozen

theorem State.cmdFaultHistory_of_undelivered (undelivered : s.fc.part0 = false) : s.cmdFaultHistory i = .no s stVerifyFail := by
  simp [State.cmdFaultHistory, second, session, frozen, undelivered, bit]

/-- The freeze lifted (R412). -/
def State.unfrozen (s : State) : State := ({ s with fc := { s.fc with part0 := false } } : State).p FC_STAT_FROZEN 0

theorem State.cmdFaultHistory_of_delivered (delivered : s.fc.part0 = true) : s.cmdFaultHistory i = .read s.unfrozen (s.unfrozen.historyPart 1) := by
  simp only [State.cmdFaultHistory, second, session, frozen, delivered]
  rfl

end

/-! ### `FAULT_INJECT` (R413, R488) -/

/-- What a `FAULT_INJECT` payload must be. -/
def injectFits (p : List Byte) : Prop := srcRaises (byteAt p 0) (byteAt p 1) = true ∧ byteAt p 2 ≤ 1 ∧ byteAt p 3 = 0 ∧ zeros p 6 8 = true

theorem not_injectFits_iff (p : List Byte) :
    ¬ injectFits p ↔ (!srcRaises (byteAt p 0) (byteAt p 1) || decide (byteAt p 2 > 1) || byteAt p 3 != 0 || !zeros p 6 8) = true := by
  simp only [injectFits, Bool.or_eq_true, Bool.not_eq_true', ← Bool.not_eq_true, decide_eq_true_eq, bne_iff_ne, not_and_or, not_le, or_assoc, ne_eq]

/-- What the collector has seen of a forced report (R413). -/
def State.injectSeen (s : State) (p : List Byte) : List Byte :=
  if s.on (FC_SSTAT_PATHFAIL (byteAt p 0)) = true then leBytes 1 0 ++ leBytes 1 0 ++ leBytes 2 0
  else if byteAt p 2 = 1 then leBytes 1 4 ++ leBytes 1 2 ++ leBytes 2 0xFFFE
  else leBytes 1 (if 3 ≤ byteAt p 1 then 3 else 1) ++ leBytes 1 (byteAt p 1) ++ leBytes 2 (leAt p 4 2)

section
variable {s : State} {i : CmdIn}

theorem State.cmdFaultInject_of_unfit (unfit : ¬ injectFits i.p) : s.cmdFaultInject i = .no s stBadParam := if_pos ((not_injectFits_iff i.p).1 unfit)

theorem State.cmdFaultInject_of_fits (fits : injectFits i.p) : s.cmdFaultInject i =
    .ok (s.fcForce (byteAt i.p 0) (BitVec.ofNat 32 (1 + 2 * byteAt i.p 1 + 16 * byteAt i.p 2 + 65536 * leAt i.p 4 2))) (s.injectSeen i.p) true := by
  refine (if_neg (mt (not_injectFits_iff i.p).2 (not_not.2 fits))).trans ?_
  unfold State.injectSeen
  cases s.on (FC_SSTAT_PATHFAIL (byteAt i.p 0)) with
  | true => rfl
  | false => by_cases path : byteAt i.p 2 = 1 <;> simp [path]

end

end Sys2Proof.Machine

namespace Sys2Proof.Proofs
open Sys2Proof.Machine Sys2Proof.Safety

/-- Settles O16: the outcome of each command of the fault group by its checks. What `FAULT_INJECT` answers for a forced class 3 or more is log 28. -/
theorem faultCommandsAcknowledgeReadInject : Obligations.FaultCommandsAcknowledgeReadInject := by
  refine ⟨fun s a ch h p c => ⟨fun r => ?ack, fun r => execFaultStatus_runs r⟩, fun s a ch h p c r => ?history, fun s a ch h p c r => ?inject⟩
  all_goals obtain ⟨-, rfl⟩ := runs_hdr r
  case ack =>
    rw [execFaultAck_runs r]
    refine ⟨fun reserved => ?_, fun mask => ?_⟩
    · rw [State.cmdFaultAck_of_reserved reserved, finish_no]
    · obtain ⟨w, eq⟩ := State.cmdFaultAck_of_mask (s := a) mask
      exact ⟨_, w, by rw [eq, finish_ok], a.ackFaults_shows _⟩
  case history =>
    rw [execFaultHistory_runs r]
    refine ⟨fun reserved => ?_, fun read => ?_, fun unfreeze elsewhere => ?_, fun first session => ?_, fun second session running => ?_,
      fun second session frozen undelivered => ?_, fun second session frozen delivered => ⟨a.unfrozen, ?_, ?_, rfl, rfl, ?_, fun f => ?_⟩⟩
    · rw [State.cmdFaultHistory_of_reserved reserved, finish_no]
    · rw [State.cmdFaultHistory_of_read read, finish_read]; rfl
    · rw [State.cmdFaultHistory_of_elsewhere unfreeze elsewhere, finish_no]
    · rw [State.cmdFaultHistory_of_first session first, finish_no]
    · rw [State.cmdFaultHistory_of_running session second running, finish_read, second]
    · rw [State.cmdFaultHistory_of_undelivered session second frozen undelivered, finish_no]
    · rw [State.cmdFaultHistory_of_delivered session second frozen delivered, finish_read]
    · exact congrArg (· == 1) (State.g_p_fits _ (by decide))
    · exact fun x off => State.rd_p_ne _ 0 (fun e => off ⟨_, List.mem_cons_self, e⟩)
    · rintro (other | apart)
      · exact State.g_p_reg _ 0 other
      · exact State.g_p_apart _ 0 (by decide) (by omega)
  case inject =>
    rw [execFaultInject_runs r]
    refine ⟨fun unfit => ?_, fun fits => ?_⟩
    · rw [State.cmdFaultInject_of_unfit unfit, finish_no]
    · rw [State.cmdFaultInject_of_fits fits, finish_ok]
      rfl

end Sys2Proof.Proofs

/-! SUPPORT. The event recorder (R495 to R503): the bytes of a record, what a new and a repeated record hold, what a clear leaves, the commands of the
event group. -/

namespace Sys2Proof.Machine
open Sys2Proof.Safety

/-! ### Little-endian fields of concatenated bytes -/

/-- A field past the first part of concatenated bytes. -/
theorem leAt_append_right (a b : List Byte) {i n : Nat} (past : a.length ≤ i) : leAt (a ++ b) i n = leAt b (i - a.length) n := by
  rw [leAt, List.drop_append, List.drop_eq_nil_of_le past, List.nil_append, leAt]

/-- The field that concatenated bytes begin with. -/
theorem leAt_leBytes (n v : Nat) (b : List Byte) : leAt (leBytes n v ++ b) 0 n = v % 256 ^ n := by
  rw [leAt, List.drop_zero, padTo_append _ _ _ (length_leBytes n v), leNat_leBytes]

theorem leAt_leBytes_self (n v : Nat) : leAt (leBytes n v) 0 n = v % 256 ^ n := by
  simpa using leAt_leBytes n v []

theorem byteAt_eq_leAt (b : List Byte) (i : Nat) : byteAt b i = leAt b i 1 := by
  rw [byteAt, leAt, padTo, ← List.head?_drop]
  cases b.drop i <;> simp [leNat]

theorem length_padTo (n : Nat) (b : List Byte) : (padTo n b).length = n := by simp [padTo]

/-! ### The layout of a record (R495) -/

theorem EvRec.length_body (r : EvRec) : r.body.length = 60 := by simp [EvRec.body, length_leBytes, length_padTo]

theorem EvRec.length_bytes (r : EvRec) : r.bytes.length = 64 := by simp [EvRec.bytes, r.length_body, length_leBytes]

theorem EvRec.take_bytes (r : EvRec) : r.bytes.take 60 = r.body := by
  rw [EvRec.bytes, List.take_left' r.length_body]

/-- The bytes of a record as one run of fields. -/
theorem EvRec.bytes_eq (r : EvRec) : r.bytes = leBytes 4 r.seq ++ (leBytes 8 r.opms ++ (leBytes 4 r.pwrcyc ++ (leBytes 4 r.ns ++ (leBytes 4 r.era ++
    (leBytes 2 r.source ++ (leBytes 2 r.code ++ (leBytes 1 r.cls ++ (leBytes 1 r.flags ++ (leBytes 2 r.rep ++ (padTo 16 r.data ++
    (leBytes 4 r.lastdms ++ (leBytes 4 r.seq ++ (leBytes 4 0 ++ leBytes 4 (crc32 r.body)))))))))))))) := by
  simp only [EvRec.bytes, EvRec.body, List.append_assoc]

theorem EvRec.bytes_fields (r : EvRec) :
    leAt r.bytes 0 4 = r.seq % 2 ^ 32 ∧ leAt r.bytes 4 8 = r.opms % 2 ^ 64 ∧ leAt r.bytes 12 4 = r.pwrcyc % 2 ^ 32 ∧ leAt r.bytes 16 4 = r.ns % 2 ^ 32 ∧
    leAt r.bytes 20 4 = r.era % 2 ^ 32 ∧ leAt r.bytes 24 2 = r.source % 2 ^ 16 ∧ leAt r.bytes 26 2 = r.code % 2 ^ 16 ∧
    byteAt r.bytes 28 = r.cls % 256 ∧ byteAt r.bytes 29 = r.flags % 256 ∧ leAt r.bytes 30 2 = r.rep % 2 ^ 16 ∧
    leAt r.bytes 48 4 = r.lastdms % 2 ^ 32 ∧ leAt r.bytes 52 4 = r.seq % 2 ^ 32 ∧ leAt r.bytes 56 4 = 0 ∧
    leAt r.bytes 60 4 = crc32 r.body % 2 ^ 32 := by
  simp [EvRec.bytes_eq, byteAt_eq_leAt, leAt_append_right, leAt_leBytes, leAt_leBytes_self, length_leBytes, length_padTo]

theorem EvRec.bytes_data {r : EvRec} (whole : r.data.length = 16) : (r.bytes.drop 32).take 16 = r.data := by
  simp [EvRec.bytes_eq, padTo_of_length whole, List.drop_append, length_leBytes, whole, List.drop_eq_nil_of_le]

/-! ### New and repeated records (R495, R496, R500) -/

/-- The record that an event becomes. -/
def State.recOf (s : State) (e : EvIn) : EvRec :=
  { seq := s.ev.nextSeq, opms := s.opms, pwrcyc := s.g LC_PWRCYC_COUNT
    ns := if s.sync then s.g TU_NS_NS else 0, era := if s.sync then s.g TU_ERA_ERA else 0
    source := e.source, code := e.code, cls := e.cls
    flags := (if s.sync then 1 else 0) + (if e.forced then 2 else 0) + (if e.esc then 4 else 0)
    rep := 0, data := padTo 16 e.data, lastdms := 0 }

theorem State.stageRec_ev (s : State) (e : EvIn) :
    (s.stageRec e).ev = { s.ev with staged := s.ev.staged ++ [s.recOf e], nextSeq := seqNext s.ev.nextSeq } := by
  rw [State.stageRec, State.evRegs_ev]
  rfl

theorem State.recOf_flags (s : State) (e : EvIn) : bit (s.recOf e).flags 0 = s.sync ∧ bit (s.recOf e).flags 1 = e.forced ∧
    bit (s.recOf e).flags 2 = e.esc ∧ (s.recOf e).flags < 8 := by
  simp only [State.recOf]
  cases s.sync <;> cases e.forced <;> cases e.esc <;> decide

/-- The count of repeats rises to its limit and then marks the record (R500). -/
theorem EvRec.fold_count (r : EvRec) (now : Nat) : (r.rep < 65535 → (r.fold now).rep = r.rep + 1 ∧ (r.fold now).flags = r.flags) ∧
    (r.rep = 65535 → (r.fold now).rep = 65535 ∧ bit (r.fold now).flags 3 = true) := by
  refine ⟨fun below => ⟨min_eq_left below, if_neg (by omega)⟩, fun limit => ⟨by simp [EvRec.fold, limit], ?_⟩⟩
  simp only [EvRec.fold, bit, limit, beq_iff_eq]
  split <;> omega

/-! ### `EV_READ` and `EV_CLEAR` (R490, R502, R503) -/

/-- The records from a sequence number on. -/
def State.recordsFrom (s : State) (start : Nat) : List EvRec := s.records.dropWhile (fun r => r.seq < start)

/-- The answer to `EV_READ`: the first number, how many, whether they are the last, their bytes (R490). -/
def State.recordsRead (s : State) (start n : Nat) : List Byte :=
  leBytes 4 ((((s.recordsFrom start).take n).head?.map (·.seq)).getD 0) ++ leBytes 2 ((s.recordsFrom start).take n).length ++
    leBytes 2 (if (s.recordsFrom start).length ≤ n then 1 else 0) ++ ((s.recordsFrom start).take n).flatMap EvRec.bytes

/-- What `EV_READ` may ask for: 1 to 15 records. -/
def readFits (p : List Byte) : Prop := 1 ≤ leAt p 4 2 ∧ leAt p 4 2 ≤ 15 ∧ zeros p 6 8 = true

theorem not_readFits_iff (p : List Byte) : ¬ readFits p ↔ (!within 1 15 (leAt p 4 2) || !zeros p 6 8) = true := by
  simp only [readFits, Bool.or_eq_true, Bool.not_eq_true', ← Bool.not_eq_true, within_iff, ← and_assoc, ← not_and_or]

section
variable {s : State} {i : CmdIn}

theorem State.cmdEvRead_of_unfit (unfit : ¬ readFits i.p) : s.cmdEvRead i = .no s stBadParam := if_pos ((not_readFits_iff i.p).1 unfit)

theorem State.cmdEvRead_of_fits (fits : readFits i.p) : s.cmdEvRead i =
    .read (s.p EV_CURSOR_SEQ ((((s.recordsFrom (leAt i.p 0 4)).take (leAt i.p 4 2)).getLast?.map (·.seq)).getD (leAt i.p 0 4)))
      (s.recordsRead (leAt i.p 0 4) (leAt i.p 4 2)) :=
  if_neg (mt (not_readFits_iff i.p).2 (not_not.2 fits))

end

/-- A new record of few leaves the flags and the count of suppressed events. -/
theorem State.g_stageRec_of_few {s : State} (few : s.records.length + 1 < 4194304) (e : EvIn) {f : Fld}
    (apart : f.reg ≠ EV_COUNT_COUNT.reg ∧ f.reg ≠ EV_STAGE_COUNT.reg ∧ f.reg ≠ EV_FIRST_SEQ.reg ∧ f.reg ≠ EV_LAST_SEQ.reg) :
    (s.stageRec e).g f = s.g f := by
  obtain ⟨count, stage, first, last⟩ := apart
  have room : ¬ 4194304 ≤ (s.ev.flash ++ (s.ev.staged ++ [s.recOf e])).length := by
    rw [← List.append_assoc, List.length_append]
    exact not_le.2 few
  refine (congrArg (State.g · f) (if_neg room)).trans ?_
  rw [State.g_p_reg _ _ last, State.g_p_reg _ _ first, State.g_p_reg _ _ stage, State.g_p_reg _ _ count]
  rfl

/-- The emptied recorder before the record of its clear. -/
def State.emptied (s : State) : State :=
  ((({ s with ev := { s.ev with flash := [], staged := [], ovf := none } } : State).p EV_SUPPR_COUNT 0).p EV_STAT_FULL 0).p EV_STAT_CLRPEND 0

theorem State.emptied_shows (s : State) : s.emptied.g EV_STAT_FULL = 0 ∧ s.emptied.g EV_SUPPR_COUNT = 0 ∧ s.emptied.g EV_STAT_CLRPEND = 0 := by
  unfold State.emptied
  refine ⟨?_, ?_, State.g_p_fits _ (by decide)⟩
  · rw [State.g_p_off _ _ (by decide), State.g_p_fits _ (by decide)]
  · rw [State.g_p_off _ _ (by decide), State.g_p_off _ _ (by decide), State.g_p_fits _ (by decide)]

/-- What a clear leaves: its own record, and registers that show no more (R503). -/
theorem State.evClear_shows (s : State) : s.evClear.ev.flash = [] ∧
    (∃ r, s.evClear.ev.staged = [r] ∧ r.seq = s.ev.nextSeq ∧ r.source = 0x0207 ∧ r.code = 1) ∧
    s.evClear.on EV_STAT_FULL = false ∧ s.evClear.g EV_SUPPR_COUNT = 0 ∧ s.evClear.on EV_STAT_CLRPEND = false := by
  obtain ⟨full, suppressed, pending⟩ := s.emptied_shows
  have ev : s.evClear.ev = _ := s.emptied.stageRec_ev _
  have few : s.emptied.records.length + 1 < 4194304 := (by decide : 0 + 1 < 4194304)
  refine ⟨congrArg EvSt.flash ev, ⟨_, congrArg EvSt.staged ev, rfl, rfl, rfl⟩, ?_, (State.g_stageRec_of_few few _ (by decide)).trans suppressed, ?_⟩
  · exact congrArg (· == 1) ((State.g_stageRec_of_few few _ (by decide)).trans full)
  · exact congrArg (· == 1) ((State.g_stageRec_of_few few _ (by decide)).trans pending)

end Sys2Proof.Machine

namespace Sys2Proof.Proofs
open Sys2Proof.Machine Sys2Proof.Safety

/-- Settles O17: a read by its payload's checks, the registers of the status, what the clear leaves. That the cursor ends at the last record read is
log 29. -/
theorem eventCommandsReadAndClear : Obligations.EventCommandsReadAndClear := by
  refine fun s a ch h p c => ⟨fun r => ?read, fun r => execEvStatus_runs r, fun r => ⟨execEvClear_runs r, a.evClear_shows⟩⟩
  obtain ⟨-, rfl⟩ := runs_hdr r
  rw [execEvRead_runs r]
  refine ⟨fun unfit => ?_, fun fits => ⟨_, ?_, State.g_p_same _ _ _ (by decide), OnlyRegs.of_p a _ (regIn_head [] rfl)⟩⟩
  · rw [State.cmdEvRead_of_unfit unfit, finish_no]
  · rw [State.cmdEvRead_of_fits fits, finish_read]
    rfl

/-- Settles O60: the fields of a record's bytes, then a new record, then a repeated one. -/
theorem recordsHaveTheirLayout : Obligations.RecordsHaveTheirLayout := by
  intro s r e now whole
  obtain ⟨seq, opms, pwrcyc, ns, era, source, code, cls, flags, rep, lastdms, seq2, zero, crc⟩ := r.bytes_fields
  obtain ⟨sync, forced, esc, low⟩ := s.recOf_flags e
  obtain ⟨below, limit⟩ := r.fold_count now
  refine ⟨⟨r.length_bytes, seq, opms, pwrcyc, ns, era, source, code, cls, flags, rep, EvRec.bytes_data whole, lastdms, seq2, zero, ?_⟩, by decide +kernel,
    ⟨s.recOf e, s.stageRec_ev e, rfl, rfl, rfl, rfl, rfl, rfl, rfl, rfl, sync, forced, esc, low, rfl, rfl, rfl⟩,
    below, limit, rfl, rfl, rfl, rfl, rfl, rfl, rfl⟩
  rw [r.take_bytes, crc]

end Sys2Proof.Proofs

/-! SUPPORT. The commands of the update group (R491, R510 to R514, R518, R520): what each answers and leaves by its checks. -/

namespace Sys2Proof.Machine
open Sys2Proof.Safety

theorem leNat_lt (b : List Byte) : leNat b < 256 ^ b.length := by
  induction b with
  | nil => simp [leNat]
  | cons x b ih =>
    have byte := x.isLt
    rw [leNat, List.length_cons, Nat.pow_succ]
    omega

theorem leAt_lt (b : List Byte) (i n : Nat) : leAt b i n < 256 ^ n := by
  have low := leNat_lt (padTo n (b.drop i))
  rwa [length_padTo] at low

/-! ### The store of an update -/

/-- The registers do not depend on the update's state. -/
theorem State.g_withUp (s : State) (u : UpSt) (f : Fld) : ({ s with up := u } : State).g f = s.g f := rfl

/-- The bitmap's registers and those of the counts of chunks. -/
def chunkPage (a : Nat) : Prop := a = UP_CHUNKS_DONE.reg ∨ 0x40070100 ≤ a ∧ a < 0x40070308

/-- The bitmap cleared. -/
def State.bitmapCleared (s : State) : State := (List.range 130).foldl (fun s k => s.p (UP_BITMAP_BITS k) 0) s

theorem State.bitmapCleared_only (s : State) : OnlyRegs s s.bitmapCleared (fun a => 0x40070100 ≤ a ∧ a < 0x40070308) := by
  have sweep : ∀ (ks : List Nat) (t : State), (∀ k ∈ ks, k < 130) → OnlyRegs s t (fun a => 0x40070100 ≤ a ∧ a < 0x40070308) →
      OnlyRegs s (ks.foldl (fun s k => s.p (UP_BITMAP_BITS k) 0) t) (fun a => 0x40070100 ≤ a ∧ a < 0x40070308) := by
    intro ks
    induction ks with
    | nil => exact fun t _ h => h
    | cons k ks ih =>
      intro t low h
      have here : k < 130 := low k List.mem_cons_self
      exact ih _ (fun j mem => low j (List.mem_cons_of_mem _ mem)) (h.p _ 0 (by simp only [UP_BITMAP_BITS]; omega))
  exact sweep _ _ (fun k mem => List.mem_range.1 mem) (OnlyRegs.refl s _)

/-- Of a row of registers set to 0, each reads 0. -/
theorem State.g_foldl_zero {fld : Nat → Fld} (row : ∀ i j, (fld i).reg = (fld j).reg → i = j) (fits : ∀ i, (fld i).lo + (fld i).w ≤ 32) (ks : List Nat)
    (s : State) {k : Nat} (mem : k ∈ ks) : (ks.foldl (fun s j => s.p (fld j) 0) s).g (fld k) = 0 := by
  have stays : ∀ (ks : List Nat) (t : State), t.g (fld k) = 0 → (ks.foldl (fun s j => s.p (fld j) 0) t).g (fld k) = 0 := by
    intro ks
    induction ks with
    | nil => exact fun t h => h
    | cons j ks ih =>
      intro t h
      refine ih _ ?_
      by_cases same : k = j
      · exact same ▸ State.g_p_fits t ⟨fits k, Nat.two_pow_pos _⟩
      · exact (State.g_p_reg t 0 fun e => same (row k j e)).trans h
  induction ks generalizing s with
  | nil => simp at mem
  | cons j ks ih =>
    rcases List.mem_cons.1 mem with rfl | later
    · exact stays ks _ (State.g_p_fits s ⟨fits k, Nat.two_pow_pos _⟩)
    · exact ih _ later

theorem State.g_bitmapCleared_bits (s : State) {k : Nat} (low : k < 130) : s.bitmapCleared.g (UP_BITMAP_BITS k) = 0 :=
  State.g_foldl_zero (fun i j e => by simp only [UP_BITMAP_BITS] at e; omega) (fun _ => (by decide : 0 + 32 ≤ 32)) _ s (List.mem_range.2 low)

/-- The state of an update without its manifest, its chunks and their table. -/
def UpSt.discarded (u : UpSt) : UpSt := { u with manifest := [], store := [], part := none, tableOk := false }

theorem State.upDiscard_eq (s : State) :
    s.upDiscard = ((({ s with up := s.up.discarded } : State).bitmapCleared.p UP_CHUNKS_DONE 0).p UP_CHUNKS_TOTAL 0) := rfl

theorem State.upDiscard_only (s : State) : OnlyRegs { s with up := s.up.discarded } s.upDiscard chunkPage :=
  (((State.bitmapCleared_only _).mono fun _ => .inr).p _ 0 (.inl rfl)).p _ 0 (.inl rfl)

theorem State.g_upDiscard (s : State) {f : Fld} (off : f.reg ≠ UP_CHUNKS_DONE.reg ∧ (f.reg < 0x40070100 ∨ 0x40070308 ≤ f.reg)) :
    s.upDiscard.g f = s.g f :=
  s.upDiscard_only.g fun on => on.elim off.1 fun in_ => by omega

theorem State.upDiscard_up (s : State) : s.upDiscard.up = s.up.discarded := by rw [s.upDiscard_only.1]

theorem State.g_upDiscard_done (s : State) : s.upDiscard.g UP_CHUNKS_DONE = 0 := by
  rw [State.upDiscard_eq, State.g_p_off _ _ (by decide), State.g_p_fits _ (by decide)]

/-! ### `UP_MANIFEST` (R510, R511) -/

/-- A new update begun with a manifest (R511). -/
def State.newUpdate (s : State) (m : List Byte) : State :=
  ((((({ s.upDiscard with up := { s.upDiscard.up with manifest := m } } : State).p UP_STAT_BUILT 0).p UP_STAT_PHASE 1).p UP_CHFAIL_COUNT 0).p
    UP_CHUNKS_TOTAL (leAt m 124 2)).p UP_TGTVER_VERSION (leAt m 12 4)

theorem State.newUpdate_up (s : State) (m : List Byte) : (s.newUpdate m).up = { s.up.discarded with manifest := m } := by
  show ({ s.upDiscard.up with manifest := m } : UpSt) = _
  rw [s.upDiscard_up]

theorem State.newUpdate_shows (s : State) (m : List Byte) : (s.newUpdate m).g UP_STAT_PHASE = 1 ∧ (s.newUpdate m).g UP_CHUNKS_DONE = 0 ∧
    (s.newUpdate m).g UP_STAT_BUILT = 0 ∧ (s.newUpdate m).g UP_CHFAIL_COUNT = 0 ∧
    (s.newUpdate m).g UP_CHUNKS_TOTAL = leAt m 124 2 % 2 ^ UP_CHUNKS_TOTAL.w ∧ (s.newUpdate m).g UP_TGTVER_VERSION = leAt m 12 4 := by
  unfold State.newUpdate
  refine ⟨?_, ?_, ?_, ?_, ?_, State.g_p_fits _ ⟨by decide, leAt_lt m 12 4⟩⟩
  · simp (disch := decide) only [State.g_p_off, State.g_p_fits]
  · simp (disch := decide) only [State.g_p_off]
    exact (State.g_withUp s.upDiscard _ _).trans s.g_upDiscard_done
  · simp (disch := decide) only [State.g_p_off, State.g_p_fits]
  · simp (disch := decide) only [State.g_p_off, State.g_p_fits]
  · simp (disch := decide) only [State.g_p_off, State.g_p_same]

/-- What `UP_MANIFEST` records of the image: its version and its chunks. -/
def manifestData (m : List Byte) : List Byte := leBytes 4 (leAt m 12 4) ++ leBytes 2 (leAt m 124 2)

/-- A manifest for the image under way. -/
def State.resumes (s : State) (m : List Byte) : Prop := s.up.manifest ≠ [] ∧ (s.up.manifest.drop 56).take 32 = (m.drop 56).take 32

theorem State.resumes_iff (s : State) (m : List Byte) :
    s.resumes m ↔ (!s.up.manifest.isEmpty && (s.up.manifest.drop 56).take 32 == (m.drop 56).take 32) = true := by
  simp only [State.resumes, Bool.and_eq_true, Bool.not_eq_true', List.isEmpty_eq_false_iff, beq_iff_eq]

section
variable {s : State} {i : CmdIn}

theorem State.cmdUpManifest_of_failed {order st : Nat} (failed : s.manifestCheck i.p = some (order, st)) :
    s.cmdUpManifest i = .no (s.upEvent 2 (leBytes 1 order)) st := by
  rw [State.cmdUpManifest, failed]

variable (passed : s.manifestCheck i.p = none)
include passed

theorem State.cmdUpManifest_of_resumes (resumes : s.resumes i.p) :
    ∃ w, s.cmdUpManifest i = .ok ((s.upEvent 1 (manifestData i.p ++ leBytes 1 1)).buildStart true) [] w := by
  rw [State.cmdUpManifest, passed]
  exact ⟨_, if_pos ((s.resumes_iff i.p).1 resumes)⟩

theorem State.cmdUpManifest_of_new (new : ¬ s.resumes i.p) :
    s.cmdUpManifest i = .done ((s.newUpdate i.p).upEvent 1 (manifestData i.p ++ leBytes 1 0)) := by
  rw [State.cmdUpManifest, passed]
  exact if_neg (mt (s.resumes_iff i.p).2 new)

end

/-! ### `UP_CHUNK` (R512 to R514) -/

section
variable {s : State} {i : CmdIn}

theorem State.cmdUpChunk_of_trial (trial : s.on UP_STAT_TRIAL = true) : s.cmdUpChunk i = .no s stVerifyFail := if_pos trial

variable (free : s.on UP_STAT_TRIAL = false)
include free

theorem State.cmdUpChunk_of_none (none : s.up.manifest = []) : s.cmdUpChunk i = .no s stNotPresent :=
  (if_neg (by simp [free])).trans (if_pos (by simp [none]))

variable (held : s.up.manifest ≠ [])
include held

theorem State.cmdUpChunk_of_range (range : leAt s.up.manifest 124 2 ≤ leAt i.p 0 4 ∨ 16384 < leAt i.p 4 2 + (i.p.drop 8).length ∨ zeros i.p 6 8 = false) :
    s.cmdUpChunk i = .no s stBadParam :=
  (if_neg (by simp [free])).trans ((if_neg (by simp [held])).trans (if_pos (by simpa [or_assoc] using range)))

variable (known : leAt i.p 0 4 < leAt s.up.manifest 124 2) (whole : leAt i.p 4 2 + (i.p.drop 8).length ≤ 16384) (zeroed : zeros i.p 6 8 = true)
include known whole zeroed

/-- What remains of `UP_CHUNK` once its numbers are in range. -/
theorem State.cmdUpChunk_in_range : s.cmdUpChunk i = if s.chunkDone (leAt i.p 0 4) then .idle s else match s.fillFor (leAt i.p 0 4) (leAt i.p 4 2) with
    | none => .no s stBadParam
    | some b =>
      if b.length + (i.p.drop 8).length > s.chunkLen (leAt i.p 0 4) then .no s stBadParam
      else if tableChunks (leAt s.up.manifest 124 2) ≤ leAt i.p 0 4 && !s.up.tableOk then .no s stVerifyFail
      else if b.length + (i.p.drop 8).length == s.chunkLen (leAt i.p 0 4) then s.chunkComplete (leAt i.p 0 4) (b ++ i.p.drop 8)
      else .idle { s with up := { s.up with part := some (leAt i.p 0 4, b ++ i.p.drop 8) } } := by
  have bounded : ¬ (decide (leAt s.up.manifest 124 2 ≤ leAt i.p 0 4) || decide (leAt i.p 4 2 + (i.p.drop 8).length > 16384) || !zeros i.p 6 8) = true := by
    simp only [Bool.or_eq_true, decide_eq_true_eq, zeroed, Bool.not_true, Bool.false_eq_true, or_false]
    omega
  refine (if_neg (by simp [free])).trans ((if_neg (by simp [held])).trans ((if_neg bounded).trans ?_))
  split <;> rfl

theorem State.cmdUpChunk_of_done (done : s.chunkDone (leAt i.p 0 4) = true) : s.cmdUpChunk i = .idle s := by
  rw [State.cmdUpChunk_in_range free held known whole zeroed, if_pos done]

variable (open_ : s.chunkDone (leAt i.p 0 4) = false)
include open_

theorem State.cmdUpChunk_of_apart (apart : s.fillFor (leAt i.p 0 4) (leAt i.p 4 2) = none) : s.cmdUpChunk i = .no s stBadParam := by
  rw [State.cmdUpChunk_in_range free held known whole zeroed, if_neg (by simp [open_]), apart]

variable {b : List Byte} (fill : s.fillFor (leAt i.p 0 4) (leAt i.p 4 2) = some b)
include fill

theorem State.cmdUpChunk_of_overrun (overrun : s.chunkLen (leAt i.p 0 4) < b.length + (i.p.drop 8).length) : s.cmdUpChunk i = .no s stBadParam := by
  rw [State.cmdUpChunk_in_range free held known whole zeroed, if_neg (by simp [open_]), fill]
  exact if_pos overrun

theorem State.cmdUpChunk_of_unverified (fits : b.length + (i.p.drop 8).length ≤ s.chunkLen (leAt i.p 0 4))
    (data : tableChunks (leAt s.up.manifest 124 2) ≤ leAt i.p 0 4) (unverified : s.up.tableOk = false) : s.cmdUpChunk i = .no s stVerifyFail := by
  rw [State.cmdUpChunk_in_range free held known whole zeroed, if_neg (by simp [open_]), fill]
  exact (if_neg (not_lt.2 fits)).trans (if_pos (by simp [data, unverified]))

variable (verified : leAt i.p 0 4 < tableChunks (leAt s.up.manifest 124 2) ∨ s.up.tableOk = true)
include verified

theorem State.cmdUpChunk_of_piece (piece : b.length + (i.p.drop 8).length < s.chunkLen (leAt i.p 0 4)) :
    s.cmdUpChunk i = .idle { s with up := { s.up with part := some (leAt i.p 0 4, b ++ i.p.drop 8) } } := by
  rw [State.cmdUpChunk_in_range free held known whole zeroed, if_neg (by simp [open_]), fill]
  exact (if_neg (not_lt.2 piece.le)).trans ((if_neg (by simpa [imp_iff_not_or] using verified)).trans (if_neg (by simpa using piece.ne)))

theorem State.cmdUpChunk_of_last (last : b.length + (i.p.drop 8).length = s.chunkLen (leAt i.p 0 4)) :
    s.cmdUpChunk i = s.chunkComplete (leAt i.p 0 4) (b ++ i.p.drop 8) := by
  rw [State.cmdUpChunk_in_range free held known whole zeroed, if_neg (by simp [open_]), fill]
  exact (if_neg (not_lt.2 last.le)).trans ((if_neg (by simpa [imp_iff_not_or] using verified)).trans (if_pos (by simpa using last)))

end

/-! ### `UP_ACTIVATE` and `UP_ABANDON` (R491, R518, R520) -/

/-- What an activation asks for (R520). -/
def State.mayActivate (s : State) (p : List Byte) : Prop :=
  s.up.manifest ≠ [] ∧ p = (s.up.manifest.drop 56).take 32 ∧ s.g UP_STAT_PHASE = 4 ∧ (s.on UN_CFG_EN = true → s.partnerActive = true) ∧
  ∀ e ∈ s.cfg.vers, leAt s.up.manifest 128 2 ≤ e.2 ∧ e.2 ≤ leAt s.up.manifest 126 2

theorem State.mayActivate_iff (s : State) (p : List Byte) : s.mayActivate p ↔
    (!s.up.manifest.isEmpty && p == (s.up.manifest.drop 56).take 32 && s.g UP_STAT_PHASE == 4 && (!s.on UN_CFG_EN || s.partnerActive) &&
      s.cfg.vers.all (fun e => within (leAt s.up.manifest 128 2) (leAt s.up.manifest 126 2) e.2)) = true := by
  simp only [State.mayActivate, Bool.and_eq_true, Bool.or_eq_true, Bool.not_eq_true', ← Bool.not_eq_true, List.isEmpty_iff, beq_iff_eq, List.all_eq_true,
    within_iff, and_assoc, imp_iff_not_or, ne_eq]

/-- The other bank selected, on trial, with no try used (R520). -/
def State.bankOnTrial (s : State) : State :=
  (((s.p UP_STAT_ACTBANK (1 - s.g UP_STAT_ACTBANK)).p UP_STAT_TRIAL 1).p UP_STAT_TRIES 0).p UP_STAT_PHASE 5

theorem State.bankOnTrial_shows (s : State) : s.bankOnTrial.g UP_STAT_ACTBANK = 1 - s.g UP_STAT_ACTBANK ∧ s.bankOnTrial.g UP_STAT_TRIAL = 1 ∧
    s.bankOnTrial.g UP_STAT_TRIES = 0 ∧ s.bankOnTrial.g UP_STAT_PHASE = 5 := by
  have low : 1 - s.g UP_STAT_ACTBANK < 2 ^ UP_STAT_ACTBANK.w := (by omega : 1 - s.g UP_STAT_ACTBANK < 2)
  unfold State.bankOnTrial
  refine ⟨?_, ?_, ?_, State.g_p_fits _ (by decide)⟩
  · simp (disch := decide) only [State.g_p_off]
    exact s.g_p_fits ⟨by decide, low⟩
  · simp (disch := decide) only [State.g_p_off, State.g_p_fits]
  · simp (disch := decide) only [State.g_p_off, State.g_p_fits]

/-- The settings kept as they were before the trial (R519, R520). -/
def State.onTrial (s : State) : State := { s.bankOnTrial with up := { s.up with orig := some s.cfg } }

theorem State.onTrial_shows (s : State) : s.onTrial.g UP_STAT_ACTBANK = 1 - s.g UP_STAT_ACTBANK ∧ s.onTrial.on UP_STAT_TRIAL = true ∧
    s.onTrial.g UP_STAT_TRIES = 0 ∧ s.onTrial.g UP_STAT_PHASE = 5 := by
  obtain ⟨bank, trial, tries, phase⟩ := s.bankOnTrial_shows
  have regs (f : Fld) : s.onTrial.g f = s.bankOnTrial.g f := s.bankOnTrial.g_withUp _ f
  exact ⟨(regs _).trans bank, by rw [State.on, regs, trial, beq_self_eq_true], (regs _).trans tries, (regs _).trans phase⟩

theorem State.bankOnTrial_only (s : State) : OnlyRegs s s.bankOnTrial (regIn [UP_STAT_PHASE]) := by
  refine ((((OnlyRegs.refl s _).p _ _ ?_).p _ 1 ?_).p _ 0 ?_).p _ 5 ?_ <;> exact regIn_head [] rfl

theorem State.onTrial_keep (s : State) : RegsKeep s s.onTrial (regIn [UP_STAT_PHASE]) := s.bankOnTrial_only.2.of_regs rfl

/-- An update abandoned; a trial goes on (R491). -/
def State.abandonedUpdate (s : State) : State :=
  if ((s.upDiscard.p UP_STAT_BUILT 0).p UP_TGTVER_VERSION 0).on UP_STAT_TRIAL then (s.upDiscard.p UP_STAT_BUILT 0).p UP_TGTVER_VERSION 0
  else ((s.upDiscard.p UP_STAT_BUILT 0).p UP_TGTVER_VERSION 0).p UP_STAT_PHASE 0

section
variable {s : State} {i : CmdIn}

theorem State.cmdUpActivate_of_not (barred : ¬ s.mayActivate i.p) : s.cmdUpActivate i = .no s stVerifyFail :=
  if_pos (of_check_failed (s.mayActivate_iff i.p) barred)

theorem State.cmdUpActivate_of_may (may : s.mayActivate i.p) : s.cmdUpActivate i =
    .okReset (s.onTrial.upEvent 7 (leBytes 4 (leAt s.up.manifest 12 4) ++ leBytes 1 (1 - s.g UP_STAT_ACTBANK))) 4 0 23 :=
  if_neg (not_of_check (s.mayActivate_iff i.p) may)

theorem State.cmdUpAbandon_of_none (none : s.up.manifest = []) : s.cmdUpAbandon i = .idle s := if_pos (by simp [none])

theorem State.cmdUpAbandon_of_held (held : s.up.manifest ≠ []) : s.cmdUpAbandon i = .done (s.abandonedUpdate.upEvent 0xC (leBytes 1 1)) := by
  rw [State.cmdUpAbandon, if_neg (by simp [held])]
  rfl

end

theorem State.abandonedUpdate_up (s : State) : s.abandonedUpdate.up = s.up.discarded := by
  unfold State.abandonedUpdate
  split
  · rw [State.p_up, State.p_up, s.upDiscard_up]
  · rw [State.p_up, State.p_up, State.p_up, s.upDiscard_up]

theorem State.abandonedUpdate_shows (s : State) : s.abandonedUpdate.g UP_STAT_BUILT = 0 ∧ s.abandonedUpdate.g UP_TGTVER_VERSION = 0 ∧
    (s.on UP_STAT_TRIAL = true → s.abandonedUpdate.g UP_STAT_PHASE = s.g UP_STAT_PHASE) ∧
    (s.on UP_STAT_TRIAL = false → s.abandonedUpdate.g UP_STAT_PHASE = 0) := by
  have trial : ((s.upDiscard.p UP_STAT_BUILT 0).p UP_TGTVER_VERSION 0).on UP_STAT_TRIAL = s.on UP_STAT_TRIAL := by
    simp (disch := decide) only [State.on, State.g_p_off, State.g_upDiscard]
  unfold State.abandonedUpdate
  rw [trial]
  cases s.on UP_STAT_TRIAL <;> simp (disch := decide) [State.g_p_off, State.g_p_fits, State.g_upDiscard]

end Sys2Proof.Machine

namespace Sys2Proof.Proofs
open Sys2Proof.Machine Sys2Proof.Safety

/-- Settles O18: the outcome of each command of the update group by its checks. The order of a chunk's checks is log 24, a trial that goes on after an
abandonment is log 26, the reset in the step of the activation is log 92. -/
theorem updateCommandsCarryThePackage : Obligations.UpdateCommandsCarryThePackage := by
  refine ⟨fun s a ch h p c r => ?manifest, fun s a ch h p c r => ?chunk,
    fun s a ch h p c => ⟨fun r => execUpStatus_runs r, fun r => ?activate, fun r => ?abandon⟩⟩
  all_goals obtain ⟨-, rfl⟩ := runs_hdr r
  case manifest =>
    refine ⟨_, execUpManifest_runs r, ?_⟩
    cases check : a.manifestCheck c.p with
    | some e => rw [State.cmdUpManifest_of_failed check, finish_no]
    | none =>
      refine ⟨fun resumes => ?_, fun new => ⟨a.newUpdate c.p, ?_, ?_⟩⟩
      · obtain ⟨w, eq⟩ := State.cmdUpManifest_of_resumes check resumes
        exact ⟨w, by rw [eq, finish_ok]; rfl⟩
      · rw [State.cmdUpManifest_of_new check new, finish_done]; rfl
      · rw [a.newUpdate_up]
        exact ⟨rfl, rfl, rfl, rfl, a.newUpdate_shows c.p⟩
  case chunk =>
    rw [execUpChunk_runs r]
    refine ⟨fun trial => ?_, fun free none => ?_, fun free held => ⟨fun range => ?_, fun known whole zeroed => ⟨fun done => ?_, fun open_ =>
      ⟨fun apart => ?_, fun b fill => ⟨fun overrun => ?_, fun fits data unverified => ?_, fun piece verified => ?_, fun last verified => ?_⟩⟩⟩⟩⟩
    · rw [State.cmdUpChunk_of_trial trial, finish_no]
    · rw [State.cmdUpChunk_of_none free none, finish_no]
    · rw [State.cmdUpChunk_of_range free held range, finish_no]
    · rw [State.cmdUpChunk_of_done free held known whole zeroed done, finish_idle]
    · rw [State.cmdUpChunk_of_apart free held known whole zeroed open_ apart, finish_no]
    · rw [State.cmdUpChunk_of_overrun free held known whole zeroed open_ fill overrun, finish_no]
    · rw [State.cmdUpChunk_of_unverified free held known whole zeroed open_ fill fits data unverified, finish_no]
    · rw [State.cmdUpChunk_of_piece free held known whole zeroed open_ fill verified piece, finish_idle]
    · rw [State.cmdUpChunk_of_last free held known whole zeroed open_ fill verified last]
  case activate =>
    rw [execUpActivate_runs r]
    refine ⟨fun barred => ?_, fun may => ⟨a.onTrial, ?_, ?_⟩⟩
    · rw [State.cmdUpActivate_of_not barred, finish_no]
    · rw [State.cmdUpActivate_of_may may, finish_okReset]
    · obtain ⟨bank, trial, tries, phase⟩ := a.onTrial_shows
      exact ⟨bank, trial, tries, phase, rfl, rfl, a.onTrial_keep⟩
  case abandon =>
    rw [execUpAbandon_runs r]
    refine ⟨fun none => ?_, fun held => ⟨a.abandonedUpdate, ?_, ?_⟩⟩
    · rw [State.cmdUpAbandon_of_none none, finish_idle]
    · rw [State.cmdUpAbandon_of_held held, finish_done]
    · rw [a.abandonedUpdate_up]
      exact ⟨rfl, rfl, a.abandonedUpdate_shows⟩

end Sys2Proof.Proofs

/-! SUPPORT. The ends of an update and the debug access (R499, R517, R522, R534, R535, R538): a build, a fallback, staged records, the TAPs. -/

namespace Sys2Proof.Machine
open Sys2Proof.Safety

/-! ### The banks (R507, R517) -/

/-- The registers do not depend on the banks. -/
theorem State.g_setBank (s : State) (b : Nat) (x : List Byte) (f : Fld) : (s.setBank b x).g f = s.g f := by
  unfold State.setBank; split <;> rfl

theorem State.bank_setBank_same (s : State) (b : Nat) (x : List Byte) : (s.setBank b x).bank b = x := by
  unfold State.setBank State.bank; split <;> rfl

theorem State.bank_setBank_other (s : State) {b c : Nat} (x : List Byte) (other : (b == 0) = !(c == 0)) : (s.setBank b x).bank c = s.bank c := by
  unfold State.setBank State.bank
  rw [other]
  cases c == 0 <;> rfl

theorem State.store_setBank (s : State) (b : Nat) (x : List Byte) : (s.setBank b x).up.store = s.up.store := by
  unfold State.setBank; split <;> rfl

/-- Of the two banks, the one that is not active. -/
theorem State.inactive_other (s : State) : (1 - s.g UP_STAT_ACTBANK == 0) = !(s.g UP_STAT_ACTBANK == 0) := by
  have two : s.g UP_STAT_ACTBANK < 2 := s.g_lt UP_STAT_ACTBANK
  obtain e | e : s.g UP_STAT_ACTBANK = 0 ∨ s.g UP_STAT_ACTBANK = 1 := by omega
  all_goals rw [e]; rfl

/-- The update's registers stand outside the pages that an event's record touches. -/
theorem State.g_upEvent (s : State) (code : Nat) (data : List Byte) {f : Fld} (page : f.reg / 0x10000 = 0x4007) : (s.upEvent code data).g f = s.g f :=
  s.event_g 6 _ f (by unfold recPage; omega)

theorem State.up_upEvent (s : State) (code : Nat) (data : List Byte) : (s.upEvent code data).up = s.up := s.event_up 6 _

theorem State.bank_upEvent (s : State) (code : Nat) (data : List Byte) (b : Nat) : (s.upEvent code data).bank b = s.bank b := by
  rw [State.bank, State.bank, State.up_upEvent]

/-! ### `BUILD_COMPLETE` (R517) -/

/-- The chunk store discarded, the manifest kept. -/
def UpSt.unstored (u : UpSt) : UpSt := { u with store := [], part := none, tableOk := false }

/-- The bitmap and the count of complete chunks cleared. -/
def State.uncounted (s : State) : State := s.bitmapCleared.p UP_CHUNKS_DONE 0

theorem State.uncounted_only (s : State) : OnlyRegs s s.uncounted chunkPage := (s.bitmapCleared_only.mono fun _ => .inr).p _ 0 (.inl rfl)

theorem State.g_uncounted (s : State) {f : Fld} (off : f.reg ≠ UP_CHUNKS_DONE.reg ∧ (f.reg < 0x40070100 ∨ 0x40070308 ≤ f.reg)) : s.uncounted.g f = s.g f :=
  s.uncounted_only.g fun on => on.elim off.1 fun in_ => by omega

theorem State.g_uncounted_done (s : State) : s.uncounted.g UP_CHUNKS_DONE = 0 := State.g_p_fits _ (by decide)

theorem State.g_uncounted_bits (s : State) {k : Nat} (low : k < 130) : s.uncounted.g (UP_BITMAP_BITS k) = 0 :=
  (State.g_p_reg _ _ (by simp only [UP_BITMAP_BITS, UP_CHUNKS_DONE]; omega)).trans (s.g_bitmapCleared_bits low)

/-- An update that failed, before the event that says so. -/
def State.buildDropped (s : State) : State := ({ s with up := s.up.unstored } : State).uncounted.p UP_STAT_PHASE 6

theorem State.buildFailed_eq (s : State) (why : Nat) : s.buildFailed why = s.buildDropped.upEvent 6 (leBytes 1 why) := rfl

theorem State.g_buildDropped (s : State) {f : Fld} (off : f.reg ≠ UP_CHUNKS_DONE.reg ∧ (f.reg < 0x40070100 ∨ 0x40070308 ≤ f.reg))
    (apart : f.reg ≠ UP_STAT_PHASE.reg ∨ UP_STAT_PHASE.lo + UP_STAT_PHASE.w ≤ 32 ∧
      (UP_STAT_PHASE.lo + UP_STAT_PHASE.w ≤ f.lo ∨ f.lo + f.w ≤ UP_STAT_PHASE.lo)) : s.buildDropped.g f = s.g f :=
  (State.g_p_off _ _ apart).trans ((State.g_uncounted _ off).trans (s.g_withUp _ f))

theorem State.buildDropped_up (s : State) : s.buildDropped.up = s.up.unstored := by
  unfold State.buildDropped
  rw [State.p_up, (State.uncounted_only _).1]

theorem State.buildDropped_shows (s : State) : s.buildDropped.g UP_STAT_PHASE = 6 ∧ (∀ k, k < 130 → s.buildDropped.g (UP_BITMAP_BITS k) = 0) ∧
    s.buildDropped.g UP_CHUNKS_DONE = 0 :=
  ⟨State.g_p_fits _ (by decide),
    fun _ low => (State.g_p_reg _ _ (by simp only [UP_BITMAP_BITS, UP_STAT_PHASE]; omega)).trans (State.g_uncounted_bits _ low),
    (State.g_p_off _ _ (by decide)).trans (State.g_uncounted_done _)⟩

/-- A failed build leaves nothing of the update but its manifest; the banks' registers stay (R517). -/
theorem State.buildFailed_shows (s : State) (why : Nat) : (s.buildFailed why).g UP_STAT_PHASE = 6 ∧
    (s.buildFailed why).g UP_STAT_BUILT = s.g UP_STAT_BUILT ∧ (s.buildFailed why).up.store = [] ∧
    (∀ k, k < 130 → (s.buildFailed why).g (UP_BITMAP_BITS k) = 0) ∧ (s.buildFailed why).g UP_CHUNKS_DONE = 0 ∧
    (s.buildFailed why).g UP_STAT_ACTBANK = s.g UP_STAT_ACTBANK := by
  obtain ⟨phase, bits, done⟩ := s.buildDropped_shows
  rw [s.buildFailed_eq why]
  refine ⟨?_, ?_, ?_, fun k low => ?_, ?_, ?_⟩
  · rw [State.g_upEvent _ _ _ (by decide), phase]
  · rw [State.g_upEvent _ _ _ (by decide), State.g_buildDropped _ (by decide) (by decide)]
  · rw [State.up_upEvent, s.buildDropped_up]; rfl
  · rw [State.g_upEvent _ _ _ (by simp only [UP_BITMAP_BITS]; omega), bits k low]
  · rw [State.g_upEvent _ _ _ (by decide), done]
  · rw [State.g_upEvent _ _ _ (by decide), State.g_buildDropped _ (by decide) (by decide)]

section
variable {s : State}

theorem execBuildComplete_of_absorbed (absorbed : s.g UP_STAT_PHASE ≠ 3 ∨ within mCommissioning mUpdate s.mode = false) :
    execBuildComplete s = .next s := if_pos (by simpa using absorbed)

/-- What a package run over the active image gives. -/
def State.buildRun (s : State) : Option (List Byte) :=
  deltaRun (bit (byteAt s.up.manifest 6) 0) (imageOf (s.bank (s.g UP_STAT_ACTBANK))) (s.deltaBytes.length + 1) [] s.deltaBytes

variable (building : s.g UP_STAT_PHASE = 3) (builds : within mCommissioning mUpdate s.mode = true)
include building builds

theorem execBuildComplete_of_illegal (illegal : s.buildRun = none) :
    execBuildComplete s = .next ((s.setBank (1 - s.g UP_STAT_ACTBANK) []).buildFailed 1) := by
  unfold State.buildRun at illegal
  simp only [execBuildComplete, building, builds, illegal, bne_self_eq_false, Bool.not_true, Bool.or_false, Bool.false_eq_true, if_false]

theorem execBuildComplete_of_built {out : List Byte} (built : s.buildRun = some out) :
    let a := (s.setBank (1 - s.g UP_STAT_ACTBANK) out).p UP_BUILD_BYTES out.length
    execBuildComplete s = if out.length ≤ 67108864 ∧ imageHash out = (s.up.manifest.drop 56).take 32 ∧ a.imageOk out = true then
      .next (((a.p UP_STAT_BUILT 1).p UP_STAT_PHASE 4).upEvent 5 (leBytes 1 (1 - s.g UP_STAT_ACTBANK))) else .next (a.buildFailed 2) := by
  unfold State.buildRun at built
  simp only [execBuildComplete, building, builds, built, bne_self_eq_false, Bool.not_true, Bool.or_false, Bool.false_eq_true, if_false,
    Bool.and_eq_true, decide_eq_true_eq, beq_iff_eq, and_assoc]

end

/-! ### A trial's fallback (R521, R522) -/

/-- The other bank taken with its settings, before the chunks are counted anew. -/
def State.otherBank (s : State) (reason : Nat) : State :=
  ((((((s.p UP_STAT_ACTBANK (1 - s.g UP_STAT_ACTBANK)).p UP_STAT_TRIAL 0).p UP_STAT_TRIES 0).p UP_STAT_BUILT 0).p UP_STAT_PHASE 6).p
    UP_FALLBACK_REASON reason).satAdd UP_FALLBACK_COUNT 1

/-- The registers do not depend on the update's state and the settings. -/
theorem State.g_withUpCfg (s : State) (u : UpSt) (c : Settings) (f : Fld) : ({ s with up := u, cfg := c } : State).g f = s.g f := rfl

theorem State.bankBack_eq (s : State) (reason : Nat) : s.bankBack reason = ({ s.otherBank reason with
    up := { s.up.unstored with orig := none }, cfg := s.up.orig.getD s.cfg } : State).uncounted := rfl

theorem State.g_bankBack (s : State) (reason : Nat) {f : Fld} (off : f.reg ≠ UP_CHUNKS_DONE.reg ∧ (f.reg < 0x40070100 ∨ 0x40070308 ≤ f.reg)) :
    (s.bankBack reason).g f = (s.otherBank reason).g f := by
  rw [s.bankBack_eq, State.g_uncounted _ off, State.g_withUpCfg]

theorem State.bankBack_cfg (s : State) (reason : Nat) : (s.bankBack reason).cfg = s.up.orig.getD s.cfg := by
  rw [s.bankBack_eq, (State.uncounted_only _).1]

theorem State.otherBank_shows (s : State) {reason : Nat} (low : reason < 2 ^ UP_FALLBACK_REASON.w) :
    (s.otherBank reason).g UP_STAT_ACTBANK = 1 - s.g UP_STAT_ACTBANK ∧ (s.otherBank reason).g UP_STAT_TRIAL = 0 ∧
    (s.otherBank reason).g UP_STAT_TRIES = 0 ∧ (s.otherBank reason).g UP_STAT_PHASE = 6 ∧ (s.otherBank reason).g UP_FALLBACK_REASON = reason := by
  have bank : 1 - s.g UP_STAT_ACTBANK < 2 ^ UP_STAT_ACTBANK.w := (by omega : 1 - s.g UP_STAT_ACTBANK < 2)
  simp (disch := decide) only [State.otherBank, State.satAdd, State.g_p_off, State.g_p_fits]
  exact ⟨State.g_p_fits _ ⟨by decide, bank⟩, trivial, trivial, trivial, State.g_p_fits _ ⟨by decide, low⟩⟩

theorem State.upFallback_shows (s : State) {reason : Nat} (low : reason < 2 ^ UP_FALLBACK_REASON.w) :
    (s.upFallback reason).g UP_STAT_ACTBANK = 1 - s.g UP_STAT_ACTBANK ∧ (s.upFallback reason).on UP_STAT_TRIAL = false ∧
    (s.upFallback reason).g UP_STAT_TRIES = 0 ∧ (s.upFallback reason).g UP_STAT_PHASE = 6 ∧ (s.upFallback reason).g UP_FALLBACK_REASON = reason ∧
    (s.upFallback reason).cfg = s.up.orig.getD s.cfg := by
  obtain ⟨bank, trial, tries, phase, why⟩ := s.otherBank_shows low
  have back (f : Fld) (page : f.reg / 0x10000 = 0x4007) (off : f.reg ≠ UP_CHUNKS_DONE.reg ∧ (f.reg < 0x40070100 ∨ 0x40070308 ≤ f.reg)) :
      (s.upFallback reason).g f = (s.otherBank reason).g f := (State.g_upEvent _ _ _ page).trans (s.g_bankBack reason off)
  refine ⟨?_, ?_, ?_, ?_, ?_, ?_⟩
  · rw [back _ (by decide) (by decide), bank]
  · rw [State.on, back _ (by decide) (by decide), trial]; rfl
  · rw [back _ (by decide) (by decide), tries]
  · rw [back _ (by decide) (by decide), phase]
  · rw [back _ (by decide) (by decide), why]
  · rw [State.upFallback, State.upEvent, State.event_cfg, s.bankBack_cfg]

/-! ### Staged records (R499) -/

/-- The recorder after `k` staged records moved to flash. -/
def State.drained (s : State) (k : Nat) : State :=
  { s with ev := { s.ev with flash := s.ev.flash ++ s.ev.staged.take k, staged := s.ev.staged.drop k } }

theorem State.drained_shows (s : State) {k : Nat} (keeps : k ≤ s.ev.staged.length - 1) :
    (s.drained k).ev.flash ++ (s.drained k).ev.staged = s.ev.flash ++ s.ev.staged ∧
    (s.drained k).ev.staged.length = s.ev.staged.length - k ∧ (s.ev.staged ≠ [] → (s.drained k).ev.staged ≠ []) := by
  refine ⟨?_, List.length_drop, fun held gone => ?_⟩
  · show (s.ev.flash ++ s.ev.staged.take k) ++ s.ev.staged.drop k = _
    rw [List.append_assoc, List.take_append_drop]
  · have all : s.ev.staged.length ≤ k := List.drop_eq_nil_iff.1 gone
    have some_ := List.length_pos_of_ne_nil held
    omega

theorem State.evRegs_regs (s : State) : RegsKeep s s.evRegs (fun a => a / 0x10000 = 0x4006) := by
  have counted : OnlyRegs s ((((s.p EV_COUNT_COUNT s.records.length).p EV_STAGE_COUNT s.ev.staged.length).p EV_FIRST_SEQ
      ((s.records.head?.map (·.seq)).getD 0)).p EV_LAST_SEQ ((s.records.getLast?.map (·.seq)).getD 0)) (fun a => a / 0x10000 = 0x4006) := by
    refine ((((OnlyRegs.refl s _).p _ _ ?_).p _ _ ?_).p _ _ ?_).p _ _ ?_ <;> rfl
  have written : OnlyRegs s s.evRegs (fun a => a / 0x10000 = 0x4006) := by
    unfold State.evRegs
    exact OnlyRegs.ite (counted.p EV_STAT_FULL 1 rfl) counted
  exact written.2

/-! ### The TAPs (R432, R534) -/

section
variable {s : State} {code : Nat}

theorem State.tapSelect_idcode (s : State) : s.tapSelect 1 = 1 := rfl

theorem State.tapSelect_scrapped (scrapped : s.g LC_STATE_LCS = 4) (other : code ≠ 1) : s.tapSelect code = 0xFF := by
  simp [State.tapSelect, scrapped, other]

theorem State.tapSelect_debug (lives : s.g LC_STATE_LCS ≠ 4) (debug : code ∈ [2, 0x10, 0x11]) :
    s.tapSelect code = if s.on LC_STATE_DBGPERM then code else 0xFF := by
  simp only [List.mem_cons, List.not_mem_nil, or_false] at debug
  rcases debug with rfl | rfl | rfl <;> simp [State.tapSelect, lives]

theorem State.tapSelect_test (lives : s.g LC_STATE_LCS ≠ 4) (test : code ∈ [0, 4, 5]) :
    s.tapSelect code = if s.dbg.prod then code else 0xFF := by
  simp only [List.mem_cons, List.not_mem_nil, or_false] at test
  rcases test with rfl | rfl | rfl <;> simp [State.tapSelect, lives]

end

end Sys2Proof.Machine

namespace Sys2Proof.Proofs
open Sys2Proof.Machine Sys2Proof.Safety

/-- Settles O57: the build's outcome by what the package gives. An illegal package is a failure that leaves the bank erased, log 25. -/
theorem buildEndsBuiltOrFailed : Obligations.BuildEndsBuiltOrFailed := by
  intro s
  refine ⟨execBuildComplete_of_absorbed, fun building builds illegal => ?illegal, fun building builds out built => ?built⟩
  case illegal =>
    obtain ⟨phase, same, store, bits, done, bank⟩ := (s.setBank (1 - s.g UP_STAT_ACTBANK) []).buildFailed_shows 1
    rw [State.g_setBank] at same bank
    exact ⟨_, _, execBuildComplete_of_illegal building builds illegal, phase, congrArg (· == 1) same, store, bits, done, bank, 1,
      State.buildFailed_eq _ 1⟩
  case built =>
    intro a
    have runs : execBuildComplete s = _ := execBuildComplete_of_built building builds built
    have regs (f : Fld) (off : f.reg ≠ UP_BUILD_BYTES.reg) : a.g f = s.g f := (State.g_p_reg _ _ off).trans (s.g_setBank _ _ f)
    split
    next verified =>
      refine ⟨_, runs.trans (if_pos verified), ?_, ?_, ?_, ?_, ?_, ?_, _, rfl⟩
      · rw [State.g_upEvent _ _ _ (by decide), State.g_p_fits _ (by decide)]
      · rw [State.on, State.g_upEvent _ _ _ (by decide), State.g_p_off _ _ (by decide), State.g_p_fits _ (by decide)]; rfl
      · rw [State.g_upEvent _ _ _ (by decide), State.g_p_off _ _ (by decide), State.g_p_off _ _ (by decide), regs _ (by decide)]
      · rw [State.bank_upEvent]; exact s.bank_setBank_same _ out
      · rw [State.bank_upEvent]; exact s.bank_setBank_other out s.inactive_other
      · rw [State.up_upEvent]; exact s.store_setBank _ _
    next bad =>
      obtain ⟨phase, same, store, bits, done, bank⟩ := a.buildFailed_shows 2
      rw [regs _ (by decide)] at same bank
      exact ⟨_, runs.trans (if_neg bad), _, phase, congrArg (· == 1) same, store, bits, done, bank, 2, a.buildFailed_eq 2⟩

/-- Settles O58. -/
theorem updateEndsAndDebug : Obligations.UpdateEndsAndDebug := by
  intro s n port depth1 d code l c present act
  refine ⟨fun trial on awake => ?_, fun absorbed => ?_, s.upFallback_shows (by decide), fun dormant => if_pos (by simp [dormant]), fun awake => ?drain,
    ⟨fun on => ?tap, fun off => ?untapped⟩, ⟨fun absorbed => ?deaf, fun probe awake fitted => ?load⟩, fun debug lives => State.tapSelect_debug lives debug,
    fun test lives => State.tapSelect_test lives test, ⟨s.tapSelect_idcode, State.tapSelect_scrapped⟩, fun ins perm runs => ?halt,
    fun absorbed => ?unhalted, ?probe⟩
  · exact if_pos (by simp [trial, on, awake])
  · exact if_neg (by simpa [imp_iff_not_or, or_assoc] using absorbed)
  case drain =>
    obtain ⟨whole, count, newest⟩ := s.drained_shows (Nat.min_le_right n _)
    refine ⟨(s.drained (min n (s.ev.staged.length - 1))).evRegs, if_neg (by simp [awake]), ?_, ?_, ?_, (s.drained _).evRegs_regs⟩
    all_goals rw [State.evRegs_ev]
    · exact whole
    · exact count
    · exact newest
  case tap => exact if_pos (by simpa [or_assoc] using on)
  case untapped => exact if_neg (by simpa [or_assoc] using off)
  case deaf => exact if_pos (by simpa [or_assoc] using absorbed)
  case load =>
    exact ⟨_, if_neg (by simp [probe, awake, fitted]), tabGet_tabSet_same _ _ _ _, rfl, fun j other => tabGet_tabSet_ne _ _ _ other⟩
  case halt =>
    refine ⟨_, if_pos (by simp [ins, perm, runs]), ?_, ?_, ?_⟩
    all_goals rw [State.modLane, State.lane_setLane_same]
    · split
      next held => simpa using held
      next => exact List.mem_cons_self
    · rfl
  case unhalted => exact if_neg (by simpa [imp_iff_not_or, or_assoc] using absorbed)
  case probe => exact ⟨_, rfl, rfl, fun gone j => by rw [gone]; rfl, rfl⟩

end Sys2Proof.Proofs

/-! SUPPORT. The mailbox's buffers and queues (R440 to R446, R453, R459): a response as it stands in its buffer, a channel reset, a release. -/

namespace Sys2Proof.Machine
open Sys2Proof.Safety

/-! ### Memory -/

theorem tabGet_wipe (m : Mem) (lo hi a : Nat) : (m.wipe lo hi).rd a = if lo ≤ a ∧ a < hi then 0 else m.rd a := by
  split
  next inside => exact tabGet_filter_out _ _ (fun x => decide (x < lo) || decide (hi ≤ x)) (by simp; omega)
  next outside => exact tabGet_filter_in _ _ (fun x => decide (x < lo) || decide (hi ≤ x)) (by simp; omega)

/-! ### The event queue of a channel (R451 to R453) -/

/-- The registers of a channel's event queue. -/
def queueRegs (c : Nat) : Nat → Prop := regIn [MB_EVHEAD_HEAD c, MB_EVTAIL_TAIL c, MB_EVSTAT_COUNT c, MB_EVLOST_COUNT c]

theorem State.sendRecord_regs (s : State) (kind : Nat) (body : List Byte) : (s.sendRecord kind body).regs = s.regs := State.emit_regs _ _

theorem State.sendRecord_mb (s : State) (kind : Nat) (body : List Byte) : (s.sendRecord kind body).mb = s.mb := State.emit_mb _ _

theorem State.releaseEv_only (s : State) (c n : Nat) : OnlyRegs s (s.releaseEv c n) (regIn [MB_EVTAIL_TAIL c, MB_EVSTAT_COUNT c]) :=
  ((OnlyRegs.refl s _).p _ _ (regIn_head _ rfl)).p _ _ (regIn_cons.2 (.inr (regIn_head _ rfl)))

theorem State.releaseEv_shows (s : State) (c n : Nat) :
    (s.releaseEv c n).g (MB_EVTAIL_TAIL c) = (s.g (MB_EVTAIL_TAIL c) + n) % 32 ∧
    (s.releaseEv c n).g (MB_EVSTAT_COUNT c) = s.g (MB_EVSTAT_COUNT c) - n := by
  have apart : (MB_EVTAIL_TAIL c).reg ≠ (MB_EVSTAT_COUNT c).reg := by simp only [MB_EVTAIL_TAIL, MB_EVSTAT_COUNT]; omega
  have count : s.g (MB_EVSTAT_COUNT c) < 2 ^ 6 := s.g_lt _
  constructor
  · exact (State.g_p_reg _ _ apart).trans (State.g_p_fits _ ⟨(by decide : 0 + 5 ≤ 32), Nat.mod_lt _ (by decide : 0 < 2 ^ 5)⟩)
  · rw [State.releaseEv, State.g_p_reg _ _ apart.symm]
    exact State.g_p_fits _ ⟨(by decide : 0 + 6 ≤ 32), (Nat.sub_le _ _).trans_lt count⟩

/-- An entry put into a channel's queue. -/
def State.enqueued (s : State) (c : Nat) (e : QEnt) : State :=
  (({ s with mb := s.mb.wrL (0x1000 * c + 0x800 + 32 * s.g (MB_EVHEAD_HEAD c)) (s.qBytes e) } : State).p (MB_EVHEAD_HEAD c)
    ((s.g (MB_EVHEAD_HEAD c) + 1) % 32)).p (MB_EVSTAT_COUNT c)
    ((({ s with mb := s.mb.wrL (0x1000 * c + 0x800 + 32 * s.g (MB_EVHEAD_HEAD c)) (s.qBytes e) } : State).p (MB_EVHEAD_HEAD c)
      ((s.g (MB_EVHEAD_HEAD c) + 1) % 32)).g (MB_EVSTAT_COUNT c) + 1)

/-- An entry put into a channel's queue with its interrupt. -/
def State.signalled (s : State) (c : Nat) (e : QEnt) : State :=
  if (s.enqueued c e).on (MB_CTRL_IRQEVT c) && c < 4 then (s.enqueued c e).emit (.irq c 0 0x453) else s.enqueued c e

theorem State.postTo_eq (s : State) (c : Nat) (e : QEnt) : s.postTo c e =
    if s.g (MB_EVSTAT_COUNT c) ≥ 32 then (s.p (MB_EVSTAT_OVF c) 1).inc (MB_EVLOST_COUNT c)
    else if c == 4 && (s.signalled c e).sess.phase == .authenticated then ((s.signalled c e).sendRecord 0x12 (s.qBytes e)).releaseEv 4 1
    else s.signalled c e := rfl

theorem State.signalled_regs (s : State) (c : Nat) (e : QEnt) : (s.signalled c e).regs = (s.enqueued c e).regs := by
  unfold State.signalled; split
  · exact State.emit_regs _ _
  · rfl

theorem State.signalled_mb (s : State) (c : Nat) (e : QEnt) :
    (s.signalled c e).mb = s.mb.wrL (0x1000 * c + 0x800 + 32 * s.g (MB_EVHEAD_HEAD c)) (s.qBytes e) := by
  unfold State.signalled; split
  · exact State.emit_mb _ _
  · rfl

theorem State.signalled_keep (s : State) (c : Nat) (e : QEnt) : RegsKeep s (s.signalled c e) (queueRegs c) := by
  have entered : RegsKeep s (s.enqueued c e) (queueRegs c) :=
    ((RegsKeep.of_regs (RegsKeep.refl s _) rfl).p _ _ (regIn_head _ rfl)).p _ _ ⟨MB_EVSTAT_COUNT c, by simp, rfl⟩
  exact entered.of_regs (s.signalled_regs c e)

/-- An entry posted on a channel touches its queue's registers (R453). -/
theorem State.postTo_keep (s : State) (c : Nat) (e : QEnt) : RegsKeep s (s.postTo c e) (queueRegs c) := by
  rw [s.postTo_eq c e]
  split
  · exact (((RegsKeep.refl s _).p (MB_EVSTAT_OVF c) 1 ⟨MB_EVSTAT_COUNT c, by simp, rfl⟩).p (MB_EVLOST_COUNT c) _ ⟨MB_EVLOST_COUNT c, by simp, rfl⟩)
  · split
    next sent =>
      obtain rfl : c = 4 := by simp only [Bool.and_eq_true, beq_iff_eq] at sent; exact sent.1
      refine (RegsKeep.of_regs (s.signalled_keep 4 e) (State.sendRecord_regs _ _ _)).trans ((State.releaseEv_only _ 4 1).2.mono ?_)
      exact regIn_mono (by simp)
    next => exact s.signalled_keep c e

/-- An entry posted on a channel leaves the channel's buffers below the queue (R438, R453). -/
theorem State.postTo_mb (s : State) (c : Nat) (e : QEnt) {a n : Nat} (below : a + n ≤ 0x1000 * c + 0x800) :
    (s.postTo c e).mb.rdN a n = s.mb.rdN a n := by
  have entered : (s.signalled c e).mb.rdN a n = s.mb.rdN a n := by
    rw [s.signalled_mb c e]
    exact Mem.rdN_append_out _ _ _ _ _ (.inl (by omega))
  rw [s.postTo_eq c e]
  split
  · rfl
  · split
    · exact (congrArg (Mem.rdN · a n) (State.sendRecord_mb _ _ _)).trans entered
    · exact entered

/-! ### A response in its buffer (R443) -/

/-- A response of a channel that executes, as it stands in the buffer and the registers. -/
def State.respPlaced (s : State) (c : Nat) (hdr : List Byte) (status : Nat) (out : List Byte) : State :=
  ((((({ s with mb := s.mb.wrL (0x1000 * c + 0x400) (padTo 1024 (respHdr hdr status out.length ++ out)) } : State).p (MB_STAT_STATE c) 2).p
    (MB_LAST_CODE c) (leAt hdr 0 2)).p (MB_LAST_TAG c) (byteAt hdr 2)).p (MB_LAST_STATUS c) status)

/-- A response counted where it is `STATE_REJECT` (R445). -/
def State.respCounted (s : State) (c : Nat) (hdr : List Byte) (status : Nat) (out : List Byte) : State :=
  if status == stStateReject then (s.respPlaced c hdr status out).inc (MB_SREJCNT_COUNT c) else s.respPlaced c hdr status out

/-- A response with its interrupt. -/
def State.respRung (s : State) (c : Nat) (hdr : List Byte) (status : Nat) (out : List Byte) : State :=
  if (s.respCounted c hdr status out).on (MB_CTRL_IRQDONE c) && c < 4 then (s.respCounted c hdr status out).emit (.irq c 0 0x440)
  else s.respCounted c hdr status out

/-- A response with its record of the service session. -/
def State.respSent (s : State) (c : Nat) (hdr : List Byte) (status : Nat) (out : List Byte) : State :=
  if c == 4 && (s.respRung c hdr status out).sess.phase == .authenticated then
    (s.respRung c hdr status out).sendRecord 0x11 (respHdr hdr status out.length ++ out) else s.respRung c hdr status out

/-- The payload that a response carries with its status. -/
def respOut (status : Nat) (payload : List Byte) : List Byte := if status = stOk ∨ status = stStateReject then payload else []

section
variable {s : State} {c : Nat} {hdr : List Byte} {status : Nat} {payload out : List Byte}

/-- The entry that a command with `EVT` posts at its end (R440). -/
def doneEntry (hdr : List Byte) (status : Nat) : QEnt :=
  { evseq := 0, source := 0, code := leAt hdr 0 2, cat := 0, cls := 0xFF, data := leBytes 1 (byteAt hdr 2) ++ leBytes 2 status }

theorem State.respondOn_eq (on : s.on (MB_STAT_EN c) = true) (executes : s.g (MB_STAT_STATE c) = 1) :
    let t := s.respSent c hdr status (respOut status payload)
    s.respondOn c hdr status payload = if bit (byteAt hdr 3) 0 && bit (t.g (MB_EVMASK_CAT c)) 0 then t.postTo c (doneEntry hdr status) else t := by
  have form : (if status == stOk || status == stStateReject then payload else []) = respOut status payload := by simp [respOut]
  unfold State.respondOn
  rw [executes, form]
  exact if_pos (by simp [on])

theorem State.respCounted_mb : (s.respCounted c hdr status out).mb =
    s.mb.wrL (0x1000 * c + 0x400) (padTo 1024 (respHdr hdr status out.length ++ out)) := by
  unfold State.respCounted; split <;> rfl

theorem State.respSent_mb : (s.respSent c hdr status out).mb = s.mb.wrL (0x1000 * c + 0x400) (padTo 1024 (respHdr hdr status out.length ++ out)) := by
  have rung : (s.respRung c hdr status out).mb = (s.respCounted c hdr status out).mb := by
    unfold State.respRung; split
    · exact State.emit_mb _ _
    · rfl
  rw [← State.respCounted_mb, ← rung]
  unfold State.respSent; split
  · exact State.sendRecord_mb _ _ _
  · rfl

theorem State.respSent_regs : (s.respSent c hdr status out).regs = (s.respCounted c hdr status out).regs := by
  have rung : (s.respRung c hdr status out).regs = (s.respCounted c hdr status out).regs := by
    unfold State.respRung; split
    · exact State.emit_regs _ _
    · rfl
  rw [← rung]
  unfold State.respSent; split
  · exact State.sendRecord_regs _ _ _
  · rfl

theorem State.g_respSent (f : Fld) : (s.respSent c hdr status out).g f = (s.respCounted c hdr status out).g f := by
  rw [State.g, State.g, State.respSent_regs]

theorem State.respPlaced_shows : (s.respPlaced c hdr status out).g (MB_STAT_STATE c) = 2 ∧
    (s.respPlaced c hdr status out).g (MB_SREJCNT_COUNT c) = s.g (MB_SREJCNT_COUNT c) := by
  have last : (MB_STAT_STATE c).reg ≠ 0x40080000 + 0x1000 * c + 0xC2C := by simp only [MB_STAT_STATE]; omega
  have count : (MB_SREJCNT_COUNT c).reg ≠ 0x40080000 + 0x1000 * c + 0xC2C := by simp only [MB_SREJCNT_COUNT]; omega
  have state : (MB_SREJCNT_COUNT c).reg ≠ (MB_STAT_STATE c).reg := by simp only [MB_SREJCNT_COUNT, MB_STAT_STATE]; omega
  unfold State.respPlaced
  constructor
  · rw [State.g_p_reg _ _ last, State.g_p_reg _ _ last, State.g_p_reg _ _ last]
    exact State.g_p_fits _ (by decide : 0 + 2 ≤ 32 ∧ 2 < 2 ^ 2)
  · rw [State.g_p_reg _ _ count, State.g_p_reg _ _ count, State.g_p_reg _ _ count, State.g_p_reg _ _ state]
    rfl

/-- The channel of a response is Done (R440). -/
theorem State.respCounted_state : (s.respCounted c hdr status out).g (MB_STAT_STATE c) = 2 := by
  have apart : (MB_STAT_STATE c).reg ≠ (MB_SREJCNT_COUNT c).reg := by simp only [MB_SREJCNT_COUNT, MB_STAT_STATE]; omega
  unfold State.respCounted; split
  · exact (State.g_p_reg _ _ apart).trans State.respPlaced_shows.1
  · exact State.respPlaced_shows.1

/-- A `STATE_REJECT` is counted (R445). -/
theorem State.respCounted_rejects : (s.respCounted c hdr stStateReject out).g (MB_SREJCNT_COUNT c) =
    (s.g (MB_SREJCNT_COUNT c) + 1) % 2 ^ (MB_SREJCNT_COUNT c).w := by
  have counted := (s.respPlaced c hdr stStateReject out).g_inc_same (f := MB_SREJCNT_COUNT c) (by decide : 0 + 32 ≤ 32)
  rw [State.respPlaced_shows.2] at counted
  exact counted

/-- What a channel that executes shows of its response (R440, R443): the bytes in the buffer, the channel Done. -/
theorem State.respondOn_shows (on : s.on (MB_STAT_EN c) = true) (executes : s.g (MB_STAT_STATE c) = 1) {i n : Nat}
    (inside : i + n ≤ (respHdr hdr status (respOut status payload).length ++ respOut status payload).length)
    (fits : (respHdr hdr status (respOut status payload).length ++ respOut status payload).length ≤ 1024) :
    (s.respondOn c hdr status payload).mb.rdN (0x1000 * c + 0x400 + i) n =
      ((respHdr hdr status (respOut status payload).length ++ respOut status payload).drop i).take n ∧
    (s.respondOn c hdr status payload).g (MB_STAT_STATE c) = 2 := by
  generalize whole : respHdr hdr status (respOut status payload).length ++ respOut status payload = bs at inside fits ⊢
  have placed : (s.respSent c hdr status (respOut status payload)).mb.rdN (0x1000 * c + 0x400 + i) n = (bs.drop i).take n := by
    rw [State.respSent_mb, whole, Mem.rdN_wrL _ _ _ _ _ (by rw [length_padTo]; omega), padTo, List.drop_take, List.take_take,
      Nat.min_eq_left (by omega), List.drop_append_of_le_length (by omega), List.take_append_of_le_length (by rw [List.length_drop]; omega)]
  have done : (s.respSent c hdr status (respOut status payload)).g (MB_STAT_STATE c) = 2 := (State.g_respSent _).trans State.respCounted_state
  rw [State.respondOn_eq on executes]
  split
  · refine ⟨(State.postTo_mb _ _ _ (by omega)).trans placed, ((State.postTo_keep _ _ _).g_off ?_).trans done⟩
    simp only [List.forall_mem_cons, List.not_mem_nil, false_imp_iff, implies_true, and_true, MB_STAT_STATE, MB_EVHEAD_HEAD, MB_EVTAIL_TAIL,
      MB_EVSTAT_COUNT, MB_EVLOST_COUNT]
    omega
  · exact ⟨placed, done⟩

end

/-- The header of a response as one run of fields (R443). -/
theorem respHdr_eq (code : Nat) (h : Hdr) (status len : Nat) : respHdr (hdrBytes code h) status len = leBytes 2 code ++ (leBytes 1 h.tag.toNat ++
    (leBytes 1 h.flags.toNat ++ (leBytes 2 len ++ (leBytes 2 status ++ leBytes 8 0)))) := by
  have head : hdrBytes code h = (leBytes 2 code ++ (leBytes 1 h.tag.toNat ++ leBytes 1 h.flags.toNat)) ++
      (leBytes 2 h.len.toNat ++ (leBytes 2 h.chspec.toNat ++ leBytes 8 h.rsvd.toNat)) := by simp only [hdrBytes, List.append_assoc]
  rw [respHdr, head, padTo_append _ _ 4 (by simp [length_leBytes])]
  simp only [List.append_assoc]

theorem length_respHdr (hdr : List Byte) (status len : Nat) : (respHdr hdr status len).length = 16 := by
  simp [respHdr, length_padTo, length_leBytes]

theorem respHdr_fields (code : Nat) (h : Hdr) (status len : Nat) :
    let b := respHdr (hdrBytes code h) status len
    leAt b 0 2 = code % 2 ^ 16 ∧ byteAt b 2 = h.tag.toNat % 256 ∧ byteAt b 3 = h.flags.toNat % 256 ∧ leAt b 4 2 = len % 2 ^ 16 ∧
    leAt b 6 2 = status % 2 ^ 16 ∧ leAt b 8 8 = 0 := by
  simp [respHdr_eq, byteAt_eq_leAt, leAt_append_right, leAt_leBytes, leAt_leBytes_self, length_leBytes]

/-! ### The payload of `STATE_REJECT` (R446) -/

theorem State.rejectPayload_fields (s : State) (code chan : Nat) (p : List Byte) :
    let r := s.rejectPayload code chan p
    r.length = 4 ∧ byteAt r 0 = s.mode % 256 ∧ byteAt r 1 = s.g LC_STATE_LCS % 256 ∧
    leAt r 2 2 = acceptMask (s.g LC_STATE_LCS) code chan p % 2 ^ 16 := by
  simp [State.rejectPayload, byteAt_eq_leAt, leAt_append_right, leAt_leBytes, leAt_leBytes_self, length_leBytes]

/-- Every row names modes by a mask of twelve bits. -/
theorem cmdRow_modes {code : Nat} {r : CmdRow} (row : cmdRow code = some r) : r.modes < 2 ^ 16 := by
  have all : ∀ r ∈ cmdRowsA ++ cmdRowsB ++ cmdRowsC, r.modes < 2 ^ 16 := by decide
  exact all r (List.mem_of_find?_eq_some row)

theorem acceptMask_lt (lcs code chan : Nat) (p : List Byte) : acceptMask lcs code chan p < 2 ^ 16 := by
  unfold acceptMask
  split
  · decide
  · split
    · split
      · decide
      · split <;> decide
    · split
      · decide
      · split
        next r row => exact cmdRow_modes row
        next => decide

theorem acceptMask_of_closed {lcs code chan : Nat} {p : List Byte} (closed : lcsAccepts lcs code = false) : acceptMask lcs code chan p = 0 :=
  if_pos (by simp [closed])

/-- A mode accepts a command where the mask says so; `MOD_SETMODE` alone goes beyond its mask (R446, R471). -/
theorem State.modeAccepts_iff (s : State) {code chan : Nat} {p : List Byte} (other : code ≠ 0x0104) :
    s.modeAccepts code chan p = bit (acceptMask (s.g LC_STATE_LCS) code chan p) s.mode := by
  simp [State.modeAccepts, other]

/-- A `STATE_REJECT` on a channel of its own carries the payload of R446 (R443). -/
theorem State.respond_rejected (s : State) {c : Nat} (own : 4 ≤ c) (hdr cmd payload : List Byte) :
    s.respond [c] hdr cmd stStateReject payload = s.respondOn c hdr stStateReject (s.rejectPayload (leAt hdr 0 2) c cmd) := by
  have lane : ¬ c < 4 := Nat.not_lt.2 own
  simp [State.respond, lane]

/-! ### A channel reset (R459) -/

/-- Nothing but a conversation is changed: the registers of the mailbox stay, and so do its buffers. -/
def ChatOnly (s t : State) : Prop :=
  t = { s with regs := t.regs, waiting := t.waiting, queued := t.queued, app := t.app, un := t.un, dbg := t.dbg } ∧ RegsKeep s t lanePage

theorem ChatOnly.of_regs {s u : State} {w : Option Waiting} (h : OnlyRegs { s with waiting := w } u lanePage) : ChatOnly s u :=
  ⟨by rw [h.1], h.2⟩

theorem ChatOnly.with {s t : State} (h : ChatOnly s t) (w : Option Waiting) (q : List Queued) (a : AppSt) (n : UnSt) (d : DbgSt) :
    ChatOnly s { t with waiting := w, queued := q, app := a, un := n, dbg := d } :=
  ⟨by rw [h.1], h.2⟩

theorem State.giveUp_leaves (s : State) (w : Waiting) : ChatOnly s (s.giveUp w) := by
  have freed := ChatOnly.of_regs (State.uninhibit_only { s with waiting := none })
  unfold State.giveUp
  dsimp only
  split
  · exact freed.with _ _ _ _ _
  · exact freed

/-- The command that waits, as a channel's reset leaves it (R459). -/
def State.waitDropped (s : State) (c : Nat) : State :=
  match s.waiting with
  | some w =>
    if w.chans.filter (fun (x : Chan) => x.val != c) == w.chans then s
    else if w.begun then { s with waiting := some { w with chans := w.chans.filter (fun (x : Chan) => x.val != c) } } else s.giveUp w
  | none => s

theorem State.waitDropped_leaves (s : State) (c : Nat) : ChatOnly s (s.waitDropped c) := by
  have same : ChatOnly s s := ⟨rfl, RegsKeep.refl s _⟩
  unfold State.waitDropped
  split
  · split
    · exact same
    · split
      · exact ⟨rfl, RegsKeep.refl s _⟩
      · exact s.giveUp_leaves _
  · exact same

theorem State.dropChan_leaves (s : State) (c : Nat) : ChatOnly s (s.dropChan c) := by
  unfold State.dropChan
  split
  · exact ⟨rfl, RegsKeep.refl s _⟩
  · exact (s.waitDropped_leaves c).with _ _ _ _ _

/-- The registers of a channel that its reset sets to 0, and what stays beside them (R459). -/
theorem State.zeroChan_shows (s : State) {c : Nat} (low : c < 7) :
    (s.zeroChan c).g (MB_STAT_STATE c) = 0 ∧ (s.zeroChan c).g (MB_EVHEAD_HEAD c) = 0 ∧ (s.zeroChan c).g (MB_EVTAIL_TAIL c) = 0 ∧
    (s.zeroChan c).g (MB_EVSTAT_COUNT c) = 0 ∧ (s.zeroChan c).g (MB_STAT_REJ c) = 0 ∧ (s.zeroChan c).g (MB_STAT_REJST c) = 0 ∧
    (s.zeroChan c).g (MB_EVSTAT_OVF c) = 0 ∧ (s.zeroChan c).g (MB_STAT_EN c) = s.g (MB_STAT_EN c) ∧
    (s.zeroChan c).g (MB_STAT_AUTH c) = s.g (MB_STAT_AUTH c) := by
  have dropped (f : Fld) (page : f.reg = 0x40080000 + 0x1000 * c + 0xC04) :
      ({ s.dropChan c with mb := (s.dropChan c).mb.wipe (0x1000 * c) (0x1000 * c + 0x1000) } : State).g f = s.g f :=
    (s.dropChan_leaves c).2.g (by unfold lanePage; omega)
  unfold State.zeroChan
  refine ⟨?_, ?_, ?_, ?_, ?_, ?_, ?_, ?_, ?_⟩
  all_goals simp (disch := (simp only [MB_STAT_STATE, MB_STAT_REJ, MB_STAT_REJST, MB_STAT_EN, MB_STAT_AUTH, MB_EVHEAD_HEAD, MB_EVTAIL_TAIL,
    MB_EVSTAT_COUNT, MB_EVSTAT_OVF]; omega)) only [State.g_p_off, State.g_p_fits]
  · exact dropped _ rfl
  · exact dropped _ rfl

theorem ChatOnly.wiped {s d u : State} {as : Nat → Prop} {m : Mem} (h : ChatOnly s d) (e : OnlyRegs { d with mb := m } u as) :
    u = { s with regs := u.regs, mb := u.mb, waiting := u.waiting, queued := u.queued, app := u.app, un := u.un, dbg := u.dbg } := by
  rw [e.1, h.1]

theorem State.zeroChan_only (s : State) (c : Nat) : OnlyRegs { s.dropChan c with mb := (s.dropChan c).mb.wipe (0x1000 * c) (0x1000 * c + 0x1000) }
    (s.zeroChan c) (fun _ => True) := by
  unfold State.zeroChan
  refine (((((((OnlyRegs.refl _ _).p _ 0 ?_).p _ 0 ?_).p _ 0 ?_).p _ 0 ?_).p _ 0 ?_).p _ 0 ?_).p _ 0 ?_ <;> trivial

theorem State.zeroChan_mb (s : State) (c a : Nat) : (s.zeroChan c).mb.rd a = if 0x1000 * c ≤ a ∧ a < 0x1000 * c + 0x1000 then 0 else s.mb.rd a := by
  have mb : (s.dropChan c).mb = s.mb := by rw [(s.dropChan_leaves c).1]
  rw [(s.zeroChan_only c).1, ← mb]
  exact tabGet_wipe _ _ _ a

end Sys2Proof.Machine

namespace Sys2Proof.Proofs
open Sys2Proof.Machine Sys2Proof.Safety

/-- Settles O22. -/
theorem channelResetAndEventRelease : Obligations.ChannelResetAndEventRelease := by
  intro s ch tail
  refine ⟨fun own => ?reset, fun lane => congrArg Host.Outcome.next (if_pos lane), fun held => ?release, fun beyond => ?refused⟩
  case reset =>
    obtain ⟨state, head, tail, count, rej, rejst, ovf, en, auth⟩ := s.zeroChan_shows ch.isLt
    exact ⟨_, congrArg Host.Outcome.next (if_neg (Nat.not_lt.2 own)), s.zeroChan_mb ch.val, state, head, tail, count, rej, rejst, ovf, en, auth,
      (s.dropChan_leaves ch.val).wiped (s.zeroChan_only ch.val)⟩
  case release =>
    obtain ⟨tail_, count⟩ := s.releaseEv_shows ch.val ((tail.val + 32 - s.g (MB_EVTAIL_TAIL ch.val)) % 32)
    exact ⟨_, congrArg Host.Outcome.next (if_pos held), tail_, count, s.releaseEv_only _ _⟩
  case refused =>
    have noted := s.notice_same 0x22 2 ch.val (s.word (MB_EVSTAT_COUNT ch.val)) (by decide)
    exact ⟨_, congrArg Host.Outcome.next (if_neg (Nat.not_le.2 beyond)), rfl, (OnlyRegs.refl s _).record noted⟩

/-- Settles O7: each field of the response by its offset; the mask of `ACCEPT` bit by bit. -/
theorem responsesHaveTheirLayout : Obligations.ResponsesHaveTheirLayout := by
  intro s ch code h p payload status m word on executes short low out t base r lcs
  have outs : (respOut status payload).length ≤ 1008 := by
    unfold respOut; split
    · exact short
    · simp
  have length : (respHdr (hdrBytes code.toNat h) status (respOut status payload).length ++ respOut status payload).length = 16 + (respOut status payload).length := by
    rw [List.length_append, length_respHdr]
  obtain ⟨header, done⟩ := State.respondOn_shows (hdr := hdrBytes code.toNat h) (status := status) (payload := payload) (i := 0) (n := 16) on executes
    (by omega) (by omega)
  obtain ⟨body, -⟩ := State.respondOn_shows (hdr := hdrBytes code.toNat h) (status := status) (payload := payload) (i := 16)
    (n := (respOut status payload).length) on executes (by omega) (by omega)
  rw [List.drop_zero, List.take_left' (length_respHdr _ _ _)] at header
  rw [List.drop_left' (length_respHdr _ _ _), List.take_length] at body
  obtain ⟨codeB, tagB, flagsB, lenB, statusB, zeroB⟩ := respHdr_fields code.toNat h status (respOut status payload).length
  obtain ⟨size, modeB, lcsB, maskB⟩ := s.rejectPayload_fields code.toNat ch.val p
  have lanes : s.g LC_STATE_LCS < 2 ^ 3 := s.g_lt _
  have modes : s.mode < 2 ^ 4 := s.g_lt _
  have mask : acceptMask (s.g LC_STATE_LCS) code.toNat ch.val p % 2 ^ 16 = acceptMask (s.g LC_STATE_LCS) code.toNat ch.val p :=
    Nat.mod_eq_of_lt (acceptMask_lt _ _ _ _)
  have named : leAt (hdrBytes code.toNat h) 0 2 = code.toNat := (leAt_code _ _).trans (Nat.mod_eq_of_lt code.isLt)
  rw [mask] at maskB
  refine ⟨?_, ?_, ?_, ?_, ?_, ?_, body, done, fun own rejects => ?_, size, ?_, ?_, fun closed => ?_, fun other => ?_⟩
  · rw [header, codeB]; exact Nat.mod_eq_of_lt code.isLt
  · rw [header, tagB]; exact Nat.mod_eq_of_lt h.tag.isLt
  · rw [header, flagsB]; exact Nat.mod_eq_of_lt h.flags.isLt
  · rw [header, lenB]; exact Nat.mod_eq_of_lt (by omega)
  · rw [header, statusB]; exact Nat.mod_eq_of_lt word
  · rw [header, zeroB]
  · rw [rejects, s.respond_rejected own, named]
  · rw [modeB]; exact Nat.mod_eq_of_lt (by omega)
  · rw [lcsB]; exact Nat.mod_eq_of_lt (by omega)
  · rw [maskB]; exact acceptMask_of_closed closed
  · have mode : (s.p LC_MODE_MODE m).mode = m := State.g_p_fits _ ⟨by decide, (by omega : m < 2 ^ 4)⟩
    rw [maskB, State.modeAccepts_iff _ other, mode, State.g_p_off _ _ (by decide)]

end Sys2Proof.Proofs

/-! SUPPORT. A command from its doorbell to its body (R440, R441, R444, R445): the checks in their order, a refused doorbell, an unknown code. -/

namespace Sys2Proof.Machine
open Sys2Proof.Safety

/-! ### The header's fields (R442) -/

/-- The header of a command as one run of fields. -/
theorem hdrBytes_eq (code : Nat) (h : Hdr) : hdrBytes code h = leBytes 2 code ++ (leBytes 1 h.tag.toNat ++ (leBytes 1 h.flags.toNat ++
    (leBytes 2 h.len.toNat ++ (leBytes 2 h.chspec.toNat ++ leBytes 8 h.rsvd.toNat)))) := by simp only [hdrBytes, List.append_assoc]

theorem byteAt_flags (code : Nat) (h : Hdr) : byteAt (hdrBytes code h) 3 = h.flags.toNat := by
  have field : byteAt (hdrBytes code h) 3 = h.flags.toNat % 256 := by
    simp [hdrBytes_eq, byteAt_eq_leAt, leAt_append_right, leAt_leBytes, length_leBytes]
  rw [field]; exact Nat.mod_eq_of_lt h.flags.isLt

theorem leAt_chspec (code : Nat) (h : Hdr) : leAt (hdrBytes code h) 6 2 = h.chspec.toNat := by
  have field : leAt (hdrBytes code h) 6 2 = h.chspec.toNat % 2 ^ 16 := by
    simp [hdrBytes_eq, leAt_append_right, leAt_leBytes, length_leBytes]
  rw [field]; exact Nat.mod_eq_of_lt h.chspec.isLt

theorem leAt_rsvd (code : Nat) (h : Hdr) : leAt (hdrBytes code h) 8 8 = h.rsvd.toNat := by
  have field : leAt (hdrBytes code h) 8 8 = h.rsvd.toNat % 2 ^ 64 := by
    simp [hdrBytes_eq, leAt_append_right, leAt_leBytes_self, length_leBytes]
  rw [field]; exact Nat.mod_eq_of_lt h.rsvd.isLt

/-! ### Checks 1 to 6 (R444) -/

/-- Is the channel-specific field of a header legal: a task number on a lane's channel, else 0? -/
def specLegal (c : Nat) (h : Hdr) : Prop := if c < 4 then h.chspec.toNat ≤ 15 else h.chspec = 0

theorem specLegal_own {c : Nat} {h : Hdr} (own : 4 ≤ c) : specLegal c h ↔ h.chspec = 0 := by rw [specLegal, if_neg (Nat.not_lt.2 own)]

theorem specLegal_lane {c : Nat} {h : Hdr} (lane : c < 4) : specLegal c h ↔ h.chspec.toNat ≤ 15 := by rw [specLegal, if_pos lane]

theorem header_illegal (c code : Nat) (h : Hdr) :
    (byteAt (hdrBytes code h) 3 > 1 || leAt (hdrBytes code h) 8 8 != 0 ||
      (if c < 4 then leAt (hdrBytes code h) 6 2 > 15 else leAt (hdrBytes code h) 6 2 != 0)) = true ↔
    1 < h.flags.toNat ∨ h.rsvd ≠ 0 ∨ ¬ specLegal c h := by
  rw [byteAt_flags, leAt_rsvd, leAt_chspec]
  have zero64 : h.rsvd.toNat = 0 ↔ h.rsvd = 0 := (BitVec.toNat_eq (y := 0)).symm
  have zero16 : h.chspec.toNat = 0 ↔ h.chspec = 0 := (BitVec.toNat_eq (y := 0)).symm
  unfold specLegal
  split <;> simp [zero64, zero16, or_assoc]

section
variable {s : State} {c code : Nat} {h : Hdr} {p : List Byte} (len : h.len.toNat = p.length)
include len

variable (short : p.length ≤ 1008)
include short

theorem State.checkCmd_of_header (bad : 1 < h.flags.toNat ∨ h.rsvd ≠ 0 ∨ ¬ specLegal c h) : s.checkCmd c (hdrBytes code h) p = some stBadParam := by
  unfold State.checkCmd
  rw [leAt_len, len, if_neg (Nat.not_lt.2 short)]
  exact if_pos ((header_illegal c code h).2 bad)

variable (flags : h.flags.toNat ≤ 1) (rsvd : h.rsvd = 0) (spec : specLegal c h) (word : code < 65536)
include flags rsvd spec word

/-- With a legal header the code's row decides. -/
theorem State.checkCmd_row : s.checkCmd c (hdrBytes code h) p = match cmdRow code with
    | none => some stBadCode
    | some r =>
      if !r.lens.any (fun e => within e.1 e.2 p.length) then some stBadLength
      else if !chanAccepts (s.g LC_STATE_LCS) c r p then some stAuth
      else if !s.modeAccepts code c p then some stStateReject
      else none := by
  have legal : ¬ (1 < h.flags.toNat ∨ h.rsvd ≠ 0 ∨ ¬ specLegal c h) := by simp [Nat.not_lt.2 flags, rsvd, spec]
  unfold State.checkCmd
  rw [leAt_len, len, if_neg (Nat.not_lt.2 short), leAt_code, Nat.mod_eq_of_lt word]
  exact if_neg (fun bad => legal ((header_illegal c code h).1 bad))

theorem State.checkCmd_of_unknown (unknown : cmdRow code = none) : s.checkCmd c (hdrBytes code h) p = some stBadCode := by
  rw [State.checkCmd_row len short flags rsvd spec word, unknown]

variable {r : CmdRow} (row : cmdRow code = some r)
include row

theorem State.checkCmd_of_length (bad : ∀ e ∈ r.lens, ¬ (e.1 ≤ p.length ∧ p.length ≤ e.2)) :
    s.checkCmd c (hdrBytes code h) p = some stBadLength := by
  rw [State.checkCmd_row len short flags rsvd spec word, row]
  exact if_pos (by simpa [within_iff] using bad)

variable (good : ∃ e ∈ r.lens, e.1 ≤ p.length ∧ p.length ≤ e.2)
include good

theorem State.checkCmd_known : s.checkCmd c (hdrBytes code h) p = if !chanAccepts (s.g LC_STATE_LCS) c r p then some stAuth
      else if !s.modeAccepts code c p then some stStateReject else none := by
  rw [State.checkCmd_row len short flags rsvd spec word, row]
  exact if_neg (by simpa [within_iff] using good)

end

/-! ### The doorbell (R440, R441) -/

section
variable {s : State} {ch : Chan} {code : Nat} {h : Hdr} {p : List Byte}

theorem State.postCmd_dormant (off : s.mode = mDormant) : s.postCmd ch code h p = s := if_pos (by simp [off])

variable (awake : s.mode ≠ mDormant)
include awake

theorem State.postCmd_speculating {t : Nat} (spec : s.specPoster ch.val = some t) :
    s.postCmd ch code h p = s.deferCmd ch.val t (hdrBytes code h ++ p) := by
  unfold State.postCmd
  rw [if_neg (by simp [awake]), spec]

theorem State.postCmd_rings (direct : s.specPoster ch.val = none) : s.postCmd ch code h p =
    (if s.on (MB_STAT_EN ch.val) then s.writeCmd ch.val (hdrBytes code h) p else s).doorbell ch := by
  unfold State.postCmd
  rw [if_neg (by simp [awake]), direct]

end

section
variable {s : State} {ch : Chan} (present : ¬ (s.variant = .zm60 ∧ ch.val = 3))
include present

theorem State.doorbell_closed (closed : s.on (MB_STAT_EN ch.val) = false) : s.doorbell ch =
    (s.refuseBell ch.val stNotPresent).notice 0x22 3 ch.val ((s.refuseBell ch.val stNotPresent).word (MB_STAT_STATE ch.val)) :=
  (if_neg (by simpa using present)).trans (if_pos (by simp [closed]))

variable (on : s.on (MB_STAT_EN ch.val) = true)
include on

theorem State.doorbell_busy (executes : s.g (MB_STAT_STATE ch.val) = 1) : s.doorbell ch =
    (s.refuseBell ch.val stBusy).inc (MB_BUSYCNT_COUNT ch.val) :=
  (if_neg (by simpa using present)).trans ((if_neg (by simp [on])).trans (if_pos (by simp [executes])))

theorem State.doorbell_taken (free : s.g (MB_STAT_STATE ch.val) ≠ 1) : s.doorbell ch =
    let t := (s.inc (MB_CMDCNT_COUNT ch.val)).p (MB_STAT_STATE ch.val) 1
    if ch.val < 4 then t.laneCmd (Fin.ofNat 4 ch.val) else t.runCmd { chans := [ch], hdr := t.cmdHdr ch.val, p := t.cmdPayload ch.val } :=
  (if_neg (by simpa using present)).trans ((if_neg (by simp [on])).trans (if_neg (by simp [free])))

end

theorem State.refuseBell_regs (s : State) (c status : Nat) : (s.refuseBell c status).regs = ((s.p (MB_STAT_REJ c) 1).p (MB_STAT_REJST c) status).regs := by
  unfold State.refuseBell
  dsimp only
  split
  · exact State.sendRecord_regs _ _ _
  · rfl

/-- What a refused doorbell leaves in the channel's registers (R441). -/
theorem State.refuseBell_shows (s : State) (c : Nat) {status : Nat} (byte : status < 2 ^ 8) :
    (s.refuseBell c status).g (MB_STAT_REJ c) = 1 ∧ (s.refuseBell c status).g (MB_STAT_REJST c) = status ∧
    (s.refuseBell c status).g (MB_STAT_STATE c) = s.g (MB_STAT_STATE c) ∧
    (s.refuseBell c status).g (MB_BUSYCNT_COUNT c) = s.g (MB_BUSYCNT_COUNT c) := by
  have regs (f : Fld) : (s.refuseBell c status).g f = ((s.p (MB_STAT_REJ c) 1).p (MB_STAT_REJST c) status).g f := by
    rw [State.g, s.refuseBell_regs c status, State.g]
  simp only [regs]
  refine ⟨?_, State.g_p_fits _ ⟨(by decide : 8 + 8 ≤ 32), byte⟩, ?_, ?_⟩
  all_goals simp (disch := (simp only [MB_STAT_STATE, MB_STAT_REJ, MB_STAT_REJST, MB_BUSYCNT_COUNT]; omega)) only [State.g_p_off, State.g_p_fits]

/-- A refused doorbell counted (R445). -/
theorem State.busyCounted_shows (s : State) (c : Nat) :
    let t := (s.refuseBell c stBusy).inc (MB_BUSYCNT_COUNT c)
    t.g (MB_STAT_REJ c) = 1 ∧ t.g (MB_STAT_REJST c) = stBusy ∧ t.g (MB_STAT_STATE c) = s.g (MB_STAT_STATE c) ∧
    t.g (MB_BUSYCNT_COUNT c) = (s.g (MB_BUSYCNT_COUNT c) + 1) % 2 ^ (MB_BUSYCNT_COUNT c).w := by
  obtain ⟨rej, rejst, state, count⟩ := s.refuseBell_shows c (status := stBusy) (by decide)
  have stat : 0x40080000 + 0x1000 * c + 0xC04 ≠ (MB_BUSYCNT_COUNT c).reg := by simp only [MB_BUSYCNT_COUNT]; omega
  refine ⟨(State.g_p_reg _ _ stat).trans rej, (State.g_p_reg _ _ stat).trans rejst, (State.g_p_reg _ _ stat).trans state, ?_⟩
  have counted := (s.refuseBell c stBusy).g_inc_same (f := MB_BUSYCNT_COUNT c) (by decide : 0 + 32 ≤ 32)
  rwa [count] at counted

/-! ### A command of its own channel (R444) -/

section
variable {s : State} {ch : Chan} {code : Nat} {h : Hdr} {p : List Byte}

/-- A payload beyond the buffer is cut to 1,008 bytes (R442). -/
theorem cmdPayload_taken_take (s : State) (ch : Chan) (code : Nat) {h : Hdr} {p : List Byte} (len : h.len.toNat = p.length) :
    (taken s ch code h p).cmdPayload ch.val = p.take 1008 := by
  have whole : padTo 16 (hdrBytes code h) = hdrBytes code h := padTo_of_length (length_hdrBytes _ _)
  have size : (hdrBytes code h ++ p.take 1008).length = 16 + min 1008 p.length := by simp
  have bytes : (taken s ch code h p).mb = s.mb.wrL (0x1000 * ch.val) (hdrBytes code h ++ p.take 1008) := by rw [← whole]; rfl
  rw [State.cmdPayload, cmdHdr_taken, leAt_len, len, bytes, Mem.rdN_wrL _ _ _ _ _ (by omega), List.drop_left' (length_hdrBytes _ _)]
  exact List.take_of_length_le (by simp)

theorem State.g_writeCmd (s : State) (c : Nat) (hdr p : List Byte) (f : Fld) : (s.writeCmd c hdr p).g f = s.g f := rfl

theorem State.on_writeCmd (s : State) (c : Nat) (hdr p : List Byte) (f : Fld) : (s.writeCmd c hdr p).on f = s.on f := rfl

/-- A command taken at an open channel that is free. -/
theorem State.doorbell_writes (present : ¬ (s.variant = .zm60 ∧ ch.val = 3)) (on : s.on (MB_STAT_EN ch.val) = true)
    (free : s.g (MB_STAT_STATE ch.val) ≠ 1) : (s.writeCmd ch.val (hdrBytes code h) p).doorbell ch =
    if ch.val < 4 then (taken s ch code h p).laneCmd (Fin.ofNat 4 ch.val)
    else (taken s ch code h p).runCmd { chans := [ch], hdr := (taken s ch code h p).cmdHdr ch.val, p := (taken s ch code h p).cmdPayload ch.val } :=
  State.doorbell_taken present ((s.on_writeCmd _ _ _ _).trans on) (by rwa [State.g_writeCmd])

theorem State.runCmd_refused {i : CmdIn} {st : Nat} (fails : s.checkCmd i.chan i.hdr i.p = some st) : s.runCmd i = refusedWith s i st := by
  unfold State.runCmd
  rw [fails]
  rfl

variable (own : 4 ≤ ch.val) (awake : s.mode ≠ mDormant) (on : s.on (MB_STAT_EN ch.val) = true) (free : s.g (MB_STAT_STATE ch.val) ≠ 1)
  (len : h.len.toNat = p.length)
include own awake on free len

theorem State.postCmd_own : s.postCmd ch code h p = (taken s ch code h p).runCmd (cmdOf ch code h (p.take 1008)) := by
  have lane : ¬ ch.val < 4 := Nat.not_lt.2 own
  rw [State.postCmd_rings awake (if_neg lane), if_pos on, State.doorbell_writes (fun zm => by omega) on free, if_neg lane, cmdHdr_taken,
    cmdPayload_taken_take _ _ _ len]
  rfl

/-- The first check that fails gives the answer of a command on a channel of its own. -/
theorem State.postCmd_refused {st : Nat} (short : p.length ≤ 1008) (fails : (taken s ch code h p).checkCmd ch.val (hdrBytes code h) p = some st) :
    s.postCmd ch code h p = refusedWith (taken s ch code h p) (cmdOf ch code h p) st := by
  rw [State.postCmd_own own awake on free len, List.take_of_length_le short]
  exact State.runCmd_refused fails

theorem State.postCmd_long (long : 1008 < p.length) :
    s.postCmd ch code h p = refusedWith (taken s ch code h p) (cmdOf ch code h (p.take 1008)) stBadLength := by
  rw [State.postCmd_own own awake on free len]
  refine State.runCmd_refused (if_pos ?_)
  show 1008 < leAt (hdrBytes code h) 4 2
  rw [leAt_len, len]
  exact long

end

/-! ### A refusal counted (R445) -/

theorem State.respSent_ev (s : State) (c : Nat) (hdr : List Byte) (status : Nat) (out : List Byte) : (s.respSent c hdr status out).ev = s.ev := by
  have counted : (s.respCounted c hdr status out).ev = s.ev := by unfold State.respCounted; split <;> rfl
  have rung : (s.respRung c hdr status out).ev = s.ev := by
    unfold State.respRung; split
    · exact (State.emit_ev _ _).trans counted
    · exact counted
  unfold State.respSent; split
  · exact (State.emit_ev _ _).trans rung
  · exact rung

/-- A `STATE_REJECT` on a channel of its own is counted and not recorded. -/
theorem State.rejected_shows {s : State} {ch : Chan} {code : Nat} {h : Hdr} {p : List Byte} (own : 4 ≤ ch.val) (on : s.on (MB_STAT_EN ch.val) = true)
    (executes : s.g (MB_STAT_STATE ch.val) = 1) (quiet : h.flags.toNat = 0) :
    (refusedWith s (cmdOf ch code h p) stStateReject).g (MB_SREJCNT_COUNT ch.val) =
      (s.g (MB_SREJCNT_COUNT ch.val) + 1) % 2 ^ (MB_SREJCNT_COUNT ch.val).w ∧
    (refusedWith s (cmdOf ch code h p) stStateReject).records = s.records := by
  have answered : refusedWith s (cmdOf ch code h p) stStateReject = s.respSent ch.val (hdrBytes code h) stStateReject
      (respOut stStateReject (s.rejectPayload (leAt (hdrBytes code h) 0 2) ch.val p)) := by
    have still : byteAt (cmdOf ch code h p).hdr 3 = 0 := (byteAt_flags code h).trans quiet
    exact (s.respond_rejected own _ _ _).trans ((State.respondOn_eq on executes).trans (if_neg (by simp [still, bit])))
  rw [answered, State.g_respSent, State.respCounted_rejects, State.records, State.respSent_ev]
  exact ⟨rfl, rfl⟩

/-! ### An unknown code (R7) -/

section
variable {s : State} {ch : Chan} {code : Nat} {h : Hdr} {p : List Byte}

/-- The channels of the lanes are the lanes' own. -/
theorem State.laneChans_lt (s : State) {c : Chan} (mem : c ∈ s.laneChans) : c.val < 4 := by
  obtain ⟨l, live, rfl⟩ := List.mem_map.1 mem
  have lane : l ∈ [0, 1, 2, 3] := List.mem_of_mem_filter live
  simp only [List.mem_cons, List.not_mem_nil, or_false] at lane
  rcases lane with rfl | rfl | rfl | rfl <;> decide

theorem laneCmdOf_chan (s : State) (code : Nat) (h : Hdr) (p : List Byte) : (laneCmdOf s code h p).chan < 4 := by
  unfold laneCmdOf CmdIn.chan
  cases e : s.laneChans with
  | nil => exact (by decide : 0 < 4)
  | cons c cs => exact s.laneChans_lt (e ▸ List.mem_cons_self)

variable (lane : ch.val < 4) (present : ¬ (s.variant = .zm60 ∧ ch.val = 3)) (direct : s.specPoster ch.val = none) (awake : s.mode ≠ mDormant)
  (on : s.on (MB_STAT_EN ch.val) = true) (free : s.g (MB_STAT_STATE ch.val) ≠ 1) (len : h.len.toNat = p.length) (short : p.length ≤ 1008)
  (formed : (lanePost s ch code h p).2 = .formed (hdrBytes code h ++ p))
include lane present direct awake on free len short formed

theorem State.postCmd_formed : s.postCmd ch code h p = (lanePost s ch code h p).1.runCmd (laneCmdOf (lanePost s ch code h p).1 code h p) := by
  rw [State.postCmd_rings awake direct, if_pos on, State.doorbell_writes present on free, if_pos lane]
  have own : (Fin.ofNat 4 ch.val : Lane).val = ch.val := Nat.mod_eq_of_lt lane
  have head : (hdrBytes code h ++ p).take 16 = hdrBytes code h := List.take_left' (length_hdrBytes _ _)
  have body : (hdrBytes code h ++ p).drop 16 = p := List.drop_left' (length_hdrBytes _ _)
  unfold State.laneCmd
  simp only [lanePost] at formed
  simp only [own, cmdHdr_taken, cmdPayload_taken s ch code h p len short, formed, head, body]
  rfl

end

end Sys2Proof.Machine

namespace Sys2Proof.Proofs
open Sys2Proof.Machine Sys2Proof.Safety

/-- Settles O6: the rows' codes by their definition; the doorbell's cases; the checks in their order; the unknown code. -/
theorem commandsPassTheChecksInOrder : Obligations.CommandsPassTheChecksInOrder := by
  refine ⟨fun s ch code h p st => ⟨rfl, rfl, rfl, rfl, rfl, rfl, rfl, rfl, rfl, rfl, rfl, rfl, rfl, rfl, rfl, rfl, rfl, rfl, rfl, rfl, rfl, rfl, rfl,
    rfl, rfl, rfl, rfl, rfl, rfl, rfl, rfl, rfl, rfl, rfl, rfl, rfl, rfl, rfl, rfl, rfl, rfl, rfl, rfl, rfl, rfl, rfl, rfl, rfl, rfl, rfl, rfl, rfl,
    rfl, rfl, rfl, rfl, rfl, rfl, rfl, rfl, State.postCmd_dormant, fun t awake spec => State.postCmd_speculating awake spec,
    fun awake present direct => ⟨fun closed => ?closed, fun on executes => ?busy⟩, fun own awake on free len => ?checks,
    fun own on executes quiet => State.rejected_shows own on executes quiet⟩,
    fun s ch code h p awake on free len short flags rsvd unknown => ⟨fun own spec => ?own, fun lane present direct spec formed => ?lane⟩⟩
  case closed =>
    obtain ⟨rej, rejst, -⟩ := s.refuseBell_shows ch.val (status := stNotPresent) (by decide)
    exact ⟨s.refuseBell ch.val stNotPresent, by rw [State.postCmd_rings awake direct, closed]; exact State.doorbell_closed present closed, rej, rejst⟩
  case busy =>
    obtain ⟨rej, rejst, state, count⟩ := (s.writeCmd ch.val (hdrBytes code.toNat h) p).busyCounted_shows ch.val
    rw [State.g_writeCmd] at state count
    refine ⟨_, ?_, rej, rejst, state.trans executes, count⟩
    rw [State.postCmd_rings awake direct, if_pos on]
    exact State.doorbell_busy present ((s.on_writeCmd _ _ _ _).trans on) ((s.g_writeCmd _ _ _ _).trans executes)
  case checks =>
    have word : code.toNat < 65536 := code.isLt
    have legal : h.chspec = 0 → specLegal ch.val h := (specLegal_own own).2
    refine ⟨fun fails short => State.postCmd_refused own awake on free len short fails, State.postCmd_long own awake on free len,
      fun short bad => State.checkCmd_of_header len short ?_, fun short flags rsvd spec =>
        ⟨fun unknown => ?_, fun r row => ⟨fun bad => ?_, fun good => ⟨fun shut => ?_, fun accepts barred => ?_, fun accepts may => ?_⟩⟩⟩⟩
    · rwa [specLegal_own own]
    · exact State.checkCmd_of_unknown len short flags rsvd (legal spec) word unknown
    · exact State.checkCmd_of_length len short flags rsvd (legal spec) word row bad
    all_goals rw [State.checkCmd_known len short flags rsvd (legal spec) word row good]
    · exact if_pos (by simp [shut])
    · exact (if_neg (by simp [accepts])).trans (if_pos (by simp [barred]))
    · exact (if_neg (by simp [accepts])).trans (if_neg (by simp [may]))
  case own =>
    exact congrArg _ (State.postCmd_refused own awake on free len short
      (State.checkCmd_of_unknown len short flags rsvd ((specLegal_own own).2 spec) code.isLt unknown))
  case lane =>
    have legal := (specLegal_lane (laneCmdOf_chan (lanePost s ch code.toNat h p).1 code.toNat h p)).2 spec
    refine congrArg _ ((State.postCmd_formed lane present direct awake on free len short formed).trans (State.runCmd_refused ?_))
    exact State.checkCmd_of_unknown len short flags rsvd legal code.isLt unknown

end Sys2Proof.Proofs

/-! SUPPORT. What reactions, mode changes and ends of commands leave alone: MRAM's application, the settings, the keys, the standby domain, the update
and its registers, the Keeper's registers but for the level shown. -/

namespace Sys2Proof.Machine
open Sys2Proof.Safety

/-- A field of the update's or the Keeper's block that does not show the level. -/
def Lasting (f : Fld) : Prop :=
  (f.reg / 0x10000 = 0x4007 ∨ f.reg / 0x10000 = 0x4009) ∧ (f.reg = LC_MODE_LEVEL.reg → f.lo + f.w ≤ 8 ∨ 11 ≤ f.lo)

/-- What lasts is the same in both states. -/
structure Lasts (s t : State) : Prop where
  variant : t.variant = s.variant
  stored : t.app.stored = s.app.stored
  cfg : t.cfg = s.cfg
  keys : t.keys = s.keys
  sb : t.sb = s.sb
  up : t.up = s.up
  fld : ∀ f, Lasting f → t.g f = s.g f

/-- The addresses of the blocks that hold a lasting field. -/
def lastPage (a : Nat) : Prop := a / 0x10000 = 0x4007 ∨ a / 0x10000 = 0x4009

theorem Lasts.refl (s : State) : Lasts s s := ⟨rfl, rfl, rfl, rfl, rfl, rfl, fun _ _ => rfl⟩

theorem Lasts.trans {a b c : State} (h : Lasts a b) (k : Lasts b c) : Lasts a c :=
  ⟨k.variant.trans h.variant, k.stored.trans h.stored, k.cfg.trans h.cfg, k.keys.trans h.keys, k.sb.trans h.sb, k.up.trans h.up,
    fun f last => (k.fld f last).trans (h.fld f last)⟩

theorem Lasts.mode {s t : State} (h : Lasts s t) : t.mode = s.mode := h.fld LC_MODE_MODE (by unfold Lasting; decide)

theorem Lasts.ite {s a b : State} {p : Prop} [Decidable p] (ha : Lasts s a) (hb : Lasts s b) : Lasts s (if p then a else b) := by
  split <;> assumption

theorem Lasts.foldl {α : Type} {s t : State} {f : State → α → State} (l : List α) (hf : ∀ t x, x ∈ l → Lasts s t → Lasts s (f t x)) (h : Lasts s t) :
    Lasts s (l.foldl f t) := by
  induction l generalizing t with
  | nil => exact h
  | cons x l ih => exact ih (fun t y mem => hf t y (List.mem_cons_of_mem _ mem)) (hf t x List.mem_cons_self h)

/-- A state that differs in other parts of the state only. -/
theorem Lasts.upd {s t u : State} (h : Lasts s t) (regs : u.regs = t.regs) (variant : u.variant = t.variant) (stored : u.app.stored = t.app.stored)
    (cfg : u.cfg = t.cfg) (keys : u.keys = t.keys) (sb : u.sb = t.sb) (up : u.up = t.up) : Lasts s u :=
  h.trans ⟨variant, stored, cfg, keys, sb, up, fun f _ => by rw [State.g, regs, State.g]⟩

theorem Lasts.of_only {s t : State} {as : Nat → Prop} (h : OnlyRegs s t as) (off : ∀ a, as a → ¬ lastPage a) : Lasts s t := by
  have fld (f : Fld) (last : Lasting f) : t.g f = s.g f := h.g fun mem => off _ mem last.1
  rw [h.1] at fld ⊢
  exact ⟨rfl, rfl, rfl, rfl, rfl, rfl, fld⟩

theorem Lasts.of_same {s t : State} (h : SameBut s t) : Lasts s t :=
  ⟨h.variant, by rw [h.1], h.cfg, by rw [h.1], by rw [h.1], by rw [h.1], fun f last => h.g f fun page => by
    have := last.1; unfold recPage at page; omega⟩

theorem Lasts.p {s t : State} (h : Lasts s t) (f : Fld) (v : Nat) (off : ¬ lastPage f.reg) : Lasts s (t.p f v) :=
  h.trans (Lasts.of_only (OnlyRegs.of_p t v (regIn_head [] rfl)) fun a mem => by
    obtain ⟨g, here, rfl⟩ := mem
    rwa [List.mem_singleton.1 here])

theorem Lasts.level {s t : State} (h : Lasts s t) (v : Nat) : Lasts s (t.p LC_MODE_LEVEL v) :=
  h.trans ⟨rfl, rfl, rfl, rfl, rfl, rfl, fun f last => State.g_p_off _ _ (by
    by_cases here : f.reg = LC_MODE_LEVEL.reg
    · exact .inr ⟨by decide, (last.2 here).symm⟩
    · exact .inl here)⟩

theorem Lasts.of_lanePage {s t : State} (h : OnlyRegs s t lanePage) : Lasts s t :=
  Lasts.of_only h fun a lane => by unfold lanePage at lane; unfold lastPage; omega

theorem Lasts.of_fieldPage {s t : State} (h : OnlyRegs s t fieldPage) : Lasts s t :=
  Lasts.of_only h fun a field => by unfold fieldPage at field; unfold lastPage; omega

theorem not_lastPage_lane (l k k' : Nat) : ¬ lastPage (laneBase l + k + k') := by unfold laneBase lastPage; omega

/-! ### Levels and lanes -/

theorem State.levels_lasts (s : State) : Lasts s s.levels := by
  have shown : Lasts s (s.p VX_LANES_LEVEL s.level) := (Lasts.refl s).p _ _ (by unfold lastPage; decide)
  have lanes : Lasts s ([0, 1, 2, 3].foldl (fun (t : State) l => t.p (VX_LSTAT_LEVEL l) s.level) (s.p VX_LANES_LEVEL s.level)) :=
    Lasts.foldl _ (fun t l _ h => h.p _ _ (not_lastPage_lane l 0x60000 0)) shown
  exact lanes.level _

theorem State.setLane_lasts (s : State) (l : Nat) (x : LaneSt) : Lasts s (s.setLane l x) :=
  (Lasts.refl s).upd (by simp) (by simp) (by simp) (by simp) (by simp) (by simp) (by simp)

theorem State.setLaneSt_lasts (s : State) (l st : Nat) : Lasts s (s.setLaneSt l st) := by
  refine (((Lasts.refl s).p _ _ ?_).p _ _ (not_lastPage_lane l 0x60000 0)).trans (State.levels_lasts _)
  rw [laneFld_reg]; unfold lastPage; decide

/-- The registers of a lane's block gone. -/
def State.laneRegsGone (s : State) (l : Nat) : State := { s with regs := s.regs.filter (fun e => e.1 / 0x1000000 != 0x70 + l) }

theorem State.laneRegsGone_lasts (s : State) (l : Nat) : Lasts s (s.laneRegsGone l) :=
  ⟨rfl, rfl, rfl, rfl, rfl, rfl, fun f last => by
    have kept : (f.reg / 0x1000000 != 0x70 + l) = true := by
      have := last.1
      rw [bne_iff_ne]; omega
    exact congrArg (getBits · f.lo f.w) (tabGet_filter_in regReset s.regs (fun a => a / 0x1000000 != 0x70 + l) kept)⟩

theorem State.wipeLane_lasts (s : State) (l : Nat) (b : Bool) : Lasts s (s.wipeLane l b) :=
  ((((s.laneRegsGone_lasts l).trans (State.setLane_lasts _ l _)).p _ _ (not_lastPage_lane l 0x60000 0)).p _ _ (not_lastPage_lane l 0x60000 0)).p _ _
    (not_lastPage_lane l 0x60000 0)

/-! ### Answers (R443, R445) -/

theorem SameBut.respondOn {s t : State} (h : SameBut s t) {c : Nat} (low : c ≤ 6) (hdr : List Byte) (status : Nat) (payload : List Byte) :
    SameBut s (t.respondOn c hdr status payload) := by
  unfold State.respondOn
  refine SameBut.ite (SameBut.ite (State.postTo_same ?sent c low _) ?sent) h
  refine SameBut.ite (State.sendRecord_same ?rung _ _) ?rung
  refine SameBut.ite (SameBut.emit ?counted _) ?counted
  refine SameBut.ite (SameBut.inc ?shown _ (recPage_of c low 0xC24)) ?shown
  refine (((SameBut.ite (SameBut.p ?placed _ _ (recPage_of c low 0xC04)) ?placed).p _ _ (recPage_of c low 0xC2C)).p _ _ (recPage_of c low 0xC2C)).p _ _
    (recPage_of c low 0xC2C)
  exact h.upd _ _ _ _

theorem State.imageResponse_lasts (s : State) (hdr : List Byte) (status : Nat) (payload : List Byte) : Lasts s (s.imageResponse hdr status payload) :=
  (Lasts.refl s).upd rfl rfl rfl rfl rfl rfl rfl

theorem State.answers_lasts (s : State) {chans : List Nat} (low : ∀ c ∈ chans, c < 7) (hdr : List Byte) (status : Nat) (out : List Byte) :
    Lasts s (chans.foldl (fun (t : State) c => t.respondOn c hdr status out) s) :=
  Lasts.of_same (SameBut.foldl _ (fun _ c k mem => k.respondOn (Nat.le_of_lt_succ (low c mem)) _ _ _) (SameBut.refl s))

theorem Lasts.respond {s t : State} (h : Lasts s t) {chans : List Nat} (low : ∀ c ∈ chans, c < 7) (hdr cmd : List Byte) (status : Nat) (payload : List Byte) :
    Lasts s (t.respond chans hdr cmd status payload) := by
  refine h.trans ?_
  unfold State.respond
  refine Lasts.ite (Lasts.refl t) ?_
  refine Lasts.ite (Lasts.trans ?recorded (Lasts.of_same (State.notice_same _ _ _ _ _ (by decide)))) ?recorded
  refine Lasts.ite (Lasts.trans ?placed (Lasts.of_same (State.recordEv_same (SameBut.refl _) _))) ?placed
  refine Lasts.ite (Lasts.trans ?answered (State.imageResponse_lasts _ _ _ _)) ?answered
  exact t.answers_lasts low _ _ _

/-- The channels of a command are the module's seven. -/
theorem chans_lt (cs : List Chan) : ∀ c ∈ cs.map (·.val), c < 7 := by
  intro c mem
  obtain ⟨x, -, rfl⟩ := List.mem_map.1 mem
  exact x.isLt

/-! ### Channels and commands under way (R438, R450, R459, R529) -/

theorem State.giveUp_lasts (s : State) (w : Waiting) : Lasts s (s.giveUp w) := by
  have bare : Lasts s { s with waiting := none } := (Lasts.refl s).upd rfl rfl rfl rfl rfl rfl rfl
  have freed := bare.trans (Lasts.of_lanePage (State.uninhibit_only _))
  exact Lasts.ite (freed.upd rfl rfl rfl rfl rfl rfl rfl) freed

theorem State.waitDropped_lasts (s : State) (c : Nat) : Lasts s (s.waitDropped c) := by
  unfold State.waitDropped
  split
  · exact Lasts.ite (Lasts.refl s) (Lasts.ite ((Lasts.refl s).upd rfl rfl rfl rfl rfl rfl rfl) (s.giveUp_lasts _))
  · exact Lasts.refl s

theorem State.dropChan_lasts (s : State) (c : Nat) : Lasts s (s.dropChan c) := by
  unfold State.dropChan
  exact Lasts.ite (Lasts.refl s) ((s.waitDropped_lasts c).upd rfl rfl rfl rfl rfl rfl rfl)

/-- The registers of a channel of the module are the mailbox's. -/
theorem not_lastPage_mb {c : Nat} (low : c < 7) (k : Nat) (small : k < 0x1000) : ¬ lastPage (0x40080000 + 0x1000 * c + k) := by unfold lastPage; omega

theorem State.zeroChan_lasts (s : State) {c : Nat} (low : c < 7) : Lasts s (s.zeroChan c) := by
  have page := fun k small => not_lastPage_mb low k small
  have wiped : Lasts s { s.dropChan c with mb := (s.dropChan c).mb.wipe (0x1000 * c) (0x1000 * c + 0x1000) } :=
    (s.dropChan_lasts c).upd rfl rfl rfl rfl rfl rfl rfl
  unfold State.zeroChan
  exact ((((((wiped.p _ 0 (page 0xC10 (by decide))).p _ 0 (page 0xC14 (by decide))).p _ 0 (page 0xC18 (by decide))).p _ 0 (page 0xC04 (by decide))).p _ 0
    (page 0xC04 (by decide))).p _ 0 (page 0xC18 (by decide))).p _ 0 (page 0xC04 (by decide))

theorem State.closeChan_lasts (s : State) {c : Nat} (low : c < 7) : Lasts s (s.closeChan c) :=
  ((s.zeroChan_lasts low).p _ 0 (not_lastPage_mb low 0xC04 (by decide))).p _ 0 (not_lastPage_mb low 0xC04 (by decide))

theorem State.openChan_lasts (s : State) {c : Nat} (low : c < 7) (voted : Bool) : Lasts s (s.openChan c voted) :=
  ((Lasts.refl s).p _ 1 (not_lastPage_mb low 0xC04 (by decide))).p _ _ (not_lastPage_mb low 0xC04 (by decide))

theorem State.chanGates_lasts (s : State) : Lasts s s.chanGates := by
  refine Lasts.foldl _ (fun t c mem h => ?_) (Lasts.refl s)
  have low : c < 7 := by simp only [List.mem_cons, List.not_mem_nil, or_false] at mem; omega
  exact Lasts.ite h (Lasts.ite (h.trans (t.openChan_lasts low false)) (h.trans (t.closeChan_lasts low)))

theorem State.abortWaiting_lasts (s : State) : Lasts s s.abortWaiting := by
  unfold State.abortWaiting
  split
  · exact Lasts.refl s
  · exact Lasts.ite (Lasts.refl s) ((s.giveUp_lasts _).respond (chans_lt _) _ _ _ _)

theorem State.redrive_lasts (s : State) (port : Nat) : Lasts s (s.redrive port) := Lasts.ite (Lasts.of_fieldPage s.driveOutputs_only) (Lasts.refl s)

/-- A commanded test gone (R529). -/
def State.loopEnded (s : State) : State := { s with free := s.free + 1, dbg := { s.dbg with loop := none } }

theorem State.loopEnded_lasts (s : State) : Lasts s s.loopEnded := (Lasts.refl s).upd rfl rfl rfl rfl rfl rfl rfl

theorem State.endLoop_lasts (s : State) : Lasts s s.endLoop := by
  unfold State.endLoop
  split
  · exact Lasts.refl s
  · exact Lasts.respond (s.loopEnded_lasts.trans (State.redrive_lasts _ _)) (chans_lt _) _ _ _ _

/-! ### Forces (R121) -/

theorem State.markForce_lasts (s : State) (id : Nat) : Lasts s (s.markForce id) :=
  Lasts.foldl _ (fun _ _ _ h => h.upd rfl rfl rfl rfl rfl rfl rfl) (Lasts.refl s)

theorem State.unforce_lasts (s : State) (f : Force) : Lasts s (s.unforce f) := by
  unfold State.unforce
  split
  · exact (Lasts.refl s).upd rfl rfl rfl rfl rfl rfl rfl
  · exact Lasts.refl s

theorem ptab_lanePage (l e : Nat) : lanePage (RA_PTAB_VALID l e).reg := by
  show 0x70000000 ≤ 0x70000000 + l * 0x1000000 + 0x10000 + 0x800 + 8 * e
  omega

theorem State.predValid_only (s : State) : OnlyRegs s s.predValid lanePage :=
  OnlyRegs.foldl (fun _ _ h => OnlyRegs.foldl (fun _ _ k => k.pb _ _ (ptab_lanePage _ _)) h) (OnlyRegs.refl s _)

/-- Forces that end, marked and recorded (R120, R121). -/
def State.forcesMarked (s : State) (fs : List Force) (cause : Nat) : State :=
  fs.foldl (fun (t : State) f => t.recordEv { source := 0x0203, code := 3, cls := 0xFF, data := leBytes 4 f.id ++ leBytes 1 cause })
    (fs.foldl (fun (t : State) f => (t.markForce f.id).unforce f) s)

/-- Forces taken from the list. -/
def State.forcesDropped (s : State) (fs : List Force) : State :=
  { s with app := { s.app with forces := s.app.forces.filter (fun f => !(fs.contains f)) } }

theorem State.removeForces_eq (s : State) (fs : List Force) (cause : Nat) :
    s.removeForces fs cause = ((s.forcesMarked fs cause).forcesDropped fs).predValid := rfl

theorem State.forcesMarked_lasts (s : State) (fs : List Force) (cause : Nat) : Lasts s (s.forcesMarked fs cause) :=
  Lasts.foldl fs (fun t _ _ h => h.trans (Lasts.of_same (State.recordEv_same (SameBut.refl t) _)))
    (Lasts.foldl fs (fun t f _ h => h.trans ((t.markForce_lasts f.id).trans (State.unforce_lasts _ f))) (Lasts.refl s))

theorem State.removeForces_lasts (s : State) (fs : List Force) (cause : Nat) : Lasts s (s.removeForces fs cause) := by
  rw [s.removeForces_eq fs cause]
  have dropped (t : State) : Lasts t (t.forcesDropped fs) := (Lasts.refl t).upd rfl rfl rfl rfl rfl rfl rfl
  exact (s.forcesMarked_lasts fs cause).trans ((dropped _).trans (Lasts.of_lanePage (State.predValid_only _)))

/-! ### Modes (R420) -/

/-- The registers of a mode just taken, with the row that led to it. -/
def State.modeShown (s : State) (m old row : Nat) : State := ((s.p LC_MODE_MODE m).p LC_MODE_PREV old).p LC_MODE_ROW row

/-- The state in which a mode is left: without forces where it is Maintenance (R121). -/
def State.modeLeft (s : State) : State := if s.mode == mMaintenance then s.removeForces s.app.forces 1 else s

theorem State.setMode_eq (s : State) (m row : Nat) :
    let t := (s.modeLeft.modeShown m s.mode row).levels.chanGates.abortWaiting.endLoop
    s.setMode m row = t.event 1
      { source := 0x0201, code := m * 256 + s.mode, cls := 0xFF, data := leBytes 1 row ++ leBytes 1 (t.g LC_MODE_LEVEL) } := rfl

theorem State.setMode_lasts (s : State) (m row : Nat) : Lasts (s.modeLeft.modeShown m s.mode row) (s.setMode m row) := by
  rw [s.setMode_eq m row]
  exact (((State.levels_lasts _).trans ((State.chanGates_lasts _).trans ((State.abortWaiting_lasts _).trans (State.endLoop_lasts _))))).trans
    (Lasts.of_same (State.event_same (SameBut.refl _) 1 _))

/-- A mode change shows the mode, the one before it and the row (R419, R420). -/
theorem State.setMode_shows (s : State) {m : Nat} (row : Nat) (code : m < 16) :
    (s.setMode m row).mode = m ∧ (s.setMode m row).g LC_MODE_PREV = s.mode ∧ (s.setMode m row).g LC_MODE_ROW = row % 32 := by
  have last := s.setMode_lasts m row
  have old : s.mode < 2 ^ 4 := s.g_lt _
  refine ⟨last.mode.trans ?_, (last.fld LC_MODE_PREV (by unfold Lasting; decide)).trans ?_, (last.fld LC_MODE_ROW (by unfold Lasting; decide)).trans ?_⟩
  · rw [State.modeShown, State.mode, State.g_p_off _ _ (by decide), State.g_p_off _ _ (by decide)]
    exact State.g_p_fits _ ⟨by decide, code⟩
  · rw [State.modeShown, State.g_p_off _ _ (by decide)]
    exact State.g_p_fits _ ⟨by decide, old⟩
  · exact State.g_p_same _ _ _ (by decide)

end Sys2Proof.Machine

/-! SUPPORT. Resets (R424): the registers that recording leaves alone, what a reset keeps of the registers and of the state. -/

namespace Sys2Proof.Machine
open Sys2Proof.Safety

/-! ### The registers of a record and of an event (R499, R452) -/

/-- The recorder's block. -/
def evPage (a : Nat) : Prop := a / 0x10000 = 0x4006

/-- The recorder's and the mailbox's blocks. -/
def eventPage (a : Nat) : Prop := a / 0x10000 = 0x4006 ∨ a / 0x10000 = 0x4008

theorem State.stageRec_regs (s : State) (e : EvIn) : RegsKeep s (s.stageRec e) evPage :=
  (RegsKeep.of_regs (RegsKeep.refl s _) rfl).trans (State.evRegs_regs _)

theorem State.suppress_regs (s : State) : RegsKeep s s.suppress evPage := (RegsKeep.refl s _).p _ _ rfl

theorem RegsKeep.ite {s a b : State} {as : Nat → Prop} {p : Prop} [Decidable p] (ha : RegsKeep s a as) (hb : RegsKeep s b as) :
    RegsKeep s (if p then a else b) as := by
  split <;> assumption

theorem RegsKeep.foldl {α : Type} {s t : State} {as : Nat → Prop} {f : State → α → State} (l : List α)
    (hf : ∀ t x, x ∈ l → RegsKeep s t as → RegsKeep s (f t x) as) (h : RegsKeep s t as) : RegsKeep s (l.foldl f t) as := by
  induction l generalizing t with
  | nil => exact h
  | cons x l ih => exact ih (fun t y mem => hf t y (List.mem_cons_of_mem _ mem)) (hf t x List.mem_cons_self h)

/-- An event that finds staging full is lost and flagged (R499). -/
theorem State.overflow_regs {s t : State} (h : RegsKeep s t evPage) : RegsKeep s (t.suppress.p EV_STAT_QOVF 1) evPage :=
  (h.trans t.suppress_regs).p _ _ rfl

theorem State.recordGo_regs (s : State) (e : EvIn) : RegsKeep s (State.recordEv.go e s) evPage := by
  unfold State.recordEv.go
  refine RegsKeep.ite ((State.overflow_regs (RegsKeep.refl s _)).of_regs rfl) ?_
  split
  · exact s.stageRec_regs e
  · have noted {t : State} (n : Nat) (h : RegsKeep s t evPage) :
        RegsKeep s (t.stageRec { source := 0x0207, code := 2, cls := 0xFF, data := leBytes 4 n }) evPage := h.trans (t.stageRec_regs _)
    have bare : RegsKeep s { s with ev := { s.ev with ovf := none } } evPage := RegsKeep.of_regs (RegsKeep.refl s _) rfl
    exact RegsKeep.ite ((noted _ bare).trans (State.suppress_regs _))
      (RegsKeep.ite ((State.overflow_regs (noted _ bare)).of_regs rfl) ((noted _ bare).trans (State.stageRec_regs _ e)))

theorem State.recordEv_regs (s : State) (e : EvIn) : RegsKeep s (s.recordEv e) evPage := by
  unfold State.recordEv
  refine RegsKeep.ite (RegsKeep.refl s _) (RegsKeep.ite s.suppress_regs ?_)
  split
  · exact RegsKeep.ite (RegsKeep.of_regs (RegsKeep.refl s _) rfl) (s.recordGo_regs e)
  · exact s.recordGo_regs e

theorem queueRegs_eventPage {c a : Nat} (low : c ≤ 6) (mem : queueRegs c a) : eventPage a := by
  simp only [queueRegs, regIn_cons, not_regIn_nil, or_false, MB_EVHEAD_HEAD, MB_EVTAIL_TAIL, MB_EVSTAT_COUNT, MB_EVLOST_COUNT] at mem
  unfold eventPage
  omega

theorem State.post_regs (s : State) (e : QEnt) : RegsKeep s (s.post e) eventPage := by
  refine RegsKeep.foldl _ (fun t c mem h => RegsKeep.ite (h.trans ((t.postTo_keep c e).mono fun a => queueRegs_eventPage ?_)) h) (RegsKeep.refl s _)
  simp only [List.mem_cons, List.not_mem_nil, or_false] at mem
  omega

theorem State.event_regs (s : State) (cat : Nat) (e : EvIn) : RegsKeep s (s.event cat e) eventPage :=
  ((s.recordEv_regs e).mono fun _ => .inl).trans (State.post_regs _ _)

/-! ### Forces removed (R120, R121) -/

/-- The task states and the forces aside, the application is the same. -/
def AppSt.sameBase (a b : AppSt) : Prop := b = { a with tasks := b.tasks, forces := b.forces }

theorem AppSt.sameBase.trans {a b c : AppSt} (h : a.sameBase b) (k : b.sameBase c) : a.sameBase c := by
  unfold AppSt.sameBase at *
  rw [k, h]

theorem AppSt.sameBase.refl (a : AppSt) : a.sameBase a := rfl

theorem AppSt.sameBase.foldl {α : Type} {a : AppSt} {s : State} {f : State → α → State} (l : List α)
    (step : ∀ (t : State) x, t.app.sameBase (f t x).app) (h : a.sameBase s.app) : a.sameBase (l.foldl f s).app := by
  induction l generalizing s with
  | nil => exact h
  | cons x l ih => exact ih (h.trans (step s x))

theorem State.markForce_app (s : State) (id : Nat) : s.app.sameBase (s.markForce id).app :=
  AppSt.sameBase.foldl _ (fun _ _ => rfl) (AppSt.sameBase.refl _)

theorem State.unforce_app (s : State) (f : Force) : s.app.sameBase (s.unforce f).app := by
  unfold State.unforce
  split <;> exact rfl

theorem State.forcesMarked_app (s : State) (fs : List Force) (cause : Nat) : s.app.sameBase (s.forcesMarked fs cause).app :=
  AppSt.sameBase.foldl fs (fun t _ => (t.recordEv_app _).symm ▸ AppSt.sameBase.refl t.app)
    (AppSt.sameBase.foldl fs (fun t f => (t.markForce_app f.id).trans (State.unforce_app _ f)) (AppSt.sameBase.refl _))

theorem State.removeForces_app (s : State) (fs : List Force) (cause : Nat) : s.app.sameBase (s.removeForces fs cause).app := by
  have valid : (s.removeForces fs cause).app = ((s.forcesMarked fs cause).forcesDropped fs).app := by
    rw [s.removeForces_eq fs cause, (State.predValid_only _).1]
  rw [valid]
  exact (s.forcesMarked_app fs cause).trans rfl

/-- The recorder's block and the lanes'. -/
def forcePage (a : Nat) : Prop := evPage a ∨ lanePage a

theorem State.forcesMarked_regs (s : State) (fs : List Force) (cause : Nat) : RegsKeep s (s.forcesMarked fs cause) forcePage := by
  have marked (t : State) (id : Nat) : RegsKeep t (t.markForce id) forcePage :=
    RegsKeep.foldl _ (fun _ _ _ h => h.of_regs rfl) (RegsKeep.refl t _)
  have unforced (t : State) (f : Force) : RegsKeep t (t.unforce f) forcePage := by
    unfold State.unforce
    split <;> exact RegsKeep.of_regs (RegsKeep.refl t _) rfl
  exact RegsKeep.foldl fs (fun t _ _ h => h.trans ((t.recordEv_regs _).mono fun _ => .inl))
    (RegsKeep.foldl fs (fun t f _ h => (h.trans (marked t f.id)).trans (unforced _ f)) (RegsKeep.refl s _))

theorem State.removeForces_regs (s : State) (fs : List Force) (cause : Nat) : RegsKeep s (s.removeForces fs cause) forcePage := by
  rw [s.removeForces_eq fs cause]
  have dropped (t : State) : RegsKeep t (t.forcesDropped fs) forcePage := RegsKeep.of_regs (RegsKeep.refl t _) rfl
  exact ((s.forcesMarked_regs fs cause).trans (dropped _)).trans ((State.predValid_only _).2.mono fun _ => .inr)

/-! ### What a reset keeps (R424) -/

/-- Two fields that share no bit. -/
def Fld.apart (f g : Fld) : Prop := f.reg ≠ g.reg ∨ g.lo + g.w ≤ 32 ∧ (g.lo + g.w ≤ f.lo ∨ f.lo + f.w ≤ g.lo)

theorem Regs.g_p_apart_of (r : Regs) {f g : Fld} (v : Nat) (h : f.apart g) : (r.p g v).g f = r.g f :=
  h.elim (Regs.g_p_reg r v) fun ⟨fits, apart⟩ => Regs.g_p_apart r v fits apart

/-- Fields written one by one, each with its own value: each field shows its value. -/
theorem Regs.g_foldl_p (v : Fld → Nat) (fs : List Fld) (r : Regs) {f : Fld} (mem : f ∈ fs ∨ r.g f = v f) (fits : f.lo + f.w ≤ 32 ∧ v f < 2 ^ f.w)
    (others : ∀ g ∈ fs, g = f ∨ f.apart g) : (fs.foldl (fun (r : Regs) g => r.p g (v g)) r).g f = v f := by
  induction fs generalizing r with
  | nil => exact mem.elim (by simp) id
  | cons g fs ih =>
    refine ih _ ?_ fun x later => others x (List.mem_cons_of_mem _ later)
    rcases others g List.mem_cons_self with rfl | apart
    · exact .inr ((Regs.g_p_same r g (v g) fits.1).trans (Nat.mod_eq_of_lt fits.2))
    · rcases mem with mem | shown
      · rcases List.mem_cons.1 mem with rfl | later
        · exact .inr ((Regs.g_p_same r f (v f) fits.1).trans (Nat.mod_eq_of_lt fits.2))
        · exact .inl later
      · exact .inr ((Regs.g_p_apart_of r _ apart).trans shown)

theorem hwLoad_g (v : Variant) (r : Regs) {f : Fld} (apart : ∀ g ∈ hwFlds, f.apart g) : (hwLoad v r).g f = r.g f := by
  have step (r : Regs) (g : Fld) (x : Nat) (mem : g ∈ hwFlds) : (r.p g x).g f = r.g f := Regs.g_p_apart_of r x (apart g mem)
  unfold hwLoad
  simp only [List.foldl_cons, List.foldl_nil]
  iterate 14 refine (step _ _ _ (by simp [hwFlds])).trans ?_
  rfl

/-- A single field that a reset keeps (R424). -/
theorem resetRegs_g (v : Variant) (r : Regs) {f : Fld} (kept : f ∈ keepFlds) (fits : f.lo + f.w ≤ 32) (others : ∀ g ∈ keepFlds, g = f ∨ f.apart g)
    (hw : ∀ g ∈ hwFlds, f.apart g) : (resetRegs v r).g f = r.g f := by
  unfold resetRegs
  rw [hwLoad_g _ _ hw]
  exact Regs.g_foldl_p r.g keepFlds _ (.inl kept) ⟨fits, getBits_lt _ _ _⟩ others

/-- A field of a register that a reset writes in no place of its own. -/
theorem State.resetDies_g (s : State) (cause chan : Nat) {f : Fld} (off : ∀ g ∈ [UP_STAT_PHASE, LC_RSTCAUSE_CAUSE, SF_SEAL_STATE], f.reg ≠ g.reg) :
    (s.resetDies cause chan).g f = (resetRegs s.variant s.regs).g f := by
  rw [State.g, Regs.g, Regs.g, s.resetDies_rd cause chan off]

/-- The fields of the Halt latch, the frozen history, the life-cycle state and a wipe under way outlive a reset (R424). -/
theorem State.resetDies_latched (s : State) (cause chan : Nat) :
    (s.resetDies cause chan).g FC_STAT_HALT = s.g FC_STAT_HALT ∧ (s.resetDies cause chan).g FC_STAT_FROZEN = s.g FC_STAT_FROZEN ∧
    (s.resetDies cause chan).g LC_STATE_LCS = s.g LC_STATE_LCS ∧ (s.resetDies cause chan).g LC_STATE_WIPEPEND = s.g LC_STATE_WIPEPEND := by
  refine ⟨?_, ?_, ?_, ?_⟩
  all_goals
    rw [s.resetDies_g cause chan (by decide)]
    exact resetRegs_g _ _ (by decide) (by decide) (by unfold Fld.apart; decide +kernel) (by unfold Fld.apart; decide +kernel)

/-- A register that a reset keeps whole (R424). -/
theorem State.resetDies_whole (s : State) (cause chan : Nat) {f : Fld} (kept : keepAddr f.reg = true)
    (off : ∀ g ∈ [UP_STAT_PHASE, LC_RSTCAUSE_CAUSE, SF_SEAL_STATE] ++ (keepFlds ++ hwFlds), f.reg ≠ g.reg) :
    (s.resetDies cause chan).g f = s.g f := by
  rw [s.resetDies_g cause chan (fun g mem => off g (List.mem_append_left _ mem)), State.g, Regs.g, Regs.g,
    resetRegs_keep _ _ kept (fun g mem => off g (List.mem_append_right _ mem))]

theorem State.resetDies_opms (s : State) (cause chan : Nat) : (s.resetDies cause chan).opms = s.opms := by
  rw [State.opms, State.opms, s.resetDies_whole cause chan (by decide) (by decide), s.resetDies_whole cause chan (by decide) (by decide)]

theorem State.resetDies_gated (s : State) (cause chan : Nat) : (s.resetDies cause chan).gated = true := by
  have hold : (s.resetDies cause chan).g UN_STAT_HOLD = 0 := by
    rw [s.resetDies_g cause chan (by decide), Regs.g, resetRegs_rd _ _ (by decide) (by decide)]
    decide
  rw [State.gated, State.on, hold]; rfl

theorem State.resetDies_mode (s : State) (cause chan : Nat) : (s.resetDies cause chan).mode = mBoot := by
  rw [State.mode, s.resetDies_g cause chan (by decide), Regs.g, resetRegs_rd _ _ (by decide) (by decide)]
  decide

/-- The standby domain and what else a reset leaves of the state. -/
theorem State.resetDies_kept (s : State) (cause chan : Nat) : (s.resetDies cause chan).app.retCrc = s.app.retCrc ∧
    (s.resetDies cause chan).sb = { s.sb with provisional := if s.sb.rtcWritten then some s.sb.rtc else none
                                              rtcAt := if cause == 0 then none else s.sb.rtcAt } ∧
    (s.resetDies cause chan).sf.tamper = s.sf.tamper ∧ (s.resetDies cause chan).pending = s.pending ∧ (s.resetDies cause chan).variant = s.variant := by
  unfold State.resetDies State.sealAtReset
  dsimp only
  generalize reset : s.clearDies cause = t
  split <;> subst reset <;> exact ⟨rfl, rfl, rfl, rfl, rfl⟩

/-- A module about to be reset: its forces are gone and the change is recorded (R121, R424). -/
def State.resetNoted (s : State) (row : Nat) : State :=
  (s.removeForces s.app.forces 3).event 1
    { source := 0x0201, code := mBoot * 256 + (s.removeForces s.app.forces 3).mode, cls := 0xFF, data := leBytes 1 row }

theorem State.moduleReset_eq (s : State) (cause chan row : Nat) : s.moduleReset cause chan row =
    ((s.resetNoted row).resetDies cause chan).recordEv { source := 0x0205, code := 2, cls := 0xFF, data := leBytes 1 cause } := rfl

theorem State.resetNoted_lasts (s : State) (row : Nat) : Lasts s (s.resetNoted row) :=
  (s.removeForces_lasts _ 3).trans (Lasts.of_same (State.event_same (SameBut.refl _) 1 _))

theorem State.resetNoted_app (s : State) (row : Nat) : s.app.sameBase (s.resetNoted row).app :=
  (State.event_app _ _ _).symm ▸ s.removeForces_app _ 3

theorem State.resetNoted_faults (s : State) (row : Nat) {f : Fld} (page : f.reg / 0x10000 = 0x4005) : (s.resetNoted row).g f = s.g f :=
  ((State.event_regs _ _ _).g (by unfold eventPage; omega)).trans
    ((s.removeForces_regs _ 3).g (by unfold forcePage evPage lanePage; omega))

theorem State.recordEv_faults (s : State) (e : EvIn) {f : Fld} (page : f.reg / 0x10000 = 0x4005) : (s.recordEv e).g f = s.g f :=
  (s.recordEv_regs e).g (by unfold evPage; omega)

/-- What a module reset keeps in the registers (R424, R433). -/
theorem State.moduleReset_latched (s : State) (cause chan row : Nat) :
    (s.moduleReset cause chan row).g LC_STATE_LCS = s.g LC_STATE_LCS ∧ (s.moduleReset cause chan row).g LC_STATE_WIPEPEND = s.g LC_STATE_WIPEPEND ∧
    (s.moduleReset cause chan row).opms = s.opms ∧ (s.moduleReset cause chan row).on FC_STAT_HALT = s.on FC_STAT_HALT ∧
    (s.moduleReset cause chan row).on FC_STAT_FROZEN = s.on FC_STAT_FROZEN ∧ (s.moduleReset cause chan row).gated = true := by
  have noted := s.resetNoted_lasts row
  obtain ⟨halt, frozen, lcs, wipe⟩ := (s.resetNoted row).resetDies_latched cause chan
  have shown {f : Fld} (page : ¬ recPage f.reg) : (s.moduleReset cause chan row).g f = ((s.resetNoted row).resetDies cause chan).g f :=
    State.recordEv_g _ _ f page
  have faults {f : Fld} (page : f.reg / 0x10000 = 0x4005) : (s.moduleReset cause chan row).g f = ((s.resetNoted row).resetDies cause chan).g f :=
    State.recordEv_faults _ _ page
  have last {f : Fld} (lasts : Lasting f) : (s.resetNoted row).g f = s.g f := noted.fld f lasts
  refine ⟨?_, ?_, ?_, ?_, ?_, ?_⟩
  · rw [shown (by unfold recPage; decide), lcs, last (by unfold Lasting; decide)]
  · rw [shown (by unfold recPage; decide), wipe, last (by unfold Lasting; decide)]
  · have time : ((s.resetNoted row).resetDies cause chan).opms = s.opms := by
      rw [State.resetDies_opms, State.opms, last (by unfold Lasting; decide), last (by unfold Lasting; decide), State.opms]
    rw [← time, State.opms, shown (by unfold recPage; decide), shown (by unfold recPage; decide), State.opms]
  · rw [State.on, faults (by decide), halt, s.resetNoted_faults row (by decide), State.on]
  · rw [State.on, faults (by decide), frozen, s.resetNoted_faults row (by decide), State.on]
  · rw [State.gated, State.on, shown (by unfold recPage; decide)]
    exact State.resetDies_gated _ cause chan

/-- What a module reset leaves of the state (R424). -/
theorem State.moduleReset_leaves (s : State) (cause chan row : Nat) :
    let t := s.moduleReset cause chan row
    t.app.stored = s.app.stored ∧ t.app.retMem = s.app.retMem ∧ t.app.retCrc = s.app.retCrc ∧
    t.sb = { s.sb with provisional := if s.sb.rtcWritten then some s.sb.rtc else none, rtcAt := if cause == 0 then none else s.sb.rtcAt } ∧
    t.app.state = .notLoaded ∧ t.app.forces = [] ∧ t.cfg = s.cfg ∧ t.keys = s.keys ∧ t.waiting = none ∧
    t.laneA = resetLaneSt ∧ t.laneB = resetLaneSt ∧ t.laneC = resetLaneSt ∧ t.laneD = resetLaneSt ∧ t.parts = [] := by
  have noted := s.resetNoted_lasts row
  have app := s.resetNoted_app row
  obtain ⟨mb, queued, waiting, state, forces, parts, a, b, c, d, cfg, keys, ev, stored, mem⟩ := (s.resetNoted row).resetDies_rest cause chan
  obtain ⟨crc, sb, tamper, pending, variant⟩ := (s.resetNoted row).resetDies_kept cause chan
  have base : (s.resetNoted row).app.retMem = s.app.retMem ∧ (s.resetNoted row).app.retCrc = s.app.retCrc := by rw [app]; exact ⟨rfl, rfl⟩
  rw [s.moduleReset_eq cause chan row]
  simp only [State.recordEv_app, State.recordEv_sb, State.recordEv_cfg, State.recordEv_keys, State.recordEv_waiting, State.recordEv_laneA,
    State.recordEv_laneB, State.recordEv_laneC, State.recordEv_laneD, State.recordEv_parts]
  rw [stored, mem, crc, sb, cfg, keys, noted.stored, base.1, base.2, noted.sb, noted.cfg, noted.keys]
  exact ⟨rfl, rfl, rfl, rfl, state, forces, rfl, rfl, waiting, a, b, c, d, parts⟩

/-! ### Gating (R380) -/

theorem State.encRest_lasts (s : State) (n : Nat) : Lasts s (s.encRest n) := by
  rw [s.encRest_eq n]
  exact (Lasts.refl s).upd rfl rfl rfl rfl rfl rfl rfl

theorem State.torqueOff_lasts (s : State) {n : Nat} (drive : n = 1 ∨ n = 2) (cause : Nat) : Lasts s (s.torqueOff n cause) := by
  by_cases off : s.g (SF_DRVSTAT_STATE n) = 0
  · rw [State.torqueOff_off off]; exact Lasts.refl s
  · have lost : Lasts (s.encRest n) ((s.encRest n).torqueLost n cause) := Lasts.of_only (State.torqueLost_only _ _ _) fun a mem => by
      rcases drive with rfl | rfl <;>
        (simp only [torqueFlds, regIn_cons, not_regIn_nil, or_false] at mem; rcases mem with rfl | rfl <;> (unfold lastPage; decide))
    exact ((s.encRest_lasts n).trans lost).trans (Lasts.of_same (State.torqueOff_same off cause))

theorem State.drivesOff_lasts (s : State) (cause : Nat) : Lasts s (s.drivesOff cause) :=
  (s.torqueOff_lasts (.inl rfl) cause).trans (State.torqueOff_lasts _ (.inr rfl) cause)

theorem State.gateFault_lasts (s : State) : Lasts s s.gateFault :=
  (((Lasts.refl s).p UN_STAT_HOLD 0 (by unfold lastPage; decide)).trans (State.drivesOff_lasts _ 6)).trans (Lasts.of_fieldPage (State.driveOutputs_only _))

theorem State.leaveLight_lasts (s : State) : Lasts s s.leaveLight :=
  ((Lasts.refl s).p UN_LEASE_NS 0 (by unfold lastPage; decide)).upd rfl rfl rfl rfl rfl rfl rfl

/-! ### Power (R424, R425, R496) -/

/-- The forces gone and the reset recorded ahead of a power fail's change (R425). -/
def State.failReset (s : State) : State :=
  (s.removeForces s.app.forces 1).recordEv
    { source := 0x0205, code := 3, cls := 0xFF, data := leBytes 1 ((s.removeForces s.app.forces 1).g LC_RSTCAUSE_CAUSE) }

/-- The change to Dormant recorded. -/
def State.failNoted (s : State) : State := s.event 1
  { source := 0x0201, code := mDormant * 256 + s.mode, cls := 0xFF, data := leBytes 1 2 ++ leBytes 1 (s.g LC_MODE_LEVEL) }

/-- The sequence of a power fail up to the reset of the dies (R425). -/
def State.powerFailing (s : State) : State := s.gateFault.leaveLight.failReset.failNoted

theorem exec_powerFailWarning {s : State} (awake : s.mode ≠ mDormant) :
    exec .powerFailWarning s = .next ((s.powerFailing.storeOpTime.resetDies 0 0).p LC_MODE_MODE mDormant) :=
  if_neg (show ¬ (s.mode == mDormant) = true by simp [awake])

theorem State.powerFailing_lasts (s : State) : Lasts s s.powerFailing := by
  have reset (t : State) : Lasts t t.failReset := (t.removeForces_lasts _ 1).trans (Lasts.of_same (State.recordEv_same (SameBut.refl _) _))
  have noted (t : State) : Lasts t t.failNoted := Lasts.of_same (State.event_same (SameBut.refl t) 1 _)
  exact ((s.gateFault_lasts.trans (State.leaveLight_lasts _)).trans (reset _)).trans (noted _)

theorem Lasts.opms {s t : State} (h : Lasts s t) : t.opms = s.opms := by
  rw [State.opms, State.opms, h.fld _ (by unfold Lasting; decide), h.fld _ (by unfold Lasting; decide)]

/-- A power cycle counted outside Blank (R424). -/
def State.cycleCounted (s : State) : State := if s.g LC_STATE_LCS == 0 then s else s.satAdd LC_PWRCYC_COUNT 1

/-- The stored operating time taken into use (R496). -/
def State.timeTaken (s : State) : State := (s.p LC_OPMSLO_MS s.sb.opStored).p LC_OPMSHI_MS (s.sb.opStored / 2 ^ 32)

/-- A module that starts. -/
def State.started (s : State) : State := (s.standbyLoss.resetDies 0 0).cycleCounted.timeTaken

/-- The events of a start (R420, R497). -/
def State.startNoted (s : State) : State :=
  (s.event 1 { source := 0x0201, code := mBoot * 256 + mDormant, cls := 0xFF, data := leBytes 1 3 }).recordEv
    { source := 0x0205, code := 1, cls := 0xFF, data := leBytes 1 0 }

theorem exec_powerOn {s : State} (dormant : s.mode = mDormant) (fitted : s.fitted .pwa = true ∨ s.fitted .pwb = true) :
    exec .powerOn s = .next s.started.startNoted :=
  if_neg (show ¬ (s.mode != mDormant || !(s.fitted .pwa || s.fitted .pwb)) = true by
    rcases fitted with held | held <;> simp [dormant, held])

theorem State.startNoted_same (s : State) : SameBut s s.startNoted := State.recordEv_same (State.event_same (SameBut.refl s) 1 _) _

theorem State.startNoted_faults (s : State) {f : Fld} (page : f.reg / 0x10000 = 0x4005) : s.startNoted.g f = s.g f :=
  (State.recordEv_faults _ _ page).trans ((State.event_regs _ _ _).g (by unfold eventPage; omega))

/-- What the loss of all power has done, where it was lost (R416, R554). -/
def State.standbyGone (s : State) : State :=
  ((({ s with sb := { s.sb with rtc := 0, rtcFrac := 0, rtcAcc := 0, rtcWritten := false, lost := false }
              sf := { s.sf with tamper := true, tamperSec := 0xFFFFFFFF } } : State).p FC_STAT_HALT 0).p SF_SEAL_TAMPER 1).p SF_TAMPERT_SEC 0xFFFFFFFF

theorem State.standbyLoss_eq (s : State) : s.standbyLoss = if s.sb.lost then s.standbyGone else s := rfl

theorem State.standbyLoss_keeps_last (s : State) {f : Fld} (page : lastPage f.reg) : s.standbyLoss.g f = s.g f := by
  have gone : RegsKeep s s.standbyGone (fun a => ¬ lastPage a) := by
    refine (((RegsKeep.of_regs (RegsKeep.refl s _) rfl).p FC_STAT_HALT 0 ?_).p SF_SEAL_TAMPER 1 ?_).p SF_TAMPERT_SEC _ ?_ <;> (unfold lastPage; decide)
  rw [s.standbyLoss_eq]
  split
  · exact gone.g (not_not.2 page)
  · rfl

theorem State.standbyLoss_leaves (s : State) : s.standbyLoss.sb.opStored = s.sb.opStored ∧ s.standbyLoss.app = s.app ∧ s.standbyLoss.sb.lost = false ∧
    (s.sb.lost = true → s.standbyLoss.sf.tamper = true ∧ s.standbyLoss.g FC_STAT_HALT = 0) := by
  rw [s.standbyLoss_eq]
  split
  next lost =>
    refine ⟨rfl, rfl, rfl, fun _ => ⟨rfl, ?_⟩⟩
    unfold State.standbyGone
    simp (disch := decide) only [State.g_p_off, State.g_p_fits]
  next held => exact ⟨rfl, rfl, by simpa using held, fun lost => absurd lost held⟩

theorem State.started_only (s : State) : OnlyRegs (s.standbyLoss.resetDies 0 0) s.started (regIn [LC_PWRCYC_COUNT, LC_OPMSLO_MS, LC_OPMSHI_MS]) := by
  have counted : OnlyRegs (s.standbyLoss.resetDies 0 0) (s.standbyLoss.resetDies 0 0).cycleCounted (regIn [LC_PWRCYC_COUNT, LC_OPMSLO_MS, LC_OPMSHI_MS]) :=
    OnlyRegs.ite (OnlyRegs.refl _ _) (OnlyRegs.of_p _ _ (regIn_head _ rfl))
  exact (counted.p LC_OPMSLO_MS _ ⟨_, by simp, rfl⟩).p LC_OPMSHI_MS _ ⟨_, by simp, rfl⟩

/-- The registers of a module that starts (R424, R496). -/
theorem State.started_shows (s : State) : s.started.mode = mBoot ∧ s.started.g LC_RSTCAUSE_CAUSE = 0 ∧
    s.started.g LC_PWRCYC_COUNT = (if s.g LC_STATE_LCS = 0 then s.g LC_PWRCYC_COUNT else min (s.g LC_PWRCYC_COUNT + 1) (2 ^ 32 - 1)) ∧
    s.started.g LC_OPMSLO_MS = s.sb.opStored % 2 ^ 32 ∧ s.started.g LC_OPMSHI_MS = s.sb.opStored / 2 ^ 32 % 2 ^ 32 ∧ s.started.gated = true := by
  have keep := s.started_only.2
  have reset := s.standbyLoss.resetDies_kept 0 0
  obtain ⟨-, -, lcs, -⟩ := s.standbyLoss.resetDies_latched 0 0
  have cycles : (s.standbyLoss.resetDies 0 0).g LC_PWRCYC_COUNT = s.g LC_PWRCYC_COUNT := by
    rw [State.resetDies_whole _ 0 0 (by decide) (by decide), s.standbyLoss_keeps_last (by unfold lastPage; decide)]
  have op : (s.standbyLoss.resetDies 0 0).cycleCounted.sb.opStored = s.sb.opStored := by
    have same : (s.standbyLoss.resetDies 0 0).cycleCounted.sb = (s.standbyLoss.resetDies 0 0).sb := by unfold State.cycleCounted; split <;> rfl
    rw [same, reset.2.1]
    exact s.standbyLoss_leaves.1
  refine ⟨(keep.g_off (by decide)).trans (State.resetDies_mode _ 0 0), (keep.g_off (by decide)).trans (State.resetDies_cause _ 0 0).1, ?_, ?_, ?_, ?_⟩
  · rw [State.started, State.timeTaken, State.g_p_off _ _ (by decide), State.g_p_off _ _ (by decide), State.cycleCounted, lcs,
      s.standbyLoss_keeps_last (f := LC_STATE_LCS) (by unfold lastPage; decide)]
    split
    next blank => rw [if_pos (by simpa using blank), cycles]
    next other => rw [if_neg (by simpa using other), State.g_satAdd _ _ _ (by decide), cycles]; rfl
  · rw [State.started, State.timeTaken, State.g_p_off _ _ (by decide), State.g_p_same _ _ _ (by decide), op]; rfl
  · rw [State.started, State.timeTaken, State.g_p_same _ _ _ (by decide), op]; rfl
  · rw [State.gated, State.on, keep.g_off (by decide)]
    exact State.resetDies_gated _ 0 0

end Sys2Proof.Machine

namespace Sys2Proof.Proofs
open Sys2Proof.Machine Sys2Proof.Safety

/-- Settles O54. That `RST#` leaves what a reset leaves is log 37, that an unpowered module records and sends nothing log 34, the flags of a supply input
log 35. -/
theorem powerAndResets : Obligations.PowerAndResets := by
  intro s i cause chan row
  refine ⟨fun lowCause lowChan => ?reset, fun awake => ?powered, fun dormant noA noB => ?unfitted, fun dormant fitted => ?powerOn,
    fun dormant => ?unpowered, fun awake => ?fail, fun halted => if_pos (by simp [halted]), fun awake running => if_neg (by simp [awake, running]),
    fun dormant => ?latch, fun awake => if_neg (by simp [awake]), fun unfitted => ⟨if_pos (by simp [unfitted]), if_pos (by simp [unfitted])⟩,
    fun fitted awake => ?below, fun fitted => ?above, fun disc => if_pos disc, fun disc => if_pos disc, fun conn => if_neg (by simp [conn]),
    fun conn => if_neg (by simp [conn]), fun dormant => if_pos (by simp [dormant]), ⟨by simp [State.fitted], by simp [State.fitted]⟩,
    fun awake => if_neg (by simp [awake]), fun dormant => if_pos (by simp [dormant]), fun awake => if_neg (by simp [awake])⟩
  case reset =>
    obtain ⟨mode, causeR, chanR⟩ := s.moduleReset_regs cause chan row
    obtain ⟨lcs, -, opms, halt, frozen, gated⟩ := s.moduleReset_latched cause chan row
    obtain ⟨stored, mem, crc, sb, state, forces, cfg, keys, waiting, a, b, c, d, parts⟩ := s.moduleReset_leaves cause chan row
    have mb : (s.moduleReset cause chan row).mb = [] := by
      rw [s.moduleReset_eq cause chan row, State.recordEv_mb]
      exact ((s.resetNoted row).resetDies_rest cause chan).1
    have rtc : (s.moduleReset cause chan row).sb.rtc = s.sb.rtc := by rw [sb]
    have at_ (other : cause ≠ 0) : (s.moduleReset cause chan row).sb.rtcAt = s.sb.rtcAt := by rw [sb]; exact if_neg (by simpa using other)
    exact ⟨mode, causeR.trans (Nat.mod_eq_of_lt lowCause), chanR.trans (Nat.mod_eq_of_lt lowChan), lcs, opms, stored, mem, crc, rtc, at_, state, forces,
      cfg, keys, halt, frozen, mb, waiting, gated, a, b, c, d, parts, (State.moduleReset_keeps s cause chan row (Keeps.refl s)).1⟩
  case powered => exact if_pos (by simp [awake])
  case unfitted => exact if_pos (by simp [noA, noB])
  case powerOn =>
    obtain ⟨mode, causeR, cycles, low, high, gated⟩ := s.started_shows
    obtain ⟨-, app, kept, lost⟩ := s.standbyLoss_leaves
    obtain ⟨-, sb, tamper, -⟩ := s.standbyLoss.resetDies_kept 0 0
    have noted := s.started.startNoted_same
    have shown {f : Fld} (page : ¬ recPage f.reg) : s.started.startNoted.g f = s.started.g f := noted.g f page
    have only := s.started_only
    have startedSb : s.started.sb = (s.standbyLoss.resetDies 0 0).sb := by rw [only.1]
    have startedSf : s.started.sf = (s.standbyLoss.resetDies 0 0).sf := by rw [only.1]
    refine ⟨_, exec_powerOn dormant fitted, (shown (by unfold recPage; decide)).trans mode, (shown (by unfold recPage; decide)).trans causeR,
      (shown (by unfold recPage; decide)).trans cycles, (shown (by unfold recPage; decide)).trans low, (shown (by unfold recPage; decide)).trans high,
      ?_, ?_, ?_, fun empty => ⟨?_, ?_, ?_⟩⟩
    · obtain ⟨-, -, -, -, -, -, -, -, -, -, -, -, -, stored, -⟩ := s.standbyLoss.resetDies_rest 0 0
      rw [noted.app, only.1]
      exact stored.trans (by rw [app])
    · rw [State.gated, State.on, shown (by unfold recPage; decide)]
      exact gated
    · rw [noted.sb, startedSb, sb]; rfl
    · rw [noted.sf, startedSf, tamper, (lost empty).1]
    · rw [noted.sb, startedSb, sb]; exact kept
    · rw [State.on, State.startNoted_faults _ (by decide), only.2.g_off (by decide), (s.standbyLoss.resetDies_latched 0 0).1, (lost empty).2]; rfl
  case unpowered => exact ⟨if_pos (by simp [dormant]), if_pos (by simp [dormant]), if_pos (by simp [dormant])⟩
  case fail =>
    have failing := s.powerFailing_lasts
    obtain ⟨mb, -, -, state, -, -, -, -, -, -, cfg, keys, -, stored, -⟩ := s.powerFailing.storeOpTime.resetDies_rest 0 0
    obtain ⟨-, sb, -⟩ := s.powerFailing.storeOpTime.resetDies_kept 0 0
    refine ⟨_, exec_powerFailWarning awake, State.g_p_fits _ (by decide), ?_, stored.trans failing.stored, cfg.trans failing.cfg, keys.trans failing.keys,
      state, ?_, mb⟩
    · rw [State.p_sb, sb]; exact failing.opms
    · rw [State.gated, State.on, State.g_p_off _ _ (by decide)]
      exact State.resetDies_gated _ 0 0
  case latch =>
    refine ⟨_, if_pos (by simp [dormant]), ?_, OnlyRegs.of_p s 0 (regIn_head [] rfl)⟩
    rw [State.on, State.g_p_fits _ (by decide)]; rfl
  case below =>
    cases i <;> exact if_neg (by simp [fitted, awake])
  case above =>
    cases i <;> exact if_neg (by simp [fitted])

end Sys2Proof.Proofs

/-! SUPPORT. Safe-Halt (R408, R415) and the choice of the bank that boots (R427, R521). -/

namespace Sys2Proof.Machine
open Sys2Proof.Safety

/-! ### The end of the application (R408, R415) -/

/-- The registers of a lane's block. -/
theorem lane_off (l k k' n : Nat) : ¬ lastPage (laneBase l + k + k' + n) := by unfold laneBase lastPage; omega

theorem State.modLane_lasts (s : State) (l : Nat) (f : LaneSt → LaneSt) : Lasts s (s.modLane l f) := s.setLane_lasts l _

theorem State.closeCtx_lasts (s : State) (l t : Nat) : Lasts s (s.closeCtx l t) := by
  have off := lane_off l 0x10000 0x80 (4 * t)
  exact ((((((((s.modLane_lasts l _).p _ 0 off).p _ 0 off).p _ 0 off).p _ 0 off).p _ 0 off).p _ 0 off).p _ _ (not_lastPage_lane l 0x10000 0x8))

theorem State.discardCtx_lasts (s : State) (l t : Nat) : Lasts s (s.discardCtx l t) :=
  Lasts.ite (Lasts.refl s) (((s.closeCtx_lasts l t).p _ 6 (lane_off l 0x10000 0x80 (4 * t))).p _ _ (lane_off l 0x10000 0x180 (4 * t)))

theorem State.dropContexts_lasts (s : State) : Lasts s s.dropContexts :=
  Lasts.foldl _ (fun t l _ h => h.trans (Lasts.foldl _ (fun u k _ g => g.trans (u.discardCtx_lasts l k)) (Lasts.refl t))) (Lasts.refl s)

theorem State.retPend_lasts (s : State) (l : Nat) : Lasts s (s.retPend l) := (Lasts.refl s).p _ _ (not_lastPage_lane l 0x30000 0xC)

theorem State.retRetire_lasts (s : State) (st : RetStream) (cycle : Nat) : Lasts s (s.retRetire st cycle) :=
  Lasts.foldl _ (fun t l _ h => h.trans ((t.modLane_lasts l _).trans (State.retPend_lasts _ l))) (Lasts.refl s)

theorem State.retWrite_lasts (s : State) (vs : List StreamVote) : Lasts s (s.retWrite vs) := (Lasts.refl s).upd rfl rfl rfl rfl rfl rfl rfl

theorem State.endStream_lasts (s : State) (v : StreamVote) : Lasts s (s.endStream v) := (Lasts.refl s).upd rfl rfl rfl rfl rfl rfl rfl

theorem State.retApply_lasts (s : State) (st : RetStream) : Lasts s (s.retApply st) := by
  unfold State.retApply
  split
  · exact Lasts.refl s
  · exact Lasts.foldl _ (fun t v _ h => h.trans (t.endStream_lasts v)) ((s.retWrite_lasts _).trans (State.retRetire_lasts _ st _))

theorem State.retApplyN_lasts (st : RetStream) (n : Nat) (s : State) : Lasts s (State.retApplyN st n s) := by
  induction n generalizing s with
  | zero => exact Lasts.refl s
  | succ n ih => exact (s.retApply_lasts st).trans (ih _)

theorem State.retFlush_lasts (s : State) : Lasts s s.retFlush :=
  Lasts.foldl _ (fun t st _ h => h.trans (State.retApplyN_lasts st _ t)) (Lasts.refl s)

/-- Votes and streams gone. -/
def State.votesGone (s : State) : State := { s with votes := [], streams := [] }

theorem State.votesGone_lasts (s : State) : Lasts s s.votesGone := (Lasts.refl s).upd rfl rfl rfl rfl rfl rfl rfl

theorem State.clearRun_lasts (s : State) : Lasts s s.clearRun :=
  Lasts.foldl _ (fun t l _ h => h.trans (t.modLane_lasts l _)) (s.retFlush_lasts.trans (State.votesGone_lasts _))

theorem State.scStat_lasts (s : State) : Lasts s s.scStat := (Lasts.refl s).p _ _ (by unfold lastPage; decide)

theorem State.rxState_lasts (s : State) {r : Nat} (low : r < 128) (new seq : Nat) : Lasts s (s.rxState r new seq) := by
  have shown : Lasts s (s.p (SC_RXSTAT_STATE r) new).scStat :=
    ((Lasts.refl s).p _ new (by unfold lastPage SC_RXSTAT_STATE; dsimp only; omega)).trans (State.scStat_lasts _)
  exact Lasts.ite (Lasts.refl s) (shown.trans (Lasts.of_same (State.post_same (SameBut.refl _) _)))

theorem State.scOff_lasts (s : State) : Lasts s s.scOff := by
  refine Lasts.trans (Lasts.foldl _ (fun t r mem h => h.trans (t.rxState_lasts ?_ 0 0)) (Lasts.refl s)) (State.scStat_lasts _)
  exact List.mem_range.1 (List.mem_of_mem_filter mem)

theorem State.ss1End_lasts (s : State) (n cause : Nat) : Lasts s (s.ss1End n cause) :=
  Lasts.of_same (State.noticeD_same (SameBut.refl s) 0x17 _ (by decide) _)

theorem State.driveOff_lasts (s : State) {n : Nat} (drive : n = 1 ∨ n = 2) : Lasts s (s.driveOff n) := by
  have stat : ¬ lastPage (SF_DRVSTAT_STATE n).reg := by rcases drive with rfl | rfl <;> (unfold lastPage; decide)
  have off : Lasts s ((((s.encRest n).p (SF_DRVSTAT_STATE n) 0).p (SF_DRVSTAT_CHA n) 0).p (SF_DRVSTAT_CHB n) 0) :=
    (((s.encRest_lasts n).p (SF_DRVSTAT_STATE n) 0 stat).p (SF_DRVSTAT_CHA n) 0 stat).p (SF_DRVSTAT_CHB n) 0 stat
  unfold State.driveOff
  exact Lasts.ite (off.trans (State.ss1End_lasts _ n 0)) off

theorem State.drivesDisable_lasts (s : State) : Lasts s s.drivesDisable := (s.driveOff_lasts (.inl rfl)).trans (State.driveOff_lasts _ (.inr rfl))

theorem State.endStart_lasts (s : State) : Lasts s s.endStart := by
  unfold State.endStart
  refine Lasts.ite (Lasts.refl s) ?_
  have answered : Lasts s (s.respond (s.app.startChans.map (·.val)) s.app.startHdr [] stStateReject []) := (Lasts.refl s).respond (chans_lt _) _ _ _ _
  exact answered.upd rfl rfl rfl rfl rfl rfl rfl

/-- An application stopped for good. -/
def State.appEnded (s : State) : State := ((s.removeForces s.app.forces 2).endStart).dropContexts.clearRun.scOff.drivesDisable

theorem State.appEnded_lasts (s : State) : Lasts s s.appEnded :=
  (((((s.removeForces_lasts _ 2).trans (State.endStart_lasts _)).trans (State.dropContexts_lasts _)).trans (State.clearRun_lasts _)).trans
    (State.scOff_lasts _)).trans (State.drivesDisable_lasts _)

/-- Nothing left of an application but what flash and MRAM hold. -/
def State.appForgotten (s : State) : State :=
  { s with app := { stored := s.app.stored, changes := s.app.changes, stagedA := s.app.stagedA, stagedLenA := s.app.stagedLenA
                    stagedB := s.app.stagedB, stagedLenB := s.app.stagedLenB, stagedC := s.app.stagedC
                    stagedLenC := s.app.stagedLenC, retMem := s.app.retMem, retSig := s.app.retSig, retCrc := s.app.retCrc } }

theorem State.appForgotten_lasts (s : State) : Lasts s s.appForgotten := (Lasts.refl s).upd rfl rfl rfl rfl rfl rfl rfl

theorem State.appUnload_eq (s : State) : s.appUnload = s.appEnded.appForgotten := rfl

theorem State.appUnload_lasts (s : State) : Lasts s s.appUnload := by
  rw [s.appUnload_eq]
  exact s.appEnded_lasts.trans (State.appForgotten_lasts _)

theorem State.holdLane_lasts (s : State) (l : Nat) : Lasts s (s.holdLane l) :=
  Lasts.ite (Lasts.refl s) (((s.setLaneSt_lasts l laResetting).trans (State.wipeLane_lasts _ l _)).trans (State.modLane_lasts _ l _))

/-- The lanes held and the channels closed by Safe-Halt (R415). -/
theorem State.haltHolds_lasts (s : State) : Lasts s ([0, 1, 2, 3, 5].foldl State.closeChan ([0, 1, 2, 3].foldl State.holdLane s)) := by
  refine Lasts.foldl _ (fun t c mem h => h.trans (t.closeChan_lasts ?_)) (Lasts.foldl _ (fun t l _ h => h.trans (t.holdLane_lasts l)) (Lasts.refl s))
  simp only [List.mem_cons, List.not_mem_nil, or_false] at mem
  omega

/-- The Halt latch set and Active left. -/
def State.haltLatched (s : State) : State := (s.p FC_STAT_HALT 1).leaveLight

theorem State.haltLatched_lasts (s : State) : Lasts s s.haltLatched :=
  ((Lasts.refl s).p FC_STAT_HALT 1 (by unfold lastPage; decide)).trans (State.leaveLight_lasts _)

theorem State.enterSafeHalt_eq (s : State) (row : Nat) : s.enterSafeHalt row =
    [0, 1, 2, 3, 5].foldl State.closeChan ([0, 1, 2, 3].foldl State.holdLane (s.haltLatched.setMode mSafeHalt row).appUnload) := rfl

/-- Safe-Halt is the mode, with the one before it and the row (R415). -/
theorem State.enterSafeHalt_shows (s : State) (row : Nat) : (s.enterSafeHalt row).mode = mSafeHalt ∧ (s.enterSafeHalt row).g LC_MODE_PREV = s.mode := by
  have after := (State.appUnload_lasts (s.haltLatched.setMode mSafeHalt row)).trans (State.haltHolds_lasts _)
  obtain ⟨mode, prev, -⟩ := s.haltLatched.setMode_shows row (m := mSafeHalt) (by decide)
  rw [s.enterSafeHalt_eq row]
  exact ⟨after.mode.trans mode, (after.fld _ (by unfold Lasting; decide)).trans (prev.trans s.haltLatched_lasts.mode)⟩

/-! ### A class 4 report (R408, R409) -/

theorem State.withData_cls (s : State) (p : Rep) : (s.withData p).2.cls = p.cls ∧ (s.withData p).2.forced = p.forced := by
  unfold State.withData
  split <;> exact ⟨rfl, rfl⟩

theorem State.judge_four (s : State) {p : Rep} (four : p.cls = 4) :
    s.judge p = some { p := p, c := 4, esc := false, elem := elemOf p.src p.code p.cls } := if_pos (by omega)

/-- A report of class 4 is booked and ends in Safe-Halt. -/
theorem State.report_four {s : State} (awake : s.mode ≠ mDormant) (src code : Nat) : ∃ b : State, s.report src 4 code = b.gateFault.enterSafeHalt 1 := by
  obtain ⟨cls, forced⟩ := s.withData_cls { cls := 4, src := src, code := code }
  generalize w : s.withData { cls := 4, src := src, code := code } = x at cls forced
  have judged := x.1.judge_four cls
  have taken : s.report src 4 code = State.reportN 8 s { cls := 4, src := src, code := code } := if_neg (by simp [awake])
  refine ⟨x.1.book { p := x.2, c := 4, esc := false, elem := elemOf x.2.src x.2.code x.2.cls }, taken.trans ?_⟩
  rw [State.reportN, w]
  simp only [forced, cls, judged, Bool.false_eq_true, if_false]
  rfl

/-! ### The bank that boots (R427, R521) -/

/-- Does a bank verify? -/
def bankOk (okA okB : Bool) (b : Nat) : Bool := if b = 0 then okA else okB

/-- The bank's image fails: its version is shown and the trial falls back (R521). -/
def State.fellBack (s : State) (why : Nat) : State := (s.p UP_VERSION_VERSION (leAt (s.bank (s.g UP_STAT_ACTBANK)) 16 4)).upFallback why

/-- A try of the bank on trial is counted (R521). -/
def State.tried (s : State) : State := if s.on UP_STAT_TRIAL then s.p UP_STAT_TRIES (s.g UP_STAT_TRIES + 1) else s

/-- The other bank boots outside a trial, which is recorded (R427, R523). -/
def State.otherBoots (s : State) : State :=
  (s.p UP_STAT_ACTBANK (1 - s.g UP_STAT_ACTBANK)).runImage.upEvent 0xD (leBytes 1 (s.g UP_STAT_ACTBANK))

theorem State.g_tried (s : State) {f : Fld} (off : f.reg ≠ UP_STAT_TRIES.reg ∨ f.lo + f.w ≤ UP_STAT_TRIES.lo ∨ UP_STAT_TRIES.lo + UP_STAT_TRIES.w ≤ f.lo) :
    s.tried.g f = s.g f := by
  unfold State.tried
  split
  · exact State.g_p_off _ _ (off.imp_right fun d => ⟨by decide, d.symm⟩)
  · rfl

theorem State.tried_of_settled {s : State} (settled : s.on UP_STAT_TRIAL = false) : s.tried = s := if_neg (by simp [settled])

theorem State.chooseBank_eq (s : State) (okA okB : Bool) :
    let act := s.g UP_STAT_ACTBANK
    s.chooseBank okA okB =
      if s.on UP_STAT_TRIAL = true ∧ s.g UP_STAT_TRIES = 3 then if bankOk okA okB (1 - act) then some (s.fellBack 1).runImage else none
      else if bankOk okA okB act then some s.tried.runImage
      else if s.on UP_STAT_TRIAL then if bankOk okA okB (1 - act) then some (s.tried.fellBack 2).runImage else none
      else if bankOk okA okB (1 - act) then some s.tried.otherBoots else none := by
  intro act
  have trial : s.tried.on UP_STAT_TRIAL = s.on UP_STAT_TRIAL := congrArg (· == 1) (s.g_tried (.inr (by decide)))
  have bank : s.tried.g UP_STAT_ACTBANK = act := s.g_tried (.inr (by decide))
  have ok (b : Nat) : (if b == 0 then okA else okB) = true ↔ bankOk okA okB b = true := by simp [bankOk]
  have fell : s.tried.fellBack 2 = (s.tried.p UP_VERSION_VERSION (leAt (s.tried.bank act) 16 4)).upFallback 2 := by rw [State.fellBack, bank]
  have boots : s.tried.otherBoots = (s.tried.p UP_STAT_ACTBANK (1 - act)).runImage.upEvent 0xD (leBytes 1 act) := by rw [State.otherBoots, bank]
  rw [fell, boots, ← trial]
  refine if_congr (by simp [trial]) (if_congr (ok _) rfl rfl) (if_congr (ok _) rfl (if_congr Iff.rfl (if_congr (ok _) rfl rfl) (if_congr (ok _) rfl rfl)))

theorem State.runImage_keep (s : State) : RegsKeep s s.runImage (regIn [UP_VERSION_VERSION, UP_FLOOR_VERSION, UP_SETVER_SETCUR]) := by
  have v : regIn [UP_VERSION_VERSION, UP_FLOOR_VERSION, UP_SETVER_SETCUR] UP_VERSION_VERSION.reg := ⟨_, by simp, rfl⟩
  have f : regIn [UP_VERSION_VERSION, UP_FLOOR_VERSION, UP_SETVER_SETCUR] UP_FLOOR_VERSION.reg := ⟨_, by simp, rfl⟩
  have c : regIn [UP_VERSION_VERSION, UP_FLOOR_VERSION, UP_SETVER_SETCUR] UP_SETVER_SETCUR.reg := ⟨_, by simp, rfl⟩
  unfold State.runImage
  exact (((((RegsKeep.refl s _).p UP_VERSION_VERSION _ v).p UP_FLOOR_VERSION _ f).p UP_SETVER_SETCUR _ c).p UP_SETVER_SETMIN _ c)

theorem State.g_runImage (s : State) {f : Fld} (off : ∀ x ∈ [UP_VERSION_VERSION, UP_FLOOR_VERSION, UP_SETVER_SETCUR], f.reg ≠ x.reg) :
    s.runImage.g f = s.g f := s.runImage_keep.g_off off

theorem State.upFallback_mode (s : State) (reason : Nat) : (s.upFallback reason).mode = s.mode := by
  have other : (s.otherBank reason).mode = s.mode := by
    simp (disch := decide) only [State.mode, State.otherBank, State.satAdd, State.g_p_off]
  rw [← other, State.mode, State.upFallback, State.upEvent, State.event_g _ _ _ _ (by unfold recPage; decide), s.g_bankBack reason (by decide), State.mode]

/-- A bank that failed on trial: the other is active, the trial is over, its end named (R521, R522). -/
theorem State.fellBack_shows (s : State) {why : Nat} (low : why < 2 ^ UP_FALLBACK_REASON.w) :
    (s.fellBack why).g UP_STAT_ACTBANK = 1 - s.g UP_STAT_ACTBANK ∧ (s.fellBack why).on UP_STAT_TRIAL = false ∧
    (s.fellBack why).g UP_FALLBACK_REASON = why ∧ (s.fellBack why).mode = s.mode := by
  obtain ⟨bank, trial, -, -, reason, -⟩ := State.upFallback_shows (s.p UP_VERSION_VERSION (leAt (s.bank (s.g UP_STAT_ACTBANK)) 16 4)) low
  rw [State.g_p_off _ _ (by decide)] at bank
  exact ⟨bank, trial, reason, (State.upFallback_mode _ _).trans (State.g_p_off _ _ (by decide))⟩

theorem State.tried_mode (s : State) : s.tried.mode = s.mode := s.g_tried (.inl (by decide))

theorem State.tried_bank (s : State) : s.tried.g UP_STAT_ACTBANK = s.g UP_STAT_ACTBANK := s.g_tried (.inr (by decide))

/-- The other bank as it boots after a fallback. -/
theorem State.fellBack_runs (s : State) {why : Nat} (low : why < 2 ^ UP_FALLBACK_REASON.w) :
    (s.fellBack why).runImage.g UP_STAT_ACTBANK = 1 - s.g UP_STAT_ACTBANK ∧ (s.fellBack why).runImage.on UP_STAT_TRIAL = false ∧
    (s.fellBack why).runImage.g UP_FALLBACK_REASON = why ∧ (s.fellBack why).runImage.mode = s.mode := by
  obtain ⟨bank, trial, reason, mode⟩ := s.fellBack_shows low
  exact ⟨(State.g_runImage _ (by decide)).trans bank, (congrArg (· == 1) (State.g_runImage _ (by decide))).trans trial,
    (State.g_runImage _ (by decide)).trans reason, (State.g_runImage _ (by decide)).trans mode⟩

theorem State.otherBoots_shows (s : State) : s.otherBoots.g UP_STAT_ACTBANK = 1 - s.g UP_STAT_ACTBANK ∧ s.otherBoots.mode = s.mode := by
  have low : 1 - s.g UP_STAT_ACTBANK < 2 ^ UP_STAT_ACTBANK.w := (by omega : 1 - s.g UP_STAT_ACTBANK < 2)
  constructor
  · exact (State.g_upEvent _ _ _ (by decide)).trans ((State.g_runImage _ (by decide)).trans (State.g_p_fits _ ⟨by decide, low⟩))
  · exact (State.event_g _ _ _ _ (by unfold recPage; decide)).trans ((State.g_runImage _ (by decide)).trans (State.g_p_off _ _ (by decide)))

section
variable {s : State} {okA okB : Bool}

/-- With the active bank failing and the other good, the other boots (R427). -/
theorem State.chooseBank_other (bad : bankOk okA okB (s.g UP_STAT_ACTBANK) = false) (good : bankOk okA okB (1 - s.g UP_STAT_ACTBANK) = true) :
    ∃ a : State, s.chooseBank okA okB = some a ∧ a.g UP_STAT_ACTBANK = 1 - s.g UP_STAT_ACTBANK ∧ a.mode = s.mode := by
  rw [s.chooseBank_eq okA okB, bad, good]
  simp only [if_true, Bool.false_eq_true, if_false]
  split
  · obtain ⟨bank, -, -, mode⟩ := s.fellBack_runs (why := 1) (by decide)
    exact ⟨_, rfl, bank, mode⟩
  · split
    · obtain ⟨bank, -, -, mode⟩ := s.tried.fellBack_runs (why := 2) (by decide)
      exact ⟨_, rfl, bank.trans (by rw [s.tried_bank]), mode.trans s.tried_mode⟩
    · obtain ⟨bank, mode⟩ := s.tried.otherBoots_shows
      exact ⟨_, rfl, bank.trans (by rw [s.tried_bank]), mode.trans s.tried_mode⟩

theorem bankOk_none (badA : bankOk okA okB 0 = false) (badB : bankOk okA okB 1 = false) (b : Nat) : bankOk okA okB b = false := by
  unfold bankOk at *
  split
  · exact badA
  · exact badB

theorem State.chooseBank_none (badA : bankOk okA okB 0 = false) (badB : bankOk okA okB 1 = false) : s.chooseBank okA okB = none := by
  have bad := bankOk_none badA badB
  rw [s.chooseBank_eq okA okB, bad, bad]
  simp

theorem State.chooseBank_active (settled : s.on UP_STAT_TRIAL = false) (good : bankOk okA okB (s.g UP_STAT_ACTBANK) = true) :
    s.chooseBank okA okB = some s.runImage := by
  rw [s.chooseBank_eq okA okB, good, State.tried_of_settled settled, if_neg (by simp [settled])]
  rfl

theorem State.chooseBank_third (trial : s.on UP_STAT_TRIAL = true) (third : s.g UP_STAT_TRIES = 3)
    (good : bankOk okA okB (1 - s.g UP_STAT_ACTBANK) = true) : s.chooseBank okA okB = some (s.fellBack 1).runImage := by
  rw [s.chooseBank_eq okA okB, if_pos ⟨trial, third⟩, if_pos good]

theorem State.chooseBank_tried (early : s.g UP_STAT_TRIES < 3) (good : bankOk okA okB (s.g UP_STAT_ACTBANK) = true) :
    s.chooseBank okA okB = some s.tried.runImage := by
  rw [s.chooseBank_eq okA okB, if_neg (by omega), if_pos good]

theorem execBootVerified_boots {rtcOk : Bool} {a : State} (boot : s.mode = mBoot) (open_ : s.on FC_STAT_HALT = false)
    (chosen : s.chooseBank okA okB = some a) : exec (.bootVerified okA okB rtcOk) s = .next (a.bootOn rtcOk) := by
  refine (if_neg (by simp [boot])).trans ((if_neg (by simp [open_])).trans ?_)
  rw [chosen]

theorem execBootVerified_fails {rtcOk : Bool} (boot : s.mode = mBoot) (open_ : s.on FC_STAT_HALT = false) (none : s.chooseBank okA okB = none) :
    exec (.bootVerified okA okB rtcOk) s = .next s.noBank := by
  refine (if_neg (by simp [boot])).trans ((if_neg (by simp [open_])).trans ?_)
  rw [none]

end

/-- The bank state with which class 4 is reported (R427, R521). -/
def State.bankLost (s : State) : State := if s.on UP_STAT_TRIAL then s.bankBack (if s.g UP_STAT_TRIES == 3 then 1 else 2) else s

theorem State.bankBack_shows (s : State) {reason : Nat} (low : reason < 2 ^ UP_FALLBACK_REASON.w) :
    (s.bankBack reason).g UP_STAT_ACTBANK = 1 - s.g UP_STAT_ACTBANK ∧ (s.bankBack reason).on UP_STAT_TRIAL = false ∧ (s.bankBack reason).mode = s.mode := by
  obtain ⟨bank, trial, -⟩ := s.otherBank_shows low
  refine ⟨(s.g_bankBack reason (by decide)).trans bank, ?_, (s.g_bankBack reason (by decide)).trans ?_⟩
  · rw [State.on, s.g_bankBack reason (by decide), trial]; rfl
  · simp (disch := decide) only [State.mode, State.otherBank, State.satAdd, State.g_p_off]

theorem State.bankLost_mode (s : State) : s.bankLost.mode = s.mode := by
  unfold State.bankLost
  split
  · exact (s.bankBack_shows (by split <;> decide)).2.2
  · rfl

end Sys2Proof.Machine

namespace Sys2Proof.Proofs
open Sys2Proof.Machine Sys2Proof.Safety

/-- Settles O56: the other bank boots by each row of R521 that leads to it; with none, the report of class 4 ends in Safe-Halt. -/
theorem bootTakesTheOtherBankOrHalts : Obligations.BootTakesTheOtherBankOrHalts := by
  intro s okA okB rtcOk boot latch
  refine ⟨fun bad good => ?_, fun badA badB => ?_⟩
  · obtain ⟨a, chosen, bank, mode⟩ := State.chooseBank_other bad good
    exact ⟨a, execBootVerified_boots boot latch chosen, bank, mode.trans boot⟩
  · have none : s.chooseBank okA okB = none := State.chooseBank_none badA badB
    have awake : s.bankLost.mode ≠ mDormant := by rw [s.bankLost_mode, boot]; decide
    obtain ⟨b, halts⟩ := State.report_four awake 0x29 2
    refine ⟨s.bankLost, execBootVerified_fails boot latch none, ?_, fun settled => if_neg (by simp [settled]), fun trial => ?_⟩
    · rw [halts]; exact (State.enterSafeHalt_shows _ 1).1
    · have back : s.bankLost = s.bankBack (if s.g UP_STAT_TRIES == 3 then 1 else 2) := if_pos trial
      obtain ⟨bank, ended, -⟩ := s.bankBack_shows (reason := if s.g UP_STAT_TRIES == 3 then 1 else 2) (by split <;> decide)
      rw [back]
      exact ⟨bank, ended⟩

end Sys2Proof.Proofs

/-! SUPPORT. Self-Test's end, a ready module, wakes and the resume point (R420, R421, R429, R430). -/

namespace Sys2Proof.Machine
open Sys2Proof.Safety

/-! ### A try of the bank on trial (R521) -/

theorem State.tried_shows {s : State} (trial : s.on UP_STAT_TRIAL = true) (early : s.g UP_STAT_TRIES < 3) :
    s.tried.runImage.g UP_STAT_TRIES = s.g UP_STAT_TRIES + 1 ∧ s.tried.runImage.on UP_STAT_TRIAL = true ∧
    s.tried.runImage.g UP_STAT_ACTBANK = s.g UP_STAT_ACTBANK := by
  have counted : s.tried.g UP_STAT_TRIES = s.g UP_STAT_TRIES + 1 := by
    rw [State.tried, if_pos trial]
    exact State.g_p_fits _ ⟨by decide, (by omega : s.g UP_STAT_TRIES + 1 < 2 ^ 2)⟩
  refine ⟨(State.g_runImage _ (by decide)).trans counted, ?_, (State.g_runImage _ (by decide)).trans s.tried_bank⟩
  rw [State.on, State.g_runImage _ (by decide), s.g_tried (.inr (by decide))]
  exact trial

/-! ### Self-Test's end (R420) -/

section
variable {s : State} {res : SelfTest}

/-- What the loopbacks of Self-Test leave in the health record (R531). -/
def State.holdNoted (s : State) (res : SelfTest) : State := { s with un := { s.un with failHold := holdBits res } }

/-- The page of retained memory that a failed check finds (R158). -/
def State.checked (s : State) (res : SelfTest) : State := if res.retainedOk then s.holdNoted res else (s.holdNoted res).retSpoil

theorem State.retSpoil_shows (s : State) :
    let p := (Config.freeWord s.free).toNat % 4096
    s.retSpoil.free = s.free + 1 ∧ s.retSpoil.app.retMem = s.app.retMem ∧
    tabGet (fun _ => zeroPageCrc) s.retSpoil.app.retCrc p ≠ pageCrc s.retSpoil.app.retMem p ∧
    s.retSpoil = { s with free := s.free + 1, app := { s.app with retCrc := s.retSpoil.app.retCrc } } := by
  intro p
  refine ⟨rfl, rfl, ?_, rfl⟩
  have stored : tabGet (fun _ => zeroPageCrc) s.retSpoil.app.retCrc p = (pageCrc s.app.retMem p + 1) % 2 ^ 32 := tabGet_tabSet_same _ _ _ _
  rw [stored]
  show (pageCrc s.app.retMem p + 1) % 2 ^ 32 ≠ pageCrc s.app.retMem p
  omega

/-- A check of retained memory changes neither the mode nor what the way out depends on. -/
theorem State.checked_keeps (s : State) (res : SelfTest) :
    (s.checked res).mode = s.mode ∧ (s.checked res).fc = s.fc ∧ (s.checked res).mayOperate = s.mayOperate := by
  unfold State.checked
  split <;> exact ⟨rfl, rfl, rfl⟩

/-- The way out of Self-Test (R420 rows 7 to 9). -/
def State.tested (a : State) : State :=
  if a.mode ≠ mSelfTest then a
  else if a.fc.class3 = true then (a.p LC_MODE_FISO 1).enterMode mIsolated 7
  else if a.mayOperate = true then (a.enterMode mSynchronising 8).syncEntry
  else a.enterMode mCommissioning 9

/-- Self-Test's end from the state that its checks leave. -/
def State.leaveTest (a : State) : Res :=
  if a.mode != mSelfTest then .next a
  else if a.fc.class3 then .next ((a.p LC_MODE_FISO 1).enterMode mIsolated 7)
  else if a.mayOperate then .next ((a.enterMode mSynchronising 8).syncEntry)
  else .next (a.enterMode mCommissioning 9)

theorem State.leaveTest_eq (a : State) : a.leaveTest = .next a.tested := by
  unfold State.leaveTest State.tested
  simp only [apply_ite Host.Outcome.next, bne_iff_ne]

theorem exec_selfTestEnd (testing : s.mode = mSelfTest) : exec (.selfTestEnd res) s = .next
    (if res.injectionOk then s.checked res else (s.checked res).report 0x2A 3 2).tested :=
  (if_neg (by simp [testing])).trans (State.leaveTest_eq (if res.injectionOk then s.checked res else (s.checked res).report 0x2A 3 2))

theorem exec_selfTestEnd_passed (testing : s.mode = mSelfTest) (passed : res.injectionOk = true) : exec (.selfTestEnd res) s = .next
    (if s.fc.class3 = true then ((s.checked res).p LC_MODE_FISO 1).enterMode mIsolated 7
     else if s.mayOperate = true then ((s.checked res).enterMode mSynchronising 8).syncEntry
     else (s.checked res).enterMode mCommissioning 9) := by
  obtain ⟨mode, fc, may⟩ := s.checked_keeps res
  rw [exec_selfTestEnd testing, passed, if_pos rfl, State.tested, fc, may, mode, if_neg (by simp [testing])]

end

/-! ### A ready module (R421) -/

section
variable {s : State} (sync : s.mode = mSynchronising) (ready : s.isReady = true)
include sync ready

theorem exec_ready_stopped (stopped : s.app.state = .stopped) :
    let t := ({ s with app := { s.app with startByReady := true } } : State).startApp (if s.g LC_MODE_PREV = mUpdate then 0 else s.g LC_NEXT_KIND)
    exec .ready s = .next (if s.app.badImage = true then t.startFailed else t) := by
  refine (if_neg (by simp [sync, ready])).trans ?_
  rw [stopped]
  simp only [beq_iff_eq]

theorem exec_ready_running (runs : s.app.state = .running ∨ s.app.state = .changing) :
    exec .ready s = .next { s with app := { s.app with modeAt := some s.nextMs } } := by
  refine (if_neg (by simp [sync, ready])).trans ?_
  rcases runs with e | e <;> rw [e]

theorem exec_ready_held (held : s.app.state = .held) :
    exec .ready s = .next { s with app := { s.app with modeAt := some (max s.nextMs (s.app.resumeAt.getD 0)) } } := by
  refine (if_neg (by simp [sync, ready])).trans ?_
  rw [held]

end

/-- The next whole millisecond comes within one (R421). -/
theorem State.nextMs_shows (s : State) : s.now < s.nextMs ∧ s.nextMs ≤ s.now + 1000000 ∧ s.nextMs % 1000000 = 0 := by
  unfold State.nextMs
  omega

/-! ### Wakes (R429, R430) -/

/-- The registers of a wake just triggered (R429). -/
def State.wakeShown (s : State) (src : Nat) : State :=
  (s.p LC_PARKSTAT_WAKESRC src).pb LC_PARKSTAT_LOST
    (((s.p LC_PARKSTAT_WAKESRC src).liveLanes.filter (fun l => !(s.lane l).retentionLost)).length != (s.p LC_PARKSTAT_WAKESRC src).liveLanes.length)

theorem State.wake_eq {s : State} (calm : s.app.waking = false) (src : Nat) : s.wake src =
    if (s.liveLanes.filter (fun k => !(s.lane k).retentionLost)).length < 2 then (s.wakeShown src).moduleReset 3 0 15
    else { s.wakeShown src with app := { s.app with waking := true } } := by
  have lanes : (s.p LC_PARKSTAT_WAKESRC src).liveLanes = s.liveLanes :=
    State.liveLanes_of_keep (OnlyRegs.of_p s src (regIn_head [] rfl)).2 (by simp [regIn, LC_PARKSTAT_WAKESRC])
  have kept (k : Nat) : (s.p LC_PARKSTAT_WAKESRC src).lane k = s.lane k := (OnlyRegs.of_p s src (regIn_head [] rfl)).lane k
  unfold State.wake State.wakeShown
  simp only [calm, lanes, kept, Bool.false_eq_true, if_false]
  rfl

theorem State.wakeShown_shows (s : State) {src : Nat} (low : src < 4) :
    (s.wakeShown src).g LC_PARKSTAT_WAKESRC = src ∧ (s.wakeShown src).mode = s.mode := by
  unfold State.wakeShown
  constructor
  · rw [State.g_pb_off _ _ (by decide)]
    exact State.g_p_fits _ ⟨by decide, low⟩
  · simp (disch := decide) only [State.mode, State.g_pb_off, State.g_p_off]

/-- A lane that runs again (R172). -/
def State.laneRuns (s : State) (l : Nat) : State := s.modLane l (fun x => { x with asleep := false, shadow := {} })

theorem State.laneWoken_eq (s : State) (l : Nat) : s.laneWoken l = if [0, 1, 2, 3].any (fun k => ((s.laneRuns l).lane k).asleep) then s.laneRuns l
    else { s.laneRuns l with app := { (s.laneRuns l).app with resumeAt := some (((s.laneRuns l).now + 1999999) / 1000000 * 1000000) } } := rfl

/-- The lane that wakes runs; after the last the resume point is known (R172, R429). -/
theorem State.laneWoken_shows (s : State) (l : Lane) : ((s.laneWoken l.val).lane l.val).asleep = false ∧
    ((∀ k : Lane, k ≠ l → (s.lane k.val).asleep = false) → (s.laneWoken l.val).app.resumeAt = some ((s.now + 1999999) / 1000000 * 1000000)) := by
  have own : ((s.laneRuns l.val).lane l.val).asleep = false := by rw [State.laneRuns, State.lane_modLane_same]
  have now : (s.laneRuns l.val).now = s.now := by simp [State.now, State.laneRuns, State.g]
  rw [s.laneWoken_eq l.val]
  refine ⟨?_, fun others => ?_⟩
  · split
    · exact own
    · exact own
  · have awake (k : Nat) (low : k < 4) : ((s.laneRuns l.val).lane k).asleep = false := by
      by_cases same : k = l.val
      · rw [same]; exact own
      · rw [State.laneRuns, State.lane_modLane_ne s _ l.isLt low same]
        exact others ⟨k, low⟩ fun e => same (congrArg Fin.val e)
    rw [if_neg (by simp [awake]), now]

/-! ### The resume point (R429) -/

theorem State.drivesEnable_only (s : State) : OnlyRegs s s.drivesEnable (fun _ => True) := by
  refine OnlyRegs.ite (OnlyRegs.foldl (fun t d h => OnlyRegs.ite ?_ h) (OnlyRegs.refl s _)) (OnlyRegs.refl s _)
  exact (((h.p (SF_DRVSTAT_STATE d) 1 trivial).p (SF_DRVSTAT_CAUSE d) 0 trivial).p (SF_DRVSTAT_INTERLOCK d) 1 trivial).p (SF_STOPS_COUNT d) _ trivial

/-- The application as it resumes, before its tasks' next points are set. -/
def State.resumed (s : State) : State := { s with app := { s.app with state := .running, resumeAt := none } }

/-- The next points of the tasks from a resume point on, the points passed counted as skipped (R100, R429). -/
def State.pointsSkipped (s : State) (t : Nat) : State :=
  (List.range 16).foldl (fun (s : State) k =>
    if (s.desc k).periodNs == 0 then s
    else s.modTask k (fun x =>
      let n := if x.next < t then (t - x.next + (s.desc k).periodNs - 1) / (s.desc k).periodNs else 0
      { x with next := x.next + n * (s.desc k).periodNs, skipped := if (s.desc k).kind == 3 then x.skipped else min (x.skipped + n) 0xFFFFFFFF
               skipFlag := true })) s

theorem State.resume_eq (s : State) (t : Nat) : s.resume t = (s.resumed.pointsSkipped t).drivesEnable := rfl

theorem State.pointsSkipped_app (s : State) (t : Nat) : s.app.sameBase (s.pointsSkipped t).app :=
  AppSt.sameBase.foldl _ (fun u k => by dsimp only; split <;> exact rfl) (AppSt.sameBase.refl _)

theorem State.resume_shows (s : State) (t : Nat) : (s.resume t).app.state = .running ∧ (s.resume t).app.resumeAt = none := by
  have app : (s.resume t).app = (s.resumed.pointsSkipped t).app := by rw [s.resume_eq t, (State.drivesEnable_only _).1]
  rw [app, s.resumed.pointsSkipped_app t]
  exact ⟨rfl, rfl⟩

end Sys2Proof.Machine

namespace Sys2Proof.Proofs
open Sys2Proof.Machine Sys2Proof.Safety

/-- Settles O55. The page that a failed check of retained memory finds is a free value, log 119. -/
theorem bootAndModeChanges : Obligations.BootAndModeChanges := by
  intro s okA okB rtcOk res w l m row t
  refine ⟨fun code => s.setMode_shows row code, fun other => if_pos (by simp [other]), fun boot latch => ?latched, fun boot open_ => ⟨fun a chosen =>
    execBootVerified_boots boot open_ chosen, fun none => ⟨s.bankLost, execBootVerified_fails boot open_ none⟩⟩, ⟨State.chooseBank_active, fun _ bad good =>
    ?otherBank, State.chooseBank_none, fun trial third good => ?third, fun trial early good => ?tried⟩, fun other => if_pos (by simp [other]),
    s.retSpoil_shows, fun testing failed => ?failed, fun testing passed => ?passed, fun off => ?notReady, fun sync ready => ⟨fun stopped => ?stopped,
    exec_ready_running sync ready, fun held => ?held⟩, s.nextMs_shows, fun sync => if_pos (by simp [sync]), fun other => if_neg (by simp [other]),
    fun unarmed => if_pos (by simp [unarmed]), fun armed => ⟨fun parked => ?wakes, fun other parking => ?wakesLater, fun other idle => ?wakesNot⟩,
    fun calm low => ⟨fun kept => ?kept, fun few => ?few⟩, fun waking => if_pos waking, fun waking asleep first => ?woken, fun at_ held calm => ?resume⟩
  case latched => exact (if_neg (by simp [boot])).trans (if_pos latch)
  case otherBank =>
    obtain ⟨a, chosen, bank, -⟩ := State.chooseBank_other bad good
    exact ⟨a, chosen, bank⟩
  case third =>
    obtain ⟨bank, over_, reason, -⟩ := s.fellBack_runs (why := 1) (by decide)
    exact ⟨_, State.chooseBank_third trial third good, bank, over_, reason⟩
  case tried => exact ⟨_, State.chooseBank_tried early good, s.tried_shows trial early⟩
  case failed =>
    have ends := exec_selfTestEnd (res := res) testing
    rw [failed, if_neg (by decide)] at ends
    exact ends
  case passed =>
    have ends := exec_selfTestEnd_passed testing passed
    refine ⟨fun iso => ?_, fun free may => ?_, fun free barred => ?_⟩
    · exact ends.trans (congrArg _ (if_pos iso))
    · exact ends.trans (congrArg _ ((if_neg (by simp [free])).trans (if_pos may)))
    · exact ends.trans (congrArg _ ((if_neg (by simp [free])).trans (if_neg (by simp [barred]))))
  case notReady => exact if_pos (by simpa using off)
  case stopped =>
    have starts := exec_ready_stopped sync ready stopped
    exact ⟨fun good => starts.trans (congrArg _ (if_neg (by simp [good]))), fun bad => starts.trans (congrArg _ (if_pos bad))⟩
  case held =>
    refine ⟨_, exec_ready_held sync ready held, _, rfl, le_max_left _ _, fun r at_ => ?_, rfl⟩
    rw [at_]
    exact le_max_right _ _
  case wakes => exact (if_neg (by simp [armed])).trans (if_pos (by simp [parked]))
  case wakesLater => exact (if_neg (by simp [armed])).trans ((if_neg (by simp [other])).trans (if_pos parking))
  case wakesNot => exact (if_neg (by simp [armed])).trans ((if_neg (by simp [other])).trans (if_neg (by simp [idle])))
  case kept =>
    obtain ⟨source, mode⟩ := s.wakeShown_shows low
    rw [State.wake_eq calm, if_neg (Nat.not_lt.2 kept)]
    exact ⟨rfl, source, mode⟩
  case few =>
    obtain ⟨mode, cause, -⟩ := (s.wakeShown m).moduleReset_regs 3 0 15
    rw [State.wake_eq calm, if_pos few]
    exact ⟨mode, cause⟩
  case woken =>
    obtain ⟨own, last⟩ := s.laneWoken_shows l
    have found : [0, 1, 2, 3].find? (fun k => (s.lane k).asleep) = some l.val :=
      List.find?_range_eq_some.2 ⟨asleep, List.mem_range.2 l.isLt, fun k low => by simp [first k low]⟩
    exact ⟨if_pos (by rw [waking, found]; simp), own, last⟩
  case resume =>
    obtain ⟨state, at'⟩ := s.resume_shows t
    refine ⟨fun reached => ⟨?_, state, at'⟩, fun early => ?_⟩
    all_goals
      change execResumePoint s = _
      rw [execResumePoint, at_]
    · exact if_pos (by simp [held, calm, reached])
    · exact if_neg (by simp [Nat.not_le.2 early])

end Sys2Proof.Proofs

/-! SUPPORT. Reports at the collector (R404 to R409, R413): what booking one leaves in the registers, a write of `FC_FORCEs`. -/

namespace Sys2Proof.Machine
open Sys2Proof.Safety

/-! ### Booking a report (R409, R411, R418) -/

theorem State.g_p_of_apart (s : State) {f g : Fld} (v : Nat) (h : f.apart g) : (s.p g v).g f = s.g f := Regs.g_p_apart_of _ v h

/-- The registers do not depend on the collector's own state. -/
theorem State.g_withFc (s : State) (x : FcSt) (f : Fld) : ({ s with fc := x } : State).g f = s.g f := rfl

/-- The registers of the history leave every other field alone (R411, R412). -/
theorem State.g_history (s : State) (k : Taken) (seq : Nat) {f : Fld}
    (apart : ∀ g ∈ [FC_HLOST_COUNT, FC_HPTR_HEAD, FC_STAT_FROZEN, FC_HPTR_FREEZE], f.apart g) : (s.history k seq).g f = s.g f := by
  simp only [List.forall_mem_cons, List.not_mem_nil, false_imp_iff, implies_true, and_true] at apart
  obtain ⟨lost, head, frozen, freeze⟩ := apart
  unfold State.history
  split
  · exact (State.g_withFc _ _ f).trans (s.g_p_of_apart _ lost)
  · have entered (e : HistEnt) (first : Tab (Option Nat)) (v : Nat) :
        (({ s with fc := { s.fc with hist := tabSet (fun _ => {}) s.fc.hist (s.g FC_HPTR_HEAD) e, firstEnt := first } } : State).p FC_HPTR_HEAD v).g f =
          s.g f := (State.g_p_of_apart _ _ head).trans (State.g_withFc _ _ f)
    dsimp only
    split
    · exact (State.g_p_of_apart _ _ freeze).trans ((State.g_p_of_apart _ _ frozen).trans (entered _ _ _))
    · exact entered _ _ _

/-- A report counted and shown as its source's last (R418). -/
def State.reportCounted (s : State) (k : Taken) : State :=
  if k.esc then ((s.srcStatus k.p k.c).inc (FC_CNT_COUNT k.c)).inc FC_ESCCNT_COUNT else (s.srcStatus k.p k.c).inc (FC_CNT_COUNT k.c)

/-- A report counted and recorded. -/
def State.reportNoted (s : State) (k : Taken) : State := (s.reportCounted k).event 2 (k.p.ev k.c k.esc)

theorem State.book_eq (s : State) (k : Taken) : s.book k =
    (let t := s.reportNoted k
     let u := t.history k (t.seqOf (k.p.ev k.c k.esc))
     let v := if k.c < 4 && !t.on (pendFld k.c) then (u.p (pendFld k.c) 1).setFirst k else { u with fc := { u.fc with firstEnt := t.fc.firstEnt } }
     if k.c == 4 then v.haltSrc k else v) := rfl

theorem State.g_reportNoted (s : State) (k : Taken) {f : Fld} (page : f.reg / 0x10000 = 0x4005) : (s.reportNoted k).g f = (s.reportCounted k).g f :=
  (State.event_regs _ _ _).g (by unfold eventPage; omega)

/-- The source's registers and the counters leave every other register alone. -/
theorem State.g_reportCounted (s : State) (k : Taken) {f : Fld} (source : f.reg < 0x40050100) (count : f.reg ≠ (FC_CNT_COUNT k.c).reg)
    (esc : f.reg ≠ FC_ESCCNT_COUNT.reg) : (s.reportCounted k).g f = s.g f := by
  have status : (s.srcStatus k.p k.c).g f = s.g f := by
    have off (n : Nat) : f.reg ≠ 0x40050100 + n := by omega
    unfold State.srcStatus
    rw [State.g_p_reg _ _ (off (16 * k.p.src)), State.g_p_reg _ _ (off (16 * k.p.src)), State.inc, State.g_p_reg _ _ (by
      show f.reg ≠ 0x40050108 + 16 * k.p.src; omega)]
  unfold State.reportCounted
  split
  · exact (State.g_p_reg _ _ esc).trans ((State.g_p_reg _ _ count).trans status)
  · exact (State.g_p_reg _ _ count).trans status

theorem State.reportCounted_count (s : State) (k : Taken) (low : k.c ≤ 3) :
    (s.reportCounted k).g (FC_CNT_COUNT k.c) = (s.g (FC_CNT_COUNT k.c) + 1) % 2 ^ 32 := by
  have source : (FC_CNT_COUNT k.c).reg < 0x40050100 := by simp only [FC_CNT_COUNT]; omega
  have esc : (FC_CNT_COUNT k.c).reg ≠ FC_ESCCNT_COUNT.reg := by simp only [FC_CNT_COUNT, FC_ESCCNT_COUNT]; omega
  have status : (s.srcStatus k.p k.c).g (FC_CNT_COUNT k.c) = s.g (FC_CNT_COUNT k.c) := by
    have off (n : Nat) : (FC_CNT_COUNT k.c).reg ≠ 0x40050100 + n := by omega
    unfold State.srcStatus
    rw [State.g_p_reg _ _ (off (16 * k.p.src)), State.g_p_reg _ _ (off (16 * k.p.src)), State.inc, State.g_p_reg _ _ (by
      show (FC_CNT_COUNT k.c).reg ≠ 0x40050108 + 16 * k.p.src; omega)]
  have one : ((s.srcStatus k.p k.c).inc (FC_CNT_COUNT k.c)).g (FC_CNT_COUNT k.c) = (s.g (FC_CNT_COUNT k.c) + 1) % 2 ^ 32 := by
    rw [State.g_inc_same _ (by decide : 0 + 32 ≤ 32), status]; rfl
  unfold State.reportCounted
  split
  · exact (State.g_p_reg _ _ esc).trans one
  · exact one

theorem pendFld_spec (c : Nat) : (pendFld c).reg = 0x40050000 ∧ (pendFld c).w = 1 ∧ (pendFld c).lo ≤ 2 := by
  unfold pendFld
  split <;> exact ⟨rfl, rfl, by decide⟩

/-- The first fault of a class as `FC_FIRSTc` shows it (R409). -/
theorem State.setFirst_shows (s : State) (k : Taken) : (s.setFirst k).g (FC_FIRST_SRC k.c) = k.p.src % 2 ^ (FC_FIRST_SRC k.c).w ∧
    (s.setFirst k).g (FC_FIRST_CODE k.c) = k.p.code % 2 ^ 16 ∧ (s.setFirst k).on (FC_FIRST_ESC k.c) = k.esc := by
  unfold State.setFirst
  refine ⟨?_, ?_, ?_⟩
  · simp (disch := (simp only [FC_FIRST_SRC, FC_FIRST_CODE, FC_FIRST_ESC, FC_FIRST_LANE]; omega)) only [State.g_p_off, State.g_pb_off]
    exact State.g_p_same _ _ _ (by decide : 0 + 6 ≤ 32)
  · simp (disch := (simp only [FC_FIRST_SRC, FC_FIRST_CODE, FC_FIRST_ESC, FC_FIRST_LANE]; omega)) only [State.g_p_off, State.g_pb_off]
    exact State.g_p_same _ _ _ (by decide : 16 + 16 ≤ 32)
  · rw [State.on, State.g_p_off _ _ (.inr ⟨(by decide : 6 + 2 ≤ 32), (by decide : 6 + 2 ≤ 8 ∨ 8 + 1 ≤ 6)⟩)]
    exact State.on_pb_same _ _ _ (by decide : 8 + 1 ≤ 32) rfl

theorem State.g_setFirst (s : State) (k : Taken) {f : Fld} (other : f.reg ≠ (FC_FIRST_SRC k.c).reg) : (s.setFirst k).g f = s.g f := by
  have code : f.reg ≠ (FC_FIRST_CODE k.c).reg := other
  have esc : f.reg ≠ (FC_FIRST_ESC k.c).reg := other
  have lane : f.reg ≠ (FC_FIRST_LANE k.c).reg := other
  unfold State.setFirst
  rw [State.g_p_reg _ _ lane, State.g_pb_off _ _ (.inl esc), State.g_p_reg _ _ code, State.g_p_reg _ _ other]

section
variable {s : State} {k : Taken} (low : 1 ≤ k.c) (high : k.c ≤ 3) (fresh : s.on (pendFld k.c) = false)
include low high fresh

/-- The first fault of a class is pending and shown (R409). -/
theorem State.book_first : s.book k =
    (((s.reportNoted k).history k ((s.reportNoted k).seqOf (k.p.ev k.c k.esc))).p (pendFld k.c) 1).setFirst k := by
  obtain ⟨reg, -, -⟩ := pendFld_spec k.c
  have pend : (s.reportNoted k).on (pendFld k.c) = false := by
    rw [State.on, s.g_reportNoted k (by rw [reg]), s.g_reportCounted k (by rw [reg]; decide) (by rw [reg]; simp only [FC_CNT_COUNT]; omega)
      (by rw [reg]; decide)]
    exact fresh
  rw [s.book_eq k]
  exact (if_neg (by simp; omega)).trans (if_pos (by rw [pend]; simp; omega))

theorem State.book_shows : (s.book k).on (pendFld k.c) = true ∧ (s.book k).g (FC_FIRST_SRC k.c) = k.p.src % 2 ^ (FC_FIRST_SRC k.c).w ∧
    (s.book k).g (FC_FIRST_CODE k.c) = k.p.code % 2 ^ 16 ∧ (s.book k).on (FC_FIRST_ESC k.c) = k.esc ∧
    (s.book k).g (FC_CNT_COUNT k.c) = (s.g (FC_CNT_COUNT k.c) + 1) % 2 ^ 32 := by
  obtain ⟨reg, width, bit_⟩ := pendFld_spec k.c
  rw [State.book_first low high fresh]
  obtain ⟨src, code, esc⟩ := (((s.reportNoted k).history k ((s.reportNoted k).seqOf (k.p.ev k.c k.esc))).p (pendFld k.c) 1).setFirst_shows k
  refine ⟨?_, src, code, esc, ?_⟩
  · rw [State.on, State.g_setFirst _ k (by rw [reg]; simp only [FC_FIRST_SRC]; omega), State.g_p_fits _ ⟨by omega, by rw [width]; decide⟩]
    rfl
  · have apart : ∀ g ∈ [FC_HLOST_COUNT, FC_HPTR_HEAD, FC_STAT_FROZEN, FC_HPTR_FREEZE], (FC_CNT_COUNT k.c).apart g := by
      simp only [List.forall_mem_cons, List.not_mem_nil, false_imp_iff, implies_true, and_true, Fld.apart, FC_CNT_COUNT, FC_HLOST_COUNT,
        FC_HPTR_HEAD, FC_STAT_FROZEN, FC_HPTR_FREEZE]
      omega
    rw [State.g_setFirst _ k (by simp only [FC_CNT_COUNT, FC_FIRST_SRC]; omega), State.g_p_reg _ _ (by rw [reg]; simp only [FC_CNT_COUNT]; omega),
      State.g_history _ k _ apart, s.g_reportNoted k (by simp only [FC_CNT_COUNT]; omega), s.reportCounted_count k high]

end

/-! ### Judging a report (R409) -/

theorem State.judge_first {s : State} {p : Rep} (high : p.cls ≤ 3) (fresh : s.on (pendFld p.cls) = false) :
    s.judge p = some { p := p, c := p.cls, esc := false, elem := elemOf p.src p.code p.cls } :=
  (if_neg (by omega)).trans (if_pos (by simp [fresh]))

section
variable {s : State} {p : Rep} (high : p.cls ≤ 3) (pending : s.on (pendFld p.cls) = true)
include high pending

theorem State.judge_fold (same : s.firstElem p.cls = elemOf p.src p.code p.cls) : s.judge p = none :=
  (if_neg (by omega)).trans ((if_neg (by simp [pending])).trans (if_pos (by simp [same])))

theorem State.judge_escalates (other : s.firstElem p.cls ≠ elemOf p.src p.code p.cls) :
    s.judge p = some { p := p, c := p.cls + 1, esc := true, elem := elemOf p.src p.code p.cls } :=
  (if_neg (by omega)).trans ((if_neg (by simp [pending])).trans (if_neg (by simp [other])))

end

/-- A report of class 0 is a notice (R402). -/
theorem State.take_notice {s : State} {p : Rep} (awake : s.mode ≠ mDormant) (real : p.forced = false) (zero : p.cls = 0) {d : List Byte}
    (data : p.data = some d) : s.take p = s.noticeD p.src p.code d := by
  have given : s.withData p = (s, p) := by rw [State.withData, data]
  refine (if_neg (by simp [awake])).trans ?_
  rw [State.reportN, given]
  simp [real, zero, data]

/-! ### The reaction of class 3 (R60, R409) -/

theorem State.react_lane (s : State) {t : Taken} (three : t.c = 3) {j : Nat} (lane : t.elem = .lane j) (esc : t.esc = true) :
    s.react t = ((s.react2 t).1.isolate, (s.react2 t).2) := by
  rw [State.react, three]
  show s.react3 t = _
  rw [State.react3, esc, lane]

theorem State.react_isolates (s : State) {t : Taken} (three : t.c = 3) (real : t.esc = false) : s.react t = (s.isolate, []) := by
  rw [State.react, three]
  show s.react3 t = _
  rw [State.react3, real]

/-! ### Failed paths and forced reports (R407, R413) -/

/-- The registers of a failed path (R407). -/
def State.pathFailed (s : State) (src : Nat) : State := ((s.p (FC_SSTAT_PATHFAIL src) 1).p (FC_SSTAT_PATHOK src) 0).p FC_STAT_PATHFAIL 1

theorem State.pathFailed_shows (s : State) (src : Nat) : (s.pathFailed src).on (FC_SSTAT_PATHFAIL src) = true ∧
    (s.pathFailed src).on (FC_SSTAT_PATHOK src) = false ∧ (s.pathFailed src).on FC_STAT_PATHFAIL = true ∧
    OnlyRegs s (s.pathFailed src) (regIn [FC_SSTAT_PATHFAIL src, FC_STAT_PATHFAIL]) := by
  refine ⟨?_, ?_, ?_, (((OnlyRegs.refl s _).p (FC_SSTAT_PATHFAIL src) 1 ⟨_, by simp, rfl⟩).p (FC_SSTAT_PATHOK src) 0 ⟨FC_SSTAT_PATHFAIL src, by simp, rfl⟩).p
    FC_STAT_PATHFAIL 1 ⟨_, by simp, rfl⟩⟩
  all_goals
    simp (disch := (simp only [FC_SSTAT_PATHFAIL, FC_SSTAT_PATHOK, FC_STAT_PATHFAIL]; omega)) [State.on, State.pathFailed, State.g_p_off, State.g_p_fits]

/-- A forced report's fields as `FC_FORCEs` takes them (R413). -/
def State.forceSet (s : State) (src : Nat) (v : Word) : State :=
  ((s.p (FC_FORCE_CLASS src) (getBits v 1 3)).p (FC_FORCE_PATH src) (getBits v 4 1)).p (FC_FORCE_CODE src) (getBits v 16 16)

theorem State.forceSet_only (s : State) (src : Nat) (v : Word) : OnlyRegs s (s.forceSet src v) (regIn [FC_FORCE_CODE src]) :=
  (((OnlyRegs.refl s _).p (FC_FORCE_CLASS src) _ ⟨FC_FORCE_CODE src, by simp, rfl⟩).p (FC_FORCE_PATH src) _ ⟨FC_FORCE_CODE src, by simp, rfl⟩).p
    (FC_FORCE_CODE src) _ ⟨_, by simp, rfl⟩

theorem State.forceSet_code (s : State) (src : Nat) (v : Word) : (s.forceSet src v).g (FC_FORCE_CODE src) = getBits v 16 16 :=
  State.g_p_fits _ ⟨(by decide : 16 + 16 ≤ 32), getBits_lt _ _ _⟩

theorem rwmModes_faults {src : Nat} (low : src < 48) : rwmModes (0x40050104 + 16 * src) = [mMaintenance, mSelfTest] := by
  have page : (0x40050104 + 16 * src) / 0x10000 = 0x4005 := by omega
  simp [rwmModes, page]

section
variable {s : State} {src : Nat} {v : Word} (low : src < 48)
include low

theorem State.fcForce_barred (barred : s.mode ∉ [mMaintenance, mSelfTest]) : s.fcForce src v = s.notice 0x22 1 0 (s.regs.rd (0x40050104 + 16 * src)) :=
  if_pos (by rw [rwmModes_faults low]; simpa using barred)

variable (may : s.mode ∈ [mMaintenance, mSelfTest])
include may

theorem State.fcForce_illegal (illegal : srcRaises src (getBits v 1 3) = false) :
    s.fcForce src v = s.notice 0x22 2 0 (s.regs.rd (0x40050104 + 16 * src)) :=
  (if_neg (by rw [rwmModes_faults low]; simp only [List.contains_eq_mem, may, decide_true, Bool.not_true, Bool.false_eq_true, not_false_eq_true])).trans
    (if_pos (by simp [illegal]))

theorem State.fcForce_legal (legal : srcRaises src (getBits v 1 3) = true) : s.fcForce src v =
    if getBits v 0 1 == 0 || (s.forceSet src v).on (FC_SSTAT_PATHFAIL src) then s.forceSet src v
    else if getBits v 4 1 == 1 then (s.forceSet src v).take { cls := 2, src := src, code := 0xFFFE, forced := true, path := true }
    else (s.forceSet src v).take { cls := getBits v 1 3, src := src, code := getBits v 16 16, forced := true } :=
  (if_neg (by rw [rwmModes_faults low]; simp only [List.contains_eq_mem, may, decide_true, Bool.not_true, Bool.false_eq_true, not_false_eq_true])).trans
    (if_neg (by simp [legal]))

end

theorem State.forceSet_path (s : State) (src : Nat) (v : Word) : (s.forceSet src v).on (FC_SSTAT_PATHFAIL src) = s.on (FC_SSTAT_PATHFAIL src) :=
  congrArg (· == 1) ((s.forceSet_only src v).2.g_off (by simp only [List.forall_mem_singleton, FC_SSTAT_PATHFAIL, FC_FORCE_CODE]; omega))

end Sys2Proof.Machine

namespace Sys2Proof.Proofs
open Sys2Proof.Machine Sys2Proof.Safety

/-- Settles O53: the path and the class decide whether a report is taken; its registers follow from booking it. -/
theorem faultReportsAreTaken : Obligations.FaultReportsAreTaken := by
  intro s src cls code data w v p n
  refine ⟨fun ignored => if_pos (by simpa [or_assoc] using ignored), fun awake good => ⟨fun raises => ?taken, fun some_ => ⟨?fetch, ?path⟩⟩,
    fun failed => ⟨if_pos (by simp [n, failed]), if_pos (by simp [n, failed]), fun raises => if_pos (by simp [n, failed, raises])⟩,
    fun good => if_neg (by simp [n, good]), rfl, rfl, rfl, fun barred low => State.fcForce_barred low barred,
    fun may low => ⟨State.fcForce_illegal low may, fun legal => ?force⟩,
    fun dormant => if_pos (by simp [dormant]), fun awake real zero d data => State.take_notice awake real zero data,
    fun low high => ⟨State.judge_first high, State.judge_fold high, State.judge_escalates high⟩, fun t three =>
    ⟨fun j lane esc => s.react_lane three lane esc, s.react_isolates three⟩, fun t high low short fresh => State.book_shows low high fresh⟩
  case taken => exact if_neg (by simp [n, awake, good, raises])
  case fetch => exact if_neg (by simp [n, awake, good, some_])
  case path => exact ⟨s.pathFailed n, if_neg (by simp [n, awake, good, some_]), s.pathFailed_shows n⟩
  case force =>
    refine ⟨s.forceSet n v, s.forceSet_only n v, s.forceSet_code n v, fun idle => ?_, fun go good real => ?_, fun go good path => ?_⟩ <;>
      rw [State.fcForce_legal low may legal, s.forceSet_path]
    · exact if_pos (by simp [idle])
    · exact (if_neg (by simp [go, good])).trans (if_neg (by simp [real]))
    · exact (if_neg (by simp [go, good])).trans (if_pos (by simp [path]))

end Sys2Proof.Proofs

/-! SUPPORT. The rack bridge: the history of posted writes and the prefetch buffers (R366, R367). -/

namespace Sys2Proof.Machine
open Sys2Proof.Safety

/-! ### Prefetch buffers (R366) -/

@[simp] theorem State.pfBuf_modPf (s : State) (b : Nat) (f : PfBuf → PfBuf) : (s.modPf b f).pfBuf b = f (s.pfBuf b) := tabGet_tabSet_same _ _ _ _

/-- Dropping a prefetch buffer changes the bridge and its count of discarded blocks, nothing else. -/
def OnlyPrefetch (s t : State) : Prop := t = { s with regs := t.regs, rb := t.rb } ∧ RegsKeep s t (regIn [RB_PFDISC_COUNT])

theorem OnlyPrefetch.refl (s : State) : OnlyPrefetch s s := ⟨rfl, RegsKeep.refl _ _⟩

theorem OnlyPrefetch.trans {a b c : State} (h : OnlyPrefetch a b) (k : OnlyPrefetch b c) : OnlyPrefetch a c := by
  refine ⟨?_, h.2.trans k.2⟩
  rw [k.1, h.1]

theorem State.dropPf_only (s : State) (b : Nat) : OnlyPrefetch s (s.dropPf b) := by
  unfold State.dropPf
  dsimp only
  split
  · split
    · exact ⟨rfl, ((RegsKeep.refl s _).p RB_PFDISC_COUNT _ ⟨_, List.mem_singleton.2 rfl, rfl⟩).of_regs rfl⟩
    · exact ⟨rfl, (RegsKeep.refl s _).of_regs rfl⟩
  · exact OnlyPrefetch.refl s

/-- The prefetch buffers of a slot that a posted write reaches are dropped (R366). -/
def State.dropSlot (s : State) (slot : Nat) : State :=
  (List.range 8).foldl (fun s b => if (s.pfBuf b).valid && (s.pfBuf b).slot == slot then s.dropPf b else s) s

theorem State.dropSlot_only (s : State) (slot : Nat) : OnlyPrefetch s (s.dropSlot slot) :=
  List.foldlRecOn _ _ (OnlyPrefetch.refl s) fun t kept b _ => kept.trans (by
    split
    · exact t.dropPf_only b
    · exact OnlyPrefetch.refl t)

/-! ### The history of posted writes (R367) -/

/-- A posted write's entry and the next sequence number. -/
def State.writeNoted (s : State) (slot a len src task cycle : Nat) : State :=
  let n := s.g RB_WSEQ_SEQ
  let i := n % 1024
  let s := (s.p (RB_WHIST_SEQ i) n).p (RB_WHADDR_ADDR i) a
  let s := (((s.p (RB_WHINFO_SLOT i) slot).p (RB_WHINFO_LEN i) (len - 1)).p (RB_WHINFO_TASK i) task).p (RB_WHINFO_SRC i) src
  (s.p (RB_WHCYC_CYCLE i) cycle).p RB_WSEQ_SEQ (n + 1)

/-- The write counted in the bridge's own state too. -/
def State.writeQueued (s : State) (slot a len src task cycle : Nat) : State :=
  { s.writeNoted slot a len src task cycle with rb := { s.rb with posted := s.rb.posted + 1 } }

theorem State.writeQueued_regs (s : State) (slot a len src task cycle : Nat) :
    (s.writeQueued slot a len src task cycle).regs = (s.writeNoted slot a len src task cycle).regs := rfl

theorem State.writeQueued_tx (s : State) (slot a len src task cycle : Nat) :
    (s.writeQueued slot a len src task cycle).tx = (s.writeNoted slot a len src task cycle).tx := rfl

/-- The registers of an entry. -/
abbrev whistFlds (i : Nat) : List Fld := [RB_WHIST_SEQ i, RB_WHADDR_ADDR i, RB_WHINFO_SLOT i, RB_WHCYC_CYCLE i]

theorem State.postWrite_eq {s : State} (open_ : s.gated = false) (on : s.on RB_CTRL_EN = true) (main : s.pw.geo = 0) (slot a : Nat) (data : List Word)
    (src task cycle : Nat) : s.postWrite slot a data src task cycle =
      ((s.writeQueued slot a data.length src task cycle).dropSlot slot).emit (.rackWrite (s.g RB_WSEQ_SEQ) slot a data) :=
  (if_neg (by simp [open_])).trans (if_neg (by simp [on, main]))

theorem State.writeNoted_only (s : State) (slot a len src task cycle : Nat) :
    OnlyRegs s (s.writeNoted slot a len src task cycle) (regIn (RB_WSEQ_SEQ :: whistFlds (s.g RB_WSEQ_SEQ % 1024))) := by
  unfold State.writeNoted
  refine OnlyRegs.p (.p (.p (.p (.p (.p (.p (.p (.refl _ _) _ _ ?_) _ _ ?_) _ _ ?_) _ _ ?_) _ _ ?_) _ _ ?_) _ _ ?_) _ _ ?_
  · exact ⟨RB_WHIST_SEQ _, by simp, rfl⟩
  · exact ⟨RB_WHADDR_ADDR _, by simp, rfl⟩
  · exact ⟨RB_WHINFO_SLOT _, by simp, rfl⟩
  · exact ⟨RB_WHINFO_SLOT _, by simp, rfl⟩
  · exact ⟨RB_WHINFO_SLOT _, by simp, rfl⟩
  · exact ⟨RB_WHINFO_SLOT _, by simp, rfl⟩
  · exact ⟨RB_WHCYC_CYCLE _, by simp, rfl⟩
  · exact ⟨RB_WSEQ_SEQ, by simp, rfl⟩

theorem State.writeNoted_shows (s : State) {slot a len src task cycle : Nat} (hs : slot < 16) (ha : a < 2 ^ 32) (hl : len ≤ 16) (hr : src < 3)
    (ht : task < 16) (hc : cycle < 2 ^ 32) :
    let q := s.g RB_WSEQ_SEQ
    let u := s.writeNoted slot a len src task cycle
    let i := q % 1024
    u.g (RB_WHIST_SEQ i) = q ∧ u.g (RB_WHADDR_ADDR i) = a ∧ u.g (RB_WHINFO_SLOT i) = slot ∧ u.g (RB_WHINFO_LEN i) = len - 1 ∧
    u.g (RB_WHINFO_SRC i) = src ∧ u.g (RB_WHINFO_TASK i) = task ∧ u.g (RB_WHCYC_CYCLE i) = cycle ∧ u.g RB_WSEQ_SEQ = (q + 1) % 2 ^ 32 := by
  have hq : s.g RB_WSEQ_SEQ < 2 ^ 32 := getBits_lt _ _ _
  refine ⟨?_, ?_, ?_, ?_, ?_, ?_, ?_, State.g_p_same _ _ _ (by decide)⟩ <;> unfold State.writeNoted <;>
    simp (disch := (simp only [RB_WHIST_SEQ, RB_WHADDR_ADDR, RB_WHINFO_SLOT, RB_WHINFO_LEN, RB_WHINFO_TASK, RB_WHINFO_SRC, RB_WHCYC_CYCLE,
      RB_WSEQ_SEQ] at *; omega)) only [State.g_p_off, State.g_p_fits]

section
variable {s : State} (open_ : s.gated = false) (on : s.on RB_CTRL_EN = true) (main : s.pw.geo = 0) (slot a : Nat) (data : List Word)
  (src task cycle : Nat)
include open_ on main

/-- After the entry, a posted write touches the count of discarded blocks alone. -/
theorem State.postWrite_history :
    RegsKeep (s.writeNoted slot a data.length src task cycle) (s.postWrite slot a data src task cycle) (regIn [RB_PFDISC_COUNT]) := by
  rw [State.postWrite_eq open_ on main]
  exact (((RegsKeep.refl _ _).of_regs (s.writeQueued_regs slot a data.length src task cycle)).trans (State.dropSlot_only _ slot).2).of_regs
    (State.emit_regs _ _)

theorem State.postWrite_tx (awake : s.mode ≠ mDormant) :
    (s.postWrite slot a data src task cycle).tx = .rackWrite (s.g RB_WSEQ_SEQ) slot a data :: s.tx := by
  have mode : (s.writeNoted slot a data.length src task cycle).mode = s.mode :=
    (s.writeNoted_only slot a data.length src task cycle).2.g_off (by
      simp only [List.forall_mem_cons, List.not_mem_nil, false_imp_iff, implies_true, and_true, LC_MODE_MODE, RB_WSEQ_SEQ, RB_WHIST_SEQ,
        RB_WHADDR_ADDR, RB_WHINFO_SLOT, RB_WHCYC_CYCLE]
      omega)
  have here := (((RegsKeep.refl _ _).of_regs (s.writeQueued_regs slot a data.length src task cycle)).trans (State.dropSlot_only _ slot).2).g_off
    (f := LC_MODE_MODE) (by decide)
  have tx := congrArg State.tx (State.dropSlot_only (s.writeQueued slot a data.length src task cycle) slot).1
  rw [State.postWrite_eq open_ on main, State.emit, if_neg fun off => awake (mode.symm.trans (here.symm.trans (eq_of_beq off)))]
  have noted : (s.writeNoted slot a data.length src task cycle).tx = s.tx := by rw [(s.writeNoted_only slot a data.length src task cycle).1]
  dsimp only
  rw [tx, s.writeQueued_tx, noted]

/-- The registers of the other entries are the old ones. -/
theorem State.postWrite_other {r : Nat} (own : ∀ f ∈ RB_PFDISC_COUNT :: RB_WSEQ_SEQ :: whistFlds (s.g RB_WSEQ_SEQ % 1024), r ≠ f.reg) :
    (s.postWrite slot a data src task cycle).regs.rd r = s.regs.rd r := by
  obtain ⟨count, own⟩ := List.forall_mem_cons.1 own
  rw [State.postWrite_history open_ on main slot a data src task cycle _ (by rintro ⟨f, mem, e⟩; rw [List.mem_singleton.1 mem] at e; exact count e),
    (s.writeNoted_only slot a data.length src task cycle).2 _ fun ⟨f, mem, e⟩ => own f mem e]

end

end Sys2Proof.Machine

namespace Sys2Proof.Proofs
open Sys2Proof.Machine Sys2Proof.Safety

/-- Settles O50: the entry's fields are written one by one, and what follows touches the prefetch buffers and their count alone. -/
theorem postedWritesEnterTheHistory : Obligations.PostedWritesEnterTheHistory := by
  intro s slot task src a cycle data open_ on main ha hc some_ short q i u
  have reads {f : Fld} (other : f.reg ≠ RB_PFDISC_COUNT.reg) : u.g f = (s.writeNoted slot a data.length src task cycle).g f :=
    RegsKeep.g_off (State.postWrite_history open_ on main slot.val a data src.val task.val cycle) (by simpa using other)
  obtain ⟨seq, addr, slots, len, srcs, tasks, cyc, next⟩ := s.writeNoted_shows slot.isLt ha short src.isLt task.isLt hc
  refine ⟨(reads ?_).trans seq, (reads ?_).trans addr, (reads ?_).trans slots, (reads ?_).trans len, (reads ?_).trans srcs, (reads ?_).trans tasks,
    (reads ?_).trans cyc, (reads (by decide)).trans next, fun j low other => ?other, State.postWrite_tx open_ on main slot.val a data src.val task.val cycle⟩
  case other =>
    have hi : i < 1024 := Nat.mod_lt _ (by decide)
    have kept (r : Nat) (own : ∃ k < 4, r = 0x40034000 + 16 * j + 4 * k) : u.regs.rd r = s.regs.rd r := by
      obtain ⟨k, hk, rfl⟩ := own
      refine State.postWrite_other open_ on main _ _ _ _ _ _ ?_
      show ∀ f ∈ RB_PFDISC_COUNT :: RB_WSEQ_SEQ :: whistFlds i, _
      simp only [List.forall_mem_cons, List.not_mem_nil, false_imp_iff, implies_true, and_true, RB_PFDISC_COUNT, RB_WSEQ_SEQ, RB_WHIST_SEQ,
        RB_WHADDR_ADDR, RB_WHINFO_SLOT, RB_WHCYC_CYCLE]
      omega
    refine ⟨congrArg (getBits · 0 32) (kept _ ⟨0, by decide, ?_⟩), congrArg (getBits · 0 32) (kept _ ⟨1, by decide, ?_⟩), kept _ ⟨2, by decide, ?_⟩,
      congrArg (getBits · 0 32) (kept _ ⟨3, by decide, ?_⟩)⟩
    all_goals simp only [RB_WHIST_SEQ, RB_WHADDR_ADDR, RB_WHINFO_SLOT, RB_WHCYC_CYCLE]; omega
  all_goals
    simp only [RB_WHIST_SEQ, RB_WHADDR_ADDR, RB_WHINFO_SLOT, RB_WHINFO_LEN, RB_WHINFO_TASK, RB_WHINFO_SRC, RB_WHCYC_CYCLE, RB_PFDISC_COUNT]; omega

end Sys2Proof.Proofs

/-! SUPPORT. The rack bridge: voted accesses, read tags, completions, error messages (R358 to R369). -/

namespace Sys2Proof.Machine
open Sys2Proof.Safety

/-! ### What a speculating task's deferred writes leave alone (R132, R134) -/

/-- Nothing reaches the rack bus, its streams or a port. -/
def OffBus (s t : State) : Prop := t.rb = s.rb ∧ t.streams = s.streams ∧ t.tx = s.tx

theorem OffBus.trans {a b c : State} (h : OffBus a b) (k : OffBus b c) : OffBus a c :=
  ⟨k.1.trans h.1, k.2.1.trans h.2.1, k.2.2.trans h.2.2⟩

theorem State.modCtx_offBus (s : State) (l t : Nat) (f : SpecCtx → SpecCtx) : OffBus s (s.modCtx l t f) :=
  ⟨State.modLane_rb _ _ _, State.modLane_streams _ _ _, State.modLane_tx _ _ _⟩

theorem State.p_offBus (s : State) (f : Fld) (v : Nat) : OffBus s (s.p f v) := ⟨rfl, rfl, rfl⟩

theorem State.stallCtx_offBus (s : State) (l t : Nat) (ops : List CoreOp) : OffBus s (s.stallCtx l t ops) :=
  ((s.p_offBus _ _).trans (State.modCtx_offBus _ _ _ _)).trans (State.modCtx_offBus _ _ _ _)

theorem State.deferStore_offBus (s : State) (l t : Nat) (op : CoreOp) (a : Nat) (bs : List Byte) : OffBus s (s.deferStore l t op a bs) := by
  unfold State.deferStore State.deferWrite
  split
  · exact s.stallCtx_offBus l t _
  · exact (s.modCtx_offBus l t _).trans (State.p_offBus _ _ _)

section
variable {s : State} {l : Lane} {t : Task} {acc : RackReq}

theorem State.reaches_iff (l t : Nat) : s.reaches l t = true ↔ l ∈ s.liveLanes ∧ (s.desc t).directio = true := by
  simp [State.reaches]

theorem exec_rackAccess_barred (barred : ¬ (s.worksOn l.val t.val = true ∧ s.pairRuns l.val (s.desc t.val).pair = true ∧ s.reaches l.val t.val = true)) :
    exec (.rackAccess l t acc) s = .next s := if_pos (by simpa [or_assoc, imp_iff_not_or] using barred)

variable (may : s.worksOn l.val t.val = true ∧ s.pairRuns l.val (s.desc t.val).pair = true ∧ s.reaches l.val t.val = true)
include may

theorem exec_rackAccess_load (spec : s.speculates l.val t.val = true) (load : acc.wr = none) :
    exec (.rackAccess l t acc) s = .next (s.stallCtx l.val t.val [.load false false (0x200000000 + acc.a) acc.len]) :=
  (if_neg (by simp [may])).trans ((if_pos spec).trans (by rw [load]))

theorem exec_rackAccess_store (spec : s.speculates l.val t.val = true) (store : acc.wr.isSome = true) :
    Gives (.rackAccess l t acc) s (OffBus s) := by
  obtain ⟨ws, hw⟩ := Option.isSome_iff_exists.1 store
  refine ⟨_, (if_neg (by simp [may])).trans ((if_pos spec).trans (by rw [hw])), List.foldlRecOn _ _ ⟨rfl, rfl, rfl⟩ fun u kept e _ => kept.trans ?_⟩
  split
  · exact u.deferStore_offBus _ _ _ _ _
  · exact u.modCtx_offBus _ _ _

theorem exec_rackAccess_waits (steady : s.speculates l.val t.val = false) (busy : s.g (RA_CTX_STATE l.val t.val) ≠ csIdle) :
    exec (.rackAccess l t acc) s = .next s := (if_neg (by simp [may])).trans ((if_neg (by simp [steady])).trans (if_pos (by simp [busy])))

theorem exec_rackAccess_posts (steady : s.speculates l.val t.val = false) (idle : s.g (RA_CTX_STATE l.val t.val) = csIdle) :
    exec (.rackAccess l t acc) s = .next (s.rackPost l t acc false false) :=
  (if_neg (by simp [may])).trans ((if_neg (by simp [steady])).trans (if_neg (by simp [idle])))

end

/-! ### A voted access (R362, R363) -/

/-- The state in which a lane's access takes its place in its task's stream. -/
def State.rackPlaced (s : State) (l t : Nat) : State :=
  s.modLt l t (fun y => { y with rackPos := (s.lt l t).rackPos + 1, posted := tabSet (fun _ => (false, false)) y.posted (s.lt l t).rackPos (false, false) })

section
variable (s : State) (l : Lane) (t : Task) (acc : RackReq)

theorem State.on_rackPlaced (f : Fld) : (s.rackPlaced l.val t.val).on f = s.on f := by
  rw [State.on, State.on, State.rackPlaced, State.modLt]; simp

theorem State.rackPost_off (off : s.on RB_CTRL_EN = false) : s.rackPost l t acc false false =
    (s.rackPlaced l.val t.val).rackBusError l.val t.val (s.lt l.val t.val).rackPos acc.a acc.wr.isSome :=
  if_pos (by
    show (!(s.rackPlaced l.val t.val).on RB_CTRL_EN) = true
    rw [State.on_rackPlaced, off]; rfl)

end

/-- What an access comes to, by what its arrival made of the vote: `b` is the state it was posted in, `z` the vote's answer (R362, R363). -/
def rackAnswer (b : State) (l : Lane) (t : Task) (acc : RackReq) (place : Nat) (z : State × Arrival) : State :=
  match z.2 with
  | .formed w => z.1.rackAct t.val place (reqOf w) (z.1.lt l.val t.val).cycle
  | .joined w =>
    if (reqOf w).wr.isSome then z.1
    else match z.1.loadOf t.val place with
    | some data => z.1.giveLoad [l.val] t.val place data
    | none => z.1
  | .failed lanes =>
    if acc.wr.isNone then lanes.foldl (fun (u : State) (j : Nat) =>
      u.rackBusError j t.val place (if j == l.val then acc.a else b.postedAt j t.val place) false) z.1
    else z.1
  | _ => z.1

theorem State.rackPost_on (s : State) (l : Lane) (t : Task) (acc : RackReq) (on : s.on RB_CTRL_EN = true) : s.rackPost l t acc false false =
    rackAnswer (s.rackPlaced l.val t.val) l t acc (s.lt l.val t.val).rackPos
      ((s.rackPlaced l.val t.val).postStream .rack (.task t) (s.lt l.val t.val).rackPos l (reqBytes acc)) :=
  if_neg (by
    show ¬ (!(s.rackPlaced l.val t.val).on RB_CTRL_EN) = true
    rw [State.on_rackPlaced, on]; decide)

section
variable {b : State} {l : Lane} {t : Task} {acc : RackReq} {place : Nat} {z : State × Arrival} {w : List Byte} {lanes : List Nat}

theorem rackAnswer_formed (formed : z.2 = .formed w) : rackAnswer b l t acc place z = z.1.rackAct t.val place (reqOf w) (z.1.lt l.val t.val).cycle := by
  rw [rackAnswer, formed]

theorem rackAnswer_store (joined : z.2 = .joined w) (store : (reqOf w).wr.isSome = true) : rackAnswer b l t acc place z = z.1 := by
  rw [rackAnswer, joined]
  exact if_pos store

theorem rackAnswer_load (joined : z.2 = .joined w) (load : (reqOf w).wr = none) : rackAnswer b l t acc place z =
    (match z.1.loadOf t.val place with
      | some data => z.1.giveLoad [l.val] t.val place data
      | none => z.1) := by
  rw [rackAnswer, joined]
  exact if_neg (by simp [load])

theorem rackAnswer_failed (failed : z.2 = .failed lanes) : rackAnswer b l t acc place z =
    if acc.wr = none then lanes.foldl (fun (u : State) (j : Nat) =>
      u.rackBusError j t.val place (if j = l.val then acc.a else b.postedAt j t.val place) false) z.1
    else z.1 := by
  rw [rackAnswer, failed]
  simp only [Option.isNone_iff_eq_none, beq_iff_eq]

theorem rackAnswer_waits (waits : z.2 = .waits ∨ z.2 = .turned) : rackAnswer b l t acc place z = z.1 := by
  rcases waits with e | e <;> rw [rackAnswer, e]

end

/-! ### What the bridge does once with a voted access (R169, R363) -/

section
variable {s : State} {t place cycle : Nat} {q : RackReq}

theorem State.rackAct_window (inside : inWindow q.a = true) : s.rackAct t place q cycle = { s with rb := { s.rb with portB := s.rb.portB ++
    [{ t := t, place := place, word := (q.a - winBase) / 4, wr := q.wr.isSome, left := q.wr.getD (List.replicate ((q.a % 4 + q.len + 3) / 4) 0) }] } } :=
  if_pos inside

theorem State.rackAct_store (outside : inWindow q.a = false) {d : List Word} (store : q.wr = some d) :
    s.rackAct t place q cycle = s.postWrite ((s.window q.a).elim 0 (·.1)) q.a d 0 t cycle :=
  (if_neg (by simp [outside])).trans (by rw [store])

theorem State.rackAct_load (outside : inWindow q.a = false) (load : q.wr = none) (card : (s.window q.a).isSome = true) :
    s.rackAct t place q cycle = s.askRead { who := .lane t place, slot := 0, a := q.a, words := (q.a % 4 + q.len + 3) / 4, cycle := cycle } :=
  (if_neg (by simp [outside])).trans ((by rw [load] : _ = _).trans (if_neg (by simpa using Option.isSome_iff_ne_none.1 card)))

end

/-! ### Read tags (R361) -/

section
variable {s : State} {r : RdReq} {sl w : Nat} (found : s.window r.a = some (sl, w)) (plain : s.on (RB_WCFG_PFEFF sl w) = false)
include found plain

theorem State.askRead_plain : s.askRead r =
    (match s.freeTag with
      | none => { s with rb := { s.rb with waitRd := s.rb.waitRd ++ [{ r with slot := sl }] } }
      | some k => s.issue k { reqs := [{ r with slot := sl }], slot := sl, a := r.a, words := r.words }) := by
  rw [State.askRead, found]
  dsimp only
  rw [plain, Bool.false_and]
  rfl

end

theorem State.freeTag_least {s : State} {j : Nat} (free : s.freeTag = some j) : (∀ i < j, (s.tag i).st ≠ 0) ∧ (s.tag j).st = 0 := by
  obtain ⟨here, -, before⟩ := List.find?_range_eq_some.1 free
  exact ⟨fun i low => by simpa using before i low, by simpa using here⟩

/-! ### Completions and timers (R361, R363, R366) -/

section
variable {s : State} {tag : Fin 32} {code : Nat} {data : List Word}

theorem exec_readCompletion_live (live : (s.tag tag.val).st = 1) (wanted : s.abandoned tag.val (s.tag tag.val) = false) :
    exec (.readCompletion tag code data) s = .next
      ((((s.tag tag.val).reqs.foldl (fun (u : State) r => u.endRead r (if code > 4 then 3 else code)
          (if (s.tag tag.val).buf.isSome then (data.drop (r.a % 64 / 4)).take r.words else data))
        (match (s.tag tag.val).buf with
          | some b => s.fillBuf tag.val b (if (if code > 4 then 3 else code) == 0 then some data else none)
          | none => s))).freeTagNow tag.val) :=
  by
  refine (if_neg (by simp [live])).trans ((if_neg (by simp [live])).trans ((if_neg (by simp [wanted])).trans ?_))
  rfl

end

section
variable {s : State} {tag : Fin 32}

theorem exec_discardTimerExpiry_late (late : (s.tag tag.val).st = 2) : exec (.discardTimerExpiry tag) s = .next (s.freeTagNow tag.val) := by
  show execDiscardTimerExpiry tag s = _
  simp only [execDiscardTimerExpiry, late]

theorem exec_discardTimerExpiry_kept (kept : (s.tag tag.val).st = 3) : exec (.discardTimerExpiry tag) s = .next (s.discard.freeTagNow tag.val) := by
  show execDiscardTimerExpiry tag s = _
  simp only [execDiscardTimerExpiry, kept]

theorem exec_discardTimerExpiry_other (other : (s.tag tag.val).st = 0 ∨ (s.tag tag.val).st = 1) : exec (.discardTimerExpiry tag) s = .next s := by
  show execDiscardTimerExpiry tag s = _
  rcases other with e | e <;> simp only [execDiscardTimerExpiry, e]

end

theorem State.pfBuf_dropPf (s : State) (b : Nat) : (s.dropPf b).pfBuf b = if (s.pfBuf b).valid then {} else s.pfBuf b := by
  unfold State.dropPf
  dsimp only
  split
  · exact State.pfBuf_modPf _ _ _
  · rfl

/-! ### Error messages (R368) -/

/-- The registers that show an error message: what it says, the write it was matched to (`ms`, newest first), the counts. -/
def State.errShown (s : State) (slot tag code a : Nat) (ms : List Nat) (task src cyc : Nat) : State :=
  let s := ((s.p RB_EADDR_ADDR a).p RB_EINFO_SLOT slot).p RB_EINFO_TAG tag
  let s := ((s.p RB_EINFO_CODE code).pb RB_EINFO_MATCH (!ms.isEmpty)).p RB_EINFO_TASK task
  let s := (s.p RB_EINFO_SRC src).pb RB_EINFO_AMBIG (ms.length ≥ 2)
  let s := (s.p RB_ESEQ_SEQ (if !ms.isEmpty then ms.headD 0 else 0xFFFFFFFF)).p RB_ECYC_CYCLE cyc
  (s.p RB_STAT_WERR 1).inc RB_WERRCNT_COUNT

/-- The notice of an error message and its entry for the event channels leave the bridge's registers alone. -/
theorem State.errTold_regs (s : State) (data : List Byte) (e : QEnt) : RegsKeep s ((s.noticeD 0x1E 0x0001 data).post e) recPage :=
  (State.post_same (State.noticeD_same (SameBut.refl s) 0x1E 1 (by decide) data) e).2

theorem State.errTask_regs (s : State) (data : List Byte) (e : QEnt) (t : Nat) (f : RbTask → RbTask) :
    RegsKeep s (((s.noticeD 0x1E 0x0001 data).post e).modRbTask t f) recPage := (s.errTold_regs data e).of_regs rfl

theorem Res.next_of_ite {p : Prop} [Decidable p] {a b : State} {P : State → Prop} (ha : P a) (hb : P b) :
    ∃ u, (if p then .next a else .next b : Res) = .next u ∧ P u := by
  split
  · exact ⟨a, rfl, ha⟩
  · exact ⟨b, rfl, hb⟩

theorem exec_errorMessage {s : State} {slot : Fin 16} {tag : Fin 32} {code : Fin 8} (some_ : 0 < code.val) (a : Nat) :
    ∃ task src cyc u, exec (.errorMessage slot tag code a) s = .next u ∧
      RegsKeep (s.errShown slot.val tag.val (if code.val > 4 then 3 else code.val) a (s.errMatches slot.val tag.val a) task src cyc) u recPage := by
  show ∃ _ _ _ _, execErrorMessage slot tag code a s = _ ∧ _
  rw [execErrorMessage, if_neg (by simpa using Nat.pos_iff_ne_zero.1 some_)]
  exact ⟨_, _, _, Res.next_of_ite (State.errTask_regs _ _ _ _ _) (State.errTold_regs _ _ _)⟩

theorem State.errShown_only (s : State) (slot tag code a : Nat) (ms : List Nat) (task src cyc : Nat) :
    OnlyRegs s (s.errShown slot tag code a ms task src cyc) (fun j => j / 0x10000 = RB_STAT_WERR.reg / 0x10000) := by
  unfold State.errShown
  refine OnlyRegs.p (.p (.p (.p (.pb (.p (.p (.pb (.p (.p (.p (.p (.refl s _) _ _ ?_) _ _ ?_) _ _ ?_) _ _ ?_) _ _ ?_) _ _ ?_) _ _ ?_) _ _ ?_)
    _ _ ?_) _ _ ?_) _ _ ?_) _ _ ?_ <;> rfl

/-- The sequence numbers that an error message is matched to have 32 bits. -/
theorem State.errMatches_headD (s : State) (slot tag a : Nat) : (s.errMatches slot tag a).headD 0 < 2 ^ 32 := by
  have small : ∀ q ∈ s.errMatches slot tag a, q < 2 ^ 32 := fun q mem => by
    obtain ⟨j, -, e⟩ := List.mem_map.1 (List.mem_of_mem_filter mem)
    exact e ▸ Nat.mod_lt _ (Nat.two_pow_pos 32)
  cases e : s.errMatches slot tag a with
  | nil => exact Nat.two_pow_pos 32
  | cons q qs => exact small q (e ▸ List.mem_cons_self)

section
variable (s : State) {slot tag code a : Nat} (ms : List Nat) (task src cyc : Nat)

theorem State.errShown_shows (hs : slot < 16) (ht : tag < 32) (hc : code < 8) (hm : ms.headD 0 < 2 ^ 32) :
    let u := s.errShown slot tag code a ms task src cyc
    u.g RB_EADDR_ADDR = a % 2 ^ 32 ∧ u.g RB_EINFO_SLOT = slot ∧ u.g RB_EINFO_TAG = tag ∧ u.g RB_EINFO_CODE = code ∧
    u.on RB_EINFO_MATCH = (!ms.isEmpty) ∧ u.on RB_EINFO_AMBIG = decide (ms.length ≥ 2) ∧
    u.g RB_ESEQ_SEQ = (if ms = [] then 0xFFFFFFFF else ms.headD 0) ∧ u.on RB_STAT_WERR = true ∧
    u.g RB_WERRCNT_COUNT = (s.g RB_WERRCNT_COUNT + 1) % 2 ^ 32 := by
  have bits (b : Bool) : (if b then 1 else 0) < 2 ^ 1 := by cases b <;> decide
  have seq : (if !ms.isEmpty then ms.headD 0 else 0xFFFFFFFF) < 2 ^ 32 := by split <;> omega
  refine ⟨?_, ?_, ?_, ?_, ?_, ?_, ?_, ?_, ?_⟩
  case refine_7 =>
    have shown : (s.errShown slot tag code a ms task src cyc).g RB_ESEQ_SEQ = if !ms.isEmpty then ms.headD 0 else 0xFFFFFFFF := by
      simp (disch := (simp only [RB_ESEQ_SEQ, RB_ECYC_CYCLE, RB_STAT_WERR, RB_WERRCNT_COUNT]; omega)) only [State.errShown, State.inc, State.g_p_off,
        State.g_p_fits]
    rw [shown]
    cases ms <;> rfl
  all_goals
    simp (disch := (simp only [RB_EADDR_ADDR, RB_EINFO_SLOT, RB_EINFO_TAG, RB_EINFO_CODE, RB_EINFO_MATCH, RB_EINFO_TASK, RB_EINFO_SRC,
      RB_EINFO_AMBIG, RB_ESEQ_SEQ, RB_ECYC_CYCLE, RB_STAT_WERR, RB_WERRCNT_COUNT]; omega)) only [State.errShown, State.on, State.pb, State.inc,
      State.g_p_off, State.g_p_fits, State.g_p_same]
  case refine_5 => cases ms <;> rfl
  case refine_6 => by_cases two : ms.length ≥ 2 <;> simp [two, RB_EINFO_AMBIG]
  all_goals rfl

end

end Sys2Proof.Machine

namespace Sys2Proof.Proofs
open Sys2Proof.Machine Sys2Proof.Safety

/-- Settles O49: each command's rows by its conditions. That an error message of code 0 is absorbed (log 120) and that an access to the exchange
window waits for port B (logs 75, 120) are the model's choices; the statement holds with them. -/
theorem rackBridgeTransactions : Obligations.RackBridgeTransactions := by
  intro s cards l t acc tag code data slot ec a n b k x
  refine ⟨fun done => if_pos (by simpa using done), fun boot first => ⟨_, (if_neg (by simp [boot, first])), rfl, ?enum⟩, fun gated => if_pos gated,
    ⟨s.reaches_iff l.val t.val, exec_rackAccess_barred, fun may spec => ⟨exec_rackAccess_load may spec, exec_rackAccess_store may spec⟩,
      fun may steady => exec_rackAccess_waits may steady, fun may steady idle => ⟨fun off => ?off, fun on => ?on⟩⟩,
    fun inside p c => State.rackAct_window inside, fun outside p c => ⟨fun d store => State.rackAct_store outside store,
      fun load card => State.rackAct_load outside load card⟩, fun r sl w found plain => ⟨fun j free => ?tag, fun full => ?full⟩,
    fun late => if_pos (by simp [x, k] at late; simp [late]), fun stray => ?stray, fun live gone => ?gone, fun live wanted alone => ?ended, fun live wanted i block => ?filled,
    fun live => ⟨_, rfl, if_neg (by simp [x, k] at live; simp [live])⟩, fun idle => if_pos (by simp [x, k] at idle; simp [idle]),
    fun late => ?late, fun kept => ?kept, fun other => ?other, rfl, ?dropped, fun fills w => ⟨?block, ?noBlock⟩, fun idle d => if_neg (by simp [idle]),
    fun none_ => if_pos (by simp [none_]), fun some_ => ?error⟩
  case enum => exact congrArg (· == 1) (State.g_p_fits _ ⟨by decide, by decide⟩)
  case off => exact (exec_rackAccess_posts may steady idle).trans (congrArg _ (s.rackPost_off l t acc off))
  case on =>
    have posts := (exec_rackAccess_posts may steady idle).trans (congrArg Host.Outcome.next (s.rackPost_on l t acc on))
    exact ⟨fun w formed => posts.trans (congrArg _ (rackAnswer_formed formed)),
      fun w joined store => posts.trans (congrArg _ (rackAnswer_store joined store)),
      fun w d joined load here => posts.trans (congrArg _ ((rackAnswer_load joined load).trans (by rw [here]))),
      fun w joined load here => posts.trans (congrArg _ ((rackAnswer_load joined load).trans (by rw [here]))),
      fun lanes failed load => posts.trans (congrArg _ ((rackAnswer_failed failed).trans (if_pos load))),
      fun lanes failed store => posts.trans (congrArg _ ((rackAnswer_failed failed).trans (if_neg (Option.isSome_iff_ne_none.1 store)))),
      fun waits => posts.trans (congrArg _ (rackAnswer_waits waits))⟩
  case tag =>
    obtain ⟨busy, idle⟩ := State.freeTag_least free
    exact ⟨busy, idle, by rw [State.askRead_plain found plain, free]⟩
  case full => rw [State.askRead_plain found plain, full]
  case stray => exact (if_neg (by rcases stray with e | e <;> simp_all [x, k])).trans (if_pos (by rcases stray with e | e <;> simp_all [x, k]))
  case gone => exact (if_neg (by simp_all [x, k])).trans ((if_neg (by simp_all [x, k])).trans (if_pos (by simp_all [x, k])))
  case ended =>
    refine (exec_readCompletion_live live wanted).trans ?_
    show _ = Host.Outcome.next (((s.tag tag.val).reqs.foldl _ s).freeTagNow tag.val)
    rw [show (s.tag tag.val).buf = none from alone]
    rfl
  case filled =>
    refine (exec_readCompletion_live live wanted).trans ?_
    rw [show (s.tag tag.val).buf = some i from block]
    have okay : ((if code > 4 then 3 else code) == 0) = decide (code = 0) := by
      rw [Bool.eq_iff_iff, beq_iff_eq, decide_eq_true_eq]
      split <;> omega
    rw [okay]
    simp only [decide_eq_true_eq, Option.isSome_some, if_true]
    rfl
  case late => exact exec_discardTimerExpiry_late late
  case kept => exact exec_discardTimerExpiry_kept kept
  case other => exact exec_discardTimerExpiry_other other
  case dropped => exact s.pfBuf_dropPf b.val
  case block => rw [State.fillBuf, if_pos fills]; exact State.pfBuf_modPf _ _ _
  case noBlock => rw [State.fillBuf, if_pos fills]; exact State.pfBuf_modPf _ _ _
  case error =>
    obtain ⟨task, src, cyc, u, run, keeps⟩ := exec_errorMessage (s := s) (slot := slot) (tag := tag) some_ a
    have kind : (if ec.val > 4 then 3 else ec.val) < 8 := by split <;> omega
    obtain ⟨addr, slots, tags, codes, hit, ambig, seq, flag, count⟩ :=
      s.errShown_shows (a := a) (s.errMatches slot.val k a) task src cyc slot.isLt tag.isLt kind (s.errMatches_headD slot.val k a)
    have only := s.errShown_only slot.val k (if ec.val > 4 then 3 else ec.val) a (s.errMatches slot.val k a) task src cyc
    have bridge {f : Fld} (low : f.reg / 0x10000 = 0x4003) : ¬ recPage f.reg := by unfold recPage; omega
    refine ⟨u, run, (keeps.g (bridge rfl)).trans addr, (keeps.g (bridge rfl)).trans slots, (keeps.g (bridge rfl)).trans tags,
      (keeps.g (bridge rfl)).trans codes, ?_, ?_, (keeps.g (bridge rfl)).trans seq, ?_, (keeps.g (bridge rfl)).trans count,
      fun j page off => (keeps j page).trans (only.2 j off)⟩
    · rw [State.on, keeps.g (bridge rfl)]
      exact (iff_of_eq (congrArg (· = true) hit)).trans (by simp)
    · rw [State.on, keeps.g (bridge rfl)]
      exact (iff_of_eq (congrArg (· = true) ambig)).trans (by simp)
    · rw [State.on, keeps.g (bridge rfl)]
      exact flag

end Sys2Proof.Proofs

/-! SUPPORT. Analogue channels: conversions, the diagnosis of loops, jumpers, shunts (R341 to R354). -/

namespace Sys2Proof.Machine
open Sys2Proof.Safety

/-! ### A channel's own state and its registers -/

@[simp] theorem State.aio_modAio (s : State) (n : Nat) (f : AioSt → AioSt) : (s.modAio n f).aio n = f (s.aio n) := tabGet_tabSet_same _ _ _ _

theorem State.aio_modAio_ne (s : State) {n k : Nat} (f : AioSt → AioSt) (h : k ≠ n) : (s.modAio n f).aio k = s.aio k := tabGet_tabSet_ne _ _ _ h

theorem State.aio_p (s : State) (f : Fld) (v n : Nat) : (s.p f v).aio n = s.aio n := rfl

theorem State.g_modAio (s : State) (n : Nat) (f : AioSt → AioSt) (g : Fld) : (s.modAio n f).g g = s.g g := rfl

theorem State.g_showAio (s : State) (n start : Nat) (g : Fld) : (s.showAio n start).g g = s.g g := rfl

theorem State.aio_showAio (s : State) (n start : Nat) : ((s.showAio n start).aio n).convs = (s.aio n).convs ∧
    ((s.showAio n start).aio n).shuntOff = (s.aio n).shuntOff ∧ ((s.showAio n start).aio n).shuntAt = (s.aio n).shuntAt ∧
    ((s.showAio n start).aio n).shows.head? = some { start := start, value := s.g (AN_MEAS_VALUE n), status := s.g (AN_STAT_NSTAT n)
                                                     stamp := s.g (AN_TS_NS n) + 2 ^ 32 * s.g (AN_TSERA_ERA n) } := by
  rw [State.showAio]
  simp

theorem State.on_pb_off (s : State) {f g : Fld} (b : Bool) (h : g.reg ≠ f.reg ∨ f.lo + f.w ≤ 32 ∧ (f.lo + f.w ≤ g.lo ∨ g.lo + g.w ≤ f.lo)) :
    (s.pb f b).on g = s.on g := congrArg (· == 1) (s.g_pb_off b h)

/-- Nothing but one channel's status register, the channels' own states and what an event touches is changed. -/
def OnlyStat (n : Nat) (s t : State) : Prop :=
  t = { s with regs := t.regs, an := t.an, ev := t.ev, mb := t.mb, sess := t.sess, tx := t.tx } ∧
  ∀ a, ¬ recPage a → a ≠ (AN_STAT_OPEN n).reg → t.regs.rd a = s.regs.rd a

theorem OnlyStat.refl (n : Nat) (s : State) : OnlyStat n s s := ⟨rfl, fun _ _ _ => rfl⟩

theorem OnlyStat.trans {n : Nat} {a b c : State} (h : OnlyStat n a b) (k : OnlyStat n b c) : OnlyStat n a c := by
  refine ⟨?_, fun x page own => (k.2 x page own).trans (h.2 x page own)⟩
  rw [k.1, h.1]

theorem OnlyStat.of_same {n : Nat} {a b : State} (h : SameBut a b) : OnlyStat n a b :=
  ⟨by rw [h.1], fun x page _ => h.2 x page⟩

theorem OnlyStat.ite {n : Nat} {s a b : State} {p : Prop} [Decidable p] (ha : OnlyStat n s a) (hb : OnlyStat n s b) :
    OnlyStat n s (if p then a else b) := by split <;> assumption

/-- A one-bit flag of a channel's status register. -/
def anFlag (n k : Nat) : Fld := ⟨0x60010044 + 32 * (n - 1), k, 1⟩

theorem State.p_onlyStat (s : State) {n : Nat} (f : Fld) (stat : f.reg = (AN_STAT_OPEN n).reg) (v : Nat) : OnlyStat n s (s.p f v) :=
  ⟨rfl, fun _ _ own => State.rd_p_ne s v (stat ▸ own)⟩

theorem State.modAio_onlyStat (s : State) (n : Nat) (f : AioSt → AioSt) : OnlyStat n s (s.modAio n f) := ⟨rfl, fun _ _ _ => rfl⟩

theorem State.showAio_onlyStat (s : State) (n start : Nat) : OnlyStat n s (s.showAio n start) := ⟨rfl, fun _ _ _ => rfl⟩

theorem OnlyStat.g {n : Nat} {s t : State} (h : OnlyStat n s t) {f : Fld} (page : ¬ recPage f.reg) (own : f.reg ≠ (AN_STAT_OPEN n).reg) :
    t.g f = s.g f := by rw [State.g, State.g, Regs.g, Regs.g, h.2 _ page own]

theorem notRec_stat (n k : Nat) : ¬ recPage (anFlag n k).reg := by unfold recPage anFlag; dsimp only; omega

/-! ### Flags of a loop (R349) -/

/-- A flag that a run of measurements raises, another one clears. -/
def State.judgeAn (s : State) (n : Nat) (f : Fld) (code : Nat) (up down : Prop) [Decidable up] [Decidable down] : State :=
  if up then s.raiseAn n f code else if down then s.p f 0 else s

section
variable (s : State) {n k : Nat} (bit_ : k < 32)
include bit_

theorem State.raiseAn_shows (code : Nat) : (s.raiseAn n (anFlag n k) code).on (anFlag n k) = true ∧
    (∀ j < 32, j ≠ k → (s.raiseAn n (anFlag n k) code).on (anFlag n j) = s.on (anFlag n j)) ∧
    OnlyStat n s (s.raiseAn n (anFlag n k) code) ∧ ∀ i, (s.raiseAn n (anFlag n k) code).aio i = s.aio i := by
  have set : (s.p (anFlag n k) 1).on (anFlag n k) = true :=
    congrArg (· == 1) (State.g_p_fits _ ⟨(by show k + 1 ≤ 32; omega), (by show 1 < 2 ^ 1; decide)⟩)
  have off (j : Nat) (hj : j < 32) (ne : j ≠ k) : (s.p (anFlag n k) 1).on (anFlag n j) = s.on (anFlag n j) :=
    congrArg (· == 1) (State.g_p_off _ _ (.inr ⟨(by show k + 1 ≤ 32; omega), (by show k + 1 ≤ j ∨ j + 1 ≤ k; omega)⟩))
  have told := State.notice_same (s.p (anFlag n k) 1) 0x1D code n ((s.p (anFlag n k) 1).word (AN_STAT_OPEN n)) (by decide)
  have same (j : Nat) := congrArg (· == 1) (told.g (anFlag n j) (notRec_stat n j))
  unfold State.raiseAn
  by_cases on : s.on (anFlag n k) = true
  · rw [if_pos on]
    exact ⟨on, fun _ _ _ => rfl, OnlyStat.refl n s, fun _ => rfl⟩
  · rw [if_neg on]
    by_cases none_ : (code == 0) = true
    · dsimp only
      rw [if_pos none_]
      exact ⟨set, off, s.p_onlyStat (anFlag n k) rfl 1, fun _ => rfl⟩
    · dsimp only
      rw [if_neg none_]
      exact ⟨(same k).trans set, fun j hj ne => (same j).trans (off j hj ne), (s.p_onlyStat (anFlag n k) rfl 1).trans (.of_same told), fun i => by
        rw [State.aio, told.an]; rfl⟩

theorem State.judgeAn_shows (code : Nat) (up down : Prop) [Decidable up] [Decidable down] :
    (s.judgeAn n (anFlag n k) code up down).on (anFlag n k) = (if up then true else if down then false else s.on (anFlag n k)) ∧
    (∀ j < 32, j ≠ k → (s.judgeAn n (anFlag n k) code up down).on (anFlag n j) = s.on (anFlag n j)) ∧
    OnlyStat n s (s.judgeAn n (anFlag n k) code up down) ∧ ∀ i, (s.judgeAn n (anFlag n k) code up down).aio i = s.aio i := by
  have cleared : (s.p (anFlag n k) 0).on (anFlag n k) = false :=
    congrArg (· == 1) (State.g_p_fits _ ⟨(by show k + 1 ≤ 32; omega), (by show 0 < 2 ^ 1; decide)⟩)
  have off (j : Nat) (hj : j < 32) (ne : j ≠ k) : (s.p (anFlag n k) 0).on (anFlag n j) = s.on (anFlag n j) :=
    congrArg (· == 1) (State.g_p_off _ _ (.inr ⟨(by show k + 1 ≤ 32; omega), (by show k + 1 ≤ j ∨ j + 1 ≤ k; omega)⟩))
  unfold State.judgeAn
  by_cases raised : up
  · simp only [if_pos raised]
    exact s.raiseAn_shows bit_ code
  · by_cases ended : down
    · simp only [if_neg raised, if_pos ended]
      exact ⟨cleared, off, s.p_onlyStat (anFlag n k) rfl 0, fun _ => rfl⟩
    · simp only [if_neg raised, if_neg ended]
      exact ⟨trivial, fun _ _ _ => trivial, OnlyStat.refl n s, fun _ => trivial⟩

end

/-- `OVR` clears in its own bit alone (R352). -/
theorem State.ovrClear_shows (s : State) (n : Nat) : (∀ j < 32, j ≠ 5 → (s.ovrClear n).on (anFlag n j) = s.on (anFlag n j)) ∧
    OnlyRegs s (s.ovrClear n) (regIn [AN_STAT_OVR n]) := by
  unfold State.ovrClear
  dsimp only
  split
  · exact ⟨fun j hj ne => congrArg (· == 1) (State.g_p_off _ _ (.inr ⟨(by decide : 5 + 1 ≤ 32), (by show 5 + 1 ≤ j ∨ j + 1 ≤ 5; omega)⟩)),
      OnlyRegs.of_p s _ ⟨_, by simp, rfl⟩⟩
  · exact ⟨fun _ _ _ => rfl, OnlyRegs.refl s _⟩

/-! ### A diagnostic measurement (R349) -/

/-- The runs of measurements with and without a condition, none while the supply sags. -/
def runPair (sag c : Bool) (on off : Nat) : Nat × Nat := if sag then (0, 0) else countPair c on off

/-- The flags `OPEN`, `COMPL` and `ALNDEL` by their runs. -/
def State.loopFlags (s : State) (n : Nat) (o c d : Nat × Nat) : State :=
  ((s.judgeAn n (anFlag n 0) 1 (o.1 ≥ 101) (o.2 ≥ 101)).judgeAn n (anFlag n 1) 0 (c.1 ≥ 41) (c.2 ≥ 101)).judgeAn n (anFlag n 3) 3 (d.1 ≥ 1001) (d.2 ≥ 1001)

/-- `FAULT` and `THERM` follow, and the runs are kept. -/
def State.loopEnd (s : State) (n : Nat) (m : LoopMeas) (sag was : Bool) (x : AioSt) (o c d : Nat × Nat) : State :=
  let fault := if s.on (AN_STAT_COMPL n) then (if was then x.faultN + 1 else 0, 0) else (0, if was then 0 else x.faultOff + 1)
  let s := s.judgeAn n (anFlag n 2) 2 (fault.1 ≥ 1000 && !sag) (fault.2 ≥ 1000)
  let foldN := if s.on (AN_STAT_THERM n) && m.current ≥ s.loopUa n then x.foldN + 1 else 0
  let s := if foldN ≥ 10000 then s.p (AN_STAT_THERM n) 0 else s
  s.modAio n (fun x => { x with openN := o.1, openOff := o.2, complN := c.1, complOff := c.2, delN := d.1, delOff := d.2
                                faultN := fault.1, faultOff := fault.2, foldN := foldN })

/-- A measurement judged, `OVR` having cleared if its time has come. -/
def State.loopMeasured (s : State) (n : Nat) (m : LoopMeas) : State :=
  let k := s.loopConds n m
  let x := s.aio n
  let o := runPair s.inSag k.1 x.openN x.openOff
  let p := runPair s.inSag k.2.1 x.complN x.complOff
  let d := runPair s.inSag k.2.2 x.delN x.delOff
  (s.loopFlags n o p d).loopEnd n m s.inSag ((s.judgeAn n (anFlag n 0) 1 (o.1 ≥ 101) (o.2 ≥ 101)).on (AN_STAT_COMPL n)) x o p d

theorem exec_loopDiagnosticMeasurement {s : State} {c : Fin 6} (m : LoopMeas) (output : s.g (AN_CFG_MODE (c.val + 1)) = 1) :
    exec (.loopDiagnosticMeasurement c m) s = .next ((s.ovrClear (c.val + 1)).loopMeasured (c.val + 1) m) :=
  (if_neg (by simp [output])).trans rfl

section
variable (s : State) (n : Nat) (o c d : Nat × Nat)

theorem State.loopFlags_shows : let t := s.loopFlags n o c d
    t.on (AN_STAT_OPEN n) = (if o.1 ≥ 101 then true else if o.2 ≥ 101 then false else s.on (AN_STAT_OPEN n)) ∧
    t.on (AN_STAT_COMPL n) = (if c.1 ≥ 41 then true else if c.2 ≥ 101 then false else s.on (AN_STAT_COMPL n)) ∧
    t.on (AN_STAT_ALNDEL n) = (if d.1 ≥ 1001 then true else if d.2 ≥ 1001 then false else s.on (AN_STAT_ALNDEL n)) ∧ OnlyStat n s t := by
  obtain ⟨open_, keep0, only0, -⟩ := s.judgeAn_shows (n := n) (by decide : 0 < 32) 1 (o.1 ≥ 101) (o.2 ≥ 101)
  obtain ⟨compl, keep1, only1, -⟩ :=
    (s.judgeAn n (anFlag n 0) 1 (o.1 ≥ 101) (o.2 ≥ 101)).judgeAn_shows (n := n) (by decide : 1 < 32) 0 (c.1 ≥ 41) (c.2 ≥ 101)
  obtain ⟨del, keep3, only3, -⟩ := ((s.judgeAn n (anFlag n 0) 1 (o.1 ≥ 101) (o.2 ≥ 101)).judgeAn n (anFlag n 1) 0 (c.1 ≥ 41) (c.2 ≥ 101)).judgeAn_shows
    (n := n) (by decide : 3 < 32) 3 (d.1 ≥ 1001) (d.2 ≥ 1001)
  refine ⟨?_, ?_, ?_, (only0.trans only1).trans only3⟩
  · exact (keep3 0 (by decide) (by decide)).trans ((keep1 0 (by decide) (by decide)).trans open_)
  · exact (keep3 1 (by decide) (by decide)).trans (compl.trans (by rw [keep0 1 (by decide) (by decide)]; rfl))
  · exact del.trans (by rw [keep1 3 (by decide) (by decide), keep0 3 (by decide) (by decide)]; rfl)

theorem State.loopEnd_shows (m : LoopMeas) (sag was : Bool) (x : AioSt) : let t := s.loopEnd n m sag was x o c d
    (t.aio n).openN = o.1 ∧ (t.aio n).complN = c.1 ∧ (t.aio n).delN = d.1 ∧ (∀ k ∈ [0, 1, 3], t.on (anFlag n k) = s.on (anFlag n k)) ∧ OnlyStat n s t := by
  have step (a b hot : Prop) [Decidable a] [Decidable b] [Decidable hot] (f : AioSt → AioSt) :
      (∀ k ∈ [0, 1, 3], ((if hot then (s.judgeAn n (anFlag n 2) 2 a b).p (anFlag n 4) 0 else s.judgeAn n (anFlag n 2) 2 a b).modAio n f).on (anFlag n k) =
        s.on (anFlag n k)) ∧
      OnlyStat n s ((if hot then (s.judgeAn n (anFlag n 2) 2 a b).p (anFlag n 4) 0 else s.judgeAn n (anFlag n 2) 2 a b).modAio n f) := by
    obtain ⟨-, keep, only, -⟩ := s.judgeAn_shows (n := n) (by decide : 2 < 32) 2 a b
    have low {k : Nat} (mem : k ∈ [0, 1, 3]) : k < 32 ∧ k ≠ 2 ∧ k ≠ 4 := by revert k; decide
    refine ⟨fun k mem => ?_, (only.trans (OnlyStat.ite (State.p_onlyStat _ (anFlag n 4) rfl 0) (OnlyStat.refl _ _))).trans (State.modAio_onlyStat _ _ _)⟩
    refine Eq.trans ?_ (keep k (low mem).1 (low mem).2.1)
    rw [State.on, State.g_modAio]
    split
    · exact congrArg (· == 1) (State.g_p_off _ _ (.inr ⟨(by decide : 4 + 1 ≤ 32), (by
        obtain ⟨-, -, apart⟩ := low mem
        show 4 + 1 ≤ k ∨ k + 1 ≤ 4
        omega)⟩))
    · rfl
  exact ⟨congrArg AioSt.openN (State.aio_modAio _ _ _), congrArg AioSt.complN (State.aio_modAio _ _ _), congrArg AioSt.delN (State.aio_modAio _ _ _),
    step _ _ _ _⟩

end

/-- A flag after one more measurement, by the runs before it. -/
theorem flag_of_run (sag c was : Bool) (up down on off : Nat) (hu : 0 < up) (hd : 0 < down) :
    (if (runPair sag c on off).1 ≥ up then true else if (runPair sag c on off).2 ≥ down then false else was) =
      if sag = true then was else if c = true ∧ up - 1 ≤ on then true else if c = false ∧ down - 1 ≤ off then false else was := by
  cases sag <;> cases c <;> simp [runPair, countPair, Nat.not_le.2 hu, hd.ne']

section
variable (s : State) (n : Nat) (m : LoopMeas)

theorem State.loopMeasured_shows : let t := s.loopMeasured n m
    let k := s.loopConds n m
    let x := s.aio n
    (t.aio n).openN = (if s.inSag then 0 else if k.1 then x.openN + 1 else 0) ∧ (t.aio n).complN = (if s.inSag then 0 else if k.2.1 then x.complN + 1 else 0) ∧
    (t.aio n).delN = (if s.inSag then 0 else if k.2.2 then x.delN + 1 else 0) ∧
    t.on (AN_STAT_OPEN n) = (if s.inSag then s.on (AN_STAT_OPEN n) else if k.1 = true ∧ 100 ≤ x.openN then true
      else if k.1 = false ∧ 100 ≤ x.openOff then false else s.on (AN_STAT_OPEN n)) ∧
    t.on (AN_STAT_COMPL n) = (if s.inSag then s.on (AN_STAT_COMPL n) else if k.2.1 = true ∧ 40 ≤ x.complN then true
      else if k.2.1 = false ∧ 100 ≤ x.complOff then false else s.on (AN_STAT_COMPL n)) ∧
    t.on (AN_STAT_ALNDEL n) = (if s.inSag then s.on (AN_STAT_ALNDEL n) else if k.2.2 = true ∧ 1000 ≤ x.delN then true
      else if k.2.2 = false ∧ 1000 ≤ x.delOff then false else s.on (AN_STAT_ALNDEL n)) ∧ OnlyStat n s t := by
  intro t k x
  have run (sag c : Bool) (on off : Nat) : (runPair sag c on off).1 = if sag then 0 else if c then on + 1 else 0 := by cases sag <;> cases c <;> rfl
  obtain ⟨open_, compl, del, only⟩ := s.loopFlags_shows n (runPair s.inSag k.1 x.openN x.openOff) (runPair s.inSag k.2.1 x.complN x.complOff)
    (runPair s.inSag k.2.2 x.delN x.delOff)
  obtain ⟨openN, complN, delN, keep, rest⟩ := (s.loopFlags n (runPair s.inSag k.1 x.openN x.openOff) (runPair s.inSag k.2.1 x.complN x.complOff)
    (runPair s.inSag k.2.2 x.delN x.delOff)).loopEnd_shows n (runPair s.inSag k.1 x.openN x.openOff) (runPair s.inSag k.2.1 x.complN x.complOff)
    (runPair s.inSag k.2.2 x.delN x.delOff) m s.inSag
    ((s.judgeAn n (anFlag n 0) 1 ((runPair s.inSag k.1 x.openN x.openOff).1 ≥ 101) ((runPair s.inSag k.1 x.openN x.openOff).2 ≥ 101)).on (AN_STAT_COMPL n)) x
  rw [flag_of_run _ _ _ _ _ _ _ (by decide) (by decide)] at open_ compl del
  exact ⟨openN.trans (run _ _ _ _), complN.trans (run _ _ _ _), delN.trans (run _ _ _ _), (keep 0 (by simp)).trans open_, (keep 1 (by simp)).trans compl,
    (keep 3 (by simp)).trans del, only.trans rest⟩

end

/-! ### Conversions (R351 to R354) -/

theorem convStatus_current (v : Int) : (convStatus 2 v = 0 ↔ 38000 ≤ v ∧ v ≤ 205000) ∧ (convStatus 2 v = 4 ↔ 210000 < v) ∧
    (convStatus 2 v = 3 ↔ v < 36000) := by
  simp only [convStatus]
  refine ⟨?_, ?_, ?_⟩ <;> split_ifs <;> simp <;> omega

theorem convStatus_voltage (v : Int) : (convStatus 3 v = 0 ↔ 0 ≤ v ∧ v ≤ 100000) ∧ (convStatus 3 v = 6 ↔ v < -5000 ∨ 110000 < v) := by
  simp only [convStatus, Bool.or_eq_true, decide_eq_true_eq]
  refine ⟨?_, ?_⟩ <;> split_ifs <;> simp <;> omega

/-- The registers of a conversion's result. -/
abbrev resultFlds (n : Nat) : List Fld := [AN_MEAS_VALUE n, AN_TS_NS n, AN_TSERA_ERA n, AN_STAT_NSTAT n]

/-- A result's value and time. -/
def State.resultStamped (s : State) (n : Nat) (v : Int) (stamp : Nat) : State :=
  ((s.p (AN_MEAS_VALUE n) (u32 v)).p (AN_TS_NS n) stamp).p (AN_TSERA_ERA n) (stamp / 2 ^ 32)

/-- What a result shows, before its record for the images. -/
def State.resultSet (s : State) (n : Nat) (v : Int) (stamp : Nat) : State :=
  (s.resultStamped n v stamp).p (AN_STAT_NSTAT n) (convStatus (s.g (AN_CFG_MODE n)) v)

theorem convStatus_lt (mode : Nat) (v : Int) : convStatus mode v < 2 ^ 4 := by
  unfold convStatus
  split <;> (try split_ifs) <;> decide

section
variable (s : State) {n : Nat} (v : Int) (stamp : Nat)

theorem State.resultStamped_only : OnlyRegs s (s.resultStamped n v stamp) (regIn [AN_MEAS_VALUE n, AN_TS_NS n, AN_TSERA_ERA n]) :=
  ((OnlyRegs.of_p s _ ⟨AN_MEAS_VALUE n, by simp, rfl⟩).p _ _ ⟨AN_TS_NS n, by simp, rfl⟩).p _ _ ⟨AN_TSERA_ERA n, by simp, rfl⟩

theorem State.resultSet_only : OnlyRegs s (s.resultSet n v stamp) (regIn (resultFlds n)) :=
  ((s.resultStamped_only v stamp).mono fun _ ⟨f, mem, e⟩ => ⟨f, by simp only [List.mem_cons, List.not_mem_nil, or_false] at mem ⊢; tauto, e⟩).p _ _
    ⟨AN_STAT_NSTAT n, by simp, rfl⟩

theorem State.resultSet_shows : let t := s.resultSet n v stamp
    t.g (AN_MEAS_VALUE n) = u32 v % 2 ^ 24 ∧ t.g (AN_TS_NS n) = stamp % 2 ^ 32 ∧ t.g (AN_STAT_NSTAT n) = convStatus (s.g (AN_CFG_MODE n)) v := by
  refine ⟨?_, ?_, State.g_p_fits _ ⟨(by decide : 12 + 4 ≤ 32), convStatus_lt _ v⟩⟩ <;> unfold State.resultSet State.resultStamped <;>
    simp (disch := (simp only [AN_MEAS_VALUE, AN_TS_NS, AN_TSERA_ERA, AN_STAT_NSTAT]; omega)) only [State.g_p_off, State.g_p_same] <;> rfl

theorem State.convResult_eq : s.convResult n v stamp = (s.resultSet n v stamp).showAio n (if s.on (AN_CFG_CONV n) then stamp + 3000 else stamp) := by
  have keeps {f : Fld} (cfg : f.reg = (AN_CFG_MODE n).reg) : (s.resultStamped n v stamp).g f = s.g f :=
    (s.resultStamped_only v stamp).2.g_off (by rw [cfg]; simp [AN_CFG_MODE, AN_MEAS_VALUE, AN_TS_NS, AN_TSERA_ERA])
  have shown : s.convResult n v stamp = ((s.resultStamped n v stamp).p (AN_STAT_NSTAT n) (convStatus ((s.resultStamped n v stamp).g (AN_CFG_MODE n)) v)).showAio n
      (if (s.resultStamped n v stamp).on (AN_CFG_CONV n) then stamp + 3000 else stamp) := rfl
  rw [shown, State.on, keeps (f := AN_CFG_CONV n) rfl, keeps (f := AN_CFG_MODE n) rfl]
  rfl

end

/-! ### A conversion's three rows (R351, R352, R353, R527) -/

section
variable {s : State} {c : Fin 6} {value : Int} {stamp : Nat}

/-- `OVR` may clear first; no condition of a conversion depends on it. -/
theorem State.ovrClear_same (s : State) (n : Nat) : (s.ovrClear n).aio n = s.aio n ∧ (s.ovrClear n).heldPort = s.heldPort ∧
    (s.ovrClear n).now = s.now ∧ (∀ f : Fld, f.reg ≠ (AN_STAT_OVR n).reg → (s.ovrClear n).g f = s.g f) := by
  obtain ⟨-, only⟩ := s.ovrClear_shows n
  have reads {f : Fld} (off : f.reg ≠ (AN_STAT_OVR n).reg) : (s.ovrClear n).g f = s.g f := only.2.g_off (by simpa using off)
  have low (r : Nat) (hr : r < 0x60010044) : r ≠ (AN_STAT_OVR n).reg := by simp only [AN_STAT_OVR]; omega
  refine ⟨by rw [State.aio, only.1]; rfl, ?_, ?_, fun f => reads⟩
  · funext port
    unfold State.heldPort
    rw [only.1]
  · unfold State.now
    rw [reads (low _ (by decide)), reads (low _ (by decide))]

theorem exec_analogueConversion_kept (kept : s.g (AN_CFG_MODE (c.val + 1)) = 0 ∨ (s.aio (c.val + 1)).settling = true ∨ s.heldPort (0x9F + (c.val + 1)) = true) :
    exec (.analogueConversion c value stamp) s = .next (s.ovrClear (c.val + 1)) := by
  obtain ⟨aio, held, -, reads⟩ := s.ovrClear_same (c.val + 1)
  have mode := reads (AN_CFG_MODE (c.val + 1)) (by simp [AN_CFG_MODE, AN_STAT_OVR])
  exact if_pos (by simpa [aio, held, mode, or_assoc] using kept)

variable (on : s.g (AN_CFG_MODE (c.val + 1)) ≠ 0) (settled : (s.aio (c.val + 1)).settling = false) (free : s.heldPort (0x9F + (c.val + 1)) = false)
include on settled free

theorem exec_analogueConversion_noShunt (gone : (s.aio (c.val + 1)).shuntOff = true) : exec (.analogueConversion c value stamp) s =
    .next (((s.ovrClear (c.val + 1)).p (AN_STAT_NSTAT (c.val + 1)) 4).showAio (c.val + 1) (s.ovrClear (c.val + 1)).fieldNow) := by
  obtain ⟨aio, held, -, reads⟩ := s.ovrClear_same (c.val + 1)
  have mode := reads (AN_CFG_MODE (c.val + 1)) (by simp [AN_CFG_MODE, AN_STAT_OVR])
  exact (if_neg (by simp [aio, held, mode, on, settled, free])).trans ((if_pos (by rw [aio]; exact gone)).trans rfl)

theorem exec_analogueConversion_done (here : (s.aio (c.val + 1)).shuntOff = false) :
    let n := c.val + 1
    let vs := if s.on (AN_CFG_CONV n) then [value] else (value :: (s.aio n).convs).take (2 ^ s.g (AN_CFG_AVG n))
    exec (.analogueConversion c value stamp) s = .next (((s.ovrClear n).modAio n (fun x => { x with convs := vs })).convResult n
      (if s.on (AN_CFG_CONV n) then value else intMean vs) (extend s.now stamp)) := by
  intro n vs
  obtain ⟨aio, held, now, reads⟩ := s.ovrClear_same n
  have cfg {f : Fld} (reg : f.reg = (AN_CFG_MODE n).reg) := reads f (by rw [reg]; simp [AN_CFG_MODE, AN_STAT_OVR])
  refine (if_neg (by simp [n] at aio held cfg; simp [aio, held, cfg (f := AN_CFG_MODE (c.val + 1)) rfl, on, settled, free])).trans ((if_neg (by
    show ¬ ((s.ovrClear n).aio n).shuntOff = true
    rw [aio, here]; decide)).trans ?_)
  show (if (s.ovrClear n).on (AN_CFG_CONV n) then _ else _) = _
  have conv : (s.ovrClear n).on (AN_CFG_CONV n) = s.on (AN_CFG_CONV n) := congrArg (· == 1) (cfg (f := AN_CFG_CONV n) rfl)
  rw [conv, show (s.ovrClear n).g (AN_CFG_AVG n) = s.g (AN_CFG_AVG n) from cfg rfl, aio, now]
  cases e : s.on (AN_CFG_CONV n) <;> simp [vs, e, n]

end

/-! ### Fold-back and shunts (R347, R352) -/

theorem exec_foldBack_on (s : State) (c : Fin 6) : Gives (.foldBack c true) s (fun t => t.on (AN_STAT_THERM (c.val + 1)) = true ∧
    (t.aio (c.val + 1)).foldN = 0 ∧ (∀ a, ¬ recPage a → a ≠ (AN_STAT_THERM (c.val + 1)).reg → t.regs.rd a = s.regs.rd a)) := by
  obtain ⟨on, -, only, -⟩ := s.raiseAn_shows (n := c.val + 1) (by decide : 4 < 32) 4
  exact ⟨_, rfl, on, congrArg AioSt.foldN (State.aio_modAio _ _ _), only.2⟩

/-- What a shunt's disconnection shows. -/
theorem State.shuntOff_shows (s : State) (n now code : Nat) (f : AioSt → AioSt) (word : Word) :
    let t := ((((s.modAio n f).p (AN_STAT_OVR n) 1).p (AN_STAT_NSTAT n) 4).showAio n now).notice 0x1D code n word
    (t.aio n).shuntOff = (f (s.aio n)).shuntOff ∧ (t.aio n).shuntAt = (f (s.aio n)).shuntAt ∧ t.on (AN_STAT_OVR n) = true ∧ t.g (AN_STAT_NSTAT n) = 4 ∧
    (∀ a, ¬ recPage a → a ≠ (AN_STAT_OVR n).reg → t.regs.rd a = s.regs.rd a) := by
  have told (u : State) : SameBut u (u.notice 0x1D code n word) := State.notice_same u 0x1D code n word (by decide)
  have page : ¬ recPage (AN_STAT_OVR n).reg := notRec_stat n 5
  obtain ⟨-, off, at_, -⟩ := State.aio_showAio (((s.modAio n f).p (AN_STAT_OVR n) 1).p (AN_STAT_NSTAT n) 4) n now
  rw [State.aio_p, State.aio_p, State.aio_modAio] at off at_
  refine ⟨?_, ?_, ?_, ?_, fun a page own => ?_⟩
  · rw [State.aio, (told _).an]; exact off
  · rw [State.aio, (told _).an]; exact at_
  · rw [State.on, (told _).g (AN_STAT_OVR n) page, State.g_showAio, State.g_p_off _ _ (.inr ⟨(by decide : 12 + 4 ≤ 32), (by decide : 12 + 4 ≤ 5 ∨ 5 + 1 ≤ 12)⟩),
      State.g_p_fits _ ⟨(by decide : 5 + 1 ≤ 32), (by decide : 1 < 2 ^ 1)⟩]
    rfl
  · rw [(told _).g (AN_STAT_NSTAT n) page, State.g_showAio, State.g_p_fits _ ⟨(by decide : 12 + 4 ≤ 32), (by decide : 4 < 2 ^ 4)⟩]
  · have set : OnlyStat n s (((s.modAio n f).p (AN_STAT_OVR n) 1).p (AN_STAT_NSTAT n) 4) :=
      ((s.modAio_onlyStat n f).trans (State.p_onlyStat _ (AN_STAT_OVR n) rfl 1)).trans (State.p_onlyStat _ (AN_STAT_NSTAT n) rfl 4)
    exact ((set.trans (State.showAio_onlyStat _ n now)).trans (.of_same (told _))).2 a page own

/-! ### Jumpers (R348) -/

section
variable (s : State) (n : Nat) (lo hi : Bool)

/-- A channel's jumpers as read. -/
def State.jumpersSet : State := (((s.pb (AN_STAT_JLO n) lo).pb (AN_STAT_JHI n) hi).pb (AN_STAT_JMPERR n) (lo && hi)).effAlarm n

theorem State.jumpersSet_only : OnlyRegs s (s.jumpersSet n lo hi) (regIn [AN_STAT_JLO n]) :=
  (((OnlyRegs.of_p s _ ⟨_, by simp, rfl⟩).pb _ _ ⟨AN_STAT_JLO n, by simp, rfl⟩).pb _ _ ⟨AN_STAT_JLO n, by simp, rfl⟩).pb _ _ ⟨AN_STAT_JLO n, by simp, rfl⟩

theorem State.jumpers_same : SameBut (s.jumpersSet n lo hi) (s.jumpers n lo hi) :=
  SameBut.ite (State.notice_same _ 0x1D 6 n _ (by decide)) (SameBut.refl _)

theorem State.jumpersSet_shows : let t := s.jumpersSet n lo hi
    t.on (AN_STAT_JLO n) = lo ∧ t.on (AN_STAT_JHI n) = hi ∧ t.on (AN_STAT_JMPERR n) = (lo && hi) ∧
    t.on (AN_STAT_ALEFF n) = (!lo && (hi || s.on (AN_CFG_ALHIGH n))) := by
  refine ⟨?_, ?_, ?_, ?_⟩ <;> unfold State.jumpersSet State.effAlarm <;>
    simp (disch := simp [AN_STAT_JLO, AN_STAT_JHI, AN_STAT_JMPERR, AN_STAT_ALEFF, AN_CFG_ALHIGH]) only [State.on_pb_off]
  · exact State.on_pb_same _ (AN_STAT_JLO n) _ (by decide : 6 + 1 ≤ 32) rfl
  · exact State.on_pb_same _ (AN_STAT_JHI n) _ (by decide : 7 + 1 ≤ 32) rfl
  · exact State.on_pb_same _ (AN_STAT_JMPERR n) _ (by decide : 9 + 1 ≤ 32) rfl
  · rw [State.on_pb_same _ (AN_STAT_JLO n) _ (by decide : 6 + 1 ≤ 32) rfl, State.on_pb_same _ (AN_STAT_JHI n) _ (by decide : 7 + 1 ≤ 32) rfl]
    exact State.on_pb_same _ (AN_STAT_ALEFF n) _ (by decide : 8 + 1 ≤ 32) rfl

/-- Another channel's jumpers leave this one's registers alone. -/
theorem State.jumpers_other {k : Nat} (pos : 0 < k) (low : 0 < n) (ne : n ≠ k) :
    (s.jumpers n lo hi).word (AN_STAT_JLO k) = s.word (AN_STAT_JLO k) := by
  have page : ¬ recPage (AN_STAT_JLO k).reg := notRec_stat k 6
  refine ((s.jumpers_same n lo hi).2 _ page).trans ((s.jumpersSet_only n lo hi).2 _ fun ⟨f, mem, e⟩ => ?_)
  rw [List.mem_singleton.1 mem] at e
  simp only [AN_STAT_JLO] at e
  omega

end

/-- Steps that change channels' jumpers and what an event touches. -/
def OnlyJumpers (s t : State) : Prop := OnlyRecords s t (regIn ((List.range 6).map (fun i => AN_STAT_JLO (i + 1))))

theorem OnlyJumpers.refl (s : State) : OnlyJumpers s s := ⟨rfl, fun _ _ _ => rfl⟩

theorem OnlyJumpers.trans {a b c : State} (h : OnlyJumpers a b) (k : OnlyJumpers b c) : OnlyJumpers a c := by
  refine ⟨?_, fun x page own => (k.2 x page own).trans (h.2 x page own)⟩
  rw [k.1, h.1]

theorem State.jumpers_only (s : State) {i : Nat} (lo hi : Bool) (low : i < 6) : OnlyJumpers s (s.jumpers (i + 1) lo hi) :=
  OnlyRegs.record ((s.jumpersSet_only (i + 1) lo hi).mono fun _ ⟨f, mem, e⟩ =>
    ⟨f, List.mem_map.2 ⟨i, List.mem_range.2 low, (List.mem_singleton.1 mem).symm⟩, e⟩) (s.jumpers_same (i + 1) lo hi)

/-- What a reading of every channel's jumpers shows of one. -/
theorem State.jumperRead_shows (s : State) (lo hi : Nat → Bool) {c : Nat} (low : c < 6) :
    let t := (List.range 6).foldl (fun s i => s.jumpers (i + 1) (lo i) (hi i)) s
    t.on (AN_STAT_JLO (c + 1)) = lo c ∧ t.on (AN_STAT_JHI (c + 1)) = hi c ∧ t.on (AN_STAT_JMPERR (c + 1)) = (lo c && hi c) ∧
    t.on (AN_STAT_ALEFF (c + 1)) = (!lo c && (hi c || s.on (AN_CFG_ALHIGH (c + 1)))) ∧ OnlyJumpers s t := by
  intro t
  have steps := foldl_apart (K := fun a b : State => OnlyJumpers a b ∧ b.word (AN_STAT_JLO (c + 1)) = a.word (AN_STAT_JLO (c + 1)))
    (fun a => ⟨.refl a, rfl⟩) (fun h k => ⟨h.1.trans k.1, k.2.trans h.2⟩) (f := fun s i => s.jumpers (i + 1) (lo i) (hi i))
    (List.nodup_range (n := 6)) (List.mem_range.2 low)
    (fun a i mem ne => ⟨a.jumpers_only _ _ (List.mem_range.1 mem), a.jumpers_other _ _ _ (by omega) (by omega) (by omega)⟩) s
  obtain ⟨a, ⟨before, -⟩, after, stat⟩ := steps
  obtain ⟨jlo, jhi, err, eff⟩ := a.jumpersSet_shows (c + 1) (lo c) (hi c)
  have same := a.jumpers_same (c + 1) (lo c) (hi c)
  have reads {f : Fld} (reg : f.reg = (AN_STAT_JLO (c + 1)).reg) : t.on f = (a.jumpersSet (c + 1) (lo c) (hi c)).on f := by
    have word : t.regs.rd f.reg = (a.jumpers (c + 1) (lo c) (hi c)).regs.rd f.reg := by rw [reg]; exact stat
    have page : ¬ recPage f.reg := by rw [reg]; exact notRec_stat (c + 1) 6
    rw [State.on, State.on, State.g, State.g, Regs.g, Regs.g, word, same.2 _ page]
  have cfg : a.on (AN_CFG_ALHIGH (c + 1)) = s.on (AN_CFG_ALHIGH (c + 1)) := by
    have kept := before.2 (AN_CFG_ALHIGH (c + 1)).reg (by unfold recPage; simp only [AN_CFG_ALHIGH]; omega) (by
      rintro ⟨f, mem, e⟩
      obtain ⟨i, -, rfl⟩ := List.mem_map.1 mem
      simp only [AN_CFG_ALHIGH, AN_STAT_JLO] at e
      omega)
    rw [State.on, State.on, State.g, State.g, Regs.g, Regs.g, kept]
  refine ⟨(reads rfl).trans jlo, (reads (f := AN_STAT_JHI (c + 1)) rfl).trans jhi, (reads (f := AN_STAT_JMPERR (c + 1)) rfl).trans err,
    (reads (f := AN_STAT_ALEFF (c + 1)) rfl).trans (eff.trans (by rw [cfg])), ?_⟩
  exact (before.trans (a.jumpers_only _ _ low)).trans after

/-- Nothing but registers and the channels' own states is changed, and of those states one channel's. -/
def OnlyAio (n : Nat) (s t : State) : Prop := t = { s with regs := t.regs, an := t.an } ∧ ∀ k, k ≠ n → t.aio k = s.aio k

theorem OnlyAio.trans {n : Nat} {a b c : State} (h : OnlyAio n a b) (k : OnlyAio n b c) : OnlyAio n a c := by
  refine ⟨?_, fun x ne => (k.2 x ne).trans (h.2 x ne)⟩
  rw [k.1, h.1]

theorem State.aio_of_only {a b : State} {as : Nat → Prop} (h : OnlyRegs a b as) (n : Nat) : b.aio n = a.aio n := by
  rw [State.aio, State.aio, h.1]

theorem OnlyAio.of_only {n : Nat} {a b : State} {as : Nat → Prop} (h : OnlyRegs a b as) : OnlyAio n a b :=
  ⟨by rw [h.1], fun k _ => State.aio_of_only h k⟩

theorem State.modAio_only (s : State) (n : Nat) (f : AioSt → AioSt) : OnlyAio n s (s.modAio n f) := ⟨rfl, fun _ ne => State.aio_modAio_ne _ _ ne⟩

theorem State.showAio_only (s : State) (n start : Nat) : OnlyAio n s (s.showAio n start) := by
  unfold State.showAio
  exact s.modAio_only n _

theorem State.showAio_regs (s : State) (n start : Nat) : (s.showAio n start).regs = s.regs := rfl

/-- A conversion's state before its result is recorded for the images. -/
def State.converted (s : State) (n : Nat) (vs : List Int) (v : Int) (stamp : Nat) : State :=
  ((s.ovrClear n).modAio n (fun x => { x with convs := vs })).resultSet n v stamp

section
variable (s : State) (n : Nat) (vs : List Int) (v : Int) (stamp : Nat)

theorem State.ovrClear_cfg {f : Fld} (reg : f.reg = (AN_CFG_MODE n).reg) : (s.ovrClear n).g f = s.g f :=
  (s.ovrClear_shows n).2.2.g_off (by rw [reg]; simp [AN_CFG_MODE, AN_STAT_OVR])

theorem State.convResult_converted : ((s.ovrClear n).modAio n (fun x => { x with convs := vs })).convResult n v stamp =
    (s.converted n vs v stamp).showAio n (if s.on (AN_CFG_CONV n) then stamp + 3000 else stamp) := by
  have conv : ((s.ovrClear n).modAio n (fun x => { x with convs := vs })).on (AN_CFG_CONV n) = s.on (AN_CFG_CONV n) :=
    congrArg (· == 1) (s.ovrClear_cfg n (f := AN_CFG_CONV n) rfl)
  rw [State.convResult_eq, conv]
  rfl

theorem State.converted_shows : let t := s.converted n vs v stamp
    (t.aio n).convs = vs ∧ t.g (AN_MEAS_VALUE n) = u32 v % 2 ^ 24 ∧ t.g (AN_TS_NS n) = stamp % 2 ^ 32 ∧
    t.g (AN_STAT_NSTAT n) = convStatus (s.g (AN_CFG_MODE n)) v ∧ OnlyAio n s t ∧ RegsKeep s t (regIn (resultFlds n)) := by
  have only := ((s.ovrClear n).modAio n (fun x => { x with convs := vs })).resultSet_only (n := n) v stamp
  have clear := (s.ovrClear_shows n).2
  have mode : ((s.ovrClear n).modAio n (fun x => { x with convs := vs })).g (AN_CFG_MODE n) = s.g (AN_CFG_MODE n) := s.ovrClear_cfg n rfl
  obtain ⟨value, time, status⟩ := ((s.ovrClear n).modAio n (fun x => { x with convs := vs })).resultSet_shows (n := n) v stamp
  have stat {a : Nat} (own : regIn [AN_STAT_OVR n] a) : regIn (resultFlds n) a := by
    obtain ⟨f, mem, rfl⟩ := own
    exact ⟨AN_STAT_NSTAT n, by simp, by rw [List.mem_singleton.1 mem]; rfl⟩
  refine ⟨?_, value, time, status.trans (by rw [mode]), ((OnlyAio.of_only clear).trans (State.modAio_only _ n _)).trans (.of_only only),
    ((clear.2.mono fun _ => stat).of_regs rfl).trans only.2⟩
  exact congrArg AioSt.convs ((State.aio_of_only only n).trans (State.aio_modAio _ _ _))

theorem State.recorded_shows (start : Nat) : let t := (s.converted n vs v stamp).showAio n start
    (t.aio n).convs = vs ∧ t.g (AN_MEAS_VALUE n) = u32 v % 2 ^ 24 ∧ t.g (AN_TS_NS n) = stamp % 2 ^ 32 ∧
    t.g (AN_STAT_NSTAT n) = convStatus (s.g (AN_CFG_MODE n)) v ∧
    (t.aio n).shows.head? = some { start := start, value := t.g (AN_MEAS_VALUE n), status := t.g (AN_STAT_NSTAT n)
                                   stamp := t.g (AN_TS_NS n) + 2 ^ 32 * t.g (AN_TSERA_ERA n) } ∧
    OnlyAio n s t ∧ RegsKeep s t (regIn (resultFlds n)) := by
  obtain ⟨convs, value, time, status, same, keeps⟩ := s.converted_shows n vs v stamp
  generalize s.converted n vs v stamp = u at *
  obtain ⟨kept, -, -, head⟩ := u.aio_showAio n start
  exact ⟨kept.trans convs, value, time, status, head, same.trans (u.showAio_only n start), keeps.of_regs (u.showAio_regs n start)⟩

end

end Sys2Proof.Machine

namespace Sys2Proof.Proofs
open Sys2Proof.Machine Sys2Proof.Safety

/-- Settles O48: conversions, diagnostics, jumpers and shunts row by row. -/
theorem analogueChannels : Obligations.AnalogueChannels := by
  intro s c value stamp m lo hi n x u
  obtain ⟨aio, -, -, reads⟩ := s.ovrClear_same n
  obtain ⟨flags, only⟩ := s.ovrClear_shows n
  have opens : (s.ovrClear n).on (AN_STAT_OPEN n) = s.on (AN_STAT_OPEN n) := flags 0 (by decide) (by decide)
  have limits : (s.ovrClear n).on (AN_STAT_COMPL n) = s.on (AN_STAT_COMPL n) := flags 1 (by decide) (by decide)
  have deliver : (s.ovrClear n).on (AN_STAT_ALNDEL n) = s.on (AN_STAT_ALNDEL n) := flags 3 (by decide) (by decide)
  have sag : (s.ovrClear n).inSag = s.inSag := congrArg (· == 2) (reads FD_STAT_SUPPLY (by simp only [FD_STAT_SUPPLY, AN_STAT_OVR]; omega))
  refine ⟨exec_analogueConversion_kept, fun on settled free => ⟨exec_analogueConversion_noShunt on settled free, fun here =>
    ⟨_, (exec_analogueConversion_done on settled free here).trans (congrArg _ (s.convResult_converted _ _ _ _)), ?converted⟩⟩,
    ⟨(convStatus_current value).1, (convStatus_current value).2.1,
    (convStatus_current value).2.2, (convStatus_voltage value).1, (convStatus_voltage value).2⟩, fun off => if_pos (by simp [n] at off; simp [off]),
    fun output flows => ⟨_, exec_loopDiagnosticMeasurement m output, ?judged⟩, fun output sags => ⟨_, exec_loopDiagnosticMeasurement m output, ?held⟩,
    exec_foldBack_on s c, ⟨_, rfl, ?folded, OnlyRegs.of_p s _ ⟨AN_STAT_THERM n, by simp, rfl⟩⟩, ⟨_, rfl, ?jumper⟩,
    fun input here => ⟨_, if_pos ?input, State.shuntOff_shows s n _ 5 _ _⟩, fun other => if_neg ?other, ⟨_, rfl, State.aio_modAio _ _ _, rfl, ?shunts⟩,
    ⟨_, rfl, State.aio_modAio _ _ _, rfl, ?modes⟩⟩
  case converted =>
    obtain ⟨convs, meas, time, status, head, whole, keeps⟩ := s.recorded_shows n
      (if s.on (AN_CFG_CONV n) then [value] else (value :: x.convs).take (2 ^ s.g (AN_CFG_AVG n)))
      (if s.on (AN_CFG_CONV n) then value else
        intMean (if s.on (AN_CFG_CONV n) then [value] else (value :: x.convs).take (2 ^ s.g (AN_CFG_AVG n)))) (extend s.now stamp)
      (if s.on (AN_CFG_CONV n) then extend s.now stamp + 3000 else extend s.now stamp)
    exact ⟨convs, meas, time, status, head, whole.1, fun j ne => whole.2 _ fun e => ne (Fin.ext (by omega)), keeps⟩
  case judged =>
    obtain ⟨openN, complN, delN, open_, compl, del, rest⟩ := (s.ovrClear n).loopMeasured_shows n m
    simp only [sag, flows, aio, opens, limits, deliver, Bool.false_eq_true, if_false] at openN complN delN open_ compl del
    refine ⟨openN, complN, delN, open_, compl, del, by rw [rest.1, only.1], fun a page own => (rest.2 a page own).trans (only.2 a ?_)⟩
    rintro ⟨f, mem, e⟩
    exact own (by rw [e, List.mem_singleton.1 mem]; rfl)
  case held =>
    obtain ⟨openN, complN, delN, open_, compl, del, -⟩ := (s.ovrClear n).loopMeasured_shows n m
    simp only [sag, sags, if_true] at openN complN delN open_ compl del
    exact ⟨openN, complN, delN, open_.trans opens, compl.trans limits, del.trans deliver⟩
  case folded => exact congrArg (· == 1) (State.g_p_fits s (f := AN_STAT_THERM n) ⟨(by decide : 4 + 1 ≤ 32), (by decide : 0 < 2 ^ 1)⟩)
  case jumper =>
    have level (b : BitVec 6) : bit b.toNat c.val = b.getLsbD c.val := bit_eq_testBit _ _
    obtain ⟨jlo, jhi, err, eff, rest⟩ := s.jumperRead_shows (bit lo.toNat) (bit hi.toNat) c.isLt
    rw [level] at jlo jhi
    rw [level, level] at err eff
    exact ⟨jlo, jhi, err, eff.trans (by cases lo.getLsbD c.val <;> cases hi.getLsbD c.val <;> rfl), rest⟩
  case input => simp [n] at input; simp [input, show (s.aio (c.val + 1)).shuntOff = false from here]
  case other => rcases other with e | e <;> simp_all [n, x]
  case shunts => exact fun j ne => State.aio_modAio_ne _ _ fun e => ne (Fin.ext (by omega))
  case modes => exact fun j ne => State.aio_modAio_ne _ _ fun e => ne (Fin.ext (by omega))

end Sys2Proof.Proofs

/-! SUPPORT. The unit: the lease and the unit's registers through a mode change, the holder's copy (R380 to R401). -/

namespace Sys2Proof.Machine
open Sys2Proof.Safety

/-! ### What a mode change leaves of the unit -/

/-- The addresses of the unit's block. -/
def unitPage (a : Nat) : Prop := a / 0x10000 = 0x4004

/-- The lease, the act time and the unit's registers are the same in both states. -/
structure UnitLasts (s t : State) : Prop where
  lease : t.un.lease = s.un.lease
  actAt : t.un.actAt = s.un.actAt
  fld : ∀ f : Fld, unitPage f.reg → t.g f = s.g f

theorem UnitLasts.refl (s : State) : UnitLasts s s := ⟨rfl, rfl, fun _ _ => rfl⟩

theorem UnitLasts.trans {a b c : State} (h : UnitLasts a b) (k : UnitLasts b c) : UnitLasts a c :=
  ⟨k.lease.trans h.lease, k.actAt.trans h.actAt, fun f page => (k.fld f page).trans (h.fld f page)⟩

theorem UnitLasts.ite {s a b : State} {p : Prop} [Decidable p] (ha : UnitLasts s a) (hb : UnitLasts s b) : UnitLasts s (if p then a else b) := by
  split <;> assumption

theorem UnitLasts.foldl {α : Type} {s t : State} {f : State → α → State} (l : List α) (hf : ∀ t x, x ∈ l → UnitLasts s t → UnitLasts s (f t x))
    (h : UnitLasts s t) : UnitLasts s (l.foldl f t) := List.foldlRecOn l f h fun _ k x mem => hf _ x mem k

theorem UnitLasts.upd {s t u : State} (h : UnitLasts s t) (regs : u.regs = t.regs) (lease : u.un.lease = t.un.lease) (actAt : u.un.actAt = t.un.actAt) :
    UnitLasts s u := h.trans ⟨lease, actAt, fun f _ => by rw [State.g, regs, State.g]⟩

theorem UnitLasts.of_only {s t : State} {as : Nat → Prop} (h : OnlyRegs s t as) (off : ∀ a, as a → ¬ unitPage a) : UnitLasts s t :=
  ⟨by rw [h.1], by rw [h.1], fun _ page => h.g fun mem => off _ mem page⟩

theorem UnitLasts.of_same {s t : State} (h : SameBut s t) : UnitLasts s t :=
  ⟨by rw [h.un], by rw [h.un], fun f page => h.g f fun rec_ => by unfold unitPage at page; unfold recPage at rec_; omega⟩

theorem UnitLasts.p {s t : State} (h : UnitLasts s t) (f : Fld) (v : Nat) (off : ¬ unitPage f.reg) : UnitLasts s (t.p f v) :=
  h.trans ⟨rfl, rfl, fun _ page => State.g_p_reg _ _ fun e => off (e ▸ page)⟩

theorem UnitLasts.of_lanePage {s t : State} (h : OnlyRegs s t lanePage) : UnitLasts s t :=
  .of_only h fun a lane => by unfold lanePage at lane; unfold unitPage; omega

theorem UnitLasts.of_fieldPage {s t : State} (h : OnlyRegs s t fieldPage) : UnitLasts s t :=
  .of_only h fun a field => by unfold fieldPage at field; unfold unitPage; omega

theorem State.levels_unitLasts (s : State) : UnitLasts s s.levels := by
  have shown : UnitLasts s (s.p VX_LANES_LEVEL s.level) := (UnitLasts.refl s).p _ _ (by unfold unitPage; decide)
  have lanes : UnitLasts s ([0, 1, 2, 3].foldl (fun (t : State) l => t.p (VX_LSTAT_LEVEL l) s.level) (s.p VX_LANES_LEVEL s.level)) :=
    UnitLasts.foldl _ (fun t l _ h => h.p _ _ (by unfold unitPage; show ¬ (laneBase l + 0x60000 + 0) / 0x10000 = 0x4004; unfold laneBase; omega)) shown
  exact lanes.p _ _ (by unfold unitPage; decide)

theorem State.imageResponse_unitLasts (s : State) (hdr : List Byte) (status : Nat) (payload : List Byte) : UnitLasts s (s.imageResponse hdr status payload) :=
  (UnitLasts.refl s).upd rfl rfl rfl

theorem UnitLasts.respond {s t : State} (h : UnitLasts s t) {chans : List Nat} (low : ∀ c ∈ chans, c < 7) (hdr cmd : List Byte) (status : Nat)
    (payload : List Byte) : UnitLasts s (t.respond chans hdr cmd status payload) := by
  refine h.trans ?_
  unfold State.respond
  refine UnitLasts.ite (UnitLasts.refl t) ?_
  refine UnitLasts.ite (UnitLasts.trans ?recorded (UnitLasts.of_same (State.notice_same _ _ _ _ _ (by decide)))) ?recorded
  refine UnitLasts.ite (UnitLasts.trans ?placed (UnitLasts.of_same (State.recordEv_same (SameBut.refl _) _))) ?placed
  refine UnitLasts.ite (UnitLasts.trans ?answered (State.imageResponse_unitLasts _ _ _ _)) ?answered
  exact .of_same (SameBut.foldl _ (fun _ c k mem => k.respondOn (Nat.le_of_lt_succ (low c mem)) _ _ _) (SameBut.refl t))

theorem State.giveUp_unitLasts (s : State) (w : Waiting) : UnitLasts s (s.giveUp w) := by
  have freed := (show UnitLasts s { s with waiting := none } from (UnitLasts.refl s).upd rfl rfl rfl).trans (.of_lanePage (State.uninhibit_only _))
  exact UnitLasts.ite (freed.upd rfl rfl rfl) freed

theorem State.dropChan_unitLasts (s : State) (c : Nat) : UnitLasts s (s.dropChan c) := by
  have waits : UnitLasts s (s.waitDropped c) := by
    unfold State.waitDropped
    split
    · exact UnitLasts.ite (UnitLasts.refl s) (UnitLasts.ite ((UnitLasts.refl s).upd rfl rfl rfl) (s.giveUp_unitLasts _))
    · exact UnitLasts.refl s
  unfold State.dropChan
  exact UnitLasts.ite (UnitLasts.refl s) (waits.upd rfl rfl rfl)

theorem State.closeChan_unitLasts (s : State) {c : Nat} (low : c < 7) : UnitLasts s (s.closeChan c) := by
  have page (k : Nat) (small : k < 0x1000) : ¬ unitPage (0x40080000 + 0x1000 * c + k) := by unfold unitPage; omega
  have wiped : UnitLasts s { s.dropChan c with mb := (s.dropChan c).mb.wipe (0x1000 * c) (0x1000 * c + 0x1000) } := (s.dropChan_unitLasts c).upd rfl rfl rfl
  have zeroed : UnitLasts s (s.zeroChan c) := by
    unfold State.zeroChan
    exact ((((((wiped.p _ 0 (page 0xC10 (by decide))).p _ 0 (page 0xC14 (by decide))).p _ 0 (page 0xC18 (by decide))).p _ 0 (page 0xC04 (by decide))).p _ 0
      (page 0xC04 (by decide))).p _ 0 (page 0xC18 (by decide))).p _ 0 (page 0xC04 (by decide))
  exact (zeroed.p _ 0 (page 0xC04 (by decide))).p _ 0 (page 0xC04 (by decide))

theorem State.chanGates_unitLasts (s : State) : UnitLasts s s.chanGates := by
  refine UnitLasts.foldl _ (fun t c mem h => ?_) (UnitLasts.refl s)
  have low : c < 7 := by simp only [List.mem_cons, List.not_mem_nil, or_false] at mem; omega
  have page : ¬ unitPage (0x40080000 + 0x1000 * c + 0xC04) := by unfold unitPage; omega
  exact UnitLasts.ite h (UnitLasts.ite ((h.p _ 1 page).p _ _ page) (h.trans (t.closeChan_unitLasts low)))

theorem State.abortWaiting_unitLasts (s : State) : UnitLasts s s.abortWaiting := by
  unfold State.abortWaiting
  split
  · exact UnitLasts.refl s
  · exact UnitLasts.ite (UnitLasts.refl s) ((s.giveUp_unitLasts _).respond (chans_lt _) _ _ _ _)

theorem State.endLoop_unitLasts (s : State) : UnitLasts s s.endLoop := by
  have ended : UnitLasts s s.loopEnded := (UnitLasts.refl s).upd rfl rfl rfl
  unfold State.endLoop
  split
  · exact UnitLasts.refl s
  · exact UnitLasts.respond (ended.trans (UnitLasts.ite (.of_fieldPage (State.driveOutputs_only _)) (UnitLasts.refl _))) (chans_lt _) _ _ _ _

theorem State.markForce_unitLasts (s : State) (id : Nat) : UnitLasts s (s.markForce id) :=
  UnitLasts.foldl _ (fun _ _ _ h => h.upd rfl rfl rfl) (UnitLasts.refl s)

theorem State.unforce_unitLasts (s : State) (f : Force) : UnitLasts s (s.unforce f) := by
  unfold State.unforce
  split
  · exact (UnitLasts.refl s).upd rfl rfl rfl
  · exact UnitLasts.refl s

theorem State.removeForces_unitLasts (s : State) (fs : List Force) (cause : Nat) : UnitLasts s (s.removeForces fs cause) := by
  have dropped (t : State) : UnitLasts t (t.forcesDropped fs) := (UnitLasts.refl t).upd rfl rfl rfl
  have noted : UnitLasts s (s.forcesMarked fs cause) :=
    UnitLasts.foldl fs (fun t _ _ h => h.trans (.of_same (State.recordEv_same (SameBut.refl t) _)))
      (UnitLasts.foldl fs (fun t f _ h => h.trans ((t.markForce_unitLasts f.id).trans (State.unforce_unitLasts _ f)))
      (UnitLasts.refl s))
  rw [s.removeForces_eq fs cause]
  exact noted.trans ((dropped _).trans (.of_lanePage (State.predValid_only _)))

theorem State.modeShown_unitLasts (s : State) (m old row : Nat) : UnitLasts s (s.modeShown m old row) :=
  (((UnitLasts.refl s).p _ _ (by unfold unitPage; decide)).p _ _ (by unfold unitPage; decide)).p _ _ (by unfold unitPage; decide)

/-- A mode change leaves the lease and the unit's registers (R420). -/
theorem State.setMode_unitLasts (s : State) (m row : Nat) : UnitLasts s (s.setMode m row) := by
  have left : UnitLasts s s.modeLeft := UnitLasts.ite (s.removeForces_unitLasts _ 1) (UnitLasts.refl s)
  have after (t : State) : UnitLasts t t.levels.chanGates.abortWaiting.endLoop :=
    t.levels_unitLasts.trans ((State.chanGates_unitLasts _).trans ((State.abortWaiting_unitLasts _).trans (State.endLoop_unitLasts _)))
  rw [s.setMode_eq m row]
  exact ((left.trans (State.modeShown_unitLasts _ _ _ _)).trans (after _)).trans (.of_same (State.event_same (SameBut.refl _) 1 _))

/-! ### The act time and the lease's end (R380, R387, R397) -/

theorem State.driveOutputs_unitLasts (s : State) : UnitLasts s s.driveOutputs := .of_fieldPage s.driveOutputs_only

/-- The lease taken at the act time. -/
def State.leaseTaken (s : State) (n t l : Nat) : State :=
  { s.p UN_LEASE_NS l with un := { s.un with lease := some l, lastAct := t, isoUnit := false, lseq := n, curRen := some n, prevRen := none, prevRen2 := none
                                             synced := true, resyncing := false } }

/-- A module at its act time, in Active and before it is ungated. -/
def State.acts (s : State) (n t l : Nat) : State := (((s.inc UN_TAKEOVER_COUNT).p UN_LSEQ_LSEQ n).leaseTaken n t l).p UN_STAT_RSYNC 0

/-- A grant forgotten. -/
def State.noGrant (s : State) : State := { s with un := { s.un with actAt := none } }

theorem exec_actTime {s : State} {t l : Nat} (granted : s.un.actAt = some (t, l)) (due : t ≤ s.now) (may : s.mode = mHotStandby ∨ s.mode = mIsolated) :
    exec .actTime s = .next (((s.noGrant.setMode mActive 0x1F).acts ((s.un.lseq + 1) % 2 ^ 32) t l).ungate.event 5
      { source := 0x0204, code := 1, cls := 0xFF, data := leBytes 4 s.un.lseq ++ leBytes 4 (t % 2 ^ 32) }) := by
  show execActTime s = _
  rw [execActTime, granted]
  exact (if_neg (Nat.not_lt.2 due)).trans (if_neg (show ¬ (!(s.mode == mHotStandby || s.mode == mIsolated)) = true by
    rcases may with e | e <;> simp [e]))

section
variable (s : State) {n : Nat} (t l : Nat)

theorem State.acts_un : (s.acts n t l).un = { s.un with lease := some l, lastAct := t, isoUnit := false, lseq := n, curRen := some n, prevRen := none
                                                        prevRen2 := none, synced := true, resyncing := false } := rfl

theorem State.acts_shows (short : n < 2 ^ 32) : let u := s.acts n t l
    u.mode = s.mode ∧ u.g UN_LSEQ_LSEQ = n ∧ u.g UN_LEASE_NS = l % 2 ^ 32 ∧
    u.g UN_TAKEOVER_COUNT = (s.g UN_TAKEOVER_COUNT + 1) % 2 ^ UN_TAKEOVER_COUNT.w ∧ u.on UN_STAT_RSYNC = false := by
  have taken (a : State) (k : Nat) (f : Fld) (off : f.reg ≠ UN_LEASE_NS.reg) : (a.leaseTaken k t l).g f = a.g f := State.g_p_reg a l off
  have rsync (a : State) {f : Fld} (off : f.reg ≠ UN_STAT_RSYNC.reg) : (a.p UN_STAT_RSYNC 0).g f = a.g f := State.g_p_reg a 0 off
  refine ⟨?_, ?_, ?_, ?_, congrArg (· == 1) (State.g_p_fits _ ⟨by decide, by decide⟩)⟩
  · exact (rsync _ (by decide)).trans ((taken _ n LC_MODE_MODE (by decide)).trans ((State.g_p_reg _ _ (by decide)).trans (State.g_p_reg _ _ (by decide))))
  · exact (rsync _ (by decide)).trans ((taken _ n _ (by decide)).trans (State.g_p_fits _ ⟨by decide, short⟩))
  · exact (rsync _ (by decide)).trans (State.g_p_same ((s.inc UN_TAKEOVER_COUNT).p UN_LSEQ_LSEQ n) UN_LEASE_NS l (by decide))
  · exact (rsync _ (by decide)).trans ((taken _ n _ (by decide)).trans ((State.g_p_reg _ _ (by decide)).trans (State.g_inc_same s (by decide))))

end

/-- Ungating changes `HOLD` and what the outputs show (R380). -/
theorem State.ungate_shows (s : State) : s.ungate.on UN_STAT_HOLD = true ∧ s.ungate.un = s.un ∧
    ∀ f : Fld, f.reg / 0x10000 < 0x6000 → f.reg ≠ UN_STAT_HOLD.reg ∨ 1 ≤ f.lo → s.ungate.g f = s.g f := by
  have only := State.driveOutputs_only (s.p UN_STAT_HOLD 1)
  have reads {f : Fld} (low : f.reg / 0x10000 < 0x6000) : (s.p UN_STAT_HOLD 1).driveOutputs.g f = (s.p UN_STAT_HOLD 1).g f :=
    only.g (by unfold fieldPage; omega)
  rw [show s.ungate = (s.p UN_STAT_HOLD 1).driveOutputs from rfl]
  refine ⟨?_, by rw [only.1]; rfl, fun f low off => (reads low).trans (State.g_p_off _ _ (off.imp_right fun high => ⟨by decide, .inl high⟩))⟩
  rw [State.on, reads (by decide), State.g_p_fits _ ⟨by decide, by decide⟩]
  rfl

/-- What a module that takes the Light over shows, `s` being the state before its mode, `x` the one in Active. -/
structure TakenOver (s x : State) (n t l : Nat) (u : State) : Prop where
  mode : u.mode = x.mode
  hold : u.on UN_STAT_HOLD = true
  un : u.un = { x.un with lease := some l, lastAct := t, isoUnit := false, lseq := n, curRen := some n, prevRen := none, prevRen2 := none
                          synced := true, resyncing := false }
  lseq : u.g UN_LSEQ_LSEQ = n
  lease : u.g UN_LEASE_NS = l % 2 ^ 32
  count : u.g UN_TAKEOVER_COUNT = (s.g UN_TAKEOVER_COUNT + 1) % 2 ^ UN_TAKEOVER_COUNT.w
  rsync : u.on UN_STAT_RSYNC = false

theorem State.ungated_takenOver (x : State) {n : Nat} (t l : Nat) (short : n < 2 ^ 32) : TakenOver x x n t l (x.acts n t l).ungate := by
  obtain ⟨mode, lseq, lease, takes, rsync⟩ := x.acts_shows t l short
  obtain ⟨hold, un, reads⟩ := (x.acts n t l).ungate_shows
  exact ⟨(reads LC_MODE_MODE (by decide) (.inl (by decide))).trans mode, hold, un.trans (x.acts_un t l),
    (reads _ (by decide) (.inl (by decide))).trans lseq, (reads _ (by decide) (.inl (by decide))).trans lease,
    (reads _ (by decide) (.inl (by decide))).trans takes, (congrArg (· == 1) (reads UN_STAT_RSYNC (by decide) (.inr (by decide)))).trans rsync⟩

theorem TakenOver.told {s x u v : State} {n t l : Nat} (h : TakenOver s x n t l u) (told : SameBut u v) : TakenOver s x n t l v := by
  have unit {f : Fld} (page : f.reg / 0x10000 = 0x4004) : v.g f = u.g f := told.g f (by unfold recPage; omega)
  exact ⟨(told.g LC_MODE_MODE (by unfold recPage; decide)).trans h.mode, (congrArg (· == 1) (unit rfl)).trans h.hold, told.un.trans h.un,
    (unit rfl).trans h.lseq, (unit rfl).trans h.lease, (unit rfl).trans h.count, (congrArg (· == 1) (unit rfl)).trans h.rsync⟩

theorem TakenOver.counted {s x u : State} {n t l : Nat} (h : TakenOver x x n t l u) (count : x.g UN_TAKEOVER_COUNT = s.g UN_TAKEOVER_COUNT) :
    TakenOver s x n t l u :=
  ⟨h.mode, h.hold, h.un, h.lseq, h.lease, h.count.trans (by rw [count]), h.rsync⟩

/-- A module that takes the Light over (R387, R398). -/
theorem State.takesOver_shows {s x : State} {n : Nat} (t l : Nat) (short : n < 2 ^ 32) (e : EvIn)
    (count : x.g UN_TAKEOVER_COUNT = s.g UN_TAKEOVER_COUNT) : TakenOver s x n t l ((x.acts n t l).ungate.event 5 e) :=
  have told := State.event_same (SameBut.refl (x.acts n t l).ungate) 5 e
  ((x.ungated_takenOver t l short).told told).counted count

/-! ### The lease's end (R380, R386, R397) -/

/-- The event of a Light given to the partner. -/
def State.lightGiven (s : State) : State :=
  s.event 5 { source := 0x0204, code := 2, cls := 0xFF, data := leBytes 4 s.un.lseq ++ leBytes 4 (s.un.lastAct % 2 ^ 32) }

/-- A unit module's isolation noted (R393). -/
def State.isoNoted (s : State) (code : Nat) (f : Fld) : State :=
  ({ s with un := { s.un with isoUnit := true } } : State).notice 0x21 code 0 (s.word f)

theorem State.isoNoted_shows (s : State) (code : Nat) (f : Fld) : (s.isoNoted code f).mode = s.mode ∧ (s.isoNoted code f).un.isoUnit = true ∧
    UnitLasts s (s.isoNoted code f) := by
  have told := State.notice_same { s with un := { s.un with isoUnit := true } } 0x21 code 0 (s.word f) (by decide)
  have set : UnitLasts s { s with un := { s.un with isoUnit := true } } := (UnitLasts.refl s).upd rfl rfl rfl
  exact ⟨told.g LC_MODE_MODE (by unfold recPage; decide), congrArg UnSt.isoUnit told.un, set.trans (.of_same told)⟩

theorem State.torqueOff_unitLasts (s : State) {n : Nat} (drive : n = 1 ∨ n = 2) (cause : Nat) : UnitLasts s (s.torqueOff n cause) := by
  by_cases off : s.g (SF_DRVSTAT_STATE n) = 0
  · rw [State.torqueOff_off off]; exact UnitLasts.refl s
  · have rest : UnitLasts s (s.encRest n) := by rw [s.encRest_eq n]; exact (UnitLasts.refl s).upd rfl rfl rfl
    have lost : UnitLasts (s.encRest n) ((s.encRest n).torqueLost n cause) := .of_only (State.torqueLost_only _ _ _) fun a mem => by
      rcases drive with rfl | rfl <;>
        (simp only [torqueFlds, regIn_cons, not_regIn_nil, or_false] at mem; rcases mem with rfl | rfl <;> (unfold unitPage; decide))
    exact (rest.trans lost).trans (.of_same (State.torqueOff_same off cause))

/-- The outputs are gated (R380). -/
theorem State.gate_gated (s : State) : s.gate.gated = true := by
  by_cases already : s.gated = true
  · rw [State.gate, if_pos already]; exact already
  · rw [State.gate, if_neg already]
    have after : UnitLasts (s.p UN_STAT_HOLD 0) s.gateFault :=
      ((State.torqueOff_unitLasts _ (.inl rfl) 6).trans (State.torqueOff_unitLasts _ (.inr rfl) 6)).trans (State.driveOutputs_unitLasts _)
    rw [State.gated, State.on, after.fld UN_STAT_HOLD rfl, State.g_p_fits _ ⟨by decide, by decide⟩]
    rfl

theorem UnitLasts.gated {s t : State} (h : UnitLasts s t) : t.gated = s.gated := by
  rw [State.gated, State.gated, State.on, State.on, h.fld UN_STAT_HOLD rfl]

theorem State.leaveLight_gated (s : State) : s.leaveLight.gated = s.gated := congrArg (fun v => !(v == 1)) (State.g_p_reg s 0 (by decide))

section
variable {s : State} {e : Nat} (lease : s.un.lease = some e)
include lease

theorem exec_leaseEnd_early (early : s.mode ≠ mActive ∨ s.now + 500 < e) : exec .leaseEnd s = .next s := by
  show execLeaseEnd s = _
  rw [execLeaseEnd, lease]
  exact if_pos (by simpa using early)

variable (active : s.mode = mActive)
include active

theorem exec_leaseEnd_gates (near : e ≤ s.now + 500) (before : s.now < e) : exec .leaseEnd s = .next s.gate := by
  show execLeaseEnd s = _
  rw [execLeaseEnd, lease]
  exact (if_neg (by simp [active, near])).trans (if_pos before)

variable (ended : e ≤ s.now)
include ended

/-- At the lease's end: to Isolated, or where a handover or a park leads. -/
theorem exec_leaseEnd_isolates (dest : s.un.leaveTo = none) :
    exec .leaseEnd s = .next ((s.gate.leaveLight.setMode mIsolated 0x1F).isoNoted 0x0001 UN_STAT_HOLD) := by
  show execLeaseEnd s = _
  rw [execLeaseEnd, lease]
  exact (if_neg (by simp [active]; omega)).trans ((if_neg (Nat.not_lt.2 ended)).trans (by rw [dest]; rfl))

theorem exec_leaseEnd_standsBy (dest : s.un.leaveTo = some 6) :
    exec .leaseEnd s = .next (s.gate.leaveLight.setMode mHotStandby 0x1F).lightGiven := by
  show execLeaseEnd s = _
  rw [execLeaseEnd, lease]
  exact (if_neg (by simp [active]; omega)).trans ((if_neg (Nat.not_lt.2 ended)).trans (by rw [dest]; rfl))

theorem exec_leaseEnd_parks (dest : s.un.leaveTo = some 10) : exec .leaseEnd s = .next (s.gate.leaveLight.parkNow 17) := by
  show execLeaseEnd s = _
  rw [execLeaseEnd, lease]
  exact (if_neg (by simp [active]; omega)).trans ((if_neg (Nat.not_lt.2 ended)).trans (by rw [dest]; rfl))

end

/-- What the holder left behind stays so through the change of mode. -/
theorem State.leftLight (s : State) (m : Nat) :
    (s.gate.leaveLight.setMode m 0x1F).gated = true ∧ (s.gate.leaveLight.setMode m 0x1F).un.lease = none := by
  have unit := s.gate.leaveLight.setMode_unitLasts m 0x1F
  exact ⟨unit.gated.trans ((State.leaveLight_gated _).trans s.gate_gated), unit.lease⟩

/-! ### The holder's copy (R396) -/

theorem State.laneCopy_lane (s : State) (cells : List (Nat × Byte)) (l : Nat) :
    ((s.laneCopy cells l).lane l).mem = cells.foldl (fun (m : Mem) e => m.wr e.1 e.2) (s.lane l).mem := by
  simp [State.laneCopy]

theorem State.laneCopy_other (s : State) (cells : List (Nat × Byte)) {l j : Nat} (hl : l < 4) (hj : j < 4) (ne : j ≠ l) :
    (s.laneCopy cells l).lane j = s.lane j := by
  rw [State.laneCopy, State.lane_modLane_ne _ _ hl hj ne, State.lane_modLane_ne _ _ hl hj ne]

theorem State.laneCopy_same (s : State) (cells : List (Nat × Byte)) (l : Nat) :
    (s.laneCopy cells l).app = s.app ∧ (s.laneCopy cells l).regs = s.regs := by
  simp [State.laneCopy]

/-- The holder's windows in every lane in service. -/
def State.lanesCopied (s : State) (cells : List (Nat × Byte)) : State := s.liveLanes.foldl (fun (s : State) l => s.laneCopy cells l) s

theorem State.lanesCopied_same (s : State) (cells : List (Nat × Byte)) : (s.lanesCopied cells).app = s.app ∧ (s.lanesCopied cells).regs = s.regs :=
  List.foldlRecOn s.liveLanes _ (motive := fun t : State => t.app = s.app ∧ t.regs = s.regs) ⟨rfl, rfl⟩ fun t kept l _ =>
    ⟨(t.laneCopy_same cells l).1.trans kept.1, (t.laneCopy_same cells l).2.trans kept.2⟩

theorem State.lanesCopied_live (s : State) (cells : List (Nat × Byte)) {j : Nat} (live : j ∈ s.liveLanes) :
    ((s.lanesCopied cells).lane j).mem = cells.foldl (fun (m : Mem) e => m.wr e.1 e.2) (s.lane j).mem := by
  have nodup : s.liveLanes.Nodup := List.Nodup.filter _ (by decide)
  obtain ⟨a, before, after⟩ := foldl_apart (K := fun t u : State => u.lane j = t.lane j) (fun _ => rfl) (fun h k => k.trans h)
    (f := fun s l => s.laneCopy cells l) nodup live
    (fun t l mem ne => t.laneCopy_other cells (State.mem_liveLanes_lt mem) (State.mem_liveLanes_lt live) (Ne.symm ne)) s
  exact (congrArg LaneSt.mem after).trans ((a.laneCopy_lane cells j).trans (by rw [before]))

theorem State.lanesCopied_other (s : State) (cells : List (Nat × Byte)) {j : Nat} (low : j < 4) (out : j ∉ s.liveLanes) :
    (s.lanesCopied cells).lane j = s.lane j :=
  List.foldlRecOn s.liveLanes _ (motive := fun t : State => t.lane j = s.lane j) rfl fun t kept _ mem =>
    (t.laneCopy_other cells (State.mem_liveLanes_lt mem) low fun e => out (e ▸ mem)).trans kept

/-- The part of a copy that no lane and no task holds: retained memory, the anchor, the connections. -/
def State.copyBase (s : State) (u : UnitCopy) : State :=
  let ret := u.retained.foldl (fun (m : Mem) e => m.wr e.1 e.2) s.app.retMem
  { s with app := { s.app with retMem := ret, retCrc := crcTable ret, anchor := some u.anchor }
           sc := { s.sc with rx := u.rx.foldl (fun r e => tabSet (fun _ => {}) r e.1 { (tabGet (fun _ => {}) r e.1 : RxSt) with
                     accepted := true, sLast := e.2.1, out := e.2.2.1, outT := e.2.2.2 }) s.sc.rx } }

/-- The grid of the tasks. -/
def State.copyGrid (s : State) (u : UnitCopy) : State := u.next.foldl (fun (s : State) e => s.modTask e.1.val (fun x => { x with next := e.2 })) s

/-- The images of the tasks' current cycles. -/
def State.copyImages (s : State) (u : UnitCopy) : State :=
  u.images.foldl (fun (s : State) e => s.modTask e.1.val (fun x => { x with img := e.2.foldl (fun (m : Mem) c => m.wr c.1 c.2) x.img })) s

/-- The parts of a copy after the lanes'. -/
def State.copyRest (s : State) (u : UnitCopy) : State := ((s.copyBase u).copyGrid u).copyImages u

theorem State.takeCopy_eq (s : State) (u : UnitCopy) : s.takeCopy u = (s.lanesCopied u.windows).copyRest u := rfl

/-- What the tasks' part of a copy leaves alone. -/
def BesideTasks (s t : State) : Prop :=
  t.app.anchor = s.app.anchor ∧ t.app.retMem = s.app.retMem ∧ (∀ j, t.lane j = s.lane j) ∧ t.regs = s.regs

theorem BesideTasks.copyGrid {s t : State} (h : BesideTasks s t) (u : UnitCopy) : BesideTasks s (t.copyGrid u) :=
  List.foldlRecOn u.next _ (motive := BesideTasks s) h fun _ kept _ _ => kept

theorem BesideTasks.copyImages {s t : State} (h : BesideTasks s t) (u : UnitCopy) : BesideTasks s (t.copyImages u) :=
  List.foldlRecOn u.images _ (motive := BesideTasks s) h fun _ kept _ _ => kept

theorem State.copyRest_shows (s : State) (u : UnitCopy) : (s.copyRest u).app.anchor = some u.anchor ∧
    (s.copyRest u).app.retMem = u.retained.foldl (fun (m : Mem) e => m.wr e.1 e.2) s.app.retMem ∧ (∀ j, (s.copyRest u).lane j = s.lane j) ∧
    (s.copyRest u).regs = s.regs := by
  have base : BesideTasks (s.copyBase u) (s.copyBase u) := ⟨rfl, rfl, fun _ => rfl, rfl⟩
  obtain ⟨anchor, ret, lanes, regs⟩ := (base.copyGrid u).copyImages u
  exact ⟨anchor, ret, lanes, regs⟩

/-- The holder's copy taken (R396). -/
theorem State.takeCopy_shows (s : State) (u : UnitCopy) : let a := s.takeCopy u
    a.app.anchor = some u.anchor ∧ a.app.retMem = u.retained.foldl (fun (m : Mem) e => m.wr e.1 e.2) s.app.retMem ∧
    (∀ j ∈ s.liveLanes, (a.lane j).mem = u.windows.foldl (fun (m : Mem) e => m.wr e.1 e.2) (s.lane j).mem) ∧
    (∀ j < 4, j ∉ s.liveLanes → a.lane j = s.lane j) ∧ a.regs = s.regs := by
  obtain ⟨app, regs⟩ := s.lanesCopied_same u.windows
  obtain ⟨anchor, ret, lanes, kept⟩ := (s.lanesCopied u.windows).copyRest_shows u
  rw [s.takeCopy_eq u]
  exact ⟨anchor, ret.trans (by rw [app]), fun j live => (congrArg LaneSt.mem (lanes j)).trans (s.lanesCopied_live _ live),
    fun j low out => (lanes j).trans (s.lanesCopied_other _ low out), kept.trans regs⟩

/-- The end of a returning module's copy (R396). -/
def State.copyEnded (s : State) : State :=
  let s := { s with un := { s.un with synced := true, resyncing := false } }
  let s := (s.p UN_STAT_RSYNC 0).p UN_HEALTH_CHECKS (s.g UN_HEALTH_CHECKS ||| 64)
  s.p UN_HEALTH_ELIG s.elig

theorem State.copyEnded_shows (s : State) : let u := s.copyEnded
    u.un.synced = true ∧ u.un.resyncing = false ∧ u.on UN_STAT_RSYNC = false ∧ u.g UN_HEALTH_CHECKS = s.g UN_HEALTH_CHECKS ||| 64 ∧
    RegsKeep s u (regIn [UN_STAT_RSYNC, UN_HEALTH_CHECKS, UN_HEALTH_ELIG]) ∧ u = { s with regs := u.regs, un := u.un } := by
  have small : s.g UN_HEALTH_CHECKS ||| 64 < 2 ^ 16 := Nat.or_lt_two_pow (s.g_lt UN_HEALTH_CHECKS) (by decide)
  refine ⟨rfl, rfl, ?_, ?_, ?_, rfl⟩
  · refine congrArg (· == 1) ((State.g_p_reg _ _ (by decide)).trans ((State.g_p_reg _ _ (by decide)).trans (State.g_p_fits _ ⟨by decide, by decide⟩)))
  · exact (State.g_p_off _ _ (by decide)).trans (State.g_p_fits _ ⟨by decide, small⟩)
  · exact ((((RegsKeep.refl s _).p UN_STAT_RSYNC 0 ⟨_, by simp, rfl⟩).p UN_HEALTH_CHECKS (s.g UN_HEALTH_CHECKS ||| 64) ⟨_, by simp, rfl⟩).of_regs rfl).p _ _
      ⟨UN_HEALTH_ELIG, by simp, rfl⟩

/-- One round of the copy: what the holder gives is taken. -/
def State.copyRound (s : State) : State := ({ s with free := s.free + 1 } : State).takeCopy (Config.unitCopy s.free)

theorem State.copyRound_regs (s : State) : s.copyRound.regs = s.regs :=
  (({ s with free := s.free + 1 } : State).takeCopy_shows (Config.unitCopy s.free)).2.2.2.2

section
variable {s : State} (standby : s.mode = mHotStandby) (syncing : s.un.resyncing = true)
include standby syncing

theorem exec_unitResyncComplete_same (same : s.copyRound.sameDigests (Config.unitCopy s.free) = true) :
    exec .unitResyncComplete s = .next s.copyRound.copyEnded :=
  (if_pos (by simp [standby, syncing])).trans (if_neg (by show ¬ (!s.copyRound.sameDigests (Config.unitCopy s.free)) = true; simp [same]))

theorem exec_unitResyncComplete_differs (differs : s.copyRound.sameDigests (Config.unitCopy s.free) = false) :
    exec .unitResyncComplete s = .next s.copyRound :=
  (if_pos (by simp [standby, syncing])).trans (if_pos (show (!s.copyRound.sameDigests (Config.unitCopy s.free)) = true by simp [differs]))

end

/-- The three fields that show the partner's health record. -/
def State.partnerShown (s : State) (h : Health) : State :=
  ((s.p UN_PHEALTH_CHECKS h.checks).p UN_PHEALTH_ELIG h.elig).pb UN_STAT_PELIG (bit h.elig 0)

theorem State.partnerHealth_eq (s : State) (h : Health) :
    s.partnerHealth h = { s.partnerShown h with un := { (s.partnerShown h).un with partner := some h } } := rfl

theorem State.partnerShown_shows (s : State) (h : Health) : let u := s.partnerShown h
    u.g UN_PHEALTH_CHECKS = h.checks % 2 ^ UN_PHEALTH_CHECKS.w ∧ u.on UN_STAT_PELIG = bit h.elig 0 ∧
    OnlyRegs s u (regIn [UN_PHEALTH_CHECKS, UN_STAT_PELIG]) := by
  refine ⟨?_, State.on_pb_same _ UN_STAT_PELIG _ (by decide) rfl, ?_⟩
  · exact (State.g_pb_off _ _ (by decide)).trans ((State.g_p_off _ _ (by decide)).trans (State.g_p_same _ _ _ (by decide)))
  · exact ((OnlyRegs.of_p s h.checks ⟨UN_PHEALTH_CHECKS, by simp, rfl⟩).p UN_PHEALTH_ELIG h.elig ⟨UN_PHEALTH_CHECKS, by simp, rfl⟩).pb UN_STAT_PELIG _
      ⟨UN_STAT_PELIG, by simp, rfl⟩

end Sys2Proof.Machine

namespace Sys2Proof.Proofs
open Sys2Proof.Machine Sys2Proof.Safety

/-- Settles O52: the links, the lease and the holder's copy. What the holder's memories hold is a free value (log 53); the statement holds for each. -/
theorem unitRolesAndLease : Obligations.UnitRolesAndLease := by
  intro s k body t l
  refine ⟨?lost, ?regained, fun held => if_pos held, fun h free parsed on partner => ?health, fun bad => ?unparsed, fun none_ => ?noGrant,
    fun granted early => ?early, fun granted due barred1 barred2 => ?barred, fun granted due may =>
      ⟨_, exec_actTime granted due may, ?acts⟩,
    fun idle => ?noLease, fun e lease early => exec_leaseEnd_early lease (.inr early),
    fun e lease active near before => exec_leaseEnd_gates lease active near before,
    fun e lease active ended => ⟨fun none_ => ?isolates, fun back => ?standby, fun parks => ?parks⟩,
    fun standby long => ?lossLong, fun other => if_neg (by rcases other with e | e <;> simp [e]), fun c => ?copy, fun standby syncing => ?resync,
    fun other => if_neg (by rcases other with e | e <;> simp [e])⟩
  case lost =>
    refine ⟨s.p (plkFld k) 0, rfl, ?_, OnlyRegs.of_p s 0 ?_⟩ <;> cases k
    · exact congrArg (· == 1) (State.g_p_fits s (f := UN_STAT_PLK1) ⟨by decide, by decide⟩)
    · exact congrArg (· == 1) (State.g_p_fits s (f := UN_STAT_PLK2) ⟨by decide, by decide⟩)
    all_goals exact ⟨UN_STAT_PLK1, by simp, rfl⟩
  case regained =>
    refine ⟨s.p (plkFld k) 1, rfl, ?_, OnlyRegs.of_p s 1 ?_⟩ <;> cases k
    · exact congrArg (· == 1) (State.g_p_fits s (f := UN_STAT_PLK1) ⟨by decide, by decide⟩)
    · exact congrArg (· == 1) (State.g_p_fits s (f := UN_STAT_PLK2) ⟨by decide, by decide⟩)
    all_goals exact ⟨UN_STAT_PLK1, by simp, rfl⟩
  case unparsed =>
    show execPairLinkHealthRecord k body s = _
    rw [execPairLinkHealthRecord, bad]
    exact ite_self _
  case noGrant =>
    show execActTime s = _
    rw [execActTime, none_]
  case early =>
    show execActTime s = _
    rw [execActTime, granted]
    exact if_pos early
  case barred =>
    show execActTime s = _
    rw [execActTime, granted]
    exact (if_neg (Nat.not_lt.2 due)).trans (if_pos (show (!(s.mode == mHotStandby || s.mode == mIsolated)) = true by simp [barred1, barred2]))
  case noLease =>
    cases lease : s.un.lease with
    | none =>
      show execLeaseEnd s = _
      rw [execLeaseEnd, lease]
    | some e => exact exec_leaseEnd_early lease (.inl (idle.resolve_left (by simp [lease])))
  case isolates =>
    obtain ⟨gated, lease_⟩ := s.leftLight mIsolated
    obtain ⟨mode, iso, unit⟩ := (s.gate.leaveLight.setMode mIsolated 0x1F).isoNoted_shows 1 UN_STAT_HOLD
    exact ⟨_, exec_leaseEnd_isolates lease active ended none_, mode.trans (State.setMode_shows _ _ (by decide)).1, unit.gated.trans gated,
      unit.lease.trans lease_, iso⟩
  case standby =>
    obtain ⟨gated, lease_⟩ := s.leftLight mHotStandby
    have told : SameBut (s.gate.leaveLight.setMode mHotStandby 0x1F) (s.gate.leaveLight.setMode mHotStandby 0x1F).lightGiven :=
      State.event_same (SameBut.refl _) 5 _
    have unit := UnitLasts.of_same told
    exact ⟨_, exec_leaseEnd_standsBy lease active ended back,
      (told.g LC_MODE_MODE (by unfold recPage; decide)).trans (State.setMode_shows _ _ (by decide)).1, unit.gated.trans gated, unit.lease.trans lease_⟩
  case parks => exact exec_leaseEnd_parks lease active ended parks
  case health =>
    have taken : exec (.pairLinkHealthRecord k body) s = .next (s.partnerHealth h) := by
      show execPairLinkHealthRecord k body s = _
      rw [execPairLinkHealthRecord, parsed]
      exact (if_neg (by simp [free])).trans (if_pos (by simp [on, partner]))
    obtain ⟨checks, elig, only⟩ := s.partnerShown_shows h
    exact ⟨_, taken, checks, elig, rfl, only.2, by rw [s.partnerHealth_eq h, only.1]⟩
  case acts =>
    have unit := s.noGrant.setMode_unitLasts mActive 0x1F
    have taken := State.takesOver_shows (s := s) (x := s.noGrant.setMode mActive 0x1F) t l (Nat.mod_lt (s.un.lseq + 1) (Nat.two_pow_pos 32))
      { source := 0x0204, code := 1, cls := 0xFF, data := leBytes 4 s.un.lseq ++ leBytes 4 (t % 2 ^ 32) } (unit.fld _ rfl)
    exact ⟨taken.mode.trans (State.setMode_shows _ _ (by decide)).1, taken.hold, by rw [State.gated, taken.hold]; rfl, by rw [taken.un], by rw [taken.un],
      by rw [taken.un], (congrArg UnSt.actAt taken.un).trans unit.actAt, by rw [taken.un], taken.lseq, taken.lease, taken.count, taken.rsync⟩
  case lossLong =>
    obtain ⟨mode, iso, -⟩ := (s.setMode mIsolated 0x1F).isoNoted_shows 2 UN_VERDICT_VERDICT
    exact ⟨_, if_pos (by simp [standby, long]), mode.trans (State.setMode_shows _ _ (by decide)).1, iso⟩
  case copy =>
    obtain ⟨anchor, ret, live, other, regs⟩ := s.takeCopy_shows c
    have lanes : (s.takeCopy c).liveLanes = s.liveLanes := State.liveLanes_of_keep (as := fun _ => False) (fun r _ => by rw [regs]) id
    refine ⟨anchor, ret, live, other, regs, ?_⟩
    simp only [State.sameDigests, lanes, List.all_eq_true, beq_iff_eq]
  case resync =>
    have regs := s.copyRound_regs
    refine match same : s.copyRound.sameDigests (Config.unitCopy s.free) with
      | false => ⟨_, exec_unitResyncComplete_differs standby syncing same, (if_neg (by rw [← State.copyRound, same]; decide)).mpr rfl⟩
      | true => ⟨_, exec_unitResyncComplete_same standby syncing same, (if_pos same).mpr ?_⟩
    obtain ⟨synced, done, rsync, checks, keep, only⟩ := s.copyRound.copyEnded_shows
    have checks_ : s.copyRound.copyEnded.g UN_HEALTH_CHECKS = s.g UN_HEALTH_CHECKS ||| 64 := checks.trans (by rw [State.g, regs]; rfl)
    refine ⟨synced, done, rsync, ?_, fun n low => ?_, fun a off => (keep a off).trans (by rw [regs]), only⟩
    · rw [checks_, bit_eq_testBit, Nat.testBit_or]
      simp [show Nat.testBit 64 6 = true by decide]
    · have off : Nat.testBit 64 n = false := by interval_cases n <;> decide
      rw [checks_, bit_eq_testBit, bit_eq_testBit, Nat.testBit_or, off, Bool.or_false]

end Sys2Proof.Proofs

/-! SUPPORT. The test commands (R492, R526 to R528, R532, R536): what each answers and begins by its checks, and the end of a loopback. -/

namespace Sys2Proof.Machine
open Sys2Proof.Safety

/-! ### `TEST_REGREAD` (R492) -/

/-- The registers that `TEST_REGREAD` reads: aligned, mapped, 1 to 250 of them, all within one block. -/
def State.readsRegs (s : State) (p : List Byte) : Prop :=
  leAt p 0 4 % 4 = 0 ∧ s.modMapped (leAt p 0 4) = true ∧ 1 ≤ leAt p 4 2 ∧ leAt p 4 2 ≤ 250 ∧ zeros p 6 8 = true ∧
  leAt p 0 4 % 0x10000 + 4 * leAt p 4 2 ≤ 0x10000

theorem State.readsRegs_iff (s : State) (p : List Byte) : ¬ s.readsRegs p ↔
    (leAt p 0 4 % 4 != 0 || !s.modMapped (leAt p 0 4) || !within 1 250 (leAt p 4 2) || !zeros p 6 8 ||
      decide (leAt p 0 4 % 0x10000 + 4 * leAt p 4 2 > 0x10000)) = true := by
  simp only [State.readsRegs, not_and_or, Bool.or_eq_true, bne_iff_ne, ne_eq, Bool.not_eq_true', ← Bool.not_eq_true, within_iff, decide_eq_true_eq,
    or_assoc, gt_iff_lt, not_le]

section
variable {s : State} {i : CmdIn}

theorem State.cmdTestRegread_of_not (barred : ¬ s.readsRegs i.p) : s.cmdTestRegread i = .no s stBadParam := if_pos ((s.readsRegs_iff i.p).1 barred)

/-- Lane D's registers of a ZM60 are read as 0 (R37). -/
theorem State.cmdTestRegread_of_reads (reads : s.readsRegs i.p) : s.cmdTestRegread i =
    .read s ((List.range (leAt i.p 4 2)).flatMap (fun k => leBytes 4
      (if s.variant = .zm60 ∧ leAt i.p 0 4 / 0x1000000 = 0x73 then 0 else (s.regView (leAt i.p 0 4 + 4 * k)).toNat))) := by
  have absent : (s.variant == .zm60 && leAt i.p 0 4 / 0x1000000 == 0x73) = true ↔ s.variant = .zm60 ∧ leAt i.p 0 4 / 0x1000000 = 0x73 := by simp
  refine (if_neg fun failed => (s.readsRegs_iff i.p).2 failed reads).trans ?_
  simp only [absent]

/-! ### `TEST_PROD` (R536) -/

theorem State.cmdTestProd_of_set (already : s.dbg.prod = true) : s.cmdTestProd i = .idle s := if_pos already

theorem State.cmdTestProd_of_clear (clear : s.dbg.prod = false) : s.cmdTestProd i = .done { s with dbg := { s.dbg with prod := true } } :=
  if_neg (by simp [clear])

end

/-! ### `TEST_LOOP` (R526, R527, R532) -/

/-- A port that a test may not take: the one of the session that asks, or, in Maintenance, one in service. -/
def State.portKept (s : State) (i : CmdIn) : Prop :=
  (i.chan = 4 ∧ byteAt i.p 0 = s.sessPort) ∨ (s.mode = mMaintenance ∧ s.portInService (byteAt i.p 0) = true)

/-- What a loopback test asks for. -/
def State.mayLoop (s : State) (i : CmdIn) : Prop :=
  byteAt i.p 1 ∈ portDepths (byteAt i.p 0) ∧ ¬ s.portKept i ∧ zeros i.p 2 4 = true ∧ 1 ≤ leAt i.p 4 4 ∧ leAt i.p 4 4 ≤ 1000000

theorem State.mayLoop_iff (s : State) (i : CmdIn) : ¬ s.mayLoop i ↔
    (!(portDepths (byteAt i.p 0)).contains (byteAt i.p 1) ||
      ((i.chan == 4 && byteAt i.p 0 == s.sessPort) || (s.mode == mMaintenance && s.portInService (byteAt i.p 0))) || !zeros i.p 2 4 ||
      !within 1 1000000 (leAt i.p 4 4)) = true := by
  simp only [State.mayLoop, State.portKept, not_and_or, not_not, Bool.or_eq_true, Bool.and_eq_true, beq_iff_eq, Bool.not_eq_true', ← Bool.not_eq_true,
    List.contains_iff_mem, within_iff, or_assoc]

/-- Is the plug of a test at depth 3 absent (R532)? -/
def State.plugAbsent (s : State) (i : CmdIn) : Bool :=
  byteAt i.p 1 == 3 && !(Config.loopTest s.free (byteAt i.p 0) (byteAt i.p 1) (leAt i.p 4 4)).1

/-- The test that begins: what returns, and when, are free values. -/
def State.loopBegun (s : State) (i : CmdIn) : LoopRun :=
  let x := Config.loopTest s.free (byteAt i.p 0) (byteAt i.p 1) (leAt i.p 4 4)
  let sent := if s.plugAbsent i then 0 else x.2.1 % (leAt i.p 4 4 + 1)
  let intact := x.2.2.1 % (sent + 1)
  { port := byteAt i.p 0, depth := byteAt i.p 1, chans := i.chans, hdr := i.hdr, payload := i.p
    endNs := s.tu.upNs + (if s.plugAbsent i then 100000000 else x.2.2.2 % 2000000001), sent := sent, intact := intact
    result := if s.plugAbsent i then 2 else if intact == sent then 0 else 1 }

theorem State.cmdTestLoop_of_not {s : State} {i : CmdIn} (barred : ¬ s.mayLoop i) : s.cmdTestLoop i = .no s stBadParam :=
  if_pos ((s.mayLoop_iff i).1 barred)

theorem State.cmdTestLoop_of_may {s : State} {i : CmdIn} (may : s.mayLoop i) : s.cmdTestLoop i =
    .later (({ s with free := s.free + 1, dbg := { s.dbg with loop := some (s.loopBegun i) } } : State).redrive (byteAt i.p 0)) :=
  (if_neg fun failed => (s.mayLoop_iff i).2 failed may).trans rfl

/-- A test without its plug: nothing is sent, the answer comes after 100 ms. -/
theorem State.loopBegun_of_absent {s : State} {i : CmdIn} (absent : s.plugAbsent i = true) : (s.loopBegun i).result = 2 ∧ (s.loopBegun i).depth = 3 ∧
    (s.loopBegun i).sent = 0 ∧ (s.loopBegun i).intact = 0 ∧ (s.loopBegun i).endNs = s.tu.upNs + 100000000 := by
  have deep : byteAt i.p 1 = 3 := beq_iff_eq.1 (Bool.and_eq_true_iff.1 absent).1
  simp [State.loopBegun, absent, deep, Nat.mod_one]

/-- A test that runs: what is sent and what returns, in up to 2 s. -/
theorem State.loopBegun_of_plugged {s : State} {i : CmdIn} (plugged : s.plugAbsent i = false) : (s.loopBegun i).result < 2 ∧
    ((s.loopBegun i).result = 0 ↔ (s.loopBegun i).intact = (s.loopBegun i).sent) ∧ (s.loopBegun i).sent ≤ leAt i.p 4 4 ∧
    (s.loopBegun i).intact ≤ (s.loopBegun i).sent ∧ s.tu.upNs ≤ (s.loopBegun i).endNs ∧ (s.loopBegun i).endNs ≤ s.tu.upNs + 2000000000 := by
  have sent := fun n => Nat.mod_lt n (Nat.succ_pos (leAt i.p 4 4))
  have bound := fun n m : Nat => Nat.lt_succ_iff.1 (Nat.mod_lt n (Nat.succ_pos m))
  have wait := fun n : Nat => Nat.mod_lt n (by decide : 0 < 2000000001)
  simp only [State.loopBegun, plugged, Bool.false_eq_true, if_false, beq_iff_eq]
  refine ⟨by split <;> decide, by split <;> simp_all, bound _ _, bound _ _, Nat.le_add_right _ _, Nat.add_le_add_left (Nat.lt_succ_iff.1 (wait _)) _⟩

/-! ### The end of a test (R527) -/

section
variable {s : State} {x : LoopRun} (running : s.dbg.loop = some x)
include running

theorem State.heldPort_iff (port : Nat) : s.heldPort port = true ↔ port = x.port := by
  rw [State.heldPort, running]
  exact beq_iff_eq.trans eq_comm

theorem State.loopTick_of_runs (runs : s.tu.upNs < x.endNs) : s.loopTick = s := by
  rw [State.loopTick, running]
  exact if_pos runs

theorem State.loopTick_of_ended (ended : x.endNs ≤ s.tu.upNs) : s.loopTick =
    (({ s with dbg := { s.dbg with loop := none } } : State).redrive x.port).respond (x.chans.map (·.val)) x.hdr x.payload stOk
      (leBytes 4 x.sent ++ leBytes 4 x.intact ++ leBytes 4 (x.sent - x.intact) ++ leBytes 1 x.result ++ leBytes 3 0) := by
  rw [State.loopTick, running]
  exact if_neg (Nat.not_lt.2 ended)

end

end Sys2Proof.Machine

namespace Sys2Proof.Proofs
open Sys2Proof.Machine Sys2Proof.Safety

/-- Settles O19: the outcome of each test command by its checks. What a loopback returns, and when, are free values (log 16). -/
theorem testCommandsReadAndLoop : Obligations.TestCommandsReadAndLoop := by
  refine ⟨fun s a ch h p c => ⟨fun r => ?regread, fun r => ?prod⟩, fun s a ch h p c r => ?loop, fun s x running =>
    ⟨State.heldPort_iff running, State.loopTick_of_runs running, State.loopTick_of_ended running⟩⟩
  all_goals obtain ⟨-, rfl⟩ := runs_hdr r
  case regread =>
    rw [execTestRegread_runs r]
    refine ⟨fun barred => ?_, fun reads => ?_⟩
    · rw [State.cmdTestRegread_of_not barred, finish_no]
    · rw [State.cmdTestRegread_of_reads reads, finish_read]
  case prod =>
    rw [execTestProd_runs r]
    refine ⟨fun already => ?_, fun clear => ?_⟩
    · rw [State.cmdTestProd_of_set already, finish_idle]
    · rw [State.cmdTestProd_of_clear clear, finish_done]
  case loop =>
    rw [execTestLoop_runs r]
    refine ⟨fun barred => ?_, fun may => ⟨a.loopBegun c, ?_, rfl, rfl, rfl, rfl, rfl, ?_⟩⟩
    · rw [State.cmdTestLoop_of_not barred, finish_no]
    · rw [State.cmdTestLoop_of_may may, finish_later]
    · cases plug : a.plugAbsent c with
      | true =>
        obtain ⟨result, deep, sent, intact, ends⟩ := State.loopBegun_of_absent plug
        rw [result, sent, intact, ends]
        exact ⟨le_rfl, Nat.zero_le _, fun _ => ⟨deep, rfl, rfl⟩, fun other => absurd rfl other, le_rfl, by omega, by omega⟩
      | false =>
        obtain ⟨result, whole, sent, intact, after, before⟩ := State.loopBegun_of_plugged plug
        exact ⟨intact, sent, fun absent => absurd absent result.ne, fun _ => whole, result.le, after, before⟩

end Sys2Proof.Proofs

/-! SUPPORT. The life-cycle commands (R432 to R435, R493, R494): the changes with their guards, what a change wipes, the debug token. -/

namespace Sys2Proof.Machine
open Sys2Proof.Safety

/-! ### What a life-cycle change leaves (R433, R434) -/

/-- What a wipe leaves empty: the settings, the application, retained memory, the update. -/
structure Wiped (t : State) : Prop where
  cfg : t.cfg = {}
  stored : t.app.stored = none
  retMem : t.app.retMem = []
  manifest : t.up.manifest = []
  store : t.up.store = []

theorem Wiped.p {t : State} (h : Wiped t) (f : Fld) (v : Nat) : Wiped (t.p f v) := ⟨h.cfg, h.stored, h.retMem, h.manifest, h.store⟩

theorem Wiped.same {s t : State} (h : Wiped s) (k : SameBut s t) : Wiped t := by
  have app := k.app
  have up := k.up
  exact ⟨k.cfg.trans h.cfg, by rw [app, h.stored], by rw [app, h.retMem], by rw [up, h.manifest], by rw [up, h.store]⟩

theorem Wiped.ite {a b : State} {c : Prop} [Decidable c] (ha : Wiped a) (hb : Wiped b) : Wiped (if c then a else b) := by
  split <;> assumption

theorem State.lcWipe_wiped (s : State) : Wiped s.lcWipe := by
  have up : s.upDiscard.up = s.up.discarded := s.upDiscard_up
  exact ⟨rfl, rfl, rfl, congrArg UpSt.manifest up, congrArg UpSt.store up⟩

theorem State.lcWipe_regs (s : State) : s.lcWipe.regs = ((s.upDiscard.p UP_STAT_PHASE 0).p UP_TGTVER_VERSION 0).regs := rfl

theorem State.lcWipe_life (s : State) {f : Fld} (life : f.reg = LC_STATE_LCS.reg) : s.lcWipe.g f = s.g f := by
  have off : f.reg ≠ UP_STAT_PHASE.reg ∧ f.reg ≠ UP_TGTVER_VERSION.reg := by rw [life]; decide
  rw [State.g, s.lcWipe_regs, ← State.g, State.g_p_reg _ 0 off.2, State.g_p_reg _ 0 off.1]
  refine s.g_upDiscard ?_
  rw [life]
  decide

/-- The recorder and the history emptied, before the recorder's registers follow. -/
def State.recordsEmptied (s : State) : State :=
  ((((((({ s with ev := {}, fc := { s.fc with hist := [], firstEnt := [] } } : State).p EV_SUPPR_COUNT 0).p EV_STAT_FULL 0).p EV_STAT_QOVF 0).p
    FC_STAT_FROZEN 0).p FC_HPTR_HEAD 0).p FC_HPTR_FREEZE 0)

theorem State.recordsWipe_eq (s : State) : s.recordsWipe = s.recordsEmptied.evRegs := rfl

theorem State.recordsWipe_same (s : State) : SameBut { s with fc := { s.fc with hist := [], firstEnt := [] } } s.recordsWipe := by
  rw [s.recordsWipe_eq]
  refine State.evRegs_same ?_
  exact ((((((SameBut.refl { s with fc := { s.fc with hist := [], firstEnt := [] } }).upd {} s.mb s.sess s.tx).p EV_SUPPR_COUNT 0 recPage_ev).p
    EV_STAT_FULL 0 recPage_ev).p EV_STAT_QOVF 0 recPage_ev).p FC_STAT_FROZEN 0 (.inl rfl)).p FC_HPTR_HEAD 0 (.inl rfl) |>.p FC_HPTR_FREEZE 0 (.inl rfl)

theorem State.tagWipe_life (s : State) {f : Fld} (life : f.reg = LC_STATE_LCS.reg) : s.tagWipe.g f = s.g f := by
  have kept : s.tagWipe.regs.rd f.reg = s.regs.rd f.reg :=
    tabGet_filter_in regReset s.regs (fun a => !(decide (0x40090200 ≤ a) && decide (a < 0x40090300))) (by rw [life]; decide)
  rw [State.g, State.g, Regs.g, Regs.g, kept]

/-- The wipes of a change: what every change wipes, the tag area, the records. -/
def State.lcWipes (s : State) (tag recs : Bool) : State :=
  let s := s.lcWipe
  let s := if tag then s.tagWipe else s
  if recs then s.recordsWipe else s

theorem State.lcWipes_wiped (s : State) (tag recs : Bool) : Wiped (s.lcWipes tag recs) := by
  have all := s.lcWipe_wiped
  have tagged : Wiped (if tag then s.lcWipe.tagWipe else s.lcWipe) := Wiped.ite ⟨all.cfg, all.stored, all.retMem, all.manifest, all.store⟩ all
  have emptied (t : State) (h : Wiped t) : Wiped t.recordsWipe := Wiped.same (s := { t with fc := { t.fc with hist := [], firstEnt := [] } })
    ⟨h.cfg, h.stored, h.retMem, h.manifest, h.store⟩ t.recordsWipe_same
  exact Wiped.ite (emptied _ tagged) tagged

theorem State.lcWipes_life (s : State) (tag recs : Bool) {f : Fld} (life : f.reg = LC_STATE_LCS.reg) : (s.lcWipes tag recs).g f = s.g f := by
  have tagged : (if tag then s.lcWipe.tagWipe else s.lcWipe).g f = s.g f := by
    split
    · exact (State.tagWipe_life _ life).trans (s.lcWipe_life life)
    · exact s.lcWipe_life life
  have emptied (t : State) : t.recordsWipe.g f = t.g f := t.recordsWipe_same.g f (by rw [life]; unfold recPage; decide)
  unfold State.lcWipes
  dsimp only
  split
  · exact (emptied _).trans tagged
  · exact tagged

/-- The module as a change finds it to wipe: its outputs off, its application stopped, an update's end recorded. -/
def State.lcLeft (s : State) : State :=
  let s := s.gateFault.leaveLight
  let s := s.removeForces s.app.forces 2
  let s := s.appStop
  if s.up.manifest.isEmpty then s else s.upEvent 0xC (leBytes 1 2)

/-- The new state, with the wipes pending. -/
def State.lcEntered (s : State) (to_ : Nat) : State := (s.p LC_STATE_LCS to_).p LC_STATE_WIPEPEND 1

/-- The user keys installed, no wipe pending. -/
def State.lcKeyed (s : State) (k : KeySt) : State := ({ s with keys := k } : State).p LC_STATE_WIPEPEND 0

theorem Wiped.lcKeyed {t : State} (h : Wiped t) (k : KeySt) : Wiped (t.lcKeyed k) := ⟨h.cfg, h.stored, h.retMem, h.manifest, h.store⟩

/-- The module after a life-cycle change, before the change is recorded. -/
def State.lcChanged (s : State) (to_ : Nat) (tag recs : Bool) (k : KeySt) : State := ((s.lcLeft.lcEntered to_).lcWipes tag recs).lcKeyed k

theorem State.changeLcs_eq (s : State) (to_ : Nat) (tag recs : Bool) (k : KeySt) (chan : Nat) : s.changeLcs to_ tag recs k chan =
    .okReset ((s.lcChanged to_ tag recs k).recordEv { source := 0x0202, code := to_ * 256 + s.g LC_STATE_LCS, cls := 0xFF }) 5 chan 4 := rfl

theorem State.lcChanged_shows (s : State) {to_ : Nat} (known : to_ < 8) (tag recs : Bool) (k : KeySt) : let t := s.lcChanged to_ tag recs k
    t.g LC_STATE_LCS = to_ ∧ t.g LC_STATE_WIPEPEND = 0 ∧ t.keys = k ∧ Wiped t := by
  have wiped := (s.lcLeft.lcEntered to_).lcWipes_wiped tag recs
  refine ⟨?_, State.g_p_fits _ ⟨by decide, by decide⟩, rfl, wiped.lcKeyed k⟩
  calc (s.lcChanged to_ tag recs k).g LC_STATE_LCS
      = ((s.lcLeft.lcEntered to_).lcWipes tag recs).g LC_STATE_LCS := State.g_p_off _ _ (by decide)
    _ = (s.lcLeft.lcEntered to_).g LC_STATE_LCS := State.lcWipes_life _ tag recs rfl
    _ = (s.lcLeft.p LC_STATE_LCS to_).g LC_STATE_LCS := State.g_p_off _ _ (by decide)
    _ = to_ := State.g_p_fits _ ⟨by decide, known⟩

/-! ### `LC_CHANGE` (R432 to R435, R493) -/

section
variable {s : State} {i : CmdIn}

theorem State.cmdLcChange_of_reserved (reserved : zeros i.p 1 4 = false) : s.cmdLcChange i = .no s stBadParam := if_pos (by simp [reserved])

variable (zeroed : zeros i.p 1 4 = true)
include zeroed

theorem State.cmdLcChange_of_provisions (old : s.g LC_STATE_LCS = 0) (new : byteAt i.p 0 = 1) : s.cmdLcChange i =
    if (i.p.drop 4).length ≠ 128 then .no s stBadParam else if s.dbg.prod = false then .no s stStateReject
    else if Config.signed Config.makerKey (i.p.drop 4) = false then .no s stVerifyFail
    else (s.setFactory (i.p.drop 4)).changeLcs 1 true true {} i.chan := by
  rw [State.cmdLcChange, if_neg (by simp [zeroed]), old, new]
  simp only [bne_iff_ne, Bool.not_eq_true']

theorem State.cmdLcChange_of_commissions (old : s.g LC_STATE_LCS = 1) (new : byteAt i.p 0 = 2) : s.cmdLcChange i =
    if (i.p.drop 4).length ≠ 96 then .no s stBadParam
    else s.changeLcs 2 true false { cred := some ((i.p.drop 4).take 32), pkgKey := some ((i.p.drop 4).drop 32) } i.chan := by
  rw [State.cmdLcChange, if_neg (by simp [zeroed]), old, new]
  simp only [bne_iff_ne]

theorem State.cmdLcChange_of_decommissions (old : s.g LC_STATE_LCS = 2) (new : byteAt i.p 0 = 3) : s.cmdLcChange i =
    if (i.p.drop 4).length ≠ 0 then .no s stBadParam else s.changeLcs 3 false false {} i.chan := by
  rw [State.cmdLcChange, if_neg (by simp [zeroed]), old, new]
  simp only [bne_iff_ne]

theorem State.cmdLcChange_of_returns (old : s.g LC_STATE_LCS = 3) (new : byteAt i.p 0 = 1) : s.cmdLcChange i =
    if (i.p.drop 4).length ≠ 72 then .no s stBadParam
    else if leAt (i.p.drop 4) 0 8 ≠ leAt s.factory 28 8 ∨ Config.signed Config.makerKey (i.p.drop 4) = false then .no s stVerifyFail
    else s.changeLcs 1 true true {} i.chan := by
  rw [State.cmdLcChange, if_neg (by simp [zeroed]), old, new]
  simp only [bne_iff_ne, Bool.or_eq_true, Bool.not_eq_true']

theorem State.cmdLcChange_of_scraps (old : s.g LC_STATE_LCS ∈ [1, 2, 3]) (new : byteAt i.p 0 = 4) : s.cmdLcChange i =
    if (i.p.drop 4).length ≠ 0 then .no s stBadParam else s.changeLcs 4 true true {} i.chan := by
  simp only [List.mem_cons, List.not_mem_nil, or_false] at old
  rcases old with old | old | old
  all_goals
    rw [State.cmdLcChange, if_neg (by simp [zeroed]), old, new]
    simp only [bne_iff_ne]

theorem State.cmdLcChange_of_other (other : (s.g LC_STATE_LCS, byteAt i.p 0) ∉ [(0, 1), (1, 2), (2, 3), (3, 1), (1, 4), (2, 4), (3, 4)]) :
    s.cmdLcChange i = .no s stBadParam := by
  rw [State.cmdLcChange, if_neg (by simp [zeroed])]
  split <;> simp_all

end

/-! ### `LC_DEBUGTOKEN` (R432, R494) -/

theorem State.cmdLcDebugtoken_eq (s : State) (i : CmdIn) : s.cmdLcDebugtoken i =
    if leAt i.p 0 8 ≠ leAt s.factory 28 8 ∨ leAt i.p 8 4 < s.sb.rtc then .no s stVerifyFail
    else if zeros i.p 12 16 = false then .no s stBadParam
    else if Config.signed Config.makerKey i.p = false then .no s stVerifyFail
    else .done ((s.p LC_STATE_DBGPERM 1).chanGates) := by
  simp only [State.cmdLcDebugtoken, bne_iff_ne, Bool.or_eq_true, Bool.not_eq_true', decide_eq_true_eq]

end Sys2Proof.Machine

namespace Sys2Proof.Proofs
open Sys2Proof.Machine Sys2Proof.Safety

/-- Settles O20: the changes with their guards, their wipes and the token. `STATE_REJECT` outside production test is log 27. -/
theorem lifeCycleCommandsGuardWipeAndPermit : Obligations.LifeCycleCommandsGuardWipeAndPermit := by
  refine ⟨fun s a ch h p c r => ?change, fun a new tag recs k chan known => ?wipes, fun s a ch h p c r => ?token⟩
  case change =>
    obtain ⟨-, rfl⟩ := runs_hdr r
    rw [execLcChange_runs r]
    refine ⟨fun reserved => ?_, fun zeroed => ⟨fun old new => ?_, fun old new => ?_, fun old new => ?_, fun old new => ?_, fun old new => ?_,
      fun other => ?_⟩⟩
    · rw [State.cmdLcChange_of_reserved reserved, finish_no]
    · simp only [State.cmdLcChange_of_provisions zeroed old new, finish_ite, finish_no]
    · simp only [State.cmdLcChange_of_commissions zeroed old new, finish_ite, finish_no]
    · simp only [State.cmdLcChange_of_decommissions zeroed old new, finish_ite, finish_no]
    · simp only [State.cmdLcChange_of_returns zeroed old new, finish_ite, finish_no]
    · simp only [State.cmdLcChange_of_scraps zeroed old new, finish_ite, finish_no]
    · rw [State.cmdLcChange_of_other zeroed other, finish_no]
  case wipes =>
    obtain ⟨life, pend, keys, wiped⟩ := a.lcChanged_shows known tag recs k
    have recorded := State.recordEv_same (SameBut.refl (a.lcChanged new tag recs k))
      { source := 0x0202, code := new * 256 + a.g LC_STATE_LCS, cls := 0xFF }
    obtain ⟨cfg, stored, ret, manifest, store⟩ := wiped.same recorded
    exact ⟨_, a.changeLcs_eq new tag recs k chan, (recorded.g LC_STATE_LCS (by unfold recPage; decide)).trans life,
      (recorded.g LC_STATE_WIPEPEND (by unfold recPage; decide)).trans pend, recorded.keys.trans keys, cfg, stored, ret, manifest, store⟩
  case token =>
    obtain ⟨-, rfl⟩ := runs_hdr r
    rw [execLcDebugtoken_runs r, State.cmdLcDebugtoken_eq]
    simp only [finish_ite, finish_no, finish_done]

end Sys2Proof.Proofs

/-! SUPPORT. The commands of the module group (R424, R436, R469 to R471): what each answers and does by its checks. -/

namespace Sys2Proof.Machine
open Sys2Proof.Safety

/-! ### Numbers and bytes of a payload -/

theorem leNat_eq_zero {b : List Byte} : leNat b = 0 ↔ ∀ x ∈ b, x = 0 := by
  induction b with
  | nil => simp [leNat]
  | cons x b ih =>
    have head : x.toNat = 0 ↔ x = 0 := BitVec.toNat_eq (y := 0).symm
    simp only [leNat, List.mem_cons, forall_eq_or_imp, ← ih, ← head]
    omega

/-- A number in a payload is 0 where its bytes are. -/
theorem leAt_eq_zero {p : List Byte} {i n : Nat} : leAt p i n = 0 ↔ zeros p i (i + n) = true := by
  rw [leAt, leNat_eq_zero, zeros, Nat.add_sub_cancel_left]
  simp [padTo, List.take_append, or_imp]

theorem getElem?_leBytes {n r : Nat} (low : r < n) (v : Nat) : (leBytes n v)[r]? = some (BitVec.ofNat 8 (v / 256 ^ r)) := by
  induction n generalizing r v with
  | zero => omega
  | succ n ih =>
    cases r with
    | zero => simp [leBytes]
    | succ r => rw [leBytes, List.getElem?_cons_succ, ih (by omega), Nat.div_div_eq_div_mul, Nat.pow_succ']

/-- The bytes of a row of parts of the same length. -/
theorem getElem?_flatMap_range {α : Type} {w : Nat} {f : Nat → List α} (whole : ∀ k, (f k).length = w) {n k : Nat} (low : k < w * n) :
    ((List.range n).flatMap f)[k]? = (f (k / w))[k % w]? := by
  induction n with
  | zero => omega
  | succ n ih =>
    have length : ((List.range n).flatMap f).length = w * n := by simp [List.length_flatMap, whole, Nat.mul_comm]
    rw [List.range_succ, List.flatMap_append, List.flatMap_singleton]
    by_cases early : k < w * n
    · rw [List.getElem?_append_left (by omega), ih early]
    · have last : k / w = n := by
        refine Nat.div_eq_of_lt_le ?_ ?_ <;> rw [Nat.mul_comm] <;> omega
      have pos : k % w = k - w * n := by rw [Nat.mod_eq_sub, last]
      rw [List.getElem?_append_right (by omega), length, last, pos]

/-! ### The tag area (R436) -/

/-- The field of one byte of the tag area. -/
def tagFld (k : Nat) : Fld := ⟨(LC_TAG_WORD (k / 4)).reg, 8 * (k % 4), 8⟩

theorem State.putTag_eq (s : State) (k : Nat) (b : Byte) : s.putTag k b = s.p (tagFld k) b.toNat := rfl

theorem tagFld_fits (k : Nat) : (tagFld k).lo + (tagFld k).w ≤ 32 := by
  simp only [tagFld]
  omega

theorem tagFld_apart {j k : Nat} (ne : j ≠ k) : (tagFld j).reg ≠ (tagFld k).reg ∨ (tagFld k).lo + (tagFld k).w ≤ 32 ∧
    ((tagFld k).lo + (tagFld k).w ≤ (tagFld j).lo ∨ (tagFld j).lo + (tagFld j).w ≤ (tagFld k).lo) := by
  simp only [tagFld, LC_TAG_WORD]
  omega

theorem State.getElem?_tags (s : State) {k : Nat} (low : k < 256) : s.tags[k]? = some (BitVec.ofNat 8 (s.g (tagFld k))) := by
  have place : k % 4 < 4 := Nat.mod_lt k (by decide)
  have word : (s.word (LC_TAG_WORD (k / 4))).toNat < 2 ^ 32 := (s.word (LC_TAG_WORD (k / 4))).isLt
  have byte : s.g (LC_TAG_WORD (k / 4)) / 256 ^ (k % 4) % 2 ^ 8 = s.g (tagFld k) := by
    show (s.word (LC_TAG_WORD (k / 4))).toNat >>> 0 % 2 ^ 32 / 256 ^ (k % 4) % 2 ^ 8 = (s.word (LC_TAG_WORD (k / 4))).toNat >>> (8 * (k % 4)) % 2 ^ 8
    rw [Nat.shiftRight_zero, Nat.mod_eq_of_lt word, Nat.shiftRight_eq_div_pow, Nat.pow_mul]
  rw [State.tags, getElem?_flatMap_range (fun _ => length_leBytes 4 _) (by omega), getElem?_leBytes place, ← byte]
  exact congrArg some (BitVec.eq_of_toNat_eq (by simp))

/-- A run of bytes written into the tag area from byte `o` on. -/
def State.putTags (s : State) (o n : Nat) (d : List Byte) : State := (d.zipIdx n).foldl (fun (s : State) e => s.putTag (o + e.2) e.1) s

theorem State.g_putTags (s : State) (o n k : Nat) (d : List Byte) : (s.putTags o n d).g (tagFld k) =
    if o + n ≤ k ∧ k < o + n + d.length then ((d[k - (o + n)]?).getD 0).toNat else s.g (tagFld k) := by
  induction d generalizing s n with
  | nil => exact (if_neg (by simp only [List.length_nil]; omega)).symm
  | cons x d ih =>
    have rest : (s.putTags o n (x :: d)).g (tagFld k) = _ := ih (s.putTag (o + n) x) (n + 1)
    rw [rest, State.putTag_eq, List.length_cons]
    rcases lt_trichotomy k (o + n) with before | here | after
    · rw [if_neg (by omega), if_neg (by omega), State.g_p_off _ _ (tagFld_apart before.ne)]
    · rw [if_neg (by omega), if_pos (by omega), here, State.g_p_fits _ ⟨tagFld_fits _, x.isLt⟩, Nat.sub_self]
      rfl
    · rw [State.g_p_off _ _ (tagFld_apart after.ne')]
      obtain ⟨j, past⟩ : ∃ j, k - (o + n) = j + 1 := ⟨k - (o + n) - 1, by omega⟩
      rw [past, List.getElem?_cons_succ, show k - (o + (n + 1)) = j by omega]
      exact if_congr (by omega) rfl rfl

theorem State.putTags_only {s : State} {o n : Nat} {d : List Byte} (fits : o + n + d.length ≤ 256) :
    OnlyRegs s (s.putTags o n d) (fun a => 0x40090200 ≤ a ∧ a < 0x40090300) := by
  refine List.foldlRecOn _ _ (motive := fun t => OnlyRegs s t _) (OnlyRegs.refl s _) fun t only e mem => ?_
  have place : e.2 < n + d.length := (List.mem_zipIdx mem).2.1
  refine only.p (tagFld (o + e.2)) _ ?_
  simp only [tagFld, LC_TAG_WORD]
  omega

theorem State.getElem?_putTags (s : State) {o : Nat} (d : List Byte) {k : Nat} (low : k < 256) : (s.putTags o 0 d).tags[k]? =
    if o ≤ k ∧ k < o + d.length then d[k - o]? else s.tags[k]? := by
  rw [State.getElem?_tags _ low, State.g_putTags, Nat.add_zero]
  by_cases inside : o ≤ k ∧ k < o + d.length
  · have held : k - o < d.length := by omega
    rw [if_pos inside, if_pos inside, List.getElem?_eq_getElem held]
    simp
  · rw [if_neg inside, if_neg inside, State.getElem?_tags _ low]

section
variable {s : State} {i : CmdIn}

theorem State.cmdModTagRead_eq : s.cmdModTagRead i =
    if leAt i.p 2 2 = 0 ∨ 256 < leAt i.p 0 2 + leAt i.p 2 2 then .no s stBadParam else .read s ((s.tags.drop (leAt i.p 0 2)).take (leAt i.p 2 2)) := by
  simp only [State.cmdModTagRead, Bool.or_eq_true, beq_iff_eq, decide_eq_true_eq, gt_iff_lt]

theorem State.cmdModTagWrite_of_bad (bad : leAt i.p 2 2 ≠ 0 ∨ 256 < leAt i.p 0 2 + (i.p.length - 4)) : s.cmdModTagWrite i = .no s stBadParam := by
  refine if_pos ?_
  rw [ne_eq, leAt_eq_zero] at bad
  simpa using bad

theorem State.cmdModTagWrite_of_fits (zeroed : leAt i.p 2 2 = 0) (fits : leAt i.p 0 2 + (i.p.length - 4) ≤ 256) :
    s.cmdModTagWrite i = .done (s.putTags (leAt i.p 0 2) 0 (i.p.drop 4)) := by
  refine if_neg ?_
  rw [leAt_eq_zero] at zeroed
  simpa [zeroed] using fits

/-! ### `MOD_SETMODE` (R420, R471) -/

/-- A payload of `MOD_SETMODE`: one of the five modes and zeros. -/
def setmodeFits (p : List Byte) : Prop := byteAt p 0 ∈ [3, 4, 8, 9, 10] ∧ zeros p 1 4 = true

theorem setmodeFits_iff (p : List Byte) : ¬ setmodeFits p ↔
    (!(byteAt p 0 == mCommissioning || byteAt p 0 == mSynchronising || byteAt p 0 == mMaintenance || byteAt p 0 == mUpdate || byteAt p 0 == mParked) ||
      !zeros p 1 4) = true := by
  simp [setmodeFits, imp_iff_not_or, not_or, and_assoc]

theorem State.cmdModSetmode_of_unfit (unfit : ¬ setmodeFits i.p) : s.cmdModSetmode i = .no s stBadParam := if_pos ((setmodeFits_iff i.p).1 unfit)

/-- The wake that a change from Parked asks for (R471). -/
def State.wakeFor (s : State) (i : CmdIn) : State := ({ s with app := { s.app with wakeChans := i.chans, wakeHdr := i.hdr } } : State).wake 0

/-- A holder of a unit that is to park builds no further renewal. -/
def State.parkLater (s : State) (i : CmdIn) : State :=
  if s.mode == mActive && s.on UN_CFG_EN then
    { s.setAside 0x0104 i with un := { s.un with noRenewal := true, leaveTo := some (s.un.leaveTo.getD mParked) } }
  else s.setAside 0x0104 i

variable (fits : setmodeFits i.p)
include fits

theorem State.cmdModSetmode_of_present (present : byteAt i.p 0 = s.mode) : s.cmdModSetmode i = .idle s :=
  (if_neg fun failed => (setmodeFits_iff i.p).2 failed fits).trans (if_pos (by simp [present]))

variable (change : byteAt i.p 0 ≠ s.mode)
include change

/-- What remains of `MOD_SETMODE` once its payload is legal and asks for a change. -/
theorem State.cmdModSetmode_of_change : s.cmdModSetmode i =
    if byteAt i.p 0 == mCommissioning then .done (s.enterMode mCommissioning 22) else if byteAt i.p 0 == mMaintenance then .done (s.enterMode mMaintenance 19)
    else if byteAt i.p 0 == mUpdate then .done (s.enterMode mUpdate 20) else if byteAt i.p 0 == mSynchronising then s.toSync i else s.toParked i :=
  (if_neg fun failed => (setmodeFits_iff i.p).2 failed fits).trans (if_neg (by simp [change]))

theorem State.cmdModSetmode_commissions (to_ : byteAt i.p 0 = 3) : s.cmdModSetmode i = .done (s.enterMode mCommissioning 22) := by
  rw [State.cmdModSetmode_of_change fits change, to_]
  rfl

theorem State.cmdModSetmode_maintains (to_ : byteAt i.p 0 = 8) : s.cmdModSetmode i = .done (s.enterMode mMaintenance 19) := by
  rw [State.cmdModSetmode_of_change fits change, to_]
  rfl

theorem State.cmdModSetmode_updates (to_ : byteAt i.p 0 = 9) : s.cmdModSetmode i = .done (s.enterMode mUpdate 20) := by
  rw [State.cmdModSetmode_of_change fits change, to_]
  rfl

theorem State.cmdModSetmode_synchronises (to_ : byteAt i.p 0 = 4) : s.cmdModSetmode i = s.toSync i := by
  rw [State.cmdModSetmode_of_change fits change, to_]
  rfl

theorem State.cmdModSetmode_parks (to_ : byteAt i.p 0 = 10) : s.cmdModSetmode i = s.toParked i := by
  rw [State.cmdModSetmode_of_change fits change, to_]
  rfl

end

section
variable {s : State} {i : CmdIn}

theorem State.toSync_of_commissioning (from_ : s.mode = 3) : s.toSync i =
    if s.mayOperate ∧ ¬ s.fc.class3 then .done ((s.enterMode mSynchronising 10).syncEntry) else .no s stVerifyFail :=
  (if_pos (by simp [from_])).trans (if_congr (by simp) rfl rfl)

theorem State.toSync_of_maintenance (from_ : s.mode = 8) : s.toSync i =
    if s.on LC_MODE_FISO then .no s stVerifyFail else .done (s.enterMode mSynchronising 21) :=
  (if_neg (by simp [from_])).trans (if_pos (by simp [from_]))

theorem State.toSync_of_update (from_ : s.mode = 9) : s.toSync i =
    if s.on LC_MODE_FISO then .no s stVerifyFail else .done (s.enterMode mSynchronising 24) :=
  (if_neg (by simp [from_])).trans ((if_neg (by simp [from_])).trans (if_pos (by simp [from_])))

theorem State.toSync_of_parked (from_ : s.mode ∉ [3, 8, 9]) : s.toSync i = .later (s.wakeFor i) := by
  simp only [List.mem_cons, List.not_mem_nil, or_false, not_or] at from_
  obtain ⟨no3, no8, no9⟩ := from_
  exact (if_neg (by simp [no3])).trans ((if_neg (by simp [no8])).trans (if_neg (by simp [no9])))

theorem State.toParked_of_busy (busy : s.waiting.isSome = true) : s.toParked i = .no s stResource := if_pos busy

theorem State.toParked_of_free (free : s.waiting = none) : s.toParked i = .later (s.parkLater i) :=
  (if_neg (by simp [State.busyWaiting, free])).trans rfl

theorem State.parkLater_shows (s : State) (i : CmdIn) : let t := s.parkLater i
    t.waiting = some { code := 0x0104, chans := i.chans, hdr := i.hdr, payload := i.p, since := s.now } ∧ t = { s with waiting := t.waiting, un := t.un } ∧
    (s.mode = 5 ∧ s.on UN_CFG_EN = true → t.un.noRenewal = true ∧ t.un.leaveTo = some (s.un.leaveTo.getD mParked)) ∧
    (¬ (s.mode = 5 ∧ s.on UN_CFG_EN = true) → t.un = s.un) := by
  by_cases holder : s.mode = 5 ∧ s.on UN_CFG_EN = true
  · have parks : s.parkLater i = { s.setAside 0x0104 i with un := { s.un with noRenewal := true, leaveTo := some (s.un.leaveTo.getD mParked) } } :=
      if_pos (by simp [holder])
    rw [parks]
    exact ⟨rfl, rfl, fun _ => ⟨rfl, rfl⟩, fun other => absurd holder other⟩
  · have parks : s.parkLater i = s.setAside 0x0104 i := if_neg (by simpa using holder)
    rw [parks]
    exact ⟨rfl, rfl, fun held => absurd held holder, fun _ => rfl⟩

end

/-- What a module reset empties of the mailbox (R424). -/
theorem State.moduleReset_mailbox (s : State) (cause chan row : Nat) : (s.moduleReset cause chan row).mb = [] ∧ (s.moduleReset cause chan row).queued = [] := by
  obtain ⟨mb, queued, -⟩ := (s.resetNoted row).resetDies_rest cause chan
  rw [s.moduleReset_eq cause chan row, State.recordEv_mb, State.recordEv_queued]
  exact ⟨mb, queued⟩

end Sys2Proof.Machine

namespace Sys2Proof.Proofs
open Sys2Proof.Machine Sys2Proof.Safety

/-- Settles O8: the outcome of each command of the module group by its checks. One waiting `MOD_SETMODE` at a time and the first mode to leave to are
log 38, the answer and the reset of `MOD_RESET` in one step are log 92. -/
theorem moduleCommandsReadTagModeReset : Obligations.ModuleCommandsReadTagModeReset := by
  refine ⟨fun s a ch h p c => ⟨fun r => execModIdentify_runs r, fun r => execModStatus_runs r, fun r => ?tagRead⟩, fun s a ch h p c r => ?tagWrite,
    fun s a ch h p c r => ?setmode, fun s a ch h p c r => ?reset⟩
  all_goals obtain ⟨-, rfl⟩ := runs_hdr r
  case tagRead => rw [execModTagRead_runs r, State.cmdModTagRead_eq, finish_ite, finish_no, finish_read]
  case tagWrite =>
    rw [execModTagWrite_runs r]
    refine ⟨fun bad => ?_, fun ⟨zeroed, fits⟩ => ⟨a.putTags (leAt c.p 0 2) 0 (c.p.drop 4), ?_, fun k low => ?_, ?_⟩⟩
    · rw [State.cmdModTagWrite_of_bad bad, finish_no]
    · rw [State.cmdModTagWrite_of_fits zeroed fits, finish_done]
    · rw [State.getElem?_putTags _ _ low, List.getElem?_drop, List.length_drop]
    · exact State.putTags_only (by rw [List.length_drop]; omega)
  case setmode =>
    rw [execModSetmode_runs r]
    refine ⟨fun unfit => ?_, fun zeroed listed => ⟨fun present => ?_, fun change => ?_⟩⟩
    · rw [State.cmdModSetmode_of_unfit unfit, finish_no]
    · rw [State.cmdModSetmode_of_present ⟨listed, zeroed⟩ present, finish_idle]
    have fits : setmodeFits c.p := ⟨listed, zeroed⟩
    refine ⟨fun to_ => ?_, fun to_ => ?_, fun to_ => ?_, fun to_ from_ => ?_, fun to_ from_ => ?_, fun to_ from_ => ?_, fun to_ from_ => ?_,
      fun to_ busy => ?_, fun to_ free => ⟨a.parkLater c, ?_, a.parkLater_shows c⟩⟩
    · rw [State.cmdModSetmode_commissions fits change to_, finish_done]
    · rw [State.cmdModSetmode_maintains fits change to_, finish_done]
    · rw [State.cmdModSetmode_updates fits change to_, finish_done]
    · rw [State.cmdModSetmode_synchronises fits change to_, State.toSync_of_commissioning from_, finish_ite, finish_done, finish_no]
    · rw [State.cmdModSetmode_synchronises fits change to_, State.toSync_of_maintenance from_, finish_ite, finish_done, finish_no]
    · rw [State.cmdModSetmode_synchronises fits change to_, State.toSync_of_update from_, finish_ite, finish_done, finish_no]
    · rw [State.cmdModSetmode_synchronises fits change to_, State.toSync_of_parked from_, finish_later]
      rfl
    · rw [State.cmdModSetmode_parks fits change to_, State.toParked_of_busy busy, finish_no]
    · rw [State.cmdModSetmode_parks fits change to_, State.toParked_of_free free, finish_later]
  case reset =>
    obtain ⟨mode, cause, chan⟩ := (a.answered c [] true).moduleReset_regs 1 c.chan 4
    obtain ⟨mb, queued⟩ := (a.answered c [] true).moduleReset_mailbox 1 c.chan 4
    obtain ⟨-, -, -, -, state, forces, -, -, waiting, laneA, laneB, laneC, laneD, parts⟩ := (a.answered c [] true).moduleReset_leaves 1 c.chan 4
    exact ⟨_, execModReset_runs r, rfl, mode, cause, chan, mb, queued, waiting, state, forces, parts, laneA, laneB, laneC, laneD⟩

end Sys2Proof.Proofs

/-! SUPPORT. The stored settings (R469, R480, R483, R486, R519): what a legal payload is, what it writes, how its command answers. -/

namespace Sys2Proof.Machine
open Sys2Proof.Safety

theorem byteAt_lt (p : List Byte) (i : Nat) : byteAt p i < 256 := BitVec.isLt _

/-! ### Registers written together (R11, R12) -/

theorem Regs.rd_put_ne (r : Regs) {e : Nat × Word} {a : Nat} (ne : e.1 ≠ a) : (r.put e).rd a = r.rd a := by
  unfold Regs.put
  split
  · exact Regs.rd_wr_ne _ _ ne.symm
  · rfl

theorem Regs.rd_put_same (r : Regs) {e : Nat × Word} {fs : List RegFld} (known : regFlds e.1 = some fs) :
    (r.put e).rd e.1 = mergeFlds true (r.rd e.1) e.2 fs := by
  rw [Regs.put, known]
  exact Regs.rd_wr_same _ _ _

theorem Regs.rd_puts_ne (ws : List (Nat × Word)) (r : Regs) {a : Nat} (ne : ∀ e ∈ ws, e.1 ≠ a) : (ws.foldl Regs.put r).rd a = r.rd a :=
  List.foldlRecOn ws _ (motive := fun t : Regs => t.rd a = r.rd a) rfl fun t kept e mem => (t.rd_put_ne (ne e mem)).trans kept

theorem Regs.rd_puts_same {ws : List (Nat × Word)} (apart : (ws.map Prod.fst).Nodup) (r : Regs) {e : Nat × Word} (mem : e ∈ ws) {fs : List RegFld}
    (known : regFlds e.1 = some fs) : (ws.foldl Regs.put r).rd e.1 = mergeFlds true (r.rd e.1) e.2 fs := by
  obtain ⟨before, after, rfl⟩ := List.append_of_mem mem
  rw [List.map_append, List.map_cons, List.nodup_append] at apart
  obtain ⟨-, tail, cross⟩ := apart
  have later : ∀ x ∈ after, x.1 ≠ e.1 := fun x mem same => (List.nodup_cons.1 tail).1 (List.mem_map.2 ⟨x, mem, same⟩)
  have earlier : ∀ x ∈ before, x.1 ≠ e.1 := fun x mem => cross x.1 (List.mem_map.2 ⟨x, mem, rfl⟩) e.1 List.mem_cons_self
  rw [List.foldl_append, List.foldl_cons, Regs.rd_puts_ne after _ later, Regs.rd_put_same _ known, Regs.rd_puts_ne before r earlier]

/-- Registers written together, whatever is legal. -/
def State.putRegs (s : State) (ws : List (Nat × Word)) : State := { s with regs := ws.foldl Regs.put s.regs }

theorem State.putRegs_wrote (s : State) {ws : List (Nat × Word)} (apart : (ws.map Prod.fst).Nodup) : Wrote s (s.putRegs ws) ws :=
  ⟨rfl, fun _ ne => Regs.rd_puts_ne ws s.regs ne, fun _ mem _ known => Regs.rd_puts_same apart s.regs mem known⟩

theorem State.putAll_of_legal {s : State} {ws : List (Nat × Word)} (legal : ∀ e ∈ ws, s.legal (s.putRegs ws).regs e.1 = true) :
    s.putAll ws = some (s.putRegs ws) := if_pos (List.all_eq_true.2 legal)

theorem State.putAll_of_illegal {s : State} {ws : List (Nat × Word)} (illegal : ¬ ∀ e ∈ ws, s.legal (s.putRegs ws).regs e.1 = true) :
    s.putAll ws = none := if_neg fun all => illegal (List.all_eq_true.1 all)

/-! ### `MOD_WAKECFG` (R469) -/

/-- The two registers that `MOD_WAKECFG` writes. -/
def wakeRegs (p : List Byte) : List (Nat × Word) := [(0x40090024, wordOf p 4), (0x40090020, BitVec.ofNat 32 (byteAt p 0 + 32 * byteAt p 1))]

/-- What `MOD_WAKECFG` asks of its payload's bytes. -/
def wakeFits (p : List Byte) : Prop := byteAt p 2 = 0 ∧ byteAt p 3 = 0 ∧ byteAt p 0 ≤ 16 ∧ byteAt p 1 < 4

theorem wakeFits_iff (p : List Byte) :
    ¬ wakeFits p ↔ (byteAt p 2 != 0 || byteAt p 3 != 0 || decide (byteAt p 0 > 16) || decide (byteAt p 1 ≥ 4)) = true := by
  simp only [wakeFits, not_and_or, Bool.or_eq_true, bne_iff_ne, ne_eq, decide_eq_true_eq, gt_iff_lt, ge_iff_le, not_le, not_lt, or_assoc]

theorem State.applyWake_of_unfit {s : State} {p : List Byte} (unfit : ¬ wakeFits p) : s.applyWake p = none := if_pos ((wakeFits_iff p).1 unfit)

theorem State.applyWake_of_fits {s : State} {p : List Byte} (fits : wakeFits p) : s.applyWake p = s.putAll (wakeRegs p) :=
  if_neg fun failed => (wakeFits_iff p).2 failed fits

/-- The registers of the wake setting as `MOD_WAKECFG` leaves them. -/
theorem State.putWake_shows (s : State) {p : List Byte} (fits : wakeFits p) : let t := s.putRegs (wakeRegs p)
    t.g LC_WAKE_WAKEDI = byteAt p 0 ∧ t.g LC_WAKE_EDGE = byteAt p 1 % 2 ∧ t.g LC_WAKE_RTCEN = byteAt p 1 / 2 ∧ t.g LC_WAKET_SEC = leAt p 4 4 ∧
    OnlyRegs s t (regIn [LC_WAKE_WAKEDI, LC_WAKET_SEC]) := by
  obtain ⟨-, -, input, flags⟩ := fits
  obtain ⟨same, others, written⟩ := s.putRegs_wrote (ws := wakeRegs p) (by decide : [0x40090024, 0x40090020].Nodup)
  have time := written (0x40090024, wordOf p 4) (by simp [wakeRegs]) [⟨0, 32, .rwm, 0⟩]
    (by decide : regFlds 0x40090024 = some [⟨0, 32, .rwm, 0⟩])
  have wake := written (0x40090020, BitVec.ofNat 32 (byteAt p 0 + 32 * byteAt p 1)) (by simp [wakeRegs])
    [⟨0, 5, .rwm, 0⟩, ⟨5, 1, .rwm, 0⟩, ⟨6, 1, .rwm, 0⟩] (by decide : regFlds 0x40090020 = some [⟨0, 5, .rwm, 0⟩, ⟨5, 1, .rwm, 0⟩, ⟨6, 1, .rwm, 0⟩])
  simp only [mergeFlds, if_true] at time wake
  have low := leAt_lt p 4 4
  refine ⟨?_, ?_, ?_, ?_, same, fun a off => others a ?_⟩
  · rw [State.g, Regs.g, LC_WAKE_WAKEDI, wake]
    simp (disch := decide) only [getBits_putBits_apart, getBits_putBits_same]
    simp only [getBits, BitVec.toNat_ofNat, Nat.shiftRight_eq_div_pow]
    omega
  · rw [State.g, Regs.g, LC_WAKE_EDGE, wake]
    simp (disch := decide) only [getBits_putBits_apart, getBits_putBits_same]
    simp only [getBits, BitVec.toNat_ofNat, Nat.shiftRight_eq_div_pow]
    omega
  · rw [State.g, Regs.g, LC_WAKE_RTCEN, wake]
    simp (disch := decide) only [getBits_putBits_same]
    simp only [getBits, BitVec.toNat_ofNat, Nat.shiftRight_eq_div_pow]
    omega
  · rw [State.g, Regs.g, LC_WAKET_SEC, time]
    simp (disch := decide) only [getBits_putBits_same]
    simp only [getBits, wordOf, BitVec.toNat_ofNat, Nat.shiftRight_eq_div_pow]
    omega
  · intro e mem at_
    simp only [wakeRegs, List.mem_cons, List.not_mem_nil, or_false] at mem
    rcases mem with rfl | rfl
    · exact off ⟨LC_WAKET_SEC, by simp, at_.symm⟩
    · exact off ⟨LC_WAKE_WAKEDI, by simp, at_.symm⟩

theorem State.legal_wake (s : State) (r : Regs) {a : Nat} (wake : a / 0x10000 = 0x4009) :
    s.legal r a = (decide (r.g LC_WAKE_WAKEDI ≤ 16) && (r.g LC_WAKE_RTCEN == 0 || r.g LC_WAKET_SEC != 0)) := by
  rw [State.legal, wake]
  rfl

theorem State.wake_legal_iff (s : State) {p : List Byte} (fits : wakeFits p) :
    (∀ e ∈ wakeRegs p, s.legal (s.putRegs (wakeRegs p)).regs e.1 = true) ↔ byteAt p 1 < 2 ∨ leAt p 4 4 ≠ 0 := by
  obtain ⟨di, -, rtc, sec, -⟩ := s.putWake_shows fits
  have input : byteAt p 0 ≤ 16 := fits.2.2.1
  have at_ (a : Nat) (wake : a / 0x10000 = 0x4009) : s.legal (s.putRegs (wakeRegs p)).regs a = true ↔ byteAt p 1 < 2 ∨ leAt p 4 4 ≠ 0 := by
    rw [s.legal_wake _ wake, ← State.g, ← State.g, ← State.g, di, rtc, sec]
    simp only [Bool.and_eq_true, Bool.or_eq_true, decide_eq_true_eq, beq_iff_eq, bne_iff_ne, input, true_and, Nat.div_eq_zero_iff]
    simp
  refine ⟨fun all => (at_ 0x40090024 (by decide)).1 (all (0x40090024, wordOf p 4) (by simp [wakeRegs])), fun legal e mem => ?_⟩
  simp only [wakeRegs, List.mem_cons, List.not_mem_nil, or_false] at mem
  rcases mem with rfl | rfl
  · exact (at_ 0x40090024 (by decide)).2 legal
  · exact (at_ 0x40090020 (by decide)).2 legal

/-! ### `TIME_CONFIG` and `ETH_CONFIG` (R480, R483) -/

/-- The registers that `TIME_CONFIG` writes. -/
def timeRegs (p : List Byte) : List (Nat × Word) :=
  (0x50030004, wordOf p 0) :: (0x50030008, BitVec.ofNat 32 (leAt p 4 2)) :: (0x50000030, BitVec.ofNat 32 (byteAt p 6)) ::
    [0, 1, 2, 3].map (fun n => (0x50030048 + 16 * n, wordOf p (8 + 4 * n)))

/-- The registers that `ETH_CONFIG` writes. -/
def ethRegs (p : List Byte) : List (Nat × Word) :=
  (0x50030000, wordOf p 0) :: [0, 1, 2, 3, 4].map (fun n => (0x50030040 + 16 * n, wordOf p (4 + 4 * n)))

theorem timeRegs_apart (p : List Byte) : ((timeRegs p).map Prod.fst).Nodup :=
  (by decide : [0x50030004, 0x50030008, 0x50000030, 0x50030048, 0x50030058, 0x50030068, 0x50030078].Nodup)

theorem ethRegs_apart (p : List Byte) : ((ethRegs p).map Prod.fst).Nodup :=
  (by decide : [0x50030000, 0x50030040, 0x50030050, 0x50030060, 0x50030070, 0x50030080].Nodup)

section
variable {s : State} {p : List Byte}

theorem State.applyTime_of_reserved (reserved : ¬ (byteAt p 3 = 0 ∧ byteAt p 7 = 0)) : s.applyTime p = none := by
  refine if_pos ?_
  simpa only [Bool.or_eq_true, bne_iff_ne, ne_eq, not_and_or] using reserved

theorem State.applyTime_of_zeroed (zeroed : byteAt p 3 = 0 ∧ byteAt p 7 = 0) : s.applyTime p = (s.putAll (timeRegs p)).map State.ptpChoose :=
  (if_neg (by simp [zeroed])).trans rfl

/-- What `ETH_CONFIG` asks of its payload's last bytes. -/
def ethFits (p : List Byte) : Prop := byteAt p 29 = 0 ∧ byteAt p 30 = 0 ∧ byteAt p 31 = 0 ∧ 8 ≤ byteAt p 28 ∧ byteAt p 28 ≤ 30

theorem State.applyEth_of_unfit (unfit : ¬ ethFits p) : s.applyEth p = none := by
  refine if_pos ?_
  simpa only [ethFits, Bool.or_eq_true, bne_iff_ne, ne_eq, Bool.not_eq_true', ← Bool.not_eq_true, within_iff, not_and_or, or_assoc] using unfit

theorem State.applyEth_of_fits (fits : ethFits p) : s.applyEth p = s.putAll (ethRegs p) := by
  obtain ⟨a, b, c, low, high⟩ := fits
  exact (if_neg (by simp [a, b, c, within_iff.2 ⟨low, high⟩])).trans rfl

end

/-! ### `TIME_CAPTURE` (R479, R480) -/

/-- What `TIME_CAPTURE` asks of its payload, beside that the application maps no such channel. -/
def State.capFits (s : State) (p : List Byte) : Prop :=
  byteAt p 0 < 16 ∧ byteAt p 1 < 64 ∧ byteAt p 2 / 4 % 32 = 0 ∧ capCfgLegal (capWord p) = true ∧ ∀ e ∈ s.app.pkg.capMap, e.1 ≠ byteAt p 0

theorem State.capFits_iff (s : State) (p : List Byte) : ¬ s.capFits p ↔
    (decide (byteAt p 0 ≥ 16) || decide (byteAt p 1 ≥ 64) || byteAt p 2 / 4 % 32 != 0 || !capCfgLegal (capWord p) ||
      s.app.pkg.capMap.any (fun e => e.1 == byteAt p 0)) = true := by
  simp only [State.capFits, not_and_or, Bool.or_eq_true, bne_iff_ne, ne_eq, decide_eq_true_eq, ge_iff_le, not_lt, Bool.not_eq_true', ← Bool.not_eq_true,
    List.any_eq_true, beq_iff_eq, not_forall, not_not, or_assoc, exists_prop]

theorem capWord_bits {p : List Byte} (source : byteAt p 1 < 64) : getBits (capWord p) 0 6 = byteAt p 1 ∧ getBits (capWord p) 6 2 = byteAt p 2 % 4 ∧
    getBits (capWord p) 8 8 = byteAt p 3 ∧ getBits (capWord p) 16 1 = byteAt p 2 / 128 := by
  have node := byteAt_lt p 3
  have flags := byteAt_lt p 2
  simp only [getBits, capWord, BitVec.toNat_ofNat, Nat.shiftRight_eq_div_pow]
  refine ⟨?_, ?_, ?_, ?_⟩ <;> omega

theorem State.capConfig_of_legal {s : State} {w : Word} (legal : capCfgLegal w = true) (n : Nat) : s.capConfig n w =
    if getBits w 16 1 = 1 ∧ s.on (TU_CAPCFG_EN n) = false then s.capRestarted n w else s.capConfigured n w := by
  refine (if_pos legal).trans (if_congr ?_ rfl rfl)
  simp

theorem State.capConfig_rises {s : State} {w : Word} (legal : capCfgLegal w = true) {n : Nat} (rises : getBits w 16 1 = 1 ∧ s.on (TU_CAPCFG_EN n) = false) :
    s.capConfig n w = s.capRestarted n w := (State.capConfig_of_legal legal n).trans (if_pos rises)

theorem State.capConfig_stays {s : State} {w : Word} (legal : capCfgLegal w = true) {n : Nat}
    (stays : ¬ (getBits w 16 1 = 1 ∧ s.on (TU_CAPCFG_EN n) = false)) : s.capConfig n w = s.capConfigured n w :=
  (State.capConfig_of_legal legal n).trans (if_neg stays)

theorem State.capRestarted_empty (s : State) (n : Nat) (w : Word) : let t := s.capRestarted n w
    t.g (TU_CAPSTAT_COUNT n) = 0 ∧ t.on (TU_CAPSTAT_VALID n) = false ∧ t.on (TU_CAPSTAT_STEPPED n) = false ∧ tabGet (fun _ => []) t.tu.caps n = [] := by
  obtain ⟨count, valid⟩ := (s.capConfigured n w).capCleared_shows n
  have stepped : ((s.capConfigured n w).capCleared n).g (TU_CAPSTAT_STEPPED n) = 0 := State.g_p_fits _ ⟨(by decide : 17 + 1 ≤ 32), (by decide : 0 < 2 ^ 1)⟩
  have shown := s.g_capRestarted n w
  refine ⟨(shown _).trans count, ?_, ?_, s.tu.capCleared_caps n⟩
  · rw [State.on, shown, valid]; rfl
  · rw [State.on, shown, stepped]; rfl

section
variable {s : State} {p : List Byte}

theorem State.applyCap_of_unfit (unfit : ¬ s.capFits p) : s.applyCap p = none := if_pos ((s.capFits_iff p).1 unfit)

theorem State.applyCap_of_fits (fits : s.capFits p) : s.applyCap p = some (s.capConfig (byteAt p 0) (capWord p)) :=
  if_neg fun failed => (s.capFits_iff p).2 failed fits

/-- What a legal `TIME_CAPTURE` leaves of its channel, whether `EN` rises or not. -/
theorem State.capConfigured_fields (n : Nat) (fits : s.capFits p) : let t := s.capConfigured n (capWord p)
    t.g (TU_CAPCFG_SRC n) = byteAt p 1 ∧ t.g (TU_CAPCFG_EDGE n) = byteAt p 2 % 4 ∧ t.g (TU_CAPCFG_NODE n) = byteAt p 3 ∧
    t.g (TU_CAPCFG_EN n) = byteAt p 2 / 128 := by
  obtain ⟨-, source, -⟩ := fits
  obtain ⟨src, edge, node, en⟩ := s.capConfigured_shows n (capWord p)
  obtain ⟨src_, edge_, node_, en_⟩ := capWord_bits source
  exact ⟨src.trans src_, edge.trans edge_, node.trans (node_ ▸ Nat.mod_eq_of_lt (node_ ▸ byteAt_lt p 3)), en.trans en_⟩

/-- And where `EN` rises. -/
theorem State.capRestarted_fields (s : State) (fits : s.capFits p) : let n := byteAt p 0; let t := s.capRestarted n (capWord p)
    t.g (TU_CAPCFG_SRC n) = byteAt p 1 ∧ t.g (TU_CAPCFG_EDGE n) = byteAt p 2 % 4 ∧ t.g (TU_CAPCFG_NODE n) = byteAt p 3 ∧
    t.g (TU_CAPCFG_EN n) = byteAt p 2 / 128 ∧ t = { s with regs := t.regs, tu := t.tu } ∧ RegsKeep s t (regIn [TU_CAPCFG_SRC n, TU_CAPSTAT_COUNT n]) := by
  obtain ⟨src, edge, node, en⟩ := State.capConfigured_fields (byteAt p 0) fits
  obtain ⟨same, keep⟩ := s.capRestarted_only (byteAt p 0) (capWord p)
  exact ⟨(s.capRestarted_config _ _ (f := TU_CAPCFG_SRC (byteAt p 0)) rfl).trans src, (s.capRestarted_config _ _ (f := TU_CAPCFG_EDGE (byteAt p 0)) rfl).trans edge,
    (s.capRestarted_config _ _ (f := TU_CAPCFG_NODE (byteAt p 0)) rfl).trans node, (s.capRestarted_config _ _ (f := TU_CAPCFG_EN (byteAt p 0)) rfl).trans en,
    by rw [same], keep⟩

theorem State.applyCap_rises (fits : s.capFits p) (rises : byteAt p 2 / 128 = 1 ∧ s.on (TU_CAPCFG_EN (byteAt p 0)) = false) :
    s.applyCap p = some (s.capRestarted (byteAt p 0) (capWord p)) := by
  obtain ⟨-, source, -, legal, -⟩ := id fits
  rw [State.applyCap_of_fits fits, State.capConfig_rises legal ⟨(capWord_bits source).2.2.2.trans rises.1, rises.2⟩]

theorem State.applyCap_stays (fits : s.capFits p) (stays : ¬ (byteAt p 2 / 128 = 1 ∧ s.on (TU_CAPCFG_EN (byteAt p 0)) = false)) :
    s.applyCap p = some (s.capConfigured (byteAt p 0) (capWord p)) := by
  obtain ⟨-, source, -, legal, -⟩ := id fits
  rw [State.applyCap_of_fits fits, State.capConfig_stays legal fun rises => stays ⟨(capWord_bits source).2.2.2.symm.trans rises.1, rises.2⟩]

end

/-! ### `TIME_TRIGGER` (R480) -/

/-- The registers that `TIME_TRIGGER` writes. -/
def trigRegs (p : List Byte) : List (Nat × Word) :=
  [((TU_TRGCFG_TGT (byteAt p 0)).reg, BitVec.ofNat 32 (byteAt p 1 + 64 * byteAt p 2 + 256 * leAt p 4 2 + 0x1000000 * byteAt p 3)),
    ((TU_TRGPER_NS (byteAt p 0)).reg, wordOf p 16)]

theorem trigRegs_apart (p : List Byte) : ((trigRegs p).map Prod.fst).Nodup := by
  simp only [trigRegs, List.map_cons, List.map_nil, List.nodup_cons, List.mem_singleton, List.not_mem_nil, not_false_iff, List.nodup_nil, and_true,
    TU_TRGCFG_TGT, TU_TRGPER_NS]
  omega

/-- What `TIME_TRIGGER` asks of its payload's fields. -/
def State.trigFits (s : State) (p : List Byte) : Prop :=
  byteAt p 0 < 16 ∧ s.on (TU_TRGCFG_APP (byteAt p 0)) = false ∧ byteAt p 1 < 64 ∧ byteAt p 2 ≤ 3 ∧ byteAt p 3 ≤ 1 ∧ leAt p 6 2 = 0

theorem State.trigFits_iff (s : State) (p : List Byte) : s.trigFits p ↔
    ¬ (decide (byteAt p 0 ≥ 16) || s.on (TU_TRGCFG_APP (byteAt p 0)) || decide (byteAt p 2 > 3) || decide (byteAt p 3 > 1) || leAt p 6 2 != 0 ||
      decide (byteAt p 1 ≥ 64)) = true := by
  simp only [State.trigFits, Bool.or_eq_true, bne_iff_ne, ne_eq, decide_eq_true_eq, not_or, ge_iff_le, gt_iff_lt, not_le, not_lt, not_not, Bool.not_eq_true]
  exact ⟨fun ⟨a, b, c, d, e, f⟩ => ⟨⟨⟨⟨⟨a, b⟩, d⟩, e⟩, f⟩, c⟩, fun ⟨⟨⟨⟨⟨a, b⟩, d⟩, e⟩, f⟩, c⟩ => ⟨a, b, c, d, e, f⟩⟩

/-- A channel that is to be armed at a time, once that time is near. -/
def State.trigHeld (s : State) (n t : Nat) : State := { s with tu := { s.tu with trigLater := (n, t) :: s.tu.trigLater.filter (fun e => e.1 != n) } }

/-- A channel that is disarmed. -/
def State.trigOff (s : State) (n : Nat) : State :=
  ({ s with tu := { s.tu with trigLater := s.tu.trigLater.filter (fun e => e.1 != n), trigNext := tabSet (fun _ => none) s.tu.trigNext n none } } :
    State).p (TU_TRGSTAT_ARMED n) 0

theorem State.trigOff_shows (s : State) (n : Nat) : let t := s.trigOff n
    t.on (TU_TRGSTAT_ARMED n) = false ∧ (∀ e ∈ t.tu.trigLater, e.1 ≠ n) ∧ tabGet (fun _ => none) t.tu.trigNext n = none ∧
    t = { s with regs := t.regs, tu := t.tu } ∧ RegsKeep s t (regIn [TU_TRGSTAT_ARMED n]) := by
  refine ⟨congrArg (· == 1) (State.g_p_fits _ ⟨(by decide : 0 + 1 ≤ 32), (by decide : 0 < 2 ^ 1)⟩), fun e mem => ?_,
    tabGet_tabSet_same (fun _ => (none : Option Nat)) s.tu.trigNext n none, rfl, ?_⟩
  · exact bne_iff_ne.1 (List.mem_filter.1 mem).2
  · exact ((RegsKeep.refl s (regIn [TU_TRGSTAT_ARMED n])).of_regs rfl).p (TU_TRGSTAT_ARMED n) 0 ⟨_, by simp, rfl⟩

section
variable {s : State} {p : List Byte}

theorem State.applyTrig_of_unfit (unfit : ¬ s.trigFits p) : s.applyTrig p = none := if_pos (Classical.not_not.1 (mt (s.trigFits_iff p).2 unfit))

variable (fits : s.trigFits p)
include fits

theorem State.applyTrig_of_illegal (illegal : s.putAll (trigRegs p) = none) : s.applyTrig p = none := by
  refine (if_neg ((s.trigFits_iff p).1 fits)).trans ?_
  show (match s.putAll (trigRegs p) with | none => none | some _ => _) = none
  rw [illegal]

theorem State.applyTrig_of_held {u : State} (legal : s.putAll (trigRegs p) = some u) (held : byteAt p 3 = 1) :
    s.applyTrig p = some (u.trigHeld (byteAt p 0) (leAt p 12 4 * 2 ^ 32 + leAt p 8 4)) := by
  refine (if_neg ((s.trigFits_iff p).1 fits)).trans ?_
  show (match s.putAll (trigRegs p) with | none => none | some _ => _) = _
  rw [legal]
  exact if_pos (by simp [held])

theorem State.applyTrig_of_off {u : State} (legal : s.putAll (trigRegs p) = some u) (off : byteAt p 3 = 0) :
    s.applyTrig p = some (u.trigOff (byteAt p 0)) := by
  refine (if_neg ((s.trigFits_iff p).1 fits)).trans ?_
  show (match s.putAll (trigRegs p) with | none => none | some _ => _) = _
  rw [legal]
  exact if_neg (by simp [off])

end

/-! ### `FIO_CONFIG` (R486) -/

section
variable {f : State → Nat → State} {m : Nat}

/-- Of steps over a row of channels, each with registers of its own, a channel's registers are as its own step left them. -/
theorem row_rd {r : Nat} {j : Nat} (low : j < m) (keep : ∀ t, ∀ i < m, i ≠ j → (f t i).regs.rd r = t.regs.rd r) (s : State) :
    ∃ a : State, ((List.range m).foldl f s).regs.rd r = (f a j).regs.rd r := by
  obtain ⟨a, -, after⟩ := foldl_apart (K := fun t u : State => u.regs.rd r = t.regs.rd r) (fun _ => rfl) (fun h k => k.trans h) List.nodup_range
    (List.mem_range.2 low) (fun t i mem ne => keep t i (List.mem_range.1 mem) ne) s
  exact ⟨a, after⟩

/-- A register that no step of a row touches. -/
theorem row_rd_off {r : Nat} (keep : ∀ t, ∀ i < m, (f t i).regs.rd r = t.regs.rd r) (s : State) :
    ((List.range m).foldl f s).regs.rd r = s.regs.rd r :=
  List.foldlRecOn _ f (motive := fun t : State => t.regs.rd r = s.regs.rd r) rfl fun t kept i mem => (keep t i (List.mem_range.1 mem)).trans kept

end

/-- A field of a register that two states agree on. -/
theorem State.g_of_rd {s t : State} (f : Fld) (same : t.regs.rd f.reg = s.regs.rd f.reg) : t.g f = s.g f := by rw [State.g, State.g, Regs.g, Regs.g, same]

section
variable (p : List Byte)

/-- A digital input's filter limit. -/
def State.fioTop (s : State) (i : Nat) : State := s.setTop (i + 1) (byteAt p i)

/-- A high-side output's safe value and open-wire test. -/
def State.fioHso (s : State) (i : Nat) : State := (s.p (FD_HSOCFG_SAFE (i + 1)) (byteAt p (16 + i))).p (FD_HSOCFG_OWOFF (i + 1)) (byteAt p (16 + i) / 4)

/-- A fast output's safe value. -/
def State.fioFpp (s : State) (i : Nat) : State := s.p (FD_FPPCFG_SAFE (i + 1)) (byteAt p (28 + i))

/-- The word of a payload for an analogue channel. -/
def fioWord (i : Nat) : Nat := leAt p (36 + 2 * i) 2

/-- An analogue channel's fields after its mode. -/
def State.fioFields (s : State) (i : Nat) : State :=
  (((s.p (AN_CFG_SAFE (i + 1)) (fioWord p i / 4)).p (AN_CFG_ALHIGH (i + 1)) (fioWord p i / 16)).p (AN_CFG_CONV (i + 1)) (fioWord p i / 32)).p
    (AN_CFG_AVG (i + 1)) (fioWord p i / 64)

/-- An analogue channel's configuration. -/
def State.fioLoop (s : State) (i : Nat) : State := ((s.aioMode (i + 1) (fioWord p i % 4)).fioFields p i).effAlarm (i + 1)

/-- The digital channels of a payload. -/
def State.fioDigital (s : State) : State :=
  ((List.range 4).foldl (State.fioFpp p) ((List.range 12).foldl (State.fioHso p) ((List.range 16).foldl (State.fioTop p) s))).p FD_SILCFG_N (byteAt p 32)

/-- The field configuration of a payload, before the outputs follow. -/
def State.fioSet (s : State) : State := (List.range 6).foldl (State.fioLoop p) (s.fioDigital p)

/-- The field interface, configured. -/
def State.fioDone (s : State) : State := { s.fioSet p with fd := { (s.fioSet p).fd with configured := true } }

/-- What `FIO_CONFIG` asks of its payload. -/
def State.fioFits (s : State) : Prop :=
  (∀ i, i < 16 → byteAt p i ≠ 0) ∧ (∀ i, i < 12 → byteAt p (16 + i) < 8 ∧ byteAt p (16 + i) % 4 ≠ 3) ∧ (∀ i, i < 4 → byteAt p (28 + i) < 3) ∧
  3 ≤ byteAt p 32 ∧ leAt p 33 3 = 0 ∧ ∀ i, i < 6 → fioWord p i < 512 ∧ fioWord p i / 4 % 4 ≠ 3 ∧ s.modeFits (i + 1) (fioWord p i % 4) = true

theorem State.fioFits_iff (s : State) : s.fioFits p ↔
    ((List.range 16).all (fun i => byteAt p i != 0) && (List.range 12).all (fun i => decide (byteAt p (16 + i) < 8) && byteAt p (16 + i) % 4 != 3) &&
      (List.range 4).all (fun i => decide (byteAt p (28 + i) < 3)) && decide (3 ≤ byteAt p 32) && leAt p 33 3 == 0 &&
      (List.range 6).all (fun i => decide (leAt p (36 + 2 * i) 2 < 512) && leAt p (36 + 2 * i) 2 / 4 % 4 != 3 &&
        s.modeFits (i + 1) (leAt p (36 + 2 * i) 2 % 4))) = true := by
  simp only [State.fioFits, fioWord, Bool.and_eq_true, List.all_eq_true, List.mem_range, bne_iff_ne, decide_eq_true_eq, beq_iff_eq, and_assoc]

variable {p} in
theorem State.applyFio_of_unfit {s : State} (unfit : ¬ s.fioFits p) : s.applyFio p = none := if_pos (of_check_failed (s.fioFits_iff p) unfit)

variable {p} in
theorem State.applyFio_of_fits {s : State} (fits : s.fioFits p) : s.applyFio p = some (s.fioDone p).driveOutputs :=
  (if_neg (not_of_check (s.fioFits_iff p) fits)).trans rfl

/-! What each step leaves of the registers. -/

theorem State.fioTop_regs {s : State} {i : Nat} (top : byteAt p i ≠ 0) : (s.fioTop p i).regs = (s.p (FD_DICFG_TOP (i + 1)) (byteAt p i)).regs := by
  rw [State.fioTop, State.setTop, if_neg (by simpa using top)]
  rfl

theorem State.fioHso_rd (s : State) {i r : Nat} (off : r ≠ (FD_HSOCFG_SAFE (i + 1)).reg) : (s.fioHso p i).regs.rd r = s.regs.rd r := by
  rw [State.fioHso, State.rd_p_ne (f := FD_HSOCFG_OWOFF (i + 1)) _ _ off, State.rd_p_ne _ _ off]

theorem State.fioFpp_rd (s : State) {i r : Nat} (off : r ≠ (FD_FPPCFG_SAFE (i + 1)).reg) : (s.fioFpp p i).regs.rd r = s.regs.rd r :=
  State.rd_p_ne s _ off

theorem State.aioMode_of_same {s : State} {n mode : Nat} (same : s.g (AN_CFG_MODE n) = mode) : s.aioMode n mode = s := if_pos (by simp [same])

theorem State.aioMode_regs {s : State} {n mode : Nat} (other : s.g (AN_CFG_MODE n) ≠ mode) :
    (s.aioMode n mode).regs = ((s.p (AN_CFG_MODE n) mode).p (AN_STAT_NSTAT n) 5).regs := by
  rw [State.aioMode, if_neg (by simpa using other)]
  rfl

theorem State.aioMode_rd (s : State) {n mode r : Nat} (cfg : r ≠ (AN_CFG_MODE n).reg) (stat : r ≠ (AN_STAT_OPEN n).reg) :
    (s.aioMode n mode).regs.rd r = s.regs.rd r := by
  by_cases same : s.g (AN_CFG_MODE n) = mode
  · rw [State.aioMode_of_same same]
  · rw [State.aioMode_regs same, State.rd_p_ne (f := AN_STAT_NSTAT n) _ _ stat, State.rd_p_ne _ _ cfg]

theorem State.g_aioMode (s : State) {n mode : Nat} (low : mode < 4) : (s.aioMode n mode).g (AN_CFG_MODE n) = mode := by
  by_cases same : s.g (AN_CFG_MODE n) = mode
  · rw [State.aioMode_of_same same, same]
  · have apart : (AN_CFG_MODE n).reg ≠ (AN_STAT_NSTAT n).reg := by simp only [AN_CFG_MODE, AN_STAT_NSTAT]; omega
    rw [State.g, State.aioMode_regs same, ← State.g, State.g_p_reg _ _ apart]
    exact State.g_p_fits s ⟨(by decide : 0 + 2 ≤ 32), low⟩

theorem State.fioFields_rd (s : State) {i r : Nat} (cfg : r ≠ (AN_CFG_MODE (i + 1)).reg) : (s.fioFields p i).regs.rd r = s.regs.rd r := by
  rw [State.fioFields, State.rd_p_ne (f := AN_CFG_AVG (i + 1)) _ _ cfg, State.rd_p_ne (f := AN_CFG_CONV (i + 1)) _ _ cfg,
    State.rd_p_ne (f := AN_CFG_ALHIGH (i + 1)) _ _ cfg, State.rd_p_ne (f := AN_CFG_SAFE (i + 1)) _ _ cfg]

theorem State.fioLoop_rd (s : State) {i r : Nat} (cfg : r ≠ (AN_CFG_MODE (i + 1)).reg) (stat : r ≠ (AN_STAT_OPEN (i + 1)).reg) :
    (s.fioLoop p i).regs.rd r = s.regs.rd r := by
  rw [State.fioLoop, State.effAlarm, State.pb, State.rd_p_ne (f := AN_STAT_ALEFF (i + 1)) _ _ stat, State.fioFields_rd p _ cfg, State.aioMode_rd _ cfg stat]

theorem State.fioFields_shows (s : State) {i : Nat} (low : fioWord p i < 512) : let t := s.fioFields p i
    t.g (AN_CFG_MODE (i + 1)) = s.g (AN_CFG_MODE (i + 1)) ∧ t.g (AN_CFG_SAFE (i + 1)) = fioWord p i / 4 % 4 ∧
    t.g (AN_CFG_ALHIGH (i + 1)) = fioWord p i / 16 % 2 ∧ t.g (AN_CFG_CONV (i + 1)) = fioWord p i / 32 % 2 ∧ t.g (AN_CFG_AVG (i + 1)) = fioWord p i / 64 := by
  have avg : fioWord p i / 64 < 2 ^ 3 := by omega
  simp only [State.fioFields, AN_CFG_MODE, AN_CFG_SAFE, AN_CFG_ALHIGH, AN_CFG_CONV, AN_CFG_AVG]
  refine ⟨?_, ?_, ?_, ?_, State.g_p_fits _ ⟨(by decide : 6 + 3 ≤ 32), avg⟩⟩ <;> simp (disch := simp) only [State.g_p_off, State.g_p_same, pow_one, Nat.reducePow]

theorem State.fioLoop_shows (s : State) {i : Nat} (low : fioWord p i < 512) : let t := s.fioLoop p i
    t.g (AN_CFG_MODE (i + 1)) = fioWord p i % 4 ∧ t.g (AN_CFG_SAFE (i + 1)) = fioWord p i / 4 % 4 ∧
    t.g (AN_CFG_ALHIGH (i + 1)) = fioWord p i / 16 % 2 ∧ t.g (AN_CFG_CONV (i + 1)) = fioWord p i / 32 % 2 ∧ t.g (AN_CFG_AVG (i + 1)) = fioWord p i / 64 := by
  obtain ⟨mode, safe, alarm, conv, avg⟩ := (s.aioMode (i + 1) (fioWord p i % 4)).fioFields_shows p low
  have kept (f : Fld) (cfg : f.reg = (AN_CFG_MODE (i + 1)).reg) :
      (s.fioLoop p i).g f = ((s.aioMode (i + 1) (fioWord p i % 4)).fioFields p i).g f := by
    refine State.g_pb_off _ _ (.inl ?_)
    rw [cfg]
    simp only [AN_CFG_MODE, AN_STAT_ALEFF]
    omega
  exact ⟨(kept (AN_CFG_MODE (i + 1)) rfl).trans (mode.trans (s.g_aioMode (Nat.mod_lt _ (by decide)))), (kept (AN_CFG_SAFE (i + 1)) rfl).trans safe,
    (kept (AN_CFG_ALHIGH (i + 1)) rfl).trans alarm, (kept (AN_CFG_CONV (i + 1)) rfl).trans conv, (kept (AN_CFG_AVG (i + 1)) rfl).trans avg⟩

/-! The whole configuration. -/

theorem State.fioSet_digital (s : State) (f : Fld) (digital : f.reg < 0x60010000) : (s.fioSet p).g f = (s.fioDigital p).g f :=
  State.g_of_rd f (row_rd_off (fun t i _ => t.fioLoop_rd p (by simp only [AN_CFG_MODE]; omega) (by simp only [AN_STAT_OPEN]; omega)) _)

theorem State.fioSet_loop (s : State) {i : Nat} (low : i < 6) (small : fioWord p i < 512) : let t := s.fioSet p
    t.g (AN_CFG_MODE (i + 1)) = fioWord p i % 4 ∧ t.g (AN_CFG_SAFE (i + 1)) = fioWord p i / 4 % 4 ∧
    t.g (AN_CFG_ALHIGH (i + 1)) = fioWord p i / 16 % 2 ∧ t.g (AN_CFG_CONV (i + 1)) = fioWord p i / 32 % 2 ∧ t.g (AN_CFG_AVG (i + 1)) = fioWord p i / 64 := by
  obtain ⟨a, own⟩ := row_rd (f := State.fioLoop p) (r := (AN_CFG_MODE (i + 1)).reg) low (fun t j _ ne => t.fioLoop_rd p
    (by simp only [AN_CFG_MODE]; omega) (by simp only [AN_CFG_MODE, AN_STAT_OPEN]; omega)) (s.fioDigital p)
  obtain ⟨mode, safe, alarm, conv, avg⟩ := a.fioLoop_shows p small
  exact ⟨(State.g_of_rd (AN_CFG_MODE (i + 1)) own).trans mode, (State.g_of_rd (AN_CFG_SAFE (i + 1)) own).trans safe,
    (State.g_of_rd (AN_CFG_ALHIGH (i + 1)) own).trans alarm, (State.g_of_rd (AN_CFG_CONV (i + 1)) own).trans conv,
    (State.g_of_rd (AN_CFG_AVG (i + 1)) own).trans avg⟩

theorem State.fioDigital_fpp (s : State) {i : Nat} (low : i < 4) (small : byteAt p (28 + i) < 3) :
    (s.fioDigital p).g (FD_FPPCFG_SAFE (i + 1)) = byteAt p (28 + i) := by
  obtain ⟨a, own⟩ := row_rd (f := State.fioFpp p) (r := (FD_FPPCFG_SAFE (i + 1)).reg) low (fun t j _ ne => t.fioFpp_rd p
    (by simp only [FD_FPPCFG_SAFE]; omega)) ((List.range 12).foldl (State.fioHso p) ((List.range 16).foldl (State.fioTop p) s))
  have apart : (FD_FPPCFG_SAFE (i + 1)).reg ≠ FD_SILCFG_N.reg := by simp only [FD_FPPCFG_SAFE, FD_SILCFG_N]; omega
  exact (State.g_p_reg _ _ apart).trans ((State.g_of_rd (FD_FPPCFG_SAFE (i + 1)) own).trans
    (State.g_p_fits a ⟨(by decide : 0 + 2 ≤ 32), (by omega : byteAt p (28 + i) < 2 ^ 2)⟩))

/-- What the fast outputs and the silence limit leave of an earlier register. -/
theorem State.fioDigital_early (s : State) (f : Fld) (early : f.reg < 0x60000180) (off : f.reg ≠ FD_SILCFG_N.reg) :
    (s.fioDigital p).g f = ((List.range 12).foldl (State.fioHso p) ((List.range 16).foldl (State.fioTop p) s)).g f :=
  (State.g_p_reg _ _ off).trans (State.g_of_rd f (row_rd_off (fun t i _ => t.fioFpp_rd p (by simp only [FD_FPPCFG_SAFE]; omega)) _))

theorem State.fioDigital_hso (s : State) {i : Nat} (low : i < 12) (small : byteAt p (16 + i) < 8) :
    (s.fioDigital p).g (FD_HSOCFG_SAFE (i + 1)) = byteAt p (16 + i) % 4 ∧ (s.fioDigital p).g (FD_HSOCFG_OWOFF (i + 1)) = byteAt p (16 + i) / 4 := by
  obtain ⟨a, own⟩ := row_rd (f := State.fioHso p) (r := (FD_HSOCFG_SAFE (i + 1)).reg) low (fun t j _ ne => t.fioHso_rd p
    (by simp only [FD_HSOCFG_SAFE]; omega)) ((List.range 16).foldl (State.fioTop p) s)
  have place : (FD_HSOCFG_SAFE (i + 1)).reg < 0x60000180 ∧ (FD_HSOCFG_SAFE (i + 1)).reg ≠ FD_SILCFG_N.reg := by
    simp only [FD_HSOCFG_SAFE, FD_SILCFG_N]
    omega
  have test : byteAt p (16 + i) / 4 < 2 ^ 1 := by omega
  refine ⟨(s.fioDigital_early p (FD_HSOCFG_SAFE (i + 1)) place.1 place.2).trans ((State.g_of_rd (FD_HSOCFG_SAFE (i + 1)) own).trans ?_),
    (s.fioDigital_early p (FD_HSOCFG_OWOFF (i + 1)) place.1 place.2).trans ((State.g_of_rd (FD_HSOCFG_OWOFF (i + 1)) own).trans
      (State.g_p_fits _ ⟨(by decide : 2 + 1 ≤ 32), test⟩))⟩
  exact (State.g_p_off _ _ (.inr ⟨(by decide : 2 + 1 ≤ 32), .inr (by decide : 0 + 2 ≤ 2)⟩)).trans (State.g_p_same _ _ _ (by decide : 0 + 2 ≤ 32))

theorem State.fioDigital_top (s : State) (tops : ∀ i, i < 16 → byteAt p i ≠ 0) {i : Nat} (low : i < 16) :
    (s.fioDigital p).g (FD_DICFG_TOP (i + 1)) = byteAt p i := by
  obtain ⟨a, own⟩ := row_rd (f := State.fioTop p) (r := (FD_DICFG_TOP (i + 1)).reg) low (fun t j small ne => by
    rw [State.fioTop_regs p (tops j small)]
    exact Regs.rd_p_ne _ _ (by simp only [FD_DICFG_TOP]; omega)) s
  have place : (FD_DICFG_TOP (i + 1)).reg < 0x60000100 ∧ (FD_DICFG_TOP (i + 1)).reg ≠ FD_SILCFG_N.reg := by
    simp only [FD_DICFG_TOP, FD_SILCFG_N]
    omega
  have hso : ((List.range 12).foldl (State.fioHso p) ((List.range 16).foldl (State.fioTop p) s)).g (FD_DICFG_TOP (i + 1)) = _ :=
    State.g_of_rd (FD_DICFG_TOP (i + 1)) (row_rd_off (fun t j _ => t.fioHso_rd p (by simp only [FD_HSOCFG_SAFE]; omega)) _)
  have set : (a.fioTop p i).g (FD_DICFG_TOP (i + 1)) = byteAt p i := by
    rw [State.g, State.fioTop_regs p (tops i low)]
    exact State.g_p_fits a ⟨(by decide : 0 + 8 ≤ 32), byteAt_lt p i⟩
  exact (s.fioDigital_early p (FD_DICFG_TOP (i + 1)) (by omega) place.2).trans (hso.trans ((State.g_of_rd (FD_DICFG_TOP (i + 1)) own).trans set))

end

/-! ### The commands -/

section
variable {s t : State} {i : CmdIn}

theorem State.cmdModWakecfg_of_some (legal : s.applyWake i.p = some t) :
    s.cmdModWakecfg i = .done (({ t with cfg := { t.cfg with wake := some i.p } } : State).stamp 11) := by rw [State.cmdModWakecfg, legal]

theorem State.cmdModWakecfg_of_none (illegal : s.applyWake i.p = none) : s.cmdModWakecfg i = .no s stBadParam := by rw [State.cmdModWakecfg, illegal]

theorem State.cmdTimeConfig_of_some (legal : s.applyTime i.p = some t) :
    s.cmdTimeConfig i = .done (({ t with cfg := { t.cfg with time := some i.p } } : State).stamp 8) := by rw [State.cmdTimeConfig, legal]

theorem State.cmdTimeConfig_of_none (illegal : s.applyTime i.p = none) : s.cmdTimeConfig i = .no s stBadParam := by rw [State.cmdTimeConfig, illegal]

theorem State.cmdTimeCapture_of_some (legal : s.applyCap i.p = some t) : s.cmdTimeCapture i =
    .done (({ t with cfg := { t.cfg with cap := tabIns t.cfg.cap (byteAt i.p 0) (capWord i.p) } } : State).stamp (32 + byteAt i.p 0)) := by
  rw [State.cmdTimeCapture, legal]

theorem State.cmdTimeCapture_of_none (illegal : s.applyCap i.p = none) : s.cmdTimeCapture i = .no s stBadParam := by rw [State.cmdTimeCapture, illegal]

theorem State.cmdEthConfig_of_some (legal : s.applyEth i.p = some t) :
    s.cmdEthConfig i = .done (({ t with cfg := { t.cfg with eth := some i.p } } : State).stamp 9) := by rw [State.cmdEthConfig, legal]

theorem State.cmdEthConfig_of_none (illegal : s.applyEth i.p = none) : s.cmdEthConfig i = .no s stBadParam := by rw [State.cmdEthConfig, illegal]

theorem State.cmdFioConfig_of_some (legal : s.applyFio i.p = some t) :
    s.cmdFioConfig i = .done (({ t with cfg := { t.cfg with fio := some i.p } } : State).stamp 10) := by rw [State.cmdFioConfig, legal]

theorem State.cmdFioConfig_of_none (illegal : s.applyFio i.p = none) : s.cmdFioConfig i = .no s stBadParam := by rw [State.cmdFioConfig, illegal]

/-- A `TIME_TRIGGER` whose channel is enabled for a time already past. -/
def State.trigPast (s : State) (p : List Byte) : Prop := byteAt p 3 = 1 ∧ leAt p 12 4 * 2 ^ 32 + leAt p 8 4 < s.now

theorem State.trigPast_iff (s : State) (p : List Byte) :
    s.trigPast p ↔ (byteAt p 3 == 1 && decide (leAt p 12 4 * 2 ^ 32 + leAt p 8 4 < s.now)) = true := by
  simp only [State.trigPast, Bool.and_eq_true, beq_iff_eq, decide_eq_true_eq]

theorem State.cmdTimeTrigger_of_some (legal : s.applyTrig i.p = some t) (ahead : ¬ s.trigPast i.p) : s.cmdTimeTrigger i =
    .done ((({ t with cfg := { t.cfg with trig := tabIns t.cfg.trig (byteAt i.p 0) i.p } } : State).stamp (16 + byteAt i.p 0)).trigTick) := by
  refine (if_neg fun past => ahead ((s.trigPast_iff i.p).2 past)).trans ?_
  rw [legal]

theorem State.cmdTimeTrigger_of_past (past : s.trigPast i.p) : s.cmdTimeTrigger i = .no s stBadParam := if_pos ((s.trigPast_iff i.p).1 past)

theorem State.cmdTimeTrigger_of_none (illegal : s.applyTrig i.p = none) : s.cmdTimeTrigger i = .no s stBadParam := by
  by_cases past : s.trigPast i.p
  · exact State.cmdTimeTrigger_of_past past
  · refine (if_neg fun failed => past ((s.trigPast_iff i.p).2 failed)).trans ?_
    rw [illegal]

end

end Sys2Proof.Machine

namespace Sys2Proof.Proofs
open Sys2Proof.Machine Sys2Proof.Safety

/-- Settles O9: each setting's command by whether its payload is legal, and what a legal one writes. That only an enabled trigger channel needs a time
still ahead is log 82. -/
theorem settingsCommandsApplyAndStore : Obligations.SettingsCommandsApplyAndStore := by
  refine ⟨fun s a ch h p c => ⟨fun r => ?wakeCmd, fun r => ?timeCmd, fun r => ?capCmd, fun r => ?trigCmd, fun r => ?ethCmd, fun r => ?fioCmd⟩,
    fun a p => ?wake, fun a p => ⟨⟨a.putRegs (timeRegs p), a.putRegs_wrote (timeRegs_apart p), ?time⟩, ⟨a.putRegs (ethRegs p),
      a.putRegs_wrote (ethRegs_apart p), ?eth⟩⟩, fun a p => ?cap, fun a p => ⟨a.putRegs (trigRegs p), a.putRegs_wrote (trigRegs_apart p), ?trig⟩,
    fun a p => ?fio⟩
  case wakeCmd =>
    obtain ⟨-, rfl⟩ := runs_hdr r
    rw [execModWakecfg_runs r]
    exact ⟨fun t legal => by rw [State.cmdModWakecfg_of_some legal, finish_done], fun illegal => by rw [State.cmdModWakecfg_of_none illegal, finish_no]⟩
  case timeCmd =>
    obtain ⟨-, rfl⟩ := runs_hdr r
    rw [execTimeConfig_runs r]
    exact ⟨fun t legal => by rw [State.cmdTimeConfig_of_some legal, finish_done], fun illegal => by rw [State.cmdTimeConfig_of_none illegal, finish_no]⟩
  case capCmd =>
    obtain ⟨-, rfl⟩ := runs_hdr r
    rw [execTimeCapture_runs r]
    exact ⟨fun t legal => by rw [State.cmdTimeCapture_of_some legal, finish_done], fun illegal => by rw [State.cmdTimeCapture_of_none illegal, finish_no]⟩
  case trigCmd =>
    obtain ⟨-, rfl⟩ := runs_hdr r
    rw [execTimeTrigger_runs r]
    refine ⟨fun t legal ahead => ?_, fun refused => ?_⟩
    · rw [State.cmdTimeTrigger_of_some legal fun past => ahead.elim (· past.1) (Nat.not_le.2 past.2), finish_done]
    · rcases refused with illegal | past
      · rw [State.cmdTimeTrigger_of_none illegal, finish_no]
      · rw [State.cmdTimeTrigger_of_past past, finish_no]
  case ethCmd =>
    obtain ⟨-, rfl⟩ := runs_hdr r
    rw [execEthConfig_runs r]
    exact ⟨fun t legal => by rw [State.cmdEthConfig_of_some legal, finish_done], fun illegal => by rw [State.cmdEthConfig_of_none illegal, finish_no]⟩
  case fioCmd =>
    obtain ⟨-, rfl⟩ := runs_hdr r
    rw [execFioConfig_runs r]
    exact ⟨fun t legal => by rw [State.cmdFioConfig_of_some legal, finish_done], fun illegal => by rw [State.cmdFioConfig_of_none illegal, finish_no]⟩
  case wake =>
    refine ⟨fun ⟨z2, z3, input, flags, armed⟩ => ?_, fun illegal => ?_⟩
    · have fits : wakeFits p := ⟨z2, z3, input, flags⟩
      exact ⟨a.putRegs (wakeRegs p), (State.applyWake_of_fits fits).trans (State.putAll_of_legal ((a.wake_legal_iff fits).2 armed)), a.putWake_shows fits⟩
    · by_cases fits : wakeFits p
      · refine (State.applyWake_of_fits fits).trans (State.putAll_of_illegal fun legal => illegal ?_)
        exact ⟨fits.1, fits.2.1, fits.2.2.1, fits.2.2.2, (a.wake_legal_iff fits).1 legal⟩
      · exact State.applyWake_of_unfit fits
  case time =>
    refine ⟨fun ⟨z3, z7, legal⟩ => ?_, fun illegal => ?_⟩
    · rw [State.applyTime_of_zeroed ⟨z3, z7⟩, State.putAll_of_legal (ws := timeRegs p) legal]
      rfl
    · by_cases zeroed : byteAt p 3 = 0 ∧ byteAt p 7 = 0
      · rw [State.applyTime_of_zeroed zeroed, State.putAll_of_illegal (ws := timeRegs p) fun legal => illegal ⟨zeroed.1, zeroed.2, legal⟩]
        rfl
      · exact State.applyTime_of_reserved zeroed
  case eth =>
    refine ⟨fun ⟨z29, z30, z31, low, high, legal⟩ => ?_, fun illegal => ?_⟩
    · rw [State.applyEth_of_fits ⟨z29, z30, z31, low, high⟩, State.putAll_of_legal (ws := ethRegs p) legal]
    · by_cases fits : ethFits p
      · obtain ⟨z29, z30, z31, low, high⟩ := fits
        rw [State.applyEth_of_fits ⟨z29, z30, z31, low, high⟩, State.putAll_of_illegal (ws := ethRegs p) fun legal => illegal ⟨z29, z30, z31, low, high, legal⟩]
      · exact State.applyEth_of_unfit fits
  case cap =>
    refine ⟨fun fits => ?_, fun unfit => State.applyCap_of_unfit unfit⟩
    by_cases rises : byteAt p 2 / 128 = 1 ∧ a.on (TU_CAPCFG_EN (byteAt p 0)) = false
    · obtain ⟨src, edge, node, en, same, keep⟩ := a.capRestarted_fields fits
      exact ⟨_, State.applyCap_rises fits rises, src, edge, node, en, same, keep, fun _ => a.capRestarted_empty (byteAt p 0) (capWord p),
        fun stays => absurd rises stays⟩
    · obtain ⟨src, edge, node, en⟩ := State.capConfigured_fields (byteAt p 0) fits
      obtain ⟨same, keep⟩ := a.capConfigured_only (byteAt p 0) (capWord p)
      refine ⟨_, State.applyCap_stays fits rises, src, edge, node, en, rfl, keep.mono (regIn_mono (by simp)), fun rises_ => absurd rises_ rises,
        fun _ => ⟨rfl, keep _ ?_⟩⟩
      simpa only [regIn_cons, not_regIn_nil, or_false] using (capConfig_apart (byteAt p 0)).symm
  case trig =>
    refine ⟨fun ⟨fits, legal⟩ => ?_, fun illegal => ?_⟩
    · have written := State.putAll_of_legal legal
      have en : byteAt p 3 = 0 ∨ byteAt p 3 = 1 := by have := fits.2.2.2.2.1; omega
      rcases en with off | held
      · exact ⟨_, State.applyTrig_of_off fits written off, fun held => by omega, fun _ => (a.putRegs (trigRegs p)).trigOff_shows (byteAt p 0)⟩
      · exact ⟨_, State.applyTrig_of_held fits written held, fun _ => rfl, fun off => by omega⟩
    · by_cases fits : a.trigFits p
      · exact State.applyTrig_of_illegal fits (State.putAll_of_illegal fun legal => illegal ⟨fits, legal⟩)
      · exact State.applyTrig_of_unfit fits
  case fio =>
    refine ⟨fun fits => ⟨a.fioDone p, State.applyFio_of_fits fits, rfl, fun i low => ?_, fun i low => ?_, fun i low => ?_, ?_, fun i low => ?_⟩,
      fun unfit => State.applyFio_of_unfit unfit⟩
    all_goals obtain ⟨tops, hsos, fpps, -, -, loops⟩ := fits
    · exact (a.fioSet_digital p (FD_DICFG_TOP (i + 1)) (by simp only [FD_DICFG_TOP]; omega)).trans (a.fioDigital_top p tops low)
    · obtain ⟨safe, test⟩ := a.fioDigital_hso p low (hsos i low).1
      exact ⟨(a.fioSet_digital p (FD_HSOCFG_SAFE (i + 1)) (by simp only [FD_HSOCFG_SAFE]; omega)).trans safe,
        (a.fioSet_digital p (FD_HSOCFG_OWOFF (i + 1)) (by simp only [FD_HSOCFG_OWOFF]; omega)).trans test⟩
    · exact (a.fioSet_digital p (FD_FPPCFG_SAFE (i + 1)) (by simp only [FD_FPPCFG_SAFE]; omega)).trans (a.fioDigital_fpp p low (fpps i low))
    · exact (a.fioSet_digital p FD_SILCFG_N (by decide)).trans (State.g_p_fits _ ⟨by decide, byteAt_lt p 32⟩)
    · exact a.fioSet_loop p low (loops i low).1

end Sys2Proof.Proofs

/-! SUPPORT. Staging areas and staged packages (R473, R474, R476, R484): what is written where, what is verified in which order. -/

namespace Sys2Proof.Machine
open Sys2Proof.Safety

/-! ### Staging (R473) -/

theorem State.setStaged_eq (s : State) (area : Nat) (m : Mem) (n : Nat) : s.setStaged area m n = { s with app := (s.setStaged area m n).app } := by
  unfold State.setStaged
  split <;> rfl

theorem State.staged_setStaged (s : State) (area : Nat) (m : Mem) (n : Nat) : (s.setStaged area m n).staged area = (m, n) := by
  match area with
  | 0 => rfl
  | 1 => rfl
  | _ + 2 => rfl

theorem State.staged_setStaged_ne (s : State) {area other : Nat} (low : area ≤ 2) (low' : other ≤ 2) (ne : other ≠ area) (m : Mem) (n : Nat) :
    (s.setStaged area m n).staged other = s.staged other := by
  match area, other with
  | 0, 0 => exact absurd rfl ne
  | 1, 1 => exact absurd rfl ne
  | 2, 2 => exact absurd rfl ne
  | 0, 1 => rfl
  | 0, 2 => rfl
  | 1, 0 => rfl
  | 1, 2 => rfl
  | 2, 0 => rfl
  | 2, 1 => rfl

/-- What an area holds before data enter it: an offset of 0 begins it anew. -/
def State.stagedFrom (s : State) (area o : Nat) : Mem × Nat := if o = 0 then ([], 0) else s.staged area

/-- Data in a staging area at their offset. -/
def State.stagedAt (s : State) (area o : Nat) (d : List Byte) : State :=
  s.setStaged area ((s.stagedFrom area o).1.wrL o d) (max (s.stagedFrom area o).2 (o + d.length))

theorem State.stagedAt_shows (s : State) {area : Nat} (low : area ≤ 2) (o : Nat) (d : List Byte) : let t := s.stagedAt area o d
    t = { s with app := t.app } ∧ (t.staged area).2 = max (if o = 0 then 0 else (s.staged area).2) (o + d.length) ∧
    (∀ k, (t.staged area).1.rd k = if o ≤ k ∧ k < o + d.length then (d[k - o]?).getD 0 else if o = 0 then 0 else (s.staged area).1.rd k) ∧
    ∀ other, other ≤ 2 → other ≠ area → t.staged other = s.staged other := by
  refine ⟨s.setStaged_eq area _ _, ?_, fun k => ?_, fun other low' ne => s.staged_setStaged_ne low low' ne _ _⟩
  · rw [State.stagedAt, State.staged_setStaged, State.stagedFrom]
    split <;> rfl
  · rw [State.stagedAt, State.staged_setStaged, Mem.rd_wrL, State.stagedFrom]
    by_cases new : o = 0
    · simp only [if_pos new, List.getD_eq_getElem?_getD]
      rfl
    · simp only [if_neg new, List.getD_eq_getElem?_getD]

section
variable {s : State} {i : CmdIn}

theorem State.cmdAppStage_of_bad (bad : 2 < byteAt i.p 0 ∨ zeros i.p 1 4 = false ∨ stageCap (byteAt i.p 0) < leAt i.p 4 4 + (i.p.drop 8).length) :
    s.cmdAppStage i = .no s stBadParam := by
  refine if_pos ?_
  simpa only [Bool.or_eq_true, decide_eq_true_eq, Bool.not_eq_true', gt_iff_lt, or_assoc] using bad

theorem State.cmdAppStage_of_fits (area : byteAt i.p 0 ≤ 2) (zeroed : zeros i.p 1 4 = true)
    (room : leAt i.p 4 4 + (i.p.drop 8).length ≤ stageCap (byteAt i.p 0)) :
    s.cmdAppStage i = .idle (s.stagedAt (byteAt i.p 0) (leAt i.p 4 4) (i.p.drop 8)) := by
  have passes : ¬ (decide (byteAt i.p 0 > 2) || !zeros i.p 1 4 || decide (leAt i.p 4 4 + (i.p.drop 8).length > stageCap (byteAt i.p 0))) = true := by
    simp only [Bool.or_eq_true, decide_eq_true_eq, Bool.not_eq_true', zeroed, Bool.true_eq_false, or_false]
    omega
  refine (if_neg passes).trans ?_
  simp only [State.stagedAt, State.stagedFrom, beq_iff_eq]

end

/-! ### Staged packages (R474, R476, R484) -/

theorem State.stagedPkg_of_bad {s : State} {area size : Nat} (bad : size = 0 ∨ (s.staged area).2 < size) : s.stagedPkg area size = none :=
  if_pos (by simpa using bad)

theorem State.stagedPkg_of_staged {s : State} {area size : Nat} (some_ : size ≠ 0) (staged : size ≤ (s.staged area).2) :
    s.stagedPkg area size = some ((s.staged area).1.rdN 0 size) :=
  if_neg (by simpa [some_] using staged)

theorem ite_flip {α : Type} (b : Bool) (x y : α) : (if b = true then x else y) = if b = false then y else x := by cases b <;> rfl

/-- An application loaded: it is Stopped, the changes applied before are forgotten. -/
def State.appLoaded (s : State) (q : AppPkg) : State :=
  ({ s with app := { s.app with stored := some q, changes := [], state := .stopped, pkg := q, hash := q.codeHash, badImage := false
                                olcPkg := none, olcHash := [] } } : State).placePkg

section
variable (s : State) (i : CmdIn)

theorem State.cmdAppLoad_eq : s.cmdAppLoad i = match s.stagedPkg 0 (leAt i.p 0 4) with
    | none => .no s stBadParam
    | some b =>
      if s.pkgSigned b = false then .no s stVerifyFail
      else match Config.parseApp b with
      | none => .no s stBadParam
      | some q => if s.appChecks q = false then .no s stBadParam else .ok (s.appLoaded q) (padTo 32 (Config.sha256 b)) true := by
  unfold State.cmdAppLoad
  cases s.stagedPkg 0 (leAt i.p 0 4) with
  | none => rfl
  | some b =>
    refine if_congr (by rw [Bool.not_eq_true']) rfl ?_
    cases Config.parseApp b with
    | none => rfl
    | some q => exact ite_flip (s.appChecks q) (CmdRes.ok (s.appLoaded q) (padTo 32 (Config.sha256 b)) true) (.no s stBadParam)

theorem State.cmdAppOlcLoad_eq : s.cmdAppOlcLoad i = match s.stagedPkg 1 (leAt i.p 0 4) with
    | none => .no s stBadParam
    | some b =>
      if s.pkgSigned b = false then .no s stVerifyFail
      else if s.app.state = .notLoaded then .no s stNotPresent
      else match Config.parseApp b with
      | none => .no s stBadParam
      | some q =>
        if s.app.pkg.keeps q = true ∧ q.tasksOk = true ∧ s.sharedChecks q = true then
          .ok { s with app := { s.app with olcPkg := some q, olcHash := padTo 32 (Config.sha256 b) } } (padTo 32 (Config.sha256 b)) true
        else .no s stBadParam := by
  unfold State.cmdAppOlcLoad
  cases s.stagedPkg 1 (leAt i.p 0 4) with
  | none => rfl
  | some b =>
    refine if_congr (by rw [Bool.not_eq_true']) rfl (if_congr beq_iff_eq rfl ?_)
    cases Config.parseApp b with
    | none => rfl
    | some q => exact if_congr (by rw [Bool.and_eq_true, Bool.and_eq_true, and_assoc]) rfl rfl

theorem State.cmdSafeLoad_eq : s.cmdSafeLoad i = match s.stagedPkg 2 (leAt i.p 0 4) with
    | none => .no s stBadParam
    | some b =>
      if s.pkgSigned b = false then .no s stVerifyFail
      else match Config.parseSafety b with
      | none => .no s stBadParam
      | some k =>
        if s.safeOk k = false then .no s stBadParam
        else .ok (({ s with keys := { s.keys with safe := some k, safeHash := padTo 32 (Config.sha256 b) } } : State).loadSafe.evalSeal)
          (padTo 32 (Config.sha256 b)) true := by
  unfold State.cmdSafeLoad
  cases s.stagedPkg 2 (leAt i.p 0 4) with
  | none => rfl
  | some b =>
    refine if_congr (by rw [Bool.not_eq_true']) rfl ?_
    cases Config.parseSafety b with
    | none => rfl
    | some k => exact ite_flip (s.safeOk k) _ _

end

end Sys2Proof.Machine

namespace Sys2Proof.Proofs
open Sys2Proof.Machine Sys2Proof.Safety

/-- Settles O10: staging in place, and the order of the checks of a staged package. Whether a signature verifies and what a package holds are opaque
(log 12); the statement holds for every value of them. -/
theorem stagedPackagesAreVerifiedThenStored : Obligations.StagedPackagesAreVerifiedThenStored := by
  refine ⟨fun s a ch h p c r => ?stage, fun a area size => ⟨State.stagedPkg_of_bad, State.stagedPkg_of_staged⟩,
    fun s a ch h p c => ⟨fun r => ?load, fun r => ?olc, fun r => ?safe⟩⟩
  all_goals obtain ⟨-, rfl⟩ := runs_hdr r
  case stage =>
    rw [execAppStage_runs r]
    refine ⟨fun bad => ?_, fun area zeroed room => ⟨a.stagedAt (byteAt c.p 0) (leAt c.p 4 4) (c.p.drop 8), ?_, a.stagedAt_shows area _ _⟩⟩
    · rw [State.cmdAppStage_of_bad bad, finish_no]
    · rw [State.cmdAppStage_of_fits area zeroed room, finish_idle]
  case load =>
    rw [execAppLoad_runs r, State.cmdAppLoad_eq]
    cases a.stagedPkg 0 (leAt c.p 0 4) with
    | none => rfl
    | some b =>
      dsimp only
      rw [finish_ite]
      cases Config.parseApp b with
      | none => rfl
      | some q => dsimp only; rw [finish_ite]; rfl
  case olc =>
    rw [execAppOlcLoad_runs r, State.cmdAppOlcLoad_eq]
    cases a.stagedPkg 1 (leAt c.p 0 4) with
    | none => rfl
    | some b =>
      dsimp only
      rw [finish_ite, finish_ite]
      cases Config.parseApp b with
      | none => rfl
      | some q => dsimp only; rw [finish_ite]; rfl
  case safe =>
    rw [execSafeLoad_runs r, State.cmdSafeLoad_eq]
    cases a.stagedPkg 2 (leAt c.p 0 4) with
    | none => rfl
    | some b =>
      dsimp only
      rw [finish_ite]
      cases Config.parseSafety b with
      | none => rfl
      | some k => dsimp only; rw [finish_ite]; rfl

end Sys2Proof.Proofs

/-! SUPPORT. What leaves the application as it is: outputs, drives, the network, the bus, the lanes; and what changes no more of it than its tasks'
states and retained memory. -/

namespace Sys2Proof.Machine
open Sys2Proof.Safety

/-! ### Steps that leave the application as it is -/

theorem app_ite {s a b : State} {c : Prop} [Decidable c] (ha : a.app = s.app) (hb : b.app = s.app) : (if c then a else b).app = s.app := by
  split <;> assumption

theorem app_foldl {α : Type} {f : State → α → State} (l : List α) (step : ∀ t x, (f t x).app = t.app) (s : State) : (l.foldl f s).app = s.app :=
  List.foldlRecOn l f (motive := fun t : State => t.app = s.app) rfl fun t kept x _ => (step t x).trans kept

theorem app_p {s t : State} {f : Fld} {v : Nat} (h : t.app = s.app) : (t.p f v).app = s.app := h

theorem app_pb {s t : State} {f : Fld} {b : Bool} (h : t.app = s.app) : (t.pb f b).app = s.app := h

theorem app_inc {s t : State} {f : Fld} (h : t.app = s.app) : (t.inc f).app = s.app := h

theorem app_modLane {s t : State} {l : Nat} {f : LaneSt → LaneSt} (h : t.app = s.app) : (t.modLane l f).app = s.app := (State.modLane_app _ _ _).trans h

theorem app_setLane {s t : State} {l : Nat} {x : LaneSt} (h : t.app = s.app) : (t.setLane l x).app = s.app := (State.setLane_app _ _ _).trans h

theorem app_of_only {s t : State} {as : Nat → Prop} (h : OnlyRegs s t as) : t.app = s.app := by rw [h.1]

theorem State.noticeD_app (s : State) (src code : Nat) (data : List Byte) : (s.noticeD src code data).app = s.app := State.event_app _ _ _

theorem State.notice_app (s : State) (src code elem : Nat) (st : Word) : (s.notice src code elem st).app = s.app := s.noticeD_app src code _

theorem State.post_app (s : State) (e : QEnt) : (s.post e).app = s.app := (State.post_same (SameBut.refl s) e).app

/-! #### Outputs and drives -/

theorem State.driveOutputs_app (s : State) : s.driveOutputs.app = s.app := app_of_only s.driveOutputs_only

theorem State.encRest_app (s : State) (n : Nat) : (s.encRest n).app = s.app := by rw [s.encRest_eq n]

theorem State.driveOff_app (s : State) (n : Nat) : (s.driveOff n).app = s.app := by
  have off : (((((s.encRest n).p (SF_DRVSTAT_STATE n) 0).p (SF_DRVSTAT_CHA n) 0).p (SF_DRVSTAT_CHB n) 0)).app = s.app :=
    app_p (app_p (app_p (s.encRest_app n)))
  exact app_ite ((State.noticeD_app _ _ _ _).trans off) off

theorem State.drivesDisable_app (s : State) : s.drivesDisable.app = s.app := (State.driveOff_app _ 2).trans (s.driveOff_app 1)

/-- A drive's torque off, its stop counted. -/
def State.torqueCut (s : State) (d cause : Nat) : State :=
  let s := (((s.p (SF_DRVSTAT_STATE d) 1).p (SF_DRVSTAT_CAUSE d) cause).p (SF_DRVSTAT_CHA d) 0).p (SF_DRVSTAT_CHB d) 0
  (s.p (SF_DRVSTAT_INTERLOCK d) 1).inc (SF_STOPS_COUNT d)

theorem State.torqueOff_app (s : State) (d cause : Nat) : (s.torqueOff d cause).app = s.app := by
  have cut : ((s.encRest d).torqueCut d cause).app = s.app := by
    unfold State.torqueCut
    exact app_inc (app_p (app_p (app_p (app_p (app_p (s.encRest_app d))))))
  exact app_ite rfl (app_ite ((State.noticeD_app _ _ _ _).trans cut) cut)

theorem State.permit_app (s : State) (d v : Nat) : (s.permit d v).app = s.app := by
  unfold State.permit
  split
  · exact app_ite rfl (app_ite rfl (app_ite rfl (State.driveOutputs_app _)))
  · exact app_ite rfl (app_ite (State.driveOutputs_app _) (s.torqueOff_app d 1))
  · rfl

theorem State.commitOut_app (s : State) (k : Nat) (b : Byte) : (s.commitOut k b).app = s.app := (State.driveOutputs_app _).trans (app_ite rfl rfl)

theorem State.commitLoop_app (s : State) (n v : Nat) : (s.commitLoop n v).app = s.app := app_ite (app_ite rfl rfl) (app_ite rfl rfl)

/-! #### The network and the bus -/

theorem State.commitNode_app (s : State) (r n off : Nat) (p : Part) : (s.commitNode r n off p).app = s.app := app_ite (State.modRing_app _ _ _) rfl

theorem State.ethKick_app (s : State) (p : Nat) : (s.ethKick p).app = s.app := by rw [(s.ethKick_sends p).1]

theorem State.enqueue_app (s : State) (p q : Nat) (o : OutFrame) : (s.enqueue p q o).app = s.app :=
  app_ite rfl (app_ite rfl (State.ethKick_app _ p))

theorem State.sendPub_app (s : State) (p commit cycle : Nat) : (s.sendPub p commit cycle).app = s.app :=
  app_ite rfl (app_ite rfl (app_ite rfl (app_foldl _ (fun t q => t.enqueue_app q _ _) s)))

theorem State.dropPf_app (s : State) (b : Nat) : (s.dropPf b).app = s.app := app_ite (app_ite (s := s) rfl rfl) rfl

theorem State.writeQueued_app (s : State) (slot a len src task cycle : Nat) : (s.writeQueued slot a len src task cycle).app = s.app :=
  have noted := app_of_only (s.writeNoted_only slot a len src task cycle)
  noted

theorem State.postWrite_app (s : State) (slot a : Nat) (data : List Word) (src task cycle : Nat) : (s.postWrite slot a data src task cycle).app = s.app := by
  have queued := s.writeQueued_app slot a data.length src task cycle
  have dropped := app_foldl (List.range 8) (fun t b => app_ite (c := ((t.pfBuf b).valid && (t.pfBuf b).slot == slot) = true) (t.dropPf_app b) rfl)
    (s.writeQueued slot a data.length src task cycle)
  exact app_ite rfl (app_ite rfl ((State.emit_app _ _).trans (dropped.trans queued)))

theorem State.applyPart_app (s : State) (p : Part) : (s.applyPart p).app = s.app := by
  unfold State.applyPart
  split
  · exact s.commitOut_app _ _
  · exact s.commitOut_app _ _
  · exact s.commitLoop_app _ _
  · exact s.permit_app _ _
  · exact s.commitNode_app _ _ _ _
  · exact app_ite (s.sendPub_app _ _ _) rfl
  · rfl
  · exact s.postWrite_app _ _ _ _ _ _
  · rfl

theorem State.applyLate_app (s : State) (p : Part) : (s.applyLate p).app = s.app := by
  unfold State.applyLate
  refine (State.notice_app _ _ _ _ _).trans ?_
  dsimp only
  split
  · exact (app_ite (s := s.applyPart p) (State.inc_app _ _) rfl).trans (s.applyPart_app p)
  · exact s.applyPart_app p

theorem State.useNode_app (s : State) (p : Part) : (s.useNode p).app = s.app := by
  unfold State.useNode
  split <;> rfl

theorem State.arrive_app (s : State) (p : Part) : (s.arrive p).app = s.app := by
  have used := s.useNode_app { p with reached := s.now }
  exact app_ite used (app_ite ((State.applyLate_app _ _).trans used) (app_ite used used))

theorem State.sendPacket_app (s : State) (k : Nat) (body : List Byte) : (s.sendPacket k body).app = s.app := State.emit_app _ _

theorem State.linkSend_app (s : State) (k : Nat) (bs : List Byte) : (s.linkSend k bs).app = s.app :=
  app_ite rfl (app_foldl _ (fun t b => t.sendPacket_app k b) s)

theorem State.dispatchPart_app (s : State) (p : Part) : (s.dispatchPart p).app = s.app := by
  unfold State.dispatchPart
  split
  · exact s.arrive_app p
  next k _ =>
    have sent := s.linkSend_app k p.data
    refine app_ite rfl ?_
    dsimp only
    split
    · exact sent
    · exact app_ite sent ((State.arrive_app _ p).trans sent)

theorem State.publish_app (s : State) (t k dflt : Nat) : (s.publish t k dflt).app = s.app := app_foldl _ (fun u _ => u.dispatchPart_app _) s

/-! #### Safe Channel connections, lanes -/

theorem State.rxState_app (s : State) (r new seq : Nat) : (s.rxState r new seq).app = s.app := app_ite rfl (State.post_app _ _)

theorem State.scOff_app (s : State) : s.scOff.app = s.app := app_foldl _ (fun t r => t.rxState_app r 0 0) s

/-- A connection as a start of the application finds it (R288). -/
def State.rxStart (s : State) (r : Nat) : State :=
  ((((s.p (SC_RXSEQ_SEQ r) 0).p (SC_RXSTAT_GOOD r) 0).p (SC_RXSTAT_CAUSE r) 0).modRx r (fun _ => {})).rxState r 1 0

theorem State.rxStart_app (s : State) (r : Nat) : (s.rxStart r).app = s.app := State.rxState_app _ r 1 0

theorem State.scStart_app (s : State) : s.scStart.app = s.app := app_ite (app_foldl s.rxUsed State.rxStart_app s) rfl

theorem State.closeCtx_app (s : State) (l t : Nat) : (s.closeCtx l t).app = s.app := by
  unfold State.closeCtx
  exact app_p (app_p (app_p (app_p (app_p (app_p (app_p (app_modLane rfl)))))))

theorem State.discardCtx_app (s : State) (l t : Nat) : (s.discardCtx l t).app = s.app := by
  refine app_ite rfl ?_
  exact app_inc (app_p (s.closeCtx_app l t))

theorem State.dropContexts_app (s : State) : s.dropContexts.app = s.app :=
  app_foldl _ (fun t l => app_foldl _ (fun u k => u.discardCtx_app l k) t) s

/-- The output ranges and the windows of a package in a lane's registers. -/
def State.laneRanges (s : State) (p : AppPkg) (l : Nat) : State :=
  (List.range 16).foldl (fun (s : State) n =>
    ((s.p (SD_WINBASE_BASE l n) ((p.windows[n]?).getD { base := 0, pages := 0, owner := 0 }).base).p (SD_WINSIZE_PAGES l n)
      ((p.windows[n]?).getD { base := 0, pages := 0, owner := 0 }).pages).p (SD_WINSIZE_OWNER l n)
      ((p.windows[n]?).getD { base := 0, pages := 0, owner := 0 }).owner.val)
    ((List.range 16).foldl (fun (s : State) t => (s.p (VX_ORANGE_FIRST l t) (p.outRange t).1).p (VX_ORANGE_COUNT l t) (p.outRange t).2) s)

/-- The logs and the scratch of a package, and which tasks speculate. -/
def State.laneLogs (s : State) (p : AppPkg) (l mask : Nat) : State :=
  (((List.range 16).foldl (fun (s : State) t =>
    (((s.p (RA_LOG_BASE l t) (tabGet (fun _ => (0, 0)) p.logs t).1).p (RA_LOG_SIZE l t) (tabGet (fun _ => (0, 0)) p.logs t).2).p (RA_SCRBASE_BASE l t)
      (tabGet (fun _ => (0, 0)) p.scratch t).1).p (RA_SCRSIZE_PAGES l t) (tabGet (fun _ => (0, 0)) p.scratch t).2) s).p (RA_TASKEN_EN l) mask).pb
    (RA_CTRL_EN l) (mask != 0)

/-- A lane's prediction table emptied. -/
def State.predsGone (s : State) (l : Nat) : State :=
  { s with regs := s.regs.filter (fun e => !(decide (laneBase l + 0x10800 ≤ e.1) && decide (e.1 < laneBase l + 0x10800 + 0x800))) }

/-- One entry of a lane's prediction table. -/
def State.predSet (l : Nat) (s : State) (e : PredDesc × Nat) : State :=
  ((((s.p (RA_PTAB_WORD l e.2) e.1.word).p (RA_PTAB_RULE l e.2) e.1.rule).p (RA_PTAB_WIDTH l e.2) e.1.width).p (RA_PK_K l e.2) e.1.k).p
    (RA_PTAB_VALID l e.2) 1

/-- The tasks of a package that speculate, as a mask. -/
def AppPkg.specMask (p : AppPkg) : Nat := (List.range 16).foldl (fun m t => if (p.desc t).runahead then m + 2 ^ t else m) 0

theorem State.laneConfig_eq (s : State) (l : Nat) : s.laneConfig l = (s.app.pkg.preds.zipIdx.foldl (State.predSet l)
    (((s.laneRanges s.app.pkg l).laneLogs s.app.pkg l s.app.pkg.specMask).predsGone l)).predValid := rfl

theorem State.laneRanges_app (s : State) (p : AppPkg) (l : Nat) : (s.laneRanges p l).app = s.app :=
  (app_foldl _ (fun _ _ => app_p (app_p (app_p rfl))) _).trans (app_foldl _ (fun _ _ => app_p (app_p rfl)) s)

theorem State.laneLogs_app (s : State) (p : AppPkg) (l mask : Nat) : (s.laneLogs p l mask).app = s.app :=
  app_pb (app_p (app_foldl _ (fun _ _ => app_p (app_p (app_p (app_p rfl)))) s))

theorem State.predSet_app (l : Nat) (s : State) (e : PredDesc × Nat) : (State.predSet l s e).app = s.app := app_p (app_p (app_p (app_p (app_p rfl))))

theorem State.predsGone_app (s : State) (l : Nat) : (s.predsGone l).app = s.app := rfl

theorem State.laneConfig_app (s : State) (l : Nat) : (s.laneConfig l).app = s.app := by
  rw [s.laneConfig_eq l, app_of_only (State.predValid_only _), app_foldl _ (State.predSet_app l), State.predsGone_app, State.laneLogs_app,
    State.laneRanges_app]

/-- A lane's scan digests. -/
def State.scanned (s : State) (l : Nat) : Tab (BitVec 128) :=
  (List.range 16).foldl (fun (d : Tab (BitVec 128)) t => tabSet (fun _ => 0) d t (s.scanDigest l t)) []

/-- `SD_CTRL` as it is written. -/
def State.sdSet (s : State) (l : Nat) (v : Word) : State := (s.pb (SD_CTRL_EN l) (getBits v 0 1 == 1)).p (SD_CTRL_SEL l) (getBits v 4 4)

theorem State.sdCtrl_eq (s : State) (l : Nat) (v : Word) : s.sdCtrl l v =
    if (getBits v 0 1 == 1) && !s.windowsOk l then (s.p (SD_STAT_WINERR l) 1).laneNotice l 3 0 ((s.p (SD_STAT_WINERR l) 1).word (SD_STAT_WINERR l))
    else if (getBits v 0 1 == 1) && !s.on (SD_CTRL_EN l) then
      ((s.sdSet l v).modLane l (fun x => { x with digest := (s.sdSet l v).scanned l })).p (SD_STAT_SCANBUSY l) 1
    else if getBits v 0 1 == 1 then s.sdSet l v else (s.sdSet l v).p (SD_STAT_SCANBUSY l) 0 := rfl

theorem State.laneNotice_app (s : State) (l code elem : Nat) (st : Word) : (s.laneNotice l code elem st).app = s.app := s.notice_app _ code elem st

theorem State.sdCtrl_app (s : State) (l : Nat) (v : Word) : (s.sdCtrl l v).app = s.app := by
  have set : (s.sdSet l v).app = s.app := app_p (app_pb rfl)
  rw [s.sdCtrl_eq l v]
  exact app_ite ((State.laneNotice_app _ _ _ _ _).trans (app_p rfl)) (app_ite (app_p (app_modLane set)) (app_ite set (app_p set)))

theorem State.initLane_app (s : State) (l : Nat) : (s.initLane l).app = s.app := by
  unfold State.initLane
  refine (State.sdCtrl_app _ l _).trans ?_
  exact app_p (app_setLane (app_modLane ((State.laneConfig_app _ l).trans (app_p rfl))))

theorem State.levels_app (s : State) : s.levels.app = s.app := app_of_only s.levels_only

theorem State.setLaneSt_app (s : State) (l st : Nat) : (s.setLaneSt l st).app = s.app := by
  unfold State.setLaneSt
  exact (State.levels_app _).trans (app_p (app_p rfl))

theorem State.wipeLane_app (s : State) (l : Nat) (b : Bool) : (s.wipeLane l b).app = s.app := by
  unfold State.wipeLane
  exact app_p (app_p (app_p (app_setLane rfl)))

theorem State.backInService_app (s : State) (l : Nat) : (s.backInService l).app = s.app := app_ite rfl rfl

theorem State.laneRise_app (s : State) : s.laneRise.app = s.app := by
  refine app_ite (app_foldl _ (fun t l => ?_) s) rfl
  have back (st : Nat) (v : Bool) : ((((t.setLaneSt l st).openChan l v).initLane l).backInService l).app = t.app := by
    unfold State.openChan
    exact (State.backInService_app _ l).trans ((State.initLane_app _ l).trans (app_pb (app_p (t.setLaneSt_app l st))))
  exact app_ite (back _ _) (app_ite (back _ _) ((State.wipeLane_app _ l _).trans (t.setLaneSt_app l _)))

/-! ### Steps that change the tasks' states and retained memory alone -/

/-- The task states and retained memory aside, the application is the same. -/
def AppSt.sameRun (a b : AppSt) : Prop := b = { a with tasks := b.tasks, retMem := b.retMem, retCrc := b.retCrc }

theorem AppSt.sameRun.refl (a : AppSt) : a.sameRun a := rfl

theorem AppSt.sameRun.of_eq {a b : AppSt} (h : b = a) : a.sameRun b := h ▸ rfl

theorem AppSt.sameRun.trans {a b c : AppSt} (h : a.sameRun b) (k : b.sameRun c) : a.sameRun c := by
  unfold AppSt.sameRun at *
  rw [k, h]

theorem AppSt.sameRun.foldl {α : Type} {f : State → α → State} (l : List α) (step : ∀ (t : State) x, t.app.sameRun (f t x).app) (s : State) :
    s.app.sameRun (l.foldl f s).app :=
  List.foldlRecOn l f (motive := fun t : State => s.app.sameRun t.app) rfl fun t kept x _ => kept.trans (step t x)

theorem AppSt.sameRun.ite {a : AppSt} {s t : State} {c : Prop} [Decidable c] (hs : a.sameRun s.app) (ht : a.sameRun t.app) :
    a.sameRun (if c then s else t).app := by split <;> assumption

theorem AppSt.sameRun.fields {a b : AppSt} (h : a.sameRun b) : b.state = a.state ∧ b.forces = a.forces ∧ b.startChans = a.startChans ∧
    b.startHdr = a.startHdr ∧ b.startPay = a.startPay ∧ b.startByReady = a.startByReady := by
  rw [h]
  exact ⟨rfl, rfl, rfl, rfl, rfl, rfl⟩

theorem State.retRetire_app (s : State) (st : RetStream) (cycle : Nat) : (s.retRetire st cycle).app = s.app :=
  app_foldl _ (fun _ _ => app_p (app_modLane rfl)) s

theorem State.retApply_run (s : State) (st : RetStream) : s.app.sameRun (s.retApply st).app := by
  unfold State.retApply
  split
  · exact AppSt.sameRun.refl _
  next v vs _ =>
    have written : s.app.sameRun (s.retWrite (v :: vs)).app := rfl
    exact written.trans (.of_eq ((app_foldl (v :: vs) (fun t w => (rfl : (t.endStream w).app = t.app)) _).trans (State.retRetire_app _ st _)))

theorem State.retApplyN_run (st : RetStream) (n : Nat) (s : State) : s.app.sameRun (State.retApplyN st n s).app := by
  induction n generalizing s with
  | zero => exact AppSt.sameRun.refl _
  | succ n ih => exact (s.retApply_run st).trans (ih _)

theorem State.retFlush_run (s : State) : s.app.sameRun s.retFlush.app := by
  unfold State.retFlush
  exact AppSt.sameRun.foldl _ (fun t st => State.retApplyN_run st _ t) s

/-- What the lanes hold of a run of the application gone. -/
def State.lanesCleared (s : State) : State :=
  [0, 1, 2, 3].foldl (fun (t : State) l => t.modLane l (fun x =>
    { x with task := [], rbuf := [], refused := [], waitOps := [], rackWait := [], dmaWait := [], runtimePos := 0, runtimeWords := [], inited := false })) s

theorem State.lanesCleared_app (s : State) : s.lanesCleared.app = s.app := app_foldl _ (fun _ _ => app_modLane rfl) s

theorem State.votesGone_app (s : State) : s.votesGone.app = s.app := rfl

theorem State.clearRun_eq (s : State) : s.clearRun = s.retFlush.votesGone.lanesCleared := rfl

theorem State.clearRun_run (s : State) : s.app.sameRun s.clearRun.app := by
  rw [s.clearRun_eq, State.lanesCleared_app, State.votesGone_app]
  exact s.retFlush_run

/-- The answers of a command's channels, and what follows each (R443 to R445). -/
def State.answerAll (s : State) (chans : List Nat) (hdr : List Byte) (status : Nat) (out : List Byte) : State :=
  chans.foldl (fun (s : State) c => s.respondOn c hdr status out) s

/-- The answer in the image of the task that a lane's command came from. -/
def State.answerImaged (s : State) (chans : List Nat) (hdr : List Byte) (status : Nat) (out : List Byte) : State :=
  if chans.headD 4 < 4 then s.imageResponse hdr status out else s

/-- The record of a command refused. -/
def State.answerRecorded (s : State) (chans : List Nat) (hdr cmd : List Byte) (status : Nat) : State :=
  if status != stOk && status != stStateReject then s.cmdRecord (chans.headD 0) hdr cmd status else s

/-- The notice of an internal error. -/
def State.answerNoted (s : State) (chans : List Nat) (status : Nat) : State :=
  if status == stInternal then s.notice 0x22 0x0007 (chans.headD 0) (s.word (MB_LAST_CODE (chans.headD 0))) else s

theorem State.respond_eq (s : State) (chans : List Nat) (hdr cmd : List Byte) (status : Nat) (payload : List Byte) :
    ∃ out, s.respond chans hdr cmd status payload = if chans.isEmpty then s else
      (((s.answerAll chans hdr status out).answerImaged chans hdr status out).answerRecorded chans hdr cmd status).answerNoted chans status := ⟨_, rfl⟩

theorem State.answerAll_app (s : State) {chans : List Nat} (low : ∀ c ∈ chans, c < 7) (hdr : List Byte) (status : Nat) (out : List Byte) :
    (s.answerAll chans hdr status out).app = s.app :=
  (SameBut.foldl _ (fun _ c k mem => k.respondOn (Nat.le_of_lt_succ (low c mem)) _ _ _) (SameBut.refl s)).app

theorem State.answerImaged_run (s : State) (chans : List Nat) (hdr : List Byte) (status : Nat) (out : List Byte) :
    s.app.sameRun (s.answerImaged chans hdr status out).app := by
  have image : s.app.sameRun (s.imageResponse hdr status out).app := rfl
  exact AppSt.sameRun.ite image (AppSt.sameRun.refl _)

theorem State.answerRecorded_app (s : State) (chans : List Nat) (hdr cmd : List Byte) (status : Nat) :
    (s.answerRecorded chans hdr cmd status).app = s.app := app_ite (State.recordEv_app _ _) rfl

theorem State.answerNoted_app (s : State) (chans : List Nat) (status : Nat) : (s.answerNoted chans status).app = s.app :=
  app_ite (State.notice_app _ _ _ _ _) rfl

theorem State.respond_run (s : State) {chans : List Nat} (low : ∀ c ∈ chans, c < 7) (hdr cmd : List Byte) (status : Nat) (payload : List Byte) :
    s.app.sameRun (s.respond chans hdr cmd status payload).app := by
  obtain ⟨out, respond⟩ := s.respond_eq chans hdr cmd status payload
  have imaged := (s.answerAll chans hdr status out).answerImaged_run chans hdr status out
  rw [s.answerAll_app low] at imaged
  rw [respond]
  refine AppSt.sameRun.ite (AppSt.sameRun.refl _) ?_
  rw [State.answerNoted_app, State.answerRecorded_app]
  exact imaged

/-- A waiting command given up, its inhibition ended. -/
def State.waitFreed (s : State) : State := ({ s with waiting := none } : State).uninhibit

theorem State.giveUp_eq (s : State) (w : Waiting) : s.giveUp w =
    if w.code == 0x0104 && s.waitFreed.un.leaveTo == some mParked then { s.waitFreed with un := { s.waitFreed.un with noRenewal := false, leaveTo := none } }
    else s.waitFreed := rfl

theorem State.giveUp_app (s : State) (w : Waiting) : (s.giveUp w).app = s.app := by
  have freed : s.waitFreed.app = s.app := by
    rw [State.waitFreed, app_of_only (s := { s with waiting := none }) (State.uninhibit_only _)]
  rw [s.giveUp_eq w]
  exact app_ite freed freed

theorem State.abortWaiting_run (s : State) : s.app.sameRun s.abortWaiting.app := by
  unfold State.abortWaiting
  split
  · exact AppSt.sameRun.refl _
  next w _ =>
    exact AppSt.sameRun.ite (AppSt.sameRun.refl _) ((AppSt.sameRun.of_eq (s.giveUp_app w)).trans (State.respond_run _ (chans_lt _) _ _ _ _))

theorem State.commitStop_run (s : State) (t : Nat) : s.app.sameRun (s.commitStop t).app := by
  by_cases kind : (s.desc t).kind = 0
  · rw [State.commitStop, if_pos (by simp [kind])]
    exact AppSt.sameRun.refl _
  · have sent (k c : Nat) : ((((s.app.pkg.outsOf t).foldl (State.sendStop t c k) s)).publish t k c).app = s.app :=
      (State.publish_app _ t k c).trans (app_foldl _ (fun u b => State.dispatchPart_app u _) s)
    have points (u : State) (f : TaskSt → TaskSt) : u.app.sameRun (u.modTask t f).app := rfl
    rw [State.commitStop_eq kind]
    exact (AppSt.sameRun.of_eq (sent _ _)).trans (points _ _)

/-! ### The stop (R117) -/

/-- An application that has ended: stopped, no force on it, no start that waits. -/
def AppSt.Ended (a : AppSt) : Prop := a.state = .stopped ∧ a.forces = [] ∧ a.startChans = []

theorem AppSt.Ended.of_run {a b : AppSt} (h : a.Ended) (k : a.sameRun b) : b.Ended := by
  obtain ⟨state, forces, chans, -⟩ := k.fields
  obtain ⟨stopped, free, silent⟩ := h
  exact ⟨state.trans stopped, forces.trans free, chans.trans silent⟩

theorem State.modTask_run (s : State) (t : Nat) (f : TaskSt → TaskSt) : s.app.sameRun (s.modTask t f).app := rfl

theorem State.markForce_run (s : State) (id : Nat) : s.app.sameRun (s.markForce id).app := by
  unfold State.markForce
  exact AppSt.sameRun.foldl _ (fun t k => t.modTask_run k _) s

theorem State.unforce_run (s : State) (f : Force) : s.app.sameRun (s.unforce f).app := by
  unfold State.unforce
  split <;> exact rfl

theorem State.forcesMarked_run (s : State) (fs : List Force) (cause : Nat) : s.app.sameRun (s.forcesMarked fs cause).app := by
  unfold State.forcesMarked
  rw [app_foldl fs fun t _ => t.recordEv_app _]
  exact AppSt.sameRun.foldl fs (fun t f => (t.markForce_run f.id).trans (State.unforce_run _ f)) s

theorem State.forcesDropped_forces (s : State) (fs : List Force) : (s.forcesDropped fs).app.forces = s.app.forces.filter (fun f => !fs.contains f) := rfl

theorem State.removeForces_all (s : State) (cause : Nat) : (s.removeForces s.app.forces cause).app.forces = [] := by
  rw [s.removeForces_eq s.app.forces cause, app_of_only (State.predValid_only _), State.forcesDropped_forces,
    (s.forcesMarked_run s.app.forces cause).fields.2.1, List.filter_eq_nil_iff]
  intro f mem
  simp [mem]

/-- Stopped, no change under way. -/
def State.stopped (s : State) : State := { s with app := { s.app with state := .stopped, changeEnd := none } }

theorem State.stopped_shows (s : State) : s.stopped.app.state = .stopped ∧ s.stopped.app.forces = s.app.forces := ⟨rfl, rfl⟩

/-- The open start's channels and header forgotten. -/
def State.startForgotten (s : State) : State := { s with app := { s.app with startChans := [], startHdr := [] } }

theorem State.startForgotten_shows (s : State) :
    s.startForgotten.app.state = s.app.state ∧ s.startForgotten.app.forces = s.app.forces ∧ s.startForgotten.app.startChans = [] := ⟨rfl, rfl, rfl⟩

theorem State.endStart_eq (s : State) : s.endStart = if s.app.startChans.isEmpty then s else
    (s.respond (s.app.startChans.map (·.val)) s.app.startHdr [] stStateReject []).startForgotten := rfl

theorem State.endStart_ends {s : State} (stopped : s.app.state = .stopped) (free : s.app.forces = []) : s.endStart.app.Ended := by
  rw [s.endStart_eq]
  split
  next silent => exact ⟨stopped, free, List.isEmpty_iff.1 silent⟩
  · obtain ⟨state, forces, -⟩ := (s.respond_run (chans_lt s.app.startChans) s.app.startHdr [] stStateReject []).fields
    obtain ⟨same, kept, gone⟩ := State.startForgotten_shows (s.respond (s.app.startChans.map (·.val)) s.app.startHdr [] stStateReject [])
    exact ⟨same.trans (state.trans stopped), kept.trans (forces.trans free), gone⟩

/-- The anchor that a stop begins a grid with. -/
def State.stopAnchored (s : State) : State := { s with app := { s.app with anchor := some ((s.now / 1000000 + 1) * 1000000) } }

theorem State.stopGrid_eq (s : State) : s.stopGrid = if s.app.anchor.isSome then s else
    (List.range 16).foldl (fun (t : State) k => t.modTask k (fun x => { x with next := t.sampleTime k 0 })) s.stopAnchored := rfl

theorem State.stopGrid_ends {s : State} (h : s.app.Ended) : s.stopGrid.app.Ended := by
  rw [s.stopGrid_eq]
  split
  · exact h
  · have anchored : s.stopAnchored.app.Ended := h
    exact anchored.of_run (AppSt.sameRun.foldl _ (fun t k => t.modTask_run k _) _)

/-- What runs is off: contexts, votes, the Safe Channel, the drives. -/
def State.runOff (s : State) : State := s.dropContexts.clearRun.scOff.drivesDisable

theorem State.runOff_run (s : State) : s.app.sameRun s.runOff.app := by
  have cleared := s.dropContexts.clearRun_run
  rw [s.dropContexts_app] at cleared
  rw [State.runOff, State.drivesDisable_app, State.scOff_app]
  exact cleared

theorem State.appStop_eq {s : State} (runs : s.app.state ≠ .notLoaded ∧ s.app.state ≠ .stopped) : s.appStop =
    ((List.range 16).foldl State.commitStop (s.removeForces s.app.forces 2).stopped.endStart.runOff.stopGrid).driveOutputs := by
  rw [State.appStop, if_neg (by simpa using runs)]
  rfl

theorem State.appStop_ends {s : State} (runs : s.app.state ≠ .notLoaded ∧ s.app.state ≠ .stopped) : s.appStop.app.Ended := by
  obtain ⟨state, forces⟩ := (s.removeForces s.app.forces 2).stopped_shows
  have ended := State.endStart_ends state (forces.trans (s.removeForces_all 2))
  have grid := State.stopGrid_ends (ended.of_run (State.runOff_run _))
  rw [State.appStop_eq runs, State.driveOutputs_app]
  exact grid.of_run (AppSt.sameRun.foldl _ State.commitStop_run _)

/-! ### The start (R115, R560) -/

/-- The start kind of R115: warm where it is wanted and retained memory fits, else cold. -/
def AppSt.kindOfStart (a : AppSt) (kind : Nat) : Nat :=
  if (if kind == 0 then (if a.pkg.warm then 2 else 1) else kind) == 2 && (a.retSig == some a.pkg.layoutSig && a.retOk) then 2 else 1

theorem AppSt.kindOfStart_iff (a : AppSt) {kind : Nat} (legal : kind ≤ 2) : a.kindOfStart kind =
    if (kind = 2 ∨ (kind = 0 ∧ a.pkg.warm = true)) ∧ a.retSig = some a.pkg.layoutSig ∧ a.retOk = true then 2 else 1 := by
  refine if_congr ?_ rfl rfl
  simp only [Bool.and_eq_true, beq_iff_eq]
  refine and_congr_left fun _ => ?_
  obtain rfl | rfl | rfl : kind = 0 ∨ kind = 1 ∨ kind = 2 := by omega
  · cases a.pkg.warm <;> decide
  · simp
  · simp

/-- The notice of a warm start that finds no retained memory to keep (R157). -/
def State.startKindNoted (s : State) (kind : Nat) : State :=
  if (if kind == 0 then (if s.app.pkg.warm then 2 else 1) else kind) == 2 && !(s.app.retSig == some s.app.pkg.layoutSig && s.app.retOk) then
    s.notice 0x16 0x0004 0 0 else s

/-- Retained memory as a start of a kind finds it. -/
def State.startRetained (s : State) (p : AppPkg) (k : Nat) : State :=
  if k == 1 then { s with app := { s.app with retMem := p.retInit, retSig := some p.layoutSig, retCrc := crcTable p.retInit } } else s

/-- No packet of the network, of the bridge or of a publication is in use. -/
def State.startFreed (s : State) : State := { s with netUsed := [], eth := { s.eth with pubUsed := [] }, rb := { s.rb with tasks := [] } }

/-- The application Starting, its tasks fresh. -/
def State.startBegun (s : State) (k : Nat) : State :=
  { s with app := { s.app with
      state := .starting, startKind := k, olcCount := 0, anchor := none
      tasks := (List.range 16).foldl (fun m t => tabSet (fun _ => {}) m t (s.freshTask t)) [], changeEnd := none } }

/-- The resynchronisation under way begins anew at a start. -/
def State.rsyncAnew (s : State) : State :=
  if s.on VX_RSYNC_ACTIVE then (s.p VX_RSYNC_ROUND 1).p VX_RSYNCLEFT_KIB (4 * s.copyPages (s.g VX_RSYNC_SOURCE)) else s

/-- The connections and the lanes of a start. -/
def State.startLanes (s : State) : State := ((s.scStart.liveLanes.foldl State.initLane s.scStart).rsyncAnew).laneRise

theorem State.startApp_eq (s : State) (kind : Nat) : s.startApp kind =
    ((((((s.startKindNoted kind).startRetained s.app.pkg (s.app.kindOfStart kind)).dropContexts.clearRun).startFreed).startBegun
      (s.app.kindOfStart kind)).startLanes) := by
  unfold State.startApp State.startLanes State.rsyncAnew State.startBegun State.startFreed State.startRetained AppSt.kindOfStart State.startKindNoted
  with_reducible rfl

/-- Two applications that wait to answer the same start. -/
def AppSt.sameAsk (a b : AppSt) : Prop :=
  b.startChans = a.startChans ∧ b.startHdr = a.startHdr ∧ b.startPay = a.startPay ∧ b.startByReady = a.startByReady

theorem AppSt.sameAsk.of_run {a b : AppSt} (h : a.sameRun b) : a.sameAsk b := h.fields.2.2

theorem AppSt.sameAsk.trans {a b c : AppSt} (h : a.sameAsk b) (k : b.sameAsk c) : a.sameAsk c :=
  ⟨k.1.trans h.1, k.2.1.trans h.2.1, k.2.2.1.trans h.2.2.1, k.2.2.2.trans h.2.2.2⟩

theorem State.startKindNoted_app (s : State) (kind : Nat) : (s.startKindNoted kind).app = s.app := app_ite (State.notice_app _ _ _ _ _) rfl

theorem State.startRetained_ask (s : State) (p : AppPkg) (k : Nat) : s.app.sameAsk (s.startRetained p k).app := by
  unfold State.startRetained
  split <;> exact ⟨rfl, rfl, rfl, rfl⟩

theorem State.startFreed_app (s : State) : s.startFreed.app = s.app := rfl

theorem State.startBegun_ask (s : State) (k : Nat) : s.app.sameAsk (s.startBegun k).app := ⟨rfl, rfl, rfl, rfl⟩

theorem State.startBegun_shows (s : State) (k : Nat) : (s.startBegun k).app.state = .starting ∧ (s.startBegun k).app.startKind = k ∧
    (s.startBegun k).app.olcCount = 0 ∧ (s.startBegun k).app.anchor = none := ⟨rfl, rfl, rfl, rfl⟩

theorem State.rsyncAnew_app (s : State) : s.rsyncAnew.app = s.app := app_ite (app_p (app_p rfl)) rfl

theorem State.startLanes_app (s : State) : s.startLanes.app = s.app := by
  rw [State.startLanes, State.laneRise_app, State.rsyncAnew_app, app_foldl _ State.initLane_app, State.scStart_app]

theorem State.startApp_starts (s : State) (kind : Nat) : (s.startApp kind).app.state = .starting ∧
    (s.startApp kind).app.startKind = s.app.kindOfStart kind ∧ (s.startApp kind).app.olcCount = 0 ∧ (s.startApp kind).app.anchor = none := by
  rw [s.startApp_eq kind, State.startLanes_app]
  exact State.startBegun_shows _ _

theorem State.startApp_ask (s : State) (kind : Nat) : s.app.sameAsk (s.startApp kind).app := by
  rw [s.startApp_eq kind, State.startLanes_app]
  generalize s.app.kindOfStart kind = k
  have retained := (s.startKindNoted kind).startRetained_ask s.app.pkg k
  rw [s.startKindNoted_app kind] at retained
  generalize (s.startKindNoted kind).startRetained s.app.pkg k = t at retained ⊢
  have cleared := t.dropContexts.clearRun_run
  rw [t.dropContexts_app] at cleared
  have begun := t.dropContexts.clearRun.startFreed.startBegun_ask k
  rw [State.startFreed_app] at begun
  exact retained.trans ((AppSt.sameAsk.of_run cleared).trans begun)

/-- A command's start to be answered once the application runs (R475). -/
def State.asked (s : State) (i : CmdIn) : State :=
  { s with app := { s.app with startChans := i.chans, startHdr := i.hdr, startPay := i.p, startByReady := false } }

theorem State.startFor_eq (s : State) (i : CmdIn) : s.startFor i = (s.asked i).startApp (byteAt i.p 0) := rfl

/-- What a start that a command asked for leaves of the application (R475). -/
def AppSt.StartsFor (a : AppSt) (i : CmdIn) : Prop :=
  a.state = .starting ∧ a.startChans = i.chans ∧ a.startHdr = i.hdr ∧ a.startPay = i.p ∧ a.startByReady = false ∧ a.anchor = none ∧ a.olcCount = 0

theorem State.startFor_starts (s : State) (i : CmdIn) : (s.startFor i).app.StartsFor i := by
  rw [s.startFor_eq i]
  obtain ⟨state, -, count, anchor⟩ := (s.asked i).startApp_starts (byteAt i.p 0)
  obtain ⟨chans, hdr, pay, ready⟩ := (s.asked i).startApp_ask (byteAt i.p 0)
  exact ⟨state, chans, hdr, pay, ready, anchor, count⟩

theorem State.startFor_kind (s : State) (i : CmdIn) (legal : byteAt i.p 0 ≤ 2) : (s.startFor i).app.startKind =
    if (byteAt i.p 0 = 2 ∨ (byteAt i.p 0 = 0 ∧ s.app.pkg.warm = true)) ∧ s.app.retSig = some s.app.pkg.layoutSig ∧ s.app.retOk = true then 2 else 1 := by
  rw [s.startFor_eq i, ((s.asked i).startApp_starts (byteAt i.p 0)).2.1, AppSt.kindOfStart_iff _ legal]
  rfl

/-! ### The commands (R472, R475 to R477, R81) -/

theorem kindOk_legal {p : List Byte} (h : kindOk p = true) : byteAt p 0 ≤ 2 := by
  rw [kindOk, Bool.and_eq_true, decide_eq_true_eq] at h
  exact h.1

section
variable {s : State} {i : CmdIn}

theorem State.cmdAppStart_of_bad (bad : kindOk i.p = false) : s.cmdAppStart i = .no s stBadParam := if_pos (by rw [bad]; rfl)

theorem State.cmdAppStart_of_absent (legal : kindOk i.p = true) (absent : s.app.state = .notLoaded) : s.cmdAppStart i = .no s stNotPresent := by
  rw [State.cmdAppStart, if_neg (by rw [legal]; decide), absent]

theorem State.cmdAppStart_of_stopped (legal : kindOk i.p = true) (stopped : s.app.state = .stopped) : s.cmdAppStart i = .later (s.startFor i) := by
  rw [State.cmdAppStart, if_neg (by rw [legal]; decide), stopped]

theorem State.cmdAppStart_of_starting (legal : kindOk i.p = true) (starting : s.app.state = .starting) : s.cmdAppStart i =
    .later { s with app := { s.app with startChans := i.chans, startHdr := i.hdr, startPay := i.p } } := by
  rw [State.cmdAppStart, if_neg (by rw [legal]; decide), starting]

theorem State.cmdAppStart_of_runs (legal : kindOk i.p = true) (runs : s.app.state ∈ [.running, .changing, .held]) : s.cmdAppStart i = .idle s := by
  simp only [List.mem_cons, List.not_mem_nil, or_false] at runs
  rw [State.cmdAppStart, if_neg (by rw [legal]; decide)]
  obtain state | state | state := runs <;> rw [state]

theorem State.cmdAppStop_of_rests (rests : s.app.state ∈ [.notLoaded, .stopped]) : s.cmdAppStop i = .idle s := by
  simp only [List.mem_cons, List.not_mem_nil, or_false] at rests
  obtain state | state := rests <;> rw [State.cmdAppStop, state]

theorem State.cmdAppStop_of_runs (runs : s.app.state ∈ [.starting, .running, .changing, .held]) :
    s.cmdAppStop i = .done s.abortWaiting.appStop := by
  simp only [List.mem_cons, List.not_mem_nil, or_false] at runs
  obtain state | state | state | state := runs <;> rw [State.cmdAppStop, state]

theorem State.abortWaiting_appStop_ends (runs : s.app.state ∈ [.starting, .running, .changing, .held]) : s.abortWaiting.appStop.app.Ended := by
  refine State.appStop_ends ?_
  rw [s.abortWaiting_run.fields.1]
  simp only [List.mem_cons, List.not_mem_nil, or_false] at runs
  obtain state | state | state | state := runs <;> rw [state] <;> decide

theorem State.cmdAppRestart_of_bad (bad : kindOk i.p = false) : s.cmdAppRestart i = .no s stBadParam := if_pos (by rw [bad]; rfl)

theorem State.cmdAppRestart_of_absent (legal : kindOk i.p = true) (absent : s.app.state = .notLoaded) : s.cmdAppRestart i = .no s stNotPresent := by
  rw [State.cmdAppRestart, if_neg (by rw [legal]; decide), absent]

theorem State.cmdAppRestart_of_loaded (legal : kindOk i.p = true) (loaded : s.app.state ≠ .notLoaded) :
    s.cmdAppRestart i = .later (s.abortWaiting.appStop.startFor i) := by
  rw [State.cmdAppRestart, if_neg (by rw [legal]; decide)]
  split
  next absent => exact absurd absent loaded
  all_goals rfl

theorem State.cmdAppNextstart_eq : s.cmdAppNextstart i =
    if !kindOk i.p then .no s stBadParam else .ok (s.p LC_NEXT_KIND (byteAt i.p 0)) [] (s.g LC_NEXT_KIND != byteAt i.p 0) := rfl

/-- Where a waiting command stands aside, quiet gaps wanted (R145). -/
def State.gapWanted (s : State) (code : Nat) (i : CmdIn) : State :=
  ({ s with waiting := some { code := code, chans := i.chans, hdr := i.hdr, payload := i.p, since := s.now } } : State).inhibit

theorem State.busyWaiting_iff : s.busyWaiting = true ↔ s.waiting ≠ none := Option.isSome_iff_ne_none

/-- A waiting command whose conditions hold: one at a time, aside until its execution point (R467). -/
def CmdRes.aside (s : State) (code : Nat) (i : CmdIn) : CmdRes := if s.busyWaiting then .no s stResource else .later (s.setAside code i).inhibit

theorem CmdRes.aside_of_busy {code : Nat} (busy : s.waiting ≠ none) : CmdRes.aside s code i = .no s stResource :=
  if_pos (State.busyWaiting_iff.2 busy)

theorem CmdRes.aside_of_free {code : Nat} (free : s.waiting = none) : CmdRes.aside s code i = .later (s.gapWanted code i) :=
  if_neg (fun busy => State.busyWaiting_iff.1 busy free)

theorem State.cmdAppOlcApply_of_absent (absent : s.app.olcPkg = none) : s.cmdAppOlcApply i = .no s stNotPresent := if_pos (by rw [absent]; rfl)

theorem State.cmdAppOlcApply_of_loaded (loaded : s.app.olcPkg ≠ none) : s.cmdAppOlcApply i =
    if s.app.olcHash != i.p then .no s stVerifyFail else CmdRes.aside s 0x0208 i :=
  if_neg (fun absent => loaded (Option.isNone_iff_eq_none.1 absent))

/-- A pair and its reserved field out of range. -/
def pairBad (p : List Byte) : Prop := byteAt p 0 = 0 ∨ 3 < byteAt p 0 ∨ zeros p 1 4 = false

/-- A safety task on a pair. -/
def State.safetyOn (s : State) (n : Nat) : Prop := ∃ t ∈ List.range 16, (s.desc t).kind ≠ 0 ∧ (s.desc t).pair = n ∧ (s.desc t).safety = true

theorem pairBad_iff {p : List Byte} : (byteAt p 0 == 0 || decide (byteAt p 0 > 3) || !zeros p 1 4) = true ↔ pairBad p := by
  simp only [Bool.or_eq_true, beq_iff_eq, decide_eq_true_eq, Bool.not_eq_true', gt_iff_lt, or_assoc, pairBad]

theorem State.safetyOn_iff {n : Nat} :
    (List.range 16).any (fun t => (s.desc t).kind != 0 && (s.desc t).pair == n && (s.desc t).safety) = true ↔ s.safetyOn n := by
  simp only [List.any_eq_true, Bool.and_eq_true, bne_iff_ne, beq_iff_eq, and_assoc, State.safetyOn]

theorem State.cmdPairSplit_of_bad
    (bad : pairBad i.p ∨ s.safetyOn (byteAt i.p 0) ∨ tabGet (fun _ => 0) s.app.pkg.entries (byteAt i.p 0) = 0) :
    s.cmdPairSplit i = .no s stBadParam := by
  unfold State.cmdPairSplit
  by_cases pair : pairBad i.p
  · exact if_pos (pairBad_iff.2 pair)
  by_cases safety : s.safetyOn (byteAt i.p 0)
  · exact (if_neg (mt pairBad_iff.1 pair)).trans (if_pos (State.safetyOn_iff.2 safety))
  · have entry := (bad.resolve_left pair).resolve_left safety
    exact (if_neg (mt pairBad_iff.1 pair)).trans ((if_neg (mt State.safetyOn_iff.1 safety)).trans (if_pos (beq_iff_eq.2 entry)))

theorem State.cmdPairSplit_of_good
    (good : ¬ (pairBad i.p ∨ s.safetyOn (byteAt i.p 0) ∨ tabGet (fun _ => 0) s.app.pkg.entries (byteAt i.p 0) = 0)) :
    s.cmdPairSplit i = if s.pairNow (byteAt i.p 0) == 2 then .idle s else CmdRes.aside s 0x0209 i := by
  obtain ⟨pair, safety, entry⟩ : ¬ pairBad i.p ∧ ¬ s.safetyOn (byteAt i.p 0) ∧ tabGet (fun _ => 0) s.app.pkg.entries (byteAt i.p 0) ≠ 0 :=
    ⟨fun h => good (.inl h), fun h => good (.inr (.inl h)), fun h => good (.inr (.inr h))⟩
  unfold State.cmdPairSplit
  exact (if_neg (mt pairBad_iff.1 pair)).trans ((if_neg (mt State.safetyOn_iff.1 safety)).trans (if_neg (mt beq_iff_eq.1 entry)))

theorem State.cmdPairJoin_of_bad (bad : pairBad i.p) : s.cmdPairJoin i = .no s stBadParam := if_pos (pairBad_iff.2 bad)

theorem State.cmdPairJoin_of_good (good : ¬ pairBad i.p) :
    s.cmdPairJoin i = if s.pairNow (byteAt i.p 0) == 0 then .idle s else CmdRes.aside s 0x020A i := if_neg (mt pairBad_iff.1 good)

end

theorem State.inhibit_on (s : State) {l : Nat} (live : l ∈ s.liveLanes) : s.inhibit.on (RA_CTRL_INHIBIT l) = true := by
  rw [State.on, State.inhibit, State.inhibit_each, if_pos live]
  rfl

theorem State.inhibit_only (s : State) : OnlyRegs s s.inhibit (fun x => ∃ l, l < 4 ∧ x = (RA_CTRL_INHIBIT l).reg) :=
  List.foldlRecOn s.liveLanes _ (motive := fun t => OnlyRegs s t (fun x => ∃ l, l < 4 ∧ x = (RA_CTRL_INHIBIT l).reg)) (OnlyRegs.refl s _)
    fun _ kept l live => kept.p (RA_CTRL_INHIBIT l) 1 ⟨l, State.mem_liveLanes_lt live, rfl⟩

end Sys2Proof.Machine

namespace Sys2Proof.Proofs
open Sys2Proof.Machine Sys2Proof.Safety

/-- Settles O11: a start, and with it a restart, ends in a state Starting whose open start is the command's; one that meets a start under way takes
its place as the command to answer, which is the model's reading (log 39). A stop goes through the end of the forces and of the open start. The
waiting commands share the choice between `RESOURCE` and standing aside, with the quiet gap wanted in every lane that runs. -/
theorem applicationCommandsFollowItsState : Obligations.ApplicationCommandsFollowItsState := by
  refine ⟨fun s a ch h p c => ⟨fun r => ?start, fun r => ?stop, fun r => ?restart⟩, fun s a ch h p c => ⟨fun r => ?next, fun r => ?status⟩,
    fun s a ch h p c => ⟨fun r => ?apply, fun r => ?split, fun r => ?join⟩, fun a => ⟨fun l live => a.inhibit_on live, a.inhibit_only⟩⟩
  all_goals obtain ⟨-, rfl⟩ := runs_hdr r
  case start =>
    rw [execAppStart_runs r]
    refine ⟨fun bad => ?_, fun legal => ⟨fun state => ?_, fun state => ⟨a.startFor c, ?_, rfl, ?_⟩, fun state => ?_, fun state => ?_⟩⟩
    · rw [State.cmdAppStart_of_bad bad, finish_no]
    · rw [State.cmdAppStart_of_absent legal state, finish_no]
    · rw [State.cmdAppStart_of_stopped legal state, finish_later]
    · obtain ⟨starting, chans, hdr, pay, ready, anchor, count⟩ := a.startFor_starts c
      exact ⟨starting, chans, hdr, pay, ready, anchor, count, a.startFor_kind c (kindOk_legal legal)⟩
    · rw [State.cmdAppStart_of_starting legal state, finish_later]
    · rw [State.cmdAppStart_of_runs legal state, finish_idle]
  case stop =>
    rw [execAppStop_runs r]
    refine ⟨fun rests => ?_, fun runs => ⟨a.abortWaiting.appStop, ?_, rfl, State.abortWaiting_appStop_ends runs⟩⟩
    · rw [State.cmdAppStop_of_rests rests, finish_idle]
    · rw [State.cmdAppStop_of_runs runs, finish_done]
  case restart =>
    rw [execAppRestart_runs r]
    refine ⟨fun bad => ?_, fun legal => ⟨fun absent => ?_, fun loaded => ⟨a.abortWaiting.appStop.startFor c, ?_, rfl, ?_⟩⟩⟩
    · rw [State.cmdAppRestart_of_bad bad, finish_no]
    · rw [State.cmdAppRestart_of_absent legal absent, finish_no]
    · rw [State.cmdAppRestart_of_loaded legal loaded, finish_later]
    · obtain ⟨starting, chans, hdr, pay, -, anchor, count⟩ := a.abortWaiting.appStop.startFor_starts c
      exact ⟨starting, chans, hdr, pay, anchor, count⟩
  case next =>
    rw [execAppNextstart_runs r, State.cmdAppNextstart_eq]
    refine ⟨fun bad => ?_, fun legal => ⟨a.p LC_NEXT_KIND (byteAt c.p 0), ?_, ?_, ?_⟩⟩
    · rw [if_pos (by rw [bad]; rfl), finish_no]
    · rw [if_neg (by rw [legal]; decide), finish_ok]
    · have small := kindOk_legal legal
      exact a.g_p_fits ⟨by decide, by show byteAt c.p 0 < 4; omega⟩
    · exact (OnlyRegs.refl a _).p LC_NEXT_KIND _ ⟨LC_NEXT_KIND, List.mem_singleton_self _, rfl⟩
  case status =>
    rw [execAppStatus_runs r, State.cmdAppStatus, finish_read]
    simp only [beq_iff_eq]
  case apply =>
    rw [execAppOlcApply_runs r]
    refine ⟨fun absent => ?_, fun loaded other => ?_, fun loaded same busy => ?_, fun loaded same free => ?_⟩
    · rw [State.cmdAppOlcApply_of_absent absent, finish_no]
    · rw [State.cmdAppOlcApply_of_loaded loaded, if_pos (bne_iff_ne.2 other), finish_no]
    · rw [State.cmdAppOlcApply_of_loaded loaded, if_neg (by simp [same]), CmdRes.aside_of_busy busy, finish_no]
    · rw [State.cmdAppOlcApply_of_loaded loaded, if_neg (by simp [same]), CmdRes.aside_of_free free, finish_later]
      rfl
  case split =>
    rw [execPairSplit_runs r]
    refine ⟨fun bad => ?_, fun good done => ?_, fun good open_ busy => ?_, fun good open_ free => ?_⟩
    · rw [State.cmdPairSplit_of_bad (by simpa only [pairBad, State.safetyOn, or_assoc] using bad), finish_no]
    all_goals rw [State.cmdPairSplit_of_good (by simpa only [pairBad, State.safetyOn, or_assoc] using good)]
    · rw [if_pos (beq_iff_eq.2 done), finish_idle]
    · rw [if_neg (mt beq_iff_eq.1 open_), CmdRes.aside_of_busy busy, finish_no]
    · rw [if_neg (mt beq_iff_eq.1 open_), CmdRes.aside_of_free free, finish_later]
      rfl
  case join =>
    rw [execPairJoin_runs r]
    refine ⟨fun bad => ?_, fun good done => ?_, fun good open_ busy => ?_, fun good open_ free => ?_⟩
    · rw [State.cmdPairJoin_of_bad bad, finish_no]
    all_goals rw [State.cmdPairJoin_of_good good]
    · rw [if_pos (beq_iff_eq.2 done), finish_idle]
    · rw [if_neg (mt beq_iff_eq.1 open_), CmdRes.aside_of_busy busy, finish_no]
    · rw [if_neg (mt beq_iff_eq.1 open_), CmdRes.aside_of_free free, finish_later]
      rfl

end Sys2Proof.Proofs

/-! SUPPORT. The time status, ring schedules as they are staged, committed and shown, and the commands that read registers (R480 to R487). -/

namespace Sys2Proof.Machine
open Sys2Proof.Safety

/-! ### The time status (R183, R480) -/

/-- The bytes of a time status after its first eight: state, flags, offsets and grandmasters. -/
def State.timeRest (s : State) : List Byte :=
  leBytes 1 (s.g TU_STAT_SSTATE) ++ leBytes 1 (s.g TU_STAT_SYNC + 2 * s.g EN_PTPSTAT_PRESENT + 4 * s.g EN_PTPSTAT_SETTLED +
    8 * s.g (BZ_SYNCSTAT_PRESENT 0) + 16 * s.g (BZ_SYNCSTAT_PRESENT 1)) ++ leBytes 2 0 ++ leBytes 4 (s.word TU_OFFSET_NS).toNat ++
  leBytes 4 (s.word EN_PTPOFF_O).toNat ++ leBytes 4 (s.word EN_GMID0_ID).toNat ++ leBytes 4 (s.word EN_GMID1_ID).toNat ++ leBytes 4 0

theorem State.timeRest_length (s : State) : s.timeRest.length = 24 := by simp only [State.timeRest, List.length_append, length_leBytes]

/-- The bytes of a time status. -/
def State.timeBytes (s : State) : List Byte := (leBytes 4 (s.g TU_SNAPNS_NS) ++ leBytes 4 (s.g TU_SNAPERA_ERA)) ++ s.timeRest

theorem State.timeBytes_length (s : State) : s.timeBytes.length = 32 := by
  simp only [State.timeBytes, List.length_append, length_leBytes, State.timeRest_length]

theorem State.timeBytes_head (s : State) : s.timeBytes.take 8 = leBytes 4 (s.g TU_SNAPNS_NS) ++ leBytes 4 (s.g TU_SNAPERA_ERA) :=
  List.take_left' (by simp only [List.length_append, length_leBytes])

theorem State.cmdTimeStatus_eq (s : State) (i : CmdIn) : s.cmdTimeStatus i = .read s.snapshot s.snapshot.timeBytes := by
  simp only [State.cmdTimeStatus, State.timeBytes, State.timeRest, List.append_assoc]

/-! ### Ring schedules (R481, R482) -/

/-- Entry `k` of a `RING_SCHED` payload. -/
def payEnt (p : List Byte) (k : Nat) : Word × Word := (wordOf p (8 + 8 * k), wordOf p (12 + 8 * k))

/-- A staged table after the first `n` entries of a payload entered it. -/
def entsIn (p : List Byte) (first : Nat) (m : Tab (Word × Word)) (n : Nat) : Tab (Word × Word) :=
  (List.range n).foldl (fun m k => tabSet (fun _ => (0, 0)) m (first + k) (payEnt p k)) m

theorem entsIn_get (p : List Byte) (first : Nat) (m : Tab (Word × Word)) (n e : Nat) : tabGet (fun _ => (0, 0)) (entsIn p first m n) e =
    if first ≤ e ∧ e < first + n then payEnt p (e - first) else tabGet (fun _ => (0, 0)) m e := by
  induction n with
  | zero => rw [if_neg (by omega)]; rfl
  | succ n ih =>
    rw [entsIn, List.range_succ, List.foldl_append]
    by_cases last : e = first + n
    · subst last
      rw [if_pos (by omega), Nat.add_sub_cancel_left]
      exact tabGet_tabSet_same _ _ _ _
    · refine (tabGet_tabSet_ne _ _ _ last).trans (ih.trans (if_congr ?_ rfl rfl))
      omega

/-- The state with a payload's entries staged. -/
def State.ringStaged (s : State) (r : Nat) (p : List Byte) : State :=
  s.modRing r (fun x => { x with staged := entsIn p (leAt p 2 2) x.staged (leAt p 4 2) })

theorem ringIdx_cases {p : List Byte} {r : Nat} (h : ringIdx p = some r) : r = 0 ∨ r = 1 := by
  unfold ringIdx at h
  split at h
  · exact .inl (Option.some.inj h).symm
  · split at h
    · exact .inr (Option.some.inj h).symm
    · cases h

theorem State.ringStaged_shows (s : State) {r : Nat} (ring : r = 0 ∨ r = 1) (p : List Byte) :
    s.ringStaged r p = { s with ring1 := (s.ringStaged r p).ring1, ring2 := (s.ringStaged r p).ring2 } ∧
    (s.ringStaged r p).ring r = { s.ring r with staged := entsIn p (leAt p 2 2) (s.ring r).staged (leAt p 4 2) } ∧
    (s.ringStaged r p).ring (1 - r) = s.ring (1 - r) := by
  obtain rfl | rfl := ring <;> exact ⟨rfl, rfl, rfl⟩

theorem State.stagedEnt_ringStaged (s : State) {r : Nat} (ring : r = 0 ∨ r = 1) (p : List Byte) (e : Nat) : (s.ringStaged r p).stagedEnt r e =
    if leAt p 2 2 ≤ e ∧ e < leAt p 2 2 + leAt p 4 2 then payEnt p (e - leAt p 2 2) else s.stagedEnt r e := by
  rw [State.stagedEnt, (s.ringStaged_shows ring p).2.1]
  exact entsIn_get p _ _ _ e

/-- What a `RING_SCHED` payload must be (R481). -/
def schedFits (p : List Byte) : Prop :=
  zeros p 1 2 = true ∧ 1 ≤ leAt p 4 2 ∧ leAt p 4 2 ≤ 125 ∧ zeros p 6 8 = true ∧ leAt p 2 2 + leAt p 4 2 ≤ 4096 ∧ p.length = 8 + 8 * leAt p 4 2

theorem schedFits_iff {p : List Byte} : (!zeros p 1 2 || !within 1 125 (leAt p 4 2) || !zeros p 6 8 || decide (leAt p 2 2 + leAt p 4 2 > 4096) ||
    p.length != 8 + 8 * leAt p 4 2) = true ↔ ¬ schedFits p := by
  simp only [within, Bool.or_eq_true, Bool.not_eq_true', Bool.and_eq_false_iff, decide_eq_false_iff_not, decide_eq_true_eq, bne_iff_ne, schedFits,
    not_and_or, Bool.not_eq_true, or_assoc, not_le, gt_iff_lt, ne_eq]

section
variable {s : State} {i : CmdIn} {r : Nat}

theorem State.cmdRingSched_of_none (none : ringIdx i.p = none) : s.cmdRingSched i = .no s stBadParam := by rw [State.cmdRingSched, none]

theorem State.cmdRingSched_of_bad (ring : ringIdx i.p = some r) (bad : ¬ schedFits i.p) : s.cmdRingSched i = .no s stBadParam := by
  rw [State.cmdRingSched, ring]
  exact if_pos (schedFits_iff.2 bad)

theorem State.cmdRingSched_of_fits (ring : ringIdx i.p = some r) (fits : schedFits i.p) : s.cmdRingSched i = .idle (s.ringStaged r i.p) := by
  rw [State.cmdRingSched, ring]
  exact if_neg (fun bad => schedFits_iff.1 bad fits)

/-- The words of a ring's staged table that a commit checks. -/
def State.stagedWords (s : State) (r n : Nat) : List (Word × Word) := (List.range (min n 4097)).map (s.stagedEnt r)

/-- The outcome of a ring's check, as `RING_STATUS` shows it. -/
def State.ringChecked (s : State) (r rule e : Nat) : State := s.modRing r (fun x => { x with chkRule := rule, chkEntry := e })

/-- The configuration that a commit's payload and the staged words make. -/
def ringCfgOf (p : List Byte) (ws : List (Word × Word)) : RingCfg := { nent := leAt p 2 2, ctrl := wordOf p 4, sync := wordOf p 8, entries := ws }

/-- A schedule that passed its check, stored and stamped, its identifier returned (R482, R519). -/
def State.ringTaken (s : State) (r : Nat) (p : List Byte) : CmdRes :=
  .ok (((s.ringChecked r 0 0).setRingCfg r (some (ringCfgOf p (s.stagedWords r (leAt p 2 2))))).stamp (r + 1))
    (leBytes 2 (schedId (leAt p 2 2) (getBits (wordOf p 4) 12 5) (getBits (wordOf p 4) 5 1) (s.stagedWords r (leAt p 2 2))) ++ leBytes 2 0) true

/-- A commit of a ring's staged table (R482). -/
def State.ringCommitted (s : State) (r : Nat) (p : List Byte) : CmdRes :=
  match ringCheck (leAt p 2 2) (wordOf p 4) (wordOf p 8) (s.stagedWords r (leAt p 2 2)) with
  | some (rule, e) => .no (s.ringChecked r rule e) stBadParam
  | none => s.ringTaken r p

theorem State.cmdRingCommit_of_none (none : ringIdx i.p = none) : s.cmdRingCommit i = .no s stBadParam := by rw [State.cmdRingCommit, none]

theorem State.cmdRingCommit_of_ring (ring : ringIdx i.p = some r) : s.cmdRingCommit i =
    if zeros i.p 1 2 = false then .no s stBadParam
    else if leAt i.p 2 2 = 0 then
      if s.ringCfg r = none then .ok s (leBytes 4 0) false else .ok ((s.setRingCfg r none).unstamp (r + 1)) (leBytes 4 0) true
    else s.ringCommitted r i.p := by
  rw [State.cmdRingCommit, ring]
  refine if_congr (by simp) rfl (if_congr (by simp) (if_congr (by simp) rfl rfl) ?_)
  unfold State.ringCommitted State.stagedWords
  dsimp only
  cases ringCheck (leAt i.p 2 2) (wordOf i.p 4) (wordOf i.p 8) ((List.range (min (leAt i.p 2 2) 4097)).map (s.stagedEnt r)) <;> rfl

theorem State.cmdRingStatus_of_none (none : ringIdx i.p = none) : s.cmdRingStatus i = .no s stBadParam := by rw [State.cmdRingStatus, none]

theorem State.cmdRingStatus_of_ring (ring : ringIdx i.p = some r) : s.cmdRingStatus i =
    if zeros i.p 1 4 = false then .no s stBadParam
    else .read s (s.regBytes (BZ_STAT_STATE r) ++ s.regBytes (BZ_JOIN_PHASE r) ++ s.regBytes (BZ_SYNCSTAT_PRESENT r) ++
      s.regBytes (BZ_FOLD_STATE r) ++ s.regBytes (BZ_MDELAY_NS r) ++ leBytes 2 (s.cfgSchedId r) ++ leBytes 1 (s.ring r).chkRule ++
      leBytes 1 0 ++ leBytes 2 (s.ring r).chkEntry ++ leBytes 6 0) := by
  rw [State.cmdRingStatus, ring]
  exact if_congr (by simp) rfl rfl

end

end Sys2Proof.Machine

namespace Sys2Proof.Proofs
open Sys2Proof.Machine Sys2Proof.Safety

/-- Settles O13: the time status answers from the snapshot that it takes; a ring's staged table is a fold of table writes, so its entries are read
back by their numbers; a commit follows the outcome of its check; the reading commands answer with the registers their rules list. -/
theorem timeRingAndStatusCommands : Obligations.TimeRingAndStatusCommands := by
  refine ⟨fun s a ch h p c r => ?time, fun s a ch h p c r => ?sched, fun s a ch h p c => ⟨fun r => ?commit, fun r => ?status⟩,
    fun s a ch h p c => ⟨fun r => ?eth, fun r => ?safe, fun r => ?fio, fun r => ?unit⟩⟩
  all_goals obtain ⟨-, rfl⟩ := runs_hdr r
  case time =>
    obtain ⟨ns, era, frac⟩ := a.snapshot_shows
    refine ⟨a.snapshot, a.snapshot.timeBytes, ?_, ?_, State.timeBytes_length _, ns, era, frac, a.snapshot_only⟩
    · rw [execTimeStatus_runs r, State.cmdTimeStatus_eq, finish_read]
    · rw [State.timeBytes_head, ns, era]
  case sched =>
    rw [execRingSched_runs r]
    refine ⟨fun none => ?_, fun k ring bad => ?_, fun k ring fits => ⟨a.ringStaged k c.p, ?_, ?_, ?_, ?_⟩⟩
    · rw [State.cmdRingSched_of_none none, finish_no]
    · rw [State.cmdRingSched_of_bad ring bad, finish_no]
    · rw [State.cmdRingSched_of_fits ring fits, finish_idle]
    · exact (a.ringStaged_shows (ringIdx_cases ring) c.p).1
    · exact a.stagedEnt_ringStaged (ringIdx_cases ring) c.p
    · exact (a.ringStaged_shows (ringIdx_cases ring) c.p).2.2
  case commit =>
    rw [execRingCommit_runs r]
    cases ring : ringIdx c.p with
    | none => rw [State.cmdRingCommit_of_none ring, finish_no]
    | some k =>
      rw [State.cmdRingCommit_of_ring ring, finish_ite, finish_ite, finish_ite]
      dsimp only
      refine congrArg Host.Outcome.next (if_congr Iff.rfl rfl (if_congr Iff.rfl rfl ?_))
      unfold State.ringCommitted State.stagedWords
      cases ringCheck (leAt c.p 2 2) (wordOf c.p 4) (wordOf c.p 8) ((List.range (min (leAt c.p 2 2) 4097)).map (a.stagedEnt k)) <;> rfl
  case status =>
    rw [execRingStatus_runs r]
    cases ring : ringIdx c.p with
    | none => rw [State.cmdRingStatus_of_none ring, finish_no]
    | some k => rw [State.cmdRingStatus_of_ring ring, finish_ite]; rfl
  case eth =>
    rw [execEthStatus_runs r, State.cmdEthStatus, finish_read]
    simp only [List.flatMap_cons, List.flatMap_nil, List.append_nil, List.append_assoc]
  case safe => rw [execSafeStatus_runs r, State.cmdSafeStatus, finish_read]
  case fio => rw [execFioStatus_runs r, State.cmdFioStatus, finish_read]
  case unit => rw [execUnitStatus_runs r, State.cmdUnitStatus, finish_read]

end Sys2Proof.Proofs
